-- ==== Sys2Proof/Word.lean ====
section
/-! DEFINITION. The word types of the module and their plainest arithmetic: the 32-bit register word (R33), the byte,
and the 72-bit time-base count (R57). -/
namespace Sys2Proof

/-- A 32-bit register word (R33). -/
abbrev Word := BitVec 32
/-- A byte. -/
abbrev Byte := BitVec 8
/-- A time-base count in TBU (R57): 72 bits, wrapping. -/
abbrev Count := BitVec 72

/-- A bit field `[hi:lo]` of a register word (R5). -/
structure Fld where
  hi : Nat
  lo : Nat
deriving DecidableEq, Repr

/-- The number of bits of a field. -/
abbrev Fld.width (f : Fld) : Nat := f.hi + 1 - f.lo

end Sys2Proof
end

