-- ==== Sys2Proof/Config.lean ====
section
/-! DEFINITION. What an implementation fixes and the free values: constants without a body, so that nothing can be proved
of what the spec leaves open. Each is named in the assumption log. -/
namespace Sys2Proof

/-! ## Identity of the part (R26): "This manual fixes no value for them" -/

/-- Issue of the engine die, GLB_PART.DIEISS (R26). -/
opaque Config.dieIssue : BitVec 8
/-- Issue of the module assembly, GLB_PART.BOARD (R26). -/
opaque Config.boardIssue : BitVec 8
/-- The 64-bit module serial, GLB_SERIAL (R26). -/
opaque Config.serial : BitVec 64
/-- The identity of the control-store ROM, LPE_CS_ROMID (R222). -/
opaque Config.romId : BitVec 32
/-- The VERSION of the delivered firmware release, in both slots (R3). -/
opaque Config.releaseVersion : BitVec 32

/-! ## Open choices and bounds -/

/-- Ford latency in cycles of the `k`-th action that crosses a ford; the model takes it modulo 65 (R73: "no more than
64 cycles"). -/
opaque Config.fordLatency : Nat → Nat
/-- A value that the spec does not state: the `k`-th free value of the run, as a natural number cut to its field. -/
opaque Config.freeValue : Nat → Nat
/-- How long the shadow position of a starved player stays on an entry whose DUR lies below 4 (R228, R244). -/
opaque Config.badDur : Nat → Nat
/-- The records that the staging part of a class holds (R317; the spec gives the 24 MiB of the region and not its
division). -/
opaque Config.stagingRecords : Nat → Nat
/-- A byte of the staging region: by the records staged in each class (R21, R317: no layout is given). -/
opaque Config.stagingByte : List (List (List Byte)) → Nat → Byte
/-- A byte of the message pool: by the messages of the queues (R21, R278: no layout is given). -/
opaque Config.poolByte : List Nat → Nat → Byte
/-- A byte of the ferry buffers at a count (R21: no layout is given). -/
opaque Config.ferryByte : Nat → Nat → Byte
/-- The pass-through latency of a ring message in TBU, `k` counting messages (R427: at most 250 ns). -/
opaque Config.ringPass : Nat → Nat
/-- The contents of the control-store ROM (R190): the microword at an index. -/
opaque Config.romMicro : Nat → BitVec 20
/-- The microcode of a standard law runs over a microword of the ROM (R191): by law id and micro-store address. -/
opaque Config.romUses : Nat → Nat → Bool
/-- The contents of the control-store ROM (R190): the nanoword at an index. -/
opaque Config.romNano : Nat → BitVec 192
/-- ENTRY0 of the ROM defaults of the law table, and their words 1 to 7 by id × 8 + word (R190, R208). -/
opaque Config.romLaw : Nat → BitVec 32
/-- The ROM part of the table store (R190). -/
opaque Config.romTable : Nat → BitVec 32
/-- What the digest of a tick is formed over, as bytes: the spec names the items of R386 and not their layout. -/
opaque Config.tickBytes : List (Nat × List Nat) → List Byte
/-- An entry of the factory calibration record (R366, R367), by island × 10 + unit: F0, C0, C1, C2, RSH, as numbers. -/
opaque Config.factoryEntry : Nat → List Nat
/-- A calibration record with a digest verifies at start-up (R366). -/
opaque Config.recordGood : BitVec 384 → Bool
/-- The SHA-384 digest of the factory calibration record. -/
opaque Config.factoryDigest : BitVec 384
/-- Both signatures of a patch verify with the keys of an anchor (R219, R465), and its plaintext under a content key, if its
TAG verifies. -/
opaque Config.patchSigned : BitVec 384 → List Byte → Bool
/-- Both signatures of a firmware image verify under the keys of an anchor (R496). -/
opaque Config.imageSigned : BitVec 384 → List Byte → Bool
/-- A signature by an anchor asks for the revocation of a vendor slot (R466; the spec does not say what it covers). -/
opaque Config.revokeSigned : BitVec 384 → Nat → List Byte → Bool
/-- The vendor's content key of slot 0, installed at manufacture (R468). -/
opaque Config.vendorContentKey : BitVec 256
/-- The vendor anchors in OTP (R465): boot 0 and 1, patch 2 and 3, reference 4 and 5, provisioning 6. -/
opaque Config.vendorAnchor : Nat → BitVec 384
opaque Config.patchPlain : BitVec 256 → List Byte → Option (List Byte)
/-- The SHA-384 digest of the delivered release's image, and the patches of its vendor patch area (R3). -/
opaque Config.releaseDigest : BitVec 384
opaque Config.releasePatches : List (List Byte)
/-- The patches that stand in the vendor patch area of a firmware image (R496; the spec does not lay the body out). -/
opaque Config.imagePatches : List Byte → List (List Byte)

/-- The words of the vendor reference structure stream (R3, R439): the spec gives its effect (T6 on all islands, all
channels disabled) and not its bytes. -/
opaque Config.referenceStream : Nat → BitVec 64
/-- The number of 64-bit words of the vendor reference structure stream. -/
opaque Config.referenceWords : Nat

/-- A role allows the integrity-only stream mode (R478; the spec does not say which roles do). -/
opaque Config.intOnlyRole : Nat → Bool

/-! ## Functions of named standards that the spec does not define -/

/-- SHA-384 of a byte string (R461), 48 bytes as one number, most significant byte first. -/
opaque Config.sha384 : List Byte → BitVec 384
/-- AES-256-GCM (R418) under a key with a nonce: the bytes that its counter mode makes of others, which made of them again
are the first, and the 16-byte tag over additional data and cipher text. -/
opaque Config.gcmCrypt : List Byte → List Byte → List Byte → List Byte
opaque Config.gcmTag : List Byte → List Byte → List Byte → List Byte → BitVec 128
/-- ECDH on P-384 (R461, R478): the `k`-th ephemeral public key, and the secret of it and a public key. -/
opaque Config.ecdhPublic : Nat → List Byte
opaque Config.ecdhSecret : Nat → List Byte → List Byte
/-- HKDF with HMAC-SHA-384 (R461): salt, input, info, and the number of bytes. -/
opaque Config.hkdf : List Byte → List Byte → List Byte → Nat → List Byte
/-- Both parts of a signature of R462 over a message verify under the keys of an anchor. -/
opaque Config.verify : BitVec 384 → List Byte → List Byte → Bool
/-- The `k`-th signature that the security island forms over a message (R462): 3,700 bytes. -/
opaque Config.sign : Nat → List Byte → List Byte
/-- The `k`-th string of random bytes that the DRBG gives (R461), of a given length. -/
opaque Config.random : Nat → Nat → List Byte
/-- The module's credential chain (R471) as bytes. -/
opaque Config.identityChain : List Byte

end Sys2Proof
end

