-- ==== Sys2Proof/Machine/RegTypes.lean ====
section
/-! DEFINITION. The types of the register map: classes (R35), owners (R36), value checks (R50) and rows, and the two
operations on a field of a register word. -/
namespace Sys2Proof.Machine

/-- The register classes of R35. -/
inductive Cls where
  | cfg | run | sta | lat | lock
deriving DecidableEq, Repr

/-- The owner of a CFG field (R36): the block, or the narrower owner that the field table names. -/
inductive Owner where
  | block | chan | loop | unit | mon | port | pin
deriving DecidableEq, Repr

/-- How a register answers a write: by the class rules alone (`plain`), by the rows of its own commands (`own`), or it
reads a value that the model derives from other state (`view`). -/
inductive RowKind where
  | plain | own | view
deriving DecidableEq, Repr

/-- Value checks that need other state than the written word. -/
inductive Special where
  | acqcfg | chdt | chphase | dllcfg | lchcfg | moncfg | pincfg
deriving DecidableEq, Repr

/-- A value check of a field table (R50). Bounds are inclusive. -/
inductive Chk where
  | nz (hi lo : Nat)
  | rng (hi lo min max : Nat)
  | zeroClears
  /-- A quantity of several words, not 0. -/
  | wideNz
  | onesRestarts
  | special (k : Special)
deriving DecidableEq, Repr

/-- A field of a register row: its bits, its class, and whether the structure stream sets it (R40). -/
structure FldRow where
  hi : Nat
  lo : Nat
  cls : Cls
  str : Bool
deriving DecidableEq, Repr

/-- The reset value of a row: one word, or one word per value of its last index. -/
inductive RowReset where
  | const (w : Word)
  | tab (ws : List Word)
deriving DecidableEq, Repr

/-- A row of the register map. `dims` are the indices with their counts and strides, `words` the words of the quantity
(R46), `bits` its bits. -/
structure RegRow where
  off : Nat
  dims : List (Nat × Nat)
  words : Nat
  bits : Nat
  reset : RowReset
  flds : List FldRow
  own : Owner
  kind : RowKind
  chk : List Chk
deriving DecidableEq, Repr

/-- The mask of the bits `[hi:lo]` of a word. -/
def bitMask (hi lo : Nat) : Word := ((1#32 <<< (hi + 1 - lo)) - 1#32) <<< lo

/-- The value of a field of a word. -/
def getF (w : Word) (f : Fld) : Nat := (w.toNat >>> f.lo) % 2 ^ f.width

/-- A word with a field set; a value that does not fit is cut to the field. -/
def putF (w : Word) (f : Fld) (v : Nat) : Word :=
  (w &&& ~~~ bitMask f.hi f.lo) ||| ((BitVec.ofNat 32 v <<< f.lo) &&& bitMask f.hi f.lo)

/-- A word with only the bits of one field, at a value. -/
def fldWord (f : Fld) (v : Nat) : Word := putF 0#32 f v

end Sys2Proof.Machine
end

