-- ==== Sys2Proof/Machine/RegMap.lean ====
section
/-! DEFINITION. The register map of every block, written from the register tables of spec/ (R26, R27, R82, R109, R141,
R159, R188, R222, R248, R299, R331, R352, R370, R396, R431, R447, R459, R482, R501, R511). One row per register name:
its block offset, its index dimensions, the words of the quantity, its reset value, its fields with their classes, the
owner of its CFG fields and the value checks of its field table. Beside each row, the REG-space address of the register
(`aNAME`, indices first, each modulo its bound) and its fields (`fNAME_FIELD`). -/
namespace Sys2Proof.Machine

/-! ## Addresses and fields -/

abbrev aGLB_RSTCAUSE : Nat := 0x0000010
abbrev fGLB_RSTCAUSE_LIMITED : Fld := ⟨16, 16⟩
abbrev fGLB_RSTCAUSE_STEP : Fld := ⟨11, 8⟩
abbrev fGLB_RSTCAUSE_CAUSE : Fld := ⟨3, 0⟩
abbrev aGLB_RSTCMD : Nat := 0x0000014
abbrev fGLB_RSTCMD_DIE : Fld := ⟨31, 31⟩
abbrev fGLB_RSTCMD_BLOCK : Fld := ⟨30, 30⟩
abbrev fGLB_RSTCMD_CODE : Fld := ⟨7, 0⟩
abbrev aGLB_PART : Nat := 0x0000020
abbrev fGLB_PART_PART : Fld := ⟨31, 16⟩
abbrev fGLB_PART_DIEISS : Fld := ⟨15, 8⟩
abbrev fGLB_PART_BOARD : Fld := ⟨7, 0⟩
abbrev aGLB_SERIAL : Nat := 0x0000024
abbrev aGLB_CAPS : Nat := 0x000002C
abbrev fGLB_CAPS_HBM : Fld := ⟨31, 24⟩
abbrev fGLB_CAPS_STEPENG : Fld := ⟨20, 16⟩
abbrev fGLB_CAPS_LOOPENG : Fld := ⟨11, 8⟩
abbrev fGLB_CAPS_ISLANDS : Fld := ⟨7, 0⟩
abbrev aGLB_SCRATCH : Nat := 0x0000030
abbrev aTBS_CTL : Nat := 0x0100010
abbrev fTBS_CTL_MPAIR : Fld := ⟨0, 0⟩
abbrev aTBS_SRC : Nat := 0x0100014
abbrev fTBS_SRC_SRC : Fld := ⟨1, 0⟩
abbrev aTBS_STATE : Nat := 0x0100018
abbrev fTBS_STATE_MASTER : Fld := ⟨12, 12⟩
abbrev fTBS_STATE_REF_PRESENT : Fld := ⟨11, 11⟩
abbrev fTBS_STATE_OVEN_READY : Fld := ⟨10, 10⟩
abbrev fTBS_STATE_SLEWING : Fld := ⟨9, 9⟩
abbrev fTBS_STATE_TIME_VALID : Fld := ⟨8, 8⟩
abbrev fTBS_STATE_STATE : Fld := ⟨2, 0⟩
abbrev aTBS_NOW : Nat := 0x010001C
abbrev aTBS_LOAD : Nat := 0x0100028
abbrev aTBS_CMD : Nat := 0x0100034
abbrev fTBS_CMD_ANCHOR : Fld := ⟨1, 1⟩
abbrev fTBS_CMD_STEP : Fld := ⟨0, 0⟩
abbrev aTBS_LOCKCFG : Nat := 0x0100038
abbrev fTBS_LOCKCFG_HOLD_TO : Fld := ⟨23, 16⟩
abbrev fTBS_LOCKCFG_LOCK_THR : Fld := ⟨15, 0⟩
abbrev aTBS_CABLE : Nat := 0x010003C
abbrev fTBS_CABLE_CABLE : Fld := ⟨23, 0⟩
abbrev aTBS_PSLEW : Nat := 0x0100040
abbrev fTBS_PSLEW_E : Fld := ⟨4, 0⟩
abbrev aTBS_FSLEW : Nat := 0x0100044
abbrev fTBS_FSLEW_RATE : Fld := ⟨19, 0⟩
abbrev aTBS_FREQ : Nat := 0x0100048
abbrev aTBS_AGE : Nat := 0x010004C
abbrev aTBS_PHERR : Nat := 0x0100050
abbrev aTBS_PATH : Nat := 0x0100054
abbrev aTBS_HOP : Nat := 0x0100058
abbrev fTBS_HOP_HOP : Fld := ⟨15, 0⟩
abbrev aTBS_HOLD : Nat := 0x010005C
abbrev aTBS_LATE : Nat := 0x0100060
abbrev fTBS_LATE_STEP_DROP : Fld := ⟨2, 2⟩
abbrev fTBS_LATE_INTERNAL : Fld := ⟨1, 1⟩
abbrev fTBS_LATE_HOST : Fld := ⟨0, 0⟩
abbrev aTBS_LATE_CNT : Nat := 0x0100064
abbrev aTBS_LATE_SRC : Nat := 0x0100068
abbrev fTBS_LATE_SRC_KIND : Fld := ⟨19, 16⟩
abbrev fTBS_LATE_SRC_DST : Fld := ⟨14, 8⟩
abbrev fTBS_LATE_SRC_SRC : Fld := ⟨6, 0⟩
abbrev aTBS_LATE_DUE : Nat := 0x010006C
abbrev aTBS_LATE_ARR : Nat := 0x0100078
abbrev aTBS_DUEQ : Nat := 0x0100084
abbrev fTBS_DUEQ_PORT1 : Fld := ⟨29, 16⟩
abbrev fTBS_DUEQ_PORT0 : Fld := ⟨13, 0⟩
abbrev aTBS_COLD : Nat := 0x0100088
abbrev fTBS_COLD_COLD : Fld := ⟨23, 0⟩
abbrev aFLT_STAT : Nat := 0x0200010
abbrev fFLT_STAT_ERRN : Fld := ⟨3, 3⟩
abbrev fFLT_STAT_PBRST : Fld := ⟨2, 2⟩
abbrev fFLT_STAT_PTRAP : Fld := ⟨1, 1⟩
abbrev fFLT_STAT_PINT : Fld := ⟨0, 0⟩
abbrev aFLT_PEND : Nat := 0x0200014
abbrev fFLT_PEND_BVALID : Fld := ⟨23, 23⟩
abbrev fFLT_PEND_BSRC : Fld := ⟨22, 16⟩
abbrev fFLT_PEND_TVALID : Fld := ⟨15, 15⟩
abbrev fFLT_PEND_TSRC : Fld := ⟨14, 8⟩
abbrev fFLT_PEND_IVALID : Fld := ⟨7, 7⟩
abbrev fFLT_PEND_ISRC : Fld := ⟨6, 0⟩
abbrev aFLT_ACK : Nat := 0x0200018
abbrev fFLT_ACK_SRC : Fld := ⟨6, 0⟩
abbrev aFLT_LAT : Nat := 0x020001C
abbrev fFLT_LAT_ACKREF : Fld := ⟨0, 0⟩
abbrev aFLT_ACKREF : Nat := 0x0200020
abbrev fFLT_ACKREF_SRC : Fld := ⟨6, 0⟩
abbrev aFLT_TEST : Nat := 0x0200024
abbrev fFLT_TEST_FORCE : Fld := ⟨0, 0⟩
abbrev aFLT_RSTSRC : Nat := 0x0200028
abbrev fFLT_RSTSRC_VALID : Fld := ⟨7, 7⟩
abbrev fFLT_RSTSRC_SRC : Fld := ⟨6, 0⟩
abbrev aFLT_MERGED : Nat := 0x020002C
abbrev aFLT_STICKY (w : Nat) : Nat := 0x0200040 + w % 4 * 0x4
abbrev aFLT_CAUSE (w : Nat) : Nat := 0x0200050 + w % 4 * 0x4
abbrev aFLT_REACT (w : Nat) : Nat := 0x0200060 + w % 16 * 0x4
abbrev aBUS_LAT : Nat := 0x0300010
abbrev fBUS_LAT_SLACK : Fld := ⟨1, 1⟩
abbrev fBUS_LAT_MALF : Fld := ⟨0, 0⟩
abbrev aBUS_MALF : Nat := 0x0300014
abbrev fBUS_MALF_DST : Fld := ⟨22, 16⟩
abbrev fBUS_MALF_SRC : Fld := ⟨14, 8⟩
abbrev fBUS_MALF_CAUSE : Fld := ⟨3, 0⟩
abbrev aBUS_MALFCNT : Nat := 0x0300018
abbrev aBUS_SLKTHR : Nat := 0x030001C
abbrev fBUS_SLKTHR_THR : Fld := ⟨15, 0⟩
abbrev aBUS_LATMAX (i : Nat) : Nat := 0x0300100 + i % 80 * 0x4
abbrev fBUS_LATMAX_LAT : Fld := ⟨15, 0⟩
abbrev aBUS_SLACK (i : Nat) : Nat := 0x0300200 + i % 80 * 0x4
abbrev aSCH_STAT : Nat := 0x0400010
abbrev fSCH_STAT_LIVE : Fld := ⟨28, 20⟩
abbrev fSCH_STAT_READY : Fld := ⟨16, 0⟩
abbrev aSCH_LAT : Nat := 0x0400014
abbrev fSCH_LAT_AGED : Fld := ⟨3, 3⟩
abbrev fSCH_LAT_TMR_FULL : Fld := ⟨2, 2⟩
abbrev fSCH_LAT_START_REJ : Fld := ⟨1, 1⟩
abbrev fSCH_LAT_MSG_REJ : Fld := ⟨0, 0⟩
abbrev aSCH_MREJ : Nat := 0x0400018
abbrev fSCH_MREJ_REASON : Fld := ⟨31, 28⟩
abbrev fSCH_MREJ_OP : Fld := ⟨23, 16⟩
abbrev fSCH_MREJ_TASK : Fld := ⟨15, 0⟩
abbrev aSCH_RCCNT : Nat := 0x040001C
abbrev aSCH_AGECNT : Nat := 0x0400020
abbrev aSCH_WIN : Nat := 0x0400024
abbrev fSCH_WIN_EXP : Fld := ⟨4, 0⟩
abbrev aSCH_POOL : Nat := 0x0400028
abbrev fSCH_POOL_FREE : Fld := ⟨18, 0⟩
abbrev aSCH_GUARDS : Nat := 0x040002C
abbrev fSCH_GUARDS_ARMED : Fld := ⟨12, 0⟩
abbrev aSCH_BAND : Nat := 0x0400030
abbrev fSCH_BAND_UPRIO : Fld := ⟨18, 16⟩
abbrev fSCH_BAND_MODE : Fld := ⟨7, 0⟩
abbrev aSCH_GRP0 (g : Nat) : Nat := 0x0400040 + g % 16 * 0x8
abbrev fSCH_GRP0_LEAD : Fld := ⟨31, 16⟩
abbrev fSCH_GRP0_ALLOW : Fld := ⟨15, 0⟩
abbrev aSCH_GRP1 (g : Nat) : Nat := 0x0400044 + g % 16 * 0x8
abbrev fSCH_GRP1_DISC : Fld := ⟨31, 30⟩
abbrev fSCH_GRP1_TICK : Fld := ⟨29, 16⟩
abbrev fSCH_GRP1_AGE : Fld := ⟨15, 0⟩
abbrev aSCH_ASET (a : Nat) : Nat := 0x04000C0 + a % 16 * 0x4
abbrev fSCH_ASET_MASK : Fld := ⟨15, 0⟩
abbrev aSCH_TSEL (p : Nat) : Nat := 0x0400100 + p % 2 * 0x4
abbrev fSCH_TSEL_TASK : Fld := ⟨15, 0⟩
abbrev aSCH_TV_STATE : Nat := 0x0400108
abbrev fSCH_TV_STATE_STATE : Fld := ⟨31, 28⟩
abbrev fSCH_TV_STATE_PRIO : Fld := ⟨27, 22⟩
abbrev fSCH_TV_STATE_AGED : Fld := ⟨21, 21⟩
abbrev fSCH_TV_STATE_ALL : Fld := ⟨20, 20⟩
abbrev fSCH_TV_STATE_GROUP : Fld := ⟨19, 16⟩
abbrev fSCH_TV_STATE_ASET : Fld := ⟨15, 12⟩
abbrev fSCH_TV_STATE_STEP : Fld := ⟨9, 0⟩
abbrev aSCH_TV_F : Nat := 0x040010C
abbrev aSCH_TV_W : Nat := 0x0400114
abbrev aSCH_TV_WAIT : Nat := 0x040011C
abbrev aSCH_QCFG (q : Nat) : Nat := 0x0402000 + q % 1024 * 0x8
abbrev fSCH_QCFG_PROD : Fld := ⟨31, 30⟩
abbrev fSCH_QCFG_DEF : Fld := ⟨29, 29⟩
abbrev fSCH_QCFG_LIMIT : Fld := ⟨18, 0⟩
abbrev aSCH_QFILL (q : Nat) : Nat := 0x0402004 + q % 1024 * 0x8
abbrev fSCH_QFILL_FILL : Fld := ⟨18, 0⟩
abbrev aSCH_QPUSH (q : Nat) : Nat := 0x0404000 + q % 1024 * 0x10
abbrev aSTE_CTX : Nat := 0x0500010
abbrev fSTE_CTX_SAVED : Fld := ⟨6, 0⟩
abbrev aSTE_STAT (e : Nat) : Nat := 0x0500100 + e % 16 * 0x20
abbrev fSTE_STAT_PHASE : Fld := ⟨31, 28⟩
abbrev fSTE_STAT_SIGNALLED : Fld := ⟨27, 27⟩
abbrev fSTE_STAT_TASK : Fld := ⟨15, 0⟩
abbrev aSTE_DEPTH (e : Nat) : Nat := 0x0500104 + e % 16 * 0x20
abbrev fSTE_DEPTH_DEPTH : Fld := ⟨16, 0⟩
abbrev aSTE_WMAX (e : Nat) : Nat := 0x0500108 + e % 16 * 0x20
abbrev aSTE_WMEAN (e : Nat) : Nat := 0x050010C + e % 16 * 0x20
abbrev aSTE_BUSY (e : Nat) : Nat := 0x0500110 + e % 16 * 0x20
abbrev fSTE_BUSY_BUSY : Fld := ⟨15, 0⟩
abbrev aSTE_DISP (e : Nat) : Nat := 0x0500114 + e % 16 * 0x20
abbrev aSTE_DISPL (e : Nat) : Nat := 0x0500118 + e % 16 * 0x20
abbrev aSTE_LATE (e : Nat) : Nat := 0x050011C + e % 16 * 0x20
abbrev aLPE_SRC : Nat := 0x0600010
abbrev fLPE_SRC_SRC : Fld := ⟨0, 0⟩
abbrev aLPE_LAT : Nat := 0x0600014
abbrev fLPE_LAT_BGABORT : Fld := ⟨4, 4⟩
abbrev fLPE_LAT_TRAP : Fld := ⟨3, 3⟩
abbrev fLPE_LAT_NOMEAS : Fld := ⟨2, 2⟩
abbrev fLPE_LAT_MISMATCH : Fld := ⟨1, 1⟩
abbrev fLPE_LAT_SELREJ : Fld := ⟨0, 0⟩
abbrev aLPE_FLIP : Nat := 0x0600018
abbrev fLPE_FLIP_FLIP : Fld := ⟨8, 8⟩
abbrev fLPE_FLIP_BLOCK : Fld := ⟨7, 0⟩
abbrev aLPE_GEN (e : Nat) : Nat := 0x0600020 + e % 8 * 0x4
abbrev aLPE_CLAIM (e : Nat) : Nat := 0x0600040 + e % 8 * 0x4
abbrev aLPE_CS_ROMID : Nat := 0x0600060
abbrev aLPE_CS_STAT : Nat := 0x0600064
abbrev fLPE_CS_STAT_LOCKED : Fld := ⟨31, 31⟩
abbrev fLPE_CS_STAT_REJ_SCOPE : Fld := ⟨27, 27⟩
abbrev fLPE_CS_STAT_REJ_SEQ : Fld := ⟨23, 16⟩
abbrev fLPE_CS_STAT_REJ_CAUSE : Fld := ⟨15, 12⟩
abbrev fLPE_CS_STAT_CUST : Fld := ⟨7, 4⟩
abbrev fLPE_CS_STAT_VEND : Fld := ⟨3, 0⟩
abbrev aLPE_CS_DIG : Nat := 0x0600080
abbrev aLPE_CS_ECC : Nat := 0x06000B0
abbrev aENG_STAT (e : Nat) : Nat := 0x0600100 + e % 8 * 0x40
abbrev fENG_STAT_LEAD : Fld := ⟨31, 16⟩
abbrev fENG_STAT_MODE : Fld := ⟨15, 15⟩
abbrev fENG_STAT_STREAMS : Fld := ⟨14, 8⟩
abbrev fENG_STAT_BGQ : Fld := ⟨7, 4⟩
abbrev fENG_STAT_BG : Fld := ⟨1, 1⟩
abbrev fENG_STAT_FG : Fld := ⟨0, 0⟩
abbrev aENG_LOAD (e : Nat) : Nat := 0x0600104 + e % 8 * 0x40
abbrev fENG_LOAD_LOAD : Fld := ⟨15, 0⟩
abbrev aENG_MAXD (e : Nat) : Nat := 0x0600108 + e % 8 * 0x40
abbrev aENG_BGREQ (e : Nat) : Nat := 0x060010C + e % 8 * 0x40
abbrev fENG_BGREQ_START : Fld := ⟨31, 31⟩
abbrev fENG_BGREQ_ABORT : Fld := ⟨30, 30⟩
abbrev fENG_BGREQ_BLOCK : Fld := ⟨12, 8⟩
abbrev fENG_BGREQ_ID : Fld := ⟨7, 0⟩
abbrev aENG_BGSTAT (e : Nat) : Nat := 0x0600110 + e % 8 * 0x40
abbrev fENG_BGSTAT_COMMITS : Fld := ⟨31, 16⟩
abbrev fENG_BGSTAT_BLOCK : Fld := ⟨12, 8⟩
abbrev fENG_BGSTAT_ID : Fld := ⟨7, 0⟩
abbrev aENG_BGPC (e : Nat) : Nat := 0x0600114 + e % 8 * 0x40
abbrev fENG_BGPC_CUT : Fld := ⟨20, 20⟩
abbrev fENG_BGPC_DEPTH : Fld := ⟨19, 16⟩
abbrev fENG_BGPC_PC : Fld := ⟨13, 0⟩
abbrev aENG_CUTS (e : Nat) : Nat := 0x0600118 + e % 8 * 0x40
abbrev aENG_TRAP (e : Nat) : Nat := 0x060011C + e % 8 * 0x40
abbrev fENG_TRAP_ID : Fld := ⟨31, 24⟩
abbrev fENG_TRAP_BG : Fld := ⟨23, 23⟩
abbrev fENG_TRAP_STREAM : Fld := ⟨22, 18⟩
abbrev fENG_TRAP_UPC : Fld := ⟨17, 4⟩
abbrev fENG_TRAP_CAUSE : Fld := ⟨3, 0⟩
abbrev aENG_RESTART (e : Nat) : Nat := 0x0600120 + e % 8 * 0x40
abbrev fENG_RESTART_TRAPPED : Fld := ⟨1, 1⟩
abbrev fENG_RESTART_RESTART : Fld := ⟨0, 0⟩
abbrev aLCH_CTL (c : Nat) : Nat := 0x0604000 + c % 256 * 0x40
abbrev fLCH_CTL_EN : Fld := ⟨0, 0⟩
abbrev aLCH_CFG (c : Nat) : Nat := 0x0604004 + c % 256 * 0x40
abbrev fLCH_CFG_UPD_DIV : Fld := ⟨4, 0⟩
abbrev aLCH_LAW (c : Nat) : Nat := 0x0604008 + c % 256 * 0x40
abbrev fLCH_LAW_GEN : Fld := ⟨16, 16⟩
abbrev fLCH_LAW_BLOCK : Fld := ⟨12, 8⟩
abbrev fLCH_LAW_LAW : Fld := ⟨7, 0⟩
abbrev aLCH_RVB (c : Nat) : Nat := 0x060400C + c % 256 * 0x40
abbrev aLCH_DTC (c : Nat) : Nat := 0x0604010 + c % 256 * 0x40
abbrev aLCH_STAT (c : Nat) : Nat := 0x0604014 + c % 256 * 0x40
abbrev fLCH_STAT_MEMBER : Fld := ⟨4, 4⟩
abbrev fLCH_STAT_CV : Fld := ⟨3, 3⟩
abbrev fLCH_STAT_BLEND : Fld := ⟨2, 2⟩
abbrev fLCH_STAT_GOFF : Fld := ⟨1, 1⟩
abbrev fLCH_STAT_NOMEAS : Fld := ⟨0, 0⟩
abbrev aLCH_UPD (c : Nat) : Nat := 0x0604018 + c % 256 * 0x40
abbrev aLCH_NOM (c : Nat) : Nat := 0x060401C + c % 256 * 0x40
abbrev aLCH_XV (c : Nat) : Nat := 0x0604020 + c % 256 * 0x40
abbrev aLCH_XI (c : Nat) : Nat := 0x0604028 + c % 256 * 0x40
abbrev aLCH_DV (c : Nat) : Nat := 0x0604030 + c % 256 * 0x40
abbrev aLCH_DI (c : Nat) : Nat := 0x0604034 + c % 256 * 0x40
abbrev aLCH_H (c : Nat) : Nat := 0x0604038 + c % 256 * 0x40
abbrev fLCH_H_H : Fld := ⟨27, 0⟩
abbrev aSEG_CFG : Nat := 0x0700010
abbrev fSEG_CFG_DIVM1 : Fld := ⟨15, 0⟩
abbrev aSEG_CMD : Nat := 0x0700014
abbrev fSEG_CMD_OP : Fld := ⟨31, 28⟩
abbrev fSEG_CMD_SEQ : Fld := ⟨11, 0⟩
abbrev aSEG_CSTAT : Nat := 0x0700018
abbrev fSEG_CSTAT_BUSY : Fld := ⟨31, 31⟩
abbrev fSEG_CSTAT_RESULT : Fld := ⟨29, 28⟩
abbrev fSEG_CSTAT_CAUSE : Fld := ⟨27, 24⟩
abbrev fSEG_CSTAT_SEQ : Fld := ⟨11, 0⟩
abbrev aSEG_LAT : Nat := 0x070001C
abbrev fSEG_LAT_SAT : Fld := ⟨2, 2⟩
abbrev fSEG_LAT_STARVED : Fld := ⟨1, 1⟩
abbrev fSEG_LAT_CMDREJ : Fld := ⟨0, 0⟩
abbrev aSEG_RUN : Nat := 0x0700020
abbrev fSEG_RUN_CAP : Fld := ⟨24, 16⟩
abbrev fSEG_RUN_RUN : Fld := ⟨8, 0⟩
abbrev aSEG_EPOCH : Nat := 0x0700024
abbrev aSEG_SEALED (w : Nat) : Nat := 0x0700100 + w % 128 * 0x4
abbrev aPL_CMD (c : Nat) : Nat := 0x0701000 + c % 256 * 0x40
abbrev fPL_CMD_OP : Fld := ⟨31, 28⟩
abbrev fPL_CMD_JMODE : Fld := ⟨24, 24⟩
abbrev fPL_CMD_SEQ : Fld := ⟨23, 12⟩
abbrev fPL_CMD_ENTRY : Fld := ⟨11, 0⟩
abbrev aPL_STAT (c : Nat) : Nat := 0x0701004 + c % 256 * 0x40
abbrev fPL_STAT_STATE : Fld := ⟨31, 29⟩
abbrev fPL_STAT_JPEND : Fld := ⟨28, 28⟩
abbrev fPL_STAT_SEQ : Fld := ⟨23, 12⟩
abbrev fPL_STAT_ENTRY : Fld := ⟨11, 0⟩
abbrev aPL_LOOP (c : Nat) : Nat := 0x0701008 + c % 256 * 0x40
abbrev aPL_SAMP (c : Nat) : Nat := 0x070100C + c % 256 * 0x40
abbrev aPL_SP (c : Nat) : Nat := 0x0701010 + c % 256 * 0x40
abbrev aPL_PH (c : Nat) : Nat := 0x0701014 + c % 256 * 0x40
abbrev aPL_STARVE (c : Nat) : Nat := 0x070101C + c % 256 * 0x40
abbrev aPL_LAT (c : Nat) : Nat := 0x0701020 + c % 256 * 0x40
abbrev fPL_LAT_SAT : Fld := ⟨2, 2⟩
abbrev fPL_LAT_REJ : Fld := ⟨1, 1⟩
abbrev fPL_LAT_STARVED : Fld := ⟨0, 0⟩
abbrev aPL_REJ (c : Nat) : Nat := 0x0701024 + c % 256 * 0x40
abbrev fPL_REJ_REASON : Fld := ⟨3, 0⟩
abbrev aACQ_CFG : Nat := 0x0A00010
abbrev fACQ_CFG_MWIN : Fld := ⟨31, 20⟩
abbrev fACQ_CFG_HWM : Fld := ⟨15, 8⟩
abbrev fACQ_CFG_LWM : Fld := ⟨7, 0⟩
abbrev aACQ_PER : Nat := 0x0A00014
abbrev fACQ_PER_SPW : Fld := ⟨31, 24⟩
abbrev fACQ_PER_DPER : Fld := ⟨23, 12⟩
abbrev fACQ_PER_SEALIV : Fld := ⟨11, 0⟩
abbrev aACQ_STAT : Nat := 0x0A00018
abbrev fACQ_STAT_MASTER : Fld := ⟨31, 31⟩
abbrev fACQ_STAT_L : Fld := ⟨20, 16⟩
abbrev fACQ_STAT_LB : Fld := ⟨15, 12⟩
abbrev fACQ_STAT_LC : Fld := ⟨11, 8⟩
abbrev fACQ_STAT_SPILL_B : Fld := ⟨2, 2⟩
abbrev fACQ_STAT_SPILL_A : Fld := ⟨1, 1⟩
abbrev fACQ_STAT_RUN : Fld := ⟨0, 0⟩
abbrev aACQ_LAT : Nat := 0x0A0001C
abbrev fACQ_LAT_DROP : Fld := ⟨4, 4⟩
abbrev fACQ_LAT_ALOST : Fld := ⟨3, 3⟩
abbrev fACQ_LAT_RATE : Fld := ⟨2, 2⟩
abbrev fACQ_LAT_MASK : Fld := ⟨1, 1⟩
abbrev fACQ_LAT_VLIM : Fld := ⟨0, 0⟩
abbrev aACQ_SEALNO : Nat := 0x0A00020
abbrev aTRG_CTL (t : Nat) : Nat := 0x0A00100 + t % 8 * 0x20
abbrev fTRG_CTL_ARM : Fld := ⟨31, 31⟩
abbrev fTRG_CTL_DISARM : Fld := ⟨30, 30⟩
abbrev fTRG_CTL_FIRE : Fld := ⟨29, 29⟩
abbrev fTRG_CTL_AUTO : Fld := ⟨0, 0⟩
abbrev aTRG_TO (t : Nat) : Nat := 0x0A00104 + t % 8 * 0x20
abbrev fTRG_TO_TO : Fld := ⟨31, 0⟩
abbrev aTRG_STAT (t : Nat) : Nat := 0x0A00108 + t % 8 * 0x20
abbrev fTRG_STAT_STATE : Fld := ⟨31, 29⟩
abbrev fTRG_STAT_MODULE : Fld := ⟨25, 16⟩
abbrev fTRG_STAT_CHANNEL : Fld := ⟨7, 0⟩
abbrev aTRG_TIME (t : Nat) : Nat := 0x0A0010C + t % 8 * 0x20
abbrev aBSN_SIZE (k : Nat) : Nat := 0x0A00200 + k % 4 * 0x20
abbrev aBSN_FILL (k : Nat) : Nat := 0x0A00204 + k % 4 * 0x20
abbrev aBSN_WR (k : Nat) : Nat := 0x0A00208 + k % 4 * 0x20
abbrev aBSN_ACK (k : Nat) : Nat := 0x0A00210 + k % 4 * 0x20
abbrev aBSN_MAXF (k : Nat) : Nat := 0x0A00218 + k % 4 * 0x20
abbrev aBSN_DROP (k : Nat) : Nat := 0x0A0021C + k % 4 * 0x20
abbrev aSPL_USED : Nat := 0x0A00300
abbrev fSPL_USED_BLOCKS : Fld := ⟨25, 0⟩
abbrev aSPL_WR : Nat := 0x0A00304
abbrev aSPL_RD : Nat := 0x0A0030C
abbrev aCAP (n : Nat) : Nat := 0x0A00400 + n % 32 * 0x4
abbrev fCAP_EN : Fld := ⟨31, 31⟩
abbrev fCAP_ISLAND : Fld := ⟨13, 8⟩
abbrev fCAP_PIN : Fld := ⟨4, 0⟩
abbrev aACH_SEL (c : Nat) : Nat := 0x0A01000 + c % 256 * 0x20
abbrev fACH_SEL_LMSET : Fld := ⟨15, 8⟩
abbrev fACH_SEL_PROF : Fld := ⟨7, 0⟩
abbrev aACH_FIRE (c : Nat) : Nat := 0x0A01004 + c % 256 * 0x20
abbrev fACH_FIRE_EN : Fld := ⟨31, 31⟩
abbrev fACH_FIRE_TRG : Fld := ⟨24, 22⟩
abbrev fACH_FIRE_MASK : Fld := ⟨21, 0⟩
abbrev aACH_STAT (c : Nat) : Nat := 0x0A01008 + c % 256 * 0x20
abbrev fACH_STAT_DRVOFF : Fld := ⟨1, 1⟩
abbrev fACH_STAT_STOPPED : Fld := ⟨0, 0⟩
abbrev aACH_MVIOL (c : Nat) : Nat := 0x0A0100C + c % 256 * 0x20
abbrev aEXC_WR : Nat := 0x0B00010
abbrev aEXC_OLD : Nat := 0x0B00018
abbrev aEXC_OVFSZ : Nat := 0x0B00020
abbrev aEXC_LAT : Nat := 0x0B00024
abbrev fEXC_LAT_OVWR : Fld := ⟨0, 0⟩
abbrev aEXC_LOST : Nat := 0x0B00028
abbrev aHBM_CFG : Nat := 0x0C00010
abbrev fHBM_CFG_AGEMAX : Fld := ⟨23, 16⟩
abbrev fHBM_CFG_IDLE : Fld := ⟨15, 0⟩
abbrev aHBM_RATE : Nat := 0x0C00014
abbrev fHBM_RATE_NOW : Fld := ⟨9, 8⟩
abbrev fHBM_RATE_REQ : Fld := ⟨1, 0⟩
abbrev aHBM_CMD : Nat := 0x0C00018
abbrev fHBM_CMD_RETRAIN : Fld := ⟨0, 0⟩
abbrev aHBM_STAT : Nat := 0x0C0001C
abbrev fHBM_STAT_INFLT : Fld := ⟨26, 16⟩
abbrev fHBM_STAT_TEMP : Fld := ⟨15, 8⟩
abbrev fHBM_STAT_DEFPEND : Fld := ⟨3, 3⟩
abbrev fHBM_STAT_HOT : Fld := ⟨2, 2⟩
abbrev fHBM_STAT_TRAINING : Fld := ⟨1, 1⟩
abbrev fHBM_STAT_TRAINED : Fld := ⟨0, 0⟩
abbrev aHBM_LAT : Nat := 0x0C00020
abbrev fHBM_LAT_TRFAIL : Fld := ⟨6, 6⟩
abbrev fHBM_LAT_DEFER : Fld := ⟨5, 5⟩
abbrev fHBM_LAT_SPLIT : Fld := ⟨4, 4⟩
abbrev fHBM_LAT_PUE : Fld := ⟨3, 3⟩
abbrev fHBM_LAT_PCE : Fld := ⟨2, 2⟩
abbrev fHBM_LAT_UE : Fld := ⟨1, 1⟩
abbrev fHBM_LAT_CE : Fld := ⟨0, 0⟩
abbrev aHBM_CECNT : Nat := 0x0C00024
abbrev aHBM_UECNT : Nat := 0x0C00028
abbrev aHBM_SPLITS : Nat := 0x0C0002C
abbrev aHBM_SCRUB : Nat := 0x0C00030
abbrev fHBM_SCRUB_SCRUB : Fld := ⟨15, 0⟩
abbrev aHBM_ELOG_SEL : Nat := 0x0C00040
abbrev fHBM_ELOG_SEL_SEL : Fld := ⟨5, 0⟩
abbrev aHBM_ELOG_0 : Nat := 0x0C00044
abbrev aHBM_ELOG_1 : Nat := 0x0C00048
abbrev aHBM_ELOG_T : Nat := 0x0C0004C
abbrev aHBM_RGN_BASE (r : Nat) : Nat := 0x0C00100 + r % 16 * 0x10
abbrev fHBM_RGN_BASE_BASE : Fld := ⟨14, 0⟩
abbrev aHBM_RGN_SIZE (r : Nat) : Nat := 0x0C00104 + r % 16 * 0x10
abbrev fHBM_RGN_SIZE_SIZE : Fld := ⟨14, 0⟩
abbrev aHBM_RGN_KIND (r : Nat) : Nat := 0x0C00108 + r % 16 * 0x10
abbrev fHBM_RGN_KIND_HINT : Fld := ⟨17, 16⟩
abbrev fHBM_RGN_KIND_LOG2G : Fld := ⟨11, 8⟩
abbrev fHBM_RGN_KIND_KIND : Fld := ⟨3, 0⟩
abbrev aHBM_RGN_RSV (r : Nat) : Nat := 0x0C0010C + r % 16 * 0x10
abbrev aHBM_REQ_RES (q : Nat) : Nat := 0x0C00200 + q % 10 * 0x10
abbrev fHBM_REQ_RES_WT : Fld := ⟨15, 8⟩
abbrev fHBM_REQ_RES_RES : Fld := ⟨7, 0⟩
abbrev aHBM_REQ_BURST (q : Nat) : Nat := 0x0C00204 + q % 10 * 0x10
abbrev fHBM_REQ_BURST_BURST : Fld := ⟨15, 0⟩
abbrev aHBM_REQ_BW (q : Nat) : Nat := 0x0C00208 + q % 10 * 0x10
abbrev aHBM_REQ_LMAX (q : Nat) : Nat := 0x0C0020C + q % 10 * 0x10
abbrev aHBM_PC_DEPTH (k : Nat) : Nat := 0x0C00400 + k % 16 * 0x10
abbrev fHBM_PC_DEPTH_POSTP : Fld := ⟨11, 8⟩
abbrev fHBM_PC_DEPTH_DEPTH : Fld := ⟨6, 0⟩
abbrev aHBM_PC_INORD (k : Nat) : Nat := 0x0C00404 + k % 16 * 0x10
abbrev aHBM_PC_HITS (k : Nat) : Nat := 0x0C00408 + k % 16 * 0x10
abbrev aLNK_STAT : Nat := 0x0D00010
abbrev fLNK_STAT_RING_OUT : Fld := ⟨4, 4⟩
abbrev fLNK_STAT_RING_IN : Fld := ⟨3, 3⟩
abbrev fLNK_STAT_COL_UP : Fld := ⟨2, 2⟩
abbrev fLNK_STAT_P1_UP : Fld := ⟨1, 1⟩
abbrev fLNK_STAT_P0_UP : Fld := ⟨0, 0⟩
abbrev aLNK_LAT : Nat := 0x0D00014
abbrev fLNK_LAT_DEGRADED : Fld := ⟨6, 6⟩
abbrev fLNK_LAT_COLERR : Fld := ⟨5, 5⟩
abbrev fLNK_LAT_RINGERR : Fld := ⟨4, 4⟩
abbrev fLNK_LAT_SESFAIL : Fld := ⟨3, 3⟩
abbrev fLNK_LAT_PROTO : Fld := ⟨2, 2⟩
abbrev fLNK_LAT_DOWN1 : Fld := ⟨1, 1⟩
abbrev fLNK_LAT_DOWN0 : Fld := ⟨0, 0⟩
abbrev aLNK_STRM : Nat := 0x0D00018
abbrev fLNK_STRM_D : Fld := ⟨7, 6⟩
abbrev fLNK_STRM_C : Fld := ⟨5, 4⟩
abbrev fLNK_STRM_B : Fld := ⟨3, 2⟩
abbrev fLNK_STRM_A : Fld := ⟨1, 0⟩
abbrev aLP_CTL (p : Nat) : Nat := 0x0D00100 + p % 2 * 0x40
abbrev fLP_CTL_RETRAIN : Fld := ⟨2, 2⟩
abbrev fLP_CTL_EVT : Fld := ⟨1, 1⟩
abbrev fLP_CTL_EN : Fld := ⟨0, 0⟩
abbrev aLP_CFG (p : Nat) : Nat := 0x0D00104 + p % 2 * 0x40
abbrev fLP_CFG_REPLAY_TO : Fld := ⟨31, 16⟩
abbrev fLP_CFG_MAXW : Fld := ⟨3, 2⟩
abbrev fLP_CFG_MAXRATE : Fld := ⟨1, 0⟩
abbrev aLP_PWR (p : Nat) : Nat := 0x0D00108 + p % 2 * 0x40
abbrev fLP_PWR_LD_IDLE : Fld := ⟨31, 16⟩
abbrev fLP_PWR_LS_IDLE : Fld := ⟨15, 0⟩
abbrev aLP_STAT (p : Nat) : Nat := 0x0D0010C + p % 2 * 0x40
abbrev fLP_STAT_LTSSM : Fld := ⟨31, 28⟩
abbrev fLP_STAT_WIDTH : Fld := ⟨27, 26⟩
abbrev fLP_STAT_RATE : Fld := ⟨25, 24⟩
abbrev fLP_STAT_TXPWR : Fld := ⟨23, 22⟩
abbrev fLP_STAT_RXPWR : Fld := ⟨21, 20⟩
abbrev fLP_STAT_SESSION : Fld := ⟨19, 19⟩
abbrev fLP_STAT_INTONLY : Fld := ⟨18, 18⟩
abbrev fLP_STAT_ROLE : Fld := ⟨17, 16⟩
abbrev fLP_STAT_UNACK : Fld := ⟨10, 0⟩
abbrev aLP_CRD (p : Nat) : Nat := 0x0D00110 + p % 2 * 0x40
abbrev aLP_REPLAY (p : Nat) : Nat := 0x0D00114 + p % 2 * 0x40
abbrev aLP_CRCERR (p : Nat) : Nat := 0x0D00118 + p % 2 * 0x40
abbrev aLP_PROTO (p : Nat) : Nat := 0x0D0011C + p % 2 * 0x40
abbrev aLP_RETRAIN (p : Nat) : Nat := 0x0D00120 + p % 2 * 0x40
abbrev aLP_SESFAIL (p : Nat) : Nat := 0x0D00124 + p % 2 * 0x40
abbrev aLC_STAT : Nat := 0x0D00200
abbrev fLC_STAT_LTSSM : Fld := ⟨31, 28⟩
abbrev fLC_STAT_TXPWR : Fld := ⟨23, 22⟩
abbrev fLC_STAT_SHARE : Fld := ⟨15, 0⟩
abbrev aLC_CORR : Nat := 0x0D00204
abbrev aLC_LOST : Nat := 0x0D00208
abbrev aLC_REPLAY : Nat := 0x0D0020C
abbrev aLR_CFG : Nat := 0x0D00240
abbrev fLR_CFG_LS_EN : Fld := ⟨0, 0⟩
abbrev aLR_STAT : Nat := 0x0D00244
abbrev fLR_STAT_LTSSM : Fld := ⟨31, 28⟩
abbrev fLR_STAT_POS : Fld := ⟨15, 0⟩
abbrev aLR_PASS : Nat := 0x0D00248
abbrev aLR_RLAT : Nat := 0x0D0024C
abbrev aLR_CRCERR : Nat := 0x0D00250
abbrev aTWN_CFG : Nat := 0x0E00010
abbrev fTWN_CFG_TICK : Fld := ⟨31, 16⟩
abbrev fTWN_CFG_VERN : Fld := ⟨15, 8⟩
abbrev fTWN_CFG_AUTOJOIN : Fld := ⟨7, 7⟩
abbrev fTWN_CFG_PCOL : Fld := ⟨6, 6⟩
abbrev fTWN_CFG_DIVPOL : Fld := ⟨5, 5⟩
abbrev fTWN_CFG_PREFER : Fld := ⟨4, 4⟩
abbrev fTWN_CFG_SIDE : Fld := ⟨0, 0⟩
abbrev aTWN_STAT : Nat := 0x0E00014
abbrev fTWN_STAT_STATE : Fld := ⟨31, 28⟩
abbrev fTWN_STAT_PEER : Fld := ⟨27, 24⟩
abbrev fTWN_STAT_LINK : Fld := ⟨3, 3⟩
abbrev fTWN_STAT_PRES : Fld := ⟨2, 2⟩
abbrev fTWN_STAT_PEER_OWN : Fld := ⟨1, 1⟩
abbrev fTWN_STAT_OWN : Fld := ⟨0, 0⟩
abbrev aTWN_CMD : Nat := 0x0E00018
abbrev fTWN_CMD_JOIN : Fld := ⟨2, 2⟩
abbrev fTWN_CMD_LEAVE : Fld := ⟨1, 1⟩
abbrev fTWN_CMD_COL : Fld := ⟨0, 0⟩
abbrev aTWN_LAT : Nat := 0x0E0001C
abbrev fTWN_LAT_JOINFAIL : Fld := ⟨5, 5⟩
abbrev fTWN_LAT_OWNCONF : Fld := ⟨4, 4⟩
abbrev fTWN_LAT_PLAUS : Fld := ⟨3, 3⟩
abbrev fTWN_LAT_PEERLOST : Fld := ⟨2, 2⟩
abbrev fTWN_LAT_COLDONE : Fld := ⟨1, 1⟩
abbrev fTWN_LAT_DIVERGE : Fld := ⟨0, 0⟩
abbrev aTWN_COL : Nat := 0x0E00020
abbrev fTWN_COL_CAUSE : Fld := ⟨31, 28⟩
abbrev fTWN_COL_PBLAME : Fld := ⟨25, 25⟩
abbrev fTWN_COL_LBLAME : Fld := ⟨24, 24⟩
abbrev fTWN_COL_FROM : Fld := ⟨3, 0⟩
abbrev aTWN_COLT : Nat := 0x0E00024
abbrev aTWN_DIVTICK : Nat := 0x0E00030
abbrev aTWN_TICKS : Nat := 0x0E00038
abbrev aTWN_JOIN : Nat := 0x0E00040
abbrev fTWN_JOIN_PHASE : Fld := ⟨31, 28⟩
abbrev fTWN_JOIN_PROGRESS : Fld := ⟨15, 8⟩
abbrev fTWN_JOIN_EQUAL : Fld := ⟨7, 0⟩
abbrev aTWN_PTOLV : Nat := 0x0E00044
abbrev aTWN_PTOLI : Nat := 0x0E00048
abbrev aTWN_PN : Nat := 0x0E0004C
abbrev aTWN_FWLEAD : Nat := 0x0E00050
abbrev aTWN_COLMASK (w : Nat) : Nat := 0x0E00060 + w % 4 * 0x4
abbrev aTWN_BLMASK (w : Nat) : Nat := 0x0E00070 + w % 4 * 0x4
abbrev aTWN_PLAUS (w : Nat) : Nat := 0x0E00100 + w % 16 * 0x4
abbrev aTWN_PCNT : Nat := 0x0E00140
abbrev aTWN_SHIPR : Nat := 0x0E00144
abbrev aCAL_CFG : Nat := 0x0F00010
abbrev fCAL_CFG_TSW : Fld := ⟨31, 20⟩
abbrev fCAL_CFG_MLOG : Fld := ⟨19, 16⟩
abbrev fCAL_CFG_DWELL : Fld := ⟨15, 0⟩
abbrev aCAL_SLEW : Nat := 0x0F00014
abbrev fCAL_SLEW_RATE : Fld := ⟨23, 0⟩
abbrev aCAL_FSV : Nat := 0x0F00018
abbrev fCAL_FSV_FS : Fld := ⟨31, 0⟩
abbrev aCAL_FSI : Nat := 0x0F0001C
abbrev fCAL_FSI_FS : Fld := ⟨31, 0⟩
abbrev aCAL_REFCFG : Nat := 0x0F00020
abbrev fCAL_REFCFG_REFCHK : Fld := ⟨31, 16⟩
abbrev fCAL_REFCFG_REFTOL : Fld := ⟨15, 0⟩
abbrev aCAL_REFSTAT : Nat := 0x0F00024
abbrev fCAL_REFSTAT_REFOK : Fld := ⟨31, 31⟩
abbrev fCAL_REFSTAT_OPEN : Fld := ⟨30, 30⟩
abbrev fCAL_REFSTAT_SHORT : Fld := ⟨29, 29⟩
abbrev fCAL_REFSTAT_DEV : Fld := ⟨23, 0⟩
abbrev aCAL_RESMAX : Nat := 0x0F00028
abbrev fCAL_RESMAX_RESMAX : Fld := ⟨15, 0⟩
abbrev aCAL_CMD : Nat := 0x0F0002C
abbrev fCAL_CMD_COMMIT : Fld := ⟨31, 31⟩
abbrev fCAL_CMD_SEQR : Fld := ⟨1, 0⟩
abbrev aCAL_LAT : Nat := 0x0F00030
abbrev fCAL_LAT_RECFAIL : Fld := ⟨3, 3⟩
abbrev fCAL_LAT_REFBAD : Fld := ⟨2, 2⟩
abbrev fCAL_LAT_FITFAIL : Fld := ⟨1, 1⟩
abbrev fCAL_LAT_PREJ : Fld := ⟨0, 0⟩
abbrev aCAL_REC : Nat := 0x0F00034
abbrev fCAL_REC_SRC : Fld := ⟨31, 30⟩
abbrev fCAL_REC_UNREC : Fld := ⟨29, 29⟩
abbrev fCAL_REC_SEQ : Fld := ⟨15, 0⟩
abbrev aCALQ_CMD (q : Nat) : Nat := 0x0F00100 + q % 4 * 0x40
abbrev fCALQ_CMD_START : Fld := ⟨31, 31⟩
abbrev fCALQ_CMD_ABORT : Fld := ⟨30, 30⟩
abbrev fCALQ_CMD_PATH : Fld := ⟨25, 24⟩
abbrev fCALQ_CMD_NPM1 : Fld := ⟨21, 20⟩
abbrev fCALQ_CMD_ISLAND : Fld := ⟨13, 8⟩
abbrev fCALQ_CMD_CH : Fld := ⟨1, 0⟩
abbrev aCALQ_STAT (q : Nat) : Nat := 0x0F00104 + q % 4 * 0x40
abbrev fCALQ_STAT_PHASE : Fld := ⟨31, 28⟩
abbrev fCALQ_STAT_CAUSE : Fld := ⟨27, 24⟩
abbrev fCALQ_STAT_POINT : Fld := ⟨21, 20⟩
abbrev fCALQ_STAT_ISLAND : Fld := ⟨13, 8⟩
abbrev fCALQ_STAT_CH : Fld := ⟨1, 0⟩
abbrev aCALQ_LVL (q k : Nat) : Nat := 0x0F00108 + q % 4 * 0x40 + k % 4 * 0x4
abbrev aCALQ_RSH (q : Nat) : Nat := 0x0F00118 + q % 4 * 0x40
abbrev aCALQ_F0 (q : Nat) : Nat := 0x0F0011C + q % 4 * 0x40
abbrev aCALQ_C0 (q : Nat) : Nat := 0x0F00124 + q % 4 * 0x40
abbrev aCALQ_C1 (q : Nat) : Nat := 0x0F0012C + q % 4 * 0x40
abbrev aCALQ_C2 (q : Nat) : Nat := 0x0F00134 + q % 4 * 0x40
abbrev aCALQ_RESID (q : Nat) : Nat := 0x0F0013C + q % 4 * 0x40
abbrev aMGT_STAT : Nat := 0x1000010
abbrev fMGT_STAT_LOAD : Fld := ⟨31, 24⟩
abbrev fMGT_STAT_SHED : Fld := ⟨23, 22⟩
abbrev fMGT_STAT_BUSY1 : Fld := ⟨20, 16⟩
abbrev fMGT_STAT_BUSY0 : Fld := ⟨12, 8⟩
abbrev fMGT_STAT_READY : Fld := ⟨0, 0⟩
abbrev aMGT_LAT : Nat := 0x1000014
abbrev fMGT_LAT_THERM : Fld := ⟨4, 4⟩
abbrev fMGT_LAT_ROLLBACK : Fld := ⟨3, 3⟩
abbrev fMGT_LAT_LOGERR : Fld := ⟨2, 2⟩
abbrev fMGT_LAT_SHED : Fld := ⟨1, 1⟩
abbrev fMGT_LAT_WDOG : Fld := ⟨0, 0⟩
abbrev aMGT_WARNLAT (w : Nat) : Nat := 0x1000018 + w % 2 * 0x4
abbrev aMGT_FW : Nat := 0x1000020
abbrev fMGT_FW_UPD : Fld := ⟨7, 4⟩
abbrev fMGT_FW_TRIES : Fld := ⟨3, 2⟩
abbrev fMGT_FW_TRIAL : Fld := ⟨1, 1⟩
abbrev fMGT_FW_ACTIVE : Fld := ⟨0, 0⟩
abbrev aMGT_FWVER (b : Nat) : Nat := 0x1000024 + b % 2 * 0x4
abbrev aMGT_CONFTO : Nat := 0x100002C
abbrev fMGT_CONFTO_CONFTO : Fld := ⟨15, 0⟩
abbrev aMGT_LOGNEXT : Nat := 0x1000030
abbrev aMGT_LOGOLD : Nat := 0x1000038
abbrev aMGT_WDOG : Nat := 0x1000040
abbrev aMGT_SENS (n : Nat) : Nat := 0x1000100 + n % 34 * 0x4
abbrev aMGT_RPWR (r : Nat) : Nat := 0x1000200 + r % 12 * 0x4
abbrev aMGT_WARN (n : Nat) : Nat := 0x1000300 + n % 34 * 0x4
abbrev fMGT_WARN_HI : Fld := ⟨31, 16⟩
abbrev fMGT_WARN_LO : Fld := ⟨15, 0⟩
abbrev aSTR_CMD : Nat := 0x1100010
abbrev fSTR_CMD_OP : Fld := ⟨31, 28⟩
abbrev fSTR_CMD_QMASK : Fld := ⟨19, 16⟩
abbrev fSTR_CMD_SRC : Fld := ⟨1, 0⟩
abbrev aSTR_ADDR : Nat := 0x1100014
abbrev aSTR_STAT : Nat := 0x110001C
abbrev fSTR_STAT_CAUSE : Fld := ⟨31, 28⟩
abbrev fSTR_STAT_SECTION : Fld := ⟨27, 24⟩
abbrev fSTR_STAT_QMASK : Fld := ⟨19, 16⟩
abbrev fSTR_STAT_REF : Fld := ⟨4, 4⟩
abbrev fSTR_STAT_CHECKED : Fld := ⟨3, 3⟩
abbrev fSTR_STAT_BUSY : Fld := ⟨2, 2⟩
abbrev fSTR_STAT_STATE : Fld := ⟨1, 0⟩
abbrev aSTR_LAT : Nat := 0x1100020
abbrev fSTR_LAT_STOREFAIL : Fld := ⟨2, 2⟩
abbrev fSTR_LAT_FALLBACK : Fld := ⟨1, 1⟩
abbrev fSTR_LAT_REJ : Fld := ⟨0, 0⟩
abbrev aSTR_FOFF : Nat := 0x1100024
abbrev aSTR_SERIAL : Nat := 0x110002C
abbrev aSTR_DIG : Nat := 0x1100040
abbrev aSTR_TDIG : Nat := 0x1100070
abbrev aSTR_LOADS : Nat := 0x11000A0
abbrev aSEC_STAT : Nat := 0x1200010
abbrev fSEC_STAT_ERASING : Fld := ⟨11, 11⟩
abbrev fSEC_STAT_TREEWAIT : Fld := ⟨10, 10⟩
abbrev fSEC_STAT_SUSP : Fld := ⟨9, 9⟩
abbrev fSEC_STAT_SLOT : Fld := ⟨8, 8⟩
abbrev fSEC_STAT_APPROVED : Fld := ⟨7, 7⟩
abbrev fSEC_STAT_LIMIT : Fld := ⟨6, 4⟩
abbrev fSEC_STAT_STATE : Fld := ⟨2, 0⟩
abbrev aSEC_LAT : Nat := 0x1200014
abbrev fSEC_LAT_PORTACC : Fld := ⟨4, 4⟩
abbrev fSEC_LAT_HSSLOW : Fld := ⟨3, 3⟩
abbrev fSEC_LAT_HSSSUSP : Fld := ⟨2, 2⟩
abbrev fSEC_LAT_BOOTFB : Fld := ⟨1, 1⟩
abbrev fSEC_LAT_STFAIL : Fld := ⟨0, 0⟩
abbrev aSEC_FWVER : Nat := 0x1200018
abbrev aSEC_FLOOR (f : Nat) : Nat := 0x1200020 + f % 4 * 0x4
abbrev aSEC_SLOTS : Nat := 0x1200030
abbrev fSEC_SLOTS_VREV : Fld := ⟨22, 16⟩
abbrev fSEC_SLOTS_CUST : Fld := ⟨15, 0⟩
abbrev aSEC_HSS : Nat := 0x1200034
abbrev aSEC_HSSE : Nat := 0x120003C
abbrev fSEC_HSSE_EREADY : Fld := ⟨17, 17⟩
abbrev fSEC_HSSE_NREADY : Fld := ⟨16, 16⟩
abbrev fSEC_HSSE_E : Fld := ⟨12, 0⟩
abbrev aSEC_SEALQ : Nat := 0x1200040
abbrev fSEC_SEALQ_COUNT : Fld := ⟨16, 0⟩
abbrev aSEC_SESS (p : Nat) : Nat := 0x1200044 + p % 2 * 0x4
abbrev fSEC_SESS_OPEN : Fld := ⟨31, 31⟩
abbrev fSEC_SESS_ROLE : Fld := ⟨29, 28⟩
abbrev fSEC_SESS_REFUSED : Fld := ⟨27, 27⟩
abbrev fSEC_SESS_FAILED : Fld := ⟨15, 0⟩
abbrev aISL_STAT (n : Nat) : Nat := 0x4000010 + n % 64 * 0x100000
abbrev fISL_STAT_VBANK : Fld := ⟨4, 4⟩
abbrev fISL_STAT_SAFE_ACTIVE : Fld := ⟨3, 3⟩
abbrev fISL_STAT_PAT_BUSY : Fld := ⟨2, 2⟩
abbrev fISL_STAT_INH_ANY : Fld := ⟨1, 1⟩
abbrev fISL_STAT_DLL_LOCK : Fld := ⟨0, 0⟩
abbrev aISL_LAT (n : Nat) : Nat := 0x4000014 + n % 64 * 0x100000
abbrev fISL_LAT_SAFE_SEEN : Fld := ⟨2, 2⟩
abbrev fISL_LAT_PAT_COLL : Fld := ⟨1, 1⟩
abbrev fISL_LAT_EDGE_REJ : Fld := ⟨0, 0⟩
abbrev aISL_EREJ (n : Nat) : Nat := 0x4000018 + n % 64 * 0x100000
abbrev fISL_EREJ_REASON : Fld := ⟨13, 12⟩
abbrev fISL_EREJ_SLOT : Fld := ⟨11, 8⟩
abbrev fISL_EREJ_PIN : Fld := ⟨4, 0⟩
abbrev aPAT_CFG (n : Nat) : Nat := 0x4000020 + n % 64 * 0x100000
abbrev fPAT_CFG_DIV : Fld := ⟨31, 16⟩
abbrev fPAT_CFG_LEN : Fld := ⟨14, 8⟩
abbrev fPAT_CFG_IDLE : Fld := ⟨0, 0⟩
abbrev aPAT_CODE (n : Nat) : Nat := 0x4000024 + n % 64 * 0x100000
abbrev aPAT_CMD (n : Nat) : Nat := 0x400002C + n % 64 * 0x100000
abbrev fPAT_CMD_START : Fld := ⟨0, 0⟩
abbrev aDLL_CFG (n : Nat) : Nat := 0x4000030 + n % 64 * 0x100000
abbrev fDLL_CFG_UNLOCK_TOL : Fld := ⟨11, 8⟩
abbrev fDLL_CFG_LOCK_TOL : Fld := ⟨3, 0⟩
abbrev aDLL_STAT (n : Nat) : Nat := 0x4000034 + n % 64 * 0x100000
abbrev fDLL_STAT_PHERR : Fld := ⟨15, 8⟩
abbrev fDLL_STAT_BALANCING : Fld := ⟨2, 2⟩
abbrev fDLL_STAT_LOCKING : Fld := ⟨1, 1⟩
abbrev fDLL_STAT_LOCKED : Fld := ⟨0, 0⟩
abbrev aDLL_CMD (n : Nat) : Nat := 0x4000038 + n % 64 * 0x100000
abbrev fDLL_CMD_RELOCK : Fld := ⟨0, 0⟩
abbrev aDLL_LOSS (n : Nat) : Nat := 0x400003C + n % 64 * 0x100000
abbrev aMON_LAT (n : Nat) : Nat := 0x4000040 + n % 64 * 0x100000
abbrev fMON_LAT_LATCH : Fld := ⟨25, 0⟩
abbrev aMON_UNS (n : Nat) : Nat := 0x4000044 + n % 64 * 0x100000
abbrev fMON_UNS_UNS : Fld := ⟨25, 0⟩
abbrev aMON_CAUSE (n : Nat) : Nat := 0x4000048 + n % 64 * 0x100000
abbrev fMON_CAUSE_CAUSE : Fld := ⟨25, 0⟩
abbrev aCH_CTL (n c : Nat) : Nat := 0x4000100 + n % 64 * 0x100000 + c % 4 * 0x40
abbrev fCH_CTL_DRV_EN : Fld := ⟨0, 0⟩
abbrev aCH_MODE (n c : Nat) : Nat := 0x4000104 + n % 64 * 0x100000 + c % 4 * 0x40
abbrev fCH_MODE_TBL_LEN : Fld := ⟨12, 8⟩
abbrev aCH_PERIOD (n c : Nat) : Nat := 0x4000108 + n % 64 * 0x100000 + c % 4 * 0x40
abbrev fCH_PERIOD_PERIOD : Fld := ⟨27, 0⟩
abbrev aCH_PHASE (n c : Nat) : Nat := 0x400010C + n % 64 * 0x100000 + c % 4 * 0x40
abbrev fCH_PHASE_PHASE : Fld := ⟨27, 0⟩
abbrev aCH_DT (n c : Nat) : Nat := 0x4000110 + n % 64 * 0x100000 + c % 4 * 0x40
abbrev fCH_DT_DTF : Fld := ⟨31, 16⟩
abbrev fCH_DT_DTR : Fld := ⟨15, 0⟩
abbrev aCH_STAT (n c : Nat) : Nat := 0x4000114 + n % 64 * 0x100000 + c % 4 * 0x40
abbrev fCH_STAT_GANG_N : Fld := ⟨19, 16⟩
abbrev fCH_STAT_GANG_K : Fld := ⟨15, 12⟩
abbrev fCH_STAT_LEADER : Fld := ⟨6, 6⟩
abbrev fCH_STAT_DRV_ON : Fld := ⟨5, 5⟩
abbrev fCH_STAT_INH : Fld := ⟨4, 4⟩
abbrev fCH_STAT_SLOT : Fld := ⟨3, 0⟩
abbrev aCH_LATE (n c : Nat) : Nat := 0x4000118 + n % 64 * 0x100000 + c % 4 * 0x40
abbrev aCH_INH (n c : Nat) : Nat := 0x400011C + n % 64 * 0x100000 + c % 4 * 0x40
abbrev fCH_INH_SAFE : Fld := ⟨2, 2⟩
abbrev fCH_INH_GANG : Fld := ⟨1, 1⟩
abbrev fCH_INH_MON : Fld := ⟨0, 0⟩
abbrev aCH_DTFLOOR (n c : Nat) : Nat := 0x4000120 + n % 64 * 0x100000 + c % 4 * 0x40
abbrev fCH_DTFLOOR_FLOOR : Fld := ⟨15, 0⟩
abbrev aPIN_CFG (n p : Nat) : Nat := 0x4000400 + n % 64 * 0x100000 + p % 26 * 0x20
abbrev fPIN_CFG_DRIVE : Fld := ⟨8, 8⟩
abbrev fPIN_CFG_SRC : Fld := ⟨5, 4⟩
abbrev fPIN_CFG_FORMAT : Fld := ⟨2, 0⟩
abbrev aPIN_LVL (n p : Nat) : Nat := 0x4000404 + n % 64 * 0x100000 + p % 26 * 0x20
abbrev fPIN_LVL_LVL : Fld := ⟨0, 0⟩
abbrev aPIN_STAT (n p : Nat) : Nat := 0x4000408 + n % 64 * 0x100000 + p % 26 * 0x20
abbrev fPIN_STAT_FMT_OK : Fld := ⟨20, 16⟩
abbrev fPIN_STAT_INH_SET : Fld := ⟨10, 10⟩
abbrev fPIN_STAT_SAFE_LVL : Fld := ⟨9, 8⟩
abbrev fPIN_STAT_ROLE : Fld := ⟨7, 4⟩
abbrev fPIN_STAT_HELD : Fld := ⟨1, 1⟩
abbrev fPIN_STAT_OUT : Fld := ⟨0, 0⟩
abbrev aCMP_CFG (n p : Nat) : Nat := 0x400040C + n % 64 * 0x100000 + p % 26 * 0x20
abbrev fCMP_CFG_HYST : Fld := ⟨19, 16⟩
abbrev fCMP_CFG_THR : Fld := ⟨11, 0⟩
abbrev aSTP_CFG (n p : Nat) : Nat := 0x4000410 + n % 64 * 0x100000 + p % 26 * 0x20
abbrev fSTP_CFG_WMODE : Fld := ⟨17, 16⟩
abbrev fSTP_CFG_RAWFMT : Fld := ⟨13, 13⟩
abbrev fSTP_CFG_SLOPE : Fld := ⟨9, 8⟩
abbrev fSTP_CFG_PRESC : Fld := ⟨7, 0⟩
abbrev aSTP_STAT (n p : Nat) : Nat := 0x4000414 + n % 64 * 0x100000 + p % 26 * 0x20
abbrev fSTP_STAT_TACMODE : Fld := ⟨1, 1⟩
abbrev fSTP_STAT_ACTIVE : Fld := ⟨0, 0⟩
abbrev aSTP_WS (n p : Nat) : Nat := 0x4000800 + n % 64 * 0x100000 + p % 26 * 0x20
abbrev fSTP_WS_WS : Fld := ⟨27, 0⟩
abbrev aSTP_WE (n p : Nat) : Nat := 0x4000804 + n % 64 * 0x100000 + p % 26 * 0x20
abbrev fSTP_WE_WE : Fld := ⟨27, 0⟩
abbrev aSTP_WAS (n p : Nat) : Nat := 0x4000808 + n % 64 * 0x100000 + p % 26 * 0x20
abbrev aSTP_WAE (n p : Nat) : Nat := 0x4000810 + n % 64 * 0x100000 + p % 26 * 0x20
abbrev aSTP_WDISC (n p : Nat) : Nat := 0x4000818 + n % 64 * 0x100000 + p % 26 * 0x20
abbrev aSTP_LOST (n p : Nat) : Nat := 0x400081C + n % 64 * 0x100000 + p % 26 * 0x20
abbrev aMU_BIND (n u : Nat) : Nat := 0x4000C00 + n % 64 * 0x100000 + u % 9 * 0x40
abbrev fMU_BIND_SPARE : Fld := ⟨20, 20⟩
abbrev fMU_BIND_QTY : Fld := ⟨17, 16⟩
abbrev fMU_BIND_CH : Fld := ⟨9, 8⟩
abbrev fMU_BIND_PIN : Fld := ⟨4, 0⟩
abbrev aMU_GATE (n u : Nat) : Nat := 0x4000C04 + n % 64 * 0x100000 + u % 9 * 0x40
abbrev fMU_GATE_GATE : Fld := ⟨31, 0⟩
abbrev aMU_HOP (n u : Nat) : Nat := 0x4000C0C + n % 64 * 0x100000 + u % 9 * 0x40
abbrev aMU_GPH (n u : Nat) : Nat := 0x4000C10 + n % 64 * 0x100000 + u % 9 * 0x40
abbrev aMU_CTL (n u : Nat) : Nat := 0x4000C14 + n % 64 * 0x100000 + u % 9 * 0x40
abbrev fMU_CTL_APPLY : Fld := ⟨8, 8⟩
abbrev fMU_CTL_EN : Fld := ⟨0, 0⟩
abbrev aMU_CFG (n u : Nat) : Nat := 0x4000C18 + n % 64 * 0x100000 + u % 9 * 0x40
abbrev fMU_CFG_LOSS_N : Fld := ⟨15, 8⟩
abbrev fMU_CFG_MIN_N : Fld := ⟨7, 0⟩
abbrev aMU_F0 (n u : Nat) : Nat := 0x4000C1C + n % 64 * 0x100000 + u % 9 * 0x40
abbrev aMU_C0 (n u : Nat) : Nat := 0x4000C24 + n % 64 * 0x100000 + u % 9 * 0x40
abbrev aMU_C1 (n u : Nat) : Nat := 0x4000C2C + n % 64 * 0x100000 + u % 9 * 0x40
abbrev aMU_C2 (n u : Nat) : Nat := 0x4000C34 + n % 64 * 0x100000 + u % 9 * 0x40
abbrev aMU_STAT (n u : Nat) : Nat := 0x4000C3C + n % 64 * 0x100000 + u % 9 * 0x40
abbrev fMU_STAT_SENSE_LOSS : Fld := ⟨8, 8⟩
abbrev fMU_STAT_SLEWING : Fld := ⟨4, 4⟩
abbrev fMU_STAT_OPEN : Fld := ⟨3, 2⟩
abbrev fMU_STAT_RUN : Fld := ⟨0, 0⟩
abbrev aMU_LAT (n u : Nat) : Nat := 0x4000E80 + n % 64 * 0x100000 + u % 9 * 0x20
abbrev fMU_LAT_SAT : Fld := ⟨4, 4⟩
abbrev fMU_LAT_LOST : Fld := ⟨3, 3⟩
abbrev fMU_LAT_WDISC : Fld := ⟨2, 2⟩
abbrev fMU_LAT_STALE : Fld := ⟨1, 1⟩
abbrev fMU_LAT_SENSE : Fld := ⟨0, 0⟩
abbrev aMU_FRQ (n u : Nat) : Nat := 0x4000E84 + n % 64 * 0x100000 + u % 9 * 0x20
abbrev aMU_VAL (n u : Nat) : Nat := 0x4000E8C + n % 64 * 0x100000 + u % 9 * 0x20
abbrev aMU_RCNT (n u : Nat) : Nat := 0x4000E90 + n % 64 * 0x100000 + u % 9 * 0x20
abbrev aMU_SCNT (n u : Nat) : Nat := 0x4000E94 + n % 64 * 0x100000 + u % 9 * 0x20
abbrev aMU_N (n u : Nat) : Nat := 0x4000E98 + n % 64 * 0x100000 + u % 9 * 0x20
abbrev fMU_N_N : Fld := ⟨29, 0⟩
abbrev aMU_RSTAT (n u : Nat) : Nat := 0x4000E9C + n % 64 * 0x100000 + u % 9 * 0x20
abbrev fMU_RSTAT_FLAGS : Fld := ⟨6, 0⟩
abbrev aTAC_CFG (n k : Nat) : Nat := 0x4000FC0 + n % 64 * 0x100000 + k % 2 * 0x10
abbrev fTAC_CFG_EN : Fld := ⟨8, 8⟩
abbrev fTAC_CFG_PIN : Fld := ⟨4, 0⟩
abbrev aTAC_CMD (n k : Nat) : Nat := 0x4000FC4 + n % 64 * 0x100000 + k % 2 * 0x10
abbrev fTAC_CMD_CAL : Fld := ⟨0, 0⟩
abbrev aTAC_STAT (n k : Nat) : Nat := 0x4000FC8 + n % 64 * 0x100000 + k % 2 * 0x10
abbrev fTAC_STAT_RESULT : Fld := ⟨17, 16⟩
abbrev fTAC_STAT_EMPTY : Fld := ⟨10, 8⟩
abbrev fTAC_STAT_CALIBRATING : Fld := ⟨0, 0⟩
abbrev aTAC_GAIN (n k : Nat) : Nat := 0x4000FCC + n % 64 * 0x100000 + k % 2 * 0x10
abbrev fTAC_GAIN_GAIN : Fld := ⟨15, 0⟩
abbrev aEDGE (n p s e : Nat) : Nat := 0x4001000 + n % 64 * 0x100000 + p % 26 * 0x100 + s % 16 * 0x10 + e % 4 * 0x4
abbrev fEDGE_ACT : Fld := ⟨31, 30⟩
abbrev fEDGE_OFFSET : Fld := ⟨27, 0⟩
abbrev aMON_CTL (n p : Nat) : Nat := 0x4003000 + n % 64 * 0x100000 + p % 26 * 0x20
abbrev fMON_CTL_EN : Fld := ⟨0, 0⟩
abbrev aMON_CFG (n p : Nat) : Nat := 0x4003004 + n % 64 * 0x100000 + p % 26 * 0x20
abbrev fMON_CFG_N : Fld := ⟨23, 20⟩
abbrev fMON_CFG_K : Fld := ⟨19, 16⟩
abbrev fMON_CFG_BSRC : Fld := ⟨10, 8⟩
abbrev fMON_CFG_FILT : Fld := ⟨5, 4⟩
abbrev fMON_CFG_CLR_PS : Fld := ⟨3, 3⟩
abbrev fMON_CFG_SAFE_SIDE : Fld := ⟨2, 2⟩
abbrev fMON_CFG_MODE : Fld := ⟨1, 0⟩
abbrev aMON_TDIV (n p : Nat) : Nat := 0x4003008 + n % 64 * 0x100000 + p % 26 * 0x20
abbrev fMON_TDIV_DIVM1 : Fld := ⟨15, 0⟩
abbrev aMON_BLK (n p : Nat) : Nat := 0x400300C + n % 64 * 0x100000 + p % 26 * 0x20
abbrev fMON_BLK_BLK_LEN : Fld := ⟨11, 0⟩
abbrev aMON_THR (n p : Nat) : Nat := 0x4003010 + n % 64 * 0x100000 + p % 26 * 0x20
abbrev fMON_THR_HI_HYST : Fld := ⟨31, 28⟩
abbrev fMON_THR_HI : Fld := ⟨27, 16⟩
abbrev fMON_THR_LO_HYST : Fld := ⟨15, 12⟩
abbrev fMON_THR_LO : Fld := ⟨11, 0⟩
abbrev aMON_STAT (n p : Nat) : Nat := 0x4003014 + n % 64 * 0x100000 + p % 26 * 0x20
abbrev fMON_STAT_LAST_SIDE : Fld := ⟨8, 8⟩
abbrev fMON_STAT_UNSETTLED : Fld := ⟨6, 6⟩
abbrev fMON_STAT_CAUSE : Fld := ⟨5, 5⟩
abbrev fMON_STAT_LO_BELOW : Fld := ⟨4, 4⟩
abbrev fMON_STAT_HI_ABOVE : Fld := ⟨3, 3⟩
abbrev fMON_STAT_LO_DEC : Fld := ⟨2, 2⟩
abbrev fMON_STAT_HI_DEC : Fld := ⟨1, 1⟩
abbrev fMON_STAT_ON : Fld := ⟨0, 0⟩
abbrev aMON_BIND (n p : Nat) : Nat := 0x4003018 + n % 64 * 0x100000 + p % 26 * 0x20
abbrev fMON_BIND_INH : Fld := ⟨9, 9⟩
abbrev fMON_BIND_FLAG_EN : Fld := ⟨8, 8⟩
abbrev fMON_BIND_FLAG : Fld := ⟨3, 0⟩
abbrev aMON_TRIPS (n p : Nat) : Nat := 0x400301C + n % 64 * 0x100000 + p % 26 * 0x20

/-! ## Rows -/

/-- Register rows of the GLB block, in map order (R33). -/
def rowsGLB : List RegRow := [
  ⟨0x0010, [], 1, 32, .const 0x0#32, [⟨16, 16, .sta, false⟩, ⟨11, 8, .sta, false⟩, ⟨3, 0, .sta, false⟩], .block, .plain, []⟩, /- GLB_RSTCAUSE, R511 -/
  ⟨0x0014, [], 1, 32, .const 0x0#32, [⟨31, 31, .run, false⟩, ⟨30, 30, .run, false⟩, ⟨7, 0, .run, false⟩], .block, .own, []⟩, /- GLB_RSTCMD, R511 -/
  ⟨0x0020, [], 1, 32, .const 0x02560000#32, [⟨31, 16, .sta, false⟩, ⟨15, 8, .sta, false⟩, ⟨7, 0, .sta, false⟩], .block, .plain, []⟩, /- GLB_PART, R26 -/
  ⟨0x0024, [], 2, 64, .const 0x0#32, [⟨31, 0, .sta, false⟩], .block, .plain, []⟩, /- GLB_SERIAL, R26 -/
  ⟨0x002C, [], 1, 32, .const 0x18100840#32, [⟨31, 24, .sta, false⟩, ⟨20, 16, .sta, false⟩, ⟨11, 8, .sta, false⟩, ⟨7, 0, .sta, false⟩], .block, .plain, []⟩, /- GLB_CAPS, R26 -/
  ⟨0x0030, [], 1, 32, .const 0x0#32, [⟨31, 0, .run, false⟩], .block, .plain, []⟩ /- GLB_SCRATCH, R26 -/]

/-- Register rows of the TBS block, in map order (R33). -/
def rowsTBS1 : List RegRow := [
  ⟨0x0010, [], 1, 32, .const 0x0#32, [⟨0, 0, .cfg, false⟩], .block, .plain, []⟩, /- TBS_CTL, R82 -/
  ⟨0x0014, [], 1, 32, .const 0x0#32, [⟨1, 0, .run, false⟩], .block, .plain, [.rng 1 0 0 2]⟩, /- TBS_SRC, R82 -/
  ⟨0x0018, [], 1, 32, .const 0x0#32, [⟨12, 12, .sta, false⟩, ⟨11, 11, .sta, false⟩, ⟨10, 10, .sta, false⟩, ⟨9, 9, .sta, false⟩, ⟨8, 8, .sta, false⟩, ⟨2, 0, .sta, false⟩], .block, .plain, []⟩, /- TBS_STATE, R82 -/
  ⟨0x001C, [], 3, 72, .const 0x0#32, [⟨31, 0, .sta, false⟩], .block, .view, []⟩, /- TBS_NOW, R82 -/
  ⟨0x0028, [], 3, 72, .const 0x0#32, [⟨31, 0, .run, false⟩], .block, .plain, []⟩, /- TBS_LOAD, R82 -/
  ⟨0x0034, [], 1, 32, .const 0x0#32, [⟨1, 1, .run, false⟩, ⟨0, 0, .run, false⟩], .block, .own, []⟩, /- TBS_CMD, R82 -/
  ⟨0x0038, [], 1, 32, .const 0x000A0060#32, [⟨23, 16, .cfg, false⟩, ⟨15, 0, .cfg, false⟩], .block, .plain, [.nz 23 16, .nz 15 0]⟩, /- TBS_LOCKCFG, R82 -/
  ⟨0x003C, [], 1, 32, .const 0x0#32, [⟨23, 0, .run, false⟩], .block, .plain, []⟩, /- TBS_CABLE, R82 -/
  ⟨0x0040, [], 1, 32, .const 0x00000014#32, [⟨4, 0, .run, false⟩], .block, .plain, [.rng 4 0 10 20]⟩, /- TBS_PSLEW, R82 -/
  ⟨0x0044, [], 1, 32, .const 0x000003E8#32, [⟨19, 0, .run, false⟩], .block, .plain, [.nz 19 0]⟩, /- TBS_FSLEW, R82 -/
  ⟨0x0048, [], 1, 32, .const 0x0#32, [⟨31, 0, .sta, false⟩], .block, .plain, []⟩, /- TBS_FREQ, R82 -/
  ⟨0x004C, [], 1, 32, .const 0x0#32, [⟨31, 0, .run, false⟩], .block, .plain, []⟩, /- TBS_AGE, R82 -/
  ⟨0x0050, [], 1, 32, .const 0x0#32, [⟨31, 0, .sta, false⟩], .block, .plain, []⟩, /- TBS_PHERR, R82 -/
  ⟨0x0054, [], 1, 32, .const 0x0#32, [⟨31, 0, .sta, false⟩], .block, .plain, []⟩, /- TBS_PATH, R82 -/
  ⟨0x0058, [], 1, 32, .const 0x0#32, [⟨15, 0, .sta, false⟩], .block, .plain, []⟩, /- TBS_HOP, R82 -/
  ⟨0x005C, [], 1, 32, .const 0x0#32, [⟨31, 0, .sta, false⟩], .block, .plain, []⟩, /- TBS_HOLD, R82 -/
  ⟨0x0060, [], 1, 32, .const 0x0#32, [⟨2, 2, .lat, false⟩, ⟨1, 1, .lat, false⟩, ⟨0, 0, .lat, false⟩], .block, .plain, []⟩, /- TBS_LATE, R82 -/
  ⟨0x0064, [], 1, 32, .const 0x0#32, [⟨31, 0, .run, false⟩], .block, .plain, [.zeroClears]⟩ /- TBS_LATE_CNT, R82 -/]

/-- Register rows of the TBS block, in map order (R33). -/
def rowsTBS2 : List RegRow := [
  ⟨0x0068, [], 1, 32, .const 0x0#32, [⟨19, 16, .sta, false⟩, ⟨14, 8, .sta, false⟩, ⟨6, 0, .sta, false⟩], .block, .plain, []⟩, /- TBS_LATE_SRC, R82 -/
  ⟨0x006C, [], 3, 72, .const 0x0#32, [⟨31, 0, .sta, false⟩], .block, .plain, []⟩, /- TBS_LATE_DUE, R82 -/
  ⟨0x0078, [], 3, 72, .const 0x0#32, [⟨31, 0, .sta, false⟩], .block, .plain, []⟩, /- TBS_LATE_ARR, R82 -/
  ⟨0x0084, [], 1, 32, .const 0x0#32, [⟨29, 16, .sta, false⟩, ⟨13, 0, .sta, false⟩], .block, .view, []⟩, /- TBS_DUEQ, R82 -/
  ⟨0x0088, [], 1, 32, .const 0x0#32, [⟨23, 0, .sta, false⟩], .block, .plain, []⟩ /- TBS_COLD, R82 -/]

/-- All register rows of the TBS block. -/
def rowsTBS : List RegRow := rowsTBS1 ++ rowsTBS2

/-- Register rows of the FLT block, in map order (R33). -/
def rowsFLT : List RegRow := [
  ⟨0x0010, [], 1, 32, .const 0x0#32, [⟨3, 3, .sta, false⟩, ⟨2, 2, .sta, false⟩, ⟨1, 1, .sta, false⟩, ⟨0, 0, .sta, false⟩], .block, .view, []⟩, /- FLT_STAT, R459 -/
  ⟨0x0014, [], 1, 32, .const 0x0#32, [⟨23, 23, .sta, false⟩, ⟨22, 16, .sta, false⟩, ⟨15, 15, .sta, false⟩, ⟨14, 8, .sta, false⟩, ⟨7, 7, .sta, false⟩, ⟨6, 0, .sta, false⟩], .block, .plain, []⟩, /- FLT_PEND, R459 -/
  ⟨0x0018, [], 1, 32, .const 0x0#32, [⟨6, 0, .run, false⟩], .block, .own, []⟩, /- FLT_ACK, R459 -/
  ⟨0x001C, [], 1, 32, .const 0x0#32, [⟨0, 0, .lat, false⟩], .block, .plain, []⟩, /- FLT_LAT, R459 -/
  ⟨0x0020, [], 1, 32, .const 0x0#32, [⟨6, 0, .sta, false⟩], .block, .plain, []⟩, /- FLT_ACKREF, R459 -/
  ⟨0x0024, [], 1, 32, .const 0x0#32, [⟨0, 0, .run, false⟩], .block, .own, []⟩, /- FLT_TEST, R459 -/
  ⟨0x0028, [], 1, 32, .const 0x0#32, [⟨7, 7, .sta, false⟩, ⟨6, 0, .sta, false⟩], .block, .plain, []⟩, /- FLT_RSTSRC, R459 -/
  ⟨0x002C, [], 1, 32, .const 0x0#32, [⟨31, 0, .run, false⟩], .block, .plain, [.zeroClears]⟩, /- FLT_MERGED, R459 -/
  ⟨0x0040, [(4, 0x4)], 1, 32, .const 0x0#32, [⟨31, 0, .lat, false⟩], .block, .own, []⟩, /- FLT_STICKY, R459 -/
  ⟨0x0050, [(4, 0x4)], 1, 32, .const 0x0#32, [⟨31, 0, .sta, false⟩], .block, .plain, []⟩, /- FLT_CAUSE, R459 -/
  ⟨0x0060, [(16, 0x4)], 1, 32, .tab [0x88880888#32, 0x00008888#32, 0x08888888#32, 0x0#32, 0x88888888#32, 0x00088888#32, 0x00888888#32, 0x00000888#32, 0x00888888#32, 0x0#32, 0x08888888#32, 0x0#32, 0x08888888#32, 0x00888888#32, 0x88888888#32, 0x00888888#32], [⟨31, 0, .sta, false⟩], .block, .plain, []⟩ /- FLT_REACT, R459 -/]

/-- Register rows of the BUS block, in map order (R33). -/
def rowsBUS : List RegRow := [
  ⟨0x0010, [], 1, 32, .const 0x0#32, [⟨1, 1, .lat, false⟩, ⟨0, 0, .lat, false⟩], .block, .plain, []⟩, /- BUS_LAT, R27 -/
  ⟨0x0014, [], 1, 32, .const 0x0#32, [⟨22, 16, .sta, false⟩, ⟨14, 8, .sta, false⟩, ⟨3, 0, .sta, false⟩], .block, .plain, []⟩, /- BUS_MALF, R27 -/
  ⟨0x0018, [], 1, 32, .const 0x0#32, [⟨31, 0, .run, false⟩], .block, .plain, [.zeroClears]⟩, /- BUS_MALFCNT, R27 -/
  ⟨0x001C, [], 1, 32, .const 0x00000010#32, [⟨15, 0, .run, false⟩], .block, .plain, []⟩, /- BUS_SLKTHR, R27 -/
  ⟨0x0100, [(80, 0x4)], 1, 32, .const 0x0#32, [⟨15, 0, .run, false⟩], .block, .plain, [.zeroClears]⟩, /- BUS_LATMAX, R27 -/
  ⟨0x0200, [(80, 0x4)], 1, 32, .const 0xFFFFFFFF#32, [⟨31, 0, .run, false⟩], .block, .plain, [.onesRestarts]⟩ /- BUS_SLACK, R27 -/]

/-- Register rows of the SCH block, in map order (R33). -/
def rowsSCH1 : List RegRow := [
  ⟨0x0010, [], 1, 32, .const 0x0#32, [⟨28, 20, .sta, false⟩, ⟨16, 0, .sta, false⟩], .block, .view, []⟩, /- SCH_STAT, R299 -/
  ⟨0x0014, [], 1, 32, .const 0x0#32, [⟨3, 3, .lat, false⟩, ⟨2, 2, .lat, false⟩, ⟨1, 1, .lat, false⟩, ⟨0, 0, .lat, false⟩], .block, .plain, []⟩, /- SCH_LAT, R299 -/
  ⟨0x0018, [], 1, 32, .const 0x0#32, [⟨31, 28, .sta, false⟩, ⟨23, 16, .sta, false⟩, ⟨15, 0, .sta, false⟩], .block, .plain, []⟩, /- SCH_MREJ, R299 -/
  ⟨0x001C, [], 1, 32, .const 0x0#32, [⟨31, 0, .run, false⟩], .block, .plain, [.zeroClears]⟩, /- SCH_RCCNT, R299 -/
  ⟨0x0020, [], 1, 32, .const 0x0#32, [⟨31, 0, .run, false⟩], .block, .plain, [.zeroClears]⟩, /- SCH_AGECNT, R299 -/
  ⟨0x0024, [], 1, 32, .const 0x00000014#32, [⟨4, 0, .run, false⟩], .block, .plain, [.rng 4 0 16 30]⟩, /- SCH_WIN, R299 -/
  ⟨0x0028, [], 1, 32, .const 0x00040000#32, [⟨18, 0, .sta, false⟩], .block, .view, []⟩, /- SCH_POOL, R299 -/
  ⟨0x002C, [], 1, 32, .const 0x0#32, [⟨12, 0, .sta, false⟩], .block, .view, []⟩, /- SCH_GUARDS, R299 -/
  ⟨0x0030, [], 1, 32, .const 0x0#32, [⟨18, 16, .sta, true⟩, ⟨7, 0, .sta, true⟩], .block, .plain, []⟩, /- SCH_BAND, R299 -/
  ⟨0x0040, [(16, 0x8)], 1, 32, .const 0x0#32, [⟨31, 16, .sta, true⟩, ⟨15, 0, .sta, true⟩], .block, .plain, []⟩, /- SCH_GRP0, R299 -/
  ⟨0x0044, [(16, 0x8)], 1, 32, .const 0x0#32, [⟨31, 30, .sta, true⟩, ⟨29, 16, .sta, true⟩, ⟨15, 0, .sta, true⟩], .block, .plain, []⟩, /- SCH_GRP1, R299 -/
  ⟨0x00C0, [(16, 0x4)], 1, 32, .const 0x0#32, [⟨15, 0, .sta, true⟩], .block, .plain, []⟩, /- SCH_ASET, R299 -/
  ⟨0x0100, [(2, 0x4)], 1, 32, .const 0x0#32, [⟨15, 0, .run, false⟩], .block, .plain, []⟩, /- SCH_TSEL, R299 -/
  ⟨0x0108, [], 1, 32, .const 0x0#32, [⟨31, 28, .sta, false⟩, ⟨27, 22, .sta, false⟩, ⟨21, 21, .sta, false⟩, ⟨20, 20, .sta, false⟩, ⟨19, 16, .sta, false⟩, ⟨15, 12, .sta, false⟩, ⟨9, 0, .sta, false⟩], .block, .view, []⟩, /- SCH_TV_STATE, R299 -/
  ⟨0x010C, [], 2, 64, .const 0x0#32, [⟨31, 0, .sta, false⟩], .block, .view, []⟩, /- SCH_TV_F, R299 -/
  ⟨0x0114, [], 2, 64, .const 0x0#32, [⟨31, 0, .sta, false⟩], .block, .view, []⟩, /- SCH_TV_W, R299 -/
  ⟨0x011C, [], 1, 32, .const 0x0#32, [⟨31, 0, .sta, false⟩], .block, .view, []⟩, /- SCH_TV_WAIT, R299 -/
  ⟨0x2000, [(1024, 0x8)], 1, 32, .const 0x0#32, [⟨31, 30, .sta, true⟩, ⟨29, 29, .sta, true⟩, ⟨18, 0, .sta, true⟩], .block, .plain, []⟩ /- SCH_QCFG, R299 -/]

/-- Register rows of the SCH block, in map order (R33). -/
def rowsSCH2 : List RegRow := [
  ⟨0x2004, [(1024, 0x8)], 1, 32, .const 0x0#32, [⟨18, 0, .sta, false⟩], .block, .view, []⟩, /- SCH_QFILL, R299 -/
  ⟨0x4000, [(1024, 0x10)], 4, 128, .const 0x0#32, [⟨31, 0, .run, false⟩], .block, .own, []⟩ /- SCH_QPUSH, R299 -/]

/-- All register rows of the SCH block. -/
def rowsSCH : List RegRow := rowsSCH1 ++ rowsSCH2

/-- Register rows of the STE block, in map order (R33). -/
def rowsSTE : List RegRow := [
  ⟨0x0010, [], 1, 32, .const 0x0#32, [⟨6, 0, .sta, false⟩], .block, .view, []⟩, /- STE_CTX, R299 -/
  ⟨0x0100, [(16, 0x20)], 1, 32, .const 0x0#32, [⟨31, 28, .sta, false⟩, ⟨27, 27, .sta, false⟩, ⟨15, 0, .sta, false⟩], .block, .view, []⟩, /- STE_STAT, R299 -/
  ⟨0x0104, [(16, 0x20)], 1, 32, .const 0x0#32, [⟨16, 0, .sta, false⟩], .block, .view, []⟩, /- STE_DEPTH, R299 -/
  ⟨0x0108, [(16, 0x20)], 1, 32, .const 0x0#32, [⟨31, 0, .sta, false⟩], .block, .view, []⟩, /- STE_WMAX, R299 -/
  ⟨0x010C, [(16, 0x20)], 1, 32, .const 0x0#32, [⟨31, 0, .sta, false⟩], .block, .view, []⟩, /- STE_WMEAN, R299 -/
  ⟨0x0110, [(16, 0x20)], 1, 32, .const 0x0#32, [⟨15, 0, .sta, false⟩], .block, .view, []⟩, /- STE_BUSY, R299 -/
  ⟨0x0114, [(16, 0x20)], 1, 32, .const 0x0#32, [⟨31, 0, .run, false⟩], .block, .plain, [.zeroClears]⟩, /- STE_DISP, R299 -/
  ⟨0x0118, [(16, 0x20)], 1, 32, .const 0x0#32, [⟨31, 0, .run, false⟩], .block, .plain, [.zeroClears]⟩, /- STE_DISPL, R299 -/
  ⟨0x011C, [(16, 0x20)], 1, 32, .const 0x0#32, [⟨31, 0, .run, false⟩], .block, .plain, [.zeroClears]⟩ /- STE_LATE, R299 -/]

/-- Register rows of the LPE block, in map order (R33). -/
def rowsLPE1 : List RegRow := [
  ⟨0x0010, [], 1, 32, .const 0x0#32, [⟨0, 0, .run, false⟩], .block, .plain, []⟩, /- LPE_SRC, R188 -/
  ⟨0x0014, [], 1, 32, .const 0x0#32, [⟨4, 4, .lat, false⟩, ⟨3, 3, .lat, false⟩, ⟨2, 2, .lat, false⟩, ⟨1, 1, .lat, false⟩, ⟨0, 0, .lat, false⟩], .block, .plain, []⟩, /- LPE_LAT, R188 -/
  ⟨0x0018, [], 1, 32, .const 0x0#32, [⟨8, 8, .run, false⟩, ⟨7, 0, .run, false⟩], .block, .own, []⟩, /- LPE_FLIP, R188 -/
  ⟨0x0020, [(8, 0x4)], 1, 32, .const 0x0#32, [⟨31, 0, .sta, false⟩], .block, .plain, []⟩, /- LPE_GEN, R188 -/
  ⟨0x0040, [(8, 0x4)], 1, 32, .const 0x0#32, [⟨31, 0, .sta, false⟩], .block, .plain, []⟩, /- LPE_CLAIM, R188 -/
  ⟨0x0060, [], 1, 32, .const 0x0#32, [⟨31, 0, .sta, false⟩], .block, .plain, []⟩, /- LPE_CS_ROMID, R222 -/
  ⟨0x0064, [], 1, 32, .const 0x0#32, [⟨31, 31, .sta, false⟩, ⟨27, 27, .sta, false⟩, ⟨23, 16, .sta, false⟩, ⟨15, 12, .sta, false⟩, ⟨7, 4, .sta, false⟩, ⟨3, 0, .sta, false⟩], .block, .plain, []⟩, /- LPE_CS_STAT, R222 -/
  ⟨0x0080, [], 12, 384, .const 0x0#32, [⟨31, 0, .sta, false⟩], .block, .plain, []⟩, /- LPE_CS_DIG, R222 -/
  ⟨0x00B0, [], 1, 32, .const 0x0#32, [⟨31, 0, .run, false⟩], .block, .plain, [.zeroClears]⟩, /- LPE_CS_ECC, R222 -/
  ⟨0x0100, [(8, 0x40)], 1, 32, .const 0x0#32, [⟨31, 16, .sta, false⟩, ⟨15, 15, .sta, false⟩, ⟨14, 8, .sta, false⟩, ⟨7, 4, .sta, false⟩, ⟨1, 1, .sta, false⟩, ⟨0, 0, .sta, false⟩], .block, .view, []⟩, /- ENG_STAT, R188 -/
  ⟨0x0104, [(8, 0x40)], 1, 32, .const 0x0#32, [⟨15, 0, .sta, false⟩], .block, .view, []⟩, /- ENG_LOAD, R188 -/
  ⟨0x0108, [(8, 0x40)], 1, 32, .const 0x0#32, [⟨31, 0, .run, false⟩], .block, .plain, [.zeroClears]⟩, /- ENG_MAXD, R188 -/
  ⟨0x010C, [(8, 0x40)], 1, 32, .const 0x0#32, [⟨31, 31, .run, false⟩, ⟨30, 30, .run, false⟩, ⟨12, 8, .run, false⟩, ⟨7, 0, .run, false⟩], .block, .own, []⟩, /- ENG_BGREQ, R188 -/
  ⟨0x0110, [(8, 0x40)], 1, 32, .const 0x0#32, [⟨31, 16, .sta, false⟩, ⟨12, 8, .sta, false⟩, ⟨7, 0, .sta, false⟩], .block, .plain, []⟩, /- ENG_BGSTAT, R188 -/
  ⟨0x0114, [(8, 0x40)], 1, 32, .const 0x0#32, [⟨20, 20, .sta, false⟩, ⟨19, 16, .sta, false⟩, ⟨13, 0, .sta, false⟩], .block, .plain, []⟩, /- ENG_BGPC, R188 -/
  ⟨0x0118, [(8, 0x40)], 1, 32, .const 0x0#32, [⟨31, 0, .run, false⟩], .block, .plain, [.zeroClears]⟩, /- ENG_CUTS, R188 -/
  ⟨0x011C, [(8, 0x40)], 1, 32, .const 0x0#32, [⟨31, 24, .sta, false⟩, ⟨23, 23, .sta, false⟩, ⟨22, 18, .sta, false⟩, ⟨17, 4, .sta, false⟩, ⟨3, 0, .sta, false⟩], .block, .plain, []⟩, /- ENG_TRAP, R222 -/
  ⟨0x0120, [(8, 0x40)], 1, 32, .const 0x0#32, [⟨1, 1, .sta, false⟩, ⟨0, 0, .run, false⟩], .block, .own, []⟩ /- ENG_RESTART, R222 -/]

/-- Register rows of the LPE block, in map order (R33). -/
def rowsLPE2 : List RegRow := [
  ⟨0x4000, [(256, 0x40)], 1, 32, .const 0x0#32, [⟨0, 0, .run, false⟩], .block, .own, []⟩, /- LCH_CTL, R188 -/
  ⟨0x4004, [(256, 0x40)], 1, 32, .const 0x1#32, [⟨4, 0, .cfg, false⟩], .loop, .plain, [.rng 4 0 1 16, .special .lchcfg]⟩, /- LCH_CFG, R188 -/
  ⟨0x4008, [(256, 0x40)], 1, 32, .const 0x0#32, [⟨16, 16, .sta, false⟩, ⟨12, 8, .sta, false⟩, ⟨7, 0, .sta, false⟩], .block, .plain, []⟩, /- LCH_LAW, R188 -/
  ⟨0x400C, [(256, 0x40)], 1, 32, .const 0x0#32, [⟨31, 0, .run, false⟩], .block, .plain, []⟩, /- LCH_RVB, R188 -/
  ⟨0x4010, [(256, 0x40)], 1, 32, .const 0x0#32, [⟨31, 0, .run, false⟩], .block, .plain, []⟩, /- LCH_DTC, R188 -/
  ⟨0x4014, [(256, 0x40)], 1, 32, .const 0x0#32, [⟨4, 4, .sta, false⟩, ⟨3, 3, .sta, false⟩, ⟨2, 2, .sta, false⟩, ⟨1, 1, .sta, false⟩, ⟨0, 0, .sta, false⟩], .block, .plain, []⟩, /- LCH_STAT, R188 -/
  ⟨0x4018, [(256, 0x40)], 1, 32, .const 0x0#32, [⟨31, 0, .run, false⟩], .block, .plain, [.zeroClears]⟩, /- LCH_UPD, R188 -/
  ⟨0x401C, [(256, 0x40)], 1, 32, .const 0x0#32, [⟨31, 0, .run, false⟩], .block, .plain, [.zeroClears]⟩, /- LCH_NOM, R188 -/
  ⟨0x4020, [(256, 0x40)], 2, 48, .const 0x0#32, [⟨31, 0, .sta, false⟩], .block, .view, []⟩, /- LCH_XV, R188 -/
  ⟨0x4028, [(256, 0x40)], 2, 48, .const 0x0#32, [⟨31, 0, .sta, false⟩], .block, .view, []⟩, /- LCH_XI, R188 -/
  ⟨0x4030, [(256, 0x40)], 1, 32, .const 0x0#32, [⟨31, 0, .sta, false⟩], .block, .plain, []⟩, /- LCH_DV, R188 -/
  ⟨0x4034, [(256, 0x40)], 1, 32, .const 0x0#32, [⟨31, 0, .sta, false⟩], .block, .plain, []⟩, /- LCH_DI, R188 -/
  ⟨0x4038, [(256, 0x40)], 1, 32, .const 0x0#32, [⟨27, 0, .sta, false⟩], .block, .plain, []⟩ /- LCH_H, R188 -/]

/-- All register rows of the LPE block. -/
def rowsLPE : List RegRow := rowsLPE1 ++ rowsLPE2

/-- Register rows of the SEG block, in map order (R33). -/
def rowsSEG : List RegRow := [
  ⟨0x0010, [], 1, 32, .const 0x000000FF#32, [⟨15, 0, .cfg, false⟩], .block, .plain, [.rng 15 0 15 65535]⟩, /- SEG_CFG, R248 -/
  ⟨0x0014, [], 1, 32, .const 0x0#32, [⟨31, 28, .run, false⟩, ⟨11, 0, .run, false⟩], .block, .own, []⟩, /- SEG_CMD, R248 -/
  ⟨0x0018, [], 1, 32, .const 0x0#32, [⟨31, 31, .sta, false⟩, ⟨29, 28, .sta, false⟩, ⟨27, 24, .sta, false⟩, ⟨11, 0, .sta, false⟩], .block, .plain, []⟩, /- SEG_CSTAT, R248 -/
  ⟨0x001C, [], 1, 32, .const 0x0#32, [⟨2, 2, .lat, false⟩, ⟨1, 1, .lat, false⟩, ⟨0, 0, .lat, false⟩], .block, .plain, []⟩, /- SEG_LAT, R248 -/
  ⟨0x0020, [], 1, 32, .const 0x01000000#32, [⟨24, 16, .sta, false⟩, ⟨8, 0, .sta, false⟩], .block, .view, []⟩, /- SEG_RUN, R248 -/
  ⟨0x0024, [], 3, 96, .const 0x0#32, [⟨31, 0, .sta, false⟩], .block, .plain, []⟩, /- SEG_EPOCH, R248 -/
  ⟨0x0100, [(128, 0x4)], 1, 32, .const 0x0#32, [⟨31, 0, .sta, false⟩], .block, .plain, []⟩, /- SEG_SEALED, R248 -/
  ⟨0x1000, [(256, 0x40)], 1, 32, .const 0x0#32, [⟨31, 28, .run, false⟩, ⟨24, 24, .run, false⟩, ⟨23, 12, .run, false⟩, ⟨11, 0, .run, false⟩], .block, .own, []⟩, /- PL_CMD, R248 -/
  ⟨0x1004, [(256, 0x40)], 1, 32, .const 0x0#32, [⟨31, 29, .sta, false⟩, ⟨28, 28, .sta, false⟩, ⟨23, 12, .sta, false⟩, ⟨11, 0, .sta, false⟩], .block, .plain, []⟩, /- PL_STAT, R248 -/
  ⟨0x1008, [(256, 0x40)], 1, 32, .const 0x0#32, [⟨31, 0, .sta, false⟩], .block, .plain, []⟩, /- PL_LOOP, R248 -/
  ⟨0x100C, [(256, 0x40)], 1, 32, .const 0x0#32, [⟨31, 0, .sta, false⟩], .block, .plain, []⟩, /- PL_SAMP, R248 -/
  ⟨0x1010, [(256, 0x40)], 1, 32, .const 0x0#32, [⟨31, 0, .sta, false⟩], .block, .plain, []⟩, /- PL_SP, R248 -/
  ⟨0x1014, [(256, 0x40)], 2, 64, .const 0x0#32, [⟨31, 0, .sta, false⟩], .block, .plain, []⟩, /- PL_PH, R248 -/
  ⟨0x101C, [(256, 0x40)], 1, 32, .const 0x0#32, [⟨31, 0, .run, false⟩], .block, .plain, [.zeroClears]⟩, /- PL_STARVE, R248 -/
  ⟨0x1020, [(256, 0x40)], 1, 32, .const 0x0#32, [⟨2, 2, .lat, false⟩, ⟨1, 1, .lat, false⟩, ⟨0, 0, .lat, false⟩], .block, .plain, []⟩, /- PL_LAT, R248 -/
  ⟨0x1024, [(256, 0x40)], 1, 32, .const 0x0#32, [⟨3, 0, .sta, false⟩], .block, .plain, []⟩ /- PL_REJ, R248 -/]

/-- Register rows of the ACQ block, in map order (R33). -/
def rowsACQ1 : List RegRow := [
  ⟨0x0010, [], 1, 32, .const 0x1000C040#32, [⟨31, 20, .cfg, false⟩, ⟨15, 8, .cfg, false⟩, ⟨7, 0, .cfg, false⟩], .block, .plain, [.nz 31 20, .special .acqcfg]⟩, /- ACQ_CFG, R331 -/
  ⟨0x0014, [], 1, 32, .const 0x8059700A#32, [⟨31, 24, .cfg, false⟩, ⟨23, 12, .cfg, false⟩, ⟨11, 0, .cfg, false⟩], .block, .plain, [.nz 31 24, .rng 11 0 1 3600]⟩, /- ACQ_PER, R331 -/
  ⟨0x0018, [], 1, 32, .const 0x0#32, [⟨31, 31, .sta, false⟩, ⟨20, 16, .sta, false⟩, ⟨15, 12, .sta, false⟩, ⟨11, 8, .sta, false⟩, ⟨2, 2, .sta, false⟩, ⟨1, 1, .sta, false⟩, ⟨0, 0, .sta, false⟩], .block, .plain, []⟩, /- ACQ_STAT, R331 -/
  ⟨0x001C, [], 1, 32, .const 0x0#32, [⟨4, 4, .lat, false⟩, ⟨3, 3, .lat, false⟩, ⟨2, 2, .lat, false⟩, ⟨1, 1, .lat, false⟩, ⟨0, 0, .lat, false⟩], .block, .plain, []⟩, /- ACQ_LAT, R331 -/
  ⟨0x0020, [], 1, 32, .const 0x0#32, [⟨31, 0, .sta, false⟩], .block, .plain, []⟩, /- ACQ_SEALNO, R331 -/
  ⟨0x0100, [(8, 0x20)], 1, 32, .const 0x0#32, [⟨31, 31, .run, false⟩, ⟨30, 30, .run, false⟩, ⟨29, 29, .run, false⟩, ⟨0, 0, .run, false⟩], .block, .own, []⟩, /- TRG_CTL, R331 -/
  ⟨0x0104, [(8, 0x20)], 1, 32, .const 0x00002710#32, [⟨31, 0, .run, false⟩], .block, .plain, [.nz 31 0]⟩, /- TRG_TO, R331 -/
  ⟨0x0108, [(8, 0x20)], 1, 32, .const 0x0#32, [⟨31, 29, .sta, false⟩, ⟨25, 16, .sta, false⟩, ⟨7, 0, .sta, false⟩], .block, .plain, []⟩, /- TRG_STAT, R331 -/
  ⟨0x010C, [(8, 0x20)], 3, 96, .const 0x0#32, [⟨31, 0, .sta, false⟩], .block, .plain, []⟩, /- TRG_TIME, R331 -/
  ⟨0x0200, [(4, 0x20)], 1, 32, .const 0x0#32, [⟨31, 0, .sta, true⟩], .block, .plain, []⟩, /- BSN_SIZE, R331 -/
  ⟨0x0204, [(4, 0x20)], 1, 32, .const 0x0#32, [⟨31, 0, .sta, false⟩], .block, .view, []⟩, /- BSN_FILL, R331 -/
  ⟨0x0208, [(4, 0x20)], 2, 64, .const 0x0#32, [⟨31, 0, .sta, false⟩], .block, .plain, []⟩, /- BSN_WR, R331 -/
  ⟨0x0210, [(4, 0x20)], 2, 64, .const 0x0#32, [⟨31, 0, .sta, false⟩], .block, .plain, []⟩, /- BSN_ACK, R331 -/
  ⟨0x0218, [(4, 0x20)], 1, 32, .const 0x0#32, [⟨31, 0, .run, false⟩], .block, .plain, [.zeroClears]⟩, /- BSN_MAXF, R331 -/
  ⟨0x021C, [(4, 0x20)], 1, 32, .const 0x0#32, [⟨31, 0, .run, false⟩], .block, .plain, [.zeroClears]⟩, /- BSN_DROP, R331 -/
  ⟨0x0300, [], 1, 32, .const 0x0#32, [⟨25, 0, .sta, false⟩], .block, .plain, []⟩, /- SPL_USED, R331 -/
  ⟨0x0304, [], 2, 64, .const 0x0#32, [⟨31, 0, .sta, false⟩], .block, .plain, []⟩, /- SPL_WR, R331 -/
  ⟨0x030C, [], 2, 64, .const 0x0#32, [⟨31, 0, .sta, false⟩], .block, .plain, []⟩ /- SPL_RD, R331 -/]

/-- Register rows of the ACQ block, in map order (R33). -/
def rowsACQ2 : List RegRow := [
  ⟨0x0400, [(32, 0x4)], 1, 32, .const 0x0#32, [⟨31, 31, .run, false⟩, ⟨13, 8, .run, false⟩, ⟨4, 0, .run, false⟩], .block, .plain, []⟩, /- CAP, R331 -/
  ⟨0x1000, [(256, 0x20)], 1, 32, .const 0x0000FFFF#32, [⟨15, 8, .run, false⟩, ⟨7, 0, .run, false⟩], .block, .plain, []⟩, /- ACH_SEL, R331 -/
  ⟨0x1004, [(256, 0x20)], 1, 32, .const 0x0#32, [⟨31, 31, .run, false⟩, ⟨24, 22, .run, false⟩, ⟨21, 0, .run, false⟩], .block, .plain, []⟩, /- ACH_FIRE, R331 -/
  ⟨0x1008, [(256, 0x20)], 1, 32, .const 0x0#32, [⟨1, 1, .sta, false⟩, ⟨0, 0, .sta, false⟩], .block, .plain, []⟩, /- ACH_STAT, R331 -/
  ⟨0x100C, [(256, 0x20)], 1, 32, .const 0x0#32, [⟨31, 0, .run, false⟩], .block, .plain, [.zeroClears]⟩ /- ACH_MVIOL, R331 -/]

/-- All register rows of the ACQ block. -/
def rowsACQ : List RegRow := rowsACQ1 ++ rowsACQ2

/-- Register rows of the EXC block, in map order (R33). -/
def rowsEXC : List RegRow := [
  ⟨0x0010, [], 2, 64, .const 0x0#32, [⟨31, 0, .sta, false⟩], .block, .plain, []⟩, /- EXC_WR, R331 -/
  ⟨0x0018, [], 2, 64, .const 0x0#32, [⟨31, 0, .sta, false⟩], .block, .plain, []⟩, /- EXC_OLD, R331 -/
  ⟨0x0020, [], 1, 32, .const 0x0#32, [⟨31, 0, .sta, true⟩], .block, .plain, []⟩, /- EXC_OVFSZ, R331 -/
  ⟨0x0024, [], 1, 32, .const 0x0#32, [⟨0, 0, .lat, false⟩], .block, .plain, []⟩, /- EXC_LAT, R331 -/
  ⟨0x0028, [], 1, 32, .const 0x0#32, [⟨31, 0, .run, false⟩], .block, .plain, [.zeroClears]⟩ /- EXC_LOST, R331 -/]

/-- Register rows of the HBM block, in map order (R33). -/
def rowsHBM1 : List RegRow := [
  ⟨0x0010, [], 1, 32, .const 0x00100040#32, [⟨23, 16, .cfg, false⟩, ⟨15, 0, .cfg, false⟩], .block, .plain, [.nz 23 16, .nz 15 0]⟩, /- HBM_CFG, R352 -/
  ⟨0x0014, [], 1, 32, .const 0x0#32, [⟨9, 8, .sta, false⟩, ⟨1, 0, .run, false⟩], .block, .own, []⟩, /- HBM_RATE, R352 -/
  ⟨0x0018, [], 1, 32, .const 0x0#32, [⟨0, 0, .run, false⟩], .block, .own, []⟩, /- HBM_CMD, R352 -/
  ⟨0x001C, [], 1, 32, .const 0x0#32, [⟨26, 16, .sta, false⟩, ⟨15, 8, .sta, false⟩, ⟨3, 3, .sta, false⟩, ⟨2, 2, .sta, false⟩, ⟨1, 1, .sta, false⟩, ⟨0, 0, .sta, false⟩], .block, .plain, []⟩, /- HBM_STAT, R352 -/
  ⟨0x0020, [], 1, 32, .const 0x0#32, [⟨6, 6, .lat, false⟩, ⟨5, 5, .lat, false⟩, ⟨4, 4, .lat, false⟩, ⟨3, 3, .lat, false⟩, ⟨2, 2, .lat, false⟩, ⟨1, 1, .lat, false⟩, ⟨0, 0, .lat, false⟩], .block, .plain, []⟩, /- HBM_LAT, R352 -/
  ⟨0x0024, [], 1, 32, .const 0x0#32, [⟨31, 0, .run, false⟩], .block, .plain, [.zeroClears]⟩, /- HBM_CECNT, R352 -/
  ⟨0x0028, [], 1, 32, .const 0x0#32, [⟨31, 0, .run, false⟩], .block, .plain, [.zeroClears]⟩, /- HBM_UECNT, R352 -/
  ⟨0x002C, [], 1, 32, .const 0x0#32, [⟨31, 0, .run, false⟩], .block, .plain, [.zeroClears]⟩, /- HBM_SPLITS, R352 -/
  ⟨0x0030, [], 1, 32, .const 0x00000018#32, [⟨15, 0, .run, false⟩], .block, .plain, []⟩, /- HBM_SCRUB, R352 -/
  ⟨0x0040, [], 1, 32, .const 0x0#32, [⟨5, 0, .run, false⟩], .block, .plain, []⟩, /- HBM_ELOG_SEL, R352 -/
  ⟨0x0044, [], 1, 32, .const 0x0#32, [⟨31, 0, .sta, false⟩], .block, .view, []⟩, /- HBM_ELOG_0, R352 -/
  ⟨0x0048, [], 1, 32, .const 0x0#32, [⟨31, 0, .sta, false⟩], .block, .view, []⟩, /- HBM_ELOG_1, R352 -/
  ⟨0x004C, [], 2, 64, .const 0x0#32, [⟨31, 0, .sta, false⟩], .block, .view, []⟩, /- HBM_ELOG_T, R352 -/
  ⟨0x0100, [(16, 0x10)], 1, 32, .const 0x0#32, [⟨14, 0, .sta, true⟩], .block, .plain, []⟩, /- HBM_RGN_BASE, R352 -/
  ⟨0x0104, [(16, 0x10)], 1, 32, .const 0x0#32, [⟨14, 0, .sta, true⟩], .block, .plain, []⟩, /- HBM_RGN_SIZE, R352 -/
  ⟨0x0108, [(16, 0x10)], 1, 32, .const 0x0#32, [⟨17, 16, .sta, true⟩, ⟨11, 8, .sta, true⟩, ⟨3, 0, .sta, true⟩], .block, .plain, []⟩, /- HBM_RGN_KIND, R352 -/
  ⟨0x010C, [(16, 0x10)], 1, 32, .const 0x0#32, [], .block, .plain, []⟩, /- HBM_RGN_RSV, R352 -/
  ⟨0x0200, [(10, 0x10)], 1, 32, .const 0x0#32, [⟨15, 8, .sta, true⟩, ⟨7, 0, .sta, true⟩], .block, .plain, []⟩ /- HBM_REQ_RES, R352 -/]

/-- Register rows of the HBM block, in map order (R33). -/
def rowsHBM2 : List RegRow := [
  ⟨0x0204, [(10, 0x10)], 1, 32, .tab [0x40#32, 0x100#32, 0x10#32, 0x40#32, 0x40#32, 0x0#32, 0x0#32, 0x0#32, 0x0#32, 0x0#32], [⟨15, 0, .sta, false⟩], .block, .plain, []⟩, /- HBM_REQ_BURST, R352 -/
  ⟨0x0208, [(10, 0x10)], 1, 32, .const 0x0#32, [⟨31, 0, .sta, false⟩], .block, .view, []⟩, /- HBM_REQ_BW, R352 -/
  ⟨0x020C, [(10, 0x10)], 1, 32, .const 0x0#32, [⟨31, 0, .run, false⟩], .block, .plain, [.zeroClears]⟩, /- HBM_REQ_LMAX, R352 -/
  ⟨0x0400, [(16, 0x10)], 1, 32, .const 0x0#32, [⟨11, 8, .sta, false⟩, ⟨6, 0, .sta, false⟩], .block, .plain, []⟩, /- HBM_PC_DEPTH, R352 -/
  ⟨0x0404, [(16, 0x10)], 1, 32, .const 0x0#32, [⟨31, 0, .run, false⟩], .block, .plain, [.zeroClears]⟩, /- HBM_PC_INORD, R352 -/
  ⟨0x0408, [(16, 0x10)], 1, 32, .const 0x0#32, [⟨31, 0, .sta, false⟩], .block, .plain, []⟩ /- HBM_PC_HITS, R352 -/]

/-- All register rows of the HBM block. -/
def rowsHBM : List RegRow := rowsHBM1 ++ rowsHBM2

/-- Register rows of the LNK block, in map order (R33). -/
def rowsLNK1 : List RegRow := [
  ⟨0x0010, [], 1, 32, .const 0x0#32, [⟨4, 4, .sta, false⟩, ⟨3, 3, .sta, false⟩, ⟨2, 2, .sta, false⟩, ⟨1, 1, .sta, false⟩, ⟨0, 0, .sta, false⟩], .block, .plain, []⟩, /- LNK_STAT, R431 -/
  ⟨0x0014, [], 1, 32, .const 0x0#32, [⟨6, 6, .lat, false⟩, ⟨5, 5, .lat, false⟩, ⟨4, 4, .lat, false⟩, ⟨3, 3, .lat, false⟩, ⟨2, 2, .lat, false⟩, ⟨1, 1, .lat, false⟩, ⟨0, 0, .lat, false⟩], .block, .plain, []⟩, /- LNK_LAT, R431 -/
  ⟨0x0018, [], 1, 32, .const 0x000000AA#32, [⟨7, 6, .run, false⟩, ⟨5, 4, .run, false⟩, ⟨3, 2, .run, false⟩, ⟨1, 0, .run, false⟩], .block, .plain, []⟩, /- LNK_STRM, R431 -/
  ⟨0x0100, [(2, 0x40)], 1, 32, .const 0x3#32, [⟨2, 2, .run, false⟩, ⟨1, 1, .run, false⟩, ⟨0, 0, .run, false⟩], .block, .own, []⟩, /- LP_CTL, R431 -/
  ⟨0x0104, [(2, 0x40)], 1, 32, .const 0x00400000#32, [⟨31, 16, .cfg, false⟩, ⟨3, 2, .cfg, false⟩, ⟨1, 0, .cfg, false⟩], .port, .plain, [.rng 31 16 48 65535, .rng 3 2 0 2, .rng 1 0 0 2]⟩, /- LP_CFG, R431 -/
  ⟨0x0108, [(2, 0x40)], 1, 32, .const 0x03E803E8#32, [⟨31, 16, .run, false⟩, ⟨15, 0, .run, false⟩], .block, .plain, []⟩, /- LP_PWR, R431 -/
  ⟨0x010C, [(2, 0x40)], 1, 32, .const 0x0#32, [⟨31, 28, .sta, false⟩, ⟨27, 26, .sta, false⟩, ⟨25, 24, .sta, false⟩, ⟨23, 22, .sta, false⟩, ⟨21, 20, .sta, false⟩, ⟨19, 19, .sta, false⟩, ⟨18, 18, .sta, false⟩, ⟨17, 16, .sta, false⟩, ⟨10, 0, .sta, false⟩], .block, .plain, []⟩, /- LP_STAT, R431 -/
  ⟨0x0110, [(2, 0x40)], 1, 32, .const 0x0#32, [⟨31, 0, .sta, false⟩], .block, .view, []⟩, /- LP_CRD, R431 -/
  ⟨0x0114, [(2, 0x40)], 1, 32, .const 0x0#32, [⟨31, 0, .run, false⟩], .block, .plain, [.zeroClears]⟩, /- LP_REPLAY, R431 -/
  ⟨0x0118, [(2, 0x40)], 1, 32, .const 0x0#32, [⟨31, 0, .run, false⟩], .block, .plain, [.zeroClears]⟩, /- LP_CRCERR, R431 -/
  ⟨0x011C, [(2, 0x40)], 1, 32, .const 0x0#32, [⟨31, 0, .run, false⟩], .block, .plain, [.zeroClears]⟩, /- LP_PROTO, R431 -/
  ⟨0x0120, [(2, 0x40)], 1, 32, .const 0x0#32, [⟨31, 0, .run, false⟩], .block, .plain, [.zeroClears]⟩, /- LP_RETRAIN, R431 -/
  ⟨0x0124, [(2, 0x40)], 1, 32, .const 0x0#32, [⟨31, 0, .run, false⟩], .block, .plain, [.zeroClears]⟩, /- LP_SESFAIL, R431 -/
  ⟨0x0200, [], 1, 32, .const 0x0#32, [⟨31, 28, .sta, false⟩, ⟨23, 22, .sta, false⟩, ⟨15, 0, .sta, false⟩], .block, .plain, []⟩, /- LC_STAT, R431 -/
  ⟨0x0204, [], 1, 32, .const 0x0#32, [⟨31, 0, .run, false⟩], .block, .plain, [.zeroClears]⟩, /- LC_CORR, R431 -/
  ⟨0x0208, [], 1, 32, .const 0x0#32, [⟨31, 0, .run, false⟩], .block, .plain, [.zeroClears]⟩, /- LC_LOST, R431 -/
  ⟨0x020C, [], 1, 32, .const 0x0#32, [⟨31, 0, .run, false⟩], .block, .plain, [.zeroClears]⟩, /- LC_REPLAY, R431 -/
  ⟨0x0240, [], 1, 32, .const 0x0#32, [⟨0, 0, .run, false⟩], .block, .plain, []⟩ /- LR_CFG, R431 -/]

/-- Register rows of the LNK block, in map order (R33). -/
def rowsLNK2 : List RegRow := [
  ⟨0x0244, [], 1, 32, .const 0x0#32, [⟨31, 28, .sta, false⟩, ⟨15, 0, .sta, false⟩], .block, .plain, []⟩, /- LR_STAT, R431 -/
  ⟨0x0248, [], 1, 32, .const 0x0#32, [⟨31, 0, .run, false⟩], .block, .plain, [.zeroClears]⟩, /- LR_PASS, R431 -/
  ⟨0x024C, [], 1, 32, .const 0x0#32, [⟨31, 0, .sta, false⟩], .block, .plain, []⟩, /- LR_RLAT, R431 -/
  ⟨0x0250, [], 1, 32, .const 0x0#32, [⟨31, 0, .run, false⟩], .block, .plain, [.zeroClears]⟩ /- LR_CRCERR, R431 -/]

/-- All register rows of the LNK block. -/
def rowsLNK : List RegRow := rowsLNK1 ++ rowsLNK2

/-- Register rows of the TWN block, in map order (R33). -/
def rowsTWN : List RegRow := [
  ⟨0x0010, [], 1, 32, .const 0x00640A80#32, [⟨31, 16, .sta, true⟩, ⟨15, 8, .sta, true⟩, ⟨7, 7, .sta, true⟩, ⟨6, 6, .sta, true⟩, ⟨5, 5, .sta, true⟩, ⟨4, 4, .sta, true⟩, ⟨0, 0, .sta, true⟩], .block, .plain, []⟩, /- TWN_CFG, R396 -/
  ⟨0x0014, [], 1, 32, .const 0x0#32, [⟨31, 28, .sta, false⟩, ⟨27, 24, .sta, false⟩, ⟨3, 3, .sta, false⟩, ⟨2, 2, .sta, false⟩, ⟨1, 1, .sta, false⟩, ⟨0, 0, .sta, false⟩], .block, .plain, []⟩, /- TWN_STAT, R396 -/
  ⟨0x0018, [], 1, 32, .const 0x0#32, [⟨2, 2, .run, false⟩, ⟨1, 1, .run, false⟩, ⟨0, 0, .run, false⟩], .block, .own, []⟩, /- TWN_CMD, R396 -/
  ⟨0x001C, [], 1, 32, .const 0x0#32, [⟨5, 5, .lat, false⟩, ⟨4, 4, .lat, false⟩, ⟨3, 3, .lat, false⟩, ⟨2, 2, .lat, false⟩, ⟨1, 1, .lat, false⟩, ⟨0, 0, .lat, false⟩], .block, .plain, []⟩, /- TWN_LAT, R396 -/
  ⟨0x0020, [], 1, 32, .const 0x0#32, [⟨31, 28, .sta, false⟩, ⟨25, 25, .sta, false⟩, ⟨24, 24, .sta, false⟩, ⟨3, 0, .sta, false⟩], .block, .plain, []⟩, /- TWN_COL, R396 -/
  ⟨0x0024, [], 3, 96, .const 0x0#32, [⟨31, 0, .sta, false⟩], .block, .plain, []⟩, /- TWN_COLT, R396 -/
  ⟨0x0030, [], 2, 64, .const 0x0#32, [⟨31, 0, .sta, false⟩], .block, .plain, []⟩, /- TWN_DIVTICK, R396 -/
  ⟨0x0038, [], 2, 64, .const 0x0#32, [⟨31, 0, .sta, false⟩], .block, .plain, []⟩, /- TWN_TICKS, R396 -/
  ⟨0x0040, [], 1, 32, .const 0x0#32, [⟨31, 28, .sta, false⟩, ⟨15, 8, .sta, false⟩, ⟨7, 0, .sta, false⟩], .block, .plain, []⟩, /- TWN_JOIN, R396 -/
  ⟨0x0044, [], 1, 32, .const 0x00000064#32, [⟨31, 0, .sta, true⟩], .block, .plain, []⟩, /- TWN_PTOLV, R396 -/
  ⟨0x0048, [], 1, 32, .const 0x0000C350#32, [⟨31, 0, .sta, true⟩], .block, .plain, []⟩, /- TWN_PTOLI, R396 -/
  ⟨0x004C, [], 1, 32, .const 0x00000008#32, [⟨31, 0, .sta, true⟩], .block, .plain, []⟩, /- TWN_PN, R396 -/
  ⟨0x0050, [], 1, 32, .const 0x00007530#32, [⟨31, 0, .sta, true⟩], .block, .plain, []⟩, /- TWN_FWLEAD, R396 -/
  ⟨0x0060, [(4, 0x4)], 1, 32, .const 0x0#32, [⟨31, 0, .sta, true⟩], .block, .plain, []⟩, /- TWN_COLMASK, R396 -/
  ⟨0x0070, [(4, 0x4)], 1, 32, .const 0x0#32, [⟨31, 0, .sta, true⟩], .block, .plain, []⟩, /- TWN_BLMASK, R396 -/
  ⟨0x0100, [(16, 0x4)], 1, 32, .const 0x0#32, [⟨31, 0, .sta, false⟩], .block, .plain, []⟩, /- TWN_PLAUS, R396 -/
  ⟨0x0140, [], 1, 32, .const 0x0#32, [⟨31, 0, .run, false⟩], .block, .plain, [.zeroClears]⟩, /- TWN_PCNT, R396 -/
  ⟨0x0144, [], 1, 32, .const 0x0#32, [⟨31, 0, .sta, false⟩], .block, .plain, []⟩ /- TWN_SHIPR, R396 -/]

/-- Register rows of the CAL block, in map order (R33). -/
def rowsCAL1 : List RegRow := [
  ⟨0x0010, [], 1, 32, .const 0x032A0014#32, [⟨31, 20, .cfg, false⟩, ⟨19, 16, .cfg, false⟩, ⟨15, 0, .cfg, false⟩], .block, .plain, [.nz 31 20, .rng 19 16 4 15, .nz 15 0]⟩, /- CAL_CFG, R370 -/
  ⟨0x0014, [], 1, 32, .const 0x00000100#32, [⟨23, 0, .run, false⟩], .block, .plain, [.nz 23 0]⟩, /- CAL_SLEW, R370 -/
  ⟨0x0018, [], 1, 32, .const 0x004C4B40#32, [⟨31, 0, .cfg, false⟩], .block, .plain, [.nz 31 0]⟩, /- CAL_FSV, R370 -/
  ⟨0x001C, [], 1, 32, .const 0x05F5E100#32, [⟨31, 0, .cfg, false⟩], .block, .plain, [.nz 31 0]⟩, /- CAL_FSI, R370 -/
  ⟨0x0020, [], 1, 32, .const 0x0E100032#32, [⟨31, 16, .cfg, false⟩, ⟨15, 0, .cfg, false⟩], .block, .plain, [.nz 15 0]⟩, /- CAL_REFCFG, R370 -/
  ⟨0x0024, [], 1, 32, .const 0x0#32, [⟨31, 31, .sta, false⟩, ⟨30, 30, .sta, false⟩, ⟨29, 29, .sta, false⟩, ⟨23, 0, .sta, false⟩], .block, .plain, []⟩, /- CAL_REFSTAT, R370 -/
  ⟨0x0028, [], 1, 32, .const 0x00000002#32, [⟨15, 0, .cfg, false⟩], .block, .plain, [.nz 15 0]⟩, /- CAL_RESMAX, R370 -/
  ⟨0x002C, [], 1, 32, .const 0x0#32, [⟨31, 31, .run, false⟩, ⟨1, 0, .run, false⟩], .block, .own, []⟩, /- CAL_CMD, R370 -/
  ⟨0x0030, [], 1, 32, .const 0x0#32, [⟨3, 3, .lat, false⟩, ⟨2, 2, .lat, false⟩, ⟨1, 1, .lat, false⟩, ⟨0, 0, .lat, false⟩], .block, .plain, []⟩, /- CAL_LAT, R370 -/
  ⟨0x0034, [], 1, 32, .const 0x0#32, [⟨31, 30, .sta, false⟩, ⟨29, 29, .sta, false⟩, ⟨15, 0, .sta, false⟩], .block, .plain, []⟩, /- CAL_REC, R370 -/
  ⟨0x0100, [(4, 0x40)], 1, 32, .const 0x0#32, [⟨31, 31, .run, false⟩, ⟨30, 30, .run, false⟩, ⟨25, 24, .run, false⟩, ⟨21, 20, .run, false⟩, ⟨13, 8, .run, false⟩, ⟨1, 0, .run, false⟩], .block, .own, []⟩, /- CALQ_CMD, R370 -/
  ⟨0x0104, [(4, 0x40)], 1, 32, .const 0x0#32, [⟨31, 28, .sta, false⟩, ⟨27, 24, .sta, false⟩, ⟨21, 20, .sta, false⟩, ⟨13, 8, .sta, false⟩, ⟨1, 0, .sta, false⟩], .block, .plain, []⟩, /- CALQ_STAT, R370 -/
  ⟨0x0108, [(4, 0x40), (4, 0x4)], 1, 32, .tab [0x000F4240#32, 0x002625A0#32, 0x003D0900#32, 0x0044AA20#32], [⟨31, 0, .run, false⟩], .block, .plain, []⟩, /- CALQ_LVL, R370 -/
  ⟨0x0118, [(4, 0x40)], 1, 32, .const 0x0#32, [⟨31, 0, .run, false⟩], .block, .plain, []⟩, /- CALQ_RSH, R370 -/
  ⟨0x011C, [(4, 0x40)], 2, 56, .const 0x0#32, [⟨31, 0, .sta, false⟩], .block, .plain, []⟩, /- CALQ_F0, R370 -/
  ⟨0x0124, [(4, 0x40)], 2, 48, .const 0x0#32, [⟨31, 0, .sta, false⟩], .block, .plain, []⟩, /- CALQ_C0, R370 -/
  ⟨0x012C, [(4, 0x40)], 2, 48, .const 0x0#32, [⟨31, 0, .sta, false⟩], .block, .plain, []⟩, /- CALQ_C1, R370 -/
  ⟨0x0134, [(4, 0x40)], 2, 48, .const 0x0#32, [⟨31, 0, .sta, false⟩], .block, .plain, []⟩ /- CALQ_C2, R370 -/]

/-- Register rows of the CAL block, in map order (R33). -/
def rowsCAL2 : List RegRow := [
  ⟨0x013C, [(4, 0x40)], 1, 32, .const 0x0#32, [⟨31, 0, .sta, false⟩], .block, .plain, []⟩ /- CALQ_RESID, R370 -/]

/-- All register rows of the CAL block. -/
def rowsCAL : List RegRow := rowsCAL1 ++ rowsCAL2

/-- Register rows of the MGT block, in map order (R33). -/
def rowsMGT : List RegRow := [
  ⟨0x0010, [], 1, 32, .const 0x0#32, [⟨31, 24, .sta, false⟩, ⟨23, 22, .sta, false⟩, ⟨20, 16, .sta, false⟩, ⟨12, 8, .sta, false⟩, ⟨0, 0, .sta, false⟩], .block, .plain, []⟩, /- MGT_STAT, R501 -/
  ⟨0x0014, [], 1, 32, .const 0x0#32, [⟨4, 4, .lat, false⟩, ⟨3, 3, .lat, false⟩, ⟨2, 2, .lat, false⟩, ⟨1, 1, .lat, false⟩, ⟨0, 0, .lat, false⟩], .block, .plain, []⟩, /- MGT_LAT, R501 -/
  ⟨0x0018, [(2, 0x4)], 1, 32, .const 0x0#32, [⟨31, 0, .lat, false⟩], .block, .plain, []⟩, /- MGT_WARNLAT, R501 -/
  ⟨0x0020, [], 1, 32, .const 0x0#32, [⟨7, 4, .sta, false⟩, ⟨3, 2, .sta, false⟩, ⟨1, 1, .sta, false⟩, ⟨0, 0, .sta, false⟩], .block, .plain, []⟩, /- MGT_FW, R501 -/
  ⟨0x0024, [(2, 0x4)], 1, 32, .const 0x0#32, [⟨31, 0, .sta, false⟩], .block, .plain, []⟩, /- MGT_FWVER, R501 -/
  ⟨0x002C, [], 1, 32, .const 0x00000258#32, [⟨15, 0, .run, false⟩], .block, .plain, [.nz 15 0]⟩, /- MGT_CONFTO, R501 -/
  ⟨0x0030, [], 2, 64, .const 0x0#32, [⟨31, 0, .sta, false⟩], .block, .plain, []⟩, /- MGT_LOGNEXT, R501 -/
  ⟨0x0038, [], 2, 64, .const 0x0#32, [⟨31, 0, .sta, false⟩], .block, .plain, []⟩, /- MGT_LOGOLD, R501 -/
  ⟨0x0040, [], 1, 32, .const 0x0#32, [⟨31, 0, .run, false⟩], .block, .plain, [.zeroClears]⟩, /- MGT_WDOG, R501 -/
  ⟨0x0100, [(34, 0x4)], 1, 32, .const 0x0#32, [⟨31, 0, .sta, false⟩], .block, .plain, []⟩, /- MGT_SENS, R501 -/
  ⟨0x0200, [(12, 0x4)], 1, 32, .const 0x0#32, [⟨31, 0, .sta, false⟩], .block, .plain, []⟩, /- MGT_RPWR, R501 -/
  ⟨0x0300, [(34, 0x4)], 1, 32, .const 0x7FFF8000#32, [⟨31, 16, .run, false⟩, ⟨15, 0, .run, false⟩], .block, .plain, []⟩ /- MGT_WARN, R501 -/]

/-- Register rows of the STR block, in map order (R33). -/
def rowsSTR : List RegRow := [
  ⟨0x0010, [], 1, 32, .const 0x0#32, [⟨31, 28, .run, false⟩, ⟨19, 16, .run, false⟩, ⟨1, 0, .run, false⟩], .block, .own, []⟩, /- STR_CMD, R447 -/
  ⟨0x0014, [], 2, 64, .const 0x0#32, [⟨31, 0, .run, false⟩], .block, .plain, []⟩, /- STR_ADDR, R447 -/
  ⟨0x001C, [], 1, 32, .const 0x0#32, [⟨31, 28, .sta, false⟩, ⟨27, 24, .sta, false⟩, ⟨19, 16, .sta, false⟩, ⟨4, 4, .sta, false⟩, ⟨3, 3, .sta, false⟩, ⟨2, 2, .sta, false⟩, ⟨1, 0, .sta, false⟩], .block, .plain, []⟩, /- STR_STAT, R447 -/
  ⟨0x0020, [], 1, 32, .const 0x0#32, [⟨2, 2, .lat, false⟩, ⟨1, 1, .lat, false⟩, ⟨0, 0, .lat, false⟩], .block, .plain, []⟩, /- STR_LAT, R447 -/
  ⟨0x0024, [], 2, 64, .const 0x0#32, [⟨31, 0, .sta, false⟩], .block, .plain, []⟩, /- STR_FOFF, R447 -/
  ⟨0x002C, [], 2, 64, .const 0x0#32, [⟨31, 0, .sta, false⟩], .block, .plain, []⟩, /- STR_SERIAL, R447 -/
  ⟨0x0040, [], 12, 384, .const 0x0#32, [⟨31, 0, .sta, false⟩], .block, .plain, []⟩, /- STR_DIG, R447 -/
  ⟨0x0070, [], 12, 384, .const 0x0#32, [⟨31, 0, .sta, false⟩], .block, .plain, []⟩, /- STR_TDIG, R447 -/
  ⟨0x00A0, [], 1, 32, .const 0x0#32, [⟨31, 0, .run, false⟩], .block, .plain, [.zeroClears]⟩ /- STR_LOADS, R447 -/]

/-- Register rows of the SEC block, in map order (R33). -/
def rowsSEC : List RegRow := [
  ⟨0x0010, [], 1, 32, .const 0x0#32, [⟨11, 11, .sta, false⟩, ⟨10, 10, .sta, false⟩, ⟨9, 9, .sta, false⟩, ⟨8, 8, .sta, false⟩, ⟨7, 7, .sta, false⟩, ⟨6, 4, .sta, false⟩, ⟨2, 0, .sta, false⟩], .block, .plain, []⟩, /- SEC_STAT, R482 -/
  ⟨0x0014, [], 1, 32, .const 0x0#32, [⟨4, 4, .lat, false⟩, ⟨3, 3, .lat, false⟩, ⟨2, 2, .lat, false⟩, ⟨1, 1, .lat, false⟩, ⟨0, 0, .lat, false⟩], .block, .plain, []⟩, /- SEC_LAT, R482 -/
  ⟨0x0018, [], 1, 32, .const 0x0#32, [⟨31, 0, .sta, false⟩], .block, .plain, []⟩, /- SEC_FWVER, R482 -/
  ⟨0x0020, [(4, 0x4)], 1, 32, .const 0x0#32, [⟨31, 0, .sta, false⟩], .block, .plain, []⟩, /- SEC_FLOOR, R482 -/
  ⟨0x0030, [], 1, 32, .const 0x0#32, [⟨22, 16, .sta, false⟩, ⟨15, 0, .sta, false⟩], .block, .plain, []⟩, /- SEC_SLOTS, R482 -/
  ⟨0x0034, [], 2, 64, .const 0x0#32, [⟨31, 0, .sta, false⟩], .block, .plain, []⟩, /- SEC_HSS, R482 -/
  ⟨0x003C, [], 1, 32, .const 0x0#32, [⟨17, 17, .sta, false⟩, ⟨16, 16, .sta, false⟩, ⟨12, 0, .sta, false⟩], .block, .plain, []⟩, /- SEC_HSSE, R482 -/
  ⟨0x0040, [], 1, 32, .const 0x0#32, [⟨16, 0, .sta, false⟩], .block, .plain, []⟩, /- SEC_SEALQ, R482 -/
  ⟨0x0044, [(2, 0x4)], 1, 32, .const 0x0#32, [⟨31, 31, .sta, false⟩, ⟨29, 28, .sta, false⟩, ⟨27, 27, .sta, false⟩, ⟨15, 0, .sta, false⟩], .block, .plain, []⟩ /- SEC_SESS, R482 -/]

/-- Register rows of the ISL block, in map order (R33). -/
def rowsISL1 : List RegRow := [
  ⟨0x0010, [], 1, 32, .const 0x0#32, [⟨4, 4, .sta, true⟩, ⟨3, 3, .sta, false⟩, ⟨2, 2, .sta, false⟩, ⟨1, 1, .sta, false⟩, ⟨0, 0, .sta, false⟩], .block, .plain, []⟩, /- ISL_STAT, R109 -/
  ⟨0x0014, [], 1, 32, .const 0x0#32, [⟨2, 2, .lat, false⟩, ⟨1, 1, .lat, false⟩, ⟨0, 0, .lat, false⟩], .block, .plain, []⟩, /- ISL_LAT, R109 -/
  ⟨0x0018, [], 1, 32, .const 0x0#32, [⟨13, 12, .sta, false⟩, ⟨11, 8, .sta, false⟩, ⟨4, 0, .sta, false⟩], .block, .plain, []⟩, /- ISL_EREJ, R109 -/
  ⟨0x0020, [], 1, 32, .const 0x00964000#32, [⟨31, 16, .cfg, false⟩, ⟨14, 8, .cfg, false⟩, ⟨0, 0, .cfg, false⟩], .block, .plain, [.nz 31 16, .rng 14 8 1 64]⟩, /- PAT_CFG, R109 -/
  ⟨0x0024, [], 2, 64, .const 0x0#32, [⟨31, 0, .run, false⟩], .block, .plain, []⟩, /- PAT_CODE, R109 -/
  ⟨0x002C, [], 1, 32, .const 0x0#32, [⟨0, 0, .run, false⟩], .block, .own, []⟩, /- PAT_CMD, R109 -/
  ⟨0x0030, [], 1, 32, .const 0x00000402#32, [⟨11, 8, .cfg, false⟩, ⟨3, 0, .cfg, false⟩], .block, .plain, [.nz 11 8, .nz 3 0, .special .dllcfg]⟩, /- DLL_CFG, R141 -/
  ⟨0x0034, [], 1, 32, .const 0x0#32, [⟨15, 8, .sta, false⟩, ⟨2, 2, .sta, false⟩, ⟨1, 1, .sta, false⟩, ⟨0, 0, .sta, false⟩], .block, .plain, []⟩, /- DLL_STAT, R141 -/
  ⟨0x0038, [], 1, 32, .const 0x0#32, [⟨0, 0, .run, false⟩], .block, .own, []⟩, /- DLL_CMD, R141 -/
  ⟨0x003C, [], 1, 32, .const 0x0#32, [⟨31, 0, .run, false⟩], .block, .plain, [.zeroClears]⟩, /- DLL_LOSS, R141 -/
  ⟨0x0040, [], 1, 32, .const 0x0#32, [⟨25, 0, .lat, false⟩], .block, .plain, []⟩, /- MON_LAT, R159 -/
  ⟨0x0044, [], 1, 32, .const 0x03FFFFFF#32, [⟨25, 0, .sta, false⟩], .block, .plain, []⟩, /- MON_UNS, R159 -/
  ⟨0x0048, [], 1, 32, .const 0x0#32, [⟨25, 0, .sta, false⟩], .block, .plain, []⟩, /- MON_CAUSE, R159 -/
  ⟨0x0100, [(4, 0x40)], 1, 32, .const 0x0#32, [⟨0, 0, .run, false⟩], .block, .own, []⟩, /- CH_CTL, R109 -/
  ⟨0x0104, [(4, 0x40)], 1, 32, .const 0x00000100#32, [⟨12, 8, .cfg, false⟩], .chan, .plain, [.rng 12 8 1 16]⟩, /- CH_MODE, R109 -/
  ⟨0x0108, [(4, 0x40)], 1, 32, .const 0x0003A980#32, [⟨27, 0, .run, false⟩], .block, .own, []⟩, /- CH_PERIOD, R109 -/
  ⟨0x010C, [(4, 0x40)], 1, 32, .const 0x0#32, [⟨27, 0, .cfg, false⟩], .chan, .plain, [.special .chphase]⟩, /- CH_PHASE, R109 -/
  ⟨0x0110, [(4, 0x40)], 1, 32, .const 0xFFFFFFFF#32, [⟨31, 16, .cfg, false⟩, ⟨15, 0, .cfg, false⟩], .chan, .plain, [.special .chdt]⟩ /- CH_DT, R109 -/]

/-- Register rows of the ISL block, in map order (R33). -/
def rowsISL2 : List RegRow := [
  ⟨0x0114, [(4, 0x40)], 1, 32, .const 0x0#32, [⟨19, 16, .sta, true⟩, ⟨15, 12, .sta, true⟩, ⟨6, 6, .sta, true⟩, ⟨5, 5, .sta, false⟩, ⟨4, 4, .sta, false⟩, ⟨3, 0, .sta, false⟩], .block, .plain, []⟩, /- CH_STAT, R109 -/
  ⟨0x0118, [(4, 0x40)], 1, 32, .const 0x0#32, [⟨31, 0, .run, false⟩], .block, .plain, [.zeroClears]⟩, /- CH_LATE, R109 -/
  ⟨0x011C, [(4, 0x40)], 1, 32, .const 0x0#32, [⟨2, 2, .lat, false⟩, ⟨1, 1, .lat, false⟩, ⟨0, 0, .lat, false⟩], .block, .plain, []⟩, /- CH_INH, R109 -/
  ⟨0x0120, [(4, 0x40)], 1, 32, .const 0x0#32, [⟨15, 0, .sta, true⟩], .block, .plain, []⟩, /- CH_DTFLOOR, R109 -/
  ⟨0x0400, [(26, 0x20)], 1, 32, .tab [0x3#32, 0x3#32, 0x3#32, 0x3#32, 0x3#32, 0x3#32, 0x3#32, 0x3#32, 0x3#32, 0x3#32, 0x3#32, 0x3#32, 0x3#32, 0x3#32, 0x3#32, 0x3#32, 0x3#32, 0x3#32, 0x3#32, 0x3#32, 0x3#32, 0x3#32, 0x3#32, 0x3#32, 0x3#32, 0x4#32], [⟨8, 8, .cfg, false⟩, ⟨5, 4, .cfg, false⟩, ⟨2, 0, .cfg, false⟩], .pin, .plain, [.special .pincfg]⟩, /- PIN_CFG, R109 -/
  ⟨0x0404, [(26, 0x20)], 1, 32, .const 0x0#32, [⟨0, 0, .run, false⟩], .block, .plain, []⟩, /- PIN_LVL, R109 -/
  ⟨0x0408, [(26, 0x20)], 1, 32, .const 0x00000202#32, [⟨20, 16, .sta, true⟩, ⟨10, 10, .sta, true⟩, ⟨9, 8, .sta, true⟩, ⟨7, 4, .sta, true⟩, ⟨1, 1, .sta, false⟩, ⟨0, 0, .sta, false⟩], .block, .plain, []⟩, /- PIN_STAT, R109 -/
  ⟨0x040C, [(26, 0x20)], 1, 32, .const 0x00000800#32, [⟨19, 16, .run, false⟩, ⟨11, 0, .run, false⟩], .block, .plain, []⟩, /- CMP_CFG, R141 -/
  ⟨0x0410, [(26, 0x20)], 1, 32, .const 0x0#32, [⟨17, 16, .run, false⟩, ⟨13, 13, .run, false⟩, ⟨9, 8, .run, false⟩, ⟨7, 0, .run, false⟩], .block, .own, []⟩, /- STP_CFG, R141 -/
  ⟨0x0414, [(26, 0x20)], 1, 32, .const 0x0#32, [⟨1, 1, .sta, false⟩, ⟨0, 0, .sta, false⟩], .block, .view, []⟩, /- STP_STAT, R141 -/
  ⟨0x0800, [(26, 0x20)], 1, 32, .const 0x0#32, [⟨27, 0, .run, false⟩], .block, .plain, []⟩, /- STP_WS, R141 -/
  ⟨0x0804, [(26, 0x20)], 1, 32, .const 0x0#32, [⟨27, 0, .run, false⟩], .block, .plain, []⟩, /- STP_WE, R141 -/
  ⟨0x0808, [(26, 0x20)], 2, 64, .const 0x0#32, [⟨31, 0, .run, false⟩], .block, .plain, []⟩, /- STP_WAS, R141 -/
  ⟨0x0810, [(26, 0x20)], 2, 64, .const 0x0#32, [⟨31, 0, .run, false⟩], .block, .plain, []⟩, /- STP_WAE, R141 -/
  ⟨0x0818, [(26, 0x20)], 1, 32, .const 0x0#32, [⟨31, 0, .run, false⟩], .block, .plain, [.zeroClears]⟩, /- STP_WDISC, R141 -/
  ⟨0x081C, [(26, 0x20)], 1, 32, .const 0x0#32, [⟨31, 0, .run, false⟩], .block, .plain, [.zeroClears]⟩, /- STP_LOST, R141 -/
  ⟨0x0C00, [(9, 0x40)], 1, 32, .const 0x0#32, [⟨20, 20, .sta, true⟩, ⟨17, 16, .sta, true⟩, ⟨9, 8, .sta, true⟩, ⟨4, 0, .sta, true⟩], .block, .plain, []⟩, /- MU_BIND, R141 -/
  ⟨0x0C04, [(9, 0x40)], 2, 34, .const 0x600#32, [⟨31, 0, .cfg, false⟩], .unit, .plain, [.wideNz]⟩ /- MU_GATE, R141 -/]

/-- Register rows of the ISL block, in map order (R33). -/
def rowsISL3 : List RegRow := [
  ⟨0x0C0C, [(9, 0x40)], 1, 32, .const 0x00000300#32, [⟨31, 0, .cfg, false⟩], .unit, .plain, [.nz 31 0]⟩, /- MU_HOP, R141 -/
  ⟨0x0C10, [(9, 0x40)], 1, 32, .const 0x00000180#32, [⟨31, 0, .cfg, false⟩], .unit, .plain, []⟩, /- MU_GPH, R141 -/
  ⟨0x0C14, [(9, 0x40)], 1, 32, .const 0x0#32, [⟨8, 8, .run, false⟩, ⟨0, 0, .run, false⟩], .block, .own, []⟩, /- MU_CTL, R141 -/
  ⟨0x0C18, [(9, 0x40)], 1, 32, .const 0x00000403#32, [⟨15, 8, .cfg, false⟩, ⟨7, 0, .cfg, false⟩], .unit, .plain, [.nz 15 8, .rng 7 0 2 255]⟩, /- MU_CFG, R141 -/
  ⟨0x0C1C, [(9, 0x40)], 2, 56, .const 0x0#32, [⟨31, 0, .run, false⟩], .block, .plain, []⟩, /- MU_F0, R141 -/
  ⟨0x0C24, [(9, 0x40)], 2, 48, .const 0x0#32, [⟨31, 0, .run, false⟩], .block, .plain, []⟩, /- MU_C0, R141 -/
  ⟨0x0C2C, [(9, 0x40)], 2, 48, .const 0x0#32, [⟨31, 0, .run, false⟩], .block, .plain, []⟩, /- MU_C1, R141 -/
  ⟨0x0C34, [(9, 0x40)], 2, 48, .const 0x0#32, [⟨31, 0, .run, false⟩], .block, .plain, []⟩, /- MU_C2, R141 -/
  ⟨0x0C3C, [(9, 0x40)], 1, 32, .const 0x0#32, [⟨8, 8, .sta, false⟩, ⟨4, 4, .sta, false⟩, ⟨3, 2, .sta, false⟩, ⟨0, 0, .sta, false⟩], .block, .view, []⟩, /- MU_STAT, R141 -/
  ⟨0x0E80, [(9, 0x20)], 1, 32, .const 0x0#32, [⟨4, 4, .lat, false⟩, ⟨3, 3, .lat, false⟩, ⟨2, 2, .lat, false⟩, ⟨1, 1, .lat, false⟩, ⟨0, 0, .lat, false⟩], .block, .plain, []⟩, /- MU_LAT, R141 -/
  ⟨0x0E84, [(9, 0x20)], 2, 56, .const 0x0#32, [⟨31, 0, .sta, false⟩], .block, .plain, []⟩, /- MU_FRQ, R141 -/
  ⟨0x0E8C, [(9, 0x20)], 1, 32, .const 0x0#32, [⟨31, 0, .sta, false⟩], .block, .plain, []⟩, /- MU_VAL, R141 -/
  ⟨0x0E90, [(9, 0x20)], 1, 32, .const 0x0#32, [⟨31, 0, .run, false⟩], .block, .plain, [.zeroClears]⟩, /- MU_RCNT, R141 -/
  ⟨0x0E94, [(9, 0x20)], 1, 32, .const 0x0#32, [⟨31, 0, .run, false⟩], .block, .plain, [.zeroClears]⟩, /- MU_SCNT, R141 -/
  ⟨0x0E98, [(9, 0x20)], 1, 32, .const 0x0#32, [⟨29, 0, .sta, false⟩], .block, .plain, []⟩, /- MU_N, R141 -/
  ⟨0x0E9C, [(9, 0x20)], 1, 32, .const 0x0#32, [⟨6, 0, .sta, false⟩], .block, .plain, []⟩, /- MU_RSTAT, R141 -/
  ⟨0x0FC0, [(2, 0x10)], 1, 32, .const 0x0#32, [⟨8, 8, .run, false⟩, ⟨4, 0, .run, false⟩], .block, .own, []⟩, /- TAC_CFG, R141 -/
  ⟨0x0FC4, [(2, 0x10)], 1, 32, .const 0x0#32, [⟨0, 0, .run, false⟩], .block, .own, []⟩ /- TAC_CMD, R141 -/]

/-- Register rows of the ISL block, in map order (R33). -/
def rowsISL4 : List RegRow := [
  ⟨0x0FC8, [(2, 0x10)], 1, 32, .const 0x0#32, [⟨17, 16, .sta, false⟩, ⟨10, 8, .sta, false⟩, ⟨0, 0, .sta, false⟩], .block, .plain, []⟩, /- TAC_STAT, R141 -/
  ⟨0x0FCC, [(2, 0x10)], 1, 32, .const 0x0#32, [⟨15, 0, .sta, false⟩], .block, .plain, []⟩, /- TAC_GAIN, R141 -/
  ⟨0x1000, [(26, 0x100), (16, 0x10), (4, 0x4)], 1, 32, .const 0x0#32, [⟨31, 30, .run, false⟩, ⟨27, 0, .run, false⟩], .block, .plain, []⟩, /- EDGE, R109 -/
  ⟨0x3000, [(26, 0x20)], 1, 32, .const 0x0#32, [⟨0, 0, .run, false⟩], .block, .own, []⟩, /- MON_CTL, R159 -/
  ⟨0x3004, [(26, 0x20)], 1, 32, .const 0x00110000#32, [⟨23, 20, .cfg, false⟩, ⟨19, 16, .cfg, false⟩, ⟨10, 8, .cfg, false⟩, ⟨5, 4, .cfg, false⟩, ⟨3, 3, .cfg, false⟩, ⟨2, 2, .cfg, false⟩, ⟨1, 0, .cfg, false⟩], .mon, .plain, [.nz 23 20, .nz 19 16, .rng 1 0 0 2, .rng 10 8 0 5, .special .moncfg]⟩, /- MON_CFG, R159 -/
  ⟨0x3008, [(26, 0x20)], 1, 32, .const 0x0#32, [⟨15, 0, .cfg, false⟩], .mon, .plain, []⟩, /- MON_TDIV, R159 -/
  ⟨0x300C, [(26, 0x20)], 1, 32, .const 0x00000040#32, [⟨11, 0, .cfg, false⟩], .mon, .plain, [.nz 11 0]⟩, /- MON_BLK, R159 -/
  ⟨0x3010, [(26, 0x20)], 1, 32, .const 0x0FFF0000#32, [⟨31, 28, .run, false⟩, ⟨27, 16, .run, false⟩, ⟨15, 12, .run, false⟩, ⟨11, 0, .run, false⟩], .block, .own, []⟩, /- MON_THR, R159 -/
  ⟨0x3014, [(26, 0x20)], 1, 32, .const 0x00000040#32, [⟨8, 8, .sta, false⟩, ⟨6, 6, .sta, false⟩, ⟨5, 5, .sta, false⟩, ⟨4, 4, .sta, false⟩, ⟨3, 3, .sta, false⟩, ⟨2, 2, .sta, false⟩, ⟨1, 1, .sta, false⟩, ⟨0, 0, .sta, false⟩], .block, .plain, []⟩, /- MON_STAT, R159 -/
  ⟨0x3018, [(26, 0x20)], 1, 32, .const 0x0#32, [⟨9, 9, .sta, true⟩, ⟨8, 8, .sta, true⟩, ⟨3, 0, .sta, true⟩], .block, .plain, []⟩, /- MON_BIND, R159 -/
  ⟨0x301C, [(26, 0x20)], 1, 32, .const 0x0#32, [⟨31, 0, .run, false⟩], .block, .plain, [.zeroClears]⟩ /- MON_TRIPS, R159 -/]

/-- All register rows of the ISL block. -/
def rowsISL : List RegRow := rowsISL1 ++ rowsISL2 ++ rowsISL3 ++ rowsISL4

/-- The rows of a block, by its index in REG space (R32): the base divided by 10_0000h. No row: no block there. -/
def blockRows (b : Nat) : List RegRow :=
  match b with
  | 0 => rowsGLB
  | 1 => rowsTBS
  | 2 => rowsFLT
  | 3 => rowsBUS
  | 4 => rowsSCH
  | 5 => rowsSTE
  | 6 => rowsLPE
  | 7 => rowsSEG
  | 10 => rowsACQ
  | 11 => rowsEXC
  | 12 => rowsHBM
  | 13 => rowsLNK
  | 14 => rowsTWN
  | 15 => rowsCAL
  | 16 => rowsMGT
  | 17 => rowsSTR
  | 18 => rowsSEC
  | _ => if 64 ≤ b ∧ b < 128 then rowsISL else []

end Sys2Proof.Machine
end

