-- ==== Sys2Proof/Syntax.lean ====
section
/-! DEFINITION. The commands of the block: one constructor of `Instr` for each row of spec/opcode_table.json, in the
table's order, and the types of their operands. A command that is an event (an arrival, a tick, a timeout) asserts that
its instant has come; what a wire or a medium decides (a CRC verdict, a media error) is an operand. -/
namespace Sys2Proof

/-- A pin island (R8). -/
abbrev Isl := Fin 64
/-- A module channel, 0 to 255 (R84: local channel `c` of island `n` is channel `4n + c`). -/
abbrev Chan := Fin 256
/-- A pin of an island, 0 to 25 (R84). -/
abbrev PinNo := Fin 26
/-- A measurement unit of an island (R128). -/
abbrev UnitNo := Fin 9
/-- A loop engine. -/
abbrev Eng := Fin 8
/-- A host port. -/
abbrev Port := Fin 2
/-- A step engine. -/
abbrev StepEng := Fin 16
/-- A task slot. -/
abbrev TaskNo := BitVec 16
/-- A message queue of the scheduler (R278). -/
abbrev QueueNo := Fin 1024

/-- Who issues an action: an island of the engine die, by its number in the table under R83; a host port; or the active
module of the pair, for a forwarded host transaction of a port (R380). -/
inductive Issuer where
  | island (n : Fin 80)
  | port (p : Port)
  | forwarded (p : Port)
deriving DecidableEq, Repr

/-- The header of a Weadal frame of a host port as it arrives (R406), with the two verdicts of the receiver: the CRC-32
of R405 and, in a session, the tag and counter of R418. `reserved` says that a reserved bit is 1. -/
structure HostHdr where
  vc : BitVec 2
  timed : Bool
  prot : Bool
  reserved : Bool
  seq : BitVec 12
  tag : BitVec 12
  crcGood : Bool
  tagGood : Bool
deriving DecidableEq, Repr

/-- A RD frame: header, address, due time field, and the bytes to read minus 1 (R408). -/
structure RdFrame where
  hdr : HostHdr
  addr : BitVec 48
  due : Count
  lenM1 : BitVec 8
deriving DecidableEq, Repr

/-- A WR frame: header, address, due time field, byte 15 and the data (R408). -/
structure WrFrame where
  hdr : HostHdr
  addr : BitVec 48
  due : Count
  byte15 : BitVec 8
  data : List Byte
deriving DecidableEq, Repr

/-- The body of a ring message (R426), and of a TIME frame of the col link, without its type. -/
structure RingBody where
  trigger : Fin 8
  auto : Bool
  origin : BitVec 16
  hop : BitVec 16
  chan : BitVec 16
  count : Count
  path : Word
  linkt : Word
  rxt : Word
deriving DecidableEq, Repr

/-- The three kinds of link (R398). -/
inductive Link where
  | port (p : Port)
  | col
  | ringIn
  | ringOut
deriving DecidableEq, Repr

/-- A shipped item (R424). -/
inductive ShipItem where
  /-- 01h: a single result of a unit. -/
  | result (isl : Isl) (unit : UnitNo) (flags : BitVec 8) (y : BitVec 32) (due : Count)
  /-- 02h: a latch event of a monitor. -/
  | latch (isl : Isl) (mon : PinNo) (latch unsettled : Bool) (due : Count)
  /-- 03h: the anchor fields of the active. -/
  | anchor (state : BitVec 3) (src : BitVec 2) (valid : Bool) (hop : BitVec 16) (path pherr : Word) (due : Count)
  /-- 04h: a reference level of a calibration sequencer. -/
  | refLevel (isl : Isl) (seq : Fin 4) (r : BitVec 32) (due : Count)
  /-- 05h: a col request. -/
  | col (cause : BitVec 4) (due : Count)
  /-- 06h: a result group of units 0 to 7 of an island: for each unit of the mask its value and flags. -/
  | group (isl : Isl) (rs : List (Fin 8 × BitVec 32 × BitVec 8)) (due : Count)
deriving DecidableEq, Repr

/-- What a FERRY frame writes (R393): bytes of a space at an offset; for a mirrored change, the change's cycle. -/
structure FerryBlock where
  space : BitVec 3
  offset : BitVec 45
  data : List Byte
  cycle : Option Count := none
deriving DecidableEq, Repr

/-- What the security island finds of its redundant records in secure flash at a power-on: whether a record of the floors
(R467), and one of the signing index (R473), reads valid. -/
structure SecureFlash where
  floors : Bool
  hss : Bool
deriving DecidableEq, Repr

/-- A HELLO frame of the col link (R377, R422). -/
structure HelloFrame where
  side : Bool
  prefer : Bool
  state : BitVec 4
  digest : BitVec 384
  csDigest : BitVec 384
deriving DecidableEq, Repr

/-- What a crossing is (R115): a rising or a falling one. -/
inductive Slope where
  | rise | fall
deriving DecidableEq, Repr

/-- The commands. An `upset` is a control-store error that the command meets (R193): the number of the fetch, counted from
0, and whether it is uncorrectable. -/
inductive Instr where
  -- register access
  | regWrite (issuer : Issuer) (addr : BitVec 28) (data : Word)
  | bitAliasWrite (issuer : Issuer) (addr : BitVec 28) (data : Word)
  | blkCtlWrite (issuer : Issuer) (blk : BitVec 7) (en : Bool)
  -- time base
  | tbsStep (issuer : Issuer)
  | tbsAnchor
  | anchorPeriodic
  | timeMsgSend
  | ringTime (m : RingBody) (crcGood : Bool) (arrival : Count)
  | holdTimeout
  | phaseStep
  | freqSlew
  | pllRefLoss (oven : Bool)
  | colTimeSend
  | colTime (m : RingBody) (arrival : Count)
  -- pins
  | patStart (isl : Isl)
  | patCodeEnd (isl : Isl)
  | drvEnWrite (issuer : Issuer) (ch : Chan) (en : Bool)
  | chPeriodWrite (issuer : Issuer) (ch : Chan) (period : BitVec 28)
  | periodStart (ch : Chan)
  | safeNFall
  | safeNRise
  -- stamps
  | dllRelock (issuer : Issuer) (isl : Isl)
  | dllCompare (isl : Isl) (pherr : BitVec 8)
  | dllLockDone (isl : Isl)
  | tacCfgWrite (issuer : Issuer) (isl : Isl) (tac : Fin 2) (en : Bool) (pin : BitVec 5)
  | tacCal (issuer : Issuer) (isl : Isl) (tac : Fin 2)
  | tacCalDone (isl : Isl) (tac : Fin 2) (empty : BitVec 11) (gain : BitVec 16) (table : List (BitVec 13))
  | stpCfgWrite (issuer : Issuer) (isl : Isl) (pin : PinNo) (data : Word)
  | thresholdCrossing (isl : Isl) (pin : PinNo) (slope : Slope) (time : Count) (code : BitVec 10)
  | muEnWrite (issuer : Issuer) (isl : Isl) (unit : UnitNo) (en : Bool)
  | muApply (issuer : Issuer) (isl : Isl) (unit : UnitNo)
  | gateEnd (isl : Isl) (unit : UnitNo)
  | resultDue (isl : Isl) (unit : UnitNo) (f : BitVec 56) (y : BitVec 32) (flags : BitVec 8)
  -- monitors
  | monitorTick (isl : Isl) (mon : PinNo) (v : BitVec 16)
  | monEnWrite (issuer : Issuer) (isl : Isl) (mon : PinNo) (en : Bool)
  | monThrWrite (issuer : Issuer) (isl : Isl) (mon : PinNo) (data : Word)
  | monUnsettledTimeout (isl : Isl) (mon : PinNo)
  -- loops
  | loopUpdate (ch : Chan) (upset : Option (Nat × Bool))
  | lpeFlip (issuer : Issuer) (blk : BitVec 8)
  | lchEnWrite (issuer : Issuer) (ch : Chan) (en : Bool)
  | bgRequest (issuer : Issuer) (eng : Eng) (id : BitVec 8) (blk : BitVec 5)
  | bgAbort (issuer : Issuer) (eng : Eng)
  | bgRoutineRun (eng : Eng) (cycles : Nat) (upset : Option (Nat × Bool))
  | engRestart (issuer : Issuer) (eng : Eng)
  -- segment players
  | seal (seq : BitVec 12)
  | sealDone (seq : BitVec 12)
  | unseal (seq : BitVec 12)
  | ddsrst
  | plStart (issuer : Issuer) (ch : Chan) (seq entry : BitVec 12)
  | plJump (issuer : Issuer) (ch : Chan) (jmode : Bool) (entry : BitVec 12)
  | plStop (issuer : Issuer) (ch : Chan)
  | sampleBoundary
  | refillArrive (ch : Chan) (entry : BitVec 16) (good : Bool)
  -- scheduler
  | qpush (issuer : Issuer) (q : QueueNo) (msg : BitVec 128)
  | qpushRoom (q : QueueNo)
  | ingressTake (q : QueueNo)
  | taskPost (task : TaskNo) (arg : BitVec 32)
  | taskClear (task : TaskNo) (arg : BitVec 32)
  | taskArm (task : TaskNo) (ctl : BitVec 4) (arg : BitVec 32)
  | taskStart (task : TaskNo) (arg : BitVec 32)
  | taskCancel (task : TaskNo)
  | taskReset (task : TaskNo)
  | taskPrio (task : TaskNo) (arg : BitVec 32)
  | taskTimer (task : TaskNo) (guard : Bool) (arg : BitVec 32)
  | taskTimerExpiry (task : TaskNo)
  | taskJudge (task : TaskNo)
  | taskDispatch (eng : StepEng)
  | yieldPoint (eng : StepEng)
  | stageDone (eng : StepEng)
  | stepCommit (task : TaskNo)
  | stepStart (task : TaskNo)
  | stepTimeout (task : TaskNo)
  | taskAgeing (task : TaskNo)
  -- acquisition and excursions
  | trgArm (issuer : Issuer) (t : Fin 8) (a : Count)
  | trgDisarm (issuer : Issuer) (t : Fin 8)
  | trgFire (issuer : Issuer) (t : Fin 8)
  | ringArm (m : RingBody) (crcGood : Bool)
  | ringDisarm (m : RingBody) (crcGood : Bool)
  | ringFire (m : RingBody) (crcGood : Bool)
  | triggerDecide (t : Fin 8)
  | rateEval
  | statusRecord
  | sealInstant
  | sealSign (good : Bool)
  | spillMove (basinB : Bool) (mediaGood : Bool)
  | excursionWrite (kind detail : Byte) (ch : BitVec 16) (time : Count) (value limit : Word)
  | streamSend (p : Port) (cls : Fin 4)
  -- memory
  | refresh (pc : Fin 16) (busy : Bool)
  | scrub (addr : BitVec 35) (verdict : BitVec 2)
  | hbmRequestDone (requester : Fin 10) (addr : BitVec 35) (verdict : BitVec 2)
  | hbmRateReq (issuer : Issuer) (rate : BitVec 2)
  | retrain (issuer : Issuer)
  | hbmTrainDone (good : Bool)
  -- calibration
  | calqStart (issuer : Issuer) (q : Fin 4) (data : Word)
  | calqAbort (issuer : Issuer) (q : Fin 4)
  | calPhaseEnd (q : Fin 4) (r : BitVec 32)
  | calFitDone (q : Fin 4)
  | calCommit (issuer : Issuer) (q : Fin 4)
  | calRecordStored (good : Bool)
  | refCheck
  | refCheckDone (dev : BitVec 24) (opened shorted : Bool)
  -- twin
  | hello (f : HelloFrame)
  | negotiateTimeout
  | peerOwnLow
  | ownConflict
  | presNHigh
  | ship (items : List ShipItem) (corrected lost : Bool)
  | plausColTimeout
  | keep
  | peerFrameTimeout
  | digestSend
  | digest (tick : BitVec 64) (dig : BitVec 256) (blame : Bool)
  | fwd (p : Port) (addr : BitVec 48) (due : Count) (data : List Byte)
  | ferry (f : FerryBlock)
  | twnJoin (issuer : Issuer)
  | joinCopyDone
  | twnLeave (issuer : Issuer)
  | twnCol (issuer : Issuer)
  | colApply (cause : BitVec 4)
  -- links
  | lctl (link : Link) (nak : Bool) (ackSeq : BitVec 12) (limits : Vector (BitVec 8) 4) (crcGood : Bool)
  | lctlSend (link : Link)
  | rd (p : Port) (f : RdFrame)
  | wr (p : Port) (f : WrFrame)
  | strm (p : Port) (hdr : HostHdr) (cls : Fin 4) (taken : BitVec 64)
  | replayTimeout (link : Link)
  | linkDetect (link : Link)
  | pollDone (link : Link)
  | configDone (link : Link) (width rate : BitVec 2)
  | trainTimeout (link : Link)
  | recoveryDone (link : Link) (width rate : BitVec 2)
  | recoveryTimeout (link : Link)
  | lpRetrain (issuer : Issuer) (p : Port)
  | lpEnWrite (issuer : Issuer) (p : Port) (data : Word)
  | lsEntry (link : Link) (transmit : Bool)
  | ldEntry (p : Port) (transmit : Bool)
  | linkWake (link : Link) (transmit : Bool)
  -- structure stream
  | strLoad (issuer : Issuer) (src : BitVec 2) (qmask : BitVec 4)
  | strCheckDone (sigGood : Bool)
  | strApply (issuer : Issuer)
  | strAbort
  | unload (issuer : Issuer)
  | store (good : Bool)
  -- faults
  | faultRaise (raises : List (Fin 128 × Fin 80))
  | reactionBlockReset (src : Fin 128) (islands : List Isl)
  | fltAck (issuer : Issuer) (src : Fin 128)
  | fltStickyWrite (issuer : Issuer) (w : Fin 4) (data : Word)
  | force
  -- resets and power
  | rstcmdDie
  | rstcmdBlock (issuer : Issuer) (code : BitVec 8)
  | rstNLow
  | resetRelease (rstNHigh : Bool)
  | powerOn (selfTestGood : Bool) (flash : SecureFlash) (slotAGood slotBGood : Bool)
  | inputOutOfRange
  | inputReturn
  | holdupExhausted
  -- management
  | sensorSample (values : Vector Word 34) (powers : Vector Word 12)
  | thermalRelease
  | loadWindow (load : BitVec 8)
  | watchdogExpiry
  | status (p : Port) (req : Byte)
  | sensors (p : Port) (req : Byte)
  | history (p : Port) (req : Byte) (sensor : Byte) (from_ : BitVec 64)
  | logread (p : Port) (req : Byte) (index : BitVec 64) (n : BitVec 16)
  | logmark (p : Port) (req : Byte) (text : List Byte)
  | update (p : Port) (req : Byte) (offset : BitVec 45) (len : Word)
  | updateDone (written verified : Bool)
  | activate (p : Port) (req : Byte) (due : Count)
  | confirm (p : Port) (req : Byte)
  | rollback (p : Port) (req : Byte)
  | conftoExpiry
  | strcopy (p : Port) (req : Byte) (k : Byte) (offset : BitVec 45)
  | getreply (p : Port) (req : Byte) (ofReq : Byte)
  | replyReady (p : Port) (req : Byte)
  | replyDiscard (p : Port) (req : Byte)
  -- security
  | secHello (p : Port) (role : Byte) (intOnly : Bool) (nonce qh : List Byte)
  | proof (p : Port) (cred credTrailer ecdsa hss : List Byte)
  | sessionTimeout (p : Port)
  | helloLockEnd (p : Port)
  | close (p : Port)
  | attest (p : Port) (nonce : List Byte)
  | cert (p : Port)
  | sealsig (p : Port) (sealno : Word)
  | selftest (p : Port) (pass : Bool)
  | enroll (p : Port) (slot : Byte) (usage : Byte) (keys : List Byte)
  | enrollCk (p : Port) (slot : Byte) (generation : BitVec 16) (key : BitVec 256) (sig : List Byte)
  | revoke (p : Port) (slot : Byte) (sig : List Byte)
  | floor (p : Port) (which : Byte) (value : Word)
  | mode (p : Port)
  | zeroise (p : Port)
  | spillEraseDone
  | treeReady (epochTree : Bool)
  | portAccess
  -- further events
  | lossOfAlignment (link : Link)
  | entropyHealthFail
  | ageingLearned
  | ovenReady
deriving DecidableEq, Repr

end Sys2Proof
end

