-- ==== Sys2Proof/Machine/State.lean ====
section
/-! DEFINITION. The state of the module as plain data: the registers of every block (sparse, by REG-space address), the
memories, the queue of waiting commands, the actions held until their due times, and the state behind the registers, one
structure per chapter of spec/. -/
namespace Sys2Proof.Machine

/-- A sparse table: pairs of key and value, keys strictly rising, no pair equal to what an unlisted key reads as. -/
abbrev Tab (α : Type) := List (Nat × α)

/-! ## Actions held until they are due (R9, R76) -/

/-- What falls due: a command of the table, or an internal action that has no row of its own. -/
inductive Act where
  /-- A command. -/
  | cmd (i : Instr)
  /-- A post of event flags of R258 to the live task of a channel (or of its gang's leader): bits to set, bits to
  clear. -/
  | flags (ch : Chan) (set clear : BitVec 64)
  /-- A raise of a fault source by an island, due at FLT (R451). -/
  | raise (fs : Fin 128) (isl : Fin 80)
  /-- A read on a control VC that waits for the untimed writes accepted before it (R414). -/
  | read (p : Port) (f : RdFrame)
  /-- A write of a memory space held until its due time (R380, R416): its port, the space of R28, offset, data. -/
  | memWrite (p : Port) (space offset : Nat) (data : List Byte)
  /-- An item of the shipped stream at the standby (R378). -/
  | shipped (it : ShipItem)
  /-- A loop engine's delivery of the edge set of the period served, or GOFF (R172), with the set's four words. -/
  | edges (ch : Chan) (goff : Bool) (set : List Word)
  /-- A message that the scheduler's ingress holds, with its queue (R280, R281). -/
  | msg (q : QueueNo) (m : BitVec 128)
  /-- The cause of a monitor judged for a sample, and the side that made it (R149). -/
  | monCause (isl : Isl) (mon : PinNo) (cause lo : Bool)
  /-- A monitor's latch sets in the cycle after a trip is judged (R149). -/
  | monLatch (isl : Isl) (mon : PinNo) (lo : Bool)
  /-- An accepted enable of a monitor takes effect at a tick (R155). -/
  | monOn (isl : Isl) (mon : PinNo)
  /-- The override of a channel's inhibit set reaches the driver inputs (R103, R148). -/
  | override (ch : Chan)
  /-- The arming of a trigger at A, with TO in µs and AUTO (R313). -/
  | arm (t : Fin 8) (a : Count) (tmo : Word) (auto : Bool)
  /-- The disarming of a trigger by a ring message (R426). -/
  | disarm (t : Fin 8)
  /-- The seal of an instant, once class A holds every record before it: the heads of classes B, C and D (R325). -/
  | seal (t : Count) (hb hc hd : BitVec 384)
  /-- Unit 8 is enabled once the spare's switch has settled (R360). -/
  | spareOn (q : Fin 4)
deriving DecidableEq, Repr

/-- An action with its due time and its issuer. The list of these keeps the order of due time, then of source (R11), then
of issue. -/
structure Due where
  due : Count
  src : Issuer
  act : Act
deriving DecidableEq, Repr

/-! ## What leaves the module -/

/-- A frame or message sent, in order of sending: what the outside world reads from the module. -/
inductive Out where
  /-- A RDR of a host port (R415): VC, TAG, status of R47, data. -/
  | rdr (p : Port) (vc : BitVec 2) (tag : BitVec 12) (status : BitVec 3) (data : List Byte)
  /-- An EVT frame (R408, R421). -/
  | evt (p : Port) (kind : Byte) (code : BitVec 16) (count : Count)
  /-- A STRM frame (R420): class, SPILLED, append index of the first record, the records. -/
  | strm (p : Port) (cls : Fin 4) (spilled : Bool) (index : Nat) (recs : List (List Byte))
  /-- An LCTL frame (R411). -/
  | lctl (l : Link) (nak : Bool) (ackSeq : BitVec 12) (limits : List (BitVec 8))
  /-- A segment of a mailbox reply (R484): CMD, its number with LAST, REQ, STATUS, body. -/
  | mgt (p : Port) (cmd seg req status : Byte) (body : List Byte)
  /-- A segment of a security reply (R479): MSG, its number with LAST, STATUS, body. -/
  | sec (p : Port) (msg seg status : Byte) (body : List Byte)
  /-- A ring message (R426): its MTYPE and body. -/
  | ring (mtype : Byte) (m : RingBody)
  /-- A SHIP frame of the col link (R424). -/
  | ship (items : List ShipItem)
  /-- A HELLO frame of the col link. -/
  | hello (f : HelloFrame)
  /-- A DIGEST frame of the col link (R387). -/
  | digest (tick : BitVec 64) (dig : BitVec 256) (blame : Bool)
  /-- A KEEP frame. -/
  | keep
  /-- A FWD frame: port, address, due time and data of a forwarded write (R380). -/
  | fwd (p : Port) (addr : BitVec 48) (due : Count) (data : List Byte)
  /-- A TIME frame of the col link (R70). -/
  | colTime (m : RingBody)
  /-- A FERRY frame (R393). -/
  | ferry (f : FerryBlock)
  /-- A code sent on CSL of an island: first bit's count, length, cycles per bit, code bits (R98). -/
  | code (isl : Isl) (start : Count) (len div : Nat) (code : BitVec 64)
deriving DecidableEq, Repr

/-! ## Time base (chapter 3) -/

/-- State of the time base behind its registers. -/
structure Tbs where
  /-- Phase error still to be removed by phase steps, in TBU (R67). -/
  phaseRem : Int := 0
  /-- Successive messages with phase error within LOCK_THR (R65). -/
  goodRun : Nat := 0
  /-- The count at the latest phase step since the count was stepped (R67). -/
  lastStep : Option Count := none
  /-- The count at the latest message of the selected source (R65, HOLD_TO). -/
  lastMsg : Count := 0
  /-- The count at which the present LOCKED began (TBS_AGE), and that of the latest change of TBS_FREQ (R56). -/
  lockedFrom : Option Count := none
  lastSlew : Option Count := none
  /-- The frequency word aimed at, in units of 10⁻¹² / 86,400 (R56: ageing is given per day and applied per second). -/
  freqTarget : Int := 0
  /-- The PLL has lost its reference (R68). -/
  refLost : Bool := false
  /-- The phase error stands above 192,000 TBU: one occurrence of FS 10 (R68, R451). -/
  overRun : Bool := false
  /-- The count at which the current holdover began (R82, TBS_HOLD). -/
  holdFrom : Option Count := none
  /-- The body of the latest time message taken or originated: what the active's col-link TIME frame carries (R70). -/
  lastBody : Option RingBody := none
  /-- Its arrival count. -/
  bodyArr : Count := 0
  /-- LINKT of the latest TIME frames sent on the col link, newest first (t3 of R70), and the count at the newest. -/
  colSent : List Word := []
  colLast : Option Count := none
  /-- Arrival count bits of the latest TIME frame received on the col link (RXT of R70). -/
  colArr : Option Word := none
deriving DecidableEq, Repr

/-! ## Pins (chapter 4) -/

/-- A command level as it plays: its latest transition, and the latest falls of the fast levels of a pair (R96). -/
structure Play where
  level : Bool
  trans : Count
  ghFall : Option Count
  glFall : Option Count
deriving DecidableEq, Repr

/-- A stretch of play that has ended: its end, the period start that its edges count from, its set and what it started
from. -/
structure Played where
  until_ : Count
  start : Count
  set : List Word
  play : Play
deriving DecidableEq, Repr

/-- The drive state of an output-role pin: the set that plays in the period and what it started from. -/
structure PinDrv where
  /-- The four edge words that play in the current period (R94). -/
  set : List Word := []
  /-- The command level at the start of the period (R95). -/
  level : Bool := false
  /-- The instant of the latest transition before the period: of the command, or a release (R104). -/
  trans : Count := 0
  /-- The latest falls of the fast levels of a pair before the period (R96). -/
  ghFall : Option Count := none
  glFall : Option Count := none
  /-- The latest transition forced by an inhibit, a disable or GOFF, and the instant from which the pin is held
  (R148). -/
  forced : Option Count := none
  heldAt : Option Count := none
  /-- The stretches of play whose last transitions may still be on their way to the connector, newest first (R148). -/
  before : List Played := []
deriving DecidableEq, Repr

/-- The state of a channel's periods, drivers and deliveries. -/
structure ChanDrv where
  /-- The start of the current period, once a period has been started. -/
  start : Option Count := none
  /-- The anchor of the grid after a CH_PERIOD write (R92). -/
  anchor : Option Count := none
  /-- An accepted CH_PERIOD write that waits for its first period start: due time and period (R92). -/
  newPeriod : Option (Count × BitVec 28) := none
  /-- The due time of an accepted enable that waits for its period start (R106). -/
  enableDue : Option Count := none
  /-- The instant at which DRV_EN last took effect (R93). -/
  since : Option Count := none
  /-- Deliveries since DRV_EN last took effect: `d` of R93. -/
  deliveries : Nat := 0
  /-- The newest delivery: due time, GOFF, slot. -/
  newest : Option (Count × Bool × Nat) := none
  /-- The next slot in TABLE mode (R93). -/
  tblSlot : Nat := 0
  /-- The channel's LOOP-source pins are held under GOFF in the current period (R172). -/
  goff : Bool := true
  /-- The channel's inhibit: from a cause of R102 until the first period start at which none remains (R104). -/
  inhibited : Bool := false
deriving DecidableEq, Repr

/-- A code in progress on CSL (R98). -/
structure Code where
  start : Count
  stop : Count
  len : Nat
  div : Nat
  bits : BitVec 64
deriving DecidableEq, Repr

/-! ## Stamps and measurement (chapter 5) -/

/-- A gate of a measurement unit in progress: its bounds, the counted events in it, the sums of R131 over its stamps,
the flags of R135 that its events and stamps set, and whether it ends STALE (R119, R123). -/
structure Gate where
  start : Count
  stop : Count
  events : Nat := 0
  cnt : Nat := 0
  sn : Nat := 0
  st : Nat := 0
  stt : Nat := 0
  snt : Nat := 0
  flags : BitVec 8 := 0
  stale : Bool := false
deriving DecidableEq, Repr

/-- A coefficient set of a measurement unit (R136). -/
structure Coef where
  f0 : BitVec 56 := 0
  c0 : BitVec 48 := 0
  c1 : BitVec 48 := 0
  c2 : BitVec 48 := 0
deriving DecidableEq, Repr

/-- The state of a measurement unit behind its registers. -/
structure Meas where
  /-- The start of the next gate to open; none while the unit is disabled (R130). -/
  next : Option Count := none
  gates : List Gate := []
  /-- The base set, the goal of a slew, and the blend in 2⁻¹⁶ unit (R361). -/
  base : Coef := {}
  goal : Option Coef := none
  blend : Int := 0
  /-- An APPLY that waits for its gate end: due time and target (R137). -/
  apply : Option (Count × Coef) := none
  /-- The latest computed frequency and value, which a STALE result repeats (R133). -/
  f : BitVec 56 := 0
  y : BitVec 32 := 0
  staleRun : Nat := 0
  /-- Unbroken runs of results with LOST and with a saturated value (R451). -/
  lostRun : Bool := false
  satRun : Bool := false
  /-- A result has fallen due since the unit's enable (R171), the due time and value of the newest one. -/
  valid : Bool := false
  due : Count := 0
  yDue : BitVec 32 := 0
  /-- Successive results beyond the plausibility tolerance, and results for which the check is still suspended (R385). -/
  beyond : Nat := 0
  quiet : Nat := 0
deriving DecidableEq, Repr

/-- The state of a stamper behind its registers: events since the last counted one, the last stamp, counted events not
stamped since then (R115, R117, R120). -/
structure Stamper where
  eligible : Nat := 0
  last : Option Count := none
  gap : Nat := 0
deriving DecidableEq, Repr

/-- A TAC behind its registers: assigned to a pin, and its calibration table in 1/16 TBU (R125, R126). -/
structure Tac where
  assigned : Bool := false
  table : List (BitVec 13) := []
deriving DecidableEq, Repr

/-! ## Monitors (chapter 6) -/

/-- The state of a window monitor behind its registers: whether HI is ABOVE and LO is BELOW, once they have taken a
decisive sample, the trip samples newest first, and the tick at which its enable took effect (R145, R147, R153, R155). -/
structure Mon where
  hi : Option Bool := none
  lo : Option Bool := none
  history : List Bool := []
  since : Option Count := none
  /-- The tick at which an accepted enable takes effect (R155). -/
  enableAt : Option Count := none
  /-- Thresholds that hold through the cycle in which a write of MON_THR falls due (R156): the cycle and the word. -/
  thrOld : Option (Count × Word) := none
  /-- FS 41 has been raised for this enable (R158). -/
  told : Bool := false
  /-- The latch and UNSETTLED that the active shipped (R383). -/
  shadow : Bool := false
  shadowUns : Bool := true
  /-- Changes of the latch and of UNSETTLED in the last 96 cycles, newest first: the instant and the values before it
  (R384). -/
  past : List (Count × Bool × Bool) := []
deriving DecidableEq, Repr

/-! ## Loop engines and the control store (chapters 7 and 8) -/

/-- The RAM parts of the control store (R190 to R192): micro-store and nano-store words, law-table words by id × 8 + word,
table words, and ROM-map entries (ROM address, RAM address), the latest first. -/
structure Ctl where
  micro : Tab (BitVec 20) := []
  nano : Tab (BitVec 192) := []
  law : Tab Word := []
  table : Tab Word := []
  romMap : List (Nat × Nat) := []
deriving DecidableEq, Repr

/-- Microcode in execution (R198, R200, R205, R209 to R211): micro-PC, micro-stack, registers, flags, SAT, scratch, and the
spaces PB, IN, OUT and the buffer of ST or BGB; the microwords executed, and a routine's latest commit. -/
structure Micro where
  pc : Nat := 0
  stack : List Nat := []
  w : List Int := []
  flags : List Bool := []
  sat : Bool := false
  scr : List Byte := []
  pb : List Byte := []
  inp : List Byte := []
  out : List Byte := []
  buf : List Byte := []
  n : Nat := 0
  commits : Nat := 0
  committed : Option (List Byte) := none
  final : Bool := false
deriving DecidableEq, Repr

/-- A background routine of an engine that runs or is cut (R181 to R185). -/
structure Routine where
  id : Nat
  blk : Nat
  m : Micro
  /-- The cycle up to which its microwords have been executed. -/
  ranTo : Count := 0
  /-- It is cut: an update executes, or its context is being restored (R182). -/
  cut : Bool := false
deriving DecidableEq, Repr

/-- The state of a loop engine behind its registers: its requests, its routine, the instant at which its foreground work
ends, and the updates of the latest 2²⁰ cycles with their cycles, newest first (R164, R181, ENG_LOAD). -/
structure LoopEng where
  queue : List (Nat × Nat) := []
  running : Option Routine := none
  /-- A commit made in the present cycle, which shows in the next one (R183, R211): block, bytes, commits so far, FINAL. -/
  commit : Option (Nat × List Byte × Nat × Bool) := none
  busyUntil : Option Count := none
  recent : List (Count × Nat) := []
deriving DecidableEq, Repr

/-- The state of a channel's loop behind its registers. -/
structure LoopChan where
  /-- The engine of the LAW record, and whether there is one; its permitted laws, MINPER and PHASE (R435). -/
  eng : Nat := 0
  bound : Bool := false
  permit : List Nat := []
  minper : Nat := 0
  fixedPhase : Nat := 0
  /-- The declared minimum update divisor (R166), 1 to 16, and the check mode FIXED of its engine. -/
  mindiv : Nat := 1
  /-- The due time of the loop's enable (R188). -/
  since : Option Count := none
  /-- The start of the period that the latest update served (R163). -/
  last : Option Count := none
  /-- The state area, 64 bytes: xv, xi, ic and what a law defines (R205). -/
  area : List Byte := List.replicate 64 0#8
  /-- No update has run since the enable or the latest change of law (R179, R196). -/
  first : Bool := true
  newLaw : Bool := false
  /-- The offsets of R170 and R360 for voltage and current, in 2⁻¹⁶ unit. -/
  offV : Int := 0
  offI : Int := 0
  mismatchRun : Bool := false
deriving DecidableEq, Repr

/-- A measurement quantity of a channel: value, flags and due time of the newest result of one source (R169). -/
structure Quantity where
  y : BitVec 32 := 0
  flags : BitVec 8 := 0
  due : Count := 0
  valid : Bool := false
  /-- Successive STALE results (R171 for shipped ones). -/
  staleRun : Nat := 0
deriving DecidableEq, Repr

/-! ## Segment players (chapter 9) -/

/-- A sample of the set-point as a player emits it (R225): Y, θ, the entry in play, MCODE and FLAGS. -/
structure Sample where
  y : BitVec 32 := 0
  theta : Nat := 0
  entry : Nat := 0
  mcode : BitVec 4 := 0
  flags : BitVec 8 := 0
deriving DecidableEq, Repr

/-- A command of a player that waits for the first boundary at or after its due time (R234, R237, R239). -/
inductive PlCmd where
  | start (seq entry : Nat)
  | stop
  /-- A JUMP to a DONE player. -/
  | jump (jmode : Bool) (entry : Nat)
deriving DecidableEq, Repr

/-- The state of a player behind its registers (R231, R235 to R245). `idx`, `k` and `pos` are the position in the segment of
the sequence entry in play, the shadow position in FALLBACK: the entry, the samples of it played, and its place in the
order of play since play reached the segment. -/
structure Player where
  /-- The commands that wait for a boundary, with their due times, oldest first. -/
  cmds : List (Count × PlCmd) := []
  /-- The latest sample emitted. -/
  sample : Sample := {}
  phi : Nat := 0
  f : Nat := 0
  o : Int := 0
  pw : Nat := 0
  /-- The entry loaded, 32 bytes. -/
  cur : List Byte := []
  idx : Nat := 0
  k : Nat := 0
  pos : Nat := 0
  /-- Passes of the sequence entry that have ended, and samples of the pass played. -/
  passes : Nat := 0
  samp : Nat := 0
  /-- The pass's last sample has been emitted, at this boundary. -/
  ended : Option Count := none
  /-- E_SEGEND is due at the next boundary. -/
  segEnd : Bool := false
  /-- The next sample is the first after a jump. -/
  jumped : Bool := false
  /-- A JUMP that waits for a pass end, with its due time; one whose pass end has been decided. -/
  jump : Option (Count × Bool × Nat) := none
  decided : Option (Bool × Nat) := none
  /-- The position in the fallback segment. -/
  fbIdx : Nat := 0
  fbK : Nat := 0
  /-- Places in the order of play, beyond the first RSIZE, whose entries the refill has placed in the window, and when. -/
  arrived : List (Nat × Count) := []
  satRun : Bool := false
deriving DecidableEq, Repr

/-- The segment island behind its registers: a DDSRST that waits for its boundary, by its due time, and the epoch NE
(R233). -/
structure Seg where
  ddsrst : Option Count := none
  epoch : Nat := 0
deriving DecidableEq, Repr

/-! ## Scheduler (chapters 10 and 11) -/

/-- The states of a task (R272). -/
inductive TaskState where
  | free | dormant | armed | ready | running | staged | waiting | done | faulted | cancelled
deriving DecidableEq, Repr

/-- A step change in preparation or staged (R262, R264, R267): what the decision cycle fixed, the record entered as it stood
then, LOOP steps resolved, and the cycles of the phases that remain (R290). -/
structure Change where
  /-- The first TBU of the decision cycle, F, V and I at it. -/
  decision : Count := 0
  flags : BitVec 64 := 0
  v : BitVec 32 := 0
  i : BitVec 32 := 0
  cause : Nat := 0
  from_ : Nat := 0xFFFF
  dest : Nat := 0
  record : List Byte := []
  invalid : Bool := false
  loops : List Nat := [0, 0, 0, 0]
  /-- A LOOP limit has been reached: E_LOOP at the step start. -/
  loopHit : Bool := false
  plan : List (Nat × Nat) := []
  commitAt : Count := 0
  /-- The step start, once the change is committed. -/
  startAt : Option Count := none
deriving DecidableEq, Repr

/-- A task control block (R271), with what the scheduler holds behind it. -/
structure Task where
  state : TaskState := .free
  prio : Nat := 0
  aged : Bool := false
  /-- The priority in force is UPRIO until the next dispatch (R295). -/
  raised : Bool := false
  /-- A context is saved (R271); it stands in the context store (R293). -/
  ctx : Bool := false
  stored : Bool := false
  base : Nat := 0
  group : Nat := 0
  aset : Nat := 0
  chan : Nat := 0
  chain : Nat := 0xFFFF
  /-- The flag word F and the wait mask W. -/
  f : BitVec 64 := 0
  w : BitVec 64 := 0
  all : Bool := false
  /-- The wait is judged under R261. -/
  stepWait : Bool := false
  delayArmed : Bool := false
  guardArmed : Bool := false
  /-- The guard attaches to the next wait (R287). -/
  guardNext : Bool := false
  table : Nat := 0
  firstStep : Nat := 0
  step : Nat := 0
  lwait : Nat := 0
  endc : Nat := 0
  /-- The loop counters L0 to L3. -/
  loops : List Nat := [0, 0, 0, 0]
  tdue : Option Count := none
  sdue : Option Count := none
  readyAt : Option Count := none
  /-- Flag bits that actions of the present cycle have set, and that cycle (R274). -/
  setNow : BitVec 64 := 0
  setCyc : Count := 0
  /-- Those of them that hardware has set (R281). -/
  hardNow : BitVec 64 := 0
  /-- A CANCEL has ended the task in this cycle while it waited (R285). -/
  cancelCyc : Option Count := none
  /-- The record of the step in force. -/
  record : List Byte := []
  change : Change := {}
  /-- A change committed before a CANCEL, whose step start is still to come (R286). -/
  left : Option Change := none
deriving DecidableEq, Repr

/-- A step engine (R290): its task, the phases of its work from an instant, whether it saves a context, is signalled, and what
R297 measures: stretches of work and dispatch waits, in cycles, newest first. -/
structure StepUnit where
  task : Option Nat := none
  start : Count := 0
  plan : List (Nat × Nat) := []
  saving : Bool := false
  signalled : Bool := false
  busy : List (Nat × Nat) := []
  waits : List (Nat × Nat) := []
deriving DecidableEq, Repr

/-- The scheduler behind its registers and its tasks: queues of messages with their due times (R278), the pushes of a producer
that wait for room, oldest first, and the producers whose latest one was late as it was placed (R279), the tasks on whose flag
word an action has fallen, and those started, in the present cycle (R267, R283). -/
structure Sched where
  queues : Tab (List (Count × BitVec 128)) := []
  held : Tab (List (Nat × BitVec 128)) := []
  lateHeld : List Nat := []
  judge : List Nat := []
  started : List Nat := []
  engs : Tab StepUnit := []
deriving DecidableEq, Repr

/-! ## Acquisition (chapter 12) -/

/-- A reduction in progress for one quantity of a channel (R307). -/
structure Red where
  /-- KIND, level and INTERVAL of the values being formed. -/
  kind : Nat := 0
  lvl : Nat := 0
  intervalCyc : Nat := 0
  interval : Option Nat := none
  n : Nat := 0
  sum : Int := 0
  min : Int := 0
  max : Int := 0
  last : Int := 0
  lastTime : Count := 0
  /-- The flags of the results of the interval in progress. -/
  pend : BitVec 8 := 0
  /-- The record being filled: its flags, its values and their times, its marks. -/
  flags : BitVec 8 := 0
  values : List Word := []
  times : List Count := []
  markIdx : Nat := 15
  mcode : BitVec 4 := 0
  fireIdx : Nat := 15
  fireTrg : Nat := 8
  fireForced : Bool := false
deriving DecidableEq, Repr

/-- A demodulation in progress (R308). -/
structure Demod where
  running : Bool := false
  /-- Under DMODE 2, an interval of the pass in play has reached NPER: the next sample starts another. -/
  cont : Bool := false
  /-- DMODE is 2. -/
  two : Bool := false
  /-- The boundary of the latest sample. -/
  lastTime : Count := 0
  start : Count := 0
  m : Nat := 0
  phase : Nat := 0
  vs : Int := 0
  vc : Int := 0
  is : Int := 0
  ic : Int := 0
  stale : Bool := false
  sat : Bool := false
  entry : BitVec 16 := 0
deriving DecidableEq, Repr

/-- The acquisition state of a channel behind its registers. -/
structure AcqChan where
  stepStart : Option Count := none
  /-- The limits and the masks 0 to 3 that have been violated in this step. -/
  limDone : Bool := false
  maskDone : BitVec 4 := 0
  /-- The compares of the step in force, QTY and CMP (R255), and the step charge in µA·cycles (R256). -/
  cmps : List (Nat × BitVec 32) := []
  charge : Int := 0
  v : Red := {}
  i : Red := {}
  demod : Demod := {}
  /-- A segment marker that waits for the first value at or after its boundary, for V and for I. -/
  markV : Option (Count × BitVec 4) := none
  markI : Option (Count × BitVec 4) := none
  /-- The fire marks that wait for a value at or after their f, for V and for I: trigger, FORCED, f (R316). -/
  fireV : List (Nat × Bool × Count) := []
  fireI : List (Nat × Bool × Count) := []
deriving DecidableEq, Repr

/-- A counted fire (R314): its TBU, ring position and channel. -/
structure Fire where
  time : Count
  pos : Nat
  chan : Nat
deriving DecidableEq, Repr

/-- The state of a trigger behind its registers. -/
structure Trigger where
  armed : Option Count := none
  timeout : Nat := 0
  auto : Bool := false
  fires : List Fire := []
  sent : Bool := false
deriving DecidableEq, Repr

/-- A record that waits for its append time (R304, R316); for reduced values, the time of each. -/
structure HeldRec where
  append : Count
  bytes : List Byte
  times : List Count := []
deriving DecidableEq, Repr

/-- The stream of one record class. -/
structure Stream where
  held : List HeldRec := []
  staged : List (List Byte) := []
  chunk : List (List Byte) := []
  chunks : Nat := 0
  head : BitVec 384 := 0
  /-- Blocks of the spill store that hold records not taken: spill sequence number and append index of the first
  record, oldest first (R320). -/
  spilled : List (Nat × Nat) := []
  /-- The first block of the spill in progress (R320). -/
  spillFirst : Nat := 0
  /-- Blocks that an earlier stream left in the spill store over a reset; the host takes them first (R332). -/
  old : List (Nat × Nat) := []
  /-- The append index of the next record to send, and the host's TAKEN (R420). -/
  sent : Nat := 0
  taken : Nat := 0
deriving DecidableEq, Repr

/-- The state of a capture slot (R323): the stamps of the record being filled, its decimation count. -/
structure Capture where
  words : List (BitVec 64) := []
  skipped : Nat := 0
  kept : Nat := 0
deriving DecidableEq, Repr

/-- The acquisition and excursion state behind the registers. -/
structure Acq where
  chans : Tab AcqChan := []
  trigs : Tab Trigger := []
  streams : Tab Stream := []
  caps : Tab Capture := []
  profiles : Tab (List Byte) := []
  lmsets : Tab (List Byte) := []
  /-- SHA-384 seal values that wait for a signature or are held signed: SEALNO, S, signature. -/
  seals : List (Word × BitVec 384 × Option (List Byte)) := []
  /-- The spill sequence number of the next block: the store keeps its blocks over every reset (R332). -/
  spillNext : Nat := 0
  /-- The SEALNO of the next seal. -/
  sealNext : Nat := 0
deriving DecidableEq, Repr

/-! ## Memory (chapter 13), calibration (14), twin (15), links (16) -/

/-- An entry of the HBM error log (R342). -/
structure ElogEntry where
  w0 : Word
  w1 : Word
  time : BitVec 64
deriving DecidableEq, Repr

/-- A host read of HBM that waits for its requests (R336, R341): port, VC and TAG of its frame, the 64-byte lines still to be
read, the status so far and the data. -/
structure HbmRead where
  port : Port
  vc : BitVec 2
  tag : BitVec 12
  left : List Nat
  status : BitVec 3
  data : List Byte
deriving DecidableEq, Repr

/-- A 64-byte request in the queue of a pseudo-channel (R336 to R339): its requester, its line, where the line lies, whether
it writes, when it came, whether it waits for HBM to be enabled (R353), how many later requests have passed it over; for a
write, the line's bytes before it. -/
structure HbmReq where
  requester : Nat
  line : Nat
  pc : Nat
  place : Nat
  write : Bool
  since : Count
  held : Bool
  passed : Nat := 0
  old : List Byte := []
deriving DecidableEq, Repr

/-- A pseudo-channel behind its registers: by bank, the row last left open and the instant at which it closes if nothing
targets it (R337); the in-order mode (R339); the requests served in a row for one requester (R345); whether each of the
latest requests was a row hit, newest first (R352). -/
structure HbmPc where
  rows : Tab (Option (Nat × Option Count)) := []
  inOrder : Bool := false
  run : Nat × Nat := (9, 0)
  hits : List Bool := []
deriving DecidableEq, Repr

/-- The HBM controller behind its registers. -/
structure Hbm where
  /-- The requests of all pseudo-channels, oldest first. -/
  queue : List HbmReq := []
  pcs : Tab HbmPc := []
  /-- The error log (R342), newest first. -/
  elog : List ElogEntry := []
  /-- The rate of the training in progress, and a deferred change (R349). -/
  rate : BitVec 2 := 0
  deferred : Option (BitVec 2) := none
  reads : List HbmRead := []
  /-- The requests served in the latest 2²⁰ controller cycles, newest first: requester and instant (HBM_REQ_BW). -/
  served : List (Nat × Count) := []
deriving DecidableEq, Repr

/-- A calibration sequencer behind its registers (R359 to R365). -/
structure CalSeq where
  /-- 0 SV, 1 SI, 2 spare V, 3 spare I. -/
  path : Nat := 0
  npts : Nat := 0
  /-- The sequence runs in a standby, without codes, bus or substitution (R365). -/
  mirrored : Bool := false
  /-- The channel's input is the unit 8 result plus the offset (R360). -/
  sub : Bool := false
  /-- The path is connected to the reference bus. -/
  onBus : Bool := false
  /-- The sequence ends without a fit, with this cause (R364). -/
  ending : Option Nat := none
  /-- Sum and count of the pairs of MATCH or RETURN, or of the frequencies of a point. -/
  sum : Int := 0
  n : Nat := 0
  /-- D has been taken and SPARE_IDLE sent, in RETURN. -/
  returned : Bool := false
  /-- The end of the timed part of the phase in progress, and the first due time of a result of the path's unit at or after
  it, at which the next phase begins (R360). -/
  endAt : Option Count := none
  begun : Option Count := none
  /-- The instants between which the results of the point in progress count. -/
  pointFrom : Count := 0
  pointEnd : Count := 0
  /-- The points measured: mean frequency, and mean measured level. -/
  points : List (Int × Int) := []
  /-- The newest level shipped by the active (R365). -/
  shipped : Option (BitVec 32) := none
  /-- The level that drives the reference bus; none: idle. -/
  bus : Option Word := none
deriving DecidableEq, Repr

/-- An item of a digest tick (R386). -/
inductive TickItem where
  /-- The edge set of a loop update and its inputs V and I. -/
  | edges (ch : Nat) (due : Count) (goff : Bool) (set : List Word) (v i : BitVec 32)
  /-- The flag word of a task at a judgement. -/
  | flags (task : Nat) (at_ : Count) (f : BitVec 64)
  /-- A class A record, and an excursion entry with its TIME. -/
  | record (at_ : Count) (bytes : List Byte)
  | entry (time : Count) (bytes : List Byte)
deriving DecidableEq, Repr

/-- The twin island behind its registers. -/
structure Twn where
  /-- SAFE_N has been in effect on a pair, since an instant, and digests are not compared; the instant at which it has read
  high again, until the resynchronisation begins (R392). -/
  safeSplit : Bool := false
  safeAt : Count := 0
  safeRise : Option Count := none
  /-- The start of the negotiation in progress (R377). -/
  negFrom : Option Count := none
  /-- The latest frame received from the twin (R388). -/
  rxAt : Option Count := none
  /-- The columns that SHIP frames have taken on the col link, newest first: the instant and their number (R431). -/
  shipCols : List (Count × Nat) := []
  /-- The TWN_PLAUS bits set, by 2 × channel + quantity, each with the instant at which it set (R385). -/
  plausSince : List (Nat × Count) := []
  /-- The shipped results that had not arrived by their due times: island, unit, due time (R378, R390). -/
  missed : List (Nat × Nat × Count) := []
  /-- What the digests of the ticks still to be sent are formed over (R386). -/
  items : List TickItem := []
  /-- Digests of this module and of the twin that wait for the other: tick, digest, BLAME. -/
  own : List (BitVec 64 × BitVec 256 × Bool) := []
  peer : List (BitVec 64 × BitVec 256 × Bool) := []
  /-- The run origin of a join, once COPY has ended (R393), and whether TWN_CMD.JOIN has admitted a join. -/
  origin : Option Count := none
  joinOrdered : Bool := false
  /-- The sources that this module has raised in the ticks still to be sent, with their raise cycles (R387). -/
  raises : List (Nat × Count) := []
  /-- Items that wait to be shipped (R378). -/
  ship : List ShipItem := []
  /-- BLAME of this module and of the twin in the latest diverging tick (R387). -/
  blames : Bool × Bool := (false, false)
  /-- The anchor fields shipped by the active (R303): STATE, SRC, TIME_VALID, HOP, PATH, PHERR. -/
  anchor : Option (BitVec 3 × BitVec 2 × Bool × BitVec 16 × Word × Word) := none
deriving DecidableEq, Repr

/-- A held frame of a host port or the col link (R412): its SEQ, the resends so far, the frame. -/
structure Held where
  seq : BitVec 12
  resends : Nat
  frame : Out
  /-- The key, with its salt, and the frame counter that protect it; integrity-only (R418). -/
  prot : Option (List Byte × Nat) := none
  intOnly : Bool := false
deriving DecidableEq, Repr

/-- A request on the control VC that waits behind a held push of its port (R279): a read; or a write with the index of its
first word still to be judged, whether the word before it is the held push, its session's role, the status and the offsets
of the rejected parts so far, and whether its port has gone down, so that it is not answered. -/
inductive Stalled where
  | rd (f : RdFrame)
  | wr (f : WrFrame) (i : Nat) (waits : Bool) (role st : Nat) (bad : List Byte) (quiet : Bool)
deriving DecidableEq, Repr

/-- The state of one link direction pair behind its registers (R410 to R413). -/
structure LinkState where
  /-- The state of the ring output, which no register reports, and the instant at which the state of the link began (R403). -/
  st : Nat := 0
  since : Count := 0
  /-- The latest frame sent; the latest acknowledgement or resend, from which the replay timeout runs (R404, R412). -/
  sentAt : Option Count := none
  ackAt : Count := 0
  /-- The power state of a ring direction (R404). -/
  pwr : Nat := 0
  /-- An acknowledgement that waits for the direction to wake, and whether it is a NAK (R404). -/
  lctlOwed : Option Bool := none
  rxNext : BitVec 12 := 0
  txNext : BitVec 12 := 0
  held : List Held := []
  /-- Frames sent on each VC, modulo 256, and the limits the partner gave. -/
  sent : List (BitVec 8) := [0, 0, 0, 0]
  limits : List (BitVec 8) := [0, 0, 0, 0]
  /-- The limits this module grants, and the credits it withholds (R416). -/
  grants : List (BitVec 8) := [0, 0, 0, 0]
  owed : List Nat := [0, 0, 0, 0]
  /-- Frames that wait for a credit or for the link, oldest first, with their VC. -/
  waiting : List (Nat × Out) := []
  /-- The frame counters of the port's session: frames sent, frames taken (R418, R478). -/
  txFrames : Nat := 0
  rxFrames : Nat := 0
  /-- The largest due time of the untimed control writes accepted (R414). -/
  untimed : Option Count := none
  /-- The requests that wait behind a held push. -/
  stalled : List Stalled := []
deriving DecidableEq, Repr

/-- An exchange in progress on a port (R476). -/
structure Exchange where
  role : BitVec 2
  intOnly : Bool
  transcript : List Byte
  /-- Nh with Nm, and Z (R478). -/
  salt : List Byte := []
  secret : List Byte := []
  /-- The management uptime at the host's HELLO, in ms. -/
  since : Nat := 0
  /-- The module's PROOF has gone out. -/
  proved : Bool := false
deriving DecidableEq, Repr

/-- Rights of a session role (R435 POLICY): REG blocks readable and writable, and the memory bits. -/
structure Rights where
  rd : BitVec 19
  wr : BitVec 19
  mem : BitVec 7
deriving DecidableEq, Repr

/-! ## Structure (17), security (19), management (20) -/

/-- The structure stream in force, the one being checked or CHECKED, and the start slot in flash (R438 to R445). -/
structure Str where
  /-- VERSION of the stream in force (R467). -/
  version : Word := 0
  words : List (BitVec 64) := []
  /-- The stream that a LOAD read, its SRC and QMASK, and its source range in a host space: space, offset, bytes. -/
  checking : List (BitVec 64) := []
  src : Nat := 0
  qmask : Nat := 0
  range : Option (Nat × Nat × Nat) := none
  /-- The check is that of boot firmware, which falls back to the reference stream (R441). -/
  boot : Bool := false
  /-- An uncorrectable error has struck the reading of the source. -/
  bad : Bool := false
  plain : List Nat := []
  policy : List (Fin 4 × Rights) := []
  /-- The start slot in flash: empty at delivery (R3). -/
  startSlot : List (BitVec 64) := []
deriving DecidableEq, Repr

/-- A customer key slot (R465). -/
structure KeySlot where
  used : Bool := false
  revoked : Bool := false
  usage : BitVec 3 := 0
  anchor : BitVec 384 := 0
deriving DecidableEq, Repr

/-- A request for a signature (R474): a seal, a calibration record, the PROOF of a port's exchange, the report of an ATTEST with
its nonce. -/
inductive SigReq where
  | seal (no : Word)
  | cal
  | proof (p : Port)
  | attest (p : Port) (nonce : List Byte)
deriving DecidableEq, Repr

/-- The security island behind its registers: OTP, secure flash and running state. -/
structure Sec where
  slots : Tab KeySlot := []
  vendorRevoked : BitVec 7 := 0
  floorRaises : List Nat := [0, 0, 0, 0]
  approvedFuse : Bool := false
  zeroisedFuse : Bool := false
  content : Tab (BitVec 16 × BitVec 256) := []
  q : Nat := 0
  reservedTo : Nat := 0
  writes : Nat := 0
  /-- The requests for signatures, in the order in which they are served, with their cycle of arrival (R474). -/
  requests : List (Count × SigReq) := []
  /-- The keys with their salts of each port's session: host to module, module to host (R478). -/
  keys : Tab (List Byte × List Byte) := []
  /-- The management uptime at which a port began to refuse HELLO, in ms (R476). -/
  refusedAt : List Nat := [0, 0]
  exch : Tab (Option Exchange) := []
  failRun : List Nat := [0, 0]
  /-- A port's session comes from the provisioning anchor (R477). -/
  provisional : List Bool := [false, false]
  /-- VERSION of the vendor and the customer patch in force (R467). -/
  patchVersions : List Word := [0, 0]
  /-- The four rollback floors in secure flash (R467); at delivery the firmware floor is the release's (R3). -/
  floors : List Nat := [Config.releaseVersion.toNat, 0, 0, 0]
deriving DecidableEq, Repr

/-- A request slot of the mailbox (R485). -/
structure Slot where
  cmd : Byte
  req : Byte
  reply : Option (Byte × List Byte) := none
  /-- The management uptime at which the reply was ready, in ms; its EVT frame has been sent. -/
  readyAt : Nat := 0
  told : Bool := false
deriving DecidableEq, Repr

/-- A firmware slot (R496). -/
structure FwSlot where
  valid : Bool := true
  version : Word := Config.releaseVersion
  digest : BitVec 384 := Config.releaseDigest
  /-- The vendor patch area of the image. -/
  patches : List (List Byte) := Config.releasePatches
deriving DecidableEq, Repr

/-- The management subsystem behind its registers. -/
structure Mgt where
  slots0 : List Slot := []
  slots1 : List Slot := []
  running : Option Byte := none
  log : List (List Byte) := []
  boots : Nat := 0
  /-- Management uptime in ms (R493): the sequencer's samples since power-on. -/
  uptime : Nat := 0
  /-- Copies of the structure streams brought into force, newest first (R487). -/
  archive : List (List (BitVec 64)) := []
  /-- Least and largest samples since the previous SENSORS, by port × 64 + sensor (R486). -/
  extremes : Tab (Option (Word × Word)) := []
  /-- The count at the latest sample; the samples since a junction point stood above 110 °C; the uptime at the latest window of
  the load (R488, R490, R499). -/
  sampleAt : Option Count := none
  coolFor : Nat := 0
  windowAt : Nat := 0
  /-- The slot in use before an ACTIVATE, in the boot control record; CONFTO has expired in this trial (R498). -/
  previous : Nat := 0
  expired : Bool := false
  /-- The history (R492), oldest first: 1 s means of the 34 sensors with count bits [63:0], and 1 min minimum, mean and
  maximum values; the running sums of the samples that the next mean is formed over, and their number. -/
  means : List (BitVec 64 × List Word) := []
  minutes : List (BitVec 64 × List (Word × Word × Word)) := []
  sums : List Int := []
  sumN : Nat := 0
  /-- Sources whose raises are shed in the second in progress (R499 level 2), and samples of that second. -/
  shed : List Nat := []
  shedN : Nat := 0
  /-- The image of the UPDATE in progress, as read from HBM (R496). -/
  image : List Byte := []
  /-- The image has passed the checks that come before the slot is erased. -/
  checked : Bool := false
  /-- The customer patch area of the firmware NOR. -/
  custPatches : List (List Byte) := []
  fwA : FwSlot := {}
  fwB : FwSlot := {}
deriving DecidableEq, Repr

/-- The reset and power state. -/
structure Power where
  /-- Sources that hold the engine die in reset, by CAUSE of R506. -/
  holding : List Nat := []
  onHoldup : Bool := false
  safeN : Bool := true
  errnHeld : Bool := true
  /-- The crystal oven is in regulation (R55, R68). -/
  oven : Bool := false
  /-- The management uptime at which the input left its range, in ms (R513). -/
  outSince : Nat := 0
deriving DecidableEq, Repr

/-- An entry of a calibration record (R367): a coefficient set, and RSH for a current path. -/
structure CalEntry where
  coef : Coef := {}
  rsh : BitVec 32 := 0
deriving DecidableEq, Repr

/-- A field record in the calibration store: SEQ, its digest, its entries by island × 10 + unit, where 8 and 9 are unit 8
of kind V and of kind I. -/
structure FieldRec where
  seq : BitVec 32
  digest : BitVec 384
  entries : Tab (Option CalEntry)
deriving DecidableEq, Repr

/-- The calibration store and what stands behind CAL's registers (R355, R363, R366). -/
structure CalRec where
  /-- The entries and the digest of the record in force. -/
  force : Tab (Option CalEntry) := []
  digest : BitVec 384 := 0
  seq : BitVec 32 := 0
  /-- The field records stored, newest first. -/
  field : List FieldRec := []
  /-- Committed entries whose record is still to be stored, oldest first: key and entry (R363). -/
  forming : List (Nat × CalEntry) := []
  /-- How many of them the security island has signed (R366, R474). -/
  signed : Nat := 0
  /-- The records have been verified since the start (R366). -/
  tried : Bool := false
  /-- A reference check runs; one waits for the sequencers (R355). -/
  checking : Bool := false
  waiting : Bool := false
  /-- When the check that runs began, and when the latest one was called for. -/
  checkFrom : Count := 0
  asked : Option Count := none
deriving DecidableEq, Repr

/-! ## The state -/

/-- The state of the module. -/
structure State where
  /-- Commands that wait, first in first out. -/
  pending : List Instr := []
  /-- The time-base count (R57): one count for the aligned copies of all islands. -/
  count : Count := 0
  /-- Registers by REG-space address; an unlisted register holds its reset value. -/
  regs : Tab Word := []
  /-- Staged words of multi-word quantities, by port × 2²⁸ + address (R46). -/
  staging : Tab (Option Word) := []
  /-- Read shadows of multi-word quantities, by port × 2²⁸ + address (R46). -/
  shadow : Tab (Option Word) := []
  /-- Actions held until due. -/
  agenda : List Due := []
  /-- Persisting causes of fault sources: source and instance. -/
  causes : List (Nat × Nat) := []
  /-- The model's own counter of free values drawn. -/
  free : Nat := 0
  /-- LAT bits that hardware has set, and counters that it has raised, in the present cycle, by register address (R37, R38,
  R52). -/
  fresh : Tab Word := []
  /-- The fault sources raised in the present cycle with the islands their raises name (R454, R456). -/
  raised : List (Fin 128 × Fin 80) := []
  /-- Those of them whose raise was merged (R454, R456). -/
  merged : List Nat := []
  /-- The due time, to the TBU, of the held action in performance (R74). -/
  dueNow : Option Count := none
  /-- Frames and messages sent. -/
  out : List Out := []
  sram : List Host.Cell := []
  hbmMem : List Host.Cell := []
  spill : List Host.Cell := []
  tbs : Tbs := {}
  chans : Tab ChanDrv := []
  pins : Tab PinDrv := []
  codes : Tab (Option Code) := []
  meas : Tab Meas := []
  stampers : Tab Stamper := []
  tacs : Tab Tac := []
  /-- Successive good comparisons of an island's DLL (R122). -/
  dlls : Tab Nat := []
  mons : Tab Mon := []
  engs : Tab LoopEng := []
  loops : Tab LoopChan := []
  /-- The newest results of the module's own units, and those that the active ships (R169). -/
  quants : Tab Quantity := []
  ships : Tab Quantity := []
  ctl : Ctl := {}
  players : Tab Player := []
  seg : Seg := {}
  tasks : Tab Task := []
  sched : Sched := {}
  acq : Acq := {}
  hbm : Hbm := {}
  cals : Tab CalSeq := []
  calRec : CalRec := {}
  twn : Twn := {}
  links : Tab LinkState := []
  str : Str := {}
  sec : Sec := {}
  mgt : Mgt := {}
  power : Power := {}
deriving DecidableEq, Repr

/-- Why the machine stops with a fault. No meaning of this model raises one. -/
inductive Fault where
  /-- An access outside every memory the spec gives the module. Raised by nobody: such a host access is answered with
  UNMAPPED (R29), which is an effect. Safe. -/
  | noSuchAddress
deriving DecidableEq, Repr

/-- Why the machine refuses a command. -/
inductive Refusal where
  /-- The command has no meaning in the model yet. Raised by `exec`'s arm of that command alone. Safe. -/
  | notModelled (mnemonic : String)
deriving DecidableEq, Repr

/-- The machine right after reset: a power-on (R506, CAUSE 1) before step 1 of R503. Every register is at its reset value,
which is what an unlisted register reads as, but for GLB_RSTCAUSE, which resets "as the cause"; memory lists nothing;
nothing waits; the oven is cold, which is a cause of FS 11 (R68, "FS 11 stands until then" in chapter 21). -/
def State.reset : State := { regs := [(0x10, 0x00000001#32)], causes := [(11, 0)] }

/-- What a step answers. -/
abbrev Result := Host.Outcome State Fault Refusal

end Sys2Proof.Machine
end

