-- ==== Sys2Proof/Machine/Ops.lean ====
section
/-! DEFINITION. The named operations that every meaning is written with: sparse tables and memories, registers and their
fields, counts, actions held until due (R9, R72 to R76), fault raises (R451), refused writes (R34, R50), event-flag posts,
frames sent, log entries (R493). -/
namespace Sys2Proof.Machine

/-! ## Sparse tables -/

/-- The value at a key; an unlisted key reads as `d` says. -/
def Tab.get {α : Type} (d : Nat → α) : Tab α → Nat → α
  | [], k => d k
  | (j, v) :: t, k => if k = j then v else Tab.get d t k

/-- The table without a key. -/
def Tab.erase {α : Type} (t : Tab α) (k : Nat) : Tab α := t.filter (fun p => p.1 != k)

/-- The table with a value at a key, in canonical form: writing what an unlisted key reads as removes the pair. -/
def Tab.set {α : Type} [DecidableEq α] (d : Nat → α) : Tab α → Nat → α → Tab α
  | [], k, v => if v = d k then [] else [(k, v)]
  | (j, w) :: t, k, v =>
    if k < j then (if v = d k then (j, w) :: Tab.erase t k else (k, v) :: (j, w) :: t)
    else if k = j then (if v = d k then Tab.erase t k else (k, v) :: t)
    else (j, w) :: Tab.set d t k v

/-- The canonical form of a table: keys strictly rising, no pair equal to the unlisted value. -/
def Tab.wf {α : Type} [DecidableEq α] (d : Nat → α) : Tab α → Bool
  | [] => true
  | [(j, v)] => decide (v ≠ d j)
  | (j, v) :: (k, w) :: t => decide (v ≠ d j) && decide (j < k) && Tab.wf d ((k, w) :: t)

/-! ## Memories: the plain, HBM and the spill store -/

/-- What a byte that nothing has written reads as (DESIGN CHOICE, log entry 2). -/
def memDefault : Nat → Byte := fun _ => 0#8

/-- One byte of a memory. -/
def Memory.read (m : List Host.Cell) (a : Nat) : Byte := Tab.get memDefault m a

/-- A memory with one byte written. -/
def Memory.write (m : List Host.Cell) (a : Nat) (b : Byte) : List Host.Cell := Tab.set memDefault m a b

/-- The canonical form of a memory. -/
def Memory.wf (m : List Host.Cell) : Bool := Tab.wf memDefault m

/-- `n` bytes from an address. -/
def Memory.readBytes (m : List Host.Cell) (a : Nat) : Nat → List Byte
  | 0 => []
  | n + 1 => Memory.read m a :: Memory.readBytes m (a + 1) n

/-- A memory with bytes written from an address on. -/
def Memory.writeBytes (m : List Host.Cell) (a : Nat) : List Byte → List Host.Cell
  | [] => m
  | b :: bs => Memory.writeBytes (Memory.write m a b) (a + 1) bs

/-- The little-endian value of bytes. -/
def leNat : List Byte → Nat
  | [] => 0
  | b :: bs => b.toNat + 256 * leNat bs

/-- `n` little-endian bytes of a value. -/
def leBytes : Nat → Nat → List Byte
  | 0, _ => []
  | n + 1, v => BitVec.ofNat 8 v :: leBytes n (v / 256)

/-- A value in `n` bytes, two's complement for a negative one. -/
def leInt (n : Nat) (v : Int) : List Byte := leBytes n (v % (256 ^ n : Nat)).toNat

/-- The two's-complement value of the low `n` bits of a natural number. -/
def signed (n v : Nat) : Int :=
  if v % 2 ^ n < 2 ^ (n - 1) then ((v % 2 ^ n : Nat) : Int) else ((v % 2 ^ n : Nat) : Int) - (2 ^ n : Nat)

/-- The byte at an offset of a byte string; 0 beyond its end. -/
def byteAt (bs : List Byte) (i : Nat) : Nat := (bs.getD i 0#8).toNat

/-- The little-endian value of `n` bytes at an offset of a byte string. -/
def fieldAt (bs : List Byte) (i n : Nat) : Nat := leNat ((bs.drop i).take n)

/-- Bytes written over a byte string at an offset. -/
def putBytes (bs : List Byte) (i : Nat) (v : List Byte) : List Byte := bs.take i ++ v ++ bs.drop (i + v.length)

/-- Division rounded to nearest, ties away from zero (R174, R307). -/
def divRound (a : Int) (b : Nat) : Int :=
  if b = 0 then 0
  else if a < 0 then -((((-a) * 2 + b) / (2 * b) : Int)) else ((a * 2 + b) / (2 * b) : Int)

/-- A value cut to a range. -/
def clampInt (lo hi v : Int) : Int := if v < lo then lo else if hi < v then hi else v

/-- A value saturated to 32 bits, signed. -/
def sat32 (v : Int) : Int := clampInt (-2147483648) 2147483647 v

/-! ## Registers -/

/-- The index list and word of a row's instance at a block offset, if the offset lies in the row. -/
def hitDims : List (Nat × Nat) → Nat → Nat → Option (List Nat × Nat)
  | [], words, rel => if rel % 4 = 0 ∧ rel / 4 < words then some ([], rel / 4) else none
  | (n, stride) :: ds, words, rel =>
    if rel / stride < n then
      match hitDims ds words (rel % stride) with
      | some (is, w) => some (rel / stride :: is, w)
      | none => none
    else none

/-- The row, indices and word that a block offset names, in a list of rows. -/
def findRow : List RegRow → Nat → Option (RegRow × List Nat × Nat)
  | [], _ => none
  | r :: rs, off =>
    if off < r.off then findRow rs off
    else
      match hitDims r.dims r.words (off - r.off) with
      | some (is, w) => some (r, is, w)
      | none => findRow rs off

/-- The blocks of R32 exist. -/
def blockExists (b : Nat) : Bool := !(blockRows b).isEmpty

/-- The identity register of a block (R34). -/
def blkId (b : Nat) : Word :=
  BitVec.ofNat 32 ((if 64 ≤ b then b
    else if b ≤ 7 then b + 1 else b) <<< 16 ||| 0x0100)

/-- The blocks whose EN is fixed at 1 (R34): GLB, FLT, MGT, STR, SEC. -/
def fixedOn (b : Nat) : Bool := b == 0 || b == 2 || b == 16 || b == 17 || b == 18

/-- The reset value of the register at a REG-space address (R34, R40): identities from the part, everything else from
the register map. -/
def regReset (a : Nat) : Word :=
  let b := a / 0x100000
  let off := a % 0x100000
  if off = 0 then (if blockExists b then blkId b else 0)
  else if off = 4 then (if fixedOn b then 1 else 0)
  else if a = aGLB_PART then 0x02560000#32 ||| (Config.dieIssue.setWidth 32 <<< 8) ||| Config.boardIssue.setWidth 32
  else if a = aGLB_SERIAL then Config.serial.setWidth 32
  else if a = aGLB_SERIAL + 4 then (Config.serial >>> 32).setWidth 32
  else if a = aLPE_CS_ROMID then Config.romId
  else
    match findRow (blockRows b) off with
    | none => 0
    | some (r, is, k) =>
      match r.reset with
      | .const w => if k = 0 then w else 0
      | .tab ws => ws.getD (is.getLastD 0) 0

/-- The registers that no event changes: the identity of every block, EN where it is fixed at 1 (R34), the part and serial
numbers, and the control-store ROM's identity. -/
def hardwired (a : Nat) : Bool :=
  a % 0x100000 == 0 || (a % 0x100000 == 4 && fixedOn (a / 0x100000)) || a == aGLB_PART || a == aGLB_SERIAL
    || a == aGLB_SERIAL + 4 || a == aLPE_CS_ROMID

/-- The register at a REG-space address as the state holds it. -/
def State.reg (s : State) (a : Nat) : Word := Tab.get regReset s.regs a

/-- The state with a register set. -/
def State.setReg (s : State) (a : Nat) (v : Word) : State := { s with regs := Tab.set regReset s.regs a v }

/-- A field of a register. -/
def State.fld (s : State) (a : Nat) (f : Fld) : Nat := getF (s.reg a) f

/-- A one-bit field of a register, or whether a wider one is not 0. -/
def State.bit (s : State) (a : Nat) (f : Fld) : Bool := s.fld a f != 0

/-- The state with a field of a register set. -/
def State.setFld (s : State) (a : Nat) (f : Fld) (v : Nat) : State := s.setReg a (putF (s.reg a) f v)

/-- The state with bits of a register marked as set, or a counter as raised, by hardware in the present cycle (R38, R52). -/
def State.mark (s : State) (a : Nat) (w : Word) : State :=
  { s with fresh := Tab.set (fun _ => 0#32) s.fresh a (Tab.get (fun _ => 0#32) s.fresh a ||| w) }

/-- The bits of a register that hardware has set in the present cycle. -/
def State.freshAt (s : State) (a : Nat) : Word := Tab.get (fun _ => 0#32) s.fresh a

/-- The state with a one-bit field at 1: a latch set, a level raised. -/
def State.latch (s : State) (a : Nat) (f : Fld) : State := (s.setFld a f 1).mark a (fldWord f 1)

/-- The state with a one-bit field at a truth value. -/
def State.setBit (s : State) (a : Nat) (f : Fld) (b : Bool) : State := s.setFld a f b.toNat

/-- A counter raised by `n`, saturating at all ones (R52). -/
def State.bumpBy (s : State) (a n : Nat) : State :=
  (s.setReg a (BitVec.ofNat 32 (min 0xFFFFFFFF ((s.reg a).toNat + n)))).mark a 1

/-- A counter raised by one. -/
def State.bump (s : State) (a : Nat) : State := s.bumpBy a 1

/-- A register that keeps the largest value met. -/
def State.maxReg (s : State) (a v : Nat) : State :=
  s.setReg a (BitVec.ofNat 32 (max (s.reg a).toNat (min 0xFFFFFFFF v)))

/-- The value of a quantity of `n` words, least significant word first (R33). -/
def State.wide (s : State) (a : Nat) : Nat → Nat
  | 0 => 0
  | n + 1 => (s.reg a).toNat + 2 ^ 32 * State.wide s (a + 4) n

/-- The state with a quantity of `n` words set. -/
def State.setWide (s : State) (a : Nat) : Nat → Nat → State
  | 0, _ => s
  | n + 1, v => State.setWide (s.setReg a (BitVec.ofNat 32 v)) (a + 4) n (v / 2 ^ 32)

/-- A block is enabled (R34). -/
def State.blkOn (s : State) (b : Nat) : Bool := s.bit (b * 0x100000 + 4) ⟨0, 0⟩

/-- The base of a pin island's block. -/
abbrev islBlk (n : Nat) : Nat := 64 + n

/-- The island of a module channel (R84). -/
abbrev islOf (ch : Nat) : Nat := ch / 4

/-- The local channel of a module channel (R84). -/
abbrev locOf (ch : Nat) : Nat := ch % 4

/-! ## Counts -/

/-- `n` cycles in TBU (R57). -/
abbrev cyc (n : Nat) : Count := BitVec.ofNat 72 (128 * n)

/-- One count lies before another, on the wrapping scale (R57): their distance is less than half of it. -/
def Count.before (a b : Count) : Bool := (a - b).msb

/-- A count is at or before another. -/
def Count.upto (a b : Count) : Bool := !(Count.before b a)

/-- The start of the cycle that contains a count: its due cycle (R73). -/
def Count.cycleStart (c : Count) : Count := c &&& ~~~ 127#72

/-- The first multiple of `m` TBU at or after a count. -/
def Count.ceilTo (c : Count) (m : Nat) : Count := BitVec.ofNat 72 ((c.toNat + (m - 1)) / m * m)

/-- The first value `t ≥ c` with `(t - phase) mod period = 0`; `c` itself where the period is 0. -/
def Count.gridFrom (c : Count) (phase period : Nat) : Count :=
  if period = 0 then c
  else BitVec.ofNat 72 (c.toNat + (period - (c.toNat + (period - phase % period)) % period) % period)

/-- The instant of what is performed: the due time of a held action to the TBU, else the present cycle (R57, R74). -/
def State.at (s : State) : Count := s.dueNow.getD s.count

/-- A free value of the run, and the state with the counter of draws advanced. -/
def State.draw (s : State) : Nat × State := (Config.freeValue s.free, { s with free := s.free + 1 })

/-! ## Issuers and islands -/

/-- The numbers of the single islands, in the table under R83. -/
abbrev islScheduler : Fin 80 := 72
abbrev islSegment : Fin 80 := 73
abbrev islAcquisition : Fin 80 := 74
abbrev islMemory : Fin 80 := 75
abbrev islLink : Fin 80 := 76
abbrev islTwin : Fin 80 := 77
abbrev islManagement : Fin 80 := 78
abbrev islSecurity : Fin 80 := 79

/-- The order of sources among actions due at one TBU (R11). -/
def issuerRank : Issuer → Nat
  | .island n =>
    if n.val = 77 then 0 else if n.val = 72 then 1 else if n.val = 73 then 2
    else if n.val < 64 then 11 + n.val
    else if n.val < 72 then n.val - 61
    else if n.val = 74 then 75 else if n.val = 75 then 76 else if n.val = 79 then 77
    else if n.val = 76 then 78 else 79
  | .port p => 80 + p.val
  | .forwarded p => 80 + p.val

/-- The island that owns the registers of a block (R8, R10; log entry 9 for the central blocks). -/
def blockIsland (b : Nat) : Fin 80 :=
  if 64 ≤ b then Fin.ofNat 80 (b - 64)
  else if b = 4 ∨ b = 5 then islScheduler
  else if b = 6 then 64
  else if b = 7 then islSegment
  else if b = 10 ∨ b = 11 then islAcquisition
  else if b = 12 then islMemory
  else if b = 13 ∨ b = 3 then islLink
  else if b = 14 then islTwin
  else if b = 18 then islSecurity
  else islManagement

/-- The loop of a channel as the LAW section binds it. -/
def State.loopRec (s : State) (ch : Nat) : LoopChan := Tab.get (fun _ => ({} : LoopChan)) s.loops ch

/-- The island that owns the register at a REG-space address (R10): that of its block; in LPE, the loop-engine island of the
engine, or of the engine that runs the channel's loop (R8). -/
def State.regIsland (s : State) (a : Nat) : Fin 80 :=
  let o := a % 0x100000
  if a / 0x100000 = 6 then
    if 0x20 ≤ o ∧ o < 0x60 then Fin.ofNat 80 (64 + o % 0x20 / 4)
    else if 0x100 ≤ o ∧ o < 0x300 then Fin.ofNat 80 (64 + (o - 0x100) / 0x40)
    else if 0x4000 ≤ o ∧ o < 0x8000 then Fin.ofNat 80 (64 + (s.loopRec ((o - 0x4000) / 0x40)).eng % 8)
    else 64
  else blockIsland (a / 0x100000)

/-! ## Actions held until due -/

/-- The place of an excursion entry among those of its due time: KIND, then channel, then DETAIL (R328). -/
def excKey : Act → Option Nat
  | .cmd (.excursionWrite kind detail ch _ _ _) => some ((kind.toNat * 65536 + ch.toNat) * 256 + detail.toNat)
  | _ => none

/-- The place of an action's source among the sources of R11; the excursion writer's entries stand together. -/
def Due.rank (d : Due) : Nat := if (excKey d.act).isSome then issuerRank (.island 74) else issuerRank d.src

/-- Of two entries for the excursion writer, `x` comes first. -/
def excFirst (x y : Act) : Bool :=
  match excKey x, excKey y with
  | some a, some b => decide (a < b)
  | _, _ => false

/-- The action `x` stands before `y` in the order of due time and source. -/
def Due.first (x y : Due) : Bool :=
  Count.before x.due y.due
    || (x.due == y.due && (decide (x.rank < y.rank) || (x.rank == y.rank && excFirst x.act y.act)))

/-- A list in order with an action put after every one that does not come later. -/
def insertDue (d : Due) : List Due → List Due
  | [] => [d]
  | x :: xs => if Due.first d x then d :: x :: xs else x :: insertDue d xs

/-- The state with an action held until its due time, no lateness judged. -/
def State.hold (s : State) (src : Issuer) (due : Count) (a : Act) : State :=
  { s with agenda := insertDue ⟨due, src, a⟩ s.agenda }

/-- A raise of a fault source, due at FLT 64 cycles after the present cycle (R451). -/
def State.raise (s : State) (fs : Fin 128) (isl : Fin 80) : State :=
  s.hold (.island isl) (s.count + cyc 64) (.raise fs isl)

/-- An instance of a persisting cause begins. -/
def State.causeOn (s : State) (fs inst : Nat) : State :=
  if (fs, inst) ∈ s.causes then s else { s with causes := (fs, inst) :: s.causes }

/-- An instance of a persisting cause ends. -/
def State.causeOff (s : State) (fs inst : Nat) : State :=
  { s with causes := s.causes.filter (fun c => c ≠ (fs, inst)) }

/-- A persisting cause of a source stands. -/
def State.causeStands (s : State) (fs : Nat) : Bool := s.causes.any (fun c => c.1 == fs)

/-- A given instance of a persisting cause stands. -/
def State.causeAt (s : State) (fs inst : Nat) : Bool := s.causes.any (fun c => c == (fs, inst))

/-- A late action is logged, counted and raises FS 8 (R74, R82). `kind` is the KIND of TBS_LATE_SRC. -/
def State.late (s : State) (kind : Nat) (src dst : Nat) (due arr : Count) : State :=
  ((((s.setReg aTBS_LATE_SRC (putF (putF (fldWord fTBS_LATE_SRC_KIND kind) fTBS_LATE_SRC_DST dst)
        fTBS_LATE_SRC_SRC src)).setWide aTBS_LATE_DUE 3 due.toNat).setWide aTBS_LATE_ARR 3 arr.toNat).bump
      aTBS_LATE_CNT).raise 8 (Fin.ofNat 80 dst)

/-- A late internal action: INTERNAL latches too. -/
def State.lateInternal (s : State) (kind src dst : Nat) (due arr : Count) : State :=
  (s.late kind src dst due arr).latch aTBS_LATE fTBS_LATE_INTERNAL

/-- The ford figures of BUS for an on-time action into an island (R27): latency and slack in cycles. -/
def State.fordSeen (s : State) (dst latency slack : Nat) : State :=
  if s.blkOn 3 then
    let s1 := s.setReg (aBUS_LATMAX dst)
      (BitVec.ofNat 32 (max (s.reg (aBUS_LATMAX dst)).toNat (min 0xFFFF latency)))
    let s2 := s1.setReg (aBUS_SLACK dst)
      (BitVec.ofNat 32 (min (s1.reg (aBUS_SLACK dst)).toNat (min 0xFFFFFFFF slack)))
    if slack < s2.fld aBUS_SLKTHR fBUS_SLKTHR_THR then s2.latch aBUS_LAT fBUS_LAT_SLACK else s2
  else s

/-- An action that is on time at an island's ingress, with its due time (R27): its ford latency, free within 64 cycles, and
its slack are seen. -/
def State.crossed (s : State) (dst : Nat) (due : Count) : State :=
  let lat := Config.fordLatency s.free % 65
  ({ s with free := s.free + 1 }).fordSeen dst lat ((Count.cycleStart due - s.count).toNat / 128 - lat)

/-- An action sent across a ford to an island (R9, R73, R74): held at its ingress after the ford's latency, which is
free within 64 cycles, and discarded as late when that is past the start of its due cycle. -/
def State.issue (s : State) (src : Fin 80) (dst : Nat) (due : Count) (kind : Nat) (a : Act) : State :=
  let lat := Config.fordLatency s.free % 65
  let s := { s with free := s.free + 1 }
  if Count.upto (s.count + cyc 64) (Count.cycleStart due) then
    (s.fordSeen dst lat (((Count.cycleStart due - s.count).toNat / 128) - lat)).hold (.island src) due a
  else if Count.upto (s.count + cyc lat) (Count.cycleStart due) then
    (s.fordSeen dst lat (((Count.cycleStart due - s.count).toNat / 128) - lat)).hold (.island src) due a
  else s.lateInternal kind src.val dst due (s.count + cyc lat)

/-- A command issued by an island to itself or another one. -/
def State.issueCmd (s : State) (src : Fin 80) (dst : Nat) (due : Count) (i : Instr) : State :=
  s.issue src dst due 1 (.cmd i)

/-- A post of event flags to the live task of a channel (R258), due 96 cycles after the present cycle. -/
def State.postAt (s : State) (src : Fin 80) (ch : Chan) (set clear : BitVec 64) (due : Count) : State :=
  s.issue src 72 due 1 (.flags ch set clear)

/-- A post of event flags due 96 cycles after the present cycle. -/
def State.post (s : State) (src : Fin 80) (ch : Chan) (set : BitVec 64) : State :=
  s.postAt src ch set 0 (s.count + cyc 96)

/-- Event flag bits of R258. -/
abbrev eTlim : BitVec 64 := 1 <<< 1
abbrev eVlim : BitVec 64 := 1 <<< 2
abbrev eMask : BitVec 64 := 1 <<< 3
abbrev eSense : BitVec 64 := 1 <<< 4
abbrev eTrap : BitVec 64 := 1 <<< 5
abbrev eSegstart : BitVec 64 := 1 <<< 6
abbrev eSegend : BitVec 64 := 1 <<< 7
abbrev eSeqend : BitVec 64 := 1 <<< 8
abbrev eSafe : BitVec 64 := 1 <<< 9
abbrev eTimer : BitVec 64 := 1 <<< 20
abbrev eLoop : BitVec 64 := 1 <<< 21
abbrev eCol : BitVec 64 := 1 <<< 44
abbrev ePeer : BitVec 64 := 1 <<< 45
abbrev eFire : BitVec 64 := 1 <<< 46

/-! ## Refused writes (R34, R47, R50) -/

/-- The kind of a refused write: the bit of BLK_REJ and the code of BLK_REJAT.KIND. -/
inductive RejKind where
  | cfg | lock | val | acc
deriving DecidableEq, Repr

/-- The code of BLK_REJAT.KIND. -/
def RejKind.code : RejKind → Nat
  | .cfg => 1 | .lock => 2 | .val => 3 | .acc => 4

/-- The INTERNAL and PORT bits of BLK_REJAT for an issuer. -/
def issuerRejBits : Issuer → Nat
  | .island _ => 1 <<< 24
  | .port p => p.val <<< 23
  | .forwarded p => p.val <<< 23

/-- The bit of BLK_REJ for a kind of refusal. -/
def RejKind.bit : RejKind → Word
  | .cfg => 1 | .lock => 2 | .val => 4 | .acc => 8

/-- The block whose header records a refused access: the addressed block, or GLB where there is none (R47). -/
def rejBlock (a : Nat) : Nat := if blockExists (a / 0x100000) then a / 0x100000 else 0

/-- A latch of BLK_REJ set, in the block of an address or in GLB. -/
def State.rejLatch (s : State) (k : RejKind) (a : Nat) : State :=
  (s.setReg (rejBlock a * 0x100000 + 8) (s.reg (rejBlock a * 0x100000 + 8) ||| k.bit)).mark
    (rejBlock a * 0x100000 + 8) k.bit

/-- A write refused at an address (R34, R50): the latch sets, BLK_REJAT records the write, FS 5 is raised; for a refused
access (R47), ACC_REJECT sets in the addressed block, or in GLB where there is none, and FS 4 is raised as its rule
says. Of a write of an alias word that is refused at its due time, BLK_REJAT.OFFSET is the offset of the aliased register
(DESIGN CHOICE, log entry 66). -/
def State.reject (s : State) (by_ : Issuer) (k : RejKind) (a : Nat) : State :=
  let s1 := (s.rejLatch k a).setReg (rejBlock a * 0x100000 + 12)
    (BitVec.ofNat 32 (issuerRejBits by_ ||| k.code <<< 20 ||| a % 0x100000))
  match k with
  | .acc => s1
  | _ => s1.raise 5 (s1.regIsland (if blockExists (a / 0x100000) then a else 0))

/-- A write refused for its value. -/
def State.rejectVal (s : State) (by_ : Issuer) (a : Nat) : State := s.reject by_ .val a

/-! ## Checks and digests -/

/-- One bit step of the reflected CRC-32 of IEEE 802.3 (R405). -/
def crcBit (c : Word) : Word := if c.getLsbD 0 then (c >>> 1) ^^^ 0xEDB88320#32 else c >>> 1

/-- `n` bit steps. -/
def crcBits : Nat → Word → Word
  | 0, c => c
  | n + 1, c => crcBits n (crcBit c)

/-- The CRC-32 register over bytes. -/
def crcRun : Word → List Byte → Word
  | c, [] => c
  | c, b :: bs => crcRun (crcBits 8 (c ^^^ b.setWidth 32)) bs

/-- The CRC-32 of R405. -/
def crc32 (bs : List Byte) : Word := ~~~ crcRun 0xFFFFFFFF#32 bs

/-- The 48 bytes of a SHA-384 digest, most significant byte first. -/
def digestBytes (d : BitVec 384) : List Byte := (leBytes 48 d.toNat).reverse

/-! ## Frames of the host ports (R410, R412, R421) -/

/-- The states of a link (R403). -/
abbrev ltDisabled : Nat := 0
abbrev ltDetect : Nat := 1
abbrev ltPoll : Nat := 2
abbrev ltConfig : Nat := 3
abbrev ltActive : Nat := 4
abbrev ltRecovery : Nat := 5

/-- The key of a link's state: host ports 0 and 1, col link 2, ring input 3, ring output 4. -/
def linkKey : Link → Nat
  | .port p => p.val
  | .col => 2
  | .ringIn => 3
  | .ringOut => 4

/-- The state of a link behind its registers. -/
def State.link (s : State) (l : Nat) : LinkState := Tab.get (fun _ => {}) s.links l

/-- The state with a link's state set. -/
def State.setLink (s : State) (l : Nat) (x : LinkState) : State :=
  { s with links := Tab.set (fun _ => {}) s.links l x }

/-- The LTSSM state of a link (R403). -/
def State.ltssm (s : State) (l : Nat) : Nat :=
  if l = 0 then s.fld (aLP_STAT 0) fLP_STAT_LTSSM
  else if l = 1 then s.fld (aLP_STAT 1) fLP_STAT_LTSSM
  else if l = 2 then s.fld aLC_STAT fLC_STAT_LTSSM
  else if l = 3 then s.fld aLR_STAT fLR_STAT_LTSSM
  else (s.link l).st

/-- The credits left on a VC (R410). -/
def LinkState.credit (x : LinkState) (vc : Nat) : Nat :=
  ((x.limits.getD vc 0) - (x.sent.getD vc 0)).toNat

/-- A frame may go now: the link is ACTIVE, a credit stands, and fewer than 1,024 frames are held. -/
def LinkState.mayGo (x : LinkState) (active : Bool) (vc : Nat) : Bool :=
  active && decide (1 ≤ x.credit vc) && decide (x.credit vc ≤ 128) && decide (x.held.length < 1024)

/-- A frame takes the next SEQ and is held for replay. -/
def LinkState.push (x : LinkState) (vc : Nat) (o : Out) (prot : Option (List Byte × Nat)) (intOnly : Bool) : LinkState :=
  { x with
    held := x.held ++ [⟨x.txNext, 0, o, prot, intOnly⟩]
    txNext := x.txNext + 1
    txFrames := x.txFrames + 1
    sent := x.sent.set vc ((x.sent.getD vc 0) + 1) }

/-- The power state of the module's transmitter of a link (R404). -/
def State.txPower (s : State) (l : Nat) : Nat :=
  if l = 0 then s.fld (aLP_STAT 0) fLP_STAT_TXPWR
  else if l = 1 then s.fld (aLP_STAT 1) fLP_STAT_TXPWR
  else if l = 2 then s.fld aLC_STAT fLC_STAT_TXPWR
  else (s.link l).pwr

/-- A link's transmitter can send: ACTIVE, and awake (R403, R404). -/
def State.sends (s : State) (l : Nat) : Bool := s.ltssm l == ltActive && s.txPower l == 0

/-- A frame that is not sequenced has gone out on a link; a ring output wakes for it (R404). -/
def State.sentOn (s : State) (l : Nat) : State := s.setLink l { s.link l with sentAt := some s.count, pwr := 0 }

/-- How a frame of a host port is protected now (R418): the key of the module's direction with the frame counter. -/
def State.protOf (s : State) (l : Nat) : Option (List Byte × Nat) :=
  if decide (l < 2) && s.bit (aLP_STAT l) fLP_STAT_SESSION then
    some ((Tab.get (fun _ => (([], []) : List Byte × List Byte)) s.sec.keys l).2, (s.link l).txFrames)
  else none

/-- A frame goes out integrity-only (R418): on the stream VC of a session that chose it. -/
def State.openVc (s : State) (l vc : Nat) : Bool := decide (l < 2) && vc == 2 && s.bit (aLP_STAT l) fLP_STAT_INTONLY

/-- A sequenced frame goes out on a link; the replay timeout runs from it where none was held (R412). -/
def State.pushOn (s : State) (l vc : Nat) (o : Out) : State :=
  let x := s.link l
  { s.setLink l { x.push vc o (s.protOf l) (s.openVc l vc) with
      sentAt := some s.count, ackAt := if x.held.isEmpty then s.count else x.ackAt } with out := s.out ++ [o] }

/-- A sequenced frame sent on a link: at once where it may go and none waits on its VC, else after those that wait. -/
def State.sendFrame (s : State) (l vc : Nat) (o : Out) : State :=
  let x := s.link l
  if x.mayGo (s.sends l) vc && !(x.waiting.any (fun w => w.1 == vc)) then s.pushOn l vc o
  else s.setLink l { x with waiting := x.waiting ++ [(vc, o)] }

/-- A message cut into segments of up to `k` bytes, of which there are at most 128 (R479, R484): the number with LAST, and the
body. -/
def segments (k : Nat) (body : List Byte) : List (Byte × List Byte) :=
  let n := min 128 (max 1 ((body.length + k - 1) / k))
  (List.range n).map (fun i => (BitVec.ofNat 8 (i + if i + 1 = n then 128 else 0), (body.drop (k * i)).take k))

/-- A frame or message that is neither sequenced nor held. -/
def State.emit (s : State) (o : Out) : State := { s with out := s.out ++ [o] }

/-- A port qualifies for EVT frames (R421). -/
def State.evtPort (s : State) (p : Nat) : Bool :=
  s.bit (aLP_CTL p) fLP_CTL_EVT && s.bit (aLP_STAT p) fLP_STAT_SESSION

/-- An EVT frame to one port. -/
def State.evtTo (s : State) (p : Port) (kind : Byte) (code : BitVec 16) : State :=
  s.sendFrame p.val 3 (.evt p kind code s.count)

/-- An EVT frame to every port that qualifies now (R421). -/
def State.evt (s : State) (kind : Byte) (code : BitVec 16) : State :=
  let s1 := if s.evtPort 0 then s.evtTo 0 kind code else s
  if s.evtPort 1 then s1.evtTo 1 kind code else s1

/-! ## The event log (R493 to R495) -/

/-- The 64 bytes of a log entry. -/
def logBytes (s : State) (typ flags : Nat) (code index : Nat) (payload : List Byte) : List Byte :=
  let body := leBytes 1 typ ++ leBytes 1 flags ++ leBytes 2 code ++ leBytes 4 s.mgt.boots ++ leBytes 8 index
    ++ leBytes 8 s.count.toNat ++ leBytes 4 s.mgt.uptime ++ (payload ++ List.replicate 32 0#8).take 32
  body ++ leBytes 4 (crc32 body).toNat

/-- A log entry written: INDEX next, the oldest block of 4,096 entries erased when the ring of 1,048,576 is full. `summary`
marks a summary entry (R499). -/
def State.logEntry (s : State) (summary : Bool) (typ code : Nat) (payload : List Byte) : State :=
  let next := s.wide aMGT_LOGNEXT 2
  let old := s.wide aMGT_LOGOLD 2
  let flags := (if s.bit aTBS_STATE fTBS_STATE_TIME_VALID then 0 else 2) + summary.toNat
  let e := logBytes s typ flags code next payload
  let s1 := if next - old < 1048576 then s
    else { s.setWide aMGT_LOGOLD 2 (old + 4096) with mgt := { s.mgt with log := s.mgt.log.drop 4096 } }
  { s1.setWide aMGT_LOGNEXT 2 (next + 1) with mgt := { s1.mgt with log := s1.mgt.log ++ [e] } }

/-- A log entry other than a summary. -/
def State.log (s : State) (typ code : Nat) (payload : List Byte) : State := s.logEntry false typ code payload

/-! ## Digest items (R386) -/

/-- Digest ticks are formed (R386): the module is one of a pair or joins one. -/
def State.pairing (s : State) : Bool :=
  let st := s.fld aTWN_STAT fTWN_STAT_STATE
  let phase := s.fld aTWN_JOIN fTWN_JOIN_PHASE
  decide (3 ≤ st ∧ st ≤ 5) || decide (st = 2 ∧ 1 ≤ phase ∧ phase ≤ 3)

/-- An item put with those of its digest tick. -/
def State.tickItem (s : State) (it : TickItem) : State :=
  if s.pairing then { s with twn := { s.twn with items := s.twn.items ++ [it] } } else s

/-! ## Regions of the plain and of HBM (R21, R334) -/

/-- The regions of the plain, in the order of R21's table: segment store, staging, excursion, scheduler, ferry,
management, control store. -/
inductive Region where
  | segment | staging | excursion | scheduler | ferry | management | control
deriving DecidableEq, Repr

/-- The place of a region in the MEMORY record 01h (R435). -/
def Region.index : Region → Nat
  | .segment => 0 | .staging => 1 | .excursion => 2 | .scheduler => 3 | .ferry => 4 | .management => 5 | .control => 6

/-- The size of a region in MiB (R21). -/
def Region.size : Region → Nat
  | .segment => 32 | .staging => 24 | .excursion => 12 | .scheduler => 8 | .ferry => 8 | .management => 8 | .control => 4

/-- The base of a region of the plain in bytes; with no structure in force there is none. -/
def State.plainBase (s : State) (r : Region) : Option Nat := (s.str.plain[r.index]?).map (· * 1048576)

/-- The index of the HBM region of a kind, the lowest one. -/
def State.hbmRegion (s : State) (kind : Nat) : Option Nat :=
  (List.range 16).find? (fun r => s.fld (aHBM_RGN_KIND r) fHBM_RGN_KIND_KIND == kind)

/-- The base of the HBM region of a kind, in bytes. -/
def State.hbmBase (s : State) (kind : Nat) : Nat :=
  match s.hbmRegion kind with
  | some r => s.fld (aHBM_RGN_BASE r) fHBM_RGN_BASE_BASE * 1048576
  | none => 0

end Sys2Proof.Machine
end

