-- ==== Sys2Proof/Machine/Flags.lean ====
section
/-! DEFINITION. Task control blocks and event flags: the control block's image in the plain (R271), the live task of a
channel (R272, R273), gangs (R100), and what a post does to a flag word (R258, R259). -/
namespace Sys2Proof.Machine

/-- The code of a task state (R272). -/
def TaskState.code : TaskState → Nat
  | .free => 0 | .dormant => 1 | .armed => 2 | .ready => 3 | .running => 4 | .staged => 5 | .waiting => 6
  | .done => 7 | .faulted => 8 | .cancelled => 9

/-- A task is live from its start until it reaches DONE, FAULTED or CANCELLED (R272). -/
def TaskState.live : TaskState → Bool
  | .ready => true | .running => true | .staged => true | .waiting => true
  | _ => false

/-- The control block of a task. -/
def State.task (s : State) (n : Nat) : Task := Tab.get (fun _ => {}) s.tasks n

/-- Count bits [63:0] of an optional instant; 0 for none (R271). -/
def optCount (c : Option Count) : Nat :=
  match c with
  | some t => t.toNat % 2 ^ 64
  | none => 0

/-- The 64 bytes of a control block (R271). -/
def Task.bytes (t : Task) : List Byte :=
  leBytes 1 t.state.code
  ++ leBytes 1 (t.prio + 64 * t.aged.toNat + 128 * t.ctx.toNat)
  ++ leBytes 1 t.base
  ++ leBytes 1 (t.group + 16 * t.aset)
  ++ leBytes 2 t.chan ++ leBytes 2 t.chain
  ++ leBytes 8 t.f.toNat ++ leBytes 8 t.w.toNat
  ++ leBytes 1 (t.all.toNat + 2 * t.stepWait.toNat + 4 * t.delayArmed.toNat + 8 * t.guardArmed.toNat)
  ++ leBytes 1 t.table ++ leBytes 2 t.step ++ leBytes 2 (min t.lwait 0xFFFF) ++ leBytes 1 t.endc ++ leBytes 1 0
  ++ leBytes 2 (t.loops.getD 0 0) ++ leBytes 2 (t.loops.getD 1 0) ++ leBytes 2 (t.loops.getD 2 0)
  ++ leBytes 2 (t.loops.getD 3 0)
  ++ leBytes 8 (optCount t.tdue) ++ leBytes 8 (optCount t.sdue)
  ++ leBytes 8 (if t.state = .ready ∨ t.state = .running ∨ t.state = .staged then optCount t.readyAt else 0)

/-- The state with a control block set, and its image in the plain where a structure places the region (R271). -/
def State.setTask (s : State) (n : Nat) (t : Task) : State :=
  let s1 := { s with tasks := Tab.set (fun _ => {}) s.tasks n t }
  match s.plainBase .scheduler with
  | some b => { s1 with sram := Memory.writeBytes s1.sram (b + n * 64) t.bytes }
  | none => s1

/-- The leader of a channel's gang, or the channel itself (R100). -/
def State.leader (s : State) (ch : Nat) : Nat :=
  ch - s.fld (aCH_STAT (islOf ch) (locOf ch)) fCH_STAT_GANG_K

/-- The number of members of a channel's gang, 1 outside a gang. -/
def State.gangSize (s : State) (ch : Nat) : Nat :=
  s.fld (aCH_STAT (islOf ch) (locOf ch)) fCH_STAT_GANG_N + 1

/-- The members of a channel's gang. -/
def State.members (s : State) (ch : Nat) : List Nat :=
  (List.range (s.gangSize ch)).map (fun k => s.leader ch + k)

/-- A channel is a gang member other than the leader. -/
def State.follower (s : State) (ch : Nat) : Bool :=
  s.fld (aCH_STAT (islOf ch) (locOf ch)) fCH_STAT_GANG_K != 0

/-- The live task of a channel, or of its gang's leader (R258, R273). -/
def State.liveTask (s : State) (ch : Nat) : Option Nat :=
  (s.tasks.find? (fun p => p.2.chan == s.leader ch && p.2.state.live)).map (·.1)

/-- The channels with a live task. -/
def State.liveTasks (s : State) : List Nat :=
  (s.tasks.filter (fun p => p.2.state.live)).map (·.1)

/-- A post applied to a flag word: bits cleared, then bits set. -/
def State.flagTask (s : State) (n : Nat) (set clear : BitVec 64) : State :=
  let t := s.task n
  s.setTask n { t with f := (t.f &&& ~~~ clear) ||| set }

/-- A module channel as an operand. -/
abbrev chanFin (n : Nat) : Chan := Fin.ofNat 256 n

/-- The channel of a local channel of an island (R84). -/
abbrev chanOf (n c : Nat) : Nat := 4 * n + c

/-- The channel's DRV_EN bit. -/
def State.drvEn (s : State) (ch : Nat) : Bool := s.bit (aCH_CTL (islOf ch) (locOf ch)) fCH_CTL_DRV_EN

/-- Some channel of the module has its drivers enabled (R66). -/
def State.anyDriver (s : State) : Bool := (List.range 256).any s.drvEn

/-- The twin states of R376. -/
abbrev twDetached : Nat := 0
abbrev twNegotiate : Nat := 1
abbrev twSolo : Nat := 2
abbrev twActive : Nat := 3
abbrev twJoining : Nat := 4
abbrev twStandby : Nat := 5
abbrev twHoldoff : Nat := 6

/-- The twin state. -/
def State.twin (s : State) : Nat := s.fld aTWN_STAT fTWN_STAT_STATE

/-- The module is ACTIVE or ACTIVE_SOLO. -/
def State.isActive (s : State) : Bool := s.twin == twSolo || s.twin == twActive

/-- A join is in progress, or the resynchronisation of a pair after SAFE_N, which goes as a join (R392, R393). -/
def State.joins (s : State) : Bool :=
  decide (1 ≤ s.fld aTWN_JOIN fTWN_JOIN_PHASE) && decide (s.fld aTWN_JOIN fTWN_JOIN_PHASE ≤ 3)

/-- A standby is being resynchronised after SAFE_N (R392). -/
def State.resyncs (s : State) : Bool := s.twin == twStandby && s.twn.safeSplit && s.joins

/-- The module's islands start no computation (R376, R393): in HOLDOFF, and in a joiner until 128 cycles after the run
origin. -/
def State.twinIdle (s : State) : Bool :=
  s.twin == twHoldoff || ((s.twin == twJoining || s.resyncs) && (match s.twn.origin with
    | some o => Count.before s.count (o + cyc 128)
    | none => true))

/-- The module is JOINING or STANDBY. -/
def State.isStandby (s : State) : Bool := s.twin == twJoining || s.twin == twStandby

/-- The module is the time master (R61): MPAIR and an active role. -/
def State.isMaster (s : State) : Bool := s.bit aTBS_CTL fTBS_CTL_MPAIR && s.isActive

/-- The module is the arming master (R20). -/
def State.isArmMaster (s : State) : Bool := s.bit aACQ_STAT fACQ_STAT_MASTER && s.isActive

end Sys2Proof.Machine
end

