-- ==== Sys2Proof/Machine/HbmQueue.lean ====
section
/-! DEFINITION. The queues of the HBM controller (R335 to R339, R345): regions and address mapping, requests on their way to
the stack, row hits, age and the in-order mode. -/
namespace Sys2Proof.Machine

/-! ## Regions and mapping (R334, R335) -/

/-- The HBM region that holds an offset (R334). -/
def State.hbmRegionAt (s : State) (off : Nat) : Option Nat :=
  (List.range 16).find? (fun r =>
    let b := s.fld (aHBM_RGN_BASE r) fHBM_RGN_BASE_BASE * 1048576
    let z := s.fld (aHBM_RGN_SIZE r) fHBM_RGN_SIZE_SIZE * 1048576
    s.fld (aHBM_RGN_KIND r) fHBM_RGN_KIND_KIND != 0 && decide (b ≤ off) && decide (off < b + z))

/-- Where an offset of a region of base `b` and grain `g` lies (R335): pseudo-channel and address in it. -/
def hbmPlace (b g a : Nat) : Nat × Nat :=
  let o := a - b
  (o / g % 16, o / (16 * g) * g + o % g + b / 16)

/-! ## Requests -/

/-- The stack takes requests: trained, and no training runs (R348). -/
def State.hbmReady (s : State) : Bool := s.bit aHBM_STAT fHBM_STAT_TRAINED && !(s.bit aHBM_STAT fHBM_STAT_TRAINING)

/-- An internal requester may go on: the block is enabled and the stack takes requests (R348, R353). -/
def State.hbmOpen (s : State) : Bool := s.blkOn 12 && s.hbmReady

/-- A pseudo-channel's state behind its registers. -/
def State.hbmPc (s : State) (k : Nat) : HbmPc := Tab.get (fun _ => {}) s.hbm.pcs k

/-- The state with a pseudo-channel set. -/
def State.setHbmPc (s : State) (k : Nat) (x : HbmPc) : State :=
  { s with hbm := { s.hbm with pcs := Tab.set (fun _ => {}) s.hbm.pcs k x } }

/-- The bank of a request, with its SID, and its row (R335). -/
def HbmReq.bank (r : HbmReq) : Nat := r.place / 2 ^ 29 * 16 + r.place / 1024 % 16
def HbmReq.row (r : HbmReq) : Nat := r.place / 16384 % 32768

/-- Two requests target the same row. -/
def HbmReq.sameRow (r x : HbmReq) : Bool := r.bank == x.bank && r.row == x.row

/-- The queue of a pseudo-channel, oldest first: 64 entries (R333). -/
def State.hbmQueue (s : State) (k : Nat) : List HbmReq :=
  (s.hbm.queue.filter (fun r => r.pc == k && !r.held)).take 64

/-- Requests in flight, as HBM_STAT.INFLT shows them. -/
def State.hbmInflight (s : State) : Nat := (List.range 16).foldl (fun n k => n + (s.hbmQueue k).length) 0

/-- A read matches the row of an earlier write still in the queue (R339). -/
def rowWaits : List HbmReq → Bool
  | [] => false
  | r :: rs => (r.write && rs.any (fun x => !x.write && x.sameRow r)) || rowWaits rs

/-- The in-order mode of a pseudo-channel as its queue now demands it; INORD counts the entries (R339). -/
def State.judgeOrder (s : State) (k : Nat) : State :=
  let now := rowWaits (s.hbmQueue k)
  let x := s.hbmPc k
  if now = x.inOrder then s
  else
    let s1 := s.setHbmPc k { x with inOrder := now }
    if now then s1.bump (aHBM_PC_INORD k) else s1

/-- A request for the line of an HBM offset joins its pseudo-channel's queue; a write comes here before its bytes. -/
def State.hbmRequest (s : State) (requester a : Nat) (write : Bool) : State :=
  match s.hbmRegionAt a with
  | none => s
  | some r =>
    let m := hbmPlace (s.fld (aHBM_RGN_BASE r) fHBM_RGN_BASE_BASE * 1048576)
      (2 ^ s.fld (aHBM_RGN_KIND r) fHBM_RGN_KIND_LOG2G) (a / 64 * 64)
    let q : HbmReq := {
      requester := requester, line := a / 64, pc := m.1, place := m.2, write := write, since := s.count
      held := !(s.blkOn 12), old := if write then Memory.readBytes s.hbmMem (a / 64 * 64) 64 else [] }
    { s with hbm := { s.hbm with queue := s.hbm.queue ++ [q] } }.judgeOrder m.1

/-- Requests for every line that an access touches. -/
def State.hbmRequests (s : State) (requester : Nat) (write : Bool) (lines : List Nat) : State :=
  lines.foldl (fun s l => s.hbmRequest requester (64 * l) write) s

/-- The 64-byte lines that an access of `n` bytes touches (R336). -/
def linesOf (off n : Nat) : List Nat := (List.range ((off + n - 1) / 64 - off / 64 + 1)).map (fun k => off / 64 + k)

/-- Bytes written to HBM by a requester. -/
def State.hbmWrite (s : State) (requester off : Nat) (data : List Byte) : State :=
  let s1 := s.hbmRequests requester true (linesOf off data.length)
  { s1 with hbmMem := Memory.writeBytes s1.hbmMem off data }

/-- Controller cycles at 900 MHz between two instants. -/
def hbmCycles (from_ to_ : Count) : Nat := (to_ - from_).toNat * 3 / 640

/-! ## What a queue serves next (R338, R339, R345) -/

/-- A request finds its row open: left open, and not yet closed when the request came (R337). -/
def HbmPc.hit (x : HbmPc) (r : HbmReq) : Bool :=
  match Tab.get (fun _ => none) x.rows r.bank with
  | none => false
  | some (row, closing) => row == r.row && (match closing with
    | none => true
    | some c => Count.upto r.since c)

/-- The BURST of a real-time requester; 0 where none is declared (R345, R346). -/
def State.hbmBurst (s : State) (q : Nat) : Nat := if q < 4 then s.fld (aHBM_REQ_BURST q) fHBM_REQ_BURST_BURST else 0

/-- A burst has reached its bound, with more of it queued and another requester waiting (R345). -/
def State.burstSplit (s : State) (k : Nat) : Bool :=
  let run := (s.hbmPc k).run
  let q := s.hbmQueue k
  s.hbmBurst run.1 != 0 && decide (s.hbmBurst run.1 ≤ run.2) && q.any (fun r => r.requester == run.1)
    && q.any (fun r => r.requester != run.1)

/-- The request that a pseudo-channel serves next: the oldest in the in-order mode; else one passed over by AGEMAX later
requests; else the oldest row hit; else the oldest. A burst at its bound lets the other requesters go first. -/
def State.hbmPick (s : State) (k : Nat) : Option HbmReq :=
  let x := s.hbmPc k
  let q := s.hbmQueue k
  if x.inOrder then q.head?
  else
    let q1 := if s.burstSplit k then q.filter (fun r => r.requester != x.run.1) else q
    match q.find? (fun r => decide (s.fld aHBM_CFG fHBM_CFG_AGEMAX ≤ r.passed)) with
    | some r => some r
    | none =>
      match q1.find? x.hit with
      | some r => some r
      | none => q1.head?

/-- The hint of a request (R337, R346): 0 OPEN, 1 CLOSE, 2 AUTO; a host port's is its region's. -/
def State.hbmHint (s : State) (r : HbmReq) : Nat :=
  if r.requester = 6 ∨ r.requester = 7 then
    match s.hbmRegionAt (64 * r.line) with
    | some g => s.fld (aHBM_RGN_KIND g) fHBM_RGN_KIND_HINT
    | none => 0
  else if r.requester = 2 ∨ 8 ≤ r.requester then 1
  else if r.requester = 3 then 2
  else 0

/-- What becomes of the row of a request served: closed, left open, or left open for IDLE controller cycles unless another
queued request targets it (R337). -/
def State.rowAfter (s : State) (r : HbmReq) (rest : List HbmReq) : Option (Nat × Option Count) :=
  let h := s.hbmHint r
  if h = 1 then none
  else if h = 2 ∧ rest.any (fun x => x.sameRow r) = false then
    some (r.row, some (s.count + BitVec.ofNat 72 (s.fld aHBM_CFG fHBM_CFG_IDLE * 640 / 3)))
  else some (r.row, none)

/-- The older requests of a pseudo-channel are passed over by one that is served. -/
def passOver (r : HbmReq) : List HbmReq → List HbmReq
  | [] => []
  | x :: xs => if x = r then xs else (if x.pc = r.pc ∧ !x.held then { x with passed := x.passed + 1 } else x) :: passOver r xs

/-- A request served (R336, R338, R339, R345): it leaves the queue, and its latency, the row, the hits, the bytes and the burst
count. -/
def State.hbmServe (s : State) (r : HbmReq) : State :=
  let k := r.pc
  let s0 := if s.burstSplit k && r.requester != (s.hbmPc k).run.1 then (s.latch aHBM_LAT fHBM_LAT_SPLIT).bump aHBM_SPLITS else s
  let x := s0.hbmPc k
  let rest := passOver r s0.hbm.queue
  let y : HbmPc := { x with
    rows := Tab.set (fun _ => none) x.rows r.bank (s0.rowAfter r (rest.filter (fun z => z.pc == k)))
    run := (r.requester, if x.run.1 = r.requester then x.run.2 + 1 else 1)
    hits := (x.hit r :: x.hits).take (2 ^ 20) }
  let s1 := ({ s0 with hbm := { s0.hbm with
    queue := rest
    served := (r.requester, s0.count) :: s0.hbm.served.filter (fun (e : Nat × Count) =>
      decide (hbmCycles e.2 s0.count < 2 ^ 20)) } }.setHbmPc k y).maxReg (aHBM_REQ_LMAX r.requester)
        (min 0xFFFFFFFF (hbmCycles r.since s0.count))
  s1.judgeOrder k

/-- Requests that waited for HBM to be enabled join their queues (R353). -/
def State.hbmUnhold (s : State) : State :=
  let s1 := { s with hbm := { s.hbm with queue := s.hbm.queue.map (fun r => { r with held := false }) } }
  (List.range 16).foldl State.judgeOrder s1

/-- The requests still queued go: what they were to write is not written (R353). -/
def State.hbmFlush (s : State) : State :=
  let s1 := (s.hbm.queue.reverse.filter (fun r => r.write)).foldl (fun s r =>
    { s with hbmMem := Memory.writeBytes s.hbmMem (64 * r.line) r.old }) s
  { s1 with hbm := { s1.hbm with queue := [] } }

end Sys2Proof.Machine
end

