-- ==== Sys2Proof/Machine/Records.lean ====
section
/-! DEFINITION. Records and streams as every island forms them: the 64-byte layouts of R301 to R303, append (R304), chunks
and chains (R324), staging, basins and losses (R317 to R321), and excursion entries on their way to the writer (R327,
R328, R533). -/
namespace Sys2Proof.Machine

/-- A record of 64 bytes: type, byte 01h, channel, bytes 04h to 07h, time, payload cut or padded to 48 bytes (R301). -/
def recBytes (typ b1 ch : Nat) (w4 : List Byte) (time : Count) (payload : List Byte) : List Byte :=
  leBytes 1 typ ++ leBytes 1 b1 ++ leBytes 2 ch ++ (w4 ++ List.replicate 4 0#8).take 4 ++ leBytes 8 time.toNat
    ++ (payload ++ List.replicate 48 0#8).take 48

/-- The stream of a class: 0 A, 1 B, 2 C, 3 D. -/
def State.stream (s : State) (cls : Nat) : Stream := Tab.get (fun _ => {}) s.acq.streams cls

/-- The state with a class's stream set. -/
def State.setStream (s : State) (cls : Nat) (x : Stream) : State :=
  { s with acq := { s.acq with streams := Tab.set (fun _ => {}) s.acq.streams cls x } }

/-- The bytes of a chunk's records, concatenated. -/
def chunkBytes (rs : List (List Byte)) : List Byte := rs.flatten

/-- A chunk closed: the chain head moves on, unless the chunk is empty (R324). -/
def Stream.close (x : Stream) : Stream :=
  if x.chunk.isEmpty then x
  else
    { x with
      head := Config.sha384 (digestBytes x.head ++ digestBytes (Config.sha384 (chunkBytes x.chunk)))
      chunk := []
      chunks := 0 }

/-- A record in the chain: a chunk ends at 2,048 records. -/
def Stream.chain (x : Stream) (r : List Byte) : Stream :=
  let y := { x with chunk := x.chunk ++ [r], chunks := x.chunks + 1 }
  if y.chunks = 2048 then y.close else y

/-- Records of a class in its basin: appended, not taken, not staged. -/
def State.basinFill (s : State) (cls : Nat) : Nat :=
  (s.wide (aBSN_WR cls) 2 - s.wide (aBSN_ACK cls) 2) - (s.stream cls).staged.length

/-- The basin of a class is full. -/
def State.basinFull (s : State) (cls : Nat) : Bool := decide (s.fld (aBSN_SIZE cls) ⟨31, 0⟩ ≤ s.basinFill cls)

/-- A class's part of the staging region holds no further record, or the region's 24 MiB hold 393,216 records (R21, R317). -/
def State.stagePart (s : State) (cls : Nat) : Bool :=
  decide (Config.stagingRecords cls ≤ (s.stream cls).staged.length)
    || decide (393216 ≤ (List.range 4).foldl (fun n c => n + (s.stream c).staged.length) 0)

/-- The staging part of a class is full; judged only where its records cannot move on into the basin. -/
def State.stageFull (s : State) (cls : Nat) : Bool := (s.basinFull cls || !s.hbmOpen) && s.stagePart cls

/-- The blocks that the spill store holds (R320). -/
def State.spillHeld (s : State) : Nat := s.acq.streams.foldl (fun n p => n + p.2.spilled.length + p.2.old.length) 0

/-- The spill store is full: it holds 62,500,000 blocks, or the block that the next one would replace (R320). -/
def State.spillFull (s : State) : Bool :=
  decide (62500000 ≤ s.spillHeld) || s.acq.streams.any (fun p =>
    (p.2.old ++ p.2.spilled).any (fun b => b.1 % 62500000 == s.acq.spillNext % 62500000))

/-- What a reset leaves of a class's stream (R332): its blocks in the spill store, which the host takes next. -/
def Stream.kept (x : Stream) : Stream :=
  let old := x.old ++ x.spilled
  let n := match old with
    | [] => 0
    | b :: _ => max x.taken b.2
  { old := old, sent := n, taken := n }

/-- What a reset leaves of the streams. -/
def keptStreams (xs : Tab Stream) : Tab Stream :=
  (xs.map (fun (p : Nat × Stream) => (p.1, p.2.kept))).filter (fun p => p.2 != ({} : Stream))

/-- The HBM address of record `i` of a class: its basin is a ring of records (R317). -/
def State.basinAddr (s : State) (cls i : Nat) : Nat :=
  s.hbmBase (cls + 1) + (if s.fld (aBSN_SIZE cls) ⟨31, 0⟩ = 0 then 0 else i % s.fld (aBSN_SIZE cls) ⟨31, 0⟩) * 64

/-- The oldest staged record moves into the basin while there is room and HBM takes requests (R317, R348, R353). -/
def State.drainStage (s : State) (cls : Nat) : Nat → State
  | 0 => s
  | n + 1 =>
    match (s.stream cls).staged with
    | [] => s
    | r :: rs =>
      if s.basinFull cls || !s.hbmOpen then s
      else
        let i := s.wide (aBSN_WR cls) 2 - (rs.length + 1)
        let s1 := s.hbmWrite (if cls = 2 then 1 else 0) (s.basinAddr cls i) r
        (s1.setStream cls { s1.stream cls with staged := rs }).drainStage cls n

/-- A record of a class finds no room: class A with staging, basin and spill store full (R321), class D with its staging
part or its basin full (R318), classes B and C with both full. -/
def State.noRoom (s : State) (cls : Nat) : Bool :=
  if cls = 0 then s.stageFull 0 && s.basinFull 0 && s.spillFull
  else if cls = 3 then s.basinFull 3 || s.stagePart 3
  else s.stageFull cls

/-- A record appended to a class now: chained and staged, or lost where it finds no room (R318, R321). -/
def State.appendNow (s : State) (cls : Nat) (r : List Byte) : State :=
  if s.noRoom cls then
    let s1 := s.bump (aBSN_DROP cls)
    if cls = 0 then ((s1.latch aACQ_LAT fACQ_LAT_ALOST).causeOn 82 0).raise 82 islAcquisition
    else (s1.latch aACQ_LAT fACQ_LAT_DROP).raise 86 islAcquisition
  else
    let x := (s.stream cls).chain r
    let s1 := s.setStream cls { x with staged := x.staged ++ [r] }
    let s2 := s1.setWide (aBSN_WR cls) 2 (s1.wide (aBSN_WR cls) 2 + 1)
    let s3 := s2.maxReg (aBSN_MAXF cls) (s2.wide (aBSN_WR cls) 2 - s2.wide (aBSN_ACK cls) 2)
    s3.drainStage cls ((s3.stream cls).staged.length)

/-- The order of held records: by append time, then TYPE, then CHANNEL, then the second byte, where the quantity or
the capture slot stands (R304). -/
def HeldRec.first (x y : HeldRec) : Bool :=
  Count.before x.append y.append ||
    (x.append == y.append &&
      (let kx := (byteAt x.bytes 0 * 65536 + fieldAt x.bytes 2 2) * 256 + byteAt x.bytes 1
       let ky := (byteAt y.bytes 0 * 65536 + fieldAt y.bytes 2 2) * 256 + byteAt y.bytes 1
       decide (kx < ky)))

/-- A held record in its place. -/
def insertHeld (r : HeldRec) : List HeldRec → List HeldRec
  | [] => [r]
  | x :: xs => if HeldRec.first r x then r :: x :: xs else x :: insertHeld r xs

/-- A record formed with an append time and the times of its values: held until then (R304). Nothing is formed while the
stream has not started. -/
def State.appendTimes (s : State) (cls : Nat) (at_ : Count) (times : List Count) (r : List Byte) : State :=
  if s.bit aACQ_STAT fACQ_STAT_RUN then
    let x := s.stream cls
    s.setStream cls { x with held := insertHeld ⟨at_, r, times⟩ x.held }
  else s

/-- A record other than one of reduced values, formed with its append time. -/
def State.append (s : State) (cls : Nat) (at_ : Count) (r : List Byte) : State := s.appendTimes cls at_ [] r

/-- Records of a class whose append time lies before a limit are appended, oldest first; those of class A but seals, rate
and spill records enter the digest (R386). -/
def State.releaseCls (s : State) (cls : Nat) (limit : Count) : Nat → State
  | 0 => s
  | n + 1 =>
    match (s.stream cls).held with
    | [] => s
    | r :: rs =>
      if Count.before r.append limit then
        let s1 := (s.setStream cls { s.stream cls with held := rs }).appendNow cls r.bytes
        let t := byteAt r.bytes 0
        (if cls = 0 ∧ t ≠ 0x25 ∧ t ≠ 0x26 ∧ t ≠ 0x27 then s1.tickItem (.record r.append r.bytes) else s1).releaseCls cls
          limit n
      else s

/-- Class A waits for the copies of excursion entries on their way to the writer, and for a seal on its way (R304, R325,
R328): the limit up to which its records may be appended. -/
def State.limitA (s : State) (limit : Count) : Count :=
  s.agenda.foldl (fun m d =>
    let t := match d.act with
      | .cmd (.excursionWrite _ _ _ time _ _) => time
      | .seal t _ _ _ => t
      | _ => m
    if Count.before t m then t else m) limit

/-- The records of a class whose append time lies before a limit are appended. -/
def State.releaseOf (s : State) (cls : Nat) (limit : Count) : State := s.releaseCls cls limit ((s.stream cls).held.length)

/-- Every record whose append time lies before a limit is appended, class by class. -/
def State.releaseTo (s : State) (limit : Count) : State :=
  (((s.releaseOf 0 (s.limitA limit)).releaseOf 1 limit).releaseOf 2 limit).releaseOf 3 limit

/-- A record of class A whose append time is its TIME, formed now. -/
def State.appendA (s : State) (time : Count) (r : List Byte) : State := s.append 0 time r

/-- The time-anchor record (R303): REASON 0 stream start, 1 bits [39:0] zero, 2 after a step, 3 ANCHOR command. On a
standby the fields of state, source, hop, path and phase error are those shipped by the active. -/
def anchorRec (s : State) (reason : Nat) : List Byte :=
  let own := (s.fld aTBS_STATE fTBS_STATE_STATE + 8 * s.fld aTBS_SRC fTBS_SRC_SRC
        + 32 * s.fld aTBS_STATE fTBS_STATE_TIME_VALID,
      s.fld aTBS_HOP fTBS_HOP_HOP, (s.reg aTBS_PATH).toNat, (s.reg aTBS_PHERR).toNat)
  let f := if s.isStandby then
      match s.twn.anchor with
      | some (st, src, v, hop, path, err) =>
        (st.toNat + 8 * src.toNat + 32 * v.toNat, hop.toNat, path.toNat, err.toNat)
      | none => own
    else own
  recBytes 0x20 reason 0xFFFF (leBytes 1 f.1 ++ leBytes 1 0 ++ leBytes 2 f.2.1) s.count
    (leBytes 9 s.count.toNat ++ leBytes 7 0 ++ leBytes 4 f.2.2.1 ++ leBytes 4 f.2.2.2)

/-- The acquisition island emits a time-anchor record (R60). -/
def State.anchor (s : State) (reason : Nat) : State := s.appendA s.count (anchorRec s reason)

/-- An excursion entry sent to the writer, due 96 cycles after its TIME (R328). -/
def State.excursion (s : State) (src : Fin 80) (kind detail ch : Nat) (time : Count) (value limit : Word) : State :=
  s.issueCmd src 74 (time + cyc 96)
    (.excursionWrite (BitVec.ofNat 8 kind) (BitVec.ofNat 8 detail) (BitVec.ofNat 16 ch) time value limit)

end Sys2Proof.Machine
end

