-- ==== Sys2Proof/Machine/Operands.lean ====
section
/-! DEFINITION. How a register is named and written: addresses and aliases (R33, R48), owners (R36), value checks (R50),
the class rules (R35, R37, R39) and multi-word quantities (R46), one shared operation for every register of every block. -/
namespace Sys2Proof.Machine

/-- The alias word of a REG offset within a block, as register offset and bit (R48); `none` for a register's own
offset. -/
def aliasOf (off : Nat) : Option (Nat × Nat) :=
  if 0x10000 ≤ off ∧ off < 0x20000 ∧ off % 4 = 0 then some ((off - 0x10000) / 128 * 4, (off - 0x10000) % 128 / 4)
  else none

/-- The header offsets of a block (R34). -/
def isHeader (off : Nat) : Bool := off == 0 || off == 4 || off == 8 || off == 12

/-- The row of an address's register, with its indices and word; the header registers have none. -/
def rowAt (a : Nat) : Option (RegRow × List Nat × Nat) := findRow (blockRows (a / 0x100000)) (a % 0x100000)

/-- An address names a register: a header word or a word of a row (R33). -/
def assigned (a : Nat) : Bool :=
  let b := a / 0x100000
  let off := a % 0x100000
  blockExists b && decide (off < 0x8000) && (isHeader off || (findRow (blockRows b) off).isSome)

/-- An address is a word of a multi-word quantity (R46). -/
def multiWord (a : Nat) : Bool :=
  match rowAt a with
  | some (r, _, _) => decide (1 < r.words)
  | none => false

/-- The register address of a word of REG space, and the bit of an alias word. -/
def regTarget (a : Nat) : Nat × Option Nat :=
  match aliasOf (a % 0x100000) with
  | some (r, b) => (a / 0x100000 * 0x100000 + r, some b)
  | none => (a, none)

/-- The owner of a row's CFG fields is enabled (R36). -/
def State.ownerOn (s : State) (a : Nat) (own : Owner) (idx : List Nat) : Bool :=
  let b := a / 0x100000
  let n := b - 64
  match own with
  | .block => s.blkOn b
  | .chan => s.drvEn (chanOf n (idx.getD 0 0))
  | .loop => s.bit (aLCH_CTL (idx.getD 0 0)) fLCH_CTL_EN
  | .unit => s.bit (aMU_CTL n (idx.getD 0 0)) fMU_CTL_EN
  | .mon => s.bit (aMON_CTL n (idx.getD 0 0)) fMON_CTL_EN
  | .port => s.bit (aLP_CTL (idx.getD 0 0)) fLP_CTL_EN
  | .pin => if idx.getD 0 0 < 24 then s.drvEn (chanOf n (idx.getD 0 0 / 6)) else s.blkOn b

/-- The monitors of a channel (R143): those of its six pins. -/
def State.chanMons (_s : State) (ch : Nat) : List Nat := (List.range 6).map (fun k => 6 * locOf ch + k)

/-- The latch of a monitor as its uses read it: on a STANDBY module, the shadow of the active's latch stands in for a
bound monitor's own (R383). -/
def State.monLatch (s : State) (n m : Nat) : Bool :=
  if s.twin == twStandby && (s.bit (aMON_BIND n m) fMON_BIND_INH || s.bit (aMON_BIND n m) fMON_BIND_FLAG_EN) then
    (Tab.get (fun _ => ({} : Mon)) s.mons (n * 26 + m)).shadow
  else (s.reg (aMON_LAT n)).getLsbD m

/-- UNSETTLED of a monitor as its uses read it (R153, R383). -/
def State.monUnsettled (s : State) (n m : Nat) : Bool :=
  if s.twin == twStandby && (s.bit (aMON_BIND n m) fMON_BIND_INH || s.bit (aMON_BIND n m) fMON_BIND_FLAG_EN) then
    (Tab.get (fun _ => ({} : Mon)) s.mons (n * 26 + m)).shadowUns
  else (s.reg (aMON_UNS n)).getLsbD m

/-- The latch and UNSETTLED of a monitor as they stood at an instant of the last 96 cycles (R384). -/
def State.monPast (s : State) (n m : Nat) (at_ : Count) : Bool × Bool :=
  let rec back : List (Count × Bool × Bool) → Bool × Bool → Bool × Bool
    | [], v => v
    | (t, l, u) :: r, v => if Count.before at_ t then back r (l, u) else v
  back (Tab.get (fun _ => ({} : Mon)) s.mons (n * 26 + m)).past (s.monLatch n m, s.monUnsettled n m)

/-- The latch and UNSETTLED of a monitor as the conditions of R106 take them (R384). -/
def State.monJudged (s : State) (n m : Nat) : Bool × Bool :=
  if s.twin = twActive ∨ s.twin = twJoining ∨ s.twin = twStandby then s.monPast n m (s.count - cyc 96)
  else (s.monLatch n m, s.monUnsettled n m)

/-- A monitor of the channel with MON_BIND.INH has its latch set (R102). -/
def State.monHolds (s : State) (ch : Nat) : Bool :=
  (s.chanMons ch).any (fun m => s.bit (aMON_BIND (islOf ch) m) fMON_BIND_INH && s.monLatch (islOf ch) m)

/-- Such a latch of another member of the gang is set (R102). -/
def State.gangHolds (s : State) (ch : Nat) : Bool :=
  (s.members ch).any (fun k => k != ch && s.monHolds k)

/-- A sensor's latest sample lies beyond a warning limit (R491). -/
def State.sensorBeyond (s : State) (n : Nat) : Bool :=
  let v := (s.reg (aMGT_SENS n)).toInt
  let hi := s.fld (aMGT_WARN n) fMGT_WARN_HI
  let lo := s.fld (aMGT_WARN n) fMGT_WARN_LO
  (hi != 0x7FFF && decide (signed 16 hi < v)) || (lo != 0x8000 && decide (v < signed 16 lo))

/-- The exact guards armed (R289). -/
def State.guards (s : State) : Nat :=
  (s.tasks.filter (fun p => p.2.guardArmed && s.fld (aSCH_GRP1 p.2.group) fSCH_GRP1_DISC != 0)).length

/-- The bits of a LAT register whose cause is active now, so that a clear is refused (R37). -/
def State.latCause (s : State) (a : Nat) : Word :=
  let b := a / 0x100000
  let off := a % 0x100000
  let n := b - 64
  let bitIf (c : Bool) (i : Nat) : Word := if c then 1#32 <<< i else 0
  if 64 ≤ b then
    if a = aISL_LAT n then bitIf (!s.power.safeN) 2
    else if a = aMON_LAT n then s.reg (aMON_CAUSE n)
    else if 0x100 ≤ off ∧ off < 0x200 ∧ off % 0x40 = 0x1C then
      let ch := chanOf n ((off - 0x100) / 0x40)
      bitIf (s.monHolds ch) 0 ||| bitIf (s.gangHolds ch) 1 ||| bitIf (!s.power.safeN) 2
    else if 0xE80 ≤ off ∧ off < 0xFA0 ∧ off % 0x20 = 0 then
      bitIf (s.bit (aMU_STAT n ((off - 0xE80) / 0x20)) fMU_STAT_SENSE_LOSS) 0
    else 0
  else if b = 7 ∧ 0x1000 ≤ off ∧ off % 0x40 = 0x20 then
    bitIf (s.fld (aPL_STAT ((off - 0x1000) / 0x40)) fPL_STAT_STATE == 2) 0
  else if a = aSCH_LAT then bitIf (decide (4096 ≤ s.guards)) 2
  else if a = aLNK_LAT then
    bitIf (s.ltssm 0 != ltActive) 0 ||| bitIf (s.ltssm 1 != ltActive) 1 ||| bitIf (s.causeStands 102) 6
  else if a = aACQ_LAT then bitIf (s.bit aACQ_LAT fACQ_LAT_ALOST && s.stageFull 0) 3
  else if a = aMGT_WARNLAT 0 then
    (List.range 32).foldl (fun w i => w ||| bitIf (s.sensorBeyond i) i) 0
  else if a = aMGT_WARNLAT 1 then bitIf (s.sensorBeyond 32) 0 ||| bitIf (s.sensorBeyond 33) 1
  else if a = aHBM_LAT then bitIf (!(s.bit aHBM_STAT fHBM_STAT_TRAINED)) 6
  else if a = aCAL_LAT then bitIf (!(s.bit aCAL_REFSTAT fCAL_REFSTAT_REFOK)) 2
  else if a = aTWN_LAT then
    bitIf (s.bit aTWN_STAT fTWN_STAT_OWN && s.bit aTWN_STAT fTWN_STAT_PEER_OWN) 4
  else if a = aSEC_LAT then
    bitIf (s.fld aSEC_STAT fSEC_STAT_STATE == 2) 0 ||| bitIf (s.bit aSEC_STAT fSEC_STAT_SUSP) 2
      ||| bitIf (s.causeStands 114) 3
  else 0

/-- The formats that a pin may take (R95), as a mask over the codes; pin 25 takes PATTERN only. -/
def State.fmtOk (s : State) (n p code : Nat) : Bool :=
  if p = 25 then code == 4 else code != 4 && (s.fld (aPIN_STAT n p) fPIN_STAT_FMT_OK).testBit code

/-- A channel's loop runs on an engine that the loader has checked in mode FIXED (R166, R167). -/
def State.fixedMode (s : State) (ch : Nat) : Bool :=
  (s.loopRec ch).bound && s.bit (aENG_STAT (s.loopRec ch).eng) fENG_STAT_MODE

/-- The value checks that read other state (R91, R97, R95, R93, R152, R123, R331, R167). `w` is the word as it would
stand. -/
def State.specialOk (s : State) (a : Nat) (idx : List Nat) (w : Word) : Special → Bool
  | .acqcfg => decide (getF w fACQ_CFG_LWM < getF w fACQ_CFG_HWM)
  | .chdt =>
    let n := a / 0x100000 - 64
    let fl := s.fld (aCH_DTFLOOR n (idx.getD 0 0)) fCH_DTFLOOR_FLOOR
    decide (fl ≤ getF w fCH_DT_DTF) && decide (fl ≤ getF w fCH_DT_DTR)
  | .chphase =>
    let n := a / 0x100000 - 64
    let ch := 4 * n + idx.getD 0 0
    decide (getF w fCH_PHASE_PHASE < s.fld (aCH_PERIOD n (idx.getD 0 0)) fCH_PERIOD_PERIOD)
      && (!(s.fixedMode ch) || getF w fCH_PHASE_PHASE == (s.loopRec ch).fixedPhase)
  | .dllcfg => decide (getF w fDLL_CFG_LOCK_TOL ≤ getF w fDLL_CFG_UNLOCK_TOL)
  | .lchcfg =>
    let x := s.loopRec (idx.getD 0 0)
    decide (x.mindiv ≤ getF w fLCH_CFG_UPD_DIV)
      && (!(s.fixedMode (idx.getD 0 0)) || getF w fLCH_CFG_UPD_DIV == x.mindiv)
  | .moncfg => !(decide (24 ≤ idx.getD 0 0) && decide (getF w fMON_CFG_CLR_PS = 1))
  | .pincfg =>
    let n := a / 0x100000 - 64
    decide (getF w fPIN_CFG_SRC ≠ 3) && decide (getF w fPIN_CFG_FORMAT ≤ 4)
      && s.fmtOk n (idx.getD 0 0) (getF w fPIN_CFG_FORMAT)

/-- One value check of a row. -/
def State.chkOk (s : State) (a : Nat) (idx : List Nat) (w : Word) : Chk → Bool
  | .nz hi lo => decide (getF w ⟨hi, lo⟩ ≠ 0)
  | .rng hi lo min max => decide (min ≤ getF w ⟨hi, lo⟩) && decide (getF w ⟨hi, lo⟩ ≤ max)
  | .zeroClears => decide (w = 0)
  | .wideNz => true
  | .onesRestarts => decide (w = 0xFFFFFFFF#32)
  | .special k => s.specialOk a idx w k

/-- The bits that word `k` of a quantity of `bits` bits has. -/
def wordMask (bits k : Nat) : Word := if 32 * (k + 1) ≤ bits then 0xFFFFFFFF#32 else bitMask (bits - 32 * k - 1) 0

/-- A register word after a write under the class rules (R35, R39): CFG and RUN fields take the data, LAT fields are
cleared by a 1 unless their cause is active, STA and reserved bits ignore it. Only the bits of `mask` are written. -/
def classWord (flds : List FldRow) (old data mask cause : Word) : Word :=
  flds.foldl (fun w f =>
    let m := bitMask f.hi f.lo &&& mask
    match f.cls with
    | .cfg => (w &&& ~~~ m) ||| (data &&& m)
    | .run => (w &&& ~~~ m) ||| (data &&& m)
    | .lat => w &&& ~~~ (data &&& m &&& ~~~ cause)
    | .sta => w
    | .lock => w) old

/-- A row has a CFG field among the bits of a mask. -/
def hasCfg (flds : List FldRow) (mask : Word) : Bool :=
  flds.any (fun f => f.cls == .cfg && (bitMask f.hi f.lo &&& mask) != 0)

/-- The key of a port's copy of a word in the staging and shadow tables. -/
def portKey (by_ : Issuer) (a : Nat) : Nat :=
  match by_ with
  | .port p => p.val * 2 ^ 28 + a
  | .forwarded p => (2 + p.val) * 2 ^ 28 + a
  | .island _ => 4 * 2 ^ 28 + a

/-- The staged word of a port, if it has staged one. -/
def State.staged (s : State) (by_ : Issuer) (a : Nat) : Option Word := Tab.get (fun _ => none) s.staging (portKey by_ a)

/-- The state with a port's staged word set or cleared. -/
def State.setStaged (s : State) (by_ : Issuer) (a : Nat) (w : Option Word) : State :=
  { s with staging := Tab.set (fun _ => none) s.staging (portKey by_ a) w }

/-- The words below the most significant one, as a port has staged them, applied to the quantity (R46). -/
def State.applyStaged (s : State) (by_ : Issuer) (base bits k : Nat) : Nat → State
  | 0 => s
  | n + 1 =>
    let a := base + 4 * k
    let s1 := match s.staged by_ a with
      | some w => (s.setReg a (w &&& wordMask bits k)).setStaged by_ a none
      | none => s
    s1.applyStaged by_ base bits (k + 1) n

/-- A write of the bits `mask` of the register at an address under the class rules, with its refusals. The cause of a LAT
field is active where it stands (R37) or hardware has set the field in the present cycle (R37, R38); a counter raised in
the present cycle reads 1 after its clear (R52). A wide quantity refused for its value keeps what the port has staged
(DESIGN CHOICE, log entry 66). -/
def State.classWrite (s : State) (by_ : Issuer) (a : Nat) (data mask : Word) : State :=
  let off := a % 0x100000
  if off = 0 ∨ off = 4 ∨ off = 12 then s
  else if off = 8 then
    let w := s.reg a &&& ~~~ (data &&& mask &&& 15 &&& ~~~ s.freshAt a)
    let s1 := s.setReg a w
    if w = 0 then s1.setReg (a + 4) 0 else s1
  else
    match rowAt a with
    | none => s
    | some (r, idx, k) =>
      if hasCfg r.flds mask && s.ownerOn a r.own idx && decide (k + 1 = r.words) then s.reject by_ .cfg a
      else if 1 < r.words then
        if r.flds.any (fun f => f.cls == .run || f.cls == .cfg) then
          if k + 1 < r.words then s.setStaged by_ a (some data)
          else
            let base := a - 4 * k
            let s1 := s.applyStaged by_ base r.bits 0 k
            let s2 := s1.setReg a (data &&& wordMask r.bits k)
            if r.chk.contains .wideNz && s2.wide base r.words == 0 then s.reject by_ .val a else s2
        else s
      else
        let w := classWord r.flds (s.reg a) data mask (s.latCause a ||| s.freshAt a)
        if r.flds.any (fun f => f.cls == .cfg || f.cls == .run) && !(r.chk.all (s.chkOk a idx w)) then
          s.reject by_ .val a
        else s.setReg a (if r.chk.contains .zeroClears && s.freshAt a != 0 then 1 else w)

end Sys2Proof.Machine
end

