-- ==== Sys2Proof/Machine/Measure.lean ====
section
/-! DEFINITION. What measurement, calibration, loops and acquisition share (chapters 5, 7 and 14): units and their
bindings, gates, scaling and the bounded slew, the result of a gate, the unit in service for a quantity, the offsets of
R170, shipping, and the early end of a calibration sequence. -/
namespace Sys2Proof.Machine

/-! ## Units and gates (R128 to R131) -/

/-- The state of a measurement unit; the key is 9 × island + unit. -/
def State.mu (s : State) (n u : Nat) : Meas := Tab.get (fun _ => {}) s.meas (9 * n + u)

/-- The state with a unit's state set. -/
def State.setMu (s : State) (n u : Nat) (x : Meas) : State :=
  { s with meas := Tab.set (fun _ => {}) s.meas (9 * n + u) x }

/-- The quantity that a unit measures: 1 voltage, 2 current, 3 other, 0 none (R128). -/
def State.muQty (s : State) (n u : Nat) : Nat := s.fld (aMU_BIND n u) fMU_BIND_QTY

/-- The channel that a unit's result belongs to. -/
def State.muChan (s : State) (n u : Nat) : Nat := chanOf n (s.fld (aMU_BIND n u) fMU_BIND_CH)

/-- A unit measures a pin: unit 8 measures SPS, and a unit without a binding none (R128). -/
def State.muOnPin (s : State) (n u p : Nat) : Bool :=
  if u = 8 then p == 24 else s.muQty n u != 0 && s.fld (aMU_BIND n u) fMU_BIND_PIN == p

/-- HOP, GPH and GATE of a unit, in cycles. -/
def State.muHop (s : State) (n u : Nat) : Nat := s.fld (aMU_HOP n u) ⟨31, 0⟩
def State.muGph (s : State) (n u : Nat) : Nat := s.fld (aMU_GPH n u) ⟨31, 0⟩
def State.muGate (s : State) (n u : Nat) : Nat := s.wide (aMU_GATE n u) 2

/-- The start of the first gate that starts at or after a count (R129, R130): its end lies on the grid. -/
def State.firstGate (s : State) (n u : Nat) (c : Count) : Count :=
  let g := 128 * s.muGate n u
  Count.gridFrom (c + BitVec.ofNat 72 g) (128 * s.muGph n u) (128 * s.muHop n u) - BitVec.ofNat 72 g

/-- The gates that have started by a count, opened in order. -/
def Meas.open (x : Meas) (gate hop : Nat) (now : Count) : Nat → Meas
  | 0 => x
  | k + 1 =>
    match x.next with
    | none => x
    | some st =>
      if Count.upto st now then
        Meas.open { x with
          gates := x.gates ++ [{ start := st, stop := st + cyc gate }]
          next := some (st + cyc hop) } gate hop now k
      else x

/-- The state with a unit's gates opened up to a count; at most four are open at a time (R130). -/
def State.openGates (s : State) (n u : Nat) (now : Count) : State :=
  s.setMu n u ((s.mu n u).open (s.muGate n u) (s.muHop n u) now 8)

/-- Every gate of a unit that is open at a count ends STALE (R119, R123). -/
def State.spoil (s : State) (n u : Nat) (now : Count) : State :=
  let s1 := s.openGates n u now
  let x := s1.mu n u
  s1.setMu n u { x with gates := x.gates.map (fun g => if Count.before now g.stop then { g with stale := true } else g) }

/-- The TAC that stamps a pin: assigned and enabled (R125). -/
def State.tacOf (s : State) (n p : Nat) : Option Nat :=
  (List.range 2).find? (fun k => (Tab.get (fun _ => ({} : Tac)) s.tacs (2 * n + k)).assigned
    && s.bit (aTAC_CFG n k) fTAC_CFG_EN && s.fld (aTAC_CFG n k) fTAC_CFG_PIN == p)

/-- The open gates of an island's units that depend on a DLL stamp end STALE (R123). -/
def State.spoilDll (s : State) (n : Nat) : State :=
  (List.range 9).foldl (fun s u =>
    let p := if u = 8 then 24 else s.fld (aMU_BIND n u) fMU_BIND_PIN
    if (s.tacOf n p).isSome then s else s.spoil n u s.count) s

/-! ## Scaling (R136) and the slew (R361) -/

/-- A 48-bit coefficient as a signed number. -/
abbrev coefInt (c : BitVec 48) : Int := c.toInt

/-- The scaled value under a set, exact, in units of 2⁻¹¹² unit (R136). -/
def Coef.scaled (c : Coef) (f : BitVec 56) : Int :=
  let x : Int := (f.toNat : Int) - (c.f0.toNat : Int)
  coefInt c.c0 * (2 ^ 96 : Nat) + coefInt c.c1 * x * (2 ^ 52 : Nat) + coefInt c.c2 * (x * x)

/-- A value in 2⁻¹¹² unit rounded to units, ties away from zero. -/
def unitRound (v : Int) : Int := divRound v (2 ^ 112)

/-- The step s of the bounded slew in 2⁻¹⁶ unit (R361), at least 1. -/
def State.slewStep (s : State) (qty hop : Nat) : Nat :=
  let fs := if qty = 2 then s.fld aCAL_FSI ⟨31, 0⟩ else s.fld aCAL_FSV ⟨31, 0⟩
  max 1 (s.fld aCAL_SLEW fCAL_SLEW_RATE * fs * hop * 2 ^ 16 / (2 ^ 8 * 1500000 * 10 ^ 6))

/-- An offset moved towards 0 by a step. -/
def towardZero (v : Int) (step : Nat) : Int :=
  if v.natAbs ≤ step then 0 else if v < 0 then v + step else v - step

/-- The blend moved at a result that is not STALE, before its value is formed (R361). -/
def Meas.moveBlend (x : Meas) (f : BitVec 56) (step : Nat) : Meas :=
  match x.goal with
  | none => x
  | some g =>
    let d := g.scaled f - x.base.scaled f
    let b := x.blend * (2 ^ 96 : Nat)
    if (d - b).natAbs ≤ step * 2 ^ 96 then { x with base := g, goal := none, blend := 0 }
    else { x with blend := if d < b then x.blend - step else x.blend + step }

/-! ## Sequences and the unit in service (R128, R133, R360) -/

/-- The state of a sequencer. -/
def State.seqn (s : State) (q : Nat) : CalSeq := Tab.get (fun _ => {}) s.cals q

/-- The state with a sequencer set. -/
def State.setSeqn (s : State) (q : Nat) (x : CalSeq) : State :=
  { s with cals := Tab.set (fun _ => {}) s.cals q x }

/-- The phase of a sequencer (R360). -/
def State.seqPhase (s : State) (q : Nat) : Nat := s.fld (aCALQ_STAT q) fCALQ_STAT_PHASE

/-- A sequencer runs a sequence. -/
def State.seqRuns (s : State) (q : Nat) : Bool := decide (1 ≤ s.seqPhase q) && decide (s.seqPhase q ≤ 7)

/-- The island and the channel of a sequencer's sequence. -/
def State.seqIsl (s : State) (q : Nat) : Nat := s.fld (aCALQ_STAT q) fCALQ_STAT_ISLAND
def State.seqChan (s : State) (q : Nat) : Nat := chanOf (s.seqIsl q) (s.fld (aCALQ_STAT q) fCALQ_STAT_CH)

/-- The unit that is bound for a channel's voltage (q 0) or current (q 1): the lowest of units 0 to 7 (R128). -/
def State.boundUnit (s : State) (ch q : Nat) : Option Nat :=
  (List.range 8).find? (fun u => s.muQty (islOf ch) u == q + 1 && s.muChan (islOf ch) u == ch)

/-- The path that the spare serves on an island: channel and quantity of a running main-path sequence, until RETURN has
disabled unit 8 (R133, R360). -/
def State.spareServes (s : State) (n : Nat) : Option (Nat × Nat) :=
  let q := n / 16
  let x := s.seqn q
  if s.seqRuns q && s.seqIsl q == n && decide (x.path < 2) && decide (s.seqPhase q ≤ 6) && !x.returned then
    some (s.seqChan q, x.path)
  else none

/-- The unit in service for a channel's quantity: unit 8 while the spare substitutes for it (R360). -/
def State.inService (s : State) (ch q : Nat) : Option Nat :=
  let x := s.seqn (islOf ch / 16)
  if x.sub && s.spareServes (islOf ch) == some (ch, q) then some 8 else s.boundUnit ch q

/-- The channel and quantity for which a unit is in service. -/
def State.servesPath (s : State) (n u : Nat) : Option (Nat × Nat) :=
  if u = 8 then
    (match s.spareServes n with
     | some (ch, q) => if s.inService ch q = some 8 then some (ch, q) else none
     | none => none)
  else
    let q := s.muQty n u - 1
    let ch := s.muChan n u
    if (s.muQty n u = 1 ∨ s.muQty n u = 2) ∧ s.inService ch q = some u then some (ch, q) else none

/-- The quantity by which a unit's scale slews (R361): unit 8 takes that of the path it serves. -/
def State.slewQty (s : State) (n u : Nat) : Nat :=
  if u = 8 then
    (match s.spareServes n with
     | some (_, q) => q + 1
     | none => 3)
  else s.muQty n u

/-! ## What the active ships (R378) -/

/-- The module ships: it is active and has a standby or a joiner. -/
def State.shipping (s : State) : Bool :=
  s.twin == twActive || (s.twin == twSolo && decide (1 ≤ s.fld aTWN_JOIN ⟨31, 28⟩) && decide (s.fld aTWN_JOIN ⟨31, 28⟩ ≤ 3))

/-- A result joins the group of its island and due time among the items that wait (R378, R424). -/
def joinGroup (isl : Isl) (u : Fin 8) (y : BitVec 32) (flags : BitVec 8) (due : Count) :
    List ShipItem → List ShipItem
  | [] => [.group isl [(u, y, flags)] due]
  | .group i rs d :: t =>
    if i = isl ∧ d = due then .group i (rs ++ [(u, y, flags)]) d :: t else .group i rs d :: joinGroup isl u y flags due t
  | x :: t => x :: joinGroup isl u y flags due t

/-- An item put with those that wait to be shipped. -/
def State.shipItem (s : State) (it : ShipItem) : State :=
  if s.shipping then { s with twn := { s.twn with ship := s.twn.ship ++ [it] } } else s

/-- A result shipped where its unit is in service: of units 0 to 7 in the group of its gate end, of unit 8 alone. -/
def State.shipResult (s : State) (n u : Nat) (y : BitVec 32) (flags : BitVec 8) (due : Count) : State :=
  if !s.shipping || (s.servesPath n u).isNone then s
  else if u = 8 then s.shipItem (.result (Fin.ofNat 64 n) 8 flags y due)
  else { s with twn := { s.twn with ship := joinGroup (Fin.ofNat 64 n) (Fin.ofNat 8 u) y flags due s.twn.ship } }

/-! ## Monitor latches (R149 to R153, R378, R384) -/

/-- The state of a monitor; the key is 26 × island + monitor. -/
def State.mon (s : State) (n m : Nat) : Mon := Tab.get (fun _ => {}) s.mons (n * 26 + m)

/-- The state with a monitor set. -/
def State.setMon (s : State) (n m : Nat) (x : Mon) : State :=
  { s with mons := Tab.set (fun _ => {}) s.mons (n * 26 + m) x }

/-- A monitor is bound to its channel (R154). -/
def State.monBound (s : State) (n m : Nat) : Bool :=
  s.bit (aMON_BIND n m) fMON_BIND_INH || s.bit (aMON_BIND n m) fMON_BIND_FLAG_EN

/-- The values of a monitor's latch and UNSETTLED before a change, kept for 96 cycles (R384). -/
def State.monNote (s : State) (n m : Nat) (at_ : Count) : State :=
  let x := s.mon n m
  s.setMon n m { x with
    past := (at_, s.monLatch n m, s.monUnsettled n m) :: x.past.filter (fun e => Count.upto (s.count - cyc 96) e.1) }

/-- FS 41's cause ends when every bound monitor of the island is settled (R158). -/
def State.settled41 (s : State) (n : Nat) : State :=
  if (List.range 26).any (fun m => s.monBound n m && (s.reg (aMON_UNS n)).getLsbD m) then s else s.causeOff 41 n

/-- A monitor's own latch and UNSETTLED change at an instant: shown in the registers, kept in the history, shipped where
the monitor is bound (R378), and the causes of FS 40 and FS 41 follow (R158). -/
def State.monChange (s : State) (n m : Nat) (latch uns : Bool) (at_ : Count) : State :=
  let was := (s.reg (aMON_LAT n)).getLsbD m
  let wasU := (s.reg (aMON_UNS n)).getLsbD m
  if latch = was ∧ uns = wasU then s
  else
    let s1 := s.monNote n m at_
    let s1 := if latch && !was then s1.mark (aMON_LAT n) (fldWord ⟨m, m⟩ 1) else s1
    let s2 := (((s1.setFld (aMON_LAT n) ⟨m, m⟩ latch.toNat).setFld (aMON_UNS n) ⟨m, m⟩ uns.toNat).setBit
      (aMON_STAT n m) fMON_STAT_UNSETTLED uns).settled41 n
    let s3 := if s2.monBound n m then
        s2.shipItem (.latch (Fin.ofNat 64 n) (Fin.ofNat 26 m) latch uns (at_ + cyc 96)) else s2
    if s3.reg (aMON_LAT n) = 0 then s3.causeOff 40 n else s3

/-! ## Offsets and inputs (R168 to R170) -/

/-- The loop state of a channel. -/
def State.lch (s : State) (ch : Nat) : LoopChan := Tab.get (fun _ => {}) s.loops ch

/-- The state with a channel's loop state set. -/
def State.setLch (s : State) (ch : Nat) (x : LoopChan) : State :=
  { s with loops := Tab.set (fun _ => {}) s.loops ch x }

/-- The offset of a channel's quantity in 2⁻¹⁶ unit. -/
def State.offset (s : State) (ch q : Nat) : Int := if q = 0 then (s.lch ch).offV else (s.lch ch).offI

/-- The state with an offset set, LCH_DV or LCH_DI showing it rounded, and BLEND (R170, R360). -/
def State.setOffset (s : State) (ch q : Nat) (v : Int) : State :=
  let x := s.lch ch
  let s1 := s.setLch ch (if q = 0 then { x with offV := v } else { x with offI := v })
  let w := BitVec.ofInt 32 (sat32 (divRound v (2 ^ 16)))
  let s2 := if q = 0 then s1.setReg (aLCH_DV ch) w else s1.setReg (aLCH_DI ch) w
  let served := (s2.seqn (islOf ch / 16)).sub && (match s2.spareServes (islOf ch) with
    | some (c, _) => c == ch
    | none => false)
  s2.setBit (aLCH_STAT ch) fLCH_STAT_BLEND (served || s2.offset ch 0 != 0 || s2.offset ch 1 != 0)

/-- A result with an offset applied, rounded to nearest, ties away from zero, saturated to 32 bits. -/
def withOffset (y : BitVec 32) (off : Int) : BitVec 32 :=
  BitVec.ofInt 32 (sat32 (divRound (y.toInt * (2 ^ 16 : Nat) + off) (2 ^ 16)))

/-- The newest result of the module's own unit in service for a channel's quantity. -/
def State.localQuant (s : State) (ch q : Nat) : Quantity := Tab.get (fun _ => {}) s.quants (2 * ch + q)

/-- The newest result that the active ships for a channel's quantity. -/
def State.shipQuant (s : State) (ch q : Nat) : Quantity := Tab.get (fun _ => {}) s.ships (2 * ch + q)

/-- The newest input of a channel's quantity, as loops, compares and reductions read it (R168 to R170, R305): LOCAL, the
module's own result with the offset; SHIPPED, the active's. -/
def State.quant (s : State) (ch q : Nat) : Quantity :=
  if s.bit aLPE_SRC fLPE_SRC_SRC then s.shipQuant ch q
  else { s.localQuant ch q with y := withOffset (s.localQuant ch q).y (s.offset ch q) }

/-- The state with a channel's own result set, and with a shipped one set. -/
def State.setLocal (s : State) (ch q : Nat) (x : Quantity) : State :=
  { s with quants := Tab.set (fun _ => {}) s.quants (2 * ch + q) x }
def State.setShip (s : State) (ch q : Nat) (x : Quantity) : State :=
  { s with ships := Tab.set (fun _ => {}) s.ships (2 * ch + q) x }

/-- A channel's input of a quantity now: for a gang's current, the sum over its members, saturating, with the OR of their
flags (R168). -/
def State.inputNow (s : State) (ch q : Nat) : BitVec 32 × BitVec 8 :=
  if q = 1 ∧ 1 < s.gangSize ch then
    let ms := s.members ch
    (BitVec.ofInt 32 (sat32 (ms.foldl (fun a c => a + (s.quant c 1).y.toInt) 0)),
      ms.foldl (fun f c => f ||| (s.quant c 1).flags) 0)
  else ((s.quant ch q).y, (s.quant ch q).flags)

/-! ## Codes on CSL (R98, R99, R357) -/

/-- A code sent on CSL of an island from the present cycle; one that is due before the previous code ends is discarded. -/
def State.startCode (s : State) (n len : Nat) (bits : BitVec 64) : State :=
  let busy := match Tab.get (fun _ => none) s.codes n with
    | some (c : Code) => Count.before s.at c.stop
    | none => false
  if !(s.blkOn (islBlk n)) then s
  else if busy then (s.latch (aISL_LAT n) fISL_LAT_PAT_COLL).raise 34 (Fin.ofNat 80 n)
  else
    let div := s.fld (aPAT_CFG n) fPAT_CFG_DIV
    let first := Count.ceilTo s.at 128
    let c : Code := ⟨first, first + cyc (len * div), len, div, bits⟩
    let s1 := { s.latch (aISL_STAT n) fISL_STAT_PAT_BUSY with codes := Tab.set (fun _ => none) s.codes n (some c) }
    if s.fld (aPIN_STAT n 25) fPIN_STAT_ROLE = 9 then s1.emit (.code (Fin.ofNat 64 n) first len div bits) else s1

/-- A code of the card's reference switch (R357): preamble A5h, OP, local channel, quantity, complement. -/
def switchCode (op c q : Nat) : BitVec 64 :=
  let h := 0xA500 + op * 16 + c * 4 + q * 2
  BitVec.ofNat 64 (h * 2 ^ 48 + (0xFFFF - h))

/-- The operations of the card's reference switch (R357). -/
abbrev opSpareLive : Nat := 1
abbrev opPathRef : Nat := 2
abbrev opPathLive : Nat := 3
abbrev opSpareRef : Nat := 4
abbrev opSpareIdle : Nat := 5

/-- A code of a sequence sent with LEN 64; a mirrored sequence sends none (R365). -/
def State.sendSwitch (s : State) (q op : Nat) : State :=
  let x := s.seqn q
  if x.mirrored then s
  else s.startCode (s.seqIsl q) 64 (switchCode op (s.fld (aCALQ_STAT q) fCALQ_STAT_CH) (x.path % 2))

/-! ## The end of a sequence (R364) -/

/-- The input of the quantity that a unit is bound for is no longer in force (R171). -/
def State.dropQuant (s : State) (n u : Nat) : State :=
  let q := s.muQty n u - 1
  let ch := s.muChan n u
  if (s.muQty n u = 1 ∨ s.muQty n u = 2) ∧ u < 8 ∧ s.boundUnit ch q = some u then
    (s.setLocal ch q { s.localQuant ch q with valid := false, staleRun := 0 }).setShip ch q
      { s.shipQuant ch q with valid := false, staleRun := 0 }
  else s

/-- A unit disabled: its open gates are discarded without a result (R130). -/
def State.muOff (s : State) (n u : Nat) : State :=
  ((s.setFld (aMU_CTL n u) fMU_CTL_EN 0).setMu n u { s.mu n u with next := none, gates := [], valid := false }).dropQuant
    n u

/-- Some sequencer is in POINTS. -/
def State.inPoints (s : State) : Bool := (List.range 4).any (fun q => s.seqPhase q == 4)

/-- A reference check that waits begins once no sequencer is in POINTS (R355). -/
def State.refStart (s : State) : State :=
  if s.calRec.waiting && !s.calRec.checking && !s.inPoints then
    { s with calRec := { s.calRec with checking := true, checkFrom := s.count } }
  else s

/-- A sequencer's status: phase and cause. -/
def State.setPhase (s : State) (q phase cause : Nat) : State :=
  (s.setReg (aCALQ_STAT q) (putF (putF (s.reg (aCALQ_STAT q)) fCALQ_STAT_PHASE phase) fCALQ_STAT_CAUSE cause)).refStart

/-- The cycles of a 64-bit code of an island (R98, R357), and TSW of the card's settling after it (R358). -/
def State.codeTime (s : State) (n : Nat) : Count := cyc (64 * s.fld (aPAT_CFG n) fPAT_CFG_DIV)
def State.switchTime (s : State) (n : Nat) : Count := s.codeTime n + cyc (1500 * s.fld aCAL_CFG fCAL_CFG_TSW)

/-- RELEASE begins (R360): the bus goes idle and the path returns to its live input. -/
def State.seqRelease (s : State) (q : Nat) : State :=
  let s1 := s.setPhase q 5 (s.fld (aCALQ_STAT q) fCALQ_STAT_CAUSE)
  (s1.setSeqn q { s1.seqn q with
    bus := none, onBus := false, sum := 0, n := 0, begun := none
    endAt := some (s1.count + s1.switchTime (s1.seqIsl q)) }).sendSwitch q opPathLive

/-- Unit 8 as a sequence leaves it: disabled, where the sequence has enabled it. -/
def State.unit8Off (s : State) (q : Nat) : State :=
  if s.bit (aMU_CTL (s.seqIsl q) 8) fMU_CTL_EN then s.muOff (s.seqIsl q) 8 else s

/-- A sequence ends early with a cause (R364): FS 42; a path on the bus runs RELEASE and RETURN first, unless OWN is lost,
which also clears OFFS. -/
def State.seqEnd (s : State) (q cause : Nat) (ownLost : Bool) : State :=
  if !s.seqRuns q then s
  else
    let x := s.seqn q
    let s1 := (s.setFld (aCALQ_STAT q) fCALQ_STAT_CAUSE cause).raise 42 (Fin.ofNat 80 (s.seqIsl q))
    if ownLost then
      let ch := s.seqChan q
      let sub := x.sub
      let s2 := ((s1.unit8Off q).setPhase q 9 cause).setSeqn q {}
      if sub then s2.setOffset ch x.path 0 else s2
    else if x.onBus && decide (x.path < 2) then
      ((s1.setSeqn q { x with ending := some cause }).seqRelease q)
    else if s.seqPhase q = 5 ∨ s.seqPhase q = 6 then s1.setSeqn q { x with ending := some cause }
    else ((s1.unit8Off q).setPhase q 9 cause).setSeqn q {}

/-- Every sequence ends early (R364, R371). -/
def State.seqEndAll (s : State) (cause : Nat) (ownLost : Bool) : State :=
  (List.range 4).foldl (fun s q => s.seqEnd q cause ownLost) s

/-- A sequence that a unit serves ends on a STALE result of it (R364, cause 8): the path unit or, in a main-path sequence,
unit 8. -/
def State.seqStale (s : State) (n u : Nat) : State :=
  let q := n / 16
  let x := s.seqn q
  let serves := if x.path < 2 then
      (u == 8 && !x.returned) || s.boundUnit (s.seqChan q) x.path == some u
    else u == 8
  if s.seqRuns q && s.seqIsl q == n && decide (s.seqPhase q ≤ 6) && x.ending.isNone && serves then s.seqEnd q 8 false
  else s

/-! ## The result of a gate (R133 to R136) -/

/-- Flags of R135. -/
abbrev rfVALID : BitVec 8 := 1
abbrev rfSTALE : BitVec 8 := 2
abbrev rfWDISC : BitVec 8 := 4
abbrev rfLOST : BitVec 8 := 8
abbrev rfSAT : BitVec 8 := 16
abbrev rfSLEWING : BitVec 8 := 32
abbrev rfTAC : BitVec 8 := 64

/-- The channel of a unit's events: of unit 8, the one whose path the spare serves, if any (R133). A unit that the XBAR
section leaves without a binding has none (DESIGN CHOICE, log entry 69). -/
def State.eventChan (s : State) (n u : Nat) : Option Nat :=
  if u = 8 then (s.spareServes n).map (·.1) else if s.muQty n u = 0 then none else some (s.muChan n u)

/-- Sense loss (R133): SENSE_LOSS, FS 38, E_SENSE, and the excursion entry with the result's due time. -/
def State.senseLoss (s : State) (n u : Nat) (y : BitVec 32) (due : Count) : State :=
  let isl : Fin 80 := Fin.ofNat 80 n
  let s1 := (((s.latch (aMU_STAT n u) fMU_STAT_SENSE_LOSS).latch (aMU_LAT n u) fMU_LAT_SENSE).causeOn 38 (9 * n + u)).raise
    38 isl
  let s2 := match s.eventChan n u with
    | some ch => s1.postAt isl (chanFin ch) eSense 0 (due + cyc 96)
    | none => s1
  s2.excursion isl 4 u ((s.eventChan n u).getD 0xFFFF) due y 0

/-- A result in service reaches the loop-engine island of its channel too (R27, R134): the ford figures there. -/
def State.loopSees (s : State) (n u : Nat) (due : Count) : State :=
  match s.servesPath n u with
  | some (ch, _) =>
    if (s.loopRec ch).bound && Count.upto (s.count + cyc 64) due then s.crossed (64 + (s.loopRec ch).eng % 8) due else s
  | none => s

/-- A result of a unit (R133, R135): counts, latches, FS 36 and FS 39 at the first of a run, sense loss, and its issue to
the loop engines and to acquisition with its due time. -/
def State.giveResult (s : State) (n u : Nat) (f : BitVec 56) (y : BitVec 32) (flags : BitVec 8) (cnt : Nat)
    (ySat : Bool) (due : Count) : State :=
  let isl : Fin 80 := Fin.ofNat 80 n
  let stale := flags.getLsbD 1
  let lost := flags.getLsbD 3
  let x := s.mu n u
  let s1 := (s.bump (aMU_RCNT n u)).setReg (aMU_N n u) (BitVec.ofNat 32 (cnt % 2 ^ 30))
  let s2 := if stale then s1.bump (aMU_SCNT n u) else s1
  let w := fldWord fMU_LAT_STALE stale.toNat ||| fldWord fMU_LAT_WDISC (flags.getLsbD 2).toNat
    ||| fldWord fMU_LAT_LOST lost.toNat ||| fldWord fMU_LAT_SAT (flags.getLsbD 4).toNat
  let s3 := (s2.setReg (aMU_LAT n u) (s2.reg (aMU_LAT n u) ||| w)).mark (aMU_LAT n u) w
  let s4 := if lost && !x.lostRun then s3.raise 36 isl else s3
  let s5 := if ySat && !x.satRun then s4.raise 39 isl else s4
  let run := if stale then x.staleRun + 1 else 0
  let s6 := s5.setMu n u { s5.mu n u with staleRun := run, lostRun := lost, satRun := ySat }
  let s7 := if stale then
      (if s6.fld (aMU_CFG n u) fMU_CFG_LOSS_N ≤ run ∧ s6.bit (aMU_STAT n u) fMU_STAT_SENSE_LOSS = false then
        (s6.senseLoss n u y due) else s6)
    else (s6.setFld (aMU_STAT n u) fMU_STAT_SENSE_LOSS 0).causeOff 38 (9 * n + u)
  let s8 := (if stale then s7.seqStale n u else s7).loopSees n u due
  (s8.shipResult n u y flags due).issue isl 74 due 3
    (.cmd (.resultDue (Fin.ofNat 64 n) (Fin.ofNat 9 u) f y flags))

/-- A time-base step ends every open gate of every unit (R130): one STALE result for those of a unit, due 128 cycles after
the count loaded; gates restart on the new count. -/
def State.stepUnits (s : State) (old : Count) : State :=
  (List.range 64).foldl (fun s n => (List.range 9).foldl (fun s u =>
    if (s.mu n u).next.isNone then s
    else
      let s1 := s.openGates n u old
      let x := s1.mu n u
      let opened := x.gates.any (fun g => Count.before old g.stop)
      let fl := x.gates.foldl (fun w g => w ||| (g.flags &&& (rfWDISC ||| rfLOST ||| rfTAC))) 0
      let s2 := s1.setMu n u { x with gates := [], next := some (s1.firstGate n u s1.count) }
      if opened then
        s2.giveResult n u x.f x.y (rfSTALE ||| fl ||| (if x.goal.isSome then rfSLEWING else 0)) 0 false
          (s2.count + cyc 128)
      else s2) s) s

end Sys2Proof.Machine
end

