-- ==== Sys2Proof/Machine/Hbm.lean ====
section
/-! DEFINITION. The HBM controller (chapter 13): regions and address mapping, completed requests and their errors, the error
log, scrubbing, refresh, training and rate. -/
namespace Sys2Proof.Machine

/-- The pseudo-channel and the address in it of an HBM offset; an offset in no region has no mapping, and both are free. -/
def State.hbmMap (s : State) (a : Nat) : (Nat × Nat) × State :=
  match s.hbmRegionAt a with
  | some r => (hbmPlace (s.fld (aHBM_RGN_BASE r) fHBM_RGN_BASE_BASE * 1048576)
      (2 ^ s.fld (aHBM_RGN_KIND r) fHBM_RGN_KIND_LOG2G) a, s)
  | none => ((s.draw.1 % 16, s.draw.1 / 16 % 1610612736), s.draw.2)

/-- An error entered in the log ring of 64 (R342), its syndrome free, and copied into the event log. -/
def State.hbmLog (s : State) (requester a : Nat) (ue : Bool) : State :=
  let m := s.hbmMap a
  let p := m.1.2
  let w0 := 0x80000000 + ue.toNat * 0x40000000 + m.1.1 * 2 ^ 24 + p / 2 ^ 29 * 2 ^ 22 + p / 1024 % 16 * 2 ^ 18
    + p / 16384 % 32768
  let d := m.2.draw
  let w1 := d.1 % 256 * 2 ^ 24 + requester * 2 ^ 20 + p % 1024 / 8
  let e : ElogEntry := ⟨BitVec.ofNat 32 w0, BitVec.ofNat 32 w1, s.count.setWidth 64⟩
  { d.2 with hbm := { d.2.hbm with elog := (e :: d.2.hbm.elog).take 64 } }.log 0x03 0
    (leBytes 4 e.w0.toNat ++ leBytes 4 e.w1.toNat ++ leBytes 8 e.time.toNat)

/-- What a read finds (R340, R341): verdict 1 a corrected error, 2 and 3 an uncorrectable one. -/
def State.hbmVerdict (s : State) (requester a : Nat) (verdict : BitVec 2) : State :=
  if verdict = 0 then s
  else if verdict = 1 then
    (((s.latch aHBM_LAT fHBM_LAT_CE).bump aHBM_CECNT).hbmLog requester a false).raise 16 islMemory
  else (((s.latch aHBM_LAT fHBM_LAT_UE).bump aHBM_UECNT).hbmLog requester a true).raise 17 islMemory

/-- A 64-byte line of a waiting host read has been read; the read that is complete is answered. -/
def HbmRead.serve (line : Nat) (bad : Bool) (r : HbmRead) : HbmRead :=
  if line ∈ r.left then
    { r with left := r.left.erase line, status := if bad then 7 else r.status } else r

/-- A host read of HBM answered (R47, R341); one that is UNCORRECTABLE sets ACC_REJECT in GLB. -/
def State.hbmAnswer (s : State) (r : HbmRead) : State :=
  let s1 := if r.status = 0 then s else s.rejLatch .acc 0
  s1.sendFrame r.port.val r.vc.toNat (.rdr r.port r.vc r.tag r.status (if r.status = 0 then r.data else []))

/-- The waiting reads of a port after a line has been read: those complete, and those that still wait. -/
def State.hostLine (s : State) (p line : Nat) (bad : Bool) : State :=
  let rs := s.hbm.reads.map (fun (r : HbmRead) => if r.port.val = p then r.serve line bad else r)
  let s1 := { s with hbm := { s.hbm with reads := rs.filter (fun (r : HbmRead) => !r.left.isEmpty) } }
  (rs.filter (fun (r : HbmRead) => r.left.isEmpty)).foldl State.hbmAnswer s1

/-- A basin record that cannot be read is not sent (R341): lost to the link's stream or the spill mover, counted in its
class; of class A, FS 82. -/
def State.basinLoss (s : State) (a : Nat) (link : Bool) : State :=
  match s.hbmRegionAt a with
  | none => s
  | some r =>
    let k := s.fld (aHBM_RGN_KIND r) fHBM_RGN_KIND_KIND
    if 1 ≤ k ∧ k ≤ 4 then
      let c := k - 1
      let x := Tab.get (fun _ => ({} : Stream)) s.acq.streams c
      let size := s.fld (aBSN_SIZE c) ⟨31, 0⟩
      let at_ := s.hbmBase k + (if size = 0 then 0 else x.sent % size) * 64
      let s1 := if link && at_ == a / 64 * 64 then
          { s with acq := { s.acq with streams := Tab.set (fun _ => {}) s.acq.streams c { x with sent := x.sent + 1 } } }
        else s
      let s2 := s1.bump (aBSN_DROP c)
      if c = 0 then s2.raise 82 islAcquisition else s2
    else s

/-- Bytes of a host space overlap the source range of a stream that is read or CHECKED (R439). -/
def State.inSource (s : State) (sp off n : Nat) : Bool :=
  match s.str.range with
  | some (q, a, z) => q == sp && decide (off < a + z) && decide (a < off + n)
  | none => false

/-- What a completed request does (R340, R341): the verdict, and its requester's part: a host read's line, a record that is
not sent, a stream that the loader reads (R438, cause 12). A refill's entry that is not placed is REFILL_ARRIVE's
verdict. -/
def State.hbmDone (s : State) (r : HbmReq) (verdict : BitVec 2) : State :=
  let q := r.requester
  let a := 64 * r.line
  let bad := decide (2 ≤ verdict.toNat)
  let s1 := s.hbmVerdict q a verdict
  if q = 6 ∨ q = 7 then (if r.write then s1 else s1.hostLine (q - 6) r.line bad)
  else if bad && (q == 4 || q == 5) then s1.basinLoss a (q == 5)
  else if bad && q == 8 && s1.bit aSTR_STAT fSTR_STAT_BUSY && s1.inSource 2 a 1 then
    { s1 with str := { s1.str with bad := true } }
  else s1

/-- A request that has not been seen before joins its queue: a read of the refill engine, the spill mover, the link, the
management subsystem or the scrubber, whose moment of issue the rules leave to them (log entry 35). -/
def State.hbmJoin (s : State) (requester line : Nat) : State :=
  if (requester = 3 ∨ requester = 4 ∨ requester = 5 ∨ 8 ≤ requester)
      ∧ s.hbm.queue.any (fun r => r.requester == requester && r.line == line) = false then
    s.hbmRequest requester (64 * line) false
  else s

/-- An all-bank refresh that has been postponed 8 times goes before any further request of its pseudo-channel, but for one
that continues a burst (R344, R345). -/
def State.refreshFirst (s : State) (r : HbmReq) : State :=
  let run := (s.hbmPc r.pc).run
  if 8 ≤ s.fld (aHBM_PC_DEPTH r.pc) fHBM_PC_DEPTH_POSTP ∧ !(r.requester < 4 && run.1 == r.requester) then
    s.setFld (aHBM_PC_DEPTH r.pc) fHBM_PC_DEPTH_POSTP 0
  else s

/-- HBM_REQUEST_DONE (R336 to R341): the oldest request of a requester for the line of an address completes, where it is the
one that its pseudo-channel serves next; while the stack does not take requests none completes (R348). -/
def execHbmRequestDone (requester : Fin 10) (addr : BitVec 35) (verdict : BitVec 2) (s : State) : Result :=
  if s.hbmReady = false then .next s
  else
    let line := addr.toNat / 64
    let s1 := s.hbmJoin requester.val line
    match s1.hbm.queue.find? (fun r => r.requester == requester.val && r.line == line && !r.held) with
    | none => .next s1
    | some r => if s1.hbmPick r.pc = some r then .next (((s1.refreshFirst r).hbmServe r).hbmDone r verdict) else .next s1

/-- HBM_REQ_BW as it reads (R352): the bytes served in the latest 2²⁰ cycles of the 900 MHz controller. -/
def State.hbmBw (s : State) (q : Nat) : Word :=
  BitVec.ofNat 32 (64 * (s.hbm.served.countP (fun (e : Nat × Count) =>
    e.1 == q && decide (hbmCycles e.2 s.count < 2 ^ 20))))

/-- HBM_PC_HITS as it reads (R352): the row hits among the latest 2²⁰ requests of a pseudo-channel. -/
def State.hbmHits (s : State) (k : Nat) : Word := BitVec.ofNat 32 ((s.hbmPc k).hits.countP id)

/-- SCRUB (R343): a word read with requester number 9; a period of 0 stops the scrubber. -/
def execScrub (addr : BitVec 35) (verdict : BitVec 2) (s : State) : Result :=
  if s.fld aHBM_SCRUB fHBM_SCRUB_SCRUB = 0 then .next s
  else .next (s.hbmVerdict 9 addr.toNat verdict)

/-- REFRESH (R344, R345): a refresh that cannot be placed is owed, up to a count of 8; a burst that would let it reach 9 is
split, and the owed refresh issued. -/
def execRefresh (pc : Fin 16) (busy : Bool) (s : State) : Result :=
  let k := pc.val
  let n := s.fld (aHBM_PC_DEPTH k) fHBM_PC_DEPTH_POSTP
  if busy = false then .next (s.setFld (aHBM_PC_DEPTH k) fHBM_PC_DEPTH_POSTP 0)
  else if n < 8 then .next (s.setFld (aHBM_PC_DEPTH k) fHBM_PC_DEPTH_POSTP (n + 1))
  else .next (((s.setFld (aHBM_PC_DEPTH k) fHBM_PC_DEPTH_POSTP 0).latch aHBM_LAT fHBM_LAT_SPLIT).bump aHBM_SPLITS)

/-! ## Training and rate (R348, R349) -/

/-- A rate in 0.1 Gb/s per pin. -/
def rateSpeed (r : BitVec 2) : Nat := if r = 0 then 36 else if r = 1 then 32 else if r = 2 then 28 else 24

/-- A training starts at a rate. -/
def State.trainAt (s : State) (r : BitVec 2) : State :=
  { (s.latch aHBM_STAT fHBM_STAT_TRAINING).setBit aHBM_STAT fHBM_STAT_TRAINED false with hbm := { s.hbm with rate := r } }

/-- ACQ or SEG is enabled, or the reservations, in 1/256 of the full rate's peak, exceed 192/256 of a rate's peak. -/
def State.rateRefused (s : State) (r : BitVec 2) : Bool :=
  let sum := (List.range 5).foldl (fun a q => a + s.fld (aHBM_REQ_RES q) fHBM_REQ_RES_RES) 0
  s.blkOn 10 || s.blkOn 7 || decide (192 * rateSpeed r < sum * 36)

/-- HBM_RATE_REQ (R349): refused, deferred while a training runs, or a training at the new rate. -/
def execHbmRateReq (by_ : Issuer) (rate : BitVec 2) (s : State) : Result :=
  if s.rateRefused rate then .next (s.rejectVal by_ aHBM_RATE)
  else
    let s1 := s.setFld aHBM_RATE fHBM_RATE_REQ rate.toNat
    if s.bit aHBM_STAT fHBM_STAT_TRAINING then
      .next ({ s1 with hbm := { s1.hbm with deferred := some rate } }.latch aHBM_LAT fHBM_LAT_DEFER |>.latch aHBM_STAT
        fHBM_STAT_DEFPEND)
    else .next (s1.trainAt rate)

/-- RETRAIN (R349): a training at the rate requested; one that runs already goes on. -/
def execRetrain (by_ : Issuer) (s : State) : Result :=
  let r := BitVec.ofNat 2 (s.fld aHBM_RATE fHBM_RATE_REQ)
  if s.rateRefused r then .next (s.rejectVal by_ aHBM_CMD)
  else if s.bit aHBM_STAT fHBM_STAT_TRAINING then .next s
  else .next (s.trainAt r)

/-- HBM_TRAIN_DONE (R348, R349): TRAINED and the rate in force, or FS 20; a deferred change then trains at once. -/
def execHbmTrainDone (good : Bool) (s : State) : Result :=
  if s.bit aHBM_STAT fHBM_STAT_TRAINING = false then .next s
  else
    let s1 := s.setBit aHBM_STAT fHBM_STAT_TRAINING false
    let s2 := if good then
        ((s1.latch aHBM_STAT fHBM_STAT_TRAINED).setFld aHBM_RATE fHBM_RATE_NOW s.hbm.rate.toNat).causeOff 20 0
      else (((s1.setBit aHBM_STAT fHBM_STAT_TRAINED false).latch aHBM_LAT fHBM_LAT_TRFAIL).causeOn 20 0).raise 20 islMemory
    .next (match s.hbm.deferred with
      | some r => { s2.setBit aHBM_STAT fHBM_STAT_DEFPEND false with hbm := { s2.hbm with deferred := none } }.trainAt r
      | none => s2)

/-- The queued requests of a block reset discarded, host reads answered with an error (R353). -/
def State.hbmDiscard (s : State) : State :=
  let s1 := s.hbmFlush
  s1.hbm.reads.foldl (fun s (r : HbmRead) => s.hbmAnswer { r with status := 7 })
    { s1 with hbm := { s1.hbm with reads := [] } }

/-- HBM_ELOG_0, _1 and the time of the selected entry, as they read (R352). -/
def State.elogWord (s : State) (k : Nat) : Word :=
  match s.hbm.elog[s.fld aHBM_ELOG_SEL fHBM_ELOG_SEL_SEL]? with
  | none => 0
  | some e => if k = 0 then e.w0 else if k = 1 then e.w1 else if k = 2 then e.time.setWidth 32
    else (e.time >>> 32).setWidth 32

end Sys2Proof.Machine
end

