-- ==== Sys2Proof/Machine/TimeBase.lean ====
section
/-! DEFINITION. The time base (chapter 3): step, anchor, time messages on the ring and the col link, acquisition, lock and
holdover, phase and frequency slew, reference and oven. -/
namespace Sys2Proof.Machine

/-! ## Shared operations -/

/-- The time-base state codes of R65. -/
abbrev tbUnset : Nat := 0
abbrev tbFree : Nat := 1
abbrev tbAcquire : Nat := 2
abbrev tbLocked : Nat := 3
abbrev tbHoldover : Nat := 4

/-- The time-base state. -/
def State.tbState (s : State) : Nat := s.fld aTBS_STATE fTBS_STATE_STATE

/-- SLEWING: phase steps or frequency changes in progress (R82). -/
def State.showSlewing (s : State) : State :=
  s.setBit aTBS_STATE fTBS_STATE_SLEWING
    (s.tbs.phaseRem != 0 || decide (s.tbs.freqTarget / 86400 ≠ (s.reg aTBS_FREQ).toInt))

/-- No message counts toward lock, and no phase error is left to remove. -/
def State.clearPhase (s : State) : State :=
  ({ s with tbs := { s.tbs with goodRun := 0, phaseRem := 0 } }).showSlewing

/-- The state with the time-base state set, LOCKED since an instant. FREE starts with no phase error to remove and no
message toward lock (R62, R65). Leaving HOLDOVER ends the cause of FS 9 (R81) and fixes TBS_HOLD. -/
def State.setTb (s : State) (st : Nat) : State :=
  let s0 := s.setFld aTBS_STATE fTBS_STATE_STATE st
  let s1 := if st = tbFree then ({ s0 with tbs := { s0.tbs with lockedFrom := none } }).clearPhase
    else { s0 with tbs := { s0.tbs with
      lockedFrom := if st = tbLocked then some (s.tbs.lockedFrom.getD s.count) else none } }
  if s.tbState = tbHoldover ∧ st ≠ tbHoldover then
    let ms := match s.tbs.holdFrom with
      | some h => (s.count - h).toNat / 192000000
      | none => 0
    { (s1.causeOff 9 0).setReg aTBS_HOLD (BitVec.ofNat 32 (min 0xFFFFFFFF ms)) with
      tbs := { s1.tbs with holdFrom := none } }
  else s1

/-- Entry to HOLDOVER: the state changes and FS 9 is raised (R65, R68). No phase error is removed in HOLDOVER or FREE
(DESIGN CHOICE, log entry 67). -/
def State.enterHoldover (s : State) : State :=
  let s1 := s.setFld aTBS_STATE fTBS_STATE_STATE tbHoldover
  (({ s1 with tbs := { s1.tbs with holdFrom := some s.count, lockedFrom := none } }.clearPhase).causeOn 9 0).raise 9
    islManagement

/-- A stage of a path within an island (R103, R149, R155, R325, R360): cycles of hardware, which no due time sets. -/
def Act.inIsland : Act → Bool
  | .monCause .. => true
  | .monLatch .. => true
  | .monOn .. => true
  | .override _ => true
  | .seal .. => true
  | .spareOn _ => true
  | _ => false

/-- An action held is one that a step discards (R66): not a read that waits (R414), a stage of a monitor's path, or a task
timer or a step timeout that has been disarmed or replaced. -/
def State.discards (s : State) (d : Due) : Bool :=
  !d.act.inIsland && match d.act with
  | .read _ _ => false
  | .cmd (.taskTimerExpiry n) => (s.task n.toNat).tdue == some d.due
  | .cmd (.stepTimeout n) => (s.task n.toNat).sdue == some d.due
  | _ => true

/-- What a monitor dates by the count, after a step of the count. -/
def Mon.moved (x : Mon) (move : Count) : Mon :=
  { x with since := x.since.map (· + move), enableAt := x.enableAt.map (· + move), thrOld := none
           past := x.past.map (fun e => (e.1 + move, e.2)) }

/-- The monitors after a step of the count. -/
def movedMons (move : Count) (xs : Tab Mon) : Tab Mon :=
  (xs.map (fun (p : Nat × Mon) => (p.1, p.2.moved move))).filter (fun (p : Nat × Mon) => p.2 != ({} : Mon))

/-- What an engine and a channel's loop date by the count, after a step of the count. -/
def LoopEng.moved (x : LoopEng) (move : Count) : LoopEng :=
  { x with
    running := x.running.map (fun r => { r with ranTo := r.ranTo + move })
    busyUntil := x.busyUntil.map (· + move), recent := x.recent.map (fun r => (r.1 + move, r.2)) }
def movedEngs (move : Count) (xs : Tab LoopEng) : Tab LoopEng :=
  (xs.map (fun (p : Nat × LoopEng) => (p.1, p.2.moved move))).filter (fun (p : Nat × LoopEng) => p.2 != ({} : LoopEng))
def movedLoops (move : Count) (xs : Tab LoopChan) : Tab LoopChan :=
  (xs.map (fun (p : Nat × LoopChan) => (p.1, { p.2 with since := p.2.since.map (· + move), last := none }))).filter
    (fun (p : Nat × LoopChan) => p.2 != ({} : LoopChan))

/-- What HBM and the reference check date by the count, after a step of the count. -/
def Hbm.moved (x : Hbm) (move : Count) : Hbm :=
  { x with
    queue := x.queue.map (fun r => { r with since := r.since + move })
    served := x.served.map (fun e => (e.1, e.2 + move))
    pcs := x.pcs.map (fun p => (p.1, { p.2 with
      rows := p.2.rows.map (fun r => (r.1, r.2.map (fun o => (o.1, o.2.map (· + move))))) })) }
def CalRec.moved (x : CalRec) (move : Count) : CalRec :=
  { x with checkFrom := x.checkFrom + move, asked := x.asked.map (· + move) }

/-- An activation held until its due time (R497). -/
def Due.activates (d : Due) : Bool :=
  match d.act with
  | .cmd (.activate ..) => true
  | _ => false

/-- What is still held after a step of the count: reads that wait, performed at once, and the stages of monitors' paths. -/
def movedAgenda (c move : Count) (ds : List Due) : List Due :=
  let reads := ds.filter (fun (d : Due) => match d.act with
    | .read _ _ => true
    | _ => false)
  reads.map (fun (d : Due) => { d with due := Count.cycleStart c })
    ++ (ds.filter (fun (d : Due) => d.act.inIsland)).map (fun (d : Due) => { d with due := d.due + move })

/-- Dates of the twin island after a step of the count. -/
def Twn.moved (x : Twn) (move : Count) : Twn :=
  { x with
    negFrom := x.negFrom.map (· + move)
    rxAt := x.rxAt.map (· + move)
    shipCols := x.shipCols.map (fun p => (p.1 + move, p.2))
    plausSince := x.plausSince.map (fun p => (p.1, p.2 + move))
    missed := [] }

/-- Dates of a link after a step of the count. -/
def LinkState.moved (x : LinkState) (move : Count) : LinkState :=
  { x with since := x.since + move, sentAt := x.sentAt.map (· + move), ackAt := x.ackAt + move }

/-- Dates of the links after a step of the count. -/
def movedLinks (move : Count) (ls : Tab LinkState) : Tab LinkState :=
  (ls.map (fun (p : Nat × LinkState) => (p.1, p.2.moved move))).filter (fun (p : Nat × LinkState) => p.2 != ({} : LinkState))

/-- A valid frame of the twin has arrived (R388, R396). -/
def State.peerHeard (s : State) : State :=
  { s.latch aTWN_STAT fTWN_STAT_LINK with twn := { s.twn with rxAt := some s.count } }

/-- The count stepped to a value (R66): bits [6:0] are 0 at a cycle boundary (R57); every timed action pending is
discarded and counted, the messages of the scheduler's queues with them, and task timers and step timeouts are disarmed;
calibration sequences end (R364) and open gates end in one STALE result (R130); TIME_VALID sets; an anchor record follows.
Bits [6:0] of the value are not loaded (DEDUCED from R57, log entry 67). -/
def State.stepCount (s : State) (c : Count) : State :=
  let move := Count.cycleStart c - Count.cycleStart s.count
  let n := (s.agenda.filter s.discards).length + s.sched.queues.foldl (fun a q => a + q.2.length) 0
  let s1 := { s with
    count := Count.cycleStart c
    fresh := []
    raised := []
    merged := []
    tbs := { s.tbs with lastStep := none, lastSlew := none, colLast := none, lastMsg := Count.cycleStart c }
    agenda := movedAgenda c move s.agenda
    mons := movedMons move s.mons
    engs := movedEngs move s.engs
    loops := movedLoops move s.loops
    hbm := s.hbm.moved move
    calRec := s.calRec.moved move
    mgt := { s.mgt with
      sampleAt := s.mgt.sampleAt.map (· + move)
      running := if s.agenda.any Due.activates then none else s.mgt.running }
    sec := { s.sec with requests := s.sec.requests.map (fun (r : Count × SigReq) => (r.1 + move, r.2)) }
    twn := s.twn.moved move
    links := movedLinks move s.links }
  let s2 := if n = 0 then s1 else (s1.latch aTBS_LATE fTBS_LATE_STEP_DROP).bumpBy aTBS_LATE_CNT n
  let s3 := s2.tasks.foldl (fun s p =>
    if p.2.tdue.isNone && p.2.sdue.isNone then s
    else s.setTask p.1 { p.2 with tdue := none, sdue := none, delayArmed := false, guardArmed := false })
    { s2 with sched := { s2.sched with queues := [] } }
  (((s3.latch aTBS_STATE fTBS_STATE_TIME_VALID).seqEndAll 12 false).stepUnits s.count).anchor 2

/-- FS 10 (R68): a phase error above 192,000 TBU in ACQUIRE or LOCKED, raised at the first message of a run (R451). -/
def State.judgePhase (s : State) (err : Int) : State :=
  let far := decide (192000 < err.natAbs) && (s.tbState == tbAcquire || s.tbState == tbLocked)
  let s1 := { s with tbs := { s.tbs with overRun := far } }
  if far then (if s.tbs.overRun then s1 else (s1.causeOn 10 0).raise 10 islManagement)
  else s1.causeOff 10 0

/-- What a time message of the selected source shows in the registers: REF_PRESENT, path, hop count, phase error (R82). -/
def State.showReference (s : State) (err : Int) (path : Word) (hop : BitVec 16) : State :=
  (((s.latch aTBS_STATE fTBS_STATE_REF_PRESENT).setReg aTBS_PATH path).setFld aTBS_HOP fTBS_HOP_HOP
    hop.toNat).setReg aTBS_PHERR (BitVec.ofInt 32 (sat32 err))

/-- The first acquisition after UNSET: the count is stepped to the reference (R65, R66). -/
def State.firstReference (s : State) (c : Count) : State := ((s.setTb tbAcquire).stepCount c).clearPhase

/-- A later message (R65): 16 successive ones within LOCK_THR lock, one beyond it unlocks. -/
def State.trackReference (s : State) (err : Int) : State :=
  let good := decide (err.natAbs ≤ s.fld aTBS_LOCKCFG fTBS_LOCKCFG_LOCK_THR)
  let run := if good then s.tbs.goodRun + 1 else 0
  let st := if s.tbState = tbLocked then (if good then tbLocked else tbAcquire)
    else if 16 ≤ run then tbLocked else tbAcquire
  let s1 := s.setTb st
  (({ s1 with tbs := { s1.tbs with goodRun := run, phaseRem := err, lastMsg := s.count } }).judgePhase err).showSlewing

/-- A time message of the selected source taken as reference (R63, R65, R66): the phase error is the reference less the
count at the arrival. -/
def State.takeReference (s : State) (ref arrival : Count) (path : Word) (hop : BitVec 16) : State :=
  let err := (ref - arrival).toInt
  if s.tbState = tbUnset then (s.showReference err path hop).firstReference (s.count + (ref - arrival))
  else (s.showReference err path hop).trackReference err

/-- A ring message with a bad CRC is discarded (R429). -/
def State.ringBad (s : State) : State :=
  ((s.latch aLNK_LAT fLNK_LAT_RINGERR).bump aLR_CRCERR).raise 100 islLink

/-- The module's ring position (R427): 0 for the time master. -/
def State.ringPos (s : State) : Nat := if s.isMaster then 0 else s.fld aLR_STAT fLR_STAT_POS

/-- A message is the module's own and is removed (R427). -/
def State.ringOwn (s : State) (m : RingBody) : Bool := m.origin.toNat == s.ringPos

/-- A ring message sent or forwarded on the ring output. -/
def State.ringSend (s : State) (mtype : Byte) (m : RingBody) : State :=
  if s.bit aLNK_STAT fLNK_STAT_RING_OUT then (s.emit (.ring mtype m)).sentOn 4 else s

/-- A message other than TIME forwarded with HOP incremented (R427). -/
def State.ringForward (s : State) (mtype : Byte) (m : RingBody) : State :=
  s.ringSend mtype { m with hop := m.hop + 1 }

/-- The pass-through latency of a ring message in TBU: free, at most 250 ns (R427). -/
def ringLatency (k : Nat) : Nat := Config.ringPass k % 48001

/-! ## Meanings -/

/-- TBS_STEP (R66, R71): accepted in UNSET and FREE with every driver off; otherwise refused. Whether TBS is enabled does not
matter (DESIGN CHOICE, log entry 67). -/
def execTbsStep (by_ : Issuer) (s : State) : Result :=
  if (s.tbState = tbUnset ∨ s.tbState = tbFree) ∧ s.anyDriver = false then
    .next ((s.setTb tbFree).stepCount (BitVec.ofNat 72 (s.wide aTBS_LOAD 3)))
  else .next (s.rejectVal by_ aTBS_CMD)

/-- TBS_ANCHOR (R60). -/
def execTbsAnchor (s : State) : Result := .next (s.anchor 3)

/-- ANCHOR_PERIODIC (R60): the anchor of a count whose bits [39:0] are all zero. -/
def execAnchorPeriodic (s : State) : Result := .next (if s.count.toNat % 2 ^ 40 = 0 then s.anchor 1 else s)

/-- TIME_MSG_SEND (R62, R63, R83): at a multiple of 65,536 cycles the time master originates a message with its count at the
reference comma, PATH 0, HOP 0; a disabled TBS originates none. -/
def execTimeMsgSend (s : State) : Result :=
  if s.isMaster ∧ s.blkOn 1 ∧ s.count.toNat % 2 ^ 23 = 0 then
    let m : RingBody := ⟨0, false, 0, 0, 0, s.count, 0, 0, 0⟩
    .next ({ s with tbs := { s.tbs with lastBody := some m, bodyArr := s.count } }.ringSend 0x01 m)
  else .next s

/-- A time message of the ring other than the module's own: position, pass-through, forwarding, and the reference where
SRC is RING (R63, R427). -/
def State.ringTimeTake (s : State) (m : RingBody) (arrival : Count) : State :=
  let cable : Word := BitVec.ofNat 32 (s.fld aTBS_CABLE fTBS_CABLE_CABLE)
  let pass := ringLatency s.free
  let s1 := { s with free := s.free + 1 }
  let s2 := (s1.setFld aLR_STAT fLR_STAT_POS (m.hop + 1).toNat).maxReg aLR_PASS pass
  let s3 := s2.ringSend 0x01 { m with hop := m.hop + 1, path := m.path + cable + BitVec.ofNat 32 pass }
  if s.blkOn 1 then
    let s4 := { s3 with tbs := { s3.tbs with
      lastBody := some { m with hop := m.hop + 1, path := m.path + cable }, bodyArr := arrival } }
    if s.fld aTBS_SRC fTBS_SRC_SRC = 1 then
      s4.takeReference (m.count + (m.path + cable).setWidth 72) arrival (m.path + cable) m.hop
    else s4
  else s3

/-- RING_TIME (R63, R66, R427, R429). -/
def execRingTime (m : RingBody) (crcGood : Bool) (arrival : Count) (s : State) : Result :=
  if crcGood = false then .next s.ringBad
  else if s.isMaster then
    .next (if s.ringOwn m then s.setReg aLR_RLAT m.path else s.ringForward 0x01 m)
  else .next (s.ringTimeTake m arrival)

/-- HOLD_TO milliseconds have passed without a message of the selected source (R65). -/
def State.holdExpired (s : State) : Bool :=
  decide (s.fld aTBS_LOCKCFG fTBS_LOCKCFG_HOLD_TO * 192000000 ≤ (s.count - s.tbs.lastMsg).toNat)

/-- HOLD_TIMEOUT (R65, R68). -/
def execHoldTimeout (s : State) : Result :=
  if s.holdExpired = false then .next s
  else if (s.tbState = tbAcquire ∨ s.tbState = tbLocked) ∧ s.bit aTBS_STATE fTBS_STATE_TIME_VALID then
    .next (s.setBit aTBS_STATE fTBS_STATE_REF_PRESENT false).enterHoldover
  else .next (s.setBit aTBS_STATE fTBS_STATE_REF_PRESENT false)

/-- PHASE_STEP (R67, R58): one TBU of the phase error goes, if 2^E cycles have passed since the latest step; the count's
sequence of values stays as it is. -/
def execPhaseStep (s : State) : Result :=
  let e := s.fld aTBS_PSLEW fTBS_PSLEW_E
  if s.tbs.phaseRem ≠ 0 ∧ (s.tbState = tbAcquire ∨ s.tbState = tbLocked)
      ∧ s.tbs.lastStep.all (fun t => decide (128 * 2 ^ e ≤ (s.count - t).toNat)) then
    let r := if 0 < s.tbs.phaseRem then s.tbs.phaseRem - 1 else s.tbs.phaseRem + 1
    .next ({ s with tbs := { s.tbs with phaseRem := r, lastStep := some s.count } }).showSlewing
  else .next s

/-- The target of the frequency word after one more second (R54 to R56): ageing is applied in FREE and HOLDOVER; what is
learned in ACQUIRE and LOCKED is free (log entry 12). -/
def State.freqAim (s : State) : State :=
  if s.tbState = tbFree ∨ s.tbState = tbHoldover then
    { s with tbs := { s.tbs with freqTarget := s.tbs.freqTarget + (s.reg aTBS_AGE).toInt } }
  else if s.tbState = tbAcquire ∨ s.tbState = tbLocked then
    let d := s.draw
    { d.2 with tbs := { s.tbs with freqTarget := signed 32 d.1 * 86400 } }
  else s

/-- A second has passed since the latest change of TBS_FREQ (R56). -/
def State.slewDue (s : State) : Bool :=
  s.tbs.lastSlew.all (fun t => decide (192000000000 ≤ (s.count - t).toNat))

/-- TBS_FREQ moves toward its target by at most TBS_FSLEW (R56). -/
def State.slewFreq (s : State) : State :=
  let s1 := s.freqAim
  let cur := (s1.reg aTBS_FREQ).toInt
  let rate : Int := s1.fld aTBS_FSLEW fTBS_FSLEW_RATE
  let next := cur + clampInt (-rate) rate (s1.tbs.freqTarget / 86400 - cur)
  ({ s1 with tbs := { s1.tbs with lastSlew := some s.count } }.setReg aTBS_FREQ (BitVec.ofInt 32 (sat32 next))).showSlewing

/-- FREQ_SLEW (R56): once each second. -/
def execFreqSlew (s : State) : Result := .next (if s.slewDue then s.slewFreq else s)

/-- PLL_REF_LOSS (R68): the oven out of regulation, or the reference lost in FREE. -/
def execPllRefLoss (oven : Bool) (s : State) : Result :=
  if oven then
    .next (({ s with power := { s.power with oven := false } }.setBit aTBS_STATE fTBS_STATE_OVEN_READY false).causeOn 11
      0 |>.raise 11 islManagement)
  else if s.tbState = tbFree then
    .next (({ s with tbs := { s.tbs with refLost := true } }.causeOn 11 1).raise 11 islManagement)
  else .next { s with tbs := { s.tbs with refLost := true } }

/-- OVEN_READY (R55, R68): the oven comes into regulation and the PLL's reference is present again: OVEN_READY sets and the
cause of FS 11 ends. -/
def execOvenReady (s : State) : Result :=
  .next ((({ s with tbs := { s.tbs with refLost := false }, power := { s.power with oven := true } }.latch aTBS_STATE fTBS_STATE_OVEN_READY).causeOff 11
    0).causeOff 11 1)

/-- 72 h in LOCKED have passed (TBS_AGE, R82). -/
def State.learned (s : State) : Bool :=
  s.tbState == tbLocked && s.tbs.lockedFrom.any (fun t => decide (259200 * 192000000000 ≤ (s.count - t).toNat))

/-- AGEING_LEARNED (R55): after 72 h in LOCKED the learned rate, which the spec does not state, is written to TBS_AGE. -/
def execAgeingLearned (s : State) : Result :=
  if s.learned then
    let d := s.draw
    .next (d.2.setReg aTBS_AGE (BitVec.ofNat 32 d.1))
  else .next s

/-- The ring body that a module of a pair carries in its TIME frame now (R70): the active's is the one it forwards, with
its own pass-through added; the standby's has zeros, and so has an active's that has forwarded none yet (DESIGN CHOICE, log
entry 67). -/
def State.colBody (s : State) : RingBody :=
  let zero : RingBody := ⟨0, false, 0, 0, 0, 0, 0, 0, 0⟩
  if s.isStandby then zero
  else if s.isMaster then { zero with count := s.count }
  else match s.tbs.lastBody with
    | some m => { m with path := m.path + (s.count - s.tbs.bodyArr).setWidth 32 }
    | none => zero

/-- 65,536 cycles have passed since the latest TIME frame of the col link (R70). -/
def State.colDue (s : State) : Bool := s.tbs.colLast.all (fun t => decide (2 ^ 23 ≤ (s.count - t).toNat))

/-- COL_TIME_SEND (R70, R83): LINKT is the sender's count at its own comma, RXT its count at the latest arrival, 0 where there
was none (DESIGN CHOICE, log entry 67). -/
def execColTimeSend (s : State) : Result :=
  if s.bit aLNK_STAT fLNK_STAT_COL_UP ∧ s.blkOn 1 ∧ s.colDue then
    let linkt : Word := s.count.setWidth 32
    let m := { s.colBody with linkt := linkt, rxt := s.tbs.colArr.getD 0 }
    .next (({ s with tbs := { s.tbs with colSent := (linkt :: s.tbs.colSent).take 4, colLast := some s.count } }.emit
      (.colTime m)).sentOn 2)
  else .next s

/-- The col-link delay of R70 from the four times: each difference modulo 2³², half of the sum to nearest, ties upward. -/
def colDelay (t1 t2 t3 t4 : Word) : Nat := ((t2 - t1).toNat + (t4 - t3).toNat + 1) / 2

/-- The own frame that a received frame's RXT answers, by its LINKT (t3 of R70): the newest one for which the sum of R70 is
not below 0; a newer one was still on its way. RXT 0 answers none (DESIGN CHOICE, log entry 67). -/
def answered (sent : List Word) (t1 t2 t4 : Word) : Option Word :=
  if t4 = 0 then none else sent.find? (fun t3 => !((t2 - t1) + (t4 - t3)).msb)

/-- COL_TIME (R70): the arrival count is kept for RXT; a standby computes TBS_COLD, and takes its reference from the frame
where SRC is TWIN. -/
def execColTime (m : RingBody) (arrival : Count) (s : State) : Result :=
  if s.blkOn 1 then
    let s1 := { s with tbs := { s.tbs with colArr := some (arrival.setWidth 32) } }.peerHeard
    if s.isStandby then
      let s2 := match answered s.tbs.colSent m.linkt (arrival.setWidth 32) m.rxt with
        | some t3 => s1.setFld aTBS_COLD fTBS_COLD_COLD (colDelay m.linkt (arrival.setWidth 32) t3 m.rxt)
        | none => s1
      if s.fld aTBS_SRC fTBS_SRC_SRC = 2 then
        let d : Word := BitVec.ofNat 32 (s2.fld aTBS_COLD fTBS_COLD_COLD)
        .next (s2.takeReference (m.count + (m.path + d).setWidth 72) arrival (m.path + d) m.hop)
      else .next s2
    else .next s1
  else .next s.peerHeard

/-! ## Enable and disable (R83) -/

/-- A disable of TBS, or a block reset: ACQUIRE and LOCKED become HOLDOVER. -/
def State.tbsOff (s : State) : State :=
  if s.tbState = tbAcquire ∨ s.tbState = tbLocked then s.enterHoldover else s

/-- An enable of TBS: with TIME_VALID at 1 and SRC at FREE the state becomes FREE. -/
def State.tbsOn (s : State) : State :=
  if s.bit aTBS_STATE fTBS_STATE_TIME_VALID ∧ s.fld aTBS_SRC fTBS_SRC_SRC = 0 then s.setTb tbFree else s

end Sys2Proof.Machine
end

