-- ==== Sys2Proof/Machine/Management.lean ====
section
/-! DEFINITION. The management subsystem (chapter 20): mailbox, sensors and warnings, load and shedding, watchdog, firmware
slots. The restart that ACTIVATE ends in, and the thermal trip's reset, stand with the resets (R506). -/
namespace Sys2Proof.Machine

/-! ## The mailbox (R484 to R487) -/

/-- The statuses of a mailbox reply (R484). -/
abbrev msOk : Byte := 0
abbrev msRole : Byte := 1
abbrev msState : Byte := 2
abbrev msFormat : Byte := 3
abbrev msVerify : Byte := 4
abbrev msBusy : Byte := 5
abbrev msNotHeld : Byte := 6
abbrev msPending : Byte := 7
abbrev msFlash : Byte := 8

/-- The request slots of a port. -/
def State.slots (s : State) (p : Nat) : List Slot := if p = 0 then s.mgt.slots0 else s.mgt.slots1

/-- The state with a port's slots set; MGT_STAT shows how many are taken. -/
def State.setSlots (s : State) (p : Nat) (xs : List Slot) : State :=
  if p = 0 then { s.setFld aMGT_STAT fMGT_STAT_BUSY0 xs.length with mgt := { s.mgt with slots0 := xs } }
  else { s.setFld aMGT_STAT fMGT_STAT_BUSY1 xs.length with mgt := { s.mgt with slots1 := xs } }

/-- A mailbox reply sent on the management VC (R484, R485), one segment per frame; log entries stand 3 in a segment (R486). -/
def State.mgtReply (s : State) (p : Port) (cmd req status : Byte) (body : List Byte) : State :=
  (segments (if cmd = 0x04 then 192 else 252) body).foldl (fun s x => s.sendFrame p.val 3 (.mgt p cmd x.1 req status x.2)) s

/-! ## Requests for signatures (R474) -/

/-- The place of a request among those of its cycle: seal, calibration record, session proof, attestation, port 0 before port
1. -/
def SigReq.rank : SigReq → Nat
  | .seal _ => 0
  | .cal => 1
  | .proof p => 2 + p.val
  | .attest p _ => 4 + p.val

/-- A request put among those that wait. -/
def placeSig (t : Count) (r : SigReq) : List (Count × SigReq) → List (Count × SigReq)
  | [] => [(t, r)]
  | x :: xs => if x.1 = t ∧ r.rank < x.2.rank then (t, r) :: x :: xs else x :: placeSig t r xs

/-- A request for a signature arrives at the island. -/
def State.askSig (s : State) (r : SigReq) : State :=
  { s with sec := { s.sec with requests := placeSig s.count r s.sec.requests } }

/-- The roles of R475. -/
abbrev roleOperator : Nat := 0
abbrev roleEngineer : Nat := 1
abbrev roleCalibrator : Nat := 2
abbrev roleSecurity : Nat := 3

/-- A session is open on a port. -/
def State.session (s : State) (p : Nat) : Bool := s.bit (aLP_STAT p) fLP_STAT_SESSION

/-- The role of a port's session. -/
def State.sessRole (s : State) (p : Nat) : Nat := s.fld (aLP_STAT p) fLP_STAT_ROLE

/-- A structure is in force (STR_STAT.STATE is not 0; R447). -/
def State.strInForce (s : State) : Bool := s.fld aSTR_STAT fSTR_STAT_STATE != 0

/-- The rights of a role: of the POLICY section, or the vendor default rights while no structure is in force (R436,
R534). The bits of `rd` and `wr` are those of R435. -/
def State.rights (s : State) (role : Nat) : Rights :=
  if s.strInForce then
    match s.str.policy.find? (fun x => x.1.val == role) with
    | some (_, r) => r
    | none => ⟨0, 0, 0⟩
  else if role = roleOperator then ⟨0x7FFFF, 0, 0b1110101⟩
  else if role = roleCalibrator then ⟨0x7FFFF, 0x08001, 0b1110101⟩
  else ⟨0x7FFFF, 0x7FFFF, 0b1111111⟩

/-- A mailbox request judged: a session whose role holds the mailbox right, and a role the command takes (R484, R486). -/
def State.mayMail (s : State) (p : Nat) (engineer : Bool) : Bool :=
  s.session p && (s.rights (s.sessRole p)).mem.getLsbD 6
    && (!engineer || s.sessRole p == roleEngineer || s.sessRole p == roleSecurity)

/-- A request served at once: taken from a free slot, answered, its slot freed; with no free slot it is not taken, since
the link withholds the credits (R485). -/
def State.serve (s : State) (p : Port) (cmd req : Byte) (engineer : Bool) (status : Byte) (body : List Byte)
    (f : State → State) : State :=
  if s.fld aMGT_STAT fMGT_STAT_READY = 0 ∨ 16 ≤ (s.slots p.val).length then s
  else if s.mayMail p.val engineer then (f s).mgtReply p cmd req status body
  else s.mgtReply p cmd req msRole []

/-- A request that takes longer than 10 ms: a slot is held and PENDING answered (R485). -/
def State.servePending (s : State) (p : Port) (cmd req : Byte) : State :=
  (s.setSlots p.val (s.slots p.val ++ [{ cmd := cmd, req := req }])).mgtReply p cmd req msPending []

/-- The SHA-384 of the calibration record in force (R472). -/
def State.calDigest (s : State) : BitVec 384 := s.calRec.digest

/-- The field calibration records erased (R481); what is in force stays in force. -/
def State.eraseFieldRecords (s : State) : State := { s with calRec := { s.calRec with field := [] } }

/-- The bytes of a register. -/
def State.regBytes (s : State) (a : Nat) : List Byte := leBytes 4 (s.reg a).toNat

/-- STATUS (R486): MGT_STAT, MGT_FW and the load of the latest window. -/
def execStatus (p : Port) (req : Byte) (s : State) : Result :=
  .next (s.serve p 0x01 req false msOk
    (s.regBytes aMGT_STAT ++ s.regBytes aMGT_FW ++ leBytes 1 (s.fld aMGT_STAT fMGT_STAT_LOAD)) id)

/-- The least and largest value of a sensor since the previous SENSORS on a port. -/
def State.extremes (s : State) (p n : Nat) : Word × Word :=
  (Tab.get (fun _ => none) s.mgt.extremes (p * 64 + n)).getD (s.reg (aMGT_SENS n), s.reg (aMGT_SENS n))

/-- SENSORS (R486): every value with its extremes, which restart. -/
def execSensors (p : Port) (req : Byte) (s : State) : Result :=
  let body := (List.range 34).flatMap (fun n =>
    s.regBytes (aMGT_SENS n) ++ leBytes 4 (s.extremes p.val n).1.toNat ++ leBytes 4 (s.extremes p.val n).2.toNat)
  .next (s.serve p 0x02 req false msOk body (fun s =>
    (List.range 34).foldl (fun s n => { s with mgt := { s.mgt with
      extremes := Tab.set (fun _ => none) s.mgt.extremes (p.val * 64 + n) none } }) s))

/-- The history of a sensor from a count on (R492): 1 s means where they reach back to it, else 1 min values. -/
def State.historyFrom (s : State) (n : Nat) (from_ : BitVec 64) : List Byte :=
  let covered := match s.mgt.means.head? with
    | some m => decide (m.1.toNat ≤ from_.toNat) || s.mgt.minutes.isEmpty
    | none => s.mgt.minutes.isEmpty
  if covered then
    (s.mgt.means.filter (fun m => decide (from_.toNat ≤ m.1.toNat))).flatMap (fun m =>
      leBytes 8 m.1.toNat ++ leBytes 4 (m.2.getD n 0).toNat)
  else
    (s.mgt.minutes.filter (fun m => decide (from_.toNat ≤ m.1.toNat))).flatMap (fun m =>
      let v := m.2.getD n (0, 0, 0)
      leBytes 8 m.1.toNat ++ leBytes 4 v.1.toNat ++ leBytes 4 v.2.1.toNat ++ leBytes 4 v.2.2.toNat)

/-- HISTORY (R492, R486): the history of one sensor from a given count; an unknown sensor is a FORMAT error. -/
def execHistory (p : Port) (req : Byte) (sensor : Byte) (from_ : BitVec 64) (s : State) : Result :=
  if 34 ≤ sensor.toNat then .next (s.serve p 0x03 req false msFormat [] id)
  else .next (s.serve p 0x03 req false msOk (s.historyFrom sensor.toNat from_) id)

/-- LOGREAD (R486): entries from a given INDEX, up to 384. -/
def execLogread (p : Port) (req : Byte) (index : BitVec 64) (n : BitVec 16) (s : State) : Result :=
  let old := s.wide aMGT_LOGOLD 2
  let es := (s.mgt.log.drop (index.toNat - old)).take (min n.toNat 384)
  .next (s.serve p 0x04 req false msOk es.flatten id)

/-- LOGMARK (R486, R494): a host entry with 28 bytes of text. -/
def execLogmark (p : Port) (req : Byte) (text : List Byte) (s : State) : Result :=
  .next (s.serve p 0x05 req false msOk [] (fun s => s.log 0x0D p.val (text.take 28)))

/-- A firmware slot: 0 A, 1 B. -/
def State.fwSlot (s : State) (b : Nat) : FwSlot := if b = 0 then s.mgt.fwA else s.mgt.fwB

/-- The state with a firmware slot set; MGT_FWVER shows its VERSION, 0 for an invalid slot. -/
def State.setFwSlot (s : State) (b : Nat) (x : FwSlot) : State :=
  let s1 := s.setReg (aMGT_FWVER b) (if x.valid then x.version else 0)
  if b = 0 then { s1 with mgt := { s1.mgt with fwA := x } } else { s1 with mgt := { s1.mgt with fwB := x } }

/-- The slot marked active, and the other one. -/
def State.activeSlot (s : State) : Nat := s.fld aMGT_FW fMGT_FW_ACTIVE
def State.otherSlot (s : State) : Nat := 1 - s.fld aSEC_STAT fSEC_STAT_SLOT

/-- A firmware image passes the checks that come before the slot is erased (R496): MAGIC, both signatures by a live vendor boot
anchor, and VERSION at or above the firmware floor. -/
def State.imageOk (s : State) (image : List Byte) : Bool :=
  fieldAt image 0 4 == 0x4D4771A5 && decide (s.sec.floors.getD 0 0 ≤ fieldAt image 4 4)
    && [0, 1].any (fun k => !(s.sec.vendorRevoked.getLsbD k) && Config.imageSigned (Config.vendorAnchor k) image)

/-- UPDATE (R496, R487): one at a time in the module; the image is taken and checked, the inactive slot is erased where it
passes, and PENDING answered. -/
def execUpdate (p : Port) (req : Byte) (offset : BitVec 45) (len : Word) (s : State) : Result :=
  if s.fld aMGT_STAT fMGT_STAT_READY = 0 ∨ 16 ≤ (s.slots p.val).length then .next s
  else if !(s.mayMail p.val true) then .next (s.mgtReply p 0x06 req msRole [])
  else if s.mgt.running.isSome then .next (s.mgtReply p 0x06 req msBusy [])
  else if 33554432 < len.toNat ∨ 0x600000000 < offset.toNat + len.toNat then
    .next (s.mgtReply p 0x06 req msFormat [])
  else
    let image := Memory.readBytes s.hbmMem offset.toNat len.toNat
    let ok := s.imageOk image
    let s0 := s.servePending p 0x06 req
    let s1 := if ok then s0.setFwSlot s.otherSlot { valid := false } else s0
    .next ({ s1 with mgt := { s1.mgt with running := some 0x06, image := image, checked := ok } }.setFld aMGT_FW fMGT_FW_UPD 1)

/-- The held reply of a running command: its slot now has a reply, ready at an uptime. -/
def setReply (cmd : Byte) (now : Nat) (r : Byte × List Byte) : List Slot → List Slot
  | [] => []
  | x :: xs =>
    if x.cmd = cmd ∧ x.reply = none then { x with reply := some r, readyAt := now } :: xs else x :: setReply cmd now r xs

/-- The payload of a log entry of type 05h (R494): slot, VERSION, bytes 0 to 23 of the image's SHA-384. -/
def updatePayload (slot : Nat) (version : Word) (d : BitVec 384) : List Byte :=
  leBytes 1 slot ++ leBytes 4 version.toNat ++ (digestBytes d).take 24

/-- UPDATE_DONE (R496): the slot has been written and reads back as written, and has verified again. -/
def execUpdateDone (written verified : Bool) (s : State) : Result :=
  if s.mgt.running = some 0x06 then
    let version : Word := BitVec.ofNat 32 (fieldAt s.mgt.image 4 4)
    let s1 := if s.mgt.checked && written && verified then
        (s.setFwSlot s.otherSlot { valid := true, version := version, digest := Config.sha384 s.mgt.image
                                   patches := Config.imagePatches s.mgt.image }).setFld aMGT_FW fMGT_FW_UPD 2
      else s.setFld aMGT_FW fMGT_FW_UPD 3
    let r : Byte × List Byte := 
      (if !s.mgt.checked then msVerify else if !written then msFlash else if verified then msOk else msVerify, [])
    let s2 := { s1 with mgt := { s1.mgt with
      running := none, image := [], checked := false
      slots0 := setReply 0x06 s1.mgt.uptime r s1.mgt.slots0
      slots1 := setReply 0x06 s1.mgt.uptime r s1.mgt.slots1 } }
    .next (s2.log 0x05 0x06 (updatePayload s.otherSlot version (Config.sha384 s.mgt.image)))
  else .next s

/-- CONFIRM (R498, R467): TRIAL clears and the firmware floor rises to the running VERSION. -/
def execConfirm (p : Port) (req : Byte) (s : State) : Result :=
  .next (s.serve p 0x08 req true msOk [] (fun s =>
    let s1 := s.setBit aMGT_FW fMGT_FW_TRIAL false
    let v := s.reg aSEC_FWVER
    let s2 := if (s1.reg (aSEC_FLOOR 0)).toNat < v.toNat ∧ s1.sec.floorRaises.getD 0 0 < 255 then
        { s1.setReg (aSEC_FLOOR 0) v with sec := { s1.sec with
          floors := s1.sec.floors.set 0 v.toNat
          floorRaises := s1.sec.floorRaises.set 0 (s1.sec.floorRaises.getD 0 0 + 1) } }
      else s1
    s2.log 0x05 0x08 (updatePayload (s.fld aSEC_STAT fSEC_STAT_SLOT) v (s.fwSlot (s.fld aSEC_STAT fSEC_STAT_SLOT)).digest)))

/-- ROLLBACK (R498): the other slot is marked active for the next start, unless its VERSION lies below the floor. -/
def execRollback (p : Port) (req : Byte) (s : State) : Result :=
  let o := s.otherSlot
  let low := decide ((s.fwSlot o).version.toNat < (s.reg (aSEC_FLOOR 0)).toNat) || !(s.fwSlot o).valid
  if s.mgt.running.isSome then .next (s.serve p 0x09 req true msBusy [] id)
  else if low then .next (s.serve p 0x09 req true msVerify [] id)
  else .next (s.serve p 0x09 req true msOk [] (fun s =>
    (s.setFld aMGT_FW fMGT_FW_ACTIVE o).log 0x05 0x09 (updatePayload o (s.fwSlot o).version (s.fwSlot o).digest)))

/-- CONFTO seconds of a trial have passed without a CONFIRM (R498). -/
def State.trialOver (s : State) : Bool :=
  s.bit aMGT_FW fMGT_FW_TRIAL && !s.mgt.expired && decide (s.fld aMGT_CONFTO fMGT_CONFTO_CONFTO * 1000 ≤ s.mgt.uptime)

/-- CONFTO_EXPIRY (R498): without a CONFIRM the previous slot is marked active for the next start and ROLLBACK latches. -/
def execConftoExpiry (s : State) : Result :=
  if s.trialOver then
    let s1 := (s.setFld aMGT_FW fMGT_FW_ACTIVE s.mgt.previous).latch aMGT_LAT fMGT_LAT_ROLLBACK
    .next ({ s1 with mgt := { s1.mgt with expired := true } }.log 0x05 0x09
      (updatePayload s.mgt.previous (s.fwSlot s.mgt.previous).version (s.fwSlot s.mgt.previous).digest))
  else .next s

/-- The bytes of 64-bit words. -/
def wordsBytes (ws : List (BitVec 64)) : List Byte := ws.flatMap (fun w => leBytes 8 w.toNat)

/-- The bytes of an HBM offset range lie in one region of kind GENERAL (R334). -/
def State.inKind (s : State) (kind offset len : Nat) : Bool :=
  (List.range 16).any (fun r =>
    s.fld (aHBM_RGN_KIND r) fHBM_RGN_KIND_KIND == kind
      && decide (s.fld (aHBM_RGN_BASE r) fHBM_RGN_BASE_BASE * 1048576 ≤ offset)
      && decide (offset + len ≤ (s.fld (aHBM_RGN_BASE r) fHBM_RGN_BASE_BASE
          + s.fld (aHBM_RGN_SIZE r) fHBM_RGN_SIZE_SIZE) * 1048576))

/-- STRCOPY (R486): archived stream k, 0 the newest, copied to an offset in a GENERAL region. -/
def execStrcopy (p : Port) (req : Byte) (k : Byte) (offset : BitVec 45) (s : State) : Result :=
  if s.mgt.running.isSome then .next (s.serve p 0x0A req true msBusy [] id)
  else match s.mgt.archive[k.toNat]? with
    | none => .next (s.serve p 0x0A req true msNotHeld [] id)
    | some ws =>
      let bs := wordsBytes ws
      if s.inKind 7 offset.toNat bs.length then
        .next (s.serve p 0x0A req true msOk [] (fun s =>
          { s with hbmMem := Memory.writeBytes s.hbmMem offset.toNat bs }))
      else .next (s.serve p 0x0A req true msFormat [] id)

/-- The slot of a REQ with a held reply. -/
def heldReply (ofReq : Byte) (xs : List Slot) : Option Slot := xs.find? (fun x => x.req == ofReq && x.reply.isSome)

/-- GETREPLY (R485, R486): the held reply named by REQ; its slot is freed. -/
def execGetreply (p : Port) (req : Byte) (ofReq : Byte) (s : State) : Result :=
  match heldReply ofReq (s.slots p.val) with
  | some x =>
    match x.reply with
    | some (st, body) =>
      .next (s.serve p 0x0B req false st body (fun s =>
        s.setSlots p.val ((s.slots p.val).erase x)))
    | none => .next (s.serve p 0x0B req false msNotHeld [] id)
  | none => .next (s.serve p 0x0B req false msNotHeld [] id)

/-- The first slot of a REQ whose reply is ready and not announced is marked as announced. -/
def tellReply (req : Byte) : List Slot → List Slot
  | [] => []
  | x :: xs =>
    if (x.req == req && x.reply.isSome && !x.told) = true then { x with told := true } :: xs else x :: tellReply req xs

/-- REPLY_READY (R485, R421): an EVT frame of KIND 2 with CODE equal to REQ, once, to the port of the request. -/
def execReplyReady (p : Port) (req : Byte) (s : State) : Result :=
  if (s.slots p.val).any (fun x => x.req == req && x.reply.isSome && !x.told) then
    let s1 := s.setSlots p.val (tellReply req (s.slots p.val))
    .next (if s.evtPort p.val then s1.evtTo p 2 (req.setWidth 16) else s1)
  else .next s

/-- REPLY_DISCARD (R485): a reply not fetched within 60 s goes and its slot is freed. -/
def execReplyDiscard (p : Port) (req : Byte) (s : State) : Result :=
  match heldReply req (s.slots p.val) with
  | some x => .next (if x.readyAt + 60000 ≤ s.mgt.uptime then s.setSlots p.val ((s.slots p.val).erase x) else s)
  | none => .next s

/-! ## Sensors (R488 to R492) -/

/-- A fault of the sequencer: raised when its condition begins, its cause ended when the clearing condition holds. -/
def State.condition (s : State) (fs : Fin 128) (isl : Fin 80) (rise clear : Bool) : State :=
  if rise then (if s.causeStands fs.val then s else (s.causeOn fs.val 0).raise fs isl)
  else if clear then s.causeOff fs.val 0 else s

/-- The nominal voltage of rails 0 to 11 in mV (R489). -/
def railNominal : List Int := [750, 800, 1200, 1800, 1200, 2500, 3300, 900, 12000, 5000, 900, 12000]

/-- A rail's sample lies within 3 % of nominal. -/
def railOk (r : Nat) (v : Int) : Bool :=
  let n := railNominal.getD r 0
  decide (n * 97 ≤ v * 100) && decide (v * 100 ≤ n * 103)

/-- The samples stored, with their extremes for both ports. -/
def State.storeSamples (s : State) (values : Vector Word 34) (powers : Vector Word 12) : State :=
  let s1 := (List.range 34).foldl (fun s n =>
    let v := values.toList.getD n 0
    let upd (t : Tab (Option (Word × Word))) (k : Nat) : Tab (Option (Word × Word)) :=
      let e : Word × Word := (Tab.get (fun _ => none) t k).getD (v, v)
      Tab.set (fun _ => none) t k (some (if v.toInt < e.1.toInt then v else e.1, if e.2.toInt < v.toInt then v else e.2))
    { s.setReg (aMGT_SENS n) v with mgt := { s.mgt with extremes := upd (upd s.mgt.extremes n) (64 + n) } }) s
  (List.range 12).foldl (fun s r => s.setReg (aMGT_RPWR r) (powers.toList.getD r 0)) s1

/-- A warning latched and logged (R491). -/
def State.warn (s : State) (n : Nat) : State :=
  if s.sensorBeyond n then
    let s1 := s.latch (aMGT_WARNLAT (n / 32)) ⟨n % 32, n % 32⟩
    if (s.reg (aMGT_WARNLAT (n / 32))).getLsbD (n % 32) then s1
    else s1.log 0x04 n (s.regBytes (aMGT_SENS n) ++ s.regBytes (aMGT_WARN n))
  else s

/-- The faults of the samples (R450, R488, R351): junctions, rails, stack, input, cold plate. The input fault is raised by
its own events (R513) and only its level is kept here. -/
def State.judgeSensors (s : State) : State :=
  let v (n : Nat) : Int := (s.reg (aMGT_SENS n)).toInt
  let js := List.range 16
  let s1 := s.condition 120 islManagement (js.any (fun n => decide (1000 < v n))) (js.all (fun n => decide (v n ≤ 960)))
  let s2 := s1.condition 121 islManagement (js.any (fun n => decide (920 < v n))) (js.all (fun n => decide (v n ≤ 880)))
  let ok := (List.range 12).all (fun r => railOk r (v (16 + r)))
  let s3 := s2.condition 123 islManagement (!ok) ok
  let cold := decide (-320 ≤ v 33) && decide (v 33 ≤ 840)
  s3.condition 122 islManagement (!cold) cold

/-! ## Load, shedding, watchdog (R499, R500) -/

/-- LOAD_WINDOW (R499), at the end of a window of 100 ms: the level rises above 90 % and falls at or below 75 %; FS 118 while the load is above 90 %. -/
def execLoadWindow (load : BitVec 8) (s : State) : Result :=
  if s.mgt.uptime < s.mgt.windowAt + 100 then .next s
  else
  let s := { s with mgt := { s.mgt with windowAt := s.mgt.uptime } }
  let lvl := s.fld aMGT_STAT fMGT_STAT_SHED
  let lvl' := if 90 < load.toNat then min 3 (lvl + 1) else if load.toNat ≤ 75 then lvl - 1 else lvl
  let s1 := (s.setFld aMGT_STAT fMGT_STAT_LOAD load.toNat).setFld aMGT_STAT fMGT_STAT_SHED lvl'
  let s2 := if lvl = 0 ∧ lvl' ≠ 0 then s1.latch aMGT_LAT fMGT_LAT_SHED else s1
  let s3 := if lvl ≠ lvl' then s2.log 0x09 lvl' (leBytes 1 load.toNat) else s2
  .next (s3.condition 118 islManagement (decide (90 < load.toNat)) (decide (load.toNat ≤ 90)))

/-- Every request in hand answered with BUSY. -/
def State.busyAll (s : State) (p : Port) : State :=
  ((s.slots p.val).filter (fun x => x.reply.isNone)).foldl (fun s x => s.mgtReply p x.cmd x.req msBusy []) s

/-- WATCHDOG_EXPIRY (R500, R496): requests are answered with BUSY, held replies go, a slot being written is invalid, and an
activation held by the firmware is lost. The program counter of the log entry is a free value. -/
def execWatchdogExpiry (s : State) : Result :=
  let s1 := (s.busyAll 0).busyAll 1
  let s2 := ((s1.setSlots 0 []).setSlots 1 [])
  let s3 := if s2.mgt.running = some 0x06 then s2.setFld aMGT_FW fMGT_FW_UPD 3 else s2
  let s4 := { s3 with
    agenda := s3.agenda.filter (fun d => !d.activates)
    mgt := { s3.mgt with running := none, image := [], checked := false } }
  let pc := s4.draw
  .next ((((pc.2.bump aMGT_WDOG).latch aMGT_LAT fMGT_LAT_WDOG).log 0x0B 0 (leBytes 4 pc.1)).raise 117 islManagement)

end Sys2Proof.Machine
end

