-- ==== Sys2Proof/Machine/Pins.lean ====
section
/-! DEFINITION. Pin islands (chapter 4): periods and edge sets, the formatter's output, the static inhibit, driver enables,
SAFE_N, and the pattern on CSL. -/
namespace Sys2Proof.Machine

/-! ## Shared operations -/

/-- The drive state of a channel. -/
def State.chan (s : State) (ch : Nat) : ChanDrv := Tab.get (fun _ => {}) s.chans ch

/-- The state with a channel's drive state set. -/
def State.setChan (s : State) (ch : Nat) (x : ChanDrv) : State :=
  { s with chans := Tab.set (fun _ => {}) s.chans ch x }

/-- The drive state of a pin; the key is 26 × island + pin. -/
def State.pin (s : State) (n p : Nat) : PinDrv := Tab.get (fun _ => {}) s.pins (26 * n + p)

/-- The state with a pin's drive state set. -/
def State.setPin (s : State) (n p : Nat) (x : PinDrv) : State :=
  { s with pins := Tab.set (fun _ => {}) s.pins (26 * n + p) x }

/-- Pin roles of PIN_STAT.ROLE. -/
abbrev roGH : Nat := 1
abbrev roGL : Nat := 2
abbrev roGD : Nat := 3
abbrev roCSL : Nat := 9

/-- The role of a pin. -/
def State.role (s : State) (n p : Nat) : Nat := s.fld (aPIN_STAT n p) fPIN_STAT_ROLE

/-- An output-role pin (R86). -/
def State.outRole (s : State) (n p : Nat) : Bool :=
  let r := s.role n p
  r == roGH || r == roGL || r == roGD || r == roCSL

/-- The period of a channel in TBU: the leader's for a gang member (R100). -/
def State.period (s : State) (ch : Nat) : Nat :=
  let l := s.leader ch
  s.fld (aCH_PERIOD (islOf l) (locOf l)) fCH_PERIOD_PERIOD

/-- The grid origin of a channel (R91, R92, R100): the phase, or the anchor of a CH_PERIOD write that took effect since the
phase was last written, moved by a member's share of the period. -/
def State.gridPhase (s : State) (ch : Nat) : Nat :=
  let l := s.leader ch
  let k := ch - l
  let base := match (s.chan l).anchor with
    | some a => a.toNat
    | none => s.fld (aCH_PHASE (islOf l) (locOf l)) fCH_PHASE_PHASE
  base + k * s.period ch / s.gangSize ch

/-- The first period start of a channel at or after a count (R91). -/
def State.periodFrom (s : State) (ch : Nat) (c : Count) : Count := Count.gridFrom c (s.gridPhase ch) (s.period ch)

/-- SAFE_N, a bound monitor, a gang member's monitor, a driver disable or an island disable holds the channel's pins
(R102). -/
def State.chanHeld (s : State) (ch : Nat) : Bool :=
  !s.power.safeN || s.monHolds ch || s.gangHolds ch || !s.drvEn ch || !s.blkOn (islBlk (islOf ch))

/-- A cause of the inhibit other than the driver and island enables (R104). -/
def State.inhCause (s : State) (ch : Nat) : Bool := !s.power.safeN || s.monHolds ch || s.gangHolds ch

/-- The value of an edge word's ACT and OFFSET (R88). -/
def edgeAct (w : Word) : Nat := getF w ⟨31, 30⟩
def edgeOff (w : Word) : Nat := getF w ⟨27, 0⟩

/-- The edges of a set that act. -/
def liveEdges (set : List Word) : List Word := set.filter (fun w => edgeAct w != 0)

/-- The reason for which a set is invalid (R89): 1 order or spacing, 2 an offset not less than the period; 0 none. Of a set
that breaks both conditions it is 1 (DESIGN CHOICE, log entry 68). -/
def setFault (set : List Word) (period : Nat) : Nat :=
  let es := liveEdges set
  let rec spaced : List Word → Bool
    | [] => true
    | [_] => true
    | x :: y :: t => decide (edgeOff x + 128 ≤ edgeOff y) && spaced (y :: t)
  if !(spaced es) then 1 else if es.any (fun w => decide (period ≤ edgeOff w)) then 2 else 0

/-- The fixed output delay of every pin, in TBU (R90). -/
abbrev tOut : Count := 2048#72

/-- The rise and fall dead times of a channel, in TBU: the leader's for a gang (R96, R100). -/
def State.deadTimes (s : State) (ch : Nat) : Count × Count :=
  let l := s.leader ch
  let w := s.reg (aCH_DT (islOf l) (locOf l))
  (BitVec.ofNat 72 (getF w fCH_DT_DTR), BitVec.ofNat 72 (getF w fCH_DT_DTF))

/-- The command takes a level at an instant: the fast level of the other side falls there if it had risen. -/
def Play.goto (p : Play) (dt : Count × Count) (lvl : Bool) (at_ : Count) : Play :=
  if lvl = p.level then p
  else if lvl then
    { p with level := true, trans := at_, glFall := if Count.upto (p.trans + dt.2) at_ then some at_ else p.glFall }
  else
    { p with level := false, trans := at_, ghFall := if Count.upto (p.trans + dt.1) at_ then some at_ else p.ghFall }

/-- The command after the edges of a set that lie at or before a time (R90, R95). -/
def Play.edges (dt : Count × Count) (start now : Count) : List Word → Play → Play
  | [], p => p
  | w :: ws, p =>
    let at_ := start + BitVec.ofNat 72 (edgeOff w)
    if edgeAct w ≠ 0 ∧ Count.upto at_ now then
      let l := if edgeAct w = 1 then false else if edgeAct w = 2 then true else !p.level
      Play.edges dt start now ws (p.goto dt l at_)
    else Play.edges dt start now ws p

/-- The command of a pin at a time: the edges played on top of the level at the period start (R90); RZ forces 0 there
(R95). -/
def State.cmdAt (s : State) (n p : Nat) (now : Count) : Play :=
  let d := s.pin n p
  let ch := chanOf n (p / 6)
  let p0 : Play := ⟨d.level, d.trans, d.ghFall, d.glFall⟩
  match (s.chan ch).start with
  | none => p0
  | some st => Play.edges (s.deadTimes ch) st now d.set p0

/-- The command of a pin as it played at a time of the last output delay: in the stretch that the time lies in (R148). -/
def State.playedAt (s : State) (n p : Nat) (t : Count) : Play :=
  match ((s.pin n p).before.filter (fun b => Count.before t b.until_)).getLast? with
  | some b => Play.edges (s.deadTimes (chanOf n (p / 6))) b.start t b.set b.play
  | none => s.cmdAt n p t

/-- The stretches of play that may still show at the connector after an instant, the one that ends there first. -/
def State.playEnds (s : State) (n p : Nat) (at_ : Count) : List Played :=
  let d := s.pin n p
  ⟨at_, (s.chan (chanOf n (p / 6))).start.getD at_, d.set, ⟨d.level, d.trans, d.ghFall, d.glFall⟩⟩
    :: d.before.filter (fun b => Count.before (at_ - tOut) b.until_)

/-- The fast level of one pin of a pair at a time (R96): `gh` rises DTR after a rise of the command, `gl` DTF after a
fall. -/
def Play.pair (p : Play) (dt : Count × Count) (gh : Bool) (now : Count) : Bool :=
  if gh then p.level && Count.upto (p.trans + dt.1) now else !p.level && Count.upto (p.trans + dt.2) now

/-- The latest transition of one pin of a pair at or before a time. -/
def Play.pairTrans (p : Play) (dt : Count × Count) (gh : Bool) (now : Count) : Option Count :=
  if gh then (if p.level && Count.upto (p.trans + dt.1) now then some (p.trans + dt.1) else p.ghFall)
  else if !p.level && Count.upto (p.trans + dt.2) now then some (p.trans + dt.2) else p.glFall

/-- The pin is driven by the pair of its even neighbour (R96). -/
def State.pairSlave (s : State) (n p : Nat) : Bool :=
  p % 2 == 1 && decide (p < 24) && s.fld (aPIN_CFG n (p - 1)) fPIN_CFG_FORMAT == 2

/-- The level of the code on CSL at a time (R98): bit LEN - 1 first, each bit DIV cycles, then IDLE. -/
def State.cslLevel (s : State) (n : Nat) (now : Count) : Bool :=
  let idle := s.bit (aPAT_CFG n) fPAT_CFG_IDLE
  match Tab.get (fun _ => none) s.codes n with
  | some c =>
    if Count.upto c.start now ∧ Count.before now c.stop ∧ 0 < c.div then
      c.bits.getLsbD (c.len - 1 - ((now - c.start).toNat / 128) / c.div)
    else idle
  | none => idle

/-- An inhibit holds a pin of its channel's inhibit set (R102). -/
def State.pinInh (s : State) (n p : Nat) : Bool :=
  let ch := chanOf n (p / 6)
  s.bit (aPIN_STAT n p) fPIN_STAT_INH_SET && (s.monHolds ch || s.gangHolds ch || (s.chan ch).inhibited)

/-- A pin stands at its safe level whatever the inhibit does (R87, R95, R102, R172): input-role and unused pins always; a
HELD format; SAFE_N low; a disable; GOFF for a LOOP-source pin. -/
def State.pinStill (s : State) (n p : Nat) : Bool :=
  let ch := chanOf n (p / 6)
  if !s.outRole n p then true
  else if p = 25 then false
  else
    let master := if s.pairSlave n p then p - 1 else p
    let fmt := s.fld (aPIN_CFG n master) fPIN_CFG_FORMAT
    let src := s.fld (aPIN_CFG n master) fPIN_CFG_SRC
    fmt == 3 || !s.power.safeN || !s.drvEn ch || !(s.bit (aCH_STAT n (p / 6)) fCH_STAT_DRV_ON)
      || !s.blkOn (islBlk n)
      || (src == 0 && (s.chan ch).goff)

/-- A pin stands at its safe level at this time. -/
def State.pinHeld (s : State) (n p : Nat) : Bool := s.pinStill n p || (p != 25 && s.pinInh n p)

/-- The level that a pin drives now where nothing holds it, without its output delay (R90, R95, R96; DESIGN CHOICE, log
entry 68). -/
def State.pinFree (s : State) (n p : Nat) : Bool :=
  if p = 25 then s.cslLevel n s.count
  else
    let dt := s.deadTimes (chanOf n (p / 6))
    if s.pairSlave n p then (s.cmdAt n (p - 1) s.count).pair dt false s.count
    else if s.fld (aPIN_CFG n p) fPIN_CFG_FORMAT = 2 then (s.cmdAt n p s.count).pair dt true s.count
    else (s.cmdAt n p s.count).level

/-- A pin's safe level. -/
def State.pinSafe (s : State) (n p : Nat) : Bool := s.fld (aPIN_STAT n p) fPIN_STAT_SAFE_LVL == 1

/-- The level that a pin drives now, without its output delay. -/
def State.pinOut (s : State) (n p : Nat) : Bool := if s.pinHeld n p then s.pinSafe n p else s.pinFree n p

/-- The command of a LEVEL-source pin takes PIN_LVL.LVL (R93), as a transition at an instant. Without edges it does so in
every format (DESIGN CHOICE for RZ, log entry 68). -/
def State.setLevel (s : State) (n p : Nat) (at_ : Count) : State :=
  let c := (s.cmdAt n p at_).goto (s.deadTimes (chanOf n (p / 6))) (s.bit (aPIN_LVL n p) fPIN_LVL_LVL) at_
  s.setPin n p { s.pin n p with
    set := [], level := c.level, trans := c.trans, ghFall := c.ghFall, glFall := c.glFall, before := s.playEnds n p at_ }

/-- The latest level change of a pin at the connector at or before a time (R148): forced, or of its command, which
changes nothing while the pin is held. -/
def State.pinEvent (s : State) (n p : Nat) (now : Count) : Option Count :=
  let d := s.pin n p
  let seen := match d.heldAt with
    | some h => if Count.before h now then h else now
    | none => now
  let x := seen - tOut
  let dt := s.deadTimes (chanOf n (p / 6))
  let own := if s.pairSlave n p then (s.playedAt n (p - 1) x).pairTrans dt false x
    else if s.fld (aPIN_CFG n p) fPIN_CFG_FORMAT = 2 then (s.playedAt n p x).pairTrans dt true x
    else some (s.playedAt n p x).trans
  match own.map (· + tOut), d.forced with
  | some a, some b => if Count.before a b && Count.upto b now then some b else some a
  | some a, none => some a
  | none, some b => if Count.upto b now then some b else none
  | none, none => none

/-- An output pin forced to its safe level from an instant (R102, R148); one that is there already makes no
transition. -/
def State.forcePin (s : State) (n p : Nat) (at_ : Count) : State :=
  if s.outRole n p && !(s.pinHeld n p) then
    let d := s.pin n p
    let move := s.pinFree n p != s.pinSafe n p
    s.setPin n p { d with forced := if move then some at_ else d.forced, heldAt := some at_ }
  else s

/-- The override of the inhibit reaches the driver input of a pin (R103, R148), which it finds at its level of this cycle. -/
def State.overridePin (s : State) (n p : Nat) : State :=
  let d := s.pin n p
  if s.outRole n p && !(s.pinStill n p) && s.pinInh n p && d.heldAt.isNone then
    let move := s.pinFree n p != s.pinSafe n p
    s.setPin n p { d with forced := if move then some s.count else d.forced, heldAt := some s.count }
  else s

/-- The override of a channel's inhibit set (R103). -/
def State.overridePins (s : State) (ch : Nat) : State :=
  (s.chanMons ch).foldl (fun s p => s.overridePin (islOf ch) p) s

/-- Output pins of a channel forced to their safe level: those of the inhibit set, or all of them. -/
def State.forcePins (s : State) (ch : Nat) (all : Bool) (at_ : Count) : State :=
  (s.chanMons ch).foldl (fun s p =>
    if all || s.bit (aPIN_STAT (islOf ch) p) fPIN_STAT_INH_SET then s.forcePin (islOf ch) p at_ else s) s

/-- CH_STAT.INH and ISL_STAT.INH_ANY show a channel's inhibit (R102, R104). -/
def State.setInh (s : State) (ch : Nat) (on : Bool) : State :=
  let n := islOf ch
  let s1 := (s.setChan ch { s.chan ch with inhibited := on }).setBit (aCH_STAT n (locOf ch)) fCH_STAT_INH on
  s1.setBit (aISL_STAT n) fISL_STAT_INH_ANY
    ((List.range 4).any (fun k => s1.bit (aCH_STAT n k) fCH_STAT_INH))

/-- The inhibit and its latches, as the network stands now (R102): a cause begins the inhibit, and only a period start
ends it (R104). -/
def State.showInh (s : State) (ch : Nat) : State :=
  let n := islOf ch
  let c := locOf ch
  let s1 := if s.monHolds ch then s.latch (aCH_INH n c) fCH_INH_MON else s
  let s2 := if s.gangHolds ch then s1.latch (aCH_INH n c) fCH_INH_GANG else s1
  s2.setInh ch (s.inhCause ch || (s.chan ch).inhibited)

/-- The inhibit network of a channel and its gang settles after a latch changed (R102, R103). -/
def State.settleInh (s : State) (ch : Nat) : State := (s.members ch).foldl (fun s k => s.showInh k) s

/-- A channel's drivers disabled by hardware or a write (R102): at once, mid-period if need be. -/
def State.driversOff (s : State) (ch : Nat) : State :=
  let n := islOf ch
  let c := locOf ch
  let s0 := s.forcePins ch true s.count
  let s1 := (s0.setBit (aCH_CTL n c) fCH_CTL_DRV_EN false).setBit (aCH_STAT n c) fCH_STAT_DRV_ON false
  s1.setChan ch { s1.chan ch with enableDue := none, since := none, deliveries := 0, newest := none, goff := true }

/-- The drivers of an island's four channels off (R106, R107). -/
def State.islandDriversOff (s : State) (n : Nat) : State :=
  (List.range 4).foldl (fun s c => s.driversOff (chanOf n c)) s

/-- A code in progress on CSL is cut (R99). -/
def State.cutCode (s : State) (n : Nat) : State :=
  { s.setBit (aISL_STAT n) fISL_STAT_PAT_BUSY false with codes := Tab.set (fun _ => none) s.codes n none }

/-- The loop of a channel runs (R172): its EN is 1, its engine is not TRAPPED and LPE is enabled. -/
def State.loopOn (s : State) (ch : Nat) : Bool :=
  s.bit (aLCH_CTL ch) fLCH_CTL_EN && s.blkOn 6
    && !(s.bit (aENG_RESTART (Tab.get (fun _ => ({} : LoopChan)) s.loops ch).eng) fENG_RESTART_TRAPPED)

/-- A loop stops (R172): its pins play as if the newest delivery carried GOFF, until a new one. -/
def State.loopStops (s : State) (ch : Nat) : State :=
  s.setChan ch { s.chan ch with newest := (s.chan ch).newest.map (fun d => (d.1, true, d.2.2)) }

/-- A delivery of an edge set into slot d mod 16 of a channel's LOOP-source pins (R93, R94, R172): the set for the pin of
role GH, an empty set for every other. While the loop is disabled it is as if it carried GOFF. One due at or after the due time of an enable that waits is the first since DRV_EN
takes effect, at that very period start. -/
def State.deliver (s : State) (ch : Nat) (due : Count) (goff : Bool) (set : List Word) : State :=
  let n := islOf ch
  let x := s.chan ch
  let d := if s.drvEn ch && x.enableDue.any (fun e => Count.upto e due) then 0 else x.deliveries
  let slot := d % 16
  let put (s : State) (p : Nat) : State :=
    if s.outRole n p && s.fld (aPIN_CFG n p) fPIN_CFG_SRC == 0 && !(s.pairSlave n p) then
      let ws := if s.role n p = roGH then set else []
      (List.range 4).foldl (fun s e => s.setReg (aEDGE n p slot e) (ws.getD e 0)) s
    else s
  let s1 := (s.chanMons ch).foldl put s
  s1.setChan ch { s1.chan ch with deliveries := d + 1, newest := some (due, goff || !(s.loopOn ch), slot) }

/-- The conditions of an enable at its due time (R106). -/
def State.mayEnable (s : State) (ch : Nat) : Bool :=
  let n := islOf ch
  let bound (k m : Nat) : Bool :=
    s.bit (aMON_BIND (islOf k) m) fMON_BIND_INH || s.bit (aMON_BIND (islOf k) m) fMON_BIND_FLAG_EN
  s.bit aTBS_STATE fTBS_STATE_TIME_VALID
    && s.blkOn (islBlk n) && s.bit (aISL_STAT n) fISL_STAT_DLL_LOCK
    && s.power.safeN
    && (s.chanMons ch).all (fun m => !(bound ch m && (s.monJudged n m).2))
    && (s.members ch).all (fun k => (s.chanMons k).all (fun m => !(bound k m && (s.monJudged (islOf k) m).1)))
    && s.twin != twHoldoff

/-! ## Meanings -/

/-- PAT_START (R98, R99): the code from the first cycle at or after the due time; a START before the previous code's end
is discarded. -/
def execPatStart (isl : Isl) (s : State) : Result :=
  let n := isl.val
  .next (s.startCode n (s.fld (aPAT_CFG n) fPAT_CFG_LEN) (BitVec.ofNat 64 (s.wide (aPAT_CODE n) 2)))

/-- The code in progress on an island's CSL has ended (R99). -/
def State.codeEnded (s : State) (n : Nat) : Bool :=
  (Tab.get (fun _ => none) s.codes n).all (fun (c : Code) => Count.upto c.stop s.count)

/-- PAT_CODE_END (R98, R99): at the end of bit 0 CSL drives IDLE and PAT_BUSY clears. -/
def execPatCodeEnd (isl : Isl) (s : State) : Result :=
  .next (if s.codeEnded isl.val then s.cutCode isl.val else s)

/-- DRV_EN_WRITE (R102, R106, R71). -/
def execDrvEnWrite (by_ : Issuer) (ch : Chan) (en : Bool) (s : State) : Result :=
  let n := islOf ch.val
  let c := locOf ch.val
  if en then
    if s.mayEnable ch.val then
      let s1 := s.latch (aCH_CTL n c) fCH_CTL_DRV_EN
      .next (if s.drvEn ch.val then s1
        else s1.setChan ch.val { s1.chan ch.val with enableDue := some s.at })
    else .next (s.rejectVal by_ (aCH_CTL n c))
  else .next (s.driversOff ch.val)

/-- The minimum period that a LAW record declares for a channel (R167), 0 without one. -/
def State.minPeriod (s : State) (ch : Nat) : Nat := (s.loopRec ch).minper

/-- CH_PERIOD_WRITE (R91, R92, R167): out of range, below the declared minimum, or, on an engine checked in mode FIXED,
other than it, it is refused; else it waits for the
first period start at or after its due time. A set due exactly at that start is judged against the new PERIOD (DESIGN CHOICE,
log entry 68). -/
def execChPeriodWrite (by_ : Issuer) (ch : Chan) (period : BitVec 28) (s : State) : Result :=
  if period.toNat < 48000 ∨ period.toNat < s.minPeriod ch.val
      ∨ (s.fixedMode ch.val = true ∧ period.toNat ≠ s.minPeriod ch.val) then
    .next (s.rejectVal by_ (aCH_PERIOD (islOf ch.val) (locOf ch.val)))
  else .next (s.setChan ch.val { s.chan ch.val with newPeriod := some (s.at, period) })

/-- The period write that waits takes effect at a period start at or after its due time (R92). -/
def State.takePeriod (s : State) (ch : Nat) (start : Count) : State :=
  match (s.chan ch).newPeriod with
  | some (d, p) =>
    if Count.upto d start then
      (s.setFld (aCH_PERIOD (islOf ch) (locOf ch)) fCH_PERIOD_PERIOD p.toNat).setChan ch
        { s.chan ch with newPeriod := none, anchor := some start }
    else s
  | none => s

/-- Hardware clears the latches of a channel's monitors with CLR_PS whose cause is not a trip (R152); a latch that a trip has
set in this cycle stays. -/
def State.clearPs (s : State) (ch : Nat) : State :=
  let n := islOf ch
  (s.chanMons ch).foldl (fun s m =>
    if s.bit (aMON_CFG n m) fMON_CFG_CLR_PS && !((s.reg (aMON_CAUSE n) ||| s.freshAt (aMON_LAT n)).getLsbD m) then
      s.monChange n m false ((s.reg (aMON_UNS n)).getLsbD m) s.count
    else s) s

/-- A period is served by a loop update (R163): its index from the grid origin is a multiple of the divisor. -/
def State.served (s : State) (ch : Nat) (start : Count) : Bool :=
  let p := s.period ch
  let div := s.fld (aLCH_CFG ch) fLCH_CFG_UPD_DIV
  p != 0 && div != 0 && ((start.toNat - s.gridPhase ch) / p) % div == 0

/-- A pin and the one that it drives as a pair stand at their safe levels under GOFF from a period start (R172): the
transition reaches the connector T_OUT later (R90). -/
def State.goffPins (s : State) (n p : Nat) (start : Count) : State :=
  let s1 := s.forcePin n p (start + tOut)
  if s.pairSlave n (p + 1) then s1.forcePin n (p + 1) (start + tOut) else s1

/-- A pin that is driven by its even neighbour is held no longer (R104). -/
def State.freeSlave (s : State) (n p : Nat) : State :=
  if s.pairSlave n (p + 1) then s.setPin n (p + 1) { s.pin n (p + 1) with heldAt := none } else s

/-- A LOOP-source or TABLE-source pin of a period start plays the set of a slot, or repeats the previous one where the
set is invalid (R89, R94). At a release the level counts as a new transition (R104); `off` says that the pin is held by
GOFF in this period. -/
def State.latchSet (s : State) (n p : Nat) (start : Count) (set : List Word) (slot period : Nat)
    (release off : Bool) : State :=
  let ch := chanOf n (p / 6)
  let s0 := if off then s.goffPins n p start else s
  let dt := s0.deadTimes ch
  let c := s0.cmdAt n p start
  let fault := setFault set period
  let c1 := if s0.fld (aPIN_CFG n p) fPIN_CFG_FORMAT = 1 ∧ s0.fld (aPIN_CFG n p) fPIN_CFG_SRC ≠ 2 then
    c.goto dt false start else c
  let tr := if release then start else c1.trans
  let d := s0.pin n p
  let d1 : PinDrv := { d with
    level := c1.level, trans := tr, ghFall := c1.ghFall, glFall := c1.glFall, before := s0.playEnds n p start
    heldAt := if release && !off then none else d.heldAt }
  let s0 := if release && !off then s0.freeSlave n p else s0
  if fault = 0 then s0.setPin n p { d1 with set := set }
  else
    let s1 := s0.setPin n p d1
    let s2 := s1.setReg (aISL_EREJ n) (putF (putF (fldWord fISL_EREJ_REASON fault) fISL_EREJ_SLOT slot)
      fISL_EREJ_PIN p)
    (s2.latch (aISL_LAT n) fISL_LAT_EDGE_REJ).raise 32 (Fin.ofNat 80 n)

/-- The four words of a slot of a pin (R88). -/
def State.slotSet (s : State) (n p slot : Nat) : List Word := (List.range 4).map (fun e => s.reg (aEDGE n p slot e))

/-- What the leader's newest delivery says at a period start of a channel (R93, R101): nothing yet, the newest one due
at or before the start and not before the instant at which the channel's DRV_EN took effect. -/
def State.newestAt (s : State) (ch : Nat) (start : Count) : Option (Count × Bool × Nat) :=
  match (s.chan (s.leader ch)).newest, (s.chan ch).since with
  | some (d, g, k), some t0 => if Count.upto d start ∧ Count.upto t0 d then some (d, g, k) else none
  | _, _ => none

/-- The update of a period start has its update point at or after the enable of the loop (R172, R188). -/
def State.updatedFor (s : State) (ch : Nat) (start : Count) : Bool :=
  let x := s.loopRec ch
  x.since.any (fun d => Count.upto d (start - cyc (s.fld (aENG_STAT x.eng) fENG_STAT_LEAD)))

/-- A served period whose set has not arrived in time (R17): late fault of kind 2 and CH_LATE. A gang is judged once, at
the leader's start (R101). Of the periods after an enable of the loop, those are judged that an update has served. -/
def State.judgeLate (s : State) (ch : Nat) (start : Count) : State :=
  if s.updatedFor ch start && s.loopOn ch && s.served ch start && !(s.follower ch) && (s.newestAt ch start).isSome
      && (match s.newestAt ch start with
          | some (d, _, _) => d != start
          | none => false) then
    let eng := (Tab.get (fun _ => ({} : LoopChan)) s.loops ch).eng
    (s.bump (aCH_LATE (islOf ch) (locOf ch))).lateInternal 2 (64 + eng) (islOf ch) start s.count
  else s

/-- The accepted enable of a channel takes effect at a period start (R106): a set due there is the first since (R93), and
LEVEL-source pins take their level. -/
def State.takeEnable (s : State) (ch : Nat) (start : Count) : State :=
  let n := islOf ch
  let x := s.chan ch
  let kept := x.newest.any (fun d => d.1 == start)
  let s1 := (s.latch (aCH_STAT n (locOf ch)) fCH_STAT_DRV_ON).setChan ch
    { x with enableDue := none, since := some start, tblSlot := 0
             deliveries := if kept then x.deliveries else 0, newest := if kept then x.newest else none }
  (s.chanMons ch).foldl (fun s p =>
    if s.outRole n p && s.fld (aPIN_CFG n p) fPIN_CFG_SRC == 2 then s.setLevel n p start else s) s1

/-- A period of a channel starts at `start` with its drivers in effect or not: the sets that play are latched. -/
def State.startPeriod (s : State) (ch : Nat) (start : Count) : State :=
  let n := islOf ch
  let c := locOf ch
  let x := s.chan ch
  let taking := match x.enableDue with
    | some d => Count.upto d start && s.drvEn ch
    | none => false
  let release := taking || (x.inhibited && !s.inhCause ch)
  let s1 := if taking then s.takeEnable ch start else s
  let s2 := s1.judgeLate ch start
  let src := s2.leader ch
  let on := s2.bit (aCH_STAT n c) fCH_STAT_DRV_ON
  let nw := if s2.loopOn src then s2.newestAt ch start else none
  let goff := match nw with
    | some (_, g, _) => g
    | none => true
  let release := release || ((s2.chan ch).goff && !goff)
  let tbl := (s2.chan ch).tblSlot
  let len := s2.fld (aCH_MODE n c) fCH_MODE_TBL_LEN
  let play (s : State) (p : Nat) : State :=
    if s.outRole n p && !(s.pairSlave n p) then
      if s.fld (aPIN_CFG n p) fPIN_CFG_SRC = 0 then
        match nw with
        | some (_, _, k) =>
          let lp := 6 * locOf src + p % 6
          s.latchSet n p start (s.slotSet (islOf src) lp k) k (s.period ch) release goff
        | none => s.latchSet n p start [] 0 (s.period ch) release true
      else if s.fld (aPIN_CFG n p) fPIN_CFG_SRC = 1 then
        (if on then s.latchSet n p start (s.slotSet n p tbl) tbl (s.period ch) release false else s)
      else s.latchSet n p start [] 0 (s.period ch) release false
    else s
  let s3 := (s2.chanMons ch).foldl play s2
  let slot := match nw with
    | some (_, _, k) => k
    | none => tbl
  let s4 := (s3.setFld (aCH_STAT n c) fCH_STAT_SLOT slot).setInh ch (x.inhibited && s.inhCause ch)
  s4.setChan ch { s4.chan ch with
    start := some start
    goff := goff
    tblSlot := if !on || decide (len ≤ tbl + 1) then 0 else tbl + 1 }

/-- Deliveries to a channel that are due at or before an instant and still held are taken (R93). -/
def State.takeEdges (s : State) (ch : Nat) (now : Count) : State :=
  let here (d : Due) : Bool := match d.act with
    | .edges c _ _ => c.val == ch && Count.upto d.due now
    | _ => false
  (s.agenda.filter here).foldl (fun s (d : Due) => match d.act with
    | .edges _ g set => s.deliver ch d.due g set
    | _ => s) { s with agenda := s.agenda.filter (fun d => !here d) }

/-- A period start of a channel lies in the present cycle and has not been taken. -/
def State.startsNow (s : State) (ch : Nat) : Bool :=
  let start := s.periodFrom ch s.count
  Count.before start (Count.cycleStart s.count + 128#72) && (s.chan ch).start != some start

/-- A channel's period start at an instant (R91, R92, R93, R94, R104, R152, R17, R89). CLR_PS latches clear before the release
is judged. -/
def State.periodAt (s : State) (ch : Nat) (start : Count) : State :=
  let s1 := (((s.takeEdges ch start).takeEdges (s.leader ch) start).takePeriod ch start).clearPs ch
  (s1.settleInh ch).startPeriod ch start

/-- PERIOD_START: the start of the channel's grid in the present cycle. -/
def execPeriodStart (ch : Chan) (s : State) : Result :=
  .next (if s.startsNow ch.val then s.periodAt ch.val (s.periodFrom ch.val s.count) else s)

/-- SAFE_N takes effect in one island (R105). -/
def State.safeIsland (s : State) (n : Nat) : State :=
  let isl : Fin 80 := Fin.ofNat 80 n
  let s1 := ((s.latch (aISL_LAT n) fISL_LAT_SAFE_SEEN).latch (aISL_STAT n) fISL_STAT_SAFE_ACTIVE).raise 33 isl
  (List.range 4).foldl (fun s c =>
    let ch := chanOf n c
    let was := s.drvEn ch
    let s1 := ((s.driversOff ch).latch (aCH_INH n c) fCH_INH_SAFE).showInh ch
    let s2 := s1.post isl (chanFin ch) eSafe
    if was then s2.excursion isl 5 0 ch s.count 0 0 else s2) s1

/-- Every channel's pins forced to their inhibit set. -/
def State.forceAll (s : State) : State := (List.range 256).foldl (fun s ch => s.forcePins ch true s.count) s

/-- The module is one of a pair. -/
def State.inPair (s : State) : Bool := s.twin == twActive || s.twin == twStandby

/-- SAFE_N reads low (R105): on a pair, digests of this tick and of later ones are not compared, and a resynchronisation in
progress ends (R392). -/
def State.safeSeen (s : State) : State :=
  let s1 := if s.inPair && s.joins then s.setReg aTWN_JOIN 0 else s
  { s1 with
    power := { s.power with safeN := false }
    twn := { s.twn with
      safeSplit := true
      safeAt := if s.twn.safeSplit then s.twn.safeAt else s.count
      safeRise := none } }

/-- SAFE_N_FALL (R105): every DRV_EN clears, every output but CSL is safe, E_SAFE is posted, FS 33 is raised. -/
def execSafeNFall (s : State) : Result :=
  .next ((List.range 64).foldl State.safeIsland (s.forceAll.safeSeen.causeOn 33 0))

/-- SAFE_N_RISE (R105, R108, R392): the cause of FS 33 ends and re-enables are allowed; the drivers stay off. On a pair the
resynchronisation of the standby follows once SAFE_N has been high for one whole tick. -/
def execSafeNRise (s : State) : Result :=
  let s0 := { s with power := { s.power with safeN := true } }.causeOff 33 0
  let s1 := { s0 with twn := { s0.twn with
    safeSplit := s0.twn.safeSplit && s.inPair
    safeRise := if s0.twn.safeSplit && s.inPair then some s.count else none } }
  .next ((List.range 64).foldl (fun s n =>
    (List.range 4).foldl (fun s c => s.showInh (chanOf n c)) (s.setBit (aISL_STAT n) fISL_STAT_SAFE_ACTIVE false)) s1)

end Sys2Proof.Machine
end

