-- ==== Sys2Proof/Machine/Sine.lean ====
section
/-! DEFINITION. The sine values of R231 and R308: round((2³¹ - 1) × sin(2π × k / 2²⁰)), computed in 128-bit fixed point from
the power series, far beyond the precision that the rounding needs. -/
namespace Sys2Proof.Machine

/-- π in units of 2⁻¹²⁸, rounded down. -/
def piFix : Nat := 0x3243F6A8885A308D313198A2E03707344

/-- The sum of the series of sine from a term on: `t` is the term's size, `n` its exponent, both signs in turn. -/
def sineTerms (x2 : Nat) : Nat → Nat → Nat → Int
  | 0, _, _ => 0
  | fuel + 1, n, t => (t : Int) - sineTerms x2 fuel (n + 2) (t * x2 / 2 ^ 128 / ((n + 1) * (n + 2)))

/-- (2³¹ - 1) × sin(2π × k / 2²⁰) rounded, for k in the first quadrant, 0 to 2¹⁸. -/
def sineQuarter (k : Nat) : Int :=
  let x := piFix * k / 2 ^ 19
  (sineTerms (x * x / 2 ^ 128) 24 1 x * 2147483647 + 2 ^ 127) / 2 ^ 128

/-- round((2³¹ - 1) × sin(2π × k / 2²⁰)) for any k. -/
def sineAt (k : Nat) : Int :=
  let r := k % 2 ^ 20
  if r ≤ 2 ^ 18 then sineQuarter r
  else if r ≤ 2 ^ 19 then sineQuarter (2 ^ 19 - r)
  else if r ≤ 3 * 2 ^ 18 then -sineQuarter (r - 2 ^ 19)
  else -sineQuarter (2 ^ 20 - r)

/-- round((2³¹ - 1) × cos(2π × k / 2²⁰)). -/
def cosineAt (k : Nat) : Int := sineAt (k + 2 ^ 18)

end Sys2Proof.Machine
end

