-- ==== Sys2Proof/Machine/Acquisition.lean ====
section
/-! DEFINITION. Acquisition, streams and excursions (chapter 12): reductions, demodulation, limits and masks, triggers and
marks, spill, rate reduction, seals, the excursion writer, and the sending of records. -/
namespace Sys2Proof.Machine

/-! ## Channels of the acquisition island -/

/-- The acquisition state of a channel. -/
def State.ach (s : State) (ch : Nat) : AcqChan := Tab.get (fun _ => {}) s.acq.chans ch

/-- The state with a channel's acquisition state set. -/
def State.setAch (s : State) (ch : Nat) (x : AcqChan) : State :=
  { s with acq := { s.acq with chans := Tab.set (fun _ => {}) s.acq.chans ch x } }

/-- The mark window W in TBU (R315). -/
def State.markWindow (s : State) : Count := cyc (s.fld aACQ_CFG fACQ_CFG_MWIN * 4096)

/-- The profile of a channel in force, 16 bytes (R306); empty where there is none. -/
def State.profile (s : State) (ch : Nat) : List Byte :=
  let p := s.fld (aACH_SEL ch) fACH_SEL_PROF
  if p = 255 then [] else Tab.get (fun _ => []) s.acq.profiles p

/-- The limit and mask set of a channel in force (R310); empty where there is none. -/
def State.lmset (s : State) (ch : Nat) : List Byte :=
  let p := s.fld (aACH_SEL ch) fACH_SEL_LMSET
  if p = 255 then [] else Tab.get (fun _ => []) s.acq.lmsets p

/-- The channel forms no reductions until its next step start (R312). -/
def State.acqStopped (s : State) (ch : Nat) : Bool := s.bit (aACH_STAT ch) fACH_STAT_STOPPED

/-- The level of a class, L_B or L_C (R322). -/
def State.levelB (s : State) : Nat := s.fld aACQ_STAT fACQ_STAT_LB
def State.levelC (s : State) : Nat := s.fld aACQ_STAT fACQ_STAT_LC

/-! ## Reductions (R305 to R307) -/

/-- The record of type 40h of a reduction (R307). -/
def Red.bytes (r : Red) (qty ch : Nat) (isPartial : Bool) : List Byte :=
  let fl := isPartial.toNat + 2 * (r.flags.toNat % 64) + 128 * r.fireForced.toNat
  recBytes 0x40 (r.kind + 4 * qty + 16 * r.lvl) ch
    (leBytes 1 r.times.length ++ leBytes 1 fl ++ leBytes 1 (r.markIdx + 16 * r.fireIdx)
      ++ leBytes 1 (r.mcode.toNat + 16 * (r.fireTrg % 8)))
    (r.times.headD 0) (leBytes 4 r.intervalCyc ++ r.values.flatMap (fun w => leBytes 4 w.toNat))

/-- The part of a reduction that a new record starts with. -/
def Red.fresh (r : Red) : Red :=
  { r with values := [], times := [], flags := 0, markIdx := 15, mcode := 0, fireIdx := 15, fireTrg := 8,
           fireForced := false }

/-- The words of a value: last, min and max, or mean (R306, R307). -/
def Red.value (r : Red) : List Word :=
  if r.kind = 1 then [BitVec.ofInt 32 r.last]
  else if r.kind = 2 then [BitVec.ofInt 32 r.min, BitVec.ofInt 32 r.max]
  else [BitVec.ofInt 32 (sat32 (divRound r.sum r.n))]

/-- A value at a time keeps the record's law that value k falls at TIME + k × INTERVAL (R307). -/
def Red.fits (r : Red) (t : Count) : Bool :=
  match r.times with
  | [] => true
  | t0 :: _ => t == t0 + BitVec.ofNat 72 (r.times.length * r.intervalCyc * 128)

/-- The record is full: 11 values, or 5 pairs (R307). -/
def Red.full (r : Red) : Bool := decide ((if r.kind = 2 then 5 else 11) ≤ r.times.length)

/-- The value of the interval in progress joins the record (R307). -/
def Red.join (r : Red) : Red :=
  { r with
    values := r.values ++ r.value
    times := r.times ++ [r.lastTime]
    flags := r.flags ||| r.pend
    n := 0, sum := 0, interval := none, pend := 0 }

/-- The value just joined carries a fire mark, unless the record has one of the same or a lower trigger (R316). -/
def Red.fired (r : Red) (trg : Nat) (forced : Bool) (k : Nat) : Red :=
  if r.fireIdx ≠ 15 ∧ r.fireTrg ≤ trg then r else { r with fireIdx := k, fireTrg := trg, fireForced := forced }

/-- The reduction of a quantity of a channel, 1 V or 2 I, with its waiting segment and fire marks. -/
def AcqChan.red (x : AcqChan) (qty : Nat) : Red := if qty = 1 then x.v else x.i
def AcqChan.mark (x : AcqChan) (qty : Nat) : Option (Count × BitVec 4) := if qty = 1 then x.markV else x.markI
def AcqChan.fire (x : AcqChan) (qty : Nat) : List (Nat × Bool × Count) := if qty = 1 then x.fireV else x.fireI

/-- The channel with a quantity's reduction and waiting marks set. -/
def AcqChan.setRed (x : AcqChan) (qty : Nat) (r : Red) (m : Option (Count × BitVec 4))
    (f : List (Nat × Bool × Count)) : AcqChan :=
  if qty = 1 then { x with v := r, markV := m, fireV := f } else { x with i := r, markI := m, fireI := f }

/-- The record being filled ends, where it holds a value: its append time is its last value's time and W (R304, R307). -/
def State.endRecord (s : State) (ch qty : Nat) (isPartial : Bool) : State :=
  let x := s.ach ch
  let r := x.red qty
  match r.times.getLast? with
  | none => s
  | some t =>
    (s.setAch ch (x.setRed qty r.fresh (x.mark qty) (x.fire qty))).appendTimes 1 (t + s.markWindow) r.times
      (r.bytes qty ch isPartial)

/-- The value of the interval in progress joins the record, with the segment marker and the fire marks that wait for a value
of its time; the record ends when it is full, after a PARTIAL value, or after a value with a segment marker (R307). -/
def State.joinValue (s : State) (ch qty : Nat) (isPartial : Bool) : State :=
  let x := s.ach ch
  let r0 := x.red qty
  let t := r0.lastTime
  let k := r0.times.length
  let r1 := r0.join
  let seg := match x.mark qty with
    | some (b, mc) => if Count.upto b t then some mc else none
    | none => none
  let r2 : Red := match seg with
    | some mc => { r1 with markIdx := k, mcode := mc }
    | none => r1
  let now := (x.fire qty).filter (fun f => Count.upto f.2.2 t)
  let later := (x.fire qty).filter (fun f => !(Count.upto f.2.2 t))
  let r3 := now.foldl (fun (r : Red) f => r.fired f.1 f.2.1 k) r2
  let s1 := s.setAch ch (x.setRed qty r3 (if seg.isSome then none else x.mark qty) later)
  if r3.full || isPartial || seg.isSome then s1.endRecord ch qty isPartial else s1

/-- The interval in progress of a quantity closes, where it holds a result. A value that would break the record's law of
times starts a record of its own, but for a PARTIAL one (log entry 74). -/
def State.closeInterval (s : State) (ch qty : Nat) (isPartial : Bool) : State :=
  let r := (s.ach ch).red qty
  if r.n = 0 then s
  else if isPartial || r.fits r.lastTime then s.joinValue ch qty isPartial
  else (s.endRecord ch qty false).joinValue ch qty false

/-- The kind and the results per interval of a quantity under a profile (R306). -/
def profKind (p : List Byte) (qty : Nat) : Nat := byteAt p (if qty = 1 then 0 else 1)
def profRate (p : List Byte) (qty : Nat) : Nat := fieldAt p (if qty = 1 then 2 else 4) 2

/-- Every interval in progress of a channel closes PARTIAL, and ends its record (R307). -/
def State.closePartial (s : State) (ch : Nat) : State := (s.closeInterval ch 1 true).closeInterval ch 2 true

/-- A change of profile or of the level (R307): intervals close PARTIAL, and the records being filled end, since their KIND,
L and INTERVAL no longer hold. -/
def State.endValues (s : State) (ch : Nat) : State := ((s.closePartial ch).endRecord ch 1 false).endRecord ch 2 false

/-- One result in the reduction of its quantity (R307): `m` is its number on the absolute grid, `hop` its unit's HOP,
`gateEnd` its gate end. Nothing is formed while the stream has not started. -/
def State.reduce (s : State) (ch qty m hop : Nat) (y : Int) (flags : BitVec 8) (gateEnd : Count) : State :=
  let p := s.profile ch
  let kind := profKind p qty
  let per := profRate p qty * 2 ^ s.levelB
  if kind = 0 ∨ per = 0 ∨ s.bit aACQ_STAT fACQ_STAT_RUN = false then s
  else
    let j := m / per
    let r0 := (s.ach ch).red qty
    let s1 :=
      if r0.kind ≠ kind ∨ r0.lvl ≠ s.levelB ∨ r0.intervalCyc ≠ per * hop then
        (s.closeInterval ch qty true).endRecord ch qty false
      else if r0.interval ≠ some j then s.closeInterval ch qty false
      else s
    let x := s1.ach ch
    let r := x.red qty
    let r1 := { r with
      kind := kind
      lvl := s.levelB
      intervalCyc := per * hop
      interval := some j
      n := r.n + 1
      sum := r.sum + y
      min := if r.n = 0 ∨ y < r.min then y else r.min
      max := if r.n = 0 ∨ r.max < y then y else r.max
      last := y
      lastTime := gateEnd
      pend := r.pend ||| flags }
    let s2 := s1.setAch ch (x.setRed qty r1 (x.mark qty) (x.fire qty))
    if (m + 1) % per = 0 then s2.closeInterval ch qty false else s2

/-! ## Demodulation (R308, R309) -/

/-- A complex quotient's part, rounded, with Z's LSB (R308). -/
def demodZ (num den : Int) : Int := if den ≤ 0 then 0 else divRound (65536 * 1000000 * num) den.toNat

/-- The record of type 41h of an interval, as it ends (R309). -/
def Demod.bytes (d : Demod) (isPartial : Bool) (ch : Nat) : List Byte :=
  let k : Nat := d.m * 2147483647
  let vre := divRound (512 * d.vs) k
  let vim := divRound (512 * d.vc) k
  let ire := divRound (512 * d.is) k
  let iim := divRound (512 * d.ic) k
  let den := ire * ire + iim * iim
  let zre0 := demodZ (vre * ire + vim * iim) den
  let zim0 := demodZ (vim * ire - vre * iim) den
  let lo : Int := -(2 ^ 63)
  let hi : Int := 2 ^ 63 - 1
  let zsat := decide (den = 0) || decide (clampInt lo hi zre0 ≠ zre0) || decide (clampInt lo hi zim0 ≠ zim0)
  recBytes 0x41 (d.two.toNat + 2 * zsat.toNat + 4 * d.stale.toNat + 8 * d.sat.toNat + 16 * isPartial.toNat) ch
    (leBytes 4 (d.phase / 2 ^ 48)) d.start
    (leBytes 4 d.m ++ leInt 6 vre ++ leInt 6 vim ++ leInt 6 ire ++ leInt 6 iim
      ++ leInt 8 (clampInt lo hi zre0) ++ leInt 8 (clampInt lo hi zim0) ++ leBytes 2 d.entry.toNat)

/-- A demodulation interval ends with its latest sample, where one is in progress: its record's append time is that sample's
boundary and W (R304, R308). `go` says that the same pass starts another. -/
def State.endDemod (s : State) (ch : Nat) (isPartial go : Bool) : State :=
  let x := s.ach ch
  let s1 := s.setAch ch { x with demod := { cont := go } }
  if x.demod.running then s1.append 1 (x.demod.lastTime + s.markWindow) (x.demod.bytes isPartial ch) else s1

/-- A channel whose player does not play has no pass: an interval that a cut left in progress ends PARTIAL (R308). -/
def State.restDemod (s : State) (ch : Nat) : State :=
  if (s.ach ch).demod.running || (s.ach ch).demod.cont then s.endDemod ch true false else s

/-- One sample of a channel's player in its demodulation (R308): phase θ, phase increment F, the entry in play, and
whether the sample is the first or the last of its pass. A pass that was cut short ends its interval PARTIAL. -/
def State.demodSample (s : State) (ch : Nat) (theta : BitVec 48) (f : Nat) (entry : Nat) (first last : Bool)
    (boundary : Count) : State :=
  let s0 := if first then s.restDemod ch else s
  let mode := byteAt (s.profile ch) 6
  if mode = 0 ∨ s.acqStopped ch ∨ s.bit aACQ_STAT fACQ_STAT_RUN = false then s0
  else
    let x := s0.ach ch
    let d0 : Demod := if first || x.demod.cont then
        { running := true, two := mode == 2, start := boundary, entry := BitVec.ofNat 16 entry }
      else x.demod
    if !d0.running then s0
    else
      let k := theta.toNat / 2 ^ 28
      let qv := s.inputNow ch 0
      let qi := s.inputNow ch 1
      let v := qv.1.toInt
      let i := qi.1.toInt
      let fl := qv.2 ||| qi.2
      let d := { d0 with
        lastTime := boundary
        m := d0.m + 1
        phase := d0.phase + f
        vs := d0.vs + v * sineAt k, vc := d0.vc + v * cosineAt k
        is := d0.is + i * sineAt k, ic := d0.ic + i * cosineAt k
        stale := d0.stale || fl.getLsbD 1
        sat := d0.sat || fl.getLsbD 4 }
      let s1 := s0.setAch ch { x with demod := d }
      if d.two && decide (fieldAt (s.profile ch) 8 2 * 2 ^ 48 ≤ d.phase) then s1.endDemod ch false !last
      else if last then s1.endDemod ch d.two false
      else s1

/-! ## Limits and masks (R310 to R312) -/

/-- The offset of mask m in a set. -/
def maskOff (m : Nat) : Nat := 0x10 + 0x410 * m

/-- Point i of mask m: T in µs, LO, HI. -/
def maskPoint (bs : List Byte) (m i : Nat) : Nat × Int × Int :=
  let o := maskOff m + 0x10 + 0x10 * i
  (fieldAt bs o 6, signed 32 (fieldAt bs (o + 8) 4), signed 32 (fieldAt bs (o + 12) 4))

/-- The envelope of a mask at a step time: lo rounded down, hi rounded up; none outside its points (R311). -/
def maskAt (bs : List Byte) (m tau : Nat) : Option (Int × Int) :=
  let n := byteAt bs (maskOff m + 2)
  let rec go : Nat → Nat → Option (Int × Int)
    | 0, _ => none
    | fuel + 1, i =>
      if n ≤ i + 1 then none
      else
        let a := maskPoint bs m i
        let b := maskPoint bs m (i + 1)
        if a.1 ≤ tau ∧ tau ≤ b.1 then
          let d : Int := ((b.1 - a.1 : Nat) : Int)
          let x : Int := ((tau - a.1 : Nat) : Int)
          if d = 0 then some (a.2.1, a.2.2)
          else some (a.2.1 + Int.fdiv ((b.2.1 - a.2.1) * x) d, a.2.2 - Int.fdiv (-((b.2.2 - a.2.2) * x)) d)
        else go fuel (i + 1)
  go 64 0

/-- The effects of the first violation of the limits or of a mask in a step (R312). -/
def State.violate (s : State) (ch : Nat) (act : Nat) (limits : Bool) (detail : Nat) (value limit : Int)
    (due : Count) : State :=
  let s1 := (s.excursion islAcquisition (if limits then 2 else 3) detail ch due (BitVec.ofInt 32 value)
    (BitVec.ofInt 32 limit)).raise (if limits then 81 else 80) islAcquisition
  let s2 := if limits then s1.latch aACQ_LAT fACQ_LAT_VLIM else s1.latch aACQ_LAT fACQ_LAT_MASK
  let s3 := if act.testBit 1 then
      s2.postAt islAcquisition (chanFin ch) (if limits then eVlim else eMask) 0 (due + cyc 96)
    else s2
  let s4 := if act.testBit 1 && act.testBit 2 then
      (s.members ch).foldl (fun s k => s.issueCmd islAcquisition (islOf k) (due + cyc 96)
        (.drvEnWrite (.island islAcquisition) (chanFin k) false)) (s3.latch (aACH_STAT ch) fACH_STAT_DRVOFF)
    else s3
  if act.testBit 0 then ((s4.closePartial ch).endDemod ch true false).latch (aACH_STAT ch) fACH_STAT_STOPPED else s4

/-- A voltage result against the limits of the set in force. -/
def State.testLimits (s : State) (ch : Nat) (y : Int) (due : Count) : State :=
  let bs := s.lmset ch
  let hi := signed 32 (fieldAt bs 0 4)
  let lo := signed 32 (fieldAt bs 4 4)
  let above := decide (hi ≠ 0x7FFFFFFF) && decide (hi < y)
  let below := decide (lo ≠ -2147483648) && decide (y < lo)
  if bs.isEmpty || !(above || below) then s
  else if (s.ach ch).limDone then s.bump (aACH_MVIOL ch)
  else
    (s.setAch ch { s.ach ch with limDone := true }).violate ch (byteAt bs 8) true (if above then 0 else 1) y
      (if above then hi else lo) due

/-- A result of quantity 1 V, 2 I or 3 P against mask m. -/
def State.testMask (s : State) (ch m : Nat) (y : Int) (tau : Nat) (due : Count) : State :=
  let bs := s.lmset ch
  match maskAt bs m tau with
  | none => s
  | some (lo, hi) =>
    if y < lo ∨ hi < y then
      if (s.ach ch).maskDone.getLsbD m then s.bump (aACH_MVIOL ch)
      else
        (s.setAch ch { s.ach ch with maskDone := (s.ach ch).maskDone ||| (1#4 <<< m) }).violate ch
          (byteAt bs (maskOff m + 1)) false m y (if y < lo then lo else hi) due
    else s

/-- The masks that test quantity `qty`, on a value of it (R311). -/
def State.testMasks (s : State) (ch qty : Nat) (y : Int) (due : Count) : State :=
  match (s.ach ch).stepStart with
  | none => s
  | some st =>
    if Count.before due st then s
    else
      let tau := (due - st).toNat / 192000
      let bs := s.lmset ch
      (List.range (min 4 (byteAt bs 9))).foldl (fun s m =>
        if byteAt bs (maskOff m) = qty then s.testMask ch m y tau due else s) s

/-- A result of a channel's voltage (qty 1) or current (qty 2) at the acquisition island, as the loop engine reads it
(R305): limits, masks, reductions. A result that stops the channel is in none (R312). -/
def State.acqResult (s : State) (ch qty m hop : Nat) (y : Int) (flags : BitVec 8) (due gateEnd : Count) : State :=
  let other := (s.inputNow ch (if qty = 1 then 1 else 0)).1.toInt
  let s1 := if qty = 1 then s.testLimits ch y due else s
  let s2 := (s1.testMasks ch qty y due).testMasks ch 3 (divRound (y * other) 1000000) due
  if s2.acqStopped ch then s2
  else s2.reduce ch qty m hop y flags gateEnd

/-- The values and the demodulation of a channel whose profile changes end (R307). -/
def State.leaveProfile (s : State) (ch : Nat) : State := (s.endValues ch).restDemod ch

/-- A step start at the acquisition island (R263, R307, R312): intervals close PARTIAL, the profile and the set are
selected, and violations count anew. -/
def State.acqStepStart (s : State) (ch : Nat) (start : Count) (prof lms : Nat) : State :=
  let s1 := if prof = s.fld (aACH_SEL ch) fACH_SEL_PROF then s.closePartial ch else s.leaveProfile ch
  let s2 := s1.setReg (aACH_SEL ch) (putF (fldWord fACH_SEL_LMSET lms) fACH_SEL_PROF prof)
  let s3 := (s2.setReg (aACH_STAT ch) 0)
  s3.setAch ch { s3.ach ch with stepStart := some start, limDone := false, maskDone := 0 }

/-! ## Capture (R323) -/

/-- The record of type 60h of a slot. -/
def captureRec (pin isl n lc skipped : Nat) (words : List (BitVec 64)) : List Byte :=
  let ws := words.map (fun w => leBytes 8 w.toNat)
  leBytes 1 0x60 ++ leBytes 1 (pin + 32 * (words.length - 1)) ++ leBytes 1 isl ++ leBytes 1 n ++ leBytes 2 skipped
    ++ leBytes 1 lc ++ leBytes 1 0 ++ (ws.flatten ++ List.replicate 56 0#8).take 56

/-- A stamp word of a pin in the slots that capture it: a record at 7 words; the first of every 2^L_C is kept. -/
def State.captureStamp (s : State) (isl pin : Nat) (word : BitVec 64) (time : Count) : State :=
  (List.range 32).foldl (fun s n =>
    let r := s.reg (aCAP n)
    if getF r fCAP_EN = 1 ∧ getF r fCAP_ISLAND = isl ∧ getF r fCAP_PIN = pin then
      let c := Tab.get (fun _ => ({} : Capture)) s.acq.caps n
      let put (s : State) (c : Capture) : State :=
        { s with acq := { s.acq with caps := Tab.set (fun _ => {}) s.acq.caps n c } }
      let ws := c.words ++ [word]
      if ws.length < 7 then put s { c with words := ws }
      else if c.kept % 2 ^ s.levelC = 0 then
        (put s { words := [], skipped := 0, kept := c.kept + 1 }).append 2 time
          (captureRec pin isl n s.levelC c.skipped ws)
      else put s { words := [], skipped := c.skipped + 1, kept := c.kept + 1 }
    else s) s

/-! ## Triggers (R313 to R316) -/

/-- The state of a trigger. -/
def State.trig (s : State) (t : Nat) : Trigger := Tab.get (fun _ => {}) s.acq.trigs t

/-- The state with a trigger set. -/
def State.setTrig (s : State) (t : Nat) (x : Trigger) : State :=
  { s with acq := { s.acq with trigs := Tab.set (fun _ => {}) s.acq.trigs t x } }

/-- Trigger t is armed at A with the master's TO and AUTO; its decision is due at A + TO + W (R315, R428). -/
def State.armTrigger (s : State) (t : Fin 8) (a : Count) (tmo : Word) (auto : Bool) : State :=
  let s1 := (s.setTrig t.val { armed := some a, timeout := tmo.toNat, auto := auto }).setFld (aTRG_STAT t.val)
    fTRG_STAT_STATE 1
  s1.hold (.island islAcquisition) (a + BitVec.ofNat 72 (192000 * tmo.toNat) + s.markWindow) (.cmd (.triggerDecide t))

/-- An armed trigger is deciding (R331, log entry 74): a fire up to A + TO counts, or A + TO has passed and W has not. -/
def State.deciding (s : State) (t : Nat) : Bool :=
  let x := s.trig t
  match x.armed with
  | none => false
  | some a =>
    let last := a + BitVec.ofNat 72 (192000 * x.timeout)
    x.fires.any (fun f => Count.upto f.time last)
      || (Count.upto last s.count && Count.before s.count (last + s.markWindow))

/-- Trigger t disarmed without a mark. -/
def State.disarmTrigger (s : State) (t : Nat) : State := (s.setTrig t {}).setFld (aTRG_STAT t) fTRG_STAT_STATE 0

/-- A fire counted toward the decision: not before A (R314); its earliest decision time is f + W. -/
def State.countFire (s : State) (t : Fin 8) (f : Fire) : State :=
  let x := s.trig t.val
  match x.armed with
  | some a =>
    if Count.before f.time a then s
    else (s.setTrig t.val { x with fires := x.fires ++ [f] }).hold (.island islAcquisition)
      (f.time + s.markWindow) (.cmd (.triggerDecide t))
  | none => s

/-- A fire of this module (R314, R428): counted, and sent on the ring once for each arming; a standby sends none
(R382). -/
def State.fireHere (s : State) (t : Fin 8) (f : Count) (chan : Nat) : State :=
  let x := s.trig t.val
  match x.armed with
  | none => s
  | some a =>
    if Count.before f a then s
    else
      let s1 := s.countFire t ⟨f, s.ringPos, chan⟩
      if x.sent || s.isStandby then s1
      else
        let m : RingBody := ⟨t, false, BitVec.ofNat 16 s.ringPos, 0, BitVec.ofNat 16 chan, f, 0, 0, 0⟩
        (s1.setTrig t.val { s1.trig t.val with sent := true }).ringSend 0x04 m

/-- An accepted ARM of a trigger waits for its A. -/
def State.arming (s : State) (t : Fin 8) : Bool :=
  s.agenda.any (fun d => match d.act with
    | .arm u _ _ _ => u == t
    | _ => false)

/-- TRG_ARM (R313): judged at acceptance with its due time A; a trigger that is armed, or whose ARM waits for its A, is
refused. A forwarded write is no action. -/
def execTrgArm (by_ : Issuer) (t : Fin 8) (a : Count) (s : State) : Result :=
  let fwd := match by_ with
    | .forwarded _ => s.isStandby
    | _ => false
  if fwd then .next s
  else if !s.isArmMaster || (s.trig t.val).armed.isSome || s.arming t then .next (s.rejectVal by_ (aTRG_CTL t.val))
  else
    let tmo := s.reg (aTRG_TO t.val)
    let auto := s.bit (aTRG_CTL t.val) fTRG_CTL_AUTO
    let m : RingBody := ⟨t, auto, BitVec.ofNat 16 s.ringPos, 0, 0, a, tmo, 0, 0⟩
    .next ((s.ringSend 0x02 m).hold (.island islAcquisition) a (.arm t a tmo auto))

/-- TRG_DISARM (R315, R426): without a mark; the arming master tells the line. -/
def execTrgDisarm (by_ : Issuer) (t : Fin 8) (s : State) : Result :=
  let fwd := match by_ with
    | .forwarded _ => s.isStandby
    | _ => false
  if fwd then .next s
  else
    let m : RingBody := ⟨t, false, BitVec.ofNat 16 s.ringPos, 0, 0, s.at, 0, 0, 0⟩
    .next ((if s.isArmMaster then s.ringSend 0x03 m else s).disarmTrigger t.val)

/-- TRG_FIRE (R314): the write's due time is f. -/
def execTrgFire (by_ : Issuer) (t : Fin 8) (s : State) : Result :=
  let fwd := match by_ with
    | .forwarded _ => s.isStandby
    | _ => false
  .next (if fwd then s else s.fireHere t s.at 0xFFFF)

/-- RING_ARM (R313, R427, R429): forwarded; arms at A unless it arrives after A. -/
def execRingArm (m : RingBody) (crcGood : Bool) (s : State) : Result :=
  if crcGood = false then .next s.ringBad
  else if s.ringOwn m then .next s
  else
    let s1 := s.ringForward 0x02 m
    if Count.before m.count s.count then .next (s1.lateInternal 5 76 74 m.count s.count)
    else .next (s1.hold (.island islLink) m.count (.arm m.trigger m.count m.path m.auto))

/-- RING_DISARM (R315, R426, R427): disarms at the due time of the master's DISARM, which has passed on arrival unless the
message has come early. -/
def execRingDisarm (m : RingBody) (crcGood : Bool) (s : State) : Result :=
  if crcGood = false then .next s.ringBad
  else if s.ringOwn m then .next s
  else if Count.before s.count m.count then
    .next ((s.ringForward 0x03 m).hold (.island islLink) m.count (.disarm m.trigger))
  else .next ((s.ringForward 0x03 m).disarmTrigger m.trigger.val)

/-- RING_FIRE (R315): late after f + W, whether or not the trigger is still armed; counted where it is armed. -/
def execRingFire (m : RingBody) (crcGood : Bool) (s : State) : Result :=
  if crcGood = false then .next s.ringBad
  else if s.ringOwn m then .next s
  else
    let s1 := s.ringForward 0x04 m
    if Count.before (m.count + s.markWindow) s.count then .next (s1.lateInternal 5 76 74 m.count s.count)
    else .next (s1.countFire m.trigger ⟨m.count, m.origin.toNat, m.chan.toNat⟩)

/-- The fire with the smallest f; equal f by ring position, then by channel (R315). -/
def firstFire : List Fire → Option Fire
  | [] => none
  | f :: fs =>
    match firstFire fs with
    | none => some f
    | some g =>
      if Count.before f.time g.time
          || (f.time == g.time && (decide (f.pos < g.pos) || (f.pos == g.pos && decide (f.chan ≤ g.chan)))) then some f
      else some g

/-- A record with a fire mark at a value; the mark of the lowest trigger stands (R316). -/
def markRecord (bs : List Byte) (k t : Nat) (forced : Bool) : List Byte :=
  let idx := byteAt bs 6
  if idx / 16 ≠ 15 ∧ byteAt bs 7 / 16 % 8 ≤ t then bs
  else
    let b1 := putBytes bs 6 (leBytes 1 (idx % 16 + 16 * k))
    let b2 := putBytes b1 7 (leBytes 1 (byteAt bs 7 % 16 + 16 * t))
    putBytes b2 5 (leBytes 1 (byteAt bs 5 % 128 + 128 * forced.toNat))

/-- The mark in the first held record of a channel's quantity that has a value at or after f; whether one was found. -/
def markHeld (ch qty : Nat) (f : Count) (t : Nat) (forced : Bool) : List HeldRec → List HeldRec × Bool
  | [] => ([], false)
  | r :: rs =>
    if byteAt r.bytes 0 = 0x40 ∧ fieldAt r.bytes 2 2 = ch ∧ byteAt r.bytes 1 / 4 % 4 = qty then
      match r.times.findIdx? (fun t => Count.upto f t) with
      | some k => ({ r with bytes := markRecord r.bytes k t forced } :: rs, true)
      | none => let x := markHeld ch qty f t forced rs; (r :: x.1, x.2)
    else let x := markHeld ch qty f t forced rs; (r :: x.1, x.2)

/-- The class B mark of a channel's quantity (R316): in a held record, in the record being filled, or on
the first later value. -/
def State.markB (s : State) (ch qty : Nat) (f : Count) (t : Nat) (forced : Bool) : State :=
  if profKind (s.profile ch) qty = 0 then s
  else
    let x := markHeld ch qty f t forced (s.stream 1).held
    let s1 := s.setStream 1 { s.stream 1 with held := x.1 }
    if x.2 then s1
    else
      let a := s1.ach ch
      let r := a.red qty
      match r.times.findIdx? (fun t => Count.upto f t) with
      | some k => s1.setAch ch (a.setRed qty (r.fired t forced k) (a.mark qty) (a.fire qty))
      | none => s1.setAch ch (a.setRed qty r (a.mark qty) (a.fire qty ++ [(t, forced, f)]))

/-- A trigger decided on a fire (R316). -/
def State.decideFire (s : State) (t : Fin 8) (f : Fire) (forced : Bool) : State :=
  let x := s.trig t.val
  let a := x.armed.getD 0
  let b1 := t.val + 8 * forced.toNat
  let mark (typ : Nat) (pay : List Byte) : List Byte := recBytes typ b1 f.chan (leBytes 2 f.pos) f.time pay
  let others := x.fires.length - (if forced then 0 else 1)
  let s1 := s.append 0 s.at (mark 0x24 (leBytes 8 a.toNat ++ leBytes 4 others))
  let s2 := if (List.range 32).any (fun n => s.bit (aCAP n) fCAP_EN) then s1.append 2 s.at (mark 0x61 []) else s1
  let s3 := (List.range 256).foldl (fun s ch =>
    if (s.profile ch).isEmpty then s
    else ((s.markB ch 1 f.time t.val forced).markB ch 2 f.time t.val forced).postAt islAcquisition (chanFin ch) eFire 0
      (s.at + cyc 96)) s2
  let s4 := s3.setReg (aTRG_STAT t.val)
    (putF (putF (fldWord fTRG_STAT_STATE (if forced then 4 else 3)) fTRG_STAT_MODULE f.pos) fTRG_STAT_CHANNEL f.chan)
  (s4.setWide (aTRG_TIME t.val) 3 f.time.toNat).setTrig t.val {}

/-- TRIGGER_DECIDE (R315): at A + TO + W, or at f_min + W. Without AUTO and with no fire up to A + TO the trigger stays
armed until a DISARM. -/
def execTriggerDecide (t : Fin 8) (s : State) : Result :=
  let x := s.trig t.val
  match x.armed with
  | none => .next s
  | some a =>
    let last := a + BitVec.ofNat 72 (192000 * x.timeout)
    match firstFire (x.fires.filter (fun f => Count.upto f.time last)) with
    | some f =>
      if Count.upto (f.time + s.markWindow) s.at ∨ Count.upto (last + s.markWindow) s.at then
        .next (s.decideFire t f false)
      else .next s
    | none =>
      if Count.before s.at (last + s.markWindow) then .next s
      else if x.auto then .next (s.decideFire t ⟨last, 0, 0xFFFF⟩ true)
      else .next s

/-! ## Rate reduction, status, seals (R322 to R326) -/

/-- A basin's or a staging part's fill lies above `mark`/256. -/
def fillAbove (fill size mark : Nat) : Bool := decide (mark * size < fill * 256)

/-- The four watched fills against a mark (R319): staging B, staging C, basin B, basin C; `above` or below. An empty part
is not judged against its capacity. -/
def State.watched (s : State) (mark : Nat) (above : Bool) : List Bool :=
  let st (c : Nat) : Bool :=
    let n := (s.stream c).staged.length
    if n = 0 then (if above then false else decide (0 < mark))
    else if above then fillAbove n (Config.stagingRecords c) mark
    else decide (n * 256 < mark * Config.stagingRecords c)
  let ba (c : Nat) : Bool :=
    let n := s.basinFill c
    let z := s.fld (aBSN_SIZE c) ⟨31, 0⟩
    if n = 0 then (if above then false else decide (0 < mark))
    else if above then fillAbove n z mark else decide (n * 256 < mark * z)
  [st 1, st 2, ba 1, ba 2]

/-- The bits of a list of truth values, the first lowest. -/
def boolBits : List Bool → Nat
  | [] => 0
  | b :: bs => b.toNat + 2 * boolBits bs

/-- A periodic event of the acquisition island takes place in the present cycle, once: the count is a multiple of its period
in TBU, and the cycle's mark at a register says whether it has taken place (R322, R323, R325). -/
def State.onPeriod (s : State) (a period : Nat) : Bool := s.count.toNat % period == 0 && s.freshAt a == 0

/-- RATE_EVAL (R322): at a cycle whose count is a multiple of 65,536 the level rises or falls by 1; each change appends a
rate record. -/
def execRateEval (s : State) : Result :=
  if s.bit aACQ_STAT fACQ_STAT_RUN && s.onPeriod aACQ_STAT (65536 * 128) then
    let s0 := s.mark aACQ_STAT 1
    let l := s.fld aACQ_STAT fACQ_STAT_L
    let hi := s0.watched (s.fld aACQ_CFG fACQ_CFG_HWM) true
    let lo := s0.watched (s.fld aACQ_CFG fACQ_CFG_LWM) false
    let l' := if hi.any id then min 16 (l + 1) else if lo.all id then l - 1 else l
    if l' = l then .next s0
    else
      let lb := (l' + 1) / 2
      let lc := l' / 2
      let s1 := if lb ≠ s.levelB then (List.range 256).foldl (fun s c => s.endValues c) s0 else s0
      let s2 := s1.setReg aACQ_STAT (putF (putF (putF (s1.reg aACQ_STAT) fACQ_STAT_L l') fACQ_STAT_LB lb)
        fACQ_STAT_LC lc)
      let s3 := (s2.latch aACQ_LAT fACQ_LAT_RATE).append 0 s.count
        (recBytes 0x25 l' 0xFFFF (leBytes 1 lb ++ leBytes 1 lc ++ leBytes 1 l ++ leBytes 1 (boolBits hi)) s.count [])
      .next (if l = 0 then (s3.causeOn 83 0).raise 83 islAcquisition
        else if l' = 0 then s3.causeOff 83 0 else s3)
  else .next s

/-- The records of a class held and not taken, as BSN_FILL shows them (R317). -/
def State.heldRecords (s : State) (c : Nat) : Nat := s.wide (aBSN_WR c) 2 - s.wide (aBSN_ACK c) 2

/-- STATUS_RECORD (R323): every DPER × 2^20 cycles of the count, the basin and spill fills; DPER 0 means none. -/
def execStatusRecord (s : State) : Result :=
  let per := s.fld aACQ_PER fACQ_PER_DPER
  if per = 0 || !(s.onPeriod aACQ_PER (per * 2 ^ 20 * 128)) then .next s
  else
    let fills := (List.range 4).flatMap (fun c => leBytes 4 (s.heldRecords c))
    .next ((s.mark aACQ_PER 1).append 3 s.count (recBytes 0x70 (s.fld aACQ_STAT fACQ_STAT_L) 0xFFFF [] s.count
      (fills ++ leBytes 4 s.spillHeld)))

/-- The chunk of a class closed (R324). -/
def State.closeChunk (s : State) (c : Nat) : State := s.setStream c (s.stream c).close

/-- The seal of an instant (R325): class A's chunk closes over what was appended before it, the seal record follows, and S
waits for its signature. -/
def State.sealAt (s : State) (t : Count) (hb hc hd : BitVec 384) : State :=
  if s.bit aACQ_STAT fACQ_STAT_RUN then
    let s1 := (s.releaseOf 0 t).closeChunk 0
    let v := Config.sha384 (digestBytes (s1.stream 0).head ++ digestBytes hb ++ digestBytes hc ++ digestBytes hd)
    let no : Word := BitVec.ofNat 32 s1.acq.sealNext
    let s2 := s1.append 0 t (recBytes 0x26 0 0xFFFF (leBytes 4 no.toNat) t (digestBytes v))
    let keep := (s2.acq.seals ++ [(no, v, none)]).drop (s2.acq.seals.length + 1 - 65536)
    let s3 := { s2 with acq := { s2.acq with seals := keep, sealNext := s2.acq.sealNext + 1 } }
    let s4 := s3.setReg aACQ_SEALNO no
    (s4.setReg aSEC_SEALQ (BitVec.ofNat 32 ((keep.filter (fun x => x.2.2.isNone)).length))).askSig (.seal no)
  else s

/-- A copy of an excursion entry is on its way whose TIME lies before an instant (R328). -/
def State.copyBefore (s : State) (t : Count) : Bool := s.limitA t != t

/-- SEAL_INSTANT (R325): at a multiple of SEALIV seconds the four chunks close over the records with append time before the
instant. Class A waits for the excursion copies of that time, which are written 96 cycles after their TIME. -/
def execSealInstant (s : State) : Result :=
  if s.bit aACQ_STAT fACQ_STAT_RUN && s.onPeriod aACQ_SEALNO (s.fld aACQ_PER fACQ_PER_SEALIV * 192000000000) then
    let t := s.count
    let s0 := (((s.mark aACQ_SEALNO 1).releaseOf 1 t).releaseOf 2 t).releaseOf 3 t
    let s1 := ((s0.closeChunk 1).closeChunk 2).closeChunk 3
    let h (c : Nat) : BitVec 384 := (s1.stream c).head
    if s.copyBefore t then .next (s1.hold (.island islAcquisition) (t + cyc 96) (.seal t (h 1) (h 2) (h 3)))
    else .next (s1.sealAt t (h 1) (h 2) (h 3))
  else .next s

/-! ## Spill (R320, R321) -/

/-- The 64 records of a class from index `i`, as the basin in HBM holds them. -/
def State.basinBytes (s : State) (cls i : Nat) : Nat → List Byte
  | 0 => []
  | n + 1 => Memory.readBytes s.hbmMem (s.basinAddr cls i) 64 ++ s.basinBytes cls (i + 1) n

/-- A class's staging moves on into its basin after room came free; class A's loss ends when its staging has room. -/
def State.roomCame (s : State) (cls : Nat) : State :=
  let s1 := s.drainStage cls ((s.stream cls).staged.length)
  if cls = 0 && s1.causeAt 82 0 && !s1.stageFull 0 then s1.causeOff 82 0 else s1

/-- A basin is to spill (R320): it holds more than SPW/256 of its size, or, once it spills, no less. -/
def State.spills (s : State) (c : Nat) (spilling : Bool) : Bool :=
  let size := s.fld (aBSN_SIZE c) ⟨31, 0⟩
  let mark := s.fld aACQ_PER fACQ_PER_SPW
  decide (64 ≤ s.basinFill c) &&
    (if spilling then decide (mark * size ≤ s.basinFill c * 256) else fillAbove (s.basinFill c) size mark)

/-- FS 84 while the spill store is full (R330). -/
def State.judgeSpill (s : State) : State :=
  if s.spillFull then (if s.causeStands 84 then s else (s.causeOn 84 0).raise 84 islAcquisition) else s

/-- SPILL_MOVE (R320): one block of 64 records of basin A or B, while the basin spills and the store has room. `mediaGood` is
whether the block was written and read back (FS 22). -/
def execSpillMove (basinB : Bool) (mediaGood : Bool) (s : State) : Result :=
  let c := if basinB then 1 else 0
  let bitF := if basinB then fACQ_STAT_SPILL_B else fACQ_STAT_SPILL_A
  if s.hbmOpen = false then .next s
  else if s.spills c (s.bit aACQ_STAT bitF) then
    if s.spillFull then .next s.judgeSpill
    else if mediaGood = false then .next (s.raise 22 islMemory)
    else
      let i := s.wide (aBSN_ACK c) 2
      let blk := s.acq.spillNext
      let bs := s.basinBytes c i 64
      let s1 := { s with spill := Memory.writeBytes s.spill (blk % 62500000 * 4096) bs, acq := { s.acq with spillNext := blk + 1 } }
      let s2 := (s1.setWide aSPL_WR 2 (s.wide aSPL_WR 2 + 1)).setFld aSPL_USED fSPL_USED_BLOCKS (s.spillHeld + 1)
      let first := (s.stream c).spilled.isEmpty
      let s3 := s2.setStream c { s2.stream c with
        spilled := (s2.stream c).spilled ++ [(blk, i)]
        spillFirst := if first then blk else (s2.stream c).spillFirst }
      let s4 := (((s3.setWide (aBSN_ACK c) 2 (i + 64)).latch aACQ_STAT bitF).roomCame c).judgeSpill
      .next (if first then s4.append 0 s.count (recBytes 0x27 1 0xFFFF [] s.count (leBytes 8 blk)) else s4)
  else .next (s.setBit aACQ_STAT bitF false)

/-! ## The excursion memory (R327 to R329, R533) -/

/-- The 32 bytes of an entry. -/
def excBytes (kind detail : Byte) (ch : BitVec 16) (task step : Nat) (time : Count) (value limit : Word)
    (index : Nat) : List Byte :=
  leBytes 1 kind.toNat ++ leBytes 1 detail.toNat ++ leBytes 2 ch.toNat ++ leBytes 2 task ++ leBytes 2 step
    ++ leBytes 8 time.toNat ++ leBytes 4 value.toNat ++ leBytes 4 limit.toNat ++ leBytes 8 index

/-- The entry that leaves the plain moves to the overflow region, or is lost where that is full or absent (R329). -/
def State.excOverflow (s : State) (base x : Nat) : State :=
  let e := s.fld aEXC_OVFSZ ⟨31, 0⟩
  let old := s.wide aEXC_OLD 2
  let entry := Memory.readBytes s.sram (base + x % 393216 * 32) 32
  let s1 := if e = 0 then s else s.hbmWrite 2 (s.hbmBase 6 + (x % e) * 32) entry
  if e ≤ x - old then
    ((((s1.setWide aEXC_OLD 2 (x + 1 - e)).latch aEXC_LAT fEXC_LAT_OVWR).bump aEXC_LOST).raise 85 islAcquisition)
  else s1

/-- EXCURSION_WRITE (R328, R329): while EXC is enabled the entry takes the next INDEX, its slot in the plain, and a class
A copy. -/
def execExcursionWrite (kind detail : Byte) (ch : BitVec 16) (time : Count) (value limit : Word) (s : State) :
    Result :=
  if s.blkOn 11 then
    let x := s.wide aEXC_WR 2
    let lt := if ch = 0xFFFF then none else s.liveTask ch.toNat
    let task := lt.getD 0xFFFF
    let step := match lt with
      | some n => (s.task n).step
      | none => 0xFFFF
    let e := excBytes kind detail ch task step time value limit x
    let s1 := match s.plainBase .excursion with
      | some b =>
        let s1 := (if 393216 ≤ x then s.excOverflow b (x - 393216) else s);
        { s1 with sram := Memory.writeBytes s1.sram (b + x % 393216 * 32) e }
      | none => s
    .next (((s1.tickItem (.entry time e)).setWide aEXC_WR 2 (x + 1)).append 0 s.count (recBytes 0x23 kind.toNat ch.toNat (leBytes 4 x) time e))
  else .next s

/-! ## Streams to the host (R317, R420) -/

/-- The port that sends a class now (R413, R431): the assigned one, or the failover port while the assigned one is down. -/
def State.streamPort (s : State) (c : Nat) : Nat :=
  let code := s.fld aLNK_STRM ⟨2 * c + 1, 2 * c⟩
  let p := code % 2
  if 2 ≤ code ∧ s.ltssm p < ltActive then 1 - p else p

/-- The blocks of the spill store that a class sends from: those left by an earlier stream first (R332). -/
def Stream.blocks (x : Stream) : List (Nat × Nat) := if x.old.isEmpty then x.spilled else x.old

/-- The bytes of record `i` of a class: from the spill store where its block stands there, else from the basin. -/
def State.recordAt (s : State) (c i : Nat) : List Byte :=
  match (s.stream c).blocks.find? (fun b => decide (b.2 ≤ i) && decide (i < b.2 + 64)) with
  | some (blk, i0) => Memory.readBytes s.spill (blk % 62500000 * 4096 + (i - i0) * 64) 64
  | none => Memory.readBytes s.hbmMem (s.basinAddr c i) 64

/-- The records of a class that may be sent next, and whether they come from the spill store (R420): what an earlier stream
left, the spilled ones, the rest of the basin. -/
def State.sendable (s : State) (c : Nat) : Nat × Bool :=
  let x := s.stream c
  match x.old.getLast? with
  | some b => (b.2 + 64 - x.sent, true)
  | none =>
    let ack := s.wide (aBSN_ACK c) 2
    if x.sent < ack ∧ x.spilled ≠ [] then (ack - x.sent, true)
    else (s.wide (aBSN_WR c) 2 - x.staged.length - x.sent, false)

/-- STREAM_SEND (R420): the next 1 to 4 records of a class, spilled ones first, as the port, its session, its rights and
its credits allow. -/
def execStreamSend (p : Port) (cls : Fin 4) (s : State) : Result :=
  let c := cls.val
  let x := s.stream c
  let go := s.sendable c
  if s.streamPort c = p.val ∧ s.session p.val ∧ (s.rights (s.sessRole p.val)).mem.getLsbD 5 ∧ 0 < go.1
      ∧ (go.2 ∨ s.hbmOpen) ∧ (s.link p.val).mayGo (s.sends p.val) 2 then
    let n := min 4 go.1
    let recs := (List.range n).map (fun k => s.recordAt c (x.sent + k))
    .next ((s.setStream c { x with sent := x.sent + n }).sendFrame p.val 2 (.strm p cls go.2 x.sent recs))
  else .next s

/-- Blocks of the spill store that the host has taken: they free their room (R317, R320). -/
def State.freeBlocks (s : State) (n : Nat) : State :=
  if n = 0 then s
  else
    let s1 := (s.setFld aSPL_USED fSPL_USED_BLOCKS s.spillHeld).setWide aSPL_RD 2 (s.wide aSPL_RD 2 + n)
    if s1.spillFull then s1 else s1.causeOff 84 0

/-- Records of a class taken by the host up to an index (R317, R420): spilled blocks that are all taken free their room,
and an end record follows the last of them; basin records free theirs. While blocks of an earlier stream are left, the index
counts those (R332). -/
def State.takeRecords (s : State) (c taken : Nat) : State :=
  let x := s.stream c
  let stays (b : Nat × Nat) : Bool := decide (taken < b.2 + 64)
  if x.old.isEmpty then
    let left := x.spilled.filter stays
    let s1 := (s.setStream c { x with taken := taken, spilled := left }).freeBlocks (x.spilled.length - left.length)
    let s2 := if s1.wide (aBSN_ACK c) 2 < taken then (s1.setWide (aBSN_ACK c) 2 taken).roomCame c else s1
    if !x.spilled.isEmpty && left.isEmpty then
      s2.append 0 s.count (recBytes 0x27 0 0xFFFF [] s.count (leBytes 8 x.spillFirst))
    else s2
  else
    let left := x.old.filter stays
    (s.setStream c { x with
      taken := if left.isEmpty then 0 else taken
      sent := if left.isEmpty then 0 else x.sent
      old := left }).freeBlocks (x.old.length - left.length)

/-! ## Enable and disable (R324, R332) -/

/-- An enable of ACQ starts the stream: the chains are at H_0 and class A's first record is an anchor. -/
def State.acqOn (s : State) : State :=
  let clear (s : State) (c : Nat) : State :=
    s.setStream c { s.stream c with chunk := [], chunks := 0, head := 0 }
  let s1 := clear (clear (clear (clear s 0) 1) 2) 3
  ({ s1 with acq := { s1.acq with sealNext := 0 } }.latch aACQ_STAT fACQ_STAT_RUN).anchor 0

/-- A disable of ACQ stops the stream: values, demodulations and records on their way to their append time go (log entry
74). -/
def State.acqOff (s : State) : State :=
  let clear (s : State) (c : Nat) : State := s.setStream c { s.stream c with held := [] }
  let stop (x : AcqChan) : AcqChan :=
    { x with v := {}, i := {}, demod := {}, markV := none, markI := none, fireV := [], fireI := [] }
  let s1 := clear (clear (clear (clear s 0) 1) 2) 3
  { s1 with acq := { s1.acq with
      chans := (s1.acq.chans.map (fun (p : Nat × AcqChan) => (p.1, stop p.2))).filter (fun p => p.2 != ({} : AcqChan)) } }.setBit
    aACQ_STAT fACQ_STAT_RUN false

end Sys2Proof.Machine
end

