-- ==== Sys2Proof/Machine/Stamps.lean ====
section
/-! DEFINITION. Edge stamping and frequency (chapter 5): the DLL, the TACs, stampers, measurement units and gate ends. -/
namespace Sys2Proof.Machine

/-! ## The DLL (R121 to R124) -/

/-- DLL_LOCK of an island at a value, in ISL_STAT and DLL_STAT. -/
def State.setDllLock (s : State) (n : Nat) (on : Bool) : State :=
  (s.setBit (aISL_STAT n) fISL_STAT_DLL_LOCK on).setBit (aDLL_STAT n) fDLL_STAT_LOCKED on

/-- The lock loop of an island starts to acquire (R122). -/
def State.dllAcquire (s : State) (n : Nat) : State :=
  let s1 := (s.setBit (aDLL_STAT n) fDLL_STAT_LOCKING true).setBit (aDLL_STAT n) fDLL_STAT_BALANCING false
  { s1 with dlls := Tab.set (fun _ => 0) s1.dlls n 0 }

/-- DLL_LOCK clears (R123): open gates that depend on a DLL stamp end STALE. -/
def State.dllDown (s : State) (n : Nat) : State :=
  (if s.bit (aISL_STAT n) fISL_STAT_DLL_LOCK then s.spoilDll n else s).setDllLock n false

/-- An enable of an island (R122): its DLL starts to lock; a disable: DLL_LOCK clears (R123). -/
def State.dllOn (s : State) (n : Nat) : State := s.dllAcquire n
def State.dllOff (s : State) (n : Nat) : State :=
  let s1 := s.dllDown n
  (s1.setBit (aDLL_STAT n) fDLL_STAT_LOCKING false).setBit (aDLL_STAT n) fDLL_STAT_BALANCING false

/-- DLL_COMPARE (R121 to R123, R107): PHERR; a lost lock clears DLL_LOCK, disables the drivers and raises FS 35; 1,024
successive good comparisons start the phase-balance pass. -/
def execDllCompare (isl : Isl) (pherr : BitVec 8) (s : State) : Result :=
  let n := isl.val
  if !(s.blkOn (islBlk n)) then .next s
  else
    let s1 := s.setFld (aDLL_STAT n) fDLL_STAT_PHERR pherr.toNat
    let e := pherr.toInt.natAbs
    let cfg := s1.reg (aDLL_CFG n)
    if (s1.bit (aISL_STAT n) fISL_STAT_DLL_LOCK || s1.bit (aDLL_STAT n) fDLL_STAT_BALANCING)
        && decide (getF cfg fDLL_CFG_UNLOCK_TOL < e) then
      .next (((((s1.dllDown n).bump (aDLL_LOSS n)).islandDriversOff n).dllAcquire n).causeOn 35 n |>.raise 35
        (Fin.ofNat 80 n))
    else if s1.bit (aDLL_STAT n) fDLL_STAT_LOCKING then
      let run := if e ≤ getF cfg fDLL_CFG_LOCK_TOL then Tab.get (fun _ => 0) s1.dlls n + 1 else 0
      if run = 1024 then
        let s2 := (s1.setBit (aDLL_STAT n) fDLL_STAT_LOCKING false).setBit (aDLL_STAT n) fDLL_STAT_BALANCING true
        .next { s2 with dlls := Tab.set (fun _ => 0) s2.dlls n 0 }
      else .next { s1 with dlls := Tab.set (fun _ => 0) s1.dlls n run }
    else .next s1

/-- DLL_LOCK_DONE (R122): the phase-balance pass ends and DLL_LOCK sets. -/
def execDllLockDone (isl : Isl) (s : State) : Result :=
  let n := isl.val
  if s.bit (aDLL_STAT n) fDLL_STAT_BALANCING then
    .next (((s.setBit (aDLL_STAT n) fDLL_STAT_BALANCING false).setDllLock n true).causeOff 35 n)
  else .next s

/-- DLL_RELOCK (R124): refused while a channel of the island has DRV_EN at 1; else DLL_LOCK clears without FS 35. -/
def execDllRelock (by_ : Issuer) (isl : Isl) (s : State) : Result :=
  let n := isl.val
  if (List.range 4).any (fun c => s.drvEn (chanOf n c)) then .next (s.rejectVal by_ (aDLL_CMD n))
  else if s.blkOn (islBlk n) then .next ((s.dllDown n).dllAcquire n)
  else .next s

/-! ## TACs (R119, R125, R126) -/

/-- A TAC of an island. -/
def State.tac (s : State) (n k : Nat) : Tac := Tab.get (fun _ => {}) s.tacs (2 * n + k)

/-- The state with a TAC set. -/
def State.setTac (s : State) (n k : Nat) (x : Tac) : State :=
  { s with tacs := Tab.set (fun _ => {}) s.tacs (2 * n + k) x }

/-- An input-role pin: SV, SI, SP, AUX or SPS (R86). -/
def State.inRole (s : State) (n p : Nat) : Bool := decide (4 ≤ s.role n p) && decide (s.role n p ≤ 8)

/-- Open gates of every unit bound to a pin end STALE (R119). -/
def State.spoilPin (s : State) (n p : Nat) : State :=
  (List.range 9).foldl (fun s u => if s.muOnPin n u p then s.spoil n u s.count else s) s

/-- TAC_CFG_WRITE (R125, R119): open gates end STALE where the assignment changes. -/
def execTacCfgWrite (by_ : Issuer) (isl : Isl) (tac : Fin 2) (en : Bool) (pin : BitVec 5) (s : State) : Result :=
  let n := isl.val
  let k := tac.val
  let p := pin.toNat
  if !(s.inRole n p) || ((s.tac n (1 - k)).assigned && s.fld (aTAC_CFG n (1 - k)) fTAC_CFG_PIN == p)
      || (en && s.fld (aTAC_STAT n k) fTAC_STAT_RESULT != 1) then
    .next (s.rejectVal by_ (aTAC_CFG n k))
  else
    let old := s.fld (aTAC_CFG n k) fTAC_CFG_PIN
    let same := (s.tac n k).assigned && old == p && s.bit (aTAC_CFG n k) fTAC_CFG_EN == en
    let s1 := if (s.tac n k).assigned && !same then s.spoilPin n old else s
    let s2 := if same then s1 else s1.spoilPin n p
    .next ((s2.setReg (aTAC_CFG n k) (putF (fldWord fTAC_CFG_EN en.toNat) fTAC_CFG_PIN p)).setTac n k
      { s2.tac n k with assigned := true })

/-- TAC_CAL (R126): refused while the TAC is enabled or the island's DLL is not locked. -/
def execTacCal (by_ : Issuer) (isl : Isl) (tac : Fin 2) (s : State) : Result :=
  let n := isl.val
  if s.bit (aTAC_CFG n tac.val) fTAC_CFG_EN || !(s.bit (aISL_STAT n) fISL_STAT_DLL_LOCK) then
    .next (s.rejectVal by_ (aTAC_CMD n tac.val))
  else .next (s.latch (aTAC_STAT n tac.val) fTAC_STAT_CALIBRATING)

/-- TAC_CAL_DONE (R126): passes with at most 4 empty codes and a gain between 0.1125 and 0.1375 TBU per code; TAC_GAIN
shows the gain of the match; a pass sets the table, a failure keeps it, sets FAIL and raises FS 37. -/
def execTacCalDone (isl : Isl) (tac : Fin 2) (empty : BitVec 11) (gain : BitVec 16) (table : List (BitVec 13))
    (s : State) : Result :=
  let n := isl.val
  let k := tac.val
  if s.bit (aTAC_STAT n k) fTAC_STAT_CALIBRATING = false then .next s
  else
    let pass := decide (empty.toNat ≤ 4) && decide (0x1CCD ≤ gain.toNat) && decide (gain.toNat ≤ 0x2333)
    let s1 := (s.setReg (aTAC_STAT n k) (putF (fldWord fTAC_STAT_RESULT (if pass then 1 else 2)) fTAC_STAT_EMPTY
      (min 7 empty.toNat))).setReg (aTAC_GAIN n k) (gain.setWidth 32)
    if pass then
      .next ((s1.setTac n k { s1.tac n k with table := table }).causeOff 37 (2 * n + k))
    else .next ((s1.causeOn 37 (2 * n + k)).raise 37 (Fin.ofNat 80 n))

/-- The time that a TAC gives a crossing, in 1/16 TBU (R125): the second cycle boundary after it less the table's
interval. -/
def State.tacTime (s : State) (n k : Nat) (time : Count) (code : BitVec 10) : Nat :=
  let boundary := Count.cycleStart time + cyc 2
  (boundary.toNat * 16 + 2 ^ 76 - ((s.tac n k).table.getD code.toNat 0).toNat) % 2 ^ 76

/-! ## Stampers (R115 to R120) -/

/-- The state of a stamper; the key is 26 × island + pin. -/
def State.stamper (s : State) (n p : Nat) : Stamper := Tab.get (fun _ => {}) s.stampers (26 * n + p)

/-- The state with a stamper set. -/
def State.setStamper (s : State) (n p : Nat) (x : Stamper) : State :=
  { s with stampers := Tab.set (fun _ => {}) s.stampers (26 * n + p) x }

/-- STP_CFG_WRITE (R115, R118, R119, R125): the prescaler restarts and open gates of bound units end STALE. -/
def execStpCfgWrite (by_ : Issuer) (isl : Isl) (pin : PinNo) (data : Word) (s : State) : Result :=
  let n := isl.val
  let p := pin.val
  let hasTac := (List.range 2).any (fun k => (s.tac n k).assigned && s.fld (aTAC_CFG n k) fTAC_CFG_PIN == p)
  if getF data fSTP_CFG_WMODE = 3 ∨ getF data fSTP_CFG_SLOPE = 3 ∨ (getF data fSTP_CFG_RAWFMT = 1 ∧ hasTac = false) then
    .next (s.rejectVal by_ (aSTP_CFG n p))
  else
    let s1 := (s.spoilPin n p).setReg (aSTP_CFG n p) (data &&& 0x000323FF#32)
    .next (s1.setStamper n p { s1.stamper n p with eligible := 0 })

/-- A counted event at a time lies in the stamper's acceptance window (R118). A PERIOD window of SPS is that of the
channel whose path the spare serves; without one, and on CSL, it accepts every event. -/
def State.inWindow (s : State) (n p : Nat) (t : Count) : Bool :=
  let mode := s.fld (aSTP_CFG n p) fSTP_CFG_WMODE
  let ch := if p < 24 then some (chanOf n (p / 6)) else if p = 24 then (s.spareServes n).map (·.1) else none
  if mode = 1 then
    match ch with
    | none => true
    | some c =>
      let per := s.period c
      if per = 0 then true
      else
        let o := (t.toNat + (per - s.gridPhase c % per)) % per
        let ws := s.fld (aSTP_WS n p) fSTP_WS_WS
        let we := s.fld (aSTP_WE n p) fSTP_WE_WE
        if we < ws then decide (ws ≤ o) || decide (o < we) else decide (ws ≤ o) && decide (o < we)
  else if mode = 2 then
    decide (s.wide (aSTP_WAS n p) 2 ≤ t.toNat % 2 ^ 64) && decide (t.toNat % 2 ^ 64 < s.wide (aSTP_WAE n p) 2)
  else true

/-- A counted event in the gates that contain it (R131): its index advances; a stamp joins the sums. -/
def gateEvent (t : Count) (stamped : Bool) (flags : BitVec 8) (g : Gate) : Gate :=
  if Count.upto g.start t && Count.before t g.stop then
    let d := (t - g.start).toNat
    let g1 := { g with events := g.events + 1, flags := g.flags ||| flags }
    if stamped then
      { g1 with
        cnt := g.cnt + 1
        sn := g.sn + g.events
        st := g.st + d
        stt := g.stt + d * d
        snt := g.snt + g.events * d }
    else g1
  else g

/-- A counted event given to every unit bound to its pin. -/
def State.gateEvents (s : State) (n p : Nat) (t : Count) (stamped : Bool) (flags : BitVec 8) : State :=
  (List.range 9).foldl (fun s u =>
    if s.muOnPin n u p && (s.mu n u).next.isSome then
      let s1 := s.openGates n u t
      let x := s1.mu n u
      s1.setMu n u { x with gates := x.gates.map (gateEvent t stamped flags) }
    else s) s

/-- A counted event that is not stamped: it still advances n (R117, R118, R123). -/
def State.unstamped (s : State) (n p : Nat) (t : Count) (flags : BitVec 8) : State :=
  let x := s.stamper n p
  (s.setStamper n p { x with gap := min 63 (x.gap + 1) }).gateEvents n p t false flags

/-- A counted event of a stamper (R117, R118, R120, R123, R125). -/
def State.counted (s : State) (n p : Nat) (rise : Bool) (time : Count) (code : BitVec 10) : State :=
  let x := s.stamper n p
  let tac := s.tacOf n p
  if !(s.inWindow n p time) then (s.bump (aSTP_WDISC n p)).unstamped n p time rfWDISC
  else if tac.isNone && !(s.bit (aISL_STAT n) fISL_STAT_DLL_LOCK) then s.unstamped n p time 0
  else
    let gapCyc := if tac.isSome then 60 else 15
    let soon := match x.last with
      | some l => decide ((time - l).toNat < 128 * gapCyc)
      | none => false
    if soon then (s.bump (aSTP_LOST n p)).unstamped n p time rfLOST
    else
      let t16 := match tac with
        | some k => s.tacTime n k time code
        | none => time.toNat * 16
      let stamp : Count := if tac.isSome then BitVec.ofNat 72 ((t16 + 8) / 16) else time
      let raw := tac.isSome && s.bit (aSTP_CFG n p) fSTP_CFG_RAWFMT
      let body := if raw then t16 / 60 % 2 ^ 48 else stamp.toNat % 2 ^ 56
      let word : BitVec 64 := BitVec.ofNat 64 (body + x.gap * 2 ^ 56 + raw.toNat * 2 ^ 62 + rise.toNat * 2 ^ 63)
      let s1 := s.setStamper n p { x with last := some time, gap := 0 }
      (s1.gateEvents n p stamp true (if tac.isSome then rfTAC else 0)).captureStamp n p word stamp

/-- THRESHOLD_CROSSING (R115): an eligible crossing passes the prescaler; every P-th one is a counted event. `code` is
what a TAC converts the crossing to. -/
def execThresholdCrossing (isl : Isl) (pin : PinNo) (slope : Slope) (time : Count) (code : BitVec 10) (s : State) :
    Result :=
  let n := isl.val
  let p := pin.val
  let sel := s.fld (aSTP_CFG n p) fSTP_CFG_SLOPE
  let rise := decide (slope = .rise)
  if !(s.blkOn (islBlk n)) || !(sel == 2 || (sel == 0 && rise) || (sel == 1 && !rise)) then .next s
  else
    let x := s.stamper n p
    if x.eligible < s.fld (aSTP_CFG n p) fSTP_CFG_PRESC then
      .next (s.setStamper n p { x with eligible := x.eligible + 1 })
    else .next ((s.setStamper n p { x with eligible := 0 }).counted n p rise time code)

/-! ## Units (R130 to R137, R379) -/

/-- The result charge of the shipped stream in bytes per 1.5 × 10⁹ cycles: 60 bytes at each gate end of each distinct
grid of enabled units in service (R379). -/
def State.shipCharge (s : State) : Nat :=
  (List.range 64).foldl (fun a n =>
    let grids := ((List.range 8).filter (fun u => s.bit (aMU_CTL n u) fMU_CTL_EN
        && (s.muQty n u == 1 || s.muQty n u == 2) && s.boundUnit (s.muChan n u) (s.muQty n u - 1) == some u)).map
      (fun u => (s.muHop n u, s.muGph n u))
    grids.eraseDups.foldl (fun a g => a + (if g.1 = 0 then 0 else 60 * 1500000000 / g.1)) a) 0

/-- TWN_SHIPR shows the charge in MB/s (R379). -/
def State.showCharge (s : State) : State := s.setReg aTWN_SHIPR (BitVec.ofNat 32 (s.shipCharge / 1000000))

/-- A unit enabled from a due time (R130, R171). -/
def State.muStart (s : State) (n u : Nat) (from_ : Count) : State :=
  let s1 := s.latch (aMU_CTL n u) fMU_CTL_EN
  (s1.setMu n u { s1.mu n u with next := some (s1.firstGate n u from_), gates := [], valid := false }).dropQuant n u

/-- MU_EN_WRITE (R130, R379). -/
def execMuEnWrite (by_ : Issuer) (isl : Isl) (unit : UnitNo) (en : Bool) (s : State) : Result :=
  let n := isl.val
  let u := unit.val
  if en then
    let hop := s.muHop n u
    let gate := s.muGate n u
    if s.bit (aMU_CTL n u) fMU_CTL_EN then .next s
    else if !(decide (750 ≤ hop) && decide (750 ≤ gate) && decide (gate ≤ 15000000000) && decide (gate ≤ 4 * hop)
        && decide (s.muGph n u < hop)) then .next (s.rejectVal by_ (aMU_CTL n u))
    else
      let s1 := (s.muStart n u s.at).showCharge
      if (s.twin = twActive ∨ s.twin = twJoining ∨ s.twin = twStandby) ∧ 7680000000 < s1.shipCharge ∧
          s.shipCharge < s1.shipCharge then
        .next (s.rejectVal by_ (aMU_CTL n u))
      else .next s1
  else .next ((s.muOff n u).showCharge)

/-- The target set in a unit's registers (R137). -/
def State.muTarget (s : State) (n u : Nat) : Coef :=
  { f0 := BitVec.ofNat 56 (s.wide (aMU_F0 n u) 2)
    c0 := BitVec.ofNat 48 (s.wide (aMU_C0 n u) 2)
    c1 := BitVec.ofNat 48 (s.wide (aMU_C1 n u) 2)
    c2 := BitVec.ofNat 48 (s.wide (aMU_C2 n u) 2) }

/-- A target waits for the first gate end at or after the instant of the write. -/
def State.muApply (s : State) (n u : Nat) (c : Coef) : State :=
  s.setMu n u { s.mu n u with apply := some (s.at, c) }

/-- MU_APPLY (R137). -/
def execMuApply (isl : Isl) (unit : UnitNo) (s : State) : Result :=
  .next (s.muApply isl.val unit.val (s.muTarget isl.val unit.val))

/-- A target comes into force at a gate end at or after its due time (R137, R361): in one step where the unit serves no
channel with drivers enabled or measures another quantity, else as the goal of a slew. -/
def State.takeApply (s : State) (n u : Nat) (stop : Count) : State :=
  let x := s.mu n u
  match x.apply with
  | some (d, c) =>
    if Count.upto d stop then
      let q := s.slewQty n u
      let driven := match s.eventChan n u with
        | some ch => s.drvEn ch
        | none => false
      let slews := (q == 1 || q == 2) && driven
      (s.setMu n u (if slews then { x with apply := none, goal := some c }
        else { x with apply := none, base := c, goal := none, blend := 0 })).setBit (aMU_STAT n u) fMU_STAT_SLEWING slews
    else s
  | none => s

/-- The frequency of a gate, LSB 2⁻²⁴ Hz, unsaturated (R132). -/
def gateFreq (g : Gate) (p k : Nat) : Int :=
  let num : Int := (g.cnt : Int) * g.snt - (g.sn : Int) * g.st
  let den : Nat := g.cnt * g.stt - g.st * g.st
  divRound (num * p * 192000000000 * (2 ^ 24 : Nat)) (k * den)

/-- GATE_END (R132 to R137): the oldest gate of the unit that has ended gives its result. -/
def execGateEnd (isl : Isl) (unit : UnitNo) (s : State) : Result :=
  let n := isl.val
  let u := unit.val
  let s0 := s.openGates n u s.count
  match (s0.mu n u).gates with
  | [] => .next s0
  | g :: gs =>
    if Count.before s.count g.stop then .next s0
    else
      let s1 := (s0.setMu n u { s0.mu n u with gates := gs }).takeApply n u g.stop
      let x := s1.mu n u
      let pin := if u = 8 then 24 else s1.fld (aMU_BIND n u) fMU_BIND_PIN
      let cfg := s1.reg (aSTP_CFG n pin)
      let due := g.stop + 16384
      let marks := g.flags &&& (rfWDISC ||| rfLOST ||| rfTAC)
      let den := g.cnt * g.stt - g.st * g.st
      if g.stale || decide (g.cnt < s1.fld (aMU_CFG n u) fMU_CFG_MIN_N) || decide (den = 0) then
        .next (s1.giveResult n u x.f x.y (rfSTALE ||| marks ||| (if x.goal.isSome then rfSLEWING else 0)) g.cnt false due)
      else
        let raw := gateFreq g (getF cfg fSTP_CFG_PRESC + 1) (if getF cfg fSTP_CFG_SLOPE = 2 then 2 else 1)
        let lim := clampInt 0 (2 ^ 56 - 1 : Nat) raw
        let f := BitVec.ofInt 56 lim
        let x1 := x.moveBlend f (s1.slewStep (s1.slewQty n u) (s1.muHop n u))
        let y0 := unitRound (x1.base.scaled f + x1.blend * (2 ^ 96 : Nat))
        let ySat := decide (sat32 y0 ≠ y0)
        let y := BitVec.ofInt 32 (sat32 y0)
        let fl := rfVALID ||| marks ||| (if ySat || decide (lim ≠ raw) then rfSAT else 0)
          ||| (if x1.goal.isSome then rfSLEWING else 0)
        let s2 := (s1.setMu n u { x1 with f := f, y := y }).setBit (aMU_STAT n u) fMU_STAT_SLEWING x1.goal.isSome
        .next (s2.giveResult n u f y fl g.cnt ySat due)

/-- MU_STAT as it reads: the gates open now (R141). -/
def State.muStat (s : State) (n u : Nat) : Word :=
  let k := (((s.openGates n u s.count).mu n u).gates.filter (fun g => Count.before s.count g.stop)).length
  putF (putF (s.reg (aMU_STAT n u)) fMU_STAT_RUN (if k = 0 then 0 else 1)) fMU_STAT_OPEN (k - 1)

/-- STP_STAT as it reads: a TAC stamps the pin; stamps are being made (R141). -/
def State.stpStat (s : State) (n p : Nat) : Word :=
  let tac := (s.tacOf n p).isSome
  putF (fldWord fSTP_STAT_TACMODE tac.toNat) fSTP_STAT_ACTIVE
    (s.blkOn (islBlk n) && (tac || s.bit (aISL_STAT n) fISL_STAT_DLL_LOCK)).toNat

end Sys2Proof.Machine
end

