-- ==== Sys2Proof/Machine/Cal.lean ====
section
/-! DEFINITION. Calibration (chapter 14): path and spare sequences with their phases and refusals, the fit, commit and the
calibration records, the check of the reference. -/
namespace Sys2Proof.Machine

/-! ## Sequences (R359, R360, R365) -/

/-- The key of an entry of a calibration record (R367): units 0 to 7 of an island, then unit 8 of kind V and of kind I. -/
def calKey (n u : Nat) : Nat := 10 * n + u

/-- The unit that a sequence calibrates: the unit bound for its path, or unit 8 for the spare. -/
def State.seqUnit (s : State) (q : Nat) : Option Nat :=
  let x := s.seqn q
  if x.path < 2 then s.boundUnit (s.seqChan q) x.path else some 8

/-- The key of the record's entry that a sequence replaces. -/
def State.seqKey (s : State) (q : Nat) : Nat :=
  let x := s.seqn q
  if x.path < 2 then calKey (s.seqIsl q) ((s.seqUnit q).getD 0) else calKey (s.seqIsl q) (8 + x.path % 2)

/-- An entry of the record in force. -/
def State.calEntry (s : State) (k : Nat) : Option CalEntry := Tab.get (fun _ => none) s.calRec.force k

/-- A level lies in the range of R356 for a path. -/
def levelOk (path : Nat) (w : Word) : Bool :=
  if path % 2 = 0 then decide (0 ≤ w.toInt) && decide (w.toInt ≤ 5000000)
  else decide (-200000 ≤ w.toInt) && decide (w.toInt ≤ 200000)

/-- The least cause for which a START is refused (R359), 0 for none. -/
def State.startCause (s : State) (by_ : Issuer) (q : Nat) (data : Word) : Nat :=
  let path := getF data fCALQ_CMD_PATH
  let n := getF data fCALQ_CMD_ISLAND
  let ch := chanOf n (getF data fCALQ_CMD_CH)
  let npts := getF data fCALQ_CMD_NPM1 + 1
  let main := decide (path < 2)
  let unitOn := match s.boundUnit ch path with
    | some u => s.bit (aMU_CTL n u) fMU_CTL_EN
    | none => false
  let mirrors := match by_ with
    | .forwarded _ => s.twin == twStandby
    | _ => false
  if s.seqRuns q then 1
  else if !(s.bit aCAL_REFSTAT fCAL_REFSTAT_REFOK) then 2
  else if !(s.bit (aISL_STAT n) fISL_STAT_DLL_LOCK) then 3
  else if main && !unitOn then 4
  else if main && (s.calEntry (calKey n (8 + path))).isNone then 5
  else if !(s.bit aTWN_STAT fTWN_STAT_OWN) && !mirrors then 6
  else if npts < 2 || !((List.range npts).all (fun k => levelOk path (s.reg (aCALQ_LVL q k))))
      || (path % 2 == 1 && s.reg (aCALQ_RSH q) == 0) then 7
  else 0

/-- A set written to the target registers of a unit (R137). -/
def State.setTarget (s : State) (n u : Nat) (c : Coef) : State :=
  (((s.setWide (aMU_F0 n u) 2 c.f0.toNat).setWide (aMU_C0 n u) 2 c.c0.toNat).setWide (aMU_C1 n u) 2 c.c1.toNat).setWide
    (aMU_C2 n u) 2 c.c2.toNat

/-- What SPARE sets up (R360): SPARE_LIVE; the path pin's comparator and stamper configuration copied to SPS, the unit's
gate parameters to unit 8; unit 8's set brought into force from the record's spare entry. -/
def State.joinSpare (s : State) (q : Nat) : State :=
  let n := s.seqIsl q
  match s.seqUnit q with
  | none => s
  | some u =>
    let pin := s.fld (aMU_BIND n u) fMU_BIND_PIN
    let s1 := (s.sendSwitch q opSpareLive).setReg (aCMP_CFG n 24) (s.reg (aCMP_CFG n pin))
    let s2 := (s1.setReg (aSTP_CFG n 24) (s.reg (aSTP_CFG n pin))).setWide (aMU_GATE n 8) 2 (s.muGate n u)
    let s3 := ((s2.setReg (aMU_HOP n 8) (s.reg (aMU_HOP n u))).setReg (aMU_GPH n 8) (s.reg (aMU_GPH n u))).setReg
      (aMU_CFG n 8) (s.reg (aMU_CFG n u))
    match s.calEntry (calKey n (8 + (s.seqn q).path)) with
    | some e => (s3.setTarget n 8 e.coef).setMu n 8 { s3.mu n 8 with base := e.coef, goal := none, blend := 0, apply := none }
    | none => s3

/-- Unit 8 enabled by a sequence. -/
def State.unit8On (s : State) (n : Nat) : State :=
  if s.bit (aMU_CTL n 8) fMU_CTL_EN then s else s.muStart n 8 s.count

/-- The spare's switch has settled (R360): unit 8 is enabled, where the sequence that sent the code still stands there. -/
def State.spareOn (s : State) (q : Nat) : State :=
  if s.seqPhase q = 1 ∧ (s.seqn q).endAt = some s.at then s.unit8On (s.seqIsl q) else s

/-- The level of a point set on the reference bus, which drives only while the module holds OWN (R356); results of the
point count from 1 ms later, over DWELL. -/
def State.setPoint (s : State) (q k : Nat) : State :=
  let x := s.seqn q
  let own := s.bit aTWN_STAT fTWN_STAT_OWN
  let from_ := s.count + cyc 1500000
  let stop := from_ + cyc (1500000 * s.fld aCAL_CFG fCAL_CFG_DWELL)
  (s.setFld (aCALQ_STAT q) fCALQ_STAT_POINT k).setSeqn q { x with
    bus := if x.mirrored || !own then none else some (s.reg (aCALQ_LVL q k))
    sum := 0, n := 0, pointFrom := from_, pointEnd := stop, endAt := some stop, begun := none }

/-- CALQ_START (R359, R360, R365): refused with its cause, PREJ and FS 42; else the sequence sends its first code, and unit 8 is
enabled when the switch has settled. A spare sequence shows SPARE until its POINTS begin (log entry 75). -/
def execCalqStart (by_ : Issuer) (q : Fin 4) (data : Word) (s : State) : Result :=
  let path := getF data fCALQ_CMD_PATH
  let n := getF data fCALQ_CMD_ISLAND
  if n / 16 ≠ q.val then .next (s.rejectVal by_ (aCALQ_CMD q.val))
  else
    let s0 := s.setReg (aCALQ_CMD q.val) (data &&& 0x03303F03#32)
    let quiet (s : State) : State :=
      match s.boundUnit (chanOf n (getF data fCALQ_CMD_CH)) path with
      | some u => if path < 2 then s.setMu n u { s.mu n u with quiet := 2 ^ s.fld aCAL_CFG fCAL_CFG_MLOG } else s
      | none => s
    let cause := s.startCause by_ q.val data
    if cause ≠ 0 then
      .next (((quiet s0).setFld (aCALQ_STAT q.val) fCALQ_STAT_CAUSE cause).latch aCAL_LAT fCAL_LAT_PREJ |>.raise 42
        (Fin.ofNat 80 n))
    else
      let s1 := (quiet s0).setReg (aCALQ_STAT q.val)
        (putF (putF (fldWord fCALQ_STAT_PHASE 1) fCALQ_STAT_ISLAND n) fCALQ_STAT_CH (getF data fCALQ_CMD_CH))
      let stop := s1.count + s1.switchTime n
      let s2 := (s1.setSeqn q.val {
        path := path, npts := getF data fCALQ_CMD_NPM1 + 1, mirrored := s.twin == twStandby
        endAt := some stop }).hold (.island (Fin.ofNat 80 n)) stop (.spareOn q)
      .next (if path < 2 then s2.joinSpare q.val else s2.sendSwitch q.val opSpareRef)

/-- CALQ_ABORT (R364). -/
def execCalqAbort (q : Fin 4) (s : State) : Result := .next (s.seqEnd q.val 11 false)

/-- The mean of the pairs of MATCH, in units, rounded to nearest, ties away from zero. -/
def CalSeq.mean (x : CalSeq) : Int := divRound x.sum x.n

/-- MATCH ends (R360): OFFS; SWAP begins: the channel's input becomes the unit 8 result plus OFFS; PATH_REF. A mirrored
sequence makes no substitution (R365). -/
def State.swap (s : State) (q : Nat) : State :=
  let x := s.seqn q
  let ch := s.seqChan q
  let s1 := s.setPhase q 3 0
  let s2 := s1.setSeqn q { x with
    sum := 0, n := 0, onBus := true, sub := !x.mirrored, begun := none
    endAt := some (s.count + s.switchTime (s.seqIsl q)) }
  let s3 := if x.mirrored then s2
    else
      let m := s2.mu (s.seqIsl q) 8
      let s3 := s2.setOffset ch x.path (x.mean * 65536)
      s3.setLocal ch x.path { s3.localQuant ch x.path with y := m.yDue, due := m.due }
  s3.sendSwitch q opPathRef

/-- The measured level of a point: the operand, or the level shipped by the active for a mirrored sequence, a free value
where none has been (R365). -/
def State.pointLevel (s : State) (q : Nat) (r : BitVec 32) : BitVec 32 × State :=
  let x := s.seqn q
  if x.mirrored then
    match x.shipped with
    | some v => (v, s)
    | none => (BitVec.ofNat 32 s.draw.1, s.draw.2)
  else (r, s)

/-- The mean frequency of a point; a free value where no result fell in it. -/
def State.pointFreq (s : State) (q : Nat) : Int × State :=
  let x := s.seqn q
  if x.n = 0 then (((s.draw.1 % 2 ^ 56 : Nat) : Int), s.draw.2) else (divRound x.sum x.n, s)

/-- A point ends (R360, R365, R378): its mean frequency and level are kept, the active ships the level; the next point, or
RELEASE, or for the spare SPARE_IDLE and FIT. -/
def State.pointEnd (s : State) (q : Nat) (r : BitVec 32) : State :=
  let lv := s.pointLevel q r
  let fr := lv.2.pointFreq q
  let s1 := fr.2
  let x := s1.seqn q
  let s2 := (s1.setSeqn q { x with points := x.points ++ [(fr.1, lv.1.toInt)], sum := 0, n := 0, shipped := none }).shipItem
    (.refLevel (Fin.ofNat 64 (s.seqIsl q)) (Fin.ofNat 4 q) lv.1 s.count)
  let k := s.fld (aCALQ_STAT q) fCALQ_STAT_POINT + 1
  if k < x.npts then s2.setPoint q k
  else if x.path < 2 then s2.seqRelease q
  else
    let s3 := (s2.sendSwitch q opSpareIdle).unit8Off q
    (s3.setSeqn q { s3.seqn q with bus := none }).setPhase q 7 0

/-- The phase of a sequence, or its point, ends in the present cycle (R360): a phase at the first due time of a result of the
path's unit at or after its own end, a point but the last of a main path after its DWELL. -/
def State.phaseEnds (s : State) (q : Nat) : Bool :=
  let x := s.seqn q
  if s.seqPhase q = 4 ∧ (2 ≤ x.path ∨ s.fld (aCALQ_STAT q) fCALQ_STAT_POINT + 1 < x.npts) then x.pointEnd == s.count
  else x.begun == some s.count

/-- CAL_PHASE_END (R360): where the phase ends in the present cycle, the next one begins, or the next point. -/
def execCalPhaseEnd (q : Fin 4) (r : BitVec 32) (s : State) : Result :=
  let k := q.val
  let x := s.seqn k
  if s.phaseEnds k = false then .next s
  else
    match s.seqPhase k with
    | 1 =>
      if 2 ≤ x.path then .next ((s.setPhase k 4 0).setPoint k 0)
      else .next ((s.setPhase k 2 0).setSeqn k { x with endAt := none, begun := none })
    | 2 => .next (s.swap k)
    | 3 => .next ((s.setPhase k 4 0).setPoint k 0)
    | 4 => .next (s.pointEnd k r)
    | 5 =>
      .next ((s.setPhase k 6 (s.fld (aCALQ_STAT k) fCALQ_STAT_CAUSE)).setSeqn k { x with
        sum := 0, n := 0, endAt := none, begun := none })
    | 6 =>
      match x.ending with
      | some c => .next ((s.setPhase k 9 c).setSeqn k {})
      | none => .next (s.setPhase k 7 0)
    | _ => .next s

/-! ## Results that serve a sequence (R360) -/

/-- Both units of a sequence have a result with the same due time. -/
def State.paired (s : State) (n u : Nat) (due : Count) : Bool :=
  let m := s.mu n u
  let p := s.mu n 8
  m.valid && p.valid && m.due == due && p.due == due

/-- RETURN's last pair (R360): D as the channel's offset, the path unit's result plus D as its input, SPARE_IDLE, unit 8
disabled. -/
def State.giveBack (s : State) (q u : Nat) : State :=
  let x := s.seqn q
  let ch := s.seqChan q
  let n := s.seqIsl q
  let d := divRound (x.sum * 65536) x.n
  let s1 := s.setSeqn q { x with sub := false, returned := true, endAt := some (s.count + s.codeTime n), begun := none }
  let s2 := if x.mirrored then s1
    else
      let s2 := s1.setOffset ch x.path d
      s2.setLocal ch x.path { s2.localQuant ch x.path with y := (s2.mu n u).yDue, due := (s2.mu n u).due }
  (s2.sendSwitch q opSpareIdle).muOff n 8

/-- A result of the path's unit marks the beginning of the next phase, where it is the first at or after the end of the
present one (R360). -/
def CalSeq.sees (x : CalSeq) (due : Count) : CalSeq :=
  match x.endAt, x.begun with
  | some e, none => if Count.upto e due then { x with begun := some due } else x
  | _, _ => x

/-- A result that falls due in an island with a running sequence: the beginning of the next phase, the pairs of MATCH and
RETURN, the frequencies of a point. Results of a mirrored sequence take the offsets of the active's substitution as 0. -/
def State.calResult (s0 : State) (n u : Nat) (f : BitVec 56) (due : Count) : State :=
  let q := n / 16
  if !(s0.seqRuns q) || s0.seqIsl q != n then s0
  else
    match s0.seqUnit q with
    | none => s0
    | some pu =>
      let s := if u = pu then s0.setSeqn q ((s0.seqn q).sees due) else s0
      let x := s.seqn q
      if s.seqPhase q = 4 then
        if u = pu && Count.upto x.pointFrom due && Count.before due x.pointEnd then s.setSeqn q { x with sum := x.sum + f.toNat, n := x.n + 1 } else s
      else if (s.seqPhase q = 2 ∨ (s.seqPhase q = 6 ∧ !x.returned)) ∧ (u = pu ∨ u = 8) ∧ s.paired n pu due ∧
          x.n < 2 ^ s.fld aCAL_CFG fCAL_CFG_MLOG then
        let main := (s.mu n pu).yDue.toInt
        let spare := (s.mu n 8).yDue.toInt
        if s.seqPhase q = 2 then
          let full := x.n + 1 == 2 ^ s.fld aCAL_CFG fCAL_CFG_MLOG
          s.setSeqn q { x with
            sum := x.sum + (main - spare), n := x.n + 1
            endAt := if full then some due else none, begun := if full then some due else none }
        else
          let offs := if x.mirrored then 0 else s.offset (s.seqChan q) x.path / 65536
          let s1 := s.setSeqn q { x with sum := x.sum + (spare + offs - main), n := x.n + 1 }
          if x.n + 1 = 2 ^ s.fld aCAL_CFG fCAL_CFG_MLOG then s1.giveBack q pu else s1
      else s

/-! ## The fit (R362) -/

/-- The sum over the points of `x^a t^b`, with x relative to F0. -/
def fitSum (f0 : Int) (pts : List (Int × Int)) (a b : Nat) : Int :=
  pts.foldl (fun w p => w + (p.1 - f0) ^ a * p.2 ^ b) 0

/-- A 3 × 3 determinant. -/
def det3 (a b c d e f g h i : Int) : Int := a * (e * i - f * h) - b * (d * i - f * g) + c * (d * h - e * g)

/-- The least-squares coefficients as numerators over one denominator: three for three points or more, two for two. -/
def fitSolve (f0 : Int) (pts : List (Int × Int)) : List Int × Int :=
  let s := fitSum f0 pts
  if pts.length ≤ 2 then
    ([s 0 1 * s 2 0 - s 1 0 * s 1 1, s 0 0 * s 1 1 - s 1 0 * s 0 1, 0], s 0 0 * s 2 0 - s 1 0 * s 1 0)
  else
    ([det3 (s 0 1) (s 1 0) (s 2 0) (s 1 1) (s 2 0) (s 3 0) (s 2 1) (s 3 0) (s 4 0),
      det3 (s 0 0) (s 0 1) (s 2 0) (s 1 0) (s 1 1) (s 3 0) (s 2 0) (s 2 1) (s 4 0),
      det3 (s 0 0) (s 1 0) (s 0 1) (s 1 0) (s 2 0) (s 1 1) (s 2 0) (s 3 0) (s 2 1)],
     det3 (s 0 0) (s 1 0) (s 2 0) (s 1 0) (s 2 0) (s 3 0) (s 2 0) (s 3 0) (s 4 0))

/-- A coefficient in its LSB, if it fits in 48 bits. -/
def fitCoef (num den : Int) (shift : Nat) (rsh : Nat) : Option (BitVec 48) :=
  if den ≤ 0 then none
  else
    let v := divRound (num * (2 ^ shift : Nat)) (den.toNat * rsh)
    if -(2 ^ 47 : Nat) ≤ v ∧ v < (2 ^ 47 : Nat) then some (BitVec.ofInt 48 v) else none

/-- The set that the points give, with targets over a denominator: F0 of the set in force, C0 to C2 fitted. -/
def fitCoefs (f0 : BitVec 56) (pts : List (Int × Int)) (rsh : Nat) : Option Coef :=
  let r := fitSolve f0.toNat pts
  match fitCoef (r.1.getD 0 0) r.2 16 rsh, fitCoef (r.1.getD 1 0) r.2 60 rsh, fitCoef (r.1.getD 2 0) r.2 112 rsh with
  | some a, some b, some c => some ⟨f0, a, b, c⟩
  | _, _, _ => none

/-- The largest residual of a set over points is at most a limit in ppm of a full scale (R362). -/
def fitGood (c : Coef) (pts : List (Int × Int)) (rsh ppm fs : Nat) : Bool :=
  pts.all (fun p =>
    decide ((c.scaled (BitVec.ofInt 56 p.1) * rsh - p.2 * (2 ^ 112 : Nat)).natAbs * 1000000 ≤ ppm * fs * 2 ^ 112 * rsh))

/-- The largest residual of a set over points, LSB 2⁻¹⁶ unit, unsaturated. -/
def fitResid (c : Coef) (pts : List (Int × Int)) (rsh : Nat) : Nat :=
  pts.foldl (fun w p =>
    let e := c.scaled (BitVec.ofInt 56 p.1) * rsh - p.2 * (2 ^ 112 : Nat)
    max w (divRound e (2 ^ 96 * rsh)).natAbs) 0

/-- The targets of the points over one denominator (R362): r in µV over 1, or r × 10⁹ over RSH. -/
def State.fitPoints (s : State) (q : Nat) : List (Int × Int) × Nat :=
  let x := s.seqn q
  if x.path % 2 = 0 then (x.points, 1)
  else (x.points.map (fun p => (p.1, p.2 * 1000000000)), max 1 (s.reg (aCALQ_RSH q)).toNat)

/-- A set whose coefficients are free values, where the points fix none that fits. -/
def State.freeCoef (s : State) (f0 : BitVec 56) : Coef × State :=
  let a := s.draw
  let b := a.2.draw
  let c := b.2.draw
  (⟨f0, BitVec.ofNat 48 a.1, BitVec.ofNat 48 b.1, BitVec.ofNat 48 c.1⟩, c.2)

/-- CAL_FIT_DONE (R362): the fit stands in CALQ_RES; DONE, or FAILED with cause 9, FITFAIL and FS 42. -/
def execCalFitDone (q : Fin 4) (s : State) : Result :=
  let k := q.val
  if s.seqPhase k ≠ 7 then .next s
  else
    let n := s.seqIsl k
    let x := s.seqn k
    let f0 := (s.mu n ((s.seqUnit k).getD 0)).base.f0
    let ps := s.fitPoints k
    let r := match fitCoefs f0 ps.1 ps.2 with
      | some c => (c, s)
      | none => s.freeCoef f0
    let c := r.1
    let resid := fitResid c ps.1 ps.2
    let s1 := (((r.2.setWide (aCALQ_F0 k) 2 c.f0.toNat).setWide (aCALQ_C0 k) 2 c.c0.toNat).setWide (aCALQ_C1 k) 2
      c.c1.toNat).setWide (aCALQ_C2 k) 2 c.c2.toNat
    let s2 := s1.setReg (aCALQ_RESID k) (BitVec.ofNat 32 (min 0xFFFFFFFF resid))
    let fs := if x.path % 2 = 0 then s.fld aCAL_FSV ⟨31, 0⟩ else s.fld aCAL_FSI ⟨31, 0⟩
    if fitGood c ps.1 ps.2 (s.fld aCAL_RESMAX fCAL_RESMAX_RESMAX) fs then .next (s2.setPhase k 8 0)
    else .next (((s2.setPhase k 9 9).latch aCAL_LAT fCAL_LAT_FITFAIL).raise 42 (Fin.ofNat 80 n))

/-! ## Commit and records (R363, R366) -/

/-- CAL_COMMIT (R363): refused unless the sequencer is in DONE; the fit is copied into the unit's target registers and
applied, and its entry waits to be stored. -/
def execCalCommit (by_ : Issuer) (q : Fin 4) (s : State) : Result :=
  let k := q.val
  if s.seqPhase k ≠ 8 then .next (s.rejectVal by_ aCAL_CMD)
  else
    let n := s.seqIsl k
    let c : Coef := {
      f0 := BitVec.ofNat 56 (s.wide (aCALQ_F0 k) 2)
      c0 := BitVec.ofNat 48 (s.wide (aCALQ_C0 k) 2)
      c1 := BitVec.ofNat 48 (s.wide (aCALQ_C1 k) 2)
      c2 := BitVec.ofNat 48 (s.wide (aCALQ_C2 k) 2) }
    let rsh : BitVec 32 := if (s.seqn k).path % 2 = 1 then s.reg (aCALQ_RSH k) else 0
    let forming := s.calRec.forming ++ [(s.seqKey k, { coef := c, rsh := rsh })]
    let s1 := { s.setFld aCAL_CMD fCAL_CMD_SEQR k with calRec := { s.calRec with forming := forming } }.askSig .cal
    match s.seqUnit k with
    | none => .next s1
    | some u =>
      .next ((s1.setTarget n u c).muApply n u c)

/-- CAL_RECORD_STORED (R363, R366): the oldest committed entry's record, once the security island has signed it, is stored and in force, its SEQ one above the
newest field record's, of which 255 are kept; or UNREC sets and FS 44 is raised. -/
def execCalRecordStored (good : Bool) (s : State) : Result :=
  match s.calRec.forming with
  | [] => .next s
  | (key, e) :: rest =>
    let c := { s.calRec with forming := rest, signed := s.calRec.signed - 1 }
    if s.calRec.signed = 0 then .next s
    else if good then
      let seq : BitVec 32 := match c.field with
        | [] => 1
        | r :: _ => r.seq + 1
      let entries := Tab.set (fun _ => none) c.force key (some e)
      let d := s.draw
      let dig := BitVec.ofNat 384 d.1
      let s1 := { d.2 with
        calRec := { c with
          force := entries, digest := dig, seq := seq
          field := (({ seq := seq, digest := dig, entries := entries } : FieldRec) :: c.field).take 255 } }
      let s2 := (s1.setReg aCAL_REC (putF (fldWord fCAL_REC_SRC 2) fCAL_REC_SEQ (seq.toNat % 65536))).causeOff 44 0
      .next (s2.log 0x07 (seq.toNat % 65536) ((digestBytes dig).take 32))
    else
      .next (({ s with calRec := c }.latch aCAL_REC fCAL_REC_UNREC).causeOn 44 0 |>.raise 44 islManagement)

/-! ## The reference (R355) -/

/-- A check of the reference is due (R355): the first after a start, then one every REFCHK s; with REFCHK 0 the first only. -/
def State.refDue (s : State) : Bool :=
  let per := s.fld aCAL_REFCFG fCAL_REFCFG_REFCHK
  match s.calRec.asked with
  | none => true
  | some a => per != 0 && Count.upto (a + BitVec.ofNat 72 (per * 192000000000)) s.count

/-- REF_CHECK (R355): where a check is due it is called for, and starts once no sequencer is in POINTS. -/
def execRefCheck (s : State) : Result :=
  if s.refDue && !s.calRec.waiting then
    .next { s with calRec := { s.calRec with waiting := true, asked := some s.count } }.refStart
  else .next s

/-- REF_CHECK_DONE (R355): 200 ms after its start a check ends: DEV, OPEN and SHORT; REFOK where |DEV| is within REFTOL and no
pair is open or shorted; without REFOK, REFBAD latches and FS 43 is raised. -/
def execRefCheckDone (dev : BitVec 24) (opened shorted : Bool) (s : State) : Result :=
  if !s.calRec.checking || Count.before s.count (s.calRec.checkFrom + cyc 300000000) then .next s
  else
    let ok := decide (dev.toInt.natAbs ≤ s.fld aCAL_REFCFG fCAL_REFCFG_REFTOL * 100) && !opened && !shorted
    let s1 := { s with calRec := { s.calRec with waiting := false, checking := false } }.setReg aCAL_REFSTAT
      (putF (putF (putF (fldWord fCAL_REFSTAT_REFOK ok.toNat) fCAL_REFSTAT_OPEN opened.toNat) fCAL_REFSTAT_SHORT
        shorted.toNat) fCAL_REFSTAT_DEV dev.toNat)
    if ok then .next (s1.causeOff 43 0)
    else .next (((s1.latch aCAL_LAT fCAL_LAT_REFBAD).causeOn 43 0).raise 43 islManagement)

end Sys2Proof.Machine
end

