-- ==== Sys2Proof/Machine/Microcode.lean ====
section
/-! DEFINITION. The control store and its microcode (chapter 8): the stores, microwords and nanowords, the slots, spaces,
next addresses and traps. -/
namespace Sys2Proof.Machine

/-! ## The stores (R190, R191, R208) -/

/-- COST and NEEDV, NEEDI of the standard laws (R165). -/
def stdCost (id : Nat) : Nat := [0, 28, 28, 26, 22, 26, 8].getD id 0
def stdNeedsV (id : Nat) : Bool := id == 1 || id == 2 || id == 3
def stdNeedsI (id : Nat) : Bool := decide (1 ≤ id) && decide (id ≤ 5)

/-- The ROM defaults of the law table (R190, R208): ids 1 to 6 VALID, the cost and quantities of R165, entries from the
ROM. -/
def romLawWord (k : Nat) : Word :=
  let id := k / 8
  if 1 ≤ id ∧ id ≤ 6 then
    if k % 8 = 0 then
      BitVec.ofNat 32 ((Config.romLaw k).toNat % 2 ^ 14 + 2 ^ 15 + (stdNeedsV id).toNat * 2 ^ 16
        + (stdNeedsI id).toNat * 2 ^ 17 + stdCost id * 2 ^ 24)
    else Config.romLaw k &&& 0x0000BFFF#32
  else 0

/-- A word of the law table. -/
def Ctl.lawWord (c : Ctl) (id w : Nat) : Word := Tab.get romLawWord c.law (id * 8 + w)

/-- A law-table entry is VALID, its cost, and the quantities it needs (R208). -/
def Ctl.lawValid (c : Ctl) (id : Nat) : Bool := (c.lawWord id 0).getLsbD 15
def Ctl.lawCost (c : Ctl) (id : Nat) : Nat := (c.lawWord id 0).toNat / 2 ^ 24
def Ctl.lawNeedsV (c : Ctl) (id : Nat) : Bool := (c.lawWord id 0).getLsbD 16
def Ctl.lawNeedsI (c : Ctl) (id : Nat) : Bool := (c.lawWord id 0).getLsbD 17

/-- A law is a standard one: its entry is the ROM default, and no ROM-map entry replaces a microword that it runs over
(R191). -/
def Ctl.isStandard (c : Ctl) (id : Nat) : Bool :=
  decide (1 ≤ id) && decide (id ≤ 6) && (List.range 8).all (fun w => c.lawWord id w == romLawWord (id * 8 + w))
    && !(c.romMap.any (fun e => Config.romUses id e.1))

/-- What an unwritten microword, nanoword or table word reads as: ROM, or the fill of R217. -/
def microReset (a : Nat) : BitVec 20 := if a < 0x3000 then Config.romMicro a else 0xFFFFF#20
def nanoReset (i : Nat) : BitVec 192 := if i < 0x600 then Config.romNano i else 0
def tableReset (i : Nat) : Word := if i < 0x800 then Config.romTable i else 0

/-- A microword fetched (R191): a ROM-map entry for its address gives the RAM word instead. -/
def Ctl.fetch (c : Ctl) (a : Nat) : BitVec 20 :=
  let a1 := match c.romMap.find? (fun e => e.1 == a) with
    | some e => e.2
    | none => a
  Tab.get microReset c.micro a1

/-! ## Values -/

/-- The bits `[lo + n - 1 : lo]` of a number. -/
def bitsOf (v lo n : Nat) : Nat := (v >>> lo) % 2 ^ n

/-- The signed width that W selects (R201); none for 11b. -/
def widthOf (w : Nat) : Option Nat := if w = 0 then some 64 else if w = 1 then some 48 else if w = 2 then some 32 else none

/-- A value saturated to a signed width, and whether it was. -/
def saturate (n : Nat) (v : Int) : Int × Bool :=
  let lo : Int := -(2 ^ (n - 1) : Nat)
  let hi : Int := (2 ^ (n - 1) : Nat) - 1
  (clampInt lo hi v, decide (clampInt lo hi v ≠ v))

/-- A right shift (R201): floor, or to nearest with ties away from zero. -/
def shiftRight (v : Int) (sh : Nat) (rnd : Bool) : Int :=
  if rnd then divRound v (2 ^ sh) else Int.fdiv v (2 ^ sh : Nat)

/-- The 64-bit two's complement of a value as a natural number. -/
def asNat64 (v : Int) : Nat := (v % (2 ^ 64 : Nat)).toNat

/-! ## What the running work sees -/

/-- The fixed facts of an update or a routine. -/
structure MicroCtx where
  ctl : Ctl
  id : Nat
  routine : Bool
  first : Bool := false
  dir : Bool := false
  gang : Bool := false
  staleV : Bool := false
  staleI : Bool := false

/-- The effect of one slot: register writes, a flag, SAT, and a memory write; or the cause of a trap. -/
structure SlotOut where
  regs : List (Nat × Int) := []
  flag : Option (Nat × Bool) := none
  sat : Bool := false
  write : Option (Nat × Nat × List Byte) := none
  trap : Option Nat := none

/-- The value of a register. -/
def Micro.reg (m : Micro) (i : Nat) : Int := m.w.getD i 0

/-- A register field under the substitution of R197. -/
def regField (sub : Option Nat) (v : Nat) : Nat := if v = 15 then sub.getD 15 else v

/-- A space of R205 as bytes, its size, and whether the running work may read and write it. -/
def Micro.space (m : Micro) (routine : Bool) (sp : Nat) : Option (List Byte × Nat × Bool × Bool) :=
  if sp = 0 then some (m.pb, 256, true, false)
  else if sp = 1 then (if routine then none else some (m.buf, 64, true, true))
  else if sp = 2 then some (m.inp, 64, true, false)
  else if sp = 3 then (if routine then none else some (m.out, 32, false, true))
  else if sp = 4 then (if routine then some (m.buf, 256, true, true) else none)
  else if sp = 5 then some (m.scr, 256, true, true)
  else none

/-- Slots M0 and M1 (R202). -/
def slotM (m : Micro) (sub : Option Nat) (v : Nat) : SlotOut :=
  let op := bitsOf v 40 4
  if op = 0 then {}
  else if 7 ≤ op then { trap := some 3 }
  else
    let d := regField sub (bitsOf v 36 4)
    let a := m.reg (regField sub (bitsOf v 32 4))
    let b := if bitsOf v 18 1 = 1 then signed 16 (bitsOf v 0 16) else m.reg (regField sub (bitsOf v 28 4))
    let p := shiftRight (a * b) (bitsOf v 22 6) (bitsOf v 21 1 == 1)
    match widthOf (bitsOf v 19 2) with
    | none => { trap := some 3 }
    | some n =>
      let r := if op = 1 then a else if op = 2 then a + b else if op = 3 then a - b else if op = 4 then p
        else if op = 5 then m.reg d + p else m.reg d - p
      { regs := [(d, (saturate n r).1)], sat := (saturate n r).2 }

/-- The number of redundant sign bits of a 64-bit value (R203). -/
def redundantSigns (v : Int) : Nat :=
  let u := if v < 0 then -v - 1 else v
  63 - (if u = 0 then 0 else Nat.log2 u.toNat + 1)

/-- Slot X (R203). -/
def slotX (m : Micro) (sub : Option Nat) (v : Nat) : SlotOut :=
  let op := bitsOf v 40 4
  if op = 0 then {}
  else if 11 ≤ op then { trap := some 3 }
  else
    let d := regField sub (bitsOf v 36 4)
    let a := m.reg (regField sub (bitsOf v 32 4))
    let b := if bitsOf v 18 1 = 1 then signed 16 (bitsOf v 0 16) else m.reg (regField sub (bitsOf v 28 4))
    let c := m.reg (regField sub (bitsOf v 24 4))
    let sh := bitsOf v 22 6
    let fl := bitsOf v 22 3
    match widthOf (bitsOf v 19 2) with
    | none => { trap := some 3 }
    | some n =>
      if op = 7 then
        let rel := bitsOf v 25 3
        if 6 ≤ rel then { trap := some 3 }
        else
          let r := if rel = 0 then decide (a = b) else if rel = 1 then decide (a ≠ b) else if rel = 2 then decide (a < b)
            else if rel = 3 then decide (a ≤ b) else if rel = 4 then decide (b < a) else decide (b ≤ a)
          { flag := some (fl, r) }
      else
        let r := if op = 1 then a * (2 ^ sh : Nat)
          else if op = 2 then shiftRight a sh (bitsOf v 21 1 == 1)
          else if op = 3 then a
          else if op = 4 then min a b
          else if op = 5 then max a b
          else if op = 6 then min (max a b) c
          else if op = 8 then (if m.flags.getD fl false then a else b)
          else if op = 9 then (redundantSigns a : Int)
          else (a.natAbs : Int)
        { regs := [(d, (saturate n r).1)], sat := (saturate n r).2 }

/-- Slot L (R204, R205). -/
def slotL (x : MicroCtx) (m : Micro) (sub : Option Nat) (v : Nat) : SlotOut :=
  let op := bitsOf v 40 4
  let d := regField sub (bitsOf v 36 4)
  let a := m.reg (regField sub (bitsOf v 32 4))
  let b := m.reg (regField sub (bitsOf v 28 4))
  let fn := bitsOf v 0 28
  if op = 0 then {}
  else if 6 ≤ op then { trap := some 3 }
  else if op = 1 then { regs := [(d, signed 28 fn)] }
  else if op = 2 then
    let r := saturate 64 (m.reg d * (2 ^ 28 : Nat) + fn)
    { regs := [(d, r.1)], sat := r.2 }
  else if op = 5 then
    let base := bitsOf fn 0 12
    let k := clampInt 0 ((4095 - base : Nat) : Int) (shiftRight a (bitsOf fn 22 6) false)
    { regs := [(d, (Tab.get tableReset x.ctl.table (base + k.toNat)).toInt)] }
  else
    let size := 2 ^ bitsOf fn 22 2
    let pair := bitsOf fn 19 1 == 1
    let off := bitsOf fn 0 12 + (if bitsOf fn 20 1 = 1 then asNat64 a % 4096 else 0)
    if op = 3 ∧ pair = true ∧ (d % 2 = 1 ∨ size ≠ 4) then { trap := some 3 }
    else
      match m.space x.routine (bitsOf fn 24 4) with
      | none => { trap := some 6 }
      | some (bs, len, rd, wr) =>
        let span := if op = 3 ∧ pair = true then 8 else size
        if off % size ≠ 0 ∨ len < off + span ∨ (op = 3 ∧ rd = false) ∨ (op = 4 ∧ wr = false) then { trap := some 6 }
        else if op = 4 then
          if bitsOf fn 24 4 = 4 ∧ m.final = true then { trap := some 7 }
          else { write := some (bitsOf fn 24 4, off, leBytes size (asNat64 b)) }
        else
          let item (o : Nat) : Int :=
            let u := fieldAt bs o size
            if size = 8 then signed 64 u else if bitsOf fn 21 1 = 1 then signed (8 * size) u else (u : Int)
          if pair then { regs := [(d, item off), (d + 1, item (off + 4))] } else { regs := [(d, item off)] }

/-- Register writes applied in order; a later one prevails (R200). -/
def Micro.setRegs (m : Micro) : List (Nat × Int) → Micro
  | [] => m
  | (i, v) :: t => Micro.setRegs { m with w := m.w.set i v } t

/-- A slot's effects applied. -/
def Micro.apply (m : Micro) (o : SlotOut) : Micro :=
  let m1 := m.setRegs o.regs
  let m2 := match o.flag with
    | some (i, b) => { m1 with flags := m1.flags.set i b }
    | none => m1
  let m3 := { m2 with sat := m2.sat || o.sat }
  match o.write with
  | some (sp, off, bs) =>
    if sp = 3 then { m3 with out := putBytes m3.out off bs }
    else if sp = 5 then { m3 with scr := putBytes m3.scr off bs }
    else { m3 with buf := putBytes m3.buf off bs }
  | none => m3

/-- A branch condition on the flags as they stand (R196); none for a reserved code. -/
def microCond (x : MicroCtx) (m : Micro) (code : Nat) : Option Bool :=
  if code = 0 then some true
  else if code ≤ 8 then some (m.flags.getD (code - 1) false)
  else if code ≤ 16 then some (!(m.flags.getD (code - 9) false))
  else if code = 17 then some m.sat
  else if code = 18 then some (!m.sat)
  else if code = 19 then some x.first
  else if code = 20 then some (!x.first)
  else if code = 21 then some x.dir
  else if code = 22 then some (!x.dir)
  else if code = 23 then some x.gang
  else if code = 24 then some x.routine
  else if code = 25 then some x.staleV
  else if code = 26 then some x.staleI
  else none

/-- Where a microword leads. -/
inductive MicroNext where
  | goto (pc : Nat) (stack : List Nat)
  | done
  | trap (cause : Nat)

/-- The next address (R195, R198, R208). -/
def microNext (x : MicroCtx) (m : Micro) (kind arg t : Nat) : MicroNext :=
  let seq := if 0x3FFF ≤ m.pc then MicroNext.trap 1 else .goto (m.pc + 1) m.stack
  if kind = 0 then seq
  else if kind = 1 then
    match microCond x m arg with
    | none => .trap 1
    | some true => .goto t m.stack
    | some false => seq
  else if kind = 2 then
    if 8 ≤ m.stack.length then .trap 4
    else if 0x3FFF ≤ m.pc then .trap 1
    else .goto t ((m.pc + 1) :: m.stack)
  else if kind = 3 then
    match m.stack with
    | [] => .done
    | a :: st => .goto a st
  else if kind = 4 then
    let e := x.ctl.lawWord x.id (arg % 8)
    if 8 ≤ arg ∨ e.getLsbD 15 = false then .trap 5 else .goto (e.toNat % 2 ^ 14) m.stack
  else .trap 1

/-- What one microcycle leads to. -/
inductive MicroOut where
  | go (m : Micro)
  | done (m : Micro)
  | trap (cause : Nat) (m : Micro)

/-- The lowest cause among those of one microword. -/
def leastTrap (cs : List (Option Nat)) : Option Nat :=
  cs.foldl (fun acc c => match acc, c with
    | some a, some b => some (min a b)
    | none, c => c
    | a, none => a) none

/-- COMMIT or FINAL at the end of a microcycle (R211): the buffer is committed; FINAL exchanges the generations. -/
def Micro.commit (m : Micro) (ctl : Nat) : Micro :=
  if ctl = 0 then m
  else if ctl = 2 then
    { m with committed := some m.buf, commits := m.commits + 1, final := true, pb := m.buf, buf := m.pb }
  else { m with committed := some m.buf, commits := m.commits + 1 }

/-- One microcycle (R194 to R209). `limit` is the number of microwords after which a fetch traps (R209), if any. -/
def microStep (x : MicroCtx) (limit : Option Nat) (m : Micro) : MicroOut :=
  let past := match limit with
    | some l => decide (l ≤ m.n)
    | none => false
  if past then .trap 8 m
  else
    let mw := (x.ctl.fetch m.pc).toNat
    let nidx := bitsOf mw 8 12
    let kind := bitsOf mw 5 3
    let arg := bitsOf mw 0 5
    if 0x7FF < nidx then .trap 2 m
    else
      let nw := (Tab.get nanoReset x.ctl.nano nidx).toNat
      let ctl := bitsOf nw 176 2
      let sub := if (kind = 0 ∨ kind = 2 ∨ kind = 3) ∧ 16 ≤ arg then some (arg % 16) else none
      let o0 := slotM m sub (bitsOf nw 0 44)
      let o1 := slotM m sub (bitsOf nw 44 44)
      let o2 := slotX m sub (bitsOf nw 88 44)
      let o3 := slotL x m sub (bitsOf nw 132 44)
      let nxt := microNext x m kind arg (bitsOf nw 178 14)
      let tn := match nxt with
        | .trap c => some c
        | _ => none
      let tc := if ctl = 3 then some 3 else if ctl ≠ 0 ∧ (x.routine = false ∨ m.final = true) then some 7 else none
      match leastTrap [tn, tc, o0.trap, o1.trap, o2.trap, o3.trap] with
      | some c => .trap c m
      | none =>
        let m1 := ((((m.apply o0).apply o1).apply o2).apply o3).commit ctl
        let m2 := { m1 with n := m.n + 1 }
        match nxt with
        | .goto pc st => .go { m2 with pc := pc, stack := st }
        | _ => .done m2

/-- Microcode run for a number of microcycles; an uncorrectable error at a fetch is a trap of cause 9 (R193). -/
def microRun (x : MicroCtx) (limit : Option Nat) (upset : Option Nat) : Nat → Micro → MicroOut
  | 0, m => .go m
  | k + 1, m =>
    if upset = some m.n then .trap 9 m
    else
      match microStep x limit m with
      | .go m1 => microRun x limit upset k m1
      | r => r

/-- Microcode at the start of an update or a routine (R209). -/
def Micro.start (entry : Nat) (pb inp buf : List Byte) : Micro :=
  { pc := entry, w := List.replicate 16 0, flags := List.replicate 8 false, scr := List.replicate 256 0#8, pb := pb,
    inp := inp, out := List.replicate 32 0#8, buf := buf }

/-! ## Images (R215, R216) -/

/-- A byte of an engine's image of its control store at an offset below the parameter blocks. -/
def Ctl.imageByte (c : Ctl) (o : Nat) : Byte :=
  if o < 0x10000 then BitVec.ofNat 8 ((Tab.get microReset c.micro (o / 4)).toNat / 256 ^ (o % 4))
  else if o < 0x20000 then
    BitVec.ofNat 8 ((Tab.get nanoReset c.nano ((o - 0x10000) / 32)).toNat / 256 ^ ((o - 0x10000) % 32))
  else if o < 0x22000 then
    BitVec.ofNat 8 ((Tab.get romLawWord c.law ((o - 0x20000) / 4)).toNat / 256 ^ (o % 4))
  else if o < 0x26000 then
    BitVec.ofNat 8 ((Tab.get tableReset c.table ((o - 0x22000) / 4)).toNat / 256 ^ (o % 4))
  else 0

/-- LPE_CS_DIG (R216), once the control store is locked. -/
def State.csDig (s : State) : BitVec 384 :=
  if s.bit aLPE_CS_STAT fLPE_CS_STAT_LOCKED then
    Config.sha384 ((List.range 0x26000).map s.ctl.imageByte)
  else 0

end Sys2Proof.Machine
end

