-- ==== Sys2Proof/Machine/Loop.lean ====
section
/-! DEFINITION. Loop engines (chapters 7 and 8): inputs, the standard laws, updates and deliveries, law selection, traps,
parameter blocks and background routines. -/
namespace Sys2Proof.Machine

/-! ## Engines, blocks and laws -/

/-- The state of an engine. -/
def State.eng (s : State) (e : Nat) : LoopEng := Tab.get (fun _ => {}) s.engs e

/-- The state with an engine set. -/
def State.setEng (s : State) (e : Nat) (x : LoopEng) : State := { s with engs := Tab.set (fun _ => {}) s.engs e x }

/-- An engine is TRAPPED (R214). -/
def State.trapped (s : State) (e : Nat) : Bool := s.bit (aENG_RESTART e) fENG_RESTART_TRAPPED

/-- The active generation of a block of an engine (R175). -/
def State.generation (s : State) (e k : Nat) : Nat := ((s.reg (aLPE_GEN e)).getLsbD k).toNat

/-- The address in the plain of a generation of a block (R175); none without a structure. -/
def State.blockAddr (s : State) (e g k : Nat) : Option Nat :=
  (s.plainBase .control).map (fun b => b + e * 0x80000 + 0x60000 + g * 0x2000 + k * 0x100)

/-- The 256 bytes of a generation of a block. -/
def State.blockBytes (s : State) (e g k : Nat) : List Byte :=
  match s.blockAddr e g k with
  | some a => Memory.readBytes s.sram a 256
  | none => List.replicate 256 0#8

/-- A block flipped (R176). -/
def State.flipBlock (s : State) (e k : Nat) : State := s.setFld (aLPE_GEN e) ⟨k, k⟩ (1 - s.generation e k)

/-- The island of an engine. -/
abbrev engIsl (e : Nat) : Fin 80 := Fin.ofNat 80 (64 + e)

/-- The integrators and the latest command of a channel's state area (R179, R205). -/
def LoopChan.xv (x : LoopChan) : Int := signed 64 (fieldAt x.area 0 8)
def LoopChan.xi (x : LoopChan) : Int := signed 64 (fieldAt x.area 8 8)
def LoopChan.ic (x : LoopChan) : Int := signed 32 (fieldAt x.area 16 4)

/-- A state area with the integrators and the latest command set. -/
def putLawState (area : List Byte) (xv xi ic : Int) : List Byte :=
  putBytes area 0 (leInt 8 xv ++ leInt 8 xi ++ leInt 4 ic)

/-- The law and the block in force for a channel. -/
def State.lawOf (s : State) (ch : Nat) : Nat := s.fld (aLCH_LAW ch) fLCH_LAW_LAW
def State.blkOf (s : State) (ch : Nat) : Nat := s.fld (aLCH_LAW ch) fLCH_LAW_BLOCK

/-- A law and a block selected for a channel (R162, R179): refused with SELREJ and FS 48 outside the permitted set. A
change of law clears xi and ic where the new block says so or the law is REST, and makes the next update the first. -/
def State.selectLaw (s : State) (ch law blk : Nat) : State :=
  let x := s.lch ch
  if !x.bound then s
  else if !(x.permit.contains law) || decide (31 < blk) then
    (s.latch aLPE_LAT fLPE_LAT_SELREJ).raise 48 (engIsl x.eng)
  else
    let s1 := s.setReg (aLCH_LAW ch) (putF (putF (s.reg (aLCH_LAW ch)) fLCH_LAW_LAW law) fLCH_LAW_BLOCK blk)
    if law = s.lawOf ch then s1
    else
      let clear := law == 6 || (byteAt (s.blockBytes x.eng (s.generation x.eng blk) blk) 1).testBit 1
      s1.setLch ch { x with
        first := true, newLaw := true
        area := if clear then putLawState x.area x.xv 0 0 else x.area }

/-! ## Inputs (R168 to R171) -/

/-- A channel's quantity is in force (R171): its unit is enabled, without sense loss, and has given a result since. With
SHIPPED inputs the results and the sense loss are the active's, as shipped. -/
def State.quantIn (s : State) (ch q : Nat) : Bool :=
  let n := islOf ch
  match s.inService ch q with
  | none => false
  | some u =>
    if s.bit aLPE_SRC fLPE_SRC_SRC then
      s.bit (aMU_CTL n u) fMU_CTL_EN && (s.quant ch q).valid
        && decide ((s.quant ch q).staleRun < s.fld (aMU_CFG n u) fMU_CFG_LOSS_N)
    else s.bit (aMU_CTL n u) fMU_CTL_EN && (s.mu n u).valid && !(s.bit (aMU_STAT n u) fMU_STAT_SENSE_LOSS)

/-- An input of a channel's update is in force; a gang's current while every member's is (R171). -/
def State.inputIn (s : State) (ch q : Nat) : Bool :=
  if q = 1 then (s.members ch).all (fun k => s.quantIn k 1) else s.quantIn ch q

/-! ## The standard laws (R174, R177 to R180, R535) -/

/-- A signed and an unsigned 32-bit field of a parameter block (R177). -/
def pbS (b : List Byte) (o : Nat) : Int := signed 32 (fieldAt b o 4)
def pbU (b : List Byte) (o : Nat) : Int := (fieldAt b o 4 : Int)

/-- A quotient of integers rounded to nearest, ties away from zero. -/
def divRoundInt (a b : Int) : Int := if b < 0 then divRound (-a) b.natAbs else divRound a b.natAbs

/-- The current command of a law before the voltage limits (R180, R535). CR's quotient is taken positive, and FLAGS[0] gives
its sign; the sign of a set-point of 0 under CP at V = 0 is 0 (DEDUCED, log entry 21). -/
def lawCommand (id : Nat) (b : List Byte) (sp v ic : Int) : Int :=
  let imax := pbU b 0x30
  let limit (x : Int) : Int := clampInt (-imax) imax (sat32 x)
  let neg := (byteAt b 1).testBit 0
  if id = 1 then sp
  else if id = 2 then
    if v = 0 then sat32 (if sp < 0 then -imax else if sp = 0 then 0 else imax) else limit (divRoundInt (sp * 1000000000) v)
  else if id = 3 then
    let m : Int := if sp = 0 then imax else min imax (sat32 (divRoundInt (v * 1000000) sp)).natAbs
    sat32 (if neg then -m else m)
  else if id = 4 then limit (ic + clampInt (-(pbU b 0x34)) (pbU b 0x34) (sp - ic))
  else limit (divRound (sp * pbS b 0x38) (2 ^ 16))

/-- The voltage limits of CCCV on a command: the command, xv, and whether the law is in voltage mode (R180). -/
def voltageLimit (b : List Byte) (cmd v xv : Int) : Int × Int × Bool :=
  let sat48 (x : Int) : Int := (clampInt (-(2 ^ 47 : Nat)) ((2 ^ 47 : Nat) - 1) x)
  let ev := (if cmd < 0 then pbS b 0x24 else pbS b 0x20) - v
  let iv := sat32 (divRound (pbS b 0x28 * ev) (2 ^ 16) + xv)
  if (0 ≤ cmd ∧ cmd ≤ iv) ∨ (cmd < 0 ∧ iv ≤ cmd) then (sat32 cmd, sat48 cmd, false)
  else (iv, sat48 (xv + divRound (pbS b 0x2C * ev) (2 ^ 16)), true)

/-- What a standard law computes: H before R173, xv, xi, ic and the voltage mode. -/
structure LawOut where
  h : Int
  xv : Int
  xi : Int
  ic : Int
  cv : Bool
deriving DecidableEq, Repr

/-- A standard law other than REST, on its inputs and its state (R174, R180, R535). -/
def stdLaw (id : Nat) (b : List Byte) (sp v i period rvb dtc xv0 xi0 ic0 : Int) (newLaw : Bool) : LawOut :=
  let cmd := lawCommand id b sp v ic0
  let xv1 := if newLaw then cmd else xv0
  let r := if id ≤ 3 then voltageLimit b cmd v xv1 else (cmd, xv1, false)
  let ei := sat32 (r.1 - i)
  let xi := clampInt (pbS b 0x14 * (2 ^ 16 : Nat)) (pbS b 0x18 * (2 ^ 16 : Nat)) (xi0 + pbS b 0x10 * ei)
  let u := pbS b 0x0C * ei + xi
  let dis := if id = 1 then decide (sp < 0) else (byteAt b 1).testBit 0
  let ff0 := divRound (period * v * rvb) (2 ^ 48)
  let ff := if dis then period - ff0 else ff0
  { h := sat32 (ff + dtc + divRound u (2 ^ 16)), xv := r.2.1, xi := xi, ic := r.1, cv := r.2.2 }

/-- H bounded, and the edge set formed from it (R173). -/
def boundH (b : List Byte) (h period : Int) : Int :=
  min (max h (pbU b 4)) (min (pbU b 8) (period - 128))

/-- The edge words of a bounded H (R88, R173): none below 128. -/
def edgeSet (h period : Int) : List Word :=
  if h < 128 then []
  else
    let a := Int.fdiv (period - h) 2
    [BitVec.ofInt 32 (2 * (2 ^ 30 : Nat) + a), BitVec.ofInt 32 ((2 ^ 30 : Nat) + a + h)]

/-! ## Delivery (R16, R17, R172) -/

/-- A delivery for a period start that leaves the engine at an instant: held by the pin island until due, or too late, in
which case R17 is judged at the period start. -/
def State.deliverAt (s : State) (e ch : Nat) (leaves due : Count) (goff : Bool) (set : List Word) : State :=
  let lat := Config.fordLatency s.free % 65
  let s1 := { s with free := s.free + 1 }
  if Count.upto (leaves + cyc lat) (Count.cycleStart due) then
    (s1.fordSeen (islOf ch) lat (((Count.cycleStart due - leaves).toNat / 128) - lat)).hold (.island (engIsl e)) due
      (.edges (chanFin ch) goff set)
  else s1

/-- ENG_BGPC shows the context that is saved (R182, R188). -/
def State.showSaved (s : State) (e : Nat) (m : Micro) : State :=
  s.setReg (aENG_BGPC e) (putF (putF (fldWord fENG_BGPC_CUT 1) fENG_BGPC_DEPTH m.stack.length) fENG_BGPC_PC m.pc)

/-- A routine in progress cut by an update (R182): counted, its context saved; one that is cut already stays so. -/
def State.bgCut (s : State) (e : Nat) : State :=
  match (s.eng e).running with
  | some r =>
    if r.cut then s
    else ((s.setEng e { s.eng e with running := some { r with cut := true } }).bump (aENG_CUTS e)).showSaved e r.m
  | none => s

/-- An update's work on the engine (R164): its start delay, its cycles, ENG_MAXD; a routine is cut. The instant at which it
ends. -/
def State.occupy (s : State) (e cost : Nat) : State × Count :=
  let x := s.eng e
  let st := match x.busyUntil with
    | some b => if Count.before s.count b then b else s.count
    | none => s.count
  let stop := st + cyc cost
  let kept := x.recent.filter (fun r => Count.before (s.count - cyc 1048576) r.1)
  (((s.setEng e { x with busyUntil := some stop, recent := (s.count, cost) :: kept }).maxReg (aENG_MAXD e)
    ((st - s.count).toNat / 128)).bgCut e, stop)

/-- A delivery with its status: GOFF and H (R188), and its digest item (R386). -/
def State.finish (s : State) (e ch : Nat) (leaves due : Count) (goff : Bool) (set : List Word) (h : Option Nat) : State :=
  let s1 := s.setBit (aLCH_STAT ch) fLCH_STAT_GOFF goff
  let s2 := match h with
    | some v => s1.setReg (aLCH_H ch) (fldWord fLCH_H_H v)
    | none => s1
  (s2.tickItem (.edges ch due goff set (s.inputNow ch 0).1 (s.inputNow ch 1).1)).deliverAt e ch leaves due goff set

/-! ## Background routines (R181 to R185) -/

/-- ENG_STAT's view of an engine's background work. -/
def State.showBg (s : State) (e : Nat) : State :=
  let x := s.eng e
  (s.setFld (aENG_STAT e) fENG_STAT_BGQ (min 8 x.queue.length)).setBit (aENG_STAT e) fENG_STAT_BG x.running.isSome

/-- What a routine has committed shows (R183, R211): the inactive generation and the count, and after FINAL the flip and the
end of the claim. -/
def State.bgShow (s : State) (e : Nat) : State :=
  match (s.eng e).commit with
  | none => s
  | some (k, bs, n, final) =>
    let g := s.generation e k
    let s1 := match s.blockAddr e (1 - g) k with
      | some a => { s with sram := Memory.writeBytes s.sram a bs }
      | none => s
    let s2 := (s1.setFld (aENG_BGSTAT e) fENG_BGSTAT_COMMITS (min 0xFFFF n)).setEng e { s1.eng e with commit := none }
    if final then (s2.flipBlock e k).setFld (aLPE_CLAIM e) ⟨k, k⟩ 0 else s2

/-- The running routine of an engine aborted and its queue emptied (R185), its commits kept; `latch` says whether BGABORT
sets. -/
def State.bgAbortAll (s : State) (e : Nat) (latch : Bool) : State :=
  let s0 := s.bgShow e
  let x := s0.eng e
  let s1 := (s0.setEng e { x with queue := [], running := none }).setReg (aLPE_CLAIM e) 0
  let s2 := (if latch && x.running.isSome then s1.latch aLPE_LAT fLPE_LAT_BGABORT else s1).setFld (aENG_BGPC e)
    fENG_BGPC_CUT 0
  s2.showBg e

/-! ## Traps (R213, R214) -/

/-- The stream slot of a channel on its engine: the streams bound there with lower channel numbers. -/
def State.streamSlot (s : State) (ch : Nat) : Nat :=
  ((List.range ch).filter (fun c => (s.lch c).bound && (s.lch c).eng == (s.lch ch).eng)).length

/-- A trap of an engine: the latch, ENG_TRAP, FS 51, TRAPPED, an empty request queue, and E_TRAP to the channels of the
engine. -/
def State.trap (s : State) (e id : Nat) (bg : Bool) (slot upc cause : Nat) : State :=
  let w := putF (putF (putF (putF (fldWord fENG_TRAP_ID id) fENG_TRAP_BG bg.toNat) fENG_TRAP_STREAM slot)
    fENG_TRAP_UPC upc) fENG_TRAP_CAUSE cause
  let s1 := (((s.latch aLPE_LAT fLPE_LAT_TRAP).setReg (aENG_TRAP e) w).latch (aENG_RESTART e) fENG_RESTART_TRAPPED)
  let s2 := ((s1.setEng e { s1.eng e with queue := [] }).showBg e).causeOn 51 e |>.raise 51 (engIsl e)
  (List.range 256).foldl (fun s c =>
    if (s.lch c).bound && (s.lch c).eng == e then (s.loopStops c).post (engIsl e) (chanFin c) eTrap else s) s2

/-- A corrected control-store error (R193). -/
def State.corrected (s : State) (e : Nat) : State := (s.bump aLPE_CS_ECC).raise 53 (engIsl e)

/-- A queued routine starts (R184, R209): it claims its block's inactive generation. -/
def State.bgStart (s : State) (e id k : Nat) : State :=
  let g := s.generation e k
  let inp := List.replicate 28 0#8 ++ leBytes 1 id ++ leBytes 1 k ++ List.replicate 34 0#8
  let m := Micro.start ((s.ctl.lawWord id 0).toNat % 2 ^ 14) (s.blockBytes e g k) inp (s.blockBytes e (1 - g) k)
  (((s.setEng e { s.eng e with running := some ⟨id, k, m, Count.cycleStart s.count, false⟩ }).setFld (aLPE_CLAIM e) ⟨k, k⟩
    1).setReg (aENG_BGSTAT e) (putF (fldWord fENG_BGSTAT_BLOCK k) fENG_BGSTAT_ID id)).showBg e

/-- A queued request taken where no routine runs and no update executes (R181, R182). -/
def State.bgTake (s : State) (e : Nat) : State :=
  let x := s.eng e
  match x.running, x.queue with
  | none, (id, k) :: q =>
    if x.busyUntil.any (fun b => Count.before s.count b) then s else (s.setEng e { x with queue := q }).bgStart e id k
  | _, _ => s

/-- The cycles up to an instant in which a routine can run (R182): from where it stands, or, where it is cut, from 4 cycles
after the last update then waiting. The first of them, and their number. -/
def LoopEng.bgSpan (x : LoopEng) (r : Routine) (stop : Count) : Count × Nat :=
  let from_ := match x.busyUntil with
    | some b => if r.cut && Count.before r.ranTo (b + cyc 4) then b + cyc 4 else r.ranTo
    | none => r.ranTo
  (from_, if Count.before from_ stop then (stop - from_).toNat / 128 else 0)

/-- A commit of a stretch of microcode waits to show in the next cycle. -/
def State.bgNote (s : State) (e k : Nat) (before m : Micro) : State :=
  if m.commits = before.commits then s
  else s.setEng e { s.eng e with commit := m.committed.map (fun bs => (k, bs, m.commits, m.final)) }

/-- The routine of an engine executed up to an instant, for at most `cycles` cycles (R182 to R185, R211 to R213): it goes on,
ends, or traps. -/
def State.bgUpTo (s : State) (e : Nat) (stop : Count) (cycles : Nat) (upset : Option (Nat × Bool)) : State :=
  match (s.eng e).running with
  | none => s
  | some r =>
    let span := (s.eng e).bgSpan r stop
    let n := min cycles span.2
    if n = 0 then s
    else
      let cost := s.ctl.lawCost r.id
      let ctx : MicroCtx := { ctl := s.ctl, id := r.id, routine := true, dir := (byteAt r.m.pb 1).testBit 0 }
      let s1 := match upset with
        | some (k, false) => if k < n then s.corrected e else s
        | _ => s
      let fatal := match upset with
        | some (k, true) => some (r.m.n + k)
        | _ => none
      let limit := if cost = 0 then none else some cost
      match microRun ctx limit fatal n r.m with
      | .done m =>
        let s2 := s1.bgNote e r.blk r.m m
        let s3 := s2.setEng e { s2.eng e with running := none }
        let s4 := if (s3.eng e).commit.any (fun c => c.2.2.2) then s3 else s3.setFld (aLPE_CLAIM e) ⟨r.blk, r.blk⟩ 0
        (s4.setReg (aENG_BGPC e) 0).showBg e
      | .trap c m => ((s1.bgNote e r.blk r.m m).bgAbortAll e true).trap e r.id true 0 m.pc c
      | .go m =>
        let s2 := s1.bgNote e r.blk r.m m
        (s2.setEng e { s2.eng e with
          running := some { r with m := m, ranTo := span.1 + cyc n, cut := false } }).setFld (aENG_BGPC e) fENG_BGPC_CUT 0

/-- Background work may run on an engine: it is not TRAPPED, LPE is enabled and the islands compute. -/
def State.bgOn (s : State) (e : Nat) : Bool := !(s.trapped e) && s.blkOn 6 && !s.twinIdle

/-- The background work of an engine in the cycles before the present one, with its commits shown. -/
def State.bgCatch (s : State) (e : Nat) : State :=
  if s.bgOn e then ((s.bgShow e).bgUpTo e (Count.cycleStart s.count) (2 ^ 20) none).bgShow e else s

/-- The background work of an engine up to the end of the present cycle, with its commits shown in the next one (R183). -/
def State.bgTick (s : State) (e : Nat) : State :=
  if s.bgOn e && (s.eng e != ({} : LoopEng)) then
    ((s.bgTake e).bgUpTo e (Count.cycleStart s.count + cyc 1) (2 ^ 20) none).bgShow e
  else s

/-! ## Updates (R163 to R172, R178, R206 to R214) -/

/-- The IN space of an update (R206). -/
def State.inSpace (s : State) (ch per index : Nat) : List Byte :=
  let v := s.inputNow ch 0
  let i := s.inputNow ch 1
  leBytes 4 (s.reg (aPL_SP ch)).toNat ++ leBytes 4 v.1.toNat ++ leBytes 4 i.1.toNat ++ leBytes 1 v.2.toNat
    ++ leBytes 1 i.2.toNat ++ leBytes 2 0 ++ leBytes 4 per ++ leBytes 4 (s.reg (aLCH_RVB ch)).toNat
    ++ leBytes 4 (s.reg (aLCH_DTC ch)).toNat ++ leBytes 1 (s.lawOf ch) ++ leBytes 1 (s.blkOf ch) ++ leBytes 1 ch
    ++ leBytes 1 (s.gangSize ch - 1) ++ leBytes 4 index ++ List.replicate 28 0#8

/-- A law run on microcode (R209, R210): its state area, GOFF, edge set and H; a trap holds the area. -/
def State.runMicro (s : State) (ch law : Nat) (pb : List Byte) (per index : Nat) (upset : Option Nat) : MicroOut :=
  let x := s.lch ch
  let area := if x.newLaw then putLawState x.area (s.reg (aPL_SP ch)).toInt x.xi x.ic else x.area
  let cost := s.ctl.lawCost law
  let ctx : MicroCtx := {
    ctl := s.ctl, id := law, routine := false, first := x.first, dir := (byteAt pb 1).testBit 0
    gang := decide (1 < s.gangSize ch), staleV := (s.inputNow ch 0).2.getLsbD 1, staleI := (s.inputNow ch 1).2.getLsbD 1 }
  microRun ctx (some (cost - 1)) upset 256
    (Micro.start ((s.ctl.lawWord law 0).toNat % 2 ^ 14) pb (s.inSpace ch per index) area)

/-- An update that does not run its law (R171, R178): GOFF, 8 microcycles, state held. -/
def State.noLaw (s : State) (e ch : Nat) (due : Count) : State :=
  let r := s.occupy e 8
  r.1.finish e ch (r.2 + cyc 1) due true [] (some 0)

/-- An update that runs a standard law. -/
def State.runStandard (s : State) (e ch law : Nat) (pb : List Byte) (due : Count) (period : Nat) : State :=
  let x := s.lch ch
  let r := s.occupy e (s.ctl.lawCost law)
  if law = 6 then
    ((r.1.setLch ch { x with first := false, newLaw := false, area := putLawState x.area x.xv 0 0 }).finish e ch
      (r.2 + cyc 1) due true [] (some 0))
  else
    let per : Int := (period : Int)
    let o := stdLaw law pb (s.reg (aPL_SP ch)).toInt (s.inputNow ch 0).1.toInt (s.inputNow ch 1).1.toInt per
      ((s.reg (aLCH_RVB ch)).toNat : Int) (s.reg (aLCH_DTC ch)).toInt x.xv x.xi x.ic x.newLaw
    let h := boundH pb o.h per
    let s1 := (r.1.setLch ch { x with first := false, newLaw := false, area := putLawState x.area o.xv o.xi o.ic }).setBit
      (aLCH_STAT ch) fLCH_STAT_CV o.cv
    s1.finish e ch (r.2 + cyc 1) due false (edgeSet h per) (some h.toNat)

/-- An update that runs microcode (R207, R209, R213). -/
def State.runCustom (s : State) (e ch law : Nat) (pb : List Byte) (due : Count) (per index : Nat)
    (upset : Option Nat) : State :=
  let x := s.lch ch
  match s.runMicro ch law pb per index upset with
  | .done m =>
    let r := s.occupy e (m.n + 1)
    let goff := (byteAt m.out 4).testBit 0
    let raw := (byteAt m.out 4).testBit 1
    let h := boundH pb (signed 32 (fieldAt m.out 0 4)) (per : Int)
    let set := if goff then []
      else if raw then (List.range 4).map (fun k => BitVec.ofNat 32 (fieldAt m.out (8 + 4 * k) 4))
      else edgeSet h (per : Int)
    (r.1.setLch ch { x with first := false, newLaw := false, area := m.buf }).finish e ch (r.2 + cyc 1) due goff set
      (if goff then some 0 else if raw then none else some h.toNat)
  | .trap c m =>
    let r := s.occupy e (m.n + 1)
    let s1 := r.1.trap e law false (s.streamSlot ch) m.pc c
    (s1.excursion (engIsl e) 6 c ch due (s1.reg (aENG_TRAP e)) 0).finish e ch (r.2 + cyc 1) due true [] (some 0)
  | .go m =>
    let r := s.occupy e (m.n + 1)
    r.1.finish e ch (r.2 + cyc 1) due true [] (some 0)

/-- A standard law that meets an uncorrectable error: the trap of cause 9; where in the ROM it stands is not stated. -/
def State.trapStandard (s : State) (e ch law : Nat) (due : Count) : State :=
  let upc := s.draw
  let r := upc.2.occupy e (s.ctl.lawCost law)
  let s1 := r.1.trap e law false (s.streamSlot ch) (upc.1 % 0x3000) 9
  (s1.excursion (engIsl e) 6 9 ch due (s1.reg (aENG_TRAP e)) 0).finish e ch (r.2 + cyc 1) due true [] (some 0)

/-- The law of a channel lacks a quantity that it needs (R171). -/
def State.lawLacks (s : State) (ch law : Nat) : Bool :=
  (s.ctl.lawNeedsV law && !(s.inputIn ch 0)) || (s.ctl.lawNeedsI law && !(s.inputIn ch 1))

/-- FS 50's cause of a channel ends once it has its quantities in force (R187). -/
def State.settle50 (s : State) (ch : Nat) : State :=
  if s.causeAt 50 ch && !(s.lawLacks ch (s.lawOf ch)) then s.causeOff 50 ch else s

/-- A stream that no longer reads its block, as it is not enabled: FS 49's cause ends (R187). -/
def State.unmatch (s : State) (ch : Nat) : State :=
  if s.causeAt 49 ch then (s.setLch ch { s.lch ch with mismatchRun := false }).causeOff 49 ch else s

/-- A channel's loop runs from this instant (R172, R188). -/
def State.loopStarts (s : State) (ch : Nat) : State :=
  s.setLch ch { s.lch ch with since := some s.at, first := true }

/-- What an update that lacks its quantities, or has a block of another law, shows, and the causes of FS 50 and FS 49 (R171,
R178, R187, R451). -/
def State.judgeUpdate (s : State) (e ch : Nat) (lacks mismatch : Bool) : State :=
  let x := s.lch ch
  let s1 := (s.setLch ch { x with mismatchRun := mismatch }).setBit (aLCH_STAT ch) fLCH_STAT_NOMEAS lacks
  let s2 := if lacks then (s1.latch aLPE_LAT fLPE_LAT_NOMEAS).bump (aLCH_NOM ch) else s1.causeOff 50 ch
  let s3 := if lacks && s.drvEn ch && !(s.causeAt 50 ch) then (s2.causeOn 50 ch).raise 50 (engIsl e) else s2
  if mismatch then
    let s4 := s3.latch aLPE_LAT fLPE_LAT_MISMATCH
    if x.mismatchRun then s4 else (s4.causeOn 49 ch).raise 49 (engIsl e)
  else s3.causeOff 49 ch

/-- The CH_PERIOD write that will have taken effect for a channel by an instant (R92): accepted and waiting, or held until its
due time. Its anchor A and its PERIOD. -/
def State.coming (s : State) (ch : Nat) (by_ : Count) : Option (Count × Nat) :=
  let l := s.leader ch
  let a := aCH_PERIOD (islOf l) (locOf l)
  match (s.chan ch).newPeriod with
  | some (d, p) => some (s.periodFrom ch d, p.toNat)
  | none => s.agenda.findSome? (fun (d : Due) => match d.act with
    | .cmd (.regWrite _ addr data) =>
      let p := data.toNat % 2 ^ 28
      if addr.toNat = a ∧ Count.upto d.due by_ ∧ 48000 ≤ p ∧ s.minPeriod ch ≤ p then some (s.periodFrom ch d.due, p) else none
    | _ => none)

/-- The first period start of a channel at or after an instant, its PERIOD and its index from the grid origin (R91), or from
the anchor of a change of period that comes first (R92, R163). -/
def State.ahead (s : State) (ch : Nat) (t : Count) : Count × Nat × Nat :=
  let st := s.periodFrom ch t
  let per := s.period ch
  let old : Count × Nat × Nat := (st, per, if per = 0 then 0 else (st.toNat - s.gridPhase ch) / per)
  match s.coming ch st with
  | none => old
  | some (a, p) =>
    if Count.before st a then old
    else
      let x := Count.gridFrom t a.toNat p
      let y := if Count.before x a then a else x
      (y, p, if p = 0 then 0 else (y - a).toNat / p)

/-- The period that a channel's update would serve whose update point lies in the present cycle (R15, R163, R172): its start,
its PERIOD and its index; none where no update is due, or it has run. -/
def State.updateDue (s : State) (c : Nat) : Option (Count × Nat × Nat) :=
  let x := s.lch c
  let now := Count.cycleStart s.count
  let lead := cyc (s.fld (aENG_STAT x.eng) fENG_STAT_LEAD)
  let a := s.ahead c (now + lead)
  let point := a.1 - lead
  let div := s.fld (aLCH_CFG c) fLCH_CFG_UPD_DIV
  if x.bound && s.bit (aLCH_CTL c) fLCH_CTL_EN && s.blkOn 6 && !s.twinIdle && Count.before point (now + cyc 1)
      && x.since.any (fun d => Count.upto d point) && a.2.1 != 0 && div != 0 && a.2.2 % div == 0 && x.last != some a.1 then
    some a
  else none

/-- The update of a channel's stream that is due in the present cycle (R163 to R172, R178, R213, R214). -/
def State.runUpdate (s0 : State) (c : Nat) (upset : Option (Nat × Bool)) : State :=
  match s0.updateDue c with
  | none => s0
  | some (due, per, index) =>
    let e := (s0.lch c).eng
    let s1 := s0.bgCatch e
    let s := s1.setLch c { s1.lch c with last := some due }
    if s.trapped e then s.finish e c s.count due true [] (some 0)
    else
      let law := s.lawOf c
      let k := s.blkOf c
      let g := s.generation e k
      let pb := s.blockBytes e g k
      let lacks := s.lawLacks c law
      let mismatch := byteAt pb 0 != law
      let s1 := ((s.setFld (aLCH_LAW c) fLCH_LAW_GEN g).bump (aLCH_UPD c)).judgeUpdate e c lacks mismatch
      let s2 := match upset with
        | some (_, false) => s1.corrected e
        | _ => s1
      let fatal := match upset with
        | some (n, true) => some n
        | _ => none
      if lacks || mismatch then s2.noLaw e c due
      else if s.ctl.isStandard law then
        (if fatal.isSome then s2.trapStandard e c law due else s2.runStandard e c law pb due per)
      else s2.runCustom e c law pb due per index fatal

/-- LOOP_UPDATE (R163, R164): the update of a channel's stream at its update point, after those of lower channels of its
engine with the same update point. -/
def execLoopUpdate (ch : Chan) (upset : Option (Nat × Bool)) (s : State) : Result :=
  let e := (s.lch ch.val).eng
  let before := (List.range ch.val).filter (fun c => (s.lch c).bound && (s.lch c).eng == e)
  let s1 := if (s.updateDue ch.val).isSome then before.foldl (fun s c => s.runUpdate c none) s else s
  .next (s1.runUpdate ch.val upset)

/-- A flip names a block whose inactive generation is claimed (R184). -/
def State.flipClaimed (s : State) (blk : BitVec 8) : Bool := (s.reg (aLPE_CLAIM (blk.toNat / 32))).getLsbD (blk.toNat % 32)

/-- LPE_FLIP (R176): refused while the block's inactive generation is claimed. -/
def execLpeFlip (by_ : Issuer) (blk : BitVec 8) (s : State) : Result :=
  .next (if s.flipClaimed blk then s.rejectVal by_ aLPE_FLIP else s.flipBlock (blk.toNat / 32) (blk.toNat % 32))

/-- LCH_EN_WRITE (R172, R188): a channel without a LAW record refuses it, and a gang member other than the leader ignores
it. -/
def execLchEnWrite (by_ : Issuer) (ch : Chan) (en : Bool) (s : State) : Result :=
  let c := ch.val
  if s.follower c then .next s
  else if !(s.lch c).bound then .next (s.rejectVal by_ (aLCH_CTL c))
  else if en then
    if s.bit (aLCH_CTL c) fLCH_CTL_EN then .next s
    else .next ((s.latch (aLCH_CTL c) fLCH_CTL_EN).loopStarts c)
  else .next (((s.setFld (aLCH_CTL c) fLCH_CTL_EN 0).loopStops c).unmatch c)

/-- A request for a routine finds room in the queue and names a valid routine (R181, R208). -/
def State.bgTakes (s : State) (e id : Nat) : Bool :=
  decide ((s.eng e).queue.length < 8) && decide (0x80 ≤ id) && s.ctl.lawValid id

/-- BG_REQUEST (R181, R208): queued, unless the queue is full or the id names no valid routine. -/
def execBgRequest (by_ : Issuer) (eng : Eng) (id : BitVec 8) (blk : BitVec 5) (s : State) : Result :=
  let e := eng.val
  let x := s.eng e
  if s.bgTakes e id.toNat then .next ((s.setEng e { x with queue := x.queue ++ [(id.toNat, blk.toNat)] }).showBg e)
  else .next (s.rejectVal by_ (aENG_BGREQ e))

/-- BG_ABORT (R185). -/
def execBgAbort (eng : Eng) (s : State) : Result := .next (s.bgAbortAll eng.val true)

/-- BG_ROUTINE_RUN (R182 to R185, R211 to R213): the engine runs its routine, or takes the next request, in the cycles up to the
end of the present one that no update uses, at most as many as given. -/
def execBgRoutineRun (eng : Eng) (cycles : Nat) (upset : Option (Nat × Bool)) (s : State) : Result :=
  let e := eng.val
  .next (if s.bgOn e then (s.bgTake e).bgUpTo e (Count.cycleStart s.count + cyc 1) cycles upset else s)

/-- ENG_RESTART (R214): TRAPPED clears, and updates run again from the state areas as they stand; on an engine that is not
TRAPPED it has no effect. -/
def execEngRestart (eng : Eng) (s : State) : Result :=
  let e := eng.val
  if s.trapped e then
    let s1 := (s.setFld (aENG_RESTART e) fENG_RESTART_TRAPPED 0).causeOff 51 e
    .next ((List.range 256).foldl (fun s c =>
      if (s.lch c).bound && (s.lch c).eng == e && (s.lch c).since.isSome then
        s.setLch c { s.lch c with since := some s.at } else s) s1)
  else .next s

/-! ## Views (R188) -/

/-- ENG_STAT and ENG_LOAD as they read: an update executes now; the fraction of the latest 2²⁰ cycles spent on updates. -/
def State.engStat (s : State) (e : Nat) : Word :=
  putF (s.reg (aENG_STAT e)) fENG_STAT_FG ((s.eng e).busyUntil.any (fun b => Count.before s.count b)).toNat
def State.engLoad (s : State) (e : Nat) : Word :=
  let kept := (s.eng e).recent.filter (fun r => Count.before (s.count - cyc 1048576) r.1)
  BitVec.ofNat 32 (min 0xFFFF (kept.foldl (fun a r => a + r.2) 0 / 16))

end Sys2Proof.Machine
end

