-- ==== Sys2Proof/Machine/Segment.lean ====
section
/-! DEFINITION. The segment island (chapter 9): the segment store and its checks, sealing, players and their commands,
synthesis, refill and fallback. -/
namespace Sys2Proof.Machine

/-! ## The segment store (R227 to R230) -/

/-- Bytes of the segment store from an offset of its region. -/
def State.segBytes (s : State) (off n : Nat) : List Byte :=
  Memory.readBytes s.sram ((s.plainBase .segment).getD 0 + off) n

/-- The size of the segment store region. -/
abbrev segSize : Nat := 0x2000000

/-- A sequence descriptor, its FIRST and COUNT (R230). -/
def State.seqDesc (s : State) (q : Nat) : List Byte := s.segBytes (16 * q) 16
def State.seqFirst (s : State) (q : Nat) : Nat := fieldAt (s.seqDesc q) 0 4
def State.seqCount (s : State) (q : Nat) : Nat := fieldAt (s.seqDesc q) 4 2

/-- A sequence entry, 16 bytes (R230). -/
def State.seqEntry (s : State) (q e : Nat) : List Byte := s.segBytes (s.seqFirst q + 16 * e) 16

/-- The fields of a sequence entry. -/
def seSid (b : List Byte) : Nat := fieldAt b 0 2
def seFbsid (b : List Byte) : Nat := fieldAt b 2 2
def seLoops (b : List Byte) : Nat := fieldAt b 4 4
def seNext (b : List Byte) : Nat := fieldAt b 8 2
def seJump (b : List Byte) : Nat := fieldAt b 10 2
def seMark (b : List Byte) : Nat := byteAt b 12
def seTrig (b : List Byte) : Nat := byteAt b 13

/-- A segment descriptor, 32 bytes (R229). -/
def State.segDesc (s : State) (sid : Nat) : List Byte := s.segBytes (0x10000 + 32 * sid) 32

/-- The fields of a segment descriptor. -/
def sdKind (b : List Byte) : Nat := byteAt b 0
def sdNent (b : List Byte) : Nat := fieldAt b 4 4
def sdRbase (b : List Byte) : Nat := fieldAt b 8 4
def sdRsize (b : List Byte) : Nat := fieldAt b 12 4
def sdHaddr (b : List Byte) : Nat := fieldAt b 16 8

/-- A segment is streamed. -/
def sdStreamed (b : List Byte) : Bool := sdKind b == 2

/-- The fields of a segment entry, 32 bytes (R228). -/
def enOff (b : List Byte) : Int := signed 32 (fieldAt b 0 4)
def enAmp (b : List Byte) : Int := signed 32 (fieldAt b 4 4)
def enFw (b : List Byte) : Nat := fieldAt b 8 6
def enPw (b : List Byte) : Nat := fieldAt b 14 4
def enDfw (b : List Byte) : Int := signed 32 (fieldAt b 18 4)
def enDoff (b : List Byte) : Int := signed 44 (fieldAt b 22 6)
def enPm (b : List Byte) : Nat := fieldAt b 22 6 / 2 ^ 44 % 4
def enDur (b : List Byte) : Nat := fieldAt b 28 4

/-- A segment entry keeps R228 and R232. -/
def entryOk (b : List Byte) : Bool :=
  decide (4 ≤ enDur b) && decide (enPm b ≠ 3) && decide (fieldAt b 22 6 < 2 ^ 46)
    && (decide (enPm b ≠ 2) || decide (enDfw b = 0))

/-- An entry of a streamed segment as HBM holds it. -/
def State.streamEntry (s : State) (d : List Byte) (i : Nat) : List Byte :=
  Memory.readBytes s.hbmMem (sdHaddr d + 32 * i) 32

/-! ## The check of a seal (R240) -/

/-- The causes of SEG_CSTAT. -/
abbrev scDescriptor : Nat := 1
abbrev scExtent : Nat := 2
abbrev scEntry : Nat := 3
abbrev scFallback : Nat := 4
abbrev scIndex : Nat := 5
abbrev scInUse : Nat := 6
abbrev scWindow : Nat := 7

/-- A range of HBM space lies in one region of kind SEGMENT (R334). -/
def State.inSegmentRegion (s : State) (off n : Nat) : Bool :=
  (List.range 16).any (fun r =>
    let base := s.fld (aHBM_RGN_BASE r) fHBM_RGN_BASE_BASE * 1048576
    let size := s.fld (aHBM_RGN_SIZE r) fHBM_RGN_SIZE_SIZE * 1048576
    s.fld (aHBM_RGN_KIND r) fHBM_RGN_KIND_KIND == 5 && decide (base ≤ off) && decide (off + n ≤ base + size))

/-- The cause for which a segment's descriptor or entries fail, 0 where they pass (R229, R240). -/
def State.segCause (s : State) (sid : Nat) : Nat :=
  let d := s.segDesc sid
  let reserved := fieldAt d 1 3 != 0 || fieldAt d 24 8 != 0
  if sdKind d = 0 ∨ 2 < sdKind d ∨ reserved ∨ sdNent d = 0 ∨ sdRbase d % 32 ≠ 0 ∨ sdRbase d < 0x90000 then scDescriptor
  else if sdKind d = 1 then
    if sdRsize d ≠ 0 ∨ sdHaddr d ≠ 0 then scDescriptor
    else if segSize < sdRbase d + 32 * sdNent d then scExtent
    else if (List.range (sdNent d)).all (fun i => entryOk (s.segBytes (sdRbase d + 32 * i) 32)) then 0
    else scEntry
  else if !((List.range 17).any (fun k => decide (6 ≤ k) && sdRsize d == 2 ^ k)) || sdHaddr d % 32 != 0 then scDescriptor
  else if segSize < sdRbase d + 32 * sdRsize d ∨ s.inSegmentRegion (sdHaddr d) (32 * sdNent d) = false then scWindow
  else 0

/-- The cause for which a sequence entry or the segments it names fail. -/
def State.seCause (s : State) (b : List Byte) (count : Nat) : Nat :=
  let bad (x : Nat) : Bool := x != 0xFFFF && decide (count ≤ x)
  if seMark b % 4 = 3 ∨ seMark b / 4 % 4 ≠ 0 ∨ 8 ≤ seTrig b ∨ fieldAt b 14 2 ≠ 0 then scEntry
  else if 16384 ≤ seSid b ∨ 16384 ≤ seFbsid b ∨ bad (seNext b) ∨ bad (seJump b) then scIndex
  else if s.segCause (seSid b) ≠ 0 then s.segCause (seSid b)
  else if sdKind (s.segDesc (seFbsid b)) = 2 then scFallback
  else s.segCause (seFbsid b)

/-- The first cause of a list of checks. -/
def firstCause (f : Nat → Nat) : List Nat → Nat
  | [] => 0
  | i :: is => if f i = 0 then firstCause f is else f i

/-- The cause for which a seal of a sequence fails, 0 where it passes. -/
def State.sealCause (s : State) (q : Nat) : Nat :=
  let d := s.seqDesc q
  let first := s.seqFirst q
  let count := s.seqCount q
  if (s.plainBase .segment).isNone then scExtent
  else if first % 16 ≠ 0 ∨ first < 0x90000 ∨ count = 0 ∨ 4096 < count ∨ fieldAt d 6 10 ≠ 0 then scDescriptor
  else if segSize < first + 16 * count then scExtent
  else firstCause (fun e => s.seCause (s.seqEntry q e) count) (List.range count)

/-! ## Sealed areas (R241) -/

/-- A sequence is sealed. -/
def State.isSealed (s : State) (q : Nat) : Bool := (s.reg (aSEG_SEALED (q / 32))).getLsbD (q % 32)

/-- A sequence is sealed, or its check and its window fills run. -/
def State.isProtected (s : State) (q : Nat) : Bool :=
  s.isSealed q || (s.bit aSEG_CSTAT fSEG_CSTAT_BUSY && s.fld aSEG_CSTAT fSEG_CSTAT_SEQ == q)

/-- The segments that a sequence's entries name. -/
def State.seqSegs (s : State) (q : Nat) : List Nat :=
  ((List.range (min 4096 (s.seqCount q))).flatMap (fun e =>
    [seSid (s.seqEntry q e), seFbsid (s.seqEntry q e)])).eraseDups

/-- The areas of the store that a sequence references, as offset and length. -/
def State.seqAreas (s : State) (q : Nat) : List (Nat × Nat) :=
  (16 * q, 16) :: (s.seqFirst q, 16 * s.seqCount q) :: (s.seqSegs q).flatMap (fun sid =>
    let d := s.segDesc sid
    [(0x10000 + 32 * sid, 32), (sdRbase d, 32 * (if sdStreamed d then sdRsize d else sdNent d))])

/-- The ranges of HBM space that a sequence references. -/
def State.seqRanges (s : State) (q : Nat) : List (Nat × Nat) :=
  (s.seqSegs q).filterMap (fun sid =>
    let d := s.segDesc sid
    if sdStreamed d then some (sdHaddr d, 32 * sdNent d) else none)

/-- Bytes of the store, or of HBM space, that are read only to host writes. -/
def State.sealedBytes (s : State) (hbm : Bool) (off n : Nat) : Bool :=
  ((List.range 4096).filter s.isProtected).any (fun q =>
    (if hbm then s.seqRanges q else s.seqAreas q).any (fun a => decide (off < a.1 + a.2) && decide (a.1 < off + n)))

/-! ## Players -/

/-- The state of a player. -/
def State.player (s : State) (c : Nat) : Player := Tab.get (fun _ => {}) s.players c

/-- The state with a player set. -/
def State.setPlayer (s : State) (c : Nat) (x : Player) : State :=
  { s with players := Tab.set (fun _ => {}) s.players c x }

/-- The states of a player (R248). -/
abbrev plIdle : Nat := 0
abbrev plPlay : Nat := 1
abbrev plFallback : Nat := 2
abbrev plDone : Nat := 3
def State.plState (s : State) (c : Nat) : Nat := s.fld (aPL_STAT c) fPL_STAT_STATE

/-- The state with a player's state set; FS 56's cause ends as the player leaves FALLBACK (R247). -/
def State.setPlState (s : State) (c st : Nat) : State :=
  let s1 := s.setFld (aPL_STAT c) fPL_STAT_STATE st
  if st = plFallback then s1 else s1.causeOff 56 c

/-- The sequence and the entry in play. -/
def State.plSeq (s : State) (c : Nat) : Nat := s.fld (aPL_STAT c) fPL_STAT_SEQ
def State.plEntry (s : State) (c : Nat) : Nat := s.fld (aPL_STAT c) fPL_STAT_ENTRY

/-- The sequence entry and the segment descriptor in play. -/
def State.plSe (s : State) (c : Nat) : List Byte := s.seqEntry (s.plSeq c) (s.plEntry c)
def State.plSeg (s : State) (c : Nat) : List Byte := s.segDesc (seSid (s.plSe c))

/-- The latest START or STOP of a player that waits for its boundary: its sequence, or none for a STOP. -/
def Player.ordered (x : Player) : Option (Option Nat) :=
  x.cmds.foldl (fun o (c : Count × PlCmd) => match c.2 with
    | .start q _ => some (some q)
    | .stop => some none
    | .jump _ _ => o) none

/-- The sequence with which a player is out of IDLE from the due time of its latest START. -/
def State.plHolds (s : State) (c : Nat) : Option Nat :=
  match (s.player c).ordered with
  | some q => q
  | none => if s.plState c = plPlay ∨ s.plState c = plFallback then some (s.plSeq c) else none

/-- A player is out of IDLE, or will be at the next boundary. -/
def State.plRuns (s : State) (c : Nat) : Bool :=
  s.plState c != plIdle || (s.player c).ordered.any (·.isSome)

/-- SEG_RUN as it reads: the capacity of R224 and the players out of IDLE. -/
def State.segCap (s : State) : Nat := min 256 (2 * (s.fld aSEG_CFG fSEG_CFG_DIVM1 + 1))
def State.segRun (s : State) : Word :=
  putF (fldWord fSEG_RUN_CAP s.segCap) fSEG_RUN_RUN
    (((List.range 256).filter (fun c => s.plState c != plIdle)).length)

/-- The streamed segments that a sequence plays. -/
def State.seqStreamed (s : State) (q : Nat) : List Nat := (s.seqSegs q).filter (fun sid => sdStreamed (s.segDesc sid))

/-- A streamed segment of a sequence is owned by another player (R243). -/
def State.ownedElsewhere (s : State) (c q : Nat) : Bool :=
  let mine := s.seqStreamed q
  !mine.isEmpty && (List.range 256).any (fun k => k != c && (match s.plHolds k with
    | some r => (s.seqStreamed r).any (fun sid => mine.contains sid)
    | none => false))

/-- A refused player command (R234, R239, R247). -/
def State.plReject (s : State) (c reason : Nat) : State :=
  ((s.latch (aPL_LAT c) fPL_LAT_REJ).setReg (aPL_REJ c) (fldWord fPL_REJ_REASON reason)).raise 57 islSegment

/-- A waiting command is a JUMP to a DONE player. -/
def PlCmd.isJump : PlCmd → Bool
  | .jump _ _ => true
  | _ => false

/-- A player with a START or STOP that waits for its boundary: pending jumps are discarded (R239). -/
def Player.order (x : Player) (due : Count) (c : PlCmd) : Player :=
  { x with cmds := x.cmds.filter (fun k => !k.2.isJump) ++ [(due, c)], jump := none, decided := none }

/-- The state with a player set, and JPEND showing whether a jump is pending. -/
def State.putPlayer (s : State) (c : Nat) (x : Player) : State :=
  let j := x.jump.isSome || x.decided.isSome || x.cmds.any (fun k => k.2.isJump)
  (s.setPlayer c x).setBit (aPL_STAT c) fPL_STAT_JPEND j

/-- PL_START (R224, R234): judged at its due time; the first sample is that of the first boundary at or after it. -/
def execPlStart (ch : Chan) (seq entry : BitVec 12) (s : State) : Result :=
  let c := ch.val
  let q := seq.toNat
  if !(s.isSealed q) then .next (s.plReject c 1)
  else if s.seqCount q ≤ entry.toNat then .next (s.plReject c 2)
  else if !(s.plRuns c) && decide (s.segCap ≤ ((List.range 256).filter s.plRuns).length) then .next (s.plReject c 3)
  else if s.ownedElsewhere c q then .next (s.plReject c 4)
  else .next (s.putPlayer c ((s.player c).order s.at (.start q entry.toNat)))

/-- A pending jump whose pass end has been decided (R238): the decision cycle is over, and the jump fell due in it or
before. -/
def Player.decidedNow (x : Player) (now : Count) : Option (Bool × Nat) :=
  match x.ended, x.jump with
  | some b, some (d, m, e) =>
    if x.decided.isNone && Count.upto (b + 128) now && Count.before d (b + 128) then some (m, e) else x.decided
  | _, _ => x.decided

/-- PL_JUMP (R238, R239): it replaces a pending jump, but not one whose pass end has been decided. A START or STOP that
waits for its boundary has been applied: the jump is one of a player that plays, or of one that is IDLE (DEDUCED, log
entry 72). -/
def execPlJump (ch : Chan) (jmode : Bool) (entry : BitVec 12) (s : State) : Result :=
  let c := ch.val
  let x := s.player c
  let q : Option Nat := match x.ordered with
    | some o => o
    | none => if s.plState c = plIdle then none else some (s.plSeq c)
  match q with
  | none => .next (s.plReject c 5)
  | some q =>
    if jmode && decide (s.seqCount q ≤ entry.toNat) then .next (s.plReject c 2)
    else if x.ordered.isNone ∧ s.plState c = plDone then
      .next (s.putPlayer c { x with cmds := [(s.at, .jump jmode entry.toNat)], jump := none, decided := none })
    else .next (s.putPlayer c { x with jump := some (s.at, jmode, entry.toNat), decided := x.decidedNow s.count })

/-- PL_STOP (R237). -/
def execPlStop (ch : Chan) (s : State) : Result :=
  let c := ch.val
  .next (s.putPlayer c ((s.player c).order s.at .stop))

/-! ## Store commands (R233, R240 to R242) -/

/-- The result of a store command: SEG_CSTAT, and FS 57 on a failure. -/
def State.segResult (s : State) (q cause : Nat) : State :=
  let w := putF (putF (fldWord fSEG_CSTAT_SEQ q) fSEG_CSTAT_CAUSE cause) fSEG_CSTAT_RESULT (if cause = 0 then 1 else 2)
  let s1 := s.setReg aSEG_CSTAT w
  if cause = 0 then s1 else s1.raise 57 islSegment

/-- A command written while BUSY is refused (R240). -/
def State.segBusy (s : State) : State := (s.latch aSEG_LAT fSEG_LAT_CMDREJ).raise 57 islSegment

/-- SEAL (R240, R241): the check begins, and with it the protection; a sealed sequence passes at once. -/
def execSeal (seq : BitVec 12) (s : State) : Result :=
  let q := seq.toNat
  if s.bit aSEG_CSTAT fSEG_CSTAT_BUSY then .next s.segBusy
  else if s.isSealed q then .next (s.segResult q 0)
  else .next ((s.latch aSEG_CSTAT fSEG_CSTAT_BUSY).setFld aSEG_CSTAT fSEG_CSTAT_SEQ q)

/-- The first RSIZE entries of a streamed segment in the order of play, put into its window; an entry that fails R228 is not
placed (R242, R243). -/
def State.fillWindow (s : State) (sid : Nat) : State :=
  let d := s.segDesc sid
  match s.plainBase .segment with
  | none => s
  | some b =>
    { s with sram := (List.range (sdRsize d)).foldl (fun m p =>
        let e := s.streamEntry d (p % (max 1 (sdNent d)))
        if entryOk e then Memory.writeBytes m (b + sdRbase d + 32 * p) e else m) s.sram }

/-- SEAL_DONE (R240): the sequence's bit sets, its windows filled; or RESULT reads FAIL. -/
def execSealDone (seq : BitVec 12) (s : State) : Result :=
  let q := seq.toNat
  if s.bit aSEG_CSTAT fSEG_CSTAT_BUSY && s.fld aSEG_CSTAT fSEG_CSTAT_SEQ == q then
    let c := s.sealCause q
    if c = 0 then
      let s1 := (s.seqStreamed q).foldl (fun s sid => s.fillWindow sid) s
      .next ((s1.setFld (aSEG_SEALED (q / 32)) ⟨q % 32, q % 32⟩ 1).segResult q 0)
    else .next (s.segResult q c)
  else .next s

/-- UNSEAL (R242): refused while a player is out of IDLE on the sequence. -/
def execUnseal (seq : BitVec 12) (s : State) : Result :=
  let q := seq.toNat
  if s.bit aSEG_CSTAT fSEG_CSTAT_BUSY then .next s.segBusy
  else
    let used := (List.range 256).any (fun c => (s.plState c != plIdle && s.plSeq c == q) || s.plHolds c == some q)
    if used then .next (s.segResult q scInUse)
    else .next ((s.setFld (aSEG_SEALED (q / 32)) ⟨q % 32, q % 32⟩ 0).segResult q 0)

/-- DDSRST (R233, R240): it waits for the first boundary at or after its due time; refused while BUSY. -/
def execDdsrst (s : State) : Result :=
  if s.bit aSEG_CSTAT fSEG_CSTAT_BUSY then .next s.segBusy
  else .next { s with seg := { s.seg with ddsrst := some (s.seg.ddsrst.getD s.at) } }

/-! ## Synthesis (R231, R232) -/

/-- A quotient by a power of two, rounded to nearest, ties away from zero. -/
def roundShift (v : Int) (k : Nat) : Int := divRound v (2 ^ k)

/-- The phase and the level of a player at a sample of an entry: its first, or a later one; `since` is N - NE. -/
def Player.advance (p : Player) (e : List Byte) (first : Bool) (since : Int) : Player :=
  if first then
    let phi := if enPm e = 1 then 0
      else if enPm e = 2 then ((enFw e : Int) * since % (2 ^ 48 : Nat)).toNat
      else (p.phi + p.f) % 2 ^ 48
    { p with phi := phi, f := enFw e, o := enOff e * (2 ^ 24 : Nat), pw := enPw e, cur := e }
  else
    { p with
      phi := (p.phi + p.f) % 2 ^ 48
      f := (clampInt 0 (2 ^ 47 : Nat) ((p.f : Int) + enDfw e)).toNat
      o := p.o + enDoff e }

/-- The emitted phase of a player. -/
def Player.theta (p : Player) : Nat := (p.phi + p.pw * 2 ^ 16) % 2 ^ 48

/-- The set-point of a player before its saturation. -/
def Player.level (p : Player) : Int :=
  roundShift p.o 24 + roundShift (enAmp p.cur * sineAt (p.theta / 2 ^ 28)) 31

/-- A sample emitted to the loop engine and the acquisition island (R225), and shown: PL_SP and PL_PH. -/
def State.emitSample (s : State) (c : Nat) (x : Sample) : State :=
  ((s.setPlayer c { s.player c with sample := x }).setReg (aPL_SP c) x.y).setWide (aPL_PH c) 2 x.theta

/-- FLAGS of a sample (R225). -/
def sampleFlags (segStart mark fallback sat idle done jumped : Bool) : BitVec 8 :=
  BitVec.ofNat 8 (segStart.toNat + 2 * mark.toNat + 4 * fallback.toNat + 8 * sat.toNat + 16 * idle.toNat + 32 * done.toNat
    + 64 * jumped.toNat)

/-! ## Progress of a player (R235 to R245) -/

/-- An event flag to a channel's task, due at the boundary; it left 128 cycles before (R226, R236). -/
def State.segPost (s : State) (c : Nat) (set : BitVec 64) : State :=
  let lat := Config.fordLatency s.free % 65
  let s1 := { s with free := s.free + 1 }
  (s1.fordSeen 72 lat (128 - lat)).hold (.island islSegment) s.count (.flags (chanFin c) set 0)

/-- Play leaves the segment in play: the refill engine restores the first entries of a streamed one (R243). -/
def State.leaveSegment (s : State) (c : Nat) : State :=
  if (s.plState c = plPlay ∨ s.plState c = plFallback) ∧ sdStreamed (s.plSeg c) then s.fillWindow (seSid (s.plSe c))
  else s

/-- The window of a streamed segment held the entry at a place in the order of play when the sample of the present
boundary was computed, 128 cycles before it (R226, R244). -/
def State.windowHas (s : State) (x : Player) (d : List Byte) (p : Nat) : Bool :=
  (decide (p < sdRsize d) && entryOk (s.streamEntry d (p % (max 1 (sdNent d)))))
    || x.arrived.any (fun a => a.1 == p && Count.upto (a.2 + cyc 128) s.count)

/-- At a pass end in FALLBACK the player returns to normal play where the window holds the next half of its size, or the
entry that follows plays a resident segment (R245). -/
def State.tryReturn (s : State) (c : Nat) : State :=
  if s.plState c = plFallback then
    let d := s.plSeg c
    let x := s.player c
    if !(sdStreamed d) || (List.range (sdRsize d / 2)).all (fun i => s.windowHas x d (x.pos + i)) then
      s.setPlState c plPlay
    else s
  else s

/-- Entry `e` of the sequence begins (R234, R235, R238). -/
def State.enterEntry (s : State) (c e : Nat) (jumped : Bool) : State :=
  let s1 := (s.leaveSegment c).setFld (aPL_STAT c) fPL_STAT_ENTRY e
  s1.setPlayer c { s1.player c with
    idx := 0, k := 0, pos := 0, passes := 0, samp := 0, jumped := jumped, fbIdx := 0, fbK := 0, arrived := [] }

/-- The sequence ends (R235): DONE from this boundary, and E_SEQEND. -/
def State.seqDone (s : State) (c : Nat) : State :=
  let s1 := (s.leaveSegment c).setPlState c plDone
  (s1.setPlayer c { s1.player c with arrived := [] }).segPost c eSeqend

/-- Play goes on at a target entry, or ends at FFFFh. -/
def State.goTo (s : State) (c target : Nat) (jumped : Bool) : State :=
  if target = 0xFFFF then s.seqDone c else (s.enterEntry c target jumped).tryReturn c

/-- The next pass of the entry, or the entry that follows (R235). -/
def State.nextPass (s : State) (c : Nat) (se : List Byte) : State :=
  let x := s.player c
  if seLoops se = 0 ∨ x.passes + 1 < seLoops se then
    (s.setPlayer c { x with passes := x.passes + 1, idx := 0, k := 0, samp := 0 }).tryReturn c
  else s.goTo c (seNext se) false

/-- A pass has ended: a jump due by its decision cycle, the next pass, or NEXT (R235, R238). -/
def State.passEnd (s : State) (c : Nat) (dec : Count) : State :=
  let x := s.player c
  let se := s.plSe c
  let target (m : Bool) (e : Nat) : Nat := if m then e else seJump se
  match x.decided, x.jump with
  | some (m, e), _ => (s.putPlayer c { x with decided := none }).goTo c (target m e) true
  | none, some (d, m, e) =>
    if Count.before d (dec + 128) then (s.putPlayer c { x with jump := none }).goTo c (target m e) true
    else s.nextPass c se
  | none, none => s.nextPass c se

/-- A command that waits is taken at a boundary. -/
def State.takeCmd (s : State) (c : Nat) (cmd : PlCmd) : State :=
  match cmd with
  | .stop =>
    let s2 := (s.leaveSegment c).setPlState c plIdle
    s2.setPlayer c { s2.player c with f := 0, arrived := [], k := 0, idx := 0, samp := 0 }
  | .start q e =>
    let s2 := (s.leaveSegment c).setPlState c plIdle
    ((s2.setFld (aPL_STAT c) fPL_STAT_SEQ q).enterEntry c e false).setPlState c plPlay
  | .jump m e =>
    let t := if m then e else seJump (s.plSe c)
    if t = 0xFFFF then s.seqDone c else (s.enterEntry c t true).setPlState c plPlay

/-- A starved player enters FALLBACK (R244). -/
def State.starve (s : State) (c : Nat) : State :=
  let s1 := ((s.setPlState c plFallback).latch (aPL_LAT c) fPL_LAT_STARVED).latch aSEG_LAT fSEG_LAT_STARVED
  let s2 := s1.setPlayer c { s1.player c with fbIdx := 0, fbK := 0 }
  ((s2.causeOn 56 c).raise 56 islSegment).lateInternal 4 75 73 s.count s.count

/-- What a sample shows in the player's registers (R247, R248): SAT and FS 58 once per run of saturated samples, STARVE, SAMP
and LOOP. -/
def State.showPlayed (s : State) (c : Nat) (y : Player) (newSat fb : Bool) (left : Nat) : State :=
  let s1 := if y.satRun then (s.latch (aPL_LAT c) fPL_LAT_SAT).latch aSEG_LAT fSEG_LAT_SAT else s
  let s2 := if newSat then s1.raise 58 islSegment else s1
  let s3 := if fb then s2.bump (aPL_STARVE c) else s2
  (s3.setReg (aPL_SAMP c) (BitVec.ofNat 32 (min 0xFFFFFFFF y.samp))).setReg (aPL_LOOP c) (BitVec.ofNat 32 left)

/-- A segment marker for a channel's next values (R236). -/
def State.markChan (s : State) (c : Nat) (mc : BitVec 4) : State :=
  s.setAch c { s.ach c with markV := some (s.count, mc), markI := some (s.count, mc) }

/-- How many samples the shadow position stays on an entry: its DUR; for one that fails R228 by a DUR below 4 the rules
give no number, and it is free (DESIGN CHOICE, log entry 72). -/
def shadowDur (e : List Byte) : Nat := if 4 ≤ enDur e then enDur e else max 1 (Config.badDur (enDur e))

/-- A sample of a player that plays (R231, R236, R244): its level and phase, markers and flags of the pass, demodulation
for its channel (R305: for its gang, under the leader's), and its advance. -/
def State.playSample (s : State) (c : Nat) (n : Nat) (reset : Bool) : State :=
  let se := s.plSe c
  let d := s.plSeg c
  let x := s.player c
  let shadow := if sdStreamed d then s.streamEntry d x.idx else s.segBytes (sdRbase d + 32 * x.idx) 32
  let s0 := if s.plState c = plPlay ∧ x.k = 0 ∧ sdStreamed d ∧ s.windowHas x d x.pos = false then s.starve c else s
  let fb := s0.plState c == plFallback
  let y0 := s0.player c
  let fd := s0.segDesc (seFbsid se)
  let e := if fb then s0.segBytes (sdRbase fd + 32 * y0.fbIdx) 32
    else if x.k ≠ 0 then x.cur
    else if sdStreamed d then s0.segBytes (sdRbase d + 32 * (x.pos % max 1 (sdRsize d))) 32
    else shadow
  let firstOfEntry := if fb then y0.fbK == 0 else x.k == 0
  let y1 := y0.advance e firstOfEntry ((n : Int) - s.seg.epoch)
  let y2 := if reset then { y1 with phi := 0 } else y1
  let first := x.idx == 0 && x.k == 0
  let raw := y2.level
  let sat := decide (sat32 raw ≠ raw)
  let dur := shadowDur shadow
  let endEntry := decide (dur ≤ x.k + 1)
  let last := endEntry && decide (sdNent d ≤ x.idx + 1)
  let fbEnd := decide (enDur e ≤ y0.fbK + 1)
  let y3 : Player := { y2 with
    k := if endEntry then 0 else x.k + 1
    idx := if endEntry then x.idx + 1 else x.idx
    pos := if endEntry then x.pos + 1 else x.pos
    samp := x.samp + 1
    ended := if last then some s.count else none
    segEnd := last && (seTrig se).testBit 2
    jumped := false
    fbK := if fb then (if fbEnd then 0 else y0.fbK + 1) else 0
    fbIdx := if fb then (if fbEnd then (if sdNent fd ≤ y0.fbIdx + 1 then 0 else y0.fbIdx + 1) else y0.fbIdx) else 0
    arrived := if endEntry then x.arrived.filter (fun p => decide (x.pos < p.1)) else x.arrived
    satRun := sat }
  let mark := first && (seMark se % 4 == 2 || (seMark se % 4 == 1 && x.passes == 0))
  let mcode := BitVec.ofNat 4 (seMark se / 16)
  let out : Sample := {
    y := BitVec.ofInt 32 (sat32 raw), theta := y2.theta, entry := s.plEntry c, mcode := if mark then mcode else 0
    flags := sampleFlags (first && (seTrig se).testBit 0) mark fb sat false false x.jumped }
  let s1 := ((s0.setPlayer c y3).emitSample c out).showPlayed c y3 (sat && !x.satRun) fb
    (if seLoops se = 0 then 0 else seLoops se - x.passes - 1)
  let s2 := if first && (seTrig se).testBit 1 then s1.segPost c eSegstart else s1
  let s3 := if mark then s2.markChan c mcode else s2
  if s.follower c then s3
  else s3.demodSample c (BitVec.ofNat 48 y2.theta) y2.f (s.plEntry c) first last s.count

/-- The first half of a sample boundary of a player: the posts of the segment that ended, and the commands that fell due at
or before the boundary, in their order (R225, R239). -/
def State.playerTake (s : State) (c : Nat) : State :=
  let x := s.player c
  let s1 := if x.segEnd then (s.setPlayer c { x with segEnd := false }).segPost c eSegend else s
  let due := if s.blkOn 7 then x.cmds.filter (fun k => Count.upto k.1 s.count) else []
  let rest := if s.blkOn 7 then x.cmds.filter (fun k => !(Count.upto k.1 s.count)) else x.cmds
  let s2 := match x.ended with
    | some b =>
      let s2 := s1.setPlayer c { s1.player c with ended := none }
      if due.any (fun k => !k.2.isJump) then s2 else s2.passEnd c b
    | none => s1
  due.foldl (fun s k => s.takeCmd c k.2) (if due.isEmpty then s2 else s2.putPlayer c { s2.player c with cmds := rest })

/-- A sample of a player that does not play: DONE holds its last value, every other state outputs 0 (R225). A pass that was
cut leaves its demodulation (R308). -/
def State.playerRest (s0 : State) (reset : Bool) (c : Nat) : State :=
  let s := s0.restDemod c
  let y := s.player c
  let y1 := if reset then { y with phi := 0, satRun := false } else { y with satRun := false }
  let out : Sample := { theta := y1.theta, entry := s.plEntry c }
  if s.plState c = plDone then
    (s.setPlayer c y1).emitSample c { out with
      y := BitVec.ofInt 32 (sat32 (roundShift y1.o 24)), flags := sampleFlags false false false false false true false }
  else (s.setPlayer c { y1 with f := 0 }).emitSample c { out with
      flags := sampleFlags false false false false true false false }

/-- One player at a sample boundary (R225). -/
def State.playerStep (s : State) (n : Nat) (reset : Bool) (c : Nat) : State :=
  let s3 := s.playerTake c
  if s3.plState c = plPlay ∨ s3.plState c = plFallback then s3.playSample c n reset else s3.playerRest reset c

/-- The present cycle is a sample boundary: its cycle count is a multiple of DIV (R59). -/
def State.boundaryNow (s : State) : Bool := s.count.toNat / 128 % (s.fld aSEG_CFG fSEG_CFG_DIVM1 + 1) == 0

/-- SAMPLE_BOUNDARY (R225, R233): the boundary at the present count; a DDSRST that waits takes effect first. -/
def execSampleBoundary (s : State) : Result :=
  if s.twinIdle || !s.boundaryNow then .next s
  else
  let n := s.count.toNat / 128 / (s.fld aSEG_CFG fSEG_CFG_DIVM1 + 1)
  let reset := s.seg.ddsrst.any (fun d => Count.upto d s.count)
  let s1 := if reset then
      { s.setWide aSEG_EPOCH 3 s.count.toNat with seg := { ddsrst := none, epoch := n } }
    else s
  .next ((List.range 256).foldl (fun s c => s.playerStep n reset c) s1)

/-- REFILL_ARRIVE (R243 to R245): entry `entry` in the order of play, counted from the next one to load, read from HBM; it
is checked and placed, unless its time has passed or it does not fit the window. -/
def execRefillArrive (ch : Chan) (entry : BitVec 16) (good : Bool) (s : State) : Result :=
  let c := ch.val
  let x := s.player c
  let d := s.plSeg c
  let next := if x.k = 0 then x.pos else x.pos + 1
  let p := next + entry.toNat
  let e := s.streamEntry d (p % (max 1 (sdNent d)))
  if (s.plState c = plPlay ∨ s.plState c = plFallback) ∧ sdStreamed d ∧ good ∧ s.hbmOpen ∧ entryOk e ∧ entry.toNat < sdRsize d then
    match s.plainBase .segment with
    | some b =>
      .next { s.setPlayer c { x with
          arrived := if x.arrived.any (fun a => a.1 == p) then x.arrived else x.arrived ++ [(p, s.count)] } with
        sram := Memory.writeBytes s.sram (b + sdRbase d + 32 * (p % max 1 (sdRsize d))) e }
    | none => .next s
  else .next s

/-! ## Disable and reset (R249) -/

/-- Disabling SEG makes every player IDLE: what waits is discarded, φ is held, F is 0. -/
def State.segOff (s : State) : State :=
  (List.range 256).foldl (fun s c =>
    let s1 := ((s.leaveSegment c).setPlState c plIdle).putPlayer c
      { phi := (s.player c).phi, pw := (s.player c).pw }
    s1) s

/-- The reset state of the segment island: players IDLE with φ at 0, nothing sealed, NE at 0. -/
def State.segReset (s : State) : State := { s with players := [], seg := {}, causes := s.causes.filter (fun c => c.1 ≠ 56) }

end Sys2Proof.Machine
end

