-- ==== Sys2Proof/Machine/Steps.lean ====
section
/-! DEFINITION. Step tables (chapter 10): records and their validity, the walk of a table with its LOOP steps, the judgement of
a step's wait, compares and step charge, the commit of a step change and the step start. -/
namespace Sys2Proof.Machine

/-! ## The step record (R252 to R254) -/

/-- The fields of a record. -/
def rMode (r : List Byte) : Nat := byteAt r 0
def rFlags (r : List Byte) : Nat := byteAt r 1
def rSeq (r : List Byte) : Nat := fieldAt r 2 2
def rEntry (r : List Byte) : Nat := fieldAt r 4 2
def rLaw (r : List Byte) : Nat := byteAt r 6
def rBlock (r : List Byte) : Nat := byteAt r 7
def rThr (r : List Byte) : Nat := fieldAt r 8 4
def rThrpin (r : List Byte) : Nat := byteAt r 12
def rLmset (r : List Byte) : Nat := byteAt r 13
def rAcqprof (r : List Byte) : Nat := byteAt r 14
def rTimeout (r : List Byte) : Nat := fieldAt r 16 4
def rTonext (r : List Byte) : Nat := fieldAt r 20 2
def rViolnext (r : List Byte) : Nat := fieldAt r 22 2

/-- The fields of condition n. -/
def cMask (r : List Byte) (n : Nat) : Nat := fieldAt r (24 + 10 * n) 4
def cCmp (r : List Byte) (n : Nat) : BitVec 32 := BitVec.ofNat 32 (fieldAt r (28 + 10 * n) 4)
def cCtl (r : List Byte) (n : Nat) : Nat := fieldAt r (32 + 10 * n) 2
def cEn (r : List Byte) (n : Nat) : Bool := (cCtl r n).testBit 15
def cQty (r : List Byte) (n : Nat) : Nat := cCtl r n / 4096 % 8
def cHalf (r : List Byte) (n : Nat) : Nat := cCtl r n / 2048 % 2
def cAll (r : List Byte) (n : Nat) : Bool := (cCtl r n).testBit 10
def cNext (r : List Byte) (n : Nat) : Nat := cCtl r n % 1024

/-- The step modes of R253. -/
abbrev mEnd : Nat := 1
abbrev mRun : Nat := 2
abbrev mHold : Nat := 3
abbrev mLoop : Nat := 4

/-- The record of a step of a table, as it stands in the plain (R250). -/
def State.stepRecord (s : State) (table step : Nat) : List Byte :=
  Memory.readBytes s.sram ((s.plainBase .management).getD 0 + table * 0x10000 + step * 0x40) 64

/-- A LOOP record is valid (R264): COND0.CMP from 1 to 65,535; besides MODE, COND0.MASK[1:0], COND0.CMP, COND0.NEXT and
COND1.NEXT, every bit is 0. -/
def loopValid (r : List Byte) : Bool :=
  let zero (o n : Nat) : Bool := fieldAt r o n == 0
  decide (1 ≤ (cCmp r 0).toNat) && decide ((cCmp r 0).toNat ≤ 65535) && zero 1 23 && decide (cMask r 0 < 4)
    && decide (cCtl r 0 < 1024) && zero 0x22 8 && decide (cCtl r 1 < 1024) && zero 0x2C 20

/-- A branch target: a step, or FFFFh. -/
def stepOk (n : Nat) : Bool := decide (n ≤ 1023) || n == 0xFFFF

/-- A set named by a record is defined in the ACQ section, or FFh. -/
def setOk (t : Tab (List Byte)) (n : Nat) : Bool := n == 0xFF || !(Tab.get (fun _ => []) t n).isEmpty

/-- A record is valid (R257); the reserved bits of FLAGS are not judged. -/
def State.recordValid (s : State) (r : List Byte) : Bool :=
  decide (1 ≤ rMode r) && decide (rMode r ≤ 4) && stepOk (rTonext r) && stepOk (rViolnext r)
    && (rTimeout r == 0 || rTonext r != 0xFFFF)
    && (List.range 4).all (fun n =>
      (!(cEn r n) || cMask r n != 0) && (decide (cQty r n < 5) || decide (0 ≤ (cCmp r n).toInt)))
    && (decide (rSeq r ≤ 4095) || decide (0xFFFE ≤ rSeq r)) && decide (rEntry r ≤ 4095)
    && (decide (rThrpin r ≤ 5) || rThrpin r == 0xFF)
    && setOk s.acq.lmsets (rLmset r) && setOk s.acq.profiles (rAcqprof r)
    && decide (rBlock r < 32) && byteAt r 15 == 0 && (rMode r != mLoop || loopValid r)

/-! ## Walking a table (R260, R261, R264) -/

/-- The violation mask (R260). -/
abbrev violMask : BitVec 64 := 0x000080000000023F#64

/-- Condition n of a record holds on a flag word. -/
def condHolds (r : List Byte) (n : Nat) (f : BitVec 64) : Bool :=
  let w := f.toNat / 2 ^ (32 * cHalf r n) % 2 ^ 32
  let m := cMask r n
  if cAll r n then decide (w &&& m = m) else decide (w &&& m ≠ 0)

/-- The branch that a judgement finds: the step entered and the cause (R261). -/
def judgeStep (r : List Byte) (f : BitVec 64) : Option (Nat × Nat) :=
  if rViolnext r ≠ 0xFFFF ∧ f &&& violMask ≠ 0 then some (rViolnext r, 6)
  else match (List.range 4).find? (fun n => cEn r n && condHolds r n f) with
    | some n => some (cNext r n, n + 1)
    | none => if f.getLsbD 20 ∧ rTonext r ≠ 0xFFFF then some (rTonext r, 5) else none

/-- The wait mask of a step (R283). -/
def stepWait (r : List Byte) : BitVec 64 :=
  let v : BitVec 64 := if rViolnext r = 0xFFFF then 0 else violMask
  let t : BitVec 64 := if rTonext r = 0xFFFF then 0 else eTimer
  (List.range 4).foldl (fun w n =>
    if cEn r n then w ||| (BitVec.ofNat 64 (cMask r n) <<< (32 * cHalf r n)) else w) (v ||| t)

/-- What a branch into a step leads to: the step entered, its record, the loop counters, LOOP steps met, a limit reached,
an invalid record. -/
structure Walk where
  step : Nat
  record : List Byte
  loops : List Nat
  met : Nat
  hit : Bool
  invalid : Bool
deriving DecidableEq, Repr

/-- A branch resolved (R264): LOOP steps update their counters; a ninth one, or an invalid record, ends the walk. -/
def State.walk (s : State) (table : Nat) : Nat → Nat → List Nat → Nat → Bool → Walk
  | 0, step, loops, met, hit => ⟨step, s.stepRecord table step, loops, met, hit, true⟩
  | fuel + 1, step, loops, met, hit =>
    let r := s.stepRecord table step
    if !(s.recordValid r) then ⟨step, r, loops, met, hit, true⟩
    else if rMode r ≠ mLoop then ⟨step, r, loops, met, hit, false⟩
    else if fuel = 0 then ⟨step, r, loops, met, hit, true⟩
    else
      let k := cMask r 0 % 4
      let l := (loops.getD k 0 + 1) % 65536
      if l < (cCmp r 0).toNat then s.walk table fuel (cNext r 0) (loops.set k l) (met + 1) hit
      else s.walk table fuel (cNext r 1) (loops.set k 0) (met + 1) true

/-! ## Compares and step charge (R255, R256, R259) -/

/-- A compare's condition on V, I and the step charge. -/
def compareHolds (qty : Nat) (cmp : BitVec 32) (v i q : Int) : Bool :=
  let c := cmp.toInt
  if qty = 1 then decide (c ≤ v)
  else if qty = 2 then decide (v ≤ c)
  else if qty = 3 then decide (c ≤ i)
  else if qty = 4 then decide (i ≤ c)
  else if qty = 5 then decide (i.natAbs ≤ c)
  else if qty = 6 then decide (c ≤ i.natAbs)
  else if qty = 7 then decide (c * 5400000000000000 ≤ q.natAbs)
  else false

/-- A current result joins the step charge of its channel, exact in 96 bits, signed. -/
def State.addCharge (s : State) (ch hop : Nat) (i : Int) (due : Count) : State :=
  let x := s.ach ch
  match x.stepStart with
  | some st =>
    if Count.before due st then s
    else s.setAch ch { x with charge := signed 96 (((x.charge + i * hop) % (2 ^ 96 : Nat)).toNat) }
  | none => s

/-- The armed compares of a channel recomputed at a result's due time, their flags posted 96 cycles later. -/
def State.compares (s : State) (ch : Nat) (due : Count) : State :=
  let x := s.ach ch
  let v := (s.inputNow ch 0).1.toInt
  let i := (s.inputNow ch 1).1.toInt
  let armed := (List.range 4).filter (fun n => (x.cmps.getD n (0, 0)).1 != 0)
  if armed.isEmpty then s
  else
    let bit (n : Nat) : BitVec 64 := 1 <<< (16 + n)
    let on := armed.filter (fun n => compareHolds (x.cmps.getD n (0, 0)).1 (x.cmps.getD n (0, 0)).2 v i x.charge)
    let off := armed.filter (fun n => !(on.contains n))
    s.postAt islAcquisition (chanFin ch) (on.foldl (fun w n => w ||| bit n) 0) (off.foldl (fun w n => w ||| bit n) 0)
      (due + cyc 96)

/-- Compare flags of the step that ended, posted and not yet due, are no flags of the new step (R263). -/
def State.dropCompares (s : State) (ch : Nat) : State :=
  let mask : BitVec 64 := 0xF0000#64
  { s with agenda := s.agenda.map (fun (d : Due) =>
      match d.act with
      | .flags c set clear => if c.val = ch then ⟨d.due, d.src, .flags c (set &&& ~~~ mask) (clear &&& ~~~ mask)⟩ else d
      | _ => d) }

/-! ## Commit and step start (R13, R262 to R267) -/

/-- The first sample boundary at least a number of cycles after a cycle (R13, R59). -/
def State.boundaryAfter (s : State) (from_ : Count) (lead : Nat) : Count :=
  Count.gridFrom (Count.cycleStart from_ + cyc lead) 0 (128 * (s.fld aSEG_CFG fSEG_CFG_DIVM1 + 1))

/-- The step lead and the commit allowance of a task's group, in cycles. -/
def State.stepLead (s : State) (n : Nat) : Nat := s.fld (aSCH_GRP0 (s.task n).group) fSCH_GRP0_LEAD
def State.commitAllow (s : State) (n : Nat) : Nat := s.fld (aSCH_GRP0 (s.task n).group) fSCH_GRP0_ALLOW

/-- An action of the commit stage to another island, due at the step start (R263, R290). -/
def State.commitAct (s : State) (dst : Nat) (due : Count) (i : Instr) : State :=
  let lat := Config.fordLatency s.free % 65
  let s1 := { s with free := s.free + 1 }
  (s1.fordSeen dst lat (((due - Count.cycleStart s.count).toNat / 128) - lat)).hold (.island islScheduler) due (.cmd i)

/-- The player's and the monitors' actions of a change, in the order of R263; of an invalid record, STOP and LCH_CTL.EN
:= 0 (R265). -/
def State.issueChange (s : State) (ch : Nat) (r : List Byte) (invalid : Bool) (due : Count) : State :=
  let by_ : Issuer := .island islScheduler
  let e := 64 + (s.lch ch).eng
  if invalid then
    (s.commitAct 73 due (.plStop by_ (chanFin ch))).commitAct e due (.lchEnWrite by_ (chanFin ch) false)
  else if rMode r = mHold then s
  else
    let s1 := if rSeq r = 0xFFFF then s
      else if rSeq r = 0xFFFE then s.commitAct 73 due (.plStop by_ (chanFin ch))
      else s.commitAct 73 due (.plStart by_ (chanFin ch) (BitVec.ofNat 12 (rSeq r)) (BitVec.ofNat 12 (rEntry r)))
    if rThrpin r = 0xFF then s1
    else (s1.members ch).foldl (fun s k =>
      s.commitAct (islOf k) due (.monThrWrite by_ (Fin.ofNat 64 (islOf k)) (Fin.ofNat 26 (6 * locOf k + rThrpin r))
        (BitVec.ofNat 32 (rThr r)))) s1

/-- A staged change committed in the present cycle: its step start, its actions, and the task waits (R262, R294). -/
def State.commit (s : State) (n : Nat) : State :=
  let t := s.task n
  let start := s.boundaryAfter s.count (s.stepLead n)
  let s1 := s.setTask n { t with state := .waiting, readyAt := none, change := { t.change with startAt := some start } }
  (s1.issueChange t.chan t.change.record t.change.invalid start).hold (.island islScheduler) start
    (.cmd (.stepStart (BitVec.ofNat 16 n)))

/-- The step-change record (R267). -/
def changeRec (n : Nat) (t : Task) (c : Change) (cause : Nat) (start : Count) (q : Int) : List Byte :=
  recBytes 0x21 cause t.chan (leBytes 2 n ++ leBytes 1 t.table ++ leBytes 1 (rMode c.record)) start
    (leBytes 2 c.from_ ++ leBytes 2 c.dest ++ leBytes 4 0 ++ leBytes 8 c.flags.toNat
      ++ leBytes 8 (c.decision + 127).toNat ++ leBytes 4 c.v.toNat ++ leBytes 4 c.i.toNat
      ++ leInt 8 (clampInt (-(2 ^ 63 : Nat)) ((2 ^ 63 : Nat) - 1) (divRound q 1500000000))
      ++ (c.loops.take 4).flatMap (leBytes 2))

/-- The cause that a change's record shows: 09h invalid, 0Ah a HOLD re-entered by its own condition. -/
def Change.shown (c : Change) : Nat :=
  if c.invalid then 9
  else if 1 ≤ c.cause ∧ c.cause ≤ 4 ∧ rMode c.record = mHold ∧ c.dest = c.from_ then 10
  else c.cause

/-- The loop engine's and the acquisition island's part of a step start: law and block, profile and set, compares, charge,
record (R263, orders 2, 4 and 5). -/
def State.startActions (s : State) (n : Nat) (c : Change) (start : Count) : State :=
  let t := s.task n
  let r := c.record
  let ch := t.chan
  let q := (s.ach ch).charge
  let s1 := if c.invalid then s
    else
      let s1 := if rLaw r = 0 ∨ rMode r = mHold then s else s.selectLaw ch (rLaw r) (rBlock r)
      let prof := if rAcqprof r = 0xFF ∨ rMode r = mHold then s.fld (aACH_SEL ch) fACH_SEL_PROF else rAcqprof r
      let s2 := (s1.acqStepStart ch start prof (rLmset r)).dropCompares ch
      s2.setAch ch { s2.ach ch with charge := 0, cmps := (List.range 4).map (fun k => (cQty r k, cCmp r k)) }
  s1.appendA start (changeRec n t c c.shown start q)

end Sys2Proof.Machine
end

