-- ==== Sys2Proof/Machine/Results.lean ====
section
/-! DEFINITION. A measurement result falls due (R14, R134): what it feeds at the loop engines and at acquisition, the
plausibility check of the standby (R385), and what a shipped result does there. -/
namespace Sys2Proof.Machine

/-- A new input of a channel's quantity reaches reductions, limits, masks, compares and the step charge (R255, R256, R259,
R305): those of a gang are its leader's, its voltage the leader's, its current summed; records of the summed current are
formed at the results of the highest member. `m` counts the gate ends of the unit's grid, `hop` is its HOP. -/
def State.feed (s : State) (ch q m hop : Nat) (flags : BitVec 8) (due gateEnd : Count) : State :=
  if q = 0 ∧ s.follower ch then s
  else
    let l := s.leader ch
    let s1 := if q = 1 then s.addCharge l hop (s.quant ch 1).y.toInt due else s
    let s2 := s1.compares l due
    if q = 1 ∧ ch + 1 ≠ l + s.gangSize ch then s2
    else
      let x := s2.inputNow l q
      s2.acqResult l (q + 1) m hop x.1.toInt ((x.2 ||| flags) >>> 1) due gateEnd

/-- The number of a gate end on a unit's grid, for a result that falls due at a count. -/
def State.gateNumber (s : State) (n u : Nat) (due : Count) : Nat :=
  if s.muHop n u = 0 then 0 else ((due - 16384).toNat - 128 * s.muGph n u) / (128 * s.muHop n u)

/-- The bit of TWN_PLAUS of a channel's quantity. -/
def State.plausBit (s : State) (ch q : Nat) : Bool := (s.reg (aTWN_PLAUS ((2 * ch + q) / 32))).getLsbD ((2 * ch + q) % 32)

/-- The state with a bit of TWN_PLAUS at a value. -/
def State.setPlaus (s : State) (ch q : Nat) (on : Bool) : State :=
  let k := 2 * ch + q
  let rest := s.twn.plausSince.filter (fun p => p.1 != k)
  { s.setFld (aTWN_PLAUS (k / 32)) ⟨k % 32, k % 32⟩ on.toNat with
    twn := { s.twn with plausSince := if on then rest ++ [(k, s.count)] else rest } }

/-- A held item of the shipped stream brings the result of a unit that falls due at an instant. -/
def bringsResult (n u : Nat) (due : Count) (d : Due) : Bool :=
  match d.act with
  | .shipped (.result isl v _ _ t) => isl.val == n && v.val == u && t == due
  | .shipped (.group isl rs t) => isl.val == n && t == due && rs.any (fun r => r.1.val == u)
  | _ => false

/-- On a standby, the own result of a unit in service falls due: a shipped one of the same due time that has not arrived is
missed (R378); it is late unless the twin turns out to be lost (R390). -/
def State.noteMissed (s : State) (n u ch q : Nat) : State :=
  if s.twin ≠ twStandby ∨ ((s.shipQuant ch q).valid ∧ (s.shipQuant ch q).due = s.count)
    ∨ s.agenda.any (bringsResult n u s.count) then s
  else { s with twn := { s.twn with missed := s.twn.missed ++ [(n, u, s.count)] } }

/-- A sequence runs for a path of a channel. -/
def State.pathRuns (s : State) (ch q : Nat) : Bool :=
  let k := islOf ch / 16
  s.seqRuns k && s.seqChan k == ch && (s.seqn k).path == q

/-- The plausibility check of a shipped result against the own unit's result with the same due time (R385). -/
def State.plausible (s : State) (ch q : Nat) : State :=
  match s.boundUnit ch q with
  | none => s
  | some u =>
    let n := islOf ch
    let x := s.mu n u
    let z := s.shipQuant ch q
    if s.twin ≠ twStandby ∨ !x.valid ∨ !z.valid ∨ x.due ≠ z.due then s
    else if s.pathRuns ch q then s.setMu n u { x with quiet := 2 ^ s.fld aCAL_CFG fCAL_CFG_MLOG, beyond := 0 }
    else if 0 < x.quiet then s.setMu n u { x with quiet := x.quiet - 1 }
    else
      let tol := if q = 0 then s.fld aTWN_PTOLV ⟨31, 0⟩ else s.fld aTWN_PTOLI ⟨31, 0⟩
      let inst := 2 * ch + q
      if (z.y.toInt - x.yDue.toInt).natAbs ≤ tol then
        let s1 := s.setMu n u { x with beyond := 0 }
        if s.plausBit ch q then (s1.setPlaus ch q false).causeOff 107 inst else s1
      else
        let s1 := s.setMu n u { x with beyond := x.beyond + 1 }
        if s.fld aTWN_PN ⟨31, 0⟩ ≤ x.beyond + 1 ∧ s.plausBit ch q = false then
          ((((s1.setPlaus ch q true).latch aTWN_LAT fTWN_LAT_PLAUS).bump aTWN_PCNT).causeOn 107 inst).raise 107 islTwin
        else s1

/-- RESULT_DUE (R134, R168 to R170, R255, R305): the unit's latest result in force; the input of the path that the unit
serves, with its offset moved towards 0, where the source is LOCAL; pairs and points of a sequence; the check of R385. -/
def execResultDue (isl : Isl) (unit : UnitNo) (f : BitVec 56) (y : BitVec 32) (flags : BitVec 8) (s : State) : Result :=
  let n := isl.val
  let u := unit.val
  let due := s.count
  let s0 := ((s.setWide (aMU_FRQ n u) 2 f.toNat).setReg (aMU_VAL n u) y).setReg (aMU_RSTAT n u)
    ((flags &&& 0x7F#8).setWidth 32)
  let s1 := s0.setMu n u { s0.mu n u with valid := true, due := due, yDue := y }
  let stale := flags.getLsbD 1
  let s2 := match s1.servesPath n u with
    | none => s1
    | some (ch, q) =>
      let z := s1.localQuant ch q
      let s3 := s1.setLocal ch q {
        y := y, flags := flags, due := due, valid := true, staleRun := if stale then z.staleRun + 1 else 0 }
      if s1.fld aLPE_SRC fLPE_SRC_SRC = 0 then
        let old := s3.offset ch q
        let new := if stale || (s3.seqn (n / 16)).sub && s3.spareServes n == some (ch, q) then old
          else towardZero old (s3.slewStep (q + 1) (s3.muHop n u))
        let s4 := if new = old then s3 else s3.setOffset ch q new
        (s4.settle50 (s4.leader ch)).feed ch q (s4.gateNumber n u due) (s4.muHop n u) flags due (due - 16384)
      else (s3.plausible ch q).noteMissed n u ch q
  .next (s2.calResult n u f due)

/-- A shipped result at the standby (R169, R378): the input of the path that the unit serves at the active. -/
def State.shippedResult (s : State) (n u : Nat) (flags : BitVec 8) (y : BitVec 32) (due : Count) : State :=
  let path := if u = 8 then s.spareServes n
    else if s.muQty n u = 1 ∨ s.muQty n u = 2 then some (s.muChan n u, s.muQty n u - 1) else none
  match path with
  | none => s
  | some (ch, q) =>
    let z := s.shipQuant ch q
    let s1 := s.setShip ch q {
      y := y, flags := flags, due := due, valid := true
      staleRun := if flags.getLsbD 1 then z.staleRun + 1 else 0 }
    if s.fld aLPE_SRC fLPE_SRC_SRC = 0 then s1
    else
      ((s1.settle50 (s1.leader ch)).plausible ch q).feed ch q (s1.gateNumber n u due) (s1.muHop n u) flags due (due - 16384)

end Sys2Proof.Machine
end

