-- ==== Sys2Proof/Machine/Scheduler.lean ====
section
/-! DEFINITION. The scheduler island (chapter 11): message queues and their commands, flags and the judge, timers, step
engines, dispatch and displacement, commits, ageing, and what its registers show. -/
namespace Sys2Proof.Machine

/-! ## Shared state -/

/-- The scheduler works: SCH and STE are both enabled (R300). -/
def State.schedOn (s : State) : Bool := s.blkOn 4 && s.blkOn 5 && !s.twinIdle

/-- A step engine. -/
def State.ste (s : State) (e : Nat) : StepUnit := Tab.get (fun _ => {}) s.sched.engs e

/-- The state with a step engine set. -/
def State.setSte (s : State) (e : Nat) (x : StepUnit) : State :=
  { s with sched := { s.sched with engs := Tab.set (fun _ => {}) s.sched.engs e x } }

/-- A queue's messages with their due times, the head first. -/
def State.queue (s : State) (q : Nat) : List (Count × BitVec 128) := Tab.get (fun _ => []) s.sched.queues q

/-- The state with a queue set. -/
def State.setQueue (s : State) (q : Nat) (x : List (Count × BitVec 128)) : State :=
  { s with sched := { s.sched with queues := Tab.set (fun _ => []) s.sched.queues q x } }

/-- A task is to be judged at the end of the present cycle (R283). -/
def State.toJudge (s : State) (n : Nat) : State :=
  if s.sched.judge.contains n then s else { s with sched := { s.sched with judge := s.sched.judge ++ [n] } }

/-- The present cycle as a number. -/
def State.cycle (s : State) : Nat := s.count.toNat / 128

/-- The number of cycles from one instant to a later one. -/
def cyclesFrom (a b : Count) : Nat := (Count.cycleStart b - Count.cycleStart a).toNat / 128

/-- A channel fires its trigger where ACH_FIRE masks a flag that an action due now has set in its task (R314); the task of a
gang is its leader's. -/
def State.channelFires (s : State) (n : Nat) (set : BitVec 64) : State :=
  (s.members (s.task n).chan).foldl (fun s c =>
    let r := s.reg (aACH_FIRE c)
    if getF r fACH_FIRE_EN = 1 ∧ (BitVec.ofNat 64 (getF r fACH_FIRE_MASK)) &&& set ≠ 0 then
      s.fireHere (Fin.ofNat 8 (getF r fACH_FIRE_TRG)) s.at c
    else s) s

/-- An action on a task's flag word at its due time (R258, R281, R283): bits cleared and set, a judgement at the end of the
cycle, and fires of its channels. -/
def State.actOnFlags (s : State) (n : Nat) (set clear : BitVec 64) : State :=
  let t := s.task n
  let now := Count.cycleStart s.count
  let was := if t.setCyc = now then t.setNow else 0
  let t1 := { t with
    f := (t.f &&& ~~~ clear) ||| set, setNow := (was &&& ~~~ clear) ||| set, setCyc := now
    hardNow := if t.setCyc = now then t.hardNow else 0 }
  ((s.setTask n t1).toJudge n).channelFires n set

/-- The task that a channel's events reach: its live task, or one in its step wait that a CANCEL has ended in this cycle
(R273, R285). -/
def State.flagTarget (s : State) (ch : Nat) : Option Nat :=
  match s.liveTask ch with
  | some n => some n
  | none => (s.tasks.find? (fun p =>
      p.2.chan == s.leader ch && p.2.stepWait && p.2.cancelCyc == some (Count.cycleStart s.count))).map (·.1)

/-- A post of event flags applied (R258, R273): discarded where the channel has no live task. -/
def State.applyFlags (s : State) (ch : Nat) (set clear : BitVec 64) : State :=
  match s.flagTarget ch with
  | some n =>
    let s1 := s.actOnFlags n set clear
    s1.setTask n { s1.task n with hardNow := ((s1.task n).hardNow &&& ~~~ clear) ||| set }
  | none => s

/-! ## Messages (R276 to R282) -/

/-- The fields of a message. -/
def mOp (m : BitVec 128) : Nat := m.toNat % 256
def mCtl (m : BitVec 128) : Nat := m.toNat / 2 ^ 8 % 256
def mTask (m : BitVec 128) : Nat := m.toNat / 2 ^ 16 % 65536
def mArg (m : BitVec 128) : Nat := m.toNat / 2 ^ 32 % 2 ^ 32
def mDue (m : BitVec 128) : Nat := m.toNat / 2 ^ 64

/-- A due time of 64 bits extended to the count nearest the present one (R276). -/
def State.extendDue (s : State) (d : Nat) : Count :=
  s.count + (BitVec.ofInt 72 ((BitVec.ofNat 64 d - s.count.setWidth 64).toInt))

/-- A refused message (R282): MSG_REJ, SCH_MREJ, FS 66. -/
def State.msgReject (s : State) (reason op task : Nat) : State :=
  ((s.latch aSCH_LAT fSCH_LAT_MSG_REJ).setReg aSCH_MREJ
    (putF (putF (fldWord fSCH_MREJ_REASON reason) fSCH_MREJ_OP op) fSCH_MREJ_TASK task)).raise 66 islScheduler

/-- The discipline of a task's group (R288): 0 SORTED, 1 TIMEOUT, 2 BOTH. -/
def State.discipline (s : State) (n : Nat) : Nat := s.fld (aSCH_GRP1 (s.task n).group) fSCH_GRP1_DISC

/-- The reason for which a message is refused at placement by its form or its group's discipline; 0 where it is not (R277,
R279, R288); what depends on the task's state is judged at the due time (R282). -/
def State.formReason (s : State) (m : BitVec 128) : Nat :=
  let op := mOp m
  let arg := mArg m
  let ctl := mCtl m
  let badArg := (op == 3 && decide (arg = 0) && decide (ctl / 2 % 4 = 0)) || (op == 7 && decide (63 < arg))
    || (op == 8 && decide (arg = 0))
  if op = 0 ∨ 8 < op ∨ 16 ≤ ctl ∨ badArg then 3
  else if op = 8 ∧ (s.task (mTask m)).state ≠ .free ∧ s.discipline (mTask m) = 1 ∧ ctl / 8 % 2 = 0 then 5
  else 0

/-- The producer code of an issuer (R278, R299). -/
def producerOf : Issuer → Nat
  | .port p => p.val
  | .forwarded p => p.val
  | .island n => if n.val = 77 then 2 else 3

/-- The issuer of a producer's messages. -/
def producerIssuer (code : Nat) : Issuer :=
  if code = 0 then .port 0 else if code = 1 then .port 1
  else if code = 2 then .island islTwin else .island islManagement

/-- The entries of the pool in use (R278). -/
def State.poolUsed (s : State) : Nat := s.sched.queues.foldl (fun a p => a + p.2.length) 0

/-- A queue is full: it holds its limit, or the pool has no free entry. -/
def State.queueFull (s : State) (q : Nat) : Bool :=
  decide (s.fld (aSCH_QCFG q) fSCH_QCFG_LIMIT ≤ (s.queue q).length) || decide (262144 ≤ s.poolUsed)

/-- The queue is defined and its producer is this one. -/
def State.queueOf (s : State) (q code : Nat) : Bool :=
  s.bit (aSCH_QCFG q) fSCH_QCFG_DEF && s.fld (aSCH_QCFG q) fSCH_QCFG_PROD == code

/-- A push lies less than 50 µs ahead (R279). -/
def State.pushLate (s : State) (m : BitVec 128) : Bool :=
  Count.before (s.extendDue (mDue m)) (s.count + 9600000#72)

/-- A transaction that the active has forwarded. -/
def isForwarded : Issuer → Bool
  | .forwarded _ => true
  | _ => false

/-- A message judged and placed (R279, R282); the lead of one that the active has forwarded was judged there. -/
def State.place (s : State) (by_ : Issuer) (q : Nat) (m : BitVec 128) : State :=
  let due := s.extendDue (mDue m)
  let rej (r : Nat) : State := s.msgReject r (mOp m) (mTask m)
  let early := match (s.queue q).getLast? with
    | some l => Count.before due l.1
    | none => false
  if s.blkOn 4 = false then rej 8
  else if s.pushLate m && !(isForwarded by_) then ((s.late 0 76 72 due s.count).latch aTBS_LATE fTBS_LATE_HOST)
  else if !(s.queueOf q (producerOf by_)) then rej 9
  else if s.formReason m ≠ 0 then rej (s.formReason m)
  else if early then rej 4
  else s.setQueue q (s.queue q ++ [(due, m)])

/-- The pushes of a producer that wait for room, oldest first. -/
def State.heldOf (s : State) (code : Nat) : List (Nat × BitVec 128) := Tab.get (fun _ => []) s.sched.held code

/-- A push of a port waits for room (R279). -/
def State.pushHeld (s : State) (p : Nat) : Bool := !(s.heldOf p).isEmpty

/-- The state with a producer's held pushes set. -/
def State.setHeld (s : State) (code : Nat) (x : List (Nat × BitVec 128)) : State :=
  { s with sched := { s.sched with held := Tab.set (fun _ => []) s.sched.held code x } }

/-- A push is held: its queue is full, or one of its producer is held before it (R279). -/
def State.pushWaits (s : State) (by_ : Issuer) (q : Nat) : Bool :=
  s.blkOn 4 && s.queueOf q (producerOf by_) && (s.queueFull q || s.pushHeld (producerOf by_))

/-- QPUSH (R279): placed, or held while the queue is full. -/
def execQpush (by_ : Issuer) (q : QueueNo) (msg : BitVec 128) (s : State) : Result :=
  if s.pushWaits by_ q.val then .next (s.setHeld (producerOf by_) (s.heldOf (producerOf by_) ++ [(q.val, msg)]))
  else .next (s.place by_ q.val msg)

/-- The held pushes of a producer to a queue that has room now are placed, their lead judged now (R279); with SCH disabled
they are refused (R300). -/
def State.placeHeld (s : State) (code q : Nat) : Nat → State
  | 0 => s
  | n + 1 =>
    match s.heldOf code with
    | [] => s
    | (k, m) :: rest =>
      if k = q ∧ (s.queueFull k = false ∨ s.blkOn 4 = false) then
        let late := s.blkOn 4 && s.pushLate m
        let others := s.sched.lateHeld.filter (fun c => c != code)
        let s1 := (s.setHeld code rest).place (producerIssuer code) k m
        ({ s1 with sched := { s1.sched with lateHeld := if late then code :: others else others } }).placeHeld code q n
      else s

/-- QPUSH_ROOM (R279): room has appeared in a queue. -/
def execQpushRoom (q : QueueNo) (s : State) : Result :=
  .next ((List.range 4).foldl (fun s code => s.placeHeld code q.val (s.heldOf code).length) s)

/-- Messages that the ingress holds. -/
def State.ingressHeld (s : State) : Nat := s.agenda.countP (fun d => match d.act with
  | .msg _ _ => true
  | _ => false)

/-- A message put among the actions of its producer due at one TBU, in ascending queue number (R281). -/
def insertMsg (d : Due) (q : Nat) : List Due → List Due
  | [] => [d]
  | x :: xs =>
    let after := match x.act with
      | .msg k _ => x.due == d.due && x.src == d.src && decide (q < k.val)
      | _ => false
    if Due.first d x || after then d :: x :: xs else x :: insertMsg d q xs

/-- The head of a queue at an instant (R280): late and discarded when the start of its due cycle has passed; moved to the
ingress when its due time lies within 2³⁰ TBU and a place is free. -/
def State.takeHead (s : State) (q : QueueNo) (now : Count) : State :=
  match s.queue q.val with
  | [] => s
  | (due, m) :: rest =>
    if Count.before (Count.cycleStart due) now then (s.setQueue q.val rest).late 0 76 72 due now
    else if Count.before (now + 1073741824#72) due ∨ 4096 ≤ s.ingressHeld then s
    else
      let src := producerIssuer (s.fld (aSCH_QCFG q.val) fSCH_QCFG_PROD)
      let s1 := s.setQueue q.val rest
      { s1 with agenda := insertMsg ⟨due, src, .msg q m⟩ q.val s1.agenda }

/-- INGRESS_TAKE (R280): the head of a queue in the present cycle. -/
def execIngressTake (q : QueueNo) (s : State) : Result := .next (s.takeHead q s.count)

/-- The queue whose head is due first: equal due times by producer, then by queue number (R280, R281). -/
def State.firstHead (s : State) : Option (Nat × Count) :=
  s.sched.queues.foldl (fun best (p : Nat × List (Count × BitVec 128)) =>
    match p.2.head?, best with
    | none, _ => best
    | some h, none => some (p.1, h.1)
    | some h, some b =>
      let rank (q : Nat) : Nat := issuerRank (producerIssuer (s.fld (aSCH_QCFG q) fSCH_QCFG_PROD))
      if Count.before h.1 b.2 || (h.1 == b.2 && decide (rank p.1 < rank b.1)) then some (p.1, h.1) else best) none

/-- Heads go to the ingress at an instant in due order, until none may (R280). -/
def State.takeHeads (s : State) (now : Count) : Nat → State
  | 0 => s
  | n + 1 =>
    match s.firstHead with
    | none => s
    | some (q, due) =>
      if Count.before (Count.cycleStart due) now
          || (!(Count.before (now + 1073741824#72) due) && decide (s.ingressHeld < 4096)) then
        (s.takeHead (Fin.ofNat 1024 q) now).takeHeads now n
      else s

/-! ## Decisions and task starts (R274, R283) -/

/-- A guard that the wait which ends now carries is disarmed (R287). -/
def Task.endWait (t : Task) : Task :=
  if t.guardArmed && !t.guardNext then { t with guardArmed := false, tdue := none } else t

/-- FS 68's cause ends when fewer than 4,096 exact guards are armed (R289, R298). -/
def State.judgeGuards (s : State) : State := if s.guards < 4096 then s.causeOff 68 0 else s

/-- The change of a branch to a step as the present cycle shows it (R251, R262, R267): the records of the walk, F, V and I. -/
def State.changeTo (s : State) (n step cause from_ : Nat) : Change :=
  let t := s.task n
  let now := Count.cycleStart s.count
  let w := s.walk t.table 9 step t.loops 0 false
  { decision := now, flags := t.f, v := (s.inputNow t.chan 0).1, i := (s.inputNow t.chan 1).1, cause := cause, from_ := from_
    dest := w.step, record := w.record, invalid := w.invalid, loops := w.loops, loopHit := w.hit
    plan := (2, 24) :: List.replicate w.met (3, 24) ++ [(4, 8), (5, 32)], commitAt := now + cyc (s.commitAllow n) }

/-- A task decided in the present cycle for a branch to a step (R262, R283), with a ready time 8 cycles on. -/
def State.decideTask (s : State) (n step cause from_ : Nat) : State :=
  let t := (s.task n).endWait
  (s.setTask n { t with
    state := .ready, readyAt := some (Count.cycleStart s.count + cyc 8), ctx := false, stored := false
    change := s.changeTo n step cause from_, step := if cause = 0 then step else t.step }).judgeGuards

/-- A task start in the present cycle (R274): refused where the channel has a live task; else bits 0 to 31 of F, but for
those that actions of this cycle set, and the loop counters are cleared. -/
def State.startTask (s : State) (n : Nat) : State :=
  let t := s.task n
  let now := Count.cycleStart s.count
  if (s.liveTask t.chan).isSome then
    let s1 := (s.setTask n { t.endWait with state := .faulted, endc := 3 }).judgeGuards
    ((s1.latch aSCH_LAT fSCH_LAT_START_REJ).raise 67 islScheduler).appendA now
      (recBytes 0x22 3 t.chan (leBytes 2 n ++ leBytes 1 t.table ++ leBytes 1 TaskState.faulted.code) now
        (leBytes 2 t.step ++ leBytes 6 0 ++ leBytes 8 t.f.toNat))
  else
    let keep := if t.setCyc = now then t.setNow else 0
    let f := (t.f &&& 0xFFFFFFFF00000000#64) ||| (keep &&& 0x00000000FFFFFFFF#64)
    let s1 := s.setTask n { t with
      f := f, loops := [0, 0, 0, 0], endc := 0, prio := t.base, aged := false, raised := false }
    { s1 with sched := { s1.sched with started := n :: s1.sched.started } }.decideTask n t.firstStep 0 0xFFFF

/-- At the end of the cycle of a task start its change takes F, V, I and the records as they stand after every action due in
the decision cycle (R267, R274). -/
def State.fixStart (s : State) (n : Nat) : State :=
  let t := s.task n
  if t.state = .ready ∧ t.change.decision = Count.cycleStart s.count ∧ t.change.cause = 0 then
    s.setTask n { t with change := s.changeTo n t.firstStep 0 0xFFFF }
  else s

/-- The wait of a task holds on its flag word (R261, R283). -/
def Task.waitHolds (t : Task) : Bool :=
  if t.stepWait then (judgeStep t.record t.f).isSome
  else if t.all then t.f &&& t.w == t.w else t.f &&& t.w != 0

/-- TASK_JUDGE (R283, R285): an ARMED task whose start wait holds starts; a step wait that finds a branch is decided; a CANCEL
that met a satisfied wait is counted. -/
def execTaskJudge (task : TaskNo) (s : State) : Result :=
  let n := task.toNat
  let t := s.task n
  let s := s.tickItem (.flags n s.count t.f)
  if s.twinIdle then .next s
  else if t.cancelCyc = some (Count.cycleStart s.count) then
    let s1 := s.setTask n { t with cancelCyc := none }
    .next (if t.waitHolds then s1.bump aSCH_RCCNT else s1)
  else if t.state = .armed then .next (if t.waitHolds then s.startTask n else s)
  else if t.state = .waiting ∧ t.stepWait ∧ t.change.startAt.isNone then
    match judgeStep t.record t.f with
    | some (step, cause) => .next (s.decideTask n step cause t.step)
    | none => .next s
  else .next s

/-! ## The commands of the messages (R277, R281, R282, R284 to R289) -/

/-- TASK_POST (R277). -/
def execTaskPost (task : TaskNo) (arg : BitVec 32) (s : State) : Result :=
  if (s.task task.toNat).state = .free then .next (s.msgReject 1 1 task.toNat)
  else .next (s.actOnFlags task.toNat (arg.setWidth 64 <<< 32) 0)

/-- TASK_CLEAR (R277, R281): a hardware set of the same bit in the cycle stands. -/
def execTaskClear (task : TaskNo) (arg : BitVec 32) (s : State) : Result :=
  let n := task.toNat
  let t := s.task n
  if t.state = .free then .next (s.msgReject 1 2 n)
  else
    let hard := if t.setCyc = Count.cycleStart s.count then t.hardNow else 0
    .next (s.actOnFlags n 0 ((arg.setWidth 64 <<< 32) &&& ~~~ hard))

/-- TASK_ARM (R277): W from ARG and CTL; the wait is judged in this cycle. -/
def execTaskArm (task : TaskNo) (ctl : BitVec 4) (arg : BitVec 32) (s : State) : Result :=
  let n := task.toNat
  let t := s.task n
  let w : BitVec 64 := (arg.setWidth 64 <<< 32) ||| (if ctl.getLsbD 1 then 1 <<< 22 else 0)
    ||| (if ctl.getLsbD 2 then 1 <<< 23 else 0)
  if t.state = .free then .next (s.msgReject 1 3 n)
  else if w = 0 then .next (s.msgReject 3 3 n)
  else if t.state ≠ .dormant then .next (s.msgReject 2 3 n)
  else .next ((s.setTask n { t with
    state := .armed, w := w, all := ctl.getLsbD 0, stepWait := false, prio := t.base, aged := false, raised := false }).toJudge n)

/-- TASK_START (R274, R277). -/
def execTaskStart (task : TaskNo) (s : State) : Result :=
  let n := task.toNat
  let t := s.task n
  if t.state = .free then .next (s.msgReject 1 4 n)
  else if t.state = .dormant ∨ t.state = .armed then .next (s.startTask n)
  else .next (s.msgReject 2 4 n)

/-- A task leaves the step engine that prepares it: the engine is free, its stretch of work ends. -/
def State.freeEngine (s : State) (e : Nat) : State :=
  let x := s.ste e
  s.setSte e { x with
    task := none, plan := [], saving := false, signalled := false
    busy := (x.start.toNat / 128, s.cycle) :: x.busy }

/-- The engine that prepares a task. -/
def State.engineOf (s : State) (n : Nat) : Option Nat := (List.range 16).find? (fun e => (s.ste e).task == some n)

/-- A task out of preparation: its engine freed. -/
def State.leaveEngine (s : State) (n : Nat) : State :=
  match s.engineOf n with
  | some e => s.freeEngine e
  | none => s

/-- TASK_CANCEL (R285, R286). -/
def execTaskCancel (task : TaskNo) (s : State) : Result :=
  let n := task.toNat
  let t := s.task n
  if t.state = .free then .next (s.msgReject 1 5 n)
  else
    let waits := t.state = .armed || (t.state = .waiting && t.change.startAt.isNone)
    let t1 := { t.endWait with
      state := .cancelled, endc := 4, readyAt := none, ctx := false, stored := false
      cancelCyc := if waits then some (Count.cycleStart s.count) else none
      left := if t.change.startAt.isSome then some t.change else t.left, change := { t.change with startAt := none } }
    if t.state = .armed then .next (((s.setTask n t1).toJudge n).judgeGuards)
    else if t.state.live then
      let due := s.boundaryAfter s.count (s.stepLead n)
      let by_ : Issuer := .island islScheduler
      let s1 := ((s.leaveEngine n).setTask n t1).judgeGuards
      let s2 := if waits then s1.toJudge n else s1
      let s3 := (s2.commitAct 73 due (.plStop by_ (chanFin t.chan))).commitAct (64 + (s.lch t.chan).eng) due
        (.lchEnWrite by_ (chanFin t.chan) false)
      .next (s3.appendA s.at (recBytes 0x22 4 t.chan (leBytes 2 n ++ leBytes 1 t.table
        ++ leBytes 1 TaskState.cancelled.code) s.at (leBytes 2 t.step ++ leBytes 6 0 ++ leBytes 8 t.f.toNat)))
    else .next (s.msgReject 2 5 n)

/-- TASK_RESET (R277). -/
def execTaskReset (task : TaskNo) (s : State) : Result :=
  let n := task.toNat
  let t := s.task n
  if t.state = .free then .next (s.msgReject 1 6 n)
  else if t.state.live then .next (s.msgReject 2 6 n)
  else .next ((s.setTask n { t with
    state := .dormant, f := 0, w := 0, loops := [0, 0, 0, 0], endc := 0, tdue := none, sdue := none, delayArmed := false
    guardArmed := false, guardNext := false, cancelCyc := none, setNow := 0 }).judgeGuards)

/-- TASK_PRIO (R277). -/
def execTaskPrio (task : TaskNo) (arg : BitVec 32) (s : State) : Result :=
  let n := task.toNat
  let t := s.task n
  if t.state = .free then .next (s.msgReject 1 7 n)
  else if 63 < arg.toNat then .next (s.msgReject 3 7 n)
  else .next (s.setTask n { t with base := arg.toNat, prio := if t.raised then t.prio else arg.toNat })

/-- The expiry that the discipline gives an instant (R288). -/
def State.placeExpiry (s : State) (n : Nat) (guard : Bool) (t : Count) : Count :=
  if guard && s.discipline n != 0 then t
  else Count.gridFrom t 0 (s.fld (aSCH_GRP1 (s.task n).group) fSCH_GRP1_TICK * 192000)

/-- TASK_TIMER (R284, R287 to R289): E_DELAY and E_WTO are cleared and the task timer armed; an exact guard beyond 4,096 is
refused. -/
def execTaskTimer (task : TaskNo) (guard : Bool) (arg : BitVec 32) (s : State) : Result :=
  let n := task.toNat
  let t := s.task n
  let exact := guard && s.discipline n != 0
  let own := if t.guardArmed && exact then 1 else 0
  if t.state = .free then .next (s.msgReject 1 8 n)
  else if arg = 0 then .next (s.msgReject 3 8 n)
  else if s.discipline n = 1 ∧ guard = false then .next (s.msgReject 5 8 n)
  else if !(t.state = .armed || t.state.live) then .next (s.msgReject 2 8 n)
  else if exact && decide (4096 + own ≤ s.guards) then
    .next ((((s.msgReject 6 8 n).latch aSCH_LAT fSCH_LAT_TMR_FULL).causeOn 68 0).raise 68 islScheduler)
  else
    let due := s.placeExpiry n guard (s.at + BitVec.ofNat 72 (arg.toNat * 192000))
    let prep := t.state = .ready || t.state = .running || t.state = .staged
      || (t.state = .waiting && t.change.startAt.isSome)
    let s1 := s.actOnFlags n 0 ((1 <<< 22) ||| (1 <<< 23))
    let s2 := s1.setTask n { s1.task n with
      delayArmed := !guard, guardArmed := guard, guardNext := guard && prep, tdue := some due }
    .next (s2.judgeGuards.hold (.island islScheduler) due (.cmd (.taskTimerExpiry task)))

/-- TASK_TIMER_EXPIRY (R284, R287): E_DELAY or E_WTO sets. -/
def execTaskTimerExpiry (task : TaskNo) (s : State) : Result :=
  let n := task.toNat
  let t := s.task n
  match t.tdue with
  | some d =>
    if Count.upto d s.at then
      let s1 := s.setTask n { t with tdue := none, delayArmed := false, guardArmed := false, guardNext := false }
      .next (s1.judgeGuards.actOnFlags n (if t.guardArmed then 1 <<< 23 else 1 <<< 22) 0)
    else .next s
  | none => .next s

/-- STEP_TIMEOUT (R261): E_TIMER sets at S + TIMEOUT. -/
def execStepTimeout (task : TaskNo) (s : State) : Result :=
  let n := task.toNat
  let t := s.task n
  match t.sdue with
  | some d =>
    if Count.upto d s.at then .next ((s.setTask n { t with sdue := none }).actOnFlags n eTimer 0) else .next s
  | none => .next s

/-! ## Step engines (R290 to R293) -/

/-- The phases that remain of a plan after a number of cycles. -/
def planRest : List (Nat × Nat) → Nat → List (Nat × Nat)
  | [], _ => []
  | (p, c) :: r, k => if k < c then (p, c - k) :: r else planRest r (k - c)

/-- A phase from FETCH onward ends exactly after a number of cycles: a yield point (R290). -/
def yieldsAt : List (Nat × Nat) → Nat → Bool
  | [], _ => false
  | (p, c) :: r, k => if k < c then false else if k = c then decide (2 ≤ p) else yieldsAt r (k - c)

/-- What remains of an engine's work now. -/
def State.steRest (s : State) (e : Nat) : List (Nat × Nat) := planRest (s.ste e).plan (cyclesFrom (s.ste e).start s.count)

/-- Engines whose SAVE has ended are free, and their tasks READY again (R292). -/
def State.settle (s : State) : State :=
  (List.range 16).foldl (fun s e =>
    let x := s.ste e
    match x.task with
    | some n =>
      if x.saving && (s.steRest e).isEmpty then (s.freeEngine e).setTask n { s.task n with state := .ready } else s
    | none => s) s

/-- A task is dispatchable now. -/
def State.dispatchable (s : State) (n : Nat) : Bool :=
  (s.task n).state == .ready && (match (s.task n).readyAt with
    | some r => Count.upto r s.count
    | none => false)

/-- A task's affinity set includes a step engine (R291). -/
def State.eligible (s : State) (n e : Nat) : Bool := (s.reg (aSCH_ASET (s.task n).aset)).getLsbD e

/-- The order of dispatch (R291): priority in force, then ready time, then number. -/
def State.goesFirst (s : State) (a b : Nat) : Bool :=
  let x := s.task a
  let y := s.task b
  decide (x.prio < y.prio) || (x.prio == y.prio && (Count.before (x.readyAt.getD 0) (y.readyAt.getD 0)
    || (x.readyAt == y.readyAt && decide (a < b))))

/-- The best task of a list. -/
def State.bestTask (s : State) : List Nat → Option Nat
  | [] => none
  | n :: ns =>
    match s.bestTask ns with
    | some m => if s.goesFirst n m then some n else some m
    | none => some n

/-- The dispatchable tasks that a step engine may take. -/
def State.readyFor (s : State) (e : Nat) : List Nat :=
  (s.tasks.filter (fun p => s.dispatchable p.1 && s.eligible p.1 e)).map (·.1)

/-- TASK_DISPATCH (R264, R290, R291): a free engine takes the best task; LOOP counters of its change take effect; the
priority in force returns to BASE (R295). -/
def execTaskDispatch (eng : StepEng) (s : State) : Result :=
  let e := eng.val
  let s0 := s.settle
  if (s0.ste e).task.isSome || !s0.schedOn then .next s0
  else match s0.bestTask (s0.readyFor e) with
    | none => .next s0
    | some n =>
      let t := s0.task n
      let wait := cyclesFrom (t.readyAt.getD s.count) s.count
      let t1 := { t with
        state := .running, prio := t.base, raised := false, lwait := min 0xFFFF wait, ctx := false, stored := false
        loops := t.change.loops
        step := t.change.dest }
      let x := s0.ste e
      let s1 := (s0.setTask n t1).setSte e { x with
        task := some n, start := Count.cycleStart s.count, plan := (1, if t.ctx then 16 else 8) :: t.change.plan
        saving := false, signalled := false, waits := (s.cycle, wait) :: x.waits }
      .next (s1.bump (aSTE_DISP e))

/-- A task displaced now (R292, R293): it keeps what remains of its work; `store` says whether its context takes an entry of
the store. -/
def State.displace (s : State) (e n : Nat) (store : Bool) : State :=
  let t := s.task n
  let rest := (s.steRest e).filter (fun p => p.1 != 1)
  let x := s.ste e
  let s1 := s.setTask n { t with ctx := true, stored := store, change := { t.change with plan := rest } }
  let now := Count.cycleStart s.count
  (s1.setSte e { x with plan := [(6, 8)], start := now, saving := true, signalled := false
                        busy := (x.start.toNat / 128, s.cycle) :: x.busy }).bump (aSTE_DISPL e)

/-- The saved contexts of the store (R293). -/
def State.ctxUsed (s : State) : Nat := (s.tasks.filter (fun p => p.2.stored)).length

/-- The engine whose task has the lowest priority among the eligible engines not already being displaced. -/
def State.victim (s : State) (n : Nat) : Option Nat :=
  let prio (e : Nat) : Nat := match (s.ste e).task with
    | some m => (s.task m).prio
    | none => 0
  ((List.range 16).filter (fun e => s.eligible n e && (s.ste e).task.isSome && !(s.ste e).signalled
      && !(s.ste e).saving)).foldl (fun best e =>
    match best with
    | some b => if prio b < prio e then some e else some b
    | none => some e) none

/-- A task that has become dispatchable, or is raised, displaces a running one where no eligible engine is free (R292,
R293). -/
def State.tryDisplace (s : State) (n : Nat) : State :=
  let s0 := s.settle
  if (List.range 16).any (fun e => s0.eligible n e && (s0.ste e).task.isNone) then s0
  else match s0.victim n with
    | none => s0
    | some e =>
      match (s0.ste e).task with
      | none => s0
      | some m =>
        if (s0.task m).prio ≤ (s0.task n).prio then s0
        else if (s0.reg aSCH_BAND).getLsbD ((s0.task n).prio / 8) && decide (s0.ctxUsed < 64) then s0.displace e m true
        else s0.setSte e { s0.ste e with signalled := true }

/-- YIELD_POINT (R290, R292): a signalled engine at the end of a phase saves its task; work that is done is not
displaced. -/
def execYieldPoint (eng : StepEng) (s : State) : Result :=
  let e := eng.val
  let x := s.ste e
  match x.task with
  | some n =>
    if x.signalled && yieldsAt x.plan (cyclesFrom x.start s.count) && !(s.steRest e).isEmpty then
      .next (s.displace e n false)
    else .next s
  | none => .next s

/-! ## Commits (R262, R294) -/

/-- STEP_COMMIT (R262, R294): a staged change is committed in its commit cycle. -/
def execStepCommit (task : TaskNo) (s : State) : Result :=
  let n := task.toNat
  let t := s.task n
  if t.state = .staged ∧ Count.upto t.change.commitAt s.count ∧ s.twinIdle = false then .next (s.commit n) else .next s

/-- STAGE_DONE (R290, R294): the task is STAGED and its engine free; where its commit cycle has passed, its entry is issued
now, late. -/
def execStageDone (eng : StepEng) (s : State) : Result :=
  let e := eng.val
  let x := s.ste e
  match x.task with
  | some n =>
    if !x.saving && (s.steRest e).isEmpty then
      let t := s.task n
      let s1 := (s.freeEngine e).setTask n { t with state := .staged }
      if Count.before t.change.commitAt (Count.cycleStart s.count) then
        .next (((s1.bump (aSTE_LATE e)).lateInternal 1 72 72 t.change.commitAt s.count).commit n)
      else .next s1
    else .next s
  | none => .next s

/-! ## The step start (R263, R265 to R267, R275) -/

/-- A chain target starts with the END step start as its decision cycle (R275). -/
def State.chainTo (s : State) (n : Nat) : State :=
  let c := (s.task n).chain
  if c = 0xFFFF then s
  else if (s.task c).state = .dormant ∨ (s.task c).state = .armed then s.startTask c
  else s.msgReject 7 0 c

/-- The scheduler's part of a step start (R263, order 6): bits 16 to 21, and 0 to 15 with CLRHW, are cleared, E_LOOP sets,
E_TIMER is armed, the step is in force and its wait begins. A flag other than a compare's that an action due at the same TBU
has set stays. -/
def State.enterStep (s : State) (n : Nat) (start : Count) : State :=
  let t := s.task n
  let r := t.change.record
  let keep := (if t.setCyc = Count.cycleStart s.count then t.setNow else 0) &&& ~~~ 0xF0000#64
  let clear : BitVec 64 := (if (rFlags r).testBit 0 then 0x3FFFFF#64 else 0x3F0000#64) &&& ~~~ keep
  let s1 := s.actOnFlags n (if t.change.loopHit then eLoop else 0) clear
  let t1 := s1.task n
  let sdue := if rTimeout r = 0 then none else some (start + BitVec.ofNat 72 (rTimeout r * 192000000))
  let s2 := s1.setTask n { t1 with
    sdue := sdue, w := stepWait r, all := false, stepWait := true, record := r, aged := false, raised := false
    guardNext := false
    change := { t1.change with startAt := none } }
  match sdue with
  | some d => s2.hold (.island islScheduler) d (.cmd (.stepTimeout (BitVec.ofNat 16 n)))
  | none => s2

/-- The actions of a change at its step start, and what it raises (R263, R265, R268). -/
def State.startChange (s : State) (n : Nat) (c : Change) (start : Count) : State :=
  let s1 := s.startActions n c start
  if c.invalid then s1.raise 64 islScheduler else if c.cause = 6 then s1.raise 65 islScheduler else s1

/-- A task ends at a step start (R253, R265, R266). -/
def State.endTask (s : State) (n : Nat) (st : TaskState) (endc : Nat) : State :=
  let t := s.task n
  (s.setTask n { t.endWait with
    state := st, endc := endc, change := { t.change with startAt := none }, stepWait := false }).judgeGuards

/-- The step start of a change that was committed before a CANCEL ended its task (R286): the loop engine's and the acquisition
island's actions alone remain. -/
def State.startLeft (s : State) (n : Nat) : State :=
  match (s.task n).left with
  | some c =>
    if Count.upto (c.startAt.getD s.count) s.count then
      let s1 := s.startChange n c (c.startAt.getD s.count)
      s1.setTask n { s1.task n with left := none }
    else s
  | none => s

/-- STEP_START (R263 to R267, R275): at the step start of a committed change. An END step has the actions of a RUN step and
then ends its task. -/
def execStepStart (task : TaskNo) (s : State) : Result :=
  let n := task.toNat
  let s0 := s.startLeft n
  let c := (s0.task n).change
  match c.startAt with
  | none => .next s0
  | some start =>
    if Count.before s.count start then .next s0
    else
      let s1 := s0.startChange n c start
      if c.invalid then .next (s1.endTask n .faulted 2)
      else if rMode c.record = mEnd then .next (((s1.enterStep n start).endTask n .done 1).chainTo n)
      else .next (s1.enterStep n start)

/-! ## Ageing (R295) -/

/-- A READY task has waited beyond its group's limit. -/
def State.overAge (s : State) (n : Nat) : Bool :=
  let t := s.task n
  let age := s.fld (aSCH_GRP1 t.group) fSCH_GRP1_AGE
  t.state == .ready && !t.aged && age != 0 && (match t.readyAt with
    | some r => Count.before (r + BitVec.ofNat 72 (age * 192000)) s.count
    | none => false)

/-- TASK_AGEING (R292, R295): the priority in force rises to UPRIO. -/
def execTaskAgeing (task : TaskNo) (s : State) : Result :=
  let n := task.toNat
  if s.overAge n then
    let t := s.task n
    let s1 := ((s.setTask n { t with prio := s.fld aSCH_BAND fSCH_BAND_UPRIO, aged := true, raised := true }).bump
      aSCH_AGECNT).latch
      aSCH_LAT fSCH_LAT_AGED
    .next ((s1.raise 69 islScheduler).tryDisplace n)
  else .next s

/-! ## Disable and reset (R269, R300) -/

/-- A disable or a block reset of SCH or STE: bound tasks DORMANT and cleared, queues, ingress, contexts and timers
emptied; a push that waited for room is judged anew at the end of the cycle. -/
def State.schedReset (s : State) : State :=
  let msg (d : Due) : Bool := match d.act with
    | .msg _ _ => true
    | _ => false
  let s1 := { s with
    sched := { held := s.sched.held, engs := s.sched.engs.map (fun (p : Nat × StepUnit) =>
      (p.1, ({ p.2 with task := none, plan := [], saving := false, signalled := false } : StepUnit))) }
    agenda := s.agenda.filter (fun d => !(msg d)) }
  let s2 := s.tasks.foldl (fun s p =>
    if p.2.state = .free then s
    else s.setTask p.1 { p.2 with
      state := .dormant, prio := p.2.base, aged := false, raised := false, ctx := false, stored := false, f := 0, w := 0
      all := false, left := none, change := {}
      stepWait := false, delayArmed := false, guardArmed := false, guardNext := false, endc := 0, loops := [0, 0, 0, 0]
      tdue := none, sdue := none, readyAt := none, cancelCyc := none, setNow := 0 }) s1
  s2.causeOff 68 0

/-- The step engines' figures of R297 start anew: a block reset of STE (R40). -/
def State.clearFigures (s : State) : State := { s with sched := { s.sched with engs := [] } }

/-! ## Views (R297, R299) -/

/-- SCH_STAT, SCH_POOL and SCH_GUARDS as they read. -/
def State.schStat (s : State) : Word :=
  putF (fldWord fSCH_STAT_LIVE s.liveTasks.length) fSCH_STAT_READY
    ((s.settle.tasks.filter (fun p => s.settle.dispatchable p.1)).length)
def State.schPool (s : State) : Word := fldWord fSCH_POOL_FREE (262144 - s.poolUsed)
def State.schGuards (s : State) : Word := fldWord fSCH_GUARDS_ARMED s.guards

/-- SCH_TV_STATE, SCH_TV_F, SCH_TV_W and SCH_TV_WAIT of a task. -/
def State.tvState (s : State) (n : Nat) : Word :=
  let t := s.settle.task n
  putF (putF (putF (putF (putF (putF (fldWord fSCH_TV_STATE_STATE t.state.code) fSCH_TV_STATE_PRIO t.prio)
    fSCH_TV_STATE_AGED t.aged.toNat) fSCH_TV_STATE_ALL t.all.toNat) fSCH_TV_STATE_GROUP t.group) fSCH_TV_STATE_ASET t.aset)
    fSCH_TV_STATE_STEP t.step
def State.tvWait (s : State) (n : Nat) : Word :=
  let t := s.settle.task n
  if t.state = .ready then
    BitVec.ofNat 32 (min 0xFFFFFFFF (match t.readyAt with
      | some r => if Count.upto r s.count then cyclesFrom r s.count else 0
      | none => 0))
  else BitVec.ofNat 32 t.lwait

/-- STE_STAT and STE_DEPTH as they read. -/
def State.steStat (s : State) (e : Nat) : Word :=
  let s0 := s.settle
  let x := s0.ste e
  match x.task with
  | some n =>
    let ph := match s0.steRest e with
      | (p, _) :: _ => p
      | [] => 5
    putF (putF (fldWord fSTE_STAT_PHASE ph) fSTE_STAT_SIGNALLED x.signalled.toNat) fSTE_STAT_TASK n
  | none => 0
def State.steDepth (s : State) (e : Nat) : Word := fldWord fSTE_DEPTH_DEPTH ((s.settle.readyFor e).length)

/-- The latest complete window in cycles: its first cycle and its length (R297). -/
def State.window (s : State) : Nat × Nat :=
  let n := 2 ^ s.fld aSCH_WIN fSCH_WIN_EXP
  ((s.cycle / n - 1) * n, if s.cycle < n then 0 else n)

/-- The dispatch waits of an engine in the window. -/
def State.steWaits (s : State) (e : Nat) : List Nat :=
  let w := s.window
  ((s.ste e).waits.filter (fun p => decide (w.1 ≤ p.1) && decide (p.1 < w.1 + w.2))).map (·.2)

/-- STE_WMAX, STE_WMEAN and STE_BUSY as they read. -/
def State.steWmax (s : State) (e : Nat) : Word := BitVec.ofNat 32 (min 0xFFFFFFFF ((s.steWaits e).foldl max 0))
def State.steWmean (s : State) (e : Nat) : Word :=
  let ws := s.steWaits e
  BitVec.ofNat 32 (if ws.isEmpty then 0 else min 0xFFFFFFFF (ws.foldl (· + ·) 0 * 16 / ws.length))
def State.steBusy (s : State) (e : Nat) : Word :=
  let w := s.window
  let x := s.ste e
  let now := if x.task.isSome then [(x.start.toNat / 128, s.cycle)] else []
  let sum := (now ++ x.busy).foldl (fun a p => a + (min p.2 (w.1 + w.2) - max p.1 w.1)) 0
  BitVec.ofNat 32 (if w.2 = 0 then 0 else min 0xFFFF (sum * 65536 / w.2))

end Sys2Proof.Machine
end

