-- ==== Sys2Proof/Machine/Views.lean ====
section
/-! DEFINITION. What registers read as (R42): the stored word, or, for a register that shows other state, that state. -/
namespace Sys2Proof.Machine

/-! ## Fault collection (chapter 18) -/

/-- The nibble of a source in the reaction table: reaction in [2:0], ERR_N in [3] (R459). -/
def State.reactNibble (s : State) (n : Nat) : Nat := ((s.reg (aFLT_REACT (n / 8))).toNat >>> (4 * (n % 8))) % 16

/-- The reaction code of a source. -/
def State.reaction (s : State) (n : Nat) : Nat := s.reactNibble n % 8

/-- The sticky bit of a source. -/
def State.sticky (s : State) (n : Nat) : Bool := (s.reg (aFLT_STICKY (n / 32))).getLsbD (n % 32)

/-- ERR_N is driven low (R457): a sticky bit with its ERR_N bit is 1, or it is held low through a reset (R455, R509). -/
def State.errN (s : State) : Bool :=
  s.power.errnHeld || s.bit aGLB_RSTCAUSE fGLB_RSTCAUSE_LIMITED
    || (List.range 128).any (fun n => s.sticky n && decide (8 ≤ s.reactNibble n))

/-- FLT_STAT as it reads (R459). -/
def State.fltStat (s : State) : Word :=
  putF (putF (putF (fldWord fFLT_STAT_ERRN s.errN.toNat) fFLT_STAT_PBRST (s.fld aFLT_PEND fFLT_PEND_BVALID))
    fFLT_STAT_PTRAP (s.fld aFLT_PEND fFLT_PEND_TVALID)) fFLT_STAT_PINT (s.fld aFLT_PEND fFLT_PEND_IVALID)

/-- FLT_CAUSE as it reads (R459): the sources whose cause persists. -/
def State.fltCause (s : State) (w : Nat) : Word :=
  (List.range 32).foldl (fun x i => if s.causeStands (32 * w + i) then x ||| (1#32 <<< i) else x) 0

/-! ## Time base and links -/

/-- The actions of a port that wait in its due queue (R76). -/
def State.dueQueue (s : State) (p : Nat) : Nat :=
  s.agenda.countP (fun d => match d.src, d.act with
    | .port _, .read _ _ => false
    | .island _, .cmd (.regWrite (.port q) _ _) => q.val == p
    | .island _, .cmd (.bitAliasWrite (.port q) _ _) => q.val == p
    | .port q, _ => q.val == p
    | _, _ => false)

/-- TBS_HOLD as it reads: milliseconds of the holdover in progress, else of the latest one. -/
def State.tbsHold (s : State) : Word :=
  match s.tbs.holdFrom with
  | some f => BitVec.ofNat 32 (min 0xFFFFFFFF ((s.count - f).toNat / 192000000))
  | none => s.reg aTBS_HOLD

/-- The shipped stream's share of the col link's character slots over the latest 2²⁰ cycles, in 2⁻¹⁶ (R431): 16 columns are
sent in 15 cycles. -/
def State.shipShare (s : State) : Nat :=
  let cols := s.twn.shipCols.foldl (fun n p => if Count.before s.count (p.1 + 0x8000000) then n + p.2 else n) 0
  min 0xFFFF (cols * 15 / 256)

/-- LP_CRD as it reads: the frames that may still be sent on VC 0 to 3. -/
def State.lpCrd (s : State) (p : Nat) : Word :=
  (List.range 4).foldl (fun w vc => w ||| BitVec.ofNat 32 ((s.link p).credit vc * 2 ^ (8 * vc))) 0

/-! ## The control-store images (R215, R216) -/

/-- A word of a SHA-384 digest in registers: bytes 0 to 3 in word 0, least significant byte first. -/
def digestWord (d : BitVec 384) (k : Nat) : Word := BitVec.ofNat 32 (fieldAt (digestBytes d) (4 * k) 4)

/-! ## All registers -/

/-- A loop register of a channel as it reads (R188): 0 without a LAW record, and for a gang member other than the leader but
for LCH_STAT. -/
def State.readLch (s : State) (c o a : Nat) : Word :=
  let x := s.lch c
  if s.follower c then (if o = 0x14 then putF (s.reg a) fLCH_STAT_MEMBER 1 else 0)
  else if !x.bound then 0
  else if o = 0x20 then BitVec.ofNat 32 (fieldAt x.area 0 4)
  else if o = 0x24 then BitVec.ofNat 32 (fieldAt x.area 4 2)
  else if o = 0x28 then BitVec.ofNat 32 (fieldAt x.area 8 4)
  else if o = 0x2C then BitVec.ofNat 32 (fieldAt x.area 12 2)
  else s.reg a

/-- A register of a step engine as it reads (R299). -/
def State.readSte (s : State) (e o a : Nat) : Word :=
  if o = 0 then s.steStat e else if o = 4 then s.steDepth e else if o = 8 then s.steWmax e
  else if o = 0xC then s.steWmean e else if o = 0x10 then s.steBusy e else s.reg a

/-- A register of a pin island as it reads. -/
def State.readIsl (s : State) (n o a : Nat) : Word :=
  if 0x400 ≤ o ∧ o < 0x740 then
    let p := (o - 0x400) / 0x20
    if o % 0x20 = 8 then putF (putF (s.reg a) fPIN_STAT_OUT (s.pinOut n p).toNat) fPIN_STAT_HELD (s.pinHeld n p).toNat
    else if o % 0x20 = 0x14 then s.stpStat n p
    else s.reg a
  else if 0xC00 ≤ o ∧ o < 0xE40 ∧ o % 0x40 = 0x3C then s.muStat n ((o - 0xC00) / 0x40)
  else s.reg a

/-- The register at an address as a read of port `p` returns it (R42). -/
def State.readReg (s : State) (p a : Nat) : Word :=
  let b := a / 0x100000
  let o := a % 0x100000
  if o = 12 then (if s.reg (a - 4) = 0 then 0 else s.reg a)
  else if 64 ≤ b then s.readIsl (b - 64) o a
  else if b = 1 then
    if a = aTBS_NOW then s.count.setWidth 32
    else if a = aTBS_NOW + 4 then (s.count >>> 32).setWidth 32
    else if a = aTBS_NOW + 8 then (s.count >>> 64).setWidth 32
    else if a = aTBS_STATE then putF (s.reg a) fTBS_STATE_MASTER s.isMaster.toNat
    else if a = aTBS_HOLD then s.tbsHold
    else if a = aTBS_DUEQ then putF (fldWord fTBS_DUEQ_PORT0 (s.dueQueue 0)) fTBS_DUEQ_PORT1 (s.dueQueue 1)
    else s.reg a
  else if b = 2 then
    if a = aFLT_STAT then s.fltStat
    else if 0x50 ≤ o ∧ o < 0x60 then s.fltCause ((o - 0x50) / 4)
    else s.reg a
  else if b = 4 then
    let t := s.fld (aSCH_TSEL p) fSCH_TSEL_TASK
    if a = aSCH_STAT then s.schStat
    else if a = aSCH_POOL then s.schPool
    else if a = aSCH_GUARDS then s.schGuards
    else if a = aSCH_TV_STATE then s.tvState t
    else if a = aSCH_TV_F then (s.task t).f.setWidth 32
    else if a = aSCH_TV_F + 4 then ((s.task t).f >>> 32).setWidth 32
    else if a = aSCH_TV_W then (s.task t).w.setWidth 32
    else if a = aSCH_TV_W + 4 then ((s.task t).w >>> 32).setWidth 32
    else if a = aSCH_TV_WAIT then s.tvWait t
    else if 0x2000 ≤ o ∧ o < 0x4000 ∧ o % 8 = 4 then BitVec.ofNat 32 (s.queue ((o - 0x2000) / 8)).length
    else s.reg a
  else if b = 5 then
    if a = aSTE_CTX then fldWord fSTE_CTX_SAVED s.ctxUsed
    else if 0x100 ≤ o ∧ o < 0x300 then s.readSte ((o - 0x100) / 0x20) (o % 0x20) a
    else s.reg a
  else if b = 6 then
    if 0x80 ≤ o ∧ o < 0xB0 then digestWord s.csDig ((o - 0x80) / 4)
    else if 0x100 ≤ o ∧ o < 0x300 ∧ o % 0x40 = 0 then s.engStat ((o - 0x100) / 0x40)
    else if 0x100 ≤ o ∧ o < 0x300 ∧ o % 0x40 = 4 then s.engLoad ((o - 0x100) / 0x40)
    else if 0x4000 ≤ o ∧ o < 0x8000 then s.readLch ((o - 0x4000) / 0x40) (o % 0x40) a
    else s.reg a
  else if a = aSEG_RUN then s.segRun
  else if b = 10 ∧ 0x200 ≤ o ∧ o < 0x280 ∧ o % 0x20 = 4 then
    BitVec.ofNat 32 (s.heldRecords ((o - 0x200) / 0x20))
  else if b = 10 ∧ 0x100 ≤ o ∧ o < 0x200 ∧ o % 0x20 = 8 then
    let t := (o - 0x100) / 0x20
    if s.deciding t then putF (s.reg a) fTRG_STAT_STATE 2 else s.reg a
  else if b = 12 then
    if a = aHBM_ELOG_0 then s.elogWord 0
    else if a = aHBM_ELOG_1 then s.elogWord 1
    else if a = aHBM_ELOG_T then s.elogWord 2
    else if a = aHBM_ELOG_T + 4 then s.elogWord 3
    else if 0x200 ≤ o ∧ o < 0x2A0 ∧ o % 0x10 = 8 then s.hbmBw ((o - 0x200) / 0x10)
    else if a = aHBM_STAT then putF (s.reg a) fHBM_STAT_INFLT s.hbmInflight
    else if 0x400 ≤ o ∧ o < 0x500 ∧ o % 0x10 = 0 then
      putF (s.reg a) fHBM_PC_DEPTH_DEPTH (s.hbmQueue ((o - 0x400) / 0x10)).length
    else if 0x400 ≤ o ∧ o < 0x500 ∧ o % 0x10 = 8 then s.hbmHits ((o - 0x400) / 0x10)
    else s.reg a
  else if b = 13 then
    if a = aLP_STAT 0 then putF (s.reg a) fLP_STAT_UNACK (s.link 0).held.length
    else if a = aLP_STAT 1 then putF (s.reg a) fLP_STAT_UNACK (s.link 1).held.length
    else if a = aLP_CRD 0 then s.lpCrd 0
    else if a = aLP_CRD 1 then s.lpCrd 1
    else if a = aLC_STAT then putF (s.reg a) fLC_STAT_SHARE s.shipShare
    else s.reg a
  else s.reg a

end Sys2Proof.Machine
end

