-- ==== Sys2Proof/Machine/Access.lean ====
section
/-! DEFINITION. Host accesses by address space (chapter 2): REG, SRAM, HBM and SPILL reads and writes, their statuses
(R47), rights (R436), the refusal on a standby (R381), shadows (R46) and due times (R41, R75). -/
namespace Sys2Proof.Machine

/-- The status codes of R47. -/
abbrev stOk : Nat := 0
abbrev stUnmapped : Nat := 1
abbrev stUnaligned : Nat := 2
abbrev stNarrow : Nat := 3
abbrev stReadOnly : Nat := 4
abbrev stRole : Nat := 5
abbrev stLate : Nat := 6
abbrev stUncorrectable : Nat := 7

/-- The space selector and offset of a host address (R28). -/
def hostSpace (a : BitVec 48) : Nat := a.toNat / 2 ^ 45
def hostOffset (a : BitVec 48) : Nat := a.toNat % 2 ^ 45

/-- The size of a space in bytes; 0 for a reserved selector (R28). -/
def spaceSize (sp : Nat) : Nat :=
  if sp = 0 then 0x10000000 else if sp = 1 then 0x6000000 else if sp = 2 then 0x600000000
  else if sp = 3 then 256000000000 else 0

/-- An access refused with a status (R47): ACC_REJECT in the addressed block or GLB, and FS 4 where its rule raises it
(R29, R30, R31, R43, R45, R23, R381). BLK_REJAT records a write alone (R34); for an address that lies in no block its
OFFSET is the address modulo 1 MiB, and 0 for a memory space (DESIGN CHOICE, log entry 66). -/
def State.refuse (s : State) (by_ : Issuer) (a : Nat) (inReg write fs4 : Bool) : State :=
  let t := if inReg then a else 0
  let s1 := if write then s.reject by_ .acc t else s.rejLatch .acc t
  if fs4 then s1.raise 4 islLink else s1

/-- An access of a host address refused before its space is looked at (R409, R417), with no FS 4. -/
def State.refuseHost (s : State) (p : Port) (a : BitVec 48) (write : Bool) : State :=
  s.refuse (.port p) (hostOffset a) (hostSpace a == 0) write false

/-- The bit of a block in the POLICY masks: 0 for ISL, else its BLK_ID.CODE (R435). -/
def policyBit (b : Nat) : Nat := if 64 ≤ b then 0 else ((blkId b).toNat >>> 16) % 32

/-- A register address is a unit coefficient register (R137): MU_F0 to MU_C2. -/
def coefReg (a : Nat) : Bool :=
  let o := a % 0x100000
  decide (64 ≤ a / 0x100000) && decide (0xC00 ≤ o) && decide (o < 0xE40) && decide (0x1C ≤ o % 0x40) && decide (o % 0x40 < 0x3C)

/-- The writes that rules reserve to roles (R137, R359, R363, R370, R439, R511): coefficient registers, CAL_CMD and the
registers of the sequencers to the CALIBRATOR; STR_CMD and GLB_RSTCMD to the ENGINEER and the SECURITY OFFICER. -/
def roleReserved (role a : Nat) : Bool :=
  if coefReg a || a == aCAL_CMD || (a / 0x100000 == 15 && decide (0x100 ≤ a % 0x100000) && decide (a % 0x100000 < 0x200)) then
    role == roleCalibrator
  else if a = aSTR_CMD ∨ a = aGLB_RSTCMD then role == roleEngineer || role == roleSecurity
  else true

/-- A role may read, or write, the register at an address (R436, R534). With no structure in force the CALIBRATOR writes
CAL and the unit coefficient registers; the SECURITY OFFICER keeps the SEC block whatever POLICY says. -/
def State.mayReg (s : State) (role a : Nat) (write : Bool) : Bool :=
  let r := s.rights role
  let b := a / 0x100000
  let reg := (regTarget a).1
  let ok := (if write then r.wr else r.rd).getLsbD (policyBit b) || (role == roleSecurity && b == 18)
  ok && (!write || (roleReserved role reg
    && (s.strInForce || role != roleCalibrator || decide (b < 64) || coefReg reg)))

/-- One 32-bit word of REG space as a port reads it (R42, R46, R49): a view through the shadow for the higher words of a
multi-word quantity. A higher word that the port reads before it has read the least significant one is the word as it
stands (DESIGN CHOICE, log entry 66). -/
def State.portRead (s : State) (p : Nat) (a : Nat) : Word × State :=
  match regTarget a with
  | (r, some b) => ((if (s.readReg p r).getLsbD b then 1 else 0), s)
  | (r, none) =>
    match rowAt r with
    | some (row, _, k) =>
      if 1 < row.words then
        if k = 0 then
          let put (t : State) (j : Nat) : State :=
            let w := s.readReg p (r + 4 * (j + 1))
            { t with shadow := Tab.set (fun _ => none) t.shadow (p * 2 ^ 28 + (r + 4 * (j + 1))) (some w) }
          (s.readReg p r, (List.range (row.words - 1)).foldl put s)
        else ((Tab.get (fun _ => none) s.shadow (p * 2 ^ 28 + r)).getD (s.readReg p r), s)
      else (s.readReg p r, s)
    | none => (s.readReg p r, s)

/-- A REG offset is mapped: a register or an alias word of one (R33, R48). -/
def regMapped (a : Nat) : Bool :=
  match regTarget a with
  | (r, some _) => assigned r
  | (r, none) => assigned r

/-- The shape of a REG access of n bytes (R43 to R45): its refusal, if any. An access of 3 bytes, or of more than 4 bytes and
no multiple of 4, for which the rules give no case, is UNALIGNED (DESIGN CHOICE, log entry 66). -/
def regShape (off n : Nat) (write : Bool) : Option Nat :=
  if n < 4 then
    if off % n ≠ 0 ∨ n = 3 then some stUnaligned else if write then some stNarrow else none
  else if n % 4 ≠ 0 ∨ off % 4 ≠ 0 ∨ (n = 8 ∧ off % 8 ≠ 0) then some stUnaligned
  else none

/-- The worst of two statuses: the greater code. -/
def worse (a b : Nat) : Nat := if a ≤ b then b else a

/-- Words of REG space read in ascending order, each judged alone (R44); a rejected word reads 0, and the RDR of a RD has no
place for its address (R407). -/
def State.readWords (s : State) (p : Port) (role a : Nat) : Nat → Nat × List Byte × State
  | 0 => (stOk, [], s)
  | n + 1 =>
    let r : Nat × Word × State :=
      if !(regMapped a) then (stUnmapped, 0, s.refuse (.port p) a true false true)
      else if !(s.mayReg role a false) then (stRole, 0, s.refuse (.port p) a true false false)
      else let x := s.portRead p.val a; (stOk, x.1, x.2)
    let t := r.2.2.readWords p role (a + 4) n
    (worse r.1 t.1, leBytes 4 r.2.1.toNat ++ t.2.1, t.2.2)

/-- The region of the plain that holds an offset, and the offset in it (R21, R22). -/
def State.sramRegion (s : State) (off : Nat) : Option (Region × Nat) :=
  [Region.segment, .staging, .excursion, .scheduler, .ferry, .management, .control].findSome? (fun r =>
    match s.plainBase r with
    | some b => if b ≤ off ∧ off < b + r.size * 1048576 then some (r, off - b) else none
    | none => none)

/-- The bytes of a SRAM access lie in one region (R30). With no structure in force the plain has no regions, and the access
is judged against the 96 MiB alone. -/
def State.sramOne (s : State) (off n : Nat) : Bool :=
  if s.str.plain.isEmpty then true
  else match s.sramRegion off, s.sramRegion (off + n - 1) with
    | some (r, _), some (q, _) => r == q
    | _, _ => false

/-- A byte of the parameter blocks lies in the generation of its block that is neither active (R21, R175) nor claimed by a
routine (R184). -/
def State.paramByteFree (s : State) (o : Nat) : Bool :=
  let e := o / 0x80000
  let x := o % 0x80000
  let y := x - 0x60000
  let k := y % 0x2000 / 0x100
  decide (e < 8) && decide (0x60000 ≤ x) && decide (y < 0x4000)
    && ((s.reg (aLPE_GEN e)).getLsbD k != decide (y / 0x2000 = 1)) && !((s.reg (aLPE_CLAIM e)).getLsbD k)

/-- Every byte of a write of the control-store region may be written. -/
def State.paramInactive (s : State) (o n : Nat) : Bool := (List.range n).all (fun i => s.paramByteFree (o + i))

/-- A SRAM write is allowed by its region (R21, R23, R241, R445). -/
def State.sramWritable (s : State) (off n : Nat) : Bool :=
  if s.str.plain.isEmpty then true
  else match s.sramRegion off with
    | some (.segment, o) => !(s.sealedBytes false o n)
    | some (.management, _) => true
    | some (.control, o) => s.paramInactive o n
    | _ => false

/-- A memory access judged: the status, before rights (R29 to R31, R23, R334). A read of the spill store that is not 64 bytes
at a multiple of 64, for which R28 gives no status, is UNALIGNED and raises FS 4 (DESIGN CHOICE, log entry 66). -/
def State.memStatus (s : State) (sp off n : Nat) (write : Bool) : Nat :=
  if spaceSize sp < off + n then stUnmapped
  else if sp = 1 then
    if !(s.sramOne off n) then stUnmapped
    else if write && (s.inSource 1 off n || !(s.sramWritable off n)) then stReadOnly else stOk
  else if sp = 2 then
    match s.hbmRegionAt off, s.hbmRegionAt (off + n - 1) with
    | some r, some q =>
      if r ≠ q then stUnmapped
      else if write then
        let k := s.fld (aHBM_RGN_KIND r) fHBM_RGN_KIND_KIND
        if k = 7 then (if s.inSource 2 off n then stReadOnly else stOk)
        else if k = 5 then (if s.sealedBytes true off n then stReadOnly else stOk)
        else stReadOnly
      else stOk
    | _, _ => stUnmapped
  else if write then stReadOnly
  else if n = 64 ∧ off % 64 = 0 then stOk
  else stUnaligned

/-- A role's right to a memory space (R435). -/
def State.mayMem (s : State) (role sp : Nat) (write : Bool) : Bool :=
  let m := (s.rights role).mem
  if sp = 1 then m.getLsbD (if write then 1 else 0)
  else if sp = 2 then m.getLsbD (if write then 3 else 2)
  else m.getLsbD 4

/-- A byte of the message pool, 4 MiB above the task control blocks: its entries hold the messages of the queues, in an order
that is the scheduler's own (R21, log entry 76). -/
def State.poolByte (s : State) (o : Nat) : Byte :=
  let ms := s.sched.queues.flatMap (fun p => p.2.map (fun m => m.2.toNat))
  Config.poolByte ms o

/-- A byte of the plain as the host reads it: the images of the control store stand below the parameter blocks (R215); the
staging and ferry buffers and the message pool hold what their islands keep, in layouts that the spec does not give (R21,
log entry 76). -/
def State.sramByte (s : State) (off : Nat) : Byte :=
  match s.sramRegion off with
  | some (.control, o) => if o % 0x80000 < 0x60000 then s.ctl.imageByte (o % 0x80000) else Memory.read s.sram off
  | some (.scheduler, o) => if 0x400000 ≤ o then s.poolByte (o - 0x400000) else Memory.read s.sram off
  | some (.staging, o) => Config.stagingByte ((List.range 4).map (fun c => (s.stream c).staged)) o
  | some (.ferry, o) => Config.ferryByte s.count.toNat o
  | _ => Memory.read s.sram off

/-- The bytes of a space. -/
def State.spaceBytes (s : State) (sp off n : Nat) : List Byte :=
  if sp = 1 then (List.range n).map (fun i => s.sramByte (off + i))
  else if sp = 2 then Memory.readBytes s.hbmMem off n
  else Memory.readBytes s.spill off n

/-- A read of a port performed (R29 to R31, R43 to R46): status and data. -/
def State.hostRead (s : State) (p : Port) (a : BitVec 48) (n : Nat) : Nat × List Byte × State :=
  let role := s.sessRole p.val
  let sp := hostSpace a
  let off := hostOffset a
  if sp = 0 then
    if spaceSize 0 < off + n then (stUnmapped, [], s.refuse (.port p) off true false true)
    else match regShape off n false with
      | some st => (st, [], s.refuse (.port p) off true false true)
      | none =>
        if n < 4 then
          let r := s.readWords p role (off / 4 * 4) 1
          (r.1, (r.2.1.drop (off % 4)).take n, r.2.2)
        else s.readWords p role off (n / 4)
  else
    let st := s.memStatus sp off n false
    if st ≠ stOk then (st, [], s.refuse (.port p) 0 false false true)
    else if !(s.mayMem role sp false) then (stRole, [], s.refuse (.port p) 0 false false false)
    else (stOk, s.spaceBytes sp off n, s)

/-- A block belongs to the groups that the active forwards and a standby refuses (R380): SCH, STE, LPE, SEG, ACQ, EXC and
ISL, and writes of CALQ_CMD. -/
def forwardGroup (a : Nat) : Bool :=
  let b := a / 0x100000
  let r := (regTarget a).1
  (decide (4 ≤ b) && decide (b ≤ 7)) || b == 10 || b == 11 || decide (64 ≤ b)
    || (b == 15 && (List.range 4).any (fun q => r == aCALQ_CMD q))

/-- A memory write belongs to those groups: segment store, management region, parameter blocks, SEGMENT regions. -/
def State.forwardMem (s : State) (sp off : Nat) : Bool :=
  if sp = 1 then
    match s.sramRegion off with
    | some (.segment, _) => true
    | some (.management, _) => true
    | some (.control, _) => true
    | _ => false
  else if sp = 2 then
    match s.hbmRegionAt off with
    | some r => s.fld (aHBM_RGN_KIND r) fHBM_RGN_KIND_KIND == 5
    | none => false
  else false

/-- The module forwards to a twin (R380): ACTIVE, or ACTIVE_SOLO from the start of a join's COPY (R393), its col link up. -/
def State.forwards (s : State) : Bool :=
  s.bit aLNK_STAT fLNK_STAT_COL_UP && (s.twin == twActive
    || (s.twin == twSolo && decide (1 ≤ s.fld aTWN_JOIN fTWN_JOIN_PHASE) && decide (s.fld aTWN_JOIN fTWN_JOIN_PHASE ≤ 3)))

/-- The due time of an untimed write (R41, R380). -/
def State.untimedDue (s : State) (fwd : Bool) : Count :=
  if fwd then s.count + cyc (s.reg aTWN_FWLEAD).toNat else s.count + cyc 64

/-- What an exec answers, as a state: the next state, or the state as it was where there is none. -/
def nextOr (s : State) : Result → State
  | .next t => t
  | _ => s

/-- A queue and the word of its push register at a register address (R279). -/
def pushReg (a : Nat) : Option (Nat × Nat) :=
  if a / 0x100000 = 4 ∧ 0x4000 ≤ a % 0x100000 ∧ a % 0x100000 < 0x8000 then
    some ((a % 0x100000 - 0x4000) / 16, a % 16 / 4)
  else none

/-- A word of a push accepted (R279): words 0 to 2 wait in the port's staging copy, word 3 pushes the message at once, its
due time ignored; a push with too little lead answers LATE. -/
def State.acceptPush (s : State) (by_ : Issuer) (q k a : Nat) (w : Word) : Nat × State :=
  if k < 3 then (stOk, s.setStaged by_ a (some w))
  else
    let part (j : Nat) : Nat := ((s.staged by_ (a - 4 * (3 - j))).getD 0).toNat
    let m : BitVec 128 := BitVec.ofNat 128 (part 0 + 2 ^ 32 * part 1 + 2 ^ 64 * part 2 + 2 ^ 96 * w.toNat)
    let s1 := ((s.setStaged by_ (a - 12) none).setStaged by_ (a - 8) none).setStaged by_ (a - 4) none
    let s2 := nextOr s1 (execQpush by_ (Fin.ofNat 1024 q) m s1)
    let waits := s.pushWaits by_ q
    (if s.blkOn 4 && !waits && s.pushLate m && !(isForwarded by_) then stLate else stOk, s2)

/-- A REG word write accepted with a due time (R9, R73, R74): held for it at its island, or late there: an action for the
segment island must be held 128 cycles before its due cycle (R226). STR_CMD is an action of the management island (R444). TRG_CTL.ARM also arms at once (R313), and TWN_CMD.COL
of an active is shipped (R388), by the register or by the bit's alias (R49). -/
def State.holdWord (s : State) (by_ : Issuer) (a : Nat) (due : Count) (w : Word) : State :=
  let addr : BitVec 28 := BitVec.ofNat 28 a
  let b := a / 0x100000
  let r := (regTarget a).1
  let dst := (s.regIsland r).val
  let lat := Config.fordLatency s.free % 65
  let s0 := { s with free := s.free + 1 }
  let need := Count.cycleStart due - (if b = 7 then cyc 128 else 0)
  let arrive := Count.cycleStart s.count + cyc lat
  if !(Count.upto arrive need) then s0.late 0 76 dst due arrive
  else
    let s1 := s0.fordSeen dst lat ((Count.cycleStart due - arrive).toNat / 128)
    let x : Word := match (regTarget a).2 with
      | some b => if w.getLsbD 0 then 1#32 <<< b else 0
      | none => w
    let s2 := s1.hold (if r = aSTR_CMD then .island islManagement else by_) due (.cmd (if (regTarget a).2.isSome then .bitAliasWrite by_ addr w else .regWrite by_ addr w))
    let s3 := if r = aTWN_CMD ∧ x.getLsbD 0 ∧ s.twin = twActive then
      { s2 with twn := { s2.twn with ship := s2.twn.ship ++ [.col 1 due] } } else s2
    match (List.range 8).find? (fun t => r == aTRG_CTL t) with
    | some t => if x.getLsbD 31 then s3.hold by_ s.count (.cmd (.trgArm by_ (Fin.ofNat 8 t) due)) else s3
    | none => s3

/-- An alias word of a multi-word quantity takes no write (R49). -/
def aliasWide (a : Nat) : Bool :=
  match regTarget a with
  | (r, some _) => multiWord r
  | (_, none) => false

/-- A due time lies less than 50 µs after acceptance (R75). -/
def State.tooSoon (s : State) (timed : Option Count) : Bool :=
  match timed with
  | some d => Count.before d (s.count + 9600000#72)
  | none => false

/-- A timed host transaction refused for its lead (R75). -/
def State.hostLate (s : State) (dst : Nat) (due : Count) : State :=
  (s.late 0 76 dst due s.count).latch aTBS_LATE fTBS_LATE_HOST

/-- Words written to REG space in ascending order, each judged at acceptance alone (R44): the worst status, the offsets of
the rejected parts, the state. `role` is none for a forwarded transaction, which the twin's own rules judge but not a
session's role. A word without a due time takes the one of R41 or R380; a timed one must have the lead of R75, judged after
its address and its right (DESIGN CHOICE, log entry 66). -/
def State.writeWords (s : State) (by_ : Issuer) (role : Option Nat) (a : Nat) (timed : Option Count) :
    List Word → Nat × List Byte × State
  | [] => (stOk, [], s)
  | w :: ws =>
    let st := if !(regMapped a) || aliasWide a then stUnmapped
      else match role with
        | some r =>
          if !(s.mayReg r a true) || (s.isStandby && forwardGroup a) then stRole
          else if (pushReg a).isNone && s.tooSoon timed then stLate
          else stOk
        | none => stOk
    let r : Nat × State :=
      if st = stOk then
        match pushReg a with
        | some (q, k) => s.acceptPush by_ q k a w
        | none => (stOk, s.holdWord by_ a (timed.getD (s.untimedDue (s.forwards && forwardGroup a))) w)
      else if st = stLate then
        (st, (s.refuse by_ a true true false).hostLate (s.regIsland (regTarget a).1).val (timed.getD 0))
      else (st, s.refuse by_ a true true (st = stUnmapped || (s.isStandby && forwardGroup a)))
    let r1 := if st = stOk ∧ r.1 ≠ stOk then (r.1, r.2.reject by_ .acc a) else r
    let t := r1.2.writeWords by_ role (a + 4) timed ws
    (worse r1.1 t.1, (if r1.1 = stOk then [] else leBytes 4 a) ++ t.2.1, t.2.2)

/-- Data bytes as words. -/
def bytesWords : List Byte → List Word
  | b0 :: b1 :: b2 :: b3 :: bs => BitVec.ofNat 32 (leNat [b0, b1, b2, b3]) :: bytesWords bs
  | _ => []

/-- The accepted words of a REG write forwarded to the twin (R380), one frame each, as those of the groups that `bad` does
not name. -/
def State.forwardWords (s : State) (p : Port) (a : Nat) (timed : Option Count) (bad : List Nat) : List Word → State
  | [] => s
  | w :: ws =>
    let s1 := if forwardGroup a && !(bad.contains a) then
        s.sendFrame 2 2 (.fwd p (BitVec.ofNat 48 a) (timed.getD (s.untimedDue true)) (leBytes 4 w.toNat)) else s
    s1.forwardWords p (a + 4) timed bad ws

/-- The bytes of a space written by a port. -/
def State.writeSpace (s : State) (p : Port) (sp off : Nat) (data : List Byte) : State :=
  if sp = 1 then { s with sram := Memory.writeBytes s.sram off data } else s.hbmWrite (6 + p.val) off data

/-- A held write of a space at its due time: it is not performed where the region has become read only (R23, R175, R241,
R439). -/
def State.performWrite (s : State) (p : Port) (sp off : Nat) (data : List Byte) : State :=
  if s.memStatus sp off data.length true = stOk then s.writeSpace p sp off data
  else s.refuse (.port p) 0 false true true

/-- A write of a port judged at acceptance (R29 to R31, R43 to R47, R75, R381): status, rejected offsets, and the state
with the write held until its due time or performed. The forwarding of REG words to the twin, once all are judged, is
`forwardWords`. -/
def State.hostWrite (s : State) (p : Port) (a : BitVec 48) (timed : Option Count) (data : List Byte) :
    Nat × List Byte × State :=
  let role := s.sessRole p.val
  let sp := hostSpace a
  let off := hostOffset a
  let n := data.length
  if sp = 0 then
    if n = 0 ∨ spaceSize 0 < off + n then (stUnmapped, leBytes 4 off, s.refuse (.port p) off true true true)
    else match regShape off n true with
      | some st => (st, leBytes 4 off, s.refuse (.port p) off true true true)
      | none => s.writeWords (.port p) (some role) off timed (bytesWords data)
  else
    let st := s.memStatus sp off n true
    if n = 0 ∨ st ≠ stOk then
      let st' := if n = 0 then stUnmapped else st
      (st', leBytes 4 off, s.refuse (.port p) 0 false true true)
    else if !(s.mayMem role sp true) then (stRole, leBytes 4 off, s.refuse (.port p) 0 false true false)
    else if s.isStandby && s.forwardMem sp off then
      (stRole, leBytes 4 off, s.refuse (.port p) 0 false true true)
    else if s.tooSoon timed then
      (stLate, leBytes 4 off, (s.refuse (.port p) 0 false true false).hostLate 75 (timed.getD 0))
    else
      let fwd := s.forwards && s.forwardMem sp off
      let due := timed.getD (s.untimedDue true)
      let s1 := if timed.isSome || fwd then (s.crossed 75 due).hold (.port p) due (.memWrite p sp off data)
        else s.writeSpace p sp off data
      (stOk, [], if fwd then s1.sendFrame 2 2 (.fwd p a due data) else s1)

end Sys2Proof.Machine
end

