-- ==== Sys2Proof/Machine/Lanes.lean ====
section
/-! DEFINITION. The lane layer (chapter 16): characters and their 8b/10b code, ordered sets, columns and the striping of
frames over lanes (R398 to R401), the bytes of the frames that leave the module (R405 to R408, R411, R422 to R426), and the
command that the bytes of a host frame spell. -/
namespace Sys2Proof.Machine

/-! ## Characters (R399) -/

/-- A character of a lane: data D or control K, with its eight bits; Kx.y is `y × 32 + x`. -/
inductive Chr where
  | d (b : Byte)
  | k (b : Byte)
deriving DecidableEq, Repr

/-- A column: one character on each lane of a link. -/
abbrev Column := List Chr

/-- Kx.y and Dx.y. -/
def kChr (x y : Nat) : Chr := .k (BitVec.ofNat 8 (y * 32 + x))
def dChr (x y : Nat) : Chr := .d (BitVec.ofNat 8 (y * 32 + x))

/-- The number of ones among the low `n` bits. -/
def onesIn (n v : Nat) : Nat := (List.range n).countP v.testBit

/-- The 5b/6b code for negative running disparity, first bit highest (PRESUMED, log entry 77: the spec names the code and
does not print it). -/
def code5 : List Nat := [
  0b100111, 0b011101, 0b101101, 0b110001, 0b110101, 0b101001, 0b011001, 0b111000,
  0b111001, 0b100101, 0b010101, 0b110100, 0b001101, 0b101100, 0b011100, 0b010111,
  0b011011, 0b100011, 0b010011, 0b110010, 0b001011, 0b101010, 0b011010, 0b111010,
  0b110011, 0b100110, 0b010110, 0b110110, 0b001110, 0b101110, 0b011110, 0b101011]

/-- The 3b/4b codes of D and of K characters for negative running disparity. -/
def code3 : List Nat := [0b1011, 0b1001, 0b0101, 0b1100, 0b1101, 0b1010, 0b0110, 0b1110]
def code3K : List Nat := [0b1011, 0b0110, 0b1010, 0b1100, 0b1101, 0b0101, 0b1001, 0b0111]

/-- The six bits of `x` after a running disparity (true: positive), and the disparity after them. -/
def encode5 (pos isK : Bool) (x : Nat) : Nat × Bool :=
  let c := if isK && x == 28 then 0b001111 else code5.getD x 0
  let even := onesIn 6 c == 3
  (if pos && (!even || x == 7) then 63 - c else c, pos != !even)

/-- The four bits of `y` after the six of `x`, and the disparity after them: Dx.7 takes its second form where the first would
make a run of five. -/
def encode3 (pos isK : Bool) (x y : Nat) : Nat × Bool :=
  let second := y == 7 && (if pos then x == 11 || x == 13 || x == 14 else x == 17 || x == 18 || x == 20)
  let c := if isK then code3K.getD y 0 else if second then 0b0111 else code3.getD y 0
  let even := onesIn 4 c == 2
  (if pos && (isK || !even || y == 3) then 15 - c else c, pos != !even)

/-- The ten bits that a lane sends for a character, first bit highest, and the running disparity after them. -/
def Chr.encode (pos : Bool) (c : Chr) : BitVec 10 × Bool :=
  let (isK, v) : Bool × Nat := match c with
    | .d b => (false, b.toNat)
    | .k b => (true, b.toNat)
  let a := encode5 pos isK (v % 32)
  let b := encode3 a.2 isK (v % 32) (v / 32)
  (BitVec.ofNat 10 (a.1 * 16 + b.1), b.2)

/-- The bits of a lane's characters from a running disparity. -/
def encodeLane : Bool → List Chr → List (BitVec 10)
  | _, [] => []
  | pos, c :: cs => (c.encode pos).1 :: encodeLane (c.encode pos).2 cs

/-! ## Ordered sets and frames as columns (R399, R400) -/

/-- K28.5, the comma; PAD and EOF. -/
abbrev chComma : Chr := kChr 28 5
abbrev chPad : Chr := kChr 23 7
abbrev chEof : Chr := kChr 29 7

/-- The same characters on every lane of a link of width `w`. -/
def sameOn (w : Nat) (cs : List Chr) : List Column := cs.map (List.replicate w)

/-- SOF, TMK, IDL, EIO; SKP with `n` columns of K28.0. -/
def setSof (w : Nat) : List Column := sameOn w [chComma, kChr 27 7]
def setTmk (w : Nat) : List Column := sameOn w [chComma, kChr 28 1]
def setIdl (w : Nat) : List Column := sameOn w [chComma, dChr 16 2]
def setEio (w : Nat) : List Column := sameOn w [chComma, kChr 28 3]
def setSkp (w n : Nat) : List Column := sameOn w (chComma :: List.replicate n (kChr 28 0))

/-- TS1 or TS2: the lane number differs from lane to lane; link number, rate set, width set and flags follow, then fill. -/
def setTs (w : Nat) (two : Bool) (link rates widths flags : Byte) : List Column :=
  sameOn w [chComma, if two then dChr 5 2 else dChr 10 2]
    ++ [(List.range w).map (fun i => Chr.d (BitVec.ofNat 8 i))]
    ++ sameOn w ([link, rates, widths, flags].map Chr.d)
    ++ sameOn w (List.replicate 9 (dChr 10 2))

/-- Bytes striped over `w` lanes, byte i on lane i mod w, the last column filled with PAD. -/
def stripe (w : Nat) (bs : List Byte) : List Column :=
  (List.range ((bs.length + (w - 1)) / w)).map (fun c =>
    (List.range w).map (fun l => match bs[c * w + l]? with
      | some b => Chr.d b
      | none => chPad))

/-- A frame on a link: SOF, or TMK for a time message, its bytes, EOF. -/
def frameColumns (w : Nat) (time : Bool) (bs : List Byte) : List Column :=
  (if time then setTmk w else setSof w) ++ stripe w bs ++ [List.replicate w chEof]

/-- The columns of a frame of `n` bytes. -/
def columnsOf (w n : Nat) : Nat := 3 + (n + (w - 1)) / w

/-- The bytes on the lanes of columns: PAD and the other control characters carry none. -/
def dataBytes (cols : List Column) : List Byte :=
  cols.flatten.filterMap (fun c => match c with
    | .d b => some b
    | .k _ => none)

/-- The 32-byte key and the nonce of a direction (R418, R478): the 4-byte salt follows the key, and the frame counter the salt. -/
def keyOf (k : List Byte) : List Byte := k.take 32
def nonceOf (k : List Byte × Nat) : List Byte := (k.1.drop 32).take 4 ++ leBytes 8 k.2

/-- The bytes of a frame read from its columns, and whether it began with a TMK; none where it begins otherwise. -/
def readFrame (w : Nat) (cols : List Column) : Option (Bool × List Byte) :=
  if cols.take 2 = setSof w then some (false, dataBytes (cols.drop 2))
  else if cols.take 2 = setTmk w then some (true, dataBytes (cols.drop 2))
  else none

/-- What a transmitter of the user class sends for frames in order (R401): one SKP between frames at least once in every 200
columns, as the frames allow; `since` counts the columns since the latest one. -/
def withSkips (w : Nat) : Nat → List (List Column) → List Column
  | _, [] => []
  | since, f :: fs =>
    if 200 < since + f.length then setSkp w 1 ++ f ++ withSkips w f.length fs
    else f ++ withSkips w (since + f.length) fs

/-- What the transmitter of a link of width `w` repeats while it has no frame to send (R399, R403, R404): TS1 in POLL, TS2 in
CONFIG and RECOVERY, IDL in ACTIVE while it is awake, electrical idle otherwise. -/
def idleColumns (w lt power : Nat) (link rates widths flags : Byte) : List Column :=
  if lt = ltPoll then setTs w false link rates widths flags
  else if lt = ltConfig ∨ lt = ltRecovery then setTs w true link rates widths flags
  else if lt = ltActive ∧ power = 0 then setIdl w
  else []

/-! ## Reed–Solomon parity of a SHIP frame (R423) -/

/-- Twice an element of GF(2⁸) with field polynomial 11Dh. -/
def gfDouble (x : Byte) : Byte := if x.msb then (x <<< 1) ^^^ 0x1D#8 else x <<< 1

/-- The product of two elements. -/
def gfMul (a b : Byte) : Byte :=
  (List.range 8).foldl (fun x i => if b.getLsbD (7 - i) then gfDouble x ^^^ a else gfDouble x) 0

/-- The `n`-th power of the primitive element. -/
def gfAlpha : Nat → Byte
  | 0 => 1
  | n + 1 => gfDouble (gfAlpha n)

/-- The generator polynomial, roots α⁰ to α¹⁵, highest coefficient first. -/
def rsGenerator : List Byte :=
  (List.range 16).foldl (fun g i => List.zipWith (· ^^^ ·) (g ++ [0#8]) (0#8 :: g.map (gfMul (gfAlpha i)))) [1#8]

/-- The 16 parity bytes of a message: the remainder of its polynomial times x¹⁶ by the generator. -/
def rsParity (msg : List Byte) : List Byte :=
  msg.foldl (fun r m =>
    let f := m ^^^ r.headD 0
    List.zipWith (· ^^^ ·) (r.tail ++ [0#8]) (rsGenerator.tail.map (gfMul f))) (List.replicate 16 0#8)

/-- The value of a codeword's polynomial at α^i. -/
def rsSyndrome (word : List Byte) (i : Nat) : Byte := word.foldl (fun x b => gfMul x (gfAlpha i) ^^^ b) 0

/-! ## Frames as bytes (R405 to R408) -/

/-- A frame before its protection: TYPE, VC, TIMED, STATUS and TAG, its request block and its data. -/
structure Frame where
  typ : Nat
  vc : Nat
  timed : Bool := false
  status : Nat := 0
  tag : Nat := 0
  block : List Byte := []
  data : List Byte := []
deriving DecidableEq, Repr

/-- The 8-byte header (R406). -/
def Frame.header (f : Frame) (seq : Nat) (prot : Bool) : List Byte :=
  leBytes 1 (f.typ * 16 + f.vc * 4 + 2 * f.timed.toNat + prot.toNat) ++ leBytes 1 f.status ++ leBytes 2 seq
    ++ leBytes 2 f.data.length ++ leBytes 2 f.tag

/-- A frame's bytes, CRC last (R405, R418). `key` is the key of its direction and the frame counter inside a session: block and
data are encrypted, or left as they are under an integrity-only choice; the tag follows. -/
def Frame.bytes (f : Frame) (seq : Nat) (key : Option (List Byte × Nat)) (intOnly : Bool) : List Byte :=
  let h := f.header seq key.isSome
  let body := match key with
    | none => f.block ++ f.data
    | some k =>
      if intOnly then
        f.block ++ f.data ++ leBytes 16 (Config.gcmTag (keyOf k.1) (nonceOf k) (h ++ f.block ++ f.data) []).toNat
      else
        let c := Config.gcmCrypt (keyOf k.1) (nonceOf k) (f.block ++ f.data)
        c ++ leBytes 16 (Config.gcmTag (keyOf k.1) (nonceOf k) h c).toNat
  h ++ body ++ leBytes 4 (crc32 (h ++ body)).toNat

/-- The body of a ring message (R426). -/
def ringBytes (mtype : Byte) (m : RingBody) : List Byte :=
  [mtype] ++ leBytes 1 (m.trigger.val + 8 * m.auto.toNat) ++ leBytes 2 m.origin.toNat ++ leBytes 2 m.hop.toNat
    ++ leBytes 2 m.chan.toNat ++ leBytes 9 m.count.toNat ++ leBytes 3 0 ++ leBytes 4 m.path.toNat
    ++ leBytes 4 m.linkt.toNat ++ leBytes 4 m.rxt.toNat

/-- A ring message on the line: the body and its CRC (R426). -/
def ringFrame (mtype : Byte) (m : RingBody) : List Byte :=
  ringBytes mtype m ++ leBytes 4 (crc32 (ringBytes mtype m)).toNat

/-- One slot of an item: KIND, island, unit, byte 3, bytes 4 to 7, the due time's bits [63:0] (R424). -/
def slotBytes (kind isl unit b3 v : Nat) (due : Count) : List Byte :=
  leBytes 1 kind ++ leBytes 1 isl ++ leBytes 1 unit ++ leBytes 1 b3 ++ leBytes 4 v ++ leBytes 8 due.toNat

/-- The slots of a shipped item (R424). -/
def itemBytes : ShipItem → List Byte
  | .result isl u flags y due => slotBytes 1 isl.val u.val flags.toNat y.toNat due
  | .latch isl m latch uns due => slotBytes 2 isl.val m.val (latch.toNat + 2 * uns.toNat) 0 due
  | .anchor st src valid hop path err due =>
    slotBytes 3 255 0 (st.toNat + 8 * src.toNat + 32 * valid.toNat) hop.toNat due
      ++ leBytes 4 path.toNat ++ leBytes 4 err.toNat ++ List.replicate 8 0#8
  | .refLevel isl q r due => slotBytes 4 isl.val q.val 0 r.toNat due
  | .col cause due => slotBytes 5 255 0 cause.toNat 0 due
  | .group isl rs due =>
    let find (u : Nat) := rs.find? (fun r => r.1.val == u)
    [6#8] ++ leBytes 1 isl.val ++ leBytes 1 (rs.foldl (fun m r => m ||| 1 <<< r.1.val) 0) ++ [0#8]
      ++ leBytes 4 ((due - 16384).toNat / 128)
      ++ (List.range 8).flatMap (fun u => leBytes 4 (((find u).map (·.2.1.toNat)).getD 0))
      ++ (List.range 8).flatMap (fun u => leBytes 1 (((find u).map (·.2.2.toNat)).getD 0))

/-- A SHIP frame: header, items, parity, CRC (R423). -/
def shipBytes (items : List ShipItem) : List Byte :=
  let data := items.flatMap itemBytes
  let h := ({ typ := 8, vc := 0, data := data } : Frame).header 0 false
  let x := h ++ data ++ rsParity (h ++ data)
  x ++ leBytes 4 (crc32 x).toNat

/-- The frames that something sent takes (R407, R408, R411, R422, R479, R484); a message of several segments takes one each. A
forwarded frame has no TAG of its own, and the place of a FERRY frame is a host address (log entry 77). -/
def Out.frames : Out → List Frame
  | .rdr _ vc tag st data => [{ typ := 3, vc := vc.toNat, status := st.toNat, tag := tag.toNat, data := data }]
  | .evt _ kind what count =>
    [{ typ := 4, vc := 3, block := [kind, 0#8] ++ leBytes 2 what.toNat ++ leBytes 4 0 ++ leBytes 8 count.toNat }]
  | .strm _ cls spilled index recs =>
    [{ typ := 5, vc := 2
       block := leBytes 1 (cls.val + 128 * spilled.toNat) ++ leBytes 7 0 ++ leBytes 8 index
       data := recs.flatten }]
  | .lctl _ _ _ _ => []
  | .mgt _ cmd seg req st body => [{ typ := 6, vc := 3, data := [cmd, seg, req, st] ++ body }]
  | .sec _ msg seg st body => [{ typ := 7, vc := 3, data := [msg, seg, st, 0#8] ++ body }]
  | .hello f =>
    [{ typ := 9, vc := 1
       data := leBytes 1 (f.side.toNat + 2 * f.prefer.toNat + 16 * f.state.toNat) ++ digestBytes f.digest
         ++ digestBytes f.csDigest }]
  | .digest tick dig blame =>
    [{ typ := 10, vc := 1, data := leBytes 8 tick.toNat ++ leBytes 32 dig.toNat ++ leBytes 1 blame.toNat }]
  | .keep => [{ typ := 11, vc := 1 }]
  | .fwd _ addr due data =>
    let wr : Frame := { typ := 2, vc := 0, timed := true, data := data }
    [{ typ := 12, vc := 2
       data := wr.header 0 false ++ leBytes 6 addr.toNat ++ leBytes 9 due.toNat ++ [0#8] ++ data }]
  | .colTime m => [{ typ := 13, vc := 1, data := ringBytes 1 m }]
  | .ferry f => [{ typ := 14, vc := 3, data := leBytes 8 (f.space.toNat * 2 ^ 45 + f.offset.toNat) ++ f.data }]
  | .ship _ => []
  | .ring _ _ => []
  | .code _ _ _ _ _ => []

/-- An LCTL frame (R411): NAK, ACKSEQ and the limits stand in the header. -/
def lctlBytes (nak : Bool) (ackSeq : BitVec 12) (limits : List (BitVec 8)) : List Byte :=
  let h := [0#8] ++ leBytes 1 nak.toNat ++ leBytes 2 ackSeq.toNat ++ (List.range 4).map (fun v => limits.getD v 0)
  h ++ leBytes 4 (crc32 h).toNat

/-- What something sent is on the lanes of a link of width `w`, frame by frame, from a SEQ on (R400, R405). -/
def Out.columns (w seq : Nat) (key : Option (List Byte × Nat)) (intOnly : Bool) : Out → List (List Column)
  | .lctl _ nak a ls => [frameColumns w false (lctlBytes nak a ls)]
  | .ship items => [frameColumns w false (shipBytes items)]
  | .ring t m => [frameColumns w (t == 1) (ringFrame t m)]
  | .colTime m => (Out.colTime m).frames.map (fun f => frameColumns w true (f.bytes 0 none false))
  | .keep => Out.keep.frames.map (fun f => frameColumns w false (f.bytes 0 none false))
  | o => (o.frames.zipIdx).map (fun x =>
    frameColumns w false (x.1.bytes ((seq + x.2) % 4096) (key.map (fun k => (k.1, k.2 + x.2))) intOnly))

/-- A resend: every frame held, unchanged, in order (R412, R418). -/
def State.resendColumns (s : State) (l w : Nat) : List Column :=
  withSkips w 0 (((s.link l).held.map (fun h => h.frame.columns w h.seq.toNat h.prot h.intOnly)).flatten)

/-! ## What the bytes of a host frame spell (R405 to R409, R411) -/

/-- Bit and field of a byte string, least significant bit of byte `i` first. -/
def bitAt (bs : List Byte) (i b : Nat) : Bool := (byteAt bs i).testBit b

/-- A reserved bit of a header is 1, or STATUS is not 0 in a frame of the host (R406). -/
def hdrReserved (bs : List Byte) : Bool :=
  byteAt bs 1 != 0 || decide (16 ≤ byteAt bs 3) || decide (2 ≤ byteAt bs 5) || decide (16 ≤ byteAt bs 7)

/-- The command that the bytes of a RD, WR, STRM or LCTL frame of a port spell: the header, the block and the data behind the
protection, with the verdicts of CRC and tag. `intOnly` is the choice of the session for the stream VC. The messages of MGT
and SEC frames are commands once their last segment has come (R479, R484). -/
def hostInstr (p : Port) (key : Option (List Byte × Nat)) (intOnly : Bool) (bs : List Byte) : Option Instr :=
  let n := bs.length - 4
  let typ := byteAt bs 0 / 16
  let crcGood := crc32 (bs.take n) == BitVec.ofNat 32 (fieldAt bs n 4)
  if typ = 0 then
    some (.lctl (.port p) (bitAt bs 1 0) (BitVec.ofNat 12 (fieldAt bs 2 2))
      ⟨#[BitVec.ofNat 8 (byteAt bs 4), BitVec.ofNat 8 (byteAt bs 5), BitVec.ofNat 8 (byteAt bs 6), BitVec.ofNat 8 (byteAt bs 7)],
        rfl⟩ crcGood)
  else
    let prot := bitAt bs 0 0
    let h := bs.take 8
    let c := (bs.drop 8).take (n - 8 - (if prot then 16 else 0))
    let plain := intOnly && byteAt bs 0 / 4 % 4 == 2
    let tagGood := match key with
      | some k =>
        let tag := if plain then Config.gcmTag (keyOf k.1) (nonceOf k) (h ++ c) []
          else Config.gcmTag (keyOf k.1) (nonceOf k) h c
        prot && leBytes 16 tag.toNat == (bs.drop (n - 16)).take 16
      | none => !prot
    let body := match key with
      | some k => if prot && !plain then Config.gcmCrypt (keyOf k.1) (nonceOf k) c else c
      | none => c
    let len := fieldAt bs 4 2 % 512
    let hdr : HostHdr := {
      vc := BitVec.ofNat 2 (byteAt bs 0 / 4), timed := bitAt bs 0 1, prot := prot
      reserved := hdrReserved bs || len != body.length - 16
      seq := BitVec.ofNat 12 (fieldAt bs 2 2), tag := BitVec.ofNat 12 (fieldAt bs 6 2), crcGood := crcGood, tagGood := tagGood }
    let addr : BitVec 48 := BitVec.ofNat 48 (fieldAt body 0 6)
    let due : Count := BitVec.ofNat 72 (fieldAt body 6 9)
    if typ = 1 then some (.rd p ⟨hdr, addr, due, BitVec.ofNat 8 (byteAt body 15)⟩)
    else if typ = 2 then some (.wr p ⟨hdr, addr, due, BitVec.ofNat 8 (byteAt body 15), body.drop 16⟩)
    else if typ = 5 then
      let odd := byteAt body 0 / 4 != 0 || fieldAt body 1 7 != 0
      some (.strm p { hdr with reserved := hdr.reserved || odd } (Fin.ofNat 4 (byteAt body 0)) (BitVec.ofNat 64 (fieldAt body 8 8)))
    else none

/-- The command that the bytes of a frame of a port spell in a state: with the key of the host's direction and the counter of
the frames taken, while a session is open (R417, R418). -/
def State.hostInstr (s : State) (p : Port) (bs : List Byte) : Option Instr :=
  Machine.hostInstr p
    (if s.bit (aLP_STAT p.val) fLP_STAT_SESSION then
      some ((Tab.get (fun _ => (([], []) : List Byte × List Byte)) s.sec.keys p.val).1, (s.link p.val).rxFrames)
    else none)
    (s.bit (aLP_STAT p.val) fLP_STAT_INTONLY) bs

end Sys2Proof.Machine
end

