-- ==== Sys2Proof/Machine/Security.lean ====
section
/-! DEFINITION. The security island (chapter 19): signatures and the HSS state, sessions, services, zeroisation. The
algorithms of R461 are functions of Config without a body. Times of the always-on domain are read from the management
uptime. -/
namespace Sys2Proof.Machine

/-! ## Shared operations -/

/-- The states of SEC_STAT.STATE. -/
abbrev seSelftest : Nat := 0
abbrev seReady : Nat := 1
abbrev seError : Nat := 2
abbrev seZeroised : Nat := 3

/-- The island answers services: it is READY and not zeroised (R464, R481). -/
def State.secUp (s : State) : Bool := s.fld aSEC_STAT fSEC_STAT_STATE == seReady && !s.sec.zeroisedFuse

/-- A reply in a SEC frame on the management VC (R479). -/
def State.secReply (s : State) (p : Port) (msg status : Byte) (body : List Byte) : State :=
  (segments 252 body).foldl (fun s x => s.sendFrame p.val 3 (.sec p msg x.1 status x.2)) s

/-- A byte string cut or filled with zeros to a length. -/
def fit (n : Nat) (bs : List Byte) : List Byte := (bs ++ List.replicate n 0#8).take n

/-- The trailer of R218 made of a signature of R462: ECDSA, the 4-byte length, HSS. -/
def trailer (sig : List Byte) : List Byte := sig.take 96 ++ leBytes 4 3604 ++ sig.drop 96

/-- The signature in a trailer; none where it has not the form of R218. -/
def untrailer (bs : List Byte) : Option (List Byte) :=
  if bs.length = 3704 ∧ fieldAt bs 96 4 = 3604 then some (bs.take 96 ++ bs.drop 100) else none

/-- SEC_HSS shows 2⁴⁰ minus the signing index (R482); FS 114 when fewer than 2³² remain (R473). -/
def State.showHss (s : State) : State :=
  let rest := 2 ^ 40 - s.sec.q
  let s1 := s.setWide aSEC_HSS 2 rest
  if rest < 2 ^ 32 then
    if s.causeStands 114 then s1
    else ((s1.latch aSEC_LAT fSEC_LAT_HSSLOW).causeOn 114 0).raise 114 islSecurity
  else s1

/-- The reservation of R473: when the index reaches RESERVED_TO, the next 65,536 are reserved, with an epoch fuse burnt
where they pass the mark; the first tree of the new epoch is then still to be made (R474). -/
def State.reserve (s : State) : State :=
  if s.sec.reservedTo ≤ s.sec.q then
    let r := s.sec.q + 65536
    let e := s.fld aSEC_HSSE fSEC_HSSE_E
    let s1 := if e * 2 ^ 28 < r then (s.setFld aSEC_HSSE fSEC_HSSE_E (e + 1)).setBit aSEC_HSSE fSEC_HSSE_EREADY false else s
    { s1 with sec := { s1.sec with reservedTo := r, writes := s1.sec.writes + 1 } }
  else s

/-- A signature may be formed now: not suspended, the tree of the next index ready, an index left. -/
def State.maySign (s : State) : Bool :=
  !(s.bit aSEC_STAT fSEC_STAT_SUSP) && !(s.bit aSEC_STAT fSEC_STAT_TREEWAIT) && decide (s.sec.q < 2 ^ 40)

/-- One signature over a message (R462, R473): the reservation, the signature, the index spent; at the end of a level-1
tree the next one is taken, or signing waits for it (R474). -/
def State.signMsg (s : State) (msg : List Byte) : List Byte × State :=
  let s1 := s.reserve
  let sig := fit 3700 (Config.sign s1.sec.q msg)
  let s2 := { s1 with sec := { s1.sec with q := s1.sec.q + 1 } }.showHss
  let s3 := if s2.sec.q % 2 ^ 20 = 0 then
      if s2.bit aSEC_HSSE fSEC_HSSE_NREADY then s2.setBit aSEC_HSSE fSEC_HSSE_NREADY false
      else s2.latch aSEC_STAT fSEC_STAT_TREEWAIT
    else s2
  (sig, s3)

/-- Seals whose signature is awaited (SEC_SEALQ). -/
def State.showSealq (s : State) : State :=
  s.setReg aSEC_SEALQ (BitVec.ofNat 32 ((s.acq.seals.filter (fun x => x.2.2.isNone)).length))

/-- A customer slot's state. -/
def State.keySlot (s : State) (n : Nat) : KeySlot := Tab.get (fun _ => {}) s.sec.slots n

/-- A customer slot is live with a usage bit: 0 STREAM, 1 PATCH, 2 SESSION (R465). -/
def State.slotLive (s : State) (n use : Nat) : Bool :=
  let k := s.keySlot n
  decide (n < 8) && k.used && !k.revoked && k.usage.getLsbD use

/-- Some customer slot with SESSION usage is live (R477). -/
def State.sessionSlotLive (s : State) : Bool := (List.range 8).any (fun n => s.slotLive n 2)

/-- The state with a customer slot set; SEC_SLOTS shows it (R482). -/
def State.setKeySlot (s : State) (n : Nat) (k : KeySlot) : State :=
  let code := if k.revoked then 2 else if k.used then 1 else 0
  { s.setFld aSEC_SLOTS ⟨2 * n + 1, 2 * n⟩ code with
    sec := { s.sec with slots := Tab.set (fun _ => {}) s.sec.slots n k } }

/-- A request is that of an ATTEST, or of a PROOF, of a port. -/
def SigReq.isAttest (p : Nat) : SigReq → Bool
  | .attest q _ => q.val == p
  | _ => false
def SigReq.isProof (p : Nat) : SigReq → Bool
  | .proof q => q.val == p
  | _ => false

/-- A session ends (R478): its role and rights are gone from the port; the log records it. -/
def State.endSession (s : State) (p : Nat) (cause : Nat) : State :=
  if s.session p then
    let w := putF (putF (putF (s.reg (aLP_STAT p)) fLP_STAT_SESSION 0) fLP_STAT_INTONLY 0) fLP_STAT_ROLE 0
    let s1 := (s.setReg (aLP_STAT p) w).setReg (aSEC_SESS p)
      (putF (putF (s.reg (aSEC_SESS p)) fSEC_SESS_OPEN 0) fSEC_SESS_ROLE 0)
    { s1 with sec := { s1.sec with
        keys := Tab.set (fun _ => ([], [])) s1.sec.keys p ([], [])
        requests := s1.sec.requests.filter (fun r => !(r.2.isAttest p)) } }.log 0x08 p
      (leBytes 1 (s.sessRole p) ++ leBytes 1 cause)
  else s

/-- A session opens with a role and its keys; its frame counters start at 0 (R418, R478). -/
def State.openSession (s : State) (p : Nat) (role : Nat) (intOnly : Bool) (keys : List Byte × List Byte) : State :=
  let w := putF (putF (putF (s.reg (aLP_STAT p)) fLP_STAT_SESSION 1) fLP_STAT_INTONLY intOnly.toNat)
    fLP_STAT_ROLE role
  let s1 := (s.setReg (aLP_STAT p) w).setReg (aSEC_SESS p)
    (putF (putF (s.reg (aSEC_SESS p)) fSEC_SESS_OPEN 1) fSEC_SESS_ROLE role)
  let s2 := s1.setLink p { s1.link p with txFrames := 0, rxFrames := 0 }
  { s2 with sec := { s2.sec with
      failRun := s2.sec.failRun.set p 0
      keys := Tab.set (fun _ => ([], [])) s2.sec.keys p keys } }.log 0x08 p (leBytes 1 role ++ leBytes 1 0)

/-- The exchange in progress on a port. -/
def State.exchange (s : State) (p : Nat) : Option Exchange := Tab.get (fun _ => none) s.sec.exch p

/-- The state with a port's exchange set or ended. -/
def State.setExchange (s : State) (p : Nat) (x : Option Exchange) : State :=
  { s with sec := { s.sec with exch := Tab.set (fun _ => none) s.sec.exch p x } }

/-- The request for a port's PROOF is dropped. -/
def State.dropProof (s : State) (p : Nat) : State :=
  { s with sec := { s.sec with requests := s.sec.requests.filter (fun r => !(r.2.isProof p)) } }

/-- A step of an exchange fails (R476): the exchange ends, the failure counts, and 16 in a row close the port to HELLO. -/
def State.failExchange (s : State) (p : Nat) : State :=
  let f := s.fld (aSEC_SESS p) fSEC_SESS_FAILED
  let s1 := ((s.setExchange p none).dropProof p).setFld (aSEC_SESS p) fSEC_SESS_FAILED (min 0xFFFF (f + 1))
  let run := s1.sec.failRun.getD p 0 + 1
  if 16 ≤ run then
    { s1.setFld (aSEC_SESS p) fSEC_SESS_REFUSED 1 with sec := { s1.sec with
      failRun := s1.sec.failRun.set p 0, refusedAt := s1.sec.refusedAt.set p s1.mgt.uptime } }
  else { s1 with sec := { s1.sec with failRun := s1.sec.failRun.set p run } }

/-- A service of a session judged: STATUS 1 outside its rights, STATUS 2 where the island answers none (R464, R477,
R479). A provisioning session has only ENROLL, ATTEST, CERT and CLOSE. -/
def State.service (s : State) (p : Port) (msg : Byte) (roles : Nat → Bool) (f : State → State) : State :=
  if !(s.session p.val) || !(roles (s.sessRole p.val))
      || (s.sec.provisional.getD p.val false && !(msg == 4 || msg == 5 || msg == 6 || msg == 9)) then
    s.secReply p msg 1 []
  else if !s.secUp then s.secReply p msg 2 []
  else f s

/-- Every role may use the service; only ENGINEER and SECURITY OFFICER; only SECURITY OFFICER (R479). -/
def anyRole (_r : Nat) : Bool := true
def engRole (r : Nat) : Bool := r == roleEngineer || r == roleSecurity
def secRole (r : Nat) : Bool := r == roleSecurity

/-! ## Sessions (R476 to R478) -/

/-- SEC_HELLO (R476): the module answers with its HELLO, and with its PROOF once that is signed (R474). A HELLO in the midst of
an exchange begins a new one. -/
def execSecHello (p : Port) (role : Byte) (intOnly : Bool) (nonce qh : List Byte) (s : State) : Result :=
  if s.session p.val ∨ s.bit (aSEC_SESS p.val) fSEC_SESS_REFUSED ∨ s.secUp = false then
    .next (s.secReply p 1 2 [])
  else if 3 < role.toNat ∨ nonce.length ≠ 32 ∨ qh.length ≠ 97 then
    .next ((s.failExchange p.val).secReply p 1 4 [])
  else
    let nm := fit 32 (Config.random s.free 32)
    let body := nm ++ fit 97 (Config.ecdhPublic s.free) ++ Config.identityChain
    let x : Exchange := {
      role := BitVec.ofNat 2 role.toNat, intOnly := intOnly
      transcript := leBytes 1 role.toNat ++ leBytes 1 intOnly.toNat ++ nonce ++ qh ++ body
      salt := nonce ++ nm, secret := Config.ecdhSecret s.free qh, since := s.mgt.uptime }
    let s1 := (({ s with free := s.free + 1 }.dropProof p.val).setExchange p.val (some x)).secReply p 1 0 body
    .next (s1.askSig (.proof p))

/-- The digest over the transcript of an exchange (R476). -/
def Exchange.digest (x : Exchange) : List Byte := digestBytes (Config.sha384 x.transcript)

/-- The session keys of an exchange (R478): host to module, module to host, each a 32-byte key with a 4-byte salt. -/
def Exchange.keys (x : Exchange) : List Byte × List Byte :=
  let text (c : Byte) (d : Byte) : List Byte := [0x57, 0x65, 0x61, 0x64, 0x61, 0x6C, 0x20, c, 0x32, d]
  (fit 36 (Config.hkdf x.salt x.secret (x.digest ++ text 0x68 0x6D) 36),
   fit 36 (Config.hkdf x.salt x.secret (x.digest ++ text 0x6D 0x68) 36))

/-- The five seconds of an exchange are over (R476). -/
def State.exchangeOver (s : State) (x : Exchange) : Bool := decide (x.since + 5000 ≤ s.mgt.uptime)

/-- The ISSUER and the ROLES of a credential, where its form is that of R470. -/
def credIssuer (c : List Byte) : Nat := byteAt c 6
def credRoles (c : List Byte) : Nat := byteAt c 7
def credForm (c : List Byte) : Bool :=
  fieldAt c 0 4 == 0x3C52A17E && fieldAt c 4 2 == 1 && fieldAt c 0x79 3 == 0 && fieldAt c 0xB8 8 == 0

/-- The anchor of the key pair of a credential (R462, R470). -/
def credAnchor (c : List Byte) : BitVec 384 := Config.sha384 ((c.drop 0x18).take 97 ++ (c.drop 0x7C).take 60)

/-- A host credential grants a role (R470, R475, R477): its issuer is a live customer slot with SESSION usage, or the
provisioning anchor for the SECURITY OFFICER while no such slot is live; its ROLES hold the role; and its trailer verifies under
the issuer's anchor. -/
def State.credential (s : State) (cred : List Byte) (role : Nat) : Bool :=
  let n := credIssuer cred
  let anchor := if n < 8 then (s.keySlot n).anchor else Config.vendorAnchor 6
  credForm cred && (credRoles cred).testBit role
    && (if n < 8 then s.slotLive n 2 else n == 0x80 && role == roleSecurity && !s.sessionSlotLive)
    && (match untrailer (cred.drop 192) with
        | some sig => Config.verify anchor (cred.take 192) sig
        | none => false)

/-- The host's PROOF completes an exchange (R476): in time, after the module's PROOF, with a credential that grants the role and a
signature over the transcript by its key. -/
def State.proofGood (s : State) (x : Exchange) (cred sig : List Byte) : Bool :=
  s.secUp && x.proved && !(s.exchangeOver x) && s.credential cred x.role.toNat
    && Config.verify (credAnchor cred) x.digest sig

/-- The host's PROOF taken (R476 to R478): the session opens when FINISH is sent, or FINISH refuses it. -/
def State.takeProof (s : State) (p : Port) (cred sig : List Byte) : Result :=
  match s.exchange p.val with
  | none => .next (s.secReply p 2 2 [])
  | some x =>
    if s.proofGood x cred sig then
      let io := x.intOnly && Config.intOnlyRole x.role.toNat
      let y := { x with transcript := x.transcript ++ cred ++ sig }
      let s1 := (s.setExchange p.val none).secReply p 3 0 (leBytes 1 x.role.toNat ++ leBytes 1 io.toNat)
      let s2 := s1.openSession p.val x.role.toNat io y.keys
      .next { s2 with sec := { s2.sec with provisional := s2.sec.provisional.set p.val (credIssuer cred == 0x80) } }
    else .next ((s.failExchange p.val).secReply p 3 4 [])

/-- PROOF (R470, R476): the host credential with its trailer, and both parts of a signature. -/
def execProof (p : Port) (cred credTrailer ecdsa hss : List Byte) (s : State) : Result :=
  s.takeProof p (cred ++ credTrailer) (ecdsa ++ hss)

/-- SESSION_TIMEOUT (R476), 5 s after the host's HELLO. -/
def execSessionTimeout (p : Port) (s : State) : Result :=
  match s.exchange p.val with
  | some x => .next (if s.exchangeOver x then (s.failExchange p.val).secReply p 3 4 [] else s)
  | none => .next s

/-- A port's refusal of HELLO has lasted 60 s (R476). -/
def State.refusalOver (s : State) (p : Nat) : Bool := decide (s.sec.refusedAt.getD p 0 + 60000 ≤ s.mgt.uptime)

/-- HELLO_LOCK_END (R476): the refusal ends after 60 s. -/
def execHelloLockEnd (p : Port) (s : State) : Result :=
  .next (if s.refusalOver p.val then s.setBit (aSEC_SESS p.val) fSEC_SESS_REFUSED false else s)

/-- A session whose frame counter has reached 2⁴⁸ in either direction ends (R478). -/
def State.endSpent (s : State) (p : Nat) : State :=
  if s.session p ∧ (2 ^ 48 ≤ (s.link p).txFrames ∨ 2 ^ 48 ≤ (s.link p).rxFrames) then s.endSession p 0x78 else s

/-- CLOSE (R479): answered in the session, which then ends. -/
def execClose (p : Port) (s : State) : Result :=
  .next (if s.session p.val then (s.secReply p 4 0 []).endSession p.val 4 else s.secReply p 4 1 [])

/-! ## Services -/

/-- The attestation report (R472), without its signature. -/
def State.report (s : State) (nonce : List Byte) : List Byte :=
  let wideDig (a : Nat) : List Byte := (List.range 12).flatMap (fun i => leBytes 4 (s.reg (a + 4 * i)).toNat)
  leBytes 4 0x41D72E93 ++ leBytes 2 1 ++ leBytes 1 (s.fld aSEC_STAT fSEC_STAT_APPROVED)
    ++ leBytes 1 (s.fld aSEC_STAT fSEC_STAT_SLOT) ++ leBytes 8 (s.wide aGLB_SERIAL 2)
    ++ fit 32 nonce ++ leBytes 8 s.count.toNat
    ++ leBytes 1 (s.tbState + 8 * s.fld aTBS_STATE fTBS_STATE_TIME_VALID) ++ leBytes 1 s.twin ++ leBytes 2 0
    ++ leBytes 4 (s.reg aSEC_FWVER).toNat ++ digestBytes (s.fwSlot (s.fld aSEC_STAT fSEC_STAT_SLOT)).digest
    ++ digestBytes s.csDig ++ wideDig aSTR_DIG ++ leBytes 8 (s.wide aSTR_SERIAL 2)
    ++ leBytes 4 s.calRec.seq.toNat ++ leBytes 1 (s.fld aCAL_REC fCAL_REC_SRC) ++ leBytes 3 0
    ++ digestBytes s.calDigest
    ++ (List.range 4).flatMap (fun f => leBytes 4 (s.reg (aSEC_FLOOR f)).toNat)
    ++ leBytes 4 (s.reg aSEC_SLOTS).toNat ++ leBytes 4 0 ++ leBytes 8 (s.wide aSEC_HSS 2)

/-- ATTEST (R472, R474): the request for the signature of a report enters the island's queue; the report is formed and sent
when the request is served. -/
def execAttest (p : Port) (nonce : List Byte) (s : State) : Result :=
  .next (s.service p 5 anyRole (fun s =>
    if nonce.length ≠ 32 then s.secReply p 5 3 [] else s.askSig (.attest p nonce)))

/-- CERT (R471). -/
def execCert (p : Port) (s : State) : Result :=
  .next (s.service p 6 anyRole (fun s => s.secReply p 6 0 Config.identityChain))

/-- SEALSIG (R480): the seal value and its signature, NOT_HELD, or PENDING. -/
def execSealsig (p : Port) (sealno : Word) (s : State) : Result :=
  .next (s.service p 7 anyRole (fun s =>
    match s.acq.seals.find? (fun x => x.1 == sealno) with
    | none => s.secReply p 7 6 []
    | some (_, v, some sig) => s.secReply p 7 0 (leBytes 4 sealno.toNat ++ digestBytes v ++ sig)
    | some (_, _, none) => s.secReply p 7 7 []))

/-- A self-test's outcome (R464): READY again on a pass, ERROR and FS 112 on a failure. -/
def State.selftestOutcome (s : State) (pass : Bool) : State :=
  if pass then (s.setFld aSEC_STAT fSEC_STAT_STATE seReady).causeOff 112 0
  else (((s.setFld aSEC_STAT fSEC_STAT_STATE seError).latch aSEC_LAT fSEC_LAT_STFAIL).causeOn 112 0).raise 112 islSecurity

/-- SELFTEST (R464): the only service that an island in ERROR still runs, since it leaves ERROR by it. -/
def execSelftest (p : Port) (pass : Bool) (s : State) : Result :=
  if s.session p.val && engRole (s.sessRole p.val) && !s.sec.provisional.getD p.val false then
    .next ((s.selftestOutcome pass).secReply p 8 (if pass then 0 else 4) [])
  else .next (s.secReply p 8 1 [])

/-- ENTROPY_HEALTH_FAIL (R464). -/
def execEntropyHealthFail (s : State) : Result := .next (s.selftestOutcome false)

/-- ENROLL (R466): a free customer slot, non-zero usage bits and the two public keys (157 bytes, R462). -/
def execEnroll (p : Port) (slot : Byte) (usage : Byte) (keys : List Byte) (s : State) : Result :=
  .next (s.service p 9 secRole (fun s =>
    if 8 ≤ slot.toNat ∨ usage &&& 7 = 0 ∨ keys.length ≠ 157 then s.secReply p 9 3 []
    else if (s.keySlot slot.toNat).used || (s.keySlot slot.toNat).revoked then s.secReply p 9 2 []
    else (s.setKeySlot slot.toNat
      { used := true, revoked := false, usage := usage.setWidth 3, anchor := Config.sha384 keys }).secReply p 9 0 []))

/-- What a content key's signature covers (R468): the module serial, the slot, the generation, the SHA-384 of the key. -/
def State.keyMessage (s : State) (slot : Byte) (generation : BitVec 16) (key : BitVec 256) : List Byte :=
  leBytes 8 (s.wide aGLB_SERIAL 2) ++ [slot] ++ leBytes 2 generation.toNat
    ++ digestBytes (Config.sha384 (leBytes 32 key.toNat))

/-- ENROLL_CK (R468): a content key in slots 1 to 7, signed by a live customer anchor with PATCH usage, its generation not below
the present one. -/
def execEnrollCk (p : Port) (slot : Byte) (generation : BitVec 16) (key : BitVec 256) (sig : List Byte)
    (s : State) : Result :=
  .next (s.service p 10 secRole (fun s =>
    let g : BitVec 16 × BitVec 256 := Tab.get (fun _ => (0, 0)) s.sec.content slot.toNat
    if slot.toNat = 0 ∨ 8 ≤ slot.toNat then s.secReply p 10 3 []
    else if !((List.range 8).any (fun n =>
        s.slotLive n 1 && Config.verify (s.keySlot n).anchor (s.keyMessage slot generation key) sig)) then
      s.secReply p 10 4 []
    else if generation.toNat < g.1.toNat then s.secReply p 10 2 []
    else { s with sec := { s.sec with
      content := Tab.set (fun _ => (0, 0)) s.sec.content slot.toNat (generation, key) } }.secReply p 10 0 []))

/-- The vendor slot of the same use as vendor slot `k` (R465): boot, patch and reference anchors come in pairs; the
provisioning anchor has none. -/
def vendorPair (k : Nat) : Option Nat := if k < 6 then some (if k % 2 = 0 then k + 1 else k - 1) else none

/-- REVOKE (R466): a customer slot by its number, a vendor slot k as 80h + k, in the order of R465, with a signature by the other
anchor of the same use. -/
def execRevoke (p : Port) (slot : Byte) (sig : List Byte) (s : State) : Result :=
  .next (s.service p 11 secRole (fun s =>
    if slot.toNat < 8 then
      (s.setKeySlot slot.toNat { s.keySlot slot.toNat with revoked := true }).secReply p 11 0 []
    else
      let v := slot.toNat - 0x80
      if slot.toNat < 0x80 ∨ 7 ≤ v then s.secReply p 11 3 []
      else match vendorPair v with
        | none => s.secReply p 11 2 []
        | some o =>
          if s.sec.vendorRevoked.getLsbD o then s.secReply p 11 2 []
          else if !(Config.revokeSigned (Config.vendorAnchor o) v sig) then s.secReply p 11 4 []
          else
            { s.setFld aSEC_SLOTS ⟨16 + v, 16 + v⟩ 1 with sec := { s.sec with
              vendorRevoked := s.sec.vendorRevoked ||| (1#7 <<< v) } }.secReply p 11 0 []))

/-- The VERSION of the object of a kind in force (R467): firmware, vendor patch, customer patch, stream. -/
def State.objVersion (s : State) (which : Nat) : Nat :=
  if which = 0 then (s.reg aSEC_FWVER).toNat
  else if which = 3 then s.str.version.toNat
  else (s.sec.patchVersions.getD (which - 1) 0).toNat

/-- FLOOR (R467): up to the VERSION in force, one fuse of 255 for each raise. -/
def execFloor (p : Port) (which : Byte) (value : Word) (s : State) : Result :=
  .next (s.service p 12 secRole (fun s =>
    let f := which.toNat
    if 4 ≤ f then s.secReply p 12 3 []
    else if s.objVersion f < value.toNat ∨ value.toNat ≤ (s.reg (aSEC_FLOOR f)).toNat then s.secReply p 12 2 []
    else if 255 ≤ s.sec.floorRaises.getD f 0 then s.secReply p 12 8 []
    else { s.setReg (aSEC_FLOOR f) value with sec := { s.sec with
      floors := s.sec.floors.set f value.toNat
      floorRaises := s.sec.floorRaises.set f (s.sec.floorRaises.getD f 0 + 1) } }.secReply p 12 0 []))

/-- MODE (R463): the fuse is burnt; the mode follows at the next start. -/
def execMode (p : Port) (s : State) : Result :=
  .next (s.service p 13 secRole (fun s =>
    { s with sec := { s.sec with approvedFuse := true } }.secReply p 13 0 []))

/-- ZEROISE (R481): the fuse, the keys and the field records go, a signature in progress with the requests that wait, every
session ends, FS 116 is raised, the spill store's erase begins and its blocks are lost. -/
def execZeroise (p : Port) (s : State) : Result :=
  .next (s.service p 14 secRole (fun s =>
    let s1 := s.secReply p 14 0 []
    let s2 := { s1 with sec := { s1.sec with zeroisedFuse := true, content := [], exch := [], requests := [] } }.eraseFieldRecords
    let s3 := ((s2.endSession 0 14).endSession 1 14).setFld aSEC_STAT fSEC_STAT_STATE seZeroised
    let s4 := (s3.setReg aSPL_USED 0).latch aSEC_STAT fSEC_STAT_ERASING
    let lose (s : State) (c : Nat) : State := s.setStream c { s.stream c with spilled := [], old := [] }
    ((lose (lose s4 0) 1).setWide aSPL_RD 2 (s4.wide aSPL_WR 2)).raise 116 islSecurity))

/-- SPILL_ERASE_DONE (R481): the store is erased and ERASING clears. -/
def execSpillEraseDone (s : State) : Result :=
  .next (if s.bit aSEC_STAT fSEC_STAT_ERASING then { s with spill := [] }.setBit aSEC_STAT fSEC_STAT_ERASING false else s)

/-- TREE_READY (R474): the tree of the present epoch, or the next in order, which a waiting signature then takes. -/
def execTreeReady (epochTree : Bool) (s : State) : Result :=
  if epochTree then .next (s.latch aSEC_HSSE fSEC_HSSE_EREADY)
  else if s.bit aSEC_STAT fSEC_STAT_TREEWAIT then .next (s.setBit aSEC_STAT fSEC_STAT_TREEWAIT false)
  else .next (s.latch aSEC_HSSE fSEC_HSSE_NREADY)

/-- PORT_ACCESS (R463): in the approved mode PORTACC latches and FS 125 is raised; otherwise the port is open and the
access has no effect on the state. -/
def execPortAccess (s : State) : Result :=
  if s.bit aSEC_STAT fSEC_STAT_APPROVED then .next ((s.latch aSEC_LAT fSEC_LAT_PORTACC).raise 125 islSecurity)
  else .next s

/-- The seal of a SEALNO gets its signature. -/
def signSeal (no : Word) (sig : List Byte) (xs : List (Word × BitVec 384 × Option (List Byte))) :
    List (Word × BitVec 384 × Option (List Byte)) :=
  xs.map (fun x => if x.1 = no ∧ x.2.2 = none then (x.1, x.2.1, some sig) else x)

/-- The entry of the calibration record that is signed next, as bytes (R363, R367). -/
def State.recordMessage (s : State) : List Byte :=
  match s.calRec.forming[s.calRec.signed]? with
  | some (k, e) => leBytes 2 k ++ leBytes 7 e.coef.f0.toNat ++ leBytes 6 e.coef.c0.toNat ++ leBytes 6 e.coef.c1.toNat
    ++ leBytes 6 e.coef.c2.toNat ++ leBytes 4 e.rsh.toNat
  | none => []

/-- A request served (R474, R480): the seal's signature joins it where it is still held; a calibration record is signed; a
port's PROOF goes out; a report is formed and sent with its trailer. -/
def State.serveSig (s : State) : SigReq → State
  | .seal no =>
    match s.acq.seals.find? (fun x => x.1 == no && x.2.2.isNone) with
    | none => s
    | some (_, v, _) =>
      let r := s.signMsg (digestBytes v)
      { r.2 with acq := { r.2.acq with seals := signSeal no r.1 r.2.acq.seals } }.showSealq
  | .cal =>
    let r := s.signMsg s.recordMessage
    { r.2 with calRec := { r.2.calRec with signed := r.2.calRec.signed + 1 } }
  | .proof p =>
    match s.exchange p.val with
    | none => s
    | some x =>
      let r := s.signMsg x.digest
      (r.2.setExchange p.val (some { x with transcript := x.transcript ++ r.1, proved := true })).secReply p 2 0 r.1
  | .attest p nonce =>
    let r := s.signMsg (s.report nonce)
    r.2.secReply p 5 0 (s.report nonce ++ trailer r.1)

/-- No index is left: a PROOF fails, a report is answered with EXHAUSTED (R473, R479); seals and records wait. -/
def State.exhaustSig (s : State) : SigReq → State
  | .proof p => (s.failExchange p.val).secReply p 2 4 []
  | .attest p _ => s.secReply p 5 8 []
  | _ => s

/-- The first request leaves the queue. -/
def State.popSig (s : State) : State := { s with sec := { s.sec with requests := s.sec.requests.drop 1 } }

/-- Requests that need no command of their own are served in order, up to the first seal or as long as signing is available
(R474). -/
def State.serveSigs : Nat → State → State
  | 0, s => s
  | n + 1, s =>
    match s.sec.requests with
    | [] => s
    | (_, .seal _) :: _ => s
    | (_, r) :: _ =>
      if !s.secUp then s
      else if s.maySign then State.serveSigs n (s.popSig.serveSig r)
      else if 2 ^ 40 ≤ s.sec.q then State.serveSigs n (s.popSig.exhaustSig r)
      else s

/-- SEAL_SIGN (R480, R473, R326): the first request in order, which is a seal unless signing was not available, is signed.
`good` is whether the HSS state could be committed where the signature needs it: on a failure signing is suspended and FS 115
raised; a later commit ends it. -/
def execSealSign (good : Bool) (s : State) : Result :=
  match s.sec.requests with
  | [] => .next s
  | (_, r) :: _ =>
    if s.secUp = false ∨ 2 ^ 40 ≤ s.sec.q then .next s
    else if s.sec.reservedTo ≤ s.sec.q ∧ good = false then
      if s.bit aSEC_STAT fSEC_STAT_SUSP then .next s
      else .next ((((s.latch aSEC_STAT fSEC_STAT_SUSP).latch aSEC_LAT fSEC_LAT_HSSSUSP).causeOn 115 0).raise 115
        islSecurity)
    else
      let s1 := (s.setBit aSEC_STAT fSEC_STAT_SUSP false).causeOff 115 0
      .next (if s1.maySign then s1.popSig.serveSig r else s1)

end Sys2Proof.Machine
end

