-- ==== Sys2Proof/Machine/Links.lean ====
section
/-! DEFINITION. Links (chapter 16): training and power states, frames, acknowledgement, credits and replay, requests and
their responses, streams. -/
namespace Sys2Proof.Machine

/-! ## Link states (R403, R404) -/

/-- The state with a link's LTSSM set, from now on; LNK_STAT follows, and both directions are in L0. -/
def State.setLtssm (s : State) (l : Link) (v : Nat) : State :=
  let s0 := s.setLink (linkKey l) { s.link (linkKey l) with since := s.count, pwr := 0, st := if l = .ringOut then v else 0 }
  match l with
  | .port p =>
    let w := putF (putF (putF (s0.reg (aLP_STAT p.val)) fLP_STAT_TXPWR 0) fLP_STAT_RXPWR 0) fLP_STAT_LTSSM v
    (s0.setReg (aLP_STAT p.val) w).setBit aLNK_STAT ⟨p.val, p.val⟩ (v == ltActive)
  | .col =>
    (s0.setReg aLC_STAT (putF (putF (s0.reg aLC_STAT) fLC_STAT_TXPWR 0) fLC_STAT_LTSSM v)).setBit aLNK_STAT
      fLNK_STAT_COL_UP (v == ltActive)
  | .ringIn => (s0.setFld aLR_STAT fLR_STAT_LTSSM v).setBit aLNK_STAT fLNK_STAT_RING_IN (v == ltActive)
  | .ringOut => s0.setBit aLNK_STAT fLNK_STAT_RING_OUT (v == ltActive)

/-- The LTSSM state of a link. -/
def State.ltOf (s : State) (l : Link) : Nat := s.ltssm (linkKey l)

/-- Waiting frames go out while credits and the link allow, oldest of each VC first. -/
def State.flush (s : State) (l : Nat) : Nat → State
  | 0 => s
  | n + 1 =>
    let x := s.link l
    match x.waiting.find? (fun w => x.mayGo (s.sends l) w.1) with
    | none => s
    | some w => ((s.setLink l { x with waiting := x.waiting.erase w }).pushOn l w.1 w.2).flush l n

/-- The credits at the entry to ACTIVE (R410): 64 control, 128 bulk, 32 stream, 16 management. -/
def entryGrants : List (BitVec 8) := [64, 128, 32, 16]

/-- A port narrower or slower than its LP_CFG allows (R403). -/
def State.degraded (s : State) (p : Nat) : Bool :=
  s.ltssm p == ltActive
    && (decide (s.fld (aLP_CFG p) fLP_CFG_MAXW < s.fld (aLP_STAT p) fLP_STAT_WIDTH)
      || decide (s.fld (aLP_CFG p) fLP_CFG_MAXRATE < s.fld (aLP_STAT p) fLP_STAT_RATE))

/-- DEGRADED and FS 102 for a port that has come up; its cause ends when every enabled port is as configured (R430). -/
def State.judgeDegraded (s : State) (p : Nat) : State :=
  if s.degraded p then
    let s1 := s.latch aLNK_LAT fLNK_LAT_DEGRADED
    if s1.causeAt 102 p then s1 else (s1.causeOn 102 p).raise 102 islLink
  else s.causeOff 102 p

/-- The class streams that a port was sending, as the assigned port or for one that is down, are sent again from the oldest
record not taken (R420). -/
def State.rewindStreams (s : State) (p : Nat) : State :=
  let f (s : State) (c : Nat) : State :=
    let code := s.fld aLNK_STRM ⟨2 * c + 1, 2 * c⟩
    if code % 2 = p ∨ (2 ≤ code ∧ s.ltssm (1 - p) < ltActive) then
      s.setStream c { s.stream c with sent := (s.stream c).taken }
    else s
  f (f (f (f s 0) 1) 2) 3

/-- The requests that still wait when their port goes down are performed and not answered (R413); reads have no other
effect. -/
def LinkState.hush (x : LinkState) : List Stalled :=
  x.stalled.filterMap (fun y => match y with
    | .rd _ => none
    | .wr f i waits role st bad _ => some (.wr f i waits role st bad true))

/-- A host port goes down (R413): DOWN and FS 96, the session, the replay buffer, the credits and frames not taken end;
accepted actions stay in the due queue. -/
def State.portDown (s : State) (p : Port) : State :=
  let s1 := (s.endSession p.val 0x13).setLink p.val { stalled := (s.link p.val).hush }
  let s2 := s1.setFld aLNK_LAT ⟨p.val, p.val⟩ 1
  let s3 := if s2.causeAt 96 p.val then s2 else (s2.causeOn 96 p.val).raise 96 islLink
  s3.rewindStreams p.val

/-- Entry to RECOVERY (R403, R413): the replay buffer and credits are kept. -/
def State.toRecovery (s : State) (l : Link) : State :=
  let s1 := s.setLtssm l ltRecovery
  match l with
  | .port p => s1.bump (aLP_RETRAIN p.val)
  | .col => (s1.latch aLNK_LAT fLNK_LAT_COLERR).raise 101 islLink
  | _ => s1

/-- LINK_DETECT (R403). -/
def execLinkDetect (l : Link) (s : State) : Result :=
  .next (if s.ltOf l = ltDetect then s.setLtssm l ltPoll else s)

/-- POLL_DONE (R403). -/
def execPollDone (l : Link) (s : State) : Result :=
  .next (if s.ltOf l = ltPoll then s.setLtssm l ltConfig else s)

/-- The width and rate a port reports. -/
def State.setWidth (s : State) (l : Link) (width rate : BitVec 2) : State :=
  match l with
  | .port p => (s.setFld (aLP_STAT p.val) fLP_STAT_WIDTH width.toNat).setFld (aLP_STAT p.val) fLP_STAT_RATE rate.toNat
  | _ => s

/-- At least `t` TBU have passed in the present state of a link. -/
def State.stateFor (s : State) (l : Link) (t : Count) : Bool := Count.upto ((s.link (linkKey l)).since + t) s.count

/-- CONFIG_DONE (R403, R410): ACTIVE with fresh sequence numbers and the entry credits; a col link that trained narrower
than x8 does not come up. -/
def execConfigDone (l : Link) (width rate : BitVec 2) (s : State) : Result :=
  if s.ltOf l = ltConfig then
    match l with
    | .port p =>
      let s0 := (s.setLtssm l ltActive).setWidth l width rate
      let s1 := s0.setLink p.val
        { s0.link p.val with grants := entryGrants, rxNext := 0, txNext := 0, held := [], sent := [0, 0, 0, 0], owed := [0, 0, 0, 0] }
      .next ((s1.causeOff 96 p.val).judgeDegraded p.val)
    | .col =>
      if width ≠ 0 then .next (s.setLtssm l ltDetect)
      else
        let s0 := s.setLtssm l ltActive
        .next (s0.setLink 2 { s0.link 2 with grants := entryGrants })
    | .ringIn => .next ((s.setLtssm l ltActive).causeOff 100 0)
    | .ringOut => .next (s.setLtssm l ltActive)
  else .next s

/-- TRAIN_TIMEOUT (R403): after 24 ms in POLL or in CONFIG. -/
def execTrainTimeout (l : Link) (s : State) : Result :=
  .next (if (s.ltOf l = ltPoll ∨ s.ltOf l = ltConfig) ∧ s.stateFor l 4608000000 then s.setLtssm l ltDetect else s)

/-- RECOVERY_DONE (R403): ACTIVE again with replay buffer and credits. -/
def execRecoveryDone (l : Link) (width rate : BitVec 2) (s : State) : Result :=
  if s.ltOf l = ltRecovery then
    let s1 := (s.setLtssm l ltActive).setWidth l width rate
    match l with
    | .port p =>
      let s2 := s1.judgeDegraded p.val
      .next (s2.flush p.val ((s2.link p.val).waiting.length))
    | .col => .next (s1.flush 2 ((s1.link 2).waiting.length))
    | .ringIn => .next (s1.causeOff 100 0)
    | .ringOut => .next s1
  else .next s

/-- RECOVERY_TIMEOUT (R403, R413): after 2 ms in RECOVERY the link is down. -/
def execRecoveryTimeout (l : Link) (s : State) : Result :=
  if s.ltOf l = ltRecovery ∧ s.stateFor l 384000000 then
    let s1 := s.setLtssm l ltDetect
    match l with
    | .port p => .next (s1.portDown p)
    | .col => .next (s1.setLink 2 {})
    | _ => .next s1
  else .next s

/-- LOSS_OF_ALIGNMENT (R403, R429). -/
def execLossOfAlignment (l : Link) (s : State) : Result :=
  let s1 := if s.ltOf l = ltActive then s.toRecovery l else s
  match l with
  | .ringIn =>
    let s2 := if s.fld aTBS_SRC fTBS_SRC_SRC = 1 then s1.setBit aTBS_STATE fTBS_STATE_REF_PRESENT false else s1
    .next (if s2.causeAt 100 0 then s2 else (s2.causeOn 100 0).raise 100 islLink)
  | _ => .next s1

/-- LP_RETRAIN (R403, R431). -/
def execLpRetrain (p : Port) (s : State) : Result :=
  .next (if s.ltssm p.val = ltActive then s.toRecovery (.port p) else s)

/-- LP_EN_WRITE (R431): EN and EVT take the data; a disabled port is DISABLED and down, an enabled one passes to
DETECT. -/
def execLpEnWrite (p : Port) (data : Word) (s : State) : Result :=
  let was := s.bit (aLP_CTL p.val) fLP_CTL_EN
  let s1 := s.setReg (aLP_CTL p.val) (data &&& 3)
  if data.getLsbD 0 then
    .next (if was then s1 else if s.blkOn 13 then s1.setLtssm (.port p) ltDetect else s1)
  else if was then
    let s2 := (s1.endSession p.val 0x31).setLink p.val { stalled := (s1.link p.val).hush }
    .next ((s2.setLtssm (.port p) ltDisabled).rewindStreams p.val)
  else .next s1

/-- The power state of a direction (R404): of the module's transmitter, or of the partner's. -/
def State.setPower (s : State) (l : Link) (transmit : Bool) (v : Nat) : State :=
  match l with
  | .port p => s.setFld (aLP_STAT p.val) (if transmit then fLP_STAT_TXPWR else fLP_STAT_RXPWR) v
  | .col => if transmit then s.setFld aLC_STAT fLC_STAT_TXPWR v else s
  | l => s.setLink (linkKey l) { s.link (linkKey l) with pwr := v }

/-- A link may use LS (R404): host ports with LS_IDLE not 0; the ring where LS_EN is 1; the col link outside JOINING,
STANDBY and ACTIVE. The partner's direction is the partner's own choice. -/
def State.maySleep (s : State) (l : Link) (transmit : Bool) : Bool :=
  match l with
  | .port p => !transmit || s.fld (aLP_PWR p.val) fLP_PWR_LS_IDLE != 0
  | .col => !(s.isStandby || s.twin == twActive)
  | _ => s.bit aLR_CFG fLR_CFG_LS_EN

/-- The transmitter of a link has been idle for a time in TBU, and nothing waits to be sent that may go (R404). -/
def State.idleFor (s : State) (l : Link) (t : Nat) : Bool :=
  let x := s.link (linkKey l)
  Count.upto (x.sentAt.getD x.since + BitVec.ofNat 72 t) s.count && !(x.waiting.any (fun w => x.mayGo true w.1))

/-- The idle time of the module's transmitter before LS, and before LD, in TBU (R404, R431). -/
def State.lsIdle (s : State) : Link → Nat
  | .port p => s.fld (aLP_PWR p.val) fLP_PWR_LS_IDLE * 192
  | _ => 0
def State.ldIdle (s : State) (p : Port) : Nat := s.fld (aLP_PWR p.val) fLP_PWR_LD_IDLE * 192000

/-- LS_ENTRY (R404): the module's transmitter after LS_IDLE of idleness; the partner's when it says so. -/
def execLsEntry (l : Link) (transmit : Bool) (s : State) : Result :=
  .next (if s.ltOf l = ltActive ∧ s.maySleep l transmit ∧ (transmit = false ∨ s.idleFor l (s.lsIdle l)) then
    s.setPower l transmit 1 else s)

/-- LD_ENTRY (R404): host ports alone, with LD_IDLE not 0, after LD_IDLE of idleness. -/
def execLdEntry (p : Port) (transmit : Bool) (s : State) : Result :=
  .next (if s.ltssm p.val = ltActive ∧ (transmit = false
      ∨ (s.fld (aLP_PWR p.val) fLP_PWR_LD_IDLE ≠ 0 ∧ s.idleFor (.port p) (s.ldIdle p))) then
    s.setPower (.port p) transmit 2 else s)

/-- The LCTL frame that a link's receiver would send now: ACKSEQ the last frame taken, the limits granted. -/
def State.lctlNow (s : State) (l : Link) (nak : Bool) : State :=
  let x := s.link (linkKey l)
  ((s.setLink (linkKey l) { x with lctlOwed := none }).emit (.lctl l nak (x.rxNext - 1) x.grants)).sentOn (linkKey l)

/-- LINK_WAKE (R404): what waited for the transmitter to wake goes out. -/
def execLinkWake (l : Link) (transmit : Bool) (s : State) : Result :=
  let s1 := s.setPower l transmit 0
  if transmit then
    let s2 := match (s.link (linkKey l)).lctlOwed with
      | some nak => s1.lctlNow l nak
      | none => s1
    .next (s2.flush (linkKey l) ((s2.link (linkKey l)).waiting.length))
  else .next s1

/-- The lanes of a link as it has trained (R398). -/
def State.lanes (s : State) : Link → Nat
  | .port p => [4, 2, 1].getD (s.fld (aLP_STAT p.val) fLP_STAT_WIDTH) 1
  | .col => 8
  | _ => 1

/-- What the module's transmitter of a link repeats while no frame goes out, with the link number and the sets of its training
sequences (R399 to R404). -/
def State.idleLine (s : State) (l : Link) (link rates widths flags : Byte) : List Column :=
  idleColumns (s.lanes l) (s.ltOf l) (s.txPower (linkKey l)) link rates widths flags

/-- The columns of a resend on a link. -/
def State.resendLine (s : State) (l : Link) : List Column := s.resendColumns (linkKey l) (s.lanes l)

/-! ## Acknowledgement, credits, replay (R410 to R413) -/

/-- Held frames up to an acknowledged SEQ leave the replay buffer. -/
def LinkState.ack (x : LinkState) (seq : BitVec 12) : LinkState :=
  { x with held := x.held.filter (fun h => decide (0 < (h.seq - seq).toNat) && decide ((h.seq - seq).toNat < 2048)) }

/-- Every held frame sent again, unchanged (R412): LP_REPLAY or LC_REPLAY counts each, FS 97 is raised; a fourth resend of
the oldest one takes the link to RECOVERY (R413). -/
def State.resend (s : State) (l : Link) : State :=
  let k := linkKey l
  let x := s.link k
  if x.held.isEmpty then s
  else
    let n := x.held.length
    let y := { x with held := x.held.map (fun (h : Held) => { h with resends := h.resends + 1 }) }
    let s1 := { s.setLink k { y with ackAt := s.count } with out := s.out ++ x.held.map (fun (h : Held) => h.frame) }.sentOn k
    let s2 := match l with
      | .port p => s1.bumpBy (aLP_REPLAY p.val) n
      | _ => s1.bumpBy aLC_REPLAY n
    let s3 := s2.raise 97 islLink
    match x.held.head? with
    | some h => if 4 ≤ h.resends + 1 then s3.toRecovery l else s3
    | none => s3

/-- LCTL (R411, R412): acknowledgement and limits; a NAK resends what is held beyond ACKSEQ. A bad CRC discards it. -/
def execLctl (l : Link) (nak : Bool) (ackSeq : BitVec 12) (limits : Vector (BitVec 8) 4) (crcGood : Bool)
    (s : State) : Result :=
  let k := linkKey l
  if s.ltOf l ≠ ltActive then .next s
  else if crcGood = false then
    .next (match l with
      | .port p => s.bump (aLP_CRCERR p.val)
      | _ => s)
  else
    let x := (s.link k).ack ackSeq
    let s0 := match l with
      | .col => s.peerHeard
      | _ => s
    let s1 := s0.setLink k { x with limits := limits.toList, ackAt := s.count }
    let s2 := if nak then s1.resend l else s1
    .next (s2.flush k ((s2.link k).waiting.length))

/-- Credits of a VC of a port are withheld (R416, R279, R348, R485): control credits while the due queue is full, a push of
the port is held, or training holds host accesses; management credits while no request slot is free. -/
def State.withheld (s : State) (p vc : Nat) : Bool :=
  (vc == 0 && (decide (8192 ≤ s.dueQueue p) || s.pushHeld p || s.bit aHBM_STAT fHBM_STAT_TRAINING))
    || (vc == 3 && decide (16 ≤ (s.slots p).length))

/-- The credits owed on the VCs of a port that are not withheld are granted. -/
def State.settleCredits (s : State) (p : Nat) : State :=
  let x := s.link p
  let g (vc : Nat) : BitVec 8 :=
    x.grants.getD vc 0 + (if s.withheld p vc then 0 else BitVec.ofNat 8 (x.owed.getD vc 0))
  let o (vc : Nat) : Nat := if s.withheld p vc then x.owed.getD vc 0 else 0
  s.setLink p { x with grants := (List.range 4).map g, owed := (List.range 4).map o }

/-- A frame taken: the next SEQ is expected and a credit of its VC is owed. -/
def State.takeFrame (s : State) (p : Port) (vc : Nat) : State :=
  let x := s.link p.val
  s.setLink p.val { x with rxNext := x.rxNext + 1, rxFrames := x.rxFrames + 1, owed := x.owed.set vc (x.owed.getD vc 0 + 1) }

/-- An LCTL frame is due: sent now, or once the transmitter has woken (R404). -/
def State.lctlOut (s : State) (l : Link) (nak : Bool) : State :=
  let s := match l with
    | .port p => s.settleCredits p.val
    | _ => s
  if s.txPower (linkKey l) = 0 then s.lctlNow l nak
  else
    let x := s.link (linkKey l)
    s.setLink (linkKey l) { x with lctlOwed := some (nak || x.lctlOwed.getD false) }

/-- LCTL_SEND (R411). -/
def execLctlSend (l : Link) (s : State) : Result :=
  .next (if s.ltOf l = ltActive then s.lctlOut l false else s)

/-- No acknowledgement has come for REPLAY_TO while frames were held (R412); the col link's timeout is not given (log entry
77). -/
def State.replayDue (s : State) : Link → Bool
  | .port p => Count.upto ((s.link p.val).ackAt + BitVec.ofNat 72 (s.fld (aLP_CFG p.val) fLP_CFG_REPLAY_TO * 192000)) s.count
  | _ => true

/-- REPLAY_TIMEOUT (R412, R413). -/
def execReplayTimeout (l : Link) (s : State) : Result :=
  .next (if s.ltOf l = ltActive ∧ s.replayDue l then s.resend l else s)

/-- How a sequenced frame of a host port is judged on arrival (R412). -/
inductive Taken where
  | take | nak | again
deriving DecidableEq, Repr

/-- The judgement by CRC and SEQ. -/
def judgeSeq (x : LinkState) (h : HostHdr) : Taken :=
  if h.crcGood = false then .nak
  else if h.seq = x.rxNext then .take
  else if (h.seq - x.rxNext).msb then .again
  else .nak

/-- A malformed frame (R409). -/
def State.malformed (s : State) (p : Port) : State :=
  ((s.latch aLNK_LAT fLNK_LAT_PROTO).bump (aLP_PROTO p.val)).raise 98 islLink

/-- A tag or counter that does not verify ends the session (R419). -/
def State.tagFail (s : State) (p : Port) : State :=
  ((((s.endSession p.val 0x19).latch aLNK_LAT fLNK_LAT_SESFAIL).bump (aLP_SESFAIL p.val)).raise 99 islLink)

/-- A RDR sent (R415). -/
def State.rdr (s : State) (p : Port) (h : HostHdr) (st : Nat) (data : List Byte) : State :=
  s.sendFrame p.val h.vc.toNat (.rdr p h.vc h.tag (BitVec.ofNat 3 st) data)

/-- The front of every sequenced host frame: taken in sequence, well formed, inside a session with a good tag; otherwise
what R409, R412, R417 and R419 say, with `answer` for a RD or WR: its address, and whether it writes, for ACC_REJECT (R47).
`go` is what the frame then does. -/
def State.frame (s : State) (p : Port) (h : HostHdr) (bad : Bool) (answer : Option (BitVec 48 × Bool)) (go : State → State) :
    State :=
  if s.ltssm p.val ≠ ltActive then s
  else match judgeSeq (s.link p.val) h with
    | .nak => (if h.crcGood then s else s.bump (aLP_CRCERR p.val)).lctlOut (.port p) true
    | .again => s.lctlOut (.port p) false
    | .take =>
      let s1 := s.takeFrame p h.vc.toNat
      if s.session p.val ∧ (h.prot = false ∨ h.tagGood = false) then s1.tagFail p
      else if h.reserved || bad then
        match answer with
        | some x => ((s1.malformed p).refuseHost p x.1 x.2).rdr p h stUnmapped []
        | none => s1.malformed p
      else if !(s.session p.val) then
        match answer with
        | some x => (s1.refuseHost p x.1 x.2).rdr p h stRole []
        | none => s1
      else go s1

/-- A RD performed now, and answered (R414, R415); one of HBM is answered when its requests have completed (R336, R341). -/
def State.performRead (s : State) (p : Port) (f : RdFrame) : State :=
  let n := f.lenM1.toNat + 1
  let r := s.hostRead p f.addr n
  if hostSpace f.addr = 2 ∧ r.1 = stOk then
    let lines := linesOf (hostOffset f.addr) n
    { r.2.2 with hbm := { r.2.2.hbm with
      reads := r.2.2.hbm.reads ++ [(⟨p, f.hdr.vc, f.hdr.tag, lines, 0, r.2.1⟩ : HbmRead)] } }.hbmRequests (6 + p.val) false
      lines
  else r.2.2.rdr p f.hdr r.1 r.2.1

/-- A WR to REG space, word by word from the `i`-th on (R44): a push that finds its queue full leaves the rest waiting, and the
answer with it (R279); else the words are forwarded (R380), and the WR is answered unless its port has gone down. -/
def State.wrWords (s : State) (p : Port) (f : WrFrame) (role : Nat) (quiet : Bool) :
    List Word → Nat → Nat → List Byte → State
  | [], _, st, bad =>
    let off := hostOffset f.addr
    let timed := if f.hdr.timed then some f.due else none
    let s1 := if s.forwards then s.forwardWords p off timed ((bytesWords bad).map (·.toNat)) (bytesWords f.data) else s
    let s2 := if !f.hdr.timed && st == stOk then
        s1.setLink p.val { s1.link p.val with untimed := some (s1.untimedDue (s1.forwards && forwardGroup off)) }
      else s1
    if quiet then s2 else s2.rdr p f.hdr st bad
  | w :: ws, i, st, bad =>
    let timed := if f.hdr.timed then some f.due else none
    let r := s.writeWords (.port p) (some role) (hostOffset f.addr + 4 * i) timed [w]
    if r.2.2.pushHeld p.val then
      let x := r.2.2.link p.val
      r.2.2.setLink p.val { x with
        stalled := .wr f (i + 1) true role (worse st r.1) (bad ++ r.2.1) quiet :: x.stalled }
    else r.2.2.wrWords p f role quiet ws (i + 1) (worse st r.1) (bad ++ r.2.1)

/-- A WR judged and answered (R415). -/
def State.wrGo (s : State) (p : Port) (f : WrFrame) (role : Nat) (quiet : Bool) : State :=
  let off := hostOffset f.addr
  let n := f.data.length
  if hostSpace f.addr = 0 ∧ n ≠ 0 ∧ off + n ≤ spaceSize 0 ∧ (regShape off n true).isNone then
    s.wrWords p f role quiet (bytesWords f.data) 0 stOk []
  else
    let r := s.hostWrite p f.addr (if f.hdr.timed then some f.due else none) f.data
    if quiet then r.2.2 else r.2.2.rdr p f.hdr r.1 r.2.1

/-- A request on the control VC waits: a push of its port is held, or requests wait behind one (R279). -/
def State.stalls (s : State) (p : Port) (h : HostHdr) : Bool :=
  h.vc == 0 && (s.pushHeld p.val || !(s.link p.val).stalled.isEmpty)

/-- The state with a request put behind those that wait. -/
def State.stall (s : State) (p : Port) (x : Stalled) : State :=
  s.setLink p.val { s.link p.val with stalled := (s.link p.val).stalled ++ [x] }

/-- RD (R407, R409, R414): on the control VC it waits for the untimed writes accepted before it. -/
def State.rdGo (s : State) (p : Port) (f : RdFrame) : State :=
  match (s.link p.val).untimed with
  | some d => if f.hdr.vc = 0 ∧ Count.before s.count d then s.hold (.port p) d (.read p f) else s.performRead p f
  | none => s.performRead p f

/-- The requests that waited behind a push which has been placed go on, in their order (R279, R414). -/
def State.drainStalled (s : State) (p : Port) : Nat → State
  | 0 => s
  | n + 1 =>
    if s.pushHeld p.val then s
    else match (s.link p.val).stalled with
      | [] => s
      | x :: rest =>
        let s1 := s.setLink p.val { s.link p.val with stalled := rest }
        match x with
        | .rd f => (s1.rdGo p f).drainStalled p n
        | .wr f i waits role st bad quiet =>
          if i = 0 then (s1.wrGo p f role quiet).drainStalled p n
          else
            let late := waits && s.sched.lateHeld.contains p.val
            let st1 := if late then worse st stLate else st
            let bad1 := if late then bad ++ leBytes 4 (hostOffset f.addr + 4 * (i - 1)) else bad
            let s2 := if late then s1.reject (.port p) .acc (hostOffset f.addr + 4 * (i - 1)) else s1
            (s2.wrWords p f role quiet ((bytesWords f.data).drop i) i st1 bad1).drainStalled p n

/-- RD (R407, R409): a request on the control VC waits behind a held push. -/
def execRd (p : Port) (f : RdFrame) (s : State) : Result :=
  let reg := hostSpace f.addr == 0
  let bad := f.hdr.timed || f.due != 0 || (f.hdr.vc != (if reg then 0 else 1))
  .next (s.frame p f.hdr bad (some (f.addr, false)) (fun s =>
    if s.stalls p f.hdr then s.stall p (.rd f) else s.rdGo p f))

/-- WR (R407, R409, R415, R416). -/
def execWr (p : Port) (f : WrFrame) (s : State) : Result :=
  let sp := hostSpace f.addr
  let vcOk := if sp = 0 then f.hdr.vc == 0 else if sp = 1 ∧ f.hdr.timed then f.hdr.vc == 0 else f.hdr.vc == 1
  let bad := !vcOk || (f.hdr.timed && decide (1 < sp)) || f.byte15 != 0 || decide (256 < f.data.length)
    || (!f.hdr.timed && f.due != 0)
  .next (s.frame p f.hdr bad (some (f.addr, true)) (fun s =>
    if s.stalls p f.hdr then s.stall p (.wr f 0 false (s.sessRole p.val) stOk [] false) else s.wrGo p f (s.sessRole p.val) false))

/-- STRM from the host (R408, R409, R420): TAKEN beyond the records sent is malformed. -/
def execStrm (p : Port) (h : HostHdr) (cls : Fin 4) (taken : BitVec 64) (s : State) : Result :=
  let bad := h.timed || h.vc != 2 || decide ((s.stream cls.val).sent < taken.toNat)
  .next (s.frame p h bad none (fun s =>
    if (s.stream cls.val).taken < taken.toNat ∧ (s.rights (s.sessRole p.val)).mem.getLsbD 5 then
      s.takeRecords cls.val taken.toNat else s))

end Sys2Proof.Machine
end

