-- ==== Sys2Proof/Machine/Monitors.lean ====
section
/-! DEFINITION. Window monitors (chapter 6): samples, filters, blanking, trips, enables and thresholds. -/
namespace Sys2Proof.Machine

/-! ## Samples (R145 to R148) -/

/-- A comparator's state after an unblanked sample: `v` in half LSB of the threshold scale, ABOVE true (R145). -/
def comparator (v : Int) (thr hyst : Nat) (old : Option Bool) : Option Bool :=
  if (2 * thr + hyst : Nat) ≤ v then some true else if v < (2 * thr : Int) - hyst then some false else old

/-- The latest blanking event of a monitor at or before the present cycle, by its source (R148). -/
def State.blankEvent (s : State) (n m : Nat) : Option Count :=
  let ch := chanOf n (m / 6)
  let src := s.fld (aMON_CFG n m) fMON_CFG_BSRC
  let now := Count.cycleStart s.count + cyc 1 - 1
  if src = 0 ∨ 24 ≤ m then none
  else if src = 5 then (s.chan ch).start
  else
    let takes (p : Nat) : Bool :=
      let r := s.role n p
      (r == roGH && src != 2) || (r == roGL && src != 1) || (r == roGD && src == 4)
    let later (x y : Option Count) : Option Count := match x, y with
      | some a, some b => if Count.before a b then some b else some a
      | some a, none => some a
      | none, y => y
    (s.chanMons ch).foldl (fun acc p => if takes p then later acc (s.pinEvent n p now) else acc) none

/-- The sample in the present cycle lies in an open blanking window (R148). -/
def State.blanked (s : State) (n m : Nat) : Bool :=
  let filt := s.fld (aMON_CFG n m) fMON_CFG_FILT
  if filt = 1 ∨ filt = 3 then
    match s.blankEvent n m with
    | some e =>
      let c := Count.cycleStart e
      Count.upto c s.count && Count.before s.count (c + cyc (s.fld (aMON_BLK n m) fMON_BLK_BLK_LEN))
    | none => false
  else false

/-- A mode uses the HI comparator, and the LO comparator (R146). -/
def usesHi (mode : Nat) : Bool := mode == 0 || mode == 2
def usesLo (mode : Nat) : Bool := mode == 1 || mode == 2

/-- A monitor reports UNSETTLED: disabled, or a comparator that its mode uses has no state (R153). -/
def Mon.unsettled (x : Mon) (mode : Nat) : Bool :=
  x.since.isNone || (usesHi mode && x.hi.isNone) || (usesLo mode && x.lo.isNone)

/-- A sample is a trip sample; a comparator with no state stands on the side that SAFE_SIDE names (R146, R153). -/
def Mon.tripSample (x : Mon) (mode : Nat) (safeClear : Bool) : Bool :=
  (usesHi mode && x.hi.getD (!safeClear)) || (usesLo mode && x.lo.getD (!safeClear))

/-! ## Trips (R151, R383) -/

/-- What a latch that changes from 0 to 1 does besides the inhibit (R151): flag, excursion entry, MON_TRIPS, FS 40, each
with the latch cycle. On a STANDBY the due time of the flag and of the entry, 96 cycles after the active's latch cycle, is the
present (R383). -/
def State.tripActions (s : State) (n m : Nat) (lo : Bool) (at_ : Count) : State :=
  let isl : Fin 80 := Fin.ofNat 80 n
  let ch := if m < 24 then chanOf n (m / 6) else 0xFFFF
  let code := s.fld (aMON_THR n m) (if lo then fMON_THR_LO else fMON_THR_HI)
  let s1 := (((s.bump (aMON_TRIPS n m)).setBit (aMON_STAT n m) fMON_STAT_LAST_SIDE lo).causeOn 40 n).raise 40 isl
  let detail := m + 128 * lo.toNat
  let s2 := if at_ = s.count then s1.excursion isl 1 detail ch at_ (BitVec.ofNat 32 code) 0
    else s1.hold (.island isl) (at_ + cyc 96) (.cmd
      (.excursionWrite 1 (BitVec.ofNat 8 detail) (BitVec.ofNat 16 ch) at_ (BitVec.ofNat 32 code) 0))
  if m < 24 && s2.bit (aMON_BIND n m) fMON_BIND_FLAG_EN then
    let flag := 1#64 <<< s2.fld (aMON_BIND n m) fMON_BIND_FLAG
    if at_ = s.count then s2.postAt isl (chanFin ch) flag 0 (at_ + cyc 96)
    else s2.hold (.island isl) (at_ + cyc 96) (.flags (chanFin ch) flag 0)
  else s2

/-- The inhibit set of a channel and of its gang forced by a latch that sets (R102, R103, R148): the override reaches the
driver inputs in cycle 2 after the latch cycle, and 6 cycles later in the gang's other islands (DEDUCED from the bounds of
R102 and R150, log entry 70). -/
def State.forceInh (s : State) (n m : Nat) : State :=
  if m < 24 && s.bit (aMON_BIND n m) fMON_BIND_INH then
    (s.members (chanOf n (m / 6))).foldl (fun s k =>
      s.hold (.island (Fin.ofNat 80 (islOf k))) (s.count + cyc (if islOf k = n then 2 else 8)) (.override (chanFin k))) s
  else s

/-- The inhibit network after a latch changed. -/
def State.settleMon (s : State) (n m : Nat) : State := if m < 24 then s.settleInh (chanOf n (m / 6)) else s

/-- A monitor whose latch is stood in for by the shadow of the active's (R383). -/
def State.shadowed (s : State) (n m : Nat) : Bool := s.twin == twStandby && s.monBound n m

/-! ## Meanings -/

/-- DIV of a monitor (R144). -/
def State.monDiv (s : State) (n m : Nat) : Nat := s.fld (aMON_TDIV n m) fMON_TDIV_DIVM1 + 1

/-- The thresholds of a sample cycle that begins with the present cycle (R156). -/
def State.monThr (s : State) (n m : Nat) : Word :=
  match (s.mon n m).thrOld with
  | some (c, w) => if c = s.count then w else s.reg (aMON_THR n m)
  | none => s.reg (aMON_THR n m)

/-- The present cycle is the sample cycle, three cycles after it, of a tick of a monitor that runs (R144, R155). -/
def State.monSamples (s : State) (n m : Nat) : Bool :=
  let c := Count.cycleStart s.count - cyc 3
  (s.mon n m).since.any (fun d => Count.upto d c) && c.toNat / 128 % s.monDiv n m == 0

/-- MONITOR_TICK (R144 to R149, R153): a sample in its cycle, three cycles after the tick; the cause is judged in the next
cycle. -/
def execMonitorTick (isl : Isl) (mon : PinNo) (v : BitVec 16) (s : State) : Result :=
  let n := isl.val
  let m := mon.val
  let x := s.mon n m
  if !(s.monSamples n m) || s.blanked n m then .next s
  else
    let cfg := s.reg (aMON_CFG n m)
    let thr := s.monThr n m
    let mode := getF cfg fMON_CFG_MODE
    let hi := if usesHi mode then comparator v.toInt (getF thr fMON_THR_HI) (getF thr fMON_THR_HI_HYST) x.hi else x.hi
    let loAbove := comparator v.toInt (getF thr fMON_THR_LO) (getF thr fMON_THR_LO_HYST) (x.lo.map (! ·))
    let lo := if usesLo mode then loAbove.map (! ·) else x.lo
    let safeClear := getF cfg fMON_CFG_SAFE_SIDE = 1
    let x1 := { x with hi := hi, lo := lo }
    let trip := x1.tripSample mode safeClear
    let hist := (trip :: x.history).take (getF cfg fMON_CFG_N)
    let filt := getF cfg fMON_CFG_FILT
    let uns := x1.unsettled mode
    let cause := (uns && !safeClear)
      || (if filt = 0 ∨ filt = 1 then trip else decide (getF cfg fMON_CFG_K ≤ hist.count true))
    let s1 := (s.setMon n m { x1 with history := hist }).setReg (aMON_STAT n m)
      (putF (putF (putF (putF (s.reg (aMON_STAT n m)) fMON_STAT_HI_ABOVE (hi.getD false).toNat)
        fMON_STAT_LO_BELOW (lo.getD false).toNat) fMON_STAT_HI_DEC hi.isSome.toNat) fMON_STAT_LO_DEC lo.isSome.toNat)
    let s2 := s1.monChange n m ((s1.reg (aMON_LAT n)).getLsbD m) uns s1.count
    .next (s2.hold (.island (Fin.ofNat 80 n)) (Count.cycleStart s.count + cyc 1)
      (.monCause isl mon cause (usesLo mode && lo.getD (!safeClear))))

/-- MON_CAUSE and MON_STAT show a monitor's cause. -/
def State.showCause (s : State) (n m : Nat) (cause : Bool) : State :=
  (s.setFld (aMON_CAUSE n) ⟨m, m⟩ cause.toNat).setBit (aMON_STAT n m) fMON_STAT_CAUSE cause

/-- The cause of a sample judged, in the cycle after it (R149): a trip sets the latch in the next cycle. -/
def State.judgeCause (s : State) (isl : Isl) (mon : PinNo) (cause lo : Bool) : State :=
  let n := isl.val
  let m := mon.val
  if (s.mon n m).since.isNone then s
  else
    let s1 := s.showCause n m cause
    if cause && !((s1.reg (aMON_LAT n)).getLsbD m) && !(s1.shadowed n m) then
      s1.hold (.island (Fin.ofNat 80 n)) (Count.cycleStart s.count + cyc 1) (.monLatch isl mon lo)
    else s1

/-- A monitor's latch sets (R149, R151); one that is already 1 takes none of the actions. -/
def State.setLatch (s : State) (isl : Isl) (mon : PinNo) (lo : Bool) : State :=
  let n := isl.val
  let m := mon.val
  let was := (s.reg (aMON_LAT n)).getLsbD m
  if (s.mon n m).since.isNone || was || s.shadowed n m then s
  else
    let s1 := (s.forceInh n m).monChange n m true ((s.reg (aMON_UNS n)).getLsbD m) s.count
    (s1.tripActions n m lo s.count).settleMon n m

/-- The bands of a threshold word touch (R155). -/
def bandsTouch (thr : Word) : Bool :=
  decide ((2 * getF thr fMON_THR_HI : Int) - getF thr fMON_THR_HI_HYST
    ≤ 2 * getF thr fMON_THR_LO + getF thr fMON_THR_LO_HYST)

/-- The enable of a monitor takes effect, at a tick (R153, R155): no comparator states and a non-trip history; under SAFE_SIDE
TRIP the latch sets, with the inhibit and none of the other actions of R151. -/
def State.monStart (s : State) (n m : Nat) : State :=
  if (s.mon n m).enableAt ≠ some s.count then s
  else
    let trip := s.fld (aMON_CFG n m) fMON_CFG_SAFE_SIDE = 0
    let s1 := s.setMon n m { s.mon n m with
      hi := none, lo := none, history := [], since := some s.count, enableAt := none, told := false }
    let s2 := (s1.setFld (aMON_CAUSE n) ⟨m, m⟩ (decide trip).toNat).setReg (aMON_STAT n m)
      (putF (putF (putF (fldWord fMON_STAT_LAST_SIDE (s1.fld (aMON_STAT n m) fMON_STAT_LAST_SIDE))
        fMON_STAT_UNSETTLED 1) fMON_STAT_CAUSE (decide trip).toNat) fMON_STAT_ON 1)
    let was := (s2.reg (aMON_LAT n)).getLsbD m
    if trip ∧ s2.shadowed n m = false then
      ((if was then s2 else s2.forceInh n m).monChange n m true true s.count).settleMon n m
    else s2.monChange n m was true s.count

/-- MON_EN_WRITE (R153, R155): refused for its configuration, or, for a disable, while the monitor is bound to the
inhibit set of a channel with drivers enabled. An accepted enable takes effect at the first tick at or after its due time:
EN reads as written, and MON_STAT.ON shows the effect. -/
def execMonEnWrite (by_ : Issuer) (isl : Isl) (mon : PinNo) (en : Bool) (s : State) : Result :=
  let n := isl.val
  let m := mon.val
  let cfg := s.reg (aMON_CFG n m)
  let filt := getF cfg fMON_CFG_FILT
  if en then
    if s.bit (aMON_CTL n m) fMON_CTL_EN then .next s
    else if getF cfg fMON_CFG_N < getF cfg fMON_CFG_K ∨ ((filt = 1 ∨ filt = 3) ∧ getF cfg fMON_CFG_BSRC = 0)
        ∨ (getF cfg fMON_CFG_MODE = 2 ∧ bandsTouch (s.reg (aMON_THR n m)) = true) then
      .next (s.rejectVal by_ (aMON_CTL n m))
    else
      let tick := Count.ceilTo s.at (128 * s.monDiv n m)
      let s1 := (s.latch (aMON_CTL n m) fMON_CTL_EN).setMon n m { s.mon n m with enableAt := some tick }
      .next (if tick = s.count then s1.monStart n m
        else s1.hold (.island (Fin.ofNat 80 n)) tick (.monOn isl mon))
  else if m < 24 ∧ s.bit (aMON_BIND n m) fMON_BIND_INH = true ∧ s.drvEn (chanOf n (m / 6)) = true then
    .next (s.rejectVal by_ (aMON_CTL n m))
  else
    let s1 := (s.setFld (aMON_CTL n m) fMON_CTL_EN 0).setMon n m
      { s.mon n m with hi := none, lo := none, history := [], since := none, enableAt := none }
    let s2 := (s1.setFld (aMON_CAUSE n) ⟨m, m⟩ 0).setReg (aMON_STAT n m)
      (putF (fldWord fMON_STAT_LAST_SIDE (s1.fld (aMON_STAT n m) fMON_STAT_LAST_SIDE)) fMON_STAT_UNSETTLED 1)
    .next (s2.monChange n m ((s2.reg (aMON_LAT n)).getLsbD m) true s.count)

/-- MON_THR_WRITE (R156): states, history and latch are unchanged; in OUTSIDE mode a write that would make the bands of an
enabled monitor touch is refused. A sample of the cycle in which the write falls due keeps the old thresholds where that
cycle began before the due time. -/
def execMonThrWrite (by_ : Issuer) (isl : Isl) (mon : PinNo) (data : Word) (s : State) : Result :=
  let n := isl.val
  let m := mon.val
  if s.bit (aMON_CTL n m) fMON_CTL_EN = true ∧ s.fld (aMON_CFG n m) fMON_CFG_MODE = 2 ∧ bandsTouch data = true then
    .next (s.rejectVal by_ (aMON_THR n m))
  else
    let old := if s.at = s.count then none else some (s.count, s.monThr n m)
    .next ((s.setMon n m { s.mon n m with thrOld := old }).setReg (aMON_THR n m) data)

/-- A monitor that runs has ticked 65,536 times since its enable (R158). -/
def State.monTimedOut (s : State) (n m : Nat) : Bool :=
  (s.mon n m).since.any (fun d => Count.upto (d + cyc (65536 * s.monDiv n m)) s.count) && !(s.mon n m).told

/-- MON_UNSETTLED_TIMEOUT (R158): a bound, enabled monitor still UNSETTLED after 65,536 of its ticks raises FS 41. -/
def execMonUnsettledTimeout (isl : Isl) (mon : PinNo) (s : State) : Result :=
  let n := isl.val
  let m := mon.val
  if s.monTimedOut n m = true ∧ s.monBound n m = true
      ∧ (s.mon n m).unsettled (s.fld (aMON_CFG n m) fMON_CFG_MODE) = true then
    .next (((s.setMon n m { s.mon n m with told := true }).causeOn 41 n).raise 41 (Fin.ofNat 80 n))
  else .next s

end Sys2Proof.Machine
end

