-- ==== Sys2Proof/Machine/Twin.lean ====
section
/-! DEFINITION. Twin pairing and the col (chapter 15): ownership, negotiation, the shipped stream at the standby, digests,
the col, joins. -/
namespace Sys2Proof.Machine

/-! ## States and ownership (R373, R374, R376) -/

/-- A state that owns. -/
def owns (st : Nat) : Bool := st == twSolo || st == twActive

/-- OWN rises in an owning state while PEER_OWN is low (R373). -/
def State.riseOwn (s : State) : State :=
  if owns s.twin && !(s.bit aTWN_STAT fTWN_STAT_PEER_OWN) then s.latch aTWN_STAT fTWN_STAT_OWN else s

/-- The plausibility bits and the causes of FS 107 end: the check runs in STANDBY alone (R385). -/
def State.clearPlaus (s : State) : State :=
  let s1 := (List.range 16).foldl (fun s w => s.setReg (aTWN_PLAUS w) 0) s
  { s1 with causes := s1.causes.filter (fun c => c.1 ≠ 107), twn := { s1.twn with plausSince := [], missed := [] } }

/-- The twin state changes: OWN falls in a state that does not own, which ends a conflict (R395); ACTIVE and STANDBY end the
cause of FS 106; leaving STANDBY ends the check of R385. -/
def State.setTwin (s : State) (st : Nat) : State :=
  let s1 := s.setFld aTWN_STAT fTWN_STAT_STATE st
  let s2 := if owns st then s1.riseOwn else (s1.setBit aTWN_STAT fTWN_STAT_OWN false).causeOff 108 0
  let s3 := if st = twActive ∨ st = twStandby then s2.causeOff 106 0 else s2
  if s.twin = twStandby ∧ st ≠ twStandby then s3.clearPlaus else s3

/-- Event flags posted to every live task, due 96 cycles after an instant (R389, R394). -/
def State.postAll (s : State) (set : BitVec 64) (at_ : Count) : State :=
  s.liveTasks.foldl (fun s n => s.postAt islTwin (chanFin (s.task n).chan) set 0 (at_ + cyc 96)) s

/-- Twin lost or left: PEERLOST and FS 106 (R395). -/
def State.peerLost (s : State) : State := ((s.latch aTWN_LAT fTWN_LAT_PEERLOST).causeOn 106 0).raise 106 islTwin

/-- An active whose standby has gone: ACTIVE_SOLO, E_PEER posted (R394). -/
def State.loseStandby (s : State) : State := (s.setTwin twSolo).peerLost.postAll ePeer s.count

/-- HOLDOFF (R376): every DRV_EN clears; calibration sequences end (R364). -/
def State.enterHoldoff (s : State) : State :=
  ((List.range 256).foldl (fun s ch => s.driversOff ch) (s.setTwin twHoldoff)).seqEndAll 10 true

/-- JOINFAIL and FS 109 (R377, R393). -/
def State.joinFail (s : State) : State := (s.latch aTWN_LAT fTWN_LAT_JOINFAIL).raise 109 islTwin

/-- A join fails (R393): the joiner enters HOLDOFF. -/
def State.failJoin (s : State) : State :=
  let s1 := (s.setFld aTWN_JOIN fTWN_JOIN_PHASE 5).joinFail
  if s.isStandby then s1.enterHoldoff else if s.twin = twActive then s1.loseStandby else s1

/-- COPY begins (R393). -/
def State.startCopy (s : State) : State :=
  { s.setReg aTWN_JOIN (fldWord fTWN_JOIN_PHASE 1) with twn := { s.twn with origin := none, joinOrdered := false } }

/-- The digest of the stream in force without its TWIN section, as a HELLO carries it (R377, R447). -/
def State.tdig (s : State) : BitVec 384 :=
  BitVec.ofNat 384 (leNat ((List.range 12).flatMap (fun k => leBytes 4 (s.reg (aSTR_TDIG + 4 * k)).toNat)).reverse)

/-- The HELLO frame that the module sends (R377, R422). -/
def State.sendHello (s : State) : State :=
  s.sendFrame 2 1 (.hello ⟨s.bit aTWN_CFG fTWN_CFG_SIDE, s.bit aTWN_CFG fTWN_CFG_PREFER, BitVec.ofNat 4 s.twin, s.tdig, s.csDig⟩)

/-- JOINING (R376, R393): loops read shipped results, time comes over the col link. -/
def State.enterJoining (s : State) : State :=
  let s1 := ((s.setTwin twJoining).setReg aLPE_SRC 1).setReg aTBS_SRC 2
  ((s1.startCopy).seqEndAll 10 true).sendHello

/-- The role of ACTIVE_SOLO won (R61, R377): local results; the time source is FREE for the master, else RING. -/
def State.enterSolo (s : State) : State :=
  let src : Word := if s.bit aTBS_CTL fTBS_CTL_MPAIR then 0 else 1
  ((s.setTwin twSolo).setReg aLPE_SRC 0).setReg aTBS_SRC src

/-- The owner starts a join, unless its shipped charge exceeds the budget (R379, R393). -/
def State.startJoin (s : State) : State :=
  if 7680000000 < s.shipCharge then (s.setFld aTWN_JOIN fTWN_JOIN_PHASE 5).joinFail else s.startCopy

/-! ## Negotiation (R377) and PEER_OWN -/

/-- Negotiation begins at a structure load. -/
def State.negotiate (s : State) : State :=
  { (s.setTwin twNegotiate).sendHello with twn := { (s.setTwin twNegotiate).sendHello.twn with negFrom := some s.count } }

/-- 2 s in TBU: NEGTO. -/
def negTo : Count := 384000000000#72

/-- HELLO (R377, R393): the twin's state is shown; it decides a negotiation, and starts a join at an owner that admits
one. -/
def execHello (f : HelloFrame) (s : State) : Result :=
  let peer := f.state.toNat
  let s1 := ((s.setFld aTWN_STAT fTWN_STAT_PEER peer).peerHeard).latch aTWN_STAT fTWN_STAT_PRES
  let s2 := if owns peer then s1.latch aTWN_STAT fTWN_STAT_PEER_OWN else s1
  let side := s.bit aTWN_CFG fTWN_CFG_SIDE
  let prefer := s.bit aTWN_CFG fTWN_CFG_PREFER
  if s.twin = twNegotiate then
    if f.side = side ∨ f.digest ≠ s.tdig ∨ f.csDigest ≠ s.csDig then .next (s2.setTwin twDetached).joinFail
    else if owns peer then .next s2.enterJoining
    else if side = prefer then .next s2.enterSolo
    else .next s2.enterJoining
  else if s.twin = twSolo then
    let s3 := if peer = twNegotiate then s2.sendHello else s2
    if peer = twJoining ∧ s.joins = false ∧ (s.bit aTWN_CFG fTWN_CFG_AUTOJOIN ∨ s.twn.joinOrdered) then .next s3.startJoin
    else .next s3
  else .next s2

/-- NEGTO has passed since the negotiation began. -/
def State.negExpired (s : State) : Bool :=
  match s.twn.negFrom with
  | some t => Count.upto (t + negTo) s.count
  | none => false

/-- NEGOTIATE_TIMEOUT (R377), 2 s after the negotiation began; JOINFAIL is the latch of FS 109 (R396). -/
def execNegotiateTimeout (s : State) : Result :=
  if s.twin ≠ twNegotiate ∨ s.negExpired = false then .next s
  else if s.bit aTWN_STAT fTWN_STAT_PEER_OWN then .next (s.setTwin twDetached).joinFail
  else .next s.enterSolo

/-- A col request of this module (R388): its COL_APPLY held for D, the request shipped to the twin. -/
def State.requestCol (s : State) (cause : BitVec 4) (d : Count) : State :=
  let s1 := s.hold (.island islTwin) d (.cmd (.colApply cause))
  { s1 with twn := { s1.twn with ship := s1.twn.ship ++ [.col cause d] } }

/-- A col is to be applied. -/
def State.colHeld (s : State) : Bool :=
  s.agenda.any (fun (d : Due) => match d.act with
    | .cmd (.colApply _) => true
    | .shipped (.col _ _) => true
    | _ => false)

/-- PEER_OWN_LOW (R373, R388): low for 30 cycles: a conflict has ended, an owning module raises OWN, a standby outside a col
takes over. -/
def execPeerOwnLow (s : State) : Result :=
  let s1 := (s.setBit aTWN_STAT fTWN_STAT_PEER_OWN false).causeOff 108 0
  if s.twin = twStandby ∧ s.colHeld = false then
    .next (s1.hold (.island islTwin) (s.count + cyc 96) (.cmd (.colApply 4)))
  else .next s1.riseOwn

/-- OWN_CONFLICT (R374): PEER_OWN high for 30 cycles while the module holds OWN; SIDE B drops OWN and enters HOLDOFF. -/
def execOwnConflict (s : State) : Result :=
  let s1 := s.latch aTWN_STAT fTWN_STAT_PEER_OWN
  if s.bit aTWN_STAT fTWN_STAT_OWN then
    let s2 := ((s1.latch aTWN_LAT fTWN_LAT_OWNCONF).causeOn 108 0).raise 108 islTwin
    .next (if s.bit aTWN_CFG fTWN_CFG_SIDE then s2.enterHoldoff else s2)
  else .next s1

/-! ## Loss of the twin (R388, R394) -/

/-- PRES_N_HIGH (R394): the standby has been removed. -/
def execPresNHigh (s : State) : Result :=
  let s1 := s.setBit aTWN_STAT fTWN_STAT_PRES false
  if s.twin = twActive then .next s1.loseStandby
  else if s.twin = twSolo ∧ s.joins then .next s1.failJoin
  else .next s1

/-- An instant lies at least `n` cycles back, or there is none. -/
def State.quietFor (s : State) (t : Option Count) (n : Nat) : Bool :=
  match t with
  | some t => Count.upto (t + cyc n) s.count
  | none => true

/-- PEER_FRAME_TIMEOUT (R388): no valid frame for 450 cycles. -/
def execPeerFrameTimeout (s : State) : Result :=
  let s1 := s.setBit aTWN_STAT fTWN_STAT_LINK false
  if s.quietFor s.twn.rxAt 450 = false then .next s
  else if s.twin = twStandby then
    if s.bit aTWN_STAT fTWN_STAT_PEER_OWN then .next s1.enterHoldoff
    else if s.colHeld then .next s1
    else .next (s1.hold (.island islTwin) (s.count + cyc 96) (.cmd (.colApply 4)))
  else if s.twin = twActive then .next s1.loseStandby
  else if s.twin = twJoining ∨ (s.twin = twSolo ∧ s.joins) then .next s1.failJoin
  else .next s1

/-- KEEP (R423): sent when no frame has been sent for 150 cycles. -/
def execKeep (s : State) : Result :=
  .next (if s.bit aLNK_STAT fLNK_STAT_COL_UP ∧ s.quietFor (s.link 2).sentAt 150 then (s.emit .keep).sentOn 2 else s)

/-! ## The col (R388 to R390) -/

/-- A channel's offset at a col: the newest shipped result minus the newest local one (R170); 0 where either lacks. -/
def State.colOffset (s : State) (ch q : Nat) : State :=
  match s.boundUnit ch q with
  | none => s
  | some u =>
    let x := s.mu (islOf ch) u
    let z := s.shipQuant ch q
    s.setOffset ch q (if x.valid && z.valid then (z.y.toInt - x.yDue.toInt) * 65536 else 0)

/-- A bound monitor's own latch takes the OR of its shadow and its own cause (R389). -/
def State.handLatch (s : State) (n m : Nat) : State :=
  if !(s.monBound n m) then s
  else
    let was := (s.mon n m).shadow
    let cause := (s.reg (aMON_CAUSE n)).getLsbD m
    let s1 := s.monChange n m (was || cause) ((s.reg (aMON_UNS n)).getLsbD m) s.count
    if cause && !was then
      ((s1.forceInh n m).tripActions n m (s.bit (aMON_STAT n m) fMON_STAT_LO_BELOW) s.count).settleMon n m
    else s1.settleMon n m

/-- The shadows of the bound monitors start from the module's own latches. -/
def State.startShadow (s : State) (n m : Nat) : State :=
  if s.monBound n m then
    s.setMon n m { s.mon n m with shadow := (s.reg (aMON_LAT n)).getLsbD m, shadowUns := (s.reg (aMON_UNS n)).getLsbD m }
  else s

/-- Every monitor of every island. -/
def State.eachMon (s : State) (f : State → Nat → Nat → State) : State :=
  (List.range 64).foldl (fun s n => (List.range 26).foldl (fun s m => f s n m) s) s

/-- What a col leaves in both modules (R389): E_COL, E_PEER where the former active does not become STANDBY, COLDONE, FS 105,
TWN_COL and TWN_COLT. -/
def State.colRecord (s : State) (cause : Nat) (from_ : Nat) : State :=
  let b (x : Bool) : Nat := if cause = 2 then x.toNat else 0
  let w := putF (putF (putF (fldWord fTWN_COL_CAUSE cause) fTWN_COL_FROM from_) fTWN_COL_LBLAME (b s.twn.blames.1))
    fTWN_COL_PBLAME (b s.twn.blames.2)
  let s1 := ((s.setReg aTWN_COL w).setWide aTWN_COLT 3 s.count.toNat).postAll (if cause = 1 then eCol else eCol ||| ePeer) s.count
  (s1.latch aTWN_LAT fTWN_LAT_COLDONE).raise 105 islTwin

/-- The standby becomes the active (R62, R389). -/
def State.takeOver (s : State) (cause : Nat) : State :=
  let s1 := s.seqEndAll 10 true
  let s2 := (List.range 256).foldl (fun s ch => (s.colOffset ch 0).colOffset ch 1) s1
  let s3 := (s2.setReg aLPE_SRC 0).setTwin (if cause = 1 then twActive else twSolo)
  let s4 := if s.bit aTBS_CTL fTBS_CTL_MPAIR then (s3.setReg aTBS_SRC 0).setTb tbFree else s3.setReg aTBS_SRC 1
  let s5 := (s4.eachMon State.handLatch).colRecord cause twStandby
  let s6 := { s5 with twn := { s5.twn with missed := [] } }
  if cause = 4 then s6.peerLost else s6

/-- The former active steps down (R388, R389). -/
def State.stepDown (s : State) (cause : Nat) : State :=
  if cause = 1 then
    let s1 := (((s.seqEndAll 10 true).setTwin twStandby).setReg aLPE_SRC 1).setReg aTBS_SRC 2
    (s1.eachMon State.startShadow).colRecord cause twActive
  else s.enterHoldoff.colRecord cause twActive

/-- COL_APPLY (R389): at D. -/
def execColApply (cause : BitVec 4) (s : State) : Result :=
  if s.twin = twStandby then .next (s.takeOver cause.toNat)
  else if s.twin = twActive then .next (s.stepDown cause.toNat)
  else .next s

/-- TWN_COL (R388): refused on a module that is not ACTIVE. -/
def execTwnCol (by_ : Issuer) (s : State) : Result :=
  if s.twin = twActive then .next (s.hold (.island islTwin) s.count (.cmd (.colApply 1)))
  else .next (s.rejectVal by_ aTWN_CMD)

/-- TWN_LEAVE (R396): a standby enters HOLDOFF. -/
def execTwnLeave (s : State) : Result := .next (if s.twin = twStandby then s.enterHoldoff else s)

/-- TWN_JOIN (R392, R393): starts a join on a module in HOLDOFF or DETACHED; an active admits one. -/
def execTwnJoin (s : State) : Result :=
  if s.twin = twHoldoff ∨ s.twin = twDetached then .next s.enterJoining
  else if s.twin = twActive ∧ s.twn.safeRise.isSome then .next { s with twn := { s.twn with joinOrdered := true } }
  else if s.twin = twSolo ∧ s.joins = false then
    .next (if s.fld aTWN_STAT fTWN_STAT_PEER = twJoining then s.startJoin
      else { s with twn := { s.twn with joinOrdered := true } })
  else .next s

/-- The tick of the digests in TBU (R386). -/
def State.tickLen (s : State) : Nat := s.fld aTWN_CFG fTWN_CFG_TICK * 192000

/-- JOIN_COPY_DONE (R393): the run origin is the first tick boundary at least 1 ms away. -/
def execJoinCopyDone (s : State) : Result :=
  if s.fld aTWN_JOIN fTWN_JOIN_PHASE = 1 then
    let o := Count.ceilTo (s.count + 192000000#72) (max 1 s.tickLen)
    .next { s.setReg aTWN_JOIN (putF (fldWord fTWN_JOIN_PHASE 2) ⟨15, 8⟩ 255) with twn := { s.twn with origin := some o } }
  else .next s

/-! ## Plausibility (R385) -/

/-- A TWN_PLAUS bit has stood for 1 ms. -/
def State.plausStands (s : State) : Bool := s.twn.plausSince.any (fun p => Count.upto (p.2 + 192000000) s.count)

/-- PLAUS_COL_TIMEOUT (R385, R388): with PCOL at 1 a bit that has stood for 1 ms is a col cause. -/
def execPlausColTimeout (s : State) : Result :=
  .next (if s.twin = twStandby ∧ s.bit aTWN_CFG fTWN_CFG_PCOL ∧ s.plausStands ∧ s.colHeld = false then
    s.requestCol 5 (s.count + cyc 192) else s)

/-! ## The shipped stream at the standby (R378, R383, R423) -/

/-- A latch event of the active (R383): the shadow follows; a shadow that sets has the effects of R151 with the active's
latch cycle, 96 cycles before the item's due time. -/
def State.shadowEvent (s : State) (n m : Nat) (latch uns : Bool) (due : Count) : State :=
  let was := (s.mon n m).shadow
  let at_ := due - cyc 96
  let mode := s.fld (aMON_CFG n m) fMON_CFG_MODE
  let lo := usesLo mode && (!(usesHi mode) || s.bit (aMON_STAT n m) fMON_STAT_LO_BELOW)
  let s1 := s.monNote n m at_
  let s2 := s1.setMon n m { s1.mon n m with shadow := latch, shadowUns := uns }
  if s.twin = twStandby ∧ s.monBound n m then
    if latch && !was then ((s2.forceInh n m).tripActions n m lo at_).settleMon n m
    else
      let s3 := s2.settleMon n m
      if (List.range 26).all (fun k => !(s3.monLatch n k)) then s3.causeOff 40 n else s3
  else s2

/-- A shipped item at its due time (R378). -/
def State.applyShipped (s : State) (it : ShipItem) : State :=
  match it with
  | .result isl u flags y due => if s.isStandby then s.shippedResult isl.val u.val flags y due else s
  | .group isl rs due =>
    if s.isStandby then rs.foldl (fun s (r : Fin 8 × BitVec 32 × BitVec 8) =>
      s.shippedResult isl.val r.1.val r.2.2 r.2.1 due) s else s
  | .latch isl m latch uns due => if s.isStandby then s.shadowEvent isl.val m.val latch uns due else s
  | .anchor st src valid hop path err _ => { s with twn := { s.twn with anchor := some (st, src, valid, hop, path, err) } }
  | .refLevel _ q r _ => s.setSeqn q.val { s.seqn q.val with shipped := some r }
  | .col cause _ => nextOr s (execColApply cause s)

/-- The due time of a shipped item. -/
def itemDue : ShipItem → Count
  | .result _ _ _ _ d => d
  | .group _ _ d => d
  | .latch _ _ _ _ d => d
  | .anchor _ _ _ _ _ _ d => d
  | .refLevel _ _ _ d => d
  | .col _ d => d

/-- A module takes an item: a JOINING or STANDBY one any item, an ACTIVE one a col request. -/
def State.takesItem (s : State) (it : ShipItem) : Bool :=
  s.isStandby || (s.twin == twActive && (match it with
    | .col _ _ => true
    | _ => false))

/-- The island that receives a shipped item. -/
def itemIsland : ShipItem → Nat
  | .result isl _ _ _ _ => isl.val
  | .group isl _ _ => isl.val
  | .latch isl _ _ _ _ => isl.val
  | .refLevel isl _ _ _ => isl.val
  | .anchor _ _ _ _ _ _ _ => 74
  | .col _ _ => 77

/-- The source of a shipped item among the actions of its due time (R11): a result or a latch change acts as one of its pin
island, as at the active. -/
def itemSource : ShipItem → Fin 80
  | .result isl _ _ _ _ => Fin.ofNat 80 isl.val
  | .group isl _ _ => Fin.ofNat 80 isl.val
  | .latch isl _ _ _ _ => Fin.ofNat 80 isl.val
  | _ => islTwin

/-- The results in an item: island and unit. -/
def itemResults : ShipItem → List (Nat × Nat)
  | .result isl u _ _ _ => [(isl.val, u.val)]
  | .group isl rs _ => rs.map (fun r => (isl.val, r.1.val))
  | _ => []

/-- An item that arrives after its due time is late (R74, R378), unless its results have been found late before: the own unit's
result of that due time has passed, and they stand no more among those missed. -/
def State.lateItem (s : State) (it : ShipItem) : State :=
  let due := itemDue it
  let rs := itemResults it
  let told := !rs.isEmpty && rs.all (fun r =>
    (s.mu r.1 r.2).valid && Count.upto due (s.mu r.1 r.2).due && !(s.twn.missed.contains (r.1, r.2, due)))
  let s1 := { s with twn := { s.twn with missed := s.twn.missed.filter (fun x => !(rs.contains (x.1, x.2.1) && x.2.2 == due)) } }
  if told && s.twin == twStandby then s1 else s1.lateInternal 3 77 (itemIsland it) due s.count

/-- The results missed are late, now that the twin has been heard (R378, R390). -/
def State.judgeMissed (s : State) : State :=
  s.twn.missed.foldl (fun s x => s.lateInternal 3 77 x.1 x.2.2 s.count) { s with twn := { s.twn with missed := [] } }

/-- SHIP (R378, R423): the frame's items are held for their due times, late ones discarded with kind 3; a frame that cannot be
corrected is lost. -/
def execShip (items : List ShipItem) (corrected lost : Bool) (s : State) : Result :=
  if lost then .next (((s.bump aLC_LOST).latch aLNK_LAT fLNK_LAT_COLERR).raise 101 islLink)
  else
    let s1 := (if corrected then s.bump aLC_CORR else s).peerHeard
    let s2 := if s.isStandby then s1.latch aTWN_STAT fTWN_STAT_PEER_OWN else s1
    .next (items.foldl (fun s it =>
      if !(s.takesItem it) then s
      else if Count.upto (Count.cycleStart s.count) (Count.cycleStart (itemDue it)) then
        s.hold (.island (itemSource it)) (itemDue it) (.shipped it)
      else s.lateItem it) s2).judgeMissed

/-! ## Digests (R386, R387) -/

/-- The instant of an item of a digest. -/
def TickItem.at_ : TickItem → Count
  | .edges _ d _ _ _ _ => d
  | .flags _ t _ => t
  | .record t _ => t
  | .entry t _ => t

/-- An item as numbers: its kind and its fields. -/
def TickItem.code : TickItem → Nat × List Nat
  | .edges ch d g set v i => (0, ch :: d.toNat :: g.toNat :: v.toNat :: i.toNat :: set.map (·.toNat))
  | .flags n t f => (1, [n, t.toNat, f.toNat])
  | .record t bs => (2, t.toNat :: bs.map (·.toNat))
  | .entry t bs => (3, t.toNat :: bs.map (·.toNat))

/-- The items of a tick in the order of R386: edge sets by channel, then flag words, records and excursion entries. -/
def State.tickItems (s : State) (k : Nat) : List (Nat × List Nat) :=
  let mine := (s.twn.items.filter (fun i => decide (s.tickLen ≠ 0) && decide (i.at_.toNat / s.tickLen = k))).map TickItem.code
  let sets := (List.range 256).flatMap (fun c => mine.filter (fun x => x.1 == 0 && x.2.headD 256 == c))
  sets ++ mine.filter (fun x => x.1 == 1) ++ mine.filter (fun x => x.1 == 2) ++ mine.filter (fun x => x.1 == 3)

/-- BLAME of a tick: a source of the blame mask was raised in it. -/
def State.blame (s : State) (k : Nat) : Bool :=
  s.twn.raises.any (fun (r : Nat × Count) =>
    decide (s.tickLen ≠ 0) && decide (r.2.toNat / s.tickLen = k) && (s.reg (aTWN_BLMASK (r.1 / 32))).getLsbD (r.1 % 32))

/-- A difference of a pair's digests (R387): DIVERGE, TWN_DIVTICK, FS 104, and the roles by BLAME and DIVPOL. -/
def State.diverge (s : State) (k : Nat) (own peer : Bool) : State :=
  let s1 := (((s.latch aTWN_LAT fTWN_LAT_DIVERGE).setWide aTWN_DIVTICK 2 k).raise 104 islTwin)
  let s2 := { s1 with twn := { s1.twn with blames := (own, peer) } }
  let act := if s.twin = twActive then own else peer
  let stb := if s.twin = twActive then peer else own
  let col := (act && !stb) || (act == stb && s.bit aTWN_CFG fTWN_CFG_DIVPOL)
  if col then (if s.twin = twActive then s2.requestCol 2 (s.count + cyc 192) else s2)
  else if s.twin = twActive then s2.loseStandby
  else s2.enterHoldoff

/-- A join is verified (R393): the joiner becomes STANDBY, the active ACTIVE. -/
def State.joinDone (s : State) : State :=
  let s1 := s.setFld aTWN_JOIN fTWN_JOIN_PHASE 4
  let s2 := { s1 with twn := { s1.twn with safeSplit := false } }
  if s.twin = twJoining then s2.setTwin twStandby
  else if s.twin = twSolo then s2.setTwin twActive
  else s2

/-- The two digests of a tick compared (R387, R392, R393). -/
def State.compareTick (s : State) (k : Nat) (equal own peer : Bool) : State :=
  let verify := s.joins && (match s.twn.origin with
    | some o => decide (s.tickLen ≠ 0) && decide ((o + cyc 128).toNat ≤ k * s.tickLen)
    | none => false)
  if verify then
    if equal then
      let n := s.fld aTWN_JOIN fTWN_JOIN_EQUAL + 1
      let s1 := ((s.setFld aTWN_JOIN fTWN_JOIN_PHASE 3).setFld aTWN_JOIN fTWN_JOIN_EQUAL n).setWide aTWN_TICKS 2
        (s.wide aTWN_TICKS 2 + 1)
      if s.fld aTWN_CFG fTWN_CFG_VERN ≤ n then s1.joinDone else s1
    else s.failJoin
  else if (s.twn.safeSplit && decide (s.twn.safeAt.toNat / s.tickLen ≤ k)) || s.joins then s
  else if s.twin = twActive ∨ s.twin = twStandby then
    if equal then s.setWide aTWN_TICKS 2 (s.wide aTWN_TICKS 2 + 1) else s.diverge k own peer
  else s

/-- Every tick of which both digests are present is compared, oldest first. -/
def State.compareAll (s : State) : Nat → State
  | 0 => s
  | n + 1 =>
    match s.twn.own.find? (fun (o : BitVec 64 × BitVec 256 × Bool) => s.twn.peer.any (fun p => p.1 == o.1)) with
    | none => s
    | some o =>
      match s.twn.peer.find? (fun (p : BitVec 64 × BitVec 256 × Bool) => p.1 == o.1) with
      | none => s
      | some p =>
        let s1 := { s with twn := { s.twn with
          own := s.twn.own.filter (fun (x : BitVec 64 × BitVec 256 × Bool) => x.1 != o.1)
          peer := s.twn.peer.filter (fun (x : BitVec 64 × BitVec 256 × Bool) => x.1 != o.1) } }
        (s1.compareTick o.1.toNat (decide (o.2.1 = p.2.1)) o.2.2 p.2.2).compareAll n

/-- DIGEST_SEND (R386, R387): 1,000 cycles after the end of a tick its digest is sent; what lies before that end is dropped. -/
def execDigestSend (s : State) : Result :=
  let t := s.tickLen
  if t = 0 ∨ !(s.twin == twActive || s.isStandby || (s.twin == twSolo && s.joins))
    ∨ (s.count - cyc 1000).toNat % t ≠ 0 ∨ s.freshAt aTWN_TICKS ≠ 0 then .next s
  else
    let stop := (s.count - cyc 1000).toNat / t
    if stop = 0 then .next s
    else
      let k := stop - 1
      let end_ := BitVec.ofNat 72 (stop * t)
      let s1 := (s.mark aTWN_TICKS 1).releaseTo end_
      let h := digestBytes (Config.sha384 (Config.tickBytes (s1.tickItems k)))
      let d : BitVec 256 := BitVec.ofNat 256 (leNat (h.take 32))
      let b := s1.blame k
      let s2 := { s1 with twn := { s1.twn with
        items := s1.twn.items.filter (fun i => Count.upto end_ i.at_)
        raises := s1.twn.raises.filter (fun (r : Nat × Count) => Count.upto end_ r.2)
        own := s1.twn.own ++ [(BitVec.ofNat 64 k, d, b)] } }
      let s3 := s2.sendFrame 2 1 (.digest (BitVec.ofNat 64 k) d b)
      .next (s3.compareAll s3.twn.own.length)

/-- DIGEST (R387): the twin's digest of a tick. -/
def execDigest (tick : BitVec 64) (dig : BitVec 256) (blame : Bool) (s : State) : Result :=
  if s.twin = twActive ∨ s.isStandby ∨ (s.twin = twSolo ∧ s.joins) then
    let s0 := s.peerHeard
    let s1 := { s0 with twn := { s0.twn with peer := s0.twn.peer ++ [(tick, dig, blame)] } }
    .next (s1.compareAll s1.twn.own.length)
  else .next s.peerHeard

/-! ## Forwarded transactions and ferried state (R380, R393) -/

/-- FWD (R380): in a joiner or standby the write is applied as though the port had accepted it. -/
def execFwd (p : Port) (addr : BitVec 48) (due : Count) (data : List Byte) (s : State) : Result :=
  if s.isStandby = false then .next s.peerHeard
  else
    let s := s.peerHeard
    let sp := hostSpace addr
    let off := hostOffset addr
    if sp = 0 then .next (s.writeWords (.forwarded p) none off (some due) (bytesWords data)).2.2
    else if s.memStatus sp off data.length true = stOk ∧ data ≠ [] then
      if Count.upto s.count (Count.cycleStart due) then
        .next ((s.crossed 75 due).hold (.forwarded p) due (.memWrite p sp off data))
      else .next ((s.refuse (.forwarded p) 0 false true false).late 0 76 75 due s.count)
    else .next (s.refuse (.forwarded p) 0 false true true)

/-- A register belongs to the run state that a join copies (R393): one of SCH, STE, LPE, SEG, ACQ, EXC, CAL or a pin island
that some event changes. -/
def runState (a : Nat) : Bool :=
  let b := a / 0x100000
  assigned a && !hardwired a && ((decide (4 ≤ b) && decide (b ≤ 7)) || b == 10 || b == 11 || b == 15 || decide (64 ≤ b))

/-- State of the active written into a joiner: words of run-state registers, bytes of the plain or of HBM. -/
def State.putFerry (s : State) (f : FerryBlock) : State :=
  if f.space = 0 then
    ((bytesWords f.data).foldl (fun (x : State × Nat) w =>
      (if runState x.2 then x.1.setReg x.2 w else x.1, x.2 + 4)) (s, f.offset.toNat)).1
  else if f.space = 1 then { s with sram := Memory.writeBytes s.sram f.offset.toNat f.data }
  else if f.space = 2 then { s with hbmMem := Memory.writeBytes s.hbmMem f.offset.toNat f.data }
  else s

/-- FERRY (R392, R393): a block that COPY sends is written at once; a mirrored change 128 cycles after its cycle, unless it lies
at or after the run origin and 128 cycles. -/
def execFerry (f : FerryBlock) (s : State) : Result :=
  if s.twin ≠ twJoining ∧ s.resyncs = false then .next s.peerHeard
  else
    let s := s.peerHeard
    match f.cycle with
    | none => .next (s.putFerry f)
    | some c =>
      let past := match s.twn.origin with
        | some o => Count.upto (o + cyc 128) c
        | none => false
      if past then .next s
      else if Count.upto s.count (c + cyc 128) then
        .next (s.hold (.island islTwin) (c + cyc 128) (.cmd (.ferry { f with cycle := none })))
      else .next (s.lateInternal 1 77 77 (c + cyc 128) s.count)

end Sys2Proof.Machine
end

