-- ==== Sys2Proof/Machine/Structure.lean ====
section
/-! DEFINITION. The structure stream (chapter 17): its words, its checks and their causes, what a load and a quadrant reload
set, UNLOAD and STORE, and the start of the module. -/
namespace Sys2Proof.Machine

/-! ## Words, sections and records (R433 to R435) -/

/-- A record of a section: its type, its offset in the stream, its words. -/
structure SRec where
  rt : Nat
  off : Nat
  words : List Nat
deriving DecidableEq, Repr

/-- A section: its code, its offset in the stream, its words with the header word. -/
structure Sect where
  code : Nat
  off : Nat
  words : List Nat
deriving DecidableEq, Repr

/-- A word of a record; 0 beyond its end. -/
def SRec.w (r : SRec) (i : Nat) : Nat := r.words.getD i 0

/-- The bits [hi:lo] of a 64-bit word. -/
def wbits (w hi lo : Nat) : Nat := (w >>> lo) % 2 ^ (hi + 1 - lo)

/-- A word has no bit set outside the given fields. -/
def onlyBits (w : Nat) (fs : List (Nat × Nat)) : Bool :=
  w == fs.foldl (fun a f => a + (wbits w f.1 f.2) * 2 ^ f.2) 0

/-- The sections of a stream's words from an offset (R434), and the offset of the first header word that is not one. -/
def splitSections : Nat → Nat → List Nat → List Sect × Option Nat
  | 0, _, [] => ([], none)
  | 0, off, _ :: _ => ([], some off)
  | _ + 1, _, [] => ([], none)
  | n + 1, off, h :: t =>
    let len := wbits h 31 0
    if wbits h 55 48 ≠ 1 ∨ wbits h 47 32 ≠ 0 ∨ len = 0 ∨ t.length + 1 < len then ([], some off)
    else
      let r := splitSections n (off + len) ((h :: t).drop len)
      (⟨wbits h 63 56, off, (h :: t).take len⟩ :: r.1, r.2)

/-- The length of a record of a section, 0 for a type that the section does not have (R434, R435). -/
def recLen (code rt w0 : Nat) : Nat :=
  if code = 1 ∧ rt = 1 then 27
  else if code = 2 ∧ rt = 1 then 10
  else if code = 3 ∧ rt = 1 then 1
  else if code = 4 then (if rt = 1 then 1 else if rt = 2 then 3 else 0)
  else if code = 5 then (if rt = 1 ∨ rt = 3 ∨ rt = 5 then 1 else if rt = 2 ∨ rt = 4 then 2 else 0)
  else if code = 6 then (if rt = 1 ∨ rt = 3 then 1 else if rt = 2 then 2 else 0)
  else if code = 7 ∧ rt = 1 then 1
  else if code = 9 then (if rt = 1 then 1 else if rt = 2 then 3 else if rt = 3 then 1 + wbits w0 31 16 else 0)
  else if code = 11 ∧ rt = 1 then 3
  else 0

/-- The records of a section's words, and the offset of the first word that begins none. -/
def splitRecs (code : Nat) : Nat → Nat → List Nat → List SRec × Option Nat
  | _, _, [] => ([], none)
  | 0, off, _ :: _ => ([], some off)
  | n + 1, off, w :: t =>
    let len := recLen code (wbits w 63 56) w
    if len = 0 ∨ t.length + 1 < len then ([], some off)
    else
      let r := splitRecs code n (off + len) ((w :: t).drop len)
      (⟨wbits w 63 56, off, (w :: t).take len⟩ :: r.1, r.2)

/-- The records of a section; FAULT, TWIN and SIG have none (R434). -/
def Sect.recs (x : Sect) : List SRec × Option Nat :=
  if x.code = 8 then ([], if x.words.length = 17 then none else some x.off)
  else if x.code = 10 then ([], if x.words.length = 9 then none else some x.off)
  else if x.code = 12 then
    let z := wbits (x.words.getD 14 0) 31 0
    ([], if x.words.length = 15 + (z + 7) / 8 then none else some x.off)
  else splitRecs x.code (x.words.length) (x.off + 1) (x.words.drop 1)

/-- The sections of a stream, from word 8 on. -/
def sections (ws : List Nat) : List Sect × Option Nat := splitSections 12 8 (ws.drop 8)

/-- A section of a stream by its code. -/
def section_ (ws : List Nat) (code : Nat) : Sect := ((sections ws).1.find? (fun x => x.code == code)).getD ⟨code, 0, []⟩

/-- The records of a type of a section. -/
def recsOf (ws : List Nat) (code rt : Nat) : List SRec := (section_ ws code).recs.1.filter (fun r => r.rt == rt)

/-- A refusal: cause, section, word offset (R438). -/
abbrev Refused := Nat × Nat × Nat

/-- The first failing one of a list of checks, each with its section and offset, under a cause. -/
def firstFail (cause : Nat) (cs : List (Bool × Nat × Nat)) : Option Refused :=
  (cs.find? (fun c => !c.1)).map (fun c => (cause, c.2.1, c.2.2))

/-- The checks of each record of a type, by word. -/
def perRec (ws : List Nat) (code rt : Nat) (f : SRec → List (Bool × Nat)) : List (Bool × Nat × Nat) :=
  (recsOf ws code rt).flatMap (fun r => (f r).map (fun c => (c.1, code, r.off + c.2)))

/-! ## Header and section order (causes 1 and 2) -/

/-- The header (R433). -/
def checkHeader (ws : List Nat) : Option Refused :=
  let w (i : Nat) : Nat := ws.getD i 0
  firstFail 1 [
    (wbits (w 0) 63 32 == 0x5A317E4C && wbits (w 0) 31 16 == 1 && (wbits (w 0) 15 8 == 1 || wbits (w 0) 15 8 == 2)
      && wbits (w 0) 7 0 == 0, 0, 0),
    (wbits (w 1) 63 32 == 0 && decide (8 ≤ wbits (w 1) 31 0) && decide (wbits (w 1) 31 0 ≤ 2097152)
      && wbits (w 1) 31 0 == ws.length, 0, 1),
    (w 4 == 0, 0, 4), (w 5 == 0, 0, 5), (w 6 == 0, 0, 6), (w 7 == 0, 0, 7)]

/-- Sections: all twelve, once each, in ascending code, their lengths and their record types (R434). -/
def checkOrder (ws : List Nat) : Option Refused :=
  let r := sections ws
  match r.2 with
  | some off => some (2, 0, off)
  | none =>
    if r.1.map Sect.code ≠ [1, 2, 3, 4, 5, 6, 7, 8, 9, 10, 11, 12] then
      let bad := (r.1.zip (List.range 12)).find? (fun p => p.1.code != p.2 + 1)
      some (2, (bad.map (fun p => p.1.code)).getD 0, (bad.map (fun p => p.1.off)).getD ws.length)
    else r.1.findSome? (fun x => x.recs.2.map (fun off => (2, x.code, off)))

/-! ## Fields (cause 5) -/

/-- The role field of pin `p` of an ISLAND record. -/
def pinRole (r : SRec) (p : Nat) : Nat := wbits (r.w (1 + p)) 3 0

/-- A pin word of an ISLAND record (R85, R95, R97, R143). -/
def pinOk (r : SRec) (p : Nat) : Bool :=
  let w := r.w (1 + p)
  let role := pinRole r p
  let fmtOk := wbits w 8 4
  onlyBits w [(3, 0), (8, 4), (10, 9), (11, 11), (12, 12), (14, 13), (17, 15), (18, 18), (47, 32)]
    && (if p = 24 then role == 8 else if p = 25 then role == 9 && fmtOk == 16 else decide (role ≤ 7))
    && (role != 1 || (p % 2 == 0 && pinRole r (p + 1) == 2))
    && (role != 2 || (p % 2 == 1 && pinRole r (p - 1) == 1))
    && (p == 25 || fmtOk.testBit 4 == false)
    && decide (wbits w 10 9 ≤ 2) && decide (wbits w 14 13 ≠ 3)
    && decide (wbits w 17 15 ≤ 4) && fmtOk.testBit (wbits w 17 15)
    && (decide (p < 24) || wbits w 12 12 == 0)
    && (role == 1 || wbits w 47 32 == 0)

/-- The six roles of a channel, as a stream's ISLAND records give them. -/
def topology (ws : List Nat) (ch : Nat) : List Nat :=
  match (recsOf ws 1 1).find? (fun r => wbits (r.w 0) 5 0 == ch / 4) with
  | some r => (List.range 6).map (fun k => pinRole r (6 * (ch % 4) + k))
  | none => []

/-- A gang record (R100). -/
def gangOk (ws : List Nat) (r : SRec) : Bool :=
  let l := wbits (r.w 0) 7 0
  let n := wbits (r.w 0) 12 8
  onlyBits (r.w 0) [(63, 56), (7, 0), (12, 8)] && decide (2 ≤ n) && decide (n ≤ 16)
    && (l / 64 == (l + n - 1) / 64) && (List.range n).all (fun k => topology ws (l + k) == topology ws l)

/-- The bytes of words. -/
def natBytes (ws : List Nat) : List Byte := ws.flatMap (leBytes 8)

/-- A profile (R306). -/
def profileOk (b : List Byte) : Bool :=
  decide (byteAt b 0 ≤ 3) && decide (byteAt b 1 ≤ 3) && decide (fieldAt b 2 2 ≠ 0) && decide (fieldAt b 4 2 ≠ 0)
    && decide (byteAt b 6 ≤ 2) && byteAt b 7 == 0 && (byteAt b 6 != 2 || decide (fieldAt b 8 2 ≠ 0)) && fieldAt b 10 6 == 0

/-- DRVOFF only with STOPCH (R310). -/
def actOk (a : Nat) : Bool := decide (a < 8) && (a.testBit 2 == false || a.testBit 1)

/-- A mask of a limit and mask set (R310). -/
def maskOk (b : List Byte) (m : Nat) : Bool :=
  let o := 0x10 + 0x410 * m
  let n := byteAt b (o + 2)
  let pt (i : Nat) : Nat := o + 0x10 + 0x10 * i
  decide (1 ≤ byteAt b o) && decide (byteAt b o ≤ 3) && actOk (byteAt b (o + 1)) && decide (2 ≤ n) && decide (n ≤ 64)
    && (List.range n).all (fun i => decide (signed 32 (fieldAt b (pt i + 8) 4) ≤ signed 32 (fieldAt b (pt i + 12) 4)))
    && (List.range (n - 1)).all (fun i => decide (fieldAt b (pt i) 6 < fieldAt b (pt (i + 1)) 6))

/-- A limit and mask set (R310). -/
def lmsetOk (b : List Byte) : Bool :=
  actOk (byteAt b 8) && decide (byteAt b 9 ≤ 4) && decide (0x10 + 0x410 * byteAt b 9 ≤ b.length)
    && (List.range (byteAt b 9)).all (maskOk b)

/-- The seven bases of the plain record. -/
def plainBases (r : SRec) : List Nat := (List.range 7).map (fun k => wbits (r.w 0) (7 * k + 6) (7 * k))

/-- The sizes of R21 in MiB, in the same order. -/
def plainSizes : List Nat := [32, 24, 12, 8, 8, 8, 4]

/-- The regions of the plain cover it without overlap (R22). -/
def plainOk (r : SRec) : Bool :=
  let rs := (plainBases r).zip plainSizes
  onlyBits (r.w 0) [(63, 56), (48, 0)] && rs.all (fun x => decide (x.1 + x.2 ≤ 96))
    && (List.range 7).all (fun i => (List.range 7).all (fun j =>
      i == j || (let a := rs.getD i (0, 0); let b := rs.getD j (0, 0); decide (a.1 + a.2 ≤ b.1) || decide (b.1 + b.2 ≤ a.1))))

/-- The base and end of an HBM region record, in MiB. -/
def rgnSpan (r : SRec) : Nat × Nat := (wbits (r.w 1) 14 0, wbits (r.w 1) 14 0 + wbits (r.w 1) 46 32)

/-- An HBM region record (R334); it overlaps no other. -/
def rgnOk (ws : List Nat) (r : SRec) : List (Bool × Nat) :=
  let k := wbits (r.w 0) 7 4
  let g := wbits (r.w 0) 11 8
  let sp := rgnSpan r
  [(onlyBits (r.w 0) [(63, 56), (3, 0), (7, 4), (11, 8), (13, 12)] && decide (1 ≤ k) && decide (k ≤ 7) && decide (8 ≤ g)
      && decide (wbits (r.w 0) 13 12 ≤ 2), 0),
    (onlyBits (r.w 1) [(14, 0), (46, 32)] && decide (sp.1 < sp.2) && decide (sp.2 ≤ 24576)
      && (recsOf ws 6 2).all (fun q => q.off == r.off || decide ((rgnSpan q).2 ≤ sp.1) || decide (sp.2 ≤ (rgnSpan q).1)), 1)]

/-! ## Fault sources (R449) -/

/-- The sources that R449 reserves. -/
def reservedSource (n : Nat) : Bool :=
  n == 3 || (decide (12 ≤ n) && decide (n ≤ 15)) || (decide (23 ≤ n) && decide (n ≤ 31))
    || (decide (45 ≤ n) && decide (n ≤ 47)) || n == 54 || n == 55 || (decide (59 ≤ n) && decide (n ≤ 63))
    || (decide (70 ≤ n) && decide (n ≤ 79)) || (decide (87 ≤ n) && decide (n ≤ 95)) || n == 103 || n == 110 || n == 111
    || n == 126 || n == 127

/-- The blocks that a block-reset reaction to a source resets (R449): central blocks by index, the raising islands for a
source of the pin islands. -/
def resetTargets (n : Nat) (islands : List Isl) : List Nat :=
  if n = 2 then [3]
  else if n = 16 ∨ n = 17 ∨ n = 20 ∨ n = 21 then [12]
  else if 32 ≤ n ∧ n ≤ 41 then islands.map (fun i => islBlk i.val)
  else if 42 ≤ n ∧ n ≤ 44 then [15]
  else if 48 ≤ n ∧ n ≤ 51 then [6]
  else if 56 ≤ n ∧ n ≤ 58 then [7]
  else if 64 ≤ n ∧ n ≤ 69 then [4, 5]
  else if n = 85 then [11]
  else if 80 ≤ n ∧ n ≤ 86 then [10]
  else if 96 ≤ n ∧ n ≤ 102 then [13]
  else if 104 ≤ n ∧ n ≤ 109 then [14]
  else []

/-- A byte of the FAULT section: the reaction and ERR_N of a source. -/
def faultByte (ws : List Nat) (n : Nat) : Nat := wbits ((section_ ws 8).words.getD (1 + n / 8) 0) (8 * (n % 8) + 7) (8 * (n % 8))

/-- A byte of the FAULT section is allowed (R435, R452): no reaction of 5 to 7, no block reset of a source without a target,
nothing for a reserved source. -/
def faultOk (ws : List Nat) (n : Nat) : Bool :=
  let b := faultByte ws n
  decide (b < 16) && decide (b % 8 ≤ 4) && (b % 8 != 3 || !(resetTargets n [0]).isEmpty) && (!(reservedSource n) || b == 0)

/-- Every field of every section (cause 5). -/
def checkFields (ws : List Nat) : Option Refused :=
  let fo := (section_ ws 8).off
  let at0 := (section_ ws 10).off
  let tw (i : Nat) : Nat := (section_ ws 10).words.getD i 0
  firstFail 5 (
    perRec ws 1 1 (fun r => (onlyBits (r.w 0) [(63, 56), (5, 0), (8, 8)], 0) :: (List.range 26).map (fun p => (pinOk r p, 1 + p)))
    ++ perRec ws 2 1 (fun r => (onlyBits (r.w 0) [(63, 56), (5, 0)], 0) :: (List.range 9).map (fun u =>
      (onlyBits (r.w (1 + u)) [(4, 0), (9, 8), (17, 16)] && decide (wbits (r.w (1 + u)) 4 0 ≤ 25)
        && (u != 8 || wbits (r.w (1 + u)) 4 0 == 24), 1 + u)))
    ++ perRec ws 3 1 (fun r => [(gangOk ws r, 0)])
    ++ perRec ws 4 1 (fun r => [(onlyBits (r.w 0) [(63, 56), (2, 0), (8, 8), (31, 16)], 0)])
    ++ perRec ws 4 2 (fun r => [(onlyBits (r.w 0) [(63, 56), (7, 0), (10, 8), (23, 16), (28, 24), (36, 32)], 0),
      (onlyBits (r.w 2) [(27, 0), (59, 32)], 2)])
    ++ perRec ws 5 1 (fun r => [(onlyBits (r.w 0) [(63, 56), (7, 0), (10, 8)], 0)])
    ++ perRec ws 5 2 (fun r => [(onlyBits (r.w 0) [(63, 56), (3, 0), (47, 32)], 0),
      (onlyBits (r.w 1) [(15, 0), (31, 16), (45, 32), (49, 48)] && decide (1 ≤ wbits (r.w 1) 45 32)
        && decide (wbits (r.w 1) 45 32 ≤ 10000) && decide (wbits (r.w 1) 49 48 ≤ 2), 1)])
    ++ perRec ws 5 3 (fun r => [(onlyBits (r.w 0) [(63, 56), (3, 0), (31, 16)], 0)])
    ++ perRec ws 5 4 (fun r => [(onlyBits (r.w 0) [(63, 56), (47, 32), (23, 16), (13, 8)], 0),
      (onlyBits (r.w 1) [(9, 0), (19, 16), (23, 20), (29, 24), (47, 32)], 1)])
    ++ perRec ws 5 5 (fun r => [(onlyBits (r.w 0) [(63, 56), (9, 0), (17, 16), (50, 32)] && decide (1 ≤ wbits (r.w 0) 50 32)
      && decide (wbits (r.w 0) 50 32 ≤ 262144), 0)])
    ++ perRec ws 6 1 (fun r => [(plainOk r, 0)])
    ++ perRec ws 6 2 (rgnOk ws)
    ++ perRec ws 6 3 (fun r => [(onlyBits (r.w 0) [(63, 56), (3, 0), (15, 8), (23, 16)] && decide (wbits (r.w 0) 3 0 ≤ 9)
      && (decide (wbits (r.w 0) 3 0 < 5) || wbits (r.w 0) 15 8 == 0)
      && (decide (5 ≤ wbits (r.w 0) 3 0) || wbits (r.w 0) 23 16 == 0), 0)])
    ++ perRec ws 7 1 (fun r => [(onlyBits (r.w 0) [(63, 56), (5, 0), (12, 8), (16, 16), (23, 20)]
      && decide (wbits (r.w 0) 12 8 ≤ 25), 0)])
    ++ (List.range 128).map (fun n => (faultOk ws n, 8, fo + 1 + n / 8))
    ++ perRec ws 9 1 (fun r => [(onlyBits (r.w 0) [(63, 56), (0, 0)], 0)])
    ++ perRec ws 9 2 (fun r => [(onlyBits (r.w 0) [(63, 56), (7, 0)] && decide (wbits (r.w 0) 7 0 ≤ 254), 0),
      (profileOk (natBytes (r.words.drop 1)), 1)])
    ++ perRec ws 9 3 (fun r => [(onlyBits (r.w 0) [(63, 56), (7, 0), (31, 16)] && decide (wbits (r.w 0) 7 0 ≤ 254), 0),
      (lmsetOk (natBytes (r.words.drop 1)), 1)])
    ++ [(onlyBits (tw 1) [(31, 4), (0, 0)] && decide (1 ≤ wbits (tw 1) 31 16) && decide (wbits (tw 1) 31 16 ≤ 10000), 10, at0 + 1),
      (onlyBits (tw 8) [(0, 0), (8, 7), (47, 24)] && decide (wbits (tw 8) 8 7 ≤ 2), 10, at0 + 8)]
    ++ perRec ws 11 1 (fun r => [(onlyBits (r.w 0) [(63, 56), (1, 0)], 0), (onlyBits (r.w 1) [(18, 0), (50, 32)], 1),
      (onlyBits (r.w 2) [(6, 0)], 2)]))

/-! ## Consistency (cause 6) -/

/-- The keys of the records of a type occur once each. -/
def uniqueKeys (ws : List Nat) (code rt : Nat) (key : SRec → Nat) : List (Bool × Nat × Nat) :=
  perRec ws code rt (fun r => [((recsOf ws code rt).all (fun q => q.off == r.off || key q != key r), 0)])

/-- A channel's gang record, of which it is a member. -/
def gangOf (ws : List Nat) (ch : Nat) : Option SRec :=
  (recsOf ws 3 1).find? (fun r => decide (wbits (r.w 0) 7 0 ≤ ch) && decide (ch < wbits (r.w 0) 7 0 + wbits (r.w 0) 12 8))

/-- The channel is a gang member other than a leader, in a stream. -/
def memberOf (ws : List Nat) (ch : Nat) : Bool :=
  match gangOf ws ch with
  | some r => wbits (r.w 0) 7 0 != ch
  | none => false

/-- The permitted law ids of a LAW channel record. -/
def permitted (r : SRec) : List Nat := ((List.range 8).map (fun k => wbits (r.w 1) (8 * k + 7) (8 * k))).filter (· != 0)

/-- A LAW channel record names the channel of a LAW record. -/
def boundIn (ws : List Nat) (ch : Nat) : Bool := (recsOf ws 4 2).any (fun r => wbits (r.w 0) 7 0 == ch)

/-- Consistency across sections (cause 6). -/
def State.checkConsistency (s : State) (ws : List Nat) : Option Refused :=
  let lo (code : Nat) : Nat := (section_ ws code).off
  firstFail 6 (
    (List.range 64).map (fun n => (decide ((recsOf ws 1 1).countP (fun r => wbits (r.w 0) 5 0 == n) = 1), 1, lo 1))
    ++ (List.range 64).map (fun n => (decide ((recsOf ws 2 1).countP (fun r => wbits (r.w 0) 5 0 == n) = 1), 2, lo 2))
    ++ perRec ws 3 1 (fun r => [((recsOf ws 3 1).all (fun q => q.off == r.off
      || decide (wbits (q.w 0) 7 0 + wbits (q.w 0) 12 8 ≤ wbits (r.w 0) 7 0)
      || decide (wbits (r.w 0) 7 0 + wbits (r.w 0) 12 8 ≤ wbits (q.w 0) 7 0)), 0)])
    ++ uniqueKeys ws 4 1 (fun r => wbits (r.w 0) 2 0)
    ++ uniqueKeys ws 4 2 (fun r => wbits (r.w 0) 7 0)
    ++ perRec ws 4 2 (fun r =>
      let ch := wbits (r.w 0) 7 0
      [((topology ws ch).contains 1 && (topology ws ch).contains 2 && !(memberOf ws ch)
        && decide (wbits (r.w 0) 36 32 ≤ 16) && (permitted r).contains (wbits (r.w 0) 23 16), 0),
        ((permitted r).all (fun id => decide (id < 128) && s.ctl.lawValid id), 1)])
    ++ uniqueKeys ws 5 1 (fun _ => 0)
    ++ uniqueKeys ws 5 2 (fun r => wbits (r.w 0) 3 0)
    ++ uniqueKeys ws 5 3 (fun r => wbits (r.w 0) 3 0)
    ++ uniqueKeys ws 5 4 (fun r => wbits (r.w 0) 47 32)
    ++ perRec ws 5 4 (fun r => [(boundIn ws (wbits (r.w 0) 23 16), 0)])
    ++ uniqueKeys ws 5 5 (fun r => wbits (r.w 0) 9 0)
    ++ [(decide ((recsOf ws 6 1).length = 1), 6, lo 6)]
    ++ uniqueKeys ws 6 2 (fun r => wbits (r.w 0) 3 0)
    ++ uniqueKeys ws 6 3 (fun r => wbits (r.w 0) 3 0)
    ++ perRec ws 7 1 (fun r => [(decide (wbits (r.w 0) 12 8 ≤ 23), 0)])
    ++ uniqueKeys ws 7 1 (fun r => 32 * wbits (r.w 0) 5 0 + wbits (r.w 0) 12 8)
    ++ uniqueKeys ws 9 1 (fun _ => 0)
    ++ uniqueKeys ws 9 2 (fun r => wbits (r.w 0) 7 0)
    ++ uniqueKeys ws 9 3 (fun r => wbits (r.w 0) 7 0)
    ++ uniqueKeys ws 11 1 (fun r => wbits (r.w 0) 1 0))

/-! ## Budgets (cause 7) -/

/-- An update stream of an engine: channel, cost in cycles, T in TBU, declared phase (R166). -/
structure UpdStream where
  ch : Nat
  cost : Nat
  t : Nat
  phase : Nat
deriving DecidableEq, Repr

/-- The declared minimum update divisor, 0 read as 1 (R435). -/
def minDiv (r : SRec) : Nat := max 1 (wbits (r.w 0) 36 32)

/-- The update streams that a stream binds to an engine. -/
def State.updStreams (s : State) (ws : List Nat) (e : Nat) : List UpdStream :=
  ((recsOf ws 4 2).filter (fun r => wbits (r.w 0) 10 8 == e)).map (fun r =>
    ⟨wbits (r.w 0) 7 0, (permitted r).foldl (fun a id => max a (s.ctl.lawCost id)) 0, wbits (r.w 2) 27 0 * minDiv r,
      wbits (r.w 2) 59 32⟩)

/-- The sum of cost over T is at most 1. -/
def utilOk (xs : List UpdStream) : Bool :=
  let p := xs.foldl (fun a x => a * x.t) 1
  decide (p ≠ 0) && decide (xs.foldl (fun a x => a + x.cost * 128 * (p / x.t)) 0 ≤ p)

/-- The largest of `a t - t` over a busy period from `t` on: while work stands. -/
def busyMax (a : Nat → Nat) : Nat → Nat → Nat → Nat
  | 0, _, best => best
  | n + 1, t, best => if a t ≤ t then best else busyMax a n (t + 1) (max best (a t - t))

/-- The largest of `a t - t` over the cycles below `n`. -/
def spanMax (a : Nat → Nat) : Nat → Nat → Nat
  | 0, best => best
  | n + 1, best => spanMax a n (max best (a n - n))

/-- The worst start delay of a stream in check mode ANY. -/
def delayAny (xs : List UpdStream) (c : UpdStream) : Nat :=
  busyMax (fun t => xs.foldl (fun a x =>
    a + (if x.ch = c.ch then 128 * t / x.t * x.cost else (128 * t / x.t + 1) * x.cost)) 0) (2 ^ 32) 0 0

/-- The update points of a stream in a range of TBU, both ends in it. -/
def pointsIn (x : UpdStream) (lo hi : Int) : Nat := ((hi - x.phase) / x.t - (lo - 1 - x.phase) / x.t).toNat

/-- The worst start delay of a stream in check mode FIXED at its updates below the `k`-th, over the `span` cycles before
each. -/
def delayFixed (xs : List UpdStream) (c : UpdStream) (span : Nat) : Nat → Nat → Nat
  | 0, best => best
  | k + 1, best =>
    let u : Int := c.phase + k * c.t
    let a (t : Nat) : Nat := xs.foldl (fun n x =>
      let hi := if x.ch < c.ch then u else u - 1
      n + pointsIn x (u - 128 * t) hi * x.cost) 0
    delayFixed xs c span k (spanMax a span best)

/-- The budget of an engine (R161, R166): its record's offset is that of a failure. -/
def State.engineOk (s : State) (ws : List Nat) (e : Nat) : Bool :=
  let xs := s.updStreams ws e
  let r := (recsOf ws 4 1).find? (fun r => wbits (r.w 0) 2 0 == e)
  let lead := (r.map (fun r => wbits (r.w 0) 31 16)).getD 0
  let fixed := (r.map (fun r => wbits (r.w 0) 8 8)).getD 0 == 1
  let hyper := xs.foldl (fun a x => Nat.lcm a x.t) 1
  decide (xs.length ≤ 32) && utilOk xs && (!fixed || decide (hyper ≤ 2 ^ 39))
    && xs.all (fun c => decide (64 + c.cost + 1 + (if fixed then delayFixed xs c (hyper / 128 + 1) (hyper / c.t) 0 else delayAny xs c) ≤ lead))

/-- Budgets (cause 7). -/
def State.checkBudgets (s : State) (ws : List Nat) : Option Refused :=
  let lo (code : Nat) : Nat := (section_ ws code).off
  let kind (k : Nat) : Nat := (recsOf ws 6 2).countP (fun r => wbits (r.w 0) 7 4 == k)
  let res (q : Nat) : Nat := ((recsOf ws 6 3).filter (fun r => wbits (r.w 0) 3 0 == q)).foldl (fun a r => a + wbits (r.w 0) 15 8) 0
  firstFail 7 (
    (List.range 8).map (fun e => (s.engineOk ws e, 4, lo 4))
    ++ perRec ws 5 2 (fun r => [(decide (256 ≤ wbits (r.w 0) 47 32), 0), (decide (280 ≤ wbits (r.w 1) 15 0), 1)])
    ++ [((List.range 5).foldl (fun a q => a + res q) 0 ≤ 192 && decide (2 ≤ res 4), 6, lo 6),
      (kind 1 == 1 && kind 2 == 1 && kind 3 == 1 && kind 4 == 1 && kind 6 == 1, 6, lo 6)])

/-! ## Quadrant reloads (cause 8) -/

/-- A channel lies in the quadrants of a mask. -/
def inQuads (q ch : Nat) : Bool := q.testBit (ch / 64)

/-- An island lies in the quadrants of a mask. -/
def islInQuads (q n : Nat) : Bool := q.testBit (n / 16)

/-- The words of the records of a type that a reload may not change. -/
def fixedRecs (ws : List Nat) (code rt : Nat) (free : SRec → Bool) : List (List Nat) :=
  ((recsOf ws code rt).filter (fun r => !(free r))).map SRec.words

/-- A reload differs from the structure in force in what R442 allows. -/
def checkReload (old new : List Nat) (q : Nat) : Option Refused :=
  let lo (code : Nat) : Nat := (section_ new code).off
  let isl (r : SRec) : Bool := islInQuads q (wbits (r.w 0) 5 0)
  let ch (r : SRec) : Bool := inQuads q (wbits (r.w 0) 7 0)
  let same (code rt : Nat) (free : SRec → Bool) : Bool × Nat × Nat :=
    (fixedRecs old code rt free == fixedRecs new code rt free, code, lo code)
  let taskOf (ws : List Nat) (n : Nat) : Option SRec := (recsOf ws 5 4).find? (fun r => wbits (r.w 0) 47 32 == n)
  let inQ (r : Option SRec) : Bool := match r with
    | some r => inQuads q (wbits (r.w 0) 23 16)
    | none => false
  let slots := ((recsOf old 5 4) ++ (recsOf new 5 4)).map (fun r => wbits (r.w 0) 47 32)
  firstFail 8 [
    (old.getD 0 0 == new.getD 0 0, 0, 0),
    (wbits (old.getD 2 0) 63 32 == wbits (new.getD 2 0) 63 32, 0, 2),
    same 1 1 isl, same 2 1 isl, same 7 1 isl, same 3 1 ch, same 4 1 (fun _ => false), same 4 2 ch,
    same 5 1 (fun _ => false), same 5 2 (fun _ => false), same 5 3 (fun _ => false), same 5 5 (fun _ => false),
    (slots.all (fun n => inQ (taskOf old n) || inQ (taskOf new n)
      || (taskOf old n).map SRec.words == (taskOf new n).map SRec.words), 5, lo 5),
    ((section_ old 6).words == (section_ new 6).words, 6, lo 6),
    ((section_ old 8).words == (section_ new 8).words, 8, lo 8),
    ((section_ old 9).words == (section_ new 9).words, 9, lo 9),
    ((section_ old 11).words == (section_ new 11).words, 11, lo 11)]

/-! ## The check as a whole (R438) -/

/-- A stream's words as numbers. -/
def nats (ws : List (BitVec 64)) : List Nat := ws.map (·.toNat)

/-- The stream's scope: 1 customer, 2 vendor reference. -/
def scopeOf (ws : List Nat) : Nat := wbits (ws.getD 0 0) 15 8

/-- The first refusal of a check, in the order of R438; the signature verdicts are the command's, and a vendor stream needs a
vendor reference anchor that is not revoked (R437, R465). The reference stream in flash passes every other check (R3). -/
def State.checkStream (s : State) (sigGood : Bool) : Option Refused :=
  let ws := nats s.str.checking
  let orElse (a : Option Refused) (b : Unit → Option Refused) : Option Refused :=
    match a with
    | some x => some x
    | none => b ()
  let vendorKey := !(s.sec.vendorRevoked.getLsbD 4 && s.sec.vendorRevoked.getLsbD 5)
  let keyOk := if scopeOf ws = 1 then s.slotLive (wbits ((section_ ws 12).words.getD 1 0) 7 0) 0 else vendorKey
  let sigOff := (section_ ws 12).off
  if s.str.src = 3 then (if sigGood && vendorKey then none else some (3, 12, 0))
  else
    orElse (checkHeader ws) (fun _ => orElse (checkOrder ws) (fun _ =>
    orElse (if sigGood && keyOk then none else some (3, 12, sigOff)) (fun _ =>
    orElse (if wbits (ws.getD 2 0) 63 32 = (s.reg aLPE_CS_ROMID).toNat then none else some (4, 0, 2)) (fun _ =>
    orElse (if (s.reg (aSEC_FLOOR 3)).toNat ≤ wbits (ws.getD 2 0) 31 0 then none else some (11, 0, 2)) (fun _ =>
    orElse (checkFields ws) (fun _ => orElse (s.checkConsistency ws) (fun _ => orElse (s.checkBudgets ws) (fun _ =>
    orElse (if s.str.qmask = 0 then none else checkReload (nats s.str.words) ws s.str.qmask) (fun _ =>
    if s.str.bad then some (12, 0, 0) else none)))))))))

/-! ## What a stream sets (R435) -/

/-- The registers of a channel at their defaults (R111). -/
def State.chanDefaults (s : State) (n c : Nat) : State :=
  [aCH_MODE n c, aCH_PERIOD n c, aCH_PHASE n c, aCH_DT n c].foldl (fun s a => s.setReg a (regReset a)) s

/-- A structure load puts a channel's periods on the grid of its default PERIOD and PHASE (R91, R111). -/
def State.regrid (s : State) (ch : Nat) : State := s.setChan ch { s.chan ch with anchor := none, newPeriod := none }

/-- An ISLAND record. A channel with more than one pair of GH and GL keeps in CH_DTFLOOR the floor of the last one (DESIGN
CHOICE, log entry 68: R97 gives a floor per pair, and the register is one per channel). -/
def State.setIsland (s : State) (r : SRec) : State :=
  let n := wbits (r.w 0) 5 0
  let s1 := s.setFld (aISL_STAT n) fISL_STAT_VBANK (wbits (r.w 0) 8 8)
  let s2 := (List.range 4).foldl (fun s c => ((s.chanDefaults n c).regrid (chanOf n c)).setReg (aCH_DTFLOOR n c) 0) s1
  (List.range 26).foldl (fun s p =>
    let w := r.w (1 + p)
    let st := putF (putF (putF (putF (s.reg (aPIN_STAT n p)) fPIN_STAT_ROLE (wbits w 3 0)) fPIN_STAT_FMT_OK (wbits w 8 4))
      fPIN_STAT_SAFE_LVL (wbits w 10 9)) fPIN_STAT_INH_SET (wbits w 11 11)
    let cfg := putF (putF (fldWord fPIN_CFG_SRC (wbits w 14 13)) fPIN_CFG_FORMAT (wbits w 17 15)) fPIN_CFG_DRIVE (wbits w 18 18)
    let s1 := ((s.setReg (aPIN_STAT n p) st).setFld (aMON_BIND n p) fMON_BIND_INH (wbits w 12 12)).setReg (aPIN_CFG n p) cfg
    if wbits w 3 0 = 1 then s1.setReg (aCH_DTFLOOR n (p / 6)) (BitVec.ofNat 32 (wbits w 47 32)) else s1) s2

/-- An XBAR record. -/
def State.setXbar (s : State) (r : SRec) : State :=
  let n := wbits (r.w 0) 5 0
  (List.range 9).foldl (fun s u =>
    let w := r.w (1 + u)
    s.setReg (aMU_BIND n u) (putF (putF (putF (fldWord fMU_BIND_PIN (wbits w 4 0)) fMU_BIND_CH (wbits w 9 8))
      fMU_BIND_QTY (wbits w 17 16)) fMU_BIND_SPARE (if u = 8 then 1 else 0))) s

/-- An EVENT record. -/
def State.setRoute (s : State) (r : SRec) : State :=
  let a := aMON_BIND (wbits (r.w 0) 5 0) (wbits (r.w 0) 12 8)
  (s.setFld a fMON_BIND_FLAG_EN (wbits (r.w 0) 16 16)).setFld a fMON_BIND_FLAG (wbits (r.w 0) 23 20)

/-- The gang fields of a channel (R100), and MEMBER of its loop. -/
def State.setGang (s : State) (ch : Nat) (n k : Nat) : State :=
  let a := aCH_STAT (islOf ch) (locOf ch)
  let s1 := ((s.setFld a fCH_STAT_GANG_N (n - 1)).setFld a fCH_STAT_GANG_K k).setFld a fCH_STAT_LEADER
    (if 1 < n ∧ k = 0 then 1 else 0)
  s1.setFld (aLCH_STAT ch) fLCH_STAT_MEMBER (if k = 0 then 0 else 1)

/-- The gang fields of a channel as a stream gives them. -/
def State.setGangOf (s : State) (ws : List Nat) (ch : Nat) : State :=
  match gangOf ws ch with
  | some r => s.setGang ch (wbits (r.w 0) 12 8) (ch - wbits (r.w 0) 7 0)
  | none => s.setGang ch 1 0

/-- The binding of a channel to its engine (R162, R166, R167), or none; its initial law and block are selected (R179, R189). -/
def State.setLoopOf (s : State) (ws : List Nat) (ch : Nat) : State :=
  match (recsOf ws 4 2).find? (fun r => wbits (r.w 0) 7 0 == ch) with
  | some r =>
    let e := wbits (r.w 0) 10 8
    let blk := wbits (r.w 0) 28 24
    let id := wbits (r.w 0) 23 16
    let x := s.lch ch
    let same := x.bound && s.lawOf ch == id
    let clear := id == 6 || (byteAt (s.blockBytes e (s.generation e blk) blk) 1).testBit 1
    let s1 := s.setLch ch { x with
      eng := e, bound := true, permit := permitted r, minper := wbits (r.w 2) 27 0
      fixedPhase := wbits (r.w 2) 59 32, mindiv := minDiv r, newLaw := x.newLaw || !same, first := x.first || !same
      area := if !same && clear then putLawState x.area x.xv 0 0 else x.area }
    let law := putF (putF (fldWord fLCH_LAW_LAW id) fLCH_LAW_BLOCK blk) fLCH_LAW_GEN (s.generation e blk)
    (s1.setReg (aLCH_LAW ch) law).setReg (aLCH_CFG ch) (BitVec.ofNat 32 (minDiv r))
  | none => ((s.setLch ch {}).setReg (aLCH_LAW ch) 0).setReg (aLCH_CFG ch) (regReset (aLCH_CFG ch))

/-- The leads and check modes of the engines, and the streams bound to each. -/
def State.setEngines (s : State) (ws : List Nat) : State :=
  (List.range 8).foldl (fun s e =>
    let r := (recsOf ws 4 1).find? (fun r => wbits (r.w 0) 2 0 == e)
    let w := (r.map (fun r => r.w 0)).getD 0
    ((s.setFld (aENG_STAT e) fENG_STAT_LEAD (wbits w 31 16)).setFld (aENG_STAT e) fENG_STAT_MODE (wbits w 8 8)).setFld
      (aENG_STAT e) fENG_STAT_STREAMS ((recsOf ws 4 2).countP (fun r => wbits (r.w 0) 10 8 == e))) s

/-- A task slot bound (R270, R300): DORMANT. -/
def State.bindTask (s : State) (r : SRec) : State :=
  let base := wbits (r.w 1) 29 24
  s.setTask (wbits (r.w 0) 47 32) {
    state := .dormant, prio := base, base := base, group := wbits (r.w 1) 19 16, aset := wbits (r.w 1) 23 20
    chan := wbits (r.w 0) 23 16, chain := wbits (r.w 1) 47 32, table := wbits (r.w 0) 13 8
    firstStep := wbits (r.w 1) 9 0, step := wbits (r.w 1) 9 0 }

/-- The SCHED section but its tasks, with the defaults of R435. -/
def State.setSched (s : State) (ws : List Nat) : State :=
  let g (n : Nat) : Option SRec := (recsOf ws 5 2).find? (fun r => wbits (r.w 0) 3 0 == n)
  let s1 := (List.range 16).foldl (fun s n =>
    match g n with
    | some r => (s.setReg (aSCH_GRP0 n) (putF (fldWord fSCH_GRP0_LEAD (wbits (r.w 0) 47 32)) fSCH_GRP0_ALLOW
        (wbits (r.w 1) 15 0))).setReg (aSCH_GRP1 n) (putF (putF (fldWord fSCH_GRP1_DISC (wbits (r.w 1) 49 48))
        fSCH_GRP1_TICK (wbits (r.w 1) 45 32)) fSCH_GRP1_AGE (wbits (r.w 1) 31 16))
    | none => (s.setReg (aSCH_GRP0 n) 0x0200012C).setReg (aSCH_GRP1 n) 0x00640000) s
  let s2 := (List.range 16).foldl (fun s n =>
    s.setReg (aSCH_ASET n) (match (recsOf ws 5 3).find? (fun r => wbits (r.w 0) 3 0 == n) with
      | some r => BitVec.ofNat 32 (wbits (r.w 0) 31 16)
      | none => 0xFFFF)) s1
  let s3 := s2.setReg aSCH_BAND (match (recsOf ws 5 1).head? with
    | some r => putF (fldWord fSCH_BAND_MODE (wbits (r.w 0) 7 0)) fSCH_BAND_UPRIO (wbits (r.w 0) 10 8)
    | none => 0)
  (recsOf ws 5 5).foldl (fun s r =>
    s.setReg (aSCH_QCFG (wbits (r.w 0) 9 0)) (putF (putF (fldWord fSCH_QCFG_DEF 1) fSCH_QCFG_PROD (wbits (r.w 0) 17 16))
      fSCH_QCFG_LIMIT (wbits (r.w 0) 50 32))) s3

/-- The MEMORY section: HBM regions, requesters, basin sizes and the overflow's. -/
def State.setMemory (s : State) (ws : List Nat) : State :=
  let s1 := (recsOf ws 6 2).foldl (fun s r =>
    let k := wbits (r.w 0) 3 0
    let kind := wbits (r.w 0) 7 4
    let size := wbits (r.w 1) 46 32
    let s1 := ((s.setReg (aHBM_RGN_BASE k) (BitVec.ofNat 32 (wbits (r.w 1) 14 0))).setReg (aHBM_RGN_SIZE k)
      (BitVec.ofNat 32 size)).setReg (aHBM_RGN_KIND k) (putF (putF (fldWord fHBM_RGN_KIND_KIND kind) fHBM_RGN_KIND_LOG2G
      (wbits (r.w 0) 11 8)) fHBM_RGN_KIND_HINT (wbits (r.w 0) 13 12))
    if 1 ≤ kind ∧ kind ≤ 4 then s1.setReg (aBSN_SIZE (kind - 1)) (BitVec.ofNat 32 (size * 16384))
    else if kind = 6 then s1.setReg aEXC_OVFSZ (BitVec.ofNat 32 (size * 32768))
    else s1) s
  (recsOf ws 6 3).foldl (fun s r =>
    s.setReg (aHBM_REQ_RES (wbits (r.w 0) 3 0)) (putF (fldWord fHBM_REQ_RES_RES (wbits (r.w 0) 15 8)) fHBM_REQ_RES_WT
      (wbits (r.w 0) 23 16))) s1

/-- The FAULT section: the reaction table; a reserved source's nibble stays 0 (R459). -/
def State.setFaults (s : State) (ws : List Nat) : State :=
  (List.range 16).foldl (fun s w =>
    s.setReg (aFLT_REACT w) (BitVec.ofNat 32 ((List.range 8).foldl (fun a k =>
      a + (if ((regReset (aFLT_REACT w)).toNat >>> (4 * k)) % 16 = 0 then 0 else faultByte ws (8 * w + k) % 16) * 16 ^ k) 0))) s

/-- The ACQ section. -/
def State.setAcq (s : State) (ws : List Nat) : State :=
  let m := match (recsOf ws 9 1).head? with
    | some r => wbits (r.w 0) 0 0
    | none => 0
  let s1 := s.setFld aACQ_STAT fACQ_STAT_MASTER m
  let put (t : Tab (List Byte)) (r : SRec) : Tab (List Byte) :=
    Tab.set (fun _ => []) t (wbits (r.w 0) 7 0) (natBytes (r.words.drop 1))
  { s1 with acq := { s1.acq with
    profiles := (recsOf ws 9 2).foldl put []
    lmsets := (recsOf ws 9 3).foldl put [] } }

/-- The TWIN section; the initial TBS_SRC at a full load only. R83 says that TBS_LOCKCFG is written from this section too, but
R435 gives it no such field: it keeps its value (DESIGN CHOICE, log entry 67). -/
def State.setTwinSection (s : State) (ws : List Nat) (full : Bool) : State :=
  let w (i : Nat) : Nat := (section_ ws 10).words.getD i 0
  let half (i : Nat) : Word × Word := (BitVec.ofNat 32 (w i), BitVec.ofNat 32 (w i / 2 ^ 32))
  let s1 := ((((s.setReg aTWN_CFG (half 1).1).setReg aTWN_PTOLV (half 2).1).setReg aTWN_PTOLI (half 2).2).setReg aTWN_PN
    (half 3).1).setReg aTWN_FWLEAD (half 3).2
  let s2 := (List.range 2).foldl (fun s k =>
    (((s.setReg (aTWN_COLMASK (2 * k)) (half (4 + k)).1).setReg (aTWN_COLMASK (2 * k + 1)) (half (4 + k)).2).setReg
      (aTWN_BLMASK (2 * k)) (half (6 + k)).1).setReg (aTWN_BLMASK (2 * k + 1)) (half (6 + k)).2) s1
  let s3 := (s2.setFld aTBS_CTL fTBS_CTL_MPAIR (wbits (w 8) 0 0)).setReg aTBS_CABLE (BitVec.ofNat 32 (wbits (w 8) 47 24))
  if full then s3.setReg aTBS_SRC (BitVec.ofNat 32 (wbits (w 8) 8 7)) else s3

/-- The POLICY section: the rights of each role (R435). -/
def policyOf (ws : List Nat) : List (Fin 4 × Rights) :=
  (recsOf ws 11 1).map (fun r => (Fin.ofNat 4 (wbits (r.w 0) 1 0),
    ⟨BitVec.ofNat 19 (wbits (r.w 1) 18 0), BitVec.ofNat 19 (wbits (r.w 1) 50 32), BitVec.ofNat 7 (wbits (r.w 2) 6 0)⟩))

/-! ## Topology T6 of the reference stream (R3, R86, R128, R154, R532) -/

/-- The pin word of a pin under T6; the bank voltage is not stated. -/
def t6Pin (p : Nat) : Nat :=
  let role := if p = 24 then 8 else if p = 25 then 9 else p % 6 + 1
  let fmtOk := if role = 1 then 15 else if role = 2 ∨ role = 3 then 11 else if role = 9 then 16 else 8
  let safe := if role ≤ 3 ∨ role = 9 then 0 else 2
  role + fmtOk * 2 ^ 4 + safe * 2 ^ 9 + (if role ≤ 2 then 2 ^ 11 else 0) + (if role = 6 then 2 ^ 12 else 0)
    + (if role = 9 then 4 else 3) * 2 ^ 15 + (if role = 1 then 1920 * 2 ^ 32 else 0)

/-- The ISLAND, XBAR and EVENT records of an island under T6: only the SP monitors have bindings (R154). -/
def State.setT6 (s : State) (n : Nat) : State :=
  let w0 := n + s.fld (aISL_STAT n) fISL_STAT_VBANK * 2 ^ 8
  let s1 := ((List.range 26).foldl (fun s m => s.setReg (aMON_BIND n m) 0) s).setIsland ⟨1, 0, w0 :: (List.range 26).map t6Pin⟩
  let unit (u : Nat) : Nat :=
    if u = 8 then 24 else 6 * (u / 2) + 3 + u % 2 + (u / 2) * 2 ^ 8 + (u % 2 + 1) * 2 ^ 16
  let s2 := s1.setXbar ⟨1, 0, n :: (List.range 9).map unit⟩
  (List.range 4).foldl (fun s c => s.setRoute ⟨1, 0, [n + (6 * c + 5) * 2 ^ 8 + 2 ^ 16]⟩) s2

/-! ## Digests and the read-back image (R445, R447) -/

/-- A digest put into twelve registers. -/
def State.setDigest (s : State) (a : Nat) (d : BitVec 384) : State :=
  (List.range 12).foldl (fun s k => s.setReg (a + 4 * k) (digestWord d k)) s

/-- The words that R437 signs. -/
def signedWords (ws : List Nat) : List Nat := ws.take (section_ ws 12).off

/-- STR_DIG, STR_TDIG and STR_SERIAL of a stream that comes into force. -/
def State.showStream (s : State) (ws : List Nat) : State :=
  let t := section_ ws 10
  let sw := signedWords ws
  let s1 := s.setDigest aSTR_DIG (Config.sha384 (natBytes sw))
  let s2 := s1.setDigest aSTR_TDIG (Config.sha384 (natBytes (sw.take t.off ++ sw.drop (t.off + t.words.length))))
  s2.setWide aSTR_SERIAL 2 (ws.getD 3 0)

/-- The read-back image: the header, then nine words for each section. -/
def imageBytes (ws : List Nat) : List Byte :=
  natBytes (ws.take 8) ++ (sections ws).1.flatMap (fun x =>
    natBytes [x.code, x.off, x.words.length] ++ digestBytes (Config.sha384 (natBytes x.words)))

/-- The image written into the management region. -/
def State.writeImage (s : State) (ws : List Nat) : State :=
  match s.plainBase .management with
  | some b => { s with sram := Memory.writeBytes s.sram (b + 0x7F0000) (imageBytes ws) }
  | none => s

/-! ## Full load (R440) and reload (R443) -/

/-- The log entry of a load, apply or unload (R494): STR_SERIAL, bytes 0 to 23 of STR_DIG. -/
def State.logStream (s : State) (op : Nat) : State :=
  s.log 0x06 op (leBytes 8 (s.wide aSTR_SERIAL 2) ++ (List.range 6).flatMap (fun k => leBytes 4 (s.reg (aSTR_DIG + 4 * k)).toNat))

/-- The copies that a 128 MiB archive holds, newest first, and those that it has to replace (R487). -/
def archiveSplit : Nat → List (List (BitVec 64)) → List (List (BitVec 64)) × List (List (BitVec 64))
  | _, [] => ([], [])
  | room, x :: xs =>
    if 8 * x.length ≤ room then
      let r := archiveSplit (room - 8 * x.length) xs
      (x :: r.1, r.2)
    else ([], x :: xs)

/-- A stream copied into the archive; the replacement of older copies is logged (R487, R494). -/
def State.archiveStream (s : State) (x : List (BitVec 64)) : State :=
  let r := archiveSplit 134217728 (x :: s.mgt.archive)
  r.2.foldl (fun s y => s.log 0x0E 0 (leBytes 8 (y.getD 3 0).toNat)) { s with mgt := { s.mgt with archive := r.1 } }

/-- A stream in force by a load or an apply: its digests, its image, its VERSION, the copy of R487, the log, and, for a
customer stream, the end of FS 7's cause (R446); the reference stream is the vendor's, SCOPE 02h (R3, R433). -/
def State.inForce (s : State) (op : Nat) (ws : List Nat) (reference : Bool) : State :=
  let s1 := ((s.showStream ws).writeImage ws).bump aSTR_LOADS
  let st := putF (putF (putF (putF (putF (s1.reg aSTR_STAT) fSTR_STAT_STATE 1) fSTR_STAT_REF reference.toNat)
    fSTR_STAT_CHECKED 0) fSTR_STAT_BUSY 0) fSTR_STAT_QMASK 0
  let s2 := (if scopeOf ws = 1 && !reference then s1.causeOff 7 0 else s1).setReg aSTR_STAT st
  ({ s2 with str := { s2.str with
      words := s2.str.checking, version := BitVec.ofNat 32 (wbits (ws.getD 2 0) 31 0), checking := [], range := none
      qmask := 0, bad := false, boot := false, policy := policyOf ws } }.archiveStream s2.str.checking).logStream op

/-- A full load applied (R440): every field of R435, the plain's placement, every bound task DORMANT, the image; the contents
of the plain are undefined (log entry 2). Negotiation begins. -/
def State.applyFull (s : State) : State :=
  let ws := nats s.str.checking
  let plain := ((recsOf ws 6 1).head?.map plainBases).getD []
  let s0 := { s with sram := [], tasks := [], str := { s.str with plain := plain } }
  let s1 := (recsOf ws 1 1).foldl State.setIsland s0
  let s2 := (recsOf ws 2 1).foldl State.setXbar s1
  let s3 := (recsOf ws 7 1).foldl State.setRoute s2
  let s4 := if s.str.src = 3 then (List.range 64).foldl State.setT6 s3 else s3
  let s5 := (List.range 256).foldl (fun s ch => (s.setGangOf ws ch).setLoopOf ws ch) s4
  let s6 := ((((s5.setEngines ws).setSched ws).setMemory ws).setFaults ws).setAcq ws
  let s7 := (recsOf ws 5 4).foldl State.bindTask (s6.setTwinSection ws true)
  (s7.inForce 1 ws (s.str.src == 3)).negotiate

/-- A CHECKED reload applied to the quadrants of its mask (R443). A task whose record stays as it was stays as it is; one with
another record is newly bound (DEDUCED, log entry 78). -/
def State.applyQuads (s : State) : State :=
  let q := s.str.qmask
  let ws := nats s.str.checking
  let old := nats s.str.words
  let isl (r : SRec) : Bool := islInQuads q (wbits (r.w 0) 5 0)
  let clear (s : State) (n : Nat) : State :=
    if islInQuads q n then (List.range 26).foldl (fun s m => s.setReg (aMON_BIND n m) 0) s else s
  let s1 := ((recsOf ws 1 1).filter isl).foldl State.setIsland ((List.range 64).foldl clear s)
  let s2 := ((recsOf ws 2 1).filter isl).foldl State.setXbar s1
  let s3 := ((recsOf ws 7 1).filter isl).foldl State.setRoute s2
  let s3 := if s.str.src = 3 then (List.range 64).foldl (fun s n => if islInQuads q n then s.setT6 n else s) s3 else s3
  let s4 := (List.range 256).foldl (fun s ch =>
    if inQuads q ch then (s.setGangOf ws ch).setLoopOf ws ch else s) s3
  let inQ (r : SRec) : Bool := inQuads q (wbits (r.w 0) 23 16)
  let stays (other : List SRec) (r : SRec) : Bool := other.any (fun x => x.words == r.words)
  let s5 := ((recsOf old 5 4).filter (fun r => inQ r && !(stays (recsOf ws 5 4) r))).foldl
    (fun s r => s.setTask (wbits (r.w 0) 47 32) {}) s4
  let s6 := ((recsOf ws 5 4).filter (fun r => inQ r && !(stays (recsOf old 5 4) r))).foldl State.bindTask s5
  ((s6.setEngines ws).setTwinSection ws false).inForce 2 ws (s.str.src == 3)

/-! ## The loader's commands (R438 to R444) -/

/-- A load, apply or store refused: cause, section, offset, REJ, FS 6 (R438, R446). -/
def State.strRefuse (s : State) (r : Refused) : State :=
  let s1 := ((s.setFld aSTR_STAT fSTR_STAT_CAUSE r.1).setFld aSTR_STAT fSTR_STAT_SECTION r.2.1).setWide aSTR_FOFF 2 r.2.2
  (s1.latch aSTR_LAT fSTR_LAT_REJ).raise 6 islManagement

/-- The words of a host space from an offset. -/
def State.spaceWords (s : State) (sp off n : Nat) : List (BitVec 64) :=
  (List.range n).map (fun k => BitVec.ofNat 64 (leNat (s.spaceBytes sp (off + 8 * k) 8)))

/-- The extent of a stream in a host space lies in the source that R439 allows. -/
def State.sourceOk (s : State) (sp off n : Nat) : Bool :=
  off % 8 == 0 && decide (off + 8 * n ≤ spaceSize sp) &&
    (if sp = 1 then !s.strInForce
    else match s.hbmRegionAt off, s.hbmRegionAt (off + 8 * n - 1) with
      | some r, some q => r == q && s.fld (aHBM_RGN_KIND r) fHBM_RGN_KIND_KIND == 7
      | _, _ => false)

/-- A check begins on words read from a source. -/
def State.startCheck (s : State) (ws : List (BitVec 64)) (src qmask : Nat) (range : Option (Nat × Nat × Nat)) (boot : Bool) :
    State :=
  let s1 := ((s.setBit aSTR_STAT fSTR_STAT_BUSY true).setBit aSTR_STAT fSTR_STAT_CHECKED false).setFld aSTR_STAT fSTR_STAT_QMASK 0
  { s1 with str := { s1.str with
    checking := ws, src := src, qmask := qmask, range := range, boot := boot, bad := false } }

/-- The words of the reference stream in flash. -/
def referenceStream : List (BitVec 64) := (List.range Config.referenceWords).map Config.referenceStream

/-- Boot firmware loads the reference stream (R441): FALLBACK, FS 7. -/
def State.bootReference (s : State) : State :=
  (((s.latch aSTR_LAT fSTR_LAT_FALLBACK).causeOn 7 0).raise 7 islManagement).startCheck referenceStream 3 0 none true

/-- Boot firmware loads the start slot, or the reference stream where it is empty (R441). -/
def State.bootLoad (s : State) : State :=
  if s.str.startSlot.isEmpty then s.bootReference else s.startCheck s.str.startSlot 2 0 none true

/-- STR_LOAD (R438, R439, R440, R442). -/
def execStrLoad (src : BitVec 2) (qmask : BitVec 4) (s : State) : Result :=
  let busy := s.bit aSTR_STAT fSTR_STAT_BUSY
  let off := s.wide aSTR_ADDR 2
  if busy ∨ (qmask = 0 ∧ s.strInForce) ∨ (qmask ≠ 0 ∧ !s.strInForce) then .next (s.strRefuse (9, 0, 0))
  else if src = 2 then
    .next (if s.str.startSlot.isEmpty then s.strRefuse (10, 0, 0) else s.startCheck s.str.startSlot 2 qmask.toNat none false)
  else if src = 3 then .next (s.startCheck referenceStream 3 qmask.toNat none false)
  else
    let sp := if src = 0 then 1 else 2
    if !(s.sourceOk sp off 8) then .next (s.strRefuse (10, 0, 0))
    else
      let len := wbits (nats (s.spaceWords sp off 2) |>.getD 1 0) 31 0
      let n := max 8 len
      if !(s.sourceOk sp off n) then .next (s.strRefuse (10, 0, 0))
      else
        let k := min n 2097153
        .next (s.startCheck (s.spaceWords sp off k) src.toNat qmask.toNat (some (sp, off, 8 * k)) false)

/-- A checking or CHECKED stream discarded. -/
def State.dropChecked (s : State) : State :=
  let s1 := ((s.setBit aSTR_STAT fSTR_STAT_BUSY false).setBit aSTR_STAT fSTR_STAT_CHECKED false).setFld aSTR_STAT fSTR_STAT_QMASK 0
  { s1 with str := { s1.str with checking := [], range := none, qmask := 0, bad := false, boot := false } }

/-- STR_CHECK_DONE (R438, R440 to R442): the stream is refused, applied, or CHECKED; boot firmware falls back to the reference
stream. -/
def execStrCheckDone (sigGood : Bool) (s : State) : Result :=
  if s.bit aSTR_STAT fSTR_STAT_BUSY = false then .next s
  else
    match s.checkStream sigGood with
    | some r =>
      let s1 := s.dropChecked.strRefuse r
      .next (if s.str.boot ∧ s.str.src = 2 then s1.bootReference else s1)
    | none =>
      if s.str.qmask = 0 then .next s.applyFull
      else .next (((s.setBit aSTR_STAT fSTR_STAT_BUSY false).setBit aSTR_STAT fSTR_STAT_CHECKED true).setFld aSTR_STAT
        fSTR_STAT_QMASK s.str.qmask)

/-- The conditions of R443 at an APPLY. -/
def State.applyAllowed (s : State) : Bool :=
  let q := s.str.qmask
  let slotsIn (ws : List (BitVec 64)) : List Nat :=
    ((recsOf (nats ws) 5 4).filter (fun r => inQuads q (wbits (r.w 0) 23 16))).map (fun r => wbits (r.w 0) 47 32)
  (List.range 64).all (fun n => !(islInQuads q n) || !(s.blkOn (64 + n)))
    && (slotsIn s.str.words ++ slotsIn s.str.checking).all (fun n => (s.task n).state != .armed && !((s.task n).state.live))
    && (List.range 256).all (fun ch => !(inQuads q ch)
      || (!(s.bit (aLCH_CTL ch) fLCH_CTL_EN) && s.plState ch == plIdle))
    && (List.range 4).all (fun k => !(q.testBit k) || !(s.seqRuns k))

/-- An ABORT is due at the same TBU: it discards the CHECKED stream before an APPLY acts (R444). -/
def State.abortDue (s : State) : Bool :=
  s.agenda.any (fun (d : Due) => d.due == s.at && (match d.act with
    | .cmd (.regWrite _ a w) => a.toNat == aSTR_CMD && getF w fSTR_CMD_OP == 3
    | _ => false))

/-- STR_APPLY (R443, R444). -/
def execStrApply (s : State) : Result :=
  if s.bit aSTR_STAT fSTR_STAT_CHECKED = true ∧ s.bit aSTR_STAT fSTR_STAT_BUSY = false ∧ s.applyAllowed = true
      ∧ s.abortDue = false then
    .next s.applyQuads
  else .next (s.strRefuse (9, 0, 0))

/-- STR_ABORT (R439, R444, R448): a check or a CHECKED stream is discarded. R439 refuses a write made while BUSY and speaks of a
stream aborted in the same rule: an ABORT ends a check (DEDUCED, log entry 78). -/
def execStrAbort (s : State) : Result := .next s.dropChecked

/-- The fields of a register word that the structure stream sets, at their reset values (R40, R441). -/
def dropStr (a : Nat) (w : Word) : Word :=
  match rowAt a with
  | some (r, _, _) =>
    (r.flds.filter (·.str)).foldl (fun w f =>
      let m := bitMask f.hi f.lo
      (w &&& ~~~ m) ||| (regReset a &&& m)) w
  | none => w

/-- Every structure-derived field returns to its reset value, and the state behind it with it. -/
def State.loseStructure (s : State) : State :=
  let s1 := s.regs.foldl (fun t p => t.setReg p.1 (dropStr p.1 p.2)) s
  let keep := [aTBS_CTL, aACQ_STAT] ++ (List.range 16).map aFLT_REACT ++ (List.range 8).map aENG_STAT
    ++ (List.range 256).flatMap (fun c => [aLCH_LAW c, aLCH_STAT c, aLCH_CFG c])
    ++ (List.range 64).flatMap (fun n => (List.range 26).map (aPIN_CFG n))
    ++ (List.range 12).flatMap (fun k => [aSTR_DIG + 4 * k, aSTR_TDIG + 4 * k]) ++ [aSTR_SERIAL, aSTR_SERIAL + 4]
  let s2 := keep.foldl (fun s a => s.setReg a (regReset a)) s1
  { s2 with
    tasks := [], loops := [], sched := {}
    str := { s2.str with words := [], version := 0, plain := [], policy := [] }
    acq := { s2.acq with profiles := [], lmsets := [] } }

/-- The conditions of an UNLOAD (R441). -/
def State.unloadAllowed (s : State) : Bool :=
  [4, 5, 6, 7, 10, 11, 14, 15].all (fun b => !(s.blkOn b)) && (List.range 64).all (fun n => !(s.blkOn (64 + n)))
    && (s.twin == twDetached || s.twin == twHoldoff || s.twin == twSolo)

/-- UNLOAD (R441). -/
def execUnload (s : State) : Result :=
  if s.bit aSTR_STAT fSTR_STAT_BUSY = true ∨ s.unloadAllowed = false then .next (s.strRefuse (9, 0, 0))
  else
    let m := s.bit aACQ_STAT fACQ_STAT_RUN
    let s1 := (((s.logStream 4).dropChecked.loseStructure).setTwin twDetached).setBit aACQ_STAT fACQ_STAT_RUN m
    .next ((s1.setFld aSTR_STAT fSTR_STAT_STATE 0).setBit aSTR_STAT fSTR_STAT_REF false)

/-- STORE (R441): the stream in force is written into the start slot. -/
def execStore (good : Bool) (s : State) : Result :=
  if s.bit aSTR_STAT fSTR_STAT_BUSY = true ∨ s.strInForce = false then .next (s.strRefuse (9, 0, 0))
  else if good then .next { s with str := { s.str with startSlot := s.str.words } }
  else .next ((s.latch aSTR_LAT fSTR_LAT_STOREFAIL).raise 6 islManagement)

end Sys2Proof.Machine
end

