-- ==== Sys2Proof/Machine/Blocks.lean ====
section
/-! DEFINITION. Enable, disable and reset of one block (R34, R40, R508): what the chapter of each block says they do. -/
namespace Sys2Proof.Machine

/-! ## Registers -/

/-- A register word with its fields of some classes at their reset values; fields that the structure stream sets keep
theirs (R40). -/
def resetWord (cls : Cls → Bool) (a : Nat) (w : Word) : Word :=
  let o := a % 0x100000
  if o = 0 then w
  else if o = 4 then (if cls .run then regReset a else w)
  else if o = 8 then (if cls .lat then 0 else w)
  else if o = 12 then (if cls .sta then 0 else w)
  else match rowAt a with
    | some (r, _, _) =>
      (r.flds.filter (fun f => cls f.cls && !f.str)).foldl (fun w f =>
        let m := bitMask f.hi f.lo
        (w &&& ~~~ m) ||| (regReset a &&& m)) w
    | none => w

/-- The registers of a block with their fields of some classes at their reset values, but for those that `keep` names. -/
def State.resetRegs (s : State) (b : Nat) (cls : Cls → Bool) (keep : Nat → Bool) : State :=
  s.regs.foldl (fun t (p : Nat × Word) =>
    if p.1 / 0x100000 = b ∧ keep p.1 = false then t.setReg p.1 (resetWord cls p.1 p.2) else t) s

/-- The classes of R40: CFG, RUN, STA and LAT. -/
def everyClass (c : Cls) : Bool := c != .lock

/-- The classes RUN and LAT. -/
def runLat (c : Cls) : Bool := c == .run || c == .lat

/-- No register is kept. -/
def keepNone (_a : Nat) : Bool := false

/-- The causes of some sources end. -/
def State.endCauses (s : State) (f : Nat × Nat → Bool) : State := { s with causes := s.causes.filter (fun c => !(f c)) }

/-! ## Disables -/

/-- A disable of SCH or STE acts on both blocks (R300). -/
def State.schedDown (s : State) : State :=
  (s.schedReset.resetRegs 4 runLat keepNone).resetRegs 5 runLat keepNone

/-- Every background routine aborted (R185, R189). -/
def State.bgAbortEngines (s : State) (latch : Bool) : State :=
  (List.range 8).foldl (fun s e => s.bgAbortAll e latch) s

/-- A disable of LPE (R172, R185, R187): no loop runs, routines abort, no stream is enabled that could read a mismatched
block. -/
def State.lpeOff (s : State) : State :=
  (List.range 256).foldl (fun s c => (s.loopStops c).unmatch c) (s.bgAbortEngines true)

/-- A re-enable of LPE (R172): every loop whose EN is 1 runs again from the first update point at or after this instant, as
after a new enable. -/
def State.lpeOn (s : State) : State :=
  (List.range 256).foldl (fun s c => if s.bit (aLCH_CTL c) fLCH_CTL_EN then s.loopStarts c else s) s

/-- What a disable of a block does to running work (R34, R83, R106, R123, R185, R249, R300, R324, R371). -/
def State.blockOff (s : State) (b : Nat) : State :=
  if b = 1 then s.tbsOff
  else if b = 4 ∨ b = 5 then s.schedDown
  else if b = 6 then s.lpeOff
  else if b = 7 then s.segOff
  else if b = 10 then s.acqOff
  else if b = 15 then s.seqEndAll 11 false
  else if 64 ≤ b then ((s.islandDriversOff (b - 64)).dllOff (b - 64)).cutCode (b - 64)
  else s

/-! ## Enables -/

/-- The links that pass to DETECT when LNK is enabled or reset (R432): host ports with EN at 1, the col link, the ring. -/
def State.linksDetect (s : State) : State :=
  let port (s : State) (p : Port) : State :=
    if s.bit (aLP_CTL p.val) fLP_CTL_EN then s.setLtssm (.port p) ltDetect else s
  ((((port (port s 0) 1).setLtssm .col ltDetect).setLtssm .ringIn ltDetect).setLtssm .ringOut ltDetect)

/-- The state with BLK_CTL.EN of a block set. -/
def State.setEn (s : State) (b : Nat) (en : Bool) : State := s.setReg (b * 0x100000 + 4) (if en then 1 else 0)

/-- A block enabled (R34, R83, R122, R324, R432); an enabled one stays as it is. -/
def State.blockOn (s : State) (b : Nat) : State :=
  if s.blkOn b then s
  else
    let s1 := s.setEn b true
    if b = 1 then s1.tbsOn
    else if b = 6 then s1.lpeOn
    else if b = 10 then s1.acqOn
    else if b = 12 then s1.hbmUnhold
    else if b = 13 then s1.linksDetect
    else if 64 ≤ b then s1.dllOn (b - 64)
    else s1

/-- BLK_CTL_WRITE (R34, R431): EN fixed at 1 refuses 0, and so does LNK. -/
def execBlkCtlWrite (by_ : Issuer) (blk : BitVec 7) (en : Bool) (s : State) : Result :=
  let b := blk.toNat
  if !(blockExists b) then .next s
  else if fixedOn b || b == 13 then
    .next (if en then s.blockOn b else s.rejectVal by_ (b * 0x100000 + 4))
  else if en then .next (s.blockOn b)
  else if s.blkOn b then .next ((s.blockOff b).setEn b false)
  else .next s

/-! ## Block resets (R40, R508) -/

/-- A block reset of TBS (R83): as a disable; the count, TIME_VALID, STATE and the fields of the TWIN section stay. -/
def State.resetTbs (s : State) : State :=
  let s1 := s.tbsOff
  let keep := [aTBS_CTL, aTBS_LOCKCFG, aTBS_SRC, aTBS_CABLE]
  let st := putF (putF (fldWord fTBS_STATE_STATE s1.tbState) fTBS_STATE_TIME_VALID
    (s1.fld aTBS_STATE fTBS_STATE_TIME_VALID)) fTBS_STATE_OVEN_READY s1.power.oven.toNat
  let s2 := (s1.resetRegs 1 everyClass keep.contains).setReg aTBS_STATE st
  ({ s2 with tbs := { holdFrom := s1.tbs.holdFrom } }).causeOff 10 0

/-- A block reset of LPE (R189, R223): loops disabled, routines aborted, law states zero; the control store, the bindings,
and each channel's law and block stay. -/
def State.resetLpe (s : State) : State :=
  let s1 := s.bgAbortEngines false
  let keep (a : Nat) : Bool := aLPE_CS_ROMID ≤ a ∧ a < aLPE_CS_ECC
  let lch (s : State) (c : Nat) : State :=
    let law := s1.reg (aLCH_LAW c)
    let mem := s1.fld (aLCH_STAT c) fLCH_STAT_MEMBER
    let x := s.lch c
    let y : LoopChan := {
      eng := x.eng, bound := x.bound, permit := x.permit, minper := x.minper, fixedPhase := x.fixedPhase
      mindiv := x.mindiv }
    ((s.setReg (aLCH_LAW c) (putF law fLCH_LAW_GEN 0)).setReg (aLCH_STAT c) (fldWord fLCH_STAT_MEMBER mem)).setLch c y
  let eng (s : State) (e : Nat) : State :=
    let w := s1.reg (aENG_STAT e)
    s.setReg (aENG_STAT e) (putF (putF (fldWord fENG_STAT_LEAD (getF w fENG_STAT_LEAD)) fENG_STAT_MODE
      (getF w fENG_STAT_MODE)) fENG_STAT_STREAMS (getF w fENG_STAT_STREAMS))
  let s2 := (List.range 8).foldl eng (s1.resetRegs 6 everyClass keep)
  let s3 := (List.range 256).foldl lch s2
  ({ s3 with engs := [] }).endCauses (fun c => decide (48 ≤ c.1) && decide (c.1 ≤ 53))

/-- A block reset of ACQ or EXC (R332): basins, staging, triggers, captures and chains start afresh; profiles, sets, held
seals and spilled blocks stay, and the excursion INDEX goes on. -/
def State.resetAcq (s : State) : State :=
  let m := s.bit aACQ_STAT fACQ_STAT_MASTER
  let keep := [aEXC_WR, aEXC_WR + 4, aEXC_OLD, aEXC_OLD + 4]
  let s1 := (s.resetRegs 10 everyClass keep.contains).resetRegs 11 everyClass keep.contains
  let s2 := s1.setBit aACQ_STAT fACQ_STAT_MASTER m
  ({ s2 with acq := {
      streams := keptStreams s.acq.streams, profiles := s.acq.profiles, lmsets := s.acq.lmsets, seals := s.acq.seals
      spillNext := s.acq.spillNext } }).endCauses
    (fun c => c.1 == 82 || c.1 == 83)

/-- A block reset of HBM (R353): queued requests answered with errors; training and contents stay. -/
def State.resetHbm (s : State) : State :=
  let now := s.fld aHBM_RATE fHBM_RATE_NOW
  let s1 := (s.hbmDiscard.resetRegs 12 everyClass (fun a => a == aHBM_STAT)).setFld aHBM_RATE fHBM_RATE_NOW now
  { s1 with hbm := { rate := s.hbm.rate, deferred := s.hbm.deferred } }

/-- A block reset of LNK (R432): every link to DETECT, every session ended, frames not taken discarded; the due queues
stay, and LNK stays enabled (R431). -/
def State.resetLnk (s : State) : State :=
  let down (s : State) (p : Port) : State := if ltActive ≤ s.ltssm p.val then s.portDown p else s.endSession p.val 0x13
  let s1 := down (down s 0) 1
  let taken (p : Nat) : List Stalled := (s1.link p).hush
  let s2 := (({ s1 with links := [] }.setLink 0 { stalled := taken 0 }).setLink 1 { stalled := taken 1 }).resetRegs 13
    everyClass keepNone
  ((s2.setEn 13 true).linksDetect).endCauses (fun c => c.1 == 100 || c.1 == 102)

/-- A block reset of CAL (R371): running sequences abort, and the record stays in force. A path that is on the reference
bus goes through RELEASE and RETURN first (R364), so its status stays. -/
def State.resetCal (s : State) : State :=
  let s1 := s.seqEndAll 11 false
  let keep (a : Nat) : Bool := a == aCAL_REC || (List.range 4).any (fun q => a == aCALQ_STAT q && s1.seqRuns q)
  let s2 := s1.resetRegs 15 everyClass keep
  { s2 with calRec := { s2.calRec with checking := false, waiting := false } }

/-- A block reset of STR (R448): a check aborts and a CHECKED stream goes; the structure in force stays. -/
def State.resetStr (s : State) : State :=
  let s1 := s.dropChecked
  let st := s1.fld aSTR_STAT fSTR_STAT_STATE
  let rf := s1.fld aSTR_STAT fSTR_STAT_REF
  let keep (a : Nat) : Bool := (aSTR_SERIAL ≤ a ∧ a < aSTR_SERIAL + 8) ∨ (aSTR_DIG ≤ a ∧ a < aSTR_TDIG + 48)
  (s1.resetRegs 17 everyClass keep).setReg aSTR_STAT (putF (fldWord fSTR_STAT_REF rf) fSTR_STAT_STATE st)

/-- The sources of the pin islands, and the island of an instance of one (R110, R122, R157). -/
def causeOfIsland (n : Nat) (c : Nat × Nat) : Bool :=
  if c.1 = 35 ∨ c.1 = 40 ∨ c.1 = 41 then c.2 == n
  else if c.1 = 37 then c.2 / 2 == n
  else if c.1 = 38 then c.2 / 9 == n
  else false

/-- A block reset of an island (R111, R142, R160): drivers and CSL off, DLL unlocked, TACs empty, units disabled with the
coefficient sets in force kept, stampers empty, monitors disabled; structure-derived fields stay. -/
def State.resetIsland (s : State) (n : Nat) : State :=
  let s1 := ((s.islandDriversOff n).dllOff n).cutCode n
  let s2 := (List.range 9).foldl (fun s u => s.muOff n u) s1
  let s3 := (List.range 26).foldl (fun s m => s.monChange n m false true s.count) s2
  let s4 := s3.resetRegs (64 + n) everyClass keepNone
  let unit (p : Nat × Meas) : Nat × Meas :=
    if p.1 / 9 = n then (p.1, ({ base := p.2.base, blend := p.2.blend } : Meas)) else p
  let mon (p : Nat × Mon) : Nat × Mon :=
    if p.1 / 26 = n then (p.1, ({ shadow := p.2.shadow, shadowUns := p.2.shadowUns, past := p.2.past } : Mon)) else p
  let s5 := { s4 with
    meas := (s4.meas.map unit).filter (fun p => p.2 != ({} : Meas))
    mons := (s4.mons.map mon).filter (fun p => p.2 != ({} : Mon))
    tacs := s4.tacs.filter (fun p => p.1 / 2 != n)
    stampers := s4.stampers.filter (fun p => p.1 / 26 != n)
    chans := s4.chans.filter (fun p => p.1 / 4 != n) }
  let s6 := s5.endCauses (causeOfIsland n)
  (List.range 4).foldl (fun s c => s.settleInh (chanOf n c)) s6

/-- A block reset (R40, R508); GLB, FLT, MGT and SEC take none. -/
def State.blockReset (s : State) (b : Nat) : State :=
  if b = 1 then s.resetTbs
  else if b = 3 then s.resetRegs 3 everyClass keepNone
  else if b = 4 then s.schedDown.resetRegs 4 everyClass keepNone
  else if b = 5 then (s.schedDown.resetRegs 5 everyClass keepNone).clearFigures
  else if b = 6 then s.resetLpe
  else if b = 7 then s.segReset.resetRegs 7 everyClass keepNone
  else if b = 10 ∨ b = 11 then s.resetAcq
  else if b = 12 then s.resetHbm
  else if b = 13 then s.resetLnk
  else if b = 14 then s.resetRegs 14 runLat keepNone
  else if b = 15 then s.resetCal
  else if b = 17 then s.resetStr
  else if 64 ≤ b ∧ b < 128 then s.resetIsland (b - 64)
  else s

/-- The block whose BLK_ID.CODE is a value (R34). -/
def blockOfCode (code : Nat) : Option Nat :=
  ((List.range 19) ++ (List.range 64).map (64 + ·)).find? (fun b => blockExists b && (blkId b).toNat / 65536 == code)

/-- A code names a block that a command may reset (R506): not GLB, FLT, MGT or SEC. -/
def resettable (code : Nat) : Bool :=
  match blockOfCode code with
  | some b => !(b == 0 || b == 2 || b == 16 || b == 18)
  | none => false

/-- RSTCMD_BLOCK (R506, R511): the code of GLB, FLT, MGT or SEC, or an unassigned code, is not applied. -/
def execRstcmdBlock (by_ : Issuer) (code : BitVec 8) (s : State) : Result :=
  match blockOfCode code.toNat with
  | some b =>
    if b = 0 ∨ b = 2 ∨ b = 16 ∨ b = 18 then .next (s.rejectVal by_ aGLB_RSTCMD) else .next (s.blockReset b)
  | none => .next (s.rejectVal by_ aGLB_RSTCMD)

end Sys2Proof.Machine
end

