-- ==== Sys2Proof/Machine/Patches.lean ====
section
/-! DEFINITION. Patches of the control store (R217 to R220): the checks of boot firmware, the records of a patch and their
writing. -/
namespace Sys2Proof.Machine

/-- A record of a patch's plaintext body (R220): TYPE, COUNT, ADDR, data. -/
structure PatchRec where
  typ : Nat
  count : Nat
  addr : Nat
  data : List Byte
deriving DecidableEq, Repr

/-- The data bytes of a record of a type; none for a type that R220 does not list. -/
def patchData (typ count : Nat) : Option Nat :=
  if typ = 1 ∨ typ = 4 ∨ typ = 5 then some (4 * count)
  else if typ = 2 then some (24 * count)
  else if typ = 3 then some (32 * count)
  else if typ = 6 then (if count = 0 then some 0 else none)
  else none

/-- The records of a body, up to END, after which zero padding alone may stand; none on a format failure. -/
def parsePatch : Nat → List Byte → Option (List PatchRec)
  | 0, _ => none
  | n + 1, bs =>
    let typ := byteAt bs 0
    let count := fieldAt bs 2 2
    if bs.length < 8 ∨ byteAt bs 1 ≠ 0 then none
    else match patchData typ count with
      | none => none
      | some len =>
        let rest := (bs.drop 8).drop len
        if bs.length < 8 + len then none
        else if typ = 6 then
          (if fieldAt bs 4 4 = 0 ∧ rest.all (· == 0) ∧ rest.length < 16 then some [] else none)
        else match parsePatch n rest with
          | some rs => some (⟨typ, count, fieldAt bs 4 4, (bs.drop 8).take len⟩ :: rs)
          | none => none

/-- The format of a record's words: reserved bits of a MICRO word and of a ROM-map entry are 0, and so is a ROM map's ADDR. -/
def PatchRec.formatOk (r : PatchRec) : Bool :=
  let w (i : Nat) : Nat := fieldAt r.data (4 * i) 4
  if r.typ = 1 then (List.range r.count).all (fun i => decide (w i < 2 ^ 20))
  else if r.typ = 5 then
    r.addr == 0 && (List.range r.count).all (fun i => w i / 2 ^ 14 % 4 == 0 && decide (w i / 2 ^ 30 = 0))
  else true

/-- A record's extent lies in its store, and the entry of a law has a COST; that of a routine may have none (R209, R220). -/
def PatchRec.boundsOk (r : PatchRec) : Bool :=
  let size := if r.typ = 1 then 16384 else if r.typ = 2 then 2048 else if r.typ = 3 then 256
    else if r.typ = 4 then 4096 else 64
  decide (r.addr + r.count ≤ size)
    && (r.typ != 3 || (List.range r.count).all (fun i => decide (0x80 ≤ r.addr + i) || fieldAt r.data (32 * i + 3) 1 != 0))

/-- A record writes only what its scope may (R190, R220): a vendor patch every RAM part, every law id and the ROM map, whose
entries pair an address of the ROM with one of the RAM (R191); a customer patch the customer columns. -/
def PatchRec.scopeOk (r : PatchRec) (scope : Nat) : Bool :=
  let span (lo hi : Nat) : Bool := decide (lo ≤ r.addr) && decide (r.addr + r.count ≤ hi)
  if scope = 1 then
    if r.typ = 1 then span 0x3000 0x4000 else if r.typ = 2 then span 0x600 0x800
    else if r.typ = 3 then span 1 0x100 else if r.typ = 4 then span 0x800 0x1000
    else (List.range r.count).all (fun i =>
      let w := fieldAt r.data (4 * i) 4
      decide (w % 2 ^ 14 < 0x3000) && decide (0x3000 ≤ w / 2 ^ 16 % 2 ^ 14))
  else
    if r.typ = 1 then span 0x3800 0x4000 else if r.typ = 2 then span 0x700 0x800
    else if r.typ = 3 then span 0x40 0x80 || span 0xC0 0x100
    else if r.typ = 4 then span 0xC00 0x1000 else false

/-- A record written into the control store of all engines. -/
def Ctl.putRec (c : Ctl) (r : PatchRec) : Ctl :=
  let w (i : Nat) : Word := BitVec.ofNat 32 (fieldAt r.data (4 * i) 4)
  if r.typ = 1 then
    (List.range r.count).foldl (fun (c : Ctl) i =>
      { c with micro := Tab.set microReset c.micro (r.addr + i) ((w i).setWidth 20) }) c
  else if r.typ = 2 then
    (List.range r.count).foldl (fun (c : Ctl) i =>
      { c with nano := Tab.set nanoReset c.nano (r.addr + i) (BitVec.ofNat 192 (fieldAt r.data (24 * i) 24)) }) c
  else if r.typ = 3 then
    (List.range (8 * r.count)).foldl (fun (c : Ctl) i =>
      { c with law := Tab.set romLawWord c.law (8 * r.addr + i) (w i) }) c
  else if r.typ = 4 then
    (List.range r.count).foldl (fun (c : Ctl) i =>
      { c with table := Tab.set tableReset c.table (r.addr + i) (w i) }) c
  else
    { c with romMap := (List.range r.count).foldl (fun m i =>
      ((w i).toNat % 2 ^ 14, (w i).toNat / 2 ^ 16 % 2 ^ 14) :: m) c.romMap }

/-- The header checks of R219 in its words: MAGIC, FORMAT, SCOPE, BODY_LEN, reserved bytes. -/
def patchHeaderOk (scope : Nat) (p : List Byte) : Bool :=
  let len := fieldAt p 0x14 4
  fieldAt p 0 4 == 0x48A70C35 && fieldAt p 4 2 == 1 && byteAt p 6 == scope && byteAt p 7 == 0 && fieldAt p 0x64 12 == 0
    && len % 16 == 0 && decide (16 ≤ len) && decide (len ≤ 1048576)

/-- The live anchors of a scope (R465, R466): the vendor patch anchors, or the customer slots with PATCH usage in ascending
order. -/
def State.patchAnchors (s : State) (scope : Nat) : List (BitVec 384) :=
  if scope = 1 then ([2, 3].filter (fun k => !(s.sec.vendorRevoked.getLsbD k))).map Config.vendorAnchor
  else ((List.range 8).filter (fun n => s.slotLive n 1)).map (fun n => (s.keySlot n).anchor)

/-- The plaintext of a patch's body under the content key that KEY_ID names (R219, R468): scope, slot, generation. -/
def State.patchBody (s : State) (scope : Nat) (p : List Byte) : Option (List Byte) :=
  let slot := byteAt p 0x49
  let g : BitVec 16 × BitVec 256 :=
    if slot = 0 then (0, Config.vendorContentKey) else Tab.get (fun _ => (0, 0)) s.sec.content slot
  if s.sec.zeroisedFuse ∨ byteAt p 0x48 ≠ scope ∨ 8 ≤ slot ∨ fieldAt p 0x4C 12 ≠ 0 ∨ (slot ≠ 0 ∧ fieldAt p 0x4A 2 ≠ g.1.toNat) then none
  else Config.patchPlain g.2 p

/-- The cause for which a patch is refused, or its records (R219). `prev` is SEQ and digest of the patch of its scope before
it. -/
def State.judgePatch (s : State) (scope : Nat) (prev : Option (Nat × BitVec 384)) (p : List Byte) : Nat × List PatchRec :=
  let chain := match prev with
    | none => fieldAt p 0x18 48 == 0
    | some (q, d) => decide (q < fieldAt p 0x10 4) && (p.drop 0x18).take 48 == digestBytes d
  if !(patchHeaderOk scope p) then (8, [])
  else if !((s.patchAnchors scope).any (fun a => Config.patchSigned a p)) then (1, [])
  else if fieldAt p 8 4 ≠ Config.romId.toNat then (3, [])
  else if fieldAt p 0xC 4 < s.sec.floors.getD scope 0 then (4, [])
  else if !chain then (5, [])
  else match s.patchBody scope p with
    | none => (2, [])
    | some bs =>
      match parsePatch (bs.length / 8 + 1) bs with
      | none => (8, [])
      | some rs =>
        let maps := (rs.filter (fun r => r.typ == 5)).foldl (fun a r => a + r.count) s.ctl.romMap.length
        if !(rs.all PatchRec.formatOk) then (8, [])
        else if !(rs.all PatchRec.boundsOk) || decide (64 < maps) then (7, [])
        else if !(rs.all (fun r => r.scopeOk scope)) then (6, [])
        else (0, rs)

/-- The patches of a scope loaded in turn, up to the first that is refused (R217, R219). -/
def State.loadPatches (s : State) (scope : Nat) (prev : Option (Nat × BitVec 384)) : List (List Byte) → State
  | [] => s
  | p :: ps =>
    let seq := fieldAt p 0x10 4
    let j := s.judgePatch scope prev p
    if j.1 ≠ 0 then
      (s.setReg aLPE_CS_STAT (putF (putF (putF (s.reg aLPE_CS_STAT) fLPE_CS_STAT_REJ_SCOPE (scope - 1))
        fLPE_CS_STAT_REJ_SEQ (seq % 256)) fLPE_CS_STAT_REJ_CAUSE j.1)).raise 52 islManagement
    else
      let f : Fld := if scope = 1 then fLPE_CS_STAT_VEND else fLPE_CS_STAT_CUST
      let s1 := { s with
        ctl := j.2.foldl Ctl.putRec s.ctl
        sec := { s.sec with
          patchVersions := s.sec.patchVersions.set (scope - 1) (BitVec.ofNat 32 (fieldAt p 0xC 4)) } }
      (s1.setFld aLPE_CS_STAT f (min 15 (s.fld aLPE_CS_STAT f + 1))).loadPatches scope
        (some (seq, Config.sha384 p)) ps

/-- Patches in ascending SEQ. -/
def insertPatch (p : List Byte) : List (List Byte) → List (List Byte)
  | [] => [p]
  | q :: qs => if fieldAt p 0x10 4 < fieldAt q 0x10 4 then p :: q :: qs else q :: insertPatch p qs

/-- The patch load of a start (R217): the RAM parts at their fill, the vendor patches of the slot in use, the customer
patches, and the lock. -/
def State.loadControlStore (s : State) : State :=
  let sorted (ps : List (List Byte)) : List (List Byte) := ps.foldl (fun a p => insertPatch p a) []
  let s1 := { s with ctl := {}, sec := { s.sec with patchVersions := [0, 0] } }
  let s2 := s1.loadPatches 1 none (sorted (s.fwSlot (s.fld aSEC_STAT fSEC_STAT_SLOT)).patches)
  (s2.loadPatches 2 none (sorted s.mgt.custPatches)).latch aLPE_CS_STAT fLPE_CS_STAT_LOCKED

end Sys2Proof.Machine
end

