-- ==== Sys2Proof/Machine/Reset.lean ====
section
/-! DEFINITION. Resets and power (chapters 20 to 22): the engine-die reset and its release, the power-on sequence to the
release of the die, the input and its hold-up store, the thermal trip, sensor samples, activation. -/
namespace Sys2Proof.Machine

/-! ## The engine-die reset (R40, R506) -/

/-- The causes of GLB_RSTCAUSE (R506). -/
abbrev rcPower : Nat := 1
abbrev rcPin : Nat := 2
abbrev rcReaction : Nat := 3
abbrev rcThermal : Nat := 4
abbrev rcCommand : Nat := 5
abbrev rcActivate : Nat := 6

/-- The registers that a reset of the engine die leaves: those of MGT and SEC (R40). -/
def dieKeeps (a : Nat) : Bool := a / 0x100000 == 16 || a / 0x100000 == 18

/-- The causes that stand outside the engine die: the oven, the management subsystem and the security island. -/
def dieKeepsCause (c : Nat × Nat) : Bool := c.1 == 11 || decide (112 ≤ c.1)

/-- OVEN_READY shows whether the oven is in regulation (R82). -/
def State.showOven (s : State) : State := s.setBit aTBS_STATE fTBS_STATE_OVEN_READY s.power.oven

/-- A request is that of a seal. -/
def SigReq.isSeal : SigReq → Bool
  | .seal _ => true
  | _ => false

/-- The engine die in reset: everything at its reset value but for MGT and SEC, HBM's contents, the spill store and what
flash holds (R40, R506). What waits in the queue of commands, and what has been sent, stay. -/
def State.dieBare (s : State) : State :=
  { regs := s.regs.filter (fun p => dieKeeps p.1)
    pending := s.pending, free := s.free, out := s.out, agenda := s.agenda.filter Due.activates, hbmMem := s.hbmFlush.hbmMem, spill := s.spill
    causes := s.causes.filter dieKeepsCause
    acq := { streams := keptStreams s.acq.streams, seals := s.acq.seals, spillNext := s.acq.spillNext }
    calRec := { field := s.calRec.field }
    str := { startSlot := s.str.startSlot }
    sec := { s.sec with
      exch := [], provisional := [false, false], requests := s.sec.requests.filter (fun r => r.2.isSeal) }
    mgt := { s.mgt with sampleAt := none }
    power := { s.power with errnHeld := true } }

/-- The engine die in reset, with what it shows of the world outside. -/
def State.dieCleared (s : State) : State := s.dieBare.showOven

/-- An engine-die reset by a source (R506, R507): sessions end, OWN falls, and GLB_RSTCAUSE records the source that began
the reset. -/
def State.engineDieReset (s : State) (cause : Nat) : State :=
  let c := if s.power.holding.isEmpty then cause else s.fld aGLB_RSTCAUSE fGLB_RSTCAUSE_CAUSE
  let lim := s.fld aGLB_RSTCAUSE fGLB_RSTCAUSE_LIMITED
  let step := min 3 (s.fld aGLB_RSTCAUSE fGLB_RSTCAUSE_STEP)
  let s1 := ((s.endSession 0 0x13).endSession 1 0x13).dieCleared
  let s2 := s1.setReg aGLB_RSTCAUSE (putF (putF (fldWord fGLB_RSTCAUSE_CAUSE c) fGLB_RSTCAUSE_STEP step)
    fGLB_RSTCAUSE_LIMITED lim)
  { s2 with power := { s2.power with
    holding := if cause ∈ s.power.holding then s.power.holding else s.power.holding ++ [cause] } }

/-! ## Release (R504, R505) -/

/-- The die released with only GLB, BUS, FLT, LNK, MGT and SEC enabled (R469). -/
def State.releaseLimited (s : State) : State := (s.blockOn 13).blockOn 3

/-- Step 4 of R503: LNK, BUS, HBM, TWN and CAL enabled in this order, the mailbox ready, and HBM training begun (R348). FS 1
follows a reset by a reaction (R455). -/
def State.releaseDie (s : State) : State :=
  let s1 := ((((s.blockOn 13).blockOn 3).blockOn 12).blockOn 14).blockOn 15
  let s2 := (s1.setFld aGLB_RSTCAUSE fGLB_RSTCAUSE_STEP 4).latch aMGT_STAT fMGT_STAT_READY
  let s3 := s2.trainAt 0
  if s3.bit aFLT_RSTSRC fFLT_RSTSRC_VALID then s3.raise 1 islManagement else s3

/-- The die is released once no source holds it (R507); an oven that is out of regulation then raises FS 11 (R68). -/
def State.tryRelease (s : State) (left : List Nat) : State :=
  let s0 := { s with power := { s.power with holding := left } }
  let s1 := if s.power.oven then s0 else (s0.causeOn 11 0).raise 11 islManagement
  if s.power.holding.isEmpty || !left.isEmpty then s0
  else if s.bit aGLB_RSTCAUSE fGLB_RSTCAUSE_LIMITED then s1.releaseLimited
  else s1.releaseDie

/-- RESET_RELEASE (R505, R507): every source that holds the die has ended, but for RST_N where it is still low, the thermal
trip, which ends with THERMAL_RELEASE, and a source of a power-on, which ends with POWER_ON. -/
def execResetRelease (rstNHigh : Bool) (s : State) : Result :=
  .next (s.tryRelease (s.power.holding.filter (fun c =>
    c == rcPower || c == rcActivate || c == rcThermal || (c == rcPin && !rstNHigh))))

/-- Every junction point has stood at or below 110 °C for 10 s (R490), by the samples of each millisecond. -/
def State.cooled (s : State) : Bool := decide (10000 ≤ s.mgt.coolFor)

/-- THERMAL_RELEASE (R490): the thermal trip holds the die no longer. -/
def execThermalRelease (s : State) : Result :=
  .next (if rcThermal ∈ s.power.holding ∧ s.cooled then s.tryRelease (s.power.holding.filter (· != rcThermal)) else s)

/-- RST_N_LOW (R506). -/
def execRstNLow (s : State) : Result := .next (s.engineDieReset rcPin)

/-- RSTCMD_DIE (R506). -/
def execRstcmdDie (s : State) : Result := .next (s.engineDieReset rcCommand)

/-! ## Power-on (R469, R503, R506) -/

/-- The fields that stand in flash or fuses, with which their registers come up after a power-on: the ring indices of the
event log, the boot control record, HSS epoch fuses, key slots. -/
def powerKeeps (a : Nat) : Bool :=
  (decide (aMGT_LOGNEXT ≤ a) && decide (a < aMGT_LOGOLD + 8)) || a == aSEC_SLOTS

/-- Every register of every block, MGT and SEC included, at its reset value; OTP, flash, the log and spilled blocks are
kept (R506). HBM's contents are lost with the power alone (R353). The die is held by the source. -/
def State.powerCleared (s : State) (cause : Nat) : State :=
  let s1 := (s.endSession 0 0x13).endSession 1 0x13
  let fw := s1.reg aMGT_FW &&& 0xF#32
  let e := s1.reg aSEC_HSSE
  let s2 := s1.dieCleared
  let s3 := { s2 with
    regs := s2.regs.filter (fun p => powerKeeps p.1)
    hbmMem := if cause = rcPower then [] else s2.hbmMem
    causes := if cause = rcPower then [(11, 0)] else s2.causes.filter (fun c => c.1 == 11)
    sec := { s2.sec with failRun := [0, 0], refusedAt := [0, 0], patchVersions := [0, 0] }
    agenda := []
    mgt := {
      log := s2.mgt.log, boots := s2.mgt.boots, archive := s2.mgt.archive, fwA := s2.mgt.fwA, fwB := s2.mgt.fwB
      custPatches := s2.mgt.custPatches, previous := s2.mgt.previous, means := s2.mgt.means, minutes := s2.mgt.minutes }
    power := { holding := [cause], safeN := s2.power.safeN, oven := cause != rcPower && s2.power.oven } }
  let s4 := (s3.setReg aMGT_FW fw).setReg aSEC_HSSE e
  (s4.showOven.setFwSlot 0 s4.mgt.fwA).setFwSlot 1 s4.mgt.fwB |>.setReg aGLB_RSTCAUSE (fldWord fGLB_RSTCAUSE_CAUSE cause)

/-- The limited state of R469, with its cause and the state of the security island; the die is released at once. -/
def State.limited (s : State) (limit state step : Nat) : State :=
  let s1 := (s.setFld aSEC_STAT fSEC_STAT_LIMIT limit).setFld aSEC_STAT fSEC_STAT_STATE state
  let s2 := (s1.setFld aGLB_RSTCAUSE fGLB_RSTCAUSE_STEP step).latch aGLB_RSTCAUSE fGLB_RSTCAUSE_LIMITED
  s2.tryRelease []

/-- The slot that the boot ROM uses (R469): the one marked active, or else the other, each with its verdict. -/
def State.bootSlot (s : State) (good : Nat → Bool) : Option Nat :=
  let ok (b : Nat) : Bool := (s.fwSlot b).valid && good b && decide (s.sec.floors.getD 0 0 ≤ (s.fwSlot b).version.toNat)
  let a := s.activeSlot
  if ok a then some a else if ok (1 - a) then some (1 - a) else none

/-- The trial of R498: with TRIES at 1 the previous slot is marked active, with ROLLBACK and FS 113; otherwise TRIES counts. -/
def State.bootTrial (s : State) : State :=
  if s.bit aMGT_FW fMGT_FW_TRIAL then
    let tries := s.fld aMGT_FW fMGT_FW_TRIES
    if 1 ≤ tries then
      (((s.setFld aMGT_FW fMGT_FW_ACTIVE s.mgt.previous).setBit aMGT_FW fMGT_FW_TRIAL false).latch aMGT_LAT
        fMGT_LAT_ROLLBACK).raise 113 islManagement
    else s.setFld aMGT_FW fMGT_FW_TRIES (tries + 1)
  else s

/-- The HSS state recovered (R473, R474): signing resumes at RESERVED_TO of the record in force, or at the high-water mark where
neither record is valid, with the ready tree that holds the index, or once there is one. -/
def State.recoverHss (s : State) (good : Bool) : State :=
  let was := s.sec.q / 2 ^ 20
  let q := if good then s.sec.reservedTo else s.fld aSEC_HSSE fSEC_HSSE_E * 2 ^ 28
  let f : Fld := if good then fSEC_HSSE_NREADY else fSEC_HSSE_EREADY
  let s1 := { s with sec := { s.sec with q := q, reservedTo := q } }
  let s2 := if q / 2 ^ 20 = was then s1
    else if s1.bit aSEC_HSSE f then s1.setBit aSEC_HSSE f false
    else s1.latch aSEC_STAT fSEC_STAT_TREEWAIT
  s2.showHss

/-- Steps 1 to 4 of R503, from a cleared module (R469). `hss` is whether a reservation record is valid. -/
def State.bootRom (s : State) (selfTest floors hss slotA slotB : Bool) : State :=
  let s0 := { s with mgt := { s.mgt with boots := s.mgt.boots + 1 } }
  let s1 := (List.range 4).foldl (fun s f => s.setReg (aSEC_FLOOR f) (BitVec.ofNat 32 (s.sec.floors.getD f 0)))
    (s0.setBit aSEC_STAT fSEC_STAT_APPROVED s0.sec.approvedFuse).showSealq
  if s1.sec.zeroisedFuse then (s1.log 0x0A 0 (leBytes 1 1)).limited 4 seZeroised 1
  else if !selfTest then
    (((s1.log 0x0A 0 (leBytes 1 1)).limited 1 seError 1).latch aSEC_LAT fSEC_LAT_STFAIL |>.causeOn 112 0).raise 112
      islSecurity
  else if !floors then (((s1.recoverHss hss).log 0x0A 0 (leBytes 1 2)).limited 2 seReady 2).raise 112 islSecurity
  else
    let s2 := (s1.recoverHss hss).bootTrial
    match s2.bootSlot (fun b => if b = 0 then slotA else slotB) with
    | none => (s2.log 0x0A 0 (leBytes 1 4)).limited 3 seReady 2
    | some b =>
      let s3 := ((s2.setFld aSEC_STAT fSEC_STAT_STATE seReady).setFld aSEC_STAT fSEC_STAT_SLOT b).setReg aSEC_FWVER
        (s2.fwSlot b).version
      let s4 := ((s3.setFld aGLB_RSTCAUSE fGLB_RSTCAUSE_STEP 3).log 0x0A b (leBytes 1 5)).tryRelease []
      if b = s2.activeSlot then s4 else (s4.latch aSEC_LAT fSEC_LAT_BOOTFB).raise 113 islManagement

/-- POWER_ON (R503, R506): the cause is the activation's where one has restarted the module. -/
def execPowerOn (selfTestGood : Bool) (flash : SecureFlash) (slotAGood slotBGood : Bool) (s : State) : Result :=
  let cause := if rcActivate ∈ s.power.holding then rcActivate else rcPower
  .next ((s.powerCleared cause).bootRom selfTestGood flash.floors flash.hss slotAGood slotBGood)

/-! ## The input (R513) -/

/-- INPUT_OUT_OF_RANGE (R513): FS 124, and the module runs on its hold-up store. -/
def execInputOutOfRange (s : State) : Result :=
  .next (if s.power.onHoldup then s
    else ({ s with power := { s.power with onHoldup := true, outSince := s.mgt.uptime } }.causeOn 124 0).raise 124
      islManagement)

/-- INPUT_RETURN (R513): FS 124's cause ends and nothing else changes. -/
def execInputReturn (s : State) : Result :=
  .next ({ s with power := { s.power with onHoldup := false } }.causeOff 124 0)

/-- HOLDUP_EXHAUSTED (R513), 30 ms or more after the input left its range: a log entry, OWN dropped and the outputs in their reset
state; the next return of the input is a power-on. -/
def execHoldupExhausted (s : State) : Result :=
  .next (if s.power.onHoldup ∧ s.power.outSince + 30 ≤ s.mgt.uptime then
    let s1 := (s.log 0x01 124 (leBytes 1 0)).engineDieReset rcPower
    { s1 with power := { s1.power with holding := [rcPower] } }
  else s)

/-! ## Activation (R497) -/

/-- The conditions of R497. -/
def State.mayActivate (s : State) : Bool :=
  (s.fwSlot s.otherSlot).valid && s.fld aMGT_FW fMGT_FW_UPD != 1 && (s.twin == twDetached || s.twin == twHoldoff)

/-- The restart of ACTIVATE at its due time: the boot control record, and the power-on-equivalent restart. -/
def State.activateNow (s : State) : State :=
  let o := s.otherSlot
  let s1 := ((s.setFld aMGT_FW fMGT_FW_ACTIVE o).setFld aMGT_FW fMGT_FW_TRIES 0).latch aMGT_FW fMGT_FW_TRIAL
  ({ s1 with mgt := { s1.mgt with previous := 1 - o } }.log 0x05 0x07 (updatePayload o (s.fwSlot o).version (s.fwSlot o).digest)).powerCleared rcActivate

/-- ACTIVATE (R497, R486, R487): refused with STATE unless R497 allows it; else answered, and held until its due time. The
command comes again at that time. -/
def execActivate (p : Port) (req : Byte) (due : Count) (s : State) : Result :=
  if s.mgt.running = some 0x07 then
    .next (if Count.upto due s.count then s.activateNow else s.serve p 0x07 req true msBusy [] id)
  else if s.mgt.running.isSome then .next (s.serve p 0x07 req true msBusy [] id)
  else if !s.mayActivate then .next (s.serve p 0x07 req true msState [] id)
  else .next (s.serve p 0x07 req true msOk [] (fun s =>
    let s1 := { s with mgt := { s.mgt with running := some 0x07 } }
    if Count.upto due s.count then s1.activateNow
    else s1.hold (.island islManagement) due (.cmd (.activate p req due))))

/-! ## Sensor samples (R488 to R492, R499) -/

/-- The mean of a sum, rounded to nearest. -/
def meanWord (n : Nat) (v : Int) : Word := BitVec.ofInt 32 (divRound v n)

/-- Minimum, mean and maximum of the `i`-th values of rows. -/
def minuteOf (rows : List (BitVec 64 × List Word)) (i : Nat) : Word × Word × Word :=
  let vs := rows.map (fun r => (r.2.getD i 0).toInt)
  let v0 := vs.headD 0
  (BitVec.ofInt 32 (vs.foldl min v0), meanWord rows.length (vs.foldl (· + ·) 0), BitVec.ofInt 32 (vs.foldl max v0))

/-- The history older than 24 h (R492): 60 means become one row of 1 min values, of which 90 days are kept; at shedding level
1 and above they are overwritten (R499). -/
def State.ageHistory (s : State) : State :=
  let m := s.mgt
  if m.means.length < 86460 then s
  else
    let rows := m.means.take 60
    let row : BitVec 64 × List (Word × Word × Word) := ((rows.head?.getD (0, [])).1, (List.range 34).map (minuteOf rows))
    let mins := if 1 ≤ s.fld aMGT_STAT fMGT_STAT_SHED then m.minutes
      else (m.minutes ++ [row]).drop (m.minutes.length + 1 - 129600)
    { s with mgt := { m with means := m.means.drop 60, minutes := mins } }

/-- A sample added to the history: a mean every 1,000 samples, or every 10,000 at shedding level 3. -/
def State.addHistory (s : State) (values : List Word) : State :=
  let m := s.mgt
  let sums := (List.range 34).map (fun i => m.sums.getD i 0 + (values.getD i 0).toInt)
  let n := m.sumN + 1
  if (if s.fld aMGT_STAT fMGT_STAT_SHED = 3 then 10000 else 1000) ≤ n then
    { s with mgt := { m with
      sums := [], sumN := 0, means := m.means ++ [(s.count.setWidth 64, sums.map (meanWord n))] } }.ageHistory
  else { s with mgt := { m with sums := sums, sumN := n } }

/-- The summary entries of a second at shedding level 2 (R499): one for each source whose raises were shed. -/
def State.flushShed (s : State) : State :=
  let m := s.mgt
  if m.shedN + 1 < 1000 then { s with mgt := { m with shedN := m.shedN + 1 } }
  else m.shed.foldl (fun s n => s.logEntry true 0x01 n (leBytes 1 0xFF)) { s with mgt := { m with shedN := 0, shed := [] } }

/-- The stack temperature of a sample (R346, R351): TEMP in 1 °C, HOT above 85 °C, FS 21 above 95 °C. -/
def State.stackTemp (s : State) (v : Int) : State :=
  let s1 := (s.setFld aHBM_STAT fHBM_STAT_TEMP ((v / 8) % 256).toNat).setBit aHBM_STAT fHBM_STAT_HOT (decide (680 < v))
  s1.condition 21 islMemory (decide (760 < v)) (decide (v ≤ 760))

/-- The thermal trip (R490): an engine-die reset, THERM, and a log entry with the point and its temperature. -/
def State.thermalTrip (s : State) (point : Nat) (v : Int) : State :=
  (((s.engineDieReset rcThermal).latch aMGT_LAT fMGT_LAT_THERM).log 0x0C point (leInt 4 v))

/-- The hottest junction point of a sample. -/
def hottest (values : List Word) : Nat × Int :=
  (List.range 16).foldl (fun (b : Nat × Int) n =>
    if b.2 < (values.getD n 0).toInt then (n, (values.getD n 0).toInt) else b) (0, (values.getD 0 0).toInt)

/-- A millisecond has passed since the latest sample (R488). -/
def State.sampleDue (s : State) : Bool := s.mgt.sampleAt.all (fun t => Count.upto (t + 192000000) s.count)

/-- SENSOR_SAMPLE (R488, R490 to R492), once per millisecond: the samples with their extremes, warnings, faults and history; above
140 °C the thermal trip. -/
def execSensorSample (values : Vector Word 34) (powers : Vector Word 12) (s : State) : Result :=
  if !s.sampleDue then .next s
  else
  let vs := values.toList
  let s1 := (s.storeSamples values powers).judgeSensors
  let s2 := (List.range 34).foldl State.warn s1
  let s3 := (s2.stackTemp (vs.getD 28 0).toInt).addHistory vs
  let h := hottest vs
  let s4 := { s3.flushShed with mgt := { s3.flushShed.mgt with
    uptime := s3.mgt.uptime + 1, sampleAt := some s.count, coolFor := if h.2 ≤ 880 then s3.mgt.coolFor + 1 else 0 } }
  .next (if 1120 < h.2 ∧ !(s.power.holding.contains rcThermal) then s4.thermalTrip h.1 h.2 else s4)

end Sys2Proof.Machine
end

