-- ==== Sys2Proof/Machine/Faults.lean ====
section
/-! DEFINITION. Fault collection (chapter 18): raises and reactions, merging, acknowledgement, ERR_N. -/
namespace Sys2Proof.Machine

/-- The state with a sticky bit at a value; a reserved source's stays 0. -/
def State.setSticky (s : State) (n : Nat) (b : Bool) : State :=
  if reservedSource n then s else s.setFld (aFLT_STICKY (n / 32)) ⟨n % 32, n % 32⟩ b.toNat

/-- The rank of the gravest pending reaction, 0 for none (R453). -/
def State.pendingRank (s : State) : Nat :=
  if s.bit aFLT_PEND fFLT_PEND_BVALID then 3
  else if s.bit aFLT_PEND fFLT_PEND_TVALID then 2
  else if s.bit aFLT_PEND fFLT_PEND_IVALID then 1
  else 0

/-- The source that is issued among those raised in one cycle (R453): of highest rank, then of lowest number, if its rank
exceeds every pending reaction's. -/
def State.pickRaise (s : State) (srcs : List Nat) : Option Nat :=
  srcs.foldl (fun best n =>
    if s.pendingRank < s.reaction n ∧ s.reaction n ≤ 4 then
      match best with
      | none => some n
      | some b => if s.reaction b < s.reaction n ∨ (s.reaction n = s.reaction b ∧ n < b) then some n else best
    else best) none

/-- The sources of a list of raises, each once. -/
def raisedSources (rs : List (Fin 128 × Fin 80)) : List Nat :=
  ((rs.map (fun r => r.1.val)).eraseDups).filter (fun n => !(reservedSource n))

/-- The pin islands that raised a source in the raise cycle (R452). -/
def raisingIslands (rs : List (Fin 128 × Fin 80)) (n : Nat) : List Isl :=
  ((rs.filter (fun r => r.1.val == n && decide (r.2.val < 64))).map (fun r => Fin.ofNat 64 r.2.val)).eraseDups

/-- A reaction issued (R452, R455). -/
def State.react (s : State) (n : Nat) (islands : List Isl) : State :=
  let s1 := s.log 0x01 n (leBytes 1 (s.reaction n))
  if s.reaction n = 1 then
    (s1.setReg aFLT_PEND (putF (putF (s1.reg aFLT_PEND) fFLT_PEND_IVALID 1) fFLT_PEND_ISRC n)).evt 1 (BitVec.ofNat 16 n)
  else if s.reaction n = 2 then
    s1.setReg aFLT_PEND (putF (putF (s1.reg aFLT_PEND) fFLT_PEND_TVALID 1) fFLT_PEND_TSRC n)
  else if s.reaction n = 3 then
    (s1.setReg aFLT_PEND (putF (putF (s1.reg aFLT_PEND) fFLT_PEND_BVALID 1) fFLT_PEND_BSRC n)).hold
      (.island islManagement) (s.count + cyc 64) (.cmd (.reactionBlockReset (Fin.ofNat 128 n) islands))
  else if s.reaction n = 4 then
    let stick := (List.range 4).flatMap (fun w => leBytes 4 (s.reg (aFLT_STICKY w)).toNat)
    ((s1.log 0x02 n stick).engineDieReset 3).setReg aFLT_RSTSRC
      (putF (fldWord fFLT_RSTSRC_VALID 1) fFLT_RSTSRC_SRC n)
  else s1

/-- Raises at the twin (R387, R388, R454): kept for BLAME while the module is paired, and a col for a source of the col mask
that the active raises. -/
def State.twinRaises (s : State) (srcs : List Nat) : State :=
  let s1 := if s.pairing then
      { s with twn := { s.twn with raises := s.twn.raises ++ srcs.map (fun n => (n, s.count)) } }
    else s
  let masked := srcs.any (fun n => (s.reg (aTWN_COLMASK (n / 32))).getLsbD (n % 32))
  if masked && s.twin == twActive && !s.colHeld then s1.requestCol 3 (s.count + cyc 192) else s1

/-- The log entry of a raise that issues no reaction; from shedding level 2 on its source waits for the summary of the
second (R499). -/
def State.logQuiet (s : State) (n : Nat) : State :=
  if 2 ≤ s.fld aMGT_STAT fMGT_STAT_SHED then
    { s with mgt := { s.mgt with shed := if s.mgt.shed.contains n then s.mgt.shed else s.mgt.shed ++ [n] } }
  else s.log 0x01 n (leBytes 1 0xFF)

/-- FAULT_RAISE (R451 to R455): every raise of a raise cycle sets its sticky bit; at most one reaction is issued, the
others of reaction 1 to 4 are merged and counted. -/
def execFaultRaise (raises : List (Fin 128 × Fin 80)) (s : State) : Result :=
  let srcs := raisedSources raises
  let s1 := srcs.foldl (fun s n => s.setSticky n true) s
  let pick := s.pickRaise srcs
  let active := srcs.filter (fun n => decide (1 ≤ s.reaction n) && decide (s.reaction n ≤ 4))
  let merged := active.filter (fun n => pick != some n)
  let quiet := srcs.filter (fun n => s.reaction n == 0)
  let s2 := ({ s1 with raised := s1.raised ++ raises, merged := s1.merged ++ merged }.bumpBy aFLT_MERGED merged.length).twinRaises
    srcs
  let s3 := (quiet ++ merged).foldl State.logQuiet s2
  .next (match pick with
    | some n => s3.react n (raisingIslands raises n)
    | none => s3)

/-- REACTION_BLOCK_RESET (R452): the target of the source, 64 cycles after the raise cycle. -/
def execReactionBlockReset (src : Fin 128) (islands : List Isl) (s : State) : Result :=
  .next ((resetTargets src.val islands).foldl (fun s b => s.blockReset b) s)

/-- The pending reactions of a source end. -/
def State.endPending (s : State) (n : Nat) : State :=
  let w := s.reg aFLT_PEND
  let w1 := if getF w fFLT_PEND_IVALID = 1 ∧ getF w fFLT_PEND_ISRC = n then
    putF (putF w fFLT_PEND_IVALID 0) fFLT_PEND_ISRC 0 else w
  let w2 := if getF w1 fFLT_PEND_TVALID = 1 ∧ getF w1 fFLT_PEND_TSRC = n then
    putF (putF w1 fFLT_PEND_TVALID 0) fFLT_PEND_TSRC 0 else w1
  let w3 := if getF w2 fFLT_PEND_BVALID = 1 ∧ getF w2 fFLT_PEND_BSRC = n then
    putF (putF w2 fFLT_PEND_BVALID 0) fFLT_PEND_BSRC 0 else w2
  s.setReg aFLT_PEND w3

/-- A merged raise of the present raise cycle is judged anew, against nothing: it was not merged (R456). -/
def State.reissue (s : State) (n : Nat) : State :=
  let s1 := { s with merged := s.merged.filter (· != n) }.setReg aFLT_MERGED (s.reg aFLT_MERGED - 1)
  s1.react n (raisingIslands s.raised n)

/-- A source acknowledged (R456): refused while its cause persists; else the sticky bit clears and its pending reaction ends.
A raise of the source in the same raise cycle comes after it: the bit stays set, and a raise that was merged issues its
reaction. -/
def State.acknowledge (s : State) (n : Nat) : State :=
  if s.causeStands n then (s.latch aFLT_LAT fFLT_LAT_ACKREF).setReg aFLT_ACKREF (fldWord fFLT_ACKREF_SRC n)
  else if s.raised.any (fun r => r.1.val == n) && !(reservedSource n) then
    (if s.merged.contains n then (s.endPending n).reissue n else s)
  else (s.setSticky n false).endPending n

/-- FLT_ACK (R456). -/
def execFltAck (src : Fin 128) (s : State) : Result := .next (s.acknowledge src.val)

/-- FLT_STICKY_WRITE (R456): each bit written 1 acknowledges its source. -/
def execFltStickyWrite (w : Fin 4) (data : Word) (s : State) : Result :=
  .next ((List.range 32).foldl (fun s i => if data.getLsbD i then s.acknowledge (32 * w.val + i) else s) s)

/-- FORCE (R450, R459): FLT_TEST.FORCE raises FS 0. -/
def execForce (s : State) : Result := .next (s.raise 0 islManagement)

end Sys2Proof.Machine
end

