-- ==== Sys2Proof/Machine/RegWrites.lean ====
section
/-! DEFINITION. Register writes as they are applied at their due times (R41, R49): registers whose fields are commands act as
the rows of those commands do; every other register follows its class, with what its chapter says of the change. -/
namespace Sys2Proof.Machine

/-! ## Registers whose fields are commands -/

/-- The state after a meaning, which answers a next state always. -/
def State.run (s : State) (f : State → Result) : State := nextOr s (f s)

/-- A command bit that is 1 acts. -/
def State.act (s : State) (on : Bool) (f : State → Result) : State := if on then s.run f else s

/-- Command registers of the central blocks GLB to LPE (R82, R188, R222, R459, R511). -/
def State.writeCentral (s : State) (by_ : Issuer) (a : Nat) (w : Word) : Option State :=
  if a = aGLB_RSTCMD then
    let s1 := s.setReg a (w &&& 0xFF#32)
    some (if w.getLsbD 31 then s1.run execRstcmdDie
      else if w.getLsbD 30 then
        (if resettable (w.toNat % 256) then s1 else s).run (execRstcmdBlock by_ (w.setWidth 8))
      else s1)
  else if a = aTBS_CMD then some ((s.act (w.getLsbD 0) (execTbsStep by_)).act (w.getLsbD 1) execTbsAnchor)
  else if a = aFLT_ACK then some (s.run (execFltAck (Fin.ofNat 128 (w.toNat % 128))))
  else if a = aFLT_TEST then some (s.act (w.getLsbD 0) execForce)
  else if aFLT_STICKY 0 ≤ a ∧ a ≤ aFLT_STICKY 3 then
    some (s.run (execFltStickyWrite (Fin.ofNat 4 ((a - aFLT_STICKY 0) / 4)) w))
  else if a = aLPE_FLIP then
    some (if w.getLsbD 8 && s.flipClaimed (w.setWidth 8) then s.run (execLpeFlip by_ (w.setWidth 8))
      else (s.setReg a (w &&& 0xFF#32)).act (w.getLsbD 8) (execLpeFlip by_ (w.setWidth 8)))
  else if a / 0x100000 = 6 ∧ 0x100 ≤ a % 0x100000 ∧ a % 0x100000 < 0x300 then
    let e : Eng := Fin.ofNat 8 ((a % 0x100000 - 0x100) / 0x40)
    if a = aENG_BGREQ e.val then
      let s1 := s.act (w.getLsbD 30) (execBgAbort e)
      some (if w.getLsbD 31 && !(s1.bgTakes e.val (w.toNat % 256)) then s.rejectVal by_ a
        else (s1.setReg a (w &&& 0x1FFF#32)).act (w.getLsbD 31)
          (execBgRequest by_ e (w.setWidth 8) ((w >>> 8).setWidth 5)))
    else if a = aENG_RESTART e.val then some (s.act (w.getLsbD 0) (execEngRestart e))
    else none
  else none

/-- A store or player command (R248): OP in [31:28], other codes refused. -/
def State.writeSeg (s : State) (by_ : Issuer) (a : Nat) (w : Word) : Option State :=
  let op := w.toNat / 2 ^ 28
  if a = aSEG_CMD then
    let q : BitVec 12 := w.setWidth 12
    let s1 := if s.bit aSEG_CSTAT fSEG_CSTAT_BUSY then s else s.setReg a (w &&& 0xFFF#32)
    some (if op = 1 then s1.run (execSeal q) else if op = 2 then s1.run (execUnseal q)
      else if op = 3 then s1.run execDdsrst else s.rejectVal by_ a)
  else if a / 0x100000 = 7 ∧ 0x1000 ≤ a % 0x100000 ∧ a % 0x40 = 0 then
    let ch := chanFin ((a % 0x100000 - 0x1000) / 0x40)
    let s1 := s.setReg a (w &&& 0x01FFFFFF#32)
    let e : BitVec 12 := w.setWidth 12
    some (if op = 1 then s1.run (execPlStart ch ((w >>> 12).setWidth 12) e)
      else if op = 2 then s1.run (execPlJump ch (w.getLsbD 24) e)
      else if op = 3 then s1.run (execPlStop ch) else s.rejectVal by_ a)
  else none

/-- The loader's command (R447): while a check runs, every command but ABORT is refused with cause 9. The outcome of a
STORE's write to flash is not the writer's to say: it is free. -/
def State.writeLoader (s : State) (by_ : Issuer) (a : Nat) (w : Word) : State :=
  let op := w.toNat / 2 ^ 28
  let s1 := if s.bit aSTR_STAT fSTR_STAT_BUSY && op != 3 then s else s.setReg a (w &&& 0x000F0003#32)
  if op = 1 then s1.run (execStrLoad (w.setWidth 2) ((w >>> 16).setWidth 4))
  else if op = 2 then s1.run execStrApply
  else if op = 3 then s1.run execStrAbort
  else if op = 4 then s1.run execUnload
  else if op = 5 then
    let d := s1.draw
    d.2.run (execStore (d.1 % 2 == 1))
  else s.rejectVal by_ a

/-- Command registers of HBM, LNK, TWN, CAL, STR and ACQ (R331, R352, R370, R396, R431, R447). TRG_CTL.ARM acts at
acceptance (R313). -/
def State.writeOuter (s : State) (by_ : Issuer) (a : Nat) (w : Word) : Option State :=
  if a = aHBM_RATE then some (s.run (execHbmRateReq by_ (w.setWidth 2)))
  else if a = aHBM_CMD then some (s.act (w.getLsbD 0) (execRetrain by_))
  else if a = aTWN_CMD then
    some (((s.act (w.getLsbD 2) execTwnJoin).act (w.getLsbD 1) execTwnLeave).act (w.getLsbD 0) (execTwnCol by_))
  else if a = aCAL_CMD then
    let q : Fin 4 := Fin.ofNat 4 (w.toNat % 4)
    some (if w.getLsbD 31 then s.run (execCalCommit by_ q) else s.setReg a (w &&& 3#32))
  else if a = aSTR_CMD then some (s.writeLoader by_ a w)
  else
    match (List.range 2).find? (fun p => a == aLP_CTL p) with
    | some p => some ((s.run (execLpEnWrite (Fin.ofNat 2 p) w)).act (w.getLsbD 2) (execLpRetrain (Fin.ofNat 2 p)))
    | none =>
      match (List.range 4).find? (fun q => a == aCALQ_CMD q) with
      | some q =>
        let f : Fin 4 := Fin.ofNat 4 q
        let s1 := (s.setReg a (w &&& 0x03303F03#32)).act (w.getLsbD 30) (execCalqAbort f)
        some (s1.act (w.getLsbD 31) (execCalqStart by_ f w))
      | none =>
        match (List.range 8).find? (fun t => a == aTRG_CTL t) with
        | some t =>
          let f : Fin 8 := Fin.ofNat 8 t
          let s1 := (s.setFld a fTRG_CTL_AUTO (getF w fTRG_CTL_AUTO)).act (w.getLsbD 30) (execTrgDisarm by_ f)
          some (s1.act (w.getLsbD 29) (execTrgFire by_ f))
        | none => none

/-- Command registers of a pin island (R109, R141, R159). -/
def State.writeIsland (s : State) (by_ : Issuer) (n o a : Nat) (w : Word) : Option State :=
  let isl : Isl := Fin.ofNat 64 n
  if a = aPAT_CMD n then some (s.act (w.getLsbD 0) (execPatStart isl))
  else if a = aDLL_CMD n then some (s.act (w.getLsbD 0) (execDllRelock by_ isl))
  else if 0x100 ≤ o ∧ o < 0x200 then
    let ch := chanFin (chanOf n ((o - 0x100) / 0x40))
    if o % 0x40 = 0 then some (s.run (execDrvEnWrite by_ ch (w.getLsbD 0)))
    else if o % 0x40 = 8 then some (s.run (execChPeriodWrite by_ ch (w.setWidth 28)))
    else none
  else if 0x400 ≤ o ∧ o < 0x740 ∧ o % 0x20 = 0x10 then
    some (s.run (execStpCfgWrite by_ isl (Fin.ofNat 26 ((o - 0x400) / 0x20)) w))
  else if 0xC00 ≤ o ∧ o < 0xE40 ∧ o % 0x40 = 0x14 then
    let u : UnitNo := Fin.ofNat 9 ((o - 0xC00) / 0x40)
    let s1 := s.run (execMuEnWrite by_ isl u (w.getLsbD 0))
    some (s1.act (w.getLsbD 8 && (!(w.getLsbD 0) || s1.bit (aMU_CTL n u.val) fMU_CTL_EN)) (execMuApply isl u))
  else if 0xFC0 ≤ o ∧ o < 0xFE0 then
    let k : Fin 2 := Fin.ofNat 2 ((o - 0xFC0) / 0x10)
    if o % 0x10 = 0 then some (s.run (execTacCfgWrite by_ isl k (w.getLsbD 8) (w.setWidth 5)))
    else if o % 0x10 = 4 then some (s.act (w.getLsbD 0) (execTacCal by_ isl k))
    else none
  else if 0x3000 ≤ o ∧ o < 0x3340 then
    let m : PinNo := Fin.ofNat 26 ((o - 0x3000) / 0x20)
    if o % 0x20 = 0 then some (s.run (execMonEnWrite by_ isl m (w.getLsbD 0)))
    else if o % 0x20 = 0x10 then some (s.run (execMonThrWrite by_ isl m w))
    else none
  else none

/-! ## Registers of the class rules with more to say -/

/-- A write of MON_LAT (R37, R152): each bit written 1 clears its latch unless its cause is a trip; the inhibit network then
settles. -/
def State.writeMonLat (s : State) (n : Nat) (w : Word) : State :=
  let a := aMON_LAT n
  let clear := s.reg a &&& w &&& ~~~ (s.latCause a ||| s.freshAt a)
  (List.range 26).foldl (fun s m =>
    if clear.getLsbD m then (s.monChange n m false ((s.reg (aMON_UNS n)).getLsbD m) s.count).settleMon n m else s) s

/-- A write of ACH_SEL (R307): a change of profile closes the interval in progress. -/
def State.writeSelect (s : State) (by_ : Issuer) (ch a : Nat) (w mask : Word) : State :=
  let new := (s.reg a &&& ~~~ mask) ||| (w &&& mask)
  (if getF new fACH_SEL_PROF = s.fld a fACH_SEL_PROF then s else s.leaveProfile ch).classWrite
    by_ a w mask

/-- A write of a capture slot: a slot that changes starts an empty record. -/
def State.writeCapture (s : State) (by_ : Issuer) (k a : Nat) (w mask : Word) : State :=
  let s1 := s.classWrite by_ a w mask
  if s1.reg a = s.reg a then s1
  else { s1 with acq := { s1.acq with caps := Tab.set (fun _ => ({} : Capture)) s1.acq.caps k {} } }

/-- A write of CH_PHASE (R91): once it is applied, the periods start on the grid of that phase. -/
def State.writePhase (s : State) (by_ : Issuer) (ch a : Nat) (w mask : Word) : State :=
  let s1 := s.classWrite by_ a w mask
  let new := (s.reg a &&& ~~~ mask) ||| (w &&& mask)
  if s.drvEn ch = false ∧ s.specialOk a [locOf ch] new .chphase = true then
    s1.setChan ch { s1.chan ch with anchor := none }
  else s1

/-- A write of PIN_LVL (R93): a LEVEL-source pin takes the level at the start of the due cycle. -/
def State.writeLevel (s : State) (by_ : Issuer) (n p a : Nat) (w mask : Word) : State :=
  let s1 := s.classWrite by_ a w mask
  if s1.fld (aPIN_CFG n p) fPIN_CFG_SRC = 2 then s1.setLevel n p s.count else s1

/-- A write of the bits of a mask under the class rules, with what the register's chapter adds. -/
def State.plainWrite (s : State) (by_ : Issuer) (a : Nat) (w mask : Word) : State :=
  let b := a / 0x100000
  let o := a % 0x100000
  if o = 4 then
    if mask.getLsbD 0 then s.run (execBlkCtlWrite by_ (BitVec.ofNat 7 b) (w.getLsbD 0)) else s
  else if 64 ≤ b ∧ o = 0x40 then s.writeMonLat (b - 64) (w &&& mask)
  else if 64 ≤ b ∧ 0x100 ≤ o ∧ o < 0x200 ∧ o % 0x40 = 0xC then
    s.writePhase by_ (chanOf (b - 64) ((o - 0x100) / 0x40)) a w mask
  else if 64 ≤ b ∧ 0x400 ≤ o ∧ o < 0x740 ∧ o % 0x20 = 4 then s.writeLevel by_ (b - 64) ((o - 0x400) / 0x20) a w mask
  else if b = 10 ∧ 0x1000 ≤ o ∧ o < 0x3000 ∧ o % 0x20 = 0 then s.writeSelect by_ ((o - 0x1000) / 0x20) a w mask
  else if b = 10 ∧ 0x400 ≤ o ∧ o < 0x480 then s.writeCapture by_ ((o - 0x400) / 4) a w mask
  else s.classWrite by_ a w mask

/-- A command register written, by the block it stands in. -/
def State.writeCommand (s : State) (by_ : Issuer) (a : Nat) (w : Word) : Option State :=
  let b := a / 0x100000
  if 64 ≤ b then s.writeIsland by_ (b - 64) (a % 0x100000) a w
  else if b = 7 then s.writeSeg by_ a w
  else if b ≤ 6 then s.writeCentral by_ a w
  else s.writeOuter by_ a w

/-- The bits of a mask hold a field that a write can change; STA and reserved bits ignore writes (R39). -/
def writable (a : Nat) (mask : Word) : Bool :=
  match rowAt a with
  | some (r, _, _) => r.flds.any (fun f => f.cls != .sta && (bitMask f.hi f.lo &&& mask) != 0)
  | none => true

/-- A loop register of a channel (R188): one without a LAW record refuses, a gang member other than the leader ignores. -/
def State.writeLoop (s : State) (by_ : Issuer) (c a : Nat) (w mask : Word) : State :=
  if s.follower c then s
  else if !(s.lch c).bound then s.rejectVal by_ a
  else if !(writable a mask) then s
  else if a = aLCH_CTL c then
    if mask.getLsbD 0 then s.run (execLchEnWrite by_ (chanFin c) (w.getLsbD 0)) else s
  else s.classWrite by_ a w mask

/-- The bits of a mask of a register written at its due time. A command register takes a single bit as a write of its word
with that bit; FLT_STICKY takes it alone. -/
def State.writeReg (s : State) (by_ : Issuer) (a : Nat) (w mask : Word) : State :=
  let o := a % 0x100000
  if a / 0x100000 = 6 ∧ 0x4000 ≤ o ∧ o < 0x8000 then s.writeLoop by_ ((o - 0x4000) / 0x40) a w mask
  else if !(writable a mask) then s
  else
    let whole := if aFLT_STICKY 0 ≤ a ∧ a ≤ aFLT_STICKY 3 then w &&& mask else (s.reg a &&& ~~~ mask) ||| (w &&& mask)
    match s.writeCommand by_ a whole with
    | some t => t
    | none => s.plainWrite by_ a w mask

/-! ## Meanings -/

/-- REG_WRITE (R41): the write applied at its due time; a push register takes its words at acceptance (R279). -/
def execRegWrite (by_ : Issuer) (addr : BitVec 28) (data : Word) (s : State) : Result :=
  let a := addr.toNat
  match regTarget a with
  | (_, some _) => .next s
  | (r, none) => if assigned r && (pushReg r).isNone then .next (s.writeReg by_ r data 0xFFFFFFFF#32) else .next s

/-- BIT_ALIAS_WRITE (R48, R49): bit 0 of the data to the aliased bit; a word of a multi-word quantity takes none. -/
def execBitAliasWrite (by_ : Issuer) (addr : BitVec 28) (data : Word) (s : State) : Result :=
  match regTarget addr.toNat with
  | (r, some b) =>
    if assigned r && !(multiWord r) then
      .next (s.writeReg by_ r (if data.getLsbD 0 then 1#32 <<< b else 0) (1#32 <<< b))
    else .next s
  | (_, none) => .next s

end Sys2Proof.Machine
end

