-- ==== Sys2Proof/Machine/Boot.lean ====
section
/-! DEFINITION. Boot firmware after the release of the die (R503 to R505): steps 5 to 11, each taken when what it waits for
has come. -/
namespace Sys2Proof.Machine

/-- The latest step completed. -/
def State.bootStep (s : State) : Nat := s.fld aGLB_RSTCAUSE fGLB_RSTCAUSE_STEP

/-- The state with GLB_RSTCAUSE.STEP set. -/
def State.setStep (s : State) (n : Nat) : State := s.setFld aGLB_RSTCAUSE fGLB_RSTCAUSE_STEP n

/-! ## The calibration record at start-up (R366) -/

/-- An entry of the factory record; none where the record gives none. -/
def factoryEntry (k : Nat) : Option CalEntry :=
  match Config.factoryEntry k with
  | [f0, c0, c1, c2, rsh] =>
    some ⟨⟨BitVec.ofNat 56 f0, BitVec.ofNat 48 c0, BitVec.ofNat 48 c1, BitVec.ofNat 48 c2⟩, BitVec.ofNat 32 rsh⟩
  | _ => none

/-- The entries of the factory record by island × 10 + unit (R367). -/
def factoryEntries : Tab (Option CalEntry) :=
  (List.range 640).filterMap (fun k => (factoryEntry k).map (fun e => (k, some e)))

/-- The entries of the record in force brought into every unit at once (R137, R366). Unit 8 takes its voltage entry, which a
sequence replaces by that of its path. -/
def State.unitsFromRecord (s : State) : State :=
  s.calRec.force.foldl (fun s (p : Nat × Option CalEntry) =>
    match p.2 with
    | some e =>
      if p.1 % 10 ≤ 8 then
        s.setMu (p.1 / 10) (p.1 % 10) { s.mu (p.1 / 10) (p.1 % 10) with base := e.coef, goal := none, blend := 0 }
      else s
    | none => s) s

/-- A newer record refused (R366): RECFAIL, FS 44, a log entry of type 07h. -/
def State.recordRefused (s : State) (r : FieldRec) : State :=
  ((s.latch aCAL_LAT fCAL_LAT_RECFAIL).raise 44 islManagement).log 0x07 (r.seq.toNat % 65536) ((digestBytes r.digest).take 32)

/-- The first record that verifies, from the newest back to the factory record, brought into force (R366). -/
def State.recordAtStart (s : State) : State :=
  let bad := s.calRec.field.takeWhile (fun r => !(Config.recordGood r.digest))
  let s1 := bad.foldl State.recordRefused s
  match s.calRec.field.drop bad.length with
  | r :: _ =>
    ({ s1 with calRec := { s1.calRec with force := r.entries, digest := r.digest, seq := r.seq } }.setReg aCAL_REC
      (putF (fldWord fCAL_REC_SRC 2) fCAL_REC_SEQ (r.seq.toNat % 65536))).unitsFromRecord
  | [] =>
    if Config.recordGood Config.factoryDigest then
      ({ s1 with calRec := { s1.calRec with force := factoryEntries, digest := Config.factoryDigest, seq := 0 } }.setReg
        aCAL_REC (fldWord fCAL_REC_SRC 1)).unitsFromRecord
    else (s1.causeOn 44 0).raise 44 islManagement

/-! ## The steps -/

/-- Steps 5 and 6: HBM is trained; patches are loaded and locked, and the load of the structure begins. -/
def State.bootPatches (s : State) : State :=
  if s.bit aHBM_STAT fHBM_STAT_TRAINED then ((s.setStep 5).loadControlStore.setStep 6).bootLoad else s

/-- Step 7: the structure is in force; the outputs leave their reset state (R509), and the islands are enabled. -/
def State.bootIslands (s : State) : State :=
  if s.strInForce then
    let s1 := { s.setStep 7 with power := { s.power with errnHeld := false } }
    (List.range 64).foldl (fun s n => s.blockOn (64 + n)) s1
  else s

/-- A TAC that waits for its first calibration starts it once its island's DLL is locked (R126). -/
def State.bootTac (s : State) (n k : Nat) : State :=
  if s.bit (aISL_STAT n) fISL_STAT_DLL_LOCK && s.reg (aTAC_STAT n k) == 0 then
    s.run (execTacCal (.island islManagement) (Fin.ofNat 64 n) (Fin.ofNat 2 k))
  else s

/-- Step 8: every DLL is locked and every TAC calibrated; the first reference check starts. -/
def State.bootCalibrate (s : State) : State :=
  let ready := (List.range 64).all (fun n => s.bit (aISL_STAT n) fISL_STAT_DLL_LOCK
    && s.fld (aTAC_STAT n 0) fTAC_STAT_RESULT == 1 && s.fld (aTAC_STAT n 1) fTAC_STAT_RESULT == 1)
  if ready then (s.setStep 8).run execRefCheck
  else (List.range 64).foldl (fun s n => (s.bootTac n 0).bootTac n 1) s

/-- Step 9: once the first reference check has ended, the records are verified and one comes into force (R366, R368); the step is
completed when the reference is good and a record is in force. -/
def State.bootReferenced (s : State) : State :=
  let s1 := if s.calRec.tried || s.calRec.waiting || s.calRec.asked.isNone then s
    else { s with calRec := { s.calRec with tried := true } }.recordAtStart
  if s1.bit aCAL_REFSTAT fCAL_REFSTAT_REFOK ∧ s1.fld aCAL_REC fCAL_REC_SRC ≠ 0 then s1.setStep 9 else s1

/-- Step 10: the negotiation has an outcome, and TBS is enabled. -/
def State.bootTime (s : State) : State :=
  if s.twin ≠ twDetached ∧ s.twin ≠ twNegotiate then (s.blockOn 1).setStep 10 else s

/-- Step 11: the time base is LOCKED, or the module is the time master, which awaits its host's STEP. -/
def State.bootLocked (s : State) : State :=
  if s.tbState = tbLocked ∨ (s.isMaster = true ∧ s.fld aTBS_SRC fTBS_SRC_SRC = 0) then s.setStep 11 else s

/-- Boot firmware at the end of a cycle: the next step, where what it waits for has come. -/
def State.bootAdvance (s : State) : State :=
  let st := s.bootStep
  if s.bit aGLB_RSTCAUSE fGLB_RSTCAUSE_LIMITED then s
  else if st = 4 then s.bootPatches
  else if st = 6 then s.bootIslands
  else if st = 7 then s.bootCalibrate
  else if st = 8 then s.bootReferenced
  else if st = 9 then s.bootTime
  else if st = 10 then s.bootLocked
  else s

end Sys2Proof.Machine
end

