-- ==== Sys2Proof/Machine/Dispatch.lean ====
section
/-! DEFINITION. The meaning of each command: one arm for each row of the table, in its order. -/
namespace Sys2Proof.Machine

def exec (i : Instr) (s : State) : Host.Outcome State Fault Refusal :=
  match i with
  -- register access
  | .regWrite issuer addr data => Sys2Proof.Machine.execRegWrite issuer addr data s
  | .bitAliasWrite issuer addr data => Sys2Proof.Machine.execBitAliasWrite issuer addr data s
  | .blkCtlWrite issuer blk en => Sys2Proof.Machine.execBlkCtlWrite issuer blk en s
  -- time base
  | .tbsStep issuer => Sys2Proof.Machine.execTbsStep issuer s
  | .tbsAnchor => Sys2Proof.Machine.execTbsAnchor s
  | .anchorPeriodic => Sys2Proof.Machine.execAnchorPeriodic s
  | .timeMsgSend => Sys2Proof.Machine.execTimeMsgSend s
  | .ringTime m crcGood arrival => Sys2Proof.Machine.execRingTime m crcGood arrival s
  | .holdTimeout => Sys2Proof.Machine.execHoldTimeout s
  | .phaseStep => Sys2Proof.Machine.execPhaseStep s
  | .freqSlew => Sys2Proof.Machine.execFreqSlew s
  | .pllRefLoss oven => Sys2Proof.Machine.execPllRefLoss oven s
  | .colTimeSend => Sys2Proof.Machine.execColTimeSend s
  | .colTime m arrival => Sys2Proof.Machine.execColTime m arrival s
  -- pins
  | .patStart isl => Sys2Proof.Machine.execPatStart isl s
  | .patCodeEnd isl => Sys2Proof.Machine.execPatCodeEnd isl s
  | .drvEnWrite issuer ch en => Sys2Proof.Machine.execDrvEnWrite issuer ch en s
  | .chPeriodWrite issuer ch period => Sys2Proof.Machine.execChPeriodWrite issuer ch period s
  | .periodStart ch => Sys2Proof.Machine.execPeriodStart ch s
  | .safeNFall => Sys2Proof.Machine.execSafeNFall s
  | .safeNRise => Sys2Proof.Machine.execSafeNRise s
  -- stamps
  | .dllRelock issuer isl => Sys2Proof.Machine.execDllRelock issuer isl s
  | .dllCompare isl pherr => Sys2Proof.Machine.execDllCompare isl pherr s
  | .dllLockDone isl => Sys2Proof.Machine.execDllLockDone isl s
  | .tacCfgWrite issuer isl tac en pin => Sys2Proof.Machine.execTacCfgWrite issuer isl tac en pin s
  | .tacCal issuer isl tac => Sys2Proof.Machine.execTacCal issuer isl tac s
  | .tacCalDone isl tac empty gain table => Sys2Proof.Machine.execTacCalDone isl tac empty gain table s
  | .stpCfgWrite issuer isl pin data => Sys2Proof.Machine.execStpCfgWrite issuer isl pin data s
  | .thresholdCrossing isl pin slope time code => Sys2Proof.Machine.execThresholdCrossing isl pin slope time code s
  | .muEnWrite issuer isl unit en => Sys2Proof.Machine.execMuEnWrite issuer isl unit en s
  | .muApply _ isl unit => Sys2Proof.Machine.execMuApply isl unit s
  | .gateEnd isl unit => Sys2Proof.Machine.execGateEnd isl unit s
  | .resultDue isl unit f y flags => Sys2Proof.Machine.execResultDue isl unit f y flags s
  -- monitors
  | .monitorTick isl mon v => Sys2Proof.Machine.execMonitorTick isl mon v s
  | .monEnWrite issuer isl mon en => Sys2Proof.Machine.execMonEnWrite issuer isl mon en s
  | .monThrWrite issuer isl mon data => Sys2Proof.Machine.execMonThrWrite issuer isl mon data s
  | .monUnsettledTimeout isl mon => Sys2Proof.Machine.execMonUnsettledTimeout isl mon s
  -- loops
  | .loopUpdate ch upset => Sys2Proof.Machine.execLoopUpdate ch upset s
  | .lpeFlip issuer blk => Sys2Proof.Machine.execLpeFlip issuer blk s
  | .lchEnWrite issuer ch en => Sys2Proof.Machine.execLchEnWrite issuer ch en s
  | .bgRequest issuer eng id blk => Sys2Proof.Machine.execBgRequest issuer eng id blk s
  | .bgAbort _ eng => Sys2Proof.Machine.execBgAbort eng s
  | .bgRoutineRun eng cycles upset => Sys2Proof.Machine.execBgRoutineRun eng cycles upset s
  | .engRestart _ eng => Sys2Proof.Machine.execEngRestart eng s
  -- segment players
  | .seal seq => Sys2Proof.Machine.execSeal seq s
  | .sealDone seq => Sys2Proof.Machine.execSealDone seq s
  | .unseal seq => Sys2Proof.Machine.execUnseal seq s
  | .ddsrst => Sys2Proof.Machine.execDdsrst s
  | .plStart _ ch seq entry => Sys2Proof.Machine.execPlStart ch seq entry s
  | .plJump _ ch jmode entry => Sys2Proof.Machine.execPlJump ch jmode entry s
  | .plStop _ ch => Sys2Proof.Machine.execPlStop ch s
  | .sampleBoundary => Sys2Proof.Machine.execSampleBoundary s
  | .refillArrive ch entry good => Sys2Proof.Machine.execRefillArrive ch entry good s
  -- scheduler
  | .qpush issuer q msg => Sys2Proof.Machine.execQpush issuer q msg s
  | .qpushRoom q => Sys2Proof.Machine.execQpushRoom q s
  | .ingressTake q => Sys2Proof.Machine.execIngressTake q s
  | .taskPost task arg => Sys2Proof.Machine.execTaskPost task arg s
  | .taskClear task arg => Sys2Proof.Machine.execTaskClear task arg s
  | .taskArm task ctl arg => Sys2Proof.Machine.execTaskArm task ctl arg s
  | .taskStart task _ => Sys2Proof.Machine.execTaskStart task s
  | .taskCancel task => Sys2Proof.Machine.execTaskCancel task s
  | .taskReset task => Sys2Proof.Machine.execTaskReset task s
  | .taskPrio task arg => Sys2Proof.Machine.execTaskPrio task arg s
  | .taskTimer task guard arg => Sys2Proof.Machine.execTaskTimer task guard arg s
  | .taskTimerExpiry task => Sys2Proof.Machine.execTaskTimerExpiry task s
  | .taskJudge task => Sys2Proof.Machine.execTaskJudge task s
  | .taskDispatch eng => Sys2Proof.Machine.execTaskDispatch eng s
  | .yieldPoint eng => Sys2Proof.Machine.execYieldPoint eng s
  | .stageDone eng => Sys2Proof.Machine.execStageDone eng s
  | .stepCommit task => Sys2Proof.Machine.execStepCommit task s
  | .stepStart task => Sys2Proof.Machine.execStepStart task s
  | .stepTimeout task => Sys2Proof.Machine.execStepTimeout task s
  | .taskAgeing task => Sys2Proof.Machine.execTaskAgeing task s
  -- acquisition and excursions
  | .trgArm issuer t a => Sys2Proof.Machine.execTrgArm issuer t a s
  | .trgDisarm issuer t => Sys2Proof.Machine.execTrgDisarm issuer t s
  | .trgFire issuer t => Sys2Proof.Machine.execTrgFire issuer t s
  | .ringArm m crcGood => Sys2Proof.Machine.execRingArm m crcGood s
  | .ringDisarm m crcGood => Sys2Proof.Machine.execRingDisarm m crcGood s
  | .ringFire m crcGood => Sys2Proof.Machine.execRingFire m crcGood s
  | .triggerDecide t => Sys2Proof.Machine.execTriggerDecide t s
  | .rateEval => Sys2Proof.Machine.execRateEval s
  | .statusRecord => Sys2Proof.Machine.execStatusRecord s
  | .sealInstant => Sys2Proof.Machine.execSealInstant s
  | .sealSign good => Sys2Proof.Machine.execSealSign good s
  | .spillMove basinB mediaGood => Sys2Proof.Machine.execSpillMove basinB mediaGood s
  | .excursionWrite kind detail ch time value limit => Sys2Proof.Machine.execExcursionWrite kind detail ch time value limit s
  | .streamSend p cls => Sys2Proof.Machine.execStreamSend p cls s
  -- memory
  | .refresh pc busy => Sys2Proof.Machine.execRefresh pc busy s
  | .scrub addr verdict => Sys2Proof.Machine.execScrub addr verdict s
  | .hbmRequestDone requester addr verdict => Sys2Proof.Machine.execHbmRequestDone requester addr verdict s
  | .hbmRateReq issuer rate => Sys2Proof.Machine.execHbmRateReq issuer rate s
  | .retrain issuer => Sys2Proof.Machine.execRetrain issuer s
  | .hbmTrainDone good => Sys2Proof.Machine.execHbmTrainDone good s
  -- calibration
  | .calqStart issuer q data => Sys2Proof.Machine.execCalqStart issuer q data s
  | .calqAbort _ q => Sys2Proof.Machine.execCalqAbort q s
  | .calPhaseEnd q r => Sys2Proof.Machine.execCalPhaseEnd q r s
  | .calFitDone q => Sys2Proof.Machine.execCalFitDone q s
  | .calCommit issuer q => Sys2Proof.Machine.execCalCommit issuer q s
  | .calRecordStored good => Sys2Proof.Machine.execCalRecordStored good s
  | .refCheck => Sys2Proof.Machine.execRefCheck s
  | .refCheckDone dev opened shorted => Sys2Proof.Machine.execRefCheckDone dev opened shorted s
  -- twin
  | .hello f => Sys2Proof.Machine.execHello f s
  | .negotiateTimeout => Sys2Proof.Machine.execNegotiateTimeout s
  | .peerOwnLow => Sys2Proof.Machine.execPeerOwnLow s
  | .ownConflict => Sys2Proof.Machine.execOwnConflict s
  | .presNHigh => Sys2Proof.Machine.execPresNHigh s
  | .ship items corrected lost => Sys2Proof.Machine.execShip items corrected lost s
  | .plausColTimeout => Sys2Proof.Machine.execPlausColTimeout s
  | .keep => Sys2Proof.Machine.execKeep s
  | .peerFrameTimeout => Sys2Proof.Machine.execPeerFrameTimeout s
  | .digestSend => Sys2Proof.Machine.execDigestSend s
  | .digest tick dig blame => Sys2Proof.Machine.execDigest tick dig blame s
  | .fwd p addr due data => Sys2Proof.Machine.execFwd p addr due data s
  | .ferry f => Sys2Proof.Machine.execFerry f s
  | .twnJoin _ => Sys2Proof.Machine.execTwnJoin s
  | .joinCopyDone => Sys2Proof.Machine.execJoinCopyDone s
  | .twnLeave _ => Sys2Proof.Machine.execTwnLeave s
  | .twnCol issuer => Sys2Proof.Machine.execTwnCol issuer s
  | .colApply cause => Sys2Proof.Machine.execColApply cause s
  -- links
  | .lctl link nak ackSeq limits crcGood => Sys2Proof.Machine.execLctl link nak ackSeq limits crcGood s
  | .lctlSend link => Sys2Proof.Machine.execLctlSend link s
  | .rd p f => Sys2Proof.Machine.execRd p f s
  | .wr p f => Sys2Proof.Machine.execWr p f s
  | .strm p hdr cls taken => Sys2Proof.Machine.execStrm p hdr cls taken s
  | .replayTimeout link => Sys2Proof.Machine.execReplayTimeout link s
  | .linkDetect link => Sys2Proof.Machine.execLinkDetect link s
  | .pollDone link => Sys2Proof.Machine.execPollDone link s
  | .configDone link width rate => Sys2Proof.Machine.execConfigDone link width rate s
  | .trainTimeout link => Sys2Proof.Machine.execTrainTimeout link s
  | .recoveryDone link width rate => Sys2Proof.Machine.execRecoveryDone link width rate s
  | .recoveryTimeout link => Sys2Proof.Machine.execRecoveryTimeout link s
  | .lpRetrain _ p => Sys2Proof.Machine.execLpRetrain p s
  | .lpEnWrite _ p data => Sys2Proof.Machine.execLpEnWrite p data s
  | .lsEntry link transmit => Sys2Proof.Machine.execLsEntry link transmit s
  | .ldEntry p transmit => Sys2Proof.Machine.execLdEntry p transmit s
  | .linkWake link transmit => Sys2Proof.Machine.execLinkWake link transmit s
  -- structure stream
  | .strLoad _ src qmask => Sys2Proof.Machine.execStrLoad src qmask s
  | .strCheckDone sigGood => Sys2Proof.Machine.execStrCheckDone sigGood s
  | .strApply _ => Sys2Proof.Machine.execStrApply s
  | .strAbort => Sys2Proof.Machine.execStrAbort s
  | .unload _ => Sys2Proof.Machine.execUnload s
  | .store good => Sys2Proof.Machine.execStore good s
  -- faults
  | .faultRaise raises => Sys2Proof.Machine.execFaultRaise raises s
  | .reactionBlockReset src islands => Sys2Proof.Machine.execReactionBlockReset src islands s
  | .fltAck _ src => Sys2Proof.Machine.execFltAck src s
  | .fltStickyWrite _ w data => Sys2Proof.Machine.execFltStickyWrite w data s
  | .force => Sys2Proof.Machine.execForce s
  -- resets and power
  | .rstcmdDie => Sys2Proof.Machine.execRstcmdDie s
  | .rstcmdBlock issuer code => Sys2Proof.Machine.execRstcmdBlock issuer code s
  | .rstNLow => Sys2Proof.Machine.execRstNLow s
  | .resetRelease rstNHigh => Sys2Proof.Machine.execResetRelease rstNHigh s
  | .powerOn selfTestGood flash slotAGood slotBGood => Sys2Proof.Machine.execPowerOn selfTestGood flash slotAGood slotBGood s
  | .inputOutOfRange => Sys2Proof.Machine.execInputOutOfRange s
  | .inputReturn => Sys2Proof.Machine.execInputReturn s
  | .holdupExhausted => Sys2Proof.Machine.execHoldupExhausted s
  -- management
  | .sensorSample values powers => Sys2Proof.Machine.execSensorSample values powers s
  | .thermalRelease => Sys2Proof.Machine.execThermalRelease s
  | .loadWindow load => Sys2Proof.Machine.execLoadWindow load s
  | .watchdogExpiry => Sys2Proof.Machine.execWatchdogExpiry s
  | .status p req => Sys2Proof.Machine.execStatus p req s
  | .sensors p req => Sys2Proof.Machine.execSensors p req s
  | .history p req sensor since => Sys2Proof.Machine.execHistory p req sensor since s
  | .logread p req index n => Sys2Proof.Machine.execLogread p req index n s
  | .logmark p req text => Sys2Proof.Machine.execLogmark p req text s
  | .update p req offset len => Sys2Proof.Machine.execUpdate p req offset len s
  | .updateDone written verified => Sys2Proof.Machine.execUpdateDone written verified s
  | .activate p req due => Sys2Proof.Machine.execActivate p req due s
  | .confirm p req => Sys2Proof.Machine.execConfirm p req s
  | .rollback p req => Sys2Proof.Machine.execRollback p req s
  | .conftoExpiry => Sys2Proof.Machine.execConftoExpiry s
  | .strcopy p req k offset => Sys2Proof.Machine.execStrcopy p req k offset s
  | .getreply p req ofReq => Sys2Proof.Machine.execGetreply p req ofReq s
  | .replyReady p req => Sys2Proof.Machine.execReplyReady p req s
  | .replyDiscard p req => Sys2Proof.Machine.execReplyDiscard p req s
  -- security
  | .secHello p role intOnly nonce qh => Sys2Proof.Machine.execSecHello p role intOnly nonce qh s
  | .proof p cred credTrailer ecdsa hss => Sys2Proof.Machine.execProof p cred credTrailer ecdsa hss s
  | .sessionTimeout p => Sys2Proof.Machine.execSessionTimeout p s
  | .helloLockEnd p => Sys2Proof.Machine.execHelloLockEnd p s
  | .close p => Sys2Proof.Machine.execClose p s
  | .attest p nonce => Sys2Proof.Machine.execAttest p nonce s
  | .cert p => Sys2Proof.Machine.execCert p s
  | .sealsig p sealno => Sys2Proof.Machine.execSealsig p sealno s
  | .selftest p pass => Sys2Proof.Machine.execSelftest p pass s
  | .enroll p slot usage keys => Sys2Proof.Machine.execEnroll p slot usage keys s
  | .enrollCk p slot generation key sig => Sys2Proof.Machine.execEnrollCk p slot generation key sig s
  | .revoke p slot sig => Sys2Proof.Machine.execRevoke p slot sig s
  | .floor p which value => Sys2Proof.Machine.execFloor p which value s
  | .mode p => Sys2Proof.Machine.execMode p s
  | .zeroise p => Sys2Proof.Machine.execZeroise p s
  | .spillEraseDone => Sys2Proof.Machine.execSpillEraseDone s
  | .treeReady epochTree => Sys2Proof.Machine.execTreeReady epochTree s
  | .portAccess => Sys2Proof.Machine.execPortAccess s
  -- further events
  | .lossOfAlignment link => Sys2Proof.Machine.execLossOfAlignment link s
  | .entropyHealthFail => Sys2Proof.Machine.execEntropyHealthFail s
  | .ageingLearned => Sys2Proof.Machine.execAgeingLearned s
  | .ovenReady => Sys2Proof.Machine.execOvenReady s

end Sys2Proof.Machine
end

