-- ==== Sys2Proof/Machine/Tick.lean ====
section
/-! DEFINITION. What the module does when no command waits (log entry 1): the earliest action held until due takes effect
(R10, R11); when no action of the present cycle is left, the scheduler, boot firmware and the shipped stream take the
cycle's end and the count moves to the next cycle (R56). -/
namespace Sys2Proof.Machine

/-! ## Actions that fall due -/

/-- A message at its due time: the command of its OP (R277, R281). -/
def State.runMessage (s : State) (m : BitVec 128) : State :=
  let n : TaskNo := BitVec.ofNat 16 (mTask m)
  let arg : BitVec 32 := BitVec.ofNat 32 (mArg m)
  let op := mOp m
  if op = 1 then nextOr s (execTaskPost n arg s)
  else if op = 2 then nextOr s (execTaskClear n arg s)
  else if op = 3 then nextOr s (execTaskArm n (BitVec.ofNat 4 (mCtl m)) arg s)
  else if op = 4 then nextOr s (execTaskStart n s)
  else if op = 5 then nextOr s (execTaskCancel n s)
  else if op = 6 then nextOr s (execTaskReset n s)
  else if op = 7 then nextOr s (execTaskPrio n arg s)
  else if op = 8 then nextOr s (execTaskTimer n ((mCtl m).testBit 3) arg s)
  else s

/-- An action's effect at its due time. -/
def State.perform (s : State) (d : Due) : State :=
  match d.act with
  | .cmd i => nextOr s (exec i s)
  | .flags ch set clear => s.applyFlags ch.val set clear
  | .raise fs isl => nextOr s (execFaultRaise [(fs, isl)] s)
  | .read p f => s.performRead p f
  | .memWrite p sp off data => s.performWrite p sp off data
  | .shipped it => s.applyShipped it
  | .edges ch goff set => s.deliver ch.val d.due goff set
  | .msg _ m => s.runMessage m
  | .monCause isl m cause lo => s.judgeCause isl m cause lo
  | .monLatch isl m lo => s.setLatch isl m lo
  | .monOn isl m => s.monStart isl.val m.val
  | .override ch => s.overridePins ch.val
  | .arm t a tmo auto => s.armTrigger t a tmo auto
  | .disarm t => s.disarmTrigger t.val
  | .seal t hb hc hd => s.sealAt t hb hc hd
  | .spareOn q => s.spareOn q.val

/-- The raises among the actions due before an instant. -/
def raisesBefore (t : Count) (ds : List Due) : List (Fin 128 × Fin 80) :=
  ds.filterMap (fun (d : Due) => match d.act with
    | .raise fs isl => if Count.before d.due t then some (fs, isl) else none
    | _ => none)

/-- The other actions held. -/
def withoutRaises (t : Count) (ds : List Due) : List Due :=
  ds.filter (fun (d : Due) => match d.act with
    | .raise _ _ => !(Count.before d.due t)
    | _ => true)

/-- The start of the cycle after the present one. -/
def State.nextCycle (s : State) : Count := Count.cycleStart s.count + 128#72

/-! ## The end of a cycle -/

/-- The tasks on whose flag word an action fell in the cycle, judged in ascending number (R283). -/
def State.endJudge (s : State) : State :=
  let js := s.sched.judge.mergeSort (fun a b => decide (a ≤ b))
  let s1 := s.sched.started.foldl State.fixStart { s with sched := { s.sched with judge := [], started := [] } }
  js.foldl (fun s n => nextOr s (execTaskJudge (BitVec.ofNat 16 n) s)) s1

/-- Staged changes whose commit cycle has come (R294). -/
def State.endCommit (s : State) : State :=
  s.tasks.foldl (fun s (p : Nat × Task) =>
    if p.2.state = .staged then nextOr s (execStepCommit (BitVec.ofNat 16 p.1) s) else s) s

/-- The step engines' phases that end in the cycle (R290, R292). -/
def State.endPhases (s : State) : State :=
  (List.range 16).foldl (fun s e =>
    if (s.ste e).task.isSome then
      let s1 := nextOr s (execStageDone (Fin.ofNat 16 e) s)
      nextOr s1 (execYieldPoint (Fin.ofNat 16 e) s1)
    else s) s

/-- Free step engines choose, in ascending number (R291). -/
def State.endDispatch (s : State) : State :=
  (List.range 16).foldl (fun s e => nextOr s (execTaskDispatch (Fin.ofNat 16 e) s)) s

/-- Tasks that became dispatchable in the cycle and found no free engine look for a running one to displace, in the order of
dispatch (R291, R292). -/
def State.endDisplace (s : State) : State :=
  let new := (s.tasks.filter (fun (p : Nat × Task) =>
    p.2.state == .ready && p.2.readyAt == some (Count.cycleStart s.count))).map (·.1)
  (new.mergeSort (fun a b => !(s.goesFirst b a))).foldl State.tryDisplace s

/-- Tasks that have waited beyond their group's AGE (R295). -/
def State.endAgeing (s : State) : State :=
  s.tasks.foldl (fun s (p : Nat × Task) =>
    if s.overAge p.1 then nextOr s (execTaskAgeing (BitVec.ofNat 16 p.1) s) else s) s

/-- Heads of queues go to the ingress for the next cycle while SCH is enabled, and held pushes find room (R279, R280). -/
def State.endQueues (s : State) : State :=
  let s1 := if s.blkOn 4 then s.takeHeads s.nextCycle s.poolUsed else s
  s1.sched.held.foldl (fun s (p : Nat × List (Nat × BitVec 128)) =>
    p.2.foldl (fun s m => nextOr s (execQpushRoom (Fin.ofNat 1024 m.1) s)) s) s1

/-- The requests of the host ports that waited behind a held push (R279). -/
def State.endStalled (s : State) : State :=
  (List.range 2).foldl (fun s p => s.drainStalled (Fin.ofNat 2 p) ((s.link p).stalled.length)) s

/-- The scheduler's end of a cycle, while it works (R300): the judge, the phases that end, the commits, and the choice of new
work. -/
def State.endScheduler (s : State) : State :=
  let s1 := if s.tasks.isEmpty then s
    else
      let s2 := s.endJudge
      if s2.schedOn then s2.endPhases.endCommit.endDispatch.endDisplace.endAgeing else s2
  s1.endQueues.endStalled

/-- The background work of the loop engines in the cycle (R181 to R183), and what it has committed. -/
def State.endEngines (s : State) : State := (List.range 8).foldl (fun s e => s.bgTick e) s

/-- The 16-byte slots that an item takes in a SHIP frame (R424). -/
def itemSlots : ShipItem → Nat
  | .anchor .. => 2
  | .group .. => 3
  | _ => 1

/-- Items cut into frames of at most 224 bytes, in order (R423): the frames before, and the one being filled. -/
def shipFrames (items : List ShipItem) : List (List ShipItem) × List ShipItem × Nat :=
  items.foldl (fun acc it =>
    if acc.2.2 + itemSlots it ≤ 14 then (acc.1, acc.2.1 ++ [it], acc.2.2 + itemSlots it)
    else (acc.1 ++ [acc.2.1], [it], itemSlots it)) ([], [], 0)

/-- The items that wait are sent in SHIP frames (R378, R423). -/
def State.endShip (s : State) : State :=
  if s.twn.ship.isEmpty then s
  else
    let f := shipFrames s.twn.ship
    let fs := f.1 ++ [f.2.1]
    let cols := fs.foldl (fun n items => n + columnsOf 8 (shipBytes items).length) 0
    { s with
      twn := { s.twn with
        ship := []
        shipCols := (s.count, cols) :: s.twn.shipCols.filter (fun p => Count.before s.count (p.1 + 0x8000000)) }
      out := s.out ++ fs.map Out.ship }.sentOn 2

/-- Once SAFE_N has been high for one whole tick, a pair is resynchronised as by a join (R392), which the active admits as it
admits one (R393): COPY begins. -/
def State.endSafe (s : State) : State :=
  match s.twn.safeRise with
  | none => s
  | some t =>
    let len := s.tickLen
    if s.inPair ∧ len ≠ 0 ∧ Count.upto (Count.ceilTo t len + BitVec.ofNat 72 len) s.nextCycle
      ∧ (s.twin = twStandby ∨ s.bit aTWN_CFG fTWN_CFG_AUTOJOIN ∨ s.twn.joinOrdered) then
      { s.startCopy with twn := { s.startCopy.twn with safeRise := none } }
    else s

/-- The records whose append time lies in the cycle or before are appended (R304), and staged ones move on as HBM allows
(R317). -/
def State.endStreams (s : State) : State :=
  (List.range 4).foldl (fun s c => if (s.stream c).staged.isEmpty then s else s.roomCame c) (s.releaseTo s.nextCycle)

/-- Signatures that may be made are made, in order (R474), and sessions whose frame counters are spent end (R478). -/
def State.endSigs (s : State) : State := ((State.serveSigs s.sec.requests.length s).endSpent 0).endSpent 1

/-- The end of the present cycle: the count moves to the start of the next one. -/
def State.endCycle (s : State) : State :=
  let s1 := s.endScheduler.endEngines.endStreams.bootAdvance.endSafe.endSigs.endShip
  { s1 with count := s1.nextCycle, fresh := [], raised := [], merged := [] }

/-! ## The step of an idle block -/

/-- What happens when no command waits: the raises due in the cycle, together (R451); else the earliest action due in the
cycle; else the cycle's end. An action takes effect at the start of its due cycle, with its due time to the TBU for an edge
or a window (R74). -/
def State.idle (s : State) : State :=
  let t := s.nextCycle
  let rs := raisesBefore t s.agenda
  if !rs.isEmpty then
    let s1 := rs.foldl (fun s _ => s.crossed 78 (s.count + cyc 64)) { s with agenda := withoutRaises t s.agenda }
    nextOr s1 (execFaultRaise rs s1)
  else
    match s.agenda with
    | [] => s.endCycle
    | d :: rest =>
      if Count.before d.due t then
        let due := if Count.before s.count d.due then some d.due else none
        { { s with dueNow := due, agenda := rest }.perform d with dueNow := none }
      else s.endCycle

end Sys2Proof.Machine
end

