-- ==== Sys2Proof/Safety.lean ====
section
/-! DEFINITION. What claims are stated in: the canonical form of a state, what a command leaves alone, and that a command
answers a next state. -/
namespace Sys2Proof.Machine

/-- The registers and the three memories are in canonical form: addresses strictly rising, nothing listed that an
unlisted address reads as anyway. Equal contents are then equal data. -/
def State.Canonical (s : State) : Prop :=
  Tab.wf regReset s.regs = true ∧ Memory.wf s.sram = true ∧ Memory.wf s.hbmMem = true ∧ Memory.wf s.spill = true

/-- Every register but those listed reads in `t` as it reads in `s`. -/
def KeepsRegs (except : List Nat) (s t : State) : Prop := ∀ a, a ∉ except → t.reg a = s.reg a

/-- Every byte of the plain, of HBM and of the spill store reads in `t` as it reads in `s`. -/
def KeepsMemory (s t : State) : Prop :=
  ∀ a, Memory.read t.sram a = Memory.read s.sram a ∧ Memory.read t.hbmMem a = Memory.read s.hbmMem a ∧
    Memory.read t.spill a = Memory.read s.spill a

/-- What no command outside the chapters on security, structure and management may touch: the security island, the
structure in force, the management subsystem, and the customer's and the vendor's calibration records. -/
def KeepsStores (s t : State) : Prop :=
  t.sec = s.sec ∧ t.str = s.str ∧ t.mgt = s.mgt ∧ t.calRec = s.calRec

/-- A raise of a fault source by an island is due at FLT 64 cycles after the present cycle (R451). -/
def Raises (fs : Fin 128) (isl : Fin 80) (s t : State) : Prop :=
  (⟨s.count + cyc 64, .island isl, .raise fs isl⟩ : Due) ∈ t.agenda

/-- The control block of task `n` stands as its image in the plain, where a structure places the region (R271), and every
byte outside those 64 reads in `t` as it reads in `s`. -/
def StoresTask (n : Nat) (s t : State) : Prop :=
  (∀ b, s.plainBase .scheduler = some b → Memory.readBytes t.sram (b + n * 64) 64 = (t.task n).bytes) ∧
  (∀ a, (∀ b, s.plainBase .scheduler = some b → a < b + n * 64 ∨ b + n * 64 + 64 ≤ a) →
    Memory.read t.sram a = Memory.read s.sram a) ∧ t.hbmMem = s.hbmMem ∧ t.spill = s.spill

/-- No channel of a task's gang fires a trigger on its flags. -/
def FiresNone (n : Nat) (s : State) : Prop :=
  ∀ c ∈ s.members (s.task n).chan, getF (s.reg (aACH_FIRE c)) fACH_FIRE_EN = 0

/-- A frame sent now on a VC of a port goes out at once: the port is ACTIVE and awake, a credit stands, nothing waits. -/
def Sends (p : Port) (vc : Nat) (s : State) : Prop :=
  s.sends p.val = true ∧ (s.link p.val).mayGo true vc = true ∧ (s.link p.val).waiting = []

/-- `n` frames sent now on a VC of a port go out at once: the port is ACTIVE and awake, that many credits stand, the replay buffer
has room, nothing waits. -/
def SendsAll (p : Port) (vc n : Nat) (s : State) : Prop :=
  s.sends p.val = true ∧ n ≤ (s.link p.val).credit vc ∧ (s.link p.val).credit vc ≤ 128 ∧
    (s.link p.val).held.length + n ≤ 1024 ∧ (s.link p.val).waiting = []

/-- Frames given to a VC of a port in order: the first of them, as far as credits and the link allow, have gone out, and the rest
wait behind those that waited. -/
def Says (p : Port) (vc : Nat) (os : List Out) (s t : State) : Prop :=
  ∃ k, t.out = s.out ++ os.take k ∧ (t.link p.val).waiting = (s.link p.val).waiting ++ (os.drop k).map (fun o => (vc, o))

/-- The command answers a next state, and that state is as said. -/
def Completes (c : Instr) (s : State) (p : State → Prop) : Prop := ∃ t, exec c s = .next t ∧ p t

/-- A module drives OWN only while it is ACTIVE_SOLO or ACTIVE (R373). -/
def State.OwnsLegally (s : State) : Prop := s.bit aTWN_STAT fTWN_STAT_OWN = true → s.twin = twSolo ∨ s.twin = twActive

end Sys2Proof.Machine

namespace Sys2Proof

/-- A command that may begin a reset of the engine die or of the module (R506): a source of one, the thermal trip, a fault
reaction, an acknowledgement or clear that issues one again, and a register write, which may be one of GLB_RSTCMD. -/
def Instr.resetsDie : Instr → Bool
  | .regWrite .. | .bitAliasWrite .. | .faultRaise .. | .fltAck .. | .fltStickyWrite .. | .rstcmdDie | .rstNLow
    | .powerOn .. | .holdupExhausted | .sensorSample .. | .activate .. => true
  | _ => false

/-- A command that may reset a block (R40). -/
def Instr.resetsBlock (c : Instr) : Bool :=
  c.resetsDie || (match c with
    | .rstcmdBlock .. | .reactionBlockReset .. => true
    | _ => false)

/-- The blocks of R32 whose registers a command may change, 64 for the pin islands; `none` where it may be any: the commands
that reset, that bring a structure into force, or that write a register by its address. -/
def Instr.writes : Instr → Option (List Nat)
  | .tbsAnchor | .anchorPeriodic | .timeMsgSend | .colTimeSend | .muApply .. | .monUnsettledTimeout .. | .refillArrive ..
    | .taskTimerExpiry .. | .stepTimeout .. | .trgFire .. | .statusRecord | .streamSend .. | .refCheck | .plausColTimeout
    | .keep | .lctlSend .. | .force | .inputOutOfRange | .inputReturn | .status .. | .sensors .. | .history ..
    | .logread .. | .strcopy .. | .attest .. | .cert .. | .sealsig .. | .enrollCk .. | .mode .. => some []
  | .hbmRequestDone .. => some [0, 10, 12, 16]
  | .holdTimeout | .phaseStep | .freqSlew | .pllRefLoss .. | .ingressTake .. | .ageingLearned | .ovenReady => some [1]
  | .stageDone .. => some [1, 3, 5]
  | .loopUpdate .. | .bgRoutineRun .. => some [1, 3, 6]
  | .digestSend => some [1, 3, 6, 10, 12, 14, 15, 64]
  | .resultDue .. => some [1, 3, 6, 10, 14, 64]
  | .ringTime .. => some [1, 3, 6, 13, 15, 64]
  | .colTime .. | .presNHigh | .peerFrameTimeout | .digest .. | .colApply .. => some [1, 3, 6, 14, 15, 64]
  | .tbsStep .. | .gateEnd .. => some [1, 3, 6, 15, 64]
  | .sampleBoundary => some [1, 3, 7]
  | .triggerDecide .. => some [1, 3, 10]
  | .safeNFall => some [1, 3, 14, 64]
  | .qpush .. | .qpushRoom .. => some [1, 4]
  | .negotiateTimeout => some [1, 6, 14]
  | .hello .. | .twnJoin .. => some [1, 6, 14, 15, 64]
  | .ringArm .. | .ringFire .. | .lossOfAlignment .. => some [1, 13]
  | .ship .. => some [1, 13, 14]
  | .periodStart .. => some [1, 64]
  | .stepCommit .. => some [3]
  | .taskCancel .. => some [3, 4]
  | .taskPost .. | .taskClear .. | .taskArm .. | .taskStart .. | .taskReset .. | .taskPrio .. | .taskTimer ..
    | .taskJudge .. => some [4]
  | .taskAgeing .. => some [4, 5]
  | .stepStart .. => some [4, 6, 10]
  | .taskDispatch .. | .yieldPoint .. => some [5]
  | .lpeFlip .. | .lchEnWrite .. | .bgRequest .. | .bgAbort .. | .engRestart .. => some [6]
  | .ownConflict | .twnLeave .. => some [6, 14, 15, 64]
  | .calqAbort .. | .calPhaseEnd .. => some [6, 15, 64]
  | .seal .. | .sealDone .. | .unseal .. | .ddsrst | .plStart .. | .plJump .. | .plStop .. => some [7]
  | .trgArm .. | .trgDisarm .. | .rateEval => some [10]
  | .spillMove .. => some [10, 12]
  | .strm .. => some [10, 12, 13, 16, 18]
  | .sealInstant => some [10, 12, 18]
  | .ringDisarm .. => some [10, 13]
  | .zeroise .. => some [10, 13, 16, 18]
  | .excursionWrite .. => some [11, 12]
  | .refresh .. | .hbmRateReq .. | .retrain .. | .hbmTrainDone .. => some [12]
  | .scrub .. => some [12, 16]
  | .replayTimeout .. | .linkDetect .. | .pollDone .. | .configDone .. | .trainTimeout .. | .recoveryDone ..
    | .lpRetrain .. | .lsEntry .. | .ldEntry .. | .linkWake .. => some [13]
  | .lctl .. => some [13, 14]
  | .recoveryTimeout .. | .lpEnWrite .. | .proof .. | .close .. => some [13, 16, 18]
  | .peerOwnLow | .joinCopyDone | .twnCol .. => some [14]
  | .muEnWrite .. => some [14, 64]
  | .calFitDone .. | .refCheckDone .. => some [15]
  | .calRecordStored .. => some [15, 16]
  | .calqStart .. | .calCommit .. => some [15, 64]
  | .loadWindow .. | .watchdogExpiry | .logmark .. | .update .. | .updateDone .. | .rollback .. | .conftoExpiry
    | .getreply .. | .replyReady .. | .replyDiscard .. => some [16]
  | .confirm .. => some [16, 18]
  | .strLoad .. | .strAbort | .store .. => some [17]
  | .sealSign .. | .secHello .. | .sessionTimeout .. | .helloLockEnd .. | .selftest .. | .enroll .. | .revoke ..
    | .floor .. | .spillEraseDone | .treeReady .. | .portAccess | .entropyHealthFail => some [18]
  | .patStart .. | .patCodeEnd .. | .drvEnWrite .. | .chPeriodWrite .. | .safeNRise | .dllRelock .. | .dllCompare ..
    | .dllLockDone .. | .tacCfgWrite .. | .tacCal .. | .tacCalDone .. | .stpCfgWrite .. | .thresholdCrossing ..
    | .monitorTick .. | .monEnWrite .. | .monThrWrite .. => some [64]
  | .regWrite .. | .bitAliasWrite .. | .blkCtlWrite .. | .fwd .. | .ferry .. | .rd .. | .wr .. | .strCheckDone ..
    | .strApply .. | .unload .. | .faultRaise .. | .reactionBlockReset .. | .fltAck .. | .fltStickyWrite .. | .rstcmdDie
    | .rstcmdBlock .. | .rstNLow | .resetRelease .. | .powerOn .. | .holdupExhausted | .sensorSample .. | .thermalRelease
    | .activate .. => none

end Sys2Proof
end

