-- ==== Sys2Proof/Certificates/Slice0/Obligations.lean ====
section
/-! DEFINITION. The statements for the provers: what the queue, the canonical form and the frame of every command promise,
and, family by family of spec/opcode_table.json, where each command completes and what its next state holds. -/
open Sys2Proof Sys2Proof.Machine

/-! ## Register access (chapter 2) -/

/-- R35, R36, R39, R41, R50, on one register of each kind: GLB_SCRATCH (RUN) takes any word; TBS_PSLEW (RUN) takes E from 10
to 20 and its reserved bits stay, and any other E is refused with VAL_REJECT; TBS_LOCKCFG (CFG) of an enabled TBS is
refused with CFG_REJECT; a register whose fields are all STA ignores the write. A refused write raises FS 5.
R48, R49: the alias word of bit `b` of GLB_SCRATCH, at block offset 1_0000h + 30h × 32 + 4 b, takes bit 0 of the data into
that bit and leaves every other bit and register alone; the alias of a bit of TBS_STATE (STA) ignores the write. -/
def Obligations.RegisterWrites : Prop :=
  (∀ (by_ : Issuer) (data : Word) (s : State),
  (Completes (.regWrite by_ 0x30 data) s (fun t => t.reg aGLB_SCRATCH = data ∧ t.count = s.count ∧
    KeepsRegs [aGLB_SCRATCH] s t ∧ KeepsMemory s t)) ∧
  (10 ≤ getF data fTBS_PSLEW_E → getF data fTBS_PSLEW_E ≤ 20 →
    Completes (.regWrite by_ 0x100040 data) s (fun t =>
      t.reg aTBS_PSLEW = ((s.reg aTBS_PSLEW &&& ~~~ 0x1F#32) ||| (data &&& 0x1F#32)) ∧
      KeepsRegs [aTBS_PSLEW] s t ∧ KeepsMemory s t)) ∧
  (¬ (10 ≤ getF data fTBS_PSLEW_E ∧ getF data fTBS_PSLEW_E ≤ 20) →
    Completes (.regWrite by_ 0x100040 data) s (fun t => (t.reg 0x100008).getLsbD 2 = true ∧
      (∃ isl, Raises 5 isl s t) ∧ KeepsRegs [0x100008, 0x10000C] s t ∧ KeepsMemory s t)) ∧
  (s.blkOn 1 = true → Completes (.regWrite by_ 0x100038 data) s (fun t => (t.reg 0x100008).getLsbD 0 = true ∧
    (∃ isl, Raises 5 isl s t) ∧ KeepsRegs [0x100008, 0x10000C] s t ∧ KeepsMemory s t)) ∧
  (Completes (.regWrite by_ 0x100018 data) s (fun t => t = s))) ∧
  (∀ (by_ : Issuer) (b : Fin 32) (data : Word) (s : State),
  (Completes (.bitAliasWrite by_ (BitVec.ofNat 28 (0x10000 + 0x30 * 32 + 4 * b.val)) data) s (fun t =>
    (∀ i, (t.reg aGLB_SCRATCH).getLsbD i = if i = b.val then data.getLsbD 0 else (s.reg aGLB_SCRATCH).getLsbD i) ∧
    KeepsRegs [aGLB_SCRATCH] s t ∧ KeepsMemory s t)) ∧
  (Completes (.bitAliasWrite by_ (BitVec.ofNat 28 (0x110000 + 0x18 * 32 + 4 * b.val)) data) s (fun t => t = s)))

/-- R34, R431: in GLB, FLT, MGT, STR, SEC and LNK a write of 0 to EN is not applied, sets VAL_REJECT and raises FS 5; any
other block that exists follows the write. -/
def Obligations.BlockEnables : Prop := ∀ (by_ : Issuer) (blk : BitVec 7) (s : State),
  ((fixedOn blk.toNat = true ∨ blk = 13) → Completes (.blkCtlWrite by_ blk false) s (fun t =>
    (t.reg (blk.toNat * 0x100000 + 8)).getLsbD 2 = true ∧ t.blkOn blk.toNat = s.blkOn blk.toNat ∧
    (∃ isl, Raises 5 isl s t) ∧ KeepsMemory s t)) ∧
  (blockExists blk.toNat = true → fixedOn blk.toNat = false → blk ≠ 13 →
    Completes (.blkCtlWrite by_ blk false) s (fun t => t.blkOn blk.toNat = false)) ∧
  (blockExists blk.toNat = true → blk ≠ 13 →
    Completes (.blkCtlWrite by_ blk true) s (fun t => t.blkOn blk.toNat = true))

/-! ## Time base (chapter 3) -/

/-- R57, R58, R60, R65, R66, R71: a STEP in UNSET or FREE with every driver off loads TBS_LOAD at a cycle boundary, makes
the state FREE with TIME_VALID at 1, empties the queues of the scheduler, and lets an anchor record of reason 2 follow where
the stream runs. What it discards is every action held but reads that wait for the writes before them and the stages of the
islands' own paths (`State.discards`), and every message of a queue: where no measurement unit is enabled and no calibration
sequence runs, nothing else is held after it, and STEP_DROP sets and TBS_LATE_CNT rises by their number, where there is at
least one, and neither changes where there is none. In any other state, or with a driver on, the STEP is refused: VAL_REJECT
sets, FS 5 is raised, and count and time-base state stay.
That bits [6:0] of TBS_LOAD are not loaded is the model's reading of R57, log entry 67. -/
def Obligations.TimeBaseStep : Prop := ∀ (by_ : Issuer) (s : State),
  ((s.tbState = tbUnset ∨ s.tbState = tbFree) → s.anyDriver = false →
    Completes (.tbsStep by_) s (fun t =>
      t.count = Count.cycleStart (BitVec.ofNat 72 (s.wide aTBS_LOAD 3)) ∧ t.tbState = tbFree ∧
      t.bit aTBS_STATE fTBS_STATE_TIME_VALID = true ∧ t.sched.queues = [] ∧
      (s.bit aACQ_STAT fACQ_STAT_RUN = true → (⟨t.count, anchorRec t 2, []⟩ : HeldRec) ∈ (t.stream 0).held))) ∧
  ((s.tbState = tbUnset ∨ s.tbState = tbFree) → s.anyDriver = false →
    (∀ (isl : Isl) (u : UnitNo), (s.mu isl.val u.val).next = none) → (∀ q : Fin 4, s.seqRuns q.val = false) →
    Completes (.tbsStep by_) s (fun t =>
      (∀ d ∈ t.agenda, d.act.inIsland = true ∨ ∃ e ∈ s.agenda, d.act = e.act ∧ s.discards e = false) ∧
      ((s.agenda.filter s.discards = [] ∧ s.sched.queues = []) →
        t.reg aTBS_LATE = s.reg aTBS_LATE ∧ t.reg aTBS_LATE_CNT = s.reg aTBS_LATE_CNT) ∧
      (s.agenda.filter s.discards ≠ [] → t.bit aTBS_LATE fTBS_LATE_STEP_DROP = true ∧
        (t.reg aTBS_LATE_CNT).toNat = min 0xFFFFFFFF ((s.reg aTBS_LATE_CNT).toNat +
          ((s.agenda.filter s.discards).length + s.sched.queues.foldl (fun a q => a + q.2.length) 0))))) ∧
  (¬ ((s.tbState = tbUnset ∨ s.tbState = tbFree) ∧ s.anyDriver = false) →
    Completes (.tbsStep by_) s (fun t =>
      t.count = s.count ∧ t.tbState = s.tbState ∧ (t.reg 0x100008).getLsbD 2 = true ∧ (∃ isl, Raises 5 isl s t) ∧
      KeepsRegs [0x100008, 0x10000C] s t ∧ KeepsMemory s t))

/-- R60, R303: an ANCHOR command, and a count whose bits [39:0] are zero, put one time-anchor record of class A, with its
reason, among the records held for the present count; no register and no memory changes. At any other count
ANCHOR_PERIODIC does nothing.
R62, R63, R427: at a multiple of 65,536 cycles the master originates a time message with its own count, PATH 0 and HOP 0,
and keeps in LR_RLAT the PATH of its messages on their return. A module that is not the master passes a good time message of
ORIGIN 0 on with HOP raised by one and CABLE and its pass-through latency
(a free value, at most 250 ns, log entry 12) added to PATH. With SRC at RING, the message's count plus PATH plus CABLE is
the reference: TBS_PATH, TBS_HOP and TBS_PHERR show it, and where the state is UNSET the count is stepped to it and the
state becomes ACQUIRE (R65, R66). R429: a message with a bad CRC is discarded: RINGERR and FS 100.
R70: where one is due, a TIME frame of the col link carries LINKT and RXT; at its arrival a standby shows the delay of R70
in TBS_COLD, from its own frame that RXT answers, and an active none.
Readings of the model: log entries 14, 15, 67. -/
def Obligations.TimeAnchorsAndMessages : Prop :=
  (∀ (s : State), s.bit aACQ_STAT fACQ_STAT_RUN = true →
  (Completes .tbsAnchor s (fun t => (⟨s.count, anchorRec s 3, []⟩ : HeldRec) ∈ (t.stream 0).held ∧
    (∀ r ∈ (s.stream 0).held, r ∈ (t.stream 0).held) ∧ KeepsRegs [] s t ∧ KeepsMemory s t)) ∧
  (s.count.toNat % 2 ^ 40 = 0 →
    Completes .anchorPeriodic s (fun t => (⟨s.count, anchorRec s 1, []⟩ : HeldRec) ∈ (t.stream 0).held ∧
    (∀ r ∈ (s.stream 0).held, r ∈ (t.stream 0).held) ∧ KeepsRegs [] s t ∧ KeepsMemory s t)) ∧
  (s.count.toNat % 2 ^ 40 ≠ 0 → Completes .anchorPeriodic s (fun t => t = s))) ∧
  (∀ (s : State) (m : RingBody) (arrival : Count),
  let ref := m.count + (m.path + BitVec.ofNat 32 (s.fld aTBS_CABLE fTBS_CABLE_CABLE)).setWidth 72
  (s.isMaster = true → s.blkOn 1 = true → s.count.toNat % 2 ^ 23 = 0 → s.bit aLNK_STAT fLNK_STAT_RING_OUT = true →
    Completes .timeMsgSend s (fun t => t.out = s.out ++ [.ring 0x01 ⟨0, false, 0, 0, 0, s.count, 0, 0, 0⟩] ∧
      KeepsRegs [] s t ∧ KeepsMemory s t)) ∧
  (s.isMaster = true → m.origin = 0 → Completes (.ringTime m true arrival) s (fun t => t.reg aLR_RLAT = m.path ∧
    t.out = s.out ∧ KeepsRegs [aLR_RLAT] s t ∧ KeepsMemory s t)) ∧
  (s.isMaster = false → m.origin = 0 → s.bit aLNK_STAT fLNK_STAT_RING_OUT = true →
    Completes (.ringTime m true arrival) s (fun t =>
      (∃ pass : Fin 48001, .ring 0x01 { m with
        hop := m.hop + 1
        path := m.path + BitVec.ofNat 32 (s.fld aTBS_CABLE fTBS_CABLE_CABLE) + BitVec.ofNat 32 pass.val } ∈ t.out) ∧
      t.fld aLR_STAT fLR_STAT_POS = (m.hop + 1).toNat)) ∧
  (s.isMaster = false → s.blkOn 1 = true → s.fld aTBS_SRC fTBS_SRC_SRC = 1 → s.tbState ≠ tbUnset →
    Completes (.ringTime m true arrival) s (fun t =>
      t.reg aTBS_PATH = m.path + BitVec.ofNat 32 (s.fld aTBS_CABLE fTBS_CABLE_CABLE) ∧
      t.fld aTBS_HOP fTBS_HOP_HOP = m.hop.toNat ∧
      t.reg aTBS_PHERR = BitVec.ofInt 32 (sat32 (ref - arrival).toInt) ∧ t.tbs.phaseRem = (ref - arrival).toInt ∧
      t.bit aTBS_STATE fTBS_STATE_REF_PRESENT = true ∧ t.count = s.count ∧ KeepsMemory s t)) ∧
  (s.isMaster = false → s.blkOn 1 = true → s.fld aTBS_SRC fTBS_SRC_SRC = 1 → s.tbState = tbUnset →
    Completes (.ringTime m true arrival) s (fun t => t.count = Count.cycleStart (s.count + (ref - arrival)) ∧
      t.tbState = tbAcquire ∧ t.bit aTBS_STATE fTBS_STATE_TIME_VALID = true ∧ t.tbs.phaseRem = 0)) ∧
  (s.isMaster = false → (s.blkOn 1 = false ∨ s.fld aTBS_SRC fTBS_SRC_SRC ≠ 1) →
    Completes (.ringTime m true arrival) s (fun t => KeepsRegs [aLR_STAT, aLR_PASS] s t ∧ KeepsMemory s t)) ∧
  (Completes (.ringTime m false arrival) s (fun t =>
    t.bit aLNK_LAT fLNK_LAT_RINGERR = true ∧ (∃ isl, Raises 100 isl s t) ∧ t.out = s.out ∧ t.count = s.count ∧
    KeepsRegs [aLNK_LAT, aLR_CRCERR] s t ∧ KeepsMemory s t)) ∧
  (s.bit aLNK_STAT fLNK_STAT_COL_UP = true → s.blkOn 1 = true → s.colDue = true →
    Completes .colTimeSend s (fun t =>
      (∃ b ∈ t.out, b = .colTime { s.colBody with
        linkt := s.count.setWidth 32
        rxt := s.tbs.colArr.getD 0 }) ∧
      t.tbs.colSent.head? = some (s.count.setWidth 32) ∧ KeepsRegs [] s t ∧ KeepsMemory s t)) ∧
  (∀ t3 : Word, s.blkOn 1 = true → s.isStandby = true → s.tbs.colSent = [t3] → m.rxt ≠ 0 →
    ((arrival.setWidth 32 - m.linkt) + (m.rxt - t3)).msb = false → s.fld aTBS_SRC fTBS_SRC_SRC ≠ 2 →
    Completes (.colTime m arrival) s (fun t =>
      t.fld aTBS_COLD fTBS_COLD_COLD = colDelay m.linkt (arrival.setWidth 32) t3 m.rxt % 2 ^ 24 ∧
      t.tbs.colArr = some (arrival.setWidth 32) ∧ KeepsRegs [aTBS_COLD, aTWN_STAT] s t ∧ KeepsMemory s t)) ∧
  (s.isStandby = false → Completes (.colTime m arrival) s (fun t => t.bit aTWN_STAT fTWN_STAT_LINK = true ∧
    KeepsRegs [aTWN_STAT] s t ∧ KeepsMemory s t)))

/-- R65, R68, R81: where HOLD_TO ms have passed without a message in ACQUIRE or LOCKED with TIME_VALID at 1, HOLDOVER is
entered and FS 9 raised; before that, HOLD_TIMEOUT does nothing. Loss of the PLL's reference in FREE, or an oven out of
regulation, raises FS 11; OVEN_READY, at which the oven is in regulation and the reference present again (the row's words in
spec/opcode_table.json), ends both causes.
R58, R67: a phase step takes one TBU off the phase error, 2ᴱ cycles after the one before at the earliest, and leaves the
count's value alone; earlier it does nothing. R56: TBS_FREQ changes by no more than TBS_FSLEW in a second, whatever it aims
at. R55: the ageing learned in 72 h of LOCKED (a free value, log entry 12) is written to TBS_AGE.
That phase steps are made in ACQUIRE and LOCKED only is the model's choice, log entry 67. -/
def Obligations.TimeBaseFaults : Prop :=
  (∀ (s : State),
  ((s.tbState = tbAcquire ∨ s.tbState = tbLocked) → s.bit aTBS_STATE fTBS_STATE_TIME_VALID = true →
    s.fld aTBS_LOCKCFG fTBS_LOCKCFG_HOLD_TO * 192000000 ≤ (s.count - s.tbs.lastMsg).toNat →
    Completes .holdTimeout s (fun t => t.tbState = tbHoldover ∧ t.bit aTBS_STATE fTBS_STATE_REF_PRESENT = false ∧
      (∃ isl, Raises 9 isl s t) ∧ t.causeStands 9 = true ∧ t.count = s.count ∧ KeepsRegs [aTBS_STATE] s t ∧
      KeepsMemory s t)) ∧
  ((s.count - s.tbs.lastMsg).toNat < s.fld aTBS_LOCKCFG fTBS_LOCKCFG_HOLD_TO * 192000000 →
    Completes .holdTimeout s (fun t => t = s)) ∧
  (Completes (.pllRefLoss true) s (fun t => t.bit aTBS_STATE fTBS_STATE_OVEN_READY = false ∧ (∃ isl, Raises 11 isl s t) ∧
    t.causeStands 11 = true ∧ KeepsRegs [aTBS_STATE] s t ∧ KeepsMemory s t)) ∧
  (s.tbState = tbFree → Completes (.pllRefLoss false) s (fun t => t.tbs.refLost = true ∧ (∃ isl, Raises 11 isl s t) ∧
    t.causeStands 11 = true ∧ KeepsRegs [] s t ∧ KeepsMemory s t)) ∧
  (Completes .ovenReady s (fun t => t.bit aTBS_STATE fTBS_STATE_OVEN_READY = true ∧ t.tbs.refLost = false ∧
    t.causeAt 11 0 = false ∧ t.causeAt 11 1 = false ∧ KeepsRegs [aTBS_STATE] s t ∧ KeepsMemory s t))) ∧
  (∀ (s : State),
  (s.tbs.phaseRem ≠ 0 → (s.tbState = tbAcquire ∨ s.tbState = tbLocked) →
    (∀ l, s.tbs.lastStep = some l → 128 * 2 ^ s.fld aTBS_PSLEW fTBS_PSLEW_E ≤ (s.count - l).toNat) →
    Completes .phaseStep s (fun t => t.tbs.phaseRem.natAbs + 1 = s.tbs.phaseRem.natAbs ∧ t.tbs.lastStep = some s.count ∧
      t.count = s.count ∧ t.tbState = s.tbState ∧ KeepsRegs [aTBS_STATE] s t ∧ KeepsMemory s t)) ∧
  (∀ l, s.tbs.lastStep = some l → (s.count - l).toNat < 128 * 2 ^ s.fld aTBS_PSLEW fTBS_PSLEW_E →
    Completes .phaseStep s (fun t => t = s)) ∧
  ((∀ l, s.tbs.lastSlew = some l → 192000000000 ≤ (s.count - l).toNat) → Completes .freqSlew s (fun t =>
    ((t.reg aTBS_FREQ).toInt - (s.reg aTBS_FREQ).toInt).natAbs ≤ s.fld aTBS_FSLEW fTBS_FSLEW_RATE ∧
    t.count = s.count ∧ t.tbs.lastSlew = some s.count ∧ KeepsRegs [aTBS_STATE, aTBS_FREQ] s t ∧ KeepsMemory s t)) ∧
  (∀ l, s.tbs.lastSlew = some l → (s.count - l).toNat < 192000000000 → Completes .freqSlew s (fun t => t = s)) ∧
  (∀ l, s.tbState = tbLocked → s.tbs.lockedFrom = some l → 259200 * 192000000000 ≤ (s.count - l).toNat →
    Completes .ageingLearned s (fun t =>
      t.reg aTBS_AGE = BitVec.ofNat 32 (Config.freeValue s.free) ∧ t.free = s.free + 1 ∧ KeepsRegs [aTBS_AGE] s t ∧
      KeepsMemory s t)))

/-! ## Pins (chapter 4) -/

/-- R71, R102, R106: DRV_EN = 1 is accepted where every condition of R106 holds (`State.mayEnable`) and waits for the first
period start at or after its due time; where one does not, TIME_VALID at 0, the island disabled, its DLL not locked or
SAFE_N low among them, it is refused with VAL_REJECT and FS 5, and the channel stays as it was. DRV_EN = 0 acts at once:
every output pin of the channel but CSL is held at its safe level.
Readings of the model: log entry 16. -/
def Obligations.DriverEnables : Prop := ∀ (by_ : Issuer) (ch : Chan) (s : State),
  (s.mayEnable ch.val = true → s.drvEn ch.val = false → Completes (.drvEnWrite by_ ch true) s (fun t =>
    t.drvEn ch.val = true ∧ (t.chan ch.val).enableDue = some s.at ∧
    KeepsRegs [aCH_CTL (islOf ch.val) (locOf ch.val)] s t ∧ KeepsMemory s t)) ∧
  (s.mayEnable ch.val = false → Completes (.drvEnWrite by_ ch true) s (fun t =>
    t.drvEn ch.val = s.drvEn ch.val ∧ (t.reg ((64 + islOf ch.val) * 0x100000 + 8)).getLsbD 2 = true ∧
    (∃ isl, Raises 5 isl s t) ∧ t.chans = s.chans ∧ KeepsMemory s t)) ∧
  ((s.bit aTBS_STATE fTBS_STATE_TIME_VALID = false ∨ s.blkOn (64 + islOf ch.val) = false ∨
      s.bit (aISL_STAT (islOf ch.val)) fISL_STAT_DLL_LOCK = false ∨ s.power.safeN = false ∨ s.twin = twHoldoff) →
    s.mayEnable ch.val = false) ∧
  (Completes (.drvEnWrite by_ ch false) s (fun t => t.drvEn ch.val = false ∧
    t.bit (aCH_STAT (islOf ch.val) (locOf ch.val)) fCH_STAT_DRV_ON = false ∧ (t.chan ch.val).since = none ∧
    (t.chan ch.val).enableDue = none ∧ (∀ k : Fin 6, t.pinHeld (islOf ch.val) (6 * locOf ch.val + k.val) = true) ∧
    KeepsRegs [aCH_CTL (islOf ch.val) (locOf ch.val), aCH_STAT (islOf ch.val) (locOf ch.val)] s t ∧ KeepsMemory s t))

/-- R91, R92, R167: a period from 48,000 TBU that the channel's LAW record allows waits for the first period start at or
after its due time; a smaller one is refused, and nothing of the channel changes. At the first start A of the channel's grid
in the present cycle the period starts; a CH_PERIOD write whose due time is at or before A takes effect there, and anchors
the new grid at A. In a cycle without a start that is still to be taken, PERIOD_START does nothing. -/
def Obligations.ChannelPeriods : Prop := ∀ (by_ : Issuer) (ch : Chan) (period : BitVec 28) (s : State),
  (48000 ≤ period.toNat → s.minPeriod ch.val ≤ period.toNat →
    (s.fixedMode ch.val = true → period.toNat = s.minPeriod ch.val) →
    Completes (.chPeriodWrite by_ ch period) s (fun t => (t.chan ch.val).newPeriod = some (s.at, period) ∧
      KeepsRegs [] s t ∧ KeepsMemory s t)) ∧
  ((period.toNat < 48000 ∨ period.toNat < s.minPeriod ch.val) →
    Completes (.chPeriodWrite by_ ch period) s (fun t => t.chans = s.chans ∧
      (t.reg ((64 + islOf ch.val) * 0x100000 + 8)).getLsbD 2 = true ∧ (∃ isl, Raises 5 isl s t) ∧ KeepsMemory s t)) ∧
  (s.startsNow ch.val = true → Completes (.periodStart ch) s (fun t =>
    (t.chan ch.val).start = some (s.periodFrom ch.val s.count) ∧ t.count = s.count ∧ KeepsMemory s t)) ∧
  (∀ (d : Count) (p : BitVec 28), s.startsNow ch.val = true → (s.chan ch.val).newPeriod = some (d, p) →
    Count.upto d (s.periodFrom ch.val s.count) = true → Completes (.periodStart ch) s (fun t =>
      t.fld (aCH_PERIOD (islOf ch.val) (locOf ch.val)) fCH_PERIOD_PERIOD = p.toNat ∧
      (t.chan ch.val).anchor = some (s.periodFrom ch.val s.count) ∧ (t.chan ch.val).newPeriod = none)) ∧
  (s.startsNow ch.val = false → Completes (.periodStart ch) s (fun t => t = s))

/-- R98, R99: a START with no code in progress sends the code in PAT_CODE from the first cycle at or after its due time, for
LEN × DIV cycles, and PAT_BUSY reads 1; a START due before the previous code's end is discarded with PAT_COLL and FS 34, and
the code runs on; one due at or after that end is no collision. At the end of a code CSL drives IDLE and PAT_BUSY reads 0;
before it, PAT_CODE_END does nothing.
R102, R105, R108: when SAFE_N takes effect every channel's DRV_EN reads 0, every output pin but CSL is held at its safe
level, SAFE_SEEN, SAFE_ACTIVE and INH.SAFE are set, each island raises FS 33, and the cause of FS 33 stands; its return
enables no channel, ends the cause and clears SAFE_ACTIVE of every island.
Readings of the model: log entry 16. -/
def Obligations.PatternsAndSafeInput : Prop :=
  (∀ (isl : Isl) (s : State),
  (s.blkOn (64 + isl.val) = true →
    (∀ c : Code, Tab.get (fun _ => none) s.codes isl.val = some c → Count.before s.at c.stop = false) →
    Completes (.patStart isl) s (fun t =>
      Tab.get (fun _ => none) t.codes isl.val = some
        { start := Count.ceilTo s.at 128
          stop := Count.ceilTo s.at 128
            + cyc (s.fld (aPAT_CFG isl.val) fPAT_CFG_LEN * s.fld (aPAT_CFG isl.val) fPAT_CFG_DIV)
          len := s.fld (aPAT_CFG isl.val) fPAT_CFG_LEN
          div := s.fld (aPAT_CFG isl.val) fPAT_CFG_DIV
          bits := BitVec.ofNat 64 (s.wide (aPAT_CODE isl.val) 2) } ∧
      t.bit (aISL_STAT isl.val) fISL_STAT_PAT_BUSY = true ∧ KeepsRegs [aISL_STAT isl.val] s t ∧ KeepsMemory s t)) ∧
  (∀ c : Code, s.blkOn (64 + isl.val) = true → Tab.get (fun _ => none) s.codes isl.val = some c →
    Count.before s.at c.stop = true →
    Completes (.patStart isl) s (fun t => t.codes = s.codes ∧ t.bit (aISL_LAT isl.val) fISL_LAT_PAT_COLL = true ∧
      (∃ i, Raises 34 i s t) ∧ KeepsRegs [aISL_LAT isl.val] s t ∧ KeepsMemory s t)) ∧
  (∀ c : Code, Tab.get (fun _ => none) s.codes isl.val = some c → Count.upto c.stop s.count = true →
    Completes (.patCodeEnd isl) s (fun t => Tab.get (fun _ => none) t.codes isl.val = none ∧
      t.cslLevel isl.val s.count = s.bit (aPAT_CFG isl.val) fPAT_CFG_IDLE ∧
      t.bit (aISL_STAT isl.val) fISL_STAT_PAT_BUSY = false ∧ KeepsRegs [aISL_STAT isl.val] s t ∧ KeepsMemory s t)) ∧
  (∀ c : Code, Tab.get (fun _ => none) s.codes isl.val = some c → Count.upto c.stop s.count = false →
    Completes (.patCodeEnd isl) s (fun t => t = s))) ∧
  (∀ (s : State),
  (Completes .safeNFall s (fun t => t.power.safeN = false ∧ (∀ ch : Chan, t.drvEn ch.val = false ∧
      t.bit (aCH_INH (islOf ch.val) (locOf ch.val)) fCH_INH_SAFE = true) ∧
    (∀ (n : Isl) (p : PinNo), p ≠ 25 → t.pinHeld n.val p.val = true) ∧
    (∀ n : Isl, t.bit (aISL_LAT n.val) fISL_LAT_SAFE_SEEN = true ∧
      t.bit (aISL_STAT n.val) fISL_STAT_SAFE_ACTIVE = true ∧ Raises 33 (Fin.ofNat 80 n.val) s t) ∧
    t.causeStands 33 = true ∧ t.count = s.count ∧ KeepsMemory s t)) ∧
  (Completes .safeNRise s (fun t => t.power.safeN = true ∧ (∀ ch : Chan, t.drvEn ch.val = s.drvEn ch.val) ∧
    t.causeAt 33 0 = false ∧ (∀ n : Isl, t.bit (aISL_STAT n.val) fISL_STAT_SAFE_ACTIVE = false) ∧ t.count = s.count ∧
    KeepsMemory s t)))

/-! ## Stamps and measurement (chapter 5) -/

/-- R121 to R124, R107: RELOCK with every driver of the island off clears DLL_LOCK and acquires again, without FS 35; with a
driver on it is refused. A comparison beyond UNLOCK_TOL of a locked DLL clears DLL_LOCK, turns the island's drivers off,
counts in DLL_LOSS and raises FS 35; one within it leaves DLL_LOCK set and shows in PHERR alone. The 1,024th successive
comparison within LOCK_TOL of a locking DLL starts the phase-balance pass; its end sets DLL_LOCK and ends the cause of FS 35.
R119, R125, R126: a TAC takes an input-role pin that the other TAC does not hold, and is enabled only after a passed
calibration. CAL of a disabled TAC with the DLL locked starts one, else it is refused. It passes with at most 4 empty codes
and a gain of 1CCDh to 2333h, and then sets the table; a failed one keeps it, sets RESULT to FAIL and raises FS 37. Each
shows its gain in TAC_GAIN. -/
def Obligations.DllAndTac : Prop :=
  (∀ (by_ : Issuer) (isl : Isl) (pherr : BitVec 8) (s : State),
  (s.blkOn (64 + isl.val) = true → (∀ c : Fin 4, s.drvEn (chanOf isl.val c.val) = false) →
    Completes (.dllRelock by_ isl) s (fun t => t.bit (aISL_STAT isl.val) fISL_STAT_DLL_LOCK = false ∧
      t.bit (aDLL_STAT isl.val) fDLL_STAT_LOCKING = true ∧ t.agenda = s.agenda ∧ t.causes = s.causes ∧
      KeepsRegs [aISL_STAT isl.val, aDLL_STAT isl.val] s t ∧ KeepsMemory s t)) ∧
  (∀ c : Fin 4, s.drvEn (chanOf isl.val c.val) = true → Completes (.dllRelock by_ isl) s (fun t =>
    t.bit (aISL_STAT isl.val) fISL_STAT_DLL_LOCK = s.bit (aISL_STAT isl.val) fISL_STAT_DLL_LOCK ∧
    (t.reg ((64 + isl.val) * 0x100000 + 8)).getLsbD 2 = true ∧ (∃ i, Raises 5 i s t) ∧ KeepsMemory s t)) ∧
  (s.blkOn (64 + isl.val) = true → s.bit (aISL_STAT isl.val) fISL_STAT_DLL_LOCK = true →
    s.fld (aDLL_CFG isl.val) fDLL_CFG_UNLOCK_TOL < pherr.toInt.natAbs →
    Completes (.dllCompare isl pherr) s (fun t => t.bit (aISL_STAT isl.val) fISL_STAT_DLL_LOCK = false ∧
      (∀ c : Fin 4, t.drvEn (chanOf isl.val c.val) = false) ∧
      (t.reg (aDLL_LOSS isl.val)).toNat = min 0xFFFFFFFF ((s.reg (aDLL_LOSS isl.val)).toNat + 1) ∧
      (∃ i, Raises 35 i s t) ∧ t.causeStands 35 = true ∧ t.count = s.count ∧ KeepsMemory s t)) ∧
  (s.blkOn (64 + isl.val) = true → s.bit (aDLL_STAT isl.val) fDLL_STAT_LOCKING = false →
    pherr.toInt.natAbs ≤ s.fld (aDLL_CFG isl.val) fDLL_CFG_UNLOCK_TOL →
    Completes (.dllCompare isl pherr) s (fun t => t.fld (aDLL_STAT isl.val) fDLL_STAT_PHERR = pherr.toNat ∧
      t.agenda = s.agenda ∧ KeepsRegs [aDLL_STAT isl.val] s t ∧ KeepsMemory s t)) ∧
  (s.blkOn (64 + isl.val) = true → s.bit (aISL_STAT isl.val) fISL_STAT_DLL_LOCK = false →
    s.bit (aDLL_STAT isl.val) fDLL_STAT_BALANCING = false → s.bit (aDLL_STAT isl.val) fDLL_STAT_LOCKING = true →
    pherr.toInt.natAbs ≤ s.fld (aDLL_CFG isl.val) fDLL_CFG_LOCK_TOL → Tab.get (fun _ => 0) s.dlls isl.val = 1023 →
    Completes (.dllCompare isl pherr) s (fun t => t.bit (aDLL_STAT isl.val) fDLL_STAT_BALANCING = true ∧
      t.bit (aDLL_STAT isl.val) fDLL_STAT_LOCKING = false ∧ t.agenda = s.agenda ∧
      KeepsRegs [aDLL_STAT isl.val] s t ∧ KeepsMemory s t)) ∧
  (s.bit (aDLL_STAT isl.val) fDLL_STAT_BALANCING = true → Completes (.dllLockDone isl) s (fun t =>
    t.bit (aISL_STAT isl.val) fISL_STAT_DLL_LOCK = true ∧ t.bit (aDLL_STAT isl.val) fDLL_STAT_LOCKED = true ∧
    t.bit (aDLL_STAT isl.val) fDLL_STAT_BALANCING = false ∧ t.causeAt 35 isl.val = false ∧
    KeepsRegs [aISL_STAT isl.val, aDLL_STAT isl.val] s t ∧ KeepsMemory s t))) ∧
  (∀ (by_ : Issuer) (isl : Isl) (tac : Fin 2) (en : Bool) (pin : BitVec 5)
    (empty : BitVec 11) (gain : BitVec 16) (table : List (BitVec 13)) (s : State),
  let taken := (s.tac isl.val (1 - tac.val)).assigned = true ∧
    s.fld (aTAC_CFG isl.val (1 - tac.val)) fTAC_CFG_PIN = pin.toNat
  (s.inRole isl.val pin.toNat = true → ¬ taken →
    (en = true → s.fld (aTAC_STAT isl.val tac.val) fTAC_STAT_RESULT = 1) →
    Completes (.tacCfgWrite by_ isl tac en pin) s (fun t =>
      t.reg (aTAC_CFG isl.val tac.val) = putF (fldWord fTAC_CFG_EN en.toNat) fTAC_CFG_PIN pin.toNat ∧
      (t.tac isl.val tac.val).assigned = true ∧ KeepsRegs [aTAC_CFG isl.val tac.val] s t ∧ KeepsMemory s t)) ∧
  ((s.inRole isl.val pin.toNat = false ∨ taken ∨
      (en = true ∧ s.fld (aTAC_STAT isl.val tac.val) fTAC_STAT_RESULT ≠ 1)) →
    Completes (.tacCfgWrite by_ isl tac en pin) s (fun t => t.tacs = s.tacs ∧
      t.reg (aTAC_CFG isl.val tac.val) = s.reg (aTAC_CFG isl.val tac.val) ∧ (∃ i, Raises 5 i s t) ∧ KeepsMemory s t)) ∧
  (s.bit (aTAC_CFG isl.val tac.val) fTAC_CFG_EN = false → s.bit (aISL_STAT isl.val) fISL_STAT_DLL_LOCK = true →
    Completes (.tacCal by_ isl tac) s (fun t => t.bit (aTAC_STAT isl.val tac.val) fTAC_STAT_CALIBRATING = true ∧
      KeepsRegs [aTAC_STAT isl.val tac.val] s t ∧ KeepsMemory s t)) ∧
  ((s.bit (aTAC_CFG isl.val tac.val) fTAC_CFG_EN = true ∨ s.bit (aISL_STAT isl.val) fISL_STAT_DLL_LOCK = false) →
    Completes (.tacCal by_ isl tac) s (fun t => t.reg (aTAC_STAT isl.val tac.val) = s.reg (aTAC_STAT isl.val tac.val) ∧
      (∃ i, Raises 5 i s t) ∧ KeepsMemory s t)) ∧
  (s.bit (aTAC_STAT isl.val tac.val) fTAC_STAT_CALIBRATING = true → empty.toNat ≤ 4 → 0x1CCD ≤ gain.toNat →
    gain.toNat ≤ 0x2333 → Completes (.tacCalDone isl tac empty gain table) s (fun t =>
      t.fld (aTAC_STAT isl.val tac.val) fTAC_STAT_RESULT = 1 ∧ t.reg (aTAC_GAIN isl.val tac.val) = gain.setWidth 32 ∧
      t.bit (aTAC_STAT isl.val tac.val) fTAC_STAT_CALIBRATING = false ∧ (t.tac isl.val tac.val).table = table ∧
      KeepsRegs [aTAC_STAT isl.val tac.val, aTAC_GAIN isl.val tac.val] s t ∧ KeepsMemory s t)) ∧
  (s.bit (aTAC_STAT isl.val tac.val) fTAC_STAT_CALIBRATING = true →
    (4 < empty.toNat ∨ gain.toNat < 0x1CCD ∨ 0x2333 < gain.toNat) →
    Completes (.tacCalDone isl tac empty gain table) s (fun t =>
      t.fld (aTAC_STAT isl.val tac.val) fTAC_STAT_RESULT = 2 ∧ t.reg (aTAC_GAIN isl.val tac.val) = gain.setWidth 32 ∧
      (∃ i, Raises 37 i s t) ∧ t.tacs = s.tacs ∧
      KeepsRegs [aTAC_STAT isl.val tac.val, aTAC_GAIN isl.val tac.val] s t ∧ KeepsMemory s t)))

/-- R115 to R118, R120, R125: a write of STP_CFG restarts the prescaler; WMODE 11b and SLOPE 11b are refused. An eligible
crossing below the prescale count only counts; at the count it is a counted event. Outside the acceptance window it counts as
discarded. Inside it, on a pin that a TAC serves or with the DLL locked, it is stamped; less than 15 cycles after the latest
stamp of the DLL, or 60 of a TAC, it counts as LOST and is not. A crossing of the slope that is not selected does nothing.
Readings of the model: log entry 17. -/
def Obligations.Stamping : Prop := ∀ (by_ : Issuer) (isl : Isl) (pin : PinNo) (data : Word) (slope : Slope) (time : Count)
    (code : BitVec 10) (s : State),
  (getF data fSTP_CFG_WMODE ≠ 3 → getF data fSTP_CFG_SLOPE ≠ 3 → getF data fSTP_CFG_RAWFMT = 0 →
    Completes (.stpCfgWrite by_ isl pin data) s (fun t =>
      t.reg (aSTP_CFG isl.val pin.val) = data &&& 0x000323FF#32 ∧ (t.stamper isl.val pin.val).eligible = 0 ∧
      KeepsRegs [aSTP_CFG isl.val pin.val] s t ∧ KeepsMemory s t)) ∧
  ((getF data fSTP_CFG_WMODE = 3 ∨ getF data fSTP_CFG_SLOPE = 3) →
    Completes (.stpCfgWrite by_ isl pin data) s (fun t =>
      t.reg (aSTP_CFG isl.val pin.val) = s.reg (aSTP_CFG isl.val pin.val) ∧ t.stampers = s.stampers ∧ t.meas = s.meas ∧
      (∃ i, Raises 5 i s t) ∧ KeepsMemory s t)) ∧
  (s.blkOn (64 + isl.val) = true → s.fld (aSTP_CFG isl.val pin.val) fSTP_CFG_SLOPE = 2 →
    (s.stamper isl.val pin.val).eligible < s.fld (aSTP_CFG isl.val pin.val) fSTP_CFG_PRESC →
    Completes (.thresholdCrossing isl pin slope time code) s (fun t =>
      (t.stamper isl.val pin.val).eligible = (s.stamper isl.val pin.val).eligible + 1 ∧ t.meas = s.meas ∧
      t.acq = s.acq ∧ KeepsRegs [] s t ∧ KeepsMemory s t)) ∧
  (s.blkOn (64 + isl.val) = true → s.fld (aSTP_CFG isl.val pin.val) fSTP_CFG_SLOPE = 2 →
    s.fld (aSTP_CFG isl.val pin.val) fSTP_CFG_PRESC ≤ (s.stamper isl.val pin.val).eligible →
    s.inWindow isl.val pin.val time = false → Completes (.thresholdCrossing isl pin slope time code) s (fun t =>
      (t.stamper isl.val pin.val).last = (s.stamper isl.val pin.val).last ∧
      (t.reg (aSTP_WDISC isl.val pin.val)).toNat = min 0xFFFFFFFF ((s.reg (aSTP_WDISC isl.val pin.val)).toNat + 1) ∧
      t.acq = s.acq ∧ KeepsRegs [aSTP_WDISC isl.val pin.val] s t ∧ KeepsMemory s t)) ∧
  (let dead := if (s.tacOf isl.val pin.val).isSome then 60 else 15
  s.blkOn (64 + isl.val) = true → s.fld (aSTP_CFG isl.val pin.val) fSTP_CFG_SLOPE = 2 →
    s.fld (aSTP_CFG isl.val pin.val) fSTP_CFG_PRESC ≤ (s.stamper isl.val pin.val).eligible →
    s.inWindow isl.val pin.val time = true →
    ((s.tacOf isl.val pin.val).isSome = true ∨ s.bit (aISL_STAT isl.val) fISL_STAT_DLL_LOCK = true) →
    ((∀ l, (s.stamper isl.val pin.val).last = some l → 128 * dead ≤ (time - l).toNat) →
      Completes (.thresholdCrossing isl pin slope time code) s (fun t =>
        t.stamper isl.val pin.val = ⟨0, some time, 0⟩ ∧ KeepsRegs [] s t ∧ KeepsMemory s t)) ∧
    (∀ l, (s.stamper isl.val pin.val).last = some l → (time - l).toNat < 128 * dead →
      Completes (.thresholdCrossing isl pin slope time code) s (fun t =>
        (t.stamper isl.val pin.val).last = some l ∧
        (t.reg (aSTP_LOST isl.val pin.val)).toNat = min 0xFFFFFFFF ((s.reg (aSTP_LOST isl.val pin.val)).toNat + 1) ∧
        t.acq = s.acq ∧ KeepsRegs [aSTP_LOST isl.val pin.val] s t ∧ KeepsMemory s t))) ∧
  (s.fld (aSTP_CFG isl.val pin.val) fSTP_CFG_SLOPE = (if slope = .rise then 1 else 0) →
    Completes (.thresholdCrossing isl pin slope time code) s (fun t => t = s))

/-- R130, R171: a disabled unit whose HOP, GATE and GPH are legal is enabled where no pair's shipping charge bars it, and its
first gate is the first on the grid at or after the due time; an illegal value refuses the enable, and nothing of the unit
changes; a disable discards its gates. R137: APPLY takes the registers' target for the first gate end at or after its due
time. -/
def Obligations.MeasurementUnits : Prop := ∀ (by_ : Issuer) (isl : Isl) (unit : UnitNo) (s : State),
  let legal := 750 ≤ s.muHop isl.val unit.val ∧ 750 ≤ s.muGate isl.val unit.val ∧
    s.muGate isl.val unit.val ≤ 15000000000 ∧ s.muGate isl.val unit.val ≤ 4 * s.muHop isl.val unit.val ∧
    s.muGph isl.val unit.val < s.muHop isl.val unit.val
  (s.bit (aMU_CTL isl.val unit.val) fMU_CTL_EN = false → legal →
    (s.twin ≠ twActive ∧ s.twin ≠ twJoining ∧ s.twin ≠ twStandby) →
    Completes (.muEnWrite by_ isl unit true) s (fun t => t.bit (aMU_CTL isl.val unit.val) fMU_CTL_EN = true ∧
      (t.mu isl.val unit.val).next = some (s.firstGate isl.val unit.val s.at) ∧
      (t.mu isl.val unit.val).gates = [] ∧ (t.mu isl.val unit.val).valid = false ∧
      KeepsRegs [aMU_CTL isl.val unit.val, aTWN_SHIPR] s t ∧ KeepsMemory s t)) ∧
  (s.bit (aMU_CTL isl.val unit.val) fMU_CTL_EN = false → ¬ legal →
    Completes (.muEnWrite by_ isl unit true) s (fun t => t.bit (aMU_CTL isl.val unit.val) fMU_CTL_EN = false ∧
      (t.reg ((64 + isl.val) * 0x100000 + 8)).getLsbD 2 = true ∧ (∃ i, Raises 5 i s t) ∧ t.meas = s.meas ∧
      KeepsMemory s t)) ∧
  (Completes (.muEnWrite by_ isl unit false) s (fun t => t.bit (aMU_CTL isl.val unit.val) fMU_CTL_EN = false ∧
    (t.mu isl.val unit.val).next = none ∧ (t.mu isl.val unit.val).gates = [] ∧
    KeepsRegs [aMU_CTL isl.val unit.val, aTWN_SHIPR] s t ∧ KeepsMemory s t)) ∧
  (Completes (.muApply by_ isl unit) s (fun t =>
    (t.mu isl.val unit.val).apply = some (s.at, s.muTarget isl.val unit.val) ∧ KeepsRegs [] s t ∧ KeepsMemory s t))

/-- R132 to R136: at the end of a gate its unit gives a result, due 128 cycles (16,384 TBU) after the gate's end, and RCNT
counts it. A gate with fewer than MIN_N stamps is STALE and repeats the latest frequency and value. A gate with at least
MIN_N stamps whose denominator is not 0 gives the regression's frequency, cut to 56 bits, and the value of the coefficient
set in force, rounded to nearest and cut to 32 bits. (No calibration sequence runs on the quadrant, no APPLY waits, no slew
runs, and the result is not late at the acquisition island.)
R134, R168, R169, R305: at its due time a result stands in MU_FRQ, MU_VAL and MU_RSTAT. Where its unit serves a path: with
LPE_SRC at LOCAL and the path's offset at 0, it is the input of that channel and quantity; with LPE_SRC at SHIPPED the input
stays the active's. (No calibration sequence runs on the quadrant.)
Readings of the model: log entries 17, 18. -/
def Obligations.Results : Prop :=
  (∀ (isl : Isl) (unit : UnitNo) (g : Gate) (gs : List Gate) (s : State),
  let n := isl.val
  let u := unit.val
  let x := s.mu n u
  let pin := if u = 8 then 24 else s.fld (aMU_BIND n u) fMU_BIND_PIN
  let cfg := s.reg (aSTP_CFG n pin)
  let f : BitVec 56 := BitVec.ofInt 56 (clampInt 0 (2 ^ 56 - 1 : Nat)
    (gateFreq g (getF cfg fSTP_CFG_PRESC + 1) (if getF cfg fSTP_CFG_SLOPE = 2 then 2 else 1)))
  s.seqRuns (n / 16) = false → ((s.openGates n u s.count).mu n u).gates = g :: gs →
  Count.before s.count g.stop = false → x.apply = none →
  Count.upto (s.count + cyc 64) (Count.cycleStart (g.stop + 16384)) = true →
  (g.cnt < s.fld (aMU_CFG n u) fMU_CFG_MIN_N →
  Completes (.gateEnd isl unit) s (fun t =>
    (∃ flags : BitVec 8, flags.getLsbD 1 = true ∧ flags.getLsbD 0 = false ∧
      (⟨g.stop + 16384, .island (Fin.ofNat 80 n), .cmd (.resultDue isl unit x.f x.y flags)⟩ : Due) ∈ t.agenda) ∧
    (t.mu n u).gates = gs ∧ (t.mu n u).staleRun = x.staleRun + 1 ∧
    (t.reg (aMU_RCNT n u)).toNat = min 0xFFFFFFFF ((s.reg (aMU_RCNT n u)).toNat + 1) ∧
    t.count = s.count ∧ KeepsMemory s t)) ∧
  (g.stale = false → s.fld (aMU_CFG n u) fMU_CFG_MIN_N ≤ g.cnt → g.cnt * g.stt - g.st * g.st ≠ 0 → x.goal = none →
    x.blend = 0 → Completes (.gateEnd isl unit) s (fun t =>
    (t.mu n u).f = f ∧ (t.mu n u).y = BitVec.ofInt 32 (sat32 (unitRound (x.base.scaled f))) ∧
    (∃ flags : BitVec 8, flags.getLsbD 1 = false ∧ flags.getLsbD 0 = true ∧
      (⟨g.stop + 16384, .island (Fin.ofNat 80 n), .cmd (.resultDue isl unit f
        (BitVec.ofInt 32 (sat32 (unitRound (x.base.scaled f)))) flags)⟩ : Due) ∈ t.agenda) ∧
    (t.mu n u).gates = gs ∧ (t.mu n u).staleRun = 0 ∧
    (t.reg (aMU_RCNT n u)).toNat = min 0xFFFFFFFF ((s.reg (aMU_RCNT n u)).toNat + 1) ∧
    t.count = s.count ∧ KeepsMemory s t))) ∧
  (∀ (isl : Isl) (unit : UnitNo) (f : BitVec 56) (y : BitVec 32) (flags : BitVec 8)
    (s : State), s.seqRuns (isl.val / 16) = false →
  Completes (.resultDue isl unit f y flags) s (fun t =>
    t.reg (aMU_VAL isl.val unit.val) = y ∧ t.reg (aMU_RSTAT isl.val unit.val) = (flags &&& 0x7F#8).setWidth 32 ∧
    t.wide (aMU_FRQ isl.val unit.val) 2 = f.toNat ∧
    (∀ (ch : Chan) (q : Fin 2), s.servesPath isl.val unit.val = some (ch.val, q.val) →
      (s.fld aLPE_SRC fLPE_SRC_SRC = 0 → s.offset ch.val q.val = 0 →
        (t.quant ch.val q.val).y = y ∧ (t.quant ch.val q.val).flags = flags ∧ (t.quant ch.val q.val).due = s.count ∧
        (t.quant ch.val q.val).valid = true) ∧
      (s.fld aLPE_SRC fLPE_SRC_SRC ≠ 0 → t.quant ch.val q.val = s.quant ch.val q.val)) ∧
    t.count = s.count))

/-! ## Monitors (chapter 6) -/

/-- R144 to R146, R149, R151: in the sample cycle of a tick, an unblanked sample of an ABOVE monitor without filter at or
above the upper edge of the band sets its comparator, one below the lower edge clears it, and one in the band keeps it; the
cause stands in the next cycle, and no latch changes in the sample cycle. In any other cycle a sample does nothing. A cause
judged that is a trip, of a monitor whose latch is 0, sets the latch in the cycle after it; the latch counts a trip and
raises FS 40, and the other latches of the island stay.
R153, R155, R156, R158: an enable takes effect at the first tick at or after its due time; where that is now, the
comparators have no state, and under SAFE_SIDE TRIP the latch sets, and for a monitor without INH nothing is posted and
nothing raised. A disable is refused while the monitor may inhibit a driven channel, and else clears EN and the comparator
states. Thresholds are written without touching states or latch, but an enabled OUTSIDE monitor refuses bands that touch. A
bound monitor still UNSETTLED after 65,536 ticks raises FS 41.
Readings of the model: log entries 19, 70. -/
def Obligations.Monitors : Prop :=
  (∀ (isl : Isl) (mon : PinNo) (v : BitVec 16) (s : State),
  let n := isl.val
  let m := mon.val
  let thr := s.monThr n m
  let next (cause : Bool) : Due :=
    ⟨Count.cycleStart s.count + cyc 1, .island (Fin.ofNat 80 n), .monCause isl mon cause false⟩
  (s.monSamples n m = true → s.fld (aMON_CFG n m) fMON_CFG_MODE = 0 → s.fld (aMON_CFG n m) fMON_CFG_FILT = 0 →
    (((2 * getF thr fMON_THR_HI + getF thr fMON_THR_HI_HYST : Nat) : Int) ≤ v.toInt →
      Completes (.monitorTick isl mon v) s (fun t => (t.mon n m).hi = some true ∧ next true ∈ t.agenda ∧
        t.reg (aMON_LAT n) = s.reg (aMON_LAT n) ∧ t.count = s.count ∧
        KeepsRegs [aMON_UNS n, aMON_STAT n m] s t ∧ KeepsMemory s t)) ∧
    (v.toInt < (2 * getF thr fMON_THR_HI : Int) - getF thr fMON_THR_HI_HYST →
      Completes (.monitorTick isl mon v) s (fun t => (t.mon n m).hi = some false ∧ next false ∈ t.agenda ∧
        t.reg (aMON_LAT n) = s.reg (aMON_LAT n) ∧ KeepsRegs [aMON_UNS n, aMON_STAT n m] s t ∧ KeepsMemory s t)) ∧
    ((2 * getF thr fMON_THR_HI : Int) - getF thr fMON_THR_HI_HYST ≤ v.toInt →
      v.toInt < ((2 * getF thr fMON_THR_HI + getF thr fMON_THR_HI_HYST : Nat) : Int) →
      Completes (.monitorTick isl mon v) s (fun t => (t.mon n m).hi = (s.mon n m).hi ∧
        KeepsRegs [aMON_UNS n, aMON_STAT n m] s t ∧ KeepsMemory s t))) ∧
  (s.monSamples n m = false → Completes (.monitorTick isl mon v) s (fun t => t = s))) ∧
  (∀ (isl : Isl) (mon : PinNo) (lo : Bool) (s : State),
  let n := isl.val
  let m := mon.val
  (s.mon n m).since.isSome = true → (s.reg (aMON_LAT n)).getLsbD m = false → s.shadowed n m = false →
    (⟨Count.cycleStart s.count + cyc 1, .island (Fin.ofNat 80 n), .monLatch isl mon lo⟩ : Due) ∈
      (s.judgeCause isl mon true lo).agenda ∧
    (let t := s.setLatch isl mon lo
     (∀ i : Fin 32, (t.reg (aMON_LAT n)).getLsbD i.val = (decide (i.val = m) || (s.reg (aMON_LAT n)).getLsbD i.val)) ∧
      (t.reg (aMON_TRIPS n m)).toNat = min 0xFFFFFFFF ((s.reg (aMON_TRIPS n m)).toNat + 1) ∧
      Raises 40 (Fin.ofNat 80 n) s t ∧ t.causeStands 40 = true ∧ t.count = s.count ∧ KeepsMemory s t)) ∧
  (∀ (by_ : Issuer) (isl : Isl) (mon : PinNo) (data : Word) (s : State),
  let n := isl.val
  let m := mon.val
  let tick := Count.ceilTo s.at (128 * s.monDiv n m)
  (s.bit (aMON_CTL n m) fMON_CTL_EN = false → s.fld (aMON_CFG n m) fMON_CFG_MODE = 0 →
    s.fld (aMON_CFG n m) fMON_CFG_FILT = 0 → s.fld (aMON_CFG n m) fMON_CFG_K ≤ s.fld (aMON_CFG n m) fMON_CFG_N →
    (tick = s.count → s.fld (aMON_CFG n m) fMON_CFG_SAFE_SIDE = 0 → s.shadowed n m = false →
      Completes (.monEnWrite by_ isl mon true) s (fun t => t.bit (aMON_CTL n m) fMON_CTL_EN = true ∧
        (t.reg (aMON_LAT n)).getLsbD m = true ∧ (t.mon n m).since = some s.count ∧ (t.mon n m).hi = none ∧
        (s.bit (aMON_BIND n m) fMON_BIND_INH = false → t.agenda = s.agenda) ∧ KeepsMemory s t)) ∧
    (tick ≠ s.count → Completes (.monEnWrite by_ isl mon true) s (fun t => t.bit (aMON_CTL n m) fMON_CTL_EN = true ∧
      (⟨tick, .island (Fin.ofNat 80 n), .monOn isl mon⟩ : Due) ∈ t.agenda ∧
      KeepsRegs [aMON_CTL n m] s t ∧ KeepsMemory s t))) ∧
  (m < 24 → s.bit (aMON_BIND n m) fMON_BIND_INH = true → s.drvEn (chanOf n (m / 6)) = true →
    Completes (.monEnWrite by_ isl mon false) s (fun t => (t.reg ((64 + n) * 0x100000 + 8)).getLsbD 2 = true ∧
      t.bit (aMON_CTL n m) fMON_CTL_EN = s.bit (aMON_CTL n m) fMON_CTL_EN ∧ (∃ i, Raises 5 i s t) ∧ KeepsMemory s t)) ∧
  (s.bit (aMON_BIND n m) fMON_BIND_INH = false →
    Completes (.monEnWrite by_ isl mon false) s (fun t => t.bit (aMON_CTL n m) fMON_CTL_EN = false ∧
      (t.mon n m).since = none ∧ (t.mon n m).hi = none ∧ t.reg (aMON_LAT n) = s.reg (aMON_LAT n) ∧ KeepsMemory s t)) ∧
  (s.fld (aMON_CFG n m) fMON_CFG_MODE ≠ 2 → Completes (.monThrWrite by_ isl mon data) s (fun t =>
    t.reg (aMON_THR n m) = data ∧ (t.mon n m).hi = (s.mon n m).hi ∧ (t.mon n m).lo = (s.mon n m).lo ∧
    (t.mon n m).history = (s.mon n m).history ∧ KeepsRegs [aMON_THR n m] s t ∧ KeepsMemory s t)) ∧
  (s.bit (aMON_CTL n m) fMON_CTL_EN = true → s.fld (aMON_CFG n m) fMON_CFG_MODE = 2 →
    bandsTouch data = true → Completes (.monThrWrite by_ isl mon data) s (fun t =>
      t.reg (aMON_THR n m) = s.reg (aMON_THR n m) ∧ (∃ i, Raises 5 i s t) ∧ KeepsMemory s t)) ∧
  (s.monTimedOut n m = true → s.monBound n m = true →
    (s.mon n m).unsettled (s.fld (aMON_CFG n m) fMON_CFG_MODE) = true →
    Completes (.monUnsettledTimeout isl mon) s (fun t => (∃ i, Raises 41 i s t) ∧ t.causeStands 41 = true ∧
      KeepsRegs [] s t ∧ KeepsMemory s t)))

/-! ## Loop engines (chapters 7 and 8) -/

/-- R15, R163, R164, R171 to R174, R177 to R180, R188: the update of a stream at its update point (`State.updateDue`), on an
engine that is idle and whose lower channels have none. With a standard law other than REST, its inputs in force and its
block's LAWID matching, H is that of the law on the channel's inputs and state, bounded by R173, and the edge set leaves
with the update's end for its period start; LCH_UPD counts. REST delivers GOFF and clears xi and ic. Without its inputs, the
update delivers GOFF, holds its state, sets NOMEAS and counts in LCH_NOM; with a block of another law it delivers GOFF, holds
its state and sets MISMATCH. Where no update is due, LOOP_UPDATE does nothing.
Readings of the model: log entries 21, 71. -/
def Obligations.LoopUpdates : Prop := ∀ (ch : Chan) (due : Count) (per index : Nat) (s : State),
  let c := ch.val
  let e := (s.lch c).eng
  let law := s.lawOf c
  let pb := s.blockBytes e (s.generation e (s.blkOf c)) (s.blkOf c)
  let o := stdLaw law pb (s.reg (aPL_SP c)).toInt (s.inputNow c 0).1.toInt (s.inputNow c 1).1.toInt (per : Int)
    ((s.reg (aLCH_RVB c)).toNat : Int) (s.reg (aLCH_DTC c)).toInt (s.lch c).xv (s.lch c).xi (s.lch c).ic (s.lch c).newLaw
  let h := boundH pb o.h (per : Int)
  let written := [aLCH_LAW c, aLCH_UPD c, aLCH_STAT c, aLCH_H c, aENG_MAXD e, aBUS_LATMAX (islOf c), aBUS_SLACK (islOf c),
    aBUS_LAT]
  (s.updateDue c = none → Completes (.loopUpdate ch none) s (fun t => t = s)) ∧
  (s.updateDue c = some (due, per, index) → e < 8 →
  (∀ k : Chan, k.val < c → (s.lch k.val).bound = true → (s.lch k.val).eng = e → s.updateDue k.val = none) →
  s.trapped e = false → (s.eng e).running = none → (s.eng e).commit = none →
  (∀ b, (s.eng e).busyUntil = some b → Count.before s.count b = false) →
  (128 * (s.ctl.lawCost law + 73) ≤ (Count.cycleStart due - s.count).toNat ∧ (Count.cycleStart due - s.count).toNat < 2 ^ 70) →
  (s.lawLacks c law = false → byteAt pb 0 = law → s.ctl.isStandard law = true → law ≠ 6 →
    Completes (.loopUpdate ch none) s (fun t =>
      t.reg (aLCH_H c) = fldWord fLCH_H_H h.toNat ∧ t.bit (aLCH_STAT c) fLCH_STAT_GOFF = false ∧
      t.bit (aLCH_STAT c) fLCH_STAT_CV = o.cv ∧ (t.lch c).area = putLawState (s.lch c).area o.xv o.xi o.ic ∧
      (⟨due, .island (engIsl e), .edges (chanFin c) false (edgeSet h (per : Int))⟩ : Due) ∈ t.agenda ∧
      (t.reg (aLCH_UPD c)).toNat = min 0xFFFFFFFF ((s.reg (aLCH_UPD c)).toNat + 1) ∧
      (t.eng e).busyUntil = some (s.count + cyc (s.ctl.lawCost law)) ∧
      t.count = s.count ∧ KeepsRegs written s t ∧ KeepsMemory s t)) ∧
  (s.lawLacks c law = false → byteAt pb 0 = law → s.ctl.isStandard law = true → law = 6 →
    Completes (.loopUpdate ch none) s (fun t =>
      t.reg (aLCH_H c) = 0 ∧ t.bit (aLCH_STAT c) fLCH_STAT_GOFF = true ∧
      (t.lch c).area = putLawState (s.lch c).area (s.lch c).xv 0 0 ∧
      (⟨due, .island (engIsl e), .edges (chanFin c) true []⟩ : Due) ∈ t.agenda ∧
      KeepsRegs written s t ∧ KeepsMemory s t)) ∧
  (s.lawLacks c law = true → Completes (.loopUpdate ch none) s (fun t =>
      t.reg (aLCH_H c) = 0 ∧ t.bit (aLCH_STAT c) fLCH_STAT_GOFF = true ∧ t.bit (aLCH_STAT c) fLCH_STAT_NOMEAS = true ∧
      t.bit aLPE_LAT fLPE_LAT_NOMEAS = true ∧ (t.lch c).area = (s.lch c).area ∧
      (t.reg (aLCH_NOM c)).toNat = min 0xFFFFFFFF ((s.reg (aLCH_NOM c)).toNat + 1) ∧
      (⟨due, .island (engIsl e), .edges (chanFin c) true []⟩ : Due) ∈ t.agenda ∧
      KeepsRegs (aLPE_LAT :: aLCH_NOM c :: written) s t ∧ KeepsMemory s t)) ∧
  (s.lawLacks c law = false → byteAt pb 0 ≠ law → Completes (.loopUpdate ch none) s (fun t =>
      t.reg (aLCH_H c) = 0 ∧ t.bit (aLCH_STAT c) fLCH_STAT_GOFF = true ∧ t.bit aLPE_LAT fLPE_LAT_MISMATCH = true ∧
      t.causeAt 49 c = ((s.lch c).mismatchRun == false || s.causeAt 49 c) ∧ (t.lch c).area = (s.lch c).area ∧
      (⟨due, .island (engIsl e), .edges (chanFin c) true []⟩ : Due) ∈ t.agenda ∧
      KeepsRegs (aLPE_LAT :: written) s t ∧ KeepsMemory s t)))

/-- R172, R188, R213, R214: an update of a disabled loop does nothing; on a TRAPPED engine the update that is due delivers GOFF
for its period start and holds its state. RESTART of a TRAPPED engine clears TRAPPED, ends its cause and keeps the state
areas; on another it does nothing. An enable of a bound channel sets EN and makes its next update the first; a disable clears
EN, and the newest delivery plays as GOFF; a channel without a LAW record refuses both; a member of a gang ignores them.
Readings of the model: log entry 21. -/
def Obligations.LoopControl : Prop := ∀ (by_ : Issuer) (ch : Chan) (eng : Eng) (en : Bool) (due : Count) (per index : Nat)
    (s : State),
  let c := ch.val
  let e := (s.lch c).eng
  (s.bit (aLCH_CTL c) fLCH_CTL_EN = false → Completes (.loopUpdate ch none) s (fun t => t = s)) ∧
  (s.updateDue c = some (due, per, index) → s.trapped e = true →
    (∀ k : Chan, k.val < c → (s.lch k.val).bound = true → (s.lch k.val).eng = e → s.updateDue k.val = none) →
    8192 ≤ (Count.cycleStart due - s.count).toNat → (Count.cycleStart due - s.count).toNat < 2 ^ 70 →
    Completes (.loopUpdate ch none) s (fun t =>
      (⟨due, .island (engIsl e), .edges (chanFin c) true []⟩ : Due) ∈ t.agenda ∧ (t.lch c).area = (s.lch c).area ∧
      t.bit (aLCH_STAT c) fLCH_STAT_GOFF = true ∧ t.reg (aLCH_H c) = 0 ∧ KeepsMemory s t)) ∧
  (s.trapped eng.val = true → Completes (.engRestart by_ eng) s (fun t => t.trapped eng.val = false ∧
    t.causeAt 51 eng.val = false ∧ (∀ k : Chan, (t.lch k.val).area = (s.lch k.val).area) ∧ t.engs = s.engs ∧
    KeepsRegs [aENG_RESTART eng.val] s t ∧ KeepsMemory s t)) ∧
  (s.trapped eng.val = false → Completes (.engRestart by_ eng) s (fun t => t = s)) ∧
  (s.follower c = false → (s.lch c).bound = true → s.bit (aLCH_CTL c) fLCH_CTL_EN = false →
    Completes (.lchEnWrite by_ ch true) s (fun t => t.bit (aLCH_CTL c) fLCH_CTL_EN = true ∧ (t.lch c).first = true ∧
      (t.lch c).since = some s.at ∧ KeepsRegs [aLCH_CTL c] s t ∧ KeepsMemory s t)) ∧
  (s.follower c = false → (s.lch c).bound = true →
    Completes (.lchEnWrite by_ ch false) s (fun t => t.bit (aLCH_CTL c) fLCH_CTL_EN = false ∧
      (t.lch c).area = (s.lch c).area ∧ (t.chan c).newest = (s.chan c).newest.map (fun d => (d.1, true, d.2.2)) ∧
      KeepsRegs [aLCH_CTL c] s t ∧ KeepsMemory s t)) ∧
  (s.follower c = false → (s.lch c).bound = false → Completes (.lchEnWrite by_ ch en) s (fun t =>
    t.bit (aLCH_CTL c) fLCH_CTL_EN = s.bit (aLCH_CTL c) fLCH_CTL_EN ∧ (t.reg 0x600008).getLsbD 2 = true ∧
    (∃ i, Raises 5 i s t) ∧ KeepsMemory s t)) ∧
  (s.follower c = true → Completes (.lchEnWrite by_ ch en) s (fun t => t = s))

/-- R176, R181, R184, R185, R208: a flip changes the active generation of an unclaimed block and of no other, and is refused
while a routine claims the inactive one; a request of a valid routine queues while fewer than 8 wait, and is refused with
eight; an abort empties the queue, ends the routine and releases its claim.
R182, R184, R188, R209, R211: on an engine that is idle, background work takes the oldest request: the routine claims its
block's inactive generation, and ENG_BGSTAT names it; with nothing queued and nothing running, nothing happens; on a TRAPPED
engine no routine runs. A routine whose microcode ends within the cycles that no update uses is over: nothing runs, and the
claim is released.
Readings of the model: log entry 22. -/
def Obligations.BlocksAndRoutines : Prop :=
  (∀ (by_ : Issuer) (blk id : BitVec 8) (eng : Eng) (k : BitVec 5) (s : State),
  let e := blk.toNat / 32
  let b := blk.toNat % 32
  ((s.reg (aLPE_CLAIM e)).getLsbD b = false → Completes (.lpeFlip by_ blk) s (fun t =>
    (∀ i : Fin 32, (t.reg (aLPE_GEN e)).getLsbD i.val = ((s.reg (aLPE_GEN e)).getLsbD i.val != decide (i.val = b))) ∧
    KeepsRegs [aLPE_GEN e] s t ∧ KeepsMemory s t)) ∧
  ((s.reg (aLPE_CLAIM e)).getLsbD b = true → Completes (.lpeFlip by_ blk) s (fun t =>
    t.reg (aLPE_GEN e) = s.reg (aLPE_GEN e) ∧ (t.reg 0x600008).getLsbD 2 = true ∧ (∃ i, Raises 5 i s t) ∧
    KeepsMemory s t)) ∧
  ((s.eng eng.val).queue.length < 8 → 0x80 ≤ id.toNat → s.ctl.lawValid id.toNat = true →
    Completes (.bgRequest by_ eng id k) s (fun t =>
      (t.eng eng.val).queue = (s.eng eng.val).queue ++ [(id.toNat, k.toNat)] ∧
      (t.eng eng.val).running = (s.eng eng.val).running ∧ KeepsRegs [aENG_STAT eng.val] s t ∧ KeepsMemory s t)) ∧
  (((s.eng eng.val).queue.length = 8 ∨ id.toNat < 0x80 ∨ s.ctl.lawValid id.toNat = false) →
    Completes (.bgRequest by_ eng id k) s (fun t => t.engs = s.engs ∧
      (t.reg 0x600008).getLsbD 2 = true ∧ (∃ i, Raises 5 i s t) ∧ KeepsMemory s t)) ∧
  ((s.eng eng.val).commit = none →
    Completes (.bgAbort by_ eng) s (fun t => (t.eng eng.val).queue = [] ∧ (t.eng eng.val).running = none ∧
      t.reg (aLPE_CLAIM eng.val) = 0 ∧ ((s.eng eng.val).running.isSome = true → t.bit aLPE_LAT fLPE_LAT_BGABORT = true) ∧
      t.agenda = s.agenda ∧
      KeepsRegs [aLPE_CLAIM eng.val, aLPE_LAT, aENG_BGPC eng.val, aENG_STAT eng.val] s t ∧ KeepsMemory s t))) ∧
  (∀ (eng : Eng) (cycles : Nat) (id k : Nat) (q : List (Nat × Nat)) (r : Routine) (m : Micro) (s : State),
  let e := eng.val
  let n := min cycles ((s.eng e).bgSpan r (Count.cycleStart s.count + cyc 1)).2
  (s.trapped e = true → Completes (.bgRoutineRun eng cycles none) s (fun t => t = s)) ∧
  ((s.eng e).running = none → (s.eng e).queue = [] → Completes (.bgRoutineRun eng cycles none) s (fun t => t = s)) ∧
  (s.bgOn e = true → (s.eng e).running = none → (s.eng e).busyUntil = none → (s.eng e).queue = (id, k) :: q → k < 32 →
    id < 256 → Completes (.bgRoutineRun eng 0 none) s (fun t =>
      (t.eng e).queue = q ∧ (t.eng e).running.map (fun x => (x.id, x.blk, x.m.commits)) = some (id, k, 0) ∧
      (t.reg (aLPE_CLAIM e)).getLsbD k = true ∧ t.fld (aENG_BGSTAT e) fENG_BGSTAT_ID = id ∧
      t.fld (aENG_BGSTAT e) fENG_BGSTAT_BLOCK = k ∧ t.bit (aENG_STAT e) fENG_STAT_BG = true ∧
      t.reg (aLPE_GEN e) = s.reg (aLPE_GEN e) ∧ t.agenda = s.agenda ∧ KeepsMemory s t)) ∧
  (s.bgOn e = true → (s.eng e).running = some r → r.blk < 32 → (s.eng e).commit = none → n ≠ 0 →
    microRun { ctl := s.ctl, id := r.id, routine := true, dir := (byteAt r.m.pb 1).testBit 0 }
      (if s.ctl.lawCost r.id = 0 then none else some (s.ctl.lawCost r.id)) none n r.m = .done m →
    m.commits = r.m.commits → Completes (.bgRoutineRun eng cycles none) s (fun t =>
      (t.eng e).running = none ∧ (t.eng e).queue = (s.eng e).queue ∧ (t.reg (aLPE_CLAIM e)).getLsbD r.blk = false ∧
      t.reg (aENG_BGPC e) = 0 ∧ t.bit (aENG_STAT e) fENG_STAT_BG = false ∧ t.agenda = s.agenda ∧
      KeepsRegs [aLPE_CLAIM e, aENG_BGPC e, aENG_STAT e] s t ∧ KeepsMemory s t)))

/-! ## Segment players (chapter 9) -/

/-- R240 to R242: SEAL of an unsealed sequence raises BUSY and names the sequence; a sealed one passes at once. At the end of
its check the sequence's bit sets and RESULT reads PASS where no check fails; the windows of its streamed segments are filled
(said here of a sequence with one) and every other byte of the plain is kept. Where a check fails, RESULT reads FAIL with the
cause, and FS 57 is raised. A command written while BUSY is refused. UNSEAL clears the bit, unless a player is on the
sequence.
Readings of the model: log entry 26. -/
def Obligations.Sealing : Prop := ∀ (seq : BitVec 12) (s : State),
  let q := seq.toNat
  let cause := s.sealCause q
  let busy := s.bit aSEG_CSTAT fSEG_CSTAT_BUSY = true
  let mine := s.fld aSEG_CSTAT fSEG_CSTAT_SEQ = q
  (¬ busy → s.isSealed q = false → Completes (.seal seq) s (fun t =>
    t.bit aSEG_CSTAT fSEG_CSTAT_BUSY = true ∧ t.fld aSEG_CSTAT fSEG_CSTAT_SEQ = q ∧ t.agenda = s.agenda ∧
    KeepsRegs [aSEG_CSTAT] s t ∧ KeepsMemory s t)) ∧
  (¬ busy → s.isSealed q = true → Completes (.seal seq) s (fun t =>
    t.bit aSEG_CSTAT fSEG_CSTAT_BUSY = false ∧ t.fld aSEG_CSTAT fSEG_CSTAT_SEQ = q ∧
    t.fld aSEG_CSTAT fSEG_CSTAT_RESULT = 1 ∧ t.agenda = s.agenda ∧ KeepsRegs [aSEG_CSTAT] s t ∧ KeepsMemory s t)) ∧
  (busy → Completes (.seal seq) s (fun t =>
    t.bit aSEG_LAT fSEG_LAT_CMDREJ = true ∧ Raises 57 islSegment s t ∧ KeepsRegs [aSEG_LAT] s t ∧ KeepsMemory s t)) ∧
  (busy → mine → cause = 0 →
    Completes (.sealDone seq) s (fun t => t.isSealed q = true ∧ t.bit aSEG_CSTAT fSEG_CSTAT_BUSY = false ∧
      t.fld aSEG_CSTAT fSEG_CSTAT_RESULT = 1 ∧ t.agenda = s.agenda ∧
      KeepsRegs [aSEG_CSTAT, aSEG_SEALED (q / 32)] s t ∧ t.hbmMem = s.hbmMem ∧ t.spill = s.spill ∧
      (∀ a b : Nat, s.plainBase .segment = some b → (∀ sid ∈ s.seqStreamed q, a < b + sdRbase (s.segDesc sid) ∨
        b + sdRbase (s.segDesc sid) + 32 * sdRsize (s.segDesc sid) ≤ a) →
        Memory.read t.sram a = Memory.read s.sram a) ∧
      (∀ sid b p : Nat, s.plainBase .segment = some b → s.seqStreamed q = [sid] → p < sdRsize (s.segDesc sid) →
        entryOk (s.streamEntry (s.segDesc sid) (p % max 1 (sdNent (s.segDesc sid)))) = true →
        Memory.readBytes t.sram (b + sdRbase (s.segDesc sid) + 32 * p) 32 =
          s.streamEntry (s.segDesc sid) (p % max 1 (sdNent (s.segDesc sid)))))) ∧
  (busy → mine → cause ≠ 0 →
    Completes (.sealDone seq) s (fun t => t.isSealed q = s.isSealed q ∧ t.bit aSEG_CSTAT fSEG_CSTAT_BUSY = false ∧
      t.fld aSEG_CSTAT fSEG_CSTAT_RESULT = 2 ∧
      t.fld aSEG_CSTAT fSEG_CSTAT_CAUSE = cause ∧ Raises 57 islSegment s t ∧ KeepsRegs [aSEG_CSTAT] s t ∧
      KeepsMemory s t)) ∧
  (¬ (busy ∧ mine) → Completes (.sealDone seq) s (fun t => t = s)) ∧
  (¬ busy → (∀ c : Chan, (s.plState c.val = plIdle ∨ s.plSeq c.val ≠ q) ∧ s.plHolds c.val ≠ some q) →
    Completes (.unseal seq) s (fun t => t.isSealed q = false ∧ t.fld aSEG_CSTAT fSEG_CSTAT_RESULT = 1 ∧
      KeepsRegs [aSEG_CSTAT, aSEG_SEALED (q / 32)] s t ∧ KeepsMemory s t)) ∧
  (∀ c : Chan, ¬ busy → s.plHolds c.val = some q →
    Completes (.unseal seq) s (fun t => t.isSealed q = s.isSealed q ∧ t.fld aSEG_CSTAT fSEG_CSTAT_RESULT = 2 ∧
      t.fld aSEG_CSTAT fSEG_CSTAT_CAUSE = 6 ∧ Raises 57 islSegment s t ∧ KeepsRegs [aSEG_CSTAT] s t ∧ KeepsMemory s t))

/-- R224, R233, R234, R237 to R239, R243: a START of a sealed sequence, its entry below COUNT, with capacity left and no
segment owned by another player, waits for the first boundary at or after its due time and drops a pending jump; one of an
unsealed sequence is refused with reason 1, one of an entry not below COUNT with reason 2, one beyond the capacity with
reason 3. A JUMP of an IDLE player is refused with reason 5; one of a playing player pends until a pass end; one of a DONE
player waits for the boundary. A STOP discards a pending jump and waits. DDSRST waits for the next boundary, and is refused
while the store is BUSY.
Readings of the model: log entries 24, 72. -/
def Obligations.PlayerCommands : Prop := ∀ (by_ : Issuer) (ch : Chan) (seq entry : BitVec 12) (m : Bool) (s : State),
  let c := ch.val
  let q := seq.toNat
  let room := s.plRuns c = true ∨ ((List.range 256).filter s.plRuns).length < s.segCap
  let refused (t : State) (reason : Nat) : Prop := t.players = s.players ∧ t.bit (aPL_LAT c) fPL_LAT_REJ = true ∧
    t.fld (aPL_REJ c) fPL_REJ_REASON = reason ∧ Raises 57 islSegment s t ∧ KeepsRegs [aPL_LAT c, aPL_REJ c] s t ∧
    KeepsMemory s t
  (s.isSealed q = true → entry.toNat < s.seqCount q → s.ownedElsewhere c q = false → room →
    Completes (.plStart by_ ch seq entry) s (fun t =>
      (t.player c).cmds.getLast? = some (s.at, .start q entry.toNat) ∧
      (t.player c).jump = none ∧ (t.player c).decided = none ∧ t.plState c = s.plState c ∧ t.agenda = s.agenda ∧
      KeepsRegs [aPL_STAT c] s t ∧ KeepsMemory s t)) ∧
  (s.isSealed q = false → Completes (.plStart by_ ch seq entry) s (fun t => refused t 1)) ∧
  (s.isSealed q = true → s.seqCount q ≤ entry.toNat → Completes (.plStart by_ ch seq entry) s (fun t => refused t 2)) ∧
  (s.isSealed q = true → entry.toNat < s.seqCount q → ¬ room →
    Completes (.plStart by_ ch seq entry) s (fun t => refused t 3)) ∧
  (s.plState c = plIdle → (s.player c).ordered = none →
    Completes (.plJump by_ ch m entry) s (fun t => refused t 5)) ∧
  (s.plState c = plPlay ∨ s.plState c = plFallback → (s.player c).ordered = none →
    (m = true → entry.toNat < s.seqCount (s.plSeq c)) →
    Completes (.plJump by_ ch m entry) s (fun t => (t.player c).jump = some (s.at, m, entry.toNat) ∧
      t.bit (aPL_STAT c) fPL_STAT_JPEND = true ∧ t.plState c = s.plState c ∧ t.agenda = s.agenda ∧
      KeepsRegs [aPL_STAT c] s t ∧ KeepsMemory s t)) ∧
  (s.plState c = plDone → (s.player c).ordered = none → (m = true → entry.toNat < s.seqCount (s.plSeq c)) →
    Completes (.plJump by_ ch m entry) s (fun t => (t.player c).cmds = [(s.at, .jump m entry.toNat)] ∧
      t.bit (aPL_STAT c) fPL_STAT_JPEND = true ∧ t.plState c = s.plState c ∧ t.agenda = s.agenda ∧
      KeepsRegs [aPL_STAT c] s t ∧ KeepsMemory s t)) ∧
  (Completes (.plStop by_ ch) s (fun t => (t.player c).cmds.getLast? = some (s.at, .stop) ∧
    (t.player c).jump = none ∧ (t.player c).decided = none ∧ t.bit (aPL_STAT c) fPL_STAT_JPEND = false ∧
    t.plState c = s.plState c ∧ KeepsRegs [aPL_STAT c] s t ∧ KeepsMemory s t)) ∧
  (s.bit aSEG_CSTAT fSEG_CSTAT_BUSY = false →
    Completes .ddsrst s (fun t => t = { s with seg := { s.seg with ddsrst := some (s.seg.ddsrst.getD s.at) } })) ∧
  (s.bit aSEG_CSTAT fSEG_CSTAT_BUSY = true → Completes .ddsrst s (fun t => t.seg = s.seg ∧
    t.bit aSEG_LAT fSEG_LAT_CMDREJ = true ∧ Raises 57 islSegment s t ∧ KeepsRegs [aSEG_LAT] s t ∧ KeepsMemory s t))

/-- R225, R231 to R233, R235: at a sample boundary a player within an entry emits the set-point of R231 for the sample
after the last, saturated to 32 bits; an IDLE player with no command due emits 0; a DDSRST that is due makes NE this
boundary's and the phase of every IDLE player 0. In a cycle that is no boundary, SAMPLE_BOUNDARY does nothing.
R242, R243: an entry of a streamed segment that arrives for the window, keeps R228 and fits it stands at its place in
the window, and every other byte reads as before; one that HBM returned with an error is not placed.
Readings of the model: log entries 24, 25, 62. -/
def Obligations.Synthesis : Prop :=
  (∀ (ch : Chan) (s : State),
  let c := ch.val
  let x := s.player c
  let y := x.advance x.cur false 0
  let quiet := x.ended = none ∧ x.segEnd = false ∧ ∀ k ∈ x.cmds, Count.upto k.1 s.count = false
  (s.twinIdle = false → s.boundaryNow = true → (∀ d, s.seg.ddsrst = some d → Count.upto d s.count = false) →
    s.plState c = plPlay → quiet → x.k ≠ 0 →
    Completes .sampleBoundary s (fun t => t.reg (aPL_SP c) = BitVec.ofInt 32 (sat32 y.level) ∧
      t.wide (aPL_PH c) 2 = y.theta ∧ (t.player c).f = y.f ∧ (t.player c).o = y.o ∧ t.count = s.count ∧
      t.hbmMem = s.hbmMem ∧ t.spill = s.spill)) ∧
  (s.twinIdle = false → s.boundaryNow = true → s.plState c = plIdle → quiet →
    Completes .sampleBoundary s (fun t => t.reg (aPL_SP c) = 0 ∧ t.plState c = plIdle ∧ (t.player c).f = 0)) ∧
  (∀ d, s.twinIdle = false → s.boundaryNow = true → s.seg.ddsrst = some d → Count.upto d s.count = true →
    Completes .sampleBoundary s (fun t => t.seg.ddsrst = none ∧
      (s.plState c = plIdle → quiet → (t.player c).phi = 0) ∧ t.wide aSEG_EPOCH 3 = s.count.toNat)) ∧
  (s.boundaryNow = false → Completes .sampleBoundary s (fun t => t = s))) ∧
  (∀ (ch : Chan) (entry : BitVec 16) (s : State),
  let c := ch.val
  let x := s.player c
  let d := s.plSeg c
  let p := (if x.k = 0 then x.pos else x.pos + 1) + entry.toNat
  let e := s.streamEntry d (p % (max 1 (sdNent d)))
  (∀ b : Nat, (s.plState c = plPlay ∨ s.plState c = plFallback) → sdStreamed d = true → s.hbmOpen = true →
    entryOk e = true → entry.toNat < sdRsize d →
    s.plainBase .segment = some b → Completes (.refillArrive ch entry true) s (fun t =>
      (t.player c).arrived.any (fun a => a.1 == p) = true ∧ t.regs = s.regs ∧ t.agenda = s.agenda ∧
      Memory.readBytes t.sram (b + sdRbase d + 32 * (p % max 1 (sdRsize d))) 32 = e ∧
      (∀ a : Nat, (a < b + sdRbase d + 32 * (p % max 1 (sdRsize d)) ∨
          b + sdRbase d + 32 * (p % max 1 (sdRsize d)) + 32 ≤ a) →
        Memory.read t.sram a = Memory.read s.sram a) ∧ t.hbmMem = s.hbmMem ∧ t.spill = s.spill)) ∧
  (Completes (.refillArrive ch entry false) s (fun t => t = s)))

/-! ## Scheduler (chapters 10 and 11) -/

/-- R278, R279, R280, R282: a push of the queue's producer, with its lead, its form and its order right, joins the tail; one to
a full queue, or behind a held push of its producer, is held; one that leads by less than 50 µs is late, FS 8; one whose OP,
CTL or ARG is wrong, one that is due before the tail, one of another producer and one while SCH is disabled are refused with
reasons 3 or 5, 4, 9 and 8, FS 66, and change no queue. Room places the push held first; where none is held for the queue,
nothing happens. The ingress takes a head that falls due within 2³⁰ TBU and holds it until its due time; a head further ahead,
or one that finds 4,096 messages held, stays; a head whose due cycle has begun is discarded as late.
Readings of the model: log entries 29, 73. -/
def Obligations.MessageQueues : Prop := ∀ (by_ : Issuer) (q : QueueNo) (m : BitVec 128) (s : State),
  let due := s.extendDue (mDue m)
  let code := producerOf by_
  let mine := s.blkOn 4 = true ∧ s.queueOf q.val code = true
  let free := s.queueFull q.val = false ∧ s.heldOf code = []
  let inOrder := ∀ l, (s.queue q.val).getLast? = some l → Count.before due l.1 = false
  let refused (r : Nat) (t : State) := t.sched = s.sched ∧ t.fld aSCH_MREJ fSCH_MREJ_REASON = r ∧
    t.fld aSCH_MREJ fSCH_MREJ_TASK = mTask m ∧ t.bit aSCH_LAT fSCH_LAT_MSG_REJ = true ∧ Raises 66 islScheduler s t ∧
    KeepsRegs [aSCH_LAT, aSCH_MREJ] s t ∧ KeepsMemory s t
  (mine → free → s.pushLate m = false → s.formReason m = 0 → inOrder →
    Completes (.qpush by_ q m) s (fun t => t.queue q.val = s.queue q.val ++ [(due, m)] ∧ t.agenda = s.agenda ∧
      t.tasks = s.tasks ∧ KeepsRegs [] s t ∧ KeepsMemory s t)) ∧
  (mine → (s.queueFull q.val = true ∨ s.heldOf code ≠ []) →
    Completes (.qpush by_ q m) s (fun t => t.heldOf code = s.heldOf code ++ [(q.val, m)] ∧
      t.queue q.val = s.queue q.val ∧ t.agenda = s.agenda ∧ KeepsRegs [] s t ∧ KeepsMemory s t)) ∧
  (mine → free → s.pushLate m = true → isForwarded by_ = false →
    Completes (.qpush by_ q m) s (fun t => t.sched = s.sched ∧ Raises 8 72 s t ∧
      t.bit aTBS_LATE fTBS_LATE_HOST = true ∧ KeepsMemory s t)) ∧
  (s.blkOn 4 = true → s.queueOf q.val code = false → s.pushLate m = false →
    Completes (.qpush by_ q m) s (refused 9)) ∧
  (s.blkOn 4 = false → Completes (.qpush by_ q m) s (refused 8)) ∧
  (mine → free → s.pushLate m = false → s.formReason m ≠ 0 →
    Completes (.qpush by_ q m) s (refused (s.formReason m))) ∧
  (mine → free → s.pushLate m = false → s.formReason m = 0 → ¬ inOrder →
    Completes (.qpush by_ q m) s (refused 4)) ∧
  (((mOp m = 0 ∨ 8 < mOp m ∨ 16 ≤ mCtl m) → s.formReason m = 3) ∧
    (mOp m = 3 → mArg m = 0 → mCtl m / 2 % 4 = 0 → s.formReason m = 3) ∧
    (mOp m = 7 → 63 < mArg m → s.formReason m = 3) ∧ (mOp m = 8 → mArg m = 0 → s.formReason m = 3)) ∧
  ((∀ c : Fin 4, ∀ x, (s.heldOf c.val).head? = some x → x.1 ≠ q.val) →
    Completes (.qpushRoom q) s (fun t => t = s)) ∧
  (s.heldOf 0 = [(q.val, m)] → (∀ c : Fin 4, c ≠ 0 → s.heldOf c.val = []) → s.blkOn 4 = true → s.queueOf q.val 0 = true →
    s.queueFull q.val = false → s.pushLate m = false → s.formReason m = 0 → inOrder →
    Completes (.qpushRoom q) s (fun t => t.queue q.val = s.queue q.val ++ [(due, m)] ∧ t.heldOf 0 = [] ∧
      t.agenda = s.agenda ∧ KeepsRegs [] s t ∧ KeepsMemory s t)) ∧
  (∀ d, (s.queue q.val).head? = some (d, m) →
    (Count.before (s.count + 1073741824#72) d = false → s.ingressHeld < 4096 →
      Count.before (Count.cycleStart d) s.count = false → Completes (.ingressTake q) s (fun t =>
        t.queue q.val = (s.queue q.val).tail ∧
        (⟨d, producerIssuer (s.fld (aSCH_QCFG q.val) fSCH_QCFG_PROD), .msg q m⟩ : Due) ∈ t.agenda ∧
        t.tasks = s.tasks ∧ KeepsRegs [] s t ∧ KeepsMemory s t)) ∧
    (Count.before (Count.cycleStart d) s.count = false →
      (Count.before (s.count + 1073741824#72) d = true ∨ 4096 ≤ s.ingressHeld) →
      Completes (.ingressTake q) s (fun t => t = s)) ∧
    (Count.before (Count.cycleStart d) s.count = true → Completes (.ingressTake q) s (fun t =>
      t.queue q.val = (s.queue q.val).tail ∧ t.tasks = s.tasks ∧ Raises 8 72 s t ∧ KeepsMemory s t))) ∧
  (s.queue q.val = [] → Completes (.ingressTake q) s (fun t => t = s))

/-- R276, R277, R281, R282, R285: POST sets and CLEAR clears bits 32 to 63 of F, but a bit that hardware has set in the same
cycle stands; ARM of a DORMANT task gives it its wait; PRIO sets BASE, and the priority in force of a task that ageing has not
raised; RESET of a task that is not live makes it DORMANT and clears it. Each, and START, CANCEL and TIMER, for a FREE task is
refused with reason 1; in a state that does not allow it, with reason 2; a wait or an argument out of range with reason 3;
a refusal changes no task and raises FS 66. Nothing else of the machine changes but the task's image in the plain.
R261, R284 to R289: CANCEL of an ARMED task ends it; of a live task it also stops its player and its loop at the boundary of
R13. TIMER of an ARMED or live task, its count not 0, arms the task timer for the expiry of the group's discipline and
clears E_DELAY and E_WTO; DELAY under TIMEOUT is refused with reason 5, an exact guard beyond 4,096 with reason 6 and FS 68; at
the expiry the flag sets. A step's timeout sets E_TIMER. A timer that is not armed, or not yet due, does nothing.
Readings of the model: log entries 28, 73. -/
def Obligations.TaskCommands : Prop :=
  (∀ (task : TaskNo) (ctl : BitVec 4) (arg : BitVec 32) (s : State),
  let n := task.toNat; let x := s.task n
  let w : BitVec 64 := (arg.setWidth 64 <<< 32) ||| (if ctl.getLsbD 1 then 0x400000#64 else 0)
      ||| (if ctl.getLsbD 2 then 0x800000#64 else 0)
  let hard := if x.setCyc = Count.cycleStart s.count then x.hardNow else 0
  let refused (r : Nat) (t : State) := t.tasks = s.tasks ∧ t.fld aSCH_MREJ fSCH_MREJ_REASON = r ∧
      t.fld aSCH_MREJ fSCH_MREJ_TASK = n ∧ t.bit aSCH_LAT fSCH_LAT_MSG_REJ = true ∧ Raises 66 islScheduler s t ∧
      KeepsRegs [aSCH_LAT, aSCH_MREJ] s t ∧ KeepsMemory s t
  (x.state ≠ .free → Completes (.taskPost task arg) s (fun t => (t.task n).f = x.f ||| (arg.setWidth 64 <<< 32) ∧
    (t.task n).state = x.state ∧ t.sched.judge.contains n = true ∧ StoresTask n s t ∧
    (FiresNone n s → KeepsRegs [] s t ∧ t.agenda = s.agenda))) ∧
  (x.state ≠ .free → Completes (.taskClear task arg) s (fun t =>
    (t.task n).f = x.f &&& ~~~ ((arg.setWidth 64 <<< 32) &&& ~~~ hard) ∧ (t.task n).state = x.state ∧ StoresTask n s t ∧
    (FiresNone n s → KeepsRegs [] s t ∧ t.agenda = s.agenda))) ∧
  (x.state = .dormant → w ≠ 0 → Completes (.taskArm task ctl arg) s (fun t => (t.task n).state = .armed ∧
    (t.task n).w = w ∧ (t.task n).all = ctl.getLsbD 0 ∧ (t.task n).f = x.f ∧
    t.sched.judge.contains n = true ∧ t.agenda = s.agenda ∧ KeepsRegs [] s t ∧ StoresTask n s t)) ∧
  (x.state ≠ .free → w = 0 → Completes (.taskArm task ctl arg) s (refused 3)) ∧
  (x.state ≠ .free → x.state ≠ .dormant → w ≠ 0 → Completes (.taskArm task ctl arg) s (refused 2)) ∧
  (x.state ≠ .free → arg.toNat ≤ 63 → Completes (.taskPrio task arg) s (fun t => (t.task n).base = arg.toNat ∧
    (t.task n).prio = (if x.raised then x.prio else arg.toNat) ∧ (t.task n).f = x.f ∧ t.sched = s.sched ∧
    KeepsRegs [] s t ∧ StoresTask n s t)) ∧
  (x.state ≠ .free → 63 < arg.toNat → Completes (.taskPrio task arg) s (refused 3)) ∧
  (x.state ≠ .free → x.state.live = false → Completes (.taskReset task) s (fun t => (t.task n).state = .dormant ∧
    (t.task n).f = 0 ∧ (t.task n).w = 0 ∧ (t.task n).loops = [0, 0, 0, 0] ∧ (t.task n).endc = 0 ∧
    (t.task n).base = x.base ∧ t.sched = s.sched ∧ KeepsRegs [] s t ∧ StoresTask n s t)) ∧
  (x.state.live = true → Completes (.taskReset task) s (refused 2)) ∧
  (x.state ≠ .free → x.state ≠ .armed → x.state.live = false → Completes (.taskCancel task) s (refused 2)) ∧
  (x.state = .free → ∀ c ∈ [Instr.taskPost task arg, .taskClear task arg, .taskArm task ctl arg, .taskStart task arg,
      .taskCancel task, .taskReset task, .taskPrio task arg, .taskTimer task true arg, .taskTimer task false arg],
    Completes c s (refused 1))) ∧
  (∀ (task : TaskNo) (guard : Bool) (arg : BitVec 32) (d : Count) (s : State),
  let n := task.toNat; let x := s.task n; let by_ : Issuer := .island islScheduler
  let due := s.placeExpiry n guard (s.at + BitVec.ofNat 72 (arg.toNat * 192000))
  let exact := guard = true ∧ s.discipline n ≠ 0
  let timed := x.state = .armed ∨ x.state.live = true
  (x.state = .armed → Completes (.taskCancel task) s (fun t => (t.task n).state = .cancelled ∧ (t.task n).endc = 4 ∧
    t.agenda = s.agenda ∧ KeepsRegs [] s t ∧ StoresTask n s t)) ∧
  (x.state.live = true → Completes (.taskCancel task) s (fun t => (t.task n).state = .cancelled ∧ (t.task n).endc = 4 ∧
    (⟨s.boundaryAfter s.count (s.stepLead n), by_, .cmd (.plStop by_ (chanFin x.chan))⟩ : Due) ∈ t.agenda ∧
    (⟨s.boundaryAfter s.count (s.stepLead n), by_, .cmd (.lchEnWrite by_ (chanFin x.chan) false)⟩ : Due) ∈ t.agenda ∧
    StoresTask n s t)) ∧
  (timed → arg ≠ 0 → (guard = true ∨ s.discipline n ≠ 1) → (exact → s.guards < 4096) →
    Completes (.taskTimer task guard arg) s (fun t => (t.task n).guardArmed = guard ∧ (t.task n).delayArmed = !guard ∧
      (t.task n).tdue = some due ∧ (t.task n).f = x.f &&& ~~~ 0xC00000#64 ∧ (t.task n).state = x.state ∧
      (⟨due, by_, .cmd (.taskTimerExpiry task)⟩ : Due) ∈ t.agenda ∧ StoresTask n s t)) ∧
  (x.state ≠ .free → arg ≠ 0 → guard = false → s.discipline n = 1 → Completes (.taskTimer task guard arg) s (fun t =>
    t.tasks = s.tasks ∧ t.fld aSCH_MREJ fSCH_MREJ_REASON = 5 ∧ Raises 66 islScheduler s t ∧
    KeepsRegs [aSCH_LAT, aSCH_MREJ] s t ∧ KeepsMemory s t)) ∧
  (timed → arg ≠ 0 → exact → 4096 + (if x.guardArmed = true then 1 else 0) ≤ s.guards →
    Completes (.taskTimer task guard arg) s (fun t => t.tasks = s.tasks ∧ t.fld aSCH_MREJ fSCH_MREJ_REASON = 6 ∧
      t.bit aSCH_LAT fSCH_LAT_TMR_FULL = true ∧ t.causeStands 68 = true ∧ Raises 66 islScheduler s t ∧
      Raises 68 islScheduler s t ∧ KeepsRegs [aSCH_LAT, aSCH_MREJ] s t ∧ KeepsMemory s t)) ∧
  (x.tdue = some d → Count.upto d s.at = true → Completes (.taskTimerExpiry task) s (fun t =>
    (t.task n).tdue = none ∧ (t.task n).f = x.f ||| (if x.guardArmed then 0x800000#64 else 0x400000#64) ∧
    (t.task n).delayArmed = false ∧ (t.task n).guardArmed = false ∧ (t.task n).state = x.state ∧ StoresTask n s t)) ∧
  ((∀ e, x.tdue = some e → Count.upto e s.at = false) → Completes (.taskTimerExpiry task) s (fun t => t = s)) ∧
  (x.sdue = some d → Count.upto d s.at = true → Completes (.stepTimeout task) s (fun t =>
    (t.task n).sdue = none ∧ (t.task n).f = x.f ||| eTimer ∧ (t.task n).state = x.state ∧ StoresTask n s t)) ∧
  ((∀ e, x.sdue = some e → Count.upto e s.at = false) → Completes (.stepTimeout task) s (fun t => t = s)))

/-- R261, R274, R283: START of a DORMANT or ARMED task, or the judgement of an ARMED one whose wait holds, makes it READY 8
cycles on, at its first step, its flag bits 0 to 31 cleared but for those that actions of the same cycle have set; where the
channel has a live task, the start leaves the task FAULTED and raises FS 67. START in any other state but FREE is refused with
reason 2. The judgement of a waiting step that finds a branch makes the task READY with that cause; one whose wait does not
hold, or one that a standby's freeze idles, changes no task. A CANCEL that met a satisfied wait in its cycle is counted (R285).
(The ready time, and the freeze, are the model's reading: DEDUCED, log entries 28 and 76.)
Readings of the model: log entries 28, 73, 76. -/
def Obligations.TaskStarts : Prop := ∀ (task : TaskNo) (arg : BitVec 32) (s : State),
  let n := task.toNat; let x := s.task n
  let keep := if x.setCyc = Count.cycleStart s.count then x.setNow else 0
  let started := fun (t : State) => (t.task n).state = .ready ∧
    (t.task n).readyAt = some (Count.cycleStart s.count + cyc 8) ∧ (t.task n).step = x.firstStep ∧
    (t.task n).f = (x.f &&& 0xFFFFFFFF00000000#64) ||| (keep &&& 0x00000000FFFFFFFF#64) ∧
    (t.task n).prio = x.base ∧ (t.task n).change.from_ = 0xFFFF ∧ (t.task n).loops = [0, 0, 0, 0] ∧
    (t.task n).endc = 0 ∧ t.agenda = s.agenda ∧ KeepsRegs [] s t ∧ StoresTask n s t
  let rejected := fun (t : State) => (t.task n).state = .faulted ∧ (t.task n).endc = 3 ∧
    t.bit aSCH_LAT fSCH_LAT_START_REJ = true ∧ Raises 67 islScheduler s t ∧ KeepsRegs [aSCH_LAT] s t ∧ StoresTask n s t
  let still := fun (t : State) => t.tasks = s.tasks ∧ t.agenda = s.agenda ∧ KeepsRegs [] s t ∧ KeepsMemory s t
  ((x.state = .dormant ∨ x.state = .armed) → s.liveTask x.chan = none → Completes (.taskStart task arg) s started) ∧
  ((x.state = .dormant ∨ x.state = .armed) → (s.liveTask x.chan).isSome = true →
    Completes (.taskStart task arg) s rejected) ∧
  (x.state ≠ .free → x.state ≠ .dormant → x.state ≠ .armed → Completes (.taskStart task arg) s (fun t =>
    t.tasks = s.tasks ∧ t.fld aSCH_MREJ fSCH_MREJ_REASON = 2 ∧ t.fld aSCH_MREJ fSCH_MREJ_TASK = n ∧
    t.bit aSCH_LAT fSCH_LAT_MSG_REJ = true ∧ Raises 66 islScheduler s t ∧ KeepsRegs [aSCH_LAT, aSCH_MREJ] s t ∧
    KeepsMemory s t)) ∧
  (s.twinIdle = true → Completes (.taskJudge task) s still) ∧
  (s.twinIdle = false → x.cancelCyc = some (Count.cycleStart s.count) → Completes (.taskJudge task) s (fun t =>
    (t.reg aSCH_RCCNT).toNat = (if x.waitHolds = true then min 0xFFFFFFFF ((s.reg aSCH_RCCNT).toNat + 1)
      else (s.reg aSCH_RCCNT).toNat) ∧ (t.task n).state = x.state ∧ t.agenda = s.agenda ∧ KeepsRegs [aSCH_RCCNT] s t ∧
    StoresTask n s t)) ∧
  (s.twinIdle = false → x.cancelCyc ≠ some (Count.cycleStart s.count) →
    (x.state = .armed → x.waitHolds = true → s.liveTask x.chan = none → Completes (.taskJudge task) s started) ∧
    (x.state = .armed → x.waitHolds = true → (s.liveTask x.chan).isSome = true →
      Completes (.taskJudge task) s rejected) ∧
    (x.state = .armed → x.waitHolds = false → Completes (.taskJudge task) s still) ∧
    (x.state = .waiting → x.stepWait = true → judgeStep x.record x.f = none → Completes (.taskJudge task) s still) ∧
    (∀ step cause, x.state = .waiting → x.stepWait = true → x.change.startAt = none →
      judgeStep x.record x.f = some (step, cause) →
      Completes (.taskJudge task) s (fun t => (t.task n).state = .ready ∧
        (t.task n).readyAt = some (Count.cycleStart s.count + cyc 8) ∧ (t.task n).change.cause = cause ∧
        (t.task n).change.from_ = x.step ∧ (t.task n).change.flags = x.f ∧ (t.task n).f = x.f ∧
        (t.task n).step = x.step ∧ t.agenda = s.agenda ∧ KeepsRegs [] s t ∧ StoresTask n s t)))

/-- R290 to R294: a free step engine takes the best task that is dispatchable and eligible there: it runs, its priority in
force is BASE again, DISP counts; with none, nothing is taken. At a yield point a signalled engine begins to SAVE its task's
context. When its work has ended, the task is STAGED and the engine is free; a commit cycle already past is late.
R13, R262, R263, R265, R266, R275, R286: a staged change commits: the task WAITS, and its step start is the first sample
boundary at least the step lead after, with the START of the step's player due there. At the step start a RUN step is in force
with its wait, its timeout armed, and F bits 16 to 21, and with CLRHW 0 to 15, cleared but for those set at the same TBU; an
END step has the same clears and leaves the task DONE, and its chain target starts, or is refused with reason 7; an invalid
record leaves the task FAULTED and raises FS 64, a branch by violation raises FS 65. A change committed before a CANCEL has its
step start and leaves the task as it is. R295: an overdue READY task takes UPRIO, and FS 69 is raised.
Readings of the model: log entries 27, 73. -/
def Obligations.StepEngines : Prop :=
  (∀ (eng : StepEng) (n : Nat) (s : State),
  let e := eng.val; let s0 := s.settle; let x := s.ste e
  let ended := x.task = some n ∧ x.saving = false ∧ s.steRest e = []
  ((s0.ste e).task = none → s0.schedOn = true → s0.bestTask (s0.readyFor e) = some n →
    Completes (.taskDispatch eng) s (fun t => (t.task n).state = .running ∧ (t.task n).prio = (s0.task n).base ∧
      (t.task n).step = (s0.task n).change.dest ∧ (t.ste e).task = some n ∧
      (t.ste e).start = Count.cycleStart s.count ∧
      (t.ste e).plan = (1, if (s0.task n).ctx then 16 else 8) :: (s0.task n).change.plan ∧
      (t.reg (aSTE_DISP e)).toNat = min 0xFFFFFFFF ((s0.reg (aSTE_DISP e)).toNat + 1) ∧ t.agenda = s.agenda ∧
      KeepsRegs [aSTE_DISP e] s t ∧ StoresTask n s0 t)) ∧
  (((s0.ste e).task.isSome = true ∨ s0.schedOn = false ∨ s0.bestTask (s0.readyFor e) = none) →
    Completes (.taskDispatch eng) s (fun t => t = s0)) ∧
  (x.task = some n → x.signalled = true → yieldsAt x.plan (cyclesFrom x.start s.count) = true → s.steRest e ≠ [] →
    Completes (.yieldPoint eng) s (fun t => (t.ste e).saving = true ∧ (t.ste e).plan = [(6, 8)] ∧
      (t.ste e).signalled = false ∧ (t.task n).ctx = true ∧ (t.task n).state = (s.task n).state ∧
      (t.reg (aSTE_DISPL e)).toNat = min 0xFFFFFFFF ((s.reg (aSTE_DISPL e)).toNat + 1) ∧
      KeepsRegs [aSTE_DISPL e] s t ∧ StoresTask n s t)) ∧
  ((x.signalled = false ∨ x.task = none ∨ s.steRest e = []) → Completes (.yieldPoint eng) s (fun t => t = s)) ∧
  (ended → Count.before (s.task n).change.commitAt (Count.cycleStart s.count) = false →
    Completes (.stageDone eng) s (fun t => (t.task n).state = .staged ∧ (t.ste e).task = none ∧ t.agenda = s.agenda ∧
      KeepsRegs [] s t ∧ StoresTask n s t)) ∧
  (ended → Count.before (s.task n).change.commitAt (Count.cycleStart s.count) = true →
    Completes (.stageDone eng) s (fun t => (t.task n).state = .waiting ∧ (t.ste e).task = none ∧
      (t.task n).change.startAt = some (s.boundaryAfter s.count (s.stepLead n)) ∧ Raises 8 72 s t ∧
      t.bit aTBS_LATE fTBS_LATE_INTERNAL = true ∧
      (t.reg (aSTE_LATE e)).toNat = min 0xFFFFFFFF ((s.reg (aSTE_LATE e)).toNat + 1) ∧ StoresTask n s t)) ∧
  ((x.task = none ∨ x.saving = true ∨ s.steRest e ≠ []) → Completes (.stageDone eng) s (fun t => t = s))) ∧
  (∀ (task : TaskNo) (start : Count) (s : State),
  let n := task.toNat; let x := s.task n; let c := x.change; let r := c.record
  let at_ := s.boundaryAfter s.count (s.stepLead n); let by_ : Issuer := .island islScheduler
  let set := (if x.setCyc = Count.cycleStart s.count then x.setNow else 0) &&& ~~~ 0xF0000#64
  let f := (x.f &&& ~~~ ((if (rFlags r).testBit 0 then 0x3FFFFF#64 else 0x3F0000#64) &&& ~~~ set)) |||
    (if c.loopHit then eLoop else 0)
  let starts := x.left = none ∧ c.startAt = some start ∧ Count.before s.count start = false
  (x.state = .staged → Count.upto c.commitAt s.count = true → s.twinIdle = false →
    Completes (.stepCommit task) s (fun t => (t.task n).state = .waiting ∧ (t.task n).change.startAt = some at_ ∧
      (⟨at_, by_, .cmd (.stepStart task)⟩ : Due) ∈ t.agenda ∧
      (c.invalid = false → rMode r = mRun → rSeq r ≤ 4095 →
        (⟨at_, by_, .cmd (.plStart by_ (chanFin x.chan) (BitVec.ofNat 12 (rSeq r)) (BitVec.ofNat 12 (rEntry r)))⟩ : Due)
          ∈ t.agenda) ∧
      (c.invalid = true → (⟨at_, by_, .cmd (.plStop by_ (chanFin x.chan))⟩ : Due) ∈ t.agenda ∧
        (⟨at_, by_, .cmd (.lchEnWrite by_ (chanFin x.chan) false)⟩ : Due) ∈ t.agenda) ∧ StoresTask n s t)) ∧
  ((x.state ≠ .staged ∨ Count.upto c.commitAt s.count = false ∨ s.twinIdle = true) →
    Completes (.stepCommit task) s (fun t => t = s)) ∧
  (starts → c.invalid = false → rMode r ≠ mEnd → Completes (.stepStart task) s (fun t =>
    (t.task n).state = x.state ∧ (t.task n).record = r ∧
    (t.task n).w = stepWait r ∧ (t.task n).stepWait = true ∧ (t.task n).change.startAt = none ∧ (t.task n).f = f ∧
    (t.task n).aged = false ∧
    (t.task n).sdue = (if rTimeout r = 0 then none else some (start + BitVec.ofNat 72 (rTimeout r * 192000000))) ∧
    (rTimeout r ≠ 0 →
      (⟨start + BitVec.ofNat 72 (rTimeout r * 192000000), by_, .cmd (.stepTimeout task)⟩ : Due) ∈ t.agenda) ∧
    (c.cause = 6 → Raises 65 islScheduler s t) ∧ StoresTask n s t)) ∧
  (starts → c.invalid = false → rMode r = mEnd → Completes (.stepStart task) s (fun t =>
    (t.task n).state = .done ∧ (t.task n).endc = 1 ∧ (t.task n).f = f ∧ (x.chain = 0xFFFF → StoresTask n s t) ∧
    (x.chain ≠ 0xFFFF → x.chain ≠ n → (s.task x.chain).state = .dormant →
      (∀ p ∈ s.tasks, p.2.state.live = true → p.2.chan = s.leader (s.task x.chain).chan → p.1 = n) →
      (t.task x.chain).state = .ready) ∧
    (x.chain ≠ 0xFFFF → x.chain ≠ n → (s.task x.chain).state ≠ .dormant → (s.task x.chain).state ≠ .armed →
      t.fld aSCH_MREJ fSCH_MREJ_REASON = 7 ∧ t.fld aSCH_MREJ fSCH_MREJ_TASK = x.chain % 65536 ∧
      Raises 66 islScheduler s t))) ∧
  (starts → c.invalid = true →
    Completes (.stepStart task) s (fun t => (t.task n).state = .faulted ∧ (t.task n).endc = 2 ∧
      Raises 64 islScheduler s t ∧ StoresTask n s t)) ∧
  (x.left = none → (∀ d, c.startAt = some d → Count.before s.count d = true) →
    Completes (.stepStart task) s (fun t => t = s)) ∧
  (∀ l, x.left = some l → c.startAt = none → l.startAt = some start → Count.upto start s.count = true →
    Completes (.stepStart task) s (fun t => (t.task n).left = none ∧ (t.task n).state = x.state ∧ (t.task n).f = x.f ∧
      (l.invalid = true → Raises 64 islScheduler s t) ∧ StoresTask n s t)) ∧
  (s.overAge n = true → Completes (.taskAgeing task) s (fun t => (t.task n).aged = true ∧
    (t.task n).prio = s.fld aSCH_BAND fSCH_BAND_UPRIO ∧ Raises 69 islScheduler s t ∧
    t.bit aSCH_LAT fSCH_LAT_AGED = true ∧
    (t.reg aSCH_AGECNT).toNat = min 0xFFFFFFFF ((s.reg aSCH_AGECNT).toNat + 1))) ∧
  (s.overAge n = false → Completes (.taskAgeing task) s (fun t => t = s)))

/-! ## Acquisition and excursions (chapter 12) -/

/-- R313 to R315, R427, R428: the arming master's ARM of an idle trigger goes to the ring and arms at A; a module that is not
the arming master, or whose trigger is armed or about to be, refuses it with VAL_REJECT. DISARM ends an arming, and the master
tells the line. A FIRE of an armed trigger, not before A, counts for the decision at f + W, and the first of an arming goes to
the ring unless the module is a standby; of a trigger that is idle, or before A, nothing happens.
R313, R315, R426, R427, R429: a message of another module with a good CRC goes on with HOP raised; ARM arms at A, or is late
after A; DISARM ends the arming at its due time, at once where that has passed; FIRE counts while the trigger is armed, or is
late after f + W. A module's own message is removed; one with a bad CRC is not used, sets RINGERR, counts and raises FS 100.
A write that the active has forwarded is no action on a standby.
Readings of the model: log entries 31, 33, 74, 77. -/
def Obligations.TriggerCommands : Prop :=
  (∀ (by_ : Issuer) (t : Fin 8) (a : Count) (s : State),
  let x := s.trig t.val
  let passed := isForwarded by_ = true ∧ s.isStandby = true
  let body : RingBody := ⟨t, s.bit (aTRG_CTL t.val) fTRG_CTL_AUTO, BitVec.ofNat 16 s.ringPos, 0, 0, a,
    s.reg (aTRG_TO t.val), 0, 0⟩
  let sent (mtype : Byte) (m : RingBody) (u : State) :=
    if s.bit aLNK_STAT fLNK_STAT_RING_OUT = true then u.out = s.out ++ [.ring mtype m] else u.out = s.out
  (passed → ∀ c ∈ [Instr.trgArm by_ t a, .trgDisarm by_ t, .trgFire by_ t], Completes c s (fun u => u = s)) ∧
  (¬ passed → s.isArmMaster = true → x.armed = none → s.arming t = false → Completes (.trgArm by_ t a) s (fun u =>
    (⟨a, .island islAcquisition, .arm t a (s.reg (aTRG_TO t.val)) (s.bit (aTRG_CTL t.val) fTRG_CTL_AUTO)⟩ : Due)
      ∈ u.agenda ∧ sent 0x02 body u ∧ u.acq = s.acq ∧ KeepsRegs [] s u ∧ KeepsMemory s u)) ∧
  (¬ passed → (s.isArmMaster = false ∨ x.armed ≠ none ∨ s.arming t = true) → Completes (.trgArm by_ t a) s (fun u =>
    u.acq = s.acq ∧ u.out = s.out ∧ (u.reg 0xA00008).getLsbD 2 = true ∧ (∃ i, Raises 5 i s u) ∧
    KeepsRegs [0xA00008, 0xA0000C] s u ∧ KeepsMemory s u)) ∧
  (¬ passed → Completes (.trgDisarm by_ t) s (fun u => (u.trig t.val).armed = none ∧
    u.fld (aTRG_STAT t.val) fTRG_STAT_STATE = 0 ∧ u.agenda = s.agenda ∧ (s.isArmMaster = false → u.out = s.out) ∧
    (s.isArmMaster = true → sent 0x03 ⟨t, false, BitVec.ofNat 16 s.ringPos, 0, 0, s.at, 0, 0, 0⟩ u) ∧
    KeepsRegs [aTRG_STAT t.val] s u ∧ KeepsMemory s u)) ∧
  (∀ a0, ¬ passed → x.armed = some a0 → Count.before s.at a0 = false →
    Completes (.trgFire by_ t) s (fun u => (u.trig t.val).fires = x.fires ++ [⟨s.at, s.ringPos, 0xFFFF⟩] ∧
      (u.trig t.val).armed = x.armed ∧
      (⟨s.at + s.markWindow, .island islAcquisition, .cmd (.triggerDecide t)⟩ : Due) ∈ u.agenda ∧
      (x.sent = false → s.isStandby = false → (u.trig t.val).sent = true ∧
        sent 0x04 ⟨t, false, BitVec.ofNat 16 s.ringPos, 0, 0xFFFF, s.at, 0, 0, 0⟩ u) ∧
      ((x.sent = true ∨ s.isStandby = true) → u.out = s.out) ∧ KeepsRegs [] s u ∧ KeepsMemory s u)) ∧
  ((∀ a0, x.armed = some a0 → Count.before s.at a0 = true) → Completes (.trgFire by_ t) s (fun u => u = s))) ∧
  (∀ (m : RingBody) (s : State),
  let onward := fun (mtype : Byte) (u : State) =>
    if s.bit aLNK_STAT fLNK_STAT_RING_OUT = true then u.out = s.out ++ [.ring mtype { m with hop := m.hop + 1 }]
    else u.out = s.out
  let i := m.trigger.val
  (∀ c ∈ [Instr.ringArm m true, .ringDisarm m true, .ringFire m true], s.ringOwn m = true → Completes c s (fun u => u = s)) ∧
  (∀ c ∈ [Instr.ringArm m false, .ringDisarm m false, .ringFire m false], Completes c s (fun u =>
    u.bit aLNK_LAT fLNK_LAT_RINGERR = true ∧ Raises 100 islLink s u ∧ u.acq = s.acq ∧ u.out = s.out ∧
    (u.reg aLR_CRCERR).toNat = min 0xFFFFFFFF ((s.reg aLR_CRCERR).toNat + 1) ∧
    KeepsRegs [aLNK_LAT, aLR_CRCERR] s u ∧ KeepsMemory s u)) ∧
  (s.ringOwn m = false → Count.before m.count s.count = false → Completes (.ringArm m true) s (fun u => onward 0x02 u ∧
    (⟨m.count, .island islLink, .arm m.trigger m.count m.path m.auto⟩ : Due) ∈ u.agenda ∧ u.acq = s.acq ∧
    KeepsRegs [] s u ∧ KeepsMemory s u)) ∧
  (s.ringOwn m = false → Count.before m.count s.count = true → Completes (.ringArm m true) s (fun u => onward 0x02 u ∧
    Raises 8 74 s u ∧ u.bit aTBS_LATE fTBS_LATE_INTERNAL = true ∧ u.acq = s.acq ∧ KeepsMemory s u)) ∧
  (s.ringOwn m = false → Count.before s.count m.count = false → Completes (.ringDisarm m true) s (fun u => onward 0x03 u ∧
    (u.trig i).armed = none ∧ u.fld (aTRG_STAT i) fTRG_STAT_STATE = 0 ∧ u.agenda = s.agenda ∧
    KeepsRegs [aTRG_STAT i] s u ∧ KeepsMemory s u)) ∧
  (s.ringOwn m = false → Count.before s.count m.count = true → Completes (.ringDisarm m true) s (fun u => onward 0x03 u ∧
    (⟨m.count, .island islLink, .disarm m.trigger⟩ : Due) ∈ u.agenda ∧ u.acq = s.acq ∧
    KeepsRegs [] s u ∧ KeepsMemory s u)) ∧
  (∀ a, s.ringOwn m = false → (s.trig i).armed = some a → Count.before m.count a = false →
    Count.before (m.count + s.markWindow) s.count = false → Completes (.ringFire m true) s (fun u => onward 0x04 u ∧
      (u.trig i).fires = (s.trig i).fires ++ [⟨m.count, m.origin.toNat, m.chan.toNat⟩] ∧
      (⟨m.count + s.markWindow, .island islAcquisition, .cmd (.triggerDecide m.trigger)⟩ : Due) ∈ u.agenda ∧
      KeepsRegs [] s u ∧ KeepsMemory s u)) ∧
  (s.ringOwn m = false → Count.before (m.count + s.markWindow) s.count = true → Completes (.ringFire m true) s (fun u =>
    onward 0x04 u ∧ Raises 8 74 s u ∧ u.bit aTBS_LATE fTBS_LATE_INTERNAL = true ∧ u.acq = s.acq ∧ KeepsMemory s u)) ∧
  (s.ringOwn m = false → (s.trig i).armed = none → Count.before (m.count + s.markWindow) s.count = false →
    Completes (.ringFire m true) s (fun u => onward 0x04 u ∧ u.acq = s.acq ∧ u.agenda = s.agenda ∧ KeepsRegs [] s u ∧
      KeepsMemory s u)))

/-- R315, R316: at f + W the fire with the smallest f up to A + TO decides the trigger: TRG_STAT reads FIRED with its module and
channel, TRG_TIME its time, the trigger is idle again, and while the stream runs a fire record of type 24h is held with f, A
and the number of the other fires. Without such a fire, at A + TO + W, AUTO decides it FORCED at A + TO, and a trigger without
AUTO stays armed; before that nothing is decided.
Readings of the model: log entries 31, 74. -/
def Obligations.TriggerDecision : Prop := ∀ (t : Fin 8) (a : Count) (f : Fire) (s : State),
  let x := s.trig t.val
  let last := a + BitVec.ofNat 72 (192000 * x.timeout)
  let inTime := x.fires.filter (fun f => Count.upto f.time last)
  let fireRec (forced others pos ch : Nat) (time : Count) : HeldRec :=
    ⟨s.at, recBytes 0x24 (t.val + 8 * forced) ch (leBytes 2 pos) time (leBytes 8 a.toNat ++ leBytes 4 others), []⟩
  (x.armed = some a → firstFire inTime = some f →
    (Count.upto (f.time + s.markWindow) s.at = true ∨ Count.upto (last + s.markWindow) s.at = true) →
    Completes (.triggerDecide t) s (fun u => u.fld (aTRG_STAT t.val) fTRG_STAT_STATE = 3 ∧
      u.fld (aTRG_STAT t.val) fTRG_STAT_CHANNEL = f.chan % 256 ∧ u.fld (aTRG_STAT t.val) fTRG_STAT_MODULE = f.pos % 1024 ∧
      u.wide (aTRG_TIME t.val) 3 = f.time.toNat ∧ (u.trig t.val).armed = none ∧
      (s.bit aACQ_STAT fACQ_STAT_RUN = true → fireRec 0 (x.fires.length - 1) f.pos f.chan f.time ∈ (u.stream 0).held) ∧
      u.count = s.count ∧ KeepsMemory s u)) ∧
  (x.armed = some a → firstFire inTime = none → Count.before s.at (last + s.markWindow) = false → x.auto = true →
    Completes (.triggerDecide t) s (fun u => u.fld (aTRG_STAT t.val) fTRG_STAT_STATE = 4 ∧
      u.wide (aTRG_TIME t.val) 3 = last.toNat ∧ (u.trig t.val).armed = none ∧
      (s.bit aACQ_STAT fACQ_STAT_RUN = true → fireRec 1 x.fires.length 0 0xFFFF last ∈ (u.stream 0).held) ∧
      u.count = s.count ∧ KeepsMemory s u)) ∧
  (x.armed = some a → firstFire inTime = some f → Count.upto (f.time + s.markWindow) s.at = false →
    Count.upto (last + s.markWindow) s.at = false → Completes (.triggerDecide t) s (fun u => u = s)) ∧
  (x.armed = some a → firstFire inTime = none → (Count.before s.at (last + s.markWindow) = true ∨ x.auto = false) →
    Completes (.triggerDecide t) s (fun u => u = s)) ∧
  (x.armed = none → Completes (.triggerDecide t) s (fun u => u = s))

/-- R322 to R326: at a multiple of 65,536 cycles of the count, with the stream running, RATE_EVAL leaves the level where no fill
lies above HWM and not all lie below LWM, raises it by one where a fill lies above HWM and sets RATE, the first time with
FS 83, and lowers it by one where all lie below LWM; at any other time, twice in one cycle, or with the stream stopped nothing
happens. Every DPER × 2²⁰ cycles a status record is held; DPER 0 means none. At a seal instant, every SEALIV seconds, the
chunks of classes B to D close, the seal takes the next SEALNO and waits for its signature; while a copy of an excursion entry
of that time is on its way, class A's part waits 96 cycles for it.
R320, R321: a basin above SPW with 64 records moves one block to the spill store, and goes on down to SPW: SPL_WR rises, USED
counts the blocks held, the 4,096 bytes of the block's slot hold it and every other byte of the store stays; a full store
raises FS 84 once; a media error raises FS 22 and moves nothing; below SPW the mover stops, and while HBM is closed nothing
moves.
Readings of the model: log entries 32, 33, 74. -/
def Obligations.RatesSealsAndSpill : Prop :=
  (∀ (s : State),
  let hi := (s.watched (s.fld aACQ_CFG fACQ_CFG_HWM) true).any id
  let lo := (s.watched (s.fld aACQ_CFG fACQ_CFG_LWM) false).all id
  let l := s.fld aACQ_STAT fACQ_STAT_L
  let run := s.bit aACQ_STAT fACQ_STAT_RUN = true
  let once (a : Nat) (t : State) := Tab.get (fun _ => 0#32) t.fresh a ≠ 0
  let rate := run ∧ s.onPeriod aACQ_STAT (65536 * 128) = true
  let dper := s.fld aACQ_PER fACQ_PER_DPER
  let sealIv := s.fld aACQ_PER fACQ_PER_SEALIV * 192000000000
  let no : Word := BitVec.ofNat 32 s.acq.sealNext
  (rate → hi = false → lo = false → l ≤ 16 → Completes .rateEval s (fun t => t.acq = s.acq ∧ t.agenda = s.agenda ∧
    once aACQ_STAT t ∧ KeepsRegs [] s t ∧ KeepsMemory s t)) ∧
  (rate → hi = true → l < 16 → Completes .rateEval s (fun t =>
    t.fld aACQ_STAT fACQ_STAT_L = l + 1 ∧ t.bit aACQ_LAT fACQ_LAT_RATE = true ∧ t.levelB = (l + 2) / 2 ∧
    t.levelC = (l + 1) / 2 ∧ (l = 0 → Raises 83 islAcquisition s t ∧ t.causeStands 83 = true) ∧ once aACQ_STAT t ∧
    KeepsRegs [aACQ_STAT, aACQ_LAT] s t ∧ KeepsMemory s t)) ∧
  (rate → hi = false → lo = true → 1 ≤ l → l ≤ 16 → Completes .rateEval s (fun t =>
    t.fld aACQ_STAT fACQ_STAT_L = l - 1 ∧ t.bit aACQ_LAT fACQ_LAT_RATE = true ∧ t.levelB = l / 2 ∧
    t.levelC = (l - 1) / 2 ∧ (l = 1 → t.causeAt 83 0 = false) ∧ t.agenda = s.agenda ∧
    KeepsRegs [aACQ_STAT, aACQ_LAT] s t ∧ KeepsMemory s t)) ∧
  (¬ rate → Completes .rateEval s (fun t => t = s)) ∧
  (run → dper ≠ 0 → s.onPeriod aACQ_PER (dper * 2 ^ 20 * 128) = true → Completes .statusRecord s (fun t =>
    (⟨s.count, recBytes 0x70 l 0xFFFF [] s.count ((List.range 4).flatMap (fun c => leBytes 4 (s.heldRecords c)) ++
      leBytes 4 s.spillHeld), []⟩ : HeldRec) ∈ (t.stream 3).held ∧
    ((t.stream 3).held.length = (s.stream 3).held.length + 1) ∧ t.agenda = s.agenda ∧ once aACQ_PER t ∧
    KeepsRegs [] s t ∧ KeepsMemory s t)) ∧
  ((dper = 0 ∨ s.onPeriod aACQ_PER (dper * 2 ^ 20 * 128) = false) → Completes .statusRecord s (fun t => t = s)) ∧
  (run → s.onPeriod aACQ_SEALNO sealIv = true → s.copyBefore s.count = false → s.acq.seals.length < 65536 →
    Completes .sealInstant s (fun t =>
      t.acq.sealNext = s.acq.sealNext + 1 ∧ t.reg aACQ_SEALNO = no ∧
      t.acq.seals.map (fun x => (x.1, x.2.2)) = s.acq.seals.map (fun x => (x.1, x.2.2)) ++ [(no, none)] ∧ SigReq.seal no ∈ t.sec.requests.map Prod.snd ∧
      (t.stream 1).chunk = [] ∧ (t.stream 2).chunk = [] ∧ (t.stream 3).chunk = [] ∧ t.spill = s.spill)) ∧
  (run → s.onPeriod aACQ_SEALNO sealIv = true → s.copyBefore s.count = true → Completes .sealInstant s (fun t =>
    t.acq.sealNext = s.acq.sealNext ∧ (t.stream 1).chunk = [] ∧
    (∃ d ∈ t.agenda, d.due = s.count + cyc 96) ∧ t.sec = s.sec ∧ t.spill = s.spill)) ∧
  ((s.bit aACQ_STAT fACQ_STAT_RUN = false ∨ s.onPeriod aACQ_SEALNO sealIv = false) →
    Completes .sealInstant s (fun t => t = s))) ∧
  (∀ (basinB : Bool) (s : State),
  let c := if basinB then 1 else 0
  let size := s.fld (aBSN_SIZE c) ⟨31, 0⟩
  let mark := s.fld aACQ_PER fACQ_PER_SPW
  let bitF := if basinB then fACQ_STAT_SPILL_B else fACQ_STAT_SPILL_A
  let fill := s.basinFill c
  let slot := s.acq.spillNext % 62500000 * 4096
  (64 ≤ fill → mark * size < fill * 256 → s.spills c (s.bit aACQ_STAT bitF) = true) ∧
  (s.bit aACQ_STAT bitF = true → fill * 256 < mark * size → s.spills c (s.bit aACQ_STAT bitF) = false) ∧
  (s.hbmOpen = true → s.spills c (s.bit aACQ_STAT bitF) = true → s.spillFull = false →
    Completes (.spillMove basinB true) s (fun t =>
      t.wide aSPL_WR 2 = (s.wide aSPL_WR 2 + 1) % 2 ^ 64 ∧ t.acq.spillNext = s.acq.spillNext + 1 ∧
      t.fld aSPL_USED fSPL_USED_BLOCKS = (s.spillHeld + 1) % 2 ^ 26 ∧
      (t.stream c).spilled = (s.stream c).spilled ++ [(s.acq.spillNext, s.wide (aBSN_ACK c) 2)] ∧
      Memory.readBytes t.spill slot 4096 = s.basinBytes c (s.wide (aBSN_ACK c) 2) 64 ∧
      (∀ a, (a < slot ∨ slot + 4096 ≤ a) → Memory.read t.spill a = Memory.read s.spill a) ∧
      t.bit aACQ_STAT bitF = true ∧ t.sram = s.sram)) ∧
  (s.hbmOpen = true → s.spills c (s.bit aACQ_STAT bitF) = true → s.spillFull = true → s.causeStands 84 = false →
    Completes (.spillMove basinB true) s (fun t => Raises 84 islAcquisition s t ∧ t.causeStands 84 = true ∧
      KeepsRegs [] s t ∧ KeepsMemory s t)) ∧
  (s.hbmOpen = true → s.spills c (s.bit aACQ_STAT bitF) = true → s.spillFull = false →
    Completes (.spillMove basinB false) s (fun t =>
      Raises 22 islMemory s t ∧ t.acq = s.acq ∧ KeepsRegs [] s t ∧ KeepsMemory s t)) ∧
  (s.hbmOpen = true → s.spills c (s.bit aACQ_STAT bitF) = false → ∀ good : Bool,
    Completes (.spillMove basinB good) s (fun t =>
      t.bit aACQ_STAT bitF = false ∧ t.acq = s.acq ∧ t.agenda = s.agenda ∧
      KeepsRegs [aACQ_STAT] s t ∧ KeepsMemory s t)) ∧
  (s.hbmOpen = false → ∀ good : Bool, Completes (.spillMove basinB good) s (fun t => t = s)))

/-- R328, R329: while EXC is enabled an entry takes the next INDEX, shows the live task of its channel and its step, and stands
in the 32 bytes of its slot in the plain, where a structure places the region; every other byte of the plain stays, and while
the stream runs a copy of type 23h is held for class A. From the 393,217th entry on, the entry that leaves the plain moves to
the overflow region; where that holds no more, the oldest is lost: OVWR, LOST, FS 85. While EXC is disabled nothing is written.
R317, R420: the assigned port of a class, with a session whose role may read records and a credit, sends the next 1 to 4
records; a port that is not the class's, one that is down or without a session, and one without a record to send, send none.
Readings of the model: log entries 32, 74. -/
def Obligations.EntriesAndStreams : Prop := ∀ (kind detail : Byte) (ch : BitVec 16) (time : Count) (value limit : Word)
    (p : Port) (cls : Fin 4) (b : Nat) (s : State),
  let x := s.wide aEXC_WR 2
  let live := if ch = 0xFFFF then none else s.liveTask ch.toNat
  let entry := excBytes kind detail ch (live.getD 0xFFFF) ((live.map (fun n => (s.task n).step)).getD 0xFFFF) time value
    limit x
  let copied (t : State) := s.bit aACQ_STAT fACQ_STAT_RUN = true →
    (⟨s.count, recBytes 0x23 kind.toNat ch.toNat (leBytes 4 x) time entry, []⟩ : HeldRec) ∈ (t.stream 0).held
  let slot := b + x % 393216 * 32
  let y := x - 393216
  let size := s.fld aEXC_OVFSZ ⟨31, 0⟩
  (s.blkOn 11 = true → s.plainBase .excursion = some b →
    Completes (.excursionWrite kind detail ch time value limit) s (fun t => t.wide aEXC_WR 2 = (x + 1) % 2 ^ 64 ∧
      Memory.readBytes t.sram slot 32 = entry ∧
      (∀ a, (a < slot ∨ slot + 32 ≤ a) → Memory.read t.sram a = Memory.read s.sram a) ∧ t.spill = s.spill ∧ copied t ∧
      (x < 393216 → t.hbmMem = s.hbmMem ∧ t.agenda = s.agenda ∧ KeepsRegs [aEXC_WR, aEXC_WR + 4] s t) ∧
      (393216 ≤ x → size ≤ y - s.wide aEXC_OLD 2 → t.wide aEXC_OLD 2 = y + 1 - size ∧
        t.bit aEXC_LAT fEXC_LAT_OVWR = true ∧
        (t.reg aEXC_LOST).toNat = min 0xFFFFFFFF ((s.reg aEXC_LOST).toNat + 1) ∧ Raises 85 islAcquisition s t))) ∧
  (s.blkOn 11 = true → s.plainBase .excursion = none →
    Completes (.excursionWrite kind detail ch time value limit) s (fun t => t.wide aEXC_WR 2 = (x + 1) % 2 ^ 64 ∧
      copied t ∧ t.agenda = s.agenda ∧ KeepsRegs [aEXC_WR, aEXC_WR + 4] s t ∧ KeepsMemory s t)) ∧
  (s.blkOn 11 = false → Completes (.excursionWrite kind detail ch time value limit) s (fun t => t = s)) ∧
  ((s.session p.val = false ∨ s.streamPort cls.val ≠ p.val ∨ s.sends p.val = false ∨ (s.sendable cls.val).1 = 0) →
    Completes (.streamSend p cls) s (fun t => t = s)) ∧
  (let z := s.stream cls.val; let go := s.sendable cls.val; let n := min 4 go.1
   s.streamPort cls.val = p.val → s.session p.val = true → (s.rights (s.sessRole p.val)).mem.getLsbD 5 = true →
   0 < go.1 → (go.2 = true ∨ s.hbmOpen = true) → (s.link p.val).mayGo (s.sends p.val) 2 = true →
   (s.link p.val).waiting.any (fun w => w.1 == 2) = false → Completes (.streamSend p cls) s (fun t =>
     t.out = s.out ++ [.strm p cls go.2 z.sent ((List.range n).map (fun k => s.recordAt cls.val (z.sent + k)))] ∧
     (t.stream cls.val).sent = z.sent + n ∧ t.agenda = s.agenda ∧ KeepsRegs [] s t ∧ KeepsMemory s t))

/-! ## Memory (chapter 13) -/

/-- R336 to R339, R345, R348: a pseudo-channel serves, in the in-order mode, its oldest request; else one passed over by AGEMAX
later ones; else, no burst standing at its bound, the oldest row hit; else the oldest. A request that is the one its
pseudo-channel serves next completes: it leaves the queue, passes over the older ones, its latency, its hit and its bytes are
counted, and its row is closed or left open by its hint; a burst cut at its bound counts as split. A request that is not the
next one, or any while the stack is not trained, stays as it is. A request of the engines whose issue the rules leave open
joins its queue as it completes (the model's choice, log entry 35). The last line of a host read is answered with its data,
or UNCORRECTABLE, which sets ACC_REJECT in GLB (R47, R341).
R340 to R343, R351: a corrected error of a completed request or of the scrubber latches CE, counts, is logged and raises
FS 16; an uncorrectable one latches UE, counts and raises FS 17. A period of 0 stops the scrubber. The contents of HBM are the
same.
R344, R345, R348, R349: an idle pseudo-channel refreshes what it owes; a busy one owes up to 8, and a ninth splits a burst.
A rate change is refused while ACQ or SEG is enabled or the reservations exceed it; else it trains at the new rate, or after
the training that runs, which ends with the next one begun. A training that succeeds sets TRAINED and the rate in force; one
that fails raises FS 20.
Readings of the model: log entries 34, 35. -/
def Obligations.MemorySystem : Prop :=
  (∀ (req : Fin 10) (addr : BitVec 35) (v : BitVec 2) (r : HbmReq) (s : State),
  let line := addr.toNat / 64
  let found := s.hbm.queue.find? (fun r => r.requester == req.val && r.line == line && !r.held)
  let queued := s.hbmReady = true ∧ found = some r
  let joins := req.val = 3 ∨ req.val = 4 ∨ req.val = 5 ∨ 8 ≤ req.val
  let x := s.hbmPc r.pc; let q := s.hbmQueue r.pc
  let next := s.hbmPick r.pc = some r
  let calm := s.fld (aHBM_PC_DEPTH r.pc) fHBM_PC_DEPTH_POSTP < 8
  let kept := [aHBM_LAT, aHBM_SPLITS, aHBM_REQ_LMAX r.requester, aHBM_PC_INORD r.pc]
  let logs := [aMGT_LOGNEXT, aMGT_LOGNEXT + 4, aMGT_LOGOLD, aMGT_LOGOLD + 4]
  let ce := fun (t : State) => t.bit aHBM_LAT fHBM_LAT_CE = true ∧ Raises 16 islMemory s t ∧
    (t.reg aHBM_CECNT).toNat = min 0xFFFFFFFF ((s.reg aHBM_CECNT).toNat + 1) ∧
    KeepsRegs (aHBM_CECNT :: logs ++ kept) s t ∧ KeepsMemory s t
  let ue := fun (t : State) => t.bit aHBM_LAT fHBM_LAT_UE = true ∧ Raises 17 islMemory s t ∧
    (t.reg aHBM_UECNT).toNat = min 0xFFFFFFFF ((s.reg aHBM_UECNT).toNat + 1) ∧
    KeepsRegs (aHBM_UECNT :: logs ++ kept) s t ∧ KeepsMemory s t
  (s.fld aHBM_SCRUB fHBM_SCRUB_SCRUB = 0 → Completes (.scrub addr v) s (fun t => t = s)) ∧
  (Completes (.scrub addr 0) s (fun t => t = s)) ∧
  (s.fld aHBM_SCRUB fHBM_SCRUB_SCRUB ≠ 0 → Completes (.scrub addr 1) s ce ∧ Completes (.scrub addr 2) s ue) ∧
  ((x.inOrder = true → s.hbmPick r.pc = q.head?) ∧
    (x.inOrder = false → q.find? (fun z => decide (s.fld aHBM_CFG fHBM_CFG_AGEMAX ≤ z.passed)) = some r → next) ∧
    (x.inOrder = false → (∀ z ∈ q, z.passed < s.fld aHBM_CFG fHBM_CFG_AGEMAX) → s.burstSplit r.pc = false →
      (q.find? x.hit = some r → next) ∧ (q.find? x.hit = none → s.hbmPick r.pc = q.head?))) ∧
  (s.hbmReady = false → Completes (.hbmRequestDone req addr v) s (fun t => t = s)) ∧
  (queued → ¬ next → Completes (.hbmRequestDone req addr v) s (fun t => t = s)) ∧
  (s.hbmReady = true → found = none → ¬ joins → Completes (.hbmRequestDone req addr v) s (fun t => t = s)) ∧
  (queued → next → calm → req.val < 3 → Completes (.hbmRequestDone req addr 0) s (fun t =>
    t.hbm.queue = passOver r s.hbm.queue ∧ t.hbm.served.head? = some (req.val, s.count) ∧
    (t.reg (aHBM_REQ_LMAX req.val)).toNat = max (s.reg (aHBM_REQ_LMAX req.val)).toNat
      (min 0xFFFFFFFF (hbmCycles r.since s.count)) ∧
    (t.hbmPc r.pc).hits.head? = some (x.hit r) ∧
    (s.hbmHint r = 1 → Tab.get (fun _ => none) (t.hbmPc r.pc).rows r.bank = none) ∧
    (s.hbmHint r = 0 → Tab.get (fun _ => none) (t.hbmPc r.pc).rows r.bank = some (r.row, none)) ∧
    (s.burstSplit r.pc = true → req.val ≠ x.run.1 → t.bit aHBM_LAT fHBM_LAT_SPLIT = true ∧
      (t.reg aHBM_SPLITS).toNat = min 0xFFFFFFFF ((s.reg aHBM_SPLITS).toNat + 1)) ∧
    t.agenda = s.agenda ∧ KeepsRegs kept s t ∧ KeepsMemory s t)) ∧
  (queued → next → calm → req.val < 3 →
    Completes (.hbmRequestDone req addr 1) s ce ∧ Completes (.hbmRequestDone req addr 2) s ue) ∧
  (joins → s.hbm.queue = [] → s.blkOn 12 = true → s.hbmReady = true → (s.hbmRegionAt (64 * line)).isSome = true →
    (∀ k : Fin 16, s.fld (aHBM_PC_DEPTH k.val) fHBM_PC_DEPTH_POSTP < 8) →
    Completes (.hbmRequestDone req addr 0) s (fun t => t.hbm.queue = [] ∧
      t.hbm.served.head? = some (req.val, s.count) ∧ t.agenda = s.agenda ∧ KeepsMemory s t)) ∧
  (∀ rd : HbmRead, queued → next → calm → req.val = 6 + rd.port.val → r.write = false → s.hbm.reads = [rd] →
    rd.left = [line] → rd.status = 0 → (s.link rd.port.val).mayGo (s.sends rd.port.val) rd.vc.toNat = true →
    (s.link rd.port.val).waiting = [] →
    Completes (.hbmRequestDone req addr 0) s (fun t => t.hbm.reads = [] ∧
      t.out = s.out ++ [.rdr rd.port rd.vc rd.tag 0 rd.data] ∧ KeepsRegs kept s t ∧ KeepsMemory s t) ∧
    Completes (.hbmRequestDone req addr 2) s (fun t => t.hbm.reads = [] ∧
      t.out = s.out ++ [.rdr rd.port rd.vc rd.tag 7 []] ∧ (t.reg 8).getLsbD 3 = true ∧ Raises 17 islMemory s t ∧
      KeepsMemory s t))) ∧
  (∀ (by_ : Issuer) (pc : Fin 16) (rate : BitVec 2) (s : State),
  let owed := s.fld (aHBM_PC_DEPTH pc.val) fHBM_PC_DEPTH_POSTP
  let now := BitVec.ofNat 2 (s.fld aHBM_RATE fHBM_RATE_REQ)
  let refused (t : State) := t.hbm = s.hbm ∧ (t.reg 0xC00008).getLsbD 2 = true ∧ (∃ i, Raises 5 i s t) ∧
    KeepsRegs [0xC00008, 0xC0000C] s t ∧ KeepsMemory s t
  let training := s.bit aHBM_STAT fHBM_STAT_TRAINING = true
  (Completes (.refresh pc false) s (fun t => t.fld (aHBM_PC_DEPTH pc.val) fHBM_PC_DEPTH_POSTP = 0 ∧
    KeepsRegs [aHBM_PC_DEPTH pc.val] s t ∧ KeepsMemory s t)) ∧
  (owed < 8 → Completes (.refresh pc true) s (fun t =>
    t.fld (aHBM_PC_DEPTH pc.val) fHBM_PC_DEPTH_POSTP = owed + 1 ∧ KeepsRegs [aHBM_PC_DEPTH pc.val] s t ∧ KeepsMemory s t)) ∧
  (8 ≤ owed → Completes (.refresh pc true) s (fun t => t.fld (aHBM_PC_DEPTH pc.val) fHBM_PC_DEPTH_POSTP = 0 ∧
    t.bit aHBM_LAT fHBM_LAT_SPLIT = true ∧
    (t.reg aHBM_SPLITS).toNat = min 0xFFFFFFFF ((s.reg aHBM_SPLITS).toNat + 1) ∧
    KeepsRegs [aHBM_PC_DEPTH pc.val, aHBM_LAT, aHBM_SPLITS] s t ∧ KeepsMemory s t)) ∧
  ((s.blkOn 10 = true ∨ s.blkOn 7 = true) → s.rateRefused rate = true ∧ s.rateRefused now = true) ∧
  (s.rateRefused rate = true → Completes (.hbmRateReq by_ rate) s refused) ∧
  (s.rateRefused now = true → Completes (.retrain by_) s refused) ∧
  (s.rateRefused rate = false → ¬ training → Completes (.hbmRateReq by_ rate) s (fun t =>
    t.bit aHBM_STAT fHBM_STAT_TRAINING = true ∧ t.bit aHBM_STAT fHBM_STAT_TRAINED = false ∧ t.hbm.rate = rate ∧
    t.fld aHBM_RATE fHBM_RATE_REQ = rate.toNat ∧ KeepsRegs [aHBM_STAT, aHBM_RATE] s t ∧ KeepsMemory s t)) ∧
  (s.rateRefused rate = false → training → Completes (.hbmRateReq by_ rate) s (fun t =>
    t.hbm.deferred = some rate ∧ t.hbm.rate = s.hbm.rate ∧ t.bit aHBM_LAT fHBM_LAT_DEFER = true ∧
    KeepsRegs [aHBM_STAT, aHBM_RATE, aHBM_LAT] s t ∧ KeepsMemory s t)) ∧
  (s.rateRefused now = false → ¬ training → Completes (.retrain by_) s (fun t =>
    t.bit aHBM_STAT fHBM_STAT_TRAINING = true ∧ t.bit aHBM_STAT fHBM_STAT_TRAINED = false ∧ t.hbm.rate = now ∧
    KeepsRegs [aHBM_STAT] s t ∧ KeepsMemory s t)) ∧
  (s.rateRefused now = false → training → Completes (.retrain by_) s (fun t => t = s)) ∧
  (training → s.hbm.deferred = none → Completes (.hbmTrainDone true) s (fun t =>
    t.bit aHBM_STAT fHBM_STAT_TRAINING = false ∧ t.bit aHBM_STAT fHBM_STAT_TRAINED = true ∧
    t.fld aHBM_RATE fHBM_RATE_NOW = s.hbm.rate.toNat ∧ t.causeAt 20 0 = false ∧ t.agenda = s.agenda ∧
    KeepsRegs [aHBM_STAT, aHBM_RATE] s t ∧ KeepsMemory s t)) ∧
  (training → s.hbm.deferred = none → Completes (.hbmTrainDone false) s (fun t =>
    t.bit aHBM_STAT fHBM_STAT_TRAINED = false ∧ t.bit aHBM_LAT fHBM_LAT_TRFAIL = true ∧ Raises 20 islMemory s t ∧
    t.causeStands 20 = true ∧ KeepsRegs [aHBM_STAT, aHBM_LAT] s t ∧ KeepsMemory s t)) ∧
  (∀ good : Bool, training → s.hbm.deferred = some rate → Completes (.hbmTrainDone good) s (fun t =>
    t.bit aHBM_STAT fHBM_STAT_TRAINING = true ∧ t.bit aHBM_STAT fHBM_STAT_DEFPEND = false ∧ t.hbm.deferred = none ∧
    t.hbm.rate = rate ∧ KeepsMemory s t)) ∧
  (∀ good : Bool, ¬ training → Completes (.hbmTrainDone good) s (fun t => t = s)))

/-! ## Calibration (chapter 14) -/

/-- R359, R360, R364: a START without a cause of refusal begins a sequence in SPARE; one with a cause is refused: CAUSE, PREJ and
FS 42, and no phase changes; one for an island that is not the sequencer's is refused with VAL_REJECT. ABORT ends a sequence
that is not yet on the bus with cause 11 and FS 42; one on the bus runs RELEASE first; a sequencer without a sequence ignores
it.
R360: a phase ends at the first due time of a result of the path's unit at or after its own end, a point but the last of a main
path after its DWELL. The phases follow each other: SPARE, MATCH, SWAP, POINTS, RELEASE, RETURN, FIT, and of a spare sequence
SPARE, POINTS, FIT. In SWAP the path is on the reference bus and, unless mirrored, the channel takes the spare with the mean
of the pairs as its offset; a point's mean frequency and measured level are kept. A phase that does not end in the present
cycle goes on. (That a spare sequence shows SPARE before POINTS is the model's choice, log entry 75.)
Readings of the model: log entries 20, 37, 75. -/
def Obligations.CalibrationSequences : Prop :=
  (∀ (by_ : Issuer) (q : Fin 4) (data : Word) (s : State),
  let path := getF data fCALQ_CMD_PATH; let n := getF data fCALQ_CMD_ISLAND; let cause := s.startCause by_ q.val data
  let early := s.seqRuns q.val = true ∧ ((s.seqn q.val).onBus = false ∨ 2 ≤ (s.seqn q.val).path) ∧
    s.seqPhase q.val ≠ 5 ∧ s.seqPhase q.val ≠ 6
  (n / 16 = q.val → cause = 0 → Completes (.calqStart by_ q data) s (fun t =>
    t.seqPhase q.val = 1 ∧ t.seqIsl q.val = n ∧ (t.seqn q.val).path = path ∧
    (t.seqn q.val).npts = getF data fCALQ_CMD_NPM1 + 1 ∧ (t.seqn q.val).points = [] ∧
    (t.seqn q.val).endAt = some (s.count + s.switchTime n) ∧
    (⟨s.count + s.switchTime n, .island (Fin.ofNat 80 n), .spareOn q⟩ : Due) ∈ t.agenda ∧
    t.count = s.count ∧ KeepsMemory s t)) ∧
  (n / 16 = q.val → cause ≠ 0 → Completes (.calqStart by_ q data) s (fun t => t.cals = s.cals ∧
    t.seqPhase q.val = s.seqPhase q.val ∧ t.fld (aCALQ_STAT q.val) fCALQ_STAT_CAUSE = cause ∧
    t.bit aCAL_LAT fCAL_LAT_PREJ = true ∧ Raises 42 (Fin.ofNat 80 n) s t ∧
    KeepsRegs [aCALQ_CMD q.val, aCALQ_STAT q.val, aCAL_LAT] s t ∧ KeepsMemory s t)) ∧
  (n / 16 ≠ q.val → Completes (.calqStart by_ q data) s (fun t => t.cals = s.cals ∧ (∃ i, Raises 5 i s t) ∧
    KeepsRegs [0xF00008, 0xF0000C] s t ∧ KeepsMemory s t)) ∧
  (s.seqRuns q.val = false → Completes (.calqAbort by_ q) s (fun t => t = s)) ∧
  (early → Completes (.calqAbort by_ q) s (fun t =>
    t.seqPhase q.val = 9 ∧ t.fld (aCALQ_STAT q.val) fCALQ_STAT_CAUSE = 11 ∧ t.seqn q.val = {} ∧
    Raises 42 (Fin.ofNat 80 (s.seqIsl q.val)) s t ∧ KeepsMemory s t)) ∧
  (s.seqRuns q.val = true → (s.seqn q.val).onBus = true → (s.seqn q.val).path < 2 → Completes (.calqAbort by_ q) s (fun t =>
    t.seqPhase q.val = 5 ∧ (t.seqn q.val).ending = some 11 ∧ (t.seqn q.val).bus = none ∧ (t.seqn q.val).onBus = false ∧
    Raises 42 (Fin.ofNat 80 (s.seqIsl q.val)) s t ∧ KeepsMemory s t))) ∧
  (∀ (q : Fin 4) (r : BitVec 32) (s : State),
  let k := q.val; let x := s.seqn k; let point := s.fld (aCALQ_STAT k) fCALQ_STAT_POINT
  let ends (p : Nat) : Prop := s.phaseEnds k = true ∧ s.seqPhase k = p
  let first := some (s.reg (aCALQ_LVL k 0))
  let drives (v : Option Word) := if x.mirrored || !(s.bit aTWN_STAT fTWN_STAT_OWN) then none else v
  (s.phaseEnds k = false → Completes (.calPhaseEnd q r) s (fun t => t = s)) ∧
  ((s.seqPhase k ≠ 4 ∨ (x.path < 2 ∧ x.npts ≤ point + 1)) → (s.phaseEnds k = true ↔ x.begun = some s.count)) ∧
  (s.seqPhase k = 4 → (2 ≤ x.path ∨ point + 1 < x.npts) → (s.phaseEnds k = true ↔ x.pointEnd = s.count)) ∧
  (∀ due, x.endAt = some due → x.begun = none → ((x.sees s.count).begun =
    if Count.upto due s.count = true then some s.count else none)) ∧
  (ends 1 → x.path < 2 → Completes (.calPhaseEnd q r) s (fun t => t.seqPhase k = 2 ∧ (t.seqn k).begun = none ∧
    (t.seqn k).endAt = none ∧ KeepsRegs [aCALQ_STAT k] s t ∧ KeepsMemory s t)) ∧
  (ends 1 → 2 ≤ x.path → Completes (.calPhaseEnd q r) s (fun t => t.seqPhase k = 4 ∧
    t.fld (aCALQ_STAT k) fCALQ_STAT_POINT = 0 ∧ (t.seqn k).bus = drives first ∧
    KeepsRegs [aCALQ_STAT k] s t ∧ KeepsMemory s t)) ∧
  (ends 2 → Completes (.calPhaseEnd q r) s (fun t => t.seqPhase k = 3 ∧ (t.seqn k).onBus = true ∧
    (t.seqn k).sub = !x.mirrored ∧ (x.mirrored = false → x.path < 2 → t.offset (s.seqChan k) x.path = x.mean * 65536) ∧
    KeepsMemory s t)) ∧
  (ends 3 → Completes (.calPhaseEnd q r) s (fun t => t.seqPhase k = 4 ∧
    t.fld (aCALQ_STAT k) fCALQ_STAT_POINT = 0 ∧ (t.seqn k).bus = drives first ∧
    (t.seqn k).pointFrom = s.count + cyc 1500000 ∧ KeepsRegs [aCALQ_STAT k] s t ∧ KeepsMemory s t)) ∧
  (ends 4 → x.mirrored = false → x.n ≠ 0 → Completes (.calPhaseEnd q r) s (fun t =>
    (t.seqn k).points = x.points ++ [(divRound x.sum x.n, r.toInt)] ∧
    t.seqPhase k = (if point + 1 < x.npts then 4 else if x.path < 2 then 5 else 7) ∧
    (point + 1 < x.npts → point < 15 → t.fld (aCALQ_STAT k) fCALQ_STAT_POINT = point + 1) ∧ KeepsMemory s t)) ∧
  (ends 5 → Completes (.calPhaseEnd q r) s (fun t => t.seqPhase k = 6 ∧ (t.seqn k).n = 0 ∧
    KeepsRegs [aCALQ_STAT k] s t ∧ KeepsMemory s t)) ∧
  (ends 6 → x.ending = none → Completes (.calPhaseEnd q r) s (fun t => t.seqPhase k = 7 ∧
    t.cals = s.cals ∧ KeepsRegs [aCALQ_STAT k] s t ∧ KeepsMemory s t)) ∧
  (∀ c, c < 16 → ends 6 → x.ending = some c → Completes (.calPhaseEnd q r) s (fun t =>
    t.seqPhase k = 9 ∧ t.fld (aCALQ_STAT k) fCALQ_STAT_CAUSE = c ∧ t.seqn k = {} ∧ KeepsMemory s t)))

/-- R362, R363, R366: at the end of FIT the fitted set stands in CALQ_F0 to CALQ_C2 and its largest residual in CALQ_RESID, and the
sequence is DONE where no residual is above RESMAX, else FAILED with cause 9, FITFAIL and FS 42. COMMIT of a DONE sequencer
copies the set into its unit's target, applies it, and its entry waits for its signature; any other COMMIT is refused. A record
that is signed and stored is in force with the next SEQ; one that cannot be stored sets UNREC and raises FS 44; with none
signed nothing is stored.
R355: a check of the reference that is due starts once no sequencer is in POINTS; its verdict comes no earlier than 200 ms
after: DEV, OPEN and SHORT are shown, REFOK where the deviation is within REFTOL and no pair is open or shorted, and REFBAD
with FS 43 otherwise. A check that is not due, or while one is waited for, is not called for.
Readings of the model: log entries 38, 39, 40, 75. -/
def Obligations.CalibrationFit : Prop :=
  (∀ (by_ : Issuer) (q : Fin 4) (c : Coef) (u : Nat) (s : State),
  let k := q.val; let x := s.seqn k; let n := s.seqIsl k; let ps := s.fitPoints k
  let f0 := (s.mu n ((s.seqUnit k).getD 0)).base.f0
  let fs := if x.path % 2 = 0 then s.fld aCAL_FSV ⟨31, 0⟩ else s.fld aCAL_FSI ⟨31, 0⟩
  let small := fitGood c ps.1 ps.2 (s.fld aCAL_RESMAX fCAL_RESMAX_RESMAX) fs = true
  let set : Coef := ⟨BitVec.ofNat 56 (s.wide (aCALQ_F0 k) 2), BitVec.ofNat 48 (s.wide (aCALQ_C0 k) 2),
    BitVec.ofNat 48 (s.wide (aCALQ_C1 k) 2), BitVec.ofNat 48 (s.wide (aCALQ_C2 k) 2)⟩
  (s.seqPhase k = 7 → fitCoefs f0 ps.1 ps.2 = some c → Completes (.calFitDone q) s (fun t =>
    t.wide (aCALQ_F0 k) 2 = c.f0.toNat ∧ t.wide (aCALQ_C0 k) 2 = c.c0.toNat ∧ t.wide (aCALQ_C1 k) 2 = c.c1.toNat ∧
    t.wide (aCALQ_C2 k) 2 = c.c2.toNat ∧ (t.reg (aCALQ_RESID k)).toNat = min 0xFFFFFFFF (fitResid c ps.1 ps.2) ∧
    (small → t.seqPhase k = 8 ∧ t.agenda = s.agenda) ∧
    (¬ small → t.seqPhase k = 9 ∧ t.fld (aCALQ_STAT k) fCALQ_STAT_CAUSE = 9 ∧ t.bit aCAL_LAT fCAL_LAT_FITFAIL = true ∧
      Raises 42 (Fin.ofNat 80 n) s t) ∧ t.cals = s.cals ∧ KeepsMemory s t)) ∧
  (s.seqPhase k ≠ 7 → Completes (.calFitDone q) s (fun t => t = s)) ∧
  (s.seqPhase k = 8 → s.seqUnit k = some u → u < 9 → Completes (.calCommit by_ q) s (fun t =>
    t.wide (aMU_F0 n u) 2 = set.f0.toNat ∧ t.wide (aMU_C0 n u) 2 = set.c0.toNat ∧
    t.wide (aMU_C1 n u) 2 = set.c1.toNat ∧ t.wide (aMU_C2 n u) 2 = set.c2.toNat ∧
    (t.mu n u).apply = some (s.at, set) ∧
    t.calRec.forming = s.calRec.forming ++ [(s.seqKey k,
      { coef := set, rsh := if x.path % 2 = 1 then s.reg (aCALQ_RSH k) else 0 })] ∧
    SigReq.cal ∈ t.sec.requests.map Prod.snd ∧ t.calRec.force = s.calRec.force ∧ KeepsMemory s t)) ∧
  (s.seqPhase k ≠ 8 → Completes (.calCommit by_ q) s (fun t => t.calRec = s.calRec ∧ t.meas = s.meas ∧
    (t.reg 0xF00008).getLsbD 2 = true ∧ (∃ i, Raises 5 i s t) ∧ KeepsRegs [0xF00008, 0xF0000C] s t ∧ KeepsMemory s t))) ∧
  (∀ (key : Nat) (e : CalEntry) (rest : List (Nat × CalEntry)) (s : State),
  (s.calRec.forming = (key, e) :: rest → 1 ≤ s.calRec.signed →
    Completes (.calRecordStored true) s (fun t => t.calEntry key = some e ∧
      (∀ j, j ≠ key → t.calEntry j = s.calEntry j) ∧ t.calRec.forming = rest ∧
      t.calRec.signed = s.calRec.signed - 1 ∧
      t.calRec.seq = (match s.calRec.field with | [] => 1 | r :: _ => r.seq + 1) ∧
      t.fld aCAL_REC fCAL_REC_SRC = 2 ∧ t.fld aCAL_REC fCAL_REC_SEQ = t.calRec.seq.toNat % 65536 ∧
      t.bit aCAL_REC fCAL_REC_UNREC = false ∧ t.causeAt 44 0 = false ∧ t.agenda = s.agenda ∧ KeepsMemory s t) ∧
    Completes (.calRecordStored false) s (fun t => t.calRec.force = s.calRec.force ∧ t.calRec.forming = rest ∧
      t.bit aCAL_REC fCAL_REC_UNREC = true ∧ Raises 44 islManagement s t ∧ t.causeStands 44 = true ∧
      KeepsRegs [aCAL_REC] s t ∧ KeepsMemory s t)) ∧
  (∀ good : Bool, (s.calRec.forming = [] ∨ s.calRec.signed = 0) →
    Completes (.calRecordStored good) s (fun t => t = s))) ∧
  (∀ (dev : BitVec 24) (o h : Bool) (s : State),
  let ok := decide (dev.toInt.natAbs ≤ s.fld aCAL_REFCFG fCAL_REFCFG_REFTOL * 100) && !o && !h
  let due := s.refDue = true ∧ s.calRec.waiting = false
  let ended := s.calRec.checking = true ∧ Count.before s.count (s.calRec.checkFrom + cyc 300000000) = false
  (due → Completes .refCheck s (fun t => t.calRec.asked = some s.count ∧ t.calRec.waiting = true ∧
    (s.inPoints = false → t.calRec.checking = true ∧ (s.calRec.checking = false → t.calRec.checkFrom = s.count)) ∧
    (s.inPoints = true → t.calRec.checking = s.calRec.checking) ∧ t.agenda = s.agenda ∧
    KeepsRegs [] s t ∧ KeepsMemory s t)) ∧
  (¬ due → Completes .refCheck s (fun t => t = s)) ∧
  (¬ ended → Completes (.refCheckDone dev o h) s (fun t => t = s)) ∧
  (ended → Completes (.refCheckDone dev o h) s (fun t =>
    t.bit aCAL_REFSTAT fCAL_REFSTAT_REFOK = ok ∧ t.bit aCAL_REFSTAT fCAL_REFSTAT_OPEN = o ∧
    t.bit aCAL_REFSTAT fCAL_REFSTAT_SHORT = h ∧ t.fld aCAL_REFSTAT fCAL_REFSTAT_DEV = dev.toNat ∧
    (ok = true → t.causeAt 43 0 = false ∧ t.agenda = s.agenda ∧ KeepsRegs [aCAL_REFSTAT] s t) ∧
    (ok = false → t.bit aCAL_LAT fCAL_LAT_REFBAD = true ∧ t.causeStands 43 = true ∧ Raises 43 islManagement s t ∧
      KeepsRegs [aCAL_REFSTAT, aCAL_LAT] s t) ∧ t.calRec.waiting = false ∧ t.calRec.checking = false ∧ KeepsMemory s t)))

/-! ## Twin pairing and the col (chapter 15) -/

/-- R376, R377, R379, R393: a HELLO whose SIDE equals this module's, or whose digests differ, ends a negotiation in DETACHED with
JOINFAIL and FS 109; else a module joins an owning twin, and of two that do not own, the preferred side becomes ACTIVE_SOLO and
raises OWN while PEER_OWN is low, and the other joins. At an owner with AUTOJOIN, or with a join ordered, the HELLO of a
joiner starts COPY, unless the shipped charge exceeds the budget: FAIL, FS 109. Else HELLO shows the twin's state. A
negotiation that has lasted 2 s ends in ACTIVE_SOLO, or in DETACHED with FS 109 where PEER_OWN is high.
R373, R374, R388, R394, R423: PEER_OWN low makes an owning module raise OWN, and a standby outside a col take over 96
cycles on; a conflict of OWN latches OWNCONF with FS 108, and SIDE B goes to HOLDOFF with every driver off; an active that
loses its standby, by its removal or by 450 cycles of silence, goes to ACTIVE_SOLO with PEERLOST and FS 106; a join under way
fails; a standby that hears nothing while PEER_OWN is high goes to HOLDOFF, and else takes over. KEEP is sent while the col
link is up and nothing has been sent for 150 cycles.
Readings of the model: log entries 45, 76. -/
def Obligations.TwinNegotiation : Prop :=
  (∀ (f : HelloFrame) (s : State),
  let side := s.bit aTWN_CFG fTWN_CFG_SIDE; let peerOwns := owns f.state.toNat
  let other := f.side = side ∨ f.digest ≠ s.tdig ∨ f.csDigest ≠ s.csDig
  let solo := fun (t : State) => t.twin = twSolo ∧ t.reg aLPE_SRC = 0 ∧
    t.reg aTBS_SRC = (if s.bit aTBS_CTL fTBS_CTL_MPAIR then 0 else 1) ∧
    (s.bit aTWN_STAT fTWN_STAT_PEER_OWN = false → t.bit aTWN_STAT fTWN_STAT_OWN = true)
  let joining := fun (t : State) => t.twin = twJoining ∧ t.reg aLPE_SRC = 1 ∧ t.reg aTBS_SRC = 2 ∧
    t.fld aTWN_JOIN fTWN_JOIN_PHASE = 1 ∧ t.bit aTWN_STAT fTWN_STAT_OWN = false
  let admits := s.twin = twSolo ∧ f.state.toNat = twJoining ∧ s.joins = false ∧
    (s.bit aTWN_CFG fTWN_CFG_AUTOJOIN = true ∨ s.twn.joinOrdered = true)
  (s.twin = twNegotiate → other → Completes (.hello f) s (fun t => t.twin = twDetached ∧
    t.bit aTWN_LAT fTWN_LAT_JOINFAIL = true ∧ Raises 109 islTwin s t ∧ t.count = s.count ∧ KeepsMemory s t)) ∧
  (s.twin = twNegotiate → ¬ other → (peerOwns = true ∨ side ≠ s.bit aTWN_CFG fTWN_CFG_PREFER) →
    Completes (.hello f) s (fun t => joining t ∧ t.count = s.count ∧ KeepsMemory s t)) ∧
  (s.twin = twNegotiate → ¬ other → peerOwns = false → side = s.bit aTWN_CFG fTWN_CFG_PREFER →
    Completes (.hello f) s (fun t => solo t ∧ t.agenda = s.agenda ∧ KeepsMemory s t)) ∧
  (admits → s.shipCharge ≤ 7680000000 → Completes (.hello f) s (fun t => t.twin = twSolo ∧
    t.fld aTWN_JOIN fTWN_JOIN_PHASE = 1 ∧ t.twn.joinOrdered = false ∧ KeepsRegs [aTWN_STAT, aTWN_JOIN] s t ∧
    KeepsMemory s t)) ∧
  (admits → 7680000000 < s.shipCharge → Completes (.hello f) s (fun t => t.twin = twSolo ∧
    t.fld aTWN_JOIN fTWN_JOIN_PHASE = 5 ∧ t.bit aTWN_LAT fTWN_LAT_JOINFAIL = true ∧ Raises 109 islTwin s t ∧
    KeepsRegs [aTWN_STAT, aTWN_JOIN, aTWN_LAT] s t ∧ KeepsMemory s t)) ∧
  (s.twin ≠ twNegotiate → ¬ admits → Completes (.hello f) s (fun t => t.twin = s.twin ∧
    t.fld aTWN_STAT fTWN_STAT_PEER = f.state.toNat ∧ t.bit aTWN_STAT fTWN_STAT_LINK = true ∧
    t.twn.rxAt = some s.count ∧ KeepsRegs [aTWN_STAT] s t ∧ KeepsMemory s t)) ∧
  (s.twin = twNegotiate → s.negExpired = true → s.bit aTWN_STAT fTWN_STAT_PEER_OWN = false →
    Completes .negotiateTimeout s (fun t => solo t ∧ KeepsMemory s t)) ∧
  (s.twin = twNegotiate → s.negExpired = true → s.bit aTWN_STAT fTWN_STAT_PEER_OWN = true →
    Completes .negotiateTimeout s (fun t => t.twin = twDetached ∧ t.bit aTWN_LAT fTWN_LAT_JOINFAIL = true ∧
      Raises 109 islTwin s t ∧ KeepsMemory s t)) ∧
  ((s.twin ≠ twNegotiate ∨ s.negExpired = false) → Completes .negotiateTimeout s (fun t => t = s))) ∧
  (∀ (s : State),
  let alone := fun (t : State) => t.twin = twSolo ∧ t.bit aTWN_LAT fTWN_LAT_PEERLOST = true ∧ Raises 106 islTwin s t ∧
    t.causeStands 106 = true ∧ t.count = s.count ∧ KeepsMemory s t
  let failed := fun (t : State) => t.fld aTWN_JOIN fTWN_JOIN_PHASE = 5 ∧ t.bit aTWN_LAT fTWN_LAT_JOINFAIL = true ∧
    Raises 109 islTwin s t ∧ KeepsMemory s t
  let off := fun (t : State) => t.twin = twHoldoff ∧ t.bit aTWN_STAT fTWN_STAT_OWN = false ∧
    (∀ c : Chan, t.drvEn c.val = false) ∧ KeepsMemory s t
  let takes := fun (t : State) => (⟨s.count + cyc 96, .island islTwin, .cmd (.colApply 4)⟩ : Due) ∈ t.agenda ∧
    KeepsRegs [aTWN_STAT] s t ∧ KeepsMemory s t
  let peerHigh := s.bit aTWN_STAT fTWN_STAT_PEER_OWN = true
  let silent := s.quietFor s.twn.rxAt 450 = true
  ((s.twin = twSolo ∨ s.twin = twActive) → Completes .peerOwnLow s (fun t => t.bit aTWN_STAT fTWN_STAT_OWN = true ∧
    t.bit aTWN_STAT fTWN_STAT_PEER_OWN = false ∧ t.agenda = s.agenda ∧ KeepsRegs [aTWN_STAT] s t ∧ KeepsMemory s t)) ∧
  (s.twin = twStandby → s.colHeld = false → Completes .peerOwnLow s takes) ∧
  (owns s.twin = false → (s.twin ≠ twStandby ∨ s.colHeld = true) → Completes .peerOwnLow s (fun t =>
    t.bit aTWN_STAT fTWN_STAT_PEER_OWN = false ∧ t.bit aTWN_STAT fTWN_STAT_OWN = s.bit aTWN_STAT fTWN_STAT_OWN ∧
    t.agenda = s.agenda ∧ KeepsRegs [aTWN_STAT] s t ∧ KeepsMemory s t)) ∧
  (s.bit aTWN_STAT fTWN_STAT_OWN = true → s.bit aTWN_CFG fTWN_CFG_SIDE = false → Completes .ownConflict s (fun t =>
    t.twin = s.twin ∧ t.bit aTWN_LAT fTWN_LAT_OWNCONF = true ∧ Raises 108 islTwin s t ∧ t.causeStands 108 = true ∧
    KeepsRegs [aTWN_STAT, aTWN_LAT] s t ∧ KeepsMemory s t)) ∧
  (s.bit aTWN_STAT fTWN_STAT_OWN = true → s.bit aTWN_CFG fTWN_CFG_SIDE = true → Completes .ownConflict s (fun t =>
    off t ∧ t.bit aTWN_LAT fTWN_LAT_OWNCONF = true ∧ Raises 108 islTwin s t)) ∧
  (s.bit aTWN_STAT fTWN_STAT_OWN = false → Completes .ownConflict s (fun t => t.bit aTWN_STAT fTWN_STAT_PEER_OWN = true ∧
    t.twin = s.twin ∧ t.agenda = s.agenda ∧ KeepsRegs [aTWN_STAT] s t ∧ KeepsMemory s t)) ∧
  (s.twin = twActive → Completes .presNHigh s (fun t => alone t ∧ t.bit aTWN_STAT fTWN_STAT_PRES = false)) ∧
  (s.twin = twSolo → s.joins = true → Completes .presNHigh s failed) ∧
  (s.twin ≠ twActive → (s.twin ≠ twSolo ∨ s.joins = false) → Completes .presNHigh s (fun t => t.twin = s.twin ∧
    t.bit aTWN_STAT fTWN_STAT_PRES = false ∧ t.agenda = s.agenda ∧ KeepsRegs [aTWN_STAT] s t ∧ KeepsMemory s t)) ∧
  (¬ silent → Completes .peerFrameTimeout s (fun t => t = s)) ∧
  (silent → s.twin = twActive → Completes .peerFrameTimeout s (fun t => alone t ∧
    t.bit aTWN_STAT fTWN_STAT_LINK = false)) ∧
  (silent → s.twin = twStandby → peerHigh → Completes .peerFrameTimeout s off) ∧
  (silent → s.twin = twStandby → ¬ peerHigh → s.colHeld = false → Completes .peerFrameTimeout s takes) ∧
  (silent → (s.twin = twJoining ∨ (s.twin = twSolo ∧ s.joins = true)) → Completes .peerFrameTimeout s (fun t =>
    failed t ∧ (s.twin = twJoining → off t))) ∧
  (s.bit aLNK_STAT fLNK_STAT_COL_UP = true → s.quietFor (s.link 2).sentAt 150 = true → Completes .keep s (fun t =>
    t.out = s.out ++ [.keep] ∧ (t.link 2).sentAt = some s.count ∧ t.agenda = s.agenda ∧ KeepsRegs [] s t ∧
    KeepsMemory s t)) ∧
  ((s.bit aLNK_STAT fLNK_STAT_COL_UP = false ∨ s.quietFor (s.link 2).sentAt 150 = false) →
    Completes .keep s (fun t => t = s)))

/-- R385, R388, R389, R396: TWN_CMD.COL of an active module asks for its col at the write's due time, and is refused
elsewhere. At D the standby becomes ACTIVE on a col of cause 1 and else ACTIVE_SOLO, reading its own results, and as time
master FREE; the former active becomes STANDBY on cause 1 and else HOLDOFF, every driver off; both set COLDONE, show the cause,
its time and the state they came from, and raise FS 105; elsewhere a col does nothing. On cause 4 the former standby sets
PEERLOST with FS 106. LEAVE sends a standby to HOLDOFF. A plausibility bit that has stood for 1 ms asks for a col where PCOL is
1 and no col is under way.
Readings of the model: log entries 46, 76. -/
def Obligations.ColHandsOver : Prop := ∀ (by_ : Issuer) (cause : BitVec 4) (s : State),
  let both := fun (t : State) (from_ : Nat) => t.bit aTWN_LAT fTWN_LAT_COLDONE = true ∧
    t.fld aTWN_COL fTWN_COL_CAUSE = cause.toNat ∧ t.fld aTWN_COL fTWN_COL_FROM = from_ ∧
    t.wide aTWN_COLT 3 = s.count.toNat ∧ Raises 105 islTwin s t ∧ t.count = s.count ∧ KeepsMemory s t
  let asks := s.twin = twStandby ∧ s.bit aTWN_CFG fTWN_CFG_PCOL = true ∧ s.plausStands = true ∧ s.colHeld = false
  (s.twin = twActive → Completes (.twnCol by_) s (fun t =>
    (⟨s.count, .island islTwin, .cmd (.colApply 1)⟩ : Due) ∈ t.agenda ∧ KeepsRegs [] s t ∧ KeepsMemory s t)) ∧
  (s.twin ≠ twActive → Completes (.twnCol by_) s (fun t => (t.reg 0xE00008).getLsbD 2 = true ∧ (∃ i, Raises 5 i s t) ∧
    KeepsRegs [0xE00008, 0xE0000C] s t ∧ KeepsMemory s t)) ∧
  (s.twin = twStandby → Completes (.colApply cause) s (fun t => both t twStandby ∧ t.reg aLPE_SRC = 0 ∧
    t.twin = (if cause = 1 then twActive else twSolo) ∧
    t.reg aTBS_SRC = (if s.bit aTBS_CTL fTBS_CTL_MPAIR then 0 else 1) ∧ t.twn.missed = [] ∧
    (cause = 4 → t.bit aTWN_LAT fTWN_LAT_PEERLOST = true ∧ t.causeStands 106 = true ∧ Raises 106 islTwin s t))) ∧
  (s.twin = twActive → cause = 1 → Completes (.colApply cause) s (fun t => both t twActive ∧ t.reg aLPE_SRC = 1 ∧
    t.reg aTBS_SRC = 2 ∧ t.twin = twStandby ∧ t.bit aTWN_STAT fTWN_STAT_OWN = false)) ∧
  (s.twin = twActive → cause ≠ 1 → Completes (.colApply cause) s (fun t => both t twActive ∧ t.twin = twHoldoff ∧
    t.bit aTWN_STAT fTWN_STAT_OWN = false ∧ (∀ c : Chan, t.drvEn c.val = false))) ∧
  (s.twin ≠ twStandby → s.twin ≠ twActive → Completes (.colApply cause) s (fun t => t = s)) ∧
  (s.twin = twStandby → Completes (.twnLeave by_) s (fun t => t.twin = twHoldoff ∧
    t.bit aTWN_STAT fTWN_STAT_OWN = false ∧ (∀ c : Chan, t.drvEn c.val = false) ∧ KeepsMemory s t)) ∧
  (s.twin ≠ twStandby → Completes (.twnLeave by_) s (fun t => t = s)) ∧
  (asks → Completes .plausColTimeout s (fun t =>
    (⟨s.count + cyc 192, .island islTwin, .cmd (.colApply 5)⟩ : Due) ∈ t.agenda ∧
    t.twn.ship = s.twn.ship ++ [.col 5 (s.count + cyc 192)] ∧ KeepsRegs [] s t ∧ KeepsMemory s t)) ∧
  (¬ asks → Completes .plausColTimeout s (fun t => t = s))

/-- R386, R387, R392, R393: TWN_CMD.JOIN starts a join in HOLDOFF and DETACHED and admits one in ACTIVE_SOLO, where a joiner that
has been heard begins COPY at once; an active that waits to resynchronise is admitted too. A copy that ends sets the run
origin at the first tick boundary 1 ms away or later. 1,000 cycles after the end of a tick, once, a module of a pair or of a
join forms and sends the tick's digest with its BLAME, and keeps it until the twin's arrives; at any other time nothing is
formed. Equal digests of a pair count in TWN_TICKS; different ones set DIVERGE with FS 104: blame at the active alone, or
equal blame with DIVPOL, asks for a col; else the active goes on alone and the standby goes to HOLDOFF. In a join, a digest of
a tick after the run origin counts, the VERNth makes the joiner STANDBY and the owner ACTIVE, and a different one fails the
join with FS 109.
Readings of the model: log entries 7, 46, 76. -/
def Obligations.JoinsAndDigests : Prop := ∀ (by_ : Issuer) (tick : BitVec 64) (d e : BitVec 256) (own peer : Bool)
    (o : Count) (s : State),
  let paired := (s.twin = twActive ∨ s.twin = twStandby) ∧ s.joins = false ∧ s.twn.safeSplit = false ∧
    s.twn.own = [(tick, d, own)] ∧ s.twn.peer = []
  let shown := [aTWN_STAT, aTWN_TICKS, aTWN_TICKS + 4]
  let verified := s.joins = true ∧ s.twn.origin = some o ∧ s.tickLen ≠ 0 ∧ (o + cyc 128).toNat ≤ tick.toNat * s.tickLen ∧
    s.twn.own = [(tick, d, own)] ∧ s.twn.peer = []
  let equal := s.fld aTWN_JOIN fTWN_JOIN_EQUAL + 1
  let forms := s.tickLen ≠ 0 ∧ (s.twin = twActive ∨ s.isStandby = true ∨ (s.twin = twSolo ∧ s.joins = true)) ∧
    (s.count - cyc 1000).toNat % s.tickLen = 0 ∧ s.tickLen ≤ (s.count - cyc 1000).toNat ∧ s.freshAt aTWN_TICKS = 0
  let last := (s.count - cyc 1000).toNat / s.tickLen - 1
  let blames := (own = true ∧ peer = false ∧ s.twin = twActive) ∨ (own = false ∧ peer = true ∧ s.twin = twStandby) ∨
    (own = peer ∧ s.bit aTWN_CFG fTWN_CFG_DIVPOL = true)
  let diverged (t : State) := t.bit aTWN_LAT fTWN_LAT_DIVERGE = true ∧ t.wide aTWN_DIVTICK 2 = tick.toNat ∧
    Raises 104 islTwin s t ∧ KeepsMemory s t
  ((s.twin = twHoldoff ∨ s.twin = twDetached) → Completes (.twnJoin by_) s (fun t => t.twin = twJoining ∧
    t.reg aLPE_SRC = 1 ∧ t.reg aTBS_SRC = 2 ∧ t.fld aTWN_JOIN fTWN_JOIN_PHASE = 1 ∧ KeepsMemory s t)) ∧
  (s.twin = twSolo → s.joins = false → s.fld aTWN_STAT fTWN_STAT_PEER ≠ twJoining → Completes (.twnJoin by_) s (fun t =>
    t = { s with twn := { s.twn with joinOrdered := true } })) ∧
  (s.twin = twSolo → s.joins = false → s.fld aTWN_STAT fTWN_STAT_PEER = twJoining → s.shipCharge ≤ 7680000000 →
    Completes (.twnJoin by_) s (fun t => t.fld aTWN_JOIN fTWN_JOIN_PHASE = 1 ∧ t.twin = twSolo ∧
      KeepsRegs [aTWN_JOIN] s t ∧ KeepsMemory s t)) ∧
  (s.twin = twActive → s.twn.safeRise.isSome = true → Completes (.twnJoin by_) s (fun t =>
    t = { s with twn := { s.twn with joinOrdered := true } })) ∧
  ((s.twin = twNegotiate ∨ s.twin = twJoining ∨ s.twin = twStandby ∨ (s.twin = twSolo ∧ s.joins = true) ∨
    (s.twin = twActive ∧ s.twn.safeRise = none)) → Completes (.twnJoin by_) s (fun t => t = s)) ∧
  (s.fld aTWN_JOIN fTWN_JOIN_PHASE = 1 → Completes .joinCopyDone s (fun t => t.fld aTWN_JOIN fTWN_JOIN_PHASE = 2 ∧
    t.twn.origin = some (Count.ceilTo (s.count + 192000000#72) (max 1 s.tickLen)) ∧ KeepsRegs [aTWN_JOIN] s t ∧
    KeepsMemory s t)) ∧
  (s.fld aTWN_JOIN fTWN_JOIN_PHASE ≠ 1 → Completes .joinCopyDone s (fun t => t = s)) ∧
  (forms → s.twn.peer = [] → Completes .digestSend s (fun t =>
    t.twn.own.map (fun x => (x.1, x.2.2)) = s.twn.own.map (fun x => (x.1, x.2.2)) ++ [(BitVec.ofNat 64 last, s.blame last)] ∧
    (∀ i ∈ t.twn.items, Count.upto (BitVec.ofNat 72 ((last + 1) * s.tickLen)) i.at_ = true) ∧
    t.twin = s.twin ∧ t.sram = s.sram ∧ t.spill = s.spill)) ∧
  (¬ forms → Completes .digestSend s (fun t => t = s)) ∧
  (paired → Completes (.digest tick d peer) s (fun t => t.wide aTWN_TICKS 2 = (s.wide aTWN_TICKS 2 + 1) % 2 ^ 64 ∧
    t.twn.own = [] ∧ t.twn.peer = [] ∧ t.twin = s.twin ∧ t.agenda = s.agenda ∧ KeepsRegs shown s t ∧ KeepsMemory s t)) ∧
  (paired → e ≠ d → s.twin = twActive → Completes (.digest tick e peer) s (fun t => diverged t ∧
    (blames → t.twin = twActive ∧ (⟨s.count + cyc 192, .island islTwin, .cmd (.colApply 2)⟩ : Due) ∈ t.agenda) ∧
    (¬ blames → t.twin = twSolo ∧ t.bit aTWN_LAT fTWN_LAT_PEERLOST = true ∧ Raises 106 islTwin s t))) ∧
  (paired → e ≠ d → s.twin = twStandby → Completes (.digest tick e peer) s (fun t => diverged t ∧
    (blames → t.twin = twStandby) ∧ (¬ blames → t.twin = twHoldoff ∧ (∀ c : Chan, t.drvEn c.val = false)))) ∧
  (verified → (s.twin = twJoining ∨ s.twin = twSolo) → equal < 256 → s.fld aTWN_CFG fTWN_CFG_VERN ≤ equal →
    Completes (.digest tick d peer) s (fun t => t.twin = (if s.twin = twJoining then twStandby else twActive) ∧
      t.fld aTWN_JOIN fTWN_JOIN_PHASE = 4 ∧ t.fld aTWN_JOIN fTWN_JOIN_EQUAL = equal ∧ KeepsMemory s t)) ∧
  (verified → (s.twin = twJoining ∨ s.twin = twSolo) → equal < 256 → equal < s.fld aTWN_CFG fTWN_CFG_VERN →
    Completes (.digest tick d peer) s (fun t => t.twin = s.twin ∧ t.fld aTWN_JOIN fTWN_JOIN_PHASE = 3 ∧
      t.fld aTWN_JOIN fTWN_JOIN_EQUAL = equal ∧ KeepsRegs (aTWN_JOIN :: shown) s t ∧ KeepsMemory s t)) ∧
  (verified → s.twin = twJoining → e ≠ d → Completes (.digest tick e peer) s (fun t => t.twin = twHoldoff ∧
    t.fld aTWN_JOIN fTWN_JOIN_PHASE = 5 ∧ t.bit aTWN_LAT fTWN_LAT_JOINFAIL = true ∧ Raises 109 islTwin s t ∧
    (∀ c : Chan, t.drvEn c.val = false) ∧ KeepsMemory s t)) ∧
  (s.twin = twDetached → Completes (.digest tick e peer) s (fun t => t = s.peerHeard))

/-- R378, R380, R390, R423: at a joiner or standby a shipped item is held for its due time, and one that arrives after its due
cycle is discarded with FS 8, unless its results have been found late before; the results missed are late once the twin is
heard. Elsewhere an item changes nothing, but an active takes a request for a col. A frame that has been corrected counts; one
that cannot be is lost, FS 101. A forwarded register write, and a forwarded memory write to a region that takes it, is held
for its due time at a joiner or standby, a late one is refused with FS 8, and elsewhere it is ignored.
R392, R393: of a FERRY block that COPY sends, a joiner takes the register words of the run state (log entry 47), or the bytes
it names, at once, and nothing else changes; a mirrored change is held until 128 cycles after its cycle, is late after that,
and one of the run that the joiner itself makes is dropped; elsewhere a FERRY changes nothing.
Readings of the model: log entries 47, 76. -/
def Obligations.ShippedAndFerried : Prop := ∀ (it : ShipItem) (p : Port) (addr : BitVec 48) (due c : Count) (n : Nat)
    (data : List Byte) (f : FerryBlock) (w : Word) (s : State),
  let onTime := Count.upto (Count.cycleStart s.count) (Count.cycleStart (itemDue it)) = true
  let told := s.twin = twStandby ∧ itemResults it ≠ [] ∧ (∀ r ∈ itemResults it, (s.mu r.1 r.2).valid = true ∧
    Count.upto (itemDue it) (s.mu r.1 r.2).due = true ∧ (r.1, r.2, itemDue it) ∉ s.twn.missed)
  let joiner := s.twin = twJoining ∨ s.resyncs = true
  let copied := joiner ∧ f.cycle = none
  let past := s.twn.origin.any (fun o => Count.upto (o + cyc 128) c) = true
  (s.isStandby = true → s.twn.missed = [] → onTime → Completes (.ship [it] false false) s (fun t =>
    (⟨itemDue it, .island (itemSource it), .shipped it⟩ : Due) ∈ t.agenda ∧ t.twn.rxAt = some s.count ∧
    KeepsRegs [aTWN_STAT] s t ∧ KeepsMemory s t)) ∧
  (s.isStandby = true → ¬ onTime → ¬ told → Completes (.ship [it] false false) s (fun t =>
    Raises 8 (Fin.ofNat 80 (itemIsland it)) s t ∧ t.bit aTBS_LATE fTBS_LATE_INTERNAL = true ∧ KeepsMemory s t)) ∧
  (s.isStandby = true → s.twn.missed = [] → ¬ onTime → told → Completes (.ship [it] false false) s (fun t =>
    t.agenda = s.agenda ∧ KeepsRegs [aTWN_STAT] s t ∧ KeepsMemory s t)) ∧
  (s.twn.missed ≠ [] → Completes (.ship [] false false) s (fun t => t.twn.missed = [] ∧
    (∀ x ∈ s.twn.missed, Raises 8 (Fin.ofNat 80 x.1) s t) ∧ t.bit aTBS_LATE fTBS_LATE_INTERNAL = true ∧
    KeepsMemory s t)) ∧
  (s.takesItem it = false → s.twn.missed = [] → Completes (.ship [it] false false) s (fun t => t.agenda = s.agenda ∧
    KeepsRegs [aTWN_STAT] s t ∧ KeepsMemory s t)) ∧
  (∀ k, it = .col k due → s.twin = twActive → s.twn.missed = [] → onTime → Completes (.ship [it] false false) s (fun t =>
    (⟨due, .island islTwin, .shipped it⟩ : Due) ∈ t.agenda ∧ KeepsRegs [aTWN_STAT] s t ∧ KeepsMemory s t)) ∧
  (s.twn.missed = [] → Completes (.ship [] true false) s (fun t =>
    (t.reg aLC_CORR).toNat = min 0xFFFFFFFF ((s.reg aLC_CORR).toNat + 1) ∧ t.agenda = s.agenda ∧
    KeepsRegs [aLC_CORR, aTWN_STAT] s t ∧ KeepsMemory s t)) ∧
  (Completes (.ship [it] false true) s (fun t => (t.reg aLC_LOST).toNat = min 0xFFFFFFFF ((s.reg aLC_LOST).toNat + 1) ∧
    t.bit aLNK_LAT fLNK_LAT_COLERR = true ∧ Raises 101 islLink s t ∧ KeepsRegs [aLC_LOST, aLNK_LAT] s t ∧
    KeepsMemory s t)) ∧
  (s.isStandby = true → hostSpace addr ≠ 0 → data ≠ [] →
    s.memStatus (hostSpace addr) (hostOffset addr) data.length true = stOk →
    (Count.upto s.count (Count.cycleStart due) = true → Completes (.fwd p addr due data) s (fun t =>
      (⟨due, .forwarded p, .memWrite p (hostSpace addr) (hostOffset addr) data⟩ : Due) ∈ t.agenda ∧
      KeepsRegs [aTWN_STAT, aBUS_LATMAX 75, aBUS_SLACK 75, aBUS_LAT] s t ∧ KeepsMemory s t)) ∧
    (Count.upto s.count (Count.cycleStart due) = false → Completes (.fwd p addr due data) s (fun t =>
      Raises 8 75 s t ∧ (t.reg 8).getLsbD 3 = true ∧ KeepsMemory s t))) ∧
  (s.isStandby = true → 64 ≤ n → n < 2 ^ 32 →
    Completes (.fwd p (BitVec.ofNat 48 (aTRG_TO 7)) (s.count + cyc n) (leBytes 4 w.toNat)) s (fun t =>
      (⟨s.count + cyc n, .forwarded p, .cmd (.regWrite (.forwarded p) (BitVec.ofNat 28 (aTRG_TO 7)) w)⟩ : Due) ∈ t.agenda ∧
      KeepsRegs [aTWN_STAT, aBUS_LATMAX 74, aBUS_SLACK 74, aBUS_LAT] s t ∧ KeepsMemory s t)) ∧
  (s.isStandby = false → Completes (.fwd p addr due data) s (fun t => t = s.peerHeard)) ∧
  (copied → f.space = 0 → f.data = leBytes 4 w.toNat → runState f.offset.toNat = true →
    Completes (.ferry f) s (fun t => t.reg f.offset.toNat = w ∧ KeepsRegs [f.offset.toNat, aTWN_STAT] s t ∧
      t.agenda = s.agenda ∧ KeepsMemory s t)) ∧
  (copied → f.space = 0 → f.data = leBytes 4 w.toNat → runState f.offset.toNat = false →
    Completes (.ferry f) s (fun t => t = s.peerHeard)) ∧
  (copied → f.space = 1 → Completes (.ferry f) s (fun t =>
    Memory.readBytes t.sram f.offset.toNat f.data.length = f.data ∧
    (∀ a, (a < f.offset.toNat ∨ f.offset.toNat + f.data.length ≤ a) → Memory.read t.sram a = Memory.read s.sram a) ∧
    KeepsRegs [aTWN_STAT] s t ∧ t.hbmMem = s.hbmMem ∧ t.spill = s.spill)) ∧
  (copied → f.space = 2 → Completes (.ferry f) s (fun t =>
    Memory.readBytes t.hbmMem f.offset.toNat f.data.length = f.data ∧
    (∀ a, (a < f.offset.toNat ∨ f.offset.toNat + f.data.length ≤ a) → Memory.read t.hbmMem a = Memory.read s.hbmMem a) ∧
    KeepsRegs [aTWN_STAT] s t ∧ t.sram = s.sram ∧ t.spill = s.spill)) ∧
  (joiner → f.cycle = some c → ¬ past →
    (Count.upto s.count (c + cyc 128) = true → Completes (.ferry f) s (fun t =>
      (⟨c + cyc 128, .island islTwin, .cmd (.ferry { f with cycle := none })⟩ : Due) ∈ t.agenda ∧
      KeepsRegs [aTWN_STAT] s t ∧ KeepsMemory s t)) ∧
    (Count.upto s.count (c + cyc 128) = false → Completes (.ferry f) s (fun t => Raises 8 77 s t ∧
      t.bit aTBS_LATE fTBS_LATE_INTERNAL = true ∧ KeepsMemory s t))) ∧
  (joiner → f.cycle = some c → past → Completes (.ferry f) s (fun t => t = s.peerHeard)) ∧
  (¬ joiner → Completes (.ferry f) s (fun t => t = s.peerHeard))

/-! ## Links (chapter 16) -/

/-- R403, R429: every link passes from DETECT through POLL and CONFIG to ACTIVE, 24 ms in POLL or CONFIG return it to DETECT, a
loss of alignment takes it from ACTIVE to RECOVERY, and RECOVERY ends in ACTIVE or, after 2 ms, in DETECT; each passage shows in
the status registers alone, and in another state the command changes nothing. R403, R410, R413, R431: a host port that becomes
ACTIVE starts with fresh sequence numbers and the entry credits, its width and rate shown; RECOVERY, also by LP_RETRAIN, keeps
session, frames and credits and counts in LP_RETRAIN; a failed recovery ends the session, drops what is held, sets DOWN and
raises FS 96. A disabled port is DISABLED, an enabled one in DETECT. The col link comes up only at width x8, and a loss of
alignment there sets COLERR with FS 101; a loss of the ring input raises FS 100.
R404: in ACTIVE a link that may and that has been idle for its time enters LS, a host port with LD_IDLE also LD; the partner's
direction follows its own choice; a wake ends both, and what waited goes out. -/
def Obligations.LinkTraining : Prop :=
  (∀ (l : Link) (width rate : BitVec 2) (s : State),
  let k := linkKey l
  let goes := fun (v : Nat) (t : State) => t.ltOf l = v ∧ (∀ j, j ≠ k → t.ltssm j = s.ltssm j ∧ t.link j = s.link j) ∧
    t.link k = { s.link k with since := s.count, pwr := 0, st := if l = .ringOut then v else 0 } ∧ t.txPower k = 0 ∧
    KeepsRegs [aLNK_STAT, aLC_STAT, aLR_STAT, aLP_STAT 0, aLP_STAT 1] s t ∧ KeepsMemory s t
  (s.ltOf l = ltDetect → Completes (.linkDetect l) s (goes ltPoll)) ∧
  (s.ltOf l ≠ ltDetect → Completes (.linkDetect l) s (fun t => t = s)) ∧
  (s.ltOf l = ltPoll → Completes (.pollDone l) s (goes ltConfig)) ∧
  (s.ltOf l ≠ ltPoll → Completes (.pollDone l) s (fun t => t = s)) ∧
  ((s.ltOf l = ltPoll ∨ s.ltOf l = ltConfig) → s.stateFor l (24 * 192000000) = true →
    Completes (.trainTimeout l) s (goes ltDetect)) ∧
  (s.stateFor l (24 * 192000000) = false → Completes (.trainTimeout l) s (fun t => t = s)) ∧
  (s.ltOf l = ltConfig → (l = .col → width = 0) → Completes (.configDone l width rate) s (fun t => t.ltOf l = ltActive ∧
    t.txPower k = 0 ∧ t.bit aLNK_STAT ([⟨0, 0⟩, ⟨1, 1⟩, fLNK_STAT_COL_UP, fLNK_STAT_RING_IN, fLNK_STAT_RING_OUT].getD k ⟨0, 0⟩) ∧
    (∀ j, j ≠ k → t.link j = s.link j) ∧ KeepsMemory s t)) ∧
  (s.ltOf l ≠ ltConfig → Completes (.configDone l width rate) s (fun t => t = s)) ∧
  (s.ltOf l = ltActive → Completes (.lossOfAlignment l) s (fun t => t.ltOf l = ltRecovery ∧
    (t.link k).held = (s.link k).held ∧ (t.link k).grants = (s.link k).grants ∧ KeepsMemory s t)) ∧
  (s.ltOf l = ltRecovery → (s.link k).waiting = [] → Completes (.recoveryDone l width rate) s (fun t => t.ltOf l = ltActive ∧
    (t.link k).held = (s.link k).held ∧ (t.link k).grants = (s.link k).grants ∧ t.out = s.out ∧ KeepsMemory s t)) ∧
  (s.ltOf l = ltRecovery → s.stateFor l (2 * 192000000) = true → Completes (.recoveryTimeout l) s (fun t =>
    t.ltOf l = ltDetect ∧ (t.link k).held = (if k < 3 then [] else (s.link k).held) ∧
    KeepsMemory s t)) ∧
  ((s.ltOf l ≠ ltRecovery ∨ s.stateFor l (2 * 192000000) = false) → Completes (.recoveryTimeout l) s (fun t => t = s)) ∧
  (s.ltOf l ≠ ltRecovery → Completes (.recoveryDone l width rate) s (fun t => t = s))) ∧
  (∀ (by_ : Issuer) (p : Port) (width rate : BitVec 2) (data : Word) (s : State),
  let l : Link := .port p; let k := p.val
  (s.ltssm k = ltConfig → Completes (.configDone l width rate) s (fun t =>
    (t.link k).grants = [64, 128, 32, 16] ∧ (t.link k).owed = [0, 0, 0, 0] ∧ (t.link k).sent = [0, 0, 0, 0] ∧
    (t.link k).rxNext = 0 ∧ (t.link k).txNext = 0 ∧ (t.link k).held = [] ∧ t.causeAt 96 k = false ∧
    t.fld (aLP_STAT k) fLP_STAT_WIDTH = width.toNat ∧ t.fld (aLP_STAT k) fLP_STAT_RATE = rate.toNat ∧
    (s.fld (aLP_CFG k) fLP_CFG_MAXW < width.toNat → t.bit aLNK_LAT fLNK_LAT_DEGRADED = true ∧ t.causeAt 102 k = true) ∧
    KeepsRegs [aLP_STAT k, aLNK_STAT, aLNK_LAT] s t)) ∧
  (s.ltssm k = ltActive → ∀ c ∈ [Instr.lossOfAlignment l, .lpRetrain by_ p], Completes c s (fun t =>
    t.ltssm k = ltRecovery ∧ t.link k = { s.link k with since := s.count, pwr := 0, st := 0 } ∧ t.session k = s.session k ∧
    t.bit aLNK_STAT ⟨k, k⟩ = false ∧
    (t.reg (aLP_RETRAIN k)).toNat = min 0xFFFFFFFF ((s.reg (aLP_RETRAIN k)).toNat + 1) ∧
    KeepsRegs [aLP_STAT k, aLNK_STAT, aLP_RETRAIN k] s t ∧ KeepsMemory s t)) ∧
  (s.ltssm k ≠ ltActive → ∀ c ∈ [Instr.lossOfAlignment l, .lpRetrain by_ p], Completes c s (fun t => t = s)) ∧
  (s.ltssm k = ltRecovery → (s.link k).waiting = [] → Completes (.recoveryDone l width rate) s (fun t =>
    t.link k = { s.link k with since := s.count, pwr := 0, st := 0 } ∧ t.session k = s.session k ∧
    t.fld (aLP_STAT k) fLP_STAT_WIDTH = width.toNat ∧ t.fld (aLP_STAT k) fLP_STAT_RATE = rate.toNat ∧
    KeepsRegs [aLP_STAT k, aLNK_STAT, aLNK_LAT] s t)) ∧
  (s.ltssm k = ltRecovery → s.stateFor l (2 * 192000000) = true → Completes (.recoveryTimeout l) s (fun t =>
    t.ltssm k = ltDetect ∧ t.session k = false ∧ t.link k = { stalled := (s.link k).hush } ∧
    t.bit aLNK_LAT ⟨k, k⟩ = true ∧ t.causeAt 96 k = true ∧ (s.causeAt 96 k = false → Raises 96 islLink s t))) ∧
  (data.getLsbD 0 = true → Completes (.lpEnWrite by_ p data) s (fun t => t.reg (aLP_CTL k) = data &&& 3#32 ∧
    t.ltssm k = (if s.bit (aLP_CTL k) fLP_CTL_EN = false ∧ s.blkOn 13 = true then ltDetect else s.ltssm k) ∧
    KeepsRegs [aLP_CTL k, aLP_STAT k, aLNK_STAT] s t ∧ KeepsMemory s t)) ∧
  (s.bit (aLP_CTL k) fLP_CTL_EN = true → data.getLsbD 0 = false → Completes (.lpEnWrite by_ p data) s (fun t =>
    t.reg (aLP_CTL k) = data &&& 3#32 ∧ t.ltssm k = ltDisabled ∧ t.session k = false ∧
    t.link k = { stalled := (s.link k).hush, since := s.count } ∧ KeepsMemory s t)) ∧
  (s.bit (aLP_CTL k) fLP_CTL_EN = false → data.getLsbD 0 = false → Completes (.lpEnWrite by_ p data) s (fun t =>
    t.reg (aLP_CTL k) = data &&& 3#32 ∧ t.links = s.links ∧ KeepsRegs [aLP_CTL k] s t ∧ KeepsMemory s t))) ∧
  (∀ (p : Port) (tx nak : Bool) (width rate : BitVec 2) (f : Nat × Out) (s : State),
  let k := p.val; let pw := if tx then fLP_STAT_TXPWR else fLP_STAT_RXPWR; let l : Link := .port p
  (s.ltssm 2 = ltConfig → width ≠ 0 → Completes (.configDone .col width rate) s (fun t => t.ltssm 2 = ltDetect ∧
    t.bit aLNK_STAT fLNK_STAT_COL_UP = false ∧ KeepsRegs [aLC_STAT, aLNK_STAT] s t ∧ KeepsMemory s t)) ∧
  (s.ltssm 2 = ltConfig → Completes (.configDone .col 0 rate) s (fun t => (t.link 2).grants = [64, 128, 32, 16])) ∧
  (s.ltssm 2 = ltActive → Completes (.lossOfAlignment .col) s (fun t => t.bit aLNK_LAT fLNK_LAT_COLERR = true ∧
    Raises 101 islLink s t ∧ KeepsRegs [aLC_STAT, aLNK_STAT, aLNK_LAT] s t)) ∧
  (s.causeAt 100 0 = false → Completes (.lossOfAlignment .ringIn) s (fun t => Raises 100 islLink s t ∧
    t.causeStands 100 = true ∧
    (s.fld aTBS_SRC fTBS_SRC_SRC = 1 → t.bit aTBS_STATE fTBS_STATE_REF_PRESENT = false) ∧
    KeepsRegs [aLR_STAT, aLNK_STAT, aTBS_STATE] s t)) ∧
  (s.ltssm k = ltActive → (tx = false ∨ (s.fld (aLP_PWR k) fLP_PWR_LS_IDLE ≠ 0 ∧
      s.idleFor l (s.fld (aLP_PWR k) fLP_PWR_LS_IDLE * 192) = true)) → Completes (.lsEntry l tx) s
    (fun t => t.fld (aLP_STAT k) pw = 1 ∧ t.ltssm k = ltActive ∧ t.links = s.links ∧ KeepsRegs [aLP_STAT k] s t ∧
      KeepsMemory s t)) ∧
  (s.ltssm k = ltActive → (tx = false ∨ (s.fld (aLP_PWR k) fLP_PWR_LD_IDLE ≠ 0 ∧
      s.idleFor l (s.fld (aLP_PWR k) fLP_PWR_LD_IDLE * 192000) = true)) → Completes (.ldEntry p tx) s
    (fun t => t.fld (aLP_STAT k) pw = 2 ∧ t.ltssm k = ltActive ∧ t.links = s.links ∧ KeepsRegs [aLP_STAT k] s t ∧
      KeepsMemory s t)) ∧
  ((s.fld (aLP_PWR k) fLP_PWR_LS_IDLE = 0 ∨ s.ltssm k ≠ ltActive) → Completes (.lsEntry l true) s (fun t => t = s)) ∧
  ((s.fld (aLP_PWR k) fLP_PWR_LD_IDLE = 0 ∨ s.ltssm k ≠ ltActive) → Completes (.ldEntry p true) s (fun t => t = s)) ∧
  ((s.link k).waiting = [] → ((s.link k).lctlOwed = none ∨ tx = false) → Completes (.linkWake l tx) s (fun t =>
    t.fld (aLP_STAT k) pw = 0 ∧ t.ltssm k = s.ltssm k ∧ t.out = s.out ∧ t.links = s.links ∧
    KeepsRegs [aLP_STAT k] s t ∧ KeepsMemory s t)) ∧
  (s.ltssm k = ltActive → (s.link k).waiting = [] → (s.link k).lctlOwed = some nak → Completes (.linkWake l true) s (fun t =>
    t.sends k = true ∧ t.out = s.out ++ [.lctl l nak ((s.link k).rxNext - 1) (s.link k).grants] ∧
    (t.link k).lctlOwed = none ∧ KeepsRegs [aLP_STAT k] s t)) ∧
  (s.ltssm k = ltActive → (s.link k).waiting = [f] → (s.link k).mayGo true f.1 = true → (s.link k).lctlOwed = none →
    Completes (.linkWake l true) s (fun t => t.sends k = true ∧ t.out = s.out ++ [f.2] ∧ (t.link k).waiting = [] ∧
      KeepsRegs [aLP_STAT k] s t)) ∧
  (s.ltssm 2 = ltActive → s.twin = twActive → Completes (.lsEntry .col true) s (fun t => t = s)) ∧
  (s.ltssm 3 = ltActive → s.bit aLR_CFG fLR_CFG_LS_EN = true → Completes (.lsEntry .ringIn false) s (fun t =>
    (t.link 3).pwr = 1 ∧ KeepsRegs [] s t ∧ KeepsMemory s t)) ∧
  (s.bit aLR_CFG fLR_CFG_LS_EN = false → Completes (.lsEntry .ringOut true) s (fun t => t = s)))

/-- R411, R412, R413: an LCTL with a good CRC takes the acknowledged frames out of the replay buffer and the partner's limits
in; with NAK every frame still held goes out again, in order; a bad one is discarded and counted. LCTL_SEND answers with the
last frame taken, at once or, while the transmitter sleeps, once it has woken. When no acknowledgement has come for REPLAY_TO,
every held frame is sent again, unchanged, each counted, with FS 97; the fourth resend of the oldest takes the port to RECOVERY.
On a link that is not ACTIVE, and before the timeout is due, nothing happens. The col link does the same with LC_REPLAY.
R400, R411: a frame read back from its columns, on any number of lanes, is the frame that was sent, and an LCTL frame spells
its LCTL. -/
def Obligations.Replay : Prop :=
  (∀ (p : Port) (ack : BitVec 12) (limits : Vector (BitVec 8) 4) (nak : Bool) (h : Held) (hs : List Held) (s : State),
  let k := p.val; let x := s.link k; let l : Link := .port p
  let again := fun (held : List Held) (t : State) =>
    t.out = s.out ++ held.map (fun h => h.frame) ∧ Raises 97 islLink s t ∧
    (t.link k).held.map (fun h => (h.seq, h.frame)) = held.map (fun h => (h.seq, h.frame)) ∧
    (t.reg (aLP_REPLAY k)).toNat = min 0xFFFFFFFF ((s.reg (aLP_REPLAY k)).toNat + held.length) ∧ KeepsMemory s t
  (s.ltssm k = ltActive → x.waiting = [] → Completes (.lctl l false ack limits true) s (fun t =>
    t.link k = { x.ack ack with limits := limits.toList, ackAt := s.count } ∧ t.out = s.out ∧ KeepsRegs [] s t ∧
    KeepsMemory s t)) ∧
  (s.ltssm k = ltActive → x.waiting = [] → (x.ack ack).held = h :: hs → h.resends + 1 < 4 →
    Completes (.lctl l true ack limits true) s (fun t => again (h :: hs) t ∧ t.ltssm k = ltActive ∧
      (t.link k).limits = limits.toList ∧ KeepsRegs [aLP_REPLAY k] s t)) ∧
  (s.ltssm k = ltActive → Completes (.lctl l nak ack limits false) s (fun t => t.links = s.links ∧ t.out = s.out ∧
    (t.reg (aLP_CRCERR k)).toNat = min 0xFFFFFFFF ((s.reg (aLP_CRCERR k)).toNat + 1) ∧
    KeepsRegs [aLP_CRCERR k] s t ∧ KeepsMemory s t)) ∧
  (s.sends k = true → Completes (.lctlSend l) s (fun t =>
    t.out = s.out ++ [.lctl l false (x.rxNext - 1) ((s.settleCredits k).link k).grants] ∧ (t.link k).held = x.held ∧ (t.link k).lctlOwed = none ∧
    KeepsRegs [] s t ∧ KeepsMemory s t)) ∧
  (s.ltssm k = ltActive → s.txPower k ≠ 0 → Completes (.lctlSend l) s (fun t => t.out = s.out ∧ (t.link k).held = x.held ∧
    (t.link k).lctlOwed = some (x.lctlOwed.getD false) ∧ KeepsRegs [] s t ∧ KeepsMemory s t)) ∧
  (s.ltssm k = ltActive → s.replayDue l = true → x.held = h :: hs → h.resends + 1 < 4 → Completes (.replayTimeout l) s
    (fun t => again (h :: hs) t ∧ t.ltssm k = ltActive ∧ KeepsRegs [aLP_REPLAY k] s t)) ∧
  (s.ltssm k = ltActive → s.replayDue l = true → x.held = h :: hs → 4 ≤ h.resends + 1 → Completes (.replayTimeout l) s
    (fun t => again (h :: hs) t ∧ t.ltssm k = ltRecovery ∧
      KeepsRegs [aLP_REPLAY k, aLP_STAT k, aLNK_STAT, aLP_RETRAIN k] s t)) ∧
  ((s.ltssm k ≠ ltActive ∨ s.replayDue l = false ∨ x.held = []) → Completes (.replayTimeout l) s (fun t => t = s)) ∧
  (s.ltssm k ≠ ltActive → ∀ c ∈ [Instr.lctl l nak ack limits true, .lctlSend l], Completes c s (fun t => t = s)) ∧
  (s.ltssm 2 = ltActive → (s.link 2).held = h :: hs → h.resends + 1 < 4 → Completes (.replayTimeout .col) s (fun t =>
    t.out = s.out ++ (h :: hs).map (fun h => h.frame) ∧ Raises 97 islLink s t ∧
    (t.reg aLC_REPLAY).toNat = min 0xFFFFFFFF ((s.reg aLC_REPLAY).toNat + (hs.length + 1)) ∧
    KeepsRegs [aLC_REPLAY] s t ∧ KeepsMemory s t))) ∧
  (∀ (p : Port) (ack : BitVec 12) (limits : Vector (BitVec 8) 4) (nak open_ time : Bool) (key : Option (List Byte × Nat))
    (w : Nat) (bs : List Byte),
  hostInstr p key open_ (lctlBytes nak ack limits.toList) = some (.lctl (.port p) nak ack limits true) ∧
  (1 ≤ w → readFrame w (frameColumns w time bs) = some (time, bs) ∧
    (frameColumns w time bs).length = columnsOf w bs.length ∧ ∀ c ∈ frameColumns w time bs, c.length = w))

/-- R41, R44, R47, R75, R407, R412, R414 to R417, on the register GLB_SCRATCH and the plain: a frame in sequence, inside a
session, with a role that may, is taken and counted. A RD answers the register's word; an untimed WR holds the register write
for 64 cycles later and answers OK, a timed one with enough lead for its due time, and one with less answers LATE with the
offset of the part and writes nothing. An untimed write to the plain stands at once, every other byte as before. Without the
right the answer is ROLE with ACC_REJECT, nothing held; without a session ROLE as well; a frame that is malformed is answered
UNMAPPED, counted in LP_PROTO, with FS 98; a tag that does not verify ends the session; a bad CRC is answered with a NAK and
counted, a SEQ already taken with an acknowledgement. While a push of the port is held, a request on the control VC waits. A
host STRM within the records sent takes records. On a port that is not ACTIVE nothing happens.
Readings of the model: log entries 42, 43, 66, 73. -/
def Obligations.HostRequests : Prop := ∀ (p : Port) (h : HostHdr) (w : Word) (d : Count) (off : Nat) (data : List Byte)
    (cls : Fin 4) (taken : BitVec 64) (s : State),
  let k := p.val; let role := s.sessRole k
  let inOrder := s.ltssm k = ltActive ∧ judgeSeq (s.link k) h = .take
  let good := fun (vc : BitVec 2) => inOrder ∧ s.session k = true ∧ h.prot = true ∧ h.tagGood = true ∧ h.vc = vc
  let taken1 := fun (vc : BitVec 2) => good vc ∧ h.reserved = false ∧ h.timed = false
  let counted := fun (t : State) => (t.link k).rxNext = (s.link k).rxNext + 1 ∧
    (t.link k).rxFrames = (s.link k).rxFrames + 1
  let nothing := fun (t : State) => t.agenda = s.agenda ∧ KeepsMemory s t
  let goes := fun (vc : Nat) => Sends p vc s
  let scratch : WrFrame := ⟨h, 0x30, 0, 0, leBytes 4 w.toNat⟩
  let dated : WrFrame := ⟨h, 0x30, d, 0, leBytes 4 w.toNat⟩
  let held := fun (at_ : Count) => (⟨at_, .port p, .cmd (.regWrite (.port p) 0x30 w)⟩ : Due)
  let both := [Instr.rd p ⟨h, 0x30, 0, 3⟩, .wr p scratch]
  let all := both ++ [.strm p h cls taken]
  (taken1 0 → goes 0 → s.stalls p h = false → (s.link k).untimed = none → s.mayReg role 0x30 false = true →
    Completes (.rd p ⟨h, 0x30, 0, 3⟩) s (fun t =>
      t.out = s.out ++ [.rdr p 0 h.tag 0 (leBytes 4 (s.reg aGLB_SCRATCH).toNat)] ∧ counted t ∧ nothing t ∧
      KeepsRegs [] s t)) ∧
  (taken1 0 → goes 0 → s.stalls p h = false → s.mayReg role 0x30 true = true → Completes (.wr p scratch) s (fun t =>
    held (s.count + cyc 64) ∈ t.agenda ∧ (t.link k).untimed = some (s.count + cyc 64) ∧
    t.out = s.out ++ [.rdr p 0 h.tag 0 []] ∧ counted t ∧ KeepsMemory s t)) ∧
  (good 0 → h.reserved = false → h.timed = true → goes 0 → s.stalls p h = false → s.mayReg role 0x30 true = true →
    s.tooSoon (some d) = false → Completes (.wr p dated) s (fun t => held d ∈ t.agenda ∧
      t.out = s.out ++ [.rdr p 0 h.tag 0 []] ∧ counted t ∧ KeepsMemory s t)) ∧
  (good 0 → h.reserved = false → h.timed = true → goes 0 → s.stalls p h = false → s.mayReg role 0x30 true = true →
    s.tooSoon (some d) = true → Completes (.wr p dated) s (fun t =>
      t.out = s.out ++ [.rdr p 0 h.tag (BitVec.ofNat 3 stLate) (leBytes 4 0x30)] ∧ counted t ∧
      t.reg aGLB_SCRATCH = s.reg aGLB_SCRATCH ∧ KeepsMemory s t)) ∧
  (taken1 0 → goes 0 → s.stalls p h = false → s.mayReg role 0x30 true = false → Completes (.wr p scratch) s (fun t =>
    t.out = s.out ++ [.rdr p 0 h.tag 5 (leBytes 4 0x30)] ∧ (t.reg 0x8).getLsbD 3 = true ∧ counted t ∧
    KeepsRegs [0x8, 0xC] s t ∧ KeepsMemory s t)) ∧
  (taken1 1 → goes 1 → off < 0x6000000 → data ≠ [] → data.length ≤ 256 → s.memStatus 1 off data.length true = stOk →
    s.mayMem role 1 true = true → s.isStandby = false → s.forwards = false →
    Completes (.wr p ⟨h, BitVec.ofNat 48 (2 ^ 45 + off), 0, 0, data⟩) s (fun t =>
      Memory.readBytes t.sram off data.length = data ∧
      (∀ a, (a < off ∨ off + data.length ≤ a) → Memory.read t.sram a = Memory.read s.sram a) ∧
      t.out = s.out ++ [.rdr p 1 h.tag 0 []] ∧ t.hbmMem = s.hbmMem ∧ t.spill = s.spill ∧ counted t ∧ KeepsRegs [] s t)) ∧
  (taken1 0 → s.stalls p h = true → ∀ c ∈ both, Completes c s (fun t => counted t ∧ nothing t ∧ t.out = s.out ∧
    (t.link k).stalled.length = (s.link k).stalled.length + 1 ∧ KeepsRegs [] s t)) ∧
  (inOrder → goes h.vc.toNat → s.session k = false → h.reserved = false → h.timed = false → h.vc = 0 → ∀ c ∈ both,
    Completes c s (fun t => t.out = s.out ++ [.rdr p h.vc h.tag 5 []] ∧ counted t ∧ nothing t ∧
      (t.reg 0x8).getLsbD 3 = true)) ∧
  (good 0 → goes 0 → h.reserved = true → ∀ c ∈ both, Completes c s (fun t =>
    t.out = s.out ++ [.rdr p h.vc h.tag (BitVec.ofNat 3 stUnmapped) []] ∧ counted t ∧ Raises 98 islLink s t ∧
    t.bit aLNK_LAT fLNK_LAT_PROTO = true ∧ (t.reg 0x8).getLsbD 3 = true ∧
    (t.reg (aLP_PROTO k)).toNat = min 0xFFFFFFFF ((s.reg (aLP_PROTO k)).toNat + 1) ∧ KeepsMemory s t)) ∧
  (inOrder → s.session k = true → (h.prot = false ∨ h.tagGood = false) → ∀ c ∈ all, Completes c s (fun t =>
    counted t ∧ t.session k = false ∧ t.out = s.out ∧ Raises 99 islLink s t ∧ t.bit aLNK_LAT fLNK_LAT_SESFAIL = true ∧
    KeepsMemory s t)) ∧
  (s.sends k = true → h.crcGood = false → ∀ c ∈ all,
    Completes c s (fun t => t.out = s.out ++ [.lctl (.port p) true ((s.link k).rxNext - 1) ((s.settleCredits k).link k).grants] ∧
      (t.link k).rxNext = (s.link k).rxNext ∧ nothing t ∧
      (t.reg (aLP_CRCERR k)).toNat = min 0xFFFFFFFF ((s.reg (aLP_CRCERR k)).toNat + 1) ∧
      KeepsRegs [aLP_CRCERR k] s t)) ∧
  (s.sends k = true → judgeSeq (s.link k) h = .again → ∀ c ∈ all,
    Completes c s (fun t => t.out = s.out ++ [.lctl (.port p) false ((s.link k).rxNext - 1) ((s.settleCredits k).link k).grants] ∧
      (t.link k).rxNext = (s.link k).rxNext ∧ nothing t ∧ KeepsRegs [] s t)) ∧
  (taken1 2 → taken.toNat ≤ (s.stream cls.val).sent → (s.stream cls.val).taken < taken.toNat →
    (s.rights role).mem.getLsbD 5 = true → Completes (.strm p h cls taken) s (fun t =>
      (t.stream cls.val).taken = taken.toNat ∧ counted t ∧ t.sram = s.sram ∧ t.spill = s.spill)) ∧
  (taken1 2 → (taken.toNat ≤ (s.stream cls.val).taken ∨ (s.rights role).mem.getLsbD 5 = false) →
    taken.toNat ≤ (s.stream cls.val).sent → Completes (.strm p h cls taken) s (fun t =>
      t.stream cls.val = s.stream cls.val ∧ counted t ∧ nothing t ∧ KeepsRegs [] s t)) ∧
  (s.ltssm k ≠ ltActive → ∀ c ∈ all, Completes c s (fun t => t = s))

/-! ## Structure stream and fault collection (chapters 17 and 18) -/

/-- R438 to R442, R444, R446: a LOAD while the loader is BUSY, or with a mask that does not fit the state, is refused with
cause 9, REJ and FS 6; one of a stream in flash, of the reference stream, or of a source that R439 allows begins its check, and
one of a source it does not allow is refused with cause 10. A refused check leaves the structure in force, and at boot it goes
on to the reference stream, with FALLBACK and FS 7; a check passed with a quadrant mask leaves the stream CHECKED, and one
without brings the stream into force and begins the twin's negotiation. ABORT discards what is read or CHECKED.
R441, R443, R444: APPLY of a CHECKED stream, where R443 allows it and no ABORT is due with it, brings it into force; STORE of a
structure in force writes it into the start slot, or sets STOREFAIL with FS 6; UNLOAD, where R441 allows it, leaves no
structure, no task, and the twin DETACHED; each is refused with cause 9 otherwise.
Readings of the model: log entries 49, 50, 51, 52, 78. -/
def Obligations.Structures : Prop :=
  (∀ (src : BitVec 2) (q : BitVec 4) (good : Bool) (r : Nat × Nat × Nat) (len : Nat) (s : State),
  let refused := fun (cause : Nat) (t : State) => t.str = s.str ∧ t.fld aSTR_STAT fSTR_STAT_CAUSE = cause ∧
    t.bit aSTR_LAT fSTR_LAT_REJ = true ∧ Raises 6 islManagement s t ∧
    KeepsRegs [aSTR_STAT, aSTR_FOFF, aSTR_FOFF + 4, aSTR_LAT] s t ∧ KeepsMemory s t
  ((s.bit aSTR_STAT fSTR_STAT_BUSY = true ∨ (q = 0 ∧ s.strInForce = true) ∨ (q ≠ 0 ∧ s.strInForce = false)) →
    Completes (.strLoad (.port 0) src q) s (refused 9)) ∧
  (s.bit aSTR_STAT fSTR_STAT_BUSY = false → (q = 0 ↔ s.strInForce = false) → s.str.startSlot ≠ [] →
    Completes (.strLoad (.port 0) 2 q) s (fun t => t.bit aSTR_STAT fSTR_STAT_BUSY = true ∧
      t.str.checking = s.str.startSlot ∧ t.str.qmask = q.toNat ∧ t.str.words = s.str.words ∧ t.agenda = s.agenda ∧
      KeepsRegs [aSTR_STAT] s t ∧ KeepsMemory s t)) ∧
  (s.bit aSTR_STAT fSTR_STAT_BUSY = false → (q = 0 ↔ s.strInForce = false) → s.str.startSlot = [] →
    Completes (.strLoad (.port 0) 2 q) s (refused 10)) ∧
  (s.bit aSTR_STAT fSTR_STAT_BUSY = false → (q = 0 ↔ s.strInForce = false) → Completes (.strLoad (.port 0) 3 q) s (fun t =>
      t.bit aSTR_STAT fSTR_STAT_BUSY = true ∧ t.str.checking = referenceStream ∧ t.str.src = 3 ∧ t.str.qmask = q.toNat ∧
      t.str.words = s.str.words ∧ KeepsRegs [aSTR_STAT] s t ∧ KeepsMemory s t)) ∧
  (s.bit aSTR_STAT fSTR_STAT_BUSY = false → (q = 0 ↔ s.strInForce = false) → src.toNat < 2 →
    s.sourceOk (src.toNat + 1) (s.wide aSTR_ADDR 2) 8 = false → Completes (.strLoad (.port 0) src q) s (refused 10)) ∧
  (s.bit aSTR_STAT fSTR_STAT_BUSY = false → (q = 0 ↔ s.strInForce = false) → src.toNat < 2 → len ≤ 2097153 →
    s.sourceOk (src.toNat + 1) (s.wide aSTR_ADDR 2) 8 = true →
    max 8 (wbits (nats (s.spaceWords (src.toNat + 1) (s.wide aSTR_ADDR 2) 2) |>.getD 1 0) 31 0) = len →
    s.sourceOk (src.toNat + 1) (s.wide aSTR_ADDR 2) len = true → Completes (.strLoad (.port 0) src q) s (fun t =>
      t.bit aSTR_STAT fSTR_STAT_BUSY = true ∧ t.str.words = s.str.words ∧ t.str.qmask = q.toNat ∧
      t.str.checking = s.spaceWords (src.toNat + 1) (s.wide aSTR_ADDR 2) len ∧ KeepsRegs [aSTR_STAT] s t ∧
      KeepsMemory s t)) ∧
  (s.bit aSTR_STAT fSTR_STAT_BUSY = true → s.checkStream good = some r → s.str.boot = true → s.str.src = 2 →
    Completes (.strCheckDone good) s (fun t => t.bit aSTR_STAT fSTR_STAT_BUSY = true ∧ t.str.checking = referenceStream ∧
      t.str.src = 3 ∧ t.str.boot = true ∧ t.str.words = s.str.words ∧ t.bit aSTR_LAT fSTR_LAT_FALLBACK = true ∧
      t.causeStands 7 = true ∧ Raises 7 islManagement s t ∧ Raises 6 islManagement s t ∧ KeepsMemory s t)) ∧
  (s.bit aSTR_STAT fSTR_STAT_BUSY = false → Completes (.strCheckDone good) s (fun t => t = s)) ∧
  (s.bit aSTR_STAT fSTR_STAT_BUSY = true → s.checkStream good = some r → s.str.boot = false →
    Completes (.strCheckDone good) s (fun t => t.bit aSTR_STAT fSTR_STAT_BUSY = false ∧ t.str.words = s.str.words ∧
      t.str.checking = [] ∧ t.fld aSTR_STAT fSTR_STAT_CAUSE = r.1 % 16 ∧ t.bit aSTR_LAT fSTR_LAT_REJ = true ∧
      Raises 6 islManagement s t ∧ KeepsRegs [aSTR_STAT, aSTR_FOFF, aSTR_FOFF + 4, aSTR_LAT] s t ∧ KeepsMemory s t)) ∧
  (s.bit aSTR_STAT fSTR_STAT_BUSY = true → s.checkStream good = none → s.str.qmask ≠ 0 →
    Completes (.strCheckDone good) s (fun t => t.bit aSTR_STAT fSTR_STAT_BUSY = false ∧
      t.bit aSTR_STAT fSTR_STAT_CHECKED = true ∧ t.str = s.str ∧ KeepsRegs [aSTR_STAT] s t ∧ KeepsMemory s t)) ∧
  (s.bit aSTR_STAT fSTR_STAT_BUSY = true → s.checkStream good = none → s.str.qmask = 0 →
    Completes (.strCheckDone good) s (fun t => t.bit aSTR_STAT fSTR_STAT_BUSY = false ∧
      t.fld aSTR_STAT fSTR_STAT_STATE = 1 ∧ t.str.words = s.str.checking ∧ t.str.checking = [] ∧ t.twin = twNegotiate ∧
      t.hbmMem = s.hbmMem ∧ t.spill = s.spill)) ∧
  (Completes .strAbort s (fun t => t.bit aSTR_STAT fSTR_STAT_BUSY = false ∧ t.bit aSTR_STAT fSTR_STAT_CHECKED = false ∧
    t.str.checking = [] ∧ t.str.words = s.str.words ∧ t.agenda = s.agenda ∧ KeepsRegs [aSTR_STAT] s t ∧ KeepsMemory s t))) ∧
  (∀ (by_ : Issuer) (s : State),
  let refused := fun (t : State) => t.str = s.str ∧ t.fld aSTR_STAT fSTR_STAT_CAUSE = 9 ∧
    t.bit aSTR_LAT fSTR_LAT_REJ = true ∧ Raises 6 islManagement s t ∧
    KeepsRegs [aSTR_STAT, aSTR_FOFF, aSTR_FOFF + 4, aSTR_LAT] s t ∧ KeepsMemory s t
  (s.bit aSTR_STAT fSTR_STAT_CHECKED = true → s.bit aSTR_STAT fSTR_STAT_BUSY = false → s.applyAllowed = true →
    s.abortDue = false → Completes (.strApply by_) s (fun t => t.str.words = s.str.checking ∧ t.str.checking = [] ∧
      t.bit aSTR_STAT fSTR_STAT_CHECKED = false ∧ t.fld aSTR_STAT fSTR_STAT_STATE = 1 ∧ t.twin = s.twin ∧
      t.hbmMem = s.hbmMem ∧ t.spill = s.spill)) ∧
  ((s.bit aSTR_STAT fSTR_STAT_CHECKED = false ∨ s.bit aSTR_STAT fSTR_STAT_BUSY = true ∨ s.applyAllowed = false ∨
      s.abortDue = true) →
    Completes (.strApply by_) s refused) ∧
  (s.bit aSTR_STAT fSTR_STAT_BUSY = false → s.strInForce = true → Completes (.store true) s (fun t =>
    t = { s with str := { s.str with startSlot := s.str.words } })) ∧
  (s.bit aSTR_STAT fSTR_STAT_BUSY = false → s.strInForce = true → Completes (.store false) s (fun t => t.str = s.str ∧
    t.bit aSTR_LAT fSTR_LAT_STOREFAIL = true ∧ Raises 6 islManagement s t ∧ KeepsRegs [aSTR_LAT] s t ∧ KeepsMemory s t)) ∧
  ((s.strInForce = false ∨ s.bit aSTR_STAT fSTR_STAT_BUSY = true) → ∀ good, Completes (.store good) s refused) ∧
  (s.bit aSTR_STAT fSTR_STAT_BUSY = false → s.unloadAllowed = true → Completes (.unload by_) s (fun t =>
    t.strInForce = false ∧ t.str.words = [] ∧ t.str.plain = [] ∧ t.str.startSlot = s.str.startSlot ∧ t.tasks = [] ∧
    t.twin = twDetached ∧ t.agenda = s.agenda ∧ KeepsMemory s t)) ∧
  ((s.bit aSTR_STAT fSTR_STAT_BUSY = true ∨ s.unloadAllowed = false) → Completes (.unload by_) s refused))

/-- R451 to R453, R455: a raise of a source that exists sets its sticky bit. With no reaction pending, reaction 1 pends an
interrupt, 2 a trap, 3 a block reset due 64 cycles on, and 4 resets the engine die with FLT_RSTSRC naming the source; a
raise whose reaction does not exceed a pending one is merged and counted. Of two sources raised together, of no reaction less
than the other's, both set their bits, the graver reacts, the lower number where they are equal, and the other is merged. A
reserved source is not raised.
R450, R452, R456: an acknowledgement of a source whose cause has ended clears its sticky bit and its pending reactions; one
whose cause persists is refused with ACKREF; a raise of the raise cycle of the acknowledgement comes after it. A write of
FLT_STICKY acknowledges every source of its set bits. FORCE raises FS 0. The block reset of a reaction to FS 2 resets BUS alone.
Readings of the model: log entries 11, 53. -/
def Obligations.Faults : Prop :=
  (∀ (fs : Fin 128) (isl : Fin 80) (s : State),
  let n := fs.val; let k := s.reaction n; let c := Instr.faultRaise [(fs, isl)]
  let island := if isl.val < 64 then [Fin.ofNat 64 isl.val] else []
  (reservedSource n = false → (k < 1 ∨ 4 < k) → Completes c s (fun t => t.sticky n = true ∧
    t.reg aFLT_PEND = s.reg aFLT_PEND ∧ t.reg aFLT_MERGED = s.reg aFLT_MERGED ∧ KeepsMemory s t)) ∧
  (reservedSource n = false → s.pendingRank = 0 → k = 1 → Completes c s (fun t => t.sticky n = true ∧
    t.bit aFLT_PEND fFLT_PEND_IVALID = true ∧ t.fld aFLT_PEND fFLT_PEND_ISRC = n ∧ t.reg aFLT_MERGED = s.reg aFLT_MERGED ∧
    KeepsMemory s t)) ∧
  (reservedSource n = false → s.pendingRank < 2 → k = 2 → Completes c s (fun t => t.sticky n = true ∧
    t.bit aFLT_PEND fFLT_PEND_TVALID = true ∧ t.fld aFLT_PEND fFLT_PEND_TSRC = n ∧ KeepsMemory s t)) ∧
  (reservedSource n = false → s.pendingRank < 3 → k = 3 → Completes c s (fun t => t.sticky n = true ∧
    t.bit aFLT_PEND fFLT_PEND_BVALID = true ∧ t.fld aFLT_PEND fFLT_PEND_BSRC = n ∧
    (⟨s.count + cyc 64, .island islManagement, .cmd (.reactionBlockReset fs island)⟩ : Due) ∈ t.agenda ∧
    KeepsMemory s t)) ∧
  (reservedSource n = false → k = 4 → Completes c s (fun t => t.fld aFLT_RSTSRC fFLT_RSTSRC_SRC = n ∧
    t.bit aFLT_RSTSRC fFLT_RSTSRC_VALID = true ∧ rcReaction ∈ t.power.holding ∧ (∀ ch : Chan, t.drvEn ch.val = false) ∧
    t.agenda = [] ∧ t.sram = [] ∧ t.hbmMem = s.hbmMem ∧ t.spill = s.spill)) ∧
  (reservedSource n = false → 1 ≤ k → k ≤ s.pendingRank → Completes c s (fun t => t.sticky n = true ∧
    t.reg aFLT_PEND = s.reg aFLT_PEND ∧
    (t.reg aFLT_MERGED).toNat = min 0xFFFFFFFF ((s.reg aFLT_MERGED).toNat + 1) ∧ KeepsMemory s t)) ∧
  (reservedSource n = true → Completes c s (fun t => KeepsRegs [] s t ∧ t.agenda = s.agenda ∧ KeepsMemory s t)) ∧
  (∀ other : Fin 128, reservedSource n = false → reservedSource other.val = false → s.pendingRank = 0 → k = 1 →
    (s.reaction other.val = 0 ∨ (s.reaction other.val = 1 ∧ n < other.val)) → ∀ raises ∈ [[(fs, isl), (other, isl)], [(other, isl), (fs, isl)]],
    Completes (.faultRaise raises) s (fun t => t.sticky n = true ∧ t.sticky other.val = true ∧
      t.fld aFLT_PEND fFLT_PEND_ISRC = n ∧ t.bit aFLT_PEND fFLT_PEND_IVALID = true ∧
      (t.reg aFLT_MERGED).toNat = min 0xFFFFFFFF ((s.reg aFLT_MERGED).toNat + s.reaction other.val) ∧ KeepsMemory s t))) ∧
  (∀ (by_ : Issuer) (fs : Fin 128) (w : Fin 4) (data : Word) (d : Fin 80) (s : State),
  let n := fs.val
  (s.causeStands n = false → reservedSource n = false → s.raised.any (fun r => r.1.val == n) = false → Completes (.fltAck by_ fs) s (fun t => t.sticky n = false ∧
    (t.bit aFLT_PEND fFLT_PEND_IVALID = true → t.fld aFLT_PEND fFLT_PEND_ISRC ≠ n) ∧
    (t.bit aFLT_PEND fFLT_PEND_TVALID = true → t.fld aFLT_PEND fFLT_PEND_TSRC ≠ n) ∧
    (t.bit aFLT_PEND fFLT_PEND_BVALID = true → t.fld aFLT_PEND fFLT_PEND_BSRC ≠ n) ∧
    KeepsRegs [aFLT_STICKY (n / 32), aFLT_PEND] s t ∧ t.agenda = s.agenda ∧ KeepsMemory s t)) ∧
  (s.causeStands n = true → Completes (.fltAck by_ fs) s (fun t => t.sticky n = s.sticky n ∧
    t.bit aFLT_LAT fFLT_LAT_ACKREF = true ∧ t.fld aFLT_ACKREF fFLT_ACKREF_SRC = n ∧
    KeepsRegs [aFLT_LAT, aFLT_ACKREF] s t ∧ KeepsMemory s t)) ∧
  (s.causeStands n = false → reservedSource n = false → s.raised.any (fun r => r.1.val == n) = true → s.merged.contains n = false →
    Completes (.fltAck by_ fs) s (fun t => t = s)) ∧
  (s.causeStands n = false → s.raised.any (fun r => r.1.val == n) = true → s.merged.contains n = true → s.reaction n = 1 →
    reservedSource n = false → Completes (.fltAck by_ fs) s (fun t => t.sticky n = s.sticky n ∧
      t.bit aFLT_PEND fFLT_PEND_IVALID = true ∧ t.fld aFLT_PEND fFLT_PEND_ISRC = n ∧
      t.reg aFLT_MERGED = s.reg aFLT_MERGED - 1 ∧ t.merged.contains n = false ∧ KeepsMemory s t)) ∧
  (s.raised = [] → Completes (.fltStickyWrite by_ w data) s (fun t =>
    (∀ i : Fin 32, (t.reg (aFLT_STICKY w.val)).getLsbD i.val = ((s.reg (aFLT_STICKY w.val)).getLsbD i.val &&
      !(data.getLsbD i.val && !(s.causeStands (32 * w.val + i.val)) && !(reservedSource (32 * w.val + i.val))))) ∧
    t.causes = s.causes ∧ t.agenda = s.agenda ∧
    KeepsRegs [aFLT_STICKY w.val, aFLT_PEND, aFLT_LAT, aFLT_ACKREF] s t ∧ KeepsMemory s t)) ∧
  (Completes .force s (fun t => Raises 0 islManagement s t ∧ KeepsRegs [] s t ∧ KeepsMemory s t)) ∧
  (Completes (.reactionBlockReset 2 []) s (fun t => t.blkOn 3 = false ∧
    t.fld (aBUS_LATMAX d.val) ⟨15, 0⟩ = getF (regReset (aBUS_LATMAX d.val)) ⟨15, 0⟩ ∧
    (∀ a, a / 0x100000 ≠ 3 → t.reg a = s.reg a) ∧ t.agenda = s.agenda ∧ KeepsMemory s t)))

/-! ## Resets and power (chapters 20 to 22) -/

/-- R40, R506, R507: RST_N or RSTCMD.DIE holds the engine die in reset with its own cause, unless another source holds it
already: every register outside MGT, SEC and GLB_RSTCAUSE is at its reset value, but that OVEN_READY shows the oven (R82); every
task, player and action is gone, and HBM, but for writes not completed, the spill store and flash are kept. RSTCMD of a block
resets that block alone; the codes of GLB, FLT, MGT and SEC are refused.
R68, R503 to R507, R490: once no source holds the die it is released through step 4 of R503: LNK, BUS, HBM, TWN and CAL are
enabled, HBM trains, MGT is READY, and an oven out of regulation raises FS 11; in the limited state only LNK and BUS are. The
thermal trip holds it until every point has been cool for 10 s, and RST_N while it is low, whatever other sources end.
Readings of the model: log entries 56, 57, 80. -/
def Obligations.Resets : Prop :=
  (∀ (by_ : Issuer) (isl : Isl) (code : BitVec 8) (s : State),
  let held := fun (cause : Nat) (t : State) =>
    (∀ a, dieKeeps a = false → a ≠ aGLB_RSTCAUSE → a ≠ aTBS_STATE → t.reg a = regReset a) ∧
    t.reg aTBS_STATE = putF (regReset aTBS_STATE) fTBS_STATE_OVEN_READY s.power.oven.toNat ∧
    (∀ a, a / 0x100000 = 16 → a < aMGT_LOGNEXT ∨ aMGT_LOGOLD + 8 ≤ a → t.reg a = s.reg a) ∧
    cause ∈ t.power.holding ∧ (s.power.holding = [] → t.fld aGLB_RSTCAUSE fGLB_RSTCAUSE_CAUSE = cause) ∧
    (s.power.holding ≠ [] → t.fld aGLB_RSTCAUSE fGLB_RSTCAUSE_CAUSE = s.fld aGLB_RSTCAUSE fGLB_RSTCAUSE_CAUSE) ∧
    (∀ c, c ∈ s.power.holding → c ∈ t.power.holding) ∧ t.tasks = [] ∧ t.players = [] ∧ t.sram = [] ∧ t.count = 0 ∧
    t.session 0 = false ∧ t.session 1 = false ∧ (∀ d ∈ t.agenda, d.activates = true) ∧
    t.hbmMem = s.hbmFlush.hbmMem ∧ t.spill = s.spill ∧ t.calRec.field = s.calRec.field ∧ t.str.startSlot = s.str.startSlot ∧
    t.sec.slots = s.sec.slots ∧ t.pending = s.pending
  (Completes .rstNLow s (held rcPin)) ∧ (Completes .rstcmdDie s (held rcCommand)) ∧
  (Completes (.rstcmdBlock by_ 4) s (fun t => t.blkOn 3 = false ∧ (∀ a, a / 0x100000 ≠ 3 → t.reg a = s.reg a) ∧
    t.agenda = s.agenda ∧ KeepsMemory s t)) ∧
  (Completes (.rstcmdBlock by_ (BitVec.ofNat 8 (64 + isl.val))) s (fun t => t.blkOn (64 + isl.val) = false ∧
    (∀ c : Fin 4, t.drvEn (chanOf isl.val c.val) = false) ∧ (∀ u : UnitNo, t.bit (aMU_CTL isl.val u.val) fMU_CTL_EN = false) ∧
    KeepsMemory s t)) ∧
  (∀ b ∈ [0, 2, 16, 18], code.toNat = (blkId b).toNat / 65536 → Completes (.rstcmdBlock by_ code) s (fun t =>
    (t.reg 0x8).getLsbD 2 = true ∧ (∃ i, Raises 5 i s t) ∧ KeepsRegs [0x8, 0xC] s t ∧ KeepsMemory s t))) ∧
  (∀ (rstNHigh : Bool) (s : State),
  let left := s.power.holding.filter (fun c =>
    c == rcPower || c == rcActivate || c == rcThermal || (c == rcPin && !rstNHigh))
  let warm := s.power.holding.filter (· != rcThermal)
  let free := fun (t : State) => t.power.holding = [] ∧ t.fld aGLB_RSTCAUSE fGLB_RSTCAUSE_STEP = 4 ∧
    t.bit aMGT_STAT fMGT_STAT_READY = true ∧ t.bit aHBM_STAT fHBM_STAT_TRAINING = true ∧
    (∀ b ∈ [13, 3, 12, 14, 15], t.blkOn b = true) ∧
    (s.bit aFLT_RSTSRC fFLT_RSTSRC_VALID = true → Raises 1 islManagement s t) ∧
    (s.power.oven = false → t.causeStands 11 = true ∧ Raises 11 islManagement s t) ∧ KeepsMemory s t
  let stays := fun (l : List Nat) (t : State) => t.power.holding = l ∧ t.agenda = s.agenda ∧ KeepsRegs [] s t ∧ KeepsMemory s t
  let few := fun (t : State) => t.power.holding = [] ∧ t.blkOn 13 = true ∧ t.blkOn 3 = true ∧ t.blkOn 12 = s.blkOn 12 ∧
    t.blkOn 14 = s.blkOn 14 ∧ t.blkOn 15 = s.blkOn 15 ∧ KeepsMemory s t
  let limited := s.bit aGLB_RSTCAUSE fGLB_RSTCAUSE_LIMITED
  (s.power.holding ≠ [] → left = [] → limited = false → Completes (.resetRelease rstNHigh) s free) ∧
  (s.power.holding ≠ [] → left = [] → limited = true → Completes (.resetRelease rstNHigh) s few) ∧
  (left ≠ [] → Completes (.resetRelease rstNHigh) s (stays left)) ∧
  (s.power.holding = [] → Completes (.resetRelease rstNHigh) s (fun t => t = s)) ∧
  (s.power.holding = [rcThermal] → s.cooled = true → limited = false → Completes .thermalRelease s free) ∧
  (s.power.holding = [rcThermal] → s.cooled = true → limited = true → Completes .thermalRelease s few) ∧
  (rcThermal ∈ s.power.holding → s.cooled = true → warm ≠ [] → Completes .thermalRelease s (stays warm)) ∧
  ((rcThermal ∉ s.power.holding ∨ s.cooled = false) → Completes .thermalRelease s (fun t => t = s)))

/-- R469, R503, R506, R513: a power-on whose self-tests, floors and active slot are good boots from that slot, step 4 of R503
reached, with one boot more in the log; with the active slot bad it boots from the other, with BOOTFB and FS 113. The cause is
power, or activation where that has restarted the module; HBM's contents are lost with the power, and the oven starts cold, with
FS 11. A fuse of ZEROISE, a failed self-test (with FS 112), floors that do not verify or no good slot leave the limited state,
each with its reason. An input out of range raises FS 124 and runs the module on its hold-up store, its return ends the cause,
and a store exhausted, 30 ms or more after, holds the die until the next power-on.
Readings of the model: log entries 56, 80. -/
def Obligations.PowerAndInput : Prop := ∀ (hss slotB slotA f : Bool) (s : State),
  let cause := if rcActivate ∈ s.power.holding then rcActivate else rcPower
  let newOk := fun (x : FwSlot) => x.valid = true ∧ s.sec.floors.getD 0 0 ≤ x.version.toNat
  let booted := fun (x : FwSlot) (n : Nat) (t : State) => t.fld aGLB_RSTCAUSE fGLB_RSTCAUSE_CAUSE = cause ∧
    t.fld aGLB_RSTCAUSE fGLB_RSTCAUSE_STEP = 4 ∧ t.fld aSEC_STAT fSEC_STAT_STATE = seReady ∧
    t.fld aSEC_STAT fSEC_STAT_SLOT = n ∧ t.reg aSEC_FWVER = x.version ∧ t.mgt.boots = s.mgt.boots + 1 ∧
    t.power.holding = [] ∧ (∀ ch : Chan, t.drvEn ch.val = false) ∧ t.spill = s.spill ∧
    (cause = rcPower → t.hbmMem = [] ∧ t.causeStands 11 = true ∧
      (⟨cyc 64, .island islManagement, .raise 11 islManagement⟩ : Due) ∈ t.agenda)
  let limited := fun (why state : Nat) (t : State) => t.bit aGLB_RSTCAUSE fGLB_RSTCAUSE_LIMITED = true ∧
    t.fld aSEC_STAT fSEC_STAT_STATE = state ∧ t.fld aSEC_STAT fSEC_STAT_LIMIT = why ∧ t.power.holding = [] ∧
    t.blkOn 13 = true ∧ t.blkOn 3 = true ∧ t.blkOn 12 = false ∧ t.mgt.boots = s.mgt.boots + 1 ∧ t.spill = s.spill
  let plainBoot := s.sec.zeroisedFuse = false ∧ s.bit aMGT_FW fMGT_FW_TRIAL = false ∧ s.fld aMGT_FW fMGT_FW_ACTIVE = 0
  (plainBoot → newOk s.mgt.fwA → Completes (.powerOn true ⟨true, hss⟩ true slotB) s (booted s.mgt.fwA 0)) ∧
  (plainBoot → (s.mgt.fwA.valid = false ∨ slotA = false) → newOk s.mgt.fwB → Completes (.powerOn true ⟨true, hss⟩ slotA true) s
    (fun t => booted s.mgt.fwB 1 t ∧ t.bit aSEC_LAT fSEC_LAT_BOOTFB = true)) ∧
  (s.sec.zeroisedFuse = true → Completes (.powerOn f ⟨f, hss⟩ slotA slotB) s (limited 4 seZeroised)) ∧
  (s.sec.zeroisedFuse = false → Completes (.powerOn false ⟨f, hss⟩ slotA slotB) s (fun t => limited 1 seError t ∧
    (⟨cyc 64, .island islSecurity, .raise 112 islSecurity⟩ : Due) ∈ t.agenda ∧ t.causeStands 112 = true)) ∧
  (s.sec.zeroisedFuse = false → Completes (.powerOn true ⟨false, hss⟩ slotA slotB) s (fun t => limited 2 seReady t ∧
    (⟨cyc 64, .island islSecurity, .raise 112 islSecurity⟩ : Due) ∈ t.agenda)) ∧
  (plainBoot → Completes (.powerOn true ⟨true, hss⟩ false false) s (limited 3 seReady)) ∧
  (s.power.onHoldup = false → Completes .inputOutOfRange s (fun t => t.power.onHoldup = true ∧ t.causeStands 124 = true ∧
    t.power.outSince = s.mgt.uptime ∧ Raises 124 islManagement s t ∧ KeepsRegs [] s t ∧ KeepsMemory s t)) ∧
  (s.power.onHoldup = true → Completes .inputOutOfRange s (fun t => t = s)) ∧
  (Completes .inputReturn s (fun t => t.power.onHoldup = false ∧ t.causeAt 124 0 = false ∧ t.agenda = s.agenda ∧
    KeepsRegs [] s t ∧ KeepsMemory s t)) ∧
  (s.power.onHoldup = true → s.power.outSince + 30 ≤ s.mgt.uptime → Completes .holdupExhausted s (fun t =>
    t.power.holding = [rcPower] ∧ (∀ ch : Chan, t.drvEn ch.val = false) ∧ t.bit aTWN_STAT fTWN_STAT_OWN = false ∧
    (∀ d ∈ t.agenda, d.activates = true) ∧ t.spill = s.spill)) ∧
  ((s.power.onHoldup = false ∨ s.mgt.uptime < s.power.outSince + 30) → Completes .holdupExhausted s (fun t => t = s))

/-! ## Management (chapter 20) -/

/-- R484 to R486, R492, R494: a request taken from a free slot is answered on the management VC, in segments the last of which
says so: ROLE where its session has no right to it, else the reply of its command. SENSORS restarts the extremes of its port
alone, LOGMARK writes a log entry, and GETREPLY, and after 60 s the discard of a reply, free its slot; a reply that becomes ready
is announced once. While the mailbox is not READY, or all 16 slots of the port are taken, a request is not taken.
Readings of the model: log entries 55, 80. -/
def Obligations.Mailbox : Prop := ∀ (p : Port) (req code : Byte) (index : BitVec 64) (n : BitVec 16) (text : List Byte)
    (x : Slot) (r : Byte × List Byte) (s : State),
  let answer := fun (cmd status : Byte) (body : List Byte) (t : State) =>
    t.out = s.out ++ (segments (if cmd = 4 then 192 else 252) body).map (fun b => .mgt p cmd b.1 req status b.2) ∧
    t.agenda = s.agenda ∧ t.sec = s.sec ∧ t.str = s.str ∧ KeepsMemory s t
  let old := s.wide aMGT_LOGOLD 2
  let next := s.wide aMGT_LOGNEXT 2
  let taken := s.bit aMGT_STAT fMGT_STAT_READY = true ∧ (s.slots p.val).length < 16
  let mail := taken ∧ s.mayMail p.val false = true
  let entries := (s.mgt.log.drop (index.toNat - old)).take (min n.toNat 384)
  let asks := [(Instr.status p req, (1 : Byte)), (.sensors p req, 2), (.history p req code index, 3), (.logread p req index n, 4),
    (.logmark p req text, 5), (.getreply p req code, 11)]
  (s.bit aMGT_STAT fMGT_STAT_READY = false ∨ 16 ≤ (s.slots p.val).length → ∀ r ∈ asks, Completes r.1 s (fun t => t = s)) ∧
  (taken → s.mayMail p.val false = false → Sends p 3 s → ∀ r ∈ asks, Completes r.1 s (fun t => answer r.2 1 [] t ∧
    t.mgt = s.mgt ∧ KeepsRegs [] s t)) ∧
  (mail → Sends p 3 s → Completes (.status p req) s (fun t => answer 1 0 (leBytes 4 (s.reg aMGT_STAT).toNat ++
    leBytes 4 (s.reg aMGT_FW).toNat ++ leBytes 1 (s.fld aMGT_STAT fMGT_STAT_LOAD)) t ∧ t.mgt = s.mgt ∧ KeepsRegs [] s t)) ∧
  (mail → SendsAll p 3 2 s → Completes (.sensors p req) s (fun t =>
    answer 2 0 ((List.range 34).flatMap (fun k => leBytes 4 (s.reg (aMGT_SENS k)).toNat ++
      leBytes 4 (s.extremes p.val k).1.toNat ++ leBytes 4 (s.extremes p.val k).2.toNat)) t ∧
    (∀ k, k < 34 → t.extremes p.val k = (s.reg (aMGT_SENS k), s.reg (aMGT_SENS k)) ∧
      t.extremes (1 - p.val) k = s.extremes (1 - p.val) k) ∧ t.mgt.log = s.mgt.log ∧ KeepsRegs [] s t)) ∧
  (mail → code.toNat < 34 → SendsAll p 3 (segments 252 (s.historyFrom code.toNat index)).length s →
    Completes (.history p req code index) s (fun t => answer 3 0 (s.historyFrom code.toNat index) t ∧ t.mgt = s.mgt ∧
      KeepsRegs [] s t)) ∧
  (mail → Sends p 3 s → 34 ≤ code.toNat → Completes (.history p req code index) s (fun t => answer 3 3 [] t ∧
    t.mgt = s.mgt ∧ KeepsRegs [] s t)) ∧
  (mail → SendsAll p 3 (segments 192 entries.flatten).length s → Completes (.logread p req index n) s (fun t =>
    answer 4 0 entries.flatten t ∧ t.mgt = s.mgt ∧ KeepsRegs [] s t)) ∧
  (mail → Sends p 3 s → Completes (.logmark p req text) s (fun t => answer 5 0 [] t ∧
    t.wide aMGT_LOGNEXT 2 = (next + 1) % 2 ^ 64 ∧
    t.mgt.log = (if next - old < 1048576 then s.mgt.log else s.mgt.log.drop 4096) ++
      [logBytes s 0x0D (if s.bit aTBS_STATE fTBS_STATE_TIME_VALID then 0 else 2) p.val next (text.take 28)] ∧
    (next - old < 1048576 → t.wide aMGT_LOGOLD 2 = old) ∧ t.mgt.boots = s.mgt.boots ∧
    KeepsRegs [aMGT_LOGNEXT, aMGT_LOGNEXT + 4, aMGT_LOGOLD, aMGT_LOGOLD + 4] s t)) ∧
  (mail → heldReply code (s.slots p.val) = some x → x.reply = some r → SendsAll p 3 (segments 252 r.2).length s →
    Completes (.getreply p req code) s (fun t => answer 11 r.1 r.2 t ∧ t.slots p.val = (s.slots p.val).erase x ∧
      t.slots (1 - p.val) = s.slots (1 - p.val) ∧ t.mgt.log = s.mgt.log ∧ KeepsRegs [aMGT_STAT] s t)) ∧
  (mail → Sends p 3 s → heldReply code (s.slots p.val) = none → Completes (.getreply p req code) s (fun t =>
    answer 11 6 [] t ∧ t.mgt = s.mgt ∧ KeepsRegs [] s t)) ∧
  ((s.slots p.val).any (fun x => x.req == req && x.reply.isSome && !x.told) = true → s.evtPort p.val = true → Sends p 3 s →
    Completes (.replyReady p req) s (fun t => t.out = s.out ++ [.evt p 2 (req.setWidth 16) s.count] ∧
      t.slots p.val = tellReply req (s.slots p.val) ∧ t.slots (1 - p.val) = s.slots (1 - p.val) ∧ t.mgt.log = s.mgt.log ∧
      KeepsRegs [aMGT_STAT] s t ∧ KeepsMemory s t)) ∧
  ((s.slots p.val).any (fun x => x.req == req && x.reply.isSome && !x.told) = false → Completes (.replyReady p req) s (fun t => t = s)) ∧
  (heldReply req (s.slots p.val) = some x → x.readyAt + 60000 ≤ s.mgt.uptime → Completes (.replyDiscard p req) s (fun t =>
    t.slots p.val = (s.slots p.val).erase x ∧ t.slots (1 - p.val) = s.slots (1 - p.val) ∧ t.out = s.out ∧
    KeepsRegs [aMGT_STAT] s t ∧ KeepsMemory s t)) ∧
  (heldReply req (s.slots p.val) = some x → s.mgt.uptime < x.readyAt + 60000 → Completes (.replyDiscard p req) s (fun t => t = s)) ∧
  (heldReply req (s.slots p.val) = none → Completes (.replyDiscard p req) s (fun t => t = s))

/-- R467, R486, R487, R496 to R498: UPDATE takes the image and a slot, answers PENDING and, where the image passes its checks,
makes the inactive slot invalid; its end leaves that slot valid with the image's VERSION, or UPD 3; the slot in use is kept.
ACTIVATE, where R497 allows it, restarts the module with TRIAL at its due time; CONFIRM clears TRIAL and raises the firmware
floor to the running VERSION; ROLLBACK marks the other slot, unless it is invalid or below the floor, and the expiry of CONFTO
in a trial, once, the previous one. STRCOPY writes an archived stream into a GENERAL region and nowhere else. A role that may not
gets ROLE, a command under way BUSY.
Readings of the model: log entries 55, 80. -/
def Obligations.Firmware : Prop := ∀ (p : Port) (req k : Byte) (offset : BitVec 45) (len : Word) (due : Count)
    (ws : List (BitVec 64)) (written verified : Bool) (s : State),
  let answer := fun (cmd status : Byte) (t : State) => t.out = s.out ++ [.mgt p cmd 0x80 req status []]
  let ready := s.bit aMGT_STAT fMGT_STAT_READY = true ∧ (s.slots p.val).length < 16 ∧ Sends p 3 s
  let may := ready ∧ s.mayMail p.val true = true
  let slot := s.fld aSEC_STAT fSEC_STAT_SLOT
  let o := 1 - slot
  let image := Memory.readBytes s.hbmMem offset.toNat len.toNat
  let fits := len.toNat ≤ 33554432 ∧ offset.toNat + len.toNat ≤ 0x600000000
  let same := fun (t : State) => t.mgt = s.mgt ∧ t.agenda = s.agenda ∧ KeepsRegs [] s t ∧ KeepsMemory s t
  let logRegs := [aMGT_LOGNEXT, aMGT_LOGNEXT + 4, aMGT_LOGOLD, aMGT_LOGOLD + 4]
  let all := [(Instr.update p req offset len, (6 : Byte)), (.activate p req due, 7), (.confirm p req, 8), (.rollback p req, 9),
    (.strcopy p req k offset, 10)]
  (ready → s.mayMail p.val true = false → s.mgt.running = none → ∀ r ∈ all, Completes r.1 s (fun t => answer r.2 1 t ∧ same t)) ∧
  (may → s.mgt.running.isSome = true → s.mgt.running ≠ some 7 →
    ∀ r ∈ [all.getD 0 (.force, 0), all.getD 1 (.force, 0), all.getD 3 (.force, 0), all.getD 4 (.force, 0)],
      Completes r.1 s (fun t => answer r.2 5 t ∧ same t)) ∧
  (may → slot < 2 → s.mgt.running = none → fits → Completes (.update p req offset len) s (fun t => answer 6 7 t ∧
    t.mgt.running = some 6 ∧ t.mgt.image = image ∧ t.mgt.checked = s.imageOk image ∧
    t.slots p.val = s.slots p.val ++ [{ cmd := 6, req := req }] ∧ t.fld aMGT_FW fMGT_FW_UPD = 1 ∧ t.fwSlot slot = s.fwSlot slot ∧
    (t.fwSlot o).valid = (if s.imageOk image then false else (s.fwSlot o).valid) ∧
    t.reg (aMGT_FWVER o) = (if s.imageOk image then 0 else s.reg (aMGT_FWVER o)) ∧
    KeepsRegs [aMGT_FW, aMGT_FWVER o, aMGT_STAT] s t ∧ KeepsMemory s t)) ∧
  (may → s.mgt.running = none → ¬ fits → Completes (.update p req offset len) s (fun t => answer 6 3 t ∧ same t)) ∧
  (may → s.mgt.running = none → s.mayActivate = true → Count.upto due s.count = false →
    Completes (.activate p req due) s (fun t => answer 7 0 t ∧ t.mgt.running = some 7 ∧
      (⟨due, .island islManagement, .cmd (.activate p req due)⟩ : Due) ∈ t.agenda ∧ KeepsRegs [] s t ∧ KeepsMemory s t)) ∧
  (may → s.mgt.running = none → s.mayActivate = false → Completes (.activate p req due) s (fun t => answer 7 2 t ∧ same t)) ∧
  (may → slot < 2 → Completes (.confirm p req) s (fun t => answer 8 0 t ∧ t.bit aMGT_FW fMGT_FW_TRIAL = false ∧
    (s.sec.floorRaises.getD 0 0 < 255 →
      (t.reg (aSEC_FLOOR 0)).toNat = max (s.reg (aSEC_FLOOR 0)).toNat (s.reg aSEC_FWVER).toNat) ∧
    t.wide aMGT_LOGNEXT 2 = (s.wide aMGT_LOGNEXT 2 + 1) % 2 ^ 64 ∧
    KeepsRegs (aMGT_FW :: aSEC_FLOOR 0 :: logRegs) s t ∧ KeepsMemory s t)) ∧
  (may → slot < 2 → s.mgt.running = none → (s.fwSlot o).valid = true →
    (s.reg (aSEC_FLOOR 0)).toNat ≤ (s.fwSlot o).version.toNat → Completes (.rollback p req) s (fun t => answer 9 0 t ∧
      t.fld aMGT_FW fMGT_FW_ACTIVE = o ∧ KeepsRegs (aMGT_FW :: logRegs) s t ∧ KeepsMemory s t)) ∧
  (may → s.mgt.running = none → ((s.fwSlot o).valid = false ∨ (s.fwSlot o).version.toNat < (s.reg (aSEC_FLOOR 0)).toNat) →
    Completes (.rollback p req) s (fun t => answer 9 4 t ∧ same t)) ∧
  (may → s.mgt.running = none → s.mgt.archive[k.toNat]? = some ws → s.inKind 7 offset.toNat (wordsBytes ws).length = true →
    Completes (.strcopy p req k offset) s (fun t => answer 10 0 t ∧
      (∀ i, i < (wordsBytes ws).length → Memory.read t.hbmMem (offset.toNat + i) = (wordsBytes ws).getD i 0) ∧
      (∀ a, (a < offset.toNat ∨ offset.toNat + (wordsBytes ws).length ≤ a) → Memory.read t.hbmMem a = Memory.read s.hbmMem a) ∧
      t.sram = s.sram ∧ t.spill = s.spill ∧ t.mgt = s.mgt ∧ KeepsRegs [] s t)) ∧
  (may → s.mgt.running = none → s.mgt.archive[k.toNat]? = some ws → s.inKind 7 offset.toNat (wordsBytes ws).length = false →
    Completes (.strcopy p req k offset) s (fun t => answer 10 3 t ∧ same t)) ∧
  (may → s.mgt.running = none → s.mgt.archive[k.toNat]? = none → Completes (.strcopy p req k offset) s (fun t =>
    answer 10 6 t ∧ same t)) ∧
  (s.mgt.running = some 6 → slot < 2 → s.mgt.checked = true → Completes (.updateDone true true) s (fun t =>
    t.fld aMGT_FW fMGT_FW_UPD = 2 ∧ t.mgt.running = none ∧ (t.fwSlot o).valid = true ∧
    (t.fwSlot o).version = BitVec.ofNat 32 (fieldAt s.mgt.image 4 4) ∧ t.reg (aMGT_FWVER o) = (t.fwSlot o).version ∧
    t.fwSlot slot = s.fwSlot slot ∧ KeepsRegs (aMGT_FW :: aMGT_FWVER o :: logRegs) s t ∧ t.out = s.out ∧ KeepsMemory s t)) ∧
  (s.mgt.running = some 6 → (s.mgt.checked = false ∨ (written && verified) = false) → Completes (.updateDone written verified) s (fun t =>
    t.fld aMGT_FW fMGT_FW_UPD = 3 ∧ t.mgt.running = none ∧ t.fwSlot 0 = s.fwSlot 0 ∧ t.fwSlot 1 = s.fwSlot 1 ∧
    KeepsRegs (aMGT_FW :: logRegs) s t ∧ t.out = s.out ∧ KeepsMemory s t)) ∧
  (s.mgt.running ≠ some 6 → Completes (.updateDone written verified) s (fun t => t = s)) ∧
  (s.mgt.running = some 7 → slot < 2 → Count.upto due s.count = true → Completes (.activate p req due) s (fun t =>
    t.power.holding = [rcActivate] ∧ t.bit aMGT_FW fMGT_FW_TRIAL = true ∧ t.fld aMGT_FW fMGT_FW_TRIES = 0 ∧
    t.fld aMGT_FW fMGT_FW_ACTIVE = o ∧ t.fld aGLB_RSTCAUSE fGLB_RSTCAUSE_CAUSE = rcActivate ∧ t.mgt.previous = slot ∧
    t.agenda = [] ∧ t.hbmMem = s.hbmFlush.hbmMem ∧ t.spill = s.spill ∧ t.mgt.fwA = s.mgt.fwA ∧ t.mgt.fwB = s.mgt.fwB)) ∧
  (s.trialOver = true → s.mgt.previous < 2 → Completes .conftoExpiry s (fun t =>
    t.fld aMGT_FW fMGT_FW_ACTIVE = s.mgt.previous ∧ t.bit aMGT_LAT fMGT_LAT_ROLLBACK = true ∧ t.mgt.expired = true ∧
    t.agenda = s.agenda ∧ KeepsRegs (aMGT_FW :: aMGT_LAT :: logRegs) s t ∧ KeepsMemory s t)) ∧
  (s.trialOver = false → Completes .conftoExpiry s (fun t => t = s))

/-- R488 to R491, R499, R500: a sensor sample, one in a millisecond, shows in the sensor registers and in the extremes of both
ports; a warning limit crossed latches; FS 120 is raised when the first junction rises above 125 °C and its cause ends at 120 °C,
and above 140 °C the engine die is reset with THERM. The load window of 100 ms raises the shedding level above 90 % and lowers
it at 75 % and below, with FS 118 while the load is above 90 %; a watchdog expiry answers what is in hand with BUSY, frees every
slot, ends an UPDATE with UPD 3 and raises FS 117. A sample or a window before its time does nothing.
Readings of the model: log entries 55, 80. -/
def Obligations.SensorsAndLoad : Prop := ∀ (v : Vector Word 34) (w : Vector Word 12) (load : BitVec 8) (x : Slot) (s : State),
  let lvl := s.fld aMGT_STAT fMGT_STAT_SHED
  let h := (hottest v.toList).2
  let lvl' := if 90 < load.toNat then min 3 (lvl + 1) else if load.toNat ≤ 75 then lvl - 1 else lvl
  let ext := fun (q k : Nat) (y : Word) =>
    let e := (Tab.get (fun _ => none) s.mgt.extremes (q * 64 + k)).getD (y, y)
    (if y.toInt < e.1.toInt then y else e.1, if e.2.toInt < y.toInt then y else e.2)
  (s.sampleDue = true → (h ≤ 1120 ∨ rcThermal ∈ s.power.holding) → Completes (.sensorSample v w) s (fun t =>
    (∀ k : Fin 34, t.reg (aMGT_SENS k.val) = v[k]) ∧ (∀ r : Fin 12, t.reg (aMGT_RPWR r.val) = w[r]) ∧
    (∀ k : Fin 34, (t.reg (aMGT_WARNLAT (k.val / 32))).getLsbD (k.val % 32) =
      ((s.reg (aMGT_WARNLAT (k.val / 32))).getLsbD (k.val % 32) || t.sensorBeyond k.val)) ∧
    (∀ q : Port, ∀ k : Fin 34, t.extremes q.val k.val = ext q.val k.val v[k]) ∧
    ((∃ k : Fin 16, 1000 < (v[k.val]'(by omega)).toInt) → s.causeStands 120 = false →
      Raises 120 islManagement s t ∧ t.causeStands 120 = true) ∧
    ((∀ k : Fin 16, (v[k.val]'(by omega)).toInt ≤ 960) → t.causeAt 120 0 = false) ∧
    t.mgt.uptime = s.mgt.uptime + 1 ∧ t.mgt.coolFor = (if h ≤ 880 then s.mgt.coolFor + 1 else 0) ∧
    (∀ a, a / 0x100000 ≠ 16 → a ≠ aHBM_STAT → t.reg a = s.reg a) ∧ t.power = s.power ∧ t.out = s.out ∧ KeepsMemory s t)) ∧
  (s.sampleDue = true → 1120 < h → rcThermal ∉ s.power.holding → Completes (.sensorSample v w) s (fun t =>
    rcThermal ∈ t.power.holding ∧ t.bit aMGT_LAT fMGT_LAT_THERM = true ∧ (∀ ch : Chan, t.drvEn ch.val = false) ∧
    (∀ k : Fin 34, t.reg (aMGT_SENS k.val) = v[k]) ∧ (∀ d ∈ t.agenda, d.activates = true) ∧
    t.hbmMem = s.hbmFlush.hbmMem ∧ t.spill = s.spill)) ∧
  (s.sampleDue = false → Completes (.sensorSample v w) s (fun t => t = s)) ∧
  (s.mgt.windowAt + 100 ≤ s.mgt.uptime → Completes (.loadWindow load) s (fun t =>
    t.fld aMGT_STAT fMGT_STAT_LOAD = load.toNat ∧ t.fld aMGT_STAT fMGT_STAT_SHED = lvl' ∧
    (90 < load.toNat → lvl = 0 → t.bit aMGT_LAT fMGT_LAT_SHED = true) ∧
    (90 < load.toNat → s.causeStands 118 = false → Raises 118 islManagement s t ∧ t.causeStands 118 = true) ∧
    (load.toNat ≤ 90 → t.causeAt 118 0 = false ∧ t.agenda = s.agenda) ∧ t.mgt.windowAt = s.mgt.uptime ∧
    KeepsRegs [aMGT_STAT, aMGT_LAT, aMGT_LOGNEXT, aMGT_LOGNEXT + 4, aMGT_LOGOLD, aMGT_LOGOLD + 4] s t ∧ KeepsMemory s t)) ∧
  (s.mgt.uptime < s.mgt.windowAt + 100 → Completes (.loadWindow load) s (fun t => t = s)) ∧
  (Completes .watchdogExpiry s (fun t => t.slots 0 = [] ∧ t.slots 1 = [] ∧ t.mgt.running = none ∧
    t.bit aMGT_LAT fMGT_LAT_WDOG = true ∧ (t.reg aMGT_WDOG).toNat = min 0xFFFFFFFF ((s.reg aMGT_WDOG).toNat + 1) ∧
    (s.mgt.running = some 6 → t.fld aMGT_FW fMGT_FW_UPD = 3) ∧ (∀ d ∈ t.agenda, d.activates = false) ∧
    (s.slots 0 = [x] → s.slots 1 = [] → x.reply = none → Sends 0 3 s → t.out = s.out ++ [.mgt 0 x.cmd 0x80 x.req 5 []]) ∧
    Raises 117 islManagement s t ∧ (∀ a, a / 0x100000 ≠ 16 → t.reg a = s.reg a) ∧ KeepsMemory s t))

/-! ## Security (chapter 19) -/

/-- R476 to R479: SEC_HELLO on a port that has a session, that refuses HELLO or whose island is not up is answered STATUS 2; a
malformed one fails. Else the module's HELLO goes out, the exchange waits, and its PROOF is asked for. A PROOF in time, after the
module's own, whose credential and signature are good opens the session with the role, with FINISH; another one ends the exchange
and counts; the sixteenth failure in a row closes the port to HELLO for 60 s. An exchange fails 5 s after the host's HELLO.
CLOSE ends the session, and the log records it.
Readings of the model: log entry 79. -/
def Obligations.Sessions : Prop := ∀ (p : Port) (role : Byte) (io : Bool) (nonce qh cred credTrailer ecdsa hss : List Byte) (x : Exchange) (s : State),
  let logRegs := [aMGT_LOGNEXT, aMGT_LOGNEXT + 4, aMGT_LOGOLD, aMGT_LOGOLD + 4]
  let full := cred ++ credTrailer
  let sig := ecdsa ++ hss
  let failed := fun (t : State) => t.exchange p.val = none ∧ s.session p.val = t.session p.val ∧
    t.fld (aSEC_SESS p.val) fSEC_SESS_FAILED = min 0xFFFF (s.fld (aSEC_SESS p.val) fSEC_SESS_FAILED + 1) ∧
    (16 ≤ s.sec.failRun.getD p.val 0 + 1 → t.bit (aSEC_SESS p.val) fSEC_SESS_REFUSED = true) ∧
    (s.sec.failRun.getD p.val 0 + 1 < 16 → t.bit (aSEC_SESS p.val) fSEC_SESS_REFUSED =
      s.bit (aSEC_SESS p.val) fSEC_SESS_REFUSED) ∧ KeepsRegs [aSEC_SESS p.val] s t ∧ KeepsMemory s t ∧ t.mgt = s.mgt
  let opened := fun (t : State) => t.session p.val = true ∧ t.sessRole p.val = x.role.toNat ∧
    t.exchange p.val = none ∧ t.bit (aSEC_SESS p.val) fSEC_SESS_OPEN = true ∧
    t.fld (aSEC_SESS p.val) fSEC_SESS_ROLE = x.role.toNat ∧
    t.bit (aLP_STAT p.val) fLP_STAT_INTONLY = (x.intOnly && Config.intOnlyRole x.role.toNat) ∧
    t.sec.provisional.getD p.val false = (credIssuer full == 0x80) ∧ t.session (1 - p.val) = s.session (1 - p.val) ∧
    (t.link p.val).txFrames = 0 ∧ (t.link p.val).rxFrames = 0 ∧ t.sec.failRun.getD p.val 0 = 0 ∧
    KeepsRegs (aLP_STAT p.val :: aSEC_SESS p.val :: logRegs) s t ∧ KeepsMemory s t
  let closed := s.session p.val = true ∨ s.bit (aSEC_SESS p.val) fSEC_SESS_REFUSED = true ∨ s.secUp = false
  let wellFormed := role.toNat ≤ 3 ∧ nonce.length = 32 ∧ qh.length = 97
  let hello := fit 32 (Config.random s.free 32) ++ fit 97 (Config.ecdhPublic s.free) ++ Config.identityChain
  (closed → Completes (.secHello p role io nonce qh) s (fun t => Says p 3 [.sec p 1 0x80 2 []] s t ∧ t.sec = s.sec ∧
    KeepsRegs [] s t ∧ KeepsMemory s t)) ∧
  (¬ closed → wellFormed → Completes (.secHello p role io nonce qh) s (fun t =>
    Says p 3 ((segments 252 hello).map (fun b => .sec p 1 b.1 0 b.2)) s t ∧
    (t.exchange p.val).any (fun e => e.role.toNat == role.toNat && e.intOnly == io && e.since == s.mgt.uptime && !e.proved) ∧
    t.sec.requests = placeSig s.count (.proof p) (s.sec.requests.filter (fun r => !(r.2.isProof p.val))) ∧
    t.sec.q = s.sec.q ∧ t.exchange (1 - p.val) = s.exchange (1 - p.val) ∧ t.free = s.free + 1 ∧ KeepsRegs [] s t ∧
    KeepsMemory s t)) ∧
  (¬ closed → ¬ wellFormed → Completes (.secHello p role io nonce qh) s (fun t => failed t ∧
    Says p 3 [.sec p 1 0x80 4 []] s t)) ∧
  (s.exchange p.val = none → Completes (.proof p cred credTrailer ecdsa hss) s (fun t => Says p 3 [.sec p 2 0x80 2 []] s t ∧ t.sec = s.sec ∧
    KeepsRegs [] s t ∧ KeepsMemory s t)) ∧
  (s.exchange p.val = some x → s.sec.provisional.length = 2 → s.sec.failRun.length = 2 → Completes (.proof p cred credTrailer ecdsa hss) s (fun t =>
    (s.proofGood x full sig = true → opened t) ∧ (s.proofGood x full sig = false → failed t) ∧
    (Sends p 3 s → t.out = s.out ++ [if s.proofGood x full sig then
      .sec p 3 0x80 0 (leBytes 1 x.role.toNat ++ leBytes 1 (x.intOnly && Config.intOnlyRole x.role.toNat).toNat)
      else .sec p 3 0x80 4 []]))) ∧
  (s.exchange p.val = some x → (x.proved = false ∨ s.exchangeOver x = true ∨ s.secUp = false ∨
    s.credential full x.role.toNat = false) → Completes (.proof p cred credTrailer ecdsa hss) s failed) ∧
  (s.exchange p.val = some x → s.exchangeOver x = true → Completes (.sessionTimeout p) s (fun t => failed t ∧
    Says p 3 [.sec p 3 0x80 4 []] s t)) ∧
  (s.exchange p.val = some x → s.exchangeOver x = false → Completes (.sessionTimeout p) s (fun t => t = s)) ∧
  (s.exchange p.val = none → Completes (.sessionTimeout p) s (fun t => t = s)) ∧
  (s.refusalOver p.val = true → Completes (.helloLockEnd p) s (fun t =>
    t.bit (aSEC_SESS p.val) fSEC_SESS_REFUSED = false ∧ t.sec = s.sec ∧
    t.fld (aSEC_SESS p.val) fSEC_SESS_FAILED = s.fld (aSEC_SESS p.val) fSEC_SESS_FAILED ∧
    KeepsRegs [aSEC_SESS p.val] s t ∧ KeepsMemory s t)) ∧
  (s.refusalOver p.val = false → Completes (.helloLockEnd p) s (fun t => t = s)) ∧
  (s.session p.val = true → Completes (.close p) s (fun t => t.session p.val = false ∧
    Says p 3 [.sec p 4 0x80 0 []] s t ∧ t.bit (aSEC_SESS p.val) fSEC_SESS_OPEN = false ∧
    t.wide aMGT_LOGNEXT 2 = (s.wide aMGT_LOGNEXT 2 + 1) % 2 ^ 64 ∧ t.session (1 - p.val) = s.session (1 - p.val) ∧
    KeepsRegs (aLP_STAT p.val :: aSEC_SESS p.val :: logRegs) s t ∧ t.sec.slots = s.sec.slots ∧ t.sec.exch = s.sec.exch ∧
    KeepsMemory s t)) ∧
  (s.session p.val = false → Completes (.close p) s (fun t => Says p 3 [.sec p 4 0x80 1 []] s t ∧
    t.sec = s.sec ∧ KeepsRegs [] s t ∧ KeepsMemory s t))

/-- R463, R465 to R468, R479, R481: a service outside the rights of its session is answered STATUS 1, one of an island that is not
up STATUS 2, and neither changes anything. With them, ENROLL fills a free customer slot, ENROLL_CK a content key that a live
customer anchor has signed and whose generation is not below the present one, REVOKE revokes a customer slot for good, and with
the signature of the other anchor of its use a vendor slot; FLOOR raises a floor up to the VERSION in force, MODE burns the
approved fuse, and ZEROISE burns its fuse, ends every session and erases the content keys, the field records and the count of the
spill store. What does not fit is answered with its STATUS and changes nothing. The spill store is erased when its erase is done;
a test port used in the approved mode raises FS 125.
Readings of the model: log entries 54, 79. -/
def Obligations.KeysAndFloors : Prop := ∀ (p : Port) (slot usage which : Byte) (keys sig : List Byte) (gen : BitVec 16)
    (key : BitVec 256) (v : Word) (s : State),
  let all := [(Instr.enroll p slot usage keys, (9 : Byte)), (.enrollCk p slot gen key sig, 10), (.revoke p slot sig, 11),
    (.floor p which v, 12), (.mode p, 13), (.zeroise p, 14)]
  let refused := fun (msg st : Byte) (t : State) => t.out = s.out ++ [.sec p msg 0x80 st []] ∧ t.sec = s.sec ∧ KeepsRegs [] s t ∧
    t.agenda = s.agenda ∧ KeepsMemory s t
  let ok := fun (msg : Byte) (t : State) => t.out = s.out ++ [.sec p msg 0x80 0 []] ∧ t.agenda = s.agenda ∧ t.mgt = s.mgt ∧
    KeepsMemory s t
  let right := s.session p.val = true ∧ s.sessRole p.val = 3 ∧ s.secUp = true ∧ Sends p 3 s
  let full := right ∧ s.sec.provisional.getD p.val false = false
  let signed := (List.range 8).any (fun n =>
    s.slotLive n 1 && Config.verify (s.keySlot n).anchor (s.keyMessage slot gen key) sig)
  let now := (Tab.get (fun _ => ((0, 0) : BitVec 16 × BitVec 256)) s.sec.content slot.toNat).1
  let vend := slot.toNat - 0x80
  (Sends p 3 s → (s.session p.val = false ∨ s.sessRole p.val ≠ 3) → ∀ r ∈ all, Completes r.1 s (refused r.2 1)) ∧
  (Sends p 3 s → s.sec.provisional.getD p.val false = true → ∀ r ∈ all.drop 1, Completes r.1 s (refused r.2 1)) ∧
  (Sends p 3 s → s.session p.val = true → s.sessRole p.val = 3 → s.sec.provisional.getD p.val false = false →
    s.secUp = false → ∀ r ∈ all, Completes r.1 s (refused r.2 2)) ∧
  (right → slot.toNat < 8 → usage &&& 7 ≠ 0 → keys.length = 157 → (s.keySlot slot.toNat).used = false →
    (s.keySlot slot.toNat).revoked = false → Completes (.enroll p slot usage keys) s (fun t => ok 9 t ∧
      t.keySlot slot.toNat = ⟨true, false, usage.setWidth 3, Config.sha384 keys⟩ ∧
      (∀ i, i ≠ slot.toNat → t.keySlot i = s.keySlot i) ∧
      t.fld aSEC_SLOTS ⟨2 * slot.toNat + 1, 2 * slot.toNat⟩ = 1 ∧ KeepsRegs [aSEC_SLOTS] s t)) ∧
  (right → slot.toNat < 8 → usage &&& 7 ≠ 0 → keys.length = 157 →
    ((s.keySlot slot.toNat).used = true ∨ (s.keySlot slot.toNat).revoked = true) →
    Completes (.enroll p slot usage keys) s (refused 9 2)) ∧
  (right → (8 ≤ slot.toNat ∨ usage &&& 7 = 0 ∨ keys.length ≠ 157) → Completes (.enroll p slot usage keys) s (refused 9 3)) ∧
  (full → 1 ≤ slot.toNat → slot.toNat < 8 → Completes (.enrollCk p slot gen key sig) s (fun t =>
    (signed = false → refused 10 4 t) ∧ (signed = true → gen.toNat < now.toNat → refused 10 2 t) ∧
    (signed = true → now.toNat ≤ gen.toNat → ok 10 t ∧ Tab.get (fun _ => (0, 0)) t.sec.content slot.toNat = (gen, key) ∧
      t.sec.slots = s.sec.slots ∧ KeepsRegs [] s t))) ∧
  (full → (slot.toNat = 0 ∨ 8 ≤ slot.toNat) → Completes (.enrollCk p slot gen key sig) s (refused 10 3)) ∧
  (full → slot.toNat < 8 → Completes (.revoke p slot sig) s (fun t => ok 11 t ∧
    (t.keySlot slot.toNat).revoked = true ∧ (∀ u, t.slotLive slot.toNat u = false) ∧
    (∀ i, i ≠ slot.toNat → t.keySlot i = s.keySlot i) ∧
    t.fld aSEC_SLOTS ⟨2 * slot.toNat + 1, 2 * slot.toNat⟩ = 2 ∧ KeepsRegs [aSEC_SLOTS] s t)) ∧
  (full → 0x80 ≤ slot.toNat → slot.toNat < 0x86 → ∀ o, vendorPair vend = some o → s.sec.vendorRevoked.getLsbD o = false →
    Completes (.revoke p slot sig) s (fun t =>
      (Config.revokeSigned (Config.vendorAnchor o) vend sig = true → ok 11 t ∧ t.sec.vendorRevoked.getLsbD vend = true ∧
        t.sec.vendorRevoked.getLsbD o = false ∧ t.bit aSEC_SLOTS ⟨16 + vend, 16 + vend⟩ = true ∧ KeepsRegs [aSEC_SLOTS] s t) ∧
      (Config.revokeSigned (Config.vendorAnchor o) vend sig = false → refused 11 4 t))) ∧
  (full → 0x80 ≤ slot.toNat → slot.toNat < 0x86 → ∀ o, vendorPair vend = some o → s.sec.vendorRevoked.getLsbD o = true →
    Completes (.revoke p slot sig) s (refused 11 2)) ∧
  (full → slot.toNat = 0x86 → Completes (.revoke p slot sig) s (refused 11 2)) ∧
  (full → ((8 ≤ slot.toNat ∧ slot.toNat < 0x80) ∨ 0x87 ≤ slot.toNat) → Completes (.revoke p slot sig) s (refused 11 3)) ∧
  (full → which.toNat < 4 → (s.reg (aSEC_FLOOR which.toNat)).toNat < v.toNat → v.toNat ≤ s.objVersion which.toNat →
    s.sec.floorRaises.getD which.toNat 0 < 255 → Completes (.floor p which v) s (fun t => ok 12 t ∧
      t.reg (aSEC_FLOOR which.toNat) = v ∧ KeepsRegs [aSEC_FLOOR which.toNat] s t)) ∧
  (full → which.toNat < 4 → (v.toNat ≤ (s.reg (aSEC_FLOOR which.toNat)).toNat ∨ s.objVersion which.toNat < v.toNat) →
    Completes (.floor p which v) s (refused 12 2)) ∧
  (full → Completes (.mode p) s (fun t => ok 13 t ∧ t.sec.approvedFuse = true ∧ KeepsRegs [] s t)) ∧
  (full → Completes (.zeroise p) s (fun t => t.out = s.out ++ [.sec p 14 0x80 0 []] ∧ t.sec.zeroisedFuse = true ∧
    t.secUp = false ∧ t.sec.content = [] ∧ t.sec.exch = [] ∧ t.sec.requests = [] ∧ t.calRec.field = [] ∧
    t.session 0 = false ∧ t.session 1 = false ∧ t.reg aSPL_USED = 0 ∧ t.bit aSEC_STAT fSEC_STAT_ERASING = true ∧
    (∀ b : Bool, (t.stream b.toNat).spilled = []) ∧ Raises 116 islSecurity s t ∧ t.sec.slots = s.sec.slots ∧ t.sram = s.sram ∧
    t.hbmMem = s.hbmMem)) ∧
  (s.bit aSEC_STAT fSEC_STAT_ERASING = true → Completes .spillEraseDone s (fun t => t.spill = [] ∧
    t.bit aSEC_STAT fSEC_STAT_ERASING = false ∧ t.sec = s.sec ∧ t.sram = s.sram ∧ t.hbmMem = s.hbmMem ∧
    t.agenda = s.agenda ∧ KeepsRegs [aSEC_STAT] s t)) ∧
  (s.bit aSEC_STAT fSEC_STAT_ERASING = false → Completes .spillEraseDone s (fun t => t = s)) ∧
  (s.bit aSEC_STAT fSEC_STAT_APPROVED = true → Completes .portAccess s (fun t =>
    t.bit aSEC_LAT fSEC_LAT_PORTACC = true ∧ Raises 125 islSecurity s t ∧ KeepsRegs [aSEC_LAT] s t ∧ KeepsMemory s t)) ∧
  (s.bit aSEC_STAT fSEC_STAT_APPROVED = false → Completes .portAccess s (fun t => t = s))

/-- R462, R464, R471 to R474, R479, R480: ATTEST asks for the signature of a report of the values in force; CERT answers the
identity chain; SEALSIG the signature of a seal, NOT_HELD or PENDING. The first request that waits is signed with the next index,
which is spent: a seal's signature joins it, a report goes out with its trailer. An index beyond the reservation reserves the
next 65,536; a reservation that cannot be committed suspends signing with FS 115 until one can. A self-test or an entropy failure
takes the island to ERROR with FS 112, and a passed one back to READY. A ready tree is kept, or taken by what waits for it.
Readings of the model: log entries 7, 79. -/
def Obligations.Signing : Prop := ∀ (p : Port) (nonce : List Byte) (n : Word) (d : BitVec 384) (g : List Byte) (c : Count)
    (rest : List (Count × SigReq)) (good : Bool) (s : State),
  let hssRegs := [aSEC_HSS, aSEC_HSS + 4, aSEC_HSSE, aSEC_STAT, aSEC_LAT]
  let right := s.session p.val = true ∧ s.sec.provisional.getD p.val false = false ∧ s.secUp = true
  let answers := fun (msg st : Byte) (body : List Byte) (t : State) =>
    Says p 3 ((segments 252 body).map (fun b => .sec p msg b.1 st b.2)) s t ∧ t.sec = s.sec ∧ t.acq = s.acq ∧ KeepsRegs [] s t ∧
    KeepsMemory s t
  let sig := fun (m : List Byte) => fit 3700 (Config.sign s.sec.q m)
  let signs := s.secUp = true ∧ s.maySign = true ∧ s.sec.q < 2 ^ 40
  let ready := signs ∧ s.sec.q < s.sec.reservedTo
  (s.session p.val = false → ∀ r ∈ [(Instr.attest p nonce, (5 : Byte)), (.cert p, 6), (.sealsig p n, 7),
      (.selftest p true, 8)], Completes r.1 s (answers r.2 1 [])) ∧
  (right → nonce.length = 32 → Completes (.attest p nonce) s (fun t =>
    t.sec.requests = placeSig s.count (.attest p nonce) s.sec.requests ∧ t.out = s.out ∧ t.sec.q = s.sec.q ∧ KeepsRegs [] s t ∧
    KeepsMemory s t)) ∧
  (right → nonce.length ≠ 32 → Completes (.attest p nonce) s (answers 5 3 [])) ∧
  (right → Completes (.cert p) s (answers 6 0 Config.identityChain)) ∧
  (right → s.acq.seals.find? (fun x => x.1 == n) = some (n, d, some g) →
    Completes (.sealsig p n) s (answers 7 0 (leBytes 4 n.toNat ++ digestBytes d ++ g))) ∧
  (right → s.acq.seals.find? (fun x => x.1 == n) = some (n, d, none) → Completes (.sealsig p n) s (answers 7 7 [])) ∧
  (right → s.acq.seals.find? (fun x => x.1 == n) = none → Completes (.sealsig p n) s (answers 7 6 [])) ∧
  (s.session p.val = true → s.sec.provisional.getD p.val false = false → 1 ≤ s.sessRole p.val → s.sessRole p.val ≠ 2 →
    s.sessRole p.val < 4 →
    Completes (.selftest p true) s (fun t => Says p 3 [.sec p 8 0x80 0 []] s t ∧
      t.fld aSEC_STAT fSEC_STAT_STATE = seReady ∧ t.causeAt 112 0 = false ∧ t.sec = s.sec ∧ t.agenda = s.agenda ∧
      KeepsRegs [aSEC_STAT] s t ∧ KeepsMemory s t) ∧
    Completes (.selftest p false) s (fun t => Says p 3 [.sec p 8 0x80 4 []] s t ∧
      t.fld aSEC_STAT fSEC_STAT_STATE = seError ∧ t.causeStands 112 = true ∧ Raises 112 islSecurity s t ∧ t.sec = s.sec ∧
      KeepsRegs [aSEC_STAT, aSEC_LAT] s t ∧ KeepsMemory s t)) ∧
  (Completes .entropyHealthFail s (fun t => t.fld aSEC_STAT fSEC_STAT_STATE = seError ∧
    t.bit aSEC_LAT fSEC_LAT_STFAIL = true ∧ t.causeStands 112 = true ∧ Raises 112 islSecurity s t ∧ t.sec = s.sec ∧
    KeepsRegs [aSEC_STAT, aSEC_LAT] s t ∧ KeepsMemory s t)) ∧
  (Completes (.treeReady true) s (fun t => t.bit aSEC_HSSE fSEC_HSSE_EREADY = true ∧ t.sec = s.sec ∧
    KeepsRegs [aSEC_HSSE] s t ∧ KeepsMemory s t)) ∧
  (s.bit aSEC_STAT fSEC_STAT_TREEWAIT = true → Completes (.treeReady false) s (fun t =>
    t.bit aSEC_STAT fSEC_STAT_TREEWAIT = false ∧ t.sec = s.sec ∧ KeepsRegs [aSEC_STAT] s t ∧ KeepsMemory s t)) ∧
  (s.bit aSEC_STAT fSEC_STAT_TREEWAIT = false → Completes (.treeReady false) s (fun t =>
    t.bit aSEC_HSSE fSEC_HSSE_NREADY = true ∧ t.sec = s.sec ∧ KeepsRegs [aSEC_HSSE] s t ∧ KeepsMemory s t)) ∧
  (s.sec.requests = (c, .seal n) :: rest → s.acq.seals.find? (fun x => x.1 == n && x.2.2.isNone) = some (n, d, none) → ready →
    Completes (.sealSign good) s (fun t => t.acq.seals = signSeal n (sig (digestBytes d)) s.acq.seals ∧
      t.sec.q = s.sec.q + 1 ∧ t.wide aSEC_HSS 2 = (2 ^ 40 - t.sec.q) % 2 ^ 64 ∧ t.sec.reservedTo = s.sec.reservedTo ∧
      t.sec.requests = rest ∧ t.out = s.out ∧
      t.fld aSEC_SEALQ fSEC_SEALQ_COUNT = (t.acq.seals.filter (fun x => x.2.2.isNone)).length % 2 ^ 17 ∧
      KeepsRegs (aSEC_SEALQ :: hssRegs) s t ∧ KeepsMemory s t)) ∧
  (s.sec.requests = (c, .attest p nonce) :: rest → ready → Completes (.sealSign good) s (fun t =>
    Says p 3 ((segments 252 (s.report nonce ++ trailer (sig (s.report nonce)))).map (fun b => .sec p 5 b.1 0 b.2)) s t ∧
    t.sec.q = s.sec.q + 1 ∧ t.sec.requests = rest ∧ t.acq = s.acq ∧ KeepsRegs hssRegs s t ∧ KeepsMemory s t)) ∧
  (s.sec.requests = (c, .seal n) :: rest → s.acq.seals.find? (fun x => x.1 == n && x.2.2.isNone) = some (n, d, none) → signs →
    s.sec.reservedTo ≤ s.sec.q → Completes (.sealSign true) s (fun t => t.sec.q = s.sec.q + 1 ∧
      t.sec.reservedTo = s.sec.q + 65536 ∧ t.sec.writes = s.sec.writes + 1 ∧ t.sec.requests = rest ∧
      KeepsRegs (aSEC_SEALQ :: hssRegs) s t ∧ KeepsMemory s t)) ∧
  (s.sec.requests ≠ [] → s.secUp = true → s.sec.q < 2 ^ 40 → s.sec.reservedTo ≤ s.sec.q →
    s.bit aSEC_STAT fSEC_STAT_SUSP = false → Completes (.sealSign false) s (fun t => t.bit aSEC_STAT fSEC_STAT_SUSP = true ∧
      t.bit aSEC_LAT fSEC_LAT_HSSSUSP = true ∧ t.causeStands 115 = true ∧ Raises 115 islSecurity s t ∧ t.sec = s.sec ∧
      t.acq = s.acq ∧ KeepsRegs [aSEC_STAT, aSEC_LAT] s t ∧ KeepsMemory s t)) ∧
  (s.sec.requests ≠ [] → s.secUp = true → s.sec.q < 2 ^ 40 → s.bit aSEC_STAT fSEC_STAT_SUSP = true →
    Completes (.sealSign true) s (fun t => t.bit aSEC_STAT fSEC_STAT_SUSP = false ∧ t.causeAt 115 0 = false ∧ KeepsMemory s t)) ∧
  ((s.sec.requests = [] ∨ s.secUp = false ∨ 2 ^ 40 ≤ s.sec.q) → Completes (.sealSign good) s (fun t => t = s))

/-! ## The whole machine -/

/-- A step takes the command at the front of the queue and runs it on the state with the queue's rest. -/
def Obligations.StepRunsFront : Prop := ∀ (c : Instr) (s : State), step { s with pending := c :: s.pending } = exec c s

/-- What the module does of itself when no command waits; the order of these actions is R10's and R11's, and to
run them on an empty queue is the model's choice (log entry 1). The raises due in the present cycle take effect together;
else the earliest action held takes effect at its due time; else the count moves to the start of the next cycle. -/
def Obligations.IdleStep : Prop := ∀ (s : State) (d : Due) (rest : List Due) (c : Instr), s.pending = [] →
  let rs := raisesBefore s.nextCycle s.agenda
  (rs ≠ [] → ∃ t, exec (.faultRaise rs) (rs.foldl (fun s _ => s.crossed 78 (s.count + cyc 64))
      { s with agenda := withoutRaises s.nextCycle s.agenda }) = .next t ∧
    step s = .next t) ∧
  (rs = [] → s.agenda = d :: rest → d.act = .cmd c → Count.before d.due s.nextCycle = true →
    ∃ t, exec c { s with dueNow := if Count.before s.count d.due then some d.due else none, agenda := rest } = .next t ∧
      step s = .next { t with dueNow := none }) ∧
  (rs = [] → (s.agenda = [] ∨ (s.agenda = d :: rest ∧ Count.before d.due s.nextCycle = false)) →
    ∃ t, step s = .next t ∧ t.count = Count.cycleStart s.count + 128#72 ∧ t.pending = [] ∧ t.fresh = [] ∧
      t.raised = [] ∧ t.merged = [] ∧ t.spill = s.spill)

/-- R40, R110, R397, R448: right after reset every register but GLB_RSTCAUSE reads its reset value, which leaves exactly
the blocks of fixed EN enabled, every driver off, OWN low, the twin DETACHED and no structure in force; nothing waits and nothing
is held; the oven is cold, and FS 11's cause stands (R68, R503). That every byte of memory reads 0 and that the cause reads 1
are the model's choices (log entry 2).-/
def Obligations.ResetState : Prop :=  (∀ a, a ≠ aGLB_RSTCAUSE → State.reset.reg a = regReset a) ∧ State.reset.reg aGLB_RSTCAUSE = 1 ∧
  (∀ b, State.reset.blkOn b = fixedOn b) ∧ (∀ ch : Chan, State.reset.drvEn ch.val = false) ∧
  State.reset.bit aTWN_STAT fTWN_STAT_OWN = false ∧ State.reset.twin = twDetached ∧ State.reset.strInForce = false ∧
  State.reset.pending = [] ∧ State.reset.causes = [(11, 0)] ∧ State.reset.power.oven = false ∧ State.reset.agenda = [] ∧
  (∀ a, Memory.read State.reset.sram a = 0 ∧ Memory.read State.reset.hbmMem a = 0 ∧ Memory.read State.reset.spill a = 0) ∧
  State.reset.Canonical ∧ State.reset.OwnsLegally

/-- Every step from a state whose registers and memories are in canonical form leaves them so. -/
def Obligations.StepKeepsCanonical : Prop := ∀ (s t : State), s.Canonical → step s = .next t → t.Canonical

/-- R373: in every step from a state in which OWN is driven only as ACTIVE_SOLO or ACTIVE, it stays so. -/
def Obligations.OwnOnlyWhenActive : Prop := ∀ (s t : State), s.OwnsLegally → step s = .next t → t.OwnsLegally

/-- No command stops: each has an effect in every state, leaves the queue alone, and so does a step. -/
def Obligations.EveryCommandRuns : Prop :=  (∀ (c : Instr) (s : State), ∃ t, exec c s = .next t ∧ t.pending = s.pending) ∧ (∀ s : State, ∃ t, step s = .next t)

/-- R8, R10: a command changes registers of its own islands' blocks alone, as `Instr.writes` lists them; every register of
another block reads as before. -/
def Obligations.RegistersOwned : Prop := ∀ (c : Instr) (s t : State) (bs : List Nat), c.writes = some bs → exec c s = .next t →
  ∀ a, a / 0x100000 ∉ bs → (64 ∈ bs → a / 0x100000 < 64) → t.reg a = s.reg a

/-- R10: each store of the module is changed by the commands of its owner alone, resets apart: the spill store by the mover and the
erase, HBM by the writers of R325, R437 and R486 and by host and twin, the security island's keys, floors and signing index by its
services and by what ends a session, the structure by the loader, the calibration records by calibration, and the islands' own
state
likewise; a step of the count moves the times that they hold. -/
def Obligations.StoresOwned : Prop := ∀ (c : Instr) (s t : State), exec c s = .next t →
  (match c with
    | .spillMove .. | .spillEraseDone => True
    | _ => t.spill = s.spill) ∧
  (c.resetsDie = false →
    (match c with
      | .sealInstant | .spillMove .. | .excursionWrite .. | .digestSend | .ferry .. | .wr .. | .strm ..
        | .reactionBlockReset .. | .rstcmdBlock .. | .strcopy .. => True
      | _ => t.hbmMem = s.hbmMem) ∧
    (match c with
      | .tbsStep .. | .ringTime .. | .colTime .. | .sealInstant | .sealSign .. | .calCommit .. | .rd .. | .wr .. | .strm ..
        | .recoveryTimeout .. | .lpEnWrite .. | .reactionBlockReset .. | .rstcmdBlock .. | .confirm .. | .secHello ..
        | .proof .. | .sessionTimeout .. | .close .. | .attest .. | .enroll .. | .enrollCk .. | .revoke .. | .floor ..
        | .mode .. | .zeroise .. => True
      | _ => t.sec = s.sec) ∧
    (match c with
      | .pllRefLoss .. | .safeNFall | .safeNRise | .resetRelease .. | .inputOutOfRange | .inputReturn | .thermalRelease
        | .ovenReady => True
      | _ => t.power = s.power) ∧
    t.ctl = s.ctl ∧
    (match c with
      | .tbsStep .. | .ringTime .. | .colTime .. => True
      | _ => t.count = s.count)) ∧
  (c.resetsBlock = false →
    (match c with
      | .hbmRequestDone .. | .strLoad .. | .strCheckDone .. | .strApply .. | .strAbort | .unload .. | .store .. => True
      | _ => t.str = s.str) ∧
    (match c with
      | .blkCtlWrite .. | .tbsStep .. | .ringTime .. | .colTime .. | .gateEnd .. | .sealSign .. | .calqAbort ..
        | .calPhaseEnd .. | .calFitDone .. | .calCommit .. | .calRecordStored .. | .refCheck | .refCheckDone .. | .hello ..
        | .ownConflict | .presNHigh | .peerFrameTimeout | .digestSend | .digest .. | .twnJoin .. | .twnLeave ..
        | .colApply .. | .zeroise .. => True
      | _ => t.calRec = s.calRec) ∧
    (match c with
      | .blkCtlWrite .. | .plStart .. | .plJump .. | .plStop .. | .sampleBoundary | .refillArrive .. => True
      | _ => t.players = s.players) ∧
    (match c with
      | .ddsrst | .sampleBoundary => True
      | _ => t.seg = s.seg) ∧
    (match c with
      | .stpCfgWrite .. | .thresholdCrossing .. => True
      | _ => t.stampers = s.stampers) ∧
    (match c with
      | .tacCfgWrite .. | .tacCalDone .. => True
      | _ => t.tacs = s.tacs) ∧
    (match c with
      | .tbsStep .. | .ringTime .. | .colTime .. | .periodStart .. | .monitorTick .. | .monEnWrite .. | .monThrWrite ..
        | .monUnsettledTimeout .. | .colApply .. => True
      | _ => t.mons = s.mons) ∧
    (match c with
      | .blkCtlWrite .. | .tbsStep .. | .ringTime .. | .colTime .. | .loopUpdate .. | .bgRequest .. | .bgAbort ..
        | .bgRoutineRun .. => True
      | _ => t.engs = s.engs))

/-! ## Single rules, each stated whole -/

/-- R48. -/
def Obligations.AliasAddress : Prop := ∀ (blk r b : Nat), r ≤ 0x7FC → r % 4 = 0 → b < 32 →
  regTarget (blk * 0x100000 + 0x10000 + r * 32 + b * 4) = (blk * 0x100000 + r, some b)

/-- R43: over both ports, for every mapped register that the session may read, and for every aligned narrow write inside REG
space. -/
def Obligations.NarrowAccess : Prop := ∀ (p : Port) (h : HostHdr) (off n : Nat) (due : Count) (data : List Byte) (s : State),
  let k := p.val
  let b := if blockExists (off / 0x100000) then off / 0x100000 else 0
  let taken := s.ltssm k = ltActive ∧ judgeSeq (s.link k) h = .take ∧ s.session k = true ∧ h.prot = true ∧
    h.tagGood = true ∧ h.reserved = false ∧ h.vc = 0 ∧ Sends p 0 s ∧ s.stalls p h = false
  taken → (n = 1 ∨ n = 2) → off % n = 0 → off + n ≤ 0x10000000 →
    (h.timed = false → (s.link k).untimed = none → regMapped (off / 4 * 4) = true →
      s.mayReg (s.sessRole k) (off / 4 * 4) false = true →
      Completes (.rd p ⟨h, BitVec.ofNat 48 off, 0, BitVec.ofNat 8 (n - 1)⟩) s (fun t => t.out = s.out ++
          [.rdr p 0 h.tag 0 (((leBytes 4 (s.portRead k (off / 4 * 4)).1.toNat).drop (off % 4)).take n)] ∧
        t.agenda = s.agenda ∧ KeepsRegs [] s t ∧ KeepsMemory s t)) ∧
    (data.length = n → (h.timed = false → due = 0) →
      Completes (.wr p ⟨h, BitVec.ofNat 48 off, due, 0, data⟩) s (fun t => t.out = s.out ++ [.rdr p 0 h.tag 3 (leBytes 4 off)] ∧
        t.agenda = insertDue ⟨s.count + cyc 64, .island islLink, .raise 4 islLink⟩ s.agenda ∧ t.staging = s.staging ∧
        KeepsRegs [b * 0x100000 + 8, b * 0x100000 + 12] s t ∧ KeepsMemory s t))

/-- R45, for the widths of 16, 32 and 64 bits. -/
def Obligations.UnalignedAccess : Prop := ∀ (p : Port) (h : HostHdr) (off n : Nat) (due : Count) (data : List Byte) (s : State),
  let k := p.val
  let b := if blockExists (off / 0x100000) then off / 0x100000 else 0
  let taken := s.ltssm k = ltActive ∧ judgeSeq (s.link k) h = .take ∧ s.session k = true ∧ h.prot = true ∧
    h.tagGood = true ∧ h.reserved = false ∧ h.vc = 0 ∧ Sends p 0 s ∧ s.stalls p h = false
  let refused := fun (bad : List Byte) (t : State) => t.out = s.out ++ [.rdr p 0 h.tag 2 bad] ∧
    t.agenda = insertDue ⟨s.count + cyc 64, .island islLink, .raise 4 islLink⟩ s.agenda ∧ t.staging = s.staging ∧
    t.shadow = s.shadow ∧ KeepsRegs [b * 0x100000 + 8, b * 0x100000 + 12] s t ∧ KeepsMemory s t
  taken → (n = 2 ∨ n = 4 ∨ n = 8) → off % n ≠ 0 → off + n ≤ 0x10000000 →
    (h.timed = false → (s.link k).untimed = none →
      Completes (.rd p ⟨h, BitVec.ofNat 48 off, 0, BitVec.ofNat 8 (n - 1)⟩) s (refused [])) ∧
    (data.length = n → (h.timed = false → due = 0) →
      Completes (.wr p ⟨h, BitVec.ofNat 48 off, due, 0, data⟩) s (refused (leBytes 4 off)))

/-- R374: the event is that PEER_OWN has been high for 30 successive cycles while the module holds OWN. -/
def Obligations.OwnConflict : Prop := ∀ (s : State), s.bit aTWN_STAT fTWN_STAT_OWN = true →
  Completes .ownConflict s (fun t => Raises 108 islTwin s t ∧
    (s.bit aTWN_CFG fTWN_CFG_SIDE = true → t.bit aTWN_STAT fTWN_STAT_OWN = false ∧ t.twin = twHoldoff) ∧
    (s.bit aTWN_CFG fTWN_CFG_SIDE = false → t.bit aTWN_STAT fTWN_STAT_OWN = true ∧ t.twin = s.twin))

/-- R500: the event is that the processor has gone 500 ms without service. Every request in hand is answered with BUSY, where
the link has the credits for the answers. -/
def Obligations.WatchdogRestart : Prop := ∀ (s : State),
  let busy := fun (p : Port) => (s.slots p.val).filterMap (fun x =>
    if x.reply.isNone then some (Out.mgt p x.cmd 0x80 x.req msBusy []) else none)
  (∀ p : Port, SendsAll p 3 (s.slots p.val).length s) →
  Completes .watchdogExpiry s (fun t => t.out = s.out ++ busy 0 ++ busy 1 ∧ t.slots 0 = [] ∧ t.slots 1 = [] ∧
    (t.reg aMGT_WDOG).toNat = min 0xFFFFFFFF ((s.reg aMGT_WDOG).toNat + 1) ∧ t.bit aMGT_LAT fMGT_LAT_WDOG = true ∧
    Raises 117 islManagement s t ∧ (∀ a, a / 0x100000 ≠ 16 → t.reg a = s.reg a) ∧ t.sec = s.sec ∧ t.tasks = s.tasks ∧
    t.engs = s.engs ∧ t.loops = s.loops ∧ t.players = s.players ∧ t.pins = s.pins ∧ t.power = s.power ∧ t.count = s.count)
end

