-- ==== Sys2Proof/Laws/Table.lean ====
section
/-! SUPPORT. Sparse tables and memories: a read after a write, and that every operation keeps the canonical form. -/
namespace Sys2Proof.Machine

/-! ## Read after write -/

@[simp] theorem Tab.get_nil {α : Type} (d : Nat → α) (k : Nat) : Tab.get d [] k = d k := rfl

theorem Tab.get_erase {α : Type} (d : Nat → α) (t : Tab α) (k i : Nat) :
    Tab.get d (Tab.erase t k) i = if i = k then d i else Tab.get d t i := by
  induction t with
  | nil => simp [Tab.erase, Tab.get]
  | cons p t ih =>
    obtain ⟨j, w⟩ := p
    simp only [Tab.erase, List.filter_cons] at ih ⊢
    by_cases hj : j = k
    · subst hj; simp only [bne_self_eq_false, Bool.false_eq_true, if_false, ih, Tab.get]
      split <;> simp_all
    · simp only [bne_iff_ne, ne_eq, hj, not_false_eq_true, if_true, Tab.get, ih]
      split <;> split <;> simp_all

/-- A value written is read back, and every other key reads as before. -/
theorem Tab.get_set {α : Type} [DecidableEq α] (d : Nat → α) (t : Tab α) (k i : Nat) (v : α) :
    Tab.get d (Tab.set d t k v) i = if i = k then v else Tab.get d t i := by
  induction t with
  | nil =>
    unfold Tab.set
    split <;> simp_all [Tab.get]
  | cons p t ih =>
    obtain ⟨j, w⟩ := p
    unfold Tab.set
    split
    · split
      · simp only [Tab.get, Tab.get_erase]; split <;> split <;> simp_all
      · simp only [Tab.get]
    · split
      · split
        · simp only [Tab.get_erase, Tab.get]; split <;> simp_all
        · simp only [Tab.get]; split <;> simp_all
      · simp only [Tab.get, ih]; split <;> split <;> simp_all

@[simp] theorem Tab.get_set_self {α : Type} [DecidableEq α] (d : Nat → α) (t : Tab α) (k : Nat) (v : α) :
    Tab.get d (Tab.set d t k v) k = v := by simp [Tab.get_set]

theorem Tab.get_set_ne {α : Type} [DecidableEq α] (d : Nat → α) (t : Tab α) {k i : Nat} (v : α) (h : i ≠ k) :
    Tab.get d (Tab.set d t k v) i = Tab.get d t i := by simp [Tab.get_set, h]

/-! ## The canonical form -/

/-- The canonical form, said of the table's pairs: keys rising from one pair to the next, no pair at its default. -/
theorem Tab.wf_iff {α : Type} [DecidableEq α] (d : Nat → α) (t : Tab α) :
    Tab.wf d t = true ↔ t.Pairwise (fun p q => p.1 < q.1) ∧ ∀ p ∈ t, p.2 ≠ d p.1 := by
  induction t with
  | nil => simp [Tab.wf]
  | cons p t ih =>
    obtain ⟨j, v⟩ := p
    cases t with
    | nil => simp [Tab.wf]
    | cons q t =>
      obtain ⟨k, w⟩ := q
      simp only [Tab.wf, Bool.and_eq_true, decide_eq_true_eq, ih]
      constructor
      · rintro ⟨⟨hv, hjk⟩, hp, hd⟩
        refine ⟨List.pairwise_cons.mpr ⟨?_, hp⟩, ?_⟩
        · intro r hr
          rcases List.mem_cons.mp hr with h | h
          · subst h; exact hjk
          · exact lt_trans hjk ((List.pairwise_cons.mp hp).1 r h)
        · intro r hr
          rcases List.mem_cons.mp hr with h | h
          · subst h; exact hv
          · exact hd r h
      · rintro ⟨hp, hd⟩
        have h1 := List.pairwise_cons.mp hp
        exact ⟨⟨hd (j, v) (by simp), h1.1 (k, w) (by simp)⟩, h1.2, fun r hr => hd r (by simp [hr])⟩

/-- Pairs taken out of a table leave it in canonical form. -/
theorem Tab.wf_filter {α : Type} [DecidableEq α] (d : Nat → α) (t : Tab α) (f : Nat × α → Bool)
    (h : Tab.wf d t = true) : Tab.wf d (t.filter f) = true := by
  rw [Tab.wf_iff] at h ⊢
  exact ⟨h.1.filter f, fun p hp => h.2 p (List.mem_filter.mp hp).1⟩

theorem Tab.wf_tail {α : Type} [DecidableEq α] (d : Nat → α) (p : Nat × α) (t : Tab α)
    (h : Tab.wf d (p :: t) = true) : Tab.wf d t = true := by
  rw [Tab.wf_iff] at h ⊢
  exact ⟨(List.pairwise_cons.mp h.1).2, fun q hq => h.2 q (by simp [hq])⟩

/-- The keys of a table with a value set are the old ones and the one set. -/
theorem Tab.mem_set {α : Type} [DecidableEq α] (d : Nat → α) (t : Tab α) (k : Nat) (v : α) (p : Nat × α)
    (h : p ∈ Tab.set d t k v) : p ∈ t ∨ p = (k, v) := by
  induction t with
  | nil => unfold Tab.set at h; split at h <;> simp_all
  | cons q t ih =>
    obtain ⟨j, w⟩ := q
    unfold Tab.set at h
    split at h
    · split at h
      · rcases List.mem_cons.mp h with h | h
        · simp [h]
        · left; simp [(List.mem_filter.mp h).1]
      · rcases List.mem_cons.mp h with h | h
        · simp [h]
        · left; exact h
    · split at h
      · split at h
        · left; simp [(List.mem_filter.mp h).1]
        · rcases List.mem_cons.mp h with h | h
          · simp [h]
          · left; simp [h]
      · rcases List.mem_cons.mp h with h | h
        · simp [h]
        · rcases ih h with h | h
          · left; simp [h]
          · exact Or.inr h

/-- A write keeps the canonical form. -/
theorem Tab.wf_set {α : Type} [DecidableEq α] (d : Nat → α) (t : Tab α) (k : Nat) (v : α)
    (h : Tab.wf d t = true) : Tab.wf d (Tab.set d t k v) = true := by
  induction t with
  | nil => unfold Tab.set; split <;> simp_all [Tab.wf]
  | cons q t ih =>
    obtain ⟨j, w⟩ := q
    have ht := Tab.wf_tail d _ _ h
    have hp := (Tab.wf_iff d _).mp h
    have hc := List.pairwise_cons.mp hp.1
    unfold Tab.set
    split
    next hk =>
      split
      · rw [Tab.wf_iff]
        refine ⟨List.pairwise_cons.mpr ⟨fun r hr => hc.1 r (List.mem_filter.mp hr).1, hc.2.filter _⟩, ?_⟩
        intro r hr
        rcases List.mem_cons.mp hr with e | e
        · exact hp.2 r (by simp [e])
        · exact hp.2 r (by simp [(List.mem_filter.mp e).1])
      next hv =>
        rw [Tab.wf_iff]
        refine ⟨List.pairwise_cons.mpr ⟨?_, hp.1⟩, ?_⟩
        · intro r hr
          rcases List.mem_cons.mp hr with e | e
          · subst e; exact hk
          · exact lt_trans hk (hc.1 r e)
        · intro r hr
          rcases List.mem_cons.mp hr with e | e
          · subst e; exact hv
          · exact hp.2 r e
    next hk =>
      split
      next he =>
        subst he
        split
        · exact Tab.wf_filter d t _ ht
        next hv =>
          rw [Tab.wf_iff]
          refine ⟨List.pairwise_cons.mpr ⟨hc.1, hc.2⟩, ?_⟩
          intro r hr
          rcases List.mem_cons.mp hr with e | e
          · subst e; exact hv
          · exact hp.2 r (by simp [e])
      next he =>
        rw [Tab.wf_iff]
        have hs := (Tab.wf_iff d _).mp (ih ht)
        refine ⟨List.pairwise_cons.mpr ⟨?_, hs.1⟩, ?_⟩
        · intro r hr
          rcases Tab.mem_set d t k v r hr with e | e
          · exact hc.1 r e
          · subst e; simp only; omega
        · intro r hr
          rcases List.mem_cons.mp hr with e | e
          · exact hp.2 r (by simp [e])
          · exact hs.2 r e

/-! ## Memories -/

/-- A byte written is read back, and every other address reads as before. -/
theorem Memory.read_write (m : List Host.Cell) (a i : Nat) (b : Byte) :
    Memory.read (Memory.write m a b) i = if i = a then b else Memory.read m i := Tab.get_set _ _ _ _ _

@[simp] theorem Memory.wf_write (m : List Host.Cell) (a : Nat) (b : Byte) (h : Memory.wf m = true) :
    Memory.wf (Memory.write m a b) = true := Tab.wf_set _ _ _ _ h

@[simp] theorem Memory.wf_writeBytes (bs : List Byte) (m : List Host.Cell) (a : Nat) (h : Memory.wf m = true) :
    Memory.wf (Memory.writeBytes m a bs) = true := by
  induction bs generalizing m a with
  | nil => exact h
  | cons b bs ih => exact ih _ _ (Memory.wf_write m a b h)

@[simp] theorem Memory.wf_nil : Memory.wf [] = true := rfl

/-- Bytes written from an address on are read back, and every other address reads as before. -/
theorem Memory.read_writeBytes (bs : List Byte) (m : List Host.Cell) (a i : Nat) :
    Memory.read (Memory.writeBytes m a bs) i =
      if h : a ≤ i ∧ i - a < bs.length then bs[i - a] else Memory.read m i := by
  induction bs generalizing m a with
  | nil => simp [Memory.writeBytes]
  | cons b bs ih =>
    simp only [Memory.writeBytes, ih, Memory.read_write, List.length_cons]
    by_cases h1 : a + 1 ≤ i ∧ i - (a + 1) < bs.length
    · have h2 : a ≤ i ∧ i - a < bs.length + 1 := by omega
      have h3 : i - a = (i - (a + 1)) + 1 := by omega
      simp only [h1, h2, and_self, dite_true]
      simp [h3]
    · by_cases h2 : i = a
      · subst h2; simp
      · have h3 : ¬ (a ≤ i ∧ i - a < bs.length + 1) := by omega
        rw [dif_neg h1, dif_neg h3, if_neg h2]

end Sys2Proof.Machine
end

