-- ==== Sys2Proof/Laws/Register.lean ====
section
/-! SUPPORT. Fields of register words, and registers of the state: a read after a write. -/
namespace Sys2Proof.Machine

/-! ## Fields of a word -/

theorem bitMask_getLsbD (hi lo i : Nat) (h1 : lo ≤ hi) (h2 : hi < 32) :
    (bitMask hi lo).getLsbD i = decide (lo ≤ i ∧ i ≤ hi) := by
  have hm : ∀ n < 33, ∀ j < 32, ((1#32 <<< n) - 1#32).getLsbD j = decide (j < n) := by decide
  unfold bitMask
  rw [BitVec.getLsbD_shiftLeft]
  by_cases hi' : i < 32
  · by_cases hl : i < lo
    · simp [hl]
    · rw [hm _ (by omega) _ (by omega)]
      simp only [hi', hl, decide_true, decide_false, Bool.not_false, Bool.and_true, Bool.true_and]
      congr 1
      simp only [eq_iff_iff]; omega
  · simp only [hi', decide_false, Bool.false_and]
    symm; simp only [decide_eq_false_iff_not]; omega

theorem putF_getLsbD (w : Word) (f : Fld) (v i : Nat) (h1 : f.lo ≤ f.hi) (h2 : f.hi < 32) :
    (putF w f v).getLsbD i =
      if f.lo ≤ i ∧ i ≤ f.hi then v.testBit (i - f.lo) else w.getLsbD i := by
  unfold putF
  rw [BitVec.getLsbD_or, BitVec.getLsbD_and, BitVec.getLsbD_and, BitVec.getLsbD_not, bitMask_getLsbD _ _ _ h1 h2,
    BitVec.getLsbD_shiftLeft, BitVec.getLsbD_ofNat]
  by_cases h : f.lo ≤ i ∧ i ≤ f.hi
  · have h3 : i < 32 := by omega
    have h4 : ¬ i < f.lo := by omega
    have h5 : i - f.lo < 32 := by omega
    simp [h, h3, h4, h5]
  · by_cases h3 : i < 32
    · simp [h, h3]
    · have : w.getLsbD i = false := BitVec.getLsbD_of_ge _ _ (by omega)
      simp [h, this]

theorem getF_testBit (w : Word) (f : Fld) (i : Nat) :
    (getF w f).testBit i = (decide (i < f.width) && w.getLsbD (f.lo + i)) := by
  unfold getF
  rw [Nat.testBit_mod_two_pow, Nat.testBit_shiftRight, BitVec.getLsbD]

/-- A field written is read back, cut to its width. -/
theorem getF_putF_self (w : Word) (f : Fld) (v : Nat) (h1 : f.lo ≤ f.hi) (h2 : f.hi < 32) :
    getF (putF w f v) f = v % 2 ^ f.width := by
  apply Nat.eq_of_testBit_eq
  intro i
  rw [getF_testBit, Nat.testBit_mod_two_pow, putF_getLsbD _ _ _ _ h1 h2]
  by_cases h : i < f.width
  · have : f.lo ≤ f.lo + i ∧ f.lo + i ≤ f.hi := by unfold Fld.width at h; omega
    simp [h, this]
  · simp [h]

/-- A write of a field leaves a field beside it alone. -/
theorem getF_putF_ne (w : Word) (f g : Fld) (v : Nat) (h1 : f.lo ≤ f.hi) (h2 : f.hi < 32)
    (h3 : g.hi < f.lo ∨ f.hi < g.lo) : getF (putF w f v) g = getF w g := by
  apply Nat.eq_of_testBit_eq
  intro i
  rw [getF_testBit, getF_testBit, putF_getLsbD _ _ _ _ h1 h2]
  by_cases h : i < g.width
  · have : ¬ (f.lo ≤ g.lo + i ∧ g.lo + i ≤ f.hi) := by unfold Fld.width at h; omega
    simp [this]
  · simp [h]

/-! ## Registers -/

/-- A register written is read back, and every other one reads as before. -/
theorem State.reg_setReg (s : State) (a b : Nat) (v : Word) :
    (s.setReg a v).reg b = if b = a then v else s.reg b := Tab.get_set _ _ _ _ _

@[simp] theorem State.reg_setReg_self (s : State) (a : Nat) (v : Word) : (s.setReg a v).reg a = v := by
  simp [State.reg_setReg]

theorem State.reg_setReg_ne (s : State) {a b : Nat} (v : Word) (h : b ≠ a) : (s.setReg a v).reg b = s.reg b := by
  simp [State.reg_setReg, h]

theorem State.reg_setFld (s : State) (a b : Nat) (f : Fld) (v : Nat) :
    (s.setFld a f v).reg b = if b = a then putF (s.reg a) f v else s.reg b := State.reg_setReg _ _ _ _

theorem State.reg_setFld_ne (s : State) {a b : Nat} (f : Fld) (v : Nat) (h : b ≠ a) :
    (s.setFld a f v).reg b = s.reg b := State.reg_setReg_ne _ _ h

/-- A field of a register written is read back. -/
theorem State.fld_setFld_self (s : State) (a : Nat) (f : Fld) (v : Nat) (h1 : f.lo ≤ f.hi) (h2 : f.hi < 32) :
    (s.setFld a f v).fld a f = v % 2 ^ f.width := by
  unfold State.fld; rw [State.reg_setFld, if_pos rfl, getF_putF_self _ _ _ h1 h2]

/-- A field of another register reads as before. -/
theorem State.fld_setFld_ne (s : State) {a b : Nat} (f g : Fld) (v : Nat) (h : b ≠ a) :
    (s.setFld a f v).fld b g = s.fld b g := by
  unfold State.fld; rw [State.reg_setFld_ne _ _ _ h]

/-- A field beside the one written reads as before. -/
theorem State.fld_setFld_beside (s : State) (a : Nat) (f g : Fld) (v : Nat) (h1 : f.lo ≤ f.hi) (h2 : f.hi < 32)
    (h3 : g.hi < f.lo ∨ f.hi < g.lo) : (s.setFld a f v).fld a g = s.fld a g := by
  unfold State.fld; rw [State.reg_setFld, if_pos rfl, getF_putF_ne _ _ _ _ h1 h2 h3]

/-- A field reads the register and nothing else. -/
theorem State.fld_congr {s t : State} {a : Nat} (f : Fld) (h : t.reg a = s.reg a) : t.fld a f = s.fld a f := by
  unfold State.fld; rw [h]

theorem State.bit_congr {s t : State} {a : Nat} (f : Fld) (h : t.reg a = s.reg a) : t.bit a f = s.bit a f := by
  unfold State.bit; rw [State.fld_congr f h]

end Sys2Proof.Machine
end

