-- ==== Sys2Proof/Laws/Frame.lean ====
section
/-! SUPPORT. What an operation may change, said once for each in one form: the parts of the state and the blocks of registers
that it may write, and that it keeps the canonical form. `Does` says it of a state, `Runs` of the answer of a command, and the
lemmas here build such facts along the text of a definition. -/
namespace Sys2Proof.Machine

/-- The parts of the state; `regs` is every register at once. -/
inductive Part where
  | pending | count | regs | staging | shadow | agenda | causes | free | fresh | raised | merged | dueNow | out | sram | hbmMem | spill | tbs | chans | pins | codes | meas | stampers | tacs | dlls | mons | engs | loops | quants | ships | ctl | players | seg | tasks | sched | acq | hbm | cals | calRec | twn | links | str | sec | mgt | power
deriving DecidableEq, Repr

/-- A part reads in `t` as it reads in `s`. -/
def Part.same (s t : State) : Part → Prop
  | .pending => t.pending = s.pending
  | .count => t.count = s.count
  | .regs => t.regs = s.regs
  | .staging => t.staging = s.staging
  | .shadow => t.shadow = s.shadow
  | .agenda => t.agenda = s.agenda
  | .causes => t.causes = s.causes
  | .free => t.free = s.free
  | .fresh => t.fresh = s.fresh
  | .raised => t.raised = s.raised
  | .merged => t.merged = s.merged
  | .dueNow => t.dueNow = s.dueNow
  | .out => t.out = s.out
  | .sram => t.sram = s.sram
  | .hbmMem => t.hbmMem = s.hbmMem
  | .spill => t.spill = s.spill
  | .tbs => t.tbs = s.tbs
  | .chans => t.chans = s.chans
  | .pins => t.pins = s.pins
  | .codes => t.codes = s.codes
  | .meas => t.meas = s.meas
  | .stampers => t.stampers = s.stampers
  | .tacs => t.tacs = s.tacs
  | .dlls => t.dlls = s.dlls
  | .mons => t.mons = s.mons
  | .engs => t.engs = s.engs
  | .loops => t.loops = s.loops
  | .quants => t.quants = s.quants
  | .ships => t.ships = s.ships
  | .ctl => t.ctl = s.ctl
  | .players => t.players = s.players
  | .seg => t.seg = s.seg
  | .tasks => t.tasks = s.tasks
  | .sched => t.sched = s.sched
  | .acq => t.acq = s.acq
  | .hbm => t.hbm = s.hbm
  | .cals => t.cals = s.cals
  | .calRec => t.calRec = s.calRec
  | .twn => t.twn = s.twn
  | .links => t.links = s.links
  | .str => t.str = s.str
  | .sec => t.sec = s.sec
  | .mgt => t.mgt = s.mgt
  | .power => t.power = s.power

/-- Every part. -/
def Part.all : List Part := [.pending, .count, .regs, .staging, .shadow, .agenda, .causes, .free, .fresh, .raised, .merged, .dueNow, .out, .sram, .hbmMem, .spill, .tbs, .chans, .pins, .codes, .meas, .stampers, .tacs, .dlls, .mons, .engs, .loops, .quants, .ships, .ctl, .players, .seg, .tasks, .sched, .acq, .hbm, .cals, .calRec, .twn, .links, .str, .sec, .mgt, .power]

/-- Every part but those listed. -/
def Part.but (ps : List Part) : List Part := Part.all.filter (fun p => !(ps.contains p))

/-- The block of R32 of a register's address, 64 for every pin island. -/
def regBlk (a : Nat) : Nat := min 64 (a / 0x100000)

/-- From `s` to `t` no part but those listed and no register but those of the blocks listed changes (`regs` among the parts
stands for every block), and a canonical state stays canonical. -/
structure Does (ps : List Part) (bs : List Nat) (s t : State) : Prop where
  same : ∀ p, p ∉ ps → p ≠ .regs → p.same s t
  regs : .regs ∉ ps → ∀ a, regBlk a ∉ bs → t.reg a = s.reg a
  canon : s.Canonical → t.Canonical

/-- A command answers a next state that differs as `Does` says. -/
def Runs (ps : List Part) (bs : List Nat) (s : State) (r : Result) : Prop := ∃ t, r = .next t ∧ Does ps bs s t

/-- Where an operation gives a state, it differs as `Does` says. -/
def Gives (ps : List Part) (bs : List Nat) (s : State) (o : Option State) : Prop := ∀ t, o = some t → Does ps bs s t

/-- The state beside a result differs as `Does` says. -/
def Does2 {α : Type} (ps : List Part) (bs : List Nat) (s : State) (r : α × State) : Prop := Does ps bs s r.2

/-- The state before a result differs as `Does` says. -/
def Does1 {α : Type} (ps : List Part) (bs : List Nat) (s : State) (r : State × α) : Prop := Does ps bs s r.1

/-- The state beside two results differs as `Does` says. -/
def Does3 {α β : Type} (ps : List Part) (bs : List Nat) (s : State) (r : α × β × State) : Prop := Does ps bs s r.2.2

/-- The parts and blocks of an operation lie within those of the one that uses it. -/
def within (ps : List Part) (bs : List Nat) (qs : List Part) (cs : List Nat) : Bool :=
  ps.all (fun p => qs.contains p) && (qs.contains .regs || bs.all (fun b => cs.contains b))

variable {ps qs : List Part} {bs cs : List Nat} {s t u x : State}

theorem within_parts (h : within ps bs qs cs = true) {p : Part} (hp : p ∈ ps) : p ∈ qs := by
  simp only [within, Bool.and_eq_true, List.all_eq_true, List.contains_iff_mem] at h
  exact h.1 p hp

theorem within_blocks (h : within ps bs qs cs = true) (hr : Part.regs ∉ qs) {b : Nat} (hb : b ∈ bs) : b ∈ cs := by
  simp only [within, Bool.and_eq_true, Bool.or_eq_true, List.all_eq_true, List.contains_iff_mem] at h
  exact (h.2.resolve_left hr) b hb

theorem Does.refl : Does ps bs s s := ⟨fun p _ _ => by cases p <;> rfl, fun _ _ _ => rfl, id⟩

theorem Does.after (h : Does ps bs t u) (g : Does ps bs s t) : Does ps bs s u where
  same p hp hr := by
    have a := h.same p hp hr; have b := g.same p hp hr
    cases p <;> exact a.trans b
  regs hr a ha := (h.regs hr a ha).trans (g.regs hr a ha)
  canon := h.canon ∘ g.canon

theorem Does.mono (h : Does ps bs s t) (w : within ps bs qs cs = true) : Does qs cs s t where
  same p hp hr := h.same p (fun m => hp (within_parts w m)) hr
  regs hr a ha := h.regs (fun m => hr (within_parts w m)) a (fun m => ha (within_blocks w hr m))
  canon := h.canon

/-- An operation called on a state that was reached within the same bounds. -/
theorem Does.call (h : Does ps bs t u) (w : within ps bs qs cs = true) (g : Does qs cs s t) : Does qs cs s u :=
  (h.mono w).after g

theorem Does.ite {c : Prop} [Decidable c] (h : c → Does ps bs s t) (g : ¬c → Does ps bs s u) :
    Does ps bs s (if c then t else u) := by split <;> simp_all

theorem Does.foldl {α : Type} {f : State → α → State} {l : List α} (h : ∀ t a, Does ps bs t (f t a)) (g : Does ps bs s t) :
    Does ps bs s (l.foldl f t) := by
  induction l generalizing t with
  | nil => exact g
  | cons a l ih => exact ih ((h t a).after g)

/-! ## Answers of commands -/

theorem Runs.next (h : Does ps bs s t) : Runs ps bs s (.next t) := ⟨t, rfl, h⟩

theorem Runs.call {r : Result} (h : Runs ps bs t r) (w : within ps bs qs cs = true) (g : Does qs cs s t) : Runs qs cs s r := by
  obtain ⟨u, rfl, h⟩ := h
  exact ⟨u, rfl, h.call w g⟩

theorem Runs.ite {c : Prop} [Decidable c] {r q : Result} (h : c → Runs ps bs s r) (g : ¬c → Runs ps bs s q) :
    Runs ps bs s (if c then r else q) := by split <;> simp_all

/-! ## A state that may be given -/

theorem Gives.some (h : Does ps bs s t) : Gives ps bs s (some t) := by rintro _ ⟨⟩; exact h

theorem Gives.none : Gives ps bs s none := by rintro _ ⟨⟩

theorem Gives.of {o : Option State} (h : Gives ps bs s o) (e : o = Option.some t) : Does ps bs s t := h t e

theorem Gives.call {o : Option State} (h : Gives ps bs t o) (w : within ps bs qs cs = true) (g : Does qs cs s t) :
    Gives qs cs s o := fun u e => (h u e).call w g

theorem Gives.ite {c : Prop} [Decidable c] {o q : Option State} (h : c → Gives ps bs s o) (g : ¬c → Gives ps bs s q) :
    Gives ps bs s (if c then o else q) := by split <;> simp_all

/-! ## A state beside results -/

theorem Does2.pair {α : Type} {a : α} (h : Does ps bs s t) : Does2 ps bs s (a, t) := h

theorem Does2.snd {α : Type} {r : α × State} (h : Does2 ps bs s r) : Does ps bs s r.2 := h

theorem Does2.of {α : Type} {r : α × State} {a : α} (h : Does2 ps bs s r) (e : r = (a, t)) : Does ps bs s t := by
  subst e; exact h

theorem Does2.call {α : Type} {r : α × State} (h : Does2 ps bs t r) (w : within ps bs qs cs = true) (g : Does qs cs s t) :
    Does2 qs cs s r := Does.call (u := r.2) h w g

theorem Does2.ite {α : Type} {c : Prop} [Decidable c] {r q : α × State} (h : c → Does2 ps bs s r) (g : ¬c → Does2 ps bs s q) :
    Does2 ps bs s (if c then r else q) := by split <;> simp_all

theorem Does1.pair {α : Type} {a : α} (h : Does ps bs s t) : Does1 ps bs s (t, a) := h

theorem Does1.fst {α : Type} {r : State × α} (h : Does1 ps bs s r) : Does ps bs s r.1 := h

theorem Does1.call {α : Type} {r : State × α} (h : Does1 ps bs t r) (w : within ps bs qs cs = true) (g : Does qs cs s t) :
    Does1 qs cs s r := Does.call (u := r.1) h w g

theorem Does3.after {α β : Type} {r : α × β × State} (h : Does3 ps bs t r) (g : Does ps bs s t) : Does3 ps bs s r :=
  Does.after (u := r.2.2) h g

theorem Does3.pair {α β : Type} {a : α} {b : β} (h : Does ps bs s t) : Does3 ps bs s (a, b, t) := h

theorem Does3.snd {α β : Type} {r : α × β × State} (h : Does3 ps bs s r) : Does ps bs s r.2.2 := h

theorem Does3.of {α β : Type} {r : α × β × State} {a : α} {b : β} (h : Does3 ps bs s r) (e : r = (a, b, t)) :
    Does ps bs s t := by subst e; exact h

theorem Does3.call {α β : Type} {r : α × β × State} (h : Does3 ps bs t r) (w : within ps bs qs cs = true)
    (g : Does qs cs s t) : Does3 qs cs s r := Does.call (u := r.2.2) h w g

theorem Does3.ite {α β : Type} {c : Prop} [Decidable c] {r q : α × β × State} (h : c → Does3 ps bs s r)
    (g : ¬c → Does3 ps bs s q) : Does3 ps bs s (if c then r else q) := by split <;> simp_all

/-! ## One part of the state replaced -/

/-- Parts replaced, registers and memories among them. -/
theorem Does.putAny (rs : List Part) (g : Does ps bs s t) (w : within rs [] ps bs = true) (hr : Part.regs ∈ rs)
    (hc : t.Canonical → u.Canonical) (h : ∀ p, p ∉ rs → p.same t u) : Does ps bs s u :=
  Does.call (ps := rs) (bs := []) ⟨fun p hp _ => h p hp, fun n => absurd hr n, hc⟩ w g

/-- Parts replaced, memories among them; the registers alone. -/
theorem Does.putMem (rs : List Part) (g : Does ps bs s t) (w : within rs [] ps bs = true) (hr : u.regs = t.regs)
    (hc : t.Canonical → u.Canonical) (h : ∀ p, p ∉ rs → p.same t u) : Does ps bs s u :=
  Does.call (ps := rs) (bs := []) ⟨fun p hp _ => h p hp, fun _ a _ => by unfold State.reg; rw [hr], hc⟩ w g

/-- Parts replaced, registers and memories alone. -/
theorem Does.put (rs : List Part) (g : Does ps bs s t) (w : within rs [] ps bs = true) (hr : u.regs = t.regs)
    (h1 : u.sram = t.sram) (h2 : u.hbmMem = t.hbmMem) (h3 : u.spill = t.spill)
    (h : ∀ p, p ∉ rs → p.same t u) : Does ps bs s u := by
  refine Does.putMem rs g w hr (fun c => ?_) h
  unfold State.Canonical at c ⊢; rw [hr, h1, h2, h3]; exact c

theorem Does.put_pending {v} (h : Part.pending ∈ ps) (g : Does ps bs s t) : Does ps bs s { t with pending := v } :=
  Does.after (t := t) ⟨fun p hp _ => by cases p <;> first | rfl | exact absurd h hp, fun _ _ _ => rfl, id⟩ g

theorem Does.put_count {v} (h : Part.count ∈ ps) (g : Does ps bs s t) : Does ps bs s { t with count := v } :=
  Does.after (t := t) ⟨fun p hp _ => by cases p <;> first | rfl | exact absurd h hp, fun _ _ _ => rfl, id⟩ g

theorem Does.put_staging {v} (h : Part.staging ∈ ps) (g : Does ps bs s t) : Does ps bs s { t with staging := v } :=
  Does.after (t := t) ⟨fun p hp _ => by cases p <;> first | rfl | exact absurd h hp, fun _ _ _ => rfl, id⟩ g

theorem Does.put_shadow {v} (h : Part.shadow ∈ ps) (g : Does ps bs s t) : Does ps bs s { t with shadow := v } :=
  Does.after (t := t) ⟨fun p hp _ => by cases p <;> first | rfl | exact absurd h hp, fun _ _ _ => rfl, id⟩ g

theorem Does.put_agenda {v} (h : Part.agenda ∈ ps) (g : Does ps bs s t) : Does ps bs s { t with agenda := v } :=
  Does.after (t := t) ⟨fun p hp _ => by cases p <;> first | rfl | exact absurd h hp, fun _ _ _ => rfl, id⟩ g

theorem Does.put_causes {v} (h : Part.causes ∈ ps) (g : Does ps bs s t) : Does ps bs s { t with causes := v } :=
  Does.after (t := t) ⟨fun p hp _ => by cases p <;> first | rfl | exact absurd h hp, fun _ _ _ => rfl, id⟩ g

theorem Does.put_free {v} (h : Part.free ∈ ps) (g : Does ps bs s t) : Does ps bs s { t with free := v } :=
  Does.after (t := t) ⟨fun p hp _ => by cases p <;> first | rfl | exact absurd h hp, fun _ _ _ => rfl, id⟩ g

theorem Does.put_fresh {v} (h : Part.fresh ∈ ps) (g : Does ps bs s t) : Does ps bs s { t with fresh := v } :=
  Does.after (t := t) ⟨fun p hp _ => by cases p <;> first | rfl | exact absurd h hp, fun _ _ _ => rfl, id⟩ g

theorem Does.put_raised {v} (h : Part.raised ∈ ps) (g : Does ps bs s t) : Does ps bs s { t with raised := v } :=
  Does.after (t := t) ⟨fun p hp _ => by cases p <;> first | rfl | exact absurd h hp, fun _ _ _ => rfl, id⟩ g

theorem Does.put_merged {v} (h : Part.merged ∈ ps) (g : Does ps bs s t) : Does ps bs s { t with merged := v } :=
  Does.after (t := t) ⟨fun p hp _ => by cases p <;> first | rfl | exact absurd h hp, fun _ _ _ => rfl, id⟩ g

theorem Does.put_dueNow {v} (h : Part.dueNow ∈ ps) (g : Does ps bs s t) : Does ps bs s { t with dueNow := v } :=
  Does.after (t := t) ⟨fun p hp _ => by cases p <;> first | rfl | exact absurd h hp, fun _ _ _ => rfl, id⟩ g

theorem Does.put_out {v} (h : Part.out ∈ ps) (g : Does ps bs s t) : Does ps bs s { t with out := v } :=
  Does.after (t := t) ⟨fun p hp _ => by cases p <;> first | rfl | exact absurd h hp, fun _ _ _ => rfl, id⟩ g

theorem Does.put_sram {v} (h : Part.sram ∈ ps) (hv : Memory.wf t.sram = true → Memory.wf v = true) (g : Does ps bs s t) :
    Does ps bs s { t with sram := v } := by
  refine Does.after (t := t) ⟨fun p hp _ => ?_, fun _ a _ => rfl, fun c => ?_⟩ g
  · cases p <;> first | rfl | exact absurd h hp
  · obtain ⟨a, b, c, d⟩ := c; refine ⟨a, ?_, ?_, ?_⟩ <;> first | exact hv ‹_› | assumption

theorem Does.put_hbmMem {v} (h : Part.hbmMem ∈ ps) (hv : Memory.wf t.hbmMem = true → Memory.wf v = true) (g : Does ps bs s t) :
    Does ps bs s { t with hbmMem := v } := by
  refine Does.after (t := t) ⟨fun p hp _ => ?_, fun _ a _ => rfl, fun c => ?_⟩ g
  · cases p <;> first | rfl | exact absurd h hp
  · obtain ⟨a, b, c, d⟩ := c; refine ⟨a, ?_, ?_, ?_⟩ <;> first | exact hv ‹_› | assumption

theorem Does.put_spill {v} (h : Part.spill ∈ ps) (hv : Memory.wf t.spill = true → Memory.wf v = true) (g : Does ps bs s t) :
    Does ps bs s { t with spill := v } := by
  refine Does.after (t := t) ⟨fun p hp _ => ?_, fun _ a _ => rfl, fun c => ?_⟩ g
  · cases p <;> first | rfl | exact absurd h hp
  · obtain ⟨a, b, c, d⟩ := c; refine ⟨a, ?_, ?_, ?_⟩ <;> first | exact hv ‹_› | assumption

theorem Does.put_tbs {v} (h : Part.tbs ∈ ps) (g : Does ps bs s t) : Does ps bs s { t with tbs := v } :=
  Does.after (t := t) ⟨fun p hp _ => by cases p <;> first | rfl | exact absurd h hp, fun _ _ _ => rfl, id⟩ g

theorem Does.put_chans {v} (h : Part.chans ∈ ps) (g : Does ps bs s t) : Does ps bs s { t with chans := v } :=
  Does.after (t := t) ⟨fun p hp _ => by cases p <;> first | rfl | exact absurd h hp, fun _ _ _ => rfl, id⟩ g

theorem Does.put_pins {v} (h : Part.pins ∈ ps) (g : Does ps bs s t) : Does ps bs s { t with pins := v } :=
  Does.after (t := t) ⟨fun p hp _ => by cases p <;> first | rfl | exact absurd h hp, fun _ _ _ => rfl, id⟩ g

theorem Does.put_codes {v} (h : Part.codes ∈ ps) (g : Does ps bs s t) : Does ps bs s { t with codes := v } :=
  Does.after (t := t) ⟨fun p hp _ => by cases p <;> first | rfl | exact absurd h hp, fun _ _ _ => rfl, id⟩ g

theorem Does.put_meas {v} (h : Part.meas ∈ ps) (g : Does ps bs s t) : Does ps bs s { t with meas := v } :=
  Does.after (t := t) ⟨fun p hp _ => by cases p <;> first | rfl | exact absurd h hp, fun _ _ _ => rfl, id⟩ g

theorem Does.put_stampers {v} (h : Part.stampers ∈ ps) (g : Does ps bs s t) : Does ps bs s { t with stampers := v } :=
  Does.after (t := t) ⟨fun p hp _ => by cases p <;> first | rfl | exact absurd h hp, fun _ _ _ => rfl, id⟩ g

theorem Does.put_tacs {v} (h : Part.tacs ∈ ps) (g : Does ps bs s t) : Does ps bs s { t with tacs := v } :=
  Does.after (t := t) ⟨fun p hp _ => by cases p <;> first | rfl | exact absurd h hp, fun _ _ _ => rfl, id⟩ g

theorem Does.put_dlls {v} (h : Part.dlls ∈ ps) (g : Does ps bs s t) : Does ps bs s { t with dlls := v } :=
  Does.after (t := t) ⟨fun p hp _ => by cases p <;> first | rfl | exact absurd h hp, fun _ _ _ => rfl, id⟩ g

theorem Does.put_mons {v} (h : Part.mons ∈ ps) (g : Does ps bs s t) : Does ps bs s { t with mons := v } :=
  Does.after (t := t) ⟨fun p hp _ => by cases p <;> first | rfl | exact absurd h hp, fun _ _ _ => rfl, id⟩ g

theorem Does.put_engs {v} (h : Part.engs ∈ ps) (g : Does ps bs s t) : Does ps bs s { t with engs := v } :=
  Does.after (t := t) ⟨fun p hp _ => by cases p <;> first | rfl | exact absurd h hp, fun _ _ _ => rfl, id⟩ g

theorem Does.put_loops {v} (h : Part.loops ∈ ps) (g : Does ps bs s t) : Does ps bs s { t with loops := v } :=
  Does.after (t := t) ⟨fun p hp _ => by cases p <;> first | rfl | exact absurd h hp, fun _ _ _ => rfl, id⟩ g

theorem Does.put_quants {v} (h : Part.quants ∈ ps) (g : Does ps bs s t) : Does ps bs s { t with quants := v } :=
  Does.after (t := t) ⟨fun p hp _ => by cases p <;> first | rfl | exact absurd h hp, fun _ _ _ => rfl, id⟩ g

theorem Does.put_ships {v} (h : Part.ships ∈ ps) (g : Does ps bs s t) : Does ps bs s { t with ships := v } :=
  Does.after (t := t) ⟨fun p hp _ => by cases p <;> first | rfl | exact absurd h hp, fun _ _ _ => rfl, id⟩ g

theorem Does.put_ctl {v} (h : Part.ctl ∈ ps) (g : Does ps bs s t) : Does ps bs s { t with ctl := v } :=
  Does.after (t := t) ⟨fun p hp _ => by cases p <;> first | rfl | exact absurd h hp, fun _ _ _ => rfl, id⟩ g

theorem Does.put_players {v} (h : Part.players ∈ ps) (g : Does ps bs s t) : Does ps bs s { t with players := v } :=
  Does.after (t := t) ⟨fun p hp _ => by cases p <;> first | rfl | exact absurd h hp, fun _ _ _ => rfl, id⟩ g

theorem Does.put_seg {v} (h : Part.seg ∈ ps) (g : Does ps bs s t) : Does ps bs s { t with seg := v } :=
  Does.after (t := t) ⟨fun p hp _ => by cases p <;> first | rfl | exact absurd h hp, fun _ _ _ => rfl, id⟩ g

theorem Does.put_tasks {v} (h : Part.tasks ∈ ps) (g : Does ps bs s t) : Does ps bs s { t with tasks := v } :=
  Does.after (t := t) ⟨fun p hp _ => by cases p <;> first | rfl | exact absurd h hp, fun _ _ _ => rfl, id⟩ g

theorem Does.put_sched {v} (h : Part.sched ∈ ps) (g : Does ps bs s t) : Does ps bs s { t with sched := v } :=
  Does.after (t := t) ⟨fun p hp _ => by cases p <;> first | rfl | exact absurd h hp, fun _ _ _ => rfl, id⟩ g

theorem Does.put_acq {v} (h : Part.acq ∈ ps) (g : Does ps bs s t) : Does ps bs s { t with acq := v } :=
  Does.after (t := t) ⟨fun p hp _ => by cases p <;> first | rfl | exact absurd h hp, fun _ _ _ => rfl, id⟩ g

theorem Does.put_hbm {v} (h : Part.hbm ∈ ps) (g : Does ps bs s t) : Does ps bs s { t with hbm := v } :=
  Does.after (t := t) ⟨fun p hp _ => by cases p <;> first | rfl | exact absurd h hp, fun _ _ _ => rfl, id⟩ g

theorem Does.put_cals {v} (h : Part.cals ∈ ps) (g : Does ps bs s t) : Does ps bs s { t with cals := v } :=
  Does.after (t := t) ⟨fun p hp _ => by cases p <;> first | rfl | exact absurd h hp, fun _ _ _ => rfl, id⟩ g

theorem Does.put_calRec {v} (h : Part.calRec ∈ ps) (g : Does ps bs s t) : Does ps bs s { t with calRec := v } :=
  Does.after (t := t) ⟨fun p hp _ => by cases p <;> first | rfl | exact absurd h hp, fun _ _ _ => rfl, id⟩ g

theorem Does.put_twn {v} (h : Part.twn ∈ ps) (g : Does ps bs s t) : Does ps bs s { t with twn := v } :=
  Does.after (t := t) ⟨fun p hp _ => by cases p <;> first | rfl | exact absurd h hp, fun _ _ _ => rfl, id⟩ g

theorem Does.put_links {v} (h : Part.links ∈ ps) (g : Does ps bs s t) : Does ps bs s { t with links := v } :=
  Does.after (t := t) ⟨fun p hp _ => by cases p <;> first | rfl | exact absurd h hp, fun _ _ _ => rfl, id⟩ g

theorem Does.put_str {v} (h : Part.str ∈ ps) (g : Does ps bs s t) : Does ps bs s { t with str := v } :=
  Does.after (t := t) ⟨fun p hp _ => by cases p <;> first | rfl | exact absurd h hp, fun _ _ _ => rfl, id⟩ g

theorem Does.put_sec {v} (h : Part.sec ∈ ps) (g : Does ps bs s t) : Does ps bs s { t with sec := v } :=
  Does.after (t := t) ⟨fun p hp _ => by cases p <;> first | rfl | exact absurd h hp, fun _ _ _ => rfl, id⟩ g

theorem Does.put_mgt {v} (h : Part.mgt ∈ ps) (g : Does ps bs s t) : Does ps bs s { t with mgt := v } :=
  Does.after (t := t) ⟨fun p hp _ => by cases p <;> first | rfl | exact absurd h hp, fun _ _ _ => rfl, id⟩ g

theorem Does.put_power {v} (h : Part.power ∈ ps) (g : Does ps bs s t) : Does ps bs s { t with power := v } :=
  Does.after (t := t) ⟨fun p hp _ => by cases p <;> first | rfl | exact absurd h hp, fun _ _ _ => rfl, id⟩ g

/-- Memories written in order stay in canonical form. -/
theorem Memory.wf_foldl {α : Type} {f : List Host.Cell → α → List Host.Cell} {l : List α} {m : List Host.Cell}
    (h : ∀ m a, Memory.wf m = true → Memory.wf (f m a) = true) (g : Memory.wf m = true) :
    Memory.wf (l.foldl f m) = true := by
  induction l generalizing m with
  | nil => exact g
  | cons a l ih => exact ih (h m a g)

/-! ## Registers written -/

/-- An address, and the words that follow it, of a block that exists. -/
structure Adr (a b : Nat) : Prop where
  blk : ∀ k < 64, regBlk (a + 4 * k) = b
  ex : blockExists (a / 0x100000) = true

theorem Adr.here {a b : Nat} (h : Adr a b) : regBlk a = b := by simpa using h.blk 0 (by omega)

theorem Does.setReg_in {a : Nat} {v : Word} (h : Part.regs ∈ ps ∨ regBlk a ∈ bs) (g : Does ps bs s t) :
    Does ps bs s (t.setReg a v) := by
  refine Does.after (t := t) ⟨fun p hp hr => ?_, fun hr b hb => ?_, fun c => ?_⟩ g
  · cases p <;> first | rfl | exact absurd rfl hr
  · exact State.reg_setReg_ne _ _ (fun e => hb (e ▸ h.resolve_left hr))
  · exact ⟨Tab.wf_set _ _ _ _ c.1, c.2⟩

theorem Does.mark {a : Nat} {v : Word} (h : Part.fresh ∈ ps) (g : Does ps bs s t) : Does ps bs s (t.mark a v) :=
  Does.put_fresh h g

theorem Does.setReg_any {a : Nat} {v : Word} (h : Part.regs ∈ ps) (g : Does ps bs s t) : Does ps bs s (t.setReg a v) :=
  Does.setReg_in (.inl h) g

theorem Does.setFld_any {a : Nat} {f : Fld} {v : Nat} (h : Part.regs ∈ ps) (g : Does ps bs s t) :
    Does ps bs s (t.setFld a f v) := Does.setReg_any h g

theorem Does.setBit_any {a : Nat} {f : Fld} {v : Bool} (h : Part.regs ∈ ps) (g : Does ps bs s t) :
    Does ps bs s (t.setBit a f v) := Does.setReg_any h g

theorem Does.maxReg_any {a v : Nat} (h : Part.regs ∈ ps) (g : Does ps bs s t) : Does ps bs s (t.maxReg a v) :=
  Does.setReg_any h g

theorem Does.latch_any {a : Nat} {f : Fld} (h : Part.regs ∈ ps ∧ Part.fresh ∈ ps) (g : Does ps bs s t) :
    Does ps bs s (t.latch a f) := Does.mark h.2 (Does.setReg_any h.1 g)

theorem Does.bumpBy_any {a n : Nat} (h : Part.regs ∈ ps ∧ Part.fresh ∈ ps) (g : Does ps bs s t) :
    Does ps bs s (t.bumpBy a n) := Does.mark h.2 (Does.setReg_any h.1 g)

theorem Does.bump_any {a : Nat} (h : Part.regs ∈ ps ∧ Part.fresh ∈ ps) (g : Does ps bs s t) :
    Does ps bs s (t.bump a) := Does.bumpBy_any h g

theorem Does.setReg {a b : Nat} {v : Word} (ha : Adr a b) (h : b ∈ bs) (g : Does ps bs s t) : Does ps bs s (t.setReg a v) :=
  Does.setReg_in (.inr (ha.here ▸ h)) g

theorem Does.setFld {a b : Nat} {f : Fld} {v : Nat} (ha : Adr a b) (h : b ∈ bs) (g : Does ps bs s t) :
    Does ps bs s (t.setFld a f v) := Does.setReg ha h g

theorem Does.setBit {a b : Nat} {f : Fld} {v : Bool} (ha : Adr a b) (h : b ∈ bs) (g : Does ps bs s t) :
    Does ps bs s (t.setBit a f v) := Does.setReg ha h g

theorem Does.maxReg {a b v : Nat} (ha : Adr a b) (h : b ∈ bs) (g : Does ps bs s t) : Does ps bs s (t.maxReg a v) :=
  Does.setReg ha h g

theorem Does.latch {a b : Nat} {f : Fld} (ha : Adr a b) (h : b ∈ bs ∧ Part.fresh ∈ ps) (g : Does ps bs s t) :
    Does ps bs s (t.latch a f) := Does.mark h.2 (Does.setReg ha h.1 g)

theorem Does.bumpBy {a b n : Nat} (ha : Adr a b) (h : b ∈ bs ∧ Part.fresh ∈ ps) (g : Does ps bs s t) :
    Does ps bs s (t.bumpBy a n) := Does.mark h.2 (Does.setReg ha h.1 g)

theorem Does.bump {a b : Nat} (ha : Adr a b) (h : b ∈ bs ∧ Part.fresh ∈ ps) (g : Does ps bs s t) :
    Does ps bs s (t.bump a) := Does.bumpBy ha h g

theorem Does.setWide_in {a n v : Nat} (h : ∀ k < n, Part.regs ∈ ps ∨ regBlk (a + 4 * k) ∈ bs) (g : Does ps bs s t) :
    Does ps bs s (t.setWide a n v) := by
  induction n generalizing a v t with
  | zero => exact g
  | succ n ih =>
    refine ih (fun k hk => ?_) (Does.setReg_in ?_ g)
    · have := h (k + 1) (by omega)
      rwa [show a + 4 + 4 * k = a + 4 * (k + 1) by omega]
    · simpa using h 0 (by omega)

theorem Does.setWide_any {a n v : Nat} (h : Part.regs ∈ ps) (g : Does ps bs s t) : Does ps bs s (t.setWide a n v) :=
  Does.setWide_in (fun _ _ => .inl h) g

theorem Does.setWide {a b n v : Nat} (ha : Adr a b) (h : b ∈ bs ∧ n ≤ 64) (g : Does ps bs s t) :
    Does ps bs s (t.setWide a n v) :=
  Does.setWide_in (fun k hk => .inr (ha.blk k (by omega) ▸ h.1)) g

/-! ## Steps of a definition

What is bound by name in a definition, and what it does, before what follows. -/


theorem Does.lets (x : State) (h : Does ps bs s x)
    (k : (Does ps bs s x) → Does ps bs s t) : Does ps bs s t := k h

theorem Does.lets1 {α : Type} (x : State × α) (h : Does1 ps bs s x)
    (k : (Does1 ps bs s x) → Does ps bs s t) : Does ps bs s t := k h

theorem Does.lets2 {α : Type} (x : α × State) (h : Does2 ps bs s x)
    (k : (Does2 ps bs s x) → Does ps bs s t) : Does ps bs s t := k h

theorem Does.lets3 {α β : Type} (x : α × β × State) (h : Does3 ps bs s x)
    (k : (Does3 ps bs s x) → Does ps bs s t) : Does ps bs s t := k h

theorem Does.letsK1 {α : Type} (x : α → State) (h : ∀ a, Does ps bs s (x a))
    (k : (∀ a, Does ps bs s (x a)) → Does ps bs s t) : Does ps bs s t := k h

theorem Does.letsF1 {α : Type} (x : State → α → State) (h : ∀ t a, Does ps bs t (x t a))
    (k : (∀ t a, Does ps bs t (x t a)) → Does ps bs s t) : Does ps bs s t := k h

theorem Runs.lets {r : Result} (x : State) (h : Does ps bs s x)
    (k : (Does ps bs s x) → Runs ps bs s r) : Runs ps bs s r := k h

theorem Runs.lets2 {α : Type} {r : Result} (x : α × State) (h : Does2 ps bs s x)
    (k : (Does2 ps bs s x) → Runs ps bs s r) : Runs ps bs s r := k h

theorem Runs.letsF0 {r : Result} (x : State → State) (h : ∀ t, Does ps bs t (x t))
    (k : (∀ t, Does ps bs t (x t)) → Runs ps bs s r) : Runs ps bs s r := k h

theorem Gives.lets {o : Option State} (x : State) (h : Does ps bs s x)
    (k : (Does ps bs s x) → Gives ps bs s o) : Gives ps bs s o := k h

theorem Does2.lets {γ : Type} {r : γ × State} (x : State) (h : Does ps bs s x)
    (k : (Does ps bs s x) → Does2 ps bs s r) : Does2 ps bs s r := k h

theorem Does2.lets2 {γ : Type} {α : Type} {r : γ × State} (x : α × State) (h : Does2 ps bs s x)
    (k : (Does2 ps bs s x) → Does2 ps bs s r) : Does2 ps bs s r := k h

theorem Does2.letsF1 {γ : Type} {α : Type} {r : γ × State} (x : State → α → State) (h : ∀ t a, Does ps bs t (x t a))
    (k : (∀ t a, Does ps bs t (x t a)) → Does2 ps bs s r) : Does2 ps bs s r := k h

theorem Does3.lets {γ δ : Type} {r : γ × δ × State} (x : State) (h : Does ps bs s x)
    (k : (Does ps bs s x) → Does3 ps bs s r) : Does3 ps bs s r := k h

theorem Does3.lets3 {γ δ : Type} {α β : Type} {r : γ × δ × State} (x : α × β × State) (h : Does3 ps bs s x)
    (k : (Does3 ps bs s x) → Does3 ps bs s r) : Does3 ps bs s r := k h

end Sys2Proof.Machine
end

