-- ==== Sys2Proof/Laws/Address.lean ====
section
/-! SUPPORT. The blocks in which the registers of the map lie. -/
namespace Sys2Proof.Machine

theorem blockExists_isl {b : Nat} (h1 : 64 ≤ b) (h2 : b < 128) : blockExists b = true := by
  have h : ∀ k < 64, blockExists (64 + k) = true := by decide
  have := h (b - 64) (by omega)
  rwa [show 64 + (b - 64) = b from by omega] at this

theorem adr_isl {a : Nat} (h1 : 0x4000000 ≤ a) (h2 : a < 0x7FF0000 ∧ a % 0x100000 < 0xFF000) : Adr a 64 :=
  ⟨fun k hk => by unfold regBlk; omega, blockExists_isl (by omega) (by omega)⟩

theorem adr_low {a b : Nat} (h : b < 64 ∧ blockExists b = true) (h1 : b * 0x100000 ≤ a) (h2 : a < b * 0x100000 + 0xFFF00) : Adr a b :=
  ⟨fun k hk => by unfold regBlk; omega, by rw [show a / 0x100000 = b by omega]; exact h.2⟩

theorem adr_GLB_RSTCAUSE : Adr aGLB_RSTCAUSE 0 := adr_low (by decide) (by unfold aGLB_RSTCAUSE; omega) (by unfold aGLB_RSTCAUSE; omega)
theorem adr_GLB_RSTCMD : Adr aGLB_RSTCMD 0 := adr_low (by decide) (by unfold aGLB_RSTCMD; omega) (by unfold aGLB_RSTCMD; omega)
theorem adr_GLB_PART : Adr aGLB_PART 0 := adr_low (by decide) (by unfold aGLB_PART; omega) (by unfold aGLB_PART; omega)
theorem adr_GLB_SERIAL : Adr aGLB_SERIAL 0 := adr_low (by decide) (by unfold aGLB_SERIAL; omega) (by unfold aGLB_SERIAL; omega)
theorem adr_GLB_CAPS : Adr aGLB_CAPS 0 := adr_low (by decide) (by unfold aGLB_CAPS; omega) (by unfold aGLB_CAPS; omega)
theorem adr_GLB_SCRATCH : Adr aGLB_SCRATCH 0 := adr_low (by decide) (by unfold aGLB_SCRATCH; omega) (by unfold aGLB_SCRATCH; omega)
theorem adr_TBS_CTL : Adr aTBS_CTL 1 := adr_low (by decide) (by unfold aTBS_CTL; omega) (by unfold aTBS_CTL; omega)
theorem adr_TBS_SRC : Adr aTBS_SRC 1 := adr_low (by decide) (by unfold aTBS_SRC; omega) (by unfold aTBS_SRC; omega)
theorem adr_TBS_STATE : Adr aTBS_STATE 1 := adr_low (by decide) (by unfold aTBS_STATE; omega) (by unfold aTBS_STATE; omega)
theorem adr_TBS_NOW : Adr aTBS_NOW 1 := adr_low (by decide) (by unfold aTBS_NOW; omega) (by unfold aTBS_NOW; omega)
theorem adr_TBS_LOAD : Adr aTBS_LOAD 1 := adr_low (by decide) (by unfold aTBS_LOAD; omega) (by unfold aTBS_LOAD; omega)
theorem adr_TBS_CMD : Adr aTBS_CMD 1 := adr_low (by decide) (by unfold aTBS_CMD; omega) (by unfold aTBS_CMD; omega)
theorem adr_TBS_LOCKCFG : Adr aTBS_LOCKCFG 1 := adr_low (by decide) (by unfold aTBS_LOCKCFG; omega) (by unfold aTBS_LOCKCFG; omega)
theorem adr_TBS_CABLE : Adr aTBS_CABLE 1 := adr_low (by decide) (by unfold aTBS_CABLE; omega) (by unfold aTBS_CABLE; omega)
theorem adr_TBS_PSLEW : Adr aTBS_PSLEW 1 := adr_low (by decide) (by unfold aTBS_PSLEW; omega) (by unfold aTBS_PSLEW; omega)
theorem adr_TBS_FSLEW : Adr aTBS_FSLEW 1 := adr_low (by decide) (by unfold aTBS_FSLEW; omega) (by unfold aTBS_FSLEW; omega)
theorem adr_TBS_FREQ : Adr aTBS_FREQ 1 := adr_low (by decide) (by unfold aTBS_FREQ; omega) (by unfold aTBS_FREQ; omega)
theorem adr_TBS_AGE : Adr aTBS_AGE 1 := adr_low (by decide) (by unfold aTBS_AGE; omega) (by unfold aTBS_AGE; omega)
theorem adr_TBS_PHERR : Adr aTBS_PHERR 1 := adr_low (by decide) (by unfold aTBS_PHERR; omega) (by unfold aTBS_PHERR; omega)
theorem adr_TBS_PATH : Adr aTBS_PATH 1 := adr_low (by decide) (by unfold aTBS_PATH; omega) (by unfold aTBS_PATH; omega)
theorem adr_TBS_HOP : Adr aTBS_HOP 1 := adr_low (by decide) (by unfold aTBS_HOP; omega) (by unfold aTBS_HOP; omega)
theorem adr_TBS_HOLD : Adr aTBS_HOLD 1 := adr_low (by decide) (by unfold aTBS_HOLD; omega) (by unfold aTBS_HOLD; omega)
theorem adr_TBS_LATE : Adr aTBS_LATE 1 := adr_low (by decide) (by unfold aTBS_LATE; omega) (by unfold aTBS_LATE; omega)
theorem adr_TBS_LATE_CNT : Adr aTBS_LATE_CNT 1 := adr_low (by decide) (by unfold aTBS_LATE_CNT; omega) (by unfold aTBS_LATE_CNT; omega)
theorem adr_TBS_LATE_SRC : Adr aTBS_LATE_SRC 1 := adr_low (by decide) (by unfold aTBS_LATE_SRC; omega) (by unfold aTBS_LATE_SRC; omega)
theorem adr_TBS_LATE_DUE : Adr aTBS_LATE_DUE 1 := adr_low (by decide) (by unfold aTBS_LATE_DUE; omega) (by unfold aTBS_LATE_DUE; omega)
theorem adr_TBS_LATE_ARR : Adr aTBS_LATE_ARR 1 := adr_low (by decide) (by unfold aTBS_LATE_ARR; omega) (by unfold aTBS_LATE_ARR; omega)
theorem adr_TBS_DUEQ : Adr aTBS_DUEQ 1 := adr_low (by decide) (by unfold aTBS_DUEQ; omega) (by unfold aTBS_DUEQ; omega)
theorem adr_TBS_COLD : Adr aTBS_COLD 1 := adr_low (by decide) (by unfold aTBS_COLD; omega) (by unfold aTBS_COLD; omega)
theorem adr_FLT_STAT : Adr aFLT_STAT 2 := adr_low (by decide) (by unfold aFLT_STAT; omega) (by unfold aFLT_STAT; omega)
theorem adr_FLT_PEND : Adr aFLT_PEND 2 := adr_low (by decide) (by unfold aFLT_PEND; omega) (by unfold aFLT_PEND; omega)
theorem adr_FLT_ACK : Adr aFLT_ACK 2 := adr_low (by decide) (by unfold aFLT_ACK; omega) (by unfold aFLT_ACK; omega)
theorem adr_FLT_LAT : Adr aFLT_LAT 2 := adr_low (by decide) (by unfold aFLT_LAT; omega) (by unfold aFLT_LAT; omega)
theorem adr_FLT_ACKREF : Adr aFLT_ACKREF 2 := adr_low (by decide) (by unfold aFLT_ACKREF; omega) (by unfold aFLT_ACKREF; omega)
theorem adr_FLT_TEST : Adr aFLT_TEST 2 := adr_low (by decide) (by unfold aFLT_TEST; omega) (by unfold aFLT_TEST; omega)
theorem adr_FLT_RSTSRC : Adr aFLT_RSTSRC 2 := adr_low (by decide) (by unfold aFLT_RSTSRC; omega) (by unfold aFLT_RSTSRC; omega)
theorem adr_FLT_MERGED : Adr aFLT_MERGED 2 := adr_low (by decide) (by unfold aFLT_MERGED; omega) (by unfold aFLT_MERGED; omega)
theorem adr_FLT_STICKY {w : Nat} : Adr (aFLT_STICKY w) 2 := adr_low (by decide) (by unfold aFLT_STICKY; omega) (by unfold aFLT_STICKY; omega)
theorem adr_FLT_CAUSE {w : Nat} : Adr (aFLT_CAUSE w) 2 := adr_low (by decide) (by unfold aFLT_CAUSE; omega) (by unfold aFLT_CAUSE; omega)
theorem adr_FLT_REACT {w : Nat} : Adr (aFLT_REACT w) 2 := adr_low (by decide) (by unfold aFLT_REACT; omega) (by unfold aFLT_REACT; omega)
theorem adr_BUS_LAT : Adr aBUS_LAT 3 := adr_low (by decide) (by unfold aBUS_LAT; omega) (by unfold aBUS_LAT; omega)
theorem adr_BUS_MALF : Adr aBUS_MALF 3 := adr_low (by decide) (by unfold aBUS_MALF; omega) (by unfold aBUS_MALF; omega)
theorem adr_BUS_MALFCNT : Adr aBUS_MALFCNT 3 := adr_low (by decide) (by unfold aBUS_MALFCNT; omega) (by unfold aBUS_MALFCNT; omega)
theorem adr_BUS_SLKTHR : Adr aBUS_SLKTHR 3 := adr_low (by decide) (by unfold aBUS_SLKTHR; omega) (by unfold aBUS_SLKTHR; omega)
theorem adr_BUS_LATMAX {i : Nat} : Adr (aBUS_LATMAX i) 3 := adr_low (by decide) (by unfold aBUS_LATMAX; omega) (by unfold aBUS_LATMAX; omega)
theorem adr_BUS_SLACK {i : Nat} : Adr (aBUS_SLACK i) 3 := adr_low (by decide) (by unfold aBUS_SLACK; omega) (by unfold aBUS_SLACK; omega)
theorem adr_SCH_STAT : Adr aSCH_STAT 4 := adr_low (by decide) (by unfold aSCH_STAT; omega) (by unfold aSCH_STAT; omega)
theorem adr_SCH_LAT : Adr aSCH_LAT 4 := adr_low (by decide) (by unfold aSCH_LAT; omega) (by unfold aSCH_LAT; omega)
theorem adr_SCH_MREJ : Adr aSCH_MREJ 4 := adr_low (by decide) (by unfold aSCH_MREJ; omega) (by unfold aSCH_MREJ; omega)
theorem adr_SCH_RCCNT : Adr aSCH_RCCNT 4 := adr_low (by decide) (by unfold aSCH_RCCNT; omega) (by unfold aSCH_RCCNT; omega)
theorem adr_SCH_AGECNT : Adr aSCH_AGECNT 4 := adr_low (by decide) (by unfold aSCH_AGECNT; omega) (by unfold aSCH_AGECNT; omega)
theorem adr_SCH_WIN : Adr aSCH_WIN 4 := adr_low (by decide) (by unfold aSCH_WIN; omega) (by unfold aSCH_WIN; omega)
theorem adr_SCH_POOL : Adr aSCH_POOL 4 := adr_low (by decide) (by unfold aSCH_POOL; omega) (by unfold aSCH_POOL; omega)
theorem adr_SCH_GUARDS : Adr aSCH_GUARDS 4 := adr_low (by decide) (by unfold aSCH_GUARDS; omega) (by unfold aSCH_GUARDS; omega)
theorem adr_SCH_BAND : Adr aSCH_BAND 4 := adr_low (by decide) (by unfold aSCH_BAND; omega) (by unfold aSCH_BAND; omega)
theorem adr_SCH_GRP0 {g : Nat} : Adr (aSCH_GRP0 g) 4 := adr_low (by decide) (by unfold aSCH_GRP0; omega) (by unfold aSCH_GRP0; omega)
theorem adr_SCH_GRP1 {g : Nat} : Adr (aSCH_GRP1 g) 4 := adr_low (by decide) (by unfold aSCH_GRP1; omega) (by unfold aSCH_GRP1; omega)
theorem adr_SCH_ASET {a : Nat} : Adr (aSCH_ASET a) 4 := adr_low (by decide) (by unfold aSCH_ASET; omega) (by unfold aSCH_ASET; omega)
theorem adr_SCH_TSEL {p : Nat} : Adr (aSCH_TSEL p) 4 := adr_low (by decide) (by unfold aSCH_TSEL; omega) (by unfold aSCH_TSEL; omega)
theorem adr_SCH_TV_STATE : Adr aSCH_TV_STATE 4 := adr_low (by decide) (by unfold aSCH_TV_STATE; omega) (by unfold aSCH_TV_STATE; omega)
theorem adr_SCH_TV_F : Adr aSCH_TV_F 4 := adr_low (by decide) (by unfold aSCH_TV_F; omega) (by unfold aSCH_TV_F; omega)
theorem adr_SCH_TV_W : Adr aSCH_TV_W 4 := adr_low (by decide) (by unfold aSCH_TV_W; omega) (by unfold aSCH_TV_W; omega)
theorem adr_SCH_TV_WAIT : Adr aSCH_TV_WAIT 4 := adr_low (by decide) (by unfold aSCH_TV_WAIT; omega) (by unfold aSCH_TV_WAIT; omega)
theorem adr_SCH_QCFG {q : Nat} : Adr (aSCH_QCFG q) 4 := adr_low (by decide) (by unfold aSCH_QCFG; omega) (by unfold aSCH_QCFG; omega)
theorem adr_SCH_QFILL {q : Nat} : Adr (aSCH_QFILL q) 4 := adr_low (by decide) (by unfold aSCH_QFILL; omega) (by unfold aSCH_QFILL; omega)
theorem adr_SCH_QPUSH {q : Nat} : Adr (aSCH_QPUSH q) 4 := adr_low (by decide) (by unfold aSCH_QPUSH; omega) (by unfold aSCH_QPUSH; omega)
theorem adr_STE_CTX : Adr aSTE_CTX 5 := adr_low (by decide) (by unfold aSTE_CTX; omega) (by unfold aSTE_CTX; omega)
theorem adr_STE_STAT {e : Nat} : Adr (aSTE_STAT e) 5 := adr_low (by decide) (by unfold aSTE_STAT; omega) (by unfold aSTE_STAT; omega)
theorem adr_STE_DEPTH {e : Nat} : Adr (aSTE_DEPTH e) 5 := adr_low (by decide) (by unfold aSTE_DEPTH; omega) (by unfold aSTE_DEPTH; omega)
theorem adr_STE_WMAX {e : Nat} : Adr (aSTE_WMAX e) 5 := adr_low (by decide) (by unfold aSTE_WMAX; omega) (by unfold aSTE_WMAX; omega)
theorem adr_STE_WMEAN {e : Nat} : Adr (aSTE_WMEAN e) 5 := adr_low (by decide) (by unfold aSTE_WMEAN; omega) (by unfold aSTE_WMEAN; omega)
theorem adr_STE_BUSY {e : Nat} : Adr (aSTE_BUSY e) 5 := adr_low (by decide) (by unfold aSTE_BUSY; omega) (by unfold aSTE_BUSY; omega)
theorem adr_STE_DISP {e : Nat} : Adr (aSTE_DISP e) 5 := adr_low (by decide) (by unfold aSTE_DISP; omega) (by unfold aSTE_DISP; omega)
theorem adr_STE_DISPL {e : Nat} : Adr (aSTE_DISPL e) 5 := adr_low (by decide) (by unfold aSTE_DISPL; omega) (by unfold aSTE_DISPL; omega)
theorem adr_STE_LATE {e : Nat} : Adr (aSTE_LATE e) 5 := adr_low (by decide) (by unfold aSTE_LATE; omega) (by unfold aSTE_LATE; omega)
theorem adr_LPE_SRC : Adr aLPE_SRC 6 := adr_low (by decide) (by unfold aLPE_SRC; omega) (by unfold aLPE_SRC; omega)
theorem adr_LPE_LAT : Adr aLPE_LAT 6 := adr_low (by decide) (by unfold aLPE_LAT; omega) (by unfold aLPE_LAT; omega)
theorem adr_LPE_FLIP : Adr aLPE_FLIP 6 := adr_low (by decide) (by unfold aLPE_FLIP; omega) (by unfold aLPE_FLIP; omega)
theorem adr_LPE_GEN {e : Nat} : Adr (aLPE_GEN e) 6 := adr_low (by decide) (by unfold aLPE_GEN; omega) (by unfold aLPE_GEN; omega)
theorem adr_LPE_CLAIM {e : Nat} : Adr (aLPE_CLAIM e) 6 := adr_low (by decide) (by unfold aLPE_CLAIM; omega) (by unfold aLPE_CLAIM; omega)
theorem adr_LPE_CS_ROMID : Adr aLPE_CS_ROMID 6 := adr_low (by decide) (by unfold aLPE_CS_ROMID; omega) (by unfold aLPE_CS_ROMID; omega)
theorem adr_LPE_CS_STAT : Adr aLPE_CS_STAT 6 := adr_low (by decide) (by unfold aLPE_CS_STAT; omega) (by unfold aLPE_CS_STAT; omega)
theorem adr_LPE_CS_DIG : Adr aLPE_CS_DIG 6 := adr_low (by decide) (by unfold aLPE_CS_DIG; omega) (by unfold aLPE_CS_DIG; omega)
theorem adr_LPE_CS_ECC : Adr aLPE_CS_ECC 6 := adr_low (by decide) (by unfold aLPE_CS_ECC; omega) (by unfold aLPE_CS_ECC; omega)
theorem adr_ENG_STAT {e : Nat} : Adr (aENG_STAT e) 6 := adr_low (by decide) (by unfold aENG_STAT; omega) (by unfold aENG_STAT; omega)
theorem adr_ENG_LOAD {e : Nat} : Adr (aENG_LOAD e) 6 := adr_low (by decide) (by unfold aENG_LOAD; omega) (by unfold aENG_LOAD; omega)
theorem adr_ENG_MAXD {e : Nat} : Adr (aENG_MAXD e) 6 := adr_low (by decide) (by unfold aENG_MAXD; omega) (by unfold aENG_MAXD; omega)
theorem adr_ENG_BGREQ {e : Nat} : Adr (aENG_BGREQ e) 6 := adr_low (by decide) (by unfold aENG_BGREQ; omega) (by unfold aENG_BGREQ; omega)
theorem adr_ENG_BGSTAT {e : Nat} : Adr (aENG_BGSTAT e) 6 := adr_low (by decide) (by unfold aENG_BGSTAT; omega) (by unfold aENG_BGSTAT; omega)
theorem adr_ENG_BGPC {e : Nat} : Adr (aENG_BGPC e) 6 := adr_low (by decide) (by unfold aENG_BGPC; omega) (by unfold aENG_BGPC; omega)
theorem adr_ENG_CUTS {e : Nat} : Adr (aENG_CUTS e) 6 := adr_low (by decide) (by unfold aENG_CUTS; omega) (by unfold aENG_CUTS; omega)
theorem adr_ENG_TRAP {e : Nat} : Adr (aENG_TRAP e) 6 := adr_low (by decide) (by unfold aENG_TRAP; omega) (by unfold aENG_TRAP; omega)
theorem adr_ENG_RESTART {e : Nat} : Adr (aENG_RESTART e) 6 := adr_low (by decide) (by unfold aENG_RESTART; omega) (by unfold aENG_RESTART; omega)
theorem adr_LCH_CTL {c : Nat} : Adr (aLCH_CTL c) 6 := adr_low (by decide) (by unfold aLCH_CTL; omega) (by unfold aLCH_CTL; omega)
theorem adr_LCH_CFG {c : Nat} : Adr (aLCH_CFG c) 6 := adr_low (by decide) (by unfold aLCH_CFG; omega) (by unfold aLCH_CFG; omega)
theorem adr_LCH_LAW {c : Nat} : Adr (aLCH_LAW c) 6 := adr_low (by decide) (by unfold aLCH_LAW; omega) (by unfold aLCH_LAW; omega)
theorem adr_LCH_RVB {c : Nat} : Adr (aLCH_RVB c) 6 := adr_low (by decide) (by unfold aLCH_RVB; omega) (by unfold aLCH_RVB; omega)
theorem adr_LCH_DTC {c : Nat} : Adr (aLCH_DTC c) 6 := adr_low (by decide) (by unfold aLCH_DTC; omega) (by unfold aLCH_DTC; omega)
theorem adr_LCH_STAT {c : Nat} : Adr (aLCH_STAT c) 6 := adr_low (by decide) (by unfold aLCH_STAT; omega) (by unfold aLCH_STAT; omega)
theorem adr_LCH_UPD {c : Nat} : Adr (aLCH_UPD c) 6 := adr_low (by decide) (by unfold aLCH_UPD; omega) (by unfold aLCH_UPD; omega)
theorem adr_LCH_NOM {c : Nat} : Adr (aLCH_NOM c) 6 := adr_low (by decide) (by unfold aLCH_NOM; omega) (by unfold aLCH_NOM; omega)
theorem adr_LCH_XV {c : Nat} : Adr (aLCH_XV c) 6 := adr_low (by decide) (by unfold aLCH_XV; omega) (by unfold aLCH_XV; omega)
theorem adr_LCH_XI {c : Nat} : Adr (aLCH_XI c) 6 := adr_low (by decide) (by unfold aLCH_XI; omega) (by unfold aLCH_XI; omega)
theorem adr_LCH_DV {c : Nat} : Adr (aLCH_DV c) 6 := adr_low (by decide) (by unfold aLCH_DV; omega) (by unfold aLCH_DV; omega)
theorem adr_LCH_DI {c : Nat} : Adr (aLCH_DI c) 6 := adr_low (by decide) (by unfold aLCH_DI; omega) (by unfold aLCH_DI; omega)
theorem adr_LCH_H {c : Nat} : Adr (aLCH_H c) 6 := adr_low (by decide) (by unfold aLCH_H; omega) (by unfold aLCH_H; omega)
theorem adr_SEG_CFG : Adr aSEG_CFG 7 := adr_low (by decide) (by unfold aSEG_CFG; omega) (by unfold aSEG_CFG; omega)
theorem adr_SEG_CMD : Adr aSEG_CMD 7 := adr_low (by decide) (by unfold aSEG_CMD; omega) (by unfold aSEG_CMD; omega)
theorem adr_SEG_CSTAT : Adr aSEG_CSTAT 7 := adr_low (by decide) (by unfold aSEG_CSTAT; omega) (by unfold aSEG_CSTAT; omega)
theorem adr_SEG_LAT : Adr aSEG_LAT 7 := adr_low (by decide) (by unfold aSEG_LAT; omega) (by unfold aSEG_LAT; omega)
theorem adr_SEG_RUN : Adr aSEG_RUN 7 := adr_low (by decide) (by unfold aSEG_RUN; omega) (by unfold aSEG_RUN; omega)
theorem adr_SEG_EPOCH : Adr aSEG_EPOCH 7 := adr_low (by decide) (by unfold aSEG_EPOCH; omega) (by unfold aSEG_EPOCH; omega)
theorem adr_SEG_SEALED {w : Nat} : Adr (aSEG_SEALED w) 7 := adr_low (by decide) (by unfold aSEG_SEALED; omega) (by unfold aSEG_SEALED; omega)
theorem adr_PL_CMD {c : Nat} : Adr (aPL_CMD c) 7 := adr_low (by decide) (by unfold aPL_CMD; omega) (by unfold aPL_CMD; omega)
theorem adr_PL_STAT {c : Nat} : Adr (aPL_STAT c) 7 := adr_low (by decide) (by unfold aPL_STAT; omega) (by unfold aPL_STAT; omega)
theorem adr_PL_LOOP {c : Nat} : Adr (aPL_LOOP c) 7 := adr_low (by decide) (by unfold aPL_LOOP; omega) (by unfold aPL_LOOP; omega)
theorem adr_PL_SAMP {c : Nat} : Adr (aPL_SAMP c) 7 := adr_low (by decide) (by unfold aPL_SAMP; omega) (by unfold aPL_SAMP; omega)
theorem adr_PL_SP {c : Nat} : Adr (aPL_SP c) 7 := adr_low (by decide) (by unfold aPL_SP; omega) (by unfold aPL_SP; omega)
theorem adr_PL_PH {c : Nat} : Adr (aPL_PH c) 7 := adr_low (by decide) (by unfold aPL_PH; omega) (by unfold aPL_PH; omega)
theorem adr_PL_STARVE {c : Nat} : Adr (aPL_STARVE c) 7 := adr_low (by decide) (by unfold aPL_STARVE; omega) (by unfold aPL_STARVE; omega)
theorem adr_PL_LAT {c : Nat} : Adr (aPL_LAT c) 7 := adr_low (by decide) (by unfold aPL_LAT; omega) (by unfold aPL_LAT; omega)
theorem adr_PL_REJ {c : Nat} : Adr (aPL_REJ c) 7 := adr_low (by decide) (by unfold aPL_REJ; omega) (by unfold aPL_REJ; omega)
theorem adr_ACQ_CFG : Adr aACQ_CFG 10 := adr_low (by decide) (by unfold aACQ_CFG; omega) (by unfold aACQ_CFG; omega)
theorem adr_ACQ_PER : Adr aACQ_PER 10 := adr_low (by decide) (by unfold aACQ_PER; omega) (by unfold aACQ_PER; omega)
theorem adr_ACQ_STAT : Adr aACQ_STAT 10 := adr_low (by decide) (by unfold aACQ_STAT; omega) (by unfold aACQ_STAT; omega)
theorem adr_ACQ_LAT : Adr aACQ_LAT 10 := adr_low (by decide) (by unfold aACQ_LAT; omega) (by unfold aACQ_LAT; omega)
theorem adr_ACQ_SEALNO : Adr aACQ_SEALNO 10 := adr_low (by decide) (by unfold aACQ_SEALNO; omega) (by unfold aACQ_SEALNO; omega)
theorem adr_TRG_CTL {t : Nat} : Adr (aTRG_CTL t) 10 := adr_low (by decide) (by unfold aTRG_CTL; omega) (by unfold aTRG_CTL; omega)
theorem adr_TRG_TO {t : Nat} : Adr (aTRG_TO t) 10 := adr_low (by decide) (by unfold aTRG_TO; omega) (by unfold aTRG_TO; omega)
theorem adr_TRG_STAT {t : Nat} : Adr (aTRG_STAT t) 10 := adr_low (by decide) (by unfold aTRG_STAT; omega) (by unfold aTRG_STAT; omega)
theorem adr_TRG_TIME {t : Nat} : Adr (aTRG_TIME t) 10 := adr_low (by decide) (by unfold aTRG_TIME; omega) (by unfold aTRG_TIME; omega)
theorem adr_BSN_SIZE {k : Nat} : Adr (aBSN_SIZE k) 10 := adr_low (by decide) (by unfold aBSN_SIZE; omega) (by unfold aBSN_SIZE; omega)
theorem adr_BSN_FILL {k : Nat} : Adr (aBSN_FILL k) 10 := adr_low (by decide) (by unfold aBSN_FILL; omega) (by unfold aBSN_FILL; omega)
theorem adr_BSN_WR {k : Nat} : Adr (aBSN_WR k) 10 := adr_low (by decide) (by unfold aBSN_WR; omega) (by unfold aBSN_WR; omega)
theorem adr_BSN_ACK {k : Nat} : Adr (aBSN_ACK k) 10 := adr_low (by decide) (by unfold aBSN_ACK; omega) (by unfold aBSN_ACK; omega)
theorem adr_BSN_MAXF {k : Nat} : Adr (aBSN_MAXF k) 10 := adr_low (by decide) (by unfold aBSN_MAXF; omega) (by unfold aBSN_MAXF; omega)
theorem adr_BSN_DROP {k : Nat} : Adr (aBSN_DROP k) 10 := adr_low (by decide) (by unfold aBSN_DROP; omega) (by unfold aBSN_DROP; omega)
theorem adr_SPL_USED : Adr aSPL_USED 10 := adr_low (by decide) (by unfold aSPL_USED; omega) (by unfold aSPL_USED; omega)
theorem adr_SPL_WR : Adr aSPL_WR 10 := adr_low (by decide) (by unfold aSPL_WR; omega) (by unfold aSPL_WR; omega)
theorem adr_SPL_RD : Adr aSPL_RD 10 := adr_low (by decide) (by unfold aSPL_RD; omega) (by unfold aSPL_RD; omega)
theorem adr_CAP {n : Nat} : Adr (aCAP n) 10 := adr_low (by decide) (by unfold aCAP; omega) (by unfold aCAP; omega)
theorem adr_ACH_SEL {c : Nat} : Adr (aACH_SEL c) 10 := adr_low (by decide) (by unfold aACH_SEL; omega) (by unfold aACH_SEL; omega)
theorem adr_ACH_FIRE {c : Nat} : Adr (aACH_FIRE c) 10 := adr_low (by decide) (by unfold aACH_FIRE; omega) (by unfold aACH_FIRE; omega)
theorem adr_ACH_STAT {c : Nat} : Adr (aACH_STAT c) 10 := adr_low (by decide) (by unfold aACH_STAT; omega) (by unfold aACH_STAT; omega)
theorem adr_ACH_MVIOL {c : Nat} : Adr (aACH_MVIOL c) 10 := adr_low (by decide) (by unfold aACH_MVIOL; omega) (by unfold aACH_MVIOL; omega)
theorem adr_EXC_WR : Adr aEXC_WR 11 := adr_low (by decide) (by unfold aEXC_WR; omega) (by unfold aEXC_WR; omega)
theorem adr_EXC_OLD : Adr aEXC_OLD 11 := adr_low (by decide) (by unfold aEXC_OLD; omega) (by unfold aEXC_OLD; omega)
theorem adr_EXC_OVFSZ : Adr aEXC_OVFSZ 11 := adr_low (by decide) (by unfold aEXC_OVFSZ; omega) (by unfold aEXC_OVFSZ; omega)
theorem adr_EXC_LAT : Adr aEXC_LAT 11 := adr_low (by decide) (by unfold aEXC_LAT; omega) (by unfold aEXC_LAT; omega)
theorem adr_EXC_LOST : Adr aEXC_LOST 11 := adr_low (by decide) (by unfold aEXC_LOST; omega) (by unfold aEXC_LOST; omega)
theorem adr_HBM_CFG : Adr aHBM_CFG 12 := adr_low (by decide) (by unfold aHBM_CFG; omega) (by unfold aHBM_CFG; omega)
theorem adr_HBM_RATE : Adr aHBM_RATE 12 := adr_low (by decide) (by unfold aHBM_RATE; omega) (by unfold aHBM_RATE; omega)
theorem adr_HBM_CMD : Adr aHBM_CMD 12 := adr_low (by decide) (by unfold aHBM_CMD; omega) (by unfold aHBM_CMD; omega)
theorem adr_HBM_STAT : Adr aHBM_STAT 12 := adr_low (by decide) (by unfold aHBM_STAT; omega) (by unfold aHBM_STAT; omega)
theorem adr_HBM_LAT : Adr aHBM_LAT 12 := adr_low (by decide) (by unfold aHBM_LAT; omega) (by unfold aHBM_LAT; omega)
theorem adr_HBM_CECNT : Adr aHBM_CECNT 12 := adr_low (by decide) (by unfold aHBM_CECNT; omega) (by unfold aHBM_CECNT; omega)
theorem adr_HBM_UECNT : Adr aHBM_UECNT 12 := adr_low (by decide) (by unfold aHBM_UECNT; omega) (by unfold aHBM_UECNT; omega)
theorem adr_HBM_SPLITS : Adr aHBM_SPLITS 12 := adr_low (by decide) (by unfold aHBM_SPLITS; omega) (by unfold aHBM_SPLITS; omega)
theorem adr_HBM_SCRUB : Adr aHBM_SCRUB 12 := adr_low (by decide) (by unfold aHBM_SCRUB; omega) (by unfold aHBM_SCRUB; omega)
theorem adr_HBM_ELOG_SEL : Adr aHBM_ELOG_SEL 12 := adr_low (by decide) (by unfold aHBM_ELOG_SEL; omega) (by unfold aHBM_ELOG_SEL; omega)
theorem adr_HBM_ELOG_0 : Adr aHBM_ELOG_0 12 := adr_low (by decide) (by unfold aHBM_ELOG_0; omega) (by unfold aHBM_ELOG_0; omega)
theorem adr_HBM_ELOG_1 : Adr aHBM_ELOG_1 12 := adr_low (by decide) (by unfold aHBM_ELOG_1; omega) (by unfold aHBM_ELOG_1; omega)
theorem adr_HBM_ELOG_T : Adr aHBM_ELOG_T 12 := adr_low (by decide) (by unfold aHBM_ELOG_T; omega) (by unfold aHBM_ELOG_T; omega)
theorem adr_HBM_RGN_BASE {r : Nat} : Adr (aHBM_RGN_BASE r) 12 := adr_low (by decide) (by unfold aHBM_RGN_BASE; omega) (by unfold aHBM_RGN_BASE; omega)
theorem adr_HBM_RGN_SIZE {r : Nat} : Adr (aHBM_RGN_SIZE r) 12 := adr_low (by decide) (by unfold aHBM_RGN_SIZE; omega) (by unfold aHBM_RGN_SIZE; omega)
theorem adr_HBM_RGN_KIND {r : Nat} : Adr (aHBM_RGN_KIND r) 12 := adr_low (by decide) (by unfold aHBM_RGN_KIND; omega) (by unfold aHBM_RGN_KIND; omega)
theorem adr_HBM_RGN_RSV {r : Nat} : Adr (aHBM_RGN_RSV r) 12 := adr_low (by decide) (by unfold aHBM_RGN_RSV; omega) (by unfold aHBM_RGN_RSV; omega)
theorem adr_HBM_REQ_RES {q : Nat} : Adr (aHBM_REQ_RES q) 12 := adr_low (by decide) (by unfold aHBM_REQ_RES; omega) (by unfold aHBM_REQ_RES; omega)
theorem adr_HBM_REQ_BURST {q : Nat} : Adr (aHBM_REQ_BURST q) 12 := adr_low (by decide) (by unfold aHBM_REQ_BURST; omega) (by unfold aHBM_REQ_BURST; omega)
theorem adr_HBM_REQ_BW {q : Nat} : Adr (aHBM_REQ_BW q) 12 := adr_low (by decide) (by unfold aHBM_REQ_BW; omega) (by unfold aHBM_REQ_BW; omega)
theorem adr_HBM_REQ_LMAX {q : Nat} : Adr (aHBM_REQ_LMAX q) 12 := adr_low (by decide) (by unfold aHBM_REQ_LMAX; omega) (by unfold aHBM_REQ_LMAX; omega)
theorem adr_HBM_PC_DEPTH {k : Nat} : Adr (aHBM_PC_DEPTH k) 12 := adr_low (by decide) (by unfold aHBM_PC_DEPTH; omega) (by unfold aHBM_PC_DEPTH; omega)
theorem adr_HBM_PC_INORD {k : Nat} : Adr (aHBM_PC_INORD k) 12 := adr_low (by decide) (by unfold aHBM_PC_INORD; omega) (by unfold aHBM_PC_INORD; omega)
theorem adr_HBM_PC_HITS {k : Nat} : Adr (aHBM_PC_HITS k) 12 := adr_low (by decide) (by unfold aHBM_PC_HITS; omega) (by unfold aHBM_PC_HITS; omega)
theorem adr_LNK_STAT : Adr aLNK_STAT 13 := adr_low (by decide) (by unfold aLNK_STAT; omega) (by unfold aLNK_STAT; omega)
theorem adr_LNK_LAT : Adr aLNK_LAT 13 := adr_low (by decide) (by unfold aLNK_LAT; omega) (by unfold aLNK_LAT; omega)
theorem adr_LNK_STRM : Adr aLNK_STRM 13 := adr_low (by decide) (by unfold aLNK_STRM; omega) (by unfold aLNK_STRM; omega)
theorem adr_LP_CTL {p : Nat} : Adr (aLP_CTL p) 13 := adr_low (by decide) (by unfold aLP_CTL; omega) (by unfold aLP_CTL; omega)
theorem adr_LP_CFG {p : Nat} : Adr (aLP_CFG p) 13 := adr_low (by decide) (by unfold aLP_CFG; omega) (by unfold aLP_CFG; omega)
theorem adr_LP_PWR {p : Nat} : Adr (aLP_PWR p) 13 := adr_low (by decide) (by unfold aLP_PWR; omega) (by unfold aLP_PWR; omega)
theorem adr_LP_STAT {p : Nat} : Adr (aLP_STAT p) 13 := adr_low (by decide) (by unfold aLP_STAT; omega) (by unfold aLP_STAT; omega)
theorem adr_LP_CRD {p : Nat} : Adr (aLP_CRD p) 13 := adr_low (by decide) (by unfold aLP_CRD; omega) (by unfold aLP_CRD; omega)
theorem adr_LP_REPLAY {p : Nat} : Adr (aLP_REPLAY p) 13 := adr_low (by decide) (by unfold aLP_REPLAY; omega) (by unfold aLP_REPLAY; omega)
theorem adr_LP_CRCERR {p : Nat} : Adr (aLP_CRCERR p) 13 := adr_low (by decide) (by unfold aLP_CRCERR; omega) (by unfold aLP_CRCERR; omega)
theorem adr_LP_PROTO {p : Nat} : Adr (aLP_PROTO p) 13 := adr_low (by decide) (by unfold aLP_PROTO; omega) (by unfold aLP_PROTO; omega)
theorem adr_LP_RETRAIN {p : Nat} : Adr (aLP_RETRAIN p) 13 := adr_low (by decide) (by unfold aLP_RETRAIN; omega) (by unfold aLP_RETRAIN; omega)
theorem adr_LP_SESFAIL {p : Nat} : Adr (aLP_SESFAIL p) 13 := adr_low (by decide) (by unfold aLP_SESFAIL; omega) (by unfold aLP_SESFAIL; omega)
theorem adr_LC_STAT : Adr aLC_STAT 13 := adr_low (by decide) (by unfold aLC_STAT; omega) (by unfold aLC_STAT; omega)
theorem adr_LC_CORR : Adr aLC_CORR 13 := adr_low (by decide) (by unfold aLC_CORR; omega) (by unfold aLC_CORR; omega)
theorem adr_LC_LOST : Adr aLC_LOST 13 := adr_low (by decide) (by unfold aLC_LOST; omega) (by unfold aLC_LOST; omega)
theorem adr_LC_REPLAY : Adr aLC_REPLAY 13 := adr_low (by decide) (by unfold aLC_REPLAY; omega) (by unfold aLC_REPLAY; omega)
theorem adr_LR_CFG : Adr aLR_CFG 13 := adr_low (by decide) (by unfold aLR_CFG; omega) (by unfold aLR_CFG; omega)
theorem adr_LR_STAT : Adr aLR_STAT 13 := adr_low (by decide) (by unfold aLR_STAT; omega) (by unfold aLR_STAT; omega)
theorem adr_LR_PASS : Adr aLR_PASS 13 := adr_low (by decide) (by unfold aLR_PASS; omega) (by unfold aLR_PASS; omega)
theorem adr_LR_RLAT : Adr aLR_RLAT 13 := adr_low (by decide) (by unfold aLR_RLAT; omega) (by unfold aLR_RLAT; omega)
theorem adr_LR_CRCERR : Adr aLR_CRCERR 13 := adr_low (by decide) (by unfold aLR_CRCERR; omega) (by unfold aLR_CRCERR; omega)
theorem adr_TWN_CFG : Adr aTWN_CFG 14 := adr_low (by decide) (by unfold aTWN_CFG; omega) (by unfold aTWN_CFG; omega)
theorem adr_TWN_STAT : Adr aTWN_STAT 14 := adr_low (by decide) (by unfold aTWN_STAT; omega) (by unfold aTWN_STAT; omega)
theorem adr_TWN_CMD : Adr aTWN_CMD 14 := adr_low (by decide) (by unfold aTWN_CMD; omega) (by unfold aTWN_CMD; omega)
theorem adr_TWN_LAT : Adr aTWN_LAT 14 := adr_low (by decide) (by unfold aTWN_LAT; omega) (by unfold aTWN_LAT; omega)
theorem adr_TWN_COL : Adr aTWN_COL 14 := adr_low (by decide) (by unfold aTWN_COL; omega) (by unfold aTWN_COL; omega)
theorem adr_TWN_COLT : Adr aTWN_COLT 14 := adr_low (by decide) (by unfold aTWN_COLT; omega) (by unfold aTWN_COLT; omega)
theorem adr_TWN_DIVTICK : Adr aTWN_DIVTICK 14 := adr_low (by decide) (by unfold aTWN_DIVTICK; omega) (by unfold aTWN_DIVTICK; omega)
theorem adr_TWN_TICKS : Adr aTWN_TICKS 14 := adr_low (by decide) (by unfold aTWN_TICKS; omega) (by unfold aTWN_TICKS; omega)
theorem adr_TWN_JOIN : Adr aTWN_JOIN 14 := adr_low (by decide) (by unfold aTWN_JOIN; omega) (by unfold aTWN_JOIN; omega)
theorem adr_TWN_PTOLV : Adr aTWN_PTOLV 14 := adr_low (by decide) (by unfold aTWN_PTOLV; omega) (by unfold aTWN_PTOLV; omega)
theorem adr_TWN_PTOLI : Adr aTWN_PTOLI 14 := adr_low (by decide) (by unfold aTWN_PTOLI; omega) (by unfold aTWN_PTOLI; omega)
theorem adr_TWN_PN : Adr aTWN_PN 14 := adr_low (by decide) (by unfold aTWN_PN; omega) (by unfold aTWN_PN; omega)
theorem adr_TWN_FWLEAD : Adr aTWN_FWLEAD 14 := adr_low (by decide) (by unfold aTWN_FWLEAD; omega) (by unfold aTWN_FWLEAD; omega)
theorem adr_TWN_COLMASK {w : Nat} : Adr (aTWN_COLMASK w) 14 := adr_low (by decide) (by unfold aTWN_COLMASK; omega) (by unfold aTWN_COLMASK; omega)
theorem adr_TWN_BLMASK {w : Nat} : Adr (aTWN_BLMASK w) 14 := adr_low (by decide) (by unfold aTWN_BLMASK; omega) (by unfold aTWN_BLMASK; omega)
theorem adr_TWN_PLAUS {w : Nat} : Adr (aTWN_PLAUS w) 14 := adr_low (by decide) (by unfold aTWN_PLAUS; omega) (by unfold aTWN_PLAUS; omega)
theorem adr_TWN_PCNT : Adr aTWN_PCNT 14 := adr_low (by decide) (by unfold aTWN_PCNT; omega) (by unfold aTWN_PCNT; omega)
theorem adr_TWN_SHIPR : Adr aTWN_SHIPR 14 := adr_low (by decide) (by unfold aTWN_SHIPR; omega) (by unfold aTWN_SHIPR; omega)
theorem adr_CAL_CFG : Adr aCAL_CFG 15 := adr_low (by decide) (by unfold aCAL_CFG; omega) (by unfold aCAL_CFG; omega)
theorem adr_CAL_SLEW : Adr aCAL_SLEW 15 := adr_low (by decide) (by unfold aCAL_SLEW; omega) (by unfold aCAL_SLEW; omega)
theorem adr_CAL_FSV : Adr aCAL_FSV 15 := adr_low (by decide) (by unfold aCAL_FSV; omega) (by unfold aCAL_FSV; omega)
theorem adr_CAL_FSI : Adr aCAL_FSI 15 := adr_low (by decide) (by unfold aCAL_FSI; omega) (by unfold aCAL_FSI; omega)
theorem adr_CAL_REFCFG : Adr aCAL_REFCFG 15 := adr_low (by decide) (by unfold aCAL_REFCFG; omega) (by unfold aCAL_REFCFG; omega)
theorem adr_CAL_REFSTAT : Adr aCAL_REFSTAT 15 := adr_low (by decide) (by unfold aCAL_REFSTAT; omega) (by unfold aCAL_REFSTAT; omega)
theorem adr_CAL_RESMAX : Adr aCAL_RESMAX 15 := adr_low (by decide) (by unfold aCAL_RESMAX; omega) (by unfold aCAL_RESMAX; omega)
theorem adr_CAL_CMD : Adr aCAL_CMD 15 := adr_low (by decide) (by unfold aCAL_CMD; omega) (by unfold aCAL_CMD; omega)
theorem adr_CAL_LAT : Adr aCAL_LAT 15 := adr_low (by decide) (by unfold aCAL_LAT; omega) (by unfold aCAL_LAT; omega)
theorem adr_CAL_REC : Adr aCAL_REC 15 := adr_low (by decide) (by unfold aCAL_REC; omega) (by unfold aCAL_REC; omega)
theorem adr_CALQ_CMD {q : Nat} : Adr (aCALQ_CMD q) 15 := adr_low (by decide) (by unfold aCALQ_CMD; omega) (by unfold aCALQ_CMD; omega)
theorem adr_CALQ_STAT {q : Nat} : Adr (aCALQ_STAT q) 15 := adr_low (by decide) (by unfold aCALQ_STAT; omega) (by unfold aCALQ_STAT; omega)
theorem adr_CALQ_LVL {q k : Nat} : Adr (aCALQ_LVL q k) 15 := adr_low (by decide) (by unfold aCALQ_LVL; omega) (by unfold aCALQ_LVL; omega)
theorem adr_CALQ_RSH {q : Nat} : Adr (aCALQ_RSH q) 15 := adr_low (by decide) (by unfold aCALQ_RSH; omega) (by unfold aCALQ_RSH; omega)
theorem adr_CALQ_F0 {q : Nat} : Adr (aCALQ_F0 q) 15 := adr_low (by decide) (by unfold aCALQ_F0; omega) (by unfold aCALQ_F0; omega)
theorem adr_CALQ_C0 {q : Nat} : Adr (aCALQ_C0 q) 15 := adr_low (by decide) (by unfold aCALQ_C0; omega) (by unfold aCALQ_C0; omega)
theorem adr_CALQ_C1 {q : Nat} : Adr (aCALQ_C1 q) 15 := adr_low (by decide) (by unfold aCALQ_C1; omega) (by unfold aCALQ_C1; omega)
theorem adr_CALQ_C2 {q : Nat} : Adr (aCALQ_C2 q) 15 := adr_low (by decide) (by unfold aCALQ_C2; omega) (by unfold aCALQ_C2; omega)
theorem adr_CALQ_RESID {q : Nat} : Adr (aCALQ_RESID q) 15 := adr_low (by decide) (by unfold aCALQ_RESID; omega) (by unfold aCALQ_RESID; omega)
theorem adr_MGT_STAT : Adr aMGT_STAT 16 := adr_low (by decide) (by unfold aMGT_STAT; omega) (by unfold aMGT_STAT; omega)
theorem adr_MGT_LAT : Adr aMGT_LAT 16 := adr_low (by decide) (by unfold aMGT_LAT; omega) (by unfold aMGT_LAT; omega)
theorem adr_MGT_WARNLAT {w : Nat} : Adr (aMGT_WARNLAT w) 16 := adr_low (by decide) (by unfold aMGT_WARNLAT; omega) (by unfold aMGT_WARNLAT; omega)
theorem adr_MGT_FW : Adr aMGT_FW 16 := adr_low (by decide) (by unfold aMGT_FW; omega) (by unfold aMGT_FW; omega)
theorem adr_MGT_FWVER {b : Nat} : Adr (aMGT_FWVER b) 16 := adr_low (by decide) (by unfold aMGT_FWVER; omega) (by unfold aMGT_FWVER; omega)
theorem adr_MGT_CONFTO : Adr aMGT_CONFTO 16 := adr_low (by decide) (by unfold aMGT_CONFTO; omega) (by unfold aMGT_CONFTO; omega)
theorem adr_MGT_LOGNEXT : Adr aMGT_LOGNEXT 16 := adr_low (by decide) (by unfold aMGT_LOGNEXT; omega) (by unfold aMGT_LOGNEXT; omega)
theorem adr_MGT_LOGOLD : Adr aMGT_LOGOLD 16 := adr_low (by decide) (by unfold aMGT_LOGOLD; omega) (by unfold aMGT_LOGOLD; omega)
theorem adr_MGT_WDOG : Adr aMGT_WDOG 16 := adr_low (by decide) (by unfold aMGT_WDOG; omega) (by unfold aMGT_WDOG; omega)
theorem adr_MGT_SENS {n : Nat} : Adr (aMGT_SENS n) 16 := adr_low (by decide) (by unfold aMGT_SENS; omega) (by unfold aMGT_SENS; omega)
theorem adr_MGT_RPWR {r : Nat} : Adr (aMGT_RPWR r) 16 := adr_low (by decide) (by unfold aMGT_RPWR; omega) (by unfold aMGT_RPWR; omega)
theorem adr_MGT_WARN {n : Nat} : Adr (aMGT_WARN n) 16 := adr_low (by decide) (by unfold aMGT_WARN; omega) (by unfold aMGT_WARN; omega)
theorem adr_STR_CMD : Adr aSTR_CMD 17 := adr_low (by decide) (by unfold aSTR_CMD; omega) (by unfold aSTR_CMD; omega)
theorem adr_STR_ADDR : Adr aSTR_ADDR 17 := adr_low (by decide) (by unfold aSTR_ADDR; omega) (by unfold aSTR_ADDR; omega)
theorem adr_STR_STAT : Adr aSTR_STAT 17 := adr_low (by decide) (by unfold aSTR_STAT; omega) (by unfold aSTR_STAT; omega)
theorem adr_STR_LAT : Adr aSTR_LAT 17 := adr_low (by decide) (by unfold aSTR_LAT; omega) (by unfold aSTR_LAT; omega)
theorem adr_STR_FOFF : Adr aSTR_FOFF 17 := adr_low (by decide) (by unfold aSTR_FOFF; omega) (by unfold aSTR_FOFF; omega)
theorem adr_STR_SERIAL : Adr aSTR_SERIAL 17 := adr_low (by decide) (by unfold aSTR_SERIAL; omega) (by unfold aSTR_SERIAL; omega)
theorem adr_STR_DIG : Adr aSTR_DIG 17 := adr_low (by decide) (by unfold aSTR_DIG; omega) (by unfold aSTR_DIG; omega)
theorem adr_STR_TDIG : Adr aSTR_TDIG 17 := adr_low (by decide) (by unfold aSTR_TDIG; omega) (by unfold aSTR_TDIG; omega)
theorem adr_STR_LOADS : Adr aSTR_LOADS 17 := adr_low (by decide) (by unfold aSTR_LOADS; omega) (by unfold aSTR_LOADS; omega)
theorem adr_SEC_STAT : Adr aSEC_STAT 18 := adr_low (by decide) (by unfold aSEC_STAT; omega) (by unfold aSEC_STAT; omega)
theorem adr_SEC_LAT : Adr aSEC_LAT 18 := adr_low (by decide) (by unfold aSEC_LAT; omega) (by unfold aSEC_LAT; omega)
theorem adr_SEC_FWVER : Adr aSEC_FWVER 18 := adr_low (by decide) (by unfold aSEC_FWVER; omega) (by unfold aSEC_FWVER; omega)
theorem adr_SEC_FLOOR {f : Nat} : Adr (aSEC_FLOOR f) 18 := adr_low (by decide) (by unfold aSEC_FLOOR; omega) (by unfold aSEC_FLOOR; omega)
theorem adr_SEC_SLOTS : Adr aSEC_SLOTS 18 := adr_low (by decide) (by unfold aSEC_SLOTS; omega) (by unfold aSEC_SLOTS; omega)
theorem adr_SEC_HSS : Adr aSEC_HSS 18 := adr_low (by decide) (by unfold aSEC_HSS; omega) (by unfold aSEC_HSS; omega)
theorem adr_SEC_HSSE : Adr aSEC_HSSE 18 := adr_low (by decide) (by unfold aSEC_HSSE; omega) (by unfold aSEC_HSSE; omega)
theorem adr_SEC_SEALQ : Adr aSEC_SEALQ 18 := adr_low (by decide) (by unfold aSEC_SEALQ; omega) (by unfold aSEC_SEALQ; omega)
theorem adr_SEC_SESS {p : Nat} : Adr (aSEC_SESS p) 18 := adr_low (by decide) (by unfold aSEC_SESS; omega) (by unfold aSEC_SESS; omega)
theorem adr_ISL_STAT {n : Nat} : Adr (aISL_STAT n) 64 := adr_isl (by unfold aISL_STAT; omega) (by unfold aISL_STAT; omega)
theorem adr_ISL_LAT {n : Nat} : Adr (aISL_LAT n) 64 := adr_isl (by unfold aISL_LAT; omega) (by unfold aISL_LAT; omega)
theorem adr_ISL_EREJ {n : Nat} : Adr (aISL_EREJ n) 64 := adr_isl (by unfold aISL_EREJ; omega) (by unfold aISL_EREJ; omega)
theorem adr_PAT_CFG {n : Nat} : Adr (aPAT_CFG n) 64 := adr_isl (by unfold aPAT_CFG; omega) (by unfold aPAT_CFG; omega)
theorem adr_PAT_CODE {n : Nat} : Adr (aPAT_CODE n) 64 := adr_isl (by unfold aPAT_CODE; omega) (by unfold aPAT_CODE; omega)
theorem adr_PAT_CMD {n : Nat} : Adr (aPAT_CMD n) 64 := adr_isl (by unfold aPAT_CMD; omega) (by unfold aPAT_CMD; omega)
theorem adr_DLL_CFG {n : Nat} : Adr (aDLL_CFG n) 64 := adr_isl (by unfold aDLL_CFG; omega) (by unfold aDLL_CFG; omega)
theorem adr_DLL_STAT {n : Nat} : Adr (aDLL_STAT n) 64 := adr_isl (by unfold aDLL_STAT; omega) (by unfold aDLL_STAT; omega)
theorem adr_DLL_CMD {n : Nat} : Adr (aDLL_CMD n) 64 := adr_isl (by unfold aDLL_CMD; omega) (by unfold aDLL_CMD; omega)
theorem adr_DLL_LOSS {n : Nat} : Adr (aDLL_LOSS n) 64 := adr_isl (by unfold aDLL_LOSS; omega) (by unfold aDLL_LOSS; omega)
theorem adr_MON_LAT {n : Nat} : Adr (aMON_LAT n) 64 := adr_isl (by unfold aMON_LAT; omega) (by unfold aMON_LAT; omega)
theorem adr_MON_UNS {n : Nat} : Adr (aMON_UNS n) 64 := adr_isl (by unfold aMON_UNS; omega) (by unfold aMON_UNS; omega)
theorem adr_MON_CAUSE {n : Nat} : Adr (aMON_CAUSE n) 64 := adr_isl (by unfold aMON_CAUSE; omega) (by unfold aMON_CAUSE; omega)
theorem adr_CH_CTL {n c : Nat} : Adr (aCH_CTL n c) 64 := adr_isl (by unfold aCH_CTL; omega) (by unfold aCH_CTL; omega)
theorem adr_CH_MODE {n c : Nat} : Adr (aCH_MODE n c) 64 := adr_isl (by unfold aCH_MODE; omega) (by unfold aCH_MODE; omega)
theorem adr_CH_PERIOD {n c : Nat} : Adr (aCH_PERIOD n c) 64 := adr_isl (by unfold aCH_PERIOD; omega) (by unfold aCH_PERIOD; omega)
theorem adr_CH_PHASE {n c : Nat} : Adr (aCH_PHASE n c) 64 := adr_isl (by unfold aCH_PHASE; omega) (by unfold aCH_PHASE; omega)
theorem adr_CH_DT {n c : Nat} : Adr (aCH_DT n c) 64 := adr_isl (by unfold aCH_DT; omega) (by unfold aCH_DT; omega)
theorem adr_CH_STAT {n c : Nat} : Adr (aCH_STAT n c) 64 := adr_isl (by unfold aCH_STAT; omega) (by unfold aCH_STAT; omega)
theorem adr_CH_LATE {n c : Nat} : Adr (aCH_LATE n c) 64 := adr_isl (by unfold aCH_LATE; omega) (by unfold aCH_LATE; omega)
theorem adr_CH_INH {n c : Nat} : Adr (aCH_INH n c) 64 := adr_isl (by unfold aCH_INH; omega) (by unfold aCH_INH; omega)
theorem adr_CH_DTFLOOR {n c : Nat} : Adr (aCH_DTFLOOR n c) 64 := adr_isl (by unfold aCH_DTFLOOR; omega) (by unfold aCH_DTFLOOR; omega)
theorem adr_PIN_CFG {n p : Nat} : Adr (aPIN_CFG n p) 64 := adr_isl (by unfold aPIN_CFG; omega) (by unfold aPIN_CFG; omega)
theorem adr_PIN_LVL {n p : Nat} : Adr (aPIN_LVL n p) 64 := adr_isl (by unfold aPIN_LVL; omega) (by unfold aPIN_LVL; omega)
theorem adr_PIN_STAT {n p : Nat} : Adr (aPIN_STAT n p) 64 := adr_isl (by unfold aPIN_STAT; omega) (by unfold aPIN_STAT; omega)
theorem adr_CMP_CFG {n p : Nat} : Adr (aCMP_CFG n p) 64 := adr_isl (by unfold aCMP_CFG; omega) (by unfold aCMP_CFG; omega)
theorem adr_STP_CFG {n p : Nat} : Adr (aSTP_CFG n p) 64 := adr_isl (by unfold aSTP_CFG; omega) (by unfold aSTP_CFG; omega)
theorem adr_STP_STAT {n p : Nat} : Adr (aSTP_STAT n p) 64 := adr_isl (by unfold aSTP_STAT; omega) (by unfold aSTP_STAT; omega)
theorem adr_STP_WS {n p : Nat} : Adr (aSTP_WS n p) 64 := adr_isl (by unfold aSTP_WS; omega) (by unfold aSTP_WS; omega)
theorem adr_STP_WE {n p : Nat} : Adr (aSTP_WE n p) 64 := adr_isl (by unfold aSTP_WE; omega) (by unfold aSTP_WE; omega)
theorem adr_STP_WAS {n p : Nat} : Adr (aSTP_WAS n p) 64 := adr_isl (by unfold aSTP_WAS; omega) (by unfold aSTP_WAS; omega)
theorem adr_STP_WAE {n p : Nat} : Adr (aSTP_WAE n p) 64 := adr_isl (by unfold aSTP_WAE; omega) (by unfold aSTP_WAE; omega)
theorem adr_STP_WDISC {n p : Nat} : Adr (aSTP_WDISC n p) 64 := adr_isl (by unfold aSTP_WDISC; omega) (by unfold aSTP_WDISC; omega)
theorem adr_STP_LOST {n p : Nat} : Adr (aSTP_LOST n p) 64 := adr_isl (by unfold aSTP_LOST; omega) (by unfold aSTP_LOST; omega)
theorem adr_MU_BIND {n u : Nat} : Adr (aMU_BIND n u) 64 := adr_isl (by unfold aMU_BIND; omega) (by unfold aMU_BIND; omega)
theorem adr_MU_GATE {n u : Nat} : Adr (aMU_GATE n u) 64 := adr_isl (by unfold aMU_GATE; omega) (by unfold aMU_GATE; omega)
theorem adr_MU_HOP {n u : Nat} : Adr (aMU_HOP n u) 64 := adr_isl (by unfold aMU_HOP; omega) (by unfold aMU_HOP; omega)
theorem adr_MU_GPH {n u : Nat} : Adr (aMU_GPH n u) 64 := adr_isl (by unfold aMU_GPH; omega) (by unfold aMU_GPH; omega)
theorem adr_MU_CTL {n u : Nat} : Adr (aMU_CTL n u) 64 := adr_isl (by unfold aMU_CTL; omega) (by unfold aMU_CTL; omega)
theorem adr_MU_CFG {n u : Nat} : Adr (aMU_CFG n u) 64 := adr_isl (by unfold aMU_CFG; omega) (by unfold aMU_CFG; omega)
theorem adr_MU_F0 {n u : Nat} : Adr (aMU_F0 n u) 64 := adr_isl (by unfold aMU_F0; omega) (by unfold aMU_F0; omega)
theorem adr_MU_C0 {n u : Nat} : Adr (aMU_C0 n u) 64 := adr_isl (by unfold aMU_C0; omega) (by unfold aMU_C0; omega)
theorem adr_MU_C1 {n u : Nat} : Adr (aMU_C1 n u) 64 := adr_isl (by unfold aMU_C1; omega) (by unfold aMU_C1; omega)
theorem adr_MU_C2 {n u : Nat} : Adr (aMU_C2 n u) 64 := adr_isl (by unfold aMU_C2; omega) (by unfold aMU_C2; omega)
theorem adr_MU_STAT {n u : Nat} : Adr (aMU_STAT n u) 64 := adr_isl (by unfold aMU_STAT; omega) (by unfold aMU_STAT; omega)
theorem adr_MU_LAT {n u : Nat} : Adr (aMU_LAT n u) 64 := adr_isl (by unfold aMU_LAT; omega) (by unfold aMU_LAT; omega)
theorem adr_MU_FRQ {n u : Nat} : Adr (aMU_FRQ n u) 64 := adr_isl (by unfold aMU_FRQ; omega) (by unfold aMU_FRQ; omega)
theorem adr_MU_VAL {n u : Nat} : Adr (aMU_VAL n u) 64 := adr_isl (by unfold aMU_VAL; omega) (by unfold aMU_VAL; omega)
theorem adr_MU_RCNT {n u : Nat} : Adr (aMU_RCNT n u) 64 := adr_isl (by unfold aMU_RCNT; omega) (by unfold aMU_RCNT; omega)
theorem adr_MU_SCNT {n u : Nat} : Adr (aMU_SCNT n u) 64 := adr_isl (by unfold aMU_SCNT; omega) (by unfold aMU_SCNT; omega)
theorem adr_MU_N {n u : Nat} : Adr (aMU_N n u) 64 := adr_isl (by unfold aMU_N; omega) (by unfold aMU_N; omega)
theorem adr_MU_RSTAT {n u : Nat} : Adr (aMU_RSTAT n u) 64 := adr_isl (by unfold aMU_RSTAT; omega) (by unfold aMU_RSTAT; omega)
theorem adr_TAC_CFG {n k : Nat} : Adr (aTAC_CFG n k) 64 := adr_isl (by unfold aTAC_CFG; omega) (by unfold aTAC_CFG; omega)
theorem adr_TAC_CMD {n k : Nat} : Adr (aTAC_CMD n k) 64 := adr_isl (by unfold aTAC_CMD; omega) (by unfold aTAC_CMD; omega)
theorem adr_TAC_STAT {n k : Nat} : Adr (aTAC_STAT n k) 64 := adr_isl (by unfold aTAC_STAT; omega) (by unfold aTAC_STAT; omega)
theorem adr_TAC_GAIN {n k : Nat} : Adr (aTAC_GAIN n k) 64 := adr_isl (by unfold aTAC_GAIN; omega) (by unfold aTAC_GAIN; omega)
theorem adr_EDGE {n p s e : Nat} : Adr (aEDGE n p s e) 64 := adr_isl (by unfold aEDGE; omega) (by unfold aEDGE; omega)
theorem adr_MON_CTL {n p : Nat} : Adr (aMON_CTL n p) 64 := adr_isl (by unfold aMON_CTL; omega) (by unfold aMON_CTL; omega)
theorem adr_MON_CFG {n p : Nat} : Adr (aMON_CFG n p) 64 := adr_isl (by unfold aMON_CFG; omega) (by unfold aMON_CFG; omega)
theorem adr_MON_TDIV {n p : Nat} : Adr (aMON_TDIV n p) 64 := adr_isl (by unfold aMON_TDIV; omega) (by unfold aMON_TDIV; omega)
theorem adr_MON_BLK {n p : Nat} : Adr (aMON_BLK n p) 64 := adr_isl (by unfold aMON_BLK; omega) (by unfold aMON_BLK; omega)
theorem adr_MON_THR {n p : Nat} : Adr (aMON_THR n p) 64 := adr_isl (by unfold aMON_THR; omega) (by unfold aMON_THR; omega)
theorem adr_MON_STAT {n p : Nat} : Adr (aMON_STAT n p) 64 := adr_isl (by unfold aMON_STAT; omega) (by unfold aMON_STAT; omega)
theorem adr_MON_BIND {n p : Nat} : Adr (aMON_BIND n p) 64 := adr_isl (by unfold aMON_BIND; omega) (by unfold aMON_BIND; omega)
theorem adr_MON_TRIPS {n p : Nat} : Adr (aMON_TRIPS n p) 64 := adr_isl (by unfold aMON_TRIPS; omega) (by unfold aMON_TRIPS; omega)

end Sys2Proof.Machine
end

