-- ==== Sys2Proof/Laws/Ops.lean ====
section
/-! SUPPORT. What each operation of Machine/Ops.lean may change (Laws/Frame.lean says how to read it). -/
namespace Sys2Proof.Machine

set_option Elab.async false

theorem State.mark_does {s a w} : Does [.fresh] [] s (State.mark s a w) := by
  unfold State.mark
  refine Does.put_fresh (by decide +kernel) ?_
  exact Does.refl

theorem State.fordSeen_does {s dst latency slack} : Does [.fresh] [3] s (State.fordSeen s dst latency slack) := by
  unfold State.fordSeen
  extract_lets -underBinder -merge -useContext x1 x2
  refine Does.lets x1 ?_ (fun hx1 => ?_)
  · unfold x1
    refine Does.setReg adr_BUS_LATMAX (by decide +kernel) ?_
    exact Does.refl
  refine Does.lets x2 ?_ (fun hx2 => ?_)
  · unfold x2
    refine Does.setReg adr_BUS_SLACK (by decide +kernel) ?_
    exact hx1
  refine Does.ite (fun _ => ?_) (fun _ => ?_)
  · refine Does.ite (fun _ => ?_) (fun _ => ?_)
    · refine Does.latch adr_BUS_LAT (by decide +kernel) ?_
      exact hx2
    · exact hx2
  · exact Does.refl

theorem State.setLink_does {s l x} : Does [.links] [] s (State.setLink s l x) := by
  unfold State.setLink
  refine Does.put_links (by decide +kernel) ?_
  exact Does.refl

theorem State.sentOn_does {s l} : Does [.links] [] s (State.sentOn s l) := by
  unfold State.sentOn
  extract_lets -underBinder -merge -useContext x1
  refine Does.call State.setLink_does (by decide +kernel) ?_
  exact Does.refl

theorem State.hold_does {s src due a} : Does [.agenda] [] s (State.hold s src due a) := by
  unfold State.hold
  refine Does.put_agenda (by decide +kernel) ?_
  exact Does.refl

theorem State.raise_does {s fs isl} : Does [.agenda] [] s (State.raise s fs isl) := by
  unfold State.raise
  refine Does.call State.hold_does (by decide +kernel) ?_
  exact Does.refl

theorem State.crossed_does {s dst due} : Does [.free, .fresh] [3] s (State.crossed s dst due) := by
  unfold State.crossed
  extract_lets -underBinder -merge -useContext x1
  refine Does.call State.fordSeen_does (by decide +kernel) ?_
  refine Does.put_free (by decide +kernel) ?_
  exact Does.refl

theorem State.pushOn_does {s l vc o} : Does [.out, .links] [] s (State.pushOn s l vc o) := by
  unfold State.pushOn
  extract_lets -underBinder -merge -useContext x1 x2 x3
  refine Does.lets x3 ?_ (fun hx3 => ?_)
  · unfold x3
    refine Does.call State.setLink_does (by decide +kernel) ?_
    exact Does.refl
  refine Does.put_out (by decide +kernel) ?_
  exact hx3

theorem State.late_does {s kind src dst due arr} : Does [.agenda, .fresh] [1] s (State.late s kind src dst due arr) := by
  unfold State.late
  refine Does.call State.raise_does (by decide +kernel) ?_
  refine Does.bump adr_TBS_LATE_CNT (by decide +kernel) ?_
  refine Does.setWide adr_TBS_LATE_ARR (by decide +kernel) ?_
  refine Does.setWide adr_TBS_LATE_DUE (by decide +kernel) ?_
  refine Does.setReg adr_TBS_LATE_SRC (by decide +kernel) ?_
  exact Does.refl

theorem State.sendFrame_does {s l vc o} : Does [.out, .links] [] s (State.sendFrame s l vc o) := by
  unfold State.sendFrame
  extract_lets -underBinder -merge -useContext x1
  refine Does.ite (fun _ => ?_) (fun _ => ?_)
  · refine Does.call State.pushOn_does (by decide +kernel) ?_
    exact Does.refl
  · refine Does.call State.setLink_does (by decide +kernel) ?_
    exact Does.refl

theorem State.logEntry_does {s summary typ code payload} : Does [.mgt] [16] s (State.logEntry s summary typ code payload) := by
  unfold State.logEntry
  extract_lets -underBinder -merge -useContext x1 x2 x3 x4 x5 x6 x7 x8 x9
  refine Does.lets x5 ?_ (fun hx5 => ?_)
  · unfold x5
    refine Does.setWide adr_MGT_LOGOLD (by decide +kernel) ?_
    exact Does.refl
  refine Does.lets x7 ?_ (fun hx7 => ?_)
  · unfold x7
    refine Does.ite (fun _ => ?_) (fun _ => ?_)
    · exact Does.refl
    · refine Does.put_mgt (by decide +kernel) ?_
      exact hx5
  refine Does.lets x8 ?_ (fun hx8 => ?_)
  · unfold x8
    refine Does.setWide adr_MGT_LOGNEXT (by decide +kernel) ?_
    exact hx7
  refine Does.put_mgt (by decide +kernel) ?_
  exact hx8

theorem State.lateInternal_does {s kind src dst due arr} : Does [.agenda, .fresh] [1] s (State.lateInternal s kind src dst
      due arr) := by
  unfold State.lateInternal
  refine Does.latch adr_TBS_LATE (by decide +kernel) ?_
  refine Does.call State.late_does (by decide +kernel) ?_
  exact Does.refl

theorem State.issue_does {s src dst due kind a} : Does [.agenda, .free, .fresh] [1, 3] s (State.issue s src dst due kind a) := by
  unfold State.issue
  extract_lets -underBinder -merge -useContext x1 x2
  refine Does.lets x2 ?_ (fun hx2 => ?_)
  · unfold x2
    refine Does.put_free (by decide +kernel) ?_
    exact Does.refl
  refine Does.ite (fun _ => ?_) (fun _ => ?_)
  · refine Does.call State.hold_does (by decide +kernel) ?_
    refine Does.call State.fordSeen_does (by decide +kernel) ?_
    exact hx2
  · refine Does.ite (fun _ => ?_) (fun _ => ?_)
    · refine Does.call State.hold_does (by decide +kernel) ?_
      refine Does.call State.fordSeen_does (by decide +kernel) ?_
      exact hx2
    · refine Does.call State.lateInternal_does (by decide +kernel) ?_
      exact hx2

theorem State.postAt_does {s src ch set clear due} : Does [.agenda, .free, .fresh] [1, 3] s (State.postAt s src ch set clear
      due) := by
  unfold State.postAt
  refine Does.call State.issue_does (by decide +kernel) ?_
  exact Does.refl

theorem State.evtTo_does {s p kind code} : Does [.out, .links] [] s (State.evtTo s p kind code) := by
  unfold State.evtTo
  refine Does.call State.sendFrame_does (by decide +kernel) ?_
  exact Does.refl

/-- The block of BLK_REJ of an address is the address's own. -/
theorem rejBlock_adr {a b o : Nat} (ha : Adr a b) (ho : o < 0x100000) : regBlk (rejBlock a * 0x100000 + o) = b := by
  have := ha.here
  unfold regBlk at this
  simp only [rejBlock, ha.ex, if_true, regBlk]
  omega

theorem adr_0 : Adr 0 0 := adr_low (by decide) (by omega) (by omega)

theorem State.rejLatch_does {s k a b} (ha : Adr a b) : Does [.fresh] [b] s (State.rejLatch s k a) :=
  Does.mark (by decide) (Does.setReg_in (.inr (by rw [rejBlock_adr ha (by omega)]; simp)) Does.refl)

theorem State.rejLatch_any {s k a} : Does [.regs, .fresh] [] s (State.rejLatch s k a) :=
  Does.mark (by decide) (Does.setReg_any (by decide) Does.refl)

theorem State.reject_does {s by_ k a b} (ha : Adr a b) : Does [.agenda, .fresh] [b] s (State.reject s by_ k a) := by
  unfold State.reject
  extract_lets s1
  have h : Does [.agenda, .fresh] [b] s s1 :=
    Does.setReg_in (.inr (by rw [rejBlock_adr ha (by omega)]; simp)) ((State.rejLatch_does ha).mono (by simp [within]))
  clear_value s1
  split
  · exact h
  · exact State.raise_does.call (by simp [within]) h

theorem State.reject_any {s by_ k a} : Does [.regs, .agenda, .fresh] [] s (State.reject s by_ k a) := by
  unfold State.reject
  extract_lets s1
  have h : Does [.regs, .agenda, .fresh] [] s s1 :=
    Does.setReg_any (by decide) (State.rejLatch_any.mono (by decide))
  clear_value s1
  split
  · exact h
  · exact State.raise_does.call (by decide) h

theorem State.rejectVal_does {s by_ a b} (ha : Adr a b) : Does [.agenda, .fresh] [b] s (State.rejectVal s by_ a) :=
  State.reject_does ha

theorem State.rejectVal_any {s by_ a} : Does [.regs, .agenda, .fresh] [] s (State.rejectVal s by_ a) := State.reject_any

theorem State.evt_does {s kind code} : Does [.out, .links] [] s (State.evt s kind code) := by
  unfold State.evt
  extract_lets -underBinder -merge -useContext x1
  refine Does.lets x1 ?_ (fun hx1 => ?_)
  · unfold x1
    refine Does.ite (fun _ => ?_) (fun _ => ?_)
    · refine Does.call State.evtTo_does (by decide +kernel) ?_
      exact Does.refl
    · exact Does.refl
  refine Does.ite (fun _ => ?_) (fun _ => ?_)
  · refine Does.call State.evtTo_does (by decide +kernel) ?_
    exact hx1
  · exact hx1

theorem State.causeOff_does {s fs inst} : Does [.causes] [] s (State.causeOff s fs inst) := by
  unfold State.causeOff
  refine Does.put_causes (by decide +kernel) ?_
  exact Does.refl

theorem State.tickItem_does {s it} : Does [.twn] [] s (State.tickItem s it) := by
  unfold State.tickItem
  extract_lets -underBinder -merge -useContext x1
  refine Does.ite (fun _ => ?_) (fun _ => ?_)
  · refine Does.put_twn (by decide +kernel) ?_
    exact Does.refl
  · exact Does.refl

theorem State.post_does {s src ch set} : Does [.agenda, .free, .fresh] [1, 3] s (State.post s src ch set) := by
  unfold State.post
  refine Does.call State.postAt_does (by decide +kernel) ?_
  exact Does.refl

theorem State.issueCmd_does {s src dst due i} : Does [.agenda, .free, .fresh] [1, 3] s (State.issueCmd s src dst due i) := by
  unfold State.issueCmd
  refine Does.call State.issue_does (by decide +kernel) ?_
  exact Does.refl

theorem State.causeOn_does {s fs inst} : Does [.causes] [] s (State.causeOn s fs inst) := by
  unfold State.causeOn
  refine Does.ite (fun _ => ?_) (fun _ => ?_)
  · exact Does.refl
  · refine Does.put_causes (by decide +kernel) ?_
    exact Does.refl

theorem State.draw_does {s} : Does2 [.free] [] s (State.draw s) := by
  unfold State.draw
  refine Does2.pair ?_
  refine Does.put_free (by decide +kernel) ?_
  exact Does.refl

theorem State.log_does {s typ code payload} : Does [.mgt] [16] s (State.log s typ code payload) := by
  unfold State.log
  refine Does.call State.logEntry_does (by decide +kernel) ?_
  exact Does.refl

theorem State.emit_does {s o} : Does [.out] [] s (State.emit s o) := by
  unfold State.emit
  refine Does.put_out (by decide +kernel) ?_
  exact Does.refl

end Sys2Proof.Machine
end

