-- ==== Sys2Proof/Laws/Flags.lean ====
section
/-! SUPPORT. What each operation of Machine/Flags.lean may change (Laws/Frame.lean says how to read it). -/
namespace Sys2Proof.Machine

set_option Elab.async false

theorem State.setTask_does {s n t} : Does [.sram, .tasks] [] s (State.setTask s n t) := by
  unfold State.setTask
  extract_lets -underBinder -merge -useContext x1
  refine Does.lets x1 ?_ (fun hx1 => ?_)
  · unfold x1
    refine Does.put_tasks (by decide +kernel) ?_
    exact Does.refl
  split
  · refine Does.put_sram (by decide +kernel) (fun h => Memory.wf_writeBytes _ _ _ h) ?_
    exact hx1
  · exact hx1

theorem State.flagTask_does {s n set clear} : Does [.sram, .tasks] [] s (State.flagTask s n set clear) := by
  unfold State.flagTask
  extract_lets -underBinder -merge -useContext x1
  refine Does.call State.setTask_does (by decide +kernel) ?_
  exact Does.refl

end Sys2Proof.Machine
end

