-- ==== Sys2Proof/Laws/HbmQueue.lean ====
section
/-! SUPPORT. What each operation of Machine/HbmQueue.lean may change (Laws/Frame.lean says how to read it). -/
namespace Sys2Proof.Machine

set_option Elab.async false

theorem State.setHbmPc_does {s k x} : Does [.hbm] [] s (State.setHbmPc s k x) := by
  unfold State.setHbmPc
  extract_lets -underBinder -merge -useContext x1
  refine Does.put_hbm (by decide +kernel) ?_
  exact Does.refl

theorem State.judgeOrder_does {s k} : Does [.fresh, .hbm] [12] s (State.judgeOrder s k) := by
  unfold State.judgeOrder
  extract_lets -underBinder -merge -useContext x1 x2 x3
  refine Does.lets x3 ?_ (fun hx3 => ?_)
  · unfold x3
    refine Does.call State.setHbmPc_does (by decide +kernel) ?_
    exact Does.refl
  refine Does.ite (fun _ => ?_) (fun _ => ?_)
  · exact Does.refl
  · refine Does.ite (fun _ => ?_) (fun _ => ?_)
    · refine Does.bump adr_HBM_PC_INORD (by decide +kernel) ?_
      exact hx3
    · exact hx3

theorem State.hbmRequest_does {s requester a write} : Does [.fresh, .hbm] [12] s (State.hbmRequest s requester a write) := by
  unfold State.hbmRequest
  split
  · exact Does.refl
  · extract_lets -underBinder -merge -useContext x1 x2 x3
    refine Does.call State.judgeOrder_does (by decide +kernel) ?_
    refine Does.put_hbm (by decide +kernel) ?_
    exact Does.refl

theorem State.hbmRequests_does {s requester write lines} : Does [.fresh, .hbm] [12] s (State.hbmRequests s requester write
      lines) := by
  unfold State.hbmRequests
  refine Does.foldl ?_ ?_
  · intro y1 y2
    beta_reduce
    refine Does.call State.hbmRequest_does (by decide +kernel) ?_
    exact Does.refl
  · exact Does.refl

theorem State.hbmFlush_does {s} : Does [.hbmMem, .hbm] [] s (State.hbmFlush s) := by
  unfold State.hbmFlush
  extract_lets -underBinder -merge -useContext x1 x2
  refine Does.lets x1 ?_ (fun hx1 => ?_)
  · unfold x1
    refine Does.foldl ?_ ?_
    · intro y3 y4
      beta_reduce
      refine Does.put_hbmMem (by decide +kernel) (fun h => Memory.wf_writeBytes _ _ _ h) ?_
      exact Does.refl
    · exact Does.refl
  refine Does.put_hbm (by decide +kernel) ?_
  exact hx1

theorem State.hbmUnhold_does {s} : Does [.fresh, .hbm] [12] s (State.hbmUnhold s) := by
  unfold State.hbmUnhold
  extract_lets -underBinder -merge -useContext x1 x2
  refine Does.lets x2 ?_ (fun hx2 => ?_)
  · unfold x2
    refine Does.put_hbm (by decide +kernel) ?_
    exact Does.refl
  refine Does.foldl ?_ ?_
  · intro y3 y4
    refine Does.call State.judgeOrder_does (by decide +kernel) ?_
    exact Does.refl
  · exact hx2

theorem State.hbmServe_does {s r} : Does [.fresh, .hbm] [12] s (State.hbmServe s r) := by
  unfold State.hbmServe
  extract_lets -underBinder -merge -useContext x1 x2 x3 x4 x5 x6 x7
  refine Does.lets x2 ?_ (fun hx2 => ?_)
  · unfold x2
    refine Does.ite (fun _ => ?_) (fun _ => ?_)
    · refine Does.bump adr_HBM_SPLITS (by decide +kernel) ?_
      refine Does.latch adr_HBM_LAT (by decide +kernel) ?_
      exact Does.refl
    · exact Does.refl
  refine Does.lets x7 ?_ (fun hx7 => ?_)
  · unfold x7
    refine Does.maxReg adr_HBM_REQ_LMAX (by decide +kernel) ?_
    refine Does.call State.setHbmPc_does (by decide +kernel) ?_
    refine Does.put_hbm (by decide +kernel) ?_
    exact hx2
  refine Does.call State.judgeOrder_does (by decide +kernel) ?_
  exact hx7

theorem State.hbmWrite_does {s requester off data} : Does [.fresh, .hbmMem, .hbm] [12] s (State.hbmWrite s requester off data) := by
  unfold State.hbmWrite
  extract_lets -underBinder -merge -useContext x1
  refine Does.lets x1 ?_ (fun hx1 => ?_)
  · unfold x1
    refine Does.call State.hbmRequests_does (by decide +kernel) ?_
    exact Does.refl
  refine Does.put_hbmMem (by decide +kernel) (fun h => Memory.wf_writeBytes _ _ _ h) ?_
  exact hx1

end Sys2Proof.Machine
end

