-- ==== Sys2Proof/Laws/Records.lean ====
section
/-! SUPPORT. What each operation of Machine/Records.lean may change (Laws/Frame.lean says how to read it). -/
namespace Sys2Proof.Machine

set_option Elab.async false

theorem State.setStream_does {s cls x} : Does [.acq] [] s (State.setStream s cls x) := by
  unfold State.setStream
  extract_lets -underBinder -merge -useContext x1
  refine Does.put_acq (by decide +kernel) ?_
  exact Does.refl

theorem State.appendTimes_does {s cls at_ times r} : Does [.acq] [] s (State.appendTimes s cls at_ times r) := by
  unfold State.appendTimes
  extract_lets -underBinder -merge -useContext x1
  refine Does.ite (fun _ => ?_) (fun _ => ?_)
  · refine Does.call State.setStream_does (by decide +kernel) ?_
    exact Does.refl
  · exact Does.refl

theorem State.append_does {s cls at_ r} : Does [.acq] [] s (State.append s cls at_ r) := by
  unfold State.append
  refine Does.call State.appendTimes_does (by decide +kernel) ?_
  exact Does.refl

theorem State.appendA_does {s time r} : Does [.acq] [] s (State.appendA s time r) := by
  unfold State.appendA
  refine Does.call State.append_does (by decide +kernel) ?_
  exact Does.refl

theorem State.drainStage_does {s cls n} : Does [.fresh, .hbmMem, .acq, .hbm] [12] s (State.drainStage s cls n) := by
  induction n generalizing s with
  | zero => exact Does.refl
  | succ n ih =>
    unfold State.drainStage
    split
    · exact Does.refl
    · refine Does.ite (fun _ => Does.refl) (fun _ => ih.after ?_)
      refine Does.call State.setStream_does (by decide +kernel) ?_
      exact Does.call State.hbmWrite_does (by decide +kernel) Does.refl

theorem State.appendNow_does {s cls r} : Does [.agenda, .causes, .fresh, .hbmMem, .acq, .hbm] [10, 12] s (State.appendNow s
      cls r) := by
  unfold State.appendNow
  extract_lets -underBinder -merge -useContext x1 x2 x3 x4 x5
  refine Does.lets x1 ?_ (fun hx1 => ?_)
  · unfold x1
    refine Does.bump adr_BSN_DROP (by decide +kernel) ?_
    exact Does.refl
  refine Does.lets x3 ?_ (fun hx3 => ?_)
  · unfold x3
    refine Does.call State.setStream_does (by decide +kernel) ?_
    exact Does.refl
  refine Does.lets x4 ?_ (fun hx4 => ?_)
  · unfold x4
    refine Does.setWide adr_BSN_WR (by decide +kernel) ?_
    exact hx3
  refine Does.lets x5 ?_ (fun hx5 => ?_)
  · unfold x5
    refine Does.maxReg adr_BSN_MAXF (by decide +kernel) ?_
    exact hx4
  refine Does.ite (fun _ => ?_) (fun _ => ?_)
  · refine Does.ite (fun _ => ?_) (fun _ => ?_)
    · refine Does.call State.raise_does (by decide +kernel) ?_
      refine Does.call State.causeOn_does (by decide +kernel) ?_
      refine Does.latch adr_ACQ_LAT (by decide +kernel) ?_
      exact hx1
    · refine Does.call State.raise_does (by decide +kernel) ?_
      refine Does.latch adr_ACQ_LAT (by decide +kernel) ?_
      exact hx1
  · refine Does.call State.drainStage_does (by decide +kernel) ?_
    exact hx5

theorem State.releaseCls_does {s cls limit n} : Does [.agenda, .causes, .fresh, .hbmMem, .acq, .hbm, .twn] [10, 12] s
      (State.releaseCls s cls limit n) := by
  induction n generalizing s with
  | zero => exact Does.refl
  | succ n ih =>
    unfold State.releaseCls
    split
    · exact Does.refl
    · refine Does.ite (fun _ => ih.after ?_) (fun _ => Does.refl)
      have h {x b} : Does [.agenda, .causes, .fresh, .hbmMem, .acq, .hbm, .twn] [10, 12] s ((s.setStream cls x).appendNow cls b) :=
        Does.call State.appendNow_does (by decide +kernel) (Does.call State.setStream_does (by decide +kernel) Does.refl)
      exact Does.ite (fun _ => Does.call State.tickItem_does (by decide +kernel) h) (fun _ => h)

theorem State.releaseOf_does {s cls limit} : Does [.agenda, .causes, .fresh, .hbmMem, .acq, .hbm, .twn] [10, 12] s
      (State.releaseOf s cls limit) := by
  unfold State.releaseOf
  refine Does.call State.releaseCls_does (by decide +kernel) ?_
  exact Does.refl

theorem State.releaseTo_does {s limit} : Does [.agenda, .causes, .fresh, .hbmMem, .acq, .hbm, .twn] [10, 12] s
      (State.releaseTo s limit) := by
  unfold State.releaseTo
  refine Does.call State.releaseOf_does (by decide +kernel) ?_
  refine Does.call State.releaseOf_does (by decide +kernel) ?_
  refine Does.call State.releaseOf_does (by decide +kernel) ?_
  refine Does.call State.releaseOf_does (by decide +kernel) ?_
  exact Does.refl

theorem State.excursion_does {s src kind detail ch time value limit} : Does [.agenda, .free, .fresh] [1, 3] s
      (State.excursion s src kind detail ch time value limit) := by
  unfold State.excursion
  refine Does.call State.issueCmd_does (by decide +kernel) ?_
  exact Does.refl

theorem State.anchor_does {s reason} : Does [.acq] [] s (State.anchor s reason) := by
  unfold State.anchor
  refine Does.call State.appendA_does (by decide +kernel) ?_
  exact Does.refl

end Sys2Proof.Machine
end

