-- ==== Sys2Proof/Laws/Operands.lean ====
section
/-! SUPPORT. What each operation of Machine/Operands.lean may change (Laws/Frame.lean says how to read it). -/
namespace Sys2Proof.Machine

set_option Elab.async false

theorem State.setStaged_does {s by_ a w} : Does [.staging] [] s (State.setStaged s by_ a w) := by
  unfold State.setStaged
  refine Does.put_staging (by decide +kernel) ?_
  exact Does.refl

theorem State.applyStaged_does {s by_ base bits k n} : Does [.regs, .staging] [] s (State.applyStaged s by_ base bits k n) := by
  induction n generalizing s k with
  | zero => exact Does.refl
  | succ n ih =>
    unfold State.applyStaged
    refine ih.after ?_
    split
    · exact Does.call State.setStaged_does (by decide +kernel) (Does.setReg_any (by decide +kernel) Does.refl)
    · exact Does.refl

theorem State.classWrite_does {s by_ a data mask} : Does [.regs, .staging, .agenda, .fresh] [] s (State.classWrite s by_ a
      data mask) := by
  unfold State.classWrite
  extract_lets -underBinder -merge -useContext x1 x2 x3
  refine Does.lets x3 ?_ (fun hx3 => ?_)
  · unfold x3
    refine Does.setReg_any (by decide +kernel) ?_
    exact Does.refl
  refine Does.ite (fun _ => ?_) (fun _ => ?_)
  · exact Does.refl
  · refine Does.ite (fun _ => ?_) (fun _ => ?_)
    · refine Does.ite (fun _ => ?_) (fun _ => ?_)
      · refine Does.setReg_any (by decide +kernel) ?_
        exact hx3
      · exact hx3
    · split
      · exact Does.refl
      · extract_lets -underBinder -merge -useContext x4 x5 x6 x7
        refine Does.lets x5 ?_ (fun hx5 => ?_)
        · unfold x5
          refine Does.call State.applyStaged_does (by decide +kernel) ?_
          exact Does.refl
        refine Does.lets x6 ?_ (fun hx6 => ?_)
        · unfold x6
          refine Does.setReg_any (by decide +kernel) ?_
          exact hx5
        refine Does.ite (fun _ => ?_) (fun _ => ?_)
        · refine Does.call State.reject_any (by decide +kernel) ?_
          exact Does.refl
        · refine Does.ite (fun _ => ?_) (fun _ => ?_)
          · refine Does.ite (fun _ => ?_) (fun _ => ?_)
            · refine Does.ite (fun _ => ?_) (fun _ => ?_)
              · refine Does.call State.setStaged_does (by decide +kernel) ?_
                exact Does.refl
              · refine Does.ite (fun _ => ?_) (fun _ => ?_)
                · refine Does.call State.reject_any (by decide +kernel) ?_
                  exact Does.refl
                · exact hx6
            · exact Does.refl
          · refine Does.ite (fun _ => ?_) (fun _ => ?_)
            · refine Does.call State.reject_any (by decide +kernel) ?_
              exact Does.refl
            · refine Does.setReg_any (by decide +kernel) ?_
              exact Does.refl

end Sys2Proof.Machine
end

