-- ==== Sys2Proof/Laws/Measure.lean ====
section
/-! SUPPORT. What each operation of Machine/Measure.lean may change (Laws/Frame.lean says how to read it). -/
namespace Sys2Proof.Machine

set_option Elab.async false

theorem State.setMon_does {s n m x} : Does [.mons] [] s (State.setMon s n m x) := by
  unfold State.setMon
  refine Does.put_mons (by decide +kernel) ?_
  exact Does.refl

theorem State.monNote_does {s n m at_} : Does [.mons] [] s (State.monNote s n m at_) := by
  unfold State.monNote
  extract_lets -underBinder -merge -useContext x1
  refine Does.call State.setMon_does (by decide +kernel) ?_
  exact Does.refl

theorem State.settled41_does {s n} : Does [.causes] [] s (State.settled41 s n) := by
  unfold State.settled41
  refine Does.ite (fun _ => ?_) (fun _ => ?_)
  · exact Does.refl
  · refine Does.call State.causeOff_does (by decide +kernel) ?_
    exact Does.refl

theorem State.shipItem_does {s it} : Does [.twn] [] s (State.shipItem s it) := by
  unfold State.shipItem
  extract_lets -underBinder -merge -useContext x1
  refine Does.ite (fun _ => ?_) (fun _ => ?_)
  · refine Does.put_twn (by decide +kernel) ?_
    exact Does.refl
  · exact Does.refl

theorem State.monChange_does {s n m latch uns at_} : Does [.causes, .fresh, .mons, .twn] [64] s (State.monChange s n m latch
      uns at_) := by
  unfold State.monChange
  extract_lets -underBinder -merge -useContext x1 x2 x3 x4 x5 x6
  refine Does.lets x3 ?_ (fun hx3 => ?_)
  · unfold x3
    refine Does.call State.monNote_does (by decide +kernel) ?_
    exact Does.refl
  refine Does.lets x4 ?_ (fun hx4 => ?_)
  · unfold x4
    refine Does.ite (fun _ => ?_) (fun _ => ?_)
    · refine Does.call State.mark_does (by decide +kernel) ?_
      exact hx3
    · exact hx3
  refine Does.lets x5 ?_ (fun hx5 => ?_)
  · unfold x5
    refine Does.call State.settled41_does (by decide +kernel) ?_
    refine Does.setBit adr_MON_STAT (by decide +kernel) ?_
    refine Does.setFld adr_MON_UNS (by decide +kernel) ?_
    refine Does.setFld adr_MON_LAT (by decide +kernel) ?_
    exact hx4
  refine Does.lets x6 ?_ (fun hx6 => ?_)
  · unfold x6
    refine Does.ite (fun _ => ?_) (fun _ => ?_)
    · refine Does.call State.shipItem_does (by decide +kernel) ?_
      exact hx5
    · exact hx5
  refine Does.ite (fun _ => ?_) (fun _ => ?_)
  · exact Does.refl
  · refine Does.ite (fun _ => ?_) (fun _ => ?_)
    · refine Does.call State.causeOff_does (by decide +kernel) ?_
      exact hx6
    · exact hx6

theorem State.startCode_does {s n len bits} : Does [.agenda, .fresh, .out, .codes] [64] s (State.startCode s n len bits) := by
  unfold State.startCode
  extract_lets -underBinder -merge -useContext x1 x2 x3 x4 x5 x6
  refine Does.lets x5 ?_ (fun hx5 => ?_)
  · unfold x5
    refine Does.latch adr_ISL_STAT (by decide +kernel) ?_
    exact Does.refl
  refine Does.lets x6 ?_ (fun hx6 => ?_)
  · unfold x6
    refine Does.put_codes (by decide +kernel) ?_
    exact hx5
  refine Does.ite (fun _ => ?_) (fun _ => ?_)
  · exact Does.refl
  · refine Does.ite (fun _ => ?_) (fun _ => ?_)
    · refine Does.call State.raise_does (by decide +kernel) ?_
      refine Does.latch adr_ISL_LAT (by decide +kernel) ?_
      exact Does.refl
    · refine Does.ite (fun _ => ?_) (fun _ => ?_)
      · refine Does.call State.emit_does (by decide +kernel) ?_
        exact hx6
      · exact hx6

theorem State.sendSwitch_does {s q op} : Does [.agenda, .fresh, .out, .codes] [64] s (State.sendSwitch s q op) := by
  unfold State.sendSwitch
  extract_lets -underBinder -merge -useContext x1
  refine Does.ite (fun _ => ?_) (fun _ => ?_)
  · exact Does.refl
  · refine Does.call State.startCode_does (by decide +kernel) ?_
    exact Does.refl

theorem State.refStart_does {s} : Does [.calRec] [] s (State.refStart s) := by
  unfold State.refStart
  extract_lets -underBinder -merge -useContext x1
  refine Does.ite (fun _ => ?_) (fun _ => ?_)
  · refine Does.put_calRec (by decide +kernel) ?_
    exact Does.refl
  · exact Does.refl

theorem State.setPhase_does {s q phase cause} : Does [.calRec] [15] s (State.setPhase s q phase cause) := by
  unfold State.setPhase
  refine Does.call State.refStart_does (by decide +kernel) ?_
  refine Does.setReg adr_CALQ_STAT (by decide +kernel) ?_
  exact Does.refl

theorem State.setSeqn_does {s q x} : Does [.cals] [] s (State.setSeqn s q x) := by
  unfold State.setSeqn
  refine Does.put_cals (by decide +kernel) ?_
  exact Does.refl

theorem State.seqRelease_does {s q} : Does [.agenda, .fresh, .out, .codes, .cals, .calRec] [15, 64] s (State.seqRelease s q) := by
  unfold State.seqRelease
  extract_lets -underBinder -merge -useContext x1 x2
  refine Does.lets x1 ?_ (fun hx1 => ?_)
  · unfold x1
    refine Does.call State.setPhase_does (by decide +kernel) ?_
    exact Does.refl
  refine Does.call State.sendSwitch_does (by decide +kernel) ?_
  refine Does.call State.setSeqn_does (by decide +kernel) ?_
  exact hx1

theorem State.setLch_does {s ch x} : Does [.loops] [] s (State.setLch s ch x) := by
  unfold State.setLch
  refine Does.put_loops (by decide +kernel) ?_
  exact Does.refl

theorem State.setOffset_does {s ch q v} : Does [.loops] [6] s (State.setOffset s ch q v) := by
  unfold State.setOffset
  extract_lets -underBinder -merge -useContext x1 x2 x3 x4 x5
  refine Does.lets x2 ?_ (fun hx2 => ?_)
  · unfold x2
    refine Does.call State.setLch_does (by decide +kernel) ?_
    exact Does.refl
  refine Does.lets x4 ?_ (fun hx4 => ?_)
  · unfold x4
    refine Does.ite (fun _ => ?_) (fun _ => ?_)
    · refine Does.setReg adr_LCH_DV (by decide +kernel) ?_
      exact hx2
    · refine Does.setReg adr_LCH_DI (by decide +kernel) ?_
      exact hx2
  refine Does.setBit adr_LCH_STAT (by decide +kernel) ?_
  exact hx4

theorem State.setLocal_does {s ch q x} : Does [.quants] [] s (State.setLocal s ch q x) := by
  unfold State.setLocal
  refine Does.put_quants (by decide +kernel) ?_
  exact Does.refl

theorem State.setShip_does {s ch q x} : Does [.ships] [] s (State.setShip s ch q x) := by
  unfold State.setShip
  refine Does.put_ships (by decide +kernel) ?_
  exact Does.refl

theorem State.dropQuant_does {s n u} : Does [.quants, .ships] [] s (State.dropQuant s n u) := by
  unfold State.dropQuant
  extract_lets -underBinder -merge -useContext x1 x2 x3 x4
  refine Does.ite (fun _ => ?_) (fun _ => ?_)
  · refine Does.call State.setShip_does (by decide +kernel) ?_
    refine Does.call State.setLocal_does (by decide +kernel) ?_
    exact Does.refl
  · exact Does.refl

theorem State.setMu_does {s n u x} : Does [.meas] [] s (State.setMu s n u x) := by
  unfold State.setMu
  refine Does.put_meas (by decide +kernel) ?_
  exact Does.refl

theorem State.muOff_does {s n u} : Does [.meas, .quants, .ships] [64] s (State.muOff s n u) := by
  unfold State.muOff
  extract_lets -underBinder -merge -useContext x1
  refine Does.call State.dropQuant_does (by decide +kernel) ?_
  refine Does.call State.setMu_does (by decide +kernel) ?_
  refine Does.setFld adr_MU_CTL (by decide +kernel) ?_
  exact Does.refl

theorem State.unit8Off_does {s q} : Does [.meas, .quants, .ships] [64] s (State.unit8Off s q) := by
  unfold State.unit8Off
  refine Does.ite (fun _ => ?_) (fun _ => ?_)
  · refine Does.call State.muOff_does (by decide +kernel) ?_
    exact Does.refl
  · exact Does.refl

theorem State.seqEnd_does {s q cause ownLost} : Does [.agenda, .fresh, .out, .codes, .meas, .loops, .quants, .ships, .cals,
      .calRec] [6, 15, 64] s (State.seqEnd s q cause ownLost) := by
  unfold State.seqEnd
  extract_lets -underBinder -merge -useContext x1 x2 x3 x4 x5
  refine Does.lets x2 ?_ (fun hx2 => ?_)
  · unfold x2
    refine Does.call State.raise_does (by decide +kernel) ?_
    refine Does.setFld adr_CALQ_STAT (by decide +kernel) ?_
    exact Does.refl
  refine Does.lets x5 ?_ (fun hx5 => ?_)
  · unfold x5
    refine Does.call State.setSeqn_does (by decide +kernel) ?_
    refine Does.call State.setPhase_does (by decide +kernel) ?_
    refine Does.call State.unit8Off_does (by decide +kernel) ?_
    exact hx2
  refine Does.ite (fun _ => ?_) (fun _ => ?_)
  · exact Does.refl
  · refine Does.ite (fun _ => ?_) (fun _ => ?_)
    · refine Does.ite (fun _ => ?_) (fun _ => ?_)
      · refine Does.call State.setOffset_does (by decide +kernel) ?_
        exact hx5
      · exact hx5
    · refine Does.ite (fun _ => ?_) (fun _ => ?_)
      · refine Does.call State.seqRelease_does (by decide +kernel) ?_
        refine Does.call State.setSeqn_does (by decide +kernel) ?_
        exact hx2
      · refine Does.ite (fun _ => ?_) (fun _ => ?_)
        · refine Does.call State.setSeqn_does (by decide +kernel) ?_
          exact hx2
        · refine Does.call State.setSeqn_does (by decide +kernel) ?_
          refine Does.call State.setPhase_does (by decide +kernel) ?_
          refine Does.call State.unit8Off_does (by decide +kernel) ?_
          exact hx2

theorem State.loopSees_does {s n u due} : Does [.free, .fresh] [3] s (State.loopSees s n u due) := by
  unfold State.loopSees
  split
  · refine Does.ite (fun _ => ?_) (fun _ => ?_)
    · refine Does.call State.crossed_does (by decide +kernel) ?_
      exact Does.refl
    · exact Does.refl
  · exact Does.refl

theorem State.openGates_does {s n u now} : Does [.meas] [] s (State.openGates s n u now) := by
  unfold State.openGates
  refine Does.call State.setMu_does (by decide +kernel) ?_
  exact Does.refl

theorem State.spoil_does {s n u now} : Does [.meas] [] s (State.spoil s n u now) := by
  unfold State.spoil
  extract_lets -underBinder -merge -useContext x1 x2
  refine Does.lets x1 ?_ (fun hx1 => ?_)
  · unfold x1
    refine Does.call State.openGates_does (by decide +kernel) ?_
    exact Does.refl
  refine Does.call State.setMu_does (by decide +kernel) ?_
  exact hx1

theorem State.senseLoss_does {s n u y due} : Does [.agenda, .causes, .free, .fresh] [1, 3, 64] s (State.senseLoss s n u y due) := by
  unfold State.senseLoss
  extract_lets -underBinder -merge -useContext x1 x2 x3
  refine Does.lets x2 ?_ (fun hx2 => ?_)
  · unfold x2
    refine Does.call State.raise_does (by decide +kernel) ?_
    refine Does.call State.causeOn_does (by decide +kernel) ?_
    refine Does.latch adr_MU_LAT (by decide +kernel) ?_
    refine Does.latch adr_MU_STAT (by decide +kernel) ?_
    exact Does.refl
  refine Does.lets x3 ?_ (fun hx3 => ?_)
  · unfold x3
    split
    · refine Does.call State.postAt_does (by decide +kernel) ?_
      exact hx2
    · exact hx2
  refine Does.call State.excursion_does (by decide +kernel) ?_
  exact hx3

theorem State.seqStale_does {s n u} : Does [.agenda, .fresh, .out, .codes, .meas, .loops, .quants, .ships, .cals, .calRec]
      [6, 15, 64] s (State.seqStale s n u) := by
  unfold State.seqStale
  extract_lets -underBinder -merge -useContext x1 x2 x3
  refine Does.ite (fun _ => ?_) (fun _ => ?_)
  · refine Does.call State.seqEnd_does (by decide +kernel) ?_
    exact Does.refl
  · exact Does.refl

theorem State.shipResult_does {s n u y flags due} : Does [.twn] [] s (State.shipResult s n u y flags due) := by
  unfold State.shipResult
  extract_lets -underBinder -merge -useContext x1
  refine Does.ite (fun _ => ?_) (fun _ => ?_)
  · exact Does.refl
  · refine Does.ite (fun _ => ?_) (fun _ => ?_)
    · refine Does.call State.shipItem_does (by decide +kernel) ?_
      exact Does.refl
    · refine Does.put_twn (by decide +kernel) ?_
      exact Does.refl

theorem State.giveResult_does {s n u f y flags cnt ySat due} : Does [.agenda, .causes, .free, .fresh, .out, .codes, .meas,
      .loops, .quants, .ships, .cals, .calRec, .twn] [1, 3, 6, 15, 64] s (State.giveResult s n u f y flags cnt ySat due) := by
  unfold State.giveResult
  extract_lets -underBinder -merge -useContext x1 x2 x3 x4 x5 x6 x7 x8 x9 x10 x11 x12 x13 x14 x15
  refine Does.lets x5 ?_ (fun hx5 => ?_)
  · unfold x5
    refine Does.setReg adr_MU_N (by decide +kernel) ?_
    refine Does.bump adr_MU_RCNT (by decide +kernel) ?_
    exact Does.refl
  refine Does.lets x6 ?_ (fun hx6 => ?_)
  · unfold x6
    refine Does.ite (fun _ => ?_) (fun _ => ?_)
    · refine Does.bump adr_MU_SCNT (by decide +kernel) ?_
      exact hx5
    · exact hx5
  refine Does.lets x8 ?_ (fun hx8 => ?_)
  · unfold x8
    refine Does.call State.mark_does (by decide +kernel) ?_
    refine Does.setReg adr_MU_LAT (by decide +kernel) ?_
    exact hx6
  refine Does.lets x9 ?_ (fun hx9 => ?_)
  · unfold x9
    refine Does.ite (fun _ => ?_) (fun _ => ?_)
    · refine Does.call State.raise_does (by decide +kernel) ?_
      exact hx8
    · exact hx8
  refine Does.lets x10 ?_ (fun hx10 => ?_)
  · unfold x10
    refine Does.ite (fun _ => ?_) (fun _ => ?_)
    · refine Does.call State.raise_does (by decide +kernel) ?_
      exact hx9
    · exact hx9
  refine Does.lets x13 ?_ (fun hx13 => ?_)
  · unfold x13
    refine Does.call State.setMu_does (by decide +kernel) ?_
    exact hx10
  refine Does.lets x14 ?_ (fun hx14 => ?_)
  · unfold x14
    refine Does.ite (fun _ => ?_) (fun _ => ?_)
    · refine Does.ite (fun _ => ?_) (fun _ => ?_)
      · refine Does.call State.senseLoss_does (by decide +kernel) ?_
        exact hx13
      · exact hx13
    · refine Does.call State.causeOff_does (by decide +kernel) ?_
      refine Does.setFld adr_MU_STAT (by decide +kernel) ?_
      exact hx13
  refine Does.lets x15 ?_ (fun hx15 => ?_)
  · unfold x15
    refine Does.call State.loopSees_does (by decide +kernel) ?_
    refine Does.ite (fun _ => ?_) (fun _ => ?_)
    · refine Does.call State.seqStale_does (by decide +kernel) ?_
      exact hx14
    · exact hx14
  refine Does.call State.issue_does (by decide +kernel) ?_
  refine Does.call State.shipResult_does (by decide +kernel) ?_
  exact hx15

theorem State.stepUnits_does {s old} : Does [.agenda, .causes, .free, .fresh, .out, .codes, .meas, .loops, .quants, .ships,
      .cals, .calRec, .twn] [1, 3, 6, 15, 64] s (State.stepUnits s old) := by
  unfold State.stepUnits
  refine Does.foldl ?_ ?_
  · intro y1 y2
    beta_reduce
    refine Does.foldl ?_ ?_
    · intro y3 y4
      beta_reduce
      extract_lets -underBinder -merge -useContext x5 x6 x7 x8 x9
      refine Does.lets x5 ?_ (fun hx5 => ?_)
      · unfold x5
        refine Does.call State.openGates_does (by decide +kernel) ?_
        exact Does.refl
      refine Does.lets x9 ?_ (fun hx9 => ?_)
      · unfold x9
        refine Does.call State.setMu_does (by decide +kernel) ?_
        exact hx5
      refine Does.ite (fun _ => ?_) (fun _ => ?_)
      · exact Does.refl
      · refine Does.ite (fun _ => ?_) (fun _ => ?_)
        · refine Does.call State.giveResult_does (by decide +kernel) ?_
          exact hx9
        · exact hx9
    · exact Does.refl
  · exact Does.refl

theorem State.spoilDll_does {s n} : Does [.meas] [] s (State.spoilDll s n) := by
  unfold State.spoilDll
  refine Does.foldl ?_ ?_
  · intro y1 y2
    beta_reduce
    extract_lets -underBinder -merge -useContext x3
    refine Does.ite (fun _ => ?_) (fun _ => ?_)
    · exact Does.refl
    · refine Does.call State.spoil_does (by decide +kernel) ?_
      exact Does.refl
  · exact Does.refl

theorem State.seqEndAll_does {s cause ownLost} : Does [.agenda, .fresh, .out, .codes, .meas, .loops, .quants, .ships, .cals,
      .calRec] [6, 15, 64] s (State.seqEndAll s cause ownLost) := by
  unfold State.seqEndAll
  refine Does.foldl ?_ ?_
  · intro y1 y2
    beta_reduce
    refine Does.call State.seqEnd_does (by decide +kernel) ?_
    exact Does.refl
  · exact Does.refl

end Sys2Proof.Machine
end

