-- ==== Sys2Proof/Laws/TimeBase.lean ====
section
/-! SUPPORT. What each operation of Machine/TimeBase.lean may change (Laws/Frame.lean says how to read it). -/
namespace Sys2Proof.Machine

set_option Elab.async false

theorem State.showSlewing_does {s} : Does [] [1] s (State.showSlewing s) := by
  unfold State.showSlewing
  refine Does.setBit adr_TBS_STATE (by decide +kernel) ?_
  exact Does.refl

theorem State.clearPhase_does {s} : Does [.tbs] [1] s (State.clearPhase s) := by
  unfold State.clearPhase
  extract_lets -underBinder -merge -useContext x1
  refine Does.call State.showSlewing_does (by decide +kernel) ?_
  refine Does.put_tbs (by decide +kernel) ?_
  exact Does.refl

theorem State.setTb_does {s st} : Does [.causes, .tbs] [1] s (State.setTb s st) := by
  unfold State.setTb
  extract_lets -underBinder -merge -useContext x1 x2 x3 x4 x5 x6 x7
  refine Does.lets x1 ?_ (fun hx1 => ?_)
  · unfold x1
    refine Does.setFld adr_TBS_STATE (by decide +kernel) ?_
    exact Does.refl
  refine Does.lets x4 ?_ (fun hx4 => ?_)
  · unfold x4
    refine Does.ite (fun _ => ?_) (fun _ => ?_)
    · refine Does.call State.clearPhase_does (by decide +kernel) ?_
      refine Does.put_tbs (by decide +kernel) ?_
      exact hx1
    · refine Does.put_tbs (by decide +kernel) ?_
      exact hx1
  refine Does.lets x6 ?_ (fun hx6 => ?_)
  · unfold x6
    refine Does.setReg adr_TBS_HOLD (by decide +kernel) ?_
    refine Does.call State.causeOff_does (by decide +kernel) ?_
    exact hx4
  refine Does.ite (fun _ => ?_) (fun _ => ?_)
  · refine Does.put_tbs (by decide +kernel) ?_
    exact hx6
  · exact hx4

theorem State.stepCount_does {s c} : Does (Part.but [.pending, .regs, .staging, .shadow, .dueNow, .hbmMem, .spill, .chans,
      .pins, .stampers, .tacs, .dlls, .ctl, .players, .seg, .str, .power]) [1, 3, 6, 15, 64] s (State.stepCount s c) := by
  unfold State.stepCount
  extract_lets -underBinder -merge -useContext x1 x2 x3 x4 x5 x6 x7 x8 x9
  refine Does.lets x6 ?_ (fun hx6 => ?_)
  · unfold x6
    refine Does.put (t := s) [.count, .agenda, .fresh, .raised, .merged, .tbs, .mons, .engs, .loops, .hbm, .calRec, .twn,
      .links, .sec, .mgt] ?_ (by decide +kernel) ?_ ?_ ?_ ?_ ?_
    · exact Does.refl
    · rfl
    · rfl
    · rfl
    · rfl
    · intro p hp; cases p <;> first | exact absurd (by decide) hp | rfl
  refine Does.lets x7 ?_ (fun hx7 => ?_)
  · unfold x7
    refine Does.ite (fun _ => ?_) (fun _ => ?_)
    · exact hx6
    · refine Does.bumpBy adr_TBS_LATE_CNT (by decide +kernel) ?_
      refine Does.latch adr_TBS_LATE (by decide +kernel) ?_
      exact hx6
  refine Does.lets x9 ?_ (fun hx9 => ?_)
  · unfold x9
    refine Does.foldl ?_ ?_
    · intro y10 y11
      beta_reduce
      extract_lets -underBinder -merge -useContext x12
      refine Does.ite (fun _ => ?_) (fun _ => ?_)
      · exact Does.refl
      · refine Does.call State.setTask_does (by decide +kernel) ?_
        exact Does.refl
    · refine Does.put_sched (by decide +kernel) ?_
      exact hx7
  refine Does.call State.anchor_does (by decide +kernel) ?_
  refine Does.call State.stepUnits_does (by decide +kernel) ?_
  refine Does.call State.seqEndAll_does (by decide +kernel) ?_
  refine Does.latch adr_TBS_STATE (by decide +kernel) ?_
  exact hx9

theorem State.firstReference_does {s c} : Does (Part.but [.pending, .regs, .staging, .shadow, .dueNow, .hbmMem, .spill,
      .chans, .pins, .stampers, .tacs, .dlls, .ctl, .players, .seg, .str, .power]) [1, 3, 6, 15, 64] s (State.firstReference
      s c) := by
  unfold State.firstReference
  refine Does.call State.clearPhase_does (by decide +kernel) ?_
  refine Does.call State.stepCount_does (by decide +kernel) ?_
  refine Does.call State.setTb_does (by decide +kernel) ?_
  exact Does.refl

theorem State.showReference_does {s err path hop} : Does [.fresh] [1] s (State.showReference s err path hop) := by
  unfold State.showReference
  refine Does.setReg adr_TBS_PHERR (by decide +kernel) ?_
  refine Does.setFld adr_TBS_HOP (by decide +kernel) ?_
  refine Does.setReg adr_TBS_PATH (by decide +kernel) ?_
  refine Does.latch adr_TBS_STATE (by decide +kernel) ?_
  exact Does.refl

theorem State.judgePhase_does {s err} : Does [.agenda, .causes, .tbs] [] s (State.judgePhase s err) := by
  unfold State.judgePhase
  extract_lets -underBinder -merge -useContext x1 x2 x3
  refine Does.lets x3 ?_ (fun hx3 => ?_)
  · unfold x3
    refine Does.put_tbs (by decide +kernel) ?_
    exact Does.refl
  refine Does.ite (fun _ => ?_) (fun _ => ?_)
  · refine Does.ite (fun _ => ?_) (fun _ => ?_)
    · exact hx3
    · refine Does.call State.raise_does (by decide +kernel) ?_
      refine Does.call State.causeOn_does (by decide +kernel) ?_
      exact hx3
  · refine Does.call State.causeOff_does (by decide +kernel) ?_
    exact hx3

theorem State.trackReference_does {s err} : Does [.agenda, .causes, .tbs] [1] s (State.trackReference s err) := by
  unfold State.trackReference
  extract_lets -underBinder -merge -useContext x1 x2 x3 x4 x5
  refine Does.lets x4 ?_ (fun hx4 => ?_)
  · unfold x4
    refine Does.call State.setTb_does (by decide +kernel) ?_
    exact Does.refl
  refine Does.call State.showSlewing_does (by decide +kernel) ?_
  refine Does.call State.judgePhase_does (by decide +kernel) ?_
  refine Does.put_tbs (by decide +kernel) ?_
  exact hx4

theorem State.takeReference_does {s ref arrival path hop} : Does (Part.but [.pending, .regs, .staging, .shadow, .dueNow,
      .hbmMem, .spill, .chans, .pins, .stampers, .tacs, .dlls, .ctl, .players, .seg, .str, .power]) [1, 3, 6, 15, 64] s
      (State.takeReference s ref arrival path hop) := by
  unfold State.takeReference
  extract_lets -underBinder -merge -useContext x1
  refine Does.ite (fun _ => ?_) (fun _ => ?_)
  · refine Does.call State.firstReference_does (by decide +kernel) ?_
    refine Does.call State.showReference_does (by decide +kernel) ?_
    exact Does.refl
  · refine Does.call State.trackReference_does (by decide +kernel) ?_
    refine Does.call State.showReference_does (by decide +kernel) ?_
    exact Does.refl

theorem State.ringBad_does {s} : Does [.agenda, .fresh] [13] s (State.ringBad s) := by
  unfold State.ringBad
  refine Does.call State.raise_does (by decide +kernel) ?_
  refine Does.bump adr_LR_CRCERR (by decide +kernel) ?_
  refine Does.latch adr_LNK_LAT (by decide +kernel) ?_
  exact Does.refl

theorem State.ringSend_does {s mtype m} : Does [.out, .links] [] s (State.ringSend s mtype m) := by
  unfold State.ringSend
  refine Does.ite (fun _ => ?_) (fun _ => ?_)
  · refine Does.call State.sentOn_does (by decide +kernel) ?_
    refine Does.call State.emit_does (by decide +kernel) ?_
    exact Does.refl
  · exact Does.refl

theorem State.ringForward_does {s mtype m} : Does [.out, .links] [] s (State.ringForward s mtype m) := by
  unfold State.ringForward
  refine Does.call State.ringSend_does (by decide +kernel) ?_
  exact Does.refl

theorem State.ringTimeTake_does {s m arrival} : Does (Part.but [.pending, .regs, .staging, .shadow, .dueNow, .hbmMem, .spill,
      .chans, .pins, .stampers, .tacs, .dlls, .ctl, .players, .seg, .str, .power]) [1, 3, 6, 13, 15, 64] s
      (State.ringTimeTake s m arrival) := by
  unfold State.ringTimeTake
  extract_lets -underBinder -merge -useContext x1 x2 x3 x4 x5 x6 x7
  refine Does.lets x3 ?_ (fun hx3 => ?_)
  · unfold x3
    refine Does.put_free (by decide +kernel) ?_
    exact Does.refl
  refine Does.lets x4 ?_ (fun hx4 => ?_)
  · unfold x4
    refine Does.maxReg adr_LR_PASS (by decide +kernel) ?_
    refine Does.setFld adr_LR_STAT (by decide +kernel) ?_
    exact hx3
  refine Does.lets x5 ?_ (fun hx5 => ?_)
  · unfold x5
    refine Does.call State.ringSend_does (by decide +kernel) ?_
    exact hx4
  refine Does.lets x7 ?_ (fun hx7 => ?_)
  · unfold x7
    refine Does.put_tbs (by decide +kernel) ?_
    exact hx5
  refine Does.ite (fun _ => ?_) (fun _ => ?_)
  · refine Does.ite (fun _ => ?_) (fun _ => ?_)
    · refine Does.call State.takeReference_does (by decide +kernel) ?_
      exact hx7
    · exact hx7
  · exact hx5

theorem execRingTime_runs {m crcGood arrival s} : Runs (Part.but [.pending, .regs, .staging, .shadow, .dueNow, .hbmMem,
      .spill, .chans, .pins, .stampers, .tacs, .dlls, .ctl, .players, .seg, .str, .power]) [1, 3, 6, 13, 15, 64] s
      (execRingTime m crcGood arrival s) := by
  unfold execRingTime
  refine Runs.ite (fun _ => ?_) (fun _ => ?_)
  · refine Runs.next ?_
    refine Does.call State.ringBad_does (by decide +kernel) ?_
    exact Does.refl
  · refine Runs.ite (fun _ => ?_) (fun _ => ?_)
    · refine Runs.next ?_
      refine Does.ite (fun _ => ?_) (fun _ => ?_)
      · refine Does.setReg adr_LR_RLAT (by decide +kernel) ?_
        exact Does.refl
      · refine Does.call State.ringForward_does (by decide +kernel) ?_
        exact Does.refl
    · refine Runs.next ?_
      refine Does.call State.ringTimeTake_does (by decide +kernel) ?_
      exact Does.refl

theorem State.peerHeard_does {s} : Does [.fresh, .twn] [14] s (State.peerHeard s) := by
  unfold State.peerHeard
  extract_lets -underBinder -merge -useContext x1 x2
  refine Does.lets x1 ?_ (fun hx1 => ?_)
  · unfold x1
    refine Does.latch adr_TWN_STAT (by decide +kernel) ?_
    exact Does.refl
  refine Does.put_twn (by decide +kernel) ?_
  exact hx1

theorem execColTime_runs {m arrival s} : Runs (Part.but [.pending, .regs, .staging, .shadow, .dueNow, .hbmMem, .spill,
      .chans, .pins, .stampers, .tacs, .dlls, .ctl, .players, .seg, .str, .power]) [1, 3, 6, 14, 15, 64] s (execColTime m
      arrival s) := by
  unfold execColTime
  extract_lets -underBinder -merge -useContext x1 x2 x3 x4
  refine Runs.lets x2 ?_ (fun hx2 => ?_)
  · unfold x2
    refine Does.call State.peerHeard_does (by decide +kernel) ?_
    refine Does.put_tbs (by decide +kernel) ?_
    exact Does.refl
  refine Runs.lets x3 ?_ (fun hx3 => ?_)
  · unfold x3
    split
    · refine Does.setFld adr_TBS_COLD (by decide +kernel) ?_
      exact hx2
    · exact hx2
  refine Runs.ite (fun _ => ?_) (fun _ => ?_)
  · refine Runs.ite (fun _ => ?_) (fun _ => ?_)
    · refine Runs.ite (fun _ => ?_) (fun _ => ?_)
      · refine Runs.next ?_
        refine Does.call State.takeReference_does (by decide +kernel) ?_
        exact hx3
      · refine Runs.next ?_
        exact hx3
    · refine Runs.next ?_
      exact hx2
  · refine Runs.next ?_
    refine Does.call State.peerHeard_does (by decide +kernel) ?_
    exact Does.refl

theorem execPllRefLoss_runs {oven s} : Runs [.agenda, .causes, .tbs, .power] [1] s (execPllRefLoss oven s) := by
  unfold execPllRefLoss
  extract_lets -underBinder -merge -useContext x1 x2 x3
  refine Runs.ite (fun _ => ?_) (fun _ => ?_)
  · refine Runs.next ?_
    refine Does.call State.raise_does (by decide +kernel) ?_
    refine Does.call State.causeOn_does (by decide +kernel) ?_
    refine Does.setBit adr_TBS_STATE (by decide +kernel) ?_
    refine Does.put_power (by decide +kernel) ?_
    exact Does.refl
  · refine Runs.ite (fun _ => ?_) (fun _ => ?_)
    · refine Runs.next ?_
      refine Does.call State.raise_does (by decide +kernel) ?_
      refine Does.call State.causeOn_does (by decide +kernel) ?_
      refine Does.put_tbs (by decide +kernel) ?_
      exact Does.refl
    · refine Runs.next ?_
      refine Does.put_tbs (by decide +kernel) ?_
      exact Does.refl

theorem execAgeingLearned_runs {s} : Runs [.free] [1] s (execAgeingLearned s) := by
  unfold execAgeingLearned
  extract_lets -underBinder -merge -useContext x1
  refine Runs.lets2 x1 ?_ (fun hx1 => ?_)
  · unfold x1
    refine Does2.call State.draw_does (by decide +kernel) ?_
    exact Does.refl
  refine Runs.ite (fun _ => ?_) (fun _ => ?_)
  · refine Runs.next ?_
    refine Does.setReg adr_TBS_AGE (by decide +kernel) ?_
    refine Does2.snd ?_
    exact hx1
  · refine Runs.next ?_
    exact Does.refl

theorem State.freqAim_does {s} : Does [.free, .tbs] [] s (State.freqAim s) := by
  unfold State.freqAim
  extract_lets -underBinder -merge -useContext x1 x2 x3 x4
  refine Does.lets2 x2 ?_ (fun hx2 => ?_)
  · unfold x2
    refine Does2.call State.draw_does (by decide +kernel) ?_
    exact Does.refl
  refine Does.lets x3 ?_ (fun hx3 => ?_)
  · unfold x3
    refine Does2.snd ?_
    exact hx2
  refine Does.ite (fun _ => ?_) (fun _ => ?_)
  · refine Does.put_tbs (by decide +kernel) ?_
    exact Does.refl
  · refine Does.ite (fun _ => ?_) (fun _ => ?_)
    · refine Does.put_tbs (by decide +kernel) ?_
      exact hx3
    · exact Does.refl

theorem execPhaseStep_runs {s} : Runs [.tbs] [1] s (execPhaseStep s) := by
  unfold execPhaseStep
  extract_lets -underBinder -merge -useContext x1 x2 x3
  refine Runs.ite (fun _ => ?_) (fun _ => ?_)
  · refine Runs.next ?_
    refine Does.call State.showSlewing_does (by decide +kernel) ?_
    refine Does.put_tbs (by decide +kernel) ?_
    exact Does.refl
  · refine Runs.next ?_
    exact Does.refl

theorem State.tbsOn_does {s} : Does [.causes, .tbs] [1] s (State.tbsOn s) := by
  unfold State.tbsOn
  refine Does.ite (fun _ => ?_) (fun _ => ?_)
  · refine Does.call State.setTb_does (by decide +kernel) ?_
    exact Does.refl
  · exact Does.refl

theorem State.enterHoldover_does {s} : Does [.agenda, .causes, .tbs] [1] s (State.enterHoldover s) := by
  unfold State.enterHoldover
  extract_lets -underBinder -merge -useContext x1 x2
  refine Does.lets x1 ?_ (fun hx1 => ?_)
  · unfold x1
    refine Does.setFld adr_TBS_STATE (by decide +kernel) ?_
    exact Does.refl
  refine Does.call State.raise_does (by decide +kernel) ?_
  refine Does.call State.causeOn_does (by decide +kernel) ?_
  refine Does.call State.clearPhase_does (by decide +kernel) ?_
  refine Does.put_tbs (by decide +kernel) ?_
  exact hx1

theorem State.tbsOff_does {s} : Does [.agenda, .causes, .tbs] [1] s (State.tbsOff s) := by
  unfold State.tbsOff
  refine Does.ite (fun _ => ?_) (fun _ => ?_)
  · refine Does.call State.enterHoldover_does (by decide +kernel) ?_
    exact Does.refl
  · exact Does.refl

theorem execOvenReady_runs {s} : Runs [.causes, .fresh, .tbs, .power] [1] s (execOvenReady s) := by
  unfold execOvenReady
  extract_lets -underBinder -merge -useContext x1 x2
  refine Runs.next ?_
  refine Does.call State.causeOff_does (by decide +kernel) ?_
  refine Does.call State.causeOff_does (by decide +kernel) ?_
  refine Does.latch adr_TBS_STATE (by decide +kernel) ?_
  refine Does.put (t := s) [.tbs, .power] ?_ (by decide +kernel) ?_ ?_ ?_ ?_ ?_
  · exact Does.refl
  · rfl
  · rfl
  · rfl
  · rfl
  · intro p hp; cases p <;> first | exact absurd (by decide) hp | rfl

theorem execAnchorPeriodic_runs {s} : Runs [.acq] [] s (execAnchorPeriodic s) := by
  unfold execAnchorPeriodic
  refine Runs.next ?_
  refine Does.ite (fun _ => ?_) (fun _ => ?_)
  · refine Does.call State.anchor_does (by decide +kernel) ?_
    exact Does.refl
  · exact Does.refl

theorem State.slewFreq_does {s} : Does [.free, .tbs] [1] s (State.slewFreq s) := by
  unfold State.slewFreq
  extract_lets -underBinder -merge -useContext x1 x2 x3 x4 x5
  refine Does.lets x1 ?_ (fun hx1 => ?_)
  · unfold x1
    refine Does.call State.freqAim_does (by decide +kernel) ?_
    exact Does.refl
  refine Does.call State.showSlewing_does (by decide +kernel) ?_
  refine Does.setReg adr_TBS_FREQ (by decide +kernel) ?_
  refine Does.put_tbs (by decide +kernel) ?_
  exact hx1

theorem execTimeMsgSend_runs {s} : Runs [.out, .tbs, .links] [] s (execTimeMsgSend s) := by
  unfold execTimeMsgSend
  extract_lets -underBinder -merge -useContext x1 x2
  refine Runs.ite (fun _ => ?_) (fun _ => ?_)
  · refine Runs.next ?_
    refine Does.call State.ringSend_does (by decide +kernel) ?_
    refine Does.put_tbs (by decide +kernel) ?_
    exact Does.refl
  · refine Runs.next ?_
    exact Does.refl

theorem execTbsStep_runs {by_ s} : Runs (Part.but [.pending, .regs, .staging, .shadow, .dueNow, .hbmMem, .spill, .chans,
      .pins, .stampers, .tacs, .dlls, .ctl, .players, .seg, .str, .power]) [1, 3, 6, 15, 64] s (execTbsStep by_ s) := by
  unfold execTbsStep
  refine Runs.ite (fun _ => ?_) (fun _ => ?_)
  · refine Runs.next ?_
    refine Does.call State.stepCount_does (by decide +kernel) ?_
    refine Does.call State.setTb_does (by decide +kernel) ?_
    exact Does.refl
  · refine Runs.next ?_
    refine Does.call (State.rejectVal_does adr_TBS_CMD) (by decide +kernel) ?_
    exact Does.refl

theorem execHoldTimeout_runs {s} : Runs [.agenda, .causes, .tbs] [1] s (execHoldTimeout s) := by
  unfold execHoldTimeout
  refine Runs.ite (fun _ => ?_) (fun _ => ?_)
  · refine Runs.next ?_
    exact Does.refl
  · refine Runs.ite (fun _ => ?_) (fun _ => ?_)
    · refine Runs.next ?_
      refine Does.call State.enterHoldover_does (by decide +kernel) ?_
      refine Does.setBit adr_TBS_STATE (by decide +kernel) ?_
      exact Does.refl
    · refine Runs.next ?_
      refine Does.setBit adr_TBS_STATE (by decide +kernel) ?_
      exact Does.refl

theorem execTbsAnchor_runs {s} : Runs [.acq] [] s (execTbsAnchor s) := by
  unfold execTbsAnchor
  refine Runs.next ?_
  refine Does.call State.anchor_does (by decide +kernel) ?_
  exact Does.refl

theorem execColTimeSend_runs {s} : Runs [.out, .tbs, .links] [] s (execColTimeSend s) := by
  unfold execColTimeSend
  extract_lets -underBinder -merge -useContext x1 x2 x3 x4
  refine Runs.ite (fun _ => ?_) (fun _ => ?_)
  · refine Runs.next ?_
    refine Does.call State.sentOn_does (by decide +kernel) ?_
    refine Does.call State.emit_does (by decide +kernel) ?_
    refine Does.put_tbs (by decide +kernel) ?_
    exact Does.refl
  · refine Runs.next ?_
    exact Does.refl

theorem execFreqSlew_runs {s} : Runs [.free, .tbs] [1] s (execFreqSlew s) := by
  unfold execFreqSlew
  refine Runs.next ?_
  refine Does.ite (fun _ => ?_) (fun _ => ?_)
  · refine Does.call State.slewFreq_does (by decide +kernel) ?_
    exact Does.refl
  · exact Does.refl

end Sys2Proof.Machine
end

