-- ==== Sys2Proof/Laws/Management.lean ====
section
/-! SUPPORT. What each operation of Machine/Management.lean may change (Laws/Frame.lean says how to read it). -/
namespace Sys2Proof.Machine

set_option Elab.async false

theorem State.condition_does {s fs isl rise clear} : Does [.agenda, .causes] [] s (State.condition s fs isl rise clear) := by
  unfold State.condition
  refine Does.ite (fun _ => ?_) (fun _ => ?_)
  · refine Does.ite (fun _ => ?_) (fun _ => ?_)
    · exact Does.refl
    · refine Does.call State.raise_does (by decide +kernel) ?_
      refine Does.call State.causeOn_does (by decide +kernel) ?_
      exact Does.refl
  · refine Does.ite (fun _ => ?_) (fun _ => ?_)
    · refine Does.call State.causeOff_does (by decide +kernel) ?_
      exact Does.refl
    · exact Does.refl

theorem State.mgtReply_does {s p cmd req status body} : Does [.out, .links] [] s (State.mgtReply s p cmd req status body) := by
  unfold State.mgtReply
  refine Does.foldl ?_ ?_
  · intro y1 y2
    beta_reduce
    refine Does.call State.sendFrame_does (by decide +kernel) ?_
    exact Does.refl
  · exact Does.refl

theorem Does.serve {ps bs s t p cmd req engineer status body f} (w : within [.out, .links] [] ps bs = true)
    (h : ∀ t, Does ps bs t (f t)) (g : Does ps bs s t) :
    Does ps bs s (State.serve t p cmd req engineer status body f) := by
  unfold State.serve
  have k : ∀ {u st bd}, Does [.out, .links] [] u (State.mgtReply u p cmd req st bd) :=
    fun {_ _ _} => State.mgtReply_does.mono (by decide +kernel)
  exact Does.ite (fun _ => g) (fun _ => Does.ite (fun _ => k.call w ((h t).after g)) (fun _ => k.call w g))

theorem State.setSlots_does {s p xs} : Does [.mgt] [16] s (State.setSlots s p xs) := by
  unfold State.setSlots
  extract_lets -underBinder -merge -useContext x1 x2 x3 x4
  refine Does.lets x1 ?_ (fun hx1 => ?_)
  · unfold x1
    refine Does.setFld adr_MGT_STAT (by decide +kernel) ?_
    exact Does.refl
  refine Does.lets x3 ?_ (fun hx3 => ?_)
  · unfold x3
    refine Does.setFld adr_MGT_STAT (by decide +kernel) ?_
    exact Does.refl
  refine Does.ite (fun _ => ?_) (fun _ => ?_)
  · refine Does.put_mgt (by decide +kernel) ?_
    exact hx1
  · refine Does.put_mgt (by decide +kernel) ?_
    exact hx3

theorem execGetreply_runs {p req ofReq s} : Runs [.out, .links, .mgt] [16] s (execGetreply p req ofReq s) := by
  unfold execGetreply
  split
  · split
    · refine Runs.next ?_
      refine Does.serve (by decide +kernel) ?_ ?_
      · intro y1
        beta_reduce
        refine Does.call State.setSlots_does (by decide +kernel) ?_
        exact Does.refl
      · exact Does.refl
    · refine Runs.next ?_
      refine Does.serve (by decide +kernel) ?_ ?_
      · intro y2
        exact Does.refl
      · exact Does.refl
  · refine Runs.next ?_
    refine Does.serve (by decide +kernel) ?_ ?_
    · intro y3
      exact Does.refl
    · exact Does.refl

theorem execReplyReady_runs {p req s} : Runs [.out, .links, .mgt] [16] s (execReplyReady p req s) := by
  unfold execReplyReady
  extract_lets -underBinder -merge -useContext x1
  refine Runs.lets x1 ?_ (fun hx1 => ?_)
  · unfold x1
    refine Does.call State.setSlots_does (by decide +kernel) ?_
    exact Does.refl
  refine Runs.ite (fun _ => ?_) (fun _ => ?_)
  · refine Runs.next ?_
    refine Does.ite (fun _ => ?_) (fun _ => ?_)
    · refine Does.call State.evtTo_does (by decide +kernel) ?_
      exact hx1
    · exact hx1
  · refine Runs.next ?_
    exact Does.refl

theorem State.judgeSensors_does {s} : Does [.agenda, .causes] [] s (State.judgeSensors s) := by
  unfold State.judgeSensors
  extract_lets -underBinder -merge -useContext x1 x2 x3 x4 x5 x6 x7
  refine Does.lets x3 ?_ (fun hx3 => ?_)
  · unfold x3
    refine Does.call State.condition_does (by decide +kernel) ?_
    exact Does.refl
  refine Does.lets x4 ?_ (fun hx4 => ?_)
  · unfold x4
    refine Does.call State.condition_does (by decide +kernel) ?_
    exact hx3
  refine Does.lets x6 ?_ (fun hx6 => ?_)
  · unfold x6
    refine Does.call State.condition_does (by decide +kernel) ?_
    exact hx4
  refine Does.call State.condition_does (by decide +kernel) ?_
  exact hx6

theorem execStatus_runs {p req s} : Runs [.out, .links] [] s (execStatus p req s) := by
  unfold execStatus
  refine Runs.next ?_
  refine Does.serve (by decide +kernel) ?_ ?_
  · intro y1
    exact Does.refl
  · exact Does.refl

theorem execSensors_runs {p req s} : Runs [.out, .links, .mgt] [] s (execSensors p req s) := by
  unfold execSensors
  extract_lets -underBinder -merge -useContext x1
  refine Runs.next ?_
  refine Does.serve (by decide +kernel) ?_ ?_
  · intro y2
    beta_reduce
    refine Does.foldl ?_ ?_
    · intro y3 y4
      beta_reduce
      extract_lets -underBinder -merge -useContext x5
      refine Does.put_mgt (by decide +kernel) ?_
      exact Does.refl
    · exact Does.refl
  · exact Does.refl

theorem State.servePending_does {s p cmd req} : Does [.out, .links, .mgt] [16] s (State.servePending s p cmd req) := by
  unfold State.servePending
  refine Does.call State.mgtReply_does (by decide +kernel) ?_
  refine Does.call State.setSlots_does (by decide +kernel) ?_
  exact Does.refl

theorem execStrcopy_runs {p req k offset s} : Runs [.out, .hbmMem, .links] [] s (execStrcopy p req k offset s) := by
  unfold execStrcopy
  refine Runs.ite (fun _ => ?_) (fun _ => ?_)
  · refine Runs.next ?_
    refine Does.serve (by decide +kernel) ?_ ?_
    · intro y1
      exact Does.refl
    · exact Does.refl
  · split
    · refine Runs.next ?_
      refine Does.serve (by decide +kernel) ?_ ?_
      · intro y2
        exact Does.refl
      · exact Does.refl
    · extract_lets -underBinder -merge -useContext x3
      refine Runs.ite (fun _ => ?_) (fun _ => ?_)
      · refine Runs.next ?_
        refine Does.serve (by decide +kernel) ?_ ?_
        · intro y4
          beta_reduce
          refine Does.put_hbmMem (by decide +kernel) (fun h => Memory.wf_writeBytes _ _ _ h) ?_
          exact Does.refl
        · exact Does.refl
      · refine Runs.next ?_
        refine Does.serve (by decide +kernel) ?_ ?_
        · intro y5
          exact Does.refl
        · exact Does.refl

theorem State.setFwSlot_does {s b x} : Does [.mgt] [16] s (State.setFwSlot s b x) := by
  unfold State.setFwSlot
  extract_lets -underBinder -merge -useContext x1 x2 x3
  refine Does.lets x1 ?_ (fun hx1 => ?_)
  · unfold x1
    refine Does.setReg adr_MGT_FWVER (by decide +kernel) ?_
    exact Does.refl
  refine Does.ite (fun _ => ?_) (fun _ => ?_)
  · refine Does.put_mgt (by decide +kernel) ?_
    exact hx1
  · refine Does.put_mgt (by decide +kernel) ?_
    exact hx1

theorem execUpdate_runs {p req offset len s} : Runs [.out, .links, .mgt] [16] s (execUpdate p req offset len s) := by
  unfold execUpdate
  extract_lets -underBinder -merge -useContext x1 x2 x3 x4 x5
  refine Runs.lets x3 ?_ (fun hx3 => ?_)
  · unfold x3
    refine Does.call State.servePending_does (by decide +kernel) ?_
    exact Does.refl
  refine Runs.lets x4 ?_ (fun hx4 => ?_)
  · unfold x4
    refine Does.ite (fun _ => ?_) (fun _ => ?_)
    · refine Does.call State.setFwSlot_does (by decide +kernel) ?_
      exact hx3
    · exact hx3
  refine Runs.ite (fun _ => ?_) (fun _ => ?_)
  · refine Runs.next ?_
    exact Does.refl
  · refine Runs.ite (fun _ => ?_) (fun _ => ?_)
    · refine Runs.next ?_
      refine Does.call State.mgtReply_does (by decide +kernel) ?_
      exact Does.refl
    · refine Runs.ite (fun _ => ?_) (fun _ => ?_)
      · refine Runs.next ?_
        refine Does.call State.mgtReply_does (by decide +kernel) ?_
        exact Does.refl
      · refine Runs.ite (fun _ => ?_) (fun _ => ?_)
        · refine Runs.next ?_
          refine Does.call State.mgtReply_does (by decide +kernel) ?_
          exact Does.refl
        · refine Runs.next ?_
          refine Does.setFld adr_MGT_FW (by decide +kernel) ?_
          refine Does.put_mgt (by decide +kernel) ?_
          exact hx4

theorem execReplyDiscard_runs {p req s} : Runs [.mgt] [16] s (execReplyDiscard p req s) := by
  unfold execReplyDiscard
  split
  · refine Runs.next ?_
    refine Does.ite (fun _ => ?_) (fun _ => ?_)
    · refine Does.call State.setSlots_does (by decide +kernel) ?_
      exact Does.refl
    · exact Does.refl
  · refine Runs.next ?_
    exact Does.refl

theorem State.busyAll_does {s p} : Does [.out, .links] [] s (State.busyAll s p) := by
  unfold State.busyAll
  refine Does.foldl ?_ ?_
  · intro y1 y2
    beta_reduce
    refine Does.call State.mgtReply_does (by decide +kernel) ?_
    exact Does.refl
  · exact Does.refl

theorem execConfirm_runs {p req s} : Runs [.out, .links, .sec, .mgt] [16, 18] s (execConfirm p req s) := by
  unfold execConfirm
  refine Runs.next ?_
  refine Does.serve (by decide +kernel) ?_ ?_
  · intro y1
    beta_reduce
    extract_lets -underBinder -merge -useContext x2 x3 x4 x5 x6
    refine Does.lets x2 ?_ (fun hx2 => ?_)
    · unfold x2
      refine Does.setBit adr_MGT_FW (by decide +kernel) ?_
      exact Does.refl
    refine Does.lets x4 ?_ (fun hx4 => ?_)
    · unfold x4
      refine Does.setReg adr_SEC_FLOOR (by decide +kernel) ?_
      exact hx2
    refine Does.lets x6 ?_ (fun hx6 => ?_)
    · unfold x6
      refine Does.ite (fun _ => ?_) (fun _ => ?_)
      · refine Does.put_sec (by decide +kernel) ?_
        exact hx4
      · exact hx2
    refine Does.call State.log_does (by decide +kernel) ?_
    exact hx6
  · exact Does.refl

theorem execRollback_runs {p req s} : Runs [.out, .links, .mgt] [16] s (execRollback p req s) := by
  unfold execRollback
  extract_lets -underBinder -merge -useContext x1 x2
  refine Runs.ite (fun _ => ?_) (fun _ => ?_)
  · refine Runs.next ?_
    refine Does.serve (by decide +kernel) ?_ ?_
    · intro y3
      exact Does.refl
    · exact Does.refl
  · refine Runs.ite (fun _ => ?_) (fun _ => ?_)
    · refine Runs.next ?_
      refine Does.serve (by decide +kernel) ?_ ?_
      · intro y4
        exact Does.refl
      · exact Does.refl
    · refine Runs.next ?_
      refine Does.serve (by decide +kernel) ?_ ?_
      · intro y5
        beta_reduce
        refine Does.call State.log_does (by decide +kernel) ?_
        refine Does.setFld adr_MGT_FW (by decide +kernel) ?_
        exact Does.refl
      · exact Does.refl

theorem execHistory_runs {p req sensor from_ s} : Runs [.out, .links] [] s (execHistory p req sensor from_ s) := by
  unfold execHistory
  refine Runs.ite (fun _ => ?_) (fun _ => ?_)
  · refine Runs.next ?_
    refine Does.serve (by decide +kernel) ?_ ?_
    · intro y1
      exact Does.refl
    · exact Does.refl
  · refine Runs.next ?_
    refine Does.serve (by decide +kernel) ?_ ?_
    · intro y2
      exact Does.refl
    · exact Does.refl

theorem State.storeSamples_does {s values powers} : Does [.mgt] [16] s (State.storeSamples s values powers) := by
  unfold State.storeSamples
  extract_lets -underBinder -merge -useContext x1
  refine Does.lets x1 ?_ (fun hx1 => ?_)
  · unfold x1
    refine Does.foldl ?_ ?_
    · intro y2 y3
      beta_reduce
      extract_lets -underBinder -merge -useContext x4 x5 x6 x7
      refine Does.lets x6 ?_ (fun hx6 => ?_)
      · unfold x6
        refine Does.setReg adr_MGT_SENS (by decide +kernel) ?_
        exact Does.refl
      refine Does.put_mgt (by decide +kernel) ?_
      exact hx6
    · exact Does.refl
  refine Does.foldl ?_ ?_
  · intro y8 y9
    beta_reduce
    refine Does.setReg adr_MGT_RPWR (by decide +kernel) ?_
    exact Does.refl
  · exact hx1

theorem State.warn_does {s n} : Does [.fresh, .mgt] [16] s (State.warn s n) := by
  unfold State.warn
  extract_lets -underBinder -merge -useContext x1
  refine Does.lets x1 ?_ (fun hx1 => ?_)
  · unfold x1
    refine Does.latch adr_MGT_WARNLAT (by decide +kernel) ?_
    exact Does.refl
  refine Does.ite (fun _ => ?_) (fun _ => ?_)
  · refine Does.ite (fun _ => ?_) (fun _ => ?_)
    · exact hx1
    · refine Does.call State.log_does (by decide +kernel) ?_
      exact hx1
  · exact Does.refl

theorem execLogmark_runs {p req text s} : Runs [.out, .links, .mgt] [16] s (execLogmark p req text s) := by
  unfold execLogmark
  refine Runs.next ?_
  refine Does.serve (by decide +kernel) ?_ ?_
  · intro y1
    beta_reduce
    refine Does.call State.log_does (by decide +kernel) ?_
    exact Does.refl
  · exact Does.refl

theorem execWatchdogExpiry_runs {s} : Runs [.agenda, .free, .fresh, .out, .links, .mgt] [16] s (execWatchdogExpiry s) := by
  unfold execWatchdogExpiry
  extract_lets -underBinder -merge -useContext x1 x2 x3 x4 x5 x6
  refine Runs.lets x1 ?_ (fun hx1 => ?_)
  · unfold x1
    refine Does.call State.busyAll_does (by decide +kernel) ?_
    refine Does.call State.busyAll_does (by decide +kernel) ?_
    exact Does.refl
  refine Runs.lets x2 ?_ (fun hx2 => ?_)
  · unfold x2
    refine Does.call State.setSlots_does (by decide +kernel) ?_
    refine Does.call State.setSlots_does (by decide +kernel) ?_
    exact hx1
  refine Runs.lets x3 ?_ (fun hx3 => ?_)
  · unfold x3
    refine Does.ite (fun _ => ?_) (fun _ => ?_)
    · refine Does.setFld adr_MGT_FW (by decide +kernel) ?_
      exact hx2
    · exact hx2
  refine Runs.lets x5 ?_ (fun hx5 => ?_)
  · unfold x5
    clear_value x3
    refine Does.put (t := x3) [.agenda, .mgt] ?_ (by decide +kernel) ?_ ?_ ?_ ?_ ?_
    · exact hx3
    · rfl
    · rfl
    · rfl
    · rfl
    · intro p hp; cases p <;> first | exact absurd (by decide) hp | rfl
  refine Runs.lets2 x6 ?_ (fun hx6 => ?_)
  · unfold x6
    refine Does2.call State.draw_does (by decide +kernel) ?_
    exact hx5
  refine Runs.next ?_
  refine Does.call State.raise_does (by decide +kernel) ?_
  refine Does.call State.log_does (by decide +kernel) ?_
  refine Does.latch adr_MGT_LAT (by decide +kernel) ?_
  refine Does.bump adr_MGT_WDOG (by decide +kernel) ?_
  refine Does2.snd ?_
  exact hx6

theorem State.eraseFieldRecords_does {s} : Does [.calRec] [] s (State.eraseFieldRecords s) := by
  unfold State.eraseFieldRecords
  extract_lets -underBinder -merge -useContext x1
  refine Does.put_calRec (by decide +kernel) ?_
  exact Does.refl

theorem execUpdateDone_runs {written verified s} : Runs [.mgt] [16] s (execUpdateDone written verified s) := by
  unfold execUpdateDone
  extract_lets -underBinder -merge -useContext x1 x2 x3 x4 x5
  refine Runs.lets x2 ?_ (fun hx2 => ?_)
  · unfold x2
    refine Does.ite (fun _ => ?_) (fun _ => ?_)
    · refine Does.setFld adr_MGT_FW (by decide +kernel) ?_
      refine Does.call State.setFwSlot_does (by decide +kernel) ?_
      exact Does.refl
    · refine Does.setFld adr_MGT_FW (by decide +kernel) ?_
      exact Does.refl
  refine Runs.lets x5 ?_ (fun hx5 => ?_)
  · unfold x5
    refine Does.put_mgt (by decide +kernel) ?_
    exact hx2
  refine Runs.ite (fun _ => ?_) (fun _ => ?_)
  · refine Runs.next ?_
    refine Does.call State.log_does (by decide +kernel) ?_
    exact hx5
  · refine Runs.next ?_
    exact Does.refl

theorem execLoadWindow_runs {load s} : Runs [.agenda, .causes, .fresh, .mgt] [16] s (execLoadWindow load s) := by
  unfold execLoadWindow
  extract_lets -underBinder -merge -useContext x1 x2 x3 x4 x5 x6 x7
  refine Runs.lets x2 ?_ (fun hx2 => ?_)
  · unfold x2
    refine Does.put_mgt (by decide +kernel) ?_
    exact Does.refl
  refine Runs.lets x5 ?_ (fun hx5 => ?_)
  · unfold x5
    refine Does.setFld adr_MGT_STAT (by decide +kernel) ?_
    refine Does.setFld adr_MGT_STAT (by decide +kernel) ?_
    exact hx2
  refine Runs.lets x6 ?_ (fun hx6 => ?_)
  · unfold x6
    refine Does.ite (fun _ => ?_) (fun _ => ?_)
    · refine Does.latch adr_MGT_LAT (by decide +kernel) ?_
      exact hx5
    · exact hx5
  refine Runs.lets x7 ?_ (fun hx7 => ?_)
  · unfold x7
    refine Does.ite (fun _ => ?_) (fun _ => ?_)
    · refine Does.call State.log_does (by decide +kernel) ?_
      exact hx6
    · exact hx6
  refine Runs.ite (fun _ => ?_) (fun _ => ?_)
  · refine Runs.next ?_
    exact Does.refl
  · refine Runs.next ?_
    refine Does.call State.condition_does (by decide +kernel) ?_
    exact hx7

theorem State.askSig_does {s r} : Does [.sec] [] s (State.askSig s r) := by
  unfold State.askSig
  extract_lets -underBinder -merge -useContext x1
  refine Does.put_sec (by decide +kernel) ?_
  exact Does.refl

theorem execConftoExpiry_runs {s} : Runs [.fresh, .mgt] [16] s (execConftoExpiry s) := by
  unfold execConftoExpiry
  extract_lets -underBinder -merge -useContext x1 x2
  refine Runs.lets x1 ?_ (fun hx1 => ?_)
  · unfold x1
    refine Does.latch adr_MGT_LAT (by decide +kernel) ?_
    refine Does.setFld adr_MGT_FW (by decide +kernel) ?_
    exact Does.refl
  refine Runs.ite (fun _ => ?_) (fun _ => ?_)
  · refine Runs.next ?_
    refine Does.call State.log_does (by decide +kernel) ?_
    refine Does.put_mgt (by decide +kernel) ?_
    exact hx1
  · refine Runs.next ?_
    exact Does.refl

theorem execLogread_runs {p req index n s} : Runs [.out, .links] [] s (execLogread p req index n s) := by
  unfold execLogread
  extract_lets -underBinder -merge -useContext x1 x2
  refine Runs.next ?_
  refine Does.serve (by decide +kernel) ?_ ?_
  · intro y3
    exact Does.refl
  · exact Does.refl

end Sys2Proof.Machine
end

