-- ==== Sys2Proof/Laws/Pins.lean ====
section
/-! SUPPORT. What each operation of Machine/Pins.lean may change (Laws/Frame.lean says how to read it). -/
namespace Sys2Proof.Machine

set_option Elab.async false

theorem State.judgeLate_does {s ch start} : Does [.agenda, .fresh] [1, 64] s (State.judgeLate s ch start) := by
  unfold State.judgeLate
  extract_lets -underBinder -merge -useContext x1
  refine Does.ite (fun _ => ?_) (fun _ => ?_)
  · refine Does.call State.lateInternal_does (by decide +kernel) ?_
    refine Does.bump adr_CH_LATE (by decide +kernel) ?_
    exact Does.refl
  · exact Does.refl

theorem State.setChan_does {s ch x} : Does [.chans] [] s (State.setChan s ch x) := by
  unfold State.setChan
  refine Does.put_chans (by decide +kernel) ?_
  exact Does.refl

theorem State.setInh_does {s ch on} : Does [.chans] [64] s (State.setInh s ch on) := by
  unfold State.setInh
  extract_lets -underBinder -merge -useContext x1 x2 x3
  refine Does.lets x3 ?_ (fun hx3 => ?_)
  · unfold x3
    refine Does.setBit adr_CH_STAT (by decide +kernel) ?_
    refine Does.call State.setChan_does (by decide +kernel) ?_
    exact Does.refl
  refine Does.setBit adr_ISL_STAT (by decide +kernel) ?_
  exact hx3

theorem State.showInh_does {s ch} : Does [.fresh, .chans] [64] s (State.showInh s ch) := by
  unfold State.showInh
  extract_lets -underBinder -merge -useContext x1 x2 x3 x4
  refine Does.lets x3 ?_ (fun hx3 => ?_)
  · unfold x3
    refine Does.ite (fun _ => ?_) (fun _ => ?_)
    · refine Does.latch adr_CH_INH (by decide +kernel) ?_
      exact Does.refl
    · exact Does.refl
  refine Does.lets x4 ?_ (fun hx4 => ?_)
  · unfold x4
    refine Does.ite (fun _ => ?_) (fun _ => ?_)
    · refine Does.latch adr_CH_INH (by decide +kernel) ?_
      exact hx3
    · exact hx3
  refine Does.call State.setInh_does (by decide +kernel) ?_
  exact hx4

theorem execSafeNRise_runs {s} : Runs [.causes, .fresh, .chans, .twn, .power] [64] s (execSafeNRise s) := by
  unfold execSafeNRise
  extract_lets -underBinder -merge -useContext x1 x2 x3 x4
  refine Runs.lets x2 ?_ (fun hx2 => ?_)
  · unfold x2
    refine Does.call State.causeOff_does (by decide +kernel) ?_
    refine Does.put_power (by decide +kernel) ?_
    exact Does.refl
  refine Runs.lets x4 ?_ (fun hx4 => ?_)
  · unfold x4
    refine Does.put_twn (by decide +kernel) ?_
    exact hx2
  refine Runs.next ?_
  refine Does.foldl ?_ ?_
  · intro y5 y6
    beta_reduce
    refine Does.foldl ?_ ?_
    · intro y7 y8
      beta_reduce
      refine Does.call State.showInh_does (by decide +kernel) ?_
      exact Does.refl
    · refine Does.setBit adr_ISL_STAT (by decide +kernel) ?_
      exact Does.refl
  · exact hx4

theorem State.setPin_does {s n p x} : Does [.pins] [] s (State.setPin s n p x) := by
  unfold State.setPin
  refine Does.put_pins (by decide +kernel) ?_
  exact Does.refl

theorem State.freeSlave_does {s n p} : Does [.pins] [] s (State.freeSlave s n p) := by
  unfold State.freeSlave
  extract_lets -underBinder -merge -useContext x1
  refine Does.ite (fun _ => ?_) (fun _ => ?_)
  · refine Does.call State.setPin_does (by decide +kernel) ?_
    exact Does.refl
  · exact Does.refl

theorem State.forcePin_does {s n p at_} : Does [.pins] [] s (State.forcePin s n p at_) := by
  unfold State.forcePin
  extract_lets -underBinder -merge -useContext x1 x2
  refine Does.ite (fun _ => ?_) (fun _ => ?_)
  · refine Does.call State.setPin_does (by decide +kernel) ?_
    exact Does.refl
  · exact Does.refl

theorem State.goffPins_does {s n p start} : Does [.pins] [] s (State.goffPins s n p start) := by
  unfold State.goffPins
  extract_lets -underBinder -merge -useContext x1
  refine Does.lets x1 ?_ (fun hx1 => ?_)
  · unfold x1
    refine Does.call State.forcePin_does (by decide +kernel) ?_
    exact Does.refl
  refine Does.ite (fun _ => ?_) (fun _ => ?_)
  · refine Does.call State.forcePin_does (by decide +kernel) ?_
    exact hx1
  · exact hx1

theorem State.latchSet_does {s n p start set slot period release off} : Does [.agenda, .fresh, .pins] [64] s (State.latchSet
      s n p start set slot period release off) := by
  unfold State.latchSet
  extract_lets -underBinder -merge -useContext x1 x2 x3 x4 x5 x6 x7 x8 x9 x10 x11 x12
  refine Does.lets x2 ?_ (fun hx2 => ?_)
  · unfold x2
    refine Does.ite (fun _ => ?_) (fun _ => ?_)
    · refine Does.call State.goffPins_does (by decide +kernel) ?_
      exact Does.refl
    · exact Does.refl
  refine Does.lets x10 ?_ (fun hx10 => ?_)
  · unfold x10
    refine Does.ite (fun _ => ?_) (fun _ => ?_)
    · refine Does.call State.freeSlave_does (by decide +kernel) ?_
      exact hx2
    · exact hx2
  refine Does.lets x11 ?_ (fun hx11 => ?_)
  · unfold x11
    refine Does.call State.setPin_does (by decide +kernel) ?_
    exact hx10
  refine Does.lets x12 ?_ (fun hx12 => ?_)
  · unfold x12
    refine Does.setReg adr_ISL_EREJ (by decide +kernel) ?_
    exact hx11
  refine Does.ite (fun _ => ?_) (fun _ => ?_)
  · refine Does.call State.setPin_does (by decide +kernel) ?_
    exact hx10
  · refine Does.call State.raise_does (by decide +kernel) ?_
    refine Does.latch adr_ISL_LAT (by decide +kernel) ?_
    exact hx12

theorem State.safeSeen_does {s} : Does [.twn, .power] [14] s (State.safeSeen s) := by
  unfold State.safeSeen
  extract_lets -underBinder -merge -useContext x1 x2 x3
  refine Does.lets x1 ?_ (fun hx1 => ?_)
  · unfold x1
    refine Does.ite (fun _ => ?_) (fun _ => ?_)
    · refine Does.setReg adr_TWN_JOIN (by decide +kernel) ?_
      exact Does.refl
    · exact Does.refl
  clear_value x1
  refine Does.put (t := x1) [.twn, .power] ?_ (by decide +kernel) ?_ ?_ ?_ ?_ ?_
  · exact hx1
  · rfl
  · rfl
  · rfl
  · rfl
  · intro p hp; cases p <;> first | exact absurd (by decide) hp | rfl

theorem State.forcePins_does {s ch all at_} : Does [.pins] [] s (State.forcePins s ch all at_) := by
  unfold State.forcePins
  refine Does.foldl ?_ ?_
  · intro y1 y2
    beta_reduce
    refine Does.ite (fun _ => ?_) (fun _ => ?_)
    · refine Does.call State.forcePin_does (by decide +kernel) ?_
      exact Does.refl
    · exact Does.refl
  · exact Does.refl

theorem State.driversOff_does {s ch} : Does [.chans, .pins] [64] s (State.driversOff s ch) := by
  unfold State.driversOff
  extract_lets -underBinder -merge -useContext x1 x2 x3 x4 x5
  refine Does.lets x3 ?_ (fun hx3 => ?_)
  · unfold x3
    refine Does.call State.forcePins_does (by decide +kernel) ?_
    exact Does.refl
  refine Does.lets x4 ?_ (fun hx4 => ?_)
  · unfold x4
    refine Does.setBit adr_CH_STAT (by decide +kernel) ?_
    refine Does.setBit adr_CH_CTL (by decide +kernel) ?_
    exact hx3
  refine Does.call State.setChan_does (by decide +kernel) ?_
  exact hx4

theorem State.safeIsland_does {s n} : Does [.agenda, .free, .fresh, .chans, .pins] [1, 3, 64] s (State.safeIsland s n) := by
  unfold State.safeIsland
  extract_lets -underBinder -merge -useContext x1 x2
  refine Does.lets x2 ?_ (fun hx2 => ?_)
  · unfold x2
    refine Does.call State.raise_does (by decide +kernel) ?_
    refine Does.latch adr_ISL_STAT (by decide +kernel) ?_
    refine Does.latch adr_ISL_LAT (by decide +kernel) ?_
    exact Does.refl
  refine Does.foldl ?_ ?_
  · intro y3 y4
    beta_reduce
    extract_lets -underBinder -merge -useContext x5 x6 x7 x8
    refine Does.lets x7 ?_ (fun hx7 => ?_)
    · unfold x7
      refine Does.call State.showInh_does (by decide +kernel) ?_
      refine Does.latch adr_CH_INH (by decide +kernel) ?_
      refine Does.call State.driversOff_does (by decide +kernel) ?_
      exact Does.refl
    refine Does.lets x8 ?_ (fun hx8 => ?_)
    · unfold x8
      refine Does.call State.post_does (by decide +kernel) ?_
      exact hx7
    refine Does.ite (fun _ => ?_) (fun _ => ?_)
    · refine Does.call State.excursion_does (by decide +kernel) ?_
      exact hx8
    · exact hx8
  · exact hx2

theorem State.deliver_does {s ch due goff set} : Does [.chans] [64] s (State.deliver s ch due goff set) := by
  unfold State.deliver
  extract_lets -underBinder -merge -useContext x1 x2 x3 x4 x5 x6 x7
  refine Does.letsF1 x5 ?_ (fun hx5 => ?_)
  · intro y8 y9; unfold x5
    extract_lets -underBinder -merge -useContext x10
    refine Does.ite (fun _ => ?_) (fun _ => ?_)
    · refine Does.foldl ?_ ?_
      · intro y11 y12
        beta_reduce
        refine Does.setReg adr_EDGE (by decide +kernel) ?_
        exact Does.refl
      · exact Does.refl
    · exact Does.refl
  refine Does.lets x6 ?_ (fun hx6 => ?_)
  · unfold x6
    refine Does.foldl ?_ ?_
    · intro y13 y14
      refine (hx5 _ _).after ?_
      exact Does.refl
    · exact Does.refl
  refine Does.call State.setChan_does (by decide +kernel) ?_
  exact hx6

theorem State.takeEdges_does {s ch now} : Does [.agenda, .chans] [64] s (State.takeEdges s ch now) := by
  unfold State.takeEdges
  extract_lets -underBinder -merge -useContext x1
  refine Does.foldl ?_ ?_
  · intro y2 y3
    beta_reduce
    split
    · refine Does.call State.deliver_does (by decide +kernel) ?_
      exact Does.refl
    · exact Does.refl
  · refine Does.put_agenda (by decide +kernel) ?_
    exact Does.refl

theorem State.clearPs_does {s ch} : Does [.causes, .fresh, .mons, .twn] [64] s (State.clearPs s ch) := by
  unfold State.clearPs
  extract_lets -underBinder -merge -useContext x1
  refine Does.foldl ?_ ?_
  · intro y2 y3
    beta_reduce
    refine Does.ite (fun _ => ?_) (fun _ => ?_)
    · refine Does.call State.monChange_does (by decide +kernel) ?_
      exact Does.refl
    · exact Does.refl
  · exact Does.refl

theorem State.settleInh_does {s ch} : Does [.fresh, .chans] [64] s (State.settleInh s ch) := by
  unfold State.settleInh
  refine Does.foldl ?_ ?_
  · intro y1 y2
    beta_reduce
    refine Does.call State.showInh_does (by decide +kernel) ?_
    exact Does.refl
  · exact Does.refl

theorem State.setLevel_does {s n p at_} : Does [.pins] [] s (State.setLevel s n p at_) := by
  unfold State.setLevel
  extract_lets -underBinder -merge -useContext x1 x2
  refine Does.call State.setPin_does (by decide +kernel) ?_
  exact Does.refl

theorem State.takeEnable_does {s ch start} : Does [.fresh, .chans, .pins] [64] s (State.takeEnable s ch start) := by
  unfold State.takeEnable
  extract_lets -underBinder -merge -useContext x1 x2 x3 x4
  refine Does.lets x4 ?_ (fun hx4 => ?_)
  · unfold x4
    refine Does.call State.setChan_does (by decide +kernel) ?_
    refine Does.latch adr_CH_STAT (by decide +kernel) ?_
    exact Does.refl
  refine Does.foldl ?_ ?_
  · intro y5 y6
    beta_reduce
    refine Does.ite (fun _ => ?_) (fun _ => ?_)
    · refine Does.call State.setLevel_does (by decide +kernel) ?_
      exact Does.refl
    · exact Does.refl
  · exact hx4

theorem State.startPeriod_does {s ch start} : Does [.agenda, .fresh, .chans, .pins] [1, 64] s (State.startPeriod s ch start) := by
  unfold State.startPeriod
  extract_lets -underBinder -merge -useContext x1 x2 x3 x4 x5 x6 x7 x8 x9 x10 x11 x12 x13 x14 x15 x16 x17 x18 x19
  refine Does.lets x6 ?_ (fun hx6 => ?_)
  · unfold x6
    refine Does.ite (fun _ => ?_) (fun _ => ?_)
    · refine Does.call State.takeEnable_does (by decide +kernel) ?_
      exact Does.refl
    · exact Does.refl
  refine Does.lets x7 ?_ (fun hx7 => ?_)
  · unfold x7
    refine Does.call State.judgeLate_does (by decide +kernel) ?_
    exact hx6
  refine Does.letsF1 x15 ?_ (fun hx15 => ?_)
  · intro y20 y21; unfold x15
    refine Does.ite (fun _ => ?_) (fun _ => ?_)
    · refine Does.ite (fun _ => ?_) (fun _ => ?_)
      · clear_value x10
        split
        · extract_lets -underBinder -merge -useContext x22
          refine Does.call State.latchSet_does (by decide +kernel) ?_
          exact Does.refl
        · refine Does.call State.latchSet_does (by decide +kernel) ?_
          exact Does.refl
      · refine Does.ite (fun _ => ?_) (fun _ => ?_)
        · refine Does.ite (fun _ => ?_) (fun _ => ?_)
          · refine Does.call State.latchSet_does (by decide +kernel) ?_
            exact Does.refl
          · exact Does.refl
        · refine Does.call State.latchSet_does (by decide +kernel) ?_
          exact Does.refl
    · exact Does.refl
  refine Does.lets x16 ?_ (fun hx16 => ?_)
  · unfold x16
    refine Does.foldl ?_ ?_
    · intro y23 y24
      refine (hx15 _ _).after ?_
      exact Does.refl
    · exact hx7
  refine Does.lets x18 ?_ (fun hx18 => ?_)
  · unfold x18
    refine Does.call State.setInh_does (by decide +kernel) ?_
    refine Does.setFld adr_CH_STAT (by decide +kernel) ?_
    exact hx16
  refine Does.call State.setChan_does (by decide +kernel) ?_
  exact hx18

theorem State.takePeriod_does {s ch start} : Does [.chans] [64] s (State.takePeriod s ch start) := by
  unfold State.takePeriod
  split
  · extract_lets -underBinder -merge -useContext x1
    refine Does.ite (fun _ => ?_) (fun _ => ?_)
    · refine Does.call State.setChan_does (by decide +kernel) ?_
      refine Does.setFld adr_CH_PERIOD (by decide +kernel) ?_
      exact Does.refl
    · exact Does.refl
  · exact Does.refl

theorem State.periodAt_does {s ch start} : Does [.agenda, .causes, .fresh, .chans, .pins, .mons, .twn] [1, 64] s
      (State.periodAt s ch start) := by
  unfold State.periodAt
  extract_lets -underBinder -merge -useContext x1
  refine Does.lets x1 ?_ (fun hx1 => ?_)
  · unfold x1
    refine Does.call State.clearPs_does (by decide +kernel) ?_
    refine Does.call State.takePeriod_does (by decide +kernel) ?_
    refine Does.call State.takeEdges_does (by decide +kernel) ?_
    refine Does.call State.takeEdges_does (by decide +kernel) ?_
    exact Does.refl
  refine Does.call State.startPeriod_does (by decide +kernel) ?_
  refine Does.call State.settleInh_does (by decide +kernel) ?_
  exact hx1

theorem State.cutCode_does {s n} : Does [.codes] [64] s (State.cutCode s n) := by
  unfold State.cutCode
  extract_lets -underBinder -merge -useContext x1
  refine Does.lets x1 ?_ (fun hx1 => ?_)
  · unfold x1
    refine Does.setBit adr_ISL_STAT (by decide +kernel) ?_
    exact Does.refl
  refine Does.put_codes (by decide +kernel) ?_
  exact hx1

theorem execPatCodeEnd_runs {isl s} : Runs [.codes] [64] s (execPatCodeEnd isl s) := by
  unfold execPatCodeEnd
  refine Runs.next ?_
  refine Does.ite (fun _ => ?_) (fun _ => ?_)
  · refine Does.call State.cutCode_does (by decide +kernel) ?_
    exact Does.refl
  · exact Does.refl

theorem State.overridePin_does {s n p} : Does [.pins] [] s (State.overridePin s n p) := by
  unfold State.overridePin
  extract_lets -underBinder -merge -useContext x1 x2
  refine Does.ite (fun _ => ?_) (fun _ => ?_)
  · refine Does.call State.setPin_does (by decide +kernel) ?_
    exact Does.refl
  · exact Does.refl

theorem State.overridePins_does {s ch} : Does [.pins] [] s (State.overridePins s ch) := by
  unfold State.overridePins
  refine Does.foldl ?_ ?_
  · intro y1 y2
    beta_reduce
    refine Does.call State.overridePin_does (by decide +kernel) ?_
    exact Does.refl
  · exact Does.refl

theorem State.forceAll_does {s} : Does [.pins] [] s (State.forceAll s) := by
  unfold State.forceAll
  refine Does.foldl ?_ ?_
  · intro y1 y2
    beta_reduce
    refine Does.call State.forcePins_does (by decide +kernel) ?_
    exact Does.refl
  · exact Does.refl

theorem execSafeNFall_runs {s} : Runs [.agenda, .causes, .free, .fresh, .chans, .pins, .twn, .power] [1, 3, 14, 64] s
      (execSafeNFall s) := by
  unfold execSafeNFall
  refine Runs.next ?_
  refine Does.foldl ?_ ?_
  · intro y1 y2
    refine Does.call State.safeIsland_does (by decide +kernel) ?_
    exact Does.refl
  · refine Does.call State.causeOn_does (by decide +kernel) ?_
    refine Does.call State.safeSeen_does (by decide +kernel) ?_
    refine Does.call State.forceAll_does (by decide +kernel) ?_
    exact Does.refl

theorem execChPeriodWrite_runs {by_ ch period s} : Runs [.agenda, .fresh, .chans] [64] s (execChPeriodWrite by_ ch period s) := by
  unfold execChPeriodWrite
  extract_lets -underBinder -merge -useContext x1
  refine Runs.ite (fun _ => ?_) (fun _ => ?_)
  · refine Runs.next ?_
    refine Does.call (State.rejectVal_does adr_CH_PERIOD) (by decide +kernel) ?_
    exact Does.refl
  · refine Runs.next ?_
    refine Does.call State.setChan_does (by decide +kernel) ?_
    exact Does.refl

theorem execPeriodStart_runs {ch s} : Runs [.agenda, .causes, .fresh, .chans, .pins, .mons, .twn] [1, 64] s (execPeriodStart
      ch s) := by
  unfold execPeriodStart
  refine Runs.next ?_
  refine Does.ite (fun _ => ?_) (fun _ => ?_)
  · refine Does.call State.periodAt_does (by decide +kernel) ?_
    exact Does.refl
  · exact Does.refl

theorem State.loopStops_does {s ch} : Does [.chans] [] s (State.loopStops s ch) := by
  unfold State.loopStops
  extract_lets -underBinder -merge -useContext x1
  refine Does.call State.setChan_does (by decide +kernel) ?_
  exact Does.refl

theorem execPatStart_runs {isl s} : Runs [.agenda, .fresh, .out, .codes] [64] s (execPatStart isl s) := by
  unfold execPatStart
  extract_lets -underBinder -merge -useContext x1
  refine Runs.next ?_
  refine Does.call State.startCode_does (by decide +kernel) ?_
  exact Does.refl

theorem execDrvEnWrite_runs {by_ ch en s} : Runs [.agenda, .fresh, .chans, .pins] [64] s (execDrvEnWrite by_ ch en s) := by
  unfold execDrvEnWrite
  extract_lets -underBinder -merge -useContext x1 x2 x3 x4
  refine Runs.lets x3 ?_ (fun hx3 => ?_)
  · unfold x3
    refine Does.latch adr_CH_CTL (by decide +kernel) ?_
    exact Does.refl
  refine Runs.ite (fun _ => ?_) (fun _ => ?_)
  · refine Runs.ite (fun _ => ?_) (fun _ => ?_)
    · refine Runs.next ?_
      refine Does.ite (fun _ => ?_) (fun _ => ?_)
      · exact hx3
      · refine Does.call State.setChan_does (by decide +kernel) ?_
        exact hx3
    · refine Runs.next ?_
      refine Does.call (State.rejectVal_does adr_CH_CTL) (by decide +kernel) ?_
      exact Does.refl
  · refine Runs.next ?_
    refine Does.call State.driversOff_does (by decide +kernel) ?_
    exact Does.refl

theorem State.islandDriversOff_does {s n} : Does [.chans, .pins] [64] s (State.islandDriversOff s n) := by
  unfold State.islandDriversOff
  refine Does.foldl ?_ ?_
  · intro y1 y2
    beta_reduce
    refine Does.call State.driversOff_does (by decide +kernel) ?_
    exact Does.refl
  · exact Does.refl

end Sys2Proof.Machine
end

