-- ==== Sys2Proof/Laws/Acquisition.lean ====
section
/-! SUPPORT. What each operation of Machine/Acquisition.lean may change (Laws/Frame.lean says how to read it). -/
namespace Sys2Proof.Machine

set_option Elab.async false

theorem State.setAch_does {s ch x} : Does [.acq] [] s (State.setAch s ch x) := by
  unfold State.setAch
  extract_lets -underBinder -merge -useContext x1
  refine Does.put_acq (by decide +kernel) ?_
  exact Does.refl

theorem State.endRecord_does {s ch qty isPartial} : Does [.acq] [] s (State.endRecord s ch qty isPartial) := by
  unfold State.endRecord
  extract_lets -underBinder -merge -useContext x1 x2
  split
  · exact Does.refl
  · refine Does.call State.appendTimes_does (by decide +kernel) ?_
    refine Does.call State.setAch_does (by decide +kernel) ?_
    exact Does.refl

theorem State.joinValue_does {s ch qty isPartial} : Does [.acq] [] s (State.joinValue s ch qty isPartial) := by
  unfold State.joinValue
  extract_lets -underBinder -merge -useContext x1 x2 x3 x4 x5 x6 x7 x8 x9 x10 x11
  refine Does.lets x11 ?_ (fun hx11 => ?_)
  · unfold x11
    refine Does.call State.setAch_does (by decide +kernel) ?_
    exact Does.refl
  refine Does.ite (fun _ => ?_) (fun _ => ?_)
  · refine Does.call State.endRecord_does (by decide +kernel) ?_
    exact hx11
  · exact hx11

theorem State.closeInterval_does {s ch qty isPartial} : Does [.acq] [] s (State.closeInterval s ch qty isPartial) := by
  unfold State.closeInterval
  extract_lets -underBinder -merge -useContext x1
  refine Does.ite (fun _ => ?_) (fun _ => ?_)
  · exact Does.refl
  · refine Does.ite (fun _ => ?_) (fun _ => ?_)
    · refine Does.call State.joinValue_does (by decide +kernel) ?_
      exact Does.refl
    · refine Does.call State.joinValue_does (by decide +kernel) ?_
      refine Does.call State.endRecord_does (by decide +kernel) ?_
      exact Does.refl

theorem State.closePartial_does {s ch} : Does [.acq] [] s (State.closePartial s ch) := by
  unfold State.closePartial
  refine Does.call State.closeInterval_does (by decide +kernel) ?_
  refine Does.call State.closeInterval_does (by decide +kernel) ?_
  exact Does.refl

theorem State.endValues_does {s ch} : Does [.acq] [] s (State.endValues s ch) := by
  unfold State.endValues
  refine Does.call State.endRecord_does (by decide +kernel) ?_
  refine Does.call State.endRecord_does (by decide +kernel) ?_
  refine Does.call State.closePartial_does (by decide +kernel) ?_
  exact Does.refl

theorem execRateEval_runs {s} : Runs [.agenda, .causes, .fresh, .acq] [10] s (execRateEval s) := by
  unfold execRateEval
  extract_lets -underBinder -merge -useContext x1 x2 x3 x4 x5 x6 x7 x8 x9 x10
  refine Runs.lets x1 ?_ (fun hx1 => ?_)
  · unfold x1
    refine Does.call State.mark_does (by decide +kernel) ?_
    exact Does.refl
  refine Runs.lets x8 ?_ (fun hx8 => ?_)
  · unfold x8
    refine Does.ite (fun _ => ?_) (fun _ => ?_)
    · refine Does.foldl ?_ ?_
      · intro y11 y12
        beta_reduce
        refine Does.call State.endValues_does (by decide +kernel) ?_
        exact Does.refl
      · exact hx1
    · exact hx1
  refine Runs.lets x9 ?_ (fun hx9 => ?_)
  · unfold x9
    refine Does.setReg adr_ACQ_STAT (by decide +kernel) ?_
    exact hx8
  refine Runs.lets x10 ?_ (fun hx10 => ?_)
  · unfold x10
    refine Does.call State.append_does (by decide +kernel) ?_
    refine Does.latch adr_ACQ_LAT (by decide +kernel) ?_
    exact hx9
  refine Runs.ite (fun _ => ?_) (fun _ => ?_)
  · refine Runs.ite (fun _ => ?_) (fun _ => ?_)
    · refine Runs.next ?_
      exact hx1
    · refine Runs.next ?_
      refine Does.ite (fun _ => ?_) (fun _ => ?_)
      · refine Does.call State.raise_does (by decide +kernel) ?_
        refine Does.call State.causeOn_does (by decide +kernel) ?_
        exact hx10
      · refine Does.ite (fun _ => ?_) (fun _ => ?_)
        · refine Does.call State.causeOff_does (by decide +kernel) ?_
          exact hx10
        · exact hx10
  · refine Runs.next ?_
    exact Does.refl

theorem execRingArm_runs {m crcGood s} : Runs [.agenda, .fresh, .out, .links] [1, 13] s (execRingArm m crcGood s) := by
  unfold execRingArm
  extract_lets -underBinder -merge -useContext x1
  refine Runs.lets x1 ?_ (fun hx1 => ?_)
  · unfold x1
    refine Does.call State.ringForward_does (by decide +kernel) ?_
    exact Does.refl
  refine Runs.ite (fun _ => ?_) (fun _ => ?_)
  · refine Runs.next ?_
    refine Does.call State.ringBad_does (by decide +kernel) ?_
    exact Does.refl
  · refine Runs.ite (fun _ => ?_) (fun _ => ?_)
    · refine Runs.next ?_
      exact Does.refl
    · refine Runs.ite (fun _ => ?_) (fun _ => ?_)
      · refine Runs.next ?_
        refine Does.call State.lateInternal_does (by decide +kernel) ?_
        exact hx1
      · refine Runs.next ?_
        refine Does.call State.hold_does (by decide +kernel) ?_
        exact hx1

theorem State.endDemod_does {s ch isPartial go} : Does [.acq] [] s (State.endDemod s ch isPartial go) := by
  unfold State.endDemod
  extract_lets -underBinder -merge -useContext x1 x2
  refine Does.lets x2 ?_ (fun hx2 => ?_)
  · unfold x2
    refine Does.call State.setAch_does (by decide +kernel) ?_
    exact Does.refl
  refine Does.ite (fun _ => ?_) (fun _ => ?_)
  · refine Does.call State.append_does (by decide +kernel) ?_
    exact hx2
  · exact hx2

theorem State.violate_does {s ch act limits detail value limit due} : Does [.agenda, .free, .fresh, .acq] [1, 3, 10] s
      (State.violate s ch act limits detail value limit due) := by
  unfold State.violate
  extract_lets -underBinder -merge -useContext x1 x2 x3 x4
  refine Does.lets x1 ?_ (fun hx1 => ?_)
  · unfold x1
    refine Does.call State.raise_does (by decide +kernel) ?_
    refine Does.call State.excursion_does (by decide +kernel) ?_
    exact Does.refl
  refine Does.lets x2 ?_ (fun hx2 => ?_)
  · unfold x2
    refine Does.ite (fun _ => ?_) (fun _ => ?_)
    · refine Does.latch adr_ACQ_LAT (by decide +kernel) ?_
      exact hx1
    · refine Does.latch adr_ACQ_LAT (by decide +kernel) ?_
      exact hx1
  refine Does.lets x3 ?_ (fun hx3 => ?_)
  · unfold x3
    refine Does.ite (fun _ => ?_) (fun _ => ?_)
    · refine Does.call State.postAt_does (by decide +kernel) ?_
      exact hx2
    · exact hx2
  refine Does.lets x4 ?_ (fun hx4 => ?_)
  · unfold x4
    refine Does.ite (fun _ => ?_) (fun _ => ?_)
    · refine Does.foldl ?_ ?_
      · intro y5 y6
        beta_reduce
        refine Does.call State.issueCmd_does (by decide +kernel) ?_
        exact Does.refl
      · refine Does.latch adr_ACH_STAT (by decide +kernel) ?_
        exact hx3
    · exact hx3
  refine Does.ite (fun _ => ?_) (fun _ => ?_)
  · refine Does.latch adr_ACH_STAT (by decide +kernel) ?_
    refine Does.call State.endDemod_does (by decide +kernel) ?_
    refine Does.call State.closePartial_does (by decide +kernel) ?_
    exact hx4
  · exact hx4

theorem State.excOverflow_does {s base x} : Does [.agenda, .fresh, .hbmMem, .hbm] [11, 12] s (State.excOverflow s base x) := by
  unfold State.excOverflow
  extract_lets -underBinder -merge -useContext x1 x2 x3 x4
  refine Does.lets x4 ?_ (fun hx4 => ?_)
  · unfold x4
    refine Does.ite (fun _ => ?_) (fun _ => ?_)
    · exact Does.refl
    · refine Does.call State.hbmWrite_does (by decide +kernel) ?_
      exact Does.refl
  refine Does.ite (fun _ => ?_) (fun _ => ?_)
  · refine Does.call State.raise_does (by decide +kernel) ?_
    refine Does.bump adr_EXC_LOST (by decide +kernel) ?_
    refine Does.latch adr_EXC_LAT (by decide +kernel) ?_
    refine Does.setWide adr_EXC_OLD (by decide +kernel) ?_
    exact hx4
  · exact hx4

theorem State.freeBlocks_does {s n} : Does [.causes] [10] s (State.freeBlocks s n) := by
  unfold State.freeBlocks
  extract_lets -underBinder -merge -useContext x1
  refine Does.lets x1 ?_ (fun hx1 => ?_)
  · unfold x1
    refine Does.setWide adr_SPL_RD (by decide +kernel) ?_
    refine Does.setFld adr_SPL_USED (by decide +kernel) ?_
    exact Does.refl
  refine Does.ite (fun _ => ?_) (fun _ => ?_)
  · exact Does.refl
  · refine Does.ite (fun _ => ?_) (fun _ => ?_)
    · exact hx1
    · refine Does.call State.causeOff_does (by decide +kernel) ?_
      exact hx1

theorem State.roomCame_does {s cls} : Does [.causes, .fresh, .hbmMem, .acq, .hbm] [12] s (State.roomCame s cls) := by
  unfold State.roomCame
  extract_lets -underBinder -merge -useContext x1
  refine Does.lets x1 ?_ (fun hx1 => ?_)
  · unfold x1
    refine Does.call State.drainStage_does (by decide +kernel) ?_
    exact Does.refl
  refine Does.ite (fun _ => ?_) (fun _ => ?_)
  · refine Does.call State.causeOff_does (by decide +kernel) ?_
    exact hx1
  · exact hx1

theorem State.takeRecords_does {s c taken} : Does [.causes, .fresh, .hbmMem, .acq, .hbm] [10, 12] s (State.takeRecords s c
      taken) := by
  unfold State.takeRecords
  extract_lets -underBinder -merge -useContext x1 x2 x3 x4 x5 x6
  refine Does.lets x4 ?_ (fun hx4 => ?_)
  · unfold x4
    refine Does.call State.freeBlocks_does (by decide +kernel) ?_
    refine Does.call State.setStream_does (by decide +kernel) ?_
    exact Does.refl
  refine Does.lets x5 ?_ (fun hx5 => ?_)
  · unfold x5
    refine Does.ite (fun _ => ?_) (fun _ => ?_)
    · refine Does.call State.roomCame_does (by decide +kernel) ?_
      refine Does.setWide adr_BSN_ACK (by decide +kernel) ?_
      exact hx4
    · exact hx4
  refine Does.ite (fun _ => ?_) (fun _ => ?_)
  · refine Does.ite (fun _ => ?_) (fun _ => ?_)
    · refine Does.call State.append_does (by decide +kernel) ?_
      exact hx5
    · exact hx5
  · refine Does.call State.freeBlocks_does (by decide +kernel) ?_
    refine Does.call State.setStream_does (by decide +kernel) ?_
    exact Does.refl

theorem State.markB_does {s ch qty f t forced} : Does [.acq] [] s (State.markB s ch qty f t forced) := by
  unfold State.markB
  extract_lets -underBinder -merge -useContext x1 x2 x3 x4 x5
  refine Does.lets x3 ?_ (fun hx3 => ?_)
  · unfold x3
    refine Does.call State.setStream_does (by decide +kernel) ?_
    exact Does.refl
  refine Does.ite (fun _ => ?_) (fun _ => ?_)
  · exact Does.refl
  · refine Does.ite (fun _ => ?_) (fun _ => ?_)
    · exact hx3
    · split
      · refine Does.call State.setAch_does (by decide +kernel) ?_
        exact hx3
      · refine Does.call State.setAch_does (by decide +kernel) ?_
        exact hx3

theorem State.setTrig_does {s t x} : Does [.acq] [] s (State.setTrig s t x) := by
  unfold State.setTrig
  extract_lets -underBinder -merge -useContext x1
  refine Does.put_acq (by decide +kernel) ?_
  exact Does.refl

theorem State.decideFire_does {s t f forced} : Does [.agenda, .free, .fresh, .acq] [1, 3, 10] s (State.decideFire s t f
      forced) := by
  unfold State.decideFire
  extract_lets -underBinder -merge -useContext x1 x2 x3 x4 x5 x6 x7 x8 x9
  refine Does.lets x6 ?_ (fun hx6 => ?_)
  · unfold x6
    refine Does.call State.append_does (by decide +kernel) ?_
    exact Does.refl
  refine Does.lets x7 ?_ (fun hx7 => ?_)
  · unfold x7
    refine Does.ite (fun _ => ?_) (fun _ => ?_)
    · refine Does.call State.append_does (by decide +kernel) ?_
      exact hx6
    · exact hx6
  refine Does.lets x8 ?_ (fun hx8 => ?_)
  · unfold x8
    refine Does.foldl ?_ ?_
    · intro y10 y11
      beta_reduce
      refine Does.ite (fun _ => ?_) (fun _ => ?_)
      · exact Does.refl
      · refine Does.call State.postAt_does (by decide +kernel) ?_
        refine Does.call State.markB_does (by decide +kernel) ?_
        refine Does.call State.markB_does (by decide +kernel) ?_
        exact Does.refl
    · exact hx7
  refine Does.lets x9 ?_ (fun hx9 => ?_)
  · unfold x9
    refine Does.setReg adr_TRG_STAT (by decide +kernel) ?_
    exact hx8
  refine Does.call State.setTrig_does (by decide +kernel) ?_
  refine Does.setWide adr_TRG_TIME (by decide +kernel) ?_
  exact hx9

theorem State.testMask_does {s ch m y tau due} : Does [.agenda, .free, .fresh, .acq] [1, 3, 10] s (State.testMask s ch m y
      tau due) := by
  unfold State.testMask
  extract_lets -underBinder -merge -useContext x1
  split
  · exact Does.refl
  · extract_lets -underBinder -merge -useContext x2
    refine Does.ite (fun _ => ?_) (fun _ => ?_)
    · refine Does.ite (fun _ => ?_) (fun _ => ?_)
      · refine Does.bump adr_ACH_MVIOL (by decide +kernel) ?_
        exact Does.refl
      · refine Does.call State.violate_does (by decide +kernel) ?_
        refine Does.call State.setAch_does (by decide +kernel) ?_
        exact Does.refl
    · exact Does.refl

theorem State.testMasks_does {s ch qty y due} : Does [.agenda, .free, .fresh, .acq] [1, 3, 10] s (State.testMasks s ch qty y
      due) := by
  unfold State.testMasks
  split
  · exact Does.refl
  · extract_lets -underBinder -merge -useContext x1 x2
    refine Does.ite (fun _ => ?_) (fun _ => ?_)
    · exact Does.refl
    · refine Does.foldl ?_ ?_
      · intro y3 y4
        beta_reduce
        refine Does.ite (fun _ => ?_) (fun _ => ?_)
        · refine Does.call State.testMask_does (by decide +kernel) ?_
          exact Does.refl
        · exact Does.refl
      · exact Does.refl

theorem State.judgeSpill_does {s} : Does [.agenda, .causes] [] s (State.judgeSpill s) := by
  unfold State.judgeSpill
  refine Does.ite (fun _ => ?_) (fun _ => ?_)
  · refine Does.ite (fun _ => ?_) (fun _ => ?_)
    · exact Does.refl
    · refine Does.call State.raise_does (by decide +kernel) ?_
      refine Does.call State.causeOn_does (by decide +kernel) ?_
      exact Does.refl
  · exact Does.refl

theorem State.disarmTrigger_does {s t} : Does [.acq] [10] s (State.disarmTrigger s t) := by
  unfold State.disarmTrigger
  refine Does.setFld adr_TRG_STAT (by decide +kernel) ?_
  refine Does.call State.setTrig_does (by decide +kernel) ?_
  exact Does.refl

theorem execExcursionWrite_runs {kind detail ch time value limit s} : Runs [.agenda, .fresh, .sram, .hbmMem, .acq, .hbm,
      .twn] [11, 12] s (execExcursionWrite kind detail ch time value limit s) := by
  unfold execExcursionWrite
  extract_lets -underBinder -merge -useContext x1 x2 x3 x4 x5 x6
  refine Runs.lets x6 ?_ (fun hx6 => ?_)
  · unfold x6
    split
    · extract_lets -underBinder -merge -useContext x7
      refine Does.lets x7 ?_ (fun hx7 => ?_)
      · unfold x7
        refine Does.ite (fun _ => ?_) (fun _ => ?_)
        · refine Does.call State.excOverflow_does (by decide +kernel) ?_
          exact Does.refl
        · exact Does.refl
      refine Does.put_sram (by decide +kernel) (fun h => Memory.wf_writeBytes _ _ _ h) ?_
      exact hx7
    · exact Does.refl
  refine Runs.ite (fun _ => ?_) (fun _ => ?_)
  · refine Runs.next ?_
    refine Does.call State.append_does (by decide +kernel) ?_
    refine Does.setWide adr_EXC_WR (by decide +kernel) ?_
    refine Does.call State.tickItem_does (by decide +kernel) ?_
    exact hx6
  · refine Runs.next ?_
    exact Does.refl

theorem State.restDemod_does {s ch} : Does [.acq] [] s (State.restDemod s ch) := by
  unfold State.restDemod
  refine Does.ite (fun _ => ?_) (fun _ => ?_)
  · refine Does.call State.endDemod_does (by decide +kernel) ?_
    exact Does.refl
  · exact Does.refl

theorem State.leaveProfile_does {s ch} : Does [.acq] [] s (State.leaveProfile s ch) := by
  unfold State.leaveProfile
  refine Does.call State.restDemod_does (by decide +kernel) ?_
  refine Does.call State.endValues_does (by decide +kernel) ?_
  exact Does.refl

theorem State.acqStepStart_does {s ch start prof lms} : Does [.acq] [10] s (State.acqStepStart s ch start prof lms) := by
  unfold State.acqStepStart
  extract_lets -underBinder -merge -useContext x1 x2 x3 x4
  refine Does.lets x1 ?_ (fun hx1 => ?_)
  · unfold x1
    refine Does.ite (fun _ => ?_) (fun _ => ?_)
    · refine Does.call State.closePartial_does (by decide +kernel) ?_
      exact Does.refl
    · refine Does.call State.leaveProfile_does (by decide +kernel) ?_
      exact Does.refl
  refine Does.lets x2 ?_ (fun hx2 => ?_)
  · unfold x2
    refine Does.setReg adr_ACH_SEL (by decide +kernel) ?_
    exact hx1
  refine Does.lets x3 ?_ (fun hx3 => ?_)
  · unfold x3
    refine Does.setReg adr_ACH_STAT (by decide +kernel) ?_
    exact hx2
  refine Does.call State.setAch_does (by decide +kernel) ?_
  exact hx3

theorem State.closeChunk_does {s c} : Does [.acq] [] s (State.closeChunk s c) := by
  unfold State.closeChunk
  refine Does.call State.setStream_does (by decide +kernel) ?_
  exact Does.refl

theorem State.sealAt_does {s t hb hc hd} : Does [.agenda, .causes, .fresh, .hbmMem, .acq, .hbm, .twn, .sec] [10, 12, 18] s
      (State.sealAt s t hb hc hd) := by
  unfold State.sealAt
  extract_lets -underBinder -merge -useContext x1 x2 x3 x4 x5 x6 x7 x8
  refine Does.lets x1 ?_ (fun hx1 => ?_)
  · unfold x1
    refine Does.call State.closeChunk_does (by decide +kernel) ?_
    refine Does.call State.releaseOf_does (by decide +kernel) ?_
    exact Does.refl
  refine Does.lets x4 ?_ (fun hx4 => ?_)
  · unfold x4
    refine Does.call State.append_does (by decide +kernel) ?_
    exact hx1
  refine Does.lets x7 ?_ (fun hx7 => ?_)
  · unfold x7
    refine Does.put_acq (by decide +kernel) ?_
    exact hx4
  refine Does.lets x8 ?_ (fun hx8 => ?_)
  · unfold x8
    refine Does.setReg adr_ACQ_SEALNO (by decide +kernel) ?_
    exact hx7
  refine Does.ite (fun _ => ?_) (fun _ => ?_)
  · refine Does.call State.askSig_does (by decide +kernel) ?_
    refine Does.setReg adr_SEC_SEALQ (by decide +kernel) ?_
    exact hx8
  · exact Does.refl

theorem execSealInstant_runs {s} : Runs [.agenda, .causes, .fresh, .hbmMem, .acq, .hbm, .twn, .sec] [10, 12, 18] s
      (execSealInstant s) := by
  unfold execSealInstant
  extract_lets -underBinder -merge -useContext x1 x2 x3 x4
  refine Runs.lets x2 ?_ (fun hx2 => ?_)
  · unfold x2
    refine Does.call State.releaseOf_does (by decide +kernel) ?_
    refine Does.call State.releaseOf_does (by decide +kernel) ?_
    refine Does.call State.releaseOf_does (by decide +kernel) ?_
    refine Does.call State.mark_does (by decide +kernel) ?_
    exact Does.refl
  refine Runs.lets x3 ?_ (fun hx3 => ?_)
  · unfold x3
    refine Does.call State.closeChunk_does (by decide +kernel) ?_
    refine Does.call State.closeChunk_does (by decide +kernel) ?_
    refine Does.call State.closeChunk_does (by decide +kernel) ?_
    exact hx2
  refine Runs.ite (fun _ => ?_) (fun _ => ?_)
  · refine Runs.ite (fun _ => ?_) (fun _ => ?_)
    · refine Runs.next ?_
      refine Does.call State.hold_does (by decide +kernel) ?_
      exact hx3
    · refine Runs.next ?_
      refine Does.call State.sealAt_does (by decide +kernel) ?_
      exact hx3
  · refine Runs.next ?_
    exact Does.refl

theorem State.reduce_does {s ch qty m hop y flags gateEnd} : Does [.acq] [] s (State.reduce s ch qty m hop y flags gateEnd) := by
  unfold State.reduce
  extract_lets -underBinder -merge -useContext x1 x2 x3 x4 x5 x6 x7 x8 x9 x10
  refine Does.lets x6 ?_ (fun hx6 => ?_)
  · unfold x6
    refine Does.ite (fun _ => ?_) (fun _ => ?_)
    · refine Does.call State.endRecord_does (by decide +kernel) ?_
      refine Does.call State.closeInterval_does (by decide +kernel) ?_
      exact Does.refl
    · refine Does.ite (fun _ => ?_) (fun _ => ?_)
      · refine Does.call State.closeInterval_does (by decide +kernel) ?_
        exact Does.refl
      · exact Does.refl
  refine Does.lets x10 ?_ (fun hx10 => ?_)
  · unfold x10
    refine Does.call State.setAch_does (by decide +kernel) ?_
    exact hx6
  refine Does.ite (fun _ => ?_) (fun _ => ?_)
  · exact Does.refl
  · refine Does.ite (fun _ => ?_) (fun _ => ?_)
    · refine Does.call State.closeInterval_does (by decide +kernel) ?_
      exact hx10
    · exact hx10

theorem State.testLimits_does {s ch y due} : Does [.agenda, .free, .fresh, .acq] [1, 3, 10] s (State.testLimits s ch y due) := by
  unfold State.testLimits
  extract_lets -underBinder -merge -useContext x1 x2 x3 x4 x5 x6
  refine Does.ite (fun _ => ?_) (fun _ => ?_)
  · exact Does.refl
  · refine Does.ite (fun _ => ?_) (fun _ => ?_)
    · refine Does.bump adr_ACH_MVIOL (by decide +kernel) ?_
      exact Does.refl
    · refine Does.call State.violate_does (by decide +kernel) ?_
      refine Does.call State.setAch_does (by decide +kernel) ?_
      exact Does.refl

theorem State.acqResult_does {s ch qty m hop y flags due gateEnd} : Does [.agenda, .free, .fresh, .acq] [1, 3, 10] s
      (State.acqResult s ch qty m hop y flags due gateEnd) := by
  unfold State.acqResult
  extract_lets -underBinder -merge -useContext x1 x2 x3
  refine Does.lets x2 ?_ (fun hx2 => ?_)
  · unfold x2
    refine Does.ite (fun _ => ?_) (fun _ => ?_)
    · refine Does.call State.testLimits_does (by decide +kernel) ?_
      exact Does.refl
    · exact Does.refl
  refine Does.lets x3 ?_ (fun hx3 => ?_)
  · unfold x3
    refine Does.call State.testMasks_does (by decide +kernel) ?_
    refine Does.call State.testMasks_does (by decide +kernel) ?_
    exact hx2
  refine Does.ite (fun _ => ?_) (fun _ => ?_)
  · exact hx3
  · refine Does.call State.reduce_does (by decide +kernel) ?_
    exact hx3

theorem State.acqOff_does {s} : Does [.acq] [10] s (State.acqOff s) := by
  unfold State.acqOff
  extract_lets -underBinder -merge -useContext x1 x2 x3 x4
  refine Does.letsF1 x1 ?_ (fun hx1 => ?_)
  · intro y5 y6; unfold x1
    extract_lets -underBinder -merge -useContext x7
    refine Does.call State.setStream_does (by decide +kernel) ?_
    exact Does.refl
  refine Does.lets x3 ?_ (fun hx3 => ?_)
  · unfold x3
    refine (hx1 _ _).after ?_
    refine (hx1 _ _).after ?_
    refine (hx1 _ _).after ?_
    refine (hx1 _ _).after ?_
    exact Does.refl
  refine Does.setBit adr_ACQ_STAT (by decide +kernel) ?_
  refine Does.put_acq (by decide +kernel) ?_
  exact hx3

theorem execStreamSend_runs {p cls s} : Runs [.out, .acq, .links] [] s (execStreamSend p cls s) := by
  unfold execStreamSend
  extract_lets -underBinder -merge -useContext x1 x2 x3 x4 x5
  refine Runs.ite (fun _ => ?_) (fun _ => ?_)
  · refine Runs.next ?_
    refine Does.call State.sendFrame_does (by decide +kernel) ?_
    refine Does.call State.setStream_does (by decide +kernel) ?_
    exact Does.refl
  · refine Runs.next ?_
    exact Does.refl

theorem execTriggerDecide_runs {t s} : Runs [.agenda, .free, .fresh, .acq] [1, 3, 10] s (execTriggerDecide t s) := by
  unfold execTriggerDecide
  extract_lets -underBinder -merge -useContext x1
  split
  · refine Runs.next ?_
    exact Does.refl
  · extract_lets -underBinder -merge -useContext x2
    split
    · refine Runs.ite (fun _ => ?_) (fun _ => ?_)
      · refine Runs.next ?_
        refine Does.call State.decideFire_does (by decide +kernel) ?_
        exact Does.refl
      · refine Runs.next ?_
        exact Does.refl
    · refine Runs.ite (fun _ => ?_) (fun _ => ?_)
      · refine Runs.next ?_
        exact Does.refl
      · refine Runs.ite (fun _ => ?_) (fun _ => ?_)
        · refine Runs.next ?_
          refine Does.call State.decideFire_does (by decide +kernel) ?_
          exact Does.refl
        · refine Runs.next ?_
          exact Does.refl

theorem State.captureStamp_does {s isl pin word time} : Does [.acq] [] s (State.captureStamp s isl pin word time) := by
  unfold State.captureStamp
  refine Does.foldl ?_ ?_
  · intro y1 y2
    beta_reduce
    extract_lets -underBinder -merge -useContext x3 x4 x5 x6
    refine Does.letsF1 x5 ?_ (fun hx5 => ?_)
    · intro y7 y8; unfold x5
      extract_lets -underBinder -merge -useContext x9
      refine Does.put_acq (by decide +kernel) ?_
      exact Does.refl
    refine Does.ite (fun _ => ?_) (fun _ => ?_)
    · refine Does.ite (fun _ => ?_) (fun _ => ?_)
      · refine (hx5 _ _).after ?_
        exact Does.refl
      · refine Does.ite (fun _ => ?_) (fun _ => ?_)
        · refine Does.call State.append_does (by decide +kernel) ?_
          refine (hx5 _ _).after ?_
          exact Does.refl
        · refine (hx5 _ _).after ?_
          exact Does.refl
    · exact Does.refl
  · exact Does.refl

theorem State.acqOn_does {s} : Does [.fresh, .acq] [10] s (State.acqOn s) := by
  unfold State.acqOn
  extract_lets -underBinder -merge -useContext x1 x2 x3
  refine Does.letsF1 x1 ?_ (fun hx1 => ?_)
  · intro y4 y5; unfold x1
    extract_lets -underBinder -merge -useContext x6
    refine Does.call State.setStream_does (by decide +kernel) ?_
    exact Does.refl
  refine Does.lets x2 ?_ (fun hx2 => ?_)
  · unfold x2
    refine (hx1 _ _).after ?_
    refine (hx1 _ _).after ?_
    refine (hx1 _ _).after ?_
    refine (hx1 _ _).after ?_
    exact Does.refl
  refine Does.call State.anchor_does (by decide +kernel) ?_
  refine Does.latch adr_ACQ_STAT (by decide +kernel) ?_
  refine Does.put_acq (by decide +kernel) ?_
  exact hx2

theorem execSpillMove_runs {basinB mediaGood s} : Runs [.agenda, .causes, .fresh, .hbmMem, .spill, .acq, .hbm] [10, 12] s
      (execSpillMove basinB mediaGood s) := by
  unfold execSpillMove
  extract_lets -underBinder -merge -useContext x1 x2 x3 x4 x5 x6 x7 x8 x9 x10 x11 x12
  refine Runs.lets x7 ?_ (fun hx7 => ?_)
  · unfold x7
    refine Does.putMem (t := s) [.spill, .acq] ?_ (by decide +kernel) rfl ?_ ?_
    · exact Does.refl
    · intro c; unfold State.Canonical; dsimp only; exact ⟨c.1, c.2.1, c.2.2.1, Memory.wf_writeBytes _ _ _ c.2.2.2⟩
    · intro p hp; cases p <;> first | exact absurd (by decide) hp | rfl
  refine Runs.lets x8 ?_ (fun hx8 => ?_)
  · unfold x8
    refine Does.setFld adr_SPL_USED (by decide +kernel) ?_
    refine Does.setWide adr_SPL_WR (by decide +kernel) ?_
    exact hx7
  refine Runs.lets x11 ?_ (fun hx11 => ?_)
  · unfold x11
    refine Does.call State.setStream_does (by decide +kernel) ?_
    exact hx8
  refine Runs.lets x12 ?_ (fun hx12 => ?_)
  · unfold x12
    refine Does.call State.judgeSpill_does (by decide +kernel) ?_
    refine Does.call State.roomCame_does (by decide +kernel) ?_
    refine Does.latch adr_ACQ_STAT (by decide +kernel) ?_
    refine Does.setWide adr_BSN_ACK (by decide +kernel) ?_
    exact hx11
  refine Runs.ite (fun _ => ?_) (fun _ => ?_)
  · refine Runs.next ?_
    exact Does.refl
  · refine Runs.ite (fun _ => ?_) (fun _ => ?_)
    · refine Runs.ite (fun _ => ?_) (fun _ => ?_)
      · refine Runs.next ?_
        refine Does.call State.judgeSpill_does (by decide +kernel) ?_
        exact Does.refl
      · refine Runs.ite (fun _ => ?_) (fun _ => ?_)
        · refine Runs.next ?_
          refine Does.call State.raise_does (by decide +kernel) ?_
          exact Does.refl
        · refine Runs.next ?_
          refine Does.ite (fun _ => ?_) (fun _ => ?_)
          · refine Does.call State.append_does (by decide +kernel) ?_
            exact hx12
          · exact hx12
    · refine Runs.next ?_
      refine Does.setBit adr_ACQ_STAT (by decide +kernel) ?_
      exact Does.refl

theorem State.countFire_does {s t f} : Does [.agenda, .acq] [] s (State.countFire s t f) := by
  unfold State.countFire
  extract_lets -underBinder -merge -useContext x1
  split
  · refine Does.ite (fun _ => ?_) (fun _ => ?_)
    · exact Does.refl
    · refine Does.call State.hold_does (by decide +kernel) ?_
      refine Does.call State.setTrig_does (by decide +kernel) ?_
      exact Does.refl
  · exact Does.refl

theorem execRingDisarm_runs {m crcGood s} : Runs [.agenda, .fresh, .out, .acq, .links] [10, 13] s (execRingDisarm m crcGood s) := by
  unfold execRingDisarm
  refine Runs.ite (fun _ => ?_) (fun _ => ?_)
  · refine Runs.next ?_
    refine Does.call State.ringBad_does (by decide +kernel) ?_
    exact Does.refl
  · refine Runs.ite (fun _ => ?_) (fun _ => ?_)
    · refine Runs.next ?_
      exact Does.refl
    · refine Runs.ite (fun _ => ?_) (fun _ => ?_)
      · refine Runs.next ?_
        refine Does.call State.hold_does (by decide +kernel) ?_
        refine Does.call State.ringForward_does (by decide +kernel) ?_
        exact Does.refl
      · refine Runs.next ?_
        refine Does.call State.disarmTrigger_does (by decide +kernel) ?_
        refine Does.call State.ringForward_does (by decide +kernel) ?_
        exact Does.refl

theorem State.fireHere_does {s t f chan} : Does [.agenda, .out, .acq, .links] [] s (State.fireHere s t f chan) := by
  unfold State.fireHere
  extract_lets -underBinder -merge -useContext x1
  split
  · exact Does.refl
  · extract_lets -underBinder -merge -useContext x2 x3 x4
    refine Does.lets x2 ?_ (fun hx2 => ?_)
    · unfold x2
      refine Does.call State.countFire_does (by decide +kernel) ?_
      exact Does.refl
    refine Does.ite (fun _ => ?_) (fun _ => ?_)
    · exact Does.refl
    · refine Does.ite (fun _ => ?_) (fun _ => ?_)
      · exact hx2
      · refine Does.call State.ringSend_does (by decide +kernel) ?_
        refine Does.call State.setTrig_does (by decide +kernel) ?_
        exact hx2

theorem execStatusRecord_runs {s} : Runs [.fresh, .acq] [] s (execStatusRecord s) := by
  unfold execStatusRecord
  extract_lets -underBinder -merge -useContext x1 x2
  refine Runs.ite (fun _ => ?_) (fun _ => ?_)
  · refine Runs.next ?_
    exact Does.refl
  · refine Runs.next ?_
    refine Does.call State.append_does (by decide +kernel) ?_
    refine Does.call State.mark_does (by decide +kernel) ?_
    exact Does.refl

theorem execTrgDisarm_runs {by_ t s} : Runs [.out, .acq, .links] [10] s (execTrgDisarm by_ t s) := by
  unfold execTrgDisarm
  extract_lets -underBinder -merge -useContext x1 x2
  refine Runs.ite (fun _ => ?_) (fun _ => ?_)
  · refine Runs.next ?_
    exact Does.refl
  · refine Runs.next ?_
    refine Does.call State.disarmTrigger_does (by decide +kernel) ?_
    refine Does.ite (fun _ => ?_) (fun _ => ?_)
    · refine Does.call State.ringSend_does (by decide +kernel) ?_
      exact Does.refl
    · exact Does.refl

theorem State.armTrigger_does {s t a tmo auto} : Does [.agenda, .acq] [10] s (State.armTrigger s t a tmo auto) := by
  unfold State.armTrigger
  extract_lets -underBinder -merge -useContext x1
  refine Does.lets x1 ?_ (fun hx1 => ?_)
  · unfold x1
    refine Does.setFld adr_TRG_STAT (by decide +kernel) ?_
    refine Does.call State.setTrig_does (by decide +kernel) ?_
    exact Does.refl
  refine Does.call State.hold_does (by decide +kernel) ?_
  exact hx1

theorem execRingFire_runs {m crcGood s} : Runs [.agenda, .fresh, .out, .acq, .links] [1, 13] s (execRingFire m crcGood s) := by
  unfold execRingFire
  extract_lets -underBinder -merge -useContext x1
  refine Runs.lets x1 ?_ (fun hx1 => ?_)
  · unfold x1
    refine Does.call State.ringForward_does (by decide +kernel) ?_
    exact Does.refl
  refine Runs.ite (fun _ => ?_) (fun _ => ?_)
  · refine Runs.next ?_
    refine Does.call State.ringBad_does (by decide +kernel) ?_
    exact Does.refl
  · refine Runs.ite (fun _ => ?_) (fun _ => ?_)
    · refine Runs.next ?_
      exact Does.refl
    · refine Runs.ite (fun _ => ?_) (fun _ => ?_)
      · refine Runs.next ?_
        refine Does.call State.lateInternal_does (by decide +kernel) ?_
        exact hx1
      · refine Runs.next ?_
        refine Does.call State.countFire_does (by decide +kernel) ?_
        exact hx1

theorem execTrgFire_runs {by_ t s} : Runs [.agenda, .out, .acq, .links] [] s (execTrgFire by_ t s) := by
  unfold execTrgFire
  extract_lets -underBinder -merge -useContext x1
  refine Runs.next ?_
  refine Does.ite (fun _ => ?_) (fun _ => ?_)
  · exact Does.refl
  · refine Does.call State.fireHere_does (by decide +kernel) ?_
    exact Does.refl

theorem State.demodSample_does {s ch theta f entry first last boundary} : Does [.acq] [] s (State.demodSample s ch theta f
      entry first last boundary) := by
  unfold State.demodSample
  extract_lets -underBinder -merge -useContext x1 x2 x3 x4 x5 x6 x7 x8 x9 x10 x11 x12
  refine Does.lets x1 ?_ (fun hx1 => ?_)
  · unfold x1
    refine Does.ite (fun _ => ?_) (fun _ => ?_)
    · refine Does.call State.restDemod_does (by decide +kernel) ?_
      exact Does.refl
    · exact Does.refl
  refine Does.lets x12 ?_ (fun hx12 => ?_)
  · unfold x12
    refine Does.call State.setAch_does (by decide +kernel) ?_
    exact hx1
  refine Does.ite (fun _ => ?_) (fun _ => ?_)
  · exact hx1
  · refine Does.ite (fun _ => ?_) (fun _ => ?_)
    · exact hx1
    · refine Does.ite (fun _ => ?_) (fun _ => ?_)
      · refine Does.call State.endDemod_does (by decide +kernel) ?_
        exact hx12
      · refine Does.ite (fun _ => ?_) (fun _ => ?_)
        · refine Does.call State.endDemod_does (by decide +kernel) ?_
          exact hx12
        · exact hx12

theorem execTrgArm_runs {by_ t a s} : Runs [.agenda, .fresh, .out, .links] [10] s (execTrgArm by_ t a s) := by
  unfold execTrgArm
  extract_lets -underBinder -merge -useContext x1 x2 x3 x4
  refine Runs.ite (fun _ => ?_) (fun _ => ?_)
  · refine Runs.next ?_
    exact Does.refl
  · refine Runs.ite (fun _ => ?_) (fun _ => ?_)
    · refine Runs.next ?_
      refine Does.call (State.rejectVal_does adr_TRG_CTL) (by decide +kernel) ?_
      exact Does.refl
    · refine Runs.next ?_
      refine Does.call State.hold_does (by decide +kernel) ?_
      refine Does.call State.ringSend_does (by decide +kernel) ?_
      exact Does.refl

end Sys2Proof.Machine
end

