-- ==== Sys2Proof/Laws/Stamps.lean ====
section
/-! SUPPORT. What each operation of Machine/Stamps.lean may change (Laws/Frame.lean says how to read it). -/
namespace Sys2Proof.Machine

set_option Elab.async false

theorem State.dllAcquire_does {s n} : Does [.dlls] [64] s (State.dllAcquire s n) := by
  unfold State.dllAcquire
  extract_lets -underBinder -merge -useContext x1
  refine Does.lets x1 ?_ (fun hx1 => ?_)
  · unfold x1
    refine Does.setBit adr_DLL_STAT (by decide +kernel) ?_
    refine Does.setBit adr_DLL_STAT (by decide +kernel) ?_
    exact Does.refl
  refine Does.put_dlls (by decide +kernel) ?_
  exact hx1

theorem State.setDllLock_does {s n on} : Does [] [64] s (State.setDllLock s n on) := by
  unfold State.setDllLock
  refine Does.setBit adr_DLL_STAT (by decide +kernel) ?_
  refine Does.setBit adr_ISL_STAT (by decide +kernel) ?_
  exact Does.refl

theorem State.dllDown_does {s n} : Does [.meas] [64] s (State.dllDown s n) := by
  unfold State.dllDown
  refine Does.call State.setDllLock_does (by decide +kernel) ?_
  refine Does.ite (fun _ => ?_) (fun _ => ?_)
  · refine Does.call State.spoilDll_does (by decide +kernel) ?_
    exact Does.refl
  · exact Does.refl

theorem execDllCompare_runs {isl pherr s} : Runs [.agenda, .causes, .fresh, .chans, .pins, .meas, .dlls] [64] s
      (execDllCompare isl pherr s) := by
  unfold execDllCompare
  extract_lets -underBinder -merge -useContext x1 x2 x3 x4 x5 x6
  refine Runs.lets x2 ?_ (fun hx2 => ?_)
  · unfold x2
    refine Does.setFld adr_DLL_STAT (by decide +kernel) ?_
    exact Does.refl
  refine Runs.lets x6 ?_ (fun hx6 => ?_)
  · unfold x6
    refine Does.setBit adr_DLL_STAT (by decide +kernel) ?_
    refine Does.setBit adr_DLL_STAT (by decide +kernel) ?_
    exact hx2
  refine Runs.ite (fun _ => ?_) (fun _ => ?_)
  · refine Runs.next ?_
    exact Does.refl
  · refine Runs.ite (fun _ => ?_) (fun _ => ?_)
    · refine Runs.next ?_
      refine Does.call State.raise_does (by decide +kernel) ?_
      refine Does.call State.causeOn_does (by decide +kernel) ?_
      refine Does.call State.dllAcquire_does (by decide +kernel) ?_
      refine Does.call State.islandDriversOff_does (by decide +kernel) ?_
      refine Does.bump adr_DLL_LOSS (by decide +kernel) ?_
      refine Does.call State.dllDown_does (by decide +kernel) ?_
      exact hx2
    · refine Runs.ite (fun _ => ?_) (fun _ => ?_)
      · refine Runs.ite (fun _ => ?_) (fun _ => ?_)
        · refine Runs.next ?_
          refine Does.put_dlls (by decide +kernel) ?_
          exact hx6
        · refine Runs.next ?_
          refine Does.put_dlls (by decide +kernel) ?_
          exact hx2
      · refine Runs.next ?_
        exact hx2

theorem execDllRelock_runs {by_ isl s} : Runs [.agenda, .fresh, .meas, .dlls] [64] s (execDllRelock by_ isl s) := by
  unfold execDllRelock
  extract_lets -underBinder -merge -useContext x1
  refine Runs.ite (fun _ => ?_) (fun _ => ?_)
  · refine Runs.next ?_
    refine Does.call (State.rejectVal_does adr_DLL_CMD) (by decide +kernel) ?_
    exact Does.refl
  · refine Runs.ite (fun _ => ?_) (fun _ => ?_)
    · refine Runs.next ?_
      refine Does.call State.dllAcquire_does (by decide +kernel) ?_
      refine Does.call State.dllDown_does (by decide +kernel) ?_
      exact Does.refl
    · refine Runs.next ?_
      exact Does.refl

theorem State.gateEvents_does {s n p t stamped flags} : Does [.meas] [] s (State.gateEvents s n p t stamped flags) := by
  unfold State.gateEvents
  refine Does.foldl ?_ ?_
  · intro y1 y2
    beta_reduce
    extract_lets -underBinder -merge -useContext x3 x4
    refine Does.lets x3 ?_ (fun hx3 => ?_)
    · unfold x3
      refine Does.call State.openGates_does (by decide +kernel) ?_
      exact Does.refl
    refine Does.ite (fun _ => ?_) (fun _ => ?_)
    · refine Does.call State.setMu_does (by decide +kernel) ?_
      exact hx3
    · exact Does.refl
  · exact Does.refl

theorem State.muStart_does {s n u from_} : Does [.fresh, .meas, .quants, .ships] [64] s (State.muStart s n u from_) := by
  unfold State.muStart
  extract_lets -underBinder -merge -useContext x1 x2
  refine Does.lets x1 ?_ (fun hx1 => ?_)
  · unfold x1
    refine Does.latch adr_MU_CTL (by decide +kernel) ?_
    exact Does.refl
  refine Does.call State.dropQuant_does (by decide +kernel) ?_
  refine Does.call State.setMu_does (by decide +kernel) ?_
  exact hx1

theorem State.showCharge_does {s} : Does [] [14] s (State.showCharge s) := by
  unfold State.showCharge
  refine Does.setReg adr_TWN_SHIPR (by decide +kernel) ?_
  exact Does.refl

theorem execMuEnWrite_runs {by_ isl unit en s} : Runs [.agenda, .fresh, .meas, .quants, .ships] [14, 64] s (execMuEnWrite by_
      isl unit en s) := by
  unfold execMuEnWrite
  extract_lets -underBinder -merge -useContext x1 x2 x3 x4 x5
  refine Runs.lets x5 ?_ (fun hx5 => ?_)
  · unfold x5
    refine Does.call State.showCharge_does (by decide +kernel) ?_
    refine Does.call State.muStart_does (by decide +kernel) ?_
    exact Does.refl
  refine Runs.ite (fun _ => ?_) (fun _ => ?_)
  · refine Runs.ite (fun _ => ?_) (fun _ => ?_)
    · refine Runs.next ?_
      exact Does.refl
    · refine Runs.ite (fun _ => ?_) (fun _ => ?_)
      · refine Runs.next ?_
        refine Does.call (State.rejectVal_does adr_MU_CTL) (by decide +kernel) ?_
        exact Does.refl
      · refine Runs.ite (fun _ => ?_) (fun _ => ?_)
        · refine Runs.next ?_
          refine Does.call (State.rejectVal_does adr_MU_CTL) (by decide +kernel) ?_
          exact Does.refl
        · refine Runs.next ?_
          exact hx5
  · refine Runs.next ?_
    refine Does.call State.showCharge_does (by decide +kernel) ?_
    refine Does.call State.muOff_does (by decide +kernel) ?_
    exact Does.refl

theorem State.muApply_does {s n u c} : Does [.meas] [] s (State.muApply s n u c) := by
  unfold State.muApply
  extract_lets -underBinder -merge -useContext x1
  refine Does.call State.setMu_does (by decide +kernel) ?_
  exact Does.refl

theorem execMuApply_runs {isl unit s} : Runs [.meas] [] s (execMuApply isl unit s) := by
  unfold execMuApply
  refine Runs.next ?_
  refine Does.call State.muApply_does (by decide +kernel) ?_
  exact Does.refl

theorem State.setTac_does {s n k x} : Does [.tacs] [] s (State.setTac s n k x) := by
  unfold State.setTac
  refine Does.put_tacs (by decide +kernel) ?_
  exact Does.refl

theorem State.setStamper_does {s n p x} : Does [.stampers] [] s (State.setStamper s n p x) := by
  unfold State.setStamper
  refine Does.put_stampers (by decide +kernel) ?_
  exact Does.refl

theorem State.unstamped_does {s n p t flags} : Does [.meas, .stampers] [] s (State.unstamped s n p t flags) := by
  unfold State.unstamped
  extract_lets -underBinder -merge -useContext x1
  refine Does.call State.gateEvents_does (by decide +kernel) ?_
  refine Does.call State.setStamper_does (by decide +kernel) ?_
  exact Does.refl

theorem State.counted_does {s n p rise time code} : Does [.fresh, .meas, .stampers, .acq] [64] s (State.counted s n p rise
      time code) := by
  unfold State.counted
  extract_lets -underBinder -merge -useContext x1 x2 x3 x4 x5 x6 x7 x8 x9 x10
  refine Does.lets x10 ?_ (fun hx10 => ?_)
  · unfold x10
    refine Does.call State.setStamper_does (by decide +kernel) ?_
    exact Does.refl
  refine Does.ite (fun _ => ?_) (fun _ => ?_)
  · refine Does.call State.unstamped_does (by decide +kernel) ?_
    refine Does.bump adr_STP_WDISC (by decide +kernel) ?_
    exact Does.refl
  · refine Does.ite (fun _ => ?_) (fun _ => ?_)
    · refine Does.call State.unstamped_does (by decide +kernel) ?_
      exact Does.refl
    · refine Does.ite (fun _ => ?_) (fun _ => ?_)
      · refine Does.call State.unstamped_does (by decide +kernel) ?_
        refine Does.bump adr_STP_LOST (by decide +kernel) ?_
        exact Does.refl
      · refine Does.call State.captureStamp_does (by decide +kernel) ?_
        refine Does.call State.gateEvents_does (by decide +kernel) ?_
        exact hx10

theorem execThresholdCrossing_runs {isl pin slope time code s} : Runs [.fresh, .meas, .stampers, .acq] [64] s
      (execThresholdCrossing isl pin slope time code s) := by
  unfold execThresholdCrossing
  extract_lets -underBinder -merge -useContext x1 x2 x3 x4 x5
  refine Runs.ite (fun _ => ?_) (fun _ => ?_)
  · refine Runs.next ?_
    exact Does.refl
  · refine Runs.ite (fun _ => ?_) (fun _ => ?_)
    · refine Runs.next ?_
      refine Does.call State.setStamper_does (by decide +kernel) ?_
      exact Does.refl
    · refine Runs.next ?_
      refine Does.call State.counted_does (by decide +kernel) ?_
      refine Does.call State.setStamper_does (by decide +kernel) ?_
      exact Does.refl

theorem State.takeApply_does {s n u stop} : Does [.meas] [64] s (State.takeApply s n u stop) := by
  unfold State.takeApply
  extract_lets -underBinder -merge -useContext x1
  split
  · extract_lets -underBinder -merge -useContext x2 x3 x4
    refine Does.ite (fun _ => ?_) (fun _ => ?_)
    · refine Does.setBit adr_MU_STAT (by decide +kernel) ?_
      refine Does.call State.setMu_does (by decide +kernel) ?_
      exact Does.refl
    · exact Does.refl
  · exact Does.refl

theorem execDllLockDone_runs {isl s} : Runs [.causes] [64] s (execDllLockDone isl s) := by
  unfold execDllLockDone
  extract_lets -underBinder -merge -useContext x1
  refine Runs.ite (fun _ => ?_) (fun _ => ?_)
  · refine Runs.next ?_
    refine Does.call State.causeOff_does (by decide +kernel) ?_
    refine Does.call State.setDllLock_does (by decide +kernel) ?_
    refine Does.setBit adr_DLL_STAT (by decide +kernel) ?_
    exact Does.refl
  · refine Runs.next ?_
    exact Does.refl

theorem State.spoilPin_does {s n p} : Does [.meas] [] s (State.spoilPin s n p) := by
  unfold State.spoilPin
  refine Does.foldl ?_ ?_
  · intro y1 y2
    beta_reduce
    refine Does.ite (fun _ => ?_) (fun _ => ?_)
    · refine Does.call State.spoil_does (by decide +kernel) ?_
      exact Does.refl
    · exact Does.refl
  · exact Does.refl

theorem execTacCfgWrite_runs {by_ isl tac en pin s} : Runs [.agenda, .fresh, .meas, .tacs] [64] s (execTacCfgWrite by_ isl
      tac en pin s) := by
  unfold execTacCfgWrite
  extract_lets -underBinder -merge -useContext x1 x2 x3 x4 x5 x6 x7 x8
  refine Runs.lets x6 ?_ (fun hx6 => ?_)
  · unfold x6
    refine Does.ite (fun _ => ?_) (fun _ => ?_)
    · refine Does.call State.spoilPin_does (by decide +kernel) ?_
      exact Does.refl
    · exact Does.refl
  refine Runs.lets x7 ?_ (fun hx7 => ?_)
  · unfold x7
    refine Does.ite (fun _ => ?_) (fun _ => ?_)
    · exact hx6
    · refine Does.call State.spoilPin_does (by decide +kernel) ?_
      exact hx6
  refine Runs.ite (fun _ => ?_) (fun _ => ?_)
  · refine Runs.next ?_
    refine Does.call (State.rejectVal_does adr_TAC_CFG) (by decide +kernel) ?_
    exact Does.refl
  · refine Runs.next ?_
    refine Does.call State.setTac_does (by decide +kernel) ?_
    refine Does.setReg adr_TAC_CFG (by decide +kernel) ?_
    exact hx7

theorem execTacCal_runs {by_ isl tac s} : Runs [.agenda, .fresh] [64] s (execTacCal by_ isl tac s) := by
  unfold execTacCal
  extract_lets -underBinder -merge -useContext x1
  refine Runs.ite (fun _ => ?_) (fun _ => ?_)
  · refine Runs.next ?_
    refine Does.call (State.rejectVal_does adr_TAC_CMD) (by decide +kernel) ?_
    exact Does.refl
  · refine Runs.next ?_
    refine Does.latch adr_TAC_STAT (by decide +kernel) ?_
    exact Does.refl

theorem State.dllOff_does {s n} : Does [.meas] [64] s (State.dllOff s n) := by
  unfold State.dllOff
  extract_lets -underBinder -merge -useContext x1
  refine Does.lets x1 ?_ (fun hx1 => ?_)
  · unfold x1
    refine Does.call State.dllDown_does (by decide +kernel) ?_
    exact Does.refl
  refine Does.setBit adr_DLL_STAT (by decide +kernel) ?_
  refine Does.setBit adr_DLL_STAT (by decide +kernel) ?_
  exact hx1

theorem execGateEnd_runs {isl unit s} : Runs [.agenda, .causes, .free, .fresh, .out, .codes, .meas, .loops, .quants, .ships,
      .cals, .calRec, .twn] [1, 3, 6, 15, 64] s (execGateEnd isl unit s) := by
  unfold execGateEnd
  extract_lets -underBinder -merge -useContext x1 x2 x3
  refine Runs.lets x3 ?_ (fun hx3 => ?_)
  · unfold x3
    refine Does.call State.openGates_does (by decide +kernel) ?_
    exact Does.refl
  split
  · refine Runs.next ?_
    exact hx3
  · extract_lets -underBinder -merge -useContext x4 x5 x6 x7 x8 x9 x10 x11 x12 x13 x14 x15 x16 x17 x18 x19 x20
    refine Runs.lets x5 ?_ (fun hx5 => ?_)
    · unfold x5
      refine Does.call State.takeApply_does (by decide +kernel) ?_
      refine Does.call State.setMu_does (by decide +kernel) ?_
      exact hx3
    refine Runs.lets x20 ?_ (fun hx20 => ?_)
    · unfold x20
      refine Does.setBit adr_MU_STAT (by decide +kernel) ?_
      refine Does.call State.setMu_does (by decide +kernel) ?_
      exact hx5
    refine Runs.ite (fun _ => ?_) (fun _ => ?_)
    · refine Runs.next ?_
      exact hx3
    · refine Runs.ite (fun _ => ?_) (fun _ => ?_)
      · refine Runs.next ?_
        refine Does.call State.giveResult_does (by decide +kernel) ?_
        exact hx5
      · refine Runs.next ?_
        refine Does.call State.giveResult_does (by decide +kernel) ?_
        exact hx20

theorem execTacCalDone_runs {isl tac empty gain table s} : Runs [.agenda, .causes, .tacs] [64] s (execTacCalDone isl tac
      empty gain table s) := by
  unfold execTacCalDone
  extract_lets -underBinder -merge -useContext x1 x2 x3 x4 x5
  refine Runs.lets x4 ?_ (fun hx4 => ?_)
  · unfold x4
    refine Does.setReg adr_TAC_GAIN (by decide +kernel) ?_
    refine Does.setReg adr_TAC_STAT (by decide +kernel) ?_
    exact Does.refl
  refine Runs.ite (fun _ => ?_) (fun _ => ?_)
  · refine Runs.next ?_
    exact Does.refl
  · refine Runs.ite (fun _ => ?_) (fun _ => ?_)
    · refine Runs.next ?_
      refine Does.call State.causeOff_does (by decide +kernel) ?_
      refine Does.call State.setTac_does (by decide +kernel) ?_
      exact hx4
    · refine Runs.next ?_
      refine Does.call State.raise_does (by decide +kernel) ?_
      refine Does.call State.causeOn_does (by decide +kernel) ?_
      exact hx4

theorem State.dllOn_does {s n} : Does [.dlls] [64] s (State.dllOn s n) := by
  unfold State.dllOn
  refine Does.call State.dllAcquire_does (by decide +kernel) ?_
  exact Does.refl

theorem execStpCfgWrite_runs {by_ isl pin data s} : Runs [.agenda, .fresh, .meas, .stampers] [64] s (execStpCfgWrite by_ isl
      pin data s) := by
  unfold execStpCfgWrite
  extract_lets -underBinder -merge -useContext x1 x2 x3 x4 x5
  refine Runs.lets x4 ?_ (fun hx4 => ?_)
  · unfold x4
    refine Does.setReg adr_STP_CFG (by decide +kernel) ?_
    refine Does.call State.spoilPin_does (by decide +kernel) ?_
    exact Does.refl
  refine Runs.ite (fun _ => ?_) (fun _ => ?_)
  · refine Runs.next ?_
    refine Does.call (State.rejectVal_does adr_STP_CFG) (by decide +kernel) ?_
    exact Does.refl
  · refine Runs.next ?_
    refine Does.call State.setStamper_does (by decide +kernel) ?_
    exact hx4

end Sys2Proof.Machine
end

