-- ==== Sys2Proof/Laws/Cal.lean ====
section
/-! SUPPORT. What each operation of Machine/Cal.lean may change (Laws/Frame.lean says how to read it). -/
namespace Sys2Proof.Machine

set_option Elab.async false

theorem State.unit8On_does {s n} : Does [.fresh, .meas, .quants, .ships] [64] s (State.unit8On s n) := by
  unfold State.unit8On
  refine Does.ite (fun _ => ?_) (fun _ => ?_)
  · exact Does.refl
  · refine Does.call State.muStart_does (by decide +kernel) ?_
    exact Does.refl

theorem State.spareOn_does {s q} : Does [.fresh, .meas, .quants, .ships] [64] s (State.spareOn s q) := by
  unfold State.spareOn
  refine Does.ite (fun _ => ?_) (fun _ => ?_)
  · refine Does.call State.unit8On_does (by decide +kernel) ?_
    exact Does.refl
  · exact Does.refl

theorem State.giveBack_does {s q u} : Does [.agenda, .fresh, .out, .codes, .meas, .loops, .quants, .ships, .cals] [6, 64] s
      (State.giveBack s q u) := by
  unfold State.giveBack
  extract_lets -underBinder -merge -useContext x1 x2 x3 x4 x5 x6 x7 x8
  refine Does.lets x5 ?_ (fun hx5 => ?_)
  · unfold x5
    refine Does.call State.setSeqn_does (by decide +kernel) ?_
    exact Does.refl
  refine Does.lets x6 ?_ (fun hx6 => ?_)
  · unfold x6
    refine Does.call State.setOffset_does (by decide +kernel) ?_
    exact hx5
  refine Does.lets x8 ?_ (fun hx8 => ?_)
  · unfold x8
    refine Does.ite (fun _ => ?_) (fun _ => ?_)
    · exact hx5
    · refine Does.call State.setLocal_does (by decide +kernel) ?_
      exact hx6
  refine Does.call State.muOff_does (by decide +kernel) ?_
  refine Does.call State.sendSwitch_does (by decide +kernel) ?_
  exact hx8

theorem State.calResult_does {s0 n u f due} : Does [.agenda, .fresh, .out, .codes, .meas, .loops, .quants, .ships, .cals] [6,
      64] s0 (State.calResult s0 n u f due) := by
  unfold State.calResult
  extract_lets -underBinder -merge -useContext x1
  refine Does.ite (fun _ => ?_) (fun _ => ?_)
  · exact Does.refl
  · split
    · exact Does.refl
    · extract_lets -underBinder -merge -useContext x2 x3 x4 x5 x6 x7 x8
      refine Does.lets x2 ?_ (fun hx2 => ?_)
      · unfold x2
        refine Does.ite (fun _ => ?_) (fun _ => ?_)
        · refine Does.call State.setSeqn_does (by decide +kernel) ?_
          exact Does.refl
        · exact Does.refl
      refine Does.lets x8 ?_ (fun hx8 => ?_)
      · unfold x8
        refine Does.call State.setSeqn_does (by decide +kernel) ?_
        exact hx2
      refine Does.ite (fun _ => ?_) (fun _ => ?_)
      · refine Does.ite (fun _ => ?_) (fun _ => ?_)
        · refine Does.call State.setSeqn_does (by decide +kernel) ?_
          exact hx2
        · exact hx2
      · refine Does.ite (fun _ => ?_) (fun _ => ?_)
        · refine Does.ite (fun _ => ?_) (fun _ => ?_)
          · refine Does.call State.setSeqn_does (by decide +kernel) ?_
            exact hx2
          · refine Does.ite (fun _ => ?_) (fun _ => ?_)
            · refine Does.call State.giveBack_does (by decide +kernel) ?_
              exact hx8
            · exact hx8
        · exact hx2

theorem execCalRecordStored_runs {good s} : Runs [.agenda, .causes, .free, .fresh, .calRec, .mgt] [15, 16] s
      (execCalRecordStored good s) := by
  unfold execCalRecordStored
  split
  · refine Runs.next ?_
    exact Does.refl
  · extract_lets -underBinder -merge -useContext x1 x2 x3 x4 x5 x6 x7 x8 x9
    refine Runs.lets2 x5 ?_ (fun hx5 => ?_)
    · unfold x5
      refine Does2.call State.draw_does (by decide +kernel) ?_
      exact Does.refl
    refine Runs.lets x7 ?_ (fun hx7 => ?_)
    · unfold x7
      refine Does2.snd ?_
      exact hx5
    refine Runs.lets x8 ?_ (fun hx8 => ?_)
    · unfold x8
      refine Does.put_calRec (by decide +kernel) ?_
      exact hx7
    refine Runs.lets x9 ?_ (fun hx9 => ?_)
    · unfold x9
      refine Does.call State.causeOff_does (by decide +kernel) ?_
      refine Does.setReg adr_CAL_REC (by decide +kernel) ?_
      exact hx8
    refine Runs.ite (fun _ => ?_) (fun _ => ?_)
    · refine Runs.next ?_
      exact Does.refl
    · refine Runs.ite (fun _ => ?_) (fun _ => ?_)
      · refine Runs.next ?_
        refine Does.call State.log_does (by decide +kernel) ?_
        exact hx9
      · refine Runs.next ?_
        refine Does.call State.raise_does (by decide +kernel) ?_
        refine Does.call State.causeOn_does (by decide +kernel) ?_
        refine Does.latch adr_CAL_REC (by decide +kernel) ?_
        refine Does.put_calRec (by decide +kernel) ?_
        exact Does.refl

theorem State.pointFreq_does {s q} : Does2 [.free] [] s (State.pointFreq s q) := by
  unfold State.pointFreq
  extract_lets -underBinder -merge -useContext x1
  refine Does2.ite (fun _ => ?_) (fun _ => ?_)
  · refine Does2.pair ?_
    refine Does2.snd ?_
    refine Does2.call State.draw_does (by decide +kernel) ?_
    exact Does.refl
  · refine Does2.pair ?_
    exact Does.refl

theorem execCalqAbort_runs {q s} : Runs [.agenda, .fresh, .out, .codes, .meas, .loops, .quants, .ships, .cals, .calRec] [6,
      15, 64] s (execCalqAbort q s) := by
  unfold execCalqAbort
  refine Runs.next ?_
  refine Does.call State.seqEnd_does (by decide +kernel) ?_
  exact Does.refl

theorem State.pointLevel_does {s q r} : Does2 [.free] [] s (State.pointLevel s q r) := by
  unfold State.pointLevel
  extract_lets -underBinder -merge -useContext x1
  refine Does2.ite (fun _ => ?_) (fun _ => ?_)
  · split
    · refine Does2.pair ?_
      exact Does.refl
    · refine Does2.pair ?_
      refine Does2.snd ?_
      refine Does2.call State.draw_does (by decide +kernel) ?_
      exact Does.refl
  · refine Does2.pair ?_
    exact Does.refl

theorem State.setPoint_does {s q k} : Does [.cals] [15] s (State.setPoint s q k) := by
  unfold State.setPoint
  extract_lets -underBinder -merge -useContext x1 x2 x3 x4
  refine Does.call State.setSeqn_does (by decide +kernel) ?_
  refine Does.setFld adr_CALQ_STAT (by decide +kernel) ?_
  exact Does.refl

theorem State.pointEnd_does {s q r} : Does [.agenda, .free, .fresh, .out, .codes, .meas, .quants, .ships, .cals, .calRec,
      .twn] [15, 64] s (State.pointEnd s q r) := by
  unfold State.pointEnd
  extract_lets -underBinder -merge -useContext x1 x2 x3 x4 x5 x6 x7 x8
  refine Does.lets2 x1 ?_ (fun hx1 => ?_)
  · unfold x1
    refine Does2.call State.pointLevel_does (by decide +kernel) ?_
    exact Does.refl
  refine Does.lets2 x2 ?_ (fun hx2 => ?_)
  · unfold x2
    refine Does2.call State.pointFreq_does (by decide +kernel) ?_
    refine Does2.snd ?_
    exact hx1
  refine Does.lets x3 ?_ (fun hx3 => ?_)
  · unfold x3
    refine Does2.snd ?_
    exact hx2
  refine Does.lets x5 ?_ (fun hx5 => ?_)
  · unfold x5
    refine Does.call State.shipItem_does (by decide +kernel) ?_
    refine Does.call State.setSeqn_does (by decide +kernel) ?_
    exact hx3
  refine Does.lets x7 ?_ (fun hx7 => ?_)
  · unfold x7
    refine Does.call State.unit8Off_does (by decide +kernel) ?_
    refine Does.call State.sendSwitch_does (by decide +kernel) ?_
    exact hx5
  refine Does.ite (fun _ => ?_) (fun _ => ?_)
  · refine Does.call State.setPoint_does (by decide +kernel) ?_
    exact hx5
  · refine Does.ite (fun _ => ?_) (fun _ => ?_)
    · refine Does.call State.seqRelease_does (by decide +kernel) ?_
      exact hx5
    · refine Does.call State.setPhase_does (by decide +kernel) ?_
      refine Does.call State.setSeqn_does (by decide +kernel) ?_
      exact hx7

theorem State.freeCoef_does {s f0} : Does2 [.free] [] s (State.freeCoef s f0) := by
  unfold State.freeCoef
  extract_lets -underBinder -merge -useContext x1 x2 x3
  refine Does2.lets2 x1 ?_ (fun hx1 => ?_)
  · unfold x1
    refine Does2.call State.draw_does (by decide +kernel) ?_
    exact Does.refl
  refine Does2.lets2 x2 ?_ (fun hx2 => ?_)
  · unfold x2
    refine Does2.call State.draw_does (by decide +kernel) ?_
    refine Does2.snd ?_
    exact hx1
  refine Does2.lets2 x3 ?_ (fun hx3 => ?_)
  · unfold x3
    refine Does2.call State.draw_does (by decide +kernel) ?_
    refine Does2.snd ?_
    exact hx2
  refine Does2.pair ?_
  refine Does2.snd ?_
  exact hx3

theorem execCalFitDone_runs {q s} : Runs [.agenda, .free, .fresh, .calRec] [15] s (execCalFitDone q s) := by
  unfold execCalFitDone
  extract_lets -underBinder -merge -useContext x1 x2 x3 x4 x5 x6 x7 x8 x9 x10 x11
  refine Runs.lets2 x6 ?_ (fun hx6 => ?_)
  · unfold x6
    split
    · refine Does2.pair ?_
      exact Does.refl
    · refine Does2.call State.freeCoef_does (by decide +kernel) ?_
      exact Does.refl
  refine Runs.lets x9 ?_ (fun hx9 => ?_)
  · unfold x9
    refine Does.setWide adr_CALQ_C2 (by decide +kernel) ?_
    refine Does.setWide adr_CALQ_C1 (by decide +kernel) ?_
    refine Does.setWide adr_CALQ_C0 (by decide +kernel) ?_
    refine Does.setWide adr_CALQ_F0 (by decide +kernel) ?_
    refine Does2.snd ?_
    exact hx6
  refine Runs.lets x10 ?_ (fun hx10 => ?_)
  · unfold x10
    refine Does.setReg adr_CALQ_RESID (by decide +kernel) ?_
    exact hx9
  refine Runs.ite (fun _ => ?_) (fun _ => ?_)
  · refine Runs.next ?_
    exact Does.refl
  · refine Runs.ite (fun _ => ?_) (fun _ => ?_)
    · refine Runs.next ?_
      refine Does.call State.setPhase_does (by decide +kernel) ?_
      exact hx10
    · refine Runs.next ?_
      refine Does.call State.raise_does (by decide +kernel) ?_
      refine Does.latch adr_CAL_LAT (by decide +kernel) ?_
      refine Does.call State.setPhase_does (by decide +kernel) ?_
      exact hx10

theorem State.setTarget_does {s n u c} : Does [] [64] s (State.setTarget s n u c) := by
  unfold State.setTarget
  refine Does.setWide adr_MU_C2 (by decide +kernel) ?_
  refine Does.setWide adr_MU_C1 (by decide +kernel) ?_
  refine Does.setWide adr_MU_C0 (by decide +kernel) ?_
  refine Does.setWide adr_MU_F0 (by decide +kernel) ?_
  exact Does.refl

theorem execRefCheck_runs {s} : Runs [.calRec] [] s (execRefCheck s) := by
  unfold execRefCheck
  extract_lets -underBinder -merge -useContext x1
  refine Runs.ite (fun _ => ?_) (fun _ => ?_)
  · refine Runs.next ?_
    refine Does.call State.refStart_does (by decide +kernel) ?_
    refine Does.put_calRec (by decide +kernel) ?_
    exact Does.refl
  · refine Runs.next ?_
    exact Does.refl

theorem execCalCommit_runs {by_ q s} : Runs [.agenda, .fresh, .meas, .calRec, .sec] [15, 64] s (execCalCommit by_ q s) := by
  unfold execCalCommit
  extract_lets -underBinder -merge -useContext x1 x2 x3 x4 x5 x6 x7 x8
  refine Runs.lets x6 ?_ (fun hx6 => ?_)
  · unfold x6
    refine Does.setFld adr_CAL_CMD (by decide +kernel) ?_
    exact Does.refl
  refine Runs.lets x8 ?_ (fun hx8 => ?_)
  · unfold x8
    refine Does.call State.askSig_does (by decide +kernel) ?_
    refine Does.put_calRec (by decide +kernel) ?_
    exact hx6
  refine Runs.ite (fun _ => ?_) (fun _ => ?_)
  · refine Runs.next ?_
    refine Does.call (State.rejectVal_does adr_CAL_CMD) (by decide +kernel) ?_
    exact Does.refl
  · split
    · refine Runs.next ?_
      exact hx8
    · refine Runs.next ?_
      refine Does.call State.muApply_does (by decide +kernel) ?_
      refine Does.call State.setTarget_does (by decide +kernel) ?_
      exact hx8

theorem State.joinSpare_does {s q} : Does [.agenda, .fresh, .out, .codes, .meas] [64] s (State.joinSpare s q) := by
  unfold State.joinSpare
  extract_lets -underBinder -merge -useContext x1
  split
  · exact Does.refl
  · extract_lets -underBinder -merge -useContext x2 x3 x4 x5
    refine Does.lets x3 ?_ (fun hx3 => ?_)
    · unfold x3
      refine Does.setReg adr_CMP_CFG (by decide +kernel) ?_
      refine Does.call State.sendSwitch_does (by decide +kernel) ?_
      exact Does.refl
    refine Does.lets x4 ?_ (fun hx4 => ?_)
    · unfold x4
      refine Does.setWide adr_MU_GATE (by decide +kernel) ?_
      refine Does.setReg adr_STP_CFG (by decide +kernel) ?_
      exact hx3
    refine Does.lets x5 ?_ (fun hx5 => ?_)
    · unfold x5
      refine Does.setReg adr_MU_CFG (by decide +kernel) ?_
      refine Does.setReg adr_MU_GPH (by decide +kernel) ?_
      refine Does.setReg adr_MU_HOP (by decide +kernel) ?_
      exact hx4
    split
    · extract_lets -underBinder -merge -useContext x6
      refine Does.call State.setMu_does (by decide +kernel) ?_
      refine Does.call State.setTarget_does (by decide +kernel) ?_
      exact hx5
    · exact hx5

theorem State.swap_does {s q} : Does [.agenda, .fresh, .out, .codes, .loops, .quants, .cals, .calRec] [6, 15, 64] s
      (State.swap s q) := by
  unfold State.swap
  extract_lets -underBinder -merge -useContext x1 x2 x3 x4 x5 x6 x7 x8
  refine Does.lets x3 ?_ (fun hx3 => ?_)
  · unfold x3
    refine Does.call State.setPhase_does (by decide +kernel) ?_
    exact Does.refl
  refine Does.lets x4 ?_ (fun hx4 => ?_)
  · unfold x4
    refine Does.call State.setSeqn_does (by decide +kernel) ?_
    exact hx3
  refine Does.lets x6 ?_ (fun hx6 => ?_)
  · unfold x6
    refine Does.call State.setOffset_does (by decide +kernel) ?_
    exact hx4
  refine Does.lets x8 ?_ (fun hx8 => ?_)
  · unfold x8
    refine Does.ite (fun _ => ?_) (fun _ => ?_)
    · exact hx4
    · refine Does.call State.setLocal_does (by decide +kernel) ?_
      exact hx6
  refine Does.call State.sendSwitch_does (by decide +kernel) ?_
  exact hx8

theorem execCalPhaseEnd_runs {q r s} : Runs [.agenda, .free, .fresh, .out, .codes, .meas, .loops, .quants, .ships, .cals,
      .calRec, .twn] [6, 15, 64] s (execCalPhaseEnd q r s) := by
  unfold execCalPhaseEnd
  extract_lets -underBinder -merge -useContext x1 x2
  refine Runs.ite (fun _ => ?_) (fun _ => ?_)
  · refine Runs.next ?_
    exact Does.refl
  · split
    · refine Runs.ite (fun _ => ?_) (fun _ => ?_)
      · refine Runs.next ?_
        refine Does.call State.setPoint_does (by decide +kernel) ?_
        refine Does.call State.setPhase_does (by decide +kernel) ?_
        exact Does.refl
      · refine Runs.next ?_
        refine Does.call State.setSeqn_does (by decide +kernel) ?_
        refine Does.call State.setPhase_does (by decide +kernel) ?_
        exact Does.refl
    · refine Runs.next ?_
      refine Does.call State.swap_does (by decide +kernel) ?_
      exact Does.refl
    · refine Runs.next ?_
      refine Does.call State.setPoint_does (by decide +kernel) ?_
      refine Does.call State.setPhase_does (by decide +kernel) ?_
      exact Does.refl
    · refine Runs.next ?_
      refine Does.call State.pointEnd_does (by decide +kernel) ?_
      exact Does.refl
    · refine Runs.next ?_
      refine Does.call State.setSeqn_does (by decide +kernel) ?_
      refine Does.call State.setPhase_does (by decide +kernel) ?_
      exact Does.refl
    · split
      · refine Runs.next ?_
        refine Does.call State.setSeqn_does (by decide +kernel) ?_
        refine Does.call State.setPhase_does (by decide +kernel) ?_
        exact Does.refl
      · refine Runs.next ?_
        refine Does.call State.setPhase_does (by decide +kernel) ?_
        exact Does.refl
    · refine Runs.next ?_
      exact Does.refl

theorem execCalqStart_runs {by_ q data s} : Runs [.agenda, .fresh, .out, .codes, .meas, .cals] [15, 64] s (execCalqStart by_
      q data s) := by
  unfold execCalqStart
  extract_lets -underBinder -merge -useContext x1 x2 x3 x4 x5 x6 x7 x8
  refine Runs.lets x3 ?_ (fun hx3 => ?_)
  · unfold x3
    refine Does.setReg adr_CALQ_CMD (by decide +kernel) ?_
    exact Does.refl
  refine Runs.letsF0 x4 ?_ (fun hx4 => ?_)
  · intro y9; unfold x4
    split
    · extract_lets -underBinder -merge -useContext x10
      refine Does.ite (fun _ => ?_) (fun _ => ?_)
      · refine Does.call State.setMu_does (by decide +kernel) ?_
        exact Does.refl
      · exact Does.refl
    · exact Does.refl
  refine Runs.lets x6 ?_ (fun hx6 => ?_)
  · unfold x6
    refine Does.setReg adr_CALQ_STAT (by decide +kernel) ?_
    refine (hx4 _).after ?_
    exact hx3
  refine Runs.lets x8 ?_ (fun hx8 => ?_)
  · unfold x8
    refine Does.call State.hold_does (by decide +kernel) ?_
    refine Does.call State.setSeqn_does (by decide +kernel) ?_
    exact hx6
  refine Runs.ite (fun _ => ?_) (fun _ => ?_)
  · refine Runs.next ?_
    refine Does.call (State.rejectVal_does adr_CALQ_CMD) (by decide +kernel) ?_
    exact Does.refl
  · refine Runs.ite (fun _ => ?_) (fun _ => ?_)
    · refine Runs.next ?_
      refine Does.call State.raise_does (by decide +kernel) ?_
      refine Does.latch adr_CAL_LAT (by decide +kernel) ?_
      refine Does.setFld adr_CALQ_STAT (by decide +kernel) ?_
      refine (hx4 _).after ?_
      exact hx3
    · refine Runs.next ?_
      refine Does.ite (fun _ => ?_) (fun _ => ?_)
      · refine Does.call State.joinSpare_does (by decide +kernel) ?_
        exact hx8
      · refine Does.call State.sendSwitch_does (by decide +kernel) ?_
        exact hx8

theorem execRefCheckDone_runs {dev opened shorted s} : Runs [.agenda, .causes, .fresh, .calRec] [15] s (execRefCheckDone dev
      opened shorted s) := by
  unfold execRefCheckDone
  extract_lets -underBinder -merge -useContext x1 x2 x3
  refine Runs.lets x3 ?_ (fun hx3 => ?_)
  · unfold x3
    refine Does.setReg adr_CAL_REFSTAT (by decide +kernel) ?_
    refine Does.put_calRec (by decide +kernel) ?_
    exact Does.refl
  refine Runs.ite (fun _ => ?_) (fun _ => ?_)
  · refine Runs.next ?_
    exact Does.refl
  · refine Runs.ite (fun _ => ?_) (fun _ => ?_)
    · refine Runs.next ?_
      refine Does.call State.causeOff_does (by decide +kernel) ?_
      exact hx3
    · refine Runs.next ?_
      refine Does.call State.raise_does (by decide +kernel) ?_
      refine Does.call State.causeOn_does (by decide +kernel) ?_
      refine Does.latch adr_CAL_LAT (by decide +kernel) ?_
      exact hx3

end Sys2Proof.Machine
end

