-- ==== Sys2Proof/Laws/Loop.lean ====
section
/-! SUPPORT. What each operation of Machine/Loop.lean may change (Laws/Frame.lean says how to read it). -/
namespace Sys2Proof.Machine

set_option Elab.async false

theorem State.flipBlock_does {s e k} : Does [] [6] s (State.flipBlock s e k) := by
  unfold State.flipBlock
  refine Does.setFld adr_LPE_GEN (by decide +kernel) ?_
  exact Does.refl

theorem State.setEng_does {s e x} : Does [.engs] [] s (State.setEng s e x) := by
  unfold State.setEng
  refine Does.put_engs (by decide +kernel) ?_
  exact Does.refl

theorem State.bgShow_does {s e} : Does [.sram, .engs] [6] s (State.bgShow s e) := by
  unfold State.bgShow
  split
  · exact Does.refl
  · extract_lets -underBinder -merge -useContext x1 x2 x3 x4
    refine Does.lets x2 ?_ (fun hx2 => ?_)
    · unfold x2
      split
      · refine Does.put_sram (by decide +kernel) (fun h => Memory.wf_writeBytes _ _ _ h) ?_
        exact Does.refl
      · exact Does.refl
    refine Does.lets x4 ?_ (fun hx4 => ?_)
    · unfold x4
      refine Does.call State.setEng_does (by decide +kernel) ?_
      refine Does.setFld adr_ENG_BGSTAT (by decide +kernel) ?_
      exact hx2
    refine Does.ite (fun _ => ?_) (fun _ => ?_)
    · refine Does.setFld adr_LPE_CLAIM (by decide +kernel) ?_
      refine Does.call State.flipBlock_does (by decide +kernel) ?_
      exact hx4
    · exact hx4

theorem State.showBg_does {s e} : Does [] [6] s (State.showBg s e) := by
  unfold State.showBg
  extract_lets -underBinder -merge -useContext x1
  refine Does.setBit adr_ENG_STAT (by decide +kernel) ?_
  refine Does.setFld adr_ENG_STAT (by decide +kernel) ?_
  exact Does.refl

theorem State.bgStart_does {s e id k} : Does [.engs] [6] s (State.bgStart s e id k) := by
  unfold State.bgStart
  extract_lets -underBinder -merge -useContext x1 x2 x3 x4
  refine Does.call State.showBg_does (by decide +kernel) ?_
  refine Does.setReg adr_ENG_BGSTAT (by decide +kernel) ?_
  refine Does.setFld adr_LPE_CLAIM (by decide +kernel) ?_
  refine Does.call State.setEng_does (by decide +kernel) ?_
  exact Does.refl

theorem State.bgTake_does {s e} : Does [.engs] [6] s (State.bgTake s e) := by
  unfold State.bgTake
  extract_lets -underBinder -merge -useContext x1
  split
  · refine Does.ite (fun _ => ?_) (fun _ => ?_)
    · exact Does.refl
    · refine Does.call State.bgStart_does (by decide +kernel) ?_
      refine Does.call State.setEng_does (by decide +kernel) ?_
      exact Does.refl
  · exact Does.refl

theorem State.bgAbortAll_does {s e latch} : Does [.fresh, .sram, .engs] [6] s (State.bgAbortAll s e latch) := by
  unfold State.bgAbortAll
  extract_lets -underBinder -merge -useContext x1 x2 x3 x4
  refine Does.lets x1 ?_ (fun hx1 => ?_)
  · unfold x1
    refine Does.call State.bgShow_does (by decide +kernel) ?_
    exact Does.refl
  refine Does.lets x3 ?_ (fun hx3 => ?_)
  · unfold x3
    refine Does.setReg adr_LPE_CLAIM (by decide +kernel) ?_
    refine Does.call State.setEng_does (by decide +kernel) ?_
    exact hx1
  refine Does.lets x4 ?_ (fun hx4 => ?_)
  · unfold x4
    refine Does.setFld adr_ENG_BGPC (by decide +kernel) ?_
    refine Does.ite (fun _ => ?_) (fun _ => ?_)
    · refine Does.latch adr_LPE_LAT (by decide +kernel) ?_
      exact hx3
    · exact hx3
  refine Does.call State.showBg_does (by decide +kernel) ?_
  exact hx4

theorem State.bgNote_does {s e k before m} : Does [.engs] [] s (State.bgNote s e k before m) := by
  unfold State.bgNote
  extract_lets -underBinder -merge -useContext x1
  refine Does.ite (fun _ => ?_) (fun _ => ?_)
  · exact Does.refl
  · refine Does.call State.setEng_does (by decide +kernel) ?_
    exact Does.refl

theorem State.corrected_does {s e} : Does [.agenda, .fresh] [6] s (State.corrected s e) := by
  unfold State.corrected
  refine Does.call State.raise_does (by decide +kernel) ?_
  refine Does.bump adr_LPE_CS_ECC (by decide +kernel) ?_
  exact Does.refl

theorem State.trap_does {s e id bg slot upc cause} : Does [.agenda, .causes, .free, .fresh, .chans, .engs] [1, 3, 6] s
      (State.trap s e id bg slot upc cause) := by
  unfold State.trap
  extract_lets -underBinder -merge -useContext x1 x2 x3 x4
  refine Does.lets x2 ?_ (fun hx2 => ?_)
  · unfold x2
    refine Does.latch adr_ENG_RESTART (by decide +kernel) ?_
    refine Does.setReg adr_ENG_TRAP (by decide +kernel) ?_
    refine Does.latch adr_LPE_LAT (by decide +kernel) ?_
    exact Does.refl
  refine Does.lets x4 ?_ (fun hx4 => ?_)
  · unfold x4
    refine Does.call State.raise_does (by decide +kernel) ?_
    refine Does.call State.causeOn_does (by decide +kernel) ?_
    refine Does.call State.showBg_does (by decide +kernel) ?_
    refine Does.call State.setEng_does (by decide +kernel) ?_
    exact hx2
  refine Does.foldl ?_ ?_
  · intro y5 y6
    beta_reduce
    refine Does.ite (fun _ => ?_) (fun _ => ?_)
    · refine Does.call State.post_does (by decide +kernel) ?_
      refine Does.call State.loopStops_does (by decide +kernel) ?_
      exact Does.refl
    · exact Does.refl
  · exact hx4

theorem State.bgUpTo_does {s e stop cycles upset} : Does [.agenda, .causes, .free, .fresh, .sram, .chans, .engs] [1, 3, 6] s
      (State.bgUpTo s e stop cycles upset) := by
  unfold State.bgUpTo
  split
  · exact Does.refl
  · extract_lets -underBinder -merge -useContext x1 x2 x3 x4 x5 x6 x7
    refine Does.lets x5 ?_ (fun hx5 => ?_)
    · unfold x5
      split
      · refine Does.ite (fun _ => ?_) (fun _ => ?_)
        · refine Does.call State.corrected_does (by decide +kernel) ?_
          exact Does.refl
        · exact Does.refl
      · exact Does.refl
    refine Does.ite (fun _ => ?_) (fun _ => ?_)
    · exact Does.refl
    · split
      · extract_lets -underBinder -merge -useContext x8 x9 x10 x11
        refine Does.lets x8 ?_ (fun hx8 => ?_)
        · unfold x8
          refine Does.call State.bgNote_does (by decide +kernel) ?_
          exact hx5
        refine Does.lets x10 ?_ (fun hx10 => ?_)
        · unfold x10
          refine Does.call State.setEng_does (by decide +kernel) ?_
          exact hx8
        refine Does.lets x11 ?_ (fun hx11 => ?_)
        · unfold x11
          refine Does.ite (fun _ => ?_) (fun _ => ?_)
          · exact hx10
          · refine Does.setFld adr_LPE_CLAIM (by decide +kernel) ?_
            exact hx10
        refine Does.call State.showBg_does (by decide +kernel) ?_
        refine Does.setReg adr_ENG_BGPC (by decide +kernel) ?_
        exact hx11
      · refine Does.call State.trap_does (by decide +kernel) ?_
        refine Does.call State.bgAbortAll_does (by decide +kernel) ?_
        refine Does.call State.bgNote_does (by decide +kernel) ?_
        exact hx5
      · extract_lets -underBinder -merge -useContext x12 x13
        refine Does.lets x12 ?_ (fun hx12 => ?_)
        · unfold x12
          refine Does.call State.bgNote_does (by decide +kernel) ?_
          exact hx5
        refine Does.setFld adr_ENG_BGPC (by decide +kernel) ?_
        refine Does.call State.setEng_does (by decide +kernel) ?_
        exact hx12

theorem State.bgTick_does {s e} : Does [.agenda, .causes, .free, .fresh, .sram, .chans, .engs] [1, 3, 6] s (State.bgTick s e) := by
  unfold State.bgTick
  refine Does.ite (fun _ => ?_) (fun _ => ?_)
  · refine Does.call State.bgShow_does (by decide +kernel) ?_
    refine Does.call State.bgUpTo_does (by decide +kernel) ?_
    refine Does.call State.bgTake_does (by decide +kernel) ?_
    exact Does.refl
  · exact Does.refl

theorem State.deliverAt_does {s e ch leaves due goff set} : Does [.agenda, .free, .fresh] [3] s (State.deliverAt s e ch
      leaves due goff set) := by
  unfold State.deliverAt
  extract_lets -underBinder -merge -useContext x1 x2
  refine Does.lets x2 ?_ (fun hx2 => ?_)
  · unfold x2
    refine Does.put_free (by decide +kernel) ?_
    exact Does.refl
  refine Does.ite (fun _ => ?_) (fun _ => ?_)
  · refine Does.call State.hold_does (by decide +kernel) ?_
    refine Does.call State.fordSeen_does (by decide +kernel) ?_
    exact hx2
  · exact hx2

theorem State.finish_does {s e ch leaves due goff set h} : Does [.agenda, .free, .fresh, .twn] [3, 6] s (State.finish s e ch
      leaves due goff set h) := by
  unfold State.finish
  extract_lets -underBinder -merge -useContext x1 x2
  refine Does.lets x1 ?_ (fun hx1 => ?_)
  · unfold x1
    refine Does.setBit adr_LCH_STAT (by decide +kernel) ?_
    exact Does.refl
  refine Does.lets x2 ?_ (fun hx2 => ?_)
  · unfold x2
    split
    · refine Does.setReg adr_LCH_H (by decide +kernel) ?_
      exact hx1
    · exact hx1
  refine Does.call State.deliverAt_does (by decide +kernel) ?_
  refine Does.call State.tickItem_does (by decide +kernel) ?_
  exact hx2

theorem State.showSaved_does {s e m} : Does [] [6] s (State.showSaved s e m) := by
  unfold State.showSaved
  refine Does.setReg adr_ENG_BGPC (by decide +kernel) ?_
  exact Does.refl

theorem State.bgCut_does {s e} : Does [.fresh, .engs] [6] s (State.bgCut s e) := by
  unfold State.bgCut
  split
  · extract_lets -underBinder -merge -useContext x1
    refine Does.ite (fun _ => ?_) (fun _ => ?_)
    · exact Does.refl
    · refine Does.call State.showSaved_does (by decide +kernel) ?_
      refine Does.bump adr_ENG_CUTS (by decide +kernel) ?_
      refine Does.call State.setEng_does (by decide +kernel) ?_
      exact Does.refl
  · exact Does.refl

theorem State.occupy_does {s e cost} : Does1 [.fresh, .engs] [6] s (State.occupy s e cost) := by
  unfold State.occupy
  extract_lets -underBinder -merge -useContext x1 x2 x3 x4
  refine Does1.pair ?_
  refine Does.call State.bgCut_does (by decide +kernel) ?_
  refine Does.maxReg adr_ENG_MAXD (by decide +kernel) ?_
  exact Does.call State.setEng_does (by decide +kernel) Does.refl

theorem State.runCustom_does {s e ch law pb due per index upset} : Does [.agenda, .causes, .free, .fresh, .chans, .engs,
      .loops, .twn] [1, 3, 6] s (State.runCustom s e ch law pb due per index upset) := by
  unfold State.runCustom
  extract_lets -underBinder -merge -useContext x1
  split
  · extract_lets -underBinder -merge -useContext x2 x3 x4 x5 x6
    refine Does.lets1 x2 ?_ (fun hx2 => ?_)
    · unfold x2
      refine Does1.call State.occupy_does (by decide +kernel) ?_
      exact Does.refl
    refine Does.call State.finish_does (by decide +kernel) ?_
    refine Does.call State.setLch_does (by decide +kernel) ?_
    refine Does1.fst ?_
    exact hx2
  · extract_lets -underBinder -merge -useContext x7 x8
    refine Does.lets1 x7 ?_ (fun hx7 => ?_)
    · unfold x7
      refine Does1.call State.occupy_does (by decide +kernel) ?_
      exact Does.refl
    refine Does.lets x8 ?_ (fun hx8 => ?_)
    · unfold x8
      refine Does.call State.trap_does (by decide +kernel) ?_
      refine Does1.fst ?_
      exact hx7
    refine Does.call State.finish_does (by decide +kernel) ?_
    refine Does.call State.excursion_does (by decide +kernel) ?_
    exact hx8
  · extract_lets -underBinder -merge -useContext x9
    refine Does.lets1 x9 ?_ (fun hx9 => ?_)
    · unfold x9
      refine Does1.call State.occupy_does (by decide +kernel) ?_
      exact Does.refl
    refine Does.call State.finish_does (by decide +kernel) ?_
    refine Does1.fst ?_
    exact hx9

theorem execLpeFlip_runs {by_ blk s} : Runs [.agenda, .fresh] [6] s (execLpeFlip by_ blk s) := by
  unfold execLpeFlip
  refine Runs.next ?_
  refine Does.ite (fun _ => ?_) (fun _ => ?_)
  · refine Does.call (State.rejectVal_does adr_LPE_FLIP) (by decide +kernel) ?_
    exact Does.refl
  · refine Does.call State.flipBlock_does (by decide +kernel) ?_
    exact Does.refl

theorem State.trapStandard_does {s e ch law due} : Does [.agenda, .causes, .free, .fresh, .chans, .engs, .twn] [1, 3, 6] s
      (State.trapStandard s e ch law due) := by
  unfold State.trapStandard
  extract_lets -underBinder -merge -useContext x1 x2 x3
  refine Does.lets2 x1 ?_ (fun hx1 => ?_)
  · unfold x1
    refine Does2.call State.draw_does (by decide +kernel) ?_
    exact Does.refl
  refine Does.lets1 x2 ?_ (fun hx2 => ?_)
  · unfold x2
    refine Does1.call State.occupy_does (by decide +kernel) ?_
    refine Does2.snd ?_
    exact hx1
  refine Does.lets x3 ?_ (fun hx3 => ?_)
  · unfold x3
    refine Does.call State.trap_does (by decide +kernel) ?_
    refine Does1.fst ?_
    exact hx2
  refine Does.call State.finish_does (by decide +kernel) ?_
  refine Does.call State.excursion_does (by decide +kernel) ?_
  exact hx3

theorem State.loopStarts_does {s ch} : Does [.loops] [] s (State.loopStarts s ch) := by
  unfold State.loopStarts
  extract_lets -underBinder -merge -useContext x1
  refine Does.call State.setLch_does (by decide +kernel) ?_
  exact Does.refl

theorem execBgRoutineRun_runs {eng cycles upset s} : Runs [.agenda, .causes, .free, .fresh, .sram, .chans, .engs] [1, 3, 6] s
      (execBgRoutineRun eng cycles upset s) := by
  unfold execBgRoutineRun
  extract_lets -underBinder -merge -useContext x1
  refine Runs.next ?_
  refine Does.ite (fun _ => ?_) (fun _ => ?_)
  · refine Does.call State.bgUpTo_does (by decide +kernel) ?_
    refine Does.call State.bgTake_does (by decide +kernel) ?_
    exact Does.refl
  · exact Does.refl

theorem State.runStandard_does {s e ch law pb due period} : Does [.agenda, .free, .fresh, .engs, .loops, .twn] [3, 6] s
      (State.runStandard s e ch law pb due period) := by
  unfold State.runStandard
  extract_lets -underBinder -merge -useContext x1 x2 x3 x4 x5 x6
  refine Does.lets1 x2 ?_ (fun hx2 => ?_)
  · unfold x2
    refine Does1.call State.occupy_does (by decide +kernel) ?_
    exact Does.refl
  refine Does.lets x6 ?_ (fun hx6 => ?_)
  · unfold x6
    refine Does.setBit adr_LCH_STAT (by decide +kernel) ?_
    refine Does.call State.setLch_does (by decide +kernel) ?_
    refine Does1.fst ?_
    exact hx2
  refine Does.ite (fun _ => ?_) (fun _ => ?_)
  · refine Does.call State.finish_does (by decide +kernel) ?_
    refine Does.call State.setLch_does (by decide +kernel) ?_
    refine Does1.fst ?_
    exact hx2
  · refine Does.call State.finish_does (by decide +kernel) ?_
    exact hx6

theorem State.settle50_does {s ch} : Does [.causes] [] s (State.settle50 s ch) := by
  unfold State.settle50
  refine Does.ite (fun _ => ?_) (fun _ => ?_)
  · refine Does.call State.causeOff_does (by decide +kernel) ?_
    exact Does.refl
  · exact Does.refl

theorem execBgRequest_runs {by_ eng id blk s} : Runs [.agenda, .fresh, .engs] [6] s (execBgRequest by_ eng id blk s) := by
  unfold execBgRequest
  extract_lets -underBinder -merge -useContext x1 x2
  refine Runs.ite (fun _ => ?_) (fun _ => ?_)
  · refine Runs.next ?_
    refine Does.call State.showBg_does (by decide +kernel) ?_
    refine Does.call State.setEng_does (by decide +kernel) ?_
    exact Does.refl
  · refine Runs.next ?_
    refine Does.call (State.rejectVal_does adr_ENG_BGREQ) (by decide +kernel) ?_
    exact Does.refl

theorem State.judgeUpdate_does {s e ch lacks mismatch} : Does [.agenda, .causes, .fresh, .loops] [6] s (State.judgeUpdate s e
      ch lacks mismatch) := by
  unfold State.judgeUpdate
  extract_lets -underBinder -merge -useContext x1 x2 x3 x4 x5
  refine Does.lets x2 ?_ (fun hx2 => ?_)
  · unfold x2
    refine Does.setBit adr_LCH_STAT (by decide +kernel) ?_
    refine Does.call State.setLch_does (by decide +kernel) ?_
    exact Does.refl
  refine Does.lets x3 ?_ (fun hx3 => ?_)
  · unfold x3
    refine Does.ite (fun _ => ?_) (fun _ => ?_)
    · refine Does.bump adr_LCH_NOM (by decide +kernel) ?_
      refine Does.latch adr_LPE_LAT (by decide +kernel) ?_
      exact hx2
    · refine Does.call State.causeOff_does (by decide +kernel) ?_
      exact hx2
  refine Does.lets x4 ?_ (fun hx4 => ?_)
  · unfold x4
    refine Does.ite (fun _ => ?_) (fun _ => ?_)
    · refine Does.call State.raise_does (by decide +kernel) ?_
      refine Does.call State.causeOn_does (by decide +kernel) ?_
      exact hx3
    · exact hx3
  refine Does.lets x5 ?_ (fun hx5 => ?_)
  · unfold x5
    refine Does.latch adr_LPE_LAT (by decide +kernel) ?_
    exact hx4
  refine Does.ite (fun _ => ?_) (fun _ => ?_)
  · refine Does.ite (fun _ => ?_) (fun _ => ?_)
    · exact hx5
    · refine Does.call State.raise_does (by decide +kernel) ?_
      refine Does.call State.causeOn_does (by decide +kernel) ?_
      exact hx5
  · refine Does.call State.causeOff_does (by decide +kernel) ?_
    exact hx4

theorem State.unmatch_does {s ch} : Does [.causes, .loops] [] s (State.unmatch s ch) := by
  unfold State.unmatch
  extract_lets -underBinder -merge -useContext x1
  refine Does.ite (fun _ => ?_) (fun _ => ?_)
  · refine Does.call State.causeOff_does (by decide +kernel) ?_
    refine Does.call State.setLch_does (by decide +kernel) ?_
    exact Does.refl
  · exact Does.refl

theorem State.bgCatch_does {s e} : Does [.agenda, .causes, .free, .fresh, .sram, .chans, .engs] [1, 3, 6] s (State.bgCatch s
      e) := by
  unfold State.bgCatch
  refine Does.ite (fun _ => ?_) (fun _ => ?_)
  · refine Does.call State.bgShow_does (by decide +kernel) ?_
    refine Does.call State.bgUpTo_does (by decide +kernel) ?_
    refine Does.call State.bgShow_does (by decide +kernel) ?_
    exact Does.refl
  · exact Does.refl

theorem State.noLaw_does {s e ch due} : Does [.agenda, .free, .fresh, .engs, .twn] [3, 6] s (State.noLaw s e ch due) := by
  unfold State.noLaw
  extract_lets -underBinder -merge -useContext x1
  refine Does.lets1 x1 ?_ (fun hx1 => ?_)
  · unfold x1
    refine Does1.call State.occupy_does (by decide +kernel) ?_
    exact Does.refl
  refine Does.call State.finish_does (by decide +kernel) ?_
  refine Does1.fst ?_
  exact hx1

theorem State.runUpdate_does {s0 c upset} : Does [.agenda, .causes, .free, .fresh, .sram, .chans, .engs, .loops, .twn] [1, 3,
      6] s0 (State.runUpdate s0 c upset) := by
  unfold State.runUpdate
  split
  · exact Does.refl
  · extract_lets -underBinder -merge -useContext x1 x2 x3 x4 x5 x6 x7 x8 x9 x10 x11 x12 x13
    refine Does.lets x2 ?_ (fun hx2 => ?_)
    · unfold x2
      refine Does.call State.bgCatch_does (by decide +kernel) ?_
      exact Does.refl
    refine Does.lets x4 ?_ (fun hx4 => ?_)
    · unfold x4
      refine Does.call State.setLch_does (by decide +kernel) ?_
      exact hx2
    refine Does.lets x11 ?_ (fun hx11 => ?_)
    · unfold x11
      refine Does.call State.judgeUpdate_does (by decide +kernel) ?_
      refine Does.bump adr_LCH_UPD (by decide +kernel) ?_
      refine Does.setFld adr_LCH_LAW (by decide +kernel) ?_
      exact hx4
    refine Does.lets x12 ?_ (fun hx12 => ?_)
    · unfold x12
      split
      · refine Does.call State.corrected_does (by decide +kernel) ?_
        exact hx11
      · exact hx11
    refine Does.ite (fun _ => ?_) (fun _ => ?_)
    · refine Does.call State.finish_does (by decide +kernel) ?_
      exact hx4
    · refine Does.ite (fun _ => ?_) (fun _ => ?_)
      · refine Does.call State.noLaw_does (by decide +kernel) ?_
        exact hx12
      · refine Does.ite (fun _ => ?_) (fun _ => ?_)
        · refine Does.ite (fun _ => ?_) (fun _ => ?_)
          · refine Does.call State.trapStandard_does (by decide +kernel) ?_
            exact hx12
          · refine Does.call State.runStandard_does (by decide +kernel) ?_
            exact hx12
        · refine Does.call State.runCustom_does (by decide +kernel) ?_
          exact hx12

theorem execLoopUpdate_runs {ch upset s} : Runs [.agenda, .causes, .free, .fresh, .sram, .chans, .engs, .loops, .twn] [1, 3,
      6] s (execLoopUpdate ch upset s) := by
  unfold execLoopUpdate
  extract_lets -underBinder -merge -useContext x1 x2 x3
  refine Runs.lets x3 ?_ (fun hx3 => ?_)
  · unfold x3
    refine Does.ite (fun _ => ?_) (fun _ => ?_)
    · refine Does.foldl ?_ ?_
      · intro y4 y5
        beta_reduce
        refine Does.call State.runUpdate_does (by decide +kernel) ?_
        exact Does.refl
      · exact Does.refl
    · exact Does.refl
  refine Runs.next ?_
  refine Does.call State.runUpdate_does (by decide +kernel) ?_
  exact hx3

theorem execEngRestart_runs {eng s} : Runs [.causes, .loops] [6] s (execEngRestart eng s) := by
  unfold execEngRestart
  extract_lets -underBinder -merge -useContext x1 x2
  refine Runs.lets x2 ?_ (fun hx2 => ?_)
  · unfold x2
    refine Does.call State.causeOff_does (by decide +kernel) ?_
    refine Does.setFld adr_ENG_RESTART (by decide +kernel) ?_
    exact Does.refl
  refine Runs.ite (fun _ => ?_) (fun _ => ?_)
  · refine Runs.next ?_
    refine Does.foldl ?_ ?_
    · intro y3 y4
      beta_reduce
      extract_lets -underBinder -merge -useContext x5
      refine Does.ite (fun _ => ?_) (fun _ => ?_)
      · refine Does.call State.setLch_does (by decide +kernel) ?_
        exact Does.refl
      · exact Does.refl
    · exact hx2
  · refine Runs.next ?_
    exact Does.refl

theorem State.selectLaw_does {s ch law blk} : Does [.agenda, .fresh, .loops] [6] s (State.selectLaw s ch law blk) := by
  unfold State.selectLaw
  extract_lets -underBinder -merge -useContext x1 x2 x3
  refine Does.lets x2 ?_ (fun hx2 => ?_)
  · unfold x2
    refine Does.setReg adr_LCH_LAW (by decide +kernel) ?_
    exact Does.refl
  refine Does.ite (fun _ => ?_) (fun _ => ?_)
  · exact Does.refl
  · refine Does.ite (fun _ => ?_) (fun _ => ?_)
    · refine Does.call State.raise_does (by decide +kernel) ?_
      refine Does.latch adr_LPE_LAT (by decide +kernel) ?_
      exact Does.refl
    · refine Does.ite (fun _ => ?_) (fun _ => ?_)
      · exact hx2
      · refine Does.call State.setLch_does (by decide +kernel) ?_
        exact hx2

theorem execBgAbort_runs {eng s} : Runs [.fresh, .sram, .engs] [6] s (execBgAbort eng s) := by
  unfold execBgAbort
  refine Runs.next ?_
  refine Does.call State.bgAbortAll_does (by decide +kernel) ?_
  exact Does.refl

theorem execLchEnWrite_runs {by_ ch en s} : Runs [.agenda, .causes, .fresh, .chans, .loops] [6] s (execLchEnWrite by_ ch en s) := by
  unfold execLchEnWrite
  extract_lets -underBinder -merge -useContext x1
  refine Runs.ite (fun _ => ?_) (fun _ => ?_)
  · refine Runs.next ?_
    exact Does.refl
  · refine Runs.ite (fun _ => ?_) (fun _ => ?_)
    · refine Runs.next ?_
      refine Does.call (State.rejectVal_does adr_LCH_CTL) (by decide +kernel) ?_
      exact Does.refl
    · refine Runs.ite (fun _ => ?_) (fun _ => ?_)
      · refine Runs.ite (fun _ => ?_) (fun _ => ?_)
        · refine Runs.next ?_
          exact Does.refl
        · refine Runs.next ?_
          refine Does.call State.loopStarts_does (by decide +kernel) ?_
          refine Does.latch adr_LCH_CTL (by decide +kernel) ?_
          exact Does.refl
      · refine Runs.next ?_
        refine Does.call State.unmatch_does (by decide +kernel) ?_
        refine Does.call State.loopStops_does (by decide +kernel) ?_
        refine Does.setFld adr_LCH_CTL (by decide +kernel) ?_
        exact Does.refl

end Sys2Proof.Machine
end

