-- ==== Sys2Proof/Laws/Segment.lean ====
section
/-! SUPPORT. What each operation of Machine/Segment.lean may change (Laws/Frame.lean says how to read it). -/
namespace Sys2Proof.Machine

set_option Elab.async false

theorem State.segPost_does {s c set} : Does [.agenda, .free, .fresh] [3] s (State.segPost s c set) := by
  unfold State.segPost
  extract_lets -underBinder -merge -useContext x1 x2
  refine Does.lets x2 ?_ (fun hx2 => ?_)
  · unfold x2
    refine Does.put_free (by decide +kernel) ?_
    exact Does.refl
  refine Does.call State.hold_does (by decide +kernel) ?_
  refine Does.call State.fordSeen_does (by decide +kernel) ?_
  exact hx2

theorem State.fillWindow_does {s sid} : Does [.sram] [] s (State.fillWindow s sid) := by
  unfold State.fillWindow
  extract_lets -underBinder -merge -useContext x1
  split
  · exact Does.refl
  · refine Does.put_sram (by decide +kernel) (fun h => Memory.wf_foldl (fun _ _ h => by dsimp only; split <;> simp [h]) h) ?_
    exact Does.refl

theorem State.segResult_does {s q cause} : Does [.agenda] [7] s (State.segResult s q cause) := by
  unfold State.segResult
  extract_lets -underBinder -merge -useContext x1 x2
  refine Does.lets x2 ?_ (fun hx2 => ?_)
  · unfold x2
    refine Does.setReg adr_SEG_CSTAT (by decide +kernel) ?_
    exact Does.refl
  refine Does.ite (fun _ => ?_) (fun _ => ?_)
  · exact hx2
  · refine Does.call State.raise_does (by decide +kernel) ?_
    exact hx2

theorem execSealDone_runs {seq s} : Runs [.agenda, .sram] [7] s (execSealDone seq s) := by
  unfold execSealDone
  extract_lets -underBinder -merge -useContext x1 x2 x3
  refine Runs.lets x3 ?_ (fun hx3 => ?_)
  · unfold x3
    refine Does.foldl ?_ ?_
    · intro y4 y5
      beta_reduce
      refine Does.call State.fillWindow_does (by decide +kernel) ?_
      exact Does.refl
    · exact Does.refl
  refine Runs.ite (fun _ => ?_) (fun _ => ?_)
  · refine Runs.ite (fun _ => ?_) (fun _ => ?_)
    · refine Runs.next ?_
      refine Does.call State.segResult_does (by decide +kernel) ?_
      refine Does.setFld adr_SEG_SEALED (by decide +kernel) ?_
      exact hx3
    · refine Runs.next ?_
      refine Does.call State.segResult_does (by decide +kernel) ?_
      exact Does.refl
  · refine Runs.next ?_
    exact Does.refl

theorem State.setPlayer_does {s c x} : Does [.players] [] s (State.setPlayer s c x) := by
  unfold State.setPlayer
  refine Does.put_players (by decide +kernel) ?_
  exact Does.refl

theorem State.putPlayer_does {s c x} : Does [.players] [7] s (State.putPlayer s c x) := by
  unfold State.putPlayer
  extract_lets -underBinder -merge -useContext x1
  refine Does.setBit adr_PL_STAT (by decide +kernel) ?_
  refine Does.call State.setPlayer_does (by decide +kernel) ?_
  exact Does.refl

theorem State.emitSample_does {s c x} : Does [.players] [7] s (State.emitSample s c x) := by
  unfold State.emitSample
  extract_lets -underBinder -merge -useContext x1
  refine Does.setWide adr_PL_PH (by decide +kernel) ?_
  refine Does.setReg adr_PL_SP (by decide +kernel) ?_
  refine Does.call State.setPlayer_does (by decide +kernel) ?_
  exact Does.refl

theorem State.markChan_does {s c mc} : Does [.acq] [] s (State.markChan s c mc) := by
  unfold State.markChan
  extract_lets -underBinder -merge -useContext x1
  refine Does.call State.setAch_does (by decide +kernel) ?_
  exact Does.refl

theorem State.showPlayed_does {s c y newSat fb left} : Does [.agenda, .fresh] [7] s (State.showPlayed s c y newSat fb left) := by
  unfold State.showPlayed
  extract_lets -underBinder -merge -useContext x1 x2 x3
  refine Does.lets x1 ?_ (fun hx1 => ?_)
  · unfold x1
    refine Does.ite (fun _ => ?_) (fun _ => ?_)
    · refine Does.latch adr_SEG_LAT (by decide +kernel) ?_
      refine Does.latch adr_PL_LAT (by decide +kernel) ?_
      exact Does.refl
    · exact Does.refl
  refine Does.lets x2 ?_ (fun hx2 => ?_)
  · unfold x2
    refine Does.ite (fun _ => ?_) (fun _ => ?_)
    · refine Does.call State.raise_does (by decide +kernel) ?_
      exact hx1
    · exact hx1
  refine Does.lets x3 ?_ (fun hx3 => ?_)
  · unfold x3
    refine Does.ite (fun _ => ?_) (fun _ => ?_)
    · refine Does.bump adr_PL_STARVE (by decide +kernel) ?_
      exact hx2
    · exact hx2
  refine Does.setReg adr_PL_LOOP (by decide +kernel) ?_
  refine Does.setReg adr_PL_SAMP (by decide +kernel) ?_
  exact hx3

theorem State.setPlState_does {s c st} : Does [.causes] [7] s (State.setPlState s c st) := by
  unfold State.setPlState
  extract_lets -underBinder -merge -useContext x1
  refine Does.lets x1 ?_ (fun hx1 => ?_)
  · unfold x1
    refine Does.setFld adr_PL_STAT (by decide +kernel) ?_
    exact Does.refl
  refine Does.ite (fun _ => ?_) (fun _ => ?_)
  · exact hx1
  · refine Does.call State.causeOff_does (by decide +kernel) ?_
    exact hx1

theorem State.starve_does {s c} : Does [.agenda, .causes, .fresh, .players] [1, 7] s (State.starve s c) := by
  unfold State.starve
  extract_lets -underBinder -merge -useContext x1 x2 x3
  refine Does.lets x1 ?_ (fun hx1 => ?_)
  · unfold x1
    refine Does.latch adr_SEG_LAT (by decide +kernel) ?_
    refine Does.latch adr_PL_LAT (by decide +kernel) ?_
    refine Does.call State.setPlState_does (by decide +kernel) ?_
    exact Does.refl
  refine Does.lets x3 ?_ (fun hx3 => ?_)
  · unfold x3
    refine Does.call State.setPlayer_does (by decide +kernel) ?_
    exact hx1
  refine Does.call State.lateInternal_does (by decide +kernel) ?_
  refine Does.call State.raise_does (by decide +kernel) ?_
  refine Does.call State.causeOn_does (by decide +kernel) ?_
  exact hx3

theorem State.playSample_does {s c n reset} : Does [.agenda, .causes, .free, .fresh, .players, .acq] [1, 3, 7] s
      (State.playSample s c n reset) := by
  unfold State.playSample
  extract_lets -underBinder -merge -useContext x1 x2 x3 x4 x5 x6 x7 x8 x9 x10 x11 x12 x13 x14 x15 x16 x17 x18 x19 x20 x21 x22
    x23 x24 x25 x26
  refine Does.lets x5 ?_ (fun hx5 => ?_)
  · unfold x5
    refine Does.ite (fun _ => ?_) (fun _ => ?_)
    · refine Does.call State.starve_does (by decide +kernel) ?_
      exact Does.refl
    · exact Does.refl
  refine Does.lets x24 ?_ (fun hx24 => ?_)
  · unfold x24
    refine Does.call State.showPlayed_does (by decide +kernel) ?_
    refine Does.call State.emitSample_does (by decide +kernel) ?_
    refine Does.call State.setPlayer_does (by decide +kernel) ?_
    exact hx5
  refine Does.lets x25 ?_ (fun hx25 => ?_)
  · unfold x25
    refine Does.ite (fun _ => ?_) (fun _ => ?_)
    · refine Does.call State.segPost_does (by decide +kernel) ?_
      exact hx24
    · exact hx24
  refine Does.lets x26 ?_ (fun hx26 => ?_)
  · unfold x26
    refine Does.ite (fun _ => ?_) (fun _ => ?_)
    · refine Does.call State.markChan_does (by decide +kernel) ?_
      exact hx25
    · exact hx25
  refine Does.ite (fun _ => ?_) (fun _ => ?_)
  · exact hx26
  · refine Does.call State.demodSample_does (by decide +kernel) ?_
    exact hx26

theorem State.segBusy_does {s} : Does [.agenda, .fresh] [7] s (State.segBusy s) := by
  unfold State.segBusy
  refine Does.call State.raise_does (by decide +kernel) ?_
  refine Does.latch adr_SEG_LAT (by decide +kernel) ?_
  exact Does.refl

theorem execDdsrst_runs {s} : Runs [.agenda, .fresh, .seg] [7] s (execDdsrst s) := by
  unfold execDdsrst
  extract_lets -underBinder -merge -useContext x1
  refine Runs.ite (fun _ => ?_) (fun _ => ?_)
  · refine Runs.next ?_
    refine Does.call State.segBusy_does (by decide +kernel) ?_
    exact Does.refl
  · refine Runs.next ?_
    refine Does.put_seg (by decide +kernel) ?_
    exact Does.refl

theorem State.leaveSegment_does {s c} : Does [.sram] [] s (State.leaveSegment s c) := by
  unfold State.leaveSegment
  refine Does.ite (fun _ => ?_) (fun _ => ?_)
  · refine Does.call State.fillWindow_does (by decide +kernel) ?_
    exact Does.refl
  · exact Does.refl

theorem State.enterEntry_does {s c e jumped} : Does [.sram, .players] [7] s (State.enterEntry s c e jumped) := by
  unfold State.enterEntry
  extract_lets -underBinder -merge -useContext x1 x2
  refine Does.lets x1 ?_ (fun hx1 => ?_)
  · unfold x1
    refine Does.setFld adr_PL_STAT (by decide +kernel) ?_
    refine Does.call State.leaveSegment_does (by decide +kernel) ?_
    exact Does.refl
  refine Does.call State.setPlayer_does (by decide +kernel) ?_
  exact hx1

theorem State.seqDone_does {s c} : Does [.agenda, .causes, .free, .fresh, .sram, .players] [3, 7] s (State.seqDone s c) := by
  unfold State.seqDone
  extract_lets -underBinder -merge -useContext x1 x2
  refine Does.lets x1 ?_ (fun hx1 => ?_)
  · unfold x1
    refine Does.call State.setPlState_does (by decide +kernel) ?_
    refine Does.call State.leaveSegment_does (by decide +kernel) ?_
    exact Does.refl
  refine Does.call State.segPost_does (by decide +kernel) ?_
  refine Does.call State.setPlayer_does (by decide +kernel) ?_
  exact hx1

theorem State.takeCmd_does {s c cmd} : Does [.agenda, .causes, .free, .fresh, .sram, .players] [3, 7] s (State.takeCmd s c
      cmd) := by
  unfold State.takeCmd
  split
  · extract_lets -underBinder -merge -useContext x1 x2
    refine Does.lets x1 ?_ (fun hx1 => ?_)
    · unfold x1
      refine Does.call State.setPlState_does (by decide +kernel) ?_
      refine Does.call State.leaveSegment_does (by decide +kernel) ?_
      exact Does.refl
    refine Does.call State.setPlayer_does (by decide +kernel) ?_
    exact hx1
  · extract_lets -underBinder -merge -useContext x3
    refine Does.lets x3 ?_ (fun hx3 => ?_)
    · unfold x3
      refine Does.call State.setPlState_does (by decide +kernel) ?_
      refine Does.call State.leaveSegment_does (by decide +kernel) ?_
      exact Does.refl
    refine Does.call State.setPlState_does (by decide +kernel) ?_
    refine Does.call State.enterEntry_does (by decide +kernel) ?_
    refine Does.setFld adr_PL_STAT (by decide +kernel) ?_
    exact hx3
  · extract_lets -underBinder -merge -useContext x4
    refine Does.ite (fun _ => ?_) (fun _ => ?_)
    · refine Does.call State.seqDone_does (by decide +kernel) ?_
      exact Does.refl
    · refine Does.call State.setPlState_does (by decide +kernel) ?_
      refine Does.call State.enterEntry_does (by decide +kernel) ?_
      exact Does.refl

theorem execPlStop_runs {ch s} : Runs [.players] [7] s (execPlStop ch s) := by
  unfold execPlStop
  extract_lets -underBinder -merge -useContext x1
  refine Runs.next ?_
  refine Does.call State.putPlayer_does (by decide +kernel) ?_
  exact Does.refl

theorem State.playerRest_does {s0 reset c} : Does [.players, .acq] [7] s0 (State.playerRest s0 reset c) := by
  unfold State.playerRest
  extract_lets -underBinder -merge -useContext x1 x2 x3 x4
  refine Does.lets x1 ?_ (fun hx1 => ?_)
  · unfold x1
    refine Does.call State.restDemod_does (by decide +kernel) ?_
    exact Does.refl
  refine Does.ite (fun _ => ?_) (fun _ => ?_)
  · refine Does.call State.emitSample_does (by decide +kernel) ?_
    refine Does.call State.setPlayer_does (by decide +kernel) ?_
    exact hx1
  · refine Does.call State.emitSample_does (by decide +kernel) ?_
    refine Does.call State.setPlayer_does (by decide +kernel) ?_
    exact hx1

theorem State.tryReturn_does {s c} : Does [.causes] [7] s (State.tryReturn s c) := by
  unfold State.tryReturn
  extract_lets -underBinder -merge -useContext x1 x2
  refine Does.ite (fun _ => ?_) (fun _ => ?_)
  · refine Does.ite (fun _ => ?_) (fun _ => ?_)
    · refine Does.call State.setPlState_does (by decide +kernel) ?_
      exact Does.refl
    · exact Does.refl
  · exact Does.refl

theorem State.goTo_does {s c target jumped} : Does [.agenda, .causes, .free, .fresh, .sram, .players] [3, 7] s (State.goTo s
      c target jumped) := by
  unfold State.goTo
  refine Does.ite (fun _ => ?_) (fun _ => ?_)
  · refine Does.call State.seqDone_does (by decide +kernel) ?_
    exact Does.refl
  · refine Does.call State.tryReturn_does (by decide +kernel) ?_
    refine Does.call State.enterEntry_does (by decide +kernel) ?_
    exact Does.refl

theorem State.nextPass_does {s c se} : Does [.agenda, .causes, .free, .fresh, .sram, .players] [3, 7] s (State.nextPass s c
      se) := by
  unfold State.nextPass
  extract_lets -underBinder -merge -useContext x1
  refine Does.ite (fun _ => ?_) (fun _ => ?_)
  · refine Does.call State.tryReturn_does (by decide +kernel) ?_
    refine Does.call State.setPlayer_does (by decide +kernel) ?_
    exact Does.refl
  · refine Does.call State.goTo_does (by decide +kernel) ?_
    exact Does.refl

theorem State.passEnd_does {s c dec} : Does [.agenda, .causes, .free, .fresh, .sram, .players] [3, 7] s (State.passEnd s c
      dec) := by
  unfold State.passEnd
  extract_lets -underBinder -merge -useContext x1 x2 x3
  split
  · refine Does.call State.goTo_does (by decide +kernel) ?_
    refine Does.call State.putPlayer_does (by decide +kernel) ?_
    exact Does.refl
  · refine Does.ite (fun _ => ?_) (fun _ => ?_)
    · refine Does.call State.goTo_does (by decide +kernel) ?_
      refine Does.call State.putPlayer_does (by decide +kernel) ?_
      exact Does.refl
    · refine Does.call State.nextPass_does (by decide +kernel) ?_
      exact Does.refl
  · refine Does.call State.nextPass_does (by decide +kernel) ?_
    exact Does.refl

theorem State.playerTake_does {s c} : Does [.agenda, .causes, .free, .fresh, .sram, .players] [3, 7] s (State.playerTake s c) := by
  unfold State.playerTake
  extract_lets -underBinder -merge -useContext x1 x2 x3 x4 x5 x6
  refine Does.lets x2 ?_ (fun hx2 => ?_)
  · unfold x2
    refine Does.ite (fun _ => ?_) (fun _ => ?_)
    · refine Does.call State.segPost_does (by decide +kernel) ?_
      refine Does.call State.setPlayer_does (by decide +kernel) ?_
      exact Does.refl
    · exact Does.refl
  refine Does.lets x5 ?_ (fun hx5 => ?_)
  · unfold x5
    split
    · extract_lets -underBinder -merge -useContext x7 x8
      refine Does.lets x8 ?_ (fun hx8 => ?_)
      · unfold x8
        refine Does.call State.setPlayer_does (by decide +kernel) ?_
        exact hx2
      refine Does.ite (fun _ => ?_) (fun _ => ?_)
      · exact hx8
      · refine Does.call State.passEnd_does (by decide +kernel) ?_
        exact hx8
    · exact hx2
  refine Does.foldl ?_ ?_
  · intro y9 y10
    beta_reduce
    refine Does.call State.takeCmd_does (by decide +kernel) ?_
    exact Does.refl
  · refine Does.ite (fun _ => ?_) (fun _ => ?_)
    · exact hx5
    · refine Does.call State.putPlayer_does (by decide +kernel) ?_
      exact hx5

theorem State.playerStep_does {s n reset c} : Does [.agenda, .causes, .free, .fresh, .sram, .players, .acq] [1, 3, 7] s
      (State.playerStep s n reset c) := by
  unfold State.playerStep
  extract_lets -underBinder -merge -useContext x1
  refine Does.lets x1 ?_ (fun hx1 => ?_)
  · unfold x1
    refine Does.call State.playerTake_does (by decide +kernel) ?_
    exact Does.refl
  refine Does.ite (fun _ => ?_) (fun _ => ?_)
  · refine Does.call State.playSample_does (by decide +kernel) ?_
    exact hx1
  · refine Does.call State.playerRest_does (by decide +kernel) ?_
    exact hx1

theorem State.plReject_does {s c reason} : Does [.agenda, .fresh] [7] s (State.plReject s c reason) := by
  unfold State.plReject
  refine Does.call State.raise_does (by decide +kernel) ?_
  refine Does.setReg adr_PL_REJ (by decide +kernel) ?_
  refine Does.latch adr_PL_LAT (by decide +kernel) ?_
  exact Does.refl

theorem execSeal_runs {seq s} : Runs [.agenda, .fresh] [7] s (execSeal seq s) := by
  unfold execSeal
  extract_lets -underBinder -merge -useContext x1
  refine Runs.ite (fun _ => ?_) (fun _ => ?_)
  · refine Runs.next ?_
    refine Does.call State.segBusy_does (by decide +kernel) ?_
    exact Does.refl
  · refine Runs.ite (fun _ => ?_) (fun _ => ?_)
    · refine Runs.next ?_
      refine Does.call State.segResult_does (by decide +kernel) ?_
      exact Does.refl
    · refine Runs.next ?_
      refine Does.setFld adr_SEG_CSTAT (by decide +kernel) ?_
      refine Does.latch adr_SEG_CSTAT (by decide +kernel) ?_
      exact Does.refl

theorem execUnseal_runs {seq s} : Runs [.agenda, .fresh] [7] s (execUnseal seq s) := by
  unfold execUnseal
  extract_lets -underBinder -merge -useContext x1 x2
  refine Runs.ite (fun _ => ?_) (fun _ => ?_)
  · refine Runs.next ?_
    refine Does.call State.segBusy_does (by decide +kernel) ?_
    exact Does.refl
  · refine Runs.ite (fun _ => ?_) (fun _ => ?_)
    · refine Runs.next ?_
      refine Does.call State.segResult_does (by decide +kernel) ?_
      exact Does.refl
    · refine Runs.next ?_
      refine Does.call State.segResult_does (by decide +kernel) ?_
      refine Does.setFld adr_SEG_SEALED (by decide +kernel) ?_
      exact Does.refl

theorem execSampleBoundary_runs {s} : Runs [.agenda, .causes, .free, .fresh, .sram, .players, .seg, .acq] [1, 3, 7] s
      (execSampleBoundary s) := by
  unfold execSampleBoundary
  extract_lets -underBinder -merge -useContext x1 x2 x3 x4
  refine Runs.lets x3 ?_ (fun hx3 => ?_)
  · unfold x3
    refine Does.setWide adr_SEG_EPOCH (by decide +kernel) ?_
    exact Does.refl
  refine Runs.lets x4 ?_ (fun hx4 => ?_)
  · unfold x4
    refine Does.ite (fun _ => ?_) (fun _ => ?_)
    · refine Does.put_seg (by decide +kernel) ?_
      exact hx3
    · exact Does.refl
  refine Runs.ite (fun _ => ?_) (fun _ => ?_)
  · refine Runs.next ?_
    exact Does.refl
  · refine Runs.next ?_
    refine Does.foldl ?_ ?_
    · intro y5 y6
      beta_reduce
      refine Does.call State.playerStep_does (by decide +kernel) ?_
      exact Does.refl
    · exact hx4

theorem execPlStart_runs {ch seq entry s} : Runs [.agenda, .fresh, .players] [7] s (execPlStart ch seq entry s) := by
  unfold execPlStart
  extract_lets -underBinder -merge -useContext x1 x2
  refine Runs.ite (fun _ => ?_) (fun _ => ?_)
  · refine Runs.next ?_
    refine Does.call State.plReject_does (by decide +kernel) ?_
    exact Does.refl
  · refine Runs.ite (fun _ => ?_) (fun _ => ?_)
    · refine Runs.next ?_
      refine Does.call State.plReject_does (by decide +kernel) ?_
      exact Does.refl
    · refine Runs.ite (fun _ => ?_) (fun _ => ?_)
      · refine Runs.next ?_
        refine Does.call State.plReject_does (by decide +kernel) ?_
        exact Does.refl
      · refine Runs.ite (fun _ => ?_) (fun _ => ?_)
        · refine Runs.next ?_
          refine Does.call State.plReject_does (by decide +kernel) ?_
          exact Does.refl
        · refine Runs.next ?_
          refine Does.call State.putPlayer_does (by decide +kernel) ?_
          exact Does.refl

theorem State.segOff_does {s} : Does [.causes, .sram, .players] [7] s (State.segOff s) := by
  unfold State.segOff
  refine Does.foldl ?_ ?_
  · intro y1 y2
    beta_reduce
    extract_lets -underBinder -merge -useContext x3
    refine Does.lets x3 ?_ (fun hx3 => ?_)
    · unfold x3
      refine Does.call State.putPlayer_does (by decide +kernel) ?_
      refine Does.call State.setPlState_does (by decide +kernel) ?_
      refine Does.call State.leaveSegment_does (by decide +kernel) ?_
      exact Does.refl
    exact hx3
  · exact Does.refl

theorem execRefillArrive_runs {ch entry good s} : Runs [.sram, .players] [] s (execRefillArrive ch entry good s) := by
  unfold execRefillArrive
  extract_lets -underBinder -merge -useContext x1 x2 x3 x4 x5 x6
  refine Runs.ite (fun _ => ?_) (fun _ => ?_)
  · split
    · extract_lets -underBinder -merge -useContext x7
      refine Runs.lets x7 ?_ (fun hx7 => ?_)
      · unfold x7
        refine Does.call State.setPlayer_does (by decide +kernel) ?_
        exact Does.refl
      refine Runs.next ?_
      refine Does.put_sram (by decide +kernel) (fun h => Memory.wf_writeBytes _ _ _ h) ?_
      exact hx7
    · refine Runs.next ?_
      exact Does.refl
  · refine Runs.next ?_
    exact Does.refl

theorem State.segReset_does {s} : Does [.causes, .players, .seg] [] s (State.segReset s) := by
  unfold State.segReset
  refine Does.put (t := s) [.causes, .players, .seg] ?_ (by decide +kernel) ?_ ?_ ?_ ?_ ?_
  · exact Does.refl
  · rfl
  · rfl
  · rfl
  · rfl
  · intro p hp; cases p <;> first | exact absurd (by decide) hp | rfl

theorem execPlJump_runs {ch jmode entry s} : Runs [.agenda, .fresh, .players] [7] s (execPlJump ch jmode entry s) := by
  unfold execPlJump
  extract_lets -underBinder -merge -useContext x1 x2 x3
  clear_value x3
  split
  · refine Runs.next ?_
    refine Does.call State.plReject_does (by decide +kernel) ?_
    exact Does.refl
  · refine Runs.ite (fun _ => ?_) (fun _ => ?_)
    · refine Runs.next ?_
      refine Does.call State.plReject_does (by decide +kernel) ?_
      exact Does.refl
    · refine Runs.ite (fun _ => ?_) (fun _ => ?_)
      · refine Runs.next ?_
        refine Does.call State.putPlayer_does (by decide +kernel) ?_
        exact Does.refl
      · refine Runs.next ?_
        refine Does.call State.putPlayer_does (by decide +kernel) ?_
        exact Does.refl

end Sys2Proof.Machine
end

