-- ==== Sys2Proof/Laws/Steps.lean ====
section
/-! SUPPORT. What each operation of Machine/Steps.lean may change (Laws/Frame.lean says how to read it). -/
namespace Sys2Proof.Machine

set_option Elab.async false

theorem State.compares_does {s ch due} : Does [.agenda, .free, .fresh] [1, 3] s (State.compares s ch due) := by
  unfold State.compares
  extract_lets -underBinder -merge -useContext x1 x2 x3 x4 x5 x6 x7
  refine Does.ite (fun _ => ?_) (fun _ => ?_)
  · exact Does.refl
  · refine Does.call State.postAt_does (by decide +kernel) ?_
    exact Does.refl

theorem State.commitAct_does {s dst due i} : Does [.agenda, .free, .fresh] [3] s (State.commitAct s dst due i) := by
  unfold State.commitAct
  extract_lets -underBinder -merge -useContext x1 x2
  refine Does.lets x2 ?_ (fun hx2 => ?_)
  · unfold x2
    refine Does.put_free (by decide +kernel) ?_
    exact Does.refl
  refine Does.call State.hold_does (by decide +kernel) ?_
  refine Does.call State.fordSeen_does (by decide +kernel) ?_
  exact hx2

theorem State.addCharge_does {s ch hop i due} : Does [.acq] [] s (State.addCharge s ch hop i due) := by
  unfold State.addCharge
  extract_lets -underBinder -merge -useContext x1
  split
  · refine Does.ite (fun _ => ?_) (fun _ => ?_)
    · exact Does.refl
    · refine Does.call State.setAch_does (by decide +kernel) ?_
      exact Does.refl
  · exact Does.refl

theorem State.dropCompares_does {s ch} : Does [.agenda] [] s (State.dropCompares s ch) := by
  unfold State.dropCompares
  extract_lets -underBinder -merge -useContext x1
  refine Does.put_agenda (by decide +kernel) ?_
  exact Does.refl

theorem State.issueChange_does {s ch r invalid due} : Does [.agenda, .free, .fresh] [3] s (State.issueChange s ch r invalid
      due) := by
  unfold State.issueChange
  extract_lets -underBinder -merge -useContext x1 x2 x3
  refine Does.lets x3 ?_ (fun hx3 => ?_)
  · unfold x3
    refine Does.ite (fun _ => ?_) (fun _ => ?_)
    · exact Does.refl
    · refine Does.ite (fun _ => ?_) (fun _ => ?_)
      · refine Does.call State.commitAct_does (by decide +kernel) ?_
        exact Does.refl
      · refine Does.call State.commitAct_does (by decide +kernel) ?_
        exact Does.refl
  refine Does.ite (fun _ => ?_) (fun _ => ?_)
  · refine Does.call State.commitAct_does (by decide +kernel) ?_
    refine Does.call State.commitAct_does (by decide +kernel) ?_
    exact Does.refl
  · refine Does.ite (fun _ => ?_) (fun _ => ?_)
    · exact Does.refl
    · refine Does.ite (fun _ => ?_) (fun _ => ?_)
      · exact hx3
      · refine Does.foldl ?_ ?_
        · intro y4 y5
          beta_reduce
          refine Does.call State.commitAct_does (by decide +kernel) ?_
          exact Does.refl
        · exact hx3

theorem State.commit_does {s n} : Does [.agenda, .free, .fresh, .sram, .tasks] [3] s (State.commit s n) := by
  unfold State.commit
  extract_lets -underBinder -merge -useContext x1 x2 x3 x4
  refine Does.lets x4 ?_ (fun hx4 => ?_)
  · unfold x4
    refine Does.call State.setTask_does (by decide +kernel) ?_
    exact Does.refl
  refine Does.call State.hold_does (by decide +kernel) ?_
  refine Does.call State.issueChange_does (by decide +kernel) ?_
  exact hx4

theorem State.startActions_does {s n c start} : Does [.agenda, .fresh, .loops, .acq] [6, 10] s (State.startActions s n c
      start) := by
  unfold State.startActions
  extract_lets -underBinder -merge -useContext x1 x2 x3 x4 x5 x6 x7 x8 x9
  refine Does.lets x5 ?_ (fun hx5 => ?_)
  · unfold x5
    refine Does.ite (fun _ => ?_) (fun _ => ?_)
    · exact Does.refl
    · refine Does.call State.selectLaw_does (by decide +kernel) ?_
      exact Does.refl
  refine Does.lets x7 ?_ (fun hx7 => ?_)
  · unfold x7
    refine Does.call State.dropCompares_does (by decide +kernel) ?_
    refine Does.call State.acqStepStart_does (by decide +kernel) ?_
    exact hx5
  refine Does.lets x9 ?_ (fun hx9 => ?_)
  · unfold x9
    refine Does.ite (fun _ => ?_) (fun _ => ?_)
    · exact Does.refl
    · refine Does.call State.setAch_does (by decide +kernel) ?_
      exact hx7
  refine Does.call State.appendA_does (by decide +kernel) ?_
  exact hx9

end Sys2Proof.Machine
end

