-- ==== Sys2Proof/Laws/Scheduler.lean ====
section
/-! SUPPORT. What each operation of Machine/Scheduler.lean may change (Laws/Frame.lean says how to read it). -/
namespace Sys2Proof.Machine

set_option Elab.async false

theorem State.schedReset_does {s} : Does [.agenda, .causes, .sram, .tasks, .sched] [] s (State.schedReset s) := by
  unfold State.schedReset
  extract_lets -underBinder -merge -useContext x1 x2 x3
  refine Does.lets x2 ?_ (fun hx2 => ?_)
  · unfold x2
    refine Does.put (t := s) [.agenda, .sched] ?_ (by decide +kernel) ?_ ?_ ?_ ?_ ?_
    · exact Does.refl
    · rfl
    · rfl
    · rfl
    · rfl
    · intro p hp; cases p <;> first | exact absurd (by decide) hp | rfl
  refine Does.lets x3 ?_ (fun hx3 => ?_)
  · unfold x3
    refine Does.foldl ?_ ?_
    · intro y4 y5
      beta_reduce
      extract_lets -underBinder -merge -useContext x6
      refine Does.ite (fun _ => ?_) (fun _ => ?_)
      · exact Does.refl
      · refine Does.call State.setTask_does (by decide +kernel) ?_
        exact Does.refl
    · exact hx2
  refine Does.call State.causeOff_does (by decide +kernel) ?_
  exact hx3

theorem State.judgeGuards_does {s} : Does [.causes] [] s (State.judgeGuards s) := by
  unfold State.judgeGuards
  refine Does.ite (fun _ => ?_) (fun _ => ?_)
  · refine Does.call State.causeOff_does (by decide +kernel) ?_
    exact Does.refl
  · exact Does.refl

theorem State.endTask_does {s n st endc} : Does [.causes, .sram, .tasks] [] s (State.endTask s n st endc) := by
  unfold State.endTask
  extract_lets -underBinder -merge -useContext x1 x2 x3
  refine Does.call State.judgeGuards_does (by decide +kernel) ?_
  refine Does.call State.setTask_does (by decide +kernel) ?_
  exact Does.refl

theorem State.setSte_does {s e x} : Does [.sched] [] s (State.setSte s e x) := by
  unfold State.setSte
  extract_lets -underBinder -merge -useContext x1
  refine Does.put_sched (by decide +kernel) ?_
  exact Does.refl

theorem State.freeEngine_does {s e} : Does [.sched] [] s (State.freeEngine s e) := by
  unfold State.freeEngine
  extract_lets -underBinder -merge -useContext x1
  refine Does.call State.setSte_does (by decide +kernel) ?_
  exact Does.refl

theorem execStageDone_runs {eng s} : Runs [.agenda, .free, .fresh, .sram, .tasks, .sched] [1, 3, 5] s (execStageDone eng s) := by
  unfold execStageDone
  extract_lets -underBinder -merge -useContext x1 x2
  split
  · extract_lets -underBinder -merge -useContext x3 x4
    refine Runs.lets x4 ?_ (fun hx4 => ?_)
    · unfold x4
      refine Does.call State.setTask_does (by decide +kernel) ?_
      refine Does.call State.freeEngine_does (by decide +kernel) ?_
      exact Does.refl
    refine Runs.ite (fun _ => ?_) (fun _ => ?_)
    · refine Runs.ite (fun _ => ?_) (fun _ => ?_)
      · refine Runs.next ?_
        refine Does.call State.commit_does (by decide +kernel) ?_
        refine Does.call State.lateInternal_does (by decide +kernel) ?_
        refine Does.bump adr_STE_LATE (by decide +kernel) ?_
        exact hx4
      · refine Runs.next ?_
        exact hx4
    · refine Runs.next ?_
      exact Does.refl
  · refine Runs.next ?_
    exact Does.refl

theorem State.setQueue_does {s q x} : Does [.sched] [] s (State.setQueue s q x) := by
  unfold State.setQueue
  extract_lets -underBinder -merge -useContext x1
  refine Does.put_sched (by decide +kernel) ?_
  exact Does.refl

theorem State.takeHead_does {s q now} : Does [.agenda, .fresh, .sched] [1] s (State.takeHead s q now) := by
  unfold State.takeHead
  split
  · exact Does.refl
  · extract_lets -underBinder -merge -useContext x1 x2
    refine Does.lets x2 ?_ (fun hx2 => ?_)
    · unfold x2
      refine Does.call State.setQueue_does (by decide +kernel) ?_
      exact Does.refl
    refine Does.ite (fun _ => ?_) (fun _ => ?_)
    · refine Does.call State.late_does (by decide +kernel) ?_
      refine Does.call State.setQueue_does (by decide +kernel) ?_
      exact Does.refl
    · refine Does.ite (fun _ => ?_) (fun _ => ?_)
      · exact Does.refl
      · refine Does.put_agenda (by decide +kernel) ?_
        exact hx2

theorem State.takeHeads_does {s now n} : Does [.agenda, .fresh, .sched] [1] s (State.takeHeads s now n) := by
  induction n generalizing s with
  | zero => exact Does.refl
  | succ n ih =>
    unfold State.takeHeads
    split
    · exact Does.refl
    · exact Does.ite (fun _ => ih.after (Does.call State.takeHead_does (by decide +kernel) Does.refl)) (fun _ => Does.refl)

theorem State.leaveEngine_does {s n} : Does [.sched] [] s (State.leaveEngine s n) := by
  unfold State.leaveEngine
  split
  · refine Does.call State.freeEngine_does (by decide +kernel) ?_
    exact Does.refl
  · exact Does.refl

theorem State.msgReject_does {s reason op task} : Does [.agenda, .fresh] [4] s (State.msgReject s reason op task) := by
  unfold State.msgReject
  refine Does.call State.raise_does (by decide +kernel) ?_
  refine Does.setReg adr_SCH_MREJ (by decide +kernel) ?_
  refine Does.latch adr_SCH_LAT (by decide +kernel) ?_
  exact Does.refl

theorem State.toJudge_does {s n} : Does [.sched] [] s (State.toJudge s n) := by
  unfold State.toJudge
  extract_lets -underBinder -merge -useContext x1
  refine Does.ite (fun _ => ?_) (fun _ => ?_)
  · exact Does.refl
  · refine Does.put_sched (by decide +kernel) ?_
    exact Does.refl

theorem execTaskCancel_runs {task s} : Runs [.agenda, .causes, .free, .fresh, .sram, .tasks, .sched, .acq] [3, 4] s
      (execTaskCancel task s) := by
  unfold execTaskCancel
  extract_lets -underBinder -merge -useContext x1 x2 x3 x4 x5 x6 x7 x8 x9 x10 x11
  refine Runs.lets x9 ?_ (fun hx9 => ?_)
  · unfold x9
    refine Does.call State.judgeGuards_does (by decide +kernel) ?_
    refine Does.call State.setTask_does (by decide +kernel) ?_
    refine Does.call State.leaveEngine_does (by decide +kernel) ?_
    exact Does.refl
  refine Runs.lets x10 ?_ (fun hx10 => ?_)
  · unfold x10
    refine Does.ite (fun _ => ?_) (fun _ => ?_)
    · refine Does.call State.toJudge_does (by decide +kernel) ?_
      exact hx9
    · exact hx9
  refine Runs.lets x11 ?_ (fun hx11 => ?_)
  · unfold x11
    refine Does.call State.commitAct_does (by decide +kernel) ?_
    refine Does.call State.commitAct_does (by decide +kernel) ?_
    exact hx10
  refine Runs.ite (fun _ => ?_) (fun _ => ?_)
  · refine Runs.next ?_
    refine Does.call State.msgReject_does (by decide +kernel) ?_
    exact Does.refl
  · refine Runs.ite (fun _ => ?_) (fun _ => ?_)
    · refine Runs.next ?_
      refine Does.call State.judgeGuards_does (by decide +kernel) ?_
      refine Does.call State.toJudge_does (by decide +kernel) ?_
      refine Does.call State.setTask_does (by decide +kernel) ?_
      exact Does.refl
    · refine Runs.ite (fun _ => ?_) (fun _ => ?_)
      · refine Runs.next ?_
        refine Does.call State.appendA_does (by decide +kernel) ?_
        exact hx11
      · refine Runs.next ?_
        refine Does.call State.msgReject_does (by decide +kernel) ?_
        exact Does.refl

theorem State.channelFires_does {s n set} : Does [.agenda, .out, .acq, .links] [] s (State.channelFires s n set) := by
  unfold State.channelFires
  refine Does.foldl ?_ ?_
  · intro y1 y2
    beta_reduce
    extract_lets -underBinder -merge -useContext x3
    refine Does.ite (fun _ => ?_) (fun _ => ?_)
    · refine Does.call State.fireHere_does (by decide +kernel) ?_
      exact Does.refl
    · exact Does.refl
  · exact Does.refl

theorem State.actOnFlags_does {s n set clear} : Does [.agenda, .out, .sram, .tasks, .sched, .acq, .links] [] s
      (State.actOnFlags s n set clear) := by
  unfold State.actOnFlags
  extract_lets -underBinder -merge -useContext x1 x2 x3 x4
  refine Does.call State.channelFires_does (by decide +kernel) ?_
  refine Does.call State.toJudge_does (by decide +kernel) ?_
  refine Does.call State.setTask_does (by decide +kernel) ?_
  exact Does.refl

theorem State.displace_does {s e n store} : Does [.fresh, .sram, .tasks, .sched] [5] s (State.displace s e n store) := by
  unfold State.displace
  extract_lets -underBinder -merge -useContext x1 x2 x3 x4 x5 x6
  refine Does.lets x5 ?_ (fun hx5 => ?_)
  · unfold x5
    refine Does.call State.setTask_does (by decide +kernel) ?_
    exact Does.refl
  refine Does.bump adr_STE_DISPL (by decide +kernel) ?_
  refine Does.call State.setSte_does (by decide +kernel) ?_
  exact hx5

theorem State.settle_does {s} : Does [.sram, .tasks, .sched] [] s (State.settle s) := by
  unfold State.settle
  refine Does.foldl ?_ ?_
  · intro y1 y2
    beta_reduce
    extract_lets -underBinder -merge -useContext x3
    split
    · extract_lets -underBinder -merge -useContext x4
      refine Does.ite (fun _ => ?_) (fun _ => ?_)
      · refine Does.call State.setTask_does (by decide +kernel) ?_
        refine Does.call State.freeEngine_does (by decide +kernel) ?_
        exact Does.refl
      · exact Does.refl
    · exact Does.refl
  · exact Does.refl

theorem State.tryDisplace_does {s n} : Does [.fresh, .sram, .tasks, .sched] [5] s (State.tryDisplace s n) := by
  unfold State.tryDisplace
  extract_lets -underBinder -merge -useContext x1
  refine Does.lets x1 ?_ (fun hx1 => ?_)
  · unfold x1
    refine Does.call State.settle_does (by decide +kernel) ?_
    exact Does.refl
  refine Does.ite (fun _ => ?_) (fun _ => ?_)
  · exact hx1
  · split
    · exact hx1
    · split
      · exact hx1
      · extract_lets -underBinder -merge -useContext x2
        refine Does.ite (fun _ => ?_) (fun _ => ?_)
        · exact hx1
        · refine Does.ite (fun _ => ?_) (fun _ => ?_)
          · refine Does.call State.displace_does (by decide +kernel) ?_
            exact hx1
          · refine Does.call State.setSte_does (by decide +kernel) ?_
            exact hx1

theorem execTaskAgeing_runs {task s} : Runs [.agenda, .fresh, .sram, .tasks, .sched] [4, 5] s (execTaskAgeing task s) := by
  unfold execTaskAgeing
  extract_lets -underBinder -merge -useContext x1 x2 x3
  refine Runs.lets x3 ?_ (fun hx3 => ?_)
  · unfold x3
    refine Does.latch adr_SCH_LAT (by decide +kernel) ?_
    refine Does.bump adr_SCH_AGECNT (by decide +kernel) ?_
    refine Does.call State.setTask_does (by decide +kernel) ?_
    exact Does.refl
  refine Runs.ite (fun _ => ?_) (fun _ => ?_)
  · refine Runs.next ?_
    refine Does.call State.tryDisplace_does (by decide +kernel) ?_
    refine Does.call State.raise_does (by decide +kernel) ?_
    exact hx3
  · refine Runs.next ?_
    exact Does.refl

theorem execStepTimeout_runs {task s} : Runs [.agenda, .out, .sram, .tasks, .sched, .acq, .links] [] s (execStepTimeout task
      s) := by
  unfold execStepTimeout
  extract_lets -underBinder -merge -useContext x1 x2
  split
  · refine Runs.ite (fun _ => ?_) (fun _ => ?_)
    · refine Runs.next ?_
      refine Does.call State.actOnFlags_does (by decide +kernel) ?_
      refine Does.call State.setTask_does (by decide +kernel) ?_
      exact Does.refl
    · refine Runs.next ?_
      exact Does.refl
  · refine Runs.next ?_
    exact Does.refl

theorem State.applyFlags_does {s ch set clear} : Does [.agenda, .out, .sram, .tasks, .sched, .acq, .links] [] s
      (State.applyFlags s ch set clear) := by
  unfold State.applyFlags
  split
  · extract_lets -underBinder -merge -useContext x1 x2
    refine Does.lets x1 ?_ (fun hx1 => ?_)
    · unfold x1
      refine Does.call State.actOnFlags_does (by decide +kernel) ?_
      exact Does.refl
    refine Does.call State.setTask_does (by decide +kernel) ?_
    exact hx1
  · exact Does.refl

theorem State.setHeld_does {s code x} : Does [.sched] [] s (State.setHeld s code x) := by
  unfold State.setHeld
  extract_lets -underBinder -merge -useContext x1
  refine Does.put_sched (by decide +kernel) ?_
  exact Does.refl

theorem State.place_does {s by_ q m} : Does [.agenda, .fresh, .sched] [1, 4] s (State.place s by_ q m) := by
  unfold State.place
  extract_lets -underBinder -merge -useContext x1 x2 x3
  refine Does.letsK1 x2 ?_ (fun hx2 => ?_)
  · intro y4; unfold x2
    refine Does.call State.msgReject_does (by decide +kernel) ?_
    exact Does.refl
  refine Does.ite (fun _ => ?_) (fun _ => ?_)
  · exact hx2 _
  · refine Does.ite (fun _ => ?_) (fun _ => ?_)
    · refine Does.latch adr_TBS_LATE (by decide +kernel) ?_
      refine Does.call State.late_does (by decide +kernel) ?_
      exact Does.refl
    · refine Does.ite (fun _ => ?_) (fun _ => ?_)
      · exact hx2 _
      · refine Does.ite (fun _ => ?_) (fun _ => ?_)
        · exact hx2 _
        · refine Does.ite (fun _ => ?_) (fun _ => ?_)
          · exact hx2 _
          · refine Does.call State.setQueue_does (by decide +kernel) ?_
            exact Does.refl

theorem State.placeHeld_does {s code q n} : Does [.agenda, .fresh, .sched] [1, 4] s (State.placeHeld s code q n) := by
  induction n generalizing s with
  | zero => exact Does.refl
  | succ n ih =>
    unfold State.placeHeld
    split
    · exact Does.refl
    · refine Does.ite (fun _ => ih.after ?_) (fun _ => Does.refl)
      refine Does.put_sched (by decide +kernel) ?_
      exact Does.call State.place_does (by decide +kernel) (Does.call State.setHeld_does (by decide +kernel) Does.refl)

theorem State.decideTask_does {s n step cause from_} : Does [.causes, .sram, .tasks] [] s (State.decideTask s n step cause
      from_) := by
  unfold State.decideTask
  extract_lets -underBinder -merge -useContext x1
  refine Does.call State.judgeGuards_does (by decide +kernel) ?_
  refine Does.call State.setTask_does (by decide +kernel) ?_
  exact Does.refl

theorem State.startTask_does {s n} : Does [.agenda, .causes, .fresh, .sram, .tasks, .sched, .acq] [4] s (State.startTask s n) := by
  unfold State.startTask
  extract_lets -underBinder -merge -useContext x1 x2 x3 x4 x5 x6 x7 x8
  refine Does.lets x4 ?_ (fun hx4 => ?_)
  · unfold x4
    refine Does.call State.judgeGuards_does (by decide +kernel) ?_
    refine Does.call State.setTask_does (by decide +kernel) ?_
    exact Does.refl
  refine Does.lets x7 ?_ (fun hx7 => ?_)
  · unfold x7
    refine Does.call State.setTask_does (by decide +kernel) ?_
    exact Does.refl
  refine Does.ite (fun _ => ?_) (fun _ => ?_)
  · refine Does.call State.appendA_does (by decide +kernel) ?_
    refine Does.call State.raise_does (by decide +kernel) ?_
    refine Does.latch adr_SCH_LAT (by decide +kernel) ?_
    exact hx4
  · refine Does.call State.decideTask_does (by decide +kernel) ?_
    refine Does.put_sched (by decide +kernel) ?_
    exact hx7

theorem State.chainTo_does {s n} : Does [.agenda, .causes, .fresh, .sram, .tasks, .sched, .acq] [4] s (State.chainTo s n) := by
  unfold State.chainTo
  extract_lets -underBinder -merge -useContext x1
  refine Does.ite (fun _ => ?_) (fun _ => ?_)
  · exact Does.refl
  · refine Does.ite (fun _ => ?_) (fun _ => ?_)
    · refine Does.call State.startTask_does (by decide +kernel) ?_
      exact Does.refl
    · refine Does.call State.msgReject_does (by decide +kernel) ?_
      exact Does.refl

theorem State.enterStep_does {s n start} : Does [.agenda, .out, .sram, .tasks, .sched, .acq, .links] [] s (State.enterStep s
      n start) := by
  unfold State.enterStep
  extract_lets -underBinder -merge -useContext x1 x2 x3 x4 x5 x6 x7 x8 x9
  refine Does.lets x5 ?_ (fun hx5 => ?_)
  · unfold x5
    refine Does.call State.actOnFlags_does (by decide +kernel) ?_
    exact Does.refl
  refine Does.lets x9 ?_ (fun hx9 => ?_)
  · unfold x9
    refine Does.call State.setTask_does (by decide +kernel) ?_
    exact hx5
  clear_value x7
  split
  · refine Does.call State.hold_does (by decide +kernel) ?_
    exact hx9
  · exact hx9

theorem State.startChange_does {s n c start} : Does [.agenda, .fresh, .loops, .acq] [6, 10] s (State.startChange s n c start) := by
  unfold State.startChange
  extract_lets -underBinder -merge -useContext x1
  refine Does.lets x1 ?_ (fun hx1 => ?_)
  · unfold x1
    refine Does.call State.startActions_does (by decide +kernel) ?_
    exact Does.refl
  refine Does.ite (fun _ => ?_) (fun _ => ?_)
  · refine Does.call State.raise_does (by decide +kernel) ?_
    exact hx1
  · refine Does.ite (fun _ => ?_) (fun _ => ?_)
    · refine Does.call State.raise_does (by decide +kernel) ?_
      exact hx1
    · exact hx1

theorem State.startLeft_does {s n} : Does [.agenda, .fresh, .sram, .loops, .tasks, .acq] [6, 10] s (State.startLeft s n) := by
  unfold State.startLeft
  split
  · extract_lets -underBinder -merge -useContext x1 x2
    refine Does.lets x1 ?_ (fun hx1 => ?_)
    · unfold x1
      refine Does.call State.startChange_does (by decide +kernel) ?_
      exact Does.refl
    refine Does.ite (fun _ => ?_) (fun _ => ?_)
    · refine Does.call State.setTask_does (by decide +kernel) ?_
      exact hx1
    · exact Does.refl
  · exact Does.refl

theorem execStepStart_runs {task s} : Runs [.agenda, .causes, .fresh, .out, .sram, .loops, .tasks, .sched, .acq, .links] [4,
      6, 10] s (execStepStart task s) := by
  unfold execStepStart
  extract_lets -underBinder -merge -useContext x1 x2 x3
  refine Runs.lets x2 ?_ (fun hx2 => ?_)
  · unfold x2
    refine Does.call State.startLeft_does (by decide +kernel) ?_
    exact Does.refl
  split
  · refine Runs.next ?_
    exact hx2
  · extract_lets -underBinder -merge -useContext x4
    refine Runs.lets x4 ?_ (fun hx4 => ?_)
    · unfold x4
      refine Does.call State.startChange_does (by decide +kernel) ?_
      exact hx2
    refine Runs.ite (fun _ => ?_) (fun _ => ?_)
    · refine Runs.next ?_
      exact hx2
    · refine Runs.ite (fun _ => ?_) (fun _ => ?_)
      · refine Runs.next ?_
        refine Does.call State.endTask_does (by decide +kernel) ?_
        exact hx4
      · refine Runs.ite (fun _ => ?_) (fun _ => ?_)
        · refine Runs.next ?_
          refine Does.call State.chainTo_does (by decide +kernel) ?_
          refine Does.call State.endTask_does (by decide +kernel) ?_
          refine Does.call State.enterStep_does (by decide +kernel) ?_
          exact hx4
        · refine Runs.next ?_
          refine Does.call State.enterStep_does (by decide +kernel) ?_
          exact hx4

theorem execTaskPrio_runs {task arg s} : Runs [.agenda, .fresh, .sram, .tasks] [4] s (execTaskPrio task arg s) := by
  unfold execTaskPrio
  extract_lets -underBinder -merge -useContext x1 x2
  refine Runs.ite (fun _ => ?_) (fun _ => ?_)
  · refine Runs.next ?_
    refine Does.call State.msgReject_does (by decide +kernel) ?_
    exact Does.refl
  · refine Runs.ite (fun _ => ?_) (fun _ => ?_)
    · refine Runs.next ?_
      refine Does.call State.msgReject_does (by decide +kernel) ?_
      exact Does.refl
    · refine Runs.next ?_
      refine Does.call State.setTask_does (by decide +kernel) ?_
      exact Does.refl

theorem execQpushRoom_runs {q s} : Runs [.agenda, .fresh, .sched] [1, 4] s (execQpushRoom q s) := by
  unfold execQpushRoom
  refine Runs.next ?_
  refine Does.foldl ?_ ?_
  · intro y1 y2
    beta_reduce
    refine Does.call State.placeHeld_does (by decide +kernel) ?_
    exact Does.refl
  · exact Does.refl

theorem execYieldPoint_runs {eng s} : Runs [.fresh, .sram, .tasks, .sched] [5] s (execYieldPoint eng s) := by
  unfold execYieldPoint
  extract_lets -underBinder -merge -useContext x1 x2
  split
  · refine Runs.ite (fun _ => ?_) (fun _ => ?_)
    · refine Runs.next ?_
      refine Does.call State.displace_does (by decide +kernel) ?_
      exact Does.refl
    · refine Runs.next ?_
      exact Does.refl
  · refine Runs.next ?_
    exact Does.refl

theorem execTaskJudge_runs {task s} : Runs [.agenda, .causes, .fresh, .sram, .tasks, .sched, .acq, .twn] [4] s (execTaskJudge
      task s) := by
  unfold execTaskJudge
  extract_lets -underBinder -merge -useContext x1 x2 x3 x4
  refine Runs.lets x3 ?_ (fun hx3 => ?_)
  · unfold x3
    refine Does.call State.tickItem_does (by decide +kernel) ?_
    exact Does.refl
  refine Runs.lets x4 ?_ (fun hx4 => ?_)
  · unfold x4
    refine Does.call State.setTask_does (by decide +kernel) ?_
    exact hx3
  refine Runs.ite (fun _ => ?_) (fun _ => ?_)
  · refine Runs.next ?_
    exact hx3
  · refine Runs.ite (fun _ => ?_) (fun _ => ?_)
    · refine Runs.next ?_
      refine Does.ite (fun _ => ?_) (fun _ => ?_)
      · refine Does.bump adr_SCH_RCCNT (by decide +kernel) ?_
        exact hx4
      · exact hx4
    · refine Runs.ite (fun _ => ?_) (fun _ => ?_)
      · refine Runs.next ?_
        refine Does.ite (fun _ => ?_) (fun _ => ?_)
        · refine Does.call State.startTask_does (by decide +kernel) ?_
          exact hx3
        · exact hx3
      · refine Runs.ite (fun _ => ?_) (fun _ => ?_)
        · split
          · refine Runs.next ?_
            refine Does.call State.decideTask_does (by decide +kernel) ?_
            exact hx3
          · refine Runs.next ?_
            exact hx3
        · refine Runs.next ?_
          exact hx3

theorem execTaskClear_runs {task arg s} : Runs [.agenda, .fresh, .out, .sram, .tasks, .sched, .acq, .links] [4] s
      (execTaskClear task arg s) := by
  unfold execTaskClear
  extract_lets -underBinder -merge -useContext x1 x2 x3
  refine Runs.ite (fun _ => ?_) (fun _ => ?_)
  · refine Runs.next ?_
    refine Does.call State.msgReject_does (by decide +kernel) ?_
    exact Does.refl
  · refine Runs.next ?_
    refine Does.call State.actOnFlags_does (by decide +kernel) ?_
    exact Does.refl

theorem execTaskArm_runs {task ctl arg s} : Runs [.agenda, .fresh, .sram, .tasks, .sched] [4] s (execTaskArm task ctl arg s) := by
  unfold execTaskArm
  extract_lets -underBinder -merge -useContext x1 x2 x3
  refine Runs.ite (fun _ => ?_) (fun _ => ?_)
  · refine Runs.next ?_
    refine Does.call State.msgReject_does (by decide +kernel) ?_
    exact Does.refl
  · refine Runs.ite (fun _ => ?_) (fun _ => ?_)
    · refine Runs.next ?_
      refine Does.call State.msgReject_does (by decide +kernel) ?_
      exact Does.refl
    · refine Runs.ite (fun _ => ?_) (fun _ => ?_)
      · refine Runs.next ?_
        refine Does.call State.msgReject_does (by decide +kernel) ?_
        exact Does.refl
      · refine Runs.next ?_
        refine Does.call State.toJudge_does (by decide +kernel) ?_
        refine Does.call State.setTask_does (by decide +kernel) ?_
        exact Does.refl

theorem execTaskStart_runs {task s} : Runs [.agenda, .causes, .fresh, .sram, .tasks, .sched, .acq] [4] s (execTaskStart task
      s) := by
  unfold execTaskStart
  extract_lets -underBinder -merge -useContext x1 x2
  refine Runs.ite (fun _ => ?_) (fun _ => ?_)
  · refine Runs.next ?_
    refine Does.call State.msgReject_does (by decide +kernel) ?_
    exact Does.refl
  · refine Runs.ite (fun _ => ?_) (fun _ => ?_)
    · refine Runs.next ?_
      refine Does.call State.startTask_does (by decide +kernel) ?_
      exact Does.refl
    · refine Runs.next ?_
      refine Does.call State.msgReject_does (by decide +kernel) ?_
      exact Does.refl

theorem execTaskReset_runs {task s} : Runs [.agenda, .causes, .fresh, .sram, .tasks] [4] s (execTaskReset task s) := by
  unfold execTaskReset
  extract_lets -underBinder -merge -useContext x1 x2
  refine Runs.ite (fun _ => ?_) (fun _ => ?_)
  · refine Runs.next ?_
    refine Does.call State.msgReject_does (by decide +kernel) ?_
    exact Does.refl
  · refine Runs.ite (fun _ => ?_) (fun _ => ?_)
    · refine Runs.next ?_
      refine Does.call State.msgReject_does (by decide +kernel) ?_
      exact Does.refl
    · refine Runs.next ?_
      refine Does.call State.judgeGuards_does (by decide +kernel) ?_
      refine Does.call State.setTask_does (by decide +kernel) ?_
      exact Does.refl

theorem execTaskTimer_runs {task guard arg s} : Runs [.agenda, .causes, .fresh, .out, .sram, .tasks, .sched, .acq, .links]
      [4] s (execTaskTimer task guard arg s) := by
  unfold execTaskTimer
  extract_lets -underBinder -merge -useContext x1 x2 x3 x4 x5 x6 x7 x8 x9
  refine Runs.lets x7 ?_ (fun hx7 => ?_)
  · unfold x7
    refine Does.call State.actOnFlags_does (by decide +kernel) ?_
    exact Does.refl
  refine Runs.lets x9 ?_ (fun hx9 => ?_)
  · unfold x9
    refine Does.call State.setTask_does (by decide +kernel) ?_
    exact hx7
  refine Runs.ite (fun _ => ?_) (fun _ => ?_)
  · refine Runs.next ?_
    refine Does.call State.msgReject_does (by decide +kernel) ?_
    exact Does.refl
  · refine Runs.ite (fun _ => ?_) (fun _ => ?_)
    · refine Runs.next ?_
      refine Does.call State.msgReject_does (by decide +kernel) ?_
      exact Does.refl
    · refine Runs.ite (fun _ => ?_) (fun _ => ?_)
      · refine Runs.next ?_
        refine Does.call State.msgReject_does (by decide +kernel) ?_
        exact Does.refl
      · refine Runs.ite (fun _ => ?_) (fun _ => ?_)
        · refine Runs.next ?_
          refine Does.call State.msgReject_does (by decide +kernel) ?_
          exact Does.refl
        · refine Runs.ite (fun _ => ?_) (fun _ => ?_)
          · refine Runs.next ?_
            refine Does.call State.raise_does (by decide +kernel) ?_
            refine Does.call State.causeOn_does (by decide +kernel) ?_
            refine Does.latch adr_SCH_LAT (by decide +kernel) ?_
            refine Does.call State.msgReject_does (by decide +kernel) ?_
            exact Does.refl
          · refine Runs.next ?_
            refine Does.call State.hold_does (by decide +kernel) ?_
            refine Does.call State.judgeGuards_does (by decide +kernel) ?_
            exact hx9

theorem execQpush_runs {by_ q msg s} : Runs [.agenda, .fresh, .sched] [1, 4] s (execQpush by_ q msg s) := by
  unfold execQpush
  refine Runs.ite (fun _ => ?_) (fun _ => ?_)
  · refine Runs.next ?_
    refine Does.call State.setHeld_does (by decide +kernel) ?_
    exact Does.refl
  · refine Runs.next ?_
    refine Does.call State.place_does (by decide +kernel) ?_
    exact Does.refl

theorem execIngressTake_runs {q s} : Runs [.agenda, .fresh, .sched] [1] s (execIngressTake q s) := by
  unfold execIngressTake
  refine Runs.next ?_
  refine Does.call State.takeHead_does (by decide +kernel) ?_
  exact Does.refl

theorem State.fixStart_does {s n} : Does [.sram, .tasks] [] s (State.fixStart s n) := by
  unfold State.fixStart
  extract_lets -underBinder -merge -useContext x1
  refine Does.ite (fun _ => ?_) (fun _ => ?_)
  · refine Does.call State.setTask_does (by decide +kernel) ?_
    exact Does.refl
  · exact Does.refl

theorem execStepCommit_runs {task s} : Runs [.agenda, .free, .fresh, .sram, .tasks] [3] s (execStepCommit task s) := by
  unfold execStepCommit
  extract_lets -underBinder -merge -useContext x1 x2
  refine Runs.ite (fun _ => ?_) (fun _ => ?_)
  · refine Runs.next ?_
    refine Does.call State.commit_does (by decide +kernel) ?_
    exact Does.refl
  · refine Runs.next ?_
    exact Does.refl

theorem execTaskDispatch_runs {eng s} : Runs [.fresh, .sram, .tasks, .sched] [5] s (execTaskDispatch eng s) := by
  unfold execTaskDispatch
  extract_lets -underBinder -merge -useContext x1 x2
  refine Runs.lets x2 ?_ (fun hx2 => ?_)
  · unfold x2
    refine Does.call State.settle_does (by decide +kernel) ?_
    exact Does.refl
  refine Runs.ite (fun _ => ?_) (fun _ => ?_)
  · refine Runs.next ?_
    exact hx2
  · split
    · refine Runs.next ?_
      exact hx2
    · extract_lets -underBinder -merge -useContext x3 x4 x5 x6 x7
      refine Runs.lets x7 ?_ (fun hx7 => ?_)
      · unfold x7
        refine Does.call State.setSte_does (by decide +kernel) ?_
        refine Does.call State.setTask_does (by decide +kernel) ?_
        exact hx2
      refine Runs.next ?_
      refine Does.bump adr_STE_DISP (by decide +kernel) ?_
      exact hx7

theorem execTaskPost_runs {task arg s} : Runs [.agenda, .fresh, .out, .sram, .tasks, .sched, .acq, .links] [4] s
      (execTaskPost task arg s) := by
  unfold execTaskPost
  refine Runs.ite (fun _ => ?_) (fun _ => ?_)
  · refine Runs.next ?_
    refine Does.call State.msgReject_does (by decide +kernel) ?_
    exact Does.refl
  · refine Runs.next ?_
    refine Does.call State.actOnFlags_does (by decide +kernel) ?_
    exact Does.refl

theorem execTaskTimerExpiry_runs {task s} : Runs [.agenda, .causes, .out, .sram, .tasks, .sched, .acq, .links] [] s
      (execTaskTimerExpiry task s) := by
  unfold execTaskTimerExpiry
  extract_lets -underBinder -merge -useContext x1 x2
  split
  · extract_lets -underBinder -merge -useContext x3
    refine Runs.lets x3 ?_ (fun hx3 => ?_)
    · unfold x3
      refine Does.call State.setTask_does (by decide +kernel) ?_
      exact Does.refl
    refine Runs.ite (fun _ => ?_) (fun _ => ?_)
    · refine Runs.next ?_
      refine Does.call State.actOnFlags_does (by decide +kernel) ?_
      refine Does.call State.judgeGuards_does (by decide +kernel) ?_
      exact hx3
    · refine Runs.next ?_
      exact Does.refl
  · refine Runs.next ?_
    exact Does.refl

theorem State.clearFigures_does {s} : Does [.sched] [] s (State.clearFigures s) := by
  unfold State.clearFigures
  extract_lets -underBinder -merge -useContext x1
  refine Does.put_sched (by decide +kernel) ?_
  exact Does.refl

end Sys2Proof.Machine
end

