-- ==== Sys2Proof/Laws/Results.lean ====
section
/-! SUPPORT. What each operation of Machine/Results.lean may change (Laws/Frame.lean says how to read it). -/
namespace Sys2Proof.Machine

set_option Elab.async false

theorem State.feed_does {s ch q m hop flags due gateEnd} : Does [.agenda, .free, .fresh, .acq] [1, 3, 10] s (State.feed s ch
      q m hop flags due gateEnd) := by
  unfold State.feed
  extract_lets -underBinder -merge -useContext x1 x2 x3 x4
  refine Does.lets x2 ?_ (fun hx2 => ?_)
  · unfold x2
    refine Does.ite (fun _ => ?_) (fun _ => ?_)
    · refine Does.call State.addCharge_does (by decide +kernel) ?_
      exact Does.refl
    · exact Does.refl
  refine Does.lets x3 ?_ (fun hx3 => ?_)
  · unfold x3
    refine Does.call State.compares_does (by decide +kernel) ?_
    exact hx2
  refine Does.ite (fun _ => ?_) (fun _ => ?_)
  · exact Does.refl
  · refine Does.ite (fun _ => ?_) (fun _ => ?_)
    · exact hx3
    · refine Does.call State.acqResult_does (by decide +kernel) ?_
      exact hx3

theorem State.noteMissed_does {s n u ch q} : Does [.twn] [] s (State.noteMissed s n u ch q) := by
  unfold State.noteMissed
  extract_lets -underBinder -merge -useContext x1
  refine Does.ite (fun _ => ?_) (fun _ => ?_)
  · exact Does.refl
  · refine Does.put_twn (by decide +kernel) ?_
    exact Does.refl

theorem State.setPlaus_does {s ch q on} : Does [.twn] [14] s (State.setPlaus s ch q on) := by
  unfold State.setPlaus
  extract_lets -underBinder -merge -useContext x1 x2 x3 x4
  refine Does.lets x3 ?_ (fun hx3 => ?_)
  · unfold x3
    refine Does.setFld adr_TWN_PLAUS (by decide +kernel) ?_
    exact Does.refl
  refine Does.put_twn (by decide +kernel) ?_
  exact hx3

theorem State.plausible_does {s ch q} : Does [.agenda, .causes, .fresh, .meas, .twn] [14] s (State.plausible s ch q) := by
  unfold State.plausible
  split
  · exact Does.refl
  · extract_lets -underBinder -merge -useContext x1 x2 x3 x4 x5 x6 x7
    refine Does.lets x6 ?_ (fun hx6 => ?_)
    · unfold x6
      refine Does.call State.setMu_does (by decide +kernel) ?_
      exact Does.refl
    refine Does.lets x7 ?_ (fun hx7 => ?_)
    · unfold x7
      refine Does.call State.setMu_does (by decide +kernel) ?_
      exact Does.refl
    refine Does.ite (fun _ => ?_) (fun _ => ?_)
    · exact Does.refl
    · refine Does.ite (fun _ => ?_) (fun _ => ?_)
      · refine Does.call State.setMu_does (by decide +kernel) ?_
        exact Does.refl
      · refine Does.ite (fun _ => ?_) (fun _ => ?_)
        · refine Does.call State.setMu_does (by decide +kernel) ?_
          exact Does.refl
        · refine Does.ite (fun _ => ?_) (fun _ => ?_)
          · refine Does.ite (fun _ => ?_) (fun _ => ?_)
            · refine Does.call State.causeOff_does (by decide +kernel) ?_
              refine Does.call State.setPlaus_does (by decide +kernel) ?_
              exact hx6
            · exact hx6
          · refine Does.ite (fun _ => ?_) (fun _ => ?_)
            · refine Does.call State.raise_does (by decide +kernel) ?_
              refine Does.call State.causeOn_does (by decide +kernel) ?_
              refine Does.bump adr_TWN_PCNT (by decide +kernel) ?_
              refine Does.latch adr_TWN_LAT (by decide +kernel) ?_
              refine Does.call State.setPlaus_does (by decide +kernel) ?_
              exact hx7
            · exact hx7

theorem execResultDue_runs {isl unit f y flags s} : Runs [.agenda, .causes, .free, .fresh, .out, .codes, .meas, .loops,
      .quants, .ships, .acq, .cals, .twn] [1, 3, 6, 10, 14, 64] s (execResultDue isl unit f y flags s) := by
  unfold execResultDue
  extract_lets -underBinder -merge -useContext x1 x2 x3 x4 x5 x6 x7 x8
  refine Runs.lets x4 ?_ (fun hx4 => ?_)
  · unfold x4
    refine Does.setReg adr_MU_RSTAT (by decide +kernel) ?_
    refine Does.setReg adr_MU_VAL (by decide +kernel) ?_
    refine Does.setWide adr_MU_FRQ (by decide +kernel) ?_
    exact Does.refl
  refine Runs.lets x6 ?_ (fun hx6 => ?_)
  · unfold x6
    refine Does.call State.setMu_does (by decide +kernel) ?_
    exact hx4
  refine Runs.lets x8 ?_ (fun hx8 => ?_)
  · unfold x8
    split
    · exact hx6
    · extract_lets -underBinder -merge -useContext x9 x10 x11 x12 x13
      refine Does.lets x10 ?_ (fun hx10 => ?_)
      · unfold x10
        refine Does.call State.setLocal_does (by decide +kernel) ?_
        exact hx6
      refine Does.lets x13 ?_ (fun hx13 => ?_)
      · unfold x13
        refine Does.ite (fun _ => ?_) (fun _ => ?_)
        · exact hx10
        · refine Does.call State.setOffset_does (by decide +kernel) ?_
          exact hx10
      refine Does.ite (fun _ => ?_) (fun _ => ?_)
      · refine Does.call State.feed_does (by decide +kernel) ?_
        refine Does.call State.settle50_does (by decide +kernel) ?_
        exact hx13
      · refine Does.call State.noteMissed_does (by decide +kernel) ?_
        refine Does.call State.plausible_does (by decide +kernel) ?_
        exact hx10
  refine Runs.next ?_
  refine Does.call State.calResult_does (by decide +kernel) ?_
  exact hx8

theorem State.shippedResult_does {s n u flags y due} : Does [.agenda, .causes, .free, .fresh, .meas, .ships, .acq, .twn] [1,
      3, 10, 14] s (State.shippedResult s n u flags y due) := by
  unfold State.shippedResult
  extract_lets -underBinder -merge -useContext x1
  clear_value x1
  split
  · exact Does.refl
  · extract_lets -underBinder -merge -useContext x2 x3
    refine Does.lets x3 ?_ (fun hx3 => ?_)
    · unfold x3
      refine Does.call State.setShip_does (by decide +kernel) ?_
      exact Does.refl
    refine Does.ite (fun _ => ?_) (fun _ => ?_)
    · exact hx3
    · refine Does.call State.feed_does (by decide +kernel) ?_
      refine Does.call State.plausible_does (by decide +kernel) ?_
      refine Does.call State.settle50_does (by decide +kernel) ?_
      exact hx3

end Sys2Proof.Machine
end

