-- ==== Sys2Proof/Laws/Hbm.lean ====
section
/-! SUPPORT. What each operation of Machine/Hbm.lean may change (Laws/Frame.lean says how to read it). -/
namespace Sys2Proof.Machine

set_option Elab.async false

theorem execRefresh_runs {pc busy s} : Runs [.fresh] [12] s (execRefresh pc busy s) := by
  unfold execRefresh
  extract_lets -underBinder -merge -useContext x1 x2
  refine Runs.ite (fun _ => ?_) (fun _ => ?_)
  · refine Runs.next ?_
    refine Does.setFld adr_HBM_PC_DEPTH (by decide +kernel) ?_
    exact Does.refl
  · refine Runs.ite (fun _ => ?_) (fun _ => ?_)
    · refine Runs.next ?_
      refine Does.setFld adr_HBM_PC_DEPTH (by decide +kernel) ?_
      exact Does.refl
    · refine Runs.next ?_
      refine Does.bump adr_HBM_SPLITS (by decide +kernel) ?_
      refine Does.latch adr_HBM_LAT (by decide +kernel) ?_
      refine Does.setFld adr_HBM_PC_DEPTH (by decide +kernel) ?_
      exact Does.refl

theorem State.trainAt_does {s r} : Does [.fresh, .hbm] [12] s (State.trainAt s r) := by
  unfold State.trainAt
  extract_lets -underBinder -merge -useContext x1 x2
  refine Does.lets x1 ?_ (fun hx1 => ?_)
  · unfold x1
    refine Does.setBit adr_HBM_STAT (by decide +kernel) ?_
    refine Does.latch adr_HBM_STAT (by decide +kernel) ?_
    exact Does.refl
  refine Does.put_hbm (by decide +kernel) ?_
  exact hx1

theorem execHbmTrainDone_runs {good s} : Runs [.agenda, .causes, .fresh, .hbm] [12] s (execHbmTrainDone good s) := by
  unfold execHbmTrainDone
  extract_lets -underBinder -merge -useContext x1 x2
  refine Runs.lets x1 ?_ (fun hx1 => ?_)
  · unfold x1
    refine Does.setBit adr_HBM_STAT (by decide +kernel) ?_
    exact Does.refl
  refine Runs.lets x2 ?_ (fun hx2 => ?_)
  · unfold x2
    refine Does.ite (fun _ => ?_) (fun _ => ?_)
    · refine Does.call State.causeOff_does (by decide +kernel) ?_
      refine Does.setFld adr_HBM_RATE (by decide +kernel) ?_
      refine Does.latch adr_HBM_STAT (by decide +kernel) ?_
      exact hx1
    · refine Does.call State.raise_does (by decide +kernel) ?_
      refine Does.call State.causeOn_does (by decide +kernel) ?_
      refine Does.latch adr_HBM_LAT (by decide +kernel) ?_
      refine Does.setBit adr_HBM_STAT (by decide +kernel) ?_
      exact hx1
  refine Runs.ite (fun _ => ?_) (fun _ => ?_)
  · refine Runs.next ?_
    exact Does.refl
  · refine Runs.next ?_
    split
    · extract_lets -underBinder -merge -useContext x3 x4
      refine Does.lets x3 ?_ (fun hx3 => ?_)
      · unfold x3
        refine Does.setBit adr_HBM_STAT (by decide +kernel) ?_
        exact hx2
      refine Does.call State.trainAt_does (by decide +kernel) ?_
      refine Does.put_hbm (by decide +kernel) ?_
      exact hx3
    · exact hx2

theorem State.basinLoss_does {s a link} : Does [.agenda, .fresh, .acq] [10] s (State.basinLoss s a link) := by
  unfold State.basinLoss
  split
  · exact Does.refl
  · extract_lets -underBinder -merge -useContext x1 x2 x3 x4 x5 x6 x7 x8
    refine Does.lets x7 ?_ (fun hx7 => ?_)
    · unfold x7
      refine Does.ite (fun _ => ?_) (fun _ => ?_)
      · refine Does.put_acq (by decide +kernel) ?_
        exact Does.refl
      · exact Does.refl
    refine Does.lets x8 ?_ (fun hx8 => ?_)
    · unfold x8
      refine Does.bump adr_BSN_DROP (by decide +kernel) ?_
      exact hx7
    refine Does.ite (fun _ => ?_) (fun _ => ?_)
    · refine Does.ite (fun _ => ?_) (fun _ => ?_)
      · refine Does.call State.raise_does (by decide +kernel) ?_
        exact hx8
      · exact hx8
    · exact Does.refl

theorem State.hbmMap_does {s a} : Does2 [.free] [] s (State.hbmMap s a) := by
  unfold State.hbmMap
  split
  · refine Does2.pair ?_
    exact Does.refl
  · refine Does2.pair ?_
    refine Does2.snd ?_
    refine Does2.call State.draw_does (by decide +kernel) ?_
    exact Does.refl

theorem State.hbmLog_does {s requester a ue} : Does [.free, .hbm, .mgt] [16] s (State.hbmLog s requester a ue) := by
  unfold State.hbmLog
  extract_lets -underBinder -merge -useContext x1 x2 x3 x4 x5 x6 x7 x8
  refine Does.lets2 x1 ?_ (fun hx1 => ?_)
  · unfold x1
    refine Does2.call State.hbmMap_does (by decide +kernel) ?_
    exact Does.refl
  refine Does.lets2 x4 ?_ (fun hx4 => ?_)
  · unfold x4
    refine Does2.call State.draw_does (by decide +kernel) ?_
    refine Does2.snd ?_
    exact hx1
  refine Does.lets x7 ?_ (fun hx7 => ?_)
  · unfold x7
    refine Does2.snd ?_
    exact hx4
  refine Does.call State.log_does (by decide +kernel) ?_
  refine Does.put_hbm (by decide +kernel) ?_
  exact hx7

theorem State.hbmVerdict_does {s requester a verdict} : Does [.agenda, .free, .fresh, .hbm, .mgt] [12, 16] s
      (State.hbmVerdict s requester a verdict) := by
  unfold State.hbmVerdict
  refine Does.ite (fun _ => ?_) (fun _ => ?_)
  · exact Does.refl
  · refine Does.ite (fun _ => ?_) (fun _ => ?_)
    · refine Does.call State.raise_does (by decide +kernel) ?_
      refine Does.call State.hbmLog_does (by decide +kernel) ?_
      refine Does.bump adr_HBM_CECNT (by decide +kernel) ?_
      refine Does.latch adr_HBM_LAT (by decide +kernel) ?_
      exact Does.refl
    · refine Does.call State.raise_does (by decide +kernel) ?_
      refine Does.call State.hbmLog_does (by decide +kernel) ?_
      refine Does.bump adr_HBM_UECNT (by decide +kernel) ?_
      refine Does.latch adr_HBM_LAT (by decide +kernel) ?_
      exact Does.refl

theorem State.hbmAnswer_does {s r} : Does [.fresh, .out, .links] [0] s (State.hbmAnswer s r) := by
  unfold State.hbmAnswer
  extract_lets -underBinder -merge -useContext x1
  refine Does.lets x1 ?_ (fun hx1 => ?_)
  · unfold x1
    refine Does.ite (fun _ => ?_) (fun _ => ?_)
    · exact Does.refl
    · refine Does.call (State.rejLatch_does adr_0) (by decide +kernel) ?_
      exact Does.refl
  refine Does.call State.sendFrame_does (by decide +kernel) ?_
  exact hx1

theorem State.hostLine_does {s p line bad} : Does [.fresh, .out, .hbm, .links] [0] s (State.hostLine s p line bad) := by
  unfold State.hostLine
  extract_lets -underBinder -merge -useContext x1 x2 x3
  refine Does.lets x3 ?_ (fun hx3 => ?_)
  · unfold x3
    refine Does.put_hbm (by decide +kernel) ?_
    exact Does.refl
  refine Does.foldl ?_ ?_
  · intro y4 y5
    refine Does.call State.hbmAnswer_does (by decide +kernel) ?_
    exact Does.refl
  · exact hx3

theorem State.hbmDone_does {s r verdict} : Does [.agenda, .free, .fresh, .out, .acq, .hbm, .links, .str, .mgt] [0, 10, 12,
      16] s (State.hbmDone s r verdict) := by
  unfold State.hbmDone
  extract_lets -underBinder -merge -useContext x1 x2 x3 x4 x5
  refine Does.lets x4 ?_ (fun hx4 => ?_)
  · unfold x4
    refine Does.call State.hbmVerdict_does (by decide +kernel) ?_
    exact Does.refl
  refine Does.ite (fun _ => ?_) (fun _ => ?_)
  · refine Does.ite (fun _ => ?_) (fun _ => ?_)
    · exact hx4
    · refine Does.call State.hostLine_does (by decide +kernel) ?_
      exact hx4
  · refine Does.ite (fun _ => ?_) (fun _ => ?_)
    · refine Does.call State.basinLoss_does (by decide +kernel) ?_
      exact hx4
    · refine Does.ite (fun _ => ?_) (fun _ => ?_)
      · refine Does.put_str (by decide +kernel) ?_
        exact hx4
      · exact hx4

theorem State.hbmJoin_does {s requester line} : Does [.fresh, .hbm] [12] s (State.hbmJoin s requester line) := by
  unfold State.hbmJoin
  refine Does.ite (fun _ => ?_) (fun _ => ?_)
  · refine Does.call State.hbmRequest_does (by decide +kernel) ?_
    exact Does.refl
  · exact Does.refl

theorem State.refreshFirst_does {s r} : Does [] [12] s (State.refreshFirst s r) := by
  unfold State.refreshFirst
  extract_lets -underBinder -merge -useContext x1
  refine Does.ite (fun _ => ?_) (fun _ => ?_)
  · refine Does.setFld adr_HBM_PC_DEPTH (by decide +kernel) ?_
    exact Does.refl
  · exact Does.refl

theorem execHbmRequestDone_runs {requester addr verdict s} : Runs [.agenda, .free, .fresh, .out, .acq, .hbm, .links, .str,
      .mgt] [0, 10, 12, 16] s (execHbmRequestDone requester addr verdict s) := by
  unfold execHbmRequestDone
  extract_lets -underBinder -merge -useContext x1 x2
  refine Runs.lets x2 ?_ (fun hx2 => ?_)
  · unfold x2
    refine Does.call State.hbmJoin_does (by decide +kernel) ?_
    exact Does.refl
  refine Runs.ite (fun _ => ?_) (fun _ => ?_)
  · refine Runs.next ?_
    exact Does.refl
  · split
    · refine Runs.next ?_
      exact hx2
    · refine Runs.ite (fun _ => ?_) (fun _ => ?_)
      · refine Runs.next ?_
        refine Does.call State.hbmDone_does (by decide +kernel) ?_
        refine Does.call State.hbmServe_does (by decide +kernel) ?_
        refine Does.call State.refreshFirst_does (by decide +kernel) ?_
        exact hx2
      · refine Runs.next ?_
        exact hx2

theorem execHbmRateReq_runs {by_ rate s} : Runs [.agenda, .fresh, .hbm] [12] s (execHbmRateReq by_ rate s) := by
  unfold execHbmRateReq
  extract_lets -underBinder -merge -useContext x1 x2
  refine Runs.lets x1 ?_ (fun hx1 => ?_)
  · unfold x1
    refine Does.setFld adr_HBM_RATE (by decide +kernel) ?_
    exact Does.refl
  refine Runs.ite (fun _ => ?_) (fun _ => ?_)
  · refine Runs.next ?_
    refine Does.call (State.rejectVal_does adr_HBM_RATE) (by decide +kernel) ?_
    exact Does.refl
  · refine Runs.ite (fun _ => ?_) (fun _ => ?_)
    · refine Runs.next ?_
      refine Does.latch adr_HBM_STAT (by decide +kernel) ?_
      refine Does.latch adr_HBM_LAT (by decide +kernel) ?_
      refine Does.put_hbm (by decide +kernel) ?_
      exact hx1
    · refine Runs.next ?_
      refine Does.call State.trainAt_does (by decide +kernel) ?_
      exact hx1

theorem execScrub_runs {addr verdict s} : Runs [.agenda, .free, .fresh, .hbm, .mgt] [12, 16] s (execScrub addr verdict s) := by
  unfold execScrub
  refine Runs.ite (fun _ => ?_) (fun _ => ?_)
  · refine Runs.next ?_
    exact Does.refl
  · refine Runs.next ?_
    refine Does.call State.hbmVerdict_does (by decide +kernel) ?_
    exact Does.refl

theorem execRetrain_runs {by_ s} : Runs [.agenda, .fresh, .hbm] [12] s (execRetrain by_ s) := by
  unfold execRetrain
  extract_lets -underBinder -merge -useContext x1
  refine Runs.ite (fun _ => ?_) (fun _ => ?_)
  · refine Runs.next ?_
    refine Does.call (State.rejectVal_does adr_HBM_CMD) (by decide +kernel) ?_
    exact Does.refl
  · refine Runs.ite (fun _ => ?_) (fun _ => ?_)
    · refine Runs.next ?_
      exact Does.refl
    · refine Runs.next ?_
      refine Does.call State.trainAt_does (by decide +kernel) ?_
      exact Does.refl

theorem State.hbmDiscard_does {s} : Does [.fresh, .out, .hbmMem, .hbm, .links] [0] s (State.hbmDiscard s) := by
  unfold State.hbmDiscard
  extract_lets -underBinder -merge -useContext x1 x2
  refine Does.lets x1 ?_ (fun hx1 => ?_)
  · unfold x1
    refine Does.call State.hbmFlush_does (by decide +kernel) ?_
    exact Does.refl
  refine Does.foldl ?_ ?_
  · intro y3 y4
    beta_reduce
    refine Does.call State.hbmAnswer_does (by decide +kernel) ?_
    exact Does.refl
  · refine Does.put_hbm (by decide +kernel) ?_
    exact hx1

end Sys2Proof.Machine
end

