-- ==== Sys2Proof/Laws/Access.lean ====
section
/-! SUPPORT. What each operation of Machine/Access.lean may change (Laws/Frame.lean says how to read it). -/
namespace Sys2Proof.Machine

set_option Elab.async false

theorem State.writeSpace_does {s p sp off data} : Does [.fresh, .sram, .hbmMem, .hbm] [12] s (State.writeSpace s p sp off
      data) := by
  unfold State.writeSpace
  refine Does.ite (fun _ => ?_) (fun _ => ?_)
  · refine Does.put_sram (by decide +kernel) (fun h => Memory.wf_writeBytes _ _ _ h) ?_
    exact Does.refl
  · refine Does.call State.hbmWrite_does (by decide +kernel) ?_
    exact Does.refl

theorem Does.nextOr {ps bs s t r} (_ : Does ps bs s t) (h : Runs ps bs s r) : Does ps bs s (nextOr t r) := by
  obtain ⟨u, rfl, h⟩ := h; exact h

theorem State.acceptPush_does {s by_ q k a w} : Does2 [.staging, .agenda, .fresh, .sched] [1, 4] s (State.acceptPush s by_ q
      k a w) := by
  unfold State.acceptPush
  extract_lets -underBinder -merge -useContext x1 x2 x3 x4 x5
  refine Does2.lets x3 ?_ (fun hx3 => ?_)
  · unfold x3
    refine Does.call State.setStaged_does (by decide +kernel) ?_
    refine Does.call State.setStaged_does (by decide +kernel) ?_
    refine Does.call State.setStaged_does (by decide +kernel) ?_
    exact Does.refl
  refine Does2.lets x4 ?_ (fun hx4 => ?_)
  · unfold x4
    refine Does.nextOr ?_ ?_
    · exact hx3
    · refine Runs.call execQpush_runs (by decide +kernel) ?_
      exact hx3
  refine Does2.ite (fun _ => ?_) (fun _ => ?_)
  · refine Does2.pair ?_
    refine Does.call State.setStaged_does (by decide +kernel) ?_
    exact Does.refl
  · refine Does2.pair ?_
    exact hx4

theorem State.portRead_does {s p a} : Does2 [.shadow] [] s (State.portRead s p a) := by
  unfold State.portRead
  split
  · refine Does2.pair ?_
    exact Does.refl
  · split
    · extract_lets -underBinder -merge -useContext x1
      refine Does2.letsF1 x1 ?_ (fun hx1 => ?_)
      · intro y2 y3; unfold x1
        extract_lets -underBinder -merge -useContext x4
        refine Does.put_shadow (by decide +kernel) ?_
        exact Does.refl
      refine Does2.ite (fun _ => ?_) (fun _ => ?_)
      · refine Does2.ite (fun _ => ?_) (fun _ => ?_)
        · refine Does2.pair ?_
          refine Does.foldl ?_ ?_
          · intro y5 y6
            refine (hx1 _ _).after ?_
            exact Does.refl
          · exact Does.refl
        · refine Does2.pair ?_
          exact Does.refl
      · refine Does2.pair ?_
        exact Does.refl
    · refine Does2.pair ?_
      exact Does.refl

theorem State.refuse_does {s by_ a inReg write fs4} : Does [.regs, .agenda, .fresh] [] s (State.refuse s by_ a inReg write
      fs4) := by
  unfold State.refuse
  extract_lets -underBinder -merge -useContext x1 x2
  refine Does.lets x2 ?_ (fun hx2 => ?_)
  · unfold x2
    refine Does.ite (fun _ => ?_) (fun _ => ?_)
    · refine Does.call State.reject_any (by decide +kernel) ?_
      exact Does.refl
    · refine Does.call State.rejLatch_any (by decide +kernel) ?_
      exact Does.refl
  refine Does.ite (fun _ => ?_) (fun _ => ?_)
  · refine Does.call State.raise_does (by decide +kernel) ?_
    exact hx2
  · exact hx2

theorem State.readWords_does {s p role a n} : Does3 [.regs, .shadow, .agenda, .fresh] [] s (State.readWords s p role a n) := by
  induction n generalizing s a with
  | zero => exact Does3.pair Does.refl
  | succ n ih =>
    unfold State.readWords
    extract_lets -underBinder -merge -useContext x1 x2 x3
    refine Does3.pair (Does3.snd (Does3.after ih ?_))
    show Does3 _ _ s x2
    unfold x2
    refine Does3.ite (fun _ => Does3.pair ?_) (fun _ => Does3.ite (fun _ => Does3.pair ?_) (fun _ => Does3.pair ?_))
    · exact Does.call State.refuse_does (by decide +kernel) Does.refl
    · exact Does.call State.refuse_does (by decide +kernel) Does.refl
    · exact Does2.snd (Does2.call State.portRead_does (by decide +kernel) Does.refl)

theorem State.hostRead_does {s p a n} : Does3 [.regs, .shadow, .agenda, .fresh] [] s (State.hostRead s p a n) := by
  unfold State.hostRead
  extract_lets -underBinder -merge -useContext x1 x2 x3 x4
  refine Does3.ite (fun _ => ?_) (fun _ => ?_)
  · refine Does3.ite (fun _ => ?_) (fun _ => ?_)
    · refine Does3.pair ?_
      refine Does.call State.refuse_does (by decide +kernel) ?_
      exact Does.refl
    · split
      · refine Does3.pair ?_
        refine Does.call State.refuse_does (by decide +kernel) ?_
        exact Does.refl
      · extract_lets -underBinder -merge -useContext x5
        refine Does3.lets3 x5 ?_ (fun hx5 => ?_)
        · unfold x5
          refine Does3.call State.readWords_does (by decide +kernel) ?_
          exact Does.refl
        refine Does3.ite (fun _ => ?_) (fun _ => ?_)
        · refine Does3.pair ?_
          refine Does3.snd ?_
          exact hx5
        · refine Does3.call State.readWords_does (by decide +kernel) ?_
          exact Does.refl
  · refine Does3.ite (fun _ => ?_) (fun _ => ?_)
    · refine Does3.pair ?_
      refine Does.call State.refuse_does (by decide +kernel) ?_
      exact Does.refl
    · refine Does3.ite (fun _ => ?_) (fun _ => ?_)
      · refine Does3.pair ?_
        refine Does.call State.refuse_does (by decide +kernel) ?_
        exact Does.refl
      · refine Does3.pair ?_
        exact Does.refl

theorem State.holdWord_does {s by_ a due w} : Does [.agenda, .free, .fresh, .twn] [1, 3] s (State.holdWord s by_ a due w) := by
  unfold State.holdWord
  extract_lets -underBinder -merge -useContext x1 x2 x3 x4 x5 x6 x7 x8 x9 x10 x11 x12 x13
  refine Does.lets x6 ?_ (fun hx6 => ?_)
  · unfold x6
    refine Does.put_free (by decide +kernel) ?_
    exact Does.refl
  refine Does.lets x9 ?_ (fun hx9 => ?_)
  · unfold x9
    refine Does.call State.fordSeen_does (by decide +kernel) ?_
    exact hx6
  refine Does.lets x11 ?_ (fun hx11 => ?_)
  · unfold x11
    refine Does.call State.hold_does (by decide +kernel) ?_
    exact hx9
  refine Does.lets x13 ?_ (fun hx13 => ?_)
  · unfold x13
    refine Does.ite (fun _ => ?_) (fun _ => ?_)
    · refine Does.put_twn (by decide +kernel) ?_
      exact hx11
    · exact hx11
  refine Does.ite (fun _ => ?_) (fun _ => ?_)
  · refine Does.call State.late_does (by decide +kernel) ?_
    exact hx6
  · split
    · refine Does.ite (fun _ => ?_) (fun _ => ?_)
      · refine Does.call State.hold_does (by decide +kernel) ?_
        exact hx13
      · exact hx13
    · exact hx13

theorem State.hostLate_does {s dst due} : Does [.agenda, .fresh] [1] s (State.hostLate s dst due) := by
  unfold State.hostLate
  refine Does.latch adr_TBS_LATE (by decide +kernel) ?_
  refine Does.call State.late_does (by decide +kernel) ?_
  exact Does.refl

theorem State.writeWords_does {s by_ role a timed ws} : Does3 [.regs, .staging, .agenda, .free, .fresh, .sched, .twn] [] s
      (State.writeWords s by_ role a timed ws) := by
  induction ws generalizing s a with
  | nil => exact Does3.pair Does.refl
  | cons w ws ih =>
    unfold State.writeWords
    extract_lets -underBinder -merge -useContext x1 x2 x3 x4
    refine Does3.pair (Does3.snd (Does3.after ih ?_))
    have h : Does2 [.regs, .staging, .agenda, .free, .fresh, .sched, .twn] [] s x2 := by
      unfold x2
      refine Does2.ite (fun _ => ?_) (fun _ => Does2.ite (fun _ => Does2.pair ?_) (fun _ => Does2.pair ?_))
      · split
        · exact Does2.call State.acceptPush_does (by decide +kernel) Does.refl
        · exact Does2.pair (Does.call State.holdWord_does (by decide +kernel) Does.refl)
      · exact Does.call State.hostLate_does (by decide +kernel) (Does.call State.refuse_does (by decide +kernel) Does.refl)
      · exact Does.call State.refuse_does (by decide +kernel) Does.refl
    clear_value x2
    show Does2 _ _ s x3
    unfold x3
    exact Does2.ite (fun _ => Does2.pair (Does.call State.reject_any (by decide +kernel) h.snd)) (fun _ => h)

theorem State.forwardWords_does {s p a timed bad ws} : Does [.out, .links] [] s (State.forwardWords s p a timed bad ws) := by
  induction ws generalizing s a with
  | nil => exact Does.refl
  | cons w ws ih =>
    unfold State.forwardWords
    refine ih.after ?_
    exact Does.ite (fun _ => Does.call State.sendFrame_does (by decide +kernel) Does.refl) (fun _ => Does.refl)

theorem State.performWrite_does {s p sp off data} : Does [.regs, .agenda, .fresh, .sram, .hbmMem, .hbm] [] s
      (State.performWrite s p sp off data) := by
  unfold State.performWrite
  refine Does.ite (fun _ => ?_) (fun _ => ?_)
  · refine Does.call State.writeSpace_does (by decide +kernel) ?_
    exact Does.refl
  · refine Does.call State.refuse_does (by decide +kernel) ?_
    exact Does.refl

theorem State.refuseHost_does {s p a write} : Does [.regs, .agenda, .fresh] [] s (State.refuseHost s p a write) := by
  unfold State.refuseHost
  refine Does.call State.refuse_does (by decide +kernel) ?_
  exact Does.refl

theorem State.hostWrite_does {s p a timed data} : Does3 [.regs, .staging, .agenda, .free, .fresh, .out, .sram, .hbmMem,
      .sched, .hbm, .twn, .links] [] s (State.hostWrite s p a timed data) := by
  unfold State.hostWrite
  extract_lets -underBinder -merge -useContext x1 x2 x3 x4 x5 x6 x7 x8 x9
  refine Does3.lets x9 ?_ (fun hx9 => ?_)
  · unfold x9
    refine Does.ite (fun _ => ?_) (fun _ => ?_)
    · refine Does.call State.hold_does (by decide +kernel) ?_
      refine Does.call State.crossed_does (by decide +kernel) ?_
      exact Does.refl
    · refine Does.call State.writeSpace_does (by decide +kernel) ?_
      exact Does.refl
  refine Does3.ite (fun _ => ?_) (fun _ => ?_)
  · refine Does3.ite (fun _ => ?_) (fun _ => ?_)
    · refine Does3.pair ?_
      refine Does.call State.refuse_does (by decide +kernel) ?_
      exact Does.refl
    · split
      · refine Does3.pair ?_
        refine Does.call State.refuse_does (by decide +kernel) ?_
        exact Does.refl
      · refine Does3.call State.writeWords_does (by decide +kernel) ?_
        exact Does.refl
  · refine Does3.ite (fun _ => ?_) (fun _ => ?_)
    · refine Does3.pair ?_
      refine Does.call State.refuse_does (by decide +kernel) ?_
      exact Does.refl
    · refine Does3.ite (fun _ => ?_) (fun _ => ?_)
      · refine Does3.pair ?_
        refine Does.call State.refuse_does (by decide +kernel) ?_
        exact Does.refl
      · refine Does3.ite (fun _ => ?_) (fun _ => ?_)
        · refine Does3.pair ?_
          refine Does.call State.refuse_does (by decide +kernel) ?_
          exact Does.refl
        · refine Does3.ite (fun _ => ?_) (fun _ => ?_)
          · refine Does3.pair ?_
            refine Does.call State.hostLate_does (by decide +kernel) ?_
            refine Does.call State.refuse_does (by decide +kernel) ?_
            exact Does.refl
          · refine Does3.pair ?_
            refine Does.ite (fun _ => ?_) (fun _ => ?_)
            · refine Does.call State.sendFrame_does (by decide +kernel) ?_
              exact hx9
            · exact hx9

end Sys2Proof.Machine
end

