-- ==== Sys2Proof/Laws/Monitors.lean ====
section
/-! SUPPORT. What each operation of Machine/Monitors.lean may change (Laws/Frame.lean says how to read it). -/
namespace Sys2Proof.Machine

set_option Elab.async false

theorem State.showCause_does {s n m cause} : Does [] [64] s (State.showCause s n m cause) := by
  unfold State.showCause
  refine Does.setBit adr_MON_STAT (by decide +kernel) ?_
  refine Does.setFld adr_MON_CAUSE (by decide +kernel) ?_
  exact Does.refl

theorem execMonThrWrite_runs {by_ isl mon data s} : Runs [.agenda, .fresh, .mons] [64] s (execMonThrWrite by_ isl mon data s) := by
  unfold execMonThrWrite
  extract_lets -underBinder -merge -useContext x1 x2 x3 x4
  refine Runs.ite (fun _ => ?_) (fun _ => ?_)
  · refine Runs.next ?_
    refine Does.call (State.rejectVal_does adr_MON_THR) (by decide +kernel) ?_
    exact Does.refl
  · refine Runs.next ?_
    refine Does.setReg adr_MON_THR (by decide +kernel) ?_
    refine Does.call State.setMon_does (by decide +kernel) ?_
    exact Does.refl

theorem State.forceInh_does {s n m} : Does [.agenda] [] s (State.forceInh s n m) := by
  unfold State.forceInh
  refine Does.ite (fun _ => ?_) (fun _ => ?_)
  · refine Does.foldl ?_ ?_
    · intro y1 y2
      beta_reduce
      refine Does.call State.hold_does (by decide +kernel) ?_
      exact Does.refl
    · exact Does.refl
  · exact Does.refl

theorem State.settleMon_does {s n m} : Does [.fresh, .chans] [64] s (State.settleMon s n m) := by
  unfold State.settleMon
  refine Does.ite (fun _ => ?_) (fun _ => ?_)
  · refine Does.call State.settleInh_does (by decide +kernel) ?_
    exact Does.refl
  · exact Does.refl

theorem State.tripActions_does {s n m lo at_} : Does [.agenda, .causes, .free, .fresh] [1, 3, 64] s (State.tripActions s n m
      lo at_) := by
  unfold State.tripActions
  extract_lets -underBinder -merge -useContext x1 x2 x3 x4 x5 x6 x7
  refine Does.lets x4 ?_ (fun hx4 => ?_)
  · unfold x4
    refine Does.call State.raise_does (by decide +kernel) ?_
    refine Does.call State.causeOn_does (by decide +kernel) ?_
    refine Does.setBit adr_MON_STAT (by decide +kernel) ?_
    refine Does.bump adr_MON_TRIPS (by decide +kernel) ?_
    exact Does.refl
  refine Does.lets x6 ?_ (fun hx6 => ?_)
  · unfold x6
    refine Does.ite (fun _ => ?_) (fun _ => ?_)
    · refine Does.call State.excursion_does (by decide +kernel) ?_
      exact hx4
    · refine Does.call State.hold_does (by decide +kernel) ?_
      exact hx4
  refine Does.ite (fun _ => ?_) (fun _ => ?_)
  · refine Does.ite (fun _ => ?_) (fun _ => ?_)
    · refine Does.call State.postAt_does (by decide +kernel) ?_
      exact hx6
    · refine Does.call State.hold_does (by decide +kernel) ?_
      exact hx6
  · exact hx6

theorem State.setLatch_does {s isl mon lo} : Does [.agenda, .causes, .free, .fresh, .chans, .mons, .twn] [1, 3, 64] s
      (State.setLatch s isl mon lo) := by
  unfold State.setLatch
  extract_lets -underBinder -merge -useContext x1 x2 x3 x4
  refine Does.lets x4 ?_ (fun hx4 => ?_)
  · unfold x4
    refine Does.call State.monChange_does (by decide +kernel) ?_
    refine Does.call State.forceInh_does (by decide +kernel) ?_
    exact Does.refl
  refine Does.ite (fun _ => ?_) (fun _ => ?_)
  · exact Does.refl
  · refine Does.call State.settleMon_does (by decide +kernel) ?_
    refine Does.call State.tripActions_does (by decide +kernel) ?_
    exact hx4

theorem State.judgeCause_does {s isl mon cause lo} : Does [.agenda] [64] s (State.judgeCause s isl mon cause lo) := by
  unfold State.judgeCause
  extract_lets -underBinder -merge -useContext x1 x2 x3
  refine Does.lets x3 ?_ (fun hx3 => ?_)
  · unfold x3
    refine Does.call State.showCause_does (by decide +kernel) ?_
    exact Does.refl
  refine Does.ite (fun _ => ?_) (fun _ => ?_)
  · exact Does.refl
  · refine Does.ite (fun _ => ?_) (fun _ => ?_)
    · refine Does.call State.hold_does (by decide +kernel) ?_
      exact hx3
    · exact hx3

theorem State.monStart_does {s n m} : Does [.agenda, .causes, .fresh, .chans, .mons, .twn] [64] s (State.monStart s n m) := by
  unfold State.monStart
  extract_lets -underBinder -merge -useContext x1 x2 x3 x4 x5
  refine Does.lets x3 ?_ (fun hx3 => ?_)
  · unfold x3
    refine Does.call State.setMon_does (by decide +kernel) ?_
    exact Does.refl
  refine Does.lets x4 ?_ (fun hx4 => ?_)
  · unfold x4
    refine Does.setReg adr_MON_STAT (by decide +kernel) ?_
    refine Does.setFld adr_MON_CAUSE (by decide +kernel) ?_
    exact hx3
  refine Does.ite (fun _ => ?_) (fun _ => ?_)
  · exact Does.refl
  · refine Does.ite (fun _ => ?_) (fun _ => ?_)
    · refine Does.call State.settleMon_does (by decide +kernel) ?_
      refine Does.call State.monChange_does (by decide +kernel) ?_
      refine Does.ite (fun _ => ?_) (fun _ => ?_)
      · exact hx4
      · refine Does.call State.forceInh_does (by decide +kernel) ?_
        exact hx4
    · refine Does.call State.monChange_does (by decide +kernel) ?_
      exact hx4

theorem execMonitorTick_runs {isl mon v s} : Runs [.agenda, .causes, .fresh, .mons, .twn] [64] s (execMonitorTick isl mon v s) := by
  unfold execMonitorTick
  extract_lets -underBinder -merge -useContext x1 x2 x3 x4 x5 x6 x7 x8 x9 x10 x11 x12 x13 x14 x15 x16 x17 x18
  refine Runs.lets x17 ?_ (fun hx17 => ?_)
  · unfold x17
    refine Does.setReg adr_MON_STAT (by decide +kernel) ?_
    refine Does.call State.setMon_does (by decide +kernel) ?_
    exact Does.refl
  refine Runs.lets x18 ?_ (fun hx18 => ?_)
  · unfold x18
    refine Does.call State.monChange_does (by decide +kernel) ?_
    exact hx17
  refine Runs.ite (fun _ => ?_) (fun _ => ?_)
  · refine Runs.next ?_
    exact Does.refl
  · refine Runs.next ?_
    refine Does.call State.hold_does (by decide +kernel) ?_
    exact hx18

theorem execMonEnWrite_runs {by_ isl mon en s} : Runs [.agenda, .causes, .fresh, .chans, .mons, .twn] [64] s (execMonEnWrite
      by_ isl mon en s) := by
  unfold execMonEnWrite
  extract_lets -underBinder -merge -useContext x1 x2 x3 x4 x5 x6 x7 x8 x9 x10
  refine Runs.lets x7 ?_ (fun hx7 => ?_)
  · unfold x7
    refine Does.call State.setMon_does (by decide +kernel) ?_
    refine Does.latch adr_MON_CTL (by decide +kernel) ?_
    exact Does.refl
  refine Runs.lets x9 ?_ (fun hx9 => ?_)
  · unfold x9
    refine Does.call State.setMon_does (by decide +kernel) ?_
    refine Does.setFld adr_MON_CTL (by decide +kernel) ?_
    exact Does.refl
  refine Runs.lets x10 ?_ (fun hx10 => ?_)
  · unfold x10
    refine Does.setReg adr_MON_STAT (by decide +kernel) ?_
    refine Does.setFld adr_MON_CAUSE (by decide +kernel) ?_
    exact hx9
  refine Runs.ite (fun _ => ?_) (fun _ => ?_)
  · refine Runs.ite (fun _ => ?_) (fun _ => ?_)
    · refine Runs.next ?_
      exact Does.refl
    · refine Runs.ite (fun _ => ?_) (fun _ => ?_)
      · refine Runs.next ?_
        refine Does.call (State.rejectVal_does adr_MON_CTL) (by decide +kernel) ?_
        exact Does.refl
      · refine Runs.next ?_
        refine Does.ite (fun _ => ?_) (fun _ => ?_)
        · refine Does.call State.monStart_does (by decide +kernel) ?_
          exact hx7
        · refine Does.call State.hold_does (by decide +kernel) ?_
          exact hx7
  · refine Runs.ite (fun _ => ?_) (fun _ => ?_)
    · refine Runs.next ?_
      refine Does.call (State.rejectVal_does adr_MON_CTL) (by decide +kernel) ?_
      exact Does.refl
    · refine Runs.next ?_
      refine Does.call State.monChange_does (by decide +kernel) ?_
      exact hx10

theorem execMonUnsettledTimeout_runs {isl mon s} : Runs [.agenda, .causes, .mons] [] s (execMonUnsettledTimeout isl mon s) := by
  unfold execMonUnsettledTimeout
  extract_lets -underBinder -merge -useContext x1 x2 x3
  refine Runs.ite (fun _ => ?_) (fun _ => ?_)
  · refine Runs.next ?_
    refine Does.call State.raise_does (by decide +kernel) ?_
    refine Does.call State.causeOn_does (by decide +kernel) ?_
    refine Does.call State.setMon_does (by decide +kernel) ?_
    exact Does.refl
  · refine Runs.next ?_
    exact Does.refl

end Sys2Proof.Machine
end

