-- ==== Sys2Proof/Laws/Twin.lean ====
section
/-! SUPPORT. What each operation of Machine/Twin.lean may change (Laws/Frame.lean says how to read it). -/
namespace Sys2Proof.Machine

set_option Elab.async false

theorem State.clearPlaus_does {s} : Does [.causes, .twn] [14] s (State.clearPlaus s) := by
  unfold State.clearPlaus
  extract_lets -underBinder -merge -useContext x1 x2
  refine Does.lets x1 ?_ (fun hx1 => ?_)
  · unfold x1
    refine Does.foldl ?_ ?_
    · intro y3 y4
      beta_reduce
      refine Does.setReg adr_TWN_PLAUS (by decide +kernel) ?_
      exact Does.refl
    · exact Does.refl
  clear_value x1
  refine Does.put (t := x1) [.causes, .twn] ?_ (by decide +kernel) ?_ ?_ ?_ ?_ ?_
  · exact hx1
  · rfl
  · rfl
  · rfl
  · rfl
  · intro p hp; cases p <;> first | exact absurd (by decide) hp | rfl

theorem State.riseOwn_does {s} : Does [.fresh] [14] s (State.riseOwn s) := by
  unfold State.riseOwn
  refine Does.ite (fun _ => ?_) (fun _ => ?_)
  · refine Does.latch adr_TWN_STAT (by decide +kernel) ?_
    exact Does.refl
  · exact Does.refl

theorem State.setTwin_does {s st} : Does [.causes, .fresh, .twn] [14] s (State.setTwin s st) := by
  unfold State.setTwin
  extract_lets -underBinder -merge -useContext x1 x2 x3
  refine Does.lets x1 ?_ (fun hx1 => ?_)
  · unfold x1
    refine Does.setFld adr_TWN_STAT (by decide +kernel) ?_
    exact Does.refl
  refine Does.lets x2 ?_ (fun hx2 => ?_)
  · unfold x2
    refine Does.ite (fun _ => ?_) (fun _ => ?_)
    · refine Does.call State.riseOwn_does (by decide +kernel) ?_
      exact hx1
    · refine Does.call State.causeOff_does (by decide +kernel) ?_
      refine Does.setBit adr_TWN_STAT (by decide +kernel) ?_
      exact hx1
  refine Does.lets x3 ?_ (fun hx3 => ?_)
  · unfold x3
    refine Does.ite (fun _ => ?_) (fun _ => ?_)
    · refine Does.call State.causeOff_does (by decide +kernel) ?_
      exact hx2
    · exact hx2
  refine Does.ite (fun _ => ?_) (fun _ => ?_)
  · refine Does.call State.clearPlaus_does (by decide +kernel) ?_
    exact hx3
  · exact hx3

theorem State.enterHoldoff_does {s} : Does [.agenda, .causes, .fresh, .out, .chans, .pins, .codes, .meas, .loops, .quants,
      .ships, .cals, .calRec, .twn] [6, 14, 15, 64] s (State.enterHoldoff s) := by
  unfold State.enterHoldoff
  refine Does.call State.seqEndAll_does (by decide +kernel) ?_
  refine Does.foldl ?_ ?_
  · intro y1 y2
    beta_reduce
    refine Does.call State.driversOff_does (by decide +kernel) ?_
    exact Does.refl
  · refine Does.call State.setTwin_does (by decide +kernel) ?_
    exact Does.refl

theorem State.peerLost_does {s} : Does [.agenda, .causes, .fresh] [14] s (State.peerLost s) := by
  unfold State.peerLost
  refine Does.call State.raise_does (by decide +kernel) ?_
  refine Does.call State.causeOn_does (by decide +kernel) ?_
  refine Does.latch adr_TWN_LAT (by decide +kernel) ?_
  exact Does.refl

theorem State.postAll_does {s set at_} : Does [.agenda, .free, .fresh] [1, 3] s (State.postAll s set at_) := by
  unfold State.postAll
  refine Does.foldl ?_ ?_
  · intro y1 y2
    beta_reduce
    refine Does.call State.postAt_does (by decide +kernel) ?_
    exact Does.refl
  · exact Does.refl

theorem State.loseStandby_does {s} : Does [.agenda, .causes, .free, .fresh, .twn] [1, 3, 14] s (State.loseStandby s) := by
  unfold State.loseStandby
  refine Does.call State.postAll_does (by decide +kernel) ?_
  refine Does.call State.peerLost_does (by decide +kernel) ?_
  refine Does.call State.setTwin_does (by decide +kernel) ?_
  exact Does.refl

theorem State.requestCol_does {s cause d} : Does [.agenda, .twn] [] s (State.requestCol s cause d) := by
  unfold State.requestCol
  extract_lets -underBinder -merge -useContext x1 x2
  refine Does.lets x1 ?_ (fun hx1 => ?_)
  · unfold x1
    refine Does.call State.hold_does (by decide +kernel) ?_
    exact Does.refl
  refine Does.put_twn (by decide +kernel) ?_
  exact hx1

theorem State.diverge_does {s k own peer} : Does [.agenda, .causes, .free, .fresh, .out, .chans, .pins, .codes, .meas,
      .loops, .quants, .ships, .cals, .calRec, .twn] [1, 3, 6, 14, 15, 64] s (State.diverge s k own peer) := by
  unfold State.diverge
  extract_lets -underBinder -merge -useContext x1 x2 x3 x4 x5 x6
  refine Does.lets x1 ?_ (fun hx1 => ?_)
  · unfold x1
    refine Does.call State.raise_does (by decide +kernel) ?_
    refine Does.setWide adr_TWN_DIVTICK (by decide +kernel) ?_
    refine Does.latch adr_TWN_LAT (by decide +kernel) ?_
    exact Does.refl
  refine Does.lets x3 ?_ (fun hx3 => ?_)
  · unfold x3
    refine Does.put_twn (by decide +kernel) ?_
    exact hx1
  refine Does.ite (fun _ => ?_) (fun _ => ?_)
  · refine Does.ite (fun _ => ?_) (fun _ => ?_)
    · refine Does.call State.requestCol_does (by decide +kernel) ?_
      exact hx3
    · exact hx3
  · refine Does.ite (fun _ => ?_) (fun _ => ?_)
    · refine Does.call State.loseStandby_does (by decide +kernel) ?_
      exact hx3
    · refine Does.call State.enterHoldoff_does (by decide +kernel) ?_
      exact hx3

theorem State.joinDone_does {s} : Does [.causes, .fresh, .twn] [14] s (State.joinDone s) := by
  unfold State.joinDone
  extract_lets -underBinder -merge -useContext x1 x2 x3
  refine Does.lets x1 ?_ (fun hx1 => ?_)
  · unfold x1
    refine Does.setFld adr_TWN_JOIN (by decide +kernel) ?_
    exact Does.refl
  refine Does.lets x3 ?_ (fun hx3 => ?_)
  · unfold x3
    refine Does.put_twn (by decide +kernel) ?_
    exact hx1
  refine Does.ite (fun _ => ?_) (fun _ => ?_)
  · refine Does.call State.setTwin_does (by decide +kernel) ?_
    exact hx3
  · refine Does.ite (fun _ => ?_) (fun _ => ?_)
    · refine Does.call State.setTwin_does (by decide +kernel) ?_
      exact hx3
    · exact hx3

theorem State.sendHello_does {s} : Does [.out, .links] [] s (State.sendHello s) := by
  unfold State.sendHello
  refine Does.call State.sendFrame_does (by decide +kernel) ?_
  exact Does.refl

theorem State.negotiate_does {s} : Does [.causes, .fresh, .out, .twn, .links] [14] s (State.negotiate s) := by
  unfold State.negotiate
  extract_lets -underBinder -merge -useContext x1 x2
  refine Does.lets x1 ?_ (fun hx1 => ?_)
  · unfold x1
    refine Does.call State.sendHello_does (by decide +kernel) ?_
    refine Does.call State.setTwin_does (by decide +kernel) ?_
    exact Does.refl
  refine Does.put_twn (by decide +kernel) ?_
  exact hx1

theorem State.joinFail_does {s} : Does [.agenda, .fresh] [14] s (State.joinFail s) := by
  unfold State.joinFail
  refine Does.call State.raise_does (by decide +kernel) ?_
  refine Does.latch adr_TWN_LAT (by decide +kernel) ?_
  exact Does.refl

theorem State.failJoin_does {s} : Does [.agenda, .causes, .free, .fresh, .out, .chans, .pins, .codes, .meas, .loops, .quants,
      .ships, .cals, .calRec, .twn] [1, 3, 6, 14, 15, 64] s (State.failJoin s) := by
  unfold State.failJoin
  extract_lets -underBinder -merge -useContext x1
  refine Does.lets x1 ?_ (fun hx1 => ?_)
  · unfold x1
    refine Does.call State.joinFail_does (by decide +kernel) ?_
    refine Does.setFld adr_TWN_JOIN (by decide +kernel) ?_
    exact Does.refl
  refine Does.ite (fun _ => ?_) (fun _ => ?_)
  · refine Does.call State.enterHoldoff_does (by decide +kernel) ?_
    exact hx1
  · refine Does.ite (fun _ => ?_) (fun _ => ?_)
    · refine Does.call State.loseStandby_does (by decide +kernel) ?_
      exact hx1
    · exact hx1

theorem State.lateItem_does {s it} : Does [.agenda, .fresh, .twn] [1] s (State.lateItem s it) := by
  unfold State.lateItem
  extract_lets -underBinder -merge -useContext x1 x2 x3 x4 x5
  refine Does.lets x5 ?_ (fun hx5 => ?_)
  · unfold x5
    refine Does.put_twn (by decide +kernel) ?_
    exact Does.refl
  refine Does.ite (fun _ => ?_) (fun _ => ?_)
  · exact hx5
  · refine Does.call State.lateInternal_does (by decide +kernel) ?_
    exact hx5

theorem State.putFerry_does {s f} : Does [.regs, .sram, .hbmMem] [] s (State.putFerry s f) := by
  unfold State.putFerry
  refine Does.ite (fun _ => ?_) (fun _ => Does.ite (fun _ => ?_) (fun _ => Does.ite (fun _ => ?_) (fun _ => Does.refl)))
  · have h : ∀ (l : List Word) (x : State × Nat), Does [.regs, .sram, .hbmMem] [] s x.1 →
        Does [.regs, .sram, .hbmMem] [] s (l.foldl (fun (x : State × Nat) w =>
          (if runState x.2 then x.1.setReg x.2 w else x.1, x.2 + 4)) x).1 := by
      intro l
      induction l with
      | nil => exact fun _ g => g
      | cons w l ih => exact fun x g => ih _ (Does.ite (fun _ => Does.setReg_any (by decide +kernel) g) (fun _ => g))
    exact h _ _ Does.refl
  · exact Does.put_sram (by decide +kernel) (fun h => Memory.wf_writeBytes _ _ _ h) Does.refl
  · exact Does.put_hbmMem (by decide +kernel) (fun h => Memory.wf_writeBytes _ _ _ h) Does.refl

theorem execTwnLeave_runs {s} : Runs [.agenda, .causes, .fresh, .out, .chans, .pins, .codes, .meas, .loops, .quants, .ships,
      .cals, .calRec, .twn] [6, 14, 15, 64] s (execTwnLeave s) := by
  unfold execTwnLeave
  refine Runs.next ?_
  refine Does.ite (fun _ => ?_) (fun _ => ?_)
  · refine Does.call State.enterHoldoff_does (by decide +kernel) ?_
    exact Does.refl
  · exact Does.refl

theorem execTwnCol_runs {by_ s} : Runs [.agenda, .fresh] [14] s (execTwnCol by_ s) := by
  unfold execTwnCol
  refine Runs.ite (fun _ => ?_) (fun _ => ?_)
  · refine Runs.next ?_
    refine Does.call State.hold_does (by decide +kernel) ?_
    exact Does.refl
  · refine Runs.next ?_
    refine Does.call (State.rejectVal_does adr_TWN_CMD) (by decide +kernel) ?_
    exact Does.refl

theorem State.handLatch_does {s n m} : Does [.agenda, .causes, .free, .fresh, .chans, .mons, .twn] [1, 3, 64] s
      (State.handLatch s n m) := by
  unfold State.handLatch
  extract_lets -underBinder -merge -useContext x1 x2 x3
  refine Does.lets x3 ?_ (fun hx3 => ?_)
  · unfold x3
    refine Does.call State.monChange_does (by decide +kernel) ?_
    exact Does.refl
  refine Does.ite (fun _ => ?_) (fun _ => ?_)
  · exact Does.refl
  · refine Does.ite (fun _ => ?_) (fun _ => ?_)
    · refine Does.call State.settleMon_does (by decide +kernel) ?_
      refine Does.call State.tripActions_does (by decide +kernel) ?_
      refine Does.call State.forceInh_does (by decide +kernel) ?_
      exact hx3
    · refine Does.call State.settleMon_does (by decide +kernel) ?_
      exact hx3

theorem State.shadowEvent_does {s n m latch uns due} : Does [.agenda, .causes, .free, .fresh, .chans, .mons] [1, 3, 64] s
      (State.shadowEvent s n m latch uns due) := by
  unfold State.shadowEvent
  extract_lets -underBinder -merge -useContext x1 x2 x3 x4 x5 x6 x7 x8
  refine Does.lets x5 ?_ (fun hx5 => ?_)
  · unfold x5
    refine Does.call State.monNote_does (by decide +kernel) ?_
    exact Does.refl
  refine Does.lets x7 ?_ (fun hx7 => ?_)
  · unfold x7
    refine Does.call State.setMon_does (by decide +kernel) ?_
    exact hx5
  refine Does.lets x8 ?_ (fun hx8 => ?_)
  · unfold x8
    refine Does.call State.settleMon_does (by decide +kernel) ?_
    exact hx7
  refine Does.ite (fun _ => ?_) (fun _ => ?_)
  · refine Does.ite (fun _ => ?_) (fun _ => ?_)
    · refine Does.call State.settleMon_does (by decide +kernel) ?_
      refine Does.call State.tripActions_does (by decide +kernel) ?_
      refine Does.call State.forceInh_does (by decide +kernel) ?_
      exact hx7
    · refine Does.ite (fun _ => ?_) (fun _ => ?_)
      · refine Does.call State.causeOff_does (by decide +kernel) ?_
        exact hx8
      · exact hx8
  · exact hx7

theorem State.colRecord_does {s cause from_} : Does [.agenda, .free, .fresh] [1, 3, 14] s (State.colRecord s cause from_) := by
  unfold State.colRecord
  extract_lets -underBinder -merge -useContext x1 x2 x3
  refine Does.lets x3 ?_ (fun hx3 => ?_)
  · unfold x3
    refine Does.call State.postAll_does (by decide +kernel) ?_
    refine Does.setWide adr_TWN_COLT (by decide +kernel) ?_
    refine Does.setReg adr_TWN_COL (by decide +kernel) ?_
    exact Does.refl
  refine Does.call State.raise_does (by decide +kernel) ?_
  refine Does.latch adr_TWN_LAT (by decide +kernel) ?_
  exact hx3

theorem Does.eachMon {ps bs s t f} (h : ∀ t n m, Does ps bs t (f t n m)) (g : Does ps bs s t) :
    Does ps bs s (State.eachMon t f) :=
  Does.foldl (fun _ _ => Does.foldl (fun _ _ => h _ _ _) Does.refl) g

theorem State.startShadow_does {s n m} : Does [.mons] [] s (State.startShadow s n m) := by
  unfold State.startShadow
  extract_lets -underBinder -merge -useContext x1
  refine Does.ite (fun _ => ?_) (fun _ => ?_)
  · refine Does.call State.setMon_does (by decide +kernel) ?_
    exact Does.refl
  · exact Does.refl

theorem State.stepDown_does {s cause} : Does [.agenda, .causes, .free, .fresh, .out, .chans, .pins, .codes, .meas, .mons,
      .loops, .quants, .ships, .cals, .calRec, .twn] [1, 3, 6, 14, 15, 64] s (State.stepDown s cause) := by
  unfold State.stepDown
  extract_lets -underBinder -merge -useContext x1
  refine Does.lets x1 ?_ (fun hx1 => ?_)
  · unfold x1
    refine Does.setReg adr_TBS_SRC (by decide +kernel) ?_
    refine Does.setReg adr_LPE_SRC (by decide +kernel) ?_
    refine Does.call State.setTwin_does (by decide +kernel) ?_
    refine Does.call State.seqEndAll_does (by decide +kernel) ?_
    exact Does.refl
  refine Does.ite (fun _ => ?_) (fun _ => ?_)
  · refine Does.call State.colRecord_does (by decide +kernel) ?_
    refine Does.eachMon ?_ ?_
    · intro y2 y3 y4
      refine Does.call State.startShadow_does (by decide +kernel) ?_
      exact Does.refl
    · exact hx1
  · refine Does.call State.colRecord_does (by decide +kernel) ?_
    refine Does.call State.enterHoldoff_does (by decide +kernel) ?_
    exact Does.refl

theorem State.colOffset_does {s ch q} : Does [.loops] [6] s (State.colOffset s ch q) := by
  unfold State.colOffset
  split
  · exact Does.refl
  · extract_lets -underBinder -merge -useContext x1 x2
    refine Does.call State.setOffset_does (by decide +kernel) ?_
    exact Does.refl

theorem State.takeOver_does {s cause} : Does [.agenda, .causes, .free, .fresh, .out, .tbs, .chans, .codes, .meas, .mons,
      .loops, .quants, .ships, .cals, .calRec, .twn] [1, 3, 6, 14, 15, 64] s (State.takeOver s cause) := by
  unfold State.takeOver
  extract_lets -underBinder -merge -useContext x1 x2 x3 x4 x5 x6 x7
  refine Does.lets x1 ?_ (fun hx1 => ?_)
  · unfold x1
    refine Does.call State.seqEndAll_does (by decide +kernel) ?_
    exact Does.refl
  refine Does.lets x2 ?_ (fun hx2 => ?_)
  · unfold x2
    refine Does.foldl ?_ ?_
    · intro y8 y9
      beta_reduce
      refine Does.call State.colOffset_does (by decide +kernel) ?_
      refine Does.call State.colOffset_does (by decide +kernel) ?_
      exact Does.refl
    · exact hx1
  refine Does.lets x3 ?_ (fun hx3 => ?_)
  · unfold x3
    refine Does.call State.setTwin_does (by decide +kernel) ?_
    refine Does.setReg adr_LPE_SRC (by decide +kernel) ?_
    exact hx2
  refine Does.lets x4 ?_ (fun hx4 => ?_)
  · unfold x4
    refine Does.ite (fun _ => ?_) (fun _ => ?_)
    · refine Does.call State.setTb_does (by decide +kernel) ?_
      refine Does.setReg adr_TBS_SRC (by decide +kernel) ?_
      exact hx3
    · refine Does.setReg adr_TBS_SRC (by decide +kernel) ?_
      exact hx3
  refine Does.lets x5 ?_ (fun hx5 => ?_)
  · unfold x5
    refine Does.call State.colRecord_does (by decide +kernel) ?_
    refine Does.eachMon ?_ ?_
    · intro y10 y11 y12
      refine Does.call State.handLatch_does (by decide +kernel) ?_
      exact Does.refl
    · exact hx4
  refine Does.lets x7 ?_ (fun hx7 => ?_)
  · unfold x7
    refine Does.put_twn (by decide +kernel) ?_
    exact hx5
  refine Does.ite (fun _ => ?_) (fun _ => ?_)
  · refine Does.call State.peerLost_does (by decide +kernel) ?_
    exact hx7
  · exact hx7

theorem execColApply_runs {cause s} : Runs [.agenda, .causes, .free, .fresh, .out, .tbs, .chans, .pins, .codes, .meas, .mons,
      .loops, .quants, .ships, .cals, .calRec, .twn] [1, 3, 6, 14, 15, 64] s (execColApply cause s) := by
  unfold execColApply
  refine Runs.ite (fun _ => ?_) (fun _ => ?_)
  · refine Runs.next ?_
    refine Does.call State.takeOver_does (by decide +kernel) ?_
    exact Does.refl
  · refine Runs.ite (fun _ => ?_) (fun _ => ?_)
    · refine Runs.next ?_
      refine Does.call State.stepDown_does (by decide +kernel) ?_
      exact Does.refl
    · refine Runs.next ?_
      exact Does.refl

theorem State.applyShipped_does {s it} : Does [.agenda, .causes, .free, .fresh, .out, .tbs, .chans, .pins, .codes, .meas,
      .mons, .loops, .quants, .ships, .acq, .cals, .calRec, .twn] [1, 3, 6, 10, 14, 15, 64] s (State.applyShipped s it) := by
  unfold State.applyShipped
  split
  · refine Does.ite (fun _ => ?_) (fun _ => ?_)
    · refine Does.call State.shippedResult_does (by decide +kernel) ?_
      exact Does.refl
    · exact Does.refl
  · refine Does.ite (fun _ => ?_) (fun _ => ?_)
    · refine Does.foldl ?_ ?_
      · intro y1 y2
        beta_reduce
        refine Does.call State.shippedResult_does (by decide +kernel) ?_
        exact Does.refl
      · exact Does.refl
    · exact Does.refl
  · refine Does.ite (fun _ => ?_) (fun _ => ?_)
    · refine Does.call State.shadowEvent_does (by decide +kernel) ?_
      exact Does.refl
    · exact Does.refl
  · extract_lets -underBinder -merge -useContext x3
    refine Does.put_twn (by decide +kernel) ?_
    exact Does.refl
  · extract_lets -underBinder -merge -useContext x4
    refine Does.call State.setSeqn_does (by decide +kernel) ?_
    exact Does.refl
  · refine Does.nextOr ?_ ?_
    · exact Does.refl
    · refine Runs.call execColApply_runs (by decide +kernel) ?_
      exact Does.refl

theorem State.compareTick_does {s k equal own peer} : Does [.agenda, .causes, .free, .fresh, .out, .chans, .pins, .codes,
      .meas, .loops, .quants, .ships, .cals, .calRec, .twn] [1, 3, 6, 14, 15, 64] s (State.compareTick s k equal own peer) := by
  unfold State.compareTick
  extract_lets -underBinder -merge -useContext x1 x2 x3
  refine Does.lets x3 ?_ (fun hx3 => ?_)
  · unfold x3
    refine Does.setWide adr_TWN_TICKS (by decide +kernel) ?_
    refine Does.setFld adr_TWN_JOIN (by decide +kernel) ?_
    refine Does.setFld adr_TWN_JOIN (by decide +kernel) ?_
    exact Does.refl
  refine Does.ite (fun _ => ?_) (fun _ => ?_)
  · refine Does.ite (fun _ => ?_) (fun _ => ?_)
    · refine Does.ite (fun _ => ?_) (fun _ => ?_)
      · refine Does.call State.joinDone_does (by decide +kernel) ?_
        exact hx3
      · exact hx3
    · refine Does.call State.failJoin_does (by decide +kernel) ?_
      exact Does.refl
  · refine Does.ite (fun _ => ?_) (fun _ => ?_)
    · exact Does.refl
    · refine Does.ite (fun _ => ?_) (fun _ => ?_)
      · refine Does.ite (fun _ => ?_) (fun _ => ?_)
        · refine Does.setWide adr_TWN_TICKS (by decide +kernel) ?_
          exact Does.refl
        · refine Does.call State.diverge_does (by decide +kernel) ?_
          exact Does.refl
      · exact Does.refl

theorem State.compareAll_does {s n} : Does [.agenda, .causes, .free, .fresh, .out, .chans, .pins, .codes, .meas, .loops,
      .quants, .ships, .cals, .calRec, .twn] [1, 3, 6, 14, 15, 64] s (State.compareAll s n) := by
  induction n generalizing s with
  | zero => exact Does.refl
  | succ n ih =>
    unfold State.compareAll
    split
    · exact Does.refl
    · split
      · exact Does.refl
      · exact ih.after (Does.call State.compareTick_does (by decide +kernel) (Does.put_twn (by decide +kernel) Does.refl))

theorem execDigest_runs {tick dig blame s} : Runs [.agenda, .causes, .free, .fresh, .out, .chans, .pins, .codes, .meas,
      .loops, .quants, .ships, .cals, .calRec, .twn] [1, 3, 6, 14, 15, 64] s (execDigest tick dig blame s) := by
  unfold execDigest
  extract_lets -underBinder -merge -useContext x1 x2 x3
  refine Runs.lets x1 ?_ (fun hx1 => ?_)
  · unfold x1
    refine Does.call State.peerHeard_does (by decide +kernel) ?_
    exact Does.refl
  refine Runs.lets x3 ?_ (fun hx3 => ?_)
  · unfold x3
    refine Does.put_twn (by decide +kernel) ?_
    exact hx1
  refine Runs.ite (fun _ => ?_) (fun _ => ?_)
  · refine Runs.next ?_
    refine Does.call State.compareAll_does (by decide +kernel) ?_
    exact hx3
  · refine Runs.next ?_
    refine Does.call State.peerHeard_does (by decide +kernel) ?_
    exact Does.refl

theorem execFerry_runs {f s} : Runs [.regs, .agenda, .fresh, .sram, .hbmMem, .twn] [] s (execFerry f s) := by
  unfold execFerry
  extract_lets -underBinder -merge -useContext x1
  refine Runs.lets x1 ?_ (fun hx1 => ?_)
  · unfold x1
    refine Does.call State.peerHeard_does (by decide +kernel) ?_
    exact Does.refl
  refine Runs.ite (fun _ => ?_) (fun _ => ?_)
  · refine Runs.next ?_
    refine Does.call State.peerHeard_does (by decide +kernel) ?_
    exact Does.refl
  · split
    · refine Runs.next ?_
      refine Does.call State.putFerry_does (by decide +kernel) ?_
      exact hx1
    · extract_lets -underBinder -merge -useContext x2
      refine Runs.ite (fun _ => ?_) (fun _ => ?_)
      · refine Runs.next ?_
        exact hx1
      · refine Runs.ite (fun _ => ?_) (fun _ => ?_)
        · refine Runs.next ?_
          refine Does.call State.hold_does (by decide +kernel) ?_
          exact hx1
        · refine Runs.next ?_
          refine Does.call State.lateInternal_does (by decide +kernel) ?_
          exact hx1

theorem execKeep_runs {s} : Runs [.out, .links] [] s (execKeep s) := by
  unfold execKeep
  refine Runs.next ?_
  refine Does.ite (fun _ => ?_) (fun _ => ?_)
  · refine Does.call State.sentOn_does (by decide +kernel) ?_
    refine Does.call State.emit_does (by decide +kernel) ?_
    exact Does.refl
  · exact Does.refl

theorem execPresNHigh_runs {s} : Runs [.agenda, .causes, .free, .fresh, .out, .chans, .pins, .codes, .meas, .loops, .quants,
      .ships, .cals, .calRec, .twn] [1, 3, 6, 14, 15, 64] s (execPresNHigh s) := by
  unfold execPresNHigh
  extract_lets -underBinder -merge -useContext x1
  refine Runs.lets x1 ?_ (fun hx1 => ?_)
  · unfold x1
    refine Does.setBit adr_TWN_STAT (by decide +kernel) ?_
    exact Does.refl
  refine Runs.ite (fun _ => ?_) (fun _ => ?_)
  · refine Runs.next ?_
    refine Does.call State.loseStandby_does (by decide +kernel) ?_
    exact hx1
  · refine Runs.ite (fun _ => ?_) (fun _ => ?_)
    · refine Runs.next ?_
      refine Does.call State.failJoin_does (by decide +kernel) ?_
      exact hx1
    · refine Runs.next ?_
      exact hx1

theorem execFwd_runs {p addr due data s} : Runs [.regs, .staging, .agenda, .free, .fresh, .sched, .twn] [] s (execFwd p addr
      due data s) := by
  unfold execFwd
  extract_lets -underBinder -merge -useContext x1 x2 x3
  refine Runs.lets x1 ?_ (fun hx1 => ?_)
  · unfold x1
    refine Does.call State.peerHeard_does (by decide +kernel) ?_
    exact Does.refl
  refine Runs.ite (fun _ => ?_) (fun _ => ?_)
  · refine Runs.next ?_
    refine Does.call State.peerHeard_does (by decide +kernel) ?_
    exact Does.refl
  · refine Runs.ite (fun _ => ?_) (fun _ => ?_)
    · refine Runs.next ?_
      refine Does3.snd ?_
      refine Does3.call State.writeWords_does (by decide +kernel) ?_
      exact hx1
    · refine Runs.ite (fun _ => ?_) (fun _ => ?_)
      · refine Runs.ite (fun _ => ?_) (fun _ => ?_)
        · refine Runs.next ?_
          refine Does.call State.hold_does (by decide +kernel) ?_
          refine Does.call State.crossed_does (by decide +kernel) ?_
          exact hx1
        · refine Runs.next ?_
          refine Does.call State.late_does (by decide +kernel) ?_
          refine Does.call State.refuse_does (by decide +kernel) ?_
          exact hx1
      · refine Runs.next ?_
        refine Does.call State.refuse_does (by decide +kernel) ?_
        exact hx1

theorem State.startCopy_does {s} : Does [.twn] [14] s (State.startCopy s) := by
  unfold State.startCopy
  extract_lets -underBinder -merge -useContext x1 x2
  refine Does.lets x1 ?_ (fun hx1 => ?_)
  · unfold x1
    refine Does.setReg adr_TWN_JOIN (by decide +kernel) ?_
    exact Does.refl
  refine Does.put_twn (by decide +kernel) ?_
  exact hx1

theorem execPeerFrameTimeout_runs {s} : Runs [.agenda, .causes, .free, .fresh, .out, .chans, .pins, .codes, .meas, .loops,
      .quants, .ships, .cals, .calRec, .twn] [1, 3, 6, 14, 15, 64] s (execPeerFrameTimeout s) := by
  unfold execPeerFrameTimeout
  extract_lets -underBinder -merge -useContext x1
  refine Runs.lets x1 ?_ (fun hx1 => ?_)
  · unfold x1
    refine Does.setBit adr_TWN_STAT (by decide +kernel) ?_
    exact Does.refl
  refine Runs.ite (fun _ => ?_) (fun _ => ?_)
  · refine Runs.next ?_
    exact Does.refl
  · refine Runs.ite (fun _ => ?_) (fun _ => ?_)
    · refine Runs.ite (fun _ => ?_) (fun _ => ?_)
      · refine Runs.next ?_
        refine Does.call State.enterHoldoff_does (by decide +kernel) ?_
        exact hx1
      · refine Runs.ite (fun _ => ?_) (fun _ => ?_)
        · refine Runs.next ?_
          exact hx1
        · refine Runs.next ?_
          refine Does.call State.hold_does (by decide +kernel) ?_
          exact hx1
    · refine Runs.ite (fun _ => ?_) (fun _ => ?_)
      · refine Runs.next ?_
        refine Does.call State.loseStandby_does (by decide +kernel) ?_
        exact hx1
      · refine Runs.ite (fun _ => ?_) (fun _ => ?_)
        · refine Runs.next ?_
          refine Does.call State.failJoin_does (by decide +kernel) ?_
          exact hx1
        · refine Runs.next ?_
          exact hx1

theorem State.enterJoining_does {s} : Does [.agenda, .causes, .fresh, .out, .codes, .meas, .loops, .quants, .ships, .cals,
      .calRec, .twn, .links] [1, 6, 14, 15, 64] s (State.enterJoining s) := by
  unfold State.enterJoining
  extract_lets -underBinder -merge -useContext x1
  refine Does.lets x1 ?_ (fun hx1 => ?_)
  · unfold x1
    refine Does.setReg adr_TBS_SRC (by decide +kernel) ?_
    refine Does.setReg adr_LPE_SRC (by decide +kernel) ?_
    refine Does.call State.setTwin_does (by decide +kernel) ?_
    exact Does.refl
  refine Does.call State.sendHello_does (by decide +kernel) ?_
  refine Does.call State.seqEndAll_does (by decide +kernel) ?_
  refine Does.call State.startCopy_does (by decide +kernel) ?_
  exact hx1

theorem State.enterSolo_does {s} : Does [.causes, .fresh, .twn] [1, 6, 14] s (State.enterSolo s) := by
  unfold State.enterSolo
  extract_lets -underBinder -merge -useContext x1
  refine Does.setReg adr_TBS_SRC (by decide +kernel) ?_
  refine Does.setReg adr_LPE_SRC (by decide +kernel) ?_
  refine Does.call State.setTwin_does (by decide +kernel) ?_
  exact Does.refl

theorem State.startJoin_does {s} : Does [.agenda, .fresh, .twn] [14] s (State.startJoin s) := by
  unfold State.startJoin
  refine Does.ite (fun _ => ?_) (fun _ => ?_)
  · refine Does.call State.joinFail_does (by decide +kernel) ?_
    refine Does.setFld adr_TWN_JOIN (by decide +kernel) ?_
    exact Does.refl
  · refine Does.call State.startCopy_does (by decide +kernel) ?_
    exact Does.refl

theorem execHello_runs {f s} : Runs [.agenda, .causes, .fresh, .out, .codes, .meas, .loops, .quants, .ships, .cals, .calRec,
      .twn, .links] [1, 6, 14, 15, 64] s (execHello f s) := by
  unfold execHello
  extract_lets -underBinder -merge -useContext x1 x2 x3 x4 x5 x6
  refine Runs.lets x2 ?_ (fun hx2 => ?_)
  · unfold x2
    refine Does.latch adr_TWN_STAT (by decide +kernel) ?_
    refine Does.call State.peerHeard_does (by decide +kernel) ?_
    refine Does.setFld adr_TWN_STAT (by decide +kernel) ?_
    exact Does.refl
  refine Runs.lets x3 ?_ (fun hx3 => ?_)
  · unfold x3
    refine Does.ite (fun _ => ?_) (fun _ => ?_)
    · refine Does.latch adr_TWN_STAT (by decide +kernel) ?_
      exact hx2
    · exact hx2
  refine Runs.lets x6 ?_ (fun hx6 => ?_)
  · unfold x6
    refine Does.ite (fun _ => ?_) (fun _ => ?_)
    · refine Does.call State.sendHello_does (by decide +kernel) ?_
      exact hx3
    · exact hx3
  refine Runs.ite (fun _ => ?_) (fun _ => ?_)
  · refine Runs.ite (fun _ => ?_) (fun _ => ?_)
    · refine Runs.next ?_
      refine Does.call State.joinFail_does (by decide +kernel) ?_
      refine Does.call State.setTwin_does (by decide +kernel) ?_
      exact hx3
    · refine Runs.ite (fun _ => ?_) (fun _ => ?_)
      · refine Runs.next ?_
        refine Does.call State.enterJoining_does (by decide +kernel) ?_
        exact hx3
      · refine Runs.ite (fun _ => ?_) (fun _ => ?_)
        · refine Runs.next ?_
          refine Does.call State.enterSolo_does (by decide +kernel) ?_
          exact hx3
        · refine Runs.next ?_
          refine Does.call State.enterJoining_does (by decide +kernel) ?_
          exact hx3
  · refine Runs.ite (fun _ => ?_) (fun _ => ?_)
    · refine Runs.ite (fun _ => ?_) (fun _ => ?_)
      · refine Runs.next ?_
        refine Does.call State.startJoin_does (by decide +kernel) ?_
        exact hx6
      · refine Runs.next ?_
        exact hx6
    · refine Runs.next ?_
      exact hx3

theorem State.judgeMissed_does {s} : Does [.agenda, .fresh, .twn] [1] s (State.judgeMissed s) := by
  unfold State.judgeMissed
  extract_lets -underBinder -merge -useContext x1
  refine Does.foldl ?_ ?_
  · intro y2 y3
    beta_reduce
    refine Does.call State.lateInternal_does (by decide +kernel) ?_
    exact Does.refl
  · refine Does.put_twn (by decide +kernel) ?_
    exact Does.refl

theorem execShip_runs {items corrected lost s} : Runs [.agenda, .fresh, .twn] [1, 13, 14] s (execShip items corrected lost s) := by
  unfold execShip
  extract_lets -underBinder -merge -useContext x1 x2
  refine Runs.lets x1 ?_ (fun hx1 => ?_)
  · unfold x1
    refine Does.call State.peerHeard_does (by decide +kernel) ?_
    refine Does.ite (fun _ => ?_) (fun _ => ?_)
    · refine Does.bump adr_LC_CORR (by decide +kernel) ?_
      exact Does.refl
    · exact Does.refl
  refine Runs.lets x2 ?_ (fun hx2 => ?_)
  · unfold x2
    refine Does.ite (fun _ => ?_) (fun _ => ?_)
    · refine Does.latch adr_TWN_STAT (by decide +kernel) ?_
      exact hx1
    · exact hx1
  refine Runs.ite (fun _ => ?_) (fun _ => ?_)
  · refine Runs.next ?_
    refine Does.call State.raise_does (by decide +kernel) ?_
    refine Does.latch adr_LNK_LAT (by decide +kernel) ?_
    refine Does.bump adr_LC_LOST (by decide +kernel) ?_
    exact Does.refl
  · refine Runs.next ?_
    refine Does.call State.judgeMissed_does (by decide +kernel) ?_
    refine Does.foldl ?_ ?_
    · intro y3 y4
      beta_reduce
      refine Does.ite (fun _ => ?_) (fun _ => ?_)
      · exact Does.refl
      · refine Does.ite (fun _ => ?_) (fun _ => ?_)
        · refine Does.call State.hold_does (by decide +kernel) ?_
          exact Does.refl
        · refine Does.call State.lateItem_does (by decide +kernel) ?_
          exact Does.refl
    · exact hx2

theorem execTwnJoin_runs {s} : Runs [.agenda, .causes, .fresh, .out, .codes, .meas, .loops, .quants, .ships, .cals, .calRec,
      .twn, .links] [1, 6, 14, 15, 64] s (execTwnJoin s) := by
  unfold execTwnJoin
  extract_lets -underBinder -merge -useContext x1 x2
  refine Runs.ite (fun _ => ?_) (fun _ => ?_)
  · refine Runs.next ?_
    refine Does.call State.enterJoining_does (by decide +kernel) ?_
    exact Does.refl
  · refine Runs.ite (fun _ => ?_) (fun _ => ?_)
    · refine Runs.next ?_
      refine Does.put_twn (by decide +kernel) ?_
      exact Does.refl
    · refine Runs.ite (fun _ => ?_) (fun _ => ?_)
      · refine Runs.next ?_
        refine Does.ite (fun _ => ?_) (fun _ => ?_)
        · refine Does.call State.startJoin_does (by decide +kernel) ?_
          exact Does.refl
        · refine Does.put_twn (by decide +kernel) ?_
          exact Does.refl
      · refine Runs.next ?_
        exact Does.refl

theorem execNegotiateTimeout_runs {s} : Runs [.agenda, .causes, .fresh, .twn] [1, 6, 14] s (execNegotiateTimeout s) := by
  unfold execNegotiateTimeout
  refine Runs.ite (fun _ => ?_) (fun _ => ?_)
  · refine Runs.next ?_
    exact Does.refl
  · refine Runs.ite (fun _ => ?_) (fun _ => ?_)
    · refine Runs.next ?_
      refine Does.call State.joinFail_does (by decide +kernel) ?_
      refine Does.call State.setTwin_does (by decide +kernel) ?_
      exact Does.refl
    · refine Runs.next ?_
      refine Does.call State.enterSolo_does (by decide +kernel) ?_
      exact Does.refl

theorem execDigestSend_runs {s} : Runs [.agenda, .causes, .free, .fresh, .out, .hbmMem, .chans, .pins, .codes, .meas, .loops,
      .quants, .ships, .acq, .hbm, .cals, .calRec, .twn, .links] [1, 3, 6, 10, 12, 14, 15, 64] s (execDigestSend s) := by
  unfold execDigestSend
  extract_lets -underBinder -merge -useContext x1 x2 x3 x4 x5 x6 x7 x8 x9 x10 x11
  refine Runs.lets x5 ?_ (fun hx5 => ?_)
  · unfold x5
    refine Does.call State.releaseTo_does (by decide +kernel) ?_
    refine Does.call State.mark_does (by decide +kernel) ?_
    exact Does.refl
  refine Runs.lets x10 ?_ (fun hx10 => ?_)
  · unfold x10
    refine Does.put_twn (by decide +kernel) ?_
    exact hx5
  refine Runs.lets x11 ?_ (fun hx11 => ?_)
  · unfold x11
    refine Does.call State.sendFrame_does (by decide +kernel) ?_
    exact hx10
  refine Runs.ite (fun _ => ?_) (fun _ => ?_)
  · refine Runs.next ?_
    exact Does.refl
  · refine Runs.ite (fun _ => ?_) (fun _ => ?_)
    · refine Runs.next ?_
      exact Does.refl
    · refine Runs.next ?_
      refine Does.call State.compareAll_does (by decide +kernel) ?_
      exact hx11

theorem execPeerOwnLow_runs {s} : Runs [.agenda, .causes, .fresh] [14] s (execPeerOwnLow s) := by
  unfold execPeerOwnLow
  extract_lets -underBinder -merge -useContext x1
  refine Runs.lets x1 ?_ (fun hx1 => ?_)
  · unfold x1
    refine Does.call State.causeOff_does (by decide +kernel) ?_
    refine Does.setBit adr_TWN_STAT (by decide +kernel) ?_
    exact Does.refl
  refine Runs.ite (fun _ => ?_) (fun _ => ?_)
  · refine Runs.next ?_
    refine Does.call State.hold_does (by decide +kernel) ?_
    exact hx1
  · refine Runs.next ?_
    refine Does.call State.riseOwn_does (by decide +kernel) ?_
    exact hx1

theorem execPlausColTimeout_runs {s} : Runs [.agenda, .twn] [] s (execPlausColTimeout s) := by
  unfold execPlausColTimeout
  refine Runs.next ?_
  refine Does.ite (fun _ => ?_) (fun _ => ?_)
  · refine Does.call State.requestCol_does (by decide +kernel) ?_
    exact Does.refl
  · exact Does.refl

theorem execJoinCopyDone_runs {s} : Runs [.twn] [14] s (execJoinCopyDone s) := by
  unfold execJoinCopyDone
  extract_lets -underBinder -merge -useContext x1 x2 x3
  refine Runs.lets x2 ?_ (fun hx2 => ?_)
  · unfold x2
    refine Does.setReg adr_TWN_JOIN (by decide +kernel) ?_
    exact Does.refl
  refine Runs.ite (fun _ => ?_) (fun _ => ?_)
  · refine Runs.next ?_
    refine Does.put_twn (by decide +kernel) ?_
    exact hx2
  · refine Runs.next ?_
    exact Does.refl

theorem execOwnConflict_runs {s} : Runs [.agenda, .causes, .fresh, .out, .chans, .pins, .codes, .meas, .loops, .quants,
      .ships, .cals, .calRec, .twn] [6, 14, 15, 64] s (execOwnConflict s) := by
  unfold execOwnConflict
  extract_lets -underBinder -merge -useContext x1 x2
  refine Runs.lets x1 ?_ (fun hx1 => ?_)
  · unfold x1
    refine Does.latch adr_TWN_STAT (by decide +kernel) ?_
    exact Does.refl
  refine Runs.lets x2 ?_ (fun hx2 => ?_)
  · unfold x2
    refine Does.call State.raise_does (by decide +kernel) ?_
    refine Does.call State.causeOn_does (by decide +kernel) ?_
    refine Does.latch adr_TWN_LAT (by decide +kernel) ?_
    exact hx1
  refine Runs.ite (fun _ => ?_) (fun _ => ?_)
  · refine Runs.next ?_
    refine Does.ite (fun _ => ?_) (fun _ => ?_)
    · refine Does.call State.enterHoldoff_does (by decide +kernel) ?_
      exact hx2
    · exact hx2
  · refine Runs.next ?_
    exact hx1

end Sys2Proof.Machine
end

