-- ==== Sys2Proof/Laws/Security.lean ====
section
/-! SUPPORT. What each operation of Machine/Security.lean may change (Laws/Frame.lean says how to read it). -/
namespace Sys2Proof.Machine

set_option Elab.async false

theorem State.secReply_does {s p msg status body} : Does [.out, .links] [] s (State.secReply s p msg status body) := by
  unfold State.secReply
  refine Does.foldl ?_ ?_
  · intro y1 y2
    beta_reduce
    refine Does.call State.sendFrame_does (by decide +kernel) ?_
    exact Does.refl
  · exact Does.refl

theorem Does.service {ps bs s t p msg roles f} (w : within [.out, .links] [] ps bs = true)
    (h : ∀ t, Does ps bs t (f t)) (g : Does ps bs s t) : Does ps bs s (State.service t p msg roles f) := by
  unfold State.service
  have k : ∀ {u st bd}, Does [.out, .links] [] u (State.secReply u p msg st bd) :=
    fun {_ _ _} => State.secReply_does.mono (by decide +kernel)
  exact Does.ite (fun _ => k.call w g) (fun _ => Does.ite (fun _ => k.call w g) (fun _ => (h t).after g))

theorem State.reserve_does {s} : Does [.sec] [18] s (State.reserve s) := by
  unfold State.reserve
  extract_lets -underBinder -merge -useContext x1 x2 x3 x4
  refine Does.lets x3 ?_ (fun hx3 => ?_)
  · unfold x3
    refine Does.ite (fun _ => ?_) (fun _ => ?_)
    · refine Does.setBit adr_SEC_HSSE (by decide +kernel) ?_
      refine Does.setFld adr_SEC_HSSE (by decide +kernel) ?_
      exact Does.refl
    · exact Does.refl
  refine Does.ite (fun _ => ?_) (fun _ => ?_)
  · refine Does.put_sec (by decide +kernel) ?_
    exact hx3
  · exact Does.refl

theorem State.setKeySlot_does {s n k} : Does [.sec] [18] s (State.setKeySlot s n k) := by
  unfold State.setKeySlot
  extract_lets -underBinder -merge -useContext x1 x2 x3
  refine Does.lets x2 ?_ (fun hx2 => ?_)
  · unfold x2
    refine Does.setFld adr_SEC_SLOTS (by decide +kernel) ?_
    exact Does.refl
  refine Does.put_sec (by decide +kernel) ?_
  exact hx2

theorem execEnroll_runs {p slot usage keys s} : Runs [.out, .links, .sec] [18] s (execEnroll p slot usage keys s) := by
  unfold execEnroll
  refine Runs.next ?_
  refine Does.service (by decide +kernel) ?_ ?_
  · intro y1
    beta_reduce
    refine Does.ite (fun _ => ?_) (fun _ => ?_)
    · refine Does.call State.secReply_does (by decide +kernel) ?_
      exact Does.refl
    · refine Does.ite (fun _ => ?_) (fun _ => ?_)
      · refine Does.call State.secReply_does (by decide +kernel) ?_
        exact Does.refl
      · refine Does.call State.secReply_does (by decide +kernel) ?_
        refine Does.call State.setKeySlot_does (by decide +kernel) ?_
        exact Does.refl
  · exact Does.refl

theorem State.openSession_does {s p role intOnly keys} : Does [.links, .sec, .mgt] [13, 16, 18] s (State.openSession s p role
      intOnly keys) := by
  unfold State.openSession
  extract_lets -underBinder -merge -useContext x1 x2 x3 x4 x5
  refine Does.lets x2 ?_ (fun hx2 => ?_)
  · unfold x2
    refine Does.setReg adr_SEC_SESS (by decide +kernel) ?_
    refine Does.setReg adr_LP_STAT (by decide +kernel) ?_
    exact Does.refl
  refine Does.lets x4 ?_ (fun hx4 => ?_)
  · unfold x4
    refine Does.call State.setLink_does (by decide +kernel) ?_
    exact hx2
  refine Does.call State.log_does (by decide +kernel) ?_
  refine Does.put_sec (by decide +kernel) ?_
  exact hx4

theorem State.dropProof_does {s p} : Does [.sec] [] s (State.dropProof s p) := by
  unfold State.dropProof
  extract_lets -underBinder -merge -useContext x1
  refine Does.put_sec (by decide +kernel) ?_
  exact Does.refl

theorem State.setExchange_does {s p x} : Does [.sec] [] s (State.setExchange s p x) := by
  unfold State.setExchange
  extract_lets -underBinder -merge -useContext x1
  refine Does.put_sec (by decide +kernel) ?_
  exact Does.refl

theorem State.failExchange_does {s p} : Does [.sec] [18] s (State.failExchange s p) := by
  unfold State.failExchange
  extract_lets -underBinder -merge -useContext x1 x2 x3 x4 x5 x6
  refine Does.lets x2 ?_ (fun hx2 => ?_)
  · unfold x2
    refine Does.setFld adr_SEC_SESS (by decide +kernel) ?_
    refine Does.call State.dropProof_does (by decide +kernel) ?_
    refine Does.call State.setExchange_does (by decide +kernel) ?_
    exact Does.refl
  refine Does.lets x4 ?_ (fun hx4 => ?_)
  · unfold x4
    refine Does.setFld adr_SEC_SESS (by decide +kernel) ?_
    exact hx2
  refine Does.ite (fun _ => ?_) (fun _ => ?_)
  · refine Does.put_sec (by decide +kernel) ?_
    exact hx4
  · refine Does.put_sec (by decide +kernel) ?_
    exact hx2

theorem State.takeProof_runs {p cred sig s} : Runs [.out, .links, .sec, .mgt] [13, 16, 18] s (s.takeProof p cred sig) := by
  unfold State.takeProof
  split
  · refine Runs.next ?_
    refine Does.call State.secReply_does (by decide +kernel) ?_
    exact Does.refl
  · extract_lets -underBinder -merge -useContext x1 x2 x3 x4 x5
    refine Runs.lets x3 ?_ (fun hx3 => ?_)
    · unfold x3
      refine Does.call State.secReply_does (by decide +kernel) ?_
      refine Does.call State.setExchange_does (by decide +kernel) ?_
      exact Does.refl
    refine Runs.lets x4 ?_ (fun hx4 => ?_)
    · unfold x4
      refine Does.call State.openSession_does (by decide +kernel) ?_
      exact hx3
    refine Runs.ite (fun _ => ?_) (fun _ => ?_)
    · refine Runs.next ?_
      refine Does.put_sec (by decide +kernel) ?_
      exact hx4
    · refine Runs.next ?_
      refine Does.call State.secReply_does (by decide +kernel) ?_
      refine Does.call State.failExchange_does (by decide +kernel) ?_
      exact Does.refl

theorem State.showSealq_does {s} : Does [] [18] s (State.showSealq s) := by
  unfold State.showSealq
  refine Does.setReg adr_SEC_SEALQ (by decide +kernel) ?_
  exact Does.refl

theorem State.popSig_does {s} : Does [.sec] [] s (State.popSig s) := by
  unfold State.popSig
  extract_lets -underBinder -merge -useContext x1
  refine Does.put_sec (by decide +kernel) ?_
  exact Does.refl

theorem execAttest_runs {p nonce s} : Runs [.out, .links, .sec] [] s (execAttest p nonce s) := by
  unfold execAttest
  refine Runs.next ?_
  refine Does.service (by decide +kernel) ?_ ?_
  · intro y1
    beta_reduce
    refine Does.ite (fun _ => ?_) (fun _ => ?_)
    · refine Does.call State.secReply_does (by decide +kernel) ?_
      exact Does.refl
    · refine Does.call State.askSig_does (by decide +kernel) ?_
      exact Does.refl
  · exact Does.refl

theorem State.selftestOutcome_does {s pass} : Does [.agenda, .causes, .fresh] [18] s (State.selftestOutcome s pass) := by
  unfold State.selftestOutcome
  refine Does.ite (fun _ => ?_) (fun _ => ?_)
  · refine Does.call State.causeOff_does (by decide +kernel) ?_
    refine Does.setFld adr_SEC_STAT (by decide +kernel) ?_
    exact Does.refl
  · refine Does.call State.raise_does (by decide +kernel) ?_
    refine Does.call State.causeOn_does (by decide +kernel) ?_
    refine Does.latch adr_SEC_LAT (by decide +kernel) ?_
    refine Does.setFld adr_SEC_STAT (by decide +kernel) ?_
    exact Does.refl

theorem execProof_runs {p cred credTrailer ecdsa hss s} :
    Runs [.out, .links, .sec, .mgt] [13, 16, 18] s (execProof p cred credTrailer ecdsa hss s) := State.takeProof_runs

theorem execSessionTimeout_runs {p s} : Runs [.out, .links, .sec] [18] s (execSessionTimeout p s) := by
  unfold execSessionTimeout
  split
  · refine Runs.next ?_
    refine Does.ite (fun _ => ?_) (fun _ => ?_)
    · refine Does.call State.secReply_does (by decide +kernel) ?_
      refine Does.call State.failExchange_does (by decide +kernel) ?_
      exact Does.refl
    · exact Does.refl
  · refine Runs.next ?_
    exact Does.refl

theorem State.showHss_does {s} : Does [.agenda, .causes, .fresh] [18] s (State.showHss s) := by
  unfold State.showHss
  extract_lets -underBinder -merge -useContext x1 x2
  refine Does.lets x2 ?_ (fun hx2 => ?_)
  · unfold x2
    refine Does.setWide adr_SEC_HSS (by decide +kernel) ?_
    exact Does.refl
  refine Does.ite (fun _ => ?_) (fun _ => ?_)
  · refine Does.ite (fun _ => ?_) (fun _ => ?_)
    · exact hx2
    · refine Does.call State.raise_does (by decide +kernel) ?_
      refine Does.call State.causeOn_does (by decide +kernel) ?_
      refine Does.latch adr_SEC_LAT (by decide +kernel) ?_
      exact hx2
  · exact hx2

theorem State.signMsg_does {s msg} : Does2 [.agenda, .causes, .fresh, .sec] [18] s (State.signMsg s msg) := by
  unfold State.signMsg
  extract_lets -underBinder -merge -useContext x1 x2 x3 x4 x5
  refine Does2.lets x1 ?_ (fun hx1 => ?_)
  · unfold x1
    refine Does.call State.reserve_does (by decide +kernel) ?_
    exact Does.refl
  refine Does2.lets x4 ?_ (fun hx4 => ?_)
  · unfold x4
    refine Does.call State.showHss_does (by decide +kernel) ?_
    refine Does.put_sec (by decide +kernel) ?_
    exact hx1
  refine Does2.lets x5 ?_ (fun hx5 => ?_)
  · unfold x5
    refine Does.ite (fun _ => ?_) (fun _ => ?_)
    · refine Does.ite (fun _ => ?_) (fun _ => ?_)
      · refine Does.setBit adr_SEC_HSSE (by decide +kernel) ?_
        exact hx4
      · refine Does.latch adr_SEC_STAT (by decide +kernel) ?_
        exact hx4
    · exact hx4
  refine Does2.pair ?_
  exact hx5

theorem State.serveSig_does {s z1} : Does [.agenda, .causes, .fresh, .out, .acq, .calRec, .links, .sec] [18] s
      (State.serveSig s z1) := by
  unfold State.serveSig
  split
  · split
    · exact Does.refl
    · extract_lets -underBinder -merge -useContext x1 x2 x3
      refine Does.lets2 x1 ?_ (fun hx1 => ?_)
      · unfold x1
        refine Does2.call State.signMsg_does (by decide +kernel) ?_
        exact Does.refl
      refine Does.lets x2 ?_ (fun hx2 => ?_)
      · unfold x2
        refine Does2.snd ?_
        exact hx1
      refine Does.call State.showSealq_does (by decide +kernel) ?_
      refine Does.put_acq (by decide +kernel) ?_
      exact hx2
  · extract_lets -underBinder -merge -useContext x4 x5 x6
    refine Does.lets2 x4 ?_ (fun hx4 => ?_)
    · unfold x4
      refine Does2.call State.signMsg_does (by decide +kernel) ?_
      exact Does.refl
    refine Does.lets x5 ?_ (fun hx5 => ?_)
    · unfold x5
      refine Does2.snd ?_
      exact hx4
    refine Does.put_calRec (by decide +kernel) ?_
    exact hx5
  · split
    · exact Does.refl
    · extract_lets -underBinder -merge -useContext x7
      refine Does.lets2 x7 ?_ (fun hx7 => ?_)
      · unfold x7
        refine Does2.call State.signMsg_does (by decide +kernel) ?_
        exact Does.refl
      refine Does.call State.secReply_does (by decide +kernel) ?_
      refine Does.call State.setExchange_does (by decide +kernel) ?_
      refine Does2.snd ?_
      exact hx7
  · extract_lets -underBinder -merge -useContext x8
    refine Does.lets2 x8 ?_ (fun hx8 => ?_)
    · unfold x8
      refine Does2.call State.signMsg_does (by decide +kernel) ?_
      exact Does.refl
    refine Does.call State.secReply_does (by decide +kernel) ?_
    refine Does2.snd ?_
    exact hx8

theorem State.exhaustSig_does {s z1} : Does [.out, .links, .sec] [18] s (State.exhaustSig s z1) := by
  unfold State.exhaustSig
  split
  · refine Does.call State.secReply_does (by decide +kernel) ?_
    refine Does.call State.failExchange_does (by decide +kernel) ?_
    exact Does.refl
  · refine Does.call State.secReply_does (by decide +kernel) ?_
    exact Does.refl
  · exact Does.refl

theorem execSealsig_runs {p sealno s} : Runs [.out, .links] [] s (execSealsig p sealno s) := by
  unfold execSealsig
  refine Runs.next ?_
  refine Does.service (by decide +kernel) ?_ ?_
  · intro y1
    beta_reduce
    split
    · refine Does.call State.secReply_does (by decide +kernel) ?_
      exact Does.refl
    · refine Does.call State.secReply_does (by decide +kernel) ?_
      exact Does.refl
    · refine Does.call State.secReply_does (by decide +kernel) ?_
      exact Does.refl
  · exact Does.refl

theorem execPortAccess_runs {s} : Runs [.agenda, .fresh] [18] s (execPortAccess s) := by
  unfold execPortAccess
  refine Runs.ite (fun _ => ?_) (fun _ => ?_)
  · refine Runs.next ?_
    refine Does.call State.raise_does (by decide +kernel) ?_
    refine Does.latch adr_SEC_LAT (by decide +kernel) ?_
    exact Does.refl
  · refine Runs.next ?_
    exact Does.refl

theorem execSpillEraseDone_runs {s} : Runs [.spill] [18] s (execSpillEraseDone s) := by
  unfold execSpillEraseDone
  refine Runs.next ?_
  refine Does.ite (fun _ => ?_) (fun _ => ?_)
  · refine Does.setBit adr_SEC_STAT (by decide +kernel) ?_
    refine Does.put_spill (by decide +kernel) (fun h => rfl) ?_
    exact Does.refl
  · exact Does.refl

theorem State.endSession_does {s p cause} : Does [.sec, .mgt] [13, 16, 18] s (State.endSession s p cause) := by
  unfold State.endSession
  extract_lets -underBinder -merge -useContext x1 x2 x3
  refine Does.lets x2 ?_ (fun hx2 => ?_)
  · unfold x2
    refine Does.setReg adr_SEC_SESS (by decide +kernel) ?_
    refine Does.setReg adr_LP_STAT (by decide +kernel) ?_
    exact Does.refl
  refine Does.ite (fun _ => ?_) (fun _ => ?_)
  · refine Does.call State.log_does (by decide +kernel) ?_
    refine Does.put_sec (by decide +kernel) ?_
    exact hx2
  · exact Does.refl

theorem execClose_runs {p s} : Runs [.out, .links, .sec, .mgt] [13, 16, 18] s (execClose p s) := by
  unfold execClose
  refine Runs.next ?_
  refine Does.ite (fun _ => ?_) (fun _ => ?_)
  · refine Does.call State.endSession_does (by decide +kernel) ?_
    refine Does.call State.secReply_does (by decide +kernel) ?_
    exact Does.refl
  · refine Does.call State.secReply_does (by decide +kernel) ?_
    exact Does.refl

theorem execMode_runs {p s} : Runs [.out, .links, .sec] [] s (execMode p s) := by
  unfold execMode
  refine Runs.next ?_
  refine Does.service (by decide +kernel) ?_ ?_
  · intro y1
    beta_reduce
    extract_lets -underBinder -merge -useContext x2
    refine Does.call State.secReply_does (by decide +kernel) ?_
    refine Does.put_sec (by decide +kernel) ?_
    exact Does.refl
  · exact Does.refl

theorem State.endSpent_does {s p} : Does [.sec, .mgt] [13, 16, 18] s (State.endSpent s p) := by
  unfold State.endSpent
  refine Does.ite (fun _ => ?_) (fun _ => ?_)
  · refine Does.call State.endSession_does (by decide +kernel) ?_
    exact Does.refl
  · exact Does.refl

theorem execSelftest_runs {p pass s} : Runs [.agenda, .causes, .fresh, .out, .links] [18] s (execSelftest p pass s) := by
  unfold execSelftest
  refine Runs.ite (fun _ => ?_) (fun _ => ?_)
  · refine Runs.next ?_
    refine Does.call State.secReply_does (by decide +kernel) ?_
    refine Does.call State.selftestOutcome_does (by decide +kernel) ?_
    exact Does.refl
  · refine Runs.next ?_
    refine Does.call State.secReply_does (by decide +kernel) ?_
    exact Does.refl

theorem execTreeReady_runs {epochTree s} : Runs [.fresh] [18] s (execTreeReady epochTree s) := by
  unfold execTreeReady
  refine Runs.ite (fun _ => ?_) (fun _ => ?_)
  · refine Runs.next ?_
    refine Does.latch adr_SEC_HSSE (by decide +kernel) ?_
    exact Does.refl
  · refine Runs.ite (fun _ => ?_) (fun _ => ?_)
    · refine Runs.next ?_
      refine Does.setBit adr_SEC_STAT (by decide +kernel) ?_
      exact Does.refl
    · refine Runs.next ?_
      refine Does.latch adr_SEC_HSSE (by decide +kernel) ?_
      exact Does.refl

theorem execHelloLockEnd_runs {p s} : Runs [] [18] s (execHelloLockEnd p s) := by
  unfold execHelloLockEnd
  refine Runs.next ?_
  refine Does.ite (fun _ => ?_) (fun _ => ?_)
  · refine Does.setBit adr_SEC_SESS (by decide +kernel) ?_
    exact Does.refl
  · exact Does.refl

theorem execSealSign_runs {good s} : Runs [.agenda, .causes, .fresh, .out, .acq, .calRec, .links, .sec] [18] s (execSealSign
      good s) := by
  unfold execSealSign
  split
  · refine Runs.next ?_
    exact Does.refl
  · extract_lets -underBinder -merge -useContext x1
    refine Runs.lets x1 ?_ (fun hx1 => ?_)
    · unfold x1
      refine Does.call State.causeOff_does (by decide +kernel) ?_
      refine Does.setBit adr_SEC_STAT (by decide +kernel) ?_
      exact Does.refl
    refine Runs.ite (fun _ => ?_) (fun _ => ?_)
    · refine Runs.next ?_
      exact Does.refl
    · refine Runs.ite (fun _ => ?_) (fun _ => ?_)
      · refine Runs.ite (fun _ => ?_) (fun _ => ?_)
        · refine Runs.next ?_
          exact Does.refl
        · refine Runs.next ?_
          refine Does.call State.raise_does (by decide +kernel) ?_
          refine Does.call State.causeOn_does (by decide +kernel) ?_
          refine Does.latch adr_SEC_LAT (by decide +kernel) ?_
          refine Does.latch adr_SEC_STAT (by decide +kernel) ?_
          exact Does.refl
      · refine Runs.next ?_
        refine Does.ite (fun _ => ?_) (fun _ => ?_)
        · refine Does.call State.serveSig_does (by decide +kernel) ?_
          refine Does.call State.popSig_does (by decide +kernel) ?_
          exact hx1
        · exact hx1

theorem execEnrollCk_runs {p slot generation key sig s} : Runs [.out, .links, .sec] [] s (execEnrollCk p slot generation key
      sig s) := by
  unfold execEnrollCk
  refine Runs.next ?_
  refine Does.service (by decide +kernel) ?_ ?_
  · intro y1
    beta_reduce
    extract_lets -underBinder -merge -useContext x2 x3
    refine Does.ite (fun _ => ?_) (fun _ => ?_)
    · refine Does.call State.secReply_does (by decide +kernel) ?_
      exact Does.refl
    · refine Does.ite (fun _ => ?_) (fun _ => ?_)
      · refine Does.call State.secReply_does (by decide +kernel) ?_
        exact Does.refl
      · refine Does.ite (fun _ => ?_) (fun _ => ?_)
        · refine Does.call State.secReply_does (by decide +kernel) ?_
          exact Does.refl
        · refine Does.call State.secReply_does (by decide +kernel) ?_
          refine Does.put_sec (by decide +kernel) ?_
          exact Does.refl
  · exact Does.refl

theorem execFloor_runs {p which value s} : Runs [.out, .links, .sec] [18] s (execFloor p which value s) := by
  unfold execFloor
  refine Runs.next ?_
  refine Does.service (by decide +kernel) ?_ ?_
  · intro y1
    beta_reduce
    extract_lets -underBinder -merge -useContext x2 x3 x4
    refine Does.lets x3 ?_ (fun hx3 => ?_)
    · unfold x3
      refine Does.setReg adr_SEC_FLOOR (by decide +kernel) ?_
      exact Does.refl
    refine Does.ite (fun _ => ?_) (fun _ => ?_)
    · refine Does.call State.secReply_does (by decide +kernel) ?_
      exact Does.refl
    · refine Does.ite (fun _ => ?_) (fun _ => ?_)
      · refine Does.call State.secReply_does (by decide +kernel) ?_
        exact Does.refl
      · refine Does.ite (fun _ => ?_) (fun _ => ?_)
        · refine Does.call State.secReply_does (by decide +kernel) ?_
          exact Does.refl
        · refine Does.call State.secReply_does (by decide +kernel) ?_
          refine Does.put_sec (by decide +kernel) ?_
          exact hx3
  · exact Does.refl

theorem State.serveSigs_does {n s} : Does [.agenda, .causes, .fresh, .out, .acq, .calRec, .links, .sec] [18] s
      (State.serveSigs n s) := by
  induction n generalizing s with
  | zero => exact Does.refl
  | succ n ih =>
    unfold State.serveSigs
    split
    · exact Does.refl
    · exact Does.refl
    · have h : Does [.agenda, .causes, .fresh, .out, .acq, .calRec, .links, .sec] [18] s s.popSig := Does.call State.popSig_does (by decide +kernel) Does.refl
      refine Does.ite (fun _ => Does.refl) (fun _ => Does.ite (fun _ => ih.after ?_) (fun _ =>
        Does.ite (fun _ => ih.after ?_) (fun _ => Does.refl)))
      · exact Does.call State.serveSig_does (by decide +kernel) h
      · exact Does.call State.exhaustSig_does (by decide +kernel) h

theorem execSecHello_runs {p role intOnly nonce qh s} : Runs [.free, .out, .links, .sec] [18] s (execSecHello p role intOnly
      nonce qh s) := by
  unfold execSecHello
  extract_lets -underBinder -merge -useContext x1 x2 x3 x4
  refine Runs.lets x4 ?_ (fun hx4 => ?_)
  · unfold x4
    refine Does.call State.secReply_does (by decide +kernel) ?_
    refine Does.call State.setExchange_does (by decide +kernel) ?_
    refine Does.call State.dropProof_does (by decide +kernel) ?_
    refine Does.put_free (by decide +kernel) ?_
    exact Does.refl
  refine Runs.ite (fun _ => ?_) (fun _ => ?_)
  · refine Runs.next ?_
    refine Does.call State.secReply_does (by decide +kernel) ?_
    exact Does.refl
  · refine Runs.ite (fun _ => ?_) (fun _ => ?_)
    · refine Runs.next ?_
      refine Does.call State.secReply_does (by decide +kernel) ?_
      refine Does.call State.failExchange_does (by decide +kernel) ?_
      exact Does.refl
    · refine Runs.next ?_
      refine Does.call State.askSig_does (by decide +kernel) ?_
      exact hx4

theorem execCert_runs {p s} : Runs [.out, .links] [] s (execCert p s) := by
  unfold execCert
  refine Runs.next ?_
  refine Does.service (by decide +kernel) ?_ ?_
  · intro y1
    beta_reduce
    refine Does.call State.secReply_does (by decide +kernel) ?_
    exact Does.refl
  · exact Does.refl

theorem execEntropyHealthFail_runs {s} : Runs [.agenda, .causes, .fresh] [18] s (execEntropyHealthFail s) := by
  unfold execEntropyHealthFail
  refine Runs.next ?_
  refine Does.call State.selftestOutcome_does (by decide +kernel) ?_
  exact Does.refl

theorem execRevoke_runs {p slot sig s} : Runs [.out, .links, .sec] [18] s (execRevoke p slot sig s) := by
  unfold execRevoke
  refine Runs.next ?_
  refine Does.service (by decide +kernel) ?_ ?_
  · intro y1
    beta_reduce
    extract_lets -underBinder -merge -useContext x2 x3
    refine Does.ite (fun _ => ?_) (fun _ => ?_)
    · refine Does.call State.secReply_does (by decide +kernel) ?_
      refine Does.call State.setKeySlot_does (by decide +kernel) ?_
      exact Does.refl
    · refine Does.ite (fun _ => ?_) (fun _ => ?_)
      · refine Does.call State.secReply_does (by decide +kernel) ?_
        exact Does.refl
      · split
        · refine Does.call State.secReply_does (by decide +kernel) ?_
          exact Does.refl
        · extract_lets -underBinder -merge -useContext x4 x5
          refine Does.lets x4 ?_ (fun hx4 => ?_)
          · unfold x4
            refine Does.setFld adr_SEC_SLOTS (by decide +kernel) ?_
            exact Does.refl
          refine Does.ite (fun _ => ?_) (fun _ => ?_)
          · refine Does.call State.secReply_does (by decide +kernel) ?_
            exact Does.refl
          · refine Does.ite (fun _ => ?_) (fun _ => ?_)
            · refine Does.call State.secReply_does (by decide +kernel) ?_
              exact Does.refl
            · refine Does.call State.secReply_does (by decide +kernel) ?_
              refine Does.put_sec (by decide +kernel) ?_
              exact hx4
  · exact Does.refl

theorem execZeroise_runs {p s} : Runs [.agenda, .fresh, .out, .acq, .calRec, .links, .sec, .mgt] [10, 13, 16, 18] s
      (execZeroise p s) := by
  unfold execZeroise
  refine Runs.next ?_
  refine Does.service (by decide +kernel) ?_ ?_
  · intro y1
    beta_reduce
    extract_lets -underBinder -merge -useContext x2 x3 x4 x5 x6 x7
    refine Does.lets x2 ?_ (fun hx2 => ?_)
    · unfold x2
      refine Does.call State.secReply_does (by decide +kernel) ?_
      exact Does.refl
    refine Does.lets x4 ?_ (fun hx4 => ?_)
    · unfold x4
      refine Does.call State.eraseFieldRecords_does (by decide +kernel) ?_
      refine Does.put_sec (by decide +kernel) ?_
      exact hx2
    refine Does.lets x5 ?_ (fun hx5 => ?_)
    · unfold x5
      refine Does.setFld adr_SEC_STAT (by decide +kernel) ?_
      refine Does.call State.endSession_does (by decide +kernel) ?_
      refine Does.call State.endSession_does (by decide +kernel) ?_
      exact hx4
    refine Does.lets x6 ?_ (fun hx6 => ?_)
    · unfold x6
      refine Does.latch adr_SEC_STAT (by decide +kernel) ?_
      refine Does.setReg adr_SPL_USED (by decide +kernel) ?_
      exact hx5
    refine Does.letsF1 x7 ?_ (fun hx7 => ?_)
    · intro y8 y9; unfold x7
      extract_lets -underBinder -merge -useContext x10
      refine Does.call State.setStream_does (by decide +kernel) ?_
      exact Does.refl
    refine Does.call State.raise_does (by decide +kernel) ?_
    refine Does.setWide adr_SPL_RD (by decide +kernel) ?_
    refine (hx7 _ _).after ?_
    refine (hx7 _ _).after ?_
    exact hx6
  · exact Does.refl

end Sys2Proof.Machine
end

