-- ==== Sys2Proof/Laws/Patches.lean ====
section
/-! SUPPORT. What each operation of Machine/Patches.lean may change (Laws/Frame.lean says how to read it). -/
namespace Sys2Proof.Machine

set_option Elab.async false

theorem State.loadPatches_does {s scope prev ws} : Does [.agenda, .ctl, .sec] [6] s (State.loadPatches s scope prev ws) := by
  induction ws generalizing s prev with
  | nil => exact Does.refl
  | cons w ws ih =>
    unfold State.loadPatches
    refine Does.ite (fun _ => ?_) (fun _ => ih.after ?_)
    · exact Does.call State.raise_does (by decide +kernel) (Does.setReg adr_LPE_CS_STAT (by decide +kernel) Does.refl)
    · refine Does.setFld adr_LPE_CS_STAT (by decide +kernel) ?_
      exact Does.put (t := s) [.ctl, .sec] Does.refl (by decide +kernel) rfl rfl rfl rfl (fun p hp => by cases p <;> first | exact absurd (by decide) hp | rfl)

theorem State.loadControlStore_does {s} : Does [.agenda, .fresh, .ctl, .sec] [6] s (State.loadControlStore s) := by
  unfold State.loadControlStore
  extract_lets -underBinder -merge -useContext x1 x2 x3 x4
  refine Does.lets x3 ?_ (fun hx3 => ?_)
  · unfold x3
    refine Does.put (t := s) [.ctl, .sec] ?_ (by decide +kernel) ?_ ?_ ?_ ?_ ?_
    · exact Does.refl
    · rfl
    · rfl
    · rfl
    · rfl
    · intro p hp; cases p <;> first | exact absurd (by decide) hp | rfl
  refine Does.lets x4 ?_ (fun hx4 => ?_)
  · unfold x4
    refine Does.call State.loadPatches_does (by decide +kernel) ?_
    exact hx3
  refine Does.latch adr_LPE_CS_STAT (by decide +kernel) ?_
  refine Does.call State.loadPatches_does (by decide +kernel) ?_
  exact hx4

end Sys2Proof.Machine
end

