-- ==== Sys2Proof/Laws/Structure.lean ====
section
/-! SUPPORT. What each operation of Machine/Structure.lean may change (Laws/Frame.lean says how to read it). -/
namespace Sys2Proof.Machine

set_option Elab.async false

theorem State.setGang_does {s ch n k} : Does [.regs] [] s (State.setGang s ch n k) := by
  unfold State.setGang
  extract_lets -underBinder -merge -useContext x1 x2
  refine Does.lets x2 ?_ (fun hx2 => ?_)
  · unfold x2
    refine Does.setFld_any (by decide +kernel) ?_
    refine Does.setFld_any (by decide +kernel) ?_
    refine Does.setFld_any (by decide +kernel) ?_
    exact Does.refl
  refine Does.setFld_any (by decide +kernel) ?_
  exact hx2

theorem State.logStream_does {s op} : Does [.mgt] [16] s (State.logStream s op) := by
  unfold State.logStream
  refine Does.call State.log_does (by decide +kernel) ?_
  exact Does.refl

theorem State.chanDefaults_does {s n c} : Does [.regs] [] s (State.chanDefaults s n c) := by
  unfold State.chanDefaults
  refine Does.foldl ?_ ?_
  · intro y1 y2
    beta_reduce
    refine Does.setReg_any (by decide +kernel) ?_
    exact Does.refl
  · exact Does.refl

theorem State.regrid_does {s ch} : Does [.chans] [] s (State.regrid s ch) := by
  unfold State.regrid
  extract_lets -underBinder -merge -useContext x1
  refine Does.call State.setChan_does (by decide +kernel) ?_
  exact Does.refl

theorem State.setIsland_does {s r} : Does [.regs, .chans] [] s (State.setIsland s r) := by
  unfold State.setIsland
  extract_lets -underBinder -merge -useContext x1 x2 x3
  refine Does.lets x2 ?_ (fun hx2 => ?_)
  · unfold x2
    refine Does.setFld_any (by decide +kernel) ?_
    exact Does.refl
  refine Does.lets x3 ?_ (fun hx3 => ?_)
  · unfold x3
    refine Does.foldl ?_ ?_
    · intro y4 y5
      beta_reduce
      refine Does.setReg_any (by decide +kernel) ?_
      refine Does.call State.regrid_does (by decide +kernel) ?_
      refine Does.call State.chanDefaults_does (by decide +kernel) ?_
      exact Does.refl
    · exact hx2
  refine Does.foldl ?_ ?_
  · intro y6 y7
    beta_reduce
    extract_lets -underBinder -merge -useContext x8 x9 x10 x11
    refine Does.lets x11 ?_ (fun hx11 => ?_)
    · unfold x11
      refine Does.setReg_any (by decide +kernel) ?_
      refine Does.setFld_any (by decide +kernel) ?_
      refine Does.setReg_any (by decide +kernel) ?_
      exact Does.refl
    refine Does.ite (fun _ => ?_) (fun _ => ?_)
    · refine Does.setReg_any (by decide +kernel) ?_
      exact hx11
    · exact hx11
  · exact hx3

theorem State.setRoute_does {s r} : Does [.regs] [] s (State.setRoute s r) := by
  unfold State.setRoute
  extract_lets -underBinder -merge -useContext x1
  refine Does.setFld_any (by decide +kernel) ?_
  refine Does.setFld_any (by decide +kernel) ?_
  exact Does.refl

theorem State.setXbar_does {s r} : Does [] [64] s (State.setXbar s r) := by
  unfold State.setXbar
  extract_lets -underBinder -merge -useContext x1
  refine Does.foldl ?_ ?_
  · intro y2 y3
    beta_reduce
    extract_lets -underBinder -merge -useContext x4
    refine Does.setReg adr_MU_BIND (by decide +kernel) ?_
    exact Does.refl
  · exact Does.refl

theorem State.setT6_does {s n} : Does [.regs, .chans] [] s (State.setT6 s n) := by
  unfold State.setT6
  extract_lets -underBinder -merge -useContext x1 x2 x3 x4
  refine Does.lets x2 ?_ (fun hx2 => ?_)
  · unfold x2
    refine Does.call State.setIsland_does (by decide +kernel) ?_
    refine Does.foldl ?_ ?_
    · intro y5 y6
      beta_reduce
      refine Does.setReg_any (by decide +kernel) ?_
      exact Does.refl
    · exact Does.refl
  refine Does.lets x4 ?_ (fun hx4 => ?_)
  · unfold x4
    refine Does.call State.setXbar_does (by decide +kernel) ?_
    exact hx2
  refine Does.foldl ?_ ?_
  · intro y7 y8
    beta_reduce
    refine Does.call State.setRoute_does (by decide +kernel) ?_
    exact Does.refl
  · exact hx4

theorem State.bindTask_does {s r} : Does [.sram, .tasks] [] s (State.bindTask s r) := by
  unfold State.bindTask
  extract_lets -underBinder -merge -useContext x1
  refine Does.call State.setTask_does (by decide +kernel) ?_
  exact Does.refl

theorem State.archiveStream_does {s x} : Does [.mgt] [16] s (State.archiveStream s x) := by
  unfold State.archiveStream
  extract_lets -underBinder -merge -useContext x1 x2
  refine Does.foldl ?_ ?_
  · intro y3 y4
    beta_reduce
    refine Does.call State.log_does (by decide +kernel) ?_
    exact Does.refl
  · refine Does.put_mgt (by decide +kernel) ?_
    exact Does.refl

theorem Does.setDigest {ps bs s t a b d} (ha : Adr a b) (h : b ∈ bs) (g : Does ps bs s t) :
    Does ps bs s (State.setDigest t a d) := by
  unfold State.setDigest
  have h : ∀ (l : List Nat) (t : State), Does ps bs s t → (∀ k ∈ l, k < 64) →
      Does ps bs s (l.foldl (fun s k => s.setReg (a + 4 * k) (digestWord d k)) t) := by
    intro l
    induction l with
    | nil => exact fun _ g _ => g
    | cons k l ih =>
      intro t g hl
      exact ih _ (Does.setReg_in (.inr (ha.blk k (hl k (by simp)) ▸ h)) g) (fun j hj => hl j (by simp [hj]))
  exact h _ t g (by simp; omega)

theorem State.showStream_does {s ws} : Does [] [17] s (State.showStream s ws) := by
  unfold State.showStream
  extract_lets -underBinder -merge -useContext x1 x2 x3 x4
  refine Does.lets x3 ?_ (fun hx3 => ?_)
  · unfold x3
    refine Does.setDigest adr_STR_DIG (by decide +kernel) ?_
    exact Does.refl
  refine Does.lets x4 ?_ (fun hx4 => ?_)
  · unfold x4
    refine Does.setDigest adr_STR_TDIG (by decide +kernel) ?_
    exact hx3
  refine Does.setWide adr_STR_SERIAL (by decide +kernel) ?_
  exact hx4

theorem State.writeImage_does {s ws} : Does [.sram] [] s (State.writeImage s ws) := by
  unfold State.writeImage
  split
  · refine Does.put_sram (by decide +kernel) (fun h => Memory.wf_writeBytes _ _ _ h) ?_
    exact Does.refl
  · exact Does.refl

theorem State.inForce_does {s op ws reference} : Does [.causes, .fresh, .sram, .str, .mgt] [16, 17] s (State.inForce s op ws
      reference) := by
  unfold State.inForce
  extract_lets -underBinder -merge -useContext x1 x2 x3 x4
  refine Does.lets x1 ?_ (fun hx1 => ?_)
  · unfold x1
    refine Does.bump adr_STR_LOADS (by decide +kernel) ?_
    refine Does.call State.writeImage_does (by decide +kernel) ?_
    refine Does.call State.showStream_does (by decide +kernel) ?_
    exact Does.refl
  refine Does.lets x3 ?_ (fun hx3 => ?_)
  · unfold x3
    refine Does.setReg adr_STR_STAT (by decide +kernel) ?_
    refine Does.ite (fun _ => ?_) (fun _ => ?_)
    · refine Does.call State.causeOff_does (by decide +kernel) ?_
      exact hx1
    · exact hx1
  refine Does.call State.logStream_does (by decide +kernel) ?_
  refine Does.call State.archiveStream_does (by decide +kernel) ?_
  refine Does.put_str (by decide +kernel) ?_
  exact hx3

theorem State.setEngines_does {s ws} : Does [] [6] s (State.setEngines s ws) := by
  unfold State.setEngines
  refine Does.foldl ?_ ?_
  · intro y1 y2
    beta_reduce
    extract_lets -underBinder -merge -useContext x3 x4
    refine Does.setFld adr_ENG_STAT (by decide +kernel) ?_
    refine Does.setFld adr_ENG_STAT (by decide +kernel) ?_
    refine Does.setFld adr_ENG_STAT (by decide +kernel) ?_
    exact Does.refl
  · exact Does.refl

theorem State.setGangOf_does {s ws ch} : Does [.regs] [] s (State.setGangOf s ws ch) := by
  unfold State.setGangOf
  split
  · refine Does.call State.setGang_does (by decide +kernel) ?_
    exact Does.refl
  · refine Does.call State.setGang_does (by decide +kernel) ?_
    exact Does.refl

theorem State.setLoopOf_does {s ws ch} : Does [.loops] [6] s (State.setLoopOf s ws ch) := by
  unfold State.setLoopOf
  split
  · extract_lets -underBinder -merge -useContext x1 x2 x3 x4 x5 x6 x7 x8
    refine Does.lets x7 ?_ (fun hx7 => ?_)
    · unfold x7
      refine Does.call State.setLch_does (by decide +kernel) ?_
      exact Does.refl
    refine Does.setReg adr_LCH_CFG (by decide +kernel) ?_
    refine Does.setReg adr_LCH_LAW (by decide +kernel) ?_
    exact hx7
  · refine Does.setReg adr_LCH_CFG (by decide +kernel) ?_
    refine Does.setReg adr_LCH_LAW (by decide +kernel) ?_
    refine Does.call State.setLch_does (by decide +kernel) ?_
    exact Does.refl

theorem State.setTwinSection_does {s ws full} : Does [] [1, 14] s (State.setTwinSection s ws full) := by
  unfold State.setTwinSection
  extract_lets -underBinder -merge -useContext x1 x2 x3 x4 x5
  refine Does.lets x3 ?_ (fun hx3 => ?_)
  · unfold x3
    refine Does.setReg adr_TWN_FWLEAD (by decide +kernel) ?_
    refine Does.setReg adr_TWN_PN (by decide +kernel) ?_
    refine Does.setReg adr_TWN_PTOLI (by decide +kernel) ?_
    refine Does.setReg adr_TWN_PTOLV (by decide +kernel) ?_
    refine Does.setReg adr_TWN_CFG (by decide +kernel) ?_
    exact Does.refl
  refine Does.lets x4 ?_ (fun hx4 => ?_)
  · unfold x4
    refine Does.foldl ?_ ?_
    · intro y6 y7
      beta_reduce
      refine Does.setReg adr_TWN_BLMASK (by decide +kernel) ?_
      refine Does.setReg adr_TWN_BLMASK (by decide +kernel) ?_
      refine Does.setReg adr_TWN_COLMASK (by decide +kernel) ?_
      refine Does.setReg adr_TWN_COLMASK (by decide +kernel) ?_
      exact Does.refl
    · exact hx3
  refine Does.lets x5 ?_ (fun hx5 => ?_)
  · unfold x5
    refine Does.setReg adr_TBS_CABLE (by decide +kernel) ?_
    refine Does.setFld adr_TBS_CTL (by decide +kernel) ?_
    exact hx4
  refine Does.ite (fun _ => ?_) (fun _ => ?_)
  · refine Does.setReg adr_TBS_SRC (by decide +kernel) ?_
    exact hx5
  · exact hx5

theorem State.applyQuads_does {s} : Does [.regs, .causes, .fresh, .sram, .chans, .loops, .tasks, .str, .mgt] [] s
      (State.applyQuads s) := by
  unfold State.applyQuads
  extract_lets -underBinder -merge -useContext x1 x2 x3 x4 x5 x6 x7 x8 x9 x10 x11 x12 x13 x14
  refine Does.letsF1 x5 ?_ (fun hx5 => ?_)
  · intro y15 y16; unfold x5
    refine Does.ite (fun _ => ?_) (fun _ => ?_)
    · refine Does.foldl ?_ ?_
      · intro y17 y18
        beta_reduce
        refine Does.setReg_any (by decide +kernel) ?_
        exact Does.refl
      · exact Does.refl
    · exact Does.refl
  refine Does.lets x6 ?_ (fun hx6 => ?_)
  · unfold x6
    refine Does.foldl ?_ ?_
    · intro y19 y20
      refine Does.call State.setIsland_does (by decide +kernel) ?_
      exact Does.refl
    · refine Does.foldl ?_ ?_
      · intro y21 y22
        refine (hx5 _ _).after ?_
        exact Does.refl
      · exact Does.refl
  refine Does.lets x7 ?_ (fun hx7 => ?_)
  · unfold x7
    refine Does.foldl ?_ ?_
    · intro y23 y24
      refine Does.call State.setXbar_does (by decide +kernel) ?_
      exact Does.refl
    · exact hx6
  refine Does.lets x8 ?_ (fun hx8 => ?_)
  · unfold x8
    refine Does.foldl ?_ ?_
    · intro y25 y26
      refine Does.call State.setRoute_does (by decide +kernel) ?_
      exact Does.refl
    · exact hx7
  refine Does.lets x9 ?_ (fun hx9 => ?_)
  · unfold x9
    refine Does.ite (fun _ => ?_) (fun _ => ?_)
    · refine Does.foldl ?_ ?_
      · intro y27 y28
        beta_reduce
        refine Does.ite (fun _ => ?_) (fun _ => ?_)
        · refine Does.call State.setT6_does (by decide +kernel) ?_
          exact Does.refl
        · exact Does.refl
      · exact hx8
    · exact hx8
  refine Does.lets x10 ?_ (fun hx10 => ?_)
  · unfold x10
    refine Does.foldl ?_ ?_
    · intro y29 y30
      beta_reduce
      refine Does.ite (fun _ => ?_) (fun _ => ?_)
      · refine Does.call State.setLoopOf_does (by decide +kernel) ?_
        refine Does.call State.setGangOf_does (by decide +kernel) ?_
        exact Does.refl
      · exact Does.refl
    · exact hx9
  refine Does.lets x13 ?_ (fun hx13 => ?_)
  · unfold x13
    refine Does.foldl ?_ ?_
    · intro y31 y32
      beta_reduce
      refine Does.call State.setTask_does (by decide +kernel) ?_
      exact Does.refl
    · exact hx10
  refine Does.lets x14 ?_ (fun hx14 => ?_)
  · unfold x14
    refine Does.foldl ?_ ?_
    · intro y33 y34
      refine Does.call State.bindTask_does (by decide +kernel) ?_
      exact Does.refl
    · exact hx13
  refine Does.call State.inForce_does (by decide +kernel) ?_
  refine Does.call State.setTwinSection_does (by decide +kernel) ?_
  refine Does.call State.setEngines_does (by decide +kernel) ?_
  exact hx14

theorem State.strRefuse_does {s r} : Does [.agenda, .fresh] [17] s (State.strRefuse s r) := by
  unfold State.strRefuse
  extract_lets -underBinder -merge -useContext x1
  refine Does.lets x1 ?_ (fun hx1 => ?_)
  · unfold x1
    refine Does.setWide adr_STR_FOFF (by decide +kernel) ?_
    refine Does.setFld adr_STR_STAT (by decide +kernel) ?_
    refine Does.setFld adr_STR_STAT (by decide +kernel) ?_
    exact Does.refl
  refine Does.call State.raise_does (by decide +kernel) ?_
  refine Does.latch adr_STR_LAT (by decide +kernel) ?_
  exact hx1

theorem execStrApply_runs {s} : Runs [.regs, .agenda, .causes, .fresh, .sram, .chans, .loops, .tasks, .str, .mgt] [] s
      (execStrApply s) := by
  unfold execStrApply
  refine Runs.ite (fun _ => ?_) (fun _ => ?_)
  · refine Runs.next ?_
    refine Does.call State.applyQuads_does (by decide +kernel) ?_
    exact Does.refl
  · refine Runs.next ?_
    refine Does.call State.strRefuse_does (by decide +kernel) ?_
    exact Does.refl

theorem State.dropChecked_does {s} : Does [.str] [17] s (State.dropChecked s) := by
  unfold State.dropChecked
  extract_lets -underBinder -merge -useContext x1 x2
  refine Does.lets x1 ?_ (fun hx1 => ?_)
  · unfold x1
    refine Does.setFld adr_STR_STAT (by decide +kernel) ?_
    refine Does.setBit adr_STR_STAT (by decide +kernel) ?_
    refine Does.setBit adr_STR_STAT (by decide +kernel) ?_
    exact Does.refl
  refine Does.put_str (by decide +kernel) ?_
  exact hx1

theorem Does.put_lost {ps bs s t l k c a r} (w : within [.loops, .tasks, .sched, .acq, .str] [] ps bs = true) (g : Does ps bs s t) :
    Does ps bs s { t with loops := l, tasks := k, sched := c, acq := a, str := r } := by
  refine Does.put (t := t) [.loops, .tasks, .sched, .acq, .str] g w ?_ ?_ ?_ ?_ ?_
  · rfl
  · rfl
  · rfl
  · rfl
  · intro p hp; cases p <;> first | exact absurd (by decide) hp | rfl

theorem State.loseStructure_does {s} : Does [.regs, .loops, .tasks, .sched, .acq, .str] [] s (State.loseStructure s) := by
  unfold State.loseStructure
  extract_lets -underBinder -merge -useContext x1 x2 x3 x4 x5
  refine Does.lets x1 ?_ (fun hx1 => ?_)
  · unfold x1
    exact Does.foldl (fun _ _ => Does.setReg_any (by decide +kernel) Does.refl) Does.refl
  refine Does.lets x3 ?_ (fun hx3 => ?_)
  · unfold x3
    exact Does.foldl (fun _ _ => Does.setReg_any (by decide +kernel) Does.refl) hx1
  exact Does.put_lost (by decide +kernel) hx3

theorem State.setAcq_does {s ws} : Does [.acq] [10] s (State.setAcq s ws) := by
  unfold State.setAcq
  extract_lets -underBinder -merge -useContext x1 x2 x3 x4
  refine Does.lets x2 ?_ (fun hx2 => ?_)
  · unfold x2
    refine Does.setFld adr_ACQ_STAT (by decide +kernel) ?_
    exact Does.refl
  refine Does.put_acq (by decide +kernel) ?_
  exact hx2

theorem State.setFaults_does {s ws} : Does [] [2] s (State.setFaults s ws) := by
  unfold State.setFaults
  refine Does.foldl ?_ ?_
  · intro y1 y2
    beta_reduce
    refine Does.setReg adr_FLT_REACT (by decide +kernel) ?_
    exact Does.refl
  · exact Does.refl

theorem State.setMemory_does {s ws} : Does [] [10, 11, 12] s (State.setMemory s ws) := by
  unfold State.setMemory
  extract_lets -underBinder -merge -useContext x1
  refine Does.lets x1 ?_ (fun hx1 => ?_)
  · unfold x1
    refine Does.foldl ?_ ?_
    · intro y2 y3
      beta_reduce
      extract_lets -underBinder -merge -useContext x4 x5 x6 x7
      refine Does.lets x7 ?_ (fun hx7 => ?_)
      · unfold x7
        refine Does.setReg adr_HBM_RGN_KIND (by decide +kernel) ?_
        refine Does.setReg adr_HBM_RGN_SIZE (by decide +kernel) ?_
        refine Does.setReg adr_HBM_RGN_BASE (by decide +kernel) ?_
        exact Does.refl
      refine Does.ite (fun _ => ?_) (fun _ => ?_)
      · refine Does.setReg adr_BSN_SIZE (by decide +kernel) ?_
        exact hx7
      · refine Does.ite (fun _ => ?_) (fun _ => ?_)
        · refine Does.setReg adr_EXC_OVFSZ (by decide +kernel) ?_
          exact hx7
        · exact hx7
    · exact Does.refl
  refine Does.foldl ?_ ?_
  · intro y8 y9
    beta_reduce
    refine Does.setReg adr_HBM_REQ_RES (by decide +kernel) ?_
    exact Does.refl
  · exact hx1

theorem State.setSched_does {s ws} : Does [] [4] s (State.setSched s ws) := by
  unfold State.setSched
  extract_lets -underBinder -merge -useContext x1 x2 x3 x4
  refine Does.lets x2 ?_ (fun hx2 => ?_)
  · unfold x2
    refine Does.foldl ?_ ?_
    · intro y5 y6
      beta_reduce
      split
      · refine Does.setReg adr_SCH_GRP1 (by decide +kernel) ?_
        refine Does.setReg adr_SCH_GRP0 (by decide +kernel) ?_
        exact Does.refl
      · refine Does.setReg adr_SCH_GRP1 (by decide +kernel) ?_
        refine Does.setReg adr_SCH_GRP0 (by decide +kernel) ?_
        exact Does.refl
    · exact Does.refl
  refine Does.lets x3 ?_ (fun hx3 => ?_)
  · unfold x3
    refine Does.foldl ?_ ?_
    · intro y7 y8
      beta_reduce
      refine Does.setReg adr_SCH_ASET (by decide +kernel) ?_
      exact Does.refl
    · exact hx2
  refine Does.lets x4 ?_ (fun hx4 => ?_)
  · unfold x4
    refine Does.setReg adr_SCH_BAND (by decide +kernel) ?_
    exact hx3
  refine Does.foldl ?_ ?_
  · intro y9 y10
    beta_reduce
    refine Does.setReg adr_SCH_QCFG (by decide +kernel) ?_
    exact Does.refl
  · exact hx4

theorem State.applyFull_does {s} : Does [.regs, .causes, .fresh, .out, .sram, .chans, .loops, .tasks, .acq, .twn, .links,
      .str, .mgt] [] s (State.applyFull s) := by
  unfold State.applyFull
  extract_lets -underBinder -merge -useContext x1 x2 x3 x4 x5 x6 x7 x8 x9 x10 x11
  refine Does.lets x4 ?_ (fun hx4 => ?_)
  · unfold x4
    refine Does.putMem (t := s) [.sram, .tasks, .str] ?_ (by decide +kernel) rfl ?_ ?_
    · exact Does.refl
    · intro c; unfold State.Canonical; dsimp only; exact ⟨c.1, rfl, c.2.2.1, c.2.2.2⟩
    · intro p hp; cases p <;> first | exact absurd (by decide) hp | rfl
  refine Does.lets x5 ?_ (fun hx5 => ?_)
  · unfold x5
    refine Does.foldl ?_ ?_
    · intro y12 y13
      refine Does.call State.setIsland_does (by decide +kernel) ?_
      exact Does.refl
    · exact hx4
  refine Does.lets x6 ?_ (fun hx6 => ?_)
  · unfold x6
    refine Does.foldl ?_ ?_
    · intro y14 y15
      refine Does.call State.setXbar_does (by decide +kernel) ?_
      exact Does.refl
    · exact hx5
  refine Does.lets x7 ?_ (fun hx7 => ?_)
  · unfold x7
    refine Does.foldl ?_ ?_
    · intro y16 y17
      refine Does.call State.setRoute_does (by decide +kernel) ?_
      exact Does.refl
    · exact hx6
  refine Does.lets x8 ?_ (fun hx8 => ?_)
  · unfold x8
    refine Does.ite (fun _ => ?_) (fun _ => ?_)
    · refine Does.foldl ?_ ?_
      · intro y18 y19
        refine Does.call State.setT6_does (by decide +kernel) ?_
        exact Does.refl
      · exact hx7
    · exact hx7
  refine Does.lets x9 ?_ (fun hx9 => ?_)
  · unfold x9
    refine Does.foldl ?_ ?_
    · intro y20 y21
      beta_reduce
      refine Does.call State.setLoopOf_does (by decide +kernel) ?_
      refine Does.call State.setGangOf_does (by decide +kernel) ?_
      exact Does.refl
    · exact hx8
  refine Does.lets x10 ?_ (fun hx10 => ?_)
  · unfold x10
    refine Does.call State.setAcq_does (by decide +kernel) ?_
    refine Does.call State.setFaults_does (by decide +kernel) ?_
    refine Does.call State.setMemory_does (by decide +kernel) ?_
    refine Does.call State.setSched_does (by decide +kernel) ?_
    refine Does.call State.setEngines_does (by decide +kernel) ?_
    exact hx9
  refine Does.lets x11 ?_ (fun hx11 => ?_)
  · unfold x11
    refine Does.foldl ?_ ?_
    · intro y22 y23
      refine Does.call State.bindTask_does (by decide +kernel) ?_
      exact Does.refl
    · refine Does.call State.setTwinSection_does (by decide +kernel) ?_
      exact hx10
  refine Does.call State.negotiate_does (by decide +kernel) ?_
  refine Does.call State.inForce_does (by decide +kernel) ?_
  exact hx11

theorem State.startCheck_does {s ws src qmask range boot} : Does [.str] [17] s (State.startCheck s ws src qmask range boot) := by
  unfold State.startCheck
  extract_lets -underBinder -merge -useContext x1 x2
  refine Does.lets x1 ?_ (fun hx1 => ?_)
  · unfold x1
    refine Does.setFld adr_STR_STAT (by decide +kernel) ?_
    refine Does.setBit adr_STR_STAT (by decide +kernel) ?_
    refine Does.setBit adr_STR_STAT (by decide +kernel) ?_
    exact Does.refl
  refine Does.put_str (by decide +kernel) ?_
  exact hx1

theorem State.bootReference_does {s} : Does [.agenda, .causes, .fresh, .str] [17] s (State.bootReference s) := by
  unfold State.bootReference
  refine Does.call State.startCheck_does (by decide +kernel) ?_
  refine Does.call State.raise_does (by decide +kernel) ?_
  refine Does.call State.causeOn_does (by decide +kernel) ?_
  refine Does.latch adr_STR_LAT (by decide +kernel) ?_
  exact Does.refl

theorem execStrCheckDone_runs {sigGood s} : Runs [.regs, .agenda, .causes, .fresh, .out, .sram, .chans, .loops, .tasks, .acq,
      .twn, .links, .str, .mgt] [] s (execStrCheckDone sigGood s) := by
  unfold execStrCheckDone
  refine Runs.ite (fun _ => ?_) (fun _ => ?_)
  · refine Runs.next ?_
    exact Does.refl
  · split
    · extract_lets -underBinder -merge -useContext x1
      refine Runs.lets x1 ?_ (fun hx1 => ?_)
      · unfold x1
        refine Does.call State.strRefuse_does (by decide +kernel) ?_
        refine Does.call State.dropChecked_does (by decide +kernel) ?_
        exact Does.refl
      refine Runs.next ?_
      refine Does.ite (fun _ => ?_) (fun _ => ?_)
      · refine Does.call State.bootReference_does (by decide +kernel) ?_
        exact hx1
      · exact hx1
    · refine Runs.ite (fun _ => ?_) (fun _ => ?_)
      · refine Runs.next ?_
        refine Does.call State.applyFull_does (by decide +kernel) ?_
        exact Does.refl
      · refine Runs.next ?_
        refine Does.setFld_any (by decide +kernel) ?_
        refine Does.setBit_any (by decide +kernel) ?_
        refine Does.setBit_any (by decide +kernel) ?_
        exact Does.refl

theorem execUnload_runs {s} : Runs [.regs, .agenda, .causes, .fresh, .loops, .tasks, .sched, .acq, .twn, .str, .mgt] [] s
      (execUnload s) := by
  unfold execUnload
  extract_lets -underBinder -merge -useContext x1 x2
  refine Runs.lets x2 ?_ (fun hx2 => ?_)
  · unfold x2
    refine Does.setBit_any (by decide +kernel) ?_
    refine Does.call State.setTwin_does (by decide +kernel) ?_
    refine Does.call State.loseStructure_does (by decide +kernel) ?_
    refine Does.call State.dropChecked_does (by decide +kernel) ?_
    refine Does.call State.logStream_does (by decide +kernel) ?_
    exact Does.refl
  refine Runs.ite (fun _ => ?_) (fun _ => ?_)
  · refine Runs.next ?_
    refine Does.call State.strRefuse_does (by decide +kernel) ?_
    exact Does.refl
  · refine Runs.next ?_
    refine Does.setBit_any (by decide +kernel) ?_
    refine Does.setFld_any (by decide +kernel) ?_
    exact hx2

theorem execStrAbort_runs {s} : Runs [.str] [17] s (execStrAbort s) := by
  unfold execStrAbort
  refine Runs.next ?_
  refine Does.call State.dropChecked_does (by decide +kernel) ?_
  exact Does.refl

theorem State.bootLoad_does {s} : Does [.agenda, .causes, .fresh, .str] [17] s (State.bootLoad s) := by
  unfold State.bootLoad
  refine Does.ite (fun _ => ?_) (fun _ => ?_)
  · refine Does.call State.bootReference_does (by decide +kernel) ?_
    exact Does.refl
  · refine Does.call State.startCheck_does (by decide +kernel) ?_
    exact Does.refl

theorem execStore_runs {good s} : Runs [.agenda, .fresh, .str] [17] s (execStore good s) := by
  unfold execStore
  extract_lets -underBinder -merge -useContext x1
  refine Runs.ite (fun _ => ?_) (fun _ => ?_)
  · refine Runs.next ?_
    refine Does.call State.strRefuse_does (by decide +kernel) ?_
    exact Does.refl
  · refine Runs.ite (fun _ => ?_) (fun _ => ?_)
    · refine Runs.next ?_
      refine Does.put_str (by decide +kernel) ?_
      exact Does.refl
    · refine Runs.next ?_
      refine Does.call State.raise_does (by decide +kernel) ?_
      refine Does.latch adr_STR_LAT (by decide +kernel) ?_
      exact Does.refl

theorem execStrLoad_runs {src qmask s} : Runs [.agenda, .fresh, .str] [17] s (execStrLoad src qmask s) := by
  unfold execStrLoad
  extract_lets -underBinder -merge -useContext x1 x2 x3 x4 x5 x6
  refine Runs.ite (fun _ => ?_) (fun _ => ?_)
  · refine Runs.next ?_
    refine Does.call State.strRefuse_does (by decide +kernel) ?_
    exact Does.refl
  · refine Runs.ite (fun _ => ?_) (fun _ => ?_)
    · refine Runs.next ?_
      refine Does.ite (fun _ => ?_) (fun _ => ?_)
      · refine Does.call State.strRefuse_does (by decide +kernel) ?_
        exact Does.refl
      · refine Does.call State.startCheck_does (by decide +kernel) ?_
        exact Does.refl
    · refine Runs.ite (fun _ => ?_) (fun _ => ?_)
      · refine Runs.next ?_
        refine Does.call State.startCheck_does (by decide +kernel) ?_
        exact Does.refl
      · refine Runs.ite (fun _ => ?_) (fun _ => ?_)
        · refine Runs.next ?_
          refine Does.call State.strRefuse_does (by decide +kernel) ?_
          exact Does.refl
        · refine Runs.ite (fun _ => ?_) (fun _ => ?_)
          · refine Runs.next ?_
            refine Does.call State.strRefuse_does (by decide +kernel) ?_
            exact Does.refl
          · refine Runs.next ?_
            refine Does.call State.startCheck_does (by decide +kernel) ?_
            exact Does.refl

end Sys2Proof.Machine
end

