-- ==== Sys2Proof/Laws/Links.lean ====
section
/-! SUPPORT. What each operation of Machine/Links.lean may change (Laws/Frame.lean says how to read it). -/
namespace Sys2Proof.Machine

set_option Elab.async false

theorem State.rdr_does {s p h st data} : Does [.out, .links] [] s (State.rdr s p h st data) := by
  unfold State.rdr
  refine Does.call State.sendFrame_does (by decide +kernel) ?_
  exact Does.refl

theorem State.rewindStreams_does {s p} : Does [.acq] [] s (State.rewindStreams s p) := by
  unfold State.rewindStreams
  extract_lets -underBinder -merge -useContext x1
  refine Does.letsF1 x1 ?_ (fun hx1 => ?_)
  · intro y2 y3; unfold x1
    extract_lets -underBinder -merge -useContext x4 x5
    refine Does.ite (fun _ => ?_) (fun _ => ?_)
    · refine Does.call State.setStream_does (by decide +kernel) ?_
      exact Does.refl
    · exact Does.refl
  refine (hx1 _ _).after ?_
  refine (hx1 _ _).after ?_
  refine (hx1 _ _).after ?_
  refine (hx1 _ _).after ?_
  exact Does.refl

theorem State.portDown_does {s p} : Does [.agenda, .causes, .acq, .links, .sec, .mgt] [13, 16, 18] s (State.portDown s p) := by
  unfold State.portDown
  extract_lets -underBinder -merge -useContext x1 x2 x3
  refine Does.lets x1 ?_ (fun hx1 => ?_)
  · unfold x1
    refine Does.call State.setLink_does (by decide +kernel) ?_
    refine Does.call State.endSession_does (by decide +kernel) ?_
    exact Does.refl
  refine Does.lets x2 ?_ (fun hx2 => ?_)
  · unfold x2
    refine Does.setFld adr_LNK_LAT (by decide +kernel) ?_
    exact hx1
  refine Does.lets x3 ?_ (fun hx3 => ?_)
  · unfold x3
    refine Does.ite (fun _ => ?_) (fun _ => ?_)
    · exact hx2
    · refine Does.call State.raise_does (by decide +kernel) ?_
      refine Does.call State.causeOn_does (by decide +kernel) ?_
      exact hx2
  refine Does.call State.rewindStreams_does (by decide +kernel) ?_
  exact hx3

theorem State.flush_does {s l n} : Does [.out, .links] [] s (State.flush s l n) := by
  induction n generalizing s with
  | zero => exact Does.refl
  | succ n ih =>
    unfold State.flush
    extract_lets x
    split
    · exact Does.refl
    · exact ih.after (Does.call State.pushOn_does (by decide +kernel) (Does.call State.setLink_does (by decide +kernel) Does.refl))

theorem State.judgeDegraded_does {s p} : Does [.agenda, .causes, .fresh] [13] s (State.judgeDegraded s p) := by
  unfold State.judgeDegraded
  extract_lets -underBinder -merge -useContext x1
  refine Does.lets x1 ?_ (fun hx1 => ?_)
  · unfold x1
    refine Does.latch adr_LNK_LAT (by decide +kernel) ?_
    exact Does.refl
  refine Does.ite (fun _ => ?_) (fun _ => ?_)
  · refine Does.ite (fun _ => ?_) (fun _ => ?_)
    · exact hx1
    · refine Does.call State.raise_does (by decide +kernel) ?_
      refine Does.call State.causeOn_does (by decide +kernel) ?_
      exact hx1
  · refine Does.call State.causeOff_does (by decide +kernel) ?_
    exact Does.refl

theorem State.setLtssm_does {s l v} : Does [.links] [13] s (State.setLtssm s l v) := by
  unfold State.setLtssm
  extract_lets -underBinder -merge -useContext x1 x2
  refine Does.lets x2 ?_ (fun hx2 => ?_)
  · unfold x2
    refine Does.call State.setLink_does (by decide +kernel) ?_
    exact Does.refl
  split
  · extract_lets -underBinder -merge -useContext x3
    refine Does.setBit adr_LNK_STAT (by decide +kernel) ?_
    refine Does.setReg adr_LP_STAT (by decide +kernel) ?_
    exact hx2
  · refine Does.setBit adr_LNK_STAT (by decide +kernel) ?_
    refine Does.setReg adr_LC_STAT (by decide +kernel) ?_
    exact hx2
  · refine Does.setBit adr_LNK_STAT (by decide +kernel) ?_
    refine Does.setFld adr_LR_STAT (by decide +kernel) ?_
    exact hx2
  · refine Does.setBit adr_LNK_STAT (by decide +kernel) ?_
    exact hx2

theorem State.setWidth_does {s l width rate} : Does [] [13] s (State.setWidth s l width rate) := by
  unfold State.setWidth
  split
  · refine Does.setFld adr_LP_STAT (by decide +kernel) ?_
    refine Does.setFld adr_LP_STAT (by decide +kernel) ?_
    exact Does.refl
  · exact Does.refl

theorem execRecoveryDone_runs {l width rate s} : Runs [.agenda, .causes, .fresh, .out, .links] [13] s (execRecoveryDone l
      width rate s) := by
  unfold execRecoveryDone
  extract_lets -underBinder -merge -useContext x1
  refine Runs.lets x1 ?_ (fun hx1 => ?_)
  · unfold x1
    refine Does.call State.setWidth_does (by decide +kernel) ?_
    refine Does.call State.setLtssm_does (by decide +kernel) ?_
    exact Does.refl
  refine Runs.ite (fun _ => ?_) (fun _ => ?_)
  · split
    · extract_lets -underBinder -merge -useContext x2
      refine Runs.lets x2 ?_ (fun hx2 => ?_)
      · unfold x2
        refine Does.call State.judgeDegraded_does (by decide +kernel) ?_
        exact hx1
      refine Runs.next ?_
      refine Does.call State.flush_does (by decide +kernel) ?_
      exact hx2
    · refine Runs.next ?_
      refine Does.call State.flush_does (by decide +kernel) ?_
      exact hx1
    · refine Runs.next ?_
      refine Does.call State.causeOff_does (by decide +kernel) ?_
      exact hx1
    · refine Runs.next ?_
      exact hx1
  · refine Runs.next ?_
    exact Does.refl

theorem execLpEnWrite_runs {p data s} : Runs [.acq, .links, .sec, .mgt] [13, 16, 18] s (execLpEnWrite p data s) := by
  unfold execLpEnWrite
  extract_lets -underBinder -merge -useContext x1 x2 x3
  refine Runs.lets x2 ?_ (fun hx2 => ?_)
  · unfold x2
    refine Does.setReg adr_LP_CTL (by decide +kernel) ?_
    exact Does.refl
  refine Runs.lets x3 ?_ (fun hx3 => ?_)
  · unfold x3
    refine Does.call State.setLink_does (by decide +kernel) ?_
    refine Does.call State.endSession_does (by decide +kernel) ?_
    exact hx2
  refine Runs.ite (fun _ => ?_) (fun _ => ?_)
  · refine Runs.next ?_
    refine Does.ite (fun _ => ?_) (fun _ => ?_)
    · exact hx2
    · refine Does.ite (fun _ => ?_) (fun _ => ?_)
      · refine Does.call State.setLtssm_does (by decide +kernel) ?_
        exact hx2
      · exact hx2
  · refine Runs.ite (fun _ => ?_) (fun _ => ?_)
    · refine Runs.next ?_
      refine Does.call State.rewindStreams_does (by decide +kernel) ?_
      refine Does.call State.setLtssm_does (by decide +kernel) ?_
      exact hx3
    · refine Runs.next ?_
      exact hx2

theorem State.stall_does {s p x} : Does [.links] [] s (State.stall s p x) := by
  unfold State.stall
  extract_lets -underBinder -merge -useContext x1
  refine Does.call State.setLink_does (by decide +kernel) ?_
  exact Does.refl

theorem State.lctlNow_does {s l nak} : Does [.out, .links] [] s (State.lctlNow s l nak) := by
  unfold State.lctlNow
  extract_lets -underBinder -merge -useContext x1
  refine Does.call State.sentOn_does (by decide +kernel) ?_
  refine Does.call State.emit_does (by decide +kernel) ?_
  refine Does.call State.setLink_does (by decide +kernel) ?_
  exact Does.refl

theorem State.settleCredits_does {s p} : Does [.links] [] s (State.settleCredits s p) := by
  unfold State.settleCredits
  extract_lets -underBinder -merge -useContext x1 x2 x3
  refine Does.call State.setLink_does (by decide +kernel) ?_
  exact Does.refl

theorem State.lctlOut_does {s l nak} : Does [.out, .links] [] s (State.lctlOut s l nak) := by
  unfold State.lctlOut
  extract_lets -underBinder -merge -useContext x1 x2
  refine Does.lets x1 ?_ (fun hx1 => ?_)
  · unfold x1
    split
    · refine Does.call State.settleCredits_does (by decide +kernel) ?_
      exact Does.refl
    · exact Does.refl
  refine Does.ite (fun _ => ?_) (fun _ => ?_)
  · refine Does.call State.lctlNow_does (by decide +kernel) ?_
    exact hx1
  · refine Does.call State.setLink_does (by decide +kernel) ?_
    exact hx1

theorem State.malformed_does {s p} : Does [.agenda, .fresh] [13] s (State.malformed s p) := by
  unfold State.malformed
  refine Does.call State.raise_does (by decide +kernel) ?_
  refine Does.bump adr_LP_PROTO (by decide +kernel) ?_
  refine Does.latch adr_LNK_LAT (by decide +kernel) ?_
  exact Does.refl

theorem State.tagFail_does {s p} : Does [.agenda, .fresh, .sec, .mgt] [13, 16, 18] s (State.tagFail s p) := by
  unfold State.tagFail
  refine Does.call State.raise_does (by decide +kernel) ?_
  refine Does.bump adr_LP_SESFAIL (by decide +kernel) ?_
  refine Does.latch adr_LNK_LAT (by decide +kernel) ?_
  refine Does.call State.endSession_does (by decide +kernel) ?_
  exact Does.refl

theorem State.takeFrame_does {s p vc} : Does [.links] [] s (State.takeFrame s p vc) := by
  unfold State.takeFrame
  extract_lets -underBinder -merge -useContext x1
  refine Does.call State.setLink_does (by decide +kernel) ?_
  exact Does.refl

theorem Does.frame {ps bs s t p hd bad answer go} (w : within [.regs, .agenda, .fresh, .out, .links, .sec, .mgt] [] ps bs =
  true)
    (h : ∀ t, Does ps bs t (go t)) (g : Does ps bs s t) : Does ps bs s (State.frame t p hd bad answer go) := by
  unfold State.frame
  have h1 : Does [.regs, .agenda, .fresh, .out, .links, .sec, .mgt] [] t (t.takeFrame p hd.vc.toNat) :=
    State.takeFrame_does.mono (by decide +kernel)
  refine Does.ite (fun _ => g) (fun _ => ?_)
  split
  · refine Does.call (ps := [.regs, .agenda, .fresh, .out, .links, .sec, .mgt]) (bs := []) ?_ w g
    refine Does.call State.lctlOut_does (by decide +kernel) (Does.ite (fun _ => Does.refl) (fun _ => ?_))
    exact Does.bump_any (by decide +kernel) Does.refl
  · exact Does.call (ps := [.regs, .agenda, .fresh, .out, .links, .sec, .mgt]) (bs := []) (State.lctlOut_does.mono (by
    decide +kernel)) w g
  · refine Does.ite (fun _ => ?_) (fun _ => Does.ite (fun _ => ?_) (fun _ => Does.ite (fun _ => ?_) (fun _ => ?_)))
    · exact Does.call (State.tagFail_does.call (by decide +kernel) h1) w g
    · split
      · refine Does.call (ps := [.regs, .agenda, .fresh, .out, .links, .sec, .mgt]) (bs := []) (Does.call State.rdr_does (by
        decide +kernel) ?_) w g
        exact Does.call State.refuseHost_does (by decide +kernel) (State.malformed_does.call (by decide +kernel) h1)
      · exact Does.call (State.malformed_does.call (by decide +kernel) h1) w g
    · split
      · refine Does.call (ps := [.regs, .agenda, .fresh, .out, .links, .sec, .mgt]) (bs := []) (Does.call State.rdr_does (by
        decide +kernel) ?_) w g
        exact Does.call State.refuseHost_does (by decide +kernel) h1
      · exact h1.call w g
    · exact (h _).after (h1.call w g)

theorem Does.frameNone {ps bs s t p hd bad go} (w : within [.agenda, .fresh, .out, .links, .sec, .mgt] [13, 16, 18] ps bs =
  true)
    (h : ∀ t, Does ps bs t (go t)) (g : Does ps bs s t) : Does ps bs s (State.frame t p hd bad none go) := by
  unfold State.frame
  have h1 : Does [.agenda, .fresh, .out, .links, .sec, .mgt] [13, 16, 18] t (t.takeFrame p hd.vc.toNat) :=
    State.takeFrame_does.mono (by decide +kernel)
  refine Does.ite (fun _ => g) (fun _ => ?_)
  split
  · refine Does.call (ps := [.agenda, .fresh, .out, .links, .sec, .mgt]) (bs := [13, 16, 18]) ?_ w g
    refine Does.call State.lctlOut_does (by decide +kernel) (Does.ite (fun _ => Does.refl) (fun _ => ?_))
    exact Does.bump adr_LP_CRCERR (by decide +kernel) Does.refl
  · exact Does.call (ps := [.agenda, .fresh, .out, .links, .sec, .mgt]) (bs := [13, 16, 18]) (State.lctlOut_does.mono (by
    decide +kernel)) w g
  · refine Does.ite (fun _ => ?_) (fun _ => Does.ite (fun _ => ?_) (fun _ => Does.ite (fun _ => ?_) (fun _ => ?_)))
    · exact Does.call (State.tagFail_does.call (by decide +kernel) h1) w g
    · exact Does.call (State.malformed_does.call (by decide +kernel) h1) w g
    · exact h1.call w g
    · exact (h _).after (h1.call w g)

theorem State.performRead_does {s p f} : Does [.regs, .shadow, .agenda, .fresh, .out, .hbm, .links] [] s (State.performRead s
      p f) := by
  unfold State.performRead
  extract_lets -underBinder -merge -useContext x1 x2 x3 x4 x5
  refine Does.lets3 x2 ?_ (fun hx2 => ?_)
  · unfold x2
    refine Does3.call State.hostRead_does (by decide +kernel) ?_
    exact Does.refl
  refine Does.lets x4 ?_ (fun hx4 => ?_)
  · unfold x4
    refine Does3.snd ?_
    exact hx2
  refine Does.ite (fun _ => ?_) (fun _ => ?_)
  · refine Does.call State.hbmRequests_does (by decide +kernel) ?_
    refine Does.put_hbm (by decide +kernel) ?_
    exact hx4
  · refine Does.call State.rdr_does (by decide +kernel) ?_
    refine Does3.snd ?_
    exact hx2

theorem State.rdGo_does {s p f} : Does [.regs, .shadow, .agenda, .fresh, .out, .hbm, .links] [] s (State.rdGo s p f) := by
  unfold State.rdGo
  split
  · refine Does.ite (fun _ => ?_) (fun _ => ?_)
    · refine Does.call State.hold_does (by decide +kernel) ?_
      exact Does.refl
    · refine Does.call State.performRead_does (by decide +kernel) ?_
      exact Does.refl
  · refine Does.call State.performRead_does (by decide +kernel) ?_
    exact Does.refl

theorem execRd_runs {p f s} : Runs [.regs, .shadow, .agenda, .fresh, .out, .hbm, .links, .sec, .mgt] [] s (execRd p f s) := by
  unfold execRd
  extract_lets -underBinder -merge -useContext x1 x2
  refine Runs.next ?_
  refine Does.frame (by decide +kernel) ?_ ?_
  · intro y3
    beta_reduce
    refine Does.ite (fun _ => ?_) (fun _ => ?_)
    · refine Does.call State.stall_does (by decide +kernel) ?_
      exact Does.refl
    · refine Does.call State.rdGo_does (by decide +kernel) ?_
      exact Does.refl
  · exact Does.refl

theorem State.wrWords_does {s p f role quiet ws i st bad} : Does [.regs, .staging, .agenda, .free, .fresh, .out, .sched,
      .twn, .links] [] s (State.wrWords s p f role quiet ws i st bad) := by
  induction ws generalizing s i st bad with
  | nil =>
    unfold State.wrWords
    extract_lets -underBinder -merge -useContext x1 x2 x3 x4 x5
    have h3 : Does [.regs, .staging, .agenda, .free, .fresh, .out, .sched, .twn, .links] [] s x3 := by
      unfold x3
      exact Does.ite (fun _ => Does.call State.forwardWords_does (by decide +kernel) Does.refl) (fun _ => Does.refl)
    clear_value x3
    have h5 : Does [.regs, .staging, .agenda, .free, .fresh, .out, .sched, .twn, .links] [] s x5 := by
      unfold x5
      exact Does.ite (fun _ => Does.call State.setLink_does (by decide +kernel) h3) (fun _ => h3)
    clear_value x5
    exact Does.ite (fun _ => h5) (fun _ => Does.call State.rdr_does (by decide +kernel) h5)
  | cons w ws ih =>
    unfold State.wrWords
    extract_lets -underBinder -merge -useContext x1 x2 x3
    have h : Does3 [.regs, .staging, .agenda, .free, .fresh, .out, .sched, .twn, .links] [] s x2 := by
      unfold x2; exact Does3.call State.writeWords_does (by decide +kernel) Does.refl
    clear_value x2
    exact Does.ite (fun _ => Does.call State.setLink_does (by decide +kernel) h.snd) (fun _ => ih.after h.snd)

theorem State.wrGo_does {s p f role quiet} : Does [.regs, .staging, .agenda, .free, .fresh, .out, .sram, .hbmMem, .sched,
      .hbm, .twn, .links] [] s (State.wrGo s p f role quiet) := by
  unfold State.wrGo
  extract_lets -underBinder -merge -useContext x1 x2 x3
  refine Does.lets3 x3 ?_ (fun hx3 => ?_)
  · unfold x3
    refine Does3.call State.hostWrite_does (by decide +kernel) ?_
    exact Does.refl
  refine Does.ite (fun _ => ?_) (fun _ => ?_)
  · refine Does.call State.wrWords_does (by decide +kernel) ?_
    exact Does.refl
  · refine Does.ite (fun _ => ?_) (fun _ => ?_)
    · refine Does3.snd ?_
      exact hx3
    · refine Does.call State.rdr_does (by decide +kernel) ?_
      refine Does3.snd ?_
      exact hx3

theorem State.toRecovery_does {s l} : Does [.agenda, .fresh, .links] [13] s (State.toRecovery s l) := by
  unfold State.toRecovery
  extract_lets -underBinder -merge -useContext x1
  refine Does.lets x1 ?_ (fun hx1 => ?_)
  · unfold x1
    refine Does.call State.setLtssm_does (by decide +kernel) ?_
    exact Does.refl
  split
  · refine Does.bump adr_LP_RETRAIN (by decide +kernel) ?_
    exact hx1
  · refine Does.call State.raise_does (by decide +kernel) ?_
    refine Does.latch adr_LNK_LAT (by decide +kernel) ?_
    exact hx1
  · exact hx1

theorem State.resend_does {s l} : Does [.agenda, .fresh, .out, .links] [13] s (State.resend s l) := by
  unfold State.resend
  extract_lets -underBinder -merge -useContext x1 x2 x3 x4 x5 x6 x7 x8
  refine Does.lets x5 ?_ (fun hx5 => ?_)
  · unfold x5
    refine Does.call State.setLink_does (by decide +kernel) ?_
    exact Does.refl
  refine Does.lets x6 ?_ (fun hx6 => ?_)
  · unfold x6
    refine Does.call State.sentOn_does (by decide +kernel) ?_
    refine Does.put_out (by decide +kernel) ?_
    exact hx5
  refine Does.lets x7 ?_ (fun hx7 => ?_)
  · unfold x7
    split
    · refine Does.bumpBy adr_LP_REPLAY (by decide +kernel) ?_
      exact hx6
    · refine Does.bumpBy adr_LC_REPLAY (by decide +kernel) ?_
      exact hx6
  refine Does.lets x8 ?_ (fun hx8 => ?_)
  · unfold x8
    refine Does.call State.raise_does (by decide +kernel) ?_
    exact hx7
  refine Does.ite (fun _ => ?_) (fun _ => ?_)
  · exact Does.refl
  · split
    · refine Does.ite (fun _ => ?_) (fun _ => ?_)
      · refine Does.call State.toRecovery_does (by decide +kernel) ?_
        exact hx8
      · exact hx8
    · exact hx8

theorem execLctl_runs {l nak ackSeq limits crcGood s} : Runs [.agenda, .fresh, .out, .twn, .links] [13, 14] s (execLctl l nak
      ackSeq limits crcGood s) := by
  unfold execLctl
  extract_lets -underBinder -merge -useContext x1 x2 x3 x4 x5
  refine Runs.lets x3 ?_ (fun hx3 => ?_)
  · unfold x3
    split
    · refine Does.call State.peerHeard_does (by decide +kernel) ?_
      exact Does.refl
    · exact Does.refl
  refine Runs.lets x4 ?_ (fun hx4 => ?_)
  · unfold x4
    refine Does.call State.setLink_does (by decide +kernel) ?_
    exact hx3
  refine Runs.lets x5 ?_ (fun hx5 => ?_)
  · unfold x5
    refine Does.ite (fun _ => ?_) (fun _ => ?_)
    · refine Does.call State.resend_does (by decide +kernel) ?_
      exact hx4
    · exact hx4
  refine Runs.ite (fun _ => ?_) (fun _ => ?_)
  · refine Runs.next ?_
    exact Does.refl
  · refine Runs.ite (fun _ => ?_) (fun _ => ?_)
    · refine Runs.next ?_
      split
      · refine Does.bump adr_LP_CRCERR (by decide +kernel) ?_
        exact Does.refl
      · exact Does.refl
    · refine Runs.next ?_
      refine Does.call State.flush_does (by decide +kernel) ?_
      exact hx5

theorem execLinkDetect_runs {l s} : Runs [.links] [13] s (execLinkDetect l s) := by
  unfold execLinkDetect
  refine Runs.next ?_
  refine Does.ite (fun _ => ?_) (fun _ => ?_)
  · refine Does.call State.setLtssm_does (by decide +kernel) ?_
    exact Does.refl
  · exact Does.refl

theorem State.setPower_does {s l transmit v} : Does [.links] [13] s (State.setPower s l transmit v) := by
  unfold State.setPower
  split
  · refine Does.setFld adr_LP_STAT (by decide +kernel) ?_
    exact Does.refl
  · refine Does.ite (fun _ => ?_) (fun _ => ?_)
    · refine Does.setFld adr_LC_STAT (by decide +kernel) ?_
      exact Does.refl
    · exact Does.refl
  · extract_lets -underBinder -merge -useContext x1
    refine Does.call State.setLink_does (by decide +kernel) ?_
    exact Does.refl

theorem execRecoveryTimeout_runs {l s} : Runs [.agenda, .causes, .acq, .links, .sec, .mgt] [13, 16, 18] s
      (execRecoveryTimeout l s) := by
  unfold execRecoveryTimeout
  extract_lets -underBinder -merge -useContext x1
  refine Runs.lets x1 ?_ (fun hx1 => ?_)
  · unfold x1
    refine Does.call State.setLtssm_does (by decide +kernel) ?_
    exact Does.refl
  refine Runs.ite (fun _ => ?_) (fun _ => ?_)
  · split
    · refine Runs.next ?_
      refine Does.call State.portDown_does (by decide +kernel) ?_
      exact hx1
    · refine Runs.next ?_
      refine Does.call State.setLink_does (by decide +kernel) ?_
      exact hx1
    · refine Runs.next ?_
      exact hx1
  · refine Runs.next ?_
    exact Does.refl

theorem execLsEntry_runs {l transmit s} : Runs [.links] [13] s (execLsEntry l transmit s) := by
  unfold execLsEntry
  refine Runs.next ?_
  refine Does.ite (fun _ => ?_) (fun _ => ?_)
  · refine Does.call State.setPower_does (by decide +kernel) ?_
    exact Does.refl
  · exact Does.refl

theorem execWr_runs {p f s} : Runs [.regs, .staging, .agenda, .free, .fresh, .out, .sram, .hbmMem, .sched, .hbm, .twn,
      .links, .sec, .mgt] [] s (execWr p f s) := by
  unfold execWr
  extract_lets -underBinder -merge -useContext x1 x2 x3
  refine Runs.next ?_
  refine Does.frame (by decide +kernel) ?_ ?_
  · intro y4
    beta_reduce
    refine Does.ite (fun _ => ?_) (fun _ => ?_)
    · refine Does.call State.stall_does (by decide +kernel) ?_
      exact Does.refl
    · refine Does.call State.wrGo_does (by decide +kernel) ?_
      exact Does.refl
  · exact Does.refl

theorem execLdEntry_runs {p transmit s} : Runs [.links] [13] s (execLdEntry p transmit s) := by
  unfold execLdEntry
  refine Runs.next ?_
  refine Does.ite (fun _ => ?_) (fun _ => ?_)
  · refine Does.call State.setPower_does (by decide +kernel) ?_
    exact Does.refl
  · exact Does.refl

theorem execTrainTimeout_runs {l s} : Runs [.links] [13] s (execTrainTimeout l s) := by
  unfold execTrainTimeout
  refine Runs.next ?_
  refine Does.ite (fun _ => ?_) (fun _ => ?_)
  · refine Does.call State.setLtssm_does (by decide +kernel) ?_
    exact Does.refl
  · exact Does.refl

theorem execConfigDone_runs {l width rate s} : Runs [.agenda, .causes, .fresh, .links] [13] s (execConfigDone l width rate s) := by
  unfold execConfigDone
  refine Runs.ite (fun _ => ?_) (fun _ => ?_)
  · split
    · extract_lets -underBinder -merge -useContext x1 x2 x3
      refine Runs.lets x1 ?_ (fun hx1 => ?_)
      · unfold x1
        refine Does.call State.setWidth_does (by decide +kernel) ?_
        refine Does.call State.setLtssm_does (by decide +kernel) ?_
        exact Does.refl
      refine Runs.lets x3 ?_ (fun hx3 => ?_)
      · unfold x3
        refine Does.call State.setLink_does (by decide +kernel) ?_
        exact hx1
      refine Runs.next ?_
      refine Does.call State.judgeDegraded_does (by decide +kernel) ?_
      refine Does.call State.causeOff_does (by decide +kernel) ?_
      exact hx3
    · extract_lets -underBinder -merge -useContext x4 x5
      refine Runs.lets x4 ?_ (fun hx4 => ?_)
      · unfold x4
        refine Does.call State.setLtssm_does (by decide +kernel) ?_
        exact Does.refl
      refine Runs.ite (fun _ => ?_) (fun _ => ?_)
      · refine Runs.next ?_
        refine Does.call State.setLtssm_does (by decide +kernel) ?_
        exact Does.refl
      · refine Runs.next ?_
        refine Does.call State.setLink_does (by decide +kernel) ?_
        exact hx4
    · refine Runs.next ?_
      refine Does.call State.causeOff_does (by decide +kernel) ?_
      refine Does.call State.setLtssm_does (by decide +kernel) ?_
      exact Does.refl
    · refine Runs.next ?_
      refine Does.call State.setLtssm_does (by decide +kernel) ?_
      exact Does.refl
  · refine Runs.next ?_
    exact Does.refl

theorem execLpRetrain_runs {p s} : Runs [.agenda, .fresh, .links] [13] s (execLpRetrain p s) := by
  unfold execLpRetrain
  refine Runs.next ?_
  refine Does.ite (fun _ => ?_) (fun _ => ?_)
  · refine Does.call State.toRecovery_does (by decide +kernel) ?_
    exact Does.refl
  · exact Does.refl

theorem execStrm_runs {p h cls taken s} : Runs [.agenda, .causes, .fresh, .out, .hbmMem, .acq, .hbm, .links, .sec, .mgt] [10,
      12, 13, 16, 18] s (execStrm p h cls taken s) := by
  unfold execStrm
  extract_lets -underBinder -merge -useContext x1
  refine Runs.next ?_
  refine Does.frameNone (by decide +kernel) ?_ ?_
  · intro y2
    beta_reduce
    refine Does.ite (fun _ => ?_) (fun _ => ?_)
    · refine Does.call State.takeRecords_does (by decide +kernel) ?_
      exact Does.refl
    · exact Does.refl
  · exact Does.refl

theorem execLctlSend_runs {l s} : Runs [.out, .links] [] s (execLctlSend l s) := by
  unfold execLctlSend
  refine Runs.next ?_
  refine Does.ite (fun _ => ?_) (fun _ => ?_)
  · refine Does.call State.lctlOut_does (by decide +kernel) ?_
    exact Does.refl
  · exact Does.refl

theorem execLinkWake_runs {l transmit s} : Runs [.out, .links] [13] s (execLinkWake l transmit s) := by
  unfold execLinkWake
  extract_lets -underBinder -merge -useContext x1 x2
  refine Runs.lets x1 ?_ (fun hx1 => ?_)
  · unfold x1
    refine Does.call State.setPower_does (by decide +kernel) ?_
    exact Does.refl
  refine Runs.lets x2 ?_ (fun hx2 => ?_)
  · unfold x2
    split
    · refine Does.call State.lctlNow_does (by decide +kernel) ?_
      exact hx1
    · exact hx1
  refine Runs.ite (fun _ => ?_) (fun _ => ?_)
  · refine Runs.next ?_
    refine Does.call State.flush_does (by decide +kernel) ?_
    exact hx2
  · refine Runs.next ?_
    exact hx1

theorem State.drainStalled_does {s p n} : Does [.regs, .staging, .shadow, .agenda, .free, .fresh, .out, .sram, .hbmMem,
      .sched, .hbm, .twn, .links] [] s (State.drainStalled s p n) := by
  induction n generalizing s with
  | zero => exact Does.refl
  | succ n ih =>
    unfold State.drainStalled
    refine Does.ite (fun _ => Does.refl) (fun _ => ?_)
    split
    · exact Does.refl
    · extract_lets -underBinder -merge -useContext x1 x2
      have h : Does [.regs, .staging, .shadow, .agenda, .free, .fresh, .out, .sram, .hbmMem, .sched, .hbm, .twn, .links] [] s x2 := by
        unfold x2; exact Does.call State.setLink_does (by decide +kernel) Does.refl
      clear_value x2
      split
      · exact ih.after (Does.call State.rdGo_does (by decide +kernel) h)
      · refine Does.ite (fun _ => ih.after (Does.call State.wrGo_does (by decide +kernel) h)) (fun _ => ih.after ?_)
        refine Does.call State.wrWords_does (by decide +kernel) ?_
        exact Does.ite (fun _ => Does.call State.reject_any (by decide +kernel) h) (fun _ => h)

theorem execPollDone_runs {l s} : Runs [.links] [13] s (execPollDone l s) := by
  unfold execPollDone
  refine Runs.next ?_
  refine Does.ite (fun _ => ?_) (fun _ => ?_)
  · refine Does.call State.setLtssm_does (by decide +kernel) ?_
    exact Does.refl
  · exact Does.refl

theorem execReplayTimeout_runs {l s} : Runs [.agenda, .fresh, .out, .links] [13] s (execReplayTimeout l s) := by
  unfold execReplayTimeout
  refine Runs.next ?_
  refine Does.ite (fun _ => ?_) (fun _ => ?_)
  · refine Does.call State.resend_does (by decide +kernel) ?_
    exact Does.refl
  · exact Does.refl

theorem execLossOfAlignment_runs {l s} : Runs [.agenda, .causes, .fresh, .links] [1, 13] s (execLossOfAlignment l s) := by
  unfold execLossOfAlignment
  extract_lets -underBinder -merge -useContext x1
  refine Runs.lets x1 ?_ (fun hx1 => ?_)
  · unfold x1
    refine Does.ite (fun _ => ?_) (fun _ => ?_)
    · refine Does.call State.toRecovery_does (by decide +kernel) ?_
      exact Does.refl
    · exact Does.refl
  split
  · extract_lets -underBinder -merge -useContext x2
    refine Runs.lets x2 ?_ (fun hx2 => ?_)
    · unfold x2
      refine Does.ite (fun _ => ?_) (fun _ => ?_)
      · refine Does.setBit adr_TBS_STATE (by decide +kernel) ?_
        exact hx1
      · exact hx1
    refine Runs.next ?_
    refine Does.ite (fun _ => ?_) (fun _ => ?_)
    · exact hx2
    · refine Does.call State.raise_does (by decide +kernel) ?_
      refine Does.call State.causeOn_does (by decide +kernel) ?_
      exact hx2
  · refine Runs.next ?_
    exact hx1

end Sys2Proof.Machine
end

