-- ==== Sys2Proof/Laws/Blocks.lean ====
section
/-! SUPPORT. What each operation of Machine/Blocks.lean may change (Laws/Frame.lean says how to read it). -/
namespace Sys2Proof.Machine

set_option Elab.async false

theorem State.bgAbortEngines_does {s latch} : Does [.fresh, .sram, .engs] [6] s (State.bgAbortEngines s latch) := by
  unfold State.bgAbortEngines
  refine Does.foldl ?_ ?_
  · intro y1 y2
    beta_reduce
    refine Does.call State.bgAbortAll_does (by decide +kernel) ?_
    exact Does.refl
  · exact Does.refl

theorem State.lpeOff_does {s} : Does [.causes, .fresh, .sram, .chans, .engs, .loops] [6] s (State.lpeOff s) := by
  unfold State.lpeOff
  refine Does.foldl ?_ ?_
  · intro y1 y2
    beta_reduce
    refine Does.call State.unmatch_does (by decide +kernel) ?_
    refine Does.call State.loopStops_does (by decide +kernel) ?_
    exact Does.refl
  · refine Does.call State.bgAbortEngines_does (by decide +kernel) ?_
    exact Does.refl

theorem State.lpeOn_does {s} : Does [.loops] [] s (State.lpeOn s) := by
  unfold State.lpeOn
  refine Does.foldl ?_ ?_
  · intro y1 y2
    beta_reduce
    refine Does.ite (fun _ => ?_) (fun _ => ?_)
    · refine Does.call State.loopStarts_does (by decide +kernel) ?_
      exact Does.refl
    · exact Does.refl
  · exact Does.refl

theorem State.resetRegs_does {s b cls keep} : Does [.regs] [] s (State.resetRegs s b cls keep) := by
  unfold State.resetRegs
  refine Does.foldl ?_ ?_
  · intro y1 y2
    beta_reduce
    refine Does.ite (fun _ => ?_) (fun _ => ?_)
    · refine Does.setReg_any (by decide +kernel) ?_
      exact Does.refl
    · exact Does.refl
  · exact Does.refl

theorem State.resetHbm_does {s} : Does [.regs, .fresh, .out, .hbmMem, .hbm, .links] [] s (State.resetHbm s) := by
  unfold State.resetHbm
  extract_lets -underBinder -merge -useContext x1 x2
  refine Does.lets x2 ?_ (fun hx2 => ?_)
  · unfold x2
    refine Does.setFld_any (by decide +kernel) ?_
    refine Does.call State.resetRegs_does (by decide +kernel) ?_
    refine Does.call State.hbmDiscard_does (by decide +kernel) ?_
    exact Does.refl
  refine Does.put_hbm (by decide +kernel) ?_
  exact hx2

theorem State.schedDown_does {s} : Does [.regs, .agenda, .causes, .sram, .tasks, .sched] [] s (State.schedDown s) := by
  unfold State.schedDown
  refine Does.call State.resetRegs_does (by decide +kernel) ?_
  refine Does.call State.resetRegs_does (by decide +kernel) ?_
  refine Does.call State.schedReset_does (by decide +kernel) ?_
  exact Does.refl

theorem State.blockOff_does {s b} : Does [.regs, .agenda, .causes, .fresh, .out, .sram, .tbs, .chans, .pins, .codes, .meas,
      .engs, .loops, .quants, .ships, .players, .tasks, .sched, .acq, .cals, .calRec] [] s (State.blockOff s b) := by
  unfold State.blockOff
  refine Does.ite (fun _ => ?_) (fun _ => ?_)
  · refine Does.call State.tbsOff_does (by decide +kernel) ?_
    exact Does.refl
  · refine Does.ite (fun _ => ?_) (fun _ => ?_)
    · refine Does.call State.schedDown_does (by decide +kernel) ?_
      exact Does.refl
    · refine Does.ite (fun _ => ?_) (fun _ => ?_)
      · refine Does.call State.lpeOff_does (by decide +kernel) ?_
        exact Does.refl
      · refine Does.ite (fun _ => ?_) (fun _ => ?_)
        · refine Does.call State.segOff_does (by decide +kernel) ?_
          exact Does.refl
        · refine Does.ite (fun _ => ?_) (fun _ => ?_)
          · refine Does.call State.acqOff_does (by decide +kernel) ?_
            exact Does.refl
          · refine Does.ite (fun _ => ?_) (fun _ => ?_)
            · refine Does.call State.seqEndAll_does (by decide +kernel) ?_
              exact Does.refl
            · refine Does.ite (fun _ => ?_) (fun _ => ?_)
              · refine Does.call State.cutCode_does (by decide +kernel) ?_
                refine Does.call State.dllOff_does (by decide +kernel) ?_
                refine Does.call State.islandDriversOff_does (by decide +kernel) ?_
                exact Does.refl
              · exact Does.refl

theorem State.linksDetect_does {s} : Does [.links] [13] s (State.linksDetect s) := by
  unfold State.linksDetect
  extract_lets -underBinder -merge -useContext x1
  refine Does.letsF1 x1 ?_ (fun hx1 => ?_)
  · intro y2 y3; unfold x1
    refine Does.ite (fun _ => ?_) (fun _ => ?_)
    · refine Does.call State.setLtssm_does (by decide +kernel) ?_
      exact Does.refl
    · exact Does.refl
  refine Does.call State.setLtssm_does (by decide +kernel) ?_
  refine Does.call State.setLtssm_does (by decide +kernel) ?_
  refine Does.call State.setLtssm_does (by decide +kernel) ?_
  refine (hx1 _ _).after ?_
  refine (hx1 _ _).after ?_
  exact Does.refl

theorem State.setEn_any {s b on} : Does [.regs] [] s (State.setEn s b on) := Does.setReg_any (by decide) Does.refl

theorem State.setEn_does {s b on} : Does [] [min 64 b] s (State.setEn s b on) :=
  Does.setReg_in (.inr (by unfold regBlk; simp only [List.mem_singleton]; omega)) Does.refl

theorem State.setEn_isl {s n on} : Does [] [64] s (State.setEn s (64 + n) on) :=
  State.setEn_does.call (by simp [within]) Does.refl

theorem State.blockOn_does {s b} : Does [.regs, .causes, .fresh, .tbs, .dlls, .loops, .acq, .hbm, .links] [] s (State.blockOn
      s b) := by
  unfold State.blockOn
  extract_lets -underBinder -merge -useContext x1
  refine Does.lets x1 ?_ (fun hx1 => ?_)
  · unfold x1
    refine Does.call State.setEn_any (by decide +kernel) ?_
    exact Does.refl
  refine Does.ite (fun _ => ?_) (fun _ => ?_)
  · exact Does.refl
  · refine Does.ite (fun _ => ?_) (fun _ => ?_)
    · refine Does.call State.tbsOn_does (by decide +kernel) ?_
      exact hx1
    · refine Does.ite (fun _ => ?_) (fun _ => ?_)
      · refine Does.call State.lpeOn_does (by decide +kernel) ?_
        exact hx1
      · refine Does.ite (fun _ => ?_) (fun _ => ?_)
        · refine Does.call State.acqOn_does (by decide +kernel) ?_
          exact hx1
        · refine Does.ite (fun _ => ?_) (fun _ => ?_)
          · refine Does.call State.hbmUnhold_does (by decide +kernel) ?_
            exact hx1
          · refine Does.ite (fun _ => ?_) (fun _ => ?_)
            · refine Does.call State.linksDetect_does (by decide +kernel) ?_
              exact hx1
            · refine Does.ite (fun _ => ?_) (fun _ => ?_)
              · refine Does.call State.dllOn_does (by decide +kernel) ?_
                exact hx1
              · exact hx1

theorem execBlkCtlWrite_runs {by_ blk en s} : Runs [.regs, .agenda, .causes, .fresh, .out, .sram, .tbs, .chans, .pins,
      .codes, .meas, .dlls, .engs, .loops, .quants, .ships, .players, .tasks, .sched, .acq, .hbm, .cals, .calRec, .links] []
      s (execBlkCtlWrite by_ blk en s) := by
  unfold execBlkCtlWrite
  extract_lets -underBinder -merge -useContext x1
  refine Runs.ite (fun _ => ?_) (fun _ => ?_)
  · refine Runs.next ?_
    exact Does.refl
  · refine Runs.ite (fun _ => ?_) (fun _ => ?_)
    · refine Runs.next ?_
      refine Does.ite (fun _ => ?_) (fun _ => ?_)
      · refine Does.call State.blockOn_does (by decide +kernel) ?_
        exact Does.refl
      · refine Does.call State.rejectVal_any (by decide +kernel) ?_
        exact Does.refl
    · refine Runs.ite (fun _ => ?_) (fun _ => ?_)
      · refine Runs.next ?_
        refine Does.call State.blockOn_does (by decide +kernel) ?_
        exact Does.refl
      · refine Runs.ite (fun _ => ?_) (fun _ => ?_)
        · refine Runs.next ?_
          refine Does.call State.setEn_any (by decide +kernel) ?_
          refine Does.call State.blockOff_does (by decide +kernel) ?_
          exact Does.refl
        · refine Runs.next ?_
          exact Does.refl

theorem State.endCauses_does {s f} : Does [.causes] [] s (State.endCauses s f) := by
  unfold State.endCauses
  refine Does.put_causes (by decide +kernel) ?_
  exact Does.refl

theorem State.resetAcq_does {s} : Does [.regs, .causes, .acq] [] s (State.resetAcq s) := by
  unfold State.resetAcq
  extract_lets -underBinder -merge -useContext x1 x2 x3 x4
  refine Does.lets x3 ?_ (fun hx3 => ?_)
  · unfold x3
    refine Does.call State.resetRegs_does (by decide +kernel) ?_
    refine Does.call State.resetRegs_does (by decide +kernel) ?_
    exact Does.refl
  refine Does.lets x4 ?_ (fun hx4 => ?_)
  · unfold x4
    refine Does.setBit_any (by decide +kernel) ?_
    exact hx3
  refine Does.call State.endCauses_does (by decide +kernel) ?_
  refine Does.put_acq (by decide +kernel) ?_
  exact hx4

theorem State.resetCal_does {s} : Does [.regs, .agenda, .fresh, .out, .codes, .meas, .loops, .quants, .ships, .cals, .calRec]
      [] s (State.resetCal s) := by
  unfold State.resetCal
  extract_lets -underBinder -merge -useContext x1 x2 x3 x4
  refine Does.lets x1 ?_ (fun hx1 => ?_)
  · unfold x1
    refine Does.call State.seqEndAll_does (by decide +kernel) ?_
    exact Does.refl
  refine Does.lets x3 ?_ (fun hx3 => ?_)
  · unfold x3
    refine Does.call State.resetRegs_does (by decide +kernel) ?_
    exact hx1
  refine Does.put_calRec (by decide +kernel) ?_
  exact hx3

theorem State.resetIsland_does {s n} : Does [.regs, .causes, .fresh, .chans, .pins, .codes, .meas, .stampers, .tacs, .mons,
      .quants, .ships, .twn] [] s (State.resetIsland s n) := by
  unfold State.resetIsland
  extract_lets -underBinder -merge -useContext x1 x2 x3 x4 x5 x6 x7 x8
  refine Does.lets x1 ?_ (fun hx1 => ?_)
  · unfold x1
    refine Does.call State.cutCode_does (by decide +kernel) ?_
    refine Does.call State.dllOff_does (by decide +kernel) ?_
    refine Does.call State.islandDriversOff_does (by decide +kernel) ?_
    exact Does.refl
  refine Does.lets x2 ?_ (fun hx2 => ?_)
  · unfold x2
    refine Does.foldl ?_ ?_
    · intro y9 y10
      beta_reduce
      refine Does.call State.muOff_does (by decide +kernel) ?_
      exact Does.refl
    · exact hx1
  refine Does.lets x3 ?_ (fun hx3 => ?_)
  · unfold x3
    refine Does.foldl ?_ ?_
    · intro y11 y12
      beta_reduce
      refine Does.call State.monChange_does (by decide +kernel) ?_
      exact Does.refl
    · exact hx2
  refine Does.lets x4 ?_ (fun hx4 => ?_)
  · unfold x4
    refine Does.call State.resetRegs_does (by decide +kernel) ?_
    exact hx3
  refine Does.lets x7 ?_ (fun hx7 => ?_)
  · unfold x7
    clear_value x4
    refine Does.put (t := x4) [.chans, .meas, .stampers, .tacs, .mons] ?_ (by decide +kernel) ?_ ?_ ?_ ?_ ?_
    · exact hx4
    · rfl
    · rfl
    · rfl
    · rfl
    · intro p hp; cases p <;> first | exact absurd (by decide) hp | rfl
  refine Does.lets x8 ?_ (fun hx8 => ?_)
  · unfold x8
    refine Does.call State.endCauses_does (by decide +kernel) ?_
    exact hx7
  refine Does.foldl ?_ ?_
  · intro y13 y14
    beta_reduce
    refine Does.call State.settleInh_does (by decide +kernel) ?_
    exact Does.refl
  · exact hx8

theorem State.resetLnk_does {s} : Does [.regs, .agenda, .causes, .acq, .links, .sec, .mgt] [] s (State.resetLnk s) := by
  unfold State.resetLnk
  extract_lets -underBinder -merge -useContext x1 x2 x3 x4
  refine Does.letsF1 x1 ?_ (fun hx1 => ?_)
  · intro y5 y6; unfold x1
    refine Does.ite (fun _ => ?_) (fun _ => ?_)
    · refine Does.call State.portDown_does (by decide +kernel) ?_
      exact Does.refl
    · refine Does.call State.endSession_does (by decide +kernel) ?_
      exact Does.refl
  refine Does.lets x2 ?_ (fun hx2 => ?_)
  · unfold x2
    refine (hx1 _ _).after ?_
    refine (hx1 _ _).after ?_
    exact Does.refl
  refine Does.lets x4 ?_ (fun hx4 => ?_)
  · unfold x4
    refine Does.call State.resetRegs_does (by decide +kernel) ?_
    refine Does.call State.setLink_does (by decide +kernel) ?_
    refine Does.call State.setLink_does (by decide +kernel) ?_
    refine Does.put_links (by decide +kernel) ?_
    exact hx2
  refine Does.call State.endCauses_does (by decide +kernel) ?_
  refine Does.call State.linksDetect_does (by decide +kernel) ?_
  refine Does.call State.setEn_any (by decide +kernel) ?_
  exact hx4

theorem State.resetLpe_does {s} : Does [.regs, .causes, .fresh, .sram, .engs, .loops] [] s (State.resetLpe s) := by
  unfold State.resetLpe
  extract_lets -underBinder -merge -useContext x1 x2 x3 x4 x5 x6
  refine Does.lets x1 ?_ (fun hx1 => ?_)
  · unfold x1
    refine Does.call State.bgAbortEngines_does (by decide +kernel) ?_
    exact Does.refl
  refine Does.letsF1 x3 ?_ (fun hx3 => ?_)
  · intro y7 y8; unfold x3
    extract_lets -underBinder -merge -useContext x9 x10 x11 x12
    refine Does.call State.setLch_does (by decide +kernel) ?_
    refine Does.setReg_any (by decide +kernel) ?_
    refine Does.setReg_any (by decide +kernel) ?_
    exact Does.refl
  refine Does.letsF1 x4 ?_ (fun hx4 => ?_)
  · intro y13 y14; unfold x4
    extract_lets -underBinder -merge -useContext x15
    refine Does.setReg_any (by decide +kernel) ?_
    exact Does.refl
  refine Does.lets x5 ?_ (fun hx5 => ?_)
  · unfold x5
    refine Does.foldl ?_ ?_
    · intro y16 y17
      refine (hx4 _ _).after ?_
      exact Does.refl
    · refine Does.call State.resetRegs_does (by decide +kernel) ?_
      exact hx1
  refine Does.lets x6 ?_ (fun hx6 => ?_)
  · unfold x6
    refine Does.foldl ?_ ?_
    · intro y18 y19
      refine (hx3 _ _).after ?_
      exact Does.refl
    · exact hx5
  refine Does.call State.endCauses_does (by decide +kernel) ?_
  refine Does.put_engs (by decide +kernel) ?_
  exact hx6

theorem State.resetStr_does {s} : Does [.regs, .str] [] s (State.resetStr s) := by
  unfold State.resetStr
  extract_lets -underBinder -merge -useContext x1 x2 x3 x4
  refine Does.lets x1 ?_ (fun hx1 => ?_)
  · unfold x1
    refine Does.call State.dropChecked_does (by decide +kernel) ?_
    exact Does.refl
  refine Does.setReg_any (by decide +kernel) ?_
  refine Does.call State.resetRegs_does (by decide +kernel) ?_
  exact hx1

theorem State.resetTbs_does {s} : Does [.regs, .agenda, .causes, .tbs] [] s (State.resetTbs s) := by
  unfold State.resetTbs
  extract_lets -underBinder -merge -useContext x1 x2 x3 x4
  refine Does.lets x1 ?_ (fun hx1 => ?_)
  · unfold x1
    refine Does.call State.tbsOff_does (by decide +kernel) ?_
    exact Does.refl
  refine Does.lets x4 ?_ (fun hx4 => ?_)
  · unfold x4
    refine Does.setReg_any (by decide +kernel) ?_
    refine Does.call State.resetRegs_does (by decide +kernel) ?_
    exact hx1
  refine Does.call State.causeOff_does (by decide +kernel) ?_
  refine Does.put_tbs (by decide +kernel) ?_
  exact hx4

theorem State.blockReset_does {s b} : Does (Part.but [.pending, .count, .staging, .shadow, .free, .raised, .merged, .dueNow,
      .spill, .dlls, .ctl, .power]) [] s (State.blockReset s b) := by
  unfold State.blockReset
  refine Does.ite (fun _ => ?_) (fun _ => ?_)
  · refine Does.call State.resetTbs_does (by decide +kernel) ?_
    exact Does.refl
  · refine Does.ite (fun _ => ?_) (fun _ => ?_)
    · refine Does.call State.resetRegs_does (by decide +kernel) ?_
      exact Does.refl
    · refine Does.ite (fun _ => ?_) (fun _ => ?_)
      · refine Does.call State.resetRegs_does (by decide +kernel) ?_
        refine Does.call State.schedDown_does (by decide +kernel) ?_
        exact Does.refl
      · refine Does.ite (fun _ => ?_) (fun _ => ?_)
        · refine Does.call State.clearFigures_does (by decide +kernel) ?_
          refine Does.call State.resetRegs_does (by decide +kernel) ?_
          refine Does.call State.schedDown_does (by decide +kernel) ?_
          exact Does.refl
        · refine Does.ite (fun _ => ?_) (fun _ => ?_)
          · refine Does.call State.resetLpe_does (by decide +kernel) ?_
            exact Does.refl
          · refine Does.ite (fun _ => ?_) (fun _ => ?_)
            · refine Does.call State.resetRegs_does (by decide +kernel) ?_
              refine Does.call State.segReset_does (by decide +kernel) ?_
              exact Does.refl
            · refine Does.ite (fun _ => ?_) (fun _ => ?_)
              · refine Does.call State.resetAcq_does (by decide +kernel) ?_
                exact Does.refl
              · refine Does.ite (fun _ => ?_) (fun _ => ?_)
                · refine Does.call State.resetHbm_does (by decide +kernel) ?_
                  exact Does.refl
                · refine Does.ite (fun _ => ?_) (fun _ => ?_)
                  · refine Does.call State.resetLnk_does (by decide +kernel) ?_
                    exact Does.refl
                  · refine Does.ite (fun _ => ?_) (fun _ => ?_)
                    · refine Does.call State.resetRegs_does (by decide +kernel) ?_
                      exact Does.refl
                    · refine Does.ite (fun _ => ?_) (fun _ => ?_)
                      · refine Does.call State.resetCal_does (by decide +kernel) ?_
                        exact Does.refl
                      · refine Does.ite (fun _ => ?_) (fun _ => ?_)
                        · refine Does.call State.resetStr_does (by decide +kernel) ?_
                          exact Does.refl
                        · refine Does.ite (fun _ => ?_) (fun _ => ?_)
                          · refine Does.call State.resetIsland_does (by decide +kernel) ?_
                            exact Does.refl
                          · exact Does.refl

theorem execRstcmdBlock_runs {by_ code s} : Runs (Part.but [.pending, .count, .staging, .shadow, .free, .raised, .merged,
      .dueNow, .spill, .dlls, .ctl, .power]) [] s (execRstcmdBlock by_ code s) := by
  unfold execRstcmdBlock
  split
  · refine Runs.ite (fun _ => ?_) (fun _ => ?_)
    · refine Runs.next ?_
      refine Does.call State.rejectVal_any (by decide +kernel) ?_
      exact Does.refl
    · refine Runs.next ?_
      refine Does.call State.blockReset_does (by decide +kernel) ?_
      exact Does.refl
  · refine Runs.next ?_
    refine Does.call State.rejectVal_any (by decide +kernel) ?_
    exact Does.refl

end Sys2Proof.Machine
end

