-- ==== Sys2Proof/Laws/Reset.lean ====
section
/-! SUPPORT. What each operation of Machine/Reset.lean may change (Laws/Frame.lean says how to read it). -/
namespace Sys2Proof.Machine

set_option Elab.async false

theorem State.releaseDie_does {s} : Does [.regs, .agenda, .causes, .fresh, .tbs, .dlls, .loops, .acq, .hbm, .links] [] s
      (State.releaseDie s) := by
  unfold State.releaseDie
  extract_lets -underBinder -merge -useContext x1 x2 x3
  refine Does.lets x1 ?_ (fun hx1 => ?_)
  · unfold x1
    refine Does.call State.blockOn_does (by decide +kernel) ?_
    refine Does.call State.blockOn_does (by decide +kernel) ?_
    refine Does.call State.blockOn_does (by decide +kernel) ?_
    refine Does.call State.blockOn_does (by decide +kernel) ?_
    refine Does.call State.blockOn_does (by decide +kernel) ?_
    exact Does.refl
  refine Does.lets x2 ?_ (fun hx2 => ?_)
  · unfold x2
    refine Does.latch_any (by decide +kernel) ?_
    refine Does.setFld_any (by decide +kernel) ?_
    exact hx1
  refine Does.lets x3 ?_ (fun hx3 => ?_)
  · unfold x3
    refine Does.call State.trainAt_does (by decide +kernel) ?_
    exact hx2
  refine Does.ite (fun _ => ?_) (fun _ => ?_)
  · refine Does.call State.raise_does (by decide +kernel) ?_
    exact hx3
  · exact hx3

theorem State.releaseLimited_does {s} : Does [.regs, .causes, .fresh, .tbs, .dlls, .loops, .acq, .hbm, .links] [] s
      (State.releaseLimited s) := by
  unfold State.releaseLimited
  refine Does.call State.blockOn_does (by decide +kernel) ?_
  refine Does.call State.blockOn_does (by decide +kernel) ?_
  exact Does.refl

theorem State.tryRelease_does {s left} : Does [.regs, .agenda, .causes, .fresh, .tbs, .dlls, .loops, .acq, .hbm, .links,
      .power] [] s (State.tryRelease s left) := by
  unfold State.tryRelease
  extract_lets -underBinder -merge -useContext x1 x2 x3
  refine Does.lets x2 ?_ (fun hx2 => ?_)
  · unfold x2
    refine Does.put_power (by decide +kernel) ?_
    exact Does.refl
  refine Does.lets x3 ?_ (fun hx3 => ?_)
  · unfold x3
    refine Does.ite (fun _ => ?_) (fun _ => ?_)
    · exact hx2
    · refine Does.call State.raise_does (by decide +kernel) ?_
      refine Does.call State.causeOn_does (by decide +kernel) ?_
      exact hx2
  refine Does.ite (fun _ => ?_) (fun _ => ?_)
  · exact hx2
  · refine Does.ite (fun _ => ?_) (fun _ => ?_)
    · refine Does.call State.releaseLimited_does (by decide +kernel) ?_
      exact hx3
    · refine Does.call State.releaseDie_does (by decide +kernel) ?_
      exact hx3

theorem execResetRelease_runs {rstNHigh s} : Runs [.regs, .agenda, .causes, .fresh, .tbs, .dlls, .loops, .acq, .hbm, .links, .power]
      [] s (execResetRelease rstNHigh s) := by
  unfold execResetRelease
  refine Runs.next ?_
  refine Does.call State.tryRelease_does (by decide +kernel) ?_
  exact Does.refl

theorem State.recoverHss_does {s good} : Does [.agenda, .causes, .fresh, .sec] [18] s (State.recoverHss s good) := by
  unfold State.recoverHss
  extract_lets -underBinder -merge -useContext x1 x2 x3 x4 x5 x6
  refine Does.lets x5 ?_ (fun hx5 => ?_)
  · unfold x5
    refine Does.put_sec (by decide +kernel) ?_
    exact Does.refl
  refine Does.lets x6 ?_ (fun hx6 => ?_)
  · unfold x6
    refine Does.ite (fun _ => ?_) (fun _ => ?_)
    · exact hx5
    · refine Does.ite (fun _ => ?_) (fun _ => ?_)
      · refine Does.setBit adr_SEC_HSSE (by decide +kernel) ?_
        exact hx5
      · refine Does.latch adr_SEC_STAT (by decide +kernel) ?_
        exact hx5
  refine Does.call State.showHss_does (by decide +kernel) ?_
  exact hx6

theorem execInputReturn_runs {s} : Runs [.causes, .power] [] s (execInputReturn s) := by
  unfold execInputReturn
  extract_lets -underBinder -merge -useContext x1
  refine Runs.next ?_
  refine Does.call State.causeOff_does (by decide +kernel) ?_
  refine Does.put_power (by decide +kernel) ?_
  exact Does.refl

theorem State.dieBare_does {s} : Does (Part.but [.pending, .free, .out, .spill]) [] s (State.dieBare s) := by
  unfold State.dieBare
  extract_lets -underBinder -merge -useContext x1 x2 x3
  refine Does.putAny (t := s) [.count, .regs, .staging, .shadow, .agenda, .causes, .fresh, .raised, .merged, .dueNow, .sram,
    .hbmMem, .tbs, .chans, .pins, .codes, .meas, .stampers, .tacs, .dlls, .mons, .engs, .loops, .quants, .ships, .ctl,
    .players, .seg, .tasks, .sched, .acq, .hbm, .cals, .calRec, .twn, .links, .str, .sec, .mgt, .power] ?_ (by
    decide +kernel) (by decide +kernel) ?_ ?_
  · exact Does.refl
  · intro c; unfold State.Canonical; dsimp only; exact ⟨Tab.wf_filter _ _ _ c.1, rfl, (State.hbmFlush_does.canon c).2.2.1,
    c.2.2.2⟩
  · intro p hp; cases p <;> first | exact absurd (by decide) hp | rfl

theorem State.showOven_does {s} : Does [] [1] s (State.showOven s) := by
  unfold State.showOven
  refine Does.setBit adr_TBS_STATE (by decide +kernel) ?_
  exact Does.refl

theorem State.dieCleared_does {s} : Does (Part.but [.pending, .free, .out, .spill]) [] s (State.dieCleared s) := by
  unfold State.dieCleared
  refine Does.call State.showOven_does (by decide +kernel) ?_
  refine Does.call State.dieBare_does (by decide +kernel) ?_
  exact Does.refl

theorem State.engineDieReset_does {s cause} : Does (Part.but [.pending, .free, .out, .spill]) [] s (State.engineDieReset s
      cause) := by
  unfold State.engineDieReset
  extract_lets -underBinder -merge -useContext x1 x2 x3 x4 x5 x6
  refine Does.lets x4 ?_ (fun hx4 => ?_)
  · unfold x4
    refine Does.call State.dieCleared_does (by decide +kernel) ?_
    refine Does.call State.endSession_does (by decide +kernel) ?_
    refine Does.call State.endSession_does (by decide +kernel) ?_
    exact Does.refl
  refine Does.lets x5 ?_ (fun hx5 => ?_)
  · unfold x5
    refine Does.setReg_any (by decide +kernel) ?_
    exact hx4
  refine Does.put_power (by decide +kernel) ?_
  exact hx5

theorem State.bootTrial_does {s} : Does [.agenda, .fresh] [16] s (State.bootTrial s) := by
  unfold State.bootTrial
  extract_lets -underBinder -merge -useContext x1
  refine Does.ite (fun _ => ?_) (fun _ => ?_)
  · refine Does.ite (fun _ => ?_) (fun _ => ?_)
    · refine Does.call State.raise_does (by decide +kernel) ?_
      refine Does.latch adr_MGT_LAT (by decide +kernel) ?_
      refine Does.setBit adr_MGT_FW (by decide +kernel) ?_
      refine Does.setFld adr_MGT_FW (by decide +kernel) ?_
      exact Does.refl
    · refine Does.setFld adr_MGT_FW (by decide +kernel) ?_
      exact Does.refl
  · exact Does.refl

theorem execInputOutOfRange_runs {s} : Runs [.agenda, .causes, .power] [] s (execInputOutOfRange s) := by
  unfold execInputOutOfRange
  extract_lets -underBinder -merge -useContext x1
  refine Runs.next ?_
  refine Does.ite (fun _ => ?_) (fun _ => ?_)
  · exact Does.refl
  · refine Does.call State.raise_does (by decide +kernel) ?_
    refine Does.call State.causeOn_does (by decide +kernel) ?_
    refine Does.put_power (by decide +kernel) ?_
    exact Does.refl

theorem State.flushShed_does {s} : Does [.mgt] [16] s (State.flushShed s) := by
  unfold State.flushShed
  extract_lets -underBinder -merge -useContext x1
  refine Does.ite (fun _ => ?_) (fun _ => ?_)
  · refine Does.put_mgt (by decide +kernel) ?_
    exact Does.refl
  · refine Does.foldl ?_ ?_
    · intro y2 y3
      beta_reduce
      refine Does.call State.logEntry_does (by decide +kernel) ?_
      exact Does.refl
    · refine Does.put_mgt (by decide +kernel) ?_
      exact Does.refl

theorem State.stackTemp_does {s v} : Does [.agenda, .causes] [12] s (State.stackTemp s v) := by
  unfold State.stackTemp
  extract_lets -underBinder -merge -useContext x1
  refine Does.lets x1 ?_ (fun hx1 => ?_)
  · unfold x1
    refine Does.setBit adr_HBM_STAT (by decide +kernel) ?_
    refine Does.setFld adr_HBM_STAT (by decide +kernel) ?_
    exact Does.refl
  refine Does.call State.condition_does (by decide +kernel) ?_
  exact hx1

theorem State.limited_does {s limit state step} : Does [.regs, .agenda, .causes, .fresh, .tbs, .dlls, .loops, .acq, .hbm,
      .links, .power] [] s (State.limited s limit state step) := by
  unfold State.limited
  extract_lets -underBinder -merge -useContext x1 x2
  refine Does.lets x1 ?_ (fun hx1 => ?_)
  · unfold x1
    refine Does.setFld_any (by decide +kernel) ?_
    refine Does.setFld_any (by decide +kernel) ?_
    exact Does.refl
  refine Does.lets x2 ?_ (fun hx2 => ?_)
  · unfold x2
    refine Does.latch_any (by decide +kernel) ?_
    refine Does.setFld_any (by decide +kernel) ?_
    exact hx1
  refine Does.call State.tryRelease_does (by decide +kernel) ?_
  exact hx2

theorem State.bootRom_does {s selfTest floors hss slotA slotB} : Does [.regs, .agenda, .causes, .fresh, .tbs, .dlls, .loops,
      .acq, .hbm, .links, .sec, .mgt, .power] [] s (State.bootRom s selfTest floors hss slotA slotB) := by
  unfold State.bootRom
  extract_lets -underBinder -merge -useContext x1 x2 x3 x4
  refine Does.lets x2 ?_ (fun hx2 => ?_)
  · unfold x2
    refine Does.put_mgt (by decide +kernel) ?_
    exact Does.refl
  refine Does.lets x3 ?_ (fun hx3 => ?_)
  · unfold x3
    refine Does.foldl ?_ ?_
    · intro y5 y6
      beta_reduce
      refine Does.setReg_any (by decide +kernel) ?_
      exact Does.refl
    · refine Does.call State.showSealq_does (by decide +kernel) ?_
      refine Does.setBit_any (by decide +kernel) ?_
      exact hx2
  refine Does.lets x4 ?_ (fun hx4 => ?_)
  · unfold x4
    refine Does.call State.bootTrial_does (by decide +kernel) ?_
    refine Does.call State.recoverHss_does (by decide +kernel) ?_
    exact hx3
  refine Does.ite (fun _ => ?_) (fun _ => ?_)
  · refine Does.call State.limited_does (by decide +kernel) ?_
    refine Does.call State.log_does (by decide +kernel) ?_
    exact hx3
  · refine Does.ite (fun _ => ?_) (fun _ => ?_)
    · refine Does.call State.raise_does (by decide +kernel) ?_
      refine Does.call State.causeOn_does (by decide +kernel) ?_
      refine Does.latch_any (by decide +kernel) ?_
      refine Does.call State.limited_does (by decide +kernel) ?_
      refine Does.call State.log_does (by decide +kernel) ?_
      exact hx3
    · refine Does.ite (fun _ => ?_) (fun _ => ?_)
      · refine Does.call State.raise_does (by decide +kernel) ?_
        refine Does.call State.limited_does (by decide +kernel) ?_
        refine Does.call State.log_does (by decide +kernel) ?_
        refine Does.call State.recoverHss_does (by decide +kernel) ?_
        exact hx3
      · split
        · refine Does.call State.limited_does (by decide +kernel) ?_
          refine Does.call State.log_does (by decide +kernel) ?_
          exact hx4
        · extract_lets -underBinder -merge -useContext x7 x8
          refine Does.lets x7 ?_ (fun hx7 => ?_)
          · unfold x7
            refine Does.setReg_any (by decide +kernel) ?_
            refine Does.setFld_any (by decide +kernel) ?_
            refine Does.setFld_any (by decide +kernel) ?_
            exact hx4
          refine Does.lets x8 ?_ (fun hx8 => ?_)
          · unfold x8
            refine Does.call State.tryRelease_does (by decide +kernel) ?_
            refine Does.call State.log_does (by decide +kernel) ?_
            refine Does.setFld_any (by decide +kernel) ?_
            exact hx7
          refine Does.ite (fun _ => ?_) (fun _ => ?_)
          · exact hx8
          · refine Does.call State.raise_does (by decide +kernel) ?_
            refine Does.latch_any (by decide +kernel) ?_
            exact hx8

theorem State.powerCleared_does {s cause} : Does (Part.but [.pending, .free, .out, .spill]) [] s (State.powerCleared s cause) := by
  unfold State.powerCleared
  extract_lets -underBinder -merge -useContext x1 x2 x3 x4 x5 x6 x7
  refine Does.lets x1 ?_ (fun hx1 => ?_)
  · unfold x1
    refine Does.call State.endSession_does (by decide +kernel) ?_
    refine Does.call State.endSession_does (by decide +kernel) ?_
    exact Does.refl
  refine Does.lets x4 ?_ (fun hx4 => ?_)
  · unfold x4
    refine Does.call State.dieCleared_does (by decide +kernel) ?_
    exact hx1
  refine Does.lets x6 ?_ (fun hx6 => ?_)
  · unfold x6
    refine Does.putAny (t := x4) [.regs, .agenda, .causes, .hbmMem, .sec, .mgt, .power] ?_ (by decide +kernel) (by
      decide +kernel) ?_ ?_
    · exact hx4
    · intro c; unfold State.Canonical; dsimp only; exact ⟨Tab.wf_filter _ _ _ c.1, c.2.1, by split <;> simp [c.2.2.1],
      c.2.2.2⟩
    · intro p hp; cases p <;> first | exact absurd (by decide) hp | rfl
  refine Does.lets x7 ?_ (fun hx7 => ?_)
  · unfold x7
    refine Does.setReg_any (by decide +kernel) ?_
    refine Does.setReg_any (by decide +kernel) ?_
    exact hx6
  refine Does.setReg_any (by decide +kernel) ?_
  refine Does.call State.setFwSlot_does (by decide +kernel) ?_
  refine Does.call State.setFwSlot_does (by decide +kernel) ?_
  refine Does.call State.showOven_does (by decide +kernel) ?_
  exact hx7

theorem execPowerOn_runs {selfTestGood flash slotAGood slotBGood s} : Runs (Part.but [.pending, .free, .out,
      .spill]) [] s (execPowerOn selfTestGood flash slotAGood slotBGood s) := by
  unfold execPowerOn
  extract_lets -underBinder -merge -useContext x1
  refine Runs.next ?_
  refine Does.call State.bootRom_does (by decide +kernel) ?_
  refine Does.call State.powerCleared_does (by decide +kernel) ?_
  exact Does.refl

theorem State.ageHistory_does {s} : Does [.mgt] [] s (State.ageHistory s) := by
  unfold State.ageHistory
  extract_lets -underBinder -merge -useContext x1 x2 x3 x4
  refine Does.ite (fun _ => ?_) (fun _ => ?_)
  · exact Does.refl
  · refine Does.put_mgt (by decide +kernel) ?_
    exact Does.refl

theorem State.addHistory_does {s values} : Does [.mgt] [] s (State.addHistory s values) := by
  unfold State.addHistory
  extract_lets -underBinder -merge -useContext x1 x2 x3
  refine Does.ite (fun _ => ?_) (fun _ => ?_)
  · refine Does.call State.ageHistory_does (by decide +kernel) ?_
    refine Does.put_mgt (by decide +kernel) ?_
    exact Does.refl
  · refine Does.put_mgt (by decide +kernel) ?_
    exact Does.refl

theorem State.thermalTrip_does {s point v} : Does (Part.but [.pending, .free, .out, .spill]) [] s (State.thermalTrip s point
      v) := by
  unfold State.thermalTrip
  refine Does.call State.log_does (by decide +kernel) ?_
  refine Does.latch_any (by decide +kernel) ?_
  refine Does.call State.engineDieReset_does (by decide +kernel) ?_
  exact Does.refl

theorem execSensorSample_runs {values powers s} : Runs (Part.but [.pending, .free, .out, .spill]) [] s (execSensorSample
      values powers s) := by
  unfold execSensorSample
  extract_lets -underBinder -merge -useContext x1 x2 x3 x4 x5 x6 x7 x8
  refine Runs.lets x2 ?_ (fun hx2 => ?_)
  · unfold x2
    refine Does.call State.judgeSensors_does (by decide +kernel) ?_
    refine Does.call State.storeSamples_does (by decide +kernel) ?_
    exact Does.refl
  refine Runs.lets x3 ?_ (fun hx3 => ?_)
  · unfold x3
    refine Does.foldl ?_ ?_
    · intro y9 y10
      refine Does.call State.warn_does (by decide +kernel) ?_
      exact Does.refl
    · exact hx2
  refine Runs.lets x4 ?_ (fun hx4 => ?_)
  · unfold x4
    refine Does.call State.addHistory_does (by decide +kernel) ?_
    refine Does.call State.stackTemp_does (by decide +kernel) ?_
    exact hx3
  refine Runs.lets x6 ?_ (fun hx6 => ?_)
  · unfold x6
    refine Does.call State.flushShed_does (by decide +kernel) ?_
    exact hx4
  refine Runs.lets x8 ?_ (fun hx8 => ?_)
  · unfold x8
    refine Does.put_mgt (by decide +kernel) ?_
    exact hx6
  refine Runs.ite (fun _ => ?_) (fun _ => ?_)
  · refine Runs.next ?_
    exact Does.refl
  · refine Runs.next ?_
    refine Does.ite (fun _ => ?_) (fun _ => ?_)
    · refine Does.call State.thermalTrip_does (by decide +kernel) ?_
      exact hx8
    · exact hx8

theorem execRstcmdDie_runs {s} : Runs (Part.but [.pending, .free, .out, .spill]) [] s (execRstcmdDie s) := by
  unfold execRstcmdDie
  refine Runs.next ?_
  refine Does.call State.engineDieReset_does (by decide +kernel) ?_
  exact Does.refl

theorem execRstNLow_runs {s} : Runs (Part.but [.pending, .free, .out, .spill]) [] s (execRstNLow s) := by
  unfold execRstNLow
  refine Runs.next ?_
  refine Does.call State.engineDieReset_does (by decide +kernel) ?_
  exact Does.refl

theorem execHoldupExhausted_runs {s} : Runs (Part.but [.pending, .free, .out, .spill]) [] s (execHoldupExhausted s) := by
  unfold execHoldupExhausted
  extract_lets -underBinder -merge -useContext x1 x2
  refine Runs.lets x1 ?_ (fun hx1 => ?_)
  · unfold x1
    refine Does.call State.engineDieReset_does (by decide +kernel) ?_
    refine Does.call State.log_does (by decide +kernel) ?_
    exact Does.refl
  refine Runs.next ?_
  refine Does.ite (fun _ => ?_) (fun _ => ?_)
  · refine Does.put_power (by decide +kernel) ?_
    exact hx1
  · exact Does.refl

theorem execThermalRelease_runs {s} : Runs [.regs, .agenda, .causes, .fresh, .tbs, .dlls, .loops, .acq, .hbm, .links, .power]
      [] s (execThermalRelease s) := by
  unfold execThermalRelease
  refine Runs.next ?_
  refine Does.ite (fun _ => ?_) (fun _ => ?_)
  · refine Does.call State.tryRelease_does (by decide +kernel) ?_
    exact Does.refl
  · exact Does.refl

theorem State.activateNow_does {s} : Does (Part.but [.pending, .free, .out, .spill]) [] s (State.activateNow s) := by
  unfold State.activateNow
  extract_lets -underBinder -merge -useContext x1 x2 x3
  refine Does.lets x2 ?_ (fun hx2 => ?_)
  · unfold x2
    refine Does.latch_any (by decide +kernel) ?_
    refine Does.setFld_any (by decide +kernel) ?_
    refine Does.setFld_any (by decide +kernel) ?_
    exact Does.refl
  refine Does.call State.powerCleared_does (by decide +kernel) ?_
  refine Does.call State.log_does (by decide +kernel) ?_
  refine Does.put_mgt (by decide +kernel) ?_
  exact hx2

theorem execActivate_runs {p req due s} : Runs (Part.but [.pending, .free, .spill]) [] s (execActivate p req due s) := by
  unfold execActivate
  refine Runs.ite (fun _ => ?_) (fun _ => ?_)
  · refine Runs.next ?_
    refine Does.ite (fun _ => ?_) (fun _ => ?_)
    · refine Does.call State.activateNow_does (by decide +kernel) ?_
      exact Does.refl
    · refine Does.serve (by decide +kernel) ?_ ?_
      · intro y1
        exact Does.refl
      · exact Does.refl
  · refine Runs.ite (fun _ => ?_) (fun _ => ?_)
    · refine Runs.next ?_
      refine Does.serve (by decide +kernel) ?_ ?_
      · intro y2
        exact Does.refl
      · exact Does.refl
    · refine Runs.ite (fun _ => ?_) (fun _ => ?_)
      · refine Runs.next ?_
        refine Does.serve (by decide +kernel) ?_ ?_
        · intro y3
          exact Does.refl
        · exact Does.refl
      · refine Runs.next ?_
        refine Does.serve (by decide +kernel) ?_ ?_
        · intro y4
          beta_reduce
          extract_lets -underBinder -merge -useContext x5 x6
          refine Does.lets x6 ?_ (fun hx6 => ?_)
          · unfold x6
            refine Does.put_mgt (by decide +kernel) ?_
            exact Does.refl
          refine Does.ite (fun _ => ?_) (fun _ => ?_)
          · refine Does.call State.activateNow_does (by decide +kernel) ?_
            exact hx6
          · refine Does.call State.hold_does (by decide +kernel) ?_
            exact hx6
        · exact Does.refl

end Sys2Proof.Machine
end

