-- ==== Sys2Proof/Laws/Faults.lean ====
section
/-! SUPPORT. What each operation of Machine/Faults.lean may change (Laws/Frame.lean says how to read it). -/
namespace Sys2Proof.Machine

set_option Elab.async false

theorem State.endPending_does {s n} : Does [] [2] s (State.endPending s n) := by
  unfold State.endPending
  extract_lets -underBinder -merge -useContext x1 x2 x3 x4
  refine Does.setReg adr_FLT_PEND (by decide +kernel) ?_
  exact Does.refl

theorem State.react_does {s n islands} : Does (Part.but [.pending, .free, .spill]) [] s (State.react s n islands) := by
  unfold State.react
  extract_lets -underBinder -merge -useContext x1 x2
  refine Does.lets x1 ?_ (fun hx1 => ?_)
  · unfold x1
    refine Does.call State.log_does (by decide +kernel) ?_
    exact Does.refl
  refine Does.ite (fun _ => ?_) (fun _ => ?_)
  · refine Does.call State.evt_does (by decide +kernel) ?_
    refine Does.setReg_any (by decide +kernel) ?_
    exact hx1
  · refine Does.ite (fun _ => ?_) (fun _ => ?_)
    · refine Does.setReg_any (by decide +kernel) ?_
      exact hx1
    · refine Does.ite (fun _ => ?_) (fun _ => ?_)
      · refine Does.call State.hold_does (by decide +kernel) ?_
        refine Does.setReg_any (by decide +kernel) ?_
        exact hx1
      · refine Does.ite (fun _ => ?_) (fun _ => ?_)
        · refine Does.setReg_any (by decide +kernel) ?_
          refine Does.call State.engineDieReset_does (by decide +kernel) ?_
          refine Does.call State.log_does (by decide +kernel) ?_
          exact hx1
        · exact hx1

theorem State.reissue_does {s n} : Does (Part.but [.pending, .free, .spill]) [] s (State.reissue s n) := by
  unfold State.reissue
  extract_lets -underBinder -merge -useContext x1
  refine Does.lets x1 ?_ (fun hx1 => ?_)
  · unfold x1
    refine Does.setReg_any (by decide +kernel) ?_
    refine Does.put_merged (by decide +kernel) ?_
    exact Does.refl
  refine Does.call State.react_does (by decide +kernel) ?_
  exact hx1

theorem State.setSticky_does {s n b} : Does [] [2] s (State.setSticky s n b) := by
  unfold State.setSticky
  refine Does.ite (fun _ => ?_) (fun _ => ?_)
  · exact Does.refl
  · refine Does.setFld adr_FLT_STICKY (by decide +kernel) ?_
    exact Does.refl

theorem State.acknowledge_does {s n} : Does (Part.but [.pending, .free, .spill]) [] s (State.acknowledge s n) := by
  unfold State.acknowledge
  refine Does.ite (fun _ => ?_) (fun _ => ?_)
  · refine Does.setReg_any (by decide +kernel) ?_
    refine Does.latch_any (by decide +kernel) ?_
    exact Does.refl
  · refine Does.ite (fun _ => ?_) (fun _ => ?_)
    · refine Does.ite (fun _ => ?_) (fun _ => ?_)
      · refine Does.call State.reissue_does (by decide +kernel) ?_
        refine Does.call State.endPending_does (by decide +kernel) ?_
        exact Does.refl
      · exact Does.refl
    · refine Does.call State.endPending_does (by decide +kernel) ?_
      refine Does.call State.setSticky_does (by decide +kernel) ?_
      exact Does.refl

theorem execFltStickyWrite_runs {w data s} : Runs (Part.but [.pending, .free, .spill]) [] s (execFltStickyWrite w data s) := by
  unfold execFltStickyWrite
  refine Runs.next ?_
  refine Does.foldl ?_ ?_
  · intro y1 y2
    beta_reduce
    refine Does.ite (fun _ => ?_) (fun _ => ?_)
    · refine Does.call State.acknowledge_does (by decide +kernel) ?_
      exact Does.refl
    · exact Does.refl
  · exact Does.refl

theorem execFltAck_runs {src s} : Runs (Part.but [.pending, .free, .spill]) [] s (execFltAck src s) := by
  unfold execFltAck
  refine Runs.next ?_
  refine Does.call State.acknowledge_does (by decide +kernel) ?_
  exact Does.refl

theorem execForce_runs {s} : Runs [.agenda] [] s (execForce s) := by
  unfold execForce
  refine Runs.next ?_
  refine Does.call State.raise_does (by decide +kernel) ?_
  exact Does.refl

theorem State.logQuiet_does {s n} : Does [.mgt] [16] s (State.logQuiet s n) := by
  unfold State.logQuiet
  extract_lets -underBinder -merge -useContext x1
  refine Does.ite (fun _ => ?_) (fun _ => ?_)
  · refine Does.put_mgt (by decide +kernel) ?_
    exact Does.refl
  · refine Does.call State.log_does (by decide +kernel) ?_
    exact Does.refl

theorem State.twinRaises_does {s srcs} : Does [.agenda, .twn] [] s (State.twinRaises s srcs) := by
  unfold State.twinRaises
  extract_lets -underBinder -merge -useContext x1 x2 x3
  refine Does.lets x2 ?_ (fun hx2 => ?_)
  · unfold x2
    refine Does.ite (fun _ => ?_) (fun _ => ?_)
    · refine Does.put_twn (by decide +kernel) ?_
      exact Does.refl
    · exact Does.refl
  refine Does.ite (fun _ => ?_) (fun _ => ?_)
  · refine Does.call State.requestCol_does (by decide +kernel) ?_
    exact hx2
  · exact hx2

theorem execFaultRaise_runs {raises s} : Runs (Part.but [.pending, .free, .spill]) [] s (execFaultRaise raises s) := by
  unfold execFaultRaise
  extract_lets -underBinder -merge -useContext x1 x2 x3 x4 x5 x6 x7 x8
  refine Runs.lets x2 ?_ (fun hx2 => ?_)
  · unfold x2
    refine Does.foldl ?_ ?_
    · intro y9 y10
      beta_reduce
      refine Does.call State.setSticky_does (by decide +kernel) ?_
      exact Does.refl
    · exact Does.refl
  refine Runs.lets x7 ?_ (fun hx7 => ?_)
  · unfold x7
    refine Does.call State.twinRaises_does (by decide +kernel) ?_
    refine Does.bumpBy_any (by decide +kernel) ?_
    clear_value x2
    refine Does.put (t := x2) [.raised, .merged] ?_ (by decide +kernel) ?_ ?_ ?_ ?_ ?_
    · exact hx2
    · rfl
    · rfl
    · rfl
    · rfl
    · intro p hp; cases p <;> first | exact absurd (by decide) hp | rfl
  refine Runs.lets x8 ?_ (fun hx8 => ?_)
  · unfold x8
    refine Does.foldl ?_ ?_
    · intro y11 y12
      refine Does.call State.logQuiet_does (by decide +kernel) ?_
      exact Does.refl
    · exact hx7
  refine Runs.next ?_
  clear_value x3
  split
  · refine Does.call State.react_does (by decide +kernel) ?_
    exact hx8
  · exact hx8

theorem execReactionBlockReset_runs {src islands s} : Runs (Part.but [.pending, .count, .staging, .shadow, .free, .raised,
      .merged, .dueNow, .spill, .dlls, .ctl, .power]) [] s (execReactionBlockReset src islands s) := by
  unfold execReactionBlockReset
  refine Runs.next ?_
  refine Does.foldl ?_ ?_
  · intro y1 y2
    beta_reduce
    refine Does.call State.blockReset_does (by decide +kernel) ?_
    exact Does.refl
  · exact Does.refl

end Sys2Proof.Machine
end

