-- ==== Sys2Proof/Laws/RegWrites.lean ====
section
/-! SUPPORT. What each operation of Machine/RegWrites.lean may change (Laws/Frame.lean says how to read it). -/
namespace Sys2Proof.Machine

set_option Elab.async false

theorem Does.run {ps bs s t f} (h : ∀ t, Runs ps bs t (f t)) (g : Does ps bs s t) : Does ps bs s (State.run t f) := by
  obtain ⟨u, e, h⟩ := h t
  unfold State.run
  rw [e]; exact h.after g

theorem Does.act {ps bs s t on f} (h : ∀ t, Runs ps bs t (f t)) (g : Does ps bs s t) : Does ps bs s (State.act t on f) := by
  unfold State.act
  exact Does.ite (fun _ => Does.run h g) (fun _ => g)

theorem State.writeCapture_does {s by_ k a w mask} : Does [.regs, .staging, .agenda, .fresh, .acq] [] s (State.writeCapture s
      by_ k a w mask) := by
  unfold State.writeCapture
  extract_lets -underBinder -merge -useContext x1 x2
  refine Does.lets x1 ?_ (fun hx1 => ?_)
  · unfold x1
    refine Does.call State.classWrite_does (by decide +kernel) ?_
    exact Does.refl
  refine Does.ite (fun _ => ?_) (fun _ => ?_)
  · exact hx1
  · refine Does.put_acq (by decide +kernel) ?_
    exact hx1

theorem State.writeMonLat_does {s n w} : Does [.causes, .fresh, .chans, .mons, .twn] [64] s (State.writeMonLat s n w) := by
  unfold State.writeMonLat
  extract_lets -underBinder -merge -useContext x1 x2
  refine Does.foldl ?_ ?_
  · intro y3 y4
    beta_reduce
    refine Does.ite (fun _ => ?_) (fun _ => ?_)
    · refine Does.call State.settleMon_does (by decide +kernel) ?_
      refine Does.call State.monChange_does (by decide +kernel) ?_
      exact Does.refl
    · exact Does.refl
  · exact Does.refl

theorem State.writeLevel_does {s by_ n p a w mask} : Does [.regs, .staging, .agenda, .fresh, .pins] [] s (State.writeLevel s
      by_ n p a w mask) := by
  unfold State.writeLevel
  extract_lets -underBinder -merge -useContext x1
  refine Does.lets x1 ?_ (fun hx1 => ?_)
  · unfold x1
    refine Does.call State.classWrite_does (by decide +kernel) ?_
    exact Does.refl
  refine Does.ite (fun _ => ?_) (fun _ => ?_)
  · refine Does.call State.setLevel_does (by decide +kernel) ?_
    exact hx1
  · exact hx1

theorem State.writePhase_does {s by_ ch a w mask} : Does [.regs, .staging, .agenda, .fresh, .chans] [] s (State.writePhase s
      by_ ch a w mask) := by
  unfold State.writePhase
  extract_lets -underBinder -merge -useContext x1 x2 x3
  refine Does.lets x1 ?_ (fun hx1 => ?_)
  · unfold x1
    refine Does.call State.classWrite_does (by decide +kernel) ?_
    exact Does.refl
  refine Does.ite (fun _ => ?_) (fun _ => ?_)
  · refine Does.call State.setChan_does (by decide +kernel) ?_
    exact hx1
  · exact hx1

theorem State.writeSelect_does {s by_ ch a w mask} : Does [.regs, .staging, .agenda, .fresh, .acq] [] s (State.writeSelect s
      by_ ch a w mask) := by
  unfold State.writeSelect
  extract_lets -underBinder -merge -useContext x1
  refine Does.call State.classWrite_does (by decide +kernel) ?_
  refine Does.ite (fun _ => ?_) (fun _ => ?_)
  · exact Does.refl
  · refine Does.call State.leaveProfile_does (by decide +kernel) ?_
    exact Does.refl

theorem State.plainWrite_does {s by_ a w mask} : Does (Part.but [.pending, .count, .shadow, .free, .raised, .merged, .dueNow,
      .hbmMem, .spill, .stampers, .tacs, .ctl, .seg, .str, .sec, .mgt, .power]) [] s (State.plainWrite s by_ a w mask) := by
  unfold State.plainWrite
  extract_lets -underBinder -merge -useContext x1 x2
  refine Does.ite (fun _ => ?_) (fun _ => ?_)
  · refine Does.ite (fun _ => ?_) (fun _ => ?_)
    · refine Does.run ?_ ?_
      · intro y3
        refine Runs.call execBlkCtlWrite_runs (by decide +kernel) ?_
        exact Does.refl
      · exact Does.refl
    · exact Does.refl
  · refine Does.ite (fun _ => ?_) (fun _ => ?_)
    · refine Does.call State.writeMonLat_does (by decide +kernel) ?_
      exact Does.refl
    · refine Does.ite (fun _ => ?_) (fun _ => ?_)
      · refine Does.call State.writePhase_does (by decide +kernel) ?_
        exact Does.refl
      · refine Does.ite (fun _ => ?_) (fun _ => ?_)
        · refine Does.call State.writeLevel_does (by decide +kernel) ?_
          exact Does.refl
        · refine Does.ite (fun _ => ?_) (fun _ => ?_)
          · refine Does.call State.writeSelect_does (by decide +kernel) ?_
            exact Does.refl
          · refine Does.ite (fun _ => ?_) (fun _ => ?_)
            · refine Does.call State.writeCapture_does (by decide +kernel) ?_
              exact Does.refl
            · refine Does.call State.classWrite_does (by decide +kernel) ?_
              exact Does.refl

theorem State.writeCentral_gives {s by_ a w} : Gives (Part.but [.pending, .spill]) [] s (State.writeCentral s by_ a w) := by
  unfold State.writeCentral
  extract_lets -underBinder -merge -useContext x1 x2 x3
  refine Gives.lets x1 ?_ (fun hx1 => ?_)
  · unfold x1
    refine Does.setReg_any (by decide +kernel) ?_
    exact Does.refl
  refine Gives.lets x3 ?_ (fun hx3 => ?_)
  · unfold x3
    refine Does.act ?_ ?_
    · intro y4
      refine Runs.call execBgAbort_runs (by decide +kernel) ?_
      exact Does.refl
    · exact Does.refl
  refine Gives.ite (fun _ => ?_) (fun _ => ?_)
  · refine Gives.some ?_
    refine Does.ite (fun _ => ?_) (fun _ => ?_)
    · refine Does.run ?_ ?_
      · intro y5
        refine Runs.call execRstcmdDie_runs (by decide +kernel) ?_
        exact Does.refl
      · exact hx1
    · refine Does.ite (fun _ => ?_) (fun _ => ?_)
      · refine Does.run ?_ ?_
        · intro y6
          refine Runs.call execRstcmdBlock_runs (by decide +kernel) ?_
          exact Does.refl
        · refine Does.ite (fun _ => ?_) (fun _ => ?_)
          · exact hx1
          · exact Does.refl
      · exact hx1
  · refine Gives.ite (fun _ => ?_) (fun _ => ?_)
    · refine Gives.some ?_
      refine Does.act ?_ ?_
      · intro y7
        refine Runs.call execTbsAnchor_runs (by decide +kernel) ?_
        exact Does.refl
      · refine Does.act ?_ ?_
        · intro y8
          refine Runs.call execTbsStep_runs (by decide +kernel) ?_
          exact Does.refl
        · exact Does.refl
    · refine Gives.ite (fun _ => ?_) (fun _ => ?_)
      · refine Gives.some ?_
        refine Does.run ?_ ?_
        · intro y9
          refine Runs.call execFltAck_runs (by decide +kernel) ?_
          exact Does.refl
        · exact Does.refl
      · refine Gives.ite (fun _ => ?_) (fun _ => ?_)
        · refine Gives.some ?_
          refine Does.act ?_ ?_
          · intro y10
            refine Runs.call execForce_runs (by decide +kernel) ?_
            exact Does.refl
          · exact Does.refl
        · refine Gives.ite (fun _ => ?_) (fun _ => ?_)
          · refine Gives.some ?_
            refine Does.run ?_ ?_
            · intro y11
              refine Runs.call execFltStickyWrite_runs (by decide +kernel) ?_
              exact Does.refl
            · exact Does.refl
          · refine Gives.ite (fun _ => ?_) (fun _ => ?_)
            · refine Gives.some ?_
              refine Does.ite (fun _ => ?_) (fun _ => ?_)
              · refine Does.run ?_ ?_
                · intro y12
                  refine Runs.call execLpeFlip_runs (by decide +kernel) ?_
                  exact Does.refl
                · exact Does.refl
              · refine Does.act ?_ ?_
                · intro y13
                  refine Runs.call execLpeFlip_runs (by decide +kernel) ?_
                  exact Does.refl
                · refine Does.setReg_any (by decide +kernel) ?_
                  exact Does.refl
            · refine Gives.ite (fun _ => ?_) (fun _ => ?_)
              · refine Gives.ite (fun _ => ?_) (fun _ => ?_)
                · refine Gives.some ?_
                  refine Does.ite (fun _ => ?_) (fun _ => ?_)
                  · refine Does.call State.rejectVal_any (by decide +kernel) ?_
                    exact Does.refl
                  · refine Does.act ?_ ?_
                    · intro y14
                      refine Runs.call execBgRequest_runs (by decide +kernel) ?_
                      exact Does.refl
                    · refine Does.setReg_any (by decide +kernel) ?_
                      exact hx3
                · refine Gives.ite (fun _ => ?_) (fun _ => ?_)
                  · refine Gives.some ?_
                    refine Does.act ?_ ?_
                    · intro y15
                      refine Runs.call execEngRestart_runs (by decide +kernel) ?_
                      exact Does.refl
                    · exact Does.refl
                  · exact Gives.none
              · exact Gives.none

theorem State.writeIsland_gives {s by_ n o a w} : Gives [.agenda, .causes, .fresh, .out, .chans, .pins, .codes, .meas,
      .stampers, .tacs, .dlls, .mons, .quants, .ships, .twn] [14, 64] s (State.writeIsland s by_ n o a w) := by
  unfold State.writeIsland
  extract_lets -underBinder -merge -useContext x1 x2 x3 x4 x5 x6
  refine Gives.lets x4 ?_ (fun hx4 => ?_)
  · unfold x4
    refine Does.run ?_ ?_
    · intro y7
      refine Runs.call execMuEnWrite_runs (by decide +kernel) ?_
      exact Does.refl
    · exact Does.refl
  refine Gives.ite (fun _ => ?_) (fun _ => ?_)
  · refine Gives.some ?_
    refine Does.act ?_ ?_
    · intro y8
      refine Runs.call execPatStart_runs (by decide +kernel) ?_
      exact Does.refl
    · exact Does.refl
  · refine Gives.ite (fun _ => ?_) (fun _ => ?_)
    · refine Gives.some ?_
      refine Does.act ?_ ?_
      · intro y9
        refine Runs.call execDllRelock_runs (by decide +kernel) ?_
        exact Does.refl
      · exact Does.refl
    · refine Gives.ite (fun _ => ?_) (fun _ => ?_)
      · refine Gives.ite (fun _ => ?_) (fun _ => ?_)
        · refine Gives.some ?_
          refine Does.run ?_ ?_
          · intro y10
            refine Runs.call execDrvEnWrite_runs (by decide +kernel) ?_
            exact Does.refl
          · exact Does.refl
        · refine Gives.ite (fun _ => ?_) (fun _ => ?_)
          · refine Gives.some ?_
            refine Does.run ?_ ?_
            · intro y11
              refine Runs.call execChPeriodWrite_runs (by decide +kernel) ?_
              exact Does.refl
            · exact Does.refl
          · exact Gives.none
      · refine Gives.ite (fun _ => ?_) (fun _ => ?_)
        · refine Gives.some ?_
          refine Does.run ?_ ?_
          · intro y12
            refine Runs.call execStpCfgWrite_runs (by decide +kernel) ?_
            exact Does.refl
          · exact Does.refl
        · refine Gives.ite (fun _ => ?_) (fun _ => ?_)
          · refine Gives.some ?_
            refine Does.act ?_ ?_
            · intro y13
              refine Runs.call execMuApply_runs (by decide +kernel) ?_
              exact Does.refl
            · exact hx4
          · refine Gives.ite (fun _ => ?_) (fun _ => ?_)
            · refine Gives.ite (fun _ => ?_) (fun _ => ?_)
              · refine Gives.some ?_
                refine Does.run ?_ ?_
                · intro y14
                  refine Runs.call execTacCfgWrite_runs (by decide +kernel) ?_
                  exact Does.refl
                · exact Does.refl
              · refine Gives.ite (fun _ => ?_) (fun _ => ?_)
                · refine Gives.some ?_
                  refine Does.act ?_ ?_
                  · intro y15
                    refine Runs.call execTacCal_runs (by decide +kernel) ?_
                    exact Does.refl
                  · exact Does.refl
                · exact Gives.none
            · refine Gives.ite (fun _ => ?_) (fun _ => ?_)
              · refine Gives.ite (fun _ => ?_) (fun _ => ?_)
                · refine Gives.some ?_
                  refine Does.run ?_ ?_
                  · intro y16
                    refine Runs.call execMonEnWrite_runs (by decide +kernel) ?_
                    exact Does.refl
                  · exact Does.refl
                · refine Gives.ite (fun _ => ?_) (fun _ => ?_)
                  · refine Gives.some ?_
                    refine Does.run ?_ ?_
                    · intro y17
                      refine Runs.call execMonThrWrite_runs (by decide +kernel) ?_
                      exact Does.refl
                    · exact Does.refl
                  · exact Gives.none
              · exact Gives.none

theorem State.writeLoader_does {s by_ a w} : Does [.regs, .agenda, .causes, .free, .fresh, .sram, .chans, .loops, .tasks,
      .sched, .acq, .twn, .str, .mgt] [] s (State.writeLoader s by_ a w) := by
  unfold State.writeLoader
  extract_lets -underBinder -merge -useContext x1 x2 x3
  refine Does.lets x2 ?_ (fun hx2 => ?_)
  · unfold x2
    refine Does.ite (fun _ => ?_) (fun _ => ?_)
    · exact Does.refl
    · refine Does.setReg_any (by decide +kernel) ?_
      exact Does.refl
  refine Does.lets2 x3 ?_ (fun hx3 => ?_)
  · unfold x3
    refine Does2.call State.draw_does (by decide +kernel) ?_
    exact hx2
  refine Does.ite (fun _ => ?_) (fun _ => ?_)
  · refine Does.run ?_ ?_
    · intro y4
      refine Runs.call execStrLoad_runs (by decide +kernel) ?_
      exact Does.refl
    · exact hx2
  · refine Does.ite (fun _ => ?_) (fun _ => ?_)
    · refine Does.run ?_ ?_
      · intro y5
        refine Runs.call execStrApply_runs (by decide +kernel) ?_
        exact Does.refl
      · exact hx2
    · refine Does.ite (fun _ => ?_) (fun _ => ?_)
      · refine Does.run ?_ ?_
        · intro y6
          refine Runs.call execStrAbort_runs (by decide +kernel) ?_
          exact Does.refl
        · exact hx2
      · refine Does.ite (fun _ => ?_) (fun _ => ?_)
        · refine Does.run ?_ ?_
          · intro y7
            refine Runs.call execUnload_runs (by decide +kernel) ?_
            exact Does.refl
          · exact hx2
        · refine Does.ite (fun _ => ?_) (fun _ => ?_)
          · refine Does.run ?_ ?_
            · intro y8
              refine Runs.call execStore_runs (by decide +kernel) ?_
              exact Does.refl
            · refine Does2.snd ?_
              exact hx3
          · refine Does.call State.rejectVal_any (by decide +kernel) ?_
            exact Does.refl

theorem State.writeOuter_gives {s by_ a w} : Gives (Part.but [.pending, .count, .staging, .shadow, .raised, .merged, .dueNow,
      .hbmMem, .spill, .tbs, .stampers, .tacs, .dlls, .mons, .engs, .ctl, .players, .seg, .power]) [] s (State.writeOuter s
      by_ a w) := by
  unfold State.writeOuter
  extract_lets -underBinder -merge -useContext x1
  refine Gives.ite (fun _ => ?_) (fun _ => ?_)
  · refine Gives.some ?_
    refine Does.run ?_ ?_
    · intro y2
      refine Runs.call execHbmRateReq_runs (by decide +kernel) ?_
      exact Does.refl
    · exact Does.refl
  · refine Gives.ite (fun _ => ?_) (fun _ => ?_)
    · refine Gives.some ?_
      refine Does.act ?_ ?_
      · intro y3
        refine Runs.call execRetrain_runs (by decide +kernel) ?_
        exact Does.refl
      · exact Does.refl
    · refine Gives.ite (fun _ => ?_) (fun _ => ?_)
      · refine Gives.some ?_
        refine Does.act ?_ ?_
        · intro y4
          refine Runs.call execTwnCol_runs (by decide +kernel) ?_
          exact Does.refl
        · refine Does.act ?_ ?_
          · intro y5
            refine Runs.call execTwnLeave_runs (by decide +kernel) ?_
            exact Does.refl
          · refine Does.act ?_ ?_
            · intro y6
              refine Runs.call execTwnJoin_runs (by decide +kernel) ?_
              exact Does.refl
            · exact Does.refl
      · refine Gives.ite (fun _ => ?_) (fun _ => ?_)
        · refine Gives.some ?_
          refine Does.ite (fun _ => ?_) (fun _ => ?_)
          · refine Does.run ?_ ?_
            · intro y7
              refine Runs.call execCalCommit_runs (by decide +kernel) ?_
              exact Does.refl
            · exact Does.refl
          · refine Does.setReg_any (by decide +kernel) ?_
            exact Does.refl
        · refine Gives.ite (fun _ => ?_) (fun _ => ?_)
          · refine Gives.some ?_
            refine Does.call State.writeLoader_does (by decide +kernel) ?_
            exact Does.refl
          · split
            · refine Gives.some ?_
              refine Does.act ?_ ?_
              · intro y8
                refine Runs.call execLpRetrain_runs (by decide +kernel) ?_
                exact Does.refl
              · refine Does.run ?_ ?_
                · intro y9
                  refine Runs.call execLpEnWrite_runs (by decide +kernel) ?_
                  exact Does.refl
                · exact Does.refl
            · split
              · extract_lets -underBinder -merge -useContext x10 x11
                refine Gives.lets x11 ?_ (fun hx11 => ?_)
                · unfold x11
                  refine Does.act ?_ ?_
                  · intro y12
                    refine Runs.call execCalqAbort_runs (by decide +kernel) ?_
                    exact Does.refl
                  · refine Does.setReg_any (by decide +kernel) ?_
                    exact Does.refl
                refine Gives.some ?_
                refine Does.act ?_ ?_
                · intro y13
                  refine Runs.call execCalqStart_runs (by decide +kernel) ?_
                  exact Does.refl
                · exact hx11
              · split
                · extract_lets -underBinder -merge -useContext x14 x15
                  refine Gives.lets x15 ?_ (fun hx15 => ?_)
                  · unfold x15
                    refine Does.act ?_ ?_
                    · intro y16
                      refine Runs.call execTrgDisarm_runs (by decide +kernel) ?_
                      exact Does.refl
                    · refine Does.setFld_any (by decide +kernel) ?_
                      exact Does.refl
                  refine Gives.some ?_
                  refine Does.act ?_ ?_
                  · intro y17
                    refine Runs.call execTrgFire_runs (by decide +kernel) ?_
                    exact Does.refl
                  · exact hx15
                · exact Gives.none

theorem State.writeSeg_gives {s by_ a w} : Gives [.regs, .agenda, .fresh, .players, .seg] [] s (State.writeSeg s by_ a w) := by
  unfold State.writeSeg
  extract_lets -underBinder -merge -useContext x1 x2 x3 x4 x5 x6
  refine Gives.lets x3 ?_ (fun hx3 => ?_)
  · unfold x3
    refine Does.ite (fun _ => ?_) (fun _ => ?_)
    · exact Does.refl
    · refine Does.setReg_any (by decide +kernel) ?_
      exact Does.refl
  refine Gives.lets x5 ?_ (fun hx5 => ?_)
  · unfold x5
    refine Does.setReg_any (by decide +kernel) ?_
    exact Does.refl
  refine Gives.ite (fun _ => ?_) (fun _ => ?_)
  · refine Gives.some ?_
    refine Does.ite (fun _ => ?_) (fun _ => ?_)
    · refine Does.run ?_ ?_
      · intro y7
        refine Runs.call execSeal_runs (by decide +kernel) ?_
        exact Does.refl
      · exact hx3
    · refine Does.ite (fun _ => ?_) (fun _ => ?_)
      · refine Does.run ?_ ?_
        · intro y8
          refine Runs.call execUnseal_runs (by decide +kernel) ?_
          exact Does.refl
        · exact hx3
      · refine Does.ite (fun _ => ?_) (fun _ => ?_)
        · refine Does.run ?_ ?_
          · intro y9
            refine Runs.call execDdsrst_runs (by decide +kernel) ?_
            exact Does.refl
          · exact hx3
        · refine Does.call State.rejectVal_any (by decide +kernel) ?_
          exact Does.refl
  · refine Gives.ite (fun _ => ?_) (fun _ => ?_)
    · refine Gives.some ?_
      refine Does.ite (fun _ => ?_) (fun _ => ?_)
      · refine Does.run ?_ ?_
        · intro y10
          refine Runs.call execPlStart_runs (by decide +kernel) ?_
          exact Does.refl
        · exact hx5
      · refine Does.ite (fun _ => ?_) (fun _ => ?_)
        · refine Does.run ?_ ?_
          · intro y11
            refine Runs.call execPlJump_runs (by decide +kernel) ?_
            exact Does.refl
          · exact hx5
        · refine Does.ite (fun _ => ?_) (fun _ => ?_)
          · refine Does.run ?_ ?_
            · intro y12
              refine Runs.call execPlStop_runs (by decide +kernel) ?_
              exact Does.refl
            · exact hx5
          · refine Does.call State.rejectVal_any (by decide +kernel) ?_
            exact Does.refl
    · exact Gives.none

theorem State.writeCommand_gives {s by_ a w} : Gives (Part.but [.pending, .spill]) [] s (State.writeCommand s by_ a w) := by
  unfold State.writeCommand
  extract_lets -underBinder -merge -useContext x1
  refine Gives.ite (fun _ => ?_) (fun _ => ?_)
  · refine Gives.call State.writeIsland_gives (by decide +kernel) ?_
    exact Does.refl
  · refine Gives.ite (fun _ => ?_) (fun _ => ?_)
    · refine Gives.call State.writeSeg_gives (by decide +kernel) ?_
      exact Does.refl
    · refine Gives.ite (fun _ => ?_) (fun _ => ?_)
      · refine Gives.call State.writeCentral_gives (by decide +kernel) ?_
        exact Does.refl
      · refine Gives.call State.writeOuter_gives (by decide +kernel) ?_
        exact Does.refl

theorem State.writeLoop_does {s by_ c a w mask} : Does [.regs, .staging, .agenda, .causes, .fresh, .chans, .loops] [] s
      (State.writeLoop s by_ c a w mask) := by
  unfold State.writeLoop
  refine Does.ite (fun _ => ?_) (fun _ => ?_)
  · exact Does.refl
  · refine Does.ite (fun _ => ?_) (fun _ => ?_)
    · refine Does.call State.rejectVal_any (by decide +kernel) ?_
      exact Does.refl
    · refine Does.ite (fun _ => ?_) (fun _ => ?_)
      · exact Does.refl
      · refine Does.ite (fun _ => ?_) (fun _ => ?_)
        · refine Does.ite (fun _ => ?_) (fun _ => ?_)
          · refine Does.run ?_ ?_
            · intro y1
              refine Runs.call execLchEnWrite_runs (by decide +kernel) ?_
              exact Does.refl
            · exact Does.refl
          · exact Does.refl
        · refine Does.call State.classWrite_does (by decide +kernel) ?_
          exact Does.refl

theorem State.writeReg_does {s by_ a w mask} : Does (Part.but [.pending, .spill]) [] s (State.writeReg s by_ a w mask) := by
  unfold State.writeReg
  extract_lets -underBinder -merge -useContext x1 x2
  refine Does.ite (fun _ => ?_) (fun _ => ?_)
  · refine Does.call State.writeLoop_does (by decide +kernel) ?_
    exact Does.refl
  · refine Does.ite (fun _ => ?_) (fun _ => ?_)
    · exact Does.refl
    · split
      · rename_i t3 e4
        refine Does.lets t3 (Gives.of ?_ e4) (fun ht3 => ?_)
        · skip
          refine Gives.call State.writeCommand_gives (by decide +kernel) ?_
          exact Does.refl
        exact ht3
      · refine Does.call State.plainWrite_does (by decide +kernel) ?_
        exact Does.refl

theorem execBitAliasWrite_runs {by_ addr data s} : Runs (Part.but [.pending, .spill]) [] s (execBitAliasWrite by_ addr data s) := by
  unfold execBitAliasWrite
  split
  · refine Runs.ite (fun _ => ?_) (fun _ => ?_)
    · refine Runs.next ?_
      refine Does.call State.writeReg_does (by decide +kernel) ?_
      exact Does.refl
    · refine Runs.next ?_
      exact Does.refl
  · refine Runs.next ?_
    exact Does.refl

theorem execRegWrite_runs {by_ addr data s} : Runs (Part.but [.pending, .spill]) [] s (execRegWrite by_ addr data s) := by
  unfold execRegWrite
  extract_lets -underBinder -merge -useContext x1
  split
  · refine Runs.next ?_
    exact Does.refl
  · refine Runs.ite (fun _ => ?_) (fun _ => ?_)
    · refine Runs.next ?_
      refine Does.call State.writeReg_does (by decide +kernel) ?_
      exact Does.refl
    · refine Runs.next ?_
      exact Does.refl

end Sys2Proof.Machine
end

