-- ==== Sys2Proof/Laws/Boot.lean ====
section
/-! SUPPORT. What each operation of Machine/Boot.lean may change (Laws/Frame.lean says how to read it). -/
namespace Sys2Proof.Machine

set_option Elab.async false

theorem State.recordRefused_does {s r} : Does [.agenda, .fresh, .mgt] [15, 16] s (State.recordRefused s r) := by
  unfold State.recordRefused
  refine Does.call State.log_does (by decide +kernel) ?_
  refine Does.call State.raise_does (by decide +kernel) ?_
  refine Does.latch adr_CAL_LAT (by decide +kernel) ?_
  exact Does.refl

theorem State.unitsFromRecord_does {s} : Does [.meas] [] s (State.unitsFromRecord s) := by
  unfold State.unitsFromRecord
  refine Does.foldl ?_ ?_
  · intro y1 y2
    beta_reduce
    split
    · extract_lets -underBinder -merge -useContext x3
      refine Does.ite (fun _ => ?_) (fun _ => ?_)
      · refine Does.call State.setMu_does (by decide +kernel) ?_
        exact Does.refl
      · exact Does.refl
    · exact Does.refl
  · exact Does.refl

theorem State.recordAtStart_does {s} : Does [.agenda, .causes, .fresh, .meas, .calRec, .mgt] [15, 16] s (State.recordAtStart
      s) := by
  unfold State.recordAtStart
  extract_lets -underBinder -merge -useContext x1 x2
  refine Does.lets x2 ?_ (fun hx2 => ?_)
  · unfold x2
    refine Does.foldl ?_ ?_
    · intro y3 y4
      refine Does.call State.recordRefused_does (by decide +kernel) ?_
      exact Does.refl
    · exact Does.refl
  split
  · extract_lets -underBinder -merge -useContext x5
    refine Does.call State.unitsFromRecord_does (by decide +kernel) ?_
    refine Does.setReg adr_CAL_REC (by decide +kernel) ?_
    refine Does.put_calRec (by decide +kernel) ?_
    exact hx2
  · extract_lets -underBinder -merge -useContext x6
    refine Does.ite (fun _ => ?_) (fun _ => ?_)
    · refine Does.call State.unitsFromRecord_does (by decide +kernel) ?_
      refine Does.setReg adr_CAL_REC (by decide +kernel) ?_
      refine Does.put_calRec (by decide +kernel) ?_
      exact hx2
    · refine Does.call State.raise_does (by decide +kernel) ?_
      refine Does.call State.causeOn_does (by decide +kernel) ?_
      exact hx2

theorem State.setStep_does {s n} : Does [] [0] s (State.setStep s n) := by
  unfold State.setStep
  refine Does.setFld adr_GLB_RSTCAUSE (by decide +kernel) ?_
  exact Does.refl

theorem State.bootReferenced_does {s} : Does [.agenda, .causes, .fresh, .meas, .calRec, .mgt] [0, 15, 16] s
      (State.bootReferenced s) := by
  unfold State.bootReferenced
  extract_lets -underBinder -merge -useContext x1 x2
  refine Does.lets x2 ?_ (fun hx2 => ?_)
  · unfold x2
    refine Does.ite (fun _ => ?_) (fun _ => ?_)
    · exact Does.refl
    · refine Does.call State.recordAtStart_does (by decide +kernel) ?_
      refine Does.put_calRec (by decide +kernel) ?_
      exact Does.refl
  refine Does.ite (fun _ => ?_) (fun _ => ?_)
  · refine Does.call State.setStep_does (by decide +kernel) ?_
    exact hx2
  · exact hx2

theorem State.bootTac_does {s n k} : Does [.agenda, .fresh] [64] s (State.bootTac s n k) := by
  unfold State.bootTac
  refine Does.ite (fun _ => ?_) (fun _ => ?_)
  · refine Does.run ?_ ?_
    · intro y1
      refine Runs.call execTacCal_runs (by decide +kernel) ?_
      exact Does.refl
    · exact Does.refl
  · exact Does.refl

theorem State.bootCalibrate_does {s} : Does [.agenda, .fresh, .calRec] [0, 64] s (State.bootCalibrate s) := by
  unfold State.bootCalibrate
  extract_lets -underBinder -merge -useContext x1
  refine Does.ite (fun _ => ?_) (fun _ => ?_)
  · refine Does.run ?_ ?_
    · intro y2
      refine Runs.call execRefCheck_runs (by decide +kernel) ?_
      exact Does.refl
    · refine Does.call State.setStep_does (by decide +kernel) ?_
      exact Does.refl
  · refine Does.foldl ?_ ?_
    · intro y3 y4
      beta_reduce
      refine Does.call State.bootTac_does (by decide +kernel) ?_
      refine Does.call State.bootTac_does (by decide +kernel) ?_
      exact Does.refl
    · exact Does.refl

theorem State.bootPatches_does {s} : Does [.agenda, .causes, .fresh, .ctl, .str, .sec] [0, 6, 17] s (State.bootPatches s) := by
  unfold State.bootPatches
  refine Does.ite (fun _ => ?_) (fun _ => ?_)
  · refine Does.call State.bootLoad_does (by decide +kernel) ?_
    refine Does.call State.setStep_does (by decide +kernel) ?_
    refine Does.call State.loadControlStore_does (by decide +kernel) ?_
    refine Does.call State.setStep_does (by decide +kernel) ?_
    exact Does.refl
  · exact Does.refl

theorem State.bootTime_does {s} : Does [.regs, .causes, .fresh, .tbs, .dlls, .loops, .acq, .hbm, .links] [] s (State.bootTime
      s) := by
  unfold State.bootTime
  refine Does.ite (fun _ => ?_) (fun _ => ?_)
  · refine Does.call State.setStep_does (by decide +kernel) ?_
    refine Does.call State.blockOn_does (by decide +kernel) ?_
    exact Does.refl
  · exact Does.refl

theorem State.bootIslands_does {s} : Does [.regs, .causes, .fresh, .tbs, .dlls, .loops, .acq, .hbm, .links, .power] [] s
      (State.bootIslands s) := by
  unfold State.bootIslands
  extract_lets -underBinder -merge -useContext x1 x2 x3
  refine Does.lets x1 ?_ (fun hx1 => ?_)
  · unfold x1
    refine Does.call State.setStep_does (by decide +kernel) ?_
    exact Does.refl
  refine Does.lets x3 ?_ (fun hx3 => ?_)
  · unfold x3
    refine Does.put_power (by decide +kernel) ?_
    exact hx1
  refine Does.ite (fun _ => ?_) (fun _ => ?_)
  · refine Does.foldl ?_ ?_
    · intro y4 y5
      beta_reduce
      refine Does.call State.blockOn_does (by decide +kernel) ?_
      exact Does.refl
    · exact hx3
  · exact Does.refl

theorem State.bootLocked_does {s} : Does [] [0] s (State.bootLocked s) := by
  unfold State.bootLocked
  refine Does.ite (fun _ => ?_) (fun _ => ?_)
  · refine Does.call State.setStep_does (by decide +kernel) ?_
    exact Does.refl
  · exact Does.refl

theorem State.bootAdvance_does {s} : Does [.regs, .agenda, .causes, .fresh, .tbs, .meas, .dlls, .loops, .ctl, .acq, .hbm,
      .calRec, .links, .str, .sec, .mgt, .power] [] s (State.bootAdvance s) := by
  unfold State.bootAdvance
  extract_lets -underBinder -merge -useContext x1
  refine Does.ite (fun _ => ?_) (fun _ => ?_)
  · exact Does.refl
  · refine Does.ite (fun _ => ?_) (fun _ => ?_)
    · refine Does.call State.bootPatches_does (by decide +kernel) ?_
      exact Does.refl
    · refine Does.ite (fun _ => ?_) (fun _ => ?_)
      · refine Does.call State.bootIslands_does (by decide +kernel) ?_
        exact Does.refl
      · refine Does.ite (fun _ => ?_) (fun _ => ?_)
        · refine Does.call State.bootCalibrate_does (by decide +kernel) ?_
          exact Does.refl
        · refine Does.ite (fun _ => ?_) (fun _ => ?_)
          · refine Does.call State.bootReferenced_does (by decide +kernel) ?_
            exact Does.refl
          · refine Does.ite (fun _ => ?_) (fun _ => ?_)
            · refine Does.call State.bootTime_does (by decide +kernel) ?_
              exact Does.refl
            · refine Does.ite (fun _ => ?_) (fun _ => ?_)
              · refine Does.call State.bootLocked_does (by decide +kernel) ?_
                exact Does.refl
              · exact Does.refl

end Sys2Proof.Machine
end

