-- ==== Sys2Proof/Laws/Dispatch.lean ====
section
/-! SUPPORT. What each operation of Machine/Dispatch.lean may change (Laws/Frame.lean says how to read it). -/
namespace Sys2Proof.Machine

set_option Elab.async false

theorem exec_regWrite {issuer addr data s} : Runs (Part.but [.pending, .spill]) [] s (exec (.regWrite issuer addr data) s) :=
      execRegWrite_runs

theorem exec_bitAliasWrite {issuer addr data s} : Runs (Part.but [.pending, .spill]) [] s (exec (.bitAliasWrite issuer addr
      data) s) := execBitAliasWrite_runs

theorem exec_blkCtlWrite {issuer blk en s} : Runs [.regs, .agenda, .causes, .fresh, .out, .sram, .tbs, .chans, .pins, .codes,
      .meas, .dlls, .engs, .loops, .quants, .ships, .players, .tasks, .sched, .acq, .hbm, .cals, .calRec, .links] [] s (exec
      (.blkCtlWrite issuer blk en) s) := execBlkCtlWrite_runs

theorem exec_tbsStep {issuer s} : Runs (Part.but [.pending, .regs, .staging, .shadow, .dueNow, .hbmMem, .spill, .chans,
      .pins, .stampers, .tacs, .dlls, .ctl, .players, .seg, .str, .power]) [1, 3, 6, 15, 64] s (exec (.tbsStep issuer) s) :=
      execTbsStep_runs

theorem exec_tbsAnchor {s} : Runs [.acq] [] s (exec .tbsAnchor s) := execTbsAnchor_runs

theorem exec_anchorPeriodic {s} : Runs [.acq] [] s (exec .anchorPeriodic s) := execAnchorPeriodic_runs

theorem exec_timeMsgSend {s} : Runs [.out, .tbs, .links] [] s (exec .timeMsgSend s) := execTimeMsgSend_runs

theorem exec_ringTime {m crcGood arrival s} : Runs (Part.but [.pending, .regs, .staging, .shadow, .dueNow, .hbmMem, .spill,
      .chans, .pins, .stampers, .tacs, .dlls, .ctl, .players, .seg, .str, .power]) [1, 3, 6, 13, 15, 64] s (exec (.ringTime m
      crcGood arrival) s) := execRingTime_runs

theorem exec_holdTimeout {s} : Runs [.agenda, .causes, .tbs] [1] s (exec .holdTimeout s) := execHoldTimeout_runs

theorem exec_phaseStep {s} : Runs [.tbs] [1] s (exec .phaseStep s) := execPhaseStep_runs

theorem exec_freqSlew {s} : Runs [.free, .tbs] [1] s (exec .freqSlew s) := execFreqSlew_runs

theorem exec_pllRefLoss {oven s} : Runs [.agenda, .causes, .tbs, .power] [1] s (exec (.pllRefLoss oven) s) :=
      execPllRefLoss_runs

theorem exec_colTimeSend {s} : Runs [.out, .tbs, .links] [] s (exec .colTimeSend s) := execColTimeSend_runs

theorem exec_colTime {m arrival s} : Runs (Part.but [.pending, .regs, .staging, .shadow, .dueNow, .hbmMem, .spill, .chans,
      .pins, .stampers, .tacs, .dlls, .ctl, .players, .seg, .str, .power]) [1, 3, 6, 14, 15, 64] s (exec (.colTime m arrival)
      s) := execColTime_runs

theorem exec_patStart {isl s} : Runs [.agenda, .fresh, .out, .codes] [64] s (exec (.patStart isl) s) := execPatStart_runs

theorem exec_patCodeEnd {isl s} : Runs [.codes] [64] s (exec (.patCodeEnd isl) s) := execPatCodeEnd_runs

theorem exec_drvEnWrite {issuer ch en s} : Runs [.agenda, .fresh, .chans, .pins] [64] s (exec (.drvEnWrite issuer ch en) s)
      := execDrvEnWrite_runs

theorem exec_chPeriodWrite {issuer ch period s} : Runs [.agenda, .fresh, .chans] [64] s (exec (.chPeriodWrite issuer ch
      period) s) := execChPeriodWrite_runs

theorem exec_periodStart {ch s} : Runs [.agenda, .causes, .fresh, .chans, .pins, .mons, .twn] [1, 64] s (exec (.periodStart
      ch) s) := execPeriodStart_runs

theorem exec_safeNFall {s} : Runs [.agenda, .causes, .free, .fresh, .chans, .pins, .twn, .power] [1, 3, 14, 64] s (exec
      .safeNFall s) := execSafeNFall_runs

theorem exec_safeNRise {s} : Runs [.causes, .fresh, .chans, .twn, .power] [64] s (exec .safeNRise s) := execSafeNRise_runs

theorem exec_dllRelock {issuer isl s} : Runs [.agenda, .fresh, .meas, .dlls] [64] s (exec (.dllRelock issuer isl) s) :=
      execDllRelock_runs

theorem exec_dllCompare {isl pherr s} : Runs [.agenda, .causes, .fresh, .chans, .pins, .meas, .dlls] [64] s (exec
      (.dllCompare isl pherr) s) := execDllCompare_runs

theorem exec_dllLockDone {isl s} : Runs [.causes] [64] s (exec (.dllLockDone isl) s) := execDllLockDone_runs

theorem exec_tacCfgWrite {issuer isl tac en pin s} : Runs [.agenda, .fresh, .meas, .tacs] [64] s (exec (.tacCfgWrite issuer
      isl tac en pin) s) := execTacCfgWrite_runs

theorem exec_tacCal {issuer isl tac s} : Runs [.agenda, .fresh] [64] s (exec (.tacCal issuer isl tac) s) := execTacCal_runs

theorem exec_tacCalDone {isl tac empty gain table s} : Runs [.agenda, .causes, .tacs] [64] s (exec (.tacCalDone isl tac empty
      gain table) s) := execTacCalDone_runs

theorem exec_stpCfgWrite {issuer isl pin data s} : Runs [.agenda, .fresh, .meas, .stampers] [64] s (exec (.stpCfgWrite issuer
      isl pin data) s) := execStpCfgWrite_runs

theorem exec_thresholdCrossing {isl pin slope time code s} : Runs [.fresh, .meas, .stampers, .acq] [64] s (exec
      (.thresholdCrossing isl pin slope time code) s) := execThresholdCrossing_runs

theorem exec_muEnWrite {issuer isl unit en s} : Runs [.agenda, .fresh, .meas, .quants, .ships] [14, 64] s (exec (.muEnWrite
      issuer isl unit en) s) := execMuEnWrite_runs

theorem exec_muApply {z0 isl unit s} : Runs [.meas] [] s (exec (.muApply z0 isl unit) s) := execMuApply_runs

theorem exec_gateEnd {isl unit s} : Runs [.agenda, .causes, .free, .fresh, .out, .codes, .meas, .loops, .quants, .ships,
      .cals, .calRec, .twn] [1, 3, 6, 15, 64] s (exec (.gateEnd isl unit) s) := execGateEnd_runs

theorem exec_resultDue {isl unit f y flags s} : Runs [.agenda, .causes, .free, .fresh, .out, .codes, .meas, .loops, .quants,
      .ships, .acq, .cals, .twn] [1, 3, 6, 10, 14, 64] s (exec (.resultDue isl unit f y flags) s) := execResultDue_runs

theorem exec_monitorTick {isl mon v s} : Runs [.agenda, .causes, .fresh, .mons, .twn] [64] s (exec (.monitorTick isl mon v)
      s) := execMonitorTick_runs

theorem exec_monEnWrite {issuer isl mon en s} : Runs [.agenda, .causes, .fresh, .chans, .mons, .twn] [64] s (exec
      (.monEnWrite issuer isl mon en) s) := execMonEnWrite_runs

theorem exec_monThrWrite {issuer isl mon data s} : Runs [.agenda, .fresh, .mons] [64] s (exec (.monThrWrite issuer isl mon
      data) s) := execMonThrWrite_runs

theorem exec_monUnsettledTimeout {isl mon s} : Runs [.agenda, .causes, .mons] [] s (exec (.monUnsettledTimeout isl mon) s) :=
      execMonUnsettledTimeout_runs

theorem exec_loopUpdate {ch upset s} : Runs [.agenda, .causes, .free, .fresh, .sram, .chans, .engs, .loops, .twn] [1, 3, 6] s
      (exec (.loopUpdate ch upset) s) := execLoopUpdate_runs

theorem exec_lpeFlip {issuer blk s} : Runs [.agenda, .fresh] [6] s (exec (.lpeFlip issuer blk) s) := execLpeFlip_runs

theorem exec_lchEnWrite {issuer ch en s} : Runs [.agenda, .causes, .fresh, .chans, .loops] [6] s (exec (.lchEnWrite issuer ch
      en) s) := execLchEnWrite_runs

theorem exec_bgRequest {issuer eng id blk s} : Runs [.agenda, .fresh, .engs] [6] s (exec (.bgRequest issuer eng id blk) s) :=
      execBgRequest_runs

theorem exec_bgAbort {z0 eng s} : Runs [.fresh, .sram, .engs] [6] s (exec (.bgAbort z0 eng) s) := execBgAbort_runs

theorem exec_bgRoutineRun {eng cycles upset s} : Runs [.agenda, .causes, .free, .fresh, .sram, .chans, .engs] [1, 3, 6] s
      (exec (.bgRoutineRun eng cycles upset) s) := execBgRoutineRun_runs

theorem exec_engRestart {z0 eng s} : Runs [.causes, .loops] [6] s (exec (.engRestart z0 eng) s) := execEngRestart_runs

theorem exec_seal {seq s} : Runs [.agenda, .fresh] [7] s (exec (.seal seq) s) := execSeal_runs

theorem exec_sealDone {seq s} : Runs [.agenda, .sram] [7] s (exec (.sealDone seq) s) := execSealDone_runs

theorem exec_unseal {seq s} : Runs [.agenda, .fresh] [7] s (exec (.unseal seq) s) := execUnseal_runs

theorem exec_ddsrst {s} : Runs [.agenda, .fresh, .seg] [7] s (exec .ddsrst s) := execDdsrst_runs

theorem exec_plStart {z0 ch seq entry s} : Runs [.agenda, .fresh, .players] [7] s (exec (.plStart z0 ch seq entry) s) :=
      execPlStart_runs

theorem exec_plJump {z0 ch jmode entry s} : Runs [.agenda, .fresh, .players] [7] s (exec (.plJump z0 ch jmode entry) s) :=
      execPlJump_runs

theorem exec_plStop {z0 ch s} : Runs [.players] [7] s (exec (.plStop z0 ch) s) := execPlStop_runs

theorem exec_sampleBoundary {s} : Runs [.agenda, .causes, .free, .fresh, .sram, .players, .seg, .acq] [1, 3, 7] s (exec
      .sampleBoundary s) := execSampleBoundary_runs

theorem exec_refillArrive {ch entry good s} : Runs [.sram, .players] [] s (exec (.refillArrive ch entry good) s) :=
      execRefillArrive_runs

theorem exec_qpush {issuer q msg s} : Runs [.agenda, .fresh, .sched] [1, 4] s (exec (.qpush issuer q msg) s) := execQpush_runs

theorem exec_qpushRoom {q s} : Runs [.agenda, .fresh, .sched] [1, 4] s (exec (.qpushRoom q) s) := execQpushRoom_runs

theorem exec_ingressTake {q s} : Runs [.agenda, .fresh, .sched] [1] s (exec (.ingressTake q) s) := execIngressTake_runs

theorem exec_taskPost {task arg s} : Runs [.agenda, .fresh, .out, .sram, .tasks, .sched, .acq, .links] [4] s (exec (.taskPost
      task arg) s) := execTaskPost_runs

theorem exec_taskClear {task arg s} : Runs [.agenda, .fresh, .out, .sram, .tasks, .sched, .acq, .links] [4] s (exec
      (.taskClear task arg) s) := execTaskClear_runs

theorem exec_taskArm {task ctl arg s} : Runs [.agenda, .fresh, .sram, .tasks, .sched] [4] s (exec (.taskArm task ctl arg) s)
      := execTaskArm_runs

theorem exec_taskStart {task z1 s} : Runs [.agenda, .causes, .fresh, .sram, .tasks, .sched, .acq] [4] s (exec (.taskStart
      task z1) s) := execTaskStart_runs

theorem exec_taskCancel {task s} : Runs [.agenda, .causes, .free, .fresh, .sram, .tasks, .sched, .acq] [3, 4] s (exec
      (.taskCancel task) s) := execTaskCancel_runs

theorem exec_taskReset {task s} : Runs [.agenda, .causes, .fresh, .sram, .tasks] [4] s (exec (.taskReset task) s) :=
      execTaskReset_runs

theorem exec_taskPrio {task arg s} : Runs [.agenda, .fresh, .sram, .tasks] [4] s (exec (.taskPrio task arg) s) :=
      execTaskPrio_runs

theorem exec_taskTimer {task guard arg s} : Runs [.agenda, .causes, .fresh, .out, .sram, .tasks, .sched, .acq, .links] [4] s
      (exec (.taskTimer task guard arg) s) := execTaskTimer_runs

theorem exec_taskTimerExpiry {task s} : Runs [.agenda, .causes, .out, .sram, .tasks, .sched, .acq, .links] [] s (exec
      (.taskTimerExpiry task) s) := execTaskTimerExpiry_runs

theorem exec_taskJudge {task s} : Runs [.agenda, .causes, .fresh, .sram, .tasks, .sched, .acq, .twn] [4] s (exec (.taskJudge
      task) s) := execTaskJudge_runs

theorem exec_taskDispatch {eng s} : Runs [.fresh, .sram, .tasks, .sched] [5] s (exec (.taskDispatch eng) s) :=
      by unfold exec; exact execTaskDispatch_runs

theorem exec_yieldPoint {eng s} : Runs [.fresh, .sram, .tasks, .sched] [5] s (exec (.yieldPoint eng) s) := execYieldPoint_runs

theorem exec_stageDone {eng s} : Runs [.agenda, .free, .fresh, .sram, .tasks, .sched] [1, 3, 5] s (exec (.stageDone eng) s)
      := execStageDone_runs

theorem exec_stepCommit {task s} : Runs [.agenda, .free, .fresh, .sram, .tasks] [3] s (exec (.stepCommit task) s) :=
      execStepCommit_runs

theorem exec_stepStart {task s} : Runs [.agenda, .causes, .fresh, .out, .sram, .loops, .tasks, .sched, .acq, .links] [4, 6,
      10] s (exec (.stepStart task) s) := execStepStart_runs

theorem exec_stepTimeout {task s} : Runs [.agenda, .out, .sram, .tasks, .sched, .acq, .links] [] s (exec (.stepTimeout task)
      s) := execStepTimeout_runs

theorem exec_taskAgeing {task s} : Runs [.agenda, .fresh, .sram, .tasks, .sched] [4, 5] s (exec (.taskAgeing task) s) :=
      execTaskAgeing_runs

theorem exec_trgArm {issuer t a s} : Runs [.agenda, .fresh, .out, .links] [10] s (exec (.trgArm issuer t a) s) :=
      execTrgArm_runs

theorem exec_trgDisarm {issuer t s} : Runs [.out, .acq, .links] [10] s (exec (.trgDisarm issuer t) s) := execTrgDisarm_runs

theorem exec_trgFire {issuer t s} : Runs [.agenda, .out, .acq, .links] [] s (exec (.trgFire issuer t) s) := execTrgFire_runs

theorem exec_ringArm {m crcGood s} : Runs [.agenda, .fresh, .out, .links] [1, 13] s (exec (.ringArm m crcGood) s) :=
      execRingArm_runs

theorem exec_ringDisarm {m crcGood s} : Runs [.agenda, .fresh, .out, .acq, .links] [10, 13] s (exec (.ringDisarm m crcGood)
      s) := execRingDisarm_runs

theorem exec_ringFire {m crcGood s} : Runs [.agenda, .fresh, .out, .acq, .links] [1, 13] s (exec (.ringFire m crcGood) s) :=
      execRingFire_runs

theorem exec_triggerDecide {t s} : Runs [.agenda, .free, .fresh, .acq] [1, 3, 10] s (exec (.triggerDecide t) s) :=
      execTriggerDecide_runs

theorem exec_rateEval {s} : Runs [.agenda, .causes, .fresh, .acq] [10] s (exec .rateEval s) := execRateEval_runs

theorem exec_statusRecord {s} : Runs [.fresh, .acq] [] s (exec .statusRecord s) := execStatusRecord_runs

theorem exec_sealInstant {s} : Runs [.agenda, .causes, .fresh, .hbmMem, .acq, .hbm, .twn, .sec] [10, 12, 18] s (exec
      .sealInstant s) := execSealInstant_runs

theorem exec_sealSign {good s} : Runs [.agenda, .causes, .fresh, .out, .acq, .calRec, .links, .sec] [18] s (exec (.sealSign
      good) s) := execSealSign_runs

theorem exec_spillMove {basinB mediaGood s} : Runs [.agenda, .causes, .fresh, .hbmMem, .spill, .acq, .hbm] [10, 12] s (exec
      (.spillMove basinB mediaGood) s) := execSpillMove_runs

theorem exec_excursionWrite {kind detail ch time value limit s} : Runs [.agenda, .fresh, .sram, .hbmMem, .acq, .hbm, .twn]
      [11, 12] s (exec (.excursionWrite kind detail ch time value limit) s) := execExcursionWrite_runs

theorem exec_streamSend {p cls s} : Runs [.out, .acq, .links] [] s (exec (.streamSend p cls) s) := execStreamSend_runs

theorem exec_refresh {pc busy s} : Runs [.fresh] [12] s (exec (.refresh pc busy) s) := execRefresh_runs

theorem exec_scrub {addr verdict s} : Runs [.agenda, .free, .fresh, .hbm, .mgt] [12, 16] s (exec (.scrub addr verdict) s) :=
      execScrub_runs

theorem exec_hbmRequestDone {requester addr verdict s} : Runs [.agenda, .free, .fresh, .out, .acq, .hbm, .links, .str, .mgt]
      [0, 10, 12, 16] s (exec (.hbmRequestDone requester addr verdict) s) := execHbmRequestDone_runs

theorem exec_hbmRateReq {issuer rate s} : Runs [.agenda, .fresh, .hbm] [12] s (exec (.hbmRateReq issuer rate) s) :=
      execHbmRateReq_runs

theorem exec_retrain {issuer s} : Runs [.agenda, .fresh, .hbm] [12] s (exec (.retrain issuer) s) := execRetrain_runs

theorem exec_hbmTrainDone {good s} : Runs [.agenda, .causes, .fresh, .hbm] [12] s (exec (.hbmTrainDone good) s) :=
      execHbmTrainDone_runs

theorem exec_calqStart {issuer q data s} : Runs [.agenda, .fresh, .out, .codes, .meas, .cals] [15, 64] s (exec (.calqStart
      issuer q data) s) := execCalqStart_runs

theorem exec_calqAbort {z0 q s} : Runs [.agenda, .fresh, .out, .codes, .meas, .loops, .quants, .ships, .cals, .calRec] [6,
      15, 64] s (exec (.calqAbort z0 q) s) := execCalqAbort_runs

theorem exec_calPhaseEnd {q r s} : Runs [.agenda, .free, .fresh, .out, .codes, .meas, .loops, .quants, .ships, .cals,
      .calRec, .twn] [6, 15, 64] s (exec (.calPhaseEnd q r) s) := execCalPhaseEnd_runs

theorem exec_calFitDone {q s} : Runs [.agenda, .free, .fresh, .calRec] [15] s (exec (.calFitDone q) s) := execCalFitDone_runs

theorem exec_calCommit {issuer q s} : Runs [.agenda, .fresh, .meas, .calRec, .sec] [15, 64] s (exec (.calCommit issuer q) s)
      := execCalCommit_runs

theorem exec_calRecordStored {good s} : Runs [.agenda, .causes, .free, .fresh, .calRec, .mgt] [15, 16] s (exec
      (.calRecordStored good) s) := execCalRecordStored_runs

theorem exec_refCheck {s} : Runs [.calRec] [] s (exec .refCheck s) := execRefCheck_runs

theorem exec_refCheckDone {dev opened shorted s} : Runs [.agenda, .causes, .fresh, .calRec] [15] s (exec (.refCheckDone dev
      opened shorted) s) := execRefCheckDone_runs

theorem exec_hello {f s} : Runs [.agenda, .causes, .fresh, .out, .codes, .meas, .loops, .quants, .ships, .cals, .calRec,
      .twn, .links] [1, 6, 14, 15, 64] s (exec (.hello f) s) := execHello_runs

theorem exec_negotiateTimeout {s} : Runs [.agenda, .causes, .fresh, .twn] [1, 6, 14] s (exec .negotiateTimeout s) :=
      execNegotiateTimeout_runs

theorem exec_peerOwnLow {s} : Runs [.agenda, .causes, .fresh] [14] s (exec .peerOwnLow s) := execPeerOwnLow_runs

theorem exec_ownConflict {s} : Runs [.agenda, .causes, .fresh, .out, .chans, .pins, .codes, .meas, .loops, .quants, .ships,
      .cals, .calRec, .twn] [6, 14, 15, 64] s (exec .ownConflict s) := execOwnConflict_runs

theorem exec_presNHigh {s} : Runs [.agenda, .causes, .free, .fresh, .out, .chans, .pins, .codes, .meas, .loops, .quants,
      .ships, .cals, .calRec, .twn] [1, 3, 6, 14, 15, 64] s (exec .presNHigh s) := execPresNHigh_runs

theorem exec_ship {items corrected lost s} : Runs [.agenda, .fresh, .twn] [1, 13, 14] s (exec (.ship items corrected lost) s)
      := execShip_runs

theorem exec_plausColTimeout {s} : Runs [.agenda, .twn] [] s (exec .plausColTimeout s) := execPlausColTimeout_runs

theorem exec_keep {s} : Runs [.out, .links] [] s (exec .keep s) := execKeep_runs

theorem exec_peerFrameTimeout {s} : Runs [.agenda, .causes, .free, .fresh, .out, .chans, .pins, .codes, .meas, .loops,
      .quants, .ships, .cals, .calRec, .twn] [1, 3, 6, 14, 15, 64] s (exec .peerFrameTimeout s) := execPeerFrameTimeout_runs

theorem exec_digestSend {s} : Runs [.agenda, .causes, .free, .fresh, .out, .hbmMem, .chans, .pins, .codes, .meas, .loops,
      .quants, .ships, .acq, .hbm, .cals, .calRec, .twn, .links] [1, 3, 6, 10, 12, 14, 15, 64] s (exec .digestSend s) :=
      execDigestSend_runs

theorem exec_digest {tick dig blame s} : Runs [.agenda, .causes, .free, .fresh, .out, .chans, .pins, .codes, .meas, .loops,
      .quants, .ships, .cals, .calRec, .twn] [1, 3, 6, 14, 15, 64] s (exec (.digest tick dig blame) s) := execDigest_runs

theorem exec_fwd {p addr due data s} : Runs [.regs, .staging, .agenda, .free, .fresh, .sched, .twn] [] s (exec (.fwd p addr
      due data) s) := execFwd_runs

theorem exec_ferry {f s} : Runs [.regs, .agenda, .fresh, .sram, .hbmMem, .twn] [] s (exec (.ferry f) s) := execFerry_runs

theorem exec_twnJoin {z0 s} : Runs [.agenda, .causes, .fresh, .out, .codes, .meas, .loops, .quants, .ships, .cals, .calRec,
      .twn, .links] [1, 6, 14, 15, 64] s (exec (.twnJoin z0) s) := execTwnJoin_runs

theorem exec_joinCopyDone {s} : Runs [.twn] [14] s (exec .joinCopyDone s) := execJoinCopyDone_runs

theorem exec_twnLeave {z0 s} : Runs [.agenda, .causes, .fresh, .out, .chans, .pins, .codes, .meas, .loops, .quants, .ships,
      .cals, .calRec, .twn] [6, 14, 15, 64] s (exec (.twnLeave z0) s) := execTwnLeave_runs

theorem exec_twnCol {issuer s} : Runs [.agenda, .fresh] [14] s (exec (.twnCol issuer) s) := execTwnCol_runs

theorem exec_colApply {cause s} : Runs [.agenda, .causes, .free, .fresh, .out, .tbs, .chans, .pins, .codes, .meas, .mons,
      .loops, .quants, .ships, .cals, .calRec, .twn] [1, 3, 6, 14, 15, 64] s (exec (.colApply cause) s) := execColApply_runs

theorem exec_lctl {link nak ackSeq limits crcGood s} : Runs [.agenda, .fresh, .out, .twn, .links] [13, 14] s (exec (.lctl
      link nak ackSeq limits crcGood) s) := execLctl_runs

theorem exec_lctlSend {link s} : Runs [.out, .links] [] s (exec (.lctlSend link) s) := execLctlSend_runs

theorem exec_rd {p f s} : Runs [.regs, .shadow, .agenda, .fresh, .out, .hbm, .links, .sec, .mgt] [] s (exec (.rd p f) s) :=
      execRd_runs

theorem exec_wr {p f s} : Runs [.regs, .staging, .agenda, .free, .fresh, .out, .sram, .hbmMem, .sched, .hbm, .twn, .links,
      .sec, .mgt] [] s (exec (.wr p f) s) := execWr_runs

theorem exec_strm {p hdr cls taken s} : Runs [.agenda, .causes, .fresh, .out, .hbmMem, .acq, .hbm, .links, .sec, .mgt] [10,
      12, 13, 16, 18] s (exec (.strm p hdr cls taken) s) := execStrm_runs

theorem exec_replayTimeout {link s} : Runs [.agenda, .fresh, .out, .links] [13] s (exec (.replayTimeout link) s) :=
      execReplayTimeout_runs

theorem exec_linkDetect {link s} : Runs [.links] [13] s (exec (.linkDetect link) s) := execLinkDetect_runs

theorem exec_pollDone {link s} : Runs [.links] [13] s (exec (.pollDone link) s) := execPollDone_runs

theorem exec_configDone {link width rate s} : Runs [.agenda, .causes, .fresh, .links] [13] s (exec (.configDone link width
      rate) s) := execConfigDone_runs

theorem exec_trainTimeout {link s} : Runs [.links] [13] s (exec (.trainTimeout link) s) := execTrainTimeout_runs

theorem exec_recoveryDone {link width rate s} : Runs [.agenda, .causes, .fresh, .out, .links] [13] s (exec (.recoveryDone
      link width rate) s) := execRecoveryDone_runs

theorem exec_recoveryTimeout {link s} : Runs [.agenda, .causes, .acq, .links, .sec, .mgt] [13, 16, 18] s (exec
      (.recoveryTimeout link) s) := execRecoveryTimeout_runs

theorem exec_lpRetrain {z0 p s} : Runs [.agenda, .fresh, .links] [13] s (exec (.lpRetrain z0 p) s) := execLpRetrain_runs

theorem exec_lpEnWrite {z0 p data s} : Runs [.acq, .links, .sec, .mgt] [13, 16, 18] s (exec (.lpEnWrite z0 p data) s) :=
      execLpEnWrite_runs

theorem exec_lsEntry {link transmit s} : Runs [.links] [13] s (exec (.lsEntry link transmit) s) := execLsEntry_runs

theorem exec_ldEntry {p transmit s} : Runs [.links] [13] s (exec (.ldEntry p transmit) s) := execLdEntry_runs

theorem exec_linkWake {link transmit s} : Runs [.out, .links] [13] s (exec (.linkWake link transmit) s) := execLinkWake_runs

theorem exec_strLoad {z0 src qmask s} : Runs [.agenda, .fresh, .str] [17] s (exec (.strLoad z0 src qmask) s) :=
      execStrLoad_runs

theorem exec_strCheckDone {sigGood s} : Runs [.regs, .agenda, .causes, .fresh, .out, .sram, .chans, .loops, .tasks, .acq,
      .twn, .links, .str, .mgt] [] s (exec (.strCheckDone sigGood) s) := execStrCheckDone_runs

theorem exec_strApply {z0 s} : Runs [.regs, .agenda, .causes, .fresh, .sram, .chans, .loops, .tasks, .str, .mgt] [] s (exec
      (.strApply z0) s) := execStrApply_runs

theorem exec_strAbort {s} : Runs [.str] [17] s (exec .strAbort s) := execStrAbort_runs

theorem exec_unload {z0 s} : Runs [.regs, .agenda, .causes, .fresh, .loops, .tasks, .sched, .acq, .twn, .str, .mgt] [] s
      (exec (.unload z0) s) := execUnload_runs

theorem exec_store {good s} : Runs [.agenda, .fresh, .str] [17] s (exec (.store good) s) := execStore_runs

theorem exec_faultRaise {raises s} : Runs (Part.but [.pending, .free, .spill]) [] s (exec (.faultRaise raises) s) :=
      execFaultRaise_runs

theorem exec_reactionBlockReset {src islands s} : Runs (Part.but [.pending, .count, .staging, .shadow, .free, .raised,
      .merged, .dueNow, .spill, .dlls, .ctl, .power]) [] s (exec (.reactionBlockReset src islands) s) :=
      execReactionBlockReset_runs

theorem exec_fltAck {z0 src s} : Runs (Part.but [.pending, .free, .spill]) [] s (exec (.fltAck z0 src) s) := execFltAck_runs

theorem exec_fltStickyWrite {z0 w data s} : Runs (Part.but [.pending, .free, .spill]) [] s (exec (.fltStickyWrite z0 w data)
      s) := execFltStickyWrite_runs

theorem exec_force {s} : Runs [.agenda] [] s (exec .force s) := execForce_runs

theorem exec_rstcmdDie {s} : Runs (Part.but [.pending, .free, .out, .spill]) [] s (exec .rstcmdDie s) := execRstcmdDie_runs

theorem exec_rstcmdBlock {issuer code s} : Runs (Part.but [.pending, .count, .staging, .shadow, .free, .raised, .merged,
      .dueNow, .spill, .dlls, .ctl, .power]) [] s (exec (.rstcmdBlock issuer code) s) := execRstcmdBlock_runs

theorem exec_rstNLow {s} : Runs (Part.but [.pending, .free, .out, .spill]) [] s (exec .rstNLow s) := execRstNLow_runs

theorem exec_resetRelease {rstNHigh s} : Runs [.regs, .agenda, .causes, .fresh, .tbs, .dlls, .loops, .acq, .hbm, .links, .power] [] s
      (exec (.resetRelease rstNHigh) s) := execResetRelease_runs

theorem exec_powerOn {selfTestGood flash slotAGood slotBGood s} : Runs (Part.but [.pending, .free, .out,
      .spill]) [] s (exec (.powerOn selfTestGood flash slotAGood slotBGood) s) := execPowerOn_runs

theorem exec_inputOutOfRange {s} : Runs [.agenda, .causes, .power] [] s (exec .inputOutOfRange s) := execInputOutOfRange_runs

theorem exec_inputReturn {s} : Runs [.causes, .power] [] s (exec .inputReturn s) := execInputReturn_runs

theorem exec_holdupExhausted {s} : Runs (Part.but [.pending, .free, .out, .spill]) [] s (exec .holdupExhausted s) :=
      execHoldupExhausted_runs

theorem exec_sensorSample {values powers s} : Runs (Part.but [.pending, .free, .out, .spill]) [] s (exec (.sensorSample
      values powers) s) := execSensorSample_runs

theorem exec_thermalRelease {s} : Runs [.regs, .agenda, .causes, .fresh, .tbs, .dlls, .loops, .acq, .hbm, .links, .power] []
      s (exec .thermalRelease s) := execThermalRelease_runs

theorem exec_loadWindow {load s} : Runs [.agenda, .causes, .fresh, .mgt] [16] s (exec (.loadWindow load) s) :=
      execLoadWindow_runs

theorem exec_watchdogExpiry {s} : Runs [.agenda, .free, .fresh, .out, .links, .mgt] [16] s (exec .watchdogExpiry s) :=
      execWatchdogExpiry_runs

theorem exec_status {p req s} : Runs [.out, .links] [] s (exec (.status p req) s) := execStatus_runs

theorem exec_sensors {p req s} : Runs [.out, .links, .mgt] [] s (exec (.sensors p req) s) := execSensors_runs

theorem exec_history {p req sensor since s} : Runs [.out, .links] [] s (exec (.history p req sensor since) s) :=
      execHistory_runs

theorem exec_logread {p req index n s} : Runs [.out, .links] [] s (exec (.logread p req index n) s) := execLogread_runs

theorem exec_logmark {p req text s} : Runs [.out, .links, .mgt] [16] s (exec (.logmark p req text) s) := execLogmark_runs

theorem exec_update {p req offset len s} : Runs [.out, .links, .mgt] [16] s (exec (.update p req offset len) s) :=
      execUpdate_runs

theorem exec_updateDone {written verified s} : Runs [.mgt] [16] s (exec (.updateDone written verified) s) := execUpdateDone_runs

theorem exec_activate {p req due s} : Runs (Part.but [.pending, .free, .spill]) [] s (exec (.activate p req due) s) :=
      execActivate_runs

theorem exec_confirm {p req s} : Runs [.out, .links, .sec, .mgt] [16, 18] s (exec (.confirm p req) s) := execConfirm_runs

theorem exec_rollback {p req s} : Runs [.out, .links, .mgt] [16] s (exec (.rollback p req) s) := execRollback_runs

theorem exec_conftoExpiry {s} : Runs [.fresh, .mgt] [16] s (exec .conftoExpiry s) := execConftoExpiry_runs

theorem exec_strcopy {p req k offset s} : Runs [.out, .hbmMem, .links] [] s (exec (.strcopy p req k offset) s) :=
      execStrcopy_runs

theorem exec_getreply {p req ofReq s} : Runs [.out, .links, .mgt] [16] s (exec (.getreply p req ofReq) s) := execGetreply_runs

theorem exec_replyReady {p req s} : Runs [.out, .links, .mgt] [16] s (exec (.replyReady p req) s) := execReplyReady_runs

theorem exec_replyDiscard {p req s} : Runs [.mgt] [16] s (exec (.replyDiscard p req) s) := execReplyDiscard_runs

theorem exec_secHello {p role intOnly nonce qh s} : Runs [.free, .out, .links, .sec] [18] s (exec (.secHello p role intOnly
      nonce qh) s) := execSecHello_runs

theorem exec_proof {p cred credTrailer ecdsa hss s} : Runs [.out, .links, .sec, .mgt] [13, 16, 18] s
      (exec (.proof p cred credTrailer ecdsa hss) s) := execProof_runs

theorem exec_sessionTimeout {p s} : Runs [.out, .links, .sec] [18] s (exec (.sessionTimeout p) s) := execSessionTimeout_runs

theorem exec_helloLockEnd {p s} : Runs [] [18] s (exec (.helloLockEnd p) s) := execHelloLockEnd_runs

theorem exec_close {p s} : Runs [.out, .links, .sec, .mgt] [13, 16, 18] s (exec (.close p) s) := execClose_runs

theorem exec_attest {p nonce s} : Runs [.out, .links, .sec] [] s (exec (.attest p nonce) s) := execAttest_runs

theorem exec_cert {p s} : Runs [.out, .links] [] s (exec (.cert p) s) := execCert_runs

theorem exec_sealsig {p sealno s} : Runs [.out, .links] [] s (exec (.sealsig p sealno) s) := execSealsig_runs

theorem exec_selftest {p pass s} : Runs [.agenda, .causes, .fresh, .out, .links] [18] s (exec (.selftest p pass) s) :=
      execSelftest_runs

theorem exec_enroll {p slot usage keys s} : Runs [.out, .links, .sec] [18] s (exec (.enroll p slot usage keys) s) :=
      execEnroll_runs

theorem exec_enrollCk {p slot generation key sig s} : Runs [.out, .links, .sec] [] s (exec (.enrollCk p slot generation key
      sig) s) := execEnrollCk_runs

theorem exec_revoke {p slot sig s} : Runs [.out, .links, .sec] [18] s (exec (.revoke p slot sig) s) :=
      by unfold exec; exact execRevoke_runs

theorem exec_floor {p which value s} : Runs [.out, .links, .sec] [18] s (exec (.floor p which value) s) := execFloor_runs

theorem exec_mode {p s} : Runs [.out, .links, .sec] [] s (exec (.mode p) s) := execMode_runs

theorem exec_zeroise {p s} : Runs [.agenda, .fresh, .out, .acq, .calRec, .links, .sec, .mgt] [10, 13, 16, 18] s (exec
      (.zeroise p) s) := execZeroise_runs

theorem exec_spillEraseDone {s} : Runs [.spill] [18] s (exec .spillEraseDone s) := execSpillEraseDone_runs

theorem exec_treeReady {epochTree s} : Runs [.fresh] [18] s (exec (.treeReady epochTree) s) := execTreeReady_runs

theorem exec_portAccess {s} : Runs [.agenda, .fresh] [18] s (exec .portAccess s) := execPortAccess_runs

theorem exec_lossOfAlignment {link s} : Runs [.agenda, .causes, .fresh, .links] [1, 13] s (exec (.lossOfAlignment link) s) :=
      execLossOfAlignment_runs

theorem exec_entropyHealthFail {s} : Runs [.agenda, .causes, .fresh] [18] s (exec .entropyHealthFail s) :=
      execEntropyHealthFail_runs

theorem exec_ageingLearned {s} : Runs [.free] [1] s (exec .ageingLearned s) := execAgeingLearned_runs

theorem exec_ovenReady {s} : Runs [.causes, .fresh, .tbs, .power] [1] s (exec .ovenReady s) := execOvenReady_runs

theorem exec_runs {c s} : Runs (Part.but [.pending]) [] s (exec c s) :=
  match c with
  | .regWrite .. => exec_regWrite.call (by decide +kernel) Does.refl
  | .bitAliasWrite .. => exec_bitAliasWrite.call (by decide +kernel) Does.refl
  | .blkCtlWrite .. => exec_blkCtlWrite.call (by decide +kernel) Does.refl
  | .tbsStep .. => exec_tbsStep.call (by decide +kernel) Does.refl
  | .tbsAnchor => exec_tbsAnchor.call (by decide +kernel) Does.refl
  | .anchorPeriodic => exec_anchorPeriodic.call (by decide +kernel) Does.refl
  | .timeMsgSend => exec_timeMsgSend.call (by decide +kernel) Does.refl
  | .ringTime .. => exec_ringTime.call (by decide +kernel) Does.refl
  | .holdTimeout => exec_holdTimeout.call (by decide +kernel) Does.refl
  | .phaseStep => exec_phaseStep.call (by decide +kernel) Does.refl
  | .freqSlew => exec_freqSlew.call (by decide +kernel) Does.refl
  | .pllRefLoss .. => exec_pllRefLoss.call (by decide +kernel) Does.refl
  | .colTimeSend => exec_colTimeSend.call (by decide +kernel) Does.refl
  | .colTime .. => exec_colTime.call (by decide +kernel) Does.refl
  | .patStart .. => exec_patStart.call (by decide +kernel) Does.refl
  | .patCodeEnd .. => exec_patCodeEnd.call (by decide +kernel) Does.refl
  | .drvEnWrite .. => exec_drvEnWrite.call (by decide +kernel) Does.refl
  | .chPeriodWrite .. => exec_chPeriodWrite.call (by decide +kernel) Does.refl
  | .periodStart .. => exec_periodStart.call (by decide +kernel) Does.refl
  | .safeNFall => exec_safeNFall.call (by decide +kernel) Does.refl
  | .safeNRise => exec_safeNRise.call (by decide +kernel) Does.refl
  | .dllRelock .. => exec_dllRelock.call (by decide +kernel) Does.refl
  | .dllCompare .. => exec_dllCompare.call (by decide +kernel) Does.refl
  | .dllLockDone .. => exec_dllLockDone.call (by decide +kernel) Does.refl
  | .tacCfgWrite .. => exec_tacCfgWrite.call (by decide +kernel) Does.refl
  | .tacCal .. => exec_tacCal.call (by decide +kernel) Does.refl
  | .tacCalDone .. => exec_tacCalDone.call (by decide +kernel) Does.refl
  | .stpCfgWrite .. => exec_stpCfgWrite.call (by decide +kernel) Does.refl
  | .thresholdCrossing .. => exec_thresholdCrossing.call (by decide +kernel) Does.refl
  | .muEnWrite .. => exec_muEnWrite.call (by decide +kernel) Does.refl
  | .muApply .. => exec_muApply.call (by decide +kernel) Does.refl
  | .gateEnd .. => exec_gateEnd.call (by decide +kernel) Does.refl
  | .resultDue .. => exec_resultDue.call (by decide +kernel) Does.refl
  | .monitorTick .. => exec_monitorTick.call (by decide +kernel) Does.refl
  | .monEnWrite .. => exec_monEnWrite.call (by decide +kernel) Does.refl
  | .monThrWrite .. => exec_monThrWrite.call (by decide +kernel) Does.refl
  | .monUnsettledTimeout .. => exec_monUnsettledTimeout.call (by decide +kernel) Does.refl
  | .loopUpdate .. => exec_loopUpdate.call (by decide +kernel) Does.refl
  | .lpeFlip .. => exec_lpeFlip.call (by decide +kernel) Does.refl
  | .lchEnWrite .. => exec_lchEnWrite.call (by decide +kernel) Does.refl
  | .bgRequest .. => exec_bgRequest.call (by decide +kernel) Does.refl
  | .bgAbort .. => exec_bgAbort.call (by decide +kernel) Does.refl
  | .bgRoutineRun .. => exec_bgRoutineRun.call (by decide +kernel) Does.refl
  | .engRestart .. => exec_engRestart.call (by decide +kernel) Does.refl
  | .seal .. => exec_seal.call (by decide +kernel) Does.refl
  | .sealDone .. => exec_sealDone.call (by decide +kernel) Does.refl
  | .unseal .. => exec_unseal.call (by decide +kernel) Does.refl
  | .ddsrst => exec_ddsrst.call (by decide +kernel) Does.refl
  | .plStart .. => exec_plStart.call (by decide +kernel) Does.refl
  | .plJump .. => exec_plJump.call (by decide +kernel) Does.refl
  | .plStop .. => exec_plStop.call (by decide +kernel) Does.refl
  | .sampleBoundary => exec_sampleBoundary.call (by decide +kernel) Does.refl
  | .refillArrive .. => exec_refillArrive.call (by decide +kernel) Does.refl
  | .qpush .. => exec_qpush.call (by decide +kernel) Does.refl
  | .qpushRoom .. => exec_qpushRoom.call (by decide +kernel) Does.refl
  | .ingressTake .. => exec_ingressTake.call (by decide +kernel) Does.refl
  | .taskPost .. => exec_taskPost.call (by decide +kernel) Does.refl
  | .taskClear .. => exec_taskClear.call (by decide +kernel) Does.refl
  | .taskArm .. => exec_taskArm.call (by decide +kernel) Does.refl
  | .taskStart .. => exec_taskStart.call (by decide +kernel) Does.refl
  | .taskCancel .. => exec_taskCancel.call (by decide +kernel) Does.refl
  | .taskReset .. => exec_taskReset.call (by decide +kernel) Does.refl
  | .taskPrio .. => exec_taskPrio.call (by decide +kernel) Does.refl
  | .taskTimer .. => exec_taskTimer.call (by decide +kernel) Does.refl
  | .taskTimerExpiry .. => exec_taskTimerExpiry.call (by decide +kernel) Does.refl
  | .taskJudge .. => exec_taskJudge.call (by decide +kernel) Does.refl
  | .taskDispatch .. => exec_taskDispatch.call (by decide +kernel) Does.refl
  | .yieldPoint .. => exec_yieldPoint.call (by decide +kernel) Does.refl
  | .stageDone .. => exec_stageDone.call (by decide +kernel) Does.refl
  | .stepCommit .. => exec_stepCommit.call (by decide +kernel) Does.refl
  | .stepStart .. => exec_stepStart.call (by decide +kernel) Does.refl
  | .stepTimeout .. => exec_stepTimeout.call (by decide +kernel) Does.refl
  | .taskAgeing .. => exec_taskAgeing.call (by decide +kernel) Does.refl
  | .trgArm .. => exec_trgArm.call (by decide +kernel) Does.refl
  | .trgDisarm .. => exec_trgDisarm.call (by decide +kernel) Does.refl
  | .trgFire .. => exec_trgFire.call (by decide +kernel) Does.refl
  | .ringArm .. => exec_ringArm.call (by decide +kernel) Does.refl
  | .ringDisarm .. => exec_ringDisarm.call (by decide +kernel) Does.refl
  | .ringFire .. => exec_ringFire.call (by decide +kernel) Does.refl
  | .triggerDecide .. => exec_triggerDecide.call (by decide +kernel) Does.refl
  | .rateEval => exec_rateEval.call (by decide +kernel) Does.refl
  | .statusRecord => exec_statusRecord.call (by decide +kernel) Does.refl
  | .sealInstant => exec_sealInstant.call (by decide +kernel) Does.refl
  | .sealSign .. => exec_sealSign.call (by decide +kernel) Does.refl
  | .spillMove .. => exec_spillMove.call (by decide +kernel) Does.refl
  | .excursionWrite .. => exec_excursionWrite.call (by decide +kernel) Does.refl
  | .streamSend .. => exec_streamSend.call (by decide +kernel) Does.refl
  | .refresh .. => exec_refresh.call (by decide +kernel) Does.refl
  | .scrub .. => exec_scrub.call (by decide +kernel) Does.refl
  | .hbmRequestDone .. => exec_hbmRequestDone.call (by decide +kernel) Does.refl
  | .hbmRateReq .. => exec_hbmRateReq.call (by decide +kernel) Does.refl
  | .retrain .. => exec_retrain.call (by decide +kernel) Does.refl
  | .hbmTrainDone .. => exec_hbmTrainDone.call (by decide +kernel) Does.refl
  | .calqStart .. => exec_calqStart.call (by decide +kernel) Does.refl
  | .calqAbort .. => exec_calqAbort.call (by decide +kernel) Does.refl
  | .calPhaseEnd .. => exec_calPhaseEnd.call (by decide +kernel) Does.refl
  | .calFitDone .. => exec_calFitDone.call (by decide +kernel) Does.refl
  | .calCommit .. => exec_calCommit.call (by decide +kernel) Does.refl
  | .calRecordStored .. => exec_calRecordStored.call (by decide +kernel) Does.refl
  | .refCheck => exec_refCheck.call (by decide +kernel) Does.refl
  | .refCheckDone .. => exec_refCheckDone.call (by decide +kernel) Does.refl
  | .hello .. => exec_hello.call (by decide +kernel) Does.refl
  | .negotiateTimeout => exec_negotiateTimeout.call (by decide +kernel) Does.refl
  | .peerOwnLow => exec_peerOwnLow.call (by decide +kernel) Does.refl
  | .ownConflict => exec_ownConflict.call (by decide +kernel) Does.refl
  | .presNHigh => exec_presNHigh.call (by decide +kernel) Does.refl
  | .ship .. => exec_ship.call (by decide +kernel) Does.refl
  | .plausColTimeout => exec_plausColTimeout.call (by decide +kernel) Does.refl
  | .keep => exec_keep.call (by decide +kernel) Does.refl
  | .peerFrameTimeout => exec_peerFrameTimeout.call (by decide +kernel) Does.refl
  | .digestSend => exec_digestSend.call (by decide +kernel) Does.refl
  | .digest .. => exec_digest.call (by decide +kernel) Does.refl
  | .fwd .. => exec_fwd.call (by decide +kernel) Does.refl
  | .ferry .. => exec_ferry.call (by decide +kernel) Does.refl
  | .twnJoin .. => exec_twnJoin.call (by decide +kernel) Does.refl
  | .joinCopyDone => exec_joinCopyDone.call (by decide +kernel) Does.refl
  | .twnLeave .. => exec_twnLeave.call (by decide +kernel) Does.refl
  | .twnCol .. => exec_twnCol.call (by decide +kernel) Does.refl
  | .colApply .. => exec_colApply.call (by decide +kernel) Does.refl
  | .lctl .. => exec_lctl.call (by decide +kernel) Does.refl
  | .lctlSend .. => exec_lctlSend.call (by decide +kernel) Does.refl
  | .rd .. => exec_rd.call (by decide +kernel) Does.refl
  | .wr .. => exec_wr.call (by decide +kernel) Does.refl
  | .strm .. => exec_strm.call (by decide +kernel) Does.refl
  | .replayTimeout .. => exec_replayTimeout.call (by decide +kernel) Does.refl
  | .linkDetect .. => exec_linkDetect.call (by decide +kernel) Does.refl
  | .pollDone .. => exec_pollDone.call (by decide +kernel) Does.refl
  | .configDone .. => exec_configDone.call (by decide +kernel) Does.refl
  | .trainTimeout .. => exec_trainTimeout.call (by decide +kernel) Does.refl
  | .recoveryDone .. => exec_recoveryDone.call (by decide +kernel) Does.refl
  | .recoveryTimeout .. => exec_recoveryTimeout.call (by decide +kernel) Does.refl
  | .lpRetrain .. => exec_lpRetrain.call (by decide +kernel) Does.refl
  | .lpEnWrite .. => exec_lpEnWrite.call (by decide +kernel) Does.refl
  | .lsEntry .. => exec_lsEntry.call (by decide +kernel) Does.refl
  | .ldEntry .. => exec_ldEntry.call (by decide +kernel) Does.refl
  | .linkWake .. => exec_linkWake.call (by decide +kernel) Does.refl
  | .strLoad .. => exec_strLoad.call (by decide +kernel) Does.refl
  | .strCheckDone .. => exec_strCheckDone.call (by decide +kernel) Does.refl
  | .strApply .. => exec_strApply.call (by decide +kernel) Does.refl
  | .strAbort => exec_strAbort.call (by decide +kernel) Does.refl
  | .unload .. => exec_unload.call (by decide +kernel) Does.refl
  | .store .. => exec_store.call (by decide +kernel) Does.refl
  | .faultRaise .. => exec_faultRaise.call (by decide +kernel) Does.refl
  | .reactionBlockReset .. => exec_reactionBlockReset.call (by decide +kernel) Does.refl
  | .fltAck .. => exec_fltAck.call (by decide +kernel) Does.refl
  | .fltStickyWrite .. => exec_fltStickyWrite.call (by decide +kernel) Does.refl
  | .force => exec_force.call (by decide +kernel) Does.refl
  | .rstcmdDie => exec_rstcmdDie.call (by decide +kernel) Does.refl
  | .rstcmdBlock .. => exec_rstcmdBlock.call (by decide +kernel) Does.refl
  | .rstNLow => exec_rstNLow.call (by decide +kernel) Does.refl
  | .resetRelease .. => exec_resetRelease.call (by decide +kernel) Does.refl
  | .powerOn .. => exec_powerOn.call (by decide +kernel) Does.refl
  | .inputOutOfRange => exec_inputOutOfRange.call (by decide +kernel) Does.refl
  | .inputReturn => exec_inputReturn.call (by decide +kernel) Does.refl
  | .holdupExhausted => exec_holdupExhausted.call (by decide +kernel) Does.refl
  | .sensorSample .. => exec_sensorSample.call (by decide +kernel) Does.refl
  | .thermalRelease => exec_thermalRelease.call (by decide +kernel) Does.refl
  | .loadWindow .. => exec_loadWindow.call (by decide +kernel) Does.refl
  | .watchdogExpiry => exec_watchdogExpiry.call (by decide +kernel) Does.refl
  | .status .. => exec_status.call (by decide +kernel) Does.refl
  | .sensors .. => exec_sensors.call (by decide +kernel) Does.refl
  | .history .. => exec_history.call (by decide +kernel) Does.refl
  | .logread .. => exec_logread.call (by decide +kernel) Does.refl
  | .logmark .. => exec_logmark.call (by decide +kernel) Does.refl
  | .update .. => exec_update.call (by decide +kernel) Does.refl
  | .updateDone .. => exec_updateDone.call (by decide +kernel) Does.refl
  | .activate .. => exec_activate.call (by decide +kernel) Does.refl
  | .confirm .. => exec_confirm.call (by decide +kernel) Does.refl
  | .rollback .. => exec_rollback.call (by decide +kernel) Does.refl
  | .conftoExpiry => exec_conftoExpiry.call (by decide +kernel) Does.refl
  | .strcopy .. => exec_strcopy.call (by decide +kernel) Does.refl
  | .getreply .. => exec_getreply.call (by decide +kernel) Does.refl
  | .replyReady .. => exec_replyReady.call (by decide +kernel) Does.refl
  | .replyDiscard .. => exec_replyDiscard.call (by decide +kernel) Does.refl
  | .secHello .. => exec_secHello.call (by decide +kernel) Does.refl
  | .proof .. => exec_proof.call (by decide +kernel) Does.refl
  | .sessionTimeout .. => exec_sessionTimeout.call (by decide +kernel) Does.refl
  | .helloLockEnd .. => exec_helloLockEnd.call (by decide +kernel) Does.refl
  | .close .. => exec_close.call (by decide +kernel) Does.refl
  | .attest .. => exec_attest.call (by decide +kernel) Does.refl
  | .cert .. => exec_cert.call (by decide +kernel) Does.refl
  | .sealsig .. => exec_sealsig.call (by decide +kernel) Does.refl
  | .selftest .. => exec_selftest.call (by decide +kernel) Does.refl
  | .enroll .. => exec_enroll.call (by decide +kernel) Does.refl
  | .enrollCk .. => exec_enrollCk.call (by decide +kernel) Does.refl
  | .revoke .. => exec_revoke.call (by decide +kernel) Does.refl
  | .floor .. => exec_floor.call (by decide +kernel) Does.refl
  | .mode .. => exec_mode.call (by decide +kernel) Does.refl
  | .zeroise .. => exec_zeroise.call (by decide +kernel) Does.refl
  | .spillEraseDone => exec_spillEraseDone.call (by decide +kernel) Does.refl
  | .treeReady .. => exec_treeReady.call (by decide +kernel) Does.refl
  | .portAccess => exec_portAccess.call (by decide +kernel) Does.refl
  | .lossOfAlignment .. => exec_lossOfAlignment.call (by decide +kernel) Does.refl
  | .entropyHealthFail => exec_entropyHealthFail.call (by decide +kernel) Does.refl
  | .ageingLearned => exec_ageingLearned.call (by decide +kernel) Does.refl
  | .ovenReady => exec_ovenReady.call (by decide +kernel) Does.refl

end Sys2Proof.Machine
end

