-- ==== Sys2Proof/Laws/State.lean ====
section
/-! SUPPORT. What each setter of the state writes: one equation for each, true by computation. Laws/Frame.lean says what it
leaves alone. -/
namespace Sys2Proof.Machine

/-! ## Registers -/

/-- A register read after a write to a register. -/
@[simp] theorem State.get_setReg (s : State) (a b : Nat) (v : Word) :
    Tab.get regReset (s.setReg a v).regs b = if b = a then v else Tab.get regReset s.regs b := Tab.get_set _ _ _ _ _

theorem State.reg_of_regs {s t : State} (h : t.regs = s.regs) (a : Nat) : t.reg a = s.reg a := by
  unfold State.reg; rw [h]

theorem KeepsRegs.refl (as : List Nat) (s : State) : KeepsRegs as s s := fun _ _ => rfl

theorem KeepsRegs.trans {as : List Nat} {s t u : State} (h : KeepsRegs as s t) (g : KeepsRegs as t u) : KeepsRegs as s u :=
  fun a ha => (g a ha).trans (h a ha)

theorem KeepsRegs.of_regs {s t : State} (h : t.regs = s.regs) (as : List Nat) : KeepsRegs as s t :=
  fun a _ => State.reg_of_regs h a

theorem KeepsRegs.mono {as bs : List Nat} {s t : State} (h : KeepsRegs as s t) (g : ∀ a, a ∈ as → a ∈ bs) :
    KeepsRegs bs s t := fun a ha => h a (fun hb => ha (g a hb))

theorem keepsRegs_setReg (s : State) (a : Nat) (v : Word) : KeepsRegs [a] s (s.setReg a v) := by
  intro b hb
  exact State.reg_setReg_ne _ _ (by simpa using hb)

theorem KeepsMemory.refl (s : State) : KeepsMemory s s := fun _ => ⟨rfl, rfl, rfl⟩

theorem KeepsMemory.of_fields {s t : State} (h1 : t.sram = s.sram) (h2 : t.hbmMem = s.hbmMem) (h3 : t.spill = s.spill) :
    KeepsMemory s t := fun a => by rw [h1, h2, h3]; exact ⟨rfl, rfl, rfl⟩

/-! ## Actions, causes, frames -/

theorem mem_insertDue (d x : Due) (l : List Due) : x ∈ insertDue d l ↔ x = d ∨ x ∈ l := by
  induction l with
  | nil => simp [insertDue]
  | cons y ys ih =>
    unfold insertDue
    split
    · simp
    · simp only [List.mem_cons, ih]; tauto

@[simp] theorem State.hold_agenda (s : State) (src : Issuer) (due : Count) (a : Act) :
    (s.hold src due a).agenda = insertDue ⟨due, src, a⟩ s.agenda := rfl

@[simp] theorem State.raise_agenda (s : State) (fs : Fin 128) (i : Fin 80) :
    (s.raise fs i).agenda = insertDue ⟨s.count + cyc 64, .island i, .raise fs i⟩ s.agenda := rfl

theorem raises_raise (s : State) (fs : Fin 128) (i : Fin 80) : Raises fs i s (s.raise fs i) := by
  simp [Raises, mem_insertDue]

@[simp] theorem State.emit_out (s : State) (o : Out) : (s.emit o).out = s.out ++ [o] := rfl

theorem State.causeAt_causeOn (s : State) (fs inst : Nat) : (s.causeOn fs inst).causeAt fs inst = true := by
  unfold State.causeOn State.causeAt
  split
  · rw [List.any_eq_true]; exact ⟨_, ‹_›, by simp⟩
  · simp

theorem State.causeAt_causeOff (s : State) (fs inst : Nat) : (s.causeOff fs inst).causeAt fs inst = false := by
  simp [State.causeOff, State.causeAt]

theorem State.causeStands_of_causeAt {s : State} {fs inst : Nat} (h : s.causeAt fs inst = true) :
    s.causeStands fs = true := by
  unfold State.causeAt at h; unfold State.causeStands
  rw [List.any_eq_true] at h ⊢
  obtain ⟨c, hc, h⟩ := h
  exact ⟨c, hc, by simp_all⟩

/-! ## Tables of structures: the entry set, and every other one -/

@[simp] theorem State.setMu_mu (s : State) (n u i v : Nat) (x : Meas) :
    (s.setMu n u x).mu i v = if 9 * i + v = 9 * n + u then x else s.mu i v := Tab.get_set _ _ _ _ _

@[simp] theorem State.setMon_mon (s : State) (n m i j : Nat) (x : Mon) :
    (s.setMon n m x).mon i j = if i * 26 + j = n * 26 + m then x else s.mon i j := Tab.get_set _ _ _ _ _

@[simp] theorem State.setLch_lch (s : State) (c d : Nat) (x : LoopChan) :
    (s.setLch c x).lch d = if d = c then x else s.lch d := Tab.get_set _ _ _ _ _

@[simp] theorem State.setEng_eng (s : State) (c d : Nat) (x : LoopEng) :
    (s.setEng c x).eng d = if d = c then x else s.eng d := Tab.get_set _ _ _ _ _

@[simp] theorem State.setChan_chan (s : State) (c d : Nat) (x : ChanDrv) :
    (s.setChan c x).chan d = if d = c then x else s.chan d := Tab.get_set _ _ _ _ _

@[simp] theorem State.setPin_pin (s : State) (n p i j : Nat) (x : PinDrv) :
    (s.setPin n p x).pin i j = if 26 * i + j = 26 * n + p then x else s.pin i j := Tab.get_set _ _ _ _ _

@[simp] theorem State.setTac_tac (s : State) (n k i j : Nat) (x : Tac) :
    (s.setTac n k x).tac i j = if 2 * i + j = 2 * n + k then x else s.tac i j := Tab.get_set _ _ _ _ _

@[simp] theorem State.setStamper_stamper (s : State) (n p i j : Nat) (x : Stamper) :
    (s.setStamper n p x).stamper i j = if 26 * i + j = 26 * n + p then x else s.stamper i j := Tab.get_set _ _ _ _ _

@[simp] theorem State.setLocal_localQuant (s : State) (c q d r : Nat) (x : Quantity) :
    (s.setLocal c q x).localQuant d r = if 2 * d + r = 2 * c + q then x else s.localQuant d r := Tab.get_set _ _ _ _ _

@[simp] theorem State.setShip_shipQuant (s : State) (c q d r : Nat) (x : Quantity) :
    (s.setShip c q x).shipQuant d r = if 2 * d + r = 2 * c + q then x else s.shipQuant d r := Tab.get_set _ _ _ _ _

@[simp] theorem State.setPlayer_player (s : State) (c d : Nat) (x : Player) :
    (s.setPlayer c x).player d = if d = c then x else s.player d := Tab.get_set _ _ _ _ _

@[simp] theorem State.setSeqn_seqn (s : State) (c d : Nat) (x : CalSeq) :
    (s.setSeqn c x).seqn d = if d = c then x else s.seqn d := Tab.get_set _ _ _ _ _

@[simp] theorem State.setLink_link (s : State) (c d : Nat) (x : LinkState) :
    (s.setLink c x).link d = if d = c then x else s.link d := Tab.get_set _ _ _ _ _

@[simp] theorem State.setStream_stream (s : State) (c d : Nat) (x : Stream) :
    (s.setStream c x).stream d = if d = c then x else s.stream d := Tab.get_set _ _ _ _ _

@[simp] theorem State.setTrig_trig (s : State) (c d : Nat) (x : Trigger) :
    (s.setTrig c x).trig d = if d = c then x else s.trig d := Tab.get_set _ _ _ _ _

@[simp] theorem State.setAch_ach (s : State) (c d : Nat) (x : AcqChan) :
    (s.setAch c x).ach d = if d = c then x else s.ach d := Tab.get_set _ _ _ _ _

@[simp] theorem State.setSte_ste (s : State) (c d : Nat) (x : StepUnit) :
    (s.setSte c x).ste d = if d = c then x else s.ste d := Tab.get_set _ _ _ _ _

@[simp] theorem State.setQueue_queue (s : State) (c d : Nat) (x : List (Count × BitVec 128)) :
    (s.setQueue c x).queue d = if d = c then x else s.queue d := Tab.get_set _ _ _ _ _

@[simp] theorem State.setExchange_exchange (s : State) (c d : Nat) (x : Option Exchange) :
    (s.setExchange c x).exchange d = if d = c then x else s.exchange d := Tab.get_set _ _ _ _ _

@[simp] theorem State.setTask_task (s : State) (c d : Nat) (x : Task) :
    (s.setTask c x).task d = if d = c then x else s.task d := by
  have h : (s.setTask c x).tasks = Tab.set (fun _ => {}) s.tasks c x := by
    unfold State.setTask; split <;> rfl
  unfold State.task; rw [h]; exact Tab.get_set _ _ _ _ _

end Sys2Proof.Machine
end

