-- ==== Sys2Proof/Laws/Tick.lean ====
section
/-! SUPPORT. What each operation of Machine/Tick.lean may change (Laws/Frame.lean says how to read it). -/
namespace Sys2Proof.Machine

set_option Elab.async false

theorem State.endEngines_does {s} : Does [.agenda, .causes, .free, .fresh, .sram, .chans, .engs] [1, 3, 6] s
      (State.endEngines s) := by
  unfold State.endEngines
  refine Does.foldl ?_ ?_
  · intro y1 y2
    beta_reduce
    refine Does.call State.bgTick_does (by decide +kernel) ?_
    exact Does.refl
  · exact Does.refl

theorem State.endPhases_does {s} : Does [.agenda, .free, .fresh, .sram, .tasks, .sched] [1, 3, 5] s (State.endPhases s) := by
  unfold State.endPhases
  refine Does.foldl ?_ ?_
  · intro y1 y2
    beta_reduce
    extract_lets -underBinder -merge -useContext x3
    refine Does.lets x3 ?_ (fun hx3 => ?_)
    · unfold x3
      refine Does.nextOr ?_ ?_
      · exact Does.refl
      · refine Runs.call execStageDone_runs (by decide +kernel) ?_
        exact Does.refl
    refine Does.ite (fun _ => ?_) (fun _ => ?_)
    · refine Does.nextOr ?_ ?_
      · exact hx3
      · refine Runs.call execYieldPoint_runs (by decide +kernel) ?_
        exact hx3
    · exact Does.refl
  · exact Does.refl

theorem State.runMessage_does {s m} : Does [.agenda, .causes, .free, .fresh, .out, .sram, .tasks, .sched, .acq, .links] [3,
      4] s (State.runMessage s m) := by
  unfold State.runMessage
  extract_lets -underBinder -merge -useContext x1 x2 x3
  refine Does.ite (fun _ => ?_) (fun _ => ?_)
  · refine Does.nextOr ?_ ?_
    · exact Does.refl
    · refine Runs.call execTaskPost_runs (by decide +kernel) ?_
      exact Does.refl
  · refine Does.ite (fun _ => ?_) (fun _ => ?_)
    · refine Does.nextOr ?_ ?_
      · exact Does.refl
      · refine Runs.call execTaskClear_runs (by decide +kernel) ?_
        exact Does.refl
    · refine Does.ite (fun _ => ?_) (fun _ => ?_)
      · refine Does.nextOr ?_ ?_
        · exact Does.refl
        · refine Runs.call execTaskArm_runs (by decide +kernel) ?_
          exact Does.refl
      · refine Does.ite (fun _ => ?_) (fun _ => ?_)
        · refine Does.nextOr ?_ ?_
          · exact Does.refl
          · refine Runs.call execTaskStart_runs (by decide +kernel) ?_
            exact Does.refl
        · refine Does.ite (fun _ => ?_) (fun _ => ?_)
          · refine Does.nextOr ?_ ?_
            · exact Does.refl
            · refine Runs.call execTaskCancel_runs (by decide +kernel) ?_
              exact Does.refl
          · refine Does.ite (fun _ => ?_) (fun _ => ?_)
            · refine Does.nextOr ?_ ?_
              · exact Does.refl
              · refine Runs.call execTaskReset_runs (by decide +kernel) ?_
                exact Does.refl
            · refine Does.ite (fun _ => ?_) (fun _ => ?_)
              · refine Does.nextOr ?_ ?_
                · exact Does.refl
                · refine Runs.call execTaskPrio_runs (by decide +kernel) ?_
                  exact Does.refl
              · refine Does.ite (fun _ => ?_) (fun _ => ?_)
                · refine Does.nextOr ?_ ?_
                  · exact Does.refl
                  · refine Runs.call execTaskTimer_runs (by decide +kernel) ?_
                    exact Does.refl
                · exact Does.refl

theorem State.endAgeing_does {s} : Does [.agenda, .fresh, .sram, .tasks, .sched] [4, 5] s (State.endAgeing s) := by
  unfold State.endAgeing
  refine Does.foldl ?_ ?_
  · intro y1 y2
    beta_reduce
    refine Does.ite (fun _ => ?_) (fun _ => ?_)
    · refine Does.nextOr ?_ ?_
      · exact Does.refl
      · refine Runs.call execTaskAgeing_runs (by decide +kernel) ?_
        exact Does.refl
    · exact Does.refl
  · exact Does.refl

theorem State.endCommit_does {s} : Does [.agenda, .free, .fresh, .sram, .tasks] [3] s (State.endCommit s) := by
  unfold State.endCommit
  refine Does.foldl ?_ ?_
  · intro y1 y2
    beta_reduce
    refine Does.ite (fun _ => ?_) (fun _ => ?_)
    · refine Does.nextOr ?_ ?_
      · exact Does.refl
      · refine Runs.call execStepCommit_runs (by decide +kernel) ?_
        exact Does.refl
    · exact Does.refl
  · exact Does.refl

theorem State.endDispatch_does {s} : Does [.fresh, .sram, .tasks, .sched] [5] s (State.endDispatch s) := by
  unfold State.endDispatch
  refine Does.foldl ?_ ?_
  · intro y1 y2
    beta_reduce
    refine Does.nextOr ?_ ?_
    · exact Does.refl
    · refine Runs.call execTaskDispatch_runs (by decide +kernel) ?_
      exact Does.refl
  · exact Does.refl

theorem State.endDisplace_does {s} : Does [.fresh, .sram, .tasks, .sched] [5] s (State.endDisplace s) := by
  unfold State.endDisplace
  extract_lets -underBinder -merge -useContext x1
  refine Does.foldl ?_ ?_
  · intro y2 y3
    refine Does.call State.tryDisplace_does (by decide +kernel) ?_
    exact Does.refl
  · exact Does.refl

theorem State.endJudge_does {s} : Does [.agenda, .causes, .fresh, .sram, .tasks, .sched, .acq, .twn] [4] s (State.endJudge s) := by
  unfold State.endJudge
  extract_lets -underBinder -merge -useContext x1 x2 x3
  refine Does.lets x3 ?_ (fun hx3 => ?_)
  · unfold x3
    refine Does.foldl ?_ ?_
    · intro y4 y5
      refine Does.call State.fixStart_does (by decide +kernel) ?_
      exact Does.refl
    · refine Does.put_sched (by decide +kernel) ?_
      exact Does.refl
  refine Does.foldl ?_ ?_
  · intro y6 y7
    beta_reduce
    refine Does.nextOr ?_ ?_
    · exact Does.refl
    · refine Runs.call execTaskJudge_runs (by decide +kernel) ?_
      exact Does.refl
  · exact hx3

theorem State.endQueues_does {s} : Does [.agenda, .fresh, .sched] [1, 4] s (State.endQueues s) := by
  unfold State.endQueues
  extract_lets -underBinder -merge -useContext x1
  refine Does.lets x1 ?_ (fun hx1 => ?_)
  · unfold x1
    refine Does.ite (fun _ => ?_) (fun _ => ?_)
    · refine Does.call State.takeHeads_does (by decide +kernel) ?_
      exact Does.refl
    · exact Does.refl
  refine Does.foldl ?_ ?_
  · intro y2 y3
    beta_reduce
    refine Does.foldl ?_ ?_
    · intro y4 y5
      beta_reduce
      refine Does.nextOr ?_ ?_
      · exact Does.refl
      · refine Runs.call execQpushRoom_runs (by decide +kernel) ?_
        exact Does.refl
    · exact Does.refl
  · exact hx1

theorem State.endStalled_does {s} : Does [.regs, .staging, .shadow, .agenda, .free, .fresh, .out, .sram, .hbmMem, .sched,
      .hbm, .twn, .links] [] s (State.endStalled s) := by
  unfold State.endStalled
  refine Does.foldl ?_ ?_
  · intro y1 y2
    beta_reduce
    refine Does.call State.drainStalled_does (by decide +kernel) ?_
    exact Does.refl
  · exact Does.refl

theorem State.endScheduler_does {s} : Does [.regs, .staging, .shadow, .agenda, .causes, .free, .fresh, .out, .sram, .hbmMem,
      .tasks, .sched, .acq, .hbm, .twn, .links] [] s (State.endScheduler s) := by
  unfold State.endScheduler
  extract_lets -underBinder -merge -useContext x1 x2
  refine Does.lets x1 ?_ (fun hx1 => ?_)
  · unfold x1
    refine Does.call State.endJudge_does (by decide +kernel) ?_
    exact Does.refl
  refine Does.lets x2 ?_ (fun hx2 => ?_)
  · unfold x2
    refine Does.ite (fun _ => ?_) (fun _ => ?_)
    · exact Does.refl
    · refine Does.ite (fun _ => ?_) (fun _ => ?_)
      · refine Does.call State.endAgeing_does (by decide +kernel) ?_
        refine Does.call State.endDisplace_does (by decide +kernel) ?_
        refine Does.call State.endDispatch_does (by decide +kernel) ?_
        refine Does.call State.endCommit_does (by decide +kernel) ?_
        refine Does.call State.endPhases_does (by decide +kernel) ?_
        exact hx1
      · exact hx1
  refine Does.call State.endStalled_does (by decide +kernel) ?_
  refine Does.call State.endQueues_does (by decide +kernel) ?_
  exact hx2

theorem State.endSafe_does {s} : Does [.twn] [14] s (State.endSafe s) := by
  unfold State.endSafe
  split
  · exact Does.refl
  · extract_lets -underBinder -merge -useContext x1 x2 x3
    refine Does.lets x2 ?_ (fun hx2 => ?_)
    · unfold x2
      refine Does.call State.startCopy_does (by decide +kernel) ?_
      exact Does.refl
    refine Does.ite (fun _ => ?_) (fun _ => ?_)
    · refine Does.put_twn (by decide +kernel) ?_
      exact hx2
    · exact Does.refl

theorem State.endShip_does {s} : Does [.out, .twn, .links] [] s (State.endShip s) := by
  unfold State.endShip
  extract_lets -underBinder -merge -useContext x1 x2 x3 x4
  refine Does.ite (fun _ => ?_) (fun _ => ?_)
  · exact Does.refl
  · refine Does.call State.sentOn_does (by decide +kernel) ?_
    refine Does.put (t := s) [.out, .twn] ?_ (by decide +kernel) ?_ ?_ ?_ ?_ ?_
    · exact Does.refl
    · rfl
    · rfl
    · rfl
    · rfl
    · intro p hp; cases p <;> first | exact absurd (by decide) hp | rfl

theorem State.endSigs_does {s} : Does [.agenda, .causes, .fresh, .out, .acq, .calRec, .links, .sec, .mgt] [13, 16, 18] s
      (State.endSigs s) := by
  unfold State.endSigs
  refine Does.call State.endSpent_does (by decide +kernel) ?_
  refine Does.call State.endSpent_does (by decide +kernel) ?_
  refine Does.call State.serveSigs_does (by decide +kernel) ?_
  exact Does.refl

theorem State.endStreams_does {s} : Does [.agenda, .causes, .fresh, .hbmMem, .acq, .hbm, .twn] [10, 12] s (State.endStreams s) := by
  unfold State.endStreams
  refine Does.foldl ?_ ?_
  · intro y1 y2
    beta_reduce
    refine Does.ite (fun _ => ?_) (fun _ => ?_)
    · exact Does.refl
    · refine Does.call State.roomCame_does (by decide +kernel) ?_
      exact Does.refl
  · refine Does.call State.releaseTo_does (by decide +kernel) ?_
    exact Does.refl

theorem State.endCycle_does {s} : Does (Part.but [.pending, .dueNow, .spill, .pins, .codes, .stampers, .tacs, .mons, .quants,
      .ships, .players, .seg, .cals]) [] s (State.endCycle s) := by
  unfold State.endCycle
  extract_lets -underBinder -merge -useContext x1
  refine Does.lets x1 ?_ (fun hx1 => ?_)
  · unfold x1
    refine Does.call State.endShip_does (by decide +kernel) ?_
    refine Does.call State.endSigs_does (by decide +kernel) ?_
    refine Does.call State.endSafe_does (by decide +kernel) ?_
    refine Does.call State.bootAdvance_does (by decide +kernel) ?_
    refine Does.call State.endStreams_does (by decide +kernel) ?_
    refine Does.call State.endEngines_does (by decide +kernel) ?_
    refine Does.call State.endScheduler_does (by decide +kernel) ?_
    exact Does.refl
  clear_value x1
  refine Does.put (t := x1) [.count, .fresh, .raised, .merged] ?_ (by decide +kernel) ?_ ?_ ?_ ?_ ?_
  · exact hx1
  · rfl
  · rfl
  · rfl
  · rfl
  · intro p hp; cases p <;> first | exact absurd (by decide) hp | rfl

theorem State.perform_does {s d} : Does (Part.but [.pending]) [] s (State.perform s d) := by
  unfold State.perform
  split
  · refine Does.nextOr ?_ ?_
    · exact Does.refl
    · refine Runs.call exec_runs (by decide +kernel) ?_
      exact Does.refl
  · refine Does.call State.applyFlags_does (by decide +kernel) ?_
    exact Does.refl
  · refine Does.nextOr ?_ ?_
    · exact Does.refl
    · refine Runs.call execFaultRaise_runs (by decide +kernel) ?_
      exact Does.refl
  · refine Does.call State.performRead_does (by decide +kernel) ?_
    exact Does.refl
  · refine Does.call State.performWrite_does (by decide +kernel) ?_
    exact Does.refl
  · refine Does.call State.applyShipped_does (by decide +kernel) ?_
    exact Does.refl
  · refine Does.call State.deliver_does (by decide +kernel) ?_
    exact Does.refl
  · refine Does.call State.runMessage_does (by decide +kernel) ?_
    exact Does.refl
  · refine Does.call State.judgeCause_does (by decide +kernel) ?_
    exact Does.refl
  · refine Does.call State.setLatch_does (by decide +kernel) ?_
    exact Does.refl
  · refine Does.call State.monStart_does (by decide +kernel) ?_
    exact Does.refl
  · refine Does.call State.overridePins_does (by decide +kernel) ?_
    exact Does.refl
  · refine Does.call State.armTrigger_does (by decide +kernel) ?_
    exact Does.refl
  · refine Does.call State.disarmTrigger_does (by decide +kernel) ?_
    exact Does.refl
  · refine Does.call State.sealAt_does (by decide +kernel) ?_
    exact Does.refl
  · refine Does.call State.spareOn_does (by decide +kernel) ?_
    exact Does.refl

theorem State.idle_does {s} : Does (Part.but [.pending]) [] s (State.idle s) := by
  unfold State.idle
  extract_lets -underBinder -merge -useContext x1 x2 x3
  refine Does.lets x3 ?_ (fun hx3 => ?_)
  · unfold x3
    refine Does.foldl ?_ ?_
    · intro y4 y5
      beta_reduce
      refine Does.call State.crossed_does (by decide +kernel) ?_
      exact Does.refl
    · refine Does.put_agenda (by decide +kernel) ?_
      exact Does.refl
  refine Does.ite (fun _ => ?_) (fun _ => ?_)
  · refine Does.nextOr ?_ ?_
    · exact hx3
    · refine Runs.call execFaultRaise_runs (by decide +kernel) ?_
      exact hx3
  · split
    · refine Does.call State.endCycle_does (by decide +kernel) ?_
      exact Does.refl
    · extract_lets -underBinder -merge -useContext x6 x7
      refine Does.lets x7 ?_ (fun hx7 => ?_)
      · unfold x7
        refine Does.call State.perform_does (by decide +kernel) ?_
        refine Does.put (t := s) [.agenda, .dueNow] ?_ (by decide +kernel) ?_ ?_ ?_ ?_ ?_
        · exact Does.refl
        · rfl
        · rfl
        · rfl
        · rfl
        · intro p hp; cases p <;> first | exact absurd (by decide) hp | rfl
      refine Does.ite (fun _ => ?_) (fun _ => ?_)
      · refine Does.put_dueNow (by decide +kernel) ?_
        exact hx7
      · refine Does.call State.endCycle_does (by decide +kernel) ?_
        exact Does.refl

end Sys2Proof.Machine
end

