-- ==== Sys2Proof/WellFormed.lean ====
section
/-! DEFINITION. What makes a command well formed beyond the types of its operands: the alignment and the place of register
addresses, the lengths of data, the places of pins and the slots of a SHIP frame. A meaning answers for every command; a
command that is not well formed is one that its sender cannot form. -/
namespace Sys2Proof

/-- A register of R33 lies at a multiple of 4. -/
def wordAligned (addr : BitVec 28) : Bool := addr.toNat % 4 == 0

/-- An address of the alias range of a block: offsets 10000h to 1FFFFh (R33, R48). -/
def inAliasRange (addr : BitVec 28) : Bool :=
  decide (0x10000 ≤ addr.toNat % 0x100000) && decide (addr.toNat % 0x100000 < 0x20000)

/-- The 16-byte slots of a shipped item (R424). -/
def ShipItem.slots : ShipItem → Nat
  | .anchor .. => 2
  | .group .. => 3
  | .result .. | .latch .. | .refLevel .. | .col .. => 1

/-- A result group names each unit once, in rising order, and at least one (R424, MASK). -/
def ShipItem.wf : ShipItem → Bool
  | .group _ rs _ => !rs.isEmpty && decide ((rs.map (fun r => r.1.val)).Pairwise (· < ·))
  | .result .. | .latch .. | .anchor .. | .refLevel .. | .col .. => true

/-- 1 to 256 bytes of data (R408). -/
def dataLength (d : List Byte) : Bool := decide (1 ≤ d.length) && decide (d.length ≤ 256)

/-- What a command must meet beyond its types. -/
def Instr.wf : Instr → Bool
  | .regWrite _ a _ => wordAligned a
  | .bitAliasWrite _ a _ => wordAligned a && inAliasRange a
  | .tacCfgWrite _ _ _ _ pin => decide (pin.toNat < 26)
  | .tacCalDone _ _ _ _ table => table.length == 1024
  | .scrub _ v => decide (v.toNat ≤ 2)
  | .hbmRequestDone _ _ v => decide (v.toNat ≤ 2)
  | .ship items _ _ => !items.isEmpty && items.all ShipItem.wf && decide ((items.map ShipItem.slots).sum ≤ 14)
  | .fwd _ _ _ d => dataLength d
  | .wr _ f => dataLength f.data
  | .ferry f => decide (f.data.length ≤ 248) && !f.data.isEmpty && decide (f.space.toNat ≤ 2)
  | .faultRaise rs => !rs.isEmpty
  | .blkCtlWrite .. | .tbsStep .. | .tbsAnchor | .anchorPeriodic | .timeMsgSend | .ringTime .. | .holdTimeout |
    .phaseStep | .freqSlew | .pllRefLoss .. | .colTimeSend | .colTime .. | .patStart .. | .patCodeEnd .. |
    .drvEnWrite .. | .chPeriodWrite .. | .periodStart .. | .safeNFall | .safeNRise | .dllRelock .. | .dllCompare .. |
    .dllLockDone .. | .tacCal .. | .stpCfgWrite .. | .thresholdCrossing .. | .muEnWrite .. | .muApply .. |
    .gateEnd .. | .resultDue .. | .monitorTick .. | .monEnWrite .. | .monThrWrite .. | .monUnsettledTimeout .. |
    .loopUpdate .. | .lpeFlip .. | .lchEnWrite .. | .bgRequest .. | .bgAbort .. | .bgRoutineRun .. | .engRestart .. |
    .seal .. | .sealDone .. | .unseal .. | .ddsrst | .plStart .. | .plJump .. | .plStop .. | .sampleBoundary |
    .refillArrive .. | .qpush .. | .qpushRoom .. | .ingressTake .. | .taskPost .. | .taskClear .. | .taskArm .. |
    .taskStart .. | .taskCancel .. | .taskReset .. | .taskPrio .. | .taskTimer .. | .taskTimerExpiry .. |
    .taskJudge .. | .taskDispatch .. | .yieldPoint .. | .stageDone .. | .stepCommit .. | .stepStart .. |
    .stepTimeout .. | .taskAgeing .. | .trgArm .. | .trgDisarm .. | .trgFire .. | .ringArm .. | .ringDisarm .. |
    .ringFire .. | .triggerDecide .. | .rateEval | .statusRecord | .sealInstant | .sealSign .. | .spillMove .. |
    .excursionWrite .. | .streamSend .. | .refresh .. | .hbmRateReq .. | .retrain .. | .hbmTrainDone .. |
    .calqStart .. | .calqAbort .. | .calPhaseEnd .. | .calFitDone .. | .calCommit .. | .calRecordStored .. |
    .refCheck | .refCheckDone .. | .hello .. | .negotiateTimeout | .peerOwnLow | .ownConflict | .presNHigh |
    .plausColTimeout | .keep | .peerFrameTimeout | .digestSend | .digest .. | .twnJoin .. | .joinCopyDone |
    .twnLeave .. | .twnCol .. | .colApply .. | .lctl .. | .lctlSend .. | .rd .. | .strm .. | .replayTimeout .. |
    .linkDetect .. | .pollDone .. | .configDone .. | .trainTimeout .. | .recoveryDone .. | .recoveryTimeout .. |
    .lpRetrain .. | .lpEnWrite .. | .lsEntry .. | .ldEntry .. | .linkWake .. | .strLoad .. | .strCheckDone .. |
    .strApply .. | .strAbort | .unload .. | .store .. | .reactionBlockReset .. | .fltAck .. | .fltStickyWrite .. |
    .force | .rstcmdDie | .rstcmdBlock .. | .rstNLow | .resetRelease .. | .powerOn .. | .inputOutOfRange |
    .inputReturn | .holdupExhausted | .sensorSample .. | .thermalRelease | .loadWindow .. | .watchdogExpiry |
    .status .. | .sensors .. | .history .. | .logread .. | .logmark .. | .update .. | .updateDone .. | .activate .. |
    .confirm .. | .rollback .. | .conftoExpiry | .strcopy .. | .getreply .. | .replyReady .. | .replyDiscard .. |
    .secHello .. | .proof .. | .sessionTimeout .. | .helloLockEnd .. | .close .. | .attest .. | .cert .. |
    .sealsig .. | .selftest .. | .enroll .. | .enrollCk .. | .revoke .. | .floor .. | .mode .. | .zeroise .. |
    .spillEraseDone | .treeReady .. | .portAccess | .lossOfAlignment .. | .entropyHealthFail | .ageingLearned |
    .ovenReady => true

end Sys2Proof
end

