-- ==== Sys2Proof/Tests/Slice0.lean ====
section
/-! SUPPORT. Tests: terms that are not well formed and are refused, values of the manual's worked examples, and for every
obligation with hypotheses (`Obligations.X`) states and operands that meet the hypotheses of each of its clauses. -/
namespace Sys2Proof.Machine

/-! ## Helpers -/

/-- More registers written. -/
def State.withRegs (s : State) (rs : List (Nat × Word)) : State := rs.foldl (fun s r => s.setReg r.1 r.2) s
/-- Bytes written to the plain. -/
def State.withBytes (s : State) (l : List (Nat × List Byte)) : State :=
  { s with sram := l.foldl (fun m p => Memory.writeBytes m p.1 p.2) s.sram }

end Sys2Proof.Machine
namespace Sys2Proof.Tests.Slice0
open Sys2Proof Sys2Proof.Machine
set_option linter.unusedVariables false
set_option Elab.async false

/-- A state with registers written. -/
def S (rs : List (Nat × Word)) : State := rs.foldl (fun s r => s.setReg r.1 r.2) {}
/-- A register at an address with one, two or three fields set. -/
abbrev F (a : Nat) (f : Fld) (v : Nat) : Nat × Word := (a, fldWord f v)
abbrev F2 (a : Nat) (f : Fld) (v : Nat) (g : Fld) (u : Nat) : Nat × Word := (a, putF (fldWord f v) g u)
abbrev F3 (a : Nat) (f : Fld) (v : Nat) (g : Fld) (u : Nat) (h : Fld) (x : Nat) : Nat × Word :=
  (a, putF (putF (fldWord f v) g u) h x)
/-- A table of one entry. -/
def one {α : Type} (k : Nat) (v : α) : Tab α := [(k, v)]
/-- What holds of the one value of an option holds of every value it is said to have. -/
theorem all_some {α : Type} {o : Option α} {p : α → Prop} [DecidablePred p] (h : o.all (fun x => decide (p x)) = true)
    (l : α) (hl : o = some l) : p l := by
  simpa [hl] using h
/-- A placement of the plain's seven regions. -/
def plain7 : Str := { plain := [0, 32, 56, 68, 76, 84, 92] }
/-- A record of `n` bytes, zero but for the pieces given. -/
def recOf (n : Nat) (l : List (Nat × List Byte)) : List Byte :=
  l.foldl (fun b p => putBytes b p.1 p.2) (List.replicate n 0#8)
/-! ## The ROM's law table: COST and the quantities of a standard law, whatever its entries -/

theorem law_word (l : Nat) (h1 : 1 ≤ l) (h6 : l ≤ 6) : (Ctl.lawWord {} l 0).toNat =
    ((Config.romLaw (l * 8)).toNat % 2 ^ 14 + 2 ^ 15 + (stdNeedsV l).toNat * 2 ^ 16 + (stdNeedsI l).toNat * 2 ^ 17 +
      stdCost l * 2 ^ 24) % 2 ^ 32 := by
  simp [Ctl.lawWord, Tab.get, romLawWord, h1, h6]

theorem stdCost_le (l : Nat) (h1 : 1 ≤ l) (h6 : l ≤ 6) : stdCost l ≤ 28 := by interval_cases l <;> decide

theorem law_cost (l : Nat) (h1 : 1 ≤ l) (h6 : l ≤ 6) : Ctl.lawCost {} l = stdCost l := by
  unfold Ctl.lawCost
  rw [law_word l h1 h6]
  have hv := Bool.toNat_le (stdNeedsV l)
  have hi := Bool.toNat_le (stdNeedsI l)
  have hc := stdCost_le l h1 h6
  omega

theorem law_needs_v (l : Nat) (h1 : 1 ≤ l) (h6 : l ≤ 6) : Ctl.lawNeedsV {} l = stdNeedsV l := by
  unfold Ctl.lawNeedsV
  rw [BitVec.getLsbD, law_word l h1 h6, Nat.testBit_eq_decide_div_mod_eq]
  have hi := Bool.toNat_le (stdNeedsI l)
  have hc := stdCost_le l h1 h6
  cases stdNeedsV l <;> simp only [Bool.toNat_false, Bool.toNat_true, decide_eq_true_eq, decide_eq_false_iff_not] <;> omega

theorem law_needs_i (l : Nat) (h1 : 1 ≤ l) (h6 : l ≤ 6) : Ctl.lawNeedsI {} l = stdNeedsI l := by
  unfold Ctl.lawNeedsI
  rw [BitVec.getLsbD, law_word l h1 h6, Nat.testBit_eq_decide_div_mod_eq]
  have hv := Bool.toNat_le (stdNeedsV l)
  have hc := stdCost_le l h1 h6
  cases stdNeedsI l <;> simp only [Bool.toNat_false, Bool.toNat_true, decide_eq_true_eq, decide_eq_false_iff_not] <;> omega

theorem standard_law (l : Nat) (h1 : 1 ≤ l) (h6 : l ≤ 6) : Ctl.isStandard {} l = true := by
  simp [Ctl.isStandard, Ctl.lawWord, Tab.get, h1, h6]

theorem loop_lead (s : State) (c l n : Nat) (hc : s.ctl = {}) (hl : s.lawOf c = l) (h1 : 1 ≤ l) (h6 : l ≤ 6)
    (h : 128 * (stdCost l + 73) ≤ n) : 128 * (s.ctl.lawCost (s.lawOf c) + 73) ≤ n := by
  rw [hc, hl, law_cost l h1 h6]; exact h

theorem loop_standard (s : State) (c l : Nat) (hc : s.ctl = {}) (hl : s.lawOf c = l) (h1 : 1 ≤ l) (h6 : l ≤ 6) :
    s.ctl.isStandard (s.lawOf c) = true := by
  rw [hc, hl]; exact standard_law l h1 h6

theorem loop_lacks (s : State) (c l : Nat) (b : Bool) (hc : s.ctl = {}) (hl : s.lawOf c = l) (h1 : 1 ≤ l) (h6 : l ≤ 6)
    (h : ((stdNeedsV l && !(s.inputIn c 0)) || (stdNeedsI l && !(s.inputIn c 1))) = b) :
    s.lawLacks c (s.lawOf c) = b := by
  unfold State.lawLacks
  rw [hc, hl, law_needs_v l h1 h6, law_needs_i l h1 h6]; exact h

/-! ## Commands that are not well formed -/

theorem test_wf_misaligned : (Instr.regWrite (.port 0) 0x33 0).wf = false := by decide
theorem test_wf_no_alias : (Instr.bitAliasWrite (.port 0) 0x20000 1).wf = false := by decide
theorem test_wf_alias_aligned : (Instr.bitAliasWrite (.port 0) 0x1FFFE 1).wf = false := by decide
theorem test_wf_tac_pin : (Instr.tacCfgWrite (.port 0) 0 0 true 26).wf = false := by decide
theorem test_wf_tac_table : (Instr.tacCalDone 0 0 0 0 [0]).wf = false := by decide
theorem test_wf_scrub_verdict : (Instr.scrub 0 3).wf = false := by decide
theorem test_wf_request_verdict : (Instr.hbmRequestDone 0 0 3).wf = false := by decide
theorem test_wf_ship_empty : (Instr.ship [] false false).wf = false := by decide
theorem test_wf_ship_long : (Instr.ship (List.replicate 15 (.col 0 0)) false false).wf = false := by decide
theorem test_wf_group_empty : (Instr.ship [.group 0 [] 0] false false).wf = false := by decide
theorem test_wf_group_order : (Instr.ship [.group 0 [(1, 0, 0), (1, 0, 0)] 0] false false).wf = false := by decide
theorem test_wf_fwd_empty : (Instr.fwd 0 0 0 []).wf = false := by decide
theorem test_wf_fwd_long : (Instr.fwd 0 0 0 (List.replicate 257 0)).wf = false := by decide +kernel
theorem test_wf_wr_empty :
    (Instr.wr 0 ⟨⟨0, false, true, false, 0, 0, true, true⟩, 0, 0, 0, []⟩).wf = false := by decide
theorem test_wf_ferry_empty : (Instr.ferry ⟨0, 0, [], none⟩).wf = false := by decide
theorem test_wf_ferry_long : (Instr.ferry ⟨0, 0, List.replicate 249 0, none⟩).wf = false := by decide +kernel
theorem test_wf_ferry_space : (Instr.ferry ⟨3, 0, [1], none⟩).wf = false := by decide
theorem test_wf_no_raise : (Instr.faultRaise []).wf = false := by decide
theorem test_wf_good : (Instr.bitAliasWrite (.port 0) 0x491080C 1).wf = true := by decide

/-! ## Values of the manual's worked examples -/

/-- Chapter 2: the alias word 491_080Ch is bit 3 of the register at 0040h of island 9. -/
theorem test_alias : regTarget 0x491080C = (0x4900040, some 3) := by decide
/-- Chapter 3: the sample boundary after 1,000,384,000,000 TBU with a divisor of 256. -/
theorem test_boundary : Count.ceilTo 1000384000000#72 32768 = 1000384004096#72 := by decide
/-- Chapter 5: 50,001,234 Hz under C1 = 5,726,623,061 is 3,333,436 µV. -/
theorem test_scaling :
    unitRound (Coef.scaled ⟨167772160000000, 0, 5726623061, 0⟩ 838881503084544) = 3333436 := by decide
/-- Chapter 6: monitor 11 of island 9 has MON_CFG at 3164h and MON_THR at 3170h. -/
theorem test_monitor_place : aMON_CFG 9 11 = 0x4903164 ∧ aMON_THR 9 11 = 0x4903170 := by decide
/-- Chapter 6: HI 2,731 with HI_HYST 8 has the band 2,727 to 2,735: a sample in it keeps the state. -/
theorem test_band : comparator (2 * 2735) 2731 8 none = some true ∧ comparator (2 * 2730) 2731 8 (some false) = some false ∧
    comparator (2 * 2726) 2731 8 (some true) = some false := by decide

/-- Block 3 of engine 1 in chapter 7's example. -/
def cccvBlock : List Byte := recOf 64 [(0, [1#8]), (4, leBytes 4 0), (8, leBytes 4 230000), (0xC, leBytes 4 16),
  (0x10, leBytes 4 1), (0x14, leBytes 4 (2 ^ 32 - 20000)), (0x18, leBytes 4 20000), (0x20, leBytes 4 4200000),
  (0x28, leBytes 4 3276800), (0x2C, leBytes 4 131072)]
/-- Chapter 7, updates k0 and k1: constant current, then constant voltage. -/
theorem test_cccv_k0 :
    stdLaw 1 cccvBlock 24000000 4199980 24000410 240000 23456248 17280 24000000 205783040 0 false =
      ⟨104420, 24000000, 205782630, 24000000, false⟩ := by decide
theorem test_cccv_k1 :
    stdLaw 1 cccvBlock 24000000 4200004 24000180 240000 23456248 17280 24000000 205782630 0 false =
      ⟨104420, 23999992, 205782250, 23999800, true⟩ := by decide
/-- Chapter 7: H 104,420 gives the edge words 8001_08CEh and 4002_A0B2h. -/
theorem test_edges : edgeSet 104420 240000 = [0x800108CE#32, 0x4002A0B2#32] := by decide
/-- Chapter 8: word 0D03_B800h of the law table has COST 0Dh, NEEDI, NEEDV and VALID. -/
theorem test_law_word : (fun c : Ctl => (c.lawCost 0x40, c.lawNeedsI 0x40, c.lawNeedsV 0x40, c.lawValid 0x40))
    { law := [(0x200, 0x0D03B800#32)] } = (13, true, true, true) := by decide
/-- Chapter 13: offset 4123_4560h of basin C at 4000_0000h with G = 4 KiB lies on pseudo-channel 4 at 0412_3560h. -/
theorem test_hbm_place : hbmPlace 0x40000000 4096 0x41234560 = (4, 0x4123560) := by decide
/-- Chapter 14: PATH_REF for SV of local channel 1 is A524_0000_0000_5ADBh. -/
theorem test_switch_code : switchCode opPathRef 1 0 = 0xA524000000005ADB#64 := by decide
/-- Chapter 14: the fit of the four points of channel 37. -/
theorem test_fit : fitCoefs 167772160000000 [(22000276 * 2 ^ 24, 1000003), (40000252 * 2 ^ 24, 2500001),
      (58000216 * 2 ^ 24, 3999998), (64000288 * 2 ^ 24, 4500004)] 1 =
    some ⟨167772160000000, BitVec.ofInt 48 (-1310720), 5726623061, 0⟩ := by decide +kernel
/-- Chapter 16: the header of the RDR that answers the timed enable, and the columns of its 48-byte WR. -/
theorem test_rdr_header : ({ typ := 3, vc := 0, tag := 0x17 } : Frame).header 0x5A3 true =
    [0x31, 0x00, 0xA3, 0x05, 0x00, 0x00, 0x17, 0x00] ∧ columnsOf 4 48 = 15 := by decide
/-- Chapter 16: the request block and the data of that WR, here without protection (PROT 0, so 22h), as the module reads them. -/
theorem test_wr_frame : hostInstr 0 none false ([0x22, 0x00, 0xA3, 0x05, 0x04, 0x00, 0x17, 0x00] ++
      [0x40, 0x01, 0x90, 0x04, 0x00, 0x00, 0x00, 0x80, 0x88, 0xEB, 0xE8, 0x00, 0x00, 0x00, 0x00, 0x00] ++ [1, 0, 0, 0] ++
      leBytes 4 0) =
    some (.wr 0 ⟨⟨0, true, false, false, 0x5A3, 0x17, false, true⟩, 0x4900140, 1000384004096, 0, [1, 0, 0, 0]⟩) := by
  decide +kernel
/-- The opcode table gives no row bits: no word spells a command. -/
theorem test_no_word : decodeTableWord 32 0 = none := by decide


/-! ## Witnesses -/

/-- States and operands that meet the hypotheses of each clause of `Obligations.RegisterWrites`. -/
theorem witness_RegisterWrites :
    (∃ (data : Word),
      10 ≤ getF data fTBS_PSLEW_E ∧
      getF data fTBS_PSLEW_E ≤ 20) ∧
    (∃ (data : Word),
      (¬(10 ≤ getF data fTBS_PSLEW_E ∧ getF data fTBS_PSLEW_E ≤ 20))) ∧
    (∃ (s : State),
      s.blkOn 1 = true) :=
  ⟨⟨2780021969#32, by decide +kernel⟩,
   ⟨4294967295#32, by decide +kernel⟩,
   ⟨(S [(0x100004,1),(0x30, 0xABCDEF12)]), by decide +kernel⟩⟩

/-- States and operands that meet the hypotheses of each clause of `Obligations.BlockEnables`. -/
theorem witness_BlockEnables :
    (∃ (blk : BitVec 7),
      (fixedOn blk.toNat = true ∨ blk = 13)) ∧
    (∃ (blk : BitVec 7),
      blockExists blk.toNat = true ∧
      fixedOn blk.toNat = false ∧
      blk ≠ 13) :=
  ⟨⟨2, by decide +kernel⟩,
   ⟨1, by decide +kernel⟩⟩

/-- States and operands that meet the hypotheses of each clause of `Obligations.TimeBaseStep`. -/
theorem witness_TimeBaseStep :
    (∃ (s : State),
      (s.tbState = tbUnset ∨ s.tbState = tbFree) ∧
      s.anyDriver = false ∧
      (∀ (isl : Isl) (u : UnitNo), (s.mu isl.val u.val).next = none) ∧
      (∀ (q : Fin 4), s.seqRuns q.val = false)) ∧
    (∃ (s : State),
      (¬((s.tbState = tbUnset ∨ s.tbState = tbFree) ∧ s.anyDriver = false))) :=
  ⟨⟨(S [(aTBS_LOAD, 0x12345)]), by decide +kernel⟩,
   ⟨(S [F aTBS_STATE fTBS_STATE_STATE tbLocked]), by decide +kernel⟩⟩

/-- States and operands that meet the hypotheses of each clause of `Obligations.TimeAnchorsAndMessages`. -/
theorem witness_TimeAnchorsAndMessages :
    (∃ (s : State),
      s.bit aACQ_STAT fACQ_STAT_RUN = true ∧
      BitVec.toNat s.count % 2 ^ 40 = 0) ∧
    (∃ (s : State),
      s.bit aACQ_STAT fACQ_STAT_RUN = true ∧
      BitVec.toNat s.count % 2 ^ 40 ≠ 0) ∧
    (∃ (s : State),
      s.isMaster = true ∧
      s.blkOn 1 = true ∧
      BitVec.toNat s.count % 2 ^ 23 = 0 ∧
      s.bit aLNK_STAT fLNK_STAT_RING_OUT = true) ∧
    (∃ (s : State) (m : RingBody),
      s.isMaster = true ∧
      m.origin = 0) ∧
    (∃ (s : State) (m : RingBody),
      s.isMaster = false ∧
      m.origin = 0 ∧
      s.bit aLNK_STAT fLNK_STAT_RING_OUT = true) ∧
    (∃ (s : State),
      s.isMaster = false ∧
      s.blkOn 1 = true ∧
      s.fld aTBS_SRC fTBS_SRC_SRC = 1 ∧
      s.tbState ≠ tbUnset) ∧
    (∃ (s : State),
      s.isMaster = false ∧
      s.blkOn 1 = true ∧
      s.fld aTBS_SRC fTBS_SRC_SRC = 1 ∧
      s.tbState = tbUnset) ∧
    (∃ (s : State),
      s.isMaster = false ∧
      (s.blkOn 1 = false ∨ s.fld aTBS_SRC fTBS_SRC_SRC ≠ 1)) ∧
    (∃ (s : State),
      s.bit aLNK_STAT fLNK_STAT_COL_UP = true ∧
      s.blkOn 1 = true ∧
      s.colDue = true) ∧
    (∃ (s : State) (m : RingBody) (arrival : Count) (t3 : Word),
      s.blkOn 1 = true ∧
      s.isStandby = true ∧
      s.tbs.colSent = [t3] ∧
      m.rxt ≠ 0 ∧
      (BitVec.setWidth 32 arrival - m.linkt + (m.rxt - t3)).msb = false ∧
      s.fld aTBS_SRC fTBS_SRC_SRC ≠ 2) ∧
    (∃ (s : State),
      s.isStandby = false) :=
  ⟨⟨(S [F aACQ_STAT fACQ_STAT_RUN 1]), by decide +kernel⟩,
   ⟨({ S [F aACQ_STAT fACQ_STAT_RUN 1] with count := cyc 17 }), by decide +kernel⟩,
   ⟨(S [(0x100004,1), F aTBS_CTL fTBS_CTL_MPAIR 1, F aTWN_STAT fTWN_STAT_STATE twSolo, F aLNK_STAT fLNK_STAT_RING_OUT 1]), by decide +kernel⟩,
   ⟨(S [(0x100004,1), F aTBS_CTL fTBS_CTL_MPAIR 1, F aTWN_STAT fTWN_STAT_STATE twSolo, F aLNK_STAT fLNK_STAT_RING_OUT 1]), ⟨0, false, 0, 0xFFFF, 3, 1000000, 0xFFFFFFF0, 900, 0⟩, by decide +kernel⟩,
   ⟨(S [(0x100004,1), F aTBS_STATE fTBS_STATE_STATE tbLocked, F aTBS_SRC fTBS_SRC_SRC 1, F aTBS_CABLE fTBS_CABLE_CABLE 77, F aLNK_STAT fLNK_STAT_RING_OUT 1]), ⟨0, false, 0, 0xFFFF, 3, 1000000, 0xFFFFFFF0, 900, 0⟩, by decide +kernel⟩,
   ⟨(S [(0x100004,1), F aTBS_STATE fTBS_STATE_STATE tbLocked, F aTBS_SRC fTBS_SRC_SRC 1, F aTBS_CABLE fTBS_CABLE_CABLE 77, F aLNK_STAT fLNK_STAT_RING_OUT 1]), by decide +kernel⟩,
   ⟨(S [(0x100004,1), F aTBS_SRC fTBS_SRC_SRC 1, F aLNK_STAT fLNK_STAT_COL_UP 1, F aTWN_STAT fTWN_STAT_STATE twActive]), by decide +kernel⟩,
   ⟨(S [F aACQ_STAT fACQ_STAT_RUN 1]), by decide +kernel⟩,
   ⟨(S [(0x100004,1), F aTBS_SRC fTBS_SRC_SRC 1, F aLNK_STAT fLNK_STAT_COL_UP 1, F aTWN_STAT fTWN_STAT_STATE twActive]), by decide +kernel⟩,
   ⟨({ S [(0x100004,1), F aTBS_SRC fTBS_SRC_SRC 0, F aLNK_STAT fLNK_STAT_COL_UP 1, F aTWN_STAT fTWN_STAT_STATE twStandby, F aTBS_COLD fTBS_COLD_COLD 9] with tbs := { colSent := [500], colArr := some 9 }, count := cyc 70000 }), ⟨0, false, 7, 2, 3, 1000000, 5, 900, 700⟩, 1000100, 500, by decide +kernel⟩,
   ⟨(S [F aACQ_STAT fACQ_STAT_RUN 1]), by decide +kernel⟩⟩

/-- States and operands that meet the hypotheses of each clause of `Obligations.TimeBaseFaults`. -/
theorem witness_TimeBaseFaults :
    (∃ (s : State),
      (s.tbState = tbAcquire ∨ s.tbState = tbLocked) ∧
      s.bit aTBS_STATE fTBS_STATE_TIME_VALID = true ∧
      s.fld aTBS_LOCKCFG fTBS_LOCKCFG_HOLD_TO * 192000000 ≤ BitVec.toNat (s.count - s.tbs.lastMsg)) ∧
    (∃ (s : State),
      BitVec.toNat (s.count - s.tbs.lastMsg) < s.fld aTBS_LOCKCFG fTBS_LOCKCFG_HOLD_TO * 192000000) ∧
    (∃ (s : State),
      s.tbState = tbFree) ∧
    (∃ (s : State),
      s.tbs.phaseRem ≠ 0 ∧
      (s.tbState = tbAcquire ∨ s.tbState = tbLocked) ∧
      (∀ (l : Count), s.tbs.lastStep = some l → 128 * 2 ^ s.fld aTBS_PSLEW fTBS_PSLEW_E ≤ BitVec.toNat (s.count - l))) ∧
    (∃ (s : State) (l : Count),
      s.tbs.lastStep = some l ∧
      BitVec.toNat (s.count - l) < 128 * 2 ^ s.fld aTBS_PSLEW fTBS_PSLEW_E) ∧
    (∃ (s : State),
      (∀ (l : Count), s.tbs.lastSlew = some l → 192000000000 ≤ BitVec.toNat (s.count - l))) ∧
    (∃ (s : State) (l : Count),
      s.tbs.lastSlew = some l ∧
      BitVec.toNat (s.count - l) < 192000000000) ∧
    (∃ (s : State) (l : Count),
      s.tbState = tbLocked ∧
      s.tbs.lockedFrom = some l ∧
      259200 * 192000000000 ≤ BitVec.toNat (s.count - l)) :=
  ⟨⟨({ S [F2 aTBS_STATE fTBS_STATE_STATE tbAcquire fTBS_STATE_TIME_VALID 1] with count := cyc 15000000000 }), by decide +kernel⟩,
   ⟨(S [F aTBS_STATE fTBS_STATE_STATE tbFree]), by decide +kernel⟩,
   ⟨(S [F aTBS_STATE fTBS_STATE_STATE tbFree]), by decide +kernel⟩,
   ⟨({ S [F aTBS_STATE fTBS_STATE_STATE tbLocked, F aTBS_FSLEW fTBS_FSLEW_RATE 2] with tbs := { phaseRem := 5, freqTarget := -1000000000000000, lastStep := some 0 }, count := cyc 1048576 }), ⟨by decide +kernel, by decide +kernel, all_some (by decide +kernel)⟩⟩,
   ⟨({ S [F aTBS_STATE fTBS_STATE_STATE tbLocked] with tbs := { phaseRem := 5, freqTarget := 1000000000000000, lastStep := some 0, lastSlew := some 0 }, count := cyc 1024, free := 3 }), 0, by decide +kernel⟩,
   ⟨({ S [F2 aTBS_STATE fTBS_STATE_STATE tbAcquire fTBS_STATE_TIME_VALID 1] with count := cyc 15000000000 }), all_some (by decide +kernel)⟩,
   ⟨({ S [F aTBS_STATE fTBS_STATE_STATE tbLocked] with tbs := { phaseRem := 5, freqTarget := 1000000000000000, lastStep := some 0, lastSlew := some 0 }, count := cyc 1024, free := 3 }), 0, by decide +kernel⟩,
   ⟨({ S [F aTBS_STATE fTBS_STATE_STATE tbLocked] with tbs := { lockedFrom := some 0 }, count := cyc 390000000000000, free := 3 }), 0, by decide +kernel⟩⟩

/-- States and operands that meet the hypotheses of each clause of `Obligations.DriverEnables`. -/
theorem witness_DriverEnables :
    (∃ (ch : Chan) (s : State),
      s.mayEnable ch.val = true ∧
      s.drvEn ch.val = false) ∧
    (∃ (ch : Chan) (s : State),
      s.mayEnable ch.val = false) ∧
    (∃ (ch : Chan) (s : State),
      (s.bit aTBS_STATE fTBS_STATE_TIME_VALID = false ∨ s.blkOn (64 + islOf ch.val) = false ∨ s.bit (aISL_STAT (islOf ch.val)) fISL_STAT_DLL_LOCK = false ∨ s.power.safeN = false ∨ s.twin = twHoldoff)) :=
  ⟨⟨255, (S [(0x7F00004,1), F aTBS_STATE fTBS_STATE_TIME_VALID 1, F (aISL_STAT 63) fISL_STAT_DLL_LOCK 1]), by decide +kernel⟩,
   ⟨5, (S [(0x7F00004,1), F aTBS_STATE fTBS_STATE_TIME_VALID 1, F (aISL_STAT 63) fISL_STAT_DLL_LOCK 1]), by decide +kernel⟩,
   ⟨5, (S [(0x7F00004,1), F aTBS_STATE fTBS_STATE_TIME_VALID 1, F (aISL_STAT 63) fISL_STAT_DLL_LOCK 1]), by decide +kernel⟩⟩

/-- States and operands that meet the hypotheses of each clause of `Obligations.ChannelPeriods`. -/
theorem witness_ChannelPeriods :
    (∃ (ch : Chan) (period : BitVec 28) (s : State),
      48000 ≤ period.toNat ∧
      s.minPeriod ch.val ≤ period.toNat ∧
      (s.fixedMode ch.val = true → period.toNat = s.minPeriod ch.val)) ∧
    (∃ (ch : Chan) (period : BitVec 28) (s : State),
      (period.toNat < 48000 ∨ period.toNat < s.minPeriod ch.val)) ∧
    (∃ (ch : Chan) (s : State) (d : Count) (p : BitVec 28),
      s.startsNow ch.val = true ∧
      (s.chan ch.val).newPeriod = some (d, p) ∧
      Count.upto d (s.periodFrom ch.val s.count) = true) ∧
    (∃ (ch : Chan) (s : State),
      s.startsNow ch.val = false) :=
  ⟨⟨255, 50000, (S []), by decide +kernel⟩,
   ⟨255, 47999, (S []), by decide +kernel⟩,
   ⟨255, ({ S [F (aCH_PERIOD 63 3) fCH_PERIOD_PERIOD 100000] with count := 99968, chans := [(255, {newPeriod := some (99, 50000), start := some 0 })] }), 99, 50000, by decide +kernel⟩,
   ⟨0, ({ S [F (aCH_PERIOD 63 3) fCH_PERIOD_PERIOD 100000] with count := 99968, chans := [(255, {newPeriod := some (99, 50000), start := some 0 })] }), by decide +kernel⟩⟩

/-- States and operands that meet the hypotheses of each clause of `Obligations.PatternsAndSafeInput`. -/
theorem witness_PatternsAndSafeInput :
    (∃ (isl : Isl) (s : State),
      s.blkOn (64 + isl.val) = true ∧
      (∀ (c : Code), Tab.get (fun x => none) s.codes isl.val = some c → Count.before s.at c.stop = false)) ∧
    (∃ (isl : Isl) (s : State) (c : Code),
      s.blkOn (64 + isl.val) = true ∧
      (Tab.get (fun x => none) s.codes isl.val = some c) ∧
      Count.before s.at c.stop = true) ∧
    (∃ (isl : Isl) (s : State) (c : Code),
      (Tab.get (fun x => none) s.codes isl.val = some c) ∧
      Count.upto c.stop s.count = true) ∧
    (∃ (isl : Isl) (s : State) (c : Code),
      (Tab.get (fun x => none) s.codes isl.val = some c) ∧
      Count.upto c.stop s.count = false) :=
  ⟨⟨3, (S [(0x4300004,1), F2 (aPAT_CFG 3) fPAT_CFG_LEN 9 fPAT_CFG_DIV 200, (aPAT_CODE 3, 0x155)]), by decide +kernel⟩,
   ⟨3, ({ S [(0x4300004,1), F3 (aPAT_CFG 3) fPAT_CFG_LEN 9 fPAT_CFG_DIV 200 fPAT_CFG_IDLE 1, F (aISL_STAT 3) fISL_STAT_PAT_BUSY 1] with codes := one 3 (some ⟨128, 128 + cyc 1800, 9, 200, 0x155⟩), count := 256, dueNow := some 300 }), ⟨128, 128 + cyc 1800, 9, 200, 0x155⟩, by decide +kernel⟩,
   ⟨3, ({ S [(0x4300004,1), F3 (aPAT_CFG 3) fPAT_CFG_LEN 9 fPAT_CFG_DIV 200 fPAT_CFG_IDLE 1, F (aISL_STAT 3) fISL_STAT_PAT_BUSY 1] with codes := one 3 (some ⟨128, 128 + cyc 1800, 9, 200, 0x155⟩), count := 128 + cyc 1800, dueNow := some (133 + cyc 1800) }), ⟨128, 128 + cyc 1800, 9, 200, 0x155⟩, by decide +kernel⟩,
   ⟨3, ({ S [(0x4300004,1), F3 (aPAT_CFG 3) fPAT_CFG_LEN 9 fPAT_CFG_DIV 200 fPAT_CFG_IDLE 1, F (aISL_STAT 3) fISL_STAT_PAT_BUSY 1] with codes := one 3 (some ⟨128, 128 + cyc 1800, 9, 200, 0x155⟩), count := 256, dueNow := some 300 }), ⟨128, 128 + cyc 1800, 9, 200, 0x155⟩, by decide +kernel⟩⟩

/-- States and operands that meet the hypotheses of each clause of `Obligations.DllAndTac`. -/
theorem witness_DllAndTac :
    (∃ (isl : Isl) (s : State),
      s.blkOn (64 + isl.val) = true ∧
      (∀ (c : Fin 4), s.drvEn (chanOf isl.val c.val) = false)) ∧
    (∃ (isl : Isl) (s : State) (c : Fin 4),
      s.drvEn (chanOf isl.val c.val) = true) ∧
    (∃ (isl : Isl) (pherr : BitVec 8) (s : State),
      s.blkOn (64 + isl.val) = true ∧
      s.bit (aISL_STAT isl.val) fISL_STAT_DLL_LOCK = true ∧
      s.fld (aDLL_CFG isl.val) fDLL_CFG_UNLOCK_TOL < pherr.toInt.natAbs) ∧
    (∃ (isl : Isl) (pherr : BitVec 8) (s : State),
      s.blkOn (64 + isl.val) = true ∧
      s.bit (aDLL_STAT isl.val) fDLL_STAT_LOCKING = false ∧
      pherr.toInt.natAbs ≤ s.fld (aDLL_CFG isl.val) fDLL_CFG_UNLOCK_TOL) ∧
    (∃ (isl : Isl) (pherr : BitVec 8) (s : State),
      s.blkOn (64 + isl.val) = true ∧
      s.bit (aISL_STAT isl.val) fISL_STAT_DLL_LOCK = false ∧
      s.bit (aDLL_STAT isl.val) fDLL_STAT_BALANCING = false ∧
      s.bit (aDLL_STAT isl.val) fDLL_STAT_LOCKING = true ∧
      pherr.toInt.natAbs ≤ s.fld (aDLL_CFG isl.val) fDLL_CFG_LOCK_TOL ∧
      (Tab.get (fun x => 0) s.dlls isl.val = 1023)) ∧
    (∃ (isl : Isl) (s : State),
      s.bit (aDLL_STAT isl.val) fDLL_STAT_BALANCING = true) ∧
    (∃ (isl : Isl) (tac : Fin 2) (en : Bool) (pin : BitVec 5) (s : State),
      s.inRole isl.val pin.toNat = true ∧
      (¬((s.tac isl.val (1 - tac.val)).assigned = true ∧ s.fld (aTAC_CFG isl.val (1 - tac.val)) fTAC_CFG_PIN = pin.toNat)) ∧
      (en = true → s.fld (aTAC_STAT isl.val tac.val) fTAC_STAT_RESULT = 1)) ∧
    (∃ (isl : Isl) (tac : Fin 2) (en : Bool) (pin : BitVec 5) (s : State),
      (s.inRole isl.val pin.toNat = false ∨ (s.tac isl.val (1 - tac.val)).assigned = true ∧ s.fld (aTAC_CFG isl.val (1 - tac.val)) fTAC_CFG_PIN = pin.toNat ∨ en = true ∧ s.fld (aTAC_STAT isl.val tac.val) fTAC_STAT_RESULT ≠ 1)) ∧
    (∃ (isl : Isl) (tac : Fin 2) (s : State),
      s.bit (aTAC_CFG isl.val tac.val) fTAC_CFG_EN = false ∧
      s.bit (aISL_STAT isl.val) fISL_STAT_DLL_LOCK = true) ∧
    (∃ (isl : Isl) (tac : Fin 2) (s : State),
      (s.bit (aTAC_CFG isl.val tac.val) fTAC_CFG_EN = true ∨ s.bit (aISL_STAT isl.val) fISL_STAT_DLL_LOCK = false)) ∧
    (∃ (isl : Isl) (tac : Fin 2) (empty : BitVec 11) (gain : BitVec 16) (s : State),
      s.bit (aTAC_STAT isl.val tac.val) fTAC_STAT_CALIBRATING = true ∧
      empty.toNat ≤ 4 ∧
      7373 ≤ gain.toNat ∧
      gain.toNat ≤ 9011) ∧
    (∃ (isl : Isl) (tac : Fin 2) (empty : BitVec 11) (gain : BitVec 16) (s : State),
      s.bit (aTAC_STAT isl.val tac.val) fTAC_STAT_CALIBRATING = true ∧
      (4 < empty.toNat ∨ gain.toNat < 7373 ∨ 9011 < gain.toNat)) :=
  ⟨⟨4, (S [(0x4400004,1), F (aISL_STAT 4) fISL_STAT_DLL_LOCK 1, F2 (aDLL_CFG 4) fDLL_CFG_UNLOCK_TOL 9 fDLL_CFG_LOCK_TOL 5]), by decide +kernel⟩,
   ⟨4, ({ S [(0x4400004,1), F (aDLL_STAT 4) fDLL_STAT_BALANCING 1, F (aCH_CTL 4 2) fCH_CTL_DRV_EN 1, F (aTAC_STAT 4 0) fTAC_STAT_CALIBRATING 1, F (aTAC_STAT 4 1) fTAC_STAT_CALIBRATING 1] with causes := [(35, 4)] }), 2, by decide +kernel⟩,
   ⟨4, 0xF0, (S [(0x4400004,1), F (aISL_STAT 4) fISL_STAT_DLL_LOCK 1, F2 (aDLL_CFG 4) fDLL_CFG_UNLOCK_TOL 9 fDLL_CFG_LOCK_TOL 5]), by decide +kernel⟩,
   ⟨4, 5, (S [(0x4400004,1), F (aISL_STAT 4) fISL_STAT_DLL_LOCK 1, F2 (aDLL_CFG 4) fDLL_CFG_UNLOCK_TOL 9 fDLL_CFG_LOCK_TOL 5]), by decide +kernel⟩,
   ⟨4, 5, ({ S [(0x4400004,1), F2 (aDLL_STAT 4) fDLL_STAT_LOCKING 1 fDLL_STAT_LOCKED 0, F2 (aDLL_CFG 4) fDLL_CFG_UNLOCK_TOL 9 fDLL_CFG_LOCK_TOL 5] with dlls := [(4, 1023)] }), by decide +kernel⟩,
   ⟨4, ({ S [(0x4400004,1), F (aDLL_STAT 4) fDLL_STAT_BALANCING 1, F (aCH_CTL 4 2) fCH_CTL_DRV_EN 1, F (aTAC_STAT 4 0) fTAC_STAT_CALIBRATING 1, F (aTAC_STAT 4 1) fTAC_STAT_CALIBRATING 1] with causes := [(35, 4)] }), by decide +kernel⟩,
   ⟨4, 1, false, 3, ({ S [F (aPIN_STAT 4 3) fPIN_STAT_ROLE 5, F (aTAC_CFG 4 1) fTAC_CFG_PIN 3, F (aTAC_STAT 4 0) fTAC_STAT_RESULT 1, F (aISL_STAT 4) fISL_STAT_DLL_LOCK 1, (0x4400004,1), F (aCH_CTL 4 2) fCH_CTL_DRV_EN 1] with tacs := [(9, {assigned := true})], meas := [(36, { next := some 0 })] }), by decide +kernel⟩,
   ⟨4, 1, true, 3, (S [(0x4400004,1), F (aISL_STAT 4) fISL_STAT_DLL_LOCK 1, F2 (aDLL_CFG 4) fDLL_CFG_UNLOCK_TOL 9 fDLL_CFG_LOCK_TOL 5]), by decide +kernel⟩,
   ⟨4, 1, (S [(0x4400004,1), F (aISL_STAT 4) fISL_STAT_DLL_LOCK 1, F2 (aDLL_CFG 4) fDLL_CFG_UNLOCK_TOL 9 fDLL_CFG_LOCK_TOL 5]), by decide +kernel⟩,
   ⟨63, 1, (S [(0x4400004,1), F (aISL_STAT 4) fISL_STAT_DLL_LOCK 1, F2 (aDLL_CFG 4) fDLL_CFG_UNLOCK_TOL 9 fDLL_CFG_LOCK_TOL 5]), by decide +kernel⟩,
   ⟨4, 1, 4, 0x1CCD, ({ S [(0x4400004,1), F (aDLL_STAT 4) fDLL_STAT_BALANCING 1, F (aCH_CTL 4 2) fCH_CTL_DRV_EN 1, F (aTAC_STAT 4 0) fTAC_STAT_CALIBRATING 1, F (aTAC_STAT 4 1) fTAC_STAT_CALIBRATING 1] with causes := [(35, 4)] }), by decide +kernel⟩,
   ⟨4, 1, 4, 0x1CCC, ({ S [(0x4400004,1), F (aDLL_STAT 4) fDLL_STAT_BALANCING 1, F (aCH_CTL 4 2) fCH_CTL_DRV_EN 1, F (aTAC_STAT 4 0) fTAC_STAT_CALIBRATING 1, F (aTAC_STAT 4 1) fTAC_STAT_CALIBRATING 1] with causes := [(35, 4)] }), by decide +kernel⟩⟩

/-- States and operands that meet the hypotheses of each clause of `Obligations.Stamping`. -/
theorem witness_Stamping :
    (∃ (data : Word),
      getF data fSTP_CFG_WMODE ≠ 3 ∧
      getF data fSTP_CFG_SLOPE ≠ 3 ∧
      getF data fSTP_CFG_RAWFMT = 0) ∧
    (∃ (data : Word),
      (getF data fSTP_CFG_WMODE = 3 ∨ getF data fSTP_CFG_SLOPE = 3)) ∧
    (∃ (isl : Isl) (pin : PinNo) (s : State),
      s.blkOn (64 + isl.val) = true ∧
      s.fld (aSTP_CFG isl.val pin.val) fSTP_CFG_SLOPE = 2 ∧
      (s.stamper isl.val pin.val).eligible < s.fld (aSTP_CFG isl.val pin.val) fSTP_CFG_PRESC) ∧
    (∃ (isl : Isl) (pin : PinNo) (time : Count) (s : State),
      s.blkOn (64 + isl.val) = true ∧
      s.fld (aSTP_CFG isl.val pin.val) fSTP_CFG_SLOPE = 2 ∧
      s.fld (aSTP_CFG isl.val pin.val) fSTP_CFG_PRESC ≤ (s.stamper isl.val pin.val).eligible ∧
      s.inWindow isl.val pin.val time = false) ∧
    (∃ (isl : Isl) (pin : PinNo) (time : Count) (s : State),
      s.blkOn (64 + isl.val) = true ∧
      s.fld (aSTP_CFG isl.val pin.val) fSTP_CFG_SLOPE = 2 ∧
      s.fld (aSTP_CFG isl.val pin.val) fSTP_CFG_PRESC ≤ (s.stamper isl.val pin.val).eligible ∧
      s.inWindow isl.val pin.val time = true ∧
      ((s.tacOf isl.val pin.val).isSome = true ∨ s.bit (aISL_STAT isl.val) fISL_STAT_DLL_LOCK = true) ∧
      (∀ (l : Count), (s.stamper isl.val pin.val).last = some l → (128 * if (s.tacOf isl.val pin.val).isSome = true then 60 else 15) ≤ BitVec.toNat (time - l))) ∧
    (∃ (isl : Isl) (pin : PinNo) (time : Count) (s : State) (l : Count),
      s.blkOn (64 + isl.val) = true ∧
      s.fld (aSTP_CFG isl.val pin.val) fSTP_CFG_SLOPE = 2 ∧
      s.fld (aSTP_CFG isl.val pin.val) fSTP_CFG_PRESC ≤ (s.stamper isl.val pin.val).eligible ∧
      s.inWindow isl.val pin.val time = true ∧
      ((s.tacOf isl.val pin.val).isSome = true ∨ s.bit (aISL_STAT isl.val) fISL_STAT_DLL_LOCK = true) ∧
      (s.stamper isl.val pin.val).last = some l ∧
      BitVec.toNat (time - l) < 128 * if (s.tacOf isl.val pin.val).isSome = true then 60 else 15) ∧
    (∃ (isl : Isl) (pin : PinNo) (slope : Slope) (s : State),
      s.fld (aSTP_CFG isl.val pin.val) fSTP_CFG_SLOPE = if slope = Slope.rise then 1 else 0) :=
  ⟨⟨0x2, by decide +kernel⟩,
   ⟨0x303, by decide +kernel⟩,
   ⟨4, 3, ({ S [(0x4400004,1), F3 (aSTP_CFG 4 3) fSTP_CFG_SLOPE 2 fSTP_CFG_PRESC 3 fSTP_CFG_WMODE 0, F (aISL_STAT 4) fISL_STAT_DLL_LOCK 1] with stampers := [(107, ⟨2, some 5, 7⟩)] }), by decide +kernel⟩,
   ⟨4, 3, 2045, ({ S [(0x4400004,1), F3 (aSTP_CFG 4 3) fSTP_CFG_SLOPE 2 fSTP_CFG_PRESC 3 fSTP_CFG_WMODE 2, F (aISL_STAT 4) fISL_STAT_DLL_LOCK 1] with stampers := [(107, ⟨3, some 5, 7⟩)] }), by decide +kernel⟩,
   ⟨4, 3, 9000, ({ S [(0x4400004,1), F3 (aSTP_CFG 4 3) fSTP_CFG_SLOPE 2 fSTP_CFG_PRESC 3 fSTP_CFG_WMODE 0, F (aISL_STAT 4) fISL_STAT_DLL_LOCK 1, F2 (aMU_BIND 4 2) fMU_BIND_PIN 3 fMU_BIND_QTY 1, F2 (aCAP 5) fCAP_EN 1 fCAP_ISLAND 4 ] with stampers := [(107, ⟨3, some 2040, 7⟩)], meas := [(38, { next := some 0 })] }), ⟨by decide +kernel, by decide +kernel, by decide +kernel, by decide +kernel, by decide +kernel, all_some (by decide +kernel)⟩⟩,
   ⟨4, 3, 2045, ({ S [(0x4400004,1), F3 (aSTP_CFG 4 3) fSTP_CFG_SLOPE 2 fSTP_CFG_PRESC 3 fSTP_CFG_WMODE 0, F (aISL_STAT 4) fISL_STAT_DLL_LOCK 1, F2 (aMU_BIND 4 2) fMU_BIND_PIN 3 fMU_BIND_QTY 1, F2 (aCAP 5) fCAP_EN 1 fCAP_ISLAND 4 ] with stampers := [(107, ⟨3, some 2040, 7⟩)], meas := [(38, { next := some 0 })] }), 2040, by decide +kernel⟩,
   ⟨4, 3, .rise, (S [F (aSTP_CFG 4 3) fSTP_CFG_SLOPE 1]), by decide +kernel⟩⟩

/-- States and operands that meet the hypotheses of each clause of `Obligations.MeasurementUnits`. -/
theorem witness_MeasurementUnits :
    (∃ (isl : Isl) (unit : UnitNo) (s : State),
      s.bit (aMU_CTL isl.val unit.val) fMU_CTL_EN = false ∧
      (750 ≤ s.muHop isl.val unit.val ∧ 750 ≤ s.muGate isl.val unit.val ∧ s.muGate isl.val unit.val ≤ 15000000000 ∧ s.muGate isl.val unit.val ≤ 4 * s.muHop isl.val unit.val ∧ s.muGph isl.val unit.val < s.muHop isl.val unit.val) ∧
      (s.twin ≠ twActive ∧ s.twin ≠ twJoining ∧ s.twin ≠ twStandby)) ∧
    (∃ (isl : Isl) (unit : UnitNo) (s : State),
      s.bit (aMU_CTL isl.val unit.val) fMU_CTL_EN = false ∧
      (¬(750 ≤ s.muHop isl.val unit.val ∧ 750 ≤ s.muGate isl.val unit.val ∧ s.muGate isl.val unit.val ≤ 15000000000 ∧ s.muGate isl.val unit.val ≤ 4 * s.muHop isl.val unit.val ∧ s.muGph isl.val unit.val < s.muHop isl.val unit.val))) :=
  ⟨⟨4, 2, ({ S [(aMU_HOP 4 2, 1000), (aMU_GATE 4 2, 2000), (aMU_GPH 4 2, 7)] with count := cyc 30 }), by decide +kernel⟩,
   ⟨4, 2, ({ S [(aMU_HOP 4 2, 1000), (aMU_GATE 4 2, 4001), (aMU_GPH 4 2, 7)] with meas := [(38, { gates := [{ start := 0, stop := cyc 4001 }], next := some 77, valid := true })] }), by decide +kernel⟩⟩

/-- States and operands that meet the hypotheses of each clause of `Obligations.Results`. -/
theorem witness_Results :
    (∃ (isl : Isl) (unit : UnitNo) (g : Gate) (gs : List Gate) (s : State),
      s.seqRuns (isl.val / 16) = false ∧
      ((s.openGates isl.val unit.val s.count).mu isl.val unit.val).gates = g :: gs ∧
      Count.before s.count g.stop = false ∧
      (s.mu isl.val unit.val).apply = none ∧
      Count.upto (s.count + cyc 64) (Count.cycleStart (g.stop + 16384)) = true ∧
      g.cnt < s.fld (aMU_CFG isl.val unit.val) fMU_CFG_MIN_N) ∧
    (∃ (isl : Isl) (unit : UnitNo) (g : Gate) (gs : List Gate) (s : State),
      s.seqRuns (isl.val / 16) = false ∧
      ((s.openGates isl.val unit.val s.count).mu isl.val unit.val).gates = g :: gs ∧
      Count.before s.count g.stop = false ∧
      (s.mu isl.val unit.val).apply = none ∧
      Count.upto (s.count + cyc 64) (Count.cycleStart (g.stop + 16384)) = true ∧
      g.stale = false ∧
      s.fld (aMU_CFG isl.val unit.val) fMU_CFG_MIN_N ≤ g.cnt ∧
      g.cnt * g.stt - g.st * g.st ≠ 0 ∧
      (s.mu isl.val unit.val).goal = none ∧
      (s.mu isl.val unit.val).blend = 0) :=
  ⟨⟨4, 2, ({ start := 0, stop := cyc 2000, cnt := 4 }), [], ({ S [(aMU_HOP 4 2, 1000), (aMU_GATE 4 2, 2000), F2 (aMU_BIND 4 2) fMU_BIND_QTY 1 fMU_BIND_CH 2, F (aMU_CFG 4 2) fMU_CFG_MIN_N 5] with meas := [(38, { gates := [{ start := 0, stop := cyc 2000, cnt := 4 }], next := some (cyc 3000), valid := true, f := 99, y := 77, staleRun := 2 })], count := cyc 2000 }), by decide +kernel⟩,
   ⟨4, 2, ({ start := 0, stop := cyc 2000, cnt := 4, sn := 6, st := 6000, stt := 14000000, snt := 14000 }), [], ({ S [(aMU_HOP 4 2, 1000), (aMU_GATE 4 2, 2000), F2 (aMU_BIND 4 2) fMU_BIND_QTY 1 fMU_BIND_CH 2, F (aMU_CFG 4 2) fMU_CFG_MIN_N 2] with meas := [(38, { gates := [{ start := 0, stop := cyc 2000, cnt := 4, sn := 6, st := 6000, stt := 14000000, snt := 14000 }], next := some (cyc 3000), valid := true, base := { f0 := 5, c0 := 16777216, c1 := 5726623061 }, f := 99, y := 77, staleRun := 2 })], count := cyc 2001 }), by decide +kernel⟩⟩

/-- States and operands that meet the hypotheses of each clause of `Obligations.Monitors`. -/
theorem witness_Monitors :
    (∃ (isl : Isl) (mon : PinNo) (v : BitVec 16) (s : State),
      s.monSamples isl.val mon.val = true ∧
      s.fld (aMON_CFG isl.val mon.val) fMON_CFG_MODE = 0 ∧
      s.fld (aMON_CFG isl.val mon.val) fMON_CFG_FILT = 0 ∧
      ↑(2 * getF (s.monThr isl.val mon.val) fMON_THR_HI + getF (s.monThr isl.val mon.val) fMON_THR_HI_HYST) ≤ v.toInt) ∧
    (∃ (isl : Isl) (mon : PinNo) (v : BitVec 16) (s : State),
      s.monSamples isl.val mon.val = true ∧
      s.fld (aMON_CFG isl.val mon.val) fMON_CFG_MODE = 0 ∧
      s.fld (aMON_CFG isl.val mon.val) fMON_CFG_FILT = 0 ∧
      v.toInt < 2 * ↑(getF (s.monThr isl.val mon.val) fMON_THR_HI) - ↑(getF (s.monThr isl.val mon.val) fMON_THR_HI_HYST)) ∧
    (∃ (isl : Isl) (mon : PinNo) (v : BitVec 16) (s : State),
      s.monSamples isl.val mon.val = true ∧
      s.fld (aMON_CFG isl.val mon.val) fMON_CFG_MODE = 0 ∧
      s.fld (aMON_CFG isl.val mon.val) fMON_CFG_FILT = 0 ∧
      2 * ↑(getF (s.monThr isl.val mon.val) fMON_THR_HI) - ↑(getF (s.monThr isl.val mon.val) fMON_THR_HI_HYST) ≤ v.toInt ∧
      v.toInt < ↑(2 * getF (s.monThr isl.val mon.val) fMON_THR_HI + getF (s.monThr isl.val mon.val) fMON_THR_HI_HYST)) ∧
    (∃ (isl : Isl) (mon : PinNo) (s : State),
      s.monSamples isl.val mon.val = false) ∧
    (∃ (isl : Isl) (mon : PinNo) (s : State),
      (s.mon isl.val mon.val).since.isSome = true ∧
      BitVec.getLsbD (s.reg (aMON_LAT isl.val)) mon.val = false ∧
      s.shadowed isl.val mon.val = false) ∧
    (∃ (isl : Isl) (mon : PinNo) (s : State),
      s.bit (aMON_CTL isl.val mon.val) fMON_CTL_EN = false ∧
      s.fld (aMON_CFG isl.val mon.val) fMON_CFG_MODE = 0 ∧
      s.fld (aMON_CFG isl.val mon.val) fMON_CFG_FILT = 0 ∧
      s.fld (aMON_CFG isl.val mon.val) fMON_CFG_K ≤ s.fld (aMON_CFG isl.val mon.val) fMON_CFG_N ∧
      Count.ceilTo s.at (128 * s.monDiv isl.val mon.val) = s.count ∧
      s.fld (aMON_CFG isl.val mon.val) fMON_CFG_SAFE_SIDE = 0 ∧
      s.shadowed isl.val mon.val = false) ∧
    (∃ (isl : Isl) (mon : PinNo) (s : State),
      s.bit (aMON_CTL isl.val mon.val) fMON_CTL_EN = false ∧
      s.fld (aMON_CFG isl.val mon.val) fMON_CFG_MODE = 0 ∧
      s.fld (aMON_CFG isl.val mon.val) fMON_CFG_FILT = 0 ∧
      s.fld (aMON_CFG isl.val mon.val) fMON_CFG_K ≤ s.fld (aMON_CFG isl.val mon.val) fMON_CFG_N ∧
      Count.ceilTo s.at (128 * s.monDiv isl.val mon.val) ≠ s.count) ∧
    (∃ (isl : Isl) (mon : PinNo) (s : State),
      mon.val < 24 ∧
      s.bit (aMON_BIND isl.val mon.val) fMON_BIND_INH = true ∧
      s.drvEn (chanOf isl.val (mon.val / 6)) = true) ∧
    (∃ (isl : Isl) (mon : PinNo) (s : State),
      s.bit (aMON_BIND isl.val mon.val) fMON_BIND_INH = false) ∧
    (∃ (isl : Isl) (mon : PinNo) (s : State),
      s.fld (aMON_CFG isl.val mon.val) fMON_CFG_MODE ≠ 2) ∧
    (∃ (isl : Isl) (mon : PinNo) (data : Word) (s : State),
      s.bit (aMON_CTL isl.val mon.val) fMON_CTL_EN = true ∧
      s.fld (aMON_CFG isl.val mon.val) fMON_CFG_MODE = 2 ∧
      bandsTouch data = true) ∧
    (∃ (isl : Isl) (mon : PinNo) (s : State),
      s.monTimedOut isl.val mon.val = true ∧
      s.monBound isl.val mon.val = true ∧
      (s.mon isl.val mon.val).unsettled (s.fld (aMON_CFG isl.val mon.val) fMON_CFG_MODE) = true) :=
  ⟨⟨4, 7, 208, ({ S [F2 (aMON_THR 4 7) fMON_THR_HI 100 fMON_THR_HI_HYST 8, F (aMON_CTL 4 7) fMON_CTL_EN 1, F (aMON_TDIV 4 7) fMON_TDIV_DIVM1 1, F (aMON_BIND 4 7) fMON_BIND_FLAG_EN 1, (aMON_LAT 4, 0x100)] with mons := [(111, { since := some 0 })], count := cyc 5 }), by decide +kernel⟩,
   ⟨4, 7, 191, ({ S [F2 (aMON_THR 4 7) fMON_THR_HI 100 fMON_THR_HI_HYST 8, F (aMON_CTL 4 7) fMON_CTL_EN 1, F (aMON_TDIV 4 7) fMON_TDIV_DIVM1 1, F (aMON_BIND 4 7) fMON_BIND_FLAG_EN 1, (aMON_LAT 4, 0x100)] with mons := [(111, { since := some 0 })], count := cyc 5 }), by decide +kernel⟩,
   ⟨4, 7, 207, ({ S [F2 (aMON_THR 4 7) fMON_THR_HI 100 fMON_THR_HI_HYST 8, F (aMON_CTL 4 7) fMON_CTL_EN 1, F (aMON_TDIV 4 7) fMON_TDIV_DIVM1 1, F (aMON_BIND 4 7) fMON_BIND_FLAG_EN 1, (aMON_LAT 4, 0x100)] with mons := [(111, { since := some 0 })], count := cyc 5 }), by decide +kernel⟩,
   ⟨4, 7, ({ S [F2 (aMON_CFG 4 7) fMON_CFG_MODE 0 fMON_CFG_K 1, F (aMON_TDIV 4 7) fMON_TDIV_DIVM1 3] with count := cyc 8 }), by decide +kernel⟩,
   ⟨4, 7, ({ S [F2 (aMON_THR 4 7) fMON_THR_HI 100 fMON_THR_HI_HYST 8, F (aMON_CTL 4 7) fMON_CTL_EN 1, F (aMON_TDIV 4 7) fMON_TDIV_DIVM1 1, F (aMON_BIND 4 7) fMON_BIND_FLAG_EN 1, (aMON_LAT 4, 0x100)] with mons := [(111, { since := some 0 })], count := cyc 5 }), by decide +kernel⟩,
   ⟨4, 7, ({ S [F2 (aMON_CFG 4 7) fMON_CFG_MODE 0 fMON_CFG_N 1, F (aMON_TDIV 4 7) fMON_TDIV_DIVM1 3, F (aMON_BIND 4 7) fMON_BIND_INH 1] with count := cyc 8 }), by decide +kernel⟩,
   ⟨4, 7, ({ S [F2 (aMON_CFG 4 7) fMON_CFG_MODE 0 fMON_CFG_N 1, F (aMON_TDIV 4 7) fMON_TDIV_DIVM1 3] with count := cyc 8, dueNow := some (cyc 8 + 5) }), by decide +kernel⟩,
   ⟨4, 7, ({ S [F2 (aMON_CFG 4 7) fMON_CFG_MODE 2 fMON_CFG_K 0, F (aMON_CTL 4 7) fMON_CTL_EN 1, F2 (aMON_BIND 4 7) fMON_BIND_INH 1 fMON_BIND_FLAG_EN 1, F (aCH_CTL 4 1) fCH_CTL_DRV_EN 1] with mons := [(111, { since := some 0 })], count := cyc 65536 }), by decide +kernel⟩,
   ⟨4, 7, ({ S [F2 (aMON_THR 4 7) fMON_THR_HI 100 fMON_THR_HI_HYST 8, F (aMON_CTL 4 7) fMON_CTL_EN 1, F (aMON_TDIV 4 7) fMON_TDIV_DIVM1 1, F (aMON_BIND 4 7) fMON_BIND_FLAG_EN 1, (aMON_LAT 4, 0x100)] with mons := [(111, { since := some 0 })], count := cyc 5 }), by decide +kernel⟩,
   ⟨4, 7, ({ S [F2 (aMON_THR 4 7) fMON_THR_HI 100 fMON_THR_HI_HYST 8, F (aMON_CTL 4 7) fMON_CTL_EN 1, F (aMON_TDIV 4 7) fMON_TDIV_DIVM1 1, F (aMON_BIND 4 7) fMON_BIND_FLAG_EN 1, (aMON_LAT 4, 0x100)] with mons := [(111, { since := some 0 })], count := cyc 5 }), by decide +kernel⟩,
   ⟨4, 7, 4294967295#32, ({ S [F2 (aMON_CFG 4 7) fMON_CFG_MODE 2 fMON_CFG_K 0, F (aMON_CTL 4 7) fMON_CTL_EN 1, F2 (aMON_BIND 4 7) fMON_BIND_INH 1 fMON_BIND_FLAG_EN 1, F (aCH_CTL 4 1) fCH_CTL_DRV_EN 1] with mons := [(111, { since := some 0 })], count := cyc 65536 }), by decide +kernel⟩,
   ⟨4, 7, ({ S [F2 (aMON_CFG 4 7) fMON_CFG_MODE 2 fMON_CFG_K 0, F (aMON_CTL 4 7) fMON_CTL_EN 1, F2 (aMON_BIND 4 7) fMON_BIND_INH 1 fMON_BIND_FLAG_EN 1, F (aCH_CTL 4 1) fCH_CTL_DRV_EN 1] with mons := [(111, { since := some 0 })], count := cyc 65536 }), by decide +kernel⟩⟩

namespace OfLoopUpdates
def loopS (law on : Nat) : State := State.withBytes { S [(0x600004,1), F (aLCH_CTL 255) fLCH_CTL_EN 1, F (aENG_STAT 7) fENG_STAT_LEAD 2000, F2 (aLCH_LAW 255) fLCH_LAW_LAW law fLCH_LAW_BLOCK 31, F (aCH_PERIOD 63 3) fCH_PERIOD_PERIOD 768000, F (aLCH_CFG 255) fLCH_CFG_UPD_DIV 1, (aPL_SP 255, 5000), (aLCH_RVB 255, 70000), (aLCH_DTC 255, 5), F2 (aMU_BIND 63 0) fMU_BIND_QTY 1 fMU_BIND_CH 3, F2 (aMU_BIND 63 1) fMU_BIND_QTY 2 fMU_BIND_CH 3, F (aMU_CTL 63 0) fMU_CTL_EN on, F (aMU_CTL 63 1) fMU_CTL_EN on] with count := 512000, loops := one 255 { eng := 7, bound := true, permit := [law], since := some 0 }, str := plain7, meas := [(567, { valid := true }), (568, { valid := true })], quants := [(510, { y := 4000, valid := true }), (511, { y := 300, valid := true })] } [(92*1048576+7*0x80000+0x60000+31*256, [BitVec.ofNat 8 law] ++ List.replicate 11 0#8 ++ List.replicate 40 3#8)]

/-- States and operands that meet the hypotheses of each clause of `Obligations.LoopUpdates`. -/
theorem witness_LoopUpdates :
    (∃ (ch : Chan) (s : State),
      s.updateDue ch.val = none) ∧
    (∃ (ch : Chan) (due : Count) (per index : Nat) (s : State),
      s.updateDue ch.val = some (due, per, index) ∧
      (s.lch ch.val).eng < 8 ∧
      (∀ (k : Chan), k.val < ch.val → (s.lch k.val).bound = true → (s.lch k.val).eng = (s.lch ch.val).eng → s.updateDue k.val = none) ∧
      s.trapped (s.lch ch.val).eng = false ∧
      (s.eng (s.lch ch.val).eng).running = none ∧
      (s.eng (s.lch ch.val).eng).commit = none ∧
      (∀ (b : Count), (s.eng (s.lch ch.val).eng).busyUntil = some b → Count.before s.count b = false) ∧
      (128 * (s.ctl.lawCost (s.lawOf ch.val) + 73) ≤ BitVec.toNat (Count.cycleStart due - s.count) ∧ BitVec.toNat (Count.cycleStart due - s.count) < 2 ^ 70) ∧
      s.lawLacks ch.val (s.lawOf ch.val) = false ∧
      byteAt (s.blockBytes (s.lch ch.val).eng (s.generation (s.lch ch.val).eng (s.blkOf ch.val)) (s.blkOf ch.val)) 0 = s.lawOf ch.val ∧
      s.ctl.isStandard (s.lawOf ch.val) = true ∧
      s.lawOf ch.val ≠ 6) ∧
    (∃ (ch : Chan) (due : Count) (per index : Nat) (s : State),
      s.updateDue ch.val = some (due, per, index) ∧
      (s.lch ch.val).eng < 8 ∧
      (∀ (k : Chan), k.val < ch.val → (s.lch k.val).bound = true → (s.lch k.val).eng = (s.lch ch.val).eng → s.updateDue k.val = none) ∧
      s.trapped (s.lch ch.val).eng = false ∧
      (s.eng (s.lch ch.val).eng).running = none ∧
      (s.eng (s.lch ch.val).eng).commit = none ∧
      (∀ (b : Count), (s.eng (s.lch ch.val).eng).busyUntil = some b → Count.before s.count b = false) ∧
      (128 * (s.ctl.lawCost (s.lawOf ch.val) + 73) ≤ BitVec.toNat (Count.cycleStart due - s.count) ∧ BitVec.toNat (Count.cycleStart due - s.count) < 2 ^ 70) ∧
      s.lawLacks ch.val (s.lawOf ch.val) = false ∧
      byteAt (s.blockBytes (s.lch ch.val).eng (s.generation (s.lch ch.val).eng (s.blkOf ch.val)) (s.blkOf ch.val)) 0 = s.lawOf ch.val ∧
      s.ctl.isStandard (s.lawOf ch.val) = true ∧
      s.lawOf ch.val = 6) ∧
    (∃ (ch : Chan) (due : Count) (per index : Nat) (s : State),
      s.updateDue ch.val = some (due, per, index) ∧
      (s.lch ch.val).eng < 8 ∧
      (∀ (k : Chan), k.val < ch.val → (s.lch k.val).bound = true → (s.lch k.val).eng = (s.lch ch.val).eng → s.updateDue k.val = none) ∧
      s.trapped (s.lch ch.val).eng = false ∧
      (s.eng (s.lch ch.val).eng).running = none ∧
      (s.eng (s.lch ch.val).eng).commit = none ∧
      (∀ (b : Count), (s.eng (s.lch ch.val).eng).busyUntil = some b → Count.before s.count b = false) ∧
      (128 * (s.ctl.lawCost (s.lawOf ch.val) + 73) ≤ BitVec.toNat (Count.cycleStart due - s.count) ∧ BitVec.toNat (Count.cycleStart due - s.count) < 2 ^ 70) ∧
      s.lawLacks ch.val (s.lawOf ch.val) = true) ∧
    (∃ (ch : Chan) (due : Count) (per index : Nat) (s : State),
      s.updateDue ch.val = some (due, per, index) ∧
      (s.lch ch.val).eng < 8 ∧
      (∀ (k : Chan), k.val < ch.val → (s.lch k.val).bound = true → (s.lch k.val).eng = (s.lch ch.val).eng → s.updateDue k.val = none) ∧
      s.trapped (s.lch ch.val).eng = false ∧
      (s.eng (s.lch ch.val).eng).running = none ∧
      (s.eng (s.lch ch.val).eng).commit = none ∧
      (∀ (b : Count), (s.eng (s.lch ch.val).eng).busyUntil = some b → Count.before s.count b = false) ∧
      (128 * (s.ctl.lawCost (s.lawOf ch.val) + 73) ≤ BitVec.toNat (Count.cycleStart due - s.count) ∧ BitVec.toNat (Count.cycleStart due - s.count) < 2 ^ 70) ∧
      s.lawLacks ch.val (s.lawOf ch.val) = false ∧
      byteAt (s.blockBytes (s.lch ch.val).eng (s.generation (s.lch ch.val).eng (s.blkOf ch.val)) (s.blkOf ch.val)) 0 ≠ s.lawOf ch.val) :=
  ⟨⟨255, (S [(0x600004,1)]), by decide +kernel⟩,
   ⟨255, 768000, 768000, 1, (loopS 1 1), ⟨by decide +kernel, by decide +kernel, by decide +kernel, by decide +kernel, by decide +kernel, by decide +kernel, all_some (by decide +kernel), ⟨loop_lead (loopS 1 1) _ 1 _ rfl (by decide +kernel) (by decide) (by decide) (by decide +kernel), by decide +kernel⟩, loop_lacks (loopS 1 1) _ 1 _ rfl (by decide +kernel) (by decide) (by decide) (by decide +kernel), by decide +kernel, loop_standard (loopS 1 1) _ 1 rfl (by decide +kernel) (by decide) (by decide), by decide +kernel⟩⟩,
   ⟨255, 768000, 768000, 1, (loopS 6 1), ⟨by decide +kernel, by decide +kernel, by decide +kernel, by decide +kernel, by decide +kernel, by decide +kernel, all_some (by decide +kernel), ⟨loop_lead (loopS 6 1) _ 6 _ rfl (by decide +kernel) (by decide) (by decide) (by decide +kernel), by decide +kernel⟩, loop_lacks (loopS 6 1) _ 6 _ rfl (by decide +kernel) (by decide) (by decide) (by decide +kernel), by decide +kernel, loop_standard (loopS 6 1) _ 6 rfl (by decide +kernel) (by decide) (by decide), by decide +kernel⟩⟩,
   ⟨255, 768000, 768000, 1, (loopS 1 0), ⟨by decide +kernel, by decide +kernel, by decide +kernel, by decide +kernel, by decide +kernel, by decide +kernel, all_some (by decide +kernel), ⟨loop_lead (loopS 1 0) _ 1 _ rfl (by decide +kernel) (by decide) (by decide) (by decide +kernel), by decide +kernel⟩, loop_lacks (loopS 1 0) _ 1 _ rfl (by decide +kernel) (by decide) (by decide) (by decide +kernel)⟩⟩,
   ⟨255, 768000, 768000, 1, ((loopS 1 1).withRegs [F2 (aLCH_LAW 255) fLCH_LAW_LAW 2 fLCH_LAW_BLOCK 31]), ⟨by decide +kernel, by decide +kernel, by decide +kernel, by decide +kernel, by decide +kernel, by decide +kernel, all_some (by decide +kernel), ⟨loop_lead ((loopS 1 1).withRegs [F2 (aLCH_LAW 255) fLCH_LAW_LAW 2 fLCH_LAW_BLOCK 31]) _ 2 _ rfl (by decide +kernel) (by decide) (by decide) (by decide +kernel), by decide +kernel⟩, loop_lacks ((loopS 1 1).withRegs [F2 (aLCH_LAW 255) fLCH_LAW_LAW 2 fLCH_LAW_BLOCK 31]) _ 2 _ rfl (by decide +kernel) (by decide) (by decide) (by decide +kernel), by decide +kernel⟩⟩⟩

end OfLoopUpdates

namespace OfLoopControl
def loopS (law on : Nat) : State := State.withBytes { S [(0x600004,1), F (aLCH_CTL 255) fLCH_CTL_EN 1, F (aENG_STAT 7) fENG_STAT_LEAD 2000, F2 (aLCH_LAW 255) fLCH_LAW_LAW law fLCH_LAW_BLOCK 31, F (aCH_PERIOD 63 3) fCH_PERIOD_PERIOD 768000, F (aLCH_CFG 255) fLCH_CFG_UPD_DIV 1, (aPL_SP 255, 5000), (aLCH_RVB 255, 70000), (aLCH_DTC 255, 5), F2 (aMU_BIND 63 0) fMU_BIND_QTY 1 fMU_BIND_CH 3, F2 (aMU_BIND 63 1) fMU_BIND_QTY 2 fMU_BIND_CH 3, F (aMU_CTL 63 0) fMU_CTL_EN on, F (aMU_CTL 63 1) fMU_CTL_EN on] with count := 512000, loops := one 255 { eng := 7, bound := true, permit := [law], since := some 0 }, str := plain7, meas := [(567, { valid := true }), (568, { valid := true })], quants := [(510, { y := 4000, valid := true }), (511, { y := 300, valid := true })] } [(92*1048576+7*0x80000+0x60000+31*256, [BitVec.ofNat 8 law] ++ List.replicate 11 0#8 ++ List.replicate 40 3#8)]

/-- States and operands that meet the hypotheses of each clause of `Obligations.LoopControl`. -/
theorem witness_LoopControl :
    (∃ (ch : Chan) (due : Count) (per index : Nat) (s : State),
      s.updateDue ch.val = some (due, per, index) ∧
      s.trapped (s.lch ch.val).eng = true ∧
      (∀ (k : Chan), k.val < ch.val → (s.lch k.val).bound = true → (s.lch k.val).eng = (s.lch ch.val).eng → s.updateDue k.val = none) ∧
      8192 ≤ BitVec.toNat (Count.cycleStart due - s.count) ∧
      BitVec.toNat (Count.cycleStart due - s.count) < 2 ^ 70) ∧
    (∃ (eng : Eng) (s : State),
      s.trapped eng.val = true) ∧
    (∃ (eng : Eng) (s : State),
      s.trapped eng.val = false) ∧
    (∃ (ch : Chan) (s : State),
      s.follower ch.val = false ∧
      (s.lch ch.val).bound = true ∧
      s.bit (aLCH_CTL ch.val) fLCH_CTL_EN = false) ∧
    (∃ (ch : Chan) (s : State),
      s.follower ch.val = false ∧
      (s.lch ch.val).bound = false) ∧
    (∃ (ch : Chan) (s : State),
      s.follower ch.val = true) :=
  ⟨⟨255, 768000, 768000, 1, ((loopS 1 1).withRegs [F (aENG_RESTART 7) fENG_RESTART_TRAPPED 1]), by decide +kernel⟩,
   ⟨7, ((loopS 1 1).withRegs [F (aENG_RESTART 7) fENG_RESTART_TRAPPED 1]), by decide +kernel⟩,
   ⟨7, (S [(0x600004,1)]), by decide +kernel⟩,
   ⟨255, ({ S [] with loops := one 255 { eng := 7, bound := true }, chans := [(255, { newest := some (5, false, 3) })] }), by decide +kernel⟩,
   ⟨255, (S [(0x600004,1)]), by decide +kernel⟩,
   ⟨255, ({ S [F (aCH_STAT 63 3) fCH_STAT_GANG_K 1] with loops := one 255 { eng := 7, bound := true } }), by decide +kernel⟩⟩

end OfLoopControl

/-- States and operands that meet the hypotheses of each clause of `Obligations.BlocksAndRoutines`. -/
theorem witness_BlocksAndRoutines :
    (∃ (blk : BitVec 8) (s : State),
      BitVec.getLsbD (s.reg (aLPE_CLAIM (blk.toNat / 32))) (blk.toNat % 32) = false) ∧
    (∃ (blk : BitVec 8) (s : State),
      BitVec.getLsbD (s.reg (aLPE_CLAIM (blk.toNat / 32))) (blk.toNat % 32) = true) ∧
    (∃ (id : BitVec 8) (eng : Eng) (s : State),
      (s.eng eng.val).queue.length < 8 ∧
      128 ≤ id.toNat ∧
      s.ctl.lawValid id.toNat = true) ∧
    (∃ (id : BitVec 8) (eng : Eng) (s : State),
      ((s.eng eng.val).queue.length = 8 ∨ id.toNat < 128 ∨ s.ctl.lawValid id.toNat = false)) ∧
    (∃ (eng : Eng) (s : State),
      s.trapped eng.val = true) ∧
    (∃ (eng : Eng) (s : State),
      (s.eng eng.val).running = none ∧
      (s.eng eng.val).queue = []) ∧
    (∃ (eng : Eng) (id k : Nat) (q : List (Nat × Nat)) (s : State),
      s.bgOn eng.val = true ∧
      (s.eng eng.val).running = none ∧
      (s.eng eng.val).busyUntil = none ∧
      (s.eng eng.val).queue = (id, k) :: q ∧
      k < 32 ∧
      id < 256) ∧
    (∃ (eng : Eng) (cycles : Nat) (r : Routine) (m : Micro) (s : State),
      s.bgOn eng.val = true ∧
      (s.eng eng.val).running = some r ∧
      r.blk < 32 ∧
      (s.eng eng.val).commit = none ∧
      min cycles ((s.eng eng.val).bgSpan r (Count.cycleStart s.count + cyc 1)).2 ≠ 0 ∧
      microRun { ctl := s.ctl, id := r.id, routine := true, dir := (byteAt r.m.pb 1).testBit 0 } (if s.ctl.lawCost r.id = 0 then none else some (s.ctl.lawCost r.id)) none (min cycles ((s.eng eng.val).bgSpan r (Count.cycleStart s.count + cyc 1)).2) r.m = MicroOut.done m ∧
      m.commits = r.m.commits) :=
  ⟨⟨0xFF, ({S [(0x600004,1)] with engs := one 7 { queue := List.replicate 7 (1,1), running := some ⟨3, 5, {}, 0, false⟩ }, ctl := { law := one 0x7F8 0x8000 }}), by decide +kernel⟩,
   ⟨0xFF, ({S [(0x600004,1), (aLPE_CLAIM 7, 0x80000001), F (aENG_STAT 7) fENG_STAT_BG 1] with engs := one 7 { queue := List.replicate 8 (1,1), running := some ⟨3, 5, {}, 0, false⟩ }, ctl := { law := one 0x7F8 0x8000 }}), by decide +kernel⟩,
   ⟨0xFF, 7, ({S [(0x600004,1)] with engs := one 7 { queue := List.replicate 7 (1,1), running := some ⟨3, 5, {}, 0, false⟩ }, ctl := { law := one 0x7F8 0x8000 }}), by decide +kernel⟩,
   ⟨0xE3, 7, ({S [(0x600004,1)] with engs := one 7 { queue := List.replicate 7 (1,1), running := some ⟨3, 5, {}, 0, false⟩ }, ctl := { law := one 0x7F8 0x8000 }}), by decide +kernel⟩,
   ⟨7, (S [(0x600004,1),F (aENG_RESTART 7) fENG_RESTART_TRAPPED 1]), by decide +kernel⟩,
   ⟨7, (S [(0x600004,1),F (aENG_RESTART 7) fENG_RESTART_TRAPPED 1]), by decide +kernel⟩,
   ⟨7, 3, 31, [(1,2)], ({ S [(0x600004,1)] with engs := one 7 { queue := [(3,31),(1,2)] } }), by decide +kernel⟩,
   ⟨7, 1, ⟨0x80, 31, { pc := 0x3000 }, 0, false⟩, ((match microRun { ctl := { micro := one 0x3000 0x60060 }, id := 0x80, routine := true, dir := false } none none 1 { pc := 0x3000 } with | .done m => m | _ => {})), ({ S [(0x600004,1), (aLPE_CLAIM 7, 0x80000001)] with engs := one 7 { running := some ⟨0x80, 31, { pc := 0x3000 }, 0, false⟩, queue := [(9,9)] }, ctl := { micro := one 0x3000 0x60060 } }), ⟨by decide +kernel, by decide +kernel, by decide +kernel, by decide +kernel, by decide +kernel, by rfl, by decide +kernel⟩⟩⟩

namespace OfSealing
def segS (rs : List (Nat × Word)) : State := (({ S rs with str := plain7 } : State).withBytes [(0x0, leBytes 4 0x90000 ++ leBytes 2 1), (4095*16, leBytes 4 0x90000 ++ leBytes 2 1), (0x90000, leBytes 4 0 ++ leBytes 4 1 ++ leBytes 4 0xFFFFFFFF), (0x10000, [1#8,0,0,0] ++ leBytes 4 1 ++ leBytes 4 0x91000), (0x91000, leBytes 4 7 ++ leBytes 4 8 ++ List.replicate 20 0#8 ++ leBytes 4 4)])

/-- States and operands that meet the hypotheses of each clause of `Obligations.Sealing`. -/
theorem witness_Sealing :
    (∃ (seq : BitVec 12) (s : State),
      (¬s.bit aSEG_CSTAT fSEG_CSTAT_BUSY = true) ∧
      s.isSealed seq.toNat = false) ∧
    (∃ (seq : BitVec 12) (s : State),
      (¬s.bit aSEG_CSTAT fSEG_CSTAT_BUSY = true) ∧
      s.isSealed seq.toNat = true) ∧
    (∃ (seq : BitVec 12) (s : State),
      s.bit aSEG_CSTAT fSEG_CSTAT_BUSY = true ∧
      s.fld aSEG_CSTAT fSEG_CSTAT_SEQ = seq.toNat ∧
      s.sealCause seq.toNat = 0) ∧
    (∃ (seq : BitVec 12) (s : State),
      s.bit aSEG_CSTAT fSEG_CSTAT_BUSY = true ∧
      s.fld aSEG_CSTAT fSEG_CSTAT_SEQ = seq.toNat ∧
      s.sealCause seq.toNat ≠ 0) ∧
    (∃ (seq : BitVec 12) (s : State),
      (¬(s.bit aSEG_CSTAT fSEG_CSTAT_BUSY = true ∧ s.fld aSEG_CSTAT fSEG_CSTAT_SEQ = seq.toNat))) ∧
    (∃ (seq : BitVec 12) (s : State),
      (¬s.bit aSEG_CSTAT fSEG_CSTAT_BUSY = true) ∧
      (∀ (c : Chan), (s.plState c.val = plIdle ∨ s.plSeq c.val ≠ seq.toNat) ∧ s.plHolds c.val ≠ some seq.toNat)) ∧
    (∃ (seq : BitVec 12) (s : State) (c : Chan),
      (¬s.bit aSEG_CSTAT fSEG_CSTAT_BUSY = true) ∧
      s.plHolds c.val = some seq.toNat) :=
  ⟨⟨4095, (segS []), by decide +kernel⟩,
   ⟨4095, (S [(aSEG_SEALED 127, 0x80000000)]), by decide +kernel⟩,
   ⟨4095, (segS [F2 aSEG_CSTAT fSEG_CSTAT_BUSY 1 fSEG_CSTAT_SEQ 4095]), by decide +kernel⟩,
   ⟨0, (S [F2 aSEG_CSTAT fSEG_CSTAT_BUSY 1 fSEG_CSTAT_SEQ 0]), by decide +kernel⟩,
   ⟨4095, (segS []), by decide +kernel⟩,
   ⟨4095, (segS []), by decide +kernel⟩,
   ⟨4095, ({ S [] with players := one 255 { cmds := [(5, .start 4095 0)] } }), 255, by decide +kernel⟩⟩

end OfSealing

namespace OfPlayerCommands
def segS (rs : List (Nat × Word)) : State := (({ S rs with str := plain7 } : State).withBytes [(0x0, leBytes 4 0x90000 ++ leBytes 2 1), (4095*16, leBytes 4 0x90000 ++ leBytes 2 1), (0x90000, leBytes 4 0 ++ leBytes 4 1 ++ leBytes 4 0xFFFFFFFF), (0x10000, [1#8,0,0,0] ++ leBytes 4 1 ++ leBytes 4 0x91000), (0x91000, leBytes 4 7 ++ leBytes 4 8 ++ List.replicate 20 0#8 ++ leBytes 4 4)])

/-- States and operands that meet the hypotheses of each clause of `Obligations.PlayerCommands`. -/
theorem witness_PlayerCommands :
    (∃ (ch : Chan) (seq entry : BitVec 12) (s : State),
      s.isSealed seq.toNat = true ∧
      entry.toNat < s.seqCount seq.toNat ∧
      s.ownedElsewhere ch.val seq.toNat = false ∧
      (s.plRuns ch.val = true ∨ (List.filter s.plRuns (List.range 256)).length < s.segCap)) ∧
    (∃ (seq : BitVec 12) (s : State),
      s.isSealed seq.toNat = false) ∧
    (∃ (seq entry : BitVec 12) (s : State),
      s.isSealed seq.toNat = true ∧
      s.seqCount seq.toNat ≤ entry.toNat) ∧
    (∃ (ch : Chan) (seq entry : BitVec 12) (s : State),
      s.isSealed seq.toNat = true ∧
      entry.toNat < s.seqCount seq.toNat ∧
      (¬(s.plRuns ch.val = true ∨ (List.filter s.plRuns (List.range 256)).length < s.segCap))) ∧
    (∃ (ch : Chan) (s : State),
      s.plState ch.val = plIdle ∧
      (s.player ch.val).ordered = none) ∧
    (∃ (ch : Chan) (entry : BitVec 12) (m : Bool) (s : State),
      (s.plState ch.val = plPlay ∨ s.plState ch.val = plFallback) ∧
      (s.player ch.val).ordered = none ∧
      (m = true → entry.toNat < s.seqCount (s.plSeq ch.val))) ∧
    (∃ (ch : Chan) (entry : BitVec 12) (m : Bool) (s : State),
      s.plState ch.val = plDone ∧
      (s.player ch.val).ordered = none ∧
      (m = true → entry.toNat < s.seqCount (s.plSeq ch.val))) ∧
    (∃ (s : State),
      s.bit aSEG_CSTAT fSEG_CSTAT_BUSY = false) ∧
    (∃ (s : State),
      s.bit aSEG_CSTAT fSEG_CSTAT_BUSY = true) :=
  ⟨⟨255, 4095, 0, (segS [(aSEG_SEALED 127, 0x80000000)]), by decide +kernel⟩,
   ⟨0, (segS [(aSEG_SEALED 127, 0x80000000)]), by decide +kernel⟩,
   ⟨4095, 4095, (segS [(aSEG_SEALED 127, 0x80000000)]), by decide +kernel⟩,
   ⟨255, 4095, 0, ({ segS [(aSEG_SEALED 127, 0x80000000), F aSEG_CFG fSEG_CFG_DIVM1 0, F (aPL_STAT 3) fPL_STAT_STATE plPlay, F (aPL_STAT 4) fPL_STAT_STATE plDone] with count := 640 }), by decide +kernel⟩,
   ⟨255, (segS [(aSEG_SEALED 127, 0x80000000)]), by decide +kernel⟩,
   ⟨255, 4095, false, (segS [F2 (aPL_STAT 255) fPL_STAT_STATE plPlay fPL_STAT_SEQ 0]), by decide +kernel⟩,
   ⟨255, 4095, false, ({ segS [F2 (aPL_STAT 255) fPL_STAT_STATE plDone fPL_STAT_SEQ 0] with players := one 255 { cmds := [(5, .jump true 0)] } }), by decide +kernel⟩,
   ⟨(segS [(aSEG_SEALED 127, 0x80000000)]), by decide +kernel⟩,
   ⟨(segS [F2 aSEG_CSTAT fSEG_CSTAT_BUSY 1 fSEG_CSTAT_SEQ 4095]), by decide +kernel⟩⟩

end OfPlayerCommands

namespace OfSynthesis
def segS (rs : List (Nat × Word)) : State := (({ S rs with str := plain7 } : State).withBytes [(0x0, leBytes 4 0x90000 ++ leBytes 2 1), (4095*16, leBytes 4 0x90000 ++ leBytes 2 1), (0x90000, leBytes 4 0 ++ leBytes 4 1 ++ leBytes 4 0xFFFFFFFF), (0x10000, [1#8,0,0,0] ++ leBytes 4 1 ++ leBytes 4 0x91000), (0x91000, leBytes 4 7 ++ leBytes 4 8 ++ List.replicate 20 0#8 ++ leBytes 4 4)])
def strS (rs : List (Nat × Word)) : State := { (({ S rs with str := plain7 } : State).withBytes [(4095*16, leBytes 4 0x90000 ++ leBytes 2 1), (0x90000, leBytes 2 1 ++ leBytes 2 0 ++ leBytes 4 1 ++ leBytes 4 0xFFFFFFFF), (0x10000, [1#8,0,0,0] ++ leBytes 4 1 ++ leBytes 4 0x93000), (0x10020, [2#8,0,0,0] ++ leBytes 4 1 ++ leBytes 4 0x91000 ++ leBytes 4 64), (0x93000, leBytes 4 7 ++ leBytes 4 8 ++ List.replicate 20 0#8 ++ leBytes 4 4)]) with hbmMem := Memory.writeBytes [] 0 (leBytes 4 7 ++ leBytes 4 8 ++ List.replicate 20 0#8 ++ leBytes 4 4) }

/-- States and operands that meet the hypotheses of each clause of `Obligations.Synthesis`. -/
theorem witness_Synthesis :
    (∃ (ch : Chan) (s : State),
      s.twinIdle = false ∧
      s.boundaryNow = true ∧
      (∀ (d : Count), s.seg.ddsrst = some d → Count.upto d s.count = false) ∧
      s.plState ch.val = plPlay ∧
      ((s.player ch.val).ended = none ∧ (s.player ch.val).segEnd = false ∧ ∀ k ∈ (s.player ch.val).cmds, Count.upto k.1 s.count = false) ∧
      (s.player ch.val).k ≠ 0) ∧
    (∃ (ch : Chan) (s : State),
      s.twinIdle = false ∧
      s.boundaryNow = true ∧
      s.plState ch.val = plIdle ∧
      ((s.player ch.val).ended = none ∧ (s.player ch.val).segEnd = false ∧ ∀ k ∈ (s.player ch.val).cmds, Count.upto k.1 s.count = false)) ∧
    (∃ (s : State) (d : Count),
      s.twinIdle = false ∧
      s.boundaryNow = true ∧
      s.seg.ddsrst = some d ∧
      Count.upto d s.count = true) ∧
    (∃ (s : State),
      s.boundaryNow = false) ∧
    (∃ (ch : Chan) (entry : BitVec 16) (s : State) (b : Nat),
      (s.plState ch.val = plPlay ∨ s.plState ch.val = plFallback) ∧
      sdStreamed (s.plSeg ch.val) = true ∧
      s.hbmOpen = true ∧
      entryOk (s.streamEntry (s.plSeg ch.val) (((if (s.player ch.val).k = 0 then (s.player ch.val).pos else (s.player ch.val).pos + 1) + entry.toNat) % max 1 (sdNent (s.plSeg ch.val)))) = true ∧
      entry.toNat < sdRsize (s.plSeg ch.val) ∧
      s.plainBase Region.segment = some b) :=
  ⟨⟨255, ({ segS [F2 (aPL_STAT 255) fPL_STAT_STATE plPlay fPL_STAT_SEQ 0] with players := one 255 { k := 3, f := 2^40, phi := 2^46, o := 2^30, pw := 77, cur := recOf 32 [(4, leBytes 4 1000000), (18, leBytes 4 5), (22, leBytes 6 9), (28, leBytes 4 8)] } }), ⟨by decide +kernel, by decide +kernel, all_some (by decide +kernel), by decide +kernel, by decide +kernel, by decide +kernel⟩⟩,
   ⟨255, ({ segS [F aSEG_CFG fSEG_CFG_DIVM1 3] with players := one 255 { cmds := [(700, .start 7 0)], phi := 6 }, count := cyc 4, seg := { ddsrst := some 7 } }), by decide +kernel⟩,
   ⟨({ segS [F aSEG_CFG fSEG_CFG_DIVM1 3] with players := one 255 { cmds := [(700, .start 7 0)], phi := 6 }, count := cyc 4, seg := { ddsrst := some 7 } }), 7, by decide +kernel⟩,
   ⟨({ segS [F aSEG_CFG fSEG_CFG_DIVM1 3] with players := one 255 { cmds := [(700, .start 7 0)], phi := 6 }, count := cyc 5, seg := { ddsrst := some 7 } }), by decide +kernel⟩,
   ⟨255, 0, ({ strS [F2 (aPL_STAT 255) fPL_STAT_STATE plPlay fPL_STAT_SEQ 4095, (0xC00004,1), F aHBM_STAT fHBM_STAT_TRAINED 1] with players := one 255 { pos := 62 } }), 0, by decide +kernel⟩⟩

end OfSynthesis

namespace OfMessageQueues
def MM (op ctl task arg due : Nat) : BitVec 128 := BitVec.ofNat 128 (op + 256*ctl + 65536*task + 2^32*arg + 2^64*due)
def QS (lim prod : Nat) : State := S [F3 (aSCH_QCFG 1023) fSCH_QCFG_LIMIT lim fSCH_QCFG_PROD prod fSCH_QCFG_DEF 1, (0x400004, 1)]

/-- States and operands that meet the hypotheses of each clause of `Obligations.MessageQueues`. -/
theorem witness_MessageQueues :
    (∃ (by_ : Issuer) (q : QueueNo) (m : BitVec 128) (s : State),
      (s.blkOn 4 = true ∧ s.queueOf q.val (producerOf by_) = true) ∧
      (s.queueFull q.val = false ∧ s.heldOf (producerOf by_) = []) ∧
      s.pushLate m = false ∧
      s.formReason m = 0 ∧
      (∀ (l : Count × BitVec 128), (s.queue q.val).getLast? = some l → Count.before (s.extendDue (mDue m)) l.1 = false)) ∧
    (∃ (by_ : Issuer) (q : QueueNo) (s : State),
      (s.blkOn 4 = true ∧ s.queueOf q.val (producerOf by_) = true) ∧
      (s.queueFull q.val = true ∨ s.heldOf (producerOf by_) ≠ [])) ∧
    (∃ (by_ : Issuer) (q : QueueNo) (m : BitVec 128) (s : State),
      (s.blkOn 4 = true ∧ s.queueOf q.val (producerOf by_) = true) ∧
      (s.queueFull q.val = false ∧ s.heldOf (producerOf by_) = []) ∧
      s.pushLate m = true ∧
      isForwarded by_ = false) ∧
    (∃ (by_ : Issuer) (q : QueueNo) (m : BitVec 128) (s : State),
      s.blkOn 4 = true ∧
      s.queueOf q.val (producerOf by_) = false ∧
      s.pushLate m = false) ∧
    (∃ (s : State),
      s.blkOn 4 = false) ∧
    (∃ (by_ : Issuer) (q : QueueNo) (m : BitVec 128) (s : State),
      (s.blkOn 4 = true ∧ s.queueOf q.val (producerOf by_) = true) ∧
      (s.queueFull q.val = false ∧ s.heldOf (producerOf by_) = []) ∧
      s.pushLate m = false ∧
      s.formReason m ≠ 0) ∧
    (∃ (by_ : Issuer) (q : QueueNo) (m : BitVec 128) (s : State),
      (s.blkOn 4 = true ∧ s.queueOf q.val (producerOf by_) = true) ∧
      (s.queueFull q.val = false ∧ s.heldOf (producerOf by_) = []) ∧
      s.pushLate m = false ∧
      s.formReason m = 0 ∧
      (¬∀ (l : Count × BitVec 128), (s.queue q.val).getLast? = some l → Count.before (s.extendDue (mDue m)) l.1 = false)) ∧
    (∃ (m : BitVec 128),
      (mOp m = 0 ∨ 8 < mOp m ∨ 16 ≤ mCtl m)) ∧
    (∃ (m : BitVec 128),
      mOp m = 3 ∧
      mArg m = 0 ∧
      mCtl m / 2 % 4 = 0) ∧
    (∃ (m : BitVec 128),
      mOp m = 7 ∧
      63 < mArg m) ∧
    (∃ (m : BitVec 128),
      mOp m = 8 ∧
      mArg m = 0) ∧
    (∃ (q : QueueNo) (s : State),
      (∀ (c : Fin 4) (x : Nat × BitVec 128), (s.heldOf c.val).head? = some x → x.1 ≠ q.val)) ∧
    (∃ (q : QueueNo) (m : BitVec 128) (s : State),
      s.heldOf 0 = [(q.val, m)] ∧
      (∀ (c : Fin 4), c ≠ 0 → s.heldOf c.val = []) ∧
      s.blkOn 4 = true ∧
      s.queueOf q.val 0 = true ∧
      s.queueFull q.val = false ∧
      s.pushLate m = false ∧
      s.formReason m = 0 ∧
      (∀ (l : Count × BitVec 128), (s.queue q.val).getLast? = some l → Count.before (s.extendDue (mDue m)) l.1 = false)) ∧
    (∃ (q : QueueNo) (m : BitVec 128) (s : State) (d : Count),
      (s.queue q.val).head? = some (d, m) ∧
      Count.before (s.count + 1073741824#72) d = false ∧
      s.ingressHeld < 4096 ∧
      Count.before (Count.cycleStart d) s.count = false) ∧
    (∃ (q : QueueNo) (m : BitVec 128) (s : State) (d : Count),
      (s.queue q.val).head? = some (d, m) ∧
      Count.before (Count.cycleStart d) s.count = false ∧
      (Count.before (s.count + 1073741824#72) d = true ∨ 4096 ≤ s.ingressHeld)) ∧
    (∃ (q : QueueNo) (m : BitVec 128) (s : State) (d : Count),
      (s.queue q.val).head? = some (d, m) ∧
      Count.before (Count.cycleStart d) s.count = true) ∧
    (∃ (q : QueueNo) (s : State),
      s.queue q.val = []) :=
  ⟨⟨(.port 0), 1023, (MM 1 0 7 3 9600000), (QS 2 0), ⟨by decide +kernel, by decide +kernel, by decide +kernel, by decide +kernel, all_some (by decide +kernel)⟩⟩,
   ⟨(.port 0), 1023, (QS 0 0), by decide +kernel⟩,
   ⟨(.port 0), 1023, (MM 1 0 7 3 9599999), (QS 2 0), by decide +kernel⟩,
   ⟨(.island 77), 1023, (MM 1 0 7 3 9600000), (QS 2 0), by decide +kernel⟩,
   ⟨({ S [] with tasks := one 7 { state := .dormant } }), by decide +kernel⟩,
   ⟨(.port 0), 1023, (MM 0 0 7 3 96000000), (QS 2 0), by decide +kernel⟩,
   ⟨(.port 0), 1023, (MM 1 0 7 3 9600000), ({ QS 2 0 with sched := { queues := one 1023 [(96000000, MM 1 0 7 3 96000000)] } }), ⟨by decide +kernel, by decide +kernel, by decide +kernel, by decide +kernel, fun h => absurd (h _ rfl) (by decide +kernel)⟩⟩,
   ⟨(MM 0 0 7 3 96000000), by decide +kernel⟩,
   ⟨(MM 3 1 7 0 96000000), by decide +kernel⟩,
   ⟨(MM 7 0 7 64 96000000), by decide +kernel⟩,
   ⟨(MM 8 0 7 0 96000000), by decide +kernel⟩,
   ⟨1023, (QS 2 0), by decide +kernel⟩,
   ⟨1023, (MM 1 0 7 3 9600000), ({ QS 2 0 with sched := { held := one 0 [(1023, MM 1 0 7 3 9600000)] } }), ⟨by decide +kernel, by decide +kernel, by decide +kernel, by decide +kernel, by decide +kernel, by decide +kernel, by decide +kernel, all_some (by decide +kernel)⟩⟩,
   ⟨1023, (MM 1 0 7 3 96000000), ({ QS 2 0 with sched := { queues := one 1023 [(96000000, MM 1 0 7 3 96000000)] } }), 96000000, by decide +kernel⟩,
   ⟨1023, (MM 2 0 7 5 2000000000), ({ QS 2 0 with sched := { queues := one 1023 [(2000000000, MM 2 0 7 5 2000000000)] } }), 2000000000, by decide +kernel⟩,
   ⟨1023, (MM 2 0 7 5 100), ({ QS 2 1 with sched := { queues := one 1023 [(100, MM 2 0 7 5 100)] }, count := 128 }), 100, by decide +kernel⟩,
   ⟨1023, (QS 2 0), by decide +kernel⟩⟩

end OfMessageQueues

namespace OfTaskCommands
def TK (n : Nat) (x : Task) : State := { S [] with tasks := one n x, str := plain7 }
def TG (n : Nat) (disc : Nat) (x : Task) : State := { S [F2 (aSCH_GRP1 1) fSCH_GRP1_DISC disc fSCH_GRP1_TICK 10] with tasks := one n { x with group := 1 } }

/-- States and operands that meet the hypotheses of each clause of `Obligations.TaskCommands`. -/
theorem witness_TaskCommands :
    (∃ (task : TaskNo) (ctl : BitVec 4) (arg : BitVec 32) (s : State),
      (s.task (BitVec.toNat task)).state = TaskState.dormant ∧
      ((BitVec.setWidth 64 arg <<< 32 ||| if ctl.getLsbD 1 = true then 4194304#64 else 0) ||| if ctl.getLsbD 2 = true then 8388608#64 else 0) ≠ 0) ∧
    (∃ (task : TaskNo) (ctl : BitVec 4) (arg : BitVec 32) (s : State),
      (s.task (BitVec.toNat task)).state ≠ TaskState.free ∧
      ((BitVec.setWidth 64 arg <<< 32 ||| if ctl.getLsbD 1 = true then 4194304#64 else 0) ||| if ctl.getLsbD 2 = true then 8388608#64 else 0) = 0) ∧
    (∃ (task : TaskNo) (ctl : BitVec 4) (arg : BitVec 32) (s : State),
      (s.task (BitVec.toNat task)).state ≠ TaskState.free ∧
      (s.task (BitVec.toNat task)).state ≠ TaskState.dormant ∧
      ((BitVec.setWidth 64 arg <<< 32 ||| if ctl.getLsbD 1 = true then 4194304#64 else 0) ||| if ctl.getLsbD 2 = true then 8388608#64 else 0) ≠ 0) ∧
    (∃ (task : TaskNo) (arg : BitVec 32) (s : State),
      (s.task (BitVec.toNat task)).state ≠ TaskState.free ∧
      arg.toNat ≤ 63) ∧
    (∃ (task : TaskNo) (arg : BitVec 32) (s : State),
      (s.task (BitVec.toNat task)).state ≠ TaskState.free ∧
      63 < arg.toNat) ∧
    (∃ (task : TaskNo) (s : State),
      (s.task (BitVec.toNat task)).state.live = true) ∧
    (∃ (task : TaskNo) (s : State),
      (s.task (BitVec.toNat task)).state ≠ TaskState.free ∧
      (s.task (BitVec.toNat task)).state ≠ TaskState.armed ∧
      (s.task (BitVec.toNat task)).state.live = false) ∧
    (∃ (task : TaskNo) (s : State),
      (s.task (BitVec.toNat task)).state = TaskState.free) ∧
    (∃ (task : TaskNo) (s : State),
      (s.task (BitVec.toNat task)).state = TaskState.armed) ∧
    (∃ (task : TaskNo) (guard : Bool) (arg : BitVec 32) (s : State),
      ((s.task (BitVec.toNat task)).state = TaskState.armed ∨ (s.task (BitVec.toNat task)).state.live = true) ∧
      arg ≠ 0 ∧
      (guard = true ∨ s.discipline (BitVec.toNat task) ≠ 1) ∧
      (guard = true ∧ s.discipline (BitVec.toNat task) ≠ 0 → s.guards < 4096)) ∧
    (∃ (task : TaskNo) (guard : Bool) (arg : BitVec 32) (s : State),
      (s.task (BitVec.toNat task)).state ≠ TaskState.free ∧
      arg ≠ 0 ∧
      guard = false ∧
      s.discipline (BitVec.toNat task) = 1) ∧
    (∃ (task : TaskNo) (guard : Bool) (arg : BitVec 32) (s : State),
      ((s.task (BitVec.toNat task)).state = TaskState.armed ∨ (s.task (BitVec.toNat task)).state.live = true) ∧
      arg ≠ 0 ∧
      (guard = true ∧ s.discipline (BitVec.toNat task) ≠ 0) ∧
      (4096 + if (s.task (BitVec.toNat task)).guardArmed = true then 1 else 0) ≤ s.guards) ∧
    (∃ (task : TaskNo) (d : Count) (s : State),
      (s.task (BitVec.toNat task)).tdue = some d ∧
      Count.upto d s.at = true) ∧
    (∃ (task : TaskNo) (s : State),
      (∀ (e : Count), (s.task (BitVec.toNat task)).tdue = some e → Count.upto e s.at = false)) ∧
    (∃ (task : TaskNo) (d : Count) (s : State),
      (s.task (BitVec.toNat task)).sdue = some d ∧
      Count.upto d s.at = true) ∧
    (∃ (task : TaskNo) (s : State),
      (∀ (e : Count), (s.task (BitVec.toNat task)).sdue = some e → Count.upto e s.at = false)) :=
  ⟨⟨65535, 0, 63, (TK 65535 { state := .dormant, f := 0xFF00FF00FF, prio := 3, base := 4 }), by decide +kernel⟩,
   ⟨65535, 0, 0, (TK 65535 { state := .dormant, f := 0xFF00FF00FF, prio := 3, base := 4 }), by decide +kernel⟩,
   ⟨65535, 0, 63, (TK 65535 { state := .armed, f := 0xFF00FF00FF, hardNow := 0x300000000, setCyc := 0, raised := true, prio := 3 }), by decide +kernel⟩,
   ⟨65535, 0, (TK 65535 { state := .dormant, f := 0xFF00FF00FF, prio := 3, base := 4 }), by decide +kernel⟩,
   ⟨65535, 64, (TK 65535 { state := .dormant, f := 0xFF00FF00FF, prio := 3, base := 4 }), by decide +kernel⟩,
   ⟨65535, (TK 65535 { state := .waiting, stepWait := true, f := 0xFF00FF00FF, chan := 255 }), by decide +kernel⟩,
   ⟨65535, (TK 65535 { state := .dormant, f := 0xFF00FF00FF, prio := 3, base := 4 }), by decide +kernel⟩,
   ⟨65535, (TK 3 { state := .dormant }), by decide +kernel⟩,
   ⟨65535, (TK 65535 { state := .armed, f := 0xFF00FF00FF, hardNow := 0x300000000, setCyc := 0, raised := true, prio := 3 }), by decide +kernel⟩,
   ⟨65535, true, 63, (TK 65535 { state := .armed, f := 0xFF00FF00FF, hardNow := 0x300000000, setCyc := 0, raised := true, prio := 3 }), by decide +kernel⟩,
   ⟨65535, false, 63, (TG 65535 1 { state := .armed }), by decide +kernel⟩,
   ⟨65535, true, 63, ({ TG 65535 2 { state := .ready } with tasks := (List.range 4096).map (fun i => (i, ({ group := 1, guardArmed := true, state := .dormant } : Task))) ++ [(65535, { state := .armed, group := 1 })] }), by decide +kernel⟩,
   ⟨65535, 0, (TK 65535 { state := .cancelled, tdue := some 0, sdue := some 0 }), by decide +kernel⟩,
   ⟨65535, (TK 65535 { state := .dormant, f := 0xFF00FF00FF, prio := 3, base := 4 }), all_some (by decide +kernel)⟩,
   ⟨65535, 0, (TK 65535 { state := .cancelled, tdue := some 0, sdue := some 0 }), by decide +kernel⟩,
   ⟨65535, (TK 65535 { state := .dormant, f := 0xFF00FF00FF, prio := 3, base := 4 }), all_some (by decide +kernel)⟩⟩

end OfTaskCommands

namespace OfTaskStarts
def TK (n : Nat) (x : Task) : State := { S [] with tasks := one n x, str := plain7 }
def RR (l : List (Nat × Nat × Nat)) : List Byte := recOf 64 (l.map fun p => (p.1, leBytes p.2.1 p.2.2))

/-- States and operands that meet the hypotheses of each clause of `Obligations.TaskStarts`. -/
theorem witness_TaskStarts :
    (∃ (task : TaskNo) (s : State),
      ((s.task (BitVec.toNat task)).state = TaskState.dormant ∨ (s.task (BitVec.toNat task)).state = TaskState.armed) ∧
      s.liveTask (s.task (BitVec.toNat task)).chan = none) ∧
    (∃ (task : TaskNo) (s : State),
      ((s.task (BitVec.toNat task)).state = TaskState.dormant ∨ (s.task (BitVec.toNat task)).state = TaskState.armed) ∧
      (s.liveTask (s.task (BitVec.toNat task)).chan).isSome = true) ∧
    (∃ (task : TaskNo) (s : State),
      (s.task (BitVec.toNat task)).state ≠ TaskState.free ∧
      (s.task (BitVec.toNat task)).state ≠ TaskState.dormant ∧
      (s.task (BitVec.toNat task)).state ≠ TaskState.armed) ∧
    (∃ (s : State),
      s.twinIdle = true) ∧
    (∃ (task : TaskNo) (s : State),
      s.twinIdle = false ∧
      (s.task (BitVec.toNat task)).cancelCyc = some (Count.cycleStart s.count)) ∧
    (∃ (task : TaskNo) (s : State),
      s.twinIdle = false ∧
      (s.task (BitVec.toNat task)).cancelCyc ≠ some (Count.cycleStart s.count) ∧
      (s.task (BitVec.toNat task)).state = TaskState.armed ∧
      (s.task (BitVec.toNat task)).waitHolds = true ∧
      s.liveTask (s.task (BitVec.toNat task)).chan = none) ∧
    (∃ (task : TaskNo) (s : State),
      s.twinIdle = false ∧
      (s.task (BitVec.toNat task)).cancelCyc ≠ some (Count.cycleStart s.count) ∧
      (s.task (BitVec.toNat task)).state = TaskState.armed ∧
      (s.task (BitVec.toNat task)).waitHolds = true ∧
      (s.liveTask (s.task (BitVec.toNat task)).chan).isSome = true) ∧
    (∃ (task : TaskNo) (s : State),
      s.twinIdle = false ∧
      (s.task (BitVec.toNat task)).cancelCyc ≠ some (Count.cycleStart s.count) ∧
      (s.task (BitVec.toNat task)).state = TaskState.armed ∧
      (s.task (BitVec.toNat task)).waitHolds = false) ∧
    (∃ (task : TaskNo) (s : State),
      s.twinIdle = false ∧
      (s.task (BitVec.toNat task)).cancelCyc ≠ some (Count.cycleStart s.count) ∧
      (s.task (BitVec.toNat task)).state = TaskState.waiting ∧
      (s.task (BitVec.toNat task)).stepWait = true ∧
      judgeStep (s.task (BitVec.toNat task)).record (s.task (BitVec.toNat task)).f = none) ∧
    (∃ (task : TaskNo) (s : State) (step cause : Nat),
      s.twinIdle = false ∧
      (s.task (BitVec.toNat task)).cancelCyc ≠ some (Count.cycleStart s.count) ∧
      (s.task (BitVec.toNat task)).state = TaskState.waiting ∧
      (s.task (BitVec.toNat task)).stepWait = true ∧
      (s.task (BitVec.toNat task)).change.startAt = none ∧
      judgeStep (s.task (BitVec.toNat task)).record (s.task (BitVec.toNat task)).f = some (step, cause)) :=
  ⟨⟨65535, (TK 65535 { state := .dormant, f := 0xFF00FF00FF, prio := 3, base := 4, setNow := 0xF0, setCyc := 0, firstStep := 9 }), by decide +kernel⟩,
   ⟨65535, ({ TK 65535 { state := .armed, f := 1, w := 1, chan := 255 } with tasks := one 1 { state := .waiting, chan := 255 } ++ one 65535 { state := .armed, f := 1, w := 1, chan := 255 } }), by decide +kernel⟩,
   ⟨65535, (TK 65535 { state := .waiting, stepWait := true, f := 0xFF00FF00FF, step := 5, record := RR [(0,1,2),(20,2,0xFFFF),(22,2,0xFFFF),(24,4,1),(32,2,0x8007)] }), by decide +kernel⟩,
   ⟨({ TK 65535 { state := .armed, f := 1, w := 1 } with regs := (S [F aTWN_STAT fTWN_STAT_STATE twHoldoff]).regs }), by decide +kernel⟩,
   ⟨65535, (TK 65535 { state := .cancelled, cancelCyc := some 0, f := 1, w := 1 }), by decide +kernel⟩,
   ⟨65535, (TK 65535 { state := .armed, f := 0xFF00FF00FF, w := 1, prio := 3, base := 4, firstStep := 1023 }), by decide +kernel⟩,
   ⟨65535, ({ TK 65535 { state := .armed, f := 1, w := 1, chan := 255 } with tasks := one 1 { state := .waiting, chan := 255 } ++ one 65535 { state := .armed, f := 1, w := 1, chan := 255 } }), by decide +kernel⟩,
   ⟨65535, (TK 65535 { state := .armed, f := 0xFF00FF00FE, w := 1, prio := 3, base := 4, firstStep := 1023 }), by decide +kernel⟩,
   ⟨65535, (TK 65535 { state := .waiting, stepWait := true, f := 0xFE, step := 5, record := RR [(0,1,2),(20,2,0xFFFF),(22,2,0xFFFF),(24,4,1),(32,2,0x8007)] }), by decide +kernel⟩,
   ⟨65535, (TK 65535 { state := .waiting, stepWait := true, f := 0xFF00FF00FF, step := 5, record := RR [(0,1,2),(20,2,0xFFFF),(22,2,0xFFFF),(24,4,1),(32,2,0x8007)] }), 7, 1, by decide +kernel⟩⟩

end OfTaskStarts

namespace OfStepEngines
def RR (l : List (Nat × Nat × Nat)) : List Byte := recOf 64 (l.map fun p => (p.1, leBytes p.2.1 p.2.2))
def ON : List (Nat × Word) := [(0x400004, 1), (0x500004, 1), F (aSCH_ASET 0) ⟨15,0⟩ 0xFFFF, F aSCH_BAND fSCH_BAND_UPRIO 2]
def TS (l : List (Nat × Task)) (es : List (Nat × StepUnit)) (c : Count) : State := { S ON with tasks := l, sched := { engs := es }, str := plain7, count := c }
def run1 : List Byte := RR [(0,1,2),(1,1,1),(2,2,5),(4,2,9),(12,1,0xFF),(13,1,0xFF),(14,1,0xFF),(16,4,3),(20,2,6),(22,2,0xFFFF)]
def end1 : List Byte := RR [(0,1,1),(2,2,0xFFFF),(12,1,0xFF),(13,1,0xFF),(14,1,0xFF),(20,2,0xFFFF),(22,2,0xFFFF)]

/-- States and operands that meet the hypotheses of each clause of `Obligations.StepEngines`. -/
theorem witness_StepEngines :
    (∃ (eng : StepEng) (n : Nat) (s : State),
      (s.settle.ste eng.val).task = none ∧
      s.settle.schedOn = true ∧
      s.settle.bestTask (s.settle.readyFor eng.val) = some n) ∧
    (∃ (eng : StepEng) (s : State),
      ((s.settle.ste eng.val).task.isSome = true ∨ s.settle.schedOn = false ∨ s.settle.bestTask (s.settle.readyFor eng.val) = none)) ∧
    (∃ (eng : StepEng) (n : Nat) (s : State),
      (s.ste eng.val).task = some n ∧
      (s.ste eng.val).signalled = true ∧
      yieldsAt (s.ste eng.val).plan (cyclesFrom (s.ste eng.val).start s.count) = true ∧
      s.steRest eng.val ≠ []) ∧
    (∃ (eng : StepEng) (s : State),
      ((s.ste eng.val).signalled = false ∨ (s.ste eng.val).task = none ∨ s.steRest eng.val = [])) ∧
    (∃ (eng : StepEng) (n : Nat) (s : State),
      ((s.ste eng.val).task = some n ∧ (s.ste eng.val).saving = false ∧ s.steRest eng.val = []) ∧
      Count.before (s.task n).change.commitAt (Count.cycleStart s.count) = false) ∧
    (∃ (eng : StepEng) (n : Nat) (s : State),
      ((s.ste eng.val).task = some n ∧ (s.ste eng.val).saving = false ∧ s.steRest eng.val = []) ∧
      Count.before (s.task n).change.commitAt (Count.cycleStart s.count) = true) ∧
    (∃ (eng : StepEng) (s : State),
      ((s.ste eng.val).task = none ∨ (s.ste eng.val).saving = true ∨ s.steRest eng.val ≠ [])) ∧
    (∃ (task : TaskNo) (s : State),
      (s.task (BitVec.toNat task)).state = TaskState.staged ∧
      Count.upto (s.task (BitVec.toNat task)).change.commitAt s.count = true ∧
      s.twinIdle = false) ∧
    (∃ (task : TaskNo) (s : State),
      ((s.task (BitVec.toNat task)).state ≠ TaskState.staged ∨ Count.upto (s.task (BitVec.toNat task)).change.commitAt s.count = false ∨ s.twinIdle = true)) ∧
    (∃ (task : TaskNo) (start : Count) (s : State),
      ((s.task (BitVec.toNat task)).left = none ∧ (s.task (BitVec.toNat task)).change.startAt = some start ∧ Count.before s.count start = false) ∧
      (s.task (BitVec.toNat task)).change.invalid = false ∧
      rMode (s.task (BitVec.toNat task)).change.record ≠ mEnd) ∧
    (∃ (task : TaskNo) (start : Count) (s : State),
      ((s.task (BitVec.toNat task)).left = none ∧ (s.task (BitVec.toNat task)).change.startAt = some start ∧ Count.before s.count start = false) ∧
      (s.task (BitVec.toNat task)).change.invalid = false ∧
      rMode (s.task (BitVec.toNat task)).change.record = mEnd) ∧
    (∃ (task : TaskNo) (start : Count) (s : State),
      ((s.task (BitVec.toNat task)).left = none ∧ (s.task (BitVec.toNat task)).change.startAt = some start ∧ Count.before s.count start = false) ∧
      (s.task (BitVec.toNat task)).change.invalid = true) ∧
    (∃ (task : TaskNo) (s : State),
      (s.task (BitVec.toNat task)).left = none ∧
      (∀ (d : Count), (s.task (BitVec.toNat task)).change.startAt = some d → Count.before s.count d = true)) ∧
    (∃ (task : TaskNo) (start : Count) (s : State) (l : Change),
      (s.task (BitVec.toNat task)).left = some l ∧
      (s.task (BitVec.toNat task)).change.startAt = none ∧
      l.startAt = some start ∧
      Count.upto start s.count = true) ∧
    (∃ (task : TaskNo) (s : State),
      s.overAge (BitVec.toNat task) = true) ∧
    (∃ (task : TaskNo) (s : State),
      s.overAge (BitVec.toNat task) = false) :=
  ⟨⟨15, 7, (TS [(7, { state := .ready, readyAt := some 0, base := 3, prio := 5, ctx := true, change := { dest := 4, plan := [(2,24)] } })] [] 1280), by decide +kernel⟩,
   ⟨15, (TS [] [] 1280), by decide +kernel⟩,
   ⟨15, 65535, (TS [(65535, { state := .running, change := { commitAt := 1279, invalid := true, record := run1 } })] [(15, { task := some 65535, start := 0, plan := [(2, 10), (4, 8)], signalled := true }) ] 1280), by decide +kernel⟩,
   ⟨15, (TS [(7, { state := .ready, readyAt := some 0, base := 3, prio := 5, ctx := true, change := { dest := 4, plan := [(2,24)] } })] [] 1280), by decide +kernel⟩,
   ⟨15, 65535, (TS [(65535, { state := .running, change := { commitAt := 1280 } })] [(15, { task := some 65535, start := 0, plan := [(2, 10)] }) ] 1280), by decide +kernel⟩,
   ⟨15, 65535, (TS [(65535, { state := .running, change := { commitAt := 1279 } })] [(15, { task := some 65535, start := 0, plan := [(2, 9)] }) ] 1280), by decide +kernel⟩,
   ⟨15, (TS [(7, { state := .ready, readyAt := some 0, base := 3, prio := 5, ctx := true, change := { dest := 4, plan := [(2,24)] } })] [] 1280), by decide +kernel⟩,
   ⟨65535, (TS [(65535, { state := .staged, chan := 255, change := { commitAt := 1280, record := run1 } })] [] 1280), by decide +kernel⟩,
   ⟨65535, (TS [(7, { state := .ready, readyAt := some 0, base := 3, prio := 5, ctx := true, change := { dest := 4, plan := [(2,24)] } })] [] 1280), by decide +kernel⟩,
   ⟨65535, 1280, (TS [(65535, { state := .waiting, chan := 255, f := 0xFFFFFFFFF, setCyc := 1280, setNow := 0x10003, change := { startAt := some 1280, record := run1, loopHit := true, cause := 6 } })] [] 1280), by decide +kernel⟩,
   ⟨65535, 1280, (TS [(65535, { state := .waiting, chan := 255, f := 0xFFFFFFFFF, change := { startAt := some 1280, record := end1 } })] [] 1280), by decide +kernel⟩,
   ⟨65535, 1280, (TS [(65535, { state := .waiting, chan := 255, f := 0xFFFFFFFFF, change := { startAt := some 1280, record := end1, invalid := true } })] [] 1280), by decide +kernel⟩,
   ⟨65535, (TS [(7, { state := .ready, readyAt := some 0, base := 3, prio := 5, ctx := true, change := { dest := 4, plan := [(2,24)] } })] [] 1280), ⟨by decide +kernel, all_some (by decide +kernel)⟩⟩,
   ⟨65535, 1280, (TS [(65535, { state := .cancelled, chan := 255, f := 0xFFFFFFFFF, left := some { startAt := some 1280, record := end1, invalid := true } })] [] 1280), ({ startAt := some 1280, record := end1, invalid := true }), by decide +kernel⟩,
   ⟨65535, ({ S ([F (aSCH_GRP1 0) fSCH_GRP1_AGE 1] ++ ON) with tasks := [(65535, { state := .ready, readyAt := some 0 })], count := 192128, str := plain7 }), by decide +kernel⟩,
   ⟨65535, (TS [(7, { state := .ready, readyAt := some 0, base := 3, prio := 5, ctx := true, change := { dest := 4, plan := [(2,24)] } })] [] 1280), by decide +kernel⟩⟩

end OfStepEngines

namespace OfTriggerCommands
def ringOn : Nat × Word := F aLNK_STAT fLNK_STAT_RING_OUT 1
def am : List (Nat × Word) := [F aACQ_STAT fACQ_STAT_MASTER 1, F aTWN_STAT fTWN_STAT_STATE twSolo, F (aTRG_CTL 7) fTRG_CTL_AUTO 1, (aTRG_TO 7, 5)]

/-- States and operands that meet the hypotheses of each clause of `Obligations.TriggerCommands`. -/
theorem witness_TriggerCommands :
    (∃ (by_ : Issuer) (s : State),
      (isForwarded by_ = true ∧ s.isStandby = true)) ∧
    (∃ (by_ : Issuer) (t : Fin 8) (s : State),
      (¬(isForwarded by_ = true ∧ s.isStandby = true)) ∧
      s.isArmMaster = true ∧
      (s.trig t.val).armed = none ∧
      s.arming t = false) ∧
    (∃ (by_ : Issuer) (t : Fin 8) (s : State),
      (¬(isForwarded by_ = true ∧ s.isStandby = true)) ∧
      (s.isArmMaster = false ∨ (s.trig t.val).armed ≠ none ∨ s.arming t = true)) ∧
    (∃ (by_ : Issuer) (t : Fin 8) (s : State) (a0 : Count),
      (¬(isForwarded by_ = true ∧ s.isStandby = true)) ∧
      (s.trig t.val).armed = some a0 ∧
      Count.before s.at a0 = false) ∧
    (∃ (t : Fin 8) (s : State),
      (∀ (a0 : Count), (s.trig t.val).armed = some a0 → Count.before s.at a0 = true)) ∧
    (∃ (m : RingBody) (s : State),
      s.ringOwn m = true) ∧
    (∃ (m : RingBody) (s : State),
      s.ringOwn m = false ∧
      Count.before m.count s.count = false) ∧
    (∃ (m : RingBody) (s : State),
      s.ringOwn m = false ∧
      Count.before m.count s.count = true) ∧
    (∃ (m : RingBody) (s : State),
      s.ringOwn m = false ∧
      Count.before s.count m.count = false) ∧
    (∃ (m : RingBody) (s : State),
      s.ringOwn m = false ∧
      Count.before s.count m.count = true) ∧
    (∃ (m : RingBody) (s : State) (a : Count),
      s.ringOwn m = false ∧
      (s.trig m.trigger.val).armed = some a ∧
      Count.before m.count a = false ∧
      Count.before (m.count + s.markWindow) s.count = false) ∧
    (∃ (m : RingBody) (s : State),
      s.ringOwn m = false ∧
      Count.before (m.count + s.markWindow) s.count = true) ∧
    (∃ (m : RingBody) (s : State),
      s.ringOwn m = false ∧
      (s.trig m.trigger.val).armed = none ∧
      Count.before (m.count + s.markWindow) s.count = false) :=
  ⟨⟨(.forwarded 1), (S [F aTWN_STAT fTWN_STAT_STATE twStandby]), by decide +kernel⟩,
   ⟨(.port 0), 7, (S (ringOn :: am)), by decide +kernel⟩,
   ⟨(.port 0), 7, (S []), by decide +kernel⟩,
   ⟨(.port 0), 7, ({ S (ringOn :: am) with acq := { trigs := one 7 { armed := some 128 } }, count := 128 }), 128, by decide +kernel⟩,
   ⟨7, (S (ringOn :: am)), all_some (by decide +kernel)⟩,
   ⟨⟨7, true, 3, 7, 0xFFFF, 128, 100, 9, 11⟩, ({ S [ringOn, F aLR_STAT fLR_STAT_POS 3] with count := 128 }), by decide +kernel⟩,
   ⟨⟨7, true, 3, 7, 0xFFFF, 128, 100, 9, 11⟩, (S (ringOn :: am)), by decide +kernel⟩,
   ⟨⟨7, true, 3, 7, 0xFFFF, 127, 100, 9, 11⟩, ({ S (ringOn :: am) with acq := { trigs := one 7 { armed := some 128 } }, count := 128 }), by decide +kernel⟩,
   ⟨⟨7, true, 3, 7, 0xFFFF, 128, 100, 9, 11⟩, ({ S (ringOn :: am) with acq := { trigs := one 7 { armed := some 128 } }, count := 128 }), by decide +kernel⟩,
   ⟨⟨7, true, 3, 7, 0xFFFF, 128, 100, 9, 11⟩, (S (ringOn :: am)), by decide +kernel⟩,
   ⟨⟨7, true, 3, 7, 0xFFFF, 128, 100, 9, 11⟩, ({ S (ringOn :: am) with acq := { trigs := one 7 { armed := some 128 } }, count := 128 }), 128, by decide +kernel⟩,
   ⟨⟨7, true, 3, 7, 0xFFFF, 128, 100, 9, 11⟩, ({ S [F aACQ_CFG fACQ_CFG_MWIN 0, F aLR_STAT fLR_STAT_POS 5] with count := 1280 }), by decide +kernel⟩,
   ⟨⟨7, true, 3, 7, 0xFFFF, 128, 100, 9, 11⟩, (S (ringOn :: am)), by decide +kernel⟩⟩

end OfTriggerCommands

namespace OfTriggerDecision
def tr (auto : Bool) (fs : List Fire) (c : Count) : State := { S [F aACQ_STAT fACQ_STAT_RUN 1, F aACQ_CFG fACQ_CFG_MWIN 1] with acq := { trigs := one 7 { armed := some 128, timeout := 1, auto := auto, fires := fs } }, count := c }

/-- States and operands that meet the hypotheses of each clause of `Obligations.TriggerDecision`. -/
theorem witness_TriggerDecision :
    (∃ (t : Fin 8) (a : Count) (f : Fire) (s : State),
      (s.trig t.val).armed = some a ∧
      (firstFire (List.filter (fun f => Count.upto f.time (a + BitVec.ofNat 72 (192000 * (s.trig t.val).timeout))) (s.trig t.val).fires) = some f) ∧
      (Count.upto (f.time + s.markWindow) s.at = true ∨ Count.upto (a + BitVec.ofNat 72 (192000 * (s.trig t.val).timeout) + s.markWindow) s.at = true)) ∧
    (∃ (t : Fin 8) (a : Count) (s : State),
      (s.trig t.val).armed = some a ∧
      (firstFire (List.filter (fun f => Count.upto f.time (a + BitVec.ofNat 72 (192000 * (s.trig t.val).timeout))) (s.trig t.val).fires) = none) ∧
      Count.before s.at (a + BitVec.ofNat 72 (192000 * (s.trig t.val).timeout) + s.markWindow) = false ∧
      (s.trig t.val).auto = true) ∧
    (∃ (t : Fin 8) (a : Count) (f : Fire) (s : State),
      (s.trig t.val).armed = some a ∧
      (firstFire (List.filter (fun f => Count.upto f.time (a + BitVec.ofNat 72 (192000 * (s.trig t.val).timeout))) (s.trig t.val).fires) = some f) ∧
      Count.upto (f.time + s.markWindow) s.at = false ∧
      Count.upto (a + BitVec.ofNat 72 (192000 * (s.trig t.val).timeout) + s.markWindow) s.at = false) ∧
    (∃ (t : Fin 8) (a : Count) (s : State),
      (s.trig t.val).armed = some a ∧
      (firstFire (List.filter (fun f => Count.upto f.time (a + BitVec.ofNat 72 (192000 * (s.trig t.val).timeout))) (s.trig t.val).fires) = none) ∧
      (Count.before s.at (a + BitVec.ofNat 72 (192000 * (s.trig t.val).timeout) + s.markWindow) = true ∨ (s.trig t.val).auto = false)) ∧
    (∃ (t : Fin 8) (s : State),
      (s.trig t.val).armed = none) :=
  ⟨⟨7, 128, ⟨200, 65535, 65535⟩, (tr false [⟨300, 5, 255⟩, ⟨200, 65535, 65535⟩] (200 + 4096*128)), by decide +kernel⟩,
   ⟨7, 128, (tr true [] (128 + 192000 + 4096*128)), by decide +kernel⟩,
   ⟨7, 128, ⟨200, 65535, 65535⟩, (tr false [⟨300, 5, 255⟩, ⟨200, 65535, 65535⟩] (199 + 4096*128)), by decide +kernel⟩,
   ⟨7, 128, (tr true [] (127 + 192000 + 4096*128)), by decide +kernel⟩,
   ⟨7, (S []), by decide +kernel⟩⟩

end OfTriggerDecision

namespace OfRatesSealsAndSpill
def acqR (rs : List (Nat × Word)) (c : Count) : State := { S ([F aACQ_STAT fACQ_STAT_RUN 1] ++ rs) with count := c }
def hb : List (Nat × Word) := [(0xC00004, 1), F aHBM_STAT fHBM_STAT_TRAINED 1]
def sp (c : Nat) (rs : List (Nat × Word)) : State := { S (hb ++ [(aBSN_SIZE c, 256), (aBSN_WR c, 100), (aBSN_ACK c, 4)] ++ rs) with acq := { streams := one c { spilled := [(6, 0)], sent := 3 }, spillNext := 62500007 }, hbmMem := Memory.writeBytes [] 256 [1,2,3] }

/-- States and operands that meet the hypotheses of each clause of `Obligations.RatesSealsAndSpill`. -/
theorem witness_RatesSealsAndSpill :
    (∃ (s : State),
      (s.bit aACQ_STAT fACQ_STAT_RUN = true ∧ s.onPeriod aACQ_STAT (65536 * 128) = true) ∧
      (s.watched (s.fld aACQ_CFG fACQ_CFG_HWM) true).any id = false ∧
      (s.watched (s.fld aACQ_CFG fACQ_CFG_LWM) false).all id = false ∧
      s.fld aACQ_STAT fACQ_STAT_L ≤ 16) ∧
    (∃ (s : State),
      (s.bit aACQ_STAT fACQ_STAT_RUN = true ∧ s.onPeriod aACQ_STAT (65536 * 128) = true) ∧
      (s.watched (s.fld aACQ_CFG fACQ_CFG_HWM) true).any id = true ∧
      s.fld aACQ_STAT fACQ_STAT_L < 16) ∧
    (∃ (s : State),
      (s.bit aACQ_STAT fACQ_STAT_RUN = true ∧ s.onPeriod aACQ_STAT (65536 * 128) = true) ∧
      (s.watched (s.fld aACQ_CFG fACQ_CFG_HWM) true).any id = false ∧
      (s.watched (s.fld aACQ_CFG fACQ_CFG_LWM) false).all id = true ∧
      1 ≤ s.fld aACQ_STAT fACQ_STAT_L ∧
      s.fld aACQ_STAT fACQ_STAT_L ≤ 16) ∧
    (∃ (s : State),
      (¬(s.bit aACQ_STAT fACQ_STAT_RUN = true ∧ s.onPeriod aACQ_STAT (65536 * 128) = true))) ∧
    (∃ (s : State),
      s.bit aACQ_STAT fACQ_STAT_RUN = true ∧
      s.fld aACQ_PER fACQ_PER_DPER ≠ 0 ∧
      s.onPeriod aACQ_PER (s.fld aACQ_PER fACQ_PER_DPER * 2 ^ 20 * 128) = true) ∧
    (∃ (s : State),
      (s.fld aACQ_PER fACQ_PER_DPER = 0 ∨ s.onPeriod aACQ_PER (s.fld aACQ_PER fACQ_PER_DPER * 2 ^ 20 * 128) = false)) ∧
    (∃ (s : State),
      s.bit aACQ_STAT fACQ_STAT_RUN = true ∧
      s.onPeriod aACQ_SEALNO (s.fld aACQ_PER fACQ_PER_SEALIV * 192000000000) = true ∧
      s.copyBefore s.count = false ∧
      s.acq.seals.length < 65536) ∧
    (∃ (s : State),
      s.bit aACQ_STAT fACQ_STAT_RUN = true ∧
      s.onPeriod aACQ_SEALNO (s.fld aACQ_PER fACQ_PER_SEALIV * 192000000000) = true ∧
      s.copyBefore s.count = true) ∧
    (∃ (s : State),
      (s.bit aACQ_STAT fACQ_STAT_RUN = false ∨ s.onPeriod aACQ_SEALNO (s.fld aACQ_PER fACQ_PER_SEALIV * 192000000000) = false)) ∧
    (∃ (basinB : Bool) (s : State),
      64 ≤ s.basinFill (if basinB = true then 1 else 0) ∧
      s.fld aACQ_PER fACQ_PER_SPW * s.fld (aBSN_SIZE (if basinB = true then 1 else 0)) { hi := 31, lo := 0 } < s.basinFill (if basinB = true then 1 else 0) * 256) ∧
    (∃ (basinB : Bool) (s : State),
      s.bit aACQ_STAT (if basinB = true then fACQ_STAT_SPILL_B else fACQ_STAT_SPILL_A) = true ∧
      s.basinFill (if basinB = true then 1 else 0) * 256 < s.fld aACQ_PER fACQ_PER_SPW * s.fld (aBSN_SIZE (if basinB = true then 1 else 0)) { hi := 31, lo := 0 }) ∧
    (∃ (basinB : Bool) (s : State),
      s.hbmOpen = true ∧
      s.spills (if basinB = true then 1 else 0) (s.bit aACQ_STAT (if basinB = true then fACQ_STAT_SPILL_B else fACQ_STAT_SPILL_A)) = true ∧
      s.spillFull = false) ∧
    (∃ (basinB : Bool) (s : State),
      s.hbmOpen = true ∧
      s.spills (if basinB = true then 1 else 0) (s.bit aACQ_STAT (if basinB = true then fACQ_STAT_SPILL_B else fACQ_STAT_SPILL_A)) = true ∧
      s.spillFull = true ∧
      s.causeStands 84 = false) ∧
    (∃ (basinB : Bool) (s : State),
      s.hbmOpen = true ∧
      s.spills (if basinB = true then 1 else 0) (s.bit aACQ_STAT (if basinB = true then fACQ_STAT_SPILL_B else fACQ_STAT_SPILL_A)) = false) ∧
    (∃ (s : State),
      s.hbmOpen = false) :=
  ⟨⟨(acqR [F2 aACQ_CFG fACQ_CFG_HWM 128 fACQ_CFG_LWM 0] (8388608 * 3)), by decide +kernel⟩,
   ⟨(acqR [F2 aACQ_CFG fACQ_CFG_HWM 128 fACQ_CFG_LWM 0, (aBSN_SIZE 1, 256), (aBSN_WR 1, 200)] 8388608), by decide +kernel⟩,
   ⟨(acqR [F2 aACQ_CFG fACQ_CFG_HWM 128 fACQ_CFG_LWM 10, F2 aACQ_STAT fACQ_STAT_L 1 fACQ_STAT_RUN 1] 8388608), by decide +kernel⟩,
   ⟨(acqR [F aACQ_PER fACQ_PER_SEALIV 1] 192000000000), by decide +kernel⟩,
   ⟨(acqR [F2 aACQ_CFG fACQ_CFG_HWM 128 fACQ_CFG_LWM 10, F aACQ_PER fACQ_PER_DPER 1] 134217728), by decide +kernel⟩,
   ⟨(acqR [F2 aACQ_CFG fACQ_CFG_HWM 128 fACQ_CFG_LWM 0] (8388608 * 3)), by decide +kernel⟩,
   ⟨(acqR [F aACQ_PER fACQ_PER_SEALIV 1] 192000000000), by decide +kernel⟩,
   ⟨({ acqR [F aACQ_PER fACQ_PER_SEALIV 1] 192000000000 with agenda := [⟨192000000000, .island 74, .cmd (.excursionWrite 1 2 3 191999999999 5 6)⟩], acq := { streams := one 1 { chunk := [[1]], chunks := 1 } } }), by decide +kernel⟩,
   ⟨(acqR [F2 aACQ_CFG fACQ_CFG_HWM 128 fACQ_CFG_LWM 0] (8388608 * 3)), by decide +kernel⟩,
   ⟨true, (acqR [F2 aACQ_CFG fACQ_CFG_HWM 128 fACQ_CFG_LWM 0, (aBSN_SIZE 1, 256), (aBSN_WR 1, 200)] 8388608), by decide +kernel⟩,
   ⟨true, (sp 1 [F aACQ_PER fACQ_PER_SPW 200, F aACQ_STAT fACQ_STAT_SPILL_B 1]), by decide +kernel⟩,
   ⟨false, (sp 0 [F aACQ_PER fACQ_PER_SPW 64]), by decide +kernel⟩,
   ⟨false, ({ sp 0 [F aACQ_PER fACQ_PER_SPW 64] with acq := { streams := one 0 { spilled := [(7, 0)] }, spillNext := 62500007 } }), by decide +kernel⟩,
   ⟨true, (sp 0 [F aACQ_PER fACQ_PER_SPW 64]), by decide +kernel⟩,
   ⟨(acqR [F2 aACQ_CFG fACQ_CFG_HWM 128 fACQ_CFG_LWM 0] (8388608 * 3)), by decide +kernel⟩⟩

end OfRatesSealsAndSpill

namespace OfEntriesAndStreams
def ses : List (Nat × Word) := [F3 (aLP_STAT 1) fLP_STAT_SESSION 1 fLP_STAT_LTSSM 4 fLP_STAT_ROLE 0, F aLNK_STRM ⟨7, 6⟩ 1, (aBSN_WR 3, 9)]
def lk : Tab LinkState := one 1 { limits := [9,9,9,9] }
def hb : List (Nat × Word) := [(0xC00004, 1), F aHBM_STAT fHBM_STAT_TRAINED 1]

/-- States and operands that meet the hypotheses of each clause of `Obligations.EntriesAndStreams`. -/
theorem witness_EntriesAndStreams :
    (∃ (b : Nat) (s : State),
      s.blkOn 11 = true ∧
      s.plainBase Region.excursion = some b) ∧
    (∃ (s : State),
      s.blkOn 11 = true ∧
      s.plainBase Region.excursion = none) ∧
    (∃ (s : State),
      s.blkOn 11 = false) ∧
    (∃ (p : Port) (cls : Fin 4) (s : State),
      (s.session p.val = false ∨ s.streamPort cls.val ≠ p.val ∨ s.sends p.val = false ∨ (s.sendable cls.val).1 = 0)) ∧
    (∃ (p : Port) (cls : Fin 4) (s : State),
      s.streamPort cls.val = p.val ∧
      s.session p.val = true ∧
      (s.rights (s.sessRole p.val)).mem.getLsbD 5 = true ∧
      0 < (s.sendable cls.val).1 ∧
      ((s.sendable cls.val).2 = true ∨ s.hbmOpen = true) ∧
      (s.link p.val).mayGo (s.sends p.val) 2 = true ∧
      (((s.link p.val).waiting.any fun w => w.1 == 2) = false)) :=
  ⟨⟨58720256, ({ S [(0xB00004, 1), F aACQ_STAT fACQ_STAT_RUN 1] with str := plain7, tasks := [(7, { state := .waiting, chan := 255, step := 9 })] }), by decide +kernel⟩,
   ⟨(S [(0xB00004, 1), F aACQ_STAT fACQ_STAT_RUN 1]), by decide +kernel⟩,
   ⟨(S []), by decide +kernel⟩,
   ⟨1, 3, ({ S [(0xB00004, 1), F aACQ_STAT fACQ_STAT_RUN 1] with str := plain7, tasks := [(7, { state := .waiting, chan := 255, step := 9 })] }), by decide +kernel⟩,
   ⟨1, 3, ({ S (ses ++ hb) with links := lk, hbmMem := Memory.writeBytes [] 60 [1,2,3,4,5,6,7,8,9] }), by decide +kernel⟩⟩

end OfEntriesAndStreams

namespace OfMemorySystem
def hb : List (Nat × Word) := [(0xC00004, 1), F aHBM_STAT fHBM_STAT_TRAINED 1, F aHBM_SCRUB fHBM_SCRUB_SCRUB 3, F2 aHBM_CFG fHBM_CFG_AGEMAX 4 fHBM_CFG_IDLE 8, F (aHBM_RGN_BASE 15) fHBM_RGN_BASE_BASE 1, F (aHBM_RGN_SIZE 15) fHBM_RGN_SIZE_SIZE 2, F2 (aHBM_RGN_KIND 15) fHBM_RGN_KIND_KIND 7 fHBM_RGN_KIND_LOG2G 8]
def rq (req line place passed : Nat) : HbmReq := { requester := req, line := line, pc := 3, place := place, write := false, since := 100, held := false, passed := passed }
def hs (q : List HbmReq) (x : HbmPc) : State := { S hb with hbm := { queue := q, pcs := one 3 x }, count := 12800 }

/-- States and operands that meet the hypotheses of each clause of `Obligations.MemorySystem`. -/
theorem witness_MemorySystem :
    (∃ (s : State),
      s.fld aHBM_SCRUB fHBM_SCRUB_SCRUB = 0) ∧
    (∃ (s : State),
      s.fld aHBM_SCRUB fHBM_SCRUB_SCRUB ≠ 0) ∧
    (∃ (r : HbmReq) (s : State),
      (s.hbmPc r.pc).inOrder = true) ∧
    (∃ (r : HbmReq) (s : State),
      (s.hbmPc r.pc).inOrder = false ∧
      (List.find? (fun z => decide (s.fld aHBM_CFG fHBM_CFG_AGEMAX ≤ z.passed)) (s.hbmQueue r.pc) = some r)) ∧
    (∃ (r : HbmReq) (s : State),
      (s.hbmPc r.pc).inOrder = false ∧
      (∀ z ∈ s.hbmQueue r.pc, z.passed < s.fld aHBM_CFG fHBM_CFG_AGEMAX) ∧
      s.burstSplit r.pc = false ∧
      List.find? (s.hbmPc r.pc).hit (s.hbmQueue r.pc) = some r) ∧
    (∃ (r : HbmReq) (s : State),
      (s.hbmPc r.pc).inOrder = false ∧
      (∀ z ∈ s.hbmQueue r.pc, z.passed < s.fld aHBM_CFG fHBM_CFG_AGEMAX) ∧
      s.burstSplit r.pc = false ∧
      List.find? (s.hbmPc r.pc).hit (s.hbmQueue r.pc) = none) ∧
    (∃ (s : State),
      s.hbmReady = false) ∧
    (∃ (req : Fin 10) (addr : BitVec 35) (r : HbmReq) (s : State),
      (s.hbmReady = true ∧ List.find? (fun r => r.requester == req.val && r.line == addr.toNat / 64 && !r.held) s.hbm.queue = some r) ∧
      (¬s.hbmPick r.pc = some r)) ∧
    (∃ (req : Fin 10) (addr : BitVec 35) (s : State),
      s.hbmReady = true ∧
      (List.find? (fun r => r.requester == req.val && r.line == addr.toNat / 64 && !r.held) s.hbm.queue = none) ∧
      (¬(req.val = 3 ∨ req.val = 4 ∨ req.val = 5 ∨ 8 ≤ req.val))) ∧
    (∃ (req : Fin 10) (addr : BitVec 35) (r : HbmReq) (s : State),
      (s.hbmReady = true ∧ List.find? (fun r => r.requester == req.val && r.line == addr.toNat / 64 && !r.held) s.hbm.queue = some r) ∧
      s.hbmPick r.pc = some r ∧
      s.fld (aHBM_PC_DEPTH r.pc) fHBM_PC_DEPTH_POSTP < 8 ∧
      req.val < 3) ∧
    (∃ (req : Fin 10) (addr : BitVec 35) (s : State),
      (req.val = 3 ∨ req.val = 4 ∨ req.val = 5 ∨ 8 ≤ req.val) ∧
      s.hbm.queue = [] ∧
      s.blkOn 12 = true ∧
      s.hbmReady = true ∧
      (s.hbmRegionAt (64 * (addr.toNat / 64))).isSome = true ∧
      (∀ (k : Fin 16), s.fld (aHBM_PC_DEPTH k.val) fHBM_PC_DEPTH_POSTP < 8)) ∧
    (∃ (req : Fin 10) (addr : BitVec 35) (r : HbmReq) (s : State) (rd : HbmRead),
      (s.hbmReady = true ∧ List.find? (fun r => r.requester == req.val && r.line == addr.toNat / 64 && !r.held) s.hbm.queue = some r) ∧
      s.hbmPick r.pc = some r ∧
      s.fld (aHBM_PC_DEPTH r.pc) fHBM_PC_DEPTH_POSTP < 8 ∧
      req.val = 6 + rd.port.val ∧
      r.write = false ∧
      s.hbm.reads = [rd] ∧
      rd.left = [addr.toNat / 64] ∧
      rd.status = 0 ∧
      (s.link rd.port.val).mayGo (s.sends rd.port.val) rd.vc.toNat = true ∧
      (s.link rd.port.val).waiting = []) ∧
    (∃ (pc : Fin 16) (s : State),
      s.fld (aHBM_PC_DEPTH pc.val) fHBM_PC_DEPTH_POSTP < 8) ∧
    (∃ (pc : Fin 16) (s : State),
      8 ≤ s.fld (aHBM_PC_DEPTH pc.val) fHBM_PC_DEPTH_POSTP) ∧
    (∃ (s : State),
      (s.blkOn 10 = true ∨ s.blkOn 7 = true)) ∧
    (∃ (rate : BitVec 2) (s : State),
      s.rateRefused rate = true) ∧
    (∃ (s : State),
      s.rateRefused (BitVec.ofNat 2 (s.fld aHBM_RATE fHBM_RATE_REQ)) = true) ∧
    (∃ (rate : BitVec 2) (s : State),
      s.rateRefused rate = false ∧
      (¬s.bit aHBM_STAT fHBM_STAT_TRAINING = true)) ∧
    (∃ (rate : BitVec 2) (s : State),
      s.rateRefused rate = false ∧
      s.bit aHBM_STAT fHBM_STAT_TRAINING = true) ∧
    (∃ (s : State),
      s.rateRefused (BitVec.ofNat 2 (s.fld aHBM_RATE fHBM_RATE_REQ)) = false ∧
      (¬s.bit aHBM_STAT fHBM_STAT_TRAINING = true)) ∧
    (∃ (s : State),
      s.rateRefused (BitVec.ofNat 2 (s.fld aHBM_RATE fHBM_RATE_REQ)) = false ∧
      s.bit aHBM_STAT fHBM_STAT_TRAINING = true) ∧
    (∃ (s : State),
      s.bit aHBM_STAT fHBM_STAT_TRAINING = true ∧
      s.hbm.deferred = none) ∧
    (∃ (rate : BitVec 2) (s : State),
      s.bit aHBM_STAT fHBM_STAT_TRAINING = true ∧
      s.hbm.deferred = some rate) :=
  ⟨⟨(S [F aHBM_SCRUB fHBM_SCRUB_SCRUB 0]), by decide +kernel⟩,
   ⟨(hs [rq 2 16384 0 0] {}), by decide +kernel⟩,
   ⟨(rq 2 16384 0 0), (hs [rq 1 5 16384 0, rq 0 16384 0 0] { rows := one 0 (some (0, none)), inOrder := true }), by decide +kernel⟩,
   ⟨(rq 1 16384 16384 4), (hs [rq 1 16384 16384 4, rq 0 3 0 0] { rows := one 0 (some (0, none)) }), by decide +kernel⟩,
   ⟨(rq 0 16384 0 0), (hs [rq 1 5 16384 0, rq 0 16384 0 0] { rows := one 0 (some (0, none)) }), by decide +kernel⟩,
   ⟨(rq 2 16384 0 0), (hs [rq 2 16384 0 0] {}), by decide +kernel⟩,
   ⟨({ hs [] {} with regs := (S (hb.drop 2)).regs }), by decide +kernel⟩,
   ⟨0, 0x100000, (rq 0 16384 0 0), (hs [rq 1 5 16384 0, rq 0 16384 0 0] { rows := one 0 (some (0, none)), inOrder := true }), by decide +kernel⟩,
   ⟨0, 0x100000, (hs [rq 2 16384 0 0] {}), by decide +kernel⟩,
   ⟨2, 0x100000, (rq 2 16384 0 0), (hs [rq 2 16384 0 0] {}), by decide +kernel⟩,
   ⟨9, 0x100000, (hs [] {}), by decide +kernel⟩,
   ⟨7, 0x100000, (rq 7 16384 0 0), ({ hs [rq 7 16384 0 0] {} with hbm := { queue := [rq 7 16384 0 0], reads := [⟨1, 1, 9, [16384], 0, [1,2]⟩] }, regs := (S (F (aLP_STAT 1) fLP_STAT_LTSSM 4 :: hb)).regs, links := one 1 { limits := [9,9,9,9] } }), ⟨1, 1, 9, [16384], 0, [1,2]⟩, by decide +kernel⟩,
   ⟨15, (hs [rq 2 16384 0 0] {}), by decide +kernel⟩,
   ⟨15, ({ S [F aHBM_STAT fHBM_STAT_TRAINING 1, F (aHBM_PC_DEPTH 15) fHBM_PC_DEPTH_POSTP 8] with hbm := { deferred := some 3, rate := 1 } }), by decide +kernel⟩,
   ⟨(S [(0x700004, 1)]), by decide +kernel⟩,
   ⟨0, (S [(0x700004, 1)]), by decide +kernel⟩,
   ⟨(S [(0x700004, 1)]), by decide +kernel⟩,
   ⟨0, (hs [rq 2 16384 0 0] {}), by decide +kernel⟩,
   ⟨0, (S [F aHBM_STAT fHBM_STAT_TRAINING 1, F (aHBM_PC_DEPTH 15) fHBM_PC_DEPTH_POSTP 7]), by decide +kernel⟩,
   ⟨(hs [rq 2 16384 0 0] {}), by decide +kernel⟩,
   ⟨(S [F aHBM_STAT fHBM_STAT_TRAINING 1, F (aHBM_PC_DEPTH 15) fHBM_PC_DEPTH_POSTP 7]), by decide +kernel⟩,
   ⟨(S [F aHBM_STAT fHBM_STAT_TRAINING 1, F (aHBM_PC_DEPTH 15) fHBM_PC_DEPTH_POSTP 7]), by decide +kernel⟩,
   ⟨3, ({ S [F aHBM_STAT fHBM_STAT_TRAINING 1, F (aHBM_PC_DEPTH 15) fHBM_PC_DEPTH_POSTP 8] with hbm := { deferred := some 3, rate := 1 } }), by decide +kernel⟩⟩

end OfMemorySystem

namespace OfCalibrationSequences
def sqs (ph : Nat) (x : CalSeq) (rs : List (Nat × Word)) : State := { S ([F3 (aCALQ_STAT 3) fCALQ_STAT_PHASE ph fCALQ_STAT_ISLAND 63 fCALQ_STAT_CH 3, (aCALQ_LVL 3 0, 777)] ++ rs) with cals := one 3 x, count := 1280 }
def cmd (path n ch npm1 : Nat) : Word := putF (putF (putF (fldWord fCALQ_CMD_PATH path) fCALQ_CMD_ISLAND n) fCALQ_CMD_CH ch) fCALQ_CMD_NPM1 npm1
def okS : State := S [F aCAL_REFSTAT fCAL_REFSTAT_REFOK 1, F (aISL_STAT 63) fISL_STAT_DLL_LOCK 1, F2 aTWN_STAT fTWN_STAT_STATE twSolo fTWN_STAT_OWN 1, (aCALQ_LVL 3 0, 5), (aCALQ_LVL 3 1, 6), F2 (aMU_BIND 63 2) fMU_BIND_QTY 1 fMU_BIND_CH 3, F (aMU_CTL 63 2) fMU_CTL_EN 1]

/-- States and operands that meet the hypotheses of each clause of `Obligations.CalibrationSequences`. -/
theorem witness_CalibrationSequences :
    (∃ (by_ : Issuer) (q : Fin 4) (data : Word) (s : State),
      getF data fCALQ_CMD_ISLAND / 16 = q.val ∧
      s.startCause by_ q.val data = 0) ∧
    (∃ (by_ : Issuer) (q : Fin 4) (data : Word) (s : State),
      getF data fCALQ_CMD_ISLAND / 16 = q.val ∧
      s.startCause by_ q.val data ≠ 0) ∧
    (∃ (q : Fin 4) (data : Word),
      getF data fCALQ_CMD_ISLAND / 16 ≠ q.val) ∧
    (∃ (q : Fin 4) (s : State),
      s.seqRuns q.val = false) ∧
    (∃ (q : Fin 4) (s : State),
      (s.seqRuns q.val = true ∧ ((s.seqn q.val).onBus = false ∨ 2 ≤ (s.seqn q.val).path) ∧ s.seqPhase q.val ≠ 5 ∧ s.seqPhase q.val ≠ 6)) ∧
    (∃ (q : Fin 4) (s : State),
      s.seqRuns q.val = true ∧
      (s.seqn q.val).onBus = true ∧
      (s.seqn q.val).path < 2) ∧
    (∃ (q : Fin 4) (s : State),
      s.phaseEnds q.val = false) ∧
    (∃ (q : Fin 4) (s : State),
      (s.seqPhase q.val ≠ 4 ∨ (s.seqn q.val).path < 2 ∧ (s.seqn q.val).npts ≤ s.fld (aCALQ_STAT q.val) fCALQ_STAT_POINT + 1)) ∧
    (∃ (q : Fin 4) (s : State),
      s.seqPhase q.val = 4 ∧
      (2 ≤ (s.seqn q.val).path ∨ s.fld (aCALQ_STAT q.val) fCALQ_STAT_POINT + 1 < (s.seqn q.val).npts)) ∧
    (∃ (q : Fin 4) (s : State) (due : Count),
      (s.seqn q.val).endAt = some due ∧
      (s.seqn q.val).begun = none) ∧
    (∃ (q : Fin 4) (s : State),
      (s.phaseEnds q.val = true ∧ s.seqPhase q.val = 1) ∧
      (s.seqn q.val).path < 2) ∧
    (∃ (q : Fin 4) (s : State),
      (s.phaseEnds q.val = true ∧ s.seqPhase q.val = 1) ∧
      2 ≤ (s.seqn q.val).path) ∧
    (∃ (q : Fin 4) (s : State),
      (s.phaseEnds q.val = true ∧ s.seqPhase q.val = 2)) ∧
    (∃ (q : Fin 4) (s : State),
      (s.phaseEnds q.val = true ∧ s.seqPhase q.val = 3)) ∧
    (∃ (q : Fin 4) (s : State),
      (s.phaseEnds q.val = true ∧ s.seqPhase q.val = 4) ∧
      (s.seqn q.val).mirrored = false ∧
      (s.seqn q.val).n ≠ 0) ∧
    (∃ (q : Fin 4) (s : State),
      (s.phaseEnds q.val = true ∧ s.seqPhase q.val = 5)) ∧
    (∃ (q : Fin 4) (s : State),
      (s.phaseEnds q.val = true ∧ s.seqPhase q.val = 6) ∧
      (s.seqn q.val).ending = none) ∧
    (∃ (q : Fin 4) (s : State) (c : Nat),
      c < 16 ∧
      (s.phaseEnds q.val = true ∧ s.seqPhase q.val = 6) ∧
      (s.seqn q.val).ending = some c) :=
  ⟨⟨(.port 0), 3, (cmd 2 63 3 1), okS, by decide +kernel⟩,
   ⟨(.port 0), 3, (cmd 0 63 3 1), okS, by decide +kernel⟩,
   ⟨3, (cmd 2 47 3 1), by decide +kernel⟩,
   ⟨3, okS, by decide +kernel⟩,
   ⟨3, (sqs 1 { path := 0, begun := some 1280 } []), by decide +kernel⟩,
   ⟨3, (sqs 3 { path := 0, onBus := true, begun := some 1280, sub := true } [F aTWN_STAT fTWN_STAT_OWN 1]), by decide +kernel⟩,
   ⟨3, okS, by decide +kernel⟩,
   ⟨3, okS, by decide +kernel⟩,
   ⟨3, (sqs 4 { path := 0, onBus := true, npts := 2, pointEnd := 1280, sum := 9, n := 2 } [F aTWN_STAT fTWN_STAT_OWN 1]), by decide +kernel⟩,
   ⟨3, (sqs 1 { path := 2, endAt := some 1281 } []), 1281, by decide +kernel⟩,
   ⟨3, (sqs 1 { path := 0, begun := some 1280 } []), by decide +kernel⟩,
   ⟨3, (sqs 1 { path := 2, begun := some 1280 } []), by decide +kernel⟩,
   ⟨3, (sqs 2 { path := 0, sum := 70, n := 4, begun := some 1280 } []), by decide +kernel⟩,
   ⟨3, (sqs 3 { path := 0, onBus := true, begun := some 1280, sub := true } [F aTWN_STAT fTWN_STAT_OWN 1]), by decide +kernel⟩,
   ⟨3, (sqs 4 { path := 0, onBus := true, npts := 2, pointEnd := 1280, sum := 9, n := 2 } [F aTWN_STAT fTWN_STAT_OWN 1]), by decide +kernel⟩,
   ⟨3, (sqs 5 { path := 0, begun := some 1280, n := 7 } []), by decide +kernel⟩,
   ⟨3, (sqs 6 { path := 0, begun := some 1280, n := 7, returned := true } []), by decide +kernel⟩,
   ⟨3, (sqs 6 { path := 0, begun := some 1280, n := 7, returned := true, ending := some 11 } []), 11, by decide +kernel⟩⟩

end OfCalibrationSequences

namespace OfCalibrationFit
def CE (k : Nat) : CalEntry := { coef := ⟨1,2,3,4⟩, rsh := BitVec.ofNat 32 k }
def fitS (ph path : Nat) (pts : List (Int × Int)) (rs : List (Nat × Word)) : State := { S ([F2 (aCALQ_STAT 3) fCALQ_STAT_PHASE ph fCALQ_STAT_ISLAND 63] ++ rs) with cals := one 3 { path := path, points := pts } }

/-- States and operands that meet the hypotheses of each clause of `Obligations.CalibrationFit`. -/
theorem witness_CalibrationFit :
    (∃ (q : Fin 4) (c : Coef) (s : State),
      s.seqPhase q.val = 7 ∧
      fitCoefs (s.mu (s.seqIsl q.val) ((s.seqUnit q.val).getD 0)).base.f0 (s.fitPoints q.val).1 (s.fitPoints q.val).2 = some c) ∧
    (∃ (q : Fin 4) (s : State),
      s.seqPhase q.val ≠ 7) ∧
    (∃ (q : Fin 4) (u : Nat) (s : State),
      s.seqPhase q.val = 8 ∧
      s.seqUnit q.val = some u ∧
      u < 9) ∧
    (∃ (q : Fin 4) (s : State),
      s.seqPhase q.val ≠ 8) ∧
    (∃ (key : Nat) (e : CalEntry) (rest : List (Nat × CalEntry)) (s : State),
      s.calRec.forming = (key, e) :: rest ∧
      1 ≤ s.calRec.signed) ∧
    (∃ (s : State),
      (s.calRec.forming = [] ∨ s.calRec.signed = 0)) ∧
    (∃ (s : State),
      (s.refDue = true ∧ s.calRec.waiting = false)) ∧
    (∃ (s : State),
      (¬(s.refDue = true ∧ s.calRec.waiting = false))) ∧
    (∃ (s : State),
      (¬(s.calRec.checking = true ∧ Count.before s.count (s.calRec.checkFrom + cyc 300000000) = false))) ∧
    (∃ (s : State),
      (s.calRec.checking = true ∧ Count.before s.count (s.calRec.checkFrom + cyc 300000000) = false)) :=
  ⟨⟨3, ((fitCoefs 0 [(0, 65536), (4294967296, 65536)] 1).getD ⟨0, 0, 0, 0⟩), (fitS 7 2 [(0, 65536), (4294967296, 65536)] [(aCAL_FSV, 1000000), F aCAL_RESMAX fCAL_RESMAX_RESMAX 100]), by decide +kernel⟩,
   ⟨3, (fitS 8 3 [] [(aCALQ_F0 3, 5), (aCALQ_F0 3 + 4, 0xFFFFFFFF), (aCALQ_RSH 3, 77)]), by decide +kernel⟩,
   ⟨3, 8, (fitS 8 3 [] [(aCALQ_F0 3, 5), (aCALQ_F0 3 + 4, 0xFFFFFFFF), (aCALQ_RSH 3, 77)]), by decide +kernel⟩,
   ⟨3, (fitS 7 2 [(0, 65536), (4294967296, 65536)] [(aCAL_FSV, 1000000), F aCAL_RESMAX fCAL_RESMAX_RESMAX 100]), by decide +kernel⟩,
   ⟨5, (CE 1), [((6, CE 2))], ({ S [] with calRec := { forming := [(5, CE 1), (6, CE 2)], signed := 1, field := [⟨9, 5, []⟩] } }), by decide +kernel⟩,
   ⟨(fitS 7 2 [(0, 65536), (4294967296, 65536)] [(aCAL_FSV, 1000000), F aCAL_RESMAX fCAL_RESMAX_RESMAX 100]), by decide +kernel⟩,
   ⟨(fitS 7 2 [(0, 65536), (4294967296, 65536)] [(aCAL_FSV, 1000000), F aCAL_RESMAX fCAL_RESMAX_RESMAX 100]), by decide +kernel⟩,
   ⟨({ S [F aCAL_REFCFG fCAL_REFCFG_REFCHK 1] with calRec := { asked := some 0 }, count := 191999999999 }), by decide +kernel⟩,
   ⟨(fitS 7 2 [(0, 65536), (4294967296, 65536)] [(aCAL_FSV, 1000000), F aCAL_RESMAX fCAL_RESMAX_RESMAX 100]), by decide +kernel⟩,
   ⟨({ S [F aCAL_REFCFG fCAL_REFCFG_REFTOL 1] with calRec := { checking := true, waiting := true, checkFrom := 0 }, count := 38400000000, causes := [(43, 0)] }), by decide +kernel⟩⟩

end OfCalibrationFit

namespace OfTwinNegotiation
def tw (st : Nat) (rs : List (Nat × Word)) : State := S (F3 aTWN_STAT fTWN_STAT_STATE st fTWN_STAT_OWN (if st = twSolo ∨ st = twActive then 1 else 0) fTWN_STAT_PRES 1 :: rs)
def big : List (Nat × Word) := [F2 (aMU_BIND 63 0) fMU_BIND_QTY 1 fMU_BIND_CH 3, F (aMU_CTL 63 0) fMU_CTL_EN 1, (aMU_HOP 63 0, 11)]
def hs (side : Bool) (st : BitVec 4) : HelloFrame := ⟨side, true, st, (S []).tdig, (S []).csDig⟩

/-- States and operands that meet the hypotheses of each clause of `Obligations.TwinNegotiation`. -/
theorem witness_TwinNegotiation :
    (∃ (f : HelloFrame) (s : State),
      s.twin = twNegotiate ∧
      (f.side = s.bit aTWN_CFG fTWN_CFG_SIDE ∨ f.digest ≠ s.tdig ∨ f.csDigest ≠ s.csDig)) ∧
    (∃ (f : HelloFrame) (s : State),
      s.twin = twNegotiate ∧
      (¬(f.side = s.bit aTWN_CFG fTWN_CFG_SIDE ∨ f.digest ≠ s.tdig ∨ f.csDigest ≠ s.csDig)) ∧
      (owns f.state.toNat = true ∨ s.bit aTWN_CFG fTWN_CFG_SIDE ≠ s.bit aTWN_CFG fTWN_CFG_PREFER)) ∧
    (∃ (f : HelloFrame) (s : State),
      s.twin = twNegotiate ∧
      (¬(f.side = s.bit aTWN_CFG fTWN_CFG_SIDE ∨ f.digest ≠ s.tdig ∨ f.csDigest ≠ s.csDig)) ∧
      owns f.state.toNat = false ∧
      s.bit aTWN_CFG fTWN_CFG_SIDE = s.bit aTWN_CFG fTWN_CFG_PREFER) ∧
    (∃ (f : HelloFrame) (s : State),
      (s.twin = twSolo ∧ f.state.toNat = twJoining ∧ s.joins = false ∧ (s.bit aTWN_CFG fTWN_CFG_AUTOJOIN = true ∨ s.twn.joinOrdered = true)) ∧
      s.shipCharge ≤ 7680000000) ∧
    (∃ (f : HelloFrame) (s : State),
      (s.twin = twSolo ∧ f.state.toNat = twJoining ∧ s.joins = false ∧ (s.bit aTWN_CFG fTWN_CFG_AUTOJOIN = true ∨ s.twn.joinOrdered = true)) ∧
      7680000000 < s.shipCharge) ∧
    (∃ (f : HelloFrame) (s : State),
      s.twin ≠ twNegotiate ∧
      (¬(s.twin = twSolo ∧ f.state.toNat = twJoining ∧ s.joins = false ∧ (s.bit aTWN_CFG fTWN_CFG_AUTOJOIN = true ∨ s.twn.joinOrdered = true)))) ∧
    (∃ (s : State),
      s.twin = twNegotiate ∧
      s.negExpired = true ∧
      s.bit aTWN_STAT fTWN_STAT_PEER_OWN = false) ∧
    (∃ (s : State),
      s.twin = twNegotiate ∧
      s.negExpired = true ∧
      s.bit aTWN_STAT fTWN_STAT_PEER_OWN = true) ∧
    (∃ (s : State),
      (s.twin ≠ twNegotiate ∨ s.negExpired = false)) ∧
    (∃ (s : State),
      (s.twin = twSolo ∨ s.twin = twActive)) ∧
    (∃ (s : State),
      owns s.twin = false ∧
      (s.twin ≠ twStandby ∨ s.colHeld = true)) ∧
    (∃ (s : State),
      s.bit aTWN_STAT fTWN_STAT_OWN = true ∧
      s.bit aTWN_CFG fTWN_CFG_SIDE = false) ∧
    (∃ (s : State),
      s.bit aTWN_STAT fTWN_STAT_OWN = true ∧
      s.bit aTWN_CFG fTWN_CFG_SIDE = true) ∧
    (∃ (s : State),
      s.bit aTWN_STAT fTWN_STAT_OWN = false) ∧
    (∃ (s : State),
      s.twin = twSolo ∧
      s.joins = true) ∧
    (∃ (s : State),
      s.twin ≠ twActive ∧
      (s.twin ≠ twSolo ∨ s.joins = false)) ∧
    (∃ (s : State),
      (¬s.quietFor s.twn.rxAt 450 = true)) ∧
    (∃ (s : State),
      s.quietFor s.twn.rxAt 450 = true ∧
      s.twin = twActive) ∧
    (∃ (s : State),
      s.quietFor s.twn.rxAt 450 = true ∧
      s.twin = twStandby ∧
      s.bit aTWN_STAT fTWN_STAT_PEER_OWN = true) ∧
    (∃ (s : State),
      s.quietFor s.twn.rxAt 450 = true ∧
      s.twin = twStandby ∧
      (¬s.bit aTWN_STAT fTWN_STAT_PEER_OWN = true) ∧
      s.colHeld = false) ∧
    (∃ (s : State),
      s.quietFor s.twn.rxAt 450 = true ∧
      (s.twin = twJoining ∨ s.twin = twSolo ∧ s.joins = true)) ∧
    (∃ (s : State),
      s.bit aLNK_STAT fLNK_STAT_COL_UP = true ∧
      s.quietFor (s.link 2).sentAt 150 = true) ∧
    (∃ (s : State),
      (s.bit aLNK_STAT fLNK_STAT_COL_UP = false ∨ s.quietFor (s.link 2).sentAt 150 = false)) :=
  ⟨⟨(hs false 0), (S [F aTWN_STAT fTWN_STAT_STATE twNegotiate]), by decide +kernel⟩,
   ⟨(hs true 2), (S [F aTWN_STAT fTWN_STAT_STATE twNegotiate]), by decide +kernel⟩,
   ⟨(hs true 0), (S [F aTWN_STAT fTWN_STAT_STATE twNegotiate]), by decide +kernel⟩,
   ⟨(hs true 4), (tw twSolo [F aTWN_CFG fTWN_CFG_AUTOJOIN 1]), by decide +kernel⟩,
   ⟨(hs true 4), (tw twSolo (F aTWN_CFG fTWN_CFG_AUTOJOIN 1 :: big)), by decide +kernel⟩,
   ⟨(hs true 0), (tw twSolo [F aTWN_CFG fTWN_CFG_AUTOJOIN 1]), by decide +kernel⟩,
   ⟨({ S [F aTWN_STAT fTWN_STAT_STATE twNegotiate, F2 aTWN_CFG fTWN_CFG_SIDE 1 fTWN_CFG_PREFER 1, F aTBS_CTL fTBS_CTL_MPAIR 1] with twn := { negFrom := some 128 }, count := 384000000128 }), by decide +kernel⟩,
   ⟨({ S [F2 aTWN_STAT fTWN_STAT_STATE twNegotiate fTWN_STAT_PEER_OWN 1] with twn := { negFrom := some 0 }, count := 384000000000 }), by decide +kernel⟩,
   ⟨(S [F aTWN_STAT fTWN_STAT_STATE twNegotiate]), by decide +kernel⟩,
   ⟨(tw twSolo [F aTWN_CFG fTWN_CFG_AUTOJOIN 1]), by decide +kernel⟩,
   ⟨(S [F aTWN_STAT fTWN_STAT_STATE twNegotiate]), by decide +kernel⟩,
   ⟨(tw twSolo [F aTWN_CFG fTWN_CFG_AUTOJOIN 1]), by decide +kernel⟩,
   ⟨(tw twSolo [F aTWN_JOIN fTWN_JOIN_PHASE 2, F aTWN_CFG fTWN_CFG_SIDE 1]), by decide +kernel⟩,
   ⟨(S [F aTWN_STAT fTWN_STAT_STATE twNegotiate]), by decide +kernel⟩,
   ⟨(tw twSolo [F aTWN_JOIN fTWN_JOIN_PHASE 2, F aTWN_CFG fTWN_CFG_SIDE 1]), by decide +kernel⟩,
   ⟨(S [F aTWN_STAT fTWN_STAT_STATE twNegotiate]), by decide +kernel⟩,
   ⟨({ tw twActive [F aLNK_STAT fLNK_STAT_COL_UP 1] with twn := { rxAt := some 0 }, count := 57599, links := one 2 { sentAt := some 57599 } }), by decide +kernel⟩,
   ⟨(tw twActive [F (aCH_CTL 63 3) fCH_CTL_DRV_EN 1]), by decide +kernel⟩,
   ⟨(S [F2 aTWN_STAT fTWN_STAT_STATE twStandby fTWN_STAT_PEER_OWN 1, F (aCH_CTL 63 3) fCH_CTL_DRV_EN 1]), by decide +kernel⟩,
   ⟨(tw twStandby [F (aCH_CTL 63 3) fCH_CTL_DRV_EN 1]), by decide +kernel⟩,
   ⟨(tw twSolo [F aTWN_JOIN fTWN_JOIN_PHASE 2, F aTWN_CFG fTWN_CFG_SIDE 1]), by decide +kernel⟩,
   ⟨({ tw twActive [F aTWN_CFG fTWN_CFG_SIDE 1, F (aCH_CTL 63 3) fCH_CTL_DRV_EN 1, F aLNK_STAT fLNK_STAT_COL_UP 1] with twn := { rxAt := some 0 }, count := 57600 }), by decide +kernel⟩,
   ⟨(S [F aTWN_STAT fTWN_STAT_STATE twNegotiate]), by decide +kernel⟩⟩

end OfTwinNegotiation

namespace OfColHandsOver
def tw (st : Nat) (rs : List (Nat × Word)) : State := S (F3 aTWN_STAT fTWN_STAT_STATE st fTWN_STAT_OWN (if st = twSolo ∨ st = twActive then 1 else 0) fTWN_STAT_PRES 1 :: rs)

/-- States and operands that meet the hypotheses of each clause of `Obligations.ColHandsOver`. -/
theorem witness_ColHandsOver :
    (∃ (s : State),
      s.twin = twStandby) ∧
    (∃ (cause : BitVec 4) (s : State),
      s.twin = twActive ∧
      cause = 1) ∧
    (∃ (cause : BitVec 4) (s : State),
      s.twin = twActive ∧
      cause ≠ 1) ∧
    (∃ (s : State),
      s.twin ≠ twStandby ∧
      s.twin ≠ twActive) ∧
    (∃ (s : State),
      (s.twin = twStandby ∧ s.bit aTWN_CFG fTWN_CFG_PCOL = true ∧ s.plausStands = true ∧ s.colHeld = false)) ∧
    (∃ (s : State),
      (¬(s.twin = twStandby ∧ s.bit aTWN_CFG fTWN_CFG_PCOL = true ∧ s.plausStands = true ∧ s.colHeld = false))) :=
  ⟨⟨({ tw twStandby [F aTBS_CTL fTBS_CTL_MPAIR 1] with count := 2^71 + 128 }), by decide +kernel⟩,
   ⟨1, ({ tw twActive [F (aCH_CTL 63 3) fCH_CTL_DRV_EN 1] with count := 1280, tasks := [(7, { state := .waiting, chan := 9 })] }), by decide +kernel⟩,
   ⟨4, ({ tw twActive [F (aCH_CTL 63 3) fCH_CTL_DRV_EN 1] with count := 1280, tasks := [(7, { state := .waiting, chan := 9 })] }), by decide +kernel⟩,
   ⟨(tw twSolo []), by decide +kernel⟩,
   ⟨({ tw twStandby [F aTWN_CFG fTWN_CFG_PCOL 1, F (aCH_CTL 63 3) fCH_CTL_DRV_EN 1] with count := 192000000, twn := { plausSince := [(3, 0)], missed := [(1,2,3)] } }), by decide +kernel⟩,
   ⟨({ tw twActive [F (aCH_CTL 63 3) fCH_CTL_DRV_EN 1] with count := 1280, tasks := [(7, { state := .waiting, chan := 9 })] }), by decide +kernel⟩⟩

end OfColHandsOver

namespace OfJoinsAndDigests
def tw (st : Nat) (rs : List (Nat × Word)) : State := S (F3 aTWN_STAT fTWN_STAT_STATE st fTWN_STAT_OWN (if st = twSolo ∨ st = twActive then 1 else 0) fTWN_STAT_PRES 1 :: F2 aTWN_CFG fTWN_CFG_TICK 10 fTWN_CFG_VERN 2 :: rs)
def o1 (x : Bool) : Twn := { own := [(6, 77, x)] }
def og (x : Bool) : Twn := { own := [(6, 77, x)], origin := some (5*1920000) }

/-- States and operands that meet the hypotheses of each clause of `Obligations.JoinsAndDigests`. -/
theorem witness_JoinsAndDigests :
    (∃ (s : State),
      (s.twin = twHoldoff ∨ s.twin = twDetached)) ∧
    (∃ (s : State),
      s.twin = twSolo ∧
      s.joins = false ∧
      s.fld aTWN_STAT fTWN_STAT_PEER ≠ twJoining) ∧
    (∃ (s : State),
      s.twin = twSolo ∧
      s.joins = false ∧
      s.fld aTWN_STAT fTWN_STAT_PEER = twJoining ∧
      s.shipCharge ≤ 7680000000) ∧
    (∃ (s : State),
      s.twin = twActive ∧
      s.twn.safeRise.isSome = true) ∧
    (∃ (s : State),
      (s.twin = twNegotiate ∨ s.twin = twJoining ∨ s.twin = twStandby ∨ s.twin = twSolo ∧ s.joins = true ∨ s.twin = twActive ∧ s.twn.safeRise = none)) ∧
    (∃ (s : State),
      s.fld aTWN_JOIN fTWN_JOIN_PHASE = 1) ∧
    (∃ (s : State),
      s.fld aTWN_JOIN fTWN_JOIN_PHASE ≠ 1) ∧
    (∃ (s : State),
      (s.tickLen ≠ 0 ∧ (s.twin = twActive ∨ s.isStandby = true ∨ s.twin = twSolo ∧ s.joins = true) ∧ BitVec.toNat (s.count - cyc 1000) % s.tickLen = 0 ∧ s.tickLen ≤ BitVec.toNat (s.count - cyc 1000) ∧ s.freshAt aTWN_TICKS = 0) ∧
      s.twn.peer = []) ∧
    (∃ (s : State),
      (¬(s.tickLen ≠ 0 ∧ (s.twin = twActive ∨ s.isStandby = true ∨ s.twin = twSolo ∧ s.joins = true) ∧ BitVec.toNat (s.count - cyc 1000) % s.tickLen = 0 ∧ s.tickLen ≤ BitVec.toNat (s.count - cyc 1000) ∧ s.freshAt aTWN_TICKS = 0))) ∧
    (∃ (tick : BitVec 64) (d e : BitVec 256) (own : Bool) (s : State),
      ((s.twin = twActive ∨ s.twin = twStandby) ∧ s.joins = false ∧ s.twn.safeSplit = false ∧ s.twn.own = [(tick, d, own)] ∧ s.twn.peer = []) ∧
      e ≠ d ∧
      s.twin = twActive) ∧
    (∃ (tick : BitVec 64) (d e : BitVec 256) (own : Bool) (s : State),
      ((s.twin = twActive ∨ s.twin = twStandby) ∧ s.joins = false ∧ s.twn.safeSplit = false ∧ s.twn.own = [(tick, d, own)] ∧ s.twn.peer = []) ∧
      e ≠ d ∧
      s.twin = twStandby) ∧
    (∃ (tick : BitVec 64) (d : BitVec 256) (own : Bool) (o : Count) (s : State),
      (s.joins = true ∧ s.twn.origin = some o ∧ s.tickLen ≠ 0 ∧ BitVec.toNat (o + cyc 128) ≤ tick.toNat * s.tickLen ∧ s.twn.own = [(tick, d, own)] ∧ s.twn.peer = []) ∧
      (s.twin = twJoining ∨ s.twin = twSolo) ∧
      s.fld aTWN_JOIN fTWN_JOIN_EQUAL + 1 < 256 ∧
      s.fld aTWN_CFG fTWN_CFG_VERN ≤ s.fld aTWN_JOIN fTWN_JOIN_EQUAL + 1) ∧
    (∃ (tick : BitVec 64) (d : BitVec 256) (own : Bool) (o : Count) (s : State),
      (s.joins = true ∧ s.twn.origin = some o ∧ s.tickLen ≠ 0 ∧ BitVec.toNat (o + cyc 128) ≤ tick.toNat * s.tickLen ∧ s.twn.own = [(tick, d, own)] ∧ s.twn.peer = []) ∧
      (s.twin = twJoining ∨ s.twin = twSolo) ∧
      s.fld aTWN_JOIN fTWN_JOIN_EQUAL + 1 < 256 ∧
      s.fld aTWN_JOIN fTWN_JOIN_EQUAL + 1 < s.fld aTWN_CFG fTWN_CFG_VERN) ∧
    (∃ (tick : BitVec 64) (d e : BitVec 256) (own : Bool) (o : Count) (s : State),
      (s.joins = true ∧ s.twn.origin = some o ∧ s.tickLen ≠ 0 ∧ BitVec.toNat (o + cyc 128) ≤ tick.toNat * s.tickLen ∧ s.twn.own = [(tick, d, own)] ∧ s.twn.peer = []) ∧
      s.twin = twJoining ∧
      e ≠ d) ∧
    (∃ (s : State),
      s.twin = twDetached) :=
  ⟨⟨(tw twHoldoff []), by decide +kernel⟩,
   ⟨(tw twSolo []), by decide +kernel⟩,
   ⟨(tw twSolo [F3 aTWN_STAT fTWN_STAT_STATE twSolo fTWN_STAT_OWN 1 fTWN_STAT_PEER twJoining]), by decide +kernel⟩,
   ⟨({ tw twActive [] with twn := { safeRise := some 0 } }), by decide +kernel⟩,
   ⟨(tw twNegotiate []), by decide +kernel⟩,
   ⟨(tw twSolo [F aTWN_JOIN fTWN_JOIN_PHASE 1]), by decide +kernel⟩,
   ⟨(tw twHoldoff []), by decide +kernel⟩,
   ⟨({ tw twActive [(aTWN_BLMASK 0, 0x100)] with count := 1920000 * 3 + 128000, twn := { raises := [(8, 1920000*2+5)], items := [.flags 1 (1920000*2+9) 5, .flags 1 (1920000*3+9) 5] } }), by decide +kernel⟩,
   ⟨(tw twHoldoff []), by decide +kernel⟩,
   ⟨6, 77, 78, true, ({ tw twActive [] with twn := o1 true }), by decide +kernel⟩,
   ⟨6, 77, 78, true, ({ tw twStandby [F (aCH_CTL 63 3) fCH_CTL_DRV_EN 1] with twn := o1 true }), by decide +kernel⟩,
   ⟨6, 77, true, 9600000, ({ tw twJoining [F2 aTWN_JOIN fTWN_JOIN_PHASE 3 fTWN_JOIN_EQUAL 1, F (aCH_CTL 63 3) fCH_CTL_DRV_EN 1] with twn := og true }), by decide +kernel⟩,
   ⟨6, 77, true, 9600000, ({ tw twJoining [F2 aTWN_JOIN fTWN_JOIN_PHASE 2 fTWN_JOIN_EQUAL 0] with twn := og true }), by decide +kernel⟩,
   ⟨6, 77, 78, true, 9600000, ({ tw twJoining [F2 aTWN_JOIN fTWN_JOIN_PHASE 3 fTWN_JOIN_EQUAL 1, F (aCH_CTL 63 3) fCH_CTL_DRV_EN 1] with twn := og true }), by decide +kernel⟩,
   ⟨(tw twDetached []), by decide +kernel⟩⟩

end OfJoinsAndDigests

namespace OfShippedAndFerried
def tw (st : Nat) (rs : List (Nat × Word)) : State := S (F3 aTWN_STAT fTWN_STAT_STATE st fTWN_STAT_OWN (if st = twSolo ∨ st = twActive then 1 else 0) fTWN_STAT_PRES 1 :: rs)
def i1 : ShipItem := .result 63 7 1 9 1280

/-- States and operands that meet the hypotheses of each clause of `Obligations.ShippedAndFerried`. -/
theorem witness_ShippedAndFerried :
    (∃ (it : ShipItem) (s : State),
      s.isStandby = true ∧
      s.twn.missed = [] ∧
      Count.upto (Count.cycleStart s.count) (Count.cycleStart (itemDue it)) = true) ∧
    (∃ (it : ShipItem) (s : State),
      s.isStandby = true ∧
      (¬Count.upto (Count.cycleStart s.count) (Count.cycleStart (itemDue it)) = true) ∧
      (¬(s.twin = twStandby ∧ itemResults it ≠ [] ∧ ∀ r ∈ itemResults it, (s.mu r.1 r.2).valid = true ∧ Count.upto (itemDue it) (s.mu r.1 r.2).due = true ∧ (r.1, r.2, itemDue it) ∉ s.twn.missed))) ∧
    (∃ (it : ShipItem) (s : State),
      s.isStandby = true ∧
      s.twn.missed = [] ∧
      (¬Count.upto (Count.cycleStart s.count) (Count.cycleStart (itemDue it)) = true) ∧
      (s.twin = twStandby ∧ itemResults it ≠ [] ∧ ∀ r ∈ itemResults it, (s.mu r.1 r.2).valid = true ∧ Count.upto (itemDue it) (s.mu r.1 r.2).due = true ∧ (r.1, r.2, itemDue it) ∉ s.twn.missed)) ∧
    (∃ (s : State),
      s.twn.missed ≠ []) ∧
    (∃ (it : ShipItem) (s : State),
      s.takesItem it = false ∧
      s.twn.missed = []) ∧
    (∃ (it : ShipItem) (due : Count) (s : State) (k : BitVec 4),
      it = ShipItem.col k due ∧
      s.twin = twActive ∧
      s.twn.missed = [] ∧
      Count.upto (Count.cycleStart s.count) (Count.cycleStart (itemDue it)) = true) ∧
    (∃ (addr : BitVec 48) (due : Count) (data : List Byte) (s : State),
      s.isStandby = true ∧
      hostSpace addr ≠ 0 ∧
      data ≠ [] ∧
      s.memStatus (hostSpace addr) (hostOffset addr) data.length true = stOk ∧
      Count.upto s.count (Count.cycleStart due) = true) ∧
    (∃ (addr : BitVec 48) (due : Count) (data : List Byte) (s : State),
      s.isStandby = true ∧
      hostSpace addr ≠ 0 ∧
      data ≠ [] ∧
      s.memStatus (hostSpace addr) (hostOffset addr) data.length true = stOk ∧
      Count.upto s.count (Count.cycleStart due) = false) ∧
    (∃ (n : Nat) (s : State),
      s.isStandby = true ∧
      64 ≤ n ∧
      n < 2 ^ 32) ∧
    (∃ (s : State),
      s.isStandby = false) ∧
    (∃ (f : FerryBlock) (w : Word) (s : State),
      ((s.twin = twJoining ∨ s.resyncs = true) ∧ f.cycle = none) ∧
      f.space = 0 ∧
      f.data = leBytes 4 (BitVec.toNat w) ∧
      runState f.offset.toNat = true) ∧
    (∃ (f : FerryBlock) (w : Word) (s : State),
      ((s.twin = twJoining ∨ s.resyncs = true) ∧ f.cycle = none) ∧
      f.space = 0 ∧
      f.data = leBytes 4 (BitVec.toNat w) ∧
      runState f.offset.toNat = false) ∧
    (∃ (f : FerryBlock) (s : State),
      ((s.twin = twJoining ∨ s.resyncs = true) ∧ f.cycle = none) ∧
      f.space = 1) ∧
    (∃ (f : FerryBlock) (s : State),
      ((s.twin = twJoining ∨ s.resyncs = true) ∧ f.cycle = none) ∧
      f.space = 2) ∧
    (∃ (c : Count) (f : FerryBlock) (s : State),
      (s.twin = twJoining ∨ s.resyncs = true) ∧
      f.cycle = some c ∧
      (¬Option.any (fun o => Count.upto (o + cyc 128) c) s.twn.origin = true) ∧
      Count.upto s.count (c + cyc 128) = true) ∧
    (∃ (c : Count) (f : FerryBlock) (s : State),
      (s.twin = twJoining ∨ s.resyncs = true) ∧
      f.cycle = some c ∧
      (¬Option.any (fun o => Count.upto (o + cyc 128) c) s.twn.origin = true) ∧
      Count.upto s.count (c + cyc 128) = false) ∧
    (∃ (c : Count) (f : FerryBlock) (s : State),
      (s.twin = twJoining ∨ s.resyncs = true) ∧
      f.cycle = some c ∧
      (Option.any (fun o => Count.upto (o + cyc 128) c) s.twn.origin = true)) ∧
    (∃ (s : State),
      (¬(s.twin = twJoining ∨ s.resyncs = true))) :=
  ⟨⟨i1, (tw twStandby []), by decide +kernel⟩,
   ⟨i1, ({ tw twJoining [] with count := 12800 }), by decide +kernel⟩,
   ⟨i1, ({ tw twStandby [] with count := 12800, meas := one (63*9+7) { valid := true, due := 1280 } }), by decide +kernel⟩,
   ⟨({ tw twStandby [] with count := 12800, meas := one (63*9+7) { valid := true, due := 1280 }, twn := { missed := [(63, 7, 1280), (3, 2, 5)] } }), by decide +kernel⟩,
   ⟨i1, (tw twActive []), by decide +kernel⟩,
   ⟨(.col 3 1280), 1280, (tw twActive []), 3, by decide +kernel⟩,
   ⟨(BitVec.ofNat 48 (2^45 + 0)), 1280, [1,2,3,4], (tw twStandby []), by decide +kernel⟩,
   ⟨(BitVec.ofNat 48 (2^45 + 0)), 1280, [1,2,3,4], ({ tw twJoining [] with count := 12800 }), by decide +kernel⟩,
   ⟨64, (tw twStandby []), by decide +kernel⟩,
   ⟨(tw twActive []), by decide +kernel⟩,
   ⟨⟨0, 0x0A001E4, [1,2,3,4], none⟩, 0x04030201, ({ tw twJoining [] with count := 12800 }), by decide +kernel⟩,
   ⟨⟨0, 0x30, [1,2,3,4], none⟩, 0x04030201, ({ tw twJoining [] with count := 12800 }), by decide +kernel⟩,
   ⟨⟨1, 62914559, [9,8,7], none⟩, ({ tw twJoining [] with count := 12800 }), by decide +kernel⟩,
   ⟨⟨2, 63, [9,8,7], none⟩, ({ tw twJoining [] with count := 12800 }), by decide +kernel⟩,
   ⟨0, ⟨2, 63, [9,8,7], some 0⟩, ({ tw twJoining [] with count := 12800 }), by decide +kernel⟩,
   ⟨0, ⟨2, 63, [9,8,7], some 0⟩, ({ tw twJoining [] with count := 1280000 }), by decide +kernel⟩,
   ⟨16384, ⟨2, 63, [9,8,7], some 16384⟩, ({ tw twJoining [] with twn := { origin := some 0 } }), by decide +kernel⟩,
   ⟨(tw twStandby []), by decide +kernel⟩⟩

end OfShippedAndFerried

namespace OfLinkTraining
def lk (st : Nat) (rs : List (Nat × Word)) (x : LinkState) (c : Count) : State := { S ([F2 (aLP_STAT 0) fLP_STAT_LTSSM st fLP_STAT_TXPWR 1, F2 (aLP_STAT 1) fLP_STAT_LTSSM st fLP_STAT_RXPWR 2, F aLC_STAT fLC_STAT_LTSSM st, F aLR_STAT fLR_STAT_LTSSM st] ++ rs) with links := [(0, x), (1, x), (2, x), (3, x), (4, { x with st := st })], count := c }
def h0 : Held := ⟨3, 1, .keep, none, false⟩

/-- States and operands that meet the hypotheses of each clause of `Obligations.LinkTraining`. -/
theorem witness_LinkTraining :
    (∃ (l : Link) (s : State),
      s.ltOf l = ltDetect) ∧
    (∃ (l : Link) (s : State),
      s.ltOf l ≠ ltDetect) ∧
    (∃ (l : Link) (s : State),
      s.ltOf l = ltPoll) ∧
    (∃ (l : Link) (s : State),
      s.ltOf l ≠ ltPoll) ∧
    (∃ (l : Link) (s : State),
      (s.ltOf l = ltPoll ∨ s.ltOf l = ltConfig) ∧
      s.stateFor l (24 * 192000000) = true) ∧
    (∃ (l : Link) (s : State),
      s.stateFor l (24 * 192000000) = false) ∧
    (∃ (l : Link) (width : BitVec 2) (s : State),
      s.ltOf l = ltConfig ∧
      (l = Link.col → width = 0)) ∧
    (∃ (l : Link) (s : State),
      s.ltOf l ≠ ltConfig) ∧
    (∃ (l : Link) (s : State),
      s.ltOf l = ltActive) ∧
    (∃ (l : Link) (s : State),
      s.ltOf l = ltRecovery ∧
      (s.link (linkKey l)).waiting = []) ∧
    (∃ (l : Link) (s : State),
      s.ltOf l = ltRecovery ∧
      s.stateFor l (2 * 192000000) = true) ∧
    (∃ (l : Link) (s : State),
      (s.ltOf l ≠ ltRecovery ∨ s.stateFor l (2 * 192000000) = false)) ∧
    (∃ (l : Link) (s : State),
      s.ltOf l ≠ ltRecovery) ∧
    (∃ (p : Port) (s : State),
      s.ltssm p.val = ltConfig) ∧
    (∃ (p : Port) (s : State),
      s.ltssm p.val ≠ ltActive) ∧
    (∃ (p : Port) (s : State),
      s.ltssm p.val = ltRecovery ∧
      (s.link p.val).waiting = []) ∧
    (∃ (p : Port) (s : State),
      s.ltssm p.val = ltRecovery ∧
      s.stateFor (Link.port p) (2 * 192000000) = true) ∧
    (∃ (data : Word),
      BitVec.getLsbD data 0 = true) ∧
    (∃ (p : Port) (data : Word) (s : State),
      s.bit (aLP_CTL p.val) fLP_CTL_EN = true ∧
      BitVec.getLsbD data 0 = false) ∧
    (∃ (p : Port) (data : Word) (s : State),
      s.bit (aLP_CTL p.val) fLP_CTL_EN = false ∧
      BitVec.getLsbD data 0 = false) ∧
    (∃ (width : BitVec 2) (s : State),
      s.ltssm 2 = ltConfig ∧
      width ≠ 0) ∧
    (∃ (s : State),
      s.causeAt 100 0 = false) ∧
    (∃ (p : Port) (tx : Bool) (s : State),
      s.ltssm p.val = ltActive ∧
      (tx = false ∨ s.fld (aLP_PWR p.val) fLP_PWR_LS_IDLE ≠ 0 ∧ s.idleFor (Link.port p) (s.fld (aLP_PWR p.val) fLP_PWR_LS_IDLE * 192) = true)) ∧
    (∃ (p : Port) (tx : Bool) (s : State),
      s.ltssm p.val = ltActive ∧
      (tx = false ∨ s.fld (aLP_PWR p.val) fLP_PWR_LD_IDLE ≠ 0 ∧ s.idleFor (Link.port p) (s.fld (aLP_PWR p.val) fLP_PWR_LD_IDLE * 192000) = true)) ∧
    (∃ (p : Port) (s : State),
      (s.fld (aLP_PWR p.val) fLP_PWR_LS_IDLE = 0 ∨ s.ltssm p.val ≠ ltActive)) ∧
    (∃ (p : Port) (s : State),
      (s.fld (aLP_PWR p.val) fLP_PWR_LD_IDLE = 0 ∨ s.ltssm p.val ≠ ltActive)) ∧
    (∃ (p : Port) (tx : Bool) (s : State),
      (s.link p.val).waiting = [] ∧
      ((s.link p.val).lctlOwed = none ∨ tx = false)) ∧
    (∃ (p : Port) (nak : Bool) (s : State),
      s.ltssm p.val = ltActive ∧
      (s.link p.val).waiting = [] ∧
      (s.link p.val).lctlOwed = some nak) ∧
    (∃ (p : Port) (f : Nat × Out) (s : State),
      s.ltssm p.val = ltActive ∧
      (s.link p.val).waiting = [f] ∧
      (s.link p.val).mayGo true f.1 = true ∧
      (s.link p.val).lctlOwed = none) ∧
    (∃ (s : State),
      s.ltssm 2 = ltActive ∧
      s.twin = twActive) ∧
    (∃ (s : State),
      s.ltssm 3 = ltActive ∧
      s.bit aLR_CFG fLR_CFG_LS_EN = true) ∧
    (∃ (s : State),
      s.bit aLR_CFG fLR_CFG_LS_EN = false) :=
  ⟨⟨(.port 0), (lk ltDetect [] { held := [h0] } 4608000000), by decide +kernel⟩,
   ⟨(.port 0), (lk ltPoll [F2 (aLP_CFG 0) fLP_CFG_MAXW 1 fLP_CFG_MAXRATE 1] { held := [h0] } 4608000000), by decide +kernel⟩,
   ⟨(.port 0), (lk ltPoll [F2 (aLP_CFG 0) fLP_CFG_MAXW 1 fLP_CFG_MAXRATE 1] { held := [h0] } 4608000000), by decide +kernel⟩,
   ⟨(.port 0), (lk ltDetect [] { held := [h0] } 4608000000), by decide +kernel⟩,
   ⟨(.port 0), (lk ltPoll [F2 (aLP_CFG 0) fLP_CFG_MAXW 1 fLP_CFG_MAXRATE 1] { held := [h0] } 4608000000), by decide +kernel⟩,
   ⟨(.port 0), (lk ltPoll [] { held := [h0] } 4607999872), by decide +kernel⟩,
   ⟨(.port 0), 0, (lk ltConfig [F2 (aLP_CFG 0) fLP_CFG_MAXW 1 fLP_CFG_MAXRATE 1, F (aLP_CFG 1) fLP_CFG_MAXW 2] { held := [h0], sent := [7,7,7,7] } 4608000000), by decide +kernel⟩,
   ⟨(.port 0), (lk ltDetect [] { held := [h0] } 4608000000), by decide +kernel⟩,
   ⟨(.port 0), (lk ltActive [(aLP_RETRAIN 1, 0xFFFFFFFF), F aTBS_SRC fTBS_SRC_SRC 1, F aTBS_STATE fTBS_STATE_REF_PRESENT 1, F2 (aLP_PWR 0) fLP_PWR_LS_IDLE 5 fLP_PWR_LD_IDLE 7, F2 (aLP_PWR 1) fLP_PWR_LS_IDLE 5 fLP_PWR_LD_IDLE 7, F (aLP_CTL 0) fLP_CTL_EN 1, F aLR_CFG fLR_CFG_LS_EN 1] { held := [h0], sent := [7,7,7,7], grants := [1,2,3,4] } 2000000), by decide +kernel⟩,
   ⟨(.port 0), (lk ltRecovery [F (aLP_CTL 1) fLP_CTL_EN 1, F2 (aLP_STAT 0) fLP_STAT_LTSSM ltRecovery fLP_STAT_SESSION 1] { held := [h0], sent := [7,7,7,7], grants := [1,2,3,4] } 384000000), by decide +kernel⟩,
   ⟨(.port 0), (lk ltRecovery [F (aLP_CTL 1) fLP_CTL_EN 1, F2 (aLP_STAT 0) fLP_STAT_LTSSM ltRecovery fLP_STAT_SESSION 1] { held := [h0], sent := [7,7,7,7], grants := [1,2,3,4] } 384000000), by decide +kernel⟩,
   ⟨(.port 0), (lk ltDetect [] { held := [h0] } 4608000000), by decide +kernel⟩,
   ⟨(.port 0), (lk ltDetect [] { held := [h0] } 4608000000), by decide +kernel⟩,
   ⟨1, (lk ltConfig [F2 (aLP_CFG 0) fLP_CFG_MAXW 1 fLP_CFG_MAXRATE 1, F (aLP_CFG 1) fLP_CFG_MAXW 2] { held := [h0], sent := [7,7,7,7] } 4608000000), by decide +kernel⟩,
   ⟨1, (lk ltDetect [] { held := [h0] } 4608000000), by decide +kernel⟩,
   ⟨1, (lk ltRecovery [F (aLP_CTL 1) fLP_CTL_EN 1, F2 (aLP_STAT 0) fLP_STAT_LTSSM ltRecovery fLP_STAT_SESSION 1] { held := [h0], sent := [7,7,7,7], grants := [1,2,3,4] } 384000000), by decide +kernel⟩,
   ⟨1, (lk ltRecovery [F (aLP_CTL 1) fLP_CTL_EN 1, F2 (aLP_STAT 0) fLP_STAT_LTSSM ltRecovery fLP_STAT_SESSION 1] { held := [h0], sent := [7,7,7,7], grants := [1,2,3,4] } 384000000), by decide +kernel⟩,
   ⟨3, by decide +kernel⟩,
   ⟨1, 0xFFFFFFFE, (lk ltDetect [] { held := [h0] } 4608000000), by decide +kernel⟩,
   ⟨1, 0xFFFFFFFE, (lk ltDisabled [(0xD00004, 1), F (aLP_CTL 0) fLP_CTL_EN 0, F (aLP_CTL 1) fLP_CTL_EN 0] { held := [h0] } 128), by decide +kernel⟩,
   ⟨2, (lk ltConfig [F2 (aLP_CFG 0) fLP_CFG_MAXW 1 fLP_CFG_MAXRATE 1, F (aLP_CFG 1) fLP_CFG_MAXW 2] { held := [h0], sent := [7,7,7,7] } 4608000000), by decide +kernel⟩,
   ⟨(lk ltDetect [] { held := [h0] } 4608000000), by decide +kernel⟩,
   ⟨1, true, (lk ltActive [(aLP_RETRAIN 1, 0xFFFFFFFF), F aTBS_SRC fTBS_SRC_SRC 1, F aTBS_STATE fTBS_STATE_REF_PRESENT 1, F2 (aLP_PWR 0) fLP_PWR_LS_IDLE 5 fLP_PWR_LD_IDLE 7, F2 (aLP_PWR 1) fLP_PWR_LS_IDLE 5 fLP_PWR_LD_IDLE 7, F (aLP_CTL 0) fLP_CTL_EN 1, F aLR_CFG fLR_CFG_LS_EN 1] { held := [h0], sent := [7,7,7,7], grants := [1,2,3,4] } 2000000), by decide +kernel⟩,
   ⟨1, true, (lk ltActive [(aLP_RETRAIN 1, 0xFFFFFFFF), F aTBS_SRC fTBS_SRC_SRC 1, F aTBS_STATE fTBS_STATE_REF_PRESENT 1, F2 (aLP_PWR 0) fLP_PWR_LS_IDLE 5 fLP_PWR_LD_IDLE 7, F2 (aLP_PWR 1) fLP_PWR_LS_IDLE 5 fLP_PWR_LD_IDLE 7, F (aLP_CTL 0) fLP_CTL_EN 1, F aLR_CFG fLR_CFG_LS_EN 1] { held := [h0], sent := [7,7,7,7], grants := [1,2,3,4] } 2000000), by decide +kernel⟩,
   ⟨1, (lk ltDetect [] { held := [h0] } 4608000000), by decide +kernel⟩,
   ⟨1, (lk ltDetect [] { held := [h0] } 4608000000), by decide +kernel⟩,
   ⟨1, true, (lk ltDetect [] { held := [h0] } 4608000000), by decide +kernel⟩,
   ⟨1, true, (lk ltActive [] { rxNext := 5, waiting := [], lctlOwed := some true, grants := [1,2,3,4] } 960), by decide +kernel⟩,
   ⟨1, ((2, .keep)), (lk ltActive [F2 (aLP_PWR 0) fLP_PWR_LS_IDLE 0 fLP_PWR_LD_IDLE 7, F aTWN_STAT fTWN_STAT_STATE twActive, F2 (aLP_PWR 1) fLP_PWR_LS_IDLE 5 fLP_PWR_LD_IDLE 0, F (aLP_CTL 1) fLP_CTL_EN 1] { rxNext := 5, limits := [4,4,4,4], waiting := [(2, .keep)], grants := [1,2,3,4] } 960), by decide +kernel⟩,
   ⟨(lk ltActive [F2 (aLP_PWR 0) fLP_PWR_LS_IDLE 0 fLP_PWR_LD_IDLE 7, F aTWN_STAT fTWN_STAT_STATE twActive, F2 (aLP_PWR 1) fLP_PWR_LS_IDLE 5 fLP_PWR_LD_IDLE 0, F (aLP_CTL 1) fLP_CTL_EN 1] { rxNext := 5, limits := [4,4,4,4], waiting := [(2, .keep)], grants := [1,2,3,4] } 960), by decide +kernel⟩,
   ⟨(lk ltActive [(aLP_RETRAIN 1, 0xFFFFFFFF), F aTBS_SRC fTBS_SRC_SRC 1, F aTBS_STATE fTBS_STATE_REF_PRESENT 1, F2 (aLP_PWR 0) fLP_PWR_LS_IDLE 5 fLP_PWR_LD_IDLE 7, F2 (aLP_PWR 1) fLP_PWR_LS_IDLE 5 fLP_PWR_LD_IDLE 7, F (aLP_CTL 0) fLP_CTL_EN 1, F aLR_CFG fLR_CFG_LS_EN 1] { held := [h0], sent := [7,7,7,7], grants := [1,2,3,4] } 2000000), by decide +kernel⟩,
   ⟨(lk ltDetect [] { held := [h0] } 4608000000), by decide +kernel⟩⟩

end OfLinkTraining

namespace OfReplay
def lk (st : Nat) (rs : List (Nat × Word)) (x : LinkState) (c : Count) : State := { S ([F2 (aLP_STAT 0) fLP_STAT_LTSSM st fLP_STAT_TXPWR 1, F2 (aLP_STAT 1) fLP_STAT_LTSSM st fLP_STAT_RXPWR 2, F aLC_STAT fLC_STAT_LTSSM st, F aLR_STAT fLR_STAT_LTSSM st] ++ rs) with links := [(0, x), (1, x), (2, x)], count := c, out := [.keep] }
def h0 : Held := ⟨3, 1, .keep, none, false⟩
def h1 : Held := ⟨4, 1, .rdr 0 1 3 2 [], none, false⟩
def h2 : Held := ⟨3, 3, .keep, none, false⟩

/-- States and operands that meet the hypotheses of each clause of `Obligations.Replay`. -/
theorem witness_Replay :
    (∃ (p : Port) (ack : BitVec 12) (h : Held) (hs : List Held) (s : State),
      s.ltssm p.val = ltActive ∧
      (s.link p.val).waiting = [] ∧
      ((s.link p.val).ack ack).held = h :: hs ∧
      h.resends + 1 < 4) ∧
    (∃ (p : Port) (s : State),
      s.sends p.val = true) ∧
    (∃ (p : Port) (s : State),
      s.ltssm p.val = ltActive ∧
      s.txPower p.val ≠ 0) ∧
    (∃ (p : Port) (h : Held) (hs : List Held) (s : State),
      s.ltssm p.val = ltActive ∧
      s.replayDue (Link.port p) = true ∧
      (s.link p.val).held = h :: hs ∧
      h.resends + 1 < 4) ∧
    (∃ (p : Port) (h : Held) (hs : List Held) (s : State),
      s.ltssm p.val = ltActive ∧
      s.replayDue (Link.port p) = true ∧
      (s.link p.val).held = h :: hs ∧
      4 ≤ h.resends + 1) ∧
    (∃ (p : Port) (s : State),
      (s.ltssm p.val ≠ ltActive ∨ s.replayDue (Link.port p) = false ∨ (s.link p.val).held = [])) ∧
    (∃ (p : Port) (s : State),
      s.ltssm p.val ≠ ltActive) ∧
    (∃ (h : Held) (hs : List Held) (s : State),
      s.ltssm 2 = ltActive ∧
      (s.link 2).held = h :: hs ∧
      h.resends + 1 < 4) ∧
    (∃ (time : Bool) (w : Nat) (bs : List Byte) (c : Column),
      1 ≤ w ∧
      c ∈ frameColumns w time bs) :=
  ⟨⟨1, 2, h0, [h1], (lk ltActive [(aLP_REPLAY 1, 0xFFFFFFFF)] { held := [h0, h1], rxNext := 9, owed := [1,2,3,4] } 19200000), by decide +kernel⟩,
   ⟨1, (lk ltActive [(aLP_REPLAY 1, 0xFFFFFFFF)] { held := [h0, h1], rxNext := 9, owed := [1,2,3,4] } 19200000), by decide +kernel⟩,
   ⟨0, (lk ltActive [(aLP_REPLAY 1, 0xFFFFFFFF)] { held := [h0, h1], rxNext := 9, owed := [1,2,3,4] } 19200000), by decide +kernel⟩,
   ⟨1, h0, [h1], (lk ltActive [(aLP_REPLAY 1, 0xFFFFFFFF)] { held := [h0, h1], rxNext := 9, owed := [1,2,3,4] } 19200000), by decide +kernel⟩,
   ⟨1, h2, [h1], (lk ltActive [(aLP_REPLAY 1, 0xFFFFFFF)] { held := [h2, h1], rxNext := 0, lctlOwed := some true, waiting := [(1, .keep)] } (2^60)), by decide +kernel⟩,
   ⟨1, (lk ltActive [F (aLP_CFG 0) fLP_CFG_REPLAY_TO 255, F (aLP_CFG 1) fLP_CFG_REPLAY_TO 255] { held := [h2], rxNext := 0 } 128), by decide +kernel⟩,
   ⟨1, (lk ltRecovery [(aLP_REPLAY 1, 0xFFFFFFFF)] { held := [h0], rxNext := 9 } (2^60)), by decide +kernel⟩,
   ⟨h0, [h1], (lk ltActive [(aLP_REPLAY 1, 0xFFFFFFFF)] { held := [h0, h1], rxNext := 9, owed := [1,2,3,4] } 19200000), by decide +kernel⟩,
   ⟨true, 1, [], (List.replicate 1 chEof), by decide +kernel⟩⟩

end OfReplay

namespace OfHostRequests
def hd (vc : BitVec 2) (timed res : Bool) (seq : BitVec 12) (crc tag prot : Bool) : HostHdr := ⟨vc, timed, prot, res, seq, 77, crc, tag⟩
def hs0 (sess role lt : Nat) (rs : List (Nat × Word)) (x : LinkState) : State := { S ([F3 (aLP_STAT 1) fLP_STAT_SESSION sess fLP_STAT_LTSSM lt fLP_STAT_ROLE role, (aGLB_SCRATCH, 0x12345678), (aLP_CRCERR 1, 0xFFFFFFFF), (aLP_PROTO 1, 5)] ++ rs) with links := one 1 { x with limits := [9,9,9,9], rxNext := 5 }, count := 128000, out := [.keep], str := plain7, acq := { streams := one 3 { sent := 7, taken := 3 } } }

/-- States and operands that meet the hypotheses of each clause of `Obligations.HostRequests`. -/
theorem witness_HostRequests :
    (∃ (p : Port) (h : HostHdr) (s : State),
      (((s.ltssm p.val = ltActive ∧ judgeSeq (s.link p.val) h = Taken.take) ∧ s.session p.val = true ∧ h.prot = true ∧ h.tagGood = true ∧ h.vc = 0) ∧ h.reserved = false ∧ h.timed = false) ∧
      Sends p 0 s ∧
      s.stalls p h = false ∧
      (s.link p.val).untimed = none ∧
      s.mayReg (s.sessRole p.val) 48 false = true) ∧
    (∃ (p : Port) (h : HostHdr) (s : State),
      (((s.ltssm p.val = ltActive ∧ judgeSeq (s.link p.val) h = Taken.take) ∧ s.session p.val = true ∧ h.prot = true ∧ h.tagGood = true ∧ h.vc = 0) ∧ h.reserved = false ∧ h.timed = false) ∧
      Sends p 0 s ∧
      s.stalls p h = false ∧
      s.mayReg (s.sessRole p.val) 48 true = true) ∧
    (∃ (p : Port) (h : HostHdr) (d : Count) (s : State),
      ((s.ltssm p.val = ltActive ∧ judgeSeq (s.link p.val) h = Taken.take) ∧ s.session p.val = true ∧ h.prot = true ∧ h.tagGood = true ∧ h.vc = 0) ∧
      h.reserved = false ∧
      h.timed = true ∧
      Sends p 0 s ∧
      s.stalls p h = false ∧
      s.mayReg (s.sessRole p.val) 48 true = true ∧
      s.tooSoon (some d) = false) ∧
    (∃ (p : Port) (h : HostHdr) (d : Count) (s : State),
      ((s.ltssm p.val = ltActive ∧ judgeSeq (s.link p.val) h = Taken.take) ∧ s.session p.val = true ∧ h.prot = true ∧ h.tagGood = true ∧ h.vc = 0) ∧
      h.reserved = false ∧
      h.timed = true ∧
      Sends p 0 s ∧
      s.stalls p h = false ∧
      s.mayReg (s.sessRole p.val) 48 true = true ∧
      s.tooSoon (some d) = true) ∧
    (∃ (p : Port) (h : HostHdr) (s : State),
      (((s.ltssm p.val = ltActive ∧ judgeSeq (s.link p.val) h = Taken.take) ∧ s.session p.val = true ∧ h.prot = true ∧ h.tagGood = true ∧ h.vc = 0) ∧ h.reserved = false ∧ h.timed = false) ∧
      Sends p 0 s ∧
      s.stalls p h = false ∧
      s.mayReg (s.sessRole p.val) 48 true = false) ∧
    (∃ (p : Port) (h : HostHdr) (off : Nat) (data : List Byte) (s : State),
      (((s.ltssm p.val = ltActive ∧ judgeSeq (s.link p.val) h = Taken.take) ∧ s.session p.val = true ∧ h.prot = true ∧ h.tagGood = true ∧ h.vc = 1) ∧ h.reserved = false ∧ h.timed = false) ∧
      Sends p 1 s ∧
      off < 100663296 ∧
      data ≠ [] ∧
      data.length ≤ 256 ∧
      s.memStatus 1 off data.length true = stOk ∧
      s.mayMem (s.sessRole p.val) 1 true = true ∧
      s.isStandby = false ∧
      s.forwards = false) ∧
    (∃ (p : Port) (h : HostHdr) (s : State),
      (((s.ltssm p.val = ltActive ∧ judgeSeq (s.link p.val) h = Taken.take) ∧ s.session p.val = true ∧ h.prot = true ∧ h.tagGood = true ∧ h.vc = 0) ∧ h.reserved = false ∧ h.timed = false) ∧
      s.stalls p h = true) ∧
    (∃ (p : Port) (h : HostHdr) (s : State),
      (s.ltssm p.val = ltActive ∧ judgeSeq (s.link p.val) h = Taken.take) ∧
      Sends p h.vc.toNat s ∧
      s.session p.val = false ∧
      h.reserved = false ∧
      h.timed = false ∧
      h.vc = 0) ∧
    (∃ (p : Port) (h : HostHdr) (s : State),
      ((s.ltssm p.val = ltActive ∧ judgeSeq (s.link p.val) h = Taken.take) ∧ s.session p.val = true ∧ h.prot = true ∧ h.tagGood = true ∧ h.vc = 0) ∧
      Sends p 0 s ∧
      h.reserved = true) ∧
    (∃ (p : Port) (h : HostHdr) (s : State),
      (s.ltssm p.val = ltActive ∧ judgeSeq (s.link p.val) h = Taken.take) ∧
      s.session p.val = true ∧
      (h.prot = false ∨ h.tagGood = false)) ∧
    (∃ (p : Port) (h : HostHdr) (s : State),
      s.sends p.val = true ∧
      h.crcGood = false) ∧
    (∃ (p : Port) (h : HostHdr) (s : State),
      s.sends p.val = true ∧
      judgeSeq (s.link p.val) h = Taken.again) ∧
    (∃ (p : Port) (h : HostHdr) (cls : Fin 4) (taken : BitVec 64) (s : State),
      (((s.ltssm p.val = ltActive ∧ judgeSeq (s.link p.val) h = Taken.take) ∧ s.session p.val = true ∧ h.prot = true ∧ h.tagGood = true ∧ h.vc = 2) ∧ h.reserved = false ∧ h.timed = false) ∧
      taken.toNat ≤ (s.stream cls.val).sent ∧
      (s.stream cls.val).taken < taken.toNat ∧
      (s.rights (s.sessRole p.val)).mem.getLsbD 5 = true) ∧
    (∃ (p : Port) (h : HostHdr) (cls : Fin 4) (taken : BitVec 64) (s : State),
      (((s.ltssm p.val = ltActive ∧ judgeSeq (s.link p.val) h = Taken.take) ∧ s.session p.val = true ∧ h.prot = true ∧ h.tagGood = true ∧ h.vc = 2) ∧ h.reserved = false ∧ h.timed = false) ∧
      (taken.toNat ≤ (s.stream cls.val).taken ∨ (s.rights (s.sessRole p.val)).mem.getLsbD 5 = false) ∧
      taken.toNat ≤ (s.stream cls.val).sent) ∧
    (∃ (p : Port) (s : State),
      s.ltssm p.val ≠ ltActive) :=
  ⟨⟨1, (hd 0 false false 5 true true true), (hs0 1 3 4 [] {}), by unfold Sends; decide +kernel⟩,
   ⟨1, (hd 0 false false 5 true true true), (hs0 1 3 4 [] {}), by unfold Sends; decide +kernel⟩,
   ⟨1, (hd 0 true false 5 true true true), 9728000, (hs0 1 3 4 [] {}), by unfold Sends; decide +kernel⟩,
   ⟨1, (hd 0 true false 5 true true true), 9727999, (hs0 1 3 4 [] {}), by unfold Sends; decide +kernel⟩,
   ⟨1, (hd 0 false false 5 true true true), (hs0 1 0 4 [] {}), by unfold Sends; decide +kernel⟩,
   ⟨1, (hd 1 false false 5 true true true), (92 * 1048576 - 3), [1,2,3], (hs0 1 3 4 [] {}), by unfold Sends; decide +kernel⟩,
   ⟨1, (hd 0 false false 5 true true true), ({ hs0 1 3 4 [(aHBM_STAT, 0)] { owed := [1,2,3,4] } with sched := { held := [(1, [(3, 5)])] } }), by decide +kernel⟩,
   ⟨1, (hd 0 false false 5 true true true), (hs0 0 3 4 [] {}), by unfold Sends; decide +kernel⟩,
   ⟨1, (hd 0 false true 5 true true true), (hs0 1 3 4 [] {}), by unfold Sends; decide +kernel⟩,
   ⟨1, (hd 1 false false 5 true false true), (hs0 1 3 4 [] {}), by decide +kernel⟩,
   ⟨1, (hd 0 false false 5 false true true), (hs0 1 3 4 [] {}), by decide +kernel⟩,
   ⟨1, (hd 0 false false 4 true true true), (hs0 1 3 4 [] {}), by decide +kernel⟩,
   ⟨1, (hd 2 false false 5 true true true), 3, 5, (hs0 1 3 4 [] {}), by decide +kernel⟩,
   ⟨1, (hd 2 false false 5 true true true), 3, 2, (hs0 1 3 4 [] {}), by decide +kernel⟩,
   ⟨0, (hs0 1 3 4 [] {}), by decide +kernel⟩⟩

end OfHostRequests

namespace OfStructures
def st3 (a b c : Nat) : Nat × Word := F3 aSTR_STAT fSTR_STAT_STATE a fSTR_STAT_BUSY b fSTR_STAT_CHECKED c
def S2 (rs : List (Nat × Word)) (x : Str) : State := { S rs with str := x, count := 1280 }

/-- States and operands that meet the hypotheses of each clause of `Obligations.Structures`. -/
theorem witness_Structures :
    (∃ (q : BitVec 4) (s : State),
      (s.bit aSTR_STAT fSTR_STAT_BUSY = true ∨ q = 0 ∧ s.strInForce = true ∨ q ≠ 0 ∧ s.strInForce = false)) ∧
    (∃ (q : BitVec 4) (s : State),
      s.bit aSTR_STAT fSTR_STAT_BUSY = false ∧
      (q = 0 ↔ s.strInForce = false) ∧
      s.str.startSlot ≠ []) ∧
    (∃ (q : BitVec 4) (s : State),
      s.bit aSTR_STAT fSTR_STAT_BUSY = false ∧
      (q = 0 ↔ s.strInForce = false) ∧
      s.str.startSlot = []) ∧
    (∃ (src : BitVec 2) (q : BitVec 4) (s : State),
      s.bit aSTR_STAT fSTR_STAT_BUSY = false ∧
      (q = 0 ↔ s.strInForce = false) ∧
      src.toNat < 2 ∧
      s.sourceOk (src.toNat + 1) (s.wide aSTR_ADDR 2) 8 = false) ∧
    (∃ (src : BitVec 2) (q : BitVec 4) (len : Nat) (s : State),
      s.bit aSTR_STAT fSTR_STAT_BUSY = false ∧
      (q = 0 ↔ s.strInForce = false) ∧
      src.toNat < 2 ∧
      len ≤ 2097153 ∧
      s.sourceOk (src.toNat + 1) (s.wide aSTR_ADDR 2) 8 = true ∧
      max 8 (wbits ((nats (s.spaceWords (src.toNat + 1) (s.wide aSTR_ADDR 2) 2)).getD 1 0) 31 0) = len ∧
      s.sourceOk (src.toNat + 1) (s.wide aSTR_ADDR 2) len = true) ∧
    (∃ (good : Bool) (r : Nat × Nat × Nat) (s : State),
      s.bit aSTR_STAT fSTR_STAT_BUSY = true ∧
      s.checkStream good = some r ∧
      s.str.boot = true ∧
      s.str.src = 2) ∧
    (∃ (good : Bool) (r : Nat × Nat × Nat) (s : State),
      s.bit aSTR_STAT fSTR_STAT_BUSY = true ∧
      s.checkStream good = some r ∧
      s.str.boot = false) ∧
    (∃ (good : Bool) (s : State),
      s.bit aSTR_STAT fSTR_STAT_BUSY = true ∧
      s.checkStream good = none ∧
      s.str.qmask ≠ 0) ∧
    (∃ (good : Bool) (s : State),
      s.bit aSTR_STAT fSTR_STAT_BUSY = true ∧
      s.checkStream good = none ∧
      s.str.qmask = 0) ∧
    (∃ (s : State),
      s.bit aSTR_STAT fSTR_STAT_CHECKED = true ∧
      s.bit aSTR_STAT fSTR_STAT_BUSY = false ∧
      s.applyAllowed = true ∧
      s.abortDue = false) ∧
    (∃ (s : State),
      (s.bit aSTR_STAT fSTR_STAT_CHECKED = false ∨ s.bit aSTR_STAT fSTR_STAT_BUSY = true ∨ s.applyAllowed = false ∨ s.abortDue = true)) ∧
    (∃ (s : State),
      s.bit aSTR_STAT fSTR_STAT_BUSY = false ∧
      s.strInForce = true) ∧
    (∃ (s : State),
      (s.strInForce = false ∨ s.bit aSTR_STAT fSTR_STAT_BUSY = true)) ∧
    (∃ (s : State),
      s.bit aSTR_STAT fSTR_STAT_BUSY = false ∧
      s.unloadAllowed = true) ∧
    (∃ (s : State),
      (s.bit aSTR_STAT fSTR_STAT_BUSY = true ∨ s.unloadAllowed = false)) :=
  ⟨⟨0, (S [st3 1 1 0]), by decide +kernel⟩,
   ⟨9, (S2 [st3 1 0 0] { startSlot := [1,2], words := [9] }), by decide +kernel⟩,
   ⟨0, (S2 [st3 0 0 0] { startSlot := [] }), by decide +kernel⟩,
   ⟨0, 9, (S2 [st3 1 0 0] { startSlot := [1,2], words := [9] }), by decide +kernel⟩,
   ⟨0, 0, 10, ((S2 [st3 0 0 0, (aSTR_ADDR, 0x40)] {}).withBytes [(0x48, [10])]), by decide +kernel⟩,
   ⟨true, ((1, 0, 0)), (S2 [st3 1 1 0] { src := 2, checking := [1,2], words := [3], boot := true }), by decide +kernel⟩,
   ⟨true, ((1, 0, 0)), (S [st3 1 1 0]), by decide +kernel⟩,
   ⟨true, ({ S2 [st3 1 1 0] { src := 3, checking := [1,2], words := [3], qmask := 9 } with tasks := [(7, {state := .dormant})] }), by decide +kernel⟩,
   ⟨true, (S2 [st3 1 1 0] { src := 3, checking := [1,2], words := [3] }), by decide +kernel⟩,
   ⟨(S2 [st3 1 0 1] { checking := [1,2], words := [3], qmask := 9 }), by decide +kernel⟩,
   ⟨(S [st3 1 1 0]), by decide +kernel⟩,
   ⟨(S2 [st3 1 0 0] { startSlot := [1,2], words := [9] }), by decide +kernel⟩,
   ⟨(S [st3 1 1 0]), by decide +kernel⟩,
   ⟨(S2 [st3 1 0 0] { startSlot := [1,2], words := [9] }), by decide +kernel⟩,
   ⟨(S [st3 1 1 0]), by decide +kernel⟩⟩

end OfStructures

namespace OfFaults
def RE (l : List (Nat × Nat)) (rs : List (Nat × Word)) : State := { (l.foldl (fun (s : State) p => s.setFld (aFLT_REACT (p.1 / 8)) ⟨4 * (p.1 % 8) + 3, 4 * (p.1 % 8)⟩ p.2) (S rs)) with sram := [(1,1#8)], hbmMem := [(1,1#8)], count := 1280, agenda := [⟨1280,.port 1,.cmd .force⟩], str := plain7 }

/-- States and operands that meet the hypotheses of each clause of `Obligations.Faults`. -/
theorem witness_Faults :
    (∃ (fs : Fin 128) (s : State),
      reservedSource fs.val = false ∧
      (s.reaction fs.val < 1 ∨ 4 < s.reaction fs.val)) ∧
    (∃ (fs : Fin 128) (s : State),
      reservedSource fs.val = false ∧
      s.pendingRank < 2 ∧
      s.reaction fs.val = 2) ∧
    (∃ (fs : Fin 128) (s : State),
      reservedSource fs.val = false ∧
      s.pendingRank < 3 ∧
      s.reaction fs.val = 3) ∧
    (∃ (fs : Fin 128) (s : State),
      reservedSource fs.val = false ∧
      s.reaction fs.val = 4) ∧
    (∃ (fs : Fin 128) (s : State),
      reservedSource fs.val = false ∧
      1 ≤ s.reaction fs.val ∧
      s.reaction fs.val ≤ s.pendingRank) ∧
    (∃ (fs : Fin 128),
      reservedSource fs.val = true) ∧
    (∃ (fs : Fin 128) (s : State) (other : Fin 128),
      reservedSource fs.val = false ∧
      reservedSource other.val = false ∧
      s.pendingRank = 0 ∧
      s.reaction fs.val = 1 ∧
      (s.reaction other.val = 0 ∨ s.reaction other.val = 1 ∧ fs.val < other.val)) ∧
    (∃ (fs : Fin 128) (s : State),
      s.causeStands fs.val = false ∧
      reservedSource fs.val = false ∧
      ((s.raised.any fun r => r.1.val == fs.val) = false)) ∧
    (∃ (fs : Fin 128) (s : State),
      s.causeStands fs.val = true) ∧
    (∃ (fs : Fin 128) (s : State),
      s.causeStands fs.val = false ∧
      reservedSource fs.val = false ∧
      ((s.raised.any fun r => r.1.val == fs.val) = true) ∧
      s.merged.contains fs.val = false) ∧
    (∃ (fs : Fin 128) (s : State),
      s.causeStands fs.val = false ∧
      ((s.raised.any fun r => r.1.val == fs.val) = true) ∧
      s.merged.contains fs.val = true ∧
      s.reaction fs.val = 1 ∧
      reservedSource fs.val = false) ∧
    (∃ (s : State),
      s.raised = []) :=
  ⟨⟨1, (RE [(1,0),(64,0)] [(aFLT_MERGED, 0xFFFFFFFF)]), by decide +kernel⟩,
   ⟨1, (RE [(1,2),(64,2)] [(aFLT_MERGED, 7)]), by decide +kernel⟩,
   ⟨1, (RE [(1,3),(64,3)] [(aFLT_MERGED, 7), F2 aFLT_PEND fFLT_PEND_IVALID 1 fFLT_PEND_ISRC 9]), by decide +kernel⟩,
   ⟨1, (RE [(1,4),(64,9)] [(aFLT_MERGED, 7), F2 aFLT_PEND fFLT_PEND_BVALID 1 fFLT_PEND_BSRC 9, F (aCH_CTL 63 3) fCH_CTL_DRV_EN 1]), by decide +kernel⟩,
   ⟨64, (RE [(1,4),(64,9)] [(aFLT_MERGED, 7), F2 aFLT_PEND fFLT_PEND_BVALID 1 fFLT_PEND_BSRC 9, F (aCH_CTL 63 3) fCH_CTL_DRV_EN 1]), by decide +kernel⟩,
   ⟨127, by decide +kernel⟩,
   ⟨1, (RE [(1,1),(64,1)] [(aFLT_MERGED, 0xFFFFFFFF)]), 64, by decide +kernel⟩,
   ⟨1, (RE [(1,0),(64,0)] [(aFLT_MERGED, 0xFFFFFFFF)]), by decide +kernel⟩,
   ⟨1, ({ RE [] [(aFLT_STICKY 2, 0xFF), F3 aFLT_PEND fFLT_PEND_IVALID 1 fFLT_PEND_ISRC 64 fFLT_PEND_BVALID 1, (0x300004,1), (aBUS_LATMAX 79, 5)] with causes := [(1,0)] }), by decide +kernel⟩,
   ⟨64, ({ RE [(64,1)] [(aFLT_STICKY 2, 0xFF), F2 aFLT_PEND fFLT_PEND_IVALID 1 fFLT_PEND_ISRC 64, (aFLT_MERGED, 5)] with causes := [(65,3)], raised := [(64,3)] }), by decide +kernel⟩,
   ⟨64, ({ RE [(64,1)] [(aFLT_STICKY 2, 0xFF), F3 aFLT_PEND fFLT_PEND_IVALID 1 fFLT_PEND_ISRC 1 fFLT_PEND_BVALID 1, (aFLT_MERGED, 5)] with causes := [(65,3)], raised := [(64,3)], merged := [64] }), by decide +kernel⟩,
   ⟨(RE [(1,0),(64,0)] [(aFLT_MERGED, 0xFFFFFFFF)]), by decide +kernel⟩⟩

end OfFaults

namespace OfResets
def bigS (rs : List (Nat × Word)) (p : Power) (m : Mgt) : State := { S ([(0x600004,1),(0x400004,1),(0x500004,1),(aCH_CTL 63 3,1),(aMU_CTL 63 8,1),(0x7F00004,1),(0x300004,1),(aGLB_SCRATCH,7),(aHBM_RGN_KIND 3,2), F2 (aLP_STAT 1) fLP_STAT_SESSION 1 fLP_STAT_ROLE 2, (aSPL_USED, 7), (aMGT_SENS 3, 9)] ++ rs) with tasks := [(7,{state := .running})], players := one 3 {k := 1}, agenda := [⟨128,.port 1,.cmd .force⟩], sram := [(1,1#8)], hbmMem := [(1,1#8)], power := p, mgt := m, str := plain7, count := 1280 }

/-- States and operands that meet the hypotheses of each clause of `Obligations.Resets`. -/
theorem witness_Resets :
    (∃ (code : BitVec 8) (b : Nat),
      b ∈ [0, 2, 16, 18] ∧
      code.toNat = BitVec.toNat (blkId b) / 65536) ∧
    (∃ (rstNHigh : Bool) (s : State),
      s.power.holding ≠ [] ∧
      (List.filter (fun c => c == rcPower || c == rcActivate || c == rcThermal || c == rcPin && !rstNHigh) s.power.holding = []) ∧
      s.bit aGLB_RSTCAUSE fGLB_RSTCAUSE_LIMITED = false) ∧
    (∃ (rstNHigh : Bool) (s : State),
      s.power.holding ≠ [] ∧
      (List.filter (fun c => c == rcPower || c == rcActivate || c == rcThermal || c == rcPin && !rstNHigh) s.power.holding = []) ∧
      s.bit aGLB_RSTCAUSE fGLB_RSTCAUSE_LIMITED = true) ∧
    (∃ (rstNHigh : Bool) (s : State),
      (List.filter (fun c => c == rcPower || c == rcActivate || c == rcThermal || c == rcPin && !rstNHigh) s.power.holding ≠ [])) ∧
    (∃ (s : State),
      s.power.holding = []) ∧
    (∃ (s : State),
      s.power.holding = [rcThermal] ∧
      s.cooled = true ∧
      s.bit aGLB_RSTCAUSE fGLB_RSTCAUSE_LIMITED = false) ∧
    (∃ (s : State),
      s.power.holding = [rcThermal] ∧
      s.cooled = true ∧
      s.bit aGLB_RSTCAUSE fGLB_RSTCAUSE_LIMITED = true) ∧
    (∃ (s : State),
      rcThermal ∈ s.power.holding ∧
      s.cooled = true ∧
      (List.filter (fun x => x != rcThermal) s.power.holding ≠ [])) ∧
    (∃ (s : State),
      (rcThermal ∉ s.power.holding ∨ s.cooled = false)) :=
  ⟨⟨1, 0, by decide +kernel⟩,
   ⟨true, (bigS [] { holding := [3] } {}), by decide +kernel⟩,
   ⟨true, (bigS [F aGLB_RSTCAUSE fGLB_RSTCAUSE_LIMITED 1] { holding := [rcPin], oven := true } {}), by decide +kernel⟩,
   ⟨true, (bigS [] { holding := [rcThermal], oven := true } { coolFor := 10000 }), by decide +kernel⟩,
   ⟨(bigS [(aFLT_RSTSRC, 0xFFFFFFFF)] { holding := [], oven := true } {}), by decide +kernel⟩,
   ⟨(bigS [] { holding := [rcThermal], oven := true } { coolFor := 10000 }), by decide +kernel⟩,
   ⟨(bigS [F aGLB_RSTCAUSE fGLB_RSTCAUSE_LIMITED 1] { holding := [rcThermal], oven := true } { coolFor := 10000 }), by decide +kernel⟩,
   ⟨(bigS [] { holding := [rcThermal, rcPin], oven := true } { coolFor := 10000 }), by decide +kernel⟩,
   ⟨(bigS [] { holding := [3] } {}), by decide +kernel⟩⟩

end OfResets

namespace OfPowerAndInput
def bigS (rs : List (Nat × Word)) (p : Power) (m : Mgt) : State := { S ([(0x600004,1),(0x400004,1),(0x500004,1),(aCH_CTL 63 3,1),(aMU_CTL 63 8,1),(0x7F00004,1),(0x300004,1),(aGLB_SCRATCH,7),(aHBM_RGN_KIND 3,2), F2 (aLP_STAT 1) fLP_STAT_SESSION 1 fLP_STAT_ROLE 2, (aSPL_USED, 7), (aMGT_SENS 3, 9)] ++ rs) with tasks := [(7,{state := .running})], players := one 3 {k := 1}, agenda := [⟨128,.port 1,.cmd .force⟩], sram := [(1,1#8)], hbmMem := [(1,1#8)], spill := [(1,1#8)], power := p, mgt := m, str := plain7, count := 1280 }

/-- States and operands that meet the hypotheses of each clause of `Obligations.PowerAndInput`. -/
theorem witness_PowerAndInput :
    (∃ (s : State),
      (s.sec.zeroisedFuse = false ∧ s.bit aMGT_FW fMGT_FW_TRIAL = false ∧ s.fld aMGT_FW fMGT_FW_ACTIVE = 0) ∧
      (s.mgt.fwA.valid = true ∧ s.sec.floors.getD 0 0 ≤ BitVec.toNat s.mgt.fwA.version)) ∧
    (∃ (slotA : Bool) (s : State),
      (s.sec.zeroisedFuse = false ∧ s.bit aMGT_FW fMGT_FW_TRIAL = false ∧ s.fld aMGT_FW fMGT_FW_ACTIVE = 0) ∧
      (s.mgt.fwA.valid = false ∨ slotA = false) ∧
      (s.mgt.fwB.valid = true ∧ s.sec.floors.getD 0 0 ≤ BitVec.toNat s.mgt.fwB.version)) ∧
    (∃ (s : State),
      s.sec.zeroisedFuse = true) ∧
    (∃ (s : State),
      s.sec.zeroisedFuse = false) ∧
    (∃ (s : State),
      s.power.onHoldup = false) ∧
    (∃ (s : State),
      s.power.onHoldup = true ∧
      s.power.outSince + 30 ≤ s.mgt.uptime) ∧
    (∃ (s : State),
      (s.power.onHoldup = false ∨ s.mgt.uptime < s.power.outSince + 30)) :=
  ⟨⟨({ bigS [] { holding := [] } { fwA := { valid := true, version := 3 }, fwB := { valid := true, version := 9 } } with sec := { floors := [3, 0, 0, 0] } }), by decide +kernel⟩,
   ⟨false, ({ bigS [] { holding := [] } { fwA := { valid := true, version := 3 }, fwB := { valid := true, version := 9 } } with sec := { floors := [3, 0, 0, 0] } }), by decide +kernel⟩,
   ⟨({ bigS [] { holding := [], onHoldup := true, outSince := 1 } { uptime := 30 } with sec := { zeroisedFuse := true } }), by decide +kernel⟩,
   ⟨({ bigS [] { holding := [] } { fwA := { valid := true, version := 3 }, fwB := { valid := true, version := 9 } } with sec := { floors := [3, 0, 0, 0] } }), by decide +kernel⟩,
   ⟨({ bigS [] { holding := [] } { fwA := { valid := true, version := 3 }, fwB := { valid := true, version := 9 } } with sec := { floors := [3, 0, 0, 0] } }), by decide +kernel⟩,
   ⟨({ bigS [] { holding := [rcActivate], onHoldup := true } { uptime := 30 } with causes := [(124,0)] }), by decide +kernel⟩,
   ⟨({ bigS [] { holding := [] } { fwA := { valid := true, version := 3 }, fwB := { valid := true, version := 9 } } with sec := { floors := [3, 0, 0, 0] } }), by decide +kernel⟩⟩

end OfPowerAndInput

namespace OfMailbox
def ml (ses role ready : Nat) (rs : List (Nat × Word)) (x : LinkState) (m : Mgt) : State := { S ([F3 (aLP_STAT 1) fLP_STAT_LTSSM 4 fLP_STAT_SESSION ses fLP_STAT_ROLE role, F3 (aLP_STAT 0) fLP_STAT_LTSSM 4 fLP_STAT_SESSION ses fLP_STAT_ROLE role, F aMGT_STAT fMGT_STAT_READY ready, (aMGT_LOGNEXT, 5), (aMGT_LOGOLD, 2), (aMGT_SENS 33, 77), F (aLP_CTL 1) fLP_CTL_EVT 1] ++ rs) with links := [(0, x), (1, x)], mgt := m, count := 1280 }
def lg : List (List Byte) := [List.replicate 64 1, List.replicate 64 2, List.replicate 64 3]
def hist : List (BitVec 64 × List Word) := (List.range 30).map fun i => (BitVec.ofNat 64 i, [5, 6])

/-- States and operands that meet the hypotheses of each clause of `Obligations.Mailbox`. -/
theorem witness_Mailbox :
    (∃ (p : Port) (s : State),
      (s.bit aMGT_STAT fMGT_STAT_READY = false ∨ 16 ≤ (s.slots p.val).length)) ∧
    (∃ (p : Port) (s : State),
      (s.bit aMGT_STAT fMGT_STAT_READY = true ∧ (s.slots p.val).length < 16) ∧
      s.mayMail p.val false = false ∧
      Sends p 3 s) ∧
    (∃ (p : Port) (s : State),
      ((s.bit aMGT_STAT fMGT_STAT_READY = true ∧ (s.slots p.val).length < 16) ∧ s.mayMail p.val false = true) ∧
      SendsAll p 3 2 s) ∧
    (∃ (p : Port) (code : Byte) (index : BitVec 64) (s : State),
      ((s.bit aMGT_STAT fMGT_STAT_READY = true ∧ (s.slots p.val).length < 16) ∧ s.mayMail p.val false = true) ∧
      BitVec.toNat code < 34 ∧
      SendsAll p 3 (segments 252 (s.historyFrom (BitVec.toNat code) index)).length s) ∧
    (∃ (p : Port) (code : Byte) (s : State),
      ((s.bit aMGT_STAT fMGT_STAT_READY = true ∧ (s.slots p.val).length < 16) ∧ s.mayMail p.val false = true) ∧
      Sends p 3 s ∧
      34 ≤ BitVec.toNat code) ∧
    (∃ (p : Port) (index : BitVec 64) (n : BitVec 16) (s : State),
      ((s.bit aMGT_STAT fMGT_STAT_READY = true ∧ (s.slots p.val).length < 16) ∧ s.mayMail p.val false = true) ∧
      SendsAll p 3 (segments 192 (List.take (min n.toNat 384) (List.drop (index.toNat - s.wide aMGT_LOGOLD 2) s.mgt.log)).flatten).length s) ∧
    (∃ (p : Port) (code : Byte) (x : Slot) (r : Byte × List Byte) (s : State),
      ((s.bit aMGT_STAT fMGT_STAT_READY = true ∧ (s.slots p.val).length < 16) ∧ s.mayMail p.val false = true) ∧
      heldReply code (s.slots p.val) = some x ∧
      x.reply = some r ∧
      SendsAll p 3 (segments 252 r.2).length s) ∧
    (∃ (p : Port) (code : Byte) (s : State),
      ((s.bit aMGT_STAT fMGT_STAT_READY = true ∧ (s.slots p.val).length < 16) ∧ s.mayMail p.val false = true) ∧
      Sends p 3 s ∧
      heldReply code (s.slots p.val) = none) ∧
    (∃ (p : Port) (req : Byte) (s : State),
      (((s.slots p.val).any fun x => x.req == req && x.reply.isSome && !x.told) = true) ∧
      s.evtPort p.val = true ∧
      Sends p 3 s) ∧
    (∃ (p : Port) (req : Byte) (s : State),
      (((s.slots p.val).any fun x => x.req == req && x.reply.isSome && !x.told) = false)) ∧
    (∃ (p : Port) (req : Byte) (x : Slot) (s : State),
      heldReply req (s.slots p.val) = some x ∧
      x.readyAt + 60000 ≤ s.mgt.uptime) ∧
    (∃ (p : Port) (req : Byte) (x : Slot) (s : State),
      heldReply req (s.slots p.val) = some x ∧
      s.mgt.uptime < x.readyAt + 60000) ∧
    (∃ (p : Port) (req : Byte) (s : State),
      heldReply req (s.slots p.val) = none) :=
  ⟨⟨1, (ml 1 1 0 [] { limits := [9,9,9,9] } {}), by decide +kernel⟩,
   ⟨1, (ml 0 1 1 [] { limits := [9,9,9,9] } {}), by unfold Sends; decide +kernel⟩,
   ⟨1, (ml 1 1 1 [] { limits := [9,9,9,9] } { log := lg, slots1 := [⟨3,7,none,0,false⟩,⟨4,9,some (0,[1,2]),5,false⟩], extremes := [(64 + 33, some (1, 99)), (33, some (2, 98))], means := hist, uptime := 60005 }), by unfold SendsAll; decide +kernel⟩,
   ⟨1, 9, 0, (ml 1 1 1 [] { limits := [9,9,9,9] } { log := lg, slots1 := [⟨3,7,none,0,false⟩,⟨4,9,some (0,[1,2]),5,false⟩], extremes := [(64 + 33, some (1, 99)), (33, some (2, 98))], means := hist, uptime := 60005 }), by unfold SendsAll; decide +kernel⟩,
   ⟨1, 34, (ml 1 1 1 [] { limits := [9,9,9,9] } { log := lg, slots1 := [⟨3,7,none,0,false⟩,⟨4,9,some (0,[1,2]),5,false⟩], extremes := [(64 + 33, some (1, 99)), (33, some (2, 98))], means := hist, uptime := 60005 }), by unfold Sends; decide +kernel⟩,
   ⟨1, 0, 2, (ml 1 1 1 [] { limits := [9,9,9,9] } { log := lg, slots1 := [⟨3,7,none,0,false⟩,⟨4,9,some (0,[1,2]),5,false⟩], extremes := [(64 + 33, some (1, 99)), (33, some (2, 98))], means := hist, uptime := 60005 }), by unfold SendsAll; decide +kernel⟩,
   ⟨1, 9, ⟨4,9,some (0,[1,2]),5,false⟩, ((0, [1,2])), (ml 1 1 1 [] { limits := [9,9,9,9] } { log := lg, slots1 := [⟨3,7,none,0,false⟩,⟨4,9,some (0,[1,2]),5,false⟩], extremes := [(64 + 33, some (1, 99)), (33, some (2, 98))], means := hist, uptime := 60005 }), by unfold SendsAll; decide +kernel⟩,
   ⟨1, 33, (ml 1 1 1 [] { limits := [9,9,9,9] } { log := lg, slots1 := [⟨3,7,none,0,false⟩,⟨4,9,some (0,[1,2]),5,false⟩], extremes := [(64 + 33, some (1, 99)), (33, some (2, 98))], means := hist, uptime := 60005 }), by unfold Sends; decide +kernel⟩,
   ⟨1, 9, (ml 1 1 1 [] { limits := [9,9,9,9] } { log := lg, slots1 := [⟨3,7,none,0,false⟩,⟨4,9,some (0,[1,2]),5,false⟩], extremes := [(64 + 33, some (1, 99)), (33, some (2, 98))], means := hist, uptime := 60005 }), by unfold Sends; decide +kernel⟩,
   ⟨1, 9, (ml 0 1 1 [] { limits := [9,9,9,9] } {}), by decide +kernel⟩,
   ⟨1, 9, ⟨4,9,some (0,[1,2]),5,false⟩, (ml 1 1 1 [] { limits := [9,9,9,9] } { log := lg, slots1 := [⟨3,7,none,0,false⟩,⟨4,9,some (0,[1,2]),5,false⟩], extremes := [(64 + 33, some (1, 99)), (33, some (2, 98))], means := hist, uptime := 60005 }), by decide +kernel⟩,
   ⟨1, 9, ⟨4,9,some (0,List.replicate 300 7),6,true⟩, (ml 1 1 1 [] { limits := [9,9,9,1] } { log := lg, slots1 := [⟨3,7,none,0,false⟩,⟨4,9,some (0,List.replicate 300 7),6,true⟩], uptime := 60005 }), by decide +kernel⟩,
   ⟨1, 9, (ml 0 1 1 [] { limits := [9,9,9,9] } {}), by decide +kernel⟩⟩

end OfMailbox

namespace OfFirmware
def fw (ses role : Nat) (rs : List (Nat × Word)) (m : Mgt) : State := { S ([F3 (aLP_STAT 1) fLP_STAT_LTSSM 4 fLP_STAT_SESSION ses fLP_STAT_ROLE role, F aMGT_STAT fMGT_STAT_READY 1, (aMGT_LOGNEXT, 5), (aMGT_LOGOLD, 2), (aHBM_RGN_SIZE 3, 4), (aHBM_RGN_BASE 3, 1), F (aHBM_RGN_KIND 3) fHBM_RGN_KIND_KIND 7] ++ rs) with links := one 1 { limits := [9,9,9,9] }, mgt := m, count := 1280, hbmMem := Memory.writeBytes [] 1048576 (leBytes 4 0x4D4771A5 ++ leBytes 4 7), sram := [(1,1#8)] }

/-- States and operands that meet the hypotheses of each clause of `Obligations.Firmware`. -/
theorem witness_Firmware :
    (∃ (p : Port) (s : State),
      (s.bit aMGT_STAT fMGT_STAT_READY = true ∧ (s.slots p.val).length < 16 ∧ Sends p 3 s) ∧
      s.mayMail p.val true = false ∧
      s.mgt.running = none) ∧
    (∃ (p : Port) (s : State),
      ((s.bit aMGT_STAT fMGT_STAT_READY = true ∧ (s.slots p.val).length < 16 ∧ Sends p 3 s) ∧ s.mayMail p.val true = true) ∧
      s.mgt.running.isSome = true ∧
      s.mgt.running ≠ some 7) ∧
    (∃ (p : Port) (offset : BitVec 45) (len : Word) (s : State),
      ((s.bit aMGT_STAT fMGT_STAT_READY = true ∧ (s.slots p.val).length < 16 ∧ Sends p 3 s) ∧ s.mayMail p.val true = true) ∧
      s.fld aSEC_STAT fSEC_STAT_SLOT < 2 ∧
      s.mgt.running = none ∧
      (BitVec.toNat len ≤ 33554432 ∧ offset.toNat + BitVec.toNat len ≤ 25769803776)) ∧
    (∃ (p : Port) (offset : BitVec 45) (len : Word) (s : State),
      ((s.bit aMGT_STAT fMGT_STAT_READY = true ∧ (s.slots p.val).length < 16 ∧ Sends p 3 s) ∧ s.mayMail p.val true = true) ∧
      s.mgt.running = none ∧
      (¬(BitVec.toNat len ≤ 33554432 ∧ offset.toNat + BitVec.toNat len ≤ 25769803776))) ∧
    (∃ (p : Port) (due : Count) (s : State),
      ((s.bit aMGT_STAT fMGT_STAT_READY = true ∧ (s.slots p.val).length < 16 ∧ Sends p 3 s) ∧ s.mayMail p.val true = true) ∧
      s.mgt.running = none ∧
      s.mayActivate = true ∧
      Count.upto due s.count = false) ∧
    (∃ (p : Port) (s : State),
      ((s.bit aMGT_STAT fMGT_STAT_READY = true ∧ (s.slots p.val).length < 16 ∧ Sends p 3 s) ∧ s.mayMail p.val true = true) ∧
      s.mgt.running = none ∧
      s.mayActivate = false) ∧
    (∃ (p : Port) (s : State),
      ((s.bit aMGT_STAT fMGT_STAT_READY = true ∧ (s.slots p.val).length < 16 ∧ Sends p 3 s) ∧ s.mayMail p.val true = true) ∧
      s.fld aSEC_STAT fSEC_STAT_SLOT < 2 ∧
      s.mgt.running = none ∧
      (s.fwSlot (1 - s.fld aSEC_STAT fSEC_STAT_SLOT)).valid = true ∧
      BitVec.toNat (s.reg (aSEC_FLOOR 0)) ≤ BitVec.toNat (s.fwSlot (1 - s.fld aSEC_STAT fSEC_STAT_SLOT)).version) ∧
    (∃ (p : Port) (s : State),
      ((s.bit aMGT_STAT fMGT_STAT_READY = true ∧ (s.slots p.val).length < 16 ∧ Sends p 3 s) ∧ s.mayMail p.val true = true) ∧
      s.mgt.running = none ∧
      ((s.fwSlot (1 - s.fld aSEC_STAT fSEC_STAT_SLOT)).valid = false ∨ BitVec.toNat (s.fwSlot (1 - s.fld aSEC_STAT fSEC_STAT_SLOT)).version < BitVec.toNat (s.reg (aSEC_FLOOR 0)))) ∧
    (∃ (p : Port) (k : Byte) (offset : BitVec 45) (ws : List (BitVec 64)) (s : State),
      ((s.bit aMGT_STAT fMGT_STAT_READY = true ∧ (s.slots p.val).length < 16 ∧ Sends p 3 s) ∧ s.mayMail p.val true = true) ∧
      s.mgt.running = none ∧
      s.mgt.archive[BitVec.toNat k]? = some ws ∧
      s.inKind 7 offset.toNat (wordsBytes ws).length = true) ∧
    (∃ (p : Port) (k : Byte) (offset : BitVec 45) (ws : List (BitVec 64)) (s : State),
      ((s.bit aMGT_STAT fMGT_STAT_READY = true ∧ (s.slots p.val).length < 16 ∧ Sends p 3 s) ∧ s.mayMail p.val true = true) ∧
      s.mgt.running = none ∧
      s.mgt.archive[BitVec.toNat k]? = some ws ∧
      s.inKind 7 offset.toNat (wordsBytes ws).length = false) ∧
    (∃ (p : Port) (k : Byte) (s : State),
      ((s.bit aMGT_STAT fMGT_STAT_READY = true ∧ (s.slots p.val).length < 16 ∧ Sends p 3 s) ∧ s.mayMail p.val true = true) ∧
      s.mgt.running = none ∧
      s.mgt.archive[BitVec.toNat k]? = none) ∧
    (∃ (s : State),
      s.mgt.running = some 6 ∧
      s.fld aSEC_STAT fSEC_STAT_SLOT < 2 ∧
      s.mgt.checked = true) ∧
    (∃ (written verified : Bool) (s : State),
      s.mgt.running = some 6 ∧
      (s.mgt.checked = false ∨ (written && verified) = false)) ∧
    (∃ (s : State),
      s.mgt.running ≠ some 6) ∧
    (∃ (due : Count) (s : State),
      s.mgt.running = some 7 ∧
      s.fld aSEC_STAT fSEC_STAT_SLOT < 2 ∧
      Count.upto due s.count = true) ∧
    (∃ (s : State),
      s.trialOver = true ∧
      s.mgt.previous < 2) ∧
    (∃ (s : State),
      s.trialOver = false) :=
  ⟨⟨1, (fw 1 0 [] {}), by unfold Sends; decide +kernel⟩,
   ⟨1, (fw 1 3 [] { running := some 6, checked := true, image := leBytes 4 0x4D4771A5 ++ leBytes 4 7, slots1 := [{ cmd := 6, req := 3 }] }), by unfold Sends; decide +kernel⟩,
   ⟨1, 1048576, 8, (fw 1 1 [(aSEC_FWVER, 9)] { archive := [[1,2,3]], fwB := { valid := true, version := 5 } }), by unfold Sends; decide +kernel⟩,
   ⟨1, 0x5FFFFFFF8, 9, (fw 1 1 [(aSEC_FWVER, 9)] { archive := [[1,2,3]], fwB := { valid := true, version := 5 } }), by unfold Sends; decide +kernel⟩,
   ⟨1, 1281, (fw 1 1 [(aSEC_FWVER, 9)] { archive := [[1,2,3]], fwB := { valid := true, version := 5 } }), by unfold Sends; decide +kernel⟩,
   ⟨1, (fw 1 3 [F aTWN_STAT fTWN_STAT_STATE twActive] { fwB := { valid := false } }), by unfold Sends; decide +kernel⟩,
   ⟨1, (fw 1 1 [(aSEC_FWVER, 9)] { archive := [[1,2,3]], fwB := { valid := true, version := 5 } }), by unfold Sends; decide +kernel⟩,
   ⟨1, (fw 1 3 [F aSEC_STAT fSEC_STAT_SLOT 1, (aSEC_FLOOR 0, 10)] { archive := [[1,2,3]], fwB := { valid := true, version := 5 }, fwA := { valid := true, version := 9 } }), by unfold Sends; decide +kernel⟩,
   ⟨1, 0, 1048576, [1,2,3], (fw 1 1 [(aSEC_FWVER, 9)] { archive := [[1,2,3]], fwB := { valid := true, version := 5 } }), by unfold Sends; decide +kernel⟩,
   ⟨1, 0, 5242860, [1,2,3], (fw 1 1 [(aSEC_FWVER, 9)] { archive := [[1,2,3]], fwB := { valid := true, version := 5 } }), by unfold Sends; decide +kernel⟩,
   ⟨1, 1, (fw 1 1 [(aSEC_FWVER, 9)] { archive := [[1,2,3]], fwB := { valid := true, version := 5 } }), by unfold Sends; decide +kernel⟩,
   ⟨(fw 1 3 [] { running := some 6, checked := true, image := leBytes 4 0x4D4771A5 ++ leBytes 4 7, slots1 := [{ cmd := 6, req := 3 }] }), by decide +kernel⟩,
   ⟨true, false, (fw 1 3 [] { running := some 6, checked := true, image := leBytes 4 0x4D4771A5 ++ leBytes 4 7, slots1 := [{ cmd := 6, req := 3 }] }), by decide +kernel⟩,
   ⟨(fw 1 0 [] {}), by decide +kernel⟩,
   ⟨1280, (fw 1 3 [F2 aMGT_FW fMGT_FW_TRIAL 1 fMGT_FW_ACTIVE 0] { running := some 7, previous := 1, uptime := 900000 }), by decide +kernel⟩,
   ⟨(fw 1 3 [F2 aMGT_FW fMGT_FW_TRIAL 1 fMGT_FW_ACTIVE 0] { running := some 7, previous := 1, uptime := 900000 }), by decide +kernel⟩,
   ⟨(fw 1 0 [] {}), by decide +kernel⟩⟩

end OfFirmware

namespace OfSensorsAndLoad
def lv (n : Nat) (rs : List (Nat × Word)) : Nat × Word := F2 aMGT_STAT fMGT_STAT_SHED n fMGT_STAT_READY 1
def vec (j : Int) : Vector Word 34 := ⟨((List.range 34).map (fun k => if k = 3 then BitVec.ofInt 32 j else if k = 5 then BitVec.ofInt 32 (-3) else BitVec.ofNat 32 (k * 20))).toArray, by simp⟩

/-- States and operands that meet the hypotheses of each clause of `Obligations.SensorsAndLoad`. -/
theorem witness_SensorsAndLoad :
    (∃ (v : Vector Word 34) (s : State),
      s.sampleDue = true ∧
      ((hottest v.toList).2 ≤ 1120 ∨ rcThermal ∈ s.power.holding)) ∧
    (∃ (v : Vector Word 34) (s : State),
      s.sampleDue = true ∧
      1120 < (hottest v.toList).2 ∧
      rcThermal ∉ s.power.holding) ∧
    (∃ (s : State),
      s.sampleDue = false) ∧
    (∃ (s : State),
      s.mgt.windowAt + 100 ≤ s.mgt.uptime) ∧
    (∃ (s : State),
      s.mgt.uptime < s.mgt.windowAt + 100) :=
  ⟨⟨(vec 1001), (S [lv 0 [], (aMGT_WARN 3, 0x00100005)]), by decide +kernel⟩,
   ⟨(vec 1121), (S [lv 0 [], (aMGT_WARN 3, 0x00100005)]), by decide +kernel⟩,
   ⟨({ S [lv 1 [], F (aLP_STAT 0) fLP_STAT_LTSSM 4] with mgt := { sampleAt := some 0, uptime := 99, slots0 := [{ cmd := 6, req := 3 }], running := some 6 }, count := 191999872, power := { holding := [rcThermal] }, links := one 0 { limits := [9,9,9,9] } }), by decide +kernel⟩,
   ⟨({ S [lv 3 [], F (aCH_CTL 63 3) fCH_CTL_DRV_EN 1] with mgt := { sampleAt := some 0, uptime := 100, extremes := [(3, some (5, 6)), (64 + 5, some (0, 9))], log := [], slots0 := [{ cmd := 6, req := 3 }], running := some 6 }, count := 192000000, causes := [(120, 0)], links := one 0 { limits := [9,9,9,9] }, sram := [(1,1#8)], agenda := [⟨128,.port 1,.cmd (.activate 0 3 5)⟩] }), by decide +kernel⟩,
   ⟨(S [lv 0 [], (aMGT_WARN 3, 0x00100005)]), by decide +kernel⟩⟩

end OfSensorsAndLoad

namespace OfSessions
def sx (ses role : Nat) (rs : List (Nat × Word)) (x : LinkState) (c : Sec) (up : Nat) : State := { S ([F3 (aLP_STAT 1) fLP_STAT_LTSSM 4 fLP_STAT_SESSION ses fLP_STAT_ROLE role, (aMGT_LOGNEXT, 5), (aMGT_LOGOLD, 2), F aSEC_STAT fSEC_STAT_STATE seReady] ++ rs) with links := one 1 x, sec := c, mgt := { uptime := up }, count := 1280 }
def ex0 (pr : Bool) : Exchange := { role := 3, intOnly := true, transcript := [1], since := 5, proved := pr }

/-- States and operands that meet the hypotheses of each clause of `Obligations.Sessions`. -/
theorem witness_Sessions :
    (∃ (p : Port) (s : State),
      (s.session p.val = true ∨ s.bit (aSEC_SESS p.val) fSEC_SESS_REFUSED = true ∨ s.secUp = false)) ∧
    (∃ (p : Port) (role : Byte) (nonce qh : List Byte) (s : State),
      (¬(s.session p.val = true ∨ s.bit (aSEC_SESS p.val) fSEC_SESS_REFUSED = true ∨ s.secUp = false)) ∧
      (BitVec.toNat role ≤ 3 ∧ nonce.length = 32 ∧ qh.length = 97)) ∧
    (∃ (p : Port) (role : Byte) (nonce qh : List Byte) (s : State),
      (¬(s.session p.val = true ∨ s.bit (aSEC_SESS p.val) fSEC_SESS_REFUSED = true ∨ s.secUp = false)) ∧
      (¬(BitVec.toNat role ≤ 3 ∧ nonce.length = 32 ∧ qh.length = 97))) ∧
    (∃ (p : Port) (s : State),
      s.exchange p.val = none) ∧
    (∃ (p : Port) (x : Exchange) (s : State),
      s.exchange p.val = some x ∧
      s.sec.provisional.length = 2 ∧
      s.sec.failRun.length = 2) ∧
    (∃ (p : Port) (cred credTrailer : List Byte) (x : Exchange) (s : State),
      s.exchange p.val = some x ∧
      (x.proved = false ∨ s.exchangeOver x = true ∨ s.secUp = false ∨ s.credential (cred ++ credTrailer) x.role.toNat = false)) ∧
    (∃ (p : Port) (x : Exchange) (s : State),
      s.exchange p.val = some x ∧
      s.exchangeOver x = true) ∧
    (∃ (p : Port) (x : Exchange) (s : State),
      s.exchange p.val = some x ∧
      s.exchangeOver x = false) ∧
    (∃ (p : Port) (s : State),
      s.refusalOver p.val = true) ∧
    (∃ (p : Port) (s : State),
      s.refusalOver p.val = false) ∧
    (∃ (p : Port) (s : State),
      s.session p.val = true) ∧
    (∃ (p : Port) (s : State),
      s.session p.val = false) :=
  ⟨⟨1, (sx 1 3 [] { limits := [9,9,9,9] } {} 0), by decide +kernel⟩,
   ⟨1, 3, (List.replicate 32 1), (List.replicate 97 4), (sx 0 0 [] { limits := [9,9,9,9] } {} 0), by decide +kernel⟩,
   ⟨1, 3, (List.replicate 32 1), (List.replicate 32 1), (sx 0 0 [] { limits := [9,9,9,9] } {} 0), by decide +kernel⟩,
   ⟨1, (sx 0 0 [] { limits := [9,9,9,9] } {} 0), by decide +kernel⟩,
   ⟨1, (ex0 true), (sx 0 0 [] { limits := [9,9,9,9] } { exch := one 1 (some (ex0 true)), failRun := [0, 14] } 5005), by decide +kernel⟩,
   ⟨1, (List.replicate 32 1), (List.replicate 32 1), (ex0 true), (sx 0 0 [] { limits := [9,9,9,9] } { exch := one 1 (some (ex0 true)), failRun := [0, 14] } 5005), by decide +kernel⟩,
   ⟨1, (ex0 true), (sx 0 0 [] { limits := [9,9,9,9] } { exch := one 1 (some (ex0 true)), failRun := [0, 14] } 5005), by decide +kernel⟩,
   ⟨1, (ex0 false), (sx 0 0 [F (aSEC_SESS 1) fSEC_SESS_FAILED 65535] { limits := [9,9,9,9] } { exch := one 1 (some (ex0 false)), failRun := [0, 15], requests := [(5, .proof 1)] } 5004), by decide +kernel⟩,
   ⟨1, (sx 0 0 [F2 (aSEC_SESS 1) fSEC_SESS_REFUSED 1 fSEC_SESS_FAILED 65535] { limits := [9,9,9,9] } { refusedAt := [0, 100] } 60100), by decide +kernel⟩,
   ⟨1, (sx 0 0 [] { limits := [9,9,9,9] } {} 0), by decide +kernel⟩,
   ⟨1, (sx 1 3 [] { limits := [9,9,9,9] } {} 0), by decide +kernel⟩,
   ⟨1, (sx 0 0 [] { limits := [9,9,9,9] } {} 0), by decide +kernel⟩⟩

end OfSessions

namespace OfKeysAndFloors
def sx (ses role : Nat) (rs : List (Nat × Word)) (c : Sec) : State := { S ([F3 (aLP_STAT 1) fLP_STAT_LTSSM 4 fLP_STAT_SESSION ses fLP_STAT_ROLE role, (aMGT_LOGNEXT, 5), (aMGT_LOGOLD, 2), F aSEC_STAT fSEC_STAT_STATE seReady, (aSEC_FWVER, 9), (aSPL_USED, 7)] ++ rs) with links := one 1 { limits := [9,9,9,9] }, sec := c, count := 1280, spill := [(1,1#8)], acq := { streams := [(0, { spilled := [(1,2)] })] }, calRec := { field := [{ seq := 1, digest := 0, entries := [] }] } }

/-- States and operands that meet the hypotheses of each clause of `Obligations.KeysAndFloors`. -/
theorem witness_KeysAndFloors :
    (∃ (p : Port) (s : State),
      Sends p 3 s ∧
      (s.session p.val = false ∨ s.sessRole p.val ≠ 3)) ∧
    (∃ (p : Port) (s : State),
      Sends p 3 s ∧
      s.sec.provisional.getD p.val false = true) ∧
    (∃ (p : Port) (s : State),
      Sends p 3 s ∧
      s.session p.val = true ∧
      s.sessRole p.val = 3 ∧
      s.sec.provisional.getD p.val false = false ∧
      s.secUp = false) ∧
    (∃ (p : Port) (slot usage : Byte) (keys : List Byte) (s : State),
      (s.session p.val = true ∧ s.sessRole p.val = 3 ∧ s.secUp = true ∧ Sends p 3 s) ∧
      BitVec.toNat slot < 8 ∧
      usage &&& 7 ≠ 0 ∧
      keys.length = 157 ∧
      (s.keySlot (BitVec.toNat slot)).used = false ∧
      (s.keySlot (BitVec.toNat slot)).revoked = false) ∧
    (∃ (p : Port) (slot usage : Byte) (keys : List Byte) (s : State),
      (s.session p.val = true ∧ s.sessRole p.val = 3 ∧ s.secUp = true ∧ Sends p 3 s) ∧
      BitVec.toNat slot < 8 ∧
      usage &&& 7 ≠ 0 ∧
      keys.length = 157 ∧
      ((s.keySlot (BitVec.toNat slot)).used = true ∨ (s.keySlot (BitVec.toNat slot)).revoked = true)) ∧
    (∃ (p : Port) (slot usage : Byte) (keys : List Byte) (s : State),
      (s.session p.val = true ∧ s.sessRole p.val = 3 ∧ s.secUp = true ∧ Sends p 3 s) ∧
      (8 ≤ BitVec.toNat slot ∨ usage &&& 7 = 0 ∨ keys.length ≠ 157)) ∧
    (∃ (p : Port) (slot : Byte) (s : State),
      ((s.session p.val = true ∧ s.sessRole p.val = 3 ∧ s.secUp = true ∧ Sends p 3 s) ∧ s.sec.provisional.getD p.val false = false) ∧
      1 ≤ BitVec.toNat slot ∧
      BitVec.toNat slot < 8) ∧
    (∃ (p : Port) (slot : Byte) (s : State),
      ((s.session p.val = true ∧ s.sessRole p.val = 3 ∧ s.secUp = true ∧ Sends p 3 s) ∧ s.sec.provisional.getD p.val false = false) ∧
      (BitVec.toNat slot = 0 ∨ 8 ≤ BitVec.toNat slot)) ∧
    (∃ (p : Port) (slot : Byte) (s : State) (o : Nat),
      ((s.session p.val = true ∧ s.sessRole p.val = 3 ∧ s.secUp = true ∧ Sends p 3 s) ∧ s.sec.provisional.getD p.val false = false) ∧
      128 ≤ BitVec.toNat slot ∧
      BitVec.toNat slot < 134 ∧
      vendorPair (BitVec.toNat slot - 128) = some o ∧
      s.sec.vendorRevoked.getLsbD o = false) ∧
    (∃ (p : Port) (slot : Byte) (s : State) (o : Nat),
      ((s.session p.val = true ∧ s.sessRole p.val = 3 ∧ s.secUp = true ∧ Sends p 3 s) ∧ s.sec.provisional.getD p.val false = false) ∧
      128 ≤ BitVec.toNat slot ∧
      BitVec.toNat slot < 134 ∧
      vendorPair (BitVec.toNat slot - 128) = some o ∧
      s.sec.vendorRevoked.getLsbD o = true) ∧
    (∃ (p : Port) (slot : Byte) (s : State),
      ((s.session p.val = true ∧ s.sessRole p.val = 3 ∧ s.secUp = true ∧ Sends p 3 s) ∧ s.sec.provisional.getD p.val false = false) ∧
      BitVec.toNat slot = 134) ∧
    (∃ (p : Port) (slot : Byte) (s : State),
      ((s.session p.val = true ∧ s.sessRole p.val = 3 ∧ s.secUp = true ∧ Sends p 3 s) ∧ s.sec.provisional.getD p.val false = false) ∧
      (8 ≤ BitVec.toNat slot ∧ BitVec.toNat slot < 128 ∨ 135 ≤ BitVec.toNat slot)) ∧
    (∃ (p : Port) (which : Byte) (v : Word) (s : State),
      ((s.session p.val = true ∧ s.sessRole p.val = 3 ∧ s.secUp = true ∧ Sends p 3 s) ∧ s.sec.provisional.getD p.val false = false) ∧
      BitVec.toNat which < 4 ∧
      BitVec.toNat (s.reg (aSEC_FLOOR (BitVec.toNat which))) < BitVec.toNat v ∧
      BitVec.toNat v ≤ s.objVersion (BitVec.toNat which) ∧
      s.sec.floorRaises.getD (BitVec.toNat which) 0 < 255) ∧
    (∃ (p : Port) (which : Byte) (v : Word) (s : State),
      ((s.session p.val = true ∧ s.sessRole p.val = 3 ∧ s.secUp = true ∧ Sends p 3 s) ∧ s.sec.provisional.getD p.val false = false) ∧
      BitVec.toNat which < 4 ∧
      (BitVec.toNat v ≤ BitVec.toNat (s.reg (aSEC_FLOOR (BitVec.toNat which))) ∨ s.objVersion (BitVec.toNat which) < BitVec.toNat v)) ∧
    (∃ (s : State),
      s.bit aSEC_STAT fSEC_STAT_ERASING = true) ∧
    (∃ (s : State),
      s.bit aSEC_STAT fSEC_STAT_ERASING = false) ∧
    (∃ (s : State),
      s.bit aSEC_STAT fSEC_STAT_APPROVED = true) ∧
    (∃ (s : State),
      s.bit aSEC_STAT fSEC_STAT_APPROVED = false) :=
  ⟨⟨1, (sx 0 3 [] {}), by unfold Sends; decide +kernel⟩,
   ⟨1, (sx 1 3 [] { provisional := [false, true] }), by unfold Sends; decide +kernel⟩,
   ⟨1, (sx 1 3 [F2 aSEC_STAT fSEC_STAT_STATE seError fSEC_STAT_APPROVED 1] {}), by unfold Sends; decide +kernel⟩,
   ⟨1, 0, 3, (List.replicate 157 4), (sx 1 3 [] { provisional := [false, true] }), by unfold Sends; decide +kernel⟩,
   ⟨1, 3, 3, (List.replicate 157 4), (sx 1 3 [F2 aSEC_STAT fSEC_STAT_STATE seReady fSEC_STAT_ERASING 1] { slots := one 3 { used := true, usage := 7 }, content := one 3 (5, 6) }), by unfold Sends; decide +kernel⟩,
   ⟨1, 0, 0, (List.replicate 157 4), (sx 1 3 [] { provisional := [false, true] }), by unfold Sends; decide +kernel⟩,
   ⟨1, 3, (sx 1 3 [F2 aSEC_STAT fSEC_STAT_STATE seReady fSEC_STAT_ERASING 1] { slots := one 3 { used := true, usage := 7 }, content := one 3 (5, 6) }), by unfold Sends; decide +kernel⟩,
   ⟨1, 0, (sx 1 3 [F2 aSEC_STAT fSEC_STAT_STATE seReady fSEC_STAT_ERASING 1] { slots := one 3 { used := true, usage := 7 }, content := one 3 (5, 6) }), by unfold Sends; decide +kernel⟩,
   ⟨1, 0x80, (sx 1 3 [F2 aSEC_STAT fSEC_STAT_STATE seReady fSEC_STAT_ERASING 1] { slots := one 3 { used := true, usage := 7 }, content := one 3 (5, 6) }), 1, by unfold Sends; decide +kernel⟩,
   ⟨1, 0x82, (sx 1 3 [] { slots := one 3 { revoked := true, usage := 7 }, vendorRevoked := 8, q := 8 }), 3, by unfold Sends; decide +kernel⟩,
   ⟨1, 0x86, (sx 1 3 [F2 aSEC_STAT fSEC_STAT_STATE seReady fSEC_STAT_ERASING 1] { slots := one 3 { used := true, usage := 7 }, content := one 3 (5, 6) }), by unfold Sends; decide +kernel⟩,
   ⟨1, 8, (sx 1 3 [F2 aSEC_STAT fSEC_STAT_STATE seReady fSEC_STAT_ERASING 1] { slots := one 3 { used := true, usage := 7 }, content := one 3 (5, 6) }), by unfold Sends; decide +kernel⟩,
   ⟨1, 0, 9, (sx 1 3 [F2 aSEC_STAT fSEC_STAT_STATE seReady fSEC_STAT_ERASING 1] { slots := one 3 { used := true, usage := 7 }, content := one 3 (5, 6) }), by unfold Sends; decide +kernel⟩,
   ⟨1, 0, 10, (sx 1 3 [F2 aSEC_STAT fSEC_STAT_STATE seReady fSEC_STAT_ERASING 1] { slots := one 3 { used := true, usage := 7 }, content := one 3 (5, 6) }), by unfold Sends; decide +kernel⟩,
   ⟨(sx 1 3 [F2 aSEC_STAT fSEC_STAT_STATE seReady fSEC_STAT_ERASING 1] { slots := one 3 { used := true, usage := 7 }, content := one 3 (5, 6) }), by decide +kernel⟩,
   ⟨(sx 0 3 [] {}), by decide +kernel⟩,
   ⟨(sx 1 3 [F2 aSEC_STAT fSEC_STAT_STATE seError fSEC_STAT_APPROVED 1] {}), by decide +kernel⟩,
   ⟨(sx 0 3 [] {}), by decide +kernel⟩⟩

end OfKeysAndFloors

namespace OfSigning
def sx (ses role : Nat) (rs : List (Nat × Word)) (c : Sec) (a : Acq) : State := { S ([F3 (aLP_STAT 1) fLP_STAT_LTSSM 4 fLP_STAT_SESSION ses fLP_STAT_ROLE role, (aMGT_LOGNEXT, 5), (aMGT_LOGOLD, 2), F aSEC_STAT fSEC_STAT_STATE seReady] ++ rs) with links := one 1 { limits := [9,9,9,9] }, sec := c, count := 1280, acq := a }

/-- States and operands that meet the hypotheses of each clause of `Obligations.Signing`. -/
theorem witness_Signing :
    (∃ (p : Port) (s : State),
      s.session p.val = false) ∧
    (∃ (p : Port) (nonce : List Byte) (s : State),
      (s.session p.val = true ∧ s.sec.provisional.getD p.val false = false ∧ s.secUp = true) ∧
      nonce.length = 32) ∧
    (∃ (p : Port) (nonce : List Byte) (s : State),
      (s.session p.val = true ∧ s.sec.provisional.getD p.val false = false ∧ s.secUp = true) ∧
      nonce.length ≠ 32) ∧
    (∃ (p : Port) (n : Word) (d : BitVec 384) (g : List Byte) (s : State),
      (s.session p.val = true ∧ s.sec.provisional.getD p.val false = false ∧ s.secUp = true) ∧
      (List.find? (fun x => x.1 == n) s.acq.seals = some (n, d, some g))) ∧
    (∃ (p : Port) (n : Word) (d : BitVec 384) (s : State),
      (s.session p.val = true ∧ s.sec.provisional.getD p.val false = false ∧ s.secUp = true) ∧
      (List.find? (fun x => x.1 == n) s.acq.seals = some (n, d, none))) ∧
    (∃ (p : Port) (n : Word) (s : State),
      (s.session p.val = true ∧ s.sec.provisional.getD p.val false = false ∧ s.secUp = true) ∧
      (List.find? (fun x => x.1 == n) s.acq.seals = none)) ∧
    (∃ (p : Port) (s : State),
      s.session p.val = true ∧
      s.sec.provisional.getD p.val false = false ∧
      1 ≤ s.sessRole p.val ∧
      s.sessRole p.val ≠ 2 ∧
      s.sessRole p.val < 4) ∧
    (∃ (s : State),
      s.bit aSEC_STAT fSEC_STAT_TREEWAIT = true) ∧
    (∃ (s : State),
      s.bit aSEC_STAT fSEC_STAT_TREEWAIT = false) ∧
    (∃ (n : Word) (d : BitVec 384) (c : Count) (rest : List (Count × SigReq)) (s : State),
      s.sec.requests = (c, SigReq.seal n) :: rest ∧
      (List.find? (fun x => x.1 == n && x.2.2.isNone) s.acq.seals = some (n, d, none)) ∧
      ((s.secUp = true ∧ s.maySign = true ∧ s.sec.q < 2 ^ 40) ∧ s.sec.q < s.sec.reservedTo)) ∧
    (∃ (p : Port) (nonce : List Byte) (c : Count) (rest : List (Count × SigReq)) (s : State),
      s.sec.requests = (c, SigReq.attest p nonce) :: rest ∧
      ((s.secUp = true ∧ s.maySign = true ∧ s.sec.q < 2 ^ 40) ∧ s.sec.q < s.sec.reservedTo)) ∧
    (∃ (n : Word) (d : BitVec 384) (c : Count) (rest : List (Count × SigReq)) (s : State),
      s.sec.requests = (c, SigReq.seal n) :: rest ∧
      (List.find? (fun x => x.1 == n && x.2.2.isNone) s.acq.seals = some (n, d, none)) ∧
      (s.secUp = true ∧ s.maySign = true ∧ s.sec.q < 2 ^ 40) ∧
      s.sec.reservedTo ≤ s.sec.q) ∧
    (∃ (s : State),
      s.sec.requests ≠ [] ∧
      s.secUp = true ∧
      s.sec.q < 2 ^ 40 ∧
      s.sec.reservedTo ≤ s.sec.q ∧
      s.bit aSEC_STAT fSEC_STAT_SUSP = false) ∧
    (∃ (s : State),
      s.sec.requests ≠ [] ∧
      s.secUp = true ∧
      s.sec.q < 2 ^ 40 ∧
      s.bit aSEC_STAT fSEC_STAT_SUSP = true) ∧
    (∃ (s : State),
      (s.sec.requests = [] ∨ s.secUp = false ∨ 2 ^ 40 ≤ s.sec.q)) :=
  ⟨⟨1, (sx 0 3 [] {} {}), by decide +kernel⟩,
   ⟨1, (List.replicate 32 6), (sx 1 1 [] { q := 5, reservedTo := 6, requests := [(3, .seal 7), (4, .cal)] } { seals := [(6, 2, some [1]), (7, 9, none)] }), by decide +kernel⟩,
   ⟨1, [1,2], (sx 1 1 [] { q := 5, reservedTo := 6, requests := [(3, .seal 7), (4, .cal)] } { seals := [(6, 2, some [1]), (7, 9, none)] }), by decide +kernel⟩,
   ⟨1, 6, 2, [1], (sx 1 1 [] { q := 5, reservedTo := 6, requests := [(3, .seal 7), (4, .cal)] } { seals := [(6, 2, some [1]), (7, 9, none)] }), by decide +kernel⟩,
   ⟨1, 7, 9, (sx 1 1 [] { q := 5, reservedTo := 6, requests := [(3, .seal 7), (4, .cal)] } { seals := [(6, 2, some [1]), (7, 9, none)] }), by decide +kernel⟩,
   ⟨1, 6, ({ sx 1 3 [F2 aSEC_STAT fSEC_STAT_STATE seReady fSEC_STAT_TREEWAIT 1] { q := 2^40, requests := [(3, .seal 7), (4, .cal)] } { seals := [(7, 9, some [1,2])] } with causes := [(112, 0), (115, 0)] }), by decide +kernel⟩,
   ⟨1, (sx 1 1 [] { q := 5, reservedTo := 6, requests := [(3, .seal 7), (4, .cal)] } { seals := [(6, 2, some [1]), (7, 9, none)] }), by decide +kernel⟩,
   ⟨({ sx 1 3 [F2 aSEC_STAT fSEC_STAT_STATE seReady fSEC_STAT_TREEWAIT 1] { q := 2^40, requests := [(3, .seal 7), (4, .cal)] } { seals := [(7, 9, some [1,2])] } with causes := [(112, 0), (115, 0)] }), by decide +kernel⟩,
   ⟨(sx 0 3 [] {} {}), by decide +kernel⟩,
   ⟨7, 9, 3, [(4, .cal)], (sx 1 1 [] { q := 5, reservedTo := 6, requests := [(3, .seal 7), (4, .cal)] } { seals := [(6, 2, some [1]), (7, 9, none)] }), by decide +kernel⟩,
   ⟨1, (List.replicate 32 6), 3, [(4, .cal)], (sx 1 3 [] { q := 2^20 - 1, reservedTo := 2^20, requests := [(3, .attest 1 (List.replicate 32 6)), (4, .cal)] } {}), by decide +kernel⟩,
   ⟨7, 9, 3, [(4, .cal)], (sx 1 3 [F aSEC_HSSE fSEC_HSSE_NREADY 1] { q := 2^20 - 1, reservedTo := 2^20 - 1, requests := [(3, .seal 7), (4, .cal)] } { seals := [(6, 2, some [1]), (7, 9, none)] }), by decide +kernel⟩,
   ⟨(sx 1 3 [F aSEC_HSSE fSEC_HSSE_NREADY 1] { q := 2^20 - 1, reservedTo := 2^20 - 1, requests := [(3, .seal 7), (4, .cal)] } { seals := [(6, 2, some [1]), (7, 9, none)] }), by decide +kernel⟩,
   ⟨(sx 1 3 [F2 aSEC_STAT fSEC_STAT_STATE seReady fSEC_STAT_SUSP 1] { q := 2^28 - 1, reservedTo := 2^20 - 1, requests := [(3, .seal 7), (4, .cal)] } { seals := [(6, 2, some [1]), (7, 9, none)] }), by decide +kernel⟩,
   ⟨(sx 0 3 [] {} {}), by decide +kernel⟩⟩

end OfSigning

/-- States and operands that meet the hypotheses of each clause of `Obligations.ResetState`. -/
theorem witness_ResetState :
    (∃ (a : Nat),
      a ≠ aGLB_RSTCAUSE) :=
  ⟨0, by decide +kernel⟩

/-- States and operands that meet the hypotheses of each clause of `Obligations.AliasAddress`. -/
theorem witness_AliasAddress :
    (∃ (r b : Nat),
      r ≤ 2044 ∧
      r % 4 = 0 ∧
      b < 32) :=
  ⟨0, 0, by decide +kernel⟩

namespace OfNarrowAccess
def hd (vc : BitVec 2) (timed res : Bool) (seq : BitVec 12) : HostHdr := ⟨vc, timed, true, res, seq, 77, true, true⟩
def hs0 (role lt : Nat) (rs : List (Nat × Word)) : State := { S ([F3 (aLP_STAT 1) fLP_STAT_SESSION 1 fLP_STAT_LTSSM lt fLP_STAT_ROLE role, (aGLB_SCRATCH, 0x12345678)] ++ rs) with links := one 1 { limits := [9,9,9,9], rxNext := 5 }, count := 128000, agenda := [⟨135000, .port 0, .cmd .force⟩, ⟨136192, .port 0, .cmd .force⟩, ⟨999999, .port 0, .cmd .force⟩] }

/-- States and operands that meet the hypotheses of each clause of `Obligations.NarrowAccess`. -/
theorem witness_NarrowAccess :
    (∃ (p : Port) (h : HostHdr) (off n : Nat) (s : State),
      (s.ltssm p.val = ltActive ∧ judgeSeq (s.link p.val) h = Taken.take ∧ s.session p.val = true ∧ h.prot = true ∧ h.tagGood = true ∧ h.reserved = false ∧ h.vc = 0 ∧ Sends p 0 s ∧ s.stalls p h = false) ∧
      (n = 1 ∨ n = 2) ∧
      off % n = 0 ∧
      off + n ≤ 268435456 ∧
      h.timed = false ∧
      (s.link p.val).untimed = none ∧
      regMapped (off / 4 * 4) = true ∧
      s.mayReg (s.sessRole p.val) (off / 4 * 4) false = true) ∧
    (∃ (p : Port) (h : HostHdr) (off n : Nat) (due : Count) (data : List Byte) (s : State),
      (s.ltssm p.val = ltActive ∧ judgeSeq (s.link p.val) h = Taken.take ∧ s.session p.val = true ∧ h.prot = true ∧ h.tagGood = true ∧ h.reserved = false ∧ h.vc = 0 ∧ Sends p 0 s ∧ s.stalls p h = false) ∧
      (n = 1 ∨ n = 2) ∧
      off % n = 0 ∧
      off + n ≤ 268435456 ∧
      data.length = n ∧
      (h.timed = false → due = 0)) :=
  ⟨⟨1, (hd 0 false false 5), 0x32, 1, (hs0 1 4 []), by unfold Sends; decide +kernel⟩,
   ⟨1, (hd 0 false false 5), 0x32, 1, 0, [1], (hs0 1 4 []), by unfold Sends; decide +kernel⟩⟩

end OfNarrowAccess

namespace OfUnalignedAccess
def hd (vc : BitVec 2) (timed res : Bool) (seq : BitVec 12) : HostHdr := ⟨vc, timed, true, res, seq, 77, true, true⟩
def hs0 (role lt : Nat) (rs : List (Nat × Word)) : State := { S ([F3 (aLP_STAT 1) fLP_STAT_SESSION 1 fLP_STAT_LTSSM lt fLP_STAT_ROLE role, (aGLB_SCRATCH, 0x12345678)] ++ rs) with links := one 1 { limits := [9,9,9,9], rxNext := 5 }, count := 128000, agenda := [⟨135000, .port 0, .cmd .force⟩, ⟨136192, .port 0, .cmd .force⟩, ⟨999999, .port 0, .cmd .force⟩] }

/-- States and operands that meet the hypotheses of each clause of `Obligations.UnalignedAccess`. -/
theorem witness_UnalignedAccess :
    (∃ (p : Port) (h : HostHdr) (off n : Nat) (s : State),
      (s.ltssm p.val = ltActive ∧ judgeSeq (s.link p.val) h = Taken.take ∧ s.session p.val = true ∧ h.prot = true ∧ h.tagGood = true ∧ h.reserved = false ∧ h.vc = 0 ∧ Sends p 0 s ∧ s.stalls p h = false) ∧
      (n = 2 ∨ n = 4 ∨ n = 8) ∧
      off % n ≠ 0 ∧
      off + n ≤ 268435456 ∧
      h.timed = false ∧
      (s.link p.val).untimed = none) ∧
    (∃ (p : Port) (h : HostHdr) (off n : Nat) (due : Count) (data : List Byte) (s : State),
      (s.ltssm p.val = ltActive ∧ judgeSeq (s.link p.val) h = Taken.take ∧ s.session p.val = true ∧ h.prot = true ∧ h.tagGood = true ∧ h.reserved = false ∧ h.vc = 0 ∧ Sends p 0 s ∧ s.stalls p h = false) ∧
      (n = 2 ∨ n = 4 ∨ n = 8) ∧
      off % n ≠ 0 ∧
      off + n ≤ 268435456 ∧
      data.length = n ∧
      (h.timed = false → due = 0)) :=
  ⟨⟨1, (hd 0 false false 5), 0x32, 4, (hs0 1 4 []), by unfold Sends; decide +kernel⟩,
   ⟨1, (hd 0 false false 5), 0x32, 4, 0, [1,2,3,4], (hs0 1 4 []), by unfold Sends; decide +kernel⟩⟩

end OfUnalignedAccess

/-- States and operands that meet the hypotheses of each clause of `Obligations.OwnConflict`. -/
theorem witness_OwnConflict :
    (∃ (s : State),
      s.bit aTWN_STAT fTWN_STAT_OWN = true) :=
  ⟨(S [F2 aTWN_STAT fTWN_STAT_OWN 1 fTWN_STAT_STATE twActive]), by decide +kernel⟩

/-- States and operands that meet the hypotheses of each clause of `Obligations.WatchdogRestart`. -/
theorem witness_WatchdogRestart :
    (∃ (s : State),
      (∀ (p : Port), SendsAll p 3 (s.slots p.val).length s)) :=
  ⟨({ S [F (aLP_STAT 0) fLP_STAT_LTSSM 4, F (aLP_STAT 1) fLP_STAT_LTSSM 4] with links := [(0, { limits := [0,0,0,2] }), (1, { limits := [0,0,0,1] })], mgt := { running := some 7, slots0 := [{ cmd := 6, req := 3 }, { cmd := 6, req := 4, reply := some (1,[]) }], slots1 := [{ cmd := 7, req := 3 }] } }), by unfold SendsAll; decide +kernel⟩

theorem witness_IdleStep_raises : ∃ s : State, s.pending = [] ∧ raisesBefore s.nextCycle s.agenda ≠ [] :=
  ⟨{ agenda := [⟨0, .island islLink, .raise 4 islLink⟩] }, by decide +kernel⟩

theorem witness_IdleStep_command : ∃ (s : State) (d : Due) (rest : List Due) (c : Instr), s.pending = [] ∧
    raisesBefore s.nextCycle s.agenda = [] ∧ s.agenda = d :: rest ∧ d.act = .cmd c ∧
    Count.before d.due s.nextCycle = true :=
  ⟨{ agenda := [⟨127, .port 1, .cmd .force⟩] }, ⟨127, .port 1, .cmd .force⟩, [], .force, by decide +kernel⟩

theorem witness_IdleStep_tick : ∃ (s : State) (d : Due) (rest : List Due), s.pending = [] ∧
    raisesBefore s.nextCycle s.agenda = [] ∧ s.agenda = d :: rest ∧ Count.before d.due s.nextCycle = false :=
  ⟨{ agenda := [⟨128, .port 1, .cmd .force⟩] }, ⟨128, .port 1, .cmd .force⟩, [], by decide +kernel⟩

theorem witness_IdleStep_rest : ∃ s : State, s.pending = [] ∧ raisesBefore s.nextCycle s.agenda = [] ∧ s.agenda = [] :=
  ⟨{}, by decide +kernel⟩

theorem witness_StepKeepsCanonical : ∃ s t : State, s.Canonical ∧ step s = .next t :=
  ⟨{ pending := [.ddsrst] }, _, by unfold State.Canonical; decide +kernel, rfl⟩

theorem witness_OwnOnlyWhenActive : ∃ s t : State, s.OwnsLegally ∧ step s = .next t :=
  ⟨{ pending := [.ddsrst] }, _, by unfold State.OwnsLegally; decide +kernel, rfl⟩

theorem witness_RegistersOwned : ∃ (c : Instr) (s t : State) (bs : List Nat) (a : Nat),
    c.writes = some bs ∧ exec c s = .next t ∧ a / 0x100000 ∉ bs ∧ (64 ∈ bs → a / 0x100000 < 64) :=
  ⟨.ddsrst, {}, _, _, 0x100004, rfl, rfl, by decide +kernel⟩

theorem witness_StoresOwned : ∃ (c : Instr) (s t : State), exec c s = .next t ∧ c.resetsDie = false ∧ c.resetsBlock = false :=
  ⟨.ddsrst, {}, _, rfl, by decide +kernel⟩

end Sys2Proof.Tests.Slice0
end

section
/-! Register writes: what a chain of them keeps, and a bit or a counter read after one. -/
namespace Sys2Proof.Machine

theorem KeepsRegs.setReg {as : List Nat} {s t : State} (g : KeepsRegs as s t) {a : Nat} (h : a ∈ as) (v : Word) :
    KeepsRegs as s (t.setReg a v) := by
  intro b hb
  rw [State.reg_setReg_ne _ _ (ne_of_mem_of_not_mem h hb).symm, g b hb]

theorem KeepsRegs.setBit {as : List Nat} {s t : State} (g : KeepsRegs as s t) {a : Nat} (h : a ∈ as) (f : Fld) (v : Bool) :
    KeepsRegs as s (t.setBit a f v) := g.setReg h _

theorem KeepsRegs.latch {as : List Nat} {s t : State} (g : KeepsRegs as s t) {a : Nat} (h : a ∈ as) (f : Fld) :
    KeepsRegs as s (t.latch a f) := g.setReg h _

theorem KeepsRegs.bump {as : List Nat} {s t : State} (g : KeepsRegs as s t) {a : Nat} (h : a ∈ as) :
    KeepsRegs as s (t.bump a) := g.setReg h _

/-- A one-bit field written is read back. -/
theorem State.bit_setBit_self (s : State) (a : Nat) (f : Fld) (b : Bool) (h1 : f.lo = f.hi) (h2 : f.hi < 32) :
    (s.setBit a f b).bit a f = b := by
  have hw : f.width = 1 := by unfold Fld.width; omega
  unfold State.bit State.setBit
  rw [State.fld_setFld_self _ _ _ _ h1.le h2, hw]
  cases b <;> rfl

/-- A field beside the bit written reads as before. -/
theorem State.bit_setBit_beside (s : State) (a : Nat) (f g : Fld) (b : Bool) (h1 : f.lo ≤ f.hi) (h2 : f.hi < 32)
    (h3 : g.hi < f.lo ∨ f.hi < g.lo) : (s.setBit a f b).bit a g = s.bit a g := by
  unfold State.bit State.setBit
  rw [State.fld_setFld_beside _ _ _ _ _ h1 h2 h3]

theorem State.bit_latch_self (s : State) (a : Nat) (f : Fld) (h1 : f.lo = f.hi) (h2 : f.hi < 32) :
    (s.latch a f).bit a f = true := State.bit_setBit_self s a f true h1 h2

theorem State.bit_latch_beside (s : State) (a : Nat) (f g : Fld) (h1 : f.lo ≤ f.hi) (h2 : f.hi < 32)
    (h3 : g.hi < f.lo ∨ f.hi < g.lo) : (s.latch a f).bit a g = s.bit a g := State.bit_setBit_beside s a f g true h1 h2 h3

/-- A counter bumped shows one more, and stays at its greatest value. -/
theorem State.reg_bump_toNat (s : State) (a : Nat) :
    ((s.bump a).reg a).toNat = min 0xFFFFFFFF ((s.reg a).toNat + 1) := by
  have h : (s.bump a).reg a = BitVec.ofNat 32 (min 0xFFFFFFFF ((s.reg a).toNat + 1)) := State.reg_setReg_self _ _ _
  rw [h, BitVec.toNat_ofNat, Nat.mod_eq_of_lt (by omega)]

end Sys2Proof.Machine
end

section
/-! Who owns what (O54, O55): the registers and the stores that each command may change, read off the frame of its meaning
(Laws/Dispatch). -/
namespace Sys2Proof.Machine

/-- The commands that own a part of the state, by the lists of `Obligations.StoresOwned`; a part that has no list there
may change with any command. -/
def Part.ownedBy (p : Part) (c : Instr) : Bool :=
  match p with
  | .spill => match c with
    | .spillMove .. | .spillEraseDone => true
    | _ => false
  | .hbmMem => match c with
    | .sealInstant | .spillMove .. | .excursionWrite .. | .digestSend | .ferry .. | .wr .. | .strm ..
      | .reactionBlockReset .. | .rstcmdBlock .. | .strcopy .. => true
    | _ => false
  | .sec => match c with
    | .tbsStep .. | .ringTime .. | .colTime .. | .sealInstant | .sealSign .. | .calCommit .. | .rd .. | .wr .. | .strm ..
      | .recoveryTimeout .. | .lpEnWrite .. | .reactionBlockReset .. | .rstcmdBlock .. | .confirm .. | .secHello ..
      | .proof .. | .sessionTimeout .. | .close .. | .attest .. | .enroll .. | .enrollCk .. | .revoke .. | .floor ..
      | .mode .. | .zeroise .. => true
    | _ => false
  | .power => match c with
    | .pllRefLoss .. | .safeNFall | .safeNRise | .resetRelease .. | .inputOutOfRange | .inputReturn | .thermalRelease
      | .ovenReady => true
    | _ => false
  | .ctl => false
  | .count => match c with
    | .tbsStep .. | .ringTime .. | .colTime .. => true
    | _ => false
  | .str => match c with
    | .hbmRequestDone .. | .strLoad .. | .strCheckDone .. | .strApply .. | .strAbort | .unload .. | .store .. => true
    | _ => false
  | .calRec => match c with
    | .blkCtlWrite .. | .tbsStep .. | .ringTime .. | .colTime .. | .gateEnd .. | .sealSign .. | .calqAbort ..
      | .calPhaseEnd .. | .calFitDone .. | .calCommit .. | .calRecordStored .. | .refCheck | .refCheckDone .. | .hello ..
      | .ownConflict | .presNHigh | .peerFrameTimeout | .digestSend | .digest .. | .twnJoin .. | .twnLeave ..
      | .colApply .. | .zeroise .. => true
    | _ => false
  | .players => match c with
    | .blkCtlWrite .. | .plStart .. | .plJump .. | .plStop .. | .sampleBoundary | .refillArrive .. => true
    | _ => false
  | .seg => match c with
    | .ddsrst | .sampleBoundary => true
    | _ => false
  | .stampers => match c with
    | .stpCfgWrite .. | .thresholdCrossing .. => true
    | _ => false
  | .tacs => match c with
    | .tacCfgWrite .. | .tacCalDone .. => true
    | _ => false
  | .mons => match c with
    | .tbsStep .. | .ringTime .. | .colTime .. | .periodStart .. | .monitorTick .. | .monEnWrite .. | .monThrWrite ..
      | .monUnsettledTimeout .. | .colApply .. => true
    | _ => false
  | .engs => match c with
    | .blkCtlWrite .. | .tbsStep .. | .ringTime .. | .colTime .. | .loopUpdate .. | .bgRequest .. | .bgAbort ..
      | .bgRoutineRun .. => true
    | _ => false
  | _ => true

/-- The commands that reset a part of the state beside its owners (R40, R506): those of a die for the stores outside the
blocks, those of a block for the islands' own stores. -/
def Part.resetBy (p : Part) (c : Instr) : Bool :=
  match p with
  | .hbmMem | .sec | .power | .ctl | .count => c.resetsDie
  | .str | .calRec | .players | .seg | .stampers | .tacs | .mons | .engs => c.resetsBlock
  | _ => false

/-- A command owns the parts and the blocks of a bound: each part is its own or it resets it, and the blocks are among those
of `Instr.writes`, where it has a list. -/
def ownsBound (c : Instr) (ps : List Part) (bs : List Nat) : Bool :=
  ps.all (fun p => p.ownedBy c || p.resetBy c) && c.writes.all (fun ws => !ps.contains .regs && bs.all ws.contains)

/-- A command answers a next state, and changes only what it owns. -/
def RunsOwned (c : Instr) (s : State) : Prop := ∃ ps bs, Runs ps bs s (exec c s) ∧ ownsBound c ps bs = true

/-- The frame of each command lies within what the command owns. -/
theorem exec_runsOwned (c : Instr) (s : State) : RunsOwned c s :=
  match c with
  | .regWrite .. => ⟨_, _, exec_regWrite, rfl⟩
  | .bitAliasWrite .. => ⟨_, _, exec_bitAliasWrite, rfl⟩
  | .blkCtlWrite .. => ⟨_, _, exec_blkCtlWrite, rfl⟩
  | .tbsStep .. => ⟨_, _, exec_tbsStep, rfl⟩
  | .tbsAnchor => ⟨_, _, exec_tbsAnchor, rfl⟩
  | .anchorPeriodic => ⟨_, _, exec_anchorPeriodic, rfl⟩
  | .timeMsgSend => ⟨_, _, exec_timeMsgSend, rfl⟩
  | .ringTime .. => ⟨_, _, exec_ringTime, rfl⟩
  | .holdTimeout => ⟨_, _, exec_holdTimeout, rfl⟩
  | .phaseStep => ⟨_, _, exec_phaseStep, rfl⟩
  | .freqSlew => ⟨_, _, exec_freqSlew, rfl⟩
  | .pllRefLoss .. => ⟨_, _, exec_pllRefLoss, rfl⟩
  | .colTimeSend => ⟨_, _, exec_colTimeSend, rfl⟩
  | .colTime .. => ⟨_, _, exec_colTime, rfl⟩
  | .patStart .. => ⟨_, _, exec_patStart, rfl⟩
  | .patCodeEnd .. => ⟨_, _, exec_patCodeEnd, rfl⟩
  | .drvEnWrite .. => ⟨_, _, exec_drvEnWrite, rfl⟩
  | .chPeriodWrite .. => ⟨_, _, exec_chPeriodWrite, rfl⟩
  | .periodStart .. => ⟨_, _, exec_periodStart, rfl⟩
  | .safeNFall => ⟨_, _, exec_safeNFall, rfl⟩
  | .safeNRise => ⟨_, _, exec_safeNRise, rfl⟩
  | .dllRelock .. => ⟨_, _, exec_dllRelock, rfl⟩
  | .dllCompare .. => ⟨_, _, exec_dllCompare, rfl⟩
  | .dllLockDone .. => ⟨_, _, exec_dllLockDone, rfl⟩
  | .tacCfgWrite .. => ⟨_, _, exec_tacCfgWrite, rfl⟩
  | .tacCal .. => ⟨_, _, exec_tacCal, rfl⟩
  | .tacCalDone .. => ⟨_, _, exec_tacCalDone, rfl⟩
  | .stpCfgWrite .. => ⟨_, _, exec_stpCfgWrite, rfl⟩
  | .thresholdCrossing .. => ⟨_, _, exec_thresholdCrossing, rfl⟩
  | .muEnWrite .. => ⟨_, _, exec_muEnWrite, rfl⟩
  | .muApply .. => ⟨_, _, exec_muApply, rfl⟩
  | .gateEnd .. => ⟨_, _, exec_gateEnd, rfl⟩
  | .resultDue .. => ⟨_, _, exec_resultDue, rfl⟩
  | .monitorTick .. => ⟨_, _, exec_monitorTick, rfl⟩
  | .monEnWrite .. => ⟨_, _, exec_monEnWrite, rfl⟩
  | .monThrWrite .. => ⟨_, _, exec_monThrWrite, rfl⟩
  | .monUnsettledTimeout .. => ⟨_, _, exec_monUnsettledTimeout, rfl⟩
  | .loopUpdate .. => ⟨_, _, exec_loopUpdate, rfl⟩
  | .lpeFlip .. => ⟨_, _, exec_lpeFlip, rfl⟩
  | .lchEnWrite .. => ⟨_, _, exec_lchEnWrite, rfl⟩
  | .bgRequest .. => ⟨_, _, exec_bgRequest, rfl⟩
  | .bgAbort .. => ⟨_, _, exec_bgAbort, rfl⟩
  | .bgRoutineRun .. => ⟨_, _, exec_bgRoutineRun, rfl⟩
  | .engRestart .. => ⟨_, _, exec_engRestart, rfl⟩
  | .seal .. => ⟨_, _, exec_seal, rfl⟩
  | .sealDone .. => ⟨_, _, exec_sealDone, rfl⟩
  | .unseal .. => ⟨_, _, exec_unseal, rfl⟩
  | .ddsrst => ⟨_, _, exec_ddsrst, rfl⟩
  | .plStart .. => ⟨_, _, exec_plStart, rfl⟩
  | .plJump .. => ⟨_, _, exec_plJump, rfl⟩
  | .plStop .. => ⟨_, _, exec_plStop, rfl⟩
  | .sampleBoundary => ⟨_, _, exec_sampleBoundary, rfl⟩
  | .refillArrive .. => ⟨_, _, exec_refillArrive, rfl⟩
  | .qpush .. => ⟨_, _, exec_qpush, rfl⟩
  | .qpushRoom .. => ⟨_, _, exec_qpushRoom, rfl⟩
  | .ingressTake .. => ⟨_, _, exec_ingressTake, rfl⟩
  | .taskPost .. => ⟨_, _, exec_taskPost, rfl⟩
  | .taskClear .. => ⟨_, _, exec_taskClear, rfl⟩
  | .taskArm .. => ⟨_, _, exec_taskArm, rfl⟩
  | .taskStart .. => ⟨_, _, exec_taskStart, rfl⟩
  | .taskCancel .. => ⟨_, _, exec_taskCancel, rfl⟩
  | .taskReset .. => ⟨_, _, exec_taskReset, rfl⟩
  | .taskPrio .. => ⟨_, _, exec_taskPrio, rfl⟩
  | .taskTimer .. => ⟨_, _, exec_taskTimer, rfl⟩
  | .taskTimerExpiry .. => ⟨_, _, exec_taskTimerExpiry, rfl⟩
  | .taskJudge .. => ⟨_, _, exec_taskJudge, rfl⟩
  | .taskDispatch .. => ⟨_, _, exec_taskDispatch, rfl⟩
  | .yieldPoint .. => ⟨_, _, exec_yieldPoint, rfl⟩
  | .stageDone .. => ⟨_, _, exec_stageDone, rfl⟩
  | .stepCommit .. => ⟨_, _, exec_stepCommit, rfl⟩
  | .stepStart .. => ⟨_, _, exec_stepStart, rfl⟩
  | .stepTimeout .. => ⟨_, _, exec_stepTimeout, rfl⟩
  | .taskAgeing .. => ⟨_, _, exec_taskAgeing, rfl⟩
  | .trgArm .. => ⟨_, _, exec_trgArm, rfl⟩
  | .trgDisarm .. => ⟨_, _, exec_trgDisarm, rfl⟩
  | .trgFire .. => ⟨_, _, exec_trgFire, rfl⟩
  | .ringArm .. => ⟨_, _, exec_ringArm, rfl⟩
  | .ringDisarm .. => ⟨_, _, exec_ringDisarm, rfl⟩
  | .ringFire .. => ⟨_, _, exec_ringFire, rfl⟩
  | .triggerDecide .. => ⟨_, _, exec_triggerDecide, rfl⟩
  | .rateEval => ⟨_, _, exec_rateEval, rfl⟩
  | .statusRecord => ⟨_, _, exec_statusRecord, rfl⟩
  | .sealInstant => ⟨_, _, exec_sealInstant, rfl⟩
  | .sealSign .. => ⟨_, _, exec_sealSign, rfl⟩
  | .spillMove .. => ⟨_, _, exec_spillMove, rfl⟩
  | .excursionWrite .. => ⟨_, _, exec_excursionWrite, rfl⟩
  | .streamSend .. => ⟨_, _, exec_streamSend, rfl⟩
  | .refresh .. => ⟨_, _, exec_refresh, rfl⟩
  | .scrub .. => ⟨_, _, exec_scrub, rfl⟩
  | .hbmRequestDone .. => ⟨_, _, exec_hbmRequestDone, rfl⟩
  | .hbmRateReq .. => ⟨_, _, exec_hbmRateReq, rfl⟩
  | .retrain .. => ⟨_, _, exec_retrain, rfl⟩
  | .hbmTrainDone .. => ⟨_, _, exec_hbmTrainDone, rfl⟩
  | .calqStart .. => ⟨_, _, exec_calqStart, rfl⟩
  | .calqAbort .. => ⟨_, _, exec_calqAbort, rfl⟩
  | .calPhaseEnd .. => ⟨_, _, exec_calPhaseEnd, rfl⟩
  | .calFitDone .. => ⟨_, _, exec_calFitDone, rfl⟩
  | .calCommit .. => ⟨_, _, exec_calCommit, rfl⟩
  | .calRecordStored .. => ⟨_, _, exec_calRecordStored, rfl⟩
  | .refCheck => ⟨_, _, exec_refCheck, rfl⟩
  | .refCheckDone .. => ⟨_, _, exec_refCheckDone, rfl⟩
  | .hello .. => ⟨_, _, exec_hello, rfl⟩
  | .negotiateTimeout => ⟨_, _, exec_negotiateTimeout, rfl⟩
  | .peerOwnLow => ⟨_, _, exec_peerOwnLow, rfl⟩
  | .ownConflict => ⟨_, _, exec_ownConflict, rfl⟩
  | .presNHigh => ⟨_, _, exec_presNHigh, rfl⟩
  | .ship .. => ⟨_, _, exec_ship, rfl⟩
  | .plausColTimeout => ⟨_, _, exec_plausColTimeout, rfl⟩
  | .keep => ⟨_, _, exec_keep, rfl⟩
  | .peerFrameTimeout => ⟨_, _, exec_peerFrameTimeout, rfl⟩
  | .digestSend => ⟨_, _, exec_digestSend, rfl⟩
  | .digest .. => ⟨_, _, exec_digest, rfl⟩
  | .fwd .. => ⟨_, _, exec_fwd, rfl⟩
  | .ferry .. => ⟨_, _, exec_ferry, rfl⟩
  | .twnJoin .. => ⟨_, _, exec_twnJoin, rfl⟩
  | .joinCopyDone => ⟨_, _, exec_joinCopyDone, rfl⟩
  | .twnLeave .. => ⟨_, _, exec_twnLeave, rfl⟩
  | .twnCol .. => ⟨_, _, exec_twnCol, rfl⟩
  | .colApply .. => ⟨_, _, exec_colApply, rfl⟩
  | .lctl .. => ⟨_, _, exec_lctl, rfl⟩
  | .lctlSend .. => ⟨_, _, exec_lctlSend, rfl⟩
  | .rd .. => ⟨_, _, exec_rd, rfl⟩
  | .wr .. => ⟨_, _, exec_wr, rfl⟩
  | .strm .. => ⟨_, _, exec_strm, rfl⟩
  | .replayTimeout .. => ⟨_, _, exec_replayTimeout, rfl⟩
  | .linkDetect .. => ⟨_, _, exec_linkDetect, rfl⟩
  | .pollDone .. => ⟨_, _, exec_pollDone, rfl⟩
  | .configDone .. => ⟨_, _, exec_configDone, rfl⟩
  | .trainTimeout .. => ⟨_, _, exec_trainTimeout, rfl⟩
  | .recoveryDone .. => ⟨_, _, exec_recoveryDone, rfl⟩
  | .recoveryTimeout .. => ⟨_, _, exec_recoveryTimeout, rfl⟩
  | .lpRetrain .. => ⟨_, _, exec_lpRetrain, rfl⟩
  | .lpEnWrite .. => ⟨_, _, exec_lpEnWrite, rfl⟩
  | .lsEntry .. => ⟨_, _, exec_lsEntry, rfl⟩
  | .ldEntry .. => ⟨_, _, exec_ldEntry, rfl⟩
  | .linkWake .. => ⟨_, _, exec_linkWake, rfl⟩
  | .strLoad .. => ⟨_, _, exec_strLoad, rfl⟩
  | .strCheckDone .. => ⟨_, _, exec_strCheckDone, rfl⟩
  | .strApply .. => ⟨_, _, exec_strApply, rfl⟩
  | .strAbort => ⟨_, _, exec_strAbort, rfl⟩
  | .unload .. => ⟨_, _, exec_unload, rfl⟩
  | .store .. => ⟨_, _, exec_store, rfl⟩
  | .faultRaise .. => ⟨_, _, exec_faultRaise, rfl⟩
  | .reactionBlockReset .. => ⟨_, _, exec_reactionBlockReset, rfl⟩
  | .fltAck .. => ⟨_, _, exec_fltAck, rfl⟩
  | .fltStickyWrite .. => ⟨_, _, exec_fltStickyWrite, rfl⟩
  | .force => ⟨_, _, exec_force, rfl⟩
  | .rstcmdDie => ⟨_, _, exec_rstcmdDie, rfl⟩
  | .rstcmdBlock .. => ⟨_, _, exec_rstcmdBlock, rfl⟩
  | .rstNLow => ⟨_, _, exec_rstNLow, rfl⟩
  | .resetRelease .. => ⟨_, _, exec_resetRelease, rfl⟩
  | .powerOn .. => ⟨_, _, exec_powerOn, rfl⟩
  | .inputOutOfRange => ⟨_, _, exec_inputOutOfRange, rfl⟩
  | .inputReturn => ⟨_, _, exec_inputReturn, rfl⟩
  | .holdupExhausted => ⟨_, _, exec_holdupExhausted, rfl⟩
  | .sensorSample .. => ⟨_, _, exec_sensorSample, rfl⟩
  | .thermalRelease => ⟨_, _, exec_thermalRelease, rfl⟩
  | .loadWindow .. => ⟨_, _, exec_loadWindow, rfl⟩
  | .watchdogExpiry => ⟨_, _, exec_watchdogExpiry, rfl⟩
  | .status .. => ⟨_, _, exec_status, rfl⟩
  | .sensors .. => ⟨_, _, exec_sensors, rfl⟩
  | .history .. => ⟨_, _, exec_history, rfl⟩
  | .logread .. => ⟨_, _, exec_logread, rfl⟩
  | .logmark .. => ⟨_, _, exec_logmark, rfl⟩
  | .update .. => ⟨_, _, exec_update, rfl⟩
  | .updateDone .. => ⟨_, _, exec_updateDone, rfl⟩
  | .activate .. => ⟨_, _, exec_activate, rfl⟩
  | .confirm .. => ⟨_, _, exec_confirm, rfl⟩
  | .rollback .. => ⟨_, _, exec_rollback, rfl⟩
  | .conftoExpiry => ⟨_, _, exec_conftoExpiry, rfl⟩
  | .strcopy .. => ⟨_, _, exec_strcopy, rfl⟩
  | .getreply .. => ⟨_, _, exec_getreply, rfl⟩
  | .replyReady .. => ⟨_, _, exec_replyReady, rfl⟩
  | .replyDiscard .. => ⟨_, _, exec_replyDiscard, rfl⟩
  | .secHello .. => ⟨_, _, exec_secHello, rfl⟩
  | .proof .. => ⟨_, _, exec_proof, rfl⟩
  | .sessionTimeout .. => ⟨_, _, exec_sessionTimeout, rfl⟩
  | .helloLockEnd .. => ⟨_, _, exec_helloLockEnd, rfl⟩
  | .close .. => ⟨_, _, exec_close, rfl⟩
  | .attest .. => ⟨_, _, exec_attest, rfl⟩
  | .cert .. => ⟨_, _, exec_cert, rfl⟩
  | .sealsig .. => ⟨_, _, exec_sealsig, rfl⟩
  | .selftest .. => ⟨_, _, exec_selftest, rfl⟩
  | .enroll .. => ⟨_, _, exec_enroll, rfl⟩
  | .enrollCk .. => ⟨_, _, exec_enrollCk, rfl⟩
  | .revoke .. => ⟨_, _, exec_revoke, rfl⟩
  | .floor .. => ⟨_, _, exec_floor, rfl⟩
  | .mode .. => ⟨_, _, exec_mode, rfl⟩
  | .zeroise .. => ⟨_, _, exec_zeroise, rfl⟩
  | .spillEraseDone => ⟨_, _, exec_spillEraseDone, rfl⟩
  | .treeReady .. => ⟨_, _, exec_treeReady, rfl⟩
  | .portAccess => ⟨_, _, exec_portAccess, rfl⟩
  | .lossOfAlignment .. => ⟨_, _, exec_lossOfAlignment, rfl⟩
  | .entropyHealthFail => ⟨_, _, exec_entropyHealthFail, rfl⟩
  | .ageingLearned => ⟨_, _, exec_ageingLearned, rfl⟩
  | .ovenReady => ⟨_, _, exec_ovenReady, rfl⟩

/-- What a command changes lies within a bound that it owns. -/
theorem exec_does_owned {c : Instr} {s t : State} (h : exec c s = .next t) :
    ∃ ps bs, Does ps bs s t ∧ (∀ p ∈ ps, p.ownedBy c = true ∨ p.resetBy c = true) ∧
      ∀ ws, c.writes = some ws → .regs ∉ ps ∧ ∀ b ∈ bs, b ∈ ws := by
  obtain ⟨ps, bs, ⟨u, hu, hdoes⟩, hown⟩ := exec_runsOwned c s
  obtain rfl : u = t := Host.Outcome.next.inj (hu.symm.trans h)
  simp only [ownsBound, Bool.and_eq_true, List.all_eq_true, Bool.or_eq_true] at hown
  refine ⟨ps, bs, hdoes, hown.1, fun ws hws => ?_⟩
  simpa [hws] using hown.2

/-- A part that a command neither owns nor resets reads as before. -/
theorem exec_keeps_unowned {c : Instr} {s t : State} (h : exec c s = .next t) (p : Part)
    (hreset : p.resetBy c = false) : bif p.ownedBy c then True else p.same s t := by
  obtain ⟨ps, bs, hdoes, hparts, -⟩ := exec_does_owned h
  cases howned : p.ownedBy c with
  | true => trivial
  | false => exact hdoes.same p (fun hp => by simpa [howned, hreset] using hparts p hp) (by rintro rfl; cases howned)

/-- Settles O54: the frame of a command (`exec_runsOwned`) lies within the blocks of `Instr.writes`, and a register of
another block lies in none of them. -/
theorem registersOwned : Obligations.RegistersOwned := by
  unfold Obligations.RegistersOwned
  intro c s t bs hwrites h a ha hisland
  obtain ⟨ps, bs', hdoes, -, hblocks⟩ := exec_does_owned h
  obtain ⟨hregs, hsub⟩ := hblocks bs hwrites
  have hblk : regBlk a ∉ bs := by
    intro hin
    by_cases hlow : a / 0x100000 < 64
    · exact ha (by rwa [regBlk, min_eq_right hlow.le] at hin)
    · exact hlow (hisland (by rwa [regBlk, min_eq_left (not_lt.mp hlow)] at hin))
  exact hdoes.regs hregs a (fun hb => hblk (hsub _ hb))

/-- Settles O55: for each command, each store is its own, or it resets it, or it keeps it (`exec_keeps_unowned`). -/
theorem storesOwned : Obligations.StoresOwned := by
  unfold Obligations.StoresOwned
  intro c s t h
  have keep := exec_keeps_unowned h
  cases c <;> exact
    ⟨keep .spill rfl,
      fun hdie => ⟨keep .hbmMem hdie, keep .sec hdie, keep .power hdie, keep .ctl hdie, keep .count hdie⟩,
      fun hblock => ⟨keep .str hblock, keep .calRec hblock, keep .players hblock, keep .seg hblock,
        keep .stampers hblock, keep .tacs hblock, keep .mons hblock, keep .engs hblock⟩⟩

end Sys2Proof.Machine
end

section
/-! The step of an idle block (O49): what `State.idle` does in each of its cases, and the end of a cycle. -/
namespace Sys2Proof.Machine

theorem step_eq_idle {s : State} (h : s.pending = []) : step s = .next s.idle := by
  unfold step; rw [h]

/-- A command answers a next state, so `nextOr` never falls back. -/
theorem exec_eq_nextOr (c : Instr) (s u : State) : exec c s = .next (nextOr u (exec c s)) := by
  obtain ⟨t, ht, -⟩ := exec_runs (c := c) (s := s)
  rw [ht]; rfl

theorem State.idle_of_raises {s : State} (h : raisesBefore s.nextCycle s.agenda ≠ []) :
    let rs := raisesBefore s.nextCycle s.agenda
    let u := rs.foldl (fun s _ => s.crossed 78 (s.count + cyc 64)) { s with agenda := withoutRaises s.nextCycle s.agenda }
    s.idle = nextOr u (exec (.faultRaise rs) u) := by
  unfold State.idle
  rw [if_pos (by simpa using h)]
  rfl

theorem State.idle_of_due {s : State} {d : Due} {rest : List Due} (h : raisesBefore s.nextCycle s.agenda = [])
    (hd : s.agenda = d :: rest) (hdue : Count.before d.due s.nextCycle = true) :
    s.idle = { State.perform { s with
      dueNow := if Count.before s.count d.due then some d.due else none
      agenda := rest } d with dueNow := none } := by
  unfold State.idle
  rw [if_neg (by simp [h]), hd]
  exact if_pos hdue

theorem State.idle_of_none_due {s : State} (h : raisesBefore s.nextCycle s.agenda = [])
    (hd : ∀ d rest, s.agenda = d :: rest → Count.before d.due s.nextCycle = false) : s.idle = s.endCycle := by
  unfold State.idle
  rw [if_neg (by simp [h])]
  cases hag : s.agenda with
  | nil => rfl
  | cons d rest => exact if_neg (by simp [hd d rest hag])

theorem State.perform_cmd {s : State} {d : Due} {c : Instr} (h : d.act = .cmd c) : s.perform d = nextOr s (exec c s) := by
  unfold State.perform; rw [h]

/-- The work at a cycle's end leaves the count; the count then moves by one cycle (R56). -/
theorem State.endCycle_count (s : State) : s.endCycle.count = Count.cycleStart s.count + 128#72 := by
  have kept {ps : List Part} {bs : List Nat} {u t : State} (h : Does ps bs u t) (hps : Part.count ∉ ps) :
      t.count = u.count := h.same .count hps (by decide)
  have hwork : (s.endScheduler.endEngines.endStreams.bootAdvance.endSafe.endSigs.endShip).count = s.count := by
    rw [kept State.endShip_does (by decide), kept State.endSigs_does (by decide), kept State.endSafe_does (by decide),
      kept State.bootAdvance_does (by decide), kept State.endStreams_does (by decide),
      kept State.endEngines_does (by decide), kept State.endScheduler_does (by decide)]
  exact congrArg (fun n => Count.cycleStart n + 128#72) hwork

theorem State.endCycle_pending (s : State) : s.endCycle.pending = s.pending :=
  State.endCycle_does.same .pending (by decide) (by decide)

theorem State.endCycle_spill (s : State) : s.endCycle.spill = s.spill :=
  State.endCycle_does.same .spill (by decide) (by decide)

/-- Settles O49: the three cases of `State.idle`. -/
theorem idleStep : Obligations.IdleStep := by
  unfold Obligations.IdleStep
  intro s d rest c hpend
  refine ⟨fun hrs => ?raises, fun hrs hd hcmd hdue => ?command, fun hrs hnone => ?cycleEnd⟩
  case raises =>
    exact ⟨_, exec_eq_nextOr _ _ _, by rw [step_eq_idle hpend, State.idle_of_raises hrs]⟩
  case command =>
    exact ⟨_, exec_eq_nextOr _ _ _, by rw [step_eq_idle hpend, State.idle_of_due hrs hd hdue, State.perform_cmd hcmd]⟩
  case cycleEnd =>
    have hidle : s.idle = s.endCycle := by
      refine State.idle_of_none_due hrs (fun d' rest' hag => ?_)
      rcases hnone with hnil | ⟨hd, hbefore⟩
      · simp [hnil] at hag
      · obtain ⟨rfl, rfl⟩ := List.cons.inj (hd.symm.trans hag); exact hbefore
    exact ⟨_, by rw [step_eq_idle hpend, hidle], s.endCycle_count, by rw [s.endCycle_pending, hpend], rfl, rfl, rfl,
      s.endCycle_spill⟩

end Sys2Proof.Machine
end

section
/-! The update of a loop (O14): it is judged, its law works on an engine that is idle, and what it gives is delivered for its
period start. -/
namespace Sys2Proof.Machine

variable {s t : State}

/-! ## Inputs -/

/-- The inputs of every channel read the same: the source, the gangs, the results and the offsets are those of before. -/
structure SameInputs (s t : State) : Prop where
  src : t.reg aLPE_SRC = s.reg aLPE_SRC
  gang : ∀ n c, t.reg (aCH_STAT n c) = s.reg (aCH_STAT n c)
  quants : t.quants = s.quants
  ships : t.ships = s.ships
  offsets : ∀ ch q, t.offset ch q = s.offset ch q

theorem SameInputs.members (h : SameInputs s t) (ch : Nat) : t.members ch = s.members ch := by
  simp only [State.members, State.gangSize, State.leader, State.fld_congr _ (h.gang _ _)]

theorem SameInputs.gangSize (h : SameInputs s t) (ch : Nat) : t.gangSize ch = s.gangSize ch := by
  simp only [State.gangSize, State.fld_congr _ (h.gang _ _)]

theorem SameInputs.quant (h : SameInputs s t) (ch q : Nat) : t.quant ch q = s.quant ch q := by
  simp only [State.quant, State.bit_congr _ h.src, State.shipQuant, State.localQuant, h.quants, h.ships, h.offsets]

theorem SameInputs.inputNow (h : SameInputs s t) (ch q : Nat) : t.inputNow ch q = s.inputNow ch q := by
  simp only [State.inputNow, h.members, h.gangSize, h.quant]

/-! ## Deliveries -/

theorem State.fordSeen_keepsRegs (s : State) (dst lat slack : Nat) :
    KeepsRegs [aBUS_LATMAX dst, aBUS_SLACK dst, aBUS_LAT] s (s.fordSeen dst lat slack) := by
  unfold State.fordSeen
  split
  · extract_lets s1 s2
    have h2 : KeepsRegs [aBUS_LATMAX dst, aBUS_SLACK dst, aBUS_LAT] s s2 :=
      ((KeepsRegs.refl _ s).setReg (by simp) _).setReg (by simp) _
    split
    · exact h2.latch (by simp) _
    · exact h2
  · exact KeepsRegs.refl _ _

theorem State.deliverAt_keepsRegs (s : State) (e ch : Nat) (leaves due : Count) (goff : Bool) (set : List Word) :
    KeepsRegs [aBUS_LATMAX (islOf ch), aBUS_SLACK (islOf ch), aBUS_LAT] s (s.deliverAt e ch leaves due goff set) := by
  unfold State.deliverAt
  extract_lets lat s1
  split
  · exact State.fordSeen_keepsRegs s1 _ _ _
  · exact KeepsRegs.refl _ _

/-- The registers of a delivery (R16, R17, R188). -/
def deliveryRegs (ch : Nat) : List Nat :=
  [aLCH_STAT ch, aLCH_H ch, aBUS_LATMAX (islOf ch), aBUS_SLACK (islOf ch), aBUS_LAT]

theorem State.tickItem_regs (s : State) (it : TickItem) : (s.tickItem it).regs = s.regs := by
  unfold State.tickItem; split <;> rfl

/-- An update that ends `cost` cycles from now leaves a cycle later and crosses a ford in at most 64: it is in time where as
many cycles are left to its period start. -/
theorem upto_of_lead {now start : Count} {cost lat : Nat} (hlat : lat ≤ 64)
    (hlead : 128 * (cost + 65) ≤ (start - now).toNat) (hfar : (start - now).toNat < 2 ^ 70) :
    Count.upto (now + cyc cost + cyc 1 + cyc lat) start = true := by
  have hgap : (start - (now + cyc cost + cyc 1 + cyc lat)).toNat = (start - now).toNat - 128 * (cost + 1 + lat) := by
    have : start - (now + cyc cost + cyc 1 + cyc lat) = (start - now) - cyc (cost + 1 + lat) := by
      simp only [cyc, Nat.mul_add, BitVec.ofNat_add]; ring
    rw [this, BitVec.toNat_sub_of_le]
    · congr 1; simp only [cyc, BitVec.toNat_ofNat]; omega
    · simp only [BitVec.le_def, cyc, BitVec.toNat_ofNat]; omega
  simp only [Count.upto, Count.before, Bool.not_eq_true', BitVec.msb_eq_decide, hgap, decide_eq_false_iff_not]
  omega

theorem State.deliverAt_agenda (s : State) {e ch cost : Nat} {due : Count} (goff : Bool) (set : List Word)
    (hlead : 128 * (cost + 65) ≤ (Count.cycleStart due - s.count).toNat)
    (hfar : (Count.cycleStart due - s.count).toNat < 2 ^ 70) :
    (⟨due, .island (engIsl e), .edges (chanFin ch) goff set⟩ : Due) ∈
      (s.deliverAt e ch (s.count + cyc cost + cyc 1) due goff set).agenda := by
  unfold State.deliverAt
  extract_lets lat s1
  have hlat : lat ≤ 64 := by have := Nat.mod_lt (Config.fordLatency s.free) (show 65 > 0 by decide); omega
  rw [if_pos (upto_of_lead hlat hlead hfar)]
  simp [mem_insertDue]

/-! ## The end of an update -/

theorem State.finish_keepsRegs (s : State) (e ch : Nat) (leaves due : Count) (goff : Bool) (set : List Word) (h : Option Nat) :
    KeepsRegs (deliveryRegs ch) s (s.finish e ch leaves due goff set h) := by
  unfold State.finish
  extract_lets s1 s2
  have h2 : KeepsRegs (deliveryRegs ch) s s2 := by
    have h1 : KeepsRegs (deliveryRegs ch) s s1 := (KeepsRegs.refl _ s).setBit (by simp [deliveryRegs]) _ _
    cases h with
    | none => exact h1
    | some v => exact h1.setReg (by simp [deliveryRegs]) _
  exact (h2.trans (KeepsRegs.of_regs (State.tickItem_regs _ _) _)).trans
    ((State.deliverAt_keepsRegs _ _ _ _ _ _ _).mono (by simp +contextual [deliveryRegs]))

/-- LCH_STAT and LCH_H after a delivery that shows H. -/
theorem State.finish_shown (s : State) {ch : Nat} (e : Nat) (leaves due : Count) (goff : Bool) (set : List Word) (v : Nat) :
    let t := s.finish e ch leaves due goff set (some v)
    t.reg (aLCH_STAT ch) = (s.setBit (aLCH_STAT ch) fLCH_STAT_GOFF goff).reg (aLCH_STAT ch) ∧
      t.reg (aLCH_H ch) = fldWord fLCH_H_H v := by
  unfold State.finish
  extract_lets s1 s2 t
  have hkeep {a : Nat} (ha : a = aLCH_STAT ch ∨ a = aLCH_H ch) : t.reg a = s2.reg a := by
    rw [← State.reg_of_regs (State.tickItem_regs s2 _) a]
    refine State.deliverAt_keepsRegs _ _ _ _ _ _ _ a ?_
    simp only [List.mem_cons, List.not_mem_nil, or_false, aBUS_LATMAX, aBUS_SLACK, aBUS_LAT]
    simp only [aLCH_STAT, aLCH_H] at ha
    omega
  refine ⟨?_, ?_⟩
  · rw [hkeep (.inl rfl)]
    exact State.reg_setReg_ne _ _ (by simp only [aLCH_STAT, aLCH_H]; omega)
  · rw [hkeep (.inr rfl)]
    exact State.reg_setReg_self _ _ _

theorem State.finish_agenda (s : State) {e ch cost : Nat} {due : Count} (goff : Bool) (set : List Word) (h : Option Nat)
    (hlead : 128 * (cost + 65) ≤ (Count.cycleStart due - s.count).toNat)
    (hfar : (Count.cycleStart due - s.count).toNat < 2 ^ 70) :
    (⟨due, .island (engIsl e), .edges (chanFin ch) goff set⟩ : Due) ∈
      (s.finish e ch (s.count + cyc cost + cyc 1) due goff set h).agenda := by
  unfold State.finish
  extract_lets s1 s2
  have hcount : ∀ it, (s2.tickItem it).count = s.count := fun it => by
    rw [State.tickItem_does.same .count (by decide) (by decide)]
    cases h <;> rfl
  rw [← hcount] at hlead hfar ⊢
  exact State.deliverAt_agenda _ goff set hlead hfar

/-! ## The engine -/

theorem State.bgCut_of_idle {e : Nat} (h : (s.eng e).running = none) : s.bgCut e = s := by
  unfold State.bgCut; rw [h]

/-- An update on an idle engine begins at once: nothing is cut, and it ends after its cost. -/
theorem State.occupy_of_idle {e : Nat} (cost : Nat) (hrun : (s.eng e).running = none)
    (hidle : ∀ b, (s.eng e).busyUntil = some b → Count.before s.count b = false) :
    ∃ x v, x.busyUntil = some (s.count + cyc cost) ∧
      s.occupy e cost = ((s.setEng e x).maxReg (aENG_MAXD e) v, s.count + cyc cost) := by
  unfold State.occupy
  extract_lets x start stop kept
  have hstart : start = s.count := by
    unfold start x
    cases hb : (s.eng e).busyUntil with
    | none => rfl
    | some b => simp [hidle b hb]
  refine ⟨{ x with busyUntil := some stop, recent := (s.count, cost) :: kept }, (start - s.count).toNat / 128, ?_, ?_⟩
  · simp only [stop, hstart]
  · have hkept : ((s.setEng e { x with busyUntil := some stop, recent := (s.count, cost) :: kept }).eng e).running = none := by
      rw [State.setEng_eng, if_pos rfl]; exact hrun
    exact Prod.ext (State.bgCut_of_idle hkept) (by simp only [stop, hstart])

theorem State.bgCatch_of_idle {e : Nat} (hrun : (s.eng e).running = none) (hcommit : (s.eng e).commit = none) :
    s.bgCatch e = s := by
  have hshow : s.bgShow e = s := by unfold State.bgShow; rw [hcommit]
  have hrun' : ∀ stop n, s.bgUpTo e stop n none = s := fun stop n => by unfold State.bgUpTo; rw [hrun]
  unfold State.bgCatch
  rw [hshow, hrun', hshow, ite_self]

/-! ## Judging an update -/

/-- What judging an update shows first: the run of mismatches and NOMEAS (R171, R187). -/
def State.judgeStart (s : State) (ch : Nat) (lacks mismatch : Bool) : State :=
  (s.setLch ch { s.lch ch with mismatchRun := mismatch }).setBit (aLCH_STAT ch) fLCH_STAT_NOMEAS lacks

/-- What judging an update shows in all: with that, the latches and the count of an update without its quantities or with a
block of another law (R171, R178). -/
def State.judgeShown (s : State) (ch : Nat) (lacks mismatch : Bool) : State :=
  let s1 := s.judgeStart ch lacks mismatch
  let s2 := if lacks then (s1.latch aLPE_LAT fLPE_LAT_NOMEAS).bump (aLCH_NOM ch) else s1
  if mismatch then s2.latch aLPE_LAT fLPE_LAT_MISMATCH else s2

theorem State.causeOn_regs (s : State) (fs i : Nat) : (s.causeOn fs i).regs = s.regs := by
  unfold State.causeOn; split <;> rfl

theorem State.causeOn_loops (s : State) (fs i : Nat) : (s.causeOn fs i).loops = s.loops := by
  unfold State.causeOn; split <;> rfl

theorem State.latch_regs {t u : State} (h : t.regs = u.regs) (a : Nat) (f : Fld) : (t.latch a f).regs = (u.latch a f).regs := by
  unfold State.latch State.setFld State.setReg State.mark State.reg; rw [h]

theorem State.judgeUpdate_shown (s : State) (e ch : Nat) (lacks mismatch : Bool) :
    (s.judgeUpdate e ch lacks mismatch).regs = (s.judgeShown ch lacks mismatch).regs ∧
      (s.judgeUpdate e ch lacks mismatch).loops = (s.judgeShown ch lacks mismatch).loops := by
  unfold State.judgeUpdate State.judgeShown
  extract_lets x s1 s2 s3 s4 u1 u2
  have h2 : s2.regs = u2.regs ∧ s2.loops = u2.loops := by unfold s2 u2; split <;> exact ⟨rfl, rfl⟩
  have h3 : s3.regs = u2.regs ∧ s3.loops = u2.loops := by
    unfold s3
    split
    · exact ⟨(s2.causeOn_regs 50 ch).trans h2.1, (s2.causeOn_loops 50 ch).trans h2.2⟩
    · exact h2
  have h4 : s4.regs = (u2.latch aLPE_LAT fLPE_LAT_MISMATCH).regs ∧ s4.loops = u2.loops :=
    ⟨State.latch_regs h3.1 _ _, h3.2⟩
  split
  · split
    · exact h4
    · exact ⟨(s4.causeOn_regs 49 ch).trans h4.1, (s4.causeOn_loops 49 ch).trans h4.2⟩
  · exact h3

theorem State.judgeUpdate_lch (s : State) (e ch k : Nat) (lacks mismatch : Bool) :
    (s.judgeUpdate e ch lacks mismatch).lch k = if k = ch then { s.lch ch with mismatchRun := mismatch } else s.lch k := by
  rw [← State.setLch_lch, State.lch, (State.judgeUpdate_shown s e ch lacks mismatch).2]
  cases lacks <;> cases mismatch <;> rfl

/-- The registers beside LCH_STAT that judging an update writes. -/
def judgeRegs (ch : Nat) (lacks mismatch : Bool) : List Nat :=
  (if lacks then [aLPE_LAT, aLCH_NOM ch] else []) ++ if mismatch then [aLPE_LAT] else []

theorem State.judgeUpdate_keepsRegs_start (s : State) (e ch : Nat) (lacks mismatch : Bool) :
    KeepsRegs (judgeRegs ch lacks mismatch) (s.judgeStart ch lacks mismatch) (s.judgeUpdate e ch lacks mismatch) := by
  refine KeepsRegs.trans ?_ (KeepsRegs.of_regs (State.judgeUpdate_shown s e ch lacks mismatch).1 _)
  unfold State.judgeShown
  have hrefl := KeepsRegs.refl (judgeRegs ch lacks mismatch) (s.judgeStart ch lacks mismatch)
  cases lacks <;> cases mismatch
  · exact hrefl
  · exact hrefl.latch (by simp [judgeRegs]) _
  · exact (hrefl.latch (by simp [judgeRegs]) _).bump (by simp [judgeRegs])
  · exact ((hrefl.latch (by simp [judgeRegs]) _).bump (by simp [judgeRegs])).latch (by simp [judgeRegs]) _

theorem State.judgeUpdate_keepsRegs (s : State) (e ch : Nat) (lacks mismatch : Bool) :
    KeepsRegs (aLCH_STAT ch :: judgeRegs ch lacks mismatch) s (s.judgeUpdate e ch lacks mismatch) :=
  (KeepsRegs.setBit (KeepsRegs.of_regs rfl _) (by simp) _ _).trans
    ((State.judgeUpdate_keepsRegs_start s e ch lacks mismatch).mono (by simp +contextual))

theorem State.judgeUpdate_nomeas (s : State) (e ch : Nat) (lacks mismatch : Bool) :
    (s.judgeUpdate e ch lacks mismatch).bit (aLCH_STAT ch) fLCH_STAT_NOMEAS = lacks := by
  have hkeep : aLCH_STAT ch ∉ judgeRegs ch lacks mismatch := by
    cases lacks <;> cases mismatch <;> simp [judgeRegs, aLPE_LAT, aLCH_NOM, aLCH_STAT] <;> omega
  rw [State.bit_congr _ (State.judgeUpdate_keepsRegs_start s e ch lacks mismatch _ hkeep)]
  exact State.bit_setBit_self _ _ _ _ rfl (by decide)

theorem State.judgeUpdate_nom_latched (s : State) (e ch : Nat) (mismatch : Bool) :
    (s.judgeUpdate e ch true mismatch).bit aLPE_LAT fLPE_LAT_NOMEAS = true := by
  rw [State.bit_congr _ (State.reg_of_regs (State.judgeUpdate_shown s e ch true mismatch).1 _)]
  have hnom : (((s.judgeStart ch true mismatch).latch aLPE_LAT fLPE_LAT_NOMEAS).bump (aLCH_NOM ch)).bit aLPE_LAT
      fLPE_LAT_NOMEAS = true := by
    refine (State.bit_congr _ (State.reg_setReg_ne _ _ ?_)).trans (State.bit_latch_self _ _ _ rfl (by decide))
    simp only [aLPE_LAT, aLCH_NOM]; omega
  cases mismatch
  · exact hnom
  · exact (State.bit_latch_beside _ _ _ _ (by decide) (by decide) (by decide)).trans hnom

theorem State.judgeUpdate_nom_counted (s : State) (e ch : Nat) (mismatch : Bool) :
    ((s.judgeUpdate e ch true mismatch).reg (aLCH_NOM ch)).toNat = min 0xFFFFFFFF ((s.reg (aLCH_NOM ch)).toNat + 1) := by
  rw [State.reg_of_regs (State.judgeUpdate_shown s e ch true mismatch).1]
  have hne : aLCH_NOM ch ≠ aLCH_STAT ch ∧ aLCH_NOM ch ≠ aLPE_LAT := by
    simp only [aLPE_LAT, aLCH_NOM, aLCH_STAT]; omega
  have hbefore : ((s.judgeStart ch true mismatch).latch aLPE_LAT fLPE_LAT_NOMEAS).reg (aLCH_NOM ch) =
      s.reg (aLCH_NOM ch) :=
    (State.reg_setReg_ne _ _ hne.2).trans (State.reg_setReg_ne _ _ hne.1)
  rw [← hbefore, ← State.reg_bump_toNat]
  cases mismatch
  · rfl
  · exact congrArg _ (State.reg_setReg_ne _ _ hne.2)

theorem State.judgeUpdate_mismatch_latched (s : State) (e ch : Nat) (lacks : Bool) :
    (s.judgeUpdate e ch lacks true).bit aLPE_LAT fLPE_LAT_MISMATCH = true := by
  rw [State.bit_congr _ (State.reg_of_regs (State.judgeUpdate_shown s e ch lacks true).1 _)]
  exact State.bit_latch_self _ _ _ rfl (by decide)

theorem State.causeAt_causeOff_ne (s : State) {fs fs' : Nat} (i j : Nat) (h : fs ≠ fs') :
    (s.causeOff fs' j).causeAt fs i = s.causeAt fs i := by
  simp only [State.causeOff, State.causeAt, List.any_filter]
  congr 1; funext c
  by_cases hc : c = (fs, i) <;> simp_all

theorem State.judgeUpdate_of_mismatch (s : State) (e ch : Nat) :
    s.judgeUpdate e ch false true =
      let u := ((s.judgeStart ch false true).causeOff 50 ch).latch aLPE_LAT fLPE_LAT_MISMATCH
      if (s.lch ch).mismatchRun then u else (u.causeOn 49 ch).raise 49 (engIsl e) := rfl

/-- FS 49's cause after an update whose block has another law: it stands, or the run of mismatches had begun and it is as
before (R187). -/
theorem State.judgeUpdate_cause (s : State) (e ch : Nat) :
    (s.judgeUpdate e ch false true).causeAt 49 ch = ((s.lch ch).mismatchRun == false || s.causeAt 49 ch) := by
  rw [State.judgeUpdate_of_mismatch]
  cases (s.lch ch).mismatchRun with
  | false => exact State.causeAt_causeOn _ 49 ch
  | true => exact State.causeAt_causeOff_ne (s.judgeStart ch false true) _ _ (by decide)

/-! ## The update up to its law -/

/-- The parameter block in force for a channel (R175). -/
def State.blockOf (s : State) (c : Nat) : List Byte :=
  s.blockBytes (s.lch c).eng (s.generation (s.lch c).eng (s.blkOf c)) (s.blkOf c)

/-- A channel's block is one of another law (R178). -/
def State.mismatches (s : State) (c : Nat) : Bool := byteAt (s.blockOf c) 0 != s.lawOf c

/-- The state in which an update that is due is judged: the period is served, LCH_LAW shows the generation and LCH_UPD
counts. -/
def State.taken (s : State) (c : Nat) (due : Count) : State :=
  ((s.setLch c { s.lch c with last := some due }).setFld (aLCH_LAW c) fLCH_LAW_GEN
    (s.generation (s.lch c).eng (s.blkOf c))).bump (aLCH_UPD c)

/-- The state in which an update's law runs. -/
def State.judged (s : State) (c : Nat) (due : Count) : State :=
  (s.taken c due).judgeUpdate (s.lch c).eng c (s.lawLacks c (s.lawOf c)) (s.mismatches c)

theorem SameInputs.setLch (s : State) (c : Nat) (due : Count) :
    SameInputs s (s.setLch c { s.lch c with last := some due }) where
  src := rfl
  gang _ _ := rfl
  quants := rfl
  ships := rfl
  offsets ch q := by
    unfold State.offset
    rw [State.setLch_lch]
    by_cases h : ch = c <;> simp [h]

theorem State.lawLacks_setLch (s : State) (c : Nat) (due : Count) (law : Nat) :
    (s.setLch c { s.lch c with last := some due }).lawLacks c law = s.lawLacks c law := by
  have h := SameInputs.setLch s c due
  have hquant : ∀ ch q, (s.setLch c { s.lch c with last := some due }).quantIn ch q = s.quantIn ch q := fun ch q => by
    unfold State.quantIn
    simp only [h.quant]
    rfl
  have hin : ∀ ch q, (s.setLch c { s.lch c with last := some due }).inputIn ch q = s.inputIn ch q := fun ch q => by
    simp only [State.inputIn, h.members, hquant]
  simp only [State.lawLacks, hin]
  rfl

/-- An update that is due, on an engine that is not TRAPPED and has no routine: it is judged, and then runs its law where it
may. -/
theorem State.runUpdate_of_due {c : Nat} {due : Count} {per index : Nat} (hdue : s.updateDue c = some (due, per, index))
    (hrun : (s.eng (s.lch c).eng).running = none) (hcommit : (s.eng (s.lch c).eng).commit = none)
    (htrap : s.trapped (s.lch c).eng = false) :
    s.runUpdate c none =
      if s.lawLacks c (s.lawOf c) || s.mismatches c then (s.judged c due).noLaw (s.lch c).eng c due
      else if s.ctl.isStandard (s.lawOf c) then
        (s.judged c due).runStandard (s.lch c).eng c (s.lawOf c) (s.blockOf c) due per
      else (s.judged c due).runCustom (s.lch c).eng c (s.lawOf c) (s.blockOf c) due per index none := by
  unfold State.runUpdate
  rw [hdue]
  dsimp only
  have huntrapped : ¬ (s.setLch c { s.lch c with last := some due }).trapped (s.lch c).eng = true :=
    Bool.eq_false_iff.mp htrap
  rw [State.bgCatch_of_idle hrun hcommit, if_neg huntrapped]
  unfold State.judged
  rw [← State.lawLacks_setLch s c due]
  rfl

theorem State.taken_keepsRegs (s : State) (c : Nat) (due : Count) :
    KeepsRegs [aLCH_LAW c, aLCH_UPD c] s (s.taken c due) :=
  (KeepsRegs.setReg (KeepsRegs.of_regs rfl _) (by simp) _).bump (by simp)

theorem State.taken_counted (s : State) (c : Nat) (due : Count) :
    ((s.taken c due).reg (aLCH_UPD c)).toNat = min 0xFFFFFFFF ((s.reg (aLCH_UPD c)).toNat + 1) := by
  unfold State.taken
  rw [State.reg_bump_toNat, State.reg_setFld_ne _ _ _ (by simp only [aLCH_UPD, aLCH_LAW]; omega)]
  rfl

theorem State.taken_lch (s : State) (c k : Nat) (due : Count) :
    (s.taken c due).lch k = if k = c then { s.lch c with last := some due } else s.lch k := State.setLch_lch _ _ _ _

theorem State.taken_does (s : State) (c : Nat) (due : Count) : Does [.fresh, .loops] [6] s (s.taken c due) := by
  unfold State.taken
  refine Does.bump adr_LCH_UPD (by decide) ?_
  refine Does.setFld adr_LCH_LAW (by decide) ?_
  exact Does.call State.setLch_does (by decide) Does.refl

theorem State.judged_does (s : State) (c : Nat) (due : Count) :
    Does [.agenda, .causes, .fresh, .loops] [6] s (s.judged c due) :=
  State.judgeUpdate_does.after ((State.taken_does s c due).mono (by decide))

theorem State.judged_lch (s : State) (c k : Nat) (due : Count) :
    (s.judged c due).lch k =
      if k = c then { s.lch c with last := some due, mismatchRun := s.mismatches c } else s.lch k := by
  unfold State.judged
  rw [State.judgeUpdate_lch]
  by_cases h : k = c <;> simp [h, State.taken_lch]

theorem State.judged_area (s : State) (c : Nat) (due : Count) : ((s.judged c due).lch c).area = (s.lch c).area := by
  rw [State.judged_lch, if_pos rfl]

theorem State.judged_count (s : State) (c : Nat) (due : Count) : (s.judged c due).count = s.count :=
  (s.judged_does c due).same .count (by decide) (by decide)

theorem State.judged_ctl (s : State) (c : Nat) (due : Count) : (s.judged c due).ctl = s.ctl :=
  (s.judged_does c due).same .ctl (by decide) (by decide)

/-- The registers written until an update's law runs. -/
def judgedRegs (c : Nat) (lacks mismatch : Bool) : List Nat :=
  aLCH_LAW c :: aLCH_UPD c :: aLCH_STAT c :: judgeRegs c lacks mismatch

theorem State.judged_keepsRegs (s : State) (c : Nat) (due : Count) :
    KeepsRegs (judgedRegs c (s.lawLacks c (s.lawOf c)) (s.mismatches c)) s (s.judged c due) :=
  ((s.taken_keepsRegs c due).mono (by simp +contextual [judgedRegs])).trans
    (((s.taken c due).judgeUpdate_keepsRegs _ c _ _).mono (by simp +contextual [judgedRegs]))

theorem State.judged_counted (s : State) (c : Nat) (due : Count) :
    ((s.judged c due).reg (aLCH_UPD c)).toNat = min 0xFFFFFFFF ((s.reg (aLCH_UPD c)).toNat + 1) := by
  rw [← s.taken_counted c due]
  refine congrArg _ ((s.taken c due).judgeUpdate_keepsRegs _ c _ _ _ ?_)
  cases s.lawLacks c (s.lawOf c) <;> cases s.mismatches c <;>
    simp [judgeRegs, aLCH_UPD, aLCH_STAT, aLCH_NOM, aLPE_LAT] <;> omega

/-- What an update without its quantities latches and counts (R171). -/
theorem State.judged_of_lacks {c : Nat} (due : Count) (h : s.lawLacks c (s.lawOf c) = true) :
    (s.judged c due).bit aLPE_LAT fLPE_LAT_NOMEAS = true ∧
      ((s.judged c due).reg (aLCH_NOM c)).toNat = min 0xFFFFFFFF ((s.reg (aLCH_NOM c)).toNat + 1) := by
  have hnom : (s.taken c due).reg (aLCH_NOM c) = s.reg (aLCH_NOM c) := s.taken_keepsRegs c due _ (by simp)
  unfold State.judged
  rw [h]
  exact ⟨State.judgeUpdate_nom_latched _ _ _ _, by rw [State.judgeUpdate_nom_counted, hnom]⟩

/-- What an update whose block has another law latches, and FS 49's cause (R178, R187). -/
theorem State.judged_of_mismatch {c : Nat} (due : Count) (hlacks : s.lawLacks c (s.lawOf c) = false)
    (hmismatch : s.mismatches c = true) :
    (s.judged c due).bit aLPE_LAT fLPE_LAT_MISMATCH = true ∧
      (s.judged c due).causeAt 49 c = ((s.lch c).mismatchRun == false || s.causeAt 49 c) := by
  have hrun : ((s.taken c due).lch c).mismatchRun = (s.lch c).mismatchRun := by rw [State.taken_lch, if_pos rfl]
  unfold State.judged
  rw [hlacks, hmismatch]
  exact ⟨State.judgeUpdate_mismatch_latched _ _ _ _, by rw [State.judgeUpdate_cause, hrun]; rfl⟩

/-- What a law reads lies outside the registers written before it runs. -/
theorem State.judged_reg (s : State) {c : Nat} (due : Count) {a : Nat}
    (ha : a ∉ [aLCH_LAW c, aLCH_UPD c, aLCH_STAT c, aLPE_LAT, aLCH_NOM c]) : (s.judged c due).reg a = s.reg a := by
  refine s.judged_keepsRegs c due a (fun hin => ha ?_)
  revert hin
  cases s.lawLacks c (s.lawOf c) <;> cases s.mismatches c <;> simp +contextual [judgedRegs, judgeRegs] <;> tauto

theorem SameInputs.judged (s : State) (c : Nat) (due : Count) : SameInputs s (s.judged c due) where
  src := s.judged_reg due (by
    simp only [List.mem_cons, List.not_mem_nil, or_false, aLPE_SRC, aLCH_LAW, aLCH_UPD, aLCH_STAT, aLPE_LAT, aLCH_NOM]; omega)
  gang n k := s.judged_reg due (by
    simp only [List.mem_cons, List.not_mem_nil, or_false, aCH_STAT, aLCH_LAW, aLCH_UPD, aLCH_STAT, aLPE_LAT, aLCH_NOM]; omega)
  quants := (s.judged_does c due).same .quants (by decide) (by decide)
  ships := (s.judged_does c due).same .ships (by decide) (by decide)
  offsets ch q := by
    unfold State.offset
    rw [State.judged_lch]
    by_cases h : ch = c <;> simp [h]

/-! ## The law and its delivery -/

/-- An engine on which an update may begin at once: no routine runs, and the update before is over. -/
def State.engIdle (s : State) (e : Nat) : Prop :=
  (s.eng e).running = none ∧ ∀ b, (s.eng e).busyUntil = some b → Count.before s.count b = false

/-- A delivery in time: after work of `cost` cycles, the cycle in which the update leaves, and the longest ford. -/
def State.inTime (s : State) (cost : Nat) (due : Count) : Prop :=
  128 * (cost + 65) ≤ (Count.cycleStart due - s.count).toNat ∧ (Count.cycleStart due - s.count).toNat < 2 ^ 70

/-- The registers of an update's work and delivery. -/
def workRegs (e c : Nat) : List Nat := aENG_MAXD e :: deliveryRegs c

/-- What the work of an update shows and delivers: the edge set or GOFF for its period start, H, the state area, and the end
of the work after its cost. -/
structure Delivers (e c cost : Nat) (due : Count) (goff : Bool) (set : List Word) (h : Nat) (area : List Byte) (s t : State) :
    Prop where
  shows_h : t.reg (aLCH_H c) = fldWord fLCH_H_H h
  shows_goff : t.bit (aLCH_STAT c) fLCH_STAT_GOFF = goff
  leaves_area : (t.lch c).area = area
  holds : (⟨due, .island (engIsl e), .edges (chanFin c) goff set⟩ : Due) ∈ t.agenda
  busy : (t.eng e).busyUntil = some (s.count + cyc cost)
  regs : KeepsRegs (workRegs e c) s t

/-- The work of an update on an idle engine, and the delivery of what it gives: `f` sets the channel's state and what LCH_STAT
shows of it. -/
theorem delivers_finish {e c cost : Nat} {due : Count} {goff : Bool} {set : List Word} {h : Nat} {area : List Byte}
    (f : State → State) (hidle : s.engIdle e) (htime : s.inTime cost due) (hf : ∀ u, KeepsRegs [aLCH_STAT c] u (f u))
    (hcount : ∀ u, (f u).count = u.count) (hengs : ∀ u, (f u).engs = u.engs)
    (harea : ((f (s.occupy e cost).1).lch c).area = area) :
    Delivers e c cost due goff set h area s
      ((f (s.occupy e cost).1).finish e c ((s.occupy e cost).2 + cyc 1) due goff set (some h)) := by
  obtain ⟨x, v, hx, hocc⟩ := State.occupy_of_idle cost hidle.1 hidle.2
  rw [hocc] at harea ⊢
  generalize hw : (s.setEng e x).maxReg (aENG_MAXD e) v = w at harea ⊢
  have hwork : KeepsRegs (workRegs e c) s w := by
    rw [← hw]; exact KeepsRegs.setReg (KeepsRegs.of_regs rfl _) (by simp [workRegs]) _
  have hnow : (f w).count = s.count := (hcount w).trans (by rw [← hw]; rfl)
  obtain ⟨hstat, hh⟩ := (f w).finish_shown e (s.count + cyc cost + cyc 1) due goff set h (ch := c)
  refine ⟨hh, ?goff, ?area, ?held, ?busy, ?regs⟩
  case goff => exact (State.bit_congr _ hstat).trans (State.bit_setBit_self _ _ _ _ rfl (by decide))
  case area =>
    rw [← harea]
    unfold State.lch
    rw [State.finish_does.same .loops (by decide) (by decide)]
  case held =>
    have hlead := htime
    unfold State.inTime at hlead
    rw [← hnow] at hlead ⊢
    exact (f w).finish_agenda goff set _ hlead.1 hlead.2
  case busy =>
    unfold State.eng
    rw [State.finish_does.same .engs (by decide) (by decide), hengs, ← hw]
    exact (congrArg LoopEng.busyUntil ((State.setEng_eng s e e x).trans (if_pos rfl))).trans hx
  case regs =>
    exact (hwork.trans ((hf w).mono (by simp [workRegs, deliveryRegs]))).trans
      (((f w).finish_keepsRegs e c _ due goff set _).mono (by simp +contextual [workRegs]))

/-- A delivery leaves what LCH_STAT shows beside GOFF. -/
theorem State.finish_bit_beside (s : State) {c : Nat} (e : Nat) (leaves due : Count) (goff : Bool) (set : List Word) (h : Nat)
    (g : Fld) (hg : g.hi < 1 ∨ 1 < g.lo) :
    (s.finish e c leaves due goff set (some h)).bit (aLCH_STAT c) g = s.bit (aLCH_STAT c) g :=
  (State.bit_congr _ (s.finish_shown e leaves due goff set h).1).trans
    (State.bit_setBit_beside _ _ _ _ _ (by decide) (by decide) hg)

theorem State.noLaw_delivers {e c : Nat} {due : Count} (hidle : s.engIdle e) (htime : s.inTime 8 due) :
    Delivers e c 8 due true [] 0 (s.lch c).area s (s.noLaw e c due) := by
  have hloops : (s.occupy e 8).1.loops = s.loops := State.occupy_does.same .loops (by decide) (by decide)
  exact delivers_finish id hidle htime (fun u => KeepsRegs.refl _ u) (fun _ => rfl) (fun _ => rfl)
    (by simp only [id, State.lch, hloops])

theorem State.noLaw_nomeas {e c : Nat} {due : Count} (hidle : s.engIdle e) :
    (s.noLaw e c due).bit (aLCH_STAT c) fLCH_STAT_NOMEAS = s.bit (aLCH_STAT c) fLCH_STAT_NOMEAS := by
  obtain ⟨x, v, -, hocc⟩ := State.occupy_of_idle 8 hidle.1 hidle.2
  refine (State.finish_bit_beside _ _ _ _ _ _ _ _ (by decide)).trans ?_
  rw [hocc]
  exact State.bit_congr _ (State.reg_setReg_ne _ _ (by simp only [aLCH_STAT, aENG_MAXD]; omega))

/-- What a standard law computes for a channel on its inputs and its state (R174, R180). -/
def State.lawOut (s : State) (c law : Nat) (pb : List Byte) (per : Nat) : LawOut :=
  stdLaw law pb (s.reg (aPL_SP c)).toInt (s.inputNow c 0).1.toInt (s.inputNow c 1).1.toInt (per : Int)
    ((s.reg (aLCH_RVB c)).toNat : Int) (s.reg (aLCH_DTC c)).toInt (s.lch c).xv (s.lch c).xi (s.lch c).ic (s.lch c).newLaw

theorem State.runStandard_rest_delivers {e c per : Nat} {due : Count} (pb : List Byte) (hidle : s.engIdle e)
    (htime : s.inTime (s.ctl.lawCost 6) due) :
    Delivers e c (s.ctl.lawCost 6) due true [] 0 (putLawState (s.lch c).area (s.lch c).xv 0 0) s
      (s.runStandard e c 6 pb due per) :=
  delivers_finish (fun u => u.setLch c { s.lch c with
      first := false
      newLaw := false
      area := putLawState (s.lch c).area (s.lch c).xv 0 0 })
    hidle htime (fun u => KeepsRegs.of_regs rfl _) (fun _ => rfl) (fun _ => rfl) (by simp)

/-- The channel's state and CV set as a standard law leaves them. -/
def State.lawLeft (s u : State) (c : Nat) (o : LawOut) : State :=
  (u.setLch c { s.lch c with
    first := false
    newLaw := false
    area := putLawState (s.lch c).area o.xv o.xi o.ic }).setBit (aLCH_STAT c) fLCH_STAT_CV o.cv

theorem State.runStandard_eq {e c law per : Nat} {due : Count} (pb : List Byte) (hlaw : law ≠ 6) :
    s.runStandard e c law pb due per =
      let r := s.occupy e (s.ctl.lawCost law)
      let o := s.lawOut c law pb per
      let h := boundH pb o.h (per : Int)
      (s.lawLeft r.1 c o).finish e c (r.2 + cyc 1) due false (edgeSet h (per : Int)) (some h.toNat) := by
  unfold State.runStandard
  exact if_neg hlaw

theorem State.runStandard_delivers {e c law per : Nat} {due : Count} (pb : List Byte) (hlaw : law ≠ 6) (hidle : s.engIdle e)
    (htime : s.inTime (s.ctl.lawCost law) due) :
    let o := s.lawOut c law pb per
    let h := boundH pb o.h (per : Int)
    Delivers e c (s.ctl.lawCost law) due false (edgeSet h (per : Int)) h.toNat
      (putLawState (s.lch c).area o.xv o.xi o.ic) s (s.runStandard e c law pb due per) := by
  rw [State.runStandard_eq pb hlaw]
  exact delivers_finish (fun u => s.lawLeft u c (s.lawOut c law pb per)) hidle htime
    (fun u => KeepsRegs.setBit (KeepsRegs.of_regs rfl _) (by simp) _ _) (fun _ => rfl) (fun _ => rfl)
    (congrArg LoopChan.area ((State.setLch_lch _ c c _).trans (if_pos rfl)))

theorem State.runStandard_cv {e c law per : Nat} {due : Count} (pb : List Byte) (hlaw : law ≠ 6) :
    (s.runStandard e c law pb due per).bit (aLCH_STAT c) fLCH_STAT_CV = (s.lawOut c law pb per).cv := by
  rw [State.runStandard_eq pb hlaw]
  exact (State.finish_bit_beside _ _ _ _ _ _ _ _ (by decide)).trans (State.bit_setBit_self _ _ _ _ rfl (by decide))

/-! ## LOOP_UPDATE -/

theorem State.judged_lawOut (s : State) (c law : Nat) (pb : List Byte) (per : Nat) (due : Count) :
    (s.judged c due).lawOut c law pb per = s.lawOut c law pb per := by
  have hreg {a : Nat} (ha : a = aPL_SP c ∨ a = aLCH_RVB c ∨ a = aLCH_DTC c) : (s.judged c due).reg a = s.reg a := by
    refine s.judged_reg due ?_
    simp only [List.mem_cons, List.not_mem_nil, or_false, aLCH_LAW, aLCH_UPD, aLCH_STAT, aLPE_LAT, aLCH_NOM]
    simp only [aPL_SP, aLCH_RVB, aLCH_DTC] at ha
    omega
  have hlch : (s.judged c due).lch c = { s.lch c with last := some due, mismatchRun := s.mismatches c } :=
    (s.judged_lch c c due).trans (if_pos rfl)
  simp only [State.lawOut, hreg (.inl rfl), hreg (.inr (.inl rfl)), hreg (.inr (.inr rfl)), hlch,
    (SameInputs.judged s c due).inputNow, LoopChan.xv, LoopChan.xi, LoopChan.ic]

theorem KeepsMemory.of_does {ps : List Part} {bs : List Nat} (h : Does ps bs s t)
    (hps : .sram ∉ ps ∧ .hbmMem ∉ ps ∧ .spill ∉ ps) : KeepsMemory s t :=
  KeepsMemory.of_fields (h.same .sram hps.1 (by decide)) (h.same .hbmMem hps.2.1 (by decide))
    (h.same .spill hps.2.2 (by decide))

theorem exec_loopUpdate_of_none {ch : Chan} (h : s.updateDue ch.val = none) : exec (.loopUpdate ch none) s = .next s := by
  have hrun : s.runUpdate ch.val none = s := by unfold State.runUpdate; rw [h]
  unfold exec execLoopUpdate
  simp [h, hrun]

/-- The update of a channel whose engine has none due on a lower channel is the first of the cycle there. -/
theorem exec_loopUpdate_of_first {ch : Chan}
    (hlower : ∀ k : Chan, k.val < ch.val → (s.lch k.val).bound = true → (s.lch k.val).eng = (s.lch ch.val).eng →
      s.updateDue k.val = none) :
    exec (.loopUpdate ch none) s = .next (s.runUpdate ch.val none) := by
  have hfold : ∀ l : List Nat, (∀ k ∈ l, s.updateDue k = none) → l.foldl (fun s k => s.runUpdate k none) s = s := by
    intro l hl
    induction l with
    | nil => rfl
    | cons k l ih =>
      have hk : s.runUpdate k none = s := by unfold State.runUpdate; rw [hl k (by simp)]
      rw [List.foldl_cons, hk]
      exact ih (fun k' hk' => hl k' (by simp [hk']))
  unfold exec execLoopUpdate
  dsimp only
  rw [hfold, ite_self]
  intro k hk
  simp only [List.mem_filter, List.mem_range, Bool.and_eq_true, beq_iff_eq] at hk
  exact hlower ⟨k, by omega⟩ hk.1 hk.2.1 hk.2.2

/-- What an update that is judged and then delivers counts and keeps, whatever its law. -/
structure Updates (c : Nat) (due : Count) (s t : State) : Prop where
  counted : (t.reg (aLCH_UPD c)).toNat = min 0xFFFFFFFF ((s.reg (aLCH_UPD c)).toNat + 1)
  count : t.count = s.count
  regs : KeepsRegs (judgedRegs c (s.lawLacks c (s.lawOf c)) (s.mismatches c) ++ workRegs (s.lch c).eng c) s t
  memory : KeepsMemory s t
  latches : t.reg aLPE_LAT = (s.judged c due).reg aLPE_LAT
  noms : t.reg (aLCH_NOM c) = (s.judged c due).reg (aLCH_NOM c)

theorem updates_of_delivers {c cost h : Nat} {due : Count} {goff : Bool} {set : List Word} {area : List Byte}
    (d : Delivers (s.lch c).eng c cost due goff set h area (s.judged c due) t)
    (hdoes : Does [.agenda, .free, .fresh, .engs, .loops, .twn] [3, 6] (s.judged c due) t) : Updates c due s t := by
  have hwork {a : Nat} (ha : a ∈ [aLCH_UPD c, aLPE_LAT, aLCH_NOM c]) : t.reg a = (s.judged c due).reg a := by
    refine d.regs a (fun hin => ?_)
    simp only [workRegs, deliveryRegs, List.mem_cons, List.not_mem_nil, or_false, aENG_MAXD, aLCH_STAT, aLCH_H, aBUS_LATMAX,
      aBUS_SLACK, aBUS_LAT] at hin
    simp only [List.mem_cons, List.not_mem_nil, or_false, aLCH_UPD, aLPE_LAT, aLCH_NOM] at ha
    omega
  have hall : Does [.agenda, .causes, .free, .fresh, .engs, .loops, .twn] [3, 6] s t :=
    (hdoes.mono (by decide)).after ((s.judged_does c due).mono (by decide))
  exact
    { counted := by rw [hwork (by simp), s.judged_counted c due]
      count := hall.same .count (by decide) (by decide)
      regs := ((s.judged_keepsRegs c due).mono (by simp +contextual)).trans (d.regs.mono (by simp +contextual))
      memory := KeepsMemory.of_does hall (by decide)
      latches := hwork (by simp)
      noms := hwork (by simp) }

theorem judgeRegs_of_lacks (c : Nat) (mismatch : Bool) : ∀ a ∈ judgeRegs c true mismatch, a ∈ [aLPE_LAT, aLCH_NOM c] := by
  cases mismatch <;> simp [judgeRegs]

/-- The registers that an update writes: those of judging it, its own, its engine's and those of its delivery. -/
theorem Updates.keepsRegs {c : Nat} {due : Count} (u : Updates c due s t) {lacks mismatch : Bool}
    (hlacks : s.lawLacks c (s.lawOf c) = lacks) (hmismatch : s.mismatches c = mismatch) {extra : List Nat}
    (h : ∀ a ∈ judgeRegs c lacks mismatch, a ∈ extra) :
    KeepsRegs (extra ++ [aLCH_LAW c, aLCH_UPD c, aLCH_STAT c, aLCH_H c, aENG_MAXD (s.lch c).eng, aBUS_LATMAX (islOf c),
      aBUS_SLACK (islOf c), aBUS_LAT]) s t := by
  subst hlacks hmismatch
  refine u.regs.mono (fun a ha => ?_)
  have hjudge := h a
  simp only [judgedRegs, workRegs, deliveryRegs, List.mem_append, List.mem_cons] at ha ⊢
  tauto

/-- The update of a channel that is due, on an engine that is free for it and has none on a lower channel, with the time that
its law and its delivery take. -/
structure UpdateReady (ch : Chan) (due : Count) (per index : Nat) (s : State) : Prop where
  isDue : s.updateDue ch.val = some (due, per, index)
  first : ∀ k : Chan, k.val < ch.val → (s.lch k.val).bound = true → (s.lch k.val).eng = (s.lch ch.val).eng →
    s.updateDue k.val = none
  untrapped : s.trapped (s.lch ch.val).eng = false
  idle : s.engIdle (s.lch ch.val).eng
  shown : (s.eng (s.lch ch.val).eng).commit = none
  lead : 128 * (s.ctl.lawCost (s.lawOf ch.val) + 73) ≤ (Count.cycleStart due - s.count).toNat ∧
    (Count.cycleStart due - s.count).toNat < 2 ^ 70

section
variable {ch : Chan} {due : Count} {per index : Nat} (hready : UpdateReady ch due per index s)
include hready

theorem UpdateReady.judged_idle : (s.judged ch.val due).engIdle (s.lch ch.val).eng := by
  have hengs : (s.judged ch.val due).engs = s.engs := (s.judged_does _ due).same .engs (by decide) (by decide)
  unfold State.engIdle State.eng
  rw [hengs, State.judged_count]
  exact hready.idle

theorem UpdateReady.judged_inTime {cost : Nat} (h : cost ≤ s.ctl.lawCost (s.lawOf ch.val) + 8) :
    (s.judged ch.val due).inTime cost due := by
  have hlead := hready.lead
  unfold State.inTime
  rw [State.judged_count]
  omega

theorem UpdateReady.exec_eq : exec (.loopUpdate ch none) s = .next (s.runUpdate ch.val none) ∧
    s.runUpdate ch.val none =
      if s.lawLacks ch.val (s.lawOf ch.val) || s.mismatches ch.val then
        (s.judged ch.val due).noLaw (s.lch ch.val).eng ch.val due
      else if s.ctl.isStandard (s.lawOf ch.val) then
        (s.judged ch.val due).runStandard (s.lch ch.val).eng ch.val (s.lawOf ch.val) (s.blockOf ch.val) due per
      else (s.judged ch.val due).runCustom (s.lch ch.val).eng ch.val (s.lawOf ch.val) (s.blockOf ch.val) due per index none :=
  ⟨exec_loopUpdate_of_first hready.first, State.runUpdate_of_due hready.isDue hready.idle.1 hready.shown hready.untrapped⟩

/-- An update without its quantities or with a block of another law (R171, R178). -/
theorem UpdateReady.without_law (h : s.lawLacks ch.val (s.lawOf ch.val) = true ∨ s.mismatches ch.val = true) :
    ∃ t, exec (.loopUpdate ch none) s = .next t ∧
      Delivers (s.lch ch.val).eng ch.val 8 due true [] 0 (s.lch ch.val).area (s.judged ch.val due) t ∧
      Updates ch.val due s t ∧
      t.bit (aLCH_STAT ch.val) fLCH_STAT_NOMEAS = s.lawLacks ch.val (s.lawOf ch.val) ∧
      t.causes = (s.judged ch.val due).causes := by
  obtain ⟨hexec, hrun⟩ := hready.exec_eq
  rw [if_pos (by simpa using h)] at hrun
  have hdelivers := State.noLaw_delivers (c := ch.val) hready.judged_idle (hready.judged_inTime (by omega))
  rw [State.judged_area] at hdelivers
  refine ⟨_, by rw [hexec, hrun], hdelivers, updates_of_delivers hdelivers (State.noLaw_does.mono (by decide)), ?_,
    State.noLaw_does.same .causes (by decide) (by decide)⟩
  exact (State.noLaw_nomeas hready.judged_idle).trans (State.judgeUpdate_nomeas _ _ _ _ _)

/-- An update that runs a standard law (R173, R174, R180). -/
theorem UpdateReady.standard (hlacks : s.lawLacks ch.val (s.lawOf ch.val) = false) (hblock : s.mismatches ch.val = false)
    (hstd : s.ctl.isStandard (s.lawOf ch.val) = true) (hlaw : s.lawOf ch.val ≠ 6) :
    let o := s.lawOut ch.val (s.lawOf ch.val) (s.blockOf ch.val) per
    let h := boundH (s.blockOf ch.val) o.h (per : Int)
    ∃ t, exec (.loopUpdate ch none) s = .next t ∧
      Delivers (s.lch ch.val).eng ch.val (s.ctl.lawCost (s.lawOf ch.val)) due false (edgeSet h (per : Int)) h.toNat
        (putLawState (s.lch ch.val).area o.xv o.xi o.ic) (s.judged ch.val due) t ∧
      Updates ch.val due s t ∧ t.bit (aLCH_STAT ch.val) fLCH_STAT_CV = o.cv := by
  intro o h
  obtain ⟨hexec, hrun⟩ := hready.exec_eq
  rw [hlacks, hblock, Bool.or_self, if_neg Bool.false_ne_true, if_pos hstd] at hrun
  have hdelivers := State.runStandard_delivers (c := ch.val) (per := per) (s.blockOf ch.val) hlaw hready.judged_idle
    (by rw [State.judged_ctl]; exact hready.judged_inTime (Nat.le_add_right _ _))
  have hcv := State.runStandard_cv (s := s.judged ch.val due) (e := (s.lch ch.val).eng) (c := ch.val) (per := per)
    (due := due) (s.blockOf ch.val) hlaw
  rw [State.judged_lawOut, State.judged_ctl, State.judged_area] at hdelivers
  rw [State.judged_lawOut] at hcv
  exact ⟨_, by rw [hexec, hrun], hdelivers, updates_of_delivers hdelivers (State.runStandard_does.mono (by decide)), hcv⟩

/-- An update that runs REST (R180). -/
theorem UpdateReady.rest (hlacks : s.lawLacks ch.val (s.lawOf ch.val) = false) (hblock : s.mismatches ch.val = false)
    (hstd : s.ctl.isStandard (s.lawOf ch.val) = true) (hlaw : s.lawOf ch.val = 6) :
    ∃ t, exec (.loopUpdate ch none) s = .next t ∧
      Delivers (s.lch ch.val).eng ch.val (s.ctl.lawCost 6) due true [] 0
        (putLawState (s.lch ch.val).area (s.lch ch.val).xv 0 0) (s.judged ch.val due) t ∧
      Updates ch.val due s t := by
  obtain ⟨hexec, hrun⟩ := hready.exec_eq
  rw [hlacks, hblock, Bool.or_self, if_neg Bool.false_ne_true, if_pos hstd, hlaw] at hrun
  have hdelivers := State.runStandard_rest_delivers (c := ch.val) (per := per) (s.blockOf ch.val) hready.judged_idle
    (by rw [State.judged_ctl]; exact hready.judged_inTime (by rw [hlaw]; exact Nat.le_add_right _ _))
  rw [LoopChan.xv, State.judged_area, State.judged_ctl, ← LoopChan.xv] at hdelivers
  exact ⟨_, by rw [hexec, hrun], hdelivers, updates_of_delivers hdelivers (State.runStandard_does.mono (by decide))⟩

end

/-- Settles O14: an update that is due is judged (`State.judged`), and then works and delivers (`Delivers`) by its law, by REST,
or without a law. -/
theorem loopUpdates : Obligations.LoopUpdates := by
  unfold Obligations.LoopUpdates
  intro ch due per index s c e law pb o h written
  refine ⟨fun hnone => ⟨s, exec_loopUpdate_of_none hnone, rfl⟩, fun hdue _ hlower htrap hrun hcommit hbusy hlead => ?_⟩
  have hready : UpdateReady ch due per index s := ⟨hdue, hlower, htrap, ⟨hrun, hbusy⟩, hcommit, hlead⟩
  have hmatch : byteAt pb 0 = law → s.mismatches c = false := fun hb => by
    unfold State.mismatches; exact bne_eq_false_iff_eq.mpr hb
  refine ⟨fun hlacks hblock hstd hlaw => ?standard, fun hlacks hblock hstd hlaw => ?rest, fun hlacks => ?lacking,
    fun hlacks hblock => ?mismatching⟩
  case standard =>
    obtain ⟨t, hexec, d, u, hcv⟩ := hready.standard hlacks (hmatch hblock) hstd hlaw
    have hbusyTo := d.busy
    rw [State.judged_count] at hbusyTo
    exact ⟨t, hexec, d.shows_h, d.shows_goff, hcv, d.leaves_area, d.holds, u.counted, hbusyTo, u.count,
      u.keepsRegs (extra := []) hlacks (hmatch hblock) (by simp [judgeRegs]), u.memory⟩
  case rest =>
    obtain ⟨t, hexec, d, u⟩ := hready.rest hlacks (hmatch hblock) hstd hlaw
    exact ⟨t, hexec, d.shows_h, d.shows_goff, d.leaves_area, d.holds,
      u.keepsRegs (extra := []) hlacks (hmatch hblock) (by simp [judgeRegs]), u.memory⟩
  case lacking =>
    obtain ⟨t, hexec, d, u, hnomeas, -⟩ := hready.without_law (.inl hlacks)
    obtain ⟨hlatched, hcounted⟩ := State.judged_of_lacks due hlacks
    exact ⟨t, hexec, d.shows_h, d.shows_goff, hnomeas.trans hlacks,
      (State.bit_congr _ u.latches).trans hlatched, d.leaves_area,
      (congrArg _ u.noms).trans hcounted, d.holds, u.keepsRegs hlacks rfl (judgeRegs_of_lacks _ _), u.memory⟩
  case mismatching =>
    have hmismatch : s.mismatches c = true := bne_iff_ne.mpr hblock
    obtain ⟨t, hexec, d, u, -, hcauses⟩ := hready.without_law (.inr hmismatch)
    obtain ⟨hlatched, hcause⟩ := State.judged_of_mismatch due hlacks hmismatch
    have hcauseAt : t.causeAt 49 c = (s.judged c due).causeAt 49 c := by unfold State.causeAt; rw [hcauses]
    exact ⟨t, hexec, d.shows_h, d.shows_goff, (State.bit_congr _ u.latches).trans hlatched,
      hcauseAt.trans hcause, d.leaves_area, d.holds,
      u.keepsRegs (extra := [aLPE_LAT]) hlacks hmismatch (by simp [judgeRegs]), u.memory⟩

end Sys2Proof.Machine
end

section
namespace Sys2Proof.Machine

/-- The bit words of the registers of a block lie in its upper half of 64 KiB, 32 words to a register (R48). -/
theorem aliasOf_bit {r b : Nat} (hr : r ≤ 0x7FC) (hword : r % 4 = 0) (hb : b < 32) :
    aliasOf (0x10000 + r * 32 + b * 4) = some (r, b) := by
  unfold aliasOf
  rw [if_pos (by omega), show (0x10000 + r * 32 + b * 4 - 0x10000) / 128 * 4 = r by omega,
    show (0x10000 + r * 32 + b * 4 - 0x10000) % 128 / 4 = b by omega]

theorem regTarget_of_alias {a r b : Nat} (h : aliasOf (a % 0x100000) = some (r, b)) :
    regTarget a = (a / 0x100000 * 0x100000 + r, some b) := by
  unfold regTarget; rw [h]

theorem regTarget_of_none {a : Nat} (h : aliasOf (a % 0x100000) = none) : regTarget a = (a, none) := by
  unfold regTarget; rw [h]

/-- Settles O56: the bit word of bit `b` names the register at `r` and that bit. -/
theorem aliasAddress : Obligations.AliasAddress := by
  unfold Obligations.AliasAddress
  intro blk r b hr hword hb
  have hoff : (blk * 0x100000 + 0x10000 + r * 32 + b * 4) % 0x100000 = 0x10000 + r * 32 + b * 4 := by omega
  have hblk : (blk * 0x100000 + 0x10000 + r * 32 + b * 4) / 0x100000 = blk := by omega
  rw [regTarget_of_alias (hoff ▸ aliasOf_bit hr hword hb), hblk]

theorem State.reset_reg_of_ne {a : Nat} (h : a ≠ aGLB_RSTCAUSE) : State.reset.reg a = regReset a := if_neg h

theorem State.reset_reg_cause : State.reset.reg aGLB_RSTCAUSE = 1 := rfl

/-- EN resets to 1 in the blocks where it is fixed, and to 0 in every other block (R34). -/
theorem regReset_en (b : Nat) : regReset (b * 0x100000 + 4) = if fixedOn b then 1 else 0 := by
  have hoff : (b * 0x100000 + 4) % 0x100000 = 4 := by omega
  have hblk : (b * 0x100000 + 4) / 0x100000 = b := by omega
  unfold regReset
  rw [hoff, hblk]
  rfl

theorem State.reset_blkOn (b : Nat) : State.reset.blkOn b = fixedOn b := by
  have hne : b * 0x100000 + 4 ≠ 0x10 := by omega
  unfold State.blkOn State.bit State.fld
  rw [State.reset_reg_of_ne hne, regReset_en]
  cases fixedOn b <;> rfl

theorem State.reset_drvEn (ch : Chan) : State.reset.drvEn ch.val = false := by
  revert ch; decide +kernel

theorem State.reset_canonical : State.reset.Canonical := by
  unfold State.Canonical; decide +kernel

theorem State.reset_own : State.reset.bit aTWN_STAT fTWN_STAT_OWN = false := by decide +kernel

/-- Settles O50: each clause is read off the state that `State.reset` writes down. -/
theorem resetState : Obligations.ResetState := by
  unfold Obligations.ResetState
  refine ⟨fun a => State.reset_reg_of_ne, State.reset_reg_cause, State.reset_blkOn, State.reset_drvEn, State.reset_own,
    ?twin, ?str, rfl, rfl, rfl, rfl, fun a => ⟨rfl, rfl, rfl⟩, State.reset_canonical, ?owns⟩
  case twin => decide +kernel
  case str => decide +kernel
  case owns => intro hown; rw [State.reset_own] at hown; cases hown

end Sys2Proof.Machine
end

section
/-! Refused writes (R34, R47, R50): what `State.reject` shows, raises and keeps. -/
namespace Sys2Proof.Machine

theorem rejBlock_of_exists {a : Nat} (h : blockExists (a / 0x100000) = true) : rejBlock a = a / 0x100000 := if_pos h

/-- A refusal shows in BLK_REJ and BLK_REJAT of the block that records it, and nowhere else. -/
theorem State.reject_keepsRegs (s : State) (by_ : Issuer) (k : RejKind) (a : Nat) :
    KeepsRegs [rejBlock a * 0x100000 + 8, rejBlock a * 0x100000 + 12] s (s.reject by_ k a) := by
  have h : KeepsRegs [rejBlock a * 0x100000 + 8, rejBlock a * 0x100000 + 12] s ((s.rejLatch k a).setReg
      (rejBlock a * 0x100000 + 12) (BitVec.ofNat 32 (issuerRejBits by_ ||| k.code <<< 20 ||| a % 0x100000))) :=
    (((KeepsRegs.refl _ s).setReg (by simp) _).setReg (by simp) _)
  cases k <;> exact h

theorem State.reject_latched (s : State) (by_ : Issuer) (k : RejKind) (a : Nat) :
    (s.reject by_ k a).reg (rejBlock a * 0x100000 + 8) = s.reg (rejBlock a * 0x100000 + 8) ||| k.bit := by
  have h : ((s.rejLatch k a).setReg (rejBlock a * 0x100000 + 12)
      (BitVec.ofNat 32 (issuerRejBits by_ ||| k.code <<< 20 ||| a % 0x100000))).reg (rejBlock a * 0x100000 + 8) =
      s.reg (rejBlock a * 0x100000 + 8) ||| k.bit :=
    (State.reg_setReg_ne _ _ (by omega)).trans (State.reg_setReg_self _ _ _)
  cases k <;> exact h

/-- A write refused for its class, its value or a lock raises FS 5. -/
theorem State.reject_raises (s : State) (by_ : Issuer) {k : RejKind} (a : Nat) (hk : k ≠ .acc) :
    ∃ isl, Raises 5 isl s (s.reject by_ k a) := by
  cases k with
  | acc => exact absurd rfl hk
  | cfg | lock | val => exact ⟨_, raises_raise _ _ _⟩

theorem State.reject_keepsMemory (s : State) (by_ : Issuer) (k : RejKind) (a : Nat) : KeepsMemory s (s.reject by_ k a) :=
  KeepsMemory.of_does State.reject_any (by decide)

/-- The latch of a refusal sets. -/
theorem State.reject_sets (s : State) (by_ : Issuer) {k : RejKind} (a : Nat) {i : Nat} (hi : k.bit.getLsbD i = true) :
    ((s.reject by_ k a).reg (rejBlock a * 0x100000 + 8)).getLsbD i = true := by
  rw [State.reject_latched, BitVec.getLsbD_or, hi, Bool.or_true]

end Sys2Proof.Machine
end

section
/-! Which blocks are enabled (R34), and what an enable leaves of the others (O2). -/
namespace Sys2Proof.Machine

/-- BLK_CTL of every block reads as before: no block has been enabled or disabled. -/
def KeepsEn (s t : State) : Prop := ∀ b, t.reg (b * 0x100000 + 4) = s.reg (b * 0x100000 + 4)

variable {s t u : State}

theorem KeepsEn.refl (s : State) : KeepsEn s s := fun _ => rfl

theorem KeepsEn.trans (h : KeepsEn s t) (g : KeepsEn t u) : KeepsEn s u := fun b => (g b).trans (h b)

theorem KeepsEn.of_regs (h : t.regs = s.regs) : KeepsEn s t := fun _ => State.reg_of_regs h _

theorem KeepsEn.setReg (h : KeepsEn s t) {a : Nat} (ha : a % 0x100000 ≠ 4) (v : Word) : KeepsEn s (t.setReg a v) :=
  fun b => (State.reg_setReg_ne _ _ (by omega)).trans (h b)

theorem KeepsEn.latch (h : KeepsEn s t) {a : Nat} (ha : a % 0x100000 ≠ 4) (f : Fld) : KeepsEn s (t.latch a f) :=
  h.setReg ha _

theorem KeepsEn.of_keepsRegs {as : List Nat} (h : KeepsRegs as s t) (has : ∀ a ∈ as, a % 0x100000 ≠ 4) : KeepsEn s t :=
  fun b => h _ (fun hin => has _ hin (by omega))

theorem KeepsEn.blkOn (h : KeepsEn s t) (b : Nat) : t.blkOn b = s.blkOn b := State.bit_congr _ (h b)

theorem KeepsEn.foldl {α : Type} {f : State → α → State} (hf : ∀ t x, KeepsEn t (f t x)) (l : List α) (h : KeepsEn s t) :
    KeepsEn s (l.foldl f t) := by
  induction l generalizing t with
  | nil => exact h
  | cons x l ih => exact ih (h.trans (hf t x))

theorem KeepsEn.of_does {ps : List Part} (h : Does ps [] s t) (hps : .regs ∉ ps) : KeepsEn s t :=
  fun _ => h.regs hps _ (by simp)

theorem State.setEn_blkOn (s : State) (b c : Nat) (en : Bool) :
    (s.setEn b en).blkOn c = if c = b then en else s.blkOn c := by
  unfold State.blkOn State.bit State.fld State.setEn
  rw [State.reg_setReg]
  by_cases h : c = b
  · rw [if_pos h, if_pos (by omega)]; cases en <;> rfl
  · rw [if_neg h, if_neg (by omega)]

/-! ## What an enable does beside EN -/

theorem State.setTb_keepsEn (s : State) (st : Nat) : KeepsEn s (s.setTb st) := by
  have h0 : KeepsEn s (s.setFld aTBS_STATE fTBS_STATE_STATE st) := (KeepsEn.refl s).setReg (by decide) _
  unfold State.setTb
  extract_lets -underBinder -merge -useContext s0 _ _ s1
  have h1 : KeepsEn s s1 := by
    unfold s1
    split
    · exact h0.trans ((KeepsEn.refl _).setReg (by decide) _)
    · exact h0
  split
  · exact h1.trans ((KeepsEn.refl _).setReg (a := aTBS_HOLD) (by decide) _)
  · exact h1

theorem State.tbsOn_keepsEn (s : State) : KeepsEn s s.tbsOn := by
  unfold State.tbsOn
  split
  · exact s.setTb_keepsEn _
  · exact KeepsEn.refl s

theorem State.acqOn_keepsEn (s : State) : KeepsEn s s.acqOn := by
  unfold State.acqOn
  extract_lets clear s1
  have hclear : ∀ t c, KeepsEn t (clear t c) := fun t c => KeepsEn.of_does State.setStream_does (by decide)
  have h1 : KeepsEn s s1 := (((hclear s 0).trans (hclear _ 1)).trans (hclear _ 2)).trans (hclear _ 3)
  clear_value s1
  have h2 : KeepsEn s { s1 with acq := { s1.acq with sealNext := 0 } } := h1
  exact (h2.latch (a := aACQ_STAT) (by decide) _).trans (KeepsEn.of_does State.anchor_does (by decide))

theorem State.judgeOrder_keepsEn (s : State) (k : Nat) : KeepsEn s (s.judgeOrder k) := by
  unfold State.judgeOrder
  extract_lets now x s1
  split
  · exact KeepsEn.refl s
  · split
    · exact (KeepsEn.refl s).setReg (a := aHBM_PC_INORD k) (by unfold aHBM_PC_INORD; omega) _
    · exact KeepsEn.refl s

theorem State.hbmUnhold_keepsEn (s : State) : KeepsEn s s.hbmUnhold :=
  KeepsEn.foldl (fun t k => t.judgeOrder_keepsEn k) _ (KeepsEn.of_regs rfl)

theorem State.dllOn_keepsEn (s : State) (n : Nat) : KeepsEn s (s.dllOn n) :=
  ((KeepsEn.refl s).setReg (a := aDLL_STAT n) (by unfold aDLL_STAT; omega) _).setReg
    (a := aDLL_STAT n) (by unfold aDLL_STAT; omega) _

theorem State.setLtssm_keepsEn (s : State) (l : Link) (v : Nat) : KeepsEn s (s.setLtssm l v) := by
  cases l with
  | port p =>
    exact ((KeepsEn.refl s).setReg (a := aLP_STAT p.val) (by unfold aLP_STAT; omega) _).setReg (a := aLNK_STAT) (by decide) _
  | col => exact ((KeepsEn.refl s).setReg (a := aLC_STAT) (by decide) _).setReg (a := aLNK_STAT) (by decide) _
  | ringIn => exact ((KeepsEn.refl s).setReg (a := aLR_STAT) (by decide) _).setReg (a := aLNK_STAT) (by decide) _
  | ringOut => exact (KeepsEn.refl s).setReg (a := aLNK_STAT) (by decide) _

theorem State.linksDetect_keepsEn (s : State) : KeepsEn s s.linksDetect := by
  unfold State.linksDetect
  extract_lets port
  have hport : ∀ t p, KeepsEn t (port t p) := by
    intro t p
    unfold port
    split
    · exact t.setLtssm_keepsEn _ _
    · exact KeepsEn.refl t
  exact ((((hport s 0).trans (hport _ 1)).trans (State.setLtssm_keepsEn _ _ _)).trans
    (State.setLtssm_keepsEn _ _ _)).trans (State.setLtssm_keepsEn _ _ _)

/-- What follows the setting of EN in an enable enables and disables no block. -/
theorem State.blockOn_blkOn (s : State) (b c : Nat) : (s.blockOn b).blkOn c = (decide (c = b) || s.blkOn c) := by
  have hset : (s.setEn b true).blkOn c = (decide (c = b) || s.blkOn c) := by
    rw [State.setEn_blkOn]; by_cases h : c = b <;> simp [h]
  unfold State.blockOn
  split
  next hon =>
    by_cases h : c = b
    · subst h; simp [hon]
    · simp [h]
  next =>
    rw [← hset]
    extract_lets s1
    refine KeepsEn.blkOn ?_ c
    split
    · exact s1.tbsOn_keepsEn
    split
    · exact KeepsEn.of_does State.lpeOn_does (by decide)
    split
    · exact s1.acqOn_keepsEn
    split
    · exact s1.hbmUnhold_keepsEn
    split
    · exact s1.linksDetect_keepsEn
    split
    · exact s1.dllOn_keepsEn _
    · exact KeepsEn.refl s1

/-! ## EN written -/

theorem blockExists_of_fixed {b : Nat} (h : fixedOn b = true ∨ b = 13) : blockExists b = true := by
  simp only [fixedOn, Bool.or_eq_true, beq_iff_eq] at h
  obtain ((((rfl | rfl) | rfl) | rfl) | rfl) | rfl := h <;> rfl

theorem execBlkCtlWrite_refused {by_ : Issuer} {blk : BitVec 7} {s : State} (h : fixedOn blk.toNat = true ∨ blk.toNat = 13) :
    execBlkCtlWrite by_ blk false s = .next (s.rejectVal by_ (blk.toNat * 0x100000 + 4)) := by
  have hfix : (fixedOn blk.toNat || blk.toNat == 13) = true := by simpa using h
  unfold execBlkCtlWrite
  simp [blockExists_of_fixed h, hfix]

theorem execBlkCtlWrite_disable {by_ : Issuer} {blk : BitVec 7} {s : State} (hex : blockExists blk.toNat = true)
    (hfix : fixedOn blk.toNat = false) (hlnk : blk.toNat ≠ 13) :
    execBlkCtlWrite by_ blk false s =
      .next (if s.blkOn blk.toNat then (s.blockOff blk.toNat).setEn blk.toNat false else s) := by
  unfold execBlkCtlWrite
  simp only [hex, hfix, hlnk, beq_iff_eq, Bool.not_true, Bool.false_or, Bool.false_eq_true, if_false]
  split <;> rfl

theorem execBlkCtlWrite_enable {by_ : Issuer} {blk : BitVec 7} {s : State} (hex : blockExists blk.toNat = true) :
    execBlkCtlWrite by_ blk true s = .next (s.blockOn blk.toNat) := by
  unfold execBlkCtlWrite
  simp [hex]

/-- Settles O2: a block of fixed EN refuses 0, and any other follows the write. -/
theorem blockEnables : Obligations.BlockEnables := by
  unfold Obligations.BlockEnables
  intro by_ blk s
  have hval : ∀ n < 128, blk = BitVec.ofNat 7 n ↔ blk.toNat = n := fun n hn => by
    rw [← BitVec.toNat_inj, BitVec.toNat_ofNat, Nat.mod_eq_of_lt hn]
  have hlnk : blk = 13 ↔ blk.toNat = 13 := hval 13 (by omega)
  refine ⟨fun hfix => ?refused, fun hex hfix hne => ?disable, fun hex _ => ?enable⟩
  case refused =>
    rw [hlnk] at hfix
    have hblk : (blk.toNat * 0x100000 + 4) / 0x100000 = blk.toNat := by omega
    have hrej : rejBlock (blk.toNat * 0x100000 + 4) = blk.toNat :=
      (rejBlock_of_exists (by rw [hblk]; exact blockExists_of_fixed hfix)).trans hblk
    have hlatch := s.reject_sets by_ (k := .val) (blk.toNat * 0x100000 + 4) (i := 2) rfl
    have hkeeps := s.reject_keepsRegs by_ .val (blk.toNat * 0x100000 + 4)
    rw [hrej] at hlatch hkeeps
    exact ⟨_, execBlkCtlWrite_refused hfix, hlatch,
      (KeepsEn.of_keepsRegs hkeeps (by intro a ha; simp at ha; omega)).blkOn _,
      s.reject_raises by_ _ (by decide), s.reject_keepsMemory by_ _ _⟩
  case disable =>
    refine ⟨_, execBlkCtlWrite_disable hex hfix (fun h => hne (hlnk.mpr h)), ?_⟩
    split
    · rw [State.setEn_blkOn, if_pos rfl]
    next hoff => exact Bool.not_eq_true _ ▸ hoff
  case enable => exact ⟨_, execBlkCtlWrite_enable hex, (s.blockOn_blkOn _ _).trans (by simp)⟩

end Sys2Proof.Machine
end

section
/-! Registers of the class rules alone, written by address and by aliased bit (O1). -/
namespace Sys2Proof.Machine

/-! ## The way of a write to the class rules -/

/-- A register of GLB or TBS other than BLK_CTL, GLB_RSTCMD and TBS_CMD follows the class rules alone. -/
theorem State.writeReg_of_low {s : State} {by_ : Issuer} {a : Nat} {w mask : Word} (hblk : a / 0x100000 < 2)
    (hctl : a % 0x100000 ≠ 4) (hrst : a ≠ aGLB_RSTCMD) (htbs : a ≠ aTBS_CMD) :
    s.writeReg by_ a w mask = if writable a mask then s.classWrite by_ a w mask else s := by
  have hcentral : ∀ v, s.writeCentral by_ a v = none := fun v => by
    unfold State.writeCentral
    rw [if_neg hrst, if_neg htbs, if_neg (by unfold aFLT_ACK; omega), if_neg (by unfold aFLT_TEST; omega),
      if_neg (by unfold aFLT_STICKY; omega), if_neg (by unfold aLPE_FLIP; omega), if_neg (by omega)]
  have hcommand : ∀ v, s.writeCommand by_ a v = none := fun v => by
    unfold State.writeCommand
    simp only [hcentral]
    rw [if_neg (by omega), if_neg (by omega), if_pos (by omega)]
  have hplain : s.plainWrite by_ a w mask = s.classWrite by_ a w mask := by
    unfold State.plainWrite
    simp only []
    rw [if_neg hctl, if_neg (by omega), if_neg (by omega), if_neg (by omega), if_neg (by omega), if_neg (by omega)]
  unfold State.writeReg
  simp only [hcommand, hplain]
  rw [if_neg (by omega)]
  cases writable a mask <;> rfl

/-- The class rules on a one-word register that takes a write as a whole: the checks of its row hold of the word as it would
stand. -/
theorem State.classWrite_takes {s : State} {by_ : Issuer} {a : Nat} {data mask : Word} {r : RegRow}
    (hheader : isHeader (a % 0x100000) = false) (hrow : rowAt a = some (r, [], 0)) (hwords : r.words = 1)
    (hcfg : hasCfg r.flds mask = false) (hclears : r.chk.contains .zeroClears = false)
    (hchk : r.chk.all (s.chkOk a [] (classWord r.flds (s.reg a) data mask (s.latCause a ||| s.freshAt a))) = true) :
    s.classWrite by_ a data mask =
      s.setReg a (classWord r.flds (s.reg a) data mask (s.latCause a ||| s.freshAt a)) := by
  simp only [isHeader, Bool.or_eq_false_iff, beq_eq_false_iff_ne] at hheader
  unfold State.classWrite
  simp only [hrow, hwords, hcfg, hclears, hchk, hheader]
  simp

theorem State.classWrite_rejects_cfg {s : State} {by_ : Issuer} {a : Nat} {data mask : Word} {r : RegRow}
    (hheader : isHeader (a % 0x100000) = false) (hrow : rowAt a = some (r, [], 0)) (hwords : r.words = 1)
    (hcfg : hasCfg r.flds mask = true) (hon : s.ownerOn a r.own [] = true) :
    s.classWrite by_ a data mask = s.reject by_ .cfg a := by
  simp only [isHeader, Bool.or_eq_false_iff, beq_eq_false_iff_ne] at hheader
  unfold State.classWrite
  simp only [hrow, hwords, hcfg, hon, hheader]
  simp

theorem State.classWrite_rejects_val {s : State} {by_ : Issuer} {a : Nat} {data mask : Word} {r : RegRow}
    (hheader : isHeader (a % 0x100000) = false) (hrow : rowAt a = some (r, [], 0)) (hwords : r.words = 1)
    (hcfg : hasCfg r.flds mask = false) (hrun : r.flds.any (fun f => f.cls == .cfg || f.cls == .run) = true)
    (hchk : r.chk.all (s.chkOk a [] (classWord r.flds (s.reg a) data mask (s.latCause a ||| s.freshAt a))) = false) :
    s.classWrite by_ a data mask = s.reject by_ .val a := by
  simp only [isHeader, Bool.or_eq_false_iff, beq_eq_false_iff_ne] at hheader
  unfold State.classWrite
  simp only [hrow, hwords, hcfg, hrun, hchk, hheader]
  simp

/-- A register's own address takes the whole word. -/
theorem exec_regWrite_of_plain {by_ : Issuer} {addr : BitVec 28} {data : Word} {s : State}
    (hown : aliasOf (addr.toNat % 0x100000) = none)
    (hreg : (assigned addr.toNat && (pushReg addr.toNat).isNone) = true) :
    exec (.regWrite by_ addr data) s = .next (s.writeReg by_ addr.toNat data 0xFFFFFFFF#32) := by
  show execRegWrite by_ addr data s = _
  unfold execRegWrite
  simp only [regTarget_of_none hown, hreg, if_true]

/-- The bit word of a bit writes bit 0 of the data to it (R48, R49). -/
theorem exec_bitAliasWrite_of_word {by_ : Issuer} {addr : BitVec 28} {data : Word} {s : State} {r b : Nat}
    (halias : regTarget addr.toNat = (r, some b)) (hreg : (assigned r && !(multiWord r)) = true) :
    exec (.bitAliasWrite by_ addr data) s =
      .next (s.writeReg by_ r (if data.getLsbD 0 then 1#32 <<< b else 0) (1#32 <<< b)) := by
  show execBitAliasWrite by_ addr data s = _
  unfold execBitAliasWrite
  simp only [halias, hreg, if_true]


/-! ## The registers of O1 -/

/-- The row of GLB_SCRATCH (R26). -/
def rowScratch : RegRow := ⟨0x0030, [], 1, 32, .const 0x0#32, [⟨31, 0, .run, false⟩], .block, .plain, []⟩

/-- The rows of TBS_PSLEW and of TBS_LOCKCFG (R82). -/
def rowPslew : RegRow := ⟨0x0040, [], 1, 32, .const 0x00000014#32, [⟨4, 0, .run, false⟩], .block, .plain, [.rng 4 0 10 20]⟩
def rowLockcfg : RegRow :=
  ⟨0x0038, [], 1, 32, .const 0x000A0060#32, [⟨23, 16, .cfg, false⟩, ⟨15, 0, .cfg, false⟩], .block, .plain,
    [.nz 23 16, .nz 15 0]⟩

theorem rowAt_scratch : rowAt aGLB_SCRATCH = some (rowScratch, [], 0) := by decide +kernel

theorem rowAt_pslew : rowAt aTBS_PSLEW = some (rowPslew, [], 0) := by decide +kernel

theorem rowAt_lockcfg : rowAt aTBS_LOCKCFG = some (rowLockcfg, [], 0) := by decide +kernel

/-- A word whose only field is RUN takes the bits of the mask in it. -/
theorem classWord_run (hi lo : Nat) (str : Bool) (old data mask cause : Word) :
    classWord [⟨hi, lo, .run, str⟩] old data mask cause =
      (old &&& ~~~ (bitMask hi lo &&& mask)) ||| (data &&& (bitMask hi lo &&& mask)) := rfl

theorem getLsbD_merge (old data m : Word) (i : Nat) :
    ((old &&& ~~~ m) ||| (data &&& m)).getLsbD i = if m.getLsbD i then data.getLsbD i else old.getLsbD i := by
  rw [BitVec.getLsbD_or, BitVec.getLsbD_and, BitVec.getLsbD_and, BitVec.getLsbD_not]
  by_cases h : i < 32
  · cases hm : m.getLsbD i <;> simp [h]
  · simp [BitVec.getLsbD_of_ge _ i (by omega : 32 ≤ i)]

theorem getLsbD_oneShift {b : Nat} (hb : b < 32) (i : Nat) : (1#32 <<< b).getLsbD i = decide (i = b) := by
  rw [← BitVec.twoPow_eq, BitVec.getLsbD_twoPow]
  simp only [eq_comm (a := b), hb, decide_true, Bool.true_and]

/-- E of a word merged into TBS_PSLEW is that of the data. -/
theorem getF_merge_pslew (old data : Word) :
    getF ((old &&& ~~~ 0x1F#32) ||| (data &&& 0x1F#32)) fTBS_PSLEW_E = getF data fTBS_PSLEW_E := by
  apply Nat.eq_of_testBit_eq
  intro i
  have hmask : ∀ j < 5, (0x1F#32).getLsbD (0 + j) = true := by decide
  rw [getF_testBit, getF_testBit, getLsbD_merge]
  by_cases h : i < Fld.width fTBS_PSLEW_E
  · rw [hmask i h, if_pos rfl]
  · simp [h]

theorem State.writeReg_scratch (s : State) (by_ : Issuer) {mask : Word} (data : Word)
    (hw : writable aGLB_SCRATCH mask = true) :
    s.writeReg by_ aGLB_SCRATCH data mask =
      s.setReg aGLB_SCRATCH ((s.reg aGLB_SCRATCH &&& ~~~ mask) ||| (data &&& mask)) := by
  have hmask : bitMask 31 0 &&& mask = mask := by
    rw [show bitMask 31 0 = BitVec.allOnes 32 by decide, BitVec.allOnes_and]
  rw [State.writeReg_of_low (by decide) (by decide) (by decide) (by decide), if_pos hw,
    State.classWrite_takes (r := rowScratch) (by decide) rowAt_scratch rfl rfl rfl rfl]
  unfold rowScratch
  rw [classWord_run, hmask]

/-- The word that TBS_PSLEW would hold after a write. -/
theorem classWord_pslew (old data cause : Word) :
    classWord rowPslew.flds old data 0xFFFFFFFF#32 cause = (old &&& ~~~ 0x1F#32) ||| (data &&& 0x1F#32) := by
  unfold rowPslew
  rw [classWord_run, show bitMask 4 0 &&& 0xFFFFFFFF#32 = 0x1F#32 by decide]

theorem State.chkOk_pslew (s : State) (old data cause : Word) :
    rowPslew.chk.all (s.chkOk aTBS_PSLEW [] (classWord rowPslew.flds old data 0xFFFFFFFF#32 cause)) =
      decide (10 ≤ getF data fTBS_PSLEW_E ∧ getF data fTBS_PSLEW_E ≤ 20) := by
  rw [classWord_pslew]
  simp only [rowPslew, List.all_cons, List.all_nil, Bool.and_true, State.chkOk]
  rw [getF_merge_pslew, Bool.decide_and]

theorem State.writeReg_pslew (s : State) (by_ : Issuer) (data : Word) :
    s.writeReg by_ aTBS_PSLEW data 0xFFFFFFFF#32 =
      if 10 ≤ getF data fTBS_PSLEW_E ∧ getF data fTBS_PSLEW_E ≤ 20 then
        s.setReg aTBS_PSLEW ((s.reg aTBS_PSLEW &&& ~~~ 0x1F#32) ||| (data &&& 0x1F#32))
      else s.reject by_ .val aTBS_PSLEW := by
  rw [State.writeReg_of_low (by decide) (by decide) (by decide) (by decide), if_pos (by decide +kernel)]
  split
  next hin =>
    rw [State.classWrite_takes (r := rowPslew) (by decide) rowAt_pslew rfl rfl rfl
      ((s.chkOk_pslew _ _ _).trans (decide_eq_true hin)), classWord_pslew]
  next hout =>
    exact State.classWrite_rejects_val (r := rowPslew) (by decide) rowAt_pslew rfl rfl rfl
      ((s.chkOk_pslew _ _ _).trans (decide_eq_false hout))

theorem State.writeReg_lockcfg {s : State} (by_ : Issuer) (data : Word) (hon : s.blkOn 1 = true) :
    s.writeReg by_ aTBS_LOCKCFG data 0xFFFFFFFF#32 = s.reject by_ .cfg aTBS_LOCKCFG := by
  rw [State.writeReg_of_low (by decide) (by decide) (by decide) (by decide), if_pos (by decide +kernel)]
  exact State.classWrite_rejects_cfg (r := rowLockcfg) (by decide) rowAt_lockcfg rfl (by decide) hon

/-- A register whose fields are all STA takes no write (R39). -/
theorem writable_of_sta {a : Nat} {mask : Word}
    (h : (rowAt a).any (fun x => x.1.flds.all (fun f => f.cls == .sta)) = true) : writable a mask = false := by
  cases hrow : rowAt a with
  | none => simp [hrow] at h
  | some x =>
    simp only [hrow, Option.any_some, List.all_eq_true, beq_iff_eq] at h
    unfold writable
    simp only [hrow, List.any_eq_false, Bool.and_eq_true, not_and, bne_iff_ne, ne_eq]
    exact fun f hf hcls => absurd (h f hf) hcls

/-- Every field of TBS_STATE is STA: a write of any of its bits is ignored (R39). -/
theorem State.writeReg_tbsState (s : State) (by_ : Issuer) (data mask : Word) :
    s.writeReg by_ aTBS_STATE data mask = s := by
  rw [State.writeReg_of_low (by decide) (by decide) (by decide) (by decide), if_neg]
  rw [writable_of_sta (by decide +kernel)]
  decide

/-! ## O1 -/

theorem keepsMemory_setReg (s : State) (a : Nat) (v : Word) : KeepsMemory s (s.setReg a v) :=
  KeepsMemory.of_fields rfl rfl rfl

/-- A refusal at a register of TBS shows in BLK_REJ of TBS. -/
theorem State.reject_tbs (s : State) (by_ : Issuer) {k : RejKind} {a i : Nat} (ha : a / 0x100000 = 1) (hk : k ≠ .acc)
    (hi : k.bit.getLsbD i = true) :
    let t := s.reject by_ k a
    (t.reg 0x100008).getLsbD i = true ∧ (∃ isl, Raises 5 isl s t) ∧ KeepsRegs [0x100008, 0x10000C] s t ∧ KeepsMemory s t := by
  have hrej : rejBlock a = 1 := (rejBlock_of_exists (by rw [ha]; decide)).trans ha
  have hset := s.reject_sets by_ a hi
  have hkeeps := s.reject_keepsRegs by_ k a
  rw [hrej] at hset hkeeps
  exact ⟨hset, s.reject_raises by_ a hk, hkeeps, s.reject_keepsMemory by_ k a⟩

/-- The write of one register, by address. -/
theorem registerWrites_word (by_ : Issuer) (data : Word) (s : State) :
    Completes (.regWrite by_ 0x30 data) s (fun t => t.reg aGLB_SCRATCH = data ∧ t.count = s.count ∧
      KeepsRegs [aGLB_SCRATCH] s t ∧ KeepsMemory s t) ∧
    (10 ≤ getF data fTBS_PSLEW_E → getF data fTBS_PSLEW_E ≤ 20 → Completes (.regWrite by_ 0x100040 data) s (fun t =>
      t.reg aTBS_PSLEW = ((s.reg aTBS_PSLEW &&& ~~~ 0x1F#32) ||| (data &&& 0x1F#32)) ∧
      KeepsRegs [aTBS_PSLEW] s t ∧ KeepsMemory s t)) ∧
    (¬ (10 ≤ getF data fTBS_PSLEW_E ∧ getF data fTBS_PSLEW_E ≤ 20) →
      Completes (.regWrite by_ 0x100040 data) s (fun t => (t.reg 0x100008).getLsbD 2 = true ∧
        (∃ isl, Raises 5 isl s t) ∧ KeepsRegs [0x100008, 0x10000C] s t ∧ KeepsMemory s t)) ∧
    (s.blkOn 1 = true → Completes (.regWrite by_ 0x100038 data) s (fun t => (t.reg 0x100008).getLsbD 0 = true ∧
      (∃ isl, Raises 5 isl s t) ∧ KeepsRegs [0x100008, 0x10000C] s t ∧ KeepsMemory s t)) ∧
    Completes (.regWrite by_ 0x100018 data) s (fun t => t = s) := by
  have hpslew : exec (.regWrite by_ 0x100040 data) s = .next (s.writeReg by_ aTBS_PSLEW data 0xFFFFFFFF#32) :=
    exec_regWrite_of_plain (by decide) (by decide +kernel)
  refine ⟨?scratch, fun hmin hmax => ?pslew, fun hout => ?refused, fun hon => ?lockcfg, ?sta⟩
  case scratch =>
    refine ⟨_, exec_regWrite_of_plain (by decide) (by decide +kernel), ?_⟩
    have hw := s.writeReg_scratch by_ (mask := 0xFFFFFFFF#32) data (by decide +kernel)
    rw [show ~~~ 0xFFFFFFFF#32 = 0#32 by decide, show 0xFFFFFFFF#32 = BitVec.allOnes 32 by decide, BitVec.and_zero,
      BitVec.zero_or, BitVec.and_allOnes] at hw
    show State.reg (s.writeReg by_ aGLB_SCRATCH data (BitVec.allOnes 32)) _ = _ ∧ _
    rw [hw]
    exact ⟨State.reg_setReg_self _ _ _, rfl, keepsRegs_setReg _ _ _, keepsMemory_setReg _ _ _⟩
  case pslew =>
    rw [s.writeReg_pslew, if_pos ⟨hmin, hmax⟩] at hpslew
    exact ⟨_, hpslew, State.reg_setReg_self _ _ _, keepsRegs_setReg _ _ _, keepsMemory_setReg _ _ _⟩
  case refused =>
    rw [s.writeReg_pslew, if_neg hout] at hpslew
    exact ⟨_, hpslew, s.reject_tbs by_ (by decide) (by decide) (by decide)⟩
  case lockcfg =>
    have hlock : exec (.regWrite by_ 0x100038 data) s = .next (s.writeReg by_ aTBS_LOCKCFG data 0xFFFFFFFF#32) :=
      exec_regWrite_of_plain (by decide) (by decide +kernel)
    rw [State.writeReg_lockcfg by_ data hon] at hlock
    exact ⟨_, hlock, s.reject_tbs by_ (by decide) (by decide) (by decide)⟩
  case sta =>
    exact ⟨_, exec_regWrite_of_plain (by decide) (by decide +kernel), s.writeReg_tbsState by_ _ _⟩

/-- A register of block `blk` at offset `r` of TBS or GLB has its bit word of bit `b` at this address. -/
theorem regTarget_aliasWord {blk r b : Nat} (hblk : blk < 2) (hr : r ≤ 0x7FC) (hword : r % 4 = 0) (hb : b < 32) :
    regTarget (BitVec.ofNat 28 (blk * 0x100000 + 0x10000 + r * 32 + 4 * b)).toNat = (blk * 0x100000 + r, some b) := by
  rw [BitVec.toNat_ofNat, Nat.mod_eq_of_lt (by omega), Nat.mul_comm 4 b]
  exact aliasAddress blk r b hr hword hb

/-- The write of one bit, by its bit word. -/
theorem registerWrites_bit (by_ : Issuer) (b : Fin 32) (data : Word) (s : State) :
    Completes (.bitAliasWrite by_ (BitVec.ofNat 28 (0x10000 + 0x30 * 32 + 4 * b.val)) data) s (fun t =>
      (∀ i, (t.reg aGLB_SCRATCH).getLsbD i = if i = b.val then data.getLsbD 0 else (s.reg aGLB_SCRATCH).getLsbD i) ∧
      KeepsRegs [aGLB_SCRATCH] s t ∧ KeepsMemory s t) ∧
    Completes (.bitAliasWrite by_ (BitVec.ofNat 28 (0x110000 + 0x18 * 32 + 4 * b.val)) data) s (fun t => t = s) := by
  constructor
  · have hw : ∀ b : Fin 32, writable aGLB_SCRATCH (1#32 <<< b.val) = true := by decide +kernel
    have hexec := exec_bitAliasWrite_of_word (by_ := by_) (data := data) (s := s)
      (regTarget_aliasWord (blk := 0) (r := 0x30) (by decide) (by decide) (by decide) b.isLt) (by decide +kernel)
    rw [State.writeReg_scratch s by_ _ (hw b)] at hexec
    refine ⟨_, hexec, fun i => ?_, keepsRegs_setReg _ _ _, keepsMemory_setReg _ _ _⟩
    rw [State.reg_setReg_self, getLsbD_merge, getLsbD_oneShift b.isLt]
    by_cases hi : i = b.val
    · subst hi
      cases data.getLsbD 0 <;> simp
    · simp [hi]
  · exact ⟨_, exec_bitAliasWrite_of_word
      (regTarget_aliasWord (blk := 1) (r := 0x18) (by decide) (by decide) (by decide) b.isLt) (by decide +kernel),
      s.writeReg_tbsState by_ _ _⟩

/-- Settles O1: by the word (`registerWrites_word`) and by a bit's own word (`registerWrites_bit`). -/
theorem registerWrites : Obligations.RegisterWrites := by
  unfold Obligations.RegisterWrites
  exact ⟨registerWrites_word, registerWrites_bit⟩

end Sys2Proof.Machine
end

section
/-! What registers read as does not depend on how many frames of a link have been taken: a link shows its credits and the
frames it holds (R42, R431). -/
namespace Sys2Proof.Machine

/-- The state with its links replaced. -/
def State.withLinks (s : State) (ls : Tab LinkState) : State := { s with links := ls }

variable (s : State) (ls : Tab LinkState)

/-! ## The scheduler's views -/

theorem State.setTask_withLinks (n : Nat) (t : Task) : (s.withLinks ls).setTask n t = (s.setTask n t).withLinks ls := by
  unfold State.setTask
  rw [show (s.withLinks ls).plainBase .scheduler = s.plainBase .scheduler from rfl]
  cases s.plainBase .scheduler <;> dsimp only [State.withLinks]

theorem State.settle_withLinks : (s.withLinks ls).settle = s.settle.withLinks ls := by
  unfold State.settle
  refine List.foldl_hom (State.withLinks · ls) (fun t e => ?_)
  have hste : (t.withLinks ls).ste e = t.ste e := rfl
  have hrest : (t.withLinks ls).steRest e = t.steRest e := rfl
  have htask : ∀ n, (t.withLinks ls).task n = t.task n := fun _ => rfl
  have hfree : (t.withLinks ls).freeEngine e = (t.freeEngine e).withLinks ls := rfl
  simp only [hste, hrest, htask, hfree, State.setTask_withLinks]
  cases (t.ste e).task with
  | none => rfl
  | some n => exact (apply_ite (State.withLinks · ls) _ _ _).symm

theorem State.schStat_withLinks : (s.withLinks ls).schStat = s.schStat := by
  unfold State.schStat
  rw [State.settle_withLinks]; generalize s.settle = t; rfl

theorem State.tvState_withLinks (n : Nat) : (s.withLinks ls).tvState n = s.tvState n := by
  unfold State.tvState
  rw [State.settle_withLinks]; generalize s.settle = t; rfl

theorem State.tvWait_withLinks (n : Nat) : (s.withLinks ls).tvWait n = s.tvWait n := by
  unfold State.tvWait
  rw [State.settle_withLinks]; generalize s.settle = t; rfl

theorem State.readSte_withLinks (e o a : Nat) : (s.withLinks ls).readSte e o a = s.readSte e o a := by
  have hstat : (s.withLinks ls).steStat e = s.steStat e := by
    unfold State.steStat
    rw [State.settle_withLinks]; generalize s.settle = t; rfl
  have hdepth : (s.withLinks ls).steDepth e = s.steDepth e := by
    unfold State.steDepth
    rw [State.settle_withLinks]; generalize s.settle = t; rfl
  unfold State.readSte
  rw [hstat, hdepth]; rfl

/-! ## All registers -/

theorem State.readReg_withLinks (hheld : ∀ k, ((s.withLinks ls).link k).held = (s.link k).held)
    (hcredit : ∀ k vc, ((s.withLinks ls).link k).credit vc = (s.link k).credit vc) (p a : Nat) :
    (s.withLinks ls).readReg p a = s.readReg p a := by
  have hcrd : ∀ k, (s.withLinks ls).lpCrd k = s.lpCrd k := fun k => by unfold State.lpCrd; simp only [hcredit]
  unfold State.readReg
  simp only [hcrd, hheld, State.schStat_withLinks, State.tvState_withLinks, State.tvWait_withLinks,
    State.readSte_withLinks]
  rfl

end Sys2Proof.Machine
end

section
/-! Requests of a host port (R43 to R45, R407, R415): a frame taken, the refusal of an access to REG space, and the answer. -/
namespace Sys2Proof.Machine

variable {p : Port} {h : HostHdr} {s t u : State}

/-! ## The answer -/

/-- What decides whether a frame goes out at once on a port reads the same. -/
structure SameLine (p : Port) (s t : State) : Prop where
  stat : t.reg (aLP_STAT p.val) = s.reg (aLP_STAT p.val)
  limits : (t.link p.val).limits = (s.link p.val).limits
  sent : (t.link p.val).sent = (s.link p.val).sent
  held : (t.link p.val).held = (s.link p.val).held
  waiting : (t.link p.val).waiting = (s.link p.val).waiting

theorem SameLine.trans (h : SameLine p s t) (g : SameLine p t u) : SameLine p s u where
  stat := g.stat.trans h.stat
  limits := g.limits.trans h.limits
  sent := g.sent.trans h.sent
  held := g.held.trans h.held
  waiting := g.waiting.trans h.waiting

theorem SameLine.of_links (hstat : t.reg (aLP_STAT p.val) = s.reg (aLP_STAT p.val)) (hlinks : t.links = s.links) :
    SameLine p s t := by
  have hlink : t.link p.val = s.link p.val := by unfold State.link; rw [hlinks]
  exact ⟨hstat, by rw [hlink], by rw [hlink], by rw [hlink], by rw [hlink]⟩

theorem State.sends_port (s : State) (p : Port) :
    s.sends p.val = (s.fld (aLP_STAT p.val) fLP_STAT_LTSSM == ltActive && s.fld (aLP_STAT p.val) fLP_STAT_TXPWR == 0) := by
  match p with
  | 0 => rfl
  | 1 => rfl

theorem Sends.of_sameLine {vc : Nat} (hline : SameLine p s t) (hs : Sends p vc s) : Sends p vc t := by
  obtain ⟨hsends, hgo, hwait⟩ := hs
  refine ⟨?_, ?_, hline.waiting.trans hwait⟩
  · rw [State.sends_port] at hsends ⊢
    rwa [State.fld_congr _ hline.stat, State.fld_congr _ hline.stat]
  · unfold LinkState.mayGo LinkState.credit at hgo ⊢
    rwa [hline.limits, hline.sent, hline.held]

/-- An answer goes out at once where a frame does. -/
theorem State.rdr_of_sends (hs : Sends p h.vc.toNat s) (st : Nat) (data : List Byte) :
    s.rdr p h st data = s.pushOn p.val h.vc.toNat (.rdr p h.vc h.tag (BitVec.ofNat 3 st) data) := by
  obtain ⟨hsends, hgo, hwait⟩ := hs
  unfold State.rdr State.sendFrame
  simp only [hsends, hgo, hwait, List.any_nil, Bool.not_false, Bool.and_true, if_true]

theorem State.rdr_out (hs : Sends p h.vc.toNat s) (st : Nat) (data : List Byte) :
    (s.rdr p h st data).out = s.out ++ [.rdr p h.vc h.tag (BitVec.ofNat 3 st) data] := by
  rw [State.rdr_of_sends hs]; rfl

theorem State.rdr_keepsRegs (s : State) (p : Port) (h : HostHdr) (st : Nat) (data : List Byte) :
    KeepsRegs [] s (s.rdr p h st data) := fun a _ => State.rdr_does.regs (by decide) a (by simp)

/-! ## A frame taken -/

/-- A request of the control VC in sequence, inside a session, that no held push makes wait. -/
structure RequestTaken (p : Port) (h : HostHdr) (s : State) : Prop where
  active : s.ltssm p.val = ltActive
  order : judgeSeq (s.link p.val) h = .take
  session : s.session p.val = true
  prot : h.prot = true
  tag : h.tagGood = true
  unreserved : h.reserved = false
  vc : h.vc = 0
  free : s.stalls p h = false

theorem State.takeFrame_link (s : State) (p : Port) (vc k : Nat) : (s.takeFrame p vc).link k =
    if k = p.val then { s.link p.val with
      rxNext := (s.link p.val).rxNext + 1, rxFrames := (s.link p.val).rxFrames + 1
      owed := (s.link p.val).owed.set vc ((s.link p.val).owed.getD vc 0 + 1) } else s.link k := State.setLink_link _ _ _ _

theorem State.takeFrame_sameLine (s : State) (p : Port) (vc : Nat) : SameLine p s (s.takeFrame p vc) := by
  have hlink := s.takeFrame_link p vc p.val
  rw [if_pos rfl] at hlink
  exact ⟨rfl, by rw [hlink], by rw [hlink], by rw [hlink], by rw [hlink]⟩

theorem State.takeFrame_readReg (s : State) (p : Port) (vc q a : Nat) :
    (s.takeFrame p vc).readReg q a = s.readReg q a := by
  refine State.readReg_withLinks s (s.takeFrame p vc).links (fun k => ?held) (fun k c => ?credit) q a
  case held =>
    show ((s.takeFrame p vc).link k).held = _
    rw [State.takeFrame_link]
    split
    next hk => rw [hk]
    next => rfl
  case credit =>
    show ((s.takeFrame p vc).link k).credit c = _
    rw [State.takeFrame_link]
    split
    next hk => rw [hk]; rfl
    next => rfl

/-- A word that a port reads comes from the registers as they read and from its shadows alone (R42, R46). -/
theorem State.portRead_congr {q : Nat} (hread : ∀ a, t.readReg q a = s.readReg q a) (hshadow : t.shadow = s.shadow)
    (a : Nat) : (t.portRead q a).1 = (s.portRead q a).1 := by
  unfold State.portRead
  simp only [hread, hshadow]
  split
  · rfl
  · split
    · split
      · split <;> rfl
      · rfl
    · rfl

theorem State.takeFrame_stalls (s : State) (p : Port) (vc : Nat) (h : HostHdr) :
    (s.takeFrame p vc).stalls p h = s.stalls p h := by
  unfold State.stalls
  rw [State.takeFrame_link, if_pos rfl]
  rfl

/-- A well-formed frame in sequence inside a session does its work, once it is counted. -/
theorem State.frame_of_taken (hr : RequestTaken p h s) (answer : Option (BitVec 48 × Bool)) (go : State → State) :
    s.frame p h false answer go = go (s.takeFrame p 0) := by
  unfold State.frame
  rw [if_neg (not_not.mpr hr.active), hr.order]
  simp only [hr.session, hr.prot, hr.tag, hr.unreserved, hr.vc]
  simp

/-! ## Accesses to REG space -/

theorem hostSpace_of_reg {off : Nat} (hoff : off ≤ 0x10000000) : hostSpace (BitVec.ofNat 48 off) = 0 := by
  unfold hostSpace; rw [BitVec.toNat_ofNat]; omega

theorem hostOffset_of_reg {off : Nat} (hoff : off ≤ 0x10000000) : hostOffset (BitVec.ofNat 48 off) = off := by
  unfold hostOffset; rw [BitVec.toNat_ofNat]; omega

theorem exec_rd_of_taken {off : Nat} {len : BitVec 8} (hr : RequestTaken p h s) (htimed : h.timed = false)
    (hoff : off ≤ 0x10000000) (huntimed : (s.link p.val).untimed = none) :
    exec (.rd p ⟨h, BitVec.ofNat 48 off, 0, len⟩) s =
      .next ((s.takeFrame p 0).performRead p ⟨h, BitVec.ofNat 48 off, 0, len⟩) := by
  have hnone : ((s.takeFrame p 0).link p.val).untimed = none := by
    rw [State.takeFrame_link, if_pos rfl]; exact huntimed
  show execRd p _ s = _
  unfold execRd
  simp only [hostSpace_of_reg hoff, htimed, hr.vc]
  simp only [beq_self_eq_true, if_true, bne_self_eq_false, Bool.or_false]
  rw [State.frame_of_taken hr]
  simp only [State.takeFrame_stalls, hr.free]
  unfold State.rdGo
  rw [hnone]
  rfl

theorem exec_wr_of_taken {off : Nat} {due : Count} {data : List Byte} (hr : RequestTaken p h s)
    (hdue : h.timed = false → due = 0) (hoff : off ≤ 0x10000000) (hlen : data.length ≤ 256) :
    exec (.wr p ⟨h, BitVec.ofNat 48 off, due, 0, data⟩) s =
      .next ((s.takeFrame p 0).wrGo p ⟨h, BitVec.ofNat 48 off, due, 0, data⟩ (s.sessRole p.val) false) := by
  have hdated : (!h.timed && due != 0) = false := by
    cases ht : h.timed with
    | false => simp [hdue ht]
    | true => rfl
  show execWr p _ s = _
  unfold execWr
  have hlong : decide (256 < data.length) = false := decide_eq_false (by omega)
  simp only [hostSpace_of_reg hoff, hr.vc, hdated, hlong, if_true]
  simp only [beq_self_eq_true, bne_self_eq_false, Bool.not_true, Bool.or_false, Bool.false_or]
  rw [show (h.timed && decide (1 < 0)) = false by simp, State.frame_of_taken hr]
  simp only [State.takeFrame_stalls, hr.free]
  rfl

/-! ## Refusals in REG space -/

theorem State.refuse_links (s : State) (by_ : Issuer) (a : Nat) (inReg write fs4 : Bool) :
    (s.refuse by_ a inReg write fs4).links = s.links := State.refuse_does.same .links (by decide) (by decide)

theorem State.refuse_keepsRegs (s : State) (by_ : Issuer) (a : Nat) (write fs4 : Bool) :
    KeepsRegs [rejBlock a * 0x100000 + 8, rejBlock a * 0x100000 + 12] s (s.refuse by_ a true write fs4) := by
  cases write <;> cases fs4
  · exact (KeepsRegs.refl _ s).setReg (by simp) _
  · exact (KeepsRegs.refl _ s).setReg (by simp) _
  · exact s.reject_keepsRegs by_ .acc a
  · exact s.reject_keepsRegs by_ .acc a

theorem State.refuse_agenda (s : State) (by_ : Issuer) (a : Nat) (inReg write : Bool) :
    (s.refuse by_ a inReg write true).agenda = insertDue ⟨s.count + cyc 64, .island islLink, .raise 4 islLink⟩ s.agenda := by
  cases write <;> rfl

theorem State.refuse_sameLine (s : State) (p : Port) (by_ : Issuer) (a : Nat) (write fs4 : Bool) :
    SameLine p s (s.refuse by_ a true write fs4) :=
  SameLine.of_links (s.refuse_keepsRegs by_ a write fs4 _ (by unfold aLP_STAT; simp; omega)) (s.refuse_links _ _ _ _ _)

/-- An access of REG space refused with FS 4 and answered: the answer goes out, and BLK_REJ and BLK_REJAT of the block of its
address show it (R47). -/
theorem refuse_answered (hs : Sends p h.vc.toNat s) (by_ : Issuer) (a st : Nat) (write : Bool) (data : List Byte) :
    let t := (s.refuse by_ a true write true).rdr p h st data
    t.out = s.out ++ [.rdr p h.vc h.tag (BitVec.ofNat 3 st) data] ∧
    t.agenda = insertDue ⟨s.count + cyc 64, .island islLink, .raise 4 islLink⟩ s.agenda ∧ t.staging = s.staging ∧
    t.shadow = s.shadow ∧ KeepsRegs [rejBlock a * 0x100000 + 8, rejBlock a * 0x100000 + 12] s t ∧ KeepsMemory s t := by
  intro t
  have href : Does [.regs, .agenda, .fresh] [] s (s.refuse by_ a true write true) := State.refuse_does
  have hrdr : Does [.out, .links] [] (s.refuse by_ a true write true) t := State.rdr_does
  have hdoes : Does [.regs, .agenda, .fresh, .out, .links] [] s t := hrdr.call (by decide) (href.mono (by decide))
  refine ⟨?_, ?_, hdoes.same .staging (by decide) (by decide), hdoes.same .shadow (by decide) (by decide),
    (s.refuse_keepsRegs by_ a write true).trans ((State.rdr_keepsRegs _ _ _ _ _).mono (by simp)),
    KeepsMemory.of_does hdoes (by decide)⟩
  · rw [State.rdr_out (hs.of_sameLine (s.refuse_sameLine p by_ a write true)),
      href.same .out (by decide) (by decide)]
  · exact (hrdr.same .agenda (by decide) (by decide)).trans (s.refuse_agenda _ _ _ _)

theorem State.hostRead_refused {off n st : Nat} (hin : off + n ≤ 0x10000000) (hshape : regShape off n false = some st) :
    s.hostRead p (BitVec.ofNat 48 off) n = (st, [], s.refuse (.port p) off true false true) := by
  unfold State.hostRead
  simp only [hostSpace_of_reg (by omega : off ≤ 0x10000000), hostOffset_of_reg (by omega : off ≤ 0x10000000), hshape,
    show spaceSize 0 = 0x10000000 from rfl, if_neg (by omega : ¬ 0x10000000 < off + n), if_true]

/-- A narrow read of a mapped register returns the selected bytes of its word (R43). -/
theorem State.hostRead_narrow {off n : Nat} (hin : off + n ≤ 0x10000000) (hshape : regShape off n false = none) (hn : n < 4)
    (hmap : regMapped (off / 4 * 4) = true) (hmay : s.mayReg (s.sessRole p.val) (off / 4 * 4) false = true) :
    s.hostRead p (BitVec.ofNat 48 off) n =
      (stOk, ((leBytes 4 (s.portRead p.val (off / 4 * 4)).1.toNat).drop (off % 4)).take n,
        (s.portRead p.val (off / 4 * 4)).2) := by
  unfold State.hostRead
  simp only [hostSpace_of_reg (by omega : off ≤ 0x10000000), hostOffset_of_reg (by omega : off ≤ 0x10000000), hshape,
    show spaceSize 0 = 0x10000000 from rfl, if_neg (by omega : ¬ 0x10000000 < off + n), if_true, if_pos hn,
    State.readWords, hmap, hmay]
  simp [worse]

theorem State.wrGo_refused {off st role : Nat} {due : Count} {data : List Byte} (hin : off + data.length ≤ 0x10000000)
    (hlen : data ≠ []) (hshape : regShape off data.length true = some st) :
    s.wrGo p ⟨h, BitVec.ofNat 48 off, due, 0, data⟩ role false =
      (s.refuse (.port p) off true true true).rdr p h st (leBytes 4 off) := by
  unfold State.wrGo State.hostWrite
  have hpos : data.length ≠ 0 := by simpa using hlen
  simp only [hostSpace_of_reg (by omega : off ≤ 0x10000000), hostOffset_of_reg (by omega : off ≤ 0x10000000), hshape,
    show spaceSize 0 = 0x10000000 from rfl, Option.isNone_some, if_true, Bool.false_eq_true, and_false, if_false]
  rw [if_neg (by omega)]

theorem State.performRead_of_reg {off : Nat} {len : BitVec 8} (hoff : off ≤ 0x10000000) :
    s.performRead p ⟨h, BitVec.ofNat 48 off, 0, len⟩ =
      let r := s.hostRead p (BitVec.ofNat 48 off) (len.toNat + 1)
      r.2.2.rdr p h r.1 r.2.1 := by
  unfold State.performRead
  simp only [hostSpace_of_reg hoff]
  rw [if_neg (by omega)]

end Sys2Proof.Machine
end

section
/-! Narrow and unaligned accesses of a host port (O57, O58). -/
namespace Sys2Proof.Machine

variable {p : Port} {h : HostHdr} {s : State}

/-- A read that is refused for its shape is answered with the status alone (R407). -/
theorem exec_rd_refused {off n st : Nat} (hr : RequestTaken p h s) (hs : Sends p 0 s) (htimed : h.timed = false)
    (huntimed : (s.link p.val).untimed = none) (hn : 0 < n) (hn' : n ≤ 256) (hin : off + n ≤ 0x10000000)
    (hshape : regShape off n false = some st) :
    Completes (.rd p ⟨h, BitVec.ofNat 48 off, 0, BitVec.ofNat 8 (n - 1)⟩) s (fun t =>
      t.out = s.out ++ [.rdr p 0 h.tag (BitVec.ofNat 3 st) []] ∧
      t.agenda = insertDue ⟨s.count + cyc 64, .island islLink, .raise 4 islLink⟩ s.agenda ∧ t.staging = s.staging ∧
      t.shadow = s.shadow ∧ KeepsRegs [rejBlock off * 0x100000 + 8, rejBlock off * 0x100000 + 12] s t ∧ KeepsMemory s t) := by
  have hlen : (BitVec.ofNat 8 (n - 1)).toNat + 1 = n := by rw [BitVec.toNat_ofNat]; omega
  have hsends : Sends p h.vc.toNat (s.takeFrame p 0) := by
    rw [hr.vc]; exact hs.of_sameLine (s.takeFrame_sameLine p 0)
  refine ⟨_, exec_rd_of_taken hr htimed (by omega) huntimed, ?_⟩
  rw [State.performRead_of_reg (by omega), hlen, State.hostRead_refused hin hshape, ← hr.vc]
  exact refuse_answered hsends _ _ _ _ _

/-- A write that is refused for its shape is answered with the status and its offset (R415). -/
theorem exec_wr_refused {off st : Nat} {due : Count} {data : List Byte} (hr : RequestTaken p h s) (hs : Sends p 0 s)
    (hdue : h.timed = false → due = 0) (hpos : data ≠ []) (hlen : data.length ≤ 256)
    (hin : off + data.length ≤ 0x10000000) (hshape : regShape off data.length true = some st) :
    Completes (.wr p ⟨h, BitVec.ofNat 48 off, due, 0, data⟩) s (fun t =>
      t.out = s.out ++ [.rdr p 0 h.tag (BitVec.ofNat 3 st) (leBytes 4 off)] ∧
      t.agenda = insertDue ⟨s.count + cyc 64, .island islLink, .raise 4 islLink⟩ s.agenda ∧ t.staging = s.staging ∧
      t.shadow = s.shadow ∧ KeepsRegs [rejBlock off * 0x100000 + 8, rejBlock off * 0x100000 + 12] s t ∧ KeepsMemory s t) := by
  have hsends : Sends p h.vc.toNat (s.takeFrame p 0) := by
    rw [hr.vc]; exact hs.of_sameLine (s.takeFrame_sameLine p 0)
  refine ⟨_, exec_wr_of_taken hr hdue (by omega) hlen, ?_⟩
  rw [State.wrGo_refused hin hpos hshape, ← hr.vc]
  exact refuse_answered hsends _ _ _ _ _

/-- A narrow read of a mapped register that the role may read is answered with the selected bytes (R43). -/
theorem exec_rd_narrow {off n : Nat} (hr : RequestTaken p h s) (hs : Sends p 0 s) (htimed : h.timed = false)
    (huntimed : (s.link p.val).untimed = none) (hn : 0 < n) (hn' : n < 4) (hin : off + n ≤ 0x10000000)
    (hshape : regShape off n false = none) (hmap : regMapped (off / 4 * 4) = true)
    (hmay : s.mayReg (s.sessRole p.val) (off / 4 * 4) false = true) :
    Completes (.rd p ⟨h, BitVec.ofNat 48 off, 0, BitVec.ofNat 8 (n - 1)⟩) s (fun t => t.out = s.out ++
        [.rdr p 0 h.tag 0 (((leBytes 4 (s.portRead p.val (off / 4 * 4)).1.toNat).drop (off % 4)).take n)] ∧
      t.agenda = s.agenda ∧ KeepsRegs [] s t ∧ KeepsMemory s t) := by
  have hlen : (BitVec.ofNat 8 (n - 1)).toNat + 1 = n := by rw [BitVec.toNat_ofNat]; omega
  have hword : ((s.takeFrame p 0).portRead p.val (off / 4 * 4)).1 = (s.portRead p.val (off / 4 * 4)).1 :=
    State.portRead_congr (s.takeFrame_readReg p 0 p.val) rfl _
  have hread : Does [.shadow] [] (s.takeFrame p 0) ((s.takeFrame p 0).portRead p.val (off / 4 * 4)).2 :=
    State.portRead_does
  have hsends : Sends p h.vc.toNat ((s.takeFrame p 0).portRead p.val (off / 4 * 4)).2 := by
    rw [hr.vc]
    exact hs.of_sameLine ((s.takeFrame_sameLine p 0).trans
      (SameLine.of_links (hread.regs (by decide) _ (by simp)) (hread.same .links (by decide) (by decide))))
  refine ⟨_, exec_rd_of_taken hr htimed (by omega) huntimed, ?_⟩
  rw [State.performRead_of_reg (by omega), hlen,
    State.hostRead_narrow (s := s.takeFrame p 0) hin hshape hn' hmap hmay, hword]
  have hdoes : Does [.shadow, .out, .links] [] s (State.rdr ((s.takeFrame p 0).portRead p.val (off / 4 * 4)).2 p h stOk
      (((leBytes 4 (s.portRead p.val (off / 4 * 4)).1.toNat).drop (off % 4)).take n)) :=
    State.rdr_does.call (by decide) (hread.call (by decide) (State.takeFrame_does.mono (by decide)))
  refine ⟨?_, hdoes.same .agenda (by decide) (by decide), fun a _ => hdoes.regs (by decide) a (by simp),
    KeepsMemory.of_does hdoes (by decide)⟩
  show (State.rdr _ p h stOk _).out = _
  rw [State.rdr_out hsends, hread.same .out (by decide) (by decide), hr.vc]
  rfl

/-! ## The shapes of R43 and R45 -/

theorem regShape_narrow {off n : Nat} (write : Bool) (hn : n = 1 ∨ n = 2) (haligned : off % n = 0) :
    regShape off n write = if write then some stNarrow else none := by
  unfold regShape
  rw [if_pos (by omega), if_neg (by omega)]

theorem regShape_unaligned {off n : Nat} (write : Bool) (hn : n = 2 ∨ n = 4 ∨ n = 8) (hoff : off % n ≠ 0) :
    regShape off n write = some stUnaligned := by
  unfold regShape
  obtain rfl | rfl | rfl := hn
  · rw [if_pos (by omega), if_pos (.inl hoff)]
  · rw [if_neg (by omega), if_pos (by omega)]
  · rw [if_neg (by omega), if_pos (by omega)]

/-- Settles O57: the shape of the access decides (`regShape_narrow`), and a read or a write goes on as that says. -/
theorem narrowAccess : Obligations.NarrowAccess := by
  unfold Obligations.NarrowAccess
  rintro p h off n due data s k b taken ⟨hact, horder, hses, hprot, htag, hres, hvc, hsends, hfree⟩ hn haligned hin
  have hr : RequestTaken p h s := ⟨hact, horder, hses, hprot, htag, hres, hvc, hfree⟩
  constructor
  · intro htimed huntimed hmap hmay
    exact exec_rd_narrow hr hsends htimed huntimed (by omega) (by omega) hin (regShape_narrow false hn haligned) hmap hmay
  · rintro rfl hdue
    obtain ⟨t, ht, hout, hagenda, hstaging, -, hregs, hmem⟩ := exec_wr_refused hr hsends hdue
      (by rintro rfl; simp at hn) (by omega) hin (regShape_narrow true hn haligned)
    exact ⟨t, ht, hout, hagenda, hstaging, hregs, hmem⟩

/-- Settles O58: an access of a width that its address is no multiple of is refused for its shape (`regShape_unaligned`). -/
theorem unalignedAccess : Obligations.UnalignedAccess := by
  unfold Obligations.UnalignedAccess
  rintro p h off n due data s k b taken refused ⟨hact, horder, hses, hprot, htag, hres, hvc, hsends, hfree⟩ hn hoff hin
  have hr : RequestTaken p h s := ⟨hact, horder, hses, hprot, htag, hres, hvc, hfree⟩
  constructor
  · intro htimed huntimed
    exact exec_rd_refused hr hsends htimed huntimed (by omega) (by omega) hin (regShape_unaligned false hn hoff)
  · rintro rfl hdue
    exact exec_wr_refused hr hsends hdue (by rintro rfl; simp at hn) (by omega) hin (regShape_unaligned true hn hoff)

end Sys2Proof.Machine
end

section
/-! A timed write whose due time lies more than half the range of the count after the present cycle (O37): it has the lead of R75
by `State.tooSoon`, which asks of the instant 50 µs on, and yet has passed by `Count.upto`, so nothing of it is held. -/
namespace Sys2Proof.Machine

variable {p : Port} {h : HostHdr} {s : State}

/-! ## A word whose due time has passed at its island -/

theorem State.late_agenda (s : State) (kind src dst : Nat) (due arr : Count) :
    (s.late kind src dst due arr).agenda =
      insertDue ⟨s.count + cyc 64, .island (Fin.ofNat 80 dst), .raise 8 (Fin.ofNat 80 dst)⟩ s.agenda := by
  unfold State.late
  rw [State.raise_agenda]
  rfl

/-- A word whose due cycle does not lie ahead, whatever the ford's latency, is late. -/
theorem State.holdWord_of_passed {by_ : Issuer} {a : Nat} {due : Count} {w : Word} (hseg : a / 0x100000 ≠ 7)
    (hpassed : ∀ n < 65, Count.upto (Count.cycleStart s.count + cyc n) (Count.cycleStart due) = false) :
    s.holdWord by_ a due w = { s with free := s.free + 1 }.late 0 76 (s.regIsland (regTarget a).1).val due
      (Count.cycleStart s.count + cyc (Config.fordLatency s.free % 65)) := by
  have hlate := hpassed (Config.fordLatency s.free % 65) (Nat.mod_lt _ (by omega))
  unfold State.holdWord
  extract_lets -underBinder -merge -useContext addr b r dst lat s0 need arrive
  have hneed : need = Count.cycleStart due := by
    unfold need b
    rw [if_neg hseg]
    bv_omega
  have hpass : Count.upto arrive need = false := by rw [hneed]; exact hlate
  rw [hpass]
  exact if_pos rfl

/-- A word of a plain register that the role may write is held for its due time (R9, R44). -/
theorem State.writeWords_word {by_ : Issuer} {role a : Nat} {due : Count} {w : Word} (hmap : regMapped a = true)
    (halias : aliasWide a = false) (hpush : pushReg a = none) (hfwd : forwardGroup a = false)
    (hmay : s.mayReg role a true = true) (hlead : s.tooSoon (some due) = false) :
    (s.writeWords by_ (some role) a (some due) [w]).2.2 = s.holdWord by_ a due w := by
  unfold State.writeWords
  simp [hmap, halias, hpush, hfwd, hmay, hlead, State.writeWords]

/-! ## The end of a WR -/

theorem State.wrWords_nil_agenda (f : WrFrame) (role i st : Nat) (quiet : Bool) (bad : List Byte) :
    (s.wrWords p f role quiet [] i st bad).agenda = s.agenda := by
  unfold State.wrWords
  extract_lets -underBinder -merge -useContext off timed s1 x s2
  have h1 : s1.agenda = s.agenda := by
    unfold s1
    split
    · exact State.forwardWords_does.same .agenda (by decide) (by decide)
    · rfl
  have h2 : s2.agenda = s.agenda := by
    unfold s2
    split <;> exact h1
  split
  · exact h2
  · exact (State.rdr_does.same .agenda (by decide) (by decide)).trans h2

theorem State.wrWords_single_agenda (f : WrFrame) (role st i : Nat) (quiet : Bool) (bad : List Byte) (w : Word) :
    (s.wrWords p f role quiet [w] i st bad).agenda =
      (s.writeWords (.port p) (some role) (hostOffset f.addr + 4 * i) (if f.hdr.timed then some f.due else none)
        [w]).2.2.agenda := by
  unfold State.wrWords
  extract_lets -underBinder -merge -useContext timed r
  split
  · rfl
  · exact State.wrWords_nil_agenda _ _ _ _ _ _

/-- A timed WR of one word to REG space holds what the write of that word holds. -/
theorem State.wrGo_of_word {off role : Nat} {due : Count} {data : List Byte} {w : Word}
    (hshape : regShape off data.length true = none) (hbytes : bytesWords data = [w]) (hlen : data.length = 4)
    (htimed : h.timed = true) (hin : off + 4 ≤ 0x10000000) :
    (s.wrGo p ⟨h, BitVec.ofNat 48 off, due, 0, data⟩ role false).agenda =
      (s.writeWords (.port p) (some role) off (some due) [w]).2.2.agenda := by
  have hsize : spaceSize 0 = 0x10000000 := rfl
  have hoff : off ≤ 0x10000000 := by omega
  unfold State.wrGo
  simp only [hostSpace_of_reg hoff, hostOffset_of_reg hoff, hshape, hbytes, hsize]
  rw [if_pos ⟨trivial, by omega, by omega, rfl⟩, State.wrWords_single_agenda]
  simp only [hostOffset_of_reg hoff, htimed, if_true, Nat.mul_zero, Nat.add_zero]

/-! ## The counterexample -/

/-- A timed write of 0 to GLB_SCRATCH by port 0, and the due time: 2⁷¹ TBU, half the range of the count, and 8,960,000 more. -/
def farHeader : HostHdr :=
  { vc := 0, timed := true, prot := true, reserved := false, seq := 0, tag := 0, crcGood := true, tagGood := true }
def farDue : Count := BitVec.ofNat 72 (2 ^ 71 + 8960000)

/-- Port 0 is ACTIVE with an engineer's session and one credit on each VC; the count stands at 0, and nothing is held. -/
def farState : State :=
  { regs := [(aLP_STAT 0, 0x400B0000#32)], links := [(0, { limits := [1, 1, 1, 1] })] }

theorem farState_taken : RequestTaken 0 farHeader farState :=
  ⟨by decide +kernel, by decide +kernel, by decide +kernel, rfl, rfl, rfl, rfl, by decide +kernel⟩

theorem farState_sends : Sends 0 0 farState := by unfold Sends; decide +kernel

theorem farState_may : farState.mayReg (farState.sessRole 0) 0x30 true = true := by decide +kernel

theorem farState_lead : farState.tooSoon (some farDue) = false := by decide +kernel

theorem farDue_passed : ∀ n < 65, Count.upto (Count.cycleStart farState.count + cyc n) (Count.cycleStart farDue) = false := by
  decide +kernel

/-- Nothing but FS 8 is held after that write. -/
theorem farWrite_agenda : ∃ t dst, exec (.wr 0 ⟨farHeader, 0x30, farDue, 0, leBytes 4 0⟩) farState = .next t ∧
    t.agenda = [⟨cyc 64, .island dst, .raise 8 dst⟩] := by
  have hexec := exec_wr_of_taken (off := 0x30) (due := farDue) (data := leBytes 4 0) farState_taken (by decide) (by decide)
    (by decide)
  have hgo := State.wrGo_of_word (s := farState.takeFrame 0 0) (p := 0) (h := farHeader) (off := 0x30) (due := farDue)
    (data := leBytes 4 0) (w := 0) (role := farState.sessRole 0) (by decide +kernel) rfl rfl rfl (by decide)
  have hlate := State.holdWord_of_passed (s := farState.takeFrame 0 0) (by_ := .port 0) (a := 0x30) (w := 0)
    (by decide) farDue_passed
  have hword := State.writeWords_word (s := farState.takeFrame 0 0) (by_ := .port 0) (a := 0x30) (w := 0) (due := farDue)
    (by decide +kernel) (by decide +kernel) rfl (by decide +kernel) farState_may farState_lead
  rw [hword, hlate, State.late_agenda] at hgo
  exact ⟨_, _, hexec, hgo⟩

/-- Refutes O37: `farState` takes a timed write that is due 8,960,000 TBU beyond half the range of the count. It is not too
soon, and yet it is not held: its due cycle counts as one that has passed. -/
theorem not_hostRequests : ¬ Obligations.HostRequests := by
  unfold Obligations.HostRequests
  intro hall
  obtain ⟨-, -, hdated, -⟩ := hall 0 farHeader 0 farDue 0 [] 0 0 farState
  obtain ⟨hact, horder, hses, hprot, htag, hres, hvc, hfree⟩ := farState_taken
  obtain ⟨t, ht, hheld, -⟩ := hdated ⟨⟨hact, horder⟩, hses, hprot, htag, hvc⟩ hres rfl farState_sends hfree farState_may
    farState_lead
  obtain ⟨u, dst, hu, hagenda⟩ := farWrite_agenda
  obtain rfl : t = u := Host.Outcome.next.inj (ht.symm.trans hu)
  rw [hagenda] at hheld
  simp at hheld

end Sys2Proof.Machine
end

section
/-! The release of the die (R503, R505, R507): step 4 of R503, what it raises, and the sources that still hold the die. -/
namespace Sys2Proof.Machine

variable {s t : State}

/-! ## Step 4 of R503 -/

/-- An enable of a block other than TBS, LPE, ACQ and the islands touches that block's registers, HBM's queue and the links
alone. -/
theorem State.blockOn_does_plain {b : Nat} (htbs : b ≠ 1) (hlpe : b ≠ 6) (hacq : b ≠ 10) (hisl : b < 64) :
    Does [.fresh, .hbm, .links] [b] s (s.blockOn b) := by
  have hset : Does [.fresh, .hbm, .links] [b] s (s.setEn b true) :=
    Does.setReg_in (.inr (by unfold regBlk; simp; omega)) Does.refl
  unfold State.blockOn
  simp only [if_neg htbs, if_neg hlpe, if_neg hacq, if_neg (Nat.not_le.mpr hisl)]
  refine Does.ite (fun _ => Does.refl) (fun _ => Does.ite (fun hhbm => ?_) (fun _ => Does.ite (fun hlnk => ?_) (fun _ => hset)))
  · exact Does.call State.hbmUnhold_does (by rw [hhbm]; decide) hset
  · exact Does.call State.linksDetect_does (by rw [hlnk]; decide) hset

/-- The state with the blocks of step 4 enabled, the mailbox ready and HBM in training (R503). -/
def State.stepFour (s : State) : State :=
  ((((((((s.blockOn 13).blockOn 3).blockOn 12).blockOn 14).blockOn 15).setFld aGLB_RSTCAUSE fGLB_RSTCAUSE_STEP 4).latch
    aMGT_STAT fMGT_STAT_READY).trainAt 0)

theorem State.releaseDie_eq (s : State) : s.releaseDie =
    if s.stepFour.bit aFLT_RSTSRC fFLT_RSTSRC_VALID then s.stepFour.raise 1 islManagement else s.stepFour := rfl

theorem State.stepFour_does : Does [.fresh, .hbm, .links] [0, 3, 12, 13, 14, 15, 16] s s.stepFour := by
  have hon : ∀ {t : State} (b : Nat), b ∈ [3, 12, 13, 14, 15] →
      Does [.fresh, .hbm, .links] [0, 3, 12, 13, 14, 15, 16] t (t.blockOn b) := by
    intro t b hb
    simp only [List.mem_cons, List.not_mem_nil, or_false] at hb
    refine (State.blockOn_does_plain (by omega) (by omega) (by omega) (by omega)).mono ?_
    obtain rfl | rfl | rfl | rfl | rfl := hb <;> decide
  have hblocks := (hon 15 (by decide)).after ((hon 14 (by decide)).after ((hon 12 (by decide)).after
    ((hon 3 (by decide)).after (hon (t := s) 13 (by decide)))))
  exact Does.call State.trainAt_does (by decide)
    (Does.latch adr_MGT_STAT (by decide) (Does.setFld adr_GLB_RSTCAUSE (by decide) hblocks))

theorem State.trainAt_keepsEn (s : State) (r : BitVec 2) : KeepsEn s (s.trainAt r) :=
  ((KeepsEn.refl s).latch (a := aHBM_STAT) (by decide) _).setReg (a := aHBM_STAT) (by decide) _

theorem State.stepFour_keepsEn_blocks :
    KeepsEn (((((s.blockOn 13).blockOn 3).blockOn 12).blockOn 14).blockOn 15) s.stepFour := by
  unfold State.stepFour
  exact KeepsEn.trans (KeepsEn.latch ((KeepsEn.refl _).setReg (a := aGLB_RSTCAUSE) (by decide) _) (a := aMGT_STAT) (by decide) _)
    (State.trainAt_keepsEn _ _)

theorem State.stepFour_blkOn {b : Nat} (hb : b ∈ [13, 3, 12, 14, 15]) : s.stepFour.blkOn b = true := by
  rw [State.stepFour_keepsEn_blocks.blkOn]
  simp only [State.blockOn_blkOn]
  simp only [List.mem_cons, List.not_mem_nil, or_false] at hb
  obtain rfl | rfl | rfl | rfl | rfl := hb <;> simp

theorem State.stepFour_step : s.stepFour.fld aGLB_RSTCAUSE fGLB_RSTCAUSE_STEP = 4 := by
  unfold State.stepFour
  generalize ((((s.blockOn 13).blockOn 3).blockOn 12).blockOn 14).blockOn 15 = u
  have hset := u.fld_setFld_self aGLB_RSTCAUSE fGLB_RSTCAUSE_STEP 4 (by decide) (by decide)
  have hreg := (State.trainAt_does (s := (u.setFld aGLB_RSTCAUSE fGLB_RSTCAUSE_STEP 4).latch aMGT_STAT fMGT_STAT_READY)
    (r := 0)).regs (by decide) aGLB_RSTCAUSE (by decide)
  exact (State.fld_congr _ (hreg.trans (State.reg_setReg_ne _ _ (by decide)))).trans hset

theorem State.stepFour_ready : s.stepFour.bit aMGT_STAT fMGT_STAT_READY = true := by
  unfold State.stepFour
  rw [State.bit_congr _ (State.trainAt_does.regs (by decide) _ (by decide))]
  exact State.bit_latch_self _ _ _ rfl (by decide)

theorem State.trainAt_training (s : State) (r : BitVec 2) : (s.trainAt r).bit aHBM_STAT fHBM_STAT_TRAINING = true := by
  have hset := ((s.latch aHBM_STAT fHBM_STAT_TRAINING).bit_setBit_beside aHBM_STAT fHBM_STAT_TRAINED fHBM_STAT_TRAINING false
    (by decide) (by decide) (by decide)).trans (State.bit_latch_self _ _ _ rfl (by decide))
  exact hset

/-- What the release of the die shows, whatever was held before it. -/
structure ReleasedFull (s t : State) : Prop where
  power : t.power = s.power
  step : t.fld aGLB_RSTCAUSE fGLB_RSTCAUSE_STEP = 4
  ready : t.bit aMGT_STAT fMGT_STAT_READY = true
  training : t.bit aHBM_STAT fHBM_STAT_TRAINING = true
  enabled : ∀ b ∈ [13, 3, 12, 14, 15], t.blkOn b = true
  reaction : s.bit aFLT_RSTSRC fFLT_RSTSRC_VALID = true → Raises 1 islManagement s t
  causes : t.causes = s.causes
  agenda : ∀ d ∈ s.agenda, d ∈ t.agenda

theorem State.releaseDie_full (s : State) : ReleasedFull s s.releaseDie := by
  have hdoes := State.stepFour_does (s := s)
  have hagenda : s.stepFour.agenda = s.agenda := hdoes.same .agenda (by decide) (by decide)
  have hcount : s.stepFour.count = s.count := hdoes.same .count (by decide) (by decide)
  have hpower : s.stepFour.power = s.power := hdoes.same .power (by decide) (by decide)
  have hcauses : s.stepFour.causes = s.causes := hdoes.same .causes (by decide) (by decide)
  have hsrc : s.stepFour.bit aFLT_RSTSRC fFLT_RSTSRC_VALID = s.bit aFLT_RSTSRC fFLT_RSTSRC_VALID :=
    State.bit_congr _ (hdoes.regs (by decide) _ (by decide))
  have htrain : s.stepFour.bit aHBM_STAT fHBM_STAT_TRAINING = true := State.trainAt_training _ _
  have hstep := State.stepFour_step (s := s)
  have hready := State.stepFour_ready (s := s)
  have hon := fun b hb => State.stepFour_blkOn (s := s) (b := b) hb
  rw [State.releaseDie_eq, hsrc]
  generalize s.stepFour = t at *
  split
  · refine ⟨hpower, hstep, hready, htrain, hon, fun _ => ?_,
      hcauses, fun d hd => ?_⟩
    · unfold Raises
      rw [← hcount]
      exact raises_raise _ _ _
    · rw [State.raise_agenda, mem_insertDue, hagenda]
      exact .inr hd
  next hvalid =>
    exact ⟨hpower, hstep, hready, htrain, hon,
      fun h => absurd h hvalid, hcauses, fun d hd => hagenda ▸ hd⟩

/-! ## The end of a source (R507) -/

/-- No source holds the die. -/
def State.unheldBare (s : State) : State := { s with power := { s.power with holding := [] } }

/-- The state that is released: no source holds the die, and an oven out of regulation has raised FS 11 (R68). -/
def State.unheld (s : State) : State :=
  if s.power.oven then s.unheldBare else (s.unheldBare.causeOn 11 0).raise 11 islManagement

theorem State.tryRelease_none (hheld : s.power.holding ≠ []) : s.tryRelease [] =
    if s.bit aGLB_RSTCAUSE fGLB_RSTCAUSE_LIMITED then s.unheld.releaseLimited else s.unheld.releaseDie := by
  unfold State.tryRelease
  have hsome : s.power.holding.isEmpty = false := by simpa using hheld
  simp only [hsome, List.isEmpty_nil]
  rfl

theorem State.tryRelease_some {left : List Nat} (h : s.power.holding = [] ∨ left ≠ []) :
    s.tryRelease left = { s with power := { s.power with holding := left } } := by
  unfold State.tryRelease
  have hstay : (s.power.holding.isEmpty || !left.isEmpty) = true := by
    rw [Bool.or_eq_true, List.isEmpty_iff, Bool.not_eq_true', List.isEmpty_eq_false_iff]
    exact h
  simp only [hstay, if_true]

theorem State.causeOn_causeStands (s : State) (fs inst : Nat) : (s.causeOn fs inst).causeStands fs = true := by
  unfold State.causeOn State.causeStands
  split
  next h => exact List.any_eq_true.mpr ⟨_, h, by simp⟩
  next => simp

theorem State.unheldBare_does : Does [.power] [] s s.unheldBare := Does.put_power (by decide) Does.refl

theorem State.unheld_does_bare : Does [.agenda, .causes] [] s.unheldBare s.unheld :=
  Does.ite (fun _ => Does.refl) (fun _ => Does.call State.raise_does (by decide)
    (Does.call State.causeOn_does (by decide) Does.refl))

theorem State.unheld_holding (s : State) : s.unheld.power.holding = [] := by
  rw [State.unheld_does_bare.same .power (by decide) (by decide)]
  rfl

theorem State.unheld_does : Does [.agenda, .causes, .power] [] s s.unheld :=
  Does.call State.unheld_does_bare (by decide) (State.unheldBare_does.mono (by decide))

theorem State.unheld_keepsRegs (s : State) : KeepsRegs [] s s.unheld :=
  fun a _ => State.unheld_does.regs (by decide) a (by simp)

theorem State.unheld_count (s : State) : s.unheld.count = s.count := State.unheld_does.same .count (by decide) (by decide)

theorem State.unheld_oven (hoven : s.power.oven = false) :
    s.unheld.causeStands 11 = true ∧ Raises 11 islManagement s s.unheld := by
  have hcount : (s.unheldBare.causeOn 11 0).count = s.count := State.causeOn_does.same .count (by decide) (by decide)
  unfold State.unheld
  rw [hoven]
  refine ⟨State.causeOn_causeStands s.unheldBare 11 0, ?_⟩
  unfold Raises
  rw [← hcount]
  exact raises_raise _ _ _

theorem State.tryRelease_full (hheld : s.power.holding ≠ []) (hfull : s.bit aGLB_RSTCAUSE fGLB_RSTCAUSE_LIMITED = false) :
    let t := s.tryRelease []
    t.power.holding = [] ∧ t.fld aGLB_RSTCAUSE fGLB_RSTCAUSE_STEP = 4 ∧
    t.bit aMGT_STAT fMGT_STAT_READY = true ∧ t.bit aHBM_STAT fHBM_STAT_TRAINING = true ∧
    (∀ b ∈ [13, 3, 12, 14, 15], t.blkOn b = true) ∧
    (s.bit aFLT_RSTSRC fFLT_RSTSRC_VALID = true → Raises 1 islManagement s t) ∧
    (s.power.oven = false → t.causeStands 11 = true ∧ Raises 11 islManagement s t) ∧ KeepsMemory s t := by
  intro t
  have ht : t = s.unheld.releaseDie := by
    unfold t
    rw [State.tryRelease_none hheld, hfull]
    rfl
  have hmem : KeepsMemory s t := KeepsMemory.of_does State.tryRelease_does (by decide)
  have hrel := s.unheld.releaseDie_full
  rw [← ht] at hrel
  refine ⟨by rw [hrel.power, s.unheld_holding], hrel.step, hrel.ready, hrel.training, hrel.enabled, fun hsrc => ?_,
    fun hoven => ⟨?_, ?_⟩, hmem⟩
  · have hraise := hrel.reaction ((State.bit_congr _ (s.unheld_keepsRegs _ (by simp))).trans hsrc)
    unfold Raises at hraise ⊢
    rwa [s.unheld_count] at hraise
  · unfold State.causeStands
    rw [hrel.causes]
    exact (State.unheld_oven hoven).1
  · exact hrel.agenda _ (State.unheld_oven hoven).2

theorem State.tryRelease_limited (hheld : s.power.holding ≠ []) (hlim : s.bit aGLB_RSTCAUSE fGLB_RSTCAUSE_LIMITED = true) :
    let t := s.tryRelease []
    t.power.holding = [] ∧ t.blkOn 13 = true ∧ t.blkOn 3 = true ∧ t.blkOn 12 = s.blkOn 12 ∧
    t.blkOn 14 = s.blkOn 14 ∧ t.blkOn 15 = s.blkOn 15 ∧ KeepsMemory s t := by
  intro t
  have ht : t = (s.unheld.blockOn 13).blockOn 3 := by
    unfold t
    rw [State.tryRelease_none hheld, hlim]
    rfl
  have hpower : t.power = s.unheld.power := by
    rw [ht]
    exact State.releaseLimited_does.same .power (by decide) (by decide)
  have hblk : ∀ b, t.blkOn b = (decide (b = 3) || (decide (b = 13) || s.blkOn b)) := by
    intro b
    rw [ht, State.blockOn_blkOn, State.blockOn_blkOn, (KeepsEn.of_keepsRegs s.unheld_keepsRegs (by simp)).blkOn]
  refine ⟨by rw [hpower, s.unheld_holding], ?_, ?_, ?_, ?_, ?_, KeepsMemory.of_does State.tryRelease_does (by decide)⟩
  all_goals simp [hblk]

theorem State.tryRelease_stays {left : List Nat} (hleft : left ≠ []) :
    let t := s.tryRelease left
    t.power.holding = left ∧ t.agenda = s.agenda ∧ KeepsRegs [] s t ∧ KeepsMemory s t := by
  intro t
  have ht : t = _ := State.tryRelease_some (s := s) (.inr hleft)
  rw [ht]
  exact ⟨rfl, rfl, fun _ _ => rfl, fun _ => ⟨rfl, rfl, rfl⟩⟩

theorem State.tryRelease_unheld (hnone : s.power.holding = []) : s.tryRelease [] = s := by
  rw [State.tryRelease_some (.inl hnone), ← hnone]

end Sys2Proof.Machine
end

section
/-! Resets of one block (R40, R506): the registers that `State.resetRegs` sets and leaves, BUS, and an island. -/
namespace Sys2Proof.Machine

variable {s t : State} {cls : Cls → Bool} {keep : Nat → Bool} {b a i : Nat}

/-! ## One register word -/

/-- A bit of a field of a class that a reset names takes its reset value (R40). -/
theorem resetWord_getLsbD {r : RegRow} {is : List Nat} {k : Nat} (w : Word)
    (hheader : a % 0x100000 ∉ [0, 4, 8, 12]) (hrow : rowAt a = some (r, is, k))
    (hfld : r.flds.any (fun f => cls f.cls && !f.str && (bitMask f.hi f.lo).getLsbD i) = true) :
    (resetWord cls a w).getLsbD i = (regReset a).getLsbD i := by
  have hset : ∀ m x : Word, ((x &&& ~~~m) ||| (regReset a &&& m)).getLsbD i =
      if m.getLsbD i then (regReset a).getLsbD i else x.getLsbD i := by
    intro m x
    rw [BitVec.getLsbD_or, BitVec.getLsbD_and, BitVec.getLsbD_and, BitVec.getLsbD_not]
    cases hm : m.getLsbD i with
    | false => simpa using BitVec.lt_of_getLsbD (x := x) (i := i)
    | true => simp
  have hfold : ∀ (l : List FldRow) (x : Word),
      (x.getLsbD i = (regReset a).getLsbD i ∨ ∃ f ∈ l, (bitMask f.hi f.lo).getLsbD i = true) →
      (l.foldl (fun w f => (w &&& ~~~bitMask f.hi f.lo) ||| (regReset a &&& bitMask f.hi f.lo)) x).getLsbD i =
        (regReset a).getLsbD i := by
    intro l
    induction l with
    | nil => rintro x (h | ⟨f, hf, -⟩); exacts [h, absurd hf (by simp)]
    | cons f l ih =>
      intro x h
      refine ih _ ?_
      rw [hset]
      obtain hx | ⟨g, hg, hbit⟩ := h
      · exact .inl (by rw [hx]; split <;> rfl)
      · obtain rfl | hg := List.mem_cons.mp hg
        · exact .inl (by rw [hbit]; rfl)
        · exact .inr ⟨g, hg, hbit⟩
  obtain ⟨f, hf, hin⟩ := List.any_eq_true.mp hfld
  simp only [Bool.and_eq_true] at hin
  simp only [List.mem_cons, List.not_mem_nil, or_false, not_or] at hheader
  unfold resetWord
  simp only [hheader, hrow, if_false]
  refine hfold _ w (.inr ⟨f, List.mem_filter.mpr ⟨hf, ?_⟩, hin.2⟩)
  simpa using hin.1

/-! ## The registers of a block -/

/-- One word of the register file as a reset of a block leaves it. -/
def State.resetOne (b : Nat) (cls : Cls → Bool) (keep : Nat → Bool) (t : State) (p : Nat × Word) : State :=
  if p.1 / 0x100000 = b ∧ keep p.1 = false then t.setReg p.1 (resetWord cls p.1 p.2) else t

theorem State.resetRegs_eq (s : State) (b : Nat) (cls : Cls → Bool) (keep : Nat → Bool) :
    s.resetRegs b cls keep = s.regs.foldl (State.resetOne b cls keep) s := rfl

theorem State.resetOne_reg_self {p : Nat × Word} (h : p.1 / 0x100000 = b ∧ keep p.1 = false) :
    (State.resetOne b cls keep t p).reg p.1 = resetWord cls p.1 p.2 := by
  unfold State.resetOne
  rw [if_pos h, State.reg_setReg_self]

theorem State.resetOne_reg_ne {p : Nat × Word} (h : ¬ (p.1 = a ∧ p.1 / 0x100000 = b ∧ keep p.1 = false)) :
    (State.resetOne b cls keep t p).reg a = t.reg a := by
  unfold State.resetOne
  split
  next hin => exact State.reg_setReg_ne _ _ (fun ha => h ⟨ha.symm, hin⟩)
  next => rfl

theorem State.resetRegs_reg_of_other (h : a / 0x100000 ≠ b) : (s.resetRegs b cls keep).reg a = s.reg a := by
  rw [State.resetRegs_eq]
  suffices hfold : ∀ (l : List (Nat × Word)) (t : State), (l.foldl (State.resetOne b cls keep) t).reg a = t.reg a from
    hfold _ _
  intro l
  induction l with
  | nil => exact fun _ => rfl
  | cons p l ih => exact fun t => (ih _).trans (State.resetOne_reg_ne (fun hp => h (by rw [← hp.1]; exact hp.2.1)))

theorem State.reg_of_not_listed (h : a ∉ s.regs.map Prod.fst) : s.reg a = regReset a := by
  have hget : ∀ l : List (Nat × Word), a ∉ l.map Prod.fst → Tab.get regReset l a = regReset a := by
    intro l
    induction l with
    | nil => intro _; rfl
    | cons p l ih =>
      intro hl
      simp only [List.map_cons, List.mem_cons, not_or] at hl
      exact (if_neg hl.1).trans (ih hl.2)
  exact hget s.regs h

/-- A register of the block is at its reset value, or it is the word that a reset makes of some word. -/
theorem State.resetRegs_reg_of_block (hb : a / 0x100000 = b) (hkeep : keep a = false) :
    (s.resetRegs b cls keep).reg a = regReset a ∨ ∃ w, (s.resetRegs b cls keep).reg a = resetWord cls a w := by
  rw [State.resetRegs_eq]
  suffices hfold : ∀ (l : List (Nat × Word)) (t : State),
      (a ∈ l.map Prod.fst ∨ t.reg a = regReset a ∨ ∃ w, t.reg a = resetWord cls a w) →
      let u := l.foldl (State.resetOne b cls keep) t
      u.reg a = regReset a ∨ ∃ w, u.reg a = resetWord cls a w by
    refine hfold s.regs s ?_
    by_cases h : a ∈ s.regs.map Prod.fst
    · exact .inl h
    · exact .inr (.inl (State.reg_of_not_listed h))
  intro l
  induction l with
  | nil => rintro t (h | h); exacts [absurd h (by simp), h]
  | cons p l ih =>
    intro t h
    refine ih _ ?_
    by_cases hp : p.1 = a
    · subst hp
      exact .inr (.inr ⟨_, State.resetOne_reg_self ⟨hb, hkeep⟩⟩)
    · rw [State.resetOne_reg_ne (fun hin => hp hin.1)]
      simp only [List.map_cons, List.mem_cons] at h
      obtain (h | h) | h := h
      exacts [absurd h.symm hp, .inl h, .inr h]

/-- EN of a block that is reset is as after a reset of the module (R34, R40). -/
theorem State.resetRegs_blkOn (hcls : cls .run = true) (hkeep : keep (b * 0x100000 + 4) = false) :
    (s.resetRegs b cls keep).blkOn b = fixedOn b := by
  have hreg : (s.resetRegs b cls keep).reg (b * 0x100000 + 4) = regReset (b * 0x100000 + 4) := by
    have hoff : (b * 0x100000 + 4) % 0x100000 = 4 := by omega
    obtain h | ⟨w, h⟩ := State.resetRegs_reg_of_block (s := s) (cls := cls) (keep := keep) (a := b * 0x100000 + 4)
      (b := b) (by omega) hkeep
    · exact h
    · rw [h]
      unfold resetWord
      rw [hoff]
      exact if_pos hcls
  unfold State.blkOn State.bit State.fld
  rw [hreg, regReset_en]
  cases fixedOn b <;> rfl

theorem State.resetRegs_getLsbD {r : RegRow} {is : List Nat} {k : Nat} (hb : a / 0x100000 = b) (hkeep : keep a = false)
    (hheader : a % 0x100000 ∉ [0, 4, 8, 12]) (hrow : rowAt a = some (r, is, k))
    (hfld : r.flds.any (fun f => cls f.cls && !f.str && (bitMask f.hi f.lo).getLsbD i) = true) :
    ((s.resetRegs b cls keep).reg a).getLsbD i = (regReset a).getLsbD i := by
  obtain h | ⟨w, h⟩ := State.resetRegs_reg_of_block (s := s) (cls := cls) hb hkeep
  · rw [h]
  · rw [h, resetWord_getLsbD w hheader hrow hfld]

/-! ## The commands -/

theorem execRstcmdBlock_refused {by_ : Issuer} {code : BitVec 8} (hb : b ∈ [0, 2, 16, 18])
    (hcode : code.toNat = (blkId b).toNat / 65536) : execRstcmdBlock by_ code s = .next (s.rejectVal by_ aGLB_RSTCMD) := by
  unfold execRstcmdBlock
  simp only [List.mem_cons, List.not_mem_nil, or_false] at hb
  rw [hcode]
  obtain rfl | rfl | rfl | rfl := hb <;> rfl

theorem execRstcmdBlock_reset {by_ : Issuer} {code : BitVec 8} (hcode : blockOfCode code.toNat = some b)
    (hb : b ∉ [0, 2, 16, 18]) : execRstcmdBlock by_ code s = .next (s.blockReset b) := by
  simp only [List.mem_cons, List.not_mem_nil, or_false] at hb
  unfold execRstcmdBlock
  rw [hcode]
  exact if_neg hb

theorem blockOfCode_bus : blockOfCode 4 = some 3 := by decide +kernel

theorem blockOfCode_island (isl : Isl) : blockOfCode (64 + isl.val) = some (64 + isl.val) := by
  revert isl; decide +kernel

/-- A reset of BUS resets its registers and nothing else. -/
theorem State.busReset (s : State) : let t := s.resetRegs 3 everyClass keepNone
    t.blkOn 3 = false ∧ (∀ a, a / 0x100000 ≠ 3 → t.reg a = s.reg a) ∧ t.agenda = s.agenda ∧ KeepsMemory s t :=
  ⟨State.resetRegs_blkOn rfl rfl, fun _ ha => State.resetRegs_reg_of_other ha,
    State.resetRegs_does.same .agenda (by decide) (by decide), KeepsMemory.of_does State.resetRegs_does (by decide)⟩

/-! ## Islands -/

/-- The registers in which the inhibit network shows. -/
def inhibitReg (a : Nat) : Prop := ∃ n c, a = aCH_STAT n c ∨ a = aCH_INH n c ∨ a = aISL_STAT n

/-- Every register but those of the inhibit network reads as before. -/
def KeepsBarInhibit (s t : State) : Prop := ∀ a, ¬ inhibitReg a → t.reg a = s.reg a

theorem KeepsBarInhibit.refl (s : State) : KeepsBarInhibit s s := fun _ _ => rfl

theorem KeepsBarInhibit.trans {u : State} (h : KeepsBarInhibit s t) (g : KeepsBarInhibit t u) : KeepsBarInhibit s u :=
  fun a ha => (g a ha).trans (h a ha)

theorem KeepsBarInhibit.setReg (h : KeepsBarInhibit s t) (ha : inhibitReg a) (v : Word) : KeepsBarInhibit s (t.setReg a v) :=
  fun x hx => (State.reg_setReg_ne _ _ (fun e => hx (by rw [e]; exact ha))).trans (h x hx)

theorem KeepsBarInhibit.foldl {α : Type} {f : State → α → State} (hf : ∀ t x, KeepsBarInhibit t (f t x)) (l : List α)
    (h : KeepsBarInhibit s t) : KeepsBarInhibit s (l.foldl f t) := by
  induction l generalizing t with
  | nil => exact h
  | cons x l ih => exact ih (h.trans (hf t x))

theorem State.showInh_keeps (s : State) (ch : Nat) : KeepsBarInhibit s (s.showInh ch) := by
  have hlatch : ∀ (t : State) (c : Bool) (f : Fld),
      KeepsBarInhibit t (if c then t.latch (aCH_INH (islOf ch) (locOf ch)) f else t) := by
    intro t c f
    split
    · exact (KeepsBarInhibit.refl t).setReg ⟨_, _, .inr (.inl rfl)⟩ _
    · exact KeepsBarInhibit.refl t
  unfold State.showInh State.setInh
  extract_lets -underBinder -merge -useContext n c s1 s2 m x s3
  have h2 : KeepsBarInhibit s s2 := (hlatch s _ _).trans (hlatch s1 _ _)
  have h3 : KeepsBarInhibit s2 s3 :=
    KeepsBarInhibit.setReg (t := s2.setChan ch _) (fun _ _ => rfl) ⟨_, _, .inl rfl⟩ _
  exact (h2.trans h3).setReg ⟨m, 0, .inr (.inr rfl)⟩ _

/-- After a reset of an island its registers stand as `State.resetRegs` leaves them, but for those of the inhibit network. -/
theorem State.resetIsland_regs (s : State) (n : Nat) :
    ∃ u : State, KeepsBarInhibit (u.resetRegs (64 + n) everyClass keepNone) (s.resetIsland n) := by
  have hsettle : ∀ (t : State) (c : Nat), KeepsBarInhibit t (t.settleInh (chanOf n c)) := fun t c =>
    KeepsBarInhibit.foldl (fun t k => t.showInh_keeps k) _ (KeepsBarInhibit.refl t)
  exact ⟨_, KeepsBarInhibit.foldl hsettle _ fun _ _ => rfl⟩

theorem not_inhibitReg_en (b : Nat) : ¬ inhibitReg (b * 0x100000 + 4) := by
  rintro ⟨n, c, h | h | h⟩ <;> simp only [aCH_STAT, aCH_INH, aISL_STAT] at h <;> omega

theorem not_inhibitReg_chCtl (n c : Nat) : ¬ inhibitReg (aCH_CTL n c) := by
  rintro ⟨m, d, h | h | h⟩ <;> simp only [aCH_CTL, aCH_STAT, aCH_INH, aISL_STAT] at h <;> omega

theorem not_inhibitReg_muCtl (n u : Nat) : ¬ inhibitReg (aMU_CTL n u) := by
  rintro ⟨m, d, h | h | h⟩ <;> simp only [aMU_CTL, aCH_STAT, aCH_INH, aISL_STAT] at h <;> omega

/-- DRV_EN of a channel, and EN of a unit, is a RUN field that no structure sets, and resets to 0. -/
def resetsLow (a : Nat) : Bool :=
  !((regReset a).getLsbD 0) && (rowAt a).any (fun x =>
    x.1.flds.any (fun f => everyClass f.cls && !f.str && (bitMask f.hi f.lo).getLsbD 0))

theorem resetsLow_chCtl (isl : Isl) (c : Fin 4) : resetsLow (aCH_CTL isl.val c.val) = true := by
  revert isl c; decide +kernel

theorem resetsLow_muCtl (isl : Isl) (u : UnitNo) : resetsLow (aMU_CTL isl.val u.val) = true := by
  revert isl u; decide +kernel

theorem State.bit_zero_of_getLsbD (h : (s.reg a).getLsbD 0 = false) : s.bit a ⟨0, 0⟩ = false := by
  rw [BitVec.getLsbD, Nat.testBit_zero, decide_eq_false_iff_not] at h
  show (getF (s.reg a) ⟨0, 0⟩ != 0) = false
  have hget : getF (s.reg a) ⟨0, 0⟩ = (s.reg a).toNat % 2 := rfl
  rw [hget, show (s.reg a).toNat % 2 = 0 by omega]
  rfl

theorem State.resetIsland_low {n : Nat} (hlow : resetsLow a = true) (hb : a / 0x100000 = 64 + n)
    (hheader : a % 0x100000 ∉ [0, 4, 8, 12]) (hinh : ¬ inhibitReg a) : (s.resetIsland n).bit a ⟨0, 0⟩ = false := by
  obtain ⟨u, hu⟩ := s.resetIsland_regs n
  unfold resetsLow at hlow
  rw [Bool.and_eq_true, Bool.not_eq_true'] at hlow
  obtain ⟨hreset, hrun⟩ := hlow
  cases hrow : rowAt a with
  | none => rw [hrow] at hrun; cases hrun
  | some x =>
    rw [hrow] at hrun
    have hbit := State.resetRegs_getLsbD (s := u) (keep := keepNone) hb rfl hheader hrow hrun
    rw [hreset, ← hu a hinh] at hbit
    exact State.bit_zero_of_getLsbD hbit

/-- A reset of an island disables it, the drivers of its channels and its units (R40, R111). -/
theorem State.islandReset (s : State) (isl : Isl) : let t := s.resetIsland isl.val
    t.blkOn (64 + isl.val) = false ∧ (∀ c : Fin 4, t.drvEn (chanOf isl.val c.val) = false) ∧
    (∀ u : UnitNo, t.bit (aMU_CTL isl.val u.val) fMU_CTL_EN = false) ∧ KeepsMemory s t := by
  intro t
  obtain ⟨u, hu⟩ := s.resetIsland_regs isl.val
  have hisl := isl.isLt
  refine ⟨?_, fun c => ?_, fun v => ?_, KeepsMemory.of_does State.resetIsland_does (by decide)⟩
  · have hfix : fixedOn (64 + isl.val) = false := by
      unfold fixedOn; simp; omega
    exact (State.bit_congr _ (hu _ (not_inhibitReg_en _))).trans ((State.resetRegs_blkOn rfl rfl).trans hfix)
  · have hc := c.isLt
    show t.bit (aCH_CTL (islOf (chanOf isl.val c.val)) (locOf (chanOf isl.val c.val))) fCH_CTL_DRV_EN = false
    rw [show islOf (chanOf isl.val c.val) = isl.val by simp only [islOf, chanOf]; omega,
      show locOf (chanOf isl.val c.val) = c.val by simp only [locOf, chanOf]; omega]
    exact State.resetIsland_low (resetsLow_chCtl isl c) (by simp only [aCH_CTL]; omega)
      (by simp only [aCH_CTL, List.mem_cons, List.not_mem_nil, or_false, not_or]; omega) (not_inhibitReg_chCtl _ _)
  · have hv := v.isLt
    exact State.resetIsland_low (resetsLow_muCtl isl v) (by simp only [aMU_CTL]; omega)
      (by simp only [aMU_CTL, List.mem_cons, List.not_mem_nil, or_false, not_or]; omega) (not_inhibitReg_muCtl _ _)

end Sys2Proof.Machine
end

section
/-! The engine-die reset (R40, R506, R507): what it clears, what it keeps, and what it records. -/
namespace Sys2Proof.Machine

variable {s t : State} {cause a : Nat}

/-! ## Sessions end -/

/-- The registers in which the end of a session, and its entry in the log, show. -/
def sessionEndRegs (p : Nat) : List Nat :=
  [aLP_STAT p, aSEC_SESS p, aMGT_LOGNEXT, aMGT_LOGNEXT + 4, aMGT_LOGOLD, aMGT_LOGOLD + 4]

theorem KeepsRegs.setWide_two {as : List Nat} (h : KeepsRegs as s t) {a : Nat} (ha : a ∈ as) (ha4 : a + 4 ∈ as) (v : Nat) :
    KeepsRegs as s (t.setWide a 2 v) := (h.setReg ha _).setReg ha4 _

theorem State.log_keepsRegs (s : State) (typ code : Nat) (payload : List Byte) :
    KeepsRegs [aMGT_LOGNEXT, aMGT_LOGNEXT + 4, aMGT_LOGOLD, aMGT_LOGOLD + 4] s (s.log typ code payload) := by
  unfold State.log State.logEntry
  extract_lets -underBinder -merge -useContext next old flags e s0 mgt0 s1
  have h1 : KeepsRegs [aMGT_LOGNEXT, aMGT_LOGNEXT + 4, aMGT_LOGOLD, aMGT_LOGOLD + 4] s s1 := by
    unfold s1
    split
    · exact KeepsRegs.refl _ s
    · exact (KeepsRegs.refl _ s).setWide_two (a := aMGT_LOGOLD) (by simp) (by simp) _
  exact h1.setWide_two (t := s1) (a := aMGT_LOGNEXT) (by simp) (by simp) _

theorem State.endSession_keepsRegs (s : State) (p cause : Nat) : KeepsRegs (sessionEndRegs p) s (s.endSession p cause) := by
  unfold State.endSession
  split
  · refine KeepsRegs.trans ?_ ((State.log_keepsRegs _ _ _ _).mono (by simp [sessionEndRegs]))
    exact ((KeepsRegs.refl _ s).setReg (a := aLP_STAT p) (by simp [sessionEndRegs]) _).setReg (a := aSEC_SESS p)
      (by simp [sessionEndRegs]) _
  · exact KeepsRegs.refl _ s

theorem State.log_sec (s : State) (typ code : Nat) (payload : List Byte) : (s.log typ code payload).sec = s.sec :=
  State.log_does.same .sec (by decide) (by decide)

theorem State.endSession_slots (s : State) (p cause : Nat) : (s.endSession p cause).sec.slots = s.sec.slots := by
  unfold State.endSession
  split
  · rw [State.log_sec]; rfl
  · rfl

/-- The state with the sessions of both ports ended by a reset. -/
def State.sessionsEnded (s : State) : State := (s.endSession 0 0x13).endSession 1 0x13

theorem State.sessionsEnded_does : Does [.sec, .mgt] [13, 16, 18] s s.sessionsEnded :=
  State.endSession_does.after State.endSession_does

theorem State.sessionsEnded_slots (s : State) : s.sessionsEnded.sec.slots = s.sec.slots :=
  (State.endSession_slots _ _ _).trans (State.endSession_slots _ _ _)

/-- MGT's registers but for the indices of the log read as before. -/
theorem State.sessionsEnded_reg (h16 : a / 0x100000 = 16) (hlog : a < aMGT_LOGNEXT ∨ aMGT_LOGOLD + 8 ≤ a) :
    s.sessionsEnded.reg a = s.reg a := by
  have hout : ∀ p, a ∉ sessionEndRegs p := by
    intro p
    simp only [sessionEndRegs, aLP_STAT, aSEC_SESS, aMGT_LOGNEXT, aMGT_LOGOLD, List.mem_cons, List.not_mem_nil, or_false,
      not_or] at hlog ⊢
    omega
  exact (State.endSession_keepsRegs _ _ _ a (hout 1)).trans (State.endSession_keepsRegs _ _ _ a (hout 0))

/-! ## The die bare -/

theorem State.dieBare_reg (s : State) (a : Nat) : s.dieBare.reg a = if dieKeeps a then s.reg a else regReset a := by
  have hget : ∀ l : List (Nat × Word), Tab.get regReset (l.filter (fun p => dieKeeps p.1)) a =
      if dieKeeps a then Tab.get regReset l a else regReset a := by
    intro l
    induction l with
    | nil => exact (ite_self _).symm
    | cons p l ih =>
      rw [List.filter_cons]
      split
      next hp =>
        rw [Tab.get, Tab.get, ih]
        by_cases h : a = p.1
        · rw [if_pos h, if_pos h, h, if_pos hp]
        · rw [if_neg h, if_neg h]
      next hp =>
        rw [ih, Tab.get]
        by_cases h : a = p.1
        · rw [h, if_neg hp, if_neg hp]
        · rw [if_neg h]
  exact hget s.regs

/-- A queued write undone. -/
def State.undoWrite (s : State) (r : HbmReq) : State := { s with hbmMem := Memory.writeBytes s.hbmMem (64 * r.line) r.old }

/-- What HBM holds once its queue has gone comes from the queue and from what it held (R353). -/
theorem State.hbmFlush_congr (hqueue : t.hbm = s.hbm) (hmem : t.hbmMem = s.hbmMem) : t.hbmFlush.hbmMem = s.hbmFlush.hbmMem := by
  have hfold : ∀ (l : List HbmReq) (u v : State), u.hbmMem = v.hbmMem →
      (l.foldl State.undoWrite u).hbmMem = (l.foldl State.undoWrite v).hbmMem := by
    intro l
    induction l with
    | nil => exact fun _ _ h => h
    | cons r l ih => exact fun u v h => ih _ _ (congrArg (fun m => Memory.writeBytes m (64 * r.line) r.old) h)
  unfold State.hbmFlush
  rw [hqueue]
  exact hfold _ t s hmem

/-! ## The reset of the die -/

theorem State.engineDieReset_reg (ha : a ≠ aGLB_RSTCAUSE) :
    (s.engineDieReset cause).reg a = s.sessionsEnded.dieCleared.reg a := State.reg_setReg_ne _ _ ha

theorem State.engineDieReset_reg_bare (ha : a ≠ aGLB_RSTCAUSE) (hoven : a ≠ aTBS_STATE) :
    (s.engineDieReset cause).reg a = if dieKeeps a then s.sessionsEnded.reg a else regReset a :=
  (State.engineDieReset_reg ha).trans ((State.reg_setReg_ne _ _ hoven).trans (State.dieBare_reg _ _))

theorem State.engineDieReset_oven : (s.engineDieReset cause).reg aTBS_STATE =
    putF (regReset aTBS_STATE) fTBS_STATE_OVEN_READY s.power.oven.toNat := by
  have hpower : s.sessionsEnded.power = s.power := State.sessionsEnded_does.same .power (by decide) (by decide)
  have hbare : s.sessionsEnded.dieBare.reg aTBS_STATE = regReset aTBS_STATE := (State.dieBare_reg _ _).trans (if_neg (by decide))
  rw [State.engineDieReset_reg (by decide), ← hpower, ← hbare]
  exact State.reg_setReg_self _ _ _

/-- The source that began the reset is recorded (R506). -/
theorem State.engineDieReset_cause (hcause : cause < 16) :
    (s.engineDieReset cause).fld aGLB_RSTCAUSE fGLB_RSTCAUSE_CAUSE =
      if s.power.holding.isEmpty then cause else s.fld aGLB_RSTCAUSE fGLB_RSTCAUSE_CAUSE := by
  have hword : ∀ c step lim : Nat, getF (putF (putF (fldWord fGLB_RSTCAUSE_CAUSE c) fGLB_RSTCAUSE_STEP step)
      fGLB_RSTCAUSE_LIMITED lim) fGLB_RSTCAUSE_CAUSE = c % 16 := by
    intro c step lim
    rw [getF_putF_ne _ _ _ _ (by decide) (by decide) (by decide), getF_putF_ne _ _ _ _ (by decide) (by decide) (by decide)]
    exact getF_putF_self _ _ _ (by decide) (by decide)
  have hfld : s.fld aGLB_RSTCAUSE fGLB_RSTCAUSE_CAUSE < 16 := Nat.mod_lt _ (by decide)
  have hreg : (s.engineDieReset cause).fld aGLB_RSTCAUSE fGLB_RSTCAUSE_CAUSE =
      (if s.power.holding.isEmpty then cause else s.fld aGLB_RSTCAUSE fGLB_RSTCAUSE_CAUSE) % 16 :=
    (congrArg (getF · fGLB_RSTCAUSE_CAUSE) (State.reg_setReg_self _ _ _)).trans (hword _ _ _)
  rw [hreg]
  split
  · exact Nat.mod_eq_of_lt hcause
  · exact Nat.mod_eq_of_lt hfld

theorem State.engineDieReset_holding (s : State) (cause : Nat) : (s.engineDieReset cause).power.holding =
    if cause ∈ s.power.holding then s.power.holding else s.power.holding ++ [cause] := rfl

theorem State.engineDieReset_session (p : Fin 2) : (s.engineDieReset cause).session p.val = false := by
  have hreg : (s.engineDieReset cause).reg (aLP_STAT p.val) = regReset (aLP_STAT p.val) :=
    (State.engineDieReset_reg_bare (by revert p; decide) (by revert p; decide)).trans (if_neg (by revert p; decide))
  have hclear : ∀ q : Fin 2, getF (regReset (aLP_STAT q.val)) fLP_STAT_SESSION = 0 := by decide +kernel
  unfold State.session State.bit State.fld
  rw [hreg, hclear p]
  rfl

/-- What a reset of the engine die by a source leaves (R40, R506, R507). -/
structure DieHeld (cause : Nat) (s t : State) : Prop where
  reset : ∀ a, dieKeeps a = false → a ≠ aGLB_RSTCAUSE → a ≠ aTBS_STATE → t.reg a = regReset a
  oven : t.reg aTBS_STATE = putF (regReset aTBS_STATE) fTBS_STATE_OVEN_READY s.power.oven.toNat
  kept : ∀ a, a / 0x100000 = 16 → a < aMGT_LOGNEXT ∨ aMGT_LOGOLD + 8 ≤ a → t.reg a = s.reg a
  holds : cause ∈ t.power.holding
  first : s.power.holding = [] → t.fld aGLB_RSTCAUSE fGLB_RSTCAUSE_CAUSE = cause
  later : s.power.holding ≠ [] → t.fld aGLB_RSTCAUSE fGLB_RSTCAUSE_CAUSE = s.fld aGLB_RSTCAUSE fGLB_RSTCAUSE_CAUSE
  others : ∀ c, c ∈ s.power.holding → c ∈ t.power.holding
  sessions : ∀ p : Fin 2, t.session p.val = false
  agenda : ∀ d ∈ t.agenda, d.activates = true
  hbm : t.hbmMem = s.hbmFlush.hbmMem

theorem State.engineDieReset_held (s : State) (hcause : cause < 16) : DieHeld cause s (s.engineDieReset cause) where
  reset a hdie hne hoven := by rw [State.engineDieReset_reg_bare hne hoven, hdie]; rfl
  oven := State.engineDieReset_oven
  kept a h16 hlog := by
    have hdie : dieKeeps a = true := by unfold dieKeeps; rw [h16]; rfl
    rw [State.engineDieReset_reg_bare (by unfold aGLB_RSTCAUSE; omega) (by unfold aTBS_STATE; omega), hdie]
    exact State.sessionsEnded_reg h16 hlog
  holds := by rw [State.engineDieReset_holding]; split <;> simp_all
  first hnone := by rw [State.engineDieReset_cause hcause, hnone]; rfl
  later hsome := by rw [State.engineDieReset_cause hcause, List.isEmpty_eq_false_iff.mpr hsome]; rfl
  others c hc := by
    rw [State.engineDieReset_holding]
    split
    · exact hc
    · exact List.mem_append_left _ hc
  sessions := State.engineDieReset_session
  agenda d hd := (List.mem_filter.mp (show d ∈ s.sessionsEnded.agenda.filter Due.activates from hd)).2
  hbm := (show (s.engineDieReset cause).hbmMem = s.sessionsEnded.hbmFlush.hbmMem from rfl).trans
    (State.hbmFlush_congr (State.sessionsEnded_does.same .hbm (by decide) (by decide))
      (State.sessionsEnded_does.same .hbmMem (by decide) (by decide)))

/-- The stores outside the die are kept over its reset (R506). -/
structure DieStores (s t : State) : Prop where
  spill : t.spill = s.spill
  field : t.calRec.field = s.calRec.field
  startSlot : t.str.startSlot = s.str.startSlot
  slots : t.sec.slots = s.sec.slots
  pending : t.pending = s.pending

theorem State.engineDieReset_stores (s : State) (cause : Nat) : DieStores s (s.engineDieReset cause) where
  spill := State.engineDieReset_does.same .spill (by decide) (by decide)
  field := by
    have hrec : s.sessionsEnded.calRec = s.calRec := State.sessionsEnded_does.same .calRec (by decide) (by decide)
    rw [← hrec]
    rfl
  startSlot := by
    have hstr : s.sessionsEnded.str = s.str := State.sessionsEnded_does.same .str (by decide) (by decide)
    rw [← hstr]
    rfl
  slots := s.sessionsEnded_slots
  pending := State.engineDieReset_does.same .pending (by decide) (by decide)

end Sys2Proof.Machine
end

section
/-! The resets of the module and of its blocks, and the end of a reset (O40). -/
namespace Sys2Proof.Machine

theorem execResetRelease_of {rstNHigh : Bool} {s : State} {left : List Nat} (h : s.power.holding.filter (fun c =>
    c == rcPower || c == rcActivate || c == rcThermal || (c == rcPin && !rstNHigh)) = left) :
    exec (.resetRelease rstNHigh) s = .next (s.tryRelease left) := by
  subst h; rfl

theorem execThermalRelease_cooled {s : State} {left : List Nat} (hheld : rcThermal ∈ s.power.holding) (hcool : s.cooled = true)
    (h : s.power.holding.filter (· != rcThermal) = left) : exec .thermalRelease s = .next (s.tryRelease left) := by
  subst h; exact congrArg Host.Outcome.next (if_pos ⟨hheld, hcool⟩)

theorem execThermalRelease_idle {s : State} (h : rcThermal ∉ s.power.holding ∨ s.cooled = false) :
    exec .thermalRelease s = .next s :=
  congrArg Host.Outcome.next (if_neg (by rw [not_and_or, Bool.not_eq_true]; exact h))

/-- Settles O40: the reset of the die by `State.engineDieReset_held`, blocks by `State.busReset` and `State.islandReset`, the
release by `State.tryRelease_full` and `State.tryRelease_limited`. -/
theorem resets : Obligations.Resets := by
  unfold Obligations.Resets
  refine ⟨fun by_ isl code s => ?began, fun rstNHigh s => ?ended⟩
  case began =>
    intro held
    have hheld : ∀ cause < 16, held cause (s.engineDieReset cause) := by
      intro cause hcause
      obtain ⟨hreset, hoven, hkept, hholds, hfirst, hlater, hothers, hses, hagenda, hhbm⟩ := s.engineDieReset_held hcause
      obtain ⟨hspill, hfield, hslot, hslots, hpending⟩ := s.engineDieReset_stores cause
      exact ⟨hreset, hoven, hkept, hholds, hfirst, hlater, hothers, rfl, rfl, rfl, rfl, hses 0, hses 1, hagenda, hhbm, hspill,
        hfield, hslot, hslots, hpending⟩
    refine ⟨⟨_, rfl, hheld rcPin (by decide)⟩, ⟨_, rfl, hheld rcCommand (by decide)⟩, ⟨_, ?_, s.busReset⟩,
      ⟨_, ?_, s.islandReset isl⟩, fun b hb hcode => ⟨_, execRstcmdBlock_refused hb hcode,
        s.reject_sets by_ (k := .val) aGLB_RSTCMD rfl, s.reject_raises by_ _ (by decide),
        s.reject_keepsRegs by_ .val aGLB_RSTCMD, s.reject_keepsMemory by_ _ _⟩⟩
    · exact execRstcmdBlock_reset (by_ := by_) (b := 3) (code := 4) blockOfCode_bus (by decide)
    · have hcode : blockOfCode (BitVec.ofNat 8 (64 + isl.val)).toNat = some (64 + isl.val) := by
        rw [BitVec.toNat_ofNat, Nat.mod_eq_of_lt (by omega)]
        exact blockOfCode_island isl
      have hreset : s.blockReset (64 + isl.val) = s.resetIsland isl.val := by
        unfold State.blockReset
        repeat rw [if_neg (by omega)]
        rw [if_pos (by omega), Nat.add_sub_cancel_left]
      exact (execRstcmdBlock_reset hcode (by simp; omega)).trans (congrArg Host.Outcome.next hreset)
  case ended =>
    intro left warm free stays few limited
    have hthermal : ∀ h : s.power.holding = [rcThermal], warm = [] := fun h => by
      show s.power.holding.filter (· != rcThermal) = []
      rw [h]; rfl
    refine ⟨fun hheld hleft hlim => ?_, fun hheld hleft hlim => ?_, fun hleft => ⟨_, rfl, State.tryRelease_stays hleft⟩,
      fun hnone => ?_, fun hone hcool hlim => ?_, fun hone hcool hlim => ?_, fun hin hcool hwarm =>
      ⟨_, execThermalRelease_cooled hin hcool rfl, State.tryRelease_stays hwarm⟩,
      fun h => ⟨_, execThermalRelease_idle h, rfl⟩⟩
    · exact ⟨_, execResetRelease_of hleft, State.tryRelease_full hheld hlim⟩
    · exact ⟨_, execResetRelease_of hleft,
        State.tryRelease_limited hheld hlim⟩
    · have hleft : left = [] := by
        show s.power.holding.filter _ = []
        rw [hnone]; rfl
      exact ⟨_, execResetRelease_of hleft, State.tryRelease_unheld hnone⟩
    · have hin : rcThermal ∈ s.power.holding := by rw [hone]; decide
      exact ⟨_, execThermalRelease_cooled hin hcool (hthermal hone),
        State.tryRelease_full (List.ne_nil_of_mem hin) hlim⟩
    · have hin : rcThermal ∈ s.power.holding := by rw [hone]; decide
      exact ⟨_, execThermalRelease_cooled hin hcool (hthermal hone),
        State.tryRelease_limited (List.ne_nil_of_mem hin) hlim⟩

end Sys2Proof.Machine
end

section
/-! The time-base state and the frames sent, through the work of the islands that a step of the count begins (R66, R130, R364):
sequences that end and gates that end STALE leave TBS_STATE alone and take back no frame. -/
namespace Sys2Proof.Machine

variable {s t u : State}

/-- TBS_STATE reads as before, and what has been sent stays sent. -/
structure Passes (s t : State) : Prop where
  tbs : t.reg aTBS_STATE = s.reg aTBS_STATE
  out : s.out <+: t.out

theorem Passes.refl (s : State) : Passes s s := ⟨rfl, List.prefix_refl _⟩

theorem Passes.trans (h : Passes s t) (g : Passes t u) : Passes s u := ⟨g.tbs.trans h.tbs, h.out.trans g.out⟩

/-- What sends nothing and writes no register of TBS passes. -/
theorem Passes.of_does {ps : List Part} {bs : List Nat} (h : Does ps bs s t) (hb : .regs ∉ ps ∧ 1 ∉ bs ∧ .out ∉ ps) :
    Passes s t where
  tbs := h.regs hb.1 _ hb.2.1
  out := by rw [show t.out = s.out from h.same .out hb.2.2 (by decide)]

theorem Passes.ite {c : Prop} [Decidable c] (h : c → Passes s t) (g : ¬ c → Passes s u) :
    Passes s (if c then t else u) := by
  split
  · exact h ‹_›
  · exact g ‹_›

theorem Passes.foldl {α : Type} {f : State → α → State} (hf : ∀ t x, Passes t (f t x)) (l : List α) (h : Passes s t) :
    Passes s (l.foldl f t) := by
  induction l generalizing t with
  | nil => exact h
  | cons x l ih => exact ih (h.trans (hf t x))

/-! ## Actions sent across a ford -/

theorem State.reg_setWide_of_lt {a b : Nat} (h : b < a) (n v : Nat) : (s.setWide a n v).reg b = s.reg b := by
  induction n generalizing s a v with
  | zero => rfl
  | succ n ih => exact (ih (by omega) _).trans (State.reg_setReg_ne _ _ (by omega))

theorem State.lateInternal_passes (s : State) (kind src dst : Nat) (due arr : Count) :
    Passes s (s.lateInternal kind src dst due arr) where
  tbs := by
    refine (State.reg_setReg_ne _ (a := aTBS_LATE) _ (by decide)).trans ?_
    refine (State.reg_setReg_ne _ (a := aTBS_LATE_CNT) _ (by decide)).trans ?_
    rw [State.reg_setWide_of_lt (by decide), State.reg_setWide_of_lt (by decide)]
    exact State.reg_setReg_ne _ _ (by decide)
  out := by rw [show (s.lateInternal kind src dst due arr).out = s.out from
    State.lateInternal_does.same .out (by decide) (by decide)]

theorem State.issue_passes (s : State) (src : Fin 80) (dst : Nat) (due : Count) (kind : Nat) (a : Act) :
    Passes s (s.issue src dst due kind a) := by
  unfold State.issue
  extract_lets -underBinder -merge -useContext lat s0
  have h0 : Passes s s0 := ⟨rfl, List.prefix_refl _⟩
  have hheld : ∀ k, Passes s ((s0.fordSeen dst lat k).hold (.island src) due a) := fun k =>
    (h0.trans (.of_does State.fordSeen_does (by decide))).trans (.of_does State.hold_does (by decide))
  exact .ite (fun _ => hheld _) (fun _ => .ite (fun _ => hheld _) (fun _ => h0.trans (s0.lateInternal_passes ..)))

/-! ## Sequences that end -/

theorem State.startCode_passes (s : State) (n len : Nat) (bits : BitVec 64) : Passes s (s.startCode n len bits) where
  tbs := State.startCode_does.regs (by decide) _ (by decide)
  out := by
    unfold State.startCode
    extract_lets busy div first c s1
    split
    · exact List.prefix_refl _
    · split
      · exact List.prefix_refl _
      · split
        · exact List.prefix_append _ _
        · exact List.prefix_refl _

theorem State.sendSwitch_passes (s : State) (q op : Nat) : Passes s (s.sendSwitch q op) :=
  .ite (fun _ => .refl s) (fun _ => s.startCode_passes ..)

theorem State.setPhase_passes (s : State) (q phase cause : Nat) : Passes s (s.setPhase q phase cause) :=
  .of_does State.setPhase_does (by decide)

theorem State.seqRelease_passes (s : State) (q : Nat) : Passes s (s.seqRelease q) :=
  ((s.setPhase_passes ..).trans (.of_does State.setSeqn_does (by decide))).trans (State.sendSwitch_passes ..)

theorem State.seqEnd_passes (s : State) (q cause : Nat) (ownLost : Bool) : Passes s (s.seqEnd q cause ownLost) := by
  unfold State.seqEnd
  extract_lets -underBinder -merge -useContext x s1 ch sub s2
  have hseqn : ∀ (u : State) y, Passes u (u.setSeqn q y) := fun u y => .of_does State.setSeqn_does (by decide)
  have h1 : Passes s s1 := .of_does (ps := [.agenda]) (bs := [15])
    (State.raise_does.call (by decide) (Does.setFld adr_CALQ_STAT (by decide) Does.refl)) (by decide)
  have h2 : Passes s s2 := ((h1.trans (.of_does State.unit8Off_does (by decide))).trans (State.setPhase_passes ..)).trans
    (hseqn _ _)
  refine .ite (fun _ => .refl s) (fun _ => .ite (fun _ => ?lost) (fun _ => .ite (fun _ => ?released) (fun _ => ?other)))
  case lost => exact .ite (fun _ => h2.trans (.of_does State.setOffset_does (by decide))) (fun _ => h2)
  case released => exact (h1.trans (hseqn _ _)).trans (State.seqRelease_passes ..)
  case other => exact .ite (fun _ => h1.trans (hseqn _ _)) (fun _ => h2)

theorem State.seqEndAll_passes (s : State) (cause : Nat) (ownLost : Bool) : Passes s (s.seqEndAll cause ownLost) :=
  .foldl (fun t q => t.seqEnd_passes q cause ownLost) _ (.refl s)

theorem State.seqStale_passes (s : State) (n u : Nat) : Passes s (s.seqStale n u) :=
  .ite (fun _ => s.seqEnd_passes ..) (fun _ => .refl s)

/-- No sequence runs, so none ends. -/
theorem State.seqEndAll_of_idle (h : ∀ q : Fin 4, s.seqRuns q.val = false) (cause : Nat) (ownLost : Bool) :
    s.seqEndAll cause ownLost = s := by
  refine List.foldlRecOn (motive := (· = s)) _ _ rfl (fun u hu q hq => ?_)
  subst hu
  have hidle : u.seqRuns q = false := h ⟨q, List.mem_range.mp hq⟩
  exact if_pos (by rw [hidle]; rfl)

/-! ## Gates that end -/

theorem State.senseLoss_passes (s : State) (n u : Nat) (y : BitVec 32) (due : Count) : Passes s (s.senseLoss n u y due) := by
  unfold State.senseLoss
  extract_lets -underBinder -merge -useContext isl s1 s2
  have h1 : Passes s s1 := .of_does (ps := [.agenda, .causes, .fresh]) (bs := [64])
    (State.raise_does.call (by decide) (State.causeOn_does.call (by decide) (Does.latch adr_MU_LAT (by decide)
      (Does.latch adr_MU_STAT (by decide) Does.refl)))) (by decide)
  have h2 : Passes s s2 := by
    unfold s2
    split
    · exact h1.trans (State.issue_passes ..)
    · exact h1
  exact h2.trans (State.issue_passes ..)

theorem State.giveResult_passes (s : State) (n u : Nat) (f : BitVec 56) (y : BitVec 32) (flags : BitVec 8) (cnt : Nat)
    (ySat : Bool) (due : Count) : Passes s (s.giveResult n u f y flags cnt ySat due) := by
  unfold State.giveResult
  extract_lets -underBinder -merge -useContext isl stale lost x s1 s2 w s3 s4 s5 run x6 s6 s7 s8
  have h6 : Does [.agenda, .fresh, .meas] [64] s s6 := by
    have h1 : Does [.agenda, .fresh, .meas] [64] s s1 :=
      Does.setReg adr_MU_N (by decide) (Does.bump adr_MU_RCNT (by decide) Does.refl)
    have h2 : Does [.agenda, .fresh, .meas] [64] s s2 := Does.ite (fun _ => Does.bump adr_MU_SCNT (by decide) h1) (fun _ => h1)
    have h3 : Does [.agenda, .fresh, .meas] [64] s s3 :=
      State.mark_does.call (by decide) (Does.setReg adr_MU_LAT (by decide) h2)
    have h4 : Does [.agenda, .fresh, .meas] [64] s s4 := Does.ite (fun _ => State.raise_does.call (by decide) h3) (fun _ => h3)
    have h5 : Does [.agenda, .fresh, .meas] [64] s s5 := Does.ite (fun _ => State.raise_does.call (by decide) h4) (fun _ => h4)
    exact State.setMu_does.call (by decide) h5
  have p6 : Passes s s6 := .of_does h6 (by decide)
  have p7 : Passes s s7 := by
    refine .ite (fun _ => .ite (fun _ => p6.trans (State.senseLoss_passes ..)) (fun _ => p6)) (fun _ => p6.trans ?_)
    exact .of_does (State.causeOff_does.call (qs := [.causes]) (cs := [64]) (by decide)
      (Does.setFld adr_MU_STAT (by decide) Does.refl)) (by decide)
  have p8 : Passes s s8 := (Passes.ite (fun _ => p7.trans (State.seqStale_passes ..)) (fun _ => p7)).trans
    (.of_does State.loopSees_does (by decide))
  exact (p8.trans (.of_does State.shipResult_does (by decide))).trans (State.issue_passes ..)

theorem State.stepUnits_passes (s : State) (old : Count) : Passes s (s.stepUnits old) := by
  refine .foldl (fun t n => .foldl (fun t u => ?_) _ (.refl t)) _ (.refl s)
  have hgates : ∀ x, Passes t ((t.openGates n u old).setMu n u x) := fun x =>
    (Passes.of_does State.openGates_does (by decide)).trans (.of_does State.setMu_does (by decide))
  exact .ite (fun _ => .refl t)
    (fun _ => .ite (fun _ => (hgates _).trans (State.giveResult_passes ..)) (fun _ => hgates _))

/-- No unit is enabled, so no gate ends. -/
theorem State.stepUnits_of_idle (h : ∀ (isl : Isl) (u : UnitNo), (s.mu isl.val u.val).next = none) (old : Count) :
    s.stepUnits old = s := by
  refine List.foldlRecOn (motive := (· = s)) _ _ rfl (fun t ht n hn => ?_)
  subst ht
  refine List.foldlRecOn (motive := (· = t)) _ _ rfl (fun v hv u hu => ?_)
  subst hv
  have hnone : (v.mu n u).next = none := h ⟨n, List.mem_range.mp hn⟩ ⟨u, List.mem_range.mp hu⟩
  exact if_pos (by rw [hnone]; rfl)

end Sys2Proof.Machine
end

section
/-! The time-base state (R65, R82): what each operation on TBS_STATE shows of it, and the registers that it leaves alone. -/
namespace Sys2Proof.Machine

variable {s t : State}

theorem KeepsRegs.of_does {ps : List Part} (h : Does ps [] s t) (hps : .regs ∉ ps) (as : List Nat) : KeepsRegs as s t :=
  fun a _ => h.regs hps a (by simp)

/-! ## SLEWING -/

theorem State.showSlewing_keepsRegs (s : State) : KeepsRegs [aTBS_STATE] s s.showSlewing := keepsRegs_setReg _ _ _

/-- A field of TBS_STATE other than SLEWING reads as before. -/
theorem State.showSlewing_fld (s : State) {f : Fld} (h : f.hi < 9 ∨ 9 < f.lo) :
    s.showSlewing.fld aTBS_STATE f = s.fld aTBS_STATE f :=
  State.fld_setFld_beside _ _ _ _ _ (by decide) (by decide) h

theorem State.clearPhase_keepsRegs (s : State) : KeepsRegs [aTBS_STATE] s s.clearPhase :=
  State.showSlewing_keepsRegs { s with tbs := { s.tbs with goodRun := 0, phaseRem := 0 } }

theorem State.clearPhase_fld (s : State) {f : Fld} (h : f.hi < 9 ∨ 9 < f.lo) :
    s.clearPhase.fld aTBS_STATE f = s.fld aTBS_STATE f :=
  State.showSlewing_fld { s with tbs := { s.tbs with goodRun := 0, phaseRem := 0 } } h

theorem State.clearPhase_bit (s : State) {f : Fld} (h : f.hi < 9 ∨ 9 < f.lo) :
    s.clearPhase.bit aTBS_STATE f = s.bit aTBS_STATE f := congrArg (· != 0) (s.clearPhase_fld h)

theorem State.clearPhase_tbState (s : State) : s.clearPhase.tbState = s.tbState := s.clearPhase_fld (by decide)

@[simp] theorem State.clearPhase_phaseRem (s : State) : s.clearPhase.tbs.phaseRem = 0 := rfl

@[simp] theorem State.clearPhase_count (s : State) : s.clearPhase.count = s.count := rfl

@[simp] theorem State.clearPhase_out (s : State) : s.clearPhase.out = s.out := rfl

/-! ## STATE -/

/-- STATE takes the code, SLEWING may follow, and the other fields of TBS_STATE read as before. -/
theorem State.setTb_fld (s : State) (st : Nat) {f : Fld} (h : f.hi < 9 ∨ 9 < f.lo) :
    (s.setTb st).fld aTBS_STATE f = (s.setFld aTBS_STATE fTBS_STATE_STATE st).fld aTBS_STATE f := by
  unfold State.setTb
  extract_lets -underBinder -merge -useContext s0 ms t1 s1
  have h1 : s1.fld aTBS_STATE f = s0.fld aTBS_STATE f := by
    unfold s1
    split
    · exact State.clearPhase_fld _ h
    · rfl
  split
  · exact (State.fld_congr f (State.reg_setReg_ne (s1.causeOff 9 0) (a := aTBS_HOLD) _ (by decide))).trans h1
  · exact h1

theorem State.setTb_tbState (s : State) (st : Nat) : (s.setTb st).tbState = st % 8 :=
  (s.setTb_fld st (by decide)).trans (State.fld_setFld_self _ _ _ _ (by decide) (by decide))

/-- A field beside STATE and SLEWING reads as before. -/
theorem State.setTb_beside (s : State) (st : Nat) {f : Fld} (h : f.hi < 9 ∨ 9 < f.lo) (hlo : 2 < f.lo) :
    (s.setTb st).fld aTBS_STATE f = s.fld aTBS_STATE f :=
  (s.setTb_fld st h).trans (State.fld_setFld_beside _ _ _ _ _ (by decide) (by decide) (.inr hlo))

theorem State.setTb_keepsRegs (s : State) (st : Nat) : KeepsRegs [aTBS_STATE, aTBS_HOLD] s (s.setTb st) := by
  unfold State.setTb
  extract_lets -underBinder -merge -useContext s0 ms t1 s1
  have h0 : KeepsRegs [aTBS_STATE, aTBS_HOLD] s s0 := (KeepsRegs.refl _ s).setReg (by simp) _
  have h1 : KeepsRegs [aTBS_STATE, aTBS_HOLD] s s1 := by
    unfold s1
    split
    · exact h0.trans ((State.clearPhase_keepsRegs _).mono (by simp))
    · exact h0
  split
  · exact (KeepsRegs.trans h1 (KeepsRegs.refl _ (s1.causeOff 9 0))).setReg (a := aTBS_HOLD) (by simp) _
  · exact h1

end Sys2Proof.Machine
end

section
/-! The count stepped (R66): what it is loaded with, what stays held, and what the drop of the rest shows. -/
namespace Sys2Proof.Machine

variable {s t : State} {c : Count}

/-- The actions and messages that a step discards. -/
def State.dropped (s : State) : Nat :=
  (s.agenda.filter s.discards).length + s.sched.queues.foldl (fun a q => a + q.2.length) 0

/-- The state in which a step has loaded the count and dropped what it discards; islands, units and anchor follow. -/
structure Loaded (c : Count) (s t : State) : Prop where
  count : t.count = Count.cycleStart c
  agenda : t.agenda = movedAgenda c (Count.cycleStart c - Count.cycleStart s.count) s.agenda
  queues : t.sched.queues = []
  meas : t.meas = s.meas
  out : t.out = s.out
  keeps : KeepsRegs [aTBS_LATE, aTBS_LATE_CNT] s t
  none : s.dropped = 0 → KeepsRegs [] s t
  some : s.dropped ≠ 0 → t.bit aTBS_LATE fTBS_LATE_STEP_DROP = true ∧
    (t.reg aTBS_LATE_CNT).toNat = min 0xFFFFFFFF ((s.reg aTBS_LATE_CNT).toNat + s.dropped)

/-- A counter raised by `n` shows `n` more, and stays at its greatest value. -/
theorem State.reg_bumpBy_toNat (s : State) (a n : Nat) :
    ((s.bumpBy a n).reg a).toNat = min 0xFFFFFFFF ((s.reg a).toNat + n) := by
  rw [show (s.bumpBy a n).reg a = BitVec.ofNat 32 (min 0xFFFFFFFF ((s.reg a).toNat + n)) from State.reg_setReg_self _ _ _,
    BitVec.toNat_ofNat, Nat.mod_eq_of_lt (by omega)]

/-- What a state that has loaded the count does to its task blocks leaves it so. -/
theorem Loaded.of_does (h : Loaded c s t) {u : State} (g : Does [.sram, .tasks] [] t u) : Loaded c s u :=
  have hreg : ∀ a, u.reg a = t.reg a := fun a => g.regs (by decide) a (by simp)
  { count := (g.same .count (by decide) (by decide)).trans h.count
    agenda := (g.same .agenda (by decide) (by decide)).trans h.agenda
    queues := (congrArg Sched.queues (g.same .sched (by decide) (by decide))).trans h.queues
    meas := (g.same .meas (by decide) (by decide)).trans h.meas
    out := (g.same .out (by decide) (by decide)).trans h.out
    keeps := fun a ha => (hreg a).trans (h.keeps a ha)
    none := fun hn a ha => (hreg a).trans (h.none hn a ha)
    some := fun hn => by rw [State.bit_congr _ (hreg aTBS_LATE), hreg]; exact h.some hn }

/-- A step loads the count, sets TIME_VALID, ends sequences and gates, and lets an anchor record of reason 2 follow. -/
theorem State.stepCount_eq (s : State) (c : Count) : ∃ u, Loaded c s u ∧ s.stepCount c =
    (((u.latch aTBS_STATE fTBS_STATE_TIME_VALID).seqEndAll 12 false).stepUnits s.count).anchor 2 := by
  generalize hr : s.stepCount c = r
  unfold State.stepCount at hr
  extract_lets -underBinder -merge -useContext move n tbs1 sec1 mgt1 s1 s2 sched1 s3 at hr
  have hs : KeepsRegs [] s s1 := KeepsRegs.of_regs rfl _
  refine ⟨s3, Loaded.of_does (t := { s2 with sched := { s2.sched with queues := [] } }) ?_
    (Does.foldl (fun t p => Does.ite (fun _ => Does.refl) (fun _ => State.setTask_does)) Does.refl), hr.symm⟩
  by_cases hn : n = 0
  · have h2 : s2 = s1 := if_pos hn
    rw [h2]
    exact ⟨rfl, rfl, rfl, rfl, rfl, hs.mono (by simp), fun _ => hs, fun h => absurd hn h⟩
  · have h2 : s2 = (s1.latch aTBS_LATE fTBS_LATE_STEP_DROP).bumpBy aTBS_LATE_CNT n := if_neg hn
    rw [h2]
    refine ⟨rfl, rfl, rfl, rfl, rfl, ?_, fun h => absurd h hn, fun _ => ⟨?_, ?_⟩⟩
    · exact ((hs.mono (by simp)).latch (by simp) _).setReg (a := aTBS_LATE_CNT) (by simp) _
    · exact (State.bit_congr _ (State.reg_setReg_ne _ (a := aTBS_LATE_CNT) _ (by decide))).trans
        (State.bit_latch_self _ _ _ rfl (by decide))
    · refine (State.reg_bumpBy_toNat _ _ _).trans ?_
      rw [show (s1.latch aTBS_LATE fTBS_LATE_STEP_DROP).reg aTBS_LATE_CNT = s.reg aTBS_LATE_CNT from
        State.reg_setReg_ne _ _ (by decide)]
      rfl

end Sys2Proof.Machine
end

section
/-! A step of the count as a whole, and STEP (O3). -/
namespace Sys2Proof.Machine

variable {s t : State} {c : Count}

/-! ## Time-anchor records (R60) -/

theorem mem_insertHeld (r x : HeldRec) (l : List HeldRec) : x ∈ insertHeld r l ↔ x = r ∨ x ∈ l := by
  induction l with
  | nil => simp [insertHeld]
  | cons y ys ih =>
    unfold insertHeld
    split
    · simp
    · simp only [List.mem_cons, ih]; tauto

/-- Where the stream runs, an anchor is held for the present count, beside the records held before. -/
theorem State.mem_anchor_held (h : s.bit aACQ_STAT fACQ_STAT_RUN = true) (reason : Nat) (x : HeldRec) :
    x ∈ ((s.anchor reason).stream 0).held ↔ x = ⟨s.count, anchorRec s reason, []⟩ ∨ x ∈ (s.stream 0).held := by
  rw [← mem_insertHeld]
  unfold State.anchor State.appendA State.append State.appendTimes
  rw [if_pos h, State.setStream_stream, if_pos rfl]

/-- An anchor changes nothing of what anchors say. -/
theorem anchorRec_anchor (s : State) (k reason : Nat) : anchorRec (s.anchor k) reason = anchorRec s reason := by
  unfold State.anchor State.appendA State.append State.appendTimes
  split <;> rfl

/-! ## The count stepped -/

/-- After a step of the count: the count loaded, TIME_VALID, the state of the time base kept, the queues empty, no frame taken
back, and an anchor record of reason 2 where the stream runs. -/
structure Stepped (c : Count) (s t : State) : Prop where
  count : t.count = Count.cycleStart c
  tbState : t.tbState = s.tbState
  valid : t.bit aTBS_STATE fTBS_STATE_TIME_VALID = true
  queues : t.sched.queues = []
  out : s.out <+: t.out
  anchor : s.bit aACQ_STAT fACQ_STAT_RUN = true → (⟨t.count, anchorRec t 2, []⟩ : HeldRec) ∈ (t.stream 0).held

theorem State.stepCount_stepped (s : State) (c : Count) : Stepped c s (s.stepCount c) := by
  have hrun : (s.stepCount c).reg aACQ_STAT = s.reg aACQ_STAT := State.stepCount_does.regs (by decide) _ (by decide)
  obtain ⟨u, hu, heq⟩ := s.stepCount_eq c
  rw [heq] at hrun ⊢
  generalize hw : u.latch aTBS_STATE fTBS_STATE_TIME_VALID = w at hrun ⊢
  have hwork : Does [.agenda, .causes, .free, .fresh, .out, .codes, .meas, .loops, .quants, .ships, .cals, .calRec, .twn]
      [1, 3, 6, 15, 64] w ((w.seqEndAll 12 false).stepUnits s.count) :=
    State.stepUnits_does.call (by decide) (State.seqEndAll_does.mono (by decide))
  have hpass : Passes w ((w.seqEndAll 12 false).stepUnits s.count) :=
    (w.seqEndAll_passes _ _).trans (State.stepUnits_passes _ _)
  generalize (w.seqEndAll 12 false).stepUnits s.count = v at hwork hpass hrun ⊢
  have hanchor : Does [.acq] [] v (v.anchor 2) := State.anchor_does
  have hstate : (v.anchor 2).reg aTBS_STATE = w.reg aTBS_STATE :=
    (hanchor.regs (by decide) _ (by decide)).trans hpass.tbs
  have hcount : (v.anchor 2).count = v.count := hanchor.same .count (by decide) (by decide)
  refine ⟨?count, ?tbState, ?valid, ?queues, ?out, fun hs => ?anchor⟩
  case count =>
    rw [hcount, show v.count = w.count from hwork.same .count (by decide) (by decide), ← hw]
    exact hu.count
  case tbState =>
    refine (State.fld_congr _ hstate).trans ?_
    rw [← hw]
    exact (State.fld_setFld_beside _ _ _ _ _ (by decide) (by decide) (by decide)).trans
      (State.fld_congr _ (hu.keeps _ (by decide)))
  case valid =>
    rw [State.bit_congr _ hstate, ← hw]
    exact State.bit_latch_self _ _ _ rfl (by decide)
  case queues =>
    rw [show (v.anchor 2).sched = v.sched from hanchor.same .sched (by decide) (by decide),
      show v.sched = w.sched from hwork.same .sched (by decide) (by decide), ← hw]
    exact hu.queues
  case out =>
    rw [show (v.anchor 2).out = v.out from hanchor.same .out (by decide) (by decide), ← hu.out]
    exact (show u.out = w.out by rw [← hw]; rfl) ▸ hpass.out
  case anchor =>
    have hv : v.bit aACQ_STAT fACQ_STAT_RUN = true := by
      rw [← hs, ← State.bit_congr _ hrun, State.bit_congr _ (hanchor.regs (by decide) _ (by decide))]
    rw [State.mem_anchor_held hv, hcount, anchorRec_anchor]
    exact .inl rfl

/-- What is still held after a step was held before and is not discarded, or is a stage of an island's own path. -/
theorem movedAgenda_kept {move : Count} {d : Due} (h : d ∈ movedAgenda c move s.agenda) :
    d.act.inIsland = true ∨ ∃ e ∈ s.agenda, d.act = e.act ∧ s.discards e = false := by
  unfold movedAgenda at h
  rw [List.mem_append, List.mem_map, List.mem_map] at h
  obtain ⟨e, he, rfl⟩ | ⟨e, he, rfl⟩ := h
  · obtain ⟨hin, hread⟩ := List.mem_filter.mp he
    refine .inr ⟨e, hin, rfl, ?_⟩
    unfold State.discards
    split at hread
    next hact => rw [hact]; exact Bool.and_false _
    next => exact absurd hread (by decide)
  · exact .inl (List.mem_filter.mp he).2

/-- What a step discards is read off the actions held, the tasks and the queues. -/
theorem State.discards_congr (h : t.tasks = s.tasks) : t.discards = s.discards := by
  funext d
  unfold State.discards State.task
  rw [h]

theorem State.dropped_congr (htasks : t.tasks = s.tasks) (hagenda : t.agenda = s.agenda) (hsched : t.sched = s.sched) :
    t.dropped = s.dropped := by
  unfold State.dropped
  rw [State.discards_congr htasks, hagenda, hsched]

theorem State.seqRuns_congr {q : Nat} (h : t.reg (aCALQ_STAT q) = s.reg (aCALQ_STAT q)) : t.seqRuns q = s.seqRuns q := by
  unfold State.seqRuns State.seqPhase
  rw [State.fld_congr _ h]

theorem State.mu_congr (h : t.meas = s.meas) (n u : Nat) : t.mu n u = s.mu n u := by
  unfold State.mu
  rw [h]

/-- What is held after a step that nothing follows, and what the drop of the rest shows. -/
structure Drops (s t : State) : Prop where
  held : ∀ d ∈ t.agenda, d.act.inIsland = true ∨ ∃ e ∈ s.agenda, d.act = e.act ∧ s.discards e = false
  none : s.dropped = 0 → t.reg aTBS_LATE = s.reg aTBS_LATE ∧ t.reg aTBS_LATE_CNT = s.reg aTBS_LATE_CNT
  some : s.dropped ≠ 0 → t.bit aTBS_LATE fTBS_LATE_STEP_DROP = true ∧
    (t.reg aTBS_LATE_CNT).toNat = min 0xFFFFFFFF ((s.reg aTBS_LATE_CNT).toNat + s.dropped)

/-- Where no unit is enabled and no sequence runs, a step drops what it discards and nothing is held anew. -/
theorem State.stepCount_drops (hunits : ∀ (isl : Isl) (u : UnitNo), (s.mu isl.val u.val).next = none)
    (hseqs : ∀ q : Fin 4, s.seqRuns q.val = false) (c : Count) : Drops s (s.stepCount c) := by
  obtain ⟨u, hu, heq⟩ := s.stepCount_eq c
  generalize hw : u.latch aTBS_STATE fTBS_STATE_TIME_VALID = w at heq
  have hstate : Does [.fresh] [1] u w := hw ▸ Does.latch adr_TBS_STATE (by decide) Does.refl
  have hseqs' : ∀ q : Fin 4, w.seqRuns q.val = false := by
    intro q
    have hq : aCALQ_STAT q.val ∉ [aTBS_LATE, aTBS_LATE_CNT] := by revert q; decide
    have hblk : regBlk (aCALQ_STAT q.val) ∉ [1] := by rw [adr_CALQ_STAT.here]; decide
    rw [State.seqRuns_congr ((hstate.regs (by decide) _ hblk).trans (hu.keeps _ hq)), hseqs]
  have hunits' : ∀ (isl : Isl) (n : UnitNo), (w.mu isl.val n.val).next = none := fun isl n => by
    rw [State.mu_congr ((hstate.same .meas (by decide) (by decide)).trans hu.meas), hunits]
  rw [State.seqEndAll_of_idle hseqs', State.stepUnits_of_idle hunits'] at heq
  have hagenda : (w.anchor 2).agenda = u.agenda :=
    (State.anchor_does.same .agenda (by decide) (by decide)).trans (hstate.same .agenda (by decide) (by decide))
  have hlate : ∀ a, a ≠ aTBS_STATE → (w.anchor 2).reg a = u.reg a := fun a ha =>
    (State.anchor_does.regs (by decide) a (by simp)).trans (by rw [← hw]; exact State.reg_setReg_ne _ _ ha)
  rw [heq]
  refine ⟨fun d hd => ?_, fun hzero => ?_, fun hpos => ?_⟩
  · rw [hagenda, hu.agenda] at hd
    exact movedAgenda_kept hd
  · have hkeeps := hu.none hzero
    exact ⟨(hlate _ (by decide)).trans (hkeeps _ (by simp)), (hlate _ (by decide)).trans (hkeeps _ (by simp))⟩
  · obtain ⟨hlatch, hcount⟩ := hu.some hpos
    exact ⟨(State.bit_congr _ (hlate _ (by decide))).trans hlatch, by rw [hlate _ (by decide), hcount]⟩

/-! ## STEP -/

theorem exec_tbsStep_accepted {by_ : Issuer} (hst : s.tbState = tbUnset ∨ s.tbState = tbFree) (hdrv : s.anyDriver = false) :
    exec (.tbsStep by_) s = .next ((s.setTb tbFree).stepCount (BitVec.ofNat 72 (s.wide aTBS_LOAD 3))) :=
  if_pos ⟨hst, hdrv⟩

/-- A STEP that is accepted makes the state FREE first, which changes nothing of what the step drops. -/
theorem State.stepFree_drops (hunits : ∀ (isl : Isl) (u : UnitNo), (s.mu isl.val u.val).next = none)
    (hseqs : ∀ q : Fin 4, s.seqRuns q.val = false) (c : Count) : Drops s ((s.setTb tbFree).stepCount c) := by
  have hfree : Does [.causes, .tbs] [1] s (s.setTb tbFree) := State.setTb_does
  have hregs : KeepsRegs [aTBS_STATE, aTBS_HOLD] s (s.setTb tbFree) := s.setTb_keepsRegs tbFree
  have htasks : (s.setTb tbFree).tasks = s.tasks := hfree.same .tasks (by decide) (by decide)
  have hagenda : (s.setTb tbFree).agenda = s.agenda := hfree.same .agenda (by decide) (by decide)
  have hmeas : (s.setTb tbFree).meas = s.meas := hfree.same .meas (by decide) (by decide)
  have hstat : ∀ q : Fin 4, aCALQ_STAT q.val ∉ [aTBS_STATE, aTBS_HOLD] := by decide
  obtain ⟨hheld, hnone, hsome⟩ := State.stepCount_drops (s := s.setTb tbFree)
    (fun isl u => by rw [State.mu_congr hmeas, hunits])
    (fun q => by rw [State.seqRuns_congr (hregs _ (hstat q)), hseqs]) c
  rw [State.dropped_congr htasks hagenda (hfree.same .sched (by decide) (by decide)), hregs _ (by decide)] at hsome hnone
  rw [State.discards_congr htasks, hagenda] at hheld
  rw [hregs _ (by decide)] at hnone
  exact ⟨hheld, hnone, hsome⟩

/-- Settles O3: a STEP that is accepted steps the count from FREE (`State.stepCount_stepped`, `State.stepFree_drops`), and any
other is a refused write. -/
theorem timeBaseStep : Obligations.TimeBaseStep := by
  unfold Obligations.TimeBaseStep
  intro by_ s
  refine ⟨fun hst hdrv => ⟨_, exec_tbsStep_accepted hst hdrv, ?steps⟩,
    fun hst hdrv hunits hseqs => ⟨_, exec_tbsStep_accepted hst hdrv, ?drops⟩, fun h => ⟨_, if_neg h, ?refused⟩⟩
  case steps =>
    have hstep := (s.setTb tbFree).stepCount_stepped (BitVec.ofNat 72 (s.wide aTBS_LOAD 3))
    refine ⟨hstep.count, hstep.tbState.trans (s.setTb_tbState _), hstep.valid, hstep.queues, fun hrun => hstep.anchor ?_⟩
    rw [State.bit_congr _ (s.setTb_keepsRegs _ _ (by decide)), hrun]
  case drops =>
    obtain ⟨hheld, hnone, hsome⟩ := State.stepFree_drops hunits hseqs (BitVec.ofNat 72 (s.wide aTBS_LOAD 3))
    refine ⟨hheld, fun ⟨hagenda, hqueues⟩ => hnone ?_, fun hagenda => hsome ?_⟩
    · unfold State.dropped
      rw [hagenda, hqueues]
      rfl
    · have hpos := List.length_pos_iff.mpr hagenda
      unfold State.dropped
      omega
  case refused =>
    obtain ⟨hsets, hraises, hkeeps, hmem⟩ := s.reject_tbs by_ (k := .val) (a := aTBS_CMD) (i := 2) rfl (by decide) rfl
    have hcount : (s.rejectVal by_ aTBS_CMD).count = s.count := State.rejectVal_any.same .count (by decide) (by decide)
    exact ⟨hcount, State.fld_congr _ (hkeeps _ (by decide)), hsets, hraises, hkeeps, hmem⟩

end Sys2Proof.Machine
end

section
/-! Time anchors, and the time messages of the ring and of the col link (O4). -/
namespace Sys2Proof.Machine

variable {s : State} {m : RingBody} {arrival ref : Count}

/-! ## The reference (R63, R65, R66, R82) -/

/-- The registers in which a time message of the selected source shows. -/
def referenceRegs : List Nat := [aTBS_STATE, aTBS_PATH, aTBS_HOP, aTBS_PHERR]

theorem State.showReference_keepsRegs (s : State) (err : Int) (path : Word) (hop : BitVec 16) :
    KeepsRegs referenceRegs s (s.showReference err path hop) :=
  ((((KeepsRegs.refl _ s).latch (a := aTBS_STATE) (by decide) _).setReg (a := aTBS_PATH) (by decide) _).setReg
    (a := aTBS_HOP) (by decide) _).setReg (a := aTBS_PHERR) (by decide) _

theorem State.showReference_state (s : State) (err : Int) (path : Word) (hop : BitVec 16) :
    (s.showReference err path hop).reg aTBS_STATE = (s.latch aTBS_STATE fTBS_STATE_REF_PRESENT).reg aTBS_STATE :=
  (State.reg_setReg_ne _ (a := aTBS_PHERR) _ (by decide)).trans
    ((State.reg_setReg_ne _ (a := aTBS_HOP) _ (by decide)).trans (State.reg_setReg_ne _ (a := aTBS_PATH) _ (by decide)))

theorem State.showReference_tbState (s : State) (err : Int) (path : Word) (hop : BitVec 16) :
    (s.showReference err path hop).tbState = s.tbState :=
  (State.fld_congr _ (s.showReference_state err path hop)).trans
    (State.fld_setFld_beside _ _ _ _ _ (by decide) (by decide) (by decide))

/-- A reference is shown: its path, its hop count, its phase error, and that it is there. -/
structure Shows (err : Int) (path : Word) (hop : BitVec 16) (t : State) : Prop where
  path : t.reg aTBS_PATH = path
  hop : t.fld aTBS_HOP fTBS_HOP_HOP = hop.toNat
  error : t.reg aTBS_PHERR = BitVec.ofInt 32 (sat32 err)
  present : t.bit aTBS_STATE fTBS_STATE_REF_PRESENT = true

theorem State.showReference_shows (s : State) (err : Int) (path : Word) (hop : BitVec 16) :
    Shows err path hop (s.showReference err path hop) where
  path := (State.reg_setReg_ne _ (a := aTBS_PHERR) _ (by decide)).trans
    ((State.reg_setReg_ne _ (a := aTBS_HOP) _ (by decide)).trans (State.reg_setReg_self _ _ _))
  hop := by
    refine (State.fld_congr _ (State.reg_setReg_ne _ (a := aTBS_PHERR) _ (by decide))).trans ?_
    refine (State.fld_setFld_self _ _ _ _ (by decide) (by decide)).trans ?_
    exact Nat.mod_eq_of_lt hop.isLt
  error := State.reg_setReg_self _ _ _
  present := (State.bit_congr _ (s.showReference_state err path hop)).trans (State.bit_latch_self _ _ _ rfl (by decide))

theorem State.judgePhase_phaseRem (s : State) (err : Int) : (s.judgePhase err).tbs.phaseRem = s.tbs.phaseRem := by
  unfold State.judgePhase
  extract_lets far tbs1 s1
  split
  · split
    · rfl
    · show (s1.causeOn 10 0).tbs.phaseRem = s.tbs.phaseRem
      rw [show (s1.causeOn 10 0).tbs = s1.tbs from State.causeOn_does.same .tbs (by decide) (by decide)]
  · rfl

/-- A later message leaves the phase error to be removed, and what is shown of the reference. -/
theorem State.trackReference_tracks (s : State) (err : Int) : let t := s.trackReference err
    t.tbs.phaseRem = err ∧ KeepsRegs [aTBS_STATE, aTBS_HOLD] s t ∧
      t.fld aTBS_STATE fTBS_STATE_REF_PRESENT = s.fld aTBS_STATE fTBS_STATE_REF_PRESENT := by
  intro t
  obtain ⟨st, u, hu, hrem, ht⟩ : ∃ (st : Nat) (u : State), u.regs = (s.setTb st).regs ∧ u.tbs.phaseRem = err ∧
      t = (u.judgePhase err).showSlewing := by
    generalize heq : t = t'
    unfold t State.trackReference at heq
    extract_lets -underBinder -merge -useContext good run st s1 tbs1 at heq
    exact ⟨st, { s1 with tbs := { s1.tbs with goodRun := run, phaseRem := err, lastMsg := s.count } }, rfl, rfl, heq.symm⟩
  have hjudge : KeepsRegs [] (s.setTb st) (u.judgePhase err) :=
    (KeepsRegs.of_regs hu _).trans (KeepsRegs.of_does State.judgePhase_does (by decide) _)
  rw [ht]
  refine ⟨(u.judgePhase_phaseRem err).trans hrem, ?_, ?_⟩
  · exact ((s.setTb_keepsRegs st).trans (hjudge.mono (by simp))).trans ((State.showSlewing_keepsRegs _).mono (by simp))
  · exact (State.showSlewing_fld _ (by decide)).trans ((State.fld_congr _ (hjudge _ (by decide))).trans
      (s.setTb_beside st (by decide) (by decide)))

/-- A first message steps the count, and no phase error is left. -/
theorem State.firstReference_steps (s : State) (c : Count) : let t := s.firstReference c
    t.count = Count.cycleStart c ∧ t.tbState = tbAcquire ∧ t.bit aTBS_STATE fTBS_STATE_TIME_VALID = true ∧
      t.tbs.phaseRem = 0 ∧ s.out <+: t.out := by
  have hstep := (s.setTb tbAcquire).stepCount_stepped c
  have hout : (s.setTb tbAcquire).out = s.out := State.setTb_does.same .out (by decide) (by decide)
  unfold State.firstReference
  dsimp only
  rw [State.clearPhase_count, State.clearPhase_tbState, State.clearPhase_bit _ (by decide), State.clearPhase_phaseRem,
    State.clearPhase_out, hstep.tbState, State.setTb_tbState, ← hout]
  exact ⟨hstep.count, rfl, hstep.valid, rfl, hstep.out⟩

theorem State.takeReference_of_unset (h : s.tbState = tbUnset) (path : Word) (hop : BitVec 16) :
    s.takeReference ref arrival path hop =
      (s.showReference (ref - arrival).toInt path hop).firstReference (s.count + (ref - arrival)) := if_pos h

theorem State.takeReference_of_set (h : s.tbState ≠ tbUnset) (path : Word) (hop : BitVec 16) :
    s.takeReference ref arrival path hop =
      (s.showReference (ref - arrival).toInt path hop).trackReference (ref - arrival).toInt := if_neg h

/-- A message of the selected source after the first one: it is shown, its phase error is to be removed, and the count stays. -/
theorem State.takeReference_tracks (h : s.tbState ≠ tbUnset) (path : Word) (hop : BitVec 16) :
    let t := s.takeReference ref arrival path hop
    Shows (ref - arrival).toInt path hop t ∧ t.tbs.phaseRem = (ref - arrival).toInt ∧
      Does [.agenda, .causes, .tbs, .fresh] [1] s t := by
  obtain ⟨hrem, hkeeps, hpresent⟩ :=
    (s.showReference (ref - arrival).toInt path hop).trackReference_tracks (ref - arrival).toInt
  obtain ⟨hpath, hhop, herror, hshown⟩ := s.showReference_shows (ref - arrival).toInt path hop
  rw [State.takeReference_of_set h]
  refine ⟨⟨?_, ?_, ?_, ?_⟩, hrem, State.trackReference_does.call (by decide) (State.showReference_does.mono (by decide))⟩
  · exact (hkeeps _ (by decide)).trans hpath
  · exact (State.fld_congr _ (hkeeps _ (by decide))).trans hhop
  · exact (hkeeps _ (by decide)).trans herror
  · exact (congrArg (· != 0) hpresent).trans hshown

theorem State.takeReference_out (s : State) (ref arrival : Count) (path : Word) (hop : BitVec 16) :
    s.out <+: (s.takeReference ref arrival path hop).out := by
  have hshow : (s.showReference (ref - arrival).toInt path hop).out = s.out :=
    State.showReference_does.same .out (by decide) (by decide)
  by_cases h : s.tbState = tbUnset
  · obtain ⟨_, _, _, _, hout⟩ :=
      (s.showReference (ref - arrival).toInt path hop).firstReference_steps (s.count + (ref - arrival))
    rw [State.takeReference_of_unset h, ← hshow]
    exact hout
  · obtain ⟨_, _, hdoes⟩ := State.takeReference_tracks (ref := ref) (arrival := arrival) h path hop
    rw [show (s.takeReference ref arrival path hop).out = s.out from hdoes.same .out (by decide) (by decide)]

/-! ## Messages of the ring (R62, R63, R427, R429) -/

/-- CABLE as a delay. -/
def State.cableWord (s : State) : Word := BitVec.ofNat 32 (s.fld aTBS_CABLE fTBS_CABLE_CABLE)

/-- The message that a module which is not the master passes on, with a pass-through latency. -/
def State.passedOn (s : State) (m : RingBody) (pass : Nat) : RingBody :=
  { m with hop := m.hop + 1, path := m.path + s.cableWord + BitVec.ofNat 32 pass }

/-- A module that is not the master has passed a message on. -/
def State.ringPassed (s : State) (m : RingBody) : State :=
  ((({ s with free := s.free + 1 }).setFld aLR_STAT fLR_STAT_POS (m.hop + 1).toNat).maxReg aLR_PASS
    (ringLatency s.free)).ringSend 0x01 (s.passedOn m (ringLatency s.free))

/-- It has noted the message and its arrival too, for the col link (R70). -/
def State.ringNoted (s : State) (m : RingBody) (arrival : Count) : State :=
  { s.ringPassed m with tbs := { (s.ringPassed m).tbs with
    lastBody := some { m with hop := m.hop + 1, path := m.path + s.cableWord }, bodyArr := arrival } }

/-- The reference that a message of the ring gives. -/
def State.ringRef (s : State) (m : RingBody) : Count := m.count + (m.path + s.cableWord).setWidth 72

theorem State.ringPassed_does (s : State) (m : RingBody) : Does [.free, .out, .links] [13] s (s.ringPassed m) :=
  State.ringSend_does.call (by decide) (Does.maxReg adr_LR_PASS (by decide) (Does.setFld adr_LR_STAT (by decide)
    (Does.put_free (by decide) Does.refl)))

theorem State.ringNoted_does (s : State) (m : RingBody) (arrival : Count) :
    Does [.free, .out, .links, .tbs] [13] s (s.ringNoted m arrival) :=
  Does.put_tbs (by decide) ((s.ringPassed_does m).mono (by decide))

/-- What a message passed on shows of the ring: the module's position, and the message sent where the ring output is up. -/
theorem State.ringPassed_shows (s : State) (m : RingBody) : let t := s.ringPassed m
    KeepsRegs [aLR_STAT, aLR_PASS] s t ∧ t.fld aLR_STAT fLR_STAT_POS = (m.hop + 1).toNat ∧
      (s.bit aLNK_STAT fLNK_STAT_RING_OUT = true → .ring 0x01 (s.passedOn m (ringLatency s.free)) ∈ t.out) := by
  intro t
  generalize hu : (({ s with free := s.free + 1 }).setFld aLR_STAT fLR_STAT_POS (m.hop + 1).toNat).maxReg aLR_PASS
    (ringLatency s.free) = u
  have ht : t = u.ringSend 0x01 (s.passedOn m (ringLatency s.free)) := by rw [← hu]; rfl
  have hkeeps : KeepsRegs [aLR_STAT, aLR_PASS] s u := by
    rw [← hu]
    exact ((KeepsRegs.of_regs (s := s) rfl _).setReg (a := aLR_STAT) (by decide) _).setReg (a := aLR_PASS) (by decide) _
  have hsend : ∀ a, t.reg a = u.reg a := fun a => ht ▸ State.ringSend_does.regs (by decide) a (by simp)
  refine ⟨fun a ha => (hsend a).trans (hkeeps a ha), ?_, fun hup => ?_⟩
  · rw [State.fld_congr _ (hsend _), ← hu]
    refine (State.fld_congr _ (State.reg_setReg_ne _ (a := aLR_PASS) _ (by decide))).trans ?_
    exact (State.fld_setFld_self _ _ _ _ (by decide) (by decide)).trans (Nat.mod_eq_of_lt (m.hop + 1).isLt)
  · have hout : t = (u.emit (.ring 0x01 (s.passedOn m (ringLatency s.free)))).sentOn 4 :=
      ht.trans (if_pos (by rw [State.bit_congr _ (hkeeps _ (by decide)), hup]))
    rw [show t.out = u.out ++ [.ring 0x01 (s.passedOn m (ringLatency s.free))] by rw [hout]; rfl]
    simp

theorem State.ringTimeTake_off (h : s.blkOn 1 = false) : s.ringTimeTake m arrival = s.ringPassed m :=
  if_neg (by rw [h]; decide)

theorem State.ringTimeTake_noted (hon : s.blkOn 1 = true) (hsrc : s.fld aTBS_SRC fTBS_SRC_SRC ≠ 1) :
    s.ringTimeTake m arrival = s.ringNoted m arrival := (if_pos hon).trans (if_neg hsrc)

theorem State.ringTimeTake_reference (hon : s.blkOn 1 = true) (hsrc : s.fld aTBS_SRC fTBS_SRC_SRC = 1) :
    s.ringTimeTake m arrival =
      (s.ringNoted m arrival).takeReference (s.ringRef m) arrival (m.path + s.cableWord) m.hop :=
  (if_pos hon).trans (if_pos hsrc)

/-- Whatever the source, the message is passed on and the position shown. -/
theorem State.ringTimeTake_passes (s : State) (m : RingBody) (arrival : Count) :
    (s.ringPassed m).out <+: (s.ringTimeTake m arrival).out ∧
      (s.ringTimeTake m arrival).reg aLR_STAT = (s.ringPassed m).reg aLR_STAT := by
  cases hon : s.blkOn 1 with
  | false => rw [State.ringTimeTake_off hon]; exact ⟨List.prefix_refl _, rfl⟩
  | true =>
    by_cases hsrc : s.fld aTBS_SRC fTBS_SRC_SRC = 1
    · rw [State.ringTimeTake_reference hon hsrc]
      exact ⟨State.takeReference_out (s.ringNoted m arrival) _ _ _ _,
        (State.takeReference_does (s := s.ringNoted m arrival)).regs (by decide) _ (by decide)⟩
    · rw [State.ringTimeTake_noted hon hsrc]; exact ⟨List.prefix_refl _, rfl⟩

/-- A message taken as reference after the first one shows, and its phase error is to be removed. -/
theorem State.ringTimeTake_tracks (hon : s.blkOn 1 = true) (hsrc : s.fld aTBS_SRC fTBS_SRC_SRC = 1) (hst : s.tbState ≠ tbUnset) :
    let t := s.ringTimeTake m arrival
    Shows (s.ringRef m - arrival).toInt (m.path + s.cableWord) m.hop t ∧
      t.tbs.phaseRem = (s.ringRef m - arrival).toInt ∧ t.count = s.count ∧ KeepsMemory s t := by
  have hnoted := s.ringNoted_does m arrival
  have hstate : (s.ringNoted m arrival).tbState = s.tbState := State.fld_congr _ (hnoted.regs (by decide) _ (by decide))
  obtain ⟨hshows, hrem, hdoes⟩ := State.takeReference_tracks (s := s.ringNoted m arrival) (ref := s.ringRef m)
    (arrival := arrival) (by rw [hstate]; exact hst) (m.path + s.cableWord) m.hop
  have hall := hdoes.call (qs := [.free, .out, .links, .tbs, .agenda, .causes, .fresh]) (cs := [1, 13]) (by decide)
    (hnoted.mono (by decide))
  rw [State.ringTimeTake_reference hon hsrc]
  exact ⟨hshows, hrem, hall.same .count (by decide) (by decide), .of_does hall (by decide)⟩

/-- A message taken as reference in UNSET steps the count to it. -/
theorem State.ringTimeTake_acquires (hon : s.blkOn 1 = true) (hsrc : s.fld aTBS_SRC fTBS_SRC_SRC = 1)
    (hst : s.tbState = tbUnset) : let t := s.ringTimeTake m arrival
    t.count = Count.cycleStart (s.count + (s.ringRef m - arrival)) ∧ t.tbState = tbAcquire ∧
      t.bit aTBS_STATE fTBS_STATE_TIME_VALID = true ∧ t.tbs.phaseRem = 0 := by
  have hnoted := s.ringNoted_does m arrival
  have hstate : (s.ringNoted m arrival).tbState = tbUnset :=
    (State.fld_congr _ (hnoted.regs (by decide) _ (by decide))).trans hst
  obtain ⟨hcount, hacquire, hvalid, hrem, _⟩ := State.firstReference_steps
    ((s.ringNoted m arrival).showReference (s.ringRef m - arrival).toInt (m.path + s.cableWord) m.hop)
    (s.count + (s.ringRef m - arrival))
  rw [State.ringTimeTake_reference hon hsrc, State.takeReference_of_unset hstate,
    show (s.ringNoted m arrival).count = s.count from hnoted.same .count (by decide) (by decide)]
  exact ⟨hcount, hacquire, hvalid, hrem⟩

/-- A message that is not taken as reference shows in the registers of the ring alone. -/
theorem State.ringTimeTake_unused (h : s.blkOn 1 = false ∨ s.fld aTBS_SRC fTBS_SRC_SRC ≠ 1) :
    let t := s.ringTimeTake m arrival
    KeepsRegs [aLR_STAT, aLR_PASS] s t ∧ KeepsMemory s t := by
  obtain ⟨hkeeps, _⟩ := s.ringPassed_shows m
  cases hon : s.blkOn 1 with
  | false =>
    rw [State.ringTimeTake_off hon]
    exact ⟨hkeeps, .of_does (s.ringPassed_does m) (by decide)⟩
  | true =>
    rw [State.ringTimeTake_noted hon (h.resolve_left (by rw [hon]; decide))]
    exact ⟨hkeeps.trans (KeepsRegs.of_regs rfl _), .of_does (s.ringNoted_does m arrival) (by decide)⟩

theorem exec_ringTime_take (h : s.isMaster = false) : exec (.ringTime m true arrival) s = .next (s.ringTimeTake m arrival) :=
  if_neg (c := s.isMaster = true) (by rw [h]; decide)

/-- The message that the master originates. -/
def State.ownBody (s : State) : RingBody := ⟨0, false, 0, 0, 0, s.count, 0, 0, 0⟩

theorem exec_timeMsgSend_originates (hmaster : s.isMaster = true) (hon : s.blkOn 1 = true) (hmark : s.count.toNat % 2 ^ 23 = 0)
    (hup : s.bit aLNK_STAT fLNK_STAT_RING_OUT = true) : exec .timeMsgSend s =
      .next (({ s with tbs := { s.tbs with lastBody := some s.ownBody, bodyArr := s.count } }.emit
        (.ring 0x01 s.ownBody)).sentOn 4) :=
  (if_pos ⟨hmaster, hon, hmark⟩).trans (congrArg Host.Outcome.next (if_pos hup))

theorem exec_ringTime_own (h : s.isMaster = true) (hown : m.origin = 0) :
    exec (.ringTime m true arrival) s = .next (s.setReg aLR_RLAT m.path) := by
  have hpos : s.ringOwn m = true := by unfold State.ringOwn State.ringPos; rw [if_pos h, hown]; rfl
  exact (if_pos (c := s.isMaster = true) h).trans (congrArg Host.Outcome.next (if_pos hpos))

/-- A message with a bad CRC is discarded, which RINGERR and FS 100 show. -/
theorem State.ringBad_shows (s : State) : let t := s.ringBad
    t.bit aLNK_LAT fLNK_LAT_RINGERR = true ∧ (∃ isl, Raises 100 isl s t) ∧ KeepsRegs [aLNK_LAT, aLR_CRCERR] s t :=
  ⟨(State.bit_congr _ (State.reg_setReg_ne _ (a := aLR_CRCERR) _ (by decide))).trans
      (State.bit_latch_self _ _ _ rfl (by decide)),
    ⟨_, raises_raise _ _ _⟩,
    ((KeepsRegs.refl _ s).latch (a := aLNK_LAT) (by decide) _).bump (a := aLR_CRCERR) (by decide)⟩

/-! ## The col link (R70) -/

/-- Where one own frame waits for an answer and the sum of R70 is not below 0, RXT answers that frame. -/
theorem answered_single {t1 t2 t3 t4 : Word} (h4 : t4 ≠ 0) (hsum : ((t2 - t1) + (t4 - t3)).msb = false) :
    answered [t3] t1 t2 t4 = some t3 := by
  unfold answered
  rw [if_neg h4, List.find?_cons_of_pos]
  rw [hsum]
  rfl

/-- The TIME frame that the col link carries now. -/
def State.colFrame (s : State) : RingBody :=
  { s.colBody with linkt := s.count.setWidth 32, rxt := s.tbs.colArr.getD 0 }

theorem exec_colTimeSend_due (hup : s.bit aLNK_STAT fLNK_STAT_COL_UP = true) (hon : s.blkOn 1 = true)
    (hdue : s.colDue = true) : exec .colTimeSend s = .next (({ s with tbs := { s.tbs with
      colSent := (s.count.setWidth 32 :: s.tbs.colSent).take 4, colLast := some s.count } }.emit
        (.colTime s.colFrame)).sentOn 2) := if_pos ⟨hup, hon, hdue⟩

/-- A frame of the col link has arrived: its arrival is kept, and the twin has been heard. -/
def State.colHeard (s : State) (arrival : Count) : State :=
  { s with tbs := { s.tbs with colArr := some (arrival.setWidth 32) } }.peerHeard

theorem State.peerHeard_shows (s : State) : let t := s.peerHeard
    t.bit aTWN_STAT fTWN_STAT_LINK = true ∧ KeepsRegs [aTWN_STAT] s t :=
  ⟨State.bit_latch_self _ _ _ rfl (by decide), (KeepsRegs.refl _ s).latch (a := aTWN_STAT) (by decide) _⟩

theorem State.colHeard_shows (s : State) (arrival : Count) : let t := s.colHeard arrival
    t.bit aTWN_STAT fTWN_STAT_LINK = true ∧ KeepsRegs [aTWN_STAT] s t :=
  ⟨State.bit_latch_self _ _ _ rfl (by decide), (KeepsRegs.of_regs (s := s) rfl _).latch (a := aTWN_STAT) (by decide) _⟩

theorem State.colHeard_does (s : State) (arrival : Count) : Does [.fresh, .tbs, .twn] [14] s (s.colHeard arrival) :=
  State.peerHeard_does.call (by decide) (Does.put_tbs (by decide) Does.refl)

theorem exec_colTime_standby {t3 : Word} (hon : s.blkOn 1 = true) (hst : s.isStandby = true)
    (hans : answered s.tbs.colSent m.linkt (arrival.setWidth 32) m.rxt = some t3)
    (hsrc : s.fld aTBS_SRC fTBS_SRC_SRC ≠ 2) :
    exec (.colTime m arrival) s = .next ((s.colHeard arrival).setFld aTBS_COLD fTBS_COLD_COLD
      (colDelay m.linkt (arrival.setWidth 32) t3 m.rxt)) := by
  refine (if_pos hon).trans ((if_pos hst).trans ((if_neg hsrc).trans ?_))
  rw [hans]
  rfl

theorem exec_colTime_active (hst : s.isStandby = false) :
    exec (.colTime m arrival) s = .next (if s.blkOn 1 then s.colHeard arrival else s.peerHeard) := by
  show execColTime m arrival s = _
  unfold execColTime
  extract_lets s1 s2 d
  rw [hst]
  split
  · rfl
  · rfl

/-! ## O4 -/

/-- An anchor is held beside the records held before, and nothing else changes. -/
theorem State.anchor_holds (h : s.bit aACQ_STAT fACQ_STAT_RUN = true) (reason : Nat) : let t := s.anchor reason
    (⟨s.count, anchorRec s reason, []⟩ : HeldRec) ∈ (t.stream 0).held ∧
      (∀ r ∈ (s.stream 0).held, r ∈ (t.stream 0).held) ∧ KeepsRegs [] s t ∧ KeepsMemory s t :=
  ⟨(State.mem_anchor_held h reason _).mpr (.inl rfl), fun _ hr => (State.mem_anchor_held h reason _).mpr (.inr hr),
    .of_does State.anchor_does (by decide) _, .of_does State.anchor_does (by decide)⟩

/-- Settles O4: anchors by `State.anchor_holds`, messages of the ring by the `State.ringTimeTake_` lemmas, TIME frames of the col
link by `exec_colTimeSend_due`, `exec_colTime_standby` and `exec_colTime_active`. -/
theorem timeAnchorsAndMessages : Obligations.TimeAnchorsAndMessages := by
  unfold Obligations.TimeAnchorsAndMessages
  refine ⟨fun s hrun => ⟨⟨_, rfl, State.anchor_holds hrun 3⟩,
    fun hmark => ⟨_, congrArg Host.Outcome.next (if_pos hmark), State.anchor_holds hrun 1⟩,
    fun hmark => ⟨_, congrArg Host.Outcome.next (if_neg hmark), rfl⟩⟩, fun s m arrival => ?_⟩
  intro ref
  refine ⟨fun hmaster hon hmark hup => ⟨_, exec_timeMsgSend_originates hmaster hon hmark hup, ?originates⟩,
    fun hmaster hown => ⟨_, exec_ringTime_own hmaster hown, ?returns⟩,
    fun hmaster _ hup => ⟨_, exec_ringTime_take hmaster, ?passes⟩,
    fun hmaster hon hsrc hst => ⟨_, exec_ringTime_take hmaster, ?tracks⟩,
    fun hmaster hon hsrc hst => ⟨_, exec_ringTime_take hmaster, State.ringTimeTake_acquires hon hsrc hst⟩,
    fun hmaster hoff => ⟨_, exec_ringTime_take hmaster, State.ringTimeTake_unused hoff⟩, ⟨_, rfl, ?discards⟩,
    fun hup hon hdue => ⟨_, exec_colTimeSend_due hup hon hdue, ?sends⟩,
    fun t3 hon hst hsent hrxt hsum hsrc => ?standby, fun hst => ⟨_, exec_colTime_active hst, ?active⟩⟩
  case originates => exact ⟨rfl, KeepsRegs.of_regs rfl _, KeepsMemory.of_fields rfl rfl rfl⟩
  case returns => exact ⟨State.reg_setReg_self _ _ _, rfl, keepsRegs_setReg _ _ _, keepsMemory_setReg _ _ _⟩
  case passes =>
    obtain ⟨_, hpos, hsent⟩ := s.ringPassed_shows m
    obtain ⟨hout, hstat⟩ := s.ringTimeTake_passes m arrival
    exact ⟨⟨⟨ringLatency s.free, Nat.mod_lt _ (by decide)⟩, hout.subset (hsent hup)⟩,
      (State.fld_congr _ hstat).trans hpos⟩
  case tracks =>
    obtain ⟨⟨hpath, hhop, herror, hpresent⟩, hrem, hcount, hmem⟩ :=
      State.ringTimeTake_tracks (m := m) (arrival := arrival) hon hsrc hst
    exact ⟨hpath, hhop, herror, hrem, hpresent, hcount, hmem⟩
  case discards =>
    obtain ⟨hlatch, hraises, hkeeps⟩ := s.ringBad_shows
    have hdoes : Does [.agenda, .fresh] [13] s s.ringBad := State.ringBad_does
    exact ⟨hlatch, hraises, hdoes.same .out (by decide) (by decide), hdoes.same .count (by decide) (by decide), hkeeps,
      .of_does hdoes (by decide)⟩
  case sends =>
    exact ⟨⟨_, List.mem_append_right _ (List.mem_singleton_self _), rfl⟩, rfl, KeepsRegs.of_regs rfl _,
      KeepsMemory.of_fields rfl rfl rfl⟩
  case standby =>
    have hans : answered s.tbs.colSent m.linkt (arrival.setWidth 32) m.rxt = some t3 := by
      rw [hsent]
      exact answered_single hrxt hsum
    obtain ⟨_, hkeeps⟩ := s.colHeard_shows arrival
    have hmem : KeepsMemory s (s.colHeard arrival) := .of_does (s.colHeard_does arrival) (by decide)
    exact ⟨_, exec_colTime_standby hon hst hans hsrc, State.fld_setFld_self _ _ _ _ (by decide) (by decide), rfl,
      (hkeeps.mono (by simp)).setReg (a := aTBS_COLD) (by simp) _, hmem⟩
  case active =>
    cases s.blkOn 1 with
    | false =>
      obtain ⟨hlink, hkeeps⟩ := s.peerHeard_shows
      exact ⟨hlink, hkeeps, .of_does State.peerHeard_does (by decide)⟩
    | true =>
      obtain ⟨hlink, hkeeps⟩ := s.colHeard_shows arrival
      exact ⟨hlink, hkeeps, .of_does (s.colHeard_does arrival) (by decide)⟩

end Sys2Proof.Machine
end

section
/-! Holdover, loss of the reference, phase steps, slew and ageing (O5). -/
namespace Sys2Proof.Machine

variable {s u : State}

/-! ## Faults with a cause that stands (R451) -/

/-- A fault of a cause that stands: it is raised, its cause stands, and no more changes. -/
theorem State.causeOn_raise (hcount : u.count = s.count) (fs : Fin 128) (inst : Nat) (isl : Fin 80) :
    let t := (u.causeOn fs.val inst).raise fs isl
    (∃ isl, Raises fs isl s t) ∧ t.causeStands fs.val = true ∧ Does [.agenda, .causes] [] u t := by
  refine ⟨⟨isl, ?_⟩, u.causeOn_causeStands _ _, State.raise_does.call (by decide) (State.causeOn_does.mono (by decide))⟩
  have h := raises_raise (u.causeOn fs.val inst) fs isl
  unfold Raises at h ⊢
  rw [← hcount, ← show (u.causeOn fs.val inst).count = u.count from State.causeOn_does.same .count (by decide) (by decide)]
  exact h

/-! ## Holdover (R65, R68) -/

theorem exec_holdTimeout_early (h : (s.count - s.tbs.lastMsg).toNat < s.fld aTBS_LOCKCFG fTBS_LOCKCFG_HOLD_TO * 192000000) :
    exec .holdTimeout s = .next s := if_pos (decide_eq_false (Nat.not_le.mpr h))

theorem exec_holdTimeout_enters (h : s.fld aTBS_LOCKCFG fTBS_LOCKCFG_HOLD_TO * 192000000 ≤ (s.count - s.tbs.lastMsg).toNat)
    (hst : s.tbState = tbAcquire ∨ s.tbState = tbLocked) (hvalid : s.bit aTBS_STATE fTBS_STATE_TIME_VALID = true) :
    exec .holdTimeout s = .next (s.setBit aTBS_STATE fTBS_STATE_REF_PRESENT false).enterHoldover := by
  have hexp : s.holdExpired = true := decide_eq_true h
  exact (if_neg (by rw [hexp]; decide)).trans (if_pos ⟨hst, hvalid⟩)

/-- Entry to HOLDOVER: the state, FS 9 raised and its cause standing, and the reference shown as before. -/
theorem State.enterHoldover_shows (s : State) : let t := s.enterHoldover
    t.tbState = tbHoldover ∧ t.bit aTBS_STATE fTBS_STATE_REF_PRESENT = s.bit aTBS_STATE fTBS_STATE_REF_PRESENT ∧
      (∃ isl, Raises 9 isl s t) ∧ t.causeStands 9 = true ∧ KeepsRegs [aTBS_STATE] s t := by
  obtain ⟨u, hu, hcount, ht⟩ : ∃ u : State, u.regs = (s.setFld aTBS_STATE fTBS_STATE_STATE tbHoldover).regs ∧
      u.count = s.count ∧ s.enterHoldover = (u.clearPhase.causeOn 9 0).raise 9 islManagement :=
    ⟨{ s.setFld aTBS_STATE fTBS_STATE_STATE tbHoldover with
      tbs := { s.tbs with holdFrom := some s.count, lockedFrom := none } }, rfl, rfl, rfl⟩
  obtain ⟨hraises, hstands, hdoes⟩ := State.causeOn_raise (s := s) (u := u.clearPhase) hcount 9 0 islManagement
  have hregs : KeepsRegs [] u.clearPhase _ := .of_does hdoes (by decide) _
  have hshown : ∀ f : Fld, f.hi < 9 ∨ 9 < f.lo → ((u.clearPhase.causeOn 9 0).raise 9 islManagement).fld aTBS_STATE f =
      (s.setFld aTBS_STATE fTBS_STATE_STATE tbHoldover).fld aTBS_STATE f := fun f hf =>
    (State.fld_congr f (hregs _ (by simp))).trans ((u.clearPhase_fld hf).trans
      (State.fld_congr f (State.reg_of_regs hu _)))
  rw [ht]
  refine ⟨?_, ?_, hraises, hstands, ?_⟩
  · exact (hshown _ (by decide)).trans (State.fld_setFld_self _ _ _ _ (by decide) (by decide))
  · exact congrArg (· != 0) ((hshown _ (by decide)).trans
      (State.fld_setFld_beside _ _ _ _ _ (by decide) (by decide) (by decide)))
  · exact (((keepsRegs_setReg s _ _).trans (KeepsRegs.of_regs hu _)).trans u.clearPhase_keepsRegs).trans
      (hregs.mono (by simp))

/-! ## Phase steps (R58, R67) -/

/-- The phase error that a phase step leaves: one TBU less. -/
theorem natAbs_step {r : Int} (h : r ≠ 0) : (if 0 < r then r - 1 else r + 1).natAbs + 1 = r.natAbs := by
  split <;> omega

theorem exec_phaseStep_early {l : Count} (hl : s.tbs.lastStep = some l)
    (h : (s.count - l).toNat < 128 * 2 ^ s.fld aTBS_PSLEW fTBS_PSLEW_E) : exec .phaseStep s = .next s := by
  refine if_neg (fun ⟨_, _, hall⟩ => ?_)
  rw [hl, Option.all_some, decide_eq_true_eq] at hall
  omega

/-- The state after a phase step. -/
def State.phaseStepped (s : State) : State :=
  { s with tbs := { s.tbs with
    phaseRem := if 0 < s.tbs.phaseRem then s.tbs.phaseRem - 1 else s.tbs.phaseRem + 1, lastStep := some s.count } }.showSlewing

theorem exec_phaseStep_makes (hrem : s.tbs.phaseRem ≠ 0) (hst : s.tbState = tbAcquire ∨ s.tbState = tbLocked)
    (h : ∀ l, s.tbs.lastStep = some l → 128 * 2 ^ s.fld aTBS_PSLEW fTBS_PSLEW_E ≤ (s.count - l).toNat) :
    exec .phaseStep s = .next s.phaseStepped :=
  if_pos ⟨hrem, hst, (Option.all_eq_true _ _).mpr (fun l hl => decide_eq_true (h l hl))⟩

/-! ## The frequency word (R56) -/

theorem clampInt_bounds {lo hi : Int} (h : lo ≤ hi) (v : Int) : lo ≤ clampInt lo hi v ∧ clampInt lo hi v ≤ hi := by
  unfold clampInt
  split
  · omega
  · split <;> omega

theorem sat32_toInt (v : Int) : (BitVec.ofInt 32 (sat32 v)).toInt = sat32 v := by
  obtain ⟨hlo, hhi⟩ := clampInt_bounds (lo := -2147483648) (hi := 2147483647) (by decide) v
  rw [BitVec.toInt_ofInt]
  exact Int.bmod_eq_of_le hlo (Int.lt_add_one_of_le hhi)

/-- A word moved by at most `rate` toward a target, and saturated, moves by at most `rate`. -/
theorem sat32_move (w : Word) (rate : Nat) (d : Int) :
    (sat32 (w.toInt + clampInt (-rate) rate d) - w.toInt).natAbs ≤ rate := by
  have hlo := BitVec.le_toInt w
  have hhi := BitVec.toInt_lt (x := w)
  obtain ⟨hdown, hup⟩ := clampInt_bounds (lo := -rate) (hi := rate) (by omega) d
  generalize clampInt (-rate) rate d = move at hdown hup ⊢
  unfold sat32 clampInt
  split
  · omega
  · split <;> omega

/-- Once a second TBS_FREQ moves, by no more than TBS_FSLEW. -/
theorem State.slewFreq_moves (s : State) : let t := s.slewFreq
    ((t.reg aTBS_FREQ).toInt - (s.reg aTBS_FREQ).toInt).natAbs ≤ s.fld aTBS_FSLEW fTBS_FSLEW_RATE ∧
      t.tbs.lastSlew = some s.count ∧ KeepsRegs [aTBS_STATE, aTBS_FREQ] s t := by
  have haim : ∀ a, s.freqAim.reg a = s.reg a := fun a => State.freqAim_does.regs (by decide) a (by simp)
  have hreg : s.slewFreq.reg aTBS_FREQ = BitVec.ofInt 32 (sat32 ((s.freqAim.reg aTBS_FREQ).toInt +
      clampInt (-(s.freqAim.fld aTBS_FSLEW fTBS_FSLEW_RATE)) (s.freqAim.fld aTBS_FSLEW fTBS_FSLEW_RATE)
        (s.freqAim.tbs.freqTarget / 86400 - (s.freqAim.reg aTBS_FREQ).toInt))) :=
    (State.showSlewing_keepsRegs _ _ (by decide)).trans (State.reg_setReg_self _ _ _)
  refine ⟨?_, rfl, ?_⟩
  · rw [hreg, sat32_toInt, haim, State.fld_congr _ (haim aTBS_FSLEW)]
    exact sat32_move _ _ _
  · have hset : KeepsRegs [aTBS_STATE, aTBS_FREQ] s s.freqAim := fun a _ => haim a
    exact (hset.setReg (a := aTBS_FREQ) (by simp) _).trans ((State.showSlewing_keepsRegs _).mono (by simp))

theorem exec_freqSlew_due (h : ∀ l, s.tbs.lastSlew = some l → 192000000000 ≤ (s.count - l).toNat) :
    exec .freqSlew s = .next s.slewFreq := by
  have hdue : s.slewDue = true := (Option.all_eq_true _ _).mpr (fun l hl => decide_eq_true (h l hl))
  exact congrArg Host.Outcome.next (if_pos hdue)

theorem exec_freqSlew_early {l : Count} (hl : s.tbs.lastSlew = some l) (h : (s.count - l).toNat < 192000000000) :
    exec .freqSlew s = .next s := by
  have hdue : s.slewDue = false := by
    unfold State.slewDue
    rw [hl]
    exact decide_eq_false (Nat.not_le.mpr h)
  exact congrArg Host.Outcome.next (if_neg (by rw [hdue]; decide))

/-! ## Ageing (R55) -/

theorem exec_ageingLearned_due {l : Count} (hst : s.tbState = tbLocked) (hl : s.tbs.lockedFrom = some l)
    (h : 259200 * 192000000000 ≤ (s.count - l).toNat) : exec .ageingLearned s =
      .next (({ s with free := s.free + 1 }).setReg aTBS_AGE (BitVec.ofNat 32 (Config.freeValue s.free))) := by
  have hlearned : s.learned = true := by
    unfold State.learned
    rw [hst, hl]
    exact decide_eq_true h
  exact if_pos hlearned

/-! ## The oven and the reference (R68) -/

/-- The oven is out of regulation, and OVEN_READY shows it. -/
def State.ovenOut (s : State) : State :=
  { s with power := { s.power with oven := false } }.setBit aTBS_STATE fTBS_STATE_OVEN_READY false

/-- The PLL has lost its reference. -/
def State.refOut (s : State) : State := { s with tbs := { s.tbs with refLost := true } }

theorem State.causeAt_causeOff_of {fs i : Nat} (h : s.causeAt fs i = false) (fs' j : Nat) :
    (s.causeOff fs' j).causeAt fs i = false := by
  unfold State.causeAt at h ⊢
  rw [List.any_eq_false] at h ⊢
  exact fun c hc => h c (List.mem_filter.mp hc).1

/-! ## O5 -/

/-- Settles O5: holdover by `State.enterHoldover_shows`, faults of a standing cause by `State.causeOn_raise`, a phase step by
`natAbs_step`, the slew by `State.slewFreq_moves`. -/
theorem timeBaseFaults : Obligations.TimeBaseFaults := by
  unfold Obligations.TimeBaseFaults
  refine ⟨fun s => ⟨fun hst hvalid hexp => ⟨_, exec_holdTimeout_enters hexp hst hvalid, ?holdover⟩,
    fun hearly => ⟨_, exec_holdTimeout_early hearly, rfl⟩, ⟨_, rfl, ?oven⟩,
    fun hst => ⟨_, if_pos hst, ?reference⟩, ⟨_, rfl, ?ready⟩⟩, fun s => ⟨fun hrem hst hdue =>
      ⟨_, exec_phaseStep_makes hrem hst hdue, ?steps⟩, fun l hl hearly => ⟨_, exec_phaseStep_early hl hearly, rfl⟩,
      fun hdue => ⟨_, exec_freqSlew_due hdue, ?slews⟩, fun l hl hearly => ⟨_, exec_freqSlew_early hl hearly, rfl⟩,
      fun l hst hl hold => ⟨_, exec_ageingLearned_due hst hl hold, ?learns⟩⟩⟩
  case holdover =>
    obtain ⟨hstate, hpresent, hraises, hstands, hkeeps⟩ :=
      (s.setBit aTBS_STATE fTBS_STATE_REF_PRESENT false).enterHoldover_shows
    have hdoes : Does [.agenda, .causes, .tbs] [1] s (s.setBit aTBS_STATE fTBS_STATE_REF_PRESENT false).enterHoldover :=
      State.enterHoldover_does.call (by decide) (Does.setBit adr_TBS_STATE (by decide) Does.refl)
    exact ⟨hstate, hpresent.trans (State.bit_setBit_self _ _ _ _ rfl (by decide)), hraises, hstands,
      hdoes.same .count (by decide) (by decide), (keepsRegs_setReg _ _ _).trans hkeeps, .of_does hdoes (by decide)⟩
  case oven =>
    obtain ⟨hraises, hstands, hdoes⟩ := State.causeOn_raise (s := s) (u := s.ovenOut) rfl 11 0 islManagement
    have hmem := KeepsMemory.of_does hdoes (by decide)
    refine ⟨?_, hraises, hstands, (keepsRegs_setReg s _ _).trans (.of_does hdoes (by decide) _), hmem⟩
    exact (State.bit_congr _ (hdoes.regs (by decide) _ (by simp))).trans (State.bit_setBit_self _ _ _ _ rfl (by decide))
  case reference =>
    obtain ⟨hraises, hstands, hdoes⟩ := State.causeOn_raise (s := s) (u := s.refOut) rfl 11 1 islManagement
    have hmem := KeepsMemory.of_does hdoes (by decide)
    have hkeeps := KeepsRegs.of_does hdoes (by decide) []
    exact ⟨congrArg Tbs.refLost (hdoes.same .tbs (by decide) (by decide)), hraises, hstands, hkeeps, hmem⟩
  case ready =>
    exact ⟨State.bit_latch_self _ _ _ rfl (by decide), rfl,
      State.causeAt_causeOff_of (State.causeAt_causeOff _ _ _) _ _, State.causeAt_causeOff _ _ _, keepsRegs_setReg s _ _,
      KeepsMemory.of_fields rfl rfl rfl⟩
  case steps =>
    exact ⟨natAbs_step hrem, rfl, rfl, State.showSlewing_fld _ (by decide), State.showSlewing_keepsRegs _,
      KeepsMemory.of_fields rfl rfl rfl⟩
  case slews =>
    obtain ⟨hmoves, hlast, hkeeps⟩ := s.slewFreq_moves
    exact ⟨hmoves, State.slewFreq_does.same .count (by decide) (by decide), hlast, hkeeps,
      .of_does State.slewFreq_does (by decide)⟩
  case learns =>
    exact ⟨State.reg_setReg_self _ _ _, rfl, keepsRegs_setReg s aTBS_AGE _, .of_fields rfl rfl rfl⟩

end Sys2Proof.Machine
end

section
/-! Driver enables (O6): the conditions of R106, an enable that waits, and a disable at once. -/
namespace Sys2Proof.Machine

variable {s : State}

/-- An enable is refused without TIME_VALID, with the island disabled, with its DLL unlocked, with SAFE_N low, or in HOLDOFF. -/
theorem State.mayEnable_of_lacks {ch : Nat} (h : s.bit aTBS_STATE fTBS_STATE_TIME_VALID = false ∨
    s.blkOn (64 + islOf ch) = false ∨ s.bit (aISL_STAT (islOf ch)) fISL_STAT_DLL_LOCK = false ∨
    s.power.safeN = false ∨ s.twin = twHoldoff) : s.mayEnable ch = false := by
  rw [Bool.eq_false_iff]
  intro hmay
  unfold State.mayEnable at hmay
  simp only [Bool.and_eq_true, bne_iff_ne] at hmay
  obtain ⟨⟨⟨⟨⟨⟨hvalid, hon⟩, hlock⟩, hsafe⟩, _⟩, _⟩, htwin⟩ := hmay
  obtain h | h | h | h | h := h
  · exact absurd hvalid (by rw [h]; decide)
  · exact absurd hon (by rw [h]; decide)
  · exact absurd hlock (by rw [h]; decide)
  · exact absurd hsafe (by rw [h]; decide)
  · exact htwin h

theorem exec_drvEnWrite_enables {by_ : Issuer} {ch : Chan} (hmay : s.mayEnable ch.val = true) (hoff : s.drvEn ch.val = false) :
    exec (.drvEnWrite by_ ch true) s =
      .next ((s.latch (aCH_CTL (islOf ch.val) (locOf ch.val)) fCH_CTL_DRV_EN).setChan ch.val
        { s.chan ch.val with enableDue := some s.at }) :=
  (if_pos hmay).trans (congrArg Host.Outcome.next (if_neg (by rw [hoff]; decide)))

theorem exec_drvEnWrite_refused {by_ : Issuer} {ch : Chan} (hmay : s.mayEnable ch.val = false) :
    exec (.drvEnWrite by_ ch true) s = .next (s.rejectVal by_ (aCH_CTL (islOf ch.val) (locOf ch.val))) :=
  if_neg (c := s.mayEnable ch.val = true) (by rw [hmay]; decide)

/-- A refused write to a channel shows in the header of its island. -/
theorem rejBlock_chCtl (isl : Isl) (c : Nat) : rejBlock (aCH_CTL isl.val c) = 64 + isl.val := by
  have hblk : aCH_CTL isl.val c / 0x100000 = 64 + isl.val := by unfold aCH_CTL; omega
  rw [rejBlock_of_exists (by rw [hblk]; exact blockExists_isl (by omega) (by omega)), hblk]

/-- A channel with its drivers disabled has every output pin but CSL at its safe level. -/
theorem State.pinHeld_of_off {n c k : Nat} (hoff : s.drvEn (chanOf n c) = false) (hk : k < 6) (hc : c < 4) :
    s.pinHeld n (6 * c + k) = true := by
  have hpin : (6 * c + k) / 6 = c := by omega
  have hcsl : 6 * c + k ≠ 25 := by omega
  have hstill : s.pinStill n (6 * c + k) = true := by
    unfold State.pinStill
    simp [hpin, hoff, hcsl]
  unfold State.pinHeld
  rw [hstill, Bool.true_or]

/-- A disable forces the channel's pins, clears DRV_EN and DRV_ON, and leaves a channel in which nothing has begun or waits. -/
theorem State.driversOff_eq (s : State) (ch : Nat) : ∃ x : ChanDrv, x.since = none ∧ x.enableDue = none ∧ s.driversOff ch =
    (((s.forcePins ch true s.count).setBit (aCH_CTL (islOf ch) (locOf ch)) fCH_CTL_DRV_EN false).setBit
      (aCH_STAT (islOf ch) (locOf ch)) fCH_STAT_DRV_ON false).setChan ch x := ⟨_, rfl, rfl, rfl⟩

/-- What a disable shows, whichever its registers are. -/
theorem State.disabled_shows {u : State} {ctl stat ch : Nat} (hne : ctl ≠ stat) (h : KeepsRegs [ctl, stat] s u) (x : ChanDrv) :
    let t := ((u.setBit ctl fCH_CTL_DRV_EN false).setBit stat fCH_STAT_DRV_ON false).setChan ch x
    t.bit ctl fCH_CTL_DRV_EN = false ∧ t.bit stat fCH_STAT_DRV_ON = false ∧ t.chan ch = x ∧ KeepsRegs [ctl, stat] s t :=
  ⟨(State.bit_congr _ (State.reg_setReg_ne _ _ hne)).trans (State.bit_setBit_self _ _ _ _ rfl (by decide)),
    State.bit_setBit_self _ _ _ _ rfl (by decide), (State.setChan_chan ..).trans (if_pos rfl),
    (h.setBit (a := ctl) (by simp) _ _).setBit (a := stat) (by simp) _ _⟩

/-- The channel after a disable: DRV_EN and DRV_ON read 0, nothing has begun and nothing waits. -/
theorem State.driversOff_shows (s : State) (ch : Nat) : let t := s.driversOff ch
    t.drvEn ch = false ∧ t.bit (aCH_STAT (islOf ch) (locOf ch)) fCH_STAT_DRV_ON = false ∧ (t.chan ch).since = none ∧
      (t.chan ch).enableDue = none ∧ KeepsRegs [aCH_CTL (islOf ch) (locOf ch), aCH_STAT (islOf ch) (locOf ch)] s t := by
  have hne : aCH_CTL (islOf ch) (locOf ch) ≠ aCH_STAT (islOf ch) (locOf ch) := by unfold aCH_CTL aCH_STAT; omega
  have hforce : KeepsRegs [aCH_CTL (islOf ch) (locOf ch), aCH_STAT (islOf ch) (locOf ch)] s (s.forcePins ch true s.count) :=
    .of_does State.forcePins_does (by decide) _
  obtain ⟨x, hsince, hdue, ht⟩ := s.driversOff_eq ch
  obtain ⟨hen, hon, hchan, hkeeps⟩ := State.disabled_shows (ch := ch) hne hforce x
  rw [← ht] at hen hon hchan hkeeps
  exact ⟨hen, hon, by rw [hchan, hsince], by rw [hchan, hdue], hkeeps⟩

/-- Settles O6: an enable that every condition allows waits, any other is a refused write, and a disable is
`State.driversOff_shows`. -/
theorem driverEnables : Obligations.DriverEnables := by
  unfold Obligations.DriverEnables
  intro by_ ch s
  refine ⟨fun hmay hoff => ⟨_, exec_drvEnWrite_enables hmay hoff, ?enables⟩,
    fun hmay => ⟨_, exec_drvEnWrite_refused hmay, ?refused⟩, State.mayEnable_of_lacks, ⟨_, rfl, ?disables⟩⟩
  case enables =>
    refine ⟨State.bit_latch_self _ _ _ rfl (by decide), ?_, keepsRegs_setReg _ _ _, .of_fields rfl rfl rfl⟩
    rw [State.setChan_chan, if_pos rfl]
  case refused =>
    have hisl : islOf ch.val < 64 := Nat.div_lt_of_lt_mul ch.isLt
    have hrej : rejBlock (aCH_CTL (islOf ch.val) (locOf ch.val)) = 64 + islOf ch.val := rejBlock_chCtl ⟨_, hisl⟩ _
    have hsets := s.reject_sets by_ (k := .val) (aCH_CTL (islOf ch.val) (locOf ch.val)) (i := 2) rfl
    have hkeeps := s.reject_keepsRegs by_ .val (aCH_CTL (islOf ch.val) (locOf ch.val))
    rw [hrej] at hsets hkeeps
    refine ⟨State.bit_congr _ (hkeeps _ ?_), hsets, s.reject_raises by_ _ (by decide),
      State.rejectVal_any.same .chans (by decide) (by decide), s.reject_keepsMemory by_ _ _⟩
    simp only [List.mem_cons, List.not_mem_nil, or_false, not_or, aCH_CTL]
    omega
  case disables =>
    obtain ⟨hoff, hon, hsince, hdue, hkeeps⟩ := s.driversOff_shows ch.val
    have hch : chanOf (islOf ch.val) (locOf ch.val) = ch.val := by unfold chanOf islOf locOf; omega
    exact ⟨hoff, hon, hsince, hdue, fun k => State.pinHeld_of_off (by rw [hch]; exact hoff) k.isLt (by unfold locOf; omega),
      hkeeps, .of_does State.driversOff_does (by decide)⟩

end Sys2Proof.Machine
end

section
/-! Periods and period starts of a channel (O7): a period write that waits, one refused, and the start that it takes effect at. -/
namespace Sys2Proof.Machine

variable {s t u : State}

/-! ## What leaves periods alone -/

/-- CH_PERIOD, the anchor and the period write that waits read as before, of every channel. -/
structure KeepsPeriods (s t : State) : Prop where
  period : ∀ n c, t.reg (aCH_PERIOD n c) = s.reg (aCH_PERIOD n c)
  anchor : ∀ ch, (t.chan ch).anchor = (s.chan ch).anchor
  waits : ∀ ch, (t.chan ch).newPeriod = (s.chan ch).newPeriod

theorem KeepsPeriods.refl (s : State) : KeepsPeriods s s := ⟨fun _ _ => rfl, fun _ => rfl, fun _ => rfl⟩

theorem KeepsPeriods.trans (h : KeepsPeriods s t) (g : KeepsPeriods t u) : KeepsPeriods s u where
  period n c := (g.period n c).trans (h.period n c)
  anchor ch := (g.anchor ch).trans (h.anchor ch)
  waits ch := (g.waits ch).trans (h.waits ch)

/-- What writes neither registers of islands nor the channels' drive state. -/
theorem KeepsPeriods.of_does {ps : List Part} {bs : List Nat} (h : Does ps bs s t)
    (hps : .regs ∉ ps ∧ .chans ∉ ps ∧ 64 ∉ bs) : KeepsPeriods s t := by
  have hchan : ∀ ch, t.chan ch = s.chan ch := fun ch => by
    unfold State.chan
    rw [show t.chans = s.chans from h.same .chans hps.2.1 (by decide)]
  exact ⟨fun n c => h.regs hps.1 _ (by rw [adr_CH_PERIOD.here]; exact hps.2.2), fun ch => by rw [hchan],
    fun ch => by rw [hchan]⟩

theorem KeepsPeriods.setReg (h : KeepsPeriods s t) {a : Nat} (ha : ∀ n c, aCH_PERIOD n c ≠ a) (v : Word) :
    KeepsPeriods s (t.setReg a v) :=
  ⟨fun n c => (State.reg_setReg_ne _ _ (ha n c)).trans (h.period n c), h.anchor, h.waits⟩

theorem KeepsPeriods.setBit (h : KeepsPeriods s t) {a : Nat} (ha : ∀ n c, aCH_PERIOD n c ≠ a) (f : Fld) (b : Bool) :
    KeepsPeriods s (t.setBit a f b) := h.setReg ha _

theorem KeepsPeriods.latch (h : KeepsPeriods s t) {a : Nat} (ha : ∀ n c, aCH_PERIOD n c ≠ a) (f : Fld) :
    KeepsPeriods s (t.latch a f) := (h.setReg ha _).trans (.of_does State.mark_does (by decide))

theorem KeepsPeriods.bump (h : KeepsPeriods s t) {a : Nat} (ha : ∀ n c, aCH_PERIOD n c ≠ a) : KeepsPeriods s (t.bump a) :=
  (h.setReg ha _).trans (.of_does State.mark_does (by decide))

theorem KeepsPeriods.setChan (h : KeepsPeriods s t) {ch : Nat} {x : ChanDrv} (hanchor : x.anchor = (t.chan ch).anchor)
    (hwaits : x.newPeriod = (t.chan ch).newPeriod) : KeepsPeriods s (t.setChan ch x) where
  period := h.period
  anchor k := by
    rw [State.setChan_chan, ← h.anchor]
    split
    · subst k; exact hanchor
    · rfl
  waits k := by
    rw [State.setChan_chan, ← h.waits]
    split
    · subst k; exact hwaits
    · rfl

theorem KeepsPeriods.ite {c : Prop} [Decidable c] (h : c → KeepsPeriods s t) (g : ¬ c → KeepsPeriods s u) :
    KeepsPeriods s (if c then t else u) := by
  split
  · exact h ‹_›
  · exact g ‹_›

theorem KeepsPeriods.foldl {α : Type} {f : State → α → State} (hf : ∀ t x, KeepsPeriods t (f t x)) (l : List α)
    (h : KeepsPeriods s t) : KeepsPeriods s (l.foldl f t) :=
  List.foldlRecOn (motive := KeepsPeriods s) _ _ h (fun u hu x _ => hu.trans (hf u x))

/-- CH_PERIOD lies at offset 8 of a channel's 40h bytes. -/
theorem aCH_PERIOD_ne {a : Nat} (h : a % 0x40 ≠ 8 ∨ a % 0x100000 < 0x100 ∨ 0x200 ≤ a % 0x100000) (n c : Nat) :
    aCH_PERIOD n c ≠ a := by
  unfold aCH_PERIOD; omega

/-! ## The operations of a period start -/

theorem State.setInh_keepsPeriods (s : State) (ch : Nat) (on : Bool) : KeepsPeriods s (s.setInh ch on) := by
  have hstat : ∀ n c, aCH_PERIOD n c ≠ aCH_STAT (islOf ch) (locOf ch) := aCH_PERIOD_ne (by unfold aCH_STAT; omega)
  have hisl : ∀ n c, aCH_PERIOD n c ≠ aISL_STAT (islOf ch) := aCH_PERIOD_ne (by unfold aISL_STAT; omega)
  have hchan : KeepsPeriods s (s.setChan ch { s.chan ch with inhibited := on }) := (KeepsPeriods.refl s).setChan rfl rfl
  exact (hchan.setBit hstat _ _).setBit hisl _ _

theorem State.showInh_keepsPeriods (s : State) (ch : Nat) : KeepsPeriods s (s.showInh ch) := by
  have hlatch : ∀ (t : State) (c : Bool) (f : Fld),
      KeepsPeriods t (if c then t.latch (aCH_INH (islOf ch) (locOf ch)) f else t) := fun t c f =>
    .ite (fun _ => (KeepsPeriods.refl t).latch (aCH_PERIOD_ne (by unfold aCH_INH; omega)) _) (fun _ => .refl t)
  exact ((hlatch s _ _).trans (hlatch _ _ _)).trans (State.setInh_keepsPeriods ..)

theorem State.settleInh_keepsPeriods (s : State) (ch : Nat) : KeepsPeriods s (s.settleInh ch) :=
  .foldl (fun t k => t.showInh_keepsPeriods k) _ (.refl s)

theorem State.deliver_keepsPeriods (s : State) (ch : Nat) (due : Count) (goff : Bool) (set : List Word) :
    KeepsPeriods s (s.deliver ch due goff set) := by
  unfold State.deliver
  extract_lets n x d slot put s1
  have hedge : ∀ (t : State) p ws, KeepsPeriods t ((List.range 4).foldl
      (fun t e => t.setReg (aEDGE n p slot e) (List.getD ws e 0)) t) := fun t p ws =>
    .foldl (fun t e => (KeepsPeriods.refl t).setReg (aCH_PERIOD_ne (by unfold aEDGE; omega)) _) _ (.refl t)
  have h1 : KeepsPeriods s s1 := .foldl (fun t p => .ite (fun _ => hedge t p _) (fun _ => .refl t)) _ (.refl s)
  exact h1.setChan rfl rfl

theorem State.takeEdges_keepsPeriods (s : State) (ch : Nat) (now : Count) : KeepsPeriods s (s.takeEdges ch now) := by
  unfold State.takeEdges
  extract_lets here
  refine .foldl (fun t d => ?_) _ ⟨fun _ _ => rfl, fun _ => rfl, fun _ => rfl⟩
  split
  · exact t.deliver_keepsPeriods ..
  · exact .refl t

theorem State.monChange_keepsPeriods (s : State) (n m : Nat) (latch uns : Bool) (at_ : Count) :
    KeepsPeriods s (s.monChange n m latch uns at_) := by
  unfold State.monChange
  extract_lets -underBinder -merge -useContext was wasU s1 s1' s2 s3
  have hlat : ∀ k c, aCH_PERIOD k c ≠ aMON_LAT n := aCH_PERIOD_ne (by unfold aMON_LAT; omega)
  have huns : ∀ k c, aCH_PERIOD k c ≠ aMON_UNS n := aCH_PERIOD_ne (by unfold aMON_UNS; omega)
  have hstat : ∀ k c, aCH_PERIOD k c ≠ aMON_STAT n m := aCH_PERIOD_ne (by unfold aMON_STAT; omega)
  have h1 : KeepsPeriods s s1 := .of_does State.monNote_does (by decide)
  have h1' : KeepsPeriods s s1' := .ite (fun _ => h1.trans (.of_does State.mark_does (by decide))) (fun _ => h1)
  have h2 : KeepsPeriods s s2 :=
    (((h1'.setReg hlat _).setReg huns _).setReg hstat _).trans (.of_does State.settled41_does (by decide))
  have h3 : KeepsPeriods s s3 := .ite (fun _ => h2.trans (.of_does State.shipItem_does (by decide))) (fun _ => h2)
  exact .ite (fun _ => .refl s) (fun _ => .ite (fun _ => h3.trans (.of_does State.causeOff_does (by decide))) (fun _ => h3))

theorem State.clearPs_keepsPeriods (s : State) (ch : Nat) : KeepsPeriods s (s.clearPs ch) :=
  .foldl (fun t _ => .ite (fun _ => t.monChange_keepsPeriods ..) (fun _ => .refl t)) _ (.refl s)

theorem State.takeEnable_keepsPeriods (s : State) (ch : Nat) (start : Count) : KeepsPeriods s (s.takeEnable ch start) := by
  have hstat : ∀ n c, aCH_PERIOD n c ≠ aCH_STAT (islOf ch) (locOf ch) := aCH_PERIOD_ne (by unfold aCH_STAT; omega)
  have hon := (KeepsPeriods.refl s).latch hstat fCH_STAT_DRV_ON
  unfold State.takeEnable
  extract_lets n x kept s1
  have h1 : KeepsPeriods s s1 := hon.setChan rfl rfl
  exact .foldl (fun t _ => .ite (fun _ => .of_does State.setLevel_does (by decide)) (fun _ => .refl t)) _ h1

theorem State.judgeLate_keepsPeriods (s : State) (ch : Nat) (start : Count) : KeepsPeriods s (s.judgeLate ch start) := by
  have hlate : ∀ n c, aCH_PERIOD n c ≠ aCH_LATE (islOf ch) (locOf ch) := aCH_PERIOD_ne (by unfold aCH_LATE; omega)
  have hbump := (KeepsPeriods.refl s).bump hlate
  unfold State.judgeLate
  extract_lets eng
  exact .ite (fun _ => hbump.trans (.of_does State.lateInternal_does (by decide))) (fun _ => .refl s)

theorem State.latchSet_keepsPeriods (s : State) (n p : Nat) (start : Count) (set : List Word) (slot period : Nat)
    (release off : Bool) : KeepsPeriods s (s.latchSet n p start set slot period release off) := by
  unfold State.latchSet
  extract_lets -underBinder -merge -useContext ch s0 dt c fault c1 tr d d1 s0' s1 s2
  have herej : ∀ k i, aCH_PERIOD k i ≠ aISL_EREJ n := aCH_PERIOD_ne (by unfold aISL_EREJ; omega)
  have hlat : ∀ k i, aCH_PERIOD k i ≠ aISL_LAT n := aCH_PERIOD_ne (by unfold aISL_LAT; omega)
  have h0 : KeepsPeriods s s0 := .ite (fun _ => .of_does State.goffPins_does (by decide)) (fun _ => .refl s)
  have h0' : KeepsPeriods s s0' := .ite (fun _ => h0.trans (.of_does State.freeSlave_does (by decide))) (fun _ => h0)
  have hset : ∀ x, KeepsPeriods s (s0'.setPin n p x) := fun x => h0'.trans (.of_does State.setPin_does (by decide))
  have h2 : KeepsPeriods s s2 := (hset d1).setReg herej _
  exact .ite (fun _ => hset _) (fun _ => (h2.latch hlat _).trans (.of_does State.raise_does (by decide)))

/-- A period start leaves periods alone, and is the channel's start from then on. -/
theorem State.startPeriod_starts (s : State) (ch : Nat) (start : Count) : let t := s.startPeriod ch start
    KeepsPeriods s t ∧ (t.chan ch).start = some start := by
  intro t
  unfold t State.startPeriod
  extract_lets -underBinder -merge -useContext n c x taking release s1 s2 src on nw goff release' tbl len play s3 slot s4
  have hplay : ∀ u p, KeepsPeriods u (play u p) := fun u p => by
    refine .ite (fun _ => .ite (fun _ => ?_) (fun _ => .ite (fun _ => .ite (fun _ => ?_) (fun _ => .refl u))
      (fun _ => ?_))) (fun _ => .refl u)
    · clear_value nw
      cases nw <;> exact u.latchSet_keepsPeriods ..
    · exact u.latchSet_keepsPeriods ..
    · exact u.latchSet_keepsPeriods ..
  have h1 : KeepsPeriods s s1 := .ite (fun _ => s.takeEnable_keepsPeriods ch start) (fun _ => .refl s)
  have h3 : KeepsPeriods s s3 := .foldl hplay _ (h1.trans (s1.judgeLate_keepsPeriods ch start))
  have h4 : KeepsPeriods s s4 :=
    (h3.setReg (aCH_PERIOD_ne (by unfold aCH_STAT; omega)) _).trans (State.setInh_keepsPeriods ..)
  exact ⟨h4.setChan rfl rfl, by rw [State.setChan_chan, if_pos rfl]⟩

/-! ## The period write that waits -/

/-- A period write that is due by a start sets CH_PERIOD and anchors the grid there. -/
theorem State.takePeriod_takes {ch : Nat} {start d : Count} {p : BitVec 28} (hwaits : (s.chan ch).newPeriod = some (d, p))
    (hdue : Count.upto d start = true) : let t := s.takePeriod ch start
    t.fld (aCH_PERIOD (islOf ch) (locOf ch)) fCH_PERIOD_PERIOD = p.toNat ∧ (t.chan ch).anchor = some start ∧
      (t.chan ch).newPeriod = none := by
  intro t
  have ht : t = (s.setFld (aCH_PERIOD (islOf ch) (locOf ch)) fCH_PERIOD_PERIOD p.toNat).setChan ch
      { s.chan ch with newPeriod := none, anchor := some start } := by
    unfold t State.takePeriod
    rw [hwaits]
    exact if_pos hdue
  rw [ht, State.setChan_chan, if_pos rfl]
  refine ⟨(State.fld_setFld_self s _ _ _ (by decide) (by decide)).trans ?_, rfl, rfl⟩
  exact Nat.mod_eq_of_lt p.isLt

/-- What a waiting period write shows is left alone by the rest of the period start. -/
theorem State.periodAt_takes {ch : Nat} {start d : Count} {p : BitVec 28} (hwaits : (s.chan ch).newPeriod = some (d, p))
    (hdue : Count.upto d start = true) : let t := s.periodAt ch start
    t.fld (aCH_PERIOD (islOf ch) (locOf ch)) fCH_PERIOD_PERIOD = p.toNat ∧ (t.chan ch).anchor = some start ∧
      (t.chan ch).newPeriod = none := by
  have hedges := (s.takeEdges_keepsPeriods ch start).trans (State.takeEdges_keepsPeriods _ (s.leader ch) start)
  obtain ⟨hperiod, hanchor, hnone⟩ := State.takePeriod_takes ((hedges.waits ch).trans hwaits) hdue
  generalize hu : ((s.takeEdges ch start).takeEdges (s.leader ch) start).takePeriod ch start = u at hperiod hanchor hnone
  have hrest : KeepsPeriods u (s.periodAt ch start) := by
    unfold State.periodAt
    rw [hu]
    exact ((u.clearPs_keepsPeriods ch).trans (State.settleInh_keepsPeriods _ ch)).trans (State.startPeriod_starts _ ch start).1
  exact ⟨(State.fld_congr _ (hrest.period _ _)).trans hperiod, (hrest.anchor ch).trans hanchor, (hrest.waits ch).trans hnone⟩

/-! ## The commands -/

theorem exec_chPeriodWrite_waits {by_ : Issuer} {ch : Chan} {period : BitVec 28} (hlow : 48000 ≤ period.toNat)
    (hmin : s.minPeriod ch.val ≤ period.toNat) (hfixed : s.fixedMode ch.val = true → period.toNat = s.minPeriod ch.val) :
    exec (.chPeriodWrite by_ ch period) s =
      .next (s.setChan ch.val { s.chan ch.val with newPeriod := some (s.at, period) }) :=
  if_neg (by
    rintro (h | h | ⟨hmode, hne⟩)
    · omega
    · omega
    · exact hne (hfixed hmode))

theorem exec_chPeriodWrite_refused {by_ : Issuer} {ch : Chan} {period : BitVec 28}
    (h : period.toNat < 48000 ∨ period.toNat < s.minPeriod ch.val) :
    exec (.chPeriodWrite by_ ch period) s = .next (s.rejectVal by_ (aCH_PERIOD (islOf ch.val) (locOf ch.val))) :=
  if_pos (h.imp_right .inl)

theorem exec_periodStart_starts {ch : Chan} (h : s.startsNow ch.val = true) :
    exec (.periodStart ch) s = .next (s.periodAt ch.val (s.periodFrom ch.val s.count)) :=
  congrArg Host.Outcome.next (if_pos h)

theorem exec_periodStart_idle {ch : Chan} (h : s.startsNow ch.val = false) : exec (.periodStart ch) s = .next s :=
  congrArg Host.Outcome.next (if_neg (by rw [h]; decide))

/-- A refused write to a channel's period shows in the header of its island. -/
theorem rejBlock_chPeriod (isl : Isl) (c : Nat) : rejBlock (aCH_PERIOD isl.val c) = 64 + isl.val := by
  have hblk : aCH_PERIOD isl.val c / 0x100000 = 64 + isl.val := by unfold aCH_PERIOD; omega
  rw [rejBlock_of_exists (by rw [hblk]; exact blockExists_isl (by omega) (by omega)), hblk]

/-- Settles O7: a write waits or is refused as its conditions say, a start is `State.startPeriod_starts`, and the write that it
takes is `State.periodAt_takes`. -/
theorem channelPeriods : Obligations.ChannelPeriods := by
  unfold Obligations.ChannelPeriods
  intro by_ ch period s
  refine ⟨fun hlow hmin hfixed => ⟨_, exec_chPeriodWrite_waits hlow hmin hfixed, ?waits⟩,
    fun hbad => ⟨_, exec_chPeriodWrite_refused hbad, ?refused⟩, fun hnow => ⟨_, exec_periodStart_starts hnow, ?starts⟩,
    fun d p hnow hwaits hdue => ⟨_, exec_periodStart_starts hnow, State.periodAt_takes hwaits hdue⟩,
    fun hnone => ⟨_, exec_periodStart_idle hnone, rfl⟩⟩
  case waits =>
    exact ⟨by rw [State.setChan_chan, if_pos rfl], .of_does State.setChan_does (by decide) _,
      .of_does State.setChan_does (by decide)⟩
  case refused =>
    have hisl : islOf ch.val < 64 := Nat.div_lt_of_lt_mul ch.isLt
    have hsets := s.reject_sets by_ (k := .val) (aCH_PERIOD (islOf ch.val) (locOf ch.val)) (i := 2) rfl
    rw [rejBlock_chPeriod ⟨_, hisl⟩] at hsets
    exact ⟨State.rejectVal_any.same .chans (by decide) (by decide), hsets, s.reject_raises by_ _ (by decide),
      s.reject_keepsMemory by_ _ _⟩
  case starts =>
    exact ⟨(State.startPeriod_starts _ _ _).2, State.periodAt_does.same .count (by decide) (by decide),
      .of_does State.periodAt_does (by decide)⟩

end Sys2Proof.Machine
end

section
/-! Codes on CSL, and SAFE_N (O8): a code that starts, collides and ends, and what SAFE_N's fall and its return do to every
island. -/
namespace Sys2Proof.Machine

variable {s t u : State}

/-! ## General rules -/

theorem State.reg_latch_ne (s : State) {a b : Nat} (f : Fld) (h : b ≠ a) : (s.latch a f).reg b = s.reg b :=
  State.reg_setReg_ne _ _ h

/-- A raise in a state of the same cycle. -/
theorem raises_of_count (h : t.count = s.count) (fs : Fin 128) (isl : Fin 80) : Raises fs isl s (t.raise fs isl) := by
  have hraise := raises_raise t fs isl
  unfold Raises at hraise ⊢
  rwa [h] at hraise

theorem KeepsMemory.trans (h : KeepsMemory s t) (g : KeepsMemory t u) : KeepsMemory s u := fun a =>
  have ⟨hsram, hhbm, hspill⟩ := h a
  have ⟨gsram, ghbm, gspill⟩ := g a
  ⟨gsram.trans hsram, ghbm.trans hhbm, gspill.trans hspill⟩

/-- What one step of a fold brings about, where an invariant of the steps before it holds, and every step keeps, holds at the
fold's end. -/
theorem foldl_of_mem {α β : Type} {f : β → α → β} {P Q : β → Prop} {l : List α} {x : α} {b : β} (hx : x ∈ l) (hb : Q b)
    (hinv : ∀ b a, Q b → Q (f b a)) (hset : ∀ b, Q b → P (f b x)) (hkeep : ∀ b a, P b → P (f b a)) : P (l.foldl f b) := by
  obtain ⟨pre, post, rfl⟩ := List.append_of_mem hx
  rw [List.foldl_append, List.foldl_cons]
  have hpre : Q (pre.foldl f b) := List.foldlRecOn pre f hb (fun b hQ a _ => hinv b a hQ)
  exact List.foldlRecOn post f (hset _ hpre) (fun b hP a _ => hkeep b a hP)

/-! ## Codes on CSL (R98, R99) -/

/-- The code of a START: from the first cycle at or after its due time, for LEN × DIV cycles. -/
def State.codeOf (s : State) (n len : Nat) (bits : BitVec 64) : Code :=
  let div := s.fld (aPAT_CFG n) fPAT_CFG_DIV
  ⟨Count.ceilTo s.at 128, Count.ceilTo s.at 128 + cyc (len * div), len, div, bits⟩

/-- A code is in progress on an island's CSL. -/
def State.codeBegun (s : State) (n len : Nat) (bits : BitVec 64) : State :=
  { s.latch (aISL_STAT n) fISL_STAT_PAT_BUSY with
    codes := Tab.set (fun _ => none) s.codes n (some (s.codeOf n len bits)) }

/-- Where no code in progress stands against it, a START sends its code; pin 25 puts it out where its role is CSL. -/
theorem State.startCode_eq {n : Nat} (len : Nat) (bits : BitVec 64) (hon : s.blkOn (islBlk n) = true)
    (hfree : ∀ c : Code, Tab.get (fun _ => none) s.codes n = some c → Count.before s.at c.stop = false) :
    ∃ out, s.startCode n len bits = { s.codeBegun n len bits with out := out } := by
  unfold State.startCode
  extract_lets busy div first c latched s1
  have hbusy : busy = false := by
    unfold busy
    split
    · exact hfree _ ‹_›
    · rfl
  have hnot : ¬ (!s.blkOn (islBlk n)) = true := by rw [hon]; decide
  rw [if_neg hnot, if_neg (by rw [hbusy]; decide)]
  split
  · exact ⟨_, rfl⟩
  · exact ⟨s.out, rfl⟩

/-- A code that begins stands in CSL's state, and PAT_BUSY reads 1. -/
theorem State.codeBegun_shows (s : State) (n len : Nat) (bits : BitVec 64) : let t := s.codeBegun n len bits
    Tab.get (fun _ => none) t.codes n = some (s.codeOf n len bits) ∧ t.bit (aISL_STAT n) fISL_STAT_PAT_BUSY = true ∧
      KeepsRegs [aISL_STAT n] s t :=
  ⟨Tab.get_set_self _ _ _ _, s.bit_latch_self _ _ rfl (by decide), keepsRegs_setReg s (aISL_STAT n) _⟩

/-- A START due before the end of the code in progress is discarded with PAT_COLL and FS 34. -/
theorem State.startCode_collides {n : Nat} {c : Code} (len : Nat) (bits : BitVec 64) (hon : s.blkOn (islBlk n) = true)
    (hcode : Tab.get (fun _ => none) s.codes n = some c) (hbusy : Count.before s.at c.stop = true) :
    s.startCode n len bits = (s.latch (aISL_LAT n) fISL_LAT_PAT_COLL).raise 34 (Fin.ofNat 80 n) := by
  unfold State.startCode
  rw [hcode, hon]
  exact if_pos hbusy

theorem exec_patCodeEnd_ends {isl : Isl} {c : Code} (hcode : Tab.get (fun _ => none) s.codes isl.val = some c)
    (hend : Count.upto c.stop s.count = true) : exec (.patCodeEnd isl) s = .next (s.cutCode isl.val) := by
  have hended : s.codeEnded isl.val = true := by unfold State.codeEnded; rw [hcode]; exact hend
  exact congrArg Host.Outcome.next (if_pos hended)

theorem exec_patCodeEnd_early {isl : Isl} {c : Code} (hcode : Tab.get (fun _ => none) s.codes isl.val = some c)
    (hend : Count.upto c.stop s.count = false) : exec (.patCodeEnd isl) s = .next s := by
  have hended : s.codeEnded isl.val = false := by unfold State.codeEnded; rw [hcode]; exact hend
  exact congrArg Host.Outcome.next (if_neg (by rw [hended]; decide))

/-- After a code CSL drives IDLE, and PAT_BUSY reads 0. -/
theorem State.cutCode_shows (s : State) (n : Nat) : let t := s.cutCode n
    Tab.get (fun _ => none) t.codes n = none ∧ (∀ now, t.cslLevel n now = s.bit (aPAT_CFG n) fPAT_CFG_IDLE) ∧
      t.bit (aISL_STAT n) fISL_STAT_PAT_BUSY = false ∧ KeepsRegs [aISL_STAT n] s t := by
  intro t
  have hnone : Tab.get (fun _ => none) t.codes n = none := Tab.get_set_self _ _ _ _
  have hkeeps : KeepsRegs [aISL_STAT n] s t := keepsRegs_setReg s (aISL_STAT n) _
  refine ⟨hnone, fun now => ?_, State.bit_setBit_self s _ _ _ rfl (by decide), hkeeps⟩
  unfold State.cslLevel
  rw [hnone]
  exact State.bit_congr _ (hkeeps _ (by simp only [List.mem_singleton, aPAT_CFG, aISL_STAT]; omega))

/-! ## What SAFE_N leaves safe (R102, R105) -/

/-- The bits that SAFE_N sets in an island: INH.SAFE of its channels, SAFE_SEEN and SAFE_ACTIVE. -/
def safeBit (a : Nat) (f : Fld) : Prop :=
  ∃ n c, (a = aCH_INH n c ∧ f = fCH_INH_SAFE) ∨ (a = aISL_LAT n ∧ f = fISL_LAT_SAFE_SEEN) ∨
    (a = aISL_STAT n ∧ f = fISL_STAT_SAFE_ACTIVE)

/-- Drivers that are off stay off, bits that SAFE_N sets stay set, and what is held stays held. -/
structure StaysSafe (s t : State) : Prop where
  off : ∀ ch, s.drvEn ch = false → t.drvEn ch = false
  sets : ∀ a f, safeBit a f → s.bit a f = true → t.bit a f = true
  held : s.agenda ⊆ t.agenda

theorem StaysSafe.refl (s : State) : StaysSafe s s := ⟨fun _ => id, fun _ _ _ => id, fun _ => id⟩

theorem StaysSafe.trans (h : StaysSafe s t) (g : StaysSafe t u) : StaysSafe s u where
  off ch hoff := g.off ch (h.off ch hoff)
  sets a f hsafe hset := g.sets a f hsafe (h.sets a f hsafe hset)
  held := List.Subset.trans h.held g.held

theorem StaysSafe.foldl {α : Type} {f : State → α → State} (hf : ∀ t x, StaysSafe t (f t x)) (l : List α)
    (h : StaysSafe s t) : StaysSafe s (l.foldl f t) :=
  List.foldlRecOn (motive := StaysSafe s) _ _ h (fun u hu x _ => hu.trans (hf u x))

theorem safeBit_single {a : Nat} {f : Fld} (h : safeBit a f) : f.lo = f.hi := by
  obtain ⟨n, c, ⟨-, rfl⟩ | ⟨-, rfl⟩ | ⟨-, rfl⟩⟩ := h <;> rfl

theorem safeBit_regBlk {a : Nat} {f : Fld} (h : safeBit a f) : regBlk a = 64 := by
  obtain ⟨n, c, ⟨rfl, -⟩ | ⟨rfl, -⟩ | ⟨rfl, -⟩⟩ := h
  · exact adr_CH_INH.here
  · exact adr_ISL_LAT.here
  · exact adr_ISL_STAT.here

theorem not_safeBit_chCtl (n c : Nat) (f : Fld) : ¬ safeBit (aCH_CTL n c) f := by
  rintro ⟨m, d, ⟨h, -⟩ | ⟨h, -⟩ | ⟨h, -⟩⟩ <;> simp only [aCH_CTL, aCH_INH, aISL_LAT, aISL_STAT] at h <;> omega

theorem not_safeBit_chStat (n c : Nat) (f : Fld) : ¬ safeBit (aCH_STAT n c) f := by
  rintro ⟨m, d, ⟨h, -⟩ | ⟨h, -⟩ | ⟨h, -⟩⟩ <;> simp only [aCH_STAT, aCH_INH, aISL_LAT, aISL_STAT] at h <;> omega

/-- What writes no register of an island. -/
theorem StaysSafe.of_does {ps : List Part} {bs : List Nat} (h : Does ps bs s t) (hps : .regs ∉ ps ∧ 64 ∉ bs)
    (hheld : s.agenda ⊆ t.agenda) : StaysSafe s t where
  off ch hoff := (State.bit_congr _ (h.regs hps.1 _ (by rw [adr_CH_CTL.here]; exact hps.2))).trans hoff
  sets a f hsafe hset := (State.bit_congr _ (h.regs hps.1 a (by rw [safeBit_regBlk hsafe]; exact hps.2))).trans hset
  held := hheld

/-- What writes neither registers of islands nor the actions held. -/
theorem StaysSafe.of_quiet {ps : List Part} {bs : List Nat} (h : Does ps bs s t)
    (hps : .regs ∉ ps ∧ .agenda ∉ ps ∧ 64 ∉ bs) : StaysSafe s t :=
  .of_does h ⟨hps.1, hps.2.2⟩ (by rw [show t.agenda = s.agenda from h.same .agenda hps.2.1 (by decide)]; exact fun _ => id)

/-- A bit written beside those of SAFE_N, in a register other than CH_CTL. -/
theorem StaysSafe.setBit (h : StaysSafe s t) {a : Nat} {f : Fld} (hctl : ∀ n c, aCH_CTL n c ≠ a) (hle : f.lo ≤ f.hi)
    (hlt : f.hi < 32) (hsafe : ∀ g, safeBit a g → g.hi < f.lo ∨ f.hi < g.lo) (v : Bool) : StaysSafe s (t.setBit a f v) where
  off ch hoff := (State.bit_congr _ (State.reg_setReg_ne _ _ (hctl _ _))).trans (h.off ch hoff)
  sets b g hbit hset := by
    refine Eq.trans ?_ (h.sets b g hbit hset)
    by_cases hb : b = a
    · subst hb; exact State.bit_setBit_beside _ _ _ _ _ hle hlt (hsafe g hbit)
    · exact State.bit_congr _ (State.reg_setReg_ne _ _ hb)
  held := h.held

/-- A latch set: of one bit, so that another bit is itself or lies beside it. -/
theorem StaysSafe.latch (h : StaysSafe s t) {a : Nat} {f : Fld} (hctl : ∀ n c, aCH_CTL n c ≠ a) (hone : f.lo = f.hi)
    (hlt : f.hi < 32) : StaysSafe s (t.latch a f) where
  off ch hoff := (State.bit_congr _ (State.reg_setReg_ne _ _ (hctl _ _))).trans (h.off ch hoff)
  sets b g hbit hset := by
    by_cases hb : b = a
    · subst hb
      by_cases hfg : g.lo = f.lo
      · have hg : g = f := by
          have hsingle := safeBit_single hbit
          obtain ⟨ghi, glo⟩ := g
          obtain ⟨fhi, flo⟩ := f
          simp only [Fld.mk.injEq] at *
          omega
        rw [hg]; exact State.bit_latch_self _ _ _ hone hlt
      · rw [State.bit_latch_beside _ _ _ _ hone.le hlt (by have := safeBit_single hbit; omega)]
        exact h.sets b g hbit hset
    · exact (State.bit_congr _ (State.reg_setReg_ne _ _ hb)).trans (h.sets b g hbit hset)
  held := h.held

/-- A driver disabled. -/
theorem StaysSafe.disable (h : StaysSafe s t) (n c : Nat) : StaysSafe s (t.setBit (aCH_CTL n c) fCH_CTL_DRV_EN false) where
  off ch hoff := by
    unfold State.drvEn
    by_cases hch : aCH_CTL (islOf ch) (locOf ch) = aCH_CTL n c
    · rw [hch]; exact State.bit_setBit_self _ _ _ _ rfl (by decide)
    · exact (State.bit_congr _ (State.reg_setReg_ne _ _ hch)).trans (h.off ch hoff)
  sets a f hsafe hset := (State.bit_congr _ (State.reg_setReg_ne _ _ (by
    rintro rfl; exact not_safeBit_chCtl _ _ _ hsafe))).trans (h.sets a f hsafe hset)
  held := h.held

/-! ## The operations of SAFE_N -/

theorem subset_insertDue (d : Due) (l : List Due) : l ⊆ insertDue d l := fun _ hx => (mem_insertDue d _ l).mpr (.inr hx)

theorem State.issue_held (s : State) (src : Fin 80) (dst : Nat) (due : Count) (kind : Nat) (a : Act) :
    s.agenda ⊆ (s.issue src dst due kind a).agenda := by
  unfold State.issue
  extract_lets lat s0
  have hford : ∀ slack, (s0.fordSeen dst lat slack).agenda = s.agenda := fun slack =>
    State.fordSeen_does.same .agenda (by decide) (by decide)
  split
  · rw [State.hold_agenda, hford]; exact subset_insertDue _ _
  · split
    · rw [State.hold_agenda, hford]; exact subset_insertDue _ _
    · show s0.agenda ⊆ (s0.late kind src.val dst due (s0.count + cyc lat)).agenda
      rw [State.late_agenda]; exact subset_insertDue _ _

theorem State.issue_staysSafe (s : State) (src : Fin 80) (dst : Nat) (due : Count) (kind : Nat) (a : Act) :
    StaysSafe s (s.issue src dst due kind a) := .of_does State.issue_does (by decide) (s.issue_held ..)

theorem State.raise_staysSafe (s : State) (fs : Fin 128) (isl : Fin 80) : StaysSafe s (s.raise fs isl) :=
  .of_does State.raise_does (by decide) (subset_insertDue _ _)

theorem aCH_CTL_ne {a : Nat} (h : a % 0x40 ≠ 0 ∨ a % 0x100000 < 0x100) (n c : Nat) : aCH_CTL n c ≠ a := by
  unfold aCH_CTL; omega

theorem State.driversOff_staysSafe (s : State) (ch : Nat) : StaysSafe s (s.driversOff ch) := by
  obtain ⟨x, -, -, ht⟩ := s.driversOff_eq ch
  rw [ht]
  have hforce : StaysSafe s (s.forcePins ch true s.count) := .of_quiet State.forcePins_does (by decide)
  have hoff := (hforce.disable (islOf ch) (locOf ch)).setBit (a := aCH_STAT (islOf ch) (locOf ch)) (f := fCH_STAT_DRV_ON)
    (aCH_CTL_ne (by unfold aCH_STAT; omega)) (by decide) (by decide) (fun g hg => absurd hg (not_safeBit_chStat _ _ g)) false
  exact hoff.trans (.of_quiet State.setChan_does (by decide))

theorem State.setInh_staysSafe (s : State) (ch : Nat) (on : Bool) : StaysSafe s (s.setInh ch on) := by
  have hchan : StaysSafe s (s.setChan ch { s.chan ch with inhibited := on }) := .of_quiet State.setChan_does (by decide)
  have hstat := hchan.setBit (a := aCH_STAT (islOf ch) (locOf ch)) (f := fCH_STAT_INH)
    (aCH_CTL_ne (by unfold aCH_STAT; omega)) (by decide) (by decide) (fun g hg => absurd hg (not_safeBit_chStat _ _ g)) on
  refine hstat.setBit (aCH_CTL_ne (by unfold aISL_STAT; omega)) (by decide) (by decide) ?_ _
  rintro g ⟨m, c, ⟨h, -⟩ | ⟨h, -⟩ | ⟨-, rfl⟩⟩
  · simp only [aISL_STAT, aCH_INH] at h; omega
  · simp only [aISL_STAT, aISL_LAT] at h; omega
  · decide

theorem StaysSafe.latchInh (h : StaysSafe s t) (n c : Nat) {f : Fld} (hone : f.lo = f.hi) (hlt : f.hi < 32) :
    StaysSafe s (t.latch (aCH_INH n c) f) := h.latch (aCH_CTL_ne (by unfold aCH_INH; omega)) hone hlt

theorem State.showInh_staysSafe (s : State) (ch : Nat) : StaysSafe s (s.showInh ch) := by
  have hlatch : ∀ (t : State) (c : Bool) (f : Fld), f.lo = f.hi → f.hi < 32 →
      StaysSafe t (if c then t.latch (aCH_INH (islOf ch) (locOf ch)) f else t) := by
    intro t c f hone hlt
    split
    · exact (StaysSafe.refl t).latchInh _ _ hone hlt
    · exact .refl t
  exact ((hlatch s _ _ rfl (by decide)).trans (hlatch _ _ _ rfl (by decide))).trans (State.setInh_staysSafe ..)

/-! ## SAFE_N in an island (R105) -/

/-- An island shows SAFE_N and raises FS 33. -/
def State.safeShown (s : State) (n : Nat) : State :=
  ((s.latch (aISL_LAT n) fISL_LAT_SAFE_SEEN).latch (aISL_STAT n) fISL_STAT_SAFE_ACTIVE).raise 33 (Fin.ofNat 80 n)

/-- SAFE_N disables a channel and inhibits it. -/
def State.safeDriversOff (s : State) (n c : Nat) : State :=
  ((s.driversOff (chanOf n c)).latch (aCH_INH n c) fCH_INH_SAFE).showInh (chanOf n c)

/-- SAFE_N takes effect in a channel: E_SAFE is posted, and an excursion written where the channel was enabled. -/
def State.safeChannel (n : Nat) (s : State) (c : Nat) : State :=
  let s2 := (s.safeDriversOff n c).post (Fin.ofNat 80 n) (chanFin (chanOf n c)) eSafe
  if s.drvEn (chanOf n c) then s2.excursion (Fin.ofNat 80 n) 5 0 (chanOf n c) s.count 0 0 else s2

theorem State.safeIsland_eq (s : State) (n : Nat) :
    s.safeIsland n = (List.range 4).foldl (State.safeChannel n) (s.safeShown n) := rfl

theorem State.safeShown_staysSafe (s : State) (n : Nat) : StaysSafe s (s.safeShown n) :=
  (((StaysSafe.refl s).latch (a := aISL_LAT n) (f := fISL_LAT_SAFE_SEEN) (aCH_CTL_ne (by unfold aISL_LAT; omega)) rfl
    (by decide)).latch (a := aISL_STAT n) (f := fISL_STAT_SAFE_ACTIVE) (aCH_CTL_ne (by unfold aISL_STAT; omega)) rfl
    (by decide)).trans (State.raise_staysSafe ..)

theorem State.safeDriversOff_staysSafe (s : State) (n c : Nat) : StaysSafe s (s.safeDriversOff n c) :=
  ((s.driversOff_staysSafe _).latchInh n c rfl (by decide)).trans (State.showInh_staysSafe ..)

/-- What SAFE_N leaves of a channel. -/
def State.chanSafe (s : State) (n c : Nat) : Prop :=
  s.drvEn (chanOf n c) = false ∧ s.bit (aCH_INH n c) fCH_INH_SAFE = true

theorem State.chanSafe.stays {n c : Nat} (h : s.chanSafe n c) (g : StaysSafe s t) : t.chanSafe n c :=
  ⟨g.off _ h.1, g.sets _ _ ⟨n, c, .inl ⟨rfl, rfl⟩⟩ h.2⟩

theorem State.safeDriversOff_safe (s : State) (n c : Nat) : (s.safeDriversOff n c).chanSafe n c := by
  have hlatch : ((s.driversOff (chanOf n c)).latch (aCH_INH n c) fCH_INH_SAFE).chanSafe n c :=
    ⟨((StaysSafe.refl _).latchInh n c rfl (by decide)).off _ (s.driversOff_shows _).1,
      State.bit_latch_self _ _ _ rfl (by decide)⟩
  exact hlatch.stays (State.showInh_staysSafe ..)

theorem State.safeChannel_stays (s : State) (n c : Nat) : StaysSafe (s.safeDriversOff n c) (State.safeChannel n s c) := by
  have hpost : StaysSafe (s.safeDriversOff n c)
      ((s.safeDriversOff n c).post (Fin.ofNat 80 n) (chanFin (chanOf n c)) eSafe) := State.issue_staysSafe ..
  unfold State.safeChannel
  extract_lets s2
  split
  · exact hpost.trans (s2.issue_staysSafe ..)
  · exact hpost

theorem State.safeChannel_staysSafe (s : State) (n c : Nat) : StaysSafe s (State.safeChannel n s c) :=
  (s.safeDriversOff_staysSafe n c).trans (s.safeChannel_stays n c)

theorem State.safeIsland_staysSafe (s : State) (n : Nat) : StaysSafe s (s.safeIsland n) := by
  rw [State.safeIsland_eq]
  exact .foldl (fun t c => t.safeChannel_staysSafe n c) _ (s.safeShown_staysSafe n)

/-- SAFE_N is in effect in an island, and FS 33 raised by it in a cycle. -/
structure IslandSafe (now : Count) (n : Nat) (t : State) : Prop where
  chans : ∀ c < 4, t.chanSafe n c
  seen : t.bit (aISL_LAT n) fISL_LAT_SAFE_SEEN = true
  active : t.bit (aISL_STAT n) fISL_STAT_SAFE_ACTIVE = true
  raised : (⟨now + cyc 64, .island (Fin.ofNat 80 n), .raise 33 (Fin.ofNat 80 n)⟩ : Due) ∈ t.agenda

theorem IslandSafe.stays {now : Count} {n : Nat} (h : IslandSafe now n s) (g : StaysSafe s t) : IslandSafe now n t where
  chans c hc := (h.chans c hc).stays g
  seen := g.sets _ _ ⟨n, 0, .inr (.inl ⟨rfl, rfl⟩)⟩ h.seen
  active := g.sets _ _ ⟨n, 0, .inr (.inr ⟨rfl, rfl⟩)⟩ h.active
  raised := g.held h.raised

theorem State.safeShown_shows (s : State) (n : Nat) : let t := s.safeShown n
    t.bit (aISL_LAT n) fISL_LAT_SAFE_SEEN = true ∧ t.bit (aISL_STAT n) fISL_STAT_SAFE_ACTIVE = true ∧
      Raises 33 (Fin.ofNat 80 n) s t := by
  intro t
  have hne : aISL_LAT n ≠ aISL_STAT n := by unfold aISL_LAT aISL_STAT; omega
  have hreg : ∀ a, t.reg a =
      ((s.latch (aISL_LAT n) fISL_LAT_SAFE_SEEN).latch (aISL_STAT n) fISL_STAT_SAFE_ACTIVE).reg a :=
    fun a => State.raise_does.regs (by decide) a (by simp)
  refine ⟨(State.bit_congr _ ((hreg _).trans (State.reg_latch_ne _ _ hne))).trans (s.bit_latch_self _ _ rfl (by decide)),
    (State.bit_congr _ (hreg _)).trans (State.bit_latch_self _ _ _ rfl (by decide)), raises_of_count rfl _ _⟩

theorem State.safeIsland_safe (s : State) (n : Nat) : IslandSafe s.count n (s.safeIsland n) := by
  rw [State.safeIsland_eq]
  have hrest : StaysSafe (s.safeShown n) ((List.range 4).foldl (State.safeChannel n) (s.safeShown n)) :=
    .foldl (fun t c => t.safeChannel_staysSafe n c) _ (.refl _)
  obtain ⟨hseen, hactive, hraised⟩ := s.safeShown_shows n
  refine ⟨fun c hc => ?_, hrest.sets _ _ ⟨n, 0, .inr (.inl ⟨rfl, rfl⟩)⟩ hseen,
    hrest.sets _ _ ⟨n, 0, .inr (.inr ⟨rfl, rfl⟩)⟩ hactive, hrest.held hraised⟩
  exact foldl_of_mem (P := fun t : State => t.chanSafe n c) (Q := fun _ => True) (List.mem_range.mpr hc) trivial
    (fun _ _ => id) (fun t _ => (t.safeDriversOff_safe n c).stays (t.safeChannel_stays n c))
    (fun t d h => h.stays (t.safeChannel_staysSafe n d))

/-! ## SAFE_N falls (R102, R105) -/

/-- SAFE_N low is seen, its cause stands, and every channel's pins are forced; the islands follow. -/
def State.safeLow (s : State) : State := s.forceAll.safeSeen.causeOn 33 0

theorem exec_safeNFall_eq (s : State) : exec .safeNFall s = .next ((List.range 64).foldl State.safeIsland s.safeLow) := rfl

theorem State.safeLow_does : Does [.causes, .pins, .twn, .power] [14] s s.safeLow :=
  State.causeOn_does.call (by decide) (State.safeSeen_does.call (by decide) (State.forceAll_does.mono (by decide)))

theorem State.safeLow_power (s : State) : s.safeLow.power.safeN = false := by
  unfold State.safeLow
  rw [State.causeOn_does.same .power (by decide) (by decide)]
  rfl

theorem State.safeIslands_does (s : State) :
    Does [.agenda, .free, .fresh, .chans, .pins] [1, 3, 64] s ((List.range 64).foldl State.safeIsland s) :=
  Does.foldl (fun _ _ => State.safeIsland_does) Does.refl

theorem State.safeIslands_safe (s : State) {n : Nat} (hn : n < 64) :
    IslandSafe s.count n ((List.range 64).foldl State.safeIsland s) :=
  foldl_of_mem (P := IslandSafe s.count n) (Q := fun t => t.count = s.count) (List.mem_range.mpr hn) rfl
    (fun _ _ h => (State.safeIsland_does.same .count (by decide) (by decide)).trans h)
    (fun t h => h ▸ t.safeIsland_safe n) (fun t k h => h.stays (t.safeIsland_staysSafe k))

/-- With SAFE_N low every output pin but CSL stands at its safe level. -/
theorem State.pinHeld_of_safeN (h : s.power.safeN = false) {n p : Nat} (hp : p ≠ 25) : s.pinHeld n p = true := by
  have hstill : s.pinStill n p = true := by
    unfold State.pinStill
    simp [h, hp]
  unfold State.pinHeld
  rw [hstill, Bool.true_or]

/-! ## SAFE_N returns (R105, R108) -/

/-- SAFE_N reads high again, and its cause ends. -/
def State.safeHigh (s : State) : State :=
  let s0 := { s with power := { s.power with safeN := true } }.causeOff 33 0
  { s0 with twn := { s0.twn with
    safeSplit := s0.twn.safeSplit && s.inPair
    safeRise := if s0.twn.safeSplit && s.inPair then some s.count else none } }

/-- SAFE_ACTIVE of an island clears, and the inhibit of its channels stands as the network says. -/
def State.safeCleared (s : State) (n : Nat) : State :=
  (List.range 4).foldl (fun s c => s.showInh (chanOf n c)) (s.setBit (aISL_STAT n) fISL_STAT_SAFE_ACTIVE false)

theorem exec_safeNRise_eq (s : State) : exec .safeNRise s = .next ((List.range 64).foldl State.safeCleared s.safeHigh) := rfl

theorem State.safeHigh_does : Does [.causes, .twn, .power] [] s s.safeHigh :=
  Does.put_twn (by decide) (State.causeOff_does.call (by decide) (Does.put_power (by decide) Does.refl))

theorem State.safeCleared_does {n : Nat} : Does [.fresh, .chans] [64] s (s.safeCleared n) :=
  Does.foldl (fun _ _ => State.showInh_does) (Does.setBit adr_ISL_STAT (by decide) Does.refl)

theorem State.safeCleared_keeps (s : State) (n : Nat) : KeepsBarInhibit s (s.safeCleared n) :=
  .foldl (fun t _ => t.showInh_keeps _) _ ((KeepsBarInhibit.refl s).setReg ⟨n, 0, .inr (.inr rfl)⟩ _)

/-- The inhibit network leaves SAFE_ACTIVE alone. -/
theorem State.showInh_safeActive (s : State) (ch n : Nat) :
    (s.showInh ch).bit (aISL_STAT n) fISL_STAT_SAFE_ACTIVE = s.bit (aISL_STAT n) fISL_STAT_SAFE_ACTIVE := by
  have hinh : aISL_STAT n ≠ aCH_INH (islOf ch) (locOf ch) := by unfold aISL_STAT aCH_INH; omega
  have hstat : aISL_STAT n ≠ aCH_STAT (islOf ch) (locOf ch) := by unfold aISL_STAT aCH_STAT; omega
  have hlatch : ∀ (t : State) (c : Bool) (f : Fld),
      (if c then t.latch (aCH_INH (islOf ch) (locOf ch)) f else t).reg (aISL_STAT n) = t.reg (aISL_STAT n) := by
    intro t c f
    split
    · exact State.reg_setReg_ne _ _ hinh
    · rfl
  have hset : ∀ (t : State) on, (t.setInh ch on).bit (aISL_STAT n) fISL_STAT_SAFE_ACTIVE =
      t.bit (aISL_STAT n) fISL_STAT_SAFE_ACTIVE := by
    intro t on
    unfold State.setInh
    extract_lets m x u
    have hu : u.bit (aISL_STAT n) fISL_STAT_SAFE_ACTIVE = t.bit (aISL_STAT n) fISL_STAT_SAFE_ACTIVE :=
      State.bit_congr _ (State.reg_setReg_ne t _ hstat)
    rw [← hu]
    by_cases hn : aISL_STAT n = aISL_STAT (islOf ch)
    · rw [hn]; exact u.bit_setBit_beside _ fISL_STAT_INH_ANY fISL_STAT_SAFE_ACTIVE _ (by decide) (by decide) (by decide)
    · exact State.bit_congr _ (State.reg_setReg_ne _ _ hn)
  exact (hset _ _).trans (State.bit_congr _ ((hlatch _ _ _).trans (hlatch _ _ _)))

theorem State.safeCleared_active (s : State) (n k : Nat) : (s.safeCleared k).bit (aISL_STAT n) fISL_STAT_SAFE_ACTIVE =
    (s.setBit (aISL_STAT k) fISL_STAT_SAFE_ACTIVE false).bit (aISL_STAT n) fISL_STAT_SAFE_ACTIVE :=
  List.foldlRecOn (motive := fun t : State => t.bit (aISL_STAT n) fISL_STAT_SAFE_ACTIVE = _) _ _ rfl
    (fun t h _ _ => (t.showInh_safeActive _ n).trans h)

theorem State.safeClearedAll_active (s : State) {n : Nat} (hn : n < 64) :
    ((List.range 64).foldl State.safeCleared s).bit (aISL_STAT n) fISL_STAT_SAFE_ACTIVE = false := by
  have hself : ∀ t : State, (t.setBit (aISL_STAT n) fISL_STAT_SAFE_ACTIVE false).bit (aISL_STAT n) fISL_STAT_SAFE_ACTIVE =
      false := fun t => State.bit_setBit_self _ _ _ _ rfl (by decide)
  refine foldl_of_mem (P := fun t : State => t.bit (aISL_STAT n) fISL_STAT_SAFE_ACTIVE = false) (Q := fun _ => True)
    (List.mem_range.mpr hn) trivial (fun _ _ => id) (fun t _ => (t.safeCleared_active n n).trans (hself t)) (fun t k h => ?_)
  rw [State.safeCleared_active]
  by_cases hk : aISL_STAT n = aISL_STAT k
  · rw [← hk]; exact hself t
  · exact (State.bit_congr _ (State.reg_setReg_ne _ _ hk)).trans h

/-! ## O8 -/

/-- Settles O8: a code begins by `State.codeBegun_shows` and ends by `State.cutCode_shows`; SAFE_N's fall is
`State.safeIslands_safe`, and its return clears SAFE_ACTIVE by `State.safeClearedAll_active`. -/
theorem patternsAndSafeInput : Obligations.PatternsAndSafeInput := by
  unfold Obligations.PatternsAndSafeInput
  refine ⟨fun isl s => ⟨fun hon hfree => ⟨_, rfl, ?begins⟩, fun c hon hcode hbusy => ⟨_, rfl, ?collides⟩,
    fun c hcode hend => ⟨_, exec_patCodeEnd_ends hcode hend, ?ends⟩,
    fun c hcode hearly => ⟨_, exec_patCodeEnd_early hcode hearly, rfl⟩⟩,
    fun s => ⟨⟨_, exec_safeNFall_eq s, ?falls⟩, ⟨_, exec_safeNRise_eq s, ?returns⟩⟩⟩
  case begins =>
    obtain ⟨out, hout⟩ := State.startCode_eq (s.fld (aPAT_CFG isl.val) fPAT_CFG_LEN)
      (BitVec.ofNat 64 (s.wide (aPAT_CODE isl.val) 2)) hon hfree
    obtain ⟨hcode, hbusy, hkeeps⟩ := s.codeBegun_shows isl.val (s.fld (aPAT_CFG isl.val) fPAT_CFG_LEN)
      (BitVec.ofNat 64 (s.wide (aPAT_CODE isl.val) 2))
    rw [hout]
    exact ⟨hcode, hbusy, hkeeps, .of_fields rfl rfl rfl⟩
  case collides =>
    rw [State.startCode_collides _ _ hon hcode hbusy]
    exact ⟨rfl, s.bit_latch_self _ _ rfl (by decide), ⟨_, raises_of_count rfl _ _⟩,
      keepsRegs_setReg s (aISL_LAT isl.val) _, .of_fields rfl rfl rfl⟩
  case ends =>
    obtain ⟨hnone, hidle, hbusy, hkeeps⟩ := s.cutCode_shows isl.val
    exact ⟨hnone, hidle _, hbusy, hkeeps, .of_does State.cutCode_does (by decide)⟩
  case falls =>
    have hlow := State.safeLow_does (s := s)
    have hisl := s.safeLow.safeIslands_does
    have hcount : s.safeLow.count = s.count := hlow.same .count (by decide) (by decide)
    have hsafe : ∀ {n : Nat}, n < 64 → IslandSafe s.count n _ := fun hn => hcount ▸ s.safeLow.safeIslands_safe hn
    have hpower := (congrArg Power.safeN (hisl.same .power (by decide) (by decide))).trans s.safeLow_power
    refine ⟨hpower, fun ch => ?chan, fun n p hp => State.pinHeld_of_safeN hpower (fun h => hp (Fin.ext h)),
      fun n => ⟨(hsafe n.isLt).seen, (hsafe n.isLt).active, (hsafe n.isLt).raised⟩, ?stands,
      (hisl.same .count (by decide) (by decide)).trans hcount,
      (KeepsMemory.of_does hlow (by decide)).trans (.of_does hisl (by decide))⟩
    case chan =>
      have hch : chanOf (islOf ch.val) (locOf ch.val) = ch.val := by unfold chanOf islOf locOf; omega
      have hchan := (hsafe (n := islOf ch.val) (by unfold islOf; omega)).chans (locOf ch.val) (by unfold locOf; omega)
      exact ⟨hch ▸ hchan.1, hchan.2⟩
    case stands =>
      unfold State.causeStands
      rw [hisl.same .causes (by decide) (by decide)]
      exact State.causeOn_causeStands _ 33 0
  case returns =>
    have hcleared : Does [.fresh, .chans] [64] s.safeHigh ((List.range 64).foldl State.safeCleared s.safeHigh) :=
      Does.foldl (fun _ _ => State.safeCleared_does) Does.refl
    have hkeeps : KeepsBarInhibit s ((List.range 64).foldl State.safeCleared s.safeHigh) :=
      .foldl (fun t n => t.safeCleared_keeps n) _ (fun a _ => State.safeHigh_does.regs (by decide) a (by simp))
    refine ⟨congrArg Power.safeN (hcleared.same .power (by decide) (by decide)),
      fun ch => State.bit_congr _ (hkeeps _ (not_inhibitReg_chCtl _ _)), ?_, fun n => s.safeHigh.safeClearedAll_active n.isLt,
      hcleared.same .count (by decide) (by decide),
      (KeepsMemory.of_does State.safeHigh_does (by decide)).trans (.of_does hcleared (by decide))⟩
    unfold State.causeAt
    rw [hcleared.same .causes (by decide) (by decide)]
    exact State.causeAt_causeOff _ 33 0

end Sys2Proof.Machine
end

section
/-! Writes that a pin island refuses (R34, R50): where the refusal shows, and what it leaves alone. -/
namespace Sys2Proof.Machine

variable {s t : State}

/-- A write refused for its value by a pin island: VAL_REJECT of its block sets, FS 5 is raised, and no more changes. -/
structure Refuses (n : Nat) (s t : State) : Prop where
  latched : (t.reg ((64 + n) * 0x100000 + 8)).getLsbD 2 = true
  raised : ∃ i, Raises 5 i s t
  keeps : KeepsRegs [(64 + n) * 0x100000 + 8, (64 + n) * 0x100000 + 12] s t
  does : Does [.regs, .agenda, .fresh] [] s t

theorem State.rejectVal_refuses (s : State) (by_ : Issuer) (isl : Isl) {a : Nat} (ha : a / 0x100000 = 64 + isl.val) :
    Refuses isl.val s (s.rejectVal by_ a) := by
  have hblk : rejBlock a = 64 + isl.val := by
    rw [rejBlock_of_exists (by rw [ha]; exact blockExists_isl (by omega) (by omega)), ha]
  have hsets := s.reject_sets by_ (k := .val) a (i := 2) rfl
  have hkeeps := s.reject_keepsRegs by_ .val a
  rw [hblk] at hsets hkeeps
  exact ⟨hsets, s.reject_raises by_ a (by decide), hkeeps, State.rejectVal_any⟩

/-- Registers beyond a block's header read as before a refused write. -/
theorem Refuses.reg {n a : Nat} (h : Refuses n s t) (ha : 16 ≤ a % 0x100000) : t.reg a = s.reg a :=
  h.keeps a (by simp only [List.mem_cons, List.not_mem_nil, or_false]; omega)

theorem Refuses.keepsMemory {n : Nat} (h : Refuses n s t) : KeepsMemory s t := .of_does h.does (by decide)

end Sys2Proof.Machine
end

section
/-! The DLL of an island (R107, R121 to R124): what a loss, a lock and a RELOCK show. -/
namespace Sys2Proof.Machine

variable {s : State} {isl : Isl}

/-! ## Operations of the DLL -/

theorem State.reg_bump_ne (s : State) {a b : Nat} (h : b ≠ a) : (s.bump a).reg b = s.reg b := State.reg_setReg_ne _ _ h

theorem aISL_STAT_ne_DLL_STAT (n : Nat) : aISL_STAT n ≠ aDLL_STAT n := by unfold aISL_STAT aDLL_STAT; omega

/-- DLL_LOCK set or cleared reads so in ISL_STAT and in DLL_STAT. -/
theorem State.setDllLock_shows (s : State) (n : Nat) (on : Bool) : let t := s.setDllLock n on
    t.bit (aISL_STAT n) fISL_STAT_DLL_LOCK = on ∧ t.bit (aDLL_STAT n) fDLL_STAT_LOCKED = on ∧
      KeepsRegs [aISL_STAT n, aDLL_STAT n] s t :=
  ⟨(State.bit_congr _ (State.reg_setReg_ne _ _ (aISL_STAT_ne_DLL_STAT n))).trans
      (State.bit_setBit_self s _ _ _ rfl (by decide)), State.bit_setBit_self _ _ _ _ rfl (by decide),
    ((KeepsRegs.refl _ s).setBit (a := aISL_STAT n) (by simp) _ _).setBit (a := aDLL_STAT n) (by simp) _ _⟩

/-- A lock lost or given up: DLL_LOCK reads 0. -/
theorem State.dllDown_shows (s : State) (n : Nat) : let t := s.dllDown n
    t.bit (aISL_STAT n) fISL_STAT_DLL_LOCK = false ∧ KeepsRegs [aISL_STAT n, aDLL_STAT n] s t := by
  intro t
  have hspoil : KeepsRegs [aISL_STAT n, aDLL_STAT n] s
      (if s.bit (aISL_STAT n) fISL_STAT_DLL_LOCK then s.spoilDll n else s) := by
    split
    · exact .of_does State.spoilDll_does (by decide) _
    · exact .refl _ s
  obtain ⟨hlock, -, hkeeps⟩ := State.setDllLock_shows (if s.bit (aISL_STAT n) fISL_STAT_DLL_LOCK then s.spoilDll n else s) n false
  exact ⟨hlock, hspoil.trans hkeeps⟩

/-- A lock loop that starts reads LOCKING. -/
theorem State.dllAcquire_shows (s : State) (n : Nat) : let t := s.dllAcquire n
    t.bit (aDLL_STAT n) fDLL_STAT_LOCKING = true ∧ KeepsRegs [aDLL_STAT n] s t :=
  ⟨(State.bit_setBit_beside (s.setBit (aDLL_STAT n) fDLL_STAT_LOCKING true) _ fDLL_STAT_BALANCING fDLL_STAT_LOCKING _
      (by decide) (by decide) (by decide)).trans (State.bit_setBit_self s _ _ _ rfl (by decide)),
    ((KeepsRegs.refl _ s).setBit (a := aDLL_STAT n) (by simp) _ _).setBit (a := aDLL_STAT n) (by simp) _ _⟩

/-! ## The drivers of an island (R106, R107) -/

theorem State.islandDriversOff_off (s : State) (n : Nat) {c : Nat} (hc : c < 4) :
    (s.islandDriversOff n).drvEn (chanOf n c) = false :=
  foldl_of_mem (P := fun t : State => t.drvEn (chanOf n c) = false) (Q := fun _ => True) (List.mem_range.mpr hc) trivial
    (fun _ _ => id) (fun t _ => (t.driversOff_shows _).1) (fun t _ h => (t.driversOff_staysSafe _).off _ h)

/-- Drivers that go off write registers of channels alone. -/
theorem State.islandDriversOff_reg (s : State) (n : Nat) {a : Nat} (ha : a % 0x100000 < 0x100) :
    (s.islandDriversOff n).reg a = s.reg a := by
  refine List.foldlRecOn (motive := fun t : State => t.reg a = s.reg a) _ _ rfl (fun t h c _ => ?_)
  obtain ⟨-, -, -, -, hkeeps⟩ := t.driversOff_shows (chanOf n c)
  refine (hkeeps a ?_).trans h
  simp only [List.mem_cons, List.not_mem_nil, or_false, not_or, aCH_CTL, aCH_STAT]
  omega

/-! ## RELOCK (R124) -/

theorem exec_dllRelock_refused {by_ : Issuer} (c : Fin 4) (hdrv : s.drvEn (chanOf isl.val c.val) = true) :
    exec (.dllRelock by_ isl) s = .next (s.rejectVal by_ (aDLL_CMD isl.val)) :=
  if_pos (List.any_eq_true.mpr ⟨c.val, List.mem_range.mpr c.isLt, hdrv⟩)

theorem exec_dllRelock_acquires {by_ : Issuer} (hon : s.blkOn (64 + isl.val) = true)
    (hoff : ∀ c : Fin 4, s.drvEn (chanOf isl.val c.val) = false) :
    exec (.dllRelock by_ isl) s = .next ((s.dllDown isl.val).dllAcquire isl.val) := by
  have hnone : (List.range 4).any (fun c => s.drvEn (chanOf isl.val c)) = false :=
    List.any_eq_false.mpr (fun c hc => by rw [hoff ⟨c, List.mem_range.mp hc⟩]; decide)
  exact (if_neg (by rw [hnone]; decide)).trans (if_pos hon)

/-! ## Comparisons (R121 to R123, R107) -/

/-- PHERR shows a comparison. -/
def State.dllCompared (s : State) (n : Nat) (pherr : BitVec 8) : State := s.setFld (aDLL_STAT n) fDLL_STAT_PHERR pherr.toNat

theorem State.dllCompared_reg (s : State) (n : Nat) (pherr : BitVec 8) {a : Nat} (ha : a ≠ aDLL_STAT n) :
    (s.dllCompared n pherr).reg a = s.reg a := State.reg_setReg_ne _ _ ha

theorem State.dllCompared_bit (s : State) (n : Nat) (pherr : BitVec 8) {f : Fld} (hf : f.hi < 8) :
    (s.dllCompared n pherr).bit (aDLL_STAT n) f = s.bit (aDLL_STAT n) f := by
  unfold State.bit
  rw [show (s.dllCompared n pherr).fld (aDLL_STAT n) f = _ from
    State.fld_setFld_beside _ _ _ _ _ (by decide) (by decide) (.inl hf)]

theorem State.dllCompared_lock (s : State) (n : Nat) (pherr : BitVec 8) :
    (s.dllCompared n pherr).bit (aISL_STAT n) fISL_STAT_DLL_LOCK = s.bit (aISL_STAT n) fISL_STAT_DLL_LOCK :=
  State.bit_congr _ (s.dllCompared_reg n pherr (aISL_STAT_ne_DLL_STAT n))

theorem State.dllCompared_cfg (s : State) (n : Nat) (pherr : BitVec 8) :
    (s.dllCompared n pherr).reg (aDLL_CFG n) = s.reg (aDLL_CFG n) :=
  s.dllCompared_reg n pherr (by unfold aDLL_CFG aDLL_STAT; omega)

/-- The lock of an island is lost: its drivers go off, the loss is counted, and the DLL starts to lock again. -/
def State.dllLost (s : State) (n : Nat) : State :=
  (((s.dllDown n).bump (aDLL_LOSS n)).islandDriversOff n).dllAcquire n

theorem State.dllLost_shows (s : State) (n : Nat) : let t := s.dllLost n
    t.bit (aISL_STAT n) fISL_STAT_DLL_LOCK = false ∧ (∀ c < 4, t.drvEn (chanOf n c) = false) ∧
      (t.reg (aDLL_LOSS n)).toNat = min 0xFFFFFFFF ((s.reg (aDLL_LOSS n)).toNat + 1) ∧ t.count = s.count ∧ KeepsMemory s t := by
  intro t
  have hloss : aDLL_LOSS n ∉ [aISL_STAT n, aDLL_STAT n] := by
    simp only [List.mem_cons, List.not_mem_nil, or_false, not_or, aDLL_LOSS, aISL_STAT, aDLL_STAT]; omega
  have hacquire : ∀ {a}, a ≠ aDLL_STAT n → t.reg a = (((s.dllDown n).bump (aDLL_LOSS n)).islandDriversOff n).reg a :=
    fun ha => (State.dllAcquire_shows _ n).2 _ (by simpa using ha)
  have hlow : ∀ {a}, a ≠ aDLL_STAT n → a % 0x100000 < 0x100 → t.reg a = ((s.dllDown n).bump (aDLL_LOSS n)).reg a :=
    fun ha hlow => (hacquire ha).trans (State.islandDriversOff_reg _ n hlow)
  have hdoes : Does [.fresh, .chans, .pins, .meas, .dlls] [64] s t :=
    State.dllAcquire_does.call (by decide) (State.islandDriversOff_does.call (by decide)
      (Does.bump adr_DLL_LOSS (by decide) (State.dllDown_does.mono (by decide))))
  obtain ⟨hlock, hdown⟩ := s.dllDown_shows n
  refine ⟨?lock, fun c hc => ?drv, ?loss, hdoes.same .count (by decide) (by decide), .of_does hdoes (by decide)⟩
  case lock =>
    have hbump : ((s.dllDown n).bump (aDLL_LOSS n)).reg (aISL_STAT n) = (s.dllDown n).reg (aISL_STAT n) :=
      State.reg_bump_ne _ (by unfold aISL_STAT aDLL_LOSS; omega)
    exact (State.bit_congr _ ((hlow (aISL_STAT_ne_DLL_STAT n) (by unfold aISL_STAT; omega)).trans hbump)).trans hlock
  case drv =>
    exact (State.bit_congr _ (hacquire (by unfold aCH_CTL aDLL_STAT; omega))).trans (State.islandDriversOff_off _ n hc)
  case loss =>
    rw [hlow (by unfold aDLL_LOSS aDLL_STAT; omega) (by unfold aDLL_LOSS; omega), State.reg_bump_toNat, hdown _ hloss]

theorem exec_dllCompare_lost {pherr : BitVec 8} (hon : s.blkOn (64 + isl.val) = true)
    (hlock : s.bit (aISL_STAT isl.val) fISL_STAT_DLL_LOCK = true)
    (hbeyond : s.fld (aDLL_CFG isl.val) fDLL_CFG_UNLOCK_TOL < pherr.toInt.natAbs) :
    exec (.dllCompare isl pherr) s =
      .next ((((s.dllCompared isl.val pherr).dllLost isl.val).causeOn 35 isl.val).raise 35 (Fin.ofNat 80 isl.val)) := by
  refine (if_neg (by rw [hon]; decide)).trans (if_pos ?_)
  have hlock' := (s.dllCompared_lock isl.val pherr).trans hlock
  have hcfg := s.dllCompared_cfg isl.val pherr
  unfold State.dllCompared at hlock' hcfg
  rw [hlock', hcfg]
  exact decide_eq_true hbeyond

theorem exec_dllCompare_keeps {pherr : BitVec 8} (hon : s.blkOn (64 + isl.val) = true)
    (hidle : s.bit (aDLL_STAT isl.val) fDLL_STAT_LOCKING = false)
    (hwithin : pherr.toInt.natAbs ≤ s.fld (aDLL_CFG isl.val) fDLL_CFG_UNLOCK_TOL) :
    exec (.dllCompare isl pherr) s = .next (s.dllCompared isl.val pherr) := by
  have hcfg := s.dllCompared_cfg isl.val pherr
  have hidle' := (s.dllCompared_bit isl.val pherr (f := fDLL_STAT_LOCKING) (by decide)).trans hidle
  unfold State.dllCompared at hcfg hidle'
  refine (if_neg (by rw [hon]; decide)).trans ((if_neg ?_).trans (if_neg (by rw [hidle']; decide)))
  rw [hcfg]
  have hsmall : decide (getF (s.reg (aDLL_CFG isl.val)) fDLL_CFG_UNLOCK_TOL < pherr.toInt.natAbs) = false :=
    decide_eq_false (Nat.not_lt.mpr hwithin)
  rw [hsmall, Bool.and_false]
  decide

/-- The phase-balance pass of an island starts (R122). -/
def State.dllBalances (s : State) (n : Nat) : State :=
  { (s.setBit (aDLL_STAT n) fDLL_STAT_LOCKING false).setBit (aDLL_STAT n) fDLL_STAT_BALANCING true with
    dlls := Tab.set (fun _ => 0) s.dlls n 0 }

theorem State.dllBalances_shows (s : State) (n : Nat) : let t := s.dllBalances n
    t.bit (aDLL_STAT n) fDLL_STAT_BALANCING = true ∧ t.bit (aDLL_STAT n) fDLL_STAT_LOCKING = false ∧
      KeepsRegs [aDLL_STAT n] s t :=
  ⟨State.bit_setBit_self (s.setBit (aDLL_STAT n) fDLL_STAT_LOCKING false) _ _ _ rfl (by decide),
    (State.bit_setBit_beside (s.setBit (aDLL_STAT n) fDLL_STAT_LOCKING false) _ fDLL_STAT_BALANCING fDLL_STAT_LOCKING true
      (by decide) (by decide) (by decide)).trans (State.bit_setBit_self s _ _ _ rfl (by decide)),
    ((KeepsRegs.refl _ s).setBit (a := aDLL_STAT n) (by simp) _ _).setBit (a := aDLL_STAT n) (by simp) _ _⟩

theorem exec_dllCompare_balances {pherr : BitVec 8} (hon : s.blkOn (64 + isl.val) = true)
    (hlock : s.bit (aISL_STAT isl.val) fISL_STAT_DLL_LOCK = false)
    (hbal : s.bit (aDLL_STAT isl.val) fDLL_STAT_BALANCING = false)
    (hlocking : s.bit (aDLL_STAT isl.val) fDLL_STAT_LOCKING = true)
    (hwithin : pherr.toInt.natAbs ≤ s.fld (aDLL_CFG isl.val) fDLL_CFG_LOCK_TOL)
    (hrun : Tab.get (fun _ => 0) s.dlls isl.val = 1023) :
    exec (.dllCompare isl pherr) s = .next ((s.dllCompared isl.val pherr).dllBalances isl.val) := by
  have hcfg := s.dllCompared_cfg isl.val pherr
  have hlock' := (s.dllCompared_lock isl.val pherr).trans hlock
  have hbal' := (s.dllCompared_bit isl.val pherr (f := fDLL_STAT_BALANCING) (by decide)).trans hbal
  have hlocking' := (s.dllCompared_bit isl.val pherr (f := fDLL_STAT_LOCKING) (by decide)).trans hlocking
  unfold State.dllCompared at hcfg hlock' hbal' hlocking'
  refine (if_neg (by rw [hon]; decide)).trans ((if_neg (by rw [hlock', hbal']; exact Bool.false_ne_true)).trans ((if_pos hlocking').trans
    (if_pos ?_)))
  have hstep : pherr.toInt.natAbs ≤ getF ((s.setFld (aDLL_STAT isl.val) fDLL_STAT_PHERR pherr.toNat).reg
      (aDLL_CFG isl.val)) fDLL_CFG_LOCK_TOL := by rw [hcfg]; exact hwithin
  rw [if_pos hstep]
  exact congrArg (· + 1) hrun

/-! ## The lock (R122) -/

/-- The phase-balance pass of an island ends, and its DLL is locked. -/
def State.dllLocks (s : State) (n : Nat) : State := (s.setBit (aDLL_STAT n) fDLL_STAT_BALANCING false).setDllLock n true

theorem State.dllLocks_shows (s : State) (n : Nat) : let t := s.dllLocks n
    t.bit (aISL_STAT n) fISL_STAT_DLL_LOCK = true ∧ t.bit (aDLL_STAT n) fDLL_STAT_LOCKED = true ∧
      t.bit (aDLL_STAT n) fDLL_STAT_BALANCING = false ∧ KeepsRegs [aISL_STAT n, aDLL_STAT n] s t := by
  intro t
  have hbal := State.bit_setBit_self s (aDLL_STAT n) fDLL_STAT_BALANCING false rfl (by decide)
  have hkeeps : KeepsRegs [aISL_STAT n, aDLL_STAT n] s (s.setBit (aDLL_STAT n) fDLL_STAT_BALANCING false) :=
    (KeepsRegs.refl _ s).setBit (by simp) _ _
  generalize hu : s.setBit (aDLL_STAT n) fDLL_STAT_BALANCING false = u at hbal hkeeps
  have ht : t = u.setDllLock n true := by rw [← hu]; rfl
  obtain ⟨hlock, hlocked, hset⟩ := u.setDllLock_shows n true
  rw [ht]
  refine ⟨hlock, hlocked, ?_, hkeeps.trans hset⟩
  refine (State.bit_setBit_beside _ _ fDLL_STAT_LOCKED fDLL_STAT_BALANCING _ (by decide) (by decide) (by decide)).trans ?_
  exact (State.bit_congr _ (State.reg_setReg_ne _ _ (aISL_STAT_ne_DLL_STAT n).symm)).trans hbal

theorem exec_dllLockDone_locks (hbal : s.bit (aDLL_STAT isl.val) fDLL_STAT_BALANCING = true) :
    exec (.dllLockDone isl) s = .next ((s.dllLocks isl.val).causeOff 35 isl.val) := if_pos hbal

end Sys2Proof.Machine
end

section
/-! TACs (R119, R125, R126): assignment, calibration, and O9. -/
namespace Sys2Proof.Machine

variable {s : State} {by_ : Issuer} {isl : Isl} {tac : Fin 2}

/-! ## Assignment (R119, R125) -/

/-- A write of TAC_CFG that is taken: of the state beside it, only open gates change. -/
theorem exec_tacCfgWrite_takes {en : Bool} {pin : BitVec 5} (hrole : s.inRole isl.val pin.toNat = true)
    (hfree : ¬ ((s.tac isl.val (1 - tac.val)).assigned = true ∧
      s.fld (aTAC_CFG isl.val (1 - tac.val)) fTAC_CFG_PIN = pin.toNat))
    (hcal : en = true → s.fld (aTAC_STAT isl.val tac.val) fTAC_STAT_RESULT = 1) :
    ∃ u, Does [.meas] [] s u ∧ exec (.tacCfgWrite by_ isl tac en pin) s =
      .next ((u.setReg (aTAC_CFG isl.val tac.val) (putF (fldWord fTAC_CFG_EN en.toNat) fTAC_CFG_PIN pin.toNat)).setTac
        isl.val tac.val { u.tac isl.val tac.val with assigned := true }) := by
  refine ⟨_, ?gates, if_neg ?taken⟩
  case taken =>
    simp only [Bool.or_eq_true, Bool.and_eq_true, Bool.not_eq_true', beq_iff_eq, bne_iff_ne, ne_eq]
    rintro ((h | h) | ⟨hen, h⟩)
    · rw [hrole] at h; cases h
    · exact hfree h
    · exact h (hcal hen)
  case gates =>
    have hspoil : ∀ (c : Prop) [Decidable c] (v : State) (p : Nat), Does [.meas] [] s v →
        Does [.meas] [] s (if c then v else v.spoilPin p pin.toNat) := fun c _ v p hv =>
      Does.ite (fun _ => hv) (fun _ => State.spoilPin_does.after hv)
    exact hspoil _ _ _ (Does.ite (fun _ => State.spoilPin_does) (fun _ => Does.refl))

theorem exec_tacCfgWrite_refused {en : Bool} {pin : BitVec 5}
    (h : s.inRole isl.val pin.toNat = false ∨
      ((s.tac isl.val (1 - tac.val)).assigned = true ∧ s.fld (aTAC_CFG isl.val (1 - tac.val)) fTAC_CFG_PIN = pin.toNat) ∨
      (en = true ∧ s.fld (aTAC_STAT isl.val tac.val) fTAC_STAT_RESULT ≠ 1)) :
    exec (.tacCfgWrite by_ isl tac en pin) s = .next (s.rejectVal by_ (aTAC_CFG isl.val tac.val)) := by
  refine if_pos ?_
  simp only [Bool.or_eq_true, Bool.and_eq_true, Bool.not_eq_true', beq_iff_eq, bne_iff_ne, ne_eq]
  exact or_assoc.mpr h

/-! ## Calibration (R126) -/

theorem exec_tacCal_starts (hoff : s.bit (aTAC_CFG isl.val tac.val) fTAC_CFG_EN = false)
    (hlock : s.bit (aISL_STAT isl.val) fISL_STAT_DLL_LOCK = true) :
    exec (.tacCal by_ isl tac) s = .next (s.latch (aTAC_STAT isl.val tac.val) fTAC_STAT_CALIBRATING) :=
  if_neg (by rw [hoff, hlock]; decide)

theorem exec_tacCal_refused (h : s.bit (aTAC_CFG isl.val tac.val) fTAC_CFG_EN = true ∨
      s.bit (aISL_STAT isl.val) fISL_STAT_DLL_LOCK = false) :
    exec (.tacCal by_ isl tac) s = .next (s.rejectVal by_ (aTAC_CMD isl.val tac.val)) :=
  if_pos (by
    rcases h with h | h
    · rw [h]; rfl
    · rw [h, Bool.not_false, Bool.or_true])

/-- TAC_STAT and TAC_GAIN after a calibration with a result. -/
def State.tacMeasured (s : State) (n k result : Nat) (empty : BitVec 11) (gain : BitVec 16) : State :=
  (s.setReg (aTAC_STAT n k) (putF (fldWord fTAC_STAT_RESULT result) fTAC_STAT_EMPTY (min 7 empty.toNat))).setReg
    (aTAC_GAIN n k) (gain.setWidth 32)

theorem State.tacMeasured_shows (s : State) (n k : Nat) {result : Nat} (hresult : result < 4) (empty : BitVec 11)
    (gain : BitVec 16) : let t := s.tacMeasured n k result empty gain
    t.fld (aTAC_STAT n k) fTAC_STAT_RESULT = result ∧ t.bit (aTAC_STAT n k) fTAC_STAT_CALIBRATING = false ∧
      t.reg (aTAC_GAIN n k) = gain.setWidth 32 ∧ KeepsRegs [aTAC_STAT n k, aTAC_GAIN n k] s t := by
  intro t
  have hne : aTAC_STAT n k ≠ aTAC_GAIN n k := by unfold aTAC_STAT aTAC_GAIN; omega
  have hstat : t.reg (aTAC_STAT n k) = putF (fldWord fTAC_STAT_RESULT result) fTAC_STAT_EMPTY (min 7 empty.toNat) :=
    (State.reg_setReg_ne _ _ hne).trans (State.reg_setReg_self _ _ _)
  have hbeside : ∀ g : Fld, g.hi < 8 ∨ 10 < g.lo → t.fld (aTAC_STAT n k) g = getF (fldWord fTAC_STAT_RESULT result) g :=
    fun g hg => (congrArg (getF · g) hstat).trans (getF_putF_ne _ _ _ _ (by decide) (by decide) hg)
  refine ⟨?_, ?_, State.reg_setReg_self _ _ _,
    ((KeepsRegs.refl _ s).setReg (a := aTAC_STAT n k) (by simp) _).setReg (a := aTAC_GAIN n k) (by simp) _⟩
  · rw [hbeside _ (by decide)]
    exact (getF_putF_self _ _ _ (by decide) (by decide)).trans (Nat.mod_eq_of_lt hresult)
  · unfold State.bit
    rw [hbeside _ (by decide), fldWord, getF_putF_ne _ _ _ _ (by decide) (by decide) (by decide)]
    decide

theorem exec_tacCalDone_passes {empty : BitVec 11} {gain : BitVec 16} {table : List (BitVec 13)}
    (hcal : s.bit (aTAC_STAT isl.val tac.val) fTAC_STAT_CALIBRATING = true) (hempty : empty.toNat ≤ 4)
    (hlow : 0x1CCD ≤ gain.toNat) (hhigh : gain.toNat ≤ 0x2333) :
    exec (.tacCalDone isl tac empty gain table) s =
      (let u := s.tacMeasured isl.val tac.val 1 empty gain
      .next ((u.setTac isl.val tac.val { u.tac isl.val tac.val with table := table }).causeOff 37
        (2 * isl.val + tac.val))) := by
  have hpass : (decide (empty.toNat ≤ 4) && decide (0x1CCD ≤ gain.toNat) && decide (gain.toNat ≤ 0x2333)) = true := by
    simp [hempty, hlow, hhigh]
  refine (if_neg (by rw [hcal]; decide)).trans ((if_pos hpass).trans ?_)
  rw [hpass]
  rfl

theorem exec_tacCalDone_fails {empty : BitVec 11} {gain : BitVec 16} {table : List (BitVec 13)}
    (hcal : s.bit (aTAC_STAT isl.val tac.val) fTAC_STAT_CALIBRATING = true)
    (hbad : 4 < empty.toNat ∨ gain.toNat < 0x1CCD ∨ 0x2333 < gain.toNat) :
    exec (.tacCalDone isl tac empty gain table) s =
      .next (((s.tacMeasured isl.val tac.val 2 empty gain).causeOn 37 (2 * isl.val + tac.val)).raise 37
        (Fin.ofNat 80 isl.val)) := by
  have hfail : (decide (empty.toNat ≤ 4) && decide (0x1CCD ≤ gain.toNat) && decide (gain.toNat ≤ 0x2333)) = false := by
    simp only [Bool.and_eq_false_iff, decide_eq_false_iff_not, not_le]
    exact or_assoc.mpr hbad
  refine (if_neg (by rw [hcal]; decide)).trans ((if_neg (by rw [hfail]; decide)).trans ?_)
  rw [hfail]
  rfl

/-! ## O9 -/

/-- Settles O9: the DLL's clauses are `State.dllLost_shows`, `State.dllBalances_shows` and `State.dllLocks_shows`, and those of
a TAC `exec_tacCfgWrite_takes` and `State.tacMeasured_shows`. -/
theorem dllAndTac : Obligations.DllAndTac := by
  unfold Obligations.DllAndTac
  refine ⟨fun by_ isl pherr s => ⟨fun hon hoff => ⟨_, exec_dllRelock_acquires hon hoff, ?relock⟩,
      fun c hdrv => ⟨_, exec_dllRelock_refused c hdrv, ?busy⟩,
      fun hon hlock hbeyond => ⟨_, exec_dllCompare_lost hon hlock hbeyond, ?lost⟩,
      fun hon hidle hwithin => ⟨_, exec_dllCompare_keeps hon hidle hwithin, ?keeps⟩,
      fun hon hlock hbal hlocking hwithin hrun => ⟨_, exec_dllCompare_balances hon hlock hbal hlocking hwithin hrun, ?balances⟩,
      fun hbal => ⟨_, exec_dllLockDone_locks hbal, ?locks⟩⟩,
    fun by_ isl tac en pin empty gain table s => ⟨fun hrole hfree hcal => ?takes,
      fun hbad => ⟨_, exec_tacCfgWrite_refused hbad, ?taken⟩,
      fun hoff hlock => ⟨_, exec_tacCal_starts hoff hlock, ?cal⟩, fun hbad => ⟨_, exec_tacCal_refused hbad, ?uncal⟩,
      fun hcal hempty hlow hhigh => ⟨_, exec_tacCalDone_passes hcal hempty hlow hhigh, ?passes⟩,
      fun hcal hbad => ⟨_, exec_tacCalDone_fails hcal hbad, ?fails⟩⟩⟩
  case relock =>
    obtain ⟨hlock, hdown⟩ := s.dllDown_shows isl.val
    obtain ⟨hlocking, hacquire⟩ := (s.dllDown isl.val).dllAcquire_shows isl.val
    have hdoes : Does [.meas, .dlls] [64] s ((s.dllDown isl.val).dllAcquire isl.val) :=
      State.dllAcquire_does.call (by decide) (State.dllDown_does.mono (by decide))
    exact ⟨(State.bit_congr _ (hacquire _ (List.mem_singleton.not.mpr (aISL_STAT_ne_DLL_STAT isl.val)))).trans hlock, hlocking,
      hdoes.same .agenda (by decide) (by decide), hdoes.same .causes (by decide) (by decide),
      hdown.trans (hacquire.mono (by simp)), .of_does hdoes (by decide)⟩
  case busy =>
    have href := s.rejectVal_refuses by_ isl (a := aDLL_CMD isl.val) (by unfold aDLL_CMD; omega)
    exact ⟨State.bit_congr _ (href.reg (by unfold aISL_STAT; omega)), href.latched, href.raised, href.keepsMemory⟩
  case lost =>
    obtain ⟨hlock, hoff, hloss, hcount, hmem⟩ := (s.dllCompared isl.val pherr).dllLost_shows isl.val
    have hcfg : (s.dllCompared isl.val pherr).reg (aDLL_LOSS isl.val) = s.reg (aDLL_LOSS isl.val) :=
      s.dllCompared_reg _ _ (by unfold aDLL_LOSS aDLL_STAT; omega)
    obtain ⟨hraises, hstands, hdoes⟩ := State.causeOn_raise (s := s) hcount 35 isl.val (Fin.ofNat 80 isl.val)
    have hreg := fun a => hdoes.regs (by decide) a (by simp)
    exact ⟨(State.bit_congr _ (hreg _)).trans hlock, fun c => (State.bit_congr _ (hreg _)).trans (hoff c.val c.isLt),
      by rw [← hcfg, ← hloss]; exact congrArg BitVec.toNat (hreg _), hraises, hstands,
      (hdoes.same .count (by decide) (by decide)).trans hcount, KeepsMemory.trans hmem (.of_does hdoes (by decide))⟩
  case keeps =>
    exact ⟨(State.fld_setFld_self s _ _ _ (by decide) (by decide)).trans (Nat.mod_eq_of_lt pherr.isLt), rfl,
      keepsRegs_setReg s _ _, .of_fields rfl rfl rfl⟩
  case balances =>
    obtain ⟨hbal, hlocking, hkeeps⟩ := (s.dllCompared isl.val pherr).dllBalances_shows isl.val
    exact ⟨hbal, hlocking, rfl, (keepsRegs_setReg s _ _).trans hkeeps, .of_fields rfl rfl rfl⟩
  case locks =>
    obtain ⟨hlock, hlocked, hbal, hkeeps⟩ := s.dllLocks_shows isl.val
    have hend : ∀ u : State, Does [.causes] [] u (u.causeOff 35 isl.val) := fun _ => State.causeOff_does
    have hreg := fun a => (hend (s.dllLocks isl.val)).regs (by decide) a (by simp)
    exact ⟨(State.bit_congr _ (hreg _)).trans hlock, (State.bit_congr _ (hreg _)).trans hlocked,
      (State.bit_congr _ (hreg _)).trans hbal, State.causeAt_causeOff _ 35 isl.val,
      hkeeps.trans (.of_does (hend _) (by decide) _), .of_fields rfl rfl rfl⟩
  case takes =>
    obtain ⟨u, hdoes, hexec⟩ := exec_tacCfgWrite_takes (by_ := by_) hrole hfree hcal
    refine ⟨_, hexec, State.reg_setReg_self u _ _, ?_, (KeepsRegs.of_does hdoes (by decide) _).setReg (by simp) _,
      KeepsMemory.trans (.of_does hdoes (by decide)) (.of_fields rfl rfl rfl)⟩
    rw [State.setTac_tac, if_pos rfl]
  case taken =>
    have href := s.rejectVal_refuses by_ isl (a := aTAC_CFG isl.val tac.val) (by unfold aTAC_CFG; omega)
    exact ⟨href.does.same .tacs (by decide) (by decide), href.reg (by unfold aTAC_CFG; omega), href.raised, href.keepsMemory⟩
  case cal =>
    exact ⟨s.bit_latch_self _ _ rfl (by decide), (KeepsRegs.refl _ s).latch (by simp) _, .of_fields rfl rfl rfl⟩
  case uncal =>
    have href := s.rejectVal_refuses by_ isl (a := aTAC_CMD isl.val tac.val) (by unfold aTAC_CMD; omega)
    exact ⟨href.reg (by unfold aTAC_STAT; omega), href.raised, href.keepsMemory⟩
  case passes =>
    obtain ⟨hresult, hidle, hgain, hkeeps⟩ := s.tacMeasured_shows isl.val tac.val (result := 1) (by decide) empty gain
    refine ⟨hresult, hgain, hidle, ?_, hkeeps, .of_fields rfl rfl rfl⟩
    exact congrArg Tac.table ((State.setTac_tac _ _ _ _ _ _).trans (if_pos rfl))
  case fails =>
    obtain ⟨hresult, -, hgain, hkeeps⟩ := s.tacMeasured_shows isl.val tac.val (result := 2) (by decide) empty gain
    obtain ⟨hraises, -, hdoes⟩ := State.causeOn_raise (s := s) (u := s.tacMeasured isl.val tac.val 2 empty gain) rfl 37
      (2 * isl.val + tac.val) (Fin.ofNat 80 isl.val)
    have hreg := fun a => hdoes.regs (by decide) a (by simp)
    exact ⟨(State.fld_congr _ (hreg _)).trans hresult, (hreg _).trans hgain, hraises,
      hdoes.same .tacs (by decide) (by decide), hkeeps.trans (.of_does hdoes (by decide) _),
      KeepsMemory.trans (t := s.tacMeasured isl.val tac.val 2 empty gain) (.of_fields rfl rfl rfl) (.of_does hdoes (by decide))⟩

end Sys2Proof.Machine
end

section
/-! Crossings and stamps (O10): the prescaler, the acceptance window, and the dead time after a stamp (R115 to R120). -/
namespace Sys2Proof.Machine

variable {s t : State} {isl : Isl} {pin : PinNo}

theorem State.stamper_congr (h : t.stampers = s.stampers) (n p : Nat) : t.stamper n p = s.stamper n p := by
  unfold State.stamper
  rw [h]

theorem State.setStamper_self (s : State) (n p : Nat) (x : Stamper) : (s.setStamper n p x).stamper n p = x := by
  rw [State.setStamper_stamper, if_pos rfl]

/-! ## STP_CFG (R115, R118) -/

theorem exec_stpCfgWrite_takes {by_ : Issuer} {data : Word} (hmode : getF data fSTP_CFG_WMODE ≠ 3)
    (hslope : getF data fSTP_CFG_SLOPE ≠ 3) (hraw : getF data fSTP_CFG_RAWFMT = 0) :
    exec (.stpCfgWrite by_ isl pin data) s =
      (let u := (s.spoilPin isl.val pin.val).setReg (aSTP_CFG isl.val pin.val) (data &&& 0x000323FF#32)
      .next (u.setStamper isl.val pin.val { u.stamper isl.val pin.val with eligible := 0 })) :=
  if_neg (by
    rintro (h | h | ⟨h, -⟩)
    · exact hmode h
    · exact hslope h
    · omega)

theorem exec_stpCfgWrite_refused {by_ : Issuer} {data : Word}
    (h : getF data fSTP_CFG_WMODE = 3 ∨ getF data fSTP_CFG_SLOPE = 3) :
    exec (.stpCfgWrite by_ isl pin data) s = .next (s.rejectVal by_ (aSTP_CFG isl.val pin.val)) :=
  if_pos (h.imp_right .inl)

/-! ## The prescaler (R115) -/

/-- A crossing of the slope that is not selected does nothing. -/
theorem exec_thresholdCrossing_unselected {slope : Slope} {time : Count} {code : BitVec 10}
    (hslope : s.fld (aSTP_CFG isl.val pin.val) fSTP_CFG_SLOPE = if slope = .rise then 1 else 0) :
    exec (.thresholdCrossing isl pin slope time code) s = .next s := by
  refine if_pos ?_
  rw [hslope]
  cases slope <;> simp

/-- With both slopes selected, an eligible crossing below the prescale count only counts. -/
theorem exec_thresholdCrossing_below {slope : Slope} {time : Count} {code : BitVec 10}
    (hon : s.blkOn (64 + isl.val) = true) (hslope : s.fld (aSTP_CFG isl.val pin.val) fSTP_CFG_SLOPE = 2)
    (hpresc : (s.stamper isl.val pin.val).eligible < s.fld (aSTP_CFG isl.val pin.val) fSTP_CFG_PRESC) :
    exec (.thresholdCrossing isl pin slope time code) s = .next (s.setStamper isl.val pin.val
      { s.stamper isl.val pin.val with eligible := (s.stamper isl.val pin.val).eligible + 1 }) :=
  (if_neg (by rw [hon, hslope]; simp)).trans (if_pos hpresc)

/-- The prescaler of a stamper starts again at a counted event. -/
def State.prescaled (s : State) (n p : Nat) : State := s.setStamper n p { s.stamper n p with eligible := 0 }

theorem State.prescaled_stamper (s : State) (n p : Nat) :
    (s.prescaled n p).stamper n p = { s.stamper n p with eligible := 0 } := s.setStamper_self _ _ _

/-- With both slopes selected, the crossing at the prescale count is a counted event. -/
theorem exec_thresholdCrossing_counted {slope : Slope} {time : Count} {code : BitVec 10}
    (hon : s.blkOn (64 + isl.val) = true) (hslope : s.fld (aSTP_CFG isl.val pin.val) fSTP_CFG_SLOPE = 2)
    (hpresc : s.fld (aSTP_CFG isl.val pin.val) fSTP_CFG_PRESC ≤ (s.stamper isl.val pin.val).eligible) :
    exec (.thresholdCrossing isl pin slope time code) s = .next ((s.prescaled isl.val pin.val).counted isl.val pin.val
      (decide (slope = .rise)) time code) :=
  (if_neg (by rw [hon, hslope]; simp)).trans (if_neg (Nat.not_lt.mpr hpresc))

/-! ## Counted events (R117, R118, R120) -/

/-- An event that is not stamped lengthens the gap since the latest stamp, and moves only measurement beside it. -/
theorem State.unstamped_shows (s : State) (n p : Nat) (time : Count) (flags : BitVec 8) :
    let t := s.unstamped n p time flags
    (t.stamper n p).last = (s.stamper n p).last ∧ Does [.meas, .stampers] [] s t := by
  refine ⟨?_, State.unstamped_does⟩
  unfold State.unstamped
  extract_lets x
  rw [State.stamper_congr (State.gateEvents_does.same .stampers (by decide) (by decide)), State.setStamper_self]

/-- An event that is not stamped, counted in a register of its stamper. -/
theorem State.bump_unstamped_shows (s : State) (n p a : Nat) (time : Count) (flags : BitVec 8) :
    let t := (s.bump a).unstamped n p time flags
    (t.stamper n p).last = (s.stamper n p).last ∧
      (t.reg a).toNat = min 0xFFFFFFFF ((s.reg a).toNat + 1) ∧ t.acq = s.acq ∧ KeepsRegs [a] s t ∧ KeepsMemory s t := by
  intro t
  obtain ⟨hlast, hdoes⟩ := (s.bump a).unstamped_shows n p time flags
  refine ⟨hlast, ?_, hdoes.same .acq (by decide) (by decide),
    ((KeepsRegs.refl _ s).bump (by simp)).trans (.of_does hdoes (by decide) _),
    KeepsMemory.trans (t := s.bump a) (.of_fields rfl rfl rfl) (.of_does hdoes (by decide))⟩
  rw [show t.reg a = (s.bump a).reg a from hdoes.regs (by decide) a (by simp), State.reg_bump_toNat]

/-- The dead time of a stamper in cycles: 60 on a TAC, 15 on the DLL (R120). -/
def State.deadTime (s : State) (n p : Nat) : Nat := if (s.tacOf n p).isSome then 60 else 15

/-- A TAC that serves a pin, or a locked DLL, stamps its events (R123, R125). -/
theorem not_unserved {tac : Option Nat} {lock : Bool} (h : tac.isSome = true ∨ lock = true) :
    ¬ (tac.isNone && !lock) = true := by
  rcases h with h | h
  · simp [Option.isSome_iff_ne_none.mp h]
  · simp [h]

variable {n p : Nat} {rise : Bool} {time : Count} {code : BitVec 10}

theorem State.counted_discarded (hwin : s.inWindow n p time = false) :
    s.counted n p rise time code = (s.bump (aSTP_WDISC n p)).unstamped n p time rfWDISC :=
  if_pos (by rw [hwin]; rfl)

theorem State.counted_lost (hwin : s.inWindow n p time = true)
    (hserved : (s.tacOf n p).isSome = true ∨ s.bit (aISL_STAT n) fISL_STAT_DLL_LOCK = true)
    {l : Count} (hlast : (s.stamper n p).last = some l) (hsoon : (time - l).toNat < 128 * s.deadTime n p) :
    s.counted n p rise time code = (s.bump (aSTP_LOST n p)).unstamped n p time rfLOST := by
  unfold State.counted
  extract_lets x tac gapCyc soon
  have hbusy : soon = true := by
    unfold soon x
    rw [hlast]
    exact decide_eq_true hsoon
  rw [if_neg (by rw [hwin]; decide), if_neg (not_unserved hserved), if_pos hbusy]

theorem State.counted_stamped (hwin : s.inWindow n p time = true)
    (hserved : (s.tacOf n p).isSome = true ∨ s.bit (aISL_STAT n) fISL_STAT_DLL_LOCK = true)
    (hfree : ∀ l, (s.stamper n p).last = some l → 128 * s.deadTime n p ≤ (time - l).toNat) :
    ∃ u, Does [.meas, .acq] [] (s.setStamper n p { s.stamper n p with last := some time, gap := 0 }) u ∧
      s.counted n p rise time code = u := by
  refine ⟨_, ?_, rfl⟩
  unfold State.counted
  extract_lets x tac gapCyc soon t16 stamp raw body word s1
  have hidle : soon = false := by
    unfold soon
    split
    · exact decide_eq_false (Nat.not_lt.mpr (hfree _ ‹_›))
    · rfl
  rw [if_neg (by rw [hwin]; decide), if_neg (not_unserved hserved), if_neg (by rw [hidle]; decide)]
  exact State.captureStamp_does.call (by decide) (State.gateEvents_does.mono (by decide))

/-! ## O10 -/

/-- Settles O10: a counted event outside the window, in the dead time or stamped is `State.counted_discarded`,
`State.counted_lost` or `State.counted_stamped`, after the prescaler has started again. -/
theorem stamping : Obligations.Stamping := by
  unfold Obligations.Stamping
  intro by_ isl pin data slope time code s
  have hx := s.prescaled_stamper isl.val pin.val
  have hx' : ((s.prescaled isl.val pin.val).stamper isl.val pin.val).last = (s.stamper isl.val pin.val).last := by rw [hx]
  refine ⟨fun hmode hslope hraw => ⟨_, exec_stpCfgWrite_takes hmode hslope hraw, ?takes⟩,
    fun hbad => ⟨_, exec_stpCfgWrite_refused hbad, ?refused⟩,
    fun hon hslope hpresc => ⟨_, exec_thresholdCrossing_below hon hslope hpresc, ?below⟩,
    fun hon hslope hpresc hwin => ⟨_, exec_thresholdCrossing_counted hon hslope hpresc, ?discarded⟩,
    fun hon hslope hpresc hwin hserved => ⟨fun hfree => ⟨_, exec_thresholdCrossing_counted hon hslope hpresc, ?stamped⟩,
      fun l hlast hsoon => ⟨_, exec_thresholdCrossing_counted hon hslope hpresc, ?lost⟩⟩,
    fun hslope => ⟨_, exec_thresholdCrossing_unselected hslope, rfl⟩⟩
  case takes =>
    have hspoil : Does [.meas] [] s (s.spoilPin isl.val pin.val) := State.spoilPin_does
    exact ⟨State.reg_setReg_self (s.spoilPin isl.val pin.val) _ _, congrArg Stamper.eligible (State.setStamper_self _ _ _ _),
      (KeepsRegs.of_does hspoil (by decide) _).setReg (by simp) _,
      KeepsMemory.trans (.of_does hspoil (by decide)) (.of_fields rfl rfl rfl)⟩
  case refused =>
    have href := s.rejectVal_refuses by_ isl (a := aSTP_CFG isl.val pin.val) (by unfold aSTP_CFG; omega)
    exact ⟨href.reg (by unfold aSTP_CFG; omega), href.does.same .stampers (by decide) (by decide),
      href.does.same .meas (by decide) (by decide), href.raised, href.keepsMemory⟩
  case below =>
    exact ⟨congrArg Stamper.eligible (s.setStamper_self _ _ _), rfl, rfl, .of_regs rfl _, .of_fields rfl rfl rfl⟩
  case discarded =>
    rw [State.counted_discarded (s := s.prescaled isl.val pin.val) hwin]
    obtain ⟨hlast, hcount, hacq, hkeeps, hmem⟩ :=
      (s.prescaled isl.val pin.val).bump_unstamped_shows isl.val pin.val (aSTP_WDISC isl.val pin.val) time rfWDISC
    exact ⟨hlast.trans hx', hcount, hacq, hkeeps, hmem⟩
  case stamped =>
    obtain ⟨u, hdoes, hu⟩ := State.counted_stamped (s := s.prescaled isl.val pin.val) (rise := decide (slope = .rise))
      (code := code) hwin hserved (fun l hl => hfree l (hx'.symm.trans hl))
    have hall : Does [.meas, .acq, .stampers] [] s u :=
      hdoes.call (by decide) (State.setStamper_does.call (by decide) (State.setStamper_does.mono (by decide)))
    rw [hu]
    refine ⟨?_, .of_does hall (by decide) _, .of_does hall (by decide)⟩
    rw [State.stamper_congr (hdoes.same .stampers (by decide) (by decide)), State.setStamper_self, hx]
  case lost =>
    rw [State.counted_lost (s := s.prescaled isl.val pin.val) hwin hserved (hx'.trans hlast) hsoon]
    obtain ⟨hlast', hcount, hacq, hkeeps, hmem⟩ :=
      (s.prescaled isl.val pin.val).bump_unstamped_shows isl.val pin.val (aSTP_LOST isl.val pin.val) time rfLOST
    exact ⟨hlast'.trans (hx'.trans hlast), hcount, hacq, hkeeps, hmem⟩

end Sys2Proof.Machine
end

section
/-! Measurement units (O11): enable, disable and APPLY (R130, R137, R171). -/
namespace Sys2Proof.Machine

variable {s t : State} {isl : Isl} {unit : UnitNo}

theorem State.setMu_self (s : State) (n u : Nat) (x : Meas) : (s.setMu n u x).mu n u = x := by
  rw [State.setMu_mu, if_pos rfl]

/-- A quantity of several words reads its registers and nothing else. -/
theorem State.wide_congr {a k : Nat} (h : ∀ i < k, t.reg (a + 4 * i) = s.reg (a + 4 * i)) : t.wide a k = s.wide a k := by
  induction k generalizing a with
  | zero => rfl
  | succ k ih =>
    have hrest : t.wide (a + 4) k = s.wide (a + 4) k := ih (fun i hi => by
      have := h (i + 1) (by omega)
      rwa [show a + 4 * (i + 1) = a + 4 + 4 * i by omega] at this)
    have hhead : t.reg a = s.reg a := h 0 (by omega)
    unfold State.wide
    rw [hrest, hhead]

/-- The grid of a unit's gates reads GATE, HOP and GPH and nothing else. -/
theorem State.firstGate_congr {n u : Nat} (hgate : t.reg (aMU_GATE n u) = s.reg (aMU_GATE n u))
    (hhigh : t.reg (aMU_GATE n u + 4) = s.reg (aMU_GATE n u + 4)) (hhop : t.reg (aMU_HOP n u) = s.reg (aMU_HOP n u))
    (hgph : t.reg (aMU_GPH n u) = s.reg (aMU_GPH n u)) (c : Count) : t.firstGate n u c = s.firstGate n u c := by
  have hwide : t.wide (aMU_GATE n u) 2 = s.wide (aMU_GATE n u) 2 := State.wide_congr (fun i hi => by
    rcases (by omega : i = 0 ∨ i = 1) with rfl | rfl
    · exact hgate
    · exact hhigh)
  unfold State.firstGate State.muGate State.muHop State.muGph
  rw [hwide, State.fld_congr _ hhop, State.fld_congr _ hgph]

/-! ## Enable (R130, R171) -/

/-- HOP, GATE and GPH of a unit are legal (R130). -/
def State.gridLegal (s : State) (n u : Nat) : Prop :=
  750 ≤ s.muHop n u ∧ 750 ≤ s.muGate n u ∧ s.muGate n u ≤ 15000000000 ∧ s.muGate n u ≤ 4 * s.muHop n u ∧
    s.muGph n u < s.muHop n u

theorem State.gridLegal_iff (s : State) (n u : Nat) : s.gridLegal n u ↔ (decide (750 ≤ s.muHop n u) &&
    decide (750 ≤ s.muGate n u) && decide (s.muGate n u ≤ 15000000000) && decide (s.muGate n u ≤ 4 * s.muHop n u) &&
    decide (s.muGph n u < s.muHop n u)) = true := by
  simp only [State.gridLegal, Bool.and_eq_true, decide_eq_true_eq, and_assoc]

/-- A unit that starts: EN reads 1, and its gates begin on the grid from its due time. -/
theorem State.muStart_shows (s : State) (n u : Nat) (c : Count) : let t := s.muStart n u c
    t.bit (aMU_CTL n u) fMU_CTL_EN = true ∧
      t.mu n u = { s.mu n u with next := some (s.firstGate n u c), gates := [], valid := false } ∧
      KeepsRegs [aMU_CTL n u] s t := by
  intro t
  let s1 := s.latch (aMU_CTL n u) fMU_CTL_EN
  have hreg : ∀ a, t.reg a = s1.reg a := fun a => State.dropQuant_does.regs (by decide) a (by simp)
  have hgrid : s1.firstGate n u c = s.firstGate n u c := by
    refine State.firstGate_congr ?_ ?_ ?_ ?_ c <;>
      exact State.reg_latch_ne _ _ (by simp only [aMU_GATE, aMU_HOP, aMU_GPH, aMU_CTL]; omega)
  refine ⟨(State.bit_congr _ (hreg _)).trans (s.bit_latch_self _ _ rfl (by decide)), ?_,
    (keepsRegs_setReg s _ _).trans (fun a _ => hreg a)⟩
  refine (State.mu_congr (State.dropQuant_does.same .meas (by decide) (by decide)) n u).trans ?_
  rw [State.setMu_self, hgrid]
  rfl

theorem exec_muEnWrite_enables {by_ : Issuer} (hoff : s.bit (aMU_CTL isl.val unit.val) fMU_CTL_EN = false)
    (hlegal : s.gridLegal isl.val unit.val) (htwin : s.twin ≠ twActive ∧ s.twin ≠ twJoining ∧ s.twin ≠ twStandby) :
    exec (.muEnWrite by_ isl unit true) s = .next (s.muStart isl.val unit.val s.at).showCharge :=
  (if_neg (by rw [hoff]; decide)).trans ((if_neg (by rw [(s.gridLegal_iff _ _).mp hlegal]; decide)).trans (if_neg (by
    rintro ⟨h | h | h, -⟩
    · exact htwin.1 h
    · exact htwin.2.1 h
    · exact htwin.2.2 h)))

theorem exec_muEnWrite_refused {by_ : Issuer} (hoff : s.bit (aMU_CTL isl.val unit.val) fMU_CTL_EN = false)
    (hbad : ¬ s.gridLegal isl.val unit.val) :
    exec (.muEnWrite by_ isl unit true) s = .next (s.rejectVal by_ (aMU_CTL isl.val unit.val)) :=
  (if_neg (by rw [hoff]; decide)).trans
    (if_pos (by rw [Bool.eq_false_iff.mpr (fun h => hbad ((s.gridLegal_iff _ _).mpr h))]; rfl))

/-! ## Disable (R130) -/

theorem State.muOff_shows (s : State) (n u : Nat) : let t := s.muOff n u
    t.bit (aMU_CTL n u) fMU_CTL_EN = false ∧ t.mu n u = { s.mu n u with next := none, gates := [], valid := false } ∧
      KeepsRegs [aMU_CTL n u] s t := by
  intro t
  have hreg : ∀ a, t.reg a = (s.setBit (aMU_CTL n u) fMU_CTL_EN false).reg a := fun a =>
    State.dropQuant_does.regs (by decide) a (by simp)
  refine ⟨(State.bit_congr _ (hreg _)).trans (s.bit_setBit_self _ _ _ rfl (by decide)), ?_,
    (keepsRegs_setReg s _ _).trans (fun a _ => hreg a)⟩
  exact (State.mu_congr (State.dropQuant_does.same .meas (by decide) (by decide)) n u).trans (State.setMu_self _ _ _ _)

/-! ## O11 -/

theorem aMU_CTL_ne_TWN_SHIPR (n u : Nat) : aMU_CTL n u ≠ aTWN_SHIPR := by unfold aMU_CTL aTWN_SHIPR; omega

/-- What a unit shows stays when TWN_SHIPR follows. -/
theorem State.showCharge_shows (s : State) (n u : Nat) : let t := s.showCharge
    t.bit (aMU_CTL n u) fMU_CTL_EN = s.bit (aMU_CTL n u) fMU_CTL_EN ∧ t.mu n u = s.mu n u ∧ KeepsRegs [aTWN_SHIPR] s t :=
  ⟨State.bit_congr _ (State.reg_setReg_ne _ _ (aMU_CTL_ne_TWN_SHIPR n u)), rfl, keepsRegs_setReg s _ _⟩

/-- Settles O11: an enable is `State.muStart_shows`, a disable `State.muOff_shows`, and APPLY holds the registers' target. -/
theorem measurementUnits : Obligations.MeasurementUnits := by
  unfold Obligations.MeasurementUnits
  intro by_ isl unit s legal
  refine ⟨fun hoff hlegal htwin => ⟨_, exec_muEnWrite_enables hoff hlegal htwin, ?enables⟩,
    fun hoff hbad => ⟨_, exec_muEnWrite_refused hoff hbad, ?refused⟩, ⟨_, rfl, ?disables⟩, ⟨_, rfl, ?applies⟩⟩
  case enables =>
    obtain ⟨hon, hmu, hkeeps⟩ := s.muStart_shows isl.val unit.val s.at
    obtain ⟨hshow, hsame, hcharge⟩ := (s.muStart isl.val unit.val s.at).showCharge_shows isl.val unit.val
    rw [hsame, hmu]
    exact ⟨hshow.trans hon, rfl, rfl, rfl, (hkeeps.mono (by simp)).trans (hcharge.mono (by simp)),
      .of_does (State.showCharge_does.call (qs := [.fresh, .meas, .quants, .ships]) (cs := [14, 64]) (by decide)
        (State.muStart_does.mono (by decide))) (by decide)⟩
  case refused =>
    have href := s.rejectVal_refuses by_ isl (a := aMU_CTL isl.val unit.val) (by unfold aMU_CTL; omega)
    exact ⟨(State.bit_congr _ (href.reg (by unfold aMU_CTL; omega))).trans hoff, href.latched, href.raised,
      href.does.same .meas (by decide) (by decide), href.keepsMemory⟩
  case disables =>
    obtain ⟨hoff, hmu, hkeeps⟩ := s.muOff_shows isl.val unit.val
    obtain ⟨hshow, hsame, hcharge⟩ := (s.muOff isl.val unit.val).showCharge_shows isl.val unit.val
    rw [hsame, hmu]
    exact ⟨hshow.trans hoff, rfl, rfl, (hkeeps.mono (by simp)).trans (hcharge.mono (by simp)),
      .of_does (State.showCharge_does.call (qs := [.meas, .quants, .ships]) (cs := [14, 64]) (by decide)
        (State.muOff_does.mono (by decide))) (by decide)⟩
  case applies =>
    exact ⟨congrArg Meas.apply (State.setMu_self _ _ _ _), .of_regs rfl _, .of_fields rfl rfl rfl⟩

end Sys2Proof.Machine
end

section
/-! The gate that ends (R130 to R137): which result its unit gives, and of which state. -/
namespace Sys2Proof.Machine

variable {s t : State}

/-! ## Gates that open (R130) -/

/-- A unit's gates opened up to a count change its gates and the start of the next one alone. -/
theorem Meas.open_eq (x : Meas) (gate hop : Nat) (now : Count) (k : Nat) :
    ∃ gates next, x.open gate hop now k = { x with gates := gates, next := next } := by
  induction k generalizing x with
  | zero => exact ⟨_, _, rfl⟩
  | succ k ih =>
    unfold Meas.open
    split
    · exact ⟨_, _, rfl⟩
    · split
      · obtain ⟨gates, next, h⟩ := ih { x with
          gates := x.gates ++ [{ start := _, stop := _ + cyc gate }], next := some (_ + cyc hop) }
        exact ⟨gates, next, h⟩
      · exact ⟨_, _, rfl⟩

/-- The state with a unit's gates opened up to now, and of them those given left. -/
def State.gateTaken (s : State) (n u : Nat) (gs : List Gate) : State :=
  (s.openGates n u s.count).setMu n u { (s.openGates n u s.count).mu n u with gates := gs }

theorem State.gateTaken_mu (s : State) (n u : Nat) (gs : List Gate) :
    ∃ next, (s.gateTaken n u gs).mu n u = { s.mu n u with gates := gs, next := next } := by
  obtain ⟨gates, next, hopen⟩ := (s.mu n u).open_eq (s.muGate n u) (s.muHop n u) s.count 8
  refine ⟨next, (State.setMu_self _ _ _ _).trans ?_⟩
  rw [show (s.openGates n u s.count).mu n u = _ from State.setMu_self _ _ _ _, hopen]

theorem State.gateTaken_does (s : State) (n u : Nat) (gs : List Gate) : Does [.meas] [] s (s.gateTaken n u gs) :=
  State.setMu_does.after State.openGates_does

/-- Without an APPLY that waits, none is taken (R137). -/
theorem State.takeApply_none {n u : Nat} (h : (s.mu n u).apply = none) (stop : Count) : s.takeApply n u stop = s := by
  unfold State.takeApply
  extract_lets x
  split
  · next heq => cases heq.symm.trans h
  · rfl

/-! ## What a gate gives (R132, R135, R136) -/

/-- The flags of a STALE result of a gate. -/
def Gate.staleFlags (g : Gate) (slewing : Bool) : BitVec 8 :=
  rfSTALE ||| (g.flags &&& (rfWDISC ||| rfLOST ||| rfTAC)) ||| (if slewing then rfSLEWING else 0)

/-- The flags of a result that a gate computes. -/
def Gate.validFlags (g : Gate) (sat slewing : Bool) : BitVec 8 :=
  rfVALID ||| (g.flags &&& (rfWDISC ||| rfLOST ||| rfTAC)) ||| (if sat then rfSAT else 0) |||
    (if slewing then rfSLEWING else 0)

/-- A STALE result reads STALE and not VALID. -/
theorem Gate.staleFlags_reads (g : Gate) (slewing : Bool) :
    (g.staleFlags slewing).getLsbD 1 = true ∧ (g.staleFlags slewing).getLsbD 0 = false := by
  cases slewing <;> simp [Gate.staleFlags]

/-- A computed result reads VALID and not STALE. -/
theorem Gate.validFlags_reads (g : Gate) (sat slewing : Bool) :
    (g.validFlags sat slewing).getLsbD 1 = false ∧ (g.validFlags sat slewing).getLsbD 0 = true := by
  cases sat <;> cases slewing <;> simp [Gate.validFlags]

/-- The regression's frequency of a gate under the registers of its unit and pin, unsaturated (R132). -/
def State.gateRaw (s : State) (n u : Nat) (g : Gate) : Int :=
  let cfg := s.reg (aSTP_CFG n (if u = 8 then 24 else s.fld (aMU_BIND n u) fMU_BIND_PIN))
  gateFreq g (getF cfg fSTP_CFG_PRESC + 1) (if getF cfg fSTP_CFG_SLOPE = 2 then 2 else 1)

/-- The frequency cut to 56 bits. -/
def State.gateF (s : State) (n u : Nat) (g : Gate) : BitVec 56 :=
  BitVec.ofInt 56 (clampInt 0 (2 ^ 56 - 1 : Nat) (s.gateRaw n u g))

/-- The value under a unit's scale and blend, unsaturated (R136, R361). -/
def State.gateY (s : State) (n u : Nat) (g : Gate) (x : Meas) : Int :=
  unitRound (x.base.scaled (s.gateF n u g) + x.blend * (2 ^ 96 : Nat))

/-- A unit with a gate's frequency and value. -/
def State.gateValued (s : State) (n u : Nat) (g : Gate) (x : Meas) : State :=
  (s.setMu n u { x with f := s.gateF n u g, y := BitVec.ofInt 32 (sat32 (s.gateY n u g x)) }).setBit (aMU_STAT n u)
    fMU_STAT_SLEWING x.goal.isSome

theorem State.gateValued_mu (s : State) (n u : Nat) (g : Gate) (x : Meas) : (s.gateValued n u g x).mu n u =
    { x with f := s.gateF n u g, y := BitVec.ofInt 32 (sat32 (s.gateY n u g x)) } := State.setMu_self _ _ _ _

theorem State.gateValued_does (s : State) (n u : Nat) (g : Gate) (x : Meas) :
    Does [.meas] [64] s (s.gateValued n u g x) :=
  Does.setBit adr_MU_STAT (by decide) (State.setMu_does.mono (by decide))

/-- Of the registers, a value changes SLEWING alone. -/
theorem State.gateValued_rcnt (s : State) (n u : Nat) (g : Gate) (x : Meas) :
    (s.gateValued n u g x).reg (aMU_RCNT n u) = s.reg (aMU_RCNT n u) :=
  State.reg_setReg_ne _ _ (by unfold aMU_RCNT aMU_STAT; omega)

/-- A unit's gate gives a computed result: SAT where the frequency or the value is cut (R132, R135, R136). -/
def State.gateResult (s : State) (n u : Nat) (g : Gate) (x : Meas) : State :=
  let sat := decide (sat32 (s.gateY n u g x) ≠ s.gateY n u g x)
  let cut := decide (clampInt 0 (2 ^ 56 - 1 : Nat) (s.gateRaw n u g) ≠ s.gateRaw n u g)
  (s.gateValued n u g x).giveResult n u (s.gateF n u g) (BitVec.ofInt 32 (sat32 (s.gateY n u g x)))
    (g.validFlags (sat || cut) x.goal.isSome) g.cnt sat (g.stop + 16384)

/-- The result that a gate computes reads the registers of its unit and pin. -/
theorem State.gateF_congr (h : ∀ a, t.reg a = s.reg a) (n u : Nat) (g : Gate) : t.gateF n u g = s.gateF n u g := by
  unfold State.gateF State.gateRaw State.fld
  simp only [h]

/-- Without a goal, the blend of a unit does not move (R361). -/
theorem Meas.moveBlend_none {x : Meas} (h : x.goal = none) (f : BitVec 56) (step : Nat) : x.moveBlend f step = x := by
  unfold Meas.moveBlend
  rw [h]

/-! ## The gate that ends (R132 to R137) -/

section
variable {isl : Isl} {unit : UnitNo} {g : Gate} {gs : List Gate}
  (hgates : ((s.openGates isl.val unit.val s.count).mu isl.val unit.val).gates = g :: gs)
  (hend : Count.before s.count g.stop = false) (happly : (s.mu isl.val unit.val).apply = none)
include happly

/-- The gate taken, no APPLY stands in the way. -/
theorem State.gateTaken_apply : ((s.openGates isl.val unit.val s.count).setMu isl.val unit.val
    { (s.openGates isl.val unit.val s.count).mu isl.val unit.val with gates := gs }).takeApply isl.val unit.val g.stop =
    s.gateTaken isl.val unit.val gs := by
  obtain ⟨next, hmu⟩ := s.gateTaken_mu isl.val unit.val gs
  exact State.takeApply_none (s := s.gateTaken isl.val unit.val gs) (by rw [hmu]; exact happly) _

include hgates hend

/-- A gate with fewer stamps than MIN_N gives a STALE result of the latest frequency and value. -/
theorem exec_gateEnd_stale (hfew : g.cnt < s.fld (aMU_CFG isl.val unit.val) fMU_CFG_MIN_N) :
    exec (.gateEnd isl unit) s = .next ((s.gateTaken isl.val unit.val gs).giveResult isl.val unit.val
      (s.mu isl.val unit.val).f (s.mu isl.val unit.val).y (g.staleFlags (s.mu isl.val unit.val).goal.isSome) g.cnt false
      (g.stop + 16384)) := by
  obtain ⟨next, hmu⟩ := s.gateTaken_mu isl.val unit.val gs
  have hmin : (s.gateTaken isl.val unit.val gs).fld (aMU_CFG isl.val unit.val) fMU_CFG_MIN_N =
      s.fld (aMU_CFG isl.val unit.val) fMU_CFG_MIN_N :=
    State.fld_congr _ ((s.gateTaken_does _ _ gs).regs (by decide) _ (by simp))
  have hrun : exec (.gateEnd isl unit) s = .next (let v := s.gateTaken isl.val unit.val gs
      v.giveResult isl.val unit.val (v.mu isl.val unit.val).f (v.mu isl.val unit.val).y
        (g.staleFlags (v.mu isl.val unit.val).goal.isSome) g.cnt false (g.stop + 16384)) := by
    show execGateEnd isl unit s = _
    unfold execGateEnd
    extract_lets n v s0
    rw [hgates]
    refine (if_neg (by rw [hend]; decide)).trans ?_
    rw [State.gateTaken_apply happly]
    refine if_pos ?_
    rw [hmin, decide_eq_true hfew, Bool.or_true, Bool.true_or]
  dsimp only at hrun
  rw [hrun, hmu]

/-- A gate with stamps enough gives the regression's frequency and its value. -/
theorem exec_gateEnd_value (hfresh : g.stale = false) (hcnt : s.fld (aMU_CFG isl.val unit.val) fMU_CFG_MIN_N ≤ g.cnt)
    (hden : g.cnt * g.stt - g.st * g.st ≠ 0) (hgoal : (s.mu isl.val unit.val).goal = none) :
    let v := s.gateTaken isl.val unit.val gs
    exec (.gateEnd isl unit) s = .next (v.gateResult isl.val unit.val g (v.mu isl.val unit.val)) := by
  intro v
  obtain ⟨next, hmu⟩ := s.gateTaken_mu isl.val unit.val gs
  have hgoal' : (v.mu isl.val unit.val).goal = none := by unfold v; rw [hmu]; exact hgoal
  have hmin : v.fld (aMU_CFG isl.val unit.val) fMU_CFG_MIN_N = s.fld (aMU_CFG isl.val unit.val) fMU_CFG_MIN_N :=
    State.fld_congr _ ((s.gateTaken_does _ _ gs).regs (by decide) _ (by simp))
  have hrun : exec (.gateEnd isl unit) s = .next (v.gateResult isl.val unit.val g ((v.mu isl.val unit.val).moveBlend
      (v.gateF isl.val unit.val g) (v.slewStep (v.slewQty isl.val unit.val) (v.muHop isl.val unit.val)))) := by
    show execGateEnd isl unit s = _
    unfold execGateEnd
    extract_lets n k s0
    rw [hgates]
    refine (if_neg (by rw [hend]; decide)).trans ?_
    rw [State.gateTaken_apply happly]
    refine if_neg ?_
    rw [hmin, hfresh, decide_eq_false (Nat.not_lt.mpr hcnt), decide_eq_false hden]
    decide
  rw [hrun, Meas.moveBlend_none hgoal']

end

end Sys2Proof.Machine
end

section
/-! A result of a unit (R133, R135): what it counts, and its way to the islands that it is due at. -/
namespace Sys2Proof.Machine

variable {s t : State}

/-- No sequence runs on the quadrant, so none ends on a STALE result (R364). -/
theorem State.seqStale_of_idle {n : Nat} (h : s.seqRuns (n / 16) = false) (u : Nat) : s.seqStale n u = s :=
  if_neg (by rw [h]; exact Bool.false_ne_true)

/-- What is sent to an island within the ford's latency is held there. -/
theorem State.issue_holds {src : Fin 80} {dst : Nat} {due : Count} {kind : Nat} {a : Act}
    (h : Count.upto (s.count + cyc 64) (Count.cycleStart due) = true) :
    (⟨due, .island src, a⟩ : Due) ∈ (s.issue src dst due kind a).agenda := by
  unfold State.issue
  extract_lets lat s0
  rw [if_pos h, State.hold_agenda]
  exact (mem_insertDue _ _ _).mpr (.inl rfl)

/-! ## Counts and latches (R133, R135, R451) -/

/-- The registers and latches of a unit at a result: RCNT, N, SCNT and LAT, with FS 36 and FS 39 at the first of a run. -/
def State.resultShown (s : State) (n u : Nat) (flags : BitVec 8) (cnt : Nat) (ySat : Bool) : State :=
  let isl : Fin 80 := Fin.ofNat 80 n
  let stale := flags.getLsbD 1
  let lost := flags.getLsbD 3
  let x := s.mu n u
  let s1 := (s.bump (aMU_RCNT n u)).setReg (aMU_N n u) (BitVec.ofNat 32 (cnt % 2 ^ 30))
  let s2 := if stale then s1.bump (aMU_SCNT n u) else s1
  let w := fldWord fMU_LAT_STALE stale.toNat ||| fldWord fMU_LAT_WDISC (flags.getLsbD 2).toNat
    ||| fldWord fMU_LAT_LOST lost.toNat ||| fldWord fMU_LAT_SAT (flags.getLsbD 4).toNat
  let s3 := (s2.setReg (aMU_LAT n u) (s2.reg (aMU_LAT n u) ||| w)).mark (aMU_LAT n u) w
  let s4 := if lost && !x.lostRun then s3.raise 36 isl else s3
  if ySat && !x.satRun then s4.raise 39 isl else s4

/-- The length of the run of STALE results that a result is the last of. -/
def Meas.runAfter (x : Meas) (flags : BitVec 8) : Nat := if flags.getLsbD 1 then x.staleRun + 1 else 0

/-- A unit's state after a result: its runs. -/
def State.resultRun (s : State) (n u : Nat) (flags : BitVec 8) (ySat : Bool) (run : Nat) : State :=
  s.setMu n u { s.mu n u with staleRun := run, lostRun := flags.getLsbD 3, satRun := ySat }

/-- SENSE_LOSS after a result (R133). -/
def State.resultJudged (s : State) (n u : Nat) (y : BitVec 32) (flags : BitVec 8) (due : Count) (run : Nat) : State :=
  if flags.getLsbD 1 then
    (if s.fld (aMU_CFG n u) fMU_CFG_LOSS_N ≤ run ∧ s.bit (aMU_STAT n u) fMU_STAT_SENSE_LOSS = false then
      (s.senseLoss n u y due) else s)
  else (s.setFld (aMU_STAT n u) fMU_STAT_SENSE_LOSS 0).causeOff 38 (9 * n + u)

/-- A result shipped, seen at the loop engines and sent to acquisition. -/
def State.resultSent (s : State) (n u : Nat) (f : BitVec 56) (y : BitVec 32) (flags : BitVec 8) (due : Count) : State :=
  ((s.loopSees n u due).shipResult n u y flags due).issue (Fin.ofNat 80 n) 74 due 3
    (.cmd (.resultDue (Fin.ofNat 64 n) (Fin.ofNat 9 u) f y flags))

section
variable {n u : Nat}

theorem State.resultShown_rcnt (s : State) (flags : BitVec 8) (cnt : Nat) (ySat : Bool) :
    ((s.resultShown n u flags cnt ySat).reg (aMU_RCNT n u)).toNat = min 0xFFFFFFFF ((s.reg (aMU_RCNT n u)).toNat + 1) := by
  rw [← s.reg_bump_toNat]
  refine congrArg BitVec.toNat ?_
  have hn : aMU_RCNT n u ≠ aMU_N n u := by unfold aMU_RCNT aMU_N; omega
  have hscnt : aMU_RCNT n u ≠ aMU_SCNT n u := by unfold aMU_RCNT aMU_SCNT; omega
  have hlat : aMU_RCNT n u ≠ aMU_LAT n u := by unfold aMU_RCNT aMU_LAT; omega
  have hraise : ∀ (c : Bool) (v : State) fs isl, (if c then v.raise fs isl else v).reg (aMU_RCNT n u) = v.reg (aMU_RCNT n u) := by
    intro c v fs isl
    cases c <;> rfl
  unfold State.resultShown
  extract_lets isl stale lost x s1 s2 w s3 s4
  have h2 : s2.reg (aMU_RCNT n u) = s1.reg (aMU_RCNT n u) := by
    unfold s2
    split
    · exact State.reg_bump_ne _ hscnt
    · rfl
  calc _ = s3.reg (aMU_RCNT n u) := (hraise _ _ _ _).trans (hraise _ _ _ _)
    _ = s2.reg (aMU_RCNT n u) := State.reg_setReg_ne _ _ hlat
    _ = s1.reg (aMU_RCNT n u) := h2
    _ = _ := State.reg_setReg_ne _ _ hn

theorem State.resultShown_does (s : State) (flags : BitVec 8) (cnt : Nat) (ySat : Bool) :
    Does [.agenda, .fresh] [64] s (s.resultShown n u flags cnt ySat) := by
  unfold State.resultShown
  extract_lets isl stale lost x s1 s2 w s3 s4
  have h1 : Does [.agenda, .fresh] [64] s s1 := Does.setReg adr_MU_N (by decide) (Does.bump adr_MU_RCNT (by decide) Does.refl)
  have h2 : Does [.agenda, .fresh] [64] s s2 := Does.ite (fun _ => Does.bump adr_MU_SCNT (by decide) h1) (fun _ => h1)
  have h3 : Does [.agenda, .fresh] [64] s s3 := State.mark_does.call (by decide) (Does.setReg adr_MU_LAT (by decide) h2)
  have h4 : Does [.agenda, .fresh] [64] s s4 := Does.ite (fun _ => State.raise_does.call (by decide) h3) (fun _ => h3)
  exact Does.ite (fun _ => State.raise_does.call (by decide) h4) (fun _ => h4)

/-! ## Sense loss (R133) -/

/-- Sense loss writes MU_STAT and MU_LAT of its unit, and of other blocks what an action sent across a ford may write. -/
theorem State.senseLoss_rcnt (s : State) (y : BitVec 32) (due : Count) :
    (s.senseLoss n u y due).reg (aMU_RCNT n u) = s.reg (aMU_RCNT n u) := by
  have hstat : aMU_RCNT n u ≠ aMU_STAT n u := by unfold aMU_RCNT aMU_STAT; omega
  have hlat : aMU_RCNT n u ≠ aMU_LAT n u := by unfold aMU_RCNT aMU_LAT; omega
  have hblk : regBlk (aMU_RCNT n u) ∉ [1, 3] := by rw [adr_MU_RCNT.here]; decide
  unfold State.senseLoss
  extract_lets isl s1 s2
  have hcause : Does [.agenda, .causes] [] ((s.latch (aMU_STAT n u) fMU_STAT_SENSE_LOSS).latch (aMU_LAT n u) fMU_LAT_SENSE)
      s1 := State.raise_does.call (by decide) (State.causeOn_does.mono (by decide))
  have h2 : s2.reg (aMU_RCNT n u) = s1.reg (aMU_RCNT n u) := by
    unfold s2
    split
    · exact State.postAt_does.regs (by decide) _ hblk
    · rfl
  calc _ = s2.reg (aMU_RCNT n u) := State.excursion_does.regs (by decide) _ hblk
    _ = s1.reg (aMU_RCNT n u) := h2
    _ = ((s.latch (aMU_STAT n u) fMU_STAT_SENSE_LOSS).latch (aMU_LAT n u) fMU_LAT_SENSE).reg (aMU_RCNT n u) :=
      hcause.regs (by decide) _ (by simp)
    _ = _ := (State.reg_latch_ne _ _ hlat).trans (State.reg_latch_ne _ _ hstat)

theorem State.resultJudged_rcnt (s : State) (y : BitVec 32) (flags : BitVec 8) (due : Count) (run : Nat) :
    (s.resultJudged n u y flags due run).reg (aMU_RCNT n u) = s.reg (aMU_RCNT n u) := by
  have hstat : aMU_RCNT n u ≠ aMU_STAT n u := by unfold aMU_RCNT aMU_STAT; omega
  unfold State.resultJudged
  split
  · split
    · exact s.senseLoss_rcnt y due
    · rfl
  · exact (State.causeOff_does.regs (by decide) _ (by simp)).trans (State.reg_setFld_ne _ _ _ hstat)

theorem State.resultJudged_does (s : State) (y : BitVec 32) (flags : BitVec 8) (due : Count) (run : Nat) :
    Does [.agenda, .causes, .free, .fresh] [1, 3, 64] s (s.resultJudged n u y flags due run) :=
  Does.ite (fun _ => Does.ite (fun _ => State.senseLoss_does) (fun _ => Does.refl))
    (fun _ => State.causeOff_does.call (by decide) (Does.setFld adr_MU_STAT (by decide) Does.refl))

/-! ## The result -/

theorem State.resultSent_does (s : State) (f : BitVec 56) (y : BitVec 32) (flags : BitVec 8) (due : Count) :
    Does [.agenda, .free, .fresh, .twn] [1, 3] s (s.resultSent n u f y flags due) :=
  State.issue_does.call (by decide) (State.shipResult_does.call (by decide) (State.loopSees_does.mono (by decide)))

/-- Without a sequence on the quadrant, a result is counted, judged and sent. -/
theorem State.giveResult_of_idle (hidle : s.seqRuns (n / 16) = false) (f : BitVec 56) (y : BitVec 32) (flags : BitVec 8)
    (cnt : Nat) (ySat : Bool) (due : Count) :
    s.giveResult n u f y flags cnt ySat due =
      ((((s.resultShown n u flags cnt ySat).resultRun n u flags ySat ((s.mu n u).runAfter flags)).resultJudged n u y flags
        due ((s.mu n u).runAfter flags)).resultSent n u f y flags due) := by
  have hjudged : Does [.agenda, .causes, .free, .fresh, .meas] [1, 3, 64] s
      (((s.resultShown n u flags cnt ySat).resultRun n u flags ySat ((s.mu n u).runAfter flags)).resultJudged n u y flags
        due ((s.mu n u).runAfter flags)) :=
    (State.resultJudged_does _ y flags due _).call (by decide) (State.setMu_does.call (by decide)
      ((s.resultShown_does flags cnt ySat).mono (by decide)))
  generalize hv : ((s.resultShown n u flags cnt ySat).resultRun n u flags ySat ((s.mu n u).runAfter flags)).resultJudged n u y
    flags due ((s.mu n u).runAfter flags) = v at hjudged
  have hkeeps : v.seqStale n u = v := State.seqStale_of_idle
    ((State.seqRuns_congr (hjudged.regs (by decide) _ (by rw [adr_CALQ_STAT.here]; decide))).trans hidle) u
  have hgive : s.giveResult n u f y flags cnt ySat due =
      (if flags.getLsbD 1 then v.seqStale n u else v).resultSent n u f y flags due := by rw [← hv]; rfl
  rw [hgive, hkeeps, ite_self]

/-- What a result leaves: it is held until due, its unit's state is as before but for its runs, and RCNT counts it. -/
structure GivesResult (n u : Nat) (f : BitVec 56) (y : BitVec 32) (flags : BitVec 8) (due : Count) (s t : State) : Prop where
  held : (⟨due, .island (Fin.ofNat 80 n), .cmd (.resultDue (Fin.ofNat 64 n) (Fin.ofNat 9 u) f y flags)⟩ : Due) ∈ t.agenda
  mu : ∃ lost sat, t.mu n u = { s.mu n u with staleRun := (s.mu n u).runAfter flags, lostRun := lost, satRun := sat }
  rcnt : (t.reg (aMU_RCNT n u)).toNat = min 0xFFFFFFFF ((s.reg (aMU_RCNT n u)).toNat + 1)
  count : t.count = s.count
  memory : KeepsMemory s t

theorem State.giveResult_gives (hidle : s.seqRuns (n / 16) = false) (f : BitVec 56) (y : BitVec 32) (flags : BitVec 8)
    (cnt : Nat) (ySat : Bool) {due : Count} (hdue : Count.upto (s.count + cyc 64) (Count.cycleStart due) = true) :
    GivesResult n u f y flags due s (s.giveResult n u f y flags cnt ySat due) := by
  rw [State.giveResult_of_idle hidle]
  generalize hrun : (s.mu n u).runAfter flags = run
  have hshown := s.resultShown_does (n := n) (u := u) flags cnt ySat
  have hrcnt := s.resultShown_rcnt (n := n) (u := u) flags cnt ySat
  generalize s.resultShown n u flags cnt ySat = v at hshown hrcnt
  have hjudged := (v.resultRun n u flags ySat run).resultJudged_does (n := n) (u := u) y flags due run
  have hkept := (v.resultRun n u flags ySat run).resultJudged_rcnt (n := n) (u := u) y flags due run
  generalize (v.resultRun n u flags ySat run).resultJudged n u y flags due run = w at hjudged hkept
  have hsent := w.resultSent_does (n := n) (u := u) f y flags due
  have hruns : Does [.meas] [] v (v.resultRun n u flags ySat run) := State.setMu_does
  have hbefore : Does [.agenda, .causes, .free, .fresh, .meas] [1, 3, 64] s w :=
    hjudged.call (by decide) (hruns.call (by decide) (hshown.mono (by decide)))
  have hall : Does [.agenda, .causes, .free, .fresh, .meas, .twn] [1, 3, 64] s (w.resultSent n u f y flags due) :=
    hsent.call (by decide) (hbefore.mono (by decide))
  refine ⟨?held, ⟨flags.getLsbD 3, ySat, ?mu⟩, ?rcnt, hall.same .count (by decide) (by decide), .of_does hall (by decide)⟩
  case held =>
    have hcross : Does [.free, .fresh, .twn] [3] w ((w.loopSees n u due).shipResult n u y flags due) :=
      State.shipResult_does.call (by decide) (State.loopSees_does.mono (by decide))
    refine State.issue_holds ?_
    rw [show ((w.loopSees n u due).shipResult n u y flags due).count = w.count from hcross.same .count (by decide) (by decide),
      show w.count = s.count from hbefore.same .count (by decide) (by decide)]
    exact hdue
  case mu =>
    rw [hrun, State.mu_congr (hsent.same .meas (by decide) (by decide)),
      State.mu_congr (hjudged.same .meas (by decide) (by decide)), ← State.mu_congr (hshown.same .meas (by decide) (by decide))]
    exact State.setMu_self _ _ _ _
  case rcnt =>
    have hblk : regBlk (aMU_RCNT n u) ∉ [1, 3] := by rw [adr_MU_RCNT.here]; decide
    rw [hsent.regs (by decide) _ hblk, hkept, hruns.regs (by decide) _ (by simp)]
    exact hrcnt

end
end Sys2Proof.Machine
end

section
/-! Results (O12): the result of a gate, and what a result does at its due time (R132 to R136, R168, R169, R305). -/
namespace Sys2Proof.Machine

variable {s t : State}

/-! ## The unit in service (R128, R133, R360) -/

/-- Which unit serves which path: bindings and sequences stand as before. -/
structure KeepsService (s t : State) : Prop where
  bind : ∀ n u, t.reg (aMU_BIND n u) = s.reg (aMU_BIND n u)
  stat : ∀ q, t.reg (aCALQ_STAT q) = s.reg (aCALQ_STAT q)
  cals : t.cals = s.cals

theorem KeepsService.muQty (h : KeepsService s t) (n u : Nat) : t.muQty n u = s.muQty n u := State.fld_congr _ (h.bind n u)

theorem KeepsService.muChan (h : KeepsService s t) (n u : Nat) : t.muChan n u = s.muChan n u := by
  unfold State.muChan
  rw [State.fld_congr _ (h.bind n u)]

theorem KeepsService.boundUnit (h : KeepsService s t) (ch q : Nat) : t.boundUnit ch q = s.boundUnit ch q := by
  simp only [State.boundUnit, h.muQty, h.muChan]

theorem KeepsService.seqn (h : KeepsService s t) (q : Nat) : t.seqn q = s.seqn q := by
  unfold State.seqn
  rw [h.cals]

theorem KeepsService.spareServes (h : KeepsService s t) (n : Nat) : t.spareServes n = s.spareServes n := by
  simp only [State.spareServes, State.seqRuns, State.seqPhase, State.seqIsl, State.seqChan, State.fld_congr _ (h.stat _), h.seqn]
  rfl

theorem KeepsService.servesPath (h : KeepsService s t) (n u : Nat) : t.servesPath n u = s.servesPath n u := by
  simp only [State.servesPath, State.inService, h.muQty, h.muChan, h.boundUnit, h.seqn, h.spareServes]
  rfl

/-! ## A result in force (R134) -/

/-- The registers of a unit show a result, and its state the due time and value. -/
def State.resultDued (s : State) (n u : Nat) (f : BitVec 56) (y : BitVec 32) (flags : BitVec 8) : State :=
  let v := ((s.setWide (aMU_FRQ n u) 2 f.toNat).setReg (aMU_VAL n u) y).setReg (aMU_RSTAT n u)
    ((flags &&& 0x7F#8).setWidth 32)
  v.setMu n u { v.mu n u with valid := true, due := s.count, yDue := y }

theorem State.resultDued_does (s : State) (n u : Nat) (f : BitVec 56) (y : BitVec 32) (flags : BitVec 8) :
    Does [.meas] [64] s (s.resultDued n u f y flags) :=
  State.setMu_does.call (by decide) (Does.setReg adr_MU_RSTAT (by decide) (Does.setReg adr_MU_VAL (by decide)
    (Does.setWide adr_MU_FRQ (by decide) Does.refl)))

/-- A quantity of two words written is read back. -/
theorem State.wide_two_of_regs {a v : Nat} (hv : v < 2 ^ 64) (hlow : t.reg a = BitVec.ofNat 32 v)
    (hhigh : t.reg (a + 4) = BitVec.ofNat 32 (v / 2 ^ 32)) : t.wide a 2 = v := by
  simp only [State.wide, hlow, hhigh, BitVec.toNat_ofNat]
  omega

theorem State.resultDued_shows (s : State) (n u : Nat) (f : BitVec 56) (y : BitVec 32) (flags : BitVec 8) :
    let t := s.resultDued n u f y flags
    t.reg (aMU_VAL n u) = y ∧ t.reg (aMU_RSTAT n u) = (flags &&& 0x7F#8).setWidth 32 ∧ t.wide (aMU_FRQ n u) 2 = f.toNat ∧
      KeepsRegs [aMU_FRQ n u, aMU_FRQ n u + 4, aMU_VAL n u, aMU_RSTAT n u] s t := by
  intro t
  have hval : aMU_VAL n u ≠ aMU_RSTAT n u := by unfold aMU_VAL aMU_RSTAT; omega
  have hfrq : aMU_FRQ n u ≠ aMU_VAL n u ∧ aMU_FRQ n u ≠ aMU_RSTAT n u := by unfold aMU_FRQ aMU_VAL aMU_RSTAT; omega
  have hhigh : aMU_FRQ n u + 4 ≠ aMU_VAL n u ∧ aMU_FRQ n u + 4 ≠ aMU_RSTAT n u := by unfold aMU_FRQ aMU_VAL aMU_RSTAT; omega
  have hwide : ∀ {a}, a ≠ aMU_VAL n u ∧ a ≠ aMU_RSTAT n u → t.reg a = (s.setWide (aMU_FRQ n u) 2 f.toNat).reg a := fun h =>
    (State.reg_setReg_ne _ _ h.2).trans (State.reg_setReg_ne _ _ h.1)
  refine ⟨(State.reg_setReg_ne _ _ hval).trans (State.reg_setReg_self _ _ _), State.reg_setReg_self _ _ _,
    State.wide_two_of_regs (by omega) ?_ ?_, ?_⟩
  · exact (hwide hfrq).trans ((State.reg_setReg_ne _ _ (by omega)).trans (State.reg_setReg_self _ _ _))
  · exact (hwide hhigh).trans (State.reg_setReg_self _ _ _)
  · exact (((KeepsRegs.refl _ s).setWide_two (by simp) (by simp) _).setReg (by simp) _).setReg (by simp) _

/-- A result in force leaves bindings and sequences. -/
theorem State.resultDued_service (s : State) (n u : Nat) (f : BitVec 56) (y : BitVec 32) (flags : BitVec 8) :
    KeepsService s (s.resultDued n u f y flags) := by
  have hdoes := s.resultDued_does n u f y flags
  obtain ⟨-, -, -, hkeeps⟩ := s.resultDued_shows n u f y flags
  refine ⟨fun m v => hkeeps _ ?_, fun q => hdoes.regs (by decide) _ (by rw [adr_CALQ_STAT.here]; decide),
    hdoes.same .cals (by decide) (by decide)⟩
  simp only [List.mem_cons, List.not_mem_nil, or_false, aMU_BIND, aMU_FRQ, aMU_VAL, aMU_RSTAT]
  omega

/-! ## A result at its path (R168, R169, R385) -/

/-- A result as its path's own input keeps it. -/
def State.resultQuant (s : State) (ch q : Nat) (y : BitVec 32) (flags : BitVec 8) (due : Count) : Quantity where
  y := y
  flags := flags
  due := due
  valid := true
  staleRun := if flags.getLsbD 1 then (s.localQuant ch q).staleRun + 1 else 0

/-- A result put as its path's own input. -/
def State.resultLocal (s : State) (ch q : Nat) (y : BitVec 32) (flags : BitVec 8) (due : Count) : State :=
  s.setLocal ch q (s.resultQuant ch q y flags due)

/-- A path's offset, moved towards 0 at a result (R170). -/
def State.offsetMoved (s : State) (n u ch q : Nat) (flags : BitVec 8) : State :=
  let old := s.offset ch q
  let new := if flags.getLsbD 1 || (s.seqn (n / 16)).sub && s.spareServes n == some (ch, q) then old
    else towardZero old (s.slewStep (q + 1) (s.muHop n u))
  if new = old then s else s.setOffset ch q new

/-- What a result does at the path that its unit serves: the path's input, or at a standby the check of R385. -/
def State.pathFed (s : State) (n u ch q : Nat) (y : BitVec 32) (flags : BitVec 8) (due : Count) : State :=
  let v := s.resultLocal ch q y flags due
  if s.fld aLPE_SRC fLPE_SRC_SRC = 0 then
    let w := v.offsetMoved n u ch q flags
    (w.settle50 (w.leader ch)).feed ch q (w.gateNumber n u due) (w.muHop n u) flags due (due - 16384)
  else (v.plausible ch q).noteMissed n u ch q

/-- What a result in force does at its path, if its unit serves one. -/
def State.resultFed (s : State) (n u : Nat) (y : BitVec 32) (flags : BitVec 8) (due : Count) : State :=
  match s.servesPath n u with
  | none => s
  | some (ch, q) => s.pathFed n u ch q y flags due

theorem exec_resultDue_eq (isl : Isl) (unit : UnitNo) (f : BitVec 56) (y : BitVec 32) (flags : BitVec 8) (s : State) :
    exec (.resultDue isl unit f y flags) s = .next (((s.resultDued isl.val unit.val f y flags).resultFed isl.val unit.val y
      flags s.count).calResult isl.val unit.val f s.count) := rfl

theorem State.calResult_of_idle {n : Nat} (h : s.seqRuns (n / 16) = false) (u : Nat) (f : BitVec 56) (due : Count) :
    s.calResult n u f due = s := if_pos (by rw [h]; rfl)

section
variable {n u ch q : Nat} {y : BitVec 32} {flags : BitVec 8} {due : Count}

theorem State.resultLocal_does : Does [.quants] [] s (s.resultLocal ch q y flags due) := State.setLocal_does

theorem State.offsetMoved_does : Does [.loops] [6] s (s.offsetMoved n u ch q flags) :=
  Does.ite (fun _ => Does.refl) (fun _ => State.setOffset_does)

/-- An offset of 0 does not move. -/
theorem State.offsetMoved_of_zero (h : s.offset ch q = 0) : s.offsetMoved n u ch q flags = s := by
  unfold State.offsetMoved
  extract_lets old new
  refine if_pos ?_
  have hzero : old = 0 := h
  unfold new
  rw [hzero]
  split <;> rfl

theorem State.pathFed_does :
    Does [.agenda, .causes, .free, .fresh, .meas, .loops, .quants, .acq, .twn] [1, 3, 6, 10, 14] s
      (s.pathFed n u ch q y flags due) := by
  have hlocal : Does [.agenda, .causes, .free, .fresh, .meas, .loops, .quants, .acq, .twn] [1, 3, 6, 10, 14] s
      (s.resultLocal ch q y flags due) := State.resultLocal_does.mono (by decide)
  refine Does.ite (fun _ => ?_) (fun _ => ?_)
  · exact State.feed_does.call (by decide) (State.settle50_does.call (by decide)
      (State.offsetMoved_does.call (by decide) hlocal))
  · exact State.noteMissed_does.call (by decide) (State.plausible_does.call (by decide) hlocal)

theorem State.resultFed_does :
    Does [.agenda, .causes, .free, .fresh, .meas, .loops, .quants, .acq, .twn] [1, 3, 6, 10, 14] s
      (s.resultFed n u y flags due) := by
  unfold State.resultFed
  split
  · exact Does.refl
  · exact State.pathFed_does

/-- A value under an offset of 0 is the value. -/
theorem withOffset_zero (y : BitVec 32) : withOffset y 0 = y := by
  have hround : divRound (y.toInt * (2 ^ 16 : Nat) + 0) (2 ^ 16) = y.toInt := by
    unfold divRound
    norm_num
    split <;> omega
  have hsat : sat32 y.toInt = y.toInt := by
    have := y.toInt_lt
    have := y.le_toInt
    unfold sat32 clampInt
    split
    · omega
    · split <;> omega
  unfold withOffset
  rw [hround, hsat, BitVec.ofInt_toInt]

/-- With LPE_SRC at SHIPPED, a result does not change the input of its path (R169). -/
theorem State.pathFed_shipped (hsrc : s.fld aLPE_SRC fLPE_SRC_SRC ≠ 0) :
    (s.pathFed n u ch q y flags due).quant ch q = s.quant ch q := by
  have hdoes : Does [.agenda, .causes, .fresh, .meas, .quants, .twn] [14] s (s.pathFed n u ch q y flags due) := by
    refine (congrArg (Does _ _ s) (if_neg hsrc)).mpr ?_
    exact State.noteMissed_does.call (by decide) (State.plausible_does.call (by decide)
      (State.resultLocal_does.mono (by decide)))
  have hbit : s.bit aLPE_SRC fLPE_SRC_SRC = true := bne_iff_ne.mpr hsrc
  have hships : (s.pathFed n u ch q y flags due).ships = s.ships := hdoes.same .ships (by decide) (by decide)
  have hkept : (s.pathFed n u ch q y flags due).bit aLPE_SRC fLPE_SRC_SRC = true :=
    (State.bit_congr _ (hdoes.regs (by decide) _ (by rw [adr_LPE_SRC.here]; decide))).trans hbit
  calc _ = (s.pathFed n u ch q y flags due).shipQuant ch q := if_pos hkept
    _ = s.shipQuant ch q := congrArg (Tab.get _ · _) hships
    _ = _ := (if_pos hbit).symm

/-- With LPE_SRC at LOCAL and an offset of 0, a result is the input of its path (R168). -/
theorem State.pathFed_local (hsrc : s.fld aLPE_SRC fLPE_SRC_SRC = 0) (hoff : s.offset ch q = 0) :
    let z := (s.pathFed n u ch q y flags due).quant ch q
    z.y = y ∧ z.flags = flags ∧ z.due = due ∧ z.valid = true := by
  let v := s.resultLocal ch q y flags due
  have hfed : s.pathFed n u ch q y flags due =
      (v.settle50 (v.leader ch)).feed ch q (v.gateNumber n u due) (v.muHop n u) flags due (due - 16384) := by
    refine (if_pos hsrc).trans ?_
    rw [State.offsetMoved_of_zero (s := s.resultLocal ch q y flags due) hoff]
  have hdoes : Does [.agenda, .causes, .free, .fresh, .acq] [1, 3, 10] v (s.pathFed n u ch q y flags due) := by
    rw [hfed]
    exact State.feed_does.call (by decide) (State.settle50_does.mono (by decide))
  have hinputs : (s.pathFed n u ch q y flags due).quants = v.quants := hdoes.same .quants (by decide) (by decide)
  have hloops : (s.pathFed n u ch q y flags due).loops = v.loops := hdoes.same .loops (by decide) (by decide)
  have hbit : (s.pathFed n u ch q y flags due).bit aLPE_SRC fLPE_SRC_SRC = false :=
    (State.bit_congr _ (hdoes.regs (by decide) aLPE_SRC (by rw [adr_LPE_SRC.here]; decide))).trans (bne_eq_false_iff_eq.mpr hsrc)
  have hoffset : (s.pathFed n u ch q y flags due).offset ch q = 0 := by
    rw [← hoff]
    unfold State.offset State.lch
    rw [hloops]
    rfl
  have hquant : (s.pathFed n u ch q y flags due).localQuant ch q = v.localQuant ch q := by
    unfold State.localQuant
    rw [hinputs]
  intro z
  have hz : z = { v.localQuant ch q with y := withOffset (v.localQuant ch q).y 0 } := by
    unfold z State.quant
    rw [hbit, hoffset, hquant]
    rfl
  have hlocal : v.localQuant ch q = s.resultQuant ch q y flags due := Tab.get_set_self _ _ _ _
  rw [hz, hlocal]
  exact ⟨withOffset_zero y, rfl, rfl, rfl⟩

end

end Sys2Proof.Machine
end

section
/-! Results (O12), settled. -/
namespace Sys2Proof.Machine

variable {s t : State} {isl : Isl} {unit : UnitNo} {g : Gate} {gs : List Gate}

/-- A gate taken leaves the sequences. -/
theorem State.gateTaken_seqRuns (s : State) (n u : Nat) (gs : List Gate) (q : Nat) :
    (s.gateTaken n u gs).seqRuns q = s.seqRuns q :=
  State.seqRuns_congr ((s.gateTaken_does n u gs).regs (by decide) _ (by simp))

theorem State.gateTaken_count (s : State) (n u : Nat) (gs : List Gate) : (s.gateTaken n u gs).count = s.count :=
  (s.gateTaken_does n u gs).same .count (by decide) (by decide)

/-- The result is held under its own island and unit. -/
theorem GivesResult.held_self {f : BitVec 56} {y : BitVec 32} {flags : BitVec 8} {due : Count}
    (h : GivesResult isl.val unit.val f y flags due s t) :
    (⟨due, .island (Fin.ofNat 80 isl.val), .cmd (.resultDue isl unit f y flags)⟩ : Due) ∈ t.agenda := by
  have hisl : Fin.ofNat 64 isl.val = isl := Fin.ext (Nat.mod_eq_of_lt isl.isLt)
  have hunit : Fin.ofNat 9 unit.val = unit := Fin.ext (Nat.mod_eq_of_lt unit.isLt)
  have hheld := h.held
  rwa [hisl, hunit] at hheld

section
variable (hidle : s.seqRuns (isl.val / 16) = false)
  (hgates : ((s.openGates isl.val unit.val s.count).mu isl.val unit.val).gates = g :: gs)
  (hend : Count.before s.count g.stop = false) (happly : (s.mu isl.val unit.val).apply = none)
  (hdue : Count.upto (s.count + cyc 64) (Count.cycleStart (g.stop + 16384)) = true)
include hidle hgates hend happly hdue

/-- A gate with fewer stamps than MIN_N ends in a STALE result (R133, R135). -/
theorem gateEnd_stale_gives (hfew : g.cnt < s.fld (aMU_CFG isl.val unit.val) fMU_CFG_MIN_N) :
    Completes (.gateEnd isl unit) s (fun t =>
      (∃ flags : BitVec 8, flags.getLsbD 1 = true ∧ flags.getLsbD 0 = false ∧
        (⟨g.stop + 16384, .island (Fin.ofNat 80 isl.val), .cmd (.resultDue isl unit (s.mu isl.val unit.val).f
          (s.mu isl.val unit.val).y flags)⟩ : Due) ∈ t.agenda) ∧
      (t.mu isl.val unit.val).gates = gs ∧ (t.mu isl.val unit.val).staleRun = (s.mu isl.val unit.val).staleRun + 1 ∧
      (t.reg (aMU_RCNT isl.val unit.val)).toNat = min 0xFFFFFFFF ((s.reg (aMU_RCNT isl.val unit.val)).toNat + 1) ∧
      t.count = s.count ∧ KeepsMemory s t) := by
  have htaken := s.gateTaken_does isl.val unit.val gs
  have hcount := s.gateTaken_count isl.val unit.val gs
  have hruns := (s.gateTaken_seqRuns isl.val unit.val gs (isl.val / 16)).trans hidle
  obtain ⟨next, hmu⟩ := s.gateTaken_mu isl.val unit.val gs
  obtain ⟨hstale, hvalid⟩ := g.staleFlags_reads (s.mu isl.val unit.val).goal.isSome
  have hgives := State.giveResult_gives (u := unit.val) hruns (s.mu isl.val unit.val).f
    (s.mu isl.val unit.val).y (g.staleFlags (s.mu isl.val unit.val).goal.isSome) g.cnt false (hcount.symm ▸ hdue)
  refine ⟨_, exec_gateEnd_stale hgates hend happly hfew, ?_⟩
  obtain ⟨lost, sat, hafter⟩ := hgives.mu
  rw [hafter, hmu]
  refine ⟨⟨_, hstale, hvalid, hgives.held_self⟩, rfl, if_pos hstale, ?_, hgives.count.trans hcount,
    (KeepsMemory.of_does htaken (by decide)).trans hgives.memory⟩
  rw [hgives.rcnt, htaken.regs (by decide) _ (by simp)]

/-- A gate with stamps enough ends in the regression's frequency and its value (R132, R135, R136). -/
theorem gateEnd_value_gives (hfresh : g.stale = false) (hcnt : s.fld (aMU_CFG isl.val unit.val) fMU_CFG_MIN_N ≤ g.cnt)
    (hden : g.cnt * g.stt - g.st * g.st ≠ 0) (hgoal : (s.mu isl.val unit.val).goal = none)
    (hblend : (s.mu isl.val unit.val).blend = 0) :
    let f := s.gateF isl.val unit.val g
    let y := BitVec.ofInt 32 (sat32 (unitRound ((s.mu isl.val unit.val).base.scaled f)))
    Completes (.gateEnd isl unit) s (fun t =>
      (t.mu isl.val unit.val).f = f ∧ (t.mu isl.val unit.val).y = y ∧
      (∃ flags : BitVec 8, flags.getLsbD 1 = false ∧ flags.getLsbD 0 = true ∧
        (⟨g.stop + 16384, .island (Fin.ofNat 80 isl.val), .cmd (.resultDue isl unit f y flags)⟩ : Due) ∈ t.agenda) ∧
      (t.mu isl.val unit.val).gates = gs ∧ (t.mu isl.val unit.val).staleRun = 0 ∧
      (t.reg (aMU_RCNT isl.val unit.val)).toNat = min 0xFFFFFFFF ((s.reg (aMU_RCNT isl.val unit.val)).toNat + 1) ∧
      t.count = s.count ∧ KeepsMemory s t) := by
  intro f y
  have hexec := exec_gateEnd_value hgates hend happly hfresh hcnt hden hgoal
  have htaken := s.gateTaken_does isl.val unit.val gs
  have hcount := s.gateTaken_count isl.val unit.val gs
  have hruns := (s.gateTaken_seqRuns isl.val unit.val gs (isl.val / 16)).trans hidle
  obtain ⟨next, hmu⟩ := s.gateTaken_mu isl.val unit.val gs
  have hf : (s.gateTaken isl.val unit.val gs).gateF isl.val unit.val g = f :=
    State.gateF_congr (fun a => htaken.regs (by decide) a (by simp)) _ _ _
  generalize s.gateTaken isl.val unit.val gs = v at hexec htaken hcount hruns hmu hf
  have hy : BitVec.ofInt 32 (sat32 (v.gateY isl.val unit.val g (v.mu isl.val unit.val))) = y := by
    unfold State.gateY
    rw [hf, hmu, hblend, Int.zero_mul, Int.add_zero]
  have hvalued := v.gateValued_does isl.val unit.val g (v.mu isl.val unit.val)
  have hshown : (v.gateValued isl.val unit.val g (v.mu isl.val unit.val)).mu isl.val unit.val =
      { v.mu isl.val unit.val with f := f, y := y } := by
    rw [State.gateValued_mu, hf, hy]
  have hrcnt := v.gateValued_rcnt isl.val unit.val g (v.mu isl.val unit.val)
  refine ⟨_, hexec, ?_⟩
  unfold State.gateResult
  extract_lets sat cut
  rw [hf, hy]
  generalize v.gateValued isl.val unit.val g (v.mu isl.val unit.val) = w at hvalued hshown hrcnt
  generalize (v.mu isl.val unit.val).goal.isSome = slewing
  obtain ⟨hstale, hvalid⟩ := g.validFlags_reads (sat || cut) slewing
  have hcount' : w.count = s.count := (hvalued.same .count (by decide) (by decide)).trans hcount
  have hruns' : w.seqRuns (isl.val / 16) = false :=
    (State.seqRuns_congr (hvalued.regs (by decide) _ (by rw [adr_CALQ_STAT.here]; decide))).trans hruns
  have hgives := State.giveResult_gives (u := unit.val) hruns' f y (g.validFlags (sat || cut) slewing)
    g.cnt sat (hcount'.symm ▸ hdue)
  obtain ⟨lost, satRun, hafter⟩ := hgives.mu
  rw [hafter, hshown, hmu]
  refine ⟨rfl, rfl, ⟨_, hstale, hvalid, hgives.held_self⟩, rfl, if_neg (by rw [hstale]; decide), ?_, hgives.count.trans hcount',
    ((KeepsMemory.of_does htaken (by decide)).trans (.of_does hvalued (by decide))).trans hgives.memory⟩
  rw [hgives.rcnt, hrcnt, htaken.regs (by decide) _ (by simp)]

end

/-- A result in force changes no input of itself. -/
theorem State.resultDued_inputs (s : State) (n u : Nat) (f : BitVec 56) (y : BitVec 32) (flags : BitVec 8) :
    SameInputs s (s.resultDued n u f y flags) := by
  have hdoes := s.resultDued_does n u f y flags
  obtain ⟨-, -, -, hkeeps⟩ := s.resultDued_shows n u f y flags
  refine ⟨hdoes.regs (by decide) _ (by rw [adr_LPE_SRC.here]; decide), fun m c => hkeeps _ ?_,
    hdoes.same .quants (by decide) (by decide), hdoes.same .ships (by decide) (by decide), fun ch q => ?_⟩
  · simp only [List.mem_cons, List.not_mem_nil, or_false, aCH_STAT, aMU_FRQ, aMU_VAL, aMU_RSTAT]
    omega
  · unfold State.offset State.lch
    rw [show (s.resultDued n u f y flags).loops = s.loops from hdoes.same .loops (by decide) (by decide)]

/-- A result at its due time: its registers show it, and its path's input is as LPE_SRC says (R134, R168, R169). -/
theorem resultDue_shows (f : BitVec 56) (y : BitVec 32) (flags : BitVec 8) (hidle : s.seqRuns (isl.val / 16) = false) :
    Completes (.resultDue isl unit f y flags) s (fun t =>
      t.reg (aMU_VAL isl.val unit.val) = y ∧ t.reg (aMU_RSTAT isl.val unit.val) = (flags &&& 0x7F#8).setWidth 32 ∧
      t.wide (aMU_FRQ isl.val unit.val) 2 = f.toNat ∧
      (∀ (ch : Chan) (q : Fin 2), s.servesPath isl.val unit.val = some (ch.val, q.val) →
        (s.fld aLPE_SRC fLPE_SRC_SRC = 0 → s.offset ch.val q.val = 0 →
          (t.quant ch.val q.val).y = y ∧ (t.quant ch.val q.val).flags = flags ∧ (t.quant ch.val q.val).due = s.count ∧
          (t.quant ch.val q.val).valid = true) ∧
        (s.fld aLPE_SRC fLPE_SRC_SRC ≠ 0 → t.quant ch.val q.val = s.quant ch.val q.val)) ∧
      t.count = s.count) := by
  have hexec := exec_resultDue_eq isl unit f y flags s
  have hdued := s.resultDued_does isl.val unit.val f y flags
  have hservice := s.resultDued_service isl.val unit.val f y flags
  obtain ⟨hval, hrstat, hfrq, -⟩ := s.resultDued_shows isl.val unit.val f y flags
  have hinputs := s.resultDued_inputs isl.val unit.val f y flags
  generalize s.resultDued isl.val unit.val f y flags = v at hexec hdued hservice hval hrstat hfrq hinputs
  have hfed := v.resultFed_does (n := isl.val) (u := unit.val) (y := y) (flags := flags) (due := s.count)
  have hreg : ∀ a, regBlk a ∉ [1, 3, 6, 10, 14] → (v.resultFed isl.val unit.val y flags s.count).reg a = v.reg a :=
    hfed.regs (by decide)
  have hidle' : (v.resultFed isl.val unit.val y flags s.count).seqRuns (isl.val / 16) = false := by
    rw [State.seqRuns_congr (hreg _ (by rw [adr_CALQ_STAT.here]; decide)), State.seqRuns_congr (hservice.stat _)]
    exact hidle
  rw [State.calResult_of_idle hidle'] at hexec
  refine ⟨_, hexec, ?_, ?_, ?_, fun ch q hpath => ?_, ?_⟩
  · rw [hreg _ (by rw [adr_MU_VAL.here]; decide), hval]
  · rw [hreg _ (by rw [adr_MU_RSTAT.here]; decide), hrstat]
  · rw [State.wide_congr (fun i hi => hreg _ (by rw [adr_MU_FRQ.blk i (by omega)]; decide)), hfrq]
  · have hfed_path : v.resultFed isl.val unit.val y flags s.count = v.pathFed isl.val unit.val ch.val q.val y flags s.count := by
      unfold State.resultFed
      rw [hservice.servesPath, hpath]
    have hsrc : v.fld aLPE_SRC fLPE_SRC_SRC = s.fld aLPE_SRC fLPE_SRC_SRC := State.fld_congr _ hinputs.src
    rw [hfed_path]
    refine ⟨fun hlocal hoff => State.pathFed_local (hsrc.trans hlocal) ((hinputs.offsets _ _).trans hoff), fun hship => ?_⟩
    rw [State.pathFed_shipped (hsrc.trans_ne hship), hinputs.quant]
  · exact (hfed.same .count (by decide) (by decide)).trans (hdued.same .count (by decide) (by decide))

/-- Settles O12: the end of a gate by its stamps, and the due time of a result by the source of its path's input. -/
theorem results : Obligations.Results := by
  refine ⟨fun isl unit g gs s => ?_, fun isl unit f y flags s hidle => resultDue_shows f y flags hidle⟩
  intro n u x pin cfg f hidle hgates hend happly hdue
  exact ⟨gateEnd_stale_gives hidle hgates hend happly hdue, gateEnd_value_gives hidle hgates hend happly hdue⟩

end Sys2Proof.Machine
end

section
/-! The state of a monitor behind its registers, and the changes of its latch and of UNSETTLED (R149 to R153, R378). -/
namespace Sys2Proof.Machine

variable {s t : State}

theorem State.mon_congr (h : t.mons = s.mons) (n m : Nat) : t.mon n m = s.mon n m := by
  unfold State.mon
  rw [h]

theorem State.setMon_self (s : State) (n m : Nat) (x : Mon) : (s.setMon n m x).mon n m = x := by
  rw [State.setMon_mon, if_pos rfl]

/-- A shadow stands in for the same monitors where the twin's state and the binding stay (R383). -/
theorem State.shadowed_congr {n m : Nat} (htwin : t.reg aTWN_STAT = s.reg aTWN_STAT)
    (hbind : t.reg (aMON_BIND n m) = s.reg (aMON_BIND n m)) : t.shadowed n m = s.shadowed n m := by
  unfold State.shadowed State.monBound State.twin
  rw [State.fld_congr _ htwin, State.bit_congr _ hbind, State.bit_congr _ hbind]

/-! ## One bit of a word -/

theorem putF_bit_getLsbD (w : Word) {m : Nat} (hm : m < 32) (b : Bool) (i : Nat) :
    (putF w ⟨m, m⟩ b.toNat).getLsbD i = if i = m then b else w.getLsbD i := by
  rw [putF_getLsbD _ _ _ _ le_rfl hm]
  by_cases h : i = m
  · subst h
    cases b <;> simp
  · rw [if_neg h, if_neg (fun hi => h (Nat.le_antisymm hi.2 hi.1))]

/-- A bit written as it stands leaves its word. -/
theorem putF_bit_self (w : Word) {m : Nat} (hm : m < 32) : putF w ⟨m, m⟩ (w.getLsbD m).toNat = w := by
  refine BitVec.eq_of_getLsbD_eq fun i _ => ?_
  rw [putF_bit_getLsbD w hm]
  split
  · next h => rw [h]
  · rfl

/-! ## Changes of a monitor's latch and of UNSETTLED -/

/-- The registers that show a monitor's latch and UNSETTLED. -/
def changeRegs (n m : Nat) : List Nat := [aMON_LAT n, aMON_UNS n, aMON_STAT n m]

/-- A change that is one is shown in MON_LAT, MON_UNS and MON_STAT, and then moves causes and ships. -/
theorem State.monChange_changes {n m : Nat} {latch uns : Bool}
    (h : ¬ (latch = (s.reg (aMON_LAT n)).getLsbD m ∧ uns = (s.reg (aMON_UNS n)).getLsbD m)) (at_ : Count) :
    ∃ u : State, u.regs = s.regs ∧ u.mons = (s.monNote n m at_).mons ∧
      Does [.causes, .twn] [] (((u.setFld (aMON_LAT n) ⟨m, m⟩ latch.toNat).setFld (aMON_UNS n) ⟨m, m⟩ uns.toNat).setBit
        (aMON_STAT n m) fMON_STAT_UNSETTLED uns) (s.monChange n m latch uns at_) := by
  generalize hr : s.monChange n m latch uns at_ = r
  unfold State.monChange at hr
  extract_lets -underBinder -merge -useContext was wasU s1 u s2 s3 at hr
  rw [if_neg h] at hr
  refine ⟨u, ?_, ?_, hr ▸ ?_⟩
  · unfold u; split <;> rfl
  · unfold u; split <;> rfl
  · have h2 : Does [.causes, .twn] [] _ s2 := State.settled41_does.mono (by decide)
    have h3 : Does [.causes, .twn] [] _ s3 := .ite (fun _ => State.shipItem_does.call (by decide) h2) (fun _ => h2)
    exact .ite (fun _ => State.causeOff_does.call (by decide) h3) (fun _ => h3)

/-- After a change MON_LAT has the latch, and behind the registers the history of R384 alone is new. -/
theorem State.monChange_shows (s : State) {n m : Nat} (hm : m < 32) (latch uns : Bool) (at_ : Count) :
    let t := s.monChange n m latch uns at_
    t.reg (aMON_LAT n) = putF (s.reg (aMON_LAT n)) ⟨m, m⟩ latch.toNat ∧ KeepsRegs (changeRegs n m) s t ∧
      t.mon n m = { s.mon n m with past := (t.mon n m).past } := by
  intro t
  by_cases h : latch = (s.reg (aMON_LAT n)).getLsbD m ∧ uns = (s.reg (aMON_UNS n)).getLsbD m
  · rw [show t = s from if_pos h, h.1, putF_bit_self _ hm]
    exact ⟨rfl, .refl _ s, rfl⟩
  · obtain ⟨u, hregs, hmons, hdoes⟩ := State.monChange_changes h at_
    have hreg : ∀ a, t.reg a = _ := fun a => hdoes.regs (by decide) a (by simp)
    have hne : aMON_LAT n ≠ aMON_UNS n ∧ aMON_LAT n ≠ aMON_STAT n m := by unfold aMON_LAT aMON_UNS aMON_STAT; omega
    refine ⟨(hreg _).trans ?_, fun a ha => (hreg a).trans ?_, ?_⟩
    · refine (State.reg_setReg_ne _ _ hne.2).trans
        ((State.reg_setReg_ne _ _ hne.1).trans ((State.reg_setReg_self _ _ _).trans ?_))
      rw [State.reg_of_regs hregs]
    · exact ((((KeepsRegs.of_regs hregs _).setReg (a := aMON_LAT n) (by simp [changeRegs]) _).setReg (a := aMON_UNS n)
        (by simp [changeRegs]) _).setReg (a := aMON_STAT n m) (by simp [changeRegs]) _) a ha
    · rw [show t.mon n m = _ from (State.mon_congr ((hdoes.same .mons (by decide) (by decide)).trans hmons) n m).trans
        (State.setMon_self _ _ _ _)]

/-- A change of UNSETTLED alone leaves MON_LAT. -/
theorem State.monChange_keeps (s : State) {n m : Nat} (hm : m < 32) (uns : Bool) (at_ : Count) :
    let t := s.monChange n m ((s.reg (aMON_LAT n)).getLsbD m) uns at_
    t.reg (aMON_LAT n) = s.reg (aMON_LAT n) ∧ KeepsRegs [aMON_UNS n, aMON_STAT n m] s t ∧
      t.mon n m = { s.mon n m with past := (t.mon n m).past } := by
  obtain ⟨hlat, hkeeps, hmon⟩ := s.monChange_shows hm (n := n) ((s.reg (aMON_LAT n)).getLsbD m) uns at_
  rw [putF_bit_self _ hm] at hlat
  refine ⟨hlat, fun a ha => ?_, hmon⟩
  by_cases h : a = aMON_LAT n
  · rw [h, hlat]
  · exact hkeeps a (by simpa [changeRegs, h] using ha)

/-! ## The inhibit network (R102, R103) -/

theorem State.settleMon_keeps (s : State) (n m : Nat) : KeepsBarInhibit s (s.settleMon n m) := by
  unfold State.settleMon
  split
  · exact KeepsBarInhibit.foldl (fun t k => t.showInh_keeps k) _ (.refl s)
  · exact .refl s

theorem not_inhibitReg_of_offset {a : Nat} (h : a % 0x100000 = 0x40 ∨ 0x200 ≤ a % 0x100000) : ¬ inhibitReg a := by
  rintro ⟨n, c, h' | h' | h'⟩ <;> simp only [aCH_STAT, aCH_INH, aISL_STAT] at h' <;> omega

theorem not_inhibitReg_monLat (n : Nat) : ¬ inhibitReg (aMON_LAT n) :=
  not_inhibitReg_of_offset (.inl (by unfold aMON_LAT; omega))

/-- A monitor without INH forces nothing. -/
theorem State.forceInh_of_free {n m : Nat} (h : s.bit (aMON_BIND n m) fMON_BIND_INH = false) : s.forceInh n m = s :=
  if_neg (by rw [h, Bool.and_false]; decide)

end Sys2Proof.Machine
end

section
/-! Samples of a monitor (O13): what an unfiltered ABOVE monitor takes in its sample cycle (R144 to R149). -/
namespace Sys2Proof.Machine

variable {s : State}

/-! ## The comparator (R145) -/

section
variable {v : Int} {thr hyst : Nat}

theorem comparator_above (old : Option Bool) (h : ((2 * thr + hyst : Nat) : Int) ≤ v) :
    comparator v thr hyst old = some true := if_pos h

theorem comparator_below (old : Option Bool) (h : v < (2 * thr : Int) - hyst) : comparator v thr hyst old = some false :=
  (if_neg (by push_cast; omega)).trans (if_pos h)

theorem comparator_within (old : Option Bool) (hlo : (2 * thr : Int) - hyst ≤ v) (hhi : v < ((2 * thr + hyst : Nat) : Int)) :
    comparator v thr hyst old = old :=
  (if_neg (not_le.mpr hhi)).trans (if_neg (not_lt.mpr hlo))

end

/-! ## The sample cycle -/

/-- HI of an ABOVE monitor after a sample. -/
def State.hiAfter (s : State) (n m : Nat) (v : BitVec 16) : Option Bool :=
  comparator v.toInt (getF (s.monThr n m) fMON_THR_HI) (getF (s.monThr n m) fMON_THR_HI_HYST) (s.mon n m).hi

/-- The state with a sample taken: its monitor, MON_STAT, and UNSETTLED. -/
def State.sampled (s : State) (n m : Nat) (x : Mon) (stat : Word) (uns : Bool) : State :=
  let s1 := (s.setMon n m x).setReg (aMON_STAT n m) stat
  s1.monChange n m ((s1.reg (aMON_LAT n)).getLsbD m) uns s1.count

theorem State.sampled_does {n m : Nat} (x : Mon) (stat : Word) (uns : Bool) :
    Does [.causes, .fresh, .mons, .twn] [64] s (s.sampled n m x stat uns) :=
  State.monChange_does.call (by decide) (Does.setReg adr_MON_STAT (by decide) (State.setMon_does.mono (by decide)))

theorem State.sampled_shows (s : State) {n m : Nat} (hm : m < 32) (x : Mon) (stat : Word) (uns : Bool) :
    let t := s.sampled n m x stat uns
    (t.mon n m).hi = x.hi ∧ t.reg (aMON_LAT n) = s.reg (aMON_LAT n) ∧ KeepsRegs [aMON_UNS n, aMON_STAT n m] s t := by
  intro t
  obtain ⟨hlat, hkeeps, hmon⟩ :=
    ((s.setMon n m x).setReg (aMON_STAT n m) stat).monChange_keeps hm (n := n) uns s.count
  have hset : ((s.setMon n m x).mon n m).hi = x.hi := congrArg Mon.hi (s.setMon_self n m x)
  exact ⟨(congrArg Mon.hi hmon).trans hset, hlat.trans (State.reg_setReg_ne _ _ (by unfold aMON_LAT aMON_STAT; omega)),
    (KeepsRegs.setReg (.of_regs rfl _) (by simp) stat).trans hkeeps⟩

/-- What a sample leaves, whatever it shows of HI. -/
theorem State.sampled_hold_shows (s : State) {n m : Nat} (hm : m < 32) (x : Mon) (stat : Word) (uns : Bool) (src : Issuer)
    (due : Count) (a : Act) : let t := (s.sampled n m x stat uns).hold src due a
    (t.mon n m).hi = x.hi ∧ (⟨due, src, a⟩ : Due) ∈ t.agenda ∧ t.reg (aMON_LAT n) = s.reg (aMON_LAT n) ∧
      t.count = s.count ∧ KeepsRegs [aMON_UNS n, aMON_STAT n m] s t ∧ KeepsMemory s t := by
  have hdoes := State.sampled_does (s := s) (n := n) (m := m) x stat uns
  obtain ⟨hhi, hlat, hkeeps⟩ := s.sampled_shows hm (n := n) x stat uns
  have hmem : KeepsMemory s (s.sampled n m x stat uns) := .of_does hdoes (by decide)
  exact ⟨hhi, (mem_insertDue _ _ _).mpr (.inl rfl), hlat, hdoes.same .count (by decide) (by decide), hkeeps, hmem⟩

variable {isl : Isl} {mon : PinNo} {v : BitVec 16}

theorem exec_monitorTick_idle (h : s.monSamples isl.val mon.val = false) : exec (.monitorTick isl mon v) s = .next s :=
  if_pos (by rw [h]; rfl)

theorem State.since_of_samples {n m : Nat} (h : s.monSamples n m = true) : (s.mon n m).since.isNone = false := by
  unfold State.monSamples at h
  cases hsince : (s.mon n m).since with
  | none => rw [hsince] at h; cases h
  | some d => rfl

/-- A sample of an unfiltered ABOVE monitor is taken, and its cause is judged in the next cycle: that of HI where it has a
state. -/
theorem exec_monitorTick_takes (hsamples : s.monSamples isl.val mon.val = true)
    (hmode : s.fld (aMON_CFG isl.val mon.val) fMON_CFG_MODE = 0)
    (hfilt : s.fld (aMON_CFG isl.val mon.val) fMON_CFG_FILT = 0) :
    ∃ x stat uns cause, x.hi = s.hiAfter isl.val mon.val v ∧ (∀ b, s.hiAfter isl.val mon.val v = some b → cause = b) ∧
      exec (.monitorTick isl mon v) s = .next ((s.sampled isl.val mon.val x stat uns).hold (.island (Fin.ofNat 80 isl.val))
        (Count.cycleStart s.count + cyc 1) (.monCause isl mon cause false)) := by
  have hblank : s.blanked isl.val mon.val = false := if_neg (by rw [hfilt]; decide)
  generalize hr : exec (.monitorTick isl mon v) s = r
  change execMonitorTick isl mon v s = r at hr
  unfold execMonitorTick at hr
  extract_lets -underBinder -merge -useContext n m x cfg thr mode hi loAbove lo safeClear x1 trip hist filt uns cause s1 s2
    at hr
  have hm0 : mode = 0 := hmode
  have hhi : hi = s.hiAfter n m v := if_pos (by rw [hm0]; rfl)
  have hlo : usesLo mode = false := by rw [hm0]; rfl
  rw [if_neg (by rw [hsamples, hblank]; decide), hlo] at hr
  refine ⟨_, _, uns, cause, hhi, fun b hb => ?_, hr.symm⟩
  have huns : uns = false := by
    unfold uns Mon.unsettled x1
    rw [hlo, hhi, hb, State.since_of_samples hsamples]
    simp
  have htrip : trip = b := by
    unfold trip Mon.tripSample x1
    rw [hlo, hm0, hhi, hb]
    simp [usesHi]
  unfold cause
  rw [huns, htrip, if_pos (.inl hfilt)]
  rfl

end Sys2Proof.Machine
end

section
/-! Trips, enables, disables and thresholds of a monitor (R149 to R156), and O13. -/
namespace Sys2Proof.Machine

variable {s t : State} {isl : Isl} {mon : PinNo}

/-! ## Trips (R149, R151) -/

/-- The cause that a monitor shows stands beside its latch, its enable and its binding. -/
theorem not_mem_causeRegs {n m a : Nat} (h : a = aMON_LAT n ∨ a = aMON_CTL n m ∨ a = aMON_BIND n m) :
    a ∉ [aMON_CAUSE n, aMON_STAT n m] := by
  simp only [List.mem_cons, List.not_mem_nil, or_false, not_or, aMON_CAUSE, aMON_STAT]
  rcases h with rfl | rfl | rfl
  · unfold aMON_LAT; omega
  · unfold aMON_CTL; omega
  · unfold aMON_BIND; omega

theorem State.shadowed_of_causeRegs {n m : Nat} (htwin : t.reg aTWN_STAT = s.reg aTWN_STAT)
    (hkeeps : KeepsRegs [aMON_CAUSE n, aMON_STAT n m] s t) : t.shadowed n m = s.shadowed n m :=
  State.shadowed_congr htwin (hkeeps _ (not_mem_causeRegs (.inr (.inr rfl))))

theorem State.showCause_keeps (s : State) (n m : Nat) (cause : Bool) :
    KeepsRegs [aMON_CAUSE n, aMON_STAT n m] s (s.showCause n m cause) :=
  ((KeepsRegs.refl _ s).setReg (a := aMON_CAUSE n) (by simp) _).setBit (a := aMON_STAT n m) (by simp) _ _

/-- A trip judged of a monitor whose latch is 0 sets the latch in the next cycle. -/
theorem State.judgeCause_trips (lo : Bool) (hsince : (s.mon isl.val mon.val).since.isSome = true)
    (hlatch : (s.reg (aMON_LAT isl.val)).getLsbD mon.val = false) (hown : s.shadowed isl.val mon.val = false) :
    s.judgeCause isl mon true lo = (s.showCause isl.val mon.val true).hold (.island (Fin.ofNat 80 isl.val))
      (Count.cycleStart s.count + cyc 1) (.monLatch isl mon lo) := by
  have hkeeps := s.showCause_keeps isl.val mon.val true
  have hlat : (s.showCause isl.val mon.val true).reg (aMON_LAT isl.val) = s.reg (aMON_LAT isl.val) :=
    hkeeps _ (not_mem_causeRegs (.inl rfl))
  have hshadow : (s.showCause isl.val mon.val true).shadowed isl.val mon.val = s.shadowed isl.val mon.val :=
    State.shadowed_of_causeRegs (State.showCause_does.regs (by decide) _ (by rw [adr_TWN_STAT.here]; decide)) hkeeps
  refine (if_neg ?_).trans (if_pos ?_)
  · rw [Option.isNone_eq_false_iff.mpr hsince]; decide
  · rw [hlat, hlatch, hshadow, hown]; rfl

/-- A trip counted, with its side shown and FS 40 raised (R151). -/
def State.tripCounted (s : State) (n m : Nat) (lo : Bool) : State :=
  (((s.bump (aMON_TRIPS n m)).setBit (aMON_STAT n m) fMON_STAT_LAST_SIDE lo).causeOn 40 n).raise 40 (Fin.ofNat 80 n)

theorem State.tripCounted_shows (s : State) (n m : Nat) (lo : Bool) : let t := s.tripCounted n m lo
    (t.reg (aMON_TRIPS n m)).toNat = min 0xFFFFFFFF ((s.reg (aMON_TRIPS n m)).toNat + 1) ∧
      Raises 40 (Fin.ofNat 80 n) s t ∧ t.causeStands 40 = true ∧ KeepsRegs [aMON_TRIPS n m, aMON_STAT n m] s t := by
  intro t
  have hcause : Does [.causes] [] ((s.bump (aMON_TRIPS n m)).setBit (aMON_STAT n m) fMON_STAT_LAST_SIDE lo) _ :=
    State.causeOn_does (fs := 40) (inst := n)
  have hreg : ∀ a, t.reg a = ((s.bump (aMON_TRIPS n m)).setBit (aMON_STAT n m) fMON_STAT_LAST_SIDE lo).reg a :=
    fun a => hcause.regs (by decide) a (by simp)
  refine ⟨?_, raises_of_count (hcause.same .count (by decide) (by decide)) _ _, State.causeOn_causeStands _ _ _,
    fun a ha => (hreg a).trans ?_⟩
  · rw [hreg, State.setBit, State.reg_setFld_ne _ _ _ (by unfold aMON_TRIPS aMON_STAT; omega), State.reg_bump_toNat]
  · exact (((KeepsRegs.refl _ s).bump (a := aMON_TRIPS n m) (by simp)).setBit (a := aMON_STAT n m) (by simp) _ _) a ha

/-- The excursion entry and the flag of a trip leave what it counts and raises. -/
theorem State.tripActions_after (s : State) (n m : Nat) (lo : Bool) (at_ : Count) :
    Does [.agenda, .free, .fresh] [1, 3] (s.tripCounted n m lo) (s.tripActions n m lo at_) ∧
      (s.tripCounted n m lo).agenda ⊆ (s.tripActions n m lo at_).agenda := by
  unfold State.tripActions
  extract_lets -underBinder -merge -useContext isl ch code s1 detail s2 flag
  have h2 : Does [.agenda, .free, .fresh] [1, 3] s1 s2 ∧ s1.agenda ⊆ s2.agenda := by
    unfold s2
    split
    · exact ⟨State.excursion_does, State.issue_held _ _ _ _ _ _⟩
    · exact ⟨State.hold_does.mono (by decide), subset_insertDue _ _⟩
  split
  · split
    · exact ⟨State.postAt_does.call (by decide) h2.1, List.Subset.trans h2.2 (State.issue_held _ _ _ _ _ _)⟩
    · exact ⟨State.hold_does.call (by decide) h2.1, List.Subset.trans h2.2 (subset_insertDue _ _)⟩
  · exact h2

/-- A latch set with the inhibit that it forces (R102, R149). -/
def State.latchForced (s : State) (n m : Nat) : State :=
  (s.forceInh n m).monChange n m true ((s.reg (aMON_UNS n)).getLsbD m) s.count

theorem State.latchForced_does {n m : Nat} : Does [.agenda, .causes, .fresh, .mons, .twn] [64] s (s.latchForced n m) :=
  State.monChange_does.call (by decide) (State.forceInh_does.mono (by decide))

theorem State.latchForced_shows (s : State) {n m : Nat} (hm : m < 32) : let t := s.latchForced n m
    t.reg (aMON_LAT n) = putF (s.reg (aMON_LAT n)) ⟨m, m⟩ true.toNat ∧ KeepsRegs (changeRegs n m) s t := by
  have hforce : ∀ a, (s.forceInh n m).reg a = s.reg a := fun a => State.forceInh_does.regs (by decide) a (by simp)
  obtain ⟨hlat, hkeeps, -⟩ := (s.forceInh n m).monChange_shows hm (n := n) true ((s.reg (aMON_UNS n)).getLsbD m) s.count
  rw [hforce] at hlat
  exact ⟨hlat, fun a ha => (hkeeps a ha).trans (hforce a)⟩

/-- A trip: the latch, the other actions of R151, and the inhibit network. -/
def State.tripped (s : State) (n m : Nat) (lo : Bool) : State :=
  ((s.latchForced n m).tripActions n m lo s.count).settleMon n m

theorem State.setLatch_trips (lo : Bool) (hsince : (s.mon isl.val mon.val).since.isSome = true)
    (hlatch : (s.reg (aMON_LAT isl.val)).getLsbD mon.val = false) (hown : s.shadowed isl.val mon.val = false) :
    s.setLatch isl mon lo = s.tripped isl.val mon.val lo :=
  if_neg (by rw [Option.isNone_eq_false_iff.mpr hsince, hlatch, hown]; decide)

theorem State.tripped_does {n m : Nat} (lo : Bool) :
    Does [.agenda, .causes, .free, .fresh, .chans, .mons, .twn] [1, 3, 64] s (s.tripped n m lo) :=
  State.settleMon_does.call (by decide) (State.tripActions_does.call (by decide) (State.latchForced_does.mono (by decide)))

theorem State.tripped_shows (s : State) {n m : Nat} (hm : m < 32) (lo : Bool) : let t := s.tripped n m lo
    t.reg (aMON_LAT n) = putF (s.reg (aMON_LAT n)) ⟨m, m⟩ true.toNat ∧
      (t.reg (aMON_TRIPS n m)).toNat = min 0xFFFFFFFF ((s.reg (aMON_TRIPS n m)).toNat + 1) ∧
      Raises 40 (Fin.ofNat 80 n) s t ∧ t.causeStands 40 = true := by
  intro t
  obtain ⟨hlat, hkeeps⟩ := s.latchForced_shows hm (n := n)
  obtain ⟨htrips, hraise, hcause, hcounted⟩ := (s.latchForced n m).tripCounted_shows n m lo
  obtain ⟨hafter, hheld⟩ := (s.latchForced n m).tripActions_after n m lo s.count
  have hdone : Does [.fresh, .chans] [64] ((s.latchForced n m).tripActions n m lo s.count) t := State.settleMon_does
  have hreg : ∀ a, ¬ inhibitReg a → regBlk a = 64 → t.reg a = ((s.latchForced n m).tripCounted n m lo).reg a :=
    fun a ha hb => (State.settleMon_keeps _ n m a ha).trans (hafter.regs (by decide) a (by rw [hb]; decide))
  refine ⟨?lat, ?trips, ?raise, ?stands⟩
  case lat =>
    rw [hreg _ (not_inhibitReg_monLat n) adr_MON_LAT.here, hcounted _ (by
      simp only [List.mem_cons, List.not_mem_nil, or_false, not_or, aMON_LAT, aMON_TRIPS, aMON_STAT]; omega), hlat]
  case trips =>
    rw [hreg _ (not_inhibitReg_of_offset (.inr (by unfold aMON_TRIPS; omega))) adr_MON_TRIPS.here, htrips, hkeeps _ (by
      simp only [changeRegs, List.mem_cons, List.not_mem_nil, or_false, not_or, aMON_LAT, aMON_UNS, aMON_TRIPS, aMON_STAT]
      omega)]
  case raise =>
    have hcount : (s.latchForced n m).count = s.count := State.latchForced_does.same .count (by decide) (by decide)
    unfold Raises at hraise ⊢
    rw [hcount] at hraise
    rw [show t.agenda = _ from hdone.same .agenda (by decide) (by decide)]
    exact hheld hraise
  case stands =>
    have hcauses : t.causes = ((s.latchForced n m).tripCounted n m lo).causes :=
      (hdone.same .causes (by decide) (by decide)).trans (hafter.same .causes (by decide) (by decide))
    unfold State.causeStands at hcause ⊢
    rw [hcauses]
    exact hcause

/-! ## Enables (R153, R155) -/

/-- An accepted enable: EN reads 1, and its tick waits. -/
def State.enabled (s : State) (n m : Nat) (tick : Count) : State :=
  (s.latch (aMON_CTL n m) fMON_CTL_EN).setMon n m { s.mon n m with enableAt := some tick }

theorem State.enabled_shows (s : State) (n m : Nat) (tick : Count) : let t := s.enabled n m tick
    t.bit (aMON_CTL n m) fMON_CTL_EN = true ∧ KeepsRegs [aMON_CTL n m] s t ∧ (t.mon n m).enableAt = some tick ∧
      Does [.fresh, .mons] [64] s t :=
  ⟨s.bit_latch_self _ _ rfl (by decide), (KeepsRegs.refl _ s).latch (by simp) _,
    congrArg Mon.enableAt (State.setMon_self _ _ _ _),
    State.setMon_does.call (by decide) (Does.latch adr_MON_CTL (by decide) Does.refl)⟩

theorem exec_monEnWrite_enables {by_ : Issuer} (hoff : s.bit (aMON_CTL isl.val mon.val) fMON_CTL_EN = false)
    (hmode : s.fld (aMON_CFG isl.val mon.val) fMON_CFG_MODE = 0) (hfilt : s.fld (aMON_CFG isl.val mon.val) fMON_CFG_FILT = 0)
    (hk : s.fld (aMON_CFG isl.val mon.val) fMON_CFG_K ≤ s.fld (aMON_CFG isl.val mon.val) fMON_CFG_N) :
    exec (.monEnWrite by_ isl mon true) s = (let tick := Count.ceilTo s.at (128 * s.monDiv isl.val mon.val)
      .next (if tick = s.count then (s.enabled isl.val mon.val tick).monStart isl.val mon.val
        else (s.enabled isl.val mon.val tick).hold (.island (Fin.ofNat 80 isl.val)) tick (.monOn isl mon))) := by
  unfold State.fld at hmode hfilt hk
  refine (if_neg (by rw [hoff]; decide)).trans (if_neg ?_)
  rintro (h | ⟨h, -⟩ | ⟨h, -⟩)
  · omega
  · omega
  · omega

/-- An enable that takes effect: no comparator states, and a cause on the side of SAFE_SIDE (R153). -/
def State.monBegun (s : State) (n m : Nat) (trip : Bool) : State :=
  let s1 := s.setMon n m { s.mon n m with
    hi := none, lo := none, history := [], since := some s.count, enableAt := none, told := false }
  (s1.setFld (aMON_CAUSE n) ⟨m, m⟩ trip.toNat).setReg (aMON_STAT n m)
    (putF (putF (putF (fldWord fMON_STAT_LAST_SIDE (s1.fld (aMON_STAT n m) fMON_STAT_LAST_SIDE))
      fMON_STAT_UNSETTLED 1) fMON_STAT_CAUSE trip.toNat) fMON_STAT_ON 1)

theorem State.monBegun_does {n m : Nat} {trip : Bool} : Does [.mons] [64] s (s.monBegun n m trip) :=
  Does.setReg adr_MON_STAT (by decide) (Does.setFld adr_MON_CAUSE (by decide) (State.setMon_does.mono (by decide)))

theorem State.monBegun_shows (s : State) (n m : Nat) (trip : Bool) : let t := s.monBegun n m trip
    (t.mon n m).since = some s.count ∧ (t.mon n m).hi = none ∧ KeepsRegs [aMON_CAUSE n, aMON_STAT n m] s t :=
  ⟨congrArg Mon.since (State.setMon_self _ _ _ _), congrArg Mon.hi (State.setMon_self _ _ _ _),
    ((KeepsRegs.of_regs rfl _).setReg (a := aMON_CAUSE n) (by simp) _).setReg (a := aMON_STAT n m) (by simp) _⟩

/-- The latch of a monitor that starts under SAFE_SIDE TRIP sets, with the inhibit that it forces where it is new. -/
def State.monTrips (s : State) (n m : Nat) : State :=
  ((if (s.reg (aMON_LAT n)).getLsbD m then s else s.forceInh n m).monChange n m true true s.count).settleMon n m

theorem State.monTrips_shows (s : State) {n m : Nat} (hm : m < 32) : let t := s.monTrips n m
    (t.reg (aMON_LAT n)).getLsbD m = true ∧ t.reg (aMON_CTL n m) = s.reg (aMON_CTL n m) ∧
      t.mon n m = { s.mon n m with past := (t.mon n m).past } ∧
      (s.bit (aMON_BIND n m) fMON_BIND_INH = false → t.agenda = s.agenda) ∧ KeepsMemory s t := by
  intro t
  let u := if (s.reg (aMON_LAT n)).getLsbD m then s else s.forceInh n m
  have hu : Does [.agenda] [] s u := .ite (fun _ => .refl) (fun _ => State.forceInh_does)
  have hchange : Does [.causes, .fresh, .mons, .twn] [64] u (u.monChange n m true true s.count) := State.monChange_does
  have hdone : Does [.fresh, .chans] [64] (u.monChange n m true true s.count) t := State.settleMon_does
  have hkeeps := (u.monChange n m true true s.count).settleMon_keeps n m
  obtain ⟨hlat, hother, hmon⟩ := u.monChange_shows hm (n := n) true true s.count
  have hdone_mon : t.mon n m = _ := State.mon_congr (hdone.same .mons (by decide) (by decide)) n m
  have hsame : u.mon n m = s.mon n m := State.mon_congr (hu.same .mons (by decide) (by decide)) n m
  refine ⟨?_, ?_, ?_, fun hfree => ?_,
    .of_does (hdone.call (qs := [.agenda, .causes, .fresh, .mons, .twn, .chans]) (cs := [64]) (by decide)
      (hchange.call (by decide) (hu.mono (by decide)))) (by decide)⟩
  · rw [show t.reg _ = _ from hkeeps _ (not_inhibitReg_monLat n), hlat, putF_bit_getLsbD _ hm, if_pos rfl]
  · rw [show t.reg _ = _ from hkeeps _ (not_inhibitReg_of_offset (.inr (by unfold aMON_CTL; omega))), hother _ (by
      simp only [changeRegs, List.mem_cons, List.not_mem_nil, or_false, not_or, aMON_LAT, aMON_UNS, aMON_CTL, aMON_STAT]
      omega), hu.regs (by decide) _ (by simp)]
  · rw [hdone_mon, ← hsame]
    exact hmon
  · have hidle : u = s := by
      unfold u
      rw [State.forceInh_of_free hfree, ite_self]
    rw [show t.agenda = _ from hdone.same .agenda (by decide) (by decide),
      show State.agenda _ = u.agenda from hchange.same .agenda (by decide) (by decide), hidle]

/-- A start under SAFE_SIDE TRIP: the latch sets, and without INH nothing is posted or raised. -/
theorem State.monBegun_monTrips (s : State) {n m : Nat} (hm : m < 32) (trip : Bool) :
    let t := (s.monBegun n m trip).monTrips n m
    (t.reg (aMON_LAT n)).getLsbD m = true ∧ t.reg (aMON_CTL n m) = s.reg (aMON_CTL n m) ∧
      (t.mon n m).since = some s.count ∧ (t.mon n m).hi = none ∧
      (s.bit (aMON_BIND n m) fMON_BIND_INH = false → t.agenda = s.agenda) ∧ KeepsMemory s t := by
  have hdoes : Does [.mons] [64] s (s.monBegun n m trip) := State.monBegun_does
  obtain ⟨hsince, hhi, hkeeps⟩ := s.monBegun_shows n m trip
  obtain ⟨hlat, hctl, hmon, hfree, hmem⟩ := (s.monBegun n m trip).monTrips_shows hm (n := n)
  have hbind : (s.monBegun n m trip).reg (aMON_BIND n m) = s.reg (aMON_BIND n m) :=
    hkeeps _ (not_mem_causeRegs (.inr (.inr rfl)))
  have hctl' : (s.monBegun n m trip).reg (aMON_CTL n m) = s.reg (aMON_CTL n m) :=
    hkeeps _ (not_mem_causeRegs (.inr (.inl rfl)))
  exact ⟨hlat, hctl.trans hctl', (congrArg Mon.since hmon).trans hsince, (congrArg Mon.hi hmon).trans hhi,
    fun h => (hfree ((State.bit_congr _ hbind).trans h)).trans (hdoes.same .agenda (by decide) (by decide)),
    KeepsMemory.trans (.of_does hdoes (by decide)) hmem⟩

theorem State.monStart_trips {n m : Nat} (hat : (s.mon n m).enableAt = some s.count)
    (hside : s.fld (aMON_CFG n m) fMON_CFG_SAFE_SIDE = 0) (hown : s.shadowed n m = false) :
    s.monStart n m = (s.monBegun n m (decide (s.fld (aMON_CFG n m) fMON_CFG_SAFE_SIDE = 0))).monTrips n m := by
  have hkeeps := (s.monBegun_shows n m (decide (s.fld (aMON_CFG n m) fMON_CFG_SAFE_SIDE = 0))).2.2
  have hshadow := State.shadowed_of_causeRegs
    (State.monBegun_does.regs (by decide) _ (by rw [adr_TWN_STAT.here]; decide)) hkeeps
  exact (if_neg (not_not.mpr hat)).trans (if_pos ⟨hside, hshadow.trans hown⟩)

/-- An enable whose tick is now, under SAFE_SIDE TRIP (R153, R155). -/
theorem State.enabled_starts {n m : Nat} (hm : m < 32) (hside : s.fld (aMON_CFG n m) fMON_CFG_SAFE_SIDE = 0)
    (hown : s.shadowed n m = false) : let t := (s.enabled n m s.count).monStart n m
    t.bit (aMON_CTL n m) fMON_CTL_EN = true ∧ (t.reg (aMON_LAT n)).getLsbD m = true ∧ (t.mon n m).since = some s.count ∧
      (t.mon n m).hi = none ∧ (s.bit (aMON_BIND n m) fMON_BIND_INH = false → t.agenda = s.agenda) ∧ KeepsMemory s t := by
  obtain ⟨hon, hkeeps, hat, hdoes⟩ := s.enabled_shows n m s.count
  have hbind : (s.enabled n m s.count).reg (aMON_BIND n m) = s.reg (aMON_BIND n m) := hkeeps _ (by
    simp only [List.mem_cons, List.not_mem_nil, or_false, aMON_BIND, aMON_CTL]; omega)
  have hcfg : (s.enabled n m s.count).reg (aMON_CFG n m) = s.reg (aMON_CFG n m) := hkeeps _ (by
    simp only [List.mem_cons, List.not_mem_nil, or_false, aMON_CFG, aMON_CTL]; omega)
  have hshadow := State.shadowed_congr (hdoes.regs (by decide) aTWN_STAT (by rw [adr_TWN_STAT.here]; decide)) hbind
  rw [State.monStart_trips hat ((State.fld_congr _ hcfg).trans hside) (hshadow.trans hown)]
  obtain ⟨hlat, hctl, hsince, hhi, hfree, hmem⟩ := (s.enabled n m s.count).monBegun_monTrips hm (n := n)
    (decide ((s.enabled n m s.count).fld (aMON_CFG n m) fMON_CFG_SAFE_SIDE = 0))
  exact ⟨(State.bit_congr _ hctl).trans hon, hlat, hsince, hhi, fun h => hfree ((State.bit_congr _ hbind).trans h),
    KeepsMemory.trans (.of_does hdoes (by decide)) hmem⟩

/-! ## Disables (R153, R155) -/

/-- A disabled monitor: EN reads 0, and no comparator has a state. -/
def State.monOff (s : State) (n m : Nat) : State :=
  let s1 := (s.setFld (aMON_CTL n m) fMON_CTL_EN 0).setMon n m
    { s.mon n m with hi := none, lo := none, history := [], since := none, enableAt := none }
  (s1.setFld (aMON_CAUSE n) ⟨m, m⟩ 0).setReg (aMON_STAT n m)
    (putF (fldWord fMON_STAT_LAST_SIDE (s1.fld (aMON_STAT n m) fMON_STAT_LAST_SIDE)) fMON_STAT_UNSETTLED 1)

theorem State.monOff_shows (s : State) (n m : Nat) : let t := s.monOff n m
    t.bit (aMON_CTL n m) fMON_CTL_EN = false ∧ t.reg (aMON_LAT n) = s.reg (aMON_LAT n) ∧ (t.mon n m).since = none ∧
      (t.mon n m).hi = none := by
  intro t
  have hne : aMON_CTL n m ≠ aMON_STAT n m ∧ aMON_CTL n m ≠ aMON_CAUSE n := by
    unfold aMON_CTL aMON_STAT aMON_CAUSE; omega
  have hne' : aMON_LAT n ≠ aMON_STAT n m ∧ aMON_LAT n ≠ aMON_CAUSE n ∧ aMON_LAT n ≠ aMON_CTL n m := by
    unfold aMON_LAT aMON_STAT aMON_CAUSE aMON_CTL; omega
  refine ⟨?_, ?_, congrArg Mon.since (State.setMon_self _ _ _ _), congrArg Mon.hi (State.setMon_self _ _ _ _)⟩
  · refine (State.bit_congr _ ((State.reg_setReg_ne _ _ hne.1).trans (State.reg_setReg_ne _ _ hne.2))).trans ?_
    exact s.bit_setBit_self (aMON_CTL n m) fMON_CTL_EN false rfl (by decide)
  · exact (State.reg_setReg_ne _ _ hne'.1).trans ((State.reg_setReg_ne _ _ hne'.2.1).trans (State.reg_setReg_ne _ _ hne'.2.2))

theorem State.monOff_does {n m : Nat} : Does [.mons] [64] s (s.monOff n m) :=
  Does.setReg adr_MON_STAT (by decide) (Does.setFld adr_MON_CAUSE (by decide)
    (State.setMon_does.call (by decide) (Does.setFld adr_MON_CTL (by decide) Does.refl)))

/-- A disable: the monitor off, and UNSETTLED with the latch as it stands. -/
def State.monDisabled (s : State) (n m : Nat) : State :=
  let u := s.monOff n m
  u.monChange n m ((u.reg (aMON_LAT n)).getLsbD m) true s.count

theorem State.monDisabled_shows (s : State) {n m : Nat} (hm : m < 32) : let t := s.monDisabled n m
    t.bit (aMON_CTL n m) fMON_CTL_EN = false ∧ (t.mon n m).since = none ∧ (t.mon n m).hi = none ∧
      t.reg (aMON_LAT n) = s.reg (aMON_LAT n) ∧ KeepsMemory s t := by
  intro t
  obtain ⟨hoff, hlat, hsince, hhi⟩ := s.monOff_shows n m
  obtain ⟨hlat', hkeeps, hmon⟩ := (s.monOff n m).monChange_keeps hm (n := n) true s.count
  have hdoes : Does [.causes, .fresh, .mons, .twn] [64] s t :=
    State.monChange_does.call (by decide) (State.monOff_does.mono (by decide))
  have hctl : t.reg (aMON_CTL n m) = (s.monOff n m).reg (aMON_CTL n m) := hkeeps _ (by
    simp only [List.mem_cons, List.not_mem_nil, or_false, not_or, aMON_CTL, aMON_UNS, aMON_STAT]; omega)
  exact ⟨(State.bit_congr _ hctl).trans hoff, (congrArg Mon.since hmon).trans hsince, (congrArg Mon.hi hmon).trans hhi,
    hlat'.trans hlat, .of_does hdoes (by decide)⟩

theorem exec_monEnWrite_disables {by_ : Issuer} (hfree : s.bit (aMON_BIND isl.val mon.val) fMON_BIND_INH = false) :
    exec (.monEnWrite by_ isl mon false) s = .next (s.monDisabled isl.val mon.val) :=
  if_neg (fun h => Bool.false_ne_true (hfree.symm.trans h.2.1))

theorem exec_monEnWrite_bound {by_ : Issuer} (hpin : mon.val < 24)
    (hinh : s.bit (aMON_BIND isl.val mon.val) fMON_BIND_INH = true) (hdrv : s.drvEn (chanOf isl.val (mon.val / 6)) = true) :
    exec (.monEnWrite by_ isl mon false) s = .next (s.rejectVal by_ (aMON_CTL isl.val mon.val)) :=
  if_pos ⟨hpin, hinh, hdrv⟩

/-! ## Thresholds (R156) and the timeout of UNSETTLED (R158) -/

/-- Thresholds written: a sample of a cycle that began before keeps the old ones. -/
def State.thrWritten (s : State) (n m : Nat) (data : Word) : State :=
  (s.setMon n m { s.mon n m with thrOld := if s.at = s.count then none else some (s.count, s.monThr n m) }).setReg
    (aMON_THR n m) data

theorem State.thrWritten_shows (s : State) (n m : Nat) (data : Word) : let t := s.thrWritten n m data
    t.reg (aMON_THR n m) = data ∧ (t.mon n m).hi = (s.mon n m).hi ∧ (t.mon n m).lo = (s.mon n m).lo ∧
      (t.mon n m).history = (s.mon n m).history ∧ KeepsRegs [aMON_THR n m] s t ∧ KeepsMemory s t := by
  intro t
  have hmon : t.mon n m = _ := State.setMon_self _ _ _ _
  exact ⟨State.reg_setReg_self _ _ _, by rw [hmon], by rw [hmon], by rw [hmon],
    KeepsRegs.setReg (.of_regs rfl _) (by simp) _, .of_fields rfl rfl rfl⟩

theorem exec_monThrWrite_takes {by_ : Issuer} {data : Word} (hmode : s.fld (aMON_CFG isl.val mon.val) fMON_CFG_MODE ≠ 2) :
    exec (.monThrWrite by_ isl mon data) s = .next (s.thrWritten isl.val mon.val data) :=
  if_neg (fun h => hmode h.2.1)

theorem exec_monThrWrite_refused {by_ : Issuer} {data : Word} (hon : s.bit (aMON_CTL isl.val mon.val) fMON_CTL_EN = true)
    (hmode : s.fld (aMON_CFG isl.val mon.val) fMON_CFG_MODE = 2) (htouch : bandsTouch data = true) :
    exec (.monThrWrite by_ isl mon data) s = .next (s.rejectVal by_ (aMON_THR isl.val mon.val)) :=
  if_pos ⟨hon, hmode, htouch⟩

theorem exec_monUnsettledTimeout_raises (hout : s.monTimedOut isl.val mon.val = true)
    (hbound : s.monBound isl.val mon.val = true)
    (huns : (s.mon isl.val mon.val).unsettled (s.fld (aMON_CFG isl.val mon.val) fMON_CFG_MODE) = true) :
    exec (.monUnsettledTimeout isl mon) s = .next (((s.setMon isl.val mon.val
      { s.mon isl.val mon.val with told := true }).causeOn 41 isl.val).raise 41 (Fin.ofNat 80 isl.val)) :=
  if_pos ⟨hout, hbound, huns⟩

/-! ## O13 -/

/-- Settles O13: a sample moves HI as `comparator` says and holds its cause, a trip is `State.tripped_shows`, an enable
`State.enabled_starts` or a tick that waits, a disable `State.monDisabled_shows`, and new thresholds
`State.thrWritten_shows`. -/
theorem monitors : Obligations.Monitors := by
  unfold Obligations.Monitors
  refine ⟨fun isl mon v s => ?samples, fun isl mon lo s => ?trips, fun by_ isl mon data s => ?writes⟩
  case samples =>
    intro n m thr next
    refine ⟨fun hsamples hmode hfilt => ?_, fun h => ⟨s, exec_monitorTick_idle h, rfl⟩⟩
    obtain ⟨x, stat, uns, cause, hx, hcause, hexec⟩ := exec_monitorTick_takes (v := v) hsamples hmode hfilt
    obtain ⟨hhi, hheld, hlat, hcount, hkeeps, hmem⟩ := s.sampled_hold_shows (n := n) (m := m) (by omega) x stat uns
      (.island (Fin.ofNat 80 isl.val)) (Count.cycleStart s.count + cyc 1) (.monCause isl mon cause false)
    refine ⟨fun habove => ⟨_, hexec, ?_⟩, fun hbelow => ⟨_, hexec, ?_⟩, fun hlo hhigh => ⟨_, hexec, ?_⟩⟩
    · have hafter : s.hiAfter isl.val mon.val v = some true := comparator_above _ habove
      cases hcause true hafter
      exact ⟨hhi.trans (hx.trans hafter), hheld, hlat, hcount, hkeeps, hmem⟩
    · have hafter : s.hiAfter isl.val mon.val v = some false := comparator_below _ hbelow
      cases hcause false hafter
      exact ⟨hhi.trans (hx.trans hafter), hheld, hlat, hkeeps, hmem⟩
    · exact ⟨hhi.trans (hx.trans (comparator_within _ hlo hhigh)), hkeeps, hmem⟩
  case trips =>
    intro n m hsince hlatch hown
    rw [State.judgeCause_trips lo hsince hlatch hown, State.setLatch_trips lo hsince hlatch hown]
    have hdoes := State.tripped_does (s := s) (n := n) (m := m) lo
    obtain ⟨hlat, htrips, hraise, hstands⟩ := s.tripped_shows (n := n) (m := m) (by omega) lo
    refine ⟨(mem_insertDue _ _ _).mpr (.inl rfl), fun i => ?_, htrips, hraise, hstands,
      hdoes.same .count (by decide) (by decide), .of_does hdoes (by decide)⟩
    rw [hlat, putF_bit_getLsbD _ (by omega)]
    by_cases h : i.val = m <;> simp [h]
  case writes =>
    intro n m tick
    refine ⟨fun hoff hmode hfilt hk => ⟨fun hnow hside hown => ⟨_, exec_monEnWrite_enables hoff hmode hfilt hk,
        ?starts⟩, fun hlater => ⟨_, exec_monEnWrite_enables hoff hmode hfilt hk, ?waits⟩⟩,
      fun hpin hinh hdrv => ⟨_, exec_monEnWrite_bound hpin hinh hdrv, ?bound⟩,
      fun hfree => ⟨_, exec_monEnWrite_disables hfree, ?disables⟩,
      fun hmode => ⟨_, exec_monThrWrite_takes hmode, ?takes⟩,
      fun hon hmode htouch => ⟨_, exec_monThrWrite_refused hon hmode htouch, ?refused⟩,
      fun hout hbound huns => ⟨_, exec_monUnsettledTimeout_raises hout hbound huns, ?raises⟩⟩
    case bound =>
      have href := s.rejectVal_refuses by_ isl (a := aMON_CTL isl.val mon.val) (by unfold aMON_CTL; omega)
      exact ⟨href.latched, State.bit_congr _ (href.reg (by unfold n m aMON_CTL; omega)), href.raised, href.keepsMemory⟩
    case refused =>
      have href := s.rejectVal_refuses by_ isl (a := aMON_THR isl.val mon.val) (by unfold aMON_THR; omega)
      exact ⟨href.reg (by unfold n m aMON_THR; omega), href.raised, href.keepsMemory⟩
    case takes => exact s.thrWritten_shows n m data
    case raises =>
      obtain ⟨hraise, hstands, hdoes⟩ := State.causeOn_raise (s := s)
        (u := s.setMon n m { s.mon n m with told := true }) rfl 41 n (Fin.ofNat 80 n)
      have hall : Does [.agenda, .causes, .mons] [] s _ := hdoes.call (by decide) (State.setMon_does.mono (by decide))
      exact ⟨hraise, hstands, .of_does hall (by decide) _, .of_does hall (by decide)⟩
    case disables => exact s.monDisabled_shows (by omega)
    case starts =>
      rw [if_pos hnow, show Count.ceilTo s.at (128 * s.monDiv isl.val mon.val) = s.count from hnow]
      exact State.enabled_starts (by omega) hside hown
    case waits =>
      obtain ⟨hon, hkeeps, -, hdoes⟩ := s.enabled_shows n m tick
      have hmem : KeepsMemory s (s.enabled n m tick) := .of_does hdoes (by decide)
      rw [if_neg hlater]
      exact ⟨hon, (mem_insertDue _ _ _).mpr (.inl rfl), hkeeps, hmem⟩

end Sys2Proof.Machine
end

section
/-! Refused writes of a block (R34, R50), and the bit of a word that a write of it sets. -/
namespace Sys2Proof.Machine

/-- A write refused for its value at a register of an existing block: VAL_REJECT of that block sets, FS 5 is raised, and no
more than the block's header changes. -/
theorem State.rejectVal_shows (s : State) (by_ : Issuer) {a b : Nat} (hb : blockExists b = true) (ha : a / 0x100000 = b) :
    let t := s.rejectVal by_ a
    (t.reg (b * 0x100000 + 8)).getLsbD 2 = true ∧ (∃ i, Raises 5 i s t) ∧
      KeepsRegs [b * 0x100000 + 8, b * 0x100000 + 12] s t ∧ KeepsMemory s t := by
  have hrej : rejBlock a = b := (rejBlock_of_exists (by rw [ha]; exact hb)).trans ha
  have hset := s.reject_sets by_ (k := .val) a (i := 2) rfl
  have hkeeps := s.reject_keepsRegs by_ .val a
  rw [hrej] at hset hkeeps
  exact ⟨hset, s.reject_raises by_ a (by decide), hkeeps, s.reject_keepsMemory by_ .val a⟩

/-- A register of LPE beyond its header reads as before a write that LPE refuses. -/
theorem State.rejectVal_lpe_reg (s : State) (by_ : Issuer) {a b : Nat} (ha : a / 0x100000 = 6) (hb : 0x600010 ≤ b) :
    (s.rejectVal by_ a).reg b = s.reg b :=
  have ⟨_, _, hkeeps, _⟩ := s.rejectVal_shows by_ (b := 6) (by decide) ha
  hkeeps b (by simp only [List.mem_cons, List.not_mem_nil, or_false]; omega)

end Sys2Proof.Machine
end

section
/-! Loops under control (O15): the update of a TRAPPED engine, RESTART, and the enables of a loop (R172, R188, R213, R214). -/
namespace Sys2Proof.Machine

variable {s : State}

/-! ## The update of a disabled or TRAPPED loop -/

theorem State.updateDue_of_disabled {c : Nat} (h : s.bit (aLCH_CTL c) fLCH_CTL_EN = false) : s.updateDue c = none := by
  unfold State.updateDue
  simp [h]

/-- What leaves an engine now crosses a ford in at most 64 cycles: it is in time where as many are left to its period
start. -/
theorem upto_of_crossing {now start : Count} {lat : Nat} (hlat : lat ≤ 64) (hlead : 8192 ≤ (start - now).toNat)
    (hfar : (start - now).toNat < 2 ^ 70) : Count.upto (now + cyc lat) start = true := by
  have hgap : (start - (now + cyc lat)).toNat = (start - now).toNat - 128 * lat := by
    rw [show start - (now + cyc lat) = (start - now) - cyc lat by ring, BitVec.toNat_sub_of_le]
    · simp only [cyc, BitVec.toNat_ofNat]; omega
    · simp only [BitVec.le_def, cyc, BitVec.toNat_ofNat]; omega
  simp only [Count.upto, Count.before, Bool.not_eq_true', BitVec.msb_eq_decide, hgap, decide_eq_false_iff_not]
  omega

/-- A delivery that is in time whatever the ford's latency is held for its period start. -/
theorem State.deliverAt_holds (s : State) {e ch : Nat} {leaves due : Count} (goff : Bool) (set : List Word)
    (h : ∀ lat ≤ 64, Count.upto (leaves + cyc lat) (Count.cycleStart due) = true) :
    (⟨due, .island (engIsl e), .edges (chanFin ch) goff set⟩ : Due) ∈ (s.deliverAt e ch leaves due goff set).agenda := by
  unfold State.deliverAt
  extract_lets lat s1
  rw [if_pos (h lat (Nat.le_of_lt_succ (Nat.mod_lt _ (by decide))))]
  simp [mem_insertDue]

theorem State.finish_holds (s : State) {e ch : Nat} {leaves due : Count} (goff : Bool) (set : List Word) (h : Option Nat)
    (hin : ∀ lat ≤ 64, Count.upto (leaves + cyc lat) (Count.cycleStart due) = true) :
    (⟨due, .island (engIsl e), .edges (chanFin ch) goff set⟩ : Due) ∈ (s.finish e ch leaves due goff set h).agenda :=
  State.deliverAt_holds _ goff set hin

theorem State.bgOn_of_trapped {e : Nat} (h : s.trapped e = true) : s.bgOn e = false := by
  unfold State.bgOn
  rw [h]; rfl

theorem State.bgCatch_of_trapped {e : Nat} (h : s.trapped e = true) : s.bgCatch e = s := by
  unfold State.bgCatch
  rw [State.bgOn_of_trapped h]; rfl

/-- The state of a channel whose update for a period has been served. -/
def State.servedFor (s : State) (c : Nat) (due : Count) : State := s.setLch c { s.lch c with last := some due }

/-- An update that is due on a TRAPPED engine delivers GOFF at once (R213, R214). -/
theorem State.runUpdate_of_trapped {c : Nat} {due : Count} {per index : Nat}
    (hdue : s.updateDue c = some (due, per, index)) (htrap : s.trapped (s.lch c).eng = true) :
    s.runUpdate c none = (s.servedFor c due).finish (s.lch c).eng c s.count due true [] (some 0) := by
  unfold State.runUpdate
  rw [hdue]
  dsimp only
  rw [State.bgCatch_of_trapped htrap]
  exact if_pos htrap

/-- What the update of a TRAPPED engine shows, delivers and holds. -/
theorem State.runUpdate_trapped_shows {c : Nat} {due : Count} {per index : Nat}
    (hdue : s.updateDue c = some (due, per, index)) (htrap : s.trapped (s.lch c).eng = true)
    (hlead : 8192 ≤ (Count.cycleStart due - s.count).toNat) (hfar : (Count.cycleStart due - s.count).toNat < 2 ^ 70) :
    let t := s.runUpdate c none
    (⟨due, .island (engIsl (s.lch c).eng), .edges (chanFin c) true []⟩ : Due) ∈ t.agenda ∧
      (t.lch c).area = (s.lch c).area ∧ t.bit (aLCH_STAT c) fLCH_STAT_GOFF = true ∧ t.reg (aLCH_H c) = 0 ∧
      KeepsMemory s t := by
  rw [State.runUpdate_of_trapped hdue htrap]
  intro t
  obtain ⟨hstat, hh⟩ := (s.servedFor c due).finish_shown (s.lch c).eng s.count due true [] 0 (ch := c)
  have hloops : t.loops = (s.servedFor c due).loops := State.finish_does.same .loops (by decide) (by decide)
  have hdoes : Does [.agenda, .free, .fresh, .loops, .twn] [3, 6] s t :=
    (State.finish_does.mono (by decide)).after (State.setLch_does.mono (by decide))
  have harea : ((s.servedFor c due).lch c).area = (s.lch c).area := by
    unfold State.servedFor
    rw [State.setLch_lch, if_pos rfl]
  refine ⟨State.finish_holds _ _ _ _ (fun lat hlat => upto_of_crossing hlat hlead hfar), ?_, ?_, hh,
    .of_does hdoes (by decide)⟩
  · rw [← harea]
    unfold State.lch
    rw [hloops]
  · exact (State.bit_congr _ hstat).trans (State.bit_setBit_self _ _ _ _ rfl (by decide))

/-! ## RESTART -/

/-- The updates of a channel of an engine run again from this instant (R214). -/
def State.rearm (e : Nat) (s : State) (c : Nat) : State :=
  if (s.lch c).bound && (s.lch c).eng == e && (s.lch c).since.isSome then
    s.setLch c { s.lch c with since := some s.at } else s

/-- An engine that is no longer TRAPPED, with its cause ended. -/
def State.untrapped (s : State) (e : Nat) : State := (s.setBit (aENG_RESTART e) fENG_RESTART_TRAPPED false).causeOff 51 e

theorem exec_engRestart_trapped {by_ : Issuer} {eng : Eng} (h : s.trapped eng.val = true) :
    exec (.engRestart by_ eng) s = .next ((List.range 256).foldl (State.rearm eng.val) (s.untrapped eng.val)) := if_pos h

theorem exec_engRestart_idle {by_ : Issuer} {eng : Eng} (h : s.trapped eng.val = false) :
    exec (.engRestart by_ eng) s = .next s := if_neg (Bool.eq_false_iff.mp h)

theorem State.rearm_area (e : Nat) (s : State) (c k : Nat) : ((State.rearm e s c).lch k).area = (s.lch k).area := by
  unfold State.rearm
  split
  · rw [State.setLch_lch]
    split
    · next h => rw [h]
    · rfl
  · rfl

theorem State.rearm_does {e : Nat} {c : Nat} : Does [.loops] [] s (State.rearm e s c) :=
  Does.ite (fun _ => State.setLch_does) (fun _ => Does.refl)

/-- RESTART of a TRAPPED engine: TRAPPED and its cause end, and of the loops no state area changes. -/
theorem State.restart_shows (s : State) (e : Nat) (l : List Nat) :
    let t := l.foldl (State.rearm e) (s.untrapped e)
    t.trapped e = false ∧ t.causeAt 51 e = false ∧ (∀ k : Nat, (t.lch k).area = (s.lch k).area) ∧ t.engs = s.engs ∧
      KeepsRegs [aENG_RESTART e] s t ∧ KeepsMemory s t := by
  intro t
  have hdoes : Does [.loops] [] (s.untrapped e) t := Does.foldl (fun _ _ => State.rearm_does) Does.refl
  have hregs : KeepsRegs [] (s.untrapped e) t := .of_does hdoes (by decide) _
  have hcauses : t.causes = (s.untrapped e).causes := hdoes.same .causes (by decide) (by decide)
  refine ⟨?trapped, ?cause, fun k => ?area, hdoes.same .engs (by decide) (by decide), ?regs, ?memory⟩
  case trapped =>
    exact (State.bit_congr _ (hregs _ List.not_mem_nil)).trans (State.bit_setBit_self _ _ _ false rfl (by decide))
  case cause =>
    unfold State.causeAt
    rw [hcauses]
    exact State.causeAt_causeOff _ 51 e
  case area =>
    have hstart : ((s.untrapped e).lch k).area = (s.lch k).area := rfl
    exact List.foldlRecOn (motive := fun u => (u.lch k).area = (s.lch k).area) l (State.rearm e) hstart
      (fun u hu c _ => (State.rearm_area e u c k).trans hu)
  case regs => exact (keepsRegs_setReg s _ _).trans (hregs.mono (by simp))
  case memory =>
    have hmem : KeepsMemory (s.untrapped e) t := .of_does hdoes (by decide)
    exact (KeepsMemory.of_fields rfl rfl rfl).trans hmem

/-! ## The enables of a loop -/

section
variable {by_ : Issuer} {ch : Chan}

theorem exec_lchEnWrite_follower {en : Bool} (h : s.follower ch.val = true) : exec (.lchEnWrite by_ ch en) s = .next s :=
  if_pos h

theorem exec_lchEnWrite_refused {en : Bool} (hlead : s.follower ch.val = false) (h : (s.lch ch.val).bound = false) :
    exec (.lchEnWrite by_ ch en) s = .next (s.rejectVal by_ (aLCH_CTL ch.val)) :=
  (if_neg (Bool.eq_false_iff.mp hlead)).trans (if_pos (by rw [h]; rfl))

theorem exec_lchEnWrite_enables (hlead : s.follower ch.val = false) (hbound : (s.lch ch.val).bound = true)
    (hoff : s.bit (aLCH_CTL ch.val) fLCH_CTL_EN = false) :
    exec (.lchEnWrite by_ ch true) s = .next ((s.latch (aLCH_CTL ch.val) fLCH_CTL_EN).loopStarts ch.val) := by
  unfold exec execLchEnWrite
  simp [hlead, hbound, hoff]

/-- A loop that is disabled: EN is 0, its pins play GOFF, and it no longer reads its block. -/
def State.loopOff (s : State) (c : Nat) : State := ((s.setBit (aLCH_CTL c) fLCH_CTL_EN false).loopStops c).unmatch c

theorem exec_lchEnWrite_disables (hlead : s.follower ch.val = false) (hbound : (s.lch ch.val).bound = true) :
    exec (.lchEnWrite by_ ch false) s = .next (s.loopOff ch.val) := by
  unfold exec execLchEnWrite
  simp only [hlead, hbound]
  rfl

end

theorem State.unmatch_area (s : State) (c : Nat) : ((s.unmatch c).lch c).area = (s.lch c).area := by
  unfold State.unmatch
  split
  · exact (congrArg LoopChan.area (State.setLch_lch s c c _)).trans (by rw [if_pos rfl])
  · rfl

theorem State.loopStarts_shows (s : State) (c : Nat) : let t := (s.latch (aLCH_CTL c) fLCH_CTL_EN).loopStarts c
    t.bit (aLCH_CTL c) fLCH_CTL_EN = true ∧ (t.lch c).first = true ∧ (t.lch c).since = some s.at ∧
      KeepsRegs [aLCH_CTL c] s t ∧ KeepsMemory s t := by
  intro t
  have hlch : t.lch c = { s.lch c with since := some s.at, first := true } := (State.setLch_lch _ c c _).trans (if_pos rfl)
  rw [hlch]
  exact ⟨State.bit_latch_self _ _ _ rfl (by decide), rfl, rfl, keepsRegs_setReg s _ _, .of_fields rfl rfl rfl⟩

theorem State.loopOff_shows (s : State) (c : Nat) : let t := s.loopOff c
    t.bit (aLCH_CTL c) fLCH_CTL_EN = false ∧ (t.lch c).area = (s.lch c).area ∧
      (t.chan c).newest = (s.chan c).newest.map (fun d => (d.1, true, d.2.2)) ∧
      KeepsRegs [aLCH_CTL c] s t ∧ KeepsMemory s t := by
  intro t
  let u := s.setBit (aLCH_CTL c) fLCH_CTL_EN false
  have hstop : Does [.chans, .causes, .loops] [] u t :=
    (State.unmatch_does.mono (by decide)).after (State.loopStops_does.mono (by decide))
  have hregs : KeepsRegs [] u t := .of_does hstop (by decide) _
  have hchan : t.chan c = (u.loopStops c).chan c := by
    have hchans : t.chans = (u.loopStops c).chans := State.unmatch_does.same .chans (by decide) (by decide)
    unfold State.chan
    rw [hchans]
  refine ⟨?_, State.unmatch_area _ c, ?_, ?_, ?_⟩
  · exact (State.bit_congr _ (hregs _ List.not_mem_nil)).trans (State.bit_setBit_self _ _ _ false rfl (by decide))
  · rw [hchan]
    exact congrArg ChanDrv.newest ((State.setChan_chan u c c _).trans (if_pos rfl))
  · exact (keepsRegs_setReg s _ _).trans (hregs.mono (by simp))
  · have hmem : KeepsMemory u t := .of_does hstop (by decide)
    exact (KeepsMemory.of_fields rfl rfl rfl).trans hmem

/-- Settles O15: a TRAPPED engine's update delivers GOFF (`State.runUpdate_trapped_shows`), RESTART ends the trap
(`State.restart_shows`), and the enables set and clear EN or are refused. -/
theorem loopControl : Obligations.LoopControl := by
  unfold Obligations.LoopControl
  intro by_ ch eng en due per index s c e
  refine ⟨fun hoff => ?disabled, fun hdue htrap hlower hlead hfar => ?trappedUpdate, fun htrap => ?restart, fun hrun => ?idle,
    fun hlead hbound hoff => ?enables, fun hlead hbound => ?disables, fun hlead hunbound => ?refused,
    fun hfollows => ?follower⟩
  case disabled => exact ⟨s, exec_loopUpdate_of_none (State.updateDue_of_disabled hoff), rfl⟩
  case trappedUpdate =>
    exact ⟨_, exec_loopUpdate_of_first hlower, State.runUpdate_trapped_shows hdue htrap hlead hfar⟩
  case restart =>
    obtain ⟨huntrapped, hcause, harea, hkeeps⟩ := s.restart_shows eng.val (List.range 256)
    exact ⟨_, exec_engRestart_trapped htrap, huntrapped, hcause, fun k => harea k.val, hkeeps⟩
  case idle => exact ⟨s, exec_engRestart_idle hrun, rfl⟩
  case enables => exact ⟨_, exec_lchEnWrite_enables hlead hbound hoff, s.loopStarts_shows c⟩
  case disables => exact ⟨_, exec_lchEnWrite_disables hlead hbound, s.loopOff_shows c⟩
  case refused =>
    have hblk : aLCH_CTL c / 0x100000 = 6 := by unfold aLCH_CTL; omega
    obtain ⟨hlatched, hraised, -, hmem⟩ := s.rejectVal_shows by_ (b := 6) (by decide) hblk
    have hen := s.rejectVal_lpe_reg by_ hblk (b := aLCH_CTL c) (by unfold aLCH_CTL; omega)
    exact ⟨_, exec_lchEnWrite_refused hlead hunbound, State.bit_congr _ hen, hlatched, hraised, hmem⟩
  case follower => exact ⟨s, exec_lchEnWrite_follower hfollows, rfl⟩

end Sys2Proof.Machine
end

section
/-! The background work of an engine (O16): flips, requests, aborts, and a routine taken and ended (R176, R181 to R185,
R208 to R211). -/
namespace Sys2Proof.Machine

variable {s : State}

/-! ## Words and registers -/

/-- A bit of a register that a field of one bit is written to. -/
theorem State.setBit_getLsbD (s : State) (a : Nat) {k : Nat} (hk : k < 32) (b : Bool) (i : Nat) :
    ((s.setBit a ⟨k, k⟩ b).reg a).getLsbD i = if i = k then b else (s.reg a).getLsbD i := by
  unfold State.setBit
  rw [State.reg_setFld, if_pos rfl, putF_bit_getLsbD _ hk]

/-! ## Flips (R176, R184) -/

theorem exec_lpeFlip_free {by_ : Issuer} {blk : BitVec 8} (h : s.flipClaimed blk = false) :
    exec (.lpeFlip by_ blk) s = .next (s.flipBlock (blk.toNat / 32) (blk.toNat % 32)) :=
  congrArg Host.Outcome.next (if_neg (Bool.eq_false_iff.mp h))

theorem exec_lpeFlip_claimed {by_ : Issuer} {blk : BitVec 8} (h : s.flipClaimed blk = true) :
    exec (.lpeFlip by_ blk) s = .next (s.rejectVal by_ aLPE_FLIP) := congrArg Host.Outcome.next (if_pos h)

theorem State.flipBlock_eq (s : State) (e k : Nat) :
    s.flipBlock e k = s.setBit (aLPE_GEN e) ⟨k, k⟩ (!(s.reg (aLPE_GEN e)).getLsbD k) := by
  unfold State.flipBlock State.generation State.setBit
  cases (s.reg (aLPE_GEN e)).getLsbD k <;> rfl

/-- A flip of a block changes its bit of LPE_GEN and no other. -/
theorem State.flipBlock_shows (s : State) {e k : Nat} (hk : k < 32) (i : Nat) :
    ((s.flipBlock e k).reg (aLPE_GEN e)).getLsbD i = ((s.reg (aLPE_GEN e)).getLsbD i != decide (i = k)) := by
  rw [State.flipBlock_eq, State.setBit_getLsbD _ _ hk]
  by_cases h : i = k <;> simp [h]

/-! ## ENG_STAT -/

theorem State.showBg_keepsRegs (s : State) (e : Nat) : KeepsRegs [aENG_STAT e] s (s.showBg e) :=
  ((KeepsRegs.refl _ s).setReg (by simp) _).setBit (by simp) _ _

theorem State.showBg_bg (s : State) (e : Nat) :
    (s.showBg e).bit (aENG_STAT e) fENG_STAT_BG = (s.eng e).running.isSome := State.bit_setBit_self _ _ _ _ rfl (by decide)

/-! ## Requests (R181, R208) -/

/-- A request queued behind those that wait. -/
def State.queued (s : State) (e id k : Nat) : State :=
  (s.setEng e { s.eng e with queue := (s.eng e).queue ++ [(id, k)] }).showBg e

section
variable {by_ : Issuer} {eng : Eng} {id : BitVec 8} {k : BitVec 5}

theorem exec_bgRequest_takes (h : s.bgTakes eng.val id.toNat = true) :
    exec (.bgRequest by_ eng id k) s = .next (s.queued eng.val id.toNat k.toNat) := if_pos h

theorem exec_bgRequest_refused (h : s.bgTakes eng.val id.toNat = false) :
    exec (.bgRequest by_ eng id k) s = .next (s.rejectVal by_ (aENG_BGREQ eng.val)) := if_neg (Bool.eq_false_iff.mp h)

end

theorem State.queued_shows (s : State) (e id k : Nat) : let t := s.queued e id k
    (t.eng e).queue = (s.eng e).queue ++ [(id, k)] ∧ (t.eng e).running = (s.eng e).running ∧
      KeepsRegs [aENG_STAT e] s t ∧ KeepsMemory s t := by
  intro t
  have heng : t.eng e = { s.eng e with queue := (s.eng e).queue ++ [(id, k)] } := (State.setEng_eng s e e _).trans (if_pos rfl)
  rw [heng]
  exact ⟨rfl, rfl, (KeepsRegs.of_regs rfl _).trans (State.showBg_keepsRegs _ e), .of_fields rfl rfl rfl⟩

/-! ## Aborts (R185) -/

theorem State.bgShow_of_none {e : Nat} (h : (s.eng e).commit = none) : s.bgShow e = s := by
  unfold State.bgShow
  rw [h]

/-- An engine whose queue is emptied and whose routine and claim are ended. -/
def State.bgEmptied (s : State) (e : Nat) : State :=
  (s.setEng e { s.eng e with queue := [], running := none }).setReg (aLPE_CLAIM e) 0

/-- BGABORT as an abort leaves it: it sets where a routine ran. -/
def State.bgAborted (s : State) (e : Nat) : State :=
  if (s.eng e).running.isSome then (s.bgEmptied e).latch aLPE_LAT fLPE_LAT_BGABORT else s.bgEmptied e

theorem State.bgAbortAll_of_none {e : Nat} (h : (s.eng e).commit = none) :
    s.bgAbortAll e true = ((s.bgAborted e).setFld (aENG_BGPC e) fENG_BGPC_CUT 0).showBg e := by
  unfold State.bgAbortAll
  rw [State.bgShow_of_none h]
  rfl

theorem State.bgAborted_engs (s : State) (e : Nat) : (s.bgAborted e).engs = (s.bgEmptied e).engs := by
  unfold State.bgAborted
  split <;> rfl

theorem State.bgAborted_does {e : Nat} : Does [.fresh, .engs] [6] s (s.bgAborted e) := by
  have hemptied : Does [.fresh, .engs] [6] s (s.bgEmptied e) :=
    Does.setReg adr_LPE_CLAIM (by decide) (Does.call State.setEng_does (by decide) Does.refl)
  exact Does.ite (fun _ => Does.latch adr_LPE_LAT (by decide) hemptied) (fun _ => hemptied)

theorem State.bgAborted_keepsRegs (s : State) (e : Nat) : KeepsRegs [aLPE_CLAIM e, aLPE_LAT] s (s.bgAborted e) := by
  have hemptied : KeepsRegs [aLPE_CLAIM e, aLPE_LAT] s (s.bgEmptied e) := (KeepsRegs.of_regs rfl _).setReg (by simp) _
  unfold State.bgAborted
  split
  · exact hemptied.latch (by simp) _
  · exact hemptied

theorem State.bgAborted_claim (s : State) (e : Nat) : (s.bgAborted e).reg (aLPE_CLAIM e) = 0 := by
  have hemptied : (s.bgEmptied e).reg (aLPE_CLAIM e) = 0 := State.reg_setReg_self _ _ _
  unfold State.bgAborted
  split
  · rw [State.reg_latch_ne _ _ (by unfold aLPE_CLAIM aLPE_LAT; omega), hemptied]
  · exact hemptied

theorem State.bgAborted_latched {e : Nat} (h : (s.eng e).running.isSome = true) :
    (s.bgAborted e).bit aLPE_LAT fLPE_LAT_BGABORT = true := by
  unfold State.bgAborted
  rw [if_pos h]
  exact State.bit_latch_self _ _ _ rfl (by decide)

/-- What an abort shows and keeps, on an engine with no commit that waits to show. -/
theorem State.bgAbortAll_shows {e : Nat} (h : (s.eng e).commit = none) : let t := s.bgAbortAll e true
    (t.eng e).queue = [] ∧ (t.eng e).running = none ∧ t.reg (aLPE_CLAIM e) = 0 ∧
      ((s.eng e).running.isSome = true → t.bit aLPE_LAT fLPE_LAT_BGABORT = true) ∧ t.agenda = s.agenda ∧
      KeepsRegs [aLPE_CLAIM e, aLPE_LAT, aENG_BGPC e, aENG_STAT e] s t ∧ KeepsMemory s t := by
  intro t
  have ht : t = ((s.bgAborted e).setFld (aENG_BGPC e) fENG_BGPC_CUT 0).showBg e := State.bgAbortAll_of_none h
  have heng : t.eng e = { s.eng e with queue := [], running := none } := by
    have hengs : t.engs = (s.bgEmptied e).engs := by rw [ht]; exact s.bgAborted_engs e
    unfold State.eng
    rw [hengs]
    exact (State.setEng_eng s e e _).trans (if_pos rfl)
  have hlast : KeepsRegs [aENG_BGPC e, aENG_STAT e] (s.bgAborted e) t := by
    rw [ht]
    exact ((keepsRegs_setReg _ _ _).mono (by simp)).trans ((State.showBg_keepsRegs _ e).mono (by simp))
  have hdoes : Does [.fresh, .engs] [6] s t := by
    rw [ht]
    exact Does.call State.showBg_does (by decide) (Does.setFld adr_ENG_BGPC (by decide) State.bgAborted_does)
  have hbeside {a : Nat} (ha : a < 0x600100) : t.reg a = (s.bgAborted e).reg a :=
    hlast a (by simp only [List.mem_cons, List.not_mem_nil, or_false, aENG_BGPC, aENG_STAT]; omega)
  rw [heng]
  refine ⟨rfl, rfl, ?_, fun hrun => ?_, hdoes.same .agenda (by decide) (by decide), ?_, .of_does hdoes (by decide)⟩
  · rw [hbeside (by unfold aLPE_CLAIM; omega), s.bgAborted_claim]
  · rw [State.bit_congr _ (hbeside (by decide)), State.bgAborted_latched hrun]
  · exact ((s.bgAborted_keepsRegs e).mono (by simp +contextual)).trans (hlast.mono (by simp +contextual))

/-! ## Routines run (R182, R209, R211) -/

section
variable {eng : Eng} {cycles : Nat}

theorem exec_bgRoutineRun_on (h : s.bgOn eng.val = true) : exec (.bgRoutineRun eng cycles none) s =
    .next ((s.bgTake eng.val).bgUpTo eng.val (Count.cycleStart s.count + cyc 1) cycles none) :=
  congrArg Host.Outcome.next (if_pos h)

theorem exec_bgRoutineRun_off (h : s.bgOn eng.val = false) : exec (.bgRoutineRun eng cycles none) s = .next s :=
  congrArg Host.Outcome.next (if_neg (Bool.eq_false_iff.mp h))

end

variable {e : Nat}

theorem State.bgTake_of_running {r : Routine} (h : (s.eng e).running = some r) : s.bgTake e = s := by
  unfold State.bgTake
  dsimp only
  rw [h]

theorem State.bgTake_of_empty (h : (s.eng e).queue = []) : s.bgTake e = s := by
  unfold State.bgTake
  dsimp only
  rw [h]
  cases (s.eng e).running <;> rfl

/-- An engine with the requests left when the oldest has been taken. -/
def State.bgLeft (s : State) (e : Nat) (q : List (Nat × Nat)) : State := s.setEng e { s.eng e with queue := q }

theorem State.bgTake_takes {id k : Nat} {q : List (Nat × Nat)} (hrun : (s.eng e).running = none)
    (hbusy : (s.eng e).busyUntil = none) (hqueue : (s.eng e).queue = (id, k) :: q) :
    s.bgTake e = (s.bgLeft e q).bgStart e id k := by
  have hfree : ¬ (s.eng e).busyUntil.any (fun b => Count.before s.count b) = true := by simp [hbusy]
  unfold State.bgTake State.bgLeft
  dsimp only
  rw [hrun, hqueue]
  exact if_neg hfree

theorem State.bgUpTo_of_none {stop : Count} {cycles : Nat} (h : (s.eng e).running = none) :
    s.bgUpTo e stop cycles none = s := by
  unfold State.bgUpTo
  rw [h]

theorem State.bgUpTo_zero (s : State) (e : Nat) (stop : Count) : s.bgUpTo e stop 0 none = s := by
  unfold State.bgUpTo
  split
  · rfl
  · exact if_pos (Nat.zero_min _)

theorem exec_bgRoutineRun_idle {eng : Eng} {cycles : Nat} (hrun : (s.eng eng.val).running = none)
    (hqueue : (s.eng eng.val).queue = []) : exec (.bgRoutineRun eng cycles none) s = .next s := by
  cases hon : s.bgOn eng.val with
  | false => exact exec_bgRoutineRun_off hon
  | true => rw [exec_bgRoutineRun_on hon, State.bgTake_of_empty hqueue, State.bgUpTo_of_none hrun]

/-! ## A request taken (R184, R209) -/

/-- A routine that has started: its claim stands, and ENG_BGSTAT names it. -/
def State.bgBegun (s : State) (e : Nat) (r : Routine) : State :=
  ((s.setEng e { s.eng e with running := some r }).setBit (aLPE_CLAIM e) ⟨r.blk, r.blk⟩ true).setReg (aENG_BGSTAT e)
    (putF (fldWord fENG_BGSTAT_BLOCK r.blk) fENG_BGSTAT_ID r.id)

theorem State.bgStart_eq (s : State) (e id k : Nat) :
    ∃ r : Routine, (r.id, r.blk, r.m.commits) = (id, k, 0) ∧ s.bgStart e id k = (s.bgBegun e r).showBg e :=
  ⟨⟨id, k, _, _, _⟩, rfl, rfl⟩

/-- A routine starts: it runs with no commit made, its claim stands beside the generations as they were, and ENG_BGSTAT and
ENG_STAT show it. -/
structure RoutineStarts (e id k : Nat) (s t : State) : Prop where
  queue : (t.eng e).queue = (s.eng e).queue
  runs : (t.eng e).running.map (fun x => (x.id, x.blk, x.m.commits)) = some (id, k, 0)
  claims : (t.reg (aLPE_CLAIM e)).getLsbD k = true
  shows_id : t.fld (aENG_BGSTAT e) fENG_BGSTAT_ID = id
  shows_block : t.fld (aENG_BGSTAT e) fENG_BGSTAT_BLOCK = k
  shows_bg : t.bit (aENG_STAT e) fENG_STAT_BG = true
  gen : t.reg (aLPE_GEN e) = s.reg (aLPE_GEN e)

theorem State.bgStart_starts (s : State) (e : Nat) {id k : Nat} (hk : k < 32) (hid : id < 256) :
    RoutineStarts e id k s (s.bgStart e id k) := by
  obtain ⟨r, hr, ht⟩ := s.bgStart_eq e id k
  simp only [Prod.mk.injEq] at hr
  obtain ⟨rfl, rfl, hcommits⟩ := hr
  rw [ht]
  set t := (s.bgBegun e r).showBg e
  have heng : t.eng e = { s.eng e with running := some r } := (State.setEng_eng s e e _).trans (if_pos rfl)
  have hshown {a : Nat} (ha : a ≠ aENG_STAT e) : t.reg a = (s.bgBegun e r).reg a :=
    State.showBg_keepsRegs _ e a (by simpa using ha)
  have hbegun {a : Nat} (ha : a ≠ aENG_BGSTAT e) : (s.bgBegun e r).reg a =
      ((s.setEng e { s.eng e with running := some r }).setBit (aLPE_CLAIM e) ⟨r.blk, r.blk⟩ true).reg a :=
    State.reg_setReg_ne _ _ ha
  have hstat (f : Fld) : t.fld (aENG_BGSTAT e) f = getF (putF (fldWord fENG_BGSTAT_BLOCK r.blk) fENG_BGSTAT_ID r.id) f := by
    unfold State.fld
    rw [hshown (by unfold aENG_BGSTAT aENG_STAT; omega)]
    exact congrArg (getF · f) (State.reg_setReg_self _ _ _)
  refine ⟨by rw [heng], ?runs, ?claim, ?id, ?block, ?bg, ?gen⟩
  case runs =>
    rw [heng]
    exact congrArg (fun n => some (r.id, r.blk, n)) hcommits
  case claim =>
    rw [hshown (by unfold aLPE_CLAIM aENG_STAT; omega), hbegun (by unfold aLPE_CLAIM aENG_BGSTAT; omega),
      State.setBit_getLsbD _ _ hk, if_pos rfl]
  case id =>
    rw [hstat, getF_putF_self _ _ _ (by decide) (by decide)]
    exact Nat.mod_eq_of_lt hid
  case block =>
    rw [hstat, getF_putF_ne _ _ _ _ (by decide) (by decide) (by decide)]
    exact (getF_putF_self _ _ _ (by decide) (by decide)).trans (Nat.mod_eq_of_lt hk)
  case bg =>
    refine (State.showBg_bg _ e).trans ?_
    exact congrArg (fun x : LoopEng => x.running.isSome) heng
  case gen =>
    rw [hshown (by unfold aLPE_GEN aENG_STAT; omega), hbegun (by unfold aLPE_GEN aENG_BGSTAT; omega)]
    exact State.reg_setReg_ne _ _ (by unfold aLPE_GEN aLPE_CLAIM; omega)

theorem exec_bgRoutineRun_takes {eng : Eng} {id k : Nat} {q : List (Nat × Nat)} (hon : s.bgOn eng.val = true)
    (hrun : (s.eng eng.val).running = none) (hbusy : (s.eng eng.val).busyUntil = none)
    (hqueue : (s.eng eng.val).queue = (id, k) :: q) :
    exec (.bgRoutineRun eng 0 none) s = .next ((s.bgLeft eng.val q).bgStart eng.val id k) := by
  rw [exec_bgRoutineRun_on hon, State.bgUpTo_zero, State.bgTake_takes hrun hbusy hqueue]

/-! ## A routine that ends (R211) -/

/-- A routine that is over: nothing runs, its claim is released, and no saved context shows. -/
def State.bgOver (s : State) (e k : Nat) : State :=
  (((s.setEng e { s.eng e with running := none }).setBit (aLPE_CLAIM e) ⟨k, k⟩ false).setReg (aENG_BGPC e) 0).showBg e

/-- What the microcode of a routine runs in (R209): no law's inputs, and the direction of its block. -/
def State.routineCtx (s : State) (r : Routine) : MicroCtx :=
  { ctl := s.ctl, id := r.id, routine := true, dir := (byteAt r.m.pb 1).testBit 0 }

/-- The microwords that a routine may run, where the law table gives it a limit (R208). -/
def State.routineLimit (s : State) (r : Routine) : Option Nat :=
  if s.ctl.lawCost r.id = 0 then none else some (s.ctl.lawCost r.id)

theorem State.bgUpTo_of_done {stop : Count} {cycles : Nat} {r : Routine} {m : Micro} (hrun : (s.eng e).running = some r)
    (hcommit : (s.eng e).commit = none) (hn : min cycles ((s.eng e).bgSpan r stop).2 ≠ 0)
    (hdone : microRun (s.routineCtx r) (s.routineLimit r) none (min cycles ((s.eng e).bgSpan r stop).2) r.m = .done m)
    (hsame : m.commits = r.m.commits) : s.bgUpTo e stop cycles none = s.bgOver e r.blk := by
  unfold State.routineCtx State.routineLimit at hdone
  have hnote : s.bgNote e r.blk r.m m = s := if_pos hsame
  have hfinal : ¬ ((s.setEng e { s.eng e with running := none }).eng e).commit.any (fun c => c.2.2.2) = true := by
    simp [hcommit]
  unfold State.bgUpTo
  rw [hrun]
  dsimp only
  rw [if_neg hn, hdone]
  dsimp only
  rw [hnote, if_neg hfinal]
  rfl

theorem State.bgOver_shows (s : State) (e : Nat) {k : Nat} (hk : k < 32) : let t := s.bgOver e k
    (t.eng e).running = none ∧ (t.eng e).queue = (s.eng e).queue ∧ (t.reg (aLPE_CLAIM e)).getLsbD k = false ∧
      t.reg (aENG_BGPC e) = 0 ∧ t.bit (aENG_STAT e) fENG_STAT_BG = false ∧ t.agenda = s.agenda ∧
      KeepsRegs [aLPE_CLAIM e, aENG_BGPC e, aENG_STAT e] s t ∧ KeepsMemory s t := by
  intro t
  let u := (s.setEng e { s.eng e with running := none }).setBit (aLPE_CLAIM e) ⟨k, k⟩ false
  have heng : t.eng e = { s.eng e with running := none } := (State.setEng_eng s e e _).trans (if_pos rfl)
  have hshown {a : Nat} (ha : a ≠ aENG_STAT e) : t.reg a = (u.setReg (aENG_BGPC e) 0).reg a :=
    State.showBg_keepsRegs _ e a (by simpa using ha)
  rw [heng]
  refine ⟨rfl, rfl, ?claim, ?pc, ?bg, rfl, ?regs, .of_fields rfl rfl rfl⟩
  case claim =>
    rw [hshown (by unfold aLPE_CLAIM aENG_STAT; omega), State.reg_setReg_ne _ _ (by unfold aLPE_CLAIM aENG_BGPC; omega),
      State.setBit_getLsbD _ _ hk, if_pos rfl]
  case pc => rw [hshown (by unfold aENG_BGPC aENG_STAT; omega), State.reg_setReg_self]
  case bg =>
    refine (State.showBg_bg _ e).trans ?_
    exact congrArg (fun x : LoopEng => x.running.isSome) heng
  case regs =>
    have hu : KeepsRegs [aLPE_CLAIM e, aENG_BGPC e, aENG_STAT e] s (u.setReg (aENG_BGPC e) 0) :=
      ((KeepsRegs.of_regs rfl _).setBit (by simp) _ _).setReg (by simp) _
    exact hu.trans ((State.showBg_keepsRegs _ e).mono (by simp))

/-- Settles O16: a flip, a request and an abort do as `State.flipBlock_shows`, `State.queued_shows` and
`State.bgAbortAll_shows` say, or are refused; background work takes a request (`State.bgStart_starts`) or ends its routine
(`State.bgOver_shows`). -/
theorem blocksAndRoutines : Obligations.BlocksAndRoutines := by
  unfold Obligations.BlocksAndRoutines
  refine ⟨fun by_ blk id eng k s => ⟨fun hfree => ?flips, fun hclaimed => ?flipRefused, fun hroom hroutine hvalid => ?queues,
    fun hrefused => ?requestRefused, fun hcommit => ?aborts⟩,
    fun eng cycles id k q r m s => ⟨fun htrap => ?trapped, fun hrun hqueue => ?idle,
      fun hon hrun hbusy hqueue hk hid => ?takes, fun hon hrun hk hcommit hn hdone hsame => ?ends⟩⟩
  case flips =>
    exact ⟨_, exec_lpeFlip_free hfree, fun i => s.flipBlock_shows (Nat.mod_lt _ (by decide)) i.val, keepsRegs_setReg s _ _,
      .of_fields rfl rfl rfl⟩
  case flipRefused =>
    obtain ⟨hlatched, hraised, -, hmem⟩ := s.rejectVal_shows by_ (a := aLPE_FLIP) (b := 6) (by decide) (by decide)
    exact ⟨_, exec_lpeFlip_claimed hclaimed, s.rejectVal_lpe_reg by_ (by decide) (by unfold aLPE_GEN; omega), hlatched,
      hraised, hmem⟩
  case queues =>
    have htakes : s.bgTakes eng.val id.toNat = true := by simp [State.bgTakes, hroom, hroutine, hvalid]
    exact ⟨_, exec_bgRequest_takes htakes, s.queued_shows eng.val id.toNat k.toNat⟩
  case requestRefused =>
    have htakes : s.bgTakes eng.val id.toNat = false := by
      rcases hrefused with hfull | hlaw | hinvalid
      · simp [State.bgTakes, hfull]
      · simp [State.bgTakes, Nat.not_le.mpr hlaw]
      · simp [State.bgTakes, hinvalid]
    obtain ⟨hlatched, hraised, -, hmem⟩ := s.rejectVal_shows by_ (a := aENG_BGREQ eng.val) (b := 6) (by decide)
      (by unfold aENG_BGREQ; omega)
    exact ⟨_, exec_bgRequest_refused htakes, State.rejectVal_any.same .engs (by decide) (by decide), hlatched, hraised, hmem⟩
  case aborts => exact ⟨_, rfl, State.bgAbortAll_shows hcommit⟩
  case trapped => exact ⟨s, exec_bgRoutineRun_off (State.bgOn_of_trapped htrap), rfl⟩
  case idle => exact ⟨s, exec_bgRoutineRun_idle hrun hqueue, rfl⟩
  case takes =>
    have hstarts := (s.bgLeft eng.val q).bgStart_starts eng.val hk hid
    have hdoes : Does [.engs] [6] s ((s.bgLeft eng.val q).bgStart eng.val id k) :=
      State.bgStart_does.after (State.setEng_does.mono (by decide))
    have hleft : ((s.bgLeft eng.val q).eng eng.val).queue = q :=
      congrArg LoopEng.queue ((State.setEng_eng s eng.val eng.val _).trans (if_pos rfl))
    exact ⟨_, exec_bgRoutineRun_takes hon hrun hbusy hqueue, hstarts.queue.trans hleft, hstarts.runs, hstarts.claims,
      hstarts.shows_id, hstarts.shows_block, hstarts.shows_bg, hstarts.gen, hdoes.same .agenda (by decide) (by decide),
      .of_does hdoes (by decide)⟩
  case ends =>
    have hover := State.bgUpTo_of_done hrun hcommit hn hdone hsame
    exact ⟨_, by rw [exec_bgRoutineRun_on hon, State.bgTake_of_running hrun, hover], s.bgOver_shows eng.val hk⟩

end Sys2Proof.Machine
end

section
/-! The commands of a player (O18): what a refusal shows, what a player that is written shows, and what START, JUMP, STOP and
DDSRST do. -/
namespace Sys2Proof.Machine

variable {s t : State}

/-- A field of a word that holds nothing else reads its value, cut to its width. -/
theorem getF_fldWord_self (f : Fld) (v : Nat) (h1 : f.lo ≤ f.hi) (h2 : f.hi < 32) :
    getF (fldWord f v) f = v % 2 ^ f.width := getF_putF_self _ _ _ h1 h2

/-! ## Refusals -/

/-- What a refused player command shows, raises and keeps (R234, R239, R247). -/
theorem State.plReject_shows (s : State) (c : Nat) {reason : Nat} (h : reason < 16) : let t := s.plReject c reason
    t.players = s.players ∧ t.bit (aPL_LAT c) fPL_LAT_REJ = true ∧ t.fld (aPL_REJ c) fPL_REJ_REASON = reason ∧
      Raises 57 islSegment s t ∧ KeepsRegs [aPL_LAT c, aPL_REJ c] s t ∧ KeepsMemory s t := by
  intro t
  have hlat : t.reg (aPL_LAT c) = (s.latch (aPL_LAT c) fPL_LAT_REJ).reg (aPL_LAT c) :=
    State.reg_setReg_ne _ _ (by unfold aPL_LAT aPL_REJ; omega)
  have hrej : t.reg (aPL_REJ c) = fldWord fPL_REJ_REASON reason := State.reg_setReg_self _ _ _
  refine ⟨rfl, (State.bit_congr _ hlat).trans (State.bit_latch_self _ _ _ rfl (by decide)), ?reason, raises_of_count rfl _ _,
    ((KeepsRegs.refl _ s).latch (by simp) _).setReg (by simp) _, .of_fields rfl rfl rfl⟩
  case reason =>
    unfold State.fld
    rw [hrej, getF_fldWord_self _ _ (by decide) (by decide)]
    exact Nat.mod_eq_of_lt h

/-- What a store command refused while BUSY shows, raises and keeps (R240). -/
theorem State.segBusy_shows (s : State) : let t := s.segBusy
    t.seg = s.seg ∧ t.bit aSEG_LAT fSEG_LAT_CMDREJ = true ∧ Raises 57 islSegment s t ∧ KeepsRegs [aSEG_LAT] s t ∧
      KeepsMemory s t :=
  ⟨rfl, State.bit_latch_self s aSEG_LAT fSEG_LAT_CMDREJ rfl (by decide), raises_of_count rfl _ _, keepsRegs_setReg s _ _,
    .of_fields rfl rfl rfl⟩

/-! ## A player written -/

/-- A jump of a player is pending. -/
def Player.pends (x : Player) : Bool := x.jump.isSome || x.decided.isSome || x.cmds.any (fun k => k.2.isJump)

/-- A player written stands, with JPEND as its jumps say, in the state of play that it had. -/
theorem State.putPlayer_shows (s : State) (c : Nat) (x : Player) : let t := s.putPlayer c x
    t.player c = x ∧ t.bit (aPL_STAT c) fPL_STAT_JPEND = x.pends ∧ t.plState c = s.plState c ∧ t.agenda = s.agenda ∧
      KeepsRegs [aPL_STAT c] s t ∧ KeepsMemory s t := by
  intro t
  have hplayer : (s.setPlayer c x).player c = x := (State.setPlayer_player s c c x).trans (if_pos rfl)
  exact ⟨hplayer, State.bit_setBit_self _ _ _ _ rfl (by decide),
    State.fld_setFld_beside _ _ _ fPL_STAT_STATE _ (by decide) (by decide) (by decide), rfl, keepsRegs_setReg s _ _,
    .of_fields rfl rfl rfl⟩

/-- A START or STOP that joins the commands of a player is its last, and no jump pends any more (R239). -/
theorem Player.order_shows (x : Player) (due : Count) {cmd : PlCmd} (h : cmd.isJump = false) : let y := x.order due cmd
    y.cmds.getLast? = some (due, cmd) ∧ y.jump = none ∧ y.decided = none ∧ y.pends = false := by
  have hnone : ∀ l : List (Count × PlCmd), (l.filter (fun k => !k.2.isJump)).any (fun k => k.2.isJump) = false := by
    intro l
    simp only [List.any_eq_false, List.mem_filter, Bool.not_eq_true', Bool.not_eq_true]
    exact fun k hk => hk.2
  refine ⟨List.getLast?_concat, rfl, rfl, ?_⟩
  simp [Player.pends, Player.order, h]

/-! ## START -/

section
variable {by_ : Issuer} {ch : Chan} {seq entry : BitVec 12}

/-- The capacity of R224 has room for the player, or it runs already. -/
def State.hasRoom (s : State) (c : Nat) : Prop :=
  s.plRuns c = true ∨ ((List.range 256).filter s.plRuns).length < s.segCap

theorem State.hasRoom_iff (s : State) (c : Nat) :
    s.hasRoom c ↔ (!(s.plRuns c) && decide (s.segCap ≤ ((List.range 256).filter s.plRuns).length)) = false := by
  rw [← Bool.not_eq_true, Bool.and_eq_true, Bool.not_eq_true', decide_eq_true_eq, not_and_or, Bool.not_eq_false, not_le]
  rfl

theorem exec_plStart_unsealed (h : s.isSealed seq.toNat = false) :
    exec (.plStart by_ ch seq entry) s = .next (s.plReject ch.val 1) := if_pos (by rw [h]; rfl)

theorem exec_plStart_sealed (h : s.isSealed seq.toNat = true) : exec (.plStart by_ ch seq entry) s =
    if s.seqCount seq.toNat ≤ entry.toNat then .next (s.plReject ch.val 2)
    else if !(s.plRuns ch.val) && decide (s.segCap ≤ ((List.range 256).filter s.plRuns).length) then
      .next (s.plReject ch.val 3)
    else if s.ownedElsewhere ch.val seq.toNat then .next (s.plReject ch.val 4)
    else .next (s.putPlayer ch.val ((s.player ch.val).order s.at (.start seq.toNat entry.toNat))) := if_neg (by simp [h])

end

/-! ## JUMP -/

section
variable {by_ : Issuer} {ch : Chan} {m : Bool} {entry : BitVec 12}

/-- A JUMP of a player that is IDLE and for which no START waits (R239). -/
theorem exec_plJump_idle (hidle : s.plState ch.val = plIdle) (hnone : (s.player ch.val).ordered = none) :
    exec (.plJump by_ ch m entry) s = .next (s.plReject ch.val 5) := by
  unfold exec execPlJump
  simp [hidle, hnone]

/-- A JUMP of a player out of IDLE for which no START or STOP waits, to an entry of its sequence (R238). -/
theorem exec_plJump_runs (hrun : s.plState ch.val ≠ plIdle) (hnone : (s.player ch.val).ordered = none)
    (hentry : m = true → entry.toNat < s.seqCount (s.plSeq ch.val)) :
    exec (.plJump by_ ch m entry) s = .next (s.putPlayer ch.val (
      if s.plState ch.val = plDone then
        { s.player ch.val with cmds := [(s.at, .jump m entry.toNat)], jump := none, decided := none }
      else { s.player ch.val with
        jump := some (s.at, m, entry.toNat), decided := (s.player ch.val).decidedNow s.count })) := by
  have hin : (m && decide (s.seqCount (s.plSeq ch.val) ≤ entry.toNat)) = false := by
    cases m
    · rfl
    · simpa using hentry rfl
  unfold exec execPlJump
  simp only [hnone, if_neg hrun, hin, Bool.false_eq_true, if_false, Option.isNone_none, true_and]
  split <;> rfl

end

/-! ## DDSRST -/

theorem exec_ddsrst_busy (h : s.bit aSEG_CSTAT fSEG_CSTAT_BUSY = true) : exec .ddsrst s = .next s.segBusy := if_pos h

theorem exec_ddsrst_waits (h : s.bit aSEG_CSTAT fSEG_CSTAT_BUSY = false) :
    exec .ddsrst s = .next { s with seg := { s.seg with ddsrst := some (s.seg.ddsrst.getD s.at) } } :=
  if_neg (Bool.eq_false_iff.mp h)

/-! ## O18 -/

/-- Settles O18: a command that a player takes up is `State.putPlayer_shows`, a refused one `State.plReject_shows`, and one that
the store refuses `State.segBusy_shows`. -/
theorem playerCommands : Obligations.PlayerCommands := by
  unfold Obligations.PlayerCommands
  intro by_ ch seq entry m s c q room refused
  have hrefused : ∀ reason, reason < 16 → refused (s.plReject c reason) reason := fun _ h => s.plReject_shows c h
  refine ⟨fun hsealed hentry howned hroom => ?starts,
    fun hunsealed => ⟨_, exec_plStart_unsealed hunsealed, hrefused 1 (by decide)⟩,
    fun hsealed hentry => ⟨_, (exec_plStart_sealed hsealed).trans (if_pos hentry), hrefused 2 (by decide)⟩,
    fun hsealed hentry hfull => ?full, fun hidle hnone => ⟨_, exec_plJump_idle hidle hnone, hrefused 5 (by decide)⟩,
    fun hplays hnone hentry => ?pends, fun hdone hnone hentry => ?waits, ?stops,
    fun hfree => ⟨_, exec_ddsrst_waits hfree, rfl⟩, fun hbusy => ⟨_, exec_ddsrst_busy hbusy, s.segBusy_shows⟩⟩
  case starts =>
    have hexec := exec_plStart_sealed (by_ := by_) (ch := ch) (entry := entry) hsealed
    rw [if_neg (Nat.not_le.mpr hentry), if_neg (Bool.eq_false_iff.mp ((s.hasRoom_iff c).mp hroom)),
      if_neg (Bool.eq_false_iff.mp howned)] at hexec
    obtain ⟨hplayer, -, hstate, hagenda, hregs, hmem⟩ :=
      s.putPlayer_shows c ((s.player c).order s.at (.start q entry.toNat))
    obtain ⟨hlast, hjump, hdecided, -⟩ := (s.player c).order_shows s.at (cmd := .start q entry.toNat) rfl
    refine ⟨_, hexec, ?_, ?_, ?_, hstate, hagenda, hregs, hmem⟩
    · rw [hplayer]; exact hlast
    · rw [hplayer]; exact hjump
    · rw [hplayer]; exact hdecided
  case full =>
    have hexec := exec_plStart_sealed (by_ := by_) (ch := ch) (entry := entry) hsealed
    rw [if_neg (Nat.not_le.mpr hentry), if_pos (Bool.not_eq_false _ ▸ mt (s.hasRoom_iff c).mpr hfull)] at hexec
    exact ⟨_, hexec, hrefused 3 (by decide)⟩
  case pends =>
    have hrun : s.plState c ≠ plIdle := by rcases hplays with h | h <;> rw [h] <;> decide
    have hnotDone : s.plState c ≠ plDone := by rcases hplays with h | h <;> rw [h] <;> decide
    have hexec := exec_plJump_runs (by_ := by_) hrun hnone hentry
    rw [if_neg hnotDone] at hexec
    obtain ⟨hplayer, hpend, hshown⟩ := s.putPlayer_shows c
      { s.player c with jump := some (s.at, m, entry.toNat), decided := (s.player c).decidedNow s.count }
    exact ⟨_, hexec, by rw [hplayer], hpend, hshown⟩
  case waits =>
    have hexec := exec_plJump_runs (by_ := by_) (m := m) (by rw [hdone]; decide) hnone hentry
    rw [if_pos hdone] at hexec
    obtain ⟨hplayer, hpend, hshown⟩ := s.putPlayer_shows c
      { s.player c with cmds := [(s.at, .jump m entry.toNat)], jump := none, decided := none }
    exact ⟨_, hexec, by rw [hplayer], hpend, hshown⟩
  case stops =>
    obtain ⟨hplayer, hpend, hstate, -, hregs, hmem⟩ := s.putPlayer_shows c ((s.player c).order s.at .stop)
    obtain ⟨hlast, hjump, hdecided, hnopend⟩ := (s.player c).order_shows s.at (cmd := .stop) rfl
    refine ⟨_, rfl, ?_, ?_, ?_, hpend.trans hnopend, hstate, hregs, hmem⟩
    · rw [hplayer]; exact hlast
    · rw [hplayer]; exact hjump
    · rw [hplayer]; exact hdecided

end Sys2Proof.Machine
end

section
/-! Windows of streamed segments in the plain (R242, R243): entries placed one after another, and the bytes beside them. -/
namespace Sys2Proof.Machine

/-! ## Bytes read -/

theorem Memory.readBytes_eq_map (m : List Host.Cell) (a n : Nat) :
    Memory.readBytes m a n = (List.range n).map (fun i => Memory.read m (a + i)) := by
  induction n generalizing a with
  | zero => rfl
  | succ n ih =>
    rw [Memory.readBytes, ih, List.range_succ_eq_map, List.map_cons, List.map_map]
    simp [Function.comp_def, Nat.add_assoc, Nat.add_comm 1]

@[simp] theorem Memory.length_readBytes (m : List Host.Cell) (a n : Nat) : (Memory.readBytes m a n).length = n := by
  simp [Memory.readBytes_eq_map]

/-- Bytes that read alike one by one read alike together. -/
theorem Memory.readBytes_congr {m m' : List Host.Cell} {a n : Nat}
    (h : ∀ i < n, Memory.read m' (a + i) = Memory.read m (a + i)) : Memory.readBytes m' a n = Memory.readBytes m a n := by
  rw [Memory.readBytes_eq_map, Memory.readBytes_eq_map]
  exact List.map_congr_left (fun i hi => h i (List.mem_range.mp hi))

/-- Bytes written are read back. -/
theorem Memory.readBytes_writeBytes_self (m : List Host.Cell) (a : Nat) (bs : List Byte) {n : Nat} (h : bs.length = n) :
    Memory.readBytes (Memory.writeBytes m a bs) a n = bs := by
  refine List.ext_getElem (by simp [h]) (fun i h1 h2 => ?_)
  simp [Memory.readBytes_eq_map, Memory.read_writeBytes, h2]

/-- A byte outside of those written reads as before. -/
theorem Memory.read_writeBytes_outside {m : List Host.Cell} {a i : Nat} {bs : List Byte}
    (h : i < a ∨ a + bs.length ≤ i) : Memory.read (Memory.writeBytes m a bs) i = Memory.read m i := by
  rw [Memory.read_writeBytes, dif_neg (by omega)]

/-! ## Entries placed -/

/-- A memory with those of `n` entries that keep R228 placed from a base on, 32 bytes to a place. -/
def placeEntries (m : List Host.Cell) (base : Nat) (e : Nat → List Byte) (n : Nat) : List Host.Cell :=
  (List.range n).foldl (fun m p => if entryOk (e p) then Memory.writeBytes m (base + 32 * p) (e p) else m) m

theorem placeEntries_succ (m : List Host.Cell) (base : Nat) (e : Nat → List Byte) (n : Nat) :
    placeEntries m base e (n + 1) = if entryOk (e n) then Memory.writeBytes (placeEntries m base e n) (base + 32 * n) (e n)
      else placeEntries m base e n := by
  simp [placeEntries, List.range_succ, List.foldl_append]

section
variable {m : List Host.Cell} {base : Nat} {e : Nat → List Byte} (hlen : ∀ p, (e p).length = 32)
include hlen

theorem read_placeEntries_outside {n a : Nat} (h : a < base ∨ base + 32 * n ≤ a) :
    Memory.read (placeEntries m base e n) a = Memory.read m a := by
  induction n with
  | zero => rfl
  | succ n ih =>
    have hprev : Memory.read (placeEntries m base e n) a = Memory.read m a := ih (by omega)
    rw [placeEntries_succ]
    split
    · rw [Memory.read_writeBytes_outside (by rw [hlen]; omega), hprev]
    · exact hprev

theorem readBytes_placeEntries {n p : Nat} (hp : p < n) (hok : entryOk (e p) = true) :
    Memory.readBytes (placeEntries m base e n) (base + 32 * p) 32 = e p := by
  induction n with
  | zero => omega
  | succ n ih =>
    rw [placeEntries_succ]
    rcases Nat.lt_succ_iff_lt_or_eq.mp hp with hlt | rfl
    · split
      · rw [Memory.readBytes_congr (fun i hi => Memory.read_writeBytes_outside (by omega)), ih hlt]
      · exact ih hlt
    · rw [if_pos hok, Memory.readBytes_writeBytes_self _ _ _ (hlen p)]

end

/-! ## Windows filled -/

variable {s t : State}

theorem State.streamEntry_length (s : State) (d : List Byte) (i : Nat) : (s.streamEntry d i).length = 32 :=
  Memory.length_readBytes _ _ _

/-- The entry of a streamed segment that is `p`-th in the order of play. -/
def State.playedEntry (s : State) (d : List Byte) (p : Nat) : List Byte := s.streamEntry d (p % max 1 (sdNent d))

theorem State.fillWindow_sram {b : Nat} (hb : s.plainBase .segment = some b) (sid : Nat) :
    (s.fillWindow sid).sram = placeEntries s.sram (b + sdRbase (s.segDesc sid)) (s.playedEntry (s.segDesc sid))
      (sdRsize (s.segDesc sid)) := by
  unfold State.fillWindow
  rw [hb]
  rfl

/-- An address lies outside of the window of a segment, where the store begins at `b`. -/
def State.outsideWindow (s : State) (b a sid : Nat) : Prop :=
  a < b + sdRbase (s.segDesc sid) ∨ b + sdRbase (s.segDesc sid) + 32 * sdRsize (s.segDesc sid) ≤ a

theorem State.fillWindow_read {b a sid : Nat} (hb : s.plainBase .segment = some b) (h : s.outsideWindow b a sid) :
    Memory.read (s.fillWindow sid).sram a = Memory.read s.sram a := by
  rw [State.fillWindow_sram hb]
  exact read_placeEntries_outside (fun _ => s.streamEntry_length _ _) h

theorem State.fillWindow_plainBase (s : State) (sid : Nat) (r : Region) :
    (s.fillWindow sid).plainBase r = s.plainBase r := by
  unfold State.plainBase
  rw [show (s.fillWindow sid).str = s.str from State.fillWindow_does.same .str (by decide) (by decide)]

/-- The descriptor of a segment lies in the store's table, and its window beyond the tables. -/
def State.beyondTables (s : State) (sid : Nat) : Prop := sid < 16384 ∧ 0x90000 ≤ sdRbase (s.segDesc sid)

/-- A window beyond the tables leaves every descriptor as it is. -/
theorem State.fillWindow_segDesc {b sid k : Nat} (hb : s.plainBase .segment = some b) (h : s.beyondTables sid)
    (hk : k < 16384) : (s.fillWindow sid).segDesc k = s.segDesc k := by
  obtain ⟨-, hbase⟩ := h
  unfold State.segDesc State.segBytes
  rw [s.fillWindow_plainBase, hb]
  exact Memory.readBytes_congr (fun i hi => State.fillWindow_read hb (.inl (by simp only [Option.getD_some]; omega)))

/-- Windows filled one after another. -/
def State.fillWindows (s : State) (sids : List Nat) : State := sids.foldl (fun s sid => s.fillWindow sid) s

theorem State.fillWindows_does (s : State) (sids : List Nat) : Does [.sram] [] s (s.fillWindows sids) :=
  Does.foldl (fun _ _ => State.fillWindow_does) Does.refl

/-- Windows beyond the tables are filled without a change elsewhere. -/
theorem State.fillWindows_read {b a : Nat} {sids : List Nat} (hb : s.plainBase .segment = some b)
    (htables : ∀ sid ∈ sids, s.beyondTables sid) (hout : ∀ sid ∈ sids, s.outsideWindow b a sid) :
    Memory.read (s.fillWindows sids).sram a = Memory.read s.sram a := by
  induction sids generalizing s with
  | nil => rfl
  | cons sid sids ih =>
    have hfirst := htables sid List.mem_cons_self
    have hdesc : ∀ k ∈ sids, (s.fillWindow sid).segDesc k = s.segDesc k := fun k hk =>
      State.fillWindow_segDesc hb hfirst (htables k (List.mem_cons_of_mem _ hk)).1
    calc Memory.read ((s.fillWindow sid).fillWindows sids).sram a
      _ = Memory.read (s.fillWindow sid).sram a := by
        refine ih ((s.fillWindow_plainBase sid _).trans hb) (fun k hk => ?_) (fun k hk => ?_)
        · unfold State.beyondTables
          rw [hdesc k hk]
          exact htables k (List.mem_cons_of_mem _ hk)
        · unfold State.outsideWindow
          rw [hdesc k hk]
          exact hout k (List.mem_cons_of_mem _ hk)
      _ = Memory.read s.sram a := State.fillWindow_read hb (hout sid List.mem_cons_self)

end Sys2Proof.Machine
end

section
/-! SEAL and UNSEAL (O17): the verdict of a check, what SEG_CSTAT and the sealed bit show of it, and the windows filled. -/
namespace Sys2Proof.Machine

variable {s t : State}

/-! ## The verdict of a check (R229, R240) -/

theorem firstCause_eq_zero {f : Nat → Nat} {l : List Nat} (h : firstCause f l = 0) : ∀ i ∈ l, f i = 0 := by
  induction l with
  | nil => simp
  | cons i l ih =>
    unfold firstCause at h
    split at h
    next hi => exact List.forall_mem_cons.mpr ⟨hi, ih h⟩
    next hi => exact absurd h hi

theorem firstCause_lt {f : Nat → Nat} {n : Nat} (hn : 0 < n) (h : ∀ i, f i < n) (l : List Nat) : firstCause f l < n := by
  induction l with
  | nil => exact hn
  | cons i l ih =>
    unfold firstCause
    split
    · exact ih
    · exact h i

theorem State.segCause_lt (s : State) (sid : Nat) : s.segCause sid < 16 := by
  unfold State.segCause
  dsimp only
  repeat' split
  all_goals decide

theorem State.seCause_lt (s : State) (b : List Byte) (count : Nat) : s.seCause b count < 16 := by
  have hseg := s.segCause_lt
  unfold State.seCause
  dsimp only
  split
  · decide
  split
  · decide
  split
  · exact hseg _
  split
  · decide
  · exact hseg _

theorem State.sealCause_lt (s : State) (q : Nat) : s.sealCause q < 16 := by
  unfold State.sealCause
  dsimp only
  split
  · decide
  split
  · decide
  split
  · decide
  · exact firstCause_lt (by decide) (fun e => s.seCause_lt (s.seqEntry q e) (s.seqCount q)) _

theorem State.rbase_of_segCause {sid : Nat} (h : s.segCause sid = 0) : 0x90000 ≤ sdRbase (s.segDesc sid) := by
  unfold State.segCause at h
  dsimp only at h
  split at h
  next => exact absurd h (by decide)
  next hgood => simp only [not_or, not_lt] at hgood; exact hgood.2.2.2.2.2

/-- The segments of an entry that passes have descriptors in the table and areas beyond the tables. -/
theorem State.beyondTables_of_seCause {b : List Byte} {count sid : Nat} (h : s.seCause b count = 0)
    (hsid : sid = seSid b ∨ sid = seFbsid b) : s.beyondTables sid := by
  unfold State.seCause at h
  dsimp only at h
  split at h
  next => exact absurd h (by decide)
  split at h
  next => exact absurd h (by decide)
  next hindex =>
  split at h
  next hcause => exact absurd h hcause
  next hcause =>
  split at h
  next => exact absurd h (by decide)
  next =>
  simp only [not_or, not_le] at hindex
  rcases hsid with rfl | rfl
  · exact ⟨hindex.1, State.rbase_of_segCause (not_not.mp hcause)⟩
  · exact ⟨hindex.2.1, State.rbase_of_segCause h⟩

theorem State.seCause_of_sealCause {q e : Nat} (h : s.sealCause q = 0) (he : e < s.seqCount q) :
    s.seCause (s.seqEntry q e) (s.seqCount q) = 0 := by
  unfold State.sealCause at h
  dsimp only at h
  split at h
  next => exact absurd h (by decide)
  split at h
  next => exact absurd h (by decide)
  split at h
  next => exact absurd h (by decide)
  next => exact firstCause_eq_zero h e (List.mem_range.mpr he)

/-- The streamed segments of a sequence that passes have their windows beyond the tables. -/
theorem State.beyondTables_of_sealCause {q : Nat} (h : s.sealCause q = 0) :
    ∀ sid ∈ s.seqStreamed q, s.beyondTables sid := by
  intro sid hsid
  have hnamed := List.mem_eraseDups.mp (List.mem_filter.mp hsid).1
  obtain ⟨e, he, hmem⟩ := List.mem_flatMap.mp hnamed
  have hcount : e < s.seqCount q := lt_of_lt_of_le (List.mem_range.mp he) (Nat.min_le_right _ _)
  exact State.beyondTables_of_seCause (State.seCause_of_sealCause h hcount) (by simpa using hmem)

/-! ## What shows (R240, R241) -/

/-- What SEG_CSTAT shows of a result (R240). -/
theorem State.segResult_shows (s : State) {q cause : Nat} (hq : q < 4096) (hcause : cause < 16) :
    let t := s.segResult q cause
    t.bit aSEG_CSTAT fSEG_CSTAT_BUSY = false ∧ t.fld aSEG_CSTAT fSEG_CSTAT_SEQ = q ∧
      t.fld aSEG_CSTAT fSEG_CSTAT_RESULT = (if cause = 0 then 1 else 2) ∧ t.fld aSEG_CSTAT fSEG_CSTAT_CAUSE = cause := by
  intro t
  have hreg : t.reg aSEG_CSTAT = putF (putF (fldWord fSEG_CSTAT_SEQ q) fSEG_CSTAT_CAUSE cause) fSEG_CSTAT_RESULT
      (if cause = 0 then 1 else 2) := by
    unfold t State.segResult
    split <;> exact State.reg_setReg_self _ _ _
  have hbeside (f : Fld) (h : f.hi < 28 ∨ 29 < f.lo) :
      t.fld aSEG_CSTAT f = getF (putF (fldWord fSEG_CSTAT_SEQ q) fSEG_CSTAT_CAUSE cause) f := by
    unfold State.fld
    rw [hreg, getF_putF_ne _ _ _ _ (by decide) (by decide) h]
  refine ⟨?busy, ?seq, ?result, ?cause⟩
  case busy =>
    unfold State.bit
    rw [hbeside _ (by decide), getF_putF_ne _ _ _ _ (by decide) (by decide) (by decide), fldWord,
      getF_putF_ne _ _ _ _ (by decide) (by decide) (by decide)]
    rfl
  case seq =>
    rw [hbeside _ (by decide), getF_putF_ne _ _ _ _ (by decide) (by decide) (by decide),
      getF_fldWord_self _ _ (by decide) (by decide)]
    exact Nat.mod_eq_of_lt hq
  case result =>
    unfold State.fld
    rw [hreg, getF_putF_self _ _ _ (by decide) (by decide)]
    split <;> rfl
  case cause =>
    rw [hbeside _ (by decide), getF_putF_self _ _ _ (by decide) (by decide)]
    exact Nat.mod_eq_of_lt hcause

theorem State.segResult_keepsRegs (s : State) (q cause : Nat) : KeepsRegs [aSEG_CSTAT] s (s.segResult q cause) := by
  unfold State.segResult
  dsimp only
  split <;> exact keepsRegs_setReg s _ _

theorem State.segResult_keepsMemory (s : State) (q cause : Nat) : KeepsMemory s (s.segResult q cause) :=
  .of_does State.segResult_does (by decide)

theorem State.segResult_raises (s : State) (q : Nat) {cause : Nat} (h : cause ≠ 0) :
    Raises 57 islSegment s (s.segResult q cause) := by
  unfold State.segResult
  rw [if_neg h]
  exact raises_of_count rfl _ _

theorem aSEG_SEALED_ne_CSTAT (w : Nat) : aSEG_SEALED w ≠ aSEG_CSTAT := by unfold aSEG_SEALED aSEG_CSTAT; omega

theorem State.isSealed_congr {q : Nat} (h : t.reg (aSEG_SEALED (q / 32)) = s.reg (aSEG_SEALED (q / 32))) :
    t.isSealed q = s.isSealed q := by
  unfold State.isSealed
  rw [h]

theorem State.segResult_isSealed (s : State) (q cause k : Nat) : (s.segResult q cause).isSealed k = s.isSealed k :=
  State.isSealed_congr (s.segResult_keepsRegs q cause _ (by simpa using aSEG_SEALED_ne_CSTAT _))

/-- The state with the sealed bit of a sequence written. -/
def State.setSealed (s : State) (q v : Nat) : State := s.setFld (aSEG_SEALED (q / 32)) ⟨q % 32, q % 32⟩ v

/-- The sealed bit of a sequence written, and the PASS of the command that wrote it (R240, R242). -/
theorem State.setSealed_passes (s : State) {q : Nat} (hq : q < 4096) (v : Nat) :
    let t := (s.setSealed q v).segResult q 0
    t.isSealed q = v.testBit 0 ∧ t.bit aSEG_CSTAT fSEG_CSTAT_BUSY = false ∧ t.fld aSEG_CSTAT fSEG_CSTAT_RESULT = 1 ∧
      t.agenda = s.agenda ∧ KeepsRegs [aSEG_CSTAT, aSEG_SEALED (q / 32)] s t ∧
      t.sram = s.sram ∧ t.hbmMem = s.hbmMem ∧ t.spill = s.spill := by
  intro t
  obtain ⟨hbusy, -, hresult, -⟩ := (s.setSealed q v).segResult_shows hq (cause := 0) (by decide)
  refine ⟨?bit, hbusy, hresult, rfl, ?regs, rfl, rfl, rfl⟩
  case bit =>
    have hreg : (s.setSealed q v).reg (aSEG_SEALED (q / 32)) =
        putF (s.reg (aSEG_SEALED (q / 32))) ⟨q % 32, q % 32⟩ v := State.reg_setReg_self _ _ _
    rw [State.segResult_isSealed]
    unfold State.isSealed
    rw [hreg, putF_getLsbD _ _ _ _ le_rfl (Nat.mod_lt _ (by decide)), if_pos ⟨le_rfl, le_rfl⟩, Nat.sub_self]
  case regs =>
    exact ((keepsRegs_setReg s _ _).mono (by simp)).trans (((s.setSealed q v).segResult_keepsRegs q 0).mono (by simp))

/-! ## The commands -/

section
variable {seq : BitVec 12}

theorem exec_seal_busy (h : s.bit aSEG_CSTAT fSEG_CSTAT_BUSY = true) : exec (.seal seq) s = .next s.segBusy := if_pos h

theorem exec_seal_free (h : ¬ s.bit aSEG_CSTAT fSEG_CSTAT_BUSY = true) : exec (.seal seq) s =
    if s.isSealed seq.toNat then .next (s.segResult seq.toNat 0)
    else .next ((s.latch aSEG_CSTAT fSEG_CSTAT_BUSY).setFld aSEG_CSTAT fSEG_CSTAT_SEQ seq.toNat) := if_neg h

theorem exec_sealDone_other
    (h : ¬ (s.bit aSEG_CSTAT fSEG_CSTAT_BUSY = true ∧ s.fld aSEG_CSTAT fSEG_CSTAT_SEQ = seq.toNat)) :
    exec (.sealDone seq) s = .next s := if_neg (by simpa using h)

theorem exec_sealDone_own (hbusy : s.bit aSEG_CSTAT fSEG_CSTAT_BUSY = true)
    (hseq : s.fld aSEG_CSTAT fSEG_CSTAT_SEQ = seq.toNat) : exec (.sealDone seq) s =
      if s.sealCause seq.toNat = 0 then
        .next (((s.fillWindows (s.seqStreamed seq.toNat)).setSealed seq.toNat 1).segResult seq.toNat 0)
      else .next (s.segResult seq.toNat (s.sealCause seq.toNat)) := if_pos (by simp [hbusy, hseq])

/-- A player plays the sequence, or holds it (R242). -/
def State.usesSeq (s : State) (q c : Nat) : Bool :=
  (s.plState c != plIdle && s.plSeq c == q) || s.plHolds c == some q

theorem exec_unseal_free (h : ¬ s.bit aSEG_CSTAT fSEG_CSTAT_BUSY = true) : exec (.unseal seq) s =
    if (List.range 256).any (s.usesSeq seq.toNat) then .next (s.segResult seq.toNat scInUse)
    else .next ((s.setSealed seq.toNat 0).segResult seq.toNat 0) := if_neg h

end

/-! ## O17 -/

/-- Settles O17: the verdict of a check is `State.segResult_shows`, the sealed bit `State.setSealed_passes`, and the windows are
filled as `State.fillWindows_read` and `readBytes_placeEntries` say. -/
theorem sealing : Obligations.Sealing := by
  unfold Obligations.Sealing
  intro seq s q cause busy mine
  have hq : q < 4096 := seq.isLt
  refine ⟨fun hfree hopen => ?begins, fun hfree hsealed => ?passesAtOnce,
    fun hbusy => ⟨_, exec_seal_busy hbusy, s.segBusy_shows.2⟩, fun hbusy hmine hpass => ?passes,
    fun hbusy hmine hfail => ?fails,
    fun hother => ⟨s, exec_sealDone_other hother, rfl⟩, fun hfree hunused => ?unseals, fun c hfree hholds => ?inUse⟩
  case begins =>
    let u := s.latch aSEG_CSTAT fSEG_CSTAT_BUSY
    refine ⟨_, (exec_seal_free hfree).trans (if_neg (Bool.eq_false_iff.mp hopen)), ?_, ?_, rfl,
      ((KeepsRegs.refl _ s).latch (by simp) _).setReg (by simp) _, .of_fields rfl rfl rfl⟩
    · have hbeside : (u.setFld aSEG_CSTAT fSEG_CSTAT_SEQ q).bit aSEG_CSTAT fSEG_CSTAT_BUSY =
          u.bit aSEG_CSTAT fSEG_CSTAT_BUSY :=
        congrArg (· != 0) (State.fld_setFld_beside _ _ _ _ _ (by decide) (by decide) (by decide))
      exact hbeside.trans (State.bit_latch_self _ _ _ rfl (by decide))
    · exact (State.fld_setFld_self u _ _ _ (by decide) (by decide)).trans (Nat.mod_eq_of_lt hq)
  case passesAtOnce =>
    obtain ⟨hbusy, hseq, hresult, -⟩ := s.segResult_shows hq (cause := 0) (by decide)
    exact ⟨_, (exec_seal_free hfree).trans (if_pos hsealed), hbusy, hseq, hresult, rfl, s.segResult_keepsRegs q 0,
      s.segResult_keepsMemory q 0⟩
  case passes =>
    have hfill := s.fillWindows_does (s.seqStreamed q)
    obtain ⟨hbit, hfree, hresult, hagenda, hregs, hsram, hhbm, hspill⟩ :=
      (s.fillWindows (s.seqStreamed q)).setSealed_passes hq 1
    refine ⟨_, (exec_sealDone_own hbusy hmine).trans (if_pos hpass), hbit, hfree, hresult,
      hagenda.trans (hfill.same .agenda (by decide) (by decide)),
      (KeepsRegs.of_does hfill (by decide) _).trans hregs, hhbm.trans (hfill.same .hbmMem (by decide) (by decide)),
      hspill.trans (hfill.same .spill (by decide) (by decide)), fun a b hb hout => ?beside,
      fun sid b p hb honly hp hok => ?window⟩
    case beside =>
      rw [hsram]
      exact State.fillWindows_read hb (State.beyondTables_of_sealCause hpass) hout
    case window =>
      rw [hsram, honly]
      refine (congrArg (Memory.readBytes · _ 32) (State.fillWindow_sram hb sid)).trans ?_
      exact readBytes_placeEntries (fun _ => s.streamEntry_length _ _) hp hok
  case fails =>
    obtain ⟨hfree, -, hresult, hcause⟩ := s.segResult_shows hq (s.sealCause_lt q)
    exact ⟨_, (exec_sealDone_own hbusy hmine).trans (if_neg hfail), s.segResult_isSealed q cause q, hfree,
      hresult.trans (if_neg hfail), hcause, s.segResult_raises q hfail, s.segResult_keepsRegs q cause,
      s.segResult_keepsMemory q cause⟩
  case unseals =>
    have hnone : (List.range 256).any (s.usesSeq q) = false := by
      refine List.any_eq_false.mpr (fun c hc => ?_)
      obtain ⟨hseq, hholds⟩ := hunused ⟨c, List.mem_range.mp hc⟩
      rcases hseq with h | h <;> simp [State.usesSeq, h, hholds]
    obtain ⟨hbit, -, hresult, -, hregs, hsram, hhbm, hspill⟩ := s.setSealed_passes hq 0
    exact ⟨_, (exec_unseal_free hfree).trans (if_neg (Bool.eq_false_iff.mp hnone)), hbit, hresult, hregs,
      .of_fields hsram hhbm hspill⟩
  case inUse =>
    have hused : (List.range 256).any (s.usesSeq q) = true :=
      List.any_eq_true.mpr ⟨c.val, List.mem_range.mpr c.isLt, by simp [State.usesSeq, hholds, q]⟩
    obtain ⟨-, -, hresult, hcause⟩ := s.segResult_shows hq (cause := scInUse) (by decide)
    exact ⟨_, (exec_unseal_free hfree).trans (if_pos hused), s.segResult_isSealed q scInUse q, hresult, hcause,
      s.segResult_raises q (by decide), s.segResult_keepsRegs q scInUse, s.segResult_keepsMemory q scInUse⟩

end Sys2Proof.Machine
end

section
/-! One player's step at a sample boundary writes its own registers and its own state, and leaves every other player's. -/
namespace Sys2Proof.Machine

variable {s t u : State} {c : Nat}

theorem State.player_congr (h : t.players = s.players) (c : Nat) : t.player c = s.player c := by
  unfold State.player
  rw [h]

/-! ## What a player may write -/

/-- A register of a player: one of the 64 bytes from its PL_CMD on. -/
def ownReg (c a : Nat) : Prop := a / 0x40 = aPL_CMD c / 0x40

/-- From `s` to `t` no player changes but one, and no register of SEG but its own and SEG_LAT. -/
structure OnlyPlayer (c : Nat) (s t : State) : Prop where
  player : ∀ k, k ≠ c → t.player k = s.player k
  regs : ∀ a, regBlk a = 7 → a ≠ aSEG_LAT → ¬ ownReg c a → t.reg a = s.reg a

theorem OnlyPlayer.refl : OnlyPlayer c s s := ⟨fun _ _ => rfl, fun _ _ _ _ => rfl⟩

theorem OnlyPlayer.trans (h : OnlyPlayer c s t) (g : OnlyPlayer c t u) : OnlyPlayer c s u :=
  ⟨fun k hk => (g.player k hk).trans (h.player k hk), fun a hblk hlat hown => (g.regs a hblk hlat hown).trans
    (h.regs a hblk hlat hown)⟩

/-- What writes neither players nor registers of SEG. -/
theorem OnlyPlayer.call {ps : List Part} {bs : List Nat} (h : OnlyPlayer c s t) (g : Does ps bs t u)
    (w : .regs ∉ ps ∧ .players ∉ ps ∧ 7 ∉ bs) : OnlyPlayer c s u := by
  obtain ⟨hregs, hplayers, hblk⟩ := w
  have hsame : u.players = t.players := g.same .players hplayers (by decide)
  exact h.trans ⟨fun k _ => State.player_congr hsame k, fun a ha _ _ => g.regs hregs a (by rwa [ha])⟩

theorem OnlyPlayer.setReg (h : OnlyPlayer c s t) {a : Nat} (ha : ownReg c a ∨ a = aSEG_LAT) (v : Word) :
    OnlyPlayer c s (t.setReg a v) := by
  refine ⟨h.player, fun b hblk hlat hown => (State.reg_setReg_ne t v ?_).trans (h.regs b hblk hlat hown)⟩
  rintro rfl
  exact ha.elim hown hlat

theorem OnlyPlayer.setFld (h : OnlyPlayer c s t) {a : Nat} (ha : ownReg c a ∨ a = aSEG_LAT) (f : Fld) (v : Nat) :
    OnlyPlayer c s (t.setFld a f v) := h.setReg ha _

theorem OnlyPlayer.latch (h : OnlyPlayer c s t) {a : Nat} (ha : ownReg c a ∨ a = aSEG_LAT) (f : Fld) :
    OnlyPlayer c s (t.latch a f) := (h.setReg ha _).call State.mark_does (by decide)

theorem OnlyPlayer.setPlayer (h : OnlyPlayer c s t) (x : Player) : OnlyPlayer c s (t.setPlayer c x) :=
  ⟨fun k hk => ((State.setPlayer_player t c k x).trans (if_neg hk)).trans (h.player k hk), h.regs⟩

theorem OnlyPlayer.ite {p : Prop} [Decidable p] (h : p → OnlyPlayer c s t) (g : ¬ p → OnlyPlayer c s u) :
    OnlyPlayer c s (if p then t else u) := by
  split
  · exact h ‹_›
  · exact g ‹_›

/-! ## The registers of a player -/

theorem ownReg_STAT : ownReg c (aPL_STAT c) := by unfold ownReg aPL_STAT aPL_CMD; omega
theorem ownReg_LAT : ownReg c (aPL_LAT c) := by unfold ownReg aPL_LAT aPL_CMD; omega
theorem ownReg_STARVE : ownReg c (aPL_STARVE c) := by unfold ownReg aPL_STARVE aPL_CMD; omega
theorem ownReg_SAMP : ownReg c (aPL_SAMP c) := by unfold ownReg aPL_SAMP aPL_CMD; omega
theorem ownReg_LOOP : ownReg c (aPL_LOOP c) := by unfold ownReg aPL_LOOP aPL_CMD; omega
theorem ownReg_SP : ownReg c (aPL_SP c) := by unfold ownReg aPL_SP aPL_CMD; omega
theorem ownReg_PH : ownReg c (aPL_PH c) := by unfold ownReg aPL_PH aPL_CMD; omega
theorem ownReg_PH_high : ownReg c (aPL_PH c + 4) := by unfold ownReg aPL_PH aPL_CMD; omega

/-- A register of one player is a register of SEG, is not SEG_LAT, and is none of another player's. -/
theorem ownReg_other {k a : Nat} (h : ownReg c a) (hc : c < 256) (hk : k < 256) (hne : k ≠ c) :
    regBlk a = 7 ∧ a ≠ aSEG_LAT ∧ ¬ ownReg k a := by
  unfold ownReg at *
  unfold aPL_CMD at *
  unfold regBlk aSEG_LAT
  omega

/-! ## The steps of a player -/

theorem State.setPlState_only (s : State) (c st : Nat) : OnlyPlayer c s (s.setPlState c st) := by
  have hshown : OnlyPlayer c s (s.setFld (aPL_STAT c) fPL_STAT_STATE st) := OnlyPlayer.refl.setFld (.inl ownReg_STAT) _ _
  exact .ite (fun _ => hshown) (fun _ => hshown.call State.causeOff_does (by decide))

theorem State.putPlayer_only (s : State) (c : Nat) (x : Player) : OnlyPlayer c s (s.putPlayer c x) :=
  (OnlyPlayer.refl.setPlayer x).setFld (.inl ownReg_STAT) _ _

theorem State.leaveSegment_only (s : State) (c : Nat) : OnlyPlayer c s (s.leaveSegment c) :=
  OnlyPlayer.refl.call State.leaveSegment_does (by decide)

theorem State.enterEntry_only (s : State) (c e : Nat) (jumped : Bool) : OnlyPlayer c s (s.enterEntry c e jumped) :=
  ((s.leaveSegment_only c).setFld (.inl ownReg_STAT) _ _).setPlayer _

theorem State.seqDone_only (s : State) (c : Nat) : OnlyPlayer c s (s.seqDone c) :=
  (((s.leaveSegment_only c).trans (State.setPlState_only _ c plDone)).setPlayer _).call State.segPost_does (by decide)

theorem State.tryReturn_only (s : State) (c : Nat) : OnlyPlayer c s (s.tryReturn c) :=
  .ite (fun _ => .ite (fun _ => s.setPlState_only c plPlay) (fun _ => .refl)) (fun _ => .refl)

theorem State.goTo_only (s : State) (c target : Nat) (jumped : Bool) : OnlyPlayer c s (s.goTo c target jumped) :=
  .ite (fun _ => s.seqDone_only c) (fun _ => (s.enterEntry_only c target jumped).trans (State.tryReturn_only _ c))

theorem State.nextPass_only (s : State) (c : Nat) (se : List Byte) : OnlyPlayer c s (s.nextPass c se) :=
  .ite (fun _ => (OnlyPlayer.refl.setPlayer _).trans (State.tryReturn_only _ c)) (fun _ => s.goTo_only c _ _)

theorem State.passEnd_only (s : State) (c : Nat) (dec : Count) : OnlyPlayer c s (s.passEnd c dec) := by
  unfold State.passEnd
  extract_lets x se target
  split
  · exact (s.putPlayer_only c _).trans (State.goTo_only _ c _ _)
  · exact .ite (fun _ => (s.putPlayer_only c _).trans (State.goTo_only _ c _ _)) (fun _ => s.nextPass_only c se)
  · exact s.nextPass_only c se

theorem State.takeCmd_only (s : State) (c : Nat) (cmd : PlCmd) : OnlyPlayer c s (s.takeCmd c cmd) := by
  have hidle : OnlyPlayer c s ((s.leaveSegment c).setPlState c plIdle) :=
    (s.leaveSegment_only c).trans (State.setPlState_only _ c plIdle)
  cases cmd with
  | stop => exact hidle.setPlayer _
  | start q e =>
    exact ((hidle.setFld (.inl ownReg_STAT) _ _).trans (State.enterEntry_only _ c e false)).trans
      (State.setPlState_only _ c plPlay)
  | jump m e =>
    exact .ite (fun _ => s.seqDone_only c)
      (fun _ => (s.enterEntry_only c _ true).trans (State.setPlState_only _ c plPlay))

theorem State.playerTake_only (s : State) (c : Nat) : OnlyPlayer c s (s.playerTake c) := by
  unfold State.playerTake
  extract_lets -underBinder x s1 due rest s2
  have hposted : OnlyPlayer c s s1 :=
    .ite (fun _ => (OnlyPlayer.refl.setPlayer _).call State.segPost_does (by decide)) (fun _ => .refl)
  have hpassed : OnlyPlayer c s s2 := by
    unfold s2
    split
    · exact .ite (fun _ => hposted.setPlayer _) (fun _ => (hposted.setPlayer _).trans (State.passEnd_only _ c _))
    · exact hposted
  exact List.foldlRecOn (motive := OnlyPlayer c s) due _
    (.ite (fun _ => hpassed) (fun _ => hpassed.trans (State.putPlayer_only _ c _)))
    (fun v hv k _ => hv.trans (v.takeCmd_only c k.2))

theorem State.emitSample_only (s : State) (c : Nat) (x : Sample) : OnlyPlayer c s (s.emitSample c x) :=
  (((OnlyPlayer.refl.setPlayer _).setReg (.inl ownReg_SP) _).setReg (.inl ownReg_PH) _).setReg (.inl ownReg_PH_high) _

theorem State.starve_only (s : State) (c : Nat) : OnlyPlayer c s (s.starve c) :=
  ((((((s.setPlState_only c plFallback).latch (.inl ownReg_LAT) _).latch (.inr rfl) _).setPlayer _).call
    State.causeOn_does (by decide)).call State.raise_does (by decide)).call State.lateInternal_does (by decide)

theorem State.showPlayed_only (s : State) (c : Nat) (y : Player) (newSat fb : Bool) (left : Nat) :
    OnlyPlayer c s (s.showPlayed c y newSat fb left) := by
  unfold State.showPlayed
  extract_lets s1 s2 s3
  have hsat : OnlyPlayer c s s1 :=
    .ite (fun _ => (OnlyPlayer.refl.latch (.inl ownReg_LAT) _).latch (.inr rfl) _) (fun _ => .refl)
  have hraised : OnlyPlayer c s s2 := .ite (fun _ => hsat.call State.raise_does (by decide)) (fun _ => hsat)
  have hstarved : OnlyPlayer c s s3 :=
    .ite (fun _ => (hraised.setReg (.inl ownReg_STARVE) _).call State.mark_does (by decide)) (fun _ => hraised)
  exact (hstarved.setReg (.inl ownReg_SAMP) _).setReg (.inl ownReg_LOOP) _

theorem State.playSample_only (s : State) (c n : Nat) (reset : Bool) : OnlyPlayer c s (s.playSample c n reset) := by
  unfold State.playSample
  extract_lets se d x shadow s0 fb y0 fd e firstOfEntry y1 y2 first raw sat dur endEntry last fbEnd y3 mark mcode out s1 s2 s3
  have hstarved : OnlyPlayer c s s0 := .ite (fun _ => s.starve_only c) (fun _ => .refl)
  have hshown : OnlyPlayer c s s1 :=
    ((hstarved.setPlayer _).trans (State.emitSample_only _ c _)).trans (State.showPlayed_only _ c _ _ _ _)
  have hposted : OnlyPlayer c s s2 := .ite (fun _ => hshown.call State.segPost_does (by decide)) (fun _ => hshown)
  have hmarked : OnlyPlayer c s s3 := .ite (fun _ => hposted.call State.markChan_does (by decide)) (fun _ => hposted)
  exact .ite (fun _ => hmarked) (fun _ => hmarked.call State.demodSample_does (by decide))

theorem State.playerRest_only (s : State) (reset : Bool) (c : Nat) : OnlyPlayer c s (s.playerRest reset c) := by
  unfold State.playerRest
  extract_lets v y y1 out
  have hrest : OnlyPlayer c s v := OnlyPlayer.refl.call State.restDemod_does (by decide)
  exact .ite (fun _ => (hrest.setPlayer _).trans (State.emitSample_only _ c _))
    (fun _ => (hrest.setPlayer _).trans (State.emitSample_only _ c _))

theorem State.playerStep_only (s : State) (n : Nat) (reset : Bool) (c : Nat) : OnlyPlayer c s (s.playerStep n reset c) :=
  .ite (fun _ => (s.playerTake_only c).trans (State.playSample_only _ c n reset))
    (fun _ => (s.playerTake_only c).trans (State.playerRest_only _ reset c))

/-! ## A boundary of all players -/

/-- A player, its registers and the count stand as before. -/
structure KeepsPlayer (c : Nat) (s t : State) : Prop where
  player : t.player c = s.player c
  regs : ∀ a, ownReg c a → t.reg a = s.reg a
  count : t.count = s.count

theorem KeepsPlayer.refl : KeepsPlayer c s s := ⟨rfl, fun _ _ => rfl, rfl⟩

theorem KeepsPlayer.trans (h : KeepsPlayer c s t) (g : KeepsPlayer c t u) : KeepsPlayer c s u :=
  ⟨g.player.trans h.player, fun a ha => (g.regs a ha).trans (h.regs a ha), g.count.trans h.count⟩

theorem KeepsPlayer.plState (h : KeepsPlayer c s t) : t.plState c = s.plState c := State.fld_congr _ (h.regs _ ownReg_STAT)

theorem State.playerStep_count (s : State) (n : Nat) (reset : Bool) (c : Nat) : (s.playerStep n reset c).count = s.count :=
  State.playerStep_does.same .count (by decide) (by decide)

/-- The step of one player keeps every other. -/
theorem State.playerStep_keepsPlayer (s : State) (n : Nat) (reset : Bool) {k : Nat} (hc : c < 256) (hk : k < 256)
    (hne : k ≠ c) : KeepsPlayer c s (s.playerStep n reset k) where
  player := (s.playerStep_only n reset k).player c hne.symm
  regs a ha :=
    have ⟨hblk, hlat, hother⟩ := ownReg_other ha hc hk hne
    (s.playerStep_only n reset k).regs a hblk hlat hother
  count := s.playerStep_count n reset k

/-- The steps of all players at a sample boundary (R225). -/
def State.playersStep (s : State) (n : Nat) (reset : Bool) : State :=
  (List.range 256).foldl (fun s k => s.playerStep n reset k) s

theorem State.playersStep_does (s : State) (n : Nat) (reset : Bool) :
    Does [.agenda, .causes, .free, .fresh, .sram, .players, .acq] [1, 3, 7] s (s.playersStep n reset) :=
  Does.foldl (fun _ _ => State.playerStep_does) Does.refl

/-- A player finds itself at its step as before the boundary, and stands after the boundary as its step leaves it. -/
theorem State.playersStep_player (s : State) (n : Nat) (reset : Bool) (hc : c < 256) :
    ∃ u, KeepsPlayer c s u ∧ KeepsPlayer c (u.playerStep n reset c) (s.playersStep n reset) := by
  have hkeeps {l : List Nat} (hl : ∀ k ∈ l, k < 256 ∧ k ≠ c) (v : State) :
      KeepsPlayer c v (l.foldl (fun s k => s.playerStep n reset k) v) :=
    List.foldlRecOn (motive := KeepsPlayer c v) l _ .refl
      (fun w hw k hk => hw.trans (w.playerStep_keepsPlayer n reset hc (hl k hk).1 (hl k hk).2))
  have hsplit : List.range 256 = List.range c ++ c :: (List.range' (c + 1) (255 - c)) := by
    have happend := List.range'_append_1 (s := 0) (m := c) (n := 255 - c + 1)
    rw [List.range'_succ, Nat.zero_add, show c + (255 - c + 1) = 256 by omega] at happend
    rw [List.range_eq_range', List.range_eq_range', happend]
  unfold State.playersStep
  rw [hsplit, List.foldl_append, List.foldl_cons]
  refine ⟨_, hkeeps (fun k hk => ?_) s, hkeeps (fun k hk => ?_) _⟩
  · have := List.mem_range.mp hk; omega
  · have := List.mem_range'_1.mp hk; omega

/-- A register of SEG that is SEG_LAT or of no player reads as before the boundary. -/
theorem State.playersStep_reg (s : State) (n : Nat) (reset : Bool) {a : Nat} (hblk : regBlk a = 7) (hlat : a ≠ aSEG_LAT)
    (hown : ∀ k, ¬ ownReg k a) : (s.playersStep n reset).reg a = s.reg a :=
  List.foldlRecOn (motive := fun (u : State) => u.reg a = s.reg a) _ _ rfl
    (fun u hu k _ => ((u.playerStep_only n reset k).regs a hblk hlat (hown k)).trans hu)

end Sys2Proof.Machine
end

section
/-! Set-points at a sample boundary, and refilled entries (O19). -/
namespace Sys2Proof.Machine

variable {s t u : State} {c : Nat}

/-! ## A player for which nothing is due -/

/-- No pass or segment has ended, and no command of the player is due. -/
def Player.Quiet (x : Player) (now : Count) : Prop :=
  x.ended = none ∧ x.segEnd = false ∧ ∀ k ∈ x.cmds, Count.upto k.1 now = false

theorem State.playerTake_of_quiet (h : (s.player c).Quiet s.count) : s.playerTake c = s := by
  obtain ⟨hended, hseg, hcmds⟩ := h
  have hdue : (s.player c).cmds.filter (fun k => Count.upto k.1 s.count) = [] :=
    List.filter_eq_nil_iff.mpr (fun k hk => Bool.eq_false_iff.mp (hcmds k hk))
  unfold State.playerTake
  simp [hended, hseg, hdue]

theorem State.playerStep_plays (n : Nat) (reset : Bool) (h : (s.player c).Quiet s.count) (hplay : s.plState c = plPlay) :
    s.playerStep n reset c = s.playSample c n reset := by
  unfold State.playerStep
  rw [State.playerTake_of_quiet h]
  exact if_pos (.inl hplay)

theorem State.playerStep_rests (n : Nat) (reset : Bool) (h : (s.player c).Quiet s.count) (hidle : s.plState c = plIdle) :
    s.playerStep n reset c = s.playerRest reset c := by
  unfold State.playerStep
  rw [State.playerTake_of_quiet h]
  exact if_neg (by rw [hidle]; decide)

/-! ## A sample emitted -/

/-- A quantity of several words written is read back. -/
theorem State.wide_setWide_self (s : State) (a n : Nat) {v : Nat} (h : v < 2 ^ (32 * n)) :
    (s.setWide a n v).wide a n = v := by
  induction n generalizing s a v with
  | zero => exact (Nat.lt_one_iff.mp h).symm
  | succ n ih =>
    have hhigh : v / 2 ^ 32 < 2 ^ (32 * n) := by
      rw [Nat.div_lt_iff_lt_mul (by decide), ← pow_add]
      exact h
    have hlow : (s.setWide a (n + 1) v).reg a = BitVec.ofNat 32 v :=
      (State.reg_setWide_of_lt (s := s.setReg a (BitVec.ofNat 32 v)) (Nat.lt_add_of_pos_right (by decide)) n _).trans
        (State.reg_setReg_self _ _ _)
    have hrest : (s.setWide a (n + 1) v).wide (a + 4) n = v / 2 ^ 32 := ih (s.setReg a (BitVec.ofNat 32 v)) (a + 4) hhigh
    rw [State.wide, hlow, hrest, BitVec.toNat_ofNat]
    omega

/-- The sample that a player's registers show, and the player itself, stand as before. -/
structure KeepsEmitted (c : Nat) (s t : State) : Prop where
  players : t.players = s.players
  level : t.reg (aPL_SP c) = s.reg (aPL_SP c)
  phase : ∀ i < 2, t.reg (aPL_PH c + 4 * i) = s.reg (aPL_PH c + 4 * i)

theorem KeepsEmitted.refl : KeepsEmitted c s s := ⟨rfl, rfl, fun _ _ => rfl⟩

theorem KeepsEmitted.trans (h : KeepsEmitted c s t) (g : KeepsEmitted c t u) : KeepsEmitted c s u :=
  ⟨g.players.trans h.players, g.level.trans h.level, fun i hi => (g.phase i hi).trans (h.phase i hi)⟩

theorem KeepsEmitted.of_does {ps : List Part} {bs : List Nat} (h : Does ps bs s t)
    (w : .regs ∉ ps ∧ .players ∉ ps ∧ 7 ∉ bs) : KeepsEmitted c s t where
  players := h.same .players w.2.1 (by decide)
  level := h.regs w.1 _ (by rw [adr_PL_SP.here]; exact w.2.2)
  phase i hi := h.regs w.1 _ (by rw [adr_PL_PH.blk i (by omega)]; exact w.2.2)

/-- PL_SP and PL_PH stand at 10h to 1Bh of a player's 64 bytes. -/
theorem KeepsEmitted.setReg (h : KeepsEmitted c s t) {a : Nat} (ha : a % 0x40 < 0x10 ∨ 0x1C ≤ a % 0x40) (v : Word) :
    KeepsEmitted c s (t.setReg a v) where
  players := h.players
  level := (State.reg_setReg_ne t v (by unfold aPL_SP; omega)).trans h.level
  phase i hi := (State.reg_setReg_ne t v (by unfold aPL_PH; omega)).trans (h.phase i hi)

theorem KeepsEmitted.ite {p : Prop} [Decidable p] (h : p → KeepsEmitted c s t) (g : ¬ p → KeepsEmitted c s u) :
    KeepsEmitted c s (if p then t else u) := by
  split
  · exact h ‹_›
  · exact g ‹_›

theorem State.showPlayed_keepsEmitted (s : State) (c : Nat) (y : Player) (newSat fb : Bool) (left : Nat) :
    KeepsEmitted c s (s.showPlayed c y newSat fb left) := by
  unfold State.showPlayed
  extract_lets s1 s2 s3
  have hmark {v w : State} {a : Nat} {x : Word} (h : KeepsEmitted c v w) : KeepsEmitted c v (w.mark a x) :=
    h.trans (.of_does State.mark_does (by decide))
  have hsat : KeepsEmitted c s s1 :=
    .ite (fun _ => hmark ((hmark (KeepsEmitted.refl.setReg (by unfold aPL_LAT; omega) _)).setReg (by decide) _))
      (fun _ => .refl)
  have hraised : KeepsEmitted c s s2 :=
    .ite (fun _ => hsat.trans (.of_does State.raise_does (by decide))) (fun _ => hsat)
  have hstarved : KeepsEmitted c s s3 :=
    .ite (fun _ => hmark (hraised.setReg (by unfold aPL_STARVE; omega) _)) (fun _ => hraised)
  exact (hstarved.setReg (by unfold aPL_SAMP; omega) _).setReg (by unfold aPL_LOOP; omega) _

/-- A player that emits a sample stays as it is otherwise, and PL_SP and PL_PH show the sample. -/
theorem State.emitSample_shows (s : State) (c : Nat) (y : Player) {x : Sample} (h : x.theta < 2 ^ 48) :
    let t := (s.setPlayer c y).emitSample c x
    t.reg (aPL_SP c) = x.y ∧ t.wide (aPL_PH c) 2 = x.theta ∧ t.player c = { y with sample := x } := by
  intro t
  refine ⟨?level, State.wide_setWide_self _ _ 2 (by omega), ?player⟩
  case level => exact (State.reg_setWide_of_lt (by unfold aPL_SP aPL_PH; omega) 2 _).trans (State.reg_setReg_self _ _ _)
  case player =>
    have hset : (s.setPlayer c y).player c = y := (State.setPlayer_player s c c y).trans (if_pos rfl)
    refine ((State.setPlayer_player (s.setPlayer c y) c c _).trans (if_pos rfl)).trans ?_
    rw [hset]

theorem Player.theta_lt (x : Player) : x.theta < 2 ^ 48 := Nat.mod_lt _ (by decide)

/-! ## Playing and resting -/

/-- A player within an entry emits the set-point of R231 for the sample after the last, and advances (R231). -/
theorem State.playSample_within (s : State) (c n : Nat) (hplay : s.plState c = plPlay) (hk : (s.player c).k ≠ 0) :
    let x := s.player c
    let y := x.advance x.cur false 0
    let t := s.playSample c n false
    t.reg (aPL_SP c) = BitVec.ofInt 32 (sat32 y.level) ∧ t.wide (aPL_PH c) 2 = y.theta ∧ (t.player c).f = y.f ∧
      (t.player c).o = y.o := by
  intro x' y t
  have ht : t = s.playSample c n false := rfl
  unfold State.playSample at ht
  extract_lets -merge se d x shadow s0 fb y0 fd e firstOfEntry y1 y2 first raw sat dur endEntry last fbEnd y3 mark mcode out s1
    s2 s3 at ht
  have hs0 : s0 = s := if_neg (fun h => hk h.2.1)
  have hfb : fb = false := by
    unfold fb
    rw [hs0, hplay]
    rfl
  have hloaded : e = x.cur := by
    unfold e
    rw [hfb, if_neg Bool.false_ne_true, if_pos hk]
  have hlater : firstOfEntry = false := by
    unfold firstOfEntry
    rw [hfb, if_neg Bool.false_ne_true]
    exact beq_eq_false_iff_ne.mpr hk
  have hadvanced : y2 = y := by
    unfold y2 y1 y0
    rw [if_neg Bool.false_ne_true, hs0, hloaded, hlater]
    rfl
  obtain ⟨hlevel, hphase, hplayer⟩ := s0.emitSample_shows c y3 (x := out) y2.theta_lt
  have hshown : KeepsEmitted c ((s0.setPlayer c y3).emitSample c out) s1 := State.showPlayed_keepsEmitted _ c _ _ _ _
  have hposted : KeepsEmitted c ((s0.setPlayer c y3).emitSample c out) s2 :=
    .ite (fun _ => hshown.trans (.of_does State.segPost_does (by decide))) (fun _ => hshown)
  have hmarked : KeepsEmitted c ((s0.setPlayer c y3).emitSample c out) s3 :=
    .ite (fun _ => hposted.trans (.of_does State.markChan_does (by decide))) (fun _ => hposted)
  have hkept : KeepsEmitted c ((s0.setPlayer c y3).emitSample c out) t := by
    rw [ht]
    exact .ite (fun _ => hmarked) (fun _ => hmarked.trans (.of_does State.demodSample_does (by decide)))
  have hthen : t.player c = { y3 with sample := out } := (State.player_congr hkept.players c).trans hplayer
  refine ⟨?_, ?_, ?_, ?_⟩
  · rw [hkept.level, hlevel, ← hadvanced]
  · rw [State.wide_congr hkept.phase, hphase, ← hadvanced]
  · rw [hthen, ← hadvanced]
  · rw [hthen, ← hadvanced]

/-- An IDLE player outputs 0, with F at 0; a DDSRST that takes effect zeroes its phase (R225, R233). -/
theorem State.playerRest_idle (s : State) (reset : Bool) (c : Nat) (hidle : s.plState c = plIdle) :
    let t := s.playerRest reset c
    t.reg (aPL_SP c) = 0 ∧ t.plState c = plIdle ∧ (t.player c).f = 0 ∧ (reset = true → (t.player c).phi = 0) := by
  intro t
  have ht : t = s.playerRest reset c := rfl
  unfold State.playerRest at ht
  extract_lets v y y1 out at ht
  have hstat : v.plState c = plIdle :=
    (State.fld_congr _ (State.restDemod_does.regs (by decide) _ (by simp))).trans hidle
  rw [if_neg (by rw [hstat]; decide)] at ht
  obtain ⟨hlevel, -, hplayer⟩ := v.emitSample_shows c { y1 with f := 0 }
    (x := { out with flags := sampleFlags false false false false true false false }) y1.theta_lt
  refine ⟨?level, ?state, ?freq, fun hreset => ?phase⟩
  case level => rw [ht, hlevel]
  case state =>
    have hstill : t.reg (aPL_STAT c) = v.reg (aPL_STAT c) := by
      rw [ht]
      exact (State.reg_setWide_of_lt (by unfold aPL_STAT aPL_PH; omega) 2 _).trans
        (State.reg_setReg_ne _ _ (by unfold aPL_STAT aPL_SP; omega))
    exact (State.fld_congr _ hstill).trans hstat
  case freq => rw [ht, hplayer]
  case phase =>
    rw [ht, hplayer]
    unfold y1
    rw [if_pos hreset]

/-! ## SAMPLE_BOUNDARY -/

/-- A DDSRST waits whose due time has come (R233). -/
def State.resetDue (s : State) : Bool := s.seg.ddsrst.any (fun d => Count.upto d s.count)

/-- The number of the sample of the present cycle (R59). -/
def State.sampleNo (s : State) : Nat := s.count.toNat / 128 / (s.fld aSEG_CFG fSEG_CFG_DIVM1 + 1)

/-- A DDSRST has taken effect: NE is the present boundary's (R233). -/
def State.ddsReset (s : State) : State :=
  { s.setWide aSEG_EPOCH 3 s.count.toNat with seg := { ddsrst := none, epoch := s.sampleNo } }

theorem exec_sampleBoundary_none (h : s.boundaryNow = false) : exec .sampleBoundary s = .next s := if_pos (by simp [h])

theorem exec_sampleBoundary_now (htwin : s.twinIdle = false) (hnow : s.boundaryNow = true) : exec .sampleBoundary s =
    .next ((if s.resetDue then s.ddsReset else s).playersStep s.sampleNo s.resetDue) := if_neg (by simp [htwin, hnow])

/-- A player before its step is as it was, whether a DDSRST takes effect or not. -/
theorem State.ddsReset_keepsPlayer (s : State) (c : Nat) : KeepsPlayer c s (if s.resetDue then s.ddsReset else s) := by
  split
  · have hregs : ∀ a, ownReg c a → (s.setWide aSEG_EPOCH 3 s.count.toNat).reg a = s.reg a := by
      intro a ha
      have hbeyond : 0x701000 ≤ a := by unfold ownReg aPL_CMD at ha; omega
      refine (State.reg_setReg_ne _ _ ?_).trans ((State.reg_setReg_ne _ _ ?_).trans (State.reg_setReg_ne _ _ ?_)) <;>
        (unfold aSEG_EPOCH; omega)
    exact ⟨rfl, hregs, rfl⟩
  · exact .refl

/-- What the step of a player leaves of it shows after the boundary, where the step finds it as it was. -/
theorem State.boundary_player (s : State) {c : Nat} (hc : c < 256) : ∃ u, KeepsPlayer c s u ∧
    KeepsPlayer c (u.playerStep s.sampleNo s.resetDue c)
      ((if s.resetDue then s.ddsReset else s).playersStep s.sampleNo s.resetDue) := by
  obtain ⟨u, hbefore, hafter⟩ :=
    State.playersStep_player (if s.resetDue then s.ddsReset else s) s.sampleNo s.resetDue hc
  exact ⟨u, (s.ddsReset_keepsPlayer c).trans hbefore, hafter⟩

/-- An IDLE player after a boundary (R225, R233). -/
theorem State.boundary_idle (s : State) {c : Nat} (hc : c < 256) (hidle : s.plState c = plIdle)
    (hquiet : (s.player c).Quiet s.count) :
    let t := (if s.resetDue then s.ddsReset else s).playersStep s.sampleNo s.resetDue
    t.reg (aPL_SP c) = 0 ∧ t.plState c = plIdle ∧ (t.player c).f = 0 ∧
      (s.resetDue = true → (t.player c).phi = 0) := by
  intro t
  obtain ⟨u, hbefore, hafter⟩ := s.boundary_player hc
  have hrests : u.playerStep s.sampleNo s.resetDue c = u.playerRest s.resetDue c :=
    State.playerStep_rests _ _ (by rw [hbefore.player, hbefore.count]; exact hquiet) (hbefore.plState.trans hidle)
  rw [hrests] at hafter
  obtain ⟨hlevel, hstate, hfreq, hphase⟩ := u.playerRest_idle s.resetDue c (hbefore.plState.trans hidle)
  refine ⟨(hafter.regs _ ownReg_SP).trans hlevel, hafter.plState.trans hstate, ?_, ?_⟩
  · rw [hafter.player]; exact hfreq
  · rw [hafter.player]; exact hphase

/-- A player within an entry after a boundary (R231). -/
theorem State.boundary_plays (s : State) {c : Nat} (hc : c < 256) (hreset : s.resetDue = false)
    (hplay : s.plState c = plPlay) (hquiet : (s.player c).Quiet s.count) (hk : (s.player c).k ≠ 0) :
    let x := s.player c
    let y := x.advance x.cur false 0
    let t := (if s.resetDue then s.ddsReset else s).playersStep s.sampleNo s.resetDue
    t.reg (aPL_SP c) = BitVec.ofInt 32 (sat32 y.level) ∧ t.wide (aPL_PH c) 2 = y.theta ∧ (t.player c).f = y.f ∧
      (t.player c).o = y.o := by
  intro x y t
  obtain ⟨u, hbefore, hafter⟩ := s.boundary_player hc
  have hplays : u.playerStep s.sampleNo s.resetDue c = u.playSample c s.sampleNo false := by
    rw [State.playerStep_plays _ _ (by rw [hbefore.player, hbefore.count]; exact hquiet) (hbefore.plState.trans hplay), hreset]
  rw [hplays] at hafter
  obtain ⟨hlevel, hphase, hfreq, hoff⟩ := u.playSample_within c s.sampleNo (hbefore.plState.trans hplay)
    (by rw [hbefore.player]; exact hk)
  rw [hbefore.player] at hlevel hphase hfreq hoff
  refine ⟨(hafter.regs _ ownReg_SP).trans hlevel, ?_, ?_, ?_⟩
  · refine (State.wide_congr (fun i hi => hafter.regs _ ?_)).trans hphase
    unfold ownReg aPL_PH aPL_CMD
    omega
  · rw [hafter.player]; exact hfreq
  · rw [hafter.player]; exact hoff

/-- NE as DDSRST leaves it, 72 bits in three words (R233). -/
theorem State.ddsReset_epoch (s : State) : s.ddsReset.wide aSEG_EPOCH 3 = s.count.toNat := by
  refine (State.wide_congr (fun _ _ => rfl)).trans (State.wide_setWide_self s aSEG_EPOCH 3 ?_)
  exact lt_trans s.count.isLt (Nat.pow_lt_pow_right (by decide) (by decide))

/-- The steps of the players leave NE as it is. -/
theorem State.playersStep_epoch (s : State) (n : Nat) (reset : Bool) :
    (s.playersStep n reset).wide aSEG_EPOCH 3 = s.wide aSEG_EPOCH 3 := by
  refine State.wide_congr (fun i hi => s.playersStep_reg n reset (adr_SEG_EPOCH.blk i (by omega)) ?_ (fun k => ?_))
  · unfold aSEG_EPOCH aSEG_LAT
    omega
  · unfold ownReg aSEG_EPOCH aPL_CMD
    omega

/-! ## REFILL_ARRIVE -/

/-- The place in the order of play of entry `entry` from the next one to load (R243). -/
def Player.refillPlace (x : Player) (entry : Nat) : Nat := (if x.k = 0 then x.pos else x.pos + 1) + entry

/-- The player with a refilled place noted, once. -/
def Player.refilled (x : Player) (p : Nat) (now : Count) : Player :=
  { x with arrived := if x.arrived.any (fun a => a.1 == p) then x.arrived else x.arrived ++ [(p, now)] }

theorem Player.refilled_arrived (x : Player) (p : Nat) (now : Count) :
    (x.refilled p now).arrived.any (fun a => a.1 == p) = true := by
  unfold Player.refilled
  dsimp only
  split
  · assumption
  · simp

/-- The place in its window of the entry of a segment that is `p`-th in the order of play (R243). -/
def windowPlace (d : List Byte) (b p : Nat) : Nat := b + sdRbase d + 32 * (p % max 1 (sdRsize d))

/-- The state with a player set and an entry placed in the plain. -/
def State.placed (s : State) (c : Nat) (x : Player) (a : Nat) (e : List Byte) : State :=
  { s.setPlayer c x with sram := Memory.writeBytes s.sram a e }

/-- An entry placed stands at its place, and no other byte and nothing else but the player changes. -/
theorem State.placed_shows (s : State) (c : Nat) (x : Player) (a : Nat) {e : List Byte} (h : e.length = 32) :
    let t := s.placed c x a e
    t.player c = x ∧ t.regs = s.regs ∧ t.agenda = s.agenda ∧ Memory.readBytes t.sram a 32 = e ∧
      (∀ i, i < a ∨ a + 32 ≤ i → Memory.read t.sram i = Memory.read s.sram i) ∧ t.hbmMem = s.hbmMem ∧
      t.spill = s.spill := by
  have hplayer : (s.setPlayer c x).player c = x := (State.setPlayer_player s c c x).trans (if_pos rfl)
  exact ⟨hplayer, rfl, rfl, Memory.readBytes_writeBytes_self _ _ _ h,
    fun i hi => Memory.read_writeBytes_outside (by rwa [h]), rfl, rfl⟩

section
variable {ch : Chan} {entry : BitVec 16}

theorem exec_refillArrive_bad : exec (.refillArrive ch entry false) s = .next s := if_neg (by simp)

theorem exec_refillArrive_placed {b : Nat} (hplays : s.plState ch.val = plPlay ∨ s.plState ch.val = plFallback)
    (hstreamed : sdStreamed (s.plSeg ch.val) = true) (hopen : s.hbmOpen = true)
    (hok : entryOk (s.playedEntry (s.plSeg ch.val) ((s.player ch.val).refillPlace entry.toNat)) = true)
    (hfits : entry.toNat < sdRsize (s.plSeg ch.val)) (hb : s.plainBase .segment = some b) :
    exec (.refillArrive ch entry true) s =
      .next (s.placed ch.val ((s.player ch.val).refilled ((s.player ch.val).refillPlace entry.toNat) s.count)
        (windowPlace (s.plSeg ch.val) b ((s.player ch.val).refillPlace entry.toNat))
        (s.playedEntry (s.plSeg ch.val) ((s.player ch.val).refillPlace entry.toNat))) := by
  refine (if_pos ⟨hplays, hstreamed, rfl, hopen, hok, hfits⟩).trans ?_
  rw [hb]
  rfl

end

/-! ## O19 -/

/-- Settles O19: a boundary is `State.boundary_plays`, `State.boundary_idle` and `State.ddsReset_epoch`, and a refilled entry is
placed by `exec_refillArrive_placed`. -/
theorem synthesis : Obligations.Synthesis := by
  unfold Obligations.Synthesis
  refine ⟨fun ch s => ?boundary, fun ch entry s => ?refill⟩
  case boundary =>
    intro c x y quiet
    have hc : c < 256 := ch.isLt
    refine ⟨fun htwin hnow hnone hplay hquiet hk => ?plays, fun htwin hnow hidle hquiet => ?idle,
      fun d htwin hnow hwaits hdue => ?resets, fun hnot => ⟨s, exec_sampleBoundary_none hnot, rfl⟩⟩
    case plays =>
      have hreset : s.resetDue = false := by
        unfold State.resetDue
        rw [Option.any_eq_false]
        exact fun d hd => hnone d hd
      have hexec := exec_sampleBoundary_now htwin hnow
      have hdoes := s.playersStep_does s.sampleNo s.resetDue
      obtain ⟨hlevel, hphase, hfreq, hoff⟩ := s.boundary_plays hc hreset hplay hquiet hk
      rw [if_neg (Bool.eq_false_iff.mp hreset)] at hexec hlevel hphase hfreq hoff
      exact ⟨_, hexec, hlevel, hphase, hfreq, hoff, hdoes.same .count (by decide) (by decide),
        hdoes.same .hbmMem (by decide) (by decide), hdoes.same .spill (by decide) (by decide)⟩
    case idle =>
      obtain ⟨hlevel, hstate, hfreq, -⟩ := s.boundary_idle hc hidle hquiet
      exact ⟨_, exec_sampleBoundary_now htwin hnow, hlevel, hstate, hfreq⟩
    case resets =>
      have hreset : s.resetDue = true := by
        unfold State.resetDue
        rw [hwaits]
        exact hdue
      have hexec := exec_sampleBoundary_now htwin hnow
      rw [if_pos hreset] at hexec
      have hseg : (s.ddsReset.playersStep s.sampleNo s.resetDue).seg = s.ddsReset.seg :=
        (State.playersStep_does _ _ _).same .seg (by decide) (by decide)
      refine ⟨_, hexec, congrArg Seg.ddsrst hseg, fun hidle hquiet => ?_,
        (State.playersStep_epoch _ _ _).trans s.ddsReset_epoch⟩
      obtain ⟨-, -, -, hphase⟩ := s.boundary_idle hc hidle hquiet
      rw [if_pos hreset] at hphase
      exact hphase hreset
  case refill =>
    intro c x d p e
    refine ⟨fun b hplays hstreamed hopen hok hfits hb => ?placed, ⟨s, exec_refillArrive_bad, rfl⟩⟩
    case placed =>
      have hlen : (s.playedEntry d p).length = 32 := s.streamEntry_length _ _
      obtain ⟨hplayer, hplaced⟩ := s.placed_shows c (x.refilled p s.count) (windowPlace d b p) hlen
      have harrived : ((x.refilled p s.count).arrived.any (fun a => a.1 == p)) = true := x.refilled_arrived p s.count
      rw [← hplayer] at harrived
      exact ⟨_, exec_refillArrive_placed hplays hstreamed hopen hok hfits hb, harrived, hplaced⟩

end Sys2Proof.Machine
end

section
/-! Task control blocks (R271, R282, R285): what setting one shows in the plain, a wait that ends, and a refused message. -/
namespace Sys2Proof.Machine

variable {s t u : State} {n : Nat}

/-! ## The image of a control block (R271) -/

@[simp] theorem length_leBytes (n v : Nat) : (leBytes n v).length = n := by
  induction n generalizing v with
  | zero => rfl
  | succ n ih => rw [leBytes, List.length_cons, ih]

@[simp] theorem Task.length_bytes (x : Task) : x.bytes.length = 64 := by
  unfold Task.bytes
  simp only [List.length_append, length_leBytes]

theorem State.setTask_self (s : State) (n : Nat) (x : Task) : (s.setTask n x).task n = x :=
  (State.setTask_task s n n x).trans (if_pos rfl)

theorem State.setTask_sram (s : State) (n : Nat) (x : Task) : (s.setTask n x).sram =
    (s.plainBase .scheduler).elim s.sram (fun b => Memory.writeBytes s.sram (b + n * 64) x.bytes) := by
  unfold State.setTask
  cases s.plainBase .scheduler <;> simp only [Option.elim_none, Option.elim_some]

theorem State.setTask_storesTask (s : State) (n : Nat) (x : Task) : StoresTask n s (s.setTask n x) := by
  have hdoes : Does [.sram, .tasks] [] s (s.setTask n x) := State.setTask_does
  refine ⟨fun b hb => ?image, fun a ha => ?other, hdoes.same .hbmMem (by decide) (by decide),
    hdoes.same .spill (by decide) (by decide)⟩
  case image =>
    rw [State.setTask_self, State.setTask_sram, hb, Option.elim_some]
    exact Memory.readBytes_writeBytes_self _ _ _ x.length_bytes
  case other =>
    rw [State.setTask_sram]
    cases hb : s.plainBase .scheduler with
    | none => rfl
    | some b =>
      rw [Option.elim_some]
      exact Memory.read_writeBytes_outside (by rw [x.length_bytes]; exact ha b hb)

theorem StoresTask.trans (h : StoresTask n s t) (g : StoresTask n t u) (hstr : t.str = s.str) : StoresTask n s u := by
  have hbase : t.plainBase .scheduler = s.plainBase .scheduler := by unfold State.plainBase; rw [hstr]
  obtain ⟨-, hother, hhbm, hspill⟩ := h
  obtain ⟨gimage, gother, ghbm, gspill⟩ := g
  rw [hbase] at gimage gother
  exact ⟨gimage, fun a ha => (gother a ha).trans (hother a ha), ghbm.trans hhbm, gspill.trans hspill⟩

theorem State.task_of_does {ps : List Part} {bs : List Nat} (h : Does ps bs s t) (hps : .tasks ∉ ps) (n : Nat) :
    t.task n = s.task n := congrArg (Tab.get _ · n) (h.same .tasks hps (by decide))

/-- An image that stands still stands after what changes neither tasks nor memory. -/
theorem StoresTask.keep {ps : List Part} {bs : List Nat} (h : StoresTask n s t) (g : Does ps bs t u)
    (hps : .sram ∉ ps ∧ .hbmMem ∉ ps ∧ .spill ∉ ps ∧ .tasks ∉ ps) : StoresTask n s u := by
  obtain ⟨hsram, hhbm, hspill, htasks⟩ := hps
  unfold StoresTask
  rw [State.task_of_does g htasks n, show u.sram = t.sram from g.same .sram hsram (by decide),
    show u.hbmMem = t.hbmMem from g.same .hbmMem hhbm (by decide), show u.spill = t.spill from g.same .spill hspill (by decide)]
  exact h

/-- Beside persisting causes and the scheduler's own lists, a control block and its image alone change. -/
structure OnlyTask (n : Nat) (s t : State) : Prop where
  does : Does [.causes, .sram, .tasks, .sched] [] s t
  stores : StoresTask n s t

theorem State.setTask_only (s : State) (n : Nat) (x : Task) : OnlyTask n s (s.setTask n x) :=
  ⟨State.setTask_does.mono (by decide), s.setTask_storesTask n x⟩

theorem OnlyTask.trans (h : OnlyTask n s t) (g : OnlyTask n t u) : OnlyTask n s u where
  does := g.does.after h.does
  stores := h.stores.trans g.stores (h.does.same .str (by decide) (by decide))

theorem OnlyTask.keep {ps : List Part} (h : OnlyTask n s t) (g : Does ps [] t u)
    (hps : within ps [] [.causes, .sched] [] = true) : OnlyTask n s u :=
  have g' := g.mono hps
  ⟨(g'.mono (by decide)).after h.does, h.stores.keep g' (by decide)⟩

theorem OnlyTask.agenda (h : OnlyTask n s t) : t.agenda = s.agenda := h.does.same .agenda (by decide) (by decide)

theorem OnlyTask.keepsRegs (h : OnlyTask n s t) (as : List Nat) : KeepsRegs as s t := .of_does h.does (by decide) as

/-! ## A wait that ends (R287) -/

/-- The end of a wait may disarm the guard, and leaves the rest of the block. -/
theorem Task.endWait_eq (x : Task) : ∃ armed due, x.endWait = { x with guardArmed := armed, tdue := due } := by
  unfold Task.endWait
  split
  · exact ⟨_, _, rfl⟩
  · exact ⟨_, _, rfl⟩

theorem State.judgeGuards_task (s : State) (n : Nat) : s.judgeGuards.task n = s.task n :=
  State.task_of_does State.judgeGuards_does (by decide) n

/-! ## A refused message (R282) -/

/-- What a refused message shows, raises and keeps. -/
theorem State.msgReject_shows (s : State) {reason task : Nat} (op : Nat) (hreason : reason < 16) (htask : task < 65536) :
    let t := s.msgReject reason op task
    t.tasks = s.tasks ∧ t.fld aSCH_MREJ fSCH_MREJ_REASON = reason ∧ t.fld aSCH_MREJ fSCH_MREJ_TASK = task ∧
      t.bit aSCH_LAT fSCH_LAT_MSG_REJ = true ∧ Raises 66 islScheduler s t ∧ KeepsRegs [aSCH_LAT, aSCH_MREJ] s t ∧
      KeepsMemory s t := by
  intro t
  have hdoes : Does [.agenda, .fresh] [4] s t := State.msgReject_does
  have hmrej : t.reg aSCH_MREJ =
      putF (putF (fldWord fSCH_MREJ_REASON reason) fSCH_MREJ_OP op) fSCH_MREJ_TASK task := State.reg_setReg_self _ _ _
  have hlat : t.reg aSCH_LAT = (s.latch aSCH_LAT fSCH_LAT_MSG_REJ).reg aSCH_LAT := State.reg_setReg_ne _ _ (by decide)
  refine ⟨hdoes.same .tasks (by decide) (by decide), ?reason, ?task, ?latched, raises_of_count rfl _ _, ?regs,
    .of_does hdoes (by decide)⟩
  case reason =>
    unfold State.fld
    rw [hmrej, getF_putF_ne _ _ _ _ (by decide) (by decide) (by decide),
      getF_putF_ne _ _ _ _ (by decide) (by decide) (by decide), getF_fldWord_self _ _ (by decide) (by decide)]
    exact Nat.mod_eq_of_lt hreason
  case task =>
    unfold State.fld
    rw [hmrej, getF_putF_self _ _ _ (by decide) (by decide)]
    exact Nat.mod_eq_of_lt htask
  case latched => exact (State.bit_congr _ hlat).trans (State.bit_latch_self _ _ _ rfl (by decide))
  case regs =>
    exact ((KeepsRegs.refl _ s).latch (a := aSCH_LAT) (by simp) _).setReg (a := aSCH_MREJ) (by simp) _

end Sys2Proof.Machine
end

section
/-! Starts and judgements of tasks (R261, R274, R283): a task decided, a start taken or refused, and the judge. -/
namespace Sys2Proof.Machine

variable {s t : State} {n step cause : Nat}

/-! ## A task decided (R262, R283) -/

/-- The control block that a decision leaves is READY 8 cycles on, with its change. -/
theorem State.decideTask_task (s : State) (n step cause from_ : Nat) : ∃ armed due,
    (s.decideTask n step cause from_).task n = { s.task n with
      guardArmed := armed, tdue := due, state := .ready, readyAt := some (Count.cycleStart s.count + cyc 8)
      ctx := false, stored := false, change := s.changeTo n step cause from_
      step := if cause = 0 then step else (s.task n).step } := by
  obtain ⟨armed, due, hend⟩ := (s.task n).endWait_eq
  refine ⟨armed, due, ?_⟩
  unfold State.decideTask
  rw [State.judgeGuards_task, State.setTask_self, hend]

theorem State.decideTask_only (s : State) (n step cause from_ : Nat) : OnlyTask n s (s.decideTask n step cause from_) :=
  (s.setTask_only n _).keep State.judgeGuards_does (by decide)

/-! ## A start (R274) -/

/-- The flag word with which a task starts: bits 0 to 31 cleared but for those that actions of the present cycle have set. -/
def State.startFlags (s : State) (n : Nat) : BitVec 64 :=
  ((s.task n).f &&& 0xFFFFFFFF00000000#64) |||
    ((if (s.task n).setCyc = Count.cycleStart s.count then (s.task n).setNow else 0) &&& 0x00000000FFFFFFFF#64)

/-- From `s` to `t` a task starts: READY 8 cycles on, at its first step. -/
def Started (n : Nat) (s t : State) : Prop :=
  (t.task n).state = .ready ∧ (t.task n).readyAt = some (Count.cycleStart s.count + cyc 8) ∧
    (t.task n).step = (s.task n).firstStep ∧ (t.task n).f = s.startFlags n ∧ (t.task n).prio = (s.task n).base ∧
    (t.task n).change.from_ = 0xFFFF ∧ (t.task n).loops = [0, 0, 0, 0] ∧ (t.task n).endc = 0 ∧ t.agenda = s.agenda ∧
    KeepsRegs [] s t ∧ StoresTask n s t

/-- From `s` to `t` a task's start is refused, for the live task of its channel. -/
def StartRejected (n : Nat) (s t : State) : Prop :=
  (t.task n).state = .faulted ∧ (t.task n).endc = 3 ∧ t.bit aSCH_LAT fSCH_LAT_START_REJ = true ∧
    Raises 67 islScheduler s t ∧ KeepsRegs [aSCH_LAT] s t ∧ StoresTask n s t

/-- The state whose task stands cleared for its start, before the decision. -/
def State.clearedForStart (s : State) (n : Nat) : State :=
  let s1 := s.setTask n { s.task n with
    f := s.startFlags n, loops := [0, 0, 0, 0], endc := 0, prio := (s.task n).base, aged := false, raised := false }
  { s1 with sched := { s1.sched with started := n :: s1.sched.started } }

theorem State.startTask_eq_decided (h : s.liveTask (s.task n).chan = none) :
    s.startTask n = (s.clearedForStart n).decideTask n (s.task n).firstStep 0 0xFFFF :=
  if_neg (by rw [h]; exact Bool.false_ne_true)

theorem State.clearedForStart_task (s : State) (n : Nat) : (s.clearedForStart n).task n = { s.task n with
    f := s.startFlags n, loops := [0, 0, 0, 0], endc := 0, prio := (s.task n).base, aged := false, raised := false } :=
  State.setTask_self s n _

theorem State.clearedForStart_only (s : State) (n : Nat) : OnlyTask n s (s.clearedForStart n) :=
  (s.setTask_only n _).keep (Does.put_sched (ps := [.sched]) (by decide) Does.refl) (by decide)

theorem State.startTask_started (h : s.liveTask (s.task n).chan = none) : Started n s (s.startTask n) := by
  rw [State.startTask_eq_decided h]
  have honly := (s.clearedForStart_only n).trans ((s.clearedForStart n).decideTask_only n (s.task n).firstStep 0 0xFFFF)
  have hcount : (s.clearedForStart n).count = s.count := (s.clearedForStart_only n).does.same .count (by decide) (by decide)
  obtain ⟨armed, due, htask⟩ := (s.clearedForStart n).decideTask_task n (s.task n).firstStep 0 0xFFFF
  unfold Started
  rw [htask, s.clearedForStart_task n, hcount]
  exact ⟨rfl, rfl, rfl, rfl, rfl, rfl, rfl, rfl, honly.agenda, honly.keepsRegs _, honly.stores⟩

/-- The state whose task is FAULTED for its refused start. -/
def State.startFaulted (s : State) (n : Nat) : State :=
  (s.setTask n { (s.task n).endWait with state := .faulted, endc := 3 }).judgeGuards

/-- The state that latches the refusal of a start and raises its source. -/
def State.startRefused (s : State) (n : Nat) : State :=
  ((s.startFaulted n).latch aSCH_LAT fSCH_LAT_START_REJ).raise 67 islScheduler

theorem State.startTask_eq_refused (h : (s.liveTask (s.task n).chan).isSome = true) :
    ∃ r, s.startTask n = (s.startRefused n).appendA (Count.cycleStart s.count) r := ⟨_, if_pos h⟩

theorem State.startFaulted_only (s : State) (n : Nat) : OnlyTask n s (s.startFaulted n) :=
  (s.setTask_only n _).keep State.judgeGuards_does (by decide)

theorem State.startFaulted_task (s : State) (n : Nat) :
    (s.startFaulted n).task n = { (s.task n).endWait with state := .faulted, endc := 3 } :=
  (State.judgeGuards_task _ n).trans (State.setTask_self s n _)

theorem State.startRefused_does (s : State) (n : Nat) : Does [.agenda, .fresh] [4] (s.startFaulted n) (s.startRefused n) :=
  State.raise_does.call (by decide) (Does.latch adr_SCH_LAT (by decide) Does.refl)

theorem State.startRefused_rejected (s : State) (n : Nat) : StartRejected n s (s.startRefused n) := by
  have honly := s.startFaulted_only n
  have hdoes := s.startRefused_does n
  unfold StartRejected
  rw [State.task_of_does hdoes (by decide), s.startFaulted_task]
  exact ⟨rfl, rfl, State.bit_latch_self (s.startFaulted n) _ _ rfl (by decide),
    raises_of_count (t := (s.startFaulted n).latch aSCH_LAT fSCH_LAT_START_REJ)
      (honly.does.same .count (by decide) (by decide)) 67 islScheduler,
    (honly.keepsRegs _).latch (by simp) _, honly.stores.keep hdoes (by decide)⟩

/-- A record formed leaves a refusal as it is. -/
theorem StartRejected.appendA (h : StartRejected n s t) (time : Count) (r : List Byte) :
    StartRejected n s (t.appendA time r) := by
  obtain ⟨hstate, hendc, hlatched, hraised, hregs, hstores⟩ := h
  have hdoes : Does [.acq] [] t (t.appendA time r) := State.appendA_does
  have htask := State.task_of_does hdoes (by decide) n
  have hagenda : (t.appendA time r).agenda = t.agenda := hdoes.same .agenda (by decide) (by decide)
  have hlat : (t.appendA time r).reg aSCH_LAT = t.reg aSCH_LAT := hdoes.regs (by decide) _ (by simp)
  refine ⟨by rw [htask, hstate], by rw [htask, hendc], (State.bit_congr _ hlat).trans hlatched, ?_,
    hregs.trans (.of_does hdoes (by decide) _), hstores.keep hdoes (by decide)⟩
  unfold Raises
  rw [hagenda]
  exact hraised

theorem State.startTask_rejected (h : (s.liveTask (s.task n).chan).isSome = true) : StartRejected n s (s.startTask n) := by
  obtain ⟨r, hr⟩ := State.startTask_eq_refused h
  rw [hr]
  exact (s.startRefused_rejected n).appendA _ r

section
variable {task : TaskNo} {arg : BitVec 32}

theorem exec_taskStart_starts (h : (s.task task.toNat).state = .dormant ∨ (s.task task.toNat).state = .armed) :
    exec (.taskStart task arg) s = .next (s.startTask task.toNat) :=
  (if_neg (by rcases h with h | h <;> rw [h] <;> decide)).trans (if_pos h)

theorem exec_taskStart_refused (hfree : (s.task task.toNat).state ≠ .free) (hdormant : (s.task task.toNat).state ≠ .dormant)
    (harmed : (s.task task.toNat).state ≠ .armed) :
    exec (.taskStart task arg) s = .next (s.msgReject 2 4 task.toNat) :=
  (if_neg hfree).trans (if_neg (not_or.mpr ⟨hdormant, harmed⟩))

end

/-! ## The judge (R283) -/

/-- The state with the flag word of a task put among the items of its digest tick (R386), as every judgement puts it. -/
def State.judgeSeen (s : State) (n : Nat) : State := s.tickItem (.flags n s.count (s.task n).f)

/-- The state with other items of the digest ticks. -/
def State.withItems (s : State) (items : List TickItem) : State := { s with twn := { s.twn with items := items } }

/-- What holds whatever the items of the digest ticks are holds of the state that the judge sees. -/
theorem State.judgeSeen_of_items {P : State → Prop} (h : ∀ items, P (s.withItems items)) (n : Nat) : P (s.judgeSeen n) := by
  unfold State.judgeSeen State.tickItem
  split
  · exact h _
  · exact h s.twn.items

theorem State.judgeSeen_does (s : State) (n : Nat) : Does [.twn] [] s (s.judgeSeen n) := State.tickItem_does

theorem State.judgeSeen_twinIdle (s : State) (n : Nat) : (s.judgeSeen n).twinIdle = s.twinIdle :=
  State.judgeSeen_of_items (P := fun u => u.twinIdle = s.twinIdle) (fun _ => rfl) n

theorem State.judgeSeen_task (s : State) (n : Nat) : (s.judgeSeen n).task n = s.task n :=
  State.task_of_does (s.judgeSeen_does n) (by decide) n

theorem State.judgeSeen_still (s : State) (n : Nat) : let t := s.judgeSeen n
    t.tasks = s.tasks ∧ t.agenda = s.agenda ∧ KeepsRegs [] s t ∧ KeepsMemory s t :=
  have h := s.judgeSeen_does n
  ⟨h.same .tasks (by decide) (by decide), h.same .agenda (by decide) (by decide), .of_does h (by decide) _,
    .of_does h (by decide)⟩

theorem State.judgeSeen_count (s : State) (n : Nat) : (s.judgeSeen n).count = s.count :=
  (s.judgeSeen_does n).same .count (by decide) (by decide)

/-- A start taken by a judgement is one of the state judged. -/
theorem State.judgeSeen_started (h : s.liveTask (s.task n).chan = none) : Started n s ((s.judgeSeen n).startTask n) :=
  State.judgeSeen_of_items (P := fun u => Started n s (u.startTask n))
    (fun items => State.startTask_started (s := s.withItems items) h) n

theorem State.judgeSeen_rejected (h : (s.liveTask (s.task n).chan).isSome = true) :
    StartRejected n s ((s.judgeSeen n).startTask n) :=
  State.judgeSeen_of_items (P := fun u => StartRejected n s (u.startTask n))
    (fun items => State.startTask_rejected (s := s.withItems items) h) n

/-- From `s` to `t` a waiting task is decided for a branch by a cause: READY 8 cycles on, still at its step. -/
def Decided (n cause : Nat) (s t : State) : Prop :=
  (t.task n).state = .ready ∧ (t.task n).readyAt = some (Count.cycleStart s.count + cyc 8) ∧
    (t.task n).change.cause = cause ∧ (t.task n).change.from_ = (s.task n).step ∧
    (t.task n).change.flags = (s.task n).f ∧ (t.task n).f = (s.task n).f ∧ (t.task n).step = (s.task n).step ∧
    t.agenda = s.agenda ∧ KeepsRegs [] s t ∧ StoresTask n s t

theorem State.decideTask_decided (s : State) (n step : Nat) (hcause : cause ≠ 0) :
    Decided n cause s (s.decideTask n step cause (s.task n).step) := by
  have honly := s.decideTask_only n step cause (s.task n).step
  obtain ⟨armed, due, htask⟩ := s.decideTask_task n step cause (s.task n).step
  unfold Decided
  rw [htask]
  exact ⟨rfl, rfl, rfl, rfl, rfl, rfl, if_neg hcause, honly.agenda, honly.keepsRegs _, honly.stores⟩

theorem State.judgeSeen_decided (s : State) (n step : Nat) (hcause : cause ≠ 0) :
    Decided n cause s ((s.judgeSeen n).decideTask n step cause (s.task n).step) :=
  State.judgeSeen_of_items (P := fun u => Decided n cause s (u.decideTask n step cause (s.task n).step))
    (fun items => (s.withItems items).decideTask_decided n step hcause) n

/-- A branch has a cause of its own: 1 to 4 for a condition, 5 for the timeout, 6 for a violation. -/
theorem judgeStep_cause_ne_zero {r : List Byte} {f : BitVec 64} (h : judgeStep r f = some (step, cause)) : cause ≠ 0 := by
  unfold judgeStep at h
  split at h
  next =>
    obtain ⟨-, rfl⟩ := Prod.mk.inj (Option.some.inj h)
    decide
  next =>
    split at h
    next =>
      obtain ⟨-, rfl⟩ := Prod.mk.inj (Option.some.inj h)
      exact Nat.succ_ne_zero _
    next =>
      obtain ⟨-, hb⟩ := Option.ite_none_right_eq_some.mp h
      obtain ⟨-, rfl⟩ := Prod.mk.inj (Option.some.inj hb)
      decide

/-- The state whose task's CANCEL of the present cycle has been met. -/
def State.cancelMet (s : State) (n : Nat) : State := s.setTask n { s.task n with cancelCyc := none }

/-- The state in which the judge has met a CANCEL of the present cycle (R285). -/
def State.cancelJudged (s : State) (n : Nat) : State :=
  if (s.task n).waitHolds then (s.cancelMet n).bump aSCH_RCCNT else s.cancelMet n

/-- From `s` to `t` a task's CANCEL of the present cycle is counted where it met a satisfied wait. -/
def CancelCounted (n : Nat) (s t : State) : Prop :=
  (t.reg aSCH_RCCNT).toNat = (if (s.task n).waitHolds = true then min 0xFFFFFFFF ((s.reg aSCH_RCCNT).toNat + 1)
    else (s.reg aSCH_RCCNT).toNat) ∧ (t.task n).state = (s.task n).state ∧ t.agenda = s.agenda ∧
    KeepsRegs [aSCH_RCCNT] s t ∧ StoresTask n s t

theorem State.cancelJudged_counted (s : State) (n : Nat) : CancelCounted n s (s.cancelJudged n) := by
  have honly : OnlyTask n s (s.cancelMet n) := s.setTask_only n _
  have htask : (s.cancelMet n).task n = { s.task n with cancelCyc := none } := State.setTask_self s n _
  have hreg := honly.keepsRegs [] aSCH_RCCNT (by simp)
  unfold CancelCounted State.cancelJudged
  by_cases h : (s.task n).waitHolds = true
  case pos =>
    have hbump : Does [.fresh] [4] (s.cancelMet n) ((s.cancelMet n).bump aSCH_RCCNT) :=
      Does.bump adr_SCH_RCCNT (by decide) Does.refl
    rw [if_pos h, if_pos h, State.reg_bump_toNat, hreg, State.task_of_does hbump (by decide), htask]
    exact ⟨rfl, rfl, honly.agenda, (honly.keepsRegs _).bump (by simp), honly.stores.keep hbump (by decide)⟩
  case neg =>
    rw [if_neg h, if_neg h, hreg, htask]
    exact ⟨rfl, rfl, honly.agenda, honly.keepsRegs _, honly.stores⟩

theorem State.judgeSeen_cancelled (s : State) (n : Nat) : CancelCounted n s ((s.judgeSeen n).cancelJudged n) :=
  State.judgeSeen_of_items (P := fun u => CancelCounted n s (u.cancelJudged n))
    (fun items => (s.withItems items).cancelJudged_counted n) n

section
variable {task : TaskNo}

theorem exec_taskJudge_idle (h : s.twinIdle = true) : exec (.taskJudge task) s = .next (s.judgeSeen task.toNat) :=
  if_pos ((s.judgeSeen_twinIdle _).trans h)

variable (hidle : s.twinIdle = false)
include hidle

theorem exec_taskJudge_cancelled (h : (s.task task.toNat).cancelCyc = some (Count.cycleStart s.count)) :
    exec (.taskJudge task) s = .next ((s.judgeSeen task.toNat).cancelJudged task.toNat) := by
  unfold exec execTaskJudge State.cancelJudged State.cancelMet
  rw [s.judgeSeen_task]
  exact (if_neg (Bool.eq_false_iff.mp ((s.judgeSeen_twinIdle _).trans hidle))).trans
    (if_pos (by rw [← s.judgeSeen_count task.toNat] at h; exact h))

variable (hcancel : (s.task task.toNat).cancelCyc ≠ some (Count.cycleStart s.count))
include hcancel

theorem exec_taskJudge_armed (harmed : (s.task task.toNat).state = .armed) : exec (.taskJudge task) s = .next
    (if (s.task task.toNat).waitHolds then (s.judgeSeen task.toNat).startTask task.toNat else s.judgeSeen task.toNat) := by
  rw [← s.judgeSeen_count task.toNat] at hcancel
  exact (if_neg (Bool.eq_false_iff.mp ((s.judgeSeen_twinIdle _).trans hidle))).trans ((if_neg hcancel).trans (if_pos harmed))

theorem exec_taskJudge_waiting (hwaits : (s.task task.toNat).state = .waiting) {r : Option (Nat × Nat)}
    (hjudge : judgeStep (s.task task.toNat).record (s.task task.toNat).f = r) : exec (.taskJudge task) s = .next
    (if (s.task task.toNat).stepWait ∧ (s.task task.toNat).change.startAt.isNone then
      r.elim (s.judgeSeen task.toNat) (fun b =>
        (s.judgeSeen task.toNat).decideTask task.toNat b.1 b.2 (s.task task.toNat).step)
      else s.judgeSeen task.toNat) := by
  rw [← s.judgeSeen_count task.toNat] at hcancel
  refine ((if_neg (Bool.eq_false_iff.mp ((s.judgeSeen_twinIdle _).trans hidle))).trans ((if_neg hcancel).trans
    (if_neg (by rw [hwaits]; decide)))).trans ?_
  rw [hjudge]
  by_cases h : (s.task task.toNat).stepWait ∧ (s.task task.toNat).change.startAt.isNone
  · rw [if_pos h, if_pos ⟨hwaits, h⟩]
    cases r <;> rfl
  · rw [if_neg h, if_neg (fun hall => h hall.2)]
    rfl

end

/-! ## O22 -/

/-- Settles O22: a start is `State.startTask_started` or `State.startTask_rejected`, and a judgement is one of them, or
`State.decideTask_decided`, or `State.cancelJudged_counted`, in the state with its digest item. -/
theorem taskStarts : Obligations.TaskStarts := by
  unfold Obligations.TaskStarts
  intro task arg s n x keep started rejected still
  have hn : n < 65536 := task.isLt
  refine ⟨fun hstate hlive => ⟨_, exec_taskStart_starts hstate, State.startTask_started hlive⟩,
    fun hstate hlive => ⟨_, exec_taskStart_starts hstate, State.startTask_rejected hlive⟩,
    fun hfree hdormant harmed => ⟨_, exec_taskStart_refused hfree hdormant harmed, s.msgReject_shows 4 (by decide) hn⟩,
    fun hidle => ⟨_, exec_taskJudge_idle hidle, s.judgeSeen_still n⟩,
    fun hidle hcancel => ⟨_, exec_taskJudge_cancelled hidle hcancel, s.judgeSeen_cancelled n⟩,
    fun hidle hcancel => ⟨fun harmed hholds hlive => ?starts, fun harmed hholds hlive => ?refuses,
      fun harmed hholds => ?armedStays, fun hwaits hstep hjudge => ?waitingStays,
      fun step cause hwaits hstep hstart hjudge => ?decides⟩⟩
  case starts =>
    exact ⟨_, (exec_taskJudge_armed hidle hcancel harmed).trans (by rw [if_pos hholds]), State.judgeSeen_started hlive⟩
  case refuses =>
    exact ⟨_, (exec_taskJudge_armed hidle hcancel harmed).trans (by rw [if_pos hholds]), State.judgeSeen_rejected hlive⟩
  case armedStays =>
    have hexec := exec_taskJudge_armed hidle hcancel harmed
    rw [if_neg (Bool.eq_false_iff.mp hholds)] at hexec
    exact ⟨_, hexec, s.judgeSeen_still n⟩
  case waitingStays =>
    have hexec := exec_taskJudge_waiting hidle hcancel hwaits hjudge
    rw [Option.elim_none, ite_self] at hexec
    exact ⟨_, hexec, s.judgeSeen_still n⟩
  case decides =>
    have hexec := exec_taskJudge_waiting hidle hcancel hwaits hjudge
    rw [if_pos ⟨hstep, by rw [hstart]; rfl⟩] at hexec
    exact ⟨_, hexec, s.judgeSeen_decided n step (judgeStep_cause_ne_zero hjudge)⟩

end Sys2Proof.Machine
end

section
/-! Message queues (O20): a push that is placed, held, late or refused, room in a queue, and the ingress (R278 to R282). -/
namespace Sys2Proof.Machine

variable {s t : State} {by_ : Issuer} {m : BitVec 128}

/-! ## Refused and late messages (R279, R282) -/

theorem mTask_lt (m : BitVec 128) : mTask m < 65536 := Nat.mod_lt _ (by decide)

theorem State.formReason_lt (s : State) (m : BitVec 128) : s.formReason m < 16 := by
  unfold State.formReason
  extract_lets op arg ctl badArg
  split
  · decide
  · split <;> decide

/-- An OP that no message has, or a CTL beyond its four bits, is refused with reason 3. -/
theorem State.formReason_of_op (s : State) (h : mOp m = 0 ∨ 8 < mOp m ∨ 16 ≤ mCtl m) : s.formReason m = 3 :=
  if_pos (h.imp_right (Or.imp_right .inl))

/-- An ARM without a wait, a PRIO beyond 63 and a TIMER of 0 are refused with reason 3. -/
theorem State.formReason_of_arg (s : State) (h : (mOp m = 3 ∧ mArg m = 0 ∧ mCtl m / 2 % 4 = 0) ∨
    (mOp m = 7 ∧ 63 < mArg m) ∨ (mOp m = 8 ∧ mArg m = 0)) : s.formReason m = 3 := by
  refine if_pos (.inr (.inr (.inr ?_)))
  simpa [or_assoc, and_assoc] using h

/-- From `s` to `t` a message is refused: no queue changes, MSG_REJ and SCH_MREJ show it, and FS 66 is raised. -/
def MessageRefused (m : BitVec 128) (reason : Nat) (s t : State) : Prop :=
  t.sched = s.sched ∧ t.fld aSCH_MREJ fSCH_MREJ_REASON = reason ∧ t.fld aSCH_MREJ fSCH_MREJ_TASK = mTask m ∧
    t.bit aSCH_LAT fSCH_LAT_MSG_REJ = true ∧ Raises 66 islScheduler s t ∧ KeepsRegs [aSCH_LAT, aSCH_MREJ] s t ∧
    KeepsMemory s t

theorem State.msgReject_refused (s : State) (m : BitVec 128) {reason : Nat} (hreason : reason < 16) :
    MessageRefused m reason s (s.msgReject reason (mOp m) (mTask m)) :=
  have ⟨_, hshown⟩ := s.msgReject_shows (mOp m) hreason (mTask_lt m)
  ⟨State.msgReject_does.same .sched (by decide) (by decide), hshown⟩

theorem State.late_raises (s : State) (kind src dst : Nat) (due arr : Count) :
    Raises 8 (Fin.ofNat 80 dst) s (s.late kind src dst due arr) := by
  unfold Raises
  rw [State.late_agenda]
  exact (mem_insertDue _ _ _).mpr (.inl rfl)

theorem Raises.latch {fs : Fin 128} {isl : Fin 80} (h : Raises fs isl s t) (a : Nat) (f : Fld) :
    Raises fs isl s (t.latch a f) := h

/-- The state in which a push has come late (R279). -/
def State.pushedLate (s : State) (m : BitVec 128) : State :=
  (s.late 0 76 72 (s.extendDue (mDue m)) s.count).latch aTBS_LATE fTBS_LATE_HOST

theorem State.pushedLate_shows (s : State) (m : BitVec 128) : let t := s.pushedLate m
    t.sched = s.sched ∧ Raises 8 72 s t ∧ t.bit aTBS_LATE fTBS_LATE_HOST = true ∧ KeepsMemory s t := by
  have hlate := s.late_raises 0 76 72 (s.extendDue (mDue m)) s.count
  have hdoes : Does [.agenda, .fresh] [1] s (s.pushedLate m) := Does.latch adr_TBS_LATE (by decide) State.late_does
  exact ⟨hdoes.same .sched (by decide) (by decide), hlate.latch _ _, State.bit_latch_self _ _ _ rfl (by decide),
    .of_does hdoes (by decide)⟩

/-! ## Messages placed (R279) -/

/-- A message is not due before the tail of a queue. -/
def State.InOrder (s : State) (q : Nat) (m : BitVec 128) : Prop :=
  ∀ l, (s.queue q).getLast? = some l → Count.before (s.extendDue (mDue m)) l.1 = false

/-- The state with a message at the tail of a queue. -/
def State.joined (s : State) (q : Nat) (m : BitVec 128) : State :=
  s.setQueue q (s.queue q ++ [(s.extendDue (mDue m), m)])

section
variable {q : Nat}

theorem State.joined_queue (s : State) (q : Nat) (m : BitVec 128) :
    (s.joined q m).queue q = s.queue q ++ [(s.extendDue (mDue m), m)] :=
  (State.setQueue_queue s q q _).trans (if_pos rfl)

theorem State.place_disabled (h : s.blkOn 4 = false) : s.place by_ q m = s.msgReject 8 (mOp m) (mTask m) := if_pos h

theorem State.place_late (hon : s.blkOn 4 = true) (hlate : s.pushLate m = true) (hfwd : isForwarded by_ = false) :
    s.place by_ q m = s.pushedLate m := by
  unfold State.place
  simp [hon, hlate, hfwd, State.pushedLate]

section
variable (hon : s.blkOn 4 = true) (hlead : s.pushLate m = false)
include hon hlead

theorem State.place_foreign (hqueue : s.queueOf q (producerOf by_) = false) :
    s.place by_ q m = s.msgReject 9 (mOp m) (mTask m) := by
  unfold State.place
  simp [hon, hlead, hqueue]

variable (hqueue : s.queueOf q (producerOf by_) = true)
include hqueue

theorem State.place_malformed (hform : s.formReason m ≠ 0) :
    s.place by_ q m = s.msgReject (s.formReason m) (mOp m) (mTask m) := by
  unfold State.place
  simp [hon, hlead, hqueue, hform]

/-- A message of its producer, with its lead and its form right, joins the queue or is due before its tail. -/
theorem State.place_wellFormed (hform : s.formReason m = 0) : s.place by_ q m =
    if (s.queue q).getLast?.any (fun l => Count.before (s.extendDue (mDue m)) l.1) then s.msgReject 4 (mOp m) (mTask m)
    else s.joined q m := by
  unfold State.place
  cases (s.queue q).getLast? <;> simp [hon, hlead, hqueue, hform, State.joined]

theorem State.place_inOrder (hform : s.formReason m = 0) (horder : s.InOrder q m) : s.place by_ q m = s.joined q m := by
  rw [State.place_wellFormed hon hlead hqueue hform]
  exact if_neg (Bool.eq_false_iff.mp ((Option.any_eq_false _ _).mpr horder))

theorem State.place_early (hform : s.formReason m = 0) (horder : ¬ s.InOrder q m) :
    s.place by_ q m = s.msgReject 4 (mOp m) (mTask m) := by
  rw [State.place_wellFormed hon hlead hqueue hform]
  exact if_pos ((Bool.not_eq_false _).mp (fun hany => horder ((Option.any_eq_false _ _).mp hany)))

end
end

/-! ## QPUSH (R279) -/

@[simp] theorem State.setHeld_heldOf (s : State) (c d : Nat) (x : List (Nat × BitVec 128)) :
    (s.setHeld c x).heldOf d = if d = c then x else s.heldOf d := Tab.get_set _ _ _ _ _

section
variable {q : QueueNo}

theorem State.pushWaits_of_off (h : s.blkOn 4 = false) (q : Nat) : s.pushWaits by_ q = false := by
  simp [State.pushWaits, h]

theorem State.pushWaits_of_foreign {q : Nat} (h : s.queueOf q (producerOf by_) = false) : s.pushWaits by_ q = false := by
  simp [State.pushWaits, h]

theorem State.pushWaits_of_blocked {q : Nat} (hon : s.blkOn 4 = true) (hqueue : s.queueOf q (producerOf by_) = true)
    (h : s.queueFull q = true ∨ s.heldOf (producerOf by_) ≠ []) : s.pushWaits by_ q = true := by
  simpa [State.pushWaits, State.pushHeld, hon, hqueue] using h

theorem exec_qpush_placed (h : s.pushWaits by_ q.val = false) :
    exec (.qpush by_ q m) s = .next (s.place by_ q.val m) := if_neg (Bool.eq_false_iff.mp h)

/-- A push to a queue with room, with none of its producer held, is judged at once. -/
theorem exec_qpush_free (hfull : s.queueFull q.val = false) (hheld : s.heldOf (producerOf by_) = []) :
    exec (.qpush by_ q m) s = .next (s.place by_ q.val m) :=
  exec_qpush_placed (by simp [State.pushWaits, State.pushHeld, hfull, hheld])

theorem exec_qpush_held (h : s.pushWaits by_ q.val = true) : exec (.qpush by_ q m) s =
    .next (s.setHeld (producerOf by_) (s.heldOf (producerOf by_) ++ [(q.val, m)])) := if_pos h

end

/-! ## Room (R279) -/

/-- A producer whose push held first is for another queue, or that holds none, places none. -/
theorem State.placeHeld_still {code q : Nat} (h : ∀ x, (s.heldOf code).head? = some x → x.1 ≠ q) (n : Nat) :
    s.placeHeld code q n = s := by
  cases n with
  | zero => rfl
  | succ n =>
    unfold State.placeHeld
    cases hheld : s.heldOf code with
    | nil => rfl
    | cons x rest => exact if_neg (fun hplace => h x (by rw [hheld]; rfl) hplace.1)

/-- Where no producer of a list holds a push for a queue first, room places none. -/
theorem State.foldl_placeHeld_still {q : Nat} {codes : List Nat}
    (h : ∀ c ∈ codes, ∀ x, (s.heldOf c).head? = some x → x.1 ≠ q) :
    codes.foldl (fun s code => s.placeHeld code q (s.heldOf code).length) s = s := by
  refine List.foldlRecOn (motive := fun t => t = s) codes _ rfl (fun t ht c hc => ?_)
  rw [ht]
  exact s.placeHeld_still (h c hc) _

theorem exec_qpushRoom_still {q : QueueNo}
    (h : ∀ c : Fin 4, ∀ x, (s.heldOf c.val).head? = some x → x.1 ≠ q.val) : exec (.qpushRoom q) s = .next s :=
  congrArg _ (State.foldl_placeHeld_still (fun c hc => h ⟨c, List.mem_range.mp hc⟩))

/-- The state in which port 0's only held push has joined its queue. -/
def State.roomTaken (s : State) (q : Nat) (m : BitVec 128) : State :=
  let s1 := (s.setHeld 0 []).joined q m
  { s1 with sched := { s1.sched with lateHeld := s.sched.lateHeld.filter (fun c => c != 0) } }

section
variable {q : QueueNo} (hheld : s.heldOf 0 = [(q.val, m)]) (hon : s.blkOn 4 = true) (hqueue : s.queueOf q.val 0 = true)
  (hfull : s.queueFull q.val = false) (hlead : s.pushLate m = false) (hform : s.formReason m = 0)
  (horder : s.InOrder q.val m)
include hheld hon hqueue hfull hlead hform horder

theorem State.placeHeld_single : s.placeHeld 0 q.val 1 = s.roomTaken q.val m := by
  have hplace : (s.setHeld 0 []).place (producerIssuer 0) q.val m = (s.setHeld 0 []).joined q.val m :=
    State.place_inOrder hon hlead hqueue hform horder
  unfold State.placeHeld State.placeHeld
  simp only [hheld, hfull, true_or, and_self, if_true, hlead, Bool.and_false, Bool.false_eq_true, if_false, hplace]
  rfl

theorem exec_qpushRoom_single (hothers : ∀ c : Fin 4, c ≠ 0 → s.heldOf c.val = []) :
    exec (.qpushRoom q) s = .next (s.roomTaken q.val m) := by
  have hlength : (s.heldOf 0).length = 1 := by rw [hheld]; rfl
  have hkept : ∀ c, c ≠ 0 → (s.roomTaken q.val m).heldOf c = s.heldOf c := fun c hc =>
    (State.setHeld_heldOf s 0 c []).trans (if_neg hc)
  have hrest : ∀ c ∈ [1, 2, 3], ∀ x, ((s.roomTaken q.val m).heldOf c).head? = some x → x.1 ≠ q.val := by
    intro c hc x hx
    have hnone : s.heldOf c = [] := by
      simp only [List.mem_cons, List.not_mem_nil, or_false] at hc
      exact hothers ⟨c, by omega⟩ (by simp only [ne_eq, Fin.mk_eq_zero]; omega)
    rw [hkept c (by rintro rfl; simp at hc), hnone] at hx
    cases hx
  have hcodes : List.range 4 = 0 :: [1, 2, 3] := rfl
  refine congrArg Host.Outcome.next ?_
  rw [hcodes, List.foldl_cons, hlength, State.placeHeld_single hheld hon hqueue hfull hlead hform horder,
    State.foldl_placeHeld_still hrest]

end

/-! ## The ingress (R280) -/

theorem mem_insertMsg_self (d : Due) (q : Nat) (l : List Due) : d ∈ insertMsg d q l := by
  induction l with
  | nil => exact List.mem_singleton_self d
  | cons x xs ih =>
    unfold insertMsg
    extract_lets after
    split
    · exact List.mem_cons_self
    · exact List.mem_cons_of_mem _ ih

section
variable {q : QueueNo} {d : Count} {rest : List (Count × BitVec 128)}

/-- The state in which the ingress holds the message that stood before the rest of a queue. -/
def State.headTaken (s : State) (q : QueueNo) (d : Count) (m : BitVec 128) (rest : List (Count × BitVec 128)) : State :=
  let src := producerIssuer (s.fld (aSCH_QCFG q.val) fSCH_QCFG_PROD)
  { s.setQueue q.val rest with agenda := insertMsg ⟨d, src, .msg q m⟩ q.val s.agenda }

theorem State.takeHead_nil (h : s.queue q.val = []) (now : Count) : s.takeHead q now = s := by
  unfold State.takeHead
  rw [h]

variable (h : s.queue q.val = (d, m) :: rest)
include h

theorem State.takeHead_late {now : Count} (hpast : Count.before (Count.cycleStart d) now = true) :
    s.takeHead q now = (s.setQueue q.val rest).late 0 76 72 d now := by
  unfold State.takeHead
  rw [h]
  exact if_pos hpast

theorem State.takeHead_waits {now : Count} (hahead : Count.before (Count.cycleStart d) now = false)
    (hstays : Count.before (now + 1073741824#72) d = true ∨ 4096 ≤ s.ingressHeld) : s.takeHead q now = s := by
  unfold State.takeHead
  rw [h]
  exact (if_neg (Bool.eq_false_iff.mp hahead)).trans (if_pos hstays)

/-- The head of a queue taken into the ingress, where it is held until its due time. -/
theorem State.takeHead_taken {now : Count} (hahead : Count.before (Count.cycleStart d) now = false)
    (hnear : Count.before (now + 1073741824#72) d = false) (hroom : s.ingressHeld < 4096) :
    s.takeHead q now = s.headTaken q d m rest := by
  unfold State.takeHead
  rw [h]
  exact (if_neg (Bool.eq_false_iff.mp hahead)).trans (if_neg (by rw [hnear]; simpa using hroom))

end

/-- The state in which a queue's head has been discarded as late. -/
theorem State.discarded_shows (s : State) (q : Nat) (rest : List (Count × BitVec 128)) (d : Count) :
    let t := (s.setQueue q rest).late 0 76 72 d s.count
    t.queue q = rest ∧ t.tasks = s.tasks ∧ Raises 8 72 s t ∧ KeepsMemory s t := by
  have hdoes : Does [.agenda, .fresh, .sched] [1] s ((s.setQueue q rest).late 0 76 72 d s.count) :=
    State.late_does.call (by decide) (State.setQueue_does.mono (by decide))
  have hsched : ((s.setQueue q rest).late 0 76 72 d s.count).sched = (s.setQueue q rest).sched :=
    State.late_does.same .sched (by decide) (by decide)
  refine ⟨?_, hdoes.same .tasks (by decide) (by decide), (s.setQueue q rest).late_raises .., .of_does hdoes (by decide)⟩
  unfold State.queue
  rw [hsched]
  exact (State.setQueue_queue s q q rest).trans (if_pos rfl)

/-! ## O20 -/

/-- Settles O20: a push is placed by one of the lemmas on `State.place`, or held; room places what `exec_qpushRoom_single`
says, and the ingress takes what the lemmas on `State.takeHead` say. -/
theorem messageQueues : Obligations.MessageQueues := by
  unfold Obligations.MessageQueues
  intro by_ q m s due code mine free inOrder refused
  refine ⟨fun ⟨hon, hqueue⟩ ⟨hfull, hheld⟩ hlead hform horder => ?joins, fun ⟨hon, hqueue⟩ hblocked => ?held,
    fun ⟨hon, _⟩ ⟨hfull, hheld⟩ hlate hfwd => ?late, fun hon hqueue hlead => ?foreign, fun hoff => ?disabled,
    fun ⟨hon, hqueue⟩ ⟨hfull, hheld⟩ hlead hform => ?malformed,
    fun ⟨hon, hqueue⟩ ⟨hfull, hheld⟩ hlead hform hearly => ?early, ⟨?form, ?arm, ?prio, ?timer⟩,
    fun hothers => ⟨s, exec_qpushRoom_still hothers, rfl⟩,
    fun hheld hothers hon hqueue hfull hlead hform horder => ?room,
    fun d hhead => ⟨fun hnear hroom hahead => ?taken, fun hahead hstays => ?waits, fun hpast => ?past⟩,
    fun hempty => ?none⟩
  case joins =>
    exact ⟨_, (exec_qpush_free hfull hheld).trans (congrArg _ (State.place_inOrder hon hlead hqueue hform horder)),
      s.joined_queue _ _, rfl, rfl, .of_regs rfl _, .of_fields rfl rfl rfl⟩
  case held =>
    refine ⟨_, exec_qpush_held (State.pushWaits_of_blocked hon hqueue hblocked),
      (State.setHeld_heldOf s _ _ _).trans (if_pos rfl), rfl, rfl, .of_regs rfl _, .of_fields rfl rfl rfl⟩
  case late =>
    exact ⟨_, (exec_qpush_free hfull hheld).trans (congrArg _ (State.place_late hon hlate hfwd)), s.pushedLate_shows m⟩
  case foreign =>
    exact ⟨_, (exec_qpush_placed (State.pushWaits_of_foreign hqueue)).trans
      (congrArg _ (State.place_foreign hon hlead hqueue)), s.msgReject_refused m (by decide)⟩
  case disabled =>
    exact ⟨_, (exec_qpush_placed (State.pushWaits_of_off hoff _)).trans (congrArg _ (State.place_disabled hoff)),
      s.msgReject_refused m (by decide)⟩
  case malformed =>
    exact ⟨_, (exec_qpush_free hfull hheld).trans (congrArg _ (State.place_malformed hon hlead hqueue hform)),
      s.msgReject_refused m (s.formReason_lt m)⟩
  case early =>
    exact ⟨_, (exec_qpush_free hfull hheld).trans (congrArg _ (State.place_early hon hlead hqueue hform hearly)),
      s.msgReject_refused m (by decide)⟩
  case form => exact fun hop => s.formReason_of_op hop
  case arm => exact fun hop harg hctl => s.formReason_of_arg (.inl ⟨hop, harg, hctl⟩)
  case prio => exact fun hop harg => s.formReason_of_arg (.inr (.inl ⟨hop, harg⟩))
  case timer => exact fun hop harg => s.formReason_of_arg (.inr (.inr ⟨hop, harg⟩))
  case room =>
    exact ⟨_, exec_qpushRoom_single hheld hon hqueue hfull hlead hform horder hothers,
      (s.setHeld 0 []).joined_queue _ _, (State.setHeld_heldOf s 0 0 []).trans (if_pos rfl), rfl, .of_regs rfl _,
      .of_fields rfl rfl rfl⟩
  case taken =>
    exact ⟨_, congrArg Host.Outcome.next (State.takeHead_taken (List.eq_cons_of_mem_head? hhead) hahead hnear hroom),
      (State.setQueue_queue s q.val q.val _).trans (if_pos rfl), mem_insertMsg_self _ _ _, rfl, .of_regs rfl _,
      .of_fields rfl rfl rfl⟩
  case waits =>
    exact ⟨s, congrArg Host.Outcome.next (State.takeHead_waits (List.eq_cons_of_mem_head? hhead) hahead hstays), rfl⟩
  case past =>
    exact ⟨_, congrArg Host.Outcome.next (State.takeHead_late (List.eq_cons_of_mem_head? hhead) hpast),
      s.discarded_shows q.val _ d⟩
  case none => exact ⟨s, congrArg Host.Outcome.next (State.takeHead_nil hempty _), rfl⟩

end Sys2Proof.Machine
end

section
/-! Commands on tasks (O21): flags posted and cleared, waits armed, priorities, RESET, CANCEL and timers (R276 to R289). -/
namespace Sys2Proof.Machine

variable {s t u : State} {n : Nat} {task : TaskNo} {arg : BitVec 32}

/-! ## Gangs and their fires (R100, R314) -/

theorem State.members_of_keepsRegs (h : KeepsRegs [] s t) (ch : Nat) : t.members ch = s.members ch := by
  unfold State.members State.gangSize State.leader
  rw [State.fld_congr fCH_STAT_GANG_K (h _ List.not_mem_nil), State.fld_congr fCH_STAT_GANG_N (h _ List.not_mem_nil)]

theorem FiresNone.keep (h : FiresNone n s) (hregs : KeepsRegs [] s t) (hchan : (t.task n).chan = (s.task n).chan) :
    FiresNone n t := by
  unfold FiresNone
  rw [hchan, State.members_of_keepsRegs hregs]
  exact fun c hc => by rw [hregs _ List.not_mem_nil]; exact h c hc

theorem State.channelFires_of_firesNone (h : FiresNone n s) (set : BitVec 64) : s.channelFires n set = s := by
  refine List.foldlRecOn (motive := fun t => t = s) _ _ rfl (fun t ht c hc => ?_)
  rw [ht]
  exact if_neg (fun hfires => absurd hfires.1 (by rw [h c hc]; decide))

/-- No flag set, no trigger fired. -/
theorem State.channelFires_zero (s : State) (n : Nat) : s.channelFires n 0 = s := by
  refine List.foldlRecOn (motive := fun t => t = s) _ _ rfl (fun t ht c _ => ?_)
  rw [ht]
  exact if_neg (fun hfires => hfires.2 BitVec.and_zero)

/-! ## Actions on flags (R258, R281, R283) -/

theorem State.toJudge_judge (s : State) (n : Nat) : (s.toJudge n).sched.judge.contains n = true := by
  unfold State.toJudge
  split
  next h => exact h
  next => simp

theorem State.setTask_toJudge_only (s : State) (n : Nat) (x : Task) : OnlyTask n s ((s.setTask n x).toJudge n) :=
  (s.setTask_only n x).keep State.toJudge_does (by decide)

theorem State.setTask_toJudge_task (s : State) (n : Nat) (x : Task) : ((s.setTask n x).toJudge n).task n = x :=
  (State.task_of_does State.toJudge_does (by decide) n).trans (s.setTask_self n x)

/-- The control block of a task with its flag word acted on. -/
def State.flagged (s : State) (n : Nat) (set clear : BitVec 64) : Task :=
  let t := s.task n
  let now := Count.cycleStart s.count
  let was := if t.setCyc = now then t.setNow else 0
  { t with
    f := (t.f &&& ~~~ clear) ||| set, setNow := (was &&& ~~~ clear) ||| set, setCyc := now
    hardNow := if t.setCyc = now then t.hardNow else 0 }

/-- The state with a task's flag word acted on, before its channels fire. -/
def State.flagsSet (s : State) (n : Nat) (set clear : BitVec 64) : State := (s.setTask n (s.flagged n set clear)).toJudge n

theorem State.actOnFlags_eq (s : State) (n : Nat) (set clear : BitVec 64) :
    s.actOnFlags n set clear = (s.flagsSet n set clear).channelFires n set := rfl

section
variable (s : State) (n : Nat) (set clear : BitVec 64)

theorem State.flagsSet_only : OnlyTask n s (s.flagsSet n set clear) := s.setTask_toJudge_only n _

theorem State.flagsSet_task : (s.flagsSet n set clear).task n = s.flagged n set clear := s.setTask_toJudge_task n _

theorem State.actOnFlags_task : (s.actOnFlags n set clear).task n = s.flagged n set clear :=
  (State.task_of_does State.channelFires_does (by decide) n).trans (s.flagsSet_task n set clear)

theorem State.actOnFlags_stores : StoresTask n s (s.actOnFlags n set clear) :=
  (s.flagsSet_only n set clear).stores.keep State.channelFires_does (by decide)

theorem State.actOnFlags_judge : (s.actOnFlags n set clear).sched.judge.contains n = true := by
  have hsched : (s.actOnFlags n set clear).sched = (s.flagsSet n set clear).sched :=
    State.channelFires_does.same .sched (by decide) (by decide)
  rw [hsched]
  exact State.toJudge_judge _ n

theorem State.actOnFlags_only_of_firesNone (h : FiresNone n s) : OnlyTask n s (s.actOnFlags n set clear) := by
  have honly := s.flagsSet_only n set clear
  rw [State.actOnFlags_eq, State.channelFires_of_firesNone (h.keep (honly.keepsRegs _) (by rw [s.flagsSet_task]; rfl))]
  exact honly

theorem State.actOnFlags_clear_only : OnlyTask n s (s.actOnFlags n 0 clear) := by
  rw [State.actOnFlags_eq, State.channelFires_zero]
  exact s.flagsSet_only n 0 clear

end

theorem State.flagged_set (s : State) (n : Nat) (set : BitVec 64) : (s.flagged n set 0).f = (s.task n).f ||| set := by
  have hall : ~~~ (0 : BitVec 64) = BitVec.allOnes 64 := rfl
  show ((s.task n).f &&& ~~~ 0) ||| set = _
  rw [hall, BitVec.and_allOnes]

/-- Flags set in a task whose control block alone has changed before. -/
theorem OnlyTask.actOnFlags_set (h : OnlyTask n s t) (set : BitVec 64) : ∃ setNow setCyc hardNow,
    (t.actOnFlags n set 0).task n = { t.task n with
      f := (t.task n).f ||| set, setNow := setNow, setCyc := setCyc, hardNow := hardNow } ∧
    StoresTask n s (t.actOnFlags n set 0) := by
  refine ⟨(t.flagged n set 0).setNow, (t.flagged n set 0).setCyc, (t.flagged n set 0).hardNow, ?_,
    h.stores.trans (t.actOnFlags_stores n set 0) (h.does.same .str (by decide) (by decide))⟩
  rw [State.actOnFlags_task, ← State.flagged_set]
  rfl

theorem State.flagged_clear (s : State) (n : Nat) (clear : BitVec 64) :
    (s.flagged n 0 clear).f = (s.task n).f &&& ~~~ clear := BitVec.or_zero

/-! ## POST, CLEAR, ARM, PRIO and RESET (R277) -/

theorem exec_taskPost_acts (h : (s.task task.toNat).state ≠ .free) :
    exec (.taskPost task arg) s = .next (s.actOnFlags task.toNat (arg.setWidth 64 <<< 32) 0) := if_neg h

/-- The bits of a task's flag word that hardware has set in the present cycle. -/
def State.hardSet (s : State) (n : Nat) : BitVec 64 :=
  if (s.task n).setCyc = Count.cycleStart s.count then (s.task n).hardNow else 0

theorem exec_taskClear_acts (h : (s.task task.toNat).state ≠ .free) : exec (.taskClear task arg) s =
    .next (s.actOnFlags task.toNat 0 ((arg.setWidth 64 <<< 32) &&& ~~~ s.hardSet task.toNat)) := if_neg h

/-- The start wait that an ARM gives (R277): ARG in the upper half, E_DELAY and E_WTO from CTL. -/
def armWait (ctl : BitVec 4) (arg : BitVec 32) : BitVec 64 :=
  (arg.setWidth 64 <<< 32) ||| (if ctl.getLsbD 1 then 0x400000#64 else 0) ||| (if ctl.getLsbD 2 then 0x800000#64 else 0)

/-- The control block of a task armed. -/
def State.armedTask (s : State) (n : Nat) (ctl : BitVec 4) (arg : BitVec 32) : Task :=
  { s.task n with
    state := .armed, w := armWait ctl arg, all := ctl.getLsbD 0, stepWait := false, prio := (s.task n).base
    aged := false, raised := false }

theorem armWait_eq (ctl : BitVec 4) (arg : BitVec 32) : (arg.setWidth 64 <<< 32) |||
    (if ctl.getLsbD 1 then 1 <<< 22 else 0) ||| (if ctl.getLsbD 2 then 1 <<< 23 else 0) = armWait ctl arg := by
  unfold armWait
  cases ctl.getLsbD 1 <;> cases ctl.getLsbD 2 <;> rfl

section
variable {ctl : BitVec 4}

theorem exec_taskArm_eq (hfree : (s.task task.toNat).state ≠ .free) : exec (.taskArm task ctl arg) s =
    if armWait ctl arg = 0 then .next (s.msgReject 3 3 task.toNat)
    else if (s.task task.toNat).state ≠ .dormant then .next (s.msgReject 2 3 task.toNat)
    else .next ((s.setTask task.toNat (s.armedTask task.toNat ctl arg)).toJudge task.toNat) := by
  unfold State.armedTask
  rw [← armWait_eq]
  exact if_neg hfree

end

theorem TaskState.ne_free_of_live {x : TaskState} (h : x.live = true) : x ≠ .free := by
  rintro rfl
  exact absurd h (by decide)

theorem TaskState.ne_armed_of_live {x : TaskState} (h : x.live = true) : x ≠ .armed := by
  rintro rfl
  exact absurd h (by decide)

/-- The control block of a task reset. -/
def State.resetTask (s : State) (n : Nat) : Task :=
  { s.task n with
    state := .dormant, f := 0, w := 0, loops := [0, 0, 0, 0], endc := 0, tdue := none, sdue := none, delayArmed := false
    guardArmed := false, guardNext := false, cancelCyc := none, setNow := 0 }

theorem exec_taskReset_clears (hfree : (s.task task.toNat).state ≠ .free)
    (hlive : (s.task task.toNat).state.live = false) :
    exec (.taskReset task) s = .next (s.setTask task.toNat (s.resetTask task.toNat)).judgeGuards :=
  (if_neg hfree).trans (if_neg (Bool.eq_false_iff.mp hlive))

theorem exec_taskReset_refused (hlive : (s.task task.toNat).state.live = true) :
    exec (.taskReset task) s = .next (s.msgReject 2 6 task.toNat) :=
  (if_neg (TaskState.ne_free_of_live hlive)).trans (if_pos hlive)

/-! ## CANCEL (R285, R286) -/

theorem State.commitAct_agenda (s : State) (dst : Nat) (due : Count) (i : Instr) :
    (s.commitAct dst due i).agenda = insertDue ⟨due, .island islScheduler, .cmd i⟩ s.agenda := by
  unfold State.commitAct
  rw [State.hold_agenda]
  exact congrArg _ (State.fordSeen_does.same .agenda (by decide) (by decide))

/-- A task waits, ARMED or for the end of its step, so that a CANCEL may meet a wait that holds (R285). -/
def Task.waits (x : Task) : Bool := x.state = .armed || (x.state = .waiting && x.change.startAt.isNone)

/-- The control block of a task cancelled. -/
def State.cancelledTask (s : State) (n : Nat) : Task :=
  let t := s.task n
  { t.endWait with
    state := .cancelled, endc := 4, readyAt := none, ctx := false, stored := false
    cancelCyc := if t.waits then some (Count.cycleStart s.count) else none
    left := if t.change.startAt.isSome then some t.change else t.left, change := { t.change with startAt := none } }

/-- The state whose live task is cancelled, before what the CANCEL orders for the boundary. -/
def State.liveCancelled (s : State) (n : Nat) : State :=
  let s1 := ((s.leaveEngine n).setTask n (s.cancelledTask n)).judgeGuards
  if (s.task n).waits then s1.toJudge n else s1

/-- The state with the STOP and the end of the loop ordered for the boundary of R13. -/
def State.liveStopped (s : State) (n : Nat) : State :=
  let due := s.boundaryAfter s.count (s.stepLead n)
  let by_ : Issuer := .island islScheduler
  let ch := (s.task n).chan
  ((s.liveCancelled n).commitAct 73 due (.plStop by_ (chanFin ch))).commitAct (64 + (s.lch ch).eng) due
    (.lchEnWrite by_ (chanFin ch) false)

theorem exec_taskCancel_armed (h : (s.task task.toNat).state = .armed) : exec (.taskCancel task) s =
    .next ((s.setTask task.toNat (s.cancelledTask task.toNat)).toJudge task.toNat).judgeGuards :=
  (if_neg (by rw [h]; decide)).trans (if_pos h)

theorem exec_taskCancel_live (h : (s.task task.toNat).state.live = true) :
    ∃ r, exec (.taskCancel task) s = .next ((s.liveStopped task.toNat).appendA s.at r) :=
  ⟨_, (if_neg (TaskState.ne_free_of_live h)).trans ((if_neg (TaskState.ne_armed_of_live h)).trans (if_pos h))⟩

theorem exec_taskCancel_refused (hfree : (s.task task.toNat).state ≠ .free) (harmed : (s.task task.toNat).state ≠ .armed)
    (hlive : (s.task task.toNat).state.live = false) : exec (.taskCancel task) s = .next (s.msgReject 2 5 task.toNat) :=
  (if_neg hfree).trans ((if_neg harmed).trans (if_neg (Bool.eq_false_iff.mp hlive)))

/-- A control block written after what changes neither tasks nor memory. -/
theorem OnlyTask.before {ps : List Part} (g : OnlyTask n t u) (h : Does ps [] s t)
    (hps : within ps [] [.causes, .sched] [] = true) : OnlyTask n s u := by
  have h' := h.mono hps
  have hbase : t.plainBase .scheduler = s.plainBase .scheduler := by
    unfold State.plainBase
    rw [show t.str = s.str from h'.same .str (by decide) (by decide)]
  obtain ⟨himage, hother, hhbm, hspill⟩ := g.stores
  rw [hbase] at himage hother
  rw [show t.sram = s.sram from h'.same .sram (by decide) (by decide)] at hother
  exact ⟨g.does.after (h'.mono (by decide)), himage, hother, hhbm.trans (h'.same .hbmMem (by decide) (by decide)),
    hspill.trans (h'.same .spill (by decide) (by decide))⟩

/-- From `s` to `t` a task is cancelled. -/
def Cancelled (n : Nat) (s t : State) : Prop :=
  (t.task n).state = .cancelled ∧ (t.task n).endc = 4 ∧ StoresTask n s t

theorem Cancelled.keep {ps : List Part} {bs : List Nat} (h : Cancelled n s t) (g : Does ps bs t u)
    (hps : .sram ∉ ps ∧ .hbmMem ∉ ps ∧ .spill ∉ ps ∧ .tasks ∉ ps) : Cancelled n s u := by
  obtain ⟨hstate, hendc, hstores⟩ := h
  have htask := State.task_of_does g hps.2.2.2 n
  exact ⟨by rw [htask, hstate], by rw [htask, hendc], hstores.keep g hps⟩

theorem State.armedCancelled_only (s : State) (n : Nat) :
    OnlyTask n s ((s.setTask n (s.cancelledTask n)).toJudge n).judgeGuards :=
  (s.setTask_toJudge_only n _).keep State.judgeGuards_does (by decide)

theorem State.armedCancelled_task (s : State) (n : Nat) :
    (((s.setTask n (s.cancelledTask n)).toJudge n).judgeGuards).task n = s.cancelledTask n :=
  (State.judgeGuards_task _ n).trans (s.setTask_toJudge_task n _)

theorem State.liveCancelled_cancelled (s : State) (n : Nat) : Cancelled n s (s.liveCancelled n) := by
  have honly : OnlyTask n s ((s.leaveEngine n).setTask n (s.cancelledTask n)) :=
    ((s.leaveEngine n).setTask_only n _).before State.leaveEngine_does (by decide)
  have hset : Cancelled n s ((s.leaveEngine n).setTask n (s.cancelledTask n)) := by
    unfold Cancelled
    rw [State.setTask_self]
    exact ⟨rfl, rfl, honly.stores⟩
  have hjudged := hset.keep State.judgeGuards_does (by decide)
  unfold State.liveCancelled
  extract_lets s1
  split
  · exact hjudged.keep State.toJudge_does (by decide)
  · exact hjudged

theorem State.liveStopped_cancelled (s : State) (n : Nat) : Cancelled n s (s.liveStopped n) :=
  ((s.liveCancelled_cancelled n).keep State.commitAct_does (by decide)).keep State.commitAct_does (by decide)

theorem State.liveStopped_agenda (s : State) (n : Nat) (a : Act)
    (h : a = .cmd (.plStop (.island islScheduler) (chanFin (s.task n).chan)) ∨
      a = .cmd (.lchEnWrite (.island islScheduler) (chanFin (s.task n).chan) false)) :
    (⟨s.boundaryAfter s.count (s.stepLead n), .island islScheduler, a⟩ : Due) ∈ (s.liveStopped n).agenda := by
  unfold State.liveStopped
  rw [State.commitAct_agenda, State.commitAct_agenda, mem_insertDue, mem_insertDue]
  rcases h with rfl | rfl
  · exact .inr (.inl rfl)
  · exact .inl rfl

/-! ## Timers (R284, R287 to R289) -/

theorem Raises.keep {fs : Fin 128} {isl : Fin 80} (h : Raises fs isl s t) (g : t.agenda ⊆ u.agenda) :
    Raises fs isl s u := g h

/-- A guard that its group's discipline keeps exact would be one too many (R289). -/
def State.guardOverflows (s : State) (n : Nat) (guard : Bool) : Bool :=
  let exact := guard && s.discipline n != 0
  exact && decide (4096 + (if (s.task n).guardArmed && exact then 1 else 0) ≤ s.guards)

/-- The state with the task timer set. -/
def State.timerSet (s : State) (n : Nat) (guard next : Bool) (due : Count) : State :=
  let s1 := s.actOnFlags n 0 0xC00000#64
  (s1.setTask n { s1.task n with
    delayArmed := !guard, guardArmed := guard, guardNext := next, tdue := some due }).judgeGuards

/-- The state that refuses an exact guard for want of room (R289). -/
def State.guardRefused (s : State) (n : Nat) : State :=
  (((s.msgReject 6 8 n).latch aSCH_LAT fSCH_LAT_TMR_FULL).causeOn 68 0).raise 68 islScheduler

section
variable {guard : Bool} (harg : arg ≠ 0)
include harg

theorem exec_taskTimer_sorted (hfree : (s.task task.toNat).state ≠ .free) (hguard : guard = false)
    (hdisc : s.discipline task.toNat = 1) : exec (.taskTimer task guard arg) s = .next (s.msgReject 5 8 task.toNat) :=
  (if_neg hfree).trans ((if_neg harg).trans (if_pos ⟨hdisc, hguard⟩))

variable (htimed : (s.task task.toNat).state = .armed ∨ (s.task task.toNat).state.live = true)
  (hdisc : guard = true ∨ s.discipline task.toNat ≠ 1)
include htimed hdisc

/-- TIMER of an ARMED or live task, under a discipline that allows it, sets the timer unless a guard is one too many. -/
theorem exec_taskTimer_timed : ∃ next, exec (.taskTimer task guard arg) s =
    if s.guardOverflows task.toNat guard then .next (s.guardRefused task.toNat)
    else
      let due := s.placeExpiry task.toNat guard (s.at + BitVec.ofNat 72 (arg.toNat * 192000))
      .next ((s.timerSet task.toNat guard next due).hold (.island islScheduler) due (.cmd (.taskTimerExpiry task))) := by
  have hfree : (s.task task.toNat).state ≠ .free := by
    rintro hfree
    rw [hfree] at htimed
    exact absurd htimed (by decide)
  have hallowed : ¬ (s.discipline task.toNat = 1 ∧ guard = false) := by
    rintro ⟨hone, rfl⟩
    exact hdisc.elim Bool.false_ne_true (fun hne => hne hone)
  exact ⟨_, (if_neg hfree).trans ((if_neg harg).trans ((if_neg hallowed).trans (if_neg
    (by simpa using or_iff_not_imp_left.mp htimed))))⟩

end

theorem State.timerSet_only (s : State) (n : Nat) (guard next : Bool) (due : Count) :
    OnlyTask n s (s.timerSet n guard next due) :=
  ((s.actOnFlags_clear_only n 0xC00000#64).trans (State.setTask_only _ n _)).keep State.judgeGuards_does (by decide)

theorem State.timerSet_task (s : State) (n : Nat) (guard next : Bool) (due : Count) :
    (s.timerSet n guard next due).task n = { s.flagged n 0 0xC00000#64 with
      delayArmed := !guard, guardArmed := guard, guardNext := next, tdue := some due } := by
  unfold State.timerSet
  rw [State.judgeGuards_task, State.setTask_self, State.actOnFlags_task]

theorem State.guardOverflows_of_room {guard : Bool} (h : guard = true ∧ s.discipline n ≠ 0 → s.guards < 4096) :
    s.guardOverflows n guard = false := by
  unfold State.guardOverflows
  extract_lets exact
  by_cases hexact : exact = true
  · have hroom : s.guards < 4096 := h (by simpa [exact] using hexact)
    rw [Bool.and_eq_false_iff, decide_eq_false_iff_not]
    exact .inr (by omega)
  · rw [Bool.eq_false_iff.mpr hexact, Bool.false_and]

theorem State.guardOverflows_of_full {guard : Bool} (hexact : guard = true ∧ s.discipline n ≠ 0)
    (hfull : 4096 + (if (s.task n).guardArmed = true then 1 else 0) ≤ s.guards) : s.guardOverflows n guard = true := by
  obtain ⟨rfl, hdisc⟩ := hexact
  simpa [State.guardOverflows, hdisc] using hfull

/-- What the refusal of a guard shows, raises and keeps: the message is refused with reason 6, and FS 68's cause stands. -/
theorem State.guardRefused_shows (s : State) (hn : n < 65536) : let t := s.guardRefused n
    t.tasks = s.tasks ∧ t.fld aSCH_MREJ fSCH_MREJ_REASON = 6 ∧ t.bit aSCH_LAT fSCH_LAT_TMR_FULL = true ∧
      t.causeStands 68 = true ∧ Raises 66 islScheduler s t ∧ Raises 68 islScheduler s t ∧
      KeepsRegs [aSCH_LAT, aSCH_MREJ] s t ∧ KeepsMemory s t := by
  intro t
  obtain ⟨htasks, hreason, -, -, hraised, hregs, hmem⟩ := s.msgReject_shows (reason := 6) 8 (by decide) hn
  have hdoes : Does [.causes, .agenda, .fresh] [4] (s.msgReject 6 8 n) t :=
    State.raise_does.call (by decide) (State.causeOn_does.call (by decide) (Does.latch adr_SCH_LAT (by decide) Does.refl))
  have hkept : ∀ a, t.reg a = ((s.msgReject 6 8 n).latch aSCH_LAT fSCH_LAT_TMR_FULL).reg a :=
    State.reg_of_regs (State.causeOn_regs _ 68 0)
  have hagenda : (((s.msgReject 6 8 n).latch aSCH_LAT fSCH_LAT_TMR_FULL).causeOn 68 0).agenda = (s.msgReject 6 8 n).agenda :=
    State.causeOn_does.same .agenda (by decide) (by decide)
  have hcount : (((s.msgReject 6 8 n).latch aSCH_LAT fSCH_LAT_TMR_FULL).causeOn 68 0).count = s.count :=
    State.causeOn_does.same .count (by decide) (by decide)
  refine ⟨(hdoes.same .tasks (by decide) (by decide)).trans htasks, ?reason, ?full, State.causeOn_causeStands _ 68 0,
    hraised.keep ?agenda, raises_of_count hcount _ _, ?regs, hmem.trans (.of_does hdoes (by decide))⟩
  case reason => exact (State.fld_congr _ ((hkept _).trans (State.reg_latch_ne _ _ (by decide)))).trans hreason
  case full => exact (State.bit_congr _ (hkept _)).trans (State.bit_latch_self _ _ _ rfl (by decide))
  case agenda =>
    show (s.msgReject 6 8 n).agenda ⊆ insertDue _ _
    rw [hagenda]
    exact subset_insertDue _ _
  case regs => exact (hregs.latch (by simp) _).trans (fun a _ => hkept a)

/-- The state whose task timer has expired, before its flag sets. -/
def State.timerExpired (s : State) (n : Nat) : State :=
  (s.setTask n { s.task n with tdue := none, delayArmed := false, guardArmed := false, guardNext := false }).judgeGuards

/-- The state whose step timeout has passed, before E_TIMER sets. -/
def State.stepExpired (s : State) (n : Nat) : State := s.setTask n { s.task n with sdue := none }

theorem State.timerExpired_only (s : State) (n : Nat) : OnlyTask n s (s.timerExpired n) :=
  (s.setTask_only n _).keep State.judgeGuards_does (by decide)

theorem State.timerExpired_task (s : State) (n : Nat) : (s.timerExpired n).task n =
    { s.task n with tdue := none, delayArmed := false, guardArmed := false, guardNext := false } :=
  (State.judgeGuards_task _ n).trans (s.setTask_self n _)

theorem exec_taskTimerExpiry_eq : exec (.taskTimerExpiry task) s =
    .next (if (s.task task.toNat).tdue.any (fun d => Count.upto d s.at) then
      (s.timerExpired task.toNat).actOnFlags task.toNat
        (if (s.task task.toNat).guardArmed then 0x800000#64 else 0x400000#64) 0
    else s) := by
  show execTaskTimerExpiry task s = _
  unfold execTaskTimerExpiry
  extract_lets n x
  show _ = Host.Outcome.next (if x.tdue.any _ then _ else s)
  cases x.tdue with
  | none => rfl
  | some d => exact (apply_ite Host.Outcome.next _ _ _).symm

theorem exec_stepTimeout_eq : exec (.stepTimeout task) s =
    .next (if (s.task task.toNat).sdue.any (fun d => Count.upto d s.at) then
      (s.stepExpired task.toNat).actOnFlags task.toNat eTimer 0
    else s) := by
  show execStepTimeout task s = _
  unfold execStepTimeout
  extract_lets n x
  show _ = Host.Outcome.next (if x.sdue.any _ then _ else s)
  cases x.sdue with
  | none => rfl
  | some d => exact (apply_ite Host.Outcome.next _ _ _).symm

/-! ## O21 -/

/-- Settles O21: a command is refused by `State.msgReject_shows` or writes the task's control block, where `OnlyTask` says
what else it leaves; `State.actOnFlags_task`, `State.liveStopped_agenda` and `State.timerSet_task` say what it writes. -/
theorem taskCommands : Obligations.TaskCommands := by
  unfold Obligations.TaskCommands
  refine ⟨fun task ctl arg s => ?messages, fun task guard arg d s => ?timed⟩
  case messages =>
    intro n x w hard refused
    have hn : n < 65536 := task.isLt
    have hrefused (r op : Nat) (hr : r < 16) : refused r (s.msgReject r op n) := s.msgReject_shows op hr hn
    refine ⟨fun hfree => ?post, fun hfree => ?clear, fun hdormant hwait => ?arm, fun hfree hwait => ?armNoWait,
      fun hfree hdormant hwait => ?armRefused, fun hfree harg => ?prio, fun hfree harg => ?prioRefused,
      fun hfree hlive => ?reset, fun hlive => ⟨_, exec_taskReset_refused hlive, hrefused 2 6 (by decide)⟩,
      fun hfree harmed hlive => ⟨_, exec_taskCancel_refused hfree harmed hlive, hrefused 2 5 (by decide)⟩,
      fun hfree c hc => ?free⟩
    case post =>
      have hf := s.flagged_set n (arg.setWidth 64 <<< 32)
      refine ⟨_, exec_taskPost_acts hfree, ?_, ?_, State.actOnFlags_judge _ _ _ _, State.actOnFlags_stores _ _ _ _,
        fun hfires => ?_⟩
      · rw [State.actOnFlags_task]; exact hf
      · rw [State.actOnFlags_task]; rfl
      · have honly := s.actOnFlags_only_of_firesNone n (arg.setWidth 64 <<< 32) 0 hfires
        exact ⟨honly.keepsRegs _, honly.agenda⟩
    case clear =>
      have honly := s.actOnFlags_clear_only n ((arg.setWidth 64 <<< 32) &&& ~~~ s.hardSet n)
      have hf := s.flagged_clear n ((arg.setWidth 64 <<< 32) &&& ~~~ s.hardSet n)
      refine ⟨_, exec_taskClear_acts hfree, ?_, ?_, honly.stores, fun _ => ⟨honly.keepsRegs _, honly.agenda⟩⟩
      · rw [State.actOnFlags_task]; exact hf
      · rw [State.actOnFlags_task]; rfl
    case arm =>
      have hfree : x.state ≠ .free := by rw [hdormant]; decide
      have honly := s.setTask_toJudge_only n (s.armedTask n ctl arg)
      refine ⟨_, (exec_taskArm_eq hfree).trans ((if_neg hwait).trans (if_neg (not_not.mpr hdormant))), ?_⟩
      beta_reduce
      rw [s.setTask_toJudge_task]
      exact ⟨rfl, rfl, rfl, rfl, State.toJudge_judge _ n, honly.agenda, honly.keepsRegs _, honly.stores⟩
    case armNoWait => exact ⟨_, (exec_taskArm_eq hfree).trans (if_pos hwait), hrefused 3 3 (by decide)⟩
    case armRefused =>
      exact ⟨_, (exec_taskArm_eq hfree).trans ((if_neg hwait).trans (if_pos hdormant)), hrefused 2 3 (by decide)⟩
    case prio =>
      have honly := s.setTask_only n { x with base := arg.toNat, prio := if x.raised then x.prio else arg.toNat }
      refine ⟨_, (if_neg hfree).trans (if_neg (not_lt.mpr harg)), ?_⟩
      beta_reduce
      rw [State.setTask_self]
      exact ⟨rfl, rfl, rfl, State.setTask_does.same .sched (by decide) (by decide), honly.keepsRegs _, honly.stores⟩
    case prioRefused => exact ⟨_, (if_neg hfree).trans (if_pos harg), hrefused 3 7 (by decide)⟩
    case reset =>
      have honly := (s.setTask_only n (s.resetTask n)).keep State.judgeGuards_does (by decide)
      have hsched : (s.setTask n (s.resetTask n)).judgeGuards.sched = s.sched :=
        (State.judgeGuards_does.same .sched (by decide) (by decide)).trans
          (State.setTask_does.same .sched (by decide) (by decide))
      refine ⟨_, exec_taskReset_clears hfree hlive, ?_⟩
      beta_reduce
      rw [State.judgeGuards_task, State.setTask_self]
      exact ⟨rfl, rfl, rfl, rfl, rfl, rfl, hsched, honly.keepsRegs _, honly.stores⟩
    case free =>
      simp only [List.mem_cons, List.not_mem_nil, or_false] at hc
      rcases hc with rfl | rfl | rfl | rfl | rfl | rfl | rfl | rfl | rfl <;>
        exact ⟨_, if_pos hfree, hrefused 1 _ (by decide)⟩
  case timed =>
    intro n x by_ due exact timed
    have hn : n < 65536 := task.isLt
    refine ⟨fun harmed => ?cancelArmed, fun hlive => ?cancelLive, fun htimed harg hdisc hroom => ?timerArms,
      fun hfree harg hguard hdisc => ?sorted, fun htimed harg hexact hfull => ?full, fun hdue hpast => ?expires,
      fun hlater => ?timerStill, fun hdue hpast => ?timesOut, fun hlater => ?stepStill⟩
    case cancelArmed =>
      have honly := s.armedCancelled_only n
      refine ⟨_, exec_taskCancel_armed harmed, ?_⟩
      beta_reduce
      rw [s.armedCancelled_task]
      exact ⟨rfl, rfl, honly.agenda, honly.keepsRegs _, honly.stores⟩
    case cancelLive =>
      obtain ⟨r, hexec⟩ := exec_taskCancel_live (task := task) hlive
      obtain ⟨hstate, hendc, hstores⟩ :=
        (s.liveStopped_cancelled n).keep (State.appendA_does (time := s.at) (r := r)) (by decide)
      have hagenda : ((s.liveStopped n).appendA s.at r).agenda = (s.liveStopped n).agenda :=
        State.appendA_does.same .agenda (by decide) (by decide)
      refine ⟨_, hexec, hstate, hendc, ?_, ?_, hstores⟩
      · rw [hagenda]; exact s.liveStopped_agenda n _ (.inl rfl)
      · rw [hagenda]; exact s.liveStopped_agenda n _ (.inr rfl)
    case timerArms =>
      obtain ⟨next, hexec⟩ := exec_taskTimer_timed harg htimed hdisc
      rw [State.guardOverflows_of_room hroom] at hexec
      have hf := s.flagged_clear n 0xC00000#64
      refine ⟨_, hexec, ?_⟩
      beta_reduce
      rw [State.task_of_does State.hold_does (by decide), s.timerSet_task]
      exact ⟨rfl, rfl, rfl, hf, rfl, (mem_insertDue _ _ _).mpr (.inl rfl),
        (s.timerSet_only n guard next due).stores.keep State.hold_does (by decide)⟩
    case sorted =>
      obtain ⟨htasks, hreason, -, -, hrest⟩ := s.msgReject_shows (reason := 5) 8 (by decide) hn
      exact ⟨_, exec_taskTimer_sorted harg hfree hguard hdisc, htasks, hreason, hrest⟩
    case full =>
      obtain ⟨next, hexec⟩ := exec_taskTimer_timed harg htimed (.inl hexact.1)
      rw [State.guardOverflows_of_full hexact hfull] at hexec
      exact ⟨_, hexec, s.guardRefused_shows hn⟩
    case expires =>
      have hexec := exec_taskTimerExpiry_eq (s := s) (task := task)
      rw [if_pos (by rw [hdue]; exact hpast)] at hexec
      obtain ⟨_, _, _, htask, hstores⟩ := (s.timerExpired_only n).actOnFlags_set
        (if x.guardArmed then 0x800000#64 else 0x400000#64)
      rw [s.timerExpired_task] at htask
      refine ⟨_, hexec, ?_⟩
      beta_reduce
      rw [htask]
      exact ⟨rfl, rfl, rfl, rfl, rfl, hstores⟩
    case timerStill =>
      have hexec := exec_taskTimerExpiry_eq (s := s) (task := task)
      rw [if_neg (Bool.eq_false_iff.mp ((Option.any_eq_false _ _).mpr hlater))] at hexec
      exact ⟨s, hexec, rfl⟩
    case timesOut =>
      have hexec := exec_stepTimeout_eq (s := s) (task := task)
      rw [if_pos (by rw [hdue]; exact hpast)] at hexec
      obtain ⟨_, _, _, htask, hstores⟩ := (s.setTask_only n { x with sdue := none }).actOnFlags_set eTimer
      rw [State.setTask_self] at htask
      refine ⟨_, hexec, ?_⟩
      beta_reduce
      rw [State.stepExpired, htask]
      exact ⟨rfl, rfl, rfl, hstores⟩
    case stepStill =>
      have hexec := exec_stepTimeout_eq (s := s) (task := task)
      rw [if_neg (Bool.eq_false_iff.mp ((Option.any_eq_false _ _).mpr hlater))] at hexec
      exact ⟨s, hexec, rfl⟩

end Sys2Proof.Machine
end

section
/-! A chain target that does not start (O23). No hypothesis of `Obligations.StepEngines` says that the table of tasks is in the
order of their numbers, and `State.Canonical` asks that of registers and memories alone. In a table out of order `Tab.set` puts a
control block before the old one and leaves the old one behind it: `State.task` finds the new one first, but `State.liveTask`,
which searches the whole table, still finds the old one live. The chain target is then refused its start (R274), although no
task of its channel is live. -/
namespace Sys2Proof.Machine

variable {s : State} {n : Nat} {task : TaskNo} {start : Count}

/-! ## An END step (R266, R275) -/

/-- The state in which a task has ended at the step start of an END step, before its chain target starts. -/
def State.stepEnded (s : State) (n : Nat) (start : Count) : State :=
  ((s.startChange n (s.task n).change start).enterStep n start).endTask n .done 1

theorem State.startLeft_none (h : (s.task n).left = none) : s.startLeft n = s := by
  unfold State.startLeft
  rw [h]

theorem exec_stepStart_end (hleft : (s.task task.toNat).left = none)
    (hstart : (s.task task.toNat).change.startAt = some start) (hpast : Count.before s.count start = false)
    (hvalid : (s.task task.toNat).change.invalid = false) (hmode : rMode (s.task task.toNat).change.record = mEnd) :
    exec (.stepStart task) s = .next ((s.stepEnded task.toNat start).chainTo task.toNat) := by
  show execStepStart task s = _
  unfold execStepStart
  extract_lets n s0 c
  have hs0 : s0 = s := State.startLeft_none hleft
  have hc : c = (s.task n).change := by unfold c; rw [hs0]
  rw [hc, hs0, show (s.task n).change.startAt = some start from hstart]
  exact (if_neg (Bool.eq_false_iff.mp hpast)).trans ((if_neg (Bool.eq_false_iff.mp hvalid)).trans (if_pos hmode))

theorem State.chainTo_starts (hchain : (s.task n).chain ≠ 0xFFFF) (hstate : (s.task (s.task n).chain).state = .dormant) :
    s.chainTo n = s.startTask (s.task n).chain := (if_neg hchain).trans (if_pos (.inl hstate))

/-! ## The counterexample -/

/-- Task 0 of channel 0 waits for the step start of its END step, which is now; its chain target, task 1 of the same channel, is
DORMANT and stands before it in the table. -/
def outOfOrder : State :=
  { tasks := [(1, { state := .dormant }),
      (0, { state := .waiting, chain := 1, change := { startAt := some 0, record := [1] } })] }

/-- Once task 0 is DONE, its old control block still stands in the table, behind that of task 1, and is live. -/
theorem outOfOrder_live : ((outOfOrder.stepEnded 0 0).liveTask 0).isSome = true := by decide +kernel

theorem outOfOrder_target : ((outOfOrder.stepEnded 0 0).task 0).chain = 1 ∧
    ((outOfOrder.stepEnded 0 0).task 1).state = .dormant ∧ ((outOfOrder.stepEnded 0 0).task 1).chan = 0 := by decide +kernel

/-- The chain target of task 0 is refused its start. -/
theorem outOfOrder_faulted : ∃ t, exec (.stepStart 0) outOfOrder = .next t ∧ (t.task 1).state = .faulted := by
  obtain ⟨hchain, hdormant, hchan⟩ := outOfOrder_target
  have hexec := exec_stepStart_end (task := 0) (s := outOfOrder) (start := 0) rfl rfl rfl rfl rfl
  have hstarts := State.chainTo_starts (s := outOfOrder.stepEnded 0 0) (n := 0) (by rw [hchain]; decide)
    (by rw [hchain]; exact hdormant)
  rw [hchain] at hstarts
  obtain ⟨hfaulted, -⟩ := State.startTask_rejected (n := 1) (by rw [hchan]; exact outOfOrder_live)
  exact ⟨_, hexec.trans (congrArg _ hstarts), hfaulted⟩

/-- Refutes O23: in `outOfOrder` no task but task 0, which ends, is live on channel 0, and yet its DORMANT chain target, task 1,
is FAULTED and not READY. -/
theorem not_stepEngines : ¬ Obligations.StepEngines := by
  unfold Obligations.StepEngines
  rintro ⟨-, hall⟩
  obtain ⟨-, -, -, hend, -⟩ := hall 0 0 outOfOrder
  obtain ⟨t, ht, -, -, -, -, hready, -⟩ := hend ⟨rfl, rfl, rfl⟩ rfl rfl
  obtain ⟨u, hu, hfaulted⟩ := outOfOrder_faulted
  obtain rfl : t = u := Host.Outcome.next.inj (ht.symm.trans hu)
  have halone : ∀ p ∈ outOfOrder.tasks, p.2.state.live = true →
      p.2.chan = outOfOrder.leader (outOfOrder.task 1).chan → p.1 = 0 := by decide +kernel
  have hstate := hready (by decide) (by decide) rfl halone
  exact absurd (hstate.symm.trans hfaulted) (by decide)

end Sys2Proof.Machine
end

section
/-! Messages of the ring other than TIME (R426 to R429): what leaves on the ring output, and a message that is late, its sender's
own, or damaged. -/
namespace Sys2Proof.Machine

variable {s t u : State} {m : RingBody} {mtype : Byte}

/-- From `s` to `u` a message has left on the ring output, where that is up, and nothing else has left. -/
def RingSends (mtype : Byte) (m : RingBody) (s u : State) : Prop :=
  if s.bit aLNK_STAT fLNK_STAT_RING_OUT = true then u.out = s.out ++ [.ring mtype m] else u.out = s.out

theorem RingSends.keep (h : RingSends mtype m s t) (hout : u.out = t.out) : RingSends mtype m s u := by
  unfold RingSends at h ⊢
  rwa [hout]

theorem State.ringSend_sends (s : State) (mtype : Byte) (m : RingBody) : RingSends mtype m s (s.ringSend mtype m) := by
  unfold RingSends State.ringSend
  split
  · rfl
  · rfl

/-- A message sent by a state in which nothing has left and the ring output is as before. -/
theorem State.ringSend_sends_of (hout : t.out = s.out) (hlink : t.reg aLNK_STAT = s.reg aLNK_STAT) :
    RingSends mtype m s (t.ringSend mtype m) := by
  have h := t.ringSend_sends mtype m
  unfold RingSends at h ⊢
  rwa [hout, State.bit_congr _ hlink] at h

/-- A late internal action shows in TBS_LATE and raises FS 8 (R74). -/
theorem State.lateInternal_shows (hcount : t.count = s.count) (kind src dst : Nat) (due arr : Count) :
    let u := t.lateInternal kind src dst due arr
    Raises 8 (Fin.ofNat 80 dst) s u ∧ u.bit aTBS_LATE fTBS_LATE_INTERNAL = true := by
  have hraise := (t.late_raises kind src dst due arr).latch aTBS_LATE fTBS_LATE_INTERNAL
  unfold Raises at hraise
  rw [hcount] at hraise
  exact ⟨hraise, State.bit_latch_self _ _ _ rfl (by decide)⟩

/-- A message passed on that comes too late for its action. -/
theorem State.ringForward_late (s : State) (mtype : Byte) (m : RingBody) (due arr : Count) :
    let u := (s.ringForward mtype m).lateInternal 5 76 74 due arr
    RingSends mtype { m with hop := m.hop + 1 } s u ∧ Raises 8 74 s u ∧ u.bit aTBS_LATE fTBS_LATE_INTERNAL = true ∧
      u.acq = s.acq ∧ KeepsMemory s u := by
  have hsend : Does [.out, .links] [] s (s.ringForward mtype m) := State.ringForward_does
  obtain ⟨hraise, hlate⟩ := State.lateInternal_shows (t := s.ringForward mtype m)
    (hsend.same .count (by decide) (by decide)) 5 76 74 due arr
  have hdoes : Does [.out, .links, .agenda, .fresh] [1] s ((s.ringForward mtype m).lateInternal 5 76 74 due arr) :=
    State.lateInternal_does.call (by decide) (hsend.mono (by decide))
  exact ⟨(s.ringSend_sends _ _).keep (State.lateInternal_does.same .out (by decide) (by decide)), hraise, hlate,
    hdoes.same .acq (by decide) (by decide), .of_does hdoes (by decide)⟩

/-- A message passed on whose action is held until its due time. -/
theorem State.ringForward_held (s : State) (mtype : Byte) (m : RingBody) (src : Issuer) (due : Count) (a : Act) :
    let u := (s.ringForward mtype m).hold src due a
    RingSends mtype { m with hop := m.hop + 1 } s u ∧ (⟨due, src, a⟩ : Due) ∈ u.agenda ∧ u.acq = s.acq ∧ KeepsRegs [] s u ∧
      KeepsMemory s u := by
  have hdoes : Does [.out, .links, .agenda] [] s ((s.ringForward mtype m).hold src due a) :=
    State.hold_does.call (by decide) (State.ringForward_does.mono (by decide))
  exact ⟨(s.ringSend_sends _ _).keep rfl, (mem_insertDue _ _ _).mpr (.inl rfl), hdoes.same .acq (by decide) (by decide),
    .of_does hdoes (by decide) _, .of_does hdoes (by decide)⟩

theorem exec_ring_own (hown : s.ringOwn m = true) :
    ∀ c ∈ [Instr.ringArm m true, .ringDisarm m true, .ringFire m true], exec c s = .next s := by
  simp only [List.forall_mem_cons, List.not_mem_nil, false_implies, implies_true, and_true]
  exact ⟨if_pos hown, if_pos hown, if_pos hown⟩

theorem exec_ring_bad (m : RingBody) (s : State) :
    ∀ c ∈ [Instr.ringArm m false, .ringDisarm m false, .ringFire m false], exec c s = .next s.ringBad := by
  simp only [List.forall_mem_cons, List.not_mem_nil, false_implies, implies_true, and_true]
  exact ⟨rfl, rfl, rfl⟩

section
variable (hother : s.ringOwn m = false)
include hother

theorem exec_ringArm_other : exec (.ringArm m true) s =
    if Count.before m.count s.count then .next ((s.ringForward 0x02 m).lateInternal 5 76 74 m.count s.count)
    else .next ((s.ringForward 0x02 m).hold (.island islLink) m.count (.arm m.trigger m.count m.path m.auto)) :=
  if_neg (Bool.eq_false_iff.mp hother)

theorem exec_ringDisarm_other : exec (.ringDisarm m true) s =
    if Count.before s.count m.count then
      .next ((s.ringForward 0x03 m).hold (.island islLink) m.count (.disarm m.trigger))
    else .next ((s.ringForward 0x03 m).disarmTrigger m.trigger.val) :=
  if_neg (Bool.eq_false_iff.mp hother)

theorem exec_ringFire_other : exec (.ringFire m true) s =
    if Count.before (m.count + s.markWindow) s.count then
      .next ((s.ringForward 0x04 m).lateInternal 5 76 74 m.count s.count)
    else .next ((s.ringForward 0x04 m).countFire m.trigger ⟨m.count, m.origin.toNat, m.chan.toNat⟩) :=
  if_neg (Bool.eq_false_iff.mp hother)

end

/-- A message with a bad CRC counts (R429). -/
theorem State.ringBad_counts (s : State) :
    Raises 100 islLink s s.ringBad ∧ (s.ringBad.reg aLR_CRCERR).toNat = min 0xFFFFFFFF ((s.reg aLR_CRCERR).toNat + 1) := by
  refine ⟨raises_raise _ _ _, (State.reg_bump_toNat (s.latch aLNK_LAT fLNK_LAT_RINGERR) aLR_CRCERR).trans ?_⟩
  rw [State.reg_latch_ne _ _ (by decide)]

end Sys2Proof.Machine
end

section
/-! Commands on triggers (O24): ARM, DISARM and FIRE of this module and of another one (R313 to R315, R426 to R429). -/
namespace Sys2Proof.Machine

variable {s u : State} {by_ : Issuer} {t : Fin 8} {m : RingBody} {a : Count}

/-! ## Writes that the active has forwarded -/

/-- A standby takes no action on a write that the active has forwarded. -/
theorem exec_trigger_passed (hpassed : isForwarded by_ = true ∧ s.isStandby = true) :
    ∀ c ∈ [Instr.trgArm by_ t a, .trgDisarm by_ t, .trgFire by_ t], exec c s = .next s := by
  obtain ⟨hforwarded, hstandby⟩ := hpassed
  simp only [List.forall_mem_cons, List.not_mem_nil, false_implies, implies_true, and_true]
  cases by_ with
  | forwarded p => exact ⟨if_pos hstandby, if_pos hstandby, congrArg Host.Outcome.next (if_pos hstandby)⟩
  | island i => cases hforwarded
  | port p => cases hforwarded

section
variable (hown : ¬ (isForwarded by_ = true ∧ s.isStandby = true))
include hown

theorem exec_trgArm_own : exec (.trgArm by_ t a) s =
    if !s.isArmMaster || (s.trig t.val).armed.isSome || s.arming t then .next (s.rejectVal by_ (aTRG_CTL t.val))
    else .next ((s.ringSend 0x02 ⟨t, s.bit (aTRG_CTL t.val) fTRG_CTL_AUTO, BitVec.ofNat 16 s.ringPos, 0, 0, a,
      s.reg (aTRG_TO t.val), 0, 0⟩).hold (.island islAcquisition) a
        (.arm t a (s.reg (aTRG_TO t.val)) (s.bit (aTRG_CTL t.val) fTRG_CTL_AUTO))) := by
  cases by_ with
  | forwarded p => exact if_neg (fun hstandby => hown ⟨rfl, hstandby⟩)
  | island i => rfl
  | port p => rfl

theorem exec_trgDisarm_own : exec (.trgDisarm by_ t) s =
    .next ((if s.isArmMaster then s.ringSend 0x03 ⟨t, false, BitVec.ofNat 16 s.ringPos, 0, 0, s.at, 0, 0, 0⟩
      else s).disarmTrigger t.val) := by
  cases by_ with
  | forwarded p => exact if_neg (fun hstandby => hown ⟨rfl, hstandby⟩)
  | island i => rfl
  | port p => rfl

theorem exec_trgFire_own : exec (.trgFire by_ t) s = .next (s.fireHere t s.at 0xFFFF) := by
  cases by_ with
  | forwarded p => exact congrArg Host.Outcome.next (if_neg (fun hstandby => hown ⟨rfl, hstandby⟩))
  | island i => rfl
  | port p => rfl

end

/-- A FIRE that reaches a trigger with no action to take leaves the state, whoever issues it. -/
theorem exec_trgFire_still (h : s.fireHere t s.at 0xFFFF = s) : exec (.trgFire by_ t) s = .next s := by
  by_cases hpassed : isForwarded by_ = true ∧ s.isStandby = true
  · exact exec_trigger_passed (t := t) (a := 0) hpassed _ (by simp)
  · rw [exec_trgFire_own hpassed, h]

/-! ## Arming and disarming -/

/-- ARM is refused by a module that is not the arming master, and of a trigger that is armed or about to be (R313). -/
theorem armRefused_iff : (!s.isArmMaster || (s.trig t.val).armed.isSome || s.arming t) = true ↔
    s.isArmMaster = false ∨ (s.trig t.val).armed ≠ none ∨ s.arming t = true := by
  simp only [Bool.or_eq_true, Bool.not_eq_true', Option.isSome_iff_ne_none, or_assoc]

/-- A trigger disarmed after work that leaves its register, the memories and the held actions alone. -/
theorem State.disarmTrigger_shows (hdoes : Does [.out, .links] [] s u) (t : Nat) : let v := u.disarmTrigger t
    (v.trig t).armed = none ∧ v.fld (aTRG_STAT t) fTRG_STAT_STATE = 0 ∧ v.agenda = s.agenda ∧ v.out = u.out ∧
      KeepsRegs [aTRG_STAT t] s v ∧ KeepsMemory s v := by
  have hall : Does [.out, .links, .acq] [10] s (u.disarmTrigger t) :=
    State.disarmTrigger_does.call (by decide) (hdoes.mono (by decide))
  refine ⟨?_, State.fld_setFld_self _ _ _ _ (by decide) (by decide), hall.same .agenda (by decide) (by decide), rfl,
    (KeepsRegs.of_does hdoes (by decide) _).trans (keepsRegs_setReg (u.setTrig t {}) _ _), .of_does hall (by decide)⟩
  show ((u.setTrig t {}).trig t).armed = none
  rw [State.setTrig_trig, if_pos rfl]

/-! ## Fires counted (R314) -/

/-- From `s` to `u` a fire has been counted toward the decision at f + W. -/
structure Counts (t : Fin 8) (f : Fire) (s u : State) : Prop where
  fires : (u.trig t.val).fires = (s.trig t.val).fires ++ [f]
  armed : (u.trig t.val).armed = (s.trig t.val).armed
  held : (⟨f.time + s.markWindow, .island islAcquisition, .cmd (.triggerDecide t)⟩ : Due) ∈ u.agenda
  regs : KeepsRegs [] s u
  memory : KeepsMemory s u

theorem State.countFire_armed {f : Fire} (harmed : (s.trig t.val).armed = some a) (hfrom : Count.before f.time a = false) :
    s.countFire t f = (s.setTrig t.val { s.trig t.val with fires := (s.trig t.val).fires ++ [f] }).hold
      (.island islAcquisition) (f.time + s.markWindow) (.cmd (.triggerDecide t)) := by
  unfold State.countFire
  extract_lets x
  rw [show x.armed = some a from harmed]
  exact if_neg (Bool.eq_false_iff.mp hfrom)

theorem State.countFire_idle (f : Fire) (hidle : (s.trig t.val).armed = none) : s.countFire t f = s := by
  unfold State.countFire
  extract_lets x
  rw [show x.armed = none from hidle]

theorem State.countFire_counts {f : Fire} (harmed : (s.trig t.val).armed = some a)
    (hfrom : Count.before f.time a = false) : Counts t f s (s.countFire t f) := by
  have htrig : (s.countFire t f).trig t.val = { s.trig t.val with fires := (s.trig t.val).fires ++ [f] } := by
    rw [State.countFire_armed harmed hfrom]
    exact (State.setTrig_trig _ _ _ _).trans (if_pos rfl)
  refine ⟨by rw [htrig], by rw [htrig], ?_, .of_does State.countFire_does (by decide) _,
    .of_does State.countFire_does (by decide)⟩
  rw [State.countFire_armed harmed hfrom]
  exact (mem_insertDue _ _ _).mpr (.inl rfl)

theorem State.ringForward_trig (s : State) (mtype : Byte) (m : RingBody) (i : Nat) :
    (s.ringForward mtype m).trig i = s.trig i := by
  unfold State.trig
  rw [show (s.ringForward mtype m).acq = s.acq from State.ringForward_does.same .acq (by decide) (by decide)]

theorem State.markWindow_congr (h : u.reg aACQ_CFG = s.reg aACQ_CFG) : u.markWindow = s.markWindow := by
  unfold State.markWindow
  rw [State.fld_congr _ h]

/-- A fire counted in the state in which its message has been passed on. -/
theorem Counts.after_forward {mtype : Byte} {f : Fire} (h : Counts t f (s.ringForward mtype m) u) : Counts t f s u := by
  have hdoes : Does [.out, .links] [] s (s.ringForward mtype m) := State.ringForward_does
  have hwindow : (s.ringForward mtype m).markWindow = s.markWindow :=
    State.markWindow_congr (hdoes.regs (by decide) _ (by simp))
  obtain ⟨hfires, harmed, hheld, hkeeps, hmem⟩ := h
  rw [State.ringForward_trig] at hfires harmed
  rw [hwindow] at hheld
  exact ⟨hfires, harmed, hheld, (KeepsRegs.of_does hdoes (by decide) _).trans hkeeps,
    (KeepsMemory.of_does hdoes (by decide)).trans hmem⟩

/-- The state in which the first fire of an arming has been counted and told to the ring. -/
def State.fireTold (s : State) (t : Fin 8) (f : Count) (chan : Nat) : State :=
  let v := s.countFire t ⟨f, s.ringPos, chan⟩
  (v.setTrig t.val { v.trig t.val with sent := true }).ringSend 0x04
    ⟨t, false, BitVec.ofNat 16 s.ringPos, 0, BitVec.ofNat 16 chan, f, 0, 0, 0⟩

/-- A fire of an armed trigger in this module: the first of an arming goes to the ring, but for a standby's (R428). -/
theorem State.fireHere_armed {f : Count} (harmed : (s.trig t.val).armed = some a) (hfrom : Count.before f a = false)
    (chan : Nat) : s.fireHere t f chan =
      if (s.trig t.val).sent || s.isStandby then s.countFire t ⟨f, s.ringPos, chan⟩ else s.fireTold t f chan := by
  unfold State.fireHere
  extract_lets x
  rw [show x.armed = some a from harmed]
  exact if_neg (Bool.eq_false_iff.mp hfrom)

theorem State.fireHere_still {f : Count} (chan : Nat)
    (h : ∀ a, (s.trig t.val).armed = some a → Count.before f a = true) : s.fireHere t f chan = s := by
  unfold State.fireHere
  extract_lets x
  cases harmed : x.armed with
  | none => rfl
  | some a => exact if_pos (h a harmed)

theorem State.fireTold_trig (s : State) (t : Fin 8) (f : Count) (chan : Nat) :
    (s.fireTold t f chan).trig t.val = { (s.countFire t ⟨f, s.ringPos, chan⟩).trig t.val with sent := true } := by
  have hacq : ∀ (v : State) (mb : RingBody), (v.ringSend 0x04 mb).trig t.val = v.trig t.val := fun v mb => by
    unfold State.trig
    rw [show (v.ringSend 0x04 mb).acq = v.acq from State.ringSend_does.same .acq (by decide) (by decide)]
  exact (hacq _ _).trans ((State.setTrig_trig _ _ _ _).trans (if_pos rfl))

theorem State.fireTold_does (s : State) (t : Fin 8) (f : Count) (chan : Nat) :
    Does [.out, .links, .acq] [] (s.countFire t ⟨f, s.ringPos, chan⟩) (s.fireTold t f chan) :=
  State.ringSend_does.call (by decide) (State.setTrig_does.call (by decide) Does.refl)

theorem State.fireTold_counts {f : Count} (harmed : (s.trig t.val).armed = some a) (hfrom : Count.before f a = false)
    (chan : Nat) : Counts t ⟨f, s.ringPos, chan⟩ s (s.fireTold t f chan) := by
  have hcounts := State.countFire_counts (f := ⟨f, s.ringPos, chan⟩) harmed hfrom
  have htold := s.fireTold_does t f chan
  have hagenda : (s.fireTold t f chan).agenda = (s.countFire t ⟨f, s.ringPos, chan⟩).agenda :=
    htold.same .agenda (by decide) (by decide)
  exact ⟨by rw [State.fireTold_trig]; exact hcounts.fires, by rw [State.fireTold_trig]; exact hcounts.armed,
    by rw [hagenda]; exact hcounts.held, hcounts.regs.trans (.of_does htold (by decide) _),
    hcounts.memory.trans (.of_does htold (by decide))⟩

theorem State.fireTold_sends (s : State) (t : Fin 8) (f : Count) (chan : Nat) :
    RingSends 0x04 ⟨t, false, BitVec.ofNat 16 s.ringPos, 0, BitVec.ofNat 16 chan, f, 0, 0, 0⟩ s (s.fireTold t f chan) :=
  State.ringSend_sends_of (State.countFire_does.same .out (by decide) (by decide))
    (State.countFire_does.regs (by decide) _ (by simp))

/-- Settles O24: the writes by `exec_trgArm_own`, `exec_trgDisarm_own` and `exec_trgFire_own`, the messages of another module by
what `State.ringForward_held`, `State.ringForward_late`, `State.disarmTrigger_shows` and `Counts` say of them. -/
theorem triggerCommands : Obligations.TriggerCommands := by
  unfold Obligations.TriggerCommands
  refine ⟨fun by_ t a s => ?_, fun m s => ?_⟩
  · intro x passed body sent
    refine ⟨fun hpassed c hc => ⟨s, exec_trigger_passed hpassed c hc, rfl⟩,
      fun hown hmaster hidle hfree => ?arms, fun hown hrefused => ?refuses, fun hown => ?disarms,
      fun a0 hown harmed hfrom => ?fires, fun hearly => ⟨s, exec_trgFire_still (s.fireHere_still _ hearly), rfl⟩⟩
    case arms =>
      have hidle' : ¬ (!s.isArmMaster || x.armed.isSome || s.arming t) = true := by simp [hmaster, hidle, hfree]
      have hsend := s.ringSend_sends 0x02 body
      have hdoes : Does [.out, .links, .agenda] [] s ((s.ringSend 0x02 body).hold (.island islAcquisition) a
          (.arm t a (s.reg (aTRG_TO t.val)) (s.bit (aTRG_CTL t.val) fTRG_CTL_AUTO))) :=
        State.hold_does.call (by decide) (State.ringSend_does.mono (by decide))
      exact ⟨_, (exec_trgArm_own hown).trans (if_neg hidle'), (mem_insertDue _ _ _).mpr (.inl rfl), hsend,
        hdoes.same .acq (by decide) (by decide), .of_does hdoes (by decide) _, .of_does hdoes (by decide)⟩
    case refuses =>
      have hblock : aTRG_CTL t.val / 0x100000 = 10 := by unfold aTRG_CTL; omega
      obtain ⟨hset, hraise, hkeeps, hmem⟩ := s.rejectVal_shows by_ (by decide) hblock
      exact ⟨_, (exec_trgArm_own hown).trans (if_pos (armRefused_iff.mpr hrefused)),
        State.rejectVal_any.same .acq (by decide) (by decide), State.rejectVal_any.same .out (by decide) (by decide),
        hset, hraise, hkeeps, hmem⟩
    case disarms =>
      have hexec := exec_trgDisarm_own (t := t) hown
      cases hmaster : s.isArmMaster with
      | false =>
        rw [hmaster, if_neg Bool.false_ne_true] at hexec
        obtain ⟨harmed, hstate, hagenda, hout, hkeeps, hmem⟩ := State.disarmTrigger_shows (Does.refl (s := s)) t.val
        exact ⟨_, hexec, harmed, hstate, hagenda, fun _ => hout, nofun, hkeeps, hmem⟩
      | true =>
        rw [hmaster, if_pos rfl] at hexec
        obtain ⟨harmed, hstate, hagenda, hout, hkeeps, hmem⟩ := State.disarmTrigger_shows (s := s)
          (State.ringSend_does (mtype := 0x03) (m := ⟨t, false, BitVec.ofNat 16 s.ringPos, 0, 0, s.at, 0, 0, 0⟩)) t.val
        exact ⟨_, hexec, harmed, hstate, hagenda, nofun,
          fun _ => (s.ringSend_sends _ _).keep hout, hkeeps, hmem⟩
    case fires =>
      have hexec := exec_trgFire_own (t := t) hown
      rw [State.fireHere_armed harmed hfrom] at hexec
      cases hsent : (s.trig t.val).sent || s.isStandby with
      | true =>
        rw [hsent, if_pos rfl] at hexec
        obtain ⟨hfires, harm, hheld, hkeeps, hmem⟩ := State.countFire_counts (f := ⟨s.at, s.ringPos, 0xFFFF⟩) harmed hfrom
        refine ⟨_, hexec, hfires, harm, hheld, fun h1 h2 => ?_,
          fun _ => State.countFire_does.same .out (by decide) (by decide), hkeeps, hmem⟩
        rw [h1, h2] at hsent
        exact absurd hsent Bool.false_ne_true
      | false =>
        rw [hsent, if_neg Bool.false_ne_true] at hexec
        obtain ⟨hfires, harm, hheld, hkeeps, hmem⟩ := State.fireTold_counts harmed hfrom 0xFFFF
        refine ⟨_, hexec, hfires, harm, hheld, fun _ _ => ⟨by rw [State.fireTold_trig], s.fireTold_sends t s.at 0xFFFF⟩,
          fun h => ?_, hkeeps, hmem⟩
        rw [← Bool.or_eq_true, hsent] at h
        exact absurd h Bool.false_ne_true
  · intro onward i
    refine ⟨fun c hc hring => ⟨s, exec_ring_own hring c hc, rfl⟩, fun c hc => ?bad, fun hring hontime => ?arms,
      fun hring hlate => ?late, fun hring hpast => ?disarms, fun hring hearly => ?waits,
      fun a hring harmed hfrom hontime => ?fires, fun hring hlate => ?fireLate, fun hring hidle hontime => ?idle⟩
    case bad =>
      obtain ⟨hlatch, -, hkeeps⟩ := s.ringBad_shows
      obtain ⟨hraise, hcount⟩ := s.ringBad_counts
      have hdoes : Does [.agenda, .fresh] [13] s s.ringBad := State.ringBad_does
      exact ⟨_, exec_ring_bad m s c hc, hlatch, hraise, hdoes.same .acq (by decide) (by decide),
        hdoes.same .out (by decide) (by decide), hcount, hkeeps, .of_does hdoes (by decide)⟩
    case arms =>
      exact ⟨_, (exec_ringArm_other hring).trans (if_neg (Bool.eq_false_iff.mp hontime)),
        s.ringForward_held 0x02 m _ _ _⟩
    case late =>
      exact ⟨_, (exec_ringArm_other hring).trans (if_pos hlate), s.ringForward_late 0x02 m _ _⟩
    case disarms =>
      obtain ⟨harmed, hstate, hagenda, hout, hkeeps, hmem⟩ := State.disarmTrigger_shows
        (State.ringForward_does (s := s) (mtype := 0x03) (m := m)) i
      exact ⟨_, (exec_ringDisarm_other hring).trans (if_neg (Bool.eq_false_iff.mp hpast)),
        (s.ringSend_sends _ _).keep hout, harmed, hstate, hagenda, hkeeps, hmem⟩
    case waits =>
      exact ⟨_, (exec_ringDisarm_other hring).trans (if_pos hearly), s.ringForward_held 0x03 m _ _ _⟩
    case fires =>
      have hcounts := State.countFire_counts (f := ⟨m.count, m.origin.toNat, m.chan.toNat⟩)
        ((congrArg Trigger.armed (s.ringForward_trig 0x04 m i)).trans harmed) hfrom
      obtain ⟨hfires, -, hheld, hkeeps, hmem⟩ := hcounts.after_forward
      exact ⟨_, (exec_ringFire_other hring).trans (if_neg (Bool.eq_false_iff.mp hontime)),
        (s.ringSend_sends _ _).keep (State.countFire_does.same .out (by decide) (by decide)), hfires, hheld, hkeeps, hmem⟩
    case fireLate =>
      exact ⟨_, (exec_ringFire_other hring).trans (if_pos hlate), s.ringForward_late 0x04 m _ _⟩
    case idle =>
      have hstill := (s.ringForward 0x04 m).countFire_idle (t := m.trigger) ⟨m.count, m.origin.toNat, m.chan.toNat⟩
        ((congrArg Trigger.armed (s.ringForward_trig 0x04 m i)).trans hidle)
      have hexec := (exec_ringFire_other hring).trans (if_neg (Bool.eq_false_iff.mp hontime))
      rw [hstill] at hexec
      have hdoes : Does [.out, .links] [] s (s.ringForward 0x04 m) := State.ringForward_does
      exact ⟨_, hexec, s.ringSend_sends _ _, hdoes.same .acq (by decide) (by decide),
        hdoes.same .agenda (by decide) (by decide), .of_does hdoes (by decide) _, .of_does hdoes (by decide)⟩

end Sys2Proof.Machine
end

section
/-! Records held for a stream (R304): where a record that is formed stands, and what leaves the streams alone. -/
namespace Sys2Proof.Machine

variable {s t : State}

theorem State.stream_of_acq (h : t.acq = s.acq) (c : Nat) : t.stream c = s.stream c := by unfold State.stream; rw [h]

/-- While the stream runs, a record that is formed is held for its class. -/
theorem State.append_running (hrun : s.bit aACQ_STAT fACQ_STAT_RUN = true) (cls : Nat) (time : Count) (r : List Byte) :
    s.append cls time r =
      s.setStream cls { s.stream cls with held := insertHeld ⟨time, r, []⟩ (s.stream cls).held } := by
  unfold State.append State.appendTimes
  exact if_pos hrun

theorem State.mem_append_held (hrun : s.bit aACQ_STAT fACQ_STAT_RUN = true) (cls : Nat) (time : Count) (r : List Byte) :
    (⟨time, r, []⟩ : HeldRec) ∈ ((s.append cls time r).stream cls).held := by
  rw [State.append_running hrun, State.setStream_stream, if_pos rfl]
  exact (mem_insertHeld _ _ _).mpr (.inl rfl)

/-- A record formed for one class leaves the streams of the others. -/
theorem State.append_stream_ne (s : State) {c cls : Nat} (h : c ≠ cls) (time : Count) (r : List Byte) :
    (s.append cls time r).stream c = s.stream c := by
  unfold State.append State.appendTimes
  split
  · rw [State.setStream_stream, if_neg h]
  · rfl

end Sys2Proof.Machine
end

section
/-! The decision of a trigger (O25): on its first fire, FORCED, or not yet (R315, R316). -/
namespace Sys2Proof.Machine

variable {s : State} {t : Fin 8} {a : Count} {f : Fire}

/-! ## What a decision leaves of the streams -/

/-- A mark of class B leaves the streams of the other classes. -/
theorem State.markB_stream_ne (s : State) {c : Nat} (h : c ≠ 1) (ch qty : Nat) (f : Count) (n : Nat) (forced : Bool) :
    (s.markB ch qty f n forced).stream c = s.stream c := by
  have hset : ∀ x, (s.setStream 1 x).stream c = s.stream c := fun x => by rw [State.setStream_stream, if_neg h]
  unfold State.markB
  extract_lets x s1 b r
  split
  · rfl
  · split
    · exact hset _
    · split
      · exact hset _
      · exact hset _

/-- The marks and the posts of a channel on a decision leave the stream of class A. -/
theorem State.markedChannel_stream (s : State) (ch : Nat) (f : Count) (n : Nat) (forced : Bool) (post : Chan) (due : Count) :
    (if (s.profile ch).isEmpty then s else ((s.markB ch 1 f n forced).markB ch 2 f n forced).postAt islAcquisition post
      eFire 0 due).stream 0 = s.stream 0 := by
  split
  · rfl
  · rw [State.stream_of_acq (State.postAt_does.same .acq (by decide) (by decide)),
      State.markB_stream_ne _ (by decide), State.markB_stream_ne _ (by decide)]

/-! ## A decision (R316) -/

/-- The fire record of type 24h of a decision. -/
def State.fireRecord (s : State) (t : Fin 8) (f : Fire) (forced : Bool) : List Byte :=
  recBytes 0x24 (t.val + 8 * forced.toNat) f.chan (leBytes 2 f.pos) f.time
    (leBytes 8 ((s.trig t.val).armed.getD 0).toNat ++ leBytes 4 ((s.trig t.val).fires.length - if forced then 0 else 1))

/-- What TRG_STAT shows of a decision. -/
def decisionWord (f : Fire) (forced : Bool) : Word :=
  putF (putF (fldWord fTRG_STAT_STATE (if forced then 4 else 3)) fTRG_STAT_MODULE f.pos) fTRG_STAT_CHANNEL f.chan

/-- A decision first forms its records, marks values and posts E_FIRE, and then shows in the trigger's registers. While the stream
runs, its fire record is then held for class A. -/
theorem State.decideFire_formed (s : State) (t : Fin 8) (f : Fire) (forced : Bool) : ∃ v : State,
    s.decideFire t f forced =
        ((v.setReg (aTRG_STAT t.val) (decisionWord f forced)).setWide (aTRG_TIME t.val) 3 f.time.toNat).setTrig t.val {} ∧
      (s.bit aACQ_STAT fACQ_STAT_RUN = true →
        (⟨s.at, s.fireRecord t f forced, []⟩ : HeldRec) ∈ (v.stream 0).held) := by
  unfold State.decideFire
  extract_lets x a b1 mark others s1 s2 s3
  refine ⟨s3, rfl, fun hrun => ?_⟩
  have h2 : s2.stream 0 = s1.stream 0 := by
    unfold s2
    split
    · exact s1.append_stream_ne (by decide) _ _
    · rfl
  have h3 : s3.stream 0 = s2.stream 0 :=
    List.foldlRecOn (motive := fun v : State => v.stream 0 = s2.stream 0) _ _ rfl
      (fun v hv ch _ => (v.markedChannel_stream ch _ _ _ _ _).trans hv)
  rw [h3, h2]
  exact State.mem_append_held hrun 0 s.at (s.fireRecord t f forced)

/-- While the stream runs, the fire record of a decision is held for class A. -/
theorem State.decideFire_holds (hrun : s.bit aACQ_STAT fACQ_STAT_RUN = true) (t : Fin 8) (f : Fire) (forced : Bool) :
    (⟨s.at, s.fireRecord t f forced, []⟩ : HeldRec) ∈ ((s.decideFire t f forced).stream 0).held := by
  obtain ⟨v, hv, hheld⟩ := s.decideFire_formed t f forced
  rw [hv]
  exact hheld hrun

theorem decisionWord_fields (f : Fire) (forced : Bool) :
    getF (decisionWord f forced) fTRG_STAT_STATE = (if forced then 4 else 3) ∧
      getF (decisionWord f forced) fTRG_STAT_MODULE = f.pos % 1024 ∧
      getF (decisionWord f forced) fTRG_STAT_CHANNEL = f.chan % 256 := by
  unfold decisionWord
  refine ⟨?_, ?_, getF_putF_self _ _ _ (by decide) (by decide)⟩
  · rw [getF_putF_ne _ _ _ _ (by decide) (by decide) (by decide),
      getF_putF_ne _ _ _ _ (by decide) (by decide) (by decide), getF_fldWord_self _ _ (by decide) (by decide)]
    cases forced <;> rfl
  · rw [getF_putF_ne _ _ _ _ (by decide) (by decide) (by decide)]
    exact getF_putF_self _ _ _ (by decide) (by decide)

/-- A decision shows in TRG_STAT and TRG_TIME, and the trigger is idle again. -/
theorem State.decideFire_shows (s : State) (t : Fin 8) (f : Fire) (forced : Bool) : let u := s.decideFire t f forced
    u.reg (aTRG_STAT t.val) = decisionWord f forced ∧ u.wide (aTRG_TIME t.val) 3 = f.time.toNat ∧
      (u.trig t.val).armed = none ∧ u.count = s.count ∧ KeepsMemory s u := by
  intro u
  have hdoes : Does [.agenda, .free, .fresh, .acq] [1, 3, 10] s u := State.decideFire_does
  obtain ⟨v, hv, -⟩ := s.decideFire_formed t f forced
  have hstat : u.reg (aTRG_STAT t.val) = decisionWord f forced :=
    (congrArg (State.reg · _) hv).trans
      ((State.reg_setWide_of_lt (by unfold aTRG_STAT aTRG_TIME; omega) 3 _).trans (State.reg_setReg_self _ _ _))
  have htime : u.wide (aTRG_TIME t.val) 3 = f.time.toNat :=
    (congrArg (State.wide · _ 3) hv).trans ((v.setReg _ _).wide_setWide_self _ 3 (f.time.isLt.trans (by decide)))
  have hidle : u.trig t.val = {} :=
    (congrArg (State.trig · _) hv).trans ((State.setTrig_trig _ _ _ _).trans (if_pos rfl))
  exact ⟨hstat, htime, congrArg Trigger.armed hidle, hdoes.same .count (by decide) (by decide), .of_does hdoes (by decide)⟩

/-! ## When a trigger is decided (R315) -/

/-- A + TO of a trigger armed at A. -/
def Trigger.last (x : Trigger) (a : Count) : Count := a + BitVec.ofNat 72 (192000 * x.timeout)

/-- The fires that count for a decision: up to A + TO. -/
def Trigger.inTime (x : Trigger) (a : Count) : List Fire := x.fires.filter (fun f => Count.upto f.time (x.last a))

theorem exec_triggerDecide_idle (hidle : (s.trig t.val).armed = none) : exec (.triggerDecide t) s = .next s := by
  show execTriggerDecide t s = _
  unfold execTriggerDecide
  extract_lets x
  rw [show x.armed = none from hidle]

section
variable (harmed : (s.trig t.val).armed = some a)
include harmed

/-- A trigger with a fire up to A + TO is decided at f + W, and by A + TO + W at the latest. -/
theorem exec_triggerDecide_fired (hfirst : firstFire ((s.trig t.val).inTime a) = some f) :
    exec (.triggerDecide t) s =
      if Count.upto (f.time + s.markWindow) s.at = true ∨ Count.upto ((s.trig t.val).last a + s.markWindow) s.at = true then
        .next (s.decideFire t f false)
      else .next s := by
  show execTriggerDecide t s = _
  unfold execTriggerDecide
  extract_lets x
  rw [show x.armed = some a from harmed]
  dsimp only
  rw [show firstFire (x.fires.filter (fun f => Count.upto f.time (a + BitVec.ofNat 72 (192000 * x.timeout)))) = some f
    from hfirst]
  rfl

/-- A trigger without one is FORCED at A + TO + W, where AUTO says so. -/
theorem exec_triggerDecide_unfired (hfirst : firstFire ((s.trig t.val).inTime a) = none) :
    exec (.triggerDecide t) s =
      if Count.before s.at ((s.trig t.val).last a + s.markWindow) then .next s
      else if (s.trig t.val).auto then .next (s.decideFire t ⟨(s.trig t.val).last a, 0, 0xFFFF⟩ true)
      else .next s := by
  show execTriggerDecide t s = _
  unfold execTriggerDecide
  extract_lets x
  rw [show x.armed = some a from harmed]
  dsimp only
  rw [show firstFire (x.fires.filter (fun f => Count.upto f.time (a + BitVec.ofNat 72 (192000 * x.timeout)))) = none
    from hfirst]
  rfl

end

/-- Settles O25: when a trigger is decided by `exec_triggerDecide_fired` and `exec_triggerDecide_unfired`, what a decision shows
and holds by `State.decideFire_shows` and `State.decideFire_holds`. -/
theorem triggerDecision : Obligations.TriggerDecision := by
  unfold Obligations.TriggerDecision
  intro t a f s x last inTime fireRec
  refine ⟨fun harmed hfirst hdue => ?fired, fun harmed hfirst hdue hauto => ?forced,
    fun harmed hfirst hfire hlast => ?early, fun harmed hfirst hwait => ?waits,
    fun hidle => ⟨s, exec_triggerDecide_idle hidle, rfl⟩⟩
  case fired =>
    obtain ⟨hstat, htime, hidle, hcount, hmem⟩ := s.decideFire_shows t f false
    obtain ⟨hstate, hmodule, hchannel⟩ := decisionWord_fields f false
    rw [← hstat] at hstate hmodule hchannel
    refine ⟨_, (exec_triggerDecide_fired harmed hfirst).trans (if_pos hdue), hstate, hchannel, hmodule, htime, hidle,
      fun hrun => ?_, hcount, hmem⟩
    have hheld := State.decideFire_holds hrun t f false
    rwa [State.fireRecord, harmed] at hheld
  case forced =>
    obtain ⟨hstat, htime, hidle, hcount, hmem⟩ := s.decideFire_shows t ⟨last, 0, 0xFFFF⟩ true
    obtain ⟨hstate, -⟩ := decisionWord_fields ⟨last, 0, 0xFFFF⟩ true
    rw [← hstat] at hstate
    refine ⟨_, (exec_triggerDecide_unfired harmed hfirst).trans ((if_neg (Bool.eq_false_iff.mp hdue)).trans (if_pos hauto)),
      hstate, htime, hidle, fun hrun => ?_, hcount, hmem⟩
    have hheld := State.decideFire_holds hrun t ⟨last, 0, 0xFFFF⟩ true
    rwa [State.fireRecord, harmed] at hheld
  case early =>
    exact ⟨s, (exec_triggerDecide_fired harmed hfirst).trans (if_neg (by simpa using ⟨hfire, hlast⟩)), rfl⟩
  case waits =>
    refine ⟨s, (exec_triggerDecide_unfired harmed hfirst).trans ?_, rfl⟩
    obtain hbefore | hmanual := hwait
    · exact if_pos hbefore
    · split
      · rfl
      · exact if_neg (Bool.eq_false_iff.mp hmanual)

end Sys2Proof.Machine
end

section
/-! Records on their way through staging and basin (R317 to R321): what they leave of the acquisition island. -/
namespace Sys2Proof.Machine

variable {s t u : State} {cls : Nat}

/-! ## What moving records leaves -/

/-- From `s` to `t` the streams alone change of the acquisition island, beside their blocks in the spill store, and ACQ_STAT
reads as before. -/
structure KeepsAcq (s t : State) : Prop where
  rest : { t.acq with streams := s.acq.streams } = s.acq
  spilled : ∀ c, (t.stream c).spilled = (s.stream c).spilled
  stat : t.reg aACQ_STAT = s.reg aACQ_STAT

/-- The records of one class move on: the streams of the others stay. -/
structure MovesRecords (cls : Nat) (s t : State) : Prop extends KeepsAcq s t where
  others : ∀ c, c ≠ cls → t.stream c = s.stream c

theorem KeepsAcq.refl (s : State) : KeepsAcq s s := ⟨rfl, fun _ => rfl, rfl⟩

theorem KeepsAcq.trans (h : KeepsAcq s t) (g : KeepsAcq t u) : KeepsAcq s u where
  rest := by
    calc { u.acq with streams := s.acq.streams }
      _ = { { u.acq with streams := t.acq.streams } with streams := s.acq.streams } := rfl
      _ = { t.acq with streams := s.acq.streams } := by rw [g.rest]
      _ = s.acq := h.rest
  spilled c := (g.spilled c).trans (h.spilled c)
  stat := g.stat.trans h.stat

theorem KeepsAcq.seals (h : KeepsAcq s t) : t.acq.seals = s.acq.seals :=
  (congrArg Acq.seals h.rest :)

theorem KeepsAcq.sealNext (h : KeepsAcq s t) : t.acq.sealNext = s.acq.sealNext :=
  (congrArg Acq.sealNext h.rest :)

theorem KeepsAcq.spillNext (h : KeepsAcq s t) : t.acq.spillNext = s.acq.spillNext :=
  (congrArg Acq.spillNext h.rest :)

theorem MovesRecords.refl (cls : Nat) (s : State) : MovesRecords cls s s := ⟨.refl s, fun _ _ => rfl⟩

theorem MovesRecords.trans (h : MovesRecords cls s t) (g : MovesRecords cls t u) : MovesRecords cls s u :=
  ⟨h.toKeepsAcq.trans g.toKeepsAcq, fun c hc => (g.others c hc).trans (h.others c hc)⟩

/-- What changes neither the acquisition island nor its registers moves no records. -/
theorem MovesRecords.of_does {ps : List Part} {bs : List Nat} (h : Does ps bs s t)
    (hps : .acq ∉ ps ∧ .regs ∉ ps ∧ 10 ∉ bs) (cls : Nat) : MovesRecords cls s t :=
  have hacq : t.acq = s.acq := h.same .acq hps.1 (by decide)
  ⟨⟨by rw [hacq], fun c => by rw [State.stream_of_acq hacq], h.regs hps.2.1 _ hps.2.2⟩,
    fun c _ => State.stream_of_acq hacq c⟩

theorem MovesRecords.setReg (h : MovesRecords cls s t) {a : Nat} (ha : a ≠ aACQ_STAT) (v : Word) :
    MovesRecords cls s (t.setReg a v) :=
  ⟨⟨h.rest, h.spilled, (State.reg_setReg_ne _ _ ha.symm).trans h.stat⟩, h.others⟩

theorem MovesRecords.mark (h : MovesRecords cls s t) (a : Nat) (w : Word) : MovesRecords cls s (t.mark a w) :=
  ⟨⟨h.rest, h.spilled, h.stat⟩, h.others⟩

theorem MovesRecords.setStream (h : MovesRecords cls s t) {x : Stream} (hx : x.spilled = (t.stream cls).spilled) :
    MovesRecords cls s (t.setStream cls x) where
  rest := h.rest
  stat := h.stat
  spilled c := by
    rw [State.setStream_stream]
    split
    next hc => rw [hx, hc, h.spilled]
    next => exact h.spilled c
  others c hc := by rw [State.setStream_stream, if_neg hc, h.others c hc]

/-! ## Staging, basins and chunks -/

theorem State.drainStage_moves (s : State) (cls n : Nat) : MovesRecords cls s (s.drainStage cls n) := by
  induction n generalizing s with
  | zero => exact .refl cls s
  | succ n ih =>
    unfold State.drainStage
    cases (s.stream cls).staged with
    | nil => exact .refl cls s
    | cons r rs =>
      dsimp only
      split
      · exact .refl cls s
      · refine MovesRecords.trans ?_ (ih _)
        exact MovesRecords.setStream (.of_does State.hbmWrite_does (by decide) cls) rfl

theorem Stream.close_spilled (x : Stream) : x.close.spilled = x.spilled := by
  unfold Stream.close
  split
  · rfl
  · rfl

theorem Stream.chain_spilled (x : Stream) (r : List Byte) : (x.chain r).spilled = x.spilled := by
  unfold Stream.chain
  extract_lets y
  split
  · exact y.close_spilled
  · rfl

theorem Stream.close_chunk (x : Stream) : x.close.chunk = [] := by
  unfold Stream.close
  split
  next h => exact List.isEmpty_iff.mp h
  next => rfl

theorem State.appendNow_moves (s : State) (cls : Nat) (r : List Byte) : MovesRecords cls s (s.appendNow cls r) := by
  have hdrop : aBSN_DROP cls ≠ aACQ_STAT := by unfold aBSN_DROP aACQ_STAT; omega
  have hwr : aBSN_WR cls ≠ aACQ_STAT ∧ aBSN_WR cls + 4 ≠ aACQ_STAT := by unfold aBSN_WR aACQ_STAT; omega
  have hmax : aBSN_MAXF cls ≠ aACQ_STAT := by unfold aBSN_MAXF aACQ_STAT; omega
  unfold State.appendNow
  split
  · extract_lets s1
    have hlost : ∀ f, MovesRecords cls s (s1.latch aACQ_LAT f) := fun f =>
      ((((MovesRecords.refl cls s).setReg hdrop _).mark _ _).setReg (a := aACQ_LAT) (by decide) _).mark _ _
    split
    · exact ((hlost _).trans (.of_does State.causeOn_does (by decide) cls)).trans (.of_does State.raise_does (by decide) cls)
    · exact (hlost _).trans (.of_does State.raise_does (by decide) cls)
  · extract_lets x s1 s2 s3
    have h3 : MovesRecords cls s s3 := ((((MovesRecords.refl cls s).setStream (x := { x with staged := x.staged ++ [r] })
      ((s.stream cls).chain_spilled r)).setReg hwr.1 _).setReg hwr.2 _).setReg hmax _
    exact h3.trans (s3.drainStage_moves cls _)

theorem State.releaseCls_moves (s : State) (cls : Nat) (limit : Count) (n : Nat) :
    MovesRecords cls s (s.releaseCls cls limit n) := by
  induction n generalizing s with
  | zero => exact .refl cls s
  | succ n ih =>
    unfold State.releaseCls
    cases (s.stream cls).held with
    | nil => exact .refl cls s
    | cons r rs =>
      dsimp only
      have happend : MovesRecords cls s ((s.setStream cls { s.stream cls with held := rs }).appendNow cls r.bytes) :=
        ((MovesRecords.refl cls s).setStream (x := { s.stream cls with held := rs }) rfl).trans
          (State.appendNow_moves _ cls _)
      split
      · refine MovesRecords.trans ?_ (ih _)
        split
        · exact happend.trans (.of_does State.tickItem_does (by decide) cls)
        · exact happend
      · exact .refl cls s

theorem State.releaseOf_moves (s : State) (cls : Nat) (limit : Count) : MovesRecords cls s (s.releaseOf cls limit) :=
  s.releaseCls_moves cls limit _

theorem State.append_moves (s : State) (cls : Nat) (time : Count) (r : List Byte) :
    MovesRecords cls s (s.append cls time r) := by
  unfold State.append State.appendTimes
  split
  · exact (MovesRecords.refl cls s).setStream rfl
  · exact .refl cls s

theorem State.closeChunk_moves (s : State) (cls : Nat) : MovesRecords cls s (s.closeChunk cls) :=
  (MovesRecords.refl cls s).setStream (Stream.close_spilled _)

theorem State.closeChunk_chunk (s : State) (cls : Nat) : ((s.closeChunk cls).stream cls).chunk = [] := by
  unfold State.closeChunk
  rw [State.setStream_stream, if_pos rfl]
  exact Stream.close_chunk _

theorem State.roomCame_moves (s : State) (cls : Nat) : MovesRecords cls s (s.roomCame cls) := by
  unfold State.roomCame
  extract_lets s1
  have h1 : MovesRecords cls s s1 := s.drainStage_moves cls _
  split
  · exact h1.trans (.of_does State.causeOff_does (by decide) cls)
  · exact h1

end Sys2Proof.Machine
end

section
/-! Rate reduction and status records (R322, R323): the level at its instants, and the fills that a record shows. -/
namespace Sys2Proof.Machine

variable {s t : State}

/-! ## What happens once in a cycle -/

theorem State.freshAt_mark_ne_zero (s : State) (a : Nat) {w : Word} (hw : w ≠ 0) : (s.mark a w).freshAt a ≠ 0 := by
  unfold State.freshAt State.mark
  rw [Tab.get_set_self]
  intro h
  exact hw (BitVec.or_eq_zero_iff.mp h).2

theorem State.freshAt_latch_ne (s : State) {a b : Nat} (f : Fld) (h : b ≠ a) : (s.latch a f).freshAt b = s.freshAt b :=
  Tab.get_set_ne _ _ _ h

theorem State.freshAt_congr (h : t.fresh = s.fresh) (a : Nat) : t.freshAt a = s.freshAt a := by
  unfold State.freshAt
  rw [h]

/-- A periodic event that does not take place is no action. -/
theorem State.periodic_off {run due : Bool} (h : ¬ (run = true ∧ due = true)) : ¬ (run && due) = true := by
  rwa [Bool.and_eq_true]

/-! ## The level (R322) -/

/-- The level after an evaluation. -/
def State.nextLevel (s : State) : Nat :=
  if (s.watched (s.fld aACQ_CFG fACQ_CFG_HWM) true).any id then min 16 (s.fld aACQ_STAT fACQ_STAT_L + 1)
  else if (s.watched (s.fld aACQ_CFG fACQ_CFG_LWM) false).all id then s.fld aACQ_STAT fACQ_STAT_L - 1
  else s.fld aACQ_STAT fACQ_STAT_L

/-- The values in progress end where the level of class B changes. -/
def State.levelValuesEnded (s : State) (l : Nat) : State :=
  if (l + 1) / 2 ≠ s.levelB then (List.range 256).foldl (fun s c => s.endValues c) s else s

/-- The state at a new level, with its rate record. -/
def State.levelSet (s : State) (l : Nat) : State :=
  let s1 := s.levelValuesEnded l
  ((s1.setReg aACQ_STAT (putF (putF (putF (s1.reg aACQ_STAT) fACQ_STAT_L l) fACQ_STAT_LB ((l + 1) / 2))
    fACQ_STAT_LC (l / 2))).latch aACQ_LAT fACQ_LAT_RATE).append 0 s.count
      (recBytes 0x25 l 0xFFFF (leBytes 1 ((l + 1) / 2) ++ leBytes 1 (l / 2) ++ leBytes 1 (s.fld aACQ_STAT fACQ_STAT_L)
        ++ leBytes 1 (boolBits (s.watched (s.fld aACQ_CFG fACQ_CFG_HWM) true))) s.count [])

/-- FS 83 stands while the level is not 0. -/
def State.levelJudged (s : State) (before after : Nat) : State :=
  if before = 0 then (s.causeOn 83 0).raise 83 islAcquisition
  else if after = 0 then s.causeOff 83 0
  else s

theorem exec_rateEval_due (hrate : s.bit aACQ_STAT fACQ_STAT_RUN = true ∧ s.onPeriod aACQ_STAT (65536 * 128) = true) :
    exec .rateEval s = if s.nextLevel = s.fld aACQ_STAT fACQ_STAT_L then .next (s.mark aACQ_STAT 1)
      else .next (((s.mark aACQ_STAT 1).levelSet s.nextLevel).levelJudged (s.fld aACQ_STAT fACQ_STAT_L) s.nextLevel) :=
  if_pos (Bool.and_eq_true_iff.mpr hrate)

theorem exec_rateEval_still (h : ¬ (s.bit aACQ_STAT fACQ_STAT_RUN = true ∧ s.onPeriod aACQ_STAT (65536 * 128) = true)) :
    exec .rateEval s = .next s := if_neg (State.periodic_off h)

theorem State.levelValuesEnded_does (s : State) (l : Nat) : Does [.acq] [] s (s.levelValuesEnded l) :=
  Does.ite (fun _ => Does.foldl (fun _ _ => State.endValues_does) Does.refl) (fun _ => Does.refl)

theorem State.levelSet_does (s : State) (l : Nat) : Does [.fresh, .acq] [10] s (s.levelSet l) :=
  State.append_does.call (by decide) (Does.latch adr_ACQ_LAT (by decide) (Does.setReg adr_ACQ_STAT (by decide)
    ((s.levelValuesEnded_does l).mono (by decide))))

/-- A new level shows in ACQ_STAT, and RATE sets. -/
theorem State.levelSet_shows (s : State) {l : Nat} (hl : l ≤ 16) : let t := s.levelSet l
    t.fld aACQ_STAT fACQ_STAT_L = l ∧ t.levelB = (l + 1) / 2 ∧ t.levelC = l / 2 ∧
      t.bit aACQ_LAT fACQ_LAT_RATE = true ∧ t.freshAt aACQ_STAT = s.freshAt aACQ_STAT ∧
      KeepsRegs [aACQ_STAT, aACQ_LAT] s t := by
  intro t
  have hended := s.levelValuesEnded_does l
  generalize hv : s.levelValuesEnded l = v at hended
  let w := putF (putF (putF (v.reg aACQ_STAT) fACQ_STAT_L l) fACQ_STAT_LB ((l + 1) / 2)) fACQ_STAT_LC (l / 2)
  let u := (v.setReg aACQ_STAT w).latch aACQ_LAT fACQ_LAT_RATE
  have happend : Does [.acq] [] u t := by
    unfold t State.levelSet
    rw [hv]
    exact State.append_does
  have hreg : ∀ a, t.reg a = u.reg a := fun a => happend.regs (by decide) a (by simp)
  have hstat : t.reg aACQ_STAT = w :=
    (hreg _).trans ((State.reg_latch_ne _ _ (by decide)).trans (State.reg_setReg_self _ _ _))
  refine ⟨?level, ?levelB, ?levelC, ?latched, ?fresh, ?regs⟩
  case level =>
    unfold State.fld w at *
    rw [hstat, getF_putF_ne _ _ _ _ (by decide) (by decide) (by decide),
      getF_putF_ne _ _ _ _ (by decide) (by decide) (by decide), getF_putF_self _ _ _ (by decide) (by decide)]
    exact Nat.mod_eq_of_lt (hl.trans_lt (by decide))
  case levelB =>
    unfold State.levelB State.fld w at *
    rw [hstat, getF_putF_ne _ _ _ _ (by decide) (by decide) (by decide), getF_putF_self _ _ _ (by decide) (by decide)]
    exact Nat.mod_eq_of_lt (show (l + 1) / 2 < 16 by omega)
  case levelC =>
    unfold State.levelC State.fld w at *
    rw [hstat, getF_putF_self _ _ _ (by decide) (by decide)]
    exact Nat.mod_eq_of_lt (show l / 2 < 16 by omega)
  case latched => exact (State.bit_congr _ (hreg _)).trans (State.bit_latch_self _ _ _ rfl (by decide))
  case fresh =>
    calc t.freshAt aACQ_STAT
      _ = u.freshAt aACQ_STAT := State.freshAt_congr (happend.same .fresh (by decide) (by decide)) _
      _ = v.freshAt aACQ_STAT := State.freshAt_latch_ne _ _ (by decide)
      _ = s.freshAt aACQ_STAT := State.freshAt_congr (hended.same .fresh (by decide) (by decide)) _
  case regs =>
    have hset : KeepsRegs [aACQ_STAT, aACQ_LAT] s u :=
      ((KeepsRegs.of_does hended (by decide) _).setReg (by simp) _).latch (by simp) _
    exact hset.trans (KeepsRegs.of_does happend (by decide) _)

/-- A level that rises or falls: the state at the new level, and what FS 83's cause does beside. -/
theorem exec_rateEval_changes
    (hrate : s.bit aACQ_STAT fACQ_STAT_RUN = true ∧ s.onPeriod aACQ_STAT (65536 * 128) = true) {l : Nat}
    (hnext : s.nextLevel = l) (hchange : l ≠ s.fld aACQ_STAT fACQ_STAT_L) :
    exec .rateEval s = .next (((s.mark aACQ_STAT 1).levelSet l).levelJudged (s.fld aACQ_STAT fACQ_STAT_L) l) := by
  rw [exec_rateEval_due hrate, hnext, if_neg hchange]

theorem State.levelJudged_does (s : State) (before after : Nat) : Does [.agenda, .causes] [] s (s.levelJudged before after) :=
  Does.ite (fun _ => State.raise_does.call (by decide) (State.causeOn_does.mono (by decide)))
    (fun _ => Does.ite (fun _ => State.causeOff_does.mono (by decide)) (fun _ => Does.refl))

/-- FS 83's cause stands, and is raised, as the level leaves 0. -/
theorem State.levelJudged_begins {before : Nat} (hcount : t.count = s.count) (hzero : before = 0) (after : Nat) :
    Raises 83 islAcquisition s (t.levelJudged before after) ∧ (t.levelJudged before after).causeStands 83 = true := by
  have heq : t.levelJudged before after = (t.causeOn 83 0).raise 83 islAcquisition := if_pos hzero
  rw [heq]
  exact ⟨raises_of_count ((State.causeOn_does.same .count (by decide) (by decide)).trans hcount) _ _,
    t.causeOn_causeStands 83 0⟩

/-- It ends as the level returns to 0. -/
theorem State.levelJudged_ends {before after : Nat} (hbefore : before ≠ 0) (hafter : after = 0) :
    (s.levelJudged before after).causeAt 83 0 = false := by
  have heq : s.levelJudged before after = s.causeOff 83 0 := (if_neg hbefore).trans (if_pos hafter)
  rw [heq]
  exact s.causeAt_causeOff 83 0

theorem State.levelJudged_agenda {before : Nat} (hbefore : before ≠ 0) (after : Nat) :
    (s.levelJudged before after).agenda = s.agenda := by
  unfold State.levelJudged
  rw [if_neg hbefore]
  split
  · rfl
  · rfl

/-- A changed level as RATE_EVAL leaves it. -/
theorem State.levelChanged_shows (s : State) {l : Nat} (hl : l ≤ 16) (before : Nat) :
    let t := ((s.mark aACQ_STAT 1).levelSet l).levelJudged before l
    t.fld aACQ_STAT fACQ_STAT_L = l ∧ t.bit aACQ_LAT fACQ_LAT_RATE = true ∧ t.levelB = (l + 1) / 2 ∧ t.levelC = l / 2 ∧
      t.freshAt aACQ_STAT ≠ 0 ∧ KeepsRegs [aACQ_STAT, aACQ_LAT] s t ∧ KeepsMemory s t := by
  intro t
  have hset : Does [.fresh, .acq] [10] s ((s.mark aACQ_STAT 1).levelSet l) :=
    ((s.mark aACQ_STAT 1).levelSet_does l).after (State.mark_does.mono (by decide))
  obtain ⟨hlevel, hlevelB, hlevelC, hlatched, hfresh, hkeeps⟩ := (s.mark aACQ_STAT 1).levelSet_shows hl
  have hjudged := ((s.mark aACQ_STAT 1).levelSet l).levelJudged_does before l
  have hreg : ∀ a, t.reg a = ((s.mark aACQ_STAT 1).levelSet l).reg a := fun a => hjudged.regs (by decide) a (by simp)
  have hmark : t.freshAt aACQ_STAT ≠ 0 := by
    rw [State.freshAt_congr (hjudged.same .fresh (by decide) (by decide)), hfresh]
    exact s.freshAt_mark_ne_zero _ (by decide)
  exact ⟨(State.fld_congr _ (hreg _)).trans hlevel, (State.bit_congr _ (hreg _)).trans hlatched,
    (State.fld_congr _ (hreg _)).trans hlevelB, (State.fld_congr _ (hreg _)).trans hlevelC, hmark,
    fun a ha => (hreg a).trans (hkeeps a ha),
    (KeepsMemory.of_does hset (by decide)).trans (.of_does hjudged (by decide))⟩

/-! ## Status records (R323) -/

/-- The bytes of a status record. -/
def State.statusBytes (s : State) : List Byte :=
  recBytes 0x70 (s.fld aACQ_STAT fACQ_STAT_L) 0xFFFF [] s.count
    ((List.range 4).flatMap (fun c => leBytes 4 (s.heldRecords c)) ++ leBytes 4 s.spillHeld)

theorem exec_statusRecord_due (hper : s.fld aACQ_PER fACQ_PER_DPER ≠ 0)
    (hdue : s.onPeriod aACQ_PER (s.fld aACQ_PER fACQ_PER_DPER * 2 ^ 20 * 128) = true) :
    exec .statusRecord s = .next ((s.mark aACQ_PER 1).append 3 s.count s.statusBytes) := by
  refine if_neg ?_
  rw [Bool.or_eq_true, decide_eq_true_eq, Bool.not_eq_true', not_or, Bool.not_eq_false]
  exact ⟨hper, hdue⟩

theorem exec_statusRecord_still (h : s.fld aACQ_PER fACQ_PER_DPER = 0 ∨
    s.onPeriod aACQ_PER (s.fld aACQ_PER fACQ_PER_DPER * 2 ^ 20 * 128) = false) : exec .statusRecord s = .next s := by
  refine if_pos ?_
  rw [Bool.or_eq_true, decide_eq_true_eq, Bool.not_eq_true']
  exact h

theorem length_insertHeld (r : HeldRec) (l : List HeldRec) : (insertHeld r l).length = l.length + 1 := by
  induction l with
  | nil => rfl
  | cons x xs ih =>
    unfold insertHeld
    split
    · rfl
    · rw [List.length_cons, ih, List.length_cons]

theorem State.append_held_length (hrun : s.bit aACQ_STAT fACQ_STAT_RUN = true) (cls : Nat) (time : Count) (r : List Byte) :
    ((s.append cls time r).stream cls).held.length = (s.stream cls).held.length + 1 := by
  rw [State.append_running hrun, State.setStream_stream, if_pos rfl]
  exact length_insertHeld _ _

end Sys2Proof.Machine
end

section
/-! Seals (R324, R325): the chunks that close at a seal instant, and the seal itself. -/
namespace Sys2Proof.Machine

variable {s t : State}

/-- The state at a seal instant with the chunks of classes B to D closed over the records before it. -/
def State.chunksClosed (s : State) : State :=
  ((((((s.mark aACQ_SEALNO 1).releaseOf 1 s.count).releaseOf 2 s.count).releaseOf 3 s.count).closeChunk 1).closeChunk
    2).closeChunk 3

theorem exec_sealInstant_due (hrun : s.bit aACQ_STAT fACQ_STAT_RUN = true)
    (hdue : s.onPeriod aACQ_SEALNO (s.fld aACQ_PER fACQ_PER_SEALIV * 192000000000) = true) :
    exec .sealInstant s =
      if s.copyBefore s.count then
        .next (s.chunksClosed.hold (.island islAcquisition) (s.count + cyc 96) (.seal s.count (s.chunksClosed.stream 1).head
          (s.chunksClosed.stream 2).head (s.chunksClosed.stream 3).head))
      else .next (s.chunksClosed.sealAt s.count (s.chunksClosed.stream 1).head (s.chunksClosed.stream 2).head
        (s.chunksClosed.stream 3).head) :=
  if_pos (Bool.and_eq_true_iff.mpr ⟨hrun, hdue⟩)

theorem exec_sealInstant_still (h : s.bit aACQ_STAT fACQ_STAT_RUN = false ∨
    s.onPeriod aACQ_SEALNO (s.fld aACQ_PER fACQ_PER_SEALIV * 192000000000) = false) : exec .sealInstant s = .next s := by
  refine if_neg (State.periodic_off ?_)
  rw [not_and_or, Bool.not_eq_true, Bool.not_eq_true]
  exact h

theorem State.chunksClosed_does (s : State) :
    Does [.agenda, .causes, .fresh, .hbmMem, .acq, .hbm, .twn] [10, 12] s s.chunksClosed :=
  State.closeChunk_does.call (by decide) (State.closeChunk_does.call (by decide) (State.closeChunk_does.call (by decide)
    (State.releaseOf_does.call (by decide) (State.releaseOf_does.call (by decide) (State.releaseOf_does.call (by decide)
      (State.mark_does.call (by decide) Does.refl))))))

theorem State.chunksClosed_keepsAcq (s : State) : KeepsAcq s s.chunksClosed := by
  have hmark : KeepsAcq s (s.mark aACQ_SEALNO 1) := ((MovesRecords.refl 0 s).mark _ _).toKeepsAcq
  exact (((((hmark.trans (State.releaseOf_moves _ 1 _).toKeepsAcq).trans (State.releaseOf_moves _ 2 _).toKeepsAcq).trans
    (State.releaseOf_moves _ 3 _).toKeepsAcq).trans (State.closeChunk_moves _ 1).toKeepsAcq).trans
    (State.closeChunk_moves _ 2).toKeepsAcq).trans (State.closeChunk_moves _ 3).toKeepsAcq

theorem State.chunksClosed_chunks (s : State) : (s.chunksClosed.stream 1).chunk = [] ∧ (s.chunksClosed.stream 2).chunk = [] ∧
    (s.chunksClosed.stream 3).chunk = [] := by
  refine ⟨?_, ?_, State.closeChunk_chunk _ 3⟩
  · unfold State.chunksClosed
    rw [(State.closeChunk_moves _ 3).others 1 (by decide), (State.closeChunk_moves _ 2).others 1 (by decide)]
    exact State.closeChunk_chunk _ 1
  · unfold State.chunksClosed
    rw [(State.closeChunk_moves _ 3).others 2 (by decide)]
    exact State.closeChunk_chunk _ 2

theorem mem_placeSig_self (t : Count) (r : SigReq) (l : List (Count × SigReq)) : (t, r) ∈ placeSig t r l := by
  induction l with
  | nil => exact List.mem_singleton_self _
  | cons x xs ih =>
    unfold placeSig
    split
    · exact List.mem_cons_self
    · exact List.mem_cons_of_mem _ ih

/-- The state with class A's chunk closed over the records before a seal instant. -/
def State.chunkAClosed (s : State) (time : Count) : State := (s.releaseOf 0 time).closeChunk 0

/-- The value S of a seal over the chain heads of the four classes (R325). -/
def State.sealValue (s : State) (hb hc hd : BitVec 384) : BitVec 384 :=
  Config.sha384 (digestBytes (s.stream 0).head ++ digestBytes hb ++ digestBytes hc ++ digestBytes hd)

/-- The state in which a seal has its number, its value stands among those kept, and its signature is asked for. -/
def State.sealAsked (s : State) (no : Word) (kept : List (Word × BitVec 384 × Option (List Byte))) : State :=
  ((({ s with acq := { s.acq with seals := kept, sealNext := s.acq.sealNext + 1 } }).setReg aACQ_SEALNO no).setReg aSEC_SEALQ
    (BitVec.ofNat 32 ((kept.filter (fun x : Word × BitVec 384 × Option (List Byte) => x.2.2.isNone)).length))).askSig (.seal no)

theorem State.sealAt_running (hrun : s.bit aACQ_STAT fACQ_STAT_RUN = true) (time : Count) (hb hc hd : BitVec 384) :
    s.sealAt time hb hc hd =
      let s1 := s.chunkAClosed time
      let v := s1.sealValue hb hc hd
      let no : Word := BitVec.ofNat 32 s1.acq.sealNext
      let s2 := s1.append 0 time (recBytes 0x26 0 0xFFFF (leBytes 4 no.toNat) time (digestBytes v))
      s2.sealAsked no ((s2.acq.seals ++ [(no, v, none)]).drop (s2.acq.seals.length + 1 - 65536)) := by
  unfold State.sealAt State.sealAsked State.sealValue State.chunkAClosed
  rw [if_pos hrun]

theorem State.sealAsked_shows (s : State) (no : Word) (kept : List (Word × BitVec 384 × Option (List Byte))) :
    let t := s.sealAsked no kept
    t.acq.sealNext = s.acq.sealNext + 1 ∧ t.reg aACQ_SEALNO = no ∧ t.acq.seals = kept ∧
      SigReq.seal no ∈ t.sec.requests.map Prod.snd ∧ ∀ c, t.stream c = s.stream c :=
  ⟨rfl, (State.reg_setReg_ne _ (a := aSEC_SEALQ) _ (by decide)).trans (State.reg_setReg_self _ _ _), rfl,
    List.mem_map.mpr ⟨_, mem_placeSig_self s.count (.seal no) s.sec.requests, rfl⟩, fun _ => rfl⟩

/-- A seal takes the next SEALNO and waits for its signature, and leaves the streams of classes B to D. -/
theorem State.sealAt_shows (hrun : s.bit aACQ_STAT fACQ_STAT_RUN = true) (hroom : s.acq.seals.length < 65536) (time : Count)
    (hb hc hd : BitVec 384) : let t := s.sealAt time hb hc hd
    let no : Word := BitVec.ofNat 32 s.acq.sealNext
    t.acq.sealNext = s.acq.sealNext + 1 ∧ t.reg aACQ_SEALNO = no ∧ (∃ v, t.acq.seals = s.acq.seals ++ [(no, v, none)]) ∧
      SigReq.seal no ∈ t.sec.requests.map Prod.snd ∧ ∀ c, c ≠ 0 → t.stream c = s.stream c := by
  intro t no
  have ht : t = _ := State.sealAt_running hrun time hb hc hd
  have h1 : MovesRecords 0 s (s.chunkAClosed time) := (s.releaseOf_moves 0 time).trans (State.closeChunk_moves _ 0)
  dsimp only at ht
  rw [h1.sealNext] at ht
  generalize hv : (s.chunkAClosed time).sealValue hb hc hd = v at ht
  generalize hu : (s.chunkAClosed time).append 0 time
    (recBytes 0x26 0 0xFFFF (leBytes 4 no.toNat) time (digestBytes v)) = u at ht
  have hmoves : MovesRecords 0 s u := hu ▸ h1.trans (State.append_moves _ 0 _ _)
  have hdrop : s.acq.seals.length + 1 - 65536 = 0 := Nat.sub_eq_zero_of_le hroom
  rw [hmoves.seals, hdrop, List.drop_zero] at ht
  obtain ⟨hnext, hshown, hseals, hasked, hstreams⟩ := u.sealAsked_shows no (s.acq.seals ++ [(no, v, none)])
  rw [← ht] at hnext hshown hseals hasked hstreams
  exact ⟨hnext.trans (congrArg (· + 1) hmoves.sealNext), hshown, ⟨v, hseals⟩, hasked,
    fun c hc => (hstreams c).trans (hmoves.others c hc)⟩

/-- A seal that waits for class A's copies, 96 cycles after its instant. -/
theorem State.sealHeld_shows (s : State) (a : Act) :
    let t := s.chunksClosed.hold (.island islAcquisition) (s.count + cyc 96) a
    t.acq.sealNext = s.acq.sealNext ∧ (t.stream 1).chunk = [] ∧ (∃ d ∈ t.agenda, d.due = s.count + cyc 96) ∧
      t.sec = s.sec ∧ t.spill = s.spill := by
  have hnext := s.chunksClosed_keepsAcq.sealNext
  have hdoes := s.chunksClosed_does
  obtain ⟨hB, -⟩ := s.chunksClosed_chunks
  generalize s.chunksClosed = u at hnext hdoes hB ⊢
  exact ⟨hnext, hB, ⟨_, (mem_insertDue _ _ _).mpr (.inl rfl), rfl⟩, hdoes.same .sec (by decide) (by decide),
    hdoes.same .spill (by decide) (by decide)⟩

/-- A seal at its instant, over the chunks just closed. -/
theorem State.sealedNow_shows (hrun : s.bit aACQ_STAT fACQ_STAT_RUN = true) (hroom : s.acq.seals.length < 65536)
    (hb hc hd : BitVec 384) : let t := s.chunksClosed.sealAt s.count hb hc hd
    let no : Word := BitVec.ofNat 32 s.acq.sealNext
    t.acq.sealNext = s.acq.sealNext + 1 ∧ t.reg aACQ_SEALNO = no ∧
      t.acq.seals.map (fun x => (x.1, x.2.2)) = s.acq.seals.map (fun x => (x.1, x.2.2)) ++ [(no, none)] ∧
      SigReq.seal no ∈ t.sec.requests.map Prod.snd ∧ (t.stream 1).chunk = [] ∧ (t.stream 2).chunk = [] ∧
      (t.stream 3).chunk = [] ∧ t.spill = s.spill := by
  have hacq := s.chunksClosed_keepsAcq
  have hdoes := s.chunksClosed_does
  obtain ⟨hB, hC, hD⟩ := s.chunksClosed_chunks
  have hrun' : s.chunksClosed.bit aACQ_STAT fACQ_STAT_RUN = true := (State.bit_congr _ hacq.stat).trans hrun
  rw [← hacq.seals] at hroom
  rw [← hacq.seals, ← hacq.sealNext]
  generalize s.chunksClosed = u at hrun' hroom hdoes hB hC hD ⊢
  obtain ⟨hnext, hshown, ⟨v, hkept⟩, hasked, hothers⟩ := State.sealAt_shows hrun' hroom s.count hb hc hd
  intro t no
  have hspill : t.spill = s.spill :=
    (State.sealAt_does.same .spill (by decide) (by decide)).trans (hdoes.same .spill (by decide) (by decide))
  exact ⟨hnext, hshown, (congrArg _ hkept).trans List.map_append, hasked,
    (congrArg Stream.chunk (hothers 1 (by decide))).trans hB, (congrArg Stream.chunk (hothers 2 (by decide))).trans hC,
    (congrArg Stream.chunk (hothers 3 (by decide))).trans hD, hspill⟩

end Sys2Proof.Machine
end

section
/-! The spill mover (R320, R321, R330): when a basin spills, and the block that moves. -/
namespace Sys2Proof.Machine

variable {s t : State} {basinB : Bool}

/-- The class whose basin is to spill. -/
def spillClass (basinB : Bool) : Nat := if basinB then 1 else 0

/-- The bit of ACQ_STAT that shows its spilling. -/
def spillFld (basinB : Bool) : Fld := if basinB then fACQ_STAT_SPILL_B else fACQ_STAT_SPILL_A

/-! ## When a basin spills (R320) -/

theorem State.spills_start {c : Nat} (hfill : 64 ≤ s.basinFill c)
    (habove : s.fld aACQ_PER fACQ_PER_SPW * s.fld (aBSN_SIZE c) ⟨31, 0⟩ < s.basinFill c * 256) (spilling : Bool) :
    s.spills c spilling = true := by
  unfold State.spills fillAbove
  simp only [decide_eq_true hfill, Bool.true_and, decide_eq_true habove, decide_eq_true habove.le, ite_self]

theorem State.spills_stop {c : Nat}
    (hbelow : s.basinFill c * 256 < s.fld aACQ_PER fACQ_PER_SPW * s.fld (aBSN_SIZE c) ⟨31, 0⟩) :
    s.spills c true = false := by
  unfold State.spills
  simp only [if_true, decide_eq_false hbelow.not_ge, Bool.and_false]

theorem exec_spillMove_closed (hclosed : s.hbmOpen = false) (good : Bool) : exec (.spillMove basinB good) s = .next s :=
  if_pos hclosed

section
variable (hopen : s.hbmOpen = true)
include hopen

theorem exec_spillMove_below (hbelow : s.spills (spillClass basinB) (s.bit aACQ_STAT (spillFld basinB)) = false)
    (good : Bool) : exec (.spillMove basinB good) s = .next (s.setBit aACQ_STAT (spillFld basinB) false) :=
  (if_neg (by rw [hopen]; decide)).trans (if_neg (Bool.eq_false_iff.mp hbelow))

variable (hspills : s.spills (spillClass basinB) (s.bit aACQ_STAT (spillFld basinB)) = true)
include hspills

theorem exec_spillMove_full (hfull : s.spillFull = true) (good : Bool) :
    exec (.spillMove basinB good) s = .next s.judgeSpill :=
  (if_neg (by rw [hopen]; decide)).trans ((if_pos hspills).trans (if_pos hfull))

theorem exec_spillMove_bad (hroom : s.spillFull = false) :
    exec (.spillMove basinB false) s = .next (s.raise 22 islMemory) :=
  (if_neg (by rw [hopen]; decide)).trans ((if_pos hspills).trans ((if_neg (Bool.eq_false_iff.mp hroom)).trans (if_pos rfl)))

end

/-! ## The block that moves (R320) -/

/-- The state with the bytes of a block written to its slot of the spill store. -/
def State.blockWritten (s : State) (slot : Nat) (bs : List Byte) : State :=
  { s with spill := Memory.writeBytes s.spill slot bs, acq := { s.acq with spillNext := s.acq.spillNext + 1 } }

/-- The state in which SPL_WR and SPL_USED show it too. -/
def State.blockStored (s : State) (slot : Nat) (bs : List Byte) : State :=
  ((s.blockWritten slot bs).setWide aSPL_WR 2 (s.wide aSPL_WR 2 + 1)).setFld aSPL_USED fSPL_USED_BLOCKS (s.spillHeld + 1)

/-- A stream with a block more in the spill store; `first` says that a spill begins with it. -/
def Stream.withBlock (x : Stream) (blk i : Nat) (first : Bool) : Stream :=
  { x with spilled := x.spilled ++ [(blk, i)], spillFirst := if first then blk else x.spillFirst }

/-- The state in which the block stands among those of its class too. -/
def State.blockListed (s : State) (c slot : Nat) (bs : List Byte) : State :=
  (s.blockStored slot bs).setStream c (((s.blockStored slot bs).stream c).withBlock s.acq.spillNext (s.wide (aBSN_ACK c) 2)
    (s.stream c).spilled.isEmpty)

/-- The state with the block taken off the basin too. -/
def State.blockMoved (s : State) (c : Nat) (f : Fld) (slot : Nat) (bs : List Byte) : State :=
  ((s.blockListed c slot bs).setWide (aBSN_ACK c) 2 (s.wide (aBSN_ACK c) 2 + 64)).latch aACQ_STAT f

/-- The state after that: the room in the basin is used, the room of the store judged, and the first block of a spill makes a
record. -/
def State.moveEnded (s : State) (c blk : Nat) (first : Bool) : State :=
  if first then ((s.roomCame c).judgeSpill).append 0 s.count (recBytes 0x27 1 0xFFFF [] s.count (leBytes 8 blk))
  else (s.roomCame c).judgeSpill

theorem exec_spillMove_moves (hopen : s.hbmOpen = true)
    (hspills : s.spills (spillClass basinB) (s.bit aACQ_STAT (spillFld basinB)) = true) (hroom : s.spillFull = false) :
    exec (.spillMove basinB true) s =
      .next ((s.blockMoved (spillClass basinB) (spillFld basinB) (s.acq.spillNext % 62500000 * 4096)
        (s.basinBytes (spillClass basinB) (s.wide (aBSN_ACK (spillClass basinB)) 2) 64)).moveEnded (spillClass basinB)
        s.acq.spillNext (s.stream (spillClass basinB)).spilled.isEmpty) := by
  show execSpillMove basinB true s = _
  unfold execSpillMove
  change (if s.hbmOpen = false then _ else if s.spills (spillClass basinB) (s.bit aACQ_STAT (spillFld basinB)) then
    if s.spillFull then _ else if true = false then _ else _ else _) = _
  rw [if_neg (by rw [hopen]; decide), if_pos hspills, if_neg (Bool.eq_false_iff.mp hroom), if_neg (by decide)]
  unfold State.moveEnded State.blockMoved State.blockListed State.blockStored State.blockWritten Stream.withBlock
  rfl

/-- Two words written are read back. -/
theorem State.wide_setWide_two (s : State) (a v : Nat) : (s.setWide a 2 v).wide a 2 = v % 2 ^ 64 := by
  have hlow : (s.setWide a 2 v).reg a = BitVec.ofNat 32 v :=
    (State.reg_setReg_ne _ _ (by omega)).trans (State.reg_setReg_self s _ _)
  have hhigh : (s.setWide a 2 v).reg (a + 4) = BitVec.ofNat 32 (v / 2 ^ 32) := State.reg_setReg_self _ _ _
  simp only [State.wide, hlow, hhigh, BitVec.toNat_ofNat]
  omega

theorem State.length_basinBytes (s : State) (cls i n : Nat) : (s.basinBytes cls i n).length = 64 * n := by
  induction n generalizing i with
  | zero => rfl
  | succ n ih =>
    unfold State.basinBytes
    rw [List.length_append, Memory.length_readBytes, ih]
    omega

/-- The registers that a block off the basin shows in. -/
def basinMoveRegs (c : Nat) : List Nat := [aBSN_ACK c, aBSN_ACK c + 4, aACQ_STAT]

section
variable (s : State) (c slot : Nat) (f : Fld) (bs : List Byte)

theorem State.blockMoved_keepsRegs : KeepsRegs (basinMoveRegs c) (s.blockStored slot bs) (s.blockMoved c f slot bs) := by
  have hlisted : KeepsRegs (basinMoveRegs c) (s.blockStored slot bs) (s.blockListed c slot bs) := .of_regs rfl _
  exact (KeepsRegs.setWide_two hlisted (by simp [basinMoveRegs]) (by simp [basinMoveRegs]) _).latch
    (by simp [basinMoveRegs]) _

theorem State.blockStored_does : Does [] [10] (s.blockWritten slot bs) (s.blockStored slot bs) :=
  Does.setFld adr_SPL_USED (by decide) (Does.setWide adr_SPL_WR (by decide) Does.refl)

theorem State.blockMoved_does : Does [.fresh] [10] (s.blockListed c slot bs) (s.blockMoved c f slot bs) :=
  Does.latch adr_ACQ_STAT (by decide) (Does.setWide adr_BSN_ACK (by decide) Does.refl)

theorem State.blockMoved_memory :
    (s.blockMoved c f slot bs).spill = Memory.writeBytes s.spill slot bs ∧ (s.blockMoved c f slot bs).sram = s.sram :=
  ⟨((s.blockMoved_does c slot f bs).same .spill (by decide) (by decide)).trans
      ((s.blockStored_does slot bs).same .spill (by decide) (by decide)),
    ((s.blockMoved_does c slot f bs).same .sram (by decide) (by decide)).trans
      ((s.blockStored_does slot bs).same .sram (by decide) (by decide))⟩

/-- A block that has moved shows in SPL_WR, SPL_USED and ACQ_STAT, and stands among the class's. -/
theorem State.blockMoved_shows (h1 : f.lo = f.hi) (h2 : f.hi < 32) : let t := s.blockMoved c f slot bs
    t.wide aSPL_WR 2 = (s.wide aSPL_WR 2 + 1) % 2 ^ 64 ∧ t.fld aSPL_USED fSPL_USED_BLOCKS = (s.spillHeld + 1) % 2 ^ 26 ∧
      t.bit aACQ_STAT f = true ∧ t.acq.spillNext = s.acq.spillNext + 1 ∧
      (t.stream c).spilled = (s.stream c).spilled ++ [(s.acq.spillNext, s.wide (aBSN_ACK c) 2)] := by
  have hkeep : ∀ a, aSPL_USED ≤ a → (s.blockMoved c f slot bs).reg a = (s.blockStored slot bs).reg a := fun a ha => by
    refine s.blockMoved_keepsRegs c slot f bs a ?_
    simp only [basinMoveRegs, List.mem_cons, List.not_mem_nil, or_false, aBSN_ACK, aACQ_STAT]
    simp only [aSPL_USED] at ha
    omega
  have hstored : (s.blockStored slot bs).acq = (s.blockWritten slot bs).acq :=
    (s.blockStored_does slot bs).same .acq (by decide) (by decide)
  have hacq : (s.blockMoved c f slot bs).acq = (s.blockListed c slot bs).acq :=
    (s.blockMoved_does c slot f bs).same .acq (by decide) (by decide)
  refine ⟨?wr, ?used, State.bit_latch_self _ _ _ h1 h2, ?next, ?block⟩
  case wr =>
    rw [State.wide_congr (fun i _ => hkeep _ (by simp only [aSPL_USED, aSPL_WR]; omega)), ← State.wide_setWide_two]
    refine State.wide_congr (fun i _ => State.reg_setFld_ne _ _ _ ?_)
    simp only [aSPL_USED, aSPL_WR]
    omega
  case used =>
    exact (State.fld_congr _ (hkeep _ le_rfl)).trans (State.fld_setFld_self _ _ _ _ (by decide) (by decide))
  case next =>
    rw [hacq]
    exact congrArg Acq.spillNext hstored
  case block =>
    have hstream : (s.blockStored slot bs).stream c = s.stream c :=
      State.stream_of_acq (s := s.blockWritten slot bs) hstored c
    rw [State.stream_of_acq hacq, State.blockListed, State.setStream_stream, if_pos rfl, Stream.withBlock, hstream]

end

/-- What follows the move leaves the blocks in the store, ACQ_STAT, and every register and memory but those of HBM. -/
theorem State.moveEnded_keepsAcq (s : State) (c blk : Nat) (first : Bool) : KeepsAcq s (s.moveEnded c blk first) := by
  have hroom : KeepsAcq s (s.roomCame c).judgeSpill :=
    ((s.roomCame_moves c).trans (.of_does State.judgeSpill_does (by decide) c)).toKeepsAcq
  unfold State.moveEnded
  split
  · exact hroom.trans (State.append_moves _ 0 _ _).toKeepsAcq
  · exact hroom

theorem State.moveEnded_does (s : State) (c blk : Nat) (first : Bool) :
    Does [.agenda, .causes, .fresh, .hbmMem, .acq, .hbm] [12] s (s.moveEnded c blk first) := by
  have hroom : Does [.agenda, .causes, .fresh, .hbmMem, .acq, .hbm] [12] s (s.roomCame c).judgeSpill :=
    State.judgeSpill_does.call (by decide) (State.roomCame_does.mono (by decide))
  exact Does.ite (fun _ => State.append_does.call (by decide) hroom) (fun _ => hroom)

/-- A block moved, with all that follows from it: its slot of the spill store holds it, and every other byte of the store
stays. -/
theorem State.moveEnded_shows (s : State) (c slot blk : Nat) {f : Fld} (h1 : f.lo = f.hi) (h2 : f.hi < 32) {bs : List Byte}
    (hlen : bs.length = 4096) (first : Bool) : let t := (s.blockMoved c f slot bs).moveEnded c blk first
    t.wide aSPL_WR 2 = (s.wide aSPL_WR 2 + 1) % 2 ^ 64 ∧ t.acq.spillNext = s.acq.spillNext + 1 ∧
      t.fld aSPL_USED fSPL_USED_BLOCKS = (s.spillHeld + 1) % 2 ^ 26 ∧
      (t.stream c).spilled = (s.stream c).spilled ++ [(s.acq.spillNext, s.wide (aBSN_ACK c) 2)] ∧
      Memory.readBytes t.spill slot 4096 = bs ∧
      (∀ a, a < slot ∨ slot + 4096 ≤ a → Memory.read t.spill a = Memory.read s.spill a) ∧
      t.bit aACQ_STAT f = true ∧ t.sram = s.sram := by
  obtain ⟨hwr, hused, hstat, hnext, hblock⟩ := s.blockMoved_shows c slot f bs h1 h2
  obtain ⟨hspill, hsram⟩ := s.blockMoved_memory c slot f bs
  generalize s.blockMoved c f slot bs = u at *
  have hended := u.moveEnded_keepsAcq c blk first
  have hdoes := u.moveEnded_does c blk first
  have hreg : ∀ a, regBlk a ≠ 12 → (u.moveEnded c blk first).reg a = u.reg a := fun a ha =>
    hdoes.regs (by decide) a (by simpa using ha)
  have hstores : (u.moveEnded c blk first).spill = Memory.writeBytes s.spill slot bs :=
    (hdoes.same .spill (by decide) (by decide)).trans hspill
  refine ⟨(State.wide_congr (fun i hi => hreg _ (by unfold regBlk aSPL_WR; omega))).trans hwr,
    hended.spillNext.trans hnext, (State.fld_congr _ (hreg _ (by decide))).trans hused, (hended.spilled c).trans hblock,
    ?self, fun a ha => ?others, (State.bit_congr _ hended.stat).trans hstat,
    (hdoes.same .sram (by decide) (by decide)).trans hsram⟩
  case self =>
    rw [hstores]
    exact Memory.readBytes_writeBytes_self _ _ _ hlen
  case others =>
    rw [hstores]
    exact Memory.read_writeBytes_outside (by rwa [hlen])

/-! ## A full store (R330) -/

/-- FS 84 is raised once, as the store is found full. -/
theorem State.judgeSpill_full (hfull : s.spillFull = true) (hstands : s.causeStands 84 = false) :
    Raises 84 islAcquisition s s.judgeSpill ∧ s.judgeSpill.causeStands 84 = true := by
  have heq : s.judgeSpill = (s.causeOn 84 0).raise 84 islAcquisition :=
    (if_pos hfull).trans (if_neg (Bool.eq_false_iff.mp hstands))
  rw [heq]
  exact ⟨raises_of_count (State.causeOn_does.same .count (by decide) (by decide)) _ _, s.causeOn_causeStands 84 0⟩

end Sys2Proof.Machine
end

section
/-! Rates, records, seals and the spill mover together (O26). -/
namespace Sys2Proof.Machine

/-- Settles O26: the level by `exec_rateEval_changes` and `State.levelChanged_shows`, seals by `State.chunksClosed_chunks` and
`State.sealAt_shows`, the block that moves by `exec_spillMove_moves` and `State.moveEnded_shows`. -/
theorem ratesSealsAndSpill : Obligations.RatesSealsAndSpill := by
  unfold Obligations.RatesSealsAndSpill
  refine ⟨fun s => ?_, fun basinB s => ?_⟩
  · intro hi lo l run once rate dper sealIv no
    refine ⟨fun hrate hhi hlo hl => ?stays, fun hrate hhi hl => ?rises, fun hrate hhi hlo h1 hl => ?falls,
      fun hrate => ⟨s, exec_rateEval_still hrate, rfl⟩, fun hrun hper hdue => ?status,
      fun hoff => ⟨s, exec_statusRecord_still hoff, rfl⟩, fun hrun hdue hcopy hroom => ?seals,
      fun hrun hdue hcopy => ?waits, fun hoff => ⟨s, exec_sealInstant_still hoff, rfl⟩⟩
    case stays =>
      have hnext : s.nextLevel = l :=
        (if_neg (Bool.eq_false_iff.mp hhi)).trans (if_neg (Bool.eq_false_iff.mp hlo))
      exact ⟨_, (exec_rateEval_due hrate).trans (if_pos hnext), rfl, rfl, s.freshAt_mark_ne_zero _ (by decide),
        .of_regs rfl _, .of_fields rfl rfl rfl⟩
    case rises =>
      have hnext : s.nextLevel = l + 1 := (if_pos hhi).trans (Nat.min_eq_right hl)
      have hexec := exec_rateEval_changes hrate hnext (Nat.succ_ne_self l)
      obtain ⟨hlevel, hlatched, hlevelB, hlevelC, hmark, hkeeps, hmem⟩ := s.levelChanged_shows hl l
      refine ⟨_, hexec, hlevel, hlatched, hlevelB, hlevelC, fun hzero => ?_, hmark, hkeeps, hmem⟩
      exact State.levelJudged_begins (((s.mark aACQ_STAT 1).levelSet_does _).same .count (by decide) (by decide)) hzero _
    case falls =>
      have hnext : s.nextLevel = l - 1 := (if_neg (Bool.eq_false_iff.mp hhi)).trans (if_pos hlo)
      have hexec := exec_rateEval_changes hrate hnext (by omega)
      obtain ⟨hlevel, hlatched, hlevelB, hlevelC, -, hkeeps, hmem⟩ := s.levelChanged_shows (l := l - 1) (by omega) l
      have hpos : l ≠ 0 := Nat.one_le_iff_ne_zero.mp h1
      have hsucc : l - 1 + 1 = l := Nat.sub_add_cancel h1
      refine ⟨_, hexec, hlevel, hlatched, hlevelB.trans (by rw [hsucc]), hlevelC, fun hone => ?_, ?_, hkeeps, hmem⟩
      · exact State.levelJudged_ends hpos (Nat.sub_eq_zero_of_le hone.le)
      · exact (State.levelJudged_agenda hpos _).trans
          (((s.mark aACQ_STAT 1).levelSet_does _).same .agenda (by decide) (by decide))
    case status =>
      have hdoes : Does [.fresh, .acq] [] s ((s.mark aACQ_PER 1).append 3 s.count s.statusBytes) :=
        State.append_does.call (by decide) (State.mark_does.mono (by decide))
      exact ⟨_, exec_statusRecord_due hper hdue, State.mem_append_held (s := s.mark aACQ_PER 1) hrun 3 s.count _,
        State.append_held_length (s := s.mark aACQ_PER 1) hrun 3 s.count _, hdoes.same .agenda (by decide) (by decide),
        (State.freshAt_congr (State.append_does.same .fresh (by decide) (by decide)) _).trans_ne
          (s.freshAt_mark_ne_zero _ (by decide)),
        .of_does hdoes (by decide) _, .of_does hdoes (by decide)⟩
    case seals =>
      exact ⟨_, (exec_sealInstant_due hrun hdue).trans (if_neg (Bool.eq_false_iff.mp hcopy)),
        State.sealedNow_shows hrun hroom _ _ _⟩
    case waits =>
      exact ⟨_, (exec_sealInstant_due hrun hdue).trans (if_pos hcopy), s.sealHeld_shows _⟩
  · intro c size mark bitF fill slot
    have hbit : (spillFld basinB).lo = (spillFld basinB).hi ∧ (spillFld basinB).hi < 32 := by cases basinB <;> decide
    refine ⟨fun hfill habove => State.spills_start hfill habove _, fun hspilling hbelow => ?stops,
      fun hopen hspills hroom => ?moves, fun hopen hspills hfull hstands => ?full, fun hopen hspills hroom => ?bad,
      fun hopen hbelow good => ?below, fun hclosed good => ⟨s, exec_spillMove_closed hclosed good, rfl⟩⟩
    case stops =>
      rw [hspilling]
      exact State.spills_stop hbelow
    case moves =>
      exact ⟨_, exec_spillMove_moves hopen hspills hroom,
        s.moveEnded_shows (spillClass basinB) _ s.acq.spillNext hbit.1 hbit.2 (s.length_basinBytes _ _ _) _⟩
    case full =>
      obtain ⟨hraise, hcause⟩ := State.judgeSpill_full hfull hstands
      exact ⟨_, exec_spillMove_full hopen hspills hfull true, hraise, hcause, .of_does State.judgeSpill_does (by decide) _,
        .of_does State.judgeSpill_does (by decide)⟩
    case bad =>
      exact ⟨_, exec_spillMove_bad hopen hspills hroom, raises_raise _ _ _, rfl, .of_regs rfl _, .of_fields rfl rfl rfl⟩
    case below =>
      exact ⟨_, exec_spillMove_below hopen hbelow good, State.bit_setBit_self _ _ _ _ hbit.1 hbit.2, rfl, rfl,
        (KeepsRegs.refl _ s).setBit (by simp) _ _, .of_fields rfl rfl rfl⟩

end Sys2Proof.Machine
end

section
/-! The whole machine (O48, O51, O53): a step is its command or `State.idle`, and both keep what every operation keeps. -/
namespace Sys2Proof.Machine

theorem step_eq_exec {s : State} {c : Instr} {rest : List Instr} (h : s.pending = c :: rest) :
    step s = exec c { s with pending := rest } := by
  unfold step; rw [h]

/-- Settles O48. -/
theorem stepRunsFront : Obligations.StepRunsFront := by
  unfold Obligations.StepRunsFront
  exact fun c s => step_eq_exec rfl

/-- Settles O51: a command keeps the canonical form by `exec_runs`, the idle step by `State.idle_does`. -/
theorem stepKeepsCanonical : Obligations.StepKeepsCanonical := by
  unfold Obligations.StepKeepsCanonical
  intro s t hcanon hstep
  cases hpend : s.pending with
  | nil =>
    obtain rfl := Host.Outcome.next.inj ((step_eq_idle hpend).symm.trans hstep)
    exact State.idle_does.canon hcanon
  | cons c rest =>
    obtain ⟨u, hu, hdoes⟩ := exec_runs (c := c) (s := { s with pending := rest })
    obtain rfl := Host.Outcome.next.inj (hu.symm.trans ((step_eq_exec hpend).symm.trans hstep))
    exact hdoes.canon hcanon

/-- Settles O53: every command answers a next state and leaves the queue (`exec_runs`), and so a step does (`step_eq_exec`,
`step_eq_idle`). -/
theorem everyCommandRuns : Obligations.EveryCommandRuns := by
  unfold Obligations.EveryCommandRuns
  have hruns (c : Instr) (s : State) : ∃ t, exec c s = .next t ∧ t.pending = s.pending := by
    obtain ⟨t, ht, hdoes⟩ := exec_runs (c := c) (s := s)
    exact ⟨t, ht, hdoes.same .pending (by decide) (by decide)⟩
  refine ⟨hruns, fun s => ?_⟩
  cases hpend : s.pending with
  | nil => exact ⟨_, step_eq_idle hpend⟩
  | cons c rest =>
    obtain ⟨t, ht, -⟩ := hruns c { s with pending := rest }
    exact ⟨t, (step_eq_exec hpend).trans ht⟩

end Sys2Proof.Machine
end

section
/-! The twin state and OWN (R373, R376): what a change of state shows in TWN_STAT, and what it leaves alone. -/
namespace Sys2Proof.Machine

variable {s t u : State}

/-! ## Registers of TWN -/

/-- Of the registers of TWN below TWN_PLAUS, only those listed may change. -/
def KeepsTwn (as : List Nat) (s t : State) : Prop :=
  ∀ a, regBlk a = 14 ∧ a < aTWN_PLAUS 0 → a ∉ as → t.reg a = s.reg a

theorem KeepsTwn.refl (as : List Nat) (s : State) : KeepsTwn as s s := fun _ _ _ => rfl

theorem KeepsTwn.trans {as : List Nat} (h : KeepsTwn as s t) (g : KeepsTwn as t u) : KeepsTwn as s u :=
  fun a ha hn => (g a ha hn).trans (h a ha hn)

theorem KeepsTwn.mono {as bs : List Nat} (h : KeepsTwn as s t) (g : as ⊆ bs) : KeepsTwn bs s t :=
  fun a ha hn => h a ha (fun hm => hn (g hm))

theorem KeepsTwn.of_does {ps : List Part} {bs : List Nat} (h : Does ps bs s t) (hb : .regs ∉ ps ∧ 14 ∉ bs) (as : List Nat) :
    KeepsTwn as s t := fun a ha _ => h.regs hb.1 a (by rw [ha.1]; exact hb.2)

theorem KeepsTwn.of_keepsRegs {as : List Nat} (h : KeepsRegs as s t) : KeepsTwn as s t := fun a _ ha => h a ha

theorem KeepsTwn.fld {as : List Nat} (h : KeepsTwn as s t) {a : Nat} (ha : (regBlk a = 14 ∧ a < aTWN_PLAUS 0) ∧ a ∉ as)
    (f : Fld) : t.fld a f = s.fld a f := State.fld_congr f (h a ha.1 ha.2)

theorem KeepsTwn.bit {as : List Nat} (h : KeepsTwn as s t) {a : Nat} (ha : (regBlk a = 14 ∧ a < aTWN_PLAUS 0) ∧ a ∉ as)
    (f : Fld) : t.bit a f = s.bit a f := State.bit_congr f (h a ha.1 ha.2)

/-- What writes TWN_STAT no more shows the same twin state. -/
theorem KeepsTwn.twin {as : List Nat} (h : KeepsTwn as s t) (ha : aTWN_STAT ∉ as) : t.twin = s.twin :=
  h.fld ⟨by decide, ha⟩ _

/-! ## A field of a register written -/

theorem State.fld_latch_beside (s : State) (a : Nat) (f g : Fld) (h1 : f.lo ≤ f.hi) (h2 : f.hi < 32)
    (h3 : g.hi < f.lo ∨ f.hi < g.lo) : (s.latch a f).fld a g = s.fld a g := State.fld_setFld_beside s a f g 1 h1 h2 h3

theorem State.bit_setFld_beside (s : State) (a : Nat) (f g : Fld) (v : Nat) (h1 : f.lo ≤ f.hi) (h2 : f.hi < 32)
    (h3 : g.hi < f.lo ∨ f.hi < g.lo) : (s.setFld a f v).bit a g = s.bit a g := by
  unfold State.bit; rw [State.fld_setFld_beside _ _ _ _ _ h1 h2 h3]

theorem KeepsRegs.setFld {as : List Nat} (g : KeepsRegs as s t) {a : Nat} (h : a ∈ as) (f : Fld) (v : Nat) :
    KeepsRegs as s (t.setFld a f v) := g.setReg h _

/-! ## A change of state (R373, R376) -/

theorem State.riseOwn_of_owns (h : owns s.twin = true) (hpeer : s.bit aTWN_STAT fTWN_STAT_PEER_OWN = false) :
    s.riseOwn = s.latch aTWN_STAT fTWN_STAT_OWN := if_pos (by rw [h, hpeer]; rfl)

theorem State.riseOwn_of_not (h : owns s.twin = false ∨ s.bit aTWN_STAT fTWN_STAT_PEER_OWN = true) : s.riseOwn = s :=
  if_neg (by rcases h with h | h <;> simp [h])

theorem State.riseOwn_keepsRegs (s : State) : KeepsRegs [aTWN_STAT] s s.riseOwn := by
  unfold State.riseOwn
  split
  · exact (KeepsRegs.refl _ s).latch (a := aTWN_STAT) (by simp) _
  · exact KeepsRegs.refl _ s

theorem State.riseOwn_fld (s : State) {f : Fld} (hf : 0 < f.lo) : s.riseOwn.fld aTWN_STAT f = s.fld aTWN_STAT f := by
  unfold State.riseOwn
  split
  · exact State.fld_latch_beside _ _ _ _ (by decide) (by decide) (.inr hf)
  · rfl

theorem State.riseOwn_twin (s : State) : s.riseOwn.twin = s.twin := s.riseOwn_fld (by decide)

theorem State.clearPlaus_keepsTwn (s : State) : KeepsTwn [] s s.clearPlaus := by
  intro a ha _
  have hbelow := ha.2
  have hne (w : Nat) : a ≠ aTWN_PLAUS w := by simp only [aTWN_PLAUS] at hbelow ⊢; omega
  have hfold (l : List Nat) : (l.foldl (fun t w => t.setReg (aTWN_PLAUS w) 0) s).reg a = s.reg a :=
    List.foldlRecOn (motive := fun t : State => t.reg a = s.reg a) l _ rfl
      (fun t h w _ => (State.reg_setReg_ne _ _ (hne w)).trans h)
  exact hfold _

/-- What a change of the twin state shows in TWN_STAT. -/
def State.twinShown (s : State) (st : Nat) : State :=
  if owns st then (s.setFld aTWN_STAT fTWN_STAT_STATE st).riseOwn
  else (s.setFld aTWN_STAT fTWN_STAT_STATE st).setBit aTWN_STAT fTWN_STAT_OWN false

theorem State.setTwin_of_shown (s : State) (st : Nat) : KeepsTwn [] (s.twinShown st) (s.setTwin st) := by
  unfold State.setTwin
  extract_lets -underBinder -merge -useContext s1 s2 s3
  have h2 : KeepsTwn [] (s.twinShown st) s2 := by
    unfold s2 State.twinShown
    split
    · exact .refl _ _
    · exact .of_does State.causeOff_does (by decide) _
  have h3 : KeepsTwn [] (s.twinShown st) s3 := by
    unfold s3
    split
    · exact h2.trans (.of_does State.causeOff_does (by decide) _)
    · exact h2
  split
  · exact h3.trans s3.clearPlaus_keepsTwn
  · exact h3

theorem State.twinShown_keepsRegs (s : State) (st : Nat) : KeepsRegs [aTWN_STAT] s (s.twinShown st) := by
  have h1 : KeepsRegs [aTWN_STAT] s (s.setFld aTWN_STAT fTWN_STAT_STATE st) :=
    (KeepsRegs.refl _ s).setFld (a := aTWN_STAT) (by simp) _ _
  unfold State.twinShown
  split
  · exact h1.trans (State.riseOwn_keepsRegs _)
  · exact h1.setBit (a := aTWN_STAT) (by simp) _ _

theorem State.setTwin_keepsTwn (s : State) (st : Nat) : KeepsTwn [aTWN_STAT] s (s.setTwin st) :=
  (KeepsTwn.of_keepsRegs (s.twinShown_keepsRegs st)).trans ((s.setTwin_of_shown st).mono (by simp))

theorem State.setTwin_fld_shown (s : State) (st : Nat) (f : Fld) :
    (s.setTwin st).fld aTWN_STAT f = (s.twinShown st).fld aTWN_STAT f := (s.setTwin_of_shown st).fld (by decide) f

theorem State.setTwin_twin (s : State) {st : Nat} (h : st < 16) : (s.setTwin st).twin = st := by
  have hset : (s.setFld aTWN_STAT fTWN_STAT_STATE st).twin = st :=
    (State.fld_setFld_self _ _ _ _ (by decide) (by decide)).trans (Nat.mod_eq_of_lt h)
  refine (s.setTwin_fld_shown st _).trans ?_
  unfold State.twinShown
  split
  · exact (State.riseOwn_twin _).trans hset
  · exact (State.fld_setFld_beside _ _ _ _ _ (by decide) (by decide) (by decide)).trans hset

/-- A field between STATE and OWN. -/
theorem State.setTwin_fld (s : State) (st : Nat) {f : Fld} (hf : 0 < f.lo ∧ f.hi < 28) :
    (s.setTwin st).fld aTWN_STAT f = s.fld aTWN_STAT f := by
  have hset : (s.setFld aTWN_STAT fTWN_STAT_STATE st).fld aTWN_STAT f = s.fld aTWN_STAT f :=
    State.fld_setFld_beside _ _ _ _ _ (by decide) (by decide) (.inl hf.2)
  refine (s.setTwin_fld_shown st f).trans ?_
  unfold State.twinShown
  split
  · exact (State.riseOwn_fld _ hf.1).trans hset
  · exact (State.fld_setFld_beside _ _ _ _ _ (by decide) (by decide) (.inr hf.1)).trans hset

theorem State.setTwin_bit (s : State) (st : Nat) {f : Fld} (hf : 0 < f.lo ∧ f.hi < 28) :
    (s.setTwin st).bit aTWN_STAT f = s.bit aTWN_STAT f := by
  unfold State.bit; rw [s.setTwin_fld st hf]

theorem State.setTwin_own_low (s : State) {st : Nat} (h : owns st = false) :
    (s.setTwin st).bit aTWN_STAT fTWN_STAT_OWN = false := by
  have hshown := s.setTwin_fld_shown st fTWN_STAT_OWN
  unfold State.bit
  rw [hshown]
  unfold State.twinShown
  rw [if_neg (by simp [h])]
  exact State.bit_setBit_self _ _ _ _ rfl (by decide)

theorem State.setTwin_own_high (s : State) {st : Nat} (h : owns st = true) (hst : st < 16)
    (hpeer : s.bit aTWN_STAT fTWN_STAT_PEER_OWN = false) : (s.setTwin st).bit aTWN_STAT fTWN_STAT_OWN = true := by
  have hshown := s.setTwin_fld_shown st fTWN_STAT_OWN
  have htwin : (s.setFld aTWN_STAT fTWN_STAT_STATE st).twin = st :=
    (State.fld_setFld_self _ _ _ _ (by decide) (by decide)).trans (Nat.mod_eq_of_lt hst)
  unfold State.bit
  rw [hshown]
  unfold State.twinShown
  rw [if_pos h, State.riseOwn_of_owns (by rw [htwin, h])
    ((State.bit_setFld_beside _ _ _ _ _ (by decide) (by decide) (by decide)).trans hpeer)]
  exact State.bit_latch_self _ _ _ rfl (by decide)

theorem State.setTwin_agenda (s : State) (st : Nat) : (s.setTwin st).agenda = s.agenda :=
  State.setTwin_does.same .agenda (by decide) (by decide)

theorem State.setTwin_count (s : State) (st : Nat) : (s.setTwin st).count = s.count :=
  State.setTwin_does.same .count (by decide) (by decide)

/-! ## A fault of the twin island raised -/

theorem State.joinFail_shows (s : State) : let t := s.joinFail
    t.bit aTWN_LAT fTWN_LAT_JOINFAIL = true ∧ Raises 109 islTwin s t ∧ KeepsRegs [aTWN_LAT] s t :=
  ⟨State.bit_latch_self s _ _ rfl (by decide), raises_of_count rfl _ _,
    (KeepsRegs.refl _ s).latch (a := aTWN_LAT) (by simp) _⟩

theorem State.peerLost_shows (s : State) : let t := s.peerLost
    t.bit aTWN_LAT fTWN_LAT_PEERLOST = true ∧ Raises 106 islTwin s t ∧ t.causeAt 106 0 = true ∧
      KeepsRegs [aTWN_LAT] s t ∧ s.agenda ⊆ t.agenda := by
  have hdoes : Does [.causes] [] (s.latch aTWN_LAT fTWN_LAT_PEERLOST) ((s.latch aTWN_LAT fTWN_LAT_PEERLOST).causeOn 106 0) :=
    State.causeOn_does
  have hregs : KeepsRegs [aTWN_LAT] (s.latch aTWN_LAT fTWN_LAT_PEERLOST) s.peerLost := .of_does hdoes (by decide) _
  refine ⟨?_, raises_of_count (hdoes.same .count (by decide) (by decide)) _ _, State.causeAt_causeOn _ _ _,
    ((KeepsRegs.refl _ s).latch (a := aTWN_LAT) (by simp) _).trans hregs, ?_⟩
  · exact (State.bit_congr _ (hdoes.regs (by decide) _ (by decide))).trans (State.bit_latch_self s _ _ rfl (by decide))
  · rw [show s.agenda = ((s.latch aTWN_LAT fTWN_LAT_PEERLOST).causeOn 106 0).agenda from
      (hdoes.same .agenda (by decide) (by decide)).symm]
    exact subset_insertDue _ _

end Sys2Proof.Machine
end

section
/-! HOLDOFF, the loss of a standby and a join that fails (R376, R393, R394): what each shows, with every driver off and what is
held still held. -/
namespace Sys2Proof.Machine

variable {s t u : State}

/-! ## What is held stays held -/

/-- Neither a driver's enable nor the source of the loops' results changes, and what is held stays held. -/
structure KeepsDrivers (s t : State) : Prop where
  ctl : ∀ n c, t.reg (aCH_CTL n c) = s.reg (aCH_CTL n c)
  src : t.reg aLPE_SRC = s.reg aLPE_SRC
  held : s.agenda ⊆ t.agenda

theorem KeepsDrivers.refl (s : State) : KeepsDrivers s s := ⟨fun _ _ => rfl, rfl, fun _ => id⟩

theorem KeepsDrivers.trans (h : KeepsDrivers s t) (g : KeepsDrivers t u) : KeepsDrivers s u :=
  ⟨fun n c => (g.ctl n c).trans (h.ctl n c), g.src.trans h.src, List.Subset.trans h.held g.held⟩

theorem KeepsDrivers.ite {c : Prop} [Decidable c] (h : c → KeepsDrivers s t) (g : ¬ c → KeepsDrivers s u) :
    KeepsDrivers s (if c then t else u) := by
  split
  · exact h ‹_›
  · exact g ‹_›

theorem KeepsDrivers.foldl {α : Type} {f : State → α → State} (hf : ∀ t x, KeepsDrivers t (f t x)) (l : List α)
    (h : KeepsDrivers s t) : KeepsDrivers s (l.foldl f t) :=
  List.foldlRecOn (motive := KeepsDrivers s) _ _ h (fun u hu x _ => hu.trans (hf u x))

theorem KeepsDrivers.of_held {ps : List Part} {bs : List Nat} (h : Does ps bs s t) (hps : .regs ∉ ps ∧ 64 ∉ bs ∧ 6 ∉ bs)
    (hheld : s.agenda ⊆ t.agenda) : KeepsDrivers s t :=
  ⟨fun _ _ => h.regs hps.1 _ (by rw [adr_CH_CTL.here]; exact hps.2.1), h.regs hps.1 _ hps.2.2, hheld⟩

theorem KeepsDrivers.of_does {ps : List Part} {bs : List Nat} (h : Does ps bs s t)
    (hps : .regs ∉ ps ∧ 64 ∉ bs ∧ 6 ∉ bs ∧ .agenda ∉ ps) : KeepsDrivers s t :=
  .of_held h ⟨hps.1, hps.2.1, hps.2.2.1⟩
    (by rw [show t.agenda = s.agenda from h.same .agenda hps.2.2.2 (by decide)]; exact fun _ => id)

theorem KeepsDrivers.setReg (h : KeepsDrivers s t) {a : Nat} (ha : (∀ n c, aCH_CTL n c ≠ a) ∧ aLPE_SRC ≠ a)
    (v : Word) : KeepsDrivers s (t.setReg a v) :=
  ⟨fun n c => (State.reg_setReg_ne _ _ (ha.1 n c)).trans (h.ctl n c), (State.reg_setReg_ne _ _ ha.2).trans h.src, h.held⟩

theorem KeepsDrivers.latch (h : KeepsDrivers s t) {a : Nat} (ha : (∀ n c, aCH_CTL n c ≠ a) ∧ aLPE_SRC ≠ a)
    (f : Fld) : KeepsDrivers s (t.latch a f) := ⟨(h.setReg ha _).ctl, (h.setReg ha _).src, h.held⟩

theorem KeepsDrivers.raise (h : KeepsDrivers s t) (fs : Fin 128) (isl : Fin 80) : KeepsDrivers s (t.raise fs isl) :=
  ⟨h.ctl, h.src, List.Subset.trans h.held (subset_insertDue _ _)⟩

theorem KeepsDrivers.drvEn (h : KeepsDrivers s t) (ch : Nat) : t.drvEn ch = s.drvEn ch := State.bit_congr _ (h.ctl _ _)

theorem KeepsDrivers.raises (h : KeepsDrivers t u) {fs : Fin 128} {isl : Fin 80} (g : Raises fs isl s t) :
    Raises fs isl s u := h.held g

/-! ## Sequences that end (R364) -/

theorem State.muOff_keepsDrivers (s : State) (n k : Nat) : KeepsDrivers s (s.muOff n k) := by
  have hctl : KeepsDrivers s (s.setFld (aMU_CTL n k) fMU_CTL_EN 0) :=
    (KeepsDrivers.refl s).setReg ⟨fun m c => by simp only [aCH_CTL, aMU_CTL]; omega, by simp only [aLPE_SRC, aMU_CTL]; omega⟩ _
  exact (hctl.trans (.of_does State.setMu_does (by decide))).trans (.of_does State.dropQuant_does (by decide))

theorem State.unit8Off_keepsDrivers (s : State) (q : Nat) : KeepsDrivers s (s.unit8Off q) :=
  .ite (fun _ => s.muOff_keepsDrivers _ _) (fun _ => .refl s)

theorem State.startCode_keepsDrivers (s : State) (n len : Nat) (bits : BitVec 64) :
    KeepsDrivers s (s.startCode n len bits) := by
  unfold State.startCode
  extract_lets -underBinder -merge -useContext busy div first c shown s1
  have h1 : KeepsDrivers s shown :=
    (KeepsDrivers.refl s).latch ⟨fun m c => by simp only [aCH_CTL, aISL_STAT]; omega, by simp only [aLPE_SRC, aISL_STAT]; omega⟩ _
  have hcoll : KeepsDrivers s (s.latch (aISL_LAT n) fISL_LAT_PAT_COLL) :=
    (KeepsDrivers.refl s).latch ⟨fun m c => by simp only [aCH_CTL, aISL_LAT]; omega, by simp only [aLPE_SRC, aISL_LAT]; omega⟩ _
  exact .ite (fun _ => .refl s) (fun _ => .ite (fun _ => hcoll.raise _ _)
    (fun _ => .ite (fun _ => ⟨h1.ctl, h1.src, h1.held⟩) (fun _ => ⟨h1.ctl, h1.src, h1.held⟩)))

theorem State.seqRelease_keepsDrivers (s : State) (q : Nat) : KeepsDrivers s (s.seqRelease q) :=
  ((KeepsDrivers.of_does State.setPhase_does (by decide)).trans (.of_does State.setSeqn_does (by decide))).trans
    (.ite (fun _ => .refl _) (fun _ => State.startCode_keepsDrivers ..))

theorem State.setOffset_keepsDrivers (s : State) (ch q : Nat) (v : Int) : KeepsDrivers s (s.setOffset ch q v) := by
  unfold State.setOffset
  extract_lets -underBinder -merge -useContext x s1 w s2 served
  have hset {u : State} {a : Nat} (h : KeepsDrivers s u) (ha : aLCH_DV 0 - 0x40 ≤ a ∧ a < 0x800000) (v : Word) :
      KeepsDrivers s (u.setReg a v) :=
    h.setReg ⟨fun m c => by simp only [aCH_CTL, aLCH_DV] at ha ⊢; omega, by simp only [aLPE_SRC, aLCH_DV] at ha ⊢; omega⟩ v
  have h1 : KeepsDrivers s s1 := .of_does State.setLch_does (by decide)
  have h2 : KeepsDrivers s s2 :=
    .ite (fun _ => hset h1 (by simp only [aLCH_DV]; omega) _) (fun _ => hset h1 (by simp only [aLCH_DV, aLCH_DI]; omega) _)
  exact hset h2 (by simp only [aLCH_DV, aLCH_STAT]; omega) _

theorem State.seqEnd_keepsDrivers (s : State) (q cause : Nat) (ownLost : Bool) : KeepsDrivers s (s.seqEnd q cause ownLost) := by
  unfold State.seqEnd
  extract_lets -underBinder -merge -useContext x s1 ch sub s2
  have hseqn : ∀ (u : State) y, KeepsDrivers u (u.setSeqn q y) := fun u y => .of_does State.setSeqn_does (by decide)
  have h1 : KeepsDrivers s s1 := (KeepsDrivers.of_does (ps := []) (bs := [15])
    (Does.setFld adr_CALQ_STAT (by decide) Does.refl) (by decide)).raise _ _
  have h2 : KeepsDrivers s s2 := ((h1.trans (State.unit8Off_keepsDrivers _ _)).trans
    (.of_does State.setPhase_does (by decide))).trans (hseqn _ _)
  refine .ite (fun _ => .refl s) (fun _ => .ite (fun _ => ?lost) (fun _ => .ite (fun _ => ?released) (fun _ => ?other)))
  case lost => exact .ite (fun _ => h2.trans (State.setOffset_keepsDrivers ..)) (fun _ => h2)
  case released => exact (h1.trans (hseqn _ _)).trans (State.seqRelease_keepsDrivers ..)
  case other => exact .ite (fun _ => h1.trans (hseqn _ _)) (fun _ => h2)

theorem State.seqEndAll_keepsDrivers (s : State) (cause : Nat) (ownLost : Bool) :
    KeepsDrivers s (s.seqEndAll cause ownLost) :=
  .foldl (fun t q => t.seqEnd_keepsDrivers q cause ownLost) _ (.refl s)

theorem State.seqEndAll_keepsTwn (s : State) (cause : Nat) (ownLost : Bool) : KeepsTwn [] s (s.seqEndAll cause ownLost) :=
  .of_does State.seqEndAll_does (by decide) _

/-! ## HOLDOFF -/

/-- The drivers of every channel off. -/
def State.allDriversOff (s : State) : State := (List.range 256).foldl (fun s ch => s.driversOff ch) s

theorem State.allDriversOff_does (s : State) : Does [.chans, .pins] [64] s s.allDriversOff :=
  Does.foldl (fun _ _ => State.driversOff_does) Does.refl

theorem State.allDriversOff_drvEn (s : State) (c : Chan) : s.allDriversOff.drvEn c.val = false :=
  foldl_of_mem (P := fun t : State => t.drvEn c.val = false) (Q := fun _ => True) (List.mem_range.mpr c.isLt) trivial
    (fun _ _ => id) (fun t _ => (t.driversOff_shows _).1) (fun t _ h => (t.driversOff_staysSafe _).off _ h)

theorem State.enterHoldoff_eq (s : State) : s.enterHoldoff = (s.setTwin twHoldoff).allDriversOff.seqEndAll 10 true := rfl

theorem State.enterHoldoff_of_setTwin (s : State) : KeepsTwn [] (s.setTwin twHoldoff) s.enterHoldoff :=
  (KeepsTwn.of_does (State.allDriversOff_does _) (by decide) _).trans (State.seqEndAll_keepsTwn _ _ _)

theorem State.enterHoldoff_keepsTwn (s : State) : KeepsTwn [aTWN_STAT] s s.enterHoldoff :=
  (s.setTwin_keepsTwn _).trans (s.enterHoldoff_of_setTwin.mono (by simp))

theorem State.enterHoldoff_shows (s : State) : let t := s.enterHoldoff
    t.twin = twHoldoff ∧ t.bit aTWN_STAT fTWN_STAT_OWN = false ∧ (∀ c : Chan, t.drvEn c.val = false) ∧
      s.agenda ⊆ t.agenda ∧ t.count = s.count ∧ KeepsMemory s t := by
  have hkeeps := s.enterHoldoff_of_setTwin
  have hseq := (s.setTwin twHoldoff).allDriversOff.seqEndAll_keepsDrivers 10 true
  have hoff : (s.setTwin twHoldoff).allDriversOff.agenda = s.agenda :=
    ((State.allDriversOff_does _).same .agenda (by decide) (by decide)).trans (s.setTwin_agenda _)
  refine ⟨(hkeeps.twin (by simp)).trans (s.setTwin_twin (by decide)),
    (hkeeps.bit (by decide) _).trans (s.setTwin_own_low rfl), fun c => ?_, ?_,
    State.enterHoldoff_does.same .count (by decide) (by decide), .of_does State.enterHoldoff_does (by decide)⟩
  · rw [s.enterHoldoff_eq, hseq.drvEn]
    exact State.allDriversOff_drvEn _ c
  · rw [← hoff]
    exact hseq.held

/-! ## An active alone (R394) -/

theorem State.postAll_keepsDrivers (s : State) (set : BitVec 64) (at_ : Count) : KeepsDrivers s (s.postAll set at_) :=
  .foldl (fun t _ => .of_held State.issue_does (by decide) (t.issue_held _ _ _ _ _)) _ (.refl s)

theorem State.loseStandby_of_setTwin (s : State) : KeepsTwn [aTWN_LAT] (s.setTwin twSolo) s.loseStandby :=
  (KeepsTwn.of_keepsRegs (State.peerLost_shows _).2.2.2.1).trans (.of_does State.postAll_does (by decide) _)

theorem State.loseStandby_keepsTwn (s : State) : KeepsTwn [aTWN_STAT, aTWN_LAT] s s.loseStandby :=
  ((s.setTwin_keepsTwn _).mono (by simp)).trans (s.loseStandby_of_setTwin.mono (by simp))

theorem State.loseStandby_shows (s : State) : let t := s.loseStandby
    t.twin = twSolo ∧ t.bit aTWN_LAT fTWN_LAT_PEERLOST = true ∧ Raises 106 islTwin s t ∧ t.causeStands 106 = true ∧
      t.count = s.count ∧ KeepsMemory s t := by
  obtain ⟨hlat, hraise, hcause, -, -⟩ := (s.setTwin twSolo).peerLost_shows
  have hpost := (s.setTwin twSolo).peerLost.postAll_keepsDrivers ePeer s.count
  have hdoes : Does [.agenda, .free, .fresh] [1, 3] (s.setTwin twSolo).peerLost s.loseStandby := State.postAll_does
  have hcauses : s.loseStandby.causes = (s.setTwin twSolo).peerLost.causes := hdoes.same .causes (by decide) (by decide)
  refine ⟨(s.loseStandby_of_setTwin.twin (by decide)).trans (s.setTwin_twin (by decide)),
    (State.bit_congr _ (hdoes.regs (by decide) _ (by decide))).trans hlat, hpost.raises ?_,
    State.causeStands_of_causeAt (inst := 0) (by unfold State.causeAt; rw [hcauses]; exact hcause),
    State.loseStandby_does.same .count (by decide) (by decide), .of_does State.loseStandby_does (by decide)⟩
  unfold Raises at hraise ⊢
  rwa [s.setTwin_count] at hraise

theorem State.loseStandby_bit (s : State) {f : Fld} (hf : 0 < f.lo ∧ f.hi < 28) :
    s.loseStandby.bit aTWN_STAT f = s.bit aTWN_STAT f :=
  (s.loseStandby_of_setTwin.bit (by decide) f).trans (s.setTwin_bit _ hf)

/-! ## A join that fails (R393) -/

/-- The state in which a join is shown as failed, before the module leaves it. -/
def State.joinFailed (s : State) : State := (s.setFld aTWN_JOIN fTWN_JOIN_PHASE 5).joinFail

theorem State.joinFailed_does (s : State) : Does [.agenda, .fresh] [14] s s.joinFailed :=
  State.joinFail_does.call (by decide) (Does.setFld adr_TWN_JOIN (by decide) Does.refl)

theorem State.joinFailed_shows (s : State) : let t := s.joinFailed
    t.fld aTWN_JOIN fTWN_JOIN_PHASE = 5 ∧ t.bit aTWN_LAT fTWN_LAT_JOINFAIL = true ∧ Raises 109 islTwin s t ∧
      KeepsRegs [aTWN_JOIN, aTWN_LAT] s t := by
  obtain ⟨hlat, hraise, hkeeps⟩ := (s.setFld aTWN_JOIN fTWN_JOIN_PHASE 5).joinFail_shows
  exact ⟨(State.fld_congr _ (hkeeps _ (by decide))).trans (State.fld_setFld_self s _ _ _ (by decide) (by decide)), hlat,
    hraise, ((KeepsRegs.refl _ s).setFld (a := aTWN_JOIN) (by simp) _ _).trans (hkeeps.mono (by simp))⟩

theorem State.joinFailed_twin (s : State) : s.joinFailed.twin = s.twin :=
  State.fld_congr _ (s.joinFailed_shows.2.2.2 _ (by decide))

theorem State.failJoin_joiner (h : s.isStandby = true) : s.failJoin = s.joinFailed.enterHoldoff := if_pos h

theorem State.failJoin_solo (h : s.twin = twSolo) : s.failJoin = s.joinFailed :=
  (if_neg (by simp [State.isStandby, h])).trans (if_neg (by rw [h]; decide))

end Sys2Proof.Machine
end

section
/-! Negotiation, OWN and the loss of a twin (O31, O59). -/
namespace Sys2Proof.Machine

variable {s t u : State} {f : HelloFrame}

/-! ## HELLO and negotiation (R377, R379, R393) -/

/-- The shipped charge is read off registers of the pin islands. -/
theorem State.shipCharge_congr (h : ∀ a, regBlk a = 64 → t.reg a = s.reg a) : t.shipCharge = s.shipCharge := by
  simp only [State.shipCharge, State.boundUnit, State.muQty, State.muChan, State.muHop, State.muGph, State.bit, State.fld,
    h _ adr_MU_CTL.here, h _ adr_MU_BIND.here, h _ adr_MU_HOP.here, h _ adr_MU_GPH.here]

/-- The state in which a HELLO has shown the twin's state. -/
def State.helloSeen (s : State) (f : HelloFrame) : State :=
  let s1 := ((s.setFld aTWN_STAT fTWN_STAT_PEER f.state.toNat).peerHeard).latch aTWN_STAT fTWN_STAT_PRES
  if owns f.state.toNat then s1.latch aTWN_STAT fTWN_STAT_PEER_OWN else s1

theorem State.helloSeen_does (s : State) (f : HelloFrame) : Does [.fresh, .twn] [14] s (s.helloSeen f) := by
  have h1 : Does [.fresh, .twn] [14] s
      (((s.setFld aTWN_STAT fTWN_STAT_PEER f.state.toNat).peerHeard).latch aTWN_STAT fTWN_STAT_PRES) :=
    Does.latch adr_TWN_STAT (by decide) (State.peerHeard_does.call (by decide) (Does.setFld adr_TWN_STAT (by decide) Does.refl))
  exact Does.ite (fun _ => Does.latch adr_TWN_STAT (by decide) h1) (fun _ => h1)

theorem State.helloSeen_shows (s : State) (f : HelloFrame) : let t := s.helloSeen f
    t.fld aTWN_STAT fTWN_STAT_PEER = f.state.toNat ∧ t.bit aTWN_STAT fTWN_STAT_LINK = true ∧ t.twn.rxAt = some s.count ∧
      t.twn.joinOrdered = s.twn.joinOrdered ∧ t.twin = s.twin ∧
      (owns f.state.toNat = false → t.bit aTWN_STAT fTWN_STAT_PEER_OWN = s.bit aTWN_STAT fTWN_STAT_PEER_OWN) ∧
      t.bit aTWN_STAT fTWN_STAT_OWN = s.bit aTWN_STAT fTWN_STAT_OWN ∧ KeepsRegs [aTWN_STAT] s t := by
  intro t
  let s0 := s.setFld aTWN_STAT fTWN_STAT_PEER f.state.toNat
  let s1 := s0.peerHeard.latch aTWN_STAT fTWN_STAT_PRES
  have hfld {g : Fld} (hlink : g.hi < 3 ∨ 3 < g.lo) (hpres : g.hi < 2 ∨ 2 < g.lo) :
      s1.fld aTWN_STAT g = s0.fld aTWN_STAT g :=
    (State.fld_latch_beside _ _ _ _ (by decide) (by decide) hpres).trans
      (State.fld_latch_beside s0 _ _ _ (by decide) (by decide) hlink)
  have hbeside {g : Fld} (h : g.hi < 24 ∨ 27 < g.lo) : s0.fld aTWN_STAT g = s.fld aTWN_STAT g :=
    State.fld_setFld_beside _ _ _ _ _ (by decide) (by decide) h
  have hlast {g : Fld} (h : g.hi < 1 ∨ 1 < g.lo) : t.fld aTWN_STAT g = s1.fld aTWN_STAT g := by
    unfold t State.helloSeen
    split
    · exact State.fld_latch_beside s1 _ _ _ (by decide) (by decide) h
    · rfl
  have hpeer : s0.fld aTWN_STAT fTWN_STAT_PEER = f.state.toNat :=
    (State.fld_setFld_self _ _ _ _ (by decide) (by decide)).trans (Nat.mod_eq_of_lt f.state.isLt)
  have hlink : s1.bit aTWN_STAT fTWN_STAT_LINK = true :=
    (State.bit_latch_beside _ _ _ _ (by decide) (by decide) (by decide)).trans (State.bit_latch_self s0 _ _ rfl (by decide))
  have h1 : KeepsRegs [aTWN_STAT] s s1 := (((KeepsRegs.refl _ s).setFld (a := aTWN_STAT) (by simp) _ _).latch
    (a := aTWN_STAT) (by simp) fTWN_STAT_LINK).latch (a := aTWN_STAT) (by simp) _
  refine ⟨(hlast (by decide)).trans ((hfld (by decide) (by decide)).trans hpeer), ?_, ?_, ?_,
    (hlast (by decide)).trans ((hfld (by decide) (by decide)).trans (hbeside (by decide))), fun hlow => ?_, ?_, ?_⟩
  · exact (congrArg (· != 0) (hlast (by decide))).trans hlink
  · unfold t State.helloSeen; split <;> rfl
  · unfold t State.helloSeen; split <;> rfl
  · have ht : t = s1 := if_neg (by simp [hlow])
    rw [ht]
    exact congrArg (· != 0) ((hfld (by decide) (by decide)).trans (hbeside (by decide)))
  · exact congrArg (· != 0) ((hlast (by decide)).trans ((hfld (by decide) (by decide)).trans (hbeside (by decide))))
  · unfold t State.helloSeen
    split
    · exact h1.latch (a := aTWN_STAT) (by simp) _
    · exact h1

theorem State.startJoin_begins (h : s.shipCharge ≤ 7680000000) : s.startJoin = s.startCopy := if_neg (by omega)

theorem State.startJoin_fails (h : 7680000000 < s.shipCharge) : s.startJoin = s.joinFailed := if_pos h

theorem State.startCopy_shows (s : State) : let t := s.startCopy
    t.fld aTWN_JOIN fTWN_JOIN_PHASE = 1 ∧ t.twn.joinOrdered = false ∧ KeepsRegs [aTWN_JOIN] s t := by
  refine ⟨?_, rfl, keepsRegs_setReg s _ _⟩
  have hreg : s.startCopy.reg aTWN_JOIN = fldWord fTWN_JOIN_PHASE 1 := State.reg_setReg_self s _ _
  unfold State.fld
  rw [hreg]
  decide

theorem State.enterSolo_shows (s : State) : let t := s.enterSolo
    t.twin = twSolo ∧ t.reg aLPE_SRC = 0 ∧ t.reg aTBS_SRC = (if s.bit aTBS_CTL fTBS_CTL_MPAIR then 0 else 1) ∧
      (s.bit aTWN_STAT fTWN_STAT_PEER_OWN = false → t.bit aTWN_STAT fTWN_STAT_OWN = true) := by
  have hkeeps : KeepsTwn [] (s.setTwin twSolo) s.enterSolo :=
    .of_does (ps := []) (bs := [1, 6]) (Does.setReg adr_TBS_SRC (by decide) (Does.setReg adr_LPE_SRC (by decide) Does.refl))
      (by decide) _
  refine ⟨(hkeeps.twin (by simp)).trans (s.setTwin_twin (by decide)), ?_, ?_,
    fun h => (hkeeps.bit (by decide) _).trans (s.setTwin_own_high rfl (by decide) h)⟩
  · exact (State.reg_setReg_ne _ _ (by decide)).trans (State.reg_setReg_self _ _ _)
  · exact State.reg_setReg_self _ _ _

/-- The registers that a module sets to read its results and its time from the twin. -/
def State.joining (s : State) : State := ((s.setTwin twJoining).setReg aLPE_SRC 1).setReg aTBS_SRC 2

theorem State.enterJoining_eq (s : State) : s.enterJoining = (s.joining.startCopy.seqEndAll 10 true).sendHello := rfl

theorem State.enterJoining_shows (s : State) : let t := s.enterJoining
    t.twin = twJoining ∧ t.reg aLPE_SRC = 1 ∧ t.reg aTBS_SRC = 2 ∧ t.fld aTWN_JOIN fTWN_JOIN_PHASE = 1 ∧
      t.bit aTWN_STAT fTWN_STAT_OWN = false ∧ t.count = s.count ∧ KeepsMemory s t := by
  have hcopy : KeepsTwn [aTWN_JOIN] (s.setTwin twJoining) s.joining.startCopy :=
    (KeepsTwn.of_does (ps := []) (bs := [1, 6])
      (Does.setReg adr_TBS_SRC (by decide) (Does.setReg adr_LPE_SRC (by decide) Does.refl)) (by decide) _).trans
      (.of_keepsRegs s.joining.startCopy_shows.2.2)
  have hend : KeepsTwn [] s.joining.startCopy s.enterJoining :=
    (State.seqEndAll_keepsTwn _ _ _).trans (.of_does State.sendHello_does (by decide) _)
  have hkeeps := hcopy.trans (hend.mono (by simp))
  refine ⟨(hkeeps.twin (by decide)).trans (s.setTwin_twin (by decide)), ?_, ?_,
    (hend.fld (by decide) _).trans s.joining.startCopy_shows.1, (hkeeps.bit (by decide) _).trans (s.setTwin_own_low rfl),
    State.enterJoining_does.same .count (by decide) (by decide), .of_does State.enterJoining_does (by decide)⟩
  · rw [s.enterJoining_eq, State.sendHello_does.regs (by decide) _ (by decide), (State.seqEndAll_keepsDrivers ..).src]
    rw [s.joining.startCopy_shows.2.2 _ (by decide)]
    exact (State.reg_setReg_ne _ _ (by decide)).trans (State.reg_setReg_self _ _ _)
  · rw [s.enterJoining_eq, State.sendHello_does.regs (by decide) _ (by decide),
      State.seqEndAll_does.regs (by decide) _ (by decide), s.joining.startCopy_shows.2.2 _ (by decide)]
    exact State.reg_setReg_self _ _ _

end Sys2Proof.Machine
end

section
/-! The commands of negotiation and of the twin's presence (O31, O59). -/
namespace Sys2Proof.Machine

variable {s t u : State} {f : HelloFrame}

/-! ## HELLO (R377, R379, R393) -/

section
variable (hneg : s.twin = twNegotiate)
include hneg

theorem exec_hello_other (hother : f.side = s.bit aTWN_CFG fTWN_CFG_SIDE ∨ f.digest ≠ s.tdig ∨ f.csDigest ≠ s.csDig) :
    exec (.hello f) s = .next ((s.helloSeen f).setTwin twDetached).joinFail := (if_pos hneg).trans (if_pos hother)

variable (hsame : ¬ (f.side = s.bit aTWN_CFG fTWN_CFG_SIDE ∨ f.digest ≠ s.tdig ∨ f.csDigest ≠ s.csDig))
include hsame

theorem exec_hello_joins
    (h : owns f.state.toNat = true ∨ s.bit aTWN_CFG fTWN_CFG_SIDE ≠ s.bit aTWN_CFG fTWN_CFG_PREFER) :
    exec (.hello f) s = .next (s.helloSeen f).enterJoining := by
  refine (if_pos hneg).trans ((if_neg hsame).trans ?_)
  by_cases howns : owns f.state.toNat = true
  · exact if_pos howns
  · exact (if_neg howns).trans (if_neg (h.resolve_left howns))

theorem exec_hello_solo (howns : owns f.state.toNat = false)
    (hside : s.bit aTWN_CFG fTWN_CFG_SIDE = s.bit aTWN_CFG fTWN_CFG_PREFER) :
    exec (.hello f) s = .next (s.helloSeen f).enterSolo :=
  (if_pos hneg).trans ((if_neg hsame).trans ((if_neg (by simp [howns])).trans (if_pos hside)))
end

theorem exec_hello_admits (hsolo : s.twin = twSolo) (hjoining : f.state.toNat = twJoining) (hjoins : s.joins = false)
    (hauto : s.bit aTWN_CFG fTWN_CFG_AUTOJOIN = true ∨ s.twn.joinOrdered = true) :
    exec (.hello f) s = .next (s.helloSeen f).startJoin := by
  have hpeer : f.state.toNat ≠ twNegotiate := by rw [hjoining]; decide
  refine (if_neg (by rw [hsolo]; decide)).trans ((if_pos hsolo).trans ((if_pos ⟨hjoining, hjoins, hauto⟩).trans ?_))
  exact congrArg (fun u : State => Host.Outcome.next u.startJoin) (if_neg hpeer)

/-- A HELLO that decides nothing: its state, and an answer where the twin negotiates. -/
theorem exec_hello_shows (hneg : s.twin ≠ twNegotiate) (hadmits : ¬ (s.twin = twSolo ∧ f.state.toNat = twJoining ∧
    s.joins = false ∧ (s.bit aTWN_CFG fTWN_CFG_AUTOJOIN = true ∨ s.twn.joinOrdered = true))) :
    exec (.hello f) s = .next (s.helloSeen f) ∨ exec (.hello f) s = .next (s.helloSeen f).sendHello := by
  by_cases hsolo : s.twin = twSolo
  · have hexec : exec (.hello f) s =
        .next (if f.state.toNat = twNegotiate then (s.helloSeen f).sendHello else s.helloSeen f) :=
      (if_neg hneg).trans ((if_pos hsolo).trans (if_neg (fun h => hadmits ⟨hsolo, h⟩)))
    split at hexec
    · exact .inr hexec
    · exact .inl hexec
  · exact .inl ((if_neg hneg).trans (if_neg hsolo))

/-! ## PEER_OWN, PRES and silence (R373, R374, R388, R394) -/

/-- The state in which PEER_OWN has been seen low. -/
def State.peerLow (s : State) : State := (s.setBit aTWN_STAT fTWN_STAT_PEER_OWN false).causeOff 108 0

theorem State.peerLow_shows (s : State) : let t := s.peerLow
    t.bit aTWN_STAT fTWN_STAT_PEER_OWN = false ∧ t.twin = s.twin ∧
      t.bit aTWN_STAT fTWN_STAT_OWN = s.bit aTWN_STAT fTWN_STAT_OWN ∧ KeepsRegs [aTWN_STAT] s t :=
  ⟨State.bit_setBit_self s _ _ _ rfl (by decide), State.fld_setFld_beside s _ _ _ _ (by decide) (by decide) (by decide),
    State.bit_setBit_beside s _ _ _ _ (by decide) (by decide) (by decide),
    (KeepsRegs.refl _ s).setBit (a := aTWN_STAT) (by simp) _ _⟩

theorem exec_peerOwnLow_takes (h : s.twin = twStandby) (hcol : s.colHeld = false) : exec .peerOwnLow s =
    .next (s.peerLow.hold (.island islTwin) (s.count + cyc 96) (.cmd (.colApply 4))) := if_pos ⟨h, hcol⟩

theorem exec_peerOwnLow_shows (h : s.twin ≠ twStandby ∨ s.colHeld = true) :
    exec .peerOwnLow s = .next s.peerLow.riseOwn :=
  if_neg (fun ⟨hst, hcol⟩ => h.elim (fun g => g hst) (fun g => by simp [hcol] at g))

/-- The state in which a conflict of OWN is recorded (R374). -/
def State.ownConflicted (s : State) : State :=
  (((s.latch aTWN_STAT fTWN_STAT_PEER_OWN).latch aTWN_LAT fTWN_LAT_OWNCONF).causeOn 108 0).raise 108 islTwin

theorem State.ownConflicted_shows (s : State) : let t := s.ownConflicted
    t.twin = s.twin ∧ t.bit aTWN_STAT fTWN_STAT_OWN = s.bit aTWN_STAT fTWN_STAT_OWN ∧
      t.bit aTWN_LAT fTWN_LAT_OWNCONF = true ∧ Raises 108 islTwin s t ∧ t.causeStands 108 = true ∧
      KeepsRegs [aTWN_STAT, aTWN_LAT] s t ∧ KeepsMemory s t := by
  let s1 := (s.latch aTWN_STAT fTWN_STAT_PEER_OWN).latch aTWN_LAT fTWN_LAT_OWNCONF
  have hcause : Does [.causes] [] s1 (s1.causeOn 108 0) := State.causeOn_does
  have hreg (a : Nat) : s.ownConflicted.reg a = s1.reg a := hcause.regs (by decide) a (by simp)
  have hstat : s1.reg aTWN_STAT = (s.latch aTWN_STAT fTWN_STAT_PEER_OWN).reg aTWN_STAT := State.reg_latch_ne _ _ (by decide)
  refine ⟨(State.fld_congr _ ((hreg _).trans hstat)).trans (State.fld_latch_beside s _ _ _ (by decide) (by decide) (by decide)),
    (State.bit_congr _ ((hreg _).trans hstat)).trans (State.bit_latch_beside s _ _ _ (by decide) (by decide) (by decide)),
    (State.bit_congr _ (hreg _)).trans (State.bit_latch_self _ _ _ rfl (by decide)),
    raises_of_count (hcause.same .count (by decide) (by decide)) _ _, State.causeStands_of_causeAt (State.causeAt_causeOn s1 _ _),
    ?_, ?_⟩
  · exact (((KeepsRegs.refl _ s).latch (a := aTWN_STAT) (by simp) _).latch (a := aTWN_LAT) (by simp) _).trans
      (fun a _ => hreg a)
  · exact (KeepsMemory.of_fields (t := s1) rfl rfl rfl).trans (.of_does (ps := [.agenda, .causes]) (bs := [])
      (State.raise_does.call (by decide) (hcause.mono (by decide))) (by decide))

theorem exec_ownConflict_sideA (hown : s.bit aTWN_STAT fTWN_STAT_OWN = true) (hside : s.bit aTWN_CFG fTWN_CFG_SIDE = false) :
    exec .ownConflict s = .next s.ownConflicted :=
  (if_pos hown).trans (congrArg Host.Outcome.next (if_neg (by simp [hside])))

theorem exec_ownConflict_sideB (hown : s.bit aTWN_STAT fTWN_STAT_OWN = true) (hside : s.bit aTWN_CFG fTWN_CFG_SIDE = true) :
    exec .ownConflict s = .next s.ownConflicted.enterHoldoff :=
  (if_pos hown).trans (congrArg Host.Outcome.next (if_pos hside))

/-- A conflict at SIDE B, which drops OWN (R374). -/
theorem State.ownDropped_shows (s : State) : let t := s.ownConflicted.enterHoldoff
    t.twin = twHoldoff ∧ t.bit aTWN_STAT fTWN_STAT_OWN = false ∧ (∀ c : Chan, t.drvEn c.val = false) ∧
      t.bit aTWN_LAT fTWN_LAT_OWNCONF = true ∧ Raises 108 islTwin s t ∧ KeepsMemory s t := by
  obtain ⟨-, -, hlat, hraise, -, -, hmem⟩ := s.ownConflicted_shows
  obtain ⟨htwin, hown, hoff, hheld, -, hmem'⟩ := s.ownConflicted.enterHoldoff_shows
  exact ⟨htwin, hown, hoff, (s.ownConflicted.enterHoldoff_keepsTwn.bit (by decide) _).trans hlat, hheld hraise,
    hmem.trans hmem'⟩

theorem exec_ownConflict_none (hown : s.bit aTWN_STAT fTWN_STAT_OWN = false) :
    exec .ownConflict s = .next (s.latch aTWN_STAT fTWN_STAT_PEER_OWN) := if_neg (by simp [hown])

/-- A bit between STATE and OWN of TWN_STAT written, as PRES and LINK are. -/
theorem State.setStat_shows (s : State) {g : Fld} (hg : 0 < g.lo ∧ g.lo = g.hi ∧ g.hi < 24) (b : Bool) :
    let t := s.setBit aTWN_STAT g b
    t.bit aTWN_STAT g = b ∧ t.twin = s.twin ∧ KeepsRegs [aTWN_STAT] s t :=
  ⟨State.bit_setBit_self s _ _ _ hg.2.1 (by omega),
    State.fld_setFld_beside s _ _ _ _ hg.2.1.le (by omega) (.inr (lt_of_lt_of_le hg.2.2 (by decide))),
    (KeepsRegs.refl _ s).setBit (a := aTWN_STAT) (by simp) _ _⟩

theorem exec_presNHigh_active (h : s.twin = twActive) :
    exec .presNHigh s = .next (s.setBit aTWN_STAT fTWN_STAT_PRES false).loseStandby := if_pos h

theorem exec_presNHigh_joins (h : s.twin = twSolo) (hjoins : s.joins = true) :
    exec .presNHigh s = .next (s.setBit aTWN_STAT fTWN_STAT_PRES false).failJoin :=
  (if_neg (by rw [h]; decide)).trans (if_pos ⟨h, hjoins⟩)

theorem exec_presNHigh_shows (h : s.twin ≠ twActive) (hsolo : s.twin ≠ twSolo ∨ s.joins = false) :
    exec .presNHigh s = .next (s.setBit aTWN_STAT fTWN_STAT_PRES false) :=
  (if_neg h).trans (if_neg (fun ⟨h1, h2⟩ => hsolo.elim (fun g => g h1) (fun g => by simp [h2] at g)))

section
variable (hquiet : s.quietFor s.twn.rxAt 450 = true)
include hquiet

theorem exec_peerFrameTimeout_quiet : exec .peerFrameTimeout s = (
    let s1 := s.setBit aTWN_STAT fTWN_STAT_LINK false
    if s.twin = twStandby then
      if s.bit aTWN_STAT fTWN_STAT_PEER_OWN then .next s1.enterHoldoff
      else if s.colHeld then .next s1
      else .next (s1.hold (.island islTwin) (s.count + cyc 96) (.cmd (.colApply 4)))
    else if s.twin = twActive then .next s1.loseStandby
    else if s.twin = twJoining ∨ (s.twin = twSolo ∧ s.joins) then .next s1.failJoin
    else .next s1) := if_neg (by simp [hquiet])

theorem exec_peerFrameTimeout_active (h : s.twin = twActive) :
    exec .peerFrameTimeout s = .next (s.setBit aTWN_STAT fTWN_STAT_LINK false).loseStandby :=
  (exec_peerFrameTimeout_quiet hquiet).trans ((if_neg (by rw [h]; decide)).trans (if_pos h))

theorem exec_peerFrameTimeout_waits (h : s.twin = twStandby) (hpeer : s.bit aTWN_STAT fTWN_STAT_PEER_OWN = true) :
    exec .peerFrameTimeout s = .next (s.setBit aTWN_STAT fTWN_STAT_LINK false).enterHoldoff :=
  (exec_peerFrameTimeout_quiet hquiet).trans ((if_pos h).trans (if_pos hpeer))

theorem exec_peerFrameTimeout_takes (h : s.twin = twStandby) (hpeer : ¬ s.bit aTWN_STAT fTWN_STAT_PEER_OWN = true)
    (hcol : s.colHeld = false) : exec .peerFrameTimeout s = .next ((s.setBit aTWN_STAT fTWN_STAT_LINK false).hold
      (.island islTwin) (s.count + cyc 96) (.cmd (.colApply 4))) :=
  (exec_peerFrameTimeout_quiet hquiet).trans ((if_pos h).trans ((if_neg hpeer).trans (if_neg (by simp [hcol]))))

theorem exec_peerFrameTimeout_fails (h : s.twin = twJoining ∨ (s.twin = twSolo ∧ s.joins = true)) :
    exec .peerFrameTimeout s = .next (s.setBit aTWN_STAT fTWN_STAT_LINK false).failJoin := by
  have hother : s.twin ≠ twStandby ∧ s.twin ≠ twActive := by rcases h with h | ⟨h, -⟩ <;> simp [h]
  exact (exec_peerFrameTimeout_quiet hquiet).trans ((if_neg hother.1).trans ((if_neg hother.2).trans (if_pos h)))
end

/-! ## A join that fails, at either side -/

theorem State.failJoin_shows (h : s.isStandby = true ∨ s.twin = twSolo) : let t := s.failJoin
    t.fld aTWN_JOIN fTWN_JOIN_PHASE = 5 ∧ t.bit aTWN_LAT fTWN_LAT_JOINFAIL = true ∧ Raises 109 islTwin s t ∧
      KeepsMemory s t ∧ (s.isStandby = true → t.twin = twHoldoff ∧ t.bit aTWN_STAT fTWN_STAT_OWN = false ∧
        ∀ c : Chan, t.drvEn c.val = false) := by
  obtain ⟨hphase, hlat, hraise, -⟩ := s.joinFailed_shows
  have hmem : KeepsMemory s s.joinFailed := .of_does s.joinFailed_does (by decide)
  by_cases hst : s.isStandby = true
  · obtain ⟨htwin, hown, hoff, hheld, -, hmem'⟩ := s.joinFailed.enterHoldoff_shows
    have hkeeps := s.joinFailed.enterHoldoff_keepsTwn
    rw [State.failJoin_joiner hst]
    exact ⟨(hkeeps.fld (by decide) _).trans hphase, (hkeeps.bit (by decide) _).trans hlat, hheld hraise, hmem.trans hmem',
      fun _ => ⟨htwin, hown, hoff⟩⟩
  · rw [State.failJoin_solo (h.resolve_left hst)]
    exact ⟨hphase, hlat, hraise, hmem, fun h => absurd h hst⟩

/-! ## KEEP (R423) -/

theorem exec_keep_sends (h : s.bit aLNK_STAT fLNK_STAT_COL_UP = true) (hquiet : s.quietFor (s.link 2).sentAt 150 = true) :
    exec .keep s = .next ((s.emit .keep).sentOn 2) := congrArg Host.Outcome.next (if_pos ⟨h, hquiet⟩)

theorem exec_keep_rests (h : s.bit aLNK_STAT fLNK_STAT_COL_UP = false ∨ s.quietFor (s.link 2).sentAt 150 = false) :
    exec .keep s = .next s :=
  congrArg Host.Outcome.next (if_neg (fun ⟨h1, h2⟩ => h.elim (fun g => by simp [h1] at g) (fun g => by simp [h2] at g)))

/-! ## O59 and O31 -/

/-- Settles O59: SIDE A keeps OWN (`State.ownConflicted_shows`), SIDE B drops it (`State.ownDropped_shows`). -/
theorem ownConflict : Obligations.OwnConflict := by
  unfold Obligations.OwnConflict
  intro s hown
  cases hside : s.bit aTWN_CFG fTWN_CFG_SIDE with
  | false =>
    obtain ⟨htwin, hkept, -, hraise, -⟩ := s.ownConflicted_shows
    exact ⟨_, exec_ownConflict_sideA hown hside, hraise, nofun, fun _ => ⟨hkept.trans hown, htwin⟩⟩
  | true =>
    obtain ⟨htwin, hlow, -, -, hraise, -⟩ := s.ownDropped_shows
    exact ⟨_, exec_ownConflict_sideB hown hside, hraise, fun _ => ⟨hlow, htwin⟩, nofun⟩

/-- Settles O31: HELLO and the end of a negotiation by `State.helloSeen_shows` and what the state entered shows; PEER_OWN, PRES and
silence by `State.peerLow_shows`, `State.ownConflicted_shows`, `State.loseStandby_shows` and `State.failJoin_shows`. -/
theorem twinNegotiation : Obligations.TwinNegotiation := by
  unfold Obligations.TwinNegotiation
  refine ⟨?negotiation, ?presence⟩
  · intro f s side peerOwns other solo joining admits
    obtain ⟨hpeer, hlink, hrx, hordered, htwin, hpeerOwn, -, hstat⟩ := s.helloSeen_shows f
    have hseen := s.helloSeen_does f
    have hcount : (s.helloSeen f).count = s.count := hseen.same .count (by decide) (by decide)
    have hagenda : (s.helloSeen f).agenda = s.agenda := hseen.same .agenda (by decide) (by decide)
    have hmem : KeepsMemory s (s.helloSeen f) := .of_does hseen (by decide)
    have hcharge : (s.helloSeen f).shipCharge = s.shipCharge :=
      State.shipCharge_congr (fun a ha => hseen.regs (by decide) a (by rw [ha]; decide))
    have hdetached (u : State) : let t := (u.setTwin twDetached).joinFail
        t.twin = twDetached ∧ t.bit aTWN_LAT fTWN_LAT_JOINFAIL = true ∧ Raises 109 islTwin u t ∧ t.count = u.count ∧
          KeepsMemory u t := by
      obtain ⟨hlat, hraise, hkeeps⟩ := (u.setTwin twDetached).joinFail_shows
      refine ⟨(State.fld_congr _ (hkeeps _ (by decide))).trans (u.setTwin_twin (by decide)), hlat, ?_,
        u.setTwin_count _, .of_does (State.joinFail_does.call (ps := [.agenda, .fresh]) (bs := [14]) (by decide)
          (State.setTwin_does.mono (qs := [.agenda, .causes, .fresh, .twn]) (cs := [14]) (by decide))) (by decide)⟩
      unfold Raises at hraise ⊢
      rwa [u.setTwin_count] at hraise
    refine ⟨fun hneg hother => ⟨_, exec_hello_other hneg hother, ?_⟩,
      fun hneg hsame hjoin => ⟨_, exec_hello_joins hneg hsame hjoin, ?_⟩,
      fun hneg hsame hlow hside => ⟨_, exec_hello_solo hneg hsame hlow hside, ?_⟩,
      fun hadmits hsmall => ?begins, fun hadmits hlarge => ?fails, fun hneg hadmits => ?shows,
      fun hneg hexp hlow => ⟨s.enterSolo, ?_, s.enterSolo_shows, .of_does State.enterSolo_does (by decide)⟩,
      fun hneg hexp hhigh => ?timeout, fun h => ⟨s, if_pos h, rfl⟩⟩
    · obtain ⟨h1, h2, h3, h4, h5⟩ := hdetached (s.helloSeen f)
      unfold Raises at h3 ⊢
      exact ⟨h1, h2, hcount ▸ h3, h4.trans hcount, hmem.trans h5⟩
    · obtain ⟨h1, h2, h3, h4, h5, h6, h7⟩ := (s.helloSeen f).enterJoining_shows
      exact ⟨⟨h1, h2, h3, h4, h5⟩, h6.trans hcount, hmem.trans h7⟩
    · obtain ⟨h1, h2, h3, h4⟩ := (s.helloSeen f).enterSolo_shows
      rw [State.bit_congr _ (hseen.regs (by decide) aTBS_CTL (by decide))] at h3
      exact ⟨⟨h1, h2, h3, fun h => h4 ((hpeerOwn hlow).trans h)⟩,
        (State.enterSolo_does.same .agenda (by decide) (by decide)).trans hagenda,
        hmem.trans (.of_does State.enterSolo_does (by decide))⟩
    case begins =>
      obtain ⟨hsolo, hjoining, hjoins, hauto⟩ := hadmits
      obtain ⟨h1, h2, h3⟩ := (s.helloSeen f).startCopy_shows
      refine ⟨_, exec_hello_admits hsolo hjoining hjoins hauto, ?_⟩
      rw [State.startJoin_begins (hcharge ▸ hsmall)]
      exact ⟨(State.fld_congr _ (h3 _ (by decide))).trans (htwin.trans hsolo), h1, h2,
        (hstat.mono (by simp)).trans (h3.mono (by simp)), hmem.trans (.of_does State.startCopy_does (by decide))⟩
    case fails =>
      obtain ⟨hsolo, hjoining, hjoins, hauto⟩ := hadmits
      obtain ⟨h1, h2, h3, h4⟩ := (s.helloSeen f).joinFailed_shows
      refine ⟨_, exec_hello_admits hsolo hjoining hjoins hauto, ?_⟩
      rw [State.startJoin_fails (hcharge ▸ hlarge)]
      unfold Raises at h3 ⊢
      exact ⟨(State.joinFailed_twin _).trans (htwin.trans hsolo), h1, h2, hcount ▸ h3,
        (hstat.mono (by simp)).trans (h4.mono (by simp)), hmem.trans (.of_does (State.joinFailed_does _) (by decide))⟩
    case shows =>
      have hends : (s.helloSeen f).twin = s.twin ∧ (s.helloSeen f).fld aTWN_STAT fTWN_STAT_PEER = f.state.toNat ∧
          (s.helloSeen f).bit aTWN_STAT fTWN_STAT_LINK = true ∧ (s.helloSeen f).twn.rxAt = some s.count ∧
          KeepsRegs [aTWN_STAT] s (s.helloSeen f) ∧ KeepsMemory s (s.helloSeen f) := ⟨htwin, hpeer, hlink, hrx, hstat, hmem⟩
      rcases exec_hello_shows hneg hadmits with h | h
      · exact ⟨_, h, hends⟩
      · have hsend : Does [.out, .links] [] (s.helloSeen f) (s.helloSeen f).sendHello := State.sendHello_does
        have hreg (a : Nat) := hsend.regs (by decide) a (by simp)
        exact ⟨_, h, (State.fld_congr _ (hreg _)).trans htwin, (State.fld_congr _ (hreg _)).trans hpeer,
          (State.bit_congr _ (hreg _)).trans hlink, (congrArg Twn.rxAt (hsend.same .twn (by decide) (by decide))).trans hrx,
          hstat.trans (fun a _ => hreg a), hmem.trans (.of_does hsend (by decide))⟩
    · exact (if_neg (by simp [hneg, hexp])).trans (if_neg (by simp [hlow]))
    case timeout =>
      obtain ⟨h1, h2, h3, -, h5⟩ := hdetached s
      exact ⟨_, (if_neg (by simp [hneg, hexp])).trans (if_pos hhigh), h1, h2, h3, h5⟩
  · intro s alone failed off takes peerHigh silent
    obtain ⟨hlow, htwin, hown, hstat⟩ := s.peerLow_shows
    have hlowMem : KeepsMemory s s.peerLow := .of_fields rfl rfl rfl
    have halone (u : State) (hc : u.count = s.count) (hm : KeepsMemory s u) : alone u.loseStandby := by
      obtain ⟨h1, h2, h3, h4, h5, h6⟩ := u.loseStandby_shows
      unfold Raises at h3
      exact ⟨h1, h2, by unfold Raises; rwa [hc] at h3, h4, h5.trans hc, hm.trans h6⟩
    refine ⟨fun h => ?rises, fun hst hcol => ?takesLow, fun howns hst => ?stays, fun h hside => ?sideA,
      fun h hside => ?sideB, fun h => ?noConflict, fun h => ?removed, fun h hjoins => ?removedJoin, fun h hsolo => ?presLow,
      fun h => ⟨s, if_pos (Bool.eq_false_iff.mpr h), rfl⟩, fun hq h => ?silentActive, fun hq h hp => ?silentHigh,
      fun hq h hp hcol => ?silentTakes, fun hq h => ?silentJoin, fun h hq => ?keeps, fun h => ⟨s, exec_keep_rests h, rfl⟩⟩
    case rises =>
      have hrise : s.peerLow.riseOwn = s.peerLow.latch aTWN_STAT fTWN_STAT_OWN :=
        State.riseOwn_of_owns (by rw [htwin]; rcases h with h | h <;> rw [h] <;> rfl) hlow
      refine ⟨_, exec_peerOwnLow_shows (.inl (by rcases h with h | h <;> simp [h])), ?_⟩
      rw [hrise]
      exact ⟨State.bit_latch_self _ _ _ rfl (by decide),
        (State.bit_latch_beside _ _ _ _ (by decide) (by decide) (by decide)).trans hlow, rfl,
        hstat.latch (a := aTWN_STAT) (by simp) _, hlowMem⟩
    case takesLow =>
      exact ⟨_, exec_peerOwnLow_takes hst hcol, (mem_insertDue _ _ _).mpr (.inl rfl), hstat, hlowMem⟩
    case stays =>
      have hrise : s.peerLow.riseOwn = s.peerLow := State.riseOwn_of_not (.inl (by rw [htwin, howns]))
      refine ⟨_, exec_peerOwnLow_shows hst, ?_⟩
      rw [hrise]
      exact ⟨hlow, hown, rfl, hstat, hlowMem⟩
    case sideA =>
      obtain ⟨h1, -, h3, h4, h5, h6, h7⟩ := s.ownConflicted_shows
      exact ⟨_, exec_ownConflict_sideA h hside, h1, h3, h4, h5, h6, h7⟩
    case sideB =>
      obtain ⟨h1, h2, h3, h4, h5, h6⟩ := s.ownDropped_shows
      exact ⟨_, exec_ownConflict_sideB h hside, ⟨h1, h2, h3, h6⟩, h4, h5⟩
    case noConflict =>
      exact ⟨_, exec_ownConflict_none h, State.bit_latch_self s _ _ rfl (by decide),
        State.fld_latch_beside s _ _ _ (by decide) (by decide) (by decide), rfl,
        (KeepsRegs.refl _ s).latch (a := aTWN_STAT) (by simp) _, .of_fields rfl rfl rfl⟩
    case removed =>
      exact ⟨_, exec_presNHigh_active h, halone _ rfl (.of_fields rfl rfl rfl),
        (State.loseStandby_bit _ (by decide)).trans (s.setStat_shows (by decide) false).1⟩
    case removedJoin =>
      obtain ⟨h1, h2, h3, h4, -⟩ := State.failJoin_shows (s := s.setBit aTWN_STAT fTWN_STAT_PRES false)
        (.inr ((s.setStat_shows (by decide) false).2.1.trans h))
      exact ⟨_, exec_presNHigh_joins h hjoins, h1, h2, h3, KeepsMemory.trans (.of_fields rfl rfl rfl) h4⟩
    case presLow =>
      obtain ⟨h1, h2, h3⟩ := s.setStat_shows (g := fTWN_STAT_PRES) (by decide) false
      exact ⟨_, exec_presNHigh_shows h hsolo, h2, h1, rfl, h3, .of_fields rfl rfl rfl⟩
    case silentActive =>
      exact ⟨_, exec_peerFrameTimeout_active hq h, halone _ rfl (.of_fields rfl rfl rfl),
        (State.loseStandby_bit _ (by decide)).trans (s.setStat_shows (by decide) false).1⟩
    case silentHigh =>
      obtain ⟨h1, h2, h3, -, -, h6⟩ := (s.setBit aTWN_STAT fTWN_STAT_LINK false).enterHoldoff_shows
      exact ⟨_, exec_peerFrameTimeout_waits hq h hp, h1, h2, h3, KeepsMemory.trans (.of_fields rfl rfl rfl) h6⟩
    case silentTakes =>
      exact ⟨_, exec_peerFrameTimeout_takes hq h hp hcol, (mem_insertDue _ _ _).mpr (.inl rfl),
        (s.setStat_shows (g := fTWN_STAT_LINK) (by decide) false).2.2, .of_fields rfl rfl rfl⟩
    case silentJoin =>
      have htwin' := (s.setStat_shows (g := fTWN_STAT_LINK) (by decide) false).2.1
      have hstandby : s.twin = twJoining → (s.setBit aTWN_STAT fTWN_STAT_LINK false).isStandby = true :=
        fun h => by unfold State.isStandby; rw [htwin', h]; rfl
      obtain ⟨h1, h2, h3, h4, h5⟩ := State.failJoin_shows (s := s.setBit aTWN_STAT fTWN_STAT_LINK false)
        (h.imp hstandby (fun h => htwin'.trans h.1))
      have hmem : KeepsMemory s (s.setBit aTWN_STAT fTWN_STAT_LINK false).failJoin :=
        KeepsMemory.trans (.of_fields rfl rfl rfl) h4
      exact ⟨_, exec_peerFrameTimeout_fails hq h, ⟨h1, h2, h3, hmem⟩, fun hj =>
        have ⟨g1, g2, g3⟩ := h5 (hstandby hj)
        ⟨g1, g2, g3, hmem⟩⟩
    case keeps =>
      refine ⟨_, exec_keep_sends h hq, rfl, ?_, rfl, .of_regs rfl _, .of_fields rfl rfl rfl⟩
      exact (congrArg LinkState.sentAt (State.setLink_link _ _ _ _)).trans (by rw [if_pos rfl]; rfl)

end Sys2Proof.Machine
end

section
/-! The col (O32): who takes over and who steps down at D, and what both record (R388, R389). -/
namespace Sys2Proof.Machine

variable {s t u : State}

/-! ## Registers of TBS below the record of late actions -/

/-- The registers of TBS below TBS_LATE read as before. -/
def KeepsTbs (s t : State) : Prop := ∀ a, regBlk a = 1 ∧ a < aTBS_LATE → t.reg a = s.reg a

theorem KeepsTbs.refl (s : State) : KeepsTbs s s := fun _ _ => rfl

theorem KeepsTbs.trans (h : KeepsTbs s t) (g : KeepsTbs t u) : KeepsTbs s u := fun a ha => (g a ha).trans (h a ha)

theorem KeepsTbs.ite {c : Prop} [Decidable c] (h : c → KeepsTbs s t) (g : ¬ c → KeepsTbs s u) :
    KeepsTbs s (if c then t else u) := by
  split
  · exact h ‹_›
  · exact g ‹_›

theorem KeepsTbs.foldl {α : Type} {f : State → α → State} (hf : ∀ t x, KeepsTbs t (f t x)) (l : List α) (h : KeepsTbs s t) :
    KeepsTbs s (l.foldl f t) :=
  List.foldlRecOn (motive := KeepsTbs s) _ _ h (fun u hu x _ => hu.trans (hf u x))

theorem KeepsTbs.of_does {ps : List Part} {bs : List Nat} (h : Does ps bs s t) (hb : .regs ∉ ps ∧ 1 ∉ bs) : KeepsTbs s t :=
  fun a ha => h.regs hb.1 a (by rw [ha.1]; exact hb.2)

theorem State.lateInternal_keepsTbs (s : State) (kind src dst : Nat) (due arr : Count) :
    KeepsTbs s (s.lateInternal kind src dst due arr) := by
  rintro a ⟨-, ha⟩
  have hne {b : Nat} (hb : aTBS_LATE ≤ b) : a ≠ b := by omega
  refine (State.reg_setReg_ne _ (a := aTBS_LATE) _ (hne le_rfl)).trans ?_
  refine (State.reg_setReg_ne _ (a := aTBS_LATE_CNT) _ (hne (by decide))).trans ?_
  rw [State.reg_setWide_of_lt (lt_trans ha (by decide)), State.reg_setWide_of_lt (lt_trans ha (by decide))]
  exact State.reg_setReg_ne _ _ (hne (by decide))

theorem State.issue_keepsTbs (s : State) (src : Fin 80) (dst : Nat) (due : Count) (kind : Nat) (a : Act) :
    KeepsTbs s (s.issue src dst due kind a) := by
  unfold State.issue
  extract_lets -underBinder -merge -useContext lat s0
  have h0 : KeepsTbs s s0 := fun _ _ => rfl
  have hheld : ∀ k, KeepsTbs s ((s0.fordSeen dst lat k).hold (.island src) due a) := fun k =>
    (h0.trans (.of_does State.fordSeen_does (by decide))).trans (.of_does State.hold_does (by decide))
  exact .ite (fun _ => hheld _) (fun _ => .ite (fun _ => hheld _) (fun _ => h0.trans (s0.lateInternal_keepsTbs _ _ _ _ _)))

theorem State.postAll_keepsTbs (s : State) (set : BitVec 64) (at_ : Count) : KeepsTbs s (s.postAll set at_) :=
  .foldl (fun t _ => t.issue_keepsTbs _ _ _ _ _) _ (.refl s)

theorem State.tripActions_keepsTbs (s : State) (n m : Nat) (lo : Bool) (at_ : Count) : KeepsTbs s (s.tripActions n m lo at_) := by
  unfold State.tripActions
  extract_lets -underBinder -merge -useContext isl ch code s1 detail s2 flag
  have h1 : KeepsTbs s s1 := .of_does (ps := [.agenda, .causes, .fresh]) (bs := [64])
    (State.raise_does.call (by decide) (State.causeOn_does.call (by decide) (Does.setBit adr_MON_STAT (by decide)
      (Does.bump adr_MON_TRIPS (by decide) Does.refl)))) (by decide)
  have h2 : KeepsTbs s s2 := .ite (fun _ => h1.trans (State.issue_keepsTbs _ _ _ _ _ _))
    (fun _ => h1.trans (.of_does State.hold_does (by decide)))
  exact .ite (fun _ => .ite (fun _ => h2.trans (State.issue_keepsTbs _ _ _ _ _ _))
    (fun _ => h2.trans (.of_does State.hold_does (by decide)))) (fun _ => h2)

theorem State.handLatch_keepsTbs (s : State) (n m : Nat) : KeepsTbs s (s.handLatch n m) := by
  unfold State.handLatch
  extract_lets -underBinder -merge -useContext was cause s1
  have h1 : KeepsTbs s s1 := .of_does State.monChange_does (by decide)
  have hsettle (u : State) : KeepsTbs u (u.settleMon n m) := .of_does State.settleMon_does (by decide)
  exact .ite (fun _ => .refl s) (fun _ => .ite (fun _ => ((h1.trans (.of_does State.forceInh_does (by decide))).trans
    (State.tripActions_keepsTbs _ n m _ _)).trans (hsettle _)) (fun _ => h1.trans (hsettle _)))

/-! ## Every monitor of every island -/

theorem State.eachMon_does {ps : List Part} {bs : List Nat} {f : State → Nat → Nat → State}
    (hf : ∀ t n m, Does ps bs t (f t n m)) (s : State) : Does ps bs s (s.eachMon f) :=
  Does.foldl (fun _ n => Does.foldl (fun t m => hf t n m) Does.refl) Does.refl

theorem State.eachMon_keepsTbs {f : State → Nat → Nat → State} (hf : ∀ t n m, KeepsTbs t (f t n m)) (s : State) :
    KeepsTbs s (s.eachMon f) :=
  .foldl (fun t n => .foldl (fun t m => hf t n m) _ (.refl t)) _ (.refl s)

/-! ## What a col leaves in both modules (R389) -/

/-- The registers of TWN in which a col shows. -/
def colRegs : List Nat := [aTWN_LAT, aTWN_COL, aTWN_COLT, aTWN_COLT + 4, aTWN_COLT + 8]

theorem State.colRecord_keepsTwn (s : State) (cause from_ : Nat) : KeepsTwn colRegs s (s.colRecord cause from_) := by
  unfold State.colRecord
  extract_lets -underBinder -merge -useContext b w s1
  have h0 : KeepsRegs colRegs s ((s.setReg aTWN_COL w).setWide aTWN_COLT 3 s.count.toNat) :=
    ((((KeepsRegs.refl _ s).setReg (a := aTWN_COL) (by simp [colRegs]) _).setReg (a := aTWN_COLT) (by simp [colRegs]) _).setReg
      (a := aTWN_COLT + 4) (by simp [colRegs]) _).setReg (a := aTWN_COLT + 8) (by simp [colRegs]) _
  have h1 : KeepsTwn colRegs s s1 := (KeepsTwn.of_keepsRegs h0).trans (.of_does State.postAll_does (by decide) _)
  exact h1.trans (.of_keepsRegs ((KeepsRegs.refl _ s1).latch (a := aTWN_LAT) (by simp [colRegs]) _))

theorem State.colRecord_keepsDrivers (s : State) (cause from_ : Nat) : KeepsDrivers s (s.colRecord cause from_) := by
  unfold State.colRecord
  extract_lets -underBinder -merge -useContext b w s1
  have h0 : KeepsDrivers s ((s.setReg aTWN_COL w).setWide aTWN_COLT 3 s.count.toNat) := .of_does (ps := []) (bs := [14])
    (Does.setWide adr_TWN_COLT (by decide) (Does.setReg adr_TWN_COL (by decide) Does.refl)) (by decide)
  exact ((h0.trans (State.postAll_keepsDrivers ..)).trans (.of_does (ps := [.fresh]) (bs := [14])
    (Does.latch adr_TWN_LAT (by decide) Does.refl) (by decide))).raise _ _

theorem State.colRecord_keepsTbs (s : State) (cause from_ : Nat) : KeepsTbs s (s.colRecord cause from_) := by
  unfold State.colRecord
  extract_lets -underBinder -merge -useContext b w s1
  have h0 : KeepsTbs s ((s.setReg aTWN_COL w).setWide aTWN_COLT 3 s.count.toNat) := .of_does (ps := []) (bs := [14])
    (Does.setWide adr_TWN_COLT (by decide) (Does.setReg adr_TWN_COL (by decide) Does.refl)) (by decide)
  exact (h0.trans (State.postAll_keepsTbs _ _ _)).trans (.of_does (ps := [.agenda, .fresh]) (bs := [14])
    (State.raise_does.call (by decide) (Does.latch adr_TWN_LAT (by decide) Does.refl)) (by decide))

/-- COLDONE and FS 105, and the cause, the state before and the time of a col. -/
structure ColShown (cause from_ : Nat) (s t : State) : Prop where
  done : t.bit aTWN_LAT fTWN_LAT_COLDONE = true
  cause : t.fld aTWN_COL fTWN_COL_CAUSE = cause
  from_ : t.fld aTWN_COL fTWN_COL_FROM = from_
  time : t.wide aTWN_COLT 3 = s.count.toNat
  raised : Raises 105 islTwin s t

theorem State.colRecord_shows (s : State) {cause from_ : Nat} (hcause : cause < 16) (hfrom : from_ < 16) :
    ColShown cause from_ s (s.colRecord cause from_) := by
  unfold State.colRecord
  extract_lets -underBinder -merge -useContext b w s1
  have hpost : Does [.agenda, .free, .fresh] [1, 3] ((s.setReg aTWN_COL w).setWide aTWN_COLT 3 s.count.toNat) s1 :=
    State.postAll_does
  have hreg {a : Nat} (ha : a ≠ aTWN_LAT) : ((s1.latch aTWN_LAT fTWN_LAT_COLDONE).raise 105 islTwin).reg a = s1.reg a :=
    State.reg_latch_ne _ _ ha
  have hcol : s1.reg aTWN_COL = w := (hpost.regs (by decide) _ (by decide)).trans
    ((State.reg_setWide_of_lt (by decide) _ _).trans (State.reg_setReg_self _ _ _))
  have hcount : s1.count = s.count := (hpost.same .count (by decide) (by decide)).trans
    ((Does.setWide adr_TWN_COLT (bs := [14]) (ps := []) (by decide) Does.refl).same .count (by decide) (by decide))
  refine ⟨State.bit_latch_self s1 _ _ rfl (by decide), ?_, ?_, ?_, raises_of_count hcount _ _⟩
  · unfold State.fld
    rw [hreg (by decide), hcol]
    unfold w
    rw [getF_putF_ne _ _ _ _ (by decide) (by decide) (by decide), getF_putF_ne _ _ _ _ (by decide) (by decide) (by decide),
      getF_putF_ne _ _ _ _ (by decide) (by decide) (by decide), getF_fldWord_self _ _ (by decide) (by decide)]
    exact Nat.mod_eq_of_lt hcause
  · unfold State.fld
    rw [hreg (by decide), hcol]
    unfold w
    rw [getF_putF_ne _ _ _ _ (by decide) (by decide) (by decide), getF_putF_ne _ _ _ _ (by decide) (by decide) (by decide),
      getF_putF_self _ _ _ (by decide) (by decide)]
    exact Nat.mod_eq_of_lt hfrom
  · refine (State.wide_congr (fun i hi => ?_)).trans
      (State.wide_setWide_self (s.setReg aTWN_COL w) _ 3 (lt_trans s.count.isLt (by decide)))
    exact (hreg (by simp only [aTWN_COLT, aTWN_LAT]; omega)).trans
      (hpost.regs (by decide) _ (by rw [adr_TWN_COLT.blk i (by omega)]; decide))

/-- What a col shows stands while no more than TWN_STAT and TWN_LAT of TWN change, COLDONE stays, and what is held stays held. -/
theorem ColShown.stays {cause from_ : Nat} (h : ColShown cause from_ s t) (hkeeps : KeepsTwn [aTWN_LAT] t u)
    (hdone : t.bit aTWN_LAT fTWN_LAT_COLDONE = true → u.bit aTWN_LAT fTWN_LAT_COLDONE = true) (hheld : t.agenda ⊆ u.agenda) :
    ColShown cause from_ s u where
  done := hdone h.done
  cause := (hkeeps.fld (by decide) _).trans h.cause
  from_ := (hkeeps.fld (by decide) _).trans h.from_
  time := (State.wide_congr (fun i hi => hkeeps _ (by simp only [regBlk, aTWN_COLT, aTWN_PLAUS]; omega)
    (by simp only [aTWN_COLT, aTWN_LAT, List.mem_singleton]; omega))).trans h.time
  raised := hheld h.raised

theorem ColShown.of_count {cause from_ : Nat} (h : ColShown cause from_ t u) (hc : t.count = s.count) :
    ColShown cause from_ s u where
  done := h.done
  cause := h.cause
  from_ := h.from_
  time := h.time.trans (by rw [hc])
  raised := by have hraise := h.raised; unfold Raises at hraise ⊢; rwa [hc] at hraise

/-! ## The standby takes over (R62, R389) -/

/-- The offsets of every channel at a col (R170). -/
def State.colOffsets (s : State) : State := (List.range 256).foldl (fun s ch => (s.colOffset ch 0).colOffset ch 1) s

theorem State.colOffsets_does (s : State) : Does [.loops] [6] s s.colOffsets :=
  Does.foldl (fun _ _ => State.colOffset_does.after State.colOffset_does) Does.refl

/-- A module that owns reads its own results and its own time, as time master FREE. -/
def State.ownSources (s : State) (cause : Nat) (mpair : Bool) : State :=
  let s3 := (s.setReg aLPE_SRC 0).setTwin (if cause = 1 then twActive else twSolo)
  if mpair then (s3.setReg aTBS_SRC 0).setTb tbFree else s3.setReg aTBS_SRC 1

/-- The new active, before it records the col. -/
def State.colOwned (s : State) (cause : Nat) : State :=
  (((s.seqEndAll 10 true).colOffsets.ownSources cause (s.bit aTBS_CTL fTBS_CTL_MPAIR)).eachMon State.handLatch)

/-- The results missed are forgotten. -/
def State.forgetMissed (s : State) : State := { s with twn := { s.twn with missed := [] } }

theorem State.forgetMissed_does (s : State) : Does [.twn] [] s s.forgetMissed := Does.put_twn (by decide) Does.refl

theorem State.forgetMissed_reg (s : State) (a : Nat) : s.forgetMissed.reg a = s.reg a := rfl

/-- The new active, once the col has been recorded. -/
def State.colTaken (s : State) (cause : Nat) : State := ((s.colOwned cause).colRecord cause twStandby).forgetMissed

/-- A latch beside PEERLOST. -/
theorem State.peerLost_bit (s : State) {g : Fld} (hg : g.hi < 2 ∨ 2 < g.lo) :
    s.peerLost.bit aTWN_LAT g = s.bit aTWN_LAT g := by
  have hcause : Does [.causes] [] (s.latch aTWN_LAT fTWN_LAT_PEERLOST) ((s.latch aTWN_LAT fTWN_LAT_PEERLOST).causeOn 106 0) :=
    State.causeOn_does
  exact (State.bit_congr _ (hcause.regs (by decide) _ (by decide))).trans
    (State.bit_latch_beside s _ _ _ (by decide) (by decide) hg)

theorem State.takeOver_eq (s : State) (cause : Nat) :
    s.takeOver cause = if cause = 4 then (s.colTaken cause).peerLost else s.colTaken cause := by
  unfold State.takeOver State.colTaken State.forgetMissed State.colOwned State.ownSources State.colOffsets
  rfl

theorem State.ownSources_shows (s : State) (cause : Nat) (mpair : Bool) : let t := s.ownSources cause mpair
    t.twin = (if cause = 1 then twActive else twSolo) ∧ t.reg aLPE_SRC = 0 ∧
      t.reg aTBS_SRC = (if mpair then 0 else 1) ∧ t.count = s.count := by
  unfold State.ownSources
  extract_lets -underBinder -merge -useContext s3 t
  have hst : (if cause = 1 then twActive else twSolo) < 16 := by split <;> decide
  have hcount : s3.count = s.count := State.setTwin_count _ _
  have htwin : s3.twin = if cause = 1 then twActive else twSolo := State.setTwin_twin _ hst
  have hsrc : s3.reg aLPE_SRC = 0 :=
    (State.setTwin_does.regs (by decide) _ (by decide)).trans (State.reg_setReg_self _ _ _)
  unfold t
  cases mpair with
  | true =>
    have hdoes : Does [.causes, .tbs] [1] s3 ((s3.setReg aTBS_SRC 0).setTb tbFree) :=
      State.setTb_does.call (by decide) (Does.setReg adr_TBS_SRC (by decide) Does.refl)
    exact ⟨(State.fld_congr _ (hdoes.regs (by decide) _ (by decide))).trans htwin,
      (hdoes.regs (by decide) _ (by decide)).trans hsrc,
      ((s3.setReg aTBS_SRC 0).setTb_keepsRegs tbFree _ (by decide)).trans (State.reg_setReg_self _ _ _),
      (hdoes.same .count (by decide) (by decide)).trans hcount⟩
  | false =>
    exact ⟨(State.fld_congr _ (State.reg_setReg_ne _ _ (by decide))).trans htwin,
      (State.reg_setReg_ne _ _ (by decide)).trans hsrc, State.reg_setReg_self _ _ _, hcount⟩

theorem State.colOwned_shows (s : State) (cause : Nat) : let t := s.colOwned cause
    t.twin = (if cause = 1 then twActive else twSolo) ∧ t.reg aLPE_SRC = 0 ∧
      t.reg aTBS_SRC = (if s.bit aTBS_CTL fTBS_CTL_MPAIR then 0 else 1) ∧ t.count = s.count := by
  obtain ⟨htwin, hlpe, htbs, hcount⟩ :=
    (s.seqEndAll 10 true).colOffsets.ownSources_shows cause (s.bit aTBS_CTL fTBS_CTL_MPAIR)
  let u := (s.seqEndAll 10 true).colOffsets.ownSources cause (s.bit aTBS_CTL fTBS_CTL_MPAIR)
  have hmon : Does [.agenda, .causes, .free, .fresh, .chans, .mons, .twn] [1, 3, 64] u (s.colOwned cause) :=
    State.eachMon_does (fun _ _ _ => State.handLatch_does) u
  have hmonTbs : KeepsTbs u (s.colOwned cause) := State.eachMon_keepsTbs State.handLatch_keepsTbs u
  refine ⟨(State.fld_congr _ (hmon.regs (by decide) _ (by decide))).trans htwin, (hmon.regs (by decide) _ (by decide)).trans hlpe,
    (hmonTbs _ (by decide)).trans htbs, (hmon.same .count (by decide) (by decide)).trans (hcount.trans ?_)⟩
  exact ((State.colOffsets_does _).same .count (by decide) (by decide)).trans
    (State.seqEndAll_does.same .count (by decide) (by decide))

theorem State.colTaken_shows (s : State) {cause : Nat} (hcause : cause < 16) : let t := s.colTaken cause
    ColShown cause twStandby s t ∧ t.reg aLPE_SRC = 0 ∧ t.twin = (if cause = 1 then twActive else twSolo) ∧
      t.reg aTBS_SRC = (if s.bit aTBS_CTL fTBS_CTL_MPAIR then 0 else 1) ∧ t.twn.missed = [] ∧ t.count = s.count := by
  unfold State.colTaken
  obtain ⟨htwin, hlpe, htbs, hcount⟩ := s.colOwned_shows cause
  have hshown := ((s.colOwned cause).colRecord_shows hcause (from_ := twStandby) (by decide)).of_count hcount
  have hkept := (s.colOwned cause).colRecord_keepsTwn cause twStandby
  have hlpe' := ((s.colOwned cause).colRecord_keepsDrivers cause twStandby).src.trans hlpe
  have htbs' := ((s.colOwned cause).colRecord_keepsTbs cause twStandby aTBS_SRC (by decide)).trans htbs
  have htwin' := (hkept.twin (by decide)).trans htwin
  have hcount' : ((s.colOwned cause).colRecord cause twStandby).count = s.count :=
    (State.colRecord_does.same .count (by decide) (by decide)).trans hcount
  have hforget := ((s.colOwned cause).colRecord cause twStandby).forgetMissed_does
  have hreg := ((s.colOwned cause).colRecord cause twStandby).forgetMissed_reg
  refine ⟨hshown.stays (.of_does hforget (by decide) _) (fun h => (State.bit_congr _ (hreg _)).trans h)
    (by rw [hforget.same .agenda (by decide) (by decide)]; exact fun _ => id), (hreg _).trans hlpe',
    (State.fld_congr _ (hreg _)).trans htwin', (hreg _).trans htbs', ?_, (hforget.same .count (by decide) (by decide)).trans hcount'⟩
  unfold State.forgetMissed
  rfl

/-! ## The active steps down (R388, R389) -/

/-- The former active of a col of cause 1, before it records it. -/
def State.ceded (s : State) : State :=
  ((((s.seqEndAll 10 true).setTwin twStandby).setReg aLPE_SRC 1).setReg aTBS_SRC 2).eachMon State.startShadow

theorem State.stepDown_one (s : State) : s.stepDown 1 = s.ceded.colRecord 1 twActive := rfl

theorem State.stepDown_other (s : State) {cause : Nat} (h : cause ≠ 1) :
    s.stepDown cause = s.enterHoldoff.colRecord cause twActive := if_neg h

theorem State.ceded_shows (s : State) : let t := s.ceded
    t.twin = twStandby ∧ t.bit aTWN_STAT fTWN_STAT_OWN = false ∧ t.reg aLPE_SRC = 1 ∧ t.reg aTBS_SRC = 2 ∧
      t.count = s.count := by
  let s1 := (s.seqEndAll 10 true).setTwin twStandby
  have hsrc : Does [] [1, 6] s1 ((s1.setReg aLPE_SRC 1).setReg aTBS_SRC 2) :=
    Does.setReg adr_TBS_SRC (by decide) (Does.setReg adr_LPE_SRC (by decide) Does.refl)
  have hmon : Does [.mons] [] ((s1.setReg aLPE_SRC 1).setReg aTBS_SRC 2) s.ceded :=
    State.eachMon_does (fun _ _ _ => State.startShadow_does) _
  have hreg (a : Nat) : s.ceded.reg a = ((s1.setReg aLPE_SRC 1).setReg aTBS_SRC 2).reg a :=
    hmon.regs (by decide) a (by simp)
  have hstat : s.ceded.reg aTWN_STAT = s1.reg aTWN_STAT := (hreg _).trans (hsrc.regs (by decide) _ (by decide))
  refine ⟨(State.fld_congr _ hstat).trans (State.setTwin_twin _ (by decide)),
    (State.bit_congr _ hstat).trans (State.setTwin_own_low _ rfl), ?_, (hreg _).trans (State.reg_setReg_self _ _ _), ?_⟩
  · exact (hreg _).trans ((State.reg_setReg_ne _ _ (by decide)).trans (State.reg_setReg_self _ _ _))
  · exact (hmon.same .count (by decide) (by decide)).trans
      ((State.setTwin_count _ _).trans (State.seqEndAll_does.same .count (by decide) (by decide)))

/-! ## The commands -/

theorem exec_colApply_standby {cause : BitVec 4} (h : s.twin = twStandby) :
    exec (.colApply cause) s = .next (s.takeOver cause.toNat) := if_pos h

theorem exec_colApply_active {cause : BitVec 4} (h : s.twin = twActive) :
    exec (.colApply cause) s = .next (s.stepDown cause.toNat) := (if_neg (by rw [h]; decide)).trans (if_pos h)

/-- Settles O32: at D by `State.colTaken_shows` and `State.stepDown_one` or `State.stepDown_other`, each with what
`State.colRecord_shows`; the requests and LEAVE by their commands. -/
theorem colHandsOver : Obligations.ColHandsOver := by
  unfold Obligations.ColHandsOver
  intro by_ cause s both asks
  have hlt := cause.isLt
  refine ⟨fun h => ⟨_, if_pos h, (mem_insertDue _ _ _).mpr (.inl rfl), .of_regs rfl _, .of_fields rfl rfl rfl⟩,
    fun h => ⟨_, if_neg h, s.rejectVal_shows by_ (b := 14) (by decide) (by decide)⟩, fun h => ?takes, fun h hone => ?cedes,
    fun h hother => ?stepsDown, fun hst hact => ⟨s, (if_neg hst).trans (if_neg hact), rfl⟩, fun h => ?leaves,
    fun h => ⟨s, congrArg Host.Outcome.next (if_neg h), rfl⟩, fun h => ?asks, fun h => ?rests⟩
  case takes =>
    obtain ⟨hshown, hlpe, htwin, htbs, hmissed, hcount⟩ := s.colTaken_shows hlt
    have hone : (cause.toNat = 1) = (cause = 1) := by simp [BitVec.toNat_eq]
    have hmem : KeepsMemory s (s.takeOver cause.toNat) := .of_does State.takeOver_does (by decide)
    refine ⟨_, exec_colApply_standby h, ?_⟩
    simp only [hone] at htwin
    by_cases hfour : cause = 4
    · obtain ⟨hlost, hraise, hcause, hkeeps, hheld⟩ := (s.colTaken cause.toNat).peerLost_shows
      have htake : s.takeOver cause.toNat = (s.colTaken cause.toNat).peerLost :=
        (s.takeOver_eq _).trans (if_pos (by rw [hfour]; rfl))
      have hlast := hshown.stays (.of_keepsRegs hkeeps) (fun hd => (State.peerLost_bit _ (by decide)).trans hd) hheld
      rw [htake] at hmem ⊢
      have hpc : (s.colTaken cause.toNat).peerLost.count = s.count :=
        (State.peerLost_does.same .count (by decide) (by decide)).trans hcount
      refine ⟨⟨hlast.done, hlast.cause, hlast.from_, hlast.time, hlast.raised, hpc, hmem⟩,
        (hkeeps _ (by decide)).trans hlpe, (State.fld_congr _ (hkeeps _ (by decide))).trans htwin,
        (hkeeps _ (by decide)).trans htbs,
        (congrArg Twn.missed (State.peerLost_does.same .twn (by decide) (by decide))).trans hmissed,
        fun _ => ⟨hlost, State.causeStands_of_causeAt hcause, ?_⟩⟩
      unfold Raises at hraise ⊢
      rwa [hcount] at hraise
    · have htake : s.takeOver cause.toNat = s.colTaken cause.toNat :=
        (s.takeOver_eq _).trans (if_neg (fun h4 => hfour (BitVec.eq_of_toNat_eq h4)))
      rw [htake] at hmem ⊢
      exact ⟨⟨hshown.done, hshown.cause, hshown.from_, hshown.time, hshown.raised, hcount, hmem⟩, hlpe, htwin, htbs, hmissed,
        fun h4 => absurd h4 hfour⟩
  case cedes =>
    obtain ⟨htwin, hown, hlpe, htbs, hcount⟩ := s.ceded_shows
    have hshown := (s.ceded.colRecord_shows (cause := 1) (from_ := twActive) (by decide) (by decide)).of_count hcount
    have hkeeps := s.ceded.colRecord_keepsTwn 1 twActive
    subst hone
    refine ⟨_, exec_colApply_active h, ⟨hshown.done, hshown.cause, hshown.from_, hshown.time, hshown.raised, ?_,
      .of_does State.stepDown_does (by decide)⟩, (s.ceded.colRecord_keepsDrivers 1 twActive).src.trans hlpe,
      (s.ceded.colRecord_keepsTbs 1 twActive _ (by decide)).trans htbs, (hkeeps.twin (by decide)).trans htwin,
      (hkeeps.bit (by decide) _).trans hown⟩
    exact State.stepDown_does.same .count (by decide) (by decide)
  case stepsDown =>
    obtain ⟨htwin, hown, hoff, -, hcount, -⟩ := s.enterHoldoff_shows
    have hshown := (s.enterHoldoff.colRecord_shows (cause := cause.toNat) (from_ := twActive) hlt (by decide)).of_count hcount
    have hkeeps := s.enterHoldoff.colRecord_keepsTwn cause.toNat twActive
    have hdown : s.stepDown cause.toNat = s.enterHoldoff.colRecord cause.toNat twActive :=
      s.stepDown_other (fun h1 => hother (BitVec.eq_of_toNat_eq h1))
    have hdoes := (State.stepDown_does : Does _ _ s (s.stepDown cause.toNat))
    rw [hdown] at hdoes
    refine ⟨_, (exec_colApply_active h).trans (congrArg Host.Outcome.next hdown),
      ⟨hshown.done, hshown.cause, hshown.from_, hshown.time, hshown.raised, hdoes.same .count (by decide) (by decide),
        .of_does hdoes (by decide)⟩, (hkeeps.twin (by decide)).trans htwin, (hkeeps.bit (by decide) _).trans hown,
      fun c => ((s.enterHoldoff.colRecord_keepsDrivers _ _).drvEn _).trans (hoff c)⟩
  case leaves =>
    obtain ⟨htwin, hown, hoff, -, -, hmem⟩ := s.enterHoldoff_shows
    exact ⟨_, congrArg Host.Outcome.next (if_pos h), htwin, hown, hoff, hmem⟩
  case asks =>
    exact ⟨_, congrArg Host.Outcome.next (if_pos h), (mem_insertDue _ _ _).mpr (.inl rfl), rfl, .of_regs rfl _,
      .of_fields rfl rfl rfl⟩
  case rests => exact ⟨s, congrArg Host.Outcome.next (if_neg h), rfl⟩

end Sys2Proof.Machine
end

section
/-! Joins, copies and the digests of ticks (O33): what a digest that arrives is compared with, and what the comparison decides
(R386, R387, R393). -/
namespace Sys2Proof.Machine

variable {s t u : State}

/-! ## Records appended for a tick (R386) -/

/-- Of the twin island's own state no more than the items of the digests changes. -/
def KeepsTwnState (s t : State) : Prop := { t.twn with items := s.twn.items } = s.twn

theorem KeepsTwnState.refl (s : State) : KeepsTwnState s s := rfl

theorem KeepsTwnState.trans (h : KeepsTwnState s t) (g : KeepsTwnState t u) : KeepsTwnState s u := by
  unfold KeepsTwnState at *
  exact (congrArg (fun x : Twn => { x with items := s.twn.items }) g).trans h

theorem KeepsTwnState.of_twn (h : t.twn = s.twn) : KeepsTwnState s t := by unfold KeepsTwnState; rw [h]

theorem KeepsTwnState.own (h : KeepsTwnState s t) : t.twn.own = s.twn.own := (congrArg Twn.own h :)

theorem KeepsTwnState.peer (h : KeepsTwnState s t) : t.twn.peer = s.twn.peer := (congrArg Twn.peer h :)

theorem KeepsTwnState.raises (h : KeepsTwnState s t) : t.twn.raises = s.twn.raises := (congrArg Twn.raises h :)

theorem State.tickItem_keepsTwnState (s : State) (it : TickItem) : KeepsTwnState s (s.tickItem it) := by
  unfold State.tickItem
  split
  · rfl
  · exact .refl s

theorem State.releaseCls_keepsTwnState (s : State) (cls : Nat) (limit : Count) (n : Nat) :
    KeepsTwnState s (s.releaseCls cls limit n) := by
  induction n generalizing s with
  | zero => exact .refl s
  | succ n ih =>
    unfold State.releaseCls
    split
    · exact .refl s
    · split
      next r rs _ _ =>
        have happ : KeepsTwnState s ((s.setStream cls { s.stream cls with held := rs }).appendNow cls r.bytes) :=
          .of_twn (State.appendNow_does.same .twn (by decide) (by decide))
        refine KeepsTwnState.trans ?_ (ih _)
        split
        · exact happ.trans (State.tickItem_keepsTwnState _ _)
        · exact happ
      next => exact .refl s

theorem State.releaseTo_keepsTwnState (s : State) (limit : Count) : KeepsTwnState s (s.releaseTo limit) :=
  (((State.releaseCls_keepsTwnState _ _ _ _).trans (State.releaseCls_keepsTwnState _ _ _ _)).trans
    (State.releaseCls_keepsTwnState _ _ _ _)).trans (State.releaseCls_keepsTwnState _ _ _ _)

/-! ## The digest of a tick formed (R386) -/

/-- BLAME is read off the raises of the tick, its length and the mask. -/
theorem State.blame_congr (htwn : t.twn.raises = s.twn.raises) (hregs : ∀ a, regBlk a = 14 → t.reg a = s.reg a) (k : Nat) :
    t.blame k = s.blame k := by
  simp only [State.blame, State.tickLen, State.fld, htwn, hregs _ adr_TWN_CFG.here, hregs _ adr_TWN_BLMASK.here]
  rfl

/-- With no digest of the twin there is nothing to compare. -/
theorem State.compareAll_none (h : s.twn.peer = []) (n : Nat) : s.compareAll n = s := by
  cases n with
  | zero => rfl
  | succ n =>
    have hfind : s.twn.own.find? (fun (o : BitVec 64 × BitVec 256 × Bool) => s.twn.peer.any (fun p => p.1 == o.1)) = none := by
      simp [h]
    unfold State.compareAll
    rw [hfind]

/-- The digest `d` of a tick that ends at `end_` stands with the module's own, and what came before the end is forgotten. -/
def State.digestKept (s : State) (k : Nat) (end_ : Count) (d : BitVec 256) : State :=
  { s with twn := { s.twn with
    items := s.twn.items.filter (fun i => Count.upto end_ i.at_)
    raises := s.twn.raises.filter (fun (r : Nat × Count) => Count.upto end_ r.2)
    own := s.twn.own ++ [(BitVec.ofNat 64 k, d, s.blame k)] } }

/-- The state in which the digest of a tick that ends at `end_` has been formed and stands with the module's own, before it is
sent. -/
def State.digestFormed (s : State) (k : Nat) (end_ : Count) : State :=
  let s1 := (s.mark aTWN_TICKS 1).releaseTo end_
  let h := digestBytes (Config.sha384 (Config.tickBytes (s1.tickItems k)))
  s1.digestKept k end_ (BitVec.ofNat 256 (leNat (h.take 32)))

/-- The module forms digests: one of a pair, or of a join (R386). -/
def State.formsDigests (s : State) : Prop := s.twin = twActive ∨ s.isStandby = true ∨ (s.twin = twSolo ∧ s.joins = true)

theorem State.formsDigests_iff (s : State) :
    (!(s.twin == twActive || s.isStandby || (s.twin == twSolo && s.joins))) = true ↔ ¬ s.formsDigests := by
  unfold State.formsDigests
  simp only [Bool.not_eq_true', Bool.or_eq_false_iff, Bool.and_eq_false_iff, beq_eq_false_iff_ne, not_or, not_and,
    Bool.not_eq_true, ne_eq]
  tauto

/-- The tick whose digest is due to be formed has just ended, 1,000 cycles ago. -/
def State.digestDue (s : State) : Prop :=
  s.tickLen ≠ 0 ∧ s.formsDigests ∧ (s.count - cyc 1000).toNat % s.tickLen = 0 ∧ s.tickLen ≤ (s.count - cyc 1000).toNat ∧
    s.freshAt aTWN_TICKS = 0

theorem exec_digestSend_due (h : s.digestDue) :
    let stop := (s.count - cyc 1000).toNat / s.tickLen
    ∃ (d : BitVec 64 × BitVec 256) (b : Bool) (v : State), v = (s.digestFormed (stop - 1) (BitVec.ofNat 72 (stop * s.tickLen))).sendFrame 2 1 (.digest d.1 d.2 b) ∧
      exec .digestSend s = .next (v.compareAll v.twn.own.length) := by
  obtain ⟨hlen, hforms, hmod, hone, hfresh⟩ := h
  have hstop : (s.count - cyc 1000).toNat / s.tickLen ≠ 0 := (Nat.div_pos hone (Nat.pos_of_ne_zero hlen)).ne'
  refine ⟨(_, _), _, _, rfl, (if_neg ?_).trans (if_neg hstop)⟩
  rw [s.formsDigests_iff]
  rintro (h | h | h | h)
  · exact hlen h
  · exact h hforms
  · exact h hmod
  · exact h hfresh

theorem exec_digestSend_rests (h : ¬ s.digestDue) : exec .digestSend s = .next s := by
  change execDigestSend s = _
  unfold execDigestSend
  extract_lets -underBinder -merge -useContext t stop k end_ s1
  split
  · rfl
  · next hguard =>
    rw [s.formsDigests_iff] at hguard
    simp only [not_or, not_not, ne_eq] at hguard
    obtain ⟨hlen, hforms, hmod, hfresh⟩ := hguard
    refine if_pos (Nat.div_eq_of_lt ?_)
    by_contra hone
    exact h ⟨hlen, hforms, hmod, by omega, hfresh⟩

end Sys2Proof.Machine
end

section
/-! The comparison of two digests of a tick, and O33 (R386, R387, R392, R393). -/
namespace Sys2Proof.Machine

variable {s t u : State}

/-! ## A digest that arrives -/

/-- The state in which both digests of a tick have been taken for their comparison. -/
def State.digestsTaken (s : State) : State :=
  { s.peerHeard with twn := { s.peerHeard.twn with own := [], peer := [] } }

theorem State.digestsTaken_does (s : State) : Does [.fresh, .twn] [14] s s.digestsTaken :=
  Does.put_twn (by decide) (State.peerHeard_does.call (by decide) Does.refl)

theorem State.digestsTaken_keepsRegs (s : State) : KeepsRegs [aTWN_STAT] s s.digestsTaken :=
  (KeepsRegs.refl _ s).latch (a := aTWN_STAT) (by simp) _

theorem State.digestsTaken_twin (s : State) : s.digestsTaken.twin = s.twin :=
  State.fld_latch_beside s _ _ _ (by decide) (by decide) (by decide)

theorem State.digestsTaken_joins (s : State) : s.digestsTaken.joins = s.joins := by
  unfold State.joins; rw [State.fld_congr _ (s.digestsTaken_keepsRegs _ (by decide))]

theorem State.digestsTaken_tickLen (s : State) : s.digestsTaken.tickLen = s.tickLen := by
  unfold State.tickLen; rw [State.fld_congr _ (s.digestsTaken_keepsRegs _ (by decide))]

theorem State.digestsTaken_isStandby (s : State) : s.digestsTaken.isStandby = s.isStandby := by
  unfold State.isStandby; rw [s.digestsTaken_twin]

/-- The twin's digest of the one tick whose own digest waits is compared with it. -/
theorem exec_digest_compares {tick : BitVec 64} {d e : BitVec 256} {own peer : Bool} (hforms : s.formsDigests)
    (hown : s.twn.own = [(tick, d, own)]) (hpeer : s.twn.peer = []) :
    exec (.digest tick e peer) s = .next (s.digestsTaken.compareTick tick.toNat (decide (d = e)) own peer) := by
  refine (if_pos hforms).trans (congrArg Host.Outcome.next ?_)
  have hown' : s.peerHeard.twn.own = [(tick, d, own)] := hown
  have hpeer' : s.peerHeard.twn.peer = [] := hpeer
  simp [State.compareAll, State.digestsTaken, hown', hpeer']

/-! ## The comparison -/

/-- A comparison counts for a join (R393): the tick lies beyond the run origin and 128 cycles. -/
def State.verifies (s : State) (k : Nat) (o : Count) : Prop :=
  s.joins = true ∧ s.twn.origin = some o ∧ s.tickLen ≠ 0 ∧ (o + cyc 128).toNat ≤ k * s.tickLen

section
variable {k : Nat} {o : Count} {equal own peer : Bool}

theorem State.compareTick_verified (h : s.verifies k o) : s.compareTick k equal own peer =
    if equal then
      let n := s.fld aTWN_JOIN fTWN_JOIN_EQUAL + 1
      let s1 := ((s.setFld aTWN_JOIN fTWN_JOIN_PHASE 3).setFld aTWN_JOIN fTWN_JOIN_EQUAL n).setWide aTWN_TICKS 2
        (s.wide aTWN_TICKS 2 + 1)
      if s.fld aTWN_CFG fTWN_CFG_VERN ≤ n then s1.joinDone else s1
    else s.failJoin := by
  obtain ⟨hjoins, horigin, hlen, hbeyond⟩ := h
  unfold State.compareTick
  rw [horigin]
  refine if_pos ?_
  rw [hjoins, Bool.true_and, Bool.and_eq_true, decide_eq_true_eq, decide_eq_true_eq]
  exact ⟨hlen, hbeyond⟩

theorem State.compareTick_pair (hpair : s.twin = twActive ∨ s.twin = twStandby) (hjoins : s.joins = false)
    (hsafe : s.twn.safeSplit = false) : s.compareTick k equal own peer =
      if equal then s.setWide aTWN_TICKS 2 (s.wide aTWN_TICKS 2 + 1) else s.diverge k own peer := by
  unfold State.compareTick
  refine (if_neg (by simp [hjoins])).trans ((if_neg (by simp [hjoins, hsafe])).trans (if_pos hpair))
end

/-- A tick of a join counted (R393). -/
def State.tickCounted (s : State) : State :=
  ((s.setFld aTWN_JOIN fTWN_JOIN_PHASE 3).setFld aTWN_JOIN fTWN_JOIN_EQUAL (s.fld aTWN_JOIN fTWN_JOIN_EQUAL + 1)).setWide
    aTWN_TICKS 2 (s.wide aTWN_TICKS 2 + 1)

theorem State.tickCounted_does (s : State) : Does [] [14] s s.tickCounted :=
  Does.setWide adr_TWN_TICKS (by decide) (Does.setFld adr_TWN_JOIN (by decide) (Does.setFld adr_TWN_JOIN (by decide) Does.refl))

theorem State.setWide_two_keepsRegs (s : State) (a v : Nat) : KeepsRegs [a, a + 4] s (s.setWide a 2 v) :=
  (KeepsRegs.refl _ s).setWide_two (by simp) (by simp) _

theorem State.tickCounted_shows (s : State) (h : s.fld aTWN_JOIN fTWN_JOIN_EQUAL + 1 < 256) : let t := s.tickCounted
    t.fld aTWN_JOIN fTWN_JOIN_PHASE = 3 ∧ t.fld aTWN_JOIN fTWN_JOIN_EQUAL = s.fld aTWN_JOIN fTWN_JOIN_EQUAL + 1 ∧
      t.twin = s.twin ∧ KeepsRegs [aTWN_JOIN, aTWN_TICKS, aTWN_TICKS + 4] s t := by
  let s1 := s.setFld aTWN_JOIN fTWN_JOIN_PHASE 3
  let s2 := s1.setFld aTWN_JOIN fTWN_JOIN_EQUAL (s.fld aTWN_JOIN fTWN_JOIN_EQUAL + 1)
  have hwide : KeepsRegs [aTWN_TICKS, aTWN_TICKS + 4] s2 s.tickCounted := s2.setWide_two_keepsRegs _ _
  have hkeeps : KeepsRegs [aTWN_JOIN, aTWN_TICKS, aTWN_TICKS + 4] s s.tickCounted :=
    (((KeepsRegs.refl _ s).setFld (a := aTWN_JOIN) (by simp) _ _).setFld (a := aTWN_JOIN) (by simp) _ _).trans
      (hwide.mono (by simp))
  refine ⟨?_, ?_, State.fld_congr _ (hkeeps _ (by decide)), hkeeps⟩
  · exact (State.fld_congr _ (hwide _ (by decide))).trans ((State.fld_setFld_beside s1 _ _ _ _ (by decide) (by decide)
      (by decide)).trans (State.fld_setFld_self s _ _ _ (by decide) (by decide)))
  · exact (State.fld_congr _ (hwide _ (by decide))).trans ((State.fld_setFld_self s1 _ _ _ (by decide) (by decide)).trans
      (Nat.mod_eq_of_lt h))

/-! ## A join that is verified -/

/-- PHASE shows the end of a join. -/
def State.joinShown (s : State) : State :=
  { s.setFld aTWN_JOIN fTWN_JOIN_PHASE 4 with twn := { s.twn with safeSplit := false } }

theorem State.joinShown_shows (s : State) : let t := s.joinShown
    t.fld aTWN_JOIN fTWN_JOIN_PHASE = 4 ∧ t.fld aTWN_JOIN fTWN_JOIN_EQUAL = s.fld aTWN_JOIN fTWN_JOIN_EQUAL :=
  ⟨State.fld_setFld_self s _ _ _ (by decide) (by decide),
    State.fld_setFld_beside s _ _ _ _ (by decide) (by decide) (by decide)⟩

theorem State.joinDone_eq (h : s.twin = twJoining ∨ s.twin = twSolo) :
    s.joinDone = s.joinShown.setTwin (if s.twin = twJoining then twStandby else twActive) := by
  unfold State.joinDone
  rcases h with h | h
  · rw [if_pos h, if_pos h]; rfl
  · rw [if_neg (by rw [h]; decide), if_pos h, if_neg (by rw [h]; decide)]; rfl

theorem State.joinDone_shows (h : s.twin = twJoining ∨ s.twin = twSolo) : let t := s.joinDone
    t.twin = (if s.twin = twJoining then twStandby else twActive) ∧ t.fld aTWN_JOIN fTWN_JOIN_PHASE = 4 ∧
      t.fld aTWN_JOIN fTWN_JOIN_EQUAL = s.fld aTWN_JOIN fTWN_JOIN_EQUAL := by
  obtain ⟨hphase, hequal⟩ := s.joinShown_shows
  have hst : (if s.twin = twJoining then twStandby else twActive) < 16 := by split <;> decide
  rw [State.joinDone_eq h]
  exact ⟨State.setTwin_twin _ hst, ((State.setTwin_keepsTwn _ _).fld (by decide) _).trans hphase,
    ((State.setTwin_keepsTwn _ _).fld (by decide) _).trans hequal⟩

/-! ## Digests that differ (R387) -/

/-- DIVERGE, its tick and FS 104, before the roles are decided. -/
def State.diverged (s : State) (k : Nat) (own peer : Bool) : State :=
  let s1 := (((s.latch aTWN_LAT fTWN_LAT_DIVERGE).setWide aTWN_DIVTICK 2 k).raise 104 islTwin)
  { s1 with twn := { s1.twn with blames := (own, peer) } }

theorem State.diverged_does (s : State) (k : Nat) (own peer : Bool) :
    Does [.agenda, .fresh, .twn] [14] s (s.diverged k own peer) :=
  Does.put_twn (by decide) (State.raise_does.call (by decide) (Does.setWide adr_TWN_DIVTICK (by decide)
    (Does.latch adr_TWN_LAT (by decide) Does.refl)))

theorem State.diverged_shows (s : State) {k : Nat} (hk : k < 2 ^ 64) (own peer : Bool) : let t := s.diverged k own peer
    t.bit aTWN_LAT fTWN_LAT_DIVERGE = true ∧ t.wide aTWN_DIVTICK 2 = k ∧ Raises 104 islTwin s t ∧ t.twin = s.twin := by
  have hwide : KeepsRegs [aTWN_DIVTICK, aTWN_DIVTICK + 4] (s.latch aTWN_LAT fTWN_LAT_DIVERGE) (s.diverged k own peer) :=
    State.setWide_two_keepsRegs _ _ _
  refine ⟨(State.bit_congr _ (hwide _ (by decide))).trans (State.bit_latch_self s _ _ rfl (by decide)),
    State.wide_setWide_self (s.latch aTWN_LAT fTWN_LAT_DIVERGE) aTWN_DIVTICK 2 hk, raises_of_count rfl _ _, ?_⟩
  exact State.fld_congr _ ((hwide _ (by decide)).trans (State.reg_latch_ne s _ (by decide)))

/-- Blame at the active alone, or equal blame with DIVPOL, asks for a col (R387). -/
def State.divergenceAsks (s : State) (own peer : Bool) : Prop :=
  (own = true ∧ peer = false ∧ s.twin = twActive) ∨ (own = false ∧ peer = true ∧ s.twin = twStandby) ∨
    (own = peer ∧ s.bit aTWN_CFG fTWN_CFG_DIVPOL = true)

theorem State.diverge_eq (s : State) (k : Nat) (own peer : Bool) : s.diverge k own peer =
    if (((if s.twin = twActive then own else peer) && !(if s.twin = twActive then peer else own)) ||
        ((if s.twin = twActive then own else peer) == (if s.twin = twActive then peer else own) &&
          s.bit aTWN_CFG fTWN_CFG_DIVPOL)) = true then
      (if s.twin = twActive then (s.diverged k own peer).requestCol 2 (s.count + cyc 192) else s.diverged k own peer)
    else if s.twin = twActive then (s.diverged k own peer).loseStandby else (s.diverged k own peer).enterHoldoff := rfl

theorem State.diverge_active (h : s.twin = twActive) (k : Nat) (own peer : Bool) [Decidable (s.divergenceAsks own peer)] :
    s.diverge k own peer = if s.divergenceAsks own peer then
      (s.diverged k own peer).requestCol 2 (s.count + cyc 192) else (s.diverged k own peer).loseStandby := by
  rw [State.diverge_eq]
  simp only [if_pos h]
  refine if_congr ?_ rfl rfl
  cases own <;> cases peer <;> simp [State.divergenceAsks, h, twActive, twStandby]

theorem State.diverge_standby (h : s.twin = twStandby) (k : Nat) (own peer : Bool) [Decidable (s.divergenceAsks own peer)] :
    s.diverge k own peer = if s.divergenceAsks own peer then s.diverged k own peer else (s.diverged k own peer).enterHoldoff := by
  have hne : ¬ s.twin = twActive := by rw [h]; decide
  rw [State.diverge_eq]
  simp only [if_neg hne]
  refine if_congr ?_ rfl rfl
  cases own <;> cases peer <;> simp [State.divergenceAsks, h, twActive, twStandby]

theorem State.loseStandby_held (s : State) : s.agenda ⊆ s.loseStandby.agenda := by
  have hlost : (s.setTwin twSolo).agenda ⊆ (s.setTwin twSolo).peerLost.agenda := (s.setTwin twSolo).peerLost_shows.2.2.2.2
  rw [s.setTwin_agenda] at hlost
  exact List.Subset.trans hlost (State.postAll_keepsDrivers _ _ _).held

/-- A latch of the twin island beside PEERLOST. -/
theorem State.loseStandby_lat (s : State) {g : Fld} (hg : g.hi < 2 ∨ 2 < g.lo) :
    s.loseStandby.bit aTWN_LAT g = s.bit aTWN_LAT g := by
  have hpost : Does [.agenda, .free, .fresh] [1, 3] (s.setTwin twSolo).peerLost s.loseStandby := State.postAll_does
  exact (State.bit_congr _ (hpost.regs (by decide) _ (by decide))).trans
    ((State.peerLost_bit _ hg).trans ((s.setTwin_keepsTwn _).bit (by decide) _))

end Sys2Proof.Machine
end

section
/-! Joins and digests (O33): the clauses assembled from what a comparison decides (R386, R387, R392, R393). -/
namespace Sys2Proof.Machine

variable {s t u : State}

theorem State.digestKept_does (s : State) (k : Nat) (stop : Count) (d : BitVec 256) : Does [.twn] [] s (s.digestKept k stop d) :=
  Does.put_twn (by decide) Does.refl

theorem State.digestFormed_does (s : State) (k : Nat) (stop : Count) :
    Does [.agenda, .causes, .fresh, .hbmMem, .acq, .hbm, .twn] [10, 12] s (s.digestFormed k stop) :=
  (State.digestKept_does _ _ _ _).call (by decide) (State.releaseTo_does.call (by decide) (State.mark_does.call (by decide) Does.refl))

theorem State.digestKept_shows (s : State) (k : Nat) (stop : Count) (d : BitVec 256) : let t := s.digestKept k stop d
    t.twn.own.map (fun x => (x.1, x.2.2)) = s.twn.own.map (fun x => (x.1, x.2.2)) ++ [(BitVec.ofNat 64 k, s.blame k)] ∧
      (∀ i ∈ t.twn.items, Count.upto stop i.at_ = true) ∧ t.twn.peer = s.twn.peer :=
  ⟨List.map_append, fun _ hi => (List.mem_filter.mp hi).2, rfl⟩

theorem State.digestFormed_shows (s : State) (k : Nat) (stop : Count) : let t := s.digestFormed k stop
    t.twn.own.map (fun x => (x.1, x.2.2)) = s.twn.own.map (fun x => (x.1, x.2.2)) ++ [(BitVec.ofNat 64 k, s.blame k)] ∧
      (∀ i ∈ t.twn.items, Count.upto stop i.at_ = true) ∧ t.twn.peer = s.twn.peer := by
  have htwn : KeepsTwnState s ((s.mark aTWN_TICKS 1).releaseTo stop) :=
    (KeepsTwnState.of_twn rfl).trans ((s.mark aTWN_TICKS 1).releaseTo_keepsTwnState stop)
  have hdoes : Does _ [10, 12] (s.mark aTWN_TICKS 1) ((s.mark aTWN_TICKS 1).releaseTo stop) := State.releaseTo_does
  have hblame : ((s.mark aTWN_TICKS 1).releaseTo stop).blame k = s.blame k :=
    State.blame_congr htwn.raises (fun a ha => hdoes.regs (by decide) a (by rw [ha]; decide)) k
  unfold State.digestFormed
  obtain ⟨hown, hitems, hpeer⟩ := ((s.mark aTWN_TICKS 1).releaseTo stop).digestKept_shows k stop _
  exact ⟨hown.trans (by rw [htwn.own, hblame]), hitems, hpeer.trans htwn.peer⟩

theorem exec_digestSend_shows (h : s.digestDue) (hpeer : s.twn.peer = []) :
    let last := (s.count - cyc 1000).toNat / s.tickLen - 1
    Completes .digestSend s (fun t =>
      t.twn.own.map (fun x => (x.1, x.2.2)) = s.twn.own.map (fun x => (x.1, x.2.2)) ++ [(BitVec.ofNat 64 last, s.blame last)] ∧
      (∀ i ∈ t.twn.items, Count.upto (BitVec.ofNat 72 ((last + 1) * s.tickLen)) i.at_ = true) ∧
      t.twin = s.twin ∧ t.sram = s.sram ∧ t.spill = s.spill) := by
  obtain ⟨d, b, v, hv, hexec⟩ := exec_digestSend_due h
  obtain ⟨hlen, -, -, hone, -⟩ := h
  have hstop : (s.count - cyc 1000).toNat / s.tickLen - 1 + 1 = (s.count - cyc 1000).toNat / s.tickLen :=
    Nat.succ_pred_eq_of_pos (Nat.div_pos hone (Nat.pos_of_ne_zero hlen))
  intro last
  have hformed := s.digestFormed_does last (BitVec.ofNat 72 ((last + 1) * s.tickLen))
  obtain ⟨hown, hitems, hpeer'⟩ := s.digestFormed_shows last (BitVec.ofNat 72 ((last + 1) * s.tickLen))
  rw [← hstop] at hv
  have hsent : Does _ _ (s.digestFormed last (BitVec.ofNat 72 ((last + 1) * s.tickLen))) v := hv ▸ State.sendFrame_does
  have htwn := hsent.same .twn (by decide) (by decide)
  rw [State.compareAll_none ((congrArg Twn.peer htwn).trans (hpeer'.trans hpeer))] at hexec
  refine ⟨v, hexec, ?_, ?_, State.fld_congr _ ((hsent.regs (by decide) _ (by decide)).trans (hformed.regs (by decide) _ (by decide))),
    (hsent.same .sram (by decide) (by decide)).trans (hformed.same .sram (by decide) (by decide)),
    (hsent.same .spill (by decide) (by decide)).trans (hformed.same .spill (by decide) (by decide))⟩
  · rw [congrArg Twn.own htwn]; exact hown
  · rw [congrArg Twn.items htwn]; exact hitems

/-! ## The digest that is compared alone -/

section
variable {tick : BitVec 64} {d e : BitVec 256} {own peer : Bool}

theorem State.digestsTaken_keepsMemory (s : State) : KeepsMemory s s.digestsTaken := .of_does s.digestsTaken_does (by decide)

section
variable (hpair : s.twin = twActive ∨ s.twin = twStandby) (hjoins : s.joins = false) (hsafe : s.twn.safeSplit = false)
  (hown : s.twn.own = [(tick, d, own)]) (hpeer : s.twn.peer = [])
include hpair hjoins hsafe hown hpeer

theorem exec_digest_pair : exec (.digest tick e peer) s = .next (if d = e then
    s.digestsTaken.setWide aTWN_TICKS 2 (s.digestsTaken.wide aTWN_TICKS 2 + 1) else s.digestsTaken.diverge tick.toNat own peer) := by
  have hforms : s.formsDigests := hpair.imp id (fun h => .inl (by simp [State.isStandby, h]))
  have hcompare := State.compareTick_pair (k := tick.toNat) (equal := decide (d = e)) (own := own) (peer := peer)
    (s.digestsTaken_twin.symm ▸ hpair) (s.digestsTaken_joins.trans hjoins) hsafe
  rw [exec_digest_compares hforms hown hpeer, hcompare]
  simp only [decide_eq_true_eq]

theorem exec_digest_equal : Completes (.digest tick d peer) s (fun t =>
    t.wide aTWN_TICKS 2 = (s.wide aTWN_TICKS 2 + 1) % 2 ^ 64 ∧ t.twn.own = [] ∧ t.twn.peer = [] ∧ t.twin = s.twin ∧
      t.agenda = s.agenda ∧ KeepsRegs [aTWN_STAT, aTWN_TICKS, aTWN_TICKS + 4] s t ∧ KeepsMemory s t) := by
  have hwide : s.digestsTaken.wide aTWN_TICKS 2 = s.wide aTWN_TICKS 2 := State.wide_congr (fun i hi => by
    interval_cases i <;> exact s.digestsTaken_keepsRegs _ (by decide))
  refine ⟨_, (exec_digest_pair hpair hjoins hsafe hown hpeer).trans (congrArg _ (if_pos rfl)), ?_, rfl, rfl, ?_,
    s.digestsTaken_does.same .agenda (by decide) (by decide), ?_, s.digestsTaken_keepsMemory⟩
  · rw [State.wide_setWide_two, hwide]
  · exact (State.fld_congr _ (s.digestsTaken.setWide_two_keepsRegs _ _ _ (by decide))).trans s.digestsTaken_twin
  · exact (s.digestsTaken_keepsRegs.mono (by simp)).trans ((s.digestsTaken.setWide_two_keepsRegs _ _).mono (by simp))

end

/-- The state in which two digests that differ have been found. -/
def State.digestsDiverged (s : State) (tick : BitVec 64) (own peer : Bool) : State := s.digestsTaken.diverged tick.toNat own peer

theorem State.digestsDiverged_shows (s : State) (tick : BitVec 64) (own peer : Bool) : let t := s.digestsDiverged tick own peer
    t.bit aTWN_LAT fTWN_LAT_DIVERGE = true ∧ t.wide aTWN_DIVTICK 2 = tick.toNat ∧ Raises 104 islTwin s t ∧
      KeepsMemory s t ∧ t.twin = s.twin ∧ t.count = s.count := by
  obtain ⟨hlat, htick, hraise, htwin⟩ := s.digestsTaken.diverged_shows tick.isLt own peer
  have hcount : s.digestsTaken.count = s.count := s.digestsTaken_does.same .count (by decide) (by decide)
  have hdoes := s.digestsTaken.diverged_does tick.toNat own peer
  refine ⟨hlat, htick, ?_, s.digestsTaken_keepsMemory.trans (.of_does hdoes (by decide)), htwin.trans s.digestsTaken_twin,
    (hdoes.same .count (by decide) (by decide)).trans hcount⟩
  unfold Raises at hraise ⊢
  rwa [hcount] at hraise

/-! ## A digest of a join -/

section
variable {o : Count} (hjoins : s.joins = true) (horigin : s.twn.origin = some o) (hlen : s.tickLen ≠ 0)
  (hbeyond : (o + cyc 128).toNat ≤ tick.toNat * s.tickLen) (hown : s.twn.own = [(tick, d, own)]) (hpeer : s.twn.peer = [])
  (hside : s.twin = twJoining ∨ s.twin = twSolo)
include hjoins horigin hlen hbeyond hown hpeer hside

theorem exec_digest_verified : exec (.digest tick e peer) s = .next (if d = e then
    (if s.fld aTWN_CFG fTWN_CFG_VERN ≤ s.fld aTWN_JOIN fTWN_JOIN_EQUAL + 1 then s.digestsTaken.tickCounted.joinDone
      else s.digestsTaken.tickCounted) else s.digestsTaken.failJoin) := by
  have hforms : s.formsDigests := .inr (hside.imp (fun h => by simp [State.isStandby, h]) (fun h => ⟨h, hjoins⟩))
  have hverifies : s.digestsTaken.verifies tick.toNat o :=
    ⟨by rwa [s.digestsTaken_joins], horigin, by rwa [s.digestsTaken_tickLen], by rwa [s.digestsTaken_tickLen]⟩
  have hfld : ∀ a f, a ≠ aTWN_STAT → s.digestsTaken.fld a f = s.fld a f :=
    fun a f ha => State.fld_congr _ (s.digestsTaken_keepsRegs a (by simpa using ha))
  rw [exec_digest_compares hforms hown hpeer, State.compareTick_verified hverifies, ← hfld aTWN_CFG _ (by decide),
    ← hfld aTWN_JOIN _ (by decide)]
  simp only [decide_eq_true_eq]
  rfl

end
end

/-! ## The commands -/

theorem State.divergenceAsks_taken (s : State) (own peer : Bool) :
    s.digestsTaken.divergenceAsks own peer ↔ s.divergenceAsks own peer := by
  unfold State.divergenceAsks
  rw [s.digestsTaken_twin, State.bit_congr (a := aTWN_CFG) _ (s.digestsTaken_keepsRegs _ (by decide))]

/-- What two digests of a pair that differ show, whichever module finds it. -/
def DivergeShown (tick : BitVec 64) (s t : State) : Prop :=
  t.bit aTWN_LAT fTWN_LAT_DIVERGE = true ∧ t.wide aTWN_DIVTICK 2 = tick.toNat ∧ Raises 104 islTwin s t ∧ KeepsMemory s t

theorem State.requestCol_held (s : State) (cause : BitVec 4) (d : Count) :
    (⟨d, .island islTwin, .cmd (.colApply cause)⟩ : Due) ∈ (s.requestCol cause d).agenda := (mem_insertDue _ _ _).mpr (.inl rfl)

theorem State.requestCol_twin (s : State) (cause : BitVec 4) (d : Count) : (s.requestCol cause d).twin = s.twin := rfl

theorem DivergeShown.requestCol {tick : BitVec 64} (h : DivergeShown tick s u) (cause : BitVec 4) (d : Count) :
    DivergeShown tick s (u.requestCol cause d) := by
  obtain ⟨hlat, htick, hraise, hmem⟩ := h
  exact ⟨hlat, htick, (mem_insertDue _ _ _).mpr (.inr hraise), hmem⟩

theorem DivergeShown.loseStandby {tick : BitVec 64} (h : DivergeShown tick s u) : DivergeShown tick s u.loseStandby := by
  obtain ⟨hlat, htick, hraise, hmem⟩ := h
  refine ⟨(u.loseStandby_lat (by decide)).trans hlat, (State.wide_congr (fun i hi => ?_)).trans htick,
    u.loseStandby_held hraise, hmem.trans u.loseStandby_shows.2.2.2.2.2⟩
  interval_cases i <;> exact u.loseStandby_keepsTwn _ (by decide) (by decide)

theorem DivergeShown.enterHoldoff {tick : BitVec 64} (h : DivergeShown tick s u) : DivergeShown tick s u.enterHoldoff := by
  obtain ⟨hlat, htick, hraise, hmem⟩ := h
  obtain ⟨-, -, -, hheld, -, hmem'⟩ := u.enterHoldoff_shows
  refine ⟨(u.enterHoldoff_keepsTwn.bit (by decide) _).trans hlat, (State.wide_congr (fun i hi => ?_)).trans htick,
    hheld hraise, hmem.trans hmem'⟩
  interval_cases i <;> exact u.enterHoldoff_keepsTwn _ (by decide) (by decide)

theorem State.diverge_of_active (h : s.twin = twActive) (tick : BitVec 64) (own peer : Bool) :
    let t := s.digestsTaken.diverge tick.toNat own peer
    DivergeShown tick s t ∧ (s.divergenceAsks own peer → t.twin = twActive ∧
      (⟨s.count + cyc 192, .island islTwin, .cmd (.colApply 2)⟩ : Due) ∈ t.agenda) ∧
    (¬ s.divergenceAsks own peer → t.twin = twSolo ∧ t.bit aTWN_LAT fTWN_LAT_PEERLOST = true ∧ Raises 106 islTwin s t) := by
  classical
  obtain ⟨hlat, htick, hraise, hmem, htwin, hcount⟩ := s.digestsDiverged_shows tick own peer
  have hshown : DivergeShown tick s (s.digestsDiverged tick own peer) := ⟨hlat, htick, hraise, hmem⟩
  have htaken : s.digestsTaken.count = s.count := s.digestsTaken_does.same .count (by decide) (by decide)
  have ht := State.diverge_active (s.digestsTaken_twin.trans h) tick.toNat own peer
  rw [htaken] at ht
  change _ = if _ then (s.digestsDiverged tick own peer).requestCol _ _ else (s.digestsDiverged tick own peer).loseStandby at ht
  generalize s.digestsDiverged tick own peer = u at ht hshown htwin hcount
  intro t
  by_cases hasks : s.divergenceAsks own peer
  · rw [show t = _ from ht, if_pos ((s.divergenceAsks_taken own peer).mpr hasks)]
    exact ⟨hshown.requestCol _ _, fun _ => ⟨(u.requestCol_twin _ _).trans (htwin.trans h), u.requestCol_held _ _⟩, fun hn => absurd hasks hn⟩
  · rw [show t = _ from ht, if_neg (fun h => hasks ((s.divergenceAsks_taken own peer).mp h))]
    obtain ⟨hsolo, hlost, hraise', -⟩ := u.loseStandby_shows
    refine ⟨hshown.loseStandby, fun hp => absurd hp hasks, fun _ => ⟨hsolo, hlost, ?_⟩⟩
    unfold Raises at hraise' ⊢
    rwa [hcount] at hraise'

theorem State.diverge_of_standby (h : s.twin = twStandby) (tick : BitVec 64) (own peer : Bool) :
    let t := s.digestsTaken.diverge tick.toNat own peer
    DivergeShown tick s t ∧ (s.divergenceAsks own peer → t.twin = twStandby) ∧
    (¬ s.divergenceAsks own peer → t.twin = twHoldoff ∧ ∀ c : Chan, t.drvEn c.val = false) := by
  classical
  obtain ⟨hlat, htick, hraise, hmem, htwin, -⟩ := s.digestsDiverged_shows tick own peer
  have hshown : DivergeShown tick s (s.digestsDiverged tick own peer) := ⟨hlat, htick, hraise, hmem⟩
  have ht := State.diverge_standby (s.digestsTaken_twin.trans h) tick.toNat own peer
  change _ = if _ then s.digestsDiverged tick own peer else (s.digestsDiverged tick own peer).enterHoldoff at ht
  generalize s.digestsDiverged tick own peer = u at ht hshown htwin
  intro t
  by_cases hasks : s.divergenceAsks own peer
  · rw [show t = _ from ht, if_pos ((s.divergenceAsks_taken own peer).mpr hasks)]
    exact ⟨hshown, fun _ => htwin.trans h, fun hn => absurd hasks hn⟩
  · rw [show t = _ from ht, if_neg (fun h => hasks ((s.divergenceAsks_taken own peer).mp h))]
    obtain ⟨hhold, -, hoff, -⟩ := u.enterHoldoff_shows
    exact ⟨hshown.enterHoldoff, fun hp => absurd hp hasks, fun _ => ⟨hhold, hoff⟩⟩

/-- A tick of a join counted, from the state in which both digests have been taken. -/
theorem State.taken_tickCounted_shows (h : s.fld aTWN_JOIN fTWN_JOIN_EQUAL + 1 < 256) : let t := s.digestsTaken.tickCounted
    t.fld aTWN_JOIN fTWN_JOIN_PHASE = 3 ∧ t.fld aTWN_JOIN fTWN_JOIN_EQUAL = s.fld aTWN_JOIN fTWN_JOIN_EQUAL + 1 ∧
      t.twin = s.twin ∧ KeepsRegs [aTWN_JOIN, aTWN_STAT, aTWN_TICKS, aTWN_TICKS + 4] s t ∧ KeepsMemory s t := by
  have hfld : s.digestsTaken.fld aTWN_JOIN fTWN_JOIN_EQUAL = s.fld aTWN_JOIN fTWN_JOIN_EQUAL :=
    State.fld_congr _ (s.digestsTaken_keepsRegs _ (by decide))
  obtain ⟨hphase, hequal, htwin, hkeeps⟩ := s.digestsTaken.tickCounted_shows (by rwa [hfld])
  exact ⟨hphase, hequal.trans (by rw [hfld]), htwin.trans s.digestsTaken_twin,
    (s.digestsTaken_keepsRegs.mono (by simp)).trans (hkeeps.mono (by simp)),
    s.digestsTaken_keepsMemory.trans (.of_does s.digestsTaken.tickCounted_does (by decide))⟩

theorem exec_joinCopyDone_shows (h : s.fld aTWN_JOIN fTWN_JOIN_PHASE = 1) : Completes .joinCopyDone s (fun t =>
    t.fld aTWN_JOIN fTWN_JOIN_PHASE = 2 ∧ t.twn.origin = some (Count.ceilTo (s.count + 192000000#72) (max 1 s.tickLen)) ∧
      KeepsRegs [aTWN_JOIN] s t ∧ KeepsMemory s t) := by
  let v := putF (fldWord fTWN_JOIN_PHASE 2) ⟨15, 8⟩ 255
  have hreg : (s.setReg aTWN_JOIN v).reg aTWN_JOIN = v := State.reg_setReg_self s _ _
  have hphase : (s.setReg aTWN_JOIN v).fld aTWN_JOIN fTWN_JOIN_PHASE = 2 := by unfold State.fld; rw [hreg]; decide
  exact ⟨_, if_pos h, hphase, rfl, keepsRegs_setReg s _ _, .of_fields rfl rfl rfl⟩

/-- Settles O33: a join by `State.enterJoining_shows` and `State.startCopy_shows`, a digest formed by
`exec_digestSend_shows`, and two compared by `exec_digest_pair` or `exec_digest_verified` with what a divergence and a
verified join show. -/
theorem joinsAndDigests : Obligations.JoinsAndDigests := by
  unfold Obligations.JoinsAndDigests
  intro by_ tick d e own peer o s paired shown verified equal forms last blames diverged
  refine ⟨fun h => ?joins, fun h hjoins hpeer => ?orders, fun h hjoins hpeer hcharge => ?copies, fun h hrise => ?ordersActive,
    fun h => ?ignores, exec_joinCopyDone_shows, fun h => ⟨s, if_neg h, rfl⟩, exec_digestSend_shows,
    fun h => ⟨s, exec_digestSend_rests h, rfl⟩, ?equal, ?active, ?standby, ?verified, ?counted, ?failed, fun h => ?ignoresDigest⟩
  case joins =>
    obtain ⟨htwin, hlpe, htbs, hphase, -, -, hmem⟩ := s.enterJoining_shows
    exact ⟨_, if_pos h, htwin, hlpe, htbs, hphase, hmem⟩
  case orders =>
    refine ⟨_, (if_neg (by rw [h]; decide)).trans ((if_neg (by simp [h, twSolo, twActive])).trans ((if_pos ⟨h, hjoins⟩).trans
      (congrArg _ (if_neg hpeer)))), rfl⟩
  case copies =>
    obtain ⟨hphase, -, hkeeps⟩ := s.startCopy_shows
    refine ⟨_, (if_neg (by rw [h]; decide)).trans ((if_neg (by simp [h, twSolo, twActive])).trans ((if_pos ⟨h, hjoins⟩).trans
      (congrArg _ ((if_pos hpeer).trans (State.startJoin_begins hcharge))))), hphase,
      (State.fld_congr _ (hkeeps _ (by decide))).trans h, hkeeps, .of_fields rfl rfl rfl⟩
  case ordersActive =>
    exact ⟨_, (if_neg (by rw [h]; decide)).trans (if_pos ⟨h, hrise⟩), rfl⟩
  case ignores =>
    refine ⟨s, (if_neg ?_).trans ((if_neg ?_).trans (if_neg ?_)), rfl⟩ <;>
      rcases h with h | h | h | h | h <;> simp [h, twHoldoff, twDetached, twNegotiate, twJoining, twStandby, twSolo, twActive]
  case equal =>
    rintro ⟨hpair, hjoins, hsafe, hown, hpeer⟩
    exact exec_digest_equal hpair hjoins hsafe hown hpeer
  case active =>
    rintro ⟨hpair, hjoins, hsafe, hown, hpeer⟩ hne h
    exact ⟨_, (exec_digest_pair hpair hjoins hsafe hown hpeer).trans (congrArg _ (if_neg hne.symm)),
      State.diverge_of_active h tick own peer⟩
  case standby =>
    rintro ⟨hpair, hjoins, hsafe, hown, hpeer⟩ hne h
    exact ⟨_, (exec_digest_pair hpair hjoins hsafe hown hpeer).trans (congrArg _ (if_neg hne.symm)),
      State.diverge_of_standby h tick own peer⟩
  case verified =>
    rintro ⟨hjoins, horigin, hlen, hbeyond, hown, hpeer⟩ hside hlt hvern
    obtain ⟨-, hequal, htwin, -, hmem⟩ := State.taken_tickCounted_shows hlt
    obtain ⟨hdone, hphase, hequal'⟩ := State.joinDone_shows (htwin.symm ▸ hside)
    refine ⟨_, (exec_digest_verified hjoins horigin hlen hbeyond hown hpeer hside).trans (congrArg _ ((if_pos rfl).trans
      (if_pos hvern))), ?_, hphase, hequal'.trans hequal, hmem.trans (.of_does State.joinDone_does (by decide))⟩
    rw [hdone, htwin]
  case counted =>
    rintro ⟨hjoins, horigin, hlen, hbeyond, hown, hpeer⟩ hside hlt hvern
    obtain ⟨hphase, hequal, htwin, hkeeps, hmem⟩ := State.taken_tickCounted_shows hlt
    exact ⟨_, (exec_digest_verified hjoins horigin hlen hbeyond hown hpeer hside).trans (congrArg _ ((if_pos rfl).trans
      (if_neg (Nat.not_le.mpr hvern)))), htwin, hphase, hequal, hkeeps, hmem⟩
  case failed =>
    rintro ⟨hjoins, horigin, hlen, hbeyond, hown, hpeer⟩ hside hne
    have hst : s.digestsTaken.isStandby = true := s.digestsTaken_isStandby.trans (by simp [State.isStandby, hside])
    obtain ⟨hphase, hlat, hraise, hmem, hleft⟩ := State.failJoin_shows (.inl hst)
    obtain ⟨htwin, -, hoff⟩ := hleft hst
    refine ⟨_, (exec_digest_verified hjoins horigin hlen hbeyond hown hpeer (.inl hside)).trans (congrArg _
      (if_neg hne.symm)), htwin, hphase, hlat, ?_, hoff, s.digestsTaken_keepsMemory.trans hmem⟩
    unfold Raises at hraise ⊢
    rwa [s.digestsTaken_does.same .count (by decide) (by decide)] at hraise
  case ignoresDigest =>
    refine ⟨_, if_neg ?_, rfl⟩
    simp [State.isStandby, h, twDetached, twJoining, twStandby, twSolo, twActive]


end Sys2Proof.Machine
end

section
/-! OWN outside ACTIVE_SOLO and ACTIVE (O52): a state whose register table, against its canonical form, names TWN_STAT twice. -/
namespace Sys2Proof.Machine

theorem blockOfCode_twn : blockOfCode 14 = some 14 := by decide +kernel

/-- A detached module with OWN low, whose table of registers names TWN_STAT a second time, with OWN high. -/
def State.statTwice : State := { regs := [(aTWN_STAT, 0), (aTWN_STAT, 1)] }

theorem State.statTwice_own : State.statTwice.bit aTWN_STAT fTWN_STAT_OWN = false := by decide +kernel

/-- The reset of TWN writes back what each entry of the table holds in the fields that it keeps, so the second entry decides. -/
theorem State.statTwice_blockReset : (State.statTwice.blockReset 14).regs = [(aTWN_STAT, 1)] := by decide +kernel

theorem State.statTwice_blockReset_not_legal : ¬ (State.statTwice.blockReset 14).OwnsLegally := by
  unfold State.OwnsLegally State.twin State.bit State.fld State.reg
  rw [State.statTwice_blockReset]
  decide +kernel

/-- Refutes O52: it is said of every state, also of one whose registers are not in the canonical form that every step keeps
(O51). In `State.statTwice` OWN reads low, and RSTCMD_BLOCK of TWN leaves it high in a detached module. -/
theorem not_ownOnlyWhenActive : ¬ Obligations.OwnOnlyWhenActive := by
  unfold Obligations.OwnOnlyWhenActive
  intro h
  have hlegal : ({ State.statTwice with pending := [.rstcmdBlock (.port 0) 14] } : State).OwnsLegally :=
    fun hown => absurd (State.statTwice_own.symm.trans hown) (by decide)
  have hstep : step { State.statTwice with pending := [.rstcmdBlock (.port 0) 14] } = .next (State.statTwice.blockReset 14) :=
    execRstcmdBlock_reset (s := State.statTwice) (by_ := .port 0) (code := 14) blockOfCode_twn (by decide)
  exact State.statTwice_blockReset_not_legal (h _ _ hlegal hstep)

end Sys2Proof.Machine
end

section
/-! Shipped items, forwarded writes and FERRY (O34). -/
namespace Sys2Proof.Machine

variable {s t u : State}

/-! ## What a memory's status is read off -/

theorem State.plainBase_congr (hstr : t.str = s.str) (r : Region) : t.plainBase r = s.plainBase r := by
  simp only [State.plainBase, hstr]

theorem State.segBytes_congr (hstr : t.str = s.str) (hsram : t.sram = s.sram) (off n : Nat) :
    t.segBytes off n = s.segBytes off n := by
  simp only [State.segBytes, State.plainBase_congr hstr, hsram]

theorem State.seqDesc_congr (hstr : t.str = s.str) (hsram : t.sram = s.sram) (q : Nat) : t.seqDesc q = s.seqDesc q :=
  State.segBytes_congr hstr hsram _ _

theorem State.seqSegs_congr (hstr : t.str = s.str) (hsram : t.sram = s.sram) (q : Nat) : t.seqSegs q = s.seqSegs q := by
  simp only [State.seqSegs, State.seqCount, State.seqEntry, State.seqFirst, State.seqDesc_congr hstr hsram,
    State.segBytes_congr hstr hsram]

theorem State.segDesc_congr (hstr : t.str = s.str) (hsram : t.sram = s.sram) : t.segDesc = s.segDesc :=
  funext (fun _ => State.segBytes_congr hstr hsram _ _)

theorem State.seqAreas_congr (hstr : t.str = s.str) (hsram : t.sram = s.sram) : t.seqAreas = s.seqAreas := by
  funext q
  unfold State.seqAreas State.seqFirst State.seqCount
  rw [State.segDesc_congr hstr hsram, State.seqDesc_congr hstr hsram, State.seqSegs_congr hstr hsram]

theorem State.seqRanges_congr (hstr : t.str = s.str) (hsram : t.sram = s.sram) : t.seqRanges = s.seqRanges := by
  funext q
  unfold State.seqRanges
  rw [State.segDesc_congr hstr hsram, State.seqSegs_congr hstr hsram]

theorem State.isProtected_congr (hseg : ∀ a, regBlk a = 7 → t.reg a = s.reg a) (q : Nat) :
    t.isProtected q = s.isProtected q := by
  have hsealed : regBlk (aSEG_SEALED (q / 32)) = 7 := by unfold regBlk aSEG_SEALED; omega
  simp only [State.isProtected, State.isSealed, hseg _ hsealed, State.bit_congr _ (hseg aSEG_CSTAT (by decide)),
    State.fld_congr _ (hseg aSEG_CSTAT (by decide))]

theorem State.sealedBytes_congr (hstr : t.str = s.str) (hsram : t.sram = s.sram) (hseg : ∀ a, regBlk a = 7 → t.reg a = s.reg a)
    (hbm : Bool) (off n : Nat) : t.sealedBytes hbm off n = s.sealedBytes hbm off n := by
  unfold State.sealedBytes
  rw [funext (State.isProtected_congr hseg), State.seqRanges_congr hstr hsram, State.seqAreas_congr hstr hsram]

theorem State.sramRegion_congr (hstr : t.str = s.str) (off : Nat) : t.sramRegion off = s.sramRegion off := by
  simp only [State.sramRegion, State.plainBase_congr hstr]

theorem State.paramInactive_congr (hlpe : ∀ a, regBlk a = 6 → t.reg a = s.reg a) (o n : Nat) :
    t.paramInactive o n = s.paramInactive o n := by
  have hgen (e : Nat) : regBlk (aLPE_GEN e) = 6 := by unfold regBlk aLPE_GEN; omega
  have hclaim (e : Nat) : regBlk (aLPE_CLAIM e) = 6 := by unfold regBlk aLPE_CLAIM; omega
  simp only [State.paramInactive, State.paramByteFree, hlpe _ (hgen _), hlpe _ (hclaim _)]

theorem State.sramWritable_congr (hstr : t.str = s.str) (hsram : t.sram = s.sram)
    (hregs : ∀ a, regBlk a ≠ 14 → t.reg a = s.reg a) (off n : Nat) : t.sramWritable off n = s.sramWritable off n := by
  simp only [State.sramWritable, hstr, State.sramRegion_congr hstr,
    State.sealedBytes_congr hstr hsram (fun a ha => hregs a (by omega)),
    State.paramInactive_congr (fun a ha => hregs a (by omega))]

theorem State.hbmRegionAt_congr (hregs : ∀ a, regBlk a = 12 → t.reg a = s.reg a) : t.hbmRegionAt = s.hbmRegionAt := by
  have hbase (r : Nat) (f : Fld) := State.fld_congr f (hregs (aHBM_RGN_BASE r) (by unfold regBlk aHBM_RGN_BASE; omega))
  have hsize (r : Nat) (f : Fld) := State.fld_congr f (hregs (aHBM_RGN_SIZE r) (by unfold regBlk aHBM_RGN_SIZE; omega))
  have hkind (r : Nat) (f : Fld) := State.fld_congr f (hregs (aHBM_RGN_KIND r) (by unfold regBlk aHBM_RGN_KIND; omega))
  funext off
  unfold State.hbmRegionAt
  refine congrArg (fun p => (List.range 16).find? p) (funext (fun r => ?_))
  rw [hbase, hsize, hkind]

/-- The status of a memory access is read off the structure, the plain and the registers of other blocks than TWN. -/
theorem State.memStatus_congr (hstr : t.str = s.str) (hsram : t.sram = s.sram)
    (hregs : ∀ a, regBlk a ≠ 14 → t.reg a = s.reg a) (sp off n : Nat) (write : Bool) :
    t.memStatus sp off n write = s.memStatus sp off n write := by
  have hkind (r : Nat) (f : Fld) : t.fld (aHBM_RGN_KIND r) f = s.fld (aHBM_RGN_KIND r) f :=
    State.fld_congr f (hregs _ (by unfold regBlk aHBM_RGN_KIND; omega))
  have hone (n : Nat) : t.sramOne off n = s.sramOne off n := by simp only [State.sramOne, hstr, State.sramRegion_congr hstr]
  have hsource : t.inSource = s.inSource := by unfold State.inSource; rw [hstr]
  unfold State.memStatus
  rw [hone, hsource, State.sramWritable_congr hstr hsram hregs, State.hbmRegionAt_congr (fun a ha => hregs a (by omega))]
  simp only [hkind, State.sealedBytes_congr hstr hsram (fun a ha => hregs a (by omega))]

/-! ## Items that arrive (R378, R390) -/

theorem State.judgeMissed_none (h : s.twn.missed = []) : s.judgeMissed = s := by
  have hs : ({ s with twn := { s.twn with missed := [] } } : State) = s := by rw [← h]
  unfold State.judgeMissed
  rw [h, hs]
  rfl

theorem State.lateInternal_held (s : State) (kind src dst : Nat) (due arr : Count) :
    s.agenda ⊆ (s.lateInternal kind src dst due arr).agenda := by
  change s.agenda ⊆ (s.late kind src dst due arr).agenda
  rw [State.late_agenda]
  exact subset_insertDue _ _

/-- A result that the twin has missed is late. -/
def State.lateMissed (s : State) (x : Nat × Nat × Count) : State := s.lateInternal 3 77 x.1 x.2.2 s.count

theorem State.lateMissed_does (s : State) (x : Nat × Nat × Count) :
    Does [.agenda, .fresh] [1] s (s.lateMissed x) := State.lateInternal_does

theorem State.lateMissed_shows (hcount : t.count = s.count) (x : Nat × Nat × Count) : let u := t.lateMissed x
    Raises 8 (Fin.ofNat 80 x.1) s u ∧ u.bit aTBS_LATE fTBS_LATE_INTERNAL = true ∧ t.agenda ⊆ u.agenda :=
  have h := State.lateInternal_shows hcount 3 77 x.1 x.2.2 t.count
  ⟨h.1, h.2, t.lateInternal_held _ _ _ _ _⟩

/-- The actions that stay held, and INTERNAL, over results that are late. -/
theorem State.lates_show (l : List (Nat × Nat × Count)) (hcount : t.count = s.count) :
    let u := l.foldl State.lateMissed t
    t.agenda ⊆ u.agenda ∧ (t.bit aTBS_LATE fTBS_LATE_INTERNAL = true ∨ l ≠ [] → u.bit aTBS_LATE fTBS_LATE_INTERNAL = true) ∧
      ∀ x ∈ l, Raises 8 (Fin.ofNat 80 x.1) s u := by
  induction l generalizing t with
  | nil => exact ⟨fun _ h => h, fun h => h.resolve_right (fun h => h rfl), fun x hx => absurd hx List.not_mem_nil⟩
  | cons y l ih =>
    obtain ⟨hraise, hinternal, hheld⟩ := State.lateMissed_shows hcount y
    have hstep : (t.lateMissed y).count = s.count :=
      ((t.lateMissed_does y).same .count (by decide) (by decide)).trans hcount
    obtain ⟨hrest, hbit, hraises⟩ := ih hstep
    rw [List.foldl_cons]
    refine ⟨fun d hd => hrest (hheld hd), fun _ => hbit (.inl hinternal), fun x hx => ?_⟩
    rcases List.mem_cons.mp hx with rfl | hx
    · exact hrest hraise
    · exact hraises x hx

/-- The results missed have been taken for their judgement. -/
def State.missedTaken (s : State) : State := { s with twn := { s.twn with missed := [] } }

theorem State.judgeMissed_eq (s : State) : s.judgeMissed = s.twn.missed.foldl State.lateMissed s.missedTaken := rfl

theorem State.judgeMissed_shows (s : State) : let t := s.judgeMissed
    t.twn.missed = [] ∧ s.agenda ⊆ t.agenda ∧
      (s.bit aTBS_LATE fTBS_LATE_INTERNAL = true ∨ s.twn.missed ≠ [] → t.bit aTBS_LATE fTBS_LATE_INTERNAL = true) ∧
      ∀ x ∈ s.twn.missed, Raises 8 (Fin.ofNat 80 x.1) s t := by
  rw [s.judgeMissed_eq]
  have hdoes : Does [.agenda, .fresh] [1] s.missedTaken (s.twn.missed.foldl State.lateMissed s.missedTaken) :=
    Does.foldl (fun t x => t.lateMissed_does x) Does.refl
  exact ⟨congrArg Twn.missed (hdoes.same .twn (by decide) (by decide)), State.lates_show (s := s) (t := s.missedTaken) s.twn.missed rfl⟩

/-- The twin has been heard, with a shipped frame. -/
def State.shipHeard (s : State) : State := if s.isStandby then s.peerHeard.latch aTWN_STAT fTWN_STAT_PEER_OWN else s.peerHeard

theorem State.shipHeard_does (s : State) : Does [.fresh, .twn] [14] s s.shipHeard :=
  Does.ite (fun _ => Does.latch adr_TWN_STAT (by decide) (State.peerHeard_does.call (by decide) Does.refl))
    (fun _ => State.peerHeard_does.call (by decide) Does.refl)

theorem State.shipHeard_shows (s : State) : let t := s.shipHeard
    KeepsRegs [aTWN_STAT] s t ∧ t.twin = s.twin ∧ t.twn = { s.twn with rxAt := some s.count } := by
  have hheard : KeepsRegs [aTWN_STAT] s s.peerHeard := s.peerHeard_shows.2
  have htwin : s.peerHeard.twin = s.twin := State.fld_latch_beside s _ _ _ (by decide) (by decide) (by decide)
  intro t
  unfold t State.shipHeard
  split
  · exact ⟨hheard.latch (by simp) _,
      (State.fld_latch_beside s.peerHeard _ _ _ (by decide) (by decide) (by decide)).trans htwin, rfl⟩
  · exact ⟨hheard, htwin, rfl⟩

theorem State.shipHeard_isStandby (s : State) : s.shipHeard.isStandby = s.isStandby := by
  unfold State.isStandby; rw [s.shipHeard_shows.2.1]

theorem State.shipHeard_takesItem (s : State) (it : ShipItem) : s.shipHeard.takesItem it = s.takesItem it := by
  unfold State.takesItem; rw [s.shipHeard_isStandby, s.shipHeard_shows.2.1]

theorem State.shipHeard_count (s : State) : s.shipHeard.count = s.count := s.shipHeard_does.same .count (by decide) (by decide)

theorem exec_ship_none : exec (.ship [] false false) s = .next s.shipHeard.judgeMissed := rfl

theorem exec_ship_one (it : ShipItem) : exec (.ship [it] false false) s = .next ((
    if !(s.shipHeard.takesItem it) then s.shipHeard
    else if Count.upto (Count.cycleStart s.shipHeard.count) (Count.cycleStart (itemDue it)) then
      s.shipHeard.hold (.island (itemSource it)) (itemDue it) (.shipped it)
    else s.shipHeard.lateItem it).judgeMissed) := rfl

theorem exec_ship_holds {it : ShipItem} (htakes : s.takesItem it = true)
    (hdue : Count.upto (Count.cycleStart s.count) (Count.cycleStart (itemDue it)) = true) : exec (.ship [it] false false) s =
      .next (s.shipHeard.hold (.island (itemSource it)) (itemDue it) (.shipped it)).judgeMissed := by
  rw [exec_ship_one, s.shipHeard_takesItem, htakes, s.shipHeard_count, hdue, Bool.not_true, if_neg Bool.false_ne_true,
    if_pos rfl]

theorem exec_ship_late {it : ShipItem} (htakes : s.takesItem it = true)
    (hdue : ¬ Count.upto (Count.cycleStart s.count) (Count.cycleStart (itemDue it)) = true) :
    exec (.ship [it] false false) s = .next (s.shipHeard.lateItem it).judgeMissed := by
  rw [exec_ship_one, s.shipHeard_takesItem, htakes, s.shipHeard_count, Bool.not_true, if_neg Bool.false_ne_true,
    if_neg hdue]

theorem exec_ship_ignores {it : ShipItem} (htakes : s.takesItem it = false) :
    exec (.ship [it] false false) s = .next s.shipHeard.judgeMissed := by
  rw [exec_ship_one, s.shipHeard_takesItem, htakes, Bool.not_false, if_pos rfl]

end Sys2Proof.Machine
end

section
/-! Shipped items, forwarded writes and FERRY (O34): the commands. -/
namespace Sys2Proof.Machine

variable {s t u : State}

/-! ## An item that is late (R390) -/

/-- The results of an item have been found late before (R390). -/
def State.toldLate (s : State) (it : ShipItem) : Prop :=
  s.twin = twStandby ∧ itemResults it ≠ [] ∧ ∀ r ∈ itemResults it, (s.mu r.1 r.2).valid = true ∧
    Count.upto (itemDue it) (s.mu r.1 r.2).due = true ∧ (r.1, r.2, itemDue it) ∉ s.twn.missed

/-- The results of an item are no more among those missed. -/
def State.itemForgotten (s : State) (it : ShipItem) : State :=
  { s with twn := { s.twn with
    missed := s.twn.missed.filter (fun x => !((itemResults it).contains (x.1, x.2.1) && x.2.2 == itemDue it)) } }

theorem State.itemForgotten_does (s : State) (it : ShipItem) : Does [.twn] [] s (s.itemForgotten it) :=
  Does.put_twn (by decide) Does.refl

theorem State.lateItem_eq (s : State) (it : ShipItem) [Decidable (s.toldLate it)] : s.lateItem it =
    if s.toldLate it then s.itemForgotten it
    else (s.itemForgotten it).lateInternal 3 77 (itemIsland it) (itemDue it) s.count := by
  unfold State.lateItem
  refine if_congr ?_ rfl rfl
  simp only [State.toldLate, Bool.and_eq_true, Bool.not_eq_true', List.isEmpty_eq_false_iff, List.all_eq_true,
    List.contains_eq_mem, decide_eq_false_iff_not, beq_iff_eq, and_assoc]
  exact and_rotate.symm

theorem State.shipHeard_toldLate (s : State) (it : ShipItem) : s.shipHeard.toldLate it ↔ s.toldLate it := by
  obtain ⟨-, htwin, htwn⟩ := s.shipHeard_shows
  have hmu := State.mu_congr (s.shipHeard_does.same .meas (by decide) (by decide))
  unfold State.toldLate
  simp only [htwin, htwn, hmu]

/-! ## Forwarded writes (R380) -/

theorem bytesWords_leBytes (w : Word) : bytesWords (leBytes 4 w.toNat) = [w] := by
  have hlt := w.isLt
  have hval : leNat [BitVec.ofNat 8 w.toNat, BitVec.ofNat 8 (w.toNat / 256), BitVec.ofNat 8 (w.toNat / 256 / 256),
      BitVec.ofNat 8 (w.toNat / 256 / 256 / 256)] = w.toNat := by
    simp only [leNat, BitVec.toNat_ofNat]
    omega
  change [BitVec.ofNat 32 (leNat [_, _, _, _])] = [w]
  rw [hval, BitVec.ofNat_toNat, BitVec.setWidth_eq]

theorem toNat_cycleStart (c : Count) : (Count.cycleStart c).toNat = c.toNat / 128 * 128 := by
  have hshift : Count.cycleStart c = (c >>> 7) <<< 7 := by
    unfold Count.cycleStart
    ext i hi
    have hmask : ∀ i < 72, (~~~ 127#72).getLsbD i = decide (7 ≤ i) := by decide
    rw [← BitVec.getLsbD_eq_getElem, ← BitVec.getLsbD_eq_getElem, BitVec.getLsbD_and, hmask i hi, BitVec.getLsbD_shiftLeft,
      BitVec.getLsbD_ushiftRight]
    by_cases h : 7 ≤ i <;> simp [h, hi, Nat.not_lt.mpr, Nat.lt_of_not_le]
  have hlt := c.isLt
  rw [hshift, BitVec.toNat_shiftLeft, BitVec.toNat_ushiftRight, Nat.shiftLeft_eq, Nat.shiftRight_eq_div_pow]
  omega

theorem cycleStart_add_cyc (c : Count) {n : Nat} (hn : n < 2 ^ 32) :
    (Count.cycleStart (c + cyc n) - Count.cycleStart c).toNat = 128 * n := by
  have hlt := c.isLt
  rw [BitVec.toNat_sub, toNat_cycleStart, toNat_cycleStart, BitVec.toNat_add]
  simp only [cyc, BitVec.toNat_ofNat]
  omega

theorem State.holdWord_of_ahead {by_ : Issuer} {a : Nat} {due : Count} {w : Word}
    (hplain : regTarget a = (a, none) ∧ a / 0x100000 ≠ 7 ∧ a ≠ aSTR_CMD ∧ a ≠ aTWN_CMD)
    (htrg : (List.range 8).find? (fun t => a == aTRG_CTL t) = none)
    (hahead : ∀ lat ≤ 64, Count.upto (Count.cycleStart s.count + cyc lat) (Count.cycleStart due) = true) :
    ∃ lat slack, s.holdWord by_ a due w = (({ s with free := s.free + 1 } : State).fordSeen (s.regIsland a).val lat slack).hold
      by_ due (.cmd (.regWrite by_ (BitVec.ofNat 28 a) w)) := by
  obtain ⟨htarget, hseg, hstr, htwn⟩ := hplain
  have hlat := hahead (Config.fordLatency s.free % 65) (by have := Nat.mod_lt (Config.fordLatency s.free) (show 65 > 0 by decide); omega)
  unfold State.holdWord
  simp only [htarget, if_neg hseg, sub_zero, hlat, Bool.not_true, Bool.false_eq_true, if_false, htrg, hstr, htwn, false_and,
    Option.isSome_none]
  exact ⟨_, _, rfl⟩

theorem State.writeWords_own {by_ : Issuer} {a : Nat} {due : Count} {w : Word} (hmap : regMapped a = true)
    (halias : aliasWide a = false) (hpush : pushReg a = none) :
    (s.writeWords by_ none a (some due) [w]).2.2 = s.holdWord by_ a due w := by
  unfold State.writeWords
  simp [hmap, halias, hpush, State.writeWords]

/-! ## FERRY (R392, R393) -/

/-- The module takes what COPY and RESYNC ferry. -/
def State.takesFerry (s : State) : Prop := s.twin = twJoining ∨ s.resyncs = true

theorem exec_ferry_ignored {f : FerryBlock} (h : ¬ s.takesFerry) : exec (.ferry f) s = .next s.peerHeard := by
  obtain ⟨htwin, hresyncs⟩ := not_or.mp h
  exact if_pos ⟨htwin, Bool.not_eq_true _ ▸ hresyncs⟩

theorem State.takesFerry.guard (h : s.takesFerry) : ¬ (s.twin ≠ twJoining ∧ s.resyncs = false) :=
  fun hn => h.elim hn.1 (fun hr => absurd (hn.2.symm.trans hr) Bool.false_ne_true)

theorem exec_ferry_copied {f : FerryBlock} (h : s.takesFerry) (hcycle : f.cycle = none) :
    exec (.ferry f) s = .next (s.peerHeard.putFerry f) := by
  refine (if_neg h.guard).trans ?_
  simp only [hcycle]

theorem exec_ferry_mirrored {f : FerryBlock} {c : Count} (h : s.takesFerry) (hcycle : f.cycle = some c) :
    exec (.ferry f) s = if s.twn.origin.any (fun o => Count.upto (o + cyc 128) c) = true then .next s.peerHeard
      else if Count.upto s.count (c + cyc 128) then
        .next (s.peerHeard.hold (.island islTwin) (c + cyc 128) (.cmd (.ferry { f with cycle := none })))
      else .next (s.peerHeard.lateInternal 1 77 77 (c + cyc 128) s.count) := by
  refine (if_neg h.guard).trans ?_
  have horigin : s.peerHeard.twn.origin = s.twn.origin := rfl
  simp only [hcycle, horigin]
  cases s.twn.origin <;> rfl

theorem State.putFerry_registers {f : FerryBlock} {w : Word} (hspace : f.space = 0) (hdata : f.data = leBytes 4 w.toNat) :
    s.putFerry f = if runState f.offset.toNat then s.setReg f.offset.toNat w else s := by
  unfold State.putFerry
  rw [if_pos hspace, hdata, bytesWords_leBytes]
  rfl

theorem State.putFerry_plain {f : FerryBlock} (hspace : f.space = 1) :
    s.putFerry f = { s with sram := Memory.writeBytes s.sram f.offset.toNat f.data } :=
  (if_neg (by rw [hspace]; decide)).trans (if_pos hspace)

theorem State.putFerry_hbm {f : FerryBlock} (hspace : f.space = 2) :
    s.putFerry f = { s with hbmMem := Memory.writeBytes s.hbmMem f.offset.toNat f.data } :=
  (if_neg (by rw [hspace]; decide)).trans ((if_neg (by rw [hspace]; decide)).trans (if_pos hspace))

/-! ## The commands -/

theorem State.peerHeard_keepsMemory (s : State) : KeepsMemory s s.peerHeard := .of_fields rfl rfl rfl

theorem State.shipHeard_keepsMemory (s : State) : KeepsMemory s s.shipHeard := .of_does s.shipHeard_does (by decide)

theorem State.judgeMissed_keepsMemory (s : State) : KeepsMemory s s.judgeMissed := .of_does State.judgeMissed_does (by decide)

theorem exec_ship_lost {items : List ShipItem} : exec (.ship items false true) s =
    .next (((s.bump aLC_LOST).latch aLNK_LAT fLNK_LAT_COLERR).raise 101 islLink) := rfl

theorem exec_ship_corrected : exec (.ship [] true false) s = .next (s.bump aLC_CORR).shipHeard.judgeMissed := by
  have hst : (s.bump aLC_CORR).isStandby = s.isStandby := by
    unfold State.isStandby State.twin; rw [State.fld_congr _ (State.reg_bump_ne s (by decide))]
  unfold State.shipHeard
  rw [hst]
  rfl

theorem exec_fwd_ignored {p : Port} {addr : BitVec 48} {due : Count} {data : List Byte} (h : s.isStandby = false) :
    exec (.fwd p addr due data) s = .next s.peerHeard := if_pos h

section
variable {p : Port} {addr : BitVec 48} {due : Count} {data : List Byte} (hst : s.isStandby = true)
  (hspace : hostSpace addr ≠ 0) (hdata : data ≠ [])
  (hstatus : s.memStatus (hostSpace addr) (hostOffset addr) data.length true = stOk)
include hst hspace hdata hstatus

theorem exec_fwd_memory : exec (.fwd p addr due data) s = if Count.upto s.count (Count.cycleStart due) then
      .next ((s.peerHeard.crossed 75 due).hold (.forwarded p) due (.memWrite p (hostSpace addr) (hostOffset addr) data))
    else .next ((s.peerHeard.refuse (.forwarded p) 0 false true false).late 0 76 75 due s.count) := by
  have hregs (a : Nat) (ha : regBlk a ≠ 14) : s.peerHeard.reg a = s.reg a :=
    (State.peerHeard_does (s := s)).regs (by decide) a (by simpa using ha)
  have hstatus' := (State.memStatus_congr (s := s) (t := s.peerHeard) rfl rfl hregs (hostSpace addr) (hostOffset addr)
    data.length true).trans hstatus
  exact (if_neg (by rw [hst]; decide)).trans ((if_neg hspace).trans (if_pos ⟨hstatus', hdata⟩))

end

theorem State.crossed_keepsRegs (s : State) (dst : Nat) (due : Count) :
    KeepsRegs [aBUS_LATMAX dst, aBUS_SLACK dst, aBUS_LAT] s (s.crossed dst due) :=
  State.fordSeen_keepsRegs { s with free := s.free + 1 } _ _ _

theorem exec_fwd_register {p : Port} {n : Nat} {w : Word} (hst : s.isStandby = true) (hlo : 64 ≤ n) (hhi : n < 2 ^ 32) :
    ∃ lat slack, exec (.fwd p (BitVec.ofNat 48 (aTRG_TO 7)) (s.count + cyc n) (leBytes 4 w.toNat)) s =
      .next ((({ s.peerHeard with free := s.free + 1 } : State).fordSeen 74 lat slack).hold (.forwarded p) (s.count + cyc n)
        (.cmd (.regWrite (.forwarded p) (BitVec.ofNat 28 (aTRG_TO 7)) w))) := by
  have hoffset : hostOffset (BitVec.ofNat 48 (aTRG_TO 7)) = aTRG_TO 7 := by decide
  have hahead (lat : Nat) (hlat : lat ≤ 64) :
      Count.upto (Count.cycleStart s.peerHeard.count + cyc lat) (Count.cycleStart (s.count + cyc n)) = true := by
    have hlead : (Count.cycleStart (s.count + cyc n) - Count.cycleStart s.peerHeard.count).toNat = 128 * n :=
      cycleStart_add_cyc s.count hhi
    exact upto_of_crossing hlat (by omega) (by omega)
  obtain ⟨lat, slack, hold⟩ := State.holdWord_of_ahead (s := s.peerHeard) (by_ := .forwarded p) (a := aTRG_TO 7) (w := w)
    (by decide +kernel) (by decide +kernel) hahead
  refine ⟨lat, slack, (if_neg (by rw [hst]; decide)).trans ((if_pos (by decide)).trans ?_)⟩
  rw [hoffset, bytesWords_leBytes, State.writeWords_own (by decide +kernel) (by decide +kernel) (by decide +kernel), hold]
  rfl

/-- Settles O34: an item by `exec_ship_holds`, `exec_ship_late` or `exec_ship_ignores`, then `State.judgeMissed_shows`; a
forwarded write by `exec_fwd_memory` and `exec_fwd_register`; a FERRY by its three cases. -/
theorem shippedAndFerried : Obligations.ShippedAndFerried := by
  classical
  unfold Obligations.ShippedAndFerried
  intro it p addr due c n data f w s onTime told joiner copied past
  obtain ⟨hregs, htwin, htwn⟩ := s.shipHeard_shows
  have hagenda : s.shipHeard.agenda = s.agenda := s.shipHeard_does.same .agenda (by decide) (by decide)
  have htakes (h : s.isStandby = true) : s.takesItem it = true := by unfold State.takesItem; rw [h]; rfl
  have hmissed : s.shipHeard.twn.missed = s.twn.missed := by rw [htwn]
  have hforgot (h : s.twn.missed = []) : (s.shipHeard.itemForgotten it).judgeMissed = s.shipHeard.itemForgotten it :=
    State.judgeMissed_none (by change s.shipHeard.twn.missed.filter _ = []; rw [hmissed, h]; rfl)
  have hheard : KeepsRegs [aTWN_STAT] s s.peerHeard := s.peerHeard_shows.2
  refine ⟨fun hst hnone hdue => ?held, fun hst hdue htold => ?late, fun hst hnone hdue htold => ?told, fun hsome => ?judged,
    fun htakes hnone => ?ignored, fun k hit hact hnone hdue => ?col, fun hnone => ?corrected, ?lost,
    fun hst hspace hdata hstatus => ⟨fun hdue => ?fwdHeld, fun hdue => ?fwdLate⟩, fun hst hlo hhi => ?register,
    fun hst => ⟨_, exec_fwd_ignored hst, rfl⟩, fun h hspace hdata hrun => ?word, fun h hspace hdata hrun => ?otherWord,
    fun h hspace => ?plain, fun h hspace => ?hbm, fun h hcycle hpast => ⟨fun hdue => ?mirrored, fun hdue => ?mirroredLate⟩,
    fun h hcycle hpast => ⟨_, (exec_ferry_mirrored h hcycle).trans (if_pos hpast), rfl⟩,
    fun h => ⟨_, exec_ferry_ignored h, rfl⟩⟩
  case held =>
    have hjudge : (s.shipHeard.hold (.island (itemSource it)) (itemDue it) (.shipped it)).judgeMissed = _ :=
      State.judgeMissed_none (hmissed.trans hnone)
    refine ⟨_, exec_ship_holds (htakes hst) hdue, ?_⟩
    rw [hjudge]
    exact ⟨(mem_insertDue _ _ _).mpr (.inl rfl), by rw [State.hold, htwn], hregs, s.shipHeard_keepsMemory⟩
  case late =>
    let u := (s.shipHeard.itemForgotten it).lateInternal 3 77 (itemIsland it) (itemDue it) s.shipHeard.count
    have hlate : s.shipHeard.lateItem it = u :=
      (State.lateItem_eq _ _).trans (if_neg (fun h => htold ((s.shipHeard_toldLate it).mp h)))
    obtain ⟨hraise, hinternal⟩ := State.lateInternal_shows (s := s) (t := s.shipHeard.itemForgotten it) s.shipHeard_count 3 77
      (itemIsland it) (itemDue it) s.shipHeard.count
    obtain ⟨-, hheld, hbit, -⟩ := u.judgeMissed_shows
    have hmem : KeepsMemory s.shipHeard u := (KeepsMemory.of_does (State.itemForgotten_does _ _) (by decide)).trans
      (.of_does State.lateInternal_does (by decide))
    refine ⟨_, exec_ship_late (htakes hst) hdue, ?_⟩
    rw [hlate]
    exact ⟨hheld hraise, hbit (.inl hinternal), (s.shipHeard_keepsMemory.trans hmem).trans u.judgeMissed_keepsMemory⟩
  case told =>
    refine ⟨_, exec_ship_late (htakes hst) hdue, ?_⟩
    rw [State.lateItem_eq, if_pos ((s.shipHeard_toldLate it).mpr htold), hforgot hnone]
    exact ⟨hagenda, hregs, s.shipHeard_keepsMemory⟩
  case judged =>
    obtain ⟨hjudged, -, hbit, hraises⟩ := s.shipHeard.judgeMissed_shows
    rw [hmissed] at hbit hraises
    refine ⟨_, exec_ship_none, hjudged, fun x hx => ?_, hbit (.inr hsome),
      s.shipHeard_keepsMemory.trans s.shipHeard.judgeMissed_keepsMemory⟩
    have hraise := hraises x hx
    unfold Raises at hraise ⊢
    rwa [s.shipHeard_count] at hraise
  case ignored =>
    refine ⟨_, exec_ship_ignores htakes, ?_⟩
    rw [State.judgeMissed_none (hmissed.trans hnone)]
    exact ⟨hagenda, hregs, s.shipHeard_keepsMemory⟩
  case col =>
    subst hit
    have hjudge : (s.shipHeard.hold (.island islTwin) due (.shipped (.col k due))).judgeMissed = _ :=
      State.judgeMissed_none (hmissed.trans hnone)
    refine ⟨_, exec_ship_holds (by simp [State.takesItem, hact]) hdue, ?_⟩
    change _ ∈ (s.shipHeard.hold (.island islTwin) due (.shipped (.col k due))).judgeMissed.agenda ∧
      KeepsRegs _ s (s.shipHeard.hold (.island islTwin) due (.shipped (.col k due))).judgeMissed ∧
      KeepsMemory s (s.shipHeard.hold (.island islTwin) due (.shipped (.col k due))).judgeMissed
    rw [hjudge]
    exact ⟨(mem_insertDue _ _ _).mpr (.inl rfl), hregs, s.shipHeard_keepsMemory⟩
  case corrected =>
    obtain ⟨hregs', htwin', htwn'⟩ := (s.bump aLC_CORR).shipHeard_shows
    have hcorr : KeepsRegs [aLC_CORR] s (s.bump aLC_CORR) := (KeepsRegs.refl _ s).bump (a := aLC_CORR) (by simp)
    have hjudge : (s.bump aLC_CORR).shipHeard.judgeMissed = _ :=
      State.judgeMissed_none (by rw [htwn']; exact hnone)
    refine ⟨_, exec_ship_corrected, ?_⟩
    rw [hjudge]
    refine ⟨?_, (State.shipHeard_does _).same .agenda (by decide) (by decide), (hcorr.mono (by simp)).trans (hregs'.mono (by simp)),
      (KeepsMemory.of_fields rfl rfl rfl).trans (s.bump aLC_CORR).shipHeard_keepsMemory⟩
    rw [hregs' _ (by decide), State.reg_bump_toNat]
  case lost =>
    have hcount : KeepsRegs [aLC_LOST] s (s.bump aLC_LOST) := (KeepsRegs.refl _ s).bump (a := aLC_LOST) (by simp)
    have hlatch : KeepsRegs [aLNK_LAT] (s.bump aLC_LOST) ((s.bump aLC_LOST).latch aLNK_LAT fLNK_LAT_COLERR) :=
      (KeepsRegs.refl _ _).latch (a := aLNK_LAT) (by simp) _
    refine ⟨_, exec_ship_lost, ?_, State.bit_latch_self _ _ _ rfl (by decide), raises_of_count rfl _ _,
      (hcount.mono (by simp)).trans (hlatch.mono (by simp)), .of_fields rfl rfl rfl⟩
    exact (congrArg BitVec.toNat (hlatch aLC_LOST (by decide))).trans (State.reg_bump_toNat s _)
  case fwdHeld =>
    refine ⟨_, (exec_fwd_memory hst hspace hdata hstatus).trans (if_pos hdue), (mem_insertDue _ _ _).mpr (.inl rfl),
      (hheard.mono (by simp)).trans ((s.peerHeard.crossed_keepsRegs 75 due).mono (by simp)), ?_⟩
    have hcrossed : KeepsMemory s.peerHeard (s.peerHeard.crossed 75 due) := .of_does State.crossed_does (by decide)
    exact s.peerHeard_keepsMemory.trans hcrossed
  case fwdLate =>
    have hlate (v : State) : Does _ _ v (v.late 0 76 75 due s.count) := State.late_does
    refine ⟨_, (exec_fwd_memory hst hspace hdata hstatus).trans (if_neg (by rw [hdue]; decide)), ?_, ?_, ?_⟩
    · have hraise := State.late_raises (s.peerHeard.refuse (.forwarded p) 0 false true false) 0 76 75 due s.count
      have hcount : (s.peerHeard.refuse (.forwarded p) 0 false true false).count = s.count :=
        State.refuse_does.same .count (by decide) (by decide)
      unfold Raises at hraise ⊢
      rwa [hcount] at hraise
    · rw [(hlate _).regs (by decide) _ (by decide)]
      exact State.reject_sets s.peerHeard (.forwarded p) (k := .acc) 0 rfl
    · exact (s.peerHeard_keepsMemory.trans (.of_does State.refuse_does (by decide))).trans (.of_does (hlate _) (by decide))
  case register =>
    obtain ⟨lat, slack, hexec⟩ := exec_fwd_register (p := p) (w := w) hst hlo hhi
    have hseen : KeepsMemory { s.peerHeard with free := s.free + 1 } (({ s.peerHeard with free := s.free + 1 } : State).fordSeen
        74 lat slack) := .of_does State.fordSeen_does (by decide)
    refine ⟨_, hexec, (mem_insertDue _ _ _).mpr (.inl rfl), (hheard.mono (by simp)).trans
      ((State.fordSeen_keepsRegs { s.peerHeard with free := s.free + 1 } 74 lat slack).mono (by simp)), ?_⟩
    exact s.peerHeard_keepsMemory.trans ((KeepsMemory.of_fields rfl rfl rfl).trans hseen)
  case word =>
    refine ⟨_, exec_ferry_copied h.1 h.2, ?_⟩
    rw [State.putFerry_registers hspace hdata, if_pos hrun]
    exact ⟨State.reg_setReg_self _ _ _, (hheard.mono (by simp)).trans ((keepsRegs_setReg _ _ _).mono (by simp)), rfl,
      s.peerHeard_keepsMemory.trans (.of_fields rfl rfl rfl)⟩
  case otherWord =>
    refine ⟨_, exec_ferry_copied h.1 h.2, ?_⟩
    rw [State.putFerry_registers hspace hdata, if_neg (by rw [hrun]; decide)]
  case plain =>
    refine ⟨_, exec_ferry_copied h.1 h.2, ?_⟩
    rw [State.putFerry_plain hspace]
    exact ⟨Memory.readBytes_writeBytes_self _ _ _ rfl, fun a ha => Memory.read_writeBytes_outside ha, hheard, rfl, rfl⟩
  case hbm =>
    refine ⟨_, exec_ferry_copied h.1 h.2, ?_⟩
    rw [State.putFerry_hbm hspace]
    exact ⟨Memory.readBytes_writeBytes_self _ _ _ rfl, fun a ha => Memory.read_writeBytes_outside ha, hheard, rfl, rfl⟩
  case mirrored =>
    exact ⟨_, (exec_ferry_mirrored h hcycle).trans ((if_neg hpast).trans (if_pos hdue)), (mem_insertDue _ _ _).mpr (.inl rfl),
      hheard, s.peerHeard_keepsMemory⟩
  case mirroredLate =>
    obtain ⟨hraise, hinternal⟩ := State.lateInternal_shows (s := s) (t := s.peerHeard) rfl 1 77 77 (c + cyc 128) s.count
    exact ⟨_, (exec_ferry_mirrored h hcycle).trans ((if_neg hpast).trans (if_neg (by rw [hdue]; decide))), hraise, hinternal,
      s.peerHeard_keepsMemory.trans (.of_does State.lateInternal_does (by decide))⟩

end Sys2Proof.Machine
end

section
/-! Frames sent one after another on a port (R410, R484): each goes out at once while the link's credits last. -/
namespace Sys2Proof.Machine

variable {s t u : State} {p q : Port} {vc n : Nat}

/-! ## One frame -/

theorem State.sendFrame_of_sends (hs : Sends p vc s) (o : Out) : s.sendFrame p.val vc o = s.pushOn p.val vc o := by
  obtain ⟨hsends, hgo, hwait⟩ := hs
  unfold State.sendFrame
  simp only [hsends, hgo, hwait, List.any_nil, Bool.not_false, Bool.and_true, if_true]

theorem State.pushOn_out (s : State) (l vc : Nat) (o : Out) : (s.pushOn l vc o).out = s.out ++ [o] := rfl

theorem State.pushOn_link_ne (s : State) {l k : Nat} (h : k ≠ l) (vc : Nat) (o : Out) : (s.pushOn l vc o).link k = s.link k :=
  (State.setLink_link _ _ _ _).trans (if_neg h)

theorem State.pushOn_link_self (s : State) (l vc : Nat) (o : Out) : ∃ prot open_ sentAt ackAt, (s.pushOn l vc o).link l =
    { (s.link l).push vc o prot open_ with sentAt := sentAt, ackAt := ackAt } :=
  ⟨_, _, _, _, (State.setLink_link _ _ _ _).trans (if_pos rfl)⟩

theorem State.pushOn_sameLine (s : State) (h : q ≠ p) (vc : Nat) (o : Out) : SameLine q s (s.pushOn p.val vc o) := by
  have hlink := s.pushOn_link_ne (fun e => h (Fin.ext e)) vc o (l := p.val) (k := q.val)
  exact ⟨rfl, by rw [hlink], by rw [hlink], by rw [hlink], by rw [hlink]⟩

/-! ## Several frames -/

theorem SendsAll.sends (h : SendsAll p vc n s) (hn : 0 < n) : Sends p vc s := by
  obtain ⟨hsends, hcredit, hcap, hheld, hwait⟩ := h
  refine ⟨hsends, ?_, hwait⟩
  simp only [LinkState.mayGo, Bool.and_eq_true, decide_eq_true_eq, true_and]
  omega

theorem SendsAll.of_sends (h : Sends p vc s) : SendsAll p vc 1 s := by
  obtain ⟨hsends, hgo, hwait⟩ := h
  simp only [LinkState.mayGo, Bool.and_eq_true, decide_eq_true_eq] at hgo
  exact ⟨hsends, hgo.1.1.2, hgo.1.2, by omega, hwait⟩

theorem SendsAll.mono {m : Nat} (h : SendsAll p vc n s) (hm : m ≤ n) : SendsAll p vc m s := by
  obtain ⟨hsends, hcredit, hcap, hheld, hwait⟩ := h
  exact ⟨hsends, by omega, hcap, by omega, hwait⟩

theorem SendsAll.of_sameLine (hline : SameLine p s t) (h : SendsAll p vc n s) : SendsAll p vc n t := by
  obtain ⟨hsends, hcredit, hcap, hheld, hwait⟩ := h
  have hsame : (t.link p.val).credit vc = (s.link p.val).credit vc := by
    unfold LinkState.credit; rw [hline.limits, hline.sent]
  refine ⟨?_, by rwa [hsame], by rwa [hsame], by rwa [hline.held], hline.waiting.trans hwait⟩
  rw [State.sends_port] at hsends ⊢
  rwa [State.fld_congr _ hline.stat, State.fld_congr _ hline.stat]

/-- A frame uses one credit of its VC, or none where the link has no count for it. -/
theorem LinkState.push_credit (x : LinkState) (vc : Nat) (o : Out) (prot : Option (List Byte × Nat)) (open_ : Bool) :
    (x.push vc o prot open_).credit vc = x.credit vc ∨
      (x.push vc o prot open_).credit vc = (x.credit vc + 255) % 256 := by
  unfold LinkState.push LinkState.credit
  by_cases hvc : vc < x.sent.length
  · right
    simp only [List.getD_eq_getElem?_getD, List.getElem?_set_self hvc, Option.getD_some]
    bv_omega
  · left
    rw [List.set_eq_of_length_le (Nat.le_of_not_lt hvc)]

theorem SendsAll.pushOn (h : SendsAll p vc (n + 1) s) (o : Out) : SendsAll p vc n (s.pushOn p.val vc o) := by
  obtain ⟨hsends, hcredit, hcap, hheld, hwait⟩ := h
  obtain ⟨prot, open_, sentAt, ackAt, hlink⟩ := s.pushOn_link_self p.val vc o
  have hleft := (s.link p.val).push_credit vc o prot open_
  unfold SendsAll
  rw [hlink]
  refine ⟨?_, ?_, ?_, ?_, hwait⟩
  · rw [State.sends_port] at hsends ⊢
    exact hsends
  · change n ≤ ((s.link p.val).push vc o prot open_).credit vc
    omega
  · change ((s.link p.val).push vc o prot open_).credit vc ≤ 128
    omega
  · change ((s.link p.val).held ++ [_]).length + n ≤ 1024
    rw [List.length_append, List.length_singleton]
    omega

/-- The frames of a list go out in its order, at once, while the credits last. -/
theorem SendsAll.frames {α : Type} {f : State → α → State} {g : α → Out} (hf : ∀ t x, f t x = t.sendFrame p.val vc (g x))
    (l : List α) (h : SendsAll p vc (l.length + n) s) :
    (l.foldl f s).out = s.out ++ l.map g ∧ SendsAll p vc n (l.foldl f s) ∧ ∀ q, q ≠ p → SameLine q s (l.foldl f s) := by
  induction l generalizing s with
  | nil =>
    exact ⟨(List.append_nil _).symm, by simpa using h, fun q _ => .of_links rfl rfl⟩
  | cons x l ih =>
    have hlen : (x :: l).length + n = l.length + n + 1 := by simp only [List.length_cons]; omega
    rw [hlen] at h
    have hgo : f s x = s.pushOn p.val vc (g x) := (hf s x).trans (State.sendFrame_of_sends (h.sends (by omega)) _)
    obtain ⟨hout, hrest, hline⟩ := ih (h.pushOn (g x))
    rw [List.foldl_cons, hgo]
    refine ⟨?_, hrest, fun q hq => (s.pushOn_sameLine hq vc _).trans (hline q hq)⟩
    rw [hout, State.pushOn_out, List.map_cons, List.append_assoc, List.singleton_append]

/-! ## Replies of the mailbox (R484 to R486) -/

/-- The segments of a reply. -/
def mgtFrames (p : Port) (cmd req status : Byte) (body : List Byte) : List Out :=
  (segments (if cmd = 0x04 then 192 else 252) body).map (fun x => .mgt p cmd x.1 req status x.2)

theorem segments_nil (k : Nat) (hk : 0 < k) : segments k [] = [(0x80, [])] := by
  have hdiv : (0 + k - 1) / k = 0 := Nat.div_eq_of_lt (by omega)
  unfold segments
  rw [List.length_nil, hdiv]
  simp only [List.drop_nil, List.take_nil]
  rfl

theorem mgtFrames_nil (p : Port) (cmd req status : Byte) : mgtFrames p cmd req status [] = [.mgt p cmd 0x80 req status []] := by
  unfold mgtFrames
  rw [segments_nil _ (by split <;> decide)]
  rfl

theorem SendsAll.mgtReply {cmd req status : Byte} {body : List Byte}
    (h : SendsAll p 3 ((mgtFrames p cmd req status body).length + n) s) : let t := s.mgtReply p cmd req status body
    t.out = s.out ++ mgtFrames p cmd req status body ∧ SendsAll p 3 n t ∧ ∀ q, q ≠ p → SameLine q s t :=
  SendsAll.frames (fun _ _ => rfl) _ (by simpa only [mgtFrames, List.length_map] using h)

theorem State.mgtReply_keepsRegs (s : State) (cmd req status : Byte) (body : List Byte) :
    KeepsRegs [] s (s.mgtReply p cmd req status body) := .of_does State.mgtReply_does (by decide) _

end Sys2Proof.Machine
end

section
/-! The mailbox (O42) and the watchdog (O60): R484 to R487, R494, R500. -/
namespace Sys2Proof.Machine

variable {s t u : State} {p q : Port}

/-! ## A request served at once -/

/-- What leaves the registers of LNK and the links alone leaves the lines of the ports. -/
theorem SameLine.of_does {ps : List Part} {bs : List Nat} (h : Does ps bs s t) (hps : .regs ∉ ps ∧ 13 ∉ bs ∧ .links ∉ ps) :
    SameLine p s t :=
  .of_links (h.regs hps.1 _ (by rw [adr_LP_STAT.here]; exact hps.2.1)) (h.same .links hps.2.2 (by decide))

/-- A request that the mailbox takes: READY, and a slot of the port is free. -/
def State.takesMail (s : State) (p : Port) : Prop := s.bit aMGT_STAT fMGT_STAT_READY = true ∧ (s.slots p.val).length < 16

theorem State.takesMail.guard (h : s.takesMail p) : ¬ (s.fld aMGT_STAT fMGT_STAT_READY = 0 ∨ 16 ≤ (s.slots p.val).length) := by
  obtain ⟨hready, hfree⟩ := h
  rintro (h | h)
  · simp only [State.bit, h] at hready
    exact absurd hready (by decide)
  · omega

section
variable {cmd req status : Byte} {engineer : Bool} {body : List Byte} {f : State → State}

theorem State.serve_busy (h : s.bit aMGT_STAT fMGT_STAT_READY = false ∨ 16 ≤ (s.slots p.val).length) :
    s.serve p cmd req engineer status body f = s := by
  refine if_pos (h.imp (fun hready => ?_) id)
  simpa only [State.bit, bne_eq_false_iff_eq] using hready

theorem State.serve_role (h : s.takesMail p) (hmay : s.mayMail p.val engineer = false) :
    s.serve p cmd req engineer status body f = s.mgtReply p cmd req msRole [] :=
  (if_neg h.guard).trans (if_neg (by rw [hmay]; decide))

theorem State.serve_may (h : s.takesMail p) (hmay : s.mayMail p.val engineer = true) :
    s.serve p cmd req engineer status body f = (f s).mgtReply p cmd req status body :=
  (if_neg h.guard).trans (if_pos hmay)

/-- What a reply leaves as it was: all but what goes out and the state of its link. -/
structure Replied (p : Port) (cmd req status : Byte) (body : List Byte) (s t : State) : Prop where
  out : t.out = s.out ++ mgtFrames p cmd req status body
  agenda : t.agenda = s.agenda
  sec : t.sec = s.sec
  str : t.str = s.str
  mgt : t.mgt = s.mgt
  regs : KeepsRegs [] s t
  memory : KeepsMemory s t

theorem State.mgtReply_replied (h : SendsAll p 3 (mgtFrames p cmd req status body).length s) :
    Replied p cmd req status body s (s.mgtReply p cmd req status body) where
  out := (SendsAll.mgtReply (n := 0) h).1
  agenda := State.mgtReply_does.same .agenda (by decide) (by decide)
  sec := State.mgtReply_does.same .sec (by decide) (by decide)
  str := State.mgtReply_does.same .str (by decide) (by decide)
  mgt := State.mgtReply_does.same .mgt (by decide) (by decide)
  regs := s.mgtReply_keepsRegs _ _ _ _
  memory := .of_does State.mgtReply_does (by decide)

theorem State.mgtReply_replied_nil (h : Sends p 3 s) : Replied p cmd req status [] s (s.mgtReply p cmd req status []) :=
  State.mgtReply_replied (by rw [mgtFrames_nil]; exact .of_sends h)

end

/-- A request served at once is answered on what it has done. -/
theorem State.serve_replied {cmd req status : Byte} {engineer : Bool} {body : List Byte} {f : State → State}
    (h : s.takesMail p) (hmay : s.mayMail p.val engineer = true) (hline : SameLine p s (f s))
    (hs : SendsAll p 3 (mgtFrames p cmd req status body).length s) :
    Replied p cmd req status body (f s) (s.serve p cmd req engineer status body f) := by
  rw [State.serve_may h hmay]
  exact State.mgtReply_replied (hs.of_sameLine hline)

theorem length_segments (k : Nat) (body : List Byte) :
    (segments k body).length = min 128 (max 1 ((body.length + k - 1) / k)) := by
  unfold segments
  rw [List.length_map, List.length_range]

theorem length_mgtFrames (p : Port) (cmd req status : Byte) (body : List Byte) :
    (mgtFrames p cmd req status body).length = (segments (if cmd = 0x04 then 192 else 252) body).length := List.length_map _

theorem length_mgtFrames_nil (p : Port) (cmd req status : Byte) : (mgtFrames p cmd req status []).length = 1 := by
  rw [mgtFrames_nil, List.length_singleton]

/-! ## The commands that only read -/

theorem exec_status_eq (req : Byte) : exec (.status p req) s = .next (s.serve p 0x01 req false msOk
    (s.regBytes aMGT_STAT ++ s.regBytes aMGT_FW ++ leBytes 1 (s.fld aMGT_STAT fMGT_STAT_LOAD)) id) := rfl

theorem exec_history_eq (req sensor : Byte) (from_ : BitVec 64) : exec (.history p req sensor from_) s =
    .next (s.serve p 0x03 req false (if 34 ≤ sensor.toNat then msFormat else msOk)
      (if 34 ≤ sensor.toNat then [] else s.historyFrom sensor.toNat from_) id) := by
  change execHistory p req sensor from_ s = _
  unfold execHistory
  split <;> rfl

theorem exec_logread_eq (req : Byte) (index : BitVec 64) (n : BitVec 16) : exec (.logread p req index n) s =
    .next (s.serve p 0x04 req false msOk
      (((s.mgt.log.drop (index.toNat - s.wide aMGT_LOGOLD 2)).take (min n.toNat 384)).flatten) id) := rfl

/-! ## SENSORS -/

/-- The extremes of a port restart (R486). -/
def State.restartExtremes (p : Port) (s : State) : State :=
  (List.range 34).foldl (fun s n => { s with mgt := { s.mgt with
    extremes := Tab.set (fun _ => none) s.mgt.extremes (p.val * 64 + n) none } }) s

theorem exec_sensors_eq (req : Byte) : exec (.sensors p req) s = .next (s.serve p 0x02 req false msOk
    ((List.range 34).flatMap (fun n => s.regBytes (aMGT_SENS n) ++ leBytes 4 (s.extremes p.val n).1.toNat ++
      leBytes 4 (s.extremes p.val n).2.toNat)) (State.restartExtremes p)) := rfl

theorem State.restartExtremes_does (s : State) (p : Port) : Does [.mgt] [] s (s.restartExtremes p) :=
  Does.foldl (fun _ _ => Does.put_mgt (by decide) Does.refl) Does.refl

theorem State.restartExtremes_mgt (s : State) (p : Port) : (s.restartExtremes p).mgt = { s.mgt with
    extremes := (List.range 34).foldl (fun t n => Tab.set (fun _ => none) t (p.val * 64 + n) none) s.mgt.extremes } := by
  unfold State.restartExtremes
  generalize List.range 34 = l
  induction l generalizing s with
  | nil => rfl
  | cons n l ih => exact (ih _).trans rfl

theorem Tab.get_foldl_set_none {α : Type} [DecidableEq α] (d : Nat → Option α) (key : Nat → Nat) (l : List Nat)
    (t : Tab (Option α)) (k : Nat) : Tab.get d (l.foldl (fun t n => Tab.set d t (key n) none) t) k =
      if k ∈ l.map key then none else Tab.get d t k := by
  induction l generalizing t with
  | nil => simp
  | cons n l ih =>
    rw [List.foldl_cons, ih, Tab.get_set, List.map_cons]
    by_cases hk : k = key n <;> simp [hk]

theorem State.extremes_congr (hmgt : t.mgt = s.mgt) {n : Nat} (hreg : t.reg (aMGT_SENS n) = s.reg (aMGT_SENS n)) (q : Nat) :
    t.extremes q n = s.extremes q n := by unfold State.extremes; rw [hmgt, hreg]

theorem State.restartExtremes_extremes (s : State) (p q : Port) {n : Nat} (hn : n < 34) : (s.restartExtremes p).extremes q.val n =
    if q = p then (s.reg (aMGT_SENS n), s.reg (aMGT_SENS n)) else s.extremes q.val n := by
  have hreg : (s.restartExtremes p).reg (aMGT_SENS n) = s.reg (aMGT_SENS n) :=
    (s.restartExtremes_does p).regs (by decide) _ (by simp)
  unfold State.extremes
  rw [hreg, s.restartExtremes_mgt, Tab.get_foldl_set_none]
  by_cases hq : q = p
  · rw [if_pos hq, if_pos (by rw [hq]; exact List.mem_map.mpr ⟨n, List.mem_range.mpr hn, rfl⟩)]
    rfl
  · rw [if_neg hq, if_neg]
    rw [List.mem_map]
    rintro ⟨m, hm, hkey⟩
    have hne : q.val ≠ p.val := fun e => hq (Fin.ext e)
    rw [List.mem_range] at hm
    omega

/-! ## The log -/

theorem State.wide_withMgt (s : State) (m : Mgt) (a k : Nat) : ({ s with mgt := m } : State).wide a k = s.wide a k :=
  State.wide_congr (fun _ _ => rfl)

/-- The log with room for an entry: a full ring has lost its oldest sector (R494). -/
def State.logRoom (s : State) : State :=
  if s.wide aMGT_LOGNEXT 2 - s.wide aMGT_LOGOLD 2 < 1048576 then s
  else { s.setWide aMGT_LOGOLD 2 (s.wide aMGT_LOGOLD 2 + 4096) with mgt := { s.mgt with log := s.mgt.log.drop 4096 } }

theorem State.logRoom_mgt (s : State) : s.logRoom.mgt = { s.mgt with
    log := if s.wide aMGT_LOGNEXT 2 - s.wide aMGT_LOGOLD 2 < 1048576 then s.mgt.log else s.mgt.log.drop 4096 } := by
  unfold State.logRoom
  split <;> rfl

/-- The entry that a log entry of a type, a code and a payload writes now. -/
def State.logged (s : State) (typ code : Nat) (payload : List Byte) : List Byte :=
  logBytes s typ (if s.bit aTBS_STATE fTBS_STATE_TIME_VALID then 0 else 2) code (s.wide aMGT_LOGNEXT 2) payload

theorem State.log_eq (s : State) (typ code : Nat) (payload : List Byte) : s.log typ code payload =
    { s.logRoom.setWide aMGT_LOGNEXT 2 (s.wide aMGT_LOGNEXT 2 + 1) with
      mgt := { s.logRoom.mgt with log := s.logRoom.mgt.log ++ [s.logged typ code payload] } } := rfl

theorem State.log_mgt (s : State) (typ code : Nat) (payload : List Byte) : (s.log typ code payload).mgt = { s.mgt with
    log := (if s.wide aMGT_LOGNEXT 2 - s.wide aMGT_LOGOLD 2 < 1048576 then s.mgt.log else s.mgt.log.drop 4096) ++
      [s.logged typ code payload] } := by
  rw [State.log_eq, State.logRoom_mgt]

theorem State.log_next (s : State) (typ code : Nat) (payload : List Byte) :
    (s.log typ code payload).wide aMGT_LOGNEXT 2 = (s.wide aMGT_LOGNEXT 2 + 1) % 2 ^ 64 := by
  rw [State.log_eq, State.wide_withMgt, State.wide_setWide_two]

theorem State.log_old (s : State) (typ code : Nat) (payload : List Byte)
    (hroom : s.wide aMGT_LOGNEXT 2 - s.wide aMGT_LOGOLD 2 < 1048576) :
    (s.log typ code payload).wide aMGT_LOGOLD 2 = s.wide aMGT_LOGOLD 2 := by
  rw [State.log_eq, State.wide_withMgt, State.logRoom, if_pos hroom]
  exact State.wide_congr (fun i hi => State.setWide_two_keepsRegs _ _ _ _ (by interval_cases i <;> decide))

/-! ## Slots -/

theorem State.setSlots_keepsRegs (s : State) (k : Nat) (xs : List Slot) : KeepsRegs [aMGT_STAT] s (s.setSlots k xs) := by
  unfold State.setSlots
  split <;> exact (KeepsRegs.refl _ s).setFld (by simp) _ _

theorem State.setSlots_slots (s : State) (xs : List Slot) (q : Port) :
    (s.setSlots p.val xs).slots q.val = if q = p then xs else s.slots q.val := by
  match p, q with
  | 0, 0 => rfl
  | 0, 1 => rfl
  | 1, 0 => rfl
  | 1, 1 => rfl

theorem State.setSlots_log (s : State) (k : Nat) (xs : List Slot) : (s.setSlots k xs).mgt.log = s.mgt.log := by
  unfold State.setSlots
  split <;> rfl

theorem State.setSlots_sameLine (s : State) (k : Nat) (xs : List Slot) (q : Port) : SameLine q s (s.setSlots k xs) :=
  .of_does State.setSlots_does (by decide)

/-! ## LOGMARK and GETREPLY -/

theorem exec_logmark_eq (req : Byte) (text : List Byte) : exec (.logmark p req text) s =
    .next (s.serve p 0x05 req false msOk [] (fun s => s.log 0x0D p.val (text.take 28))) := rfl

theorem exec_getreply_none {req ofReq : Byte} (h : heldReply ofReq (s.slots p.val) = none) : exec (.getreply p req ofReq) s =
    .next (s.serve p 0x0B req false msNotHeld [] id) := by
  change execGetreply p req ofReq s = _
  unfold execGetreply
  rw [h]

theorem exec_getreply_held {req ofReq : Byte} {x : Slot} {r : Byte × List Byte}
    (h : heldReply ofReq (s.slots p.val) = some x) (hr : x.reply = some r) : exec (.getreply p req ofReq) s =
      .next (s.serve p 0x0B req false r.1 r.2 (fun s => s.setSlots p.val ((s.slots p.val).erase x))) := by
  change execGetreply p req ofReq s = _
  unfold execGetreply
  simp only [h, hr]

theorem exec_getreply_serves (req ofReq : Byte) : ∃ status body f, exec (.getreply p req ofReq) s =
    .next (s.serve p 0x0B req false status body f) := by
  cases h : heldReply ofReq (s.slots p.val) with
  | none => exact ⟨_, _, _, exec_getreply_none h⟩
  | some x =>
    have hx : x.reply.isSome = true := by
      have hfound := List.find?_some h
      simp only [Bool.and_eq_true] at hfound
      exact hfound.2
    obtain ⟨r, hr⟩ := Option.isSome_iff_exists.mp hx
    exact ⟨_, _, _, exec_getreply_held h hr⟩

/-- The requests that any session with the mailbox right may make, with their codes (R486). -/
def mailRequests (p : Port) (req code : Byte) (index : BitVec 64) (n : BitVec 16) (text : List Byte) : List (Instr × Byte) :=
  [(.status p req, 1), (.sensors p req, 2), (.history p req code index, 3), (.logread p req index n, 4),
    (.logmark p req text, 5), (.getreply p req code, 11)]

/-- Each of them is a request served at once. -/
theorem mailRequests_serve {req code : Byte} {index : BitVec 64} {n : BitVec 16} {text : List Byte} (s : State)
    {r : Instr × Byte} (hr : r ∈ mailRequests p req code index n text) :
    ∃ status body f, exec r.1 s = .next (s.serve p r.2 req false status body f) := by
  simp only [mailRequests, List.mem_cons, List.not_mem_nil, or_false] at hr
  rcases hr with rfl | rfl | rfl | rfl | rfl | rfl
  · exact ⟨_, _, _, exec_status_eq req⟩
  · exact ⟨_, _, _, exec_sensors_eq req⟩
  · exact ⟨_, _, _, exec_history_eq req code index⟩
  · exact ⟨_, _, _, exec_logread_eq req index n⟩
  · exact ⟨_, _, _, exec_logmark_eq req text⟩
  · exact exec_getreply_serves req code

/-! ## A reply that is ready, and its discard -/

theorem exec_replyDiscard_held {req : Byte} {x : Slot} (h : heldReply req (s.slots p.val) = some x) :
    exec (.replyDiscard p req) s = .next (if x.readyAt + 60000 ≤ s.mgt.uptime then s.setSlots p.val ((s.slots p.val).erase x)
      else s) := by
  change execReplyDiscard p req s = _
  unfold execReplyDiscard
  rw [h]

theorem exec_replyDiscard_none {req : Byte} (h : heldReply req (s.slots p.val) = none) :
    exec (.replyDiscard p req) s = .next s := by
  change execReplyDiscard p req s = _
  unfold execReplyDiscard
  rw [h]

theorem exec_replyReady_told {req : Byte}
    (h : (s.slots p.val).any (fun x => x.req == req && x.reply.isSome && !x.told) = true) (hevt : s.evtPort p.val = true) :
    exec (.replyReady p req) s = .next ((s.setSlots p.val (tellReply req (s.slots p.val))).evtTo p 2 (req.setWidth 16)) :=
  (if_pos h).trans (congrArg Host.Outcome.next (if_pos hevt))

theorem port_other (p : Port) : ∃ q : Port, q.val = 1 - p.val ∧ q ≠ p := by
  match p with
  | 0 => exact ⟨1, rfl, by decide⟩
  | 1 => exact ⟨0, rfl, by decide⟩

/-- The other port's slots stay as they were. -/
theorem State.setSlots_other (s : State) (p : Port) (xs : List Slot) :
    (s.setSlots p.val xs).slots (1 - p.val) = s.slots (1 - p.val) := by
  obtain ⟨q, hq, hne⟩ := port_other p
  rw [← hq, State.setSlots_slots, if_neg hne]

theorem State.setSlots_own (s : State) (p : Port) (xs : List Slot) : (s.setSlots p.val xs).slots p.val = xs := by
  rw [State.setSlots_slots, if_pos rfl]

theorem State.slots_congr (h : t.mgt = s.mgt) (k : Nat) : t.slots k = s.slots k := by unfold State.slots; rw [h]

/-- Settles O42: each request is one that the mailbox serves (`mailRequests_serve`), and its reply is `State.serve_replied` on
what the request leaves. -/
theorem mailbox : Obligations.Mailbox := by
  unfold Obligations.Mailbox
  intro p req code index n text x r s answer old next taken mail entries asks
  have one (cmd status : Byte) (hs : Sends p 3 s) : SendsAll p 3 (mgtFrames p cmd req status []).length s := by
    rw [length_mgtFrames_nil]; exact .of_sends hs
  have same : SameLine p s (id s) := .of_links rfl rfl
  refine ⟨fun h r hr => ?busy, fun h hmay hs r hr => ?role, fun h hs => ?statusRead, fun h hs => ?sensors, fun h hcode hs => ?history,
    fun h hs hcode => ?unknown, fun h hs => ?logread, fun h hs => ?logmark, fun h hheld hreply' hs => ?held,
    fun h hs hheld => ?notHeld, fun h hevt hs => ?ready, fun h => ⟨s, if_neg (by rw [h]; decide), rfl⟩,
    fun h hdue => ?discard, fun h hdue => ⟨s, (exec_replyDiscard_held h).trans (congrArg _ (if_neg (Nat.not_le.mpr hdue))), rfl⟩,
    fun h => ⟨s, exec_replyDiscard_none h, rfl⟩⟩
  case busy =>
    obtain ⟨status, body, f, hexec⟩ := mailRequests_serve s hr
    exact ⟨s, hexec.trans (congrArg _ (State.serve_busy h)), rfl⟩
  case role =>
    obtain ⟨status, body, f, hexec⟩ := mailRequests_serve s hr
    have hreply := State.mgtReply_replied (one r.2 1 hs)
    exact ⟨_, hexec.trans (congrArg _ (State.serve_role h hmay)),
      ⟨hreply.out, hreply.agenda, hreply.sec, hreply.str, hreply.memory⟩, hreply.mgt, hreply.regs⟩
  case statusRead =>
    have hlen : (mgtFrames p 1 req 0 (s.regBytes aMGT_STAT ++ s.regBytes aMGT_FW ++
        leBytes 1 (s.fld aMGT_STAT fMGT_STAT_LOAD))).length = 1 := by
      simp only [length_mgtFrames, length_segments, List.length_append, State.regBytes, length_leBytes]
      rfl
    have hreply := State.serve_replied (engineer := false) h.1 h.2 same (by rw [hlen]; exact .of_sends hs)
    exact ⟨_, exec_status_eq req, ⟨hreply.out, hreply.agenda, hreply.sec, hreply.str, hreply.memory⟩, hreply.mgt, hreply.regs⟩
  case sensors =>
    have hdoes := s.restartExtremes_does p
    have hline : SameLine p s (s.restartExtremes p)  := .of_does hdoes (by decide)
    have hlen : (mgtFrames p 2 req 0 ((List.range 34).flatMap (fun k => s.regBytes (aMGT_SENS k) ++
        leBytes 4 (s.extremes p.val k).1.toNat ++ leBytes 4 (s.extremes p.val k).2.toNat))).length = 2 := by
      simp only [length_mgtFrames, length_segments, List.length_flatMap, List.length_append, State.regBytes, length_leBytes]
      rfl
    have hreply := State.serve_replied (engineer := false) (f := State.restartExtremes p) h.1 h.2 hline (by rwa [hlen])
    obtain ⟨o, ho, hne⟩ := port_other p
    refine ⟨_, exec_sensors_eq req, ⟨?_, hreply.agenda.trans (hdoes.same .agenda (by decide) (by decide)),
      hreply.sec.trans (hdoes.same .sec (by decide) (by decide)), hreply.str.trans (hdoes.same .str (by decide) (by decide)),
      (KeepsMemory.of_does hdoes (by decide)).trans hreply.memory⟩, fun k hk => ⟨?_, ?_⟩, ?_,
      (KeepsRegs.of_does hdoes (by decide) _).trans hreply.regs⟩
    · exact hreply.out.trans (by rw [hdoes.same .out (by decide) (by decide)]; rfl)
    · exact (State.extremes_congr hreply.mgt (hreply.regs _ (by simp)) _).trans
        ((s.restartExtremes_extremes p p hk).trans (if_pos rfl))
    · rw [← ho]
      exact (State.extremes_congr hreply.mgt (hreply.regs _ (by simp)) _).trans
        ((s.restartExtremes_extremes p o hk).trans (if_neg hne))
    · rw [hreply.mgt, s.restartExtremes_mgt]
  case history =>
    have hknown : ¬ 34 ≤ code.toNat := Nat.not_le.mpr hcode
    have hreply := State.serve_replied (cmd := 3) (req := req) (status := 0) (engineer := false) h.1 h.2 same
      (by rwa [length_mgtFrames])
    refine ⟨_, exec_history_eq req code index, ?_⟩
    rw [if_neg hknown, if_neg hknown]
    exact ⟨⟨hreply.out, hreply.agenda, hreply.sec, hreply.str, hreply.memory⟩, hreply.mgt, hreply.regs⟩
  case unknown =>
    have hreply := State.serve_replied (engineer := false) h.1 h.2 same (one 3 3 hs)
    refine ⟨_, exec_history_eq req code index, ?_⟩
    rw [if_pos hcode, if_pos hcode]
    exact ⟨⟨hreply.out, hreply.agenda, hreply.sec, hreply.str, hreply.memory⟩, hreply.mgt, hreply.regs⟩
  case logread =>
    have hreply := State.serve_replied (cmd := 4) (req := req) (status := 0) (engineer := false) h.1 h.2 same
      (by rwa [length_mgtFrames])
    exact ⟨_, exec_logread_eq req index n, ⟨hreply.out, hreply.agenda, hreply.sec, hreply.str, hreply.memory⟩, hreply.mgt,
      hreply.regs⟩
  case logmark =>
    have hdoes : Does [.mgt] [16] s (s.log 0x0D p.val (text.take 28)) := State.log_does
    have hline : SameLine p s (s.log 0x0D p.val (text.take 28))  := .of_does hdoes (by decide)
    have hreply := State.serve_replied (engineer := false) (f := fun s => s.log 0x0D p.val (text.take 28)) h.1 h.2 hline
      (one 5 0 hs)
    have hwide {a : Nat} := State.wide_congr (a := a) (k := 2) (fun i _ => hreply.regs (a + 4 * i) (by simp))
    refine ⟨_, exec_logmark_eq req text, ⟨?_, hreply.agenda.trans (hdoes.same .agenda (by decide) (by decide)),
      hreply.sec.trans (hdoes.same .sec (by decide) (by decide)), hreply.str.trans (hdoes.same .str (by decide) (by decide)),
      (KeepsMemory.of_does hdoes (by decide)).trans hreply.memory⟩, hwide.trans (s.log_next _ _ _), ?_,
      fun hroom => hwide.trans (s.log_old _ _ _ hroom), ?_, (s.log_keepsRegs _ _ _).trans (hreply.regs.mono (by simp))⟩
    · exact hreply.out.trans (by rw [hdoes.same .out (by decide) (by decide)]; rfl)
    · rw [hreply.mgt, s.log_mgt]; rfl
    · rw [hreply.mgt, s.log_mgt]
  case held =>
    have hdoes : Does [.mgt] [16] s (s.setSlots p.val ((s.slots p.val).erase x)) := State.setSlots_does
    have hreply := State.serve_replied (cmd := 11) (req := req) (status := r.1) (engineer := false)
      (f := fun s => s.setSlots p.val ((s.slots p.val).erase x)) h.1 h.2 (s.setSlots_sameLine _ _ p) (by rwa [length_mgtFrames])
    refine ⟨_, exec_getreply_held hheld hreply', ⟨?_, hreply.agenda.trans (hdoes.same .agenda (by decide) (by decide)),
      hreply.sec.trans (hdoes.same .sec (by decide) (by decide)), hreply.str.trans (hdoes.same .str (by decide) (by decide)),
      (KeepsMemory.of_does hdoes (by decide)).trans hreply.memory⟩, (State.slots_congr hreply.mgt _).trans (s.setSlots_own p _),
      (State.slots_congr hreply.mgt _).trans (s.setSlots_other p _), ?_, (s.setSlots_keepsRegs _ _).trans (hreply.regs.mono (by simp))⟩
    · exact hreply.out.trans (by rw [hdoes.same .out (by decide) (by decide)]; rfl)
    · rw [hreply.mgt, State.setSlots_log]
  case notHeld =>
    have hreply := State.serve_replied (engineer := false) h.1 h.2 same (one 11 6 hs)
    exact ⟨_, exec_getreply_none hheld, ⟨hreply.out, hreply.agenda, hreply.sec, hreply.str, hreply.memory⟩, hreply.mgt,
      hreply.regs⟩
  case ready =>
    let u := s.setSlots p.val (tellReply req (s.slots p.val))
    have hdoes : Does [.mgt] [16] s u := State.setSlots_does
    have hsent : Does [.out, .links] [] u (u.evtTo p 2 (req.setWidth 16)) := State.sendFrame_does
    have hgo : u.evtTo p 2 (req.setWidth 16) = u.pushOn p.val 3 (.evt p 2 (req.setWidth 16) u.count) :=
      State.sendFrame_of_sends (hs.of_sameLine (s.setSlots_sameLine _ _ p)) _
    have hmgt : (u.evtTo p 2 (req.setWidth 16)).mgt = u.mgt := hsent.same .mgt (by decide) (by decide)
    refine ⟨_, exec_replyReady_told h hevt, ?_, (State.slots_congr hmgt _).trans (s.setSlots_own p _),
      (State.slots_congr hmgt _).trans (s.setSlots_other p _), ?_,
      (s.setSlots_keepsRegs _ _).trans (KeepsRegs.of_does hsent (by decide) _),
      (KeepsMemory.of_does hdoes (by decide)).trans (.of_does hsent (by decide))⟩
    · change (u.evtTo p 2 (req.setWidth 16)).out = _
      rw [hgo, State.pushOn_out, hdoes.same .out (by decide) (by decide), hdoes.same .count (by decide) (by decide)]
    · change (u.evtTo p 2 (req.setWidth 16)).mgt.log = _
      rw [hmgt, State.setSlots_log]
  case discard =>
    exact ⟨_, (exec_replyDiscard_held h).trans (congrArg _ (if_pos hdue)), s.setSlots_own p _, s.setSlots_other p _,
      State.setSlots_does.same .out (by decide) (by decide), s.setSlots_keepsRegs _ _,
      .of_does State.setSlots_does (by decide)⟩

end Sys2Proof.Machine
end

section
/-! The watchdog of the management processor (O60; R500). -/
namespace Sys2Proof.Machine

variable {s t u : State} {p q : Port}

/-! ## Every request in hand is answered with BUSY -/

theorem State.mgtReply_nil (s : State) (p : Port) (cmd req status : Byte) :
    s.mgtReply p cmd req status [] = s.sendFrame p.val 3 (.mgt p cmd 0x80 req status []) := by
  unfold State.mgtReply
  rw [segments_nil _ (by split <;> decide)]
  rfl

/-- The BUSY frames for the requests in hand of a port. -/
def State.busyFrames (s : State) (p : Port) : List Out :=
  ((s.slots p.val).filter (fun x => x.reply.isNone)).map (fun x => .mgt p x.cmd 0x80 x.req msBusy [])

theorem State.busyFrames_length (s : State) (p : Port) : (s.busyFrames p).length ≤ (s.slots p.val).length := by
  unfold State.busyFrames
  rw [List.length_map]
  exact List.length_filter_le _ _

theorem State.busyFrames_congr (h : t.mgt = s.mgt) (p : Port) : t.busyFrames p = s.busyFrames p := by
  unfold State.busyFrames; rw [State.slots_congr h]

theorem SendsAll.busyAll (h : SendsAll p 3 (s.busyFrames p).length s) :
    (s.busyAll p).out = s.out ++ s.busyFrames p ∧ ∀ q, q ≠ p → SameLine q s (s.busyAll p) := by
  obtain ⟨hout, -, hline⟩ := SendsAll.frames (n := 0) (fun t x => t.mgtReply_nil p x.cmd x.req msBusy)
    ((s.slots p.val).filter (fun x => x.reply.isNone)) (by simpa only [State.busyFrames, List.length_map, Nat.add_zero] using h)
  exact ⟨hout, hline⟩

/-- Both ports' requests answered. -/
def State.allBusy (s : State) : State := (s.busyAll 0).busyAll 1

theorem State.allBusy_does (s : State) : Does [.out, .links] [] s s.allBusy :=
  State.busyAll_does.call (by decide) (State.busyAll_does.call (by decide) Does.refl)

theorem SendsAll.allBusy (h : ∀ p : Port, SendsAll p 3 (s.busyFrames p).length s) :
    s.allBusy.out = s.out ++ s.busyFrames 0 ++ s.busyFrames 1 := by
  obtain ⟨hout, hline⟩ := (h 0).busyAll
  have hmgt : (s.busyAll 0).mgt = s.mgt := State.busyAll_does.same .mgt (by decide) (by decide)
  have hframes := State.busyFrames_congr hmgt 1
  have hone : SendsAll 1 3 ((s.busyAll 0).busyFrames 1).length (s.busyAll 0) := by
    rw [hframes]
    exact (h 1).of_sameLine (hline 1 (by decide))
  exact hone.busyAll.1.trans (by rw [hout, hframes])

/-! ## What the mailbox held is lost -/

/-- The slots of both ports free. -/
def State.slotsFreed (s : State) : State := (s.setSlots 0 []).setSlots 1 []

theorem State.slotsFreed_does (s : State) : Does [.mgt] [16] s s.slotsFreed :=
  State.setSlots_does.call (by decide) (State.setSlots_does.call (by decide) Does.refl)

theorem State.slotsFreed_keepsRegs (s : State) : KeepsRegs [aMGT_STAT] s s.slotsFreed :=
  (s.setSlots_keepsRegs 0 []).trans ((s.setSlots 0 []).setSlots_keepsRegs 1 [])

theorem State.slotsFreed_mgt (s : State) : s.slotsFreed.mgt = { s.mgt with slots0 := [], slots1 := [] } := rfl

/-- An image that was being written is invalid (R496). -/
def State.updateLost (s : State) : State := if s.mgt.running = some 0x06 then s.setFld aMGT_FW fMGT_FW_UPD 3 else s

theorem State.updateLost_does (s : State) : Does [] [16] s s.updateLost :=
  Does.ite (fun _ => Does.setFld adr_MGT_FW (by decide) Does.refl) (fun _ => Does.refl)

theorem State.updateLost_upd (h : s.mgt.running = some 6) : s.updateLost.fld aMGT_FW fMGT_FW_UPD = 3 := by
  unfold State.updateLost
  rw [if_pos h]
  exact State.fld_setFld_self s _ _ _ (by decide) (by decide)

theorem State.updateLost_keepsRegs (s : State) : KeepsRegs [aMGT_FW] s s.updateLost := by
  unfold State.updateLost
  split
  · exact (KeepsRegs.refl _ s).setFld (by simp) _ _
  · exact .refl _ s

/-- No command under way, and no activation that the firmware holds (R500). -/
def State.runningLost (s : State) : State :=
  { s with agenda := s.agenda.filter (fun d => !d.activates), mgt := { s.mgt with running := none, image := [], checked := false } }

theorem State.runningLost_does (s : State) : Does [.agenda, .mgt] [] s s.runningLost :=
  Does.put (t := s) [.agenda, .mgt] Does.refl (by decide) rfl rfl rfl rfl (fun p hp => by
    cases p <;> first | exact absurd (by decide) hp | rfl)

/-- What the mailbox held is lost. -/
def State.requestsLost (s : State) : State := s.slotsFreed.updateLost.runningLost

theorem State.requestsLost_does (s : State) : Does [.agenda, .mgt] [16] s s.requestsLost :=
  (State.runningLost_does _).call (by decide) ((State.updateLost_does _).call (by decide) (s.slotsFreed_does.call (by decide) Does.refl))

theorem State.requestsLost_shows (s : State) : let t := s.requestsLost
    t.slots 0 = [] ∧ t.slots 1 = [] ∧ t.mgt.running = none ∧ (∀ d ∈ t.agenda, d.activates = false) ∧
      (s.mgt.running = some 6 → t.fld aMGT_FW fMGT_FW_UPD = 3) ∧ t.reg aMGT_WDOG = s.reg aMGT_WDOG := by
  have hmgt : s.slotsFreed.updateLost.mgt = { s.mgt with slots0 := [], slots1 := [] } :=
    ((State.updateLost_does _).same .mgt (by decide) (by decide)).trans s.slotsFreed_mgt
  refine ⟨congrArg Mgt.slots0 hmgt, congrArg Mgt.slots1 hmgt, rfl, fun d hd => by simpa using (List.mem_filter.mp hd).2,
    fun h => State.updateLost_upd h, (s.slotsFreed.updateLost_keepsRegs _ (by decide)).trans (s.slotsFreed_keepsRegs _ (by decide))⟩

/-- The restart counted and latched, with a free value for the program counter. -/
def State.watchdogCounted (s : State) : State := (s.draw.2.bump aMGT_WDOG).latch aMGT_LAT fMGT_LAT_WDOG

theorem State.watchdogCounted_does (s : State) : Does [.free, .fresh] [16] s s.watchdogCounted :=
  Does.latch adr_MGT_LAT (by decide) (Does.bump adr_MGT_WDOG (by decide) (Does.put_free (by decide) Does.refl))

theorem State.watchdogCounted_shows (s : State) :
    (s.watchdogCounted.reg aMGT_WDOG).toNat = min 0xFFFFFFFF ((s.reg aMGT_WDOG).toNat + 1) ∧
      s.watchdogCounted.bit aMGT_LAT fMGT_LAT_WDOG = true ∧ s.watchdogCounted.reg aMGT_FW = s.reg aMGT_FW :=
  ⟨(congrArg BitVec.toNat (State.reg_latch_ne (s.draw.2.bump aMGT_WDOG) _ (by decide))).trans (State.reg_bump_toNat s.draw.2 _),
    State.bit_latch_self _ _ _ rfl (by decide),
    (State.reg_latch_ne _ _ (by decide)).trans (State.reg_bump_ne s.draw.2 (by decide))⟩

/-- The restart noted: counted, latched, logged and raised. -/
def State.watchdogNoted (s : State) : State :=
  (s.watchdogCounted.log 0x0B 0 (leBytes 4 s.draw.1)).raise 117 islManagement

theorem State.watchdogNoted_does (s : State) : Does [.agenda, .free, .fresh, .mgt] [16] s s.watchdogNoted :=
  State.raise_does.call (by decide) (State.log_does.call (by decide) (s.watchdogCounted_does.call (by decide) Does.refl))

theorem State.watchdogNoted_mgt (s : State) : s.watchdogNoted.mgt = { s.mgt with log := s.watchdogNoted.mgt.log } := by
  have hmgt : s.watchdogCounted.mgt = s.mgt := s.watchdogCounted_does.same .mgt (by decide) (by decide)
  unfold State.watchdogNoted
  rw [State.raise_does.same .mgt (by decide) (by decide), State.log_mgt, hmgt]

theorem State.watchdogNoted_shows (s : State) : let t := s.watchdogNoted
    (t.reg aMGT_WDOG).toNat = min 0xFFFFFFFF ((s.reg aMGT_WDOG).toNat + 1) ∧ t.bit aMGT_LAT fMGT_LAT_WDOG = true ∧
      Raises 117 islManagement s t ∧ (∀ d ∈ t.agenda, d.activates = true → d ∈ s.agenda) ∧
      t.reg aMGT_FW = s.reg aMGT_FW := by
  have hlog : KeepsRegs _ s.watchdogCounted s.watchdogNoted := s.watchdogCounted.log_keepsRegs 0x0B 0 (leBytes 4 s.draw.1)
  obtain ⟨hcount, hlat, hfw⟩ := s.watchdogCounted_shows
  refine ⟨?_, (State.bit_congr _ (hlog _ (by decide))).trans hlat, ?_, fun d hd hact => ?_, (hlog _ (by decide)).trans hfw⟩
  · rw [hlog _ (by decide), hcount]
  · exact raises_of_count ((State.log_does.same .count (by decide) (by decide)).trans
      (s.watchdogCounted_does.same .count (by decide) (by decide))) _ _
  · rcases (mem_insertDue _ _ _).mp hd with rfl | hd
    · exact absurd hact Bool.false_ne_true
    · have hagenda := (State.log_does (s := s.watchdogCounted) (typ := 0x0B) (code := 0) (payload := leBytes 4 s.draw.1)).same .agenda (by decide) (by decide)
      exact s.watchdogCounted_does.same .agenda (by decide) (by decide) ▸ hagenda ▸ hd

theorem exec_watchdogExpiry_eq : exec .watchdogExpiry s = .next s.allBusy.requestsLost.watchdogNoted := rfl

theorem State.noted_slots (s : State) (k : Nat) : s.watchdogNoted.slots k = s.slots k := by
  unfold State.slots
  rw [s.watchdogNoted_mgt]

/-- What a watchdog expiry leaves, whatever the links let out. -/
theorem watchdogExpiry_shows (s : State) : let t := s.allBusy.requestsLost.watchdogNoted
    t.slots 0 = [] ∧ t.slots 1 = [] ∧ t.mgt.running = none ∧ t.bit aMGT_LAT fMGT_LAT_WDOG = true ∧
      (t.reg aMGT_WDOG).toNat = min 0xFFFFFFFF ((s.reg aMGT_WDOG).toNat + 1) ∧
      (s.mgt.running = some 6 → t.fld aMGT_FW fMGT_FW_UPD = 3) ∧ (∀ d ∈ t.agenda, d.activates = false) ∧
      t.out = s.allBusy.out ∧ Raises 117 islManagement s t ∧ (∀ a, a / 0x100000 ≠ 16 → t.reg a = s.reg a) ∧
      KeepsMemory s t := by
  have hbusy := s.allBusy_does
  have hlost := s.allBusy.requestsLost_does
  have hnoted := s.allBusy.requestsLost.watchdogNoted_does
  obtain ⟨hslots0, hslots1, hrun, hheld, hupd, hwdog⟩ := s.allBusy.requestsLost_shows
  obtain ⟨hcount, hlat, hraise, hkept, hfw⟩ := s.allBusy.requestsLost.watchdogNoted_shows
  have hmgt' : s.allBusy.mgt = s.mgt := hbusy.same .mgt (by decide) (by decide)
  refine ⟨(State.noted_slots _ _).trans hslots0, (State.noted_slots _ _).trans hslots1, ?_, hlat, ?_, fun h => ?_,
    fun d hd => ?_, ?_, ?_, fun a ha => ?_,
    ((KeepsMemory.of_does hbusy (by decide)).trans (.of_does hlost (by decide))).trans (.of_does hnoted (by decide))⟩
  · rw [State.watchdogNoted_mgt]; exact hrun
  · rw [hcount, hwdog, hbusy.regs (by decide) _ (by decide)]
  · exact (State.fld_congr _ hfw).trans (hupd (hmgt' ▸ h))
  · by_contra hact
    exact hact (hheld d (hkept d hd (by simpa using hact)))
  · exact (hnoted.same .out (by decide) (by decide)).trans (hlost.same .out (by decide) (by decide))
  · have hc : s.allBusy.requestsLost.count = s.count :=
      (hlost.same .count (by decide) (by decide)).trans (hbusy.same .count (by decide) (by decide))
    unfold Raises at hraise ⊢
    rwa [hc] at hraise
  · have hblk : regBlk a ∉ [16] := by rw [List.mem_singleton]; unfold regBlk; omega
    exact (hnoted.regs (by decide) a hblk).trans ((hlost.regs (by decide) a hblk).trans (hbusy.regs (by decide) a (by simp)))

theorem State.busyFrames_eq (s : State) (p : Port) : s.busyFrames p = (s.slots p.val).filterMap (fun x =>
    if x.reply.isNone then some (Out.mgt p x.cmd 0x80 x.req msBusy []) else none) := by
  unfold State.busyFrames
  generalize s.slots p.val = l
  induction l with
  | nil => rfl
  | cons x l ih =>
    by_cases hx : x.reply.isNone = true
    · rw [List.filter_cons_of_pos (p := fun x : Slot => x.reply.isNone) hx, List.map_cons, ih]
      exact (List.filterMap_cons_some (a := x) (l := l) (if_pos hx)).symm
    · rw [List.filter_cons_of_neg (p := fun x : Slot => x.reply.isNone) hx, ih]
      exact (List.filterMap_cons_none (a := x) (l := l) (if_neg hx)).symm

/-- Settles O60: the BUSY frames by `SendsAll.allBusy`, the rest by `watchdogExpiry_shows` and the parts that no step touches. -/
theorem watchdogRestart : Obligations.WatchdogRestart := by
  unfold Obligations.WatchdogRestart
  intro s busy hs
  obtain ⟨hslots0, hslots1, -, hlat, hwdog, -, -, hout, hraise, hregs, -⟩ := watchdogExpiry_shows s
  have hall : Does [.agenda, .free, .fresh, .out, .links, .mgt] [16] s s.allBusy.requestsLost.watchdogNoted :=
    (State.watchdogNoted_does _).call (by decide) ((State.requestsLost_does _).call (by decide)
      (s.allBusy_does.call (by decide) Does.refl))
  refine ⟨_, exec_watchdogExpiry_eq, ?_, hslots0, hslots1, hwdog, hlat, hraise, hregs, hall.same .sec (by decide) (by decide),
    hall.same .tasks (by decide) (by decide), hall.same .engs (by decide) (by decide), hall.same .loops (by decide) (by decide),
    hall.same .players (by decide) (by decide), hall.same .pins (by decide) (by decide), hall.same .power (by decide) (by decide),
    hall.same .count (by decide) (by decide)⟩
  rw [hout, SendsAll.allBusy (fun p => (hs p).mono (s.busyFrames_length p)), s.busyFrames_eq, s.busyFrames_eq]

end Sys2Proof.Machine
end

section
/-! Sensors, shedding and the watchdog (O44; R488 to R491, R499, R500). -/
namespace Sys2Proof.Machine

variable {s t u : State} {fs : Fin 128} {isl : Fin 80} {rise clear : Bool}

/-! ## A condition with hysteresis -/

theorem State.condition_raises (h : s.causeStands fs.val = false) :
    Raises fs isl s (s.condition fs isl true clear) ∧ (s.condition fs isl true clear).causeStands fs.val = true := by
  have heq : s.condition fs isl true clear = (s.causeOn fs.val 0).raise fs isl := by
    unfold State.condition
    rw [if_pos rfl, h]
    rfl
  rw [heq]
  exact ⟨raises_of_count (State.causeOn_does.same .count (by decide) (by decide)) _ _,
    causeStands_of_causeAt (State.causeAt_causeOn s fs.val 0)⟩

theorem State.condition_clears : (s.condition fs isl false true).causeAt fs.val 0 = false ∧
    (s.condition fs isl false true).agenda = s.agenda :=
  ⟨State.causeAt_causeOff s fs.val 0, rfl⟩

theorem State.condition_agenda (s : State) (fs : Fin 128) (isl : Fin 80) (rise clear : Bool) :
    s.agenda ⊆ (s.condition fs isl rise clear).agenda := by
  have hon : (s.causeOn fs.val 0).agenda = s.agenda := State.causeOn_does.same .agenda (by decide) (by decide)
  unfold State.condition
  split
  · split
    · exact List.Subset.refl _
    · rw [State.raise_agenda, hon]; exact subset_insertDue _ _
  · split <;> exact List.Subset.refl _

/-- The causes of one source are no matter of another's condition. -/
def SameCauses (n : Nat) (s t : State) : Prop := s.causes.filter (fun c => c.1 == n) = t.causes.filter (fun c => c.1 == n)

theorem SameCauses.trans {n : Nat} (h : SameCauses n s t) (g : SameCauses n t u) : SameCauses n s u := Eq.trans h g

theorem SameCauses.stands {n : Nat} (h : SameCauses n s t) : t.causeStands n = s.causeStands n := by
  have hstands : ∀ u : State, u.causeStands n = !(u.causes.filter (fun c => c.1 == n)).isEmpty := fun u => by
    unfold State.causeStands
    rw [Bool.eq_iff_iff]
    simp
  rw [hstands, hstands, h]

theorem SameCauses.at {n : Nat} (h : SameCauses n s t) (i : Nat) : t.causeAt n i = s.causeAt n i := by
  have hat : ∀ u : State, u.causeAt n i = (u.causes.filter (fun c => c.1 == n)).any (fun c => c == (n, i)) := fun u => by
    unfold State.causeAt
    rw [Bool.eq_iff_iff]
    simp
  rw [hat, hat, h]

theorem State.condition_sameCauses (s : State) (rise clear : Bool) {n : Nat} (hne : fs.val ≠ n) :
    SameCauses n s (s.condition fs isl rise clear) := by
  unfold SameCauses State.condition State.causeOn State.causeOff
  split
  · split
    · rfl
    · split
      · rfl
      · exact (List.filter_cons_of_neg (p := fun c : Nat × Nat => c.1 == n) (by simpa using hne)).symm
  · split
    · rw [List.filter_filter]
      refine List.filter_congr (fun c _ => ?_)
      by_cases hc : c.1 = n
      · have : c ≠ (fs.val, 0) := fun h => hne (by rw [← hc, h])
        simp [this]
      · simp [hc]
    · rfl

/-! ## The clock and the extremes of the management processor -/

/-- What the work on a sample leaves of the mailbox's state until its end. -/
structure SameClock (s t : State) : Prop where
  uptime : t.mgt.uptime = s.mgt.uptime
  coolFor : t.mgt.coolFor = s.mgt.coolFor
  extremes : t.mgt.extremes = s.mgt.extremes

theorem SameClock.of_mgt (h : t.mgt = s.mgt) : SameClock s t := ⟨by rw [h], by rw [h], by rw [h]⟩

theorem SameClock.trans (h : SameClock s t) (g : SameClock t u) : SameClock s u :=
  ⟨g.uptime.trans h.uptime, g.coolFor.trans h.coolFor, g.extremes.trans h.extremes⟩

theorem SameClock.of_log {l : List (List Byte)} (h : t.mgt = { s.mgt with log := l }) : SameClock s t :=
  ⟨by rw [h], by rw [h], by rw [h]⟩

theorem SameClock.foldl {α : Type} {f : State → α → State} (hf : ∀ t x, SameClock t (f t x)) (l : List α)
    (s : State) : SameClock s (l.foldl f s) := by
  induction l generalizing s with
  | nil => exact .of_mgt rfl
  | cons x l ih => exact (hf s x).trans (ih _)

theorem State.log_sameClock (s : State) (typ code : Nat) (payload : List Byte) : SameClock s (s.log typ code payload) :=
  .of_log (s.log_mgt typ code payload)

theorem State.logEntry_eq (s : State) (summary : Bool) (typ code : Nat) (payload : List Byte) : s.logEntry summary typ code payload =
    { s.logRoom.setWide aMGT_LOGNEXT 2 (s.wide aMGT_LOGNEXT 2 + 1) with
      mgt := { s.logRoom.mgt with log := s.logRoom.mgt.log ++ [logBytes s typ
        ((if s.bit aTBS_STATE fTBS_STATE_TIME_VALID then 0 else 2) + summary.toNat) code (s.wide aMGT_LOGNEXT 2) payload] } } := rfl

theorem State.logEntry_sameClock (s : State) (summary : Bool) (typ code : Nat) (payload : List Byte) :
    SameClock s (s.logEntry summary typ code payload) := by
  rw [State.logEntry_eq, State.logRoom_mgt]
  exact ⟨rfl, rfl, rfl⟩

theorem State.ageHistory_sameClock (s : State) : SameClock s s.ageHistory := by
  unfold State.ageHistory
  exact iteInduction (motive := SameClock s) (fun _ => .of_mgt rfl) (fun _ => ⟨rfl, rfl, rfl⟩)

theorem State.addHistory_sameClock (s : State) (values : List Word) : SameClock s (s.addHistory values) := by
  unfold State.addHistory
  extract_lets m sums n
  refine iteInduction (motive := SameClock s) (fun _ => ?_) (fun _ => ⟨rfl, rfl, rfl⟩)
  exact SameClock.trans (t := { s with mgt := { m with
      sums := [], sumN := 0, means := m.means ++ [(s.count.setWidth 64, sums.map (meanWord n))] } }) ⟨rfl, rfl, rfl⟩
      (State.ageHistory_sameClock _)

theorem State.flushShed_sameClock (s : State) : SameClock s s.flushShed := by
  unfold State.flushShed
  extract_lets m
  split
  · exact ⟨rfl, rfl, rfl⟩
  · exact SameClock.trans (t := { s with mgt := { m with shedN := 0, shed := [] } }) ⟨rfl, rfl, rfl⟩
      (SameClock.foldl (fun t n => t.logEntry_sameClock true 0x01 n _) _ _)

/-! ## The entries of the log, the history and the entries that were shed -/

/-- The registers of the log. -/
def logRegs : List Nat := [aMGT_LOGNEXT, aMGT_LOGNEXT + 4, aMGT_LOGOLD, aMGT_LOGOLD + 4]

theorem State.logRoom_keepsRegs (s : State) : KeepsRegs logRegs s s.logRoom := by
  unfold State.logRoom
  split
  · exact .refl _ _
  · exact (KeepsRegs.refl logRegs s).setWide_two (by decide) (by decide) (s.wide aMGT_LOGOLD 2 + 4096)

theorem State.logEntry_keepsRegs (s : State) (summary : Bool) (typ code : Nat) (payload : List Byte) :
    KeepsRegs logRegs s (s.logEntry summary typ code payload) := by
  rw [State.logEntry_eq]
  exact s.logRoom_keepsRegs.setWide_two (a := aMGT_LOGNEXT) (by decide) (by decide) (s.wide aMGT_LOGNEXT 2 + 1)

theorem KeepsRegs.foldl {α : Type} {as : List Nat} {f : State → α → State} (hf : ∀ t x, KeepsRegs as t (f t x)) (l : List α)
    (s : State) : KeepsRegs as s (l.foldl f s) := by
  induction l generalizing s with
  | nil => exact .refl _ _
  | cons x l ih => exact (hf s x).trans (ih _)

theorem State.flushShed_keepsRegs (s : State) : KeepsRegs logRegs s s.flushShed := by
  unfold State.flushShed
  extract_lets m
  split
  · exact .of_regs rfl _
  · exact KeepsRegs.trans (t := { s with mgt := { m with shedN := 0, shed := [] } }) (.of_regs rfl _)
      (KeepsRegs.foldl (fun t n => t.logEntry_keepsRegs true 0x01 n _) _ _)

end Sys2Proof.Machine
end

section
/-! The samples of the sensors as they are stored, and their warnings (O44; R488, R491). -/
namespace Sys2Proof.Machine

variable {s t u : State} {v : Vector Word 34} {w : Vector Word 12}

theorem aMGT_SENS_ne {k n : Nat} (hk : k < 34) (hn : n < 34) (h : k ≠ n) : aMGT_SENS k ≠ aMGT_SENS n := by
  unfold aMGT_SENS; omega

/-! ## Samples and extremes -/

/-- The extremes of a point after a sample (R488). -/
def extremesWith (e : Option (Word × Word)) (v : Word) : Word × Word :=
  let e := e.getD (v, v)
  (if v.toInt < e.1.toInt then v else e.1, if e.2.toInt < v.toInt then v else e.2)

/-- An entry of the table of extremes widened by a sample. -/
def widened (t : Tab (Option (Word × Word))) (k : Nat) (v : Word) : Tab (Option (Word × Word)) :=
  Tab.set (fun _ => none) t k (some (extremesWith (Tab.get (fun _ => none) t k) v))

/-- The sample of one point, in its register and in the extremes of both ports. -/
def State.storeSensor (v : Vector Word 34) (s : State) (n : Nat) : State :=
  { s.setReg (aMGT_SENS n) (v.toList.getD n 0) with
    mgt := { s.mgt with extremes := widened (widened s.mgt.extremes n (v.toList.getD n 0)) (64 + n) (v.toList.getD n 0) } }

/-- The power of one rail. -/
def State.storePower (w : Vector Word 12) (s : State) (r : Nat) : State := s.setReg (aMGT_RPWR r) (w.toList.getD r 0)

theorem State.storeSamples_eq (s : State) :
    s.storeSamples v w = (List.range 12).foldl (State.storePower w) ((List.range 34).foldl (State.storeSensor v) s) := rfl

/-- The first `m` points are stored, and nothing but them. -/
structure SensorsStored (v : Vector Word 34) (m : Nat) (s t : State) : Prop where
  read : ∀ k, k < 34 → t.reg (aMGT_SENS k) = if k < m then v.toList.getD k 0 else s.reg (aMGT_SENS k)
  extremes : ∀ q k, q < 2 → k < 34 → Tab.get (fun _ => none) t.mgt.extremes (q * 64 + k) =
    if k < m then some (extremesWith (Tab.get (fun _ => none) s.mgt.extremes (q * 64 + k)) (v.toList.getD k 0))
    else Tab.get (fun _ => none) s.mgt.extremes (q * 64 + k)
  others : ∀ a, (∀ k, k < 34 → a ≠ aMGT_SENS k) → t.reg a = s.reg a
  clock : t.mgt.uptime = s.mgt.uptime ∧ t.mgt.coolFor = s.mgt.coolFor

theorem Tab.get_widened (t : Tab (Option (Word × Word))) (k i : Nat) (x : Word) : Tab.get (fun _ => none) (widened t k x) i =
    if i = k then some (extremesWith (Tab.get (fun _ => none) t k) x) else Tab.get (fun _ => none) t i :=
  Tab.get_set _ _ _ _ _

theorem SensorsStored.next {m : Nat} (hm : m < 34) (h : SensorsStored v m s t) : SensorsStored v (m + 1) s (t.storeSensor v m) where
  read k hk := by
    by_cases hkm : k = m
    · subst hkm
      rw [if_pos (Nat.lt_succ_self _)]
      exact State.reg_setReg_self t _ _
    · simp only [show k < m + 1 ↔ k < m by omega]
      rw [← h.read k hk]
      exact State.reg_setReg_ne t _ (aMGT_SENS_ne hk hm hkm)
  extremes q k hq hk := by
    refine (Tab.get_widened _ _ _ _).trans ?_
    rw [Tab.get_widened, Tab.get_widened]
    by_cases hkm : k = m
    · subst hkm
      have h0 := h.extremes 0 k (by decide) hk
      have h1 := h.extremes 1 k (by decide) hk
      simp only [Nat.lt_irrefl, if_false, Nat.zero_mul, Nat.one_mul, Nat.zero_add] at h0 h1
      obtain rfl | rfl : q = 0 ∨ q = 1 := by omega
      · rw [if_neg (by omega), if_pos (by omega), if_pos (by omega), h0, Nat.zero_mul, Nat.zero_add]
      · rw [if_pos (by omega), if_neg (by omega), if_pos (by omega), h1, Nat.one_mul]
    · rw [if_neg (by omega), if_neg (by omega), h.extremes q k hq hk]
      simp only [show k < m + 1 ↔ k < m by omega]
  others a ha := (State.reg_setReg_ne t _ (ha m hm)).trans (h.others a ha)
  clock := h.clock

theorem State.sensors_stored (s : State) {m : Nat} (hm : m ≤ 34) : SensorsStored v m s ((List.range m).foldl (State.storeSensor v) s) := by
  induction m with
  | zero => exact ⟨fun _ _ => by simp, fun _ _ _ _ => by simp, fun _ _ => rfl, rfl, rfl⟩
  | succ m ih =>
    rw [List.range_succ, List.foldl_append]
    exact (ih (by omega)).next (by omega)

theorem State.powers_stored (s : State) {m : Nat} (hm : m ≤ 12) : let t := (List.range m).foldl (State.storePower w) s
    (∀ k, k < m → t.reg (aMGT_RPWR k) = w.toList.getD k 0) ∧ (∀ a, (∀ k, k < 12 → a ≠ aMGT_RPWR k) → t.reg a = s.reg a) ∧
      t.mgt = s.mgt := by
  induction m with
  | zero => exact ⟨fun _ h => absurd h (Nat.not_lt_zero _), fun _ _ => rfl, rfl⟩
  | succ m ih =>
    rw [List.range_succ, List.foldl_append]
    obtain ⟨hread, hothers, hmgt⟩ := ih (by omega)
    refine ⟨fun k hk => ?_, fun a ha => (State.reg_setReg_ne _ _ (ha m (by omega))).trans (hothers a ha), hmgt⟩
    by_cases hkm : k = m
    · subst hkm; exact State.reg_setReg_self _ _ _
    · exact (State.reg_setReg_ne _ _ (by unfold aMGT_RPWR; omega)).trans (hread k (by omega))

/-- The registers of the samples. -/
def sampleReg (a : Nat) : Prop := (∃ k, k < 34 ∧ a = aMGT_SENS k) ∨ (∃ k, k < 12 ∧ a = aMGT_RPWR k)

/-- What the samples leave in the registers and in the extremes. -/
structure SamplesStored (v : Vector Word 34) (w : Vector Word 12) (s t : State) : Prop where
  sensors : ∀ k : Fin 34, t.reg (aMGT_SENS k.val) = v[k]
  powers : ∀ r : Fin 12, t.reg (aMGT_RPWR r.val) = w[r]
  extremes : ∀ (q : Port) (k : Fin 34), Tab.get (fun _ => none) t.mgt.extremes (q.val * 64 + k.val) =
    some (extremesWith (Tab.get (fun _ => none) s.mgt.extremes (q.val * 64 + k.val)) v[k])
  others : ∀ a, ¬ sampleReg a → t.reg a = s.reg a
  clock : t.mgt.uptime = s.mgt.uptime ∧ t.mgt.coolFor = s.mgt.coolFor

theorem Vector.toList_getD {n : Nat} (v : Vector Word n) (k : Fin n) : v.toList.getD k.val 0 = v[k] := by
  rw [List.getD_eq_getElem _ _ (by simp), Vector.getElem_toList]
  rfl

theorem State.samples_stored (s : State) : SamplesStored v w s (s.storeSamples v w) := by
  have hsens := s.sensors_stored (v := v) (Nat.le_refl 34)
  obtain ⟨hread, hothers, hmgt⟩ := ((List.range 34).foldl (State.storeSensor v) s).powers_stored (w := w) (Nat.le_refl 12)
  rw [State.storeSamples_eq]
  refine ⟨fun k => ?_, fun r => ?_, fun q k => ?_, fun a ha => ?_, ?_⟩
  · rw [hothers _ (fun r hr => by have := k.isLt; unfold aMGT_SENS aMGT_RPWR; omega), hsens.read _ k.isLt, if_pos k.isLt, Vector.toList_getD]
  · rw [hread _ r.isLt, Vector.toList_getD]
  · rw [hmgt, hsens.extremes _ _ q.isLt k.isLt, if_pos k.isLt, Vector.toList_getD]
  · rw [hothers _ (fun r hr h => ha (.inr ⟨r, hr, h⟩)), hsens.others _ (fun k hk h => ha (.inl ⟨k, hk, h⟩))]
  · rw [hmgt]; exact hsens.clock

/-! ## Warnings -/

theorem State.latch_getLsbD (s : State) (a : Nat) {k : Nat} (hk : k < 32) (i : Nat) :
    ((s.latch a ⟨k, k⟩).reg a).getLsbD i = if i = k then true else (s.reg a).getLsbD i :=
  State.setBit_getLsbD s a hk true i

/-- The registers that warnings write. -/
def warnRegs : List Nat := aMGT_WARNLAT 0 :: aMGT_WARNLAT 1 :: logRegs

theorem aMGT_WARNLAT_mem (n : Nat) : aMGT_WARNLAT n ∈ warnRegs := by
  obtain h | h : n % 2 = 0 ∨ n % 2 = 1 := by omega
  · exact List.mem_cons.mpr (.inl (by unfold aMGT_WARNLAT; rw [h]))
  · exact List.mem_cons_of_mem _ (List.mem_cons.mpr (.inl (by unfold aMGT_WARNLAT; rw [h])))

theorem not_mem_logRegs_of_ge {a : Nat} (h : aMGT_LOGOLD + 8 ≤ a) : a ∉ logRegs := by
  unfold aMGT_LOGOLD at h
  simp only [logRegs, aMGT_LOGNEXT, aMGT_LOGOLD, List.mem_cons, List.not_mem_nil, or_false]
  omega

theorem not_mem_logRegs_of_lt {a : Nat} (h : a < aMGT_LOGNEXT) : a ∉ logRegs := by
  unfold aMGT_LOGNEXT at h
  simp only [logRegs, aMGT_LOGNEXT, aMGT_LOGOLD, List.mem_cons, List.not_mem_nil, or_false]
  omega

theorem State.warn_keepsRegs (s : State) (n : Nat) : KeepsRegs warnRegs s (s.warn n) := by
  have hlatch := (KeepsRegs.refl warnRegs s).latch (aMGT_WARNLAT_mem (n / 32)) ⟨n % 32, n % 32⟩
  unfold State.warn
  refine iteInduction (motive := KeepsRegs warnRegs s) (fun _ => ?_) (fun _ => .refl _ _)
  refine iteInduction (motive := KeepsRegs warnRegs s) (fun _ => hlatch) (fun _ => hlatch.trans ?_)
  exact (State.log_keepsRegs _ _ _ _).mono (fun a ha => List.mem_cons_of_mem _ (List.mem_cons_of_mem _ ha))

theorem State.warn_sameClock (s : State) (n : Nat) : SameClock s (s.warn n) := by
  have hlatch : SameClock s (s.latch (aMGT_WARNLAT (n / 32)) ⟨n % 32, n % 32⟩) := .of_mgt rfl
  unfold State.warn
  refine iteInduction (motive := SameClock s) (fun _ => ?_) (fun _ => .of_mgt rfl)
  exact iteInduction (motive := SameClock s) (fun _ => hlatch) (fun _ => hlatch.trans (State.log_sameClock _ _ _ _))

/-- The warning bit of a point. -/
def State.warned (s : State) (k : Nat) : Bool := (s.reg (aMGT_WARNLAT (k / 32))).getLsbD (k % 32)

theorem State.warned_log (s : State) (typ code : Nat) (payload : List Byte) (k : Nat) :
    (s.log typ code payload).warned k = s.warned k := by
  unfold State.warned
  rw [s.log_keepsRegs typ code payload _ (not_mem_logRegs_of_lt (by unfold aMGT_WARNLAT aMGT_LOGNEXT; omega))]

theorem State.warned_latch (s : State) {n k : Nat} (hn : n < 34) (hk : k < 34) :
    (s.latch (aMGT_WARNLAT (n / 32)) ⟨n % 32, n % 32⟩).warned k = (s.warned k || decide (k = n)) := by
  unfold State.warned
  by_cases hw : k / 32 = n / 32
  · rw [hw, State.latch_getLsbD _ _ (by omega)]
    by_cases hkn : k = n
    · subst hkn; simp
    · rw [if_neg (by omega)]; simp [hkn]
  · rw [State.reg_latch_ne s _ (by unfold aMGT_WARNLAT; omega)]
    have : k ≠ n := fun h => hw (by rw [h])
    simp [this]

theorem State.warned_warn (s : State) {n k : Nat} (hn : n < 34) (hk : k < 34) :
    (s.warn n).warned k = (s.warned k || (decide (k = n) && s.sensorBeyond n)) := by
  have hlatch := s.warned_latch hn hk
  unfold State.warn
  by_cases hbeyond : s.sensorBeyond n = true
  · rw [if_pos hbeyond, hbeyond, Bool.and_true]
    refine iteInduction (motive := fun t : State => t.warned k = _) (fun _ => hlatch) (fun _ => ?_)
    exact (State.warned_log _ _ _ _ _).trans hlatch
  · rw [if_neg hbeyond, Bool.eq_false_of_not_eq_true hbeyond, Bool.and_false, Bool.or_false]

theorem State.sensorBeyond_congr {k : Nat} (hsens : t.reg (aMGT_SENS k) = s.reg (aMGT_SENS k))
    (hwarn : t.reg (aMGT_WARN k) = s.reg (aMGT_WARN k)) : t.sensorBeyond k = s.sensorBeyond k := by
  unfold State.sensorBeyond State.fld
  rw [hsens, hwarn]

theorem not_mem_warnRegs {a : Nat} (h : aMGT_LOGOLD + 8 ≤ a) : a ∉ warnRegs := by
  have hlog := not_mem_logRegs_of_ge h
  unfold aMGT_LOGOLD at h
  simp only [warnRegs, List.mem_cons, hlog, or_false, aMGT_WARNLAT]
  omega

theorem KeepsRegs.sensorBeyond (h : KeepsRegs warnRegs s t) (k : Nat) : t.sensorBeyond k = s.sensorBeyond k :=
  State.sensorBeyond_congr (h _ (not_mem_warnRegs (by unfold aMGT_SENS aMGT_LOGOLD; omega)))
    (h _ (not_mem_warnRegs (by unfold aMGT_WARN aMGT_LOGOLD; omega)))

/-- The warnings of the first `m` points. -/
theorem State.warnings (s : State) {m : Nat} (hm : m ≤ 34) : let t := (List.range m).foldl State.warn s
    (∀ k, k < 34 → t.warned k = (s.warned k || (decide (k < m) && s.sensorBeyond k))) ∧ KeepsRegs warnRegs s t ∧ SameClock s t := by
  induction m with
  | zero => exact ⟨fun _ _ => by simp, .refl _ _, .of_mgt rfl⟩
  | succ m ih =>
    rw [List.range_succ, List.foldl_append]
    obtain ⟨hwarned, hregs, hclock⟩ := ih (by omega)
    refine ⟨fun k hk => ?_, hregs.trans (State.warn_keepsRegs _ m), hclock.trans (State.warn_sameClock _ m)⟩
    refine (State.warned_warn _ (by omega) hk).trans ?_
    rw [hwarned k hk, hregs.sensorBeyond]
    by_cases hkm : k = m
    · subst hkm; simp
    · simp [hkm, show (k < m + 1) = (k < m) from propext (by omega)]

end Sys2Proof.Machine
end

section
/-! A sample of the sensors and the load window (O44; R488 to R491, R499). -/
namespace Sys2Proof.Machine

variable {s t u : State} {v : Vector Word 34} {w : Vector Word 12}

/-! ## The fault of the first junction -/

theorem State.judgeSensors_eq (s : State) : ∃ b1 c1 b2 c2 b3 c3, s.judgeSensors =
    ((((s.condition 120 islManagement ((List.range 16).any (fun n => decide (1000 < (s.reg (aMGT_SENS n)).toInt)))
      ((List.range 16).all (fun n => decide ((s.reg (aMGT_SENS n)).toInt ≤ 960)))).condition 121 islManagement b1 c1).condition
      123 islManagement b2 c2).condition 122 islManagement b3 c3) := ⟨_, _, _, _, _, _, rfl⟩

theorem State.judgeSensors_rises (hhot : ∃ k : Fin 16, 1000 < (s.reg (aMGT_SENS k.val)).toInt) (hnone : s.causeStands 120 = false) :
    Raises 120 islManagement s s.judgeSensors ∧ s.judgeSensors.causeStands 120 = true := by
  obtain ⟨b1, c1, b2, c2, b3, c3, heq⟩ := s.judgeSensors_eq
  have hany : (List.range 16).any (fun n => decide (1000 < (s.reg (aMGT_SENS n)).toInt)) = true := by
    obtain ⟨k, hk⟩ := hhot
    exact List.any_eq_true.mpr ⟨k.val, List.mem_range.mpr k.isLt, decide_eq_true hk⟩
  rw [heq, hany]
  obtain ⟨hraise, hstands⟩ := State.condition_raises (isl := islManagement)
    (clear := (List.range 16).all (fun n => decide ((s.reg (aMGT_SENS n)).toInt ≤ 960))) (fs := 120) hnone
  generalize s.condition 120 islManagement true _ = u at hraise hstands
  refine ⟨State.condition_agenda _ _ _ _ _ (State.condition_agenda _ _ _ _ _ (State.condition_agenda _ _ _ _ _ hraise)), ?_⟩
  have hsame : SameCauses 120 u _ := (u.condition_sameCauses (isl := islManagement) (fs := 121) b1 c1 (by decide)).trans
    ((State.condition_sameCauses _ (fs := 123) (isl := islManagement) b2 c2 (by decide)).trans
      (State.condition_sameCauses _ (fs := 122) (isl := islManagement) b3 c3 (by decide)))
  exact hsame.stands.trans hstands

theorem State.judgeSensors_clears (hcool : ∀ k : Fin 16, (s.reg (aMGT_SENS k.val)).toInt ≤ 960) :
    s.judgeSensors.causeAt 120 0 = false := by
  obtain ⟨b1, c1, b2, c2, b3, c3, heq⟩ := s.judgeSensors_eq
  have hall : ∀ n ∈ List.range 16, (s.reg (aMGT_SENS n)).toInt ≤ 960 := fun n hn => hcool ⟨n, List.mem_range.mp hn⟩
  have hany : (List.range 16).any (fun n => decide (1000 < (s.reg (aMGT_SENS n)).toInt)) = false :=
    List.any_eq_false.mpr (fun n hn => by have := hall n hn; simp only [decide_eq_true_eq]; omega)
  rw [heq, hany, List.all_eq_true.mpr (fun n hn => decide_eq_true (hall n hn))]
  have hclear := (State.condition_clears (s := s) (fs := 120) (isl := islManagement)).1
  generalize s.condition 120 islManagement false true = u at hclear
  have hsame : SameCauses 120 u _ := (u.condition_sameCauses (isl := islManagement) (fs := 121) b1 c1 (by decide)).trans
    ((State.condition_sameCauses _ (fs := 123) (isl := islManagement) b2 c2 (by decide)).trans
      (State.condition_sameCauses _ (fs := 122) (isl := islManagement) b3 c3 (by decide)))
  exact (hsame.at 0).trans hclear

/-! ## A sample -/

/-- The warnings of all points. -/
def State.allWarned (s : State) : State := (List.range 34).foldl State.warn s

theorem State.allWarned_does (s : State) : Does [.fresh, .mgt] [16] s s.allWarned :=
  Does.foldl (fun _ _ => State.warn_does) Does.refl

/-- The clock of the management processor at a sample. -/
def State.sampleClock (s : State) (up : Nat) (now : Count) (cool : Nat) : State :=
  { s with mgt := { s.mgt with uptime := up, sampleAt := some now, coolFor := cool } }

theorem State.sampleClock_does {up : Nat} {now : Count} {cool : Nat} : Does [.mgt] [] s (s.sampleClock up now cool) :=
  Does.put_mgt (by decide) Does.refl

/-- The samples stored, judged and shown, and what warnings they give. -/
def State.sampleJudged (v : Vector Word 34) (w : Vector Word 12) (s : State) : State :=
  (s.storeSamples v w).judgeSensors.allWarned

/-- A sample up to the thermal trip. -/
def State.sensed (v : Vector Word 34) (w : Vector Word 12) (s : State) : State :=
  let t := ((s.sampleJudged v w).stackTemp (v.toList.getD 28 0).toInt).addHistory v.toList
  t.flushShed.sampleClock (t.mgt.uptime + 1) s.count (if (hottest v.toList).2 ≤ 880 then t.mgt.coolFor + 1 else 0)

theorem exec_sensorSample_eq (h : s.sampleDue = true) : exec (.sensorSample v w) s =
    .next (if 1120 < (hottest v.toList).2 ∧ !(s.power.holding.contains rcThermal)
      then (s.sensed v w).thermalTrip (hottest v.toList).1 (hottest v.toList).2 else s.sensed v w) := by
  refine (if_neg (by rw [h]; decide)).trans ?_
  rfl

theorem State.sampleJudged_does : Does [.agenda, .causes, .fresh, .mgt] [16] s (s.sampleJudged v w) :=
  (State.allWarned_does _).call (by decide) (State.judgeSensors_does.call (by decide)
    (State.storeSamples_does.call (by decide) Does.refl))

theorem State.sensed_does : Does [.agenda, .causes, .fresh, .mgt] [12, 16] s (s.sensed v w) :=
  State.sampleClock_does.call (by decide) (State.flushShed_does.call (by decide) (State.addHistory_does.call (by decide)
    (State.stackTemp_does.call (by decide) (State.sampleJudged_does.call (by decide) Does.refl))))

/-- What a sample shows before its thermal trip is judged. -/
structure Sampled (v : Vector Word 34) (w : Vector Word 12) (s t : State) : Prop where
  sensors : ∀ k : Fin 34, t.reg (aMGT_SENS k.val) = v[k]
  powers : ∀ r : Fin 12, t.reg (aMGT_RPWR r.val) = w[r]
  warnings : ∀ k : Fin 34, t.warned k.val = (s.warned k.val || t.sensorBeyond k.val)
  extremes : ∀ (q : Port) (k : Fin 34), t.extremes q.val k.val =
    extremesWith (Tab.get (fun _ => none) s.mgt.extremes (q.val * 64 + k.val)) v[k]
  rises : (∃ k : Fin 16, 1000 < (v[k.val]'(by omega)).toInt) → s.causeStands 120 = false →
    Raises 120 islManagement s t ∧ t.causeStands 120 = true
  clears : (∀ k : Fin 16, (v[k.val]'(by omega)).toInt ≤ 960) → t.causeAt 120 0 = false
  uptime : t.mgt.uptime = s.mgt.uptime + 1
  coolFor : t.mgt.coolFor = if (hottest v.toList).2 ≤ 880 then s.mgt.coolFor + 1 else 0
  others : ∀ a, a / 0x100000 ≠ 16 → a ≠ aHBM_STAT → t.reg a = s.reg a

theorem sensor_ne_log (k : Nat) : aMGT_SENS k ∉ warnRegs := not_mem_warnRegs (by unfold aMGT_SENS aMGT_LOGOLD; omega)

/-- After the warnings: what the sample has stored, what it has raised, and the registers that are not its own. -/
structure SampleJudged (v : Vector Word 34) (w : Vector Word 12) (s t : State) : Prop where
  stored : ∃ u, SamplesStored v w s u ∧ KeepsRegs warnRegs u t ∧ SameClock u t ∧
    ∀ k, k < 34 → t.warned k = (u.warned k || u.sensorBeyond k)
  rises : (∃ k : Fin 16, 1000 < (v[k.val]'(by omega)).toInt) → s.causeStands 120 = false →
    Raises 120 islManagement s t ∧ t.causeStands 120 = true
  clears : (∀ k : Fin 16, (v[k.val]'(by omega)).toInt ≤ 960) → t.causeAt 120 0 = false

theorem State.sampleJudged_shows (s : State) : SampleJudged v w s (s.sampleJudged v w) := by
  have hstored := s.samples_stored (v := v) (w := w)
  have hjudged : Does [.agenda, .causes] [] (s.storeSamples v w) (s.storeSamples v w).judgeSensors := State.judgeSensors_does
  have hdoes : Does [.mgt] [16] s (s.storeSamples v w) := State.storeSamples_does
  have hcauses : (s.storeSamples v w).causes = s.causes := hdoes.same .causes (by decide) (by decide)
  have hcount : (s.storeSamples v w).count = s.count := hdoes.same .count (by decide) (by decide)
  have hsens : ∀ k : Fin 16, (s.storeSamples v w).reg (aMGT_SENS k.val) = v[k.val]'(by omega) := fun k =>
    hstored.sensors ⟨k.val, by omega⟩
  have hwarn := (s.storeSamples v w).judgeSensors.allWarned_does
  obtain ⟨hwarned, hregs, hclock⟩ := (s.storeSamples v w).judgeSensors.warnings (Nat.le_refl 34)
  have hkeeps : KeepsRegs warnRegs (s.storeSamples v w) (s.storeSamples v w).judgeSensors := .of_does hjudged (by decide) _
  refine ⟨⟨s.storeSamples v w, hstored, hkeeps.trans hregs,
    .trans (.of_mgt (hjudged.same .mgt (by decide) (by decide))) hclock, fun k hk => ?_⟩, fun hhot hnone => ?_, fun hcool => ?_⟩
  · refine (hwarned k hk).trans ?_
    rw [decide_eq_true hk, Bool.true_and, hkeeps.sensorBeyond]
    unfold State.warned
    rw [hjudged.regs (by decide) _ (by simp)]
  · obtain ⟨hraise, hstands⟩ := State.judgeSensors_rises (s := s.storeSamples v w) (by simpa only [hsens] using hhot)
      (by unfold State.causeStands; rw [hcauses]; exact hnone)
    unfold Raises State.causeStands State.sampleJudged at *
    rw [hwarn.same .agenda (by decide) (by decide), hwarn.same .causes (by decide) (by decide)]
    exact ⟨hcount ▸ hraise, hstands⟩
  · have hclear := State.judgeSensors_clears (s := s.storeSamples v w) (by simpa only [hsens] using hcool)
    unfold State.causeAt State.sampleJudged at *
    rw [hwarn.same .causes (by decide) (by decide)]
    exact hclear

end Sys2Proof.Machine
end

section
/-! What sensor samples, load windows and watchdog expiries show (O44; R488 to R491, R499, R500). -/
namespace Sys2Proof.Machine

variable {s t u : State} {v : Vector Word 34} {w : Vector Word 12}

/-! ## The work after the warnings -/

/-- Work that leaves the samples, the warnings, the clock and the fault of the first junction. -/
structure AfterWarnings (s t : State) : Prop where
  regs : KeepsRegs (aHBM_STAT :: logRegs) s t
  clock : SameClock s t
  causes : SameCauses 120 s t
  agenda : s.agenda ⊆ t.agenda

theorem AfterWarnings.trans (h : AfterWarnings s t) (g : AfterWarnings t u) : AfterWarnings s u :=
  ⟨h.regs.trans g.regs, h.clock.trans g.clock, h.causes.trans g.causes, List.Subset.trans h.agenda g.agenda⟩

theorem AfterWarnings.of_mgt {b : List Nat} (h : Does [.mgt] b s t) (hregs : KeepsRegs logRegs s t) (hclock : SameClock s t) :
    AfterWarnings s t := by
  have hcauses : t.causes = s.causes := h.same .causes (by decide) (by decide)
  have hagenda : t.agenda = s.agenda := h.same .agenda (by decide) (by decide)
  exact ⟨hregs.mono (fun _ => List.mem_cons_of_mem _), hclock, by unfold SameCauses; rw [hcauses], by rw [hagenda]; exact List.Subset.refl _⟩

/-- The shown temperature of the stack. -/
def State.stackShown (s : State) (x : Int) : State :=
  (s.setFld aHBM_STAT fHBM_STAT_TEMP ((x / 8) % 256).toNat).setBit aHBM_STAT fHBM_STAT_HOT (decide (680 < x))

theorem State.stackShown_keepsRegs (s : State) (x : Int) : KeepsRegs [aHBM_STAT] s (s.stackShown x) :=
  ((KeepsRegs.refl [aHBM_STAT] s).setFld (by decide) _ _).setBit (by decide) _ _

theorem State.stackTemp_afterWarnings (s : State) (x : Int) : AfterWarnings s (s.stackTemp x) where
  regs := ((s.stackShown_keepsRegs x).trans (.of_does State.condition_does (by decide) _)).mono (by simp)
  clock := .of_mgt (State.stackTemp_does.same .mgt (by decide) (by decide))
  causes := (s.stackShown x).condition_sameCauses _ _ (by decide)
  agenda := (s.stackShown x).condition_agenda _ _ _ _

theorem State.addHistory_afterWarnings (s : State) (values : List Word) : AfterWarnings s (s.addHistory values) :=
  .of_mgt State.addHistory_does (.of_does State.addHistory_does (by decide) _) (s.addHistory_sameClock values)

theorem State.flushShed_afterWarnings (s : State) : AfterWarnings s s.flushShed :=
  .of_mgt State.flushShed_does s.flushShed_keepsRegs s.flushShed_sameClock

/-- The state of a sample as its history is kept. -/
def State.sampleKept (v : Vector Word 34) (s : State) : State := (s.stackTemp (v.toList.getD 28 0).toInt).addHistory v.toList

theorem State.sampleKept_afterWarnings (s : State) : AfterWarnings s (s.sampleKept v) :=
  (s.stackTemp_afterWarnings _).trans (State.addHistory_afterWarnings _ _)

theorem State.sensed_eq (s : State) : s.sensed v w = ((s.sampleJudged v w).sampleKept v).flushShed.sampleClock
    (((s.sampleJudged v w).sampleKept v).mgt.uptime + 1) s.count
    (if (hottest v.toList).2 ≤ 880 then ((s.sampleJudged v w).sampleKept v).mgt.coolFor + 1 else 0) := rfl

theorem not_mem_hbmStat_of_sens (k : Nat) : aMGT_SENS k ∉ aHBM_STAT :: logRegs :=
  List.not_mem_cons_of_ne_of_not_mem (by unfold aMGT_SENS aHBM_STAT; omega) (not_mem_logRegs_of_ge (by unfold aMGT_SENS aMGT_LOGOLD; omega))

theorem not_mem_hbmStat_of_rpwr (k : Nat) : aMGT_RPWR k ∉ aHBM_STAT :: logRegs :=
  List.not_mem_cons_of_ne_of_not_mem (by unfold aMGT_RPWR aHBM_STAT; omega) (not_mem_logRegs_of_ge (by unfold aMGT_RPWR aMGT_LOGOLD; omega))

theorem not_mem_hbmStat_of_warn (k : Nat) : aMGT_WARN k ∉ aHBM_STAT :: logRegs :=
  List.not_mem_cons_of_ne_of_not_mem (by unfold aMGT_WARN aHBM_STAT; omega) (not_mem_logRegs_of_ge (by unfold aMGT_WARN aMGT_LOGOLD; omega))

theorem not_mem_hbmStat_of_warnlat (k : Nat) : aMGT_WARNLAT k ∉ aHBM_STAT :: logRegs :=
  List.not_mem_cons_of_ne_of_not_mem (by unfold aMGT_WARNLAT aHBM_STAT; omega) (not_mem_logRegs_of_lt (by unfold aMGT_WARNLAT aMGT_LOGNEXT; omega))

theorem AfterWarnings.warned (h : AfterWarnings s t) (k : Nat) : t.warned k = s.warned k := by
  unfold State.warned
  rw [h.regs _ (not_mem_hbmStat_of_warnlat _)]

theorem AfterWarnings.beyond (h : AfterWarnings s t) (k : Nat) : t.sensorBeyond k = s.sensorBeyond k :=
  State.sensorBeyond_congr (h.regs _ (not_mem_hbmStat_of_sens k)) (h.regs _ (not_mem_hbmStat_of_warn k))

theorem SamplesStored.warned (h : SamplesStored v w s t) (k : Nat) : t.warned k = s.warned k := by
  unfold State.warned
  rw [h.others]
  rintro (⟨i, -, hi⟩ | ⟨i, -, hi⟩)
  · unfold aMGT_WARNLAT aMGT_SENS at hi; omega
  · unfold aMGT_WARNLAT aMGT_RPWR at hi; omega

theorem State.sensed_shows (s : State) : Sampled v w s (s.sensed v w) := by
  obtain ⟨⟨x, hstored, hwarnregs, hwarnclock, hwarned⟩, hrises, hclears⟩ := s.sampleJudged_shows (v := v) (w := w)
  have hkept := (s.sampleJudged v w).sampleKept_afterWarnings (v := v)
  have hflush := ((s.sampleJudged v w).sampleKept v).flushShed_afterWarnings
  have hall := State.sensed_does (s := s) (v := v) (w := w)
  rw [State.sensed_eq] at hall ⊢
  generalize s.sampleJudged v w = j at *
  generalize j.sampleKept v = k at *
  have hrest := hkept.trans hflush
  generalize k.flushShed = f at *
  obtain ⟨hup, hcool⟩ := hstored.clock
  refine ⟨fun i => ?_, fun r => ?_, fun i => ?_, fun q i => ?_, fun hhot hnone => ?_, fun hlow => ?_, ?_, ?_, fun a ha hne => ?_⟩
  · exact (hrest.regs _ (not_mem_hbmStat_of_sens _)).trans ((hwarnregs _ (sensor_ne_log _)).trans (hstored.sensors i))
  · exact (hrest.regs _ (not_mem_hbmStat_of_rpwr _)).trans ((hwarnregs _ (not_mem_warnRegs (by
      unfold aMGT_RPWR aMGT_LOGOLD; omega))).trans (hstored.powers r))
  · have hj := hwarned i.val i.isLt
    rw [hstored.warned, ← hwarnregs.sensorBeyond, ← hrest.beyond, ← hrest.warned] at hj
    exact hj
  · have hext : f.mgt.extremes = x.mgt.extremes := hrest.clock.extremes.trans hwarnclock.extremes
    have hget : Tab.get (fun _ => none) f.mgt.extremes (q.val * 64 + i.val) = _ := hext ▸ hstored.extremes q i
    exact congrArg (Option.getD · _) hget
  · obtain ⟨hraise, hstands⟩ := hrises hhot hnone
    exact ⟨hrest.agenda hraise, hrest.causes.stands.trans hstands⟩
  · exact (hrest.causes.at 0).trans (hclears hlow)
  · exact congrArg (· + 1) (hkept.clock.uptime.trans (hwarnclock.uptime.trans hup))
  · change (if _ then k.mgt.coolFor + 1 else 0) = _
    rw [hkept.clock.coolFor, hwarnclock.coolFor, hcool]
  · by_cases h12 : a / 0x100000 = 12
    · refine (hrest.regs a ?_).trans ((hwarnregs a ?_).trans (hstored.others a ?_))
      · refine List.not_mem_cons_of_ne_of_not_mem (hne) (not_mem_logRegs_of_lt (by unfold aMGT_LOGNEXT; omega))
      · simp only [warnRegs, List.mem_cons, not_mem_logRegs_of_lt (show a < aMGT_LOGNEXT by unfold aMGT_LOGNEXT; omega), aMGT_WARNLAT, or_false]
        omega
      · rintro (⟨i, -, hi⟩ | ⟨i, -, hi⟩)
        · unfold aMGT_SENS at hi; omega
        · unfold aMGT_RPWR at hi; omega
    · exact hall.regs (by decide) a (by simp only [List.mem_cons, List.not_mem_nil, or_false, regBlk]; omega)

end Sys2Proof.Machine
end

section
/-! The thermal trip and the load window (O44; R490, R499). -/
namespace Sys2Proof.Machine

variable {s t u : State} {v : Vector Word 34} {w : Vector Word 12} {load : BitVec 8}

/-! ## The thermal trip -/

theorem chCtl_ne (n c : Nat) : aCH_CTL n c ≠ aGLB_RSTCAUSE ∧ aCH_CTL n c ≠ aTBS_STATE ∧ aCH_CTL n c ≠ 0x10 := by
  unfold aCH_CTL aGLB_RSTCAUSE aTBS_STATE; omega

theorem dieKeeps_chCtl (n c : Nat) : dieKeeps (aCH_CTL n c) = false := by
  have hblk : aCH_CTL n c / 0x100000 = 64 + n % 64 := by unfold aCH_CTL; omega
  have h16 : 64 + n % 64 ≠ 16 ∧ 64 + n % 64 ≠ 18 := by omega
  unfold dieKeeps
  rw [hblk, beq_eq_false_iff_ne.mpr h16.1, beq_eq_false_iff_ne.mpr h16.2]
  rfl

theorem DieHeld.drvEn {cause : Nat} (h : DieHeld cause s t) (ch : Chan) : t.drvEn ch.val = false := by
  obtain ⟨hcause, htbs, hpart⟩ := chCtl_ne (islOf ch.val) (locOf ch.val)
  have hoff := State.reset_drvEn ch
  unfold State.drvEn at hoff ⊢
  refine (State.bit_congr _ ?_).trans hoff
  rw [h.reset _ (dieKeeps_chCtl _ _) hcause htbs, State.reset_reg_of_ne hpart]

/-- What a thermal trip leaves. -/
theorem State.thermalTrip_shows (s : State) (point : Nat) (x : Int) : let t := s.thermalTrip point x
    rcThermal ∈ t.power.holding ∧ t.bit aMGT_LAT fMGT_LAT_THERM = true ∧ (∀ ch : Chan, t.drvEn ch.val = false) ∧
      (∀ k, t.reg (aMGT_SENS k) = s.reg (aMGT_SENS k)) ∧ (∀ d ∈ t.agenda, d.activates = true) ∧
      t.hbmMem = s.hbmFlush.hbmMem ∧ t.spill = s.spill := by
  have hheld := s.engineDieReset_held (cause := rcThermal) (by decide)
  have hspill := (s.engineDieReset_stores rcThermal).spill
  generalize hd : s.engineDieReset rcThermal = d at hheld hspill
  have hdef : s.thermalTrip point x = (d.latch aMGT_LAT fMGT_LAT_THERM).log 0x0C point (leInt 4 x) := by rw [← hd]; rfl
  have hlog := (d.latch aMGT_LAT fMGT_LAT_THERM).log_keepsRegs 0x0C point (leInt 4 x)
  have hdoes : Does [.fresh, .mgt] [16] d ((d.latch aMGT_LAT fMGT_LAT_THERM).log 0x0C point (leInt 4 x)) :=
    State.log_does.call (by decide) (Does.latch adr_MGT_LAT (by decide) Does.refl)
  rw [hdef]
  refine ⟨?_, (State.bit_congr _ (hlog _ (by decide))).trans (State.bit_latch_self _ _ _ rfl (by decide)), fun ch => ?_, fun k => ?_,
    fun e he => hheld.agenda e ?_, ?_, ?_⟩
  · rw [hdoes.same .power (by decide) (by decide)]; exact hheld.holds
  · refine (State.bit_congr _ (hdoes.regs (by decide) _ ?_)).trans (hheld.drvEn ch)
    unfold regBlk aCH_CTL; simp only [List.mem_singleton]; omega
  · refine (hlog _ (not_mem_logRegs_of_ge (by unfold aMGT_SENS aMGT_LOGOLD; omega))).trans ?_
    refine (State.reg_latch_ne d _ (by unfold aMGT_SENS aMGT_LAT; omega)).trans ?_
    exact hheld.kept _ (by unfold aMGT_SENS; omega) (.inr (by unfold aMGT_SENS aMGT_LOGOLD; omega))
  · rw [← hdoes.same .agenda (by decide) (by decide)]; exact he
  · rw [hdoes.same .hbmMem (by decide) (by decide)]; exact hheld.hbm
  · rw [hdoes.same .spill (by decide) (by decide)]; exact hspill

/-! ## The load window -/

/-- The shedding level after a window of the load (R499). -/
def shedLevel (load : BitVec 8) (lvl : Nat) : Nat :=
  if 90 < load.toNat then min 3 (lvl + 1) else if load.toNat ≤ 75 then lvl - 1 else lvl

/-- A new window, and what it shows. -/
def State.loadShown (load : BitVec 8) (s : State) : State :=
  ({ s with mgt := { s.mgt with windowAt := s.mgt.uptime } }.setFld aMGT_STAT fMGT_STAT_LOAD load.toNat).setFld aMGT_STAT fMGT_STAT_SHED
    (shedLevel load (s.fld aMGT_STAT fMGT_STAT_SHED))

/-- Shedding begun is latched. -/
def State.shedLatched (was now : Nat) (s : State) : State :=
  if was = 0 ∧ now ≠ 0 then s.latch aMGT_LAT fMGT_LAT_SHED else s

/-- A change of level is logged. -/
def State.shedLogged (was now load : Nat) (s : State) : State :=
  if was ≠ now then s.log 0x09 now (leBytes 1 load) else s

/-- A window of the load before its fault is judged. -/
def State.loadJudged (load : BitVec 8) (s : State) : State :=
  let lvl := s.fld aMGT_STAT fMGT_STAT_SHED
  ((s.loadShown load).shedLatched lvl (shedLevel load lvl)).shedLogged lvl (shedLevel load lvl) load.toNat

theorem exec_loadWindow_eq (h : ¬ s.mgt.uptime < s.mgt.windowAt + 100) : exec (.loadWindow load) s =
    .next ((s.loadJudged load).condition 118 islManagement (decide (90 < load.toNat)) (decide (load.toNat ≤ 90))) :=
  (if_neg h).trans rfl

theorem shedLevel_le (lvl : Nat) (h : lvl ≤ 3) : shedLevel load lvl ≤ 3 := by
  unfold shedLevel
  split
  · exact Nat.min_le_left _ _
  · split <;> omega

theorem State.shedLatched_does {was now : Nat} : Does [.fresh] [16] s (s.shedLatched was now) :=
  Does.ite (fun _ => Does.latch adr_MGT_LAT (by decide) Does.refl) (fun _ => Does.refl)

theorem State.shedLogged_does {was now load : Nat} : Does [.fresh, .mgt] [16] s (s.shedLogged was now load) :=
  Does.ite (fun _ => State.log_does.call (by decide) Does.refl) (fun _ => Does.refl)

theorem State.loadShown_does : Does [.mgt] [16] s (s.loadShown load) :=
  Does.setFld adr_MGT_STAT (by decide) (Does.setFld adr_MGT_STAT (by decide) (Does.put_mgt (by decide) Does.refl))

theorem State.loadJudged_does : Does [.fresh, .mgt] [16] s (s.loadJudged load) :=
  State.shedLogged_does.call (by decide) (State.shedLatched_does.call (by decide) (State.loadShown_does.call (by decide) Does.refl))

theorem State.shedLatched_keepsRegs (was now : Nat) (s : State) : KeepsRegs [aMGT_LAT] s (s.shedLatched was now) := by
  unfold State.shedLatched
  exact iteInduction (motive := KeepsRegs [aMGT_LAT] s) (fun _ => (KeepsRegs.refl _ s).latch (by decide) _) (fun _ => .refl _ s)

theorem State.shedLogged_keepsRegs (was now load : Nat) (s : State) : KeepsRegs logRegs s (s.shedLogged was now load) := by
  unfold State.shedLogged
  exact iteInduction (motive := KeepsRegs logRegs s) (fun _ => s.log_keepsRegs _ _ _) (fun _ => .refl _ s)

theorem State.shedLogged_sameClock (was now load : Nat) (s : State) : (s.shedLogged was now load).mgt.windowAt = s.mgt.windowAt := by
  unfold State.shedLogged
  exact iteInduction (motive := fun t : State => t.mgt.windowAt = s.mgt.windowAt) (fun _ => by rw [s.log_mgt]) (fun _ => rfl)

/-- What a window of the load leaves before its fault is judged. -/
theorem State.loadJudged_shows (s : State) : let t := s.loadJudged load
    t.fld aMGT_STAT fMGT_STAT_LOAD = load.toNat ∧
      t.fld aMGT_STAT fMGT_STAT_SHED = shedLevel load (s.fld aMGT_STAT fMGT_STAT_SHED) ∧
      (90 < load.toNat → s.fld aMGT_STAT fMGT_STAT_SHED = 0 → t.bit aMGT_LAT fMGT_LAT_SHED = true) ∧
      t.mgt.windowAt = s.mgt.uptime ∧ KeepsRegs (aMGT_STAT :: aMGT_LAT :: logRegs) s t := by
  have hlvl : s.fld aMGT_STAT fMGT_STAT_SHED ≤ 3 := Nat.le_of_lt_succ (Nat.mod_lt _ (by decide))
  have hload : load.toNat < 256 := load.isLt
  have hshown : KeepsRegs [aMGT_STAT] s (s.loadShown load) :=
    (KeepsRegs.setFld (.of_regs (t := { s with mgt := { s.mgt with windowAt := s.mgt.uptime } }) rfl _) (by simp) _ _).setFld (by simp) _ _
  have hshownLoad : (s.loadShown load).fld aMGT_STAT fMGT_STAT_LOAD = load.toNat :=
    (State.fld_setFld_beside _ _ _ _ _ (by decide) (by decide) (by decide)).trans
      ((State.fld_setFld_self _ _ _ _ (by decide) (by decide)).trans (Nat.mod_eq_of_lt hload))
  have hshownLvl : (s.loadShown load).fld aMGT_STAT fMGT_STAT_SHED = shedLevel load (s.fld aMGT_STAT fMGT_STAT_SHED) :=
    (State.fld_setFld_self _ _ _ _ (by decide) (by decide)).trans
      (Nat.mod_eq_of_lt (Nat.lt_succ_of_le (shedLevel_le _ hlvl)))
  have hmgt : (s.loadShown load).mgt = { s.mgt with windowAt := s.mgt.uptime } := rfl
  have hjudged : s.loadJudged load = ((s.loadShown load).shedLatched (s.fld aMGT_STAT fMGT_STAT_SHED)
    (shedLevel load (s.fld aMGT_STAT fMGT_STAT_SHED))).shedLogged (s.fld aMGT_STAT fMGT_STAT_SHED)
    (shedLevel load (s.fld aMGT_STAT fMGT_STAT_SHED)) load.toNat := rfl
  rw [hjudged]
  clear hjudged
  generalize s.fld aMGT_STAT fMGT_STAT_SHED = lvl at *
  generalize s.loadShown load = a at *
  have hlatched := a.shedLatched_keepsRegs lvl (shedLevel load lvl)
  have hlatchmgt : (a.shedLatched lvl (shedLevel load lvl)).mgt = a.mgt := State.shedLatched_does.same .mgt (by decide) (by decide)
  have hlatch : 90 < load.toNat → lvl = 0 → (a.shedLatched lvl (shedLevel load lvl)).bit aMGT_LAT fMGT_LAT_SHED = true := by
    intro hbig hzero
    unfold State.shedLatched
    rw [if_pos ⟨hzero, by unfold shedLevel; rw [if_pos hbig]; omega⟩]
    exact State.bit_latch_self _ _ _ rfl (by decide)
  generalize a.shedLatched lvl (shedLevel load lvl) = b at *
  have hlogged := b.shedLogged_keepsRegs lvl (shedLevel load lvl) load.toNat
  refine ⟨?_, ?_, fun hbig hzero => (State.bit_congr _ (hlogged _ (by decide))).trans (hlatch hbig hzero), ?_, ?_⟩
  · exact (State.fld_congr _ ((hlogged _ (by decide)).trans (hlatched _ (by decide)))).trans hshownLoad
  · exact (State.fld_congr _ ((hlogged _ (by decide)).trans (hlatched _ (by decide)))).trans hshownLvl
  · rw [State.shedLogged_sameClock, hlatchmgt, hmgt]
  · exact ((hshown.mono (by simp)).trans (hlatched.mono (by simp))).trans (hlogged.mono (fun _ h => List.mem_cons_of_mem _ (List.mem_cons_of_mem _ h)))

end Sys2Proof.Machine
end

section
/-! Sensors, shedding and the watchdog: the statement (O44; R488 to R491, R499, R500). -/
namespace Sys2Proof.Machine

variable {s : State}

/-- The one request in hand, answered with BUSY. -/
theorem watchdogExpiry_answers {x : Slot} (h0 : s.slots 0 = [x]) (h1 : s.slots 1 = []) (hx : x.reply = none) (hs : Sends 0 3 s) :
    s.allBusy.out = s.out ++ [.mgt 0 x.cmd 0x80 x.req msBusy []] := by
  have hframes : s.busyFrames 0 = [.mgt 0 x.cmd 0x80 x.req msBusy []] := by
    rw [s.busyFrames_eq, show (0 : Port).val = 0 from rfl, h0]
    exact List.filterMap_cons_some (a := x) (l := []) (if_pos (by rw [hx]; rfl))
  have hnone : s.busyFrames 1 = [] := by rw [s.busyFrames_eq, show (1 : Port).val = 1 from rfl, h1]; rfl
  obtain ⟨hout, -⟩ := SendsAll.busyAll (p := 0) (s := s) (by rw [hframes]; exact .of_sends hs)
  have hmgt : (s.busyAll 0).mgt = s.mgt := State.busyAll_does.same .mgt (by decide) (by decide)
  have hone : ((s.busyAll 0).busyFrames 1) = [] := (State.busyFrames_congr hmgt 1).trans hnone
  have hlast : s.allBusy.out = (s.busyAll 0).out := by
    have hslots : (s.busyAll 0).slots 1 = [] := (State.slots_congr hmgt 1).trans h1
    unfold State.allBusy State.busyAll at *
    rw [show (1 : Port).val = 1 from rfl, hslots]
    rfl
  rw [hlast, hout, hframes]

/-- Settles O44: a sample is `State.sensed_shows`, a thermal trip `State.thermalTrip_shows` after it, a window of the load
`State.loadJudged_shows` and the rule of a condition, and a watchdog expiry `watchdogExpiry_shows`. -/
theorem sensorsAndLoad : Obligations.SensorsAndLoad := by
  unfold Obligations.SensorsAndLoad
  intro v w load x s lvl h lvl' ext
  refine ⟨fun hdue hcool => ?sample, fun hdue hhot hnot => ?trip, fun hdue => ⟨s, if_pos (by rw [hdue]; rfl), rfl⟩,
    fun hwindow => ?window, fun hwindow => ⟨s, if_pos hwindow, rfl⟩, ⟨_, exec_watchdogExpiry_eq, ?watchdog⟩⟩
  case sample =>
    have hshown := s.sensed_shows (v := v) (w := w)
    have hdoes := State.sensed_does (s := s) (v := v) (w := w)
    refine ⟨s.sensed v w, (exec_sensorSample_eq hdue).trans (congrArg _ (if_neg ?_)), hshown.sensors, hshown.powers, hshown.warnings,
      hshown.extremes, hshown.rises, hshown.clears, hshown.uptime, hshown.coolFor, hshown.others,
      hdoes.same .power (by decide) (by decide), hdoes.same .out (by decide) (by decide), .of_does hdoes (by decide)⟩
    rintro ⟨hhot, hnot⟩
    obtain hle | hin := hcool
    · exact absurd hhot (not_lt.mpr hle)
    · rw [List.contains_iff_mem.mpr hin] at hnot
      exact Bool.false_ne_true hnot
  case trip =>
    have hshown := s.sensed_shows (v := v) (w := w)
    have hdoes := State.sensed_does (s := s) (v := v) (w := w)
    have hcond : 1120 < (hottest v.toList).2 ∧ (!(s.power.holding.contains rcThermal)) = true :=
      ⟨hhot, by simpa using hnot⟩
    refine ⟨_, (exec_sensorSample_eq hdue).trans (congrArg _ (if_pos hcond)), ?_⟩
    obtain ⟨hholds, hlat, hdrv, hsens, hheld, hhbm, hspill⟩ :=
      (s.sensed v w).thermalTrip_shows (hottest v.toList).1 (hottest v.toList).2
    exact ⟨hholds, hlat, hdrv, fun k => (hsens k.val).trans (hshown.sensors k), hheld,
      hhbm.trans (State.hbmFlush_congr (hdoes.same .hbm (by decide) (by decide)) (hdoes.same .hbmMem (by decide) (by decide))),
      hspill.trans (hdoes.same .spill (by decide) (by decide))⟩
  case window =>
    obtain ⟨hload, hlvl, hlat, hat, hregs⟩ := s.loadJudged_shows (load := load)
    have hjudged := State.loadJudged_does (s := s) (load := load)
    have hcauses : (s.loadJudged load).causes = s.causes := hjudged.same .causes (by decide) (by decide)
    have hagenda : (s.loadJudged load).agenda = s.agenda := hjudged.same .agenda (by decide) (by decide)
    have hcount : (s.loadJudged load).count = s.count := hjudged.same .count (by decide) (by decide)
    refine ⟨_, exec_loadWindow_eq (not_lt.mpr hwindow), ?_⟩
    generalize s.loadJudged load = j at *
    have hcond : Does [.agenda, .causes] [] j (j.condition 118 islManagement (decide (90 < load.toNat)) (decide (load.toNat ≤ 90))) :=
      State.condition_does
    have hsame := hcond.regs (by decide)
    refine ⟨(State.fld_congr _ (hsame _ (by simp))).trans hload, (State.fld_congr _ (hsame _ (by simp))).trans hlvl,
      fun hbig hzero => (State.bit_congr _ (hsame _ (by simp))).trans (hlat hbig hzero), fun hbig hnone => ?_, fun hsmall => ?_, ?_,
      hregs.trans (.of_does hcond (by decide) _), (KeepsMemory.of_does hjudged (by decide)).trans (.of_does hcond (by decide))⟩
    · rw [decide_eq_true hbig]
      obtain ⟨hraise, hstands⟩ := State.condition_raises (s := j) (fs := 118) (isl := islManagement)
        (clear := decide (load.toNat ≤ 90)) (by unfold State.causeStands at hnone ⊢; rw [hcauses]; exact hnone)
      exact ⟨by unfold Raises at hraise ⊢; rwa [hcount] at hraise, hstands⟩
    · rw [decide_eq_false (not_lt.mpr hsmall), decide_eq_true hsmall]
      obtain ⟨hclear, hkept⟩ := State.condition_clears (s := j) (fs := 118) (isl := islManagement)
      exact ⟨hclear, hkept.trans hagenda⟩
    · rw [hcond.same .mgt (by decide) (by decide)]; exact hat
  case watchdog =>
    obtain ⟨hslots0, hslots1, hrun, hlat, hwdog, hupd, hheld, hout, hraise, hregs, hmem⟩ := watchdogExpiry_shows s
    exact ⟨hslots0, hslots1, hrun, hlat, hwdog, hupd, hheld,
      fun h0 h1 hx hs => hout.trans (watchdogExpiry_answers h0 h1 hx hs), hraise, hregs, hmem⟩

end Sys2Proof.Machine
end

section
/-! The power-on-equivalent clearing of the module (R353, R497, R506): what it keeps and what it shows. -/
namespace Sys2Proof.Machine

variable {s t : State} {cause a : Nat}

/-! ## The sessions that a reset ends -/

/-- What the end of a session leaves of the mailbox's and the security island's own state. -/
structure OnlySessions (s t : State) : Prop where
  mgt : t.mgt = { s.mgt with log := t.mgt.log }
  sec : t.sec = { s.sec with keys := t.sec.keys, requests := t.sec.requests }

theorem State.endSession_onlySessions (s : State) (p cause : Nat) : OnlySessions s (s.endSession p cause) := by
  unfold State.endSession
  split
  · exact ⟨by rw [State.log_mgt]; rfl, by rw [State.log_sec]; rfl⟩
  · exact ⟨rfl, rfl⟩

theorem State.sessionsEnded_onlySessions (s : State) : OnlySessions s s.sessionsEnded := by
  have h0 := s.endSession_onlySessions 0 0x13
  have h1 := (s.endSession 0 0x13).endSession_onlySessions 1 0x13
  refine ⟨h1.mgt.trans (by rw [h0.mgt]; rfl), h1.sec.trans (by rw [h0.sec]; rfl)⟩

/-! ## Registers that a clearing leaves -/

theorem Tab.get_filter {α : Type} (d : Nat → α) (f : Nat → Bool) (l : Tab α) (a : Nat) :
    Tab.get d (l.filter (fun p => f p.1)) a = if f a then Tab.get d l a else d a := by
  induction l with
  | nil => exact (ite_self _).symm
  | cons p l ih =>
    rw [List.filter_cons]
    by_cases hp : f p.1 = true
    · rw [if_pos hp, Tab.get, Tab.get, ih]
      by_cases h : a = p.1
      · rw [if_pos h, if_pos h, h, if_pos hp]
      · rw [if_neg h, if_neg h]
    · rw [if_neg hp, ih, Tab.get]
      by_cases h : a = p.1
      · rw [h, if_neg hp, if_neg hp]
      · rw [if_neg h]

/-- The module bare: registers at their reset values, what flash holds, and what stays in the world outside (R506). -/
def State.powerBare (s : State) (cause : Nat) : State :=
  let s2 := s.sessionsEnded.dieCleared
  { s2 with
    regs := s2.regs.filter (fun p => powerKeeps p.1)
    hbmMem := if cause = rcPower then [] else s2.hbmMem
    causes := if cause = rcPower then [(11, 0)] else s2.causes.filter (fun c => c.1 == 11)
    sec := { s2.sec with failRun := [0, 0], refusedAt := [0, 0], patchVersions := [0, 0] }
    agenda := []
    mgt := {
      log := s2.mgt.log, boots := s2.mgt.boots, archive := s2.mgt.archive, fwA := s2.mgt.fwA, fwB := s2.mgt.fwB
      custPatches := s2.mgt.custPatches, previous := s2.mgt.previous, means := s2.mgt.means, minutes := s2.mgt.minutes }
    power := { holding := [cause], safeN := s2.power.safeN, oven := cause != rcPower && s2.power.oven } }

/-- The boot control record and the epoch fuses in their registers. -/
def State.powerFused (s : State) (cause : Nat) : State :=
  ((s.powerBare cause).setReg aMGT_FW (s.sessionsEnded.reg aMGT_FW &&& 0xF#32)).setReg aSEC_HSSE (s.sessionsEnded.reg aSEC_HSSE)

theorem State.powerCleared_eq (s : State) (cause : Nat) : s.powerCleared cause =
    ((((s.powerFused cause).showOven.setFwSlot 0 (s.powerBare cause).mgt.fwA).setFwSlot 1 (s.powerBare cause).mgt.fwB).setReg
      aGLB_RSTCAUSE (fldWord fGLB_RSTCAUSE_CAUSE cause)) := rfl

theorem State.powerBare_reg (h : powerKeeps a = false) : (s.powerBare cause).reg a = regReset a :=
  (Tab.get_filter regReset powerKeeps s.sessionsEnded.dieCleared.regs a).trans (if_neg (by rw [h]; decide))

/-- The registers that a clearing writes. -/
def clearedRegs : List Nat := [aMGT_FW, aSEC_HSSE, aTBS_STATE, aMGT_FWVER 0, aMGT_FWVER 1, aGLB_RSTCAUSE]

theorem State.setFwSlot_keepsRegs (s : State) (b : Nat) (x : FwSlot) : KeepsRegs [aMGT_FWVER b] s (s.setFwSlot b x) := by
  have hset := (KeepsRegs.refl [aMGT_FWVER b] s).setReg (a := aMGT_FWVER b) (by simp) (if x.valid then x.version else 0)
  exact iteInduction (motive := KeepsRegs [aMGT_FWVER b] s) (fun _ => hset) (fun _ => hset)

theorem State.setFwSlot_mgt (s : State) (b : Nat) (x : FwSlot) :
    (s.setFwSlot b x).mgt = if b = 0 then { s.mgt with fwA := x } else { s.mgt with fwB := x } := by
  by_cases hb : b = 0
  · rw [if_pos hb]; exact congrArg State.mgt (if_pos hb)
  · rw [if_neg hb]; exact congrArg State.mgt (if_neg hb)

theorem State.powerCleared_keepsRegs (s : State) (cause : Nat) : KeepsRegs clearedRegs (s.powerBare cause) (s.powerCleared cause) := by
  have hfused : KeepsRegs clearedRegs (s.powerBare cause) (s.powerFused cause) :=
    ((KeepsRegs.refl clearedRegs _).setReg (a := aMGT_FW) (by decide) _).setReg (a := aSEC_HSSE) (by decide) _
  rw [State.powerCleared_eq]
  exact (((hfused.setBit (a := aTBS_STATE) (by decide) _ _).trans ((State.setFwSlot_keepsRegs _ 0 _).mono (by decide))).trans
    ((State.setFwSlot_keepsRegs _ 1 _).mono (by decide))).setReg (a := aGLB_RSTCAUSE) (by decide) _

theorem State.powerCleared_reg (h : powerKeeps a = false) (hne : a ∉ clearedRegs) : (s.powerCleared cause).reg a = regReset a :=
  (s.powerCleared_keepsRegs cause a hne).trans (State.powerBare_reg h)

theorem State.powerCleared_rstcause : (s.powerCleared cause).reg aGLB_RSTCAUSE = fldWord fGLB_RSTCAUSE_CAUSE cause := by
  rw [State.powerCleared_eq]
  exact State.reg_setReg_self _ _ _

theorem State.powerCleared_fw : (s.powerCleared cause).reg aMGT_FW = s.reg aMGT_FW &&& 0xF#32 := by
  have hfused : (s.powerFused cause).reg aMGT_FW = s.sessionsEnded.reg aMGT_FW &&& 0xF#32 :=
    (State.reg_setReg_ne _ _ (by decide)).trans (State.reg_setReg_self _ _ _)
  rw [State.powerCleared_eq, State.reg_setReg_ne _ _ (by decide), State.setFwSlot_keepsRegs _ 1 _ _ (by decide),
    State.setFwSlot_keepsRegs _ 0 _ _ (by decide), ← State.sessionsEnded_reg (s := s) (a := aMGT_FW) (by decide) (by decide), ← hfused]
  exact State.reg_setReg_ne (s.powerFused cause) _ (by decide)

/-- A field of the boot control record reads as before. -/
theorem State.powerCleared_fwFld {f : Fld} (hle : f.lo ≤ f.hi) (hlow : f.hi < 4) : (s.powerCleared cause).fld aMGT_FW f = s.fld aMGT_FW f := by
  unfold State.fld
  rw [State.powerCleared_fw]
  refine Nat.eq_of_testBit_eq (fun i => ?_)
  rw [getF_testBit, getF_testBit, BitVec.getLsbD_and]
  by_cases hi : i < f.width
  · have hbit : (0xF#32).getLsbD (f.lo + i) = true := by
      have hw : f.width = f.hi + 1 - f.lo := rfl
      have : f.lo + i < 4 := by omega
      interval_cases f.lo + i <;> rfl
    rw [hbit, Bool.and_true]
  · simp [hi]

/-! ## What else a clearing leaves -/

/-- What a clearing keeps and clears besides the registers. -/
structure PowerCleared (cause : Nat) (s t : State) : Prop where
  agenda : t.agenda = []
  count : t.count = 0
  holding : t.power.holding = [cause]
  cold : cause = rcPower → t.power.oven = false
  hbm : t.hbmMem = if cause = rcPower then [] else s.hbmFlush.hbmMem
  spill : t.spill = s.spill
  boots : t.mgt.boots = s.mgt.boots
  previous : t.mgt.previous = s.mgt.previous
  fwA : t.mgt.fwA = s.mgt.fwA
  fwB : t.mgt.fwB = s.mgt.fwB
  floors : t.sec.floors = s.sec.floors
  zeroised : t.sec.zeroisedFuse = s.sec.zeroisedFuse
  causes : cause = rcPower → t.causes = [(11, 0)]

theorem State.powerFused_mgt : (s.powerFused cause).showOven.mgt = (s.powerBare cause).mgt := rfl

theorem State.powerCleared_mgt : (s.powerCleared cause).mgt = (s.powerBare cause).mgt := by
  rw [State.powerCleared_eq]
  change (((s.powerFused cause).showOven.setFwSlot 0 (s.powerBare cause).mgt.fwA).setFwSlot 1 (s.powerBare cause).mgt.fwB).mgt = _
  rw [State.setFwSlot_mgt, State.setFwSlot_mgt, State.powerFused_mgt]
  rfl

theorem State.powerCleared_does_bare : Does [.mgt] [0, 1, 16, 18] (s.powerBare cause) (s.powerCleared cause) := by
  rw [State.powerCleared_eq]
  have hfused : Does [.mgt] [0, 1, 16, 18] (s.powerBare cause) (s.powerFused cause) :=
    Does.setReg adr_SEC_HSSE (by decide) (Does.setReg adr_MGT_FW (by decide) Does.refl)
  exact Does.setReg adr_GLB_RSTCAUSE (by decide) (State.setFwSlot_does.call (by decide) (State.setFwSlot_does.call (by decide)
    (Does.setBit adr_TBS_STATE (by decide) hfused)))

theorem State.powerBare_hbm : (s.powerBare cause).hbmMem = if cause = rcPower then [] else s.hbmFlush.hbmMem := by
  have hflush : s.sessionsEnded.hbmFlush.hbmMem = s.hbmFlush.hbmMem :=
    State.hbmFlush_congr (State.sessionsEnded_does.same .hbm (by decide) (by decide))
      (State.sessionsEnded_does.same .hbmMem (by decide) (by decide))
  rw [← hflush]
  rfl

theorem State.powerBare_mgt : (s.powerBare cause).mgt.boots = s.mgt.boots ∧ (s.powerBare cause).mgt.previous = s.mgt.previous ∧
    (s.powerBare cause).mgt.fwA = s.mgt.fwA ∧ (s.powerBare cause).mgt.fwB = s.mgt.fwB := by
  have hmgt := s.sessionsEnded_onlySessions.mgt
  exact ⟨(congrArg Mgt.boots hmgt :), (congrArg Mgt.previous hmgt :), (congrArg Mgt.fwA hmgt :), (congrArg Mgt.fwB hmgt :)⟩

theorem State.powerBare_sec : (s.powerBare cause).sec.floors = s.sec.floors ∧
    (s.powerBare cause).sec.zeroisedFuse = s.sec.zeroisedFuse := by
  have hsec := s.sessionsEnded_onlySessions.sec
  exact ⟨(congrArg Sec.floors hsec :), (congrArg Sec.zeroisedFuse hsec :)⟩

theorem State.powerCleared_clears (s : State) (cause : Nat) : PowerCleared cause s (s.powerCleared cause) := by
  have hdoes := State.powerCleared_does_bare (s := s) (cause := cause)
  have hmgt := State.powerCleared_mgt (s := s) (cause := cause)
  obtain ⟨hboots, hprevious, hfwA, hfwB⟩ := State.powerBare_mgt (s := s) (cause := cause)
  obtain ⟨hfloors, hzeroised⟩ := State.powerBare_sec (s := s) (cause := cause)
  have hsec : (s.powerCleared cause).sec = (s.powerBare cause).sec := hdoes.same .sec (by decide) (by decide)
  have hpower : (s.powerCleared cause).power = (s.powerBare cause).power := hdoes.same .power (by decide) (by decide)
  exact {
    agenda := hdoes.same .agenda (by decide) (by decide)
    count := hdoes.same .count (by decide) (by decide)
    holding := by rw [hpower]; rfl
    cold := fun h => by rw [hpower, h]; rfl
    hbm := (hdoes.same .hbmMem (by decide) (by decide)).trans State.powerBare_hbm
    spill := State.powerCleared_does.same .spill (by decide) (by decide)
    boots := by rw [hmgt, hboots]
    previous := by rw [hmgt, hprevious]
    fwA := by rw [hmgt, hfwA]
    fwB := by rw [hmgt, hfwB]
    floors := by rw [hsec, hfloors]
    zeroised := by rw [hsec, hzeroised]
    causes := fun h => (hdoes.same .causes (by decide) (by decide)).trans (if_pos h) }

end Sys2Proof.Machine
end

section
/-! Firmware: requests of the mailbox on firmware, and what each leaves (O43; R467, R486, R487, R496 to R498). -/
namespace Sys2Proof.Machine

variable {s t u : State} {p : Port} {req cmd status : Byte}

/-! ## Slots -/

theorem State.fwSlot_setFwSlot (s : State) {b c : Nat} (hb : b < 2) (hc : c < 2) (x : FwSlot) :
    (s.setFwSlot b x).fwSlot c = if c = b then x else s.fwSlot c := by
  unfold State.fwSlot
  rw [State.setFwSlot_mgt]
  interval_cases b <;> interval_cases c <;> rfl

theorem State.setFwSlot_fwver (s : State) (b : Nat) (x : FwSlot) :
    (s.setFwSlot b x).reg (aMGT_FWVER b) = if x.valid then x.version else 0 := by
  have hset := State.reg_setReg_self s (aMGT_FWVER b) (if x.valid then x.version else 0)
  exact iteInduction (motive := fun t : State => t.reg (aMGT_FWVER b) = if x.valid then x.version else 0)
    (fun _ => hset) (fun _ => hset)

theorem State.setFwSlot_slots (s : State) (b : Nat) (x : FwSlot) (k : Nat) : (s.setFwSlot b x).slots k = s.slots k := by
  have hmgt := s.setFwSlot_mgt b x
  unfold State.slots
  by_cases hb : b = 0
  · rw [hmgt, if_pos hb]
  · rw [hmgt, if_neg hb]

/-! ## A request refused -/

/-- A request answered with a status and nothing else. -/
theorem Replied.refused (h : Replied p cmd req status [] s t) : t.out = s.out ++ [.mgt p cmd 0x80 req status []] ∧
    t.mgt = s.mgt ∧ t.agenda = s.agenda ∧ KeepsRegs [] s t ∧ KeepsMemory s t :=
  ⟨h.out.trans (by rw [mgtFrames_nil]), h.mgt, h.agenda, h.regs, h.memory⟩

/-- A request served without a change, answered with a status. -/
theorem State.serve_refused {engineer : Bool} (h : s.takesMail p) (hmay : s.mayMail p.val engineer = true) (hs : Sends p 3 s) :
    Replied p cmd req status [] s (s.serve p cmd req engineer status [] id) :=
  State.serve_replied (f := id) h hmay (.of_links rfl rfl) (by rw [length_mgtFrames_nil]; exact .of_sends hs)

theorem exec_update_role (offset : BitVec 45) (len : Word) (h : s.takesMail p) (hmay : s.mayMail p.val true = false) :
    exec (.update p req offset len) s = .next (s.mgtReply p 0x06 req msRole []) :=
  (if_neg h.guard).trans (if_pos (by rw [hmay]; rfl))

theorem exec_update_busy (offset : BitVec 45) (len : Word) (h : s.takesMail p) (hmay : s.mayMail p.val true = true)
    (hrun : s.mgt.running.isSome = true) : exec (.update p req offset len) s = .next (s.mgtReply p 0x06 req msBusy []) :=
  (if_neg h.guard).trans ((if_neg (by rw [hmay]; decide)).trans (if_pos hrun))

theorem exec_update_format (offset : BitVec 45) (len : Word) (h : s.takesMail p) (hmay : s.mayMail p.val true = true)
    (hrun : s.mgt.running = none) (hfit : ¬ (len.toNat ≤ 33554432 ∧ offset.toNat + len.toNat ≤ 0x600000000)) :
    exec (.update p req offset len) s = .next (s.mgtReply p 0x06 req msFormat []) :=
  (if_neg h.guard).trans ((if_neg (by rw [hmay]; decide)).trans ((if_neg (by rw [hrun]; decide)).trans (if_pos (by omega))))

theorem exec_activate_idle (due : Count) (hrun : s.mgt.running = none) : exec (.activate p req due) s =
    if !s.mayActivate then .next (s.serve p 0x07 req true msState [] id)
    else .next (s.serve p 0x07 req true msOk [] (fun s =>
      let s1 := { s with mgt := { s.mgt with running := some 0x07 } }
      if Count.upto due s.count then s1.activateNow
      else s1.hold (.island islManagement) due (.cmd (.activate p req due)))) :=
  (if_neg (by rw [hrun]; decide)).trans (if_neg (by rw [hrun]; decide))

theorem exec_activate_busy (due : Count) (hrun : s.mgt.running.isSome = true) (hne : s.mgt.running ≠ some 7) :
    exec (.activate p req due) s = .next (s.serve p 0x07 req true msBusy [] id) :=
  (if_neg hne).trans (if_pos hrun)

theorem exec_rollback_busy (hrun : s.mgt.running.isSome = true) :
    exec (.rollback p req) s = .next (s.serve p 0x09 req true msBusy [] id) := if_pos hrun

theorem exec_strcopy_busy (k : Byte) (offset : BitVec 45) (hrun : s.mgt.running.isSome = true) :
    exec (.strcopy p req k offset) s = .next (s.serve p 0x0A req true msBusy [] id) := if_pos hrun

/-- A rollback to a slot that is invalid or below the floor (R498). -/
def State.rollbackLow (s : State) : Bool :=
  decide ((s.fwSlot s.otherSlot).version.toNat < (s.reg (aSEC_FLOOR 0)).toNat) || !(s.fwSlot s.otherSlot).valid

/-- The other slot marked active, with its log entry. -/
def State.rolledBack (o : Nat) (s : State) : State :=
  (s.setFld aMGT_FW fMGT_FW_ACTIVE o).log 0x05 0x09 (updatePayload o (s.fwSlot o).version (s.fwSlot o).digest)

theorem exec_rollback_idle (hrun : s.mgt.running = none) : exec (.rollback p req) s =
    if s.rollbackLow then .next (s.serve p 0x09 req true msVerify [] id)
    else .next (s.serve p 0x09 req true msOk [] (State.rolledBack s.otherSlot)) := by
  exact if_neg (by rw [hrun]; decide)

/-- An archived stream in HBM. -/
def State.copied (offset : Nat) (bs : List Byte) (s : State) : State := { s with hbmMem := Memory.writeBytes s.hbmMem offset bs }

theorem exec_strcopy_none (k : Byte) (offset : BitVec 45) (hrun : s.mgt.running = none) (h : s.mgt.archive[k.toNat]? = none) :
    exec (.strcopy p req k offset) s = .next (s.serve p 0x0A req true msNotHeld [] id) := by
  refine (if_neg (by rw [hrun]; decide)).trans ?_
  rw [h]

theorem exec_strcopy_some (k : Byte) (offset : BitVec 45) {ws : List (BitVec 64)} (hrun : s.mgt.running = none)
    (h : s.mgt.archive[k.toNat]? = some ws) : exec (.strcopy p req k offset) s =
      if s.inKind 7 offset.toNat (wordsBytes ws).length then
        .next (s.serve p 0x0A req true msOk [] (State.copied offset.toNat (wordsBytes ws)))
      else .next (s.serve p 0x0A req true msFormat [] id) := by
  refine (if_neg (by rw [hrun]; decide)).trans ?_
  rw [h]
  rfl

/-- What CONFIRM does (R498). -/
def State.confirmed (s : State) : State :=
  let s1 := s.setBit aMGT_FW fMGT_FW_TRIAL false
  let v := s.reg aSEC_FWVER
  let s2 := if (s1.reg (aSEC_FLOOR 0)).toNat < v.toNat ∧ s1.sec.floorRaises.getD 0 0 < 255 then
      { s1.setReg (aSEC_FLOOR 0) v with sec := { s1.sec with
        floors := s1.sec.floors.set 0 v.toNat
        floorRaises := s1.sec.floorRaises.set 0 (s1.sec.floorRaises.getD 0 0 + 1) } }
    else s1
  s2.log 0x05 0x08 (updatePayload (s.fld aSEC_STAT fSEC_STAT_SLOT) v (s.fwSlot (s.fld aSEC_STAT fSEC_STAT_SLOT)).digest)

theorem exec_confirm_eq : exec (.confirm p req) s = .next (s.serve p 0x08 req true msOk [] State.confirmed) := rfl

/-- With no command under way each request on firmware but UPDATE is one that the mailbox serves. -/
theorem firmwareRequest_serves (due : Count) (k : Byte) (offset : BitVec 45) (hrun : s.mgt.running = none)
    {r : Instr × Byte} (hr : r ∈ [(Instr.activate p req due, (7 : Byte)), (.confirm p req, 8), (.rollback p req, 9), (.strcopy p req k offset, 10)]) :
    ∃ status f, exec r.1 s = .next (s.serve p r.2 req true status [] f) := by
  simp only [List.mem_cons, List.not_mem_nil, or_false] at hr
  rcases hr with rfl | rfl | rfl | rfl
  · have hexec := exec_activate_idle (p := p) (req := req) due hrun
    split at hexec
    · exact ⟨_, _, hexec⟩
    · exact ⟨_, _, hexec⟩
  · exact ⟨_, _, exec_confirm_eq⟩
  · have hexec := exec_rollback_idle (p := p) (req := req) hrun
    split at hexec
    · exact ⟨_, _, hexec⟩
    · exact ⟨_, _, hexec⟩
  · cases harch : s.mgt.archive[k.toNat]? with
    | none => exact ⟨_, _, exec_strcopy_none k offset hrun harch⟩
    | some ws =>
      have hexec := exec_strcopy_some (p := p) (req := req) k offset hrun harch
      split at hexec
      · exact ⟨_, _, hexec⟩
      · exact ⟨_, _, hexec⟩

end Sys2Proof.Machine
end

section
/-! What the requests on firmware leave (O43; R467, R496 to R498). -/
namespace Sys2Proof.Machine

variable {s t u : State} {p : Port} {req : Byte}

/-! ## UPDATE -/

/-- The slot for a good image, erased. -/
def State.slotErased (ok : Bool) (o : Nat) (s : State) : State := if ok then s.setFwSlot o { valid := false } else s

/-- The image taken for the update. -/
def State.imageTaken (image : List Byte) (ok : Bool) (s : State) : State :=
  { s with mgt := { s.mgt with running := some 0x06, image := image, checked := ok } }

/-- The state of an update that has begun. -/
def State.updateBegun (p : Port) (req : Byte) (image : List Byte) (s : State) : State :=
  (((s.servePending p 0x06 req).slotErased (s.imageOk image) s.otherSlot).imageTaken image (s.imageOk image)).setFld
    aMGT_FW fMGT_FW_UPD 1

theorem exec_update_begins (offset : BitVec 45) (len : Word) (h : s.takesMail p) (hmay : s.mayMail p.val true = true)
    (hrun : s.mgt.running = none) (hfit : len.toNat ≤ 33554432 ∧ offset.toNat + len.toNat ≤ 0x600000000) :
    exec (.update p req offset len) s = .next (s.updateBegun p req (Memory.readBytes s.hbmMem offset.toNat len.toNat)) :=
  (if_neg h.guard).trans ((if_neg (by rw [hmay]; decide)).trans ((if_neg (by rw [hrun]; decide)).trans (if_neg (by omega))))

/-- A request answered PENDING holds a slot. -/
theorem State.servePending_shows (cmd : Byte) (hs : Sends p 3 s) : let t := s.servePending p cmd req
    t.out = s.out ++ [.mgt p cmd 0x80 req msPending []] ∧ t.slots p.val = s.slots p.val ++ [{ cmd := cmd, req := req }] ∧
      t.mgt.fwA = s.mgt.fwA ∧ t.mgt.fwB = s.mgt.fwB ∧ KeepsRegs [aMGT_STAT] s t := by
  have hline := s.setSlots_sameLine p.val (s.slots p.val ++ [{ cmd := cmd, req := req }]) p
  have hown := s.setSlots_own p (s.slots p.val ++ [{ cmd := cmd, req := req }])
  have hkeeps := s.setSlots_keepsRegs p.val (s.slots p.val ++ [{ cmd := cmd, req := req }])
  have hout : (s.setSlots p.val (s.slots p.val ++ [{ cmd := cmd, req := req }])).out = s.out :=
    State.setSlots_does.same .out (by decide) (by decide)
  have hfw : (s.setSlots p.val (s.slots p.val ++ [{ cmd := cmd, req := req }])).mgt.fwA = s.mgt.fwA ∧
      (s.setSlots p.val (s.slots p.val ++ [{ cmd := cmd, req := req }])).mgt.fwB = s.mgt.fwB := by
    unfold State.setSlots
    split <;> exact ⟨rfl, rfl⟩
  unfold State.servePending
  generalize s.setSlots p.val (s.slots p.val ++ [{ cmd := cmd, req := req }]) = u at *
  have hreply := State.mgtReply_replied_nil (cmd := cmd) (req := req) (status := msPending) (hs.of_sameLine hline)
  obtain ⟨hsent, hmgt, -, hregs, -⟩ := hreply.refused
  exact ⟨by rw [hsent, hout], (State.slots_congr hmgt _).trans hown, by rw [hmgt, hfw.1], by rw [hmgt, hfw.2],
    hkeeps.trans (hregs.mono (by simp))⟩

theorem State.slotErased_does {ok : Bool} {o : Nat} : Does [.mgt] [16] s (s.slotErased ok o) :=
  Does.ite (fun _ => State.setFwSlot_does) (fun _ => Does.refl)

theorem State.slotErased_shows (s : State) (ok : Bool) {o c : Nat} (ho : o < 2) (hc : c < 2) (hne : c ≠ o) : let t := s.slotErased ok o
    (t.fwSlot o).valid = (if ok then false else (s.fwSlot o).valid) ∧ t.fwSlot c = s.fwSlot c ∧
      t.reg (aMGT_FWVER o) = (if ok then 0 else s.reg (aMGT_FWVER o)) ∧ (∀ k, t.slots k = s.slots k) ∧ KeepsRegs [aMGT_FWVER o] s t := by
  cases ok with
  | true =>
    refine ⟨congrArg FwSlot.valid ((s.fwSlot_setFwSlot ho ho _).trans (if_pos rfl)), (s.fwSlot_setFwSlot ho hc _).trans (if_neg hne), ?_,
      fun k => s.setFwSlot_slots o _ k, s.setFwSlot_keepsRegs o _⟩
    exact s.setFwSlot_fwver o _
  | false => exact ⟨rfl, rfl, rfl, fun _ => rfl, .refl _ s⟩

theorem State.updateBegun_shows (image : List Byte) (hs : Sends p 3 s) {slot : Nat} (hslot : slot < 2) (ho : s.otherSlot = 1 - slot) :
    let t := s.updateBegun p req image
    t.out = s.out ++ [.mgt p 6 0x80 req 7 []] ∧ t.mgt.running = some 6 ∧ t.mgt.image = image ∧ t.mgt.checked = s.imageOk image ∧
      t.slots p.val = s.slots p.val ++ [{ cmd := 6, req := req }] ∧ t.fld aMGT_FW fMGT_FW_UPD = 1 ∧ t.fwSlot slot = s.fwSlot slot ∧
      (t.fwSlot (1 - slot)).valid = (if s.imageOk image then false else (s.fwSlot (1 - slot)).valid) ∧
      t.reg (aMGT_FWVER (1 - slot)) = (if s.imageOk image then 0 else s.reg (aMGT_FWVER (1 - slot))) ∧
      KeepsRegs [aMGT_FW, aMGT_FWVER (1 - slot), aMGT_STAT] s t ∧ KeepsMemory s t := by
  obtain ⟨hout, hslots, hfwA, hfwB, hregs⟩ := State.servePending_shows (req := req) 6 hs
  have hserve : Does [.out, .links, .mgt] [16] s (s.servePending p 6 req) := State.servePending_does
  have hfw : ∀ b, (s.servePending p 6 req).fwSlot b = s.fwSlot b := fun b => by unfold State.fwSlot; rw [hfwA, hfwB]
  unfold State.updateBegun
  rw [ho]
  generalize s.servePending p 6 req = a at *
  obtain ⟨hvalid, hkept, hver, hslots', herased⟩ := a.slotErased_shows (s.imageOk image) (o := 1 - slot) (c := slot) (by omega) hslot (by omega)
  have hdoes : Does [.mgt] [16] a (a.slotErased (s.imageOk image) (1 - slot)) := State.slotErased_does
  generalize a.slotErased (s.imageOk image) (1 - slot) = b at *
  have hset : Does [.mgt] [16] b ((b.imageTaken image (s.imageOk image)).setFld aMGT_FW fMGT_FW_UPD 1) :=
    Does.setFld adr_MGT_FW (by decide) (Does.put_mgt (by decide) Does.refl)
  have hfwreg : KeepsRegs [aMGT_FW] b ((b.imageTaken image (s.imageOk image)).setFld aMGT_FW fMGT_FW_UPD 1) :=
    (KeepsRegs.of_regs (t := b.imageTaken image (s.imageOk image)) rfl _).setFld (by simp) _ _
  have hvermem : aMGT_FWVER (1 - slot) ∉ [aMGT_FW] := by
    simp only [List.mem_singleton, aMGT_FWVER, aMGT_FW]; omega
  have hverstat : aMGT_FWVER (1 - slot) ∉ [aMGT_STAT] := by
    simp only [List.mem_singleton, aMGT_FWVER, aMGT_STAT]; omega
  refine ⟨?_, rfl, rfl, rfl, (hslots' _).trans hslots, State.fld_setFld_self _ _ _ _ (by decide) (by decide), hkept.trans (hfw _), ?_, ?_,
    ((hregs.mono (by simp)).trans (herased.mono (by simp))).trans (hfwreg.mono (by simp)),
    ((KeepsMemory.of_does hserve (by decide)).trans (.of_does hdoes (by decide))).trans (.of_does hset (by decide))⟩
  · exact (hdoes.same .out (by decide) (by decide)).trans hout
  · exact hvalid.trans (by rw [hfw])
  · exact (hfwreg _ hvermem).trans (hver.trans (by rw [hregs _ hverstat]))

/-! ## CONFIRM -/

/-- The firmware floor raised to the running VERSION, where it is below it and raises are left. -/
def State.floorRaised (v : Word) (s : State) : State :=
  if (s.reg (aSEC_FLOOR 0)).toNat < v.toNat ∧ s.sec.floorRaises.getD 0 0 < 255 then
    { s.setReg (aSEC_FLOOR 0) v with sec := { s.sec with
      floors := s.sec.floors.set 0 v.toNat
      floorRaises := s.sec.floorRaises.set 0 (s.sec.floorRaises.getD 0 0 + 1) } }
  else s

theorem State.confirmed_eq : s.confirmed = ((s.setBit aMGT_FW fMGT_FW_TRIAL false).floorRaised (s.reg aSEC_FWVER)).log 0x05 0x08
    (updatePayload (s.fld aSEC_STAT fSEC_STAT_SLOT) (s.reg aSEC_FWVER) (s.fwSlot (s.fld aSEC_STAT fSEC_STAT_SLOT)).digest) := rfl

theorem State.floorRaised_does {v : Word} : Does [.sec] [18] s (s.floorRaised v) :=
  Does.ite (fun _ => Does.put_sec (by decide) (Does.setReg adr_SEC_FLOOR (by decide) Does.refl)) (fun _ => Does.refl)

theorem State.floorRaised_keepsRegs (s : State) (v : Word) : KeepsRegs [aSEC_FLOOR 0] s (s.floorRaised v) := by
  have hset := (KeepsRegs.refl [aSEC_FLOOR 0] s).setReg (a := aSEC_FLOOR 0) (by decide) v
  exact iteInduction (motive := KeepsRegs [aSEC_FLOOR 0] s) (fun _ => hset) (fun _ => .refl _ s)

theorem State.floorRaised_floor (s : State) (v : Word) (h : s.sec.floorRaises.getD 0 0 < 255) :
    ((s.floorRaised v).reg (aSEC_FLOOR 0)).toNat = max (s.reg (aSEC_FLOOR 0)).toNat v.toNat := by
  have hset := State.reg_setReg_self s (aSEC_FLOOR 0) v
  unfold State.floorRaised
  by_cases hlow : (s.reg (aSEC_FLOOR 0)).toNat < v.toNat
  · rw [if_pos ⟨hlow, h⟩, Nat.max_eq_right (Nat.le_of_lt hlow)]
    exact congrArg BitVec.toNat hset
  · rw [if_neg (fun hc => hlow hc.1), Nat.max_eq_left (Nat.not_lt.mp hlow)]

theorem State.log_keeps_low (s : State) (typ code : Nat) (payload : List Byte) {a : Nat} (h : a ∉ logRegs) :
    (s.log typ code payload).reg a = s.reg a := s.log_keepsRegs typ code payload a h

theorem State.wide_of_keepsRegs {as : List Nat} (h : KeepsRegs as s t) {a : Nat} (ha : a ∉ as) (ha4 : a + 4 ∉ as) :
    t.wide a 2 = s.wide a 2 :=
  State.wide_congr (fun i hi => by interval_cases i; exacts [h _ ha, h _ ha4])

theorem State.confirmed_shows (s : State) : let t := s.confirmed
    t.bit aMGT_FW fMGT_FW_TRIAL = false ∧
      (s.sec.floorRaises.getD 0 0 < 255 → (t.reg (aSEC_FLOOR 0)).toNat = max (s.reg (aSEC_FLOOR 0)).toNat (s.reg aSEC_FWVER).toNat) ∧
      t.wide aMGT_LOGNEXT 2 = (s.wide aMGT_LOGNEXT 2 + 1) % 2 ^ 64 ∧ KeepsRegs (aMGT_FW :: aSEC_FLOOR 0 :: logRegs) s t ∧
      Does [.sec, .mgt] [16, 18] s t := by
  have hfloor := (s.setBit aMGT_FW fMGT_FW_TRIAL false).floorRaised_keepsRegs (s.reg aSEC_FWVER)
  have htrial := (KeepsRegs.refl [aMGT_FW] s).setBit (a := aMGT_FW) (by simp) fMGT_FW_TRIAL false
  have hdoes : Does [.sec] [16, 18] s ((s.setBit aMGT_FW fMGT_FW_TRIAL false).floorRaised (s.reg aSEC_FWVER)) :=
    State.floorRaised_does.call (by decide) (Does.setBit adr_MGT_FW (by decide) Does.refl)
  have hmax := (s.setBit aMGT_FW fMGT_FW_TRIAL false).floorRaised_floor (s.reg aSEC_FWVER)
  have hlow : (s.setBit aMGT_FW fMGT_FW_TRIAL false).bit aMGT_FW fMGT_FW_TRIAL = false := State.bit_setBit_self _ _ _ _ (by decide) (by decide)
  have hsec : (s.setBit aMGT_FW fMGT_FW_TRIAL false).sec = s.sec := rfl
  rw [State.confirmed_eq]
  generalize hu : (s.setBit aMGT_FW fMGT_FW_TRIAL false).floorRaised (s.reg aSEC_FWVER) = u at *
  have hlog := fun a (h : a ∉ logRegs) => u.log_keeps_low 0x05 0x08
    (updatePayload (s.fld aSEC_STAT fSEC_STAT_SLOT) (s.reg aSEC_FWVER) (s.fwSlot (s.fld aSEC_STAT fSEC_STAT_SLOT)).digest) h
  have hregs : KeepsRegs [aMGT_FW, aSEC_FLOOR 0] s u := (htrial.mono (by simp)).trans (hfloor.mono (by simp))
  refine ⟨?_, fun hraises => ?_, ?_, ?_, State.log_does.call (by decide) (hdoes.mono (by decide))⟩
  · exact (State.bit_congr _ ((hlog _ (by decide)).trans (hfloor _ (by decide)))).trans hlow
  · rw [hlog _ (by decide), hmax (by rw [hsec]; exact hraises), htrial _ (by decide)]
  · rw [State.log_next, State.wide_of_keepsRegs hregs (by decide) (by decide)]
  · exact (hregs.mono (by simp)).trans ((u.log_keepsRegs _ _ _).mono (fun _ h => List.mem_cons_of_mem _ (List.mem_cons_of_mem _ h)))

end Sys2Proof.Machine
end

section
/-! Firmware: the end of an update, activation, rollback and the statement (O43; R467, R496 to R498). -/
namespace Sys2Proof.Machine

variable {s t u : State} {p : Port} {req : Byte}

/-! ## ROLLBACK -/

/-- Work of which an entry of the log tells: the log's registers move on. -/
theorem State.log_after {as : List Nat} (h : KeepsRegs as s u) (hnext : aMGT_LOGNEXT ∉ as ∧ aMGT_LOGNEXT + 4 ∉ as)
    (typ code : Nat) (payload : List Byte) : KeepsRegs (as ++ logRegs) s (u.log typ code payload) ∧
      (u.log typ code payload).wide aMGT_LOGNEXT 2 = (s.wide aMGT_LOGNEXT 2 + 1) % 2 ^ 64 :=
  ⟨(h.mono (fun _ => List.mem_append_left _)).trans ((u.log_keepsRegs _ _ _).mono (fun _ => List.mem_append_right _)),
    by rw [State.log_next, State.wide_of_keepsRegs h hnext.1 hnext.2]⟩

theorem State.rolledBack_shows (s : State) {o : Nat} (ho : o < 2) : let t := s.rolledBack o
    t.fld aMGT_FW fMGT_FW_ACTIVE = o ∧ KeepsRegs (aMGT_FW :: logRegs) s t ∧ Does [.mgt] [16] s t := by
  have hset := (KeepsRegs.refl [aMGT_FW] s).setFld (a := aMGT_FW) (by simp) fMGT_FW_ACTIVE o
  refine ⟨?_, (State.log_after hset (by decide) _ _ _).1, State.log_does.call (by decide) (Does.setFld adr_MGT_FW (by decide) Does.refl)⟩
  refine (State.fld_congr _ (State.log_keeps_low _ _ _ _ (by decide))).trans ((State.fld_setFld_self _ _ _ _ (by decide) (by decide)).trans ?_)
  exact Nat.mod_eq_of_lt ho

theorem State.rollbackLow_iff : s.rollbackLow = true ↔ (s.fwSlot s.otherSlot).valid = false ∨
    (s.fwSlot s.otherSlot).version.toNat < (s.reg (aSEC_FLOOR 0)).toNat := by
  unfold State.rollbackLow
  rw [Bool.or_eq_true, decide_eq_true_eq, Bool.not_eq_true']
  exact Or.comm

/-! ## STRCOPY -/

theorem State.copied_does {offset : Nat} {bs : List Byte} : Does [.hbmMem] [] s (s.copied offset bs) := Does.put_hbmMem (by decide) (Memory.wf_writeBytes _ _ _) Does.refl

theorem State.copied_within (s : State) (offset : Nat) (bs : List Byte) {i : Nat} (hi : i < bs.length) :
    Memory.read (s.copied offset bs).hbmMem (offset + i) = bs.getD i 0 := by
  refine (Memory.read_writeBytes bs s.hbmMem offset (offset + i)).trans ?_
  have hin : offset ≤ offset + i ∧ offset + i - offset < bs.length := by omega
  rw [dif_pos hin, List.getD_eq_getElem _ _ hi]
  simp only [Nat.add_sub_cancel_left]

/-! ## The end of an update -/

/-- No update runs, and the held reply of it is ready. -/
def State.updateEnded (r : Byte × List Byte) (s : State) : State :=
  { s with mgt := { s.mgt with
    running := none, image := [], checked := false
    slots0 := setReply 0x06 s.mgt.uptime r s.mgt.slots0
    slots1 := setReply 0x06 s.mgt.uptime r s.mgt.slots1 } }

/-- What a slot holds of an image. -/
def imageSlot (image : List Byte) : FwSlot where
  valid := true
  version := BitVec.ofNat 32 (fieldAt image 4 4)
  digest := Config.sha384 image
  patches := Config.imagePatches image

/-- The image of an update is in its slot. -/
def State.slotWritten (o : Nat) (image : List Byte) (s : State) : State :=
  (s.setFwSlot o (imageSlot image)).setFld aMGT_FW fMGT_FW_UPD 2

/-- The payload of the entry on an update's end. -/
def State.updateEntry (s : State) : List Byte :=
  updatePayload s.otherSlot (BitVec.ofNat 32 (fieldAt s.mgt.image 4 4)) (Config.sha384 s.mgt.image)

/-- The status with which an update ends (R496). -/
def updateReply (checked written verified : Bool) : Byte × List Byte :=
  (if !checked then msVerify else if !written then msFlash else if verified then msOk else msVerify, [])

theorem exec_updateDone_ends {written verified : Bool} (hrun : s.mgt.running = some 6) : exec (.updateDone written verified) s =
    .next (((if s.mgt.checked && written && verified then s.slotWritten s.otherSlot s.mgt.image
      else s.setFld aMGT_FW fMGT_FW_UPD 3).updateEnded (updateReply s.mgt.checked written verified)).log 0x05 0x06 s.updateEntry) :=
  if_pos hrun

theorem exec_updateDone_good (hrun : s.mgt.running = some 6) (hchecked : s.mgt.checked = true) : exec (.updateDone true true) s =
    .next (((s.slotWritten s.otherSlot s.mgt.image).updateEnded (updateReply s.mgt.checked true true)).log 0x05 0x06 s.updateEntry) := by
  rw [exec_updateDone_ends hrun, if_pos (by rw [hchecked]; rfl)]

theorem exec_updateDone_bad {written verified : Bool} (hrun : s.mgt.running = some 6)
    (hbad : s.mgt.checked = false ∨ (written && verified) = false) : exec (.updateDone written verified) s =
      .next (((s.setFld aMGT_FW fMGT_FW_UPD 3).updateEnded (updateReply s.mgt.checked written verified)).log 0x05 0x06 s.updateEntry) := by
  have hno : ¬ (s.mgt.checked && written && verified) = true := by
    rw [Bool.and_assoc, Bool.and_eq_true]
    rintro ⟨hc, hw⟩
    obtain h | h := hbad
    · rw [h] at hc; exact Bool.false_ne_true hc
    · rw [h] at hw; exact Bool.false_ne_true hw
  rw [exec_updateDone_ends hrun, if_neg hno]

/-- The end of an update, whatever it has left in the slots. -/
theorem State.updateEnded_log (u : State) (r : Byte × List Byte) (payload : List Byte) {f : Nat}
    (hupd : u.fld aMGT_FW fMGT_FW_UPD = f) : let t := (u.updateEnded r).log 0x05 0x06 payload
    t.fld aMGT_FW fMGT_FW_UPD = f ∧ t.mgt.running = none ∧ (∀ b, t.fwSlot b = u.fwSlot b) ∧ KeepsRegs logRegs u t ∧
      Does [.mgt] [16] u t := by
  have hregs : KeepsRegs logRegs u (u.updateEnded r) := .of_regs rfl _
  have hlog := (u.updateEnded r).log_keepsRegs 0x05 0x06 payload
  have hmgt := (u.updateEnded r).log_mgt 0x05 0x06 payload
  have hdoes : Does [.mgt] [16] u ((u.updateEnded r).log 0x05 0x06 payload) :=
    State.log_does.call (by decide) (Does.put_mgt (by decide) Does.refl)
  generalize (u.updateEnded r).log 0x05 0x06 payload = t at *
  refine ⟨(State.fld_congr _ ((hregs.trans hlog) _ (by decide))).trans hupd, by rw [hmgt]; rfl, fun b => ?_, hregs.trans hlog, hdoes⟩
  unfold State.fwSlot
  rw [hmgt]
  rfl

/-! ## Activation -/

/-- The boot control record of an activation, with its log entry. -/
def State.bootMarked (o : Nat) (s : State) : State :=
  let s1 := ((s.setFld aMGT_FW fMGT_FW_ACTIVE o).setFld aMGT_FW fMGT_FW_TRIES 0).latch aMGT_FW fMGT_FW_TRIAL
  { s1 with mgt := { s1.mgt with previous := 1 - o } }

theorem State.activateNow_eq (s : State) : s.activateNow = ((s.bootMarked s.otherSlot).log 0x05 0x07 (updatePayload s.otherSlot
    (s.fwSlot s.otherSlot).version (s.fwSlot s.otherSlot).digest)).powerCleared rcActivate := rfl

theorem exec_activate_due {due : Count} (hrun : s.mgt.running = some 7) (hdue : Count.upto due s.count = true) :
    exec (.activate p req due) s = .next s.activateNow :=
  (if_pos hrun).trans (congrArg _ (if_pos hdue))

theorem State.bootMarked_does {o : Nat} : Does [.fresh, .mgt] [16] s (s.bootMarked o) :=
  Does.put_mgt (by decide) (Does.latch adr_MGT_FW (by decide) (Does.setFld adr_MGT_FW (by decide) (Does.setFld adr_MGT_FW (by decide) Does.refl)))

theorem State.bootMarked_shows (s : State) {o : Nat} (ho : o < 2) : let t := s.bootMarked o
    t.fld aMGT_FW fMGT_FW_ACTIVE = o ∧ t.fld aMGT_FW fMGT_FW_TRIES = 0 ∧ t.bit aMGT_FW fMGT_FW_TRIAL = true ∧
      t.mgt = { s.mgt with previous := 1 - o } := by
  refine ⟨?_, ?_, State.bit_latch_self ((s.setFld aMGT_FW fMGT_FW_ACTIVE o).setFld aMGT_FW fMGT_FW_TRIES 0) _ _ rfl (by decide), rfl⟩
  · refine (State.fld_latch_beside _ _ _ _ (by decide) (by decide) (by decide)).trans
      ((State.fld_setFld_beside _ _ _ _ _ (by decide) (by decide) (by decide)).trans
        ((State.fld_setFld_self _ _ _ _ (by decide) (by decide)).trans (Nat.mod_eq_of_lt ho)))
  · exact (State.fld_latch_beside _ _ _ _ (by decide) (by decide) (by decide)).trans
      (State.fld_setFld_self _ _ _ _ (by decide) (by decide))

theorem State.activateNow_shows (s : State) {slot : Nat} (hslot : slot < 2) (ho : s.otherSlot = 1 - slot) : let t := s.activateNow
    t.power.holding = [rcActivate] ∧ t.bit aMGT_FW fMGT_FW_TRIAL = true ∧ t.fld aMGT_FW fMGT_FW_TRIES = 0 ∧
      t.fld aMGT_FW fMGT_FW_ACTIVE = 1 - slot ∧ t.fld aGLB_RSTCAUSE fGLB_RSTCAUSE_CAUSE = rcActivate ∧ t.mgt.previous = slot ∧
      t.agenda = [] ∧ t.hbmMem = s.hbmFlush.hbmMem ∧ t.spill = s.spill ∧ t.mgt.fwA = s.mgt.fwA ∧ t.mgt.fwB = s.mgt.fwB := by
  obtain ⟨hactive, htries, htrial, hmgt⟩ := s.bootMarked_shows (o := 1 - slot) (by omega)
  have hmarked : Does [.fresh, .mgt] [16] s (s.bootMarked (1 - slot)) := State.bootMarked_does
  rw [State.activateNow_eq, ho]
  generalize updatePayload (1 - slot) (s.fwSlot (1 - slot)).version (s.fwSlot (1 - slot)).digest = payload
  generalize s.bootMarked (1 - slot) = m at *
  have hlogmgt := m.log_mgt 0x05 0x07 payload
  have hlog := m.log_keeps_low 0x05 0x07 payload (a := aMGT_FW) (by decide)
  have hall : Does [.fresh, .mgt] [16] s (m.log 0x05 0x07 payload) := State.log_does.call (by decide) hmarked
  generalize m.log 0x05 0x07 payload = u at *
  have hclear := u.powerCleared_clears rcActivate
  refine ⟨hclear.holding, ?_, (State.powerCleared_fwFld (by decide) (by decide)).trans ((State.fld_congr _ hlog).trans htries),
    (State.powerCleared_fwFld (by decide) (by decide)).trans ((State.fld_congr _ hlog).trans hactive), ?_, ?_, hclear.agenda, ?_,
    hclear.spill.trans (hall.same .spill (by decide) (by decide)), ?_, ?_⟩
  · unfold State.bit at htrial ⊢
    rw [State.powerCleared_fwFld (by decide) (by decide), State.fld_congr _ hlog, htrial]
  · unfold State.fld
    rw [State.powerCleared_rstcause]
    decide
  · rw [hclear.previous, hlogmgt, hmgt]
    show 1 - (1 - slot) = slot
    omega
  · exact hclear.hbm.trans ((if_neg (by decide)).trans (State.hbmFlush_congr (hall.same .hbm (by decide) (by decide))
      (hall.same .hbmMem (by decide) (by decide))))
  · rw [hclear.fwA, hlogmgt, hmgt]
  · rw [hclear.fwB, hlogmgt, hmgt]

/-! ## The trial that runs out -/

/-- The previous slot marked active, and the trial over. -/
def State.trialEnded (s : State) : State :=
  let s1 := (s.setFld aMGT_FW fMGT_FW_ACTIVE s.mgt.previous).latch aMGT_LAT fMGT_LAT_ROLLBACK
  { s1 with mgt := { s1.mgt with expired := true } }

theorem exec_conftoExpiry_over (h : s.trialOver = true) : exec .conftoExpiry s = .next (s.trialEnded.log 0x05 0x09
    (updatePayload s.mgt.previous (s.fwSlot s.mgt.previous).version (s.fwSlot s.mgt.previous).digest)) := if_pos h

theorem State.trialEnded_does : Does [.fresh, .mgt] [16] s s.trialEnded :=
  Does.put_mgt (by decide) (Does.latch adr_MGT_LAT (by decide) (Does.setFld adr_MGT_FW (by decide) Does.refl))

theorem State.trialEnded_shows (s : State) (hprev : s.mgt.previous < 2) : let t := s.trialEnded
    t.fld aMGT_FW fMGT_FW_ACTIVE = s.mgt.previous ∧ t.bit aMGT_LAT fMGT_LAT_ROLLBACK = true ∧ t.mgt.expired = true ∧
      KeepsRegs [aMGT_FW, aMGT_LAT] s t := by
  refine ⟨?_, State.bit_latch_self (s.setFld aMGT_FW fMGT_FW_ACTIVE s.mgt.previous) _ _ rfl (by decide), rfl,
    ((KeepsRegs.refl [aMGT_FW, aMGT_LAT] s).setFld (a := aMGT_FW) (by simp) fMGT_FW_ACTIVE s.mgt.previous).latch (a := aMGT_LAT) (by simp) fMGT_LAT_ROLLBACK⟩
  exact (State.fld_congr _ (State.reg_latch_ne (s.setFld aMGT_FW fMGT_FW_ACTIVE s.mgt.previous) _ (by decide))).trans
    ((State.fld_setFld_self _ _ _ _ (by decide) (by decide)).trans (Nat.mod_eq_of_lt hprev))

end Sys2Proof.Machine
end

section
/-! Firmware: the statement (O43; R467, R486, R487, R496 to R498). -/
namespace Sys2Proof.Machine

variable {s : State} {p : Port} {req cmd : Byte}

/-- A request that is served with work of its own, which sends nothing, is answered on what that work leaves. -/
theorem State.serve_worked {ps : List Part} {bs : List Nat} {f : State → State} (h : s.takesMail p)
    (hmay : s.mayMail p.val true = true) (hs : Sends p 3 s) (hf : Does ps bs s (f s)) (hps : .out ∉ ps ∧ .links ∉ ps ∧ 13 ∉ bs)
    (hregs : (f s).reg (aLP_STAT p.val) = s.reg (aLP_STAT p.val)) :
    let t := s.serve p cmd req true msOk [] f
    t.out = s.out ++ [.mgt p cmd 0x80 req 0 []] ∧ t.mgt = (f s).mgt ∧ t.agenda = (f s).agenda ∧ KeepsRegs [] (f s) t ∧
      KeepsMemory (f s) t ∧ t.hbmMem = (f s).hbmMem ∧ t.sram = (f s).sram ∧ t.spill = (f s).spill := by
  have hline : SameLine p s (f s) := .of_links hregs (hf.same .links hps.2.1 (by decide))
  have hreply := (State.serve_replied (cmd := cmd) (req := req) (status := msOk) h hmay hline
    (by rw [length_mgtFrames_nil]; exact .of_sends hs)).refused
  have hdoes : Does [.out, .links] [] (f s) (s.serve p cmd req true msOk [] f) := by
    rw [State.serve_may h hmay]; exact State.mgtReply_does
  obtain ⟨hout, hmgt, hagenda, hkeeps, hmem⟩ := hreply
  exact ⟨by rw [hout, hf.same .out hps.1 (by decide)], hmgt, hagenda, hkeeps, hmem, hdoes.same .hbmMem (by decide) (by decide),
    hdoes.same .sram (by decide) (by decide), hdoes.same .spill (by decide) (by decide)⟩

theorem lpStat_blk (p : Port) {bs : List Nat} (h : 13 ∉ bs) : regBlk (aLP_STAT p.val) ∉ bs := by
  rw [adr_LP_STAT.here]; exact h

/-- The activation held until its due time. -/
def State.activateHeld (p : Port) (req : Byte) (due : Count) (s : State) : State :=
  { s with mgt := { s.mgt with running := some 0x07 } }.hold (.island islManagement) due (.cmd (.activate p req due))

theorem exec_activate_held (due : Count) (h : s.takesMail p) (hmay : s.mayMail p.val true = true) (hrun : s.mgt.running = none)
    (hallowed : s.mayActivate = true) (hdue : Count.upto due s.count = false) :
    exec (.activate p req due) s = .next (s.serve p 0x07 req true msOk [] (State.activateHeld p req due)) := by
  rw [exec_activate_idle due hrun, if_neg (by rw [hallowed]; decide), State.serve_may h hmay, State.serve_may h hmay]
  exact congrArg (fun t : State => Host.Outcome.next (t.mgtReply p 0x07 req msOk [])) (if_neg (by rw [hdue]; decide))

/-- Settles O43: what each request does is its own lemma (`State.updateBegun_shows`, `State.confirmed_shows`,
`State.rolledBack_shows`, `State.copied_within`), its reply is `State.serve_worked`, and the restart is
`State.activateNow_shows`. -/
theorem firmware : Obligations.Firmware := by
  unfold Obligations.Firmware
  intro p req k offset len due ws written verified s answer ready may slot o image fits same logRegs' all
  have ho : s.otherSlot = o := rfl
  have refused : ∀ {cmd status : Byte} {t : State}, Replied p cmd req status [] s t → answer cmd status t ∧ same t := fun h => h.refused
  refine ⟨fun hready hmay hrun r hr => ?role, fun hmay hrun hne r hr => ?busy, fun hmay hslot hrun hfit => ?update,
    fun hmay hrun hfit => ?format, fun hmay hrun hallowed hdue => ?held, fun hmay hrun hallowed => ?state, fun hmay hslot => ?confirm,
    fun hmay hslot hrun hvalid hfloor => ?rollback, fun hmay hrun hlow => ?low, fun hmay hrun harch hkind => ?copy,
    fun hmay hrun harch hkind => ?outside, fun hmay hrun harch => ?notHeld, fun hrun hslot hchecked => ?done,
    fun hrun hbad => ?failed, fun hrun => ⟨s, if_neg hrun, rfl⟩, fun hrun hslot hdue => ?restart, fun hover hprev => ?expired,
    fun hover => ⟨s, if_neg (by rw [hover]; decide), rfl⟩⟩
  case role =>
    obtain ⟨hrdy, hfree, hs⟩ := hready
    obtain rfl | hr := List.mem_cons.mp hr
    · exact ⟨_, exec_update_role offset len ⟨hrdy, hfree⟩ hmay, refused (State.mgtReply_replied_nil hs)⟩
    · obtain ⟨status, f, hexec⟩ := firmwareRequest_serves due k offset hrun hr
      exact ⟨_, hexec.trans (congrArg _ (State.serve_role ⟨hrdy, hfree⟩ hmay)), refused (State.mgtReply_replied_nil hs)⟩
  case busy =>
    obtain ⟨⟨hrdy, hfree, hs⟩, hmay⟩ := hmay
    have hserve : ∀ cmd : Byte, answer cmd 5 (s.serve p cmd req true msBusy [] id) ∧ same (s.serve p cmd req true msBusy [] id) :=
      fun cmd => refused (State.serve_refused ⟨hrdy, hfree⟩ hmay hs)
    simp only [List.mem_cons, List.not_mem_nil, or_false] at hr
    rcases hr with rfl | rfl | rfl | rfl
    · exact ⟨_, exec_update_busy offset len ⟨hrdy, hfree⟩ hmay hrun, refused (State.mgtReply_replied_nil hs)⟩
    · exact ⟨_, exec_activate_busy due hrun hne, hserve 7⟩
    · exact ⟨_, exec_rollback_busy hrun, hserve 9⟩
    · exact ⟨_, exec_strcopy_busy k offset hrun, hserve 10⟩
  case update =>
    obtain ⟨⟨hrdy, hfree, hs⟩, hmay⟩ := hmay
    exact ⟨_, exec_update_begins offset len ⟨hrdy, hfree⟩ hmay hrun hfit, State.updateBegun_shows image hs hslot ho⟩
  case format =>
    obtain ⟨⟨hrdy, hfree, hs⟩, hmay⟩ := hmay
    exact ⟨_, exec_update_format offset len ⟨hrdy, hfree⟩ hmay hrun hfit, refused (State.mgtReply_replied_nil hs)⟩
  case held =>
    obtain ⟨⟨hrdy, hfree, hs⟩, hmay⟩ := hmay
    have hdoes : Does [.agenda, .mgt] [] s (s.activateHeld p req due) :=
      State.hold_does.call (by decide) (Does.put_mgt (by decide) Does.refl)
    obtain ⟨hout, hmgt, hagenda, hregs, hmem, -⟩ := State.serve_worked (cmd := 7) (req := req) (f := State.activateHeld p req due)
      ⟨hrdy, hfree⟩ hmay hs hdoes (by decide) (hdoes.regs (by decide) _ (by simp))
    refine ⟨_, exec_activate_held due ⟨hrdy, hfree⟩ hmay hrun hallowed hdue, hout, by rw [hmgt]; rfl, ?_,
      (KeepsRegs.of_does hdoes (by decide) _).trans hregs, (KeepsMemory.of_does hdoes (by decide)).trans hmem⟩
    rw [hagenda]
    exact (mem_insertDue _ _ _).mpr (.inl rfl)
  case state =>
    obtain ⟨⟨hrdy, hfree, hs⟩, hmay⟩ := hmay
    exact ⟨_, (exec_activate_idle due hrun).trans (if_pos (by rw [hallowed]; rfl)), refused (State.serve_refused ⟨hrdy, hfree⟩ hmay hs)⟩
  case confirm =>
    obtain ⟨⟨hrdy, hfree, hs⟩, hmay⟩ := hmay
    obtain ⟨htrial, hfloor, hnext, hregs, hdoes⟩ := s.confirmed_shows
    obtain ⟨hout, hmgt, -, hkept, hmem, -⟩ := State.serve_worked (cmd := 8) (req := req) (f := State.confirmed) ⟨hrdy, hfree⟩ hmay hs hdoes
      (by decide) (hdoes.regs (by decide) _ (lpStat_blk p (by decide)))
    refine ⟨_, exec_confirm_eq, hout, (State.bit_congr _ (hkept _ (by simp))).trans htrial, fun hraises => ?_,
      (State.wide_of_keepsRegs hkept (by simp) (by simp)).trans hnext, hregs.trans (hkept.mono (by simp)),
      (KeepsMemory.of_does hdoes (by decide)).trans hmem⟩
    rw [hkept _ (by simp)]
    exact hfloor hraises
  case rollback =>
    obtain ⟨⟨hrdy, hfree, hs⟩, hmay⟩ := hmay
    obtain ⟨hactive, hregs, hdoes⟩ := s.rolledBack_shows (o := s.otherSlot) (by rw [ho]; omega)
    obtain ⟨hout, -, -, hkept, hmem, -⟩ := State.serve_worked (cmd := 9) (req := req) (f := State.rolledBack s.otherSlot) ⟨hrdy, hfree⟩
      hmay hs hdoes (by decide) (hdoes.regs (by decide) _ (lpStat_blk p (by decide)))
    have hok : ¬ s.rollbackLow = true := by
      rw [State.rollbackLow_iff, ho, hvalid]
      rintro (h | h)
      · exact absurd h (by decide)
      · exact absurd h (Nat.not_lt.mpr hfloor)
    exact ⟨_, (exec_rollback_idle hrun).trans (if_neg hok), hout, (State.fld_congr _ (hkept _ (by simp))).trans hactive,
      hregs.trans (hkept.mono (by simp)), (KeepsMemory.of_does hdoes (by decide)).trans hmem⟩
  case low =>
    obtain ⟨⟨hrdy, hfree, hs⟩, hmay⟩ := hmay
    exact ⟨_, (exec_rollback_idle hrun).trans (if_pos (State.rollbackLow_iff.mpr hlow)),
      refused (State.serve_refused ⟨hrdy, hfree⟩ hmay hs)⟩
  case copy =>
    obtain ⟨⟨hrdy, hfree, hs⟩, hmay⟩ := hmay
    have hdoes := State.copied_does (s := s) (offset := offset.toNat) (bs := wordsBytes ws)
    obtain ⟨hout, hmgt, -, hkept, -, hhbm, hsram, hspill⟩ := State.serve_worked (cmd := 10) (req := req)
      (f := State.copied offset.toNat (wordsBytes ws)) ⟨hrdy, hfree⟩ hmay hs hdoes (by decide) (hdoes.regs (by decide) _ (by simp))
    refine ⟨_, (exec_strcopy_some k offset hrun harch).trans (if_pos hkind), hout, fun i hi => ?_, fun a ha => ?_, hsram, hspill, hmgt,
      (KeepsRegs.of_does hdoes (by decide) _).trans hkept⟩
    · rw [hhbm, State.copied_within _ _ _ hi]
    · rw [hhbm]
      exact Memory.read_writeBytes_outside ha
  case outside =>
    obtain ⟨⟨hrdy, hfree, hs⟩, hmay⟩ := hmay
    exact ⟨_, (exec_strcopy_some k offset hrun harch).trans (if_neg (by rw [hkind]; decide)),
      refused (State.serve_refused ⟨hrdy, hfree⟩ hmay hs)⟩
  case notHeld =>
    obtain ⟨⟨hrdy, hfree, hs⟩, hmay⟩ := hmay
    exact ⟨_, exec_strcopy_none k offset hrun harch, refused (State.serve_refused ⟨hrdy, hfree⟩ hmay hs)⟩
  case done =>
    have hone : o < 2 := by omega
    have hwritten : Does [.mgt] [16] s (s.slotWritten o s.mgt.image) := Does.setFld adr_MGT_FW (by decide) State.setFwSlot_does
    have hslots := fun {c : Nat} (hc : c < 2) => s.fwSlot_setFwSlot hone hc (c := c) (imageSlot s.mgt.image)
    have hver := s.setFwSlot_fwver o (imageSlot s.mgt.image)
    have hset := s.setFwSlot_keepsRegs o (imageSlot s.mgt.image)
    refine ⟨_, exec_updateDone_good hrun hchecked, ?_⟩
    rw [ho]
    unfold State.slotWritten at hwritten ⊢
    generalize s.setFwSlot o (imageSlot s.mgt.image) = u at *
    have hfld := (KeepsRegs.refl [aMGT_FW] u).setFld (a := aMGT_FW) (by simp) fMGT_FW_UPD 2
    obtain ⟨hupd, hidle, hfw, hlog, hdoes⟩ := State.updateEnded_log (u.setFld aMGT_FW fMGT_FW_UPD 2) (updateReply s.mgt.checked true true)
      s.updateEntry (State.fld_setFld_self _ _ _ _ (by decide) (by decide))
    have hfwver : aMGT_FWVER o ∉ [aMGT_FW] ∧ aMGT_FWVER o ∉ logRegs :=
      ⟨by simp only [List.mem_singleton, aMGT_FWVER, aMGT_FW]; omega, not_mem_logRegs_of_lt (by unfold aMGT_FWVER aMGT_LOGNEXT; omega)⟩
    have hother : ∀ {c : Nat}, c < 2 → (((u.setFld aMGT_FW fMGT_FW_UPD 2).updateEnded (updateReply s.mgt.checked true true)).log 0x05 0x06
        s.updateEntry).fwSlot c = u.fwSlot c := fun _ => hfw _
    refine ⟨hupd, hidle, ?_, ?_, ?_, ?_, ?_, ?_, (KeepsMemory.of_does hwritten (by decide)).trans (.of_does hdoes (by decide))⟩
    · rw [hother hone, hslots hone, if_pos rfl]; rfl
    · rw [hother hone, hslots hone, if_pos rfl]; rfl
    · rw [hother hone, hslots hone, if_pos rfl, hlog _ hfwver.2, hfld _ hfwver.1, hver]
      rfl
    · rw [hother hslot, hslots hslot, if_neg (by omega)]
    · exact ((hset.mono (by simp)).trans (hfld.mono (by simp))).trans (hlog.mono (fun _ h => List.mem_cons_of_mem _ (List.mem_cons_of_mem _ h)))
    · exact (hdoes.same .out (by decide) (by decide)).trans (hwritten.same .out (by decide) (by decide))
  case failed =>
    have hset : Does [] [16] s (s.setFld aMGT_FW fMGT_FW_UPD 3) := Does.setFld adr_MGT_FW (by decide) Does.refl
    have hfld := (KeepsRegs.refl [aMGT_FW] s).setFld (a := aMGT_FW) (by simp) fMGT_FW_UPD 3
    obtain ⟨hupd, hidle, hfw, hlog, hdoes⟩ := State.updateEnded_log (s.setFld aMGT_FW fMGT_FW_UPD 3)
      (updateReply s.mgt.checked written verified) s.updateEntry (State.fld_setFld_self _ _ _ _ (by decide) (by decide))
    exact ⟨_, exec_updateDone_bad hrun hbad, hupd, hidle, hfw 0, hfw 1,
      (hfld.mono (by simp)).trans (hlog.mono (fun _ => List.mem_cons_of_mem _)),
      (hdoes.same .out (by decide) (by decide)).trans (hset.same .out (by decide) (by decide)),
      (KeepsMemory.of_does hset (by decide)).trans (.of_does hdoes (by decide))⟩
  case restart => exact ⟨_, exec_activate_due hrun hdue, s.activateNow_shows hslot ho⟩
  case expired =>
    obtain ⟨hactive, hlat, hexp, hregs⟩ := s.trialEnded_shows hprev
    have hmarked : Does [.fresh, .mgt] [16] s s.trialEnded := State.trialEnded_does
    refine ⟨_, exec_conftoExpiry_over hover, ?_⟩
    generalize updatePayload s.mgt.previous (s.fwSlot s.mgt.previous).version (s.fwSlot s.mgt.previous).digest = payload
    generalize s.trialEnded = u at *
    have hdoes : Does [.mgt] [16] u (u.log 0x05 0x09 payload) := State.log_does
    refine ⟨(State.fld_congr _ (u.log_keeps_low _ _ _ (by decide))).trans hactive,
      (State.bit_congr _ (u.log_keeps_low _ _ _ (by decide))).trans hlat, by rw [u.log_mgt]; exact hexp,
      (hdoes.same .agenda (by decide) (by decide)).trans (hmarked.same .agenda (by decide) (by decide)), ?_,
      (KeepsMemory.of_does hmarked (by decide)).trans (.of_does hdoes (by decide))⟩
    exact (State.log_after hregs (by decide) _ _ _).1

end Sys2Proof.Machine
end

section
/-! The boot of a module after a power-on, and its input supply (O41; R469, R503, R506, R513). -/
namespace Sys2Proof.Machine

variable {s t u : State}

/-! ## The release of the die, block by block -/

theorem State.tryRelease_does_blocks (hheld : s.power.holding ≠ []) :
    Does [.agenda, .causes, .fresh, .hbm, .links, .power] [0, 3, 12, 13, 14, 15, 16] s (s.tryRelease []) := by
  have hlimited : Does [.fresh, .hbm, .links] [0, 3, 12, 13, 14, 15, 16] s.unheld s.unheld.releaseLimited :=
    (State.blockOn_does_plain (b := 3) (by decide) (by decide) (by decide) (by decide)).call (by decide)
      (State.blockOn_does_plain (b := 13) (by decide) (by decide) (by decide) (by decide) |>.mono (by decide))
  have hfull : Does [.agenda, .fresh, .hbm, .links] [0, 3, 12, 13, 14, 15, 16] s.unheld s.unheld.releaseDie := by
    rw [State.releaseDie_eq]
    exact Does.ite (fun _ => State.raise_does.call (by decide) (State.stepFour_does.mono (by decide)))
      (fun _ => State.stepFour_does.mono (by decide))
  have hunheld : Does [.agenda, .causes, .fresh, .hbm, .links, .power] [0, 3, 12, 13, 14, 15, 16] s s.unheld :=
    State.unheld_does.mono (by decide)
  rw [State.tryRelease_none hheld]
  exact Does.ite (fun _ => hlimited.call (by decide) hunheld) (fun _ => hfull.call (by decide) hunheld)

theorem State.blockOn_rstcause {b : Nat} (hb : b ∈ [13, 3, 12, 14, 15]) : (s.blockOn b).reg aGLB_RSTCAUSE = s.reg aGLB_RSTCAUSE := by
  simp only [List.mem_cons, List.not_mem_nil, or_false] at hb
  have hdoes : Does [.fresh, .hbm, .links] [b] s (s.blockOn b) :=
    State.blockOn_does_plain (by omega) (by omega) (by omega) (by omega)
  exact hdoes.regs (by decide) _ (by rw [adr_GLB_RSTCAUSE.here, List.mem_singleton]; omega)

/-- The release leaves the cause of the reset as it was recorded, and LIMITED as it was. -/
theorem State.tryRelease_rstcause (hheld : s.power.holding ≠ []) {f : Fld} (hf : f.hi < fGLB_RSTCAUSE_STEP.lo ∨ fGLB_RSTCAUSE_STEP.hi < f.lo) :
    (s.tryRelease []).fld aGLB_RSTCAUSE f = s.fld aGLB_RSTCAUSE f := by
  have hunheld : s.unheld.fld aGLB_RSTCAUSE f = s.fld aGLB_RSTCAUSE f := State.fld_congr _ (s.unheld_keepsRegs _ (by simp))
  have hfour : s.unheld.stepFour.fld aGLB_RSTCAUSE f = s.unheld.fld aGLB_RSTCAUSE f := by
    unfold State.stepFour
    refine (State.fld_congr _ ((State.trainAt_does.regs (by decide) _ (by decide)).trans (State.reg_latch_ne _ _ (by decide)))).trans ?_
    refine (State.fld_setFld_beside _ _ _ _ _ (by decide) (by decide) hf).trans (State.fld_congr _ ?_)
    rw [State.blockOn_rstcause (by decide), State.blockOn_rstcause (by decide), State.blockOn_rstcause (by decide),
      State.blockOn_rstcause (by decide), State.blockOn_rstcause (by decide)]
  rw [State.tryRelease_none hheld, ← hunheld]
  refine iteInduction (motive := fun t : State => t.fld aGLB_RSTCAUSE f = s.unheld.fld aGLB_RSTCAUSE f) (fun _ => ?_) (fun _ => ?_)
  · unfold State.releaseLimited
    exact State.fld_congr _ (by rw [State.blockOn_rstcause (by decide), State.blockOn_rstcause (by decide)])
  · rw [State.releaseDie_eq]
    exact iteInduction (motive := fun t : State => t.fld aGLB_RSTCAUSE f = s.unheld.fld aGLB_RSTCAUSE f)
      (fun _ => (State.fld_congr _ (State.raise_does.regs (by decide) _ (by simp))).trans hfour) (fun _ => hfour)

/-! ## The limited state (R469) -/

/-- What the limited state shows. -/
structure Limited (why state : Nat) (s t : State) : Prop where
  bit : t.bit aGLB_RSTCAUSE fGLB_RSTCAUSE_LIMITED = true
  state : t.fld aSEC_STAT fSEC_STAT_STATE = state
  why : t.fld aSEC_STAT fSEC_STAT_LIMIT = why
  holding : t.power.holding = []
  links : t.blkOn 13 = true
  bus : t.blkOn 3 = true
  hbm : t.blkOn 12 = s.blkOn 12
  boots : t.mgt.boots = s.mgt.boots
  spill : t.spill = s.spill
  count : t.count = s.count

/-- The reason and the state of a limited module, as its registers show them. -/
def State.limitShown (s : State) (limit state step : Nat) : State :=
  (((s.setFld aSEC_STAT fSEC_STAT_LIMIT limit).setFld aSEC_STAT fSEC_STAT_STATE state).setFld aGLB_RSTCAUSE fGLB_RSTCAUSE_STEP
    step).latch aGLB_RSTCAUSE fGLB_RSTCAUSE_LIMITED

theorem State.limited_eq (s : State) (limit state step : Nat) : s.limited limit state step = (s.limitShown limit state step).tryRelease [] := rfl

theorem State.limitShown_does {limit state step : Nat} : Does [.fresh] [0, 18] s (s.limitShown limit state step) :=
  Does.latch adr_GLB_RSTCAUSE (by decide) (Does.setFld adr_GLB_RSTCAUSE (by decide) (Does.setFld adr_SEC_STAT (by decide)
    (Does.setFld adr_SEC_STAT (by decide) Does.refl)))

theorem State.limitShown_shows (s : State) {limit state : Nat} (step : Nat) (hlimit : limit < 8) (hstate : state < 8) :
    let t := s.limitShown limit state step
    t.fld aSEC_STAT fSEC_STAT_STATE = state ∧ t.fld aSEC_STAT fSEC_STAT_LIMIT = limit ∧ t.bit aGLB_RSTCAUSE fGLB_RSTCAUSE_LIMITED = true := by
  have hstat : (s.limitShown limit state step).reg aSEC_STAT =
      ((s.setFld aSEC_STAT fSEC_STAT_LIMIT limit).setFld aSEC_STAT fSEC_STAT_STATE state).reg aSEC_STAT :=
    (State.reg_latch_ne _ _ (by decide)).trans (State.reg_setReg_ne _ _ (by decide))
  refine ⟨(State.fld_congr _ hstat).trans ((State.fld_setFld_self _ _ _ _ (by decide) (by decide)).trans (Nat.mod_eq_of_lt hstate)),
    (State.fld_congr _ hstat).trans ((State.fld_setFld_beside _ _ _ _ _ (by decide) (by decide) (by decide)).trans
      ((State.fld_setFld_self _ _ _ _ (by decide) (by decide)).trans (Nat.mod_eq_of_lt hlimit))), ?_⟩
  exact State.bit_latch_self _ _ _ rfl (by decide)

theorem State.limited_shows (s : State) {limit state : Nat} (step : Nat) (hlimit : limit < 8) (hstate : state < 8)
    (hheld : s.power.holding ≠ []) : Limited limit state s (s.limited limit state step) := by
  obtain ⟨hstat, hwhy, hbit⟩ := s.limitShown_shows step hlimit hstate
  have hshown := State.limitShown_does (s := s) (limit := limit) (state := state) (step := step)
  rw [State.limited_eq]
  generalize s.limitShown limit state step = u at *
  have hheld' : u.power.holding ≠ [] := by rw [hshown.same .power (by decide) (by decide)]; exact hheld
  obtain ⟨hholding, hlinks, hbus, hhbm, -⟩ := State.tryRelease_limited hheld' hbit
  have hdoes := State.tryRelease_does_blocks hheld'
  have hsec := fun a (h : regBlk a = 18) => hdoes.regs (by decide) a (by rw [h]; decide)
  have hon : u.blkOn 12 = s.blkOn 12 := State.bit_congr _ (hshown.regs (by decide) _ (by decide))
  exact {
    bit := by
      unfold State.bit at hbit ⊢
      rw [State.tryRelease_rstcause hheld' (by decide)]
      exact hbit
    state := (State.fld_congr _ (hsec _ adr_SEC_STAT.here)).trans hstat
    why := (State.fld_congr _ (hsec _ adr_SEC_STAT.here)).trans hwhy
    holding := hholding
    links := hlinks
    bus := hbus
    hbm := hhbm.trans hon
    boots := congrArg Mgt.boots ((hdoes.same .mgt (by decide) (by decide)).trans (hshown.same .mgt (by decide) (by decide)))
    spill := (hdoes.same .spill (by decide) (by decide)).trans (hshown.same .spill (by decide) (by decide))
    count := (hdoes.same .count (by decide) (by decide)).trans (hshown.same .count (by decide) (by decide)) }

end Sys2Proof.Machine
end

section
/-! The boot ROM (O41; R469, R503, R506). -/
namespace Sys2Proof.Machine

variable {s t u : State} {selfTest floors hss slotA slotB : Bool}

/-! ## The boot begins -/

/-- One boot more. -/
def State.bootCounted (s : State) : State := { s with mgt := { s.mgt with boots := s.mgt.boots + 1 } }

/-- The floors, APPROVED and the count of the seals, from the fuses and from flash. -/
def State.bootBegun (s : State) : State :=
  (List.range 4).foldl (fun s f => s.setReg (aSEC_FLOOR f) (BitVec.ofNat 32 (s.sec.floors.getD f 0)))
    (s.bootCounted.setBit aSEC_STAT fSEC_STAT_APPROVED s.bootCounted.sec.approvedFuse).showSealq

theorem State.bootCounted_does : Does [.mgt] [] s s.bootCounted := Does.put_mgt (by decide) Does.refl

theorem State.bootShown_does : Does [] [18] s.bootCounted s.bootBegun :=
  Does.foldl (fun _ _ => Does.setReg adr_SEC_FLOOR (by decide) Does.refl)
    (State.showSealq_does.call (by decide) (Does.setBit adr_SEC_STAT (by decide) Does.refl))

theorem State.bootBegun_does : Does [.mgt] [18] s s.bootBegun := State.bootShown_does.call (by decide) (State.bootCounted_does.mono (by decide))

theorem State.bootBegun_mgt (s : State) : s.bootBegun.mgt = { s.mgt with boots := s.mgt.boots + 1 } :=
  State.bootShown_does.same .mgt (by decide) (by decide)

/-- The HSS state recovered and the trial counted. -/
def State.bootReady (hss : Bool) (s : State) : State := (s.bootBegun.recoverHss hss).bootTrial

/-- A slot taken, as the registers show it. -/
def State.slotTaken (b : Nat) (s : State) : State :=
  (((s.setFld aSEC_STAT fSEC_STAT_STATE seReady).setFld aSEC_STAT fSEC_STAT_SLOT b).setReg aSEC_FWVER (s.fwSlot b).version).setFld
    aGLB_RSTCAUSE fGLB_RSTCAUSE_STEP 3

/-- The firmware of a slot started: the log entry and the release of the die. -/
def State.slotBooted (b : Nat) (s : State) : State := ((s.slotTaken b).log 0x0A b (leBytes 1 5)).tryRelease []

theorem State.bootRom_zeroised (h : s.sec.zeroisedFuse = true) :
    s.bootRom selfTest floors hss slotA slotB = (s.bootBegun.log 0x0A 0 (leBytes 1 1)).limited 4 seZeroised 1 := by
  have hsec : s.bootBegun.sec.zeroisedFuse = true := by rw [State.bootBegun_does.same .sec (by decide) (by decide)]; exact h
  exact if_pos hsec

theorem State.bootRom_selfTest (h : s.sec.zeroisedFuse = false) : s.bootRom false floors hss slotA slotB =
    ((((s.bootBegun.log 0x0A 0 (leBytes 1 1)).limited 1 seError 1).latch aSEC_LAT fSEC_LAT_STFAIL).causeOn 112 0).raise 112 islSecurity := by
  have hsec : ¬ s.bootBegun.sec.zeroisedFuse = true := by
    rw [State.bootBegun_does.same .sec (by decide) (by decide), h]; decide
  exact (if_neg hsec).trans (if_pos rfl)

theorem State.bootRom_floors (h : s.sec.zeroisedFuse = false) : s.bootRom true false hss slotA slotB =
    (((s.bootBegun.recoverHss hss).log 0x0A 0 (leBytes 1 2)).limited 2 seReady 2).raise 112 islSecurity := by
  have hsec : ¬ s.bootBegun.sec.zeroisedFuse = true := by
    rw [State.bootBegun_does.same .sec (by decide) (by decide), h]; decide
  exact (if_neg hsec).trans ((if_neg (by decide)).trans (if_pos rfl))

theorem State.bootRom_none (h : s.sec.zeroisedFuse = false)
    (hslot : (s.bootReady hss).bootSlot (fun b => if b = 0 then slotA else slotB) = none) : s.bootRom true true hss slotA slotB =
      ((s.bootReady hss).log 0x0A 0 (leBytes 1 4)).limited 3 seReady 2 := by
  have hsec : ¬ s.bootBegun.sec.zeroisedFuse = true := by
    rw [State.bootBegun_does.same .sec (by decide) (by decide), h]; decide
  refine (if_neg hsec).trans ((if_neg (by decide)).trans ((if_neg (by decide)).trans ?_))
  change (match (s.bootReady hss).bootSlot (fun b => if b = 0 then slotA else slotB) with | none => _ | some b => _) = _
  rw [hslot]
  rfl

theorem State.bootRom_slot {b : Nat} (h : s.sec.zeroisedFuse = false)
    (hslot : (s.bootReady hss).bootSlot (fun b => if b = 0 then slotA else slotB) = some b) : s.bootRom true true hss slotA slotB =
      if b = (s.bootReady hss).activeSlot then (s.bootReady hss).slotBooted b
      else (((s.bootReady hss).slotBooted b).latch aSEC_LAT fSEC_LAT_BOOTFB).raise 113 islManagement := by
  have hsec : ¬ s.bootBegun.sec.zeroisedFuse = true := by
    rw [State.bootBegun_does.same .sec (by decide) (by decide), h]; decide
  refine (if_neg hsec).trans ((if_neg (by decide)).trans ((if_neg (by decide)).trans ?_))
  change (match (s.bootReady hss).bootSlot (fun b => if b = 0 then slotA else slotB) with | none => _ | some b => _) = _
  rw [hslot]
  rfl

end Sys2Proof.Machine
end

section
/-! Power-on and the input supply: what a boot leaves, and the statement (O41; R469, R503, R506, R513). -/
namespace Sys2Proof.Machine

variable {s t u : State} {hss slotA slotB : Bool} {cause : Nat}

/-! ## A slot booted -/

/-- What the firmware of a slot finds once the die is released. -/
structure SlotBooted (b : Nat) (u t : State) : Prop where
  cause : t.fld aGLB_RSTCAUSE fGLB_RSTCAUSE_CAUSE = u.fld aGLB_RSTCAUSE fGLB_RSTCAUSE_CAUSE
  step : t.fld aGLB_RSTCAUSE fGLB_RSTCAUSE_STEP = 4
  state : t.fld aSEC_STAT fSEC_STAT_STATE = seReady
  slot : t.fld aSEC_STAT fSEC_STAT_SLOT = b
  version : t.reg aSEC_FWVER = (u.fwSlot b).version
  boots : t.mgt.boots = u.mgt.boots
  holding : t.power.holding = []
  drivers : ∀ ch, t.drvEn ch = u.drvEn ch
  spill : t.spill = u.spill
  hbm : t.hbmMem = u.hbmMem
  oven : u.power.oven = false → t.causeStands 11 = true ∧ Raises 11 islManagement u t

theorem State.slotTaken_does {b : Nat} : Does [] [0, 18] s (s.slotTaken b) :=
  Does.setFld adr_GLB_RSTCAUSE (by decide) (Does.setReg adr_SEC_FWVER (by decide) (Does.setFld adr_SEC_STAT (by decide)
    (Does.setFld adr_SEC_STAT (by decide) Does.refl)))

theorem State.slotTaken_shows (s : State) {b : Nat} (hb : b < 2) : let t := s.slotTaken b
    t.fld aSEC_STAT fSEC_STAT_STATE = seReady ∧ t.fld aSEC_STAT fSEC_STAT_SLOT = b ∧ t.reg aSEC_FWVER = (s.fwSlot b).version ∧
      ∀ f : Fld, f.hi < fGLB_RSTCAUSE_STEP.lo ∨ fGLB_RSTCAUSE_STEP.hi < f.lo → t.fld aGLB_RSTCAUSE f = s.fld aGLB_RSTCAUSE f := by
  have hstat : (s.slotTaken b).reg aSEC_STAT =
      ((s.setFld aSEC_STAT fSEC_STAT_STATE seReady).setFld aSEC_STAT fSEC_STAT_SLOT b).reg aSEC_STAT :=
    (State.reg_setReg_ne _ _ (by decide)).trans (State.reg_setReg_ne _ _ (by decide))
  refine ⟨(State.fld_congr _ hstat).trans ((State.fld_setFld_beside _ _ _ _ _ (by decide) (by decide) (by decide)).trans
      (State.fld_setFld_self _ _ _ _ (by decide) (by decide))),
    (State.fld_congr _ hstat).trans ((State.fld_setFld_self _ _ _ _ (by decide) (by decide)).trans (Nat.mod_eq_of_lt hb)),
    (State.reg_setReg_ne _ _ (by decide)).trans (State.reg_setReg_self _ _ _), fun f hf => ?_⟩
  refine (State.fld_setFld_beside _ _ _ _ _ (by decide) (by decide) hf).trans (State.fld_congr _ ?_)
  exact (State.reg_setReg_ne _ _ (by decide)).trans ((State.reg_setReg_ne _ _ (by decide)).trans (State.reg_setReg_ne _ _ (by decide)))

theorem regBlk_chCtl (n c : Nat) : 64 ≤ regBlk (aCH_CTL n c) := by unfold regBlk aCH_CTL; omega

theorem State.drvEn_of_does {ps : List Part} {bs : List Nat} (h : Does ps bs s t) (hps : .regs ∉ ps) (hbs : ∀ b ∈ bs, b < 64) (ch : Nat) :
    t.drvEn ch = s.drvEn ch :=
  State.bit_congr _ (h.regs hps _ (fun hin => Nat.not_lt.mpr (regBlk_chCtl _ _) (hbs _ hin)))

theorem State.slotBooted_boots (u : State) {b : Nat} (hb : b < 2) (hheld : u.power.holding ≠ [])
    (hfull : u.bit aGLB_RSTCAUSE fGLB_RSTCAUSE_LIMITED = false) : SlotBooted b u (u.slotBooted b) := by
  obtain ⟨hstate, hslot, hver, hrst⟩ := u.slotTaken_shows hb
  have htaken := State.slotTaken_does (s := u) (b := b)
  have hlog : Does [.mgt] [16] (u.slotTaken b) ((u.slotTaken b).log 0x0A b (leBytes 1 5)) := State.log_does
  have hlogmgt := (u.slotTaken b).log_mgt 0x0A b (leBytes 1 5)
  have hall : Does [.mgt] [0, 16, 18] u ((u.slotTaken b).log 0x0A b (leBytes 1 5)) :=
    State.log_does.call (by decide) (htaken.mono (by decide))
  have htakenmgt : (u.slotTaken b).mgt = u.mgt := htaken.same .mgt (by decide) (by decide)
  have hkept := fun a (h : regBlk a ≠ 16) => hlog.regs (by decide) a (by simpa using h)
  unfold State.slotBooted
  generalize u.slotTaken b = w at *
  generalize w.log 0x0A b (leBytes 1 5) = x at *
  have hpower : x.power = u.power := hall.same .power (by decide) (by decide)
  have hheld' : x.power.holding ≠ [] := by rw [hpower]; exact hheld
  have hglb : ∀ f : Fld, f.hi < fGLB_RSTCAUSE_STEP.lo ∨ fGLB_RSTCAUSE_STEP.hi < f.lo →
      x.fld aGLB_RSTCAUSE f = u.fld aGLB_RSTCAUSE f := fun f hf =>
    (State.fld_congr _ (hkept _ (by decide))).trans (hrst f hf)
  have hfull' : x.bit aGLB_RSTCAUSE fGLB_RSTCAUSE_LIMITED = false := by
    unfold State.bit at hfull ⊢
    rw [hglb _ (by decide)]
    exact hfull
  obtain ⟨hholding, hstep, -, -, -, -, hoven, -⟩ := State.tryRelease_full hheld' hfull'
  have hdoes := State.tryRelease_does_blocks hheld'
  have hcause := fun {f} => State.tryRelease_rstcause hheld' (f := f)
  generalize x.tryRelease [] = t at *
  have hsec := fun a (h : regBlk a = 18) =>
    (hdoes.regs (by decide) a (by rw [h]; decide)).trans (hkept a (by rw [h]; decide))
  exact {
    cause := (hcause (by decide)).trans (hglb _ (by decide))
    step := hstep
    state := (State.fld_congr _ (hsec _ adr_SEC_STAT.here)).trans hstate
    slot := (State.fld_congr _ (hsec _ adr_SEC_STAT.here)).trans hslot
    version := (hsec _ adr_SEC_FWVER.here).trans hver
    boots := by rw [hdoes.same .mgt (by decide) (by decide), hlogmgt, htakenmgt]
    holding := hholding
    drivers := fun ch => (State.drvEn_of_does hdoes (by decide) (by decide) ch).trans
      (State.drvEn_of_does hall (by decide) (by decide) ch)
    spill := (hdoes.same .spill (by decide) (by decide)).trans (hall.same .spill (by decide) (by decide))
    hbm := (hdoes.same .hbmMem (by decide) (by decide)).trans (hall.same .hbmMem (by decide) (by decide))
    oven := fun hcold => by
      obtain ⟨hstands, hraise⟩ := hoven (by rw [hpower]; exact hcold)
      have hcount : x.count = u.count := hall.same .count (by decide) (by decide)
      exact ⟨hstands, by unfold Raises at hraise ⊢; rwa [hcount] at hraise⟩ }

/-! ## The slot that the boot ROM uses -/

/-- Signing resumed at an index. -/
def State.hssAt (q : Nat) (s : State) : State := { s with sec := { s.sec with q := q, reservedTo := q } }

/-- The tree of the index taken, or waited for, where it is another one (R474). -/
def State.treeAt (f : Fld) (q was : Nat) (s : State) : State :=
  if q / 2 ^ 20 = was then s else if s.bit aSEC_HSSE f then s.setBit aSEC_HSSE f false else s.latch aSEC_STAT fSEC_STAT_TREEWAIT

/-- The index at which signing resumes. -/
def State.hssResume (s : State) (good : Bool) : Nat :=
  if good then s.sec.reservedTo else s.fld aSEC_HSSE fSEC_HSSE_E * 2 ^ 28

theorem State.recoverHss_eq (s : State) (good : Bool) : s.recoverHss good = ((s.hssAt (s.hssResume good)).treeAt
    (if good then fSEC_HSSE_NREADY else fSEC_HSSE_EREADY) (s.hssResume good) (s.sec.q / 2 ^ 20)).showHss := rfl

theorem State.recoverHss_floors (s : State) (good : Bool) : (s.recoverHss good).sec.floors = s.sec.floors := by
  have htree : ∀ (t : State) (f : Fld) (q was : Nat), (t.treeAt f q was).sec = t.sec := fun t f q was =>
    iteInduction (motive := fun u : State => u.sec = t.sec) (fun _ => rfl)
      (fun _ => iteInduction (motive := fun u : State => u.sec = t.sec) (fun _ => rfl) (fun _ => rfl))
  rw [State.recoverHss_eq, State.showHss_does.same .sec (by decide) (by decide), htree]
  rfl

theorem State.bootTrial_none (h : s.bit aMGT_FW fMGT_FW_TRIAL = false) : s.bootTrial = s := if_neg (by rw [h]; decide)

/-- What a boot without a trial finds. -/
structure BootReady (s t : State) : Prop where
  does : Does [.agenda, .causes, .fresh, .sec, .mgt] [18] s t
  floors : t.sec.floors = s.sec.floors
  mgt : t.mgt = { s.mgt with boots := s.mgt.boots + 1 }

theorem State.recovered_ready (s : State) (hss : Bool) : BootReady s (s.bootBegun.recoverHss hss) := by
  have hbegun := State.bootBegun_does (s := s)
  have hrecover := State.recoverHss_does (s := s.bootBegun) (good := hss)
  refine ⟨hrecover.call (by decide) (hbegun.mono (by decide)), ?_, ?_⟩
  · rw [State.recoverHss_floors, hbegun.same .sec (by decide) (by decide)]
  · rw [hrecover.same .mgt (by decide) (by decide), s.bootBegun_mgt]

theorem State.bootReady_eq (h : s.bit aMGT_FW fMGT_FW_TRIAL = false) (hss : Bool) : s.bootReady hss = s.bootBegun.recoverHss hss := by
  have hready := s.recovered_ready hss
  exact State.bootTrial_none ((State.bit_congr _ (hready.does.regs (by decide) _ (by decide))).trans h)

/-- The slot is good: valid, its signatures verify, and its VERSION is not below the floor (R469). -/
def State.slotGood (s : State) (good : Nat → Bool) (b : Nat) : Bool :=
  (s.fwSlot b).valid && good b && decide (s.sec.floors.getD 0 0 ≤ (s.fwSlot b).version.toNat)

theorem State.bootSlot_eq (s : State) (good : Nat → Bool) : s.bootSlot good =
    if s.slotGood good s.activeSlot then some s.activeSlot
    else if s.slotGood good (1 - s.activeSlot) then some (1 - s.activeSlot) else none := rfl

end Sys2Proof.Machine
end

section
/-! Power-on and the input supply: the statement (O41; R469, R503, R506, R513). -/
namespace Sys2Proof.Machine

variable {s t u : State} {hss slotA slotB : Bool} {cause : Nat}

/-! ## The module after a clearing -/

theorem powerKeeps_of_blk {a : Nat} (h : a / 0x100000 ≠ 16 ∧ a / 0x100000 ≠ 18) : powerKeeps a = false := by
  have hslots : a ≠ aSEC_SLOTS := fun e => h.2 (by rw [e]; decide)
  have hlog : ¬ (aMGT_LOGNEXT ≤ a ∧ a < aMGT_LOGOLD + 8) := fun ⟨hlo, hhi⟩ => h.1 (by
    unfold aMGT_LOGNEXT at hlo; unfold aMGT_LOGOLD at hhi; omega)
  unfold powerKeeps
  rw [beq_eq_false_iff_ne.mpr hslots, Bool.or_false, Bool.and_eq_false_iff, decide_eq_false_iff_not, decide_eq_false_iff_not]
  exact not_and_or.mp hlog

theorem State.powerCleared_drvEn (s : State) (cause : Nat) (ch : Chan) : (s.powerCleared cause).drvEn ch.val = false := by
  have hoff := State.reset_drvEn ch
  unfold State.drvEn at hoff ⊢
  refine (State.bit_congr _ ?_).trans hoff
  have hblk : aCH_CTL (islOf ch.val) (locOf ch.val) / 0x100000 ≠ 16 ∧ aCH_CTL (islOf ch.val) (locOf ch.val) / 0x100000 ≠ 18 := by
    unfold aCH_CTL; omega
  rw [State.powerCleared_reg (powerKeeps_of_blk hblk) (by
    simp only [clearedRegs, aCH_CTL, aMGT_FW, aSEC_HSSE, aTBS_STATE, aMGT_FWVER, aGLB_RSTCAUSE, List.mem_cons, List.not_mem_nil, or_false]
    omega), State.reset_reg_of_ne (chCtl_ne _ _).1]

theorem State.powerCleared_hbmOff (s : State) (cause : Nat) : (s.powerCleared cause).blkOn 12 = false := by
  have hreset := State.reset_blkOn 12
  have hreg : (s.powerCleared cause).reg (12 * 0x100000 + 4) = State.reset.reg (12 * 0x100000 + 4) := by
    rw [State.powerCleared_reg (by decide) (by decide), State.reset_reg_of_ne (by decide)]
  exact (State.bit_congr _ hreg).trans hreset

theorem State.powerCleared_causeFlds (s : State) (hcause : cause < 16) :
    (s.powerCleared cause).fld aGLB_RSTCAUSE fGLB_RSTCAUSE_CAUSE = cause ∧
      (s.powerCleared cause).bit aGLB_RSTCAUSE fGLB_RSTCAUSE_LIMITED = false := by
  unfold State.bit State.fld
  rw [State.powerCleared_rstcause]
  interval_cases cause <;> decide

theorem State.powerCleared_trial (s : State) (cause : Nat) :
    (s.powerCleared cause).bit aMGT_FW fMGT_FW_TRIAL = s.bit aMGT_FW fMGT_FW_TRIAL := by
  unfold State.bit
  rw [State.powerCleared_fwFld (by decide) (by decide)]

/-! ## A boot after a clearing -/

/-- What a boot without a trial finds after a clearing. -/
structure PowerReady (s u : State) : Prop where
  cause : u.fld aGLB_RSTCAUSE fGLB_RSTCAUSE_CAUSE = if rcActivate ∈ s.power.holding then rcActivate else rcPower
  full : u.bit aGLB_RSTCAUSE fGLB_RSTCAUSE_LIMITED = false
  held : u.power.holding ≠ []
  active : u.activeSlot = s.fld aMGT_FW fMGT_FW_ACTIVE
  fwA : u.fwSlot 0 = s.mgt.fwA
  fwB : u.fwSlot 1 = s.mgt.fwB
  floors : u.sec.floors = s.sec.floors
  boots : u.mgt.boots = s.mgt.boots + 1
  drivers : ∀ ch : Chan, u.drvEn ch.val = false
  hbmOff : u.blkOn 12 = false
  spill : u.spill = s.spill
  count : u.count = 0
  cold : rcActivate ∉ s.power.holding → u.power.oven = false ∧ u.hbmMem = []

/-- Why the module restarts (R506). -/
def State.powerCause (s : State) : Nat := if rcActivate ∈ s.power.holding then rcActivate else rcPower

theorem State.powerCause_lt (s : State) : s.powerCause < 16 := by
  unfold State.powerCause; split <;> decide

theorem exec_powerOn_eq {selfTest floors : Bool} : exec (.powerOn selfTest ⟨floors, hss⟩ slotA slotB) s =
    .next ((s.powerCleared s.powerCause).bootRom selfTest floors hss slotA slotB) := rfl

theorem State.power_ready (s : State) (h : BootReady (s.powerCleared s.powerCause) u) : PowerReady s u := by
  obtain ⟨hdoes, hfloors, hmgt⟩ := h
  have hclear := s.powerCleared_clears s.powerCause
  obtain ⟨hcause, hlimited⟩ := s.powerCleared_causeFlds s.powerCause_lt
  have hglb : u.reg aGLB_RSTCAUSE = (s.powerCleared s.powerCause).reg aGLB_RSTCAUSE := hdoes.regs (by decide) _ (by decide)
  have hfw : u.reg aMGT_FW = (s.powerCleared s.powerCause).reg aMGT_FW := hdoes.regs (by decide) _ (by decide)
  have hpower : u.power = (s.powerCleared s.powerCause).power := hdoes.same .power (by decide) (by decide)
  have hcold : rcActivate ∉ s.power.holding → s.powerCause = rcPower := fun hno => if_neg hno
  exact {
    cause := (State.fld_congr _ hglb).trans hcause
    full := (State.bit_congr _ hglb).trans hlimited
    held := by rw [hpower, hclear.holding]; exact List.cons_ne_nil _ _
    active := (State.fld_congr _ hfw).trans (State.powerCleared_fwFld (by decide) (by decide))
    fwA := by rw [← hclear.fwA]; exact (congrArg Mgt.fwA hmgt :)
    fwB := by rw [← hclear.fwB]; exact (congrArg Mgt.fwB hmgt :)
    floors := hfloors.trans hclear.floors
    boots := by rw [← hclear.boots]; exact (congrArg Mgt.boots hmgt :)
    drivers := fun ch => (State.drvEn_of_does hdoes (by decide) (by decide) _).trans (s.powerCleared_drvEn _ ch)
    hbmOff := (State.bit_congr _ (hdoes.regs (by decide) _ (by decide))).trans (s.powerCleared_hbmOff _)
    spill := (hdoes.same .spill (by decide) (by decide)).trans hclear.spill
    count := (hdoes.same .count (by decide) (by decide)).trans hclear.count
    cold := fun hno => ⟨by rw [hpower]; exact hclear.cold (hcold hno),
      (hdoes.same .hbmMem (by decide) (by decide)).trans (hclear.hbm.trans (if_pos (hcold hno)))⟩ }

/-- The state of a boot in which the log tells of it: what it finds is as before. -/
theorem PowerReady.logged (h : PowerReady s u) (code : Nat) (payload : List Byte) : let t := u.log 0x0A code payload
    t.power.holding ≠ [] ∧ t.mgt.boots = s.mgt.boots + 1 ∧ t.blkOn 12 = false ∧ t.spill = s.spill ∧ t.count = 0 := by
  have hlog : Does [.mgt] [16] u (u.log 0x0A code payload) := State.log_does
  refine ⟨by rw [hlog.same .power (by decide) (by decide)]; exact h.held, by rw [u.log_mgt]; exact h.boots,
    (State.bit_congr _ (hlog.regs (by decide) _ (by decide))).trans h.hbmOff,
    (hlog.same .spill (by decide) (by decide)).trans h.spill, (hlog.same .count (by decide) (by decide)).trans h.count⟩

/-- What a limited boot shows (R469). -/
structure LimitedBoot (why state : Nat) (s t : State) : Prop where
  bit : t.bit aGLB_RSTCAUSE fGLB_RSTCAUSE_LIMITED = true
  state : t.fld aSEC_STAT fSEC_STAT_STATE = state
  why : t.fld aSEC_STAT fSEC_STAT_LIMIT = why
  holding : t.power.holding = []
  links : t.blkOn 13 = true
  bus : t.blkOn 3 = true
  hbm : t.blkOn 12 = false
  boots : t.mgt.boots = s.mgt.boots + 1
  spill : t.spill = s.spill

theorem PowerReady.limited (h : PowerReady s u) (code : Nat) (payload : List Byte) {why state : Nat} (step : Nat) (hwhy : why < 8)
    (hstate : state < 8) : LimitedBoot why state s ((u.log 0x0A code payload).limited why state step) ∧
      ((u.log 0x0A code payload).limited why state step).count = 0 := by
  obtain ⟨hheld, hboots, hhbm, hspill, hcount⟩ := h.logged code payload
  have hlim := (u.log 0x0A code payload).limited_shows step hwhy hstate hheld
  exact ⟨⟨hlim.bit, hlim.state, hlim.why, hlim.holding, hlim.links, hlim.bus, hlim.hbm.trans hhbm, hlim.boots.trans hboots,
    hlim.spill.trans hspill⟩, hlim.count.trans hcount⟩

/-- What shows in no register but that of the security island's faults leaves a limited boot as it is. -/
theorem LimitedBoot.of_does {ps : List Part} {why state : Nat} (h : LimitedBoot why state s t) (hd : Does ps [] t u)
    (hps : .regs ∉ ps ∧ .power ∉ ps ∧ .mgt ∉ ps ∧ .spill ∉ ps) : LimitedBoot why state s u := by
  obtain ⟨hregs, hpower, hmgt, hspill⟩ := hps
  have hreg := fun a => hd.regs hregs a (by simp)
  exact ⟨(State.bit_congr _ (hreg _)).trans h.bit, (State.fld_congr _ (hreg _)).trans h.state, (State.fld_congr _ (hreg _)).trans h.why,
    by rw [hd.same .power hpower (by decide)]; exact h.holding, (State.bit_congr _ (hreg _)).trans h.links,
    (State.bit_congr _ (hreg _)).trans h.bus, (State.bit_congr _ (hreg _)).trans h.hbm,
    by rw [hd.same .mgt hmgt (by decide)]; exact h.boots, (hd.same .spill hspill (by decide)).trans h.spill⟩

theorem LimitedBoot.latch {why state : Nat} (h : LimitedBoot why state s t) (f : Fld) : LimitedBoot why state s (t.latch aSEC_LAT f) := by
  have hreg := fun {a} (ha : a ≠ aSEC_LAT) => State.reg_latch_ne t f ha
  exact ⟨(State.bit_congr _ (hreg (by decide))).trans h.bit, (State.fld_congr _ (hreg (by decide))).trans h.state,
    (State.fld_congr _ (hreg (by decide))).trans h.why, h.holding, (State.bit_congr _ (hreg (by decide))).trans h.links,
    (State.bit_congr _ (hreg (by decide))).trans h.bus, (State.bit_congr _ (hreg (by decide))).trans h.hbm, h.boots, h.spill⟩

/-- A slot booted after a clearing. -/
structure Booted (x : FwSlot) (n : Nat) (s t : State) : Prop where
  cause : t.fld aGLB_RSTCAUSE fGLB_RSTCAUSE_CAUSE = s.powerCause
  step : t.fld aGLB_RSTCAUSE fGLB_RSTCAUSE_STEP = 4
  state : t.fld aSEC_STAT fSEC_STAT_STATE = seReady
  slot : t.fld aSEC_STAT fSEC_STAT_SLOT = n
  version : t.reg aSEC_FWVER = x.version
  boots : t.mgt.boots = s.mgt.boots + 1
  holding : t.power.holding = []
  drivers : ∀ ch : Chan, t.drvEn ch.val = false
  spill : t.spill = s.spill
  cold : s.powerCause = rcPower → t.hbmMem = [] ∧ t.causeStands 11 = true ∧
    (⟨cyc 64, .island islManagement, .raise 11 islManagement⟩ : Due) ∈ t.agenda

theorem PowerReady.booted (h : PowerReady s u) {b : Nat} {x : FwSlot} (hb : b < 2) (hx : u.fwSlot b = x) :
    Booted x b s (u.slotBooted b) := by
  have hbooted := u.slotBooted_boots hb h.held h.full
  refine ⟨hbooted.cause.trans h.cause, hbooted.step, hbooted.state, hbooted.slot, hbooted.version.trans (by rw [hx]),
    hbooted.boots.trans h.boots, hbooted.holding, fun ch => (hbooted.drivers _).trans (h.drivers ch), hbooted.spill.trans h.spill,
    fun hcause => ?_⟩
  have hno : rcActivate ∉ s.power.holding := fun hin => absurd ((if_pos hin).symm.trans hcause) (by decide)
  obtain ⟨hoven, hhbm⟩ := h.cold hno
  obtain ⟨hstands, hraise⟩ := hbooted.oven hoven
  refine ⟨hbooted.hbm.trans hhbm, hstands, ?_⟩
  unfold Raises at hraise
  rwa [h.count, show (0 : Count) + cyc 64 = cyc 64 from BitVec.zero_add _] at hraise

theorem Booted.fallback {x : FwSlot} {n : Nat} (h : Booted x n s t) : let w := (t.latch aSEC_LAT fSEC_LAT_BOOTFB).raise 113 islManagement
    Booted x n s w ∧ w.bit aSEC_LAT fSEC_LAT_BOOTFB = true := by
  have hreg : ∀ {a}, a ≠ aSEC_LAT → ((t.latch aSEC_LAT fSEC_LAT_BOOTFB).raise 113 islManagement).reg a = t.reg a :=
    fun ha => (State.raise_does.regs (by decide) _ (by simp)).trans (State.reg_latch_ne t fSEC_LAT_BOOTFB ha)
  have hchan : ∀ ch : Chan, aCH_CTL (islOf ch.val) (locOf ch.val) ≠ aSEC_LAT := fun ch => by unfold aCH_CTL aSEC_LAT; omega
  refine ⟨⟨(State.fld_congr _ (hreg (by decide))).trans h.cause, (State.fld_congr _ (hreg (by decide))).trans h.step,
    (State.fld_congr _ (hreg (by decide))).trans h.state, (State.fld_congr _ (hreg (by decide))).trans h.slot,
    (hreg (by decide)).trans h.version, h.boots, h.holding, fun ch => (State.bit_congr _ (hreg (hchan ch))).trans (h.drivers ch), h.spill,
    fun hcause => ?_⟩, ?_⟩
  · obtain ⟨hhbm, hstands, hraise⟩ := h.cold hcause
    refine ⟨hhbm, hstands, ?_⟩
    rw [State.raise_agenda]
    exact (mem_insertDue _ _ _).mpr (.inr hraise)
  · exact (State.bit_congr _ (State.raise_does.regs (by decide) _ (by simp))).trans (State.bit_latch_self t aSEC_LAT _ rfl (by decide))

end Sys2Proof.Machine
end

section
/-! Power-on and the input supply: the statement (O41; R469, R503, R506, R513). -/
namespace Sys2Proof.Machine

variable {s t u : State} {hss slotA slotB : Bool}

theorem State.powerCleared_bootReady (h : s.bit aMGT_FW fMGT_FW_TRIAL = false) (hss : Bool) :
    BootReady (s.powerCleared s.powerCause) ((s.powerCleared s.powerCause).bootReady hss) := by
  rw [State.bootReady_eq ((s.powerCleared_trial _).trans h)]
  exact State.recovered_ready _ hss

theorem State.bootBegun_ready (s : State) : BootReady s s.bootBegun :=
  ⟨State.bootBegun_does.mono (by decide), by rw [State.bootBegun_does.same .sec (by decide) (by decide)], s.bootBegun_mgt⟩

theorem State.powerCleared_zeroised (s : State) : (s.powerCleared s.powerCause).sec.zeroisedFuse = s.sec.zeroisedFuse :=
  (s.powerCleared_clears _).zeroised

theorem exec_inputOutOfRange_out (h : s.power.onHoldup = false) : exec .inputOutOfRange s =
    .next (({ s with power := { s.power with onHoldup := true, outSince := s.mgt.uptime } }.causeOn 124 0).raise 124 islManagement) :=
  congrArg Host.Outcome.next (if_neg (by rw [h]; decide))

/-- The store that is exhausted: the log entry and the reset (R513). -/
def State.exhausted (s : State) : State := (s.log 0x01 124 (leBytes 1 0)).engineDieReset rcPower

theorem exec_holdupExhausted_due (h : s.power.onHoldup = true) (hdue : s.power.outSince + 30 ≤ s.mgt.uptime) : exec .holdupExhausted s =
    .next { s.exhausted with power := { s.exhausted.power with holding := [rcPower] } } :=
  congrArg Host.Outcome.next (if_pos ⟨h, hdue⟩)

theorem DieHeld.own {cause : Nat} (h : DieHeld cause s t) : t.bit aTWN_STAT fTWN_STAT_OWN = false := by
  have hoff := State.reset_own
  refine (State.bit_congr _ ?_).trans hoff
  rw [h.reset _ (by decide) (by decide) (by decide), State.reset_reg_of_ne (by decide)]

/-- Settles O41: a power-on is `State.powerCleared_clears` and then one of `PowerReady.booted`, `Booted.fallback` and
`PowerReady.limited`; the exhausted store is `State.engineDieReset_held`. -/
theorem powerAndInput : Obligations.PowerAndInput := by
  unfold Obligations.PowerAndInput
  intro hss slotB slotA f s cause newOk booted limited plainBoot
  have hlimited : ∀ {why state : Nat} {t : State}, LimitedBoot why state s t → limited why state t := fun h =>
    ⟨h.bit, h.state, h.why, h.holding, h.links, h.bus, h.hbm, h.boots, h.spill⟩
  have hbooted : ∀ {x : FwSlot} {n : Nat} {t : State}, Booted x n s t → booted x n t := fun h =>
    ⟨h.cause, h.step, h.state, h.slot, h.version, h.boots, h.holding, h.drivers, h.spill, h.cold⟩
  refine ⟨fun hplain hok => ?active, fun hplain hbad hok => ?fallback, fun hzero => ?zeroised, fun hzero => ?selfTest,
    fun hzero => ?floors, fun hplain => ?none, fun hin => ?outOfRange, fun hin => ⟨s, congrArg _ (if_pos hin), rfl⟩, ?back,
    fun hout hdue => ?exhausted, fun hnot => ⟨s, congrArg _ (if_neg ?_), rfl⟩⟩
  case active =>
    obtain ⟨hzero, htrial, hactive⟩ := hplain
    obtain ⟨hvalid, hfloor⟩ := hok
    have hready := State.power_ready s (s.powerCleared_bootReady htrial hss)
    have hzero' := s.powerCleared_zeroised.trans hzero
    have hact : ((s.powerCleared s.powerCause).bootReady hss).activeSlot = 0 := hready.active.trans hactive
    have hgood : ((s.powerCleared s.powerCause).bootReady hss).slotGood (fun b => if b = 0 then true else slotB) 0 = true := by
      unfold State.slotGood
      rw [hready.fwA, hready.floors, hvalid, decide_eq_true hfloor]
      rfl
    have hslot : ((s.powerCleared s.powerCause).bootReady hss).bootSlot (fun b => if b = 0 then true else slotB) = some 0 := by
      rw [State.bootSlot_eq, hact, if_pos hgood]
    exact ⟨_, exec_powerOn_eq, by
      rw [State.bootRom_slot hzero' hslot, if_pos hact.symm]
      exact hbooted (hready.booted (by decide) hready.fwA)⟩
  case fallback =>
    obtain ⟨hzero, htrial, hactive⟩ := hplain
    obtain ⟨hvalid, hfloor⟩ := hok
    have hready := State.power_ready s (s.powerCleared_bootReady htrial hss)
    have hzero' := s.powerCleared_zeroised.trans hzero
    have hact : ((s.powerCleared s.powerCause).bootReady hss).activeSlot = 0 := hready.active.trans hactive
    have hnot : ¬ ((s.powerCleared s.powerCause).bootReady hss).slotGood (fun b => if b = 0 then slotA else true) 0 = true := by
      unfold State.slotGood
      rw [hready.fwA]
      obtain h | h := hbad <;> simp [h]
    have hgood : ((s.powerCleared s.powerCause).bootReady hss).slotGood (fun b => if b = 0 then slotA else true) 1 = true := by
      unfold State.slotGood
      rw [hready.fwB, hready.floors, hvalid, decide_eq_true hfloor]
      rfl
    have hslot : ((s.powerCleared s.powerCause).bootReady hss).bootSlot (fun b => if b = 0 then slotA else true) = some 1 := by
      rw [State.bootSlot_eq, hact, if_neg hnot, if_pos hgood]
    exact ⟨_, exec_powerOn_eq, by
      rw [State.bootRom_slot hzero' hslot, if_neg (by rw [hact]; decide)]
      obtain ⟨hboot, hlat⟩ := (hready.booted (by decide) hready.fwB).fallback
      exact ⟨hbooted hboot, hlat⟩⟩
  case zeroised =>
    have hready := State.power_ready s (State.bootBegun_ready (s.powerCleared s.powerCause))
    refine ⟨_, exec_powerOn_eq, ?_⟩
    rw [State.bootRom_zeroised (s.powerCleared_zeroised.trans hzero)]
    exact hlimited (hready.limited _ _ _ (by decide) (by decide)).1
  case selfTest =>
    have hready := State.power_ready s (State.bootBegun_ready (s.powerCleared s.powerCause))
    refine ⟨_, exec_powerOn_eq, ?_⟩
    rw [State.bootRom_selfTest (s.powerCleared_zeroised.trans hzero)]
    obtain ⟨hlim, hcount⟩ := hready.limited 0 (leBytes 1 1) (why := 1) (state := seError) 1 (by decide) (by decide)
    generalize (((s.powerCleared s.powerCause).bootBegun.log 0x0A 0 (leBytes 1 1)).limited 1 seError 1) = t at *
    have hraised : Does [.agenda, .causes] [] (t.latch aSEC_LAT fSEC_LAT_STFAIL)
        (((t.latch aSEC_LAT fSEC_LAT_STFAIL).causeOn 112 0).raise 112 islSecurity) :=
      State.raise_does.call (by decide) (State.causeOn_does.mono (by decide))
    have hcount' : ((t.latch aSEC_LAT fSEC_LAT_STFAIL).causeOn 112 0).count = 0 :=
      (State.causeOn_does.same .count (by decide) (by decide)).trans hcount
    have hdue := raises_raise ((t.latch aSEC_LAT fSEC_LAT_STFAIL).causeOn 112 0) 112 islSecurity
    unfold Raises at hdue
    rw [hcount', show (0 : Count) + cyc 64 = cyc 64 from BitVec.zero_add _] at hdue
    exact ⟨hlimited ((hlim.latch _).of_does hraised (by decide)), hdue, State.causeOn_causeStands _ 112 0⟩
  case floors =>
    have hready := State.power_ready s (State.recovered_ready (s.powerCleared s.powerCause) hss)
    refine ⟨_, exec_powerOn_eq, ?_⟩
    rw [State.bootRom_floors (s.powerCleared_zeroised.trans hzero)]
    obtain ⟨hlim, hcount⟩ := hready.limited 0 (leBytes 1 2) (why := 2) (state := seReady) 2 (by decide) (by decide)
    generalize ((((s.powerCleared s.powerCause).bootBegun.recoverHss hss).log 0x0A 0 (leBytes 1 2)).limited 2 seReady 2) = t at *
    have hdue := raises_raise t 112 islSecurity
    unfold Raises at hdue
    rw [hcount, show (0 : Count) + cyc 64 = cyc 64 from BitVec.zero_add _] at hdue
    exact ⟨hlimited (hlim.of_does State.raise_does (by decide)), hdue⟩
  case none =>
    obtain ⟨hzero, htrial, hactive⟩ := hplain
    have hready := State.power_ready s (s.powerCleared_bootReady htrial hss)
    have hnone : ((s.powerCleared s.powerCause).bootReady hss).bootSlot (fun b => if b = 0 then false else false) = none := by
      have hnot : ∀ b, ¬ ((s.powerCleared s.powerCause).bootReady hss).slotGood (fun b => if b = 0 then false else false) b = true := by
        intro b
        unfold State.slotGood
        simp
      rw [State.bootSlot_eq, if_neg (hnot _), if_neg (hnot _)]
    refine ⟨_, exec_powerOn_eq, ?_⟩
    rw [State.bootRom_none (s.powerCleared_zeroised.trans hzero) hnone]
    exact hlimited (hready.limited _ _ _ (by decide) (by decide)).1
  case outOfRange =>
    let w : State := { s with power := { s.power with onHoldup := true, outSince := s.mgt.uptime } }
    have hw : Does [.power] [] s w := Does.put_power (by decide) Does.refl
    have hd : Does [.agenda, .causes] [] w ((w.causeOn 124 0).raise 124 islManagement) :=
      State.raise_does.call (by decide) (State.causeOn_does.mono (by decide))
    have hpower : ((w.causeOn 124 0).raise 124 islManagement).power = w.power := hd.same .power (by decide) (by decide)
    exact ⟨_, exec_inputOutOfRange_out hin, by rw [hpower], State.causeOn_causeStands w 124 0, by rw [hpower],
      raises_of_count (State.causeOn_does.same .count (by decide) (by decide)) _ _,
      (KeepsRegs.of_does hw (by decide) _).trans (.of_does hd (by decide) _),
      (KeepsMemory.of_does hw (by decide)).trans (.of_does hd (by decide))⟩
  case back =>
    let w : State := { s with power := { s.power with onHoldup := false } }
    have hw : Does [.power] [] s w := Does.put_power (by decide) Does.refl
    have hd : Does [.causes] [] w (w.causeOff 124 0) := State.causeOff_does
    exact ⟨w.causeOff 124 0, rfl, rfl, State.causeAt_causeOff w 124 0, rfl,
      (KeepsRegs.of_does hw (by decide) _).trans (.of_does hd (by decide) _),
      (KeepsMemory.of_does hw (by decide)).trans (.of_does hd (by decide))⟩
  case exhausted =>
    have hheld := (s.log 0x01 124 (leBytes 1 0)).engineDieReset_held (cause := rcPower) (by decide)
    have hspill := ((s.log 0x01 124 (leBytes 1 0)).engineDieReset_stores rcPower).spill
    have hlog : (s.log 0x01 124 (leBytes 1 0)).spill = s.spill := State.log_does.same .spill (by decide) (by decide)
    refine ⟨_, exec_holdupExhausted_due hout hdue, rfl, hheld.drvEn, hheld.own, hheld.agenda, hspill.trans hlog⟩
  · rintro ⟨hout, hdue⟩
    obtain h | h := hnot
    · rw [h] at hout; exact absurd hout (by decide)
    · omega

end Sys2Proof.Machine
end

section
/-! Replies of the security island (R479) and the exchanges and sessions of a port (R476 to R478). -/
namespace Sys2Proof.Machine

variable {s t u : State} {p q : Port} {vc : Nat}

/-! ## Frames given to a link in order -/

theorem State.sendFrame_waits {l : Nat} (h : (s.link l).waiting.any (fun w => w.1 == vc) = true) (o : Out) :
    (s.sendFrame l vc o).out = s.out ∧ ((s.sendFrame l vc o).link l).waiting = (s.link l).waiting ++ [(vc, o)] := by
  have hwaits : s.sendFrame l vc o = s.setLink l { s.link l with waiting := (s.link l).waiting ++ [(vc, o)] } :=
    if_neg (by rw [h]; simp)
  rw [hwaits]
  exact ⟨rfl, by rw [State.setLink_link, if_pos rfl]⟩

theorem State.sendFrame_goes_or_waits (s : State) (l : Nat) (o : Out) :
    ((s.sendFrame l vc o).out = s.out ++ [o] ∧ ((s.sendFrame l vc o).link l).waiting = (s.link l).waiting) ∨
      ((s.sendFrame l vc o).out = s.out ∧ ((s.sendFrame l vc o).link l).waiting = (s.link l).waiting ++ [(vc, o)]) := by
  unfold State.sendFrame
  extract_lets x
  split
  · obtain ⟨prot, open_, sentAt, ackAt, hlink⟩ := s.pushOn_link_self l vc o
    exact .inl ⟨rfl, by rw [hlink]; rfl⟩
  · exact .inr ⟨rfl, by rw [State.setLink_link, if_pos rfl]⟩

/-- Behind a frame that waits, every frame of its VC waits. -/
theorem foldl_sendFrame_waits {α : Type} {f : State → α → State} {g : α → Out} {l : Nat} (hf : ∀ t x, f t x = t.sendFrame l vc (g x))
    (xs : List α) (s : State) (h : (s.link l).waiting.any (fun w => w.1 == vc) = true) :
    (xs.foldl f s).out = s.out ∧ ((xs.foldl f s).link l).waiting = (s.link l).waiting ++ (xs.map g).map (fun o => (vc, o)) := by
  induction xs generalizing s with
  | nil => exact ⟨rfl, (List.append_nil _).symm⟩
  | cons x xs ih =>
    obtain ⟨hout, hwait⟩ := State.sendFrame_waits h (g x)
    obtain ⟨hout', hwait'⟩ := ih (f s x) (by rw [hf, hwait, List.any_append, h, Bool.true_or])
    rw [List.foldl_cons]
    refine ⟨hout'.trans (by rw [hf, hout]), hwait'.trans ?_⟩
    rw [hf, hwait, List.append_assoc]
    rfl

/-- Frames given to a port in order go out as far as the link lets them, and the rest wait in order. -/
theorem Says.foldl {α : Type} {f : State → α → State} {g : α → Out} (hf : ∀ t x, f t x = t.sendFrame p.val vc (g x)) (xs : List α)
    (s : State) : Says p vc (xs.map g) s (xs.foldl f s) := by
  induction xs generalizing s with
  | nil => exact ⟨0, by simp, by simp⟩
  | cons x xs ih =>
    obtain ⟨hout, hwait⟩ | ⟨hout, hwait⟩ := s.sendFrame_goes_or_waits (vc := vc) p.val (g x)
    · obtain ⟨k, hout', hwait'⟩ := ih (f s x)
      refine ⟨k + 1, ?_, ?_⟩
      · rw [List.foldl_cons, hout', hf, hout]; simp
      · rw [List.foldl_cons, hwait', hf, hwait]; simp
    · obtain ⟨hout', hwait'⟩ := foldl_sendFrame_waits hf xs (f s x) (by rw [hf, hwait]; simp)
      refine ⟨0, ?_, ?_⟩
      · rw [List.foldl_cons, hout', hf, hout]; simp
      · rw [List.foldl_cons, hwait', hf, hwait]; simp

/-- Work beside it that neither sends nor touches the link leaves what is said. -/
theorem Says.of_same {os : List Out} (h : Says p vc os t u) (hout : t.out = s.out) (hlinks : t.links = s.links) : Says p vc os s u := by
  obtain ⟨k, ho, hw⟩ := h
  refine ⟨k, by rw [ho, hout], hw.trans ?_⟩
  unfold State.link
  rw [hlinks]

theorem Says.then_same {os : List Out} (h : Says p vc os s t) (hout : u.out = t.out) (hlinks : u.links = t.links) : Says p vc os s u := by
  obtain ⟨k, ho, hw⟩ := h
  refine ⟨k, hout.trans ho, ?_⟩
  rw [← hw]
  unfold State.link
  rw [hlinks]

/-! ## Replies -/

/-- The frames of a reply of the security island. -/
def secFrames (p : Port) (msg status : Byte) (body : List Byte) : List Out := (segments 252 body).map (fun x => .sec p msg x.1 status x.2)

theorem State.secReply_says (s : State) (p : Port) (msg status : Byte) (body : List Byte) :
    Says p 3 (secFrames p msg status body) s (s.secReply p msg status body) := Says.foldl (fun _ _ => rfl) _ s

theorem secFrames_nil (p : Port) (msg status : Byte) : secFrames p msg status [] = [.sec p msg 0x80 status []] := by
  unfold secFrames
  rw [segments_nil _ (by decide)]
  rfl

/-- A body that fits in one segment. -/
theorem segments_one {k : Nat} {body : List Byte} (hpos : 0 < body.length) (hle : body.length ≤ k) : segments k body = [(0x80, body)] := by
  have hdiv : (body.length + k - 1) / k = 1 := by
    rw [Nat.div_eq_of_lt_le] <;> omega
  unfold segments
  rw [hdiv]
  simp only [Nat.max_self, show min 128 1 = 1 from rfl, List.range_one, List.map_singleton, Nat.mul_zero, List.drop_zero, List.take_of_length_le hle]
  rfl

theorem secFrames_one (p : Port) (msg status : Byte) {body : List Byte} (hpos : 0 < body.length) (hle : body.length ≤ 252) :
    secFrames p msg status body = [.sec p msg 0x80 status body] := by
  unfold secFrames
  rw [segments_one hpos hle]
  rfl

theorem SendsAll.secReply {n : Nat} {msg status : Byte} {body : List Byte} (h : SendsAll p 3 ((secFrames p msg status body).length + n) s) :
    (s.secReply p msg status body).out = s.out ++ secFrames p msg status body :=
  (SendsAll.frames (fun _ _ => rfl) _ (by simpa only [secFrames, List.length_map] using h)).1

/-- A reply of one segment goes out at once where a frame does. -/
theorem State.secReply_out (h : Sends p 3 s) {msg status : Byte} {body : List Byte} {o : Out} (ho : secFrames p msg status body = [o]) :
    (s.secReply p msg status body).out = s.out ++ [o] := by
  have hall := SendsAll.secReply (s := s) (p := p) (n := 0) (msg := msg) (status := status) (body := body) (by rw [ho]; exact .of_sends h)
  rw [hall, ho]

/-- What a reply of the island leaves as it was. -/
structure SecReplied (s t : State) : Prop where
  sec : t.sec = s.sec
  mgt : t.mgt = s.mgt
  agenda : t.agenda = s.agenda
  regs : KeepsRegs [] s t
  memory : KeepsMemory s t

theorem State.secReply_replied (s : State) (p : Port) (msg status : Byte) (body : List Byte) :
    SecReplied s (s.secReply p msg status body) where
  sec := State.secReply_does.same .sec (by decide) (by decide)
  mgt := State.secReply_does.same .mgt (by decide) (by decide)
  agenda := State.secReply_does.same .agenda (by decide) (by decide)
  regs := .of_does State.secReply_does (by decide) _
  memory := .of_does State.secReply_does (by decide)

end Sys2Proof.Machine
end

section
/-! The exchanges and sessions of a port (O45; R476 to R478). -/
namespace Sys2Proof.Machine

variable {s t u : State} {p q : Port}

/-! ## An exchange that fails -/

/-- The exchange ended and the failure counted. -/
def State.exchangeFailed (p : Nat) (s : State) : State :=
  ((s.setExchange p none).dropProof p).setFld (aSEC_SESS p) fSEC_SESS_FAILED (min 0xFFFF (s.fld (aSEC_SESS p) fSEC_SESS_FAILED + 1))

/-- The run of failures counted; sixteen in a row close the port. -/
def State.runCounted (p run : Nat) (s : State) : State :=
  if 16 ≤ run then
    { s.setFld (aSEC_SESS p) fSEC_SESS_REFUSED 1 with sec := { s.sec with
      failRun := s.sec.failRun.set p 0, refusedAt := s.sec.refusedAt.set p s.mgt.uptime } }
  else { s with sec := { s.sec with failRun := s.sec.failRun.set p run } }

theorem State.failExchange_eq (s : State) (p : Nat) :
    s.failExchange p = (s.exchangeFailed p).runCounted p (s.sec.failRun.getD p 0 + 1) := rfl

theorem State.runCounted_closes {p run : Nat} (h : 16 ≤ run) : s.runCounted p run =
    { s.setFld (aSEC_SESS p) fSEC_SESS_REFUSED 1 with sec := { s.sec with
      failRun := s.sec.failRun.set p 0, refusedAt := s.sec.refusedAt.set p s.mgt.uptime } } := if_pos h

theorem State.runCounted_counts {p run : Nat} (h : run < 16) :
    s.runCounted p run = { s with sec := { s.sec with failRun := s.sec.failRun.set p run } } := if_neg (Nat.not_le.mpr h)

/-- What the failure of an exchange leaves (R476). -/
structure ExchangeFailed (p : Port) (s t : State) : Prop where
  exchange : t.exchange p.val = none
  session : s.session p.val = t.session p.val
  counted : t.fld (aSEC_SESS p.val) fSEC_SESS_FAILED = min 0xFFFF (s.fld (aSEC_SESS p.val) fSEC_SESS_FAILED + 1)
  closes : 16 ≤ s.sec.failRun.getD p.val 0 + 1 → t.bit (aSEC_SESS p.val) fSEC_SESS_REFUSED = true
  stays : s.sec.failRun.getD p.val 0 + 1 < 16 → t.bit (aSEC_SESS p.val) fSEC_SESS_REFUSED = s.bit (aSEC_SESS p.val) fSEC_SESS_REFUSED
  regs : KeepsRegs [aSEC_SESS p.val] s t
  memory : KeepsMemory s t
  mgt : t.mgt = s.mgt

theorem aLP_STAT_ne_sess (p k : Nat) : aLP_STAT p ≠ aSEC_SESS k := by unfold aLP_STAT aSEC_SESS; omega

theorem State.exchangeFailed_exchange (s : State) (p : Nat) : (s.exchangeFailed p).exchange p = none :=
  Tab.get_set_self _ _ _ _

theorem State.exchangeFailed_fld (s : State) (p : Nat) : (s.exchangeFailed p).fld (aSEC_SESS p) fSEC_SESS_FAILED =
    min 0xFFFF (s.fld (aSEC_SESS p) fSEC_SESS_FAILED + 1) := by
  refine (State.fld_setFld_self _ _ _ _ (by decide) (by decide)).trans (Nat.mod_eq_of_lt ?_)
  exact Nat.lt_of_le_of_lt (Nat.min_le_left _ _) (by decide)

theorem State.exchangeFailed_refused (s : State) (p : Nat) : (s.exchangeFailed p).bit (aSEC_SESS p) fSEC_SESS_REFUSED =
    s.bit (aSEC_SESS p) fSEC_SESS_REFUSED :=
  State.bit_setFld_beside ((s.setExchange p none).dropProof p) _ _ _ _ (by decide) (by decide) (by decide)

theorem State.exchangeFailed_keepsRegs (s : State) (p : Nat) : KeepsRegs [aSEC_SESS p] s (s.exchangeFailed p) :=
  (KeepsRegs.of_regs (t := (s.setExchange p none).dropProof p) rfl _).setFld (by simp) _ _

theorem State.failExchange_fails (s : State) (p : Port) : ExchangeFailed p s (s.failExchange p.val) := by
  have hexch := s.exchangeFailed_exchange p.val
  have hfld := s.exchangeFailed_fld p.val
  have hbit := s.exchangeFailed_refused p.val
  have hregs := s.exchangeFailed_keepsRegs p.val
  have hdoes : Does [.sec] [18] s (s.failExchange p.val) := State.failExchange_does
  have hsame : ∀ {t : State}, KeepsRegs [aSEC_SESS p.val] s t → s.session p.val = t.session p.val := fun h =>
    (State.bit_congr _ (h _ (by simp only [List.mem_singleton]; exact aLP_STAT_ne_sess _ _))).symm
  have hmem : KeepsMemory s (s.failExchange p.val) := .of_does hdoes (by decide)
  have hmgt : (s.failExchange p.val).mgt = s.mgt := hdoes.same .mgt (by decide) (by decide)
  rw [State.failExchange_eq] at hmem hmgt ⊢
  generalize s.exchangeFailed p.val = u at *
  by_cases hrun : 16 ≤ s.sec.failRun.getD p.val 0 + 1
  · rw [State.runCounted_closes hrun] at *
    have hset : KeepsRegs [aSEC_SESS p.val] u (u.setFld (aSEC_SESS p.val) fSEC_SESS_REFUSED 1) :=
      (KeepsRegs.refl _ u).setFld (by simp) _ _
    refine ⟨hexch, hsame (hregs.trans hset), ?_, fun _ => ?_, fun h => absurd hrun (Nat.not_le.mpr h), hregs.trans hset, hmem, hmgt⟩
    · exact (State.fld_setFld_beside u _ _ _ _ (by decide) (by decide) (by decide)).trans hfld
    · exact State.bit_setBit_self u (aSEC_SESS p.val) fSEC_SESS_REFUSED true rfl (by decide)
  · rw [State.runCounted_counts (Nat.not_le.mp hrun)] at *
    exact ⟨hexch, hsame hregs, hfld, fun h => absurd h hrun, fun _ => hbit, hregs, hmem, hmgt⟩

/-- A reply after the failure leaves it as it is. -/
theorem ExchangeFailed.replied (h : ExchangeFailed p s t) (hr : SecReplied t u) : ExchangeFailed p s u where
  exchange := by unfold State.exchange; rw [hr.sec]; exact h.exchange
  session := h.session.trans (State.bit_congr _ (hr.regs _ (by simp))).symm
  counted := (State.fld_congr _ (hr.regs _ (by simp))).trans h.counted
  closes hrun := (State.bit_congr _ (hr.regs _ (by simp))).trans (h.closes hrun)
  stays hrun := (State.bit_congr _ (hr.regs _ (by simp))).trans (h.stays hrun)
  regs := h.regs.trans (hr.regs.mono (by simp))
  memory := h.memory.trans hr.memory
  mgt := hr.mgt.trans h.mgt

/-- The reply after a failure says what it says. -/
theorem State.failExchange_says (s : State) (p : Port) (msg status : Byte) :
    Says p 3 [.sec p msg 0x80 status []] s ((s.failExchange p.val).secReply p msg status []) := by
  have hsays := (s.failExchange p.val).secReply_says p msg status []
  rw [secFrames_nil] at hsays
  exact hsays.of_same (State.failExchange_does.same .out (by decide) (by decide)) (State.failExchange_does.same .links (by decide) (by decide))

theorem State.failExchange_replied (s : State) (p : Port) (msg status : Byte) :
    ExchangeFailed p s ((s.failExchange p.val).secReply p msg status []) :=
  (s.failExchange_fails p).replied (State.secReply_replied _ p msg status [])

end Sys2Proof.Machine
end

section
/-! Sessions that open and close, and the statement (O45; R476 to R478). -/
namespace Sys2Proof.Machine

variable {s t u : State} {p q : Port}

/-! ## HELLO -/

/-- A port that answers no HELLO now (R476). -/
def State.helloClosed (s : State) (p : Port) : Prop :=
  s.session p.val = true ∨ s.bit (aSEC_SESS p.val) fSEC_SESS_REFUSED = true ∨ s.secUp = false

theorem exec_secHello_closed {role : Byte} {io : Bool} {nonce qh : List Byte} (h : s.helloClosed p) :
    exec (.secHello p role io nonce qh) s = .next (s.secReply p 1 2 []) := if_pos h

theorem exec_secHello_malformed {role : Byte} {io : Bool} {nonce qh : List Byte} (h : ¬ s.helloClosed p)
    (hform : ¬ (role.toNat ≤ 3 ∧ nonce.length = 32 ∧ qh.length = 97)) :
    exec (.secHello p role io nonce qh) s = .next ((s.failExchange p.val).secReply p 1 4 []) :=
  (if_neg h).trans (if_pos (by omega))

/-- The module's HELLO. -/
def State.helloBody (s : State) : List Byte :=
  fit 32 (Config.random s.free 32) ++ fit 97 (Config.ecdhPublic s.free) ++ Config.identityChain

/-- The exchange that a HELLO begins. -/
def State.helloExchange (role : Byte) (io : Bool) (nonce qh : List Byte) (s : State) : Exchange where
  role := BitVec.ofNat 2 role.toNat
  intOnly := io
  transcript := leBytes 1 role.toNat ++ leBytes 1 io.toNat ++ nonce ++ qh ++ s.helloBody
  salt := nonce ++ fit 32 (Config.random s.free 32)
  secret := Config.ecdhSecret s.free qh
  since := s.mgt.uptime

/-- The exchange begun, with no PROOF of an earlier one waiting. -/
def State.exchangeBegun (p : Nat) (x : Exchange) (s : State) : State :=
  ({ s with free := s.free + 1 }.dropProof p).setExchange p (some x)

theorem exec_secHello_begins {role : Byte} {io : Bool} {nonce qh : List Byte} (h : ¬ s.helloClosed p)
    (hform : role.toNat ≤ 3 ∧ nonce.length = 32 ∧ qh.length = 97) : exec (.secHello p role io nonce qh) s =
      .next (((s.exchangeBegun p.val (s.helloExchange role io nonce qh)).secReply p 1 0 s.helloBody).askSig (.proof p)) :=
  (if_neg h).trans (if_neg (by omega))

/-- What the begin of an exchange leaves. -/
structure ExchangeBegun (p : Port) (x : Exchange) (s t : State) : Prop where
  exchange : t.exchange p.val = some x
  other : t.exchange (1 - p.val) = s.exchange (1 - p.val)
  requests : t.sec.requests = s.sec.requests.filter (fun r => !(r.2.isProof p.val))
  index : t.sec.q = s.sec.q
  free : t.free = s.free + 1
  count : t.count = s.count
  out : t.out = s.out
  links : t.links = s.links
  regs : KeepsRegs [] s t
  memory : KeepsMemory s t

theorem State.exchangeBegun_begins (s : State) (p : Port) (x : Exchange) : ExchangeBegun p x s (s.exchangeBegun p.val x) where
  exchange := Tab.get_set_self _ _ _ _
  other := Tab.get_set_ne _ _ _ (by omega)
  requests := rfl
  index := rfl
  free := rfl
  count := rfl
  out := rfl
  links := rfl
  regs := .of_regs rfl _
  memory := .of_fields rfl rfl rfl

/-! ## A session opened -/

/-- LP_STAT with a session's role. -/
def sessionWord (w : Word) (session : Nat) (io : Nat) (role : Nat) : Word :=
  putF (putF (putF w fLP_STAT_SESSION session) fLP_STAT_INTONLY io) fLP_STAT_ROLE role

theorem sessionWord_flds (w : Word) (session io role : Nat) : getF (sessionWord w session io role) fLP_STAT_SESSION = session % 2 ∧
    getF (sessionWord w session io role) fLP_STAT_INTONLY = io % 2 ∧ getF (sessionWord w session io role) fLP_STAT_ROLE = role % 4 := by
  unfold sessionWord
  refine ⟨?_, ?_, getF_putF_self _ _ _ (by decide) (by decide)⟩
  · rw [getF_putF_ne _ _ _ _ (by decide) (by decide) (by decide), getF_putF_ne _ _ _ _ (by decide) (by decide) (by decide)]
    exact getF_putF_self _ _ _ (by decide) (by decide)
  · rw [getF_putF_ne _ _ _ _ (by decide) (by decide) (by decide)]
    exact getF_putF_self _ _ _ (by decide) (by decide)

/-- SEC_SESS with a session's role. -/
def sessWord (w : Word) (open_ role : Nat) : Word := putF (putF w fSEC_SESS_OPEN open_) fSEC_SESS_ROLE role

theorem sessWord_flds (w : Word) (open_ role : Nat) : getF (sessWord w open_ role) fSEC_SESS_OPEN = open_ % 2 ∧
    getF (sessWord w open_ role) fSEC_SESS_ROLE = role % 4 := by
  unfold sessWord
  refine ⟨?_, getF_putF_self _ _ _ (by decide) (by decide)⟩
  rw [getF_putF_ne _ _ _ _ (by decide) (by decide) (by decide)]
  exact getF_putF_self _ _ _ (by decide) (by decide)

/-- A port's registers show a session, or none. -/
def State.sessionShown (p session io role : Nat) (s : State) : State :=
  (s.setReg (aLP_STAT p) (sessionWord (s.reg (aLP_STAT p)) session io role)).setReg (aSEC_SESS p)
    (sessWord (s.reg (aSEC_SESS p)) session role)

theorem State.sessionShown_keepsRegs (s : State) (p session io role : Nat) :
    KeepsRegs [aLP_STAT p, aSEC_SESS p] s (s.sessionShown p session io role) :=
  ((KeepsRegs.refl _ s).setReg (by simp) _).setReg (by simp) _

theorem State.sessionShown_flds (s : State) (p session io role : Nat) : let t := s.sessionShown p session io role
    t.fld (aLP_STAT p) fLP_STAT_SESSION = session % 2 ∧ t.fld (aLP_STAT p) fLP_STAT_INTONLY = io % 2 ∧
      t.fld (aLP_STAT p) fLP_STAT_ROLE = role % 4 ∧ t.fld (aSEC_SESS p) fSEC_SESS_OPEN = session % 2 ∧
      t.fld (aSEC_SESS p) fSEC_SESS_ROLE = role % 4 := by
  have hstat : (s.sessionShown p session io role).reg (aLP_STAT p) = sessionWord (s.reg (aLP_STAT p)) session io role :=
    (State.reg_setReg_ne _ _ (aLP_STAT_ne_sess p p)).trans (State.reg_setReg_self _ _ _)
  have hsess : (s.sessionShown p session io role).reg (aSEC_SESS p) = sessWord (s.reg (aSEC_SESS p)) session role :=
    State.reg_setReg_self _ _ _
  obtain ⟨h1, h2, h3⟩ := sessionWord_flds (s.reg (aLP_STAT p)) session io role
  obtain ⟨h4, h5⟩ := sessWord_flds (s.reg (aSEC_SESS p)) session role
  intro t
  unfold State.fld
  rw [hstat, hsess]
  exact ⟨h1, h2, h3, h4, h5⟩

/-- The link's frame counters, the run of failures and the keys of a session that opens. -/
def State.sessionKeyed (p : Nat) (keys : List Byte × List Byte) (s : State) : State :=
  let s2 := s.setLink p { s.link p with txFrames := 0, rxFrames := 0 }
  { s2 with sec := { s2.sec with
      failRun := s2.sec.failRun.set p 0
      keys := Tab.set (fun _ => ([], [])) s2.sec.keys p keys } }

theorem State.openSession_eq (s : State) (p role : Nat) (io : Bool) (keys : List Byte × List Byte) : s.openSession p role io keys =
    ((s.sessionShown p 1 io.toNat role).sessionKeyed p keys).log 0x08 p (leBytes 1 role ++ leBytes 1 0) := rfl

theorem aLP_STAT_other (p : Port) : aLP_STAT (1 - p.val) ∉ [aLP_STAT p.val, aSEC_SESS p.val] := by
  simp only [List.mem_cons, List.not_mem_nil, or_false, aLP_STAT, aSEC_SESS]
  omega

theorem not_mem_logRegs_sess (p : Nat) : aLP_STAT p ∉ logRegs ∧ aSEC_SESS p ∉ logRegs :=
  ⟨not_mem_logRegs_of_lt (by unfold aLP_STAT aMGT_LOGNEXT; omega), not_mem_logRegs_of_ge (by unfold aSEC_SESS aMGT_LOGOLD; omega)⟩

/-- What the opening of a session leaves. -/
structure SessionOpened (p : Port) (r : Nat) (io : Bool) (s t : State) : Prop where
  session : t.session p.val = true
  role : t.sessRole p.val = r
  opened : t.bit (aSEC_SESS p.val) fSEC_SESS_OPEN = true
  shown : t.fld (aSEC_SESS p.val) fSEC_SESS_ROLE = r
  intOnly : t.bit (aLP_STAT p.val) fLP_STAT_INTONLY = io
  other : t.session (1 - p.val) = s.session (1 - p.val)
  frames : (t.link p.val).txFrames = 0 ∧ (t.link p.val).rxFrames = 0
  failRun : t.sec.failRun = s.sec.failRun.set p.val 0
  provisional : t.sec.provisional = s.sec.provisional
  exchange : t.sec.exch = s.sec.exch
  regs : KeepsRegs (aLP_STAT p.val :: aSEC_SESS p.val :: logRegs) s t
  memory : KeepsMemory s t
  out : t.out = s.out

theorem State.openSession_opens (s : State) (p : Port) {role : Nat} (hrole : role < 4) (io : Bool) (keys : List Byte × List Byte) :
    SessionOpened p role io s (s.openSession p.val role io keys) := by
  obtain ⟨hses, hio, hr, hopen, hsr⟩ := s.sessionShown_flds p.val 1 io.toNat role
  have hkeeps := s.sessionShown_keepsRegs p.val 1 io.toNat role
  have hall : Does [.links, .sec, .mgt] [13, 16, 18] s (s.openSession p.val role io keys) := State.openSession_does
  have hmem : KeepsMemory s (s.openSession p.val role io keys) := .of_does hall (by decide)
  have hout : (s.openSession p.val role io keys).out = s.out := hall.same .out (by decide) (by decide)
  have hsec0 : (s.sessionShown p.val 1 io.toNat role).sec = s.sec := rfl
  rw [State.openSession_eq] at hmem hout ⊢
  generalize s.sessionShown p.val 1 io.toNat role = a at *
  have hkeyed : ∀ x, (a.sessionKeyed p.val keys).reg x = a.reg x := fun _ => rfl
  have hlink : ((a.sessionKeyed p.val keys).link p.val) = { a.link p.val with txFrames := 0, rxFrames := 0 } :=
    (State.setLink_link a p.val p.val _).trans (if_pos rfl)
  have hsec : (a.sessionKeyed p.val keys).sec = { a.sec with
      failRun := a.sec.failRun.set p.val 0, keys := Tab.set (fun _ => ([], [])) a.sec.keys p.val keys } := rfl
  generalize a.sessionKeyed p.val keys = b at *
  have hlog := fun x (h : x ∉ logRegs) => (b.log_keeps_low 0x08 p.val (leBytes 1 role ++ leBytes 1 0) h).trans (hkeyed x)
  have hlogsec := b.log_sec 0x08 p.val (leBytes 1 role ++ leBytes 1 0)
  have hlogdoes : Does [.mgt] [16] b (b.log 0x08 p.val (leBytes 1 role ++ leBytes 1 0)) := State.log_does
  have hloglink : (b.log 0x08 p.val (leBytes 1 role ++ leBytes 1 0)).links = b.links := hlogdoes.same .links (by decide) (by decide)
  have hlogregs := b.log_keepsRegs 0x08 p.val (leBytes 1 role ++ leBytes 1 0)
  generalize b.log 0x08 p.val (leBytes 1 role ++ leBytes 1 0) = t at *
  obtain ⟨hlp, hse⟩ := not_mem_logRegs_sess p.val
  obtain ⟨hlp', -⟩ := not_mem_logRegs_sess (1 - p.val)
  have hlinks : t.link p.val = b.link p.val := by unfold State.link; rw [hloglink]
  have hfldlp := fun f => State.fld_congr (f := f) (hlog (aLP_STAT p.val) hlp)
  have hfldse := fun f => State.fld_congr (f := f) (hlog (aSEC_SESS p.val) hse)
  have hmod : role % 4 = role := Nat.mod_eq_of_lt hrole
  exact {
    session := by unfold State.session State.bit; rw [hfldlp, hses]; rfl
    role := by unfold State.sessRole; rw [hfldlp, hr, hmod]
    opened := by unfold State.bit; rw [hfldse, hopen]; rfl
    shown := by rw [hfldse, hsr, hmod]
    intOnly := by unfold State.bit; rw [hfldlp, hio]; cases io <;> rfl
    other := State.bit_congr _ ((hlog _ hlp').trans (hkeeps _ (aLP_STAT_other p)))
    frames := by rw [hlinks, hlink]; exact ⟨rfl, rfl⟩
    failRun := by rw [hlogsec, hsec, hsec0]
    provisional := by rw [hlogsec, hsec, hsec0]
    exchange := by rw [hlogsec, hsec, hsec0]
    regs := ((hkeeps.trans (u := b) (fun x _ => hkeyed x)).mono (by simp)).trans
      (hlogregs.mono (fun _ h => List.mem_cons_of_mem _ (List.mem_cons_of_mem _ h)))
    memory := hmem
    out := hout }

end Sys2Proof.Machine
end

section
/-! Sessions: the statement (O45; R476 to R479). -/
namespace Sys2Proof.Machine

variable {s t u : State} {p q : Port}

/-! ## A session closed -/

/-- The keys of a session, and the reports it waits for, go with it. -/
def State.sessionForgotten (p : Nat) (s : State) : State :=
  { s with sec := { s.sec with
      keys := Tab.set (fun _ => ([], [])) s.sec.keys p ([], [])
      requests := s.sec.requests.filter (fun r => !(r.2.isAttest p)) } }

theorem State.endSession_ends {p : Nat} (h : s.session p = true) (cause : Nat) : s.endSession p cause =
    ((s.sessionShown p 0 0 0).sessionForgotten p).log 0x08 p (leBytes 1 (s.sessRole p) ++ leBytes 1 cause) := if_pos h

/-- What the end of a session leaves. -/
structure SessionEnded (p : Port) (s t : State) : Prop where
  session : t.session p.val = false
  opened : t.bit (aSEC_SESS p.val) fSEC_SESS_OPEN = false
  next : t.wide aMGT_LOGNEXT 2 = (s.wide aMGT_LOGNEXT 2 + 1) % 2 ^ 64
  other : t.session (1 - p.val) = s.session (1 - p.val)
  regs : KeepsRegs (aLP_STAT p.val :: aSEC_SESS p.val :: logRegs) s t
  slots : t.sec.slots = s.sec.slots
  exchange : t.sec.exch = s.sec.exch
  memory : KeepsMemory s t
  out : t.out = s.out
  links : t.links = s.links

theorem State.endSession_closes (p : Port) (h : s.session p.val = true) (cause : Nat) : SessionEnded p s (s.endSession p.val cause) := by
  obtain ⟨hses, -, -, hopen, -⟩ := s.sessionShown_flds p.val 0 0 0
  have hkeeps := s.sessionShown_keepsRegs p.val 0 0 0
  have hall : Does [.sec, .mgt] [13, 16, 18] s (s.endSession p.val cause) := State.endSession_does
  have hmem : KeepsMemory s (s.endSession p.val cause) := .of_does hall (by decide)
  have hout : (s.endSession p.val cause).out = s.out := hall.same .out (by decide) (by decide)
  have hlinks : (s.endSession p.val cause).links = s.links := hall.same .links (by decide) (by decide)
  have hsec0 : (s.sessionShown p.val 0 0 0).sec = s.sec := rfl
  rw [State.endSession_ends h] at hmem hout hlinks ⊢
  generalize s.sessionShown p.val 0 0 0 = a at *
  have hforgot : ∀ x, (a.sessionForgotten p.val).reg x = a.reg x := fun _ => rfl
  have hsec : (a.sessionForgotten p.val).sec.slots = a.sec.slots ∧ (a.sessionForgotten p.val).sec.exch = a.sec.exch := ⟨rfl, rfl⟩
  generalize a.sessionForgotten p.val = b at *
  generalize leBytes 1 (s.sessRole p.val) ++ leBytes 1 cause = payload at *
  have hlog := fun x (h : x ∉ logRegs) => (b.log_keeps_low 0x08 p.val payload h).trans (hforgot x)
  have hlogsec := b.log_sec 0x08 p.val payload
  have hregs : KeepsRegs [aLP_STAT p.val, aSEC_SESS p.val] s b := hkeeps.trans (fun x _ => hforgot x)
  obtain ⟨hlp, hse⟩ := not_mem_logRegs_sess p.val
  obtain ⟨hlp', -⟩ := not_mem_logRegs_sess (1 - p.val)
  have hnext : aMGT_LOGNEXT ∉ [aLP_STAT p.val, aSEC_SESS p.val] ∧ aMGT_LOGNEXT + 4 ∉ [aLP_STAT p.val, aSEC_SESS p.val] := by
    simp only [List.mem_cons, List.not_mem_nil, or_false, aLP_STAT, aSEC_SESS, aMGT_LOGNEXT]
    omega
  obtain ⟨hall', hwide⟩ := State.log_after hregs hnext 0x08 p.val payload
  exact {
    session := by unfold State.session State.bit; rw [State.fld_congr _ (hlog _ hlp), hses]; rfl
    opened := by unfold State.bit; rw [State.fld_congr _ (hlog _ hse), hopen]; rfl
    next := hwide
    other := State.bit_congr _ ((hlog _ hlp').trans (hkeeps _ (aLP_STAT_other p)))
    regs := hall'
    slots := by rw [hlogsec, hsec.1, hsec0]
    exchange := by rw [hlogsec, hsec.2, hsec0]
    memory := hmem
    out := hout
    links := hlinks }

theorem exec_close_open (h : s.session p.val = true) : exec (.close p) s = .next ((s.secReply p 4 0 []).endSession p.val 4) :=
  congrArg Host.Outcome.next (if_pos h)

theorem exec_close_none (h : s.session p.val = false) : exec (.close p) s = .next (s.secReply p 4 1 []) :=
  congrArg Host.Outcome.next (if_neg (by rw [h]; decide))

/-! ## PROOF -/

theorem exec_proof_none {cred credTrailer ecdsa hss : List Byte} (h : s.exchange p.val = none) :
    exec (.proof p cred credTrailer ecdsa hss) s = .next (s.secReply p 2 2 []) := by
  change s.takeProof p (cred ++ credTrailer) (ecdsa ++ hss) = _
  unfold State.takeProof
  rw [h]

theorem exec_proof_bad {cred credTrailer ecdsa hss : List Byte} {x : Exchange} (h : s.exchange p.val = some x)
    (hbad : s.proofGood x (cred ++ credTrailer) (ecdsa ++ hss) = false) :
    exec (.proof p cred credTrailer ecdsa hss) s = .next ((s.failExchange p.val).secReply p 3 4 []) := by
  change s.takeProof p (cred ++ credTrailer) (ecdsa ++ hss) = _
  unfold State.takeProof
  rw [h]
  exact if_neg (by rw [hbad]; decide)

/-- The issuer of a session's credential noted: a provisioning session has few services (R477). -/
def State.issuerNoted (p : Nat) (provisional : Bool) (s : State) : State :=
  { s with sec := { s.sec with provisional := s.sec.provisional.set p provisional } }

/-- Interrupts only, where the host has asked for it and the role is held to it. -/
def Exchange.io (x : Exchange) : Bool := x.intOnly && Config.intOnlyRole x.role.toNat

/-- The exchange over, and FINISH said. -/
def State.finished (p : Port) (x : Exchange) (s : State) : State :=
  (s.setExchange p.val none).secReply p 3 0 (leBytes 1 x.role.toNat ++ leBytes 1 x.io.toNat)

/-- The exchange with the host's PROOF in its transcript. -/
def Exchange.proven (x : Exchange) (cred sig : List Byte) : Exchange := { x with transcript := x.transcript ++ cred ++ sig }

/-- The session opened after FINISH. -/
def State.proofOpens (p : Port) (x : Exchange) (cred sig : List Byte) (s : State) : State :=
  ((s.finished p x).openSession p.val x.role.toNat x.io (x.proven cred sig).keys).issuerNoted p.val (credIssuer cred == 0x80)

theorem State.takeProof_good {cred sig : List Byte} {x : Exchange} (h : s.exchange p.val = some x) (hgood : s.proofGood x cred sig = true) :
    s.takeProof p cred sig = .next (s.proofOpens p x cred sig) := by
  unfold State.takeProof
  rw [h]
  simp only [hgood, if_true, State.proofOpens, State.finished, State.issuerNoted, Exchange.io, Exchange.proven]

theorem exec_proof_good {cred credTrailer ecdsa hss : List Byte} {x : Exchange} (h : s.exchange p.val = some x)
    (hgood : s.proofGood x (cred ++ credTrailer) (ecdsa ++ hss) = true) : exec (.proof p cred credTrailer ecdsa hss) s =
      .next (s.proofOpens p x (cred ++ credTrailer) (ecdsa ++ hss)) := State.takeProof_good h hgood

/-- A proof that fails a condition is not good. -/
theorem State.proofGood_false {x : Exchange} {cred sig : List Byte} (h : x.proved = false ∨ s.exchangeOver x = true ∨ s.secUp = false ∨
    s.credential cred x.role.toNat = false) : s.proofGood x cred sig = false := by
  unfold State.proofGood
  obtain h | h | h | h := h <;> simp [h]

theorem getD_set_self {α : Type} {l : List α} {n : Nat} (h : n < l.length) (a d : α) : (l.set n a).getD n d = a := by
  rw [List.getD_eq_getElem?_getD, List.getElem?_set_self h, Option.getD_some]

/-- What a good PROOF leaves (R476 to R478). -/
theorem State.proofOpens_opens (s : State) (p : Port) (x : Exchange) (cred sig : List Byte) (hprov : s.sec.provisional.length = 2)
    (hrun : s.sec.failRun.length = 2) : let t := s.proofOpens p x cred sig
    t.session p.val = true ∧ t.sessRole p.val = x.role.toNat ∧ t.exchange p.val = none ∧ t.bit (aSEC_SESS p.val) fSEC_SESS_OPEN = true ∧
      t.fld (aSEC_SESS p.val) fSEC_SESS_ROLE = x.role.toNat ∧ t.bit (aLP_STAT p.val) fLP_STAT_INTONLY = x.io ∧
      t.sec.provisional.getD p.val false = (credIssuer cred == 0x80) ∧ t.session (1 - p.val) = s.session (1 - p.val) ∧
      (t.link p.val).txFrames = 0 ∧ (t.link p.val).rxFrames = 0 ∧ t.sec.failRun.getD p.val 0 = 0 ∧
      KeepsRegs (aLP_STAT p.val :: aSEC_SESS p.val :: logRegs) s t ∧ KeepsMemory s t ∧ t.out = (s.finished p x).out := by
  have hfinish : Does [.out, .links, .sec] [] s (s.finished p x) :=
    State.secReply_does.call (by decide) (State.setExchange_does.mono (by decide))
  have hfinishsec : (s.finished p x).sec = (s.setExchange p.val none).sec := State.secReply_does.same .sec (by decide) (by decide)
  have hopens := (s.finished p x).openSession_opens p (role := x.role.toNat) x.role.isLt x.io (x.proven cred sig).keys
  have hregs : KeepsRegs [] s (s.finished p x) := .of_does hfinish (by decide) _
  have hnone : (s.setExchange p.val none).exchange p.val = none := Tab.get_set_self _ _ _ _
  have hsecs : (s.setExchange p.val none).sec.provisional = s.sec.provisional ∧ (s.setExchange p.val none).sec.failRun = s.sec.failRun := ⟨rfl, rfl⟩
  unfold State.proofOpens
  generalize s.finished p x = f at *
  generalize f.openSession p.val x.role.toNat x.io (x.proven cred sig).keys = o at *
  generalize s.setExchange p.val none = e at *
  refine ⟨hopens.session, hopens.role, ?_, hopens.opened, hopens.shown, hopens.intOnly, ?_, ?_, hopens.frames.1, hopens.frames.2,
    ?_, (hregs.mono (by simp)).trans hopens.regs, (KeepsMemory.of_does hfinish (by decide)).trans hopens.memory, hopens.out⟩
  · change Tab.get _ o.sec.exch p.val = none
    rw [hopens.exchange, hfinishsec]
    exact hnone
  · change (o.sec.provisional.set p.val _).getD p.val false = _
    exact getD_set_self (by rw [hopens.provisional, hfinishsec, hsecs.1]; omega) _ _
  · exact hopens.other.trans (State.bit_congr _ (hregs _ (by simp)))
  · change o.sec.failRun.getD p.val 0 = 0
    rw [hopens.failRun]
    exact getD_set_self (by rw [hfinishsec, hsecs.2]; omega) _ _

theorem State.finished_out (x : Exchange) (hs : Sends p 3 s) :
    (s.finished p x).out = s.out ++ [.sec p 3 0x80 0 (leBytes 1 x.role.toNat ++ leBytes 1 x.io.toNat)] :=
  State.secReply_out (s := s.setExchange p.val none) (hs.of_sameLine (.of_links rfl rfl))
    (secFrames_one p 3 0 (by simp [length_leBytes]) (by simp [length_leBytes]))

/-- Settles O45: an exchange begins by `State.exchangeBegun_begins`, fails by `State.failExchange_fails`, a session opens by
`State.openSession_opens` and closes by `State.endSession_closes`; what goes out is `State.secReply_says`. -/
theorem sessions : Obligations.Sessions := by
  unfold Obligations.Sessions
  intro p role io nonce qh cred credTrailer ecdsa hss x s logRegs' full sig failed opened closed wellFormed hello
  have hfailed : ∀ {t : State}, ExchangeFailed p s t → failed t := fun h =>
    ⟨h.exchange, h.session, h.counted, h.closes, h.stays, h.regs, h.memory, h.mgt⟩
  have hreplied : ∀ msg status : Byte, let t := s.secReply p msg status []
      Says p 3 [.sec p msg 0x80 status []] s t ∧ t.sec = s.sec ∧ KeepsRegs [] s t ∧ KeepsMemory s t := fun msg status => by
    have hr := s.secReply_replied p msg status []
    exact ⟨secFrames_nil p msg status ▸ s.secReply_says p msg status [], hr.sec, hr.regs, hr.memory⟩
  refine ⟨fun hclosed => ⟨_, exec_secHello_closed hclosed, hreplied 1 2⟩, fun hopen hform => ?hello,
    fun hopen hform => ⟨_, exec_secHello_malformed hopen hform, hfailed (s.failExchange_replied p 1 4), s.failExchange_says p 1 4⟩,
    fun hnone => ⟨_, exec_proof_none hnone, hreplied 2 2⟩, fun hsome hprov hrun => ?proof, fun hsome hwhy => ?badProof,
    fun hsome hover => ⟨_, ?timeout, hfailed (s.failExchange_replied p 3 4), s.failExchange_says p 3 4⟩,
    fun hsome hover => ⟨s, ?waits, rfl⟩, fun hnone => ⟨s, ?noExchange, rfl⟩, fun hover => ?lockEnd,
    fun hover => ⟨s, congrArg _ (if_neg (by rw [hover]; decide)), rfl⟩, fun hses => ?closes, fun hses => ⟨_, exec_close_none hses, hreplied 4 1⟩⟩
  case hello =>
    have hbegun := s.exchangeBegun_begins p (s.helloExchange role io nonce qh)
    refine ⟨_, exec_secHello_begins hopen hform, ?_⟩
    generalize s.exchangeBegun p.val (s.helloExchange role io nonce qh) = b at *
    have hr := b.secReply_replied p 1 0 s.helloBody
    have hsays := (b.secReply_says p 1 0 s.helloBody).of_same hbegun.out hbegun.links
    have hcount : (b.secReply p 1 0 s.helloBody).count = s.count :=
      (State.secReply_does.same .count (by decide) (by decide)).trans hbegun.count
    have hfree : (b.secReply p 1 0 s.helloBody).free = s.free + 1 :=
      (State.secReply_does.same .free (by decide) (by decide)).trans hbegun.free
    have hexch : ∀ k, ((b.secReply p 1 0 s.helloBody).askSig (.proof p)).exchange k = b.exchange k := fun k => by
      change Tab.get _ (b.secReply p 1 0 s.helloBody).sec.exch k = _
      rw [hr.sec]
      rfl
    have hrole : (BitVec.ofNat 2 role.toNat).toNat = role.toNat := by
      rw [BitVec.toNat_ofNat, Nat.mod_eq_of_lt (by omega)]
    refine ⟨hsays.then_same rfl rfl, ?_, ?_, ?_, (hexch _).trans hbegun.other, hfree, hbegun.regs.trans hr.regs, hbegun.memory.trans hr.memory⟩
    · rw [hexch, hbegun.exchange]
      change ((BitVec.ofNat 2 role.toNat).toNat == role.toNat && io == io && s.mgt.uptime == s.mgt.uptime && !false) = true
      rw [hrole]
      simp
    · change placeSig (b.secReply p 1 0 s.helloBody).count (.proof p) (b.secReply p 1 0 s.helloBody).sec.requests = _
      rw [hcount, hr.sec, hbegun.requests]
    · change (b.secReply p 1 0 s.helloBody).sec.q = _
      rw [hr.sec, hbegun.index]
  case proof =>
    by_cases hgood : s.proofGood x full sig = true
    · have hopens := s.proofOpens_opens p x full sig hprov hrun
      refine ⟨_, exec_proof_good hsome hgood, ?_⟩
      generalize s.proofOpens p x (cred ++ credTrailer) (ecdsa ++ hss) = t at *
      obtain ⟨h1, h2, h3, h4, h5, h6, h7, h8, h9, h10, h11, h12, h13, hout⟩ := hopens
      refine ⟨fun _ => ⟨h1, h2, h3, h4, h5, h6, h7, h8, h9, h10, h11, h12, h13⟩, fun h => absurd hgood (by rw [h]; decide), fun hs => ?_⟩
      rw [if_pos hgood]
      exact hout.trans (s.finished_out x hs)
    · have hbad := Bool.eq_false_of_not_eq_true hgood
      refine ⟨_, exec_proof_bad hsome hbad, fun h => absurd h hgood, fun _ => hfailed (s.failExchange_replied p 3 4), fun hs => ?_⟩
      have hfail : Does [.sec] [18] s (s.failExchange p.val) := State.failExchange_does
      have hout : (s.failExchange p.val).out = s.out := hfail.same .out (by decide) (by decide)
      rw [if_neg hgood, State.secReply_out (hs.of_sameLine (.of_does hfail (by decide))) (secFrames_nil p 3 4), hout]
  case badProof => exact ⟨_, exec_proof_bad hsome (State.proofGood_false hwhy), hfailed (s.failExchange_replied p 3 4)⟩
  case timeout =>
    change execSessionTimeout p s = _
    unfold execSessionTimeout
    rw [hsome]
    exact congrArg _ (if_pos hover)
  case waits =>
    change execSessionTimeout p s = _
    unfold execSessionTimeout
    rw [hsome]
    exact congrArg _ (if_neg (by rw [hover]; decide))
  case noExchange =>
    change execSessionTimeout p s = _
    unfold execSessionTimeout
    rw [hnone]
  case lockEnd =>
    exact ⟨s.setBit (aSEC_SESS p.val) fSEC_SESS_REFUSED false, congrArg _ (if_pos hover), State.bit_setBit_self _ _ _ _ rfl (by decide), rfl,
      State.fld_setFld_beside _ _ _ _ _ (by decide) (by decide) (by decide), (KeepsRegs.refl _ s).setBit (by simp) _ _, .of_fields rfl rfl rfl⟩
  case closes =>
    obtain ⟨hsays, hsec, hregs, hmem⟩ := hreplied 4 0
    refine ⟨_, exec_close_open hses, ?_⟩
    generalize s.secReply p 4 0 [] = r at *
    have hends := r.endSession_closes p ((State.bit_congr _ (hregs _ (by simp))).trans hses) 4
    exact ⟨hends.session, hsays.then_same hends.out hends.links, hends.opened,
      by rw [hends.next, State.wide_of_keepsRegs hregs (by simp) (by simp)],
      hends.other.trans (State.bit_congr _ (hregs _ (by simp))), (hregs.mono (by simp)).trans hends.regs,
      by rw [hends.slots, hsec], by rw [hends.exchange, hsec], hmem.trans hends.memory⟩

end Sys2Proof.Machine
end

section
/-! Services of a session, and the keys, floors and fuses that they set (O46; R463, R465 to R468, R479). -/
namespace Sys2Proof.Machine

variable {s t u : State} {p : Port} {msg status : Byte}

/-! ## A service judged -/

/-- A service of the island refused, or answered, with a status alone. -/
structure Answered (p : Port) (msg status : Byte) (s t : State) : Prop extends SecReplied s t where
  out : t.out = s.out ++ [.sec p msg 0x80 status []]

theorem State.secReply_answered (hs : Sends p 3 s) (msg status : Byte) : Answered p msg status s (s.secReply p msg status []) :=
  ⟨s.secReply_replied p msg status [], State.secReply_out hs (secFrames_nil p msg status)⟩

section
variable {roles : Nat → Bool} {f : State → State}

theorem State.service_outside (h : s.session p.val = false ∨ roles (s.sessRole p.val) = false) :
    s.service p msg roles f = s.secReply p msg 1 [] := by
  refine if_pos ?_
  obtain h | h := h <;> simp [h]

theorem State.service_provisional (h : s.sec.provisional.getD p.val false = true)
    (hmsg : (msg == 4 || msg == 5 || msg == 6 || msg == 9) = false) : s.service p msg roles f = s.secReply p msg 1 [] := by
  refine if_pos ?_
  rw [h, hmsg]
  simp

/-- A session that has the right to a service. -/
structure MayServe (p : Port) (msg : Byte) (roles : Nat → Bool) (s : State) : Prop where
  session : s.session p.val = true
  role : roles (s.sessRole p.val) = true
  issuer : (s.sec.provisional.getD p.val false && !(msg == 4 || msg == 5 || msg == 6 || msg == 9)) = false

theorem State.service_down (h : MayServe p msg roles s) (hdown : s.secUp = false) : s.service p msg roles f = s.secReply p msg 2 [] := by
  obtain ⟨hses, hrole, hissuer⟩ := h
  exact (if_neg (by rw [hses, hrole, hissuer]; decide)).trans (if_pos (by rw [hdown]; rfl))

theorem State.service_runs (h : MayServe p msg roles s) (hup : s.secUp = true) : s.service p msg roles f = f s := by
  obtain ⟨hses, hrole, hissuer⟩ := h
  exact (if_neg (by rw [hses, hrole, hissuer]; decide)).trans (if_neg (by rw [hup]; decide))

end

/-- The services of a security officer on keys, floors and fuses, each with its message (R479). -/
theorem keyService_serves {slot usage which : Byte} {keys sig : List Byte} {gen : BitVec 16} {key : BitVec 256} {v : Word} {r : Instr × Byte}
    (hr : r ∈ [(Instr.enroll p slot usage keys, (9 : Byte)), (.enrollCk p slot gen key sig, 10), (.revoke p slot sig, 11),
      (.floor p which v, 12), (.mode p, 13), (.zeroise p, 14)]) : ∃ f, exec r.1 s = .next (s.service p r.2 secRole f) := by
  simp only [List.mem_cons, List.not_mem_nil, or_false] at hr
  rcases hr with rfl | rfl | rfl | rfl | rfl | rfl
  all_goals exact ⟨_, rfl⟩

/-! ## Work answered with STATUS 0 -/

/-- Work that neither sends nor touches a link is answered on what it leaves. -/
theorem State.worked_answered {ps : List Part} {bs : List Nat} (hd : Does ps bs s t) (hps : .regs ∉ ps ∧ 13 ∉ bs ∧ .links ∉ ps)
    (hout : .out ∉ ps) (hs : Sends p 3 s) (msg status : Byte) : Answered p msg status t (t.secReply p msg status []) ∧ t.out = s.out :=
  ⟨State.secReply_answered (hs.of_sameLine (.of_does hd hps)) msg status, hd.same .out hout (by decide)⟩

/-! ## Customer slots -/

theorem State.setKeySlot_keySlot (s : State) (n k : Nat) (x : KeySlot) : (s.setKeySlot n x).keySlot k = if k = n then x else s.keySlot k :=
  Tab.get_set _ _ _ _ _

/-- The code of a customer slot in SEC_SLOTS (R482). -/
def slotCode (k : KeySlot) : Nat := if k.revoked then 2 else if k.used then 1 else 0

theorem State.setKeySlot_code (s : State) {n : Nat} (hn : n < 8) (x : KeySlot) :
    (s.setKeySlot n x).fld aSEC_SLOTS ⟨2 * n + 1, 2 * n⟩ = slotCode x := by
  have hset := State.fld_setFld_self s aSEC_SLOTS ⟨2 * n + 1, 2 * n⟩ (slotCode x) (by simp) (by simp; omega)
  refine Eq.trans hset (Nat.mod_eq_of_lt ?_)
  have hwidth : Fld.width ⟨2 * n + 1, 2 * n⟩ = 2 := by unfold Fld.width; simp; omega
  rw [hwidth]
  unfold slotCode
  split
  · decide
  · split <;> decide

theorem State.setKeySlot_keepsRegs (s : State) (n : Nat) (x : KeySlot) : KeepsRegs [aSEC_SLOTS] s (s.setKeySlot n x) :=
  (KeepsRegs.refl [aSEC_SLOTS] s).setFld (a := aSEC_SLOTS) (by simp) ⟨2 * n + 1, 2 * n⟩ (slotCode x)

/-- What the answer to work on a slot shows of it. -/
structure SlotSet (p : Port) (msg : Byte) (n : Nat) (x : KeySlot) (s t : State) : Prop where
  out : t.out = s.out ++ [.sec p msg 0x80 0 []]
  agenda : t.agenda = s.agenda
  mgt : t.mgt = s.mgt
  memory : KeepsMemory s t
  slot : t.keySlot n = x
  others : ∀ i, i ≠ n → t.keySlot i = s.keySlot i
  code : t.fld aSEC_SLOTS ⟨2 * n + 1, 2 * n⟩ = slotCode x
  regs : KeepsRegs [aSEC_SLOTS] s t

theorem State.setKeySlot_answered (hs : Sends p 3 s) (msg : Byte) {n : Nat} (hn : n < 8) (x : KeySlot) :
    SlotSet p msg n x s ((s.setKeySlot n x).secReply p msg 0 []) := by
  have hdoes : Does [.sec] [18] s (s.setKeySlot n x) := State.setKeySlot_does
  obtain ⟨hr, hout⟩ := State.worked_answered hdoes (by decide) (by decide) hs msg 0
  have hkey : ∀ k, ((s.setKeySlot n x).secReply p msg 0 []).keySlot k = (s.setKeySlot n x).keySlot k := fun k => by
    unfold State.keySlot; rw [hr.sec]
  exact {
    out := by rw [hr.out, hout]
    agenda := hr.agenda.trans (hdoes.same .agenda (by decide) (by decide))
    mgt := hr.mgt.trans (hdoes.same .mgt (by decide) (by decide))
    memory := (KeepsMemory.of_does hdoes (by decide)).trans hr.memory
    slot := by rw [hkey, State.setKeySlot_keySlot, if_pos rfl]
    others := fun i hi => by rw [hkey, State.setKeySlot_keySlot, if_neg hi]
    code := (State.fld_congr _ (hr.regs _ (by simp))).trans (s.setKeySlot_code hn x)
    regs := (s.setKeySlot_keepsRegs n x).trans (hr.regs.mono (by simp)) }

/-! ## ENROLL -/

/-- ENROLL once its session is judged (R466). -/
def State.enrolls (p : Port) (slot usage : Byte) (keys : List Byte) (s : State) : State :=
  if 8 ≤ slot.toNat ∨ usage &&& 7 = 0 ∨ keys.length ≠ 157 then s.secReply p 9 3 []
  else if (s.keySlot slot.toNat).used || (s.keySlot slot.toNat).revoked then s.secReply p 9 2 []
  else (s.setKeySlot slot.toNat
    { used := true, revoked := false, usage := usage.setWidth 3, anchor := Config.sha384 keys }).secReply p 9 0 []

theorem exec_enroll_eq {slot usage : Byte} {keys : List Byte} :
    exec (.enroll p slot usage keys) s = .next (s.service p 9 secRole (State.enrolls p slot usage keys)) := rfl

/-! ## ENROLL_CK -/

/-- A content key's signature by a live customer anchor with PATCH usage (R468). -/
def State.keySigned (s : State) (slot : Byte) (gen : BitVec 16) (key : BitVec 256) (sig : List Byte) : Bool :=
  (List.range 8).any (fun n => s.slotLive n 1 && Config.verify (s.keySlot n).anchor (s.keyMessage slot gen key) sig)

/-- A content key taken. -/
def State.contentSet (slot : Byte) (gen : BitVec 16) (key : BitVec 256) (s : State) : State :=
  { s with sec := { s.sec with content := Tab.set (fun _ => (0, 0)) s.sec.content slot.toNat (gen, key) } }

/-- ENROLL_CK once its session is judged (R468). -/
def State.enrollsCk (p : Port) (slot : Byte) (gen : BitVec 16) (key : BitVec 256) (sig : List Byte) (s : State) : State :=
  if slot.toNat = 0 ∨ 8 ≤ slot.toNat then s.secReply p 10 3 []
  else if !(s.keySigned slot gen key sig) then s.secReply p 10 4 []
  else if gen.toNat < (Tab.get (fun _ => ((0, 0) : BitVec 16 × BitVec 256)) s.sec.content slot.toNat).1.toNat then s.secReply p 10 2 []
  else (s.contentSet slot gen key).secReply p 10 0 []

theorem exec_enrollCk_eq {slot : Byte} {gen : BitVec 16} {key : BitVec 256} {sig : List Byte} :
    exec (.enrollCk p slot gen key sig) s = .next (s.service p 10 secRole (State.enrollsCk p slot gen key sig)) := rfl

theorem State.contentSet_does {slot : Byte} {gen : BitVec 16} {key : BitVec 256} : Does [.sec] [] s (s.contentSet slot gen key) :=
  Does.put_sec (by decide) Does.refl

/-! ## REVOKE -/

/-- A vendor slot revoked. -/
def State.vendorRevoked (v : Nat) (s : State) : State :=
  { s.setFld aSEC_SLOTS ⟨16 + v, 16 + v⟩ 1 with sec := { s.sec with vendorRevoked := s.sec.vendorRevoked ||| (1#7 <<< v) } }

/-- REVOKE of a vendor slot (R466). -/
def State.revokesVendor (p : Port) (slot : Byte) (sig : List Byte) (s : State) : State :=
  if slot.toNat < 0x80 ∨ 7 ≤ slot.toNat - 0x80 then s.secReply p 11 3 []
  else match vendorPair (slot.toNat - 0x80) with
    | none => s.secReply p 11 2 []
    | some o =>
      if s.sec.vendorRevoked.getLsbD o then s.secReply p 11 2 []
      else if !(Config.revokeSigned (Config.vendorAnchor o) (slot.toNat - 0x80) sig) then s.secReply p 11 4 []
      else (s.vendorRevoked (slot.toNat - 0x80)).secReply p 11 0 []

/-- REVOKE once its session is judged (R466). -/
def State.revokes (p : Port) (slot : Byte) (sig : List Byte) (s : State) : State :=
  if slot.toNat < 8 then (s.setKeySlot slot.toNat { s.keySlot slot.toNat with revoked := true }).secReply p 11 0 []
  else s.revokesVendor p slot sig

theorem exec_revoke_eq {slot : Byte} {sig : List Byte} :
    exec (.revoke p slot sig) s = .next (s.service p 11 secRole (State.revokes p slot sig)) := by
  refine congrArg (fun f => Host.Outcome.next (s.service p 11 secRole f)) (funext fun u => ?_)
  unfold State.revokes State.revokesVendor
  refine ite_congr rfl (fun _ => rfl) fun _ => ite_congr rfl (fun _ => rfl) fun _ => ?_
  cases vendorPair (slot.toNat - 0x80) <;> rfl

theorem State.vendorRevoked_does {v : Nat} : Does [.sec] [18] s (s.vendorRevoked v) :=
  Does.put_sec (by decide) (Does.setFld adr_SEC_SLOTS (by decide) Does.refl)

theorem State.vendorRevoked_shows (s : State) {v o : Nat} (hv : v < 7) (ho : o ≠ v) : let t := s.vendorRevoked v
    t.sec.vendorRevoked.getLsbD v = true ∧ t.sec.vendorRevoked.getLsbD o = s.sec.vendorRevoked.getLsbD o ∧
      t.bit aSEC_SLOTS ⟨16 + v, 16 + v⟩ = true ∧ KeepsRegs [aSEC_SLOTS] s t := by
  have hset := State.bit_setBit_self s aSEC_SLOTS ⟨16 + v, 16 + v⟩ true rfl (by simp; omega)
  have hregs := (KeepsRegs.refl [aSEC_SLOTS] s).setFld (a := aSEC_SLOTS) (by simp) ⟨16 + v, 16 + v⟩ 1
  refine ⟨?_, ?_, hset, hregs⟩
  · change (s.sec.vendorRevoked ||| (1#7 <<< v)).getLsbD v = true
    simp [hv]
  · change (s.sec.vendorRevoked ||| (1#7 <<< v)).getLsbD o = _
    rw [BitVec.getLsbD_or, BitVec.getLsbD_shiftLeft]
    by_cases hlt : o < v
    · simp [hlt]
    · have hpos : o - v ≠ 0 := by omega
      simp [hlt, hpos]

theorem vendorPair_ne {v o : Nat} (h : vendorPair v = some o) : o ≠ v := by
  unfold vendorPair at h
  split at h
  · simp only [Option.some.injEq] at h
    split at h <;> omega
  · exact absurd h (by simp)

end Sys2Proof.Machine
end

section
/-! Floors, the fuses of the mode and of zeroisation, and the spill store (O46; R463, R465, R467, R479, R481). -/
namespace Sys2Proof.Machine

variable {s t u : State} {p : Port}

/-! ## FLOOR and MODE -/

/-- A floor raised. -/
def State.floorSet (f : Nat) (v : Word) (s : State) : State :=
  { s.setReg (aSEC_FLOOR f) v with sec := { s.sec with
      floors := s.sec.floors.set f v.toNat
      floorRaises := s.sec.floorRaises.set f (s.sec.floorRaises.getD f 0 + 1) } }

/-- FLOOR once its session is judged (R467). -/
def State.floors (p : Port) (which : Byte) (v : Word) (s : State) : State :=
  if 4 ≤ which.toNat then s.secReply p 12 3 []
  else if s.objVersion which.toNat < v.toNat ∨ v.toNat ≤ (s.reg (aSEC_FLOOR which.toNat)).toNat then s.secReply p 12 2 []
  else if 255 ≤ s.sec.floorRaises.getD which.toNat 0 then s.secReply p 12 8 []
  else (s.floorSet which.toNat v).secReply p 12 0 []

theorem exec_floor_eq {which : Byte} {v : Word} :
    exec (.floor p which v) s = .next (s.service p 12 secRole (State.floors p which v)) := rfl

theorem State.floorSet_does {f : Nat} {v : Word} : Does [.sec] [18] s (s.floorSet f v) :=
  Does.put_sec (by decide) (Does.setReg adr_SEC_FLOOR (by decide) Does.refl)

theorem State.floorSet_reg (s : State) (f : Nat) (v : Word) : (s.floorSet f v).reg (aSEC_FLOOR f) = v :=
  State.reg_setReg_self s _ v

theorem State.floorSet_keepsRegs (s : State) (f : Nat) (v : Word) : KeepsRegs [aSEC_FLOOR f] s (s.floorSet f v) :=
  (KeepsRegs.refl [aSEC_FLOOR f] s).setReg (a := aSEC_FLOOR f) (by simp) v

/-- The fuse of the approved mode burned. -/
def State.approved (s : State) : State := { s with sec := { s.sec with approvedFuse := true } }

theorem exec_mode_eq : exec (.mode p) s = .next (s.service p 13 secRole (fun u => u.approved.secReply p 13 0 [])) := rfl

theorem State.approved_does : Does [.sec] [] s s.approved := Does.put_sec (by decide) Does.refl

/-! ## ZEROISE -/

/-- What the fuse of zeroisation takes from the island: content keys, exchanges and requests (R465). -/
def State.zeroised (s : State) : State :=
  { s with sec := { s.sec with zeroisedFuse := true, content := [], exch := [], requests := [] } }

/-- A class's stream without what it spilled. -/
def State.spillLost (s : State) (c : Nat) : State := s.setStream c { s.stream c with spilled := [], old := [] }

/-- The spill store with nothing to read, its erase begun. -/
def State.spillForgotten (s : State) : State :=
  let s4 := (s.setReg aSPL_USED 0).latch aSEC_STAT fSEC_STAT_ERASING
  ((s4.spillLost 0).spillLost 1).setWide aSPL_RD 2 (s4.wide aSPL_WR 2)

/-- ZEROISE once its session is judged (R465). -/
def State.zeroises (p : Port) (s : State) : State :=
  (((((s.secReply p 14 0 []).zeroised.eraseFieldRecords.endSession 0 14).endSession 1 14).setFld
    aSEC_STAT fSEC_STAT_STATE seZeroised).spillForgotten).raise 116 islSecurity

theorem exec_zeroise_eq : exec (.zeroise p) s = .next (s.service p 14 secRole (State.zeroises p)) := rfl

/-- The island burned: no content key, no exchange, no request; its customer slots are `slots`. -/
structure Erased (slots : Tab KeySlot) (s : State) : Prop where
  fuse : s.sec.zeroisedFuse = true
  content : s.sec.content = []
  exchange : s.sec.exch = []
  requests : s.sec.requests = []
  slots : s.sec.slots = slots

theorem State.zeroised_erased (s : State) : Erased s.sec.slots s.zeroised := ⟨rfl, rfl, rfl, rfl, rfl⟩

section
variable {slots : Tab KeySlot}

theorem Erased.of_sec (h : Erased slots s) (hsec : t.sec = s.sec) : Erased slots t := by
  obtain ⟨hfuse, hcontent, hexch, hreq, hslots⟩ := h
  rw [← hsec] at hfuse hcontent hexch hreq hslots
  exact ⟨hfuse, hcontent, hexch, hreq, hslots⟩

theorem Erased.down (h : Erased slots s) : s.secUp = false := by
  unfold State.secUp
  rw [h.fuse]
  simp

theorem Erased.endSession (h : Erased slots s) (q : Port) (cause : Nat) : Erased slots (s.endSession q.val cause) := by
  cases hses : s.session q.val
  · rwa [show s.endSession q.val cause = s from if_neg (by rw [hses]; decide)]
  · rw [State.endSession_ends hses]
    have hforgot : Erased slots ((s.sessionShown q.val 0 0 0).sessionForgotten q.val) :=
      ⟨h.fuse, h.content, h.exchange, (congrArg (List.filter _) h.requests :), h.slots⟩
    exact hforgot.of_sec (State.log_sec _ _ _ _)

end

theorem State.endSession_none {q : Nat} (h : s.session q = false) (cause : Nat) : s.endSession q cause = s :=
  if_neg (by rw [h]; decide)

theorem State.endSession_session (s : State) (q : Port) (cause : Nat) : (s.endSession q.val cause).session q.val = false := by
  cases h : s.session q.val
  · rw [State.endSession_none h, h]
  · exact (State.endSession_closes q h cause).session

theorem State.endSession_other (s : State) (q : Port) (cause : Nat) :
    (s.endSession q.val cause).session (1 - q.val) = s.session (1 - q.val) := by
  cases h : s.session q.val
  · rw [State.endSession_none h]
  · exact (State.endSession_closes q h cause).other

theorem State.spillLost_stream (s : State) (c d : Nat) : ((s.spillLost c).stream d).spilled = if d = c then [] else (s.stream d).spilled := by
  unfold State.spillLost
  rw [State.setStream_stream]
  split <;> rfl

/-- The spill store once nothing of it is to be read. -/
structure SpillForgotten (s t : State) : Prop where
  used : t.reg aSPL_USED = 0
  erasing : t.bit aSEC_STAT fSEC_STAT_ERASING = true
  streams : ∀ b : Bool, (t.stream b.toNat).spilled = []
  regs : KeepsRegs [aSPL_USED, aSEC_STAT, aSPL_RD, aSPL_RD + 4] s t
  sec : t.sec = s.sec
  record : t.calRec = s.calRec
  count : t.count = s.count

theorem State.spillForgotten_shows (s : State) : SpillForgotten s s.spillForgotten where
  used := by
    refine (State.setWide_two_keepsRegs _ aSPL_RD _ aSPL_USED (by decide)).trans ?_
    refine (State.reg_latch_ne _ _ (by decide)).trans ?_
    exact State.reg_setReg_self s aSPL_USED 0
  erasing := by
    refine (State.bit_congr _ (State.setWide_two_keepsRegs _ aSPL_RD _ aSEC_STAT (by decide))).trans ?_
    exact State.bit_latch_self (s.setReg aSPL_USED 0) aSEC_STAT fSEC_STAT_ERASING rfl (by decide)
  streams b := by
    have hsp : ∀ a : State, (((a.spillLost 0).spillLost 1).stream b.toNat).spilled = [] := fun a => by
      rw [State.spillLost_stream, State.spillLost_stream]
      cases b <;> rfl
    exact hsp _
  regs := ((((KeepsRegs.refl [aSPL_USED, aSEC_STAT, aSPL_RD, aSPL_RD + 4] s).setReg (a := aSPL_USED) (by simp) 0).latch
    (a := aSEC_STAT) (by simp) fSEC_STAT_ERASING).trans (fun _ _ => rfl :)).setWide_two (a := aSPL_RD) (by simp) (by simp) _
  sec := rfl
  record := rfl
  count := rfl

/-- What ZEROISE leaves. -/
structure Zeroised (p : Port) (s t : State) : Prop where
  erased : Erased s.sec.slots t
  records : t.calRec.field = []
  sessions : ∀ q : Port, t.session q.val = false
  used : t.reg aSPL_USED = 0
  erasing : t.bit aSEC_STAT fSEC_STAT_ERASING = true
  streams : ∀ b : Bool, (t.stream b.toNat).spilled = []
  raised : Raises 116 islSecurity s t

/-- The island burned, its records erased and its sessions ended. -/
def State.islandZeroised (p : Port) (s : State) : State :=
  ((s.secReply p 14 0 []).zeroised.eraseFieldRecords.endSession 0 14).endSession 1 14

theorem State.islandZeroised_ends (p : Port) (s : State) : Erased s.sec.slots (s.islandZeroised p) ∧
    (∀ q : Port, (s.islandZeroised p).session q.val = false) ∧ (s.islandZeroised p).calRec.field = [] ∧
    (s.islandZeroised p).count = s.count := by
  unfold State.islandZeroised
  have hreply := (s.secReply_replied p 14 0 []).sec
  have hcount : (s.secReply p 14 0 []).count = s.count := State.secReply_does.same .count (by decide) (by decide)
  generalize s.secReply p 14 0 [] = a at *
  have herased : Erased s.sec.slots a.zeroised.eraseFieldRecords := by
    have h := a.zeroised_erased
    rw [hreply] at h
    exact h.of_sec rfl
  have hfield : a.zeroised.eraseFieldRecords.calRec.field = [] := rfl
  have hcount' : a.zeroised.eraseFieldRecords.count = s.count := hcount
  generalize a.zeroised.eraseFieldRecords = b at *
  have hends : Does [.sec, .mgt] [13, 16, 18] b ((b.endSession 0 14).endSession 1 14) :=
    (State.endSession_does (p := 1) (cause := 14)).call (by decide) State.endSession_does
  refine ⟨(herased.endSession 0 14).endSession 1 14, fun q => ?_, ?_, ?_⟩
  · match q with
    | 0 => exact (State.endSession_other _ 1 14).trans (b.endSession_session 0 14)
    | 1 => exact State.endSession_session _ 1 14
  · rw [hends.same .calRec (by decide) (by decide), hfield]
  · rw [hends.same .count (by decide) (by decide), hcount']

theorem State.zeroises_shows (p : Port) (s : State) : Zeroised p s (s.zeroises p) := by
  obtain ⟨herased, hses, hfield, hcount⟩ := s.islandZeroised_ends p
  change Zeroised p s ((((s.islandZeroised p).setFld aSEC_STAT fSEC_STAT_STATE seZeroised).spillForgotten).raise 116 islSecurity)
  generalize s.islandZeroised p = a at *
  have hset : ∀ q : Port, (a.setFld aSEC_STAT fSEC_STAT_STATE seZeroised).session q.val = false := fun q => by
    rw [← hses q]
    refine State.bit_congr _ (State.reg_setReg_ne _ _ ?_)
    simp only [aSEC_STAT, aLP_STAT]; omega
  have hforgot := (a.setFld aSEC_STAT fSEC_STAT_STATE seZeroised).spillForgotten_shows
  have herased' : Erased s.sec.slots (a.setFld aSEC_STAT fSEC_STAT_STATE seZeroised) := herased.of_sec rfl
  have hfield' : (a.setFld aSEC_STAT fSEC_STAT_STATE seZeroised).calRec.field = [] := hfield
  have hcount' : (a.setFld aSEC_STAT fSEC_STAT_STATE seZeroised).count = s.count := hcount
  generalize a.setFld aSEC_STAT fSEC_STAT_STATE seZeroised = b at *
  generalize b.spillForgotten = c at *
  have hsessions : ∀ q : Port, c.session q.val = false := fun q => by
    rw [← hset q]
    refine State.bit_congr _ (hforgot.regs _ ?_)
    simp only [List.mem_cons, List.not_mem_nil, or_false, aLP_STAT, aSPL_USED, aSEC_STAT, aSPL_RD]
    omega
  exact {
    erased := (herased'.of_sec hforgot.sec).of_sec (t := c.raise 116 islSecurity) rfl
    records := by rw [← hfield', ← hforgot.record]; rfl
    sessions := hsessions
    used := hforgot.used
    erasing := hforgot.erasing
    streams := hforgot.streams
    raised := raises_of_count (hforgot.count.trans hcount') 116 islSecurity }

theorem State.spillForgotten_does : Does [.acq, .fresh] [10, 18] s s.spillForgotten := by
  have hset : Does [.acq, .fresh] [10, 18] s ((s.setReg aSPL_USED 0).latch aSEC_STAT fSEC_STAT_ERASING) :=
    .latch adr_SEC_STAT (by decide) (.setReg adr_SPL_USED (by decide) .refl)
  have hlost : ∀ (a : State) (c : Nat), Does [.acq] [] a (a.spillLost c) := fun _ _ => State.setStream_does
  unfold State.spillForgotten
  generalize (s.setReg aSPL_USED 0).latch aSEC_STAT fSEC_STAT_ERASING = a at *
  exact .setWide adr_SPL_RD (by decide) ((hlost _ 1).call (by decide) ((hlost a 0).call (by decide) hset))

/-- ZEROISE sends nothing but its answer and touches no memory of the data paths. -/
theorem State.zeroises_does : Does [.sec, .calRec, .mgt, .agenda, .acq, .fresh] [10, 13, 16, 18] (s.secReply p 14 0 []) (s.zeroises p) := by
  unfold State.zeroises
  generalize s.secReply p 14 0 [] = a
  have hburn : Does [.sec, .calRec, .mgt, .agenda, .acq, .fresh] [10, 13, 16, 18] a a.zeroised.eraseFieldRecords :=
    State.eraseFieldRecords_does.call (by decide) (Does.put_sec (by decide) Does.refl)
  generalize a.zeroised.eraseFieldRecords = b at *
  have hends : Does [.sec, .calRec, .mgt, .agenda, .acq, .fresh] [10, 13, 16, 18] a ((b.endSession 0 14).endSession 1 14) :=
    (State.endSession_does (p := 1) (cause := 14)).call (by decide) (State.endSession_does.call (by decide) hburn)
  generalize (b.endSession 0 14).endSession 1 14 = c at *
  exact State.raise_does.call (by decide) (State.spillForgotten_does.call (by decide) (.setFld adr_SEC_STAT (by decide) hends))

/-! ## The erase of the spill store, and the test port -/

theorem exec_spillEraseDone_on (h : s.bit aSEC_STAT fSEC_STAT_ERASING = true) :
    exec .spillEraseDone s = .next ({ s with spill := [] }.setBit aSEC_STAT fSEC_STAT_ERASING false) :=
  congrArg Host.Outcome.next (if_pos h)

theorem exec_spillEraseDone_off (h : s.bit aSEC_STAT fSEC_STAT_ERASING = false) : exec .spillEraseDone s = .next s :=
  congrArg Host.Outcome.next (if_neg (by rw [h]; decide))

theorem exec_portAccess_on (h : s.bit aSEC_STAT fSEC_STAT_APPROVED = true) :
    exec .portAccess s = .next ((s.latch aSEC_LAT fSEC_LAT_PORTACC).raise 125 islSecurity) := if_pos h

theorem exec_portAccess_off (h : s.bit aSEC_STAT fSEC_STAT_APPROVED = false) : exec .portAccess s = .next s :=
  if_neg (by rw [h]; decide)

end Sys2Proof.Machine
end

section
/-! Keys, floors and fuses: the statement (O46; R463, R465 to R468, R479, R481). -/
namespace Sys2Proof.Machine

variable {s t u : State} {p : Port} {msg status : Byte}

/-- What an answer with a status alone shows of a command that changes nothing. -/
theorem Answered.refuses (h : Answered p msg status s t) : t.out = s.out ++ [.sec p msg 0x80 status []] ∧ t.sec = s.sec ∧ KeepsRegs [] s t ∧
    t.agenda = s.agenda ∧ KeepsMemory s t := ⟨h.out, h.sec, h.regs, h.agenda, h.memory⟩

/-- What the answer to work that changes the island alone shows of it. -/
structure Done (p : Port) (msg : Byte) (s t u : State) : Prop where
  answer : u.out = s.out ++ [.sec p msg 0x80 0 []] ∧ u.agenda = s.agenda ∧ u.mgt = s.mgt ∧ KeepsMemory s u
  sec : u.sec = t.sec
  regs : KeepsRegs [] t u

theorem State.secReply_done {bs : List Nat} (hd : Does [.sec] bs s t) (hb : 13 ∉ bs) (hs : Sends p 3 s) (msg : Byte) :
    Done p msg s t (t.secReply p msg 0 []) := by
  obtain ⟨hr, hout⟩ := State.worked_answered hd ⟨by decide, hb, by decide⟩ (by decide) hs msg 0
  exact {
    answer := ⟨by rw [hr.out, hout], hr.agenda.trans (hd.same .agenda (by decide) (by decide)),
      hr.mgt.trans (hd.same .mgt (by decide) (by decide)), (KeepsMemory.of_does hd (by decide)).trans hr.memory⟩
    sec := hr.sec
    regs := hr.regs }

/-! ## A service refused -/

section
variable {slot usage which : Byte} {keys sig : List Byte} {gen : BitVec 16} {key : BitVec 256} {v : Word} {r : Instr × Byte}

/-- The services of a security officer on keys, floors and fuses, each with its message. -/
def keyServices (p : Port) (slot usage which : Byte) (keys sig : List Byte) (gen : BitVec 16) (key : BitVec 256) (v : Word) :
    List (Instr × Byte) :=
  [(.enroll p slot usage keys, 9), (.enrollCk p slot gen key sig, 10), (.revoke p slot sig, 11), (.floor p which v, 12), (.mode p, 13),
    (.zeroise p, 14)]

theorem keyServices_outside (hs : Sends p 3 s) (h : s.session p.val = false ∨ s.sessRole p.val ≠ 3)
    (hr : r ∈ keyServices p slot usage which keys sig gen key v) : ∃ t, exec r.1 s = .next t ∧ Answered p r.2 1 s t := by
  obtain ⟨f, hexec⟩ := keyService_serves (s := s) hr
  have hright : s.session p.val = false ∨ secRole (s.sessRole p.val) = false := h.imp_right fun hne => beq_false_of_ne hne
  exact ⟨_, hexec.trans (congrArg _ (State.service_outside hright)), State.secReply_answered hs r.2 1⟩

theorem keyServices_provisional (hs : Sends p 3 s) (h : s.sec.provisional.getD p.val false = true)
    (hr : r ∈ (keyServices p slot usage which keys sig gen key v).drop 1) : ∃ t, exec r.1 s = .next t ∧ Answered p r.2 1 s t := by
  obtain ⟨f, hexec⟩ := keyService_serves (s := s) (List.mem_of_mem_drop hr)
  have hmsg : (r.2 == 4 || r.2 == 5 || r.2 == 6 || r.2 == 9) = false := by
    simp only [keyServices, List.drop_succ_cons, List.drop_zero, List.mem_cons, List.not_mem_nil, or_false] at hr
    rcases hr with rfl | rfl | rfl | rfl | rfl
    all_goals rfl
  exact ⟨_, hexec.trans (congrArg _ (State.service_provisional h hmsg)), State.secReply_answered hs r.2 1⟩

theorem keyServices_down (hs : Sends p 3 s) (hses : s.session p.val = true) (hrole : s.sessRole p.val = 3)
    (hprov : s.sec.provisional.getD p.val false = false) (hdown : s.secUp = false)
    (hr : r ∈ keyServices p slot usage which keys sig gen key v) : ∃ t, exec r.1 s = .next t ∧ Answered p r.2 2 s t := by
  obtain ⟨f, hexec⟩ := keyService_serves (s := s) hr
  have hserve : MayServe p r.2 secRole s := ⟨hses, by rw [hrole]; rfl, by rw [hprov]; rfl⟩
  exact ⟨_, hexec.trans (congrArg _ (State.service_down hserve hdown)), State.secReply_answered hs r.2 2⟩

end

/-! ## A service done -/

/-- A security officer's session that the island serves; an ENROLL is served in a provisional one too. -/
structure Officer (p : Port) (s : State) : Prop where
  session : s.session p.val = true
  role : s.sessRole p.val = 3
  up : s.secUp = true
  sends : Sends p 3 s

theorem Officer.serves (h : Officer p s) (hissuer : s.sec.provisional.getD p.val false = false ∨ msg = 9) (f : State → State) :
    s.service p msg secRole f = f s := by
  obtain ⟨hses, hrole, hup, -⟩ := h
  refine State.service_runs ⟨hses, by rw [hrole]; rfl, ?_⟩ hup
  obtain hprov | rfl := hissuer
  · rw [hprov]; rfl
  · simp

section
variable {slot usage : Byte} {keys : List Byte}

theorem enroll_runs (h : Officer p s) : exec (.enroll p slot usage keys) s = .next (s.enrolls p slot usage keys) :=
  exec_enroll_eq.trans (congrArg _ (h.serves (.inr rfl) _))

theorem State.enrolls_bad (h : 8 ≤ slot.toNat ∨ usage &&& 7 = 0 ∨ keys.length ≠ 157) :
    s.enrolls p slot usage keys = s.secReply p 9 3 [] := if_pos h

theorem State.enrolls_taken (h8 : slot.toNat < 8) (husage : usage &&& 7 ≠ 0) (hlen : keys.length = 157)
    (h : (s.keySlot slot.toNat).used = true ∨ (s.keySlot slot.toNat).revoked = true) :
    s.enrolls p slot usage keys = s.secReply p 9 2 [] :=
  (if_neg (by push Not; exact ⟨h8, husage, hlen⟩)).trans (if_pos (by rw [Bool.or_eq_true]; exact h))

theorem State.enrolls_free (h8 : slot.toNat < 8) (husage : usage &&& 7 ≠ 0) (hlen : keys.length = 157)
    (hused : (s.keySlot slot.toNat).used = false) (hrev : (s.keySlot slot.toNat).revoked = false) :
    s.enrolls p slot usage keys =
      (s.setKeySlot slot.toNat ⟨true, false, usage.setWidth 3, Config.sha384 keys⟩).secReply p 9 0 [] :=
  (if_neg (by push Not; exact ⟨h8, husage, hlen⟩)).trans (if_neg (by rw [hused, hrev]; decide))

end

section
variable {slot : Byte} {gen : BitVec 16} {key : BitVec 256} {sig : List Byte}

theorem enrollCk_runs (h : Officer p s) (hprov : s.sec.provisional.getD p.val false = false) :
    exec (.enrollCk p slot gen key sig) s = .next (s.enrollsCk p slot gen key sig) :=
  exec_enrollCk_eq.trans (congrArg _ (h.serves (.inl hprov) _))

/-- The generation of a content key in force. -/
def State.contentGen (s : State) (slot : Byte) : Nat := (Tab.get (fun _ => ((0, 0) : BitVec 16 × BitVec 256)) s.sec.content slot.toNat).1.toNat

theorem State.enrollsCk_bad (h : slot.toNat = 0 ∨ 8 ≤ slot.toNat) : s.enrollsCk p slot gen key sig = s.secReply p 10 3 [] := if_pos h

section
variable (h1 : 1 ≤ slot.toNat) (h8 : slot.toNat < 8)
include h1 h8

theorem State.enrollsCk_unsigned (hsig : s.keySigned slot gen key sig = false) :
    s.enrollsCk p slot gen key sig = s.secReply p 10 4 [] := (if_neg (by omega)).trans (if_pos (by rw [hsig]; rfl))

theorem State.enrollsCk_old (hsig : s.keySigned slot gen key sig = true) (hold : gen.toNat < s.contentGen slot) :
    s.enrollsCk p slot gen key sig = s.secReply p 10 2 [] :=
  (if_neg (by omega)).trans ((if_neg (by rw [hsig]; decide)).trans (if_pos hold))

theorem State.enrollsCk_new (hsig : s.keySigned slot gen key sig = true) (hnew : s.contentGen slot ≤ gen.toNat) :
    s.enrollsCk p slot gen key sig = (s.contentSet slot gen key).secReply p 10 0 [] :=
  (if_neg (by omega)).trans ((if_neg (by rw [hsig]; decide)).trans (if_neg (Nat.not_lt.mpr hnew)))

end

theorem State.contentSet_content (s : State) (slot : Byte) (gen : BitVec 16) (key : BitVec 256) :
    Tab.get (fun _ => ((0, 0) : BitVec 16 × BitVec 256)) (s.contentSet slot gen key).sec.content slot.toNat = (gen, key) :=
  Tab.get_set_self _ _ _ _

end

section
variable {slot : Byte} {sig : List Byte} {o : Nat}

theorem revoke_runs (h : Officer p s) (hprov : s.sec.provisional.getD p.val false = false) :
    exec (.revoke p slot sig) s = .next (s.revokes p slot sig) :=
  exec_revoke_eq.trans (congrArg _ (h.serves (.inl hprov) _))

theorem State.revokes_beyond (h : (8 ≤ slot.toNat ∧ slot.toNat < 0x80) ∨ 0x87 ≤ slot.toNat) :
    s.revokes p slot sig = s.secReply p 11 3 [] := (if_neg (by omega)).trans (if_pos (by omega))

theorem State.revokes_vendor (h : 0x80 ≤ slot.toNat) (h7 : slot.toNat < 0x87) : s.revokes p slot sig =
    match vendorPair (slot.toNat - 0x80) with
    | none => s.secReply p 11 2 []
    | some o =>
      if s.sec.vendorRevoked.getLsbD o then s.secReply p 11 2 []
      else if !(Config.revokeSigned (Config.vendorAnchor o) (slot.toNat - 0x80) sig) then s.secReply p 11 4 []
      else (s.vendorRevoked (slot.toNat - 0x80)).secReply p 11 0 [] := by
  refine (if_neg (by omega)).trans ((if_neg (by omega)).trans ?_)
  cases vendorPair (slot.toNat - 0x80) <;> rfl

theorem State.revokes_unpaired (h : slot.toNat = 0x86) : s.revokes p slot sig = s.secReply p 11 2 [] := by
  rw [State.revokes_vendor (by omega) (by omega), show vendorPair (slot.toNat - 0x80) = none by rw [h]; rfl]

theorem State.revokes_revokedPair (h : 0x80 ≤ slot.toNat) (h6 : slot.toNat < 0x86) (ho : vendorPair (slot.toNat - 0x80) = some o)
    (hrev : s.sec.vendorRevoked.getLsbD o = true) : s.revokes p slot sig = s.secReply p 11 2 [] := by
  rw [State.revokes_vendor h (by omega), ho]
  exact if_pos hrev

theorem State.revokes_pair (h : 0x80 ≤ slot.toNat) (h6 : slot.toNat < 0x86) (ho : vendorPair (slot.toNat - 0x80) = some o)
    (hrev : s.sec.vendorRevoked.getLsbD o = false) : s.revokes p slot sig =
      if !(Config.revokeSigned (Config.vendorAnchor o) (slot.toNat - 0x80) sig) then s.secReply p 11 4 []
      else (s.vendorRevoked (slot.toNat - 0x80)).secReply p 11 0 [] := by
  rw [State.revokes_vendor h (by omega), ho]
  exact if_neg (by rw [hrev]; decide)

theorem State.slotLive_revoked {n : Nat} (h : (s.keySlot n).revoked = true) (u : Nat) : s.slotLive n u = false := by
  change (decide (n < 8) && (s.keySlot n).used && !(s.keySlot n).revoked && (s.keySlot n).usage.getLsbD u) = false
  rw [h]
  simp

end

section
variable {which : Byte} {v : Word}

theorem floor_runs (h : Officer p s) (hprov : s.sec.provisional.getD p.val false = false) :
    exec (.floor p which v) s = .next (s.floors p which v) :=
  exec_floor_eq.trans (congrArg _ (h.serves (.inl hprov) _))

theorem State.floors_low (h4 : which.toNat < 4)
    (h : v.toNat ≤ (s.reg (aSEC_FLOOR which.toNat)).toNat ∨ s.objVersion which.toNat < v.toNat) :
    s.floors p which v = s.secReply p 12 2 [] := (if_neg (by omega)).trans (if_pos h.symm)

theorem State.floors_raised (h4 : which.toNat < 4) (hlow : (s.reg (aSEC_FLOOR which.toNat)).toNat < v.toNat)
    (hver : v.toNat ≤ s.objVersion which.toNat) (hleft : s.sec.floorRaises.getD which.toNat 0 < 255) :
    s.floors p which v = (s.floorSet which.toNat v).secReply p 12 0 [] :=
  (if_neg (by omega)).trans ((if_neg (by push Not; exact ⟨hver, hlow⟩)).trans (if_neg (by omega)))

end

/-- Settles O46: a service outside its session's rights, or of an island that is not up, is answered with a STATUS; each of the others
is its command's own work, and ZEROISE ends everything that the fuse takes (`State.zeroises_shows`). -/
theorem keysAndFloors : Obligations.KeysAndFloors := by
  unfold Obligations.KeysAndFloors
  intro p slot usage which keys sig gen key v s all refused ok right full signed now vend
  have hofficer : right → Officer p s := fun ⟨h1, h2, h3, h4⟩ => ⟨h1, h2, h3, h4⟩
  have hanswer : ∀ {c : Instr} {msg st : Byte}, Sends p 3 s → exec c s = .next (s.secReply p msg st []) → Completes c s (refused msg st) :=
    fun hs hexec => ⟨_, hexec, (State.secReply_answered hs _ _).refuses⟩
  refine ⟨fun hs hout r hr => ?outside, fun hs hprov r hr => ?provisional, fun hs hses hrole hprov hdown r hr => ?down,
    fun hr h8 husage hlen hused hrev => ?enrolled, fun hr h8 husage hlen htaken => hanswer hr.2.2.2 ((enroll_runs (hofficer hr)).trans
      (congrArg _ (State.enrolls_taken h8 husage hlen htaken))), fun hr hbad => hanswer hr.2.2.2 ((enroll_runs (hofficer hr)).trans
      (congrArg _ (State.enrolls_bad hbad))), fun ⟨hr, hprov⟩ h1 h8 => ?content, fun ⟨hr, hprov⟩ hbad => hanswer hr.2.2.2
      ((enrollCk_runs (hofficer hr) hprov).trans (congrArg _ (State.enrollsCk_bad hbad))), fun ⟨hr, hprov⟩ h8 => ?revoked,
    fun ⟨hr, hprov⟩ h80 h86 o ho hlive => ?vendor, fun ⟨hr, hprov⟩ h80 h86 o ho hgone => hanswer hr.2.2.2
      ((revoke_runs (hofficer hr) hprov).trans (congrArg _ (State.revokes_revokedPair h80 h86 ho hgone))),
    fun ⟨hr, hprov⟩ h86 => hanswer hr.2.2.2 ((revoke_runs (hofficer hr) hprov).trans (congrArg _ (State.revokes_unpaired h86))),
    fun ⟨hr, hprov⟩ hbad => hanswer hr.2.2.2 ((revoke_runs (hofficer hr) hprov).trans (congrArg _ (State.revokes_beyond hbad))),
    fun ⟨hr, hprov⟩ h4 hlow hver hleft => ?floor, fun ⟨hr, hprov⟩ h4 hbad => hanswer hr.2.2.2
      ((floor_runs (hofficer hr) hprov).trans (congrArg _ (State.floors_low h4 hbad))), fun ⟨hr, hprov⟩ => ?mode, fun ⟨hr, hprov⟩ => ?zeroise,
    fun her => ?erased, fun her => ⟨s, exec_spillEraseDone_off her, rfl⟩, fun hap => ?port, fun hap => ⟨s, exec_portAccess_off hap, rfl⟩⟩
  case outside =>
    obtain ⟨t, hexec, ht⟩ := keyServices_outside hs hout hr
    exact ⟨t, hexec, ht.refuses⟩
  case provisional =>
    obtain ⟨t, hexec, ht⟩ := keyServices_provisional hs hprov hr
    exact ⟨t, hexec, ht.refuses⟩
  case down =>
    obtain ⟨t, hexec, ht⟩ := keyServices_down hs hses hrole hprov hdown hr
    exact ⟨t, hexec, ht.refuses⟩
  case enrolled =>
    have hset := State.setKeySlot_answered hr.2.2.2 9 h8 ⟨true, false, usage.setWidth 3, Config.sha384 keys⟩
    exact ⟨_, (enroll_runs (hofficer hr)).trans (congrArg _ (State.enrolls_free h8 husage hlen hused hrev)),
      ⟨hset.out, hset.agenda, hset.mgt, hset.memory⟩, hset.slot, hset.others, hset.code, hset.regs⟩
  case content =>
    refine ⟨_, enrollCk_runs (hofficer hr) hprov, ?_⟩
    have hanswered := fun st => (State.secReply_answered hr.2.2.2 10 st).refuses
    have hdone := State.secReply_done (State.contentSet_does (slot := slot) (gen := gen) (key := key)) (by decide) hr.2.2.2 10
    refine ⟨fun h => ?_, fun h hold => ?_, fun h hnew => ?_⟩
    · rw [State.enrollsCk_unsigned h1 h8 h]; exact hanswered 4
    · rw [State.enrollsCk_old h1 h8 h hold]; exact hanswered 2
    · rw [State.enrollsCk_new h1 h8 h hnew]
      exact ⟨hdone.answer, by rw [hdone.sec]; exact s.contentSet_content slot gen key, by rw [hdone.sec]; rfl, hdone.regs⟩
  case revoked =>
    have hset := State.setKeySlot_answered hr.2.2.2 11 h8 { s.keySlot slot.toNat with revoked := true }
    refine ⟨_, (revoke_runs (hofficer hr) hprov).trans (congrArg _ (if_pos h8)), ⟨hset.out, hset.agenda, hset.mgt, hset.memory⟩,
      by rw [hset.slot], State.slotLive_revoked (by rw [hset.slot]), hset.others, hset.code, hset.regs⟩
  case vendor =>
    refine ⟨_, (revoke_runs (hofficer hr) hprov).trans (congrArg _ (State.revokes_pair h80 h86 ho hlive)), fun hsig => ?_, fun hsig => ?_⟩
    · have hdone := State.secReply_done (State.vendorRevoked_does (s := s) (v := vend)) (by decide) hr.2.2.2 11
      obtain ⟨hgone, hother, hbit, hregs⟩ := s.vendorRevoked_shows (v := vend) (by omega) (vendorPair_ne ho)
      rw [if_neg (by rw [hsig]; decide)]
      exact ⟨hdone.answer, by rw [hdone.sec]; exact hgone, by rw [hdone.sec]; exact hother.trans hlive,
        (State.bit_congr _ (hdone.regs _ (by simp))).trans hbit, hregs.trans (hdone.regs.mono (by simp))⟩
    · rw [if_pos (by rw [hsig]; decide)]
      exact (State.secReply_answered hr.2.2.2 11 4).refuses
  case floor =>
    have hdone := State.secReply_done (State.floorSet_does (s := s) (f := which.toNat) (v := v)) (by decide) hr.2.2.2 12
    exact ⟨_, (floor_runs (hofficer hr) hprov).trans (congrArg _ (State.floors_raised h4 hlow hver hleft)), hdone.answer,
      (hdone.regs _ (by simp)).trans (s.floorSet_reg _ v), (s.floorSet_keepsRegs _ v).trans (hdone.regs.mono (by simp))⟩
  case mode =>
    have hdone := State.secReply_done (State.approved_does (s := s)) (by decide) hr.2.2.2 13
    exact ⟨_, exec_mode_eq.trans (congrArg _ ((hofficer hr).serves (.inl hprov) _)), hdone.answer, by rw [hdone.sec]; rfl, hdone.regs⟩
  case zeroise =>
    have hexec : exec (.zeroise p) s = .next (s.zeroises p) := exec_zeroise_eq.trans (congrArg _ ((hofficer hr).serves (.inl hprov) _))
    have hreply := State.secReply_answered hr.2.2.2 14 0
    have hdoes := State.zeroises_does (s := s) (p := p)
    obtain ⟨herased, hfield, hses, hused, hspl, hstreams, hraised⟩ := s.zeroises_shows p
    have hframe : Does [.out, .links] [] s (s.secReply p 14 0 []) := State.secReply_does
    exact ⟨_, hexec, (hdoes.same .out (by decide) (by decide)).trans hreply.out, herased.fuse, herased.down, herased.content,
      herased.exchange, herased.requests, hfield, hses 0, hses 1, hused, hspl, hstreams, hraised, herased.slots,
      (hdoes.same .sram (by decide) (by decide)).trans (hframe.same .sram (by decide) (by decide)),
      (hdoes.same .hbmMem (by decide) (by decide)).trans (hframe.same .hbmMem (by decide) (by decide))⟩
  case erased =>
    exact ⟨_, exec_spillEraseDone_on her, rfl, State.bit_setBit_self _ _ _ _ rfl (by decide), rfl, rfl, rfl, rfl,
      (KeepsRegs.refl [aSEC_STAT] s).setBit (a := aSEC_STAT) (by simp) fSEC_STAT_ERASING false⟩
  case port =>
    exact ⟨_, exec_portAccess_on hap, State.bit_latch_self s aSEC_LAT fSEC_LAT_PORTACC rfl (by decide), raises_of_count rfl 125 islSecurity,
      (KeepsRegs.refl [aSEC_LAT] s).latch (a := aSEC_LAT) (by simp) fSEC_LAT_PORTACC, .of_fields rfl rfl rfl⟩

end Sys2Proof.Machine
end

section
/-! One signature of the island, and the requests that wait for one (O47; R462, R473, R474). -/
namespace Sys2Proof.Machine

variable {s t u : State}

/-! ## The reservation -/

theorem State.reserve_inside (h : s.sec.q < s.sec.reservedTo) : s.reserve = s := if_neg (Nat.not_le.mpr h)

/-- The registers of the island's signing state. -/
def hssRegs : List Nat := [aSEC_HSS, aSEC_HSS + 4, aSEC_HSSE, aSEC_STAT, aSEC_LAT]

/-- The epoch fuse burned where a reservation passes its mark (R473). -/
def State.epochBurned (s : State) : State :=
  if s.fld aSEC_HSSE fSEC_HSSE_E * 2 ^ 28 < s.sec.q + 65536 then
    (s.setFld aSEC_HSSE fSEC_HSSE_E (s.fld aSEC_HSSE fSEC_HSSE_E + 1)).setBit aSEC_HSSE fSEC_HSSE_EREADY false
  else s

theorem State.epochBurned_keeps (s : State) : KeepsRegs [aSEC_HSSE] s s.epochBurned ∧ s.epochBurned.sec = s.sec ∧
    s.epochBurned.causes = s.causes :=
  iteInduction (motive := fun t => KeepsRegs [aSEC_HSSE] s t ∧ t.sec = s.sec ∧ t.causes = s.causes)
    (fun _ => ⟨((KeepsRegs.refl [aSEC_HSSE] s).setFld (a := aSEC_HSSE) (by simp) fSEC_HSSE_E _).setBit (a := aSEC_HSSE) (by simp)
      fSEC_HSSE_EREADY false, rfl, rfl⟩) (fun _ => ⟨.refl _ s, rfl, rfl⟩)

/-- Indices reserved up to one. -/
def State.indicesReserved (r : Nat) (s : State) : State :=
  { s with sec := { s.sec with reservedTo := r, writes := s.sec.writes + 1 } }

theorem State.reserve_beyond (h : s.sec.reservedTo ≤ s.sec.q) : s.reserve = s.epochBurned.indicesReserved (s.sec.q + 65536) := if_pos h

theorem State.indicesReserved_keeps (r : Nat) (s : State) : (s.indicesReserved r).sec.q = s.sec.q ∧
    (s.indicesReserved r).sec.requests = s.sec.requests ∧ (s.indicesReserved r).sec.reservedTo = r ∧
    (s.indicesReserved r).sec.writes = s.sec.writes + 1 ∧ (∀ x, (s.indicesReserved r).reg x = s.reg x) ∧
    (s.indicesReserved r).causes = s.causes := ⟨rfl, rfl, rfl, rfl, fun _ => rfl, rfl⟩

/-- What the reservation leaves. -/
structure Reserved (s t : State) : Prop where
  index : t.sec.q = s.sec.q
  requests : t.sec.requests = s.sec.requests
  inside : s.sec.q < s.sec.reservedTo → t.sec.reservedTo = s.sec.reservedTo
  beyond : s.sec.reservedTo ≤ s.sec.q → t.sec.reservedTo = s.sec.q + 65536 ∧ t.sec.writes = s.sec.writes + 1
  regs : KeepsRegs hssRegs s t
  stat : t.reg aSEC_STAT = s.reg aSEC_STAT
  causes : t.causes = s.causes

theorem State.reserve_reserves (s : State) : Reserved s s.reserve := by
  by_cases h : s.sec.q < s.sec.reservedTo
  · rw [State.reserve_inside h]
    exact ⟨rfl, rfl, fun _ => rfl, fun hle => absurd hle (Nat.not_le.mpr h), .refl _ s, rfl, rfl⟩
  · rw [State.reserve_beyond (Nat.not_lt.mp h)]
    obtain ⟨hregs, hsec, hcauses⟩ := s.epochBurned_keeps
    obtain ⟨hq, hreq, hto, hwrites, hreg, hcauses'⟩ := s.epochBurned.indicesReserved_keeps (s.sec.q + 65536)
    generalize s.epochBurned.indicesReserved (s.sec.q + 65536) = b at *
    generalize s.epochBurned = a at *
    rw [hsec] at hq hreq hwrites
    exact {
      index := hq
      requests := hreq
      inside := fun hlt => absurd hlt h
      beyond := fun _ => ⟨hto, hwrites⟩
      regs := (hregs.mono (by decide)).trans (fun x _ => hreg x)
      stat := (hreg _).trans (hregs _ (by decide))
      causes := hcauses'.trans hcauses }

/-! ## The index spent -/

/-- The index of a signature spent. -/
def State.indexSpent (s : State) : State := { s with sec := { s.sec with q := s.sec.q + 1 } }

/-- Few indices are left: a condition of FS 114 (R473). -/
def State.hssLow (s : State) : State :=
  if s.causeStands 114 then s else ((s.latch aSEC_LAT fSEC_LAT_HSSLOW).causeOn 114 0).raise 114 islSecurity

theorem State.showHss_eq (s : State) : s.showHss =
    if 2 ^ 40 - s.sec.q < 2 ^ 32 then (s.setWide aSEC_HSS 2 (2 ^ 40 - s.sec.q)).hssLow else s.setWide aSEC_HSS 2 (2 ^ 40 - s.sec.q) := rfl

/-- No cause but that of FS 114 begins. -/
def OnlyCause114 (s t : State) : Prop := ∀ fs inst, fs ≠ 114 → s.causeAt fs inst = false → t.causeAt fs inst = false

theorem State.causeAt_causeOn_other {fs fs' inst inst' : Nat} (h : s.causeAt fs inst = false) (hne : fs ≠ fs') :
    (s.causeOn fs' inst').causeAt fs inst = false := by
  refine iteInduction (motive := fun t : State => t.causeAt fs inst = false) (fun _ => h) (fun _ => ?_)
  unfold State.causeAt at h ⊢
  simp only [List.any_cons, h, Bool.or_false]
  exact beq_false_of_ne fun heq => hne (congrArg Prod.fst heq).symm

theorem State.hssLow_keeps (s : State) : KeepsRegs [aSEC_LAT] s s.hssLow ∧ s.hssLow.sec = s.sec ∧ OnlyCause114 s s.hssLow := by
  refine iteInduction (motive := fun t => KeepsRegs [aSEC_LAT] s t ∧ t.sec = s.sec ∧ OnlyCause114 s t)
    (fun _ => ⟨.refl _ s, rfl, fun _ _ _ h => h⟩) (fun _ => ?_)
  have hlatch : KeepsRegs [aSEC_LAT] s (s.latch aSEC_LAT fSEC_LAT_HSSLOW) := (KeepsRegs.refl [aSEC_LAT] s).latch (a := aSEC_LAT) (by simp) _
  have hcauses : ∀ fs inst, (s.latch aSEC_LAT fSEC_LAT_HSSLOW).causeAt fs inst = s.causeAt fs inst := fun _ _ => rfl
  have hsec : (s.latch aSEC_LAT fSEC_LAT_HSSLOW).sec = s.sec := rfl
  generalize s.latch aSEC_LAT fSEC_LAT_HSSLOW = a at *
  have hon : Does [.causes] [] a (a.causeOn 114 0) := State.causeOn_does
  exact ⟨hlatch.trans ((.of_does hon (by decide) _ : KeepsRegs [aSEC_LAT] a _).trans (fun _ _ => rfl)),
    (hon.same .sec (by decide) (by decide)).trans hsec,
    fun fs inst hne h => State.causeAt_causeOn_other (inst' := 0) ((hcauses fs inst).trans h) hne⟩

/-- What SEC_HSS shown leaves. -/
structure HssShown (s t : State) : Prop where
  hss : t.wide aSEC_HSS 2 = (2 ^ 40 - s.sec.q) % 2 ^ 64
  sec : t.sec = s.sec
  regs : KeepsRegs [aSEC_HSS, aSEC_HSS + 4, aSEC_LAT] s t
  causes : OnlyCause114 s t

theorem State.showHss_shows (s : State) : HssShown s s.showHss := by
  rw [State.showHss_eq]
  have hset := s.setWide_two_keepsRegs aSEC_HSS (2 ^ 40 - s.sec.q)
  have hwide := s.wide_setWide_two aSEC_HSS (2 ^ 40 - s.sec.q)
  have hsec : (s.setWide aSEC_HSS 2 (2 ^ 40 - s.sec.q)).sec = s.sec := rfl
  have hcauses : OnlyCause114 s (s.setWide aSEC_HSS 2 (2 ^ 40 - s.sec.q)) := fun _ _ _ h => h
  generalize s.setWide aSEC_HSS 2 (2 ^ 40 - s.sec.q) = a at *
  refine iteInduction (motive := HssShown s) (fun _ => ?_) (fun _ => ⟨hwide, hsec, hset.mono (by decide), hcauses⟩)
  obtain ⟨hregs, hsec', hcauses'⟩ := a.hssLow_keeps
  exact ⟨(State.wide_of_keepsRegs hregs (by decide) (by decide)).trans hwide, hsec'.trans hsec,
    (hset.mono (by decide)).trans (hregs.mono (by decide)), fun fs inst hne h => hcauses' fs inst hne (hcauses fs inst hne h)⟩

/-! ## The tree of the next index -/

/-- At the end of a level-1 tree the next one is taken, or signing waits for it (R474). -/
def State.treeTaken (s : State) : State :=
  if s.sec.q % 2 ^ 20 = 0 then
    if s.bit aSEC_HSSE fSEC_HSSE_NREADY then s.setBit aSEC_HSSE fSEC_HSSE_NREADY false else s.latch aSEC_STAT fSEC_STAT_TREEWAIT
  else s

/-- What the tree taken leaves. -/
structure TreeTaken (s t : State) : Prop where
  sec : t.sec = s.sec
  regs : KeepsRegs [aSEC_HSSE, aSEC_STAT] s t
  susp : t.bit aSEC_STAT fSEC_STAT_SUSP = s.bit aSEC_STAT fSEC_STAT_SUSP
  causes : t.causes = s.causes

theorem State.treeTaken_takes (s : State) : TreeTaken s s.treeTaken := by
  refine iteInduction (motive := TreeTaken s) (fun _ => iteInduction (motive := TreeTaken s) (fun _ => ?_) (fun _ => ?_))
    (fun _ => ⟨rfl, .refl _ s, rfl, rfl⟩)
  · exact ⟨rfl, (KeepsRegs.refl [aSEC_HSSE, aSEC_STAT] s).setBit (a := aSEC_HSSE) (by simp) _ _,
      State.bit_congr _ (State.reg_setReg_ne _ _ (by decide)), rfl⟩
  · exact ⟨rfl, (KeepsRegs.refl [aSEC_HSSE, aSEC_STAT] s).latch (a := aSEC_STAT) (by simp) _,
      State.bit_latch_beside s aSEC_STAT fSEC_STAT_TREEWAIT fSEC_STAT_SUSP (by decide) (by decide) (by decide), rfl⟩

/-! ## A signature -/

theorem State.signMsg_eq (s : State) (m : List Byte) :
    s.signMsg m = (fit 3700 (Config.sign s.reserve.sec.q m), s.reserve.indexSpent.showHss.treeTaken) := rfl

theorem State.signMsg_sig (s : State) (m : List Byte) : (s.signMsg m).1 = fit 3700 (Config.sign s.sec.q m) := by
  rw [State.signMsg_eq, s.reserve_reserves.index]

/-- What one signature leaves. -/
structure Signed (s t : State) : Prop where
  index : t.sec.q = s.sec.q + 1
  hss : t.wide aSEC_HSS 2 = (2 ^ 40 - t.sec.q) % 2 ^ 64
  requests : t.sec.requests = s.sec.requests
  inside : s.sec.q < s.sec.reservedTo → t.sec.reservedTo = s.sec.reservedTo
  beyond : s.sec.reservedTo ≤ s.sec.q → t.sec.reservedTo = s.sec.q + 65536 ∧ t.sec.writes = s.sec.writes + 1
  regs : KeepsRegs hssRegs s t
  susp : t.bit aSEC_STAT fSEC_STAT_SUSP = s.bit aSEC_STAT fSEC_STAT_SUSP
  causes : OnlyCause114 s t

theorem State.signMsg_signs (s : State) (m : List Byte) : Signed s (s.signMsg m).2 := by
  rw [State.signMsg_eq]
  have hres := s.reserve_reserves
  generalize s.reserve = a at *
  obtain ⟨hq, hreq, hinside, hbeyond, hregs, hstat, hcauses⟩ := hres
  have hspent : a.indexSpent.sec.q = s.sec.q + 1 ∧ a.indexSpent.sec.requests = s.sec.requests ∧
      a.indexSpent.sec.reservedTo = a.sec.reservedTo ∧ a.indexSpent.sec.writes = a.sec.writes := ⟨congrArg (· + 1) hq, hreq, rfl, rfl⟩
  have hspentRegs : ∀ x, a.indexSpent.reg x = a.reg x := fun _ => rfl
  have hspentCauses : a.indexSpent.causes = s.causes := hcauses
  generalize a.indexSpent = b at *
  obtain ⟨hq', hreq', hto, hwrites⟩ := hspent
  have hshown := b.showHss_shows
  generalize b.showHss = c at *
  have htaken := c.treeTaken_takes
  have hsec : c.treeTaken.sec = b.sec := htaken.sec.trans hshown.sec
  have hsusp : c.reg aSEC_STAT = s.reg aSEC_STAT := (hshown.regs _ (by decide)).trans ((hspentRegs _).trans hstat)
  exact {
    index := (congrArg Sec.q hsec).trans hq'
    hss := by rw [State.wide_of_keepsRegs htaken.regs (by decide) (by decide), hshown.hss, hsec]
    requests := (congrArg Sec.requests hsec).trans hreq'
    inside := fun hlt => (congrArg Sec.reservedTo hsec).trans (hto.trans (hinside hlt))
    beyond := fun hle => ⟨(congrArg Sec.reservedTo hsec).trans (hto.trans (hbeyond hle).1),
      (congrArg Sec.writes hsec).trans (hwrites.trans (hbeyond hle).2)⟩
    regs := hregs.trans ((show KeepsRegs hssRegs a b from fun x _ => hspentRegs x).trans
      ((hshown.regs.mono (by decide)).trans (htaken.regs.mono (by decide))))
    susp := htaken.susp.trans (State.bit_congr _ hsusp)
    causes := fun fs inst hne h => by
      have hb : b.causeAt fs inst = false := by unfold State.causeAt at h ⊢; rwa [hspentCauses]
      have hc := hshown.causes fs inst hne hb
      unfold State.causeAt at hc ⊢
      change c.treeTaken.causes.any _ = false
      rwa [htaken.causes] }

end Sys2Proof.Machine
end

section
/-! Requests for signatures served (O47; R472 to R474, R480). -/
namespace Sys2Proof.Machine

variable {s t u : State} {p : Port}

/-! ## A report of the values in force -/

/-- A report reads no register but SEC_STAT's APPROVED and SLOT that signing changes before it is formed (R472). -/
theorem State.report_congr (hregs : KeepsRegs [aSEC_STAT] s t) (happ : t.fld aSEC_STAT fSEC_STAT_APPROVED = s.fld aSEC_STAT fSEC_STAT_APPROVED)
    (hslot : t.fld aSEC_STAT fSEC_STAT_SLOT = s.fld aSEC_STAT fSEC_STAT_SLOT) (hcount : t.count = s.count) (hmgt : t.mgt = s.mgt)
    (hcal : t.calRec = s.calRec) (hctl : t.ctl = s.ctl) (nonce : List Byte) : t.report nonce = s.report nonce := by
  have hr : ∀ a, a ≠ aSEC_STAT → t.reg a = s.reg a := fun a ha => hregs a (by simpa using ha)
  have hf : ∀ a f, a ≠ aSEC_STAT → t.fld a f = s.fld a f := fun a f ha => State.fld_congr f (hr a ha)
  have hw : ∀ a, a ≠ aSEC_STAT → a + 4 ≠ aSEC_STAT → t.wide a 2 = s.wide a 2 := fun a h h' => by
    simp only [State.wide, hr a h, hr (a + 4) h']
  have hdig : (List.range 12).flatMap (fun i => leBytes 4 (t.reg (aSTR_DIG + 4 * i)).toNat) =
      (List.range 12).flatMap (fun i => leBytes 4 (s.reg (aSTR_DIG + 4 * i)).toNat) :=
    List.flatMap_congr fun i hi => by
      have hlt : i < 12 := List.mem_range.mp hi
      rw [hr (aSTR_DIG + 4 * i) (by simp only [aSTR_DIG, aSEC_STAT]; omega)]
  have hfloor : (List.range 4).flatMap (fun f => leBytes 4 (t.reg (aSEC_FLOOR f)).toNat) =
      (List.range 4).flatMap (fun f => leBytes 4 (s.reg (aSEC_FLOOR f)).toNat) :=
    List.flatMap_congr fun f _ => by rw [hr (aSEC_FLOOR f) (by simp only [aSEC_FLOOR, aSEC_STAT]; omega)]
  have hcs : t.csDig = s.csDig := by
    unfold State.csDig State.bit
    rw [hf aLPE_CS_STAT _ (by decide), hctl]
  have hfw : ∀ b, t.fwSlot b = s.fwSlot b := fun b => by unfold State.fwSlot; rw [hmgt]
  have hcaldig : t.calDigest = s.calDigest := by unfold State.calDigest; rw [hcal]
  unfold State.report State.tbState State.twin
  simp only [happ, hslot, hcount, hcal, hcs, hcaldig, hfw, hdig, hfloor, hw aGLB_SERIAL (by decide) (by decide),
    hw aSTR_SERIAL (by decide) (by decide), hw aSEC_HSS (by decide) (by decide), hf aTBS_STATE _ (by decide), hf aTWN_STAT _ (by decide),
    hf aCAL_REC _ (by decide), hr aSEC_FWVER (by decide), hr aSEC_SLOTS (by decide)]

/-! ## SEAL_SIGN -/

section
variable {c : Count} {r : SigReq} {rest : List (Count × SigReq)} {good : Bool}

/-- Signing available again: no suspension, its cause over. -/
def State.unsuspended (s : State) : State := (s.setBit aSEC_STAT fSEC_STAT_SUSP false).causeOff 115 0

theorem exec_sealSign_idle (h : s.sec.requests = [] ∨ s.secUp = false ∨ 2 ^ 40 ≤ s.sec.q) : exec (.sealSign good) s = .next s := by
  change execSealSign good s = _
  unfold execSealSign
  cases hreq : s.sec.requests with
  | nil => rfl
  | cons x rest => exact if_pos (h.resolve_left (by rw [hreq]; simp))

theorem exec_sealSign_suspends (hreq : s.sec.requests ≠ []) (hup : s.secUp = true) (hq : s.sec.q < 2 ^ 40) (hto : s.sec.reservedTo ≤ s.sec.q)
    (hsusp : s.bit aSEC_STAT fSEC_STAT_SUSP = false) : exec (.sealSign false) s =
      .next ((((s.latch aSEC_STAT fSEC_STAT_SUSP).latch aSEC_LAT fSEC_LAT_HSSSUSP).causeOn 115 0).raise 115 islSecurity) := by
  change execSealSign false s = _
  unfold execSealSign
  cases hcase : s.sec.requests with
  | nil => exact absurd hcase hreq
  | cons x rest =>
    exact (if_neg (by rw [hup]; simp; omega)).trans ((if_pos ⟨hto, rfl⟩).trans (if_neg (by rw [hsusp]; decide)))

theorem exec_sealSign_runs (hreq : s.sec.requests = (c, r) :: rest) (hup : s.secUp = true) (hq : s.sec.q < 2 ^ 40)
    (hgood : s.sec.q < s.sec.reservedTo ∨ good = true) : exec (.sealSign good) s =
      .next (if s.unsuspended.maySign then s.unsuspended.popSig.serveSig r else s.unsuspended) := by
  change execSealSign good s = _
  unfold execSealSign
  rw [hreq]
  refine (if_neg (by rw [hup]; simp; omega)).trans (if_neg ?_)
  obtain h | h := hgood
  · omega
  · simp [h]

/-- What the end of a suspension leaves. -/
structure Unsuspended (s t : State) : Prop where
  susp : t.bit aSEC_STAT fSEC_STAT_SUSP = false
  others : ∀ f : Fld, f.hi < 9 ∨ 9 < f.lo → t.fld aSEC_STAT f = s.fld aSEC_STAT f
  cause : t.causeAt 115 0 = false
  does : Does [.causes] [18] s t
  regs : KeepsRegs [aSEC_STAT] s t

theorem State.unsuspended_shows (s : State) : Unsuspended s s.unsuspended where
  susp := State.bit_setBit_self s aSEC_STAT fSEC_STAT_SUSP false rfl (by decide)
  others f hf := State.fld_setFld_beside s aSEC_STAT fSEC_STAT_SUSP f _ (by decide) (by decide) hf
  cause := State.causeAt_causeOff _ 115 0
  does := State.causeOff_does.call (by decide) (Does.setBit adr_SEC_STAT (by decide) Does.refl)
  regs := ((KeepsRegs.refl [aSEC_STAT] s).setBit (a := aSEC_STAT) (by simp) fSEC_STAT_SUSP false).trans fun _ _ => rfl

/-- What a request finds when it is served: signing available, and the request out of the queue. -/
structure Serving (rest : List (Count × SigReq)) (s t : State) : Prop where
  requests : t.sec.requests = rest
  index : t.sec.q = s.sec.q
  reserved : t.sec.reservedTo = s.sec.reservedTo
  writes : t.sec.writes = s.sec.writes
  does : Does [.causes, .sec] [18] s t
  regs : KeepsRegs [aSEC_STAT] s t
  susp : t.bit aSEC_STAT fSEC_STAT_SUSP = false
  cause : t.causeAt 115 0 = false
  report : ∀ nonce, t.report nonce = s.report nonce

theorem State.popSig_serving (hreq : s.sec.requests = (c, r) :: rest) : Serving rest s s.unsuspended.popSig := by
  have hun := s.unsuspended_shows
  have hsec : s.unsuspended.sec = s.sec := rfl
  generalize s.unsuspended = a at *
  obtain ⟨hsusp, hothers, hcause, hdoes, hregs⟩ := hun
  have hregs' : KeepsRegs [aSEC_STAT] s a.popSig := hregs.trans fun _ _ => rfl
  have hall : Does [.causes, .sec] [18] s a.popSig := State.popSig_does.call (by decide) (hdoes.mono (by decide))
  exact {
    requests := by
      change a.sec.requests.drop 1 = rest
      rw [hsec, hreq]
      rfl
    index := (congrArg Sec.q hsec :)
    reserved := (congrArg Sec.reservedTo hsec :)
    writes := (congrArg Sec.writes hsec :)
    does := hall
    regs := hregs'
    susp := hsusp
    cause := hcause
    report := fun nonce => State.report_congr hregs' (hothers _ (by decide)) (hothers _ (by decide))
      (hall.same .count (by decide) (by decide)) (hall.same .mgt (by decide) (by decide)) (hall.same .calRec (by decide) (by decide))
      (hall.same .ctl (by decide) (by decide)) nonce }

theorem State.unsuspended_maySign (htree : s.bit aSEC_STAT fSEC_STAT_TREEWAIT = false) (hq : s.sec.q < 2 ^ 40) :
    s.unsuspended.maySign = true := by
  have hun := s.unsuspended_shows
  have hsec : s.unsuspended.sec = s.sec := rfl
  have htree' : s.unsuspended.bit aSEC_STAT fSEC_STAT_TREEWAIT = false := by
    rw [← htree]
    unfold State.bit
    rw [hun.others fSEC_STAT_TREEWAIT (by decide)]
  unfold State.maySign
  rw [hun.susp, htree', hsec, decide_eq_true hq]
  rfl

theorem State.maySign_treeReady (h : s.maySign = true) : s.bit aSEC_STAT fSEC_STAT_TREEWAIT = false := by
  unfold State.maySign at h
  simp only [Bool.and_eq_true, Bool.not_eq_true'] at h
  exact h.1.2

/-- SEAL_SIGN serves the first request where a signature may be formed. -/
theorem exec_sealSign_serves (hreq : s.sec.requests = (c, r) :: rest) (hup : s.secUp = true) (hmay : s.maySign = true)
    (hq : s.sec.q < 2 ^ 40) (hgood : s.sec.q < s.sec.reservedTo ∨ good = true) :
    exec (.sealSign good) s = .next (s.unsuspended.popSig.serveSig r) :=
  (exec_sealSign_runs hreq hup hq hgood).trans (congrArg _ (if_pos (State.unsuspended_maySign (State.maySign_treeReady hmay) hq)))

end

/-! ## A seal signed -/

section
variable {no m : Word} {d : BitVec 384} {x : Option (List Byte)} {sig : List Byte}

/-- A signature joined to its seal. -/
def State.sealJoined (no : Word) (sig : List Byte) (s : State) : State :=
  { s with acq := { s.acq with seals := signSeal no sig s.acq.seals } }

theorem State.serveSig_seal (h : s.acq.seals.find? (fun x => x.1 == no && x.2.2.isNone) = some (m, d, x)) :
    s.serveSig (.seal no) = ((s.signMsg (digestBytes d)).2.sealJoined no (s.signMsg (digestBytes d)).1).showSealq := by
  simp only [State.serveSig, h]
  rfl

theorem State.serveSig_noSeal (h : s.acq.seals.find? (fun x => x.1 == no && x.2.2.isNone) = none) : s.serveSig (.seal no) = s := by
  simp only [State.serveSig, h]

/-- What a seal's signature leaves. -/
structure SealSigned (no : Word) (sig : List Byte) (s t : State) : Prop where
  seals : t.acq.seals = signSeal no sig s.acq.seals
  sec : t.sec = s.sec
  shown : t.fld aSEC_SEALQ fSEC_SEALQ_COUNT = (t.acq.seals.filter (fun x => x.2.2.isNone)).length % 2 ^ 17
  regs : KeepsRegs [aSEC_SEALQ] s t
  causes : t.causes = s.causes
  does : Does [.acq] [18] s t

theorem State.sealJoined_signs (s : State) (no : Word) (sig : List Byte) : SealSigned no sig s (s.sealJoined no sig).showSealq where
  seals := rfl
  sec := rfl
  shown := by
    unfold State.fld
    rw [show (s.sealJoined no sig).showSealq.reg aSEC_SEALQ =
      BitVec.ofNat 32 ((s.sealJoined no sig).acq.seals.filter (fun x => x.2.2.isNone)).length from State.reg_setReg_self _ _ _]
    change getF (BitVec.ofNat 32 ((s.sealJoined no sig).acq.seals.filter (fun x => x.2.2.isNone)).length) fSEC_SEALQ_COUNT =
      ((s.sealJoined no sig).acq.seals.filter (fun x => x.2.2.isNone)).length % 2 ^ 17
    generalize ((s.sealJoined no sig).acq.seals.filter (fun x => x.2.2.isNone)).length = n
    unfold getF
    rw [BitVec.toNat_ofNat]
    exact Nat.mod_mod_of_dvd n (Nat.pow_dvd_pow 2 (by decide : 17 ≤ 32))
  regs := (KeepsRegs.refl [aSEC_SEALQ] s).trans ((KeepsRegs.refl [aSEC_SEALQ] (s.sealJoined no sig)).setReg (a := aSEC_SEALQ) (by simp) _)
  causes := rfl
  does := State.showSealq_does.call (by decide) (Does.put_acq (by decide) Does.refl)

end

/-! ## Records, proofs and reports signed -/

/-- One entry more of the calibration record signed. -/
def State.recordSigned (s : State) : State := { s with calRec := { s.calRec with signed := s.calRec.signed + 1 } }

theorem State.serveSig_cal (s : State) : s.serveSig .cal = (s.signMsg s.recordMessage).2.recordSigned := rfl

theorem State.serveSig_proof {x : Exchange} (h : s.exchange p.val = some x) : s.serveSig (.proof p) =
    ((s.signMsg x.digest).2.setExchange p.val (some { x with transcript := x.transcript ++ (s.signMsg x.digest).1, proved := true })).secReply
      p 2 0 (s.signMsg x.digest).1 := by
  simp only [State.serveSig, h]

theorem State.serveSig_noProof (h : s.exchange p.val = none) : s.serveSig (.proof p) = s := by
  simp only [State.serveSig, h]

theorem State.serveSig_attest (s : State) (p : Port) (nonce : List Byte) : s.serveSig (.attest p nonce) =
    (s.signMsg (s.report nonce)).2.secReply p 5 0 (s.report nonce ++ trailer (s.signMsg (s.report nonce)).1) := rfl

/-! ## Signing stays available -/

/-- Signing is no more suspended than before. -/
def KeepsAvailable (s t : State) : Prop := t.bit aSEC_STAT fSEC_STAT_SUSP = s.bit aSEC_STAT fSEC_STAT_SUSP ∧ OnlyCause114 s t

theorem KeepsAvailable.refl (s : State) : KeepsAvailable s s := ⟨rfl, fun _ _ _ h => h⟩

theorem KeepsAvailable.trans (h : KeepsAvailable s t) (g : KeepsAvailable t u) : KeepsAvailable s u :=
  ⟨g.1.trans h.1, fun fs i hne hc => g.2 fs i hne (h.2 fs i hne hc)⟩

theorem KeepsAvailable.of_same (hreg : t.reg aSEC_STAT = s.reg aSEC_STAT) (hcauses : t.causes = s.causes) : KeepsAvailable s t :=
  ⟨State.bit_congr _ hreg, fun _ _ _ h => by unfold State.causeAt at h ⊢; rwa [hcauses]⟩

theorem Signed.available (h : Signed s t) : KeepsAvailable s t := ⟨h.susp, h.causes⟩

theorem State.secReply_available (s : State) (p : Port) (msg status : Byte) (body : List Byte) :
    KeepsAvailable s (s.secReply p msg status body) :=
  .of_same ((s.secReply_replied p msg status body).regs _ (by simp)) (State.secReply_does.same .causes (by decide) (by decide))

theorem State.serveSig_available (s : State) (r : SigReq) : KeepsAvailable s (s.serveSig r) := by
  match r with
  | .seal no =>
    cases h : s.acq.seals.find? (fun x => x.1 == no && x.2.2.isNone) with
    | none => rw [State.serveSig_noSeal h]; exact .refl s
    | some x =>
      obtain ⟨n, d, g⟩ := x
      rw [State.serveSig_seal h]
      have hjoined := (s.signMsg (digestBytes d)).2.sealJoined_signs no (s.signMsg (digestBytes d)).1
      exact (s.signMsg_signs (digestBytes d)).available.trans (.of_same (hjoined.regs _ (by decide)) hjoined.causes)
  | .cal =>
    rw [State.serveSig_cal]
    exact (s.signMsg_signs s.recordMessage).available.trans (.of_same rfl rfl)
  | .proof p =>
    cases h : s.exchange p.val with
    | none => rw [State.serveSig_noProof h]; exact .refl s
    | some x =>
      rw [State.serveSig_proof h]
      refine (s.signMsg_signs x.digest).available.trans (.trans (.of_same ?_ ?_) (State.secReply_available _ p 2 0 _))
      · rfl
      · rfl
  | .attest p nonce =>
    rw [State.serveSig_attest]
    exact (s.signMsg_signs (s.report nonce)).available.trans (State.secReply_available _ p 5 0 _)

end Sys2Proof.Machine
end

section
/-! Attestation, seals and self-tests: the statement (O47; R462, R464, R471 to R474, R479, R480). -/
namespace Sys2Proof.Machine

variable {s t u : State} {p : Port} {msg status : Byte}

/-! ## Self-tests and trees -/

/-- The island in ERROR, before it says so. -/
def State.errorShown (s : State) : State :=
  ((s.setFld aSEC_STAT fSEC_STAT_STATE seError).latch aSEC_LAT fSEC_LAT_STFAIL).causeOn 112 0

theorem State.selftestOutcome_fail (s : State) : s.selftestOutcome false = s.errorShown.raise 112 islSecurity := rfl

/-- What a failed self-test leaves. -/
structure InError (s t : State) : Prop where
  state : t.fld aSEC_STAT fSEC_STAT_STATE = seError
  latched : t.bit aSEC_LAT fSEC_LAT_STFAIL = true
  cause : t.causeStands 112 = true
  raised : Raises 112 islSecurity s t
  sec : t.sec = s.sec
  regs : KeepsRegs [aSEC_STAT, aSEC_LAT] s t
  memory : KeepsMemory s t

theorem State.selftestOutcome_errs (s : State) : InError s (s.selftestOutcome false) := by
  rw [State.selftestOutcome_fail]
  have hdoes : Does [.fresh, .causes] [18] s s.errorShown :=
    State.causeOn_does.call (by decide) (Does.latch adr_SEC_LAT (by decide) (Does.setFld adr_SEC_STAT (by decide) Does.refl))
  have hon : ∀ a : State, KeepsRegs [] a (a.causeOn 112 0) := fun a => .of_does State.causeOn_does (by decide) _
  have hset : ((s.setFld aSEC_STAT fSEC_STAT_STATE seError).latch aSEC_LAT fSEC_LAT_STFAIL).fld aSEC_STAT fSEC_STAT_STATE = seError :=
    (State.fld_congr _ (State.reg_latch_ne _ _ (by decide))).trans (State.fld_setFld_self s aSEC_STAT fSEC_STAT_STATE seError (by decide) (by decide))
  have hlat : ((s.setFld aSEC_STAT fSEC_STAT_STATE seError).latch aSEC_LAT fSEC_LAT_STFAIL).bit aSEC_LAT fSEC_LAT_STFAIL = true :=
    State.bit_latch_self _ aSEC_LAT fSEC_LAT_STFAIL rfl (by decide)
  have hregs : KeepsRegs [aSEC_STAT, aSEC_LAT] s ((s.setFld aSEC_STAT fSEC_STAT_STATE seError).latch aSEC_LAT fSEC_LAT_STFAIL) :=
    ((KeepsRegs.refl [aSEC_STAT, aSEC_LAT] s).setFld (a := aSEC_STAT) (by simp) _ _).latch (a := aSEC_LAT) (by simp) _
  have hcause : s.errorShown.causeStands 112 = true := State.causeOn_causeStands _ 112 0
  unfold State.errorShown at hdoes hcause ⊢
  generalize (s.setFld aSEC_STAT fSEC_STAT_STATE seError).latch aSEC_LAT fSEC_LAT_STFAIL = a at *
  exact {
    state := (State.fld_congr _ (hon a _ (by simp))).trans hset
    latched := (State.bit_congr _ (hon a _ (by simp))).trans hlat
    cause := hcause
    raised := raises_of_count (hdoes.same .count (by decide) (by decide)) 112 islSecurity
    sec := hdoes.same .sec (by decide) (by decide)
    regs := hregs.trans ((hon a).mono (by simp))
    memory := (KeepsMemory.of_does hdoes (by decide)).trans (.of_fields rfl rfl rfl) }

theorem exec_selftest_runs {pass : Bool} (hses : s.session p.val = true) (hprov : s.sec.provisional.getD p.val false = false)
    (hrole : engRole (s.sessRole p.val) = true) :
    exec (.selftest p pass) s = .next ((s.selftestOutcome pass).secReply p 8 (if pass then 0 else 4) []) :=
  if_pos (by rw [hses, hprov, hrole]; rfl)

theorem engRole_of_engineer {r : Nat} (h1 : 1 ≤ r) (h2 : r ≠ 2) (h4 : r < 4) : engRole r = true := by
  unfold engRole
  have hr : r = 1 ∨ r = 3 := by omega
  obtain rfl | rfl := hr
  all_goals rfl

theorem exec_treeReady_epoch : exec (.treeReady true) s = .next (s.latch aSEC_HSSE fSEC_HSSE_EREADY) := rfl

theorem exec_treeReady_waited (h : s.bit aSEC_STAT fSEC_STAT_TREEWAIT = true) :
    exec (.treeReady false) s = .next (s.setBit aSEC_STAT fSEC_STAT_TREEWAIT false) := if_pos h

theorem exec_treeReady_kept (h : s.bit aSEC_STAT fSEC_STAT_TREEWAIT = false) :
    exec (.treeReady false) s = .next (s.latch aSEC_HSSE fSEC_HSSE_NREADY) := if_neg (by rw [h]; decide)

/-! ## Services that answer a state of the island -/

/-- What an answer shows of a command that changes nothing. -/
structure Tells (p : Port) (msg status : Byte) (body : List Byte) (s t : State) : Prop where
  frames : Says p 3 (secFrames p msg status body) s t
  sec : t.sec = s.sec
  acq : t.acq = s.acq
  regs : KeepsRegs [] s t
  memory : KeepsMemory s t

theorem State.secReply_tells (s : State) (p : Port) (msg status : Byte) (body : List Byte) :
    Tells p msg status body s (s.secReply p msg status body) :=
  have hr := s.secReply_replied p msg status body
  ⟨s.secReply_says p msg status body, hr.sec, State.secReply_does.same .acq (by decide) (by decide), hr.regs, hr.memory⟩

/-- A session of any role that the island serves. -/
structure Served (p : Port) (s : State) : Prop where
  session : s.session p.val = true
  issuer : s.sec.provisional.getD p.val false = false
  up : s.secUp = true

theorem Served.runs (h : Served p s) (msg : Byte) (f : State → State) : s.service p msg anyRole f = f s :=
  State.service_runs ⟨h.session, rfl, by rw [h.issuer]; rfl⟩ h.up

section
variable {nonce : List Byte} {n : Word} {d : BitVec 384} {g : List Byte}

theorem attest_runs (h : Served p s) (hlen : nonce.length = 32) : exec (.attest p nonce) s = .next (s.askSig (.attest p nonce)) :=
  congrArg Host.Outcome.next ((h.runs 5 _).trans (if_neg (not_not.mpr hlen)))

theorem attest_bad (h : Served p s) (hlen : nonce.length ≠ 32) : exec (.attest p nonce) s = .next (s.secReply p 5 3 []) :=
  congrArg Host.Outcome.next ((h.runs 5 _).trans (if_pos hlen))

theorem cert_runs (h : Served p s) : exec (.cert p) s = .next (s.secReply p 6 0 Config.identityChain) :=
  congrArg Host.Outcome.next (h.runs 6 _)

/-- The answer to SEALSIG (R480). -/
def State.sealAnswer (p : Port) (n : Word) (s : State) : Option (Word × BitVec 384 × Option (List Byte)) → State
  | none => s.secReply p 7 6 []
  | some (_, d, some sig) => s.secReply p 7 0 (leBytes 4 n.toNat ++ digestBytes d ++ sig)
  | some (_, _, none) => s.secReply p 7 7 []

theorem sealsig_runs (h : Served p s) :
    exec (.sealsig p n) s = .next (s.sealAnswer p n (s.acq.seals.find? (fun x => x.1 == n))) := by
  refine congrArg Host.Outcome.next ((h.runs 7 _).trans ?_)
  rcases s.acq.seals.find? (fun x => x.1 == n) with _ | ⟨m, d, _ | sig⟩
  all_goals rfl

/-- The services open to every role, and a self-test, are answered STATUS 1 outside a session. -/
theorem islandServices_closed (h : s.session p.val = false) {r : Instr × Byte}
    (hr : r ∈ [(Instr.attest p nonce, (5 : Byte)), (.cert p, 6), (.sealsig p n, 7), (.selftest p true, 8)]) :
    exec r.1 s = .next (s.secReply p r.2 1 []) := by
  simp only [List.mem_cons, List.not_mem_nil, or_false] at hr
  rcases hr with rfl | rfl | rfl | rfl
  · exact congrArg Host.Outcome.next (State.service_outside (.inl h))
  · exact congrArg Host.Outcome.next (State.service_outside (.inl h))
  · exact congrArg Host.Outcome.next (State.service_outside (.inl h))
  · exact if_neg (by rw [h]; simp)

end

/-! ## Signing suspended -/

/-- Signing suspended, its condition latched (R473). -/
def State.suspensionLatched (s : State) : State := (s.latch aSEC_STAT fSEC_STAT_SUSP).latch aSEC_LAT fSEC_LAT_HSSSUSP

/-- What a suspension of signing leaves. -/
structure SigningSuspended (s t : State) : Prop where
  susp : t.bit aSEC_STAT fSEC_STAT_SUSP = true
  latched : t.bit aSEC_LAT fSEC_LAT_HSSSUSP = true
  cause : t.causeStands 115 = true
  raised : Raises 115 islSecurity s t
  does : Does [.agenda, .fresh, .causes] [18] s t
  regs : KeepsRegs [aSEC_STAT, aSEC_LAT] s t

theorem State.signingSuspended_shows (s : State) :
    SigningSuspended s ((s.suspensionLatched.causeOn 115 0).raise 115 islSecurity) := by
  have hsusp : s.suspensionLatched.bit aSEC_STAT fSEC_STAT_SUSP = true :=
    (State.bit_congr _ (State.reg_latch_ne _ _ (by decide))).trans (State.bit_latch_self s aSEC_STAT fSEC_STAT_SUSP rfl (by decide))
  have hlat : s.suspensionLatched.bit aSEC_LAT fSEC_LAT_HSSSUSP = true := State.bit_latch_self _ aSEC_LAT fSEC_LAT_HSSSUSP rfl (by decide)
  have hregs : KeepsRegs [aSEC_STAT, aSEC_LAT] s s.suspensionLatched :=
    ((KeepsRegs.refl [aSEC_STAT, aSEC_LAT] s).latch (a := aSEC_STAT) (by simp) _).latch (a := aSEC_LAT) (by simp) _
  have hdoes : Does [.fresh] [18] s s.suspensionLatched := Does.latch adr_SEC_LAT (by decide) (Does.latch adr_SEC_STAT (by decide) Does.refl)
  generalize s.suspensionLatched = a at *
  have hon : KeepsRegs [] a (a.causeOn 115 0) := .of_does State.causeOn_does (by decide) _
  have hall : Does [.fresh, .causes] [18] s (a.causeOn 115 0) := State.causeOn_does.call (by decide) (hdoes.mono (by decide))
  exact {
    susp := (State.bit_congr _ (hon _ (by simp))).trans hsusp
    latched := (State.bit_congr _ (hon _ (by simp))).trans hlat
    cause := State.causeOn_causeStands a 115 0
    raised := raises_of_count (hall.same .count (by decide) (by decide)) 115 islSecurity
    does := State.raise_does.call (by decide) (hall.mono (by decide))
    regs := hregs.trans ((hon.mono (by simp)).trans fun _ _ => rfl) }

/-! ## Requests served -/

section
variable {c : Count} {rest : List (Count × SigReq)} {n m : Word} {d : BitVec 384} {x : Option (List Byte)}

/-- What a seal served leaves. -/
structure SealServed (n : Word) (d : BitVec 384) (rest : List (Count × SigReq)) (s t : State) : Prop where
  seals : t.acq.seals = signSeal n (fit 3700 (Config.sign s.sec.q (digestBytes d))) s.acq.seals
  index : t.sec.q = s.sec.q + 1
  hss : t.wide aSEC_HSS 2 = (2 ^ 40 - t.sec.q) % 2 ^ 64
  inside : s.sec.q < s.sec.reservedTo → t.sec.reservedTo = s.sec.reservedTo
  beyond : s.sec.reservedTo ≤ s.sec.q → t.sec.reservedTo = s.sec.q + 65536 ∧ t.sec.writes = s.sec.writes + 1
  requests : t.sec.requests = rest
  out : t.out = s.out
  shown : t.fld aSEC_SEALQ fSEC_SEALQ_COUNT = (t.acq.seals.filter (fun x => x.2.2.isNone)).length % 2 ^ 17
  regs : KeepsRegs (aSEC_SEALQ :: hssRegs) s t
  memory : KeepsMemory s t

theorem Serving.sealServed (h : Serving rest s u)
    (hfind : s.acq.seals.find? (fun x => x.1 == n && x.2.2.isNone) = some (m, d, x)) : SealServed n d rest s (u.serveSig (.seal n)) := by
  have hacq : u.acq = s.acq := h.does.same .acq (by decide) (by decide)
  have houtu : u.out = s.out := h.does.same .out (by decide) (by decide)
  have hmemu : KeepsMemory s u := .of_does h.does (by decide)
  obtain ⟨hreq, hq, hto, hwr, -, hregsu, -, -, -⟩ := h
  rw [← hacq] at hfind
  rw [State.serveSig_seal hfind, State.signMsg_sig, hq]
  have hsigned := u.signMsg_signs (digestBytes d)
  have hdoes : Does [.agenda, .causes, .fresh, .sec] [18] u (u.signMsg (digestBytes d)).2 := State.signMsg_does
  generalize (u.signMsg (digestBytes d)).2 = a at *
  obtain ⟨hq', hhss, hreq', hin, hbe, hregs, -, -⟩ := hsigned
  rw [hq, hto] at hin hbe
  have hjoined := a.sealJoined_signs n (fit 3700 (Config.sign s.sec.q (digestBytes d)))
  generalize (a.sealJoined n (fit 3700 (Config.sign s.sec.q (digestBytes d)))).showSealq = b at *
  have hacqa : a.acq = s.acq := (hdoes.same .acq (by decide) (by decide)).trans hacq
  exact {
    seals := by rw [hjoined.seals, hacqa]
    index := by rw [hjoined.sec, hq', hq]
    hss := by rw [State.wide_of_keepsRegs hjoined.regs (by decide) (by decide), hhss, hjoined.sec]
    inside := fun hlt => by rw [hjoined.sec, hin hlt]
    beyond := fun hle => by rw [hjoined.sec, (hbe hle).1, (hbe hle).2, hwr]; exact ⟨rfl, rfl⟩
    requests := by rw [hjoined.sec, hreq', hreq]
    out := (hjoined.does.same .out (by decide) (by decide)).trans ((hdoes.same .out (by decide) (by decide)).trans houtu)
    shown := hjoined.shown
    regs := ((hregsu.mono (by decide)).trans (hregs.mono (by decide))).trans (hjoined.regs.mono (by decide))
    memory := hmemu.trans ((KeepsMemory.of_does hdoes (by decide)).trans (.of_does hjoined.does (by decide))) }

/-- What a report served leaves. -/
structure ReportServed (p : Port) (nonce : List Byte) (rest : List (Count × SigReq)) (s t : State) : Prop where
  frames : Says p 3 (secFrames p 5 0 (s.report nonce ++ trailer (fit 3700 (Config.sign s.sec.q (s.report nonce))))) s t
  index : t.sec.q = s.sec.q + 1
  requests : t.sec.requests = rest
  acq : t.acq = s.acq
  regs : KeepsRegs hssRegs s t
  memory : KeepsMemory s t

theorem Serving.reportServed (h : Serving rest s u) (nonce : List Byte) : ReportServed p nonce rest s (u.serveSig (.attest p nonce)) := by
  have hdoesu := h.does
  obtain ⟨hreq, hq, -, -, -, hregsu, -, -, hreport⟩ := h
  rw [State.serveSig_attest, State.signMsg_sig, hreport, hq]
  have hsigned := u.signMsg_signs (s.report nonce)
  have hdoes : Does [.agenda, .causes, .fresh, .sec] [18] u (u.signMsg (s.report nonce)).2 := State.signMsg_does
  generalize (u.signMsg (s.report nonce)).2 = a at *
  have htells := a.secReply_tells p 5 0 (s.report nonce ++ trailer (fit 3700 (Config.sign s.sec.q (s.report nonce))))
  have hall : Does [.agenda, .causes, .fresh, .sec] [18] s a := hdoes.call (by decide) (hdoesu.mono (by decide))
  exact {
    frames := htells.frames.of_same (hall.same .out (by decide) (by decide)) (hall.same .links (by decide) (by decide))
    index := by rw [htells.sec, hsigned.index, hq]
    requests := by rw [htells.sec, hsigned.requests, hreq]
    acq := htells.acq.trans (hall.same .acq (by decide) (by decide))
    regs := ((hregsu.mono (by decide)).trans hsigned.regs).trans (htells.regs.mono (by simp))
    memory := (KeepsMemory.of_does hall (by decide)).trans htells.memory }

end

/-- Settles O47: a signature's index by `State.signMsg_signs`, the request served by `Serving.sealServed` and `Serving.reportServed`, a
suspension by `State.unsuspended_shows`, the self-tests by `State.selftestOutcome_errs`. -/
theorem signing : Obligations.Signing := by
  unfold Obligations.Signing
  intro p nonce n d g c rest good s hssRegs' right answers sig signs ready
  have hserved : right → Served p s := fun ⟨h1, h2, h3⟩ => ⟨h1, h2, h3⟩
  have htells : ∀ {e : Instr} {msg st : Byte} {body : List Byte}, exec e s = .next (s.secReply p msg st body) →
      Completes e s (answers msg st body) := fun hexec => by
    obtain ⟨hframes, hsec, hacq, hregs, hmem⟩ := s.secReply_tells p _ _ _
    exact ⟨_, hexec, hframes, hsec, hacq, hregs, hmem⟩
  refine ⟨fun hno r hr => htells (islandServices_closed hno hr), fun hr hlen => ⟨_, attest_runs (hserved hr) hlen, rfl, rfl, rfl, fun _ _ => rfl,
      .of_fields rfl rfl rfl⟩, fun hr hlen => htells (attest_bad (hserved hr) hlen), fun hr => htells (cert_runs (hserved hr)),
    fun hr hfind => htells ((sealsig_runs (hserved hr)).trans (by rw [hfind]; rfl)),
    fun hr hfind => htells ((sealsig_runs (hserved hr)).trans (by rw [hfind]; rfl)),
    fun hr hfind => htells ((sealsig_runs (hserved hr)).trans (by rw [hfind]; rfl)),
    fun hses hprov h1 h2 h4 => ⟨?passed, ?failed⟩, ?entropy, ⟨_, exec_treeReady_epoch, State.bit_latch_self s aSEC_HSSE fSEC_HSSE_EREADY rfl (by decide),
      rfl, (KeepsRegs.refl [aSEC_HSSE] s).latch (a := aSEC_HSSE) (by simp) _, .of_fields rfl rfl rfl⟩,
    fun hw => ⟨_, exec_treeReady_waited hw, State.bit_setBit_self s aSEC_STAT fSEC_STAT_TREEWAIT false rfl (by decide), rfl,
      (KeepsRegs.refl [aSEC_STAT] s).setBit (a := aSEC_STAT) (by simp) _ _, .of_fields rfl rfl rfl⟩,
    fun hw => ⟨_, exec_treeReady_kept hw, State.bit_latch_self s aSEC_HSSE fSEC_HSSE_NREADY rfl (by decide), rfl,
      (KeepsRegs.refl [aSEC_HSSE] s).latch (a := aSEC_HSSE) (by simp) _, .of_fields rfl rfl rfl⟩,
    fun hreq hfind ⟨⟨hup, hmay, hq⟩, hlt⟩ => ?sealed, fun hreq ⟨⟨hup, hmay, hq⟩, hlt⟩ => ?reported,
    fun hreq hfind ⟨hup, hmay, hq⟩ hle => ?reserved, fun hreq hup hq hle hsusp => ?suspended, fun hreq hup hq hsusp => ?resumed,
    fun hidle => ⟨s, exec_sealSign_idle hidle, rfl⟩⟩
  case passed =>
    have hoff : KeepsRegs [] (s.setFld aSEC_STAT fSEC_STAT_STATE seReady) (s.selftestOutcome true) := .of_does State.causeOff_does (by decide) _
    have hstate := State.fld_setFld_self s aSEC_STAT fSEC_STAT_STATE seReady (by decide) (by decide)
    have hcause : (s.selftestOutcome true).causeAt 112 0 = false := State.causeAt_causeOff _ 112 0
    have hdoes : Does [.causes] [18] s (s.selftestOutcome true) :=
      State.causeOff_does.call (by decide) (Does.setFld adr_SEC_STAT (by decide) Does.refl)
    have hregs := ((KeepsRegs.refl [aSEC_STAT] s).setFld (a := aSEC_STAT) (by simp) fSEC_STAT_STATE seReady).trans (hoff.mono (by simp))
    refine ⟨_, exec_selftest_runs hses hprov (engRole_of_engineer h1 h2 h4), ?_⟩
    generalize s.selftestOutcome true = a at *
    have ht := a.secReply_tells p 8 0 []
    have hr := a.secReply_replied p 8 0 []
    have hcause' : (a.secReply p 8 0 []).causeAt 112 0 = false := by
      unfold State.causeAt at hcause ⊢
      rwa [State.secReply_does.same .causes (by decide) (by decide)]
    exact ⟨secFrames_nil p 8 0 ▸ ht.frames.of_same (hdoes.same .out (by decide) (by decide)) (hdoes.same .links (by decide) (by decide)),
      (State.fld_congr _ (ht.regs _ (by simp))).trans ((State.fld_congr _ (hoff _ (by simp))).trans hstate), hcause',
      hr.sec.trans (hdoes.same .sec (by decide) (by decide)), hr.agenda.trans (hdoes.same .agenda (by decide) (by decide)),
      hregs.trans (ht.regs.mono (by simp)), (KeepsMemory.of_does hdoes (by decide)).trans ht.memory⟩
  case failed =>
    have herr := s.selftestOutcome_errs
    have hdoes : Does [.agenda, .causes, .fresh] [18] s (s.selftestOutcome false) := State.selftestOutcome_does
    refine ⟨_, exec_selftest_runs hses hprov (engRole_of_engineer h1 h2 h4), ?_⟩
    generalize s.selftestOutcome false = a at *
    have ht := a.secReply_tells p 8 4 []
    have hr := a.secReply_replied p 8 4 []
    have hcause' : (a.secReply p 8 4 []).causeStands 112 = true := by
      have hcause := herr.cause
      unfold State.causeStands at hcause ⊢
      rwa [State.secReply_does.same .causes (by decide) (by decide)]
    have hraised : Raises 112 islSecurity s (a.secReply p 8 4 []) := by
      have hraise := herr.raised
      unfold Raises at hraise ⊢
      rwa [hr.agenda]
    exact ⟨secFrames_nil p 8 4 ▸ ht.frames.of_same (hdoes.same .out (by decide) (by decide)) (hdoes.same .links (by decide) (by decide)),
      (State.fld_congr _ (ht.regs _ (by simp))).trans herr.state, hcause', hraised, hr.sec.trans herr.sec,
      herr.regs.trans (ht.regs.mono (by simp)), herr.memory.trans ht.memory⟩
  case entropy =>
    have herr := s.selftestOutcome_errs
    exact ⟨_, rfl, herr.state, herr.latched, herr.cause, herr.raised, herr.sec, herr.regs, herr.memory⟩
  case sealed =>
    have h := (State.popSig_serving hreq).sealServed hfind
    exact ⟨_, exec_sealSign_serves hreq hup hmay hq (.inl hlt), h.seals, h.index, h.hss, h.inside hlt, h.requests, h.out, h.shown, h.regs, h.memory⟩
  case reported =>
    have h := (State.popSig_serving hreq).reportServed (p := p) nonce
    exact ⟨_, exec_sealSign_serves hreq hup hmay hq (.inl hlt), h.frames, h.index, h.requests, h.acq, h.regs, h.memory⟩
  case reserved =>
    have h := (State.popSig_serving hreq).sealServed hfind
    exact ⟨_, exec_sealSign_serves hreq hup hmay hq (.inr rfl), h.index, (h.beyond hle).1, (h.beyond hle).2, h.requests, h.regs, h.memory⟩
  case suspended =>
    have h := s.signingSuspended_shows
    exact ⟨_, exec_sealSign_suspends hreq hup hq hle hsusp, h.susp, h.latched, h.cause, h.raised, h.does.same .sec (by decide) (by decide),
      h.does.same .acq (by decide) (by decide), h.regs, .of_does h.does (by decide)⟩
  case resumed =>
    obtain ⟨⟨c', r⟩, rest', hreq'⟩ := List.exists_cons_of_ne_nil hreq
    have hserving := State.popSig_serving hreq'
    have hun := s.unsuspended_shows
    refine ⟨_, exec_sealSign_runs hreq' hup hq (.inr rfl), ?_⟩
    refine iteInduction (motive := fun t : State => t.bit aSEC_STAT fSEC_STAT_SUSP = false ∧ t.causeAt 115 0 = false ∧ KeepsMemory s t)
      (fun _ => ?_) (fun _ => ⟨hun.susp, hun.cause, .of_does hun.does (by decide)⟩)
    obtain ⟨hsame, hcauses⟩ := State.serveSig_available s.unsuspended.popSig r
    exact ⟨hsame.trans hserving.susp, hcauses 115 0 (by decide) hserving.cause,
      (KeepsMemory.of_does hserving.does (by decide)).trans (.of_does State.serveSig_does (by decide))⟩

end Sys2Proof.Machine
end

section
/-! Errors of HBM requests and of the scrubber (O28; R340 to R343, R351). -/
namespace Sys2Proof.Machine

variable {s t u : State}

/-- An error enters the log as one entry (R342). -/
theorem State.hbmLog_logs (s : State) (requester a : Nat) (ue : Bool) :
    ∃ u payload, s.hbmLog requester a ue = u.log 0x03 0 payload ∧ Does [.free, .hbm] [] s u ∧ u.hbm.reads = s.hbm.reads := by
  have hmap : Does [.free] [] s (s.hbmMap a).2 := State.hbmMap_does
  have hdraw : Does [.free] [] (s.hbmMap a).2 (s.hbmMap a).2.draw.2 := State.draw_does
  unfold State.hbmLog
  generalize s.hbmMap a = m at *
  have hall : Does [.free, .hbm] [] s m.2.draw.2 := hdraw.call (by decide) (hmap.mono (by decide))
  have hreads : m.2.draw.2.hbm.reads = s.hbm.reads := congrArg Hbm.reads (hmap.same .hbm (by decide) (by decide))
  exact ⟨_, _, rfl, Does.put_hbm (by decide) hall, hreads⟩

theorem State.hbmLog_keepsRegs (s : State) (requester a : Nat) (ue : Bool) : KeepsRegs logRegs s (s.hbmLog requester a ue) := by
  obtain ⟨u, payload, hlog, hdoes, -⟩ := s.hbmLog_logs requester a ue
  rw [hlog]
  exact (KeepsRegs.of_does hdoes (by decide) _).trans (u.log_keepsRegs _ _ _)

theorem State.hbmLog_reads (s : State) (requester a : Nat) (ue : Bool) : (s.hbmLog requester a ue).hbm.reads = s.hbm.reads := by
  obtain ⟨u, payload, hlog, -, hreads⟩ := s.hbmLog_logs requester a ue
  rw [hlog, State.log_does.same .hbm (by decide) (by decide), hreads]

/-- An error latched and counted. -/
def State.errCounted (f : Fld) (cnt : Nat) (s : State) : State := (s.latch aHBM_LAT f).bump cnt

theorem State.hbmVerdict_none (s : State) (requester a : Nat) : s.hbmVerdict requester a 0 = s := rfl

theorem State.hbmVerdict_ue (s : State) (requester a : Nat) :
    s.hbmVerdict requester a 2 = ((s.errCounted fHBM_LAT_UE aHBM_UECNT).hbmLog requester a true).raise 17 islMemory := rfl

/-- What an error found leaves: its latch, its count, its log entry, its fault. -/
structure ErrorShown (f : Fld) (cnt : Nat) (fs : Fin 128) (s t : State) : Prop where
  latched : t.bit aHBM_LAT f = true
  raised : Raises fs islMemory s t
  counted : (t.reg cnt).toNat = min 0xFFFFFFFF ((s.reg cnt).toNat + 1)
  regs : KeepsRegs (cnt :: aHBM_LAT :: logRegs) s t
  memory : KeepsMemory s t

section
variable {f : Fld} {cnt : Nat}

/-- The registers that an error counts in: CECNT or UECNT, which neither the latch nor the log is. -/
structure ErrorCounter (f : Fld) (cnt : Nat) : Prop where
  one : f.lo = f.hi
  bound : f.hi < 32
  adr : Adr cnt 12
  latch : cnt ≠ aHBM_LAT
  log : cnt ∉ logRegs

theorem State.errCounted_does (hadr : Adr cnt 12) : Does [.fresh] [12] s (s.errCounted f cnt) :=
  Does.bump hadr (by decide) (Does.latch adr_HBM_LAT (by decide) Does.refl)

theorem State.hbmErr_shows (h : ErrorCounter f cnt) (s : State) (requester a : Nat) (ue : Bool) (fs : Fin 128) :
    ErrorShown f cnt fs s (((s.errCounted f cnt).hbmLog requester a ue).raise fs islMemory) := by
  obtain ⟨hone, hbound, hadr, hlatch, hlog⟩ := h
  have hlat : (s.errCounted f cnt).bit aHBM_LAT f = true :=
    (State.bit_congr f (State.reg_bump_ne _ hlatch.symm)).trans (State.bit_latch_self s aHBM_LAT f hone hbound)
  have hcount : ((s.errCounted f cnt).reg cnt).toNat = min 0xFFFFFFFF ((s.reg cnt).toNat + 1) :=
    (State.reg_bump_toNat _ cnt).trans (by rw [State.reg_latch_ne s f hlatch])
  have hregs : KeepsRegs [cnt, aHBM_LAT] s (s.errCounted f cnt) :=
    ((KeepsRegs.refl [cnt, aHBM_LAT] s).latch (a := aHBM_LAT) (by simp) f).bump (a := cnt) (by simp)
  have hdoes : Does [.fresh] [12] s (s.errCounted f cnt) := State.errCounted_does hadr
  generalize s.errCounted f cnt = b at *
  have hkeep := b.hbmLog_keepsRegs requester a ue
  have hlogged : Does [.free, .hbm, .mgt] [16] b (b.hbmLog requester a ue) := State.hbmLog_does
  generalize b.hbmLog requester a ue = c at *
  have hcnt : c.reg cnt = b.reg cnt := hkeep cnt hlog
  exact {
    latched := (State.bit_congr f (hkeep aHBM_LAT (by decide))).trans hlat
    raised := raises_of_count ((hlogged.same .count (by decide) (by decide)).trans (hdoes.same .count (by decide) (by decide))) fs islMemory
    counted := (congrArg BitVec.toNat hcnt).trans hcount
    regs := (hregs.mono (by simp)).trans ((hkeep.mono fun x hx => by simp [hx]).trans fun _ _ => rfl)
    memory := (KeepsMemory.of_does hdoes (by decide)).trans ((KeepsMemory.of_does hlogged (by decide)).trans (.of_fields rfl rfl rfl)) }

end

theorem errorCounter_ce : ErrorCounter fHBM_LAT_CE aHBM_CECNT := ⟨rfl, by decide, adr_HBM_CECNT, by decide, by decide⟩

theorem errorCounter_ue : ErrorCounter fHBM_LAT_UE aHBM_UECNT := ⟨rfl, by decide, adr_HBM_UECNT, by decide, by decide⟩

theorem State.hbmVerdict_shows_ce (s : State) (requester a : Nat) :
    ErrorShown fHBM_LAT_CE aHBM_CECNT 16 s (s.hbmVerdict requester a 1) := s.hbmErr_shows errorCounter_ce requester a false 16

theorem State.hbmVerdict_shows_ue (s : State) (requester a : Nat) :
    ErrorShown fHBM_LAT_UE aHBM_UECNT 17 s (s.hbmVerdict requester a 2) := s.hbmErr_shows errorCounter_ue requester a true 17

theorem State.hbmVerdict_reads_ue (s : State) (requester a : Nat) : (s.hbmVerdict requester a 2).hbm.reads = s.hbm.reads := by
  rw [State.hbmVerdict_ue]
  exact (s.errCounted fHBM_LAT_UE aHBM_UECNT).hbmLog_reads requester a true

/-! ## SCRUB -/

section
variable {addr : BitVec 35} {v : BitVec 2}

theorem exec_scrub_stopped (h : s.fld aHBM_SCRUB fHBM_SCRUB_SCRUB = 0) : exec (.scrub addr v) s = .next s := if_pos h

theorem exec_scrub_runs (h : s.fld aHBM_SCRUB fHBM_SCRUB_SCRUB ≠ 0) : exec (.scrub addr v) s = .next (s.hbmVerdict 9 addr.toNat v) :=
  if_neg h

theorem exec_scrub_clean (s : State) (addr : BitVec 35) : exec (.scrub addr 0) s = .next s := by
  by_cases h : s.fld aHBM_SCRUB fHBM_SCRUB_SCRUB = 0
  · exact exec_scrub_stopped h
  · exact exec_scrub_runs h

end

end Sys2Proof.Machine
end

section
/-! What a pseudo-channel serves next, and a request served (O28; R336 to R339, R345). -/
namespace Sys2Proof.Machine

variable {s t u : State} {r : HbmReq} {k : Nat}

/-! ## The request served next (R338) -/

/-- A pseudo-channel's choice outside the in-order mode. -/
def pickAged (age : Nat) (x : HbmPc) (q q1 : List HbmReq) : Option HbmReq :=
  match q.find? (fun r => decide (age ≤ r.passed)) with
  | some r => some r
  | none =>
    match q1.find? x.hit with
    | some r => some r
    | none => q1.head?

theorem pickAged_aged {age : Nat} {x : HbmPc} {q q1 : List HbmReq} (h : q.find? (fun r => decide (age ≤ r.passed)) = some r) :
    pickAged age x q q1 = some r := by
  simp only [pickAged, h]

theorem pickAged_hit {age : Nat} {x : HbmPc} {q q1 : List HbmReq} (h : q.find? (fun r => decide (age ≤ r.passed)) = none)
    (hhit : q1.find? x.hit = some r) : pickAged age x q q1 = some r := by
  simp only [pickAged, h, hhit]

theorem pickAged_oldest {age : Nat} {x : HbmPc} {q q1 : List HbmReq} (h : q.find? (fun r => decide (age ≤ r.passed)) = none)
    (hhit : q1.find? x.hit = none) : pickAged age x q q1 = q1.head? := by
  simp only [pickAged, h, hhit]

theorem State.hbmPick_inOrder (h : (s.hbmPc k).inOrder = true) : s.hbmPick k = (s.hbmQueue k).head? := if_pos h

theorem State.hbmPick_free (h : (s.hbmPc k).inOrder = false) : s.hbmPick k =
    pickAged (s.fld aHBM_CFG fHBM_CFG_AGEMAX) (s.hbmPc k) (s.hbmQueue k)
      (if s.burstSplit k then (s.hbmQueue k).filter (fun r => r.requester != (s.hbmPc k).run.1) else s.hbmQueue k) := by
  refine (if_neg (by rw [h]; decide)).trans ?_
  unfold pickAged
  rfl

/-! ## A request served -/

/-- The cut of a burst at its bound counted (R345). -/
def State.burstCut (s : State) (r : HbmReq) : State :=
  if s.burstSplit r.pc && r.requester != (s.hbmPc r.pc).run.1 then (s.latch aHBM_LAT fHBM_LAT_SPLIT).bump aHBM_SPLITS else s

/-- A pseudo-channel's state once it has served a request. -/
def State.pcAfter (s : State) (r : HbmReq) : HbmPc :=
  let x := s.hbmPc r.pc
  let rest := passOver r s.hbm.queue
  { x with
    rows := Tab.set (fun _ => none) x.rows r.bank (s.rowAfter r (rest.filter (fun z => z.pc == r.pc)))
    run := (r.requester, if x.run.1 = r.requester then x.run.2 + 1 else 1)
    hits := (x.hit r :: x.hits).take (2 ^ 20) }

/-- The request out of the queue, entered among those served. -/
def State.hbmTaken (s : State) (r : HbmReq) : State :=
  ({ s with hbm := { s.hbm with
    queue := passOver r s.hbm.queue
    served := (r.requester, s.count) :: s.hbm.served.filter (fun (e : Nat × Count) =>
      decide (hbmCycles e.2 s.count < 2 ^ 20)) } }.setHbmPc r.pc (s.pcAfter r))

theorem State.hbmServe_eq (s : State) (r : HbmReq) : s.hbmServe r =
    (((s.burstCut r).hbmTaken r).maxReg (aHBM_REQ_LMAX r.requester)
      (min 0xFFFFFFFF (hbmCycles r.since (s.burstCut r).count))).judgeOrder r.pc := rfl

/-- What the cut counted leaves. -/
structure BurstCut (r : HbmReq) (s t : State) : Prop where
  hbm : t.hbm = s.hbm
  count : t.count = s.count
  regs : KeepsRegs [aHBM_LAT, aHBM_SPLITS] s t
  split : s.burstSplit r.pc = true → r.requester ≠ (s.hbmPc r.pc).run.1 → t.bit aHBM_LAT fHBM_LAT_SPLIT = true ∧
    (t.reg aHBM_SPLITS).toNat = min 0xFFFFFFFF ((s.reg aHBM_SPLITS).toNat + 1)
  does : Does [.fresh] [12] s t

/-- A cut latched and counted. -/
def State.splitCounted (s : State) : State := (s.latch aHBM_LAT fHBM_LAT_SPLIT).bump aHBM_SPLITS

theorem State.splitCounted_shows (s : State) : KeepsRegs [aHBM_LAT, aHBM_SPLITS] s s.splitCounted ∧
    s.splitCounted.bit aHBM_LAT fHBM_LAT_SPLIT = true ∧
    (s.splitCounted.reg aHBM_SPLITS).toNat = min 0xFFFFFFFF ((s.reg aHBM_SPLITS).toNat + 1) ∧ Does [.fresh] [12] s s.splitCounted :=
  ⟨((KeepsRegs.refl [aHBM_LAT, aHBM_SPLITS] s).latch (a := aHBM_LAT) (by simp) _).bump (a := aHBM_SPLITS) (by simp),
    (State.bit_congr _ (State.reg_bump_ne _ (by decide))).trans (State.bit_latch_self s aHBM_LAT fHBM_LAT_SPLIT rfl (by decide)),
    (State.reg_bump_toNat _ _).trans (by rw [State.reg_latch_ne s _ (by decide)]),
    Does.bump adr_HBM_SPLITS (by decide) (Does.latch adr_HBM_LAT (by decide) Does.refl)⟩

theorem State.burstCut_shows (s : State) (r : HbmReq) : BurstCut r s (s.burstCut r) := by
  unfold State.burstCut
  split
  · obtain ⟨hregs, hlat, hcount, hdoes⟩ := s.splitCounted_shows
    exact ⟨hdoes.same .hbm (by decide) (by decide), hdoes.same .count (by decide) (by decide), hregs, fun _ _ => ⟨hlat, hcount⟩, hdoes⟩
  · next hno =>
    refine ⟨rfl, rfl, .refl _ s, fun h hne => absurd ?_ hno, .refl⟩
    rw [h, bne_iff_ne.mpr hne]
    rfl

theorem State.hbmPc_of_hbm (h : t.hbm = s.hbm) (k : Nat) : t.hbmPc k = s.hbmPc k := by unfold State.hbmPc; rw [h]

/-- The hint of a real-time requester is its own (R337). -/
theorem State.hbmHint_own (h : r.requester < 3) (s t : State) : t.hbmHint r = s.hbmHint r := by
  have hport : ¬(r.requester = 6 ∨ r.requester = 7) := by omega
  exact (if_neg hport).trans (if_neg hport).symm

/-- What the mode judged again leaves: all but the in-order mode, which INORD counts. -/
structure OrderJudged (k : Nat) (s t : State) : Prop where
  queue : t.hbm.queue = s.hbm.queue
  served : t.hbm.served = s.hbm.served
  reads : t.hbm.reads = s.hbm.reads
  mode : (t.hbmPc k).inOrder = rowWaits (s.hbmQueue k)
  hits : (t.hbmPc k).hits = (s.hbmPc k).hits
  rows : (t.hbmPc k).rows = (s.hbmPc k).rows
  run : (t.hbmPc k).run = (s.hbmPc k).run
  regs : KeepsRegs [aHBM_PC_INORD k] s t
  calm : rowWaits (s.hbmQueue k) = false → KeepsRegs [] s t
  does : Does [.fresh, .hbm] [12] s t

theorem State.setHbmPc_hbmPc (s : State) (k : Nat) (x : HbmPc) : (s.setHbmPc k x).hbmPc k = x := Tab.get_set_self _ _ _ _

/-- A pseudo-channel's mode set. -/
def State.orderSet (s : State) (k : Nat) : State := s.setHbmPc k { s.hbmPc k with inOrder := rowWaits (s.hbmQueue k) }

theorem State.judgeOrder_eq (s : State) (k : Nat) : s.judgeOrder k =
    if rowWaits (s.hbmQueue k) = (s.hbmPc k).inOrder then s
    else if rowWaits (s.hbmQueue k) then (s.orderSet k).bump (aHBM_PC_INORD k) else s.orderSet k := rfl

theorem State.orderSet_judged (s : State) (k : Nat) : OrderJudged k s (s.orderSet k) := by
  have hpc : (s.orderSet k).hbmPc k = { s.hbmPc k with inOrder := rowWaits (s.hbmQueue k) } := s.setHbmPc_hbmPc k _
  exact ⟨rfl, rfl, rfl, by rw [hpc], by rw [hpc], by rw [hpc], by rw [hpc], fun _ _ => rfl, fun _ _ _ => rfl,
    State.setHbmPc_does.mono (by decide)⟩

theorem State.judgeOrder_judges (s : State) (k : Nat) : OrderJudged k s (s.judgeOrder k) := by
  rw [State.judgeOrder_eq]
  have hset := s.orderSet_judged k
  refine iteInduction (motive := OrderJudged k s) (fun hsame => ?_) (fun _ =>
    iteInduction (motive := OrderJudged k s) (fun hnow => ?_) (fun _ => hset))
  · exact ⟨rfl, rfl, rfl, hsame.symm, rfl, rfl, rfl, .refl _ s, fun _ => .refl _ s, .refl⟩
  · obtain ⟨hq, hserved, hreads, hmode, hhits, hrows, hrun, hregs, -, hdoes⟩ := hset
    generalize s.orderSet k = a at *
    exact ⟨hq, hserved, hreads, hmode, hhits, hrows, hrun, hregs.bump (a := aHBM_PC_INORD k) (by simp),
      fun hno => absurd hnow (by rw [hno]; decide), .bump adr_HBM_PC_INORD (by decide) hdoes⟩

/-- What a request served leaves. -/
structure HbmServed (r : HbmReq) (s t : State) : Prop where
  queue : t.hbm.queue = passOver r s.hbm.queue
  served : t.hbm.served.head? = some (r.requester, s.count)
  reads : t.hbm.reads = s.hbm.reads
  latency : (t.reg (aHBM_REQ_LMAX r.requester)).toNat =
    max (s.reg (aHBM_REQ_LMAX r.requester)).toNat (min 0xFFFFFFFF (hbmCycles r.since s.count))
  hit : (t.hbmPc r.pc).hits.head? = some ((s.hbmPc r.pc).hit r)
  closed : r.requester < 3 → s.hbmHint r = 1 → Tab.get (fun _ => none) (t.hbmPc r.pc).rows r.bank = none
  opened : r.requester < 3 → s.hbmHint r = 0 → Tab.get (fun _ => none) (t.hbmPc r.pc).rows r.bank = some (r.row, none)
  split : s.burstSplit r.pc = true → r.requester ≠ (s.hbmPc r.pc).run.1 → t.bit aHBM_LAT fHBM_LAT_SPLIT = true ∧
    (t.reg aHBM_SPLITS).toNat = min 0xFFFFFFFF ((s.reg aHBM_SPLITS).toNat + 1)
  regs : KeepsRegs [aHBM_LAT, aHBM_SPLITS, aHBM_REQ_LMAX r.requester, aHBM_PC_INORD r.pc] s t
  does : Does [.fresh, .hbm] [12] s t

/-- What the request taken leaves. -/
structure HbmTaken (r : HbmReq) (s t : State) : Prop where
  queue : t.hbm.queue = passOver r s.hbm.queue
  served : t.hbm.served.head? = some (r.requester, s.count)
  reads : t.hbm.reads = s.hbm.reads
  pc : t.hbmPc r.pc = s.pcAfter r
  regs : ∀ a, t.reg a = s.reg a
  does : Does [.hbm] [] s t

theorem State.hbmTaken_takes (s : State) (r : HbmReq) : HbmTaken r s (s.hbmTaken r) where
  queue := rfl
  served := rfl
  reads := rfl
  pc := State.setHbmPc_hbmPc _ _ _
  regs _ := rfl
  does := State.setHbmPc_does.call (by decide) (Does.put_hbm (by decide) Does.refl)

theorem State.reg_maxReg_toNat (s : State) (a : Nat) {v : Nat} (h : v ≤ 0xFFFFFFFF) :
    ((s.maxReg a v).reg a).toNat = max (s.reg a).toNat v := by
  rw [show (s.maxReg a v).reg a = BitVec.ofNat 32 (max (s.reg a).toNat (min 0xFFFFFFFF v)) from State.reg_setReg_self _ _ _,
    BitVec.toNat_ofNat]
  have hlt := (s.reg a).isLt
  omega

theorem State.pcAfter_hit (s : State) (r : HbmReq) : (s.pcAfter r).hits.head? = some ((s.hbmPc r.pc).hit r) := rfl

theorem State.pcAfter_row (s : State) (r : HbmReq) : Tab.get (fun _ => none) (s.pcAfter r).rows r.bank =
    s.rowAfter r ((passOver r s.hbm.queue).filter (fun z => z.pc == r.pc)) := Tab.get_set_self _ _ _ _

theorem State.rowAfter_close {rest : List HbmReq} (h : s.hbmHint r = 1) : s.rowAfter r rest = none := if_pos h

theorem State.rowAfter_open {rest : List HbmReq} (h : s.hbmHint r = 0) : s.rowAfter r rest = some (r.row, none) :=
  (if_neg (by rw [h]; decide)).trans (if_neg (by rw [h]; simp))

theorem State.hbmServe_serves (s : State) (r : HbmReq) : HbmServed r s (s.hbmServe r) := by
  rw [State.hbmServe_eq]
  obtain ⟨hhbm, hcount, hregs0, hsplit, hdoes0⟩ := s.burstCut_shows r
  have hpc0 := State.hbmPc_of_hbm hhbm
  have hhint := fun h : r.requester < 3 => State.hbmHint_own h s (s.burstCut r)
  generalize s.burstCut r = a at *
  obtain ⟨hq, hserved, hreads, hpc, hregs1, hdoes1⟩ := a.hbmTaken_takes r
  generalize a.hbmTaken r = b at *
  have hlmax := b.reg_maxReg_toNat (aHBM_REQ_LMAX r.requester) (Nat.min_le_left 0xFFFFFFFF (hbmCycles r.since a.count))
  have hregs2 : KeepsRegs [aHBM_REQ_LMAX r.requester] b
      (b.maxReg (aHBM_REQ_LMAX r.requester) (min 0xFFFFFFFF (hbmCycles r.since a.count))) := (KeepsRegs.refl _ b).setReg (by simp) _
  have hdoes2 : Does [.fresh, .hbm] [12] s (b.maxReg (aHBM_REQ_LMAX r.requester) (min 0xFFFFFFFF (hbmCycles r.since a.count))) :=
    .maxReg adr_HBM_REQ_LMAX (by decide) (hdoes1.call (by decide) (hdoes0.mono (by decide)))
  have hhbm2 : (b.maxReg (aHBM_REQ_LMAX r.requester) (min 0xFFFFFFFF (hbmCycles r.since a.count))).hbm = b.hbm := rfl
  generalize b.maxReg (aHBM_REQ_LMAX r.requester) (min 0xFFFFFFFF (hbmCycles r.since a.count)) = c at *
  obtain ⟨hq', hserved', hreads', -, hhits', hrows', -, hregs', -, hdoes'⟩ := c.judgeOrder_judges r.pc
  have hpcc : c.hbmPc r.pc = a.pcAfter r := (State.hbmPc_of_hbm hhbm2 _).trans hpc
  generalize c.judgeOrder r.pc = d at *
  have hin : aHBM_REQ_LMAX r.requester ≠ aHBM_PC_INORD r.pc := by simp only [aHBM_REQ_LMAX, aHBM_PC_INORD]; omega
  have hrow : ∀ x, a.rowAfter r ((passOver r a.hbm.queue).filter (fun z => z.pc == r.pc)) = x →
      Tab.get (fun _ => none) (d.hbmPc r.pc).rows r.bank = x := fun x hx => by rw [hrows', hpcc, State.pcAfter_row, hx]
  have hlate : ∀ x ∈ [aHBM_LAT, aHBM_SPLITS], d.reg x = a.reg x := fun x hx => by
    have h1 : x ≠ aHBM_PC_INORD r.pc ∧ x ≠ aHBM_REQ_LMAX r.requester := by
      simp only [List.mem_cons, List.not_mem_nil, or_false] at hx
      obtain rfl | rfl := hx
      all_goals simp only [aHBM_LAT, aHBM_SPLITS, aHBM_REQ_LMAX, aHBM_PC_INORD]; omega
    rw [hregs' x (by simpa using h1.1), hregs2 x (by simpa using h1.2), hregs1]
  exact {
    queue := by rw [hq', hhbm2, hq, hhbm]
    served := by rw [hserved', hhbm2, hserved, hcount]
    reads := by rw [hreads', hhbm2, hreads, hhbm]
    latency := by
      rw [hregs' _ (by simpa using hin), hlmax, hregs1, hcount, hregs0]
      simp only [List.mem_cons, List.not_mem_nil, or_false, aHBM_REQ_LMAX, aHBM_LAT, aHBM_SPLITS]
      omega
    hit := by rw [hhits', hpcc, State.pcAfter_hit, hpc0]
    closed := fun hlt h => hrow _ (State.rowAfter_close ((hhint hlt).trans h))
    opened := fun hlt h => hrow _ (State.rowAfter_open ((hhint hlt).trans h))
    split := fun h hne => by
      obtain ⟨hlat, hcnt⟩ := hsplit h hne
      exact ⟨(State.bit_congr _ (hlate aHBM_LAT (by simp))).trans hlat, (congrArg BitVec.toNat (hlate aHBM_SPLITS (by simp))).trans hcnt⟩
    regs := ((hregs0.mono (by simp)).trans fun x _ => hregs1 x).trans ((hregs2.mono (by simp)).trans (hregs'.mono (by simp)))
    does := hdoes'.call (by decide) hdoes2 }

end Sys2Proof.Machine
end

section
/-! Requests of HBM completed, and the host reads they answer (O28; R47, R336, R340, R341). -/
namespace Sys2Proof.Machine

variable {s t u : State} {r : HbmReq} {req line : Nat}

/-! ## A request joins its queue -/

/-- The request in a queue that a completion names: the oldest of its requester for the line. -/
def State.hbmFound (s : State) (req line : Nat) : Option HbmReq :=
  s.hbm.queue.find? (fun r => r.requester == req && r.line == line && !r.held)

theorem State.hbmFound_names (h : s.hbmFound req line = some r) : r.requester = req ∧ r.line = line ∧ r ∈ s.hbm.queue := by
  have hmem := List.mem_of_find?_eq_some h
  have hprop : (r.requester == req && r.line == line && !r.held) = true := List.find?_some (p := fun r : HbmReq =>
    r.requester == req && r.line == line && !r.held) h
  simp only [Bool.and_eq_true, beq_iff_eq] at hprop
  exact ⟨hprop.1.1, hprop.1.2, hmem⟩

/-- The requesters whose issue the rules leave to them (log entry 35). -/
def joinsLate (req : Nat) : Prop := req = 3 ∨ req = 4 ∨ req = 5 ∨ 8 ≤ req

theorem State.hbmJoin_queued (h : s.hbmFound req line = some r) : s.hbmJoin req line = s := by
  obtain ⟨hreq, hline, hmem⟩ := State.hbmFound_names h
  refine if_neg fun hno => ?_
  have hany : s.hbm.queue.any (fun x => x.requester == req && x.line == line) = true :=
    List.any_eq_true.mpr ⟨r, hmem, by rw [hreq, hline]; simp⟩
  rw [hany] at hno
  exact absurd hno.2 (by decide)

theorem State.hbmJoin_known (h : ¬ joinsLate req) : s.hbmJoin req line = s := if_neg fun hno => h hno.1

/-- The request for a line of HBM as it joins a queue. -/
def State.requestOf (s : State) (req line g : Nat) : HbmReq :=
  let m := hbmPlace (s.fld (aHBM_RGN_BASE g) fHBM_RGN_BASE_BASE * 1048576) (2 ^ s.fld (aHBM_RGN_KIND g) fHBM_RGN_KIND_LOG2G)
    (64 * line / 64 * 64)
  { requester := req, line := 64 * line / 64, pc := m.1, place := m.2, write := false, since := s.count, held := !(s.blkOn 12), old := [] }

/-- A request put at the end of the queue. -/
def State.enqueued (s : State) (r : HbmReq) : State := { s with hbm := { s.hbm with queue := s.hbm.queue ++ [r] } }

theorem State.hbmRequest_eq {g : Nat} (h : s.hbmRegionAt (64 * line) = some g) : s.hbmRequest req (64 * line) false =
    (s.enqueued (s.requestOf req line g)).judgeOrder (s.requestOf req line g).pc := by
  simp only [State.hbmRequest, h]
  rfl

/-- What a request that joins empty queues leaves. -/
structure JoinedAlone (req line : Nat) (r : HbmReq) (s t : State) : Prop where
  queue : t.hbm.queue = [r]
  requester : r.requester = req
  lineOf : r.line = line
  ready : r.held = false
  place : r.pc < 16
  free : (t.hbmPc r.pc).inOrder = false
  regs : KeepsRegs [] s t
  does : Does [.fresh, .hbm] [12] s t

theorem hbmQueue_single (hq : s.hbm.queue = [r]) (hheld : r.held = false) : s.hbmQueue r.pc = [r] := by
  unfold State.hbmQueue
  rw [hq]
  simp [hheld]

theorem State.hbmJoin_alone (hj : joinsLate req) (hq : s.hbm.queue = []) (hon : s.blkOn 12 = true)
    (hreg : (s.hbmRegionAt (64 * line)).isSome = true) : ∃ r, JoinedAlone req line r s (s.hbmJoin req line) := by
  obtain ⟨g, hg⟩ := Option.isSome_iff_exists.mp hreg
  have hjoin : s.hbmJoin req line = s.hbmRequest req (64 * line) false := if_pos ⟨hj, by rw [hq]; rfl⟩
  rw [hjoin, State.hbmRequest_eq hg]
  have hheld : (s.requestOf req line g).held = false := by
    change (!s.blkOn 12) = false
    rw [hon]; rfl
  have hline : (s.requestOf req line g).line = line := Nat.mul_div_cancel_left line (by decide)
  have hpc : (s.requestOf req line g).pc < 16 := Nat.mod_lt _ (by decide)
  have hrequester : (s.requestOf req line g).requester = req := rfl
  generalize s.requestOf req line g = r at *
  have hqueue : (s.enqueued r).hbm.queue = [r] := congrArg (· ++ [r]) hq
  have hdoes : Does [.hbm] [] s (s.enqueued r) := Does.put_hbm (by decide) Does.refl
  have hregs : KeepsRegs [] s (s.enqueued r) := fun _ _ => rfl
  generalize s.enqueued r = a at *
  have hjudged := a.judgeOrder_judges r.pc
  have hcalm : rowWaits (a.hbmQueue r.pc) = false := by
    rw [hbmQueue_single hqueue hheld]
    simp [rowWaits]
  exact ⟨r, hjudged.queue.trans hqueue, hrequester, hline, hheld, hpc, hjudged.mode.trans hcalm, hregs.trans (hjudged.calm hcalm),
    hjudged.does.call (by decide) (hdoes.mono (by decide))⟩

/-- A queue of one request is served by it. -/
theorem State.hbmPick_single (hq : s.hbm.queue = [r]) (hheld : r.held = false) (hfree : (s.hbmPc r.pc).inOrder = false) :
    s.hbmPick r.pc = some r := by
  have hqueue := hbmQueue_single hq hheld
  have hwhole : s.burstSplit r.pc = false := by
    unfold State.burstSplit
    rw [hqueue]
    simp
  rw [State.hbmPick_free hfree, hwhole, hqueue]
  unfold pickAged
  by_cases h1 : decide (s.fld aHBM_CFG fHBM_CFG_AGEMAX ≤ r.passed) = true
  · simp [h1]
  · by_cases h2 : (s.hbmPc r.pc).hit r = true
    · simp [h1, h2]
    · simp [h1, h2]

/-! ## HBM_REQUEST_DONE -/

section
variable {q : Fin 10} {addr : BitVec 35} {v : BitVec 2}

theorem exec_requestDone_notReady (h : s.hbmReady = false) : exec (.hbmRequestDone q addr v) s = .next s := if_pos h

theorem exec_requestDone_ready (h : s.hbmReady = true) : exec (.hbmRequestDone q addr v) s =
    match (s.hbmJoin q.val (addr.toNat / 64)).hbmFound q.val (addr.toNat / 64) with
    | none => .next (s.hbmJoin q.val (addr.toNat / 64))
    | some r =>
      if (s.hbmJoin q.val (addr.toNat / 64)).hbmPick r.pc = some r then
        .next ((((s.hbmJoin q.val (addr.toNat / 64)).refreshFirst r).hbmServe r).hbmDone r v)
      else .next (s.hbmJoin q.val (addr.toNat / 64)) := by
  refine (if_neg (by rw [h]; decide)).trans ?_
  rfl

theorem exec_requestDone_absent (h : s.hbmReady = true) (hfound : s.hbmFound q.val (addr.toNat / 64) = none) (hj : ¬ joinsLate q.val) :
    exec (.hbmRequestDone q addr v) s = .next s := by
  rw [exec_requestDone_ready h, State.hbmJoin_known hj, hfound]

theorem exec_requestDone_waits (h : s.hbmReady = true) (hfound : s.hbmFound q.val (addr.toNat / 64) = some r)
    (hnext : s.hbmPick r.pc ≠ some r) : exec (.hbmRequestDone q addr v) s = .next s := by
  rw [exec_requestDone_ready h, State.hbmJoin_queued hfound, hfound]
  exact if_neg hnext

theorem State.refreshFirst_calm (h : s.fld (aHBM_PC_DEPTH r.pc) fHBM_PC_DEPTH_POSTP < 8) : s.refreshFirst r = s :=
  if_neg fun hno => absurd hno.1 (Nat.not_le.mpr h)

theorem exec_requestDone_completes (h : s.hbmReady = true) (hfound : s.hbmFound q.val (addr.toNat / 64) = some r)
    (hnext : s.hbmPick r.pc = some r) (hcalm : s.fld (aHBM_PC_DEPTH r.pc) fHBM_PC_DEPTH_POSTP < 8) :
    exec (.hbmRequestDone q addr v) s = .next ((s.hbmServe r).hbmDone r v) := by
  rw [exec_requestDone_ready h, State.hbmJoin_queued hfound, hfound]
  exact (if_pos hnext).trans (by rw [State.refreshFirst_calm hcalm])

/-- A request that joins empty queues completes at once. -/
theorem exec_requestDone_joins (h : s.hbmReady = true) (hjoined : JoinedAlone q.val (addr.toNat / 64) r s (s.hbmJoin q.val (addr.toNat / 64)))
    (hcalm : s.fld (aHBM_PC_DEPTH r.pc) fHBM_PC_DEPTH_POSTP < 8) : exec (.hbmRequestDone q addr v) s =
      .next (((s.hbmJoin q.val (addr.toNat / 64)).hbmServe r).hbmDone r v) := by
  rw [exec_requestDone_ready h]
  obtain ⟨hqueue, hreq, hline, hheld, hpc, hfree, hregs, hdoes⟩ := hjoined
  generalize s.hbmJoin q.val (addr.toNat / 64) = a at *
  have hfound : a.hbmFound q.val (addr.toNat / 64) = some r := by
    unfold State.hbmFound
    rw [hqueue]
    simp [hreq, hline, hheld]
  rw [hfound]
  refine (if_pos (State.hbmPick_single hqueue hheld hfree)).trans ?_
  rw [State.refreshFirst_calm (by rwa [State.fld_congr _ (hregs _ (by simp))])]

end

/-! ## What a completed request does -/

theorem State.hbmDone_own (h : r.requester < 3) (v : BitVec 2) : s.hbmDone r v = s.hbmVerdict r.requester (64 * r.line) v := by
  have h1 : ¬(r.requester = 6 ∨ r.requester = 7) := by omega
  have h4 : (r.requester == 4 || r.requester == 5) = false := by simp; omega
  have h8 : (r.requester == 8) = false := by simp; omega
  refine (if_neg h1).trans ((if_neg (by rw [h4]; simp)).trans (if_neg (by rw [h8]; simp)))

theorem State.hbmDone_clean (h : ¬(r.requester = 6 ∨ r.requester = 7)) : s.hbmDone r 0 = s :=
  (if_neg h).trans ((if_neg (by simp)).trans (if_neg (by simp)))

theorem State.hbmDone_host {p : Port} (h : r.requester = 6 + p.val) (hread : r.write = false) (v : BitVec 2) :
    s.hbmDone r v = (s.hbmVerdict r.requester (64 * r.line) v).hostLine p.val r.line (decide (2 ≤ v.toNat)) := by
  have h67 : r.requester = 6 ∨ r.requester = 7 := by omega
  refine (if_pos h67).trans ((if_neg (by rw [hread]; decide)).trans ?_)
  rw [h, Nat.add_sub_cancel_left]

/-! ## Host reads -/

/-- A host read with no line left to wait for. -/
def HbmRead.ended (rd : HbmRead) (bad : Bool) : HbmRead := { rd with left := [], status := if bad then 7 else rd.status }

/-- No host read waits. -/
def State.readsOver (s : State) : State := { s with hbm := { s.hbm with reads := [] } }

theorem State.hostLine_last {rd : HbmRead} (h : s.hbm.reads = [rd]) (hleft : rd.left = [line]) (bad : Bool) :
    s.hostLine rd.port.val line bad = s.readsOver.hbmAnswer (rd.ended bad) := by
  have hserve : rd.serve line bad = rd.ended bad := by
    unfold HbmRead.serve
    rw [hleft]
    simp [HbmRead.ended]
  unfold State.hostLine
  rw [h]
  simp [hserve, HbmRead.ended, State.readsOver]

theorem State.hbmAnswer_data {rd : HbmRead} (h : rd.status = 0) (s : State) :
    s.hbmAnswer (rd.ended false) = s.sendFrame rd.port.val rd.vc.toNat (.rdr rd.port rd.vc rd.tag 0 rd.data) := by
  unfold State.hbmAnswer
  simp [HbmRead.ended, h]

theorem State.hbmAnswer_bad (s : State) (rd : HbmRead) :
    s.hbmAnswer (rd.ended true) = (s.rejLatch .acc 0).sendFrame rd.port.val rd.vc.toNat (.rdr rd.port rd.vc rd.tag 7 []) := by
  unfold State.hbmAnswer
  simp [HbmRead.ended]

theorem Sends.of_mayGo {p : Port} {vc : Nat} (h : (s.link p.val).mayGo (s.sends p.val) vc = true) (hwait : (s.link p.val).waiting = []) :
    Sends p vc s := by
  have hsends : s.sends p.val = true := by
    cases hcase : s.sends p.val with
    | true => rfl
    | false => rw [hcase] at h; exact absurd h (by simp [LinkState.mayGo])
  exact ⟨hsends, by rwa [hsends] at h, hwait⟩

theorem State.rejLatch_acc (s : State) : ((s.rejLatch .acc 0).reg 8).getLsbD 3 = true := by
  rw [show (s.rejLatch .acc 0).reg 8 = s.reg 8 ||| 8 from State.reg_setReg_self s 8 _]
  simp

end Sys2Proof.Machine
end

section
/-! Refresh, rate and training of HBM, and the statement (O28; R336 to R351). -/
namespace Sys2Proof.Machine

variable {s t u : State} {r : HbmReq}

/-! ## REFRESH -/

section
variable {pc : Fin 16}

theorem exec_refresh_idle : exec (.refresh pc false) s = .next (s.setFld (aHBM_PC_DEPTH pc.val) fHBM_PC_DEPTH_POSTP 0) := rfl

theorem exec_refresh_owed (h : s.fld (aHBM_PC_DEPTH pc.val) fHBM_PC_DEPTH_POSTP < 8) : exec (.refresh pc true) s =
    .next (s.setFld (aHBM_PC_DEPTH pc.val) fHBM_PC_DEPTH_POSTP (s.fld (aHBM_PC_DEPTH pc.val) fHBM_PC_DEPTH_POSTP + 1)) :=
  if_pos h

theorem exec_refresh_ninth (h : 8 ≤ s.fld (aHBM_PC_DEPTH pc.val) fHBM_PC_DEPTH_POSTP) : exec (.refresh pc true) s =
    .next (s.setFld (aHBM_PC_DEPTH pc.val) fHBM_PC_DEPTH_POSTP 0).splitCounted :=
  if_neg (Nat.not_lt.mpr h)

theorem State.postp_set (s : State) (k : Nat) {v : Nat} (h : v ≤ 8) :
    (s.setFld (aHBM_PC_DEPTH k) fHBM_PC_DEPTH_POSTP v).fld (aHBM_PC_DEPTH k) fHBM_PC_DEPTH_POSTP = v :=
  (State.fld_setFld_self s _ _ v (by decide) (by decide)).trans (Nat.mod_eq_of_lt (by simp [Fld.width]; omega))

theorem State.postp_keepsRegs (s : State) (k v : Nat) :
    KeepsRegs [aHBM_PC_DEPTH k] s (s.setFld (aHBM_PC_DEPTH k) fHBM_PC_DEPTH_POSTP v) :=
  (KeepsRegs.refl [aHBM_PC_DEPTH k] s).setFld (a := aHBM_PC_DEPTH k) (by simp) _ v

end

/-! ## Training and rate (R348, R349) -/

/-- What a training begun leaves. -/
structure TrainingBegun (rate : BitVec 2) (s t : State) : Prop where
  training : t.bit aHBM_STAT fHBM_STAT_TRAINING = true
  trained : t.bit aHBM_STAT fHBM_STAT_TRAINED = false
  pending : t.bit aHBM_STAT fHBM_STAT_DEFPEND = s.bit aHBM_STAT fHBM_STAT_DEFPEND
  rate : t.hbm.rate = rate
  deferred : t.hbm.deferred = s.hbm.deferred
  regs : KeepsRegs [aHBM_STAT] s t
  memory : KeepsMemory s t

theorem State.trainAt_begins (s : State) (rate : BitVec 2) : TrainingBegun rate s (s.trainAt rate) where
  training := s.trainAt_training rate
  trained := State.bit_setBit_self (s.latch aHBM_STAT fHBM_STAT_TRAINING) aHBM_STAT fHBM_STAT_TRAINED false rfl (by decide)
  pending := (State.bit_setBit_beside (s.latch aHBM_STAT fHBM_STAT_TRAINING) aHBM_STAT fHBM_STAT_TRAINED fHBM_STAT_DEFPEND false
    (by decide) (by decide) (by decide)).trans (State.bit_latch_beside s aHBM_STAT fHBM_STAT_TRAINING fHBM_STAT_DEFPEND
    (by decide) (by decide) (by decide))
  rate := rfl
  deferred := rfl
  regs := (((KeepsRegs.refl [aHBM_STAT] s).latch (a := aHBM_STAT) (by simp) fHBM_STAT_TRAINING).setBit (a := aHBM_STAT) (by simp)
    fHBM_STAT_TRAINED false).trans fun _ _ => rfl
  memory := .of_does State.trainAt_does (by decide)

section
variable {by_ : Issuer} {rate : BitVec 2}

/-- What a refused change of the rate leaves. -/
theorem State.rejectVal_hbm (s : State) (by_ : Issuer) {a : Nat} (hadr : Adr a 12) (ha : a / 0x100000 = 12) : let t := s.rejectVal by_ a
    t.hbm = s.hbm ∧ (t.reg 0xC00008).getLsbD 2 = true ∧ (∃ i, Raises 5 i s t) ∧ KeepsRegs [0xC00008, 0xC0000C] s t ∧ KeepsMemory s t :=
  have ⟨hbit, hraise, hregs, hmem⟩ := s.rejectVal_shows by_ (b := 12) (by decide) ha
  ⟨(State.rejectVal_does hadr).same .hbm (by decide) (by decide), hbit, hraise, hregs, hmem⟩

theorem exec_rateReq_refused (h : s.rateRefused rate = true) : exec (.hbmRateReq by_ rate) s = .next (s.rejectVal by_ aHBM_RATE) := if_pos h

/-- The rate asked for, as HBM_RATE shows it. -/
def State.rateAsked (rate : BitVec 2) (s : State) : State := s.setFld aHBM_RATE fHBM_RATE_REQ rate.toNat

/-- A change of the rate that waits for the training that runs. -/
def State.rateDeferred (rate : BitVec 2) (s : State) : State :=
  ({ s.rateAsked rate with hbm := { (s.rateAsked rate).hbm with deferred := some rate } }.latch aHBM_LAT fHBM_LAT_DEFER).latch aHBM_STAT
    fHBM_STAT_DEFPEND

theorem exec_rateReq_deferred (h : s.rateRefused rate = false) (htr : s.bit aHBM_STAT fHBM_STAT_TRAINING = true) :
    exec (.hbmRateReq by_ rate) s = .next (s.rateDeferred rate) := (if_neg (by rw [h]; decide)).trans (if_pos htr)

theorem exec_rateReq_trains (h : s.rateRefused rate = false) (htr : ¬ s.bit aHBM_STAT fHBM_STAT_TRAINING = true) :
    exec (.hbmRateReq by_ rate) s = .next ((s.rateAsked rate).trainAt rate) := (if_neg (by rw [h]; decide)).trans (if_neg htr)

theorem State.rateAsked_shows (s : State) (rate : BitVec 2) : (s.rateAsked rate).fld aHBM_RATE fHBM_RATE_REQ = rate.toNat ∧
    KeepsRegs [aHBM_RATE] s (s.rateAsked rate) :=
  ⟨(State.fld_setFld_self s aHBM_RATE fHBM_RATE_REQ rate.toNat (by decide) (by decide)).trans
    (Nat.mod_eq_of_lt (by have := rate.isLt; simp [Fld.width]; omega)),
    (KeepsRegs.refl [aHBM_RATE] s).setFld (a := aHBM_RATE) (by simp) _ _⟩

/-- What a deferred change leaves. -/
structure RateDeferred (rate : BitVec 2) (s t : State) : Prop where
  deferred : t.hbm.deferred = some rate
  rate : t.hbm.rate = s.hbm.rate
  latched : t.bit aHBM_LAT fHBM_LAT_DEFER = true
  regs : KeepsRegs [aHBM_STAT, aHBM_RATE, aHBM_LAT] s t
  memory : KeepsMemory s t

theorem State.rateDeferred_defers (s : State) (rate : BitVec 2) : RateDeferred rate s (s.rateDeferred rate) := by
  unfold State.rateDeferred
  obtain ⟨-, hregs⟩ := s.rateAsked_shows rate
  have hhbm : (s.rateAsked rate).hbm = s.hbm := rfl
  have hmem : KeepsMemory s (s.rateAsked rate) := .of_fields rfl rfl rfl
  generalize s.rateAsked rate = a at *
  exact {
    deferred := rfl
    rate := (congrArg Hbm.rate hhbm :)
    latched := (State.bit_congr _ (State.reg_latch_ne _ _ (by decide))).trans (State.bit_latch_self _ aHBM_LAT fHBM_LAT_DEFER rfl (by decide))
    regs := ((((hregs.mono (by simp) : KeepsRegs [aHBM_STAT, aHBM_RATE, aHBM_LAT] s a).trans
      (u := { a with hbm := { a.hbm with deferred := some rate } }) (fun _ _ => rfl)).latch (a := aHBM_LAT) (by simp) _).latch
      (a := aHBM_STAT) (by simp) _)
    memory := hmem.trans (.of_fields rfl rfl rfl) }

theorem exec_retrain_refused (h : s.rateRefused (BitVec.ofNat 2 (s.fld aHBM_RATE fHBM_RATE_REQ)) = true) :
    exec (.retrain by_) s = .next (s.rejectVal by_ aHBM_CMD) := if_pos h

theorem exec_retrain_goesOn (h : s.rateRefused (BitVec.ofNat 2 (s.fld aHBM_RATE fHBM_RATE_REQ)) = false)
    (htr : s.bit aHBM_STAT fHBM_STAT_TRAINING = true) : exec (.retrain by_) s = .next s := (if_neg (by rw [h]; decide)).trans (if_pos htr)

theorem exec_retrain_trains (h : s.rateRefused (BitVec.ofNat 2 (s.fld aHBM_RATE fHBM_RATE_REQ)) = false)
    (htr : ¬ s.bit aHBM_STAT fHBM_STAT_TRAINING = true) :
    exec (.retrain by_) s = .next (s.trainAt (BitVec.ofNat 2 (s.fld aHBM_RATE fHBM_RATE_REQ))) :=
  (if_neg (by rw [h]; decide)).trans (if_neg htr)

end

/-! ## The end of a training -/

/-- A training that succeeded, as the registers show it. -/
def State.trainedShown (s : State) : State :=
  ((s.setBit aHBM_STAT fHBM_STAT_TRAINING false).latch aHBM_STAT fHBM_STAT_TRAINED).setFld aHBM_RATE fHBM_RATE_NOW s.hbm.rate.toNat

/-- A training that failed, as the registers show it. -/
def State.untrainedShown (s : State) : State :=
  ((s.setBit aHBM_STAT fHBM_STAT_TRAINING false).setBit aHBM_STAT fHBM_STAT_TRAINED false).latch aHBM_LAT fHBM_LAT_TRFAIL

/-- The end of a training before a deferred change. -/
def State.trainOver (good : Bool) (s : State) : State :=
  if good then s.trainedShown.causeOff 20 0 else (s.untrainedShown.causeOn 20 0).raise 20 islMemory

/-- A deferred change no longer waits. -/
def State.deferTaken (s : State) : State :=
  { s.setBit aHBM_STAT fHBM_STAT_DEFPEND false with hbm := { s.hbm with deferred := none } }

section
variable {good : Bool} {rate : BitVec 2}

theorem exec_trainDone_idle (h : ¬ s.bit aHBM_STAT fHBM_STAT_TRAINING = true) : exec (.hbmTrainDone good) s = .next s :=
  if_pos (Bool.eq_false_of_not_eq_true h)

theorem exec_trainDone_ends (h : s.bit aHBM_STAT fHBM_STAT_TRAINING = true) (hdef : s.hbm.deferred = none) :
    exec (.hbmTrainDone good) s = .next (s.trainOver good) := by
  refine (if_neg (by rw [h]; decide)).trans (congrArg _ ?_)
  rw [hdef]
  rfl

theorem exec_trainDone_again (h : s.bit aHBM_STAT fHBM_STAT_TRAINING = true) (hdef : s.hbm.deferred = some rate) :
    exec (.hbmTrainDone good) s = .next ((s.trainOver good).deferTaken.trainAt rate) := by
  refine (if_neg (by rw [h]; decide)).trans (congrArg _ ?_)
  rw [hdef]
  rfl

/-- What a successful training leaves. -/
structure Trained (s t : State) : Prop where
  training : t.bit aHBM_STAT fHBM_STAT_TRAINING = false
  trained : t.bit aHBM_STAT fHBM_STAT_TRAINED = true
  now : t.fld aHBM_RATE fHBM_RATE_NOW = s.hbm.rate.toNat
  cause : t.causeAt 20 0 = false
  agenda : t.agenda = s.agenda
  regs : KeepsRegs [aHBM_STAT, aHBM_RATE] s t
  memory : KeepsMemory s t

theorem State.trainOver_trained (s : State) : Trained s (s.trainOver true) := by
  change Trained s (s.trainedShown.causeOff 20 0)
  have hcause := State.causeAt_causeOff s.trainedShown 20 0
  exact {
    training := by
      refine (State.bit_congr (t := s.trainedShown) _ (State.reg_setReg_ne _ _ (by decide))).trans ?_
      refine (State.bit_latch_beside _ aHBM_STAT fHBM_STAT_TRAINED fHBM_STAT_TRAINING (by decide) (by decide) (by decide)).trans ?_
      exact State.bit_setBit_self s aHBM_STAT fHBM_STAT_TRAINING false rfl (by decide)
    trained := (State.bit_congr (t := s.trainedShown) _ (State.reg_setReg_ne _ _ (by decide))).trans
      (State.bit_latch_self (s.setBit aHBM_STAT fHBM_STAT_TRAINING false) aHBM_STAT fHBM_STAT_TRAINED rfl (by decide))
    now := (State.fld_setFld_self _ aHBM_RATE fHBM_RATE_NOW s.hbm.rate.toNat (by decide) (by decide)).trans
      (Nat.mod_eq_of_lt (by have := s.hbm.rate.isLt; simp [Fld.width]; omega))
    cause := hcause
    agenda := rfl
    regs := ((((KeepsRegs.refl [aHBM_STAT, aHBM_RATE] s).setBit (a := aHBM_STAT) (by simp) fHBM_STAT_TRAINING false).latch
      (a := aHBM_STAT) (by simp) fHBM_STAT_TRAINED).setFld (a := aHBM_RATE) (by simp) fHBM_RATE_NOW _).trans fun _ _ => rfl
    memory := .of_fields rfl rfl rfl }

/-- What a failed training leaves. -/
structure TrainingFailed (s t : State) : Prop where
  trained : t.bit aHBM_STAT fHBM_STAT_TRAINED = false
  latched : t.bit aHBM_LAT fHBM_LAT_TRFAIL = true
  raised : Raises 20 islMemory s t
  cause : t.causeStands 20 = true
  regs : KeepsRegs [aHBM_STAT, aHBM_LAT] s t
  memory : KeepsMemory s t

theorem State.trainOver_failed (s : State) : TrainingFailed s (s.trainOver false) := by
  change TrainingFailed s ((s.untrainedShown.causeOn 20 0).raise 20 islMemory)
  have htrained : s.untrainedShown.bit aHBM_STAT fHBM_STAT_TRAINED = false :=
    (State.bit_congr _ (State.reg_latch_ne _ _ (by decide))).trans (State.bit_setBit_self _ aHBM_STAT fHBM_STAT_TRAINED false rfl (by decide))
  have hlat : s.untrainedShown.bit aHBM_LAT fHBM_LAT_TRFAIL = true := State.bit_latch_self _ aHBM_LAT fHBM_LAT_TRFAIL rfl (by decide)
  have hregs : KeepsRegs [aHBM_STAT, aHBM_LAT] s s.untrainedShown :=
    (((KeepsRegs.refl [aHBM_STAT, aHBM_LAT] s).setBit (a := aHBM_STAT) (by simp) fHBM_STAT_TRAINING false).setBit (a := aHBM_STAT) (by simp)
      fHBM_STAT_TRAINED false).latch (a := aHBM_LAT) (by simp) fHBM_LAT_TRFAIL
  have hcount : s.untrainedShown.count = s.count := rfl
  have hmem : KeepsMemory s s.untrainedShown := .of_fields rfl rfl rfl
  generalize s.untrainedShown = a at *
  have hon : Does [.causes] [] a (a.causeOn 20 0) := State.causeOn_does
  have hregs' : KeepsRegs [] a (a.causeOn 20 0) := .of_does hon (by decide) _
  exact {
    trained := (State.bit_congr _ (hregs' _ (by simp))).trans htrained
    latched := (State.bit_congr _ (hregs' _ (by simp))).trans hlat
    raised := raises_of_count ((hon.same .count (by decide) (by decide)).trans hcount) 20 islMemory
    cause := a.causeOn_causeStands 20 0
    regs := hregs.trans ((hregs'.mono (by simp)).trans fun _ _ => rfl)
    memory := hmem.trans ((KeepsMemory.of_does hon (by decide)).trans (.of_fields rfl rfl rfl)) }

theorem State.trainOver_keepsMemory (s : State) (good : Bool) : KeepsMemory s (s.trainOver good) :=
  match good with
  | true => s.trainOver_trained.memory
  | false => s.trainOver_failed.memory

theorem State.deferTaken_takes (s : State) : s.deferTaken.bit aHBM_STAT fHBM_STAT_DEFPEND = false ∧ s.deferTaken.hbm.deferred = none ∧
    KeepsMemory s s.deferTaken :=
  ⟨State.bit_setBit_self s aHBM_STAT fHBM_STAT_DEFPEND false rfl (by decide), rfl, .of_fields rfl rfl rfl⟩

end

end Sys2Proof.Machine
end

section
/-! The memory system: the statement (O28; R336 to R351). -/
namespace Sys2Proof.Machine

variable {s t u : State} {r : HbmReq}

/-- What the completion of a real-time requester's erroneous request shows. -/
theorem ErrorShown.after {f : Fld} {cnt : Nat} {fs : Fin 128} {kept : List Nat} (hserved : HbmServed r s u) (herr : ErrorShown f cnt fs u t)
    (hcnt : cnt ∉ kept) (hkept : kept = [aHBM_LAT, aHBM_SPLITS, aHBM_REQ_LMAX r.requester, aHBM_PC_INORD r.pc]) :
    t.bit aHBM_LAT f = true ∧ Raises fs islMemory s t ∧ (t.reg cnt).toNat = min 0xFFFFFFFF ((s.reg cnt).toNat + 1) ∧
      KeepsRegs (cnt :: logRegs ++ kept) s t ∧ KeepsMemory s t := by
  subst hkept
  refine ⟨herr.latched, ?_, by rw [herr.counted, hserved.regs cnt hcnt], ?_, (KeepsMemory.of_does hserved.does (by decide)).trans herr.memory⟩
  · have hraise := herr.raised
    unfold Raises at hraise ⊢
    rwa [hserved.does.same .count (by decide) (by decide)] at hraise
  · exact (hserved.regs.mono (by simp)).trans (herr.regs.mono (by simp +contextual [or_imp]))

/-- An error of the scrubber, in the registers of any request. -/
theorem ErrorShown.widened {f : Fld} {cnt : Nat} {fs : Fin 128} (herr : ErrorShown f cnt fs s t) (kept : List Nat) (hkept : aHBM_LAT ∈ kept) :
    t.bit aHBM_LAT f = true ∧ Raises fs islMemory s t ∧ (t.reg cnt).toNat = min 0xFFFFFFFF ((s.reg cnt).toNat + 1) ∧
      KeepsRegs (cnt :: logRegs ++ kept) s t ∧ KeepsMemory s t := by
  refine ⟨herr.latched, herr.raised, herr.counted, herr.regs.mono ?_, herr.memory⟩
  simp +contextual [or_imp, hkept]

/-- ACQ or SEG enabled refuses every rate (R349). -/
theorem State.rateRefused_engines (h : s.blkOn 10 = true ∨ s.blkOn 7 = true) (rate : BitVec 2) : s.rateRefused rate = true := by
  unfold State.rateRefused
  obtain h | h := h
  all_goals simp [h]

theorem counters_not_kept (r : HbmReq) : aHBM_CECNT ∉ [aHBM_LAT, aHBM_SPLITS, aHBM_REQ_LMAX r.requester, aHBM_PC_INORD r.pc] ∧
    aHBM_UECNT ∉ [aHBM_LAT, aHBM_SPLITS, aHBM_REQ_LMAX r.requester, aHBM_PC_INORD r.pc] := by
  simp only [List.mem_cons, List.not_mem_nil, or_false, aHBM_CECNT, aHBM_UECNT, aHBM_LAT, aHBM_SPLITS, aHBM_REQ_LMAX, aHBM_PC_INORD]
  omega

/-- What a host read answered leaves. -/
structure ReadAnswered (o : Out) (s t : State) : Prop where
  reads : t.hbm.reads = []
  out : t.out = s.out ++ [o]
  regs : ∀ a, t.reg a = s.reg a
  memory : KeepsMemory s t
  agenda : t.agenda = s.agenda

theorem State.sendFrame_answers {p : Port} {vc : Nat} (hs : Sends p vc s) (o : Out) (h : s.hbm.reads = []) :
    ReadAnswered o s (s.sendFrame p.val vc o) := by
  have hdoes : Does [.out, .links] [] s (s.sendFrame p.val vc o) := State.sendFrame_does
  refine ⟨(congrArg Hbm.reads (hdoes.same .hbm (by decide) (by decide)) :).trans h, ?_, fun a => hdoes.regs (by decide) a (by simp),
    .of_does hdoes (by decide), hdoes.same .agenda (by decide) (by decide)⟩
  rw [State.sendFrame_of_sends hs, State.pushOn_out]

/-- The last line of a host read that is good is answered with its data. -/
theorem State.hostLine_data {rd : HbmRead} {line : Nat} (hs : Sends rd.port rd.vc.toNat s) (h : s.hbm.reads = [rd]) (hleft : rd.left = [line])
    (hstatus : rd.status = 0) : ReadAnswered (.rdr rd.port rd.vc rd.tag 0 rd.data) s (s.hostLine rd.port.val line false) := by
  rw [State.hostLine_last h hleft, State.hbmAnswer_data hstatus]
  have hover : Does [.hbm] [] s s.readsOver := Does.put_hbm (by decide) Does.refl
  obtain ⟨hreads, hout, hregs, hmem, hagenda⟩ := State.sendFrame_answers (s := s.readsOver) (hs.of_sameLine (.of_does hover (by decide)))
    (.rdr rd.port rd.vc rd.tag 0 rd.data) rfl
  exact ⟨hreads, hout, hregs, hmem, hagenda⟩

/-- An uncorrectable line of a host read is answered with UNCORRECTABLE, which sets ACC_REJECT in GLB (R47). -/
theorem State.hostLine_lost {rd : HbmRead} {line : Nat} (hs : Sends rd.port rd.vc.toNat s) (h : s.hbm.reads = [rd]) (hleft : rd.left = [line]) :
    let t := s.hostLine rd.port.val line true
    t.hbm.reads = [] ∧ t.out = s.out ++ [.rdr rd.port rd.vc rd.tag 7 []] ∧ (t.reg 8).getLsbD 3 = true ∧ t.agenda = s.agenda ∧ KeepsMemory s t := by
  intro t
  have hrej : Does [.hbm, .fresh] [0] s (s.readsOver.rejLatch .acc 0) :=
    (State.rejLatch_does adr_0).call (by decide) (Does.put_hbm (by decide) Does.refl)
  have hbit := s.readsOver.rejLatch_acc
  have hreads : (s.readsOver.rejLatch .acc 0).hbm.reads = [] := rfl
  have ht : t = (s.readsOver.rejLatch .acc 0).sendFrame rd.port.val rd.vc.toNat (.rdr rd.port rd.vc rd.tag 7 []) := by
    change s.hostLine rd.port.val line true = _
    rw [State.hostLine_last h hleft, State.hbmAnswer_bad]
  rw [ht]
  generalize s.readsOver.rejLatch .acc 0 = a at *
  obtain ⟨hreads', hout, hregs, hmem, hagenda⟩ := State.sendFrame_answers (hs.of_sameLine (.of_does hrej (by decide)))
    (.rdr rd.port rd.vc rd.tag 7 []) hreads
  exact ⟨hreads', hout.trans (by rw [hrej.same .out (by decide) (by decide)]), by rw [hregs]; exact hbit,
    hagenda.trans (hrej.same .agenda (by decide) (by decide)), (KeepsMemory.of_does hrej (by decide)).trans hmem⟩

/-- Settles O28: what a pseudo-channel serves next is `State.hbmPick_free`, what a request served leaves `State.hbmServe_serves`, what an
error shows `State.hbmErr_shows`, and a host read answered `State.hostLine_last`. -/
theorem memorySystem : Obligations.MemorySystem := by
  unfold Obligations.MemorySystem
  constructor
  case left =>
    intro req addr v r s line found queued joins x q next calm kept logs ce ue
    obtain ⟨hce, hue⟩ := counters_not_kept r
    have hnamed : queued → r.requester = req.val := fun h => (State.hbmFound_names h.2).1
    have hserved := s.hbmServe_serves r
    have hmemServed : KeepsMemory s (s.hbmServe r) := .of_does hserved.does (by decide)
    have hagenda : (s.hbmServe r).agenda = s.agenda := hserved.does.same .agenda (by decide) (by decide)
    refine ⟨fun h => ⟨s, exec_scrub_stopped h, rfl⟩, ⟨s, exec_scrub_clean s addr, rfl⟩,
      fun h => ⟨⟨_, exec_scrub_runs h, (s.hbmVerdict_shows_ce 9 addr.toNat).widened kept (by simp [kept])⟩,
        ⟨_, exec_scrub_runs h, (s.hbmVerdict_shows_ue 9 addr.toNat).widened kept (by simp [kept])⟩⟩,
      ⟨fun h => State.hbmPick_inOrder h, fun h hold => (State.hbmPick_free h).trans (pickAged_aged hold), fun h hyoung hwhole => ?free⟩,
      fun h => ⟨s, exec_requestDone_notReady h, rfl⟩, fun h hnot => ⟨s, exec_requestDone_waits h.1 h.2 hnot, rfl⟩,
      fun h hnone hj => ⟨s, exec_requestDone_absent h hnone hj, rfl⟩, fun h hnext hcalm hlt => ?clean,
      fun h hnext hcalm hlt => ⟨?corrected, ?uncorrectable⟩, fun hj hq hon hready hreg hcalm => ?joined,
      fun rd h hnext hcalm hport hread hreads hleft hstatus hgo hwait => ⟨?data, ?lost⟩⟩
    case free =>
      have hnone : q.find? (fun z => decide (s.fld aHBM_CFG fHBM_CFG_AGEMAX ≤ z.passed)) = none :=
        List.find?_eq_none.mpr fun z hz => by simpa using hyoung z hz
      have hpick := State.hbmPick_free h
      rw [hwhole] at hpick
      exact ⟨fun hhit => hpick.trans (pickAged_hit hnone hhit), fun hhit => hpick.trans (pickAged_oldest hnone hhit)⟩
    case clean =>
      have hreq := hnamed h
      have hlt' : r.requester < 3 := by omega
      refine ⟨_, exec_requestDone_completes h.1 h.2 hnext hcalm, ?_⟩
      rw [State.hbmDone_own hlt', State.hbmVerdict_none]
      rw [← hreq]
      exact ⟨hserved.queue, hserved.served, hserved.latency, hserved.hit, hserved.closed hlt', hserved.opened hlt', hserved.split, hagenda,
        hserved.regs, hmemServed⟩
    case corrected =>
      have hlt' : r.requester < 3 := by have := hnamed h; omega
      refine ⟨_, exec_requestDone_completes h.1 h.2 hnext hcalm, ?_⟩
      rw [State.hbmDone_own hlt']
      exact ErrorShown.after hserved (State.hbmVerdict_shows_ce _ _ _) hce rfl
    case uncorrectable =>
      have hlt' : r.requester < 3 := by have := hnamed h; omega
      refine ⟨_, exec_requestDone_completes h.1 h.2 hnext hcalm, ?_⟩
      rw [State.hbmDone_own hlt']
      exact ErrorShown.after hserved (State.hbmVerdict_shows_ue _ _ _) hue rfl
    case joined =>
      obtain ⟨r', hjoined⟩ := State.hbmJoin_alone (req := req.val) (line := line) hj hq hon hreg
      refine ⟨_, exec_requestDone_joins hready hjoined (hcalm ⟨r'.pc, hjoined.place⟩), ?_⟩
      rw [State.hbmDone_clean (by rw [hjoined.requester]; unfold joins at hj; omega)]
      obtain ⟨hqueue, hrequester, -, -, -, -, -, hdoes⟩ := hjoined
      generalize s.hbmJoin req.val line = a at *
      have hserved' := a.hbmServe_serves r'
      have hall : Does [.fresh, .hbm] [12] s (a.hbmServe r') := hserved'.does.call (by decide) hdoes
      refine ⟨?_, ?_, hall.same .agenda (by decide) (by decide), .of_does hall (by decide)⟩
      · rw [hserved'.queue, hqueue]
        simp [passOver]
      · rw [hserved'.served, hrequester, hdoes.same .count (by decide) (by decide)]
    case data =>
      have hreq : r.requester = 6 + rd.port.val := (hnamed h).trans hport
      have hline : r.line = line := (State.hbmFound_names h.2).2.1
      refine ⟨_, exec_requestDone_completes h.1 h.2 hnext hcalm, ?_⟩
      rw [State.hbmDone_host hreq hread, State.hbmVerdict_none, hline]
      have hanswered := State.hostLine_data (s := s.hbmServe r) ((Sends.of_mayGo hgo hwait).of_sameLine (.of_does hserved.does (by decide)))
        (hserved.reads.trans hreads) hleft hstatus
      exact ⟨hanswered.reads, hanswered.out.trans (by rw [hserved.does.same .out (by decide) (by decide)]),
        hserved.regs.trans (fun x _ => hanswered.regs x), hmemServed.trans hanswered.memory⟩
    case lost =>
      have hreq : r.requester = 6 + rd.port.val := (hnamed h).trans hport
      have hline : r.line = line := (State.hbmFound_names h.2).2.1
      refine ⟨_, exec_requestDone_completes h.1 h.2 hnext hcalm, ?_⟩
      rw [State.hbmDone_host hreq hread, hline]
      have hshown := (s.hbmServe r).hbmVerdict_shows_ue r.requester (64 * line)
      have hreads' := (s.hbmServe r).hbmVerdict_reads_ue r.requester (64 * line)
      have hall : Does [.agenda, .free, .fresh, .hbm, .mgt] [12, 16] s ((s.hbmServe r).hbmVerdict r.requester (64 * line) 2) :=
        State.hbmVerdict_does.call (by decide) (hserved.does.mono (by decide))
      generalize (s.hbmServe r).hbmVerdict r.requester (64 * line) 2 = a at *
      obtain ⟨hend, hout, hbit, hagenda', hmem⟩ := State.hostLine_lost (s := a) ((Sends.of_mayGo hgo hwait).of_sameLine (.of_does hall (by decide)))
        (hreads'.trans (hserved.reads.trans hreads)) hleft
      refine ⟨hend, hout.trans (by rw [hall.same .out (by decide) (by decide)]), hbit, ?_, (KeepsMemory.of_does hall (by decide)).trans hmem⟩
      have hraise := hshown.raised
      unfold Raises at hraise ⊢
      rw [hserved.does.same .count (by decide) (by decide)] at hraise
      exact hagenda' ▸ hraise
  case right =>
    intro by_ pc rate s owed now refused training
    refine ⟨⟨_, exec_refresh_idle, s.postp_set pc.val (by decide), s.postp_keepsRegs pc.val 0, .of_fields rfl rfl rfl⟩,
      fun h => ⟨_, exec_refresh_owed h, s.postp_set pc.val h, s.postp_keepsRegs pc.val _, .of_fields rfl rfl rfl⟩, fun h => ?ninth,
      fun h => ⟨State.rateRefused_engines h rate, State.rateRefused_engines h now⟩,
      fun h => ⟨_, exec_rateReq_refused h, s.rejectVal_hbm by_ adr_HBM_RATE (by decide)⟩,
      fun h => ⟨_, exec_retrain_refused h, s.rejectVal_hbm by_ adr_HBM_CMD (by decide)⟩, fun h htr => ?trains, fun h htr => ?deferred,
      fun h htr => ?retrained, fun h htr => ⟨s, exec_retrain_goesOn h htr, rfl⟩, fun htr hdef => ?passed, fun htr hdef => ?failed,
      fun good htr hdef => ?again, fun good htr => ⟨s, exec_trainDone_idle htr, rfl⟩⟩
    case ninth =>
      refine ⟨_, exec_refresh_ninth h, ?_⟩
      have hset := s.postp_set pc.val (v := 0) (by decide)
      have hkeep := s.postp_keepsRegs pc.val 0
      have hmem : KeepsMemory s (s.setFld (aHBM_PC_DEPTH pc.val) fHBM_PC_DEPTH_POSTP 0) := .of_fields rfl rfl rfl
      generalize s.setFld (aHBM_PC_DEPTH pc.val) fHBM_PC_DEPTH_POSTP 0 = a at *
      obtain ⟨hregs, hlat, hcount, hdoes⟩ := a.splitCounted_shows
      have hdepth : aHBM_PC_DEPTH pc.val ∉ [aHBM_LAT, aHBM_SPLITS] := by simp [aHBM_PC_DEPTH, aHBM_LAT, aHBM_SPLITS]; omega
      have hsplits : aHBM_SPLITS ∉ [aHBM_PC_DEPTH pc.val] := by simp [aHBM_PC_DEPTH, aHBM_SPLITS]; omega
      exact ⟨(State.fld_congr _ (hregs _ hdepth)).trans hset, hlat, by rw [hcount, hkeep _ hsplits],
        (hkeep.mono (by simp)).trans (hregs.mono (by simp)), hmem.trans (.of_does hdoes (by decide))⟩
    case trains =>
      have hasked := s.rateAsked_shows rate
      have hmem : KeepsMemory s (s.rateAsked rate) := .of_fields rfl rfl rfl
      have hbegun := (s.rateAsked rate).trainAt_begins rate
      exact ⟨_, exec_rateReq_trains h htr, hbegun.training, hbegun.trained, hbegun.rate,
        (State.fld_congr _ (hbegun.regs aHBM_RATE (by decide))).trans hasked.1, (hasked.2.mono (by simp)).trans (hbegun.regs.mono (by simp)),
        hmem.trans hbegun.memory⟩
    case deferred =>
      have hdefers := s.rateDeferred_defers rate
      exact ⟨_, exec_rateReq_deferred h htr, hdefers.deferred, hdefers.rate, hdefers.latched, hdefers.regs, hdefers.memory⟩
    case retrained =>
      have hbegun := s.trainAt_begins now
      exact ⟨_, exec_retrain_trains h htr, hbegun.training, hbegun.trained, hbegun.rate, hbegun.regs, hbegun.memory⟩
    case passed =>
      have h := s.trainOver_trained
      exact ⟨_, exec_trainDone_ends htr hdef, h.training, h.trained, h.now, h.cause, h.agenda, h.regs, h.memory⟩
    case failed =>
      have h := s.trainOver_failed
      exact ⟨_, exec_trainDone_ends htr hdef, h.trained, h.latched, h.raised, h.cause, h.regs, h.memory⟩
    case again =>
      refine ⟨_, exec_trainDone_again htr hdef, ?_⟩
      have hover := s.trainOver_keepsMemory good
      generalize s.trainOver good = a at *
      obtain ⟨hpend, hdeferred, hmem⟩ := a.deferTaken_takes
      generalize a.deferTaken = b at *
      have hbegun := b.trainAt_begins rate
      exact ⟨hbegun.training, hbegun.pending.trans hpend, hbegun.deferred.trans hdeferred, hbegun.rate, hover.trans (hmem.trans hbegun.memory)⟩

end Sys2Proof.Machine
end

section
/-! A point past the width of CALQ_STAT.POINT (O29): a state in which a sequence of five points measures its fourth. -/
namespace Sys2Proof.Machine

variable {s : State}

/-- A field holds what its width holds. -/
theorem State.fld_lt (s : State) (a : Nat) (f : Fld) : s.fld a f < 2 ^ f.width := Nat.mod_lt _ (Nat.two_pow_pos _)

/-- A sequencer in POINTS at its fourth point, of five where CALQ_CMD.NPM1 names four at most; the point has one result and ends now. -/
def State.fivePoints : State where
  regs := [(aCALQ_STAT 0, 0x40300000)]
  cals := [(0, { npts := 5, n := 1 })]

theorem State.fivePoints_shows : State.fivePoints.seqPhase 0 = 4 ∧ State.fivePoints.phaseEnds 0 = true ∧
    State.fivePoints.fld (aCALQ_STAT 0) fCALQ_STAT_POINT = 3 ∧ (State.fivePoints.seqn 0).mirrored = false ∧
    (State.fivePoints.seqn 0).n ≠ 0 ∧ (State.fivePoints.seqn 0).npts = 5 := by decide +kernel

/-- Refutes O29: it says of every state that POINT counts on while fewer than NPTS points are measured, also where a sequence holds
more points than CALQ_CMD.NPM1 can name. In `State.fivePoints` POINT would have to show 4, and its field has 2 bits. -/
theorem not_calibrationSequences : ¬ Obligations.CalibrationSequences := by
  unfold Obligations.CalibrationSequences
  intro h
  obtain ⟨-, -, -, -, -, -, -, -, hpoint, -⟩ := h.2 0 0 State.fivePoints
  obtain ⟨hphase, hends, hpt, hmirrored, hn, hnpts⟩ := State.fivePoints_shows
  obtain ⟨t, -, -, -, hshown, -⟩ := hpoint ⟨hends, hphase⟩ hmirrored hn
  have hfour : t.fld (aCALQ_STAT 0) fCALQ_STAT_POINT = 3 + 1 := 
    (hshown (show State.fivePoints.fld (aCALQ_STAT 0) fCALQ_STAT_POINT + 1 < (State.fivePoints.seqn 0).npts by rw [hpt, hnpts]; decide)
      (show State.fivePoints.fld (aCALQ_STAT 0) fCALQ_STAT_POINT < 15 by rw [hpt]; decide)).trans (congrArg (· + 1) hpt)
  have hwidth : t.fld (aCALQ_STAT 0) fCALQ_STAT_POINT < 4 := t.fld_lt (aCALQ_STAT 0) fCALQ_STAT_POINT
  omega

end Sys2Proof.Machine
end

section
/-! The fit of a calibration sequence and its commit (O30; R362, R363). -/
namespace Sys2Proof.Machine

variable {s t u : State}

/-! ## A set in its registers -/

/-- A set written to four quantities of two words each, one after the other. -/
def State.coefWritten (a : Nat) (c : Coef) (s : State) : State :=
  (((s.setWide a 2 c.f0.toNat).setWide (a + 8) 2 c.c0.toNat).setWide (a + 16) 2 c.c1.toNat).setWide (a + 24) 2 c.c2.toNat

/-- The registers of such a set. -/
def coefRegs (a : Nat) : List Nat := [a, a + 4, a + 8, a + 12, a + 16, a + 20, a + 24, a + 28]

/-- What a set written leaves. -/
structure CoefWritten (a : Nat) (c : Coef) (s t : State) : Prop where
  f0 : t.wide a 2 = c.f0.toNat
  c0 : t.wide (a + 8) 2 = c.c0.toNat
  c1 : t.wide (a + 16) 2 = c.c1.toNat
  c2 : t.wide (a + 24) 2 = c.c2.toNat
  regs : KeepsRegs (coefRegs a) s t

theorem State.wide_setWide_of_lt (s : State) (a : Nat) {v w : Nat} (h : v < 2 ^ w) (hw : w ≤ 64) : (s.setWide a 2 v).wide a 2 = v :=
  State.wide_setWide_self s a 2 (h.trans_le (Nat.pow_le_pow_right (by decide) hw))

theorem State.wide_setWide_beyond (s : State) {a b v : Nat} (h : a + 8 ≤ b ∨ b + 8 ≤ a) : (s.setWide b 2 v).wide a 2 = s.wide a 2 :=
  State.wide_of_keepsRegs (s.setWide_two_keepsRegs b v) (by simp; omega) (by simp; omega)

theorem State.coefWritten_shows (s : State) (a : Nat) (c : Coef) : CoefWritten a c s (s.coefWritten a c) where
  f0 := by
    unfold State.coefWritten
    rw [State.wide_setWide_beyond _ (by omega), State.wide_setWide_beyond _ (by omega), State.wide_setWide_beyond _ (by omega),
      State.wide_setWide_of_lt _ _ c.f0.isLt (by decide)]
  c0 := by
    unfold State.coefWritten
    rw [State.wide_setWide_beyond _ (by omega), State.wide_setWide_beyond _ (by omega), State.wide_setWide_of_lt _ _ c.c0.isLt (by decide)]
  c1 := by
    unfold State.coefWritten
    rw [State.wide_setWide_beyond _ (by omega), State.wide_setWide_of_lt _ _ c.c1.isLt (by decide)]
  c2 := State.wide_setWide_of_lt _ _ c.c2.isLt (by decide)
  regs := ((((KeepsRegs.refl (coefRegs a) s).setWide_two (a := a) (by simp [coefRegs]) (by simp [coefRegs]) _).setWide_two (a := a + 8)
    (by simp [coefRegs]) (by simp [coefRegs]) _).setWide_two (a := a + 16) (by simp [coefRegs]) (by simp [coefRegs]) _).setWide_two
    (a := a + 24) (by simp [coefRegs]) (by simp [coefRegs]) _

theorem CoefWritten.kept {a : Nat} {c : Coef} (h : CoefWritten a c s t) {as : List Nat} (g : KeepsRegs as t u)
    (hout : ∀ x ∈ coefRegs a, x ∉ as) : u.wide a 2 = c.f0.toNat ∧ u.wide (a + 8) 2 = c.c0.toNat ∧ u.wide (a + 16) 2 = c.c1.toNat ∧
      u.wide (a + 24) 2 = c.c2.toNat := by
  simp only [coefRegs, List.forall_mem_cons, List.not_mem_nil, false_imp_iff, implies_true, and_true] at hout
  obtain ⟨h0, h4, h8, h12, h16, h20, h24, h28⟩ := hout
  exact ⟨(State.wide_of_keepsRegs g h0 h4).trans h.f0, (State.wide_of_keepsRegs g h8 h12).trans h.c0,
    (State.wide_of_keepsRegs g h16 h20).trans h.c1, (State.wide_of_keepsRegs g h24 h28).trans h.c2⟩

/-- A sequencer's result registers stand one after the other (R367). -/
theorem calqRegs_eq (q : Nat) : aCALQ_C0 q = aCALQ_F0 q + 8 ∧ aCALQ_C1 q = aCALQ_F0 q + 16 ∧ aCALQ_C2 q = aCALQ_F0 q + 24 := by
  simp only [aCALQ_C0, aCALQ_C1, aCALQ_C2, aCALQ_F0]; omega

/-- So do a unit's target registers (R137). -/
theorem targetRegs_eq (n u : Nat) : aMU_C0 n u = aMU_F0 n u + 8 ∧ aMU_C1 n u = aMU_F0 n u + 16 ∧ aMU_C2 n u = aMU_F0 n u + 24 := by
  simp only [aMU_C0, aMU_C1, aMU_C2, aMU_F0]; omega

theorem State.setTarget_eq (s : State) (n u : Nat) (c : Coef) : s.setTarget n u c = s.coefWritten (aMU_F0 n u) c := by
  obtain ⟨h0, h1, h2⟩ := targetRegs_eq n u
  unfold State.setTarget State.coefWritten
  rw [h0, h1, h2]

/-! ## A sequence's phase -/

/-- The phase and the cause of a sequencer written, before a check of the reference that waits for it. -/
def State.phaseWritten (q phase cause : Nat) (s : State) : State :=
  s.setReg (aCALQ_STAT q) (putF (putF (s.reg (aCALQ_STAT q)) fCALQ_STAT_PHASE phase) fCALQ_STAT_CAUSE cause)

theorem State.setPhase_eq (s : State) (q phase cause : Nat) : s.setPhase q phase cause = (s.phaseWritten q phase cause).refStart := rfl

/-- What a phase shown leaves. -/
structure PhaseShown (q phase cause : Nat) (s t : State) : Prop where
  phase : t.seqPhase q = phase % 16
  cause : t.fld (aCALQ_STAT q) fCALQ_STAT_CAUSE = cause % 16
  regs : KeepsRegs [aCALQ_STAT q] s t
  does : Does [.calRec] [15] s t

theorem State.setPhase_shows (s : State) (q phase cause : Nat) : PhaseShown q phase cause s (s.setPhase q phase cause) := by
  rw [State.setPhase_eq]
  have hreg : (s.phaseWritten q phase cause).reg (aCALQ_STAT q) =
      putF (putF (s.reg (aCALQ_STAT q)) fCALQ_STAT_PHASE phase) fCALQ_STAT_CAUSE cause := State.reg_setReg_self _ _ _
  have hregs : KeepsRegs [aCALQ_STAT q] s (s.phaseWritten q phase cause) := (KeepsRegs.refl _ s).setReg (by simp) _
  have hdoes : Does [.calRec] [15] s (s.phaseWritten q phase cause) := Does.setReg adr_CALQ_STAT (by decide) Does.refl
  generalize s.phaseWritten q phase cause = a at *
  have hstart : KeepsRegs [] a a.refStart := .of_does State.refStart_does (by decide) _
  exact {
    phase := by
      unfold State.seqPhase
      rw [State.fld_congr _ (hstart _ (by simp))]
      unfold State.fld
      rw [hreg, getF_putF_ne _ _ _ _ (by decide) (by decide) (by decide), getF_putF_self _ _ _ (by decide) (by decide)]
      rfl
    cause := by
      rw [State.fld_congr _ (hstart _ (by simp))]
      unfold State.fld
      rw [hreg, getF_putF_self _ _ _ (by decide) (by decide)]
      rfl
    regs := hregs.trans (hstart.mono (by simp))
    does := State.refStart_does.call (by decide) hdoes }

/-! ## CAL_FIT_DONE -/

/-- A fit as CALQ_F0 to CALQ_RESID show it (R362). -/
def State.fitShown (q : Nat) (c : Coef) (resid : Nat) (s : State) : State :=
  ((((s.setWide (aCALQ_F0 q) 2 c.f0.toNat).setWide (aCALQ_C0 q) 2 c.c0.toNat).setWide (aCALQ_C1 q) 2 c.c1.toNat).setWide (aCALQ_C2 q) 2
    c.c2.toNat).setReg (aCALQ_RESID q) (BitVec.ofNat 32 (min 0xFFFFFFFF resid))

theorem State.fitShown_eq (s : State) (q : Nat) (c : Coef) (resid : Nat) :
    s.fitShown q c resid = (s.coefWritten (aCALQ_F0 q) c).setReg (aCALQ_RESID q) (BitVec.ofNat 32 (min 0xFFFFFFFF resid)) := by
  obtain ⟨h0, h1, h2⟩ := calqRegs_eq q
  unfold State.fitShown State.coefWritten
  rw [h0, h1, h2]

theorem State.fitShown_does {q resid : Nat} {c : Coef} : Does [] [15] s (s.fitShown q c resid) := by
  unfold State.fitShown
  exact .setReg adr_CALQ_RESID (by decide) (.setWide adr_CALQ_C2 (by decide) (.setWide adr_CALQ_C1 (by decide)
    (.setWide adr_CALQ_C0 (by decide) (.setWide adr_CALQ_F0 (by decide) .refl))))

/-- The full scale that the residuals of a path are judged by. -/
def State.fitScale (s : State) (k : Nat) : Nat := if (s.seqn k).path % 2 = 0 then s.fld aCAL_FSV ⟨31, 0⟩ else s.fld aCAL_FSI ⟨31, 0⟩

/-- No residual of a set is above RESMAX (R362). -/
def State.fitSmall (s : State) (k : Nat) (c : Coef) : Bool :=
  fitGood c (s.fitPoints k).1 (s.fitPoints k).2 (s.fld aCAL_RESMAX fCAL_RESMAX_RESMAX) (s.fitScale k)

section
variable {q : Fin 4} {c : Coef}

theorem exec_calFitDone_idle (h : s.seqPhase q.val ≠ 7) : exec (.calFitDone q) s = .next s := if_pos h

theorem exec_calFitDone_fits (h : s.seqPhase q.val = 7)
    (hfit : fitCoefs (s.mu (s.seqIsl q.val) ((s.seqUnit q.val).getD 0)).base.f0 (s.fitPoints q.val).1 (s.fitPoints q.val).2 = some c) :
    exec (.calFitDone q) s =
      if s.fitSmall q.val c then
        .next ((s.fitShown q.val c (fitResid c (s.fitPoints q.val).1 (s.fitPoints q.val).2)).setPhase q.val 8 0)
      else .next ((((s.fitShown q.val c (fitResid c (s.fitPoints q.val).1 (s.fitPoints q.val).2)).setPhase q.val 9 9).latch aCAL_LAT
        fCAL_LAT_FITFAIL).raise 42 (Fin.ofNat 80 (s.seqIsl q.val))) := by
  refine (if_neg (by rw [h]; decide)).trans ?_
  rw [hfit]
  rfl

end

/-- What the fit shown leaves. -/
structure FitShown (k : Nat) (c : Coef) (resid : Nat) (s t : State) : Prop where
  f0 : t.wide (aCALQ_F0 k) 2 = c.f0.toNat
  c0 : t.wide (aCALQ_C0 k) 2 = c.c0.toNat
  c1 : t.wide (aCALQ_C1 k) 2 = c.c1.toNat
  c2 : t.wide (aCALQ_C2 k) 2 = c.c2.toNat
  resid : (t.reg (aCALQ_RESID k)).toNat = min 0xFFFFFFFF resid
  cals : t.cals = s.cals
  memory : KeepsMemory s t
  count : t.count = s.count
  agenda : t.agenda = s.agenda

theorem State.fitShown_shows (s : State) (k : Nat) (c : Coef) (resid : Nat) : FitShown k c resid s (s.fitShown k c resid) := by
  have hdoes : Does [] [15] s (s.fitShown k c resid) := State.fitShown_does
  have hlt : min 0xFFFFFFFF resid < 2 ^ 32 := by omega
  have hcoef := s.coefWritten_shows (aCALQ_F0 k) c
  obtain ⟨h0, h1, h2⟩ := calqRegs_eq k
  have hreg : KeepsRegs [aCALQ_RESID k] (s.coefWritten (aCALQ_F0 k) c) (s.fitShown k c resid) := by
    rw [State.fitShown_eq]
    exact (KeepsRegs.refl _ _).setReg (by simp) _
  obtain ⟨hf0, hc0, hc1, hc2⟩ := hcoef.kept hreg (by simp [coefRegs, aCALQ_RESID, aCALQ_F0]; omega)
  have hresid : ((s.fitShown k c resid).reg (aCALQ_RESID k)).toNat = min 0xFFFFFFFF resid := by
    rw [State.fitShown_eq, State.reg_setReg_self, BitVec.toNat_ofNat, Nat.mod_eq_of_lt hlt]
  exact ⟨hf0, by rw [h0]; exact hc0, by rw [h1]; exact hc1, by rw [h2]; exact hc2, hresid, hdoes.same .cals (by decide) (by decide),
    .of_does hdoes (by decide), hdoes.same .count (by decide) (by decide), hdoes.same .agenda (by decide) (by decide)⟩

/-- A change of CALQ_STAT and of CAL_LAT leaves a fit shown. -/
theorem FitShown.kept {k resid : Nat} {c : Coef} {ps : List Part} (h : FitShown k c resid s t) (hregs : KeepsRegs [aCALQ_STAT k, aCAL_LAT] t u)
    (hdoes : Does ps [15] t u) (hps : .cals ∉ ps ∧ .sram ∉ ps ∧ .hbmMem ∉ ps ∧ .spill ∉ ps) :
    u.wide (aCALQ_F0 k) 2 = c.f0.toNat ∧ u.wide (aCALQ_C0 k) 2 = c.c0.toNat ∧ u.wide (aCALQ_C1 k) 2 = c.c1.toNat ∧
      u.wide (aCALQ_C2 k) 2 = c.c2.toNat ∧ (u.reg (aCALQ_RESID k)).toNat = min 0xFFFFFFFF resid ∧ u.cals = s.cals ∧ KeepsMemory s u := by
  have hwide : ∀ a, a ∈ [aCALQ_F0 k, aCALQ_C0 k, aCALQ_C1 k, aCALQ_C2 k] → u.wide a 2 = t.wide a 2 := fun a ha => by
    have hout : a ∉ [aCALQ_STAT k, aCAL_LAT] ∧ a + 4 ∉ [aCALQ_STAT k, aCAL_LAT] := by
      simp only [List.mem_cons, List.not_mem_nil, or_false, aCALQ_F0, aCALQ_C0, aCALQ_C1, aCALQ_C2, aCALQ_STAT, aCAL_LAT] at ha ⊢
      omega
    exact State.wide_of_keepsRegs hregs hout.1 hout.2
  have hres : aCALQ_RESID k ∉ [aCALQ_STAT k, aCAL_LAT] := by simp [aCALQ_RESID, aCALQ_STAT, aCAL_LAT]; omega
  exact ⟨(hwide _ (by simp)).trans h.f0, (hwide _ (by simp)).trans h.c0, (hwide _ (by simp)).trans h.c1, (hwide _ (by simp)).trans h.c2,
    by rw [hregs _ hres, h.resid], (hdoes.same .cals hps.1 (by decide)).trans h.cals, h.memory.trans (.of_does hdoes hps.2)⟩

/-- What a failed fit leaves in the sequencer. -/
structure FitFailed (k : Nat) (isl : Fin 80) (s t : State) : Prop where
  phase : t.seqPhase k = 9
  cause : t.fld (aCALQ_STAT k) fCALQ_STAT_CAUSE = 9
  latched : t.bit aCAL_LAT fCAL_LAT_FITFAIL = true
  raised : Raises 42 isl s t
  regs : KeepsRegs [aCALQ_STAT k, aCAL_LAT] s t
  does : Does [.calRec, .fresh, .agenda] [15] s t

theorem State.fitFails (s : State) (k : Nat) (isl : Fin 80) :
    FitFailed k isl s (((s.setPhase k 9 9).latch aCAL_LAT fCAL_LAT_FITFAIL).raise 42 isl) := by
  obtain ⟨hphase, hcause, hregs, hdoes⟩ := s.setPhase_shows k 9 9
  generalize s.setPhase k 9 9 = a at *
  have hne : aCALQ_STAT k ≠ aCAL_LAT := by simp only [aCALQ_STAT, aCAL_LAT]; omega
  have hstat : (a.latch aCAL_LAT fCAL_LAT_FITFAIL).reg (aCALQ_STAT k) = a.reg (aCALQ_STAT k) := State.reg_latch_ne _ _ hne
  have hlat := State.bit_latch_self a aCAL_LAT fCAL_LAT_FITFAIL rfl (by decide)
  have hregs' : KeepsRegs [aCALQ_STAT k, aCAL_LAT] s (a.latch aCAL_LAT fCAL_LAT_FITFAIL) :=
    (hregs.mono (by simp)).latch (a := aCAL_LAT) (by simp) _
  have hall : Does [.calRec, .fresh] [15] s (a.latch aCAL_LAT fCAL_LAT_FITFAIL) := .latch adr_CAL_LAT (by decide) (hdoes.mono (by decide))
  generalize a.latch aCAL_LAT fCAL_LAT_FITFAIL = b at *
  exact ⟨(State.fld_congr _ hstat).trans hphase, (State.fld_congr _ hstat).trans hcause, hlat,
    raises_of_count (hall.same .count (by decide) (by decide)) 42 isl, hregs'.trans fun _ _ => rfl,
    State.raise_does.call (by decide) (hall.mono (by decide))⟩

/-! ## CAL_COMMIT -/

/-- The set of CALQ_F0 to CALQ_C2. -/
def State.fittedSet (s : State) (k : Nat) : Coef where
  f0 := BitVec.ofNat 56 (s.wide (aCALQ_F0 k) 2)
  c0 := BitVec.ofNat 48 (s.wide (aCALQ_C0 k) 2)
  c1 := BitVec.ofNat 48 (s.wide (aCALQ_C1 k) 2)
  c2 := BitVec.ofNat 48 (s.wide (aCALQ_C2 k) 2)

/-- The entry that a commit forms. -/
def State.committedEntry (s : State) (k : Nat) : Nat × CalEntry :=
  (s.seqKey k, { coef := s.fittedSet k, rsh := if (s.seqn k).path % 2 = 1 then s.reg (aCALQ_RSH k) else 0 })

/-- A commit's entry waits for its signature (R363). -/
def State.entryFormed (k : Nat) (s : State) : State :=
  { s.setFld aCAL_CMD fCAL_CMD_SEQR k with calRec := { s.calRec with forming := s.calRec.forming ++ [s.committedEntry k] } }.askSig .cal

section
variable {by_ : Issuer} {q : Fin 4} {v : Nat}

theorem exec_calCommit_refused (h : s.seqPhase q.val ≠ 8) : exec (.calCommit by_ q) s = .next (s.rejectVal by_ aCAL_CMD) := if_pos h

theorem exec_calCommit_commits (h : s.seqPhase q.val = 8) (hu : s.seqUnit q.val = some v) : exec (.calCommit by_ q) s =
    .next (((s.entryFormed q.val).setTarget (s.seqIsl q.val) v (s.fittedSet q.val)).muApply (s.seqIsl q.val) v (s.fittedSet q.val)) := by
  refine (if_neg (by rw [h]; decide)).trans ?_
  rw [hu]
  rfl

/-- What the entry formed leaves. -/
structure EntryFormed (k : Nat) (s t : State) : Prop where
  forming : t.calRec.forming = s.calRec.forming ++ [s.committedEntry k]
  force : t.calRec.force = s.calRec.force
  asked : SigReq.cal ∈ t.sec.requests.map Prod.snd
  instant : t.at = s.at
  memory : KeepsMemory s t

theorem State.entryFormed_forms (s : State) (k : Nat) : EntryFormed k s (s.entryFormed k) where
  forming := rfl
  force := rfl
  asked := List.mem_map.mpr ⟨_, mem_placeSig_self s.count .cal s.sec.requests, rfl⟩
  instant := rfl
  memory := .of_fields rfl rfl rfl

/-- What a commit leaves. -/
structure Committed (k n v : Nat) (c : Coef) (s t : State) : Prop where
  f0 : t.wide (aMU_F0 n v) 2 = c.f0.toNat
  c0 : t.wide (aMU_C0 n v) 2 = c.c0.toNat
  c1 : t.wide (aMU_C1 n v) 2 = c.c1.toNat
  c2 : t.wide (aMU_C2 n v) 2 = c.c2.toNat
  apply : (t.mu n v).apply = some (s.at, c)
  forming : t.calRec.forming = s.calRec.forming ++ [s.committedEntry k]
  asked : SigReq.cal ∈ t.sec.requests.map Prod.snd
  force : t.calRec.force = s.calRec.force
  memory : KeepsMemory s t

theorem State.commits (s : State) (k n v : Nat) (c : Coef) : Committed k n v c s (((s.entryFormed k).setTarget n v c).muApply n v c) := by
  obtain ⟨hforming, hforce, hasked, hat, hmem⟩ := s.entryFormed_forms k
  generalize s.entryFormed k = a at *
  have hdoes : Does [] [64] a (a.setTarget n v c) := State.setTarget_does
  have hcoef := a.coefWritten_shows (aMU_F0 n v) c
  rw [← State.setTarget_eq] at hcoef
  obtain ⟨h0, h1, h2⟩ := targetRegs_eq n v
  have hatb : (a.setTarget n v c).at = s.at := hat
  generalize a.setTarget n v c = b at *
  have hcal : b.calRec = a.calRec := hdoes.same .calRec (by decide) (by decide)
  have hsec : b.sec = a.sec := hdoes.same .sec (by decide) (by decide)
  have happly : ((b.muApply n v c).mu n v).apply = some (s.at, c) := by
    unfold State.muApply
    rw [State.setMu_mu, if_pos rfl, hatb]
  have hrest : (∀ x, (b.muApply n v c).wide x 2 = b.wide x 2) ∧ (b.muApply n v c).calRec = b.calRec ∧ (b.muApply n v c).sec = b.sec ∧
      KeepsMemory b (b.muApply n v c) := ⟨fun _ => rfl, rfl, rfl, .of_fields rfl rfl rfl⟩
  generalize b.muApply n v c = d at *
  obtain ⟨hwide, hcal', hsec', hmem'⟩ := hrest
  exact {
    f0 := (hwide _).trans hcoef.f0
    c0 := by rw [hwide, h0]; exact hcoef.c0
    c1 := by rw [hwide, h1]; exact hcoef.c1
    c2 := by rw [hwide, h2]; exact hcoef.c2
    apply := happly
    forming := by rw [hcal', hcal, hforming]
    asked := by rw [hsec', hsec]; exact hasked
    force := by rw [hcal', hcal, hforce]
    memory := hmem.trans ((KeepsMemory.of_does hdoes (by decide)).trans hmem') }

end

end Sys2Proof.Machine
end

section
/-! Calibration records, the check of the reference, and the statement (O30; R355, R362, R363, R366). -/
namespace Sys2Proof.Machine

variable {s t u : State}

/-! ## CAL_RECORD_STORED -/

/-- The sequence number of the next field record. -/
def CalRec.nextSeq (c : CalRec) : BitVec 32 :=
  match c.field with
  | [] => 1
  | r :: _ => r.seq + 1

/-- The entry committed first leaves the queue of those formed. -/
def State.entryTaken (rest : List (Nat × CalEntry)) (s : State) : State :=
  { s with calRec := { s.calRec with forming := rest, signed := s.calRec.signed - 1 } }

/-- The next field record of a calibration record, with an entry and a digest. -/
def CalRec.stored (c : CalRec) (key : Nat) (e : CalEntry) (dig : BitVec 384) : CalRec where
  force := Tab.set (fun _ => none) c.force key (some e)
  digest := dig
  seq := c.nextSeq
  field := (({ seq := c.nextSeq, digest := dig, entries := Tab.set (fun _ => none) c.force key (some e) } : FieldRec) :: c.field).take 255
  forming := c.forming
  signed := c.signed
  tried := c.tried
  checking := c.checking
  waiting := c.waiting
  checkFrom := c.checkFrom
  asked := c.asked

/-- The record stored and in force. -/
def State.recordStored (key : Nat) (e : CalEntry) (s : State) : State :=
  { s.draw.2 with calRec := s.calRec.stored key e (BitVec.ofNat 384 s.draw.1) }

/-- The record in force as CAL_REC shows it. -/
def State.recordShown (s : State) : State :=
  (s.setReg aCAL_REC (putF (fldWord fCAL_REC_SRC 2) fCAL_REC_SEQ (s.calRec.seq.toNat % 65536))).causeOff 44 0

section
variable {key : Nat} {e : CalEntry} {rest : List (Nat × CalEntry)} {good : Bool}

theorem exec_recordStored_none (h : s.calRec.forming = [] ∨ s.calRec.signed = 0) : exec (.calRecordStored good) s = .next s := by
  change execCalRecordStored good s = _
  unfold execCalRecordStored
  cases hform : s.calRec.forming with
  | nil => rfl
  | cons x rest => exact if_pos (h.resolve_left (by rw [hform]; simp))

theorem exec_recordStored_good (h : s.calRec.forming = (key, e) :: rest) (hsigned : 1 ≤ s.calRec.signed) :
    exec (.calRecordStored true) s = .next ((((s.entryTaken rest).recordStored key e).recordShown).log 0x07
      ((s.calRec.nextSeq).toNat % 65536) ((digestBytes (BitVec.ofNat 384 s.draw.1)).take 32)) := by
  change execCalRecordStored true s = _
  unfold execCalRecordStored
  rw [h]
  refine (if_neg (by omega)).trans ?_
  rfl

theorem exec_recordStored_bad (h : s.calRec.forming = (key, e) :: rest) (hsigned : 1 ≤ s.calRec.signed) :
    exec (.calRecordStored false) s = .next ((((s.entryTaken rest).latch aCAL_REC fCAL_REC_UNREC).causeOn 44 0).raise 44 islManagement) := by
  change execCalRecordStored false s = _
  unfold execCalRecordStored
  rw [h]
  exact (if_neg (by omega)).trans rfl

/-- What a record stored leaves. -/
structure RecordStored (key : Nat) (e : CalEntry) (s t : State) : Prop where
  entry : t.calEntry key = some e
  others : ∀ j, j ≠ key → t.calEntry j = s.calEntry j
  forming : t.calRec.forming = s.calRec.forming
  signed : t.calRec.signed = s.calRec.signed
  seq : t.calRec.seq = s.calRec.nextSeq
  agenda : t.agenda = s.agenda
  memory : KeepsMemory s t

theorem State.recordStored_stores (s : State) (key : Nat) (e : CalEntry) : RecordStored key e s (s.recordStored key e) where
  entry := Tab.get_set_self _ _ _ _
  others _ hj := (Tab.get_set _ _ _ _ _).trans (if_neg hj)
  forming := rfl
  signed := rfl
  seq := rfl
  agenda := rfl
  memory := .of_fields rfl rfl rfl

/-- What the record shown leaves. -/
structure RecordShown (s t : State) : Prop where
  record : t.calRec = s.calRec
  source : t.fld aCAL_REC fCAL_REC_SRC = 2
  seq : t.fld aCAL_REC fCAL_REC_SEQ = s.calRec.seq.toNat % 65536
  unrec : t.bit aCAL_REC fCAL_REC_UNREC = false
  cause : t.causeAt 44 0 = false
  agenda : t.agenda = s.agenda
  memory : KeepsMemory s t

/-- CAL_REC as it shows a field record. -/
theorem calRecWord_flds (n : Nat) : getF (putF (fldWord fCAL_REC_SRC 2) fCAL_REC_SEQ n) fCAL_REC_SRC = 2 ∧
    getF (putF (fldWord fCAL_REC_SRC 2) fCAL_REC_SEQ n) fCAL_REC_SEQ = n % 65536 ∧
    getF (putF (fldWord fCAL_REC_SRC 2) fCAL_REC_SEQ n) fCAL_REC_UNREC = 0 := by
  refine ⟨?_, getF_putF_self _ _ _ (by decide) (by decide), ?_⟩
  · rw [getF_putF_ne _ _ _ _ (by decide) (by decide) (by decide)]
    decide
  · rw [getF_putF_ne _ _ _ _ (by decide) (by decide) (by decide)]
    decide

theorem State.recordShown_shows (s : State) : RecordShown s s.recordShown := by
  have hoff := State.causeAt_causeOff (s.setReg aCAL_REC (putF (fldWord fCAL_REC_SRC 2) fCAL_REC_SEQ (s.calRec.seq.toNat % 65536))) 44 0
  have hreg : s.recordShown.reg aCAL_REC = putF (fldWord fCAL_REC_SRC 2) fCAL_REC_SEQ (s.calRec.seq.toNat % 65536) := State.reg_setReg_self _ _ _
  obtain ⟨hsrc, hseq, hun⟩ := calRecWord_flds (s.calRec.seq.toNat % 65536)
  exact ⟨rfl, by unfold State.fld; rw [hreg, hsrc], by unfold State.fld; rw [hreg, hseq, Nat.mod_mod],
    by unfold State.bit State.fld; rw [hreg, hun]; rfl, hoff, rfl, .of_fields rfl rfl rfl⟩

/-- What a condition that latches and begins leaves. -/
structure FaultLatched (a b : Nat) (f : Fld) (fs : Fin 128) (isl : Fin 80) (s t : State) : Prop where
  latched : t.bit a f = true
  raised : Raises fs isl s t
  cause : t.causeStands fs.val = true
  regs : KeepsRegs [a] s t
  does : Does [.fresh, .causes, .agenda] [b] s t

theorem State.faultLatched (s : State) {a b : Nat} {f : Fld} (hone : f.lo = f.hi) (hbound : f.hi < 32) (hadr : Adr a b) (fs : Fin 128)
    (isl : Fin 80) : FaultLatched a b f fs isl s (((s.latch a f).causeOn fs.val 0).raise fs isl) := by
  have hlat := State.bit_latch_self s a f hone hbound
  have hregs : KeepsRegs [a] s (s.latch a f) := (KeepsRegs.refl _ s).latch (by simp) _
  have hdoes : Does [.fresh] [b] s (s.latch a f) := .latch hadr (by simp) .refl
  generalize s.latch a f = x at *
  have hon : KeepsRegs [] x (x.causeOn fs.val 0) := .of_does State.causeOn_does (by decide) _
  have hall : Does [.fresh, .causes] [b] s (x.causeOn fs.val 0) := State.causeOn_does.call (by simp [within]) (hdoes.mono (by simp [within]))
  exact ⟨(State.bit_congr _ (hon _ (by simp))).trans hlat, raises_of_count (hall.same .count (by decide) (by decide)) fs isl,
    x.causeOn_causeStands fs.val 0, hregs.trans ((hon.mono (by simp)).trans fun _ _ => rfl),
    State.raise_does.call (by simp [within]) (hall.mono (by simp [within]))⟩

end

/-! ## The check of the reference (R355) -/

/-- A check called for. -/
def State.refAsked (s : State) : State := { s with calRec := { s.calRec with waiting := true, asked := some s.count } }

theorem exec_refCheck_due (hdue : s.refDue = true) (hw : s.calRec.waiting = false) : exec .refCheck s = .next s.refAsked.refStart :=
  if_pos (by rw [hdue, hw]; rfl)

theorem exec_refCheck_waits (h : ¬ (s.refDue = true ∧ s.calRec.waiting = false)) : exec .refCheck s = .next s :=
  if_neg (by simpa using h)

/-- What a check called for leaves. -/
structure RefCalled (s t : State) : Prop where
  asked : t.calRec.asked = some s.count
  waiting : t.calRec.waiting = true
  starts : s.inPoints = false → t.calRec.checking = true ∧ (s.calRec.checking = false → t.calRec.checkFrom = s.count)
  waits : s.inPoints = true → t.calRec.checking = s.calRec.checking

theorem State.refStart_starts (h : (s.calRec.waiting && !s.calRec.checking && !s.inPoints) = true) :
    s.refStart = { s with calRec := { s.calRec with checking := true, checkFrom := s.count } } := if_pos h

theorem State.refStart_waits (h : (s.calRec.waiting && !s.calRec.checking && !s.inPoints) = false) : s.refStart = s :=
  if_neg (by rw [h]; decide)

theorem State.refAsked_calls (s : State) : RefCalled s s.refAsked.refStart := by
  have hasked : s.refAsked.calRec.asked = some s.count ∧ s.refAsked.calRec.waiting = true ∧ s.refAsked.calRec.checking = s.calRec.checking ∧
      s.refAsked.inPoints = s.inPoints ∧ s.refAsked.count = s.count := ⟨rfl, rfl, rfl, rfl, rfl⟩
  generalize s.refAsked = a at *
  obtain ⟨hat, hwait, hchecking, hpoints, hcount⟩ := hasked
  cases hrun : s.calRec.checking with
  | true =>
    rw [State.refStart_waits (by rw [hwait, hchecking, hrun]; simp)]
    exact ⟨hat, hwait, fun _ => ⟨by rw [hchecking, hrun], fun h => absurd h (by rw [hrun]; decide)⟩, fun _ => hchecking⟩
  | false =>
    cases hin : s.inPoints with
    | true =>
      rw [State.refStart_waits (by rw [hwait, hchecking, hrun, hpoints, hin]; rfl)]
      exact ⟨hat, hwait, fun h => absurd h (by rw [hin]; decide), fun _ => hchecking⟩
    | false =>
      rw [State.refStart_starts (by rw [hwait, hchecking, hrun, hpoints, hin]; rfl)]
      exact ⟨hat, hwait, fun _ => ⟨rfl, fun _ => hcount⟩, fun h => absurd h (by rw [hin]; decide)⟩

section
variable {dev : BitVec 24} {o h : Bool}

/-- The deviation lies within REFTOL and no pair is open or shorted (R355). -/
def State.refGood (s : State) (dev : BitVec 24) (o h : Bool) : Bool :=
  decide (dev.toInt.natAbs ≤ s.fld aCAL_REFCFG fCAL_REFCFG_REFTOL * 100) && !o && !h

/-- A check ended, as CAL_REFSTAT shows it. -/
def State.refShown (dev : BitVec 24) (ok o h : Bool) (s : State) : State :=
  { s with calRec := { s.calRec with waiting := false, checking := false } }.setReg aCAL_REFSTAT
    (putF (putF (putF (fldWord fCAL_REFSTAT_REFOK ok.toNat) fCAL_REFSTAT_OPEN o.toNat) fCAL_REFSTAT_SHORT h.toNat) fCAL_REFSTAT_DEV dev.toNat)

theorem exec_refCheckDone_early (hearly : ¬ (s.calRec.checking = true ∧ Count.before s.count (s.calRec.checkFrom + cyc 300000000) = false)) :
    exec (.refCheckDone dev o h) s = .next s := by
  refine if_pos ?_
  cases hc : s.calRec.checking with
  | false => rfl
  | true => simpa [hc] using hearly

theorem exec_refCheckDone_ends (hc : s.calRec.checking = true) (hb : Count.before s.count (s.calRec.checkFrom + cyc 300000000) = false) :
    exec (.refCheckDone dev o h) s =
      if s.refGood dev o h then .next ((s.refShown dev (s.refGood dev o h) o h).causeOff 43 0)
      else .next ((((s.refShown dev (s.refGood dev o h) o h).latch aCAL_LAT fCAL_LAT_REFBAD).causeOn 43 0).raise 43 islManagement) :=
  if_neg (by rw [hc, hb]; decide)

/-- What a check's end shows. -/
structure RefShown (dev : BitVec 24) (ok o h : Bool) (s t : State) : Prop where
  good : t.bit aCAL_REFSTAT fCAL_REFSTAT_REFOK = ok
  opened : t.bit aCAL_REFSTAT fCAL_REFSTAT_OPEN = o
  shorted : t.bit aCAL_REFSTAT fCAL_REFSTAT_SHORT = h
  dev : t.fld aCAL_REFSTAT fCAL_REFSTAT_DEV = dev.toNat
  waiting : t.calRec.waiting = false
  checking : t.calRec.checking = false

theorem refWord_flds (dev : BitVec 24) (ok o h : Bool) :
    let w := putF (putF (putF (fldWord fCAL_REFSTAT_REFOK ok.toNat) fCAL_REFSTAT_OPEN o.toNat) fCAL_REFSTAT_SHORT h.toNat) fCAL_REFSTAT_DEV
      dev.toNat
    getF w fCAL_REFSTAT_REFOK = ok.toNat ∧ getF w fCAL_REFSTAT_OPEN = o.toNat ∧ getF w fCAL_REFSTAT_SHORT = h.toNat ∧
      getF w fCAL_REFSTAT_DEV = dev.toNat := by
  have hbit : ∀ b : Bool, b.toNat % 2 ^ 1 = b.toNat := by decide
  refine ⟨?_, ?_, ?_, ?_⟩
  · rw [getF_putF_ne _ _ _ _ (by decide) (by decide) (by decide), getF_putF_ne _ _ _ _ (by decide) (by decide) (by decide),
      getF_putF_ne _ _ _ _ (by decide) (by decide) (by decide), getF_fldWord_self _ _ (by decide) (by decide)]
    exact hbit ok
  · rw [getF_putF_ne _ _ _ _ (by decide) (by decide) (by decide), getF_putF_ne _ _ _ _ (by decide) (by decide) (by decide),
      getF_putF_self _ _ _ (by decide) (by decide)]
    exact hbit o
  · rw [getF_putF_ne _ _ _ _ (by decide) (by decide) (by decide), getF_putF_self _ _ _ (by decide) (by decide)]
    exact hbit h
  · rw [getF_putF_self _ _ _ (by decide) (by decide)]
    exact Nat.mod_eq_of_lt dev.isLt

theorem State.refShown_shows (s : State) (dev : BitVec 24) (ok o h : Bool) : RefShown dev ok o h s (s.refShown dev ok o h) := by
  have hreg : (s.refShown dev ok o h).reg aCAL_REFSTAT = putF (putF (putF (fldWord fCAL_REFSTAT_REFOK ok.toNat) fCAL_REFSTAT_OPEN o.toNat)
    fCAL_REFSTAT_SHORT h.toNat) fCAL_REFSTAT_DEV dev.toNat := State.reg_setReg_self _ _ _
  obtain ⟨hok, ho, hh, hdev⟩ := refWord_flds dev ok o h
  have hbit : ∀ b : Bool, (b.toNat != 0) = b := by decide
  refine ⟨?_, ?_, ?_, ?_, rfl, rfl⟩
  · unfold State.bit State.fld; rw [hreg, hok]; exact hbit ok
  · unfold State.bit State.fld; rw [hreg, ho]; exact hbit o
  · unfold State.bit State.fld; rw [hreg, hh]; exact hbit h
  · unfold State.fld; rw [hreg, hdev]

theorem RefShown.kept {ok : Bool} (g : RefShown dev ok o h s t) (hreg : u.reg aCAL_REFSTAT = t.reg aCAL_REFSTAT) (hcal : u.calRec = t.calRec) :
    RefShown dev ok o h s u where
  good := (State.bit_congr _ hreg).trans g.good
  opened := (State.bit_congr _ hreg).trans g.opened
  shorted := (State.bit_congr _ hreg).trans g.shorted
  dev := (State.fld_congr _ hreg).trans g.dev
  waiting := by rw [hcal]; exact g.waiting
  checking := by rw [hcal]; exact g.checking

end

end Sys2Proof.Machine
end

section
/-! The fit, the commit, the records and the reference: the statement (O30; R355, R362, R363, R366). -/
namespace Sys2Proof.Machine

variable {s t u : State}

/-- Settles O30: the fit shown is `State.fitShown_shows`, a commit `State.commits`, a record stored `State.recordStored_stores`, a check of
the reference `State.refAsked_calls` and `State.refShown_shows`. -/
theorem calibrationFit : Obligations.CalibrationFit := by
  unfold Obligations.CalibrationFit
  refine ⟨?sequences, ?records, ?reference⟩
  case sequences =>
    intro by_ q c v s k x n ps f0 fs small set
    refine ⟨fun hphase hfit => ?fits, fun hphase => ⟨s, exec_calFitDone_idle hphase, rfl⟩, fun hphase hunit _ => ?commits,
      fun hphase => ?refused⟩
    case fits =>
      have hshown := s.fitShown_shows k c (fitResid c ps.1 ps.2)
      have hexec := exec_calFitDone_fits hphase hfit
      generalize s.fitShown k c (fitResid c ps.1 ps.2) = a at *
      by_cases hsmall : s.fitSmall k c = true
      · obtain ⟨hp, -, hregs, hdoes⟩ := a.setPhase_shows k 8 0
        obtain ⟨h0, h1, h2, h3, hr, hcals, hmem⟩ := hshown.kept (hregs.mono (by simp)) hdoes (by decide)
        refine ⟨_, hexec.trans (if_pos hsmall), h0, h1, h2, h3, hr, fun _ => ⟨hp, ?_⟩, fun hno => absurd hsmall hno, hcals, hmem⟩
        exact (hdoes.same .agenda (by decide) (by decide)).trans hshown.agenda
      · obtain ⟨hp, hc, hlat, hraise, hregs, hdoes⟩ := a.fitFails k (Fin.ofNat 80 n)
        obtain ⟨h0, h1, h2, h3, hr, hcals, hmem⟩ := hshown.kept hregs hdoes (by decide)
        refine ⟨_, hexec.trans (if_neg hsmall), h0, h1, h2, h3, hr, fun hyes => absurd hyes hsmall, fun _ => ⟨hp, hc, hlat, ?_⟩, hcals, hmem⟩
        unfold Raises at hraise ⊢
        rwa [hshown.count] at hraise
    case commits =>
      have h := s.commits k n v (s.fittedSet k)
      exact ⟨_, exec_calCommit_commits hphase hunit, h.f0, h.c0, h.c1, h.c2, h.apply, h.forming, h.asked, h.force, h.memory⟩
    case refused =>
      obtain ⟨hbit, hraise, hregs, hmem⟩ := s.rejectVal_shows by_ (a := aCAL_CMD) (b := 15) (by decide) (by decide)
      have hdoes : Does [.agenda, .fresh] [15] s (s.rejectVal by_ aCAL_CMD) := State.rejectVal_does adr_CAL_CMD
      exact ⟨_, exec_calCommit_refused hphase, hdoes.same .calRec (by decide) (by decide), hdoes.same .meas (by decide) (by decide), hbit, hraise,
        hregs, hmem⟩
  case records =>
    intro key e rest s
    refine ⟨fun hform hsigned => ⟨?stored, ?lost⟩, fun good hnone => ⟨s, exec_recordStored_none hnone, rfl⟩⟩
    case stored =>
      have htaken : (s.entryTaken rest).calRec = { s.calRec with forming := rest, signed := s.calRec.signed - 1 } := rfl
      have hagenda : (s.entryTaken rest).agenda = s.agenda := rfl
      have hmem : KeepsMemory s (s.entryTaken rest) := .of_fields rfl rfl rfl
      refine ⟨_, exec_recordStored_good hform hsigned, ?_⟩
      generalize s.entryTaken rest = a at *
      have hstored := a.recordStored_stores key e
      generalize a.recordStored key e = b at *
      have hshown := b.recordShown_shows
      generalize b.recordShown = d at *
      generalize (digestBytes (BitVec.ofNat 384 s.draw.1)).take 32 = payload
      have hlog : Does [.mgt] [16] d (d.log 0x07 ((s.calRec.nextSeq).toNat % 65536) payload) := State.log_does
      have hreg : (d.log 0x07 ((s.calRec.nextSeq).toNat % 65536) payload).reg aCAL_REC = d.reg aCAL_REC :=
        hlog.regs (by decide) _ (by rw [adr_CAL_REC.here]; decide)
      generalize d.log 0x07 ((s.calRec.nextSeq).toNat % 65536) payload = f at *
      have hcal : f.calRec = b.calRec := (hlog.same .calRec (by decide) (by decide)).trans hshown.record
      have hentry : ∀ j, f.calEntry j = b.calEntry j := fun j => by unfold State.calEntry; rw [hcal]
      have hold : ∀ j, a.calEntry j = s.calEntry j := fun j => by unfold State.calEntry; rw [htaken]
      have hseq : f.calRec.seq = s.calRec.nextSeq := by
        rw [hcal, hstored.seq, htaken]
        rfl
      refine ⟨(hentry _).trans hstored.entry, fun j hj => (hentry j).trans ((hstored.others j hj).trans (hold j)),
        by rw [hcal, hstored.forming, htaken], by rw [hcal, hstored.signed, htaken], hseq, (State.fld_congr _ hreg).trans hshown.source,
        by rw [State.fld_congr _ hreg, hshown.seq, hcal], (State.bit_congr _ hreg).trans hshown.unrec, ?_, ?_,
        hmem.trans (hstored.memory.trans (hshown.memory.trans (.of_does hlog (by decide))))⟩
      · have hcause := hshown.cause
        unfold State.causeAt at hcause ⊢
        rwa [hlog.same .causes (by decide) (by decide)]
      · rw [hlog.same .agenda (by decide) (by decide), hshown.agenda, hstored.agenda, hagenda]
    case lost =>
      have htaken : (s.entryTaken rest).calRec = { s.calRec with forming := rest, signed := s.calRec.signed - 1 } := rfl
      have hregs : ∀ x, (s.entryTaken rest).reg x = s.reg x := fun _ => rfl
      have hmem : KeepsMemory s (s.entryTaken rest) := .of_fields rfl rfl rfl
      have hcount : (s.entryTaken rest).count = s.count := rfl
      refine ⟨_, exec_recordStored_bad hform hsigned, ?_⟩
      generalize s.entryTaken rest = a at *
      have hlost := a.faultLatched (f := fCAL_REC_UNREC) rfl (by decide) adr_CAL_REC 44 islManagement
      have hrecord := hlost.does.same .calRec (by decide) (by decide)
      refine ⟨(congrArg CalRec.force hrecord).trans (by rw [htaken]), (congrArg CalRec.forming hrecord).trans (by rw [htaken]), hlost.latched, ?_,
        hlost.cause, (show KeepsRegs _ s a from fun x _ => hregs x).trans hlost.regs, hmem.trans (.of_does hlost.does (by decide))⟩
      have hraise := hlost.raised
      unfold Raises at hraise ⊢
      rwa [hcount] at hraise
  case reference =>
    intro dev o h s ok due ended
    refine ⟨fun ⟨hdue, hw⟩ => ?called, fun hno => ⟨s, exec_refCheck_waits hno, rfl⟩,
      fun hno => ⟨s, exec_refCheckDone_early hno, rfl⟩, fun ⟨hc, hb⟩ => ?ends⟩
    case called =>
      have hcalled := s.refAsked_calls
      have hdoes : Does [.calRec] [] s s.refAsked.refStart := State.refStart_does.call (by decide) (Does.put_calRec (by decide) Does.refl)
      exact ⟨_, exec_refCheck_due hdue hw, hcalled.asked, hcalled.waiting, hcalled.starts, hcalled.waits,
        hdoes.same .agenda (by decide) (by decide), .of_does hdoes (by decide) _, .of_does hdoes (by decide)⟩
    case ends =>
      have hexec := exec_refCheckDone_ends (dev := dev) (o := o) (h := h) hc hb
      have hshown := s.refShown_shows dev (s.refGood dev o h) o h
      have hregs : KeepsRegs [aCAL_REFSTAT] s (s.refShown dev (s.refGood dev o h) o h) :=
        (KeepsRegs.refl [aCAL_REFSTAT] s).setReg (a := aCAL_REFSTAT) (by simp) _
      have hdoes : Does [.calRec] [15] s (s.refShown dev (s.refGood dev o h) o h) :=
        .setReg adr_CAL_REFSTAT (by decide) (.put_calRec (by decide) .refl)
      generalize s.refShown dev (s.refGood dev o h) o h = a at *
      by_cases hok : s.refGood dev o h = true
      · have hoff : Does [.causes] [] a (a.causeOff 43 0) := State.causeOff_does
        have hregs' : KeepsRegs [] a (a.causeOff 43 0) := .of_does hoff (by decide) _
        have hkept := hshown.kept (hregs' _ (by simp)) (hoff.same .calRec (by decide) (by decide))
        have hall : Does [.calRec, .causes] [15] s (a.causeOff 43 0) := hoff.call (by decide) (hdoes.mono (by decide))
        refine ⟨_, hexec.trans (if_pos hok), hkept.good, hkept.opened, hkept.shorted, hkept.dev, fun _ => ⟨a.causeAt_causeOff 43 0,
          hall.same .agenda (by decide) (by decide), hregs.trans (hregs'.mono (by simp))⟩, fun hno => absurd (hno.symm.trans hok) (by decide),
          hkept.waiting, hkept.checking, .of_does hall (by decide)⟩
      · have hbad := a.faultLatched (f := fCAL_LAT_REFBAD) rfl (by decide) adr_CAL_LAT 43 islManagement
        have hkept := hshown.kept (hbad.regs _ (by decide)) (hbad.does.same .calRec (by decide) (by decide))
        have hraise : Raises 43 islManagement s (((a.latch aCAL_LAT fCAL_LAT_REFBAD).causeOn 43 0).raise 43 islManagement) := by
          have hraise := hbad.raised
          unfold Raises at hraise ⊢
          rwa [hdoes.same .count (by decide) (by decide)] at hraise
        exact ⟨_, hexec.trans (if_neg hok), hkept.good.trans rfl, hkept.opened, hkept.shorted, hkept.dev, fun hyes => absurd hyes hok,
          fun _ => ⟨hbad.latched, hbad.cause, hraise, (hregs.mono (by simp)).trans (hbad.regs.mono (by simp))⟩, hkept.waiting, hkept.checking,
          (KeepsMemory.of_does hdoes (by decide)).trans (.of_does hbad.does (by decide))⟩

end Sys2Proof.Machine
end

section
/-! The states of a link: what a passage of its LTSSM shows (O35; R403, R404). -/
namespace Sys2Proof.Machine

variable {s t u : State} {p : Port} {l : Link}

/-! ## Reading a link's state -/

theorem State.ltssm_port (s : State) (p : Port) : s.ltssm p.val = s.fld (aLP_STAT p.val) fLP_STAT_LTSSM := by
  match p with
  | 0 => rfl
  | 1 => rfl

theorem State.txPower_port (s : State) (p : Port) : s.txPower p.val = s.fld (aLP_STAT p.val) fLP_STAT_TXPWR := by
  match p with
  | 0 => rfl
  | 1 => rfl

theorem State.ltOf_port (s : State) (p : Port) : s.ltOf (.port p) = s.fld (aLP_STAT p.val) fLP_STAT_LTSSM := s.ltssm_port p

/-- The registers that show the states of links (R403). -/
def linkStats : List Nat := [aLP_STAT 0, aLP_STAT 1, aLC_STAT, aLR_STAT]

/-- A link reads the same where its register and its state behind it do. -/
theorem State.ltssm_congr {j : Nat} (h0 : j = 0 → t.reg (aLP_STAT 0) = s.reg (aLP_STAT 0)) (h1 : j = 1 → t.reg (aLP_STAT 1) = s.reg (aLP_STAT 1))
    (h2 : j = 2 → t.reg aLC_STAT = s.reg aLC_STAT) (h3 : j = 3 → t.reg aLR_STAT = s.reg aLR_STAT) (hlink : t.link j = s.link j) :
    t.ltssm j = s.ltssm j := by
  match j with
  | 0 => exact State.fld_congr (a := aLP_STAT 0) fLP_STAT_LTSSM (h0 rfl)
  | 1 => exact State.fld_congr (a := aLP_STAT 1) fLP_STAT_LTSSM (h1 rfl)
  | 2 => exact State.fld_congr fLC_STAT_LTSSM (h2 rfl)
  | 3 => exact State.fld_congr fLR_STAT_LTSSM (h3 rfl)
  | _ + 4 => exact congrArg LinkState.st hlink

/-! ## A passage of the LTSSM -/

/-- A link's bit in LNK_STAT. -/
def upFld (l : Link) : Fld := [⟨0, 0⟩, ⟨1, 1⟩, fLNK_STAT_COL_UP, fLNK_STAT_RING_IN, fLNK_STAT_RING_OUT].getD (linkKey l) ⟨0, 0⟩

/-- The register that shows a link's state; the ring output has none. -/
def statRegs : Link → List Nat
  | .port p => [aLP_STAT p.val]
  | .col => [aLC_STAT]
  | .ringIn => [aLR_STAT]
  | .ringOut => []

/-- A link's state behind its register once it has passed to a state of its LTSSM. -/
def State.passed (s : State) (l : Link) (v : Nat) : LinkState :=
  { s.link (linkKey l) with since := s.count, pwr := 0, st := if l = .ringOut then v else 0 }

/-- What a passage leaves. -/
structure LinkPassed (l : Link) (v : Nat) (s t : State) : Prop where
  state : t.ltOf l = v
  others : ∀ j, j ≠ linkKey l → t.ltssm j = s.ltssm j ∧ t.link j = s.link j
  link : t.link (linkKey l) = s.passed l v
  power : t.txPower (linkKey l) = 0
  up : t.bit aLNK_STAT (upFld l) = (v == ltActive)
  regs : KeepsRegs (aLNK_STAT :: statRegs l) s t
  does : Does [.links] [13] s t

/-- A link's state behind its register set to what a passage leaves there. -/
def State.linkPassed (l : Link) (v : Nat) (s : State) : State := s.setLink (linkKey l) (s.passed l v)

theorem State.linkPassed_shows (s : State) (l : Link) (v : Nat) : (s.linkPassed l v).link (linkKey l) = s.passed l v ∧
    (∀ j, j ≠ linkKey l → (s.linkPassed l v).link j = s.link j) ∧ (∀ a, (s.linkPassed l v).reg a = s.reg a) ∧
    Does [.links] [] s (s.linkPassed l v) :=
  ⟨(State.setLink_link s _ _ _).trans (if_pos rfl), fun _ hj => (State.setLink_link s _ _ _).trans (if_neg hj), fun _ => rfl,
    Does.put_links (by decide) Does.refl⟩

/-- LP_STAT with both directions awake and a state of the LTSSM. -/
def ltWord (w : Word) (v : Nat) : Word := putF (putF (putF w fLP_STAT_TXPWR 0) fLP_STAT_RXPWR 0) fLP_STAT_LTSSM v

theorem ltWord_flds (w : Word) (v : Nat) : getF (ltWord w v) fLP_STAT_LTSSM = v % 16 ∧ getF (ltWord w v) fLP_STAT_TXPWR = 0 ∧
    ∀ f : Fld, f.hi < 20 → getF (ltWord w v) f = getF w f := by
  unfold ltWord
  refine ⟨getF_putF_self _ _ _ (by decide) (by decide), ?_, fun f hf => ?_⟩
  · rw [getF_putF_ne _ _ _ _ (by decide) (by decide) (by decide), getF_putF_ne _ _ _ _ (by decide) (by decide) (by decide),
      getF_putF_self _ _ _ (by decide) (by decide)]
    rfl
  · have h1 : f.hi < fLP_STAT_LTSSM.lo ∨ fLP_STAT_LTSSM.hi < f.lo := .inl (by simp; omega)
    have h2 : f.hi < fLP_STAT_RXPWR.lo ∨ fLP_STAT_RXPWR.hi < f.lo := .inl (by simp; omega)
    have h3 : f.hi < fLP_STAT_TXPWR.lo ∨ fLP_STAT_TXPWR.hi < f.lo := .inl (by simp; omega)
    rw [getF_putF_ne _ _ _ _ (by decide) (by decide) h1, getF_putF_ne _ _ _ _ (by decide) (by decide) h2,
      getF_putF_ne _ _ _ _ (by decide) (by decide) h3]

theorem State.setLtssm_port (s : State) (p : Port) (v : Nat) : s.setLtssm (.port p) v =
    ((s.linkPassed (.port p) v).setReg (aLP_STAT p.val) (ltWord ((s.linkPassed (.port p) v).reg (aLP_STAT p.val)) v)).setBit aLNK_STAT
      ⟨p.val, p.val⟩ (v == ltActive) := rfl

theorem upFld_port (p : Port) : upFld (.port p) = ⟨p.val, p.val⟩ := by
  match p with
  | 0 => rfl
  | 1 => rfl

/-- A write of a link's register and of its bit in LNK_STAT, after its state behind them. -/
theorem State.setLtssm_passes_of {r : Nat} {w : Word} {v : Nat} (hstat : statRegs l = [r])
    (hset : s.setLtssm l v = ((s.linkPassed l v).setReg r w).setBit aLNK_STAT (upFld l) (v == ltActive))
    (hne : aLNK_STAT ≠ r) (hup : (upFld l).lo = (upFld l).hi ∧ (upFld l).hi < 32)
    (hstate : ∀ u : State, u.reg r = w → u.ltOf l = v) (hpower : ∀ u : State, u.reg r = w → u.link (linkKey l) = s.passed l v →
      u.txPower (linkKey l) = 0) (hothers : ∀ j, j ≠ linkKey l → ∀ u : State, KeepsRegs [aLNK_STAT, r] s u → u.link j = s.link j →
      u.ltssm j = s.ltssm j) : LinkPassed l v s (s.setLtssm l v) := by
  have hdoes : Does [.links] [13] s (s.setLtssm l v) := State.setLtssm_does
  obtain ⟨hself, hrest, hregs, -⟩ := s.linkPassed_shows l v
  have hlinks : (s.setLtssm l v).links = (s.linkPassed l v).links := by rw [hset]; rfl
  have hlink : ∀ j, (s.setLtssm l v).link j = (s.linkPassed l v).link j := fun j => by unfold State.link; rw [hlinks]
  have hreg : (s.setLtssm l v).reg r = w := by
    rw [hset]
    exact (State.reg_setReg_ne _ _ hne.symm).trans (State.reg_setReg_self _ _ _)
  have hkeeps : KeepsRegs [aLNK_STAT, r] s (s.setLtssm l v) := by
    rw [hset]
    exact (((show KeepsRegs [aLNK_STAT, r] s (s.linkPassed l v) from fun a _ => hregs a).setReg (by simp) _).setBit (by simp) _ _)
  exact {
    state := hstate _ hreg
    others := fun j hj => ⟨hothers j hj _ hkeeps ((hlink j).trans (hrest j hj)), (hlink j).trans (hrest j hj)⟩
    link := (hlink _).trans hself
    power := hpower _ hreg ((hlink _).trans hself)
    up := by rw [hset]; exact State.bit_setBit_self _ _ _ _ hup.1 hup.2
    regs := by rw [hstat]; exact hkeeps
    does := hdoes }

theorem State.ltssm_others {r : Nat} (hr : ∀ j a, (j, a) ∈ [(0, aLP_STAT 0), (1, aLP_STAT 1), (2, aLC_STAT), (3, aLR_STAT)] → a = r → j = linkKey l)
    (hlnk : aLNK_STAT ∉ linkStats) {j : Nat} (hj : j ≠ linkKey l) (u : State) (h : KeepsRegs [aLNK_STAT, r] s u) (hlink : u.link j = s.link j) :
    u.ltssm j = s.ltssm j := by
  have hkeep : ∀ a, (j, a) ∈ [(0, aLP_STAT 0), (1, aLP_STAT 1), (2, aLC_STAT), (3, aLR_STAT)] → u.reg a = s.reg a := fun a ha => by
    refine h a ?_
    have hne : a ≠ r := fun e => hj (hr j a ha e)
    have hne' : a ≠ aLNK_STAT := fun e => hlnk (e ▸ by
      simp only [List.mem_cons, Prod.mk.injEq, List.not_mem_nil, or_false] at ha
      rcases ha with ⟨-, rfl⟩ | ⟨-, rfl⟩ | ⟨-, rfl⟩ | ⟨-, rfl⟩ <;> simp [linkStats])
    simp [hne, hne']
  exact State.ltssm_congr (fun e => hkeep _ (by simp [e])) (fun e => hkeep _ (by simp [e])) (fun e => hkeep _ (by simp [e]))
    (fun e => hkeep _ (by simp [e])) hlink

theorem State.setLtssm_port_passes (s : State) (p : Port) {v : Nat} (hv : v < 16) : LinkPassed (.port p) v s (s.setLtssm (.port p) v) := by
  have hmod : v % 16 = v := Nat.mod_eq_of_lt hv
  obtain ⟨hlt, hpw, -⟩ := ltWord_flds ((s.linkPassed (.port p) v).reg (aLP_STAT p.val)) v
  refine State.setLtssm_passes_of (l := .port p) (r := aLP_STAT p.val) (w := ltWord ((s.linkPassed (.port p) v).reg (aLP_STAT p.val)) v) rfl
    (by rw [upFld_port]; exact s.setLtssm_port p v) (by simp only [aLNK_STAT, aLP_STAT]; omega) (by rw [upFld_port]; exact ⟨rfl, by show p.val < 32; omega⟩)
    (fun u hu => ?_) (fun u hu _ => ?_) (fun j hj u h hlink => State.ltssm_others (l := .port p) (fun i a hi ha => ?_) (by decide) hj u h hlink)
  · rw [State.ltOf_port, State.fld, hu, hlt, hmod]
  · exact (u.txPower_port p).trans (by rw [State.fld, hu, hpw])
  · simp only [List.mem_cons, Prod.mk.injEq, List.not_mem_nil, or_false, aLP_STAT, aLC_STAT, aLR_STAT] at hi ha
    change i = p.val
    omega

theorem State.setLtssm_col_passes (s : State) {v : Nat} (hv : v < 16) : LinkPassed .col v s (s.setLtssm .col v) := by
  have hmod : v % 16 = v := Nat.mod_eq_of_lt hv
  have hlt : getF (putF (putF ((s.linkPassed .col v).reg aLC_STAT) fLC_STAT_TXPWR 0) fLC_STAT_LTSSM v) fLC_STAT_LTSSM = v % 16 :=
    getF_putF_self _ _ _ (by decide) (by decide)
  have hpw : getF (putF (putF ((s.linkPassed .col v).reg aLC_STAT) fLC_STAT_TXPWR 0) fLC_STAT_LTSSM v) fLC_STAT_TXPWR = 0 := by
    rw [getF_putF_ne _ _ _ _ (by decide) (by decide) (by decide), getF_putF_self _ _ _ (by decide) (by decide)]
    rfl
  refine State.setLtssm_passes_of (l := .col) (r := aLC_STAT) (w := putF (putF ((s.linkPassed .col v).reg aLC_STAT) fLC_STAT_TXPWR 0)
    fLC_STAT_LTSSM v) rfl rfl (by decide) (by decide) (fun u hu => ?_) (fun u hu _ => ?_)
    (fun j hj u h hlink => State.ltssm_others (l := .col) (fun i a hi ha => ?_) (by decide) hj u h hlink)
  · exact (congrArg (getF · fLC_STAT_LTSSM) hu).trans (hlt.trans hmod)
  · exact (congrArg (getF · fLC_STAT_TXPWR) hu).trans hpw
  · simp only [List.mem_cons, Prod.mk.injEq, List.not_mem_nil, or_false, aLP_STAT, aLC_STAT, aLR_STAT] at hi ha
    change i = 2
    omega

theorem State.setLtssm_ringIn_passes (s : State) {v : Nat} (hv : v < 16) : LinkPassed .ringIn v s (s.setLtssm .ringIn v) := by
  have hlt : getF (putF ((s.linkPassed .ringIn v).reg aLR_STAT) fLR_STAT_LTSSM v) fLR_STAT_LTSSM = v % 16 :=
    getF_putF_self _ _ _ (by decide) (by decide)
  refine State.setLtssm_passes_of (l := .ringIn) (r := aLR_STAT) (w := putF ((s.linkPassed .ringIn v).reg aLR_STAT) fLR_STAT_LTSSM v) rfl rfl
    (by decide) (by decide) (fun u hu => ?_) (fun u _ hlink => congrArg LinkState.pwr hlink)
    (fun j hj u h hlink => State.ltssm_others (l := .ringIn) (fun i a hi ha => ?_) (by decide) hj u h hlink)
  · exact (congrArg (getF · fLR_STAT_LTSSM) hu).trans (hlt.trans (Nat.mod_eq_of_lt hv))
  · simp only [List.mem_cons, Prod.mk.injEq, List.not_mem_nil, or_false, aLP_STAT, aLC_STAT, aLR_STAT] at hi ha
    change i = 3
    omega

theorem State.setLtssm_ringOut_passes (s : State) (v : Nat) : LinkPassed .ringOut v s (s.setLtssm .ringOut v) := by
  obtain ⟨hself, hrest, hregs, -⟩ := s.linkPassed_shows .ringOut v
  have hset : s.setLtssm .ringOut v = (s.linkPassed .ringOut v).setBit aLNK_STAT fLNK_STAT_RING_OUT (v == ltActive) := rfl
  have hlink : ∀ j, (s.setLtssm .ringOut v).link j = (s.linkPassed .ringOut v).link j := fun _ => rfl
  have hkeeps : KeepsRegs [aLNK_STAT] s (s.setLtssm .ringOut v) := by
    rw [hset]
    exact (show KeepsRegs [aLNK_STAT] s (s.linkPassed .ringOut v) from fun a _ => hregs a).setBit (by simp) _ _
  exact {
    state := congrArg LinkState.st ((hlink 4).trans hself)
    others := fun j hj => ⟨State.ltssm_congr (fun _ => hkeeps _ (by decide)) (fun _ => hkeeps _ (by decide)) (fun _ => hkeeps _ (by decide))
      (fun _ => hkeeps _ (by decide)) ((hlink j).trans (hrest j hj)), (hlink j).trans (hrest j hj)⟩
    link := (hlink _).trans hself
    power := congrArg LinkState.pwr ((hlink 4).trans hself)
    up := by rw [hset]; exact State.bit_setBit_self _ _ _ _ rfl (by decide)
    regs := hkeeps
    does := State.setLtssm_does }

/-- What a passage of any link shows (R403). -/
theorem State.setLtssm_passes (s : State) (l : Link) {v : Nat} (hv : v < 16) : LinkPassed l v s (s.setLtssm l v) :=
  match l with
  | .port p => s.setLtssm_port_passes p hv
  | .col => s.setLtssm_col_passes hv
  | .ringIn => s.setLtssm_ringIn_passes hv
  | .ringOut => s.setLtssm_ringOut_passes v

/-- A passage of a host port keeps the fields below its power states, its session among them. -/
theorem State.setLtssm_port_low (s : State) (p : Port) (v : Nat) {f : Fld} (hf : f.hi < 20) :
    (s.setLtssm (.port p) v).fld (aLP_STAT p.val) f = s.fld (aLP_STAT p.val) f := by
  rw [State.setLtssm_port]
  refine (State.fld_congr f (State.reg_setReg_ne _ _ (by simp only [aLP_STAT, aLNK_STAT]; omega))).trans ?_
  unfold State.fld
  rw [State.reg_setReg_self, (ltWord_flds _ v).2.2 f hf, (s.linkPassed_shows (.port p) v).2.2.1]

theorem State.setLtssm_session (s : State) (p : Port) (v : Nat) : (s.setLtssm (.port p) v).session p.val = s.session p.val := by
  unfold State.session State.bit
  rw [s.setLtssm_port_low p v (f := fLP_STAT_SESSION) (by decide)]

end Sys2Proof.Machine
end

section
/-! A host port that comes up, and one that goes down (O35; R403, R410, R413). -/
namespace Sys2Proof.Machine

variable {s t u : State} {p : Port} {width rate : BitVec 2}

theorem State.link_of_links (h : t.links = s.links) (j : Nat) : t.link j = s.link j := by
  unfold State.link
  rw [h]

theorem linkStats_off (p : Port) : aLNK_LAT ≠ aLP_STAT p.val ∧ aLNK_LAT ≠ aLNK_STAT ∧ aLNK_STAT ≠ aLP_STAT p.val ∧ aLP_CFG p.val ≠ aLP_STAT p.val ∧
    aLP_CFG p.val ≠ aLNK_STAT := by
  simp only [aLNK_LAT, aLP_STAT, aLNK_STAT, aLP_CFG]
  omega

/-! ## Width and rate -/

theorem State.setWidth_shows (s : State) (p : Port) (width rate : BitVec 2) :
    (s.setWidth (.port p) width rate).fld (aLP_STAT p.val) fLP_STAT_WIDTH = width.toNat ∧
    (s.setWidth (.port p) width rate).fld (aLP_STAT p.val) fLP_STAT_RATE = rate.toNat ∧
    (∀ f : Fld, (27 < f.lo ∨ f.hi < 24) → (s.setWidth (.port p) width rate).fld (aLP_STAT p.val) f = s.fld (aLP_STAT p.val) f) ∧
    KeepsRegs [aLP_STAT p.val] s (s.setWidth (.port p) width rate) := by
  refine ⟨?_, ?_, fun f hf => ?_, ((KeepsRegs.refl _ s).setFld (by simp) _ _).setFld (by simp) _ _⟩
  · exact (State.fld_setFld_beside _ _ _ _ _ (by decide) (by decide) (by decide)).trans
      ((State.fld_setFld_self _ _ _ _ (by decide) (by decide)).trans (Nat.mod_eq_of_lt width.isLt))
  · exact (State.fld_setFld_self _ _ _ _ (by decide) (by decide)).trans (Nat.mod_eq_of_lt rate.isLt)
  · have hrate : f.hi < fLP_STAT_RATE.lo ∨ fLP_STAT_RATE.hi < f.lo := by simp; omega
    have hwidth : f.hi < fLP_STAT_WIDTH.lo ∨ fLP_STAT_WIDTH.hi < f.lo := by simp; omega
    exact (State.fld_setFld_beside _ _ _ _ _ (by decide) (by decide) hrate).trans
      (State.fld_setFld_beside _ _ _ _ _ (by decide) (by decide) hwidth)

/-! ## A port that comes up -/

/-- What the registers of a port say once it has come up. -/
structure PortUp (p : Port) (width rate : BitVec 2) (s t : State) : Prop where
  state : t.ltssm p.val = ltActive
  power : t.txPower p.val = 0
  up : t.bit aLNK_STAT ⟨p.val, p.val⟩ = true
  width : t.fld (aLP_STAT p.val) fLP_STAT_WIDTH = width.toNat
  rate : t.fld (aLP_STAT p.val) fLP_STAT_RATE = rate.toNat
  session : t.session p.val = s.session p.val
  regs : KeepsRegs [aLP_STAT p.val, aLNK_STAT, aLNK_LAT] s t

/-- The state of a link with a host port up. -/
def State.portUp (s : State) (p : Port) (width rate : BitVec 2) : State := (s.setLtssm (.port p) ltActive).setWidth (.port p) width rate

theorem State.portUp_shows (s : State) (p : Port) (width rate : BitVec 2) : PortUp p width rate s (s.portUp p width rate) := by
  have hpass := s.setLtssm_passes (.port p) (v := ltActive) (by decide)
  obtain ⟨hwidth, hrate, hbeside, hregs⟩ := (s.setLtssm (.port p) ltActive).setWidth_shows p width rate
  obtain ⟨-, -, hne, -, -⟩ := linkStats_off p
  refine ⟨?_, ?_, ?_, hwidth, hrate, ?_, ?_⟩
  · refine (State.ltssm_port _ p).trans ((hbeside _ (by decide)).trans ?_)
    exact (State.ltOf_port _ p).symm.trans hpass.state
  · exact (State.txPower_port _ p).trans ((hbeside _ (by decide)).trans ((State.txPower_port _ p).symm.trans hpass.power))
  · refine (State.bit_congr _ (hregs _ (by simp [hne]))).trans ?_
    rw [← upFld_port]
    exact hpass.up
  · refine Eq.trans ?_ (s.setLtssm_session p ltActive)
    exact congrArg (· != 0) (hbeside fLP_STAT_SESSION (by decide))
  · exact (hpass.regs.mono (by simp [statRegs])).trans (hregs.mono (by simp))

theorem State.portUp_link (s : State) (p : Port) (width rate : BitVec 2) :
    (s.portUp p width rate).link p.val = s.passed (.port p) ltActive ∧ (∀ j, j ≠ p.val → (s.portUp p width rate).link j = s.link j) ∧
    Does [.links] [13] s (s.portUp p width rate) :=
  have hpass := s.setLtssm_passes (.port p) (v := ltActive) (by decide)
  ⟨hpass.link, fun j hj => (hpass.others j hj).2, State.setWidth_does.call (by decide) hpass.does⟩

/-- The registers say the same while at most LNK_LAT changes. -/
theorem PortUp.of_keeps (h : PortUp p width rate s t) (hregs : KeepsRegs [aLNK_LAT] t u) : PortUp p width rate s u := by
  obtain ⟨hlat, hlat', -⟩ := linkStats_off p
  have hstat : u.reg (aLP_STAT p.val) = t.reg (aLP_STAT p.val) := hregs _ (by simp [hlat.symm])
  have hlnk : u.reg aLNK_STAT = t.reg aLNK_STAT := hregs _ (by simp [hlat'.symm])
  exact {
    state := (u.ltssm_port p).trans ((State.fld_congr _ hstat).trans ((t.ltssm_port p).symm.trans h.state))
    power := (u.txPower_port p).trans ((State.fld_congr _ hstat).trans ((t.txPower_port p).symm.trans h.power))
    up := (State.bit_congr _ hlnk).trans h.up
    width := (State.fld_congr _ hstat).trans h.width
    rate := (State.fld_congr _ hstat).trans h.rate
    session := (State.bit_congr fLP_STAT_SESSION hstat).trans h.session
    regs := h.regs.trans (hregs.mono (by simp)) }

theorem State.judgeDegraded_shows (s : State) (p : Nat) : KeepsRegs [aLNK_LAT] s (s.judgeDegraded p) ∧
    (s.causeAt 96 p = false → (s.judgeDegraded p).causeAt 96 p = false) ∧
    (s.degraded p = true → (s.judgeDegraded p).bit aLNK_LAT fLNK_LAT_DEGRADED = true ∧ (s.judgeDegraded p).causeAt 102 p = true) := by
  have hlat := s.bit_latch_self aLNK_LAT fLNK_LAT_DEGRADED rfl (by decide)
  have hregs : KeepsRegs [aLNK_LAT] s (s.latch aLNK_LAT fLNK_LAT_DEGRADED) := (KeepsRegs.refl _ s).latch (by simp) _
  have hcauses := (Does.latch adr_LNK_LAT (by decide) Does.refl : Does [.fresh] [13] s (s.latch aLNK_LAT fLNK_LAT_DEGRADED)).same .causes (by decide) (by decide)
  unfold State.judgeDegraded
  generalize s.latch aLNK_LAT fLNK_LAT_DEGRADED = v at *
  by_cases hd : s.degraded p = true
  · rw [if_pos hd]
    by_cases hc : v.causeAt 102 p = true
    · rw [if_pos hc]
      exact ⟨hregs, fun h => by unfold State.causeAt at h ⊢; rwa [hcauses], fun _ => ⟨hlat, hc⟩⟩
    · rw [if_neg hc]
      have hon : KeepsRegs [] v (v.causeOn 102 p) := .of_does State.causeOn_does (by decide) _
      refine ⟨hregs.trans ((hon.mono (by simp)).trans fun _ _ => rfl),
        fun h => State.causeAt_causeOn_other (s := v) (by unfold State.causeAt at h ⊢; rwa [hcauses]) (by decide), fun _ => ⟨?_, ?_⟩⟩
      · exact (State.bit_congr _ (hon _ (by simp))).trans hlat
      · exact State.causeAt_causeOn v 102 p
  · rw [if_neg hd]
    exact ⟨fun _ _ => rfl, fun h => State.causeAt_causeOff_of h 102 p, fun h => absurd h hd⟩

theorem PortUp.degraded (h : PortUp p width rate s t) (hw : s.fld (aLP_CFG p.val) fLP_CFG_MAXW < width.toNat) : t.degraded p.val = true := by
  obtain ⟨-, -, -, hcfg, hcfg'⟩ := linkStats_off p
  have hsame : t.fld (aLP_CFG p.val) fLP_CFG_MAXW = s.fld (aLP_CFG p.val) fLP_CFG_MAXW :=
    State.fld_congr _ (h.regs _ (by simp only [List.mem_cons, hcfg, hcfg', List.not_mem_nil, or_false, false_or, aLNK_LAT, aLP_CFG]; omega))
  unfold State.degraded
  rw [h.state, hsame, h.width, decide_eq_true hw]
  rfl

/-! ## A port that goes down -/

/-- What the fall of a host port leaves (R413). -/
structure PortDown (p : Port) (s t : State) : Prop where
  session : t.session p.val = false
  link : t.link p.val = { stalled := (s.link p.val).hush }
  latched : t.bit aLNK_LAT ⟨p.val, p.val⟩ = true
  cause : t.causeAt 96 p.val = true
  raised : s.causeAt 96 p.val = false → Raises 96 islLink s t
  state : t.ltssm p.val = s.ltssm p.val

theorem sessionWord_ltssm (w : Word) (session io role : Nat) : getF (sessionWord w session io role) fLP_STAT_LTSSM = getF w fLP_STAT_LTSSM := by
  unfold sessionWord
  rw [getF_putF_ne _ _ _ _ (by decide) (by decide) (by decide), getF_putF_ne _ _ _ _ (by decide) (by decide) (by decide),
    getF_putF_ne _ _ _ _ (by decide) (by decide) (by decide)]

theorem State.endSession_ltssm (s : State) (p : Port) (cause : Nat) : (s.endSession p.val cause).ltssm p.val = s.ltssm p.val := by
  cases h : s.session p.val
  · rw [State.endSession_none h]
  · rw [State.endSession_ends h]
    generalize leBytes 1 (s.sessRole p.val) ++ leBytes 1 cause = payload
    refine (State.ltssm_port _ p).trans (Eq.trans ?_ (s.ltssm_port p).symm)
    refine (State.fld_congr _ (State.log_keeps_low _ _ _ _ (not_mem_logRegs_sess p.val).1)).trans ?_
    have hreg : (s.sessionShown p.val 0 0 0).reg (aLP_STAT p.val) = sessionWord (s.reg (aLP_STAT p.val)) 0 0 0 :=
      (State.reg_setReg_ne _ _ (aLP_STAT_ne_sess p.val p.val)).trans (State.reg_setReg_self _ _ _)
    exact (congrArg (getF · fLP_STAT_LTSSM) hreg).trans (sessionWord_ltssm _ _ _ _)

theorem State.endSession_link (s : State) (p : Port) (cause : Nat) (x : LinkState) :
    ((s.endSession p.val cause).setLink p.val x).link p.val = x := (State.setLink_link _ _ _ _).trans (if_pos rfl)

/-- The condition of a port that is down. -/
def State.downRaised (p : Port) (s : State) : State := if s.causeAt 96 p.val then s else (s.causeOn 96 p.val).raise 96 islLink

theorem State.downRaised_shows (s : State) (p : Port) : (s.downRaised p).causeAt 96 p.val = true ∧
    (s.causeAt 96 p.val = false → Raises 96 islLink s (s.downRaised p)) ∧ Does [.agenda, .causes] [] s (s.downRaised p) := by
  unfold State.downRaised
  by_cases h : s.causeAt 96 p.val = true
  · rw [if_pos h]
    exact ⟨h, fun h' => absurd (h.symm.trans h') (by decide), Does.refl⟩
  · rw [if_neg h]
    have hon : Does [.causes] [] s (s.causeOn 96 p.val) := State.causeOn_does
    exact ⟨State.causeAt_causeOn s 96 p.val, fun _ => raises_of_count (hon.same .count (by decide) (by decide)) 96 islLink,
      State.raise_does.call (by decide) (hon.mono (by decide))⟩

theorem State.portDown_shows (s : State) (p : Port) : PortDown p s (s.portDown p) := by
  have hend : Does [.sec, .mgt] [13, 16, 18] s (s.endSession p.val 0x13) := State.endSession_does
  have hses := s.endSession_session p 0x13
  have hlt := s.endSession_ltssm p 0x13
  have hlink := s.endSession_link p 0x13 { stalled := (s.link p.val).hush }
  have heq : s.portDown p = (State.downRaised p (((s.endSession p.val 0x13).setLink p.val { stalled := (s.link p.val).hush }).setFld aLNK_LAT
      ⟨p.val, p.val⟩ 1)).rewindStreams p.val := rfl
  rw [heq]
  have hcauses : ((s.endSession p.val 0x13).setLink p.val { stalled := (s.link p.val).hush }).causes = s.causes ∧
      ((s.endSession p.val 0x13).setLink p.val { stalled := (s.link p.val).hush }).count = s.count :=
    ⟨hend.same .causes (by decide) (by decide), hend.same .count (by decide) (by decide)⟩
  have hreg : ∀ a, ((s.endSession p.val 0x13).setLink p.val { stalled := (s.link p.val).hush }).reg a = (s.endSession p.val 0x13).reg a := fun _ => rfl
  generalize (s.endSession p.val 0x13).setLink p.val { stalled := (s.link p.val).hush } = a at *
  generalize s.endSession p.val 0x13 = e at *
  have hlat := a.bit_setBit_self aLNK_LAT ⟨p.val, p.val⟩ true rfl (by show p.val < 32; omega)
  obtain ⟨hoff, -⟩ := linkStats_off p
  have hbeside : (a.setBit aLNK_LAT ⟨p.val, p.val⟩ true).reg (aLP_STAT p.val) = a.reg (aLP_STAT p.val) := State.reg_setReg_ne _ _ hoff.symm
  have hsame : (a.setBit aLNK_LAT ⟨p.val, p.val⟩ true).causes = a.causes ∧ (a.setBit aLNK_LAT ⟨p.val, p.val⟩ true).count = a.count ∧
    (a.setBit aLNK_LAT ⟨p.val, p.val⟩ true).links = a.links := ⟨rfl, rfl, rfl⟩
  change PortDown p s (State.rewindStreams (State.downRaised p (a.setBit aLNK_LAT ⟨p.val, p.val⟩ true)) p.val)
  generalize a.setBit aLNK_LAT ⟨p.val, p.val⟩ true = b at *
  obtain ⟨hcause, hraise, hdoes⟩ := b.downRaised_shows p
  generalize b.downRaised p = c at *
  have hrew : Does [.acq] [] c (c.rewindStreams p.val) := State.rewindStreams_does
  have hall : Does [.agenda, .causes, .acq] [] b (c.rewindStreams p.val) := State.rewindStreams_does.call (by decide) (hdoes.mono (by decide))
  have hstat : (c.rewindStreams p.val).reg (aLP_STAT p.val) = e.reg (aLP_STAT p.val) :=
    (KeepsRegs.of_does hall (by decide) [] _ (by simp)).trans (hbeside.trans (hreg _))
  have hcs : (c.rewindStreams p.val).causes = c.causes ∧ (c.rewindStreams p.val).agenda = c.agenda :=
    ⟨hrew.same .causes (by decide) (by decide), hrew.same .agenda (by decide) (by decide)⟩
  exact {
    session := (State.bit_congr _ hstat).trans hses
    link := (State.link_of_links ((hall.same .links (by decide) (by decide)).trans hsame.2.2) p.val).trans hlink
    latched := (State.bit_congr _ (KeepsRegs.of_does hall (by decide) [] _ (by simp))).trans hlat
    cause := by unfold State.causeAt at hcause ⊢; rwa [hcs.1]
    raised := fun h => by
      have hb : Raises 96 islLink b c := hraise (by unfold State.causeAt at h ⊢; rwa [hsame.1, hcauses.1])
      unfold Raises at hb ⊢
      rwa [hcs.2, ← hcauses.2, ← hsame.2.1]
    state := (State.ltssm_port _ p).trans ((State.fld_congr _ hstat).trans ((State.ltssm_port _ p).symm.trans hlt)) }

end Sys2Proof.Machine
end

section
/-! The training of links, and the way into RECOVERY (O35; R403, R429). -/
namespace Sys2Proof.Machine

variable {s t u : State} {p : Port} {l : Link} {width rate : BitVec 2}

/-! ## Training -/

/-- The registers that show the passages of links. -/
def passRegs : List Nat := [aLNK_STAT, aLC_STAT, aLR_STAT, aLP_STAT 0, aLP_STAT 1]

theorem statRegs_passRegs (l : Link) : ∀ a ∈ aLNK_STAT :: statRegs l, a ∈ passRegs := by
  match l with
  | .port 0 => decide
  | .port 1 => decide
  | .col => decide
  | .ringIn => decide
  | .ringOut => decide

theorem LinkPassed.memory {v : Nat} (h : LinkPassed l v s t) : KeepsMemory s t := .of_does h.does (by decide)

theorem exec_linkDetect_due (h : s.ltOf l = ltDetect) : exec (.linkDetect l) s = .next (s.setLtssm l ltPoll) := congrArg Host.Outcome.next (if_pos h)

theorem exec_linkDetect_elsewhere (h : s.ltOf l ≠ ltDetect) : exec (.linkDetect l) s = .next s := congrArg Host.Outcome.next (if_neg h)

theorem exec_pollDone_due (h : s.ltOf l = ltPoll) : exec (.pollDone l) s = .next (s.setLtssm l ltConfig) := congrArg Host.Outcome.next (if_pos h)

theorem exec_pollDone_elsewhere (h : s.ltOf l ≠ ltPoll) : exec (.pollDone l) s = .next s := congrArg Host.Outcome.next (if_neg h)

theorem exec_trainTimeout_due (h : s.ltOf l = ltPoll ∨ s.ltOf l = ltConfig) (hlong : s.stateFor l (24 * 192000000) = true) :
    exec (.trainTimeout l) s = .next (s.setLtssm l ltDetect) := congrArg Host.Outcome.next (if_pos ⟨h, hlong⟩)

theorem exec_trainTimeout_early (hlong : s.stateFor l (24 * 192000000) = false) : exec (.trainTimeout l) s = .next s :=
  congrArg Host.Outcome.next (if_neg fun ⟨_, h⟩ => absurd (hlong.symm.trans h) (by decide))

/-! ## CONFIG_DONE -/

/-- The state behind the register of a port that starts afresh (R403, R410). -/
def State.freshLink (s : State) (p : Port) : State :=
  s.setLink p.val { s.link p.val with
    grants := entryGrants, rxNext := 0, txNext := 0, held := [], sent := [0, 0, 0, 0], owed := [0, 0, 0, 0] }

theorem exec_configDone_elsewhere (h : s.ltOf l ≠ ltConfig) : exec (.configDone l width rate) s = .next s := if_neg h

theorem exec_configDone_port (h : s.ltOf (.port p) = ltConfig) : exec (.configDone (.port p) width rate) s =
    .next ((((s.portUp p width rate).freshLink p).causeOff 96 p.val).judgeDegraded p.val) := if_pos h

theorem exec_configDone_col (h : s.ltOf .col = ltConfig) : exec (.configDone .col 0 rate) s =
    .next ((s.setLtssm .col ltActive).setLink 2 { (s.setLtssm .col ltActive).link 2 with grants := entryGrants }) := if_pos h

theorem exec_configDone_narrow (h : s.ltOf .col = ltConfig) (hw : width ≠ 0) : exec (.configDone .col width rate) s =
    .next (s.setLtssm .col ltDetect) := (if_pos h).trans (if_pos hw)

theorem exec_configDone_ringIn (h : s.ltOf .ringIn = ltConfig) : exec (.configDone .ringIn width rate) s =
    .next ((s.setLtssm .ringIn ltActive).causeOff 100 0) := if_pos h

theorem exec_configDone_ringOut (h : s.ltOf .ringOut = ltConfig) : exec (.configDone .ringOut width rate) s =
    .next (s.setLtssm .ringOut ltActive) := if_pos h

/-- What a link that is ACTIVE with nothing asleep shows, the other links as they were. -/
structure LinkUp (l : Link) (s t : State) : Prop where
  state : t.ltOf l = ltActive
  power : t.txPower (linkKey l) = 0
  up : t.bit aLNK_STAT (upFld l) = true
  others : ∀ j, j ≠ linkKey l → t.link j = s.link j
  memory : KeepsMemory s t

theorem LinkPassed.linkUp (h : LinkPassed l ltActive s t) : LinkUp l s t :=
  ⟨h.state, h.power, h.up, fun j hj => (h.others j hj).2, h.memory⟩

/-- What a host port that has trained from CONFIG shows (R403, R410, R430). -/
structure PortTrained (p : Port) (width rate : BitVec 2) (s t : State) : Prop where
  shown : PortUp p width rate s t
  link : t.link p.val = { s.passed (.port p) ltActive with
    grants := entryGrants, rxNext := 0, txNext := 0, held := [], sent := [0, 0, 0, 0], owed := [0, 0, 0, 0] }
  others : ∀ j, j ≠ p.val → t.link j = s.link j
  cause : t.causeAt 96 p.val = false
  degraded : s.fld (aLP_CFG p.val) fLP_CFG_MAXW < width.toNat → t.bit aLNK_LAT fLNK_LAT_DEGRADED = true ∧ t.causeAt 102 p.val = true
  memory : KeepsMemory s t

theorem State.portTrained (s : State) (p : Port) (width rate : BitVec 2) :
    PortTrained p width rate s ((((s.portUp p width rate).freshLink p).causeOff 96 p.val).judgeDegraded p.val) := by
  have hup := s.portUp_shows p width rate
  obtain ⟨hself, hothers, hdoes⟩ := s.portUp_link p width rate
  generalize s.portUp p width rate = a at *
  have hlink : ∀ j, (a.freshLink p).link j = if j = p.val then { a.link p.val with
      grants := entryGrants, rxNext := 0, txNext := 0, held := [], sent := [0, 0, 0, 0], owed := [0, 0, 0, 0] } else a.link j :=
    fun j => State.setLink_link _ _ _ _
  have hfresh : ∀ x, (a.freshLink p).reg x = a.reg x := fun _ => rfl
  have hdoesf : Does [.links] [13] s (a.freshLink p) := Does.put_links (by decide) hdoes
  generalize a.freshLink p = b at *
  have hoff := State.causeAt_causeOff b 96 p.val
  have hregs : ∀ x, (b.causeOff 96 p.val).reg x = b.reg x := fun _ => rfl
  have hlinks : ∀ j, (b.causeOff 96 p.val).link j = b.link j := fun _ => rfl
  have hdoesc : Does [.links, .causes] [13] s (b.causeOff 96 p.val) := State.causeOff_does.call (by decide) (hdoesf.mono (by decide))
  generalize b.causeOff 96 p.val = c at *
  obtain ⟨hkeeps, hcause, hdeg⟩ := c.judgeDegraded_shows p.val
  have hjudge : Does [.agenda, .causes, .fresh] [13] c (c.judgeDegraded p.val) := State.judgeDegraded_does
  have hupc : PortUp p width rate s c := hup.of_keeps fun x _ => (hregs x).trans (hfresh x)
  have hall : Does [.links, .agenda, .causes, .fresh] [13] s (c.judgeDegraded p.val) := hjudge.call (by decide) (hdoesc.mono (by decide))
  have hlink' : ∀ j, (c.judgeDegraded p.val).link j = b.link j := fun j =>
    (State.link_of_links (hjudge.same .links (by decide) (by decide)) j).trans (hlinks j)
  exact {
    shown := hupc.of_keeps hkeeps
    link := (hlink' _).trans ((hlink _).trans ((if_pos rfl).trans (by rw [hself])))
    others := fun j hj => (hlink' j).trans ((hlink j).trans ((if_neg hj).trans (hothers j hj)))
    cause := hcause hoff
    degraded := fun hw => hdeg (hupc.degraded hw)
    memory := .of_does hall (by decide) }

theorem PortTrained.linkUp (h : PortTrained p width rate s t) : LinkUp (.port p) s t where
  state := h.shown.state
  power := h.shown.power
  up := by rw [upFld_port]; exact h.shown.up
  others := h.others
  memory := h.memory

/-- Every link that has trained from CONFIG, at its width, is up. -/
theorem configDone_linkUp (h : s.ltOf l = ltConfig) (hw : l = .col → width = 0) : Completes (.configDone l width rate) s (LinkUp l s) := by
  match l with
  | .port p => exact ⟨_, exec_configDone_port h, (s.portTrained p width rate).linkUp⟩
  | .col =>
    have hpass := s.setLtssm_passes .col (v := ltActive) (by decide)
    obtain rfl := hw rfl
    refine ⟨_, exec_configDone_col h, ?_⟩
    generalize s.setLtssm .col ltActive = a at *
    exact ⟨hpass.state, hpass.power, hpass.up, fun j hj => (State.setLink_link _ _ _ _).trans ((if_neg hj).trans (hpass.others j hj).2),
      hpass.memory.trans (.of_fields rfl rfl rfl)⟩
  | .ringIn =>
    have hpass := s.setLtssm_passes .ringIn (v := ltActive) (by decide)
    refine ⟨_, exec_configDone_ringIn h, ?_⟩
    generalize s.setLtssm .ringIn ltActive = a at *
    exact ⟨hpass.state, hpass.power, hpass.up, fun j hj => (hpass.others j hj).2, hpass.memory.trans (.of_fields rfl rfl rfl)⟩
  | .ringOut => exact ⟨_, exec_configDone_ringOut h, (s.setLtssm_passes .ringOut (v := ltActive) (by decide)).linkUp⟩

/-! ## Into RECOVERY -/

/-- The registers that an entry to RECOVERY may change. -/
def recoveryRegs : Link → List Nat
  | .port p => [aLP_STAT p.val, aLNK_STAT, aLP_RETRAIN p.val]
  | .col => [aLC_STAT, aLNK_STAT, aLNK_LAT]
  | .ringIn => [aLR_STAT, aLNK_STAT]
  | .ringOut => [aLNK_STAT]

/-- What an entry to RECOVERY leaves. -/
structure Recovering (l : Link) (s t : State) : Prop where
  state : t.ltOf l = ltRecovery
  link : t.link (linkKey l) = s.passed l ltRecovery
  regs : KeepsRegs (recoveryRegs l) s t
  does : Does [.agenda, .fresh, .links] [13] s t

/-- What it leaves of a host port in particular. -/
structure PortRecovering (p : Port) (s t : State) : Prop extends Recovering (.port p) s t where
  session : t.session p.val = s.session p.val
  down : t.bit aLNK_STAT ⟨p.val, p.val⟩ = false
  counted : (t.reg (aLP_RETRAIN p.val)).toNat = min 0xFFFFFFFF ((s.reg (aLP_RETRAIN p.val)).toNat + 1)

theorem State.toRecovery_port (s : State) (p : Port) : PortRecovering p s (s.toRecovery (.port p)) := by
  have hpass := s.setLtssm_passes (.port p) (v := ltRecovery) (by decide)
  have hses := s.setLtssm_session p ltRecovery
  have hdoes : Does [.agenda, .fresh, .links] [13] s (s.toRecovery (.port p)) := State.toRecovery_does
  have heq : s.toRecovery (.port p) = (s.setLtssm (.port p) ltRecovery).bump (aLP_RETRAIN p.val) := rfl
  rw [heq] at hdoes ⊢
  generalize s.setLtssm (.port p) ltRecovery = a at *
  have hbump : KeepsRegs [aLP_RETRAIN p.val] a (a.bump (aLP_RETRAIN p.val)) := (KeepsRegs.refl _ a).bump (by simp)
  have hne : aLP_STAT p.val ≠ aLP_RETRAIN p.val ∧ aLNK_STAT ≠ aLP_RETRAIN p.val ∧ aLP_RETRAIN p.val ≠ aLP_STAT p.val := by
    simp only [aLP_STAT, aLP_RETRAIN, aLNK_STAT]
    omega
  have hstat := hbump (aLP_STAT p.val) (by simp)
  have hlnk := hbump aLNK_STAT (by simp [hne.2.1])
  exact {
    state := (State.ltOf_port _ p).trans ((State.fld_congr _ hstat).trans ((State.ltOf_port _ p).symm.trans hpass.state))
    link := hpass.link
    regs := (hpass.regs.mono (by simp [statRegs, recoveryRegs])).trans (hbump.mono (by simp [recoveryRegs]))
    does := hdoes
    session := (State.bit_congr _ hstat).trans hses
    down := by
      refine (State.bit_congr _ hlnk).trans ?_
      rw [← upFld_port]
      exact hpass.up
    counted := by rw [State.reg_bump_toNat, hpass.regs _ (by simp [statRegs, hne.2.1.symm])] }

/-- What it leaves of the col link in particular. -/
structure ColRecovering (s t : State) : Prop extends Recovering .col s t where
  latched : t.bit aLNK_LAT fLNK_LAT_COLERR = true
  raised : Raises 101 islLink s t

theorem State.toRecovery_col (s : State) : ColRecovering s (s.toRecovery .col) := by
  have hpass := s.setLtssm_passes .col (v := ltRecovery) (by decide)
  have hdoes : Does [.agenda, .fresh, .links] [13] s (s.toRecovery .col) := State.toRecovery_does
  have heq : s.toRecovery .col = ((s.setLtssm .col ltRecovery).latch aLNK_LAT fLNK_LAT_COLERR).raise 101 islLink := rfl
  rw [heq] at hdoes ⊢
  generalize s.setLtssm .col ltRecovery = a at *
  have hlat := a.bit_latch_self aLNK_LAT fLNK_LAT_COLERR rfl (by decide)
  have hkeeps : KeepsRegs [aLNK_LAT] a (a.latch aLNK_LAT fLNK_LAT_COLERR) := (KeepsRegs.refl _ a).latch (by simp) _
  have hdoesl : Does [.fresh] [13] a (a.latch aLNK_LAT fLNK_LAT_COLERR) := .latch adr_LNK_LAT (by decide) .refl
  generalize a.latch aLNK_LAT fLNK_LAT_COLERR = b at *
  exact {
    state := (State.fld_congr fLC_STAT_LTSSM (hkeeps aLC_STAT (by decide))).trans hpass.state
    link := (State.link_of_links (t := b) (hdoesl.same .links (by decide) (by decide)) 2).trans hpass.link
    regs := (hpass.regs.mono (by simp [statRegs, recoveryRegs])).trans (hkeeps.mono (by simp [recoveryRegs]))
    does := hdoes
    latched := hlat
    raised := raises_of_count ((hdoesl.same .count (by decide) (by decide)).trans (hpass.does.same .count (by decide) (by decide))) 101 islLink }

theorem State.toRecovery_shows (s : State) (l : Link) : Recovering l s (s.toRecovery l) :=
  match l with
  | .port p => (s.toRecovery_port p).toRecovering
  | .col => s.toRecovery_col.toRecovering
  | .ringIn =>
    have hpass := s.setLtssm_passes .ringIn (v := ltRecovery) (by decide)
    ⟨hpass.state, hpass.link, hpass.regs.mono (by simp [statRegs, recoveryRegs]), hpass.does.mono (by decide)⟩
  | .ringOut =>
    have hpass := s.setLtssm_passes .ringOut (v := ltRecovery) (by decide)
    ⟨hpass.state, hpass.link, hpass.regs.mono (by simp [statRegs, recoveryRegs]), hpass.does.mono (by decide)⟩

end Sys2Proof.Machine
end

section
/-! RECOVERY ended, ports enabled and disabled, and the power states of links (O35; R403, R404, R413, R431). -/
namespace Sys2Proof.Machine

variable {s t u : State} {p : Port} {l : Link} {width rate : BitVec 2}

theorem Runs.memory {ps : List Part} {bs : List Nat} (h : Runs ps bs s (.next t)) (hm : .sram ∉ ps ∧ .hbmMem ∉ ps ∧ .spill ∉ ps) : KeepsMemory s t := by
  obtain ⟨u, hu, hdoes⟩ := h
  cases hu
  exact .of_does hdoes hm

/-! ## RECOVERY ended -/

/-- With nothing waiting nothing goes out. -/
theorem State.flush_nil {j : Nat} (h : (s.link j).waiting = []) (n : Nat) : s.flush j n = s := by
  cases n with
  | zero => rfl
  | succ n => simp only [State.flush, h, List.find?_nil]

theorem exec_recoveryDone_elsewhere (h : s.ltOf l ≠ ltRecovery) : exec (.recoveryDone l width rate) s = .next s := if_neg h

theorem exec_recoveryDone_col (h : s.ltOf .col = ltRecovery) (hw : (s.link 2).waiting = []) :
    exec (.recoveryDone .col width rate) s = .next (s.setLtssm .col ltActive) := by
  have hpass := s.setLtssm_passes .col (v := ltActive) (by decide)
  exact (if_pos h).trans (congrArg Host.Outcome.next (State.flush_nil ((congrArg LinkState.waiting hpass.link).trans hw) _))

theorem exec_recoveryDone_ringIn (h : s.ltOf .ringIn = ltRecovery) : exec (.recoveryDone .ringIn width rate) s =
    .next ((s.setLtssm .ringIn ltActive).causeOff 100 0) := if_pos h

theorem exec_recoveryDone_ringOut (h : s.ltOf .ringOut = ltRecovery) : exec (.recoveryDone .ringOut width rate) s =
    .next (s.setLtssm .ringOut ltActive) := if_pos h

/-- What the return of a host port to ACTIVE leaves. -/
structure PortRecovered (p : Port) (width rate : BitVec 2) (s t : State) : Prop where
  shown : PortUp p width rate s t
  link : t.link p.val = s.passed (.port p) ltActive
  out : t.out = s.out
  memory : KeepsMemory s t

theorem State.portRecovered (s : State) (p : Port) (width rate : BitVec 2) :
    PortRecovered p width rate s ((s.portUp p width rate).judgeDegraded p.val) := by
  have hup := s.portUp_shows p width rate
  obtain ⟨hself, -, hdoes⟩ := s.portUp_link p width rate
  generalize s.portUp p width rate = a at *
  have hjudge : Does [.agenda, .causes, .fresh] [13] a (a.judgeDegraded p.val) := State.judgeDegraded_does
  have hall : Does [.links, .agenda, .causes, .fresh] [13] s (a.judgeDegraded p.val) := hjudge.call (by decide) (hdoes.mono (by decide))
  exact ⟨hup.of_keeps (a.judgeDegraded_shows p.val).1, (State.link_of_links (hjudge.same .links (by decide) (by decide)) _).trans hself,
    hall.same .out (by decide) (by decide), .of_does hall (by decide)⟩

theorem exec_recoveryDone_port (h : s.ltOf (.port p) = ltRecovery) (hw : (s.link p.val).waiting = []) :
    exec (.recoveryDone (.port p) width rate) s = .next ((s.portUp p width rate).judgeDegraded p.val) :=
  (if_pos h).trans (congrArg Host.Outcome.next
    (State.flush_nil ((congrArg LinkState.waiting (s.portRecovered p width rate).link).trans hw) _))

/-- What the return of any link to ACTIVE leaves. -/
structure Recovered (l : Link) (s t : State) : Prop where
  state : t.ltOf l = ltActive
  held : (t.link (linkKey l)).held = (s.link (linkKey l)).held
  grants : (t.link (linkKey l)).grants = (s.link (linkKey l)).grants
  out : t.out = s.out
  memory : KeepsMemory s t

theorem LinkPassed.recovered (h : LinkPassed l ltActive s t) : Recovered l s t :=
  ⟨h.state, (congrArg LinkState.held h.link :), (congrArg LinkState.grants h.link :), h.does.same .out (by decide) (by decide), h.memory⟩

theorem recoveryDone_recovers (h : s.ltOf l = ltRecovery) (hw : (s.link (linkKey l)).waiting = []) :
    Completes (.recoveryDone l width rate) s (Recovered l s) := by
  match l with
  | .port p =>
    have hport := s.portRecovered p width rate
    exact ⟨_, exec_recoveryDone_port h hw, hport.shown.state, (congrArg LinkState.held hport.link :), (congrArg LinkState.grants hport.link :),
      hport.out, hport.memory⟩
  | .col => exact ⟨_, exec_recoveryDone_col h hw, (s.setLtssm_passes .col (v := ltActive) (by decide)).recovered⟩
  | .ringIn =>
    have hback := (s.setLtssm_passes .ringIn (v := ltActive) (by decide)).recovered
    refine ⟨_, exec_recoveryDone_ringIn h, ?_⟩
    generalize s.setLtssm .ringIn ltActive = a at *
    exact ⟨hback.state, hback.held, hback.grants, hback.out, hback.memory.trans (.of_fields rfl rfl rfl)⟩
  | .ringOut => exact ⟨_, exec_recoveryDone_ringOut h, (s.setLtssm_passes .ringOut (v := ltActive) (by decide)).recovered⟩

/-! ## RECOVERY failed -/

theorem exec_recoveryTimeout_early (h : s.ltOf l ≠ ltRecovery ∨ s.stateFor l (2 * 192000000) = false) : exec (.recoveryTimeout l) s = .next s :=
  if_neg fun ⟨hlt, hlong⟩ => h.elim (fun h => h hlt) (fun h => absurd (h.symm.trans hlong) (by decide))

theorem exec_recoveryTimeout_port (h : s.ltOf (.port p) = ltRecovery) (hlong : s.stateFor (.port p) (2 * 192000000) = true) :
    exec (.recoveryTimeout (.port p)) s = .next ((s.setLtssm (.port p) ltDetect).portDown p) := if_pos ⟨h, hlong⟩

theorem exec_recoveryTimeout_col (h : s.ltOf .col = ltRecovery) (hlong : s.stateFor .col (2 * 192000000) = true) :
    exec (.recoveryTimeout .col) s = .next ((s.setLtssm .col ltDetect).setLink 2 {}) := if_pos ⟨h, hlong⟩

theorem exec_recoveryTimeout_ringIn (h : s.ltOf .ringIn = ltRecovery) (hlong : s.stateFor .ringIn (2 * 192000000) = true) :
    exec (.recoveryTimeout .ringIn) s = .next (s.setLtssm .ringIn ltDetect) := if_pos ⟨h, hlong⟩

theorem exec_recoveryTimeout_ringOut (h : s.ltOf .ringOut = ltRecovery) (hlong : s.stateFor .ringOut (2 * 192000000) = true) :
    exec (.recoveryTimeout .ringOut) s = .next (s.setLtssm .ringOut ltDetect) := if_pos ⟨h, hlong⟩

/-- What a failed recovery of a host port leaves. -/
theorem recoveryTimeout_port (s : State) (p : Port) : have t := (s.setLtssm (.port p) ltDetect).portDown p
    t.ltssm p.val = ltDetect ∧ t.session p.val = false ∧ t.link p.val = { stalled := (s.link p.val).hush } ∧
    t.bit aLNK_LAT ⟨p.val, p.val⟩ = true ∧ t.causeAt 96 p.val = true ∧ (s.causeAt 96 p.val = false → Raises 96 islLink s t) := by
  have hpass := s.setLtssm_passes (.port p) (v := ltDetect) (by decide)
  have hhush : ((s.setLtssm (.port p) ltDetect).link p.val).hush = (s.link p.val).hush := (congrArg LinkState.hush hpass.link :)
  have hdown := (s.setLtssm (.port p) ltDetect).portDown_shows p
  have hcauses := hpass.does.same .causes (by decide) (by decide)
  have hcount := hpass.does.same .count (by decide) (by decide)
  refine ⟨hdown.state.trans hpass.state, hdown.session, by rw [hdown.link, hhush], hdown.latched, hdown.cause, fun h => ?_⟩
  have hraise := hdown.raised (by unfold State.causeAt at h ⊢; rwa [hcauses])
  unfold Raises at hraise ⊢
  rwa [hcount] at hraise

theorem recoveryTimeout_memory (h : exec (.recoveryTimeout l) s = .next t) : KeepsMemory s t :=
  Runs.memory (h ▸ exec_recoveryTimeout (link := l) (s := s)) (by decide)

/-- What a failed recovery of any link leaves. -/
theorem recoveryTimeout_detects (h : s.ltOf l = ltRecovery) (hlong : s.stateFor l (2 * 192000000) = true) :
    Completes (.recoveryTimeout l) s (fun t => t.ltOf l = ltDetect ∧
      (t.link (linkKey l)).held = (if linkKey l < 3 then [] else (s.link (linkKey l)).held) ∧ KeepsMemory s t) := by
  cases l with
  | port p =>
    obtain ⟨hstate, -, hlink, -⟩ := recoveryTimeout_port s p
    have hlow : linkKey (.port p) < 3 := by show p.val < 3; omega
    refine ⟨_, exec_recoveryTimeout_port h hlong, hstate, ?_, recoveryTimeout_memory (exec_recoveryTimeout_port h hlong)⟩
    exact (congrArg LinkState.held hlink).trans (if_pos hlow).symm
  | col =>
    have hpass := s.setLtssm_passes .col (v := ltDetect) (by decide)
    refine ⟨_, exec_recoveryTimeout_col h hlong, hpass.state, ?_, recoveryTimeout_memory (exec_recoveryTimeout_col h hlong)⟩
    exact congrArg LinkState.held ((State.setLink_link _ _ _ _).trans (if_pos rfl))
  | ringIn =>
    have hpass := s.setLtssm_passes .ringIn (v := ltDetect) (by decide)
    exact ⟨_, exec_recoveryTimeout_ringIn h hlong, hpass.state, (congrArg LinkState.held hpass.link :), hpass.memory⟩
  | ringOut =>
    have hpass := s.setLtssm_passes .ringOut (v := ltDetect) (by decide)
    exact ⟨_, exec_recoveryTimeout_ringOut h hlong, hpass.state, (congrArg LinkState.held hpass.link :), hpass.memory⟩

/-! ## Loss of alignment and LP_RETRAIN -/

theorem exec_lossOfAlignment_active (h : s.ltOf l = ltActive) (hl : l ≠ .ringIn) : exec (.lossOfAlignment l) s = .next (s.toRecovery l) := by
  match l with
  | .port _ => exact congrArg Host.Outcome.next (if_pos h)
  | .col => exact congrArg Host.Outcome.next (if_pos h)
  | .ringOut => exact congrArg Host.Outcome.next (if_pos h)
  | .ringIn => exact absurd rfl hl

theorem exec_lossOfAlignment_elsewhere (h : s.ltOf (.port p) ≠ ltActive) : exec (.lossOfAlignment (.port p)) s = .next s :=
  congrArg Host.Outcome.next (if_neg h)

theorem exec_lpRetrain_active {by_ : Issuer} (h : s.ltssm p.val = ltActive) : exec (.lpRetrain by_ p) s = .next (s.toRecovery (.port p)) :=
  congrArg Host.Outcome.next (if_pos h)

theorem exec_lpRetrain_elsewhere {by_ : Issuer} (h : s.ltssm p.val ≠ ltActive) : exec (.lpRetrain by_ p) s = .next s :=
  congrArg Host.Outcome.next (if_neg h)

/-- The ring input as its loss leaves it, REF_PRESENT ended where it is the reference. -/
def State.ringLost (s : State) : State :=
  let s1 := if s.ltOf .ringIn = ltActive then s.toRecovery .ringIn else s
  if s.fld aTBS_SRC fTBS_SRC_SRC = 1 then s1.setBit aTBS_STATE fTBS_STATE_REF_PRESENT false else s1

/-- The condition of a ring input that is lost. -/
def State.ringRaised (s : State) : State := if s.causeAt 100 0 then s else (s.causeOn 100 0).raise 100 islLink

theorem exec_lossOfAlignment_ringIn : exec (.lossOfAlignment .ringIn) s = .next s.ringLost.ringRaised := rfl

/-- What the loss of the ring input leaves before its condition. -/
structure RingLost (s t : State) : Prop where
  recovering : s.ltOf .ringIn = ltActive → t.ltOf .ringIn = ltRecovery ∧ t.link 3 = s.passed .ringIn ltRecovery
  absent : s.fld aTBS_SRC fTBS_SRC_SRC = 1 → t.bit aTBS_STATE fTBS_STATE_REF_PRESENT = false
  regs : KeepsRegs [aLR_STAT, aLNK_STAT, aTBS_STATE] s t
  does : Does [.agenda, .fresh, .links] [1, 13] s t
  causes : t.causes = s.causes

theorem State.ringLost_shows (s : State) : RingLost s s.ringLost := by
  have hrec : ∀ a : State, a = (if s.ltOf .ringIn = ltActive then s.toRecovery .ringIn else s) →
      (s.ltOf .ringIn = ltActive → a.ltOf .ringIn = ltRecovery ∧ a.link 3 = s.passed .ringIn ltRecovery) ∧
      KeepsRegs [aLR_STAT, aLNK_STAT, aTBS_STATE] s a ∧ Does [.agenda, .fresh, .links] [13] s a := by
    rintro a rfl
    split
    · next h =>
      have hr := s.toRecovery_shows .ringIn
      exact ⟨fun _ => ⟨hr.state, hr.link⟩, hr.regs.mono (by simp [recoveryRegs]), hr.does⟩
    · next h => exact ⟨fun h' => absurd h' h, KeepsRegs.refl _ s, .refl⟩
  obtain ⟨hstate, hregs, hdoes⟩ := hrec _ rfl
  have hcauses := hdoes.same .causes (by decide) (by decide)
  unfold State.ringLost
  simp only
  generalize (if s.ltOf .ringIn = ltActive then s.toRecovery .ringIn else s) = a at *
  split
  · have hset := a.bit_setBit_self aTBS_STATE fTBS_STATE_REF_PRESENT false rfl (by decide)
    have hkeeps : KeepsRegs [aTBS_STATE] a (a.setBit aTBS_STATE fTBS_STATE_REF_PRESENT false) := (KeepsRegs.refl _ a).setBit (by simp) _ _
    exact ⟨fun h => ⟨(State.fld_congr fLR_STAT_LTSSM (hkeeps aLR_STAT (by decide))).trans (hstate h).1, (hstate h).2⟩, fun _ => hset,
      hregs.trans (hkeeps.mono (by simp)), .setBit adr_TBS_STATE (by decide) (hdoes.mono (by decide)), hcauses⟩
  · next h => exact ⟨hstate, fun h' => absurd h' h, hregs, hdoes.mono (by decide), hcauses⟩

theorem State.ringRaised_shows (s : State) : (s.causeAt 100 0 = false → Raises 100 islLink s s.ringRaised ∧ s.ringRaised.causeStands 100 = true) ∧
    Does [.agenda, .causes] [] s s.ringRaised := by
  unfold State.ringRaised
  by_cases h : s.causeAt 100 0 = true
  · rw [if_pos h]
    exact ⟨fun h' => absurd (h.symm.trans h') (by decide), Does.refl⟩
  · rw [if_neg h]
    have hon : Does [.causes] [] s (s.causeOn 100 0) := State.causeOn_does
    exact ⟨fun _ => ⟨raises_of_count (hon.same .count (by decide) (by decide)) 100 islLink, s.causeOn_causeStands 100 0⟩,
      State.raise_does.call (by decide) (hon.mono (by decide))⟩

/-- What a loss of alignment of an ACTIVE link leaves. -/
theorem lossOfAlignment_recovering (h : s.ltOf l = ltActive) : Completes (.lossOfAlignment l) s (fun t => t.ltOf l = ltRecovery ∧
    (t.link (linkKey l)).held = (s.link (linkKey l)).held ∧ (t.link (linkKey l)).grants = (s.link (linkKey l)).grants ∧ KeepsMemory s t) := by
  by_cases hl : l = .ringIn
  · subst hl
    have hlost := s.ringLost_shows
    obtain ⟨-, hraised⟩ := s.ringLost.ringRaised_shows
    obtain ⟨hstate, hlink⟩ := hlost.recovering h
    refine ⟨_, exec_lossOfAlignment_ringIn, ?_⟩
    generalize s.ringLost = a at *
    generalize a.ringRaised = b at *
    have hlink' : b.link 3 = s.passed .ringIn ltRecovery := (State.link_of_links (hraised.same .links (by decide) (by decide)) 3).trans hlink
    refine ⟨?_, (congrArg LinkState.held hlink' :), (congrArg LinkState.grants hlink' :), ?_⟩
    · exact (State.fld_congr fLR_STAT_LTSSM (KeepsRegs.of_does hraised (by decide) [] _ (by simp))).trans hstate
    · exact (KeepsMemory.of_does hlost.does (by decide)).trans (.of_does hraised (by decide))
  · have hrec := s.toRecovery_shows l
    exact ⟨_, exec_lossOfAlignment_active h hl, hrec.state, (congrArg LinkState.held hrec.link :), (congrArg LinkState.grants hrec.link :),
      .of_does hrec.does (by decide)⟩

end Sys2Proof.Machine
end

section
/-! Ports enabled and disabled, and the power states of links (O35; R404, R431). -/
namespace Sys2Proof.Machine

variable {s t u : State} {p : Port} {l : Link} {tx : Bool}

/-! ## LP_EN_WRITE -/

/-- The enable and event bits of a port as written. -/
def State.enWritten (s : State) (p : Port) (data : Word) : State := s.setReg (aLP_CTL p.val) (data &&& 3)

theorem lpCtl_off (p : Port) : aLP_CTL p.val ≠ aLP_STAT p.val ∧ aLP_CTL p.val ≠ aLNK_STAT ∧
    aLP_CTL p.val ≠ aSEC_SESS p.val ∧ aLP_CTL p.val ∉ logRegs :=
  ⟨by simp only [aLP_CTL, aLP_STAT]; omega, by simp only [aLP_CTL, aLNK_STAT]; omega,
    by simp only [aLP_CTL, aSEC_SESS]; omega, not_mem_logRegs_of_lt (by unfold aLP_CTL aMGT_LOGNEXT; omega)⟩

theorem State.enWritten_shows (s : State) (p : Port) (data : Word) : (s.enWritten p data).reg (aLP_CTL p.val) = data &&& 3#32 ∧
    (s.enWritten p data).ltssm p.val = s.ltssm p.val ∧
    KeepsRegs [aLP_CTL p.val] s (s.enWritten p data) := by
  have hkeeps : KeepsRegs [aLP_CTL p.val] s (s.enWritten p data) := (KeepsRegs.refl _ s).setReg (by simp) _
  refine ⟨State.reg_setReg_self _ _ _, ?_, hkeeps⟩
  exact (State.ltssm_port _ p).trans ((State.fld_congr _ (hkeeps _ (by simp))).trans (s.ltssm_port p).symm)

theorem exec_lpEnWrite_enable {by_ : Issuer} {data : Word} (hd : data.getLsbD 0 = true) : exec (.lpEnWrite by_ p data) s = .next
    (if s.bit (aLP_CTL p.val) fLP_CTL_EN then s.enWritten p data
      else if s.blkOn 13 then (s.enWritten p data).setLtssm (.port p) ltDetect else s.enWritten p data) := if_pos hd

/-- What an enabled port shows. -/
theorem lpEnWrite_enables {by_ : Issuer} {data : Word} (hd : data.getLsbD 0 = true) : Completes (.lpEnWrite by_ p data) s (fun t =>
    t.reg (aLP_CTL p.val) = data &&& 3#32 ∧
    t.ltssm p.val = (if s.bit (aLP_CTL p.val) fLP_CTL_EN = false ∧ s.blkOn 13 = true then ltDetect else s.ltssm p.val) ∧
    KeepsRegs [aLP_CTL p.val, aLP_STAT p.val, aLNK_STAT] s t ∧ KeepsMemory s t) := by
  obtain ⟨hreg, hlt, hkeeps⟩ := s.enWritten_shows p data
  have hmem : KeepsMemory s (s.enWritten p data) := .of_fields rfl rfl rfl
  obtain ⟨hstat, hlnk, -⟩ := lpCtl_off p
  refine ⟨_, exec_lpEnWrite_enable hd, ?_⟩
  have hpass := (s.enWritten p data).setLtssm_passes (.port p) (v := ltDetect) (by decide)
  generalize s.enWritten p data = a at *
  cases hen : s.bit (aLP_CTL p.val) fLP_CTL_EN
  · rw [if_neg (show ¬ (false = true) by decide)]
    cases hb : s.blkOn 13
    · rw [if_neg (show ¬ (false = true) by decide), if_neg (by simp)]
      exact ⟨hreg, hlt, hkeeps.mono (by simp), hmem⟩
    · rw [if_pos (show true = true from rfl), if_pos ⟨rfl, rfl⟩]
      exact ⟨(hpass.regs _ (by simp [statRegs, hlnk])).trans hreg, hpass.state,
        (hkeeps.mono (by simp)).trans (hpass.regs.mono (by simp [statRegs])), hmem.trans hpass.memory⟩
  · rw [if_pos (show true = true from rfl), if_neg (by simp)]
    exact ⟨hreg, hlt, hkeeps.mono (by simp), hmem⟩

theorem exec_lpEnWrite_off {by_ : Issuer} {data : Word} (hen : s.bit (aLP_CTL p.val) fLP_CTL_EN = false) (hd : data.getLsbD 0 = false) :
    exec (.lpEnWrite by_ p data) s = .next (s.enWritten p data) :=
  (if_neg fun h => absurd (hd.symm.trans h) (by decide)).trans (if_neg fun h => absurd (hen.symm.trans h) (by decide))

/-- The state of a port switched off, before its LTSSM. -/
def State.switchedOff (s : State) (p : Port) : State := (s.endSession p.val 0x31).setLink p.val { stalled := (s.link p.val).hush }

theorem exec_lpEnWrite_disable {by_ : Issuer} {data : Word} (hen : s.bit (aLP_CTL p.val) fLP_CTL_EN = true) (hd : data.getLsbD 0 = false) :
    exec (.lpEnWrite by_ p data) s = .next ((((s.enWritten p data).switchedOff p).setLtssm (.port p) ltDisabled).rewindStreams p.val) :=
  (if_neg fun h => absurd (hd.symm.trans h) (by decide)).trans (if_pos hen)

/-- What a port that is disabled shows. -/
theorem lpEnWrite_disables {by_ : Issuer} {data : Word} (hen : s.bit (aLP_CTL p.val) fLP_CTL_EN = true) (hd : data.getLsbD 0 = false) :
    Completes (.lpEnWrite by_ p data) s (fun t => t.reg (aLP_CTL p.val) = data &&& 3#32 ∧ t.ltssm p.val = ltDisabled ∧
      t.session p.val = false ∧ t.link p.val = { stalled := (s.link p.val).hush, since := s.count } ∧ KeepsMemory s t) := by
  obtain ⟨hreg, -, -⟩ := s.enWritten_shows p data
  have hmem : KeepsMemory s (s.enWritten p data) := .of_fields rfl rfl rfl
  have hlink0 : (s.enWritten p data).link p.val = s.link p.val ∧ (s.enWritten p data).count = s.count := ⟨rfl, rfl⟩
  obtain ⟨hstat, hlnk, hsess, hlog⟩ := lpCtl_off p
  refine ⟨_, exec_lpEnWrite_disable hen hd, ?_⟩
  generalize s.enWritten p data = a at *
  have hend : Does [.sec, .mgt] [13, 16, 18] a (a.endSession p.val 0x31) := State.endSession_does
  have hctl : (a.switchedOff p).reg (aLP_CTL p.val) = a.reg (aLP_CTL p.val) :=
    a.endSession_keepsRegs p.val 0x31 _ (by
      change aLP_CTL p.val ∉ aLP_STAT p.val :: aSEC_SESS p.val :: logRegs
      simp only [List.mem_cons, not_or]
      exact ⟨hstat, hsess, hlog⟩)
  have hses : (a.switchedOff p).session p.val = false := a.endSession_session p 0x31
  have hlink : (a.switchedOff p).link p.val = { stalled := (a.link p.val).hush } := a.endSession_link p 0x31 _
  have hdoes : Does [.sec, .mgt, .links] [13, 16, 18] a (a.switchedOff p) := Does.put_links (by decide) (hend.mono (by decide))
  generalize a.switchedOff p = b at *
  have hpass := b.setLtssm_passes (.port p) (v := ltDisabled) (by decide)
  have hpses := b.setLtssm_session p ltDisabled
  generalize b.setLtssm (.port p) ltDisabled = c at *
  have hrew : Does [.acq] [] c (c.rewindStreams p.val) := State.rewindStreams_does
  have hregs : ∀ x, (c.rewindStreams p.val).reg x = c.reg x := fun x => KeepsRegs.of_does hrew (by decide) [] x (by simp)
  refine ⟨?_, ?_, (State.bit_congr _ (hregs _)).trans (hpses.trans hses), ?_, ?_⟩
  · exact (hregs _).trans ((hpass.regs _ (by simp [statRegs, hlnk])).trans (hctl.trans hreg))
  · exact (State.ltssm_port _ p).trans ((State.fld_congr _ (hregs _)).trans ((State.ltssm_port _ p).symm.trans hpass.state))
  · have hcount : b.count = s.count := (hdoes.same .count (by decide) (by decide)).trans hlink0.2
    refine (State.link_of_links (hrew.same .links (by decide) (by decide)) _).trans (hpass.link.trans ?_)
    change { b.link p.val with since := b.count, pwr := 0, st := 0 } = _
    rw [hlink, hcount, hlink0.1]
  · exact hmem.trans ((KeepsMemory.of_does hdoes (by decide)).trans (hpass.memory.trans (.of_does hrew (by decide))))

/-! ## Power states -/

/-- The field of a port's direction: its own transmitter, or the partner's. -/
def pwrFld (tx : Bool) : Fld := if tx then fLP_STAT_TXPWR else fLP_STAT_RXPWR

/-- What a power state shown at a host port leaves. -/
structure PowerShown (p : Port) (tx : Bool) (v : Nat) (s t : State) : Prop where
  power : t.fld (aLP_STAT p.val) (pwrFld tx) = v
  state : t.ltssm p.val = s.ltssm p.val
  links : t.links = s.links
  out : t.out = s.out
  count : t.count = s.count
  regs : KeepsRegs [aLP_STAT p.val] s t
  memory : KeepsMemory s t

theorem State.setPower_shows (s : State) (p : Port) (tx : Bool) {v : Nat} (hv : v < 4) : PowerShown p tx v s (s.setPower (.port p) tx v) := by
  have heq : s.setPower (.port p) tx v = s.setFld (aLP_STAT p.val) (pwrFld tx) v := rfl
  have hpos : (pwrFld tx).lo ≤ (pwrFld tx).hi ∧ (pwrFld tx).hi < 32 ∧ 2 ^ (pwrFld tx).width = 4 ∧
      (fLP_STAT_LTSSM.hi < (pwrFld tx).lo ∨ (pwrFld tx).hi < fLP_STAT_LTSSM.lo) := by
    cases tx <;> decide
  rw [heq]
  exact {
    power := (State.fld_setFld_self _ _ _ _ hpos.1 hpos.2.1).trans (by rw [hpos.2.2.1]; exact Nat.mod_eq_of_lt hv)
    state := (State.ltssm_port _ p).trans ((State.fld_setFld_beside _ _ _ _ _ hpos.1 hpos.2.1 hpos.2.2.2).trans (s.ltssm_port p).symm)
    links := rfl
    out := rfl
    count := rfl
    regs := (KeepsRegs.refl _ s).setFld (by simp) _ _
    memory := .of_fields rfl rfl rfl }

theorem exec_lsEntry_sleeps (h : s.ltssm p.val = ltActive) (hidle : tx = false ∨ (s.fld (aLP_PWR p.val) fLP_PWR_LS_IDLE ≠ 0 ∧
    s.idleFor (.port p) (s.fld (aLP_PWR p.val) fLP_PWR_LS_IDLE * 192) = true)) :
    exec (.lsEntry (.port p) tx) s = .next (s.setPower (.port p) tx 1) := by
  refine congrArg Host.Outcome.next (if_pos ⟨h, ?_, hidle.imp id And.right⟩)
  rcases hidle with rfl | ⟨hne, -⟩
  · rfl
  · exact Bool.or_eq_true_iff.mpr (.inr (bne_iff_ne.mpr hne))

theorem exec_ldEntry_sleeps (h : s.ltssm p.val = ltActive) (hidle : tx = false ∨ (s.fld (aLP_PWR p.val) fLP_PWR_LD_IDLE ≠ 0 ∧
    s.idleFor (.port p) (s.fld (aLP_PWR p.val) fLP_PWR_LD_IDLE * 192000) = true)) :
    exec (.ldEntry p tx) s = .next (s.setPower (.port p) tx 2) := congrArg Host.Outcome.next (if_pos ⟨h, hidle⟩)

theorem exec_lsEntry_stays (h : s.ltOf l ≠ ltActive ∨ s.maySleep l tx = false) : exec (.lsEntry l tx) s = .next s :=
  congrArg Host.Outcome.next (if_neg fun ⟨hlt, hmay, _⟩ => h.elim (fun h => h hlt) (fun h => absurd (h.symm.trans hmay) (by decide)))

theorem exec_ldEntry_stays (h : s.fld (aLP_PWR p.val) fLP_PWR_LD_IDLE = 0 ∨ s.ltssm p.val ≠ ltActive) : exec (.ldEntry p true) s = .next s :=
  congrArg Host.Outcome.next (if_neg fun ⟨hlt, hor⟩ => h.elim (fun h => hor.elim (fun e => absurd e (by decide)) (fun hne => hne.1 h))
    (fun h => h hlt))

theorem exec_lsEntry_ringIn (h : s.ltssm 3 = ltActive) (hen : s.bit aLR_CFG fLR_CFG_LS_EN = true) :
    exec (.lsEntry .ringIn false) s = .next (s.setLink 3 { s.link 3 with pwr := 1 }) :=
  congrArg Host.Outcome.next (if_pos ⟨h, hen, .inl rfl⟩)

/-! ## LINK_WAKE -/

theorem exec_linkWake_partner : exec (.linkWake l false) s = .next (s.setPower l false 0) := rfl

theorem exec_linkWake_quiet (h : (s.link p.val).lctlOwed = none) : exec (.linkWake (.port p) true) s =
    .next ((s.setPower (.port p) true 0).flush p.val (s.link p.val).waiting.length) := by
  change execLinkWake (.port p) true s = _
  simp only [execLinkWake, linkKey, h, if_pos]
  rfl

theorem exec_linkWake_owed {nak : Bool} (h : (s.link p.val).lctlOwed = some nak) (hw : (s.link p.val).waiting = []) :
    exec (.linkWake (.port p) true) s = .next ((s.setPower (.port p) true 0).lctlNow (.port p) nak) := by
  have hwait : (((s.setPower (.port p) true 0).lctlNow (.port p) nak).link p.val).waiting = [] := by
    refine (congrArg LinkState.waiting ((State.setLink_link _ _ _ _).trans (if_pos rfl))).trans ?_
    exact (congrArg LinkState.waiting ((State.setLink_link _ _ _ _).trans (if_pos rfl))).trans hw
  change execLinkWake (.port p) true s = _
  simp only [execLinkWake, linkKey, h, if_pos]
  exact congrArg Host.Outcome.next (State.flush_nil hwait _)

/-- An LCTL that goes out is no longer owed, and nothing is held for it. -/
theorem State.lctlNow_shows (s : State) (l : Link) (nak : Bool) :
    (s.lctlNow l nak).out = s.out ++ [.lctl l nak ((s.link (linkKey l)).rxNext - 1) (s.link (linkKey l)).grants] ∧
    ((s.lctlNow l nak).link (linkKey l)).lctlOwed = none ∧ ((s.lctlNow l nak).link (linkKey l)).held = (s.link (linkKey l)).held ∧
    (∀ a, (s.lctlNow l nak).reg a = s.reg a) ∧ KeepsMemory s (s.lctlNow l nak) := by
  have hlink : (s.lctlNow l nak).link (linkKey l) = { s.link (linkKey l) with lctlOwed := none, sentAt := some s.count, pwr := 0 } := by
    refine ((State.setLink_link _ _ _ _).trans (if_pos rfl)).trans ?_
    rw [show ((s.setLink (linkKey l) { s.link (linkKey l) with lctlOwed := none }).emit (.lctl l nak ((s.link (linkKey l)).rxNext - 1)
      (s.link (linkKey l)).grants)).link (linkKey l) = { s.link (linkKey l) with lctlOwed := none }
      from (State.setLink_link _ _ _ _).trans (if_pos rfl)]
    rfl
  exact ⟨rfl, by rw [hlink], by rw [hlink], fun _ => rfl, .of_fields rfl rfl rfl⟩

/-- One frame waits, and may go. -/
theorem State.flush_one {f : Nat × Out} {j : Nat} (hw : (s.link j).waiting = [f]) (hgo : (s.link j).mayGo (s.sends j) f.1 = true) :
    s.flush j 1 = (s.setLink j { s.link j with waiting := [] }).pushOn j f.1 f.2 := by
  simp only [State.flush, hw, List.find?_cons, hgo]
  rw [show ([f] : List (Nat × Out)).erase f = [] by simp]

end Sys2Proof.Machine
end

section
/-! Training and power states of the links: the statement (O35; R403, R404, R410, R413, R429, R431). -/
namespace Sys2Proof.Machine

variable {s t : State} {p : Port} {l : Link} {width rate : BitVec 2}

/-- A passage as the statement says it of a training command. -/
theorem LinkPassed.goes {v : Nat} (h : LinkPassed l v s t) : t.ltOf l = v ∧ (∀ j, j ≠ linkKey l → t.ltssm j = s.ltssm j ∧ t.link j = s.link j) ∧
    t.link (linkKey l) = { s.link (linkKey l) with since := s.count, pwr := 0, st := if l = .ringOut then v else 0 } ∧
    t.txPower (linkKey l) = 0 ∧ KeepsRegs [aLNK_STAT, aLC_STAT, aLR_STAT, aLP_STAT 0, aLP_STAT 1] s t ∧ KeepsMemory s t :=
  ⟨h.state, h.others, h.link, h.power, h.regs.mono (statRegs_passRegs l), h.memory⟩

/-- Both ways into RECOVERY of a host port, and what they do elsewhere. -/
theorem portRecovery_active {by_ : Issuer} (h : s.ltssm p.val = ltActive) : ∀ c ∈ [Instr.lossOfAlignment (.port p), .lpRetrain by_ p],
    exec c s = .next (s.toRecovery (.port p)) := by
  intro c hc
  rcases List.mem_pair.mp hc with rfl | rfl
  · exact exec_lossOfAlignment_active h (by simp)
  · exact exec_lpRetrain_active h

theorem portRecovery_elsewhere {by_ : Issuer} (h : s.ltssm p.val ≠ ltActive) : ∀ c ∈ [Instr.lossOfAlignment (.port p), .lpRetrain by_ p],
    exec c s = .next s := by
  intro c hc
  rcases List.mem_pair.mp hc with rfl | rfl
  · exact exec_lossOfAlignment_elsewhere h
  · exact exec_lpRetrain_elsewhere h

theorem PortRecovering.portPassed (h : PortRecovering p s t) : t.ltssm p.val = ltRecovery ∧
    t.link p.val = { s.link p.val with since := s.count, pwr := 0, st := 0 } ∧ t.session p.val = s.session p.val ∧
    t.bit aLNK_STAT ⟨p.val, p.val⟩ = false ∧
    (t.reg (aLP_RETRAIN p.val)).toNat = min 0xFFFFFFFF ((s.reg (aLP_RETRAIN p.val)).toNat + 1) ∧
    KeepsRegs [aLP_STAT p.val, aLNK_STAT, aLP_RETRAIN p.val] s t ∧ KeepsMemory s t :=
  ⟨h.state, h.link, h.session, h.down, h.counted, h.regs, .of_does h.does (by decide)⟩

theorem PortTrained.fresh (h : PortTrained p width rate s t) : (t.link p.val).grants = [64, 128, 32, 16] ∧ (t.link p.val).owed = [0, 0, 0, 0] ∧
    (t.link p.val).sent = [0, 0, 0, 0] ∧ (t.link p.val).rxNext = 0 ∧ (t.link p.val).txNext = 0 ∧ (t.link p.val).held = [] ∧
    t.causeAt 96 p.val = false ∧ t.fld (aLP_STAT p.val) fLP_STAT_WIDTH = width.toNat ∧ t.fld (aLP_STAT p.val) fLP_STAT_RATE = rate.toNat ∧
    (s.fld (aLP_CFG p.val) fLP_CFG_MAXW < width.toNat → t.bit aLNK_LAT fLNK_LAT_DEGRADED = true ∧ t.causeAt 102 p.val = true) ∧
    KeepsRegs [aLP_STAT p.val, aLNK_STAT, aLNK_LAT] s t :=
  have hlink := h.link
  ⟨congrArg LinkState.grants hlink, congrArg LinkState.owed hlink, congrArg LinkState.sent hlink, congrArg LinkState.rxNext hlink,
    congrArg LinkState.txNext hlink, congrArg LinkState.held hlink, h.cause, h.shown.width, h.shown.rate, h.degraded, h.shown.regs⟩

/-- What a wake of a transmitter with one frame waiting sends. -/
theorem linkWake_sends {f : Nat × Out} (hlt : s.ltssm p.val = ltActive) (hw : (s.link p.val).waiting = [f])
    (hgo : (s.link p.val).mayGo true f.1 = true) (howed : (s.link p.val).lctlOwed = none) : Completes (.linkWake (.port p) true) s (fun t =>
    t.sends p.val = true ∧ t.out = s.out ++ [f.2] ∧ (t.link p.val).waiting = [] ∧ KeepsRegs [aLP_STAT p.val] s t) := by
  have hshown := s.setPower_shows p true (v := 0) (by decide)
  refine ⟨_, (exec_linkWake_quiet howed).trans (by rw [hw]), ?_⟩
  generalize s.setPower (.port p) true 0 = a at *
  have hlink := State.link_of_links hshown.links p.val
  have hsends : a.sends p.val = true := by
    unfold State.sends
    rw [hshown.state, hlt, a.txPower_port p, show a.fld (aLP_STAT p.val) fLP_STAT_TXPWR = 0 from hshown.power]
    rfl
  have hflush := State.flush_one (s := a) (f := f) (j := p.val) (by rw [hlink, hw]) (by rw [hlink, hsends]; exact hgo)
  rw [show List.length [f] = 1 from rfl, hflush]
  obtain ⟨prot, open_, sentAt, ackAt, hpushed⟩ := (a.setLink p.val { a.link p.val with waiting := [] }).pushOn_link_self p.val f.1 f.2
  have hregs : ∀ x, ((a.setLink p.val { a.link p.val with waiting := [] }).pushOn p.val f.1 f.2).reg x = a.reg x := fun x => rfl
  refine ⟨?_, congrArg (· ++ [f.2]) hshown.out, ?_, hshown.regs.trans fun x _ => hregs x⟩
  · refine Eq.trans ?_ hsends
    unfold State.sends
    rw [State.ltssm_port, State.ltssm_port, State.txPower_port, State.txPower_port, State.fld_congr _ (hregs _), State.fld_congr _ (hregs _)]
  · rw [hpushed, State.setLink_link, if_pos rfl]
    rfl

/-- What a wake of a transmitter that owes an LCTL sends. -/
theorem linkWake_lctl {nak : Bool} (hlt : s.ltssm p.val = ltActive) (hw : (s.link p.val).waiting = [])
    (howed : (s.link p.val).lctlOwed = some nak) : Completes (.linkWake (.port p) true) s (fun t =>
    t.sends p.val = true ∧ t.out = s.out ++ [.lctl (.port p) nak ((s.link p.val).rxNext - 1) (s.link p.val).grants] ∧
      (t.link p.val).lctlOwed = none ∧ KeepsRegs [aLP_STAT p.val] s t) := by
  have hshown := s.setPower_shows p true (v := 0) (by decide)
  refine ⟨_, exec_linkWake_owed howed hw, ?_⟩
  generalize s.setPower (.port p) true 0 = a at *
  have hlink := State.link_of_links hshown.links p.val
  obtain ⟨hout, hnone, -, hregs, -⟩ := a.lctlNow_shows (.port p) nak
  refine ⟨?_, ?_, hnone, hshown.regs.trans fun x _ => hregs x⟩
  · unfold State.sends
    rw [State.ltssm_port, State.txPower_port, State.fld_congr _ (hregs _), State.fld_congr _ (hregs _), ← State.ltssm_port, hshown.state, hlt,
      show a.fld (aLP_STAT p.val) fLP_STAT_TXPWR = 0 from hshown.power]
    rfl
  · rw [hout, hshown.out]
    change s.out ++ [Out.lctl (.port p) nak ((a.link p.val).rxNext - 1) (a.link p.val).grants] = _
    rw [hlink]

/-- What a wake with nothing waiting shows. -/
theorem linkWake_quiet (tx : Bool) (hw : (s.link p.val).waiting = []) (howed : (s.link p.val).lctlOwed = none ∨ tx = false) :
    Completes (.linkWake (.port p) tx) s (PowerShown p tx 0 s) := by
  have hshown := s.setPower_shows p tx (v := 0) (by decide)
  cases tx with
  | false => exact ⟨_, exec_linkWake_partner, hshown⟩
  | true =>
    refine ⟨_, (exec_linkWake_quiet (howed.resolve_right (by decide))).trans ?_, hshown⟩
    exact congrArg Host.Outcome.next (State.flush_nil ((congrArg LinkState.waiting (State.link_of_links hshown.links _)).trans hw) _)

/-- What the loss of a ring input whose condition does not stand raises. -/
theorem lossOfAlignment_ring (h : s.causeAt 100 0 = false) : Completes (.lossOfAlignment .ringIn) s (fun t => Raises 100 islLink s t ∧
    t.causeStands 100 = true ∧ (s.fld aTBS_SRC fTBS_SRC_SRC = 1 → t.bit aTBS_STATE fTBS_STATE_REF_PRESENT = false) ∧
    KeepsRegs [aLR_STAT, aLNK_STAT, aTBS_STATE] s t) := by
  have hlost := s.ringLost_shows
  obtain ⟨hraise, hdoes⟩ := s.ringLost.ringRaised_shows
  have hcount := hlost.does.same .count (by decide) (by decide)
  obtain ⟨hraise, hstands⟩ := hraise (by unfold State.causeAt at h ⊢; rwa [hlost.causes])
  have hregs := KeepsRegs.of_does hdoes (by decide) []
  refine ⟨_, exec_lossOfAlignment_ringIn, ?_, hstands, fun hsrc => (State.bit_congr _ (hregs _ (by simp))).trans (hlost.absent hsrc),
    hlost.regs.trans (hregs.mono (by simp))⟩
  unfold Raises at hraise ⊢
  rwa [hcount] at hraise

/-- The training of every link. -/
theorem linkTraining_every (l : Link) (s : State) :
    let k := linkKey l
    let goes := fun (v : Nat) (t : State) => t.ltOf l = v ∧ (∀ j, j ≠ k → t.ltssm j = s.ltssm j ∧ t.link j = s.link j) ∧
      t.link k = { s.link k with since := s.count, pwr := 0, st := if l = .ringOut then v else 0 } ∧ t.txPower k = 0 ∧
      KeepsRegs [aLNK_STAT, aLC_STAT, aLR_STAT, aLP_STAT 0, aLP_STAT 1] s t ∧ KeepsMemory s t
    (s.ltOf l = ltDetect → Completes (.linkDetect l) s (goes ltPoll)) ∧
    (s.ltOf l ≠ ltDetect → Completes (.linkDetect l) s (fun t => t = s)) ∧
    (s.ltOf l = ltPoll → Completes (.pollDone l) s (goes ltConfig)) ∧
    (s.ltOf l ≠ ltPoll → Completes (.pollDone l) s (fun t => t = s)) ∧
    ((s.ltOf l = ltPoll ∨ s.ltOf l = ltConfig) → s.stateFor l (24 * 192000000) = true →
      Completes (.trainTimeout l) s (goes ltDetect)) ∧
    (s.stateFor l (24 * 192000000) = false → Completes (.trainTimeout l) s (fun t => t = s)) :=
  ⟨fun h => ⟨_, exec_linkDetect_due h, (s.setLtssm_passes l (by decide)).goes⟩, fun h => ⟨s, exec_linkDetect_elsewhere h, rfl⟩,
    fun h => ⟨_, exec_pollDone_due h, (s.setLtssm_passes l (by decide)).goes⟩, fun h => ⟨s, exec_pollDone_elsewhere h, rfl⟩,
    fun h hlong => ⟨_, exec_trainTimeout_due h hlong, (s.setLtssm_passes l (by decide)).goes⟩, fun h => ⟨s, exec_trainTimeout_early h, rfl⟩⟩

/-- Settles O35: each passage is a write of one link's status, and what else a passage brings with it is said of each link. -/
theorem linkTraining : Obligations.LinkTraining := by
  unfold Obligations.LinkTraining
  refine ⟨?every, ?ports, ?others⟩
  case every =>
    intro l width rate s k goes
    obtain ⟨hdetect, hdetect', hpoll, hpoll', htimeout, htimeout'⟩ := linkTraining_every l s
    refine ⟨hdetect, hdetect', hpoll, hpoll', htimeout, htimeout', fun h hw => ?_, fun h => ⟨s, exec_configDone_elsewhere h, rfl⟩,
      fun h => lossOfAlignment_recovering h, fun h hw => ?_, fun h hlong => recoveryTimeout_detects h hlong,
      fun h => ⟨s, exec_recoveryTimeout_early h, rfl⟩, fun h => ⟨s, exec_recoveryDone_elsewhere h, rfl⟩⟩
    · obtain ⟨t, ht, hup⟩ := configDone_linkUp (rate := rate) h hw
      exact ⟨t, ht, hup.state, hup.power, hup.up, hup.others, hup.memory⟩
    · obtain ⟨t, ht, hback⟩ := recoveryDone_recovers (width := width) (rate := rate) h hw
      exact ⟨t, ht, hback.state, hback.held, hback.grants, hback.out, hback.memory⟩
  case ports =>
    intro by_ p width rate data s l k
    refine ⟨fun h => ⟨_, exec_configDone_port h, (s.portTrained p width rate).fresh⟩,
      fun h c hc => ⟨_, portRecovery_active h c hc, (s.toRecovery_port p).portPassed⟩,
      fun h c hc => ⟨s, portRecovery_elsewhere h c hc, rfl⟩, fun h hw => ?_, fun h hlong => ?_, fun hd => lpEnWrite_enables hd,
      fun hen hd => lpEnWrite_disables hen hd, fun hen hd => ?_⟩
    · have hback := s.portRecovered p width rate
      exact ⟨_, exec_recoveryDone_port h hw, hback.link, hback.shown.session, hback.shown.width, hback.shown.rate, hback.shown.regs⟩
    · exact ⟨_, exec_recoveryTimeout_port h hlong, recoveryTimeout_port s p⟩
    · obtain ⟨hreg, -, hkeeps⟩ := s.enWritten_shows p data
      exact ⟨_, exec_lpEnWrite_off hen hd, hreg, rfl, hkeeps, .of_fields rfl rfl rfl⟩
  case others =>
    intro p tx nak width rate f s k pw l
    refine ⟨fun h hw => ?_, fun h => ?_, fun h => ?_, fun h => ?_, fun h hidle => ?_, fun h hidle => ?_, fun h => ?_, fun h => ⟨s, exec_ldEntry_stays h, rfl⟩,
      fun hw howed => ?_, fun h hw howed => linkWake_lctl h hw howed, fun h hw hgo howed => linkWake_sends h hw hgo howed, fun h htw => ?_,
      fun h hen => ?_, fun h => ?_⟩
    · have hpass := s.setLtssm_passes .col (v := ltDetect) (by decide)
      exact ⟨_, exec_configDone_narrow h hw, hpass.state, hpass.up, hpass.regs.mono (by simp [statRegs]), hpass.memory⟩
    · exact ⟨_, exec_configDone_col h, congrArg LinkState.grants ((State.setLink_link _ _ _ _).trans (if_pos rfl))⟩
    · have hcol := s.toRecovery_col
      exact ⟨_, exec_lossOfAlignment_active (l := .col) h (by decide), hcol.latched, hcol.raised, hcol.regs⟩
    · exact lossOfAlignment_ring h
    · have hshown := s.setPower_shows p tx (v := 1) (by decide)
      exact ⟨_, exec_lsEntry_sleeps h hidle, hshown.power, hshown.state.trans h, hshown.links, hshown.regs, hshown.memory⟩
    · have hshown := s.setPower_shows p tx (v := 2) (by decide)
      exact ⟨_, exec_ldEntry_sleeps h hidle, hshown.power, hshown.state.trans h, hshown.links, hshown.regs, hshown.memory⟩
    · refine ⟨s, exec_lsEntry_stays (h.symm.imp id fun h => ?_), rfl⟩
      change (!true || s.fld (aLP_PWR p.val) fLP_PWR_LS_IDLE != 0) = false
      rw [h]
      rfl
    · obtain ⟨t, ht, hshown⟩ := linkWake_quiet tx hw howed
      exact ⟨t, ht, hshown.power, hshown.state, hshown.out, hshown.links, hshown.regs, hshown.memory⟩
    · refine ⟨s, exec_lsEntry_stays (.inr ?_), rfl⟩
      change (!(s.isStandby || s.twin == twActive)) = false
      rw [htw]
      simp
    · exact ⟨_, exec_lsEntry_ringIn h hen, congrArg LinkState.pwr ((State.setLink_link _ _ _ _).trans (if_pos rfl)), fun _ _ => rfl,
        .of_fields rfl rfl rfl⟩
    · exact ⟨s, exec_lsEntry_stays (.inr h), rfl⟩

end Sys2Proof.Machine
end

section
/-! Acknowledgement and replay on a link (O36; R411 to R413). -/
namespace Sys2Proof.Machine

variable {s t u : State} {p : Port} {l : Link}

/-! ## Held frames sent again -/

/-- The register that counts the frames sent again. -/
def replayReg : Link → Nat
  | .port p => aLP_REPLAY p.val
  | _ => aLC_REPLAY

/-- A frame held for replay, sent once more. -/
def Held.again (h : Held) : Held := { h with resends := h.resends + 1 }

theorem Held.map_again (hs : List Held) : (hs.map Held.again).map (fun h => (h.seq, h.frame)) = hs.map (fun h => (h.seq, h.frame)) := by
  rw [List.map_map]
  rfl

/-- Every held frame sent again, before what a fourth resend does (R412). -/
def State.resent (s : State) (l : Link) : State :=
  let x := s.link (linkKey l)
  ((({ s.setLink (linkKey l) { x with held := x.held.map Held.again, ackAt := s.count } with
    out := s.out ++ x.held.map (fun h => h.frame) } : State).sentOn (linkKey l)).bumpBy (replayReg l) x.held.length).raise 97 islLink

theorem State.resend_nil (h : (s.link (linkKey l)).held = []) : s.resend l = s := if_pos (by rw [h]; rfl)

theorem State.resend_cons {h : Held} {hs : List Held} (hx : (s.link (linkKey l)).held = h :: hs) :
    s.resend l = if 4 ≤ h.resends + 1 then (s.resent l).toRecovery l else s.resent l := by
  refine (if_neg (by rw [hx]; exact Bool.false_ne_true)).trans ?_
  simp only [hx, List.head?_cons]
  cases l <;> · unfold State.resent; simp only [hx]; rfl

/-- What a resend leaves. -/
structure Resent (l : Link) (s t : State) : Prop where
  out : t.out = s.out ++ (s.link (linkKey l)).held.map (fun h => h.frame)
  raised : Raises 97 islLink s t
  link : t.link (linkKey l) = { s.link (linkKey l) with
    held := (s.link (linkKey l)).held.map Held.again, ackAt := s.count, sentAt := some s.count, pwr := 0 }
  counted : (t.reg (replayReg l)).toNat = min 0xFFFFFFFF ((s.reg (replayReg l)).toNat + (s.link (linkKey l)).held.length)
  regs : KeepsRegs [replayReg l] s t
  memory : KeepsMemory s t

theorem State.resent_shows (s : State) (l : Link) : Resent l s (s.resent l) where
  out := rfl
  raised := raises_of_count rfl 97 islLink
  link := by
    refine ((State.setLink_link _ _ _ _).trans (if_pos rfl)).trans ?_
    rw [show State.link ({ s.setLink (linkKey l) { s.link (linkKey l) with held := (s.link (linkKey l)).held.map Held.again, ackAt := s.count }
      with out := s.out ++ (s.link (linkKey l)).held.map (fun h => h.frame) } : State) (linkKey l) =
      { s.link (linkKey l) with held := (s.link (linkKey l)).held.map Held.again, ackAt := s.count }
      from (State.setLink_link s _ _ _).trans (if_pos rfl)]
    rfl
  counted := State.reg_bumpBy_toNat _ _ _
  regs := fun a ha => State.reg_setReg_ne _ _ (by simpa using ha)
  memory := .of_fields rfl rfl rfl

/-- What a resend of a link's held frames leaves, as long as the oldest has been sent less than four times. -/
theorem State.resend_again {h : Held} {hs : List Held} (hx : (s.link (linkKey l)).held = h :: hs) (hn : h.resends + 1 < 4) :
    s.resend l = s.resent l := (State.resend_cons hx).trans (if_neg (by omega))

theorem State.resend_fails {h : Held} {hs : List Held} (hx : (s.link (linkKey l)).held = h :: hs) (hn : 4 ≤ h.resends + 1) :
    s.resend l = (s.resent l).toRecovery l := (State.resend_cons hx).trans (if_pos hn)

theorem replayReg_off (p : Port) : aLP_REPLAY p.val ≠ aLP_STAT p.val ∧ aLP_REPLAY p.val ≠ aLNK_STAT ∧ aLP_REPLAY p.val ≠ aLP_RETRAIN p.val := by
  simp only [aLP_REPLAY, aLP_STAT, aLNK_STAT, aLP_RETRAIN]
  omega

theorem Resent.ltssm (h : Resent (.port p) s t) : t.ltssm p.val = s.ltssm p.val :=
  (t.ltssm_port p).trans ((State.fld_congr _ (h.regs _ (by simp [replayReg]))).trans (s.ltssm_port p).symm)

/-- The frames held of a port, sent again, as the statement says it. -/
structure SentAgain (p : Port) (hs : List Held) (s t : State) : Prop where
  out : t.out = s.out ++ hs.map (fun h => h.frame)
  raised : Raises 97 islLink s t
  held : (t.link p.val).held.map (fun h => (h.seq, h.frame)) = hs.map (fun h => (h.seq, h.frame))
  counted : (t.reg (aLP_REPLAY p.val)).toNat = min 0xFFFFFFFF ((s.reg (aLP_REPLAY p.val)).toNat + hs.length)
  memory : KeepsMemory s t

theorem Resent.sentAgain {held : List Held} (h : Resent (.port p) s t) (hx : (s.link p.val).held = held) : SentAgain p held s t := by
  subst hx
  exact ⟨h.out, h.raised, (congrArg (List.map fun h => (h.seq, h.frame)) (congrArg LinkState.held h.link :)).trans (Held.map_again _), h.counted, h.memory⟩

/-- The fourth resend of the oldest frame takes the port to RECOVERY with what it holds. -/
theorem SentAgain.recovering {held : List Held} (h : SentAgain p held s t) : SentAgain p held s (t.toRecovery (.port p)) := by
  have hrec := t.toRecovery_port p
  have hagenda : (t.toRecovery (.port p)).agenda = t.agenda := rfl
  generalize t.toRecovery (.port p) = v at *
  obtain ⟨-, hlnk, -⟩ := replayReg_off p
  refine ⟨(hrec.does.same .out (by decide) (by decide)).trans h.out, ?_, ?_, ?_, h.memory.trans (.of_does hrec.does (by decide))⟩
  · have hraise := h.raised
    unfold Raises at hraise ⊢
    rwa [hagenda]
  · rw [show (v.link p.val).held = (t.link p.val).held from (congrArg LinkState.held hrec.link :)]
    exact h.held
  · rw [hrec.regs _ (by simp [recoveryRegs, hlnk])]
    exact h.counted

/-! ## REPLAY_TIMEOUT -/

theorem exec_replayTimeout_due (h : s.ltOf l = ltActive) (hdue : s.replayDue l = true) : exec (.replayTimeout l) s = .next (s.resend l) :=
  congrArg Host.Outcome.next (if_pos ⟨h, hdue⟩)

theorem exec_replayTimeout_early (h : s.ltOf l ≠ ltActive ∨ s.replayDue l = false ∨ (s.link (linkKey l)).held = []) :
    exec (.replayTimeout l) s = .next s := by
  refine congrArg Host.Outcome.next (iteInduction (motive := fun t => t = s) (fun hrun => ?_) fun _ => rfl)
  obtain ⟨hlt, hdue⟩ := hrun
  rcases h with h | h | h
  · exact absurd hlt h
  · exact absurd (h.symm.trans hdue) (by decide)
  · exact State.resend_nil h

/-! ## LCTL -/

/-- The link's state once an LCTL with a good CRC has been taken in. -/
def State.acked (s : State) (p : Port) (ack : BitVec 12) (limits : Vector (BitVec 8) 4) : State :=
  s.setLink p.val { (s.link p.val).ack ack with limits := limits.toList, ackAt := s.count }

theorem State.acked_link (s : State) (p : Port) (ack : BitVec 12) (limits : Vector (BitVec 8) 4) :
    (s.acked p ack limits).link p.val = { (s.link p.val).ack ack with limits := limits.toList, ackAt := s.count } :=
  (State.setLink_link _ _ _ _).trans (if_pos rfl)

theorem exec_lctl_elsewhere {nak good : Bool} {ack : BitVec 12} {limits : Vector (BitVec 8) 4} (h : s.ltOf l ≠ ltActive) :
    exec (.lctl l nak ack limits good) s = .next s := if_pos h

theorem exec_lctl_bad {nak : Bool} {ack : BitVec 12} {limits : Vector (BitVec 8) 4} (h : s.ltssm p.val = ltActive) :
    exec (.lctl (.port p) nak ack limits false) s = .next (s.bump (aLP_CRCERR p.val)) := (if_neg fun h' => h' h).trans (if_pos rfl)

theorem exec_lctl_good {nak : Bool} {ack : BitVec 12} {limits : Vector (BitVec 8) 4} (h : s.ltssm p.val = ltActive)
    (t : State) (ht : t = if nak then (s.acked p ack limits).resend (.port p) else s.acked p ack limits) (hw : (t.link p.val).waiting = []) :
    exec (.lctl (.port p) nak ack limits true) s = .next t := by
  refine (if_neg fun h' => h' h).trans ((if_neg (by decide)).trans ?_)
  subst ht
  exact congrArg Host.Outcome.next (State.flush_nil hw _)

/-! ## LCTL_SEND -/

theorem exec_lctlSend_elsewhere (h : s.ltOf l ≠ ltActive) : exec (.lctlSend l) s = .next s := congrArg Host.Outcome.next (if_neg h)

theorem State.settleCredits_link (s : State) (p : Port) : ∃ g o, (s.settleCredits p.val).link p.val = { s.link p.val with grants := g, owed := o } :=
  ⟨_, _, (State.setLink_link _ _ _ _).trans (if_pos rfl)⟩

theorem State.settleCredits_txPower (s : State) (p : Port) : (s.settleCredits p.val).txPower p.val = s.txPower p.val := by
  rw [State.txPower_port, State.txPower_port]
  rfl

theorem exec_lctlSend_awake (h : s.sends p.val = true) : exec (.lctlSend (.port p)) s = .next ((s.settleCredits p.val).lctlNow (.port p) false) := by
  obtain ⟨hlt, hpow⟩ := Bool.and_eq_true_iff.mp h
  exact congrArg Host.Outcome.next ((if_pos (beq_iff_eq.mp hlt)).trans
    (if_pos ((s.settleCredits_txPower p).trans (beq_iff_eq.mp hpow))))

/-- The link that owes an LCTL until its transmitter has woken. -/
def State.lctlLater (s : State) (p : Port) : State :=
  s.setLink p.val { s.link p.val with lctlOwed := some (false || (s.link p.val).lctlOwed.getD false) }

theorem exec_lctlSend_asleep (h : s.ltssm p.val = ltActive) (hpow : s.txPower p.val ≠ 0) :
    exec (.lctlSend (.port p)) s = .next ((s.settleCredits p.val).lctlLater p) :=
  congrArg Host.Outcome.next ((if_pos h).trans
    (if_neg fun hz => hpow ((s.settleCredits_txPower p).symm.trans hz)))

end Sys2Proof.Machine
end

section
/-! Frames on the lanes of a link (O36; R400, R411). -/
namespace Sys2Proof.Machine

/-! ## Bytes striped over lanes -/

/-- The character on a lane's place of a frame: a byte of it, or PAD behind its end. -/
def stripeChr (bs : List Byte) (i : Nat) : Chr := match bs[i]? with
  | some b => Chr.d b
  | none => chPad

/-- The byte that a character carries. -/
def Chr.byte? : Chr → Option Byte
  | .d b => some b
  | .k _ => none

theorem stripeChr_byte (bs : List Byte) (i : Nat) : (stripeChr bs i).byte? = bs[i]? := by
  unfold stripeChr
  cases bs[i]? <;> rfl

/-- Rows of a table one after the other count through its places. -/
theorem flatten_rows {α : Type} (g : Nat → α) (w n : Nat) :
    ((List.range n).map (fun c => (List.range w).map (fun l => g (c * w + l)))).flatten = (List.range (n * w)).map g := by
  induction n with
  | zero => simp
  | succ n ih => rw [List.range_succ, List.map_append, List.flatten_append, ih, Nat.succ_mul, List.range_add, List.map_append]; simp

/-- The bytes found at the places from 0 on are the list. -/
theorem filterMap_getElem? {α : Type} (bs : List α) {n : Nat} (h : bs.length ≤ n) : (List.range n).filterMap (fun i => bs[i]?) = bs := by
  induction bs generalizing n with
  | nil => simp
  | cons b bs ih =>
    obtain ⟨m, rfl⟩ := Nat.exists_eq_add_one_of_ne_zero (Nat.ne_of_gt (Nat.lt_of_lt_of_le (Nat.succ_pos _) h))
    rw [List.range_succ_eq_map, List.filterMap_cons, List.filterMap_map]
    simpa using ih (Nat.le_of_succ_le_succ h)

/-- The columns that bytes take hold them all. -/
theorem stripe_holds {w : Nat} (hw : 1 ≤ w) (n : Nat) : n ≤ (n + (w - 1)) / w * w := by
  have hdiv := Nat.div_add_mod (n + (w - 1)) w
  have hmod := Nat.mod_lt (n + (w - 1)) hw
  rw [Nat.mul_comm] at hdiv
  omega

theorem dataBytes_append (xs ys : List Column) : dataBytes (xs ++ ys) = dataBytes xs ++ dataBytes ys := by
  simp [dataBytes]

theorem dataBytes_eq (cols : List Column) : dataBytes cols = cols.flatten.filterMap Chr.byte? := rfl

theorem dataBytes_stripe {w : Nat} (hw : 1 ≤ w) (bs : List Byte) : dataBytes (stripe w bs) = bs := by
  have hflat : (stripe w bs).flatten = (List.range ((bs.length + (w - 1)) / w * w)).map (stripeChr bs) := flatten_rows (stripeChr bs) w _
  rw [dataBytes_eq, hflat, List.filterMap_map]
  refine Eq.trans ?_ (filterMap_getElem? bs (stripe_holds hw bs.length))
  exact congrArg (fun f => List.filterMap f _) (funext (stripeChr_byte bs))

theorem dataBytes_eof (w : Nat) : dataBytes [List.replicate w chEof] = [] := by
  rw [dataBytes_eq]
  simp only [List.flatten_cons, List.flatten_nil, List.append_nil, List.filterMap_eq_nil_iff]
  intro c hc
  rw [List.eq_of_mem_replicate hc]
  rfl

/-! ## Frames -/

/-- The set that a frame begins with. -/
def startOf (w : Nat) (time : Bool) : List Column := if time then setTmk w else setSof w

theorem startOf_length (w : Nat) (time : Bool) : (startOf w time).length = 2 := by
  cases time <;> rfl

theorem frameColumns_eq (w : Nat) (time : Bool) (bs : List Byte) :
    frameColumns w time bs = startOf w time ++ (stripe w bs ++ [List.replicate w chEof]) := List.append_assoc _ _ _

theorem setSof_ne_setTmk {w : Nat} (hw : 1 ≤ w) : setTmk w ≠ setSof w := by
  obtain ⟨n, rfl⟩ := Nat.exists_eq_add_of_le hw
  intro h
  have hcol := congrArg (fun cs : List Column => (cs.getD 1 []).head?) h
  rw [Nat.add_comm] at hcol
  revert hcol
  simp [setTmk, setSof, sameOn, List.replicate_succ, kChr]

/-- What is read from the columns of a frame is the frame. -/
theorem readFrame_frameColumns {w : Nat} (hw : 1 ≤ w) (time : Bool) (bs : List Byte) :
    readFrame w (frameColumns w time bs) = some (time, bs) := by
  have htake : (frameColumns w time bs).take 2 = startOf w time := by
    rw [frameColumns_eq, List.take_append_of_le_length (Nat.le_of_eq (startOf_length w time).symm), List.take_of_length_le (by rw [startOf_length])]
  have hdrop : (frameColumns w time bs).drop 2 = stripe w bs ++ [List.replicate w chEof] := by
    rw [frameColumns_eq]
    exact List.drop_left' (startOf_length w time)
  have hdata : dataBytes ((frameColumns w time bs).drop 2) = bs := by
    rw [hdrop, dataBytes_append, dataBytes_stripe hw, dataBytes_eof, List.append_nil]
  unfold readFrame
  rw [htake, hdata]
  cases time with
  | false => exact if_pos rfl
  | true => exact (if_neg (setSof_ne_setTmk hw)).trans (if_pos rfl)

theorem stripe_length (w : Nat) (bs : List Byte) : (stripe w bs).length = (bs.length + (w - 1)) / w := by
  simp [stripe]

theorem frameColumns_length (w : Nat) (time : Bool) (bs : List Byte) : (frameColumns w time bs).length = columnsOf w bs.length := by
  rw [frameColumns_eq, List.length_append, List.length_append, startOf_length, stripe_length]
  unfold columnsOf
  simp only [List.length_singleton]
  omega

/-- Every column has a character for each lane. -/
theorem frameColumns_width (w : Nat) (time : Bool) (bs : List Byte) : ∀ c ∈ frameColumns w time bs, c.length = w := by
  intro c hc
  rw [frameColumns_eq, List.mem_append, List.mem_append] at hc
  rcases hc with hc | hc | hc
  · have hset : ∀ cs : List Chr, c ∈ sameOn w cs → c.length = w := fun cs h => by
      obtain ⟨x, -, rfl⟩ := List.mem_map.mp h
      exact List.length_replicate
    cases time with
    | false => exact hset _ hc
    | true => exact hset _ hc
  · obtain ⟨x, -, rfl⟩ := List.mem_map.mp hc
    simp
  · rw [List.mem_singleton.mp hc]
    exact List.length_replicate

/-! ## LCTL frames -/

/-- The header of an LCTL, before its CRC. -/
def lctlHead (nak : Bool) (ack : BitVec 12) (limits : List (BitVec 8)) : List Byte :=
  [0#8] ++ leBytes 1 nak.toNat ++ leBytes 2 ack.toNat ++ (List.range 4).map (fun v => limits.getD v 0)

theorem lctlBytes_eq (nak : Bool) (ack : BitVec 12) (limits : List (BitVec 8)) :
    lctlBytes nak ack limits = lctlHead nak ack limits ++ leBytes 4 (crc32 (lctlHead nak ack limits)).toNat := rfl

theorem leNat_leBytes (n v : Nat) : leNat (leBytes n v) = v % 256 ^ n := by
  induction n generalizing v with
  | zero => simp [leBytes, leNat, Nat.mod_one]
  | succ n ih =>
    rw [leBytes, leNat, ih, BitVec.toNat_ofNat, Nat.pow_succ' (m := 256)]
    exact Nat.mod_mul.symm

/-- The CRC behind a head of `n` bytes is found good. -/
theorem crc_good (head : List Byte) : let bs := head ++ leBytes 4 (crc32 head).toNat
    (crc32 (bs.take (bs.length - 4)) == BitVec.ofNat 32 (fieldAt bs (bs.length - 4) 4)) = true := by
  intro bs
  have hlen : bs.length - 4 = head.length := by
    simp only [bs, List.length_append, length_leBytes]
    omega
  have hfield : fieldAt bs head.length 4 = (crc32 head).toNat := by
    have hdrop : (bs.drop head.length).take 4 = leBytes 4 (crc32 head).toNat := by
      rw [List.drop_left]
      exact List.take_of_length_le (by rw [length_leBytes])
    unfold fieldAt
    rw [hdrop]
    exact (leNat_leBytes 4 _).trans (Nat.mod_eq_of_lt (crc32 head).isLt)
  rw [hlen, hfield, List.take_left, BitVec.ofNat_toNat, BitVec.setWidth_eq, beq_self_eq_true]

/-- An LCTL frame spells its LCTL. -/
theorem hostInstr_lctlBytes (p : Port) (key : Option (List Byte × Nat)) (open_ nak : Bool) (ack : BitVec 12) (limits : Vector (BitVec 8) 4) :
    hostInstr p key open_ (lctlBytes nak ack limits.toList) = some (.lctl (.port p) nak ack limits true) := by
  have hnak : bitAt (lctlBytes nak ack limits.toList) 1 0 = nak := by
    change (BitVec.ofNat 8 nak.toNat).toNat.testBit 0 = nak
    cases nak <;> rfl
  have hack : BitVec.ofNat 12 (fieldAt (lctlBytes nak ack limits.toList) 2 2) = ack := by
    change BitVec.ofNat 12 (leNat (leBytes 2 ack.toNat)) = ack
    rw [leNat_leBytes, Nat.mod_eq_of_lt (Nat.lt_trans ack.isLt (by decide)), BitVec.ofNat_toNat, BitVec.setWidth_eq]
  have hlimit : ∀ i : Fin 4, BitVec.ofNat 8 (byteAt (lctlBytes nak ack limits.toList) (4 + i.val)) = limits[i] := fun i => by
    have hbyte : byteAt (lctlBytes nak ack limits.toList) (4 + i.val) = (limits.toList.getD i.val 0).toNat :=
      match i with
      | 0 => rfl
      | 1 => rfl
      | 2 => rfl
      | 3 => rfl
    rw [hbyte, BitVec.ofNat_toNat, BitVec.setWidth_eq]
    simp
  have hlimits : (⟨#[BitVec.ofNat 8 (byteAt (lctlBytes nak ack limits.toList) 4), BitVec.ofNat 8 (byteAt (lctlBytes nak ack limits.toList) 5),
      BitVec.ofNat 8 (byteAt (lctlBytes nak ack limits.toList) 6), BitVec.ofNat 8 (byteAt (lctlBytes nak ack limits.toList) 7)], rfl⟩ :
      Vector (BitVec 8) 4) = limits := by
    refine Vector.ext fun i hi => ?_
    match i, hi with
    | 0, _ => exact hlimit 0
    | 1, _ => exact hlimit 1
    | 2, _ => exact hlimit 2
    | 3, _ => exact hlimit 3
  have htype : byteAt (lctlBytes nak ack limits.toList) 0 = 0 := rfl
  refine (if_pos (by rw [htype])).trans ?_
  have hcrc := crc_good (lctlHead nak ack limits.toList)
  rw [← lctlBytes_eq] at hcrc
  rw [hnak, hack, hlimits, hcrc]

end Sys2Proof.Machine
end

section
/-! Acknowledgement, replay and columns of frames: the statement (O36; R400, R411 to R413). -/
namespace Sys2Proof.Machine

variable {s t : State} {p : Port}

/-- An LCTL that asks for nothing again. -/
theorem lctl_takes {ack : BitVec 12} {limits : Vector (BitVec 8) 4} (hlt : s.ltssm p.val = ltActive) (hw : (s.link p.val).waiting = []) :
    Completes (.lctl (.port p) false ack limits true) s (fun t =>
      t.link p.val = { (s.link p.val).ack ack with limits := limits.toList, ackAt := s.count } ∧ t.out = s.out ∧ KeepsRegs [] s t ∧ KeepsMemory s t) :=
  have hlink := s.acked_link p ack limits
  ⟨s.acked p ack limits, exec_lctl_good hlt _ rfl ((congrArg LinkState.waiting hlink).trans hw), hlink, rfl, fun _ _ => rfl, .of_fields rfl rfl rfl⟩

/-- An LCTL with NAK, where frames are held beyond it. -/
theorem lctl_resends {ack : BitVec 12} {limits : Vector (BitVec 8) 4} {h : Held} {hs : List Held} (hlt : s.ltssm p.val = ltActive)
    (hw : (s.link p.val).waiting = []) (hx : ((s.link p.val).ack ack).held = h :: hs) (hn : h.resends + 1 < 4) :
    Completes (.lctl (.port p) true ack limits true) s (fun t => SentAgain p (h :: hs) s t ∧ t.ltssm p.val = ltActive ∧
      (t.link p.val).limits = limits.toList ∧ KeepsRegs [aLP_REPLAY p.val] s t) := by
  have hlink := s.acked_link p ack limits
  have hheld : ((s.acked p ack limits).link p.val).held = h :: hs := (congrArg LinkState.held hlink).trans hx
  have hresent := (s.acked p ack limits).resent_shows (.port p)
  have hwait : (((s.acked p ack limits).resent (.port p)).link p.val).waiting = [] :=
    (congrArg LinkState.waiting hresent.link).trans ((congrArg LinkState.waiting hlink).trans hw)
  refine ⟨_, exec_lctl_good hlt _ (State.resend_again hheld hn).symm hwait, ?_⟩
  have hagain := hresent.sentAgain hheld
  have hsame : (s.acked p ack limits).out = s.out ∧ (s.acked p ack limits).count = s.count ∧
      (s.acked p ack limits).ltssm p.val = s.ltssm p.val ∧ (∀ a, (s.acked p ack limits).reg a = s.reg a) ∧ KeepsMemory s (s.acked p ack limits) :=
    ⟨rfl, rfl, (State.ltssm_port _ p).trans (s.ltssm_port p).symm, fun _ => rfl, .of_fields rfl rfl rfl⟩
  obtain ⟨hout, hcount, hstate, hregs, hmem⟩ := hsame
  have hlimits : (((s.acked p ack limits).resent (.port p)).link p.val).limits = limits.toList :=
    (congrArg LinkState.limits hresent.link).trans (congrArg LinkState.limits hlink)
  generalize s.acked p ack limits = a at *
  generalize a.resent (.port p) = b at *
  refine ⟨⟨by rw [hagain.out, hout], ?_, hagain.held, by rw [hagain.counted, hregs], hmem.trans hagain.memory⟩,
    hresent.ltssm.trans (hstate.trans hlt), hlimits, fun x hx => (hresent.regs x hx).trans (hregs x)⟩
  have hraise := hagain.raised
  unfold Raises at hraise ⊢
  rwa [hcount] at hraise

/-- An LCTL with a bad CRC. -/
theorem lctl_discarded {nak : Bool} {ack : BitVec 12} {limits : Vector (BitVec 8) 4} (hlt : s.ltssm p.val = ltActive) :
    Completes (.lctl (.port p) nak ack limits false) s (fun t => t.links = s.links ∧ t.out = s.out ∧
      (t.reg (aLP_CRCERR p.val)).toNat = min 0xFFFFFFFF ((s.reg (aLP_CRCERR p.val)).toNat + 1) ∧
      KeepsRegs [aLP_CRCERR p.val] s t ∧ KeepsMemory s t) :=
  ⟨_, exec_lctl_bad hlt, rfl, rfl, State.reg_bump_toNat _ _, (KeepsRegs.refl _ s).bump (by simp), .of_fields rfl rfl rfl⟩

/-- LCTL_SEND while the transmitter is awake. -/
theorem lctlSend_now (h : s.sends p.val = true) : Completes (.lctlSend (.port p)) s (fun t =>
    t.out = s.out ++ [.lctl (.port p) false ((s.link p.val).rxNext - 1) ((s.settleCredits p.val).link p.val).grants] ∧
    (t.link p.val).held = (s.link p.val).held ∧ (t.link p.val).lctlOwed = none ∧ KeepsRegs [] s t ∧ KeepsMemory s t) := by
  obtain ⟨g, o, hlink⟩ := s.settleCredits_link p
  have hdoes : Does [.links] [] s (s.settleCredits p.val) := State.settleCredits_does
  have hout := hdoes.same .out (by decide) (by decide)
  refine ⟨_, exec_lctlSend_awake h, ?_⟩
  generalize s.settleCredits p.val = a at *
  obtain ⟨hsent, hnone, hheld, hregs, hmem⟩ := a.lctlNow_shows (.port p) false
  have hsame : (a.link p.val).held = (s.link p.val).held ∧ (a.link p.val).rxNext = (s.link p.val).rxNext := by
    rw [hlink]
    exact ⟨rfl, rfl⟩
  refine ⟨?_, hheld.trans hsame.1, hnone, (KeepsRegs.of_does hdoes (by decide) []).trans fun x _ => hregs x,
    (KeepsMemory.of_does hdoes (by decide)).trans hmem⟩
  refine hsent.trans ?_
  change a.out ++ [Out.lctl (.port p) false ((a.link p.val).rxNext - 1) (a.link p.val).grants] = _
  rw [hout, hsame.2]

/-- LCTL_SEND while the transmitter sleeps. -/
theorem lctlSend_later (hlt : s.ltssm p.val = ltActive) (hpow : s.txPower p.val ≠ 0) : Completes (.lctlSend (.port p)) s (fun t => t.out = s.out ∧
    (t.link p.val).held = (s.link p.val).held ∧ (t.link p.val).lctlOwed = some ((s.link p.val).lctlOwed.getD false) ∧ KeepsRegs [] s t ∧
    KeepsMemory s t) := by
  obtain ⟨g, o, hlink⟩ := s.settleCredits_link p
  have hdoes : Does [.links] [] s (s.settleCredits p.val) := State.settleCredits_does
  refine ⟨_, exec_lctlSend_asleep hlt hpow, ?_⟩
  generalize s.settleCredits p.val = a at *
  have hlater : (a.lctlLater p).link p.val = { a.link p.val with lctlOwed := some (false || (a.link p.val).lctlOwed.getD false) } :=
    (State.setLink_link _ _ _ _).trans (if_pos rfl)
  refine ⟨hdoes.same .out (by decide) (by decide), ?_, ?_, (KeepsRegs.of_does hdoes (by decide) []).trans fun _ _ => rfl,
    (KeepsMemory.of_does hdoes (by decide)).trans (.of_fields rfl rfl rfl)⟩
  · rw [hlater, hlink]
  · rw [hlater, hlink]
    rfl

/-- A timeout of the replay of a host port that is due. -/
theorem replayTimeout_resends {h : Held} {hs : List Held} (hlt : s.ltssm p.val = ltActive) (hdue : s.replayDue (.port p) = true)
    (hx : (s.link p.val).held = h :: hs) (hn : h.resends + 1 < 4) : Completes (.replayTimeout (.port p)) s (fun t =>
    SentAgain p (h :: hs) s t ∧ t.ltssm p.val = ltActive ∧ KeepsRegs [aLP_REPLAY p.val] s t) := by
  have hresent := s.resent_shows (.port p)
  refine ⟨_, (exec_replayTimeout_due (l := .port p) hlt hdue).trans (by rw [State.resend_again (l := .port p) hx hn]), ?_⟩
  exact ⟨hresent.sentAgain hx, hresent.ltssm.trans hlt, hresent.regs⟩

theorem replayTimeout_recovers {h : Held} {hs : List Held} (hlt : s.ltssm p.val = ltActive) (hdue : s.replayDue (.port p) = true)
    (hx : (s.link p.val).held = h :: hs) (hn : 4 ≤ h.resends + 1) : Completes (.replayTimeout (.port p)) s (fun t =>
    SentAgain p (h :: hs) s t ∧ t.ltssm p.val = ltRecovery ∧ KeepsRegs [aLP_REPLAY p.val, aLP_STAT p.val, aLNK_STAT, aLP_RETRAIN p.val] s t) := by
  have hresent := s.resent_shows (.port p)
  refine ⟨_, (exec_replayTimeout_due (l := .port p) hlt hdue).trans (by rw [State.resend_fails (l := .port p) hx hn]), ?_⟩
  generalize s.resent (.port p) = a at *
  have hrec := a.toRecovery_port p
  exact ⟨(hresent.sentAgain hx).recovering, hrec.state,
    (hresent.regs.mono (by simp [replayReg])).trans (hrec.regs.mono (by simp [recoveryRegs]))⟩

/-- A timeout of the replay of the col link. -/
theorem replayTimeout_col {h : Held} {hs : List Held} (hlt : s.ltssm 2 = ltActive) (hx : (s.link 2).held = h :: hs) (hn : h.resends + 1 < 4) :
    Completes (.replayTimeout .col) s (fun t => t.out = s.out ++ (h :: hs).map (fun h => h.frame) ∧ Raises 97 islLink s t ∧
      (t.reg aLC_REPLAY).toNat = min 0xFFFFFFFF ((s.reg aLC_REPLAY).toNat + (hs.length + 1)) ∧ KeepsRegs [aLC_REPLAY] s t ∧ KeepsMemory s t) := by
  have hresent := s.resent_shows .col
  refine ⟨_, (exec_replayTimeout_due (l := .col) hlt rfl).trans (by rw [State.resend_again (l := .col) hx hn]), ?_⟩
  generalize s.resent .col = a at *
  refine ⟨?_, hresent.raised, ?_, hresent.regs, hresent.memory⟩
  · rw [← hx]
    exact hresent.out
  · rw [show hs.length + 1 = (s.link 2).held.length by rw [hx]; rfl]
    exact hresent.counted

theorem SentAgain.replayed {held : List Held} (h : SentAgain p held s t) : t.out = s.out ++ held.map (fun h => h.frame) ∧ Raises 97 islLink s t ∧
    (t.link p.val).held.map (fun h => (h.seq, h.frame)) = held.map (fun h => (h.seq, h.frame)) ∧
    (t.reg (aLP_REPLAY p.val)).toNat = min 0xFFFFFFFF ((s.reg (aLP_REPLAY p.val)).toNat + held.length) ∧ KeepsMemory s t :=
  ⟨h.out, h.raised, h.held, h.counted, h.memory⟩

/-- Settles O36: a resend changes what is held by its count alone, and the lanes of a frame carry its bytes in their order. -/
theorem replay : Obligations.Replay := by
  unfold Obligations.Replay
  refine ⟨?links, ?frames⟩
  case links =>
    intro p ack limits nak h hs s k x l again
    refine ⟨fun hlt hw => lctl_takes hlt hw, fun hlt hw hx hn => ?_, fun hlt => lctl_discarded hlt, fun hsends => lctlSend_now hsends,
      fun hlt hpow => lctlSend_later hlt hpow, fun hlt hdue hx hn => ?_, fun hlt hdue hx hn => ?_, fun h => ⟨s, exec_replayTimeout_early h, rfl⟩,
      fun hlt c hc => ?_, fun hlt hx hn => replayTimeout_col hlt hx hn⟩
    · obtain ⟨t, ht, hagain, hrest⟩ := lctl_resends (limits := limits) hlt hw hx hn
      exact ⟨t, ht, hagain.replayed, hrest⟩
    · obtain ⟨t, ht, hagain, hrest⟩ := replayTimeout_resends hlt hdue hx hn
      exact ⟨t, ht, hagain.replayed, hrest⟩
    · obtain ⟨t, ht, hagain, hrest⟩ := replayTimeout_recovers hlt hdue hx hn
      exact ⟨t, ht, hagain.replayed, hrest⟩
    · rcases List.mem_pair.mp hc with rfl | rfl
      · exact ⟨s, exec_lctl_elsewhere hlt, rfl⟩
      · exact ⟨s, exec_lctlSend_elsewhere hlt, rfl⟩
  case frames =>
    intro p ack limits nak open_ time key w bs
    exact ⟨hostInstr_lctlBytes p key open_ nak ack limits, fun hw => ⟨readFrame_frameColumns hw time bs, frameColumns_length w time bs,
      frameColumns_width w time bs⟩⟩

end Sys2Proof.Machine
end

section
/-! The loader of the structure stream: refusals, and checks that begin and end (O38; R438, R439, R444, R446). -/
namespace Sys2Proof.Machine

variable {s t u : State} {by_ : Issuer}

/-! ## A refusal -/

/-- What a refusal of a stream shows (R438, R446). -/
structure StrRefused (cause : Nat) (s t : State) : Prop where
  str : t.str = s.str
  cause : t.fld aSTR_STAT fSTR_STAT_CAUSE = cause
  low : ∀ f : Fld, f.hi < 24 → t.fld aSTR_STAT f = s.fld aSTR_STAT f
  latched : t.bit aSTR_LAT fSTR_LAT_REJ = true
  raised : Raises 6 islManagement s t
  regs : KeepsRegs [aSTR_STAT, aSTR_FOFF, aSTR_FOFF + 4, aSTR_LAT] s t
  memory : KeepsMemory s t

/-- The cause, the section and the offset of a refusal, shown. -/
def State.causeShown (s : State) (r : Refused) : State :=
  ((s.setFld aSTR_STAT fSTR_STAT_CAUSE r.1).setFld aSTR_STAT fSTR_STAT_SECTION r.2.1).setWide aSTR_FOFF 2 r.2.2

theorem State.causeShown_shows (s : State) (r : Refused) : (s.causeShown r).fld aSTR_STAT fSTR_STAT_CAUSE = r.1 % 16 ∧
    (∀ f : Fld, f.hi < 24 → (s.causeShown r).fld aSTR_STAT f = s.fld aSTR_STAT f) ∧
    KeepsRegs [aSTR_STAT, aSTR_FOFF, aSTR_FOFF + 4] s (s.causeShown r) := by
  have hwide : KeepsRegs [aSTR_FOFF, aSTR_FOFF + 4] ((s.setFld aSTR_STAT fSTR_STAT_CAUSE r.1).setFld aSTR_STAT fSTR_STAT_SECTION r.2.1)
      (s.causeShown r) := (KeepsRegs.refl _ _).setWide_two (by simp) (by simp) _
  have hstat := hwide aSTR_STAT (by decide)
  refine ⟨?_, fun f hf => ?_, ?_⟩
  · refine (State.fld_congr _ hstat).trans ?_
    exact (State.fld_setFld_beside _ _ _ _ _ (by decide) (by decide) (by decide)).trans (State.fld_setFld_self _ _ _ _ (by decide) (by decide))
  · refine (State.fld_congr _ hstat).trans ?_
    have hsec : f.hi < fSTR_STAT_SECTION.lo ∨ fSTR_STAT_SECTION.hi < f.lo := .inl hf
    have hcause : f.hi < fSTR_STAT_CAUSE.lo ∨ fSTR_STAT_CAUSE.hi < f.lo := .inl (Nat.lt_trans hf (by decide))
    exact (State.fld_setFld_beside _ _ _ _ _ (by decide) (by decide) hsec).trans
      (State.fld_setFld_beside _ _ _ _ _ (by decide) (by decide) hcause)
  · exact (((KeepsRegs.refl _ s).setFld (by simp) _ _).setFld (by simp) _ _).setWide_two (by simp) (by simp) _

theorem State.strRefuse_shows (s : State) (r : Refused) : StrRefused (r.1 % 16) s (s.strRefuse r) := by
  obtain ⟨hcause, hlow, hregs⟩ := s.causeShown_shows r
  have hall : Does [.agenda, .fresh] [17] s (s.strRefuse r) := State.strRefuse_does
  have heq : s.strRefuse r = ((s.causeShown r).latch aSTR_LAT fSTR_LAT_REJ).raise 6 islManagement := rfl
  have hcount : (s.causeShown r).count = s.count := rfl
  rw [heq] at hall ⊢
  generalize s.causeShown r = a at *
  have hlat := a.bit_latch_self aSTR_LAT fSTR_LAT_REJ rfl (by decide)
  have hkeeps : KeepsRegs [aSTR_LAT] a (a.latch aSTR_LAT fSTR_LAT_REJ) := (KeepsRegs.refl _ a).latch (by simp) _
  have hcount' : (a.latch aSTR_LAT fSTR_LAT_REJ).count = a.count := rfl
  generalize a.latch aSTR_LAT fSTR_LAT_REJ = b at *
  have hstat := hkeeps aSTR_STAT (by decide)
  exact {
    str := hall.same .str (by decide) (by decide)
    cause := (State.fld_congr (t := b) _ hstat).trans hcause
    low := fun f hf => (State.fld_congr (t := b) f hstat).trans (hlow f hf)
    latched := hlat
    raised := raises_of_count (hcount'.trans hcount) 6 islManagement
    regs := (hregs.mono (by simp)).trans (hkeeps.mono (by simp))
    memory := .of_does hall (by decide) }

/-! ## A check that begins -/

/-- What the beginning of a check leaves (R438, R439). -/
structure CheckBegun (ws : List (BitVec 64)) (src q : Nat) (boot : Bool) (s t : State) : Prop where
  busy : t.bit aSTR_STAT fSTR_STAT_BUSY = true
  checking : t.str.checking = ws
  source : t.str.src = src
  qmask : t.str.qmask = q
  booting : t.str.boot = boot
  words : t.str.words = s.str.words
  agenda : t.agenda = s.agenda
  regs : KeepsRegs [aSTR_STAT] s t
  memory : KeepsMemory s t

theorem State.startCheck_shows (s : State) (ws : List (BitVec 64)) (src q : Nat) (range : Option (Nat × Nat × Nat)) (boot : Bool) :
    CheckBegun ws src q boot s (s.startCheck ws src q range boot) where
  busy := by
    refine (State.bit_setFld_beside _ _ _ _ _ (by decide) (by decide) (by decide)).trans ?_
    exact (State.bit_setBit_beside _ _ _ _ _ (by decide) (by decide) (by decide)).trans (State.bit_setBit_self _ _ _ _ rfl (by decide))
  checking := rfl
  source := rfl
  qmask := rfl
  booting := rfl
  words := rfl
  agenda := rfl
  regs := (((KeepsRegs.refl _ s).setBit (by simp) _ _).setBit (by simp) _ _).setFld (by simp) _ _
  memory := .of_does State.startCheck_does (by decide)

/-! ## STR_LOAD -/

/-- A load that R438 and R439 let begin. -/
def State.mayLoad (s : State) (q : BitVec 4) : Prop := s.bit aSTR_STAT fSTR_STAT_BUSY = false ∧ (q = 0 ↔ s.strInForce = false)

theorem not_refused_of_mayLoad {q : BitVec 4} (h : s.mayLoad q) :
    ¬ (s.bit aSTR_STAT fSTR_STAT_BUSY = true ∨ (q = 0 ∧ s.strInForce = true) ∨ (q ≠ 0 ∧ (!s.strInForce) = true)) := by
  obtain ⟨hbusy, hmask⟩ := h
  rintro (hb | ⟨hq, hf⟩ | ⟨hq, hf⟩)
  · exact absurd (hbusy.symm.trans hb) (by decide)
  · exact absurd ((hmask.mp hq).symm.trans hf) (by decide)
  · exact hq (hmask.mpr (by simpa using hf))

variable {src : BitVec 2} {q : BitVec 4}

theorem exec_strLoad_refused (h : s.bit aSTR_STAT fSTR_STAT_BUSY = true ∨ (q = 0 ∧ s.strInForce = true) ∨ (q ≠ 0 ∧ s.strInForce = false)) :
    exec (.strLoad by_ src q) s = .next (s.strRefuse (9, 0, 0)) :=
  if_pos (h.imp id (Or.imp id (And.imp id fun hf => by simp [hf])))

theorem exec_strLoad_slot (h : s.mayLoad q) (hslot : s.str.startSlot ≠ []) :
    exec (.strLoad by_ 2 q) s = .next (s.startCheck s.str.startSlot 2 q.toNat none false) :=
  (if_neg (not_refused_of_mayLoad h)).trans ((if_pos rfl).trans (congrArg Host.Outcome.next (if_neg (by simpa using hslot))))

theorem exec_strLoad_empty (h : s.mayLoad q) (hslot : s.str.startSlot = []) : exec (.strLoad by_ 2 q) s = .next (s.strRefuse (10, 0, 0)) :=
  (if_neg (not_refused_of_mayLoad h)).trans ((if_pos rfl).trans (congrArg Host.Outcome.next (if_pos (by simp [hslot]))))

theorem exec_strLoad_reference (h : s.mayLoad q) : exec (.strLoad by_ 3 q) s = .next (s.startCheck referenceStream 3 q.toNat none false) :=
  (if_neg (not_refused_of_mayLoad h)).trans ((if_neg (by decide)).trans (if_pos rfl))

/-- The host space that a load reads from. -/
theorem loadSpace (hsrc : src.toNat < 2) : src ≠ 2 ∧ src ≠ 3 ∧ (if src = 0 then 1 else 2) = src.toNat + 1 := by
  revert hsrc
  revert src
  decide

theorem exec_strLoad_outside (h : s.mayLoad q) (hsrc : src.toNat < 2) (hok : s.sourceOk (src.toNat + 1) (s.wide aSTR_ADDR 2) 8 = false) :
    exec (.strLoad by_ src q) s = .next (s.strRefuse (10, 0, 0)) := by
  obtain ⟨h2, h3, hsp⟩ := loadSpace hsrc
  refine (if_neg (not_refused_of_mayLoad h)).trans ((if_neg h2).trans ((if_neg h3).trans ?_))
  rw [hsp]
  exact if_pos (by rw [hok]; rfl)

theorem exec_strLoad_space {len : Nat} (h : s.mayLoad q) (hsrc : src.toNat < 2) (hmax : len ≤ 2097153)
    (hok : s.sourceOk (src.toNat + 1) (s.wide aSTR_ADDR 2) 8 = true)
    (hlen : max 8 (wbits ((nats (s.spaceWords (src.toNat + 1) (s.wide aSTR_ADDR 2) 2)).getD 1 0) 31 0) = len)
    (hall : s.sourceOk (src.toNat + 1) (s.wide aSTR_ADDR 2) len = true) : exec (.strLoad by_ src q) s =
      .next (s.startCheck (s.spaceWords (src.toNat + 1) (s.wide aSTR_ADDR 2) len) src.toNat q.toNat
        (some (src.toNat + 1, s.wide aSTR_ADDR 2, 8 * len)) false) := by
  obtain ⟨h2, h3, hsp⟩ := loadSpace hsrc
  refine (if_neg (not_refused_of_mayLoad h)).trans ((if_neg h2).trans ((if_neg h3).trans ?_))
  rw [hsp]
  refine (if_neg (by rw [hok]; decide)).trans ?_
  simp only [hlen]
  rw [if_neg (by rw [hall]; decide), Nat.min_eq_left hmax]

/-! ## STR_ABORT -/

/-- What a discard leaves (R444). -/
structure CheckDropped (s t : State) : Prop where
  busy : t.bit aSTR_STAT fSTR_STAT_BUSY = false
  checked : t.bit aSTR_STAT fSTR_STAT_CHECKED = false
  str : t.str = { s.str with checking := [], range := none, qmask := 0, bad := false, boot := false }
  agenda : t.agenda = s.agenda
  count : t.count = s.count
  regs : KeepsRegs [aSTR_STAT] s t
  memory : KeepsMemory s t

theorem State.dropChecked_shows (s : State) : CheckDropped s s.dropChecked where
  busy := by
    refine (State.bit_setFld_beside _ _ _ _ _ (by decide) (by decide) (by decide)).trans ?_
    exact (State.bit_setBit_beside _ _ _ _ _ (by decide) (by decide) (by decide)).trans (State.bit_setBit_self _ _ _ _ rfl (by decide))
  checked := by
    refine (State.bit_setFld_beside _ _ _ _ _ (by decide) (by decide) (by decide)).trans ?_
    exact State.bit_setBit_self _ _ _ _ rfl (by decide)
  str := rfl
  agenda := rfl
  count := rfl
  regs := (((KeepsRegs.refl _ s).setBit (by simp) _ _).setBit (by simp) _ _).setFld (by simp) _ _
  memory := .of_does State.dropChecked_does (by decide)

end Sys2Proof.Machine
end

section
/-! What comes into force with a stream: the loader's words, the twin's state and the status (O38; R440, R443). -/
namespace Sys2Proof.Machine

variable {s t u : State} {a b : Nat}

/-! ## One register kept -/

/-- A register is as it was. -/
def KeepsReg (a : Nat) (s t : State) : Prop := t.reg a = s.reg a

theorem KeepsReg.refl : KeepsReg a s s := rfl

theorem KeepsReg.trans (h : KeepsReg a s t) (g : KeepsReg a t u) : KeepsReg a s u := Eq.trans g h

theorem KeepsReg.of_regs (h : ∀ x, t.reg x = s.reg x) : KeepsReg a s t := h a

theorem KeepsReg.setReg (h : KeepsReg a s t) (hne : a ≠ b) (w : Word) : KeepsReg a s (t.setReg b w) := (State.reg_setReg_ne _ _ hne).trans h

theorem KeepsReg.setFld (h : KeepsReg a s t) (hne : a ≠ b) (f : Fld) (v : Nat) : KeepsReg a s (t.setFld b f v) :=
  (State.reg_setFld_ne _ _ _ hne).trans h

theorem KeepsReg.foldl_mem {α : Type} {f : State → α → State} {l : List α} (hf : ∀ x ∈ l, ∀ t : State, KeepsReg a t (f t x))
    (h : KeepsReg a s t) : KeepsReg a s (l.foldl f t) := by
  induction l generalizing t with
  | nil => exact h
  | cons x xs ih => exact ih (fun y hy => hf y (List.mem_cons_of_mem x hy)) (h.trans (hf x List.mem_cons_self t))

theorem KeepsReg.foldl {α : Type} {f : State → α → State} (hf : ∀ (t : State) (x : α), KeepsReg a t (f t x)) (l : List α) (h : KeepsReg a s t) :
    KeepsReg a s (l.foldl f t) := KeepsReg.foldl_mem (fun x _ t => hf t x) h

theorem KeepsReg.of_does {ps : List Part} {bs : List Nat} (h : Does ps bs s t) (hps : .regs ∉ ps) (hb : regBlk a ∉ bs) : KeepsReg a s t :=
  h.regs hps a hb

/-! ## The twin's status under the records of a stream -/

/-- A register of a pin island is not the twin's status. -/
theorem twnStat_ne_island {n : Nat} (h : 0x4000000 ≤ n) : aTWN_STAT ≠ n := by
  unfold aTWN_STAT
  omega

theorem chanRegs_island (n c : Nat) : ∀ x ∈ [aCH_MODE n c, aCH_PERIOD n c, aCH_PHASE n c, aCH_DT n c], aTWN_STAT ≠ x := by
  intro x hx
  refine twnStat_ne_island ?_
  simp only [List.mem_cons, List.not_mem_nil, or_false, aCH_MODE, aCH_PERIOD, aCH_PHASE, aCH_DT] at hx
  omega

theorem KeepsReg.chanDefaults (n c : Nat) : KeepsReg aTWN_STAT s (s.chanDefaults n c) := by
  unfold State.chanDefaults
  have hne := chanRegs_island n c
  generalize [aCH_MODE n c, aCH_PERIOD n c, aCH_PHASE n c, aCH_DT n c] = l at *
  exact KeepsReg.foldl_mem (fun x hx t => KeepsReg.refl.setReg (hne x hx) (regReset x)) KeepsReg.refl

theorem KeepsReg.regrid (ch : Nat) : KeepsReg a s (s.regrid ch) := rfl

theorem KeepsReg.setIsland (r : SRec) : KeepsReg aTWN_STAT s (s.setIsland r) := by
  have hstat := fun n => twnStat_ne_island (n := aISL_STAT n) (by simp only [aISL_STAT]; omega)
  have hfloor := fun n c => twnStat_ne_island (n := aCH_DTFLOOR n c) (by simp only [aCH_DTFLOOR]; omega)
  have hpin := fun n p => twnStat_ne_island (n := aPIN_STAT n p) (by simp only [aPIN_STAT]; omega)
  have hbind := fun n p => twnStat_ne_island (n := aMON_BIND n p) (by simp only [aMON_BIND]; omega)
  have hcfg := fun n p => twnStat_ne_island (n := aPIN_CFG n p) (by simp only [aPIN_CFG]; omega)
  unfold State.setIsland
  extract_lets n s1 s2
  have h2 : KeepsReg aTWN_STAT s s2 := KeepsReg.foldl
    (fun t c => ((KeepsReg.chanDefaults n c).trans (KeepsReg.regrid (chanOf n c))).setReg (hfloor _ _) _)
    _ (KeepsReg.refl.setFld (hstat _) _ _)
  refine KeepsReg.foldl (fun t p => ?_) _ h2
  have h1 := fun st v cfg => (((KeepsReg.refl (s := t)).setReg (hpin n p) st).setFld (hbind n p) fMON_BIND_INH v).setReg (hcfg n p) cfg
  exact iteInduction (fun _ => (h1 _ _ _).setReg (hfloor _ _) _) (fun _ => h1 _ _ _)

theorem KeepsReg.setRoute (r : SRec) : KeepsReg aTWN_STAT s (s.setRoute r) := by
  have hbind := fun n p => twnStat_ne_island (n := aMON_BIND n p) (by simp only [aMON_BIND]; omega)
  exact (KeepsReg.refl.setFld (hbind _ _) _ _).setFld (hbind _ _) _ _

theorem KeepsReg.setXbar (r : SRec) : KeepsReg aTWN_STAT s (s.setXbar r) := .of_does State.setXbar_does (by decide) (by decide)

/-- The monitor bindings of an island cleared. -/
theorem KeepsReg.bindsCleared (n : Nat) : KeepsReg aTWN_STAT s ((List.range 26).foldl (fun s m => s.setReg (aMON_BIND n m) 0) s) :=
  KeepsReg.foldl (fun t m => KeepsReg.refl.setReg (twnStat_ne_island (by simp only [aMON_BIND]; omega)) 0) _ KeepsReg.refl

theorem KeepsReg.setT6 (n : Nat) : KeepsReg aTWN_STAT s (s.setT6 n) :=
  KeepsReg.foldl (fun _ _ => KeepsReg.setRoute _) _ (((KeepsReg.bindsCleared n).trans (KeepsReg.setIsland _)).trans (KeepsReg.setXbar _))

theorem KeepsReg.setGangOf (ws : List Nat) (ch : Nat) : KeepsReg aTWN_STAT s (s.setGangOf ws ch) := by
  have hset : ∀ n k, KeepsReg aTWN_STAT s (s.setGang ch n k) := fun n k => by
    have hch := twnStat_ne_island (n := aCH_STAT (islOf ch) (locOf ch)) (by simp only [aCH_STAT]; omega)
    have hloop : aTWN_STAT ≠ aLCH_STAT ch := by
      simp only [aTWN_STAT, aLCH_STAT]
      omega
    exact (((KeepsReg.refl.setFld hch _ _).setFld hch _ _).setFld hch _ _).setFld hloop _ _
  unfold State.setGangOf
  split
  · exact hset _ _
  · exact hset _ _

theorem KeepsReg.setLoopOf (ws : List Nat) (ch : Nat) : KeepsReg aTWN_STAT s (s.setLoopOf ws ch) := .of_does State.setLoopOf_does (by decide) (by decide)

theorem KeepsReg.setTwinSection (ws : List Nat) : KeepsReg aTWN_STAT s (s.setTwinSection ws false) := by
  have hmask : ∀ k, aTWN_STAT ≠ aTWN_COLMASK k ∧ aTWN_STAT ≠ aTWN_BLMASK k := fun k => by
    simp only [aTWN_STAT, aTWN_COLMASK, aTWN_BLMASK]
    omega
  unfold State.setTwinSection
  extract_lets w half s1 s2 s3
  have h1 : KeepsReg aTWN_STAT s s1 := ((((KeepsReg.refl.setReg (by decide) _).setReg (by decide) _).setReg (by decide) _).setReg (by decide)
    _).setReg (by decide) _
  have h2 : KeepsReg aTWN_STAT s s2 := KeepsReg.foldl (fun t k => (((KeepsReg.refl.setReg (hmask _).1 _).setReg (hmask _).1 _).setReg (hmask _).2
    _).setReg (hmask _).2 _) _ h1
  exact (h2.setFld (by decide) _ _).setReg (by decide) _

end Sys2Proof.Machine
end

section
/-! Streams that come into force, by a load and by an apply (O38; R440, R442, R443). -/
namespace Sys2Proof.Machine

variable {s t u : State} {ws : List Nat}

/-! ## In force -/

/-- What a stream that comes into force shows of the loader. -/
structure InForce (s t : State) : Prop where
  busy : t.bit aSTR_STAT fSTR_STAT_BUSY = false
  checked : t.bit aSTR_STAT fSTR_STAT_CHECKED = false
  state : t.fld aSTR_STAT fSTR_STAT_STATE = 1
  words : t.str.words = s.str.checking
  checking : t.str.checking = []

/-- STR_STAT of a stream that comes into force, its refusal's fields as they were. -/
def forceWord (w : Word) (ref : Nat) : Word :=
  putF (putF (putF (putF (putF w fSTR_STAT_STATE 1) fSTR_STAT_REF ref) fSTR_STAT_CHECKED 0) fSTR_STAT_BUSY 0) fSTR_STAT_QMASK 0

theorem forceWord_flds (w : Word) (ref : Nat) : getF (forceWord w ref) fSTR_STAT_STATE = 1 ∧ getF (forceWord w ref) fSTR_STAT_CHECKED = 0 ∧
    getF (forceWord w ref) fSTR_STAT_BUSY = 0 := by
  unfold forceWord
  refine ⟨?_, ?_, ?_⟩
  · rw [getF_putF_ne _ _ _ _ (by decide) (by decide) (by decide), getF_putF_ne _ _ _ _ (by decide) (by decide) (by decide),
      getF_putF_ne _ _ _ _ (by decide) (by decide) (by decide), getF_putF_ne _ _ _ _ (by decide) (by decide) (by decide),
      getF_putF_self _ _ _ (by decide) (by decide)]
    rfl
  · rw [getF_putF_ne _ _ _ _ (by decide) (by decide) (by decide), getF_putF_ne _ _ _ _ (by decide) (by decide) (by decide),
      getF_putF_self _ _ _ (by decide) (by decide)]
    rfl
  · rw [getF_putF_ne _ _ _ _ (by decide) (by decide) (by decide), getF_putF_self _ _ _ (by decide) (by decide)]
    rfl

/-- The state while it takes a stream: its digests, its image, its count and its status stand. -/
def State.streamShown (s : State) (ws : List Nat) (reference : Bool) : State :=
  let s1 := ((s.showStream ws).writeImage ws).bump aSTR_LOADS
  (if scopeOf ws = 1 && !reference then s1.causeOff 7 0 else s1).setReg aSTR_STAT (forceWord (s1.reg aSTR_STAT) reference.toNat)

theorem State.streamShown_shows (s : State) (ws : List Nat) (reference : Bool) :
    (∃ w, (s.streamShown ws reference).reg aSTR_STAT = forceWord w reference.toNat) ∧ (s.streamShown ws reference).str = s.str := by
  unfold State.streamShown
  extract_lets s1
  have h1 : Does [.sram, .fresh] [17] s s1 :=
    Does.bump adr_STR_LOADS (by decide) (State.writeImage_does.call (by decide) (State.showStream_does.call (by decide) Does.refl))
  refine ⟨⟨_, State.reg_setReg_self _ _ _⟩, Eq.trans ?_ (h1.same .str (by decide) (by decide))⟩
  exact iteInduction (motive := fun t : State => (t.setReg aSTR_STAT _).str = s1.str) (fun _ => rfl) (fun _ => rfl)

/-- The loader's part of a stream that comes into force. -/
def State.wordsTaken (s : State) (ws : List Nat) : State :=
  { s with str := { s.str with
      words := s.str.checking, version := BitVec.ofNat 32 (wbits (ws.getD 2 0) 31 0), checking := [], range := none
      qmask := 0, bad := false, boot := false, policy := policyOf ws } }

theorem State.inForce_eq (s : State) (op : Nat) (ws : List Nat) (reference : Bool) : s.inForce op ws reference =
    (((s.streamShown ws reference).wordsTaken ws).archiveStream (s.streamShown ws reference).str.checking).logStream op := rfl

theorem State.inForce_shows (s : State) (op : Nat) (ws : List Nat) (reference : Bool) : InForce s (s.inForce op ws reference) := by
  obtain ⟨⟨w, hreg⟩, hstr⟩ := s.streamShown_shows ws reference
  rw [State.inForce_eq]
  generalize s.streamShown ws reference = a at *
  have htaken : (a.wordsTaken ws).reg aSTR_STAT = a.reg aSTR_STAT ∧ (a.wordsTaken ws).str.words = a.str.checking ∧
      (a.wordsTaken ws).str.checking = [] := ⟨rfl, rfl, rfl⟩
  obtain ⟨htreg, htwords, htchecking⟩ := htaken
  generalize a.wordsTaken ws = b at *
  have hlog : Does [.mgt] [16] b ((b.archiveStream a.str.checking).logStream op) :=
    State.logStream_does.call (by decide) (State.archiveStream_does.call (by decide) Does.refl)
  generalize (b.archiveStream a.str.checking).logStream op = c at *
  have hcreg : c.reg aSTR_STAT = forceWord w reference.toNat := (hlog.regs (by decide) _ (by decide)).trans (htreg.trans hreg)
  have hcstr : c.str = b.str := hlog.same .str (by decide) (by decide)
  obtain ⟨hstate, hchecked, hbusy⟩ := forceWord_flds w reference.toNat
  exact {
    busy := by unfold State.bit State.fld; rw [hcreg, hbusy]; rfl
    checked := by unfold State.bit State.fld; rw [hcreg, hchecked]; rfl
    state := by unfold State.fld; rw [hcreg, hstate]
    words := by rw [hcstr, htwords, hstr]
    checking := by rw [hcstr, htchecking] }

theorem InForce.of_does {ps : List Part} {bs : List Nat} (h : InForce s t) (hd : Does ps bs t u) (hps : .regs ∉ ps) (hb : regBlk aSTR_STAT ∉ bs)
    (hstr : .str ∉ ps) : InForce s u := by
  have hreg := hd.regs hps aSTR_STAT hb
  have hsame : u.str = t.str := hd.same .str hstr (by decide)
  exact ⟨(State.bit_congr _ hreg).trans h.busy, (State.bit_congr _ hreg).trans h.checked, (State.fld_congr _ hreg).trans h.state,
    by rw [hsame, h.words], by rw [hsame, h.checking]⟩

theorem InForce.of_checking (h : InForce s t) (hs : s.str.checking = u.str.checking) : InForce u t :=
  ⟨h.busy, h.checked, h.state, h.words.trans hs, h.checking⟩

/-! ## A full load -/

/-- The module cleared for a load: no plain contents, no task, the plain placed anew. -/
def State.fullCleared (s : State) (ws : List Nat) : State :=
  { s with sram := [], tasks := [], str := { s.str with plain := ((recsOf ws 6 1).head?.map plainBases).getD [] } }

/-- The ISLAND, XBAR and EVENT records of a load. -/
def State.fullIslands (s : State) (ws : List Nat) (src : Nat) : State :=
  let s3 := (recsOf ws 7 1).foldl State.setRoute ((recsOf ws 2 1).foldl State.setXbar ((recsOf ws 1 1).foldl State.setIsland s))
  if src = 3 then (List.range 64).foldl State.setT6 s3 else s3

/-- The other sections of a load. -/
def State.fullSections (s : State) (ws : List Nat) : State :=
  let s5 := (List.range 256).foldl (fun s ch => (s.setGangOf ws ch).setLoopOf ws ch) s
  (recsOf ws 5 4).foldl State.bindTask (((((((s5.setEngines ws).setSched ws).setMemory ws).setFaults ws).setAcq ws)).setTwinSection ws true)

theorem State.fullIslands_does (ws : List Nat) (src : Nat) : Does [.regs, .chans] [] s (s.fullIslands ws src) := by
  have h3 : Does [.regs, .chans] [] s ((recsOf ws 7 1).foldl State.setRoute ((recsOf ws 2 1).foldl State.setXbar
      ((recsOf ws 1 1).foldl State.setIsland s))) :=
    Does.foldl (fun _ _ => State.setRoute_does.call (by decide) Does.refl) (Does.foldl (fun _ _ => State.setXbar_does.call (by decide) Does.refl)
      (Does.foldl (fun _ _ => State.setIsland_does) Does.refl))
  exact Does.ite (fun _ => Does.foldl (fun _ _ => State.setT6_does) h3) (fun _ => h3)

theorem State.fullSections_does (ws : List Nat) : Does [.regs, .loops, .acq, .sram, .tasks] [] s (s.fullSections ws) := by
  have h5 : Does [.regs, .loops, .acq, .sram, .tasks] [] s ((List.range 256).foldl (fun s ch => (s.setGangOf ws ch).setLoopOf ws ch) s) :=
    Does.foldl (fun _ _ => State.setLoopOf_does.call (by decide) (State.setGangOf_does.call (by decide) Does.refl)) Does.refl
  exact Does.foldl (fun _ _ => State.bindTask_does.call (by decide) Does.refl) (State.setTwinSection_does.call (by decide)
    (State.setAcq_does.call (by decide) (State.setFaults_does.call (by decide) (State.setMemory_does.call (by decide)
      (State.setSched_does.call (by decide) (State.setEngines_does.call (by decide) h5))))))

/-- The state of a load before its stream is in force. -/
def State.fullSet (s : State) (ws : List Nat) (src : Nat) : State := ((s.fullCleared ws).fullIslands ws src).fullSections ws

theorem State.fullSet_checking (s : State) (ws : List Nat) (src : Nat) : (s.fullSet ws src).str.checking = s.str.checking := by
  have hcleared : (s.fullCleared ws).str.checking = s.str.checking := rfl
  unfold State.fullSet
  generalize s.fullCleared ws = a at *
  have hset := (State.fullSections_does ws).call (s := a) (by decide : within _ _ [.regs, .loops, .acq, .sram, .tasks, .chans] [] = true)
    ((State.fullIslands_does ws src).mono (by decide))
  have hstr : ((a.fullIslands ws src).fullSections ws).str = a.str := hset.same .str (by decide) (by decide)
  rw [hstr, hcleared]

theorem State.applyFull_eq (s : State) : s.applyFull =
    ((s.fullSet (nats s.str.checking) s.str.src).inForce 1 (nats s.str.checking) (s.str.src == 3)).negotiate := rfl

theorem State.negotiate_twin (s : State) : s.negotiate.twin = twNegotiate := by
  have hset := s.setTwin_twin (st := twNegotiate) (by decide)
  have heq : s.negotiate = { (s.setTwin twNegotiate).sendHello with
    twn := { (s.setTwin twNegotiate).sendHello.twn with negFrom := some s.count } } := rfl
  rw [heq]
  generalize s.setTwin twNegotiate = a at *
  have hsent : Does [.out, .links] [] a a.sendHello := State.sendHello_does
  exact (State.fld_congr fTWN_STAT_STATE (hsent.regs (by decide) aTWN_STAT (by simp))).trans hset

/-- What a full load leaves (R440). -/
theorem State.applyFull_shows (s : State) : InForce s s.applyFull ∧ s.applyFull.twin = twNegotiate ∧ s.applyFull.hbmMem = s.hbmMem ∧
    s.applyFull.spill = s.spill := by
  have hall : Does [.regs, .causes, .fresh, .out, .sram, .chans, .loops, .tasks, .acq, .twn, .links, .str, .mgt] [] s s.applyFull :=
    State.applyFull_does
  refine ⟨?_, ?_, hall.same .hbmMem (by decide) (by decide), hall.same .spill (by decide) (by decide)⟩
  · rw [State.applyFull_eq]
    have hforce := (s.fullSet (nats s.str.checking) s.str.src).inForce_shows 1 (nats s.str.checking) (s.str.src == 3)
    have hset := s.fullSet_checking (nats s.str.checking) s.str.src
    generalize (s.fullSet (nats s.str.checking) s.str.src).inForce 1 (nats s.str.checking) (s.str.src == 3) = a at *
    exact (hforce.of_checking hset).of_does State.negotiate_does (by decide) (by decide) (by decide)
  · rw [State.applyFull_eq]
    exact State.negotiate_twin _

/-! ## A reload of quadrants -/

/-- The ISLAND, XBAR and EVENT records of a reload. -/
def State.quadIslands (s : State) (ws : List Nat) (q src : Nat) : State :=
  let isl (r : SRec) : Bool := islInQuads q (wbits (r.w 0) 5 0)
  let clear (s : State) (n : Nat) : State :=
    if islInQuads q n then (List.range 26).foldl (fun s m => s.setReg (aMON_BIND n m) 0) s else s
  let s3 := ((recsOf ws 7 1).filter isl).foldl State.setRoute (((recsOf ws 2 1).filter isl).foldl State.setXbar
    (((recsOf ws 1 1).filter isl).foldl State.setIsland ((List.range 64).foldl clear s)))
  if src = 3 then (List.range 64).foldl (fun s n => if islInQuads q n then s.setT6 n else s) s3 else s3

/-- The channels, tasks, engines and twin section of a reload. -/
def State.quadSections (s : State) (ws old : List Nat) (q : Nat) : State :=
  let s4 := (List.range 256).foldl (fun s ch => if inQuads q ch then (s.setGangOf ws ch).setLoopOf ws ch else s) s
  let inQ (r : SRec) : Bool := inQuads q (wbits (r.w 0) 23 16)
  let stays (other : List SRec) (r : SRec) : Bool := other.any (fun x => x.words == r.words)
  let s5 := ((recsOf old 5 4).filter (fun r => inQ r && !(stays (recsOf ws 5 4) r))).foldl (fun s r => s.setTask (wbits (r.w 0) 47 32) {}) s4
  let s6 := ((recsOf ws 5 4).filter (fun r => inQ r && !(stays (recsOf old 5 4) r))).foldl State.bindTask s5
  (s6.setEngines ws).setTwinSection ws false

theorem State.applyQuads_eq (s : State) : s.applyQuads =
    ((s.quadIslands (nats s.str.checking) s.str.qmask s.str.src).quadSections (nats s.str.checking) (nats s.str.words) s.str.qmask).inForce 2
      (nats s.str.checking) (s.str.src == 3) := rfl

theorem State.quadIslands_does (ws : List Nat) (q src : Nat) : Does [.regs, .chans] [] s (s.quadIslands ws q src) := by
  unfold State.quadIslands
  extract_lets isl clear s3
  have hclear : ∀ (t : State) (n : Nat), Does [.regs, .chans] [] t (clear t n) := fun t n =>
    Does.ite (fun _ => Does.foldl (fun _ _ => Does.setReg_any (by decide) Does.refl) Does.refl) (fun _ => Does.refl)
  have h3 : Does [.regs, .chans] [] s s3 :=
    Does.foldl (fun _ _ => State.setRoute_does.call (by decide) Does.refl) (Does.foldl (fun _ _ => State.setXbar_does.call (by decide) Does.refl)
      (Does.foldl (fun _ _ => State.setIsland_does) (Does.foldl hclear Does.refl)))
  exact Does.ite (fun _ => Does.foldl (fun _ _ => Does.ite (fun _ => State.setT6_does) (fun _ => Does.refl)) h3) (fun _ => h3)

theorem State.quadSections_does (ws old : List Nat) (q : Nat) : Does [.regs, .loops, .sram, .tasks] [] s (s.quadSections ws old q) := by
  unfold State.quadSections
  extract_lets s4 inQ stays s5 s6
  have h4 : Does [.regs, .loops, .sram, .tasks] [] s s4 :=
    Does.foldl (fun _ _ => Does.ite (fun _ => State.setLoopOf_does.call (by decide) (State.setGangOf_does.call (by decide) Does.refl))
      (fun _ => Does.refl)) Does.refl
  have h5 : Does [.regs, .loops, .sram, .tasks] [] s s5 := Does.foldl (fun _ _ => State.setTask_does.call (by decide) Does.refl) h4
  have h6 : Does [.regs, .loops, .sram, .tasks] [] s s6 := Does.foldl (fun _ _ => State.bindTask_does.call (by decide) Does.refl) h5
  exact State.setTwinSection_does.call (by decide) (State.setEngines_does.call (by decide) h6)

theorem KeepsReg.quadIslands (ws : List Nat) (q src : Nat) : KeepsReg aTWN_STAT s (s.quadIslands ws q src) := by
  unfold State.quadIslands
  extract_lets isl clear s3
  have hclear : ∀ (t : State) (n : Nat), KeepsReg aTWN_STAT t (clear t n) := fun t n =>
    iteInduction (motive := KeepsReg aTWN_STAT t) (fun _ => KeepsReg.bindsCleared n) (fun _ => KeepsReg.refl)
  have h3 : KeepsReg aTWN_STAT s s3 := KeepsReg.foldl (fun _ _ => KeepsReg.setRoute _) _ (KeepsReg.foldl (fun _ _ => KeepsReg.setXbar _) _
    (KeepsReg.foldl (fun _ _ => KeepsReg.setIsland _) _ (KeepsReg.foldl hclear _ KeepsReg.refl)))
  exact iteInduction (motive := KeepsReg aTWN_STAT s)
    (fun _ => KeepsReg.foldl (fun t n => iteInduction (motive := KeepsReg aTWN_STAT t) (fun _ => KeepsReg.setT6 n) (fun _ => KeepsReg.refl)) _ h3)
    (fun _ => h3)

theorem KeepsReg.quadSections (ws old : List Nat) (q : Nat) : KeepsReg aTWN_STAT s (s.quadSections ws old q) := by
  unfold State.quadSections
  extract_lets s4 inQ stays s5 s6
  have h4 : KeepsReg aTWN_STAT s s4 := KeepsReg.foldl (fun t ch => iteInduction (motive := KeepsReg aTWN_STAT t)
    (fun _ => (KeepsReg.setGangOf ws ch).trans (KeepsReg.setLoopOf ws ch)) (fun _ => KeepsReg.refl)) _ KeepsReg.refl
  have h5 : KeepsReg aTWN_STAT s s5 := KeepsReg.foldl (fun _ _ => .of_does State.setTask_does (by decide) (by decide)) _ h4
  have h6 : KeepsReg aTWN_STAT s s6 := KeepsReg.foldl (fun _ _ => .of_does State.bindTask_does (by decide) (by decide)) _ h5
  exact (h6.trans (.of_does State.setEngines_does (by decide) (by decide))).trans (KeepsReg.setTwinSection ws)

/-- What an apply leaves (R443). -/
theorem State.applyQuads_shows (s : State) : InForce s s.applyQuads ∧ s.applyQuads.twin = s.twin ∧ s.applyQuads.hbmMem = s.hbmMem ∧
    s.applyQuads.spill = s.spill := by
  have hall : Does [.regs, .causes, .fresh, .sram, .chans, .loops, .tasks, .str, .mgt] [] s s.applyQuads := State.applyQuads_does
  refine ⟨?_, ?_, hall.same .hbmMem (by decide) (by decide), hall.same .spill (by decide) (by decide)⟩
  · rw [State.applyQuads_eq]
    have hset := (State.quadSections_does (nats s.str.checking) (nats s.str.words) s.str.qmask).call (s := s)
      (by decide : within _ _ [.regs, .loops, .sram, .tasks, .chans] [] = true)
      ((State.quadIslands_does (nats s.str.checking) s.str.qmask s.str.src).mono (by decide))
    refine InForce.of_checking (State.inForce_shows _ 2 _ _) (congrArg Str.checking (hset.same .str (by decide) (by decide)))
  · rw [State.applyQuads_eq]
    have hislands := KeepsReg.quadIslands (s := s) (nats s.str.checking) s.str.qmask s.str.src
    generalize s.quadIslands (nats s.str.checking) s.str.qmask s.str.src = a at *
    have hsections := KeepsReg.quadSections (s := a) (nats s.str.checking) (nats s.str.words) s.str.qmask
    generalize a.quadSections (nats s.str.checking) (nats s.str.words) s.str.qmask = b at *
    exact State.fld_congr fTWN_STAT_STATE ((hislands.trans hsections).trans (.of_does State.inForce_does (by decide) (by decide)))

end Sys2Proof.Machine
end

section
/-! Loading, applying, storing and unloading a structure: the statement (O38; R438 to R444, R446). -/
namespace Sys2Proof.Machine

variable {s t u : State} {by_ : Issuer} {good : Bool} {r : Refused}

/-! ## STR_CHECK_DONE -/

theorem exec_strCheckDone_idle (h : s.bit aSTR_STAT fSTR_STAT_BUSY = false) : exec (.strCheckDone good) s = .next s := if_pos h

theorem exec_strCheckDone_refused (h : s.bit aSTR_STAT fSTR_STAT_BUSY = true) (hr : s.checkStream good = some r) : exec (.strCheckDone good) s =
    .next (if s.str.boot ∧ s.str.src = 2 then (s.dropChecked.strRefuse r).bootReference else s.dropChecked.strRefuse r) := by
  refine (if_neg (by rw [h]; decide)).trans ?_
  rw [hr]

theorem exec_strCheckDone_full (h : s.bit aSTR_STAT fSTR_STAT_BUSY = true) (hr : s.checkStream good = none) (hq : s.str.qmask = 0) :
    exec (.strCheckDone good) s = .next s.applyFull := by
  refine (if_neg (by rw [h]; decide)).trans ?_
  rw [hr]
  exact if_pos hq

/-- A reload that has passed its check. -/
def State.passedCheck (s : State) : State :=
  ((s.setBit aSTR_STAT fSTR_STAT_BUSY false).setBit aSTR_STAT fSTR_STAT_CHECKED true).setFld aSTR_STAT fSTR_STAT_QMASK s.str.qmask

theorem exec_strCheckDone_checked (h : s.bit aSTR_STAT fSTR_STAT_BUSY = true) (hr : s.checkStream good = none) (hq : s.str.qmask ≠ 0) :
    exec (.strCheckDone good) s = .next s.passedCheck := by
  refine (if_neg (by rw [h]; decide)).trans ?_
  rw [hr]
  exact if_neg hq

theorem State.passedCheck_shows (s : State) : s.passedCheck.bit aSTR_STAT fSTR_STAT_BUSY = false ∧
    s.passedCheck.bit aSTR_STAT fSTR_STAT_CHECKED = true ∧ s.passedCheck.str = s.str ∧ KeepsRegs [aSTR_STAT] s s.passedCheck ∧
    KeepsMemory s s.passedCheck := by
  refine ⟨?_, ?_, rfl, (((KeepsRegs.refl _ s).setBit (by simp) _ _).setBit (by simp) _ _).setFld (by simp) _ _, .of_fields rfl rfl rfl⟩
  · refine (State.bit_setFld_beside _ _ _ _ _ (by decide) (by decide) (by decide)).trans ?_
    exact (State.bit_setBit_beside _ _ _ _ _ (by decide) (by decide) (by decide)).trans (State.bit_setBit_self _ _ _ _ rfl (by decide))
  · refine (State.bit_setFld_beside _ _ _ _ _ (by decide) (by decide) (by decide)).trans ?_
    exact State.bit_setBit_self _ _ _ _ rfl (by decide)

/-- What a check refused leaves, before what boot firmware does with it (R438). -/
theorem State.refusedCheck_shows (s : State) (r : Refused) : StrRefused (r.1 % 16) s.dropChecked (s.dropChecked.strRefuse r) ∧
    (s.dropChecked.strRefuse r).bit aSTR_STAT fSTR_STAT_BUSY = false ∧ (s.dropChecked.strRefuse r).str.words = s.str.words ∧
    (s.dropChecked.strRefuse r).str.checking = [] ∧ Raises 6 islManagement s (s.dropChecked.strRefuse r) ∧
    KeepsRegs [aSTR_STAT, aSTR_FOFF, aSTR_FOFF + 4, aSTR_LAT] s (s.dropChecked.strRefuse r) ∧ KeepsMemory s (s.dropChecked.strRefuse r) := by
  have hdrop := s.dropChecked_shows
  generalize s.dropChecked = a at *
  have hrefused := a.strRefuse_shows r
  generalize a.strRefuse r = b at *
  refine ⟨hrefused, ?_, by rw [hrefused.str, hdrop.str], by rw [hrefused.str, hdrop.str], ?_, (hdrop.regs.mono (by simp)).trans hrefused.regs,
    hdrop.memory.trans hrefused.memory⟩
  · exact (congrArg (· != 0) (hrefused.low fSTR_STAT_BUSY (by decide))).trans hdrop.busy
  · have hraise := hrefused.raised
    unfold Raises at hraise ⊢
    rwa [hdrop.count] at hraise

/-- FALLBACK and FS 7 of the reference stream that boot firmware loads (R441). -/
def State.fallenBack (s : State) : State := ((s.latch aSTR_LAT fSTR_LAT_FALLBACK).causeOn 7 0).raise 7 islManagement

/-- What the fall back to the reference stream leaves. -/
theorem State.bootReference_shows (s : State) : CheckBegun referenceStream 3 0 true s.fallenBack s.bootReference ∧
    FaultLatched aSTR_LAT 17 fSTR_LAT_FALLBACK 7 islManagement s s.fallenBack ∧
    s.bootReference.bit aSTR_LAT fSTR_LAT_FALLBACK = true ∧ s.bootReference.causeStands 7 = true ∧ Raises 7 islManagement s s.bootReference ∧
    (∀ d ∈ s.agenda, d ∈ s.bootReference.agenda) ∧ KeepsMemory s s.bootReference := by
  have hfault := s.faultLatched (f := fSTR_LAT_FALLBACK) rfl (by decide) adr_STR_LAT 7 islManagement
  have heq : s.bootReference = s.fallenBack.startCheck referenceStream 3 0 none true := rfl
  have hon : ((s.latch aSTR_LAT fSTR_LAT_FALLBACK).causeOn 7 0).agenda = s.agenda :=
    (State.causeOn_does (s := s.latch aSTR_LAT fSTR_LAT_FALLBACK) (fs := 7) (inst := 0)).same .agenda (by decide) (by decide)
  have hkept : ∀ d ∈ s.agenda, d ∈ s.fallenBack.agenda := by
    unfold State.fallenBack
    rw [State.raise_agenda, hon]
    exact fun d hd => subset_insertDue _ _ hd
  change FaultLatched aSTR_LAT 17 fSTR_LAT_FALLBACK 7 islManagement s s.fallenBack at hfault
  rw [heq]
  generalize s.fallenBack = a at *
  have hbegun := a.startCheck_shows referenceStream 3 0 none true
  have hdoes : Does [.str] [17] a (a.startCheck referenceStream 3 0 none true) := State.startCheck_does
  generalize a.startCheck referenceStream 3 0 none true = b at *
  refine ⟨hbegun, hfault, (State.bit_congr _ (hbegun.regs _ (by decide))).trans hfault.latched, ?_, ?_, fun d hd => by rw [hbegun.agenda]; exact hkept d hd,
    (KeepsMemory.of_does hfault.does (by decide)).trans hbegun.memory⟩
  · have hcause := hfault.cause
    unfold State.causeStands at hcause ⊢
    rwa [hdoes.same .causes (by decide) (by decide)]
  · have hraise := hfault.raised
    unfold Raises at hraise ⊢
    rwa [hbegun.agenda]

/-! ## STR_APPLY and STORE -/

theorem exec_strApply_applies (hchecked : s.bit aSTR_STAT fSTR_STAT_CHECKED = true) (hbusy : s.bit aSTR_STAT fSTR_STAT_BUSY = false)
    (hallowed : s.applyAllowed = true) (habort : s.abortDue = false) : exec (.strApply by_) s = .next s.applyQuads :=
  if_pos ⟨hchecked, hbusy, hallowed, habort⟩

theorem exec_strApply_refused (h : s.bit aSTR_STAT fSTR_STAT_CHECKED = false ∨ s.bit aSTR_STAT fSTR_STAT_BUSY = true ∨ s.applyAllowed = false ∨
    s.abortDue = true) : exec (.strApply by_) s = .next (s.strRefuse (9, 0, 0)) := by
  refine if_neg fun ⟨hchecked, hbusy, hallowed, habort⟩ => ?_
  rcases h with h | h | h | h
  · exact absurd (h.symm.trans hchecked) (by decide)
  · exact absurd (h.symm.trans hbusy) (by decide)
  · exact absurd (h.symm.trans hallowed) (by decide)
  · exact absurd (h.symm.trans habort) (by decide)

theorem not_storeRefused (hbusy : s.bit aSTR_STAT fSTR_STAT_BUSY = false) (hforce : s.strInForce = true) :
    ¬ (s.bit aSTR_STAT fSTR_STAT_BUSY = true ∨ s.strInForce = false) := by
  simp [hbusy, hforce]

theorem exec_store_good (hbusy : s.bit aSTR_STAT fSTR_STAT_BUSY = false) (hforce : s.strInForce = true) :
    exec (.store true) s = .next { s with str := { s.str with startSlot := s.str.words } } :=
  (if_neg (not_storeRefused hbusy hforce)).trans (if_pos rfl)

theorem exec_store_failed (hbusy : s.bit aSTR_STAT fSTR_STAT_BUSY = false) (hforce : s.strInForce = true) :
    exec (.store false) s = .next ((s.latch aSTR_LAT fSTR_LAT_STOREFAIL).raise 6 islManagement) :=
  (if_neg (not_storeRefused hbusy hforce)).trans (if_neg (by decide))

theorem exec_store_refused (h : s.strInForce = false ∨ s.bit aSTR_STAT fSTR_STAT_BUSY = true) :
    exec (.store good) s = .next (s.strRefuse (9, 0, 0)) := if_pos h.symm

/-! ## UNLOAD -/

theorem exec_unload_refused (h : s.bit aSTR_STAT fSTR_STAT_BUSY = true ∨ s.unloadAllowed = false) :
    exec (.unload by_) s = .next (s.strRefuse (9, 0, 0)) := if_pos h

/-- The status of a module without a structure. -/
def State.unloadShown (s : State) (m : Bool) : State :=
  (((s.setTwin twDetached).setBit aACQ_STAT fACQ_STAT_RUN m).setFld aSTR_STAT fSTR_STAT_STATE 0).setBit aSTR_STAT fSTR_STAT_REF false

theorem exec_unload_unloads (hbusy : s.bit aSTR_STAT fSTR_STAT_BUSY = false) (hallowed : s.unloadAllowed = true) : exec (.unload by_) s =
    .next (((s.logStream 4).dropChecked.loseStructure).unloadShown (s.bit aACQ_STAT fACQ_STAT_RUN)) :=
  if_neg (by simp [hbusy, hallowed])

theorem State.unloadShown_shows (s : State) (m : Bool) : (s.unloadShown m).strInForce = false ∧ (s.unloadShown m).twin = twDetached ∧
    Does [.causes, .fresh, .twn] [10, 14, 17] s (s.unloadShown m) := by
  have htwin := s.setTwin_twin (st := twDetached) (by decide)
  have hdoes : Does [.causes, .fresh, .twn] [14] s (s.setTwin twDetached) := State.setTwin_does
  have heq : s.unloadShown m = (((s.setTwin twDetached).setBit aACQ_STAT fACQ_STAT_RUN m).setFld aSTR_STAT fSTR_STAT_STATE 0).setBit aSTR_STAT
    fSTR_STAT_REF false := rfl
  rw [heq]
  generalize s.setTwin twDetached = a at *
  refine ⟨?_, ?_, Does.setBit adr_STR_STAT (by decide) (Does.setFld adr_STR_STAT (by decide) (Does.setBit adr_ACQ_STAT (by decide)
    (hdoes.mono (by decide))))⟩
  · have hstate : ((a.setBit aACQ_STAT fACQ_STAT_RUN m).setFld aSTR_STAT fSTR_STAT_STATE 0).fld aSTR_STAT fSTR_STAT_STATE = 0 :=
      (State.fld_setFld_self _ _ _ _ (by decide) (by decide)).trans rfl
    exact congrArg (· != 0) ((State.fld_setFld_beside _ _ _ _ _ (by decide) (by decide) (by decide)).trans hstate)
  · have hkeeps : KeepsReg aTWN_STAT a ((((a.setBit aACQ_STAT fACQ_STAT_RUN m)).setFld aSTR_STAT fSTR_STAT_STATE 0).setBit aSTR_STAT fSTR_STAT_REF
      false) := ((KeepsReg.refl.setFld (by decide) fACQ_STAT_RUN m.toNat).setFld (by decide) _ _).setFld (by decide) fSTR_STAT_REF _
    exact (State.fld_congr fTWN_STAT_STATE hkeeps).trans htwin

/-- What is left of a structure that is lost. -/
theorem State.loseStructure_shows (s : State) : s.loseStructure.str = { s.str with words := [], version := 0, plain := [], policy := [] } ∧
    s.loseStructure.tasks = [] := by
  unfold State.loseStructure
  extract_lets s1 keep s2
  have h1 : Does [.regs] [] s s1 := Does.foldl (fun _ _ => Does.setReg_any (by decide) Does.refl) Does.refl
  have h2 : Does [.regs] [] s s2 := Does.foldl (fun _ _ => Does.setReg_any (by decide) Does.refl) h1
  have hstr : s2.str = s.str := h2.same .str (by decide) (by decide)
  exact ⟨congrArg (fun x : Str => { x with words := [], version := 0, plain := [], policy := [] }) hstr, rfl⟩

/-- What an UNLOAD leaves (R441). -/
theorem unload_leaves (hbusy : s.bit aSTR_STAT fSTR_STAT_BUSY = false) (hallowed : s.unloadAllowed = true) : Completes (.unload by_) s (fun t =>
    t.strInForce = false ∧ t.str.words = [] ∧ t.str.plain = [] ∧ t.str.startSlot = s.str.startSlot ∧ t.tasks = [] ∧ t.twin = twDetached ∧
    t.agenda = s.agenda ∧ KeepsMemory s t) := by
  refine ⟨_, exec_unload_unloads hbusy hallowed, ?_⟩
  have hlog : Does [.mgt] [16] s (s.logStream 4) := State.logStream_does
  have hlogstr : (s.logStream 4).str = s.str := hlog.same .str (by decide) (by decide)
  generalize s.logStream 4 = a at *
  have hdrop := a.dropChecked_shows
  have hdropd : Does [.mgt, .str] [16, 17] s a.dropChecked := State.dropChecked_does.call (by decide) (hlog.mono (by decide))
  generalize a.dropChecked = b at *
  obtain ⟨hlost, htasks⟩ := b.loseStructure_shows
  have hlostd : Does [.mgt, .str, .regs, .loops, .tasks, .sched, .acq] [16, 17] s b.loseStructure :=
    State.loseStructure_does.call (by decide) (hdropd.mono (by decide))
  generalize b.loseStructure = c at *
  obtain ⟨hforce, htwin, hshown⟩ := c.unloadShown_shows (s.bit aACQ_STAT fACQ_STAT_RUN)
  have hall : Does [.mgt, .str, .regs, .loops, .tasks, .sched, .acq, .causes, .fresh, .twn] [10, 14, 16, 17] s
    (c.unloadShown (s.bit aACQ_STAT fACQ_STAT_RUN)) := hshown.call (by decide) (hlostd.mono (by decide))
  generalize c.unloadShown (s.bit aACQ_STAT fACQ_STAT_RUN) = d at *
  have hstr : d.str = c.str := hshown.same .str (by decide) (by decide)
  refine ⟨hforce, by rw [hstr, hlost], by rw [hstr, hlost], by rw [hstr, hlost, hdrop.str, hlogstr], ?_, htwin,
    hall.same .agenda (by decide) (by decide), .of_does hall (by decide)⟩
  have hkept : d.tasks = c.tasks := hshown.same .tasks (by decide) (by decide)
  rw [hkept, htasks]

/-! ## The statement -/

/-- A refusal as the statement says it. -/
theorem StrRefused.refused {cause : Nat} (h : StrRefused cause s t) : t.str = s.str ∧ t.fld aSTR_STAT fSTR_STAT_CAUSE = cause ∧
    t.bit aSTR_LAT fSTR_LAT_REJ = true ∧ Raises 6 islManagement s t ∧ KeepsRegs [aSTR_STAT, aSTR_FOFF, aSTR_FOFF + 4, aSTR_LAT] s t ∧
    KeepsMemory s t := ⟨h.str, h.cause, h.latched, h.raised, h.regs, h.memory⟩

/-- The boot's fall back after a check refused. -/
theorem strCheckDone_fallsBack (hbusy : s.bit aSTR_STAT fSTR_STAT_BUSY = true) (hr : s.checkStream good = some r) (hboot : s.str.boot = true)
    (hsrc : s.str.src = 2) : Completes (.strCheckDone good) s (fun t => t.bit aSTR_STAT fSTR_STAT_BUSY = true ∧ t.str.checking = referenceStream ∧
      t.str.src = 3 ∧ t.str.boot = true ∧ t.str.words = s.str.words ∧ t.bit aSTR_LAT fSTR_LAT_FALLBACK = true ∧
      t.causeStands 7 = true ∧ Raises 7 islManagement s t ∧ Raises 6 islManagement s t ∧ KeepsMemory s t) := by
  obtain ⟨hrefused, -, hwords, -, hraise, -, hmem⟩ := s.refusedCheck_shows r
  have hcount : (s.dropChecked.strRefuse r).count = s.count :=
    ((State.strRefuse_does (s := s.dropChecked) (r := r)).same .count (by decide) (by decide)).trans s.dropChecked_shows.count
  refine ⟨_, (exec_strCheckDone_refused hbusy hr).trans (congrArg Host.Outcome.next (if_pos ⟨hboot, hsrc⟩)), ?_⟩
  generalize s.dropChecked.strRefuse r = a at *
  obtain ⟨hbegun, hfault, hlat, hcause, hraise7, hkept, hmem'⟩ := a.bootReference_shows
  have hfallen : a.fallenBack.str = a.str := hfault.does.same .str (by decide) (by decide)
  refine ⟨hbegun.busy, hbegun.checking, hbegun.source, hbegun.booting, ?_, hlat, hcause, ?_, ?_, hmem.trans hmem'⟩
  · rw [hbegun.words, hfallen, hwords]
  · unfold Raises at hraise7 ⊢
    rwa [hcount] at hraise7
  · exact hkept _ hraise

/-- Settles O38: what comes into force is what was being checked, and a refusal writes its cause alone. -/
theorem structures : Obligations.Structures := by
  unfold Obligations.Structures
  refine ⟨?loads, ?applies⟩
  case loads =>
    intro src q good r len s refused
    refine ⟨fun h => ⟨_, exec_strLoad_refused h, (s.strRefuse_shows (9, 0, 0)).refused⟩, fun hb hq hslot => ?_,
      fun hb hq hslot => ⟨_, exec_strLoad_empty ⟨hb, hq⟩ hslot, (s.strRefuse_shows (10, 0, 0)).refused⟩, fun hb hq => ?_,
      fun hb hq hsrc hok => ⟨_, exec_strLoad_outside ⟨hb, hq⟩ hsrc hok, (s.strRefuse_shows (10, 0, 0)).refused⟩,
      fun hb hq hsrc hmax hok hlen hall => ?_, fun hb hr hboot hsrc => strCheckDone_fallsBack hb hr hboot hsrc,
      fun hb => ⟨s, exec_strCheckDone_idle hb, rfl⟩, fun hb hr hboot => ?_, fun hb hr hq => ⟨_, exec_strCheckDone_checked hb hr hq, s.passedCheck_shows⟩,
      fun hb hr hq => ?_, ?_⟩
    · have hbegun := s.startCheck_shows s.str.startSlot 2 q.toNat none false
      exact ⟨_, exec_strLoad_slot ⟨hb, hq⟩ hslot, hbegun.busy, hbegun.checking, hbegun.qmask, hbegun.words, hbegun.agenda, hbegun.regs, hbegun.memory⟩
    · have hbegun := s.startCheck_shows referenceStream 3 q.toNat none false
      exact ⟨_, exec_strLoad_reference ⟨hb, hq⟩, hbegun.busy, hbegun.checking, hbegun.source, hbegun.qmask, hbegun.words, hbegun.regs, hbegun.memory⟩
    · have hbegun := s.startCheck_shows (s.spaceWords (src.toNat + 1) (s.wide aSTR_ADDR 2) len) src.toNat q.toNat
        (some (src.toNat + 1, s.wide aSTR_ADDR 2, 8 * len)) false
      exact ⟨_, exec_strLoad_space ⟨hb, hq⟩ hsrc hmax hok hlen hall, hbegun.busy, hbegun.words, hbegun.qmask, hbegun.checking, hbegun.regs, hbegun.memory⟩
    · obtain ⟨hrefused, hbusy, hwords, hchecking, hraise, hregs, hmem⟩ := s.refusedCheck_shows r
      exact ⟨_, (exec_strCheckDone_refused hb hr).trans (congrArg Host.Outcome.next (if_neg (by simp [hboot]))), hbusy, hwords, hchecking,
        hrefused.cause, hrefused.latched, hraise, hregs, hmem⟩
    · obtain ⟨hforce, htwin, hhbm, hspill⟩ := s.applyFull_shows
      exact ⟨_, exec_strCheckDone_full hb hr hq, hforce.busy, hforce.state, hforce.words, hforce.checking, htwin, hhbm, hspill⟩
    · have hdrop := s.dropChecked_shows
      exact ⟨_, rfl, hdrop.busy, hdrop.checked, by rw [hdrop.str], by rw [hdrop.str], hdrop.agenda, hdrop.regs, hdrop.memory⟩
  case applies =>
    intro by_ s refused
    refine ⟨fun hchecked hb hallowed habort => ?_, fun h => ⟨_, exec_strApply_refused h, (s.strRefuse_shows (9, 0, 0)).refused⟩,
      fun hb hforce => ⟨_, exec_store_good hb hforce, rfl⟩, fun hb hforce => ?_,
      fun h good => ⟨_, exec_store_refused h, (s.strRefuse_shows (9, 0, 0)).refused⟩, fun hb hallowed => unload_leaves hb hallowed,
      fun h => ⟨_, exec_unload_refused h, (s.strRefuse_shows (9, 0, 0)).refused⟩⟩
    · obtain ⟨hforce, htwin, hhbm, hspill⟩ := s.applyQuads_shows
      exact ⟨_, exec_strApply_applies hchecked hb hallowed habort, hforce.words, hforce.checking, hforce.checked, hforce.state, htwin, hhbm, hspill⟩
    · have hkeeps : KeepsRegs [aSTR_LAT] s (s.latch aSTR_LAT fSTR_LAT_STOREFAIL) := (KeepsRegs.refl _ s).latch (by simp) _
      exact ⟨_, exec_store_failed hb hforce, rfl, State.bit_latch_self s _ _ rfl (by decide), raises_of_count rfl 6 islManagement, hkeeps,
        .of_fields rfl rfl rfl⟩

end Sys2Proof.Machine
end
